-- ==== Sys2Proof/Word.lean ====
section
/-! DEFINITION. The word types of the model and their plainest arithmetic. Registers are 32-bit words (R8);
ticks of the air timebase, counts, sizes and indexes are natural numbers. -/

namespace Sys2Proof

/-- One octet. -/
abbrev Byte := BitVec 8

/-- One 32-bit register or memory word (R8). -/
abbrev Word := BitVec 32

/-- A count of ATB ticks, 31.25 ns each (R7). -/
abbrev Tick := Nat

/-- A 64-byte structure of the frame store or the host rings: node context, descriptor, item header, submission entry. -/
abbrev Cell512 := BitVec 512

end Sys2Proof
end

