-- ==== Sys2Proof/Config.lean ====
section
/-! DEFINITION. What an implementation fixes and the spec leaves open. Every constant here is opaque: nothing in Lean can
evaluate it, so a statement holds for every value it could have (log entries 1, 2, 3). -/

namespace Sys2Proof

/-- The stream of free values: the k-th value the spec leaves open in a run is bits of freeBits k (log entry 1). -/
opaque Config.freeBits : Nat → BitVec 64

/-- CCM* with AES-128 or AES-256 as IEEE 802.15.4 and the device use it (R242): the ciphertext of the m octets under a key, a nonce
and a-data. The standard's algorithm is outside the spec's text; it is a function of these operands (log entry 2). -/
opaque Config.ccmCipher : (key nonce aData plain : List Byte) → List Byte

/-- The CCM* plaintext of a ciphertext under a key, a nonce and a-data (R242; log entry 2). -/
opaque Config.ccmPlain : (key nonce aData cipher : List Byte) → List Byte

/-- The CCM* tag of the given number of octets over a-data and plaintext (R242, R251; log entry 2). -/
opaque Config.ccmTag : (octets : Nat) → (key nonce aData plain : List Byte) → List Byte

/-- SHA-384 of an octet string, 48 octets (R301; log entry 2). -/
opaque Config.sha384 : List Byte → List Byte

/-- ECDSA P-384 verification of a signature over a digest under a public key (R301; log entry 2). -/
opaque Config.ecdsaVerify : (pubKey digest signature : List Byte) → Bool

/-- The device wrap key that the fused secret material yields (R244; log entry 2). -/
opaque Config.deviceWrapKey : List Byte

/-- The octets of the boot ROM, which the spec does not give (R232, R241; log entry 3). -/
opaque Config.bootRom : Nat → Byte

/-- The bits a coded SUN-FSK frame of n uncoded PHR and PSDU bits carries on the air, tail and pad bits included: the
standard's figure, which the spec's text does not state (R87, R101; log entry 3). -/
opaque Config.fskCodedBits : Nat → Nat

/-- The k-th bit of the coded SUN-FSK stream of a frame's PHR and PSDU bits, under a FEC scheme (RSC or NRNSC) and with or without
interleaving: the standard's codes, which the spec's text does not state (R81, R436; log entry 3). -/
opaque Config.fskCode : (rsc interleave : Bool) → List Bool → Nat → Bool

/-- Whether a value that falls between two whole numbers of a field's unit is reported as the upper one: the spec gives the field's
unit and no rounding. The operands are the numerator and denominator of the value (R52, R68, R95; log entry 3). -/
opaque Config.roundsUp : (num den : Nat) → Bool

/-- The gain in 0.5 dB units at which a lane's gain loop starts, which the spec does not give (R79; log entry 3). -/
opaque Config.laneGain : Nat

/-- Word i of the capture memory as capture k left it when it aborted: samples of the air that no command lists (R66, R67; log
entry 3). -/
opaque Config.airWord : (k i : Nat) → BitVec 32

/-- The gain correction of a carrier from the curve's value in 1/256 dB, its entry's TEMP_SLOPE and the die temperature in 1/16 °C:
the spec names the inputs and not the formula (R105, R108; log entry 3). -/
opaque Config.tempGain : (curve slope temp : Int) → Int

/-- The whole number that a quotient between two points of a curve stands for: the spec gives the line and no rounding
(R305; log entry 3). -/
opaque Config.curveRound : (num den : Int) → Int

/-- Which register an access to CLK offsets 0xA0 and 0xB0 reaches: the spec gives each of them two (log entry 11). -/
opaque Config.clkOverlapOut : Bool

/-- The part is of grade AE, as TOP_ID reports: 0x1 for AE, 0x0 for AC (R3, R296; log entry 3). -/
opaque Config.grade : Bool

/-- An octet of flash that an interrupted operation left unreliable: of interruption k, at a physical address (R353, R354;
log entry 3). -/
opaque Config.tornByte : (k addr : Nat) → Byte

/-- The 9 check bits that a program word is stored with: the spec names the code SEC-DED and not its matrix (R344; log entry 85). -/
opaque Config.eccOf : (word : List Byte) → Nat

/-- What the decoder finds in a word and check bits that are not one code word with at most two bits changed, taken mod 3: 0 no error, 1 one
bit corrected, 2 uncorrectable (R344, R350; log entry 85). -/
opaque Config.eccKind : (word : List Byte) → (check : Nat) → Nat

/-- The word that the decoder gives where it finds one bit to correct (R350; log entry 85). -/
opaque Config.eccFix : (word : List Byte) → (check : Nat) → List Byte

/-- The check bits of a program word that an interrupted operation left unreliable: of interruption k, at a physical word (R353, R354; log
entry 3). -/
opaque Config.tornCheck : (k word : Nat) → Nat

/-- The index that the first chunk of a ledger copy has in its nonce and a-data: the spec numbers the chunks and not their first
(R338; log entry 3). -/
opaque Config.firstChunk : Nat

end Sys2Proof
end

