-- ==== Sys2Proof/Machine/Sparse.lean ====
section
/-! DEFINITION. Sparse tables: lists of (key, value) pairs with strictly rising keys and no pair equal to what an unlisted key
reads as, so that equal tables are equal lists. Registers, memories, lanes, staging entries, contexts and cells are held so. -/

namespace Sys2Proof.Machine

/-- A sparse table of values by key. -/
abbrev Sparse (α : Type) := List (Nat × α)

/-- What key k holds; d gives what an unlisted key reads as. -/
def sget {α : Type} (d : Nat → α) : Sparse α → Nat → α
  | [], k => d k
  | (j, v) :: m, k => if k = j then v else if k < j then d k else sget d m k

/-- The table with key k removed. -/
def sdel {α : Type} : Sparse α → Nat → Sparse α
  | [], _ => []
  | (j, v) :: m, k => if k = j then m else if k < j then (j, v) :: m else (j, v) :: sdel m k

/-- The table with key k bound to v in key order, whatever v is. -/
def sput {α : Type} : Sparse α → Nat → α → Sparse α
  | [], k, v => [(k, v)]
  | (j, u) :: m, k, v => if k = j then (k, v) :: m else if k < j then (k, v) :: (j, u) :: m else (j, u) :: sput m k v

/-- The table after key k takes the value v: a value an unlisted key reads as removes the pair. -/
def sset {α : Type} [DecidableEq α] (d : Nat → α) (m : Sparse α) (k : Nat) (v : α) : Sparse α :=
  if v = d k then sdel m k else sput m k v

/-- The canonical form: keys rise strictly from lo on, and no pair equals what an unlisted key reads as. -/
def swfFrom {α : Type} [DecidableEq α] (d : Nat → α) : Nat → Sparse α → Bool
  | _, [] => true
  | lo, (j, v) :: m => decide (lo ≤ j) && !decide (v = d j) && swfFrom d (j + 1) m

/-- The canonical form of a whole table. -/
def swf {α : Type} [DecidableEq α] (d : Nat → α) (m : Sparse α) : Bool := swfFrom d 0 m

/-- The table without the keys in [lo, hi): what a reset of a range does. -/
def sdrop {α : Type} (m : Sparse α) (lo hi : Nat) : Sparse α := m.filter (fun p => !(decide (lo ≤ p.1) && decide (p.1 < hi)))

/-- What key k is bound to, if it is bound. -/
def sfind {α : Type} (m : Sparse α) (k : Nat) : Option α := (m.find? (fun p => p.1 == k)).map (·.2)

/-- The keys bound in the table. -/
def skeys {α : Type} (m : Sparse α) : List Nat := m.map (·.1)

end Sys2Proof.Machine
end

