-- ==== Sys2Proof/Machine/Regs.lean ====
section
/-! DEFINITION. Every register of the device as the spec's register tables give it: address on the physical function's
BAR0 (R27, R29), repetition, and per field its bits, access type (R13), reset value and, where the spec lists or bounds them,
the values that are not reserved (R16). The constants name the registers and fields the operations use. -/

namespace Sys2Proof.Machine

/-- A register field's access type (R13). -/
inductive Acc where
  | rw | ro | wo | w1c | w1s | rwl
  deriving DecidableEq, Repr

/-- One field: lowest bit, width, access type, reset value and the smallest and largest value that is not reserved (R16). -/
structure FieldSpec where
  lo : Nat
  w : Nat
  acc : Acc
  rst : Nat
  lim : Option (Nat × Nat)
  deriving DecidableEq, Repr

/-- One register or array of registers: first address, repetitions as (count, stride), fields. -/
structure RegRow where
  addr : Nat
  dims : List (Nat × Nat)
  fields : List FieldSpec
  deriving DecidableEq, Repr

/-- A field of one register, by the register's address: where it lies and how wide it is. -/
structure RegFld where
  addr : Nat
  lo : Nat
  w : Nat
  deriving DecidableEq, Repr

/-- The field specification of bits lo to lo + w - 1. -/
def fs (lo w : Nat) (acc : Acc) (rst : Nat) : FieldSpec := { lo := lo, w := w, acc := acc, rst := rst, lim := none }

/-- The same with the range of values that are not reserved. -/
def fl (lo w : Nat) (acc : Acc) (rst mn mx : Nat) : FieldSpec :=
  { lo := lo, w := w, acc := acc, rst := rst, lim := some (mn, mx) }

/-- Registers of the TOP block. -/
def rowsTOP : List RegRow := [
  ⟨0x0, [], [fs 0 16 .ro 0x6480, fs 16 8 .ro 0xB0, fs 24 2 .ro 1]⟩, -- TOP_ID (R296)
  ⟨0x10, [], [fs 0 32 .ro 0x1FF]⟩, -- TOP_FEAT_OFFER 0 (R296)
  ⟨0x10, [(4, 0x4)], [fs 0 32 .ro 0]⟩, -- TOP_FEAT_OFFER (R296)
  ⟨0x20, [(4, 0x4)], [fs 0 32 .rw 0]⟩, -- TOP_FEAT_REQ (R296)
  ⟨0x30, [], [fs 0 1 .wo 0, fs 4 2 .ro 0]⟩, -- TOP_FEAT_CTRL (R296)
  ⟨0x40, [(4, 0x4)], [fs 0 32 .ro 0]⟩, -- TOP_FEAT_ACT (R296)
  ⟨0x100, [], [fs 0 1 .wo 0, fs 1 1 .wo 0, fs 16 16 .wo 0]⟩, -- TOP_RESET (R296)
  ⟨0x104, [], [fs 0 1 .ro 0, fs 4 4 .ro 1]⟩, -- TOP_RESET_STS (R296)
  ⟨0x200, [], [fs 0 3 .ro 0, fs 4 3 .ro 3, fs 8 1 .ro 0]⟩, -- TOP_START_STS (R296)
  ⟨0x204, [(4, 0x4)], [fs 0 8 .ro 0, fs 8 8 .ro 0, fs 16 8 .ro 0, fs 24 4 .ro 0, fs 28 2 .ro 0, fs 31 1 .ro 0]⟩, -- TOP_START_REASON (R296)
  ⟨0x220, [], [fs 0 1 .w1s 0]⟩, -- TOP_START_CTRL (R296)
  ⟨0x300, [], [fs 0 32 .ro 0]⟩, -- TOP_CNT_UNMAPPED (R296)
  ⟨0x304, [], [fs 0 32 .ro 0]⟩, -- TOP_CNT_BADSIZE (R296)
  ⟨0x308, [], [fs 0 26 .ro 0, fs 28 1 .ro 0, fs 31 1 .w1c 0]⟩, -- TOP_BAD_LOG (R296)
  ⟨0x310, [], [fs 0 1 .w1c 0, fs 1 1 .w1c 0]⟩, -- TOP_EVT_STS (R296)
  ⟨0x314, [], [fs 0 1 .rw 0, fs 1 1 .rw 0]⟩, -- TOP_EVT_EN (R296)
  ⟨0x8000, [(1024, 0x4)], [fs 0 32 .rw 0]⟩ -- TOP_MBOX (R296)
]

/-- Registers of the CLK block, part 1. -/
def rowsCLK0 : List RegRow := [
  ⟨0x10000, [], [fs 31 1 .w1s 0]⟩, -- CLK_CTRL (R400)
  ⟨0x10004, [], [fs 0 1 .ro 0, fs 1 1 .ro 0, fs 2 1 .ro 0, fs 3 1 .ro 0, fs 4 1 .ro 0, fs 5 1 .w1c 0]⟩, -- CLK_STS (R400)
  ⟨0x10010, [], [fs 0 1 .w1c 0, fs 1 1 .w1c 0, fs 2 1 .w1c 0, fs 3 1 .w1c 0, fs 4 1 .w1c 0, fs 5 1 .w1c 0, fs 6 1 .w1c 0, fs 7 1 .w1c 0]⟩, -- CLK_EVT_STS (R400)
  ⟨0x10014, [], [fs 0 8 .rw 0]⟩, -- CLK_EVT_EN (R400)
  ⟨0x10020, [], [fl 0 17 .rwl 0 10000 125000, fl 24 4 .rwl 1 1 15]⟩, -- CLK_SYN_REF (R400)
  ⟨0x10024, [], [fs 0 10 .rwl 0]⟩, -- CLK_SYN_N (R400)
  ⟨0x10028, [], [fs 0 24 .rwl 0]⟩, -- CLK_SYN_FRAC (R400)
  ⟨0x1002C, [], [fs 0 1 .rwl 0, fs 1 1 .rwl 0]⟩, -- CLK_SYN_CTRL (R400)
  ⟨0x10030, [], [fs 0 6 .ro 0, fs 8 1 .ro 0, fs 16 16 .ro 0]⟩, -- CLK_SYN_STS (R400)
  ⟨0x10034, [], [fs 0 32 .ro 0]⟩, -- CLK_SYN_CNT (R400)
  ⟨0x10038, [], [fs 0 6 .ro 0, fs 8 16 .ro 0, fs 31 1 .w1c 0]⟩, -- CLK_BAND_STORE (R400)
  ⟨0x10040, [], [fl 0 2 .rwl 0 0 2, fs 2 1 .rwl 1, fs 3 1 .rwl 0, fl 8 8 .rwl 0 0 191]⟩, -- CLK_ALN_CFG (R400)
  ⟨0x10044, [], [fs 0 9 .ro 0]⟩, -- CLK_ALN_STS (R400)
  ⟨0x10048, [], [fl 0 21 .rwl 0x7D00 32000 1280000]⟩, -- CLK_SYNC_PERIOD (R400)
  ⟨0x1004C, [], [fl 0 7 .rwl 8 1 96]⟩, -- CLK_SYNC_TOL (R400)
  ⟨0x10050, [], [fs 0 32 .ro 0]⟩, -- CLK_SYNC_CAP_LO (R400)
  ⟨0x10054, [], [fs 0 32 .ro 0]⟩, -- CLK_SYNC_CAP_HI (R400)
  ⟨0x10058, [], [fs 0 8 .ro 0]⟩, -- CLK_SYNC_CAP_PH (R400)
  ⟨0x1005C, [], [fs 0 32 .ro 0]⟩, -- CLK_SYNC_CNT (R400)
  ⟨0x10060, [], [fs 0 32 .ro 0]⟩, -- CLK_CNT_SLIP (R400)
  ⟨0x10070, [], [fl 0 2 .rw 0 0 2, fl 8 8 .rwl 1 1 255, fl 16 8 .rwl 0 0 191]⟩, -- CLK_SYNCOUT_CFG (R400)
  ⟨0x10074, [], [fl 0 21 .rwl 0x7D00 32000 1280000]⟩, -- CLK_SYNCOUT_PERIOD (R400)
  ⟨0x10078, [], [fs 0 21 .rwl 0]⟩, -- CLK_SYNCOUT_OFS (R400)
  ⟨0x10080, [(2, 0x10)], [fl 0 13 .rwl 0x30 8 4096, fl 16 8 .rwl 0 0 191, fs 31 1 .rw 0]⟩ -- CLK_OUT_CFG (R400)
]

/-- Registers of the CLK block, part 2. -/
def rowsCLK1 : List RegRow := [
  ⟨0x100A0, [], [fs 0 1 .w1c 0, fs 1 1 .w1c 0]⟩, -- CLK_ATB_STS (R400)
  ⟨0x100A4, [], [fs 0 32 .ro 0]⟩, -- CLK_ATB_BRIDGE_LO (R400)
  ⟨0x100A8, [], [fs 0 32 .ro 0]⟩, -- CLK_ATB_BRIDGE_HI (R400)
  ⟨0x100AC, [], [fs 0 32 .ro 0]⟩, -- CLK_ATB_UNC (R400)
  ⟨0x100B0, [], [fs 0 8 .rwl 0x14]⟩ -- CLK_XK_CFG (R400)
]

/-- Registers of the PWR block, part 1. -/
def rowsPWR0 : List RegRow := [
  ⟨0x20000, [], [fs 31 1 .w1s 0]⟩, -- PWR_CTRL (R377)
  ⟨0x20004, [], [fs 0 3 .ro 0, fs 4 1 .ro 0]⟩, -- PWR_STS (R377)
  ⟨0x20008, [], [fs 0 3 .wo 0]⟩, -- PWR_CMD (R377)
  ⟨0x2000C, [], [fs 0 4 .ro 0]⟩, -- PWR_CMD_RES (R377)
  ⟨0x20010, [], [fs 0 1 .w1c 0, fs 1 1 .w1c 0, fs 2 1 .w1c 0, fs 3 1 .w1c 0, fs 4 1 .w1c 0, fs 5 1 .w1c 0, fs 6 1 .w1c 0, fs 7 1 .w1c 0]⟩, -- PWR_EVT_STS (R377)
  ⟨0x20014, [], [fs 0 8 .rw 0]⟩, -- PWR_EVT_EN (R377)
  ⟨0x20020, [], [fs 0 5 .rwl 3, fs 8 1 .rwl 0, fs 12 1 .rwl 0, fs 13 1 .rwl 0]⟩, -- PWR_RET_CFG (R377)
  ⟨0x20024, [], [fs 0 1 .rwl 1]⟩, -- PWR_REG_CFG (R377)
  ⟨0x20028, [], [fs 0 16 .rwl 0x12C]⟩, -- PWR_QUIESCE_TMO (R377)
  ⟨0x20030, [], [fs 0 8 .rwl 0xFF, fs 8 8 .rwl 0xFF, fs 16 8 .rwl 0xFF]⟩, -- PWR_TRIM_CFG (R377)
  ⟨0x20034, [], [fs 0 16 .rwl 0xFFFF]⟩, -- PWR_TRIM_BUDGET (R377)
  ⟨0x20038, [], [fs 0 3 .rwl 0, fl 8 7 .rwl 0x10 1 64, fs 16 8 .rwl 1]⟩, -- PWR_WATCH_CFG (R377)
  ⟨0x2003C, [], [fs 0 16 .rwl 0x12C]⟩, -- PWR_WATCH_BUDGET (R377)
  ⟨0x20040, [], [fs 0 1 .rw 0, fs 1 1 .rw 0, fs 2 1 .rw 0, fs 3 1 .rw 0, fs 8 1 .rw 0, fs 16 7 .rw 0]⟩, -- PWR_WAKE_EN (R377)
  ⟨0x20044, [], [fs 0 4 .ro 0, fs 8 1 .ro 0, fs 9 1 .w1c 0, fs 10 1 .w1c 0, fs 31 1 .w1c 0]⟩, -- PWR_WAKE_STS (R377)
  ⟨0x20048, [], [fs 0 8 .rwl 0x64]⟩, -- PWR_WAKE_TMO (R377)
  ⟨0x20050, [], [fs 0 4 .rwl 0, fs 8 8 .rwl 0, fs 16 2 .rwl 0]⟩, -- PWR_AIR_CFG (R377)
  ⟨0x20054, [], [fs 0 32 .rwl 0]⟩, -- PWR_AIR_CODE_LO (R377)
  ⟨0x20058, [], [fs 0 32 .rwl 0]⟩, -- PWR_AIR_CODE_HI (R377)
  ⟨0x2005C, [], [fs 0 32 .rwl 0]⟩, -- PWR_AIR_MASK_LO (R377)
  ⟨0x20060, [], [fs 0 32 .rwl 0]⟩, -- PWR_AIR_MASK_HI (R377)
  ⟨0x20064, [], [fs 0 32 .ro 0]⟩, -- PWR_AIR_CNT (R377)
  ⟨0x20068, [], [fs 0 32 .ro 0]⟩, -- PWR_CNT_AON_BO (R377)
  ⟨0x20080, [], [fs 0 16 .ro 0, fs 16 5 .ro 0]⟩ -- PWR_ARB_STS (R377)
]

/-- Registers of the PWR block, part 2. -/
def rowsPWR1 : List RegRow := [
  ⟨0x20084, [], [fs 0 16 .ro 0]⟩, -- PWR_ARB_BUDGET (R377)
  ⟨0x20088, [], [fs 0 16 .rwl 0]⟩, -- PWR_ARB_RESERVE (R377)
  ⟨0x2008C, [], [fs 0 32 .ro 0]⟩, -- PWR_CNT_GRANT (R377)
  ⟨0x20090, [], [fs 0 32 .ro 0]⟩, -- PWR_CNT_REFUSED (R377)
  ⟨0x20094, [], [fs 0 32 .ro 0]⟩, -- PWR_CNT_WAITED (R377)
  ⟨0x200A0, [], [fs 0 16 .ro 0, fs 16 1 .ro 0]⟩, -- PWR_TEMP_STS (R377)
  ⟨0x200A4, [], [fs 0 16 .rwl 0x730, fs 16 8 .rwl 0x50]⟩, -- PWR_TEMP_CFG (R377)
  ⟨0x200A8, [], [fs 0 32 .ro 0]⟩, -- PWR_CNT_TRIP (R377)
  ⟨0x200C0, [], [fs 0 12 .ro 0, fs 16 1 .ro 0, fs 17 1 .w1c 0]⟩, -- PWR_VBAK (R377)
  ⟨0x200C4, [], [fs 0 12 .rwl 0x76C]⟩, -- PWR_VBAK_LOW (R377)
  ⟨0x200C8, [], [fs 0 24 .rw 0]⟩, -- PWR_GAUGE_CAP (R377)
  ⟨0x200CC, [], [fs 0 24 .ro 0, fs 30 1 .w1c 0, fs 31 1 .ro 1]⟩, -- PWR_GAUGE_REM (R377)
  ⟨0x200D0, [], [fs 0 1 .wo 0]⟩, -- PWR_GAUGE_CAL (R377)
  ⟨0x200FC, [], [fs 0 1 .wo 0]⟩ -- PWR_CNT_CLR (R377)
]

/-- Registers of the RTC block. -/
def rowsRTC : List RegRow := [
  ⟨0x30000, [], [fs 0 1 .rw 0]⟩, -- RTC_CTRL (R401)
  ⟨0x30004, [], [fs 0 1 .w1c 0, fs 1 1 .ro 1, fs 2 1 .ro 0, fs 3 1 .ro 0]⟩, -- RTC_STS (R401)
  ⟨0x30010, [], [fs 0 15 .ro 0]⟩, -- RTC_SUBSEC (R401)
  ⟨0x30014, [], [fs 0 32 .rw 0]⟩, -- RTC_SEC_LO (R401)
  ⟨0x30018, [], [fs 0 16 .rw 0]⟩, -- RTC_SEC_HI (R401)
  ⟨0x30020, [], [fs 0 8 .rw 0]⟩, -- RTC_CAL (R401)
  ⟨0x30030, [], [fs 0 32 .rw 0]⟩, -- RTC_ALARM_LO (R401)
  ⟨0x30034, [], [fs 0 16 .rw 0]⟩, -- RTC_ALARM_HI (R401)
  ⟨0x30038, [], [fs 0 1 .ro 0, fs 1 1 .w1c 0, fs 2 1 .ro 0, fs 3 1 .wo 0, fs 4 1 .rw 0, fs 5 7 .rw 0]⟩, -- RTC_ALARM_CTRL (R401)
  ⟨0x30040, [], [fs 0 7 .rw 0, fs 7 1 .rw 0]⟩ -- RTC_SEC_EVT (R401)
]

/-- Registers of the TIM block. -/
def rowsTIM : List RegRow := [
  ⟨0x40000, [], [fs 0 32 .ro 0]⟩, -- TIM_STS (R402)
  ⟨0x40004, [], [fs 0 32 .wo 0]⟩, -- TIM_START (R402)
  ⟨0x40008, [], [fs 0 32 .wo 0]⟩, -- TIM_STOP (R402)
  ⟨0x40100, [(32, 0x40)], [fs 0 1 .rw 0, fs 1 1 .rw 0, fs 2 1 .wo 0]⟩, -- TIM_CTRL (R402)
  ⟨0x40104, [(32, 0x40)], [fl 0 2 .rw 0 0 2, fs 4 4 .rw 0]⟩, -- TIM_CFG (R402)
  ⟨0x40108, [(32, 0x40)], [fs 0 32 .rw 0]⟩, -- TIM_CNT (R402)
  ⟨0x4010C, [(32, 0x40)], [fs 0 32 .rw 0xFFFFFFFF]⟩, -- TIM_TOP (R402)
  ⟨0x40110, [(32, 0x40)], [fs 0 32 .rw 0xFFFFFFFF]⟩, -- TIM_CMP0 (R402)
  ⟨0x40114, [(32, 0x40)], [fs 0 32 .rw 0xFFFFFFFF]⟩, -- TIM_CMP1 (R402)
  ⟨0x40118, [(32, 0x40)], [fs 0 32 .ro 0]⟩, -- TIM_CAP (R402)
  ⟨0x4011C, [(32, 0x40)], [fs 0 32 .ro 0]⟩, -- TIM_CAP_ATB_LO (R402)
  ⟨0x40120, [(32, 0x40)], [fs 0 32 .ro 0]⟩, -- TIM_CAP_ATB_HI (R402)
  ⟨0x40124, [(32, 0x40)], [fs 0 1 .w1c 0, fs 1 1 .w1c 0, fs 2 1 .w1c 0, fs 3 1 .w1c 0, fs 4 1 .w1c 0, fs 5 1 .ro 0]⟩, -- TIM_STATUS (R402)
  ⟨0x40128, [(32, 0x40)], [fs 0 7 .rw 0, fs 7 1 .rw 0, fs 8 7 .rw 0, fs 15 1 .rw 0, fs 16 7 .rw 0, fs 23 1 .rw 0, fs 24 7 .rw 0, fs 31 1 .rw 0]⟩ -- TIM_EVT (R402)
]

/-- Registers of the EVR block. -/
def rowsEVR : List RegRow := [
  ⟨0x50000, [], [fs 31 1 .w1s 0]⟩, -- EVR_CTRL (R419)
  ⟨0x50010, [], [fs 0 1 .w1c 0, fs 1 1 .w1c 0]⟩, -- EVR_EVT_STS (R419)
  ⟨0x50014, [], [fs 0 2 .rw 0]⟩, -- EVR_EVT_EN (R419)
  ⟨0x50020, [], [fs 0 7 .wo 0]⟩, -- EVR_FIRE (R419)
  ⟨0x50040, [(4, 0x4)], [fs 0 32 .w1c 0]⟩, -- EVR_WATCH (R419)
  ⟨0x50050, [(4, 0x4)], [fs 0 32 .rw 0]⟩, -- EVR_WATCH_EN (R419)
  ⟨0x50060, [(4, 0x4)], [fs 0 32 .w1c 0]⟩, -- EVR_MERGE (R419)
  ⟨0x500FC, [], [fs 0 1 .wo 0]⟩, -- EVR_CNT_CLR (R419)
  ⟨0x50100, [(128, 0x4)], [fs 0 1 .rw 0, fs 8 10 .rwl 0, fs 18 1 .rwl 0]⟩, -- EVR_CH_CFG (R419)
  ⟨0x50400, [(128, 0x4)], [fs 0 32 .ro 0]⟩, -- EVR_CH_CNT (R419)
  ⟨0x58000, [], [fs 0 24 .rwl 0]⟩, -- EVR_GPIO_DIR (R419)
  ⟨0x58004, [], [fs 0 24 .rw 0]⟩, -- EVR_GPIO_OUT (R419)
  ⟨0x58008, [], [fs 0 24 .w1s 0]⟩, -- EVR_GPIO_SET (R419)
  ⟨0x5800C, [], [fs 0 24 .wo 0]⟩, -- EVR_GPIO_CLR (R419)
  ⟨0x58010, [], [fs 0 24 .ro 0]⟩, -- EVR_GPIO_IN (R419)
  ⟨0x58100, [(24, 0x4)], [fs 0 7 .rw 0, fs 8 2 .rw 0, fs 16 7 .rw 0, fs 24 2 .rw 0]⟩ -- EVR_GPIO_CFG (R419)
]

/-- Registers of the TWA block. -/
def rowsTWA : List RegRow := [
  ⟨0x60000, [], [fs 0 1 .rwl 1, fs 31 1 .w1s 0]⟩, -- TWA_CTRL (R420)
  ⟨0x60004, [], [fl 0 7 .rwl 0x4A 8 119, fs 8 4 .rwl 5]⟩, -- TWA_CFG (R420)
  ⟨0x60008, [], [fl 0 8 .rwl 0x19 1 255]⟩, -- TWA_TMO (R420)
  ⟨0x6000C, [], [fs 0 1 .ro 0, fs 16 16 .ro 0]⟩, -- TWA_STS (R420)
  ⟨0x60010, [], [fs 0 1 .w1c 0, fs 1 1 .w1c 0, fs 2 1 .w1c 0, fs 3 1 .w1c 0]⟩, -- TWA_EVT_STS (R420)
  ⟨0x60014, [], [fs 0 4 .rw 0]⟩, -- TWA_EVT_EN (R420)
  ⟨0x60020, [], [fs 0 32 .ro 0]⟩, -- TWA_CNT_XFER (R420)
  ⟨0x60024, [], [fs 0 32 .ro 0]⟩, -- TWA_CNT_BUSY_NACK (R420)
  ⟨0x60028, [], [fs 0 32 .ro 0]⟩, -- TWA_CNT_TMO (R420)
  ⟨0x6002C, [], [fs 0 32 .ro 0]⟩, -- TWA_CNT_PARTIAL (R420)
  ⟨0x61000, [(256, 0x4)], [fs 0 32 .rw 0]⟩ -- TWA_MBOX (R420)
]

/-- Registers of the TWB block. -/
def rowsTWB : List RegRow := [
  ⟨0x68000, [], [fs 0 1 .rw 0, fs 31 1 .w1s 0]⟩, -- TWB_CTRL (R420)
  ⟨0x68004, [], [fs 0 10 .rwl 0x1F4, fs 16 10 .rwl 0x1CC]⟩, -- TWB_TIM (R420)
  ⟨0x68008, [], [fs 0 8 .rwl 0x1E, fs 8 4 .rwl 5]⟩, -- TWB_TIM2 (R420)
  ⟨0x6800C, [], [fs 0 16 .rwl 0x3E8, fs 16 8 .rwl 0x19]⟩, -- TWB_TMO (R420)
  ⟨0x68010, [], [fs 0 1 .w1c 0, fs 1 1 .w1c 0, fs 2 1 .w1c 0]⟩, -- TWB_EVT_STS (R420)
  ⟨0x68014, [], [fs 0 3 .rw 0]⟩, -- TWB_EVT_EN (R420)
  ⟨0x68020, [], [fs 0 7 .rw 0, fl 8 6 .rw 0 0 32, fl 16 6 .rw 0 0 32, fs 24 3 .rw 0, fs 30 1 .wo 0, fs 31 1 .ro 0]⟩, -- TWB_CMD (R420)
  ⟨0x68024, [], [fs 0 16 .rw 0x64]⟩, -- TWB_RETRY_GAP (R420)
  ⟨0x68028, [], [fs 0 4 .ro 0, fs 8 6 .ro 0, fs 16 4 .ro 0]⟩, -- TWB_RES (R420)
  ⟨0x6802C, [], [fs 0 1 .ro 0, fs 1 1 .ro 1, fs 2 1 .ro 1]⟩, -- TWB_STS (R420)
  ⟨0x68040, [(8, 0x4)], [fs 0 32 .rw 0]⟩, -- TWB_TX (R420)
  ⟨0x68060, [(8, 0x4)], [fs 0 32 .ro 0]⟩, -- TWB_RX (R420)
  ⟨0x68080, [], [fs 0 32 .ro 0]⟩, -- TWB_CNT_OP (R420)
  ⟨0x68084, [], [fs 0 32 .ro 0]⟩ -- TWB_CNT_ERR (R420)
]

/-- Registers of the BIAS block. -/
def rowsBIAS : List RegRow := [
  ⟨0x70000, [], [fs 31 1 .w1s 0]⟩, -- BIAS_CTRL (R420)
  ⟨0x70004, [], [fs 0 8 .ro 0, fs 8 8 .ro 0, fs 16 8 .ro 0]⟩, -- BIAS_STS (R420)
  ⟨0x70010, [], [fs 0 1 .w1c 0, fs 1 1 .w1c 0, fs 2 1 .w1c 0]⟩, -- BIAS_EVT_STS (R420)
  ⟨0x70014, [], [fs 0 3 .rw 0]⟩, -- BIAS_EVT_EN (R420)
  ⟨0x70100, [(8, 0x20)], [fs 0 1 .wo 0, fs 1 1 .wo 0, fs 2 1 .wo 0]⟩, -- BIAS_G_CTRL (R420)
  ⟨0x70104, [(8, 0x20)], [fl 0 10 .rwl 0x14 1 650, fl 16 10 .rwl 0x1F4 1 1000]⟩, -- BIAS_G_CFG (R420)
  ⟨0x70108, [(8, 0x20)], [fs 0 12 .rwl 0xC8, fs 16 12 .rwl 0xA]⟩, -- BIAS_G_LIM (R420)
  ⟨0x7010C, [(8, 0x20)], [fs 0 3 .ro 0, fs 4 2 .ro 0, fs 8 1 .ro 0, fs 9 1 .ro 0]⟩, -- BIAS_G_STS (R420)
  ⟨0x70110, [(8, 0x20)], [fs 0 12 .ro 0]⟩, -- BIAS_G_CUR (R420)
  ⟨0x70114, [(8, 0x20)], [fs 0 32 .ro 0]⟩ -- BIAS_G_CNT_TRIP (R420)
]

/-- Registers of the FLC block, part 1. -/
def rowsFLC0 : List RegRow := [
  ⟨0x80000, [], [fs 31 1 .w1s 0]⟩, -- FLC_CTRL (R357)
  ⟨0x80004, [], [fs 0 1 .ro 0, fs 4 4 .ro 0, fs 8 1 .ro 0, fs 9 1 .ro 0]⟩, -- FLC_STS (R357)
  ⟨0x80008, [], [fs 0 2 .rw 3]⟩, -- FLC_CFG (R357)
  ⟨0x80010, [], [fs 0 1 .w1c 0, fs 1 1 .w1c 0, fs 2 1 .w1c 0, fs 3 1 .w1c 0, fs 4 1 .w1c 0, fs 5 1 .w1c 0]⟩, -- FLC_EVT_STS (R357)
  ⟨0x80014, [], [fs 0 6 .rw 0]⟩, -- FLC_EVT_EN (R357)
  ⟨0x80020, [], [fs 0 3 .wo 0, fl 4 5 .rw 1 1 16, fs 31 1 .ro 0]⟩, -- FLC_CMD (R357)
  ⟨0x80024, [], [fs 0 25 .rw 0]⟩, -- FLC_ADDR (R357)
  ⟨0x80028, [], [fs 0 4 .ro 0, fs 4 5 .ro 0, fs 12 1 .ro 0]⟩, -- FLC_RES (R357)
  ⟨0x80040, [], [fs 0 13 .rw 0]⟩, -- FLC_WIN (R357)
  ⟨0x80044, [], [fs 0 3 .ro 0]⟩, -- FLC_RD_STS (R357)
  ⟨0x80060, [], [fs 0 14 .ro 0]⟩, -- FLC_OPEN_CNT (R357)
  ⟨0x80064, [], [fs 0 13 .rw 0]⟩, -- FLC_SECT_Q (R357)
  ⟨0x80068, [], [fs 0 1 .ro 0, fs 1 1 .ro 0, fs 2 1 .ro 0, fs 3 1 .ro 0, fs 4 6 .ro 0, fs 16 13 .ro 0x1FFF]⟩, -- FLC_SECT_INFO (R357)
  ⟨0x80080, [], [fs 4 21 .ro 0, fs 28 1 .ro 0, fs 31 1 .w1c 0]⟩, -- FLC_ECC_LOG (R357)
  ⟨0x80084, [], [fs 0 32 .ro 0]⟩, -- FLC_CNT_ECC_CORR (R357)
  ⟨0x80088, [], [fs 0 32 .ro 0]⟩, -- FLC_CNT_ECC_UNCORR (R357)
  ⟨0x8008C, [], [fs 0 7 .ro 0]⟩, -- FLC_SPARE (R357)
  ⟨0x80090, [], [fs 0 25 .ro 0, fs 25 3 .ro 0, fs 31 1 .w1c 0]⟩, -- FLC_BO_LOG (R357)
  ⟨0x80100, [(64, 0x4)], [fs 0 32 .rw 0]⟩, -- FLC_PBUF (R357)
  ⟨0x80200, [(8, 0x4)], [fs 0 13 .rwl 0, fs 31 1 .rwl 0]⟩, -- FLC_OVL (R357)
  ⟨0x80800, [], [fs 0 1 .wo 0, fs 1 1 .wo 0, fs 2 1 .rw 0, fs 3 1 .rw 0, fs 31 1 .ro 0]⟩, -- FLC_IMG_CTRL (R320)
  ⟨0x80804, [], [fs 0 32 .rw 0]⟩, -- FLC_IMG_ADDR (R320)
  ⟨0x80808, [], [fs 0 3 .ro 0, fs 8 8 .ro 0, fs 16 8 .ro 0]⟩, -- FLC_IMG_STS (R320)
  ⟨0x8080C, [], [fs 0 32 .ro 0]⟩ -- FLC_IMG_FAIL_OFS (R320)
]

/-- Registers of the FLC block, part 2. -/
def rowsFLC1 : List RegRow := [
  ⟨0x80810, [], [fs 0 32 .ro 0]⟩, -- FLC_IMG_ACTIVE (R320)
  ⟨0x80814, [], [fs 0 32 .ro 0]⟩, -- FLC_IMG_SECVER (R320)
  ⟨0x80818, [], [fs 0 32 .ro 0]⟩, -- FLC_IMG_ID (R320)
  ⟨0x8081C, [], [fs 0 16 .ro 0]⟩, -- FLC_IMG_LIVE_GEN (R320)
  ⟨0x80820, [], [fs 0 4 .ro 0, fs 4 4 .ro 0, fs 8 2 .ro 0]⟩, -- FLC_IMG_KEYS (R320)
  ⟨0x80830, [(12, 0x4)], [fs 0 32 .ro 0]⟩, -- FLC_IMG_DIGEST (R320)
  ⟨0x80870, [], [fs 0 1 .w1c 0, fs 1 1 .w1c 0]⟩, -- FLC_IMG_EVT_STS (R320)
  ⟨0x80874, [], [fs 0 2 .rw 0]⟩, -- FLC_IMG_EVT_EN (R320)
  ⟨0x80900, [], [fs 0 2 .wo 0, fs 4 1 .rw 0, fs 31 1 .ro 0]⟩, -- FLC_LDG_CTRL (R343)
  ⟨0x80904, [], [fs 0 8 .rw 0, fs 8 8 .rw 0]⟩, -- FLC_LDG_CFG (R343)
  ⟨0x80908, [], [fs 0 21 .rw 0]⟩, -- FLC_LDG_MEM (R343)
  ⟨0x8090C, [], [fs 0 24 .rw 0]⟩, -- FLC_LDG_LEN (R343)
  ⟨0x80910, [], [fs 0 4 .ro 0, fs 4 1 .ro 0, fs 5 1 .ro 0, fs 6 1 .ro 0, fs 8 8 .ro 0]⟩, -- FLC_LDG_STS (R343)
  ⟨0x80914, [], [fs 0 32 .ro 0]⟩, -- FLC_LDG_GEN (R343)
  ⟨0x80A00, [], [fs 0 1 .wo 0, fs 1 1 .wo 0, fs 2 1 .wo 0, fs 3 1 .wo 0, fs 4 1 .wo 0, fs 31 1 .ro 0]⟩, -- FLC_GRAFT_CTRL (R343)
  ⟨0x80A04, [], [fs 0 3 .ro 0, fs 8 8 .ro 0, fs 16 1 .ro 0, fs 20 2 .ro 0]⟩, -- FLC_GRAFT_STS (R343)
  ⟨0x80A08, [], [fs 0 32 .ro 0]⟩, -- FLC_GRAFT_SECVER (R343)
  ⟨0x80A0C, [], [fs 0 7 .ro 0]⟩, -- FLC_FLOOR (R343)
  ⟨0x80A10, [], [fs 0 2 .wo 0, fs 4 2 .rw 0, fs 8 3 .rw 0, fs 16 4 .ro 0, fs 31 1 .ro 0]⟩, -- FLC_FUSE_CMD (R343)
  ⟨0x80A20, [(12, 0x4)], [fs 0 32 .rw 0]⟩, -- FLC_FUSE_DATA (R343)
  ⟨0x80A70, [], [fs 0 1 .w1c 0, fs 1 1 .w1c 0, fs 2 1 .w1c 0]⟩, -- FLC_GRAFT_EVT_STS (R343)
  ⟨0x80A74, [], [fs 0 3 .rw 0]⟩ -- FLC_GRAFT_EVT_EN (R343)
]

/-- Registers of the CNP block, part 1. -/
def rowsCNP0 : List RegRow := [
  ⟨0x100000, [], [fs 0 1 .rw 0, fs 31 1 .w1s 0]⟩, -- CNP_CTRL (R68)
  ⟨0x100004, [], [fs 0 1 .ro 0, fs 1 1 .ro 0, fs 2 1 .ro 0, fs 3 1 .ro 0]⟩, -- CNP_STS (R68)
  ⟨0x100008, [], [fs 0 8 .rw 0]⟩, -- CNP_ANT_EN (R68)
  ⟨0x100010, [], [fs 0 1 .w1c 0, fs 1 1 .w1c 0, fs 2 1 .w1c 0, fs 3 1 .w1c 0, fs 4 1 .w1c 0, fs 5 1 .w1c 0, fs 6 1 .w1c 0]⟩, -- CNP_EVT_STS (R68)
  ⟨0x100014, [], [fs 0 7 .rw 0]⟩, -- CNP_EVT_EN (R68)
  ⟨0x100018, [], [fs 0 12 .ro 0, fs 16 5 .ro 0, fs 24 8 .ro 0]⟩, -- CNP_PLAN_STS (R68)
  ⟨0x100020, [], [fs 0 22 .ro 0, fs 31 1 .ro 0]⟩, -- CNP_SLICE_SUB (R68)
  ⟨0x100024, [], [fs 0 22 .ro 0, fs 31 1 .ro 0]⟩, -- CNP_SLICE_24 (R68)
  ⟨0x100028, [], [fs 0 16 .ro 0x500, fs 16 16 .ro 0x600]⟩, -- CNP_TAINT_SUB (R68)
  ⟨0x10002C, [], [fs 0 16 .ro 0xA0, fs 16 16 .ro 0xC0]⟩, -- CNP_TAINT_24 (R68)
  ⟨0x100030, [], [fs 0 8 .w1c 0]⟩, -- CNP_OVR_STS (R68)
  ⟨0x100034, [], [fs 0 8 .ro 0, fs 8 8 .ro 0]⟩, -- CNP_TAINT_NOW (R68)
  ⟨0x100038, [], [fs 0 8 .w1c 0]⟩, -- CNP_ATTMAX_STS (R68)
  ⟨0x100040, [], [fs 0 8 .rwl 8, fs 8 8 .rwl 0x30, fl 16 4 .rwl 4 1 6]⟩, -- CNP_GAIN_CFG (R68)
  ⟨0x100044, [], [fs 0 8 .rwl 0x16, fs 8 8 .rwl 0x10, fs 16 8 .rwl 0xC, fs 24 8 .rwl 9]⟩, -- CNP_KADJ0 (R68)
  ⟨0x100048, [], [fs 0 8 .rwl 6, fs 8 8 .rwl 4, fs 16 8 .rwl 2, fs 24 8 .rwl 0]⟩, -- CNP_KADJ1 (R68)
  ⟨0x100060, [], [fs 0 32 .ro 0]⟩, -- CNP_DET_CNT (R68)
  ⟨0x100064, [], [fs 0 32 .ro 0]⟩, -- CNP_PAIR_CNT (R68)
  ⟨0x100068, [], [fs 0 32 .ro 0]⟩, -- CNP_SUPPR_CNT (R68)
  ⟨0x10006C, [], [fs 0 32 .ro 0]⟩, -- CNP_CAPT_CNT (R68)
  ⟨0x100070, [], [fs 0 16 .ro 0, fs 16 16 .ro 0]⟩, -- CNP_BLIND_CNT (R68)
  ⟨0x100074, [], [fs 0 1 .wo 0, fs 1 1 .wo 0, fs 2 1 .wo 0]⟩, -- CNP_CNT_CLR (R68)
  ⟨0x100100, [(16, 0x10)], [fs 0 22 .ro 0, fs 30 1 .ro 0, fs 31 1 .ro 0]⟩, -- CNP_GRID_BASE (R68)
  ⟨0x100104, [(16, 0x10)], [fs 0 9 .ro 0, fs 12 2 .ro 0, fs 16 8 .ro 0, fs 24 8 .ro 0]⟩ -- CNP_GRID_GEOM (R68)
]

/-- Registers of the CNP block, part 2. -/
def rowsCNP1 : List RegRow := [
  ⟨0x100200, [(8, 0x4)], [fs 0 8 .rwl 0xFF, fs 8 8 .rwl 0x18, fs 16 16 .rwl 0]⟩, -- CNP_THR (R68)
  ⟨0x100400, [(8, 0x20)], [fs 0 5 .ro 0x1F, fl 8 2 .rwl 0 0 2, fs 16 5 .rw 0x1F]⟩, -- CNP_ATT (R68)
  ⟨0x100404, [(8, 0x20)], [fs 0 5 .rwl 0, fs 8 5 .rwl 0x1F]⟩, -- CNP_ATT_LIM (R68)
  ⟨0x100408, [(8, 0x20)], [fs 0 16 .rwl 0]⟩, -- CNP_DLY (R68)
  ⟨0x10040C, [(8, 0x20)], [fs 0 16 .ro 0x8000, fs 16 16 .ro 0x8000]⟩, -- CNP_PWR (R68)
  ⟨0x100410, [(8, 0x20)], [fs 0 32 .ro 0]⟩, -- CNP_OVR_CNT (R68)
  ⟨0x100414, [(8, 0x20)], [fs 0 32 .ro 0]⟩, -- CNP_OVR_SMP (R68)
  ⟨0x100418, [(8, 0x20)], [fs 0 32 .ro 0]⟩, -- CNP_FORCE_CNT (R68)
  ⟨0x100800, [], [fs 0 1 .wo 0, fs 1 1 .wo 0, fs 2 1 .wo 0]⟩, -- CNP_CAP_CTRL (R68)
  ⟨0x100804, [], [fl 0 2 .rw 0 0 2, fl 4 3 .rw 0 0 5, fs 8 8 .rw 0, fs 16 1 .rw 0, fs 20 4 .rw 0, fs 24 8 .rw 0]⟩, -- CNP_CAP_CFG (R68)
  ⟨0x100808, [], [fs 0 4 .rw 8]⟩, -- CNP_CAP_POS (R68)
  ⟨0x10080C, [], [fs 0 7 .rw 0]⟩, -- CNP_CAP_EVT (R68)
  ⟨0x100810, [], [fs 0 32 .rw 0]⟩, -- CNP_CAP_TRIG_ATB_LO (R68)
  ⟨0x100814, [], [fs 0 32 .rw 0]⟩, -- CNP_CAP_TRIG_ATB_HI (R68)
  ⟨0x100818, [], [fs 0 3 .ro 0, fs 4 1 .ro 0, fs 8 4 .ro 0]⟩, -- CNP_CAP_STS (R68)
  ⟨0x10081C, [], [fs 0 17 .ro 0]⟩, -- CNP_CAP_TRIG_IDX (R68)
  ⟨0x100820, [], [fs 0 17 .ro 0]⟩, -- CNP_CAP_FIRST (R68)
  ⟨0x100824, [], [fs 0 32 .ro 0]⟩, -- CNP_CAP_ATB_LO (R68)
  ⟨0x100828, [], [fs 0 32 .ro 0]⟩, -- CNP_CAP_ATB_HI (R68)
  ⟨0x10082C, [], [fs 0 11 .rw 0]⟩, -- CNP_CAP_PT (R68)
  ⟨0x110000, [(2048, 0x4)], [fs 0 8 .ro 0, fs 8 4 .ro 0, fs 12 4 .ro 0, fs 16 7 .ro 0, fs 24 3 .ro 0, fs 31 1 .ro 0]⟩, -- CNP_POINT (R68)
  ⟨0x112000, [(2048, 0x4)], [fs 0 16 .ro 0x8000, fs 16 8 .ro 0]⟩, -- CNP_PT_STS (R68)
  ⟨0x114000, [(2048, 0x4)], [fs 0 32 .ro 0]⟩, -- CNP_PT_DET (R68)
  ⟨0x180000, [(131072, 0x4)], [fs 0 32 .ro 0]⟩ -- CNP_CAP_MEM (R68)
]

/-- Registers of the LNE block. -/
def rowsLNE : List RegRow := [
  ⟨0x200000, [], [fs 0 1 .rw 0, fs 1 1 .rwl 1, fs 2 1 .rwl 0, fs 31 1 .w1s 0]⟩, -- LNE_CTRL (R98)
  ⟨0x200004, [], [fl 0 10 .rwl 0x20 0 512]⟩, -- LNE_POOL_CTRL (R98)
  ⟨0x200008, [], [fs 0 10 .ro 0x200, fs 16 10 .ro 0]⟩, -- LNE_POOL_STS (R98)
  ⟨0x20000C, [], [fs 0 10 .ro 0x200]⟩, -- LNE_POOL_MIN (R98)
  ⟨0x200010, [], [fs 0 1 .w1c 0, fs 1 1 .w1c 0, fs 2 1 .w1c 0, fs 3 1 .w1c 0]⟩, -- LNE_EVT_STS (R98)
  ⟨0x200014, [], [fs 0 4 .rw 0]⟩, -- LNE_EVT_EN (R98)
  ⟨0x200020, [], [fs 0 32 .ro 0]⟩, -- LNE_CNT_GRANT (R98)
  ⟨0x200024, [], [fs 0 32 .ro 0]⟩, -- LNE_CNT_EXHAUST (R98)
  ⟨0x200028, [], [fs 0 32 .ro 0]⟩, -- LNE_CNT_REFUSED (R98)
  ⟨0x20002C, [], [fs 0 32 .ro 0]⟩, -- LNE_CNT_PAIRLOSS (R98)
  ⟨0x200030, [], [fs 0 32 .ro 0]⟩, -- LNE_CNT_SFDTO (R98)
  ⟨0x200034, [], [fs 0 32 .ro 0]⟩, -- LNE_CNT_HDRFAIL (R98)
  ⟨0x200038, [], [fs 0 32 .ro 0]⟩, -- LNE_CNT_FCSFAIL (R98)
  ⟨0x20003C, [], [fs 0 32 .ro 0]⟩, -- LNE_CNT_HANDED (R98)
  ⟨0x200040, [], [fs 0 32 .ro 0]⟩, -- LNE_CNT_DLVDROP_SH (R98)
  ⟨0x200084, [(7, 0x4)], [fs 0 32 .ro 0]⟩, -- LNE_FLT_CNT (R98)
  ⟨0x2000FC, [], [fs 0 1 .wo 0, fs 1 1 .wo 0, fs 2 1 .wo 0]⟩, -- LNE_CNT_CLR (R98)
  ⟨0x200100, [(8, 0x8)], [fs 0 24 .ro 0]⟩, -- LNE_RATE_LAT (R98)
  ⟨0x200104, [(8, 0x8)], [fs 0 24 .rwl 0]⟩, -- LNE_RATE_SFDTO (R98)
  ⟨0x200200, [(16, 0x4)], [fs 0 1 .ro 0, fs 1 1 .ro 0, fs 2 1 .ro 0, fs 3 1 .ro 0, fs 31 1 .ro 0]⟩, -- LNE_FSK_CFG (R98)
  ⟨0x200400, [(64, 0x4)], [fs 0 10 .ro 0, fs 16 10 .ro 0]⟩, -- LNE_PLIM (R98)
  ⟨0x200500, [(64, 0x4)], [fs 0 10 .ro 0, fs 16 10 .ro 0]⟩, -- LNE_PSTS (R98)
  ⟨0x201000, [(64, 0x20), (7, 0x4)], [fs 0 32 .ro 0]⟩, -- LNE_PCNT (R98)
  ⟨0x204000, [(512, 0x4)], [fs 0 3 .ro 0, fs 4 4 .ro 0, fs 8 6 .ro 0, fs 14 1 .ro 0, fs 15 1 .ro 0, fs 16 8 .ro 0, fs 24 4 .ro 0]⟩ -- LNE_LANE_STS (R98)
]

/-- Registers of the TXC block, part 1. -/
def rowsTXC0 : List RegRow := [
  ⟨0x300000, [], [fs 0 1 .rw 0, fs 31 1 .w1s 0]⟩, -- TXC_CTRL (R134)
  ⟨0x300004, [], [fs 0 8 .ro 0, fs 8 8 .ro 0, fs 16 8 .ro 0]⟩, -- TXC_STS (R134)
  ⟨0x300010, [], [fs 0 1 .w1c 0, fs 1 1 .w1c 0, fs 2 1 .w1c 0, fs 3 1 .w1c 0, fs 4 1 .w1c 0]⟩, -- TXC_EVT_STS (R134)
  ⟨0x300014, [], [fs 0 5 .rw 0]⟩, -- TXC_EVT_EN (R134)
  ⟨0x300018, [], [fl 0 23 .rwl 0x7A1200 0 8000000]⟩, -- TXC_HORIZON (R134)
  ⟨0x30001C, [], [fs 0 11 .ro 0, fs 16 6 .ro 0]⟩, -- TXC_STAGE_STS (R134)
  ⟨0x300040, [], [fs 0 32 .ro 0]⟩, -- TXC_CNT_COMMIT (R134)
  ⟨0x300044, [], [fs 0 32 .ro 0]⟩, -- TXC_CNT_FAULT (R134)
  ⟨0x300048, [], [fs 0 32 .ro 0]⟩, -- TXC_CNT_BURN (R134)
  ⟨0x30004C, [], [fs 0 32 .ro 0]⟩, -- TXC_CNT_ACK (R134)
  ⟨0x300080, [(7, 0x4)], [fs 0 32 .ro 0]⟩, -- TXC_MISS_CNT (R134)
  ⟨0x3000C0, [(7, 0x4)], [fs 0 32 .ro 0]⟩, -- TXC_SQ_CNT (R134)
  ⟨0x3000FC, [], [fs 0 1 .wo 0, fs 1 1 .wo 0, fs 2 1 .wo 0]⟩, -- TXC_CNT_CLR (R134)
  ⟨0x300100, [(16, 0x4)], [fs 0 9 .rwl 0, fs 31 1 .rwl 0]⟩, -- TXC_CORR_BASE (R134)
  ⟨0x300200, [], [fs 0 9 .rw 0, fs 12 3 .rw 0, fs 16 2 .wo 0, fs 31 1 .ro 0]⟩, -- TXC_CORR_CMD (R134)
  ⟨0x300280, [(32, 0x4)], [fs 0 32 .rw 0]⟩, -- TXC_CORR_DATA (R134)
  ⟨0x300300, [(8, 0x4)], [fs 0 10 .rwl 0, fs 16 1 .rwl 0, fs 17 1 .rwl 0, fs 18 1 .rwl 0]⟩, -- TXC_PHY (R134)
  ⟨0x300800, [(16, 0x100)], [fs 0 11 .rwl 0, fs 16 11 .rwl 0]⟩, -- TXC_RAMP_T (R134)
  ⟨0x300804, [(16, 0x100)], [fs 0 11 .rwl 0, fs 16 8 .rwl 0]⟩, -- TXC_RAMP_PA (R134)
  ⟨0x300808, [(16, 0x100), (16, 0x4)], [fs 0 10 .rwl 0, fs 16 10 .rwl 0]⟩, -- TXC_RAMP_UP (R134)
  ⟨0x300848, [(16, 0x100), (16, 0x4)], [fs 0 10 .rwl 0, fs 16 10 .rwl 0]⟩, -- TXC_RAMP_DOWN (R134)
  ⟨0x302000, [(8, 0x40)], [fs 0 1 .rw 0, fs 1 1 .wo 0, fs 2 1 .wo 0, fs 3 1 .rw 0, fs 4 7 .rw 0]⟩, -- TXC_CH_CTRL (R134)
  ⟨0x302004, [(8, 0x40)], [fs 0 16 .rwl 0x10, fs 16 1 .rwl 0, fs 17 1 .rwl 0]⟩, -- TXC_CH_CFG (R134)
  ⟨0x302008, [(8, 0x40)], [fs 0 16 .rwl 0]⟩ -- TXC_CH_BUDGET (R134)
]

/-- Registers of the TXC block, part 2. -/
def rowsTXC1 : List RegRow := [
  ⟨0x30200C, [(8, 0x40)], [fs 0 3 .ro 0, fs 8 5 .ro 0, fs 16 16 .ro 0]⟩, -- TXC_CH_STS (R134)
  ⟨0x302010, [(8, 0x40)], [fs 0 16 .ro 0]⟩, -- TXC_CH_CARR (R134)
  ⟨0x302014, [(8, 0x40)], [fs 0 4 .w1c 0]⟩, -- TXC_CH_FAULT (R134)
  ⟨0x302018, [(8, 0x40)], [fs 0 32 .ro 0]⟩, -- TXC_CH_CNT_COMMIT (R134)
  ⟨0x30201C, [(8, 0x40)], [fs 0 32 .ro 0]⟩, -- TXC_CH_CNT_FAULT (R134)
  ⟨0x303000, [(4, 0x20)], [fl 0 2 .rwl 0 0 2, fs 2 1 .rwl 0, fs 3 1 .rwl 0, fs 4 1 .rwl 0, fs 8 8 .rwl 0, fs 16 2 .rwl 0]⟩, -- TXC_COEX_CFG (R134)
  ⟨0x303004, [(4, 0x20)], [fl 0 16 .rwl 0x1000 2112 65535, fs 16 12 .rwl 0x40]⟩, -- TXC_COEX_TIME (R134)
  ⟨0x303008, [(4, 0x20)], [fs 0 1 .ro 0, fs 1 1 .ro 0]⟩, -- TXC_COEX_STS (R134)
  ⟨0x30300C, [(4, 0x20)], [fs 0 32 .ro 0]⟩, -- TXC_COEX_DENIED (R134)
  ⟨0x303010, [(4, 0x20)], [fs 0 32 .ro 0]⟩, -- TXC_COEX_GDROP (R134)
  ⟨0x303014, [(4, 0x20)], [fs 0 32 .ro 0]⟩, -- TXC_COEX_REQS (R134)
  ⟨0x310000, [(1024, 0x8)], [fs 0 4 .ro 0, fs 4 3 .ro 0, fs 8 4 .ro 0, fs 12 6 .ro 0, fs 18 2 .ro 0, fs 20 8 .ro 0]⟩, -- TXC_STAGE0 (R134)
  ⟨0x310004, [(1024, 0x8)], [fs 0 16 .ro 0]⟩, -- TXC_STAGE1 (R134)
  ⟨0x312000, [(32, 0x8)], [fs 0 4 .ro 0, fs 4 3 .ro 0, fs 8 4 .ro 0, fs 12 6 .ro 0, fs 18 2 .ro 0, fs 20 8 .ro 0]⟩, -- TXC_SLOT0 (R134)
  ⟨0x312004, [(32, 0x8)], [fs 0 16 .ro 0]⟩ -- TXC_SLOT1 (R134)
]

/-- Registers of the LNK block, part 1. -/
def rowsLNK0 : List RegRow := [
  ⟨0x400000, [], [fs 0 1 .rw 0, fs 1 1 .rwl 1, fs 31 1 .w1s 0]⟩, -- LNK_CTRL (R175)
  ⟨0x400004, [], [fs 0 1 .ro 0, fs 1 1 .ro 0]⟩, -- LNK_STS (R175)
  ⟨0x400008, [], [fs 0 32 .ro 0]⟩, -- LNK_ATB_LO (R175)
  ⟨0x40000C, [], [fs 0 32 .ro 0]⟩, -- LNK_ATB_HI (R175)
  ⟨0x400010, [], [fs 0 1 .w1c 0, fs 1 1 .w1c 0, fs 2 1 .w1c 0, fs 3 1 .w1c 0, fs 4 1 .w1c 0, fs 5 1 .w1c 0]⟩, -- LNK_EVT_STS (R175)
  ⟨0x400014, [], [fs 0 6 .rw 0]⟩, -- LNK_EVT_EN (R175)
  ⟨0x400020, [], [fs 0 16 .rwl 0xB40, fs 16 4 .rwl 0]⟩, -- LNK_DRIFT_CFG (R175)
  ⟨0x400024, [], [fs 0 24 .rwl 0x9C40]⟩, -- LNK_DRIFT_RES (R175)
  ⟨0x400028, [], [fs 0 24 .rwl 0x3E8]⟩, -- LNK_DRIFT_FLOOR (R175)
  ⟨0x40002C, [], [fs 0 32 .rwl 0x1E84800]⟩, -- LNK_DRIFT_SPAN (R175)
  ⟨0x400030, [], [fs 0 4 .rwl 2, fs 4 1 .rwl 0]⟩, -- LNK_CSL_CFG (R175)
  ⟨0x400034, [], [fs 0 8 .rwl 0]⟩, -- LNK_CSL_WUF (R175)
  ⟨0x400038, [], [fs 0 24 .rwl 0x2000]⟩, -- LNK_SCHED_LEAD (R175)
  ⟨0x400040, [], [fs 0 3 .rwl 0, fs 4 3 .rwl 1, fs 8 3 .rwl 2, fs 12 3 .rwl 3, fs 16 3 .rwl 4, fs 20 3 .rwl 5, fs 24 3 .rwl 6, fs 28 3 .rwl 7]⟩, -- LNK_ANTMAP (R175)
  ⟨0x400050, [], [fs 0 6 .ro 0, fs 31 1 .w1c 0]⟩, -- LNK_PAN_ERR (R175)
  ⟨0x400100, [(8, 0x20)], [fl 0 24 .rwl 0x1800 6144 16777215]⟩, -- LNK_RATE_TURN (R175)
  ⟨0x400104, [(8, 0x20)], [fs 0 24 .rwl 0]⟩, -- LNK_RATE_ACKW_OPEN (R175)
  ⟨0x400108, [(8, 0x20)], [fs 0 24 .rwl 0]⟩, -- LNK_RATE_ACKW_CLOSE (R175)
  ⟨0x40010C, [], [fs 0 24 .ro 0x1400]⟩, -- LNK_RATE_UNIT 0 (R175)
  ⟨0x40012C, [], [fs 0 24 .ro 0x1900]⟩, -- LNK_RATE_UNIT 1 (R175)
  ⟨0x40014C, [], [fs 0 24 .ro 0xC80]⟩, -- LNK_RATE_UNIT 2 (R175)
  ⟨0x40016C, [], [fs 0 24 .ro 0x640]⟩, -- LNK_RATE_UNIT 3 (R175)
  ⟨0x40018C, [], [fs 0 24 .ro 0xC80]⟩, -- LNK_RATE_UNIT 4 (R175)
  ⟨0x4001AC, [], [fs 0 24 .ro 0x3200]⟩ -- LNK_RATE_UNIT 5 (R175)
]

/-- Registers of the LNK block, part 2. -/
def rowsLNK1 : List RegRow := [
  ⟨0x4001CC, [], [fs 0 24 .ro 0xC800]⟩, -- LNK_RATE_UNIT 6 (R175)
  ⟨0x4001EC, [], [fs 0 24 .ro 0x32000]⟩, -- LNK_RATE_UNIT 7 (R175)
  ⟨0x40010C, [(8, 0x20)], [fs 0 24 .ro 0]⟩, -- LNK_RATE_UNIT (R175)
  ⟨0x400110, [(8, 0x20)], [fs 0 24 .rwl 0]⟩, -- LNK_RATE_SHR (R175)
  ⟨0x400200, [], [fs 0 32 .ro 0]⟩, -- LNK_CNT_ACK (R175)
  ⟨0x400204, [], [fs 0 32 .ro 0]⟩, -- LNK_CNT_ACK_NOCRED (R175)
  ⟨0x400208, [], [fs 0 32 .ro 0]⟩, -- LNK_CNT_ENHACK_LATE (R175)
  ⟨0x40020C, [], [fs 0 32 .ro 0]⟩, -- LNK_CNT_DUP (R175)
  ⟨0x400210, [], [fs 0 32 .ro 0]⟩, -- LNK_CNT_OOW (R175)
  ⟨0x400214, [], [fs 0 32 .ro 0]⟩, -- LNK_CNT_ACK_MATCH (R175)
  ⟨0x400218, [], [fs 0 32 .ro 0]⟩, -- LNK_CNT_PCLR (R175)
  ⟨0x40021C, [], [fs 0 32 .ro 0]⟩, -- LNK_CNT_PCLR_LATE (R175)
  ⟨0x400220, [], [fs 0 32 .ro 0]⟩, -- LNK_CNT_DRIFT_UPD (R175)
  ⟨0x400224, [], [fs 0 32 .ro 0]⟩, -- LNK_CNT_DRIFT_UNRES (R175)
  ⟨0x400228, [], [fs 0 32 .ro 0]⟩, -- LNK_CNT_SEQ_CLAMP (R175)
  ⟨0x4002FC, [], [fs 0 1 .wo 0, fs 1 1 .wo 0]⟩, -- LNK_CNT_CLR (R175)
  ⟨0x400400, [(64, 0x10), (4, 0x4)], [fs 0 32 .ro 0]⟩, -- LNK_PCNT (R175)
  ⟨0x401000, [(64, 0x10)], [fs 0 16 .rwl 0, fs 16 16 .rwl 0]⟩, -- LNK_PAN_ID (R175)
  ⟨0x401004, [(64, 0x10)], [fs 0 32 .rwl 0]⟩, -- LNK_PAN_EXT_LO (R175)
  ⟨0x401008, [(64, 0x10)], [fs 0 32 .rwl 0]⟩, -- LNK_PAN_EXT_HI (R175)
  ⟨0x40100C, [(64, 0x10)], [fs 0 6 .rwl 0, fs 6 1 .rwl 0, fs 7 1 .rwl 0, fs 8 1 .rwl 0, fs 16 16 .rwl 0]⟩, -- LNK_PAN_CFG (R175)
  ⟨0x402000, [(64, 0x10)], [fs 0 32 .rw 0]⟩, -- LNK_CMP_LO (R175)
  ⟨0x402004, [(64, 0x10)], [fs 0 32 .rw 0]⟩, -- LNK_CMP_HI (R175)
  ⟨0x402008, [(64, 0x10)], [fs 0 1 .ro 0, fs 1 1 .w1c 0, fs 2 1 .ro 0, fs 3 1 .wo 0, fs 4 1 .rw 0, fs 5 7 .rw 0, fs 16 6 .rwl 0]⟩ -- LNK_CMP_CTRL (R175)
]

/-- Registers of the LNK block, part 3. -/
def rowsLNK2 : List RegRow := [
  ⟨0x403000, [], [fs 0 1 .rw 0]⟩, -- LNK_TSCH_CTRL (R175)
  ⟨0x403004, [], [fs 0 32 .ro 0]⟩, -- LNK_TSCH_ASN_LO (R175)
  ⟨0x403008, [], [fs 0 32 .ro 0]⟩, -- LNK_TSCH_ASN_HI (R175)
  ⟨0x403010, [], [fs 0 32 .rw 0]⟩, -- LNK_TSCH_EPOCH_LO (R175)
  ⟨0x403014, [], [fs 0 32 .rw 0]⟩, -- LNK_TSCH_EPOCH_HI (R175)
  ⟨0x403020, [], [fs 0 24 .rw 0]⟩, -- LNK_TSCH_SLOT_LEN (R175)
  ⟨0x403024, [], [fs 0 24 .rw 0]⟩, -- LNK_TSCH_TX_OFS (R175)
  ⟨0x403028, [], [fs 0 24 .rw 0]⟩, -- LNK_TSCH_RX_OFS (R175)
  ⟨0x40302C, [], [fs 0 24 .rw 0]⟩, -- LNK_TSCH_RX_WAIT (R175)
  ⟨0x403030, [], [fl 0 24 .rw 0x1800 6144 16777215]⟩, -- LNK_TSCH_TX_ACK_DLY (R175)
  ⟨0x403034, [], [fs 0 24 .rw 0]⟩, -- LNK_TSCH_RX_ACK_DLY (R175)
  ⟨0x403038, [], [fs 0 24 .rw 0]⟩, -- LNK_TSCH_ACK_WAIT (R175)
  ⟨0x40303C, [], [fs 0 24 .rw 0]⟩, -- LNK_TSCH_LEAD (R175)
  ⟨0x403100, [(8, 0x8)], [fs 0 16 .rw 0, fs 16 2 .rw 0, fs 31 1 .rw 0]⟩, -- LNK_SF_CFG (R175)
  ⟨0x403104, [(8, 0x8)], [fs 0 13 .rw 0, fl 16 14 .rw 0 0 8192]⟩, -- LNK_SF_CELLS (R175)
  ⟨0x403180, [(4, 0x4)], [fl 0 8 .rw 0 1 128]⟩, -- LNK_HOP_LEN (R175)
  ⟨0x404000, [(4, 0x200), (128, 0x4)], [fs 0 8 .rwl 0, fs 8 4 .rwl 0]⟩, -- LNK_HOP (R175)
  ⟨0x410000, [(8192, 0x8)], [fs 0 16 .rwl 0, fs 16 16 .rwl 0]⟩, -- LNK_CELL0 (R175)
  ⟨0x410004, [(8192, 0x8)], [fs 0 16 .rwl 0, fs 16 1 .rwl 0, fs 17 1 .rwl 0, fs 18 1 .rwl 0, fs 19 1 .rwl 0, fs 20 3 .rwl 0, fs 23 1 .rwl 0, fs 24 6 .rwl 0]⟩, -- LNK_CELL1 (R175)
  ⟨0x420000, [(8, 0x400), (128, 0x8)], [fs 0 7 .rwl 0, fs 7 1 .rwl 0, fl 8 4 .rwl 0 0 11, fl 12 4 .rwl 0 0 6, fl 16 8 .rwl 0 0 10, fs 24 8 .rwl 0]⟩, -- LNK_SEQ_LO (R175)
  ⟨0x420004, [(8, 0x400), (128, 0x8)], [fs 0 24 .rwl 0, fs 24 7 .rwl 0, fs 31 1 .rwl 0]⟩ -- LNK_SEQ_HI (R175)
]

/-- Registers of the QUE block, part 1. -/
def rowsQUE0 : List RegRow := [
  ⟨0x500000, [], [fs 0 1 .rw 0, fs 31 1 .w1s 0]⟩, -- QUE_CTRL (R197)
  ⟨0x500004, [], [fs 0 20 .ro 0xC0000, fs 20 1 .ro 0]⟩, -- QUE_STS (R197)
  ⟨0x500008, [], [fs 0 20 .ro 0xC0000]⟩, -- QUE_FREE_MIN (R197)
  ⟨0x50000C, [], [fs 0 20 .rwl 0x10000]⟩, -- QUE_RX_RESERVE (R197)
  ⟨0x500010, [], [fl 0 8 .rwl 0x40 1 255]⟩, -- QUE_QMAX (R197)
  ⟨0x500014, [], [fs 0 1 .w1c 0, fs 1 1 .w1c 0, fs 2 1 .w1c 0, fs 3 1 .w1c 0, fs 4 1 .w1c 0, fs 5 1 .w1c 0, fs 6 1 .w1c 0]⟩, -- QUE_EVT_STS (R197)
  ⟨0x500018, [], [fs 0 7 .rw 0]⟩, -- QUE_EVT_EN (R197)
  ⟨0x500020, [], [fs 0 20 .ro 0, fs 20 1 .ro 0, fs 31 1 .w1c 0]⟩, -- QUE_PAR_LOG (R197)
  ⟨0x500024, [], [fs 0 18 .ro 0]⟩, -- QUE_IDX_STS (R197)
  ⟨0x500040, [], [fs 0 32 .ro 0]⟩, -- QUE_CNT_WR_FULL (R197)
  ⟨0x500044, [], [fs 0 32 .ro 0]⟩, -- QUE_CNT_CELL_PAR (R197)
  ⟨0x500048, [], [fs 0 32 .ro 0]⟩, -- QUE_CNT_CTX_PAR (R197)
  ⟨0x50004C, [], [fs 0 32 .ro 0]⟩, -- QUE_CNT_RX_PAR_DROP (R197)
  ⟨0x500050, [], [fs 0 32 .ro 0]⟩, -- QUE_CNT_POISON_REJ (R197)
  ⟨0x500054, [], [fs 0 32 .ro 0]⟩, -- QUE_CNT_PRUNED (R197)
  ⟨0x500058, [], [fs 0 32 .ro 0]⟩, -- QUE_CNT_IDX_FAIL (R197)
  ⟨0x50005C, [], [fs 0 32 .ro 0]⟩, -- QUE_CNT_NTW_WR (R197)
  ⟨0x5000FC, [], [fs 0 1 .wo 0, fs 1 1 .wo 0]⟩, -- QUE_CNT_CLR (R197)
  ⟨0x500100, [], [fs 0 16 .rw 0, fs 16 3 .wo 0, fs 20 1 .rw 0, fs 21 1 .rw 0, fs 22 1 .rw 0, fs 23 1 .rw 0, fs 24 1 .rw 0, fs 31 1 .ro 0]⟩, -- QUE_NCMD (R197)
  ⟨0x500104, [], [fs 0 4 .ro 0, fs 4 2 .ro 0, fs 6 1 .ro 0, fs 16 16 .ro 0]⟩, -- QUE_NRES (R197)
  ⟨0x500140, [(16, 0x4)], [fs 0 32 .rw 0]⟩, -- QUE_NDATA (R197)
  ⟨0x500200, [], [fs 0 6 .ro 0x20]⟩, -- QUE_CRED_VERIFY (R197)
  ⟨0x500204, [], [fs 0 13 .ro 0x1000]⟩, -- QUE_CRED_HOST (R197)
  ⟨0x500220, [(8, 0x4)], [fs 0 9 .ro 0x100]⟩ -- QUE_CRED_ENG (R197)
]

/-- Registers of the QUE block, part 2. -/
def rowsQUE1 : List RegRow := [
  ⟨0x500400, [(64, 0x10)], [fs 0 20 .ro 0]⟩, -- QUE_PGUAR (R197)
  ⟨0x500404, [(64, 0x10)], [fs 0 20 .ro 0]⟩, -- QUE_PCAP (R197)
  ⟨0x500408, [(64, 0x10)], [fs 0 20 .ro 0]⟩, -- QUE_PUSE (R197)
  ⟨0x50040C, [(64, 0x10)], [fs 0 32 .ro 0]⟩ -- QUE_PFULL (R197)
]

/-- Registers of the SEC block, part 1. -/
def rowsSEC0 : List RegRow := [
  ⟨0x600000, [], [fs 0 1 .rw 0, fs 31 1 .w1s 0]⟩, -- SEC_CTRL (R266)
  ⟨0x600004, [], [fs 0 6 .ro 0, fs 8 6 .ro 0, fs 16 1 .ro 0, fs 17 1 .ro 0, fs 18 1 .ro 0]⟩, -- SEC_STS (R266)
  ⟨0x600010, [], [fs 0 1 .w1c 0, fs 1 1 .w1c 0, fs 2 1 .w1c 0, fs 3 1 .w1c 0, fs 4 1 .w1c 0, fs 5 1 .w1c 0, fs 6 1 .w1c 0, fs 7 1 .w1c 0]⟩, -- SEC_EVT_STS (R266)
  ⟨0x600014, [], [fs 0 8 .rw 0]⟩, -- SEC_EVT_EN (R266)
  ⟨0x600018, [], [fl 0 5 .rwl 0x10 8 24]⟩, -- SEC_CFG (R266)
  ⟨0x600100, [], [fs 0 16 .rw 0, fs 16 1 .rw 0, fs 17 3 .wo 0, fs 31 1 .ro 0]⟩, -- SEC_KOP_CMD (R266)
  ⟨0x600104, [], [fs 0 4 .ro 0, fs 4 2 .ro 0]⟩, -- SEC_KOP_RES (R266)
  ⟨0x600108, [], [fs 0 2 .ro 0, fs 8 8 .ro 0]⟩, -- SEC_KOP_ATTR (R266)
  ⟨0x60010C, [], [fs 0 32 .ro 0]⟩, -- SEC_KOP_FC (R266)
  ⟨0x600110, [], [fs 0 32 .ro 0]⟩, -- SEC_KOP_SRC (R266)
  ⟨0x600140, [(20, 0x4)], [fs 0 32 .rw 0]⟩, -- SEC_KBLOB (R266)
  ⟨0x600200, [], [fs 0 16 .ro 0, fs 30 1 .w1c 0, fs 31 1 .ro 0]⟩, -- SEC_MARK (R266)
  ⟨0x600204, [], [fs 0 32 .ro 0]⟩, -- SEC_MARK_FC (R266)
  ⟨0x600208, [], [fs 0 1 .wo 0]⟩, -- SEC_MARK_POP (R266)
  ⟨0x600300, [], [fs 0 32 .ro 0]⟩, -- SEC_CNT_VERIFY_OK (R266)
  ⟨0x600304, [], [fs 0 32 .ro 0]⟩, -- SEC_CNT_MIC_FAIL (R266)
  ⟨0x600308, [], [fs 0 32 .ro 0]⟩, -- SEC_CNT_KEY_MISMATCH (R266)
  ⟨0x60030C, [], [fs 0 32 .ro 0]⟩, -- SEC_CNT_NO_KEY (R266)
  ⟨0x600310, [], [fs 0 32 .ro 0]⟩, -- SEC_CNT_LOW_LEVEL (R266)
  ⟨0x600314, [], [fs 0 32 .ro 0]⟩, -- SEC_CNT_FC_MAX (R266)
  ⟨0x600318, [], [fs 0 32 .ro 0]⟩, -- SEC_CNT_NO_EXT (R266)
  ⟨0x60031C, [], [fs 0 32 .ro 0]⟩, -- SEC_CNT_BAD_LEVEL (R266)
  ⟨0x600320, [], [fs 0 32 .ro 0]⟩, -- SEC_CNT_ENCRYPT (R266)
  ⟨0x600324, [], [fs 0 32 .ro 0]⟩ -- SEC_CNT_EXHAUST (R266)
]

/-- Registers of the SEC block, part 2. -/
def rowsSEC1 : List RegRow := [
  ⟨0x600328, [], [fs 0 32 .ro 0]⟩, -- SEC_CNT_ABORTED (R266)
  ⟨0x60032C, [], [fs 0 32 .ro 0]⟩, -- SEC_CNT_KOP_FAIL (R266)
  ⟨0x6003FC, [], [fs 0 1 .wo 0, fs 1 1 .wo 0]⟩, -- SEC_CNT_CLR (R266)
  ⟨0x600400, [(64, 0x4)], [fs 0 16 .rwl 0, fs 31 1 .rwl 0]⟩, -- SEC_PANKEY (R266)
  ⟨0x600500, [], [fs 0 6 .w1c 0]⟩, -- SEC_ALARM_STS (R266)
  ⟨0x600504, [], [fl 0 2 .rwl 2 0 2, fl 2 2 .rwl 1 0 2, fl 4 2 .rwl 1 0 2]⟩, -- SEC_ALARM_CFG (R266)
  ⟨0x600508, [], [fs 0 6 .ro 0]⟩, -- SEC_ALARM_CAUSE (R266)
  ⟨0x60050C, [], [fs 0 32 .ro 0]⟩, -- SEC_ALARM_CNT (R266)
  ⟨0x600600, [], [fs 0 1 .ro 0, fs 1 1 .w1c 0, fs 2 1 .w1c 0, fs 8 24 .ro 0]⟩, -- SEC_RNG_STS (R266)
  ⟨0x600604, [], [fs 0 32 .ro 0]⟩, -- SEC_RNG_CNT (R266)
  ⟨0x600700, [], [fs 0 2 .wo 0, fs 8 8 .rw 0, fs 16 4 .ro 0, fs 31 1 .ro 0]⟩, -- SEC_SEAL_CTRL (R266)
  ⟨0x600704, [], [fs 0 21 .rw 0]⟩, -- SEC_SEAL_SRC (R266)
  ⟨0x600708, [], [fs 0 21 .rw 0]⟩, -- SEC_SEAL_DST (R266)
  ⟨0x60070C, [], [fs 0 16 .rw 0, fs 16 16 .rw 0]⟩, -- SEC_SEAL_LEN (R266)
  ⟨0x600710, [(4, 0x4)], [fs 0 32 .rw 0]⟩, -- SEC_SEAL_N (R266)
  ⟨0x601000, [(64, 0x10), (4, 0x4)], [fs 0 32 .ro 0]⟩ -- SEC_PCNT (R266)
]

/-- Registers of the PRT block, part 1. -/
def rowsPRT0 : List RegRow := [
  ⟨0x700000, [], [fs 31 1 .w1s 0]⟩, -- PRT_CTRL (R213)
  ⟨0x700004, [], [fs 0 7 .ro 1]⟩, -- PRT_STS (R213)
  ⟨0x700010, [], [fs 0 1 .w1c 0, fs 1 1 .w1c 0, fs 2 1 .w1c 0, fs 3 1 .w1c 0]⟩, -- PRT_EVT_STS (R213)
  ⟨0x700014, [], [fs 0 4 .rw 0]⟩, -- PRT_EVT_EN (R213)
  ⟨0x700018, [], [fs 0 16 .ro 0, fs 16 1 .ro 0, fs 31 1 .w1c 0]⟩, -- PRT_MAP_ERR (R213)
  ⟨0x700020, [], [fs 0 1 .rwl 0]⟩, -- PRT_AIR_CTRL (R213)
  ⟨0x700024, [], [fl 0 32 .rwl 0x1E84800 320000 4294967295]⟩, -- PRT_AIR_PERIOD (R213)
  ⟨0x700028, [], [fs 0 32 .rwl 0]⟩, -- PRT_AIR_TOTAL (R213)
  ⟨0x700040, [], [fs 0 5 .ro 0, fs 31 1 .w1c 0]⟩, -- PRT_FLT_STS (R213)
  ⟨0x700044, [], [fs 0 6 .ro 0, fs 8 3 .ro 0, fs 12 4 .ro 0]⟩, -- PRT_FLT_W0 (R213)
  ⟨0x700048, [], [fs 0 32 .ro 0]⟩, -- PRT_FLT_W1 (R213)
  ⟨0x70004C, [], [fs 0 32 .ro 0]⟩, -- PRT_FLT_ATB_LO (R213)
  ⟨0x700050, [], [fs 0 32 .ro 0]⟩, -- PRT_FLT_ATB_HI (R213)
  ⟨0x700054, [], [fs 0 1 .wo 0]⟩, -- PRT_FLT_POP (R213)
  ⟨0x700080, [], [fs 0 32 .ro 0]⟩, -- PRT_CNT_BCAST (R213)
  ⟨0x700084, [], [fs 0 32 .ro 0]⟩, -- PRT_CNT_BCAST_SKIP (R213)
  ⟨0x7000FC, [], [fs 0 1 .wo 0, fs 1 1 .wo 0]⟩, -- PRT_CNT_CLR (R213)
  ⟨0x700100, [], [fs 0 1 .rwl 1, fs 1 2 .ro 1]⟩, -- PRT_P_CFG 0 (R213)
  ⟨0x700100, [(64, 0x20)], [fs 0 1 .rwl 0, fs 1 2 .ro 0]⟩, -- PRT_P_CFG (R213)
  ⟨0x700104, [(64, 0x20)], [fs 0 10 .rwl 0, fs 16 10 .rwl 0]⟩, -- PRT_P_LANE (R213)
  ⟨0x700108, [(64, 0x20)], [fs 0 20 .rwl 0]⟩, -- PRT_P_CELL_GUAR (R213)
  ⟨0x70010C, [(64, 0x20)], [fs 0 20 .rwl 0]⟩, -- PRT_P_CELL_CAP (R213)
  ⟨0x700110, [(64, 0x20)], [fs 0 32 .rwl 0]⟩, -- PRT_P_AIR_GUAR (R213)
  ⟨0x700114, [(64, 0x20)], [fs 0 32 .rwl 0]⟩ -- PRT_P_AIR_CAP (R213)
]

/-- Registers of the PRT block, part 2. -/
def rowsPRT1 : List RegRow := [
  ⟨0x700118, [(64, 0x20)], [fs 0 16 .rwl 0, fs 16 16 .rwl 0]⟩, -- PRT_P_PWR (R213)
  ⟨0x70011C, [(64, 0x20)], [fs 0 2 .wo 0, fs 31 1 .ro 0]⟩, -- PRT_P_RESET (R213)
  ⟨0x701000, [(256, 0x4)], [fs 0 6 .rwl 0, fs 6 1 .rwl 0]⟩, -- PRT_HMAP (R213)
  ⟨0x701400, [(256, 0x4)], [fs 0 6 .rwl 0, fs 6 1 .rwl 0]⟩, -- PRT_KMAP (R213)
  ⟨0x701800, [(16, 0x4)], [fs 0 6 .rwl 0, fs 6 1 .rwl 0]⟩, -- PRT_LMAP (R213)
  ⟨0x702000, [(1024, 0x4)], [fs 0 6 .rwl 0, fs 6 1 .rwl 0]⟩, -- PRT_PORT (R213)
  ⟨0x703000, [(64, 0x4)], [fs 0 6 .rwl 0, fs 6 1 .rwl 0]⟩, -- PRT_ENG (R213)
  ⟨0x703100, [(16, 0x8)], [fs 0 32 .rwl 0]⟩, -- PRT_BSUB_LO (R213)
  ⟨0x703104, [(16, 0x8)], [fs 0 32 .rwl 0]⟩, -- PRT_BSUB_HI (R213)
  ⟨0x703200, [(16, 0x4)], [fs 0 6 .rwl 0, fs 6 1 .rwl 0]⟩, -- PRT_EVG (R213)
  ⟨0x703240, [(32, 0x4)], [fs 0 6 .rwl 0, fs 6 1 .rwl 0]⟩, -- PRT_TIM (R213)
  ⟨0x704000, [(64, 0x10), (4, 0x4)], [fs 0 32 .ro 0]⟩, -- PRT_PCNT (R213)
  ⟨0x705000, [(64, 0x10), (3, 0x4)], [fs 0 32 .ro 0]⟩ -- PRT_PAIR (R213)
]

/-- Registers of the HST block, part 1. -/
def rowsHST0 : List RegRow := [
  ⟨0x800000, [(1024, 0x40)], [fs 0 12 .wo 0]⟩, -- HST_PORT_SQ_TAIL (R297)
  ⟨0x800004, [(1024, 0x40)], [fs 0 12 .wo 0]⟩, -- HST_PORT_CQ_HEAD (R297)
  ⟨0x800008, [(1024, 0x40)], [fs 6 26 .rw 0]⟩, -- HST_PORT_SQ_BASE_LO (R297)
  ⟨0x80000C, [(1024, 0x40)], [fs 0 32 .rw 0]⟩, -- HST_PORT_SQ_BASE_HI (R297)
  ⟨0x800010, [(1024, 0x40)], [fs 5 27 .rw 0]⟩, -- HST_PORT_CQ_BASE_LO (R297)
  ⟨0x800014, [(1024, 0x40)], [fs 0 32 .rw 0]⟩, -- HST_PORT_CQ_BASE_HI (R297)
  ⟨0x800018, [(1024, 0x40)], [fs 0 4 .rw 0, fs 8 4 .rw 0]⟩, -- HST_PORT_SIZE (R297)
  ⟨0x80001C, [(1024, 0x40)], [fs 0 1 .rw 0, fs 1 1 .rw 0, fs 2 1 .rw 0, fs 8 8 .rw 0, fs 16 11 .rw 0]⟩, -- HST_PORT_CFG (R297)
  ⟨0x800020, [(1024, 0x40)], [fs 0 8 .rw 0, fs 16 16 .rw 0]⟩, -- HST_PORT_MOD (R297)
  ⟨0x800024, [(1024, 0x40)], [fs 0 1 .ro 0, fs 4 4 .ro 0, fs 16 12 .ro 0]⟩, -- HST_PORT_STS (R297)
  ⟨0x800028, [(1024, 0x40)], [fs 0 15 .ro 0, fl 16 15 .rw 0x1000 1 16384]⟩, -- HST_PORT_CTX (R297)
  ⟨0x80002C, [(1024, 0x40)], [fs 0 16 .ro 0]⟩, -- HST_PORT_RXP (R297)
  ⟨0x800030, [(1024, 0x40)], [fs 0 12 .ro 0, fs 16 1 .ro 1]⟩, -- HST_PORT_CQ_TAIL (R297)
  ⟨0x900000, [(2048, 0x10), (3, 0x4)], [fs 0 32 .rw 0]⟩, -- HST_MSIX (R297)
  ⟨0x90000C, [(2048, 0x10)], [fs 0 32 .rw 1]⟩, -- HST_MSIX_CTL (R297)
  ⟨0x908000, [(64, 0x4)], [fs 0 32 .ro 0]⟩, -- HST_PBA (R297)
  ⟨0x980000, [], [fs 31 1 .w1s 0]⟩, -- HST_CTRL (R297)
  ⟨0x980004, [], [fs 0 15 .ro 0, fs 16 11 .ro 0]⟩, -- HST_STS (R297)
  ⟨0x980008, [], [fs 0 15 .ro 0x4000]⟩, -- HST_CTX_MIN (R297)
  ⟨0x980010, [], [fs 0 1 .w1c 0, fs 1 1 .w1c 0, fs 2 1 .w1c 0, fs 3 1 .w1c 0]⟩, -- HST_EVT_STS (R297)
  ⟨0x980014, [], [fs 0 4 .rw 0]⟩, -- HST_EVT_EN (R297)
  ⟨0x980018, [], [fs 0 11 .rwl 0, fs 31 1 .rwl 0]⟩, -- HST_EVT_VEC (R297)
  ⟨0x980020, [], [fl 0 12 .rwl 0x800 1 2048]⟩, -- HST_PF_VEC (R297)
  ⟨0x980024, [], [fs 0 6 .ro 0, fs 31 1 .w1c 0]⟩ -- HST_VEC_ERR (R297)
]

/-- Registers of the HST block, part 2. -/
def rowsHST1 : List RegRow := [
  ⟨0x980040, [], [fs 0 32 .ro 0]⟩, -- HST_CNT_FETCH (R297)
  ⟨0x980044, [], [fs 0 32 .ro 0]⟩, -- HST_CNT_CPL (R297)
  ⟨0x980048, [], [fs 0 32 .ro 0]⟩, -- HST_CNT_DMA_ERR (R297)
  ⟨0x98004C, [], [fs 0 32 .ro 0]⟩, -- HST_CNT_CTX_STALL (R297)
  ⟨0x980050, [], [fs 0 32 .rwl 0xFF]⟩, -- HST_VF_FEAT_MASK 0 (R297)
  ⟨0x980050, [(4, 0x4)], [fs 0 32 .rwl 0]⟩, -- HST_VF_FEAT_MASK (R297)
  ⟨0x9800FC, [], [fs 0 1 .wo 0, fs 1 1 .wo 0]⟩, -- HST_CNT_CLR (R297)
  ⟨0x980404, [(63, 0x4)], [fl 0 12 .rw 0x40 1 2048]⟩, -- HST_VF_VEC (R297)
  ⟨0x981000, [(64, 0x20), (8, 0x4)], [fs 0 32 .ro 0]⟩ -- HST_PCNT (R297)
]

/-- Registers of the ENG block. -/
def rowsENG : List RegRow := [
  ⟨0x2180000, [(8, 0x200000), (8, 0x100)], [fs 0 1 .wo 0, fs 1 1 .wo 0, fs 2 1 .wo 0, fs 3 1 .wo 0, fs 4 1 .wo 0, fs 8 1 .rw 0]⟩, -- ENG_CTRL (R240)
  ⟨0x2180004, [(8, 0x200000), (8, 0x100)], [fs 0 2 .ro 0, fs 4 4 .ro 7, fs 8 1 .w1c 0, fs 16 6 .ro 0, fs 24 1 .ro 0]⟩, -- ENG_STS (R240)
  ⟨0x2180008, [(8, 0x200000), (8, 0x100)], [fs 0 32 .rw 0]⟩, -- ENG_PC (R240)
  ⟨0x218000C, [(8, 0x200000), (8, 0x100)], [fs 0 4 .ro 0]⟩, -- ENG_ECAUSE (R240)
  ⟨0x2180010, [(8, 0x200000), (8, 0x100), (4, 0x4)], [fs 2 13 .rw 0, fs 31 1 .rw 0]⟩, -- ENG_BP (R240)
  ⟨0x2180020, [(8, 0x200000), (8, 0x100)], [fs 0 32 .ro 0]⟩, -- ENG_CNT_INSN (R240)
  ⟨0x2180024, [(8, 0x200000), (8, 0x100)], [fs 0 7 .ro 0, fs 16 8 .ro 0]⟩, -- ENG_OUTST (R240)
  ⟨0x2180028, [(8, 0x200000), (8, 0x100)], [fs 0 32 .ro 0]⟩, -- ENG_NTF_DISC (R240)
  ⟨0x2180080, [(8, 0x200000), (8, 0x100), (32, 0x4)], [fs 0 32 .rw 0]⟩, -- ENG_G (R240)
  ⟨0x2181000, [(8, 0x200000)], [fs 0 1 .wo 0, fs 1 1 .wo 0, fs 31 1 .w1s 0]⟩, -- ENG_C_CTRL (R240)
  ⟨0x2181004, [(8, 0x200000)], [fs 0 2 .ro 0, fs 8 8 .ro 0x80, fs 16 9 .ro 0]⟩, -- ENG_C_STS (R240)
  ⟨0x2181008, [(8, 0x200000)], [fs 0 8 .w1c 0]⟩, -- ENG_C_HALT_STS (R240)
  ⟨0x218100C, [(8, 0x200000)], [fs 0 1 .rw 0]⟩, -- ENG_C_EVT_EN (R240)
  ⟨0x2181400, [(8, 0x200000), (64, 0x4)], [fs 0 1 .rwl 0, fs 8 8 .rwl 0, fs 16 9 .ro 0]⟩ -- ENG_C_RX (R240)
]

/-- Registers of the SUP block. -/
def rowsSUP : List RegRow := [
  ⟨0x3800000, [(4, 0x1000)], [fs 0 1 .wo 0, fs 1 1 .wo 0, fs 2 1 .wo 0, fs 3 1 .wo 0, fs 8 1 .rw 0]⟩, -- SUP_CTRLN (R241)
  ⟨0x3800004, [], [fs 0 2 .ro 1, fs 4 4 .ro 0, fs 8 1 .ro 1]⟩, -- SUP_STS 0 (R241)
  ⟨0x3801004, [], [fs 0 2 .ro 0, fs 4 4 .ro 7, fs 8 1 .ro 1]⟩, -- SUP_STS 1 (R241)
  ⟨0x3802004, [], [fs 0 2 .ro 0, fs 4 4 .ro 7, fs 8 1 .ro 1]⟩, -- SUP_STS 2 (R241)
  ⟨0x3803004, [], [fs 0 2 .ro 0, fs 4 4 .ro 7, fs 8 1 .ro 1]⟩, -- SUP_STS 3 (R241)
  ⟨0x3800004, [(4, 0x1000)], [fs 0 2 .ro 0, fs 4 4 .ro 0, fs 8 1 .ro 1]⟩, -- SUP_STS (R241)
  ⟨0x3800008, [(4, 0x1000)], [fs 0 32 .rw 0]⟩, -- SUP_PC (R241)
  ⟨0x380000C, [(4, 0x1000)], [fs 0 4 .ro 0]⟩, -- SUP_ECAUSE (R241)
  ⟨0x3800010, [(4, 0x1000), (4, 0x4)], [fs 2 30 .rw 0, fs 0 1 .rw 0]⟩, -- SUP_BP (R241)
  ⟨0x3800020, [(4, 0x1000)], [fs 0 32 .ro 0]⟩, -- SUP_CNT_INSN (R241)
  ⟨0x3800080, [(4, 0x1000), (32, 0x4)], [fs 0 32 .rw 0]⟩, -- SUP_G (R241)
  ⟨0x3800100, [(4, 0x1000), (32, 0x4)], [fs 0 7 .rw 0, fs 7 1 .rw 0]⟩, -- SUP_IRQ (R241)
  ⟨0x3808000, [], [fs 0 1 .w1s 0, fs 31 1 .w1s 0]⟩, -- SUP_CTRL (R241)
  ⟨0x3808010, [], [fs 0 4 .w1c 0]⟩, -- SUP_EVT_STS (R241)
  ⟨0x3808014, [], [fs 0 4 .rw 0]⟩ -- SUP_EVT_EN (R241)
]

/-- Registers of the CLKX block. -/
def rowsCLKX : List RegRow := [
  ⟨0x40100A0, [(2, 0x10)], [fl 0 13 .rwl 0x30 8 4096, fl 16 8 .rwl 0 0 191, fs 31 1 .rw 0]⟩ -- CLK_OUTX_CFG (R387)
]

/-- The register rows of the block an address lies in (R27). -/
def blockRows (a : Nat) : List RegRow :=
  if a < 0x10000 then rowsTOP
  else if a < 0x20000 then rowsCLK0 ++ rowsCLK1
  else if a < 0x30000 then rowsPWR0 ++ rowsPWR1
  else if a < 0x40000 then rowsRTC
  else if a < 0x50000 then rowsTIM
  else if a < 0x60000 then rowsEVR
  else if a < 0x68000 then rowsTWA
  else if a < 0x70000 then rowsTWB
  else if a < 0x80000 then rowsBIAS
  else if a < 0x90000 then rowsFLC0 ++ rowsFLC1
  else if a < 0x200000 then rowsCNP0 ++ rowsCNP1
  else if a < 0x300000 then rowsLNE
  else if a < 0x400000 then rowsTXC0 ++ rowsTXC1
  else if a < 0x500000 then rowsLNK0 ++ rowsLNK1 ++ rowsLNK2
  else if a < 0x600000 then rowsQUE0 ++ rowsQUE1
  else if a < 0x700000 then rowsSEC0 ++ rowsSEC1
  else if a < 0x800000 then rowsPRT0 ++ rowsPRT1
  else if a < 0x1000000 then rowsHST0 ++ rowsHST1
  else if a < 0x3000000 then rowsENG
  else if a < 0x4000000 then rowsSUP
  else if a < 0x4020000 then rowsCLKX
  else []

/-- The displacement d is one of an array's repetitions. -/
def dimsHit : List (Nat × Nat) → Nat → Bool
  | [], d => d == 0
  | (n, st) :: ds, d => decide (d / st < n) && dimsHit ds (d % st)

/-- The row of the register at an address. -/
def rowAt (a : Nat) : Option RegRow := (blockRows a).find? (fun r => decide (r.addr ≤ a) && dimsHit r.dims (a - r.addr))

/-- A row's reset value (R12). -/
def rowReset (r : RegRow) : Word := r.fields.foldl (fun w f => w ||| BitVec.ofNat 32 (f.rst * 2 ^ f.lo)) 0#32

/-- The reset value of the register at an address, zero at an unused offset (R11, R12). The grade of TOP_ID is the part's. -/
def regReset (a : Nat) : Word :=
  if a = 0 then 0x00B06480#32 ||| (if Config.grade then 0x1000000#32 else 0#32)
  else match rowAt a with
    | some r => rowReset r
    | none => 0#32

/-- TOP_ID (R296). -/
def TOP_ID.reg : Nat := 0x0
/-- TOP_ID.STEP (R296). -/
def TOP_ID.STEP : RegFld := ⟨TOP_ID.reg, 16, 8⟩
/-- TOP_FEAT_OFFER[i] (R296). -/
def TOP_FEAT_OFFER.reg (i : Nat) : Nat := 0x10 + 0x4 * i
/-- TOP_FEAT_REQ[i] (R296). -/
def TOP_FEAT_REQ.reg (i : Nat) : Nat := 0x20 + 0x4 * i
/-- TOP_FEAT_CTRL (R296). -/
def TOP_FEAT_CTRL.reg : Nat := 0x30
/-- TOP_FEAT_CTRL.RESULT (R296). -/
def TOP_FEAT_CTRL.RESULT : RegFld := ⟨TOP_FEAT_CTRL.reg, 4, 2⟩
/-- TOP_FEAT_ACT[i] (R296). -/
def TOP_FEAT_ACT.reg (i : Nat) : Nat := 0x40 + 0x4 * i
/-- TOP_FEAT_ACT.ACT (R296). -/
def TOP_FEAT_ACT.ACT (i : Nat) : RegFld := ⟨TOP_FEAT_ACT.reg i, 0, 32⟩
/-- TOP_RESET (R296). -/
def TOP_RESET.reg : Nat := 0x100
/-- TOP_RESET_STS (R296). -/
def TOP_RESET_STS.reg : Nat := 0x104
/-- TOP_RESET_STS.RADIO_BUSY (R296). -/
def TOP_RESET_STS.RADIO_BUSY : RegFld := ⟨TOP_RESET_STS.reg, 0, 1⟩
/-- TOP_RESET_STS.LAST_CAUSE (R296). -/
def TOP_RESET_STS.LAST_CAUSE : RegFld := ⟨TOP_RESET_STS.reg, 4, 4⟩
/-- TOP_START_STS (R296). -/
def TOP_START_STS.reg : Nat := 0x200
/-- TOP_START_STS.COUNT (R296). -/
def TOP_START_STS.COUNT : RegFld := ⟨TOP_START_STS.reg, 0, 3⟩
/-- TOP_START_STS.LIMIT (R296). -/
def TOP_START_STS.LIMIT : RegFld := ⟨TOP_START_STS.reg, 4, 3⟩
/-- TOP_START_STS.SEEDLING (R296). -/
def TOP_START_STS.SEEDLING : RegFld := ⟨TOP_START_STS.reg, 8, 1⟩
/-- TOP_START_REASON[i] (R296). -/
def TOP_START_REASON.reg (i : Nat) : Nat := 0x204 + 0x4 * i
/-- TOP_START_REASON.REASON (R296). -/
def TOP_START_REASON.REASON (i : Nat) : RegFld := ⟨TOP_START_REASON.reg i, 0, 8⟩
/-- TOP_START_REASON.DETAIL (R296). -/
def TOP_START_REASON.DETAIL (i : Nat) : RegFld := ⟨TOP_START_REASON.reg i, 8, 8⟩
/-- TOP_START_REASON.FAIL_SEC (R296). -/
def TOP_START_REASON.FAIL_SEC (i : Nat) : RegFld := ⟨TOP_START_REASON.reg i, 16, 8⟩
/-- TOP_START_REASON.STAGE (R296). -/
def TOP_START_REASON.STAGE (i : Nat) : RegFld := ⟨TOP_START_REASON.reg i, 24, 4⟩
/-- TOP_START_REASON.SLOT (R296). -/
def TOP_START_REASON.SLOT (i : Nat) : RegFld := ⟨TOP_START_REASON.reg i, 28, 2⟩
/-- TOP_START_REASON.VALID (R296). -/
def TOP_START_REASON.VALID (i : Nat) : RegFld := ⟨TOP_START_REASON.reg i, 31, 1⟩
/-- TOP_START_CTRL (R296). -/
def TOP_START_CTRL.reg : Nat := 0x220
/-- TOP_START_CTRL.DRIVER_OK (R296). -/
def TOP_START_CTRL.DRIVER_OK : RegFld := ⟨TOP_START_CTRL.reg, 0, 1⟩
/-- TOP_CNT_UNMAPPED (R296). -/
def TOP_CNT_UNMAPPED.reg : Nat := 0x300
/-- TOP_CNT_UNMAPPED.COUNT (R296). -/
def TOP_CNT_UNMAPPED.COUNT : RegFld := ⟨TOP_CNT_UNMAPPED.reg, 0, 32⟩
/-- TOP_CNT_BADSIZE (R296). -/
def TOP_CNT_BADSIZE.reg : Nat := 0x304
/-- TOP_CNT_BADSIZE.COUNT (R296). -/
def TOP_CNT_BADSIZE.COUNT : RegFld := ⟨TOP_CNT_BADSIZE.reg, 0, 32⟩
/-- TOP_BAD_LOG (R296). -/
def TOP_BAD_LOG.reg : Nat := 0x308
/-- TOP_BAD_LOG.OFFSET (R296). -/
def TOP_BAD_LOG.OFFSET : RegFld := ⟨TOP_BAD_LOG.reg, 0, 26⟩
/-- TOP_BAD_LOG.KIND (R296). -/
def TOP_BAD_LOG.KIND : RegFld := ⟨TOP_BAD_LOG.reg, 28, 1⟩
/-- TOP_BAD_LOG.VALID (R296). -/
def TOP_BAD_LOG.VALID : RegFld := ⟨TOP_BAD_LOG.reg, 31, 1⟩
/-- TOP_EVT_STS (R296). -/
def TOP_EVT_STS.reg : Nat := 0x310
/-- TOP_MBOX[i] (R296). -/
def TOP_MBOX.reg (i : Nat) : Nat := 0x8000 + 0x4 * i
/-- TOP_MBOX.WORD (R296). -/
def TOP_MBOX.WORD (i : Nat) : RegFld := ⟨TOP_MBOX.reg i, 0, 32⟩
/-- CLK_CTRL (R400). -/
def CLK_CTRL.reg : Nat := 0x10000
/-- CLK_CTRL.LOCK (R400). -/
def CLK_CTRL.LOCK : RegFld := ⟨CLK_CTRL.reg, 31, 1⟩
/-- CLK_STS (R400). -/
def CLK_STS.reg : Nat := 0x10004
/-- CLK_STS.SYN_LOCK (R400). -/
def CLK_STS.SYN_LOCK : RegFld := ⟨CLK_STS.reg, 0, 1⟩
/-- CLK_STS.ALN_LOCK (R400). -/
def CLK_STS.ALN_LOCK : RegFld := ⟨CLK_STS.reg, 1, 1⟩
/-- CLK_STS.FREE_RUN (R400). -/
def CLK_STS.FREE_RUN : RegFld := ⟨CLK_STS.reg, 2, 1⟩
/-- CLK_STS.SYNC_MISSING (R400). -/
def CLK_STS.SYNC_MISSING : RegFld := ⟨CLK_STS.reg, 4, 1⟩
/-- CLK_STS.SLIP (R400). -/
def CLK_STS.SLIP : RegFld := ⟨CLK_STS.reg, 5, 1⟩
/-- CLK_EVT_STS (R400). -/
def CLK_EVT_STS.reg : Nat := 0x10010
/-- CLK_SYN_REF (R400). -/
def CLK_SYN_REF.reg : Nat := 0x10020
/-- CLK_SYN_REF.REF_KHZ (R400). -/
def CLK_SYN_REF.REF_KHZ : RegFld := ⟨CLK_SYN_REF.reg, 0, 17⟩
/-- CLK_SYN_REF.RDIV (R400). -/
def CLK_SYN_REF.RDIV : RegFld := ⟨CLK_SYN_REF.reg, 24, 4⟩
/-- CLK_SYN_N (R400). -/
def CLK_SYN_N.reg : Nat := 0x10024
/-- CLK_SYN_N.N (R400). -/
def CLK_SYN_N.N : RegFld := ⟨CLK_SYN_N.reg, 0, 10⟩
/-- CLK_SYN_FRAC (R400). -/
def CLK_SYN_FRAC.reg : Nat := 0x10028
/-- CLK_SYN_FRAC.FRAC (R400). -/
def CLK_SYN_FRAC.FRAC : RegFld := ⟨CLK_SYN_FRAC.reg, 0, 24⟩
/-- CLK_SYN_CTRL (R400). -/
def CLK_SYN_CTRL.reg : Nat := 0x1002C
/-- CLK_SYN_CTRL.EN (R400). -/
def CLK_SYN_CTRL.EN : RegFld := ⟨CLK_SYN_CTRL.reg, 0, 1⟩
/-- CLK_SYN_CTRL.FULL_SEARCH (R400). -/
def CLK_SYN_CTRL.FULL_SEARCH : RegFld := ⟨CLK_SYN_CTRL.reg, 1, 1⟩
/-- CLK_SYN_STS (R400). -/
def CLK_SYN_STS.reg : Nat := 0x10030
/-- CLK_SYN_STS.BAND (R400). -/
def CLK_SYN_STS.BAND : RegFld := ⟨CLK_SYN_STS.reg, 0, 6⟩
/-- CLK_SYN_STS.STORED (R400). -/
def CLK_SYN_STS.STORED : RegFld := ⟨CLK_SYN_STS.reg, 8, 1⟩
/-- CLK_SYN_STS.LOCK_US (R400). -/
def CLK_SYN_STS.LOCK_US : RegFld := ⟨CLK_SYN_STS.reg, 16, 16⟩
/-- CLK_SYN_CNT (R400). -/
def CLK_SYN_CNT.reg : Nat := 0x10034
/-- CLK_SYN_CNT.COUNT (R400). -/
def CLK_SYN_CNT.COUNT : RegFld := ⟨CLK_SYN_CNT.reg, 0, 32⟩
/-- CLK_BAND_STORE (R400). -/
def CLK_BAND_STORE.reg : Nat := 0x10038
/-- CLK_BAND_STORE.BAND (R400). -/
def CLK_BAND_STORE.BAND : RegFld := ⟨CLK_BAND_STORE.reg, 0, 6⟩
/-- CLK_BAND_STORE.TEMP (R400). -/
def CLK_BAND_STORE.TEMP : RegFld := ⟨CLK_BAND_STORE.reg, 8, 16⟩
/-- CLK_BAND_STORE.VALID (R400). -/
def CLK_BAND_STORE.VALID : RegFld := ⟨CLK_BAND_STORE.reg, 31, 1⟩
/-- CLK_ALN_CFG (R400). -/
def CLK_ALN_CFG.reg : Nat := 0x10040
/-- CLK_ALN_CFG.SRC (R400). -/
def CLK_ALN_CFG.SRC : RegFld := ⟨CLK_ALN_CFG.reg, 0, 2⟩
/-- CLK_ALN_CFG.TRACK (R400). -/
def CLK_ALN_CFG.TRACK : RegFld := ⟨CLK_ALN_CFG.reg, 2, 1⟩
/-- CLK_ALN_CFG.SYNC_DLY (R400). -/
def CLK_ALN_CFG.SYNC_DLY : RegFld := ⟨CLK_ALN_CFG.reg, 8, 8⟩
/-- CLK_ALN_STS (R400). -/
def CLK_ALN_STS.reg : Nat := 0x10044
/-- CLK_ALN_STS.ERR (R400). -/
def CLK_ALN_STS.ERR : RegFld := ⟨CLK_ALN_STS.reg, 0, 9⟩
/-- CLK_SYNC_PERIOD (R400). -/
def CLK_SYNC_PERIOD.reg : Nat := 0x10048
/-- CLK_SYNC_PERIOD.TICKS (R400). -/
def CLK_SYNC_PERIOD.TICKS : RegFld := ⟨CLK_SYNC_PERIOD.reg, 0, 21⟩
/-- CLK_SYNC_TOL (R400). -/
def CLK_SYNC_TOL.reg : Nat := 0x1004C
/-- CLK_SYNC_TOL.TOL (R400). -/
def CLK_SYNC_TOL.TOL : RegFld := ⟨CLK_SYNC_TOL.reg, 0, 7⟩
/-- CLK_SYNC_CAP_LO (R400). -/
def CLK_SYNC_CAP_LO.reg : Nat := 0x10050
/-- CLK_SYNC_CAP_PH (R400). -/
def CLK_SYNC_CAP_PH.reg : Nat := 0x10058
/-- CLK_SYNC_CAP_PH.PHASE (R400). -/
def CLK_SYNC_CAP_PH.PHASE : RegFld := ⟨CLK_SYNC_CAP_PH.reg, 0, 8⟩
/-- CLK_SYNC_CNT (R400). -/
def CLK_SYNC_CNT.reg : Nat := 0x1005C
/-- CLK_SYNC_CNT.COUNT (R400). -/
def CLK_SYNC_CNT.COUNT : RegFld := ⟨CLK_SYNC_CNT.reg, 0, 32⟩
/-- CLK_CNT_SLIP (R400). -/
def CLK_CNT_SLIP.reg : Nat := 0x10060
/-- CLK_CNT_SLIP.COUNT (R400). -/
def CLK_CNT_SLIP.COUNT : RegFld := ⟨CLK_CNT_SLIP.reg, 0, 32⟩
/-- CLK_SYNCOUT_CFG (R400). -/
def CLK_SYNCOUT_CFG.reg : Nat := 0x10070
/-- CLK_SYNCOUT_CFG.MODE (R400). -/
def CLK_SYNCOUT_CFG.MODE : RegFld := ⟨CLK_SYNCOUT_CFG.reg, 0, 2⟩
/-- CLK_SYNCOUT_CFG.DLY (R400). -/
def CLK_SYNCOUT_CFG.DLY : RegFld := ⟨CLK_SYNCOUT_CFG.reg, 16, 8⟩
/-- CLK_SYNCOUT_PERIOD (R400). -/
def CLK_SYNCOUT_PERIOD.reg : Nat := 0x10074
/-- CLK_SYNCOUT_PERIOD.TICKS (R400). -/
def CLK_SYNCOUT_PERIOD.TICKS : RegFld := ⟨CLK_SYNCOUT_PERIOD.reg, 0, 21⟩
/-- CLK_SYNCOUT_OFS (R400). -/
def CLK_SYNCOUT_OFS.reg : Nat := 0x10078
/-- CLK_SYNCOUT_OFS.TICKS (R400). -/
def CLK_SYNCOUT_OFS.TICKS : RegFld := ⟨CLK_SYNCOUT_OFS.reg, 0, 21⟩
/-- CLK_OUT_CFG[i] (R400). -/
def CLK_OUT_CFG.reg (i : Nat) : Nat := if i < 2 then 0x10080 + 0x10 * i else 0x4010080 + 0x10 * i
/-- CLK_OUT_CFG.DIV (R400). -/
def CLK_OUT_CFG.DIV (i : Nat) : RegFld := ⟨CLK_OUT_CFG.reg i, 0, 13⟩
/-- CLK_OUT_CFG.EN (R400). -/
def CLK_OUT_CFG.EN (i : Nat) : RegFld := ⟨CLK_OUT_CFG.reg i, 31, 1⟩
/-- CLK_ATB_STS (R400). -/
def CLK_ATB_STS.reg : Nat := 0x100A0
/-- CLK_ATB_STS.BRIDGED (R400). -/
def CLK_ATB_STS.BRIDGED : RegFld := ⟨CLK_ATB_STS.reg, 0, 1⟩
/-- CLK_ATB_STS.UNTRUSTED (R400). -/
def CLK_ATB_STS.UNTRUSTED : RegFld := ⟨CLK_ATB_STS.reg, 1, 1⟩
/-- CLK_ATB_BRIDGE_LO (R400). -/
def CLK_ATB_BRIDGE_LO.reg : Nat := 0x100A4
/-- CLK_ATB_UNC (R400). -/
def CLK_ATB_UNC.reg : Nat := 0x100AC
/-- CLK_ATB_UNC.TICKS (R400). -/
def CLK_ATB_UNC.TICKS : RegFld := ⟨CLK_ATB_UNC.reg, 0, 32⟩
/-- CLK_XK_CFG (R400). -/
def CLK_XK_CFG.reg : Nat := 0x100B0
/-- CLK_XK_CFG.PPM (R400). -/
def CLK_XK_CFG.PPM : RegFld := ⟨CLK_XK_CFG.reg, 0, 8⟩
/-- PWR_CTRL (R377). -/
def PWR_CTRL.reg : Nat := 0x20000
/-- PWR_CTRL.LOCK (R377). -/
def PWR_CTRL.LOCK : RegFld := ⟨PWR_CTRL.reg, 31, 1⟩
/-- PWR_STS (R377). -/
def PWR_STS.reg : Nat := 0x20004
/-- PWR_STS.STATE (R377). -/
def PWR_STS.STATE : RegFld := ⟨PWR_STS.reg, 0, 3⟩
/-- PWR_STS.BUSY (R377). -/
def PWR_STS.BUSY : RegFld := ⟨PWR_STS.reg, 4, 1⟩
/-- PWR_CMD (R377). -/
def PWR_CMD.reg : Nat := 0x20008
/-- PWR_CMD_RES (R377). -/
def PWR_CMD_RES.reg : Nat := 0x2000C
/-- PWR_CMD_RES.STATUS (R377). -/
def PWR_CMD_RES.STATUS : RegFld := ⟨PWR_CMD_RES.reg, 0, 4⟩
/-- PWR_EVT_STS (R377). -/
def PWR_EVT_STS.reg : Nat := 0x20010
/-- PWR_RET_CFG (R377). -/
def PWR_RET_CFG.reg : Nat := 0x20020
/-- PWR_RET_CFG.BANKS (R377). -/
def PWR_RET_CFG.BANKS : RegFld := ⟨PWR_RET_CFG.reg, 0, 5⟩
/-- PWR_RET_CFG.COMPAT (R377). -/
def PWR_RET_CFG.COMPAT : RegFld := ⟨PWR_RET_CFG.reg, 8, 1⟩
/-- PWR_RET_CFG.FLOAT_A (R377). -/
def PWR_RET_CFG.FLOAT_A : RegFld := ⟨PWR_RET_CFG.reg, 12, 1⟩
/-- PWR_RET_CFG.FLOAT_B (R377). -/
def PWR_RET_CFG.FLOAT_B : RegFld := ⟨PWR_RET_CFG.reg, 13, 1⟩
/-- PWR_REG_CFG (R377). -/
def PWR_REG_CFG.reg : Nat := 0x20024
/-- PWR_REG_CFG.MODE (R377). -/
def PWR_REG_CFG.MODE : RegFld := ⟨PWR_REG_CFG.reg, 0, 1⟩
/-- PWR_QUIESCE_TMO (R377). -/
def PWR_QUIESCE_TMO.reg : Nat := 0x20028
/-- PWR_QUIESCE_TMO.MS (R377). -/
def PWR_QUIESCE_TMO.MS : RegFld := ⟨PWR_QUIESCE_TMO.reg, 0, 16⟩
/-- PWR_TRIM_CFG (R377). -/
def PWR_TRIM_CFG.reg : Nat := 0x20030
/-- PWR_TRIM_CFG.ANT (R377). -/
def PWR_TRIM_CFG.ANT : RegFld := ⟨PWR_TRIM_CFG.reg, 0, 8⟩
/-- PWR_TRIM_CFG.CHAIN (R377). -/
def PWR_TRIM_CFG.CHAIN : RegFld := ⟨PWR_TRIM_CFG.reg, 8, 8⟩
/-- PWR_TRIM_CFG.CLS (R377). -/
def PWR_TRIM_CFG.CLS : RegFld := ⟨PWR_TRIM_CFG.reg, 16, 8⟩
/-- PWR_TRIM_BUDGET (R377). -/
def PWR_TRIM_BUDGET.reg : Nat := 0x20034
/-- PWR_TRIM_BUDGET.MW (R377). -/
def PWR_TRIM_BUDGET.MW : RegFld := ⟨PWR_TRIM_BUDGET.reg, 0, 16⟩
/-- PWR_WATCH_CFG (R377). -/
def PWR_WATCH_CFG.reg : Nat := 0x20038
/-- PWR_WATCH_CFG.ANT (R377). -/
def PWR_WATCH_CFG.ANT : RegFld := ⟨PWR_WATCH_CFG.reg, 0, 3⟩
/-- PWR_WATCH_CFG.LANES (R377). -/
def PWR_WATCH_CFG.LANES : RegFld := ⟨PWR_WATCH_CFG.reg, 8, 7⟩
/-- PWR_WATCH_CFG.CLS (R377). -/
def PWR_WATCH_CFG.CLS : RegFld := ⟨PWR_WATCH_CFG.reg, 16, 8⟩
/-- PWR_WATCH_BUDGET (R377). -/
def PWR_WATCH_BUDGET.reg : Nat := 0x2003C
/-- PWR_WATCH_BUDGET.MW (R377). -/
def PWR_WATCH_BUDGET.MW : RegFld := ⟨PWR_WATCH_BUDGET.reg, 0, 16⟩
/-- PWR_WAKE_EN (R377). -/
def PWR_WAKE_EN.reg : Nat := 0x20040
/-- PWR_WAKE_EN.WAKE_IN (R377). -/
def PWR_WAKE_EN.WAKE_IN : RegFld := ⟨PWR_WAKE_EN.reg, 0, 1⟩
/-- PWR_WAKE_EN.RTC (R377). -/
def PWR_WAKE_EN.RTC : RegFld := ⟨PWR_WAKE_EN.reg, 1, 1⟩
/-- PWR_WAKE_EN.EVT (R377). -/
def PWR_WAKE_EN.EVT : RegFld := ⟨PWR_WAKE_EN.reg, 2, 1⟩
/-- PWR_WAKE_EN.AIR (R377). -/
def PWR_WAKE_EN.AIR : RegFld := ⟨PWR_WAKE_EN.reg, 3, 1⟩
/-- PWR_WAKE_EN.WAKE_IN_POL (R377). -/
def PWR_WAKE_EN.WAKE_IN_POL : RegFld := ⟨PWR_WAKE_EN.reg, 8, 1⟩
/-- PWR_WAKE_EN.EVT_CH (R377). -/
def PWR_WAKE_EN.EVT_CH : RegFld := ⟨PWR_WAKE_EN.reg, 16, 7⟩
/-- PWR_WAKE_STS (R377). -/
def PWR_WAKE_STS.reg : Nat := 0x20044
/-- PWR_WAKE_STS.SRC (R377). -/
def PWR_WAKE_STS.SRC : RegFld := ⟨PWR_WAKE_STS.reg, 0, 4⟩
/-- PWR_WAKE_STS.RESUME (R377). -/
def PWR_WAKE_STS.RESUME : RegFld := ⟨PWR_WAKE_STS.reg, 8, 1⟩
/-- PWR_WAKE_STS.RET_LOST (R377). -/
def PWR_WAKE_STS.RET_LOST : RegFld := ⟨PWR_WAKE_STS.reg, 9, 1⟩
/-- PWR_WAKE_STS.WAKE_FAIL (R377). -/
def PWR_WAKE_STS.WAKE_FAIL : RegFld := ⟨PWR_WAKE_STS.reg, 10, 1⟩
/-- PWR_WAKE_STS.PENDING (R377). -/
def PWR_WAKE_STS.PENDING : RegFld := ⟨PWR_WAKE_STS.reg, 31, 1⟩
/-- PWR_WAKE_TMO (R377). -/
def PWR_WAKE_TMO.reg : Nat := 0x20048
/-- PWR_WAKE_TMO.MS (R377). -/
def PWR_WAKE_TMO.MS : RegFld := ⟨PWR_WAKE_TMO.reg, 0, 8⟩
/-- PWR_AIR_CFG (R377). -/
def PWR_AIR_CFG.reg : Nat := 0x20050
/-- PWR_AIR_CFG.GRID (R377). -/
def PWR_AIR_CFG.GRID : RegFld := ⟨PWR_AIR_CFG.reg, 0, 4⟩
/-- PWR_AIR_CFG.CHAN (R377). -/
def PWR_AIR_CFG.CHAN : RegFld := ⟨PWR_AIR_CFG.reg, 8, 8⟩
/-- PWR_AIR_CFG.SF (R377). -/
def PWR_AIR_CFG.SF : RegFld := ⟨PWR_AIR_CFG.reg, 16, 2⟩
/-- PWR_AIR_CODE_LO (R377). -/
def PWR_AIR_CODE_LO.reg : Nat := 0x20054
/-- PWR_AIR_MASK_LO (R377). -/
def PWR_AIR_MASK_LO.reg : Nat := 0x2005C
/-- PWR_AIR_CNT (R377). -/
def PWR_AIR_CNT.reg : Nat := 0x20064
/-- PWR_AIR_CNT.COUNT (R377). -/
def PWR_AIR_CNT.COUNT : RegFld := ⟨PWR_AIR_CNT.reg, 0, 32⟩
/-- PWR_CNT_AON_BO (R377). -/
def PWR_CNT_AON_BO.reg : Nat := 0x20068
/-- PWR_CNT_AON_BO.COUNT (R377). -/
def PWR_CNT_AON_BO.COUNT : RegFld := ⟨PWR_CNT_AON_BO.reg, 0, 32⟩
/-- PWR_ARB_STS (R377). -/
def PWR_ARB_STS.reg : Nat := 0x20080
/-- PWR_ARB_BUDGET (R377). -/
def PWR_ARB_BUDGET.reg : Nat := 0x20084
/-- PWR_ARB_RESERVE (R377). -/
def PWR_ARB_RESERVE.reg : Nat := 0x20088
/-- PWR_ARB_RESERVE.MW (R377). -/
def PWR_ARB_RESERVE.MW : RegFld := ⟨PWR_ARB_RESERVE.reg, 0, 16⟩
/-- PWR_CNT_GRANT (R377). -/
def PWR_CNT_GRANT.reg : Nat := 0x2008C
/-- PWR_CNT_GRANT.COUNT (R377). -/
def PWR_CNT_GRANT.COUNT : RegFld := ⟨PWR_CNT_GRANT.reg, 0, 32⟩
/-- PWR_CNT_REFUSED (R377). -/
def PWR_CNT_REFUSED.reg : Nat := 0x20090
/-- PWR_CNT_REFUSED.COUNT (R377). -/
def PWR_CNT_REFUSED.COUNT : RegFld := ⟨PWR_CNT_REFUSED.reg, 0, 32⟩
/-- PWR_CNT_WAITED (R377). -/
def PWR_CNT_WAITED.reg : Nat := 0x20094
/-- PWR_CNT_WAITED.COUNT (R377). -/
def PWR_CNT_WAITED.COUNT : RegFld := ⟨PWR_CNT_WAITED.reg, 0, 32⟩
/-- PWR_TEMP_STS (R377). -/
def PWR_TEMP_STS.reg : Nat := 0x200A0
/-- PWR_TEMP_STS.TEMP (R377). -/
def PWR_TEMP_STS.TEMP : RegFld := ⟨PWR_TEMP_STS.reg, 0, 16⟩
/-- PWR_TEMP_STS.TRIP (R377). -/
def PWR_TEMP_STS.TRIP : RegFld := ⟨PWR_TEMP_STS.reg, 16, 1⟩
/-- PWR_TEMP_CFG (R377). -/
def PWR_TEMP_CFG.reg : Nat := 0x200A4
/-- PWR_TEMP_CFG.TRIP (R377). -/
def PWR_TEMP_CFG.TRIP : RegFld := ⟨PWR_TEMP_CFG.reg, 0, 16⟩
/-- PWR_TEMP_CFG.HYST (R377). -/
def PWR_TEMP_CFG.HYST : RegFld := ⟨PWR_TEMP_CFG.reg, 16, 8⟩
/-- PWR_CNT_TRIP (R377). -/
def PWR_CNT_TRIP.reg : Nat := 0x200A8
/-- PWR_CNT_TRIP.COUNT (R377). -/
def PWR_CNT_TRIP.COUNT : RegFld := ⟨PWR_CNT_TRIP.reg, 0, 32⟩
/-- PWR_VBAK (R377). -/
def PWR_VBAK.reg : Nat := 0x200C0
/-- PWR_VBAK.MV (R377). -/
def PWR_VBAK.MV : RegFld := ⟨PWR_VBAK.reg, 0, 12⟩
/-- PWR_VBAK.LOW (R377). -/
def PWR_VBAK.LOW : RegFld := ⟨PWR_VBAK.reg, 16, 1⟩
/-- PWR_VBAK.SHIELD_UNMON (R377). -/
def PWR_VBAK.SHIELD_UNMON : RegFld := ⟨PWR_VBAK.reg, 17, 1⟩
/-- PWR_VBAK_LOW (R377). -/
def PWR_VBAK_LOW.reg : Nat := 0x200C4
/-- PWR_VBAK_LOW.MV (R377). -/
def PWR_VBAK_LOW.MV : RegFld := ⟨PWR_VBAK_LOW.reg, 0, 12⟩
/-- PWR_GAUGE_CAP (R377). -/
def PWR_GAUGE_CAP.reg : Nat := 0x200C8
/-- PWR_GAUGE_CAP.UAH (R377). -/
def PWR_GAUGE_CAP.UAH : RegFld := ⟨PWR_GAUGE_CAP.reg, 0, 24⟩
/-- PWR_GAUGE_REM (R377). -/
def PWR_GAUGE_REM.reg : Nat := 0x200CC
/-- PWR_GAUGE_REM.UAH (R377). -/
def PWR_GAUGE_REM.UAH : RegFld := ⟨PWR_GAUGE_REM.reg, 0, 24⟩
/-- PWR_GAUGE_REM.MISMATCH (R377). -/
def PWR_GAUGE_REM.MISMATCH : RegFld := ⟨PWR_GAUGE_REM.reg, 30, 1⟩
/-- PWR_GAUGE_REM.UNKNOWN (R377). -/
def PWR_GAUGE_REM.UNKNOWN : RegFld := ⟨PWR_GAUGE_REM.reg, 31, 1⟩
/-- PWR_GAUGE_CAL (R377). -/
def PWR_GAUGE_CAL.reg : Nat := 0x200D0
/-- PWR_CNT_CLR (R377). -/
def PWR_CNT_CLR.reg : Nat := 0x200FC
/-- RTC_CTRL (R401). -/
def RTC_CTRL.reg : Nat := 0x30000
/-- RTC_CTRL.HALT (R401). -/
def RTC_CTRL.HALT : RegFld := ⟨RTC_CTRL.reg, 0, 1⟩
/-- RTC_STS (R401). -/
def RTC_STS.reg : Nat := 0x30004
/-- RTC_STS.STALE (R401). -/
def RTC_STS.STALE : RegFld := ⟨RTC_STS.reg, 0, 1⟩
/-- RTC_STS.UNTRUSTED (R401). -/
def RTC_STS.UNTRUSTED : RegFld := ⟨RTC_STS.reg, 1, 1⟩
/-- RTC_STS.FROZEN (R401). -/
def RTC_STS.FROZEN : RegFld := ⟨RTC_STS.reg, 2, 1⟩
/-- RTC_STS.XK_FAIL (R401). -/
def RTC_STS.XK_FAIL : RegFld := ⟨RTC_STS.reg, 3, 1⟩
/-- RTC_SUBSEC (R401). -/
def RTC_SUBSEC.reg : Nat := 0x30010
/-- RTC_SUBSEC.COUNT (R401). -/
def RTC_SUBSEC.COUNT : RegFld := ⟨RTC_SUBSEC.reg, 0, 15⟩
/-- RTC_SEC_LO (R401). -/
def RTC_SEC_LO.reg : Nat := 0x30014
/-- RTC_SEC_LO.SEC (R401). -/
def RTC_SEC_LO.SEC : RegFld := ⟨RTC_SEC_LO.reg, 0, 32⟩
/-- RTC_SEC_HI (R401). -/
def RTC_SEC_HI.reg : Nat := 0x30018
/-- RTC_SEC_HI.SEC (R401). -/
def RTC_SEC_HI.SEC : RegFld := ⟨RTC_SEC_HI.reg, 0, 16⟩
/-- RTC_CAL (R401). -/
def RTC_CAL.reg : Nat := 0x30020
/-- RTC_CAL.CAL (R401). -/
def RTC_CAL.CAL : RegFld := ⟨RTC_CAL.reg, 0, 8⟩
/-- RTC_ALARM_LO (R401). -/
def RTC_ALARM_LO.reg : Nat := 0x30030
/-- RTC_ALARM_LO.SEC (R401). -/
def RTC_ALARM_LO.SEC : RegFld := ⟨RTC_ALARM_LO.reg, 0, 32⟩
/-- RTC_ALARM_HI (R401). -/
def RTC_ALARM_HI.reg : Nat := 0x30034
/-- RTC_ALARM_HI.SEC (R401). -/
def RTC_ALARM_HI.SEC : RegFld := ⟨RTC_ALARM_HI.reg, 0, 16⟩
/-- RTC_ALARM_CTRL (R401). -/
def RTC_ALARM_CTRL.reg : Nat := 0x30038
/-- RTC_ALARM_CTRL.ARMED (R401). -/
def RTC_ALARM_CTRL.ARMED : RegFld := ⟨RTC_ALARM_CTRL.reg, 0, 1⟩
/-- RTC_ALARM_CTRL.FIRED (R401). -/
def RTC_ALARM_CTRL.FIRED : RegFld := ⟨RTC_ALARM_CTRL.reg, 1, 1⟩
/-- RTC_ALARM_CTRL.LATE (R401). -/
def RTC_ALARM_CTRL.LATE : RegFld := ⟨RTC_ALARM_CTRL.reg, 2, 1⟩
/-- RTC_ALARM_CTRL.EVT_EN (R401). -/
def RTC_ALARM_CTRL.EVT_EN : RegFld := ⟨RTC_ALARM_CTRL.reg, 4, 1⟩
/-- RTC_ALARM_CTRL.EVT_CH (R401). -/
def RTC_ALARM_CTRL.EVT_CH : RegFld := ⟨RTC_ALARM_CTRL.reg, 5, 7⟩
/-- RTC_SEC_EVT (R401). -/
def RTC_SEC_EVT.reg : Nat := 0x30040
/-- RTC_SEC_EVT.CH (R401). -/
def RTC_SEC_EVT.CH : RegFld := ⟨RTC_SEC_EVT.reg, 0, 7⟩
/-- RTC_SEC_EVT.EN (R401). -/
def RTC_SEC_EVT.EN : RegFld := ⟨RTC_SEC_EVT.reg, 7, 1⟩
/-- TIM_STS (R402). -/
def TIM_STS.reg : Nat := 0x40000
/-- TIM_START (R402). -/
def TIM_START.reg : Nat := 0x40004
/-- TIM_STOP (R402). -/
def TIM_STOP.reg : Nat := 0x40008
/-- TIM_CTRL[i] (R402). -/
def TIM_CTRL.reg (i : Nat) : Nat := 0x40100 + 0x40 * i
/-- TIM_CTRL.EN (R402). -/
def TIM_CTRL.EN (i : Nat) : RegFld := ⟨TIM_CTRL.reg i, 0, 1⟩
/-- TIM_CTRL.ONESHOT (R402). -/
def TIM_CTRL.ONESHOT (i : Nat) : RegFld := ⟨TIM_CTRL.reg i, 1, 1⟩
/-- TIM_CFG[i] (R402). -/
def TIM_CFG.reg (i : Nat) : Nat := 0x40104 + 0x40 * i
/-- TIM_CFG.SRC (R402). -/
def TIM_CFG.SRC (i : Nat) : RegFld := ⟨TIM_CFG.reg i, 0, 2⟩
/-- TIM_CFG.PRE (R402). -/
def TIM_CFG.PRE (i : Nat) : RegFld := ⟨TIM_CFG.reg i, 4, 4⟩
/-- TIM_CNT[i] (R402). -/
def TIM_CNT.reg (i : Nat) : Nat := 0x40108 + 0x40 * i
/-- TIM_CNT.COUNT (R402). -/
def TIM_CNT.COUNT (i : Nat) : RegFld := ⟨TIM_CNT.reg i, 0, 32⟩
/-- TIM_TOP[i] (R402). -/
def TIM_TOP.reg (i : Nat) : Nat := 0x4010C + 0x40 * i
/-- TIM_TOP.TOP (R402). -/
def TIM_TOP.TOP (i : Nat) : RegFld := ⟨TIM_TOP.reg i, 0, 32⟩
/-- TIM_CMP0[i] (R402). -/
def TIM_CMP0.reg (i : Nat) : Nat := 0x40110 + 0x40 * i
/-- TIM_CMP0.CMP (R402). -/
def TIM_CMP0.CMP (i : Nat) : RegFld := ⟨TIM_CMP0.reg i, 0, 32⟩
/-- TIM_CMP1[i] (R402). -/
def TIM_CMP1.reg (i : Nat) : Nat := 0x40114 + 0x40 * i
/-- TIM_CMP1.CMP (R402). -/
def TIM_CMP1.CMP (i : Nat) : RegFld := ⟨TIM_CMP1.reg i, 0, 32⟩
/-- TIM_CAP[i] (R402). -/
def TIM_CAP.reg (i : Nat) : Nat := 0x40118 + 0x40 * i
/-- TIM_CAP.CAP (R402). -/
def TIM_CAP.CAP (i : Nat) : RegFld := ⟨TIM_CAP.reg i, 0, 32⟩
/-- TIM_CAP_ATB_LO[i] (R402). -/
def TIM_CAP_ATB_LO.reg (i : Nat) : Nat := 0x4011C + 0x40 * i
/-- TIM_STATUS[i] (R402). -/
def TIM_STATUS.reg (i : Nat) : Nat := 0x40124 + 0x40 * i
/-- TIM_STATUS.WRAP (R402). -/
def TIM_STATUS.WRAP (i : Nat) : RegFld := ⟨TIM_STATUS.reg i, 0, 1⟩
/-- TIM_STATUS.CMP0 (R402). -/
def TIM_STATUS.CMP0 (i : Nat) : RegFld := ⟨TIM_STATUS.reg i, 1, 1⟩
/-- TIM_STATUS.CMP1 (R402). -/
def TIM_STATUS.CMP1 (i : Nat) : RegFld := ⟨TIM_STATUS.reg i, 2, 1⟩
/-- TIM_STATUS.CAPF (R402). -/
def TIM_STATUS.CAPF (i : Nat) : RegFld := ⟨TIM_STATUS.reg i, 3, 1⟩
/-- TIM_STATUS.CAP_OVR (R402). -/
def TIM_STATUS.CAP_OVR (i : Nat) : RegFld := ⟨TIM_STATUS.reg i, 4, 1⟩
/-- TIM_STATUS.PEND (R402). -/
def TIM_STATUS.PEND (i : Nat) : RegFld := ⟨TIM_STATUS.reg i, 5, 1⟩
/-- TIM_EVT[i] (R402). -/
def TIM_EVT.reg (i : Nat) : Nat := 0x40128 + 0x40 * i
/-- TIM_EVT.CAP_CH (R402). -/
def TIM_EVT.CAP_CH (i : Nat) : RegFld := ⟨TIM_EVT.reg i, 0, 7⟩
/-- TIM_EVT.CAP_EN (R402). -/
def TIM_EVT.CAP_EN (i : Nat) : RegFld := ⟨TIM_EVT.reg i, 7, 1⟩
/-- TIM_EVT.WRAP_CH (R402). -/
def TIM_EVT.WRAP_CH (i : Nat) : RegFld := ⟨TIM_EVT.reg i, 8, 7⟩
/-- TIM_EVT.WRAP_EN (R402). -/
def TIM_EVT.WRAP_EN (i : Nat) : RegFld := ⟨TIM_EVT.reg i, 15, 1⟩
/-- TIM_EVT.CMP0_CH (R402). -/
def TIM_EVT.CMP0_CH (i : Nat) : RegFld := ⟨TIM_EVT.reg i, 16, 7⟩
/-- TIM_EVT.CMP0_EN (R402). -/
def TIM_EVT.CMP0_EN (i : Nat) : RegFld := ⟨TIM_EVT.reg i, 23, 1⟩
/-- TIM_EVT.CMP1_CH (R402). -/
def TIM_EVT.CMP1_CH (i : Nat) : RegFld := ⟨TIM_EVT.reg i, 24, 7⟩
/-- TIM_EVT.CMP1_EN (R402). -/
def TIM_EVT.CMP1_EN (i : Nat) : RegFld := ⟨TIM_EVT.reg i, 31, 1⟩
/-- EVR_CTRL (R419). -/
def EVR_CTRL.reg : Nat := 0x50000
/-- EVR_CTRL.LOCK (R419). -/
def EVR_CTRL.LOCK : RegFld := ⟨EVR_CTRL.reg, 31, 1⟩
/-- EVR_EVT_STS (R419). -/
def EVR_EVT_STS.reg : Nat := 0x50010
/-- EVR_FIRE (R419). -/
def EVR_FIRE.reg : Nat := 0x50020
/-- EVR_WATCH[i] (R419). -/
def EVR_WATCH.reg (i : Nat) : Nat := 0x50040 + 0x4 * i
/-- EVR_WATCH_EN[i] (R419). -/
def EVR_WATCH_EN.reg (i : Nat) : Nat := 0x50050 + 0x4 * i
/-- EVR_WATCH_EN.EN (R419). -/
def EVR_WATCH_EN.EN (i : Nat) : RegFld := ⟨EVR_WATCH_EN.reg i, 0, 32⟩
/-- EVR_MERGE[i] (R419). -/
def EVR_MERGE.reg (i : Nat) : Nat := 0x50060 + 0x4 * i
/-- EVR_CNT_CLR (R419). -/
def EVR_CNT_CLR.reg : Nat := 0x500FC
/-- EVR_CH_CFG[i] (R419). -/
def EVR_CH_CFG.reg (i : Nat) : Nat := 0x50100 + 0x4 * i
/-- EVR_CH_CFG.EN (R419). -/
def EVR_CH_CFG.EN (i : Nat) : RegFld := ⟨EVR_CH_CFG.reg i, 0, 1⟩
/-- EVR_CH_CFG.SRC (R419). -/
def EVR_CH_CFG.SRC (i : Nat) : RegFld := ⟨EVR_CH_CFG.reg i, 8, 10⟩
/-- EVR_CH_CFG.SRC_EN (R419). -/
def EVR_CH_CFG.SRC_EN (i : Nat) : RegFld := ⟨EVR_CH_CFG.reg i, 18, 1⟩
/-- EVR_CH_CNT[i] (R419). -/
def EVR_CH_CNT.reg (i : Nat) : Nat := 0x50400 + 0x4 * i
/-- EVR_CH_CNT.COUNT (R419). -/
def EVR_CH_CNT.COUNT (i : Nat) : RegFld := ⟨EVR_CH_CNT.reg i, 0, 32⟩
/-- EVR_GPIO_DIR (R419). -/
def EVR_GPIO_DIR.reg : Nat := 0x58000
/-- EVR_GPIO_DIR.OUT (R419). -/
def EVR_GPIO_DIR.OUT : RegFld := ⟨EVR_GPIO_DIR.reg, 0, 24⟩
/-- EVR_GPIO_OUT (R419). -/
def EVR_GPIO_OUT.reg : Nat := 0x58004
/-- EVR_GPIO_OUT.VAL (R419). -/
def EVR_GPIO_OUT.VAL : RegFld := ⟨EVR_GPIO_OUT.reg, 0, 24⟩
/-- EVR_GPIO_SET (R419). -/
def EVR_GPIO_SET.reg : Nat := 0x58008
/-- EVR_GPIO_CLR (R419). -/
def EVR_GPIO_CLR.reg : Nat := 0x5800C
/-- EVR_GPIO_IN (R419). -/
def EVR_GPIO_IN.reg : Nat := 0x58010
/-- EVR_GPIO_IN.VAL (R419). -/
def EVR_GPIO_IN.VAL : RegFld := ⟨EVR_GPIO_IN.reg, 0, 24⟩
/-- EVR_GPIO_CFG[i] (R419). -/
def EVR_GPIO_CFG.reg (i : Nat) : Nat := 0x58100 + 0x4 * i
/-- EVR_GPIO_CFG.IN_CH (R419). -/
def EVR_GPIO_CFG.IN_CH (i : Nat) : RegFld := ⟨EVR_GPIO_CFG.reg i, 0, 7⟩
/-- EVR_GPIO_CFG.IN_EDGE (R419). -/
def EVR_GPIO_CFG.IN_EDGE (i : Nat) : RegFld := ⟨EVR_GPIO_CFG.reg i, 8, 2⟩
/-- EVR_GPIO_CFG.OUT_CH (R419). -/
def EVR_GPIO_CFG.OUT_CH (i : Nat) : RegFld := ⟨EVR_GPIO_CFG.reg i, 16, 7⟩
/-- EVR_GPIO_CFG.OUT_ACT (R419). -/
def EVR_GPIO_CFG.OUT_ACT (i : Nat) : RegFld := ⟨EVR_GPIO_CFG.reg i, 24, 2⟩
/-- TWA_CTRL (R420). -/
def TWA_CTRL.reg : Nat := 0x60000
/-- TWA_CTRL.EN (R420). -/
def TWA_CTRL.EN : RegFld := ⟨TWA_CTRL.reg, 0, 1⟩
/-- TWA_CTRL.LOCK (R420). -/
def TWA_CTRL.LOCK : RegFld := ⟨TWA_CTRL.reg, 31, 1⟩
/-- TWA_CFG (R420). -/
def TWA_CFG.reg : Nat := 0x60004
/-- TWA_CFG.ADDR (R420). -/
def TWA_CFG.ADDR : RegFld := ⟨TWA_CFG.reg, 0, 7⟩
/-- TWA_CFG.FILT (R420). -/
def TWA_CFG.FILT : RegFld := ⟨TWA_CFG.reg, 8, 4⟩
/-- TWA_STS (R420). -/
def TWA_STS.reg : Nat := 0x6000C
/-- TWA_STS.PTR (R420). -/
def TWA_STS.PTR : RegFld := ⟨TWA_STS.reg, 16, 16⟩
/-- TWA_EVT_STS (R420). -/
def TWA_EVT_STS.reg : Nat := 0x60010
/-- TWA_CNT_XFER (R420). -/
def TWA_CNT_XFER.reg : Nat := 0x60020
/-- TWA_CNT_XFER.COUNT (R420). -/
def TWA_CNT_XFER.COUNT : RegFld := ⟨TWA_CNT_XFER.reg, 0, 32⟩
/-- TWA_CNT_BUSY_NACK (R420). -/
def TWA_CNT_BUSY_NACK.reg : Nat := 0x60024
/-- TWA_CNT_BUSY_NACK.COUNT (R420). -/
def TWA_CNT_BUSY_NACK.COUNT : RegFld := ⟨TWA_CNT_BUSY_NACK.reg, 0, 32⟩
/-- TWA_CNT_TMO (R420). -/
def TWA_CNT_TMO.reg : Nat := 0x60028
/-- TWA_CNT_TMO.COUNT (R420). -/
def TWA_CNT_TMO.COUNT : RegFld := ⟨TWA_CNT_TMO.reg, 0, 32⟩
/-- TWA_CNT_PARTIAL (R420). -/
def TWA_CNT_PARTIAL.reg : Nat := 0x6002C
/-- TWA_CNT_PARTIAL.COUNT (R420). -/
def TWA_CNT_PARTIAL.COUNT : RegFld := ⟨TWA_CNT_PARTIAL.reg, 0, 32⟩
/-- TWA_MBOX[i] (R420). -/
def TWA_MBOX.reg (i : Nat) : Nat := 0x61000 + 0x4 * i
/-- TWB_CTRL (R420). -/
def TWB_CTRL.reg : Nat := 0x68000
/-- TWB_CTRL.EN (R420). -/
def TWB_CTRL.EN : RegFld := ⟨TWB_CTRL.reg, 0, 1⟩
/-- TWB_CTRL.LOCK (R420). -/
def TWB_CTRL.LOCK : RegFld := ⟨TWB_CTRL.reg, 31, 1⟩
/-- TWB_EVT_STS (R420). -/
def TWB_EVT_STS.reg : Nat := 0x68010
/-- TWB_CMD (R420). -/
def TWB_CMD.reg : Nat := 0x68020
/-- TWB_CMD.ADDR (R420). -/
def TWB_CMD.ADDR : RegFld := ⟨TWB_CMD.reg, 0, 7⟩
/-- TWB_CMD.WLEN (R420). -/
def TWB_CMD.WLEN : RegFld := ⟨TWB_CMD.reg, 8, 6⟩
/-- TWB_CMD.RLEN (R420). -/
def TWB_CMD.RLEN : RegFld := ⟨TWB_CMD.reg, 16, 6⟩
/-- TWB_CMD.RETRY (R420). -/
def TWB_CMD.RETRY : RegFld := ⟨TWB_CMD.reg, 24, 3⟩
/-- TWB_CMD.BUSY (R420). -/
def TWB_CMD.BUSY : RegFld := ⟨TWB_CMD.reg, 31, 1⟩
/-- TWB_RES (R420). -/
def TWB_RES.reg : Nat := 0x68028
/-- TWB_RES.STATUS (R420). -/
def TWB_RES.STATUS : RegFld := ⟨TWB_RES.reg, 0, 4⟩
/-- TWB_RES.DONE (R420). -/
def TWB_RES.DONE : RegFld := ⟨TWB_RES.reg, 8, 6⟩
/-- TWB_RES.TRIES (R420). -/
def TWB_RES.TRIES : RegFld := ⟨TWB_RES.reg, 16, 4⟩
/-- TWB_STS (R420). -/
def TWB_STS.reg : Nat := 0x6802C
/-- TWB_STS.STUCK (R420). -/
def TWB_STS.STUCK : RegFld := ⟨TWB_STS.reg, 0, 1⟩
/-- TWB_STS.SCL (R420). -/
def TWB_STS.SCL : RegFld := ⟨TWB_STS.reg, 1, 1⟩
/-- TWB_TX[i] (R420). -/
def TWB_TX.reg (i : Nat) : Nat := 0x68040 + 0x4 * i
/-- TWB_TX.DATA (R420). -/
def TWB_TX.DATA (i : Nat) : RegFld := ⟨TWB_TX.reg i, 0, 32⟩
/-- TWB_RX[i] (R420). -/
def TWB_RX.reg (i : Nat) : Nat := 0x68060 + 0x4 * i
/-- TWB_CNT_OP (R420). -/
def TWB_CNT_OP.reg : Nat := 0x68080
/-- TWB_CNT_OP.COUNT (R420). -/
def TWB_CNT_OP.COUNT : RegFld := ⟨TWB_CNT_OP.reg, 0, 32⟩
/-- TWB_CNT_ERR (R420). -/
def TWB_CNT_ERR.reg : Nat := 0x68084
/-- TWB_CNT_ERR.COUNT (R420). -/
def TWB_CNT_ERR.COUNT : RegFld := ⟨TWB_CNT_ERR.reg, 0, 32⟩
/-- BIAS_CTRL (R420). -/
def BIAS_CTRL.reg : Nat := 0x70000
/-- BIAS_CTRL.LOCK (R420). -/
def BIAS_CTRL.LOCK : RegFld := ⟨BIAS_CTRL.reg, 31, 1⟩
/-- BIAS_STS (R420). -/
def BIAS_STS.reg : Nat := 0x70004
/-- BIAS_EVT_STS (R420). -/
def BIAS_EVT_STS.reg : Nat := 0x70010
/-- BIAS_G_CTRL[i] (R420). -/
def BIAS_G_CTRL.reg (i : Nat) : Nat := 0x70100 + 0x20 * i
/-- BIAS_G_CFG[i] (R420). -/
def BIAS_G_CFG.reg (i : Nat) : Nat := 0x70104 + 0x20 * i
/-- BIAS_G_CFG.RAMP (R420). -/
def BIAS_G_CFG.RAMP (i : Nat) : RegFld := ⟨BIAS_G_CFG.reg i, 0, 10⟩
/-- BIAS_G_CFG.SHUNT_MOHM (R420). -/
def BIAS_G_CFG.SHUNT_MOHM (i : Nat) : RegFld := ⟨BIAS_G_CFG.reg i, 16, 10⟩
/-- BIAS_G_LIM[i] (R420). -/
def BIAS_G_LIM.reg (i : Nat) : Nat := 0x70108 + 0x20 * i
/-- BIAS_G_LIM.TRIP_MA (R420). -/
def BIAS_G_LIM.TRIP_MA (i : Nat) : RegFld := ⟨BIAS_G_LIM.reg i, 0, 12⟩
/-- BIAS_G_LIM.OPEN_MA (R420). -/
def BIAS_G_LIM.OPEN_MA (i : Nat) : RegFld := ⟨BIAS_G_LIM.reg i, 16, 12⟩
/-- BIAS_G_STS[i] (R420). -/
def BIAS_G_STS.reg (i : Nat) : Nat := 0x7010C + 0x20 * i
/-- BIAS_G_STS.STATE (R420). -/
def BIAS_G_STS.STATE (i : Nat) : RegFld := ⟨BIAS_G_STS.reg i, 0, 3⟩
/-- BIAS_G_STS.CAUSE (R420). -/
def BIAS_G_STS.CAUSE (i : Nat) : RegFld := ⟨BIAS_G_STS.reg i, 4, 2⟩
/-- BIAS_G_STS.OPEN (R420). -/
def BIAS_G_STS.OPEN (i : Nat) : RegFld := ⟨BIAS_G_STS.reg i, 8, 1⟩
/-- BIAS_G_STS.HOLDOFF (R420). -/
def BIAS_G_STS.HOLDOFF (i : Nat) : RegFld := ⟨BIAS_G_STS.reg i, 9, 1⟩
/-- BIAS_G_CUR[i] (R420). -/
def BIAS_G_CUR.reg (i : Nat) : Nat := 0x70110 + 0x20 * i
/-- BIAS_G_CUR.MA (R420). -/
def BIAS_G_CUR.MA (i : Nat) : RegFld := ⟨BIAS_G_CUR.reg i, 0, 12⟩
/-- BIAS_G_CNT_TRIP[i] (R420). -/
def BIAS_G_CNT_TRIP.reg (i : Nat) : Nat := 0x70114 + 0x20 * i
/-- BIAS_G_CNT_TRIP.COUNT (R420). -/
def BIAS_G_CNT_TRIP.COUNT (i : Nat) : RegFld := ⟨BIAS_G_CNT_TRIP.reg i, 0, 32⟩
/-- FLC_CTRL (R357). -/
def FLC_CTRL.reg : Nat := 0x80000
/-- FLC_CTRL.LOCK (R357). -/
def FLC_CTRL.LOCK : RegFld := ⟨FLC_CTRL.reg, 31, 1⟩
/-- FLC_STS (R357). -/
def FLC_STS.reg : Nat := 0x80004
/-- FLC_STS.BUSY (R357). -/
def FLC_STS.BUSY : RegFld := ⟨FLC_STS.reg, 0, 1⟩
/-- FLC_STS.BANK_BUSY (R357). -/
def FLC_STS.BANK_BUSY : RegFld := ⟨FLC_STS.reg, 4, 4⟩
/-- FLC_STS.SUSPENDED (R357). -/
def FLC_STS.SUSPENDED : RegFld := ⟨FLC_STS.reg, 8, 1⟩
/-- FLC_STS.WAIT_LEAVE (R357). -/
def FLC_STS.WAIT_LEAVE : RegFld := ⟨FLC_STS.reg, 9, 1⟩
/-- FLC_CFG (R357). -/
def FLC_CFG.reg : Nat := 0x80008
/-- FLC_CFG.WS (R357). -/
def FLC_CFG.WS : RegFld := ⟨FLC_CFG.reg, 0, 2⟩
/-- FLC_CMD (R357). -/
def FLC_CMD.reg : Nat := 0x80020
/-- FLC_CMD.COUNT (R357). -/
def FLC_CMD.COUNT : RegFld := ⟨FLC_CMD.reg, 4, 5⟩
/-- FLC_CMD.BUSY (R357). -/
def FLC_CMD.BUSY : RegFld := ⟨FLC_CMD.reg, 31, 1⟩
/-- FLC_ADDR (R357). -/
def FLC_ADDR.reg : Nat := 0x80024
/-- FLC_ADDR.ADDR (R357). -/
def FLC_ADDR.ADDR : RegFld := ⟨FLC_ADDR.reg, 0, 25⟩
/-- FLC_RES (R357). -/
def FLC_RES.reg : Nat := 0x80028
/-- FLC_RES.STATUS (R357). -/
def FLC_RES.STATUS : RegFld := ⟨FLC_RES.reg, 0, 4⟩
/-- FLC_RES.DONE (R357). -/
def FLC_RES.DONE : RegFld := ⟨FLC_RES.reg, 4, 5⟩
/-- FLC_RES.REMAPPED (R357). -/
def FLC_RES.REMAPPED : RegFld := ⟨FLC_RES.reg, 12, 1⟩
/-- FLC_WIN (R357). -/
def FLC_WIN.reg : Nat := 0x80040
/-- FLC_WIN.SECTOR (R357). -/
def FLC_WIN.SECTOR : RegFld := ⟨FLC_WIN.reg, 0, 13⟩
/-- FLC_RD_STS (R357). -/
def FLC_RD_STS.reg : Nat := 0x80044
/-- FLC_RD_STS.KIND (R357). -/
def FLC_RD_STS.KIND : RegFld := ⟨FLC_RD_STS.reg, 0, 3⟩
/-- FLC_OPEN_CNT (R357). -/
def FLC_OPEN_CNT.reg : Nat := 0x80060
/-- FLC_OPEN_CNT.COUNT (R357). -/
def FLC_OPEN_CNT.COUNT : RegFld := ⟨FLC_OPEN_CNT.reg, 0, 14⟩
/-- FLC_SECT_Q (R357). -/
def FLC_SECT_Q.reg : Nat := 0x80064
/-- FLC_SECT_Q.SECTOR (R357). -/
def FLC_SECT_Q.SECTOR : RegFld := ⟨FLC_SECT_Q.reg, 0, 13⟩
/-- FLC_SECT_INFO (R357). -/
def FLC_SECT_INFO.reg : Nat := 0x80068
/-- FLC_ECC_LOG (R357). -/
def FLC_ECC_LOG.reg : Nat := 0x80080
/-- FLC_ECC_LOG.ADDR (R357). -/
def FLC_ECC_LOG.ADDR : RegFld := ⟨FLC_ECC_LOG.reg, 4, 21⟩
/-- FLC_ECC_LOG.KIND (R357). -/
def FLC_ECC_LOG.KIND : RegFld := ⟨FLC_ECC_LOG.reg, 28, 1⟩
/-- FLC_ECC_LOG.VALID (R357). -/
def FLC_ECC_LOG.VALID : RegFld := ⟨FLC_ECC_LOG.reg, 31, 1⟩
/-- FLC_CNT_ECC_CORR (R357). -/
def FLC_CNT_ECC_CORR.reg : Nat := 0x80084
/-- FLC_CNT_ECC_CORR.COUNT (R357). -/
def FLC_CNT_ECC_CORR.COUNT : RegFld := ⟨FLC_CNT_ECC_CORR.reg, 0, 32⟩
/-- FLC_CNT_ECC_UNCORR (R357). -/
def FLC_CNT_ECC_UNCORR.reg : Nat := 0x80088
/-- FLC_CNT_ECC_UNCORR.COUNT (R357). -/
def FLC_CNT_ECC_UNCORR.COUNT : RegFld := ⟨FLC_CNT_ECC_UNCORR.reg, 0, 32⟩
/-- FLC_SPARE (R357). -/
def FLC_SPARE.reg : Nat := 0x8008C
/-- FLC_SPARE.USED (R357). -/
def FLC_SPARE.USED : RegFld := ⟨FLC_SPARE.reg, 0, 7⟩
/-- FLC_BO_LOG (R357). -/
def FLC_BO_LOG.reg : Nat := 0x80090
/-- FLC_BO_LOG.ADDR (R357). -/
def FLC_BO_LOG.ADDR : RegFld := ⟨FLC_BO_LOG.reg, 0, 25⟩
/-- FLC_BO_LOG.OP (R357). -/
def FLC_BO_LOG.OP : RegFld := ⟨FLC_BO_LOG.reg, 25, 3⟩
/-- FLC_BO_LOG.VALID (R357). -/
def FLC_BO_LOG.VALID : RegFld := ⟨FLC_BO_LOG.reg, 31, 1⟩
/-- FLC_PBUF[i] (R357). -/
def FLC_PBUF.reg (i : Nat) : Nat := 0x80100 + 0x4 * i
/-- FLC_PBUF.DATA (R357). -/
def FLC_PBUF.DATA (i : Nat) : RegFld := ⟨FLC_PBUF.reg i, 0, 32⟩
/-- FLC_OVL[i] (R357). -/
def FLC_OVL.reg (i : Nat) : Nat := 0x80200 + 0x4 * i
/-- FLC_OVL.SECTOR (R357). -/
def FLC_OVL.SECTOR (i : Nat) : RegFld := ⟨FLC_OVL.reg i, 0, 13⟩
/-- FLC_OVL.EN (R357). -/
def FLC_OVL.EN (i : Nat) : RegFld := ⟨FLC_OVL.reg i, 31, 1⟩
/-- FLC_IMG_CTRL (R320). -/
def FLC_IMG_CTRL.reg : Nat := 0x80800
/-- FLC_IMG_CTRL.MODE (R320). -/
def FLC_IMG_CTRL.MODE : RegFld := ⟨FLC_IMG_CTRL.reg, 2, 1⟩
/-- FLC_IMG_CTRL.SRC (R320). -/
def FLC_IMG_CTRL.SRC : RegFld := ⟨FLC_IMG_CTRL.reg, 3, 1⟩
/-- FLC_IMG_CTRL.BUSY (R320). -/
def FLC_IMG_CTRL.BUSY : RegFld := ⟨FLC_IMG_CTRL.reg, 31, 1⟩
/-- FLC_IMG_ADDR (R320). -/
def FLC_IMG_ADDR.reg : Nat := 0x80804
/-- FLC_IMG_ADDR.ADDR (R320). -/
def FLC_IMG_ADDR.ADDR : RegFld := ⟨FLC_IMG_ADDR.reg, 0, 32⟩
/-- FLC_IMG_STS (R320). -/
def FLC_IMG_STS.reg : Nat := 0x80808
/-- FLC_IMG_STS.STATE (R320). -/
def FLC_IMG_STS.STATE : RegFld := ⟨FLC_IMG_STS.reg, 0, 3⟩
/-- FLC_IMG_STS.CODE (R320). -/
def FLC_IMG_STS.CODE : RegFld := ⟨FLC_IMG_STS.reg, 8, 8⟩
/-- FLC_IMG_STS.FAIL_SEC (R320). -/
def FLC_IMG_STS.FAIL_SEC : RegFld := ⟨FLC_IMG_STS.reg, 16, 8⟩
/-- FLC_IMG_FAIL_OFS (R320). -/
def FLC_IMG_FAIL_OFS.reg : Nat := 0x8080C
/-- FLC_IMG_FAIL_OFS.OFFSET (R320). -/
def FLC_IMG_FAIL_OFS.OFFSET : RegFld := ⟨FLC_IMG_FAIL_OFS.reg, 0, 32⟩
/-- FLC_IMG_ACTIVE (R320). -/
def FLC_IMG_ACTIVE.reg : Nat := 0x80810
/-- FLC_IMG_ACTIVE.ADDR (R320). -/
def FLC_IMG_ACTIVE.ADDR : RegFld := ⟨FLC_IMG_ACTIVE.reg, 0, 32⟩
/-- FLC_IMG_SECVER (R320). -/
def FLC_IMG_SECVER.reg : Nat := 0x80814
/-- FLC_IMG_SECVER.SEC_VERSION (R320). -/
def FLC_IMG_SECVER.SEC_VERSION : RegFld := ⟨FLC_IMG_SECVER.reg, 0, 32⟩
/-- FLC_IMG_ID (R320). -/
def FLC_IMG_ID.reg : Nat := 0x80818
/-- FLC_IMG_ID.IMAGE_ID (R320). -/
def FLC_IMG_ID.IMAGE_ID : RegFld := ⟨FLC_IMG_ID.reg, 0, 32⟩
/-- FLC_IMG_LIVE_GEN (R320). -/
def FLC_IMG_LIVE_GEN.reg : Nat := 0x8081C
/-- FLC_IMG_LIVE_GEN.GEN (R320). -/
def FLC_IMG_LIVE_GEN.GEN : RegFld := ⟨FLC_IMG_LIVE_GEN.reg, 0, 16⟩
/-- FLC_IMG_KEYS (R320). -/
def FLC_IMG_KEYS.reg : Nat := 0x80820
/-- FLC_IMG_KEYS.PRESENT (R320). -/
def FLC_IMG_KEYS.PRESENT : RegFld := ⟨FLC_IMG_KEYS.reg, 0, 4⟩
/-- FLC_IMG_KEYS.REVOKED (R320). -/
def FLC_IMG_KEYS.REVOKED : RegFld := ⟨FLC_IMG_KEYS.reg, 4, 4⟩
/-- FLC_IMG_KEYS.ACTIVE_KEY (R320). -/
def FLC_IMG_KEYS.ACTIVE_KEY : RegFld := ⟨FLC_IMG_KEYS.reg, 8, 2⟩
/-- FLC_IMG_DIGEST[i] (R320). -/
def FLC_IMG_DIGEST.reg (i : Nat) : Nat := 0x80830 + 0x4 * i
/-- FLC_IMG_DIGEST.DIGEST (R320). -/
def FLC_IMG_DIGEST.DIGEST (i : Nat) : RegFld := ⟨FLC_IMG_DIGEST.reg i, 0, 32⟩
/-- FLC_LDG_CTRL (R343). -/
def FLC_LDG_CTRL.reg : Nat := 0x80900
/-- FLC_LDG_CTRL.AREA (R343). -/
def FLC_LDG_CTRL.AREA : RegFld := ⟨FLC_LDG_CTRL.reg, 4, 1⟩
/-- FLC_LDG_CTRL.BUSY (R343). -/
def FLC_LDG_CTRL.BUSY : RegFld := ⟨FLC_LDG_CTRL.reg, 31, 1⟩
/-- FLC_LDG_CFG (R343). -/
def FLC_LDG_CFG.reg : Nat := 0x80904
/-- FLC_LDG_CFG.LONG (R343). -/
def FLC_LDG_CFG.LONG : RegFld := ⟨FLC_LDG_CFG.reg, 0, 8⟩
/-- FLC_LDG_CFG.FMT (R343). -/
def FLC_LDG_CFG.FMT : RegFld := ⟨FLC_LDG_CFG.reg, 8, 8⟩
/-- FLC_LDG_MEM (R343). -/
def FLC_LDG_MEM.reg : Nat := 0x80908
/-- FLC_LDG_MEM.OFFSET (R343). -/
def FLC_LDG_MEM.OFFSET : RegFld := ⟨FLC_LDG_MEM.reg, 0, 21⟩
/-- FLC_LDG_LEN (R343). -/
def FLC_LDG_LEN.reg : Nat := 0x8090C
/-- FLC_LDG_LEN.LEN (R343). -/
def FLC_LDG_LEN.LEN : RegFld := ⟨FLC_LDG_LEN.reg, 0, 24⟩
/-- FLC_LDG_STS (R343). -/
def FLC_LDG_STS.reg : Nat := 0x80910
/-- FLC_LDG_STS.STATUS (R343). -/
def FLC_LDG_STS.STATUS : RegFld := ⟨FLC_LDG_STS.reg, 0, 4⟩
/-- FLC_LDG_STS.COPY (R343). -/
def FLC_LDG_STS.COPY : RegFld := ⟨FLC_LDG_STS.reg, 4, 1⟩
/-- FLC_LDG_STS.REPAIRED (R343). -/
def FLC_LDG_STS.REPAIRED : RegFld := ⟨FLC_LDG_STS.reg, 5, 1⟩
/-- FLC_LDG_STS.STALE (R343). -/
def FLC_LDG_STS.STALE : RegFld := ⟨FLC_LDG_STS.reg, 6, 1⟩
/-- FLC_LDG_STS.FMT (R343). -/
def FLC_LDG_STS.FMT : RegFld := ⟨FLC_LDG_STS.reg, 8, 8⟩
/-- FLC_LDG_GEN (R343). -/
def FLC_LDG_GEN.reg : Nat := 0x80914
/-- FLC_LDG_GEN.GEN (R343). -/
def FLC_LDG_GEN.GEN : RegFld := ⟨FLC_LDG_GEN.reg, 0, 32⟩
/-- FLC_GRAFT_CTRL (R343). -/
def FLC_GRAFT_CTRL.reg : Nat := 0x80A00
/-- FLC_GRAFT_CTRL.BUSY (R343). -/
def FLC_GRAFT_CTRL.BUSY : RegFld := ⟨FLC_GRAFT_CTRL.reg, 31, 1⟩
/-- FLC_GRAFT_STS (R343). -/
def FLC_GRAFT_STS.reg : Nat := 0x80A04
/-- FLC_GRAFT_STS.STATE (R343). -/
def FLC_GRAFT_STS.STATE : RegFld := ⟨FLC_GRAFT_STS.reg, 0, 3⟩
/-- FLC_GRAFT_STS.CODE (R343). -/
def FLC_GRAFT_STS.CODE : RegFld := ⟨FLC_GRAFT_STS.reg, 8, 8⟩
/-- FLC_GRAFT_STS.RUN_SLOT (R343). -/
def FLC_GRAFT_STS.RUN_SLOT : RegFld := ⟨FLC_GRAFT_STS.reg, 16, 1⟩
/-- FLC_GRAFT_STS.LAST_GRAFT (R343). -/
def FLC_GRAFT_STS.LAST_GRAFT : RegFld := ⟨FLC_GRAFT_STS.reg, 20, 2⟩
/-- FLC_GRAFT_SECVER (R343). -/
def FLC_GRAFT_SECVER.reg : Nat := 0x80A08
/-- FLC_GRAFT_SECVER.SEC_VERSION (R343). -/
def FLC_GRAFT_SECVER.SEC_VERSION : RegFld := ⟨FLC_GRAFT_SECVER.reg, 0, 32⟩
/-- FLC_FLOOR (R343). -/
def FLC_FLOOR.reg : Nat := 0x80A0C
/-- FLC_FLOOR.FLOOR (R343). -/
def FLC_FLOOR.FLOOR : RegFld := ⟨FLC_FLOOR.reg, 0, 7⟩
/-- FLC_FUSE_CMD (R343). -/
def FLC_FUSE_CMD.reg : Nat := 0x80A10
/-- FLC_FUSE_CMD.INDEX (R343). -/
def FLC_FUSE_CMD.INDEX : RegFld := ⟨FLC_FUSE_CMD.reg, 4, 2⟩
/-- FLC_FUSE_CMD.LIMIT (R343). -/
def FLC_FUSE_CMD.LIMIT : RegFld := ⟨FLC_FUSE_CMD.reg, 8, 3⟩
/-- FLC_FUSE_CMD.STATUS (R343). -/
def FLC_FUSE_CMD.STATUS : RegFld := ⟨FLC_FUSE_CMD.reg, 16, 4⟩
/-- FLC_FUSE_CMD.BUSY (R343). -/
def FLC_FUSE_CMD.BUSY : RegFld := ⟨FLC_FUSE_CMD.reg, 31, 1⟩
/-- FLC_FUSE_DATA[i] (R343). -/
def FLC_FUSE_DATA.reg (i : Nat) : Nat := 0x80A20 + 0x4 * i
/-- FLC_FUSE_DATA.HASH (R343). -/
def FLC_FUSE_DATA.HASH (i : Nat) : RegFld := ⟨FLC_FUSE_DATA.reg i, 0, 32⟩
/-- FLC_GRAFT_EVT_STS (R343). -/
def FLC_GRAFT_EVT_STS.reg : Nat := 0x80A70
/-- CNP_CTRL (R68). -/
def CNP_CTRL.reg : Nat := 0x100000
/-- CNP_CTRL.SEARCH (R68). -/
def CNP_CTRL.SEARCH : RegFld := ⟨CNP_CTRL.reg, 0, 1⟩
/-- CNP_CTRL.LOCK (R68). -/
def CNP_CTRL.LOCK : RegFld := ⟨CNP_CTRL.reg, 31, 1⟩
/-- CNP_STS (R68). -/
def CNP_STS.reg : Nat := 0x100004
/-- CNP_STS.BLIND_SUB (R68). -/
def CNP_STS.BLIND_SUB : RegFld := ⟨CNP_STS.reg, 1, 1⟩
/-- CNP_STS.BLIND_24 (R68). -/
def CNP_STS.BLIND_24 : RegFld := ⟨CNP_STS.reg, 2, 1⟩
/-- CNP_ANT_EN (R68). -/
def CNP_ANT_EN.reg : Nat := 0x100008
/-- CNP_ANT_EN.EN (R68). -/
def CNP_ANT_EN.EN : RegFld := ⟨CNP_ANT_EN.reg, 0, 8⟩
/-- CNP_EVT_STS (R68). -/
def CNP_EVT_STS.reg : Nat := 0x100010
/-- CNP_PLAN_STS (R68). -/
def CNP_PLAN_STS.reg : Nat := 0x100018
/-- CNP_PLAN_STS.POINTS (R68). -/
def CNP_PLAN_STS.POINTS : RegFld := ⟨CNP_PLAN_STS.reg, 0, 12⟩
/-- CNP_PLAN_STS.GRIDS (R68). -/
def CNP_PLAN_STS.GRIDS : RegFld := ⟨CNP_PLAN_STS.reg, 16, 5⟩
/-- CNP_PLAN_STS.PLAN_GEN (R68). -/
def CNP_PLAN_STS.PLAN_GEN : RegFld := ⟨CNP_PLAN_STS.reg, 24, 8⟩
/-- CNP_SLICE_SUB (R68). -/
def CNP_SLICE_SUB.reg : Nat := 0x100020
/-- CNP_SLICE_SUB.CENTRE_KHZ (R68). -/
def CNP_SLICE_SUB.CENTRE_KHZ : RegFld := ⟨CNP_SLICE_SUB.reg, 0, 22⟩
/-- CNP_SLICE_SUB.EN (R68). -/
def CNP_SLICE_SUB.EN : RegFld := ⟨CNP_SLICE_SUB.reg, 31, 1⟩
/-- CNP_SLICE_24 (R68). -/
def CNP_SLICE_24.reg : Nat := 0x100024
/-- CNP_SLICE_24.CENTRE_KHZ (R68). -/
def CNP_SLICE_24.CENTRE_KHZ : RegFld := ⟨CNP_SLICE_24.reg, 0, 22⟩
/-- CNP_SLICE_24.EN (R68). -/
def CNP_SLICE_24.EN : RegFld := ⟨CNP_SLICE_24.reg, 31, 1⟩
/-- CNP_TAINT_SUB (R68). -/
def CNP_TAINT_SUB.reg : Nat := 0x100028
/-- CNP_TAINT_SUB.D (R68). -/
def CNP_TAINT_SUB.D : RegFld := ⟨CNP_TAINT_SUB.reg, 0, 16⟩
/-- CNP_TAINT_SUB.CLEAN (R68). -/
def CNP_TAINT_SUB.CLEAN : RegFld := ⟨CNP_TAINT_SUB.reg, 16, 16⟩
/-- CNP_TAINT_24 (R68). -/
def CNP_TAINT_24.reg : Nat := 0x10002C
/-- CNP_TAINT_24.D (R68). -/
def CNP_TAINT_24.D : RegFld := ⟨CNP_TAINT_24.reg, 0, 16⟩
/-- CNP_TAINT_24.CLEAN (R68). -/
def CNP_TAINT_24.CLEAN : RegFld := ⟨CNP_TAINT_24.reg, 16, 16⟩
/-- CNP_OVR_STS (R68). -/
def CNP_OVR_STS.reg : Nat := 0x100030
/-- CNP_OVR_STS.OVR (R68). -/
def CNP_OVR_STS.OVR : RegFld := ⟨CNP_OVR_STS.reg, 0, 8⟩
/-- CNP_TAINT_NOW (R68). -/
def CNP_TAINT_NOW.reg : Nat := 0x100034
/-- CNP_TAINT_NOW.SUB (R68). -/
def CNP_TAINT_NOW.SUB : RegFld := ⟨CNP_TAINT_NOW.reg, 0, 8⟩
/-- CNP_TAINT_NOW.B24 (R68). -/
def CNP_TAINT_NOW.B24 : RegFld := ⟨CNP_TAINT_NOW.reg, 8, 8⟩
/-- CNP_ATTMAX_STS (R68). -/
def CNP_ATTMAX_STS.reg : Nat := 0x100038
/-- CNP_ATTMAX_STS.AT_MAX (R68). -/
def CNP_ATTMAX_STS.AT_MAX : RegFld := ⟨CNP_ATTMAX_STS.reg, 0, 8⟩
/-- CNP_GAIN_CFG (R68). -/
def CNP_GAIN_CFG.reg : Nat := 0x100040
/-- CNP_GAIN_CFG.HI (R68). -/
def CNP_GAIN_CFG.HI : RegFld := ⟨CNP_GAIN_CFG.reg, 0, 8⟩
/-- CNP_GAIN_CFG.LO (R68). -/
def CNP_GAIN_CFG.LO : RegFld := ⟨CNP_GAIN_CFG.reg, 8, 8⟩
/-- CNP_GAIN_CFG.FORCE_STEP (R68). -/
def CNP_GAIN_CFG.FORCE_STEP : RegFld := ⟨CNP_GAIN_CFG.reg, 16, 4⟩
/-- CNP_KADJ0 (R68). -/
def CNP_KADJ0.reg : Nat := 0x100044
/-- CNP_KADJ1 (R68). -/
def CNP_KADJ1.reg : Nat := 0x100048
/-- CNP_DET_CNT (R68). -/
def CNP_DET_CNT.reg : Nat := 0x100060
/-- CNP_DET_CNT.COUNT (R68). -/
def CNP_DET_CNT.COUNT : RegFld := ⟨CNP_DET_CNT.reg, 0, 32⟩
/-- CNP_PAIR_CNT (R68). -/
def CNP_PAIR_CNT.reg : Nat := 0x100064
/-- CNP_PAIR_CNT.COUNT (R68). -/
def CNP_PAIR_CNT.COUNT : RegFld := ⟨CNP_PAIR_CNT.reg, 0, 32⟩
/-- CNP_SUPPR_CNT (R68). -/
def CNP_SUPPR_CNT.reg : Nat := 0x100068
/-- CNP_SUPPR_CNT.COUNT (R68). -/
def CNP_SUPPR_CNT.COUNT : RegFld := ⟨CNP_SUPPR_CNT.reg, 0, 32⟩
/-- CNP_CAPT_CNT (R68). -/
def CNP_CAPT_CNT.reg : Nat := 0x10006C
/-- CNP_CAPT_CNT.COUNT (R68). -/
def CNP_CAPT_CNT.COUNT : RegFld := ⟨CNP_CAPT_CNT.reg, 0, 32⟩
/-- CNP_BLIND_CNT (R68). -/
def CNP_BLIND_CNT.reg : Nat := 0x100070
/-- CNP_BLIND_CNT.SUB (R68). -/
def CNP_BLIND_CNT.SUB : RegFld := ⟨CNP_BLIND_CNT.reg, 0, 16⟩
/-- CNP_BLIND_CNT.B24 (R68). -/
def CNP_BLIND_CNT.B24 : RegFld := ⟨CNP_BLIND_CNT.reg, 16, 16⟩
/-- CNP_CNT_CLR (R68). -/
def CNP_CNT_CLR.reg : Nat := 0x100074
/-- CNP_GRID_BASE[i] (R68). -/
def CNP_GRID_BASE.reg (i : Nat) : Nat := 0x100100 + 0x10 * i
/-- CNP_GRID_BASE.BASE_KHZ (R68). -/
def CNP_GRID_BASE.BASE_KHZ (i : Nat) : RegFld := ⟨CNP_GRID_BASE.reg i, 0, 22⟩
/-- CNP_GRID_BASE.EN (R68). -/
def CNP_GRID_BASE.EN (i : Nat) : RegFld := ⟨CNP_GRID_BASE.reg i, 30, 1⟩
/-- CNP_GRID_BASE.SLICE (R68). -/
def CNP_GRID_BASE.SLICE (i : Nat) : RegFld := ⟨CNP_GRID_BASE.reg i, 31, 1⟩
/-- CNP_GRID_GEOM[i] (R68). -/
def CNP_GRID_GEOM.reg (i : Nat) : Nat := 0x100104 + 0x10 * i
/-- CNP_GRID_GEOM.COUNT (R68). -/
def CNP_GRID_GEOM.COUNT (i : Nat) : RegFld := ⟨CNP_GRID_GEOM.reg i, 0, 9⟩
/-- CNP_GRID_GEOM.SPACING (R68). -/
def CNP_GRID_GEOM.SPACING (i : Nat) : RegFld := ⟨CNP_GRID_GEOM.reg i, 12, 2⟩
/-- CNP_GRID_GEOM.FIRST_CHAN (R68). -/
def CNP_GRID_GEOM.FIRST_CHAN (i : Nat) : RegFld := ⟨CNP_GRID_GEOM.reg i, 16, 8⟩
/-- CNP_GRID_GEOM.RATES (R68). -/
def CNP_GRID_GEOM.RATES (i : Nat) : RegFld := ⟨CNP_GRID_GEOM.reg i, 24, 8⟩
/-- CNP_THR[i] (R68). -/
def CNP_THR.reg (i : Nat) : Nat := 0x100200 + 0x4 * i
/-- CNP_THR.THR (R68). -/
def CNP_THR.THR (i : Nat) : RegFld := ⟨CNP_THR.reg i, 0, 8⟩
/-- CNP_THR.CAPTURE (R68). -/
def CNP_THR.CAPTURE (i : Nat) : RegFld := ⟨CNP_THR.reg i, 8, 8⟩
/-- CNP_THR.HOLDOFF (R68). -/
def CNP_THR.HOLDOFF (i : Nat) : RegFld := ⟨CNP_THR.reg i, 16, 16⟩
/-- CNP_ATT[i] (R68). -/
def CNP_ATT.reg (i : Nat) : Nat := 0x100400 + 0x20 * i
/-- CNP_ATT.ATT (R68). -/
def CNP_ATT.ATT (i : Nat) : RegFld := ⟨CNP_ATT.reg i, 0, 5⟩
/-- CNP_ATT.MODE (R68). -/
def CNP_ATT.MODE (i : Nat) : RegFld := ⟨CNP_ATT.reg i, 8, 2⟩
/-- CNP_ATT.MAN_ATT (R68). -/
def CNP_ATT.MAN_ATT (i : Nat) : RegFld := ⟨CNP_ATT.reg i, 16, 5⟩
/-- CNP_ATT_LIM[i] (R68). -/
def CNP_ATT_LIM.reg (i : Nat) : Nat := 0x100404 + 0x20 * i
/-- CNP_ATT_LIM.MIN (R68). -/
def CNP_ATT_LIM.MIN (i : Nat) : RegFld := ⟨CNP_ATT_LIM.reg i, 0, 5⟩
/-- CNP_ATT_LIM.MAX (R68). -/
def CNP_ATT_LIM.MAX (i : Nat) : RegFld := ⟨CNP_ATT_LIM.reg i, 8, 5⟩
/-- CNP_DLY[i] (R68). -/
def CNP_DLY.reg (i : Nat) : Nat := 0x100408 + 0x20 * i
/-- CNP_DLY.DELAY (R68). -/
def CNP_DLY.DELAY (i : Nat) : RegFld := ⟨CNP_DLY.reg i, 0, 16⟩
/-- CNP_PWR[i] (R68). -/
def CNP_PWR.reg (i : Nat) : Nat := 0x10040C + 0x20 * i
/-- CNP_PWR.MEAN (R68). -/
def CNP_PWR.MEAN (i : Nat) : RegFld := ⟨CNP_PWR.reg i, 0, 16⟩
/-- CNP_PWR.PEAK (R68). -/
def CNP_PWR.PEAK (i : Nat) : RegFld := ⟨CNP_PWR.reg i, 16, 16⟩
/-- CNP_OVR_CNT[i] (R68). -/
def CNP_OVR_CNT.reg (i : Nat) : Nat := 0x100410 + 0x20 * i
/-- CNP_OVR_CNT.COUNT (R68). -/
def CNP_OVR_CNT.COUNT (i : Nat) : RegFld := ⟨CNP_OVR_CNT.reg i, 0, 32⟩
/-- CNP_OVR_SMP[i] (R68). -/
def CNP_OVR_SMP.reg (i : Nat) : Nat := 0x100414 + 0x20 * i
/-- CNP_OVR_SMP.COUNT (R68). -/
def CNP_OVR_SMP.COUNT (i : Nat) : RegFld := ⟨CNP_OVR_SMP.reg i, 0, 32⟩
/-- CNP_FORCE_CNT[i] (R68). -/
def CNP_FORCE_CNT.reg (i : Nat) : Nat := 0x100418 + 0x20 * i
/-- CNP_FORCE_CNT.COUNT (R68). -/
def CNP_FORCE_CNT.COUNT (i : Nat) : RegFld := ⟨CNP_FORCE_CNT.reg i, 0, 32⟩
/-- CNP_CAP_CTRL (R68). -/
def CNP_CAP_CTRL.reg : Nat := 0x100800
/-- CNP_CAP_CFG (R68). -/
def CNP_CAP_CFG.reg : Nat := 0x100804
/-- CNP_CAP_CFG.SOURCE (R68). -/
def CNP_CAP_CFG.SOURCE : RegFld := ⟨CNP_CAP_CFG.reg, 0, 2⟩
/-- CNP_CAP_CFG.TRIG (R68). -/
def CNP_CAP_CFG.TRIG : RegFld := ⟨CNP_CAP_CFG.reg, 4, 3⟩
/-- CNP_CAP_CFG.ANT_MASK (R68). -/
def CNP_CAP_CFG.ANT_MASK : RegFld := ⟨CNP_CAP_CFG.reg, 8, 8⟩
/-- CNP_CAP_CFG.SLICE (R68). -/
def CNP_CAP_CFG.SLICE : RegFld := ⟨CNP_CAP_CFG.reg, 16, 1⟩
/-- CNP_CAP_CFG.GRID (R68). -/
def CNP_CAP_CFG.GRID : RegFld := ⟨CNP_CAP_CFG.reg, 20, 4⟩
/-- CNP_CAP_CFG.CHAN (R68). -/
def CNP_CAP_CFG.CHAN : RegFld := ⟨CNP_CAP_CFG.reg, 24, 8⟩
/-- CNP_CAP_POS (R68). -/
def CNP_CAP_POS.reg : Nat := 0x100808
/-- CNP_CAP_POS.PRE (R68). -/
def CNP_CAP_POS.PRE : RegFld := ⟨CNP_CAP_POS.reg, 0, 4⟩
/-- CNP_CAP_EVT (R68). -/
def CNP_CAP_EVT.reg : Nat := 0x10080C
/-- CNP_CAP_EVT.CHANNEL (R68). -/
def CNP_CAP_EVT.CHANNEL : RegFld := ⟨CNP_CAP_EVT.reg, 0, 7⟩
/-- CNP_CAP_TRIG_ATB_LO (R68). -/
def CNP_CAP_TRIG_ATB_LO.reg : Nat := 0x100810
/-- CNP_CAP_TRIG_ATB_HI (R68). -/
def CNP_CAP_TRIG_ATB_HI.reg : Nat := 0x100814
/-- CNP_CAP_STS (R68). -/
def CNP_CAP_STS.reg : Nat := 0x100818
/-- CNP_CAP_STS.STATE (R68). -/
def CNP_CAP_STS.STATE : RegFld := ⟨CNP_CAP_STS.reg, 0, 3⟩
/-- CNP_CAP_STS.LATE (R68). -/
def CNP_CAP_STS.LATE : RegFld := ⟨CNP_CAP_STS.reg, 4, 1⟩
/-- CNP_CAP_STS.CAUSE (R68). -/
def CNP_CAP_STS.CAUSE : RegFld := ⟨CNP_CAP_STS.reg, 8, 4⟩
/-- CNP_CAP_TRIG_IDX (R68). -/
def CNP_CAP_TRIG_IDX.reg : Nat := 0x10081C
/-- CNP_CAP_TRIG_IDX.IDX (R68). -/
def CNP_CAP_TRIG_IDX.IDX : RegFld := ⟨CNP_CAP_TRIG_IDX.reg, 0, 17⟩
/-- CNP_CAP_FIRST (R68). -/
def CNP_CAP_FIRST.reg : Nat := 0x100820
/-- CNP_CAP_FIRST.IDX (R68). -/
def CNP_CAP_FIRST.IDX : RegFld := ⟨CNP_CAP_FIRST.reg, 0, 17⟩
/-- CNP_CAP_ATB_LO (R68). -/
def CNP_CAP_ATB_LO.reg : Nat := 0x100824
/-- CNP_CAP_ATB_HI (R68). -/
def CNP_CAP_ATB_HI.reg : Nat := 0x100828
/-- CNP_CAP_PT (R68). -/
def CNP_CAP_PT.reg : Nat := 0x10082C
/-- CNP_CAP_PT.POINT (R68). -/
def CNP_CAP_PT.POINT : RegFld := ⟨CNP_CAP_PT.reg, 0, 11⟩
/-- CNP_POINT[i] (R68). -/
def CNP_POINT.reg (i : Nat) : Nat := 0x110000 + 0x4 * i
/-- CNP_POINT.CHAN (R68). -/
def CNP_POINT.CHAN (i : Nat) : RegFld := ⟨CNP_POINT.reg i, 0, 8⟩
/-- CNP_POINT.GRID (R68). -/
def CNP_POINT.GRID (i : Nat) : RegFld := ⟨CNP_POINT.reg i, 8, 4⟩
/-- CNP_POINT.RATE (R68). -/
def CNP_POINT.RATE (i : Nat) : RegFld := ⟨CNP_POINT.reg i, 12, 4⟩
/-- CNP_POINT.OFFSET (R68). -/
def CNP_POINT.OFFSET (i : Nat) : RegFld := ⟨CNP_POINT.reg i, 16, 7⟩
/-- CNP_POINT.THR_CLASS (R68). -/
def CNP_POINT.THR_CLASS (i : Nat) : RegFld := ⟨CNP_POINT.reg i, 24, 3⟩
/-- CNP_POINT.EN (R68). -/
def CNP_POINT.EN (i : Nat) : RegFld := ⟨CNP_POINT.reg i, 31, 1⟩
/-- CNP_PT_STS[i] (R68). -/
def CNP_PT_STS.reg (i : Nat) : Nat := 0x112000 + 0x4 * i
/-- CNP_PT_STS.NOISE (R68). -/
def CNP_PT_STS.NOISE (i : Nat) : RegFld := ⟨CNP_PT_STS.reg i, 0, 16⟩
/-- CNP_PT_STS.LAST_SCORE (R68). -/
def CNP_PT_STS.LAST_SCORE (i : Nat) : RegFld := ⟨CNP_PT_STS.reg i, 16, 8⟩
/-- CNP_PT_DET[i] (R68). -/
def CNP_PT_DET.reg (i : Nat) : Nat := 0x114000 + 0x4 * i
/-- CNP_PT_DET.COUNT (R68). -/
def CNP_PT_DET.COUNT (i : Nat) : RegFld := ⟨CNP_PT_DET.reg i, 0, 32⟩
/-- CNP_CAP_MEM[i] (R68). -/
def CNP_CAP_MEM.reg (i : Nat) : Nat := 0x180000 + 0x4 * i
/-- LNE_CTRL (R98). -/
def LNE_CTRL.reg : Nat := 0x200000
/-- LNE_CTRL.ACCEPT (R98). -/
def LNE_CTRL.ACCEPT : RegFld := ⟨LNE_CTRL.reg, 0, 1⟩
/-- LNE_CTRL.SHED_EN (R98). -/
def LNE_CTRL.SHED_EN : RegFld := ⟨LNE_CTRL.reg, 1, 1⟩
/-- LNE_CTRL.FCS_BAD_DLV (R98). -/
def LNE_CTRL.FCS_BAD_DLV : RegFld := ⟨LNE_CTRL.reg, 2, 1⟩
/-- LNE_CTRL.LOCK (R98). -/
def LNE_CTRL.LOCK : RegFld := ⟨LNE_CTRL.reg, 31, 1⟩
/-- LNE_POOL_CTRL (R98). -/
def LNE_POOL_CTRL.reg : Nat := 0x200004
/-- LNE_POOL_CTRL.LOW_WM (R98). -/
def LNE_POOL_CTRL.LOW_WM : RegFld := ⟨LNE_POOL_CTRL.reg, 0, 10⟩
/-- LNE_POOL_STS (R98). -/
def LNE_POOL_STS.reg : Nat := 0x200008
/-- LNE_POOL_STS.FREE (R98). -/
def LNE_POOL_STS.FREE : RegFld := ⟨LNE_POOL_STS.reg, 0, 10⟩
/-- LNE_POOL_STS.UNATTR (R98). -/
def LNE_POOL_STS.UNATTR : RegFld := ⟨LNE_POOL_STS.reg, 16, 10⟩
/-- LNE_POOL_MIN (R98). -/
def LNE_POOL_MIN.reg : Nat := 0x20000C
/-- LNE_POOL_MIN.MIN_FREE (R98). -/
def LNE_POOL_MIN.MIN_FREE : RegFld := ⟨LNE_POOL_MIN.reg, 0, 10⟩
/-- LNE_EVT_STS (R98). -/
def LNE_EVT_STS.reg : Nat := 0x200010
/-- LNE_CNT_GRANT (R98). -/
def LNE_CNT_GRANT.reg : Nat := 0x200020
/-- LNE_CNT_GRANT.COUNT (R98). -/
def LNE_CNT_GRANT.COUNT : RegFld := ⟨LNE_CNT_GRANT.reg, 0, 32⟩
/-- LNE_CNT_EXHAUST (R98). -/
def LNE_CNT_EXHAUST.reg : Nat := 0x200024
/-- LNE_CNT_EXHAUST.COUNT (R98). -/
def LNE_CNT_EXHAUST.COUNT : RegFld := ⟨LNE_CNT_EXHAUST.reg, 0, 32⟩
/-- LNE_CNT_REFUSED (R98). -/
def LNE_CNT_REFUSED.reg : Nat := 0x200028
/-- LNE_CNT_REFUSED.COUNT (R98). -/
def LNE_CNT_REFUSED.COUNT : RegFld := ⟨LNE_CNT_REFUSED.reg, 0, 32⟩
/-- LNE_CNT_PAIRLOSS (R98). -/
def LNE_CNT_PAIRLOSS.reg : Nat := 0x20002C
/-- LNE_CNT_PAIRLOSS.COUNT (R98). -/
def LNE_CNT_PAIRLOSS.COUNT : RegFld := ⟨LNE_CNT_PAIRLOSS.reg, 0, 32⟩
/-- LNE_CNT_SFDTO (R98). -/
def LNE_CNT_SFDTO.reg : Nat := 0x200030
/-- LNE_CNT_SFDTO.COUNT (R98). -/
def LNE_CNT_SFDTO.COUNT : RegFld := ⟨LNE_CNT_SFDTO.reg, 0, 32⟩
/-- LNE_CNT_HDRFAIL (R98). -/
def LNE_CNT_HDRFAIL.reg : Nat := 0x200034
/-- LNE_CNT_HDRFAIL.COUNT (R98). -/
def LNE_CNT_HDRFAIL.COUNT : RegFld := ⟨LNE_CNT_HDRFAIL.reg, 0, 32⟩
/-- LNE_CNT_FCSFAIL (R98). -/
def LNE_CNT_FCSFAIL.reg : Nat := 0x200038
/-- LNE_CNT_FCSFAIL.COUNT (R98). -/
def LNE_CNT_FCSFAIL.COUNT : RegFld := ⟨LNE_CNT_FCSFAIL.reg, 0, 32⟩
/-- LNE_CNT_HANDED (R98). -/
def LNE_CNT_HANDED.reg : Nat := 0x20003C
/-- LNE_CNT_HANDED.COUNT (R98). -/
def LNE_CNT_HANDED.COUNT : RegFld := ⟨LNE_CNT_HANDED.reg, 0, 32⟩
/-- LNE_CNT_DLVDROP_SH (R98). -/
def LNE_CNT_DLVDROP_SH.reg : Nat := 0x200040
/-- LNE_CNT_DLVDROP_SH.COUNT (R98). -/
def LNE_CNT_DLVDROP_SH.COUNT : RegFld := ⟨LNE_CNT_DLVDROP_SH.reg, 0, 32⟩
/-- LNE_FLT_CNT[i] (R98). -/
def LNE_FLT_CNT.reg (i : Nat) : Nat := 0x200084 + 0x4 * i
/-- LNE_FLT_CNT.COUNT (R98). -/
def LNE_FLT_CNT.COUNT (i : Nat) : RegFld := ⟨LNE_FLT_CNT.reg i, 0, 32⟩
/-- LNE_CNT_CLR (R98). -/
def LNE_CNT_CLR.reg : Nat := 0x2000FC
/-- LNE_RATE_LAT[i] (R98). -/
def LNE_RATE_LAT.reg (i : Nat) : Nat := 0x200100 + 0x8 * i
/-- LNE_RATE_LAT.LAT (R98). -/
def LNE_RATE_LAT.LAT (i : Nat) : RegFld := ⟨LNE_RATE_LAT.reg i, 0, 24⟩
/-- LNE_RATE_SFDTO[i] (R98). -/
def LNE_RATE_SFDTO.reg (i : Nat) : Nat := 0x200104 + 0x8 * i
/-- LNE_RATE_SFDTO.SFD_TO (R98). -/
def LNE_RATE_SFDTO.SFD_TO (i : Nat) : RegFld := ⟨LNE_RATE_SFDTO.reg i, 0, 24⟩
/-- LNE_FSK_CFG[i] (R98). -/
def LNE_FSK_CFG.reg (i : Nat) : Nat := 0x200200 + 0x4 * i
/-- LNE_FSK_CFG.FEC_SCHEME (R98). -/
def LNE_FSK_CFG.FEC_SCHEME (i : Nat) : RegFld := ⟨LNE_FSK_CFG.reg i, 1, 1⟩
/-- LNE_FSK_CFG.INTERLEAVE (R98). -/
def LNE_FSK_CFG.INTERLEAVE (i : Nat) : RegFld := ⟨LNE_FSK_CFG.reg i, 2, 1⟩
/-- LNE_PLIM[i] (R98). -/
def LNE_PLIM.reg (i : Nat) : Nat := 0x200400 + 0x4 * i
/-- LNE_PSTS[i] (R98). -/
def LNE_PSTS.reg (i : Nat) : Nat := 0x200500 + 0x4 * i
/-- LNE_PSTS.IN_USE (R98). -/
def LNE_PSTS.IN_USE (i : Nat) : RegFld := ⟨LNE_PSTS.reg i, 0, 10⟩
/-- LNE_PSTS.PEAK (R98). -/
def LNE_PSTS.PEAK (i : Nat) : RegFld := ⟨LNE_PSTS.reg i, 16, 10⟩
/-- LNE_PCNT[i, j] (R98). -/
def LNE_PCNT.reg (i : Nat) (j : Nat) : Nat := 0x201000 + 0x20 * i + 0x4 * j
/-- LNE_PCNT.COUNT (R98). -/
def LNE_PCNT.COUNT (i : Nat) (j : Nat) : RegFld := ⟨LNE_PCNT.reg i j, 0, 32⟩
/-- LNE_LANE_STS[i] (R98). -/
def LNE_LANE_STS.reg (i : Nat) : Nat := 0x204000 + 0x4 * i
/-- LNE_LANE_STS.STATE (R98). -/
def LNE_LANE_STS.STATE (i : Nat) : RegFld := ⟨LNE_LANE_STS.reg i, 0, 3⟩
/-- LNE_LANE_STS.RATE (R98). -/
def LNE_LANE_STS.RATE (i : Nat) : RegFld := ⟨LNE_LANE_STS.reg i, 4, 4⟩
/-- LNE_LANE_STS.PART (R98). -/
def LNE_LANE_STS.PART (i : Nat) : RegFld := ⟨LNE_LANE_STS.reg i, 8, 6⟩
/-- LNE_LANE_STS.ATTRIB (R98). -/
def LNE_LANE_STS.ATTRIB (i : Nat) : RegFld := ⟨LNE_LANE_STS.reg i, 14, 1⟩
/-- LNE_LANE_STS.PAIRED (R98). -/
def LNE_LANE_STS.PAIRED (i : Nat) : RegFld := ⟨LNE_LANE_STS.reg i, 15, 1⟩
/-- LNE_LANE_STS.LAST_CAUSE (R98). -/
def LNE_LANE_STS.LAST_CAUSE (i : Nat) : RegFld := ⟨LNE_LANE_STS.reg i, 24, 4⟩
/-- TXC_CTRL (R134). -/
def TXC_CTRL.reg : Nat := 0x300000
/-- TXC_CTRL.ENABLE (R134). -/
def TXC_CTRL.ENABLE : RegFld := ⟨TXC_CTRL.reg, 0, 1⟩
/-- TXC_CTRL.LOCK (R134). -/
def TXC_CTRL.LOCK : RegFld := ⟨TXC_CTRL.reg, 31, 1⟩
/-- TXC_STS (R134). -/
def TXC_STS.reg : Nat := 0x300004
/-- TXC_EVT_STS (R134). -/
def TXC_EVT_STS.reg : Nat := 0x300010
/-- TXC_HORIZON (R134). -/
def TXC_HORIZON.reg : Nat := 0x300018
/-- TXC_HORIZON.TICKS (R134). -/
def TXC_HORIZON.TICKS : RegFld := ⟨TXC_HORIZON.reg, 0, 23⟩
/-- TXC_STAGE_STS (R134). -/
def TXC_STAGE_STS.reg : Nat := 0x30001C
/-- TXC_CNT_COMMIT (R134). -/
def TXC_CNT_COMMIT.reg : Nat := 0x300040
/-- TXC_CNT_COMMIT.COUNT (R134). -/
def TXC_CNT_COMMIT.COUNT : RegFld := ⟨TXC_CNT_COMMIT.reg, 0, 32⟩
/-- TXC_CNT_FAULT (R134). -/
def TXC_CNT_FAULT.reg : Nat := 0x300044
/-- TXC_CNT_FAULT.COUNT (R134). -/
def TXC_CNT_FAULT.COUNT : RegFld := ⟨TXC_CNT_FAULT.reg, 0, 32⟩
/-- TXC_CNT_BURN (R134). -/
def TXC_CNT_BURN.reg : Nat := 0x300048
/-- TXC_CNT_BURN.COUNT (R134). -/
def TXC_CNT_BURN.COUNT : RegFld := ⟨TXC_CNT_BURN.reg, 0, 32⟩
/-- TXC_CNT_ACK (R134). -/
def TXC_CNT_ACK.reg : Nat := 0x30004C
/-- TXC_CNT_ACK.COUNT (R134). -/
def TXC_CNT_ACK.COUNT : RegFld := ⟨TXC_CNT_ACK.reg, 0, 32⟩
/-- TXC_MISS_CNT[i] (R134). -/
def TXC_MISS_CNT.reg (i : Nat) : Nat := 0x300080 + 0x4 * i
/-- TXC_MISS_CNT.COUNT (R134). -/
def TXC_MISS_CNT.COUNT (i : Nat) : RegFld := ⟨TXC_MISS_CNT.reg i, 0, 32⟩
/-- TXC_SQ_CNT[i] (R134). -/
def TXC_SQ_CNT.reg (i : Nat) : Nat := 0x3000C0 + 0x4 * i
/-- TXC_SQ_CNT.COUNT (R134). -/
def TXC_SQ_CNT.COUNT (i : Nat) : RegFld := ⟨TXC_SQ_CNT.reg i, 0, 32⟩
/-- TXC_CNT_CLR (R134). -/
def TXC_CNT_CLR.reg : Nat := 0x3000FC
/-- TXC_CORR_BASE[i] (R134). -/
def TXC_CORR_BASE.reg (i : Nat) : Nat := 0x300100 + 0x4 * i
/-- TXC_CORR_BASE.BASE (R134). -/
def TXC_CORR_BASE.BASE (i : Nat) : RegFld := ⟨TXC_CORR_BASE.reg i, 0, 9⟩
/-- TXC_CORR_BASE.EN (R134). -/
def TXC_CORR_BASE.EN (i : Nat) : RegFld := ⟨TXC_CORR_BASE.reg i, 31, 1⟩
/-- TXC_CORR_CMD (R134). -/
def TXC_CORR_CMD.reg : Nat := 0x300200
/-- TXC_CORR_CMD.INDEX (R134). -/
def TXC_CORR_CMD.INDEX : RegFld := ⟨TXC_CORR_CMD.reg, 0, 9⟩
/-- TXC_CORR_CMD.CHAIN (R134). -/
def TXC_CORR_CMD.CHAIN : RegFld := ⟨TXC_CORR_CMD.reg, 12, 3⟩
/-- TXC_CORR_DATA[i] (R134). -/
def TXC_CORR_DATA.reg (i : Nat) : Nat := 0x300280 + 0x4 * i
/-- TXC_PHY[i] (R134). -/
def TXC_PHY.reg (i : Nat) : Nat := 0x300300 + 0x4 * i
/-- TXC_PHY.PRE (R134). -/
def TXC_PHY.PRE (i : Nat) : RegFld := ⟨TXC_PHY.reg i, 0, 10⟩
/-- TXC_PHY.CODED (R134). -/
def TXC_PHY.CODED (i : Nat) : RegFld := ⟨TXC_PHY.reg i, 16, 1⟩
/-- TXC_PHY.WHITEN (R134). -/
def TXC_PHY.WHITEN (i : Nat) : RegFld := ⟨TXC_PHY.reg i, 17, 1⟩
/-- TXC_PHY.FCS4 (R134). -/
def TXC_PHY.FCS4 (i : Nat) : RegFld := ⟨TXC_PHY.reg i, 18, 1⟩
/-- TXC_RAMP_T[i] (R134). -/
def TXC_RAMP_T.reg (i : Nat) : Nat := 0x300800 + 0x100 * i
/-- TXC_RAMP_T.T_UP (R134). -/
def TXC_RAMP_T.T_UP (i : Nat) : RegFld := ⟨TXC_RAMP_T.reg i, 0, 11⟩
/-- TXC_RAMP_T.T_DOWN (R134). -/
def TXC_RAMP_T.T_DOWN (i : Nat) : RegFld := ⟨TXC_RAMP_T.reg i, 16, 11⟩
/-- TXC_RAMP_PA[i] (R134). -/
def TXC_RAMP_PA.reg (i : Nat) : Nat := 0x300804 + 0x100 * i
/-- TXC_RAMP_PA.PA_EN_LEAD (R134). -/
def TXC_RAMP_PA.PA_EN_LEAD (i : Nat) : RegFld := ⟨TXC_RAMP_PA.reg i, 0, 11⟩
/-- TXC_RAMP_PA.PA_EN_LAG (R134). -/
def TXC_RAMP_PA.PA_EN_LAG (i : Nat) : RegFld := ⟨TXC_RAMP_PA.reg i, 16, 8⟩
/-- TXC_CH_CTRL[i] (R134). -/
def TXC_CH_CTRL.reg (i : Nat) : Nat := 0x302000 + 0x40 * i
/-- TXC_CH_CTRL.EN (R134). -/
def TXC_CH_CTRL.EN (i : Nat) : RegFld := ⟨TXC_CH_CTRL.reg i, 0, 1⟩
/-- TXC_CH_CTRL.FEVT_EN (R134). -/
def TXC_CH_CTRL.FEVT_EN (i : Nat) : RegFld := ⟨TXC_CH_CTRL.reg i, 3, 1⟩
/-- TXC_CH_CTRL.FEVT_CH (R134). -/
def TXC_CH_CTRL.FEVT_CH (i : Nat) : RegFld := ⟨TXC_CH_CTRL.reg i, 4, 7⟩
/-- TXC_CH_CFG[i] (R134). -/
def TXC_CH_CFG.reg (i : Nat) : Nat := 0x302004 + 0x40 * i
/-- TXC_CH_CFG.IDLE_HOLD (R134). -/
def TXC_CH_CFG.IDLE_HOLD (i : Nat) : RegFld := ⟨TXC_CH_CFG.reg i, 0, 16⟩
/-- TXC_CH_CFG.SUB_POL (R134). -/
def TXC_CH_CFG.SUB_POL (i : Nat) : RegFld := ⟨TXC_CH_CFG.reg i, 16, 1⟩
/-- TXC_CH_CFG.B24_POL (R134). -/
def TXC_CH_CFG.B24_POL (i : Nat) : RegFld := ⟨TXC_CH_CFG.reg i, 17, 1⟩
/-- TXC_CH_BUDGET[i] (R134). -/
def TXC_CH_BUDGET.reg (i : Nat) : Nat := 0x302008 + 0x40 * i
/-- TXC_CH_BUDGET.AMP_MAX (R134). -/
def TXC_CH_BUDGET.AMP_MAX (i : Nat) : RegFld := ⟨TXC_CH_BUDGET.reg i, 0, 16⟩
/-- TXC_CH_STS[i] (R134). -/
def TXC_CH_STS.reg (i : Nat) : Nat := 0x30200C + 0x40 * i
/-- TXC_CH_STS.STATE (R134). -/
def TXC_CH_STS.STATE (i : Nat) : RegFld := ⟨TXC_CH_STS.reg i, 0, 3⟩
/-- TXC_CH_CARR[i] (R134). -/
def TXC_CH_CARR.reg (i : Nat) : Nat := 0x302010 + 0x40 * i
/-- TXC_CH_FAULT[i] (R134). -/
def TXC_CH_FAULT.reg (i : Nat) : Nat := 0x302014 + 0x40 * i
/-- TXC_CH_FAULT.CAUSE (R134). -/
def TXC_CH_FAULT.CAUSE (i : Nat) : RegFld := ⟨TXC_CH_FAULT.reg i, 0, 4⟩
/-- TXC_CH_CNT_COMMIT[i] (R134). -/
def TXC_CH_CNT_COMMIT.reg (i : Nat) : Nat := 0x302018 + 0x40 * i
/-- TXC_CH_CNT_COMMIT.COUNT (R134). -/
def TXC_CH_CNT_COMMIT.COUNT (i : Nat) : RegFld := ⟨TXC_CH_CNT_COMMIT.reg i, 0, 32⟩
/-- TXC_CH_CNT_FAULT[i] (R134). -/
def TXC_CH_CNT_FAULT.reg (i : Nat) : Nat := 0x30201C + 0x40 * i
/-- TXC_CH_CNT_FAULT.COUNT (R134). -/
def TXC_CH_CNT_FAULT.COUNT (i : Nat) : RegFld := ⟨TXC_CH_CNT_FAULT.reg i, 0, 32⟩
/-- TXC_COEX_CFG[i] (R134). -/
def TXC_COEX_CFG.reg (i : Nat) : Nat := 0x303000 + 0x20 * i
/-- TXC_COEX_CFG.MODE (R134). -/
def TXC_COEX_CFG.MODE (i : Nat) : RegFld := ⟨TXC_COEX_CFG.reg i, 0, 2⟩
/-- TXC_COEX_CFG.REQ_POL (R134). -/
def TXC_COEX_CFG.REQ_POL (i : Nat) : RegFld := ⟨TXC_COEX_CFG.reg i, 2, 1⟩
/-- TXC_COEX_CFG.GNT_POL (R134). -/
def TXC_COEX_CFG.GNT_POL (i : Nat) : RegFld := ⟨TXC_COEX_CFG.reg i, 3, 1⟩
/-- TXC_COEX_CFG.ACK_EXEMPT (R134). -/
def TXC_COEX_CFG.ACK_EXEMPT (i : Nat) : RegFld := ⟨TXC_COEX_CFG.reg i, 4, 1⟩
/-- TXC_COEX_CFG.CHAINS (R134). -/
def TXC_COEX_CFG.CHAINS (i : Nat) : RegFld := ⟨TXC_COEX_CFG.reg i, 8, 8⟩
/-- TXC_COEX_CFG.BANDS (R134). -/
def TXC_COEX_CFG.BANDS (i : Nat) : RegFld := ⟨TXC_COEX_CFG.reg i, 16, 2⟩
/-- TXC_COEX_TIME[i] (R134). -/
def TXC_COEX_TIME.reg (i : Nat) : Nat := 0x303004 + 0x20 * i
/-- TXC_COEX_TIME.REQ_LEAD (R134). -/
def TXC_COEX_TIME.REQ_LEAD (i : Nat) : RegFld := ⟨TXC_COEX_TIME.reg i, 0, 16⟩
/-- TXC_COEX_TIME.REQ_HOLD (R134). -/
def TXC_COEX_TIME.REQ_HOLD (i : Nat) : RegFld := ⟨TXC_COEX_TIME.reg i, 16, 12⟩
/-- TXC_COEX_STS[i] (R134). -/
def TXC_COEX_STS.reg (i : Nat) : Nat := 0x303008 + 0x20 * i
/-- TXC_COEX_STS.REQ (R134). -/
def TXC_COEX_STS.REQ (i : Nat) : RegFld := ⟨TXC_COEX_STS.reg i, 0, 1⟩
/-- TXC_COEX_STS.GNT (R134). -/
def TXC_COEX_STS.GNT (i : Nat) : RegFld := ⟨TXC_COEX_STS.reg i, 1, 1⟩
/-- TXC_COEX_DENIED[i] (R134). -/
def TXC_COEX_DENIED.reg (i : Nat) : Nat := 0x30300C + 0x20 * i
/-- TXC_COEX_DENIED.COUNT (R134). -/
def TXC_COEX_DENIED.COUNT (i : Nat) : RegFld := ⟨TXC_COEX_DENIED.reg i, 0, 32⟩
/-- TXC_COEX_GDROP[i] (R134). -/
def TXC_COEX_GDROP.reg (i : Nat) : Nat := 0x303010 + 0x20 * i
/-- TXC_COEX_GDROP.COUNT (R134). -/
def TXC_COEX_GDROP.COUNT (i : Nat) : RegFld := ⟨TXC_COEX_GDROP.reg i, 0, 32⟩
/-- TXC_COEX_REQS[i] (R134). -/
def TXC_COEX_REQS.reg (i : Nat) : Nat := 0x303014 + 0x20 * i
/-- TXC_COEX_REQS.COUNT (R134). -/
def TXC_COEX_REQS.COUNT (i : Nat) : RegFld := ⟨TXC_COEX_REQS.reg i, 0, 32⟩
/-- TXC_STAGE0[i] (R134). -/
def TXC_STAGE0.reg (i : Nat) : Nat := 0x310000 + 0x8 * i
/-- TXC_STAGE0.LAST_MISS (R134). -/
def TXC_STAGE0.LAST_MISS (i : Nat) : RegFld := ⟨TXC_STAGE0.reg i, 20, 8⟩
/-- TXC_SLOT0[i] (R134). -/
def TXC_SLOT0.reg (i : Nat) : Nat := 0x312000 + 0x8 * i
/-- TXC_SLOT0.LAST_MISS (R134). -/
def TXC_SLOT0.LAST_MISS (i : Nat) : RegFld := ⟨TXC_SLOT0.reg i, 20, 8⟩
/-- LNK_CTRL (R175). -/
def LNK_CTRL.reg : Nat := 0x400000
/-- LNK_CTRL.EN (R175). -/
def LNK_CTRL.EN : RegFld := ⟨LNK_CTRL.reg, 0, 1⟩
/-- LNK_CTRL.FOLLOW_FOFS (R175). -/
def LNK_CTRL.FOLLOW_FOFS : RegFld := ⟨LNK_CTRL.reg, 1, 1⟩
/-- LNK_CTRL.LOCK (R175). -/
def LNK_CTRL.LOCK : RegFld := ⟨LNK_CTRL.reg, 31, 1⟩
/-- LNK_STS (R175). -/
def LNK_STS.reg : Nat := 0x400004
/-- LNK_ATB_LO (R175). -/
def LNK_ATB_LO.reg : Nat := 0x400008
/-- LNK_EVT_STS (R175). -/
def LNK_EVT_STS.reg : Nat := 0x400010
/-- LNK_DRIFT_CFG (R175). -/
def LNK_DRIFT_CFG.reg : Nat := 0x400020
/-- LNK_DRIFT_CFG.G_FIX (R175). -/
def LNK_DRIFT_CFG.G_FIX : RegFld := ⟨LNK_DRIFT_CFG.reg, 0, 16⟩
/-- LNK_DRIFT_CFG.SKEW_SHIFT (R175). -/
def LNK_DRIFT_CFG.SKEW_SHIFT : RegFld := ⟨LNK_DRIFT_CFG.reg, 16, 4⟩
/-- LNK_DRIFT_RES (R175). -/
def LNK_DRIFT_RES.reg : Nat := 0x400024
/-- LNK_DRIFT_RES.R_INIT (R175). -/
def LNK_DRIFT_RES.R_INIT : RegFld := ⟨LNK_DRIFT_RES.reg, 0, 24⟩
/-- LNK_DRIFT_FLOOR (R175). -/
def LNK_DRIFT_FLOOR.reg : Nat := 0x400028
/-- LNK_DRIFT_FLOOR.R_FLOOR (R175). -/
def LNK_DRIFT_FLOOR.R_FLOOR : RegFld := ⟨LNK_DRIFT_FLOOR.reg, 0, 24⟩
/-- LNK_DRIFT_SPAN (R175). -/
def LNK_DRIFT_SPAN.reg : Nat := 0x40002C
/-- LNK_DRIFT_SPAN.MIN_SPAN (R175). -/
def LNK_DRIFT_SPAN.MIN_SPAN : RegFld := ⟨LNK_DRIFT_SPAN.reg, 0, 32⟩
/-- LNK_CSL_CFG (R175). -/
def LNK_CSL_CFG.reg : Nat := 0x400030
/-- LNK_CSL_CFG.RZ_MIN (R175). -/
def LNK_CSL_CFG.RZ_MIN : RegFld := ⟨LNK_CSL_CFG.reg, 0, 4⟩
/-- LNK_CSL_CFG.PHASE_REF (R175). -/
def LNK_CSL_CFG.PHASE_REF : RegFld := ⟨LNK_CSL_CFG.reg, 4, 1⟩
/-- LNK_CSL_WUF (R175). -/
def LNK_CSL_WUF.reg : Nat := 0x400034
/-- LNK_CSL_WUF.FMT (R175). -/
def LNK_CSL_WUF.FMT : RegFld := ⟨LNK_CSL_WUF.reg, 0, 8⟩
/-- LNK_SCHED_LEAD (R175). -/
def LNK_SCHED_LEAD.reg : Nat := 0x400038
/-- LNK_SCHED_LEAD.TICKS (R175). -/
def LNK_SCHED_LEAD.TICKS : RegFld := ⟨LNK_SCHED_LEAD.reg, 0, 24⟩
/-- LNK_ANTMAP (R175). -/
def LNK_ANTMAP.reg : Nat := 0x400040
/-- LNK_PAN_ERR (R175). -/
def LNK_PAN_ERR.reg : Nat := 0x400050
/-- LNK_PAN_ERR.ENTRY (R175). -/
def LNK_PAN_ERR.ENTRY : RegFld := ⟨LNK_PAN_ERR.reg, 0, 6⟩
/-- LNK_PAN_ERR.SET (R175). -/
def LNK_PAN_ERR.SET : RegFld := ⟨LNK_PAN_ERR.reg, 31, 1⟩
/-- LNK_RATE_TURN[i] (R175). -/
def LNK_RATE_TURN.reg (i : Nat) : Nat := 0x400100 + 0x20 * i
/-- LNK_RATE_TURN.TURN (R175). -/
def LNK_RATE_TURN.TURN (i : Nat) : RegFld := ⟨LNK_RATE_TURN.reg i, 0, 24⟩
/-- LNK_RATE_ACKW_OPEN[i] (R175). -/
def LNK_RATE_ACKW_OPEN.reg (i : Nat) : Nat := 0x400104 + 0x20 * i
/-- LNK_RATE_ACKW_OPEN.ACKW_OPEN (R175). -/
def LNK_RATE_ACKW_OPEN.ACKW_OPEN (i : Nat) : RegFld := ⟨LNK_RATE_ACKW_OPEN.reg i, 0, 24⟩
/-- LNK_RATE_ACKW_CLOSE[i] (R175). -/
def LNK_RATE_ACKW_CLOSE.reg (i : Nat) : Nat := 0x400108 + 0x20 * i
/-- LNK_RATE_ACKW_CLOSE.ACKW_CLOSE (R175). -/
def LNK_RATE_ACKW_CLOSE.ACKW_CLOSE (i : Nat) : RegFld := ⟨LNK_RATE_ACKW_CLOSE.reg i, 0, 24⟩
/-- LNK_RATE_UNIT[i] (R175). -/
def LNK_RATE_UNIT.reg (i : Nat) : Nat := 0x40010C + 0x20 * i
/-- LNK_RATE_UNIT.UNIT (R175). -/
def LNK_RATE_UNIT.UNIT (i : Nat) : RegFld := ⟨LNK_RATE_UNIT.reg i, 0, 24⟩
/-- LNK_RATE_SHR[i] (R175). -/
def LNK_RATE_SHR.reg (i : Nat) : Nat := 0x400110 + 0x20 * i
/-- LNK_RATE_SHR.SHR (R175). -/
def LNK_RATE_SHR.SHR (i : Nat) : RegFld := ⟨LNK_RATE_SHR.reg i, 0, 24⟩
/-- LNK_CNT_ACK (R175). -/
def LNK_CNT_ACK.reg : Nat := 0x400200
/-- LNK_CNT_ACK.COUNT (R175). -/
def LNK_CNT_ACK.COUNT : RegFld := ⟨LNK_CNT_ACK.reg, 0, 32⟩
/-- LNK_CNT_ACK_NOCRED (R175). -/
def LNK_CNT_ACK_NOCRED.reg : Nat := 0x400204
/-- LNK_CNT_ACK_NOCRED.COUNT (R175). -/
def LNK_CNT_ACK_NOCRED.COUNT : RegFld := ⟨LNK_CNT_ACK_NOCRED.reg, 0, 32⟩
/-- LNK_CNT_ENHACK_LATE (R175). -/
def LNK_CNT_ENHACK_LATE.reg : Nat := 0x400208
/-- LNK_CNT_ENHACK_LATE.COUNT (R175). -/
def LNK_CNT_ENHACK_LATE.COUNT : RegFld := ⟨LNK_CNT_ENHACK_LATE.reg, 0, 32⟩
/-- LNK_CNT_DUP (R175). -/
def LNK_CNT_DUP.reg : Nat := 0x40020C
/-- LNK_CNT_DUP.COUNT (R175). -/
def LNK_CNT_DUP.COUNT : RegFld := ⟨LNK_CNT_DUP.reg, 0, 32⟩
/-- LNK_CNT_OOW (R175). -/
def LNK_CNT_OOW.reg : Nat := 0x400210
/-- LNK_CNT_OOW.COUNT (R175). -/
def LNK_CNT_OOW.COUNT : RegFld := ⟨LNK_CNT_OOW.reg, 0, 32⟩
/-- LNK_CNT_ACK_MATCH (R175). -/
def LNK_CNT_ACK_MATCH.reg : Nat := 0x400214
/-- LNK_CNT_ACK_MATCH.COUNT (R175). -/
def LNK_CNT_ACK_MATCH.COUNT : RegFld := ⟨LNK_CNT_ACK_MATCH.reg, 0, 32⟩
/-- LNK_CNT_PCLR (R175). -/
def LNK_CNT_PCLR.reg : Nat := 0x400218
/-- LNK_CNT_PCLR.COUNT (R175). -/
def LNK_CNT_PCLR.COUNT : RegFld := ⟨LNK_CNT_PCLR.reg, 0, 32⟩
/-- LNK_CNT_PCLR_LATE (R175). -/
def LNK_CNT_PCLR_LATE.reg : Nat := 0x40021C
/-- LNK_CNT_PCLR_LATE.COUNT (R175). -/
def LNK_CNT_PCLR_LATE.COUNT : RegFld := ⟨LNK_CNT_PCLR_LATE.reg, 0, 32⟩
/-- LNK_CNT_DRIFT_UPD (R175). -/
def LNK_CNT_DRIFT_UPD.reg : Nat := 0x400220
/-- LNK_CNT_DRIFT_UPD.COUNT (R175). -/
def LNK_CNT_DRIFT_UPD.COUNT : RegFld := ⟨LNK_CNT_DRIFT_UPD.reg, 0, 32⟩
/-- LNK_CNT_DRIFT_UNRES (R175). -/
def LNK_CNT_DRIFT_UNRES.reg : Nat := 0x400224
/-- LNK_CNT_DRIFT_UNRES.COUNT (R175). -/
def LNK_CNT_DRIFT_UNRES.COUNT : RegFld := ⟨LNK_CNT_DRIFT_UNRES.reg, 0, 32⟩
/-- LNK_CNT_SEQ_CLAMP (R175). -/
def LNK_CNT_SEQ_CLAMP.reg : Nat := 0x400228
/-- LNK_CNT_SEQ_CLAMP.COUNT (R175). -/
def LNK_CNT_SEQ_CLAMP.COUNT : RegFld := ⟨LNK_CNT_SEQ_CLAMP.reg, 0, 32⟩
/-- LNK_CNT_CLR (R175). -/
def LNK_CNT_CLR.reg : Nat := 0x4002FC
/-- LNK_PCNT[i, j] (R175). -/
def LNK_PCNT.reg (i : Nat) (j : Nat) : Nat := 0x400400 + 0x10 * i + 0x4 * j
/-- LNK_PCNT.COUNT (R175). -/
def LNK_PCNT.COUNT (i : Nat) (j : Nat) : RegFld := ⟨LNK_PCNT.reg i j, 0, 32⟩
/-- LNK_PAN_ID[i] (R175). -/
def LNK_PAN_ID.reg (i : Nat) : Nat := 0x401000 + 0x10 * i
/-- LNK_PAN_ID.PAN_ID (R175). -/
def LNK_PAN_ID.PAN_ID (i : Nat) : RegFld := ⟨LNK_PAN_ID.reg i, 0, 16⟩
/-- LNK_PAN_ID.SHORT (R175). -/
def LNK_PAN_ID.SHORT (i : Nat) : RegFld := ⟨LNK_PAN_ID.reg i, 16, 16⟩
/-- LNK_PAN_EXT_LO[i] (R175). -/
def LNK_PAN_EXT_LO.reg (i : Nat) : Nat := 0x401004 + 0x10 * i
/-- LNK_PAN_EXT_LO.EXT_LO (R175). -/
def LNK_PAN_EXT_LO.EXT_LO (i : Nat) : RegFld := ⟨LNK_PAN_EXT_LO.reg i, 0, 32⟩
/-- LNK_PAN_EXT_HI[i] (R175). -/
def LNK_PAN_EXT_HI.reg (i : Nat) : Nat := 0x401008 + 0x10 * i
/-- LNK_PAN_EXT_HI.EXT_HI (R175). -/
def LNK_PAN_EXT_HI.EXT_HI (i : Nat) : RegFld := ⟨LNK_PAN_EXT_HI.reg i, 0, 32⟩
/-- LNK_PAN_CFG[i] (R175). -/
def LNK_PAN_CFG.reg (i : Nat) : Nat := 0x40100C + 0x10 * i
/-- LNK_PAN_CFG.PART (R175). -/
def LNK_PAN_CFG.PART (i : Nat) : RegFld := ⟨LNK_PAN_CFG.reg i, 0, 6⟩
/-- LNK_PAN_CFG.EN (R175). -/
def LNK_PAN_CFG.EN (i : Nat) : RegFld := ⟨LNK_PAN_CFG.reg i, 6, 1⟩
/-- LNK_PAN_CFG.COORD (R175). -/
def LNK_PAN_CFG.COORD (i : Nat) : RegFld := ⟨LNK_PAN_CFG.reg i, 7, 1⟩
/-- LNK_PAN_CFG.ADMIT (R175). -/
def LNK_PAN_CFG.ADMIT (i : Nat) : RegFld := ⟨LNK_PAN_CFG.reg i, 8, 1⟩
/-- LNK_PAN_CFG.GRIDS (R175). -/
def LNK_PAN_CFG.GRIDS (i : Nat) : RegFld := ⟨LNK_PAN_CFG.reg i, 16, 16⟩
/-- LNK_CMP_LO[i] (R175). -/
def LNK_CMP_LO.reg (i : Nat) : Nat := 0x402000 + 0x10 * i
/-- LNK_CMP_LO.VALUE_LO (R175). -/
def LNK_CMP_LO.VALUE_LO (i : Nat) : RegFld := ⟨LNK_CMP_LO.reg i, 0, 32⟩
/-- LNK_CMP_HI[i] (R175). -/
def LNK_CMP_HI.reg (i : Nat) : Nat := 0x402004 + 0x10 * i
/-- LNK_CMP_CTRL[i] (R175). -/
def LNK_CMP_CTRL.reg (i : Nat) : Nat := 0x402008 + 0x10 * i
/-- LNK_CMP_CTRL.ARMED (R175). -/
def LNK_CMP_CTRL.ARMED (i : Nat) : RegFld := ⟨LNK_CMP_CTRL.reg i, 0, 1⟩
/-- LNK_CMP_CTRL.FIRED (R175). -/
def LNK_CMP_CTRL.FIRED (i : Nat) : RegFld := ⟨LNK_CMP_CTRL.reg i, 1, 1⟩
/-- LNK_CMP_CTRL.LATE (R175). -/
def LNK_CMP_CTRL.LATE (i : Nat) : RegFld := ⟨LNK_CMP_CTRL.reg i, 2, 1⟩
/-- LNK_CMP_CTRL.EVT_EN (R175). -/
def LNK_CMP_CTRL.EVT_EN (i : Nat) : RegFld := ⟨LNK_CMP_CTRL.reg i, 4, 1⟩
/-- LNK_CMP_CTRL.EVT_CH (R175). -/
def LNK_CMP_CTRL.EVT_CH (i : Nat) : RegFld := ⟨LNK_CMP_CTRL.reg i, 5, 7⟩
/-- LNK_CMP_CTRL.PART (R175). -/
def LNK_CMP_CTRL.PART (i : Nat) : RegFld := ⟨LNK_CMP_CTRL.reg i, 16, 6⟩
/-- LNK_TSCH_CTRL (R175). -/
def LNK_TSCH_CTRL.reg : Nat := 0x403000
/-- LNK_TSCH_CTRL.EN (R175). -/
def LNK_TSCH_CTRL.EN : RegFld := ⟨LNK_TSCH_CTRL.reg, 0, 1⟩
/-- LNK_TSCH_ASN_LO (R175). -/
def LNK_TSCH_ASN_LO.reg : Nat := 0x403004
/-- LNK_TSCH_EPOCH_LO (R175). -/
def LNK_TSCH_EPOCH_LO.reg : Nat := 0x403010
/-- LNK_TSCH_SLOT_LEN (R175). -/
def LNK_TSCH_SLOT_LEN.reg : Nat := 0x403020
/-- LNK_TSCH_SLOT_LEN.TICKS (R175). -/
def LNK_TSCH_SLOT_LEN.TICKS : RegFld := ⟨LNK_TSCH_SLOT_LEN.reg, 0, 24⟩
/-- LNK_TSCH_TX_OFS (R175). -/
def LNK_TSCH_TX_OFS.reg : Nat := 0x403024
/-- LNK_TSCH_TX_OFS.TICKS (R175). -/
def LNK_TSCH_TX_OFS.TICKS : RegFld := ⟨LNK_TSCH_TX_OFS.reg, 0, 24⟩
/-- LNK_TSCH_RX_OFS (R175). -/
def LNK_TSCH_RX_OFS.reg : Nat := 0x403028
/-- LNK_TSCH_RX_OFS.TICKS (R175). -/
def LNK_TSCH_RX_OFS.TICKS : RegFld := ⟨LNK_TSCH_RX_OFS.reg, 0, 24⟩
/-- LNK_TSCH_RX_WAIT (R175). -/
def LNK_TSCH_RX_WAIT.reg : Nat := 0x40302C
/-- LNK_TSCH_RX_WAIT.TICKS (R175). -/
def LNK_TSCH_RX_WAIT.TICKS : RegFld := ⟨LNK_TSCH_RX_WAIT.reg, 0, 24⟩
/-- LNK_TSCH_TX_ACK_DLY (R175). -/
def LNK_TSCH_TX_ACK_DLY.reg : Nat := 0x403030
/-- LNK_TSCH_TX_ACK_DLY.TICKS (R175). -/
def LNK_TSCH_TX_ACK_DLY.TICKS : RegFld := ⟨LNK_TSCH_TX_ACK_DLY.reg, 0, 24⟩
/-- LNK_TSCH_RX_ACK_DLY (R175). -/
def LNK_TSCH_RX_ACK_DLY.reg : Nat := 0x403034
/-- LNK_TSCH_RX_ACK_DLY.TICKS (R175). -/
def LNK_TSCH_RX_ACK_DLY.TICKS : RegFld := ⟨LNK_TSCH_RX_ACK_DLY.reg, 0, 24⟩
/-- LNK_TSCH_ACK_WAIT (R175). -/
def LNK_TSCH_ACK_WAIT.reg : Nat := 0x403038
/-- LNK_TSCH_ACK_WAIT.TICKS (R175). -/
def LNK_TSCH_ACK_WAIT.TICKS : RegFld := ⟨LNK_TSCH_ACK_WAIT.reg, 0, 24⟩
/-- LNK_TSCH_LEAD (R175). -/
def LNK_TSCH_LEAD.reg : Nat := 0x40303C
/-- LNK_TSCH_LEAD.TICKS (R175). -/
def LNK_TSCH_LEAD.TICKS : RegFld := ⟨LNK_TSCH_LEAD.reg, 0, 24⟩
/-- LNK_SF_CFG[i] (R175). -/
def LNK_SF_CFG.reg (i : Nat) : Nat := 0x403100 + 0x8 * i
/-- LNK_SF_CFG.LEN (R175). -/
def LNK_SF_CFG.LEN (i : Nat) : RegFld := ⟨LNK_SF_CFG.reg i, 0, 16⟩
/-- LNK_SF_CFG.HOP (R175). -/
def LNK_SF_CFG.HOP (i : Nat) : RegFld := ⟨LNK_SF_CFG.reg i, 16, 2⟩
/-- LNK_SF_CFG.EN (R175). -/
def LNK_SF_CFG.EN (i : Nat) : RegFld := ⟨LNK_SF_CFG.reg i, 31, 1⟩
/-- LNK_SF_CELLS[i] (R175). -/
def LNK_SF_CELLS.reg (i : Nat) : Nat := 0x403104 + 0x8 * i
/-- LNK_SF_CELLS.BASE (R175). -/
def LNK_SF_CELLS.BASE (i : Nat) : RegFld := ⟨LNK_SF_CELLS.reg i, 0, 13⟩
/-- LNK_SF_CELLS.COUNT (R175). -/
def LNK_SF_CELLS.COUNT (i : Nat) : RegFld := ⟨LNK_SF_CELLS.reg i, 16, 14⟩
/-- LNK_HOP_LEN[i] (R175). -/
def LNK_HOP_LEN.reg (i : Nat) : Nat := 0x403180 + 0x4 * i
/-- LNK_HOP_LEN.LEN (R175). -/
def LNK_HOP_LEN.LEN (i : Nat) : RegFld := ⟨LNK_HOP_LEN.reg i, 0, 8⟩
/-- LNK_HOP[i, j] (R175). -/
def LNK_HOP.reg (i : Nat) (j : Nat) : Nat := 0x404000 + 0x200 * i + 0x4 * j
/-- LNK_HOP.CHAN (R175). -/
def LNK_HOP.CHAN (i : Nat) (j : Nat) : RegFld := ⟨LNK_HOP.reg i j, 0, 8⟩
/-- LNK_HOP.GRID (R175). -/
def LNK_HOP.GRID (i : Nat) (j : Nat) : RegFld := ⟨LNK_HOP.reg i j, 8, 4⟩
/-- LNK_CELL0[i] (R175). -/
def LNK_CELL0.reg (i : Nat) : Nat := 0x410000 + 0x8 * i
/-- LNK_CELL0.SLOT_OFFSET (R175). -/
def LNK_CELL0.SLOT_OFFSET (i : Nat) : RegFld := ⟨LNK_CELL0.reg i, 0, 16⟩
/-- LNK_CELL0.CH_OFFSET (R175). -/
def LNK_CELL0.CH_OFFSET (i : Nat) : RegFld := ⟨LNK_CELL0.reg i, 16, 16⟩
/-- LNK_CELL1[i] (R175). -/
def LNK_CELL1.reg (i : Nat) : Nat := 0x410004 + 0x8 * i
/-- LNK_CELL1.NODE (R175). -/
def LNK_CELL1.NODE (i : Nat) : RegFld := ⟨LNK_CELL1.reg i, 0, 16⟩
/-- LNK_CELL1.TX (R175). -/
def LNK_CELL1.TX (i : Nat) : RegFld := ⟨LNK_CELL1.reg i, 16, 1⟩
/-- LNK_CELL1.RX (R175). -/
def LNK_CELL1.RX (i : Nat) : RegFld := ⟨LNK_CELL1.reg i, 17, 1⟩
/-- LNK_CELL1.SHARED (R175). -/
def LNK_CELL1.SHARED (i : Nat) : RegFld := ⟨LNK_CELL1.reg i, 18, 1⟩
/-- LNK_CELL1.BCAST (R175). -/
def LNK_CELL1.BCAST (i : Nat) : RegFld := ⟨LNK_CELL1.reg i, 19, 1⟩
/-- LNK_CELL1.CHAIN (R175). -/
def LNK_CELL1.CHAIN (i : Nat) : RegFld := ⟨LNK_CELL1.reg i, 20, 3⟩
/-- LNK_CELL1.EN (R175). -/
def LNK_CELL1.EN (i : Nat) : RegFld := ⟨LNK_CELL1.reg i, 23, 1⟩
/-- LNK_CELL1.PART (R175). -/
def LNK_CELL1.PART (i : Nat) : RegFld := ⟨LNK_CELL1.reg i, 24, 6⟩
/-- LNK_SEQ_LO[i, j] (R175). -/
def LNK_SEQ_LO.reg (i : Nat) (j : Nat) : Nat := 0x420000 + 0x400 * i + 0x8 * j
/-- LNK_SEQ_HI[i, j] (R175). -/
def LNK_SEQ_HI.reg (i : Nat) (j : Nat) : Nat := 0x420004 + 0x400 * i + 0x8 * j
/-- QUE_CTRL (R197). -/
def QUE_CTRL.reg : Nat := 0x500000
/-- QUE_CTRL.WR_EN (R197). -/
def QUE_CTRL.WR_EN : RegFld := ⟨QUE_CTRL.reg, 0, 1⟩
/-- QUE_CTRL.LOCK (R197). -/
def QUE_CTRL.LOCK : RegFld := ⟨QUE_CTRL.reg, 31, 1⟩
/-- QUE_STS (R197). -/
def QUE_STS.reg : Nat := 0x500004
/-- QUE_STS.FREE (R197). -/
def QUE_STS.FREE : RegFld := ⟨QUE_STS.reg, 0, 20⟩
/-- QUE_STS.SWEEP (R197). -/
def QUE_STS.SWEEP : RegFld := ⟨QUE_STS.reg, 20, 1⟩
/-- QUE_FREE_MIN (R197). -/
def QUE_FREE_MIN.reg : Nat := 0x500008
/-- QUE_FREE_MIN.MIN (R197). -/
def QUE_FREE_MIN.MIN : RegFld := ⟨QUE_FREE_MIN.reg, 0, 20⟩
/-- QUE_RX_RESERVE (R197). -/
def QUE_RX_RESERVE.reg : Nat := 0x50000C
/-- QUE_RX_RESERVE.CELLS (R197). -/
def QUE_RX_RESERVE.CELLS : RegFld := ⟨QUE_RX_RESERVE.reg, 0, 20⟩
/-- QUE_QMAX (R197). -/
def QUE_QMAX.reg : Nat := 0x500010
/-- QUE_QMAX.MAX (R197). -/
def QUE_QMAX.MAX : RegFld := ⟨QUE_QMAX.reg, 0, 8⟩
/-- QUE_EVT_STS (R197). -/
def QUE_EVT_STS.reg : Nat := 0x500014
/-- QUE_PAR_LOG (R197). -/
def QUE_PAR_LOG.reg : Nat := 0x500020
/-- QUE_PAR_LOG.INDEX (R197). -/
def QUE_PAR_LOG.INDEX : RegFld := ⟨QUE_PAR_LOG.reg, 0, 20⟩
/-- QUE_PAR_LOG.KIND (R197). -/
def QUE_PAR_LOG.KIND : RegFld := ⟨QUE_PAR_LOG.reg, 20, 1⟩
/-- QUE_PAR_LOG.VALID (R197). -/
def QUE_PAR_LOG.VALID : RegFld := ⟨QUE_PAR_LOG.reg, 31, 1⟩
/-- QUE_IDX_STS (R197). -/
def QUE_IDX_STS.reg : Nat := 0x500024
/-- QUE_IDX_STS.KEYS (R197). -/
def QUE_IDX_STS.KEYS : RegFld := ⟨QUE_IDX_STS.reg, 0, 18⟩
/-- QUE_CNT_WR_FULL (R197). -/
def QUE_CNT_WR_FULL.reg : Nat := 0x500040
/-- QUE_CNT_WR_FULL.COUNT (R197). -/
def QUE_CNT_WR_FULL.COUNT : RegFld := ⟨QUE_CNT_WR_FULL.reg, 0, 32⟩
/-- QUE_CNT_CELL_PAR (R197). -/
def QUE_CNT_CELL_PAR.reg : Nat := 0x500044
/-- QUE_CNT_CELL_PAR.COUNT (R197). -/
def QUE_CNT_CELL_PAR.COUNT : RegFld := ⟨QUE_CNT_CELL_PAR.reg, 0, 32⟩
/-- QUE_CNT_CTX_PAR (R197). -/
def QUE_CNT_CTX_PAR.reg : Nat := 0x500048
/-- QUE_CNT_CTX_PAR.COUNT (R197). -/
def QUE_CNT_CTX_PAR.COUNT : RegFld := ⟨QUE_CNT_CTX_PAR.reg, 0, 32⟩
/-- QUE_CNT_RX_PAR_DROP (R197). -/
def QUE_CNT_RX_PAR_DROP.reg : Nat := 0x50004C
/-- QUE_CNT_RX_PAR_DROP.COUNT (R197). -/
def QUE_CNT_RX_PAR_DROP.COUNT : RegFld := ⟨QUE_CNT_RX_PAR_DROP.reg, 0, 32⟩
/-- QUE_CNT_POISON_REJ (R197). -/
def QUE_CNT_POISON_REJ.reg : Nat := 0x500050
/-- QUE_CNT_POISON_REJ.COUNT (R197). -/
def QUE_CNT_POISON_REJ.COUNT : RegFld := ⟨QUE_CNT_POISON_REJ.reg, 0, 32⟩
/-- QUE_CNT_PRUNED (R197). -/
def QUE_CNT_PRUNED.reg : Nat := 0x500054
/-- QUE_CNT_PRUNED.COUNT (R197). -/
def QUE_CNT_PRUNED.COUNT : RegFld := ⟨QUE_CNT_PRUNED.reg, 0, 32⟩
/-- QUE_CNT_IDX_FAIL (R197). -/
def QUE_CNT_IDX_FAIL.reg : Nat := 0x500058
/-- QUE_CNT_IDX_FAIL.COUNT (R197). -/
def QUE_CNT_IDX_FAIL.COUNT : RegFld := ⟨QUE_CNT_IDX_FAIL.reg, 0, 32⟩
/-- QUE_CNT_NTW_WR (R197). -/
def QUE_CNT_NTW_WR.reg : Nat := 0x50005C
/-- QUE_CNT_NTW_WR.COUNT (R197). -/
def QUE_CNT_NTW_WR.COUNT : RegFld := ⟨QUE_CNT_NTW_WR.reg, 0, 32⟩
/-- QUE_CNT_CLR (R197). -/
def QUE_CNT_CLR.reg : Nat := 0x5000FC
/-- QUE_NCMD (R197). -/
def QUE_NCMD.reg : Nat := 0x500100
/-- QUE_NCMD.BUSY (R197). -/
def QUE_NCMD.BUSY : RegFld := ⟨QUE_NCMD.reg, 31, 1⟩
/-- QUE_NRES (R197). -/
def QUE_NRES.reg : Nat := 0x500104
/-- QUE_NDATA[i] (R197). -/
def QUE_NDATA.reg (i : Nat) : Nat := 0x500140 + 0x4 * i
/-- QUE_NDATA.WORD (R197). -/
def QUE_NDATA.WORD (i : Nat) : RegFld := ⟨QUE_NDATA.reg i, 0, 32⟩
/-- QUE_CRED_VERIFY (R197). -/
def QUE_CRED_VERIFY.reg : Nat := 0x500200
/-- QUE_CRED_HOST (R197). -/
def QUE_CRED_HOST.reg : Nat := 0x500204
/-- QUE_PGUAR[i] (R197). -/
def QUE_PGUAR.reg (i : Nat) : Nat := 0x500400 + 0x10 * i
/-- QUE_PUSE[i] (R197). -/
def QUE_PUSE.reg (i : Nat) : Nat := 0x500408 + 0x10 * i
/-- QUE_PUSE.USE (R197). -/
def QUE_PUSE.USE (i : Nat) : RegFld := ⟨QUE_PUSE.reg i, 0, 20⟩
/-- QUE_PFULL[i] (R197). -/
def QUE_PFULL.reg (i : Nat) : Nat := 0x50040C + 0x10 * i
/-- QUE_PFULL.COUNT (R197). -/
def QUE_PFULL.COUNT (i : Nat) : RegFld := ⟨QUE_PFULL.reg i, 0, 32⟩
/-- SEC_CTRL (R266). -/
def SEC_CTRL.reg : Nat := 0x600000
/-- SEC_CTRL.EN (R266). -/
def SEC_CTRL.EN : RegFld := ⟨SEC_CTRL.reg, 0, 1⟩
/-- SEC_CTRL.LOCK (R266). -/
def SEC_CTRL.LOCK : RegFld := ⟨SEC_CTRL.reg, 31, 1⟩
/-- SEC_STS (R266). -/
def SEC_STS.reg : Nat := 0x600004
/-- SEC_EVT_STS (R266). -/
def SEC_EVT_STS.reg : Nat := 0x600010
/-- SEC_CFG (R266). -/
def SEC_CFG.reg : Nat := 0x600018
/-- SEC_CFG.MARK_SHIFT (R266). -/
def SEC_CFG.MARK_SHIFT : RegFld := ⟨SEC_CFG.reg, 0, 5⟩
/-- SEC_KOP_CMD (R266). -/
def SEC_KOP_CMD.reg : Nat := 0x600100
/-- SEC_KOP_CMD.SLOT (R266). -/
def SEC_KOP_CMD.SLOT : RegFld := ⟨SEC_KOP_CMD.reg, 0, 16⟩
/-- SEC_KOP_CMD.LONG (R266). -/
def SEC_KOP_CMD.LONG : RegFld := ⟨SEC_KOP_CMD.reg, 16, 1⟩
/-- SEC_KOP_CMD.BUSY (R266). -/
def SEC_KOP_CMD.BUSY : RegFld := ⟨SEC_KOP_CMD.reg, 31, 1⟩
/-- SEC_KOP_RES (R266). -/
def SEC_KOP_RES.reg : Nat := 0x600104
/-- SEC_KOP_RES.STATUS (R266). -/
def SEC_KOP_RES.STATUS : RegFld := ⟨SEC_KOP_RES.reg, 0, 4⟩
/-- SEC_KOP_RES.STATE (R266). -/
def SEC_KOP_RES.STATE : RegFld := ⟨SEC_KOP_RES.reg, 4, 2⟩
/-- SEC_KOP_ATTR (R266). -/
def SEC_KOP_ATTR.reg : Nat := 0x600108
/-- SEC_KOP_ATTR.KEY_ID_MODE (R266). -/
def SEC_KOP_ATTR.KEY_ID_MODE : RegFld := ⟨SEC_KOP_ATTR.reg, 0, 2⟩
/-- SEC_KOP_ATTR.KEY_INDEX (R266). -/
def SEC_KOP_ATTR.KEY_INDEX : RegFld := ⟨SEC_KOP_ATTR.reg, 8, 8⟩
/-- SEC_KOP_FC (R266). -/
def SEC_KOP_FC.reg : Nat := 0x60010C
/-- SEC_KOP_FC.TX_FC (R266). -/
def SEC_KOP_FC.TX_FC : RegFld := ⟨SEC_KOP_FC.reg, 0, 32⟩
/-- SEC_KOP_SRC (R266). -/
def SEC_KOP_SRC.reg : Nat := 0x600110
/-- SEC_KOP_SRC.KEY_SOURCE (R266). -/
def SEC_KOP_SRC.KEY_SOURCE : RegFld := ⟨SEC_KOP_SRC.reg, 0, 32⟩
/-- SEC_KBLOB[i] (R266). -/
def SEC_KBLOB.reg (i : Nat) : Nat := 0x600140 + 0x4 * i
/-- SEC_MARK (R266). -/
def SEC_MARK.reg : Nat := 0x600200
/-- SEC_MARK.OVF (R266). -/
def SEC_MARK.OVF : RegFld := ⟨SEC_MARK.reg, 30, 1⟩
/-- SEC_MARK_FC (R266). -/
def SEC_MARK_FC.reg : Nat := 0x600204
/-- SEC_MARK_POP (R266). -/
def SEC_MARK_POP.reg : Nat := 0x600208
/-- SEC_CNT_VERIFY_OK (R266). -/
def SEC_CNT_VERIFY_OK.reg : Nat := 0x600300
/-- SEC_CNT_VERIFY_OK.COUNT (R266). -/
def SEC_CNT_VERIFY_OK.COUNT : RegFld := ⟨SEC_CNT_VERIFY_OK.reg, 0, 32⟩
/-- SEC_CNT_MIC_FAIL (R266). -/
def SEC_CNT_MIC_FAIL.reg : Nat := 0x600304
/-- SEC_CNT_MIC_FAIL.COUNT (R266). -/
def SEC_CNT_MIC_FAIL.COUNT : RegFld := ⟨SEC_CNT_MIC_FAIL.reg, 0, 32⟩
/-- SEC_CNT_KEY_MISMATCH (R266). -/
def SEC_CNT_KEY_MISMATCH.reg : Nat := 0x600308
/-- SEC_CNT_KEY_MISMATCH.COUNT (R266). -/
def SEC_CNT_KEY_MISMATCH.COUNT : RegFld := ⟨SEC_CNT_KEY_MISMATCH.reg, 0, 32⟩
/-- SEC_CNT_NO_KEY (R266). -/
def SEC_CNT_NO_KEY.reg : Nat := 0x60030C
/-- SEC_CNT_NO_KEY.COUNT (R266). -/
def SEC_CNT_NO_KEY.COUNT : RegFld := ⟨SEC_CNT_NO_KEY.reg, 0, 32⟩
/-- SEC_CNT_LOW_LEVEL (R266). -/
def SEC_CNT_LOW_LEVEL.reg : Nat := 0x600310
/-- SEC_CNT_LOW_LEVEL.COUNT (R266). -/
def SEC_CNT_LOW_LEVEL.COUNT : RegFld := ⟨SEC_CNT_LOW_LEVEL.reg, 0, 32⟩
/-- SEC_CNT_FC_MAX (R266). -/
def SEC_CNT_FC_MAX.reg : Nat := 0x600314
/-- SEC_CNT_FC_MAX.COUNT (R266). -/
def SEC_CNT_FC_MAX.COUNT : RegFld := ⟨SEC_CNT_FC_MAX.reg, 0, 32⟩
/-- SEC_CNT_NO_EXT (R266). -/
def SEC_CNT_NO_EXT.reg : Nat := 0x600318
/-- SEC_CNT_NO_EXT.COUNT (R266). -/
def SEC_CNT_NO_EXT.COUNT : RegFld := ⟨SEC_CNT_NO_EXT.reg, 0, 32⟩
/-- SEC_CNT_BAD_LEVEL (R266). -/
def SEC_CNT_BAD_LEVEL.reg : Nat := 0x60031C
/-- SEC_CNT_BAD_LEVEL.COUNT (R266). -/
def SEC_CNT_BAD_LEVEL.COUNT : RegFld := ⟨SEC_CNT_BAD_LEVEL.reg, 0, 32⟩
/-- SEC_CNT_ENCRYPT (R266). -/
def SEC_CNT_ENCRYPT.reg : Nat := 0x600320
/-- SEC_CNT_ENCRYPT.COUNT (R266). -/
def SEC_CNT_ENCRYPT.COUNT : RegFld := ⟨SEC_CNT_ENCRYPT.reg, 0, 32⟩
/-- SEC_CNT_EXHAUST (R266). -/
def SEC_CNT_EXHAUST.reg : Nat := 0x600324
/-- SEC_CNT_EXHAUST.COUNT (R266). -/
def SEC_CNT_EXHAUST.COUNT : RegFld := ⟨SEC_CNT_EXHAUST.reg, 0, 32⟩
/-- SEC_CNT_ABORTED (R266). -/
def SEC_CNT_ABORTED.reg : Nat := 0x600328
/-- SEC_CNT_ABORTED.COUNT (R266). -/
def SEC_CNT_ABORTED.COUNT : RegFld := ⟨SEC_CNT_ABORTED.reg, 0, 32⟩
/-- SEC_CNT_KOP_FAIL (R266). -/
def SEC_CNT_KOP_FAIL.reg : Nat := 0x60032C
/-- SEC_CNT_KOP_FAIL.COUNT (R266). -/
def SEC_CNT_KOP_FAIL.COUNT : RegFld := ⟨SEC_CNT_KOP_FAIL.reg, 0, 32⟩
/-- SEC_CNT_CLR (R266). -/
def SEC_CNT_CLR.reg : Nat := 0x6003FC
/-- SEC_PANKEY[i] (R266). -/
def SEC_PANKEY.reg (i : Nat) : Nat := 0x600400 + 0x4 * i
/-- SEC_PANKEY.SLOT (R266). -/
def SEC_PANKEY.SLOT (i : Nat) : RegFld := ⟨SEC_PANKEY.reg i, 0, 16⟩
/-- SEC_PANKEY.EN (R266). -/
def SEC_PANKEY.EN (i : Nat) : RegFld := ⟨SEC_PANKEY.reg i, 31, 1⟩
/-- SEC_ALARM_STS (R266). -/
def SEC_ALARM_STS.reg : Nat := 0x600500
/-- SEC_ALARM_STS.ALARM (R266). -/
def SEC_ALARM_STS.ALARM : RegFld := ⟨SEC_ALARM_STS.reg, 0, 6⟩
/-- SEC_ALARM_CFG (R266). -/
def SEC_ALARM_CFG.reg : Nat := 0x600504
/-- SEC_ALARM_CFG.TEMP_ACT (R266). -/
def SEC_ALARM_CFG.TEMP_ACT : RegFld := ⟨SEC_ALARM_CFG.reg, 0, 2⟩
/-- SEC_ALARM_CFG.FAULT_ACT (R266). -/
def SEC_ALARM_CFG.FAULT_ACT : RegFld := ⟨SEC_ALARM_CFG.reg, 2, 2⟩
/-- SEC_ALARM_CFG.RNG_ACT (R266). -/
def SEC_ALARM_CFG.RNG_ACT : RegFld := ⟨SEC_ALARM_CFG.reg, 4, 2⟩
/-- SEC_ALARM_CAUSE (R266). -/
def SEC_ALARM_CAUSE.reg : Nat := 0x600508
/-- SEC_ALARM_CAUSE.PRESENT (R266). -/
def SEC_ALARM_CAUSE.PRESENT : RegFld := ⟨SEC_ALARM_CAUSE.reg, 0, 6⟩
/-- SEC_ALARM_CNT (R266). -/
def SEC_ALARM_CNT.reg : Nat := 0x60050C
/-- SEC_ALARM_CNT.COUNT (R266). -/
def SEC_ALARM_CNT.COUNT : RegFld := ⟨SEC_ALARM_CNT.reg, 0, 32⟩
/-- SEC_RNG_STS (R266). -/
def SEC_RNG_STS.reg : Nat := 0x600600
/-- SEC_RNG_STS.REP_FAIL (R266). -/
def SEC_RNG_STS.REP_FAIL : RegFld := ⟨SEC_RNG_STS.reg, 1, 1⟩
/-- SEC_RNG_STS.APT_FAIL (R266). -/
def SEC_RNG_STS.APT_FAIL : RegFld := ⟨SEC_RNG_STS.reg, 2, 1⟩
/-- SEC_RNG_STS.RESEED_LEFT (R266). -/
def SEC_RNG_STS.RESEED_LEFT : RegFld := ⟨SEC_RNG_STS.reg, 8, 24⟩
/-- SEC_RNG_CNT (R266). -/
def SEC_RNG_CNT.reg : Nat := 0x600604
/-- SEC_RNG_CNT.COUNT (R266). -/
def SEC_RNG_CNT.COUNT : RegFld := ⟨SEC_RNG_CNT.reg, 0, 32⟩
/-- SEC_SEAL_CTRL (R266). -/
def SEC_SEAL_CTRL.reg : Nat := 0x600700
/-- SEC_SEAL_CTRL.LONG (R266). -/
def SEC_SEAL_CTRL.LONG : RegFld := ⟨SEC_SEAL_CTRL.reg, 8, 8⟩
/-- SEC_SEAL_CTRL.STATUS (R266). -/
def SEC_SEAL_CTRL.STATUS : RegFld := ⟨SEC_SEAL_CTRL.reg, 16, 4⟩
/-- SEC_SEAL_CTRL.BUSY (R266). -/
def SEC_SEAL_CTRL.BUSY : RegFld := ⟨SEC_SEAL_CTRL.reg, 31, 1⟩
/-- SEC_SEAL_SRC (R266). -/
def SEC_SEAL_SRC.reg : Nat := 0x600704
/-- SEC_SEAL_SRC.OFFSET (R266). -/
def SEC_SEAL_SRC.OFFSET : RegFld := ⟨SEC_SEAL_SRC.reg, 0, 21⟩
/-- SEC_SEAL_DST (R266). -/
def SEC_SEAL_DST.reg : Nat := 0x600708
/-- SEC_SEAL_DST.OFFSET (R266). -/
def SEC_SEAL_DST.OFFSET : RegFld := ⟨SEC_SEAL_DST.reg, 0, 21⟩
/-- SEC_SEAL_LEN (R266). -/
def SEC_SEAL_LEN.reg : Nat := 0x60070C
/-- SEC_SEAL_LEN.ADATA (R266). -/
def SEC_SEAL_LEN.ADATA : RegFld := ⟨SEC_SEAL_LEN.reg, 0, 16⟩
/-- SEC_SEAL_LEN.PDATA (R266). -/
def SEC_SEAL_LEN.PDATA : RegFld := ⟨SEC_SEAL_LEN.reg, 16, 16⟩
/-- SEC_SEAL_N[i] (R266). -/
def SEC_SEAL_N.reg (i : Nat) : Nat := 0x600710 + 0x4 * i
/-- SEC_PCNT[i, j] (R266). -/
def SEC_PCNT.reg (i : Nat) (j : Nat) : Nat := 0x601000 + 0x10 * i + 0x4 * j
/-- SEC_PCNT.COUNT (R266). -/
def SEC_PCNT.COUNT (i : Nat) (j : Nat) : RegFld := ⟨SEC_PCNT.reg i j, 0, 32⟩
/-- PRT_CTRL (R213). -/
def PRT_CTRL.reg : Nat := 0x700000
/-- PRT_CTRL.LOCK (R213). -/
def PRT_CTRL.LOCK : RegFld := ⟨PRT_CTRL.reg, 31, 1⟩
/-- PRT_STS (R213). -/
def PRT_STS.reg : Nat := 0x700004
/-- PRT_EVT_STS (R213). -/
def PRT_EVT_STS.reg : Nat := 0x700010
/-- PRT_MAP_ERR (R213). -/
def PRT_MAP_ERR.reg : Nat := 0x700018
/-- PRT_MAP_ERR.OFFSET (R213). -/
def PRT_MAP_ERR.OFFSET : RegFld := ⟨PRT_MAP_ERR.reg, 0, 16⟩
/-- PRT_MAP_ERR.QUE (R213). -/
def PRT_MAP_ERR.QUE : RegFld := ⟨PRT_MAP_ERR.reg, 16, 1⟩
/-- PRT_MAP_ERR.SET (R213). -/
def PRT_MAP_ERR.SET : RegFld := ⟨PRT_MAP_ERR.reg, 31, 1⟩
/-- PRT_AIR_CTRL (R213). -/
def PRT_AIR_CTRL.reg : Nat := 0x700020
/-- PRT_AIR_CTRL.EN (R213). -/
def PRT_AIR_CTRL.EN : RegFld := ⟨PRT_AIR_CTRL.reg, 0, 1⟩
/-- PRT_AIR_PERIOD (R213). -/
def PRT_AIR_PERIOD.reg : Nat := 0x700024
/-- PRT_AIR_PERIOD.TICKS (R213). -/
def PRT_AIR_PERIOD.TICKS : RegFld := ⟨PRT_AIR_PERIOD.reg, 0, 32⟩
/-- PRT_AIR_TOTAL (R213). -/
def PRT_AIR_TOTAL.reg : Nat := 0x700028
/-- PRT_AIR_TOTAL.TICKS (R213). -/
def PRT_AIR_TOTAL.TICKS : RegFld := ⟨PRT_AIR_TOTAL.reg, 0, 32⟩
/-- PRT_FLT_STS (R213). -/
def PRT_FLT_STS.reg : Nat := 0x700040
/-- PRT_FLT_STS.OVF (R213). -/
def PRT_FLT_STS.OVF : RegFld := ⟨PRT_FLT_STS.reg, 31, 1⟩
/-- PRT_FLT_W0 (R213). -/
def PRT_FLT_W0.reg : Nat := 0x700044
/-- PRT_FLT_W1 (R213). -/
def PRT_FLT_W1.reg : Nat := 0x700048
/-- PRT_FLT_ATB_LO (R213). -/
def PRT_FLT_ATB_LO.reg : Nat := 0x70004C
/-- PRT_FLT_POP (R213). -/
def PRT_FLT_POP.reg : Nat := 0x700054
/-- PRT_CNT_BCAST (R213). -/
def PRT_CNT_BCAST.reg : Nat := 0x700080
/-- PRT_CNT_BCAST.COUNT (R213). -/
def PRT_CNT_BCAST.COUNT : RegFld := ⟨PRT_CNT_BCAST.reg, 0, 32⟩
/-- PRT_CNT_BCAST_SKIP (R213). -/
def PRT_CNT_BCAST_SKIP.reg : Nat := 0x700084
/-- PRT_CNT_BCAST_SKIP.COUNT (R213). -/
def PRT_CNT_BCAST_SKIP.COUNT : RegFld := ⟨PRT_CNT_BCAST_SKIP.reg, 0, 32⟩
/-- PRT_CNT_CLR (R213). -/
def PRT_CNT_CLR.reg : Nat := 0x7000FC
/-- PRT_P_CFG[i] (R213). -/
def PRT_P_CFG.reg (i : Nat) : Nat := 0x700100 + 0x20 * i
/-- PRT_P_CFG.EN (R213). -/
def PRT_P_CFG.EN (i : Nat) : RegFld := ⟨PRT_P_CFG.reg i, 0, 1⟩
/-- PRT_P_CFG.STATE (R213). -/
def PRT_P_CFG.STATE (i : Nat) : RegFld := ⟨PRT_P_CFG.reg i, 1, 2⟩
/-- PRT_P_LANE[i] (R213). -/
def PRT_P_LANE.reg (i : Nat) : Nat := 0x700104 + 0x20 * i
/-- PRT_P_LANE.GUAR (R213). -/
def PRT_P_LANE.GUAR (i : Nat) : RegFld := ⟨PRT_P_LANE.reg i, 0, 10⟩
/-- PRT_P_LANE.CAP (R213). -/
def PRT_P_LANE.CAP (i : Nat) : RegFld := ⟨PRT_P_LANE.reg i, 16, 10⟩
/-- PRT_P_CELL_GUAR[i] (R213). -/
def PRT_P_CELL_GUAR.reg (i : Nat) : Nat := 0x700108 + 0x20 * i
/-- PRT_P_CELL_GUAR.GUAR (R213). -/
def PRT_P_CELL_GUAR.GUAR (i : Nat) : RegFld := ⟨PRT_P_CELL_GUAR.reg i, 0, 20⟩
/-- PRT_P_CELL_CAP[i] (R213). -/
def PRT_P_CELL_CAP.reg (i : Nat) : Nat := 0x70010C + 0x20 * i
/-- PRT_P_CELL_CAP.CAP (R213). -/
def PRT_P_CELL_CAP.CAP (i : Nat) : RegFld := ⟨PRT_P_CELL_CAP.reg i, 0, 20⟩
/-- PRT_P_AIR_GUAR[i] (R213). -/
def PRT_P_AIR_GUAR.reg (i : Nat) : Nat := 0x700110 + 0x20 * i
/-- PRT_P_AIR_GUAR.GUAR (R213). -/
def PRT_P_AIR_GUAR.GUAR (i : Nat) : RegFld := ⟨PRT_P_AIR_GUAR.reg i, 0, 32⟩
/-- PRT_P_AIR_CAP[i] (R213). -/
def PRT_P_AIR_CAP.reg (i : Nat) : Nat := 0x700114 + 0x20 * i
/-- PRT_P_AIR_CAP.CAP (R213). -/
def PRT_P_AIR_CAP.CAP (i : Nat) : RegFld := ⟨PRT_P_AIR_CAP.reg i, 0, 32⟩
/-- PRT_P_PWR[i] (R213). -/
def PRT_P_PWR.reg (i : Nat) : Nat := 0x700118 + 0x20 * i
/-- PRT_P_PWR.GUAR (R213). -/
def PRT_P_PWR.GUAR (i : Nat) : RegFld := ⟨PRT_P_PWR.reg i, 0, 16⟩
/-- PRT_P_PWR.CAP (R213). -/
def PRT_P_PWR.CAP (i : Nat) : RegFld := ⟨PRT_P_PWR.reg i, 16, 16⟩
/-- PRT_P_RESET[i] (R213). -/
def PRT_P_RESET.reg (i : Nat) : Nat := 0x70011C + 0x20 * i
/-- PRT_P_RESET.BUSY (R213). -/
def PRT_P_RESET.BUSY (i : Nat) : RegFld := ⟨PRT_P_RESET.reg i, 31, 1⟩
/-- PRT_HMAP[i] (R213). -/
def PRT_HMAP.reg (i : Nat) : Nat := 0x701000 + 0x4 * i
/-- PRT_HMAP.OWNER (R213). -/
def PRT_HMAP.OWNER (i : Nat) : RegFld := ⟨PRT_HMAP.reg i, 0, 6⟩
/-- PRT_HMAP.EN (R213). -/
def PRT_HMAP.EN (i : Nat) : RegFld := ⟨PRT_HMAP.reg i, 6, 1⟩
/-- PRT_KMAP[i] (R213). -/
def PRT_KMAP.reg (i : Nat) : Nat := 0x701400 + 0x4 * i
/-- PRT_KMAP.OWNER (R213). -/
def PRT_KMAP.OWNER (i : Nat) : RegFld := ⟨PRT_KMAP.reg i, 0, 6⟩
/-- PRT_KMAP.EN (R213). -/
def PRT_KMAP.EN (i : Nat) : RegFld := ⟨PRT_KMAP.reg i, 6, 1⟩
/-- PRT_LMAP[i] (R213). -/
def PRT_LMAP.reg (i : Nat) : Nat := 0x701800 + 0x4 * i
/-- PRT_LMAP.OWNER (R213). -/
def PRT_LMAP.OWNER (i : Nat) : RegFld := ⟨PRT_LMAP.reg i, 0, 6⟩
/-- PRT_LMAP.EN (R213). -/
def PRT_LMAP.EN (i : Nat) : RegFld := ⟨PRT_LMAP.reg i, 6, 1⟩
/-- PRT_PORT[i] (R213). -/
def PRT_PORT.reg (i : Nat) : Nat := 0x702000 + 0x4 * i
/-- PRT_PORT.OWNER (R213). -/
def PRT_PORT.OWNER (i : Nat) : RegFld := ⟨PRT_PORT.reg i, 0, 6⟩
/-- PRT_PORT.EN (R213). -/
def PRT_PORT.EN (i : Nat) : RegFld := ⟨PRT_PORT.reg i, 6, 1⟩
/-- PRT_ENG[i] (R213). -/
def PRT_ENG.reg (i : Nat) : Nat := 0x703000 + 0x4 * i
/-- PRT_ENG.OWNER (R213). -/
def PRT_ENG.OWNER (i : Nat) : RegFld := ⟨PRT_ENG.reg i, 0, 6⟩
/-- PRT_ENG.EN (R213). -/
def PRT_ENG.EN (i : Nat) : RegFld := ⟨PRT_ENG.reg i, 6, 1⟩
/-- PRT_BSUB_LO[i] (R213). -/
def PRT_BSUB_LO.reg (i : Nat) : Nat := 0x703100 + 0x8 * i
/-- PRT_BSUB_LO.MASK (R213). -/
def PRT_BSUB_LO.MASK (i : Nat) : RegFld := ⟨PRT_BSUB_LO.reg i, 0, 32⟩
/-- PRT_BSUB_HI[i] (R213). -/
def PRT_BSUB_HI.reg (i : Nat) : Nat := 0x703104 + 0x8 * i
/-- PRT_BSUB_HI.MASK (R213). -/
def PRT_BSUB_HI.MASK (i : Nat) : RegFld := ⟨PRT_BSUB_HI.reg i, 0, 32⟩
/-- PRT_EVG[i] (R213). -/
def PRT_EVG.reg (i : Nat) : Nat := 0x703200 + 0x4 * i
/-- PRT_EVG.OWNER (R213). -/
def PRT_EVG.OWNER (i : Nat) : RegFld := ⟨PRT_EVG.reg i, 0, 6⟩
/-- PRT_EVG.EN (R213). -/
def PRT_EVG.EN (i : Nat) : RegFld := ⟨PRT_EVG.reg i, 6, 1⟩
/-- PRT_TIM[i] (R213). -/
def PRT_TIM.reg (i : Nat) : Nat := 0x703240 + 0x4 * i
/-- PRT_PCNT[i, j] (R213). -/
def PRT_PCNT.reg (i : Nat) (j : Nat) : Nat := 0x704000 + 0x10 * i + 0x4 * j
/-- PRT_PCNT.COUNT (R213). -/
def PRT_PCNT.COUNT (i : Nat) (j : Nat) : RegFld := ⟨PRT_PCNT.reg i j, 0, 32⟩
/-- PRT_PAIR[i, j] (R213). -/
def PRT_PAIR.reg (i : Nat) (j : Nat) : Nat := 0x705000 + 0x10 * i + 0x4 * j
/-- PRT_PAIR.VALUE (R213). -/
def PRT_PAIR.VALUE (i : Nat) (j : Nat) : RegFld := ⟨PRT_PAIR.reg i j, 0, 32⟩
/-- HST_PORT_SQ_TAIL[i] (R297). -/
def HST_PORT_SQ_TAIL.reg (i : Nat) : Nat := 0x800000 + 0x40 * i
/-- HST_PORT_CQ_HEAD[i] (R297). -/
def HST_PORT_CQ_HEAD.reg (i : Nat) : Nat := 0x800004 + 0x40 * i
/-- HST_PORT_SQ_BASE_LO[i] (R297). -/
def HST_PORT_SQ_BASE_LO.reg (i : Nat) : Nat := 0x800008 + 0x40 * i
/-- HST_PORT_CQ_BASE_LO[i] (R297). -/
def HST_PORT_CQ_BASE_LO.reg (i : Nat) : Nat := 0x800010 + 0x40 * i
/-- HST_PORT_SIZE[i] (R297). -/
def HST_PORT_SIZE.reg (i : Nat) : Nat := 0x800018 + 0x40 * i
/-- HST_PORT_SIZE.SQ_LOG2 (R297). -/
def HST_PORT_SIZE.SQ_LOG2 (i : Nat) : RegFld := ⟨HST_PORT_SIZE.reg i, 0, 4⟩
/-- HST_PORT_SIZE.CQ_LOG2 (R297). -/
def HST_PORT_SIZE.CQ_LOG2 (i : Nat) : RegFld := ⟨HST_PORT_SIZE.reg i, 8, 4⟩
/-- HST_PORT_CFG[i] (R297). -/
def HST_PORT_CFG.reg (i : Nat) : Nat := 0x80001C + 0x40 * i
/-- HST_PORT_CFG.EN (R297). -/
def HST_PORT_CFG.EN (i : Nat) : RegFld := ⟨HST_PORT_CFG.reg i, 0, 1⟩
/-- HST_PORT_CFG.RX_EN (R297). -/
def HST_PORT_CFG.RX_EN (i : Nat) : RegFld := ⟨HST_PORT_CFG.reg i, 1, 1⟩
/-- HST_PORT_CFG.NOTICE_EN (R297). -/
def HST_PORT_CFG.NOTICE_EN (i : Nat) : RegFld := ⟨HST_PORT_CFG.reg i, 2, 1⟩
/-- HST_PORT_CFG.TYPES (R297). -/
def HST_PORT_CFG.TYPES (i : Nat) : RegFld := ⟨HST_PORT_CFG.reg i, 8, 8⟩
/-- HST_PORT_CFG.VECTOR (R297). -/
def HST_PORT_CFG.VECTOR (i : Nat) : RegFld := ⟨HST_PORT_CFG.reg i, 16, 11⟩
/-- HST_PORT_MOD[i] (R297). -/
def HST_PORT_MOD.reg (i : Nat) : Nat := 0x800020 + 0x40 * i
/-- HST_PORT_MOD.COUNT (R297). -/
def HST_PORT_MOD.COUNT (i : Nat) : RegFld := ⟨HST_PORT_MOD.reg i, 0, 8⟩
/-- HST_PORT_MOD.TIME (R297). -/
def HST_PORT_MOD.TIME (i : Nat) : RegFld := ⟨HST_PORT_MOD.reg i, 16, 16⟩
/-- HST_PORT_STS[i] (R297). -/
def HST_PORT_STS.reg (i : Nat) : Nat := 0x800024 + 0x40 * i
/-- HST_PORT_STS.EN (R297). -/
def HST_PORT_STS.EN (i : Nat) : RegFld := ⟨HST_PORT_STS.reg i, 0, 1⟩
/-- HST_PORT_STS.ERR (R297). -/
def HST_PORT_STS.ERR (i : Nat) : RegFld := ⟨HST_PORT_STS.reg i, 4, 4⟩
/-- HST_PORT_STS.SQ_HEAD (R297). -/
def HST_PORT_STS.SQ_HEAD (i : Nat) : RegFld := ⟨HST_PORT_STS.reg i, 16, 12⟩
/-- HST_PORT_CTX[i] (R297). -/
def HST_PORT_CTX.reg (i : Nat) : Nat := 0x800028 + 0x40 * i
/-- HST_PORT_CTX.MAX (R297). -/
def HST_PORT_CTX.MAX (i : Nat) : RegFld := ⟨HST_PORT_CTX.reg i, 16, 15⟩
/-- HST_PORT_CQ_TAIL[i] (R297). -/
def HST_PORT_CQ_TAIL.reg (i : Nat) : Nat := 0x800030 + 0x40 * i
/-- HST_PORT_CQ_TAIL.TAIL (R297). -/
def HST_PORT_CQ_TAIL.TAIL (i : Nat) : RegFld := ⟨HST_PORT_CQ_TAIL.reg i, 0, 12⟩
/-- HST_PORT_CQ_TAIL.PHASE (R297). -/
def HST_PORT_CQ_TAIL.PHASE (i : Nat) : RegFld := ⟨HST_PORT_CQ_TAIL.reg i, 16, 1⟩
/-- HST_MSIX_CTL[i] (R297). -/
def HST_MSIX_CTL.reg (i : Nat) : Nat := 0x90000C + 0x10 * i
/-- HST_PBA[i] (R297). -/
def HST_PBA.reg (i : Nat) : Nat := 0x908000 + 0x4 * i
/-- HST_CTRL (R297). -/
def HST_CTRL.reg : Nat := 0x980000
/-- HST_CTRL.LOCK (R297). -/
def HST_CTRL.LOCK : RegFld := ⟨HST_CTRL.reg, 31, 1⟩
/-- HST_STS (R297). -/
def HST_STS.reg : Nat := 0x980004
/-- HST_CTX_MIN (R297). -/
def HST_CTX_MIN.reg : Nat := 0x980008
/-- HST_CTX_MIN.MIN_FREE (R297). -/
def HST_CTX_MIN.MIN_FREE : RegFld := ⟨HST_CTX_MIN.reg, 0, 15⟩
/-- HST_EVT_STS (R297). -/
def HST_EVT_STS.reg : Nat := 0x980010
/-- HST_EVT_VEC (R297). -/
def HST_EVT_VEC.reg : Nat := 0x980018
/-- HST_EVT_VEC.VECTOR (R297). -/
def HST_EVT_VEC.VECTOR : RegFld := ⟨HST_EVT_VEC.reg, 0, 11⟩
/-- HST_EVT_VEC.EN (R297). -/
def HST_EVT_VEC.EN : RegFld := ⟨HST_EVT_VEC.reg, 31, 1⟩
/-- HST_PF_VEC (R297). -/
def HST_PF_VEC.reg : Nat := 0x980020
/-- HST_PF_VEC.COUNT (R297). -/
def HST_PF_VEC.COUNT : RegFld := ⟨HST_PF_VEC.reg, 0, 12⟩
/-- HST_VEC_ERR (R297). -/
def HST_VEC_ERR.reg : Nat := 0x980024
/-- HST_VEC_ERR.FUNC (R297). -/
def HST_VEC_ERR.FUNC : RegFld := ⟨HST_VEC_ERR.reg, 0, 6⟩
/-- HST_VEC_ERR.SET (R297). -/
def HST_VEC_ERR.SET : RegFld := ⟨HST_VEC_ERR.reg, 31, 1⟩
/-- HST_CNT_FETCH (R297). -/
def HST_CNT_FETCH.reg : Nat := 0x980040
/-- HST_CNT_FETCH.COUNT (R297). -/
def HST_CNT_FETCH.COUNT : RegFld := ⟨HST_CNT_FETCH.reg, 0, 32⟩
/-- HST_CNT_CPL (R297). -/
def HST_CNT_CPL.reg : Nat := 0x980044
/-- HST_CNT_CPL.COUNT (R297). -/
def HST_CNT_CPL.COUNT : RegFld := ⟨HST_CNT_CPL.reg, 0, 32⟩
/-- HST_CNT_DMA_ERR (R297). -/
def HST_CNT_DMA_ERR.reg : Nat := 0x980048
/-- HST_CNT_DMA_ERR.COUNT (R297). -/
def HST_CNT_DMA_ERR.COUNT : RegFld := ⟨HST_CNT_DMA_ERR.reg, 0, 32⟩
/-- HST_CNT_CTX_STALL (R297). -/
def HST_CNT_CTX_STALL.reg : Nat := 0x98004C
/-- HST_CNT_CTX_STALL.COUNT (R297). -/
def HST_CNT_CTX_STALL.COUNT : RegFld := ⟨HST_CNT_CTX_STALL.reg, 0, 32⟩
/-- HST_VF_FEAT_MASK[i] (R297). -/
def HST_VF_FEAT_MASK.reg (i : Nat) : Nat := 0x980050 + 0x4 * i
/-- HST_VF_FEAT_MASK.MASK (R297). -/
def HST_VF_FEAT_MASK.MASK (i : Nat) : RegFld := ⟨HST_VF_FEAT_MASK.reg i, 0, 32⟩
/-- HST_CNT_CLR (R297). -/
def HST_CNT_CLR.reg : Nat := 0x9800FC
/-- HST_VF_VEC[i] (R297). -/
def HST_VF_VEC.reg (i : Nat) : Nat := 0x980400 + 0x4 * i
/-- HST_VF_VEC.COUNT (R297). -/
def HST_VF_VEC.COUNT (i : Nat) : RegFld := ⟨HST_VF_VEC.reg i, 0, 12⟩
/-- HST_PCNT[i, j] (R297). -/
def HST_PCNT.reg (i : Nat) (j : Nat) : Nat := 0x981000 + 0x20 * i + 0x4 * j
/-- HST_PCNT.COUNT (R297). -/
def HST_PCNT.COUNT (i : Nat) (j : Nat) : RegFld := ⟨HST_PCNT.reg i j, 0, 32⟩
/-- ENG_CTRL[i, j] (R240). -/
def ENG_CTRL.reg (i : Nat) (j : Nat) : Nat := 0x2180000 + 0x200000 * i + 0x100 * j
/-- ENG_CTRL.DBG_EN (R240). -/
def ENG_CTRL.DBG_EN (i : Nat) (j : Nat) : RegFld := ⟨ENG_CTRL.reg i j, 8, 1⟩
/-- ENG_STS[i, j] (R240). -/
def ENG_STS.reg (i : Nat) (j : Nat) : Nat := 0x2180004 + 0x200000 * i + 0x100 * j
/-- ENG_STS.STATE (R240). -/
def ENG_STS.STATE (i : Nat) (j : Nat) : RegFld := ⟨ENG_STS.reg i j, 0, 2⟩
/-- ENG_STS.HALT_CAUSE (R240). -/
def ENG_STS.HALT_CAUSE (i : Nat) (j : Nat) : RegFld := ⟨ENG_STS.reg i j, 4, 4⟩
/-- ENG_STS.WR_REFUSED (R240). -/
def ENG_STS.WR_REFUSED (i : Nat) (j : Nat) : RegFld := ⟨ENG_STS.reg i j, 8, 1⟩
/-- ENG_STS.CLEARING (R240). -/
def ENG_STS.CLEARING (i : Nat) (j : Nat) : RegFld := ⟨ENG_STS.reg i j, 24, 1⟩
/-- ENG_BP[i, j, k] (R240). -/
def ENG_BP.reg (i : Nat) (j : Nat) (k : Nat) : Nat := 0x2180010 + 0x200000 * i + 0x100 * j + 0x4 * k
/-- ENG_BP.ADDR (R240). -/
def ENG_BP.ADDR (i : Nat) (j : Nat) (k : Nat) : RegFld := ⟨ENG_BP.reg i j k, 2, 13⟩
/-- ENG_BP.EN (R240). -/
def ENG_BP.EN (i : Nat) (j : Nat) (k : Nat) : RegFld := ⟨ENG_BP.reg i j k, 31, 1⟩
/-- ENG_CNT_INSN[i, j] (R240). -/
def ENG_CNT_INSN.reg (i : Nat) (j : Nat) : Nat := 0x2180020 + 0x200000 * i + 0x100 * j
/-- ENG_CNT_INSN.COUNT (R240). -/
def ENG_CNT_INSN.COUNT (i : Nat) (j : Nat) : RegFld := ⟨ENG_CNT_INSN.reg i j, 0, 32⟩
/-- ENG_NTF_DISC[i, j] (R240). -/
def ENG_NTF_DISC.reg (i : Nat) (j : Nat) : Nat := 0x2180028 + 0x200000 * i + 0x100 * j
/-- ENG_NTF_DISC.COUNT (R240). -/
def ENG_NTF_DISC.COUNT (i : Nat) (j : Nat) : RegFld := ⟨ENG_NTF_DISC.reg i j, 0, 32⟩
/-- ENG_C_CTRL[i] (R240). -/
def ENG_C_CTRL.reg (i : Nat) : Nat := 0x2181000 + 0x200000 * i
/-- ENG_C_CTRL.LOCK (R240). -/
def ENG_C_CTRL.LOCK (i : Nat) : RegFld := ⟨ENG_C_CTRL.reg i, 31, 1⟩
/-- ENG_C_STS[i] (R240). -/
def ENG_C_STS.reg (i : Nat) : Nat := 0x2181004 + 0x200000 * i
/-- ENG_C_STS.PSTATE (R240). -/
def ENG_C_STS.PSTATE (i : Nat) : RegFld := ⟨ENG_C_STS.reg i, 0, 2⟩
/-- ENG_C_HALT_STS[i] (R240). -/
def ENG_C_HALT_STS.reg (i : Nat) : Nat := 0x2181008 + 0x200000 * i
/-- ENG_C_HALT_STS.HALT (R240). -/
def ENG_C_HALT_STS.HALT (i : Nat) : RegFld := ⟨ENG_C_HALT_STS.reg i, 0, 8⟩
/-- ENG_C_EVT_EN[i] (R240). -/
def ENG_C_EVT_EN.reg (i : Nat) : Nat := 0x218100C + 0x200000 * i
/-- ENG_C_EVT_EN.HALT (R240). -/
def ENG_C_EVT_EN.HALT (i : Nat) : RegFld := ⟨ENG_C_EVT_EN.reg i, 0, 1⟩
/-- ENG_C_RX[i, j] (R240). -/
def ENG_C_RX.reg (i : Nat) (j : Nat) : Nat := 0x2181400 + 0x200000 * i + 0x4 * j
/-- ENG_C_RX.EN (R240). -/
def ENG_C_RX.EN (i : Nat) (j : Nat) : RegFld := ⟨ENG_C_RX.reg i j, 0, 1⟩
/-- ENG_C_RX.TYPES (R240). -/
def ENG_C_RX.TYPES (i : Nat) (j : Nat) : RegFld := ⟨ENG_C_RX.reg i j, 8, 8⟩
/-- SUP_CTRLN[i] (R241). -/
def SUP_CTRLN.reg (i : Nat) : Nat := 0x3800000 + 0x1000 * i
/-- SUP_CTRLN.DBG_EN (R241). -/
def SUP_CTRLN.DBG_EN (i : Nat) : RegFld := ⟨SUP_CTRLN.reg i, 8, 1⟩
/-- SUP_STS[i] (R241). -/
def SUP_STS.reg (i : Nat) : Nat := 0x3800004 + 0x1000 * i
/-- SUP_STS.STATE (R241). -/
def SUP_STS.STATE (i : Nat) : RegFld := ⟨SUP_STS.reg i, 0, 2⟩
/-- SUP_STS.HALT_CAUSE (R241). -/
def SUP_STS.HALT_CAUSE (i : Nat) : RegFld := ⟨SUP_STS.reg i, 4, 4⟩
/-- SUP_BP[i, j] (R241). -/
def SUP_BP.reg (i : Nat) (j : Nat) : Nat := 0x3800010 + 0x1000 * i + 0x4 * j
/-- SUP_BP.ADDR (R241). -/
def SUP_BP.ADDR (i : Nat) (j : Nat) : RegFld := ⟨SUP_BP.reg i j, 2, 30⟩
/-- SUP_BP.EN (R241). -/
def SUP_BP.EN (i : Nat) (j : Nat) : RegFld := ⟨SUP_BP.reg i j, 0, 1⟩
/-- SUP_CNT_INSN[i] (R241). -/
def SUP_CNT_INSN.reg (i : Nat) : Nat := 0x3800020 + 0x1000 * i
/-- SUP_CNT_INSN.COUNT (R241). -/
def SUP_CNT_INSN.COUNT (i : Nat) : RegFld := ⟨SUP_CNT_INSN.reg i, 0, 32⟩
/-- SUP_IRQ[i, j] (R241). -/
def SUP_IRQ.reg (i : Nat) (j : Nat) : Nat := 0x3800100 + 0x1000 * i + 0x4 * j
/-- SUP_IRQ.CH (R241). -/
def SUP_IRQ.CH (i : Nat) (j : Nat) : RegFld := ⟨SUP_IRQ.reg i j, 0, 7⟩
/-- SUP_IRQ.EN (R241). -/
def SUP_IRQ.EN (i : Nat) (j : Nat) : RegFld := ⟨SUP_IRQ.reg i j, 7, 1⟩
/-- SUP_CTRL (R241). -/
def SUP_CTRL.reg : Nat := 0x3808000
/-- SUP_CTRL.MEM_LOCK (R241). -/
def SUP_CTRL.MEM_LOCK : RegFld := ⟨SUP_CTRL.reg, 0, 1⟩
/-- SUP_CTRL.LOCK (R241). -/
def SUP_CTRL.LOCK : RegFld := ⟨SUP_CTRL.reg, 31, 1⟩
/-- CLK_OUTX_CFG[i] (R387). -/
def CLK_OUTX_CFG.reg (i : Nat) : Nat := 0x40100A0 + 0x10 * i
/-- CLK_OUTX_CFG.EN (R387). -/
def CLK_OUTX_CFG.EN (i : Nat) : RegFld := ⟨CLK_OUTX_CFG.reg i, 31, 1⟩

end Sys2Proof.Machine
end

