-- ==== Sys2Proof/Inputs.lean ====
section
/-! DEFINITION. The operands of the commands: what the air, the antennas, the pins, the PCIe host and the analogue parts hand the
device at an event, and who makes a register access. The spec's rules decide what the device does with them. -/

namespace Sys2Proof

/-- Who makes a register access: the physical function, virtual function n (partition n), or supervisor core n (R199). -/
inductive Fn where
  | pf
  | vf (n : Nat)
  | sv (n : Nat)
  deriving DecidableEq, Repr

/-- A register access: a write of the low bytes of a word, or a read. -/
inductive Access where
  | write (v : Word)
  | read
  deriving DecidableEq, Repr

/-- The answer of a DMA read of host memory: the octets, or a failure on PCIe (R274). -/
inductive Dma where
  | data (bytes : List Byte)
  | fail
  deriving DecidableEq, Repr

/-- What one search point correlates at one step: per antenna the power of the normalised preamble correlation and the complex
amplitude it shows, with the residual carrier offset (R45, R52). -/
structure PointObs where
  point : Nat
  corr : List Nat
  resid : Int
  amps : List (Int × Int)
  deriving DecidableEq, Repr

/-- One point's noise over a 1 ms block: per antenna the power, in units of 2^-40 of the power that a full-scale sine gives in the
point's channel (R47, R68). -/
structure NoiseObs where
  point : Nat
  power : List Nat
  deriving DecidableEq, Repr

/-- What a lane measures of its frame (R95): per antenna the internal power in 1/16 dBFS of its channel-stream samples, each with
its reference-plane tick; the decision SNR, the error vector magnitude and the carrier offset. -/
structure Quality where
  power : List (List (Nat × Int))
  snr : Int
  evm : Nat
  fofs : Int
  deriving DecidableEq, Repr

/-- An address of a MAC header: absent, reserved mode 0b01, short or extended. -/
inductive Addr where
  | none
  | reserved
  | short (a : BitVec 16)
  | ext (a : BitVec 64)
  deriving DecidableEq, Repr

/-- How a two-wire controller's target answers: how many address tries are not acknowledged, how many data octets it accepts,
the octets it sends, and whether arbitration is lost (R412). -/
structure TwbTarget where
  addrNacks : Nat
  accepts : Nat
  sends : List Byte
  arbLost : Bool
  deriving DecidableEq, Repr


end Sys2Proof
end

