-- ==== Sys2Proof/Syntax.lean ====
section
/-! DEFINITION. The commands the device takes, one constructor per row of the operation table. The table gives its rows no bits,
so the operands here are the model's: the objects a command names and what the outside hands it (log entry 4). -/

namespace Sys2Proof

/-- A command or event of the device. -/
inductive Instr where
  /-- VDD_ANA and then the other supplies rise in order and PWR_GOOD is raised, leading to the release of a power-on CHIP reset (R427). -/
  | powerOn (ordered : Bool)
  /-- RESET_N held low for at least 1 µs resets the CHIP domain and everything it contains (R30). -/
  | resetNLow (ns : Nat)
  /-- PWR_GOOD low while PWR_EN is active, or VDD_CORE below V_BO, causes a CHIP reset with cause 0x3 (R428). -/
  | brownOut (good deep : Bool)
  /-- Loss of both VDD_ANA and VBAK resets the AON domain, making time untrusted and zeroing the start counter (R30). -/
  | aonReset
  /-- A TOP_RESET write with FULL and KEY 0xC1A5 requests a CHIP reset (R30). -/
  | fullReset (f : Fn) (key : Nat)
  /-- A TOP_RESET write with RADIO and the key, or the clock monitor, resets the RADIO domain: lanes end, staging is squashed and memories are cleared (R30). -/
  | radioReset (f : Fn) (key : Nat)
  /-- After a RADIO reset the loader re-checks the active base image and reapplies its RADIO-scope sections and RADIO lock bits (R315). -/
  | radioReload
  /-- PCIe link down, hot reset or a physical-function FLR returns all functions to defaults and disables every port (R30). -/
  | hostReset
  /-- A function-level reset of a virtual function applies the PORTS-scope partition reset to its partition (R209). -/
  | vfFlr (n : Nat)
  /-- On CHIP reset release, SV0 runs the boot ROM: the start counter and record, the boot block, slot choice and base load, ending in seedling mode or a jump to supervisor memory (R328). -/
  | boot (locks1 locks2 : Bool)
  /-- The start watchdog expires without DRIVER_OK, sets reason WATCHDOG and causes a CHIP reset (R326). -/
  | startWatchdogExpiry
  /-- Writing DRIVER_OK clears the start counter, closes the attempt with reason OK and stops the watchdog (R325). -/
  | driverOk (f : Fn)
  /-- A write to a register field with no behaviour of its own takes effect according to the field's access type (R13). -/
  | registerWrite (f : Fn) (off size : Nat) (acc : Access)
  /-- At each correlation-step boundary of a rate, every point computes its score over untainted antennas and may detect (R45). -/
  | correlationStep (b t : Nat) (obs : List PointObs)
  /-- At the end of each 1 ms block, each point updates its per-antenna noise estimate unless it detected or the antenna was tainted (R47). -/
  | noiseBlock (b t : Nat) (obs : List NoiseObs)
  /-- Once per 10 ms per antenna in AUTO mode, the gain loop raises or lowers the attenuation by 1 dB from the peak power (R55). -/
  | routineStep (n : Nat) (peak mean : Int)
  /-- The first over-range sample of an episode sets CNP_OVR_STS, raises OVR and taints both slices of the antenna (R58). -/
  | overRange (n t samples : Nat)
  /-- At T + 64 and then every 1,536 ticks while over-range persists, a forced step raises the attenuation, or sets ATT_MAX at the maximum (R56). -/
  | forcedStep (n : Nat)
  /-- An over-range episode ends when 1,536 ticks pass with no over-range sample (R58). -/
  | overRangeEpisodeEnd (n : Nat)
  /-- A write to CNP_ANT_EN removes antennas from search at once or taints newly enabled ones for t_clean (R53). -/
  | antennaEnableWrite (f : Fn) (v : Word)
  /-- A write of MAN_ATT is stored, and in MANUAL mode it moves the attenuation at once, clamped to the limits (R54). -/
  | manAttWrite (f : Fn) (n v : Nat)
  /-- A write to CNP_ATT_LIMn is refused if MIN exceeds MAX, and otherwise may step the attenuation to the nearer limit (R57). -/
  | attLimWrite (f : Fn) (n mn mx : Nat)
  /-- A write of CNP_DLYn.DELAY changes the antenna trim at the next CLK_DSP cycle and taints that antenna (R37). -/
  | trimWrite (f : Fn) (n v : Nat)
  /-- Clears the canopy block counters (R68). -/
  | cnpCntClrBlock (f : Fn)
  /-- Clears every CNP_PT_DETp (R68). -/
  | cnpCntClrPoints (f : Fn)
  /-- Clears the per-antenna over-range and forced-step counters (R68). -/
  | cnpCntClrAnt (f : Fn)
  /-- CNP_CAP_CTRL.ARM checks the capture configuration and either requests power leave or moves to ABORTED with cause 0x4 (R67). -/
  | arm (f : Fn)
  /-- CNP_CAP_CTRL.ABORT moves a waiting, armed or filling capture to ABORTED with cause 0x1 and returns its leave (R67). -/
  | captureAbort (f : Fn)
  /-- CNP_CAP_CTRL.FORCE_TRIG fires the trigger of an ARMED capture (R65). -/
  | forceTrig (f : Fn)
  /-- The selected trigger fires (ATB match, event pulse, over-range or candidate) and the capture moves from ARMED to POST (R65). -/
  | captureTrigger
  /-- When the post-trigger part is full, the capture becomes DONE, records its indices and ATB, and returns its leave (R66). -/
  | captureDone (air : List (Int × Int))
  /-- The allocator takes a candidate from the queue and grants the lowest free lane, or drops it into LNE_CNT_EXHAUST (R70). -/
  | candidateAllocation
  /-- A lane finds its SFD or Reach sync word, freezes its gain and stamps the SFD timestamp (R89). -/
  | sfdFound (l t128 : Nat) (coded : Bool) (levels : List Int) (amps : List (Int × Int))
  /-- A lane that can no longer find an SFD within SFD_TO is released with cause 0x2 (R89). -/
  | sfdTimeout (l : Nat)
  /-- When the PHY header is known, it is checked, and a failing frame releases its lane with cause 0x3 (R90). -/
  | phyHeaderCheck (l w : Nat) (mate : Option Nat)
  /-- The link controller takes a lane header item, filters it in order, looks up the source and answers acceptance with attribution or a reject reason (R143). -/
  | laneHeader (l : Nat) (octs : List Byte)
  /-- A lane receives the answer to its header and is rejected with cause 0x4 or attributed to a partition (R91). -/
  | headerAnswer (l : Nat)
  /-- A lane hands a 64-byte PSDU cell to the queue fabric, which allocates it or refuses it and so stops the lane (R193). -/
  | receiveCell (l : Nat) (d : BitVec 512)
  /-- The queue fabric accepts a lane's descriptor cell and the lane is released with cause 0x0 (or 0x7 for an FCS_BAD frame) (R94). -/
  | descriptorCell (l : Nat)
  /-- The link controller takes a lane's frame-end item with its FCS result and decides whether to acknowledge (R92). -/
  | frameEnd (l : Nat) (rest : List Byte) (q : Quality)
  /-- A lane that has not handed over all cells within 1 ms of the frame's end drops the frame with cause 0x8 (R24). -/
  | deliveryDrop (l : Nat)
  /-- Clears the lane block counters and resets LNE_POOL_MIN (R98). -/
  | lneCntClrBlock (f : Fn)
  /-- Clears every LNE_PCNTp and resets each PEAK to IN_USE (R98). -/
  | lneCntClrPart (f : Fn)
  /-- Clears every LNE_FLT_CNTk (R98). -/
  | lneCntClrFlt (f : Fn)
  /-- Once its predecessors have committed and a receive context is free, a frame passes the pre-checks and its verify job is issued, or it fails without a job (R254). -/
  | verifyIssue (k : Nat)
  /-- A verify result returns: a failing frame is discarded and counted, and a verified frame proceeds to commit (R255). -/
  | verifyResult (k : Nat)
  /-- Once FCS, descriptor acceptance and any MIC have all happened, a frame commits, updating RX_FC, sequence state, drift model and statistics (R156). -/
  | frameCommit (k : Nat)
  /-- When a delivery credit of the partition's share is free, a committed frame's descriptor goes to the lowest qualifying cluster (R225). -/
  | engineDelivery (k : Nat)
  /-- When a POST_RX buffer waits, a committed frame is written into it with its descriptor and the command completes RX_OK or RX_TRUNC (R288). -/
  | rxDelivery (k : Nat)
  /-- At E + 2,048 the acknowledgement is built with its pending bit and staged in an acknowledgement slot, or counted as not sent (R149). -/
  | ackBuild (k : Nat)
  /-- An acknowledgement wait closes without a match, and a retry is placed or the command ends NO_ACK or EXPIRED (R159). -/
  | ackWaitClose (k : Nat)
  /-- A transmit command's deadline passes before any attempt, or prevents a retry, and the command ends EXPIRED (R160). -/
  | deadlineExpiry (h : Nat)
  /-- The scheduler takes a head item and places it by node class, with a wake-up sequence for class D, after the airtime check (R165). -/
  | schedulerPlace (h : Nat)
  /-- At each airtime period boundary, USED is copied to AIR_LAST and reset, and deferred placements retry (R206). -/
  | airtimePeriodBoundary
  /-- At slot start minus LEAD, the link controller reads the slot's cells and executes transmit, receive and BCAST cells (R170). -/
  | tschSlotRead (asn : Nat)
  /-- A sequencer state reaches its BASE plus DELAY instant, evaluates COND and performs its action or moves to ALT (R174). -/
  | sequencerState (k : Nat)
  /-- A sequencer instance that has run 8,000,000 ticks ends and is counted in LNK_CNT_SEQ_CLAMP (R173). -/
  | sequencerClamp (k : Nat)
  /-- Staging accepts a schedule item into a FREE entry, or misses it at once with cause 0x7 if its commit instant has passed (R115). -/
  | scheduleItem
  /-- When the horizon reaches a SCHEDULED entry and cells are granted, staging builds its PHY header, issues its encrypt job and writes its coded bits (R113). -/
  | prepare (e : Nat)
  /-- An encrypt result returns and the entry becomes READY, or the result is discarded for a squashed entry (R112). -/
  | encryptResult (e : Nat)
  /-- At the later of air time − 4,096 and READY, priming loads the correction entry, ramp, frequency, amplitude and first coded bits (R116). -/
  | priming (e : Nat)
  /-- Priming completes within 1,024 ticks and the entry becomes PRIMED (R116). -/
  | primed (e : Nat)
  /-- At air time − REQ_LEAD, or at the entry's arrival if that is later, COEX_REQ asserts for a covered frame (R132). -/
  | coexRequest (e : Nat)
  /-- At air time − 2,080 the coexistence grant is sampled, and in ENFORCED mode a frame without a grant misses with cause 0x5 (R133). -/
  | grantSample (e gnt : Nat)
  /-- At air time − 2,048 the chain checks samples ready, a carrier and amplitude, and power leave, and commits the frame or misses its window (R119). -/
  | commit (e : Nat)
  /-- At air time − T_UP the carrier ramps up, the front-end enables assert, and the entry is ON_AIR (R112). -/
  | rampUp (e : Nat)
  /-- The ramp-down ends and the carrier and its leave are released; the entry becomes HELD, or FREE with SENT (R112). -/
  | rampDownEnd (e : Nat)
  /-- COEX_REQ deasserts at end + T_DOWN + REQ_HOLD of the last frame in its scope (R132). -/
  | coexRelease (k : Nat)
  /-- IDLE_HOLD × 32 ticks after its last carrier is released, a chain returns to IDLE and returns its activation leave (R121). -/
  | chainIdle (n : Nat)
  /-- TXC_CHn_CTRL.KILL faults chain n with cause 0, and its carriers take the faulted ramp-down and latch FAULT (R128). -/
  | kill (f : Fn) (n : Nat)
  /-- A pulse on an enabled chain fault event channel faults that chain with cause 1 (R128). -/
  | chainFaultEvent (n : Nat)
  /-- A parity error or poison on a coded-stream cell ramps down that one carrier without latching the chain (R128). -/
  | cellFault (e : Nat)
  /-- TXC_CHn_CTRL.FAULT_CLR returns a latched chain to IDLE only if its fault cause bits are clear (R130). -/
  | faultClr (f : Fn) (n : Nat)
  /-- TXC_CORR_CMD write copies TXC_CORR_DATA into a correction entry atomically with respect to priming (R107). -/
  | corrWrite (f : Fn) (n x : Nat)
  /-- TXC_CORR_CMD read copies a correction entry into TXC_CORR_DATA (R107). -/
  | corrRead (f : Fn) (n x : Nat)
  /-- TXC_CORR_CMD clears VALID of a correction entry (R107). -/
  | clearValid (f : Fn) (n x : Nat)
  /-- Every 100 ms each chain derives a temperature gain correction for carriers primed later (R108). -/
  | tempGainDerive
  /-- Clears the TXC block counters (R134). -/
  | txcCntClrBlock (f : Fn)
  /-- Clears every per-chain commit and fault counter (R134). -/
  | txcCntClrChain (f : Fn)
  /-- Clears every coexistence counter (R134). -/
  | txcCntClrCoex (f : Fn)
  /-- A write to LNK_CMPk_HI arms comparator k, firing at once with LATE if the value has passed (R136). -/
  | cmpArmWrite (f : Fn) (k hi : Nat)
  /-- An armed comparator fires when the ATB equals its value, setting FIRED and pulsing its event channel (R136). -/
  | comparatorFire (k : Nat)
  /-- LNK_CMPk_CTRL.DISARM clears ARMED without firing (R137). -/
  | disarm (f : Fn) (k : Nat)
  /-- A write making two enabled PAN entries share a PAN_ID on overlapping grids is refused and sets LNK_PAN_ERR (R144). -/
  | panEntryWrite (f : Fn) (k w : Nat) (v : Word)
  /-- A write of 1 to LNK_TSCH_CTRL.EN is refused if the timeslot template breaks a condition (R168). -/
  | tschEnableWrite (f : Fn) (en : Bool)
  /-- A live cell write applies from the next slot read, and is refused if it names a node of another partition (R170). -/
  | tschCellWrite (f : Fn) (c w : Nat) (v : Word)
  /-- Clears the LNK block counters (R175). -/
  | lnkCntClrBlock (f : Fn)
  /-- Clears every LNK_PCNTp (R175). -/
  | lnkCntClrPart (f : Fn)
  /-- ADD writes a FREE context, inserts its keys and makes it ACTIVE, or fails with its status (R183). -/
  | nodeOpAdd (f : Fn) (v : Word)
  /-- UPDATE rewrites host-owned fields, re-indexes addresses, squashes the node's staging entries and clears POISON (R184). -/
  | nodeOpUpdate (f : Fn) (v : Word)
  /-- PRUNE makes the context PRUNING and squashes the node's uncommitted entries (R186). -/
  | nodeOpPrune (f : Fn) (v : Word)
  /-- READ checks parity and copies the context and its hidden state into the result (R183). -/
  | nodeOpRead (f : Fn) (v : Word)
  /-- QSET sets or clears QHOLD and may clear QOVR (R183). -/
  | nodeOpQset (f : Fn) (v : Word)
  /-- Once the node has nothing on the air or in a lane, its queued items end PRUNED, its keys are removed and the handle becomes FREE (R186). -/
  | pruneComplete (h : Nat)
  /-- The sweep scan ends: the node's cells are freed, head and tails reset, QLEN reset to staged items, and the context returns to ACTIVE (R196). -/
  | sweepDone (h : Nat)
  /-- A read of word 0 of a context through NTW captures all 16 words into a shadow and checks their parity (R198). -/
  | ntwCapture (f : Fn) (h : Nat)
  /-- A write to the NTW window has no effect, is counted and raises NTW_WR (R198). -/
  | ntwWrite (f : Fn) (off : Nat) (v : Word)
  /-- A live write of QUE_RX_RESERVE that would break the cell sum is refused and sets PRT_MAP_ERR (R204). -/
  | rxReserveWrite (f : Fn) (v : Nat)
  /-- Clears the QUE counters and resets QUE_FREE_MIN (R197). -/
  | queCntClrBlock (f : Fn)
  /-- Clears every QUE_PFULLp (R197). -/
  | queCntClrPart (f : Fn)
  /-- A live change of a partition map owner takes effect only if the resource is idle, and otherwise sets PRT_MAP_ERR (R212). -/
  | mapEntryWrite (f : Fn) (off : Nat) (v : Word)
  /-- A live share write that would break a guarantee sum is refused; a cap lowered below use is accepted (R204). -/
  | shareWrite (f : Fn) (off : Nat) (v : Word)
  /-- A write of PRT_Pp_CFG.EN activates a DISABLED partition, or disables an ACTIVE one only if it holds nothing (R439). -/
  | partitionEnableWrite (f : Fn) (p : Nat) (en : Bool)
  /-- PRT_Pp_RESET FULL starts a partition reset: RESETTING, ports disabled, squash, engines reset and a cell scan (R210). -/
  | full (f : Fn) (p : Nat)
  /-- PRT_Pp_RESET DEPART runs a FULL reset that also prunes nodes, erases key slots and disables PAN entries and cells (R209). -/
  | depart (f : Fn) (p : Nat)
  /-- The partition's cell scan and prunes end, counters clear, STATE becomes ACTIVE or DISABLED and PRST_DONE is raised (R210). -/
  | partitionResetDone (p : Nat)
  /-- PRT_FLT_POP removes the oldest bark fault log entry (R202). -/
  | fltPop (f : Fn)
  /-- Clears the PRT broadcast counters (R213). -/
  | prtCntClrBlock (f : Fn)
  /-- Clears every PRT_PCNTp (R213). -/
  | prtCntClrPart (f : Fn)
  /-- rd = ra + rb (R218). -/
  | add (c rd ra rb : Nat)
  /-- rd = ra − rb (R218). -/
  | sub (c rd ra rb : Nat)
  /-- rd = ra AND rb (R218). -/
  | andr (c rd ra rb : Nat)
  /-- rd = ra OR rb (R218). -/
  | orr (c rd ra rb : Nat)
  /-- rd = ra XOR rb (R218). -/
  | xorr (c rd ra rb : Nat)
  /-- rd = ra shifted left by rb[4:0] (R218). -/
  | sll (c rd ra rb : Nat)
  /-- rd = ra shifted right logically by rb[4:0] (R218). -/
  | srl (c rd ra rb : Nat)
  /-- rd = ra shifted right arithmetically by rb[4:0] (R218). -/
  | sra (c rd ra rb : Nat)
  /-- rd = 1 if ra < rb signed, else 0 (R218). -/
  | slt (c rd ra rb : Nat)
  /-- rd = 1 if ra < rb unsigned, else 0 (R218). -/
  | sltu (c rd ra rb : Nat)
  /-- rd = the signed minimum of ra and rb (R218). -/
  | min (c rd ra rb : Nat)
  /-- rd = the signed maximum of ra and rb (R218). -/
  | max (c rd ra rb : Nat)
  /-- rd = the low 32 bits of ra × rb (R218). -/
  | mul (c rd ra rb : Nat)
  /-- rd = the high 32 bits of the unsigned product (R218). -/
  | mulhu (c rd ra rb : Nat)
  /-- rd = the high 32 bits of the signed product (R218). -/
  | mulh (c rd ra rb : Nat)
  /-- rd = ra ÷ rb unsigned, or 0xFFFF_FFFF if rb is zero (R218). -/
  | divu (c rd ra rb : Nat)
  /-- rd = ra mod rb unsigned, or ra if rb is zero (R218). -/
  | remu (c rd ra rb : Nat)
  /-- rd = the leading zeros of ra (R218). -/
  | clz (c rd ra : Nat)
  /-- rd = the number of bits set in ra (R218). -/
  | popc (c rd ra : Nat)
  /-- rd = ra with its bytes reversed (R218). -/
  | bswap (c rd ra : Nat)
  /-- rd = ra + the sign-extended IMM16 (R218). -/
  | addi (c rd ra imm : Nat)
  /-- rd = ra AND the zero-extended IMM16 (R218). -/
  | andi (c rd ra imm : Nat)
  /-- rd = ra OR the zero-extended IMM16 (R218). -/
  | ori (c rd ra imm : Nat)
  /-- rd = ra XOR the zero-extended IMM16 (R218). -/
  | xori (c rd ra imm : Nat)
  /-- Signed set-less-than against IMM16 (R218). -/
  | slti (c rd ra imm : Nat)
  /-- Unsigned set-less-than against IMM16 (R218). -/
  | sltiu (c rd ra imm : Nat)
  /-- rd = IMM16 << 16 (R218). -/
  | lui (c rd imm : Nat)
  /-- Shifts or rotates ra by an immediate amount (R218). -/
  | shi (c rd ra imm : Nat)
  /-- Extracts an unsigned bit field of ra (R218). -/
  | extu (c rd ra imm : Nat)
  /-- Inserts the low bits of ra into a field of rd (R218). -/
  | ins (c rd ra imm : Nat)
  /-- Loads a word from ra + IMM16 (R219). -/
  | lw (c rd ra imm : Nat)
  /-- Loads a sign-extended halfword (R219). -/
  | lh (c rd ra imm : Nat)
  /-- Loads a zero-extended halfword (R219). -/
  | lhu (c rd ra imm : Nat)
  /-- Loads a sign-extended byte (R219). -/
  | lb (c rd ra imm : Nat)
  /-- Loads a zero-extended byte (R219). -/
  | lbu (c rd ra imm : Nat)
  /-- Stores a word to ra + IMM16 (R219). -/
  | sw (c rd ra imm : Nat)
  /-- Stores a halfword (R219). -/
  | sh (c rd ra imm : Nat)
  /-- Stores a byte (R219). -/
  | sb (c rd ra imm : Nat)
  /-- Loads a word and sets the core's reservation (R221). -/
  | lr (c rd ra imm : Nat)
  /-- Stores if the word is reserved, returns success or failure and clears the reservation (R221). -/
  | sc (c rd ra rb : Nat)
  /-- Atomically reads a word and sets it to 1 (R221). -/
  | tas (c rd ra imm : Nat)
  /-- Branches if ra equals rb (R219). -/
  | beq (c ra rb off : Nat)
  /-- Branches if ra differs from rb (R219). -/
  | bne (c ra rb off : Nat)
  /-- Branches if ra < rb signed (R219). -/
  | blt (c ra rb off : Nat)
  /-- Branches if ra ≥ rb signed (R219). -/
  | bge (c ra rb off : Nat)
  /-- Branches if ra < rb unsigned (R219). -/
  | bltu (c ra rb off : Nat)
  /-- Branches if ra ≥ rb unsigned (R219). -/
  | bgeu (c ra rb off : Nat)
  /-- Branches if bit B of ra is set (R219). -/
  | bbs (c ra b off : Nat)
  /-- Branches if bit B of ra is clear (R219). -/
  | bbc (c ra b off : Nat)
  /-- Jumps by OFF26 words (R219). -/
  | j (c off : Nat)
  /-- Writes the return address to g31 and jumps (R219). -/
  | jal (c off : Nat)
  /-- Jumps to ra (R219). -/
  | jr (c ra : Nat)
  /-- Writes the return address to rd and jumps to ra (R219). -/
  | jalr (c rd ra : Nat)
  /-- Opens a hardware loop with its count taken from ra (R220). -/
  | loop (c ra off : Nat)
  /-- Opens a hardware loop with the immediate count CNT10 (R220). -/
  | loopi (c cnt off : Nat)
  /-- Reads a system register into rd (R216). -/
  | mfs (c rd n : Nat)
  /-- Writes ra to a system register (R216). -/
  | mts (c n ra : Nat)
  /-- The Fekor NOP instruction does nothing for one cycle (R218). -/
  | nopInsn (c : Nat)
  /-- Waits until a condition selected by EVM is true (R223). -/
  | wfe (c : Nat)
  /-- A waiting WFE completes when a delivery, a notice, EVLAT or an interrupt condition becomes true (R223). -/
  | wfeWake (c : Nat)
  /-- Waits until every earlier store of the core has completed (R222). -/
  | fence (c : Nat)
  /-- Returns from an exception, restoring PC, EX and the privilege state (R234). -/
  | eret (c : Nat)
  /-- Raises the TRAP exception with a code (R233). -/
  | trap (c code : Nat)
  /-- Halts the core with cause BRK when DBG_EN is set, or raises the BRK exception (R236). -/
  | brk (c : Nat)
  /-- Halts the executing core with cause SELF (R218). -/
  | halt (c : Nat)
  /-- Copies the oldest waiting descriptor of the engine's partition into DMEM (R226). -/
  | qrx (c rd ra : Nat)
  /-- Copies a frame-store cell and its sideband word into DMEM (R226). -/
  | crd (c rd ra rb : Nat)
  /-- Releases a delivered frame and its cells (R226). -/
  | crel (c rd ra : Nat)
  /-- Writes an engine-origin item to a node queue (R227). -/
  | qwr (c rd ra rb : Nat)
  /-- Copies the oldest notice of the engine into DMEM (R228). -/
  | ntf (c rd ra : Nat)
  /-- The LCMD CANCEL code cancels an outstanding item of the engine as R160 states (R230). -/
  | lcmdCancel (c rd ra : Nat)
  /-- The LCMD CMP_ARM code arms comparator k with a 64-bit value (R230). -/
  | cmpArm (c rd ra : Nat)
  /-- The LCMD CMP_DISARM code disarms comparator k (R230). -/
  | cmpDisarm (c rd ra : Nat)
  /-- The LCMD CELL_WR code writes a TSCH cell of the engine's partition (R230). -/
  | cellWr (c rd ra : Nat)
  /-- The LCMD EVT_FIRE code fires an event channel of the engine's partition (R230). -/
  | evtFire (c rd ra : Nat)
  /-- A supervisor takes the lowest pending enabled interrupt line at an instruction boundary (R235). -/
  | interrupt (c : Nat)
  /-- With DBG_EN set, a core halts with cause BREAKPOINT before it executes an instruction at a breakpoint address (R236). -/
  | breakpoint (c : Nat)
  /-- ENG_En_CTRL.RUN resumes a halted engine, requesting cluster wake leave if the cluster is OFF (R236). -/
  | engineRun (f : Fn) (e : Nat)
  /-- ENG_En_CTRL.HALT halts the engine at the next instruction boundary (R236). -/
  | engineHalt (f : Fn) (e : Nat)
  /-- ENG_En_CTRL.STEP executes exactly one instruction and halts with cause STEP (R236). -/
  | engineStep (f : Fn) (e : Nat)
  /-- ENG_En_CTRL.RESET halts and clears the engine, discards its notices and zeroes its outstanding count (R237). -/
  | engineReset (f : Fn) (e : Nat)
  /-- CLEAR written with RESET starts zeroing the engine's IMEM, DMEM and shared segment (R237). -/
  | engineClear (f : Fn) (e : Nat)
  /-- After 10,240 cycles the memory clear ends and CLEARING clears (R237). -/
  | clearDone (e : Nat)
  /-- A write to IMEM is accepted only while the engine is halted and not clearing, and otherwise sets WR_REFUSED (R238). -/
  | imemWrite (f : Fn) (e off : Nat) (v : Word)
  /-- ENG_Cc_CTRL.WAKE requests power leave for the cluster wake, charged to P0 (R239). -/
  | wake (f : Fn) (c : Nat)
  /-- Within 2,048 cycles of its leave grant the cluster is ON, and a waiting RUN or STEP takes effect (R239). -/
  | clusterOn (c : Nat)
  /-- ENG_Cc_CTRL.SLEEP takes the cluster OFF and returns its leave if all its engines are halted (R239). -/
  | sleep (f : Fn) (c : Nat)
  /-- SUP_SVn_CTRL.RUN resumes a halted supervisor at its PC (R236). -/
  | supervisorRun (f : Fn) (n : Nat)
  /-- SUP_SVn_CTRL.HALT halts the supervisor at the next instruction boundary (R236). -/
  | supervisorHalt (f : Fn) (n : Nat)
  /-- SUP_SVn_CTRL.STEP executes one supervisor instruction and halts (R236). -/
  | supervisorStep (f : Fn) (n : Nat)
  /-- SUP_SVn_CTRL.RESET clears only the supervisor core (R241). -/
  | supervisorReset (f : Fn) (n : Nat)
  /-- SEC_KOP_CMD LOAD checks a blob in order and loads it into an EMPTY slot through an unwrap job (R246). -/
  | load (f : Fn) (slot : Nat) (long : Bool)
  /-- SEC_KOP_CMD REPLACE loads a blob into a LOADED or EXHAUSTED slot and squashes entries that use it (R247). -/
  | replace (f : Fn) (slot : Nat) (long : Bool)
  /-- SEC_KOP_CMD ERASE empties a slot and squashes entries that use it (R247). -/
  | erase (f : Fn) (slot : Nat) (long : Bool)
  /-- SEC_KOP_CMD STATUS returns a slot's state, attributes and TX_FC (R247). -/
  | status (f : Fn) (slot : Nat) (long : Bool)
  /-- A key operation, with its unwrap job, completes within 2,048 cycles and reports its status (R248). -/
  | kopDone
  /-- SEC_SEAL_CTRL seal encrypts supervisor memory data under a long slot with AES-256 CCM (R260). -/
  | sealOp (f : Fn) (long : Nat)
  /-- SEC_SEAL_CTRL unseal decrypts and checks supervisor memory data, writing it only if the tag verifies (R260). -/
  | unsealOp (f : Fn) (long : Nat)
  /-- A seal job ends and reports its status (R260). -/
  | sealDone
  /-- SEC_MARK_POP removes the oldest mark from the mark FIFO (R266). -/
  | markPop (f : Fn)
  /-- A detected alarm sets its bit and takes its action: ERASE, HALT or REPORT (R263). -/
  | alarm (a : Nat) (rx tx : Option Nat)
  /-- A write of 1 to a SEC_ALARM_STS bit clears it only if its cause is gone, possibly clearing the tamper latch (R265). -/
  | alarmClear (f : Fn) (v present : Nat)
  /-- A noise source health test fails, setting REP_FAIL or APT_FAIL and raising RNG_FAIL (R262). -/
  | rngHealthFail (apt : Bool)
  /-- After 1,024 noise samples pass the tests following a CHIP reset, SEC_RNG_STS.OK sets and jobs may issue (R262). -/
  | rngOk
  /-- The DRBG reseeds after 2^20 requests, or raises the RNG alarm if a health failure persists (R262). -/
  | reseed
  /-- Clears the SEC block counters (R266). -/
  | secCntClrBlock (f : Fn)
  /-- Clears every SEC_PCNTp (R266). -/
  | secCntClrPart (f : Fn)
  /-- A write of 1 to CFG.EN enables a port if every condition holds, and otherwise records ERR (R270). -/
  | portEnable (f : Fn) (q : Nat)
  /-- A write of 0 to CFG.EN ends the port's commands without completions and removes their items (R271). -/
  | portDisable (f : Fn) (q : Nat)
  /-- Once nothing remains in flight, STS.EN reads 0 and the host owns the rings again (R271). -/
  | portDisabled (q : Nat)
  /-- A write to SQ_TAIL submits the entries up to that index, or is ignored with ERR 0x7 if out of range (R272). -/
  | sqTail (f : Fn) (q v : Nat)
  /-- A write to CQ_HEAD returns completion entries to the device (R272). -/
  | cqHead (f : Fn) (q v : Nat)
  /-- The fetcher visits an enabled port and takes up to eight entries into command contexts (R273). -/
  | fetch (q : Nat) (d : Dma)
  /-- The NOP host command completes OK (R278). -/
  | nop (x : Nat)
  /-- TX reads the buffer and writes a transmit item to the node queue, or completes with an error (R279). -/
  | tx (x : Nat) (d : Dma)
  /-- CANCEL looks for its target on the port and cancels it, or completes CANCEL_TOO_LATE or CANCEL_NOT_FOUND (R286). -/
  | cancel (x : Nat)
  /-- POST_RX posts a receive buffer on the port (R288). -/
  | postRx (x : Nat)
  /-- RX_FLUSH completes every waiting POST_RX with FLUSHED and then completes OK (R289). -/
  | rxFlush (x : Nat)
  /-- NODE_ADD runs the ADD node operation for the port's partition (R282). -/
  | nodeAdd (x : Nat) (d : Dma)
  /-- NODE_UPDATE runs the UPDATE node operation (R282). -/
  | nodeUpdate (x : Nat) (d : Dma)
  /-- NODE_PRUNE runs the PRUNE node operation (R282). -/
  | nodePrune (x : Nat)
  /-- NODE_READ runs READ and writes the context to the host buffer (R282). -/
  | nodeRead (x : Nat)
  /-- NODE_QSET runs the QSET node operation (R282). -/
  | nodeQset (x : Nat)
  /-- NODE_EXPORT holds the queue, squashes entries, waits, writes the context and optionally prunes the node (R283). -/
  | nodeExport (x : Nat)
  /-- KEY_LOAD runs the LOAD key operation on the partition's slot (R282). -/
  | keyLoad (x : Nat) (d : Dma)
  /-- KEY_REPLACE runs the REPLACE key operation (R282). -/
  | keyReplace (x : Nat) (d : Dma)
  /-- KEY_ERASE runs the ERASE key operation (R282). -/
  | keyErase (x : Nat)
  /-- KEY_STATUS runs the STATUS key operation and returns the slot's state (R282). -/
  | keyStatus (x : Nat)
  /-- ENG_CTRL applies SET_PC, DBG_EN, RESET with CLEAR, HALT, STEP and RUN in that order to an engine of the partition (R281). -/
  | engCtrl (x : Nat)
  /-- ENG_WRITE writes host data into an engine's IMEM, DMEM, shared segment or register block (R281). -/
  | engWrite (x : Nat) (d : Dma)
  /-- ENG_READ reads an engine's memory or registers into a host buffer (R281). -/
  | engRead (x : Nat)
  /-- A ready completion entry is written to the completion ring when it has room, in order (R276). -/
  | completionWrite (q : Nat)
  /-- MOD.TIME µs after the first unannounced completion, the MSI-X message is sent (R291). -/
  | modTime (q : Nat)
  /-- CTRL.COMMIT accepts REQ into ACT, or reports REFUSED or BUSY (R294). -/
  | featureCommit (f : Fn)
  /-- At VF Enable, MSI-X vectors are allotted in order, and functions beyond 4,096 vectors are refused (R292). -/
  | vfEnable (num : Nat)
  /-- VF_CNT_CLR clears every counter of the partition's counter region (R295). -/
  | vfCntClr (n : Nat)
  /-- Clears the HST block counters and resets HST_CTX_MIN (R297). -/
  | hstCntClrBlock (f : Fn)
  /-- Clears every HST_PCNTp (R297). -/
  | hstCntClrPart (f : Fn)
  /-- FLC_IMG_CTRL START in mode BASE runs pass 1 and then applies the image, waiting for the synthesiser to lock (R313). -/
  | baseLoad (f : Fn) (sup locks : Bool)
  /-- FLC_IMG_CTRL START in mode LIVE checks a live image against the active base (R316). -/
  | liveLoad (f : Fn) (sup : Bool)
  /-- Each live section switches at its own point, PARTMAP after re-checking its conditions (R317). -/
  | liveSwitch
  /-- FLC_IMG_CTRL.ABORT ends a live load with ABORTED (R318). -/
  | loadAbort (f : Fn)
  /-- A load completes: lock bits are set, supervisors start and STATE becomes ACTIVE or LIVE (R313). -/
  | loadDone
  /-- CHECK runs pass 1 on the non-active slot and gives CHECKED or NONE (R333). -/
  | graftCheck (f : Fn) (v : Word)
  /-- ARM writes the boot block with TRIAL set (R333). -/
  | graftArm (f : Fn) (v : Word)
  /-- CONFIRM makes the running slot ACTIVE in the boot block (R333). -/
  | confirm (f : Fn) (v : Word)
  /-- RAISE_FLOOR with CONFIRM raises the anti-rollback floor permanently (R335). -/
  | raiseFloor (f : Fn) (v : Word)
  /-- WITHDRAW clears TRIAL and records LAST_GRAFT withdrawn (R333). -/
  | withdraw (f : Fn) (v : Word)
  /-- A graft operation completes and its state and code are reported (R334). -/
  | graftDone
  /-- A ledger WRITE seals the stream and writes it to the losing copy in a crash-safe order (R340). -/
  | write (f : Fn) (v : Word)
  /-- A ledger READ picks the valid winning copy, restores it to supervisor memory and repairs the other copy (R339). -/
  | read (f : Fn) (v : Word)
  /-- RESET_GEN returns an area's high-water GEN to zero if both of its copies are erased (R341). -/
  | resetGen (f : Fn) (v : Word)
  /-- A ledger operation ends with its status (R342). -/
  | ldgDone
  /-- Fuses a signer key hash at an index (R336). -/
  | programKey (f : Fn) (v : Word)
  /-- Blows a signer key's revocation fuse (R336). -/
  | revokeKey (f : Fn) (v : Word)
  /-- Fuses the failed-start limit (R336). -/
  | setLimit (f : Fn) (v : Word)
  /-- A fuse operation ends with its status within 20 ms (R336). -/
  | fuseDone (fail : Bool)
  /-- FLC_CMD PROGRAM checks and then programs and verifies up to 16 words (R347). -/
  | program (f : Fn) (v : Word)
  /-- FLC_CMD ERASE_SECTOR sets the erase-open mark, erases the sector and clears the mark (R352). -/
  | eraseSector (f : Fn) (v : Word)
  /-- FLC_CMD ERASE_BLOCK erases 16 sectors under their marks (R352). -/
  | eraseBlock (f : Fn) (v : Word)
  /-- SUSPEND ends the erase pulse in progress and returns the erase's leave (R351). -/
  | suspend (f : Fn) (v : Word)
  /-- RESUME requests leave again and continues a suspended erase (R351). -/
  | resume (f : Fn) (v : Word)
  /-- FLC_CMD ABORT ends a pending or leave-waiting flash operation with ABORTED (R346). -/
  | abort (f : Fn) (v : Word)
  /-- A flash program or erase ends with its status and returns its leave (R346). -/
  | opDone (fail spares : List Nat)
  /-- A flash window read returns data or status with a KIND, counting and logging ECC events (R350). -/
  | windowRead (f : Fn) (off flips : Nat)
  /-- VDD_ANA below V_FW or a core brown-out warning ends the flash pulse and writes FLC_BO_LOG (R354). -/
  | flashBrownOut (pos : Nat)
  /-- PWR_CMD TARGET RUN returns the device to RUN, or wakes it from WATCH (R359). -/
  | run (f : Fn)
  /-- PWR_CMD TARGET TRIM reduces the antennas, chains and point classes in use (R360). -/
  | trim (f : Fn)
  /-- PWR_CMD TARGET WATCH checks the clusters, runs a transmit quiescence and enters WATCH (R361). -/
  | watch (f : Fn)
  /-- PWR_CMD TARGET DORMANT checks its conditions and runs a full quiescence before entry (R363). -/
  | dormant (f : Fn)
  /-- A quiescence that does not complete within PWR_QUIESCE_TMO ends the request TIMEOUT (R362). -/
  | quiescenceTimeout
  /-- Once the PCIe link reaches L2/L3 Ready or goes down, keys are zeroised if not retained, banks move to retention and PWR_EN deasserts (R363). -/
  | linkL2Ready
  /-- WAKE_IN reaching its active level for two XK periods wakes the device (R366). -/
  | wakeIn (lvl : Bool)
  /-- The air wake detector matches a Reach wake frame, counts it and wakes the device from WATCH (R366). -/
  | airWake (chan sf : Nat) (d : List Byte)
  /-- When PWR_GOOD rises after a wake, isolation releases and the boot ROM reloads the base and resumes from DORMANT (R368). -/
  | wakeReturn (locks : Bool)
  /-- If PWR_GOOD does not rise within WAKE_TMO, PWR_EN deasserts and WAKE_FAIL sets (R368). -/
  | wakeTimeout
  /-- A retention rail sag or VDD_ANA loss in DORMANT loses the retained banks and sets RET_LOST (R365). -/
  | retentionLoss
  /-- Loss of VDD_ANA moves the AON domain onto VBAK (R375). -/
  | holdover
  /-- The arbiter grants the head waiter's leave once it fits within the budget minus the reserve (R372). -/
  | leaveGrant
  /-- Every 1 ms the die temperature is sampled, and four consecutive samples trip or release the temperature trip (R374). -/
  | tempSample (temp : Int)
  /-- The cell voltage is measured, setting LOW, stopping or restarting the shield monitor and checking the gauge (R376). -/
  | vbakMeasure (mv uah : Nat)
  /-- PWR_GAUGE_CAL.RECAL sets REM to the capacity and clears UNKNOWN (R376). -/
  | recal (f : Fn)
  /-- Clears every counter of the PWR block (R377). -/
  | pwrCntClr (f : Fn)
  /-- Setting CLK_SYN_CTRL.EN starts synthesiser acquisition on the stored band or with a full search (R379). -/
  | synEnable (f : Fn)
  /-- The synthesiser declares lock and stores its band and temperature (R379). -/
  | synLock (band us : Nat)
  /-- Four missing REFIN periods put the synthesiser into free-run (R380). -/
  | refLoss
  /-- After 1,024 valid REFIN cycles the synthesiser pulls FS back to lock and clears FREE_RUN (R380). -/
  | refBack
  /-- Loss of lock with REFIN present requests a RADIO reset, switches clocks to FIO and restarts acquisition (R381). -/
  | synUnlock
  /-- At the selected release edge the dividers restart at SYNC_DLY after it (R382). -/
  | alignerRelease
  /-- With SRC SYNCIN and no SYNCIN edge within 40 ms, release falls back to REFIN and SYNC_MISSING sets (R382). -/
  | syncMissing
  /-- 2,048 REFIN cycles after release, aligner lock is declared and the clocks switch to FS (R382). -/
  | alnLock
  /-- Each SYNCIN edge is captured and compared, stepping the family's phase or recording a slip (R384). -/
  | syncinEdge (t ph : Nat)
  /-- No SYNCIN edge arrives by the expected instant plus TOL, and a slip is recorded (R384). -/
  | syncSlip
  /-- In GENERATE mode a SYNCOUT pulse begins at each ATB with t mod PERIOD equal to OFS (R386). -/
  | syncoutPulse
  /-- Setting or clearing CLK_OUTn_CFG.EN starts or stops CLKOUTn at a clean phase (R387). -/
  | clkoutEnable (f : Fn) (n : Nat) (en : Bool)
  /-- After CLK_TB restarts, the ATB loads the value bridged from the XK count, or A + 1 if the gap is unmeasured (R388). -/
  | atbBridge
  /-- At each RTC_SUBSEC wrap the seconds count increments, with calibration, and the second event pulses (R390). -/
  | rtcSecond
  /-- No XK edge for 1 ms sets XK_FAIL and stops the RTC (R390). -/
  | xkFail
  /-- The first read of an RTC time register freezes all three into shadows, and a read of RTC_SEC_HI releases them (R391). -/
  | rtcFreeze (f : Fn) (r : Nat)
  /-- A freeze held for 2 s ends and sets STALE (R391). -/
  | freezeTimeout
  /-- Setting or clearing HALT stops or resumes RTC counting at the next XK edge (R392). -/
  | rtcHaltWrite (f : Fn) (h : Bool)
  /-- A write of RTC_SEC_HI loads the seconds count, clears RTC_SUBSEC and may clear UNTRUSTED (R392). -/
  | secondsWrite (f : Fn) (hi : Nat)
  /-- A write of RTC_ALARM_HI arms the alarm, firing at once with LATE if the value has passed (R394). -/
  | rtcAlarmArm (f : Fn) (hi : Nat)
  /-- The alarm fires at the matching second boundary, pulses its channel and serves as a wake source (R394). -/
  | rtcAlarmFire
  /-- RTC_ALARM_CTRL.DISARM clears ARMED without firing (R394). -/
  | rtcDisarm (f : Fn)
  /-- A timer passes TOP and wraps to 0, applying preloads and clearing EN if ONESHOT is set (R395). -/
  | timerWrap (k : Nat)
  /-- The counter takes the value of CMPx, setting its flag and pulsing its channel (R397). -/
  | timerCompare (k x : Nat)
  /-- A write of TOP, CMP0 or CMP1 while EN is set goes to a preload until the next wrap (R396). -/
  | preloadWrite (f : Fn) (k r : Nat) (v : Word)
  /-- TIM_Tt_CTRL.CLR sets the timer counter to 0 (R402). -/
  | clr (f : Fn) (k : Nat)
  /-- TIM_START sets EN of the selected timers in one cycle (R399). -/
  | timStart (f : Fn) (v : Word)
  /-- TIM_STOP clears EN of the selected timers in one cycle (R399). -/
  | timStop (f : Fn) (v : Word)
  /-- A pulse on an enabled channel reaches every consumer, merging with a pulse within 20 ns (R403). -/
  | eventPulse (ch ph : Nat)
  /-- A write to EVR_FIRE.CH fires that channel from software (R406). -/
  | evrFire (f : Fn) (ch : Nat)
  /-- Clears every EVR_CHc_CNT (R419). -/
  | evrCntClr (f : Fn)
  /-- A write to EVR_CHc_CFG takes effect at the end of its cycle; SRC_EN is refused on channels P0 does not own (R405). -/
  | channelCfgWrite (f : Fn) (ch : Nat) (v : Word)
  /-- A selected input edge on a GPIO pin pulses IN_CH (R407). -/
  | gpioEdge (p : Nat) (lvl : Bool)
  /-- A write to EVR_GPIO_SET sets output bits (R407). -/
  | gpioSet (f : Fn) (v : Word)
  /-- A write to EVR_GPIO_CLR clears output bits (R407). -/
  | gpioClr (f : Fn) (v : Word)
  /-- A TWA write transaction sets the pointer and writes whole 32-bit words, discarding partial words (R410). -/
  | twaWrite (addr : Nat) (d : List Byte)
  /-- A TWA read transaction returns prefetched bytes from the pointer, or busy-NACKs its address (R410). -/
  | twaRead (addr n : Nat) (ready : Bool)
  /-- SCL held low for LOW_MS makes the TWA target release SDA and return to idle (R411). -/
  | twaTimeout
  /-- TWB_CMD START runs a write, read or probe operation with address retries (R412). -/
  | start (f : Fn) (v : Word)
  /-- A TWB operation ends with OK, ADDR_NACK, DATA_NACK, ARB_LOST, STRETCH_TMO or BUS_STUCK (R412). -/
  | twbDone (r : TwbTarget)
  /-- A clock stretch lasting STRETCH_US ends the operation STRETCH_TMO, or BUS_STUCK if SCL stays low (R413). -/
  | stretchTimeout (low : Bool)
  /-- When a stuck SCL reads high, the controller clocks nine times, sends STOP and clears STUCK (R413). -/
  | busRecovery
  /-- BIAS_Gn_CTRL.ON requests leave for an OFF gate (R415). -/
  | biasOn (f : Fn) (n : Nat)
  /-- RAMP × 100 µs after the ramp began, the gate is ON and its leave is returned (R415). -/
  | rampDone (n : Nat)
  /-- BIAS_Gn_CTRL.OFF pulls the gate off and returns any leave held (R415). -/
  | biasOff (f : Fn) (n : Nat)
  /-- The sense current reaches TRIP_MA, the gate is pulled off and the cause latches FAULT (R416). -/
  | biasTrip (n : Nat)
  /-- FAULT_CLR returns a faulted gate to OFF once 100 ms have passed since the trip (R417). -/
  | biasFaultClr (f : Fn) (n : Nat)
  /-- Each 1 ms mean current of an ON gate updates BIAS_Gn_CUR and the OPEN detection (R418). -/
  | biasCurrentSample (n ma : Nat)
  /-- The NCMD instruction performs a node operation on behalf of the engine's partition and returns a QUE_NRES-style result (R229). -/
  | ncmd (c rd ra rb : Nat)
  /-- Executing an instruction word with a reserved opcode or function raises ILLEGAL (R217). -/
  | reservedOpcode (c : Nat) (w : Word)
  /-- A fetched host command whose opcode is not listed, or whose feature is not negotiated, completes BAD_OPCODE without executing (R278). -/
  | badOpcode (x : Nat)
  /-- An antenna's taint interval on a slice ends at last + t_clean (or s + t_clean), the antenna rejoins combining and search, and a blind slice stops being blind (R59). -/
  | taintEnd (n b : Nat)
  /-- COEX_GNT deasserts after commit while a frame is on the air; the frame continues, the drop is counted in TXC_COEXk_GDROP and GNT_DROP is raised (R133). -/
  | gntDrop (e k : Nat)
  /-- XK edges return after XK_FAIL, XK_FAIL clears and the RTC resumes counting (R390). -/
  | xkEdgesReturn
  /-- VDD_ANA or VDD_CORE recovers without a reset after a flash brown-out, and the interrupted flash operation ends BROWN_OUT and returns its leave (R354). -/
  | supplyRecovery
  /-- 3,277 XK periods after a bias trip, HOLDOFF clears and FAULT_CLR becomes effective for the gate (R417). -/
  | holdoffEnd (n : Nat)
  /-- A configuration-space change of a function's Bus Master Enable holds or releases every DMA, completion and MSI-X message of that function's ports (R268). -/
  | busMasterEnable (n : Nat) (en : Bool)
  deriving DecidableEq, Repr

end Sys2Proof
end

