-- ==== Sys2Proof/Machine/State.lean ====
section
/-! DEFINITION. The machine's state as plain data. Every register lives in one sparse table keyed by its offset on the physical
function's BAR0 (R27); the records here hold what the spec gives the device beside its registers: frames in lanes, staging
entries, cells, contexts, key slots, cores, command contexts, leave, flash. Fields marked the model's own are named in the log. -/

namespace Sys2Proof.Machine

/-- Why a step can stop with a fault. noSuchObject: raised by every command that names an object outside the identifier
ranges of the spec's scope chapter, which does not exist; safe, since the device has no such command. -/
inductive Fault where
  | noSuchObject
  deriving DecidableEq, Repr

/-- Why a step can be refused. notModelled: a command whose meaning the model does not hold yet, by its mnemonic; safe. -/
inductive Refusal where
  | notModelled (mnemonic : String)
  deriving DecidableEq, Repr

/-- The PHY header a lane decodes: its length, the mode-switch and reserved bits, whether its HCS matches, and the SUN-FSK and Reach
flags (R80, R81, R85, R90). -/
structure PhyHdr where
  length : Nat
  modeSwitch : Bool
  reservedZero : Bool
  hcsOk : Bool
  version : Nat
  coded : Bool
  whitened : Bool
  fcs4 : Bool
  deriving DecidableEq, Repr

/-- The MAC header of a received frame: frame control, addressing (R91, R142), the fields of the auxiliary security header that the
descriptor and the verify job use (R97, R253), and the information element the link controller reads (R163). hdrLen is the
length of the header, minLen what the frame control announces up to the auxiliary security header's end (R143), fcs the octets
of the FCS. -/
structure MacHdr where
  ftype : Nat
  version : Nat
  ackReq : Bool
  seq : Nat
  seqSuppr : Bool
  dstPan : Option (BitVec 16)
  srcPan : Option (BitVec 16)
  dst : Addr
  src : Addr
  secured : Bool
  level : Nat
  keyMode : Nat
  keyIndex : Nat
  keySource : Nat
  counter : Nat
  hdrLen : Nat
  minLen : Nat
  csl : Option (Nat × Nat)
  fcs : Nat
  deriving DecidableEq, Repr

/-- A candidate record of the candidate queue (R52). -/
structure Cand where
  ts : Nat := 0
  point : Nat := 0
  grid : Nat := 0
  chan : Nat := 0
  rate : Nat := 0
  fofs : Nat := 0
  score : Nat := 0
  k : Nat := 0
  weight : BitVec 128 := 0
  taint : Nat := 0
  pairId : Nat := 0
  kind : Nat := 0
  deriving DecidableEq, Repr

/-- The pairing window of one channel frequency: its first detection and, once a pair exists, the companion's score (R50). -/
structure PairWin where
  khz : Nat
  ts : Nat
  rate : Nat
  score : Nat
  pairId : Nat
  comp : Option Nat
  deriving DecidableEq, Repr

/-- One antenna's over-range episode and gain loop (R55, R56, R58): the last over-range tick, whether an episode runs, the instants
at which forced steps fall due, the last instant one fell due, and whether the running 10 ms interval saw over-range or a
forced step. -/
structure Ant where
  last : Nat := 0
  active : Bool := false
  dues : List Nat := []
  prevDue : Option Nat := none
  ovrInt : Bool := false
  stepInt : Bool := false
  deriving DecidableEq, Repr

/-- A taint interval [lo, hi) of one antenna and slice (R59, R60). -/
structure Taint where
  ant : Nat
  slice : Nat
  lo : Nat
  hi : Nat
  deriving DecidableEq, Repr

/-- The canopy beside its registers: candidates waiting, hold-offs per point group, pairing windows, noise estimates per point with
the tick from which each is formed and the last tick at which the point detected, one up (R47), antennas, taint, changes of
attenuation with the value before (R42), and the diagnostic capture: the triggers seen and when, the ticks at which filling
began and the trigger fired, and what an aborted capture left in memory (R35-R68). -/
structure Cnp where
  cands : List Cand := []
  holds : Sparse (Nat × Nat) := []
  pairs : List PairWin := []
  noise : Sparse (List Nat) := []
  since : Sparse Nat := []
  start : Nat := 0
  detAt : Sparse Nat := []
  nextPair : Nat := 0
  ants : Sparse Ant := []
  taints : List Taint := []
  attLog : List (Nat × Nat × Nat) := []
  capPulse : Option Nat := none
  capCand : Option Nat := none
  capOvr : Option Nat := none
  capFrom : Nat := 0
  capAt : Nat := 0
  capAir : List (Nat × Nat × Nat) := []
  deriving DecidableEq, Repr

/-- The link controller's answer to a lane header (R91). -/
inductive Answer where
  | reject (reason : Nat)
  | accept (part : Nat) (node : Option Nat) (pan : Option Nat) (bcast : Bool) (att : Option Nat)
  deriving DecidableEq, Repr

/-- A curve of the image (R305): section instance, kind, target, points as (X, Y). -/
structure Curve where
  inst : Nat
  kind : Nat
  target : Nat
  pts : List (Int × Int)
  deriving DecidableEq, Repr

/-- A lane's frame beside LNE_LANE_STS (R69-R97): the weights held from the SFD with the antennas that have one and, per antenna, the
decibels by which a change of attenuation has scaled its weight since (R76, R77); antennas disabled during the frame and when;
the PSDU octets known so far; stalled: its next cell waits in the receive cell queue (R22, R193). curves and atts are those in force when its measurement interval began (R95, R317). -/
structure Lane where
  cand : Cand := {}
  pairWon : Bool := false
  settled : Bool := true
  gain : Nat := 0
  taint : Nat := 0
  weight : BitVec 128 := 0
  wmask : Nat := 0
  wdb : List Int := []
  left : List (Nat × Nat) := []
  sfdTs : Nat := 0
  tofs : Nat := 0
  sfdCoded : Bool := false
  phy : Option PhyHdr := none
  hdr : Option MacHdr := none
  ans : Option Answer := none
  att : Option Nat := none
  psdu : List Byte := []
  cells : List Nat := []
  stalled : Bool := false
  fend : Nat := 0
  fcsOk : Option Bool := none
  dsc : BitVec 512 := 0
  winOow : Option Bool := none
  tcorr : Int := 0
  tsch : Bool := false
  rst : Bool := false
  curves : List Curve := []
  atts : List Nat := []
  deriving DecidableEq, Repr

/-- A received frame handed over by its lane, on its way to verification, commit and delivery (R156, R225, R254, R287).
stage: 0 awaiting verification or commit, 1 verify job issued, 2 verified, 3 committed and awaiting delivery. owed: partitions a
delivery is still owed to. -/
structure Rx where
  dsc : BitVec 512
  part : Nat
  node : Option Nat
  pan : Option Nat
  hdr : MacHdr
  lane : Nat
  fend : Nat
  sfdTs : Nat
  cells : List Nat
  descCell : Nat
  stage : Nat
  att : Option Nat
  fcsBad : Bool
  bcast : Bool
  oow : Option Bool
  slot : Nat
  owed : List Nat
  deriving DecidableEq, Repr

/-- A frame end the link controller acknowledges: the frame and its build instant (R148, R149). verdict: none while a secured
Enh-ACK's MIC result is outstanding. -/
structure AckReq where
  node : Option Nat
  part : Nat
  pan : Option Nat
  hdr : MacHdr
  rate : Nat
  grid : Nat
  chan : Nat
  fofs : Nat
  ant : Nat
  fend : Nat
  lane : Nat
  tsch : Bool
  tcorr : Int
  slot : Option Nat
  verdict : Option Bool
  deriving DecidableEq, Repr

/-- One cell of the frame store with its hidden sideband (R188). acct: none while free, partition p, or 64 for the unattributed
receive account (R193). owner: the node queue that holds it. -/
structure FCell where
  data : BitVec 512 := 0
  next : Nat := 0
  last : Bool := false
  count : Nat := 0
  badPar : BitVec 8 := 0
  poison : Bool := false
  owner : Option Nat := none
  acct : Option Nat := none
  hdrCell : Bool := false
  deriving DecidableEq, Repr

/-- A node context with its hidden state (R177, R181). life: 0 FREE, 1 ACTIVE, 2 PRUNING, 3 SWEEP. -/
structure Node where
  ctx : BitVec 512 := 0
  life : Nat := 0
  poison : Bool := false
  badPar : BitVec 16 := 0
  deriving DecidableEq, Repr

/-- A key of the address index: PAN entry, address, handle (R182). -/
structure IdxKey where
  pan : Nat
  addr : Addr
  node : Nat
  deriving DecidableEq, Repr

/-- A staging entry or acknowledgement slot (R112, R118). kind: 0 data frame, 1 acknowledgement, 2 pending-clear frame,
3 wake-up sequence, 4 follow-up data frame. gone: its outcome is discarded (R210, R271); burn: so is its counter (R210); dead: it was
squashed or missed while its job runs (R126). -/
structure Ent where
  st : Nat := 0
  kind : Nat := 0
  chain : Nat := 0
  carrier : Nat := 0
  part : Nat := 0
  prio : Nat := 0
  node : Option Nat := none
  item : Option Nat := none
  air : Nat := 0
  seqNo : Nat := 0
  grid : Nat := 0
  chan : Nat := 0
  rate : Nat := 0
  freqAdj : Int := 0
  backoff : Nat := 0
  secure : Bool := false
  level : Nat := 0
  ackReq : Bool := false
  len : Nat := 0
  dur : Nat := 0
  cells : List Nat := []
  slot : Option Nat := none
  fc : Option Nat := none
  job : Bool := false
  dead : Bool := false
  readyAt : Nat := 0
  corr : BitVec 1024 := 0
  amp : Nat := 0
  tUp : Nat := 0
  tDown : Nat := 0
  lead : Nat := 0
  lag : Nat := 0
  freq : Int := 0
  coex : List Nat := []
  charge : Nat := 0
  period : Nat := 0
  tsch : Bool := false
  aEnd : Nat := 0
  listen : Nat := 0
  pend : Bool := false
  mac : List Byte := []
  hdrLen : Nat := 0
  auxAt : Nat := 0
  noAux : Bool := false
  pan : Option Nat := none
  psdu : List Byte := []
  gain : Int := 0
  nWuf : Nat := 0
  wufLen : Nat := 0
  wuf : Bool := false
  gone : Bool := false
  burn : Bool := false
  fault : Option Nat := none
  deriving DecidableEq, Repr

/-- An attempt awaiting its acknowledgement (R139, R147): its staging entry, window and match. -/
structure Att where
  id : Nat
  ent : Nat
  node : Nat
  part : Nat
  seq : Nat
  grid : Nat
  chan : Nat
  wOpen : Nat
  close : Nat
  expect : Nat
  done : Bool
  closed : Bool
  deriving DecidableEq, Repr

/-- A TSCH receive window (R139): node or shared, partition, slot bounds; opening, close and expected SFD are kept without the
SHR of the frame expected, which a frame tested brings with its rate. -/
structure RxWin where
  node : Option Nat
  part : Nat
  wOpen : Nat
  close : Nat
  expect : Nat
  slotLo : Nat
  slotHi : Nat
  deriving DecidableEq, Repr

/-- A schedule item on its way to staging (R99, R115). -/
structure Sched where
  ent : Ent
  deriving DecidableEq, Repr

/-- A sequencer instance in the record of the object that started it (R173): program, state, entry instant, start, and the
instants and conditions its states refer to (R174). -/
structure SeqInst where
  prog : Nat
  st : Nat
  entry : Nat
  began : Nat
  sfdTs : Nat
  fend : Nat
  attAir : Nat
  attEnd : Nat
  slotStart : Nat
  sample : Nat
  conds : BitVec 16
  node : Option Nat
  item : Option Nat
  att : Option Nat
  deriving DecidableEq, Repr

/-- A command the link controller has promised a cancel at the close of its wait, and who asked (R160, R286). -/
structure Cancel where
  item : Nat
  ctx : Option Nat
  eng : Option Nat
  deriving DecidableEq, Repr

/-- The link controller beside its registers. -/
structure Lnk where
  fmts : Sparse (BitVec 512) := []
  acks : List AckReq := []
  atts : List Att := []
  wins : List RxWin := []
  scheds : List Sched := []
  seqs : List SeqInst := []
  cancels : List Cancel := []
  asnRead : Nat := 0
  retryAt : Sparse Nat := []
  nextAtt : Nat := 0
  deriving DecidableEq, Repr

/-- One carrier in use on a chain: amplitude, charge and staging entry (slots above 1023 are acknowledgement slots). -/
structure Carrier where
  chain : Nat
  idx : Nat
  ent : Nat
  amp : Nat
  deriving DecidableEq, Repr

/-- A coexistence request interval of one frame on one pair (R132). -/
structure CoexReq where
  pair : Nat
  ent : Nat
  drop : Option Nat
  deriving DecidableEq, Repr

/-- A front-end enable asserted for one carrier (R110): chain, band (0 sub-GHz, 1 2.4 GHz), the carrier's entry and air time, and from
when to when, as values of State.now. -/
structure TxEn where
  chain : Nat
  band : Nat
  ent : Nat
  air : Nat
  on : Nat
  off : Nat
  deriving DecidableEq, Repr

/-- The transmit block beside its registers: staging (entries 0-1023, acknowledgement slots 1024-1055), correction tables, carriers,
coexistence, temperature gain per chain, the front-end enables and pulses on the chains' fault channels. -/
structure Txc where
  ents : Sparse Ent := []
  carriers : List Carrier := []
  corr : Sparse (BitVec 1024) := []
  coex : List CoexReq := []
  tgain : Sparse Int := []
  tdie : Option Int := none
  txens : List TxEn := []
  idleAt : Sparse Nat := []
  wakeAt : Sparse Nat := []
  faultPulse : List Nat := []
  arrivals : Nat := 0
  deriving DecidableEq, Repr

/-- Who a prune completes for (R186): the owner's QUE_NCMD, a host command, its export with RELEASE, an engine that waits with a
destination register, or a partition reset. -/
inductive PruneFor where
  | reg
  | host (x : Nat)
  | engine (c rd : Nat)
  | reset
  deriving DecidableEq, Repr

/-- The queue fabric beside its registers: contexts, cells, address index, received frames, sweeps, the NTW shadow. -/
structure Que where
  nodes : Sparse Node := []
  cells : Sparse FCell := []
  index : Sparse IdxKey := []
  rxs : List Rx := []
  sweeps : List Nat := []
  prunes : List (Nat × PruneFor) := []
  ncmd : Option Word := none
  unattr : Nat := 0
  ntwShadow : BitVec 512 := 0
  ntwOf : Option Nat := none
  airs : Sparse Nat := []
  tries : Sparse Nat := []
  deriving DecidableEq, Repr

/-- A bark fault log entry (R202). -/
structure BarkLog where
  tag : Nat
  src : Nat
  tgt : Nat
  index : Nat
  atb : Nat
  deriving DecidableEq, Repr

/-- A running partition reset: scope (1 FULL, 2 DEPART), whether the partition was DISABLED at the request (R210). -/
structure PReset where
  part : Nat
  scope : Nat
  wasOff : Bool
  deriving DecidableEq, Repr

/-- The partition map's fault FIFO and running resets; the counts a lock state needs live in registers. -/
structure Prt where
  log : List BarkLog := []
  resets : List PReset := []
  deriving DecidableEq, Repr

/-- A Fekor core (R215, R216, R220, R221, R236): registers, pc, system registers by number, open loop levels, reservation; the
clock count at its reset and the clock count at which its last instruction ended; the captured high words of CYC and ATB; a
halt request, a RESET (1, 2 with CLEAR) and a step that wait for the instruction in progress; a queue instruction that holds the core, or that has
issued and waits; a RUN (1) or STEP (2) that waits for the cluster. -/
structure FCore where
  g : Sparse Word := []
  pc : Word := 0
  sys : Sparse Word := []
  depth : Nat := 0
  resv : Option Nat := none
  cycBase : Nat := 0
  cyc : Nat := 0
  cycHi : Nat := 0
  atbHi : Nat := 0
  haltReq : Bool := false
  resetReq : Nat := 0
  stepping : Bool := false
  held : Bool := false
  issued : Bool := false
  waitRun : Nat := 0
  deriving DecidableEq, Repr

/-- A notice of an engine (R228). -/
structure Notice where
  kind : Nat
  status : Nat
  attempts : Nat
  cookie : Nat
  node : Nat
  lastAir : Nat
  deriving DecidableEq, Repr

/-- The engines and supervisors beside their registers: cores 0-63 are engines, 64-67 supervisors. discard: items whose final
notice is to be discarded (R237). rxq: descriptors waiting per cluster, as indexes of received frames' descriptor cells with
their partition. held: descriptors an engine has taken and not released. late: items whose TOO_LATE notice has been given. -/
structure Eng where
  cores : Sparse FCore := []
  notices : Sparse (List Notice) := []
  discard : List (Nat × Nat) := []
  outst : List (Nat × Nat) := []
  rxq : List (Nat × Nat × Nat) := []
  held : List (Nat × Nat × Nat) := []
  late : List (Nat × Nat) := []
  deriving DecidableEq, Repr

/-- A short key slot (R243). state: 0 EMPTY, 1 LOADED, 2 EXHAUSTED. -/
structure KSlot where
  state : Nat := 0
  key : List Byte := []
  mode : Nat := 0
  index : Nat := 0
  source : Nat := 0
  fc : Nat := 0
  deriving DecidableEq, Repr

/-- A long key slot (R243). -/
structure LSlot where
  state : Nat := 0
  key : List Byte := []
  deriving DecidableEq, Repr

/-- A key operation waiting or running (R247, R248): the tag and, for a host command, the context that asked; code, slot, blob. -/
structure Kop where
  tag : Nat
  ctx : Option Nat
  op : Nat
  slot : Nat
  long : Bool
  blob : BitVec 640
  deriving DecidableEq, Repr

/-- A verify job in a receive context (R249): the frame's descriptor cell and the key as read at issue. -/
structure RxJob where
  cell : Nat
  ok : Bool
  deriving DecidableEq, Repr

/-- An encrypt job in a transmit context: the staging entry. -/
structure TxJob where
  ent : Nat
  deriving DecidableEq, Repr

/-- The cipher cluster beside its registers: slots, the tamper latch, key operations in order, jobs in the receive and transmit
contexts, marks, a seal (1) or unseal (2) job, the alarms whose HALT is in force, and the random source's start-up tests passed. -/
structure Sec where
  slots : Sparse KSlot := []
  longs : Sparse LSlot := []
  tamper : Bool := false
  kops : List Kop := []
  rxJobs : List RxJob := []
  txJobs : List TxJob := []
  marks : List (Nat × Nat) := []
  sealing : Option Nat := none
  sealKey : Option (List Byte) := none
  unwrapKey : Option (List Byte) := none
  haltBy : Nat := 0
  rngUp : Bool := false
  deriving DecidableEq, Repr

/-- A command context (R25, R273). stage: 0 fetched, 1 handed on and awaiting its outcome, 2 completion waiting to be written.
order is the fetch order, fetched the ATB at the fetch, header the item's header cell, dupOf the context of the original of a
duplicate (16384 for a command that ended at its fetch). -/
structure Ctx where
  port : Nat
  sq : BitVec 512
  order : Nat
  stage : Nat
  cpl : BitVec 256
  header : Option Nat
  dupOf : Option Nat
  fetched : Nat
  deriving DecidableEq, Repr

/-- A remembered completed command of a port (R285). -/
structure Tag where
  tag : Nat
  opcode : Nat
  node : Nat
  status : Nat
  deriving DecidableEq, Repr

/-- A command's completion entry ready to be written, with its place in the order of becoming ready (R276). -/
structure Ready where
  port : Nat
  ctx : Nat
  seq : Nat
  entry : BitVec 256
  deriving DecidableEq, Repr

/-- A port beside its registers: ring indexes, completion entries not returned, posted receive buffers by context, remembered
tags, entries since the last message and when the first of them was written. -/
structure Port where
  sqTail : Nat := 0
  cqHead : Nat := 0
  out : Nat := 0
  stopped : Bool := false
  closing : Bool := false
  posted : List Nat := []
  tags : List Tag := []
  since : Nat := 0
  firstAt : Option Nat := none
  deriving DecidableEq, Repr

/-- A notice waiting to be written to a partition's notice port (R290), with its place in the order of becoming ready and the ATB
at which it did. -/
structure PNote where
  status : Nat
  slot : Nat
  counter : Nat
  seq : Nat
  ready : Nat
  deriving DecidableEq, Repr

/-- A PCIe function beside its registers: Bus Master Enable, virtual function enabled, its MSI-X allotment refused. -/
structure Func where
  bme : Bool := false
  on : Bool := false
  msixOff : Bool := false
  deriving DecidableEq, Repr

/-- The host interface beside its registers. -/
structure Hst where
  ports : Sparse Port := []
  ctxs : Sparse Ctx := []
  ready : List Ready := []
  resetAt : Nat := 0
  notes : Sparse (List PNote) := []
  lost : List Nat := []
  funcs : Sparse Func := []
  order : Nat := 0
  rseq : Nat := 0
  lastPort : Nat := 1023
  deriving DecidableEq, Repr

/-- What the device puts on PCIe, the air or the pins, newest last (the model's own record of outputs). -/
inductive Posted where
  | dmaWrite (fn : Nat) (addr : Nat) (data : List Byte)
  | msix (fn vector : Nat)
  | air (chain carrier at_ : Nat) (freq : Int) (psdu : List Byte)
  | readData (v : Word)
  | twaByte (b : Byte)
  | twaNack
  | twbBytes (bs : List Byte)
  | syncout (at_ : Nat)
  deriving DecidableEq, Repr

/-- A holder of power leave (R371). -/
inductive Holder where
  | carrier (chain idx : Nat)
  | chain (n : Nat)
  | cluster (c : Nat)
  | bias (n : Nat)
  | flash
  | capture
  | sweep
  deriving DecidableEq, Repr

/-- Leave held, or waited for: by whom, charged to which partition, mW; refused marks a waiter already counted (R372). -/
structure Leave where
  who : Holder
  part : Nat
  mw : Nat
  refused : Bool
  deriving DecidableEq, Repr

/-- Power beside its registers: leave held and waited for (R371, R372), the image's budget table (R309), the state asked for while
its quiescence runs (2 WATCH, 3 DORMANT), when it was asked and the state it leaves, consecutive samples at or above TRIP and below
TRIP - HYST (R374), a wake under way and when it fired (R366, R368). mode: 0 powered, 1 DORMANT with the core removable, 2 HOLDOVER.
pwrEn and the level of WAKE_IN are pins; resumeAddr is the resume record in backup RAM (R368); shieldOff: the shield monitor has
stopped (R376). -/
structure Pwr where
  held : List Leave := []
  waiters : List Leave := []
  budget : Sparse Nat := []
  req : Option Nat := none
  reqAt : Nat := 0
  left : Nat := 0
  mode : Nat := 0
  hot : Nat := 0
  cool : Nat := 0
  wakeFired : Bool := false
  wakeAt : Nat := 0
  pwrEn : Bool := true
  wakePin : Bool := false
  resumeAddr : Option (Nat × Nat) := none
  retLost : Bool := false
  svRun : List Nat := []
  shieldOff : Bool := false
  deriving DecidableEq, Repr

/-- Clocks beside their registers: CLK_TB runs (R18); an acquisition is under way (R379); the dividers have been released (R382) and
the family's phase in FS periods against its release edge (R384); the XK phase in units of 1/15625 period, the XK count and XK
edges arriving (R390); the ATB value held over a stop, the XK count recorded after it and whether XK failed meanwhile (R388);
consecutive pulses within TOL, the expected SYNCIN instant in FS periods (R384, R385); SYNCOUT pulses since the last change and the
tick of the last (R385, R386); CLK_ENG cycles since power came. -/
structure Clk where
  tb : Bool := false
  acq : Bool := false
  released : Bool := false
  phase : Nat := 0
  xkPhase : Nat := 0
  xk : Nat := 0
  xkOk : Bool := true
  stopA : Option Nat := none
  stopK : Option Nat := none
  xkLost : Bool := false
  pulses : Nat := 0
  expect : Option Nat := none
  syncout : Nat := 0
  lastOut : Option Nat := none
  eng : Nat := 0
  deriving DecidableEq, Repr

/-- The RTC beside its registers: the freeze shadows and when they were taken (R391), XK periods counted past the second that is
due, periods the calibration is to skip, and the count towards its next correction (R390). -/
structure Rtc where
  shadow : Nat × Nat × Nat := (0, 0, 0)
  frozenAt : Nat := 0
  extra : Nat := 0
  skip : Nat := 0
  cal : Nat := 0
  deriving DecidableEq, Repr

/-- The event router: pulses produced and not yet delivered, and the instant of the last pulse on each channel in FS periods, one
up (R403). -/
structure Evr where
  pulses : List Nat := []
  last : Sparse Nat := []
  deriving DecidableEq, Repr

/-- The two-wire target's last captured word and prefetched word with their pointers (R410); the controller's bus recovery is owed
(R413). -/
structure Two where
  capture : Option (Nat × Word) := none
  ahead : Option (Nat × Word) := none
  deriving DecidableEq, Repr

/-- A general timer beside its registers: source edges counted towards the prescaler, counts past the wrap that is due, and the
TOP, CMP0 and CMP1 values in force while a preload waits for the wrap (R395, R396). -/
structure Tmr where
  res : Nat := 0
  extra : Nat := 0
  top : Option Nat := none
  cmp0 : Option Nat := none
  cmp1 : Option Nat := none
  deriving DecidableEq, Repr

/-- A bias gate beside its registers: the ramp's first and last instant, the XK count at its trip (R417), consecutive 1 ms means
below OPEN_MA and at or above it (R418). -/
structure Gate where
  rampAt : Nat := 0
  rampEnd : Nat := 0
  tripXk : Nat := 0
  low : Nat := 0
  high : Nat := 0
  deriving DecidableEq, Repr

/-- A step of the ledger unit's, the graft unit's or the boot ROM's flash work: an erase of a sector, a program of octets at an address, or the
record of a ledger area's high-water GEN in the information row (R324, R340, R341). -/
inductive NvStep where
  | erase (sector : Nat)
  | program (addr : Nat) (data : List Byte)
  | highWater (area gen : Nat)
  deriving DecidableEq, Repr

/-- An operation of the flash controller (R346): its FLC_CMD code (1 PROGRAM, 2 ERASE_SECTOR, 3 ERASE_BLOCK, 7 a record of the information
row with area and GEN for addr and n), byte address, words of the program with their count, and stage: 0 pending or waiting for leave,
1 runs, 2 suspended, 4 has leave and waits for the supply, 5 interrupted by a low supply. begun: its first pulse has been applied. src: who
asked (0 FLC_CMD, 1 ledger, 2 graft, 3 boot ROM). sep: a block erase that runs sector by sector (R352), of which cur is the sector under way
and acc what its ended sectors gave (bit 0 remapped, bit 1 failed); of an interrupted program cur is the words completed. -/
structure FlashOp where
  code : Nat
  addr : Nat
  n : Nat
  data : List Byte
  stage : Nat
  begun : Bool
  src : Nat := 0
  sep : Bool := false
  cur : Nat := 0
  acc : Nat := 0
  deriving DecidableEq, Repr

/-- A unit's flash work under way (R346): the unit (1 ledger, 2 graft, 3 boot ROM), the steps left with the one under way first, whether
every step so far ended OK, and of a ledger operation the GEN and the copy it works on. -/
structure UnitWork where
  unit : Nat
  left : List NvStep
  ok : Bool
  gen : Nat := 0
  copy : Nat := 0
  deriving DecidableEq, Repr

/-- One copy of the information row's record (R341, R356): whether its CRC is right, generation, what each spare is used for (0 free, 1 bad,
2 + s in place of sector s), sectors that are bad without a spare, high-water GEN of ledger areas A and B. -/
structure InfoCopy where
  ok : Bool := true
  gen : Nat := 0
  spares : Sparse Nat := []
  bad : List Nat := []
  highA : Nat := 0
  highB : Nat := 0
  deriving DecidableEq, Repr

/-- What the flash keeps beside its array: the check bits of each physical program word, all ones where unlisted (R344), erase-open marks by
physical sector (R352), sectors and program words whose content an
interrupted operation left unreliable, each with the number of the free value it reads as, sectors marked for remapping at their
next erase, and the two copies of the information row. -/
structure Nvm where
  check : Sparse Nat := []
  marks : List Nat := []
  wild : Sparse Nat := []
  torn : Sparse Nat := []
  failed : List Nat := []
  copyA : InfoCopy := {}
  copyB : InfoCopy := {}
  deriving DecidableEq, Repr

/-- The fields of the winning boot block of this boot (R322, R323): which of the two won, generation, ACTIVE, TRIAL, LAST_GRAFT,
slots as (base, length), ledger areas, sectors per copy, watchdog seconds. -/
structure BootBlk where
  idx : Nat
  gen : Nat
  active : Nat
  trial : Bool
  last : Nat
  slotA : Nat × Nat
  slotB : Nat × Nat
  ldgA : Nat
  ldgB : Nat
  sectors : Nat
  tmo : Nat
  deriving DecidableEq, Repr

/-- A section of an image, from its table entry (R300), with its place in the table. -/
structure Sect where
  idx : Nat
  typ : Nat
  inst : Nat
  off : Nat
  len : Nat
  crc : Nat
  digest : List Byte
  deriving DecidableEq, Repr

/-- What the loader keeps of an image's header (R299) with its table digest (R301). -/
structure ImgHdr where
  total : Nat
  secver : Nat
  id : Nat
  key : Nat
  lockMask : Nat
  digest : List Byte
  deriving DecidableEq, Repr

/-- An image load in progress (R313-R318, R368): mode (0 BASE, 1 LIVE, 2 RADIO reload, 3 base load of a return from DORMANT), address and source, whether the clocks will lock in
time (R313), whether pass 1 is done, the header and the sections still to apply. -/
structure LoadJob where
  mode : Nat
  addr : Nat
  src : Nat
  locks : Bool
  checked : Bool
  hdr : ImgHdr
  left : List Sect
  deriving DecidableEq, Repr

/-- The flash controller, loader, graft, ledger and fuse unit beside their registers. op: the operation that runs or waits for leave;
wait: those pending behind it in order of arrival; works: the units' work; resume: a suspended erase; low: a supply is low (R354); boot: the winning boot block; runSlot: the slot the active base came from (0 A, 1 B);
baseSrc: the source of the active base; base, live: the sections of the active base and the live ones in force, with their data (R312); liveRadio, liveChip: a live section of that scope is in force (R319); ldg, graft, fuse: the
operation under way by its code. -/
structure Flc where
  op : Option FlashOp := none
  wait : List FlashOp := []
  works : List UnitWork := []
  resume : Option FlashOp := none
  low : Bool := false
  load : Option LoadJob := none
  boot : Option BootBlk := none
  runSlot : Option Nat := none
  baseSrc : Nat := 0
  base : List (Sect × List Byte) := []
  live : List (Sect × List Byte) := []
  liveRadio : Bool := false
  liveChip : Bool := false
  ldg : Option Nat := none
  graft : Option Nat := none
  fuse : Option Nat := none
  deriving DecidableEq, Repr

/-- What one-time fuses hold (R336): signer key hashes, revocations, failed-start limit; and the permanent anti-rollback floor
(R335). -/
structure Fuses where
  keys : Sparse (List Byte) := []
  revoked : List Nat := []
  limit : Option Nat := none
  floor : Nat := 0
  deriving DecidableEq, Repr

/-- A base load that the boot runs (R328, R329): the slot tried (0 A, 1 B), the slot to try next, and whether the clocks would lock
under it. -/
structure BootTry where
  slot : Nat
  next : Option Nat
  locks : Bool
  deriving DecidableEq, Repr

/-- The start (R325-R332): a boot is due at the release of a CHIP reset (1 a start, 2 a return from native DORMANT); the reset is held
(R429); the base load under way; the XK count at which the start watchdog expires; the newest attempt is open, and has a reason;
DRIVER_OK was written in this boot; VGLITCH is disarmed until the reset ends (R428). -/
structure Start where
  due : Nat := 1
  held : Bool := false
  try_ : Option BootTry := none
  wdt : Option Nat := none
  opened : Bool := false
  reasoned : Bool := false
  okNow : Bool := false
  glitchOff : Bool := false
  deriving DecidableEq, Repr

/-- The machine. regs: every register by physical-function BAR0 offset; shadow and held: captured higher words and held low
words of registers wider than 32 bits (R10); vregs: a virtual function's own negotiation and log words; mem: byte memories
keyed by BAR0 offset; badPar: words whose parity is bad; flash: the flash array by byte address.
pending is the queue of commands, first in, first out. free, now and posted are the model's own. -/
structure State where
  pending : List Instr
  free : Nat
  now : Nat
  atb : Nat
  regs : Sparse Word
  shadow : Sparse Word
  heldLo : Sparse Word
  vregs : Sparse Word
  mem : List Host.Cell
  badPar : List Nat
  flash : List Host.Cell
  nvm : Nvm
  fuses : Fuses
  cnp : Cnp
  lanes : Sparse Lane
  lnk : Lnk
  txc : Txc
  que : Que
  prt : Prt
  eng : Eng
  sec : Sec
  hst : Hst
  pwr : Pwr
  clk : Clk
  rtc : Rtc
  evr : Evr
  two : Two
  tims : Sparse Tmr
  gates : Sparse Gate
  flc : Flc
  radioHeld : Bool
  start : Start
  curves : List Curve
  posted : List Posted
  deriving DecidableEq, Repr

/-- The machine right after a power-on CHIP reset and an AON reset: every register at the reset value its table gives, the
radio domain held in reset until an image is applied, nothing listed in any table. -/
def State.reset : State where
  pending := []
  free := 0
  now := 0
  atb := 0
  regs := []
  shadow := []
  heldLo := []
  vregs := []
  mem := []
  badPar := []
  flash := []
  nvm := {}
  fuses := {}
  cnp := {}
  lanes := []
  lnk := {}
  txc := {}
  que := {}
  prt := {}
  eng := {}
  sec := {}
  hst := {}
  pwr := {}
  clk := {}
  rtc := {}
  evr := {}
  two := {}
  tims := []
  gates := []
  flc := {}
  radioHeld := true
  start := {}
  curves := []
  posted := []

end Sys2Proof.Machine
end

