-- ==== Sys2Proof/Machine/Ops.lean ====
section
/-! DEFINITION. The shared operations: register fields, counters, events and pulses, free values, time, tags and the bark, power
leave. Every command's meaning is written over these. -/

namespace Sys2Proof.Machine

/-- The outcome of a command that names an object: the next state where the object exists, the fault where it does not. -/
def ranged (inside : Bool) (t : State) : Host.Outcome State Fault Refusal :=
  if inside then .next t else .fault .noSuchObject

/-- Bits lo to lo + w - 1 of a wide record, as a number. -/
def bf {n : Nat} (x : BitVec n) (lo w : Nat) : Nat := x.toNat / 2 ^ lo % 2 ^ w

/-- A wide record with bits lo to lo + w - 1 replaced. -/
def bfSet {n : Nat} (x : BitVec n) (lo w v : Nat) : BitVec n :=
  BitVec.ofNat n (x.toNat - bf x lo w * 2 ^ lo + v % 2 ^ w * 2 ^ lo)

/-- Bit k of a mask kept as a number. -/
def bitOn (m k : Nat) : Bool := m / 2 ^ k % 2 == 1

/-- A mask with bit k set. -/
def bitSet (m k : Nat) : Nat := if bitOn m k then m else m + 2 ^ k

/-- A mask with bit k clear. -/
def bitClr (m k : Nat) : Nat := if bitOn m k then m - 2 ^ k else m

/-- The numbers of the set bits of a mask below n. -/
def bitsOf (m n : Nat) : List Nat := (List.range n).filter (bitOn m)

/-- The mask of the numbers below n that pass a test. -/
def maskOf (n : Nat) (t : Nat → Bool) : Nat := ((List.range n).filter t).foldl bitSet 0

/-- A two's complement field of w bits as an integer. -/
def sgn (w v : Nat) : Int := if 2 ^ (w - 1) ≤ v then (v : Int) - 2 ^ w else v

/-- An integer as a two's complement field of w bits. -/
def unsgn (w : Nat) (v : Int) : Nat := (v % 2 ^ w).toNat

/-- An integer kept between two bounds. -/
def clampInt (lo hi v : Int) : Int := if v < lo then lo else if hi < v then hi else v

/-- The quotient rounded up. -/
def ceilDiv (a b : Nat) : Nat := (a + b - 1) / b

/-- The octets of a number, least significant first. -/
def octets (n v : Nat) : List Byte := (List.range n).map (fun k => BitVec.ofNat 8 (v / 256 ^ k))

/-- The number whose octets stand least significant first. -/
def unoctets : List Byte → Nat
  | [] => 0
  | b :: bs => b.toNat + 256 * unoctets bs

/-! ## Registers -/

/-- The stored word of a register. -/
def State.reg (s : State) (a : Nat) : Word := sget regReset s.regs a

/-- The state with a register's stored word replaced. -/
def State.setReg (s : State) (a : Nat) (v : Word) : State := { s with regs := sset regReset s.regs a v }

/-- A register field as a number. -/
def State.rd (s : State) (f : RegFld) : Nat := bf (s.reg f.addr) f.lo f.w

/-- A register field is not zero. -/
def State.on (s : State) (f : RegFld) : Bool := s.rd f != 0

/-- The state with a register field replaced. -/
def State.wr (s : State) (f : RegFld) (v : Nat) : State := s.setReg f.addr (bfSet (s.reg f.addr) f.lo f.w v)

/-- A saturating counter counts n more. -/
def State.incBy (s : State) (f : RegFld) (n : Nat) : State := s.wr f (min (2 ^ f.w - 1) (s.rd f + n))

/-- A saturating counter counts one more. -/
def State.inc (s : State) (f : RegFld) : State := s.incBy f 1

/-- A wrapping field counts one more. -/
def State.bump (s : State) (f : RegFld) : State := s.wr f (s.rd f + 1)

/-- A list of fields set to zero. -/
def State.zero (s : State) (fs : List RegFld) : State := fs.foldl (fun t f => t.wr f 0) s

/-- A 64-bit quantity in two consecutive registers (R8). -/
def State.rd64 (s : State) (lo : Nat) : Nat := (s.reg lo).toNat + 2 ^ 32 * (s.reg (lo + 4)).toNat

/-- A 64-bit quantity written to two consecutive registers. -/
def State.wr64 (s : State) (lo v : Nat) : State :=
  (s.setReg lo (BitVec.ofNat 32 v)).setReg (lo + 4) (BitVec.ofNat 32 (v / 2 ^ 32))

/-- What the device hands out, newest last (the model's record; log entry 7). -/
def State.post (s : State) (p : Posted) : State := { s with posted := s.posted ++ [p] }

/-! ## Free values -/

/-- The next free value, below n when n is not zero (log entry 1). -/
def State.freeVal (s : State) (n : Nat) : Nat :=
  if n = 0 then (Config.freeBits s.free).toNat else (Config.freeBits s.free).toNat % n

/-- The state after a free value has been taken. -/
def State.freed (s : State) : State := { s with free := s.free + 1 }

/-! ## Events -/

/-- The EVT_STS register of a block by its block code (R405). -/
def evtReg (code : Nat) : Option Nat :=
  match code with
  | 1 => some 0x100010 | 2 => some 0x200010 | 3 => some 0x300010 | 4 => some 0x400010 | 5 => some 0x500014
  | 6 => some 0x600010 | 7 => some 0x700010 | 8 => some 0x980010 | 9 => some 0x310 | 10 => some 0x10010
  | 11 => some 0x20010 | 12 => some 0x80010 | 13 => some 0x80870 | 14 => some 0x80A70 | 15 => some 0x60010
  | 16 => some 0x68010 | 17 => some 0x70010 | 18 => some 0x50010 | 19 => some 0x3808010
  | _ => none

/-- A pulse is produced on a channel; EVENT_PULSE delivers it (R403). -/
def State.pulse (s : State) (ch : Nat) : State := { s with evr := { s.evr with pulses := s.evr.pulses ++ [ch] } }

/-- The channels that take a block event as a producer (R405): those whose CFG has SRC_EN set and names the source. -/
def srcChannels (s : State) (src : Nat) : List Nat :=
  (s.regs.filter (fun p => decide (0x50100 ≤ p.1) && decide (p.1 < 0x50300) && bf p.2 18 1 == 1 && bf p.2 8 10 == src)).map
    (fun p => (p.1 - 0x50100) / 4)

/-- A block event of source number src occurs: every channel that selects it gets a pulse (R405). -/
def State.blockEvent (s : State) (src : Nat) : State := (srcChannels s src).foldl State.pulse s

/-- What a virtual function's own word reads as before any write: the mask bit of each vector of its MSI-X table is set, every other word
is zero (log entry 84). -/
def vregInit (k : Nat) : Word := if 0xA0000 ≤ k % 0x100000 ∧ k % 0x100000 < 0xA8000 ∧ k % 16 = 12 then 1#32 else 0#32

/-- A word of a virtual function's own registers. -/
def State.vreg (s : State) (n off : Nat) : Word := sget vregInit s.vregs (off + 0x100000 * n)

/-- The state with one replaced. -/
def State.setVreg (s : State) (n off : Nat) (v : Word) : State := { s with vregs := sset vregInit s.vregs (off + 0x100000 * n) v }

/-- A function's vector control bit (R291, R292): the physical function's table in its HST block, a virtual function's own. -/
def vecMasked (s : State) (fn v : Nat) : Bool :=
  (if fn = 0 then s.reg (HST_MSIX_CTL.reg v) else s.vreg fn (0xA000C + 16 * v)).toNat % 2 == 1

/-- The word of a function's pending-bit array that holds vector v. -/
def pbaWord (s : State) (fn v : Nat) : Nat :=
  (if fn = 0 then s.reg (HST_PBA.reg (v / 32)) else s.vreg fn (0xA8000 + 4 * (v / 32))).toNat

/-- The state with that word replaced. -/
def setPbaWord (fn v w : Nat) (s : State) : State :=
  if fn = 0 then s.setReg (HST_PBA.reg (v / 32)) (BitVec.ofNat 32 w) else s.setVreg fn (0xA8000 + 4 * (v / 32)) (BitVec.ofNat 32 w)

/-- The record of a function. -/
def State.func (s : State) (fn : Nat) : Func := sget (fun _ => ({} : Func)) s.hst.funcs fn

/-- A function's MSI-X message is sent, or stays pending while its vector is masked or Bus Master Enable is clear (R268, R291). -/
def State.sendMsix (s : State) (fn v : Nat) : State :=
  if (s.func fn).msixOff then s
  else if vecMasked s fn v || !(s.func fn).bme then setPbaWord fn v (bitSet (pbaWord s fn v) (v % 32)) s
  else s.post (.msix fn v)

/-- Some event of a block is set and enabled, by block code: the blocks of R405, and the clusters from code 24 on (R293). -/
def State.evtSome (s : State) (c : Nat) : Bool :=
  match evtReg c with
  | some a => (s.reg a &&& s.reg (a + 4)) != 0
  | none => decide (24 ≤ c) && decide (c < 32) && s.on (ENG_C_HALT_STS.HALT (c - 24)) && s.on (ENG_C_EVT_EN.HALT (c - 24))

/-- HST_EVT_VEC sends its vector when the enabled events of a block go from none to some (R293): s is the state before, t the state
after. -/
def evtEdge (s t : State) : State :=
  if (List.range 32).any (fun c => !s.evtSome c && t.evtSome c) && t.on HST_EVT_VEC.EN then t.sendMsix 0 (t.rd HST_EVT_VEC.VECTOR) else t

/-- Hardware sets bit b of a block's EVT_STS, with the block event that goes with it (R405) and the event vector (R293). -/
def State.raise (s : State) (code b : Nat) : State :=
  match evtReg code with
  | some a => evtEdge s ((s.wr ⟨a, b, 1⟩ 1).blockEvent (32 * code + b))
  | none => s.blockEvent (32 * code + b)

/-! ## The open attempt's record (R327) -/

/-- The newest record takes a stage, while its attempt is open; a stage is not left for a lower one. -/
def State.setStage (s : State) (k : Nat) : State :=
  if s.start.opened then s.wr (TOP_START_REASON.STAGE 0) (max k (s.rd (TOP_START_REASON.STAGE 0))) else s

/-- The open attempt takes a reason. -/
def State.setReason (s : State) (r : Nat) : State :=
  if s.start.opened then { s.wr (TOP_START_REASON.REASON 0) r with start := { s.start with reasoned := true } } else s

/-! ## Time -/

/-- CLK_PER cycles per 31.25 ns: three at FS/64, two while CLK_PER is taken from the 64 MHz FIO (R17, R18; log entry 10). -/
def State.perCycles (s : State) : Nat := if s.clk.tb then 3 else 2

/-- The value of a timer's TOP in force (R396). -/
def timTop (s : State) (t : Nat) : Nat := (sget (fun _ => ({} : Tmr)) s.tims t).top.getD (s.rd (TIM_TOP.TOP t))

/-- A running timer takes n edges of its source: the prescaler divides them and the counter stops at TOP, where the wrap is
due; counts past it are kept for the wrap (R395). -/
def tickTimer (t : Nat) (edges : Nat) (s : State) : State :=
  let x := sget (fun _ => ({} : Tmr)) s.tims t
  let total := x.res + edges
  let pre := 2 ^ s.rd (TIM_CFG.PRE t)
  let c := s.rd (TIM_CNT.COUNT t)
  let n := c + total / pre
  let c' := min (max c (timTop s t)) n
  { (s.wr (TIM_CNT.COUNT t) c') with
    tims := sset (fun _ => {}) s.tims t { x with res := total % pre, extra := x.extra + (n - c') } }

/-- The timers whose EN is set. -/
def runningTimers (s : State) : List Nat := (List.range 32).filter (fun t => s.on (TIM_CTRL.EN t))

/-- The edges of a timer's source in n ticks in which XK has x edges; none while the core is unpowered (R363, R395). -/
def timerEdges (s : State) (t n x : Nat) : Nat :=
  if s.pwr.mode ≠ 0 then 0
  else match s.rd (TIM_CFG.SRC t) with
    | 0 => n * s.perCycles
    | 1 => if s.clk.tb then n else 0
    | _ => x

/-- The XK edges in n ticks: one period is 976.5625 ticks (R17, R388). -/
def xkEdges (s : State) (n : Nat) : Nat := if s.clk.xkOk then (s.clk.xkPhase + 16 * n) / 15625 else 0

/-- The RTC takes x XK edges: once per 2^20 of them the calibration skips or adds periods; RTC_SUBSEC counts up to 32,767, where
the second is due, and periods past it are kept (R390, R392). -/
def tickRtc (x : Nat) (s : State) : State :=
  if s.on RTC_CTRL.HALT then s
  else
    let due := (s.rtc.cal + x) / 2 ^ 20
    let c := sgn 8 (s.rd RTC_CAL.CAL)
    let skip := s.rtc.skip + due * c.toNat
    let n := s.rd RTC_SUBSEC.COUNT + (x - min skip x) + due * (-c).toNat
    let v := min 32767 n
    { (s.wr RTC_SUBSEC.COUNT v) with
      rtc := { s.rtc with skip := skip - min skip x, cal := (s.rtc.cal + x) % 2 ^ 20, extra := s.rtc.extra + (n - v) } }

/-- The ATB counts: CLK_TB runs and no bridge is owed (R19, R388). -/
def State.atbRuns (s : State) : Bool := s.clk.tb && s.clk.stopA.isNone

/-- n units of 31.25 ns pass: the ATB counts while CLK_TB runs (R19), XK, the RTC and the running timers count. -/
def State.elapse (n : Nat) (s : State) : State :=
  if n = 0 then s
  else
    let x := xkEdges s n
    let s1 := (runningTimers s).foldl (fun u t => tickTimer t (timerEdges s t n x) u) s
    let s2 := if x = 0 then s1 else tickRtc x s1
    { s2 with
      now := s.now + n
      atb := if s.atbRuns then s.atb + n else s.atb
      clk := { s2.clk with
        xkPhase := if s.clk.xkOk then (s.clk.xkPhase + 16 * n) % 15625 else s.clk.xkPhase
        xk := s.clk.xk + x
        stopK := if s.clk.stopA.isSome ∧ s.clk.stopK = none ∧ x ≠ 0 then some (s.clk.xk + 1) else s.clk.stopK
        eng := if s.pwr.mode = 0 then s.clk.eng + n * (if s.clk.tb then 16 else 2) else s.clk.eng } }

/-- Time runs to ATB value t when t is ahead and the ATB counts; an instant that has passed is taken as the present one
(log entry 6). -/
def State.at_ (s : State) (t : Nat) : State := if s.atbRuns then s.elapse (t - s.atb) else s

/-! ## Ownership and the bark -/

/-- The tag of a function's requests (R199). -/
def fnTag : Fn → Nat
  | .pf => 0
  | .vf n => n
  | .sv _ => 0

/-- The source kind of a function's requests (R202). -/
def fnKind : Fn → Nat
  | .pf => 0
  | .vf _ => 1
  | .sv _ => 4

/-- The owner a partition map entry names: P0 while EN is clear (R200). -/
def State.ownerAt (s : State) (a : Nat) : Nat := if bf (s.reg a) 6 1 = 1 then bf (s.reg a) 0 6 else 0

/-- The owner of a node handle (R200). -/
def State.handleOwner (s : State) (h : Nat) : Nat := s.ownerAt (PRT_HMAP.reg (h / 256))

/-- The owner of a short key slot (R200). -/
def State.slotOwner (s : State) (k : Nat) : Nat := s.ownerAt (PRT_KMAP.reg (k / 256))

/-- The owner of a long key slot (R200). -/
def State.longOwner (s : State) (k : Nat) : Nat := s.ownerAt (PRT_LMAP.reg (k / 16))

/-- The owner of a host port (R200). -/
def State.portOwner (s : State) (q : Nat) : Nat := s.ownerAt (PRT_PORT.reg q)

/-- The owner of an engine (R200). -/
def State.engOwner (s : State) (e : Nat) : Nat := s.ownerAt (PRT_ENG.reg e)

/-- The owner of the group of an event channel (R200). -/
def State.chanOwner (s : State) (c : Nat) : Nat := s.ownerAt (PRT_EVG.reg (c / 8))

/-- The owner of a general timer (R200). -/
def State.timOwner (s : State) (t : Nat) : Nat := s.ownerAt (PRT_TIM.reg t)

/-- The bark refuses a request: it is logged while the fault FIFO has room, counted and raised (R202). -/
def State.bark (s : State) (tag src tgt index : Nat) : State :=
  let s1 := (s.inc (PRT_PCNT.COUNT tag 0)).raise 7 0
  if s1.prt.log.length < 16 then
    { s1 with prt := { s1.prt with log := s1.prt.log ++ [⟨tag, src, tgt, index, s.atb⟩] } }
  else (s1.wr PRT_FLT_STS.OVF 1).raise 7 1

/-- An access of the physical function that is unmapped is counted and logged (R28, R269). -/
def State.unmapped (s : State) (off : Nat) : State :=
  ((((s.inc TOP_CNT_UNMAPPED.COUNT).wr TOP_BAD_LOG.OFFSET off).wr TOP_BAD_LOG.KIND 0).wr TOP_BAD_LOG.VALID 1).raise 9 0

/-- Seedling mode hides the register at an offset from the physical function: it decodes TOP and FLC only (R330). -/
def State.hidden (s : State) (f : Fn) (off : Nat) : Bool :=
  s.on TOP_START_STS.SEEDLING && decide (f = .pf) && !(decide (off < 0x10000) || (decide (0x80000 ≤ off) && decide (off < 0x90000)))

/-- A function exists: virtual ones while VF Enable covers them (R267). -/
def fnHere (s : State) (f : Fn) : Bool :=
  match f with
  | .pf => true
  | .vf n => (s.func n).on
  | .sv n => decide (n < 4)

/-- A register command reachable only with a P0 tag: its effect, or the bark's refusal with the register's offset; a function
that does not exist makes no request, and nothing reaches a register while VDD_CORE is off (R363), and seedling mode hides most (R330). -/
def State.p0Only (s : State) (f : Fn) (off : Nat) (t : State) : State :=
  if s.pwr.mode ≠ 0 ∨ !fnHere s f then s
  else if fnTag f ≠ 0 then s.bark (fnTag f) (fnKind f) 0 off
  else if s.hidden f off then s.unmapped off
  else t

/-- A register command of any function that reaches a register at offset off: nothing reaches one while VDD_CORE is off (R363), and
seedling mode hides most from the physical function (R330). -/
def State.reach (s : State) (f : Fn) (off : Nat) (t : State) : State :=
  if s.pwr.mode ≠ 0 then s else if s.hidden f off then s.unmapped off else t

/-! ## Shares and leave -/

/-- The allocation routine of R205 and R207: amount a for partition p, out of a total, against guarantees and caps. -/
def shareOk (total : Nat) (guar cap used : Nat → Nat) (p a : Nat) : Bool :=
  let free : Int := (total : Int) - ((List.range 64).map used).sum
  let resv : Int := ((List.range 64).map (fun q => guar q - used q)).sum
  let within := min a (guar p - used p)
  decide (used p + a ≤ cap p) && decide (((a - within : Nat) : Int) ≤ free - resv)

/-- Leave held device-wide, in mW (R371). -/
def State.leaveUsed (s : State) : Nat := (s.pwr.held.map (·.mw)).sum

/-- Leave charged to a partition (R207). -/
def State.leaveOf (s : State) (p : Nat) : Nat := ((s.pwr.held.filter (fun l => l.part == p)).map (·.mw)).sum

/-- An entry of the image's power budget table (R309). -/
def State.budget (s : State) (k : Nat) : Nat := sget (fun _ => 0) s.pwr.budget k

/-- The power state whose sets and budget apply: while DORMANT is being entered, the state it is entered from (R359, R362). -/
def State.powerState (s : State) : Nat := if s.rd PWR_STS.STATE = 3 then s.pwr.left else s.rd PWR_STS.STATE

/-- The budget in force (R371). -/
def State.budgetNow (s : State) : Nat :=
  match s.powerState with
  | 1 => min (s.budget 0) (s.rd PWR_TRIM_BUDGET.MW)
  | 2 => min (s.budget 0) (s.rd PWR_WATCH_BUDGET.MW)
  | _ => s.budget 0

/-- The partition share check of R207. -/
def State.leaveShare (s : State) (p a : Nat) : Bool :=
  shareOk (s.budget 1) (fun q => s.rd (PRT_P_PWR.GUAR q)) (fun q => s.rd (PRT_P_PWR.CAP q)) s.leaveOf p a

/-- Leave is granted and charged (R207). -/
def State.holdLeave (s : State) (who : Holder) (p mw : Nat) : State :=
  { s with pwr := { s.pwr with held := s.pwr.held ++ [⟨who, p, mw, false⟩] } }

/-- An operation's leave, held or waited for, is returned or withdrawn (R372, R373). -/
def State.returnLeave (s : State) (who : Holder) : State :=
  { s with pwr := { s.pwr with
      held := s.pwr.held.filter (fun l => !decide (l.who = who))
      waiters := s.pwr.waiters.filter (fun l => !decide (l.who = who)) } }

/-- A waiter's two checks: the partition share, then the budget less the reserve; none passes while the temperature trip is set
(R371, R374). -/
def State.waiterFits (s : State) (l : Leave) : Bool :=
  s.leaveShare l.part l.mw && decide (s.leaveUsed + l.mw + s.rd PWR_ARB_RESERVE.MW ≤ s.budgetNow) && !s.on PWR_TEMP_STS.TRIP

/-- A request other than a commit joins the arbiter's queue (R372). It counts as having waited when it is not served in its own
cycle, and its share refusal counts once. -/
def State.askLeave (s : State) (who : Holder) (p mw : Nat) : State :=
  let l : Leave := ⟨who, p, mw, false⟩
  let now := s.pwr.waiters.isEmpty && s.waiterFits l
  let ref := s.pwr.waiters.isEmpty && !s.leaveShare p mw
  let s1 := if now then s else s.inc PWR_CNT_WAITED.COUNT
  let s2 := if ref then s1.inc (PRT_PCNT.COUNT p 2) else s1
  { s2 with pwr := { s2.pwr with waiters := s2.pwr.waiters ++ [{ l with refused := ref }] } }

/-- A commit's leave: granted, or refused by the partition share or the device budget; the flag tells which (R120, R371, R372).
Holders are given with their amounts and all charged to p. -/
def State.commitLeave (s : State) (p : Nat) (asks : List (Holder × Nat)) : State × Bool :=
  let a := (asks.map (·.2)).sum
  if s.on PWR_TEMP_STS.TRIP then (s.inc PWR_CNT_REFUSED.COUNT, false)
  else if !s.leaveShare p a then (s.inc (PRT_PCNT.COUNT p 2), false)
  else if s.leaveUsed + a ≤ s.budgetNow then
    ((asks.foldl (fun t h => t.holdLeave h.1 p h.2) s).inc PWR_CNT_GRANT.COUNT, true)
  else (s.inc PWR_CNT_REFUSED.COUNT, false)

/-- The record of a negotiated feature bit of a function (R294): the physical function's in TOP, a virtual function's own. -/
def State.feature (s : State) (fn bit : Nat) : Bool :=
  if fn = 0 then bitOn (s.reg (TOP_FEAT_ACT.reg (bit / 32))).toNat (bit % 32)
  else bitOn (s.vreg fn (0x40 + 4 * (bit / 32))).toNat (bit % 32)

/-- Unwrap and seal jobs run whatever EN holds (R249), but not while the block is held in a RADIO reset (R248). -/
def keyJobsRun (s : State) : Bool := s.sec.haltBy == 0 && s.sec.rngUp && !s.radioHeld

end Sys2Proof.Machine
end

