-- ==== Sys2Proof/Machine/Flags.lean ====
section
/-! DEFINITION. How a register write changes the fields of a register by their access types (R13-R16), and which lock governs the
RWL fields of a register. -/

namespace Sys2Proof.Machine

/-- A value written to a field is not one of its reserved values (R16). -/
def notReserved (f : FieldSpec) (v : Nat) : Bool :=
  match f.lim with
  | some (mn, mx) => decide (mn ≤ v) && decide (v ≤ mx)
  | none => true

/-- A field after a write of v to its register's word w (R13, R14, R16). -/
def fieldWrite (locked : Bool) (v : Word) (w : Word) (f : FieldSpec) : Word :=
  let x := bf v f.lo f.w
  let old := bf w f.lo f.w
  match f.acc with
  | .rw => if notReserved f x then bfSet w f.lo f.w x else w
  | .rwl => if !locked && notReserved f x then bfSet w f.lo f.w x else w
  | .w1c => bfSet w f.lo f.w (Nat.xor old (Nat.land old x))
  | .w1s => bfSet w f.lo f.w (Nat.lor old x)
  | .ro => w
  | .wo => w

/-- The lock bit that governs the RWL fields of the register at an address (R14). -/
def lockOf (a : Nat) : Option RegFld :=
  if a < 0x10000 then none
  else if a < 0x20000 then some CLK_CTRL.LOCK
  else if a < 0x30000 then some PWR_CTRL.LOCK
  else if a < 0x50000 then none
  else if a < 0x60000 then some EVR_CTRL.LOCK
  else if a < 0x68000 then some TWA_CTRL.LOCK
  else if a < 0x70000 then some TWB_CTRL.LOCK
  else if a < 0x80000 then some BIAS_CTRL.LOCK
  else if a < 0x100000 then some FLC_CTRL.LOCK
  else if a < 0x200000 then some CNP_CTRL.LOCK
  else if a < 0x300000 then some LNE_CTRL.LOCK
  else if a < 0x400000 then some TXC_CTRL.LOCK
  else if a < 0x500000 then some LNK_CTRL.LOCK
  else if a < 0x600000 then some QUE_CTRL.LOCK
  else if a < 0x700000 then some SEC_CTRL.LOCK
  else if a < 0x800000 then some PRT_CTRL.LOCK
  else if a < 0x1000000 then some HST_CTRL.LOCK
  else if a < 0x2000000 then none
  else if a < 0x3000000 then some (ENG_C_CTRL.LOCK ((a - 0x2000000) / 0x200000))
  else if a < 0x4000000 then some SUP_CTRL.LOCK
  else if a < 0x4020000 then some CLK_CTRL.LOCK
  else none

/-- The RWL fields of the register at an address are locked. -/
def State.locked (s : State) (a : Nat) : Bool := match lockOf a with | some f => s.on f | none => false

/-- A register's word after a write by its fields' types, under a lock. -/
def typedWrite (lock : Bool) (a : Nat) (old v : Word) : Word :=
  match rowAt a with
  | some r => r.fields.foldl (fieldWrite lock v) old
  | none => old

/-- A write to a register by its fields' types and its block's lock (R13, R14). -/
def State.regWrite (s : State) (a : Nat) (v : Word) : State := s.setReg a (typedWrite (s.locked a) a (s.reg a) v)

end Sys2Proof.Machine
end

