-- ==== Sys2Proof/Machine/Operands.lean ====
section
/-! DEFINITION. The memory structures that commands and blocks hand one another, field by field: node context (R177), item header
(R187), receive descriptor (R97), submission and completion entries (R275, R276), the node operation word (R197), the
correction entry (R105), the key blob (R245), the sequencer state (R174). A field is its lowest bit and its width. -/

namespace Sys2Proof.Machine

/-- A field of a wide record. -/
structure Fld where
  lo : Nat
  w : Nat
  deriving DecidableEq, Repr

/-- The field of w bits from bit b of the word at byte offset off. -/
def fld (off b w : Nat) : Fld := ⟨8 * off + b, w⟩

/-- What a field of a record holds. -/
def Fld.of {n : Nat} (f : Fld) (x : BitVec n) : Nat := bf x f.lo f.w

/-- A record with one field replaced. -/
def Fld.put {n : Nat} (f : Fld) (x : BitVec n) (v : Nat) : BitVec n := bfSet x f.lo f.w v

/-- A record with a list of fields replaced. -/
def putAll {n : Nat} (x : BitVec n) (vs : List (Fld × Nat)) : BitVec n := vs.foldl (fun y p => p.1.put y p.2) x

/-! ## Node context (R177) -/

def NC.VALID : Fld := fld 0x00 0 1
def NC.CLASS : Fld := fld 0x00 1 2
def NC.PCLR_OK : Fld := fld 0x00 3 1
def NC.SHORT_VALID : Fld := fld 0x00 4 1
def NC.CHAIN : Fld := fld 0x00 5 3
def NC.PART : Fld := fld 0x00 8 6
def NC.PAN : Fld := fld 0x00 14 6
def NC.SEC_LEVEL : Fld := fld 0x00 20 3
def NC.SEQ_VALID : Fld := fld 0x00 23 1
def NC.LAST_SEQ : Fld := fld 0x00 24 8
def NC.SHORT : Fld := fld 0x04 0 16
def NC.PARENT : Fld := fld 0x04 16 16
def NC.BOUGH : Fld := fld 0x08 0 16
def NC.KEY_SLOT : Fld := fld 0x08 16 16
def NC.EXT : Fld := fld 0x0C 0 64
def NC.RX_FC : Fld := fld 0x14 0 32
def NC.LAST_FCS : Fld := fld 0x18 0 32
def NC.ANCHOR : Fld := fld 0x1C 0 56
def NC.QLEN : Fld := fld 0x20 24 8
def NC.HEAD : Fld := fld 0x24 0 20
def NC.LISTEN : Fld := fld 0x24 20 8
def NC.QHOLD : Fld := fld 0x24 28 1
def NC.QOVR : Fld := fld 0x24 29 1
def NC.TAIL (k : Nat) : Fld := fld (0x28 + 4 * k) 0 20
def NC.PERIOD_LO : Fld := fld 0x28 20 12
def NC.FOFS_LO : Fld := fld 0x2C 20 12
def NC.SKEW_LO : Fld := fld 0x30 20 12
def NC.RES_LO : Fld := fld 0x34 20 12
def NC.PERIOD_HI : Fld := fld 0x38 0 4
def NC.FOFS_HI : Fld := fld 0x38 4 6
def NC.SKEW_HI : Fld := fld 0x38 10 6
def NC.RES_HI : Fld := fld 0x38 16 6
def NC.LAST_RX : Fld := fld 0x38 22 42

/-- The host-owned fields of a context (R177). -/
def NC.host : List Fld :=
  [NC.CLASS, NC.PCLR_OK, NC.SHORT_VALID, NC.CHAIN, NC.PART, NC.PAN, NC.SEC_LEVEL, NC.SHORT, NC.PARENT, NC.BOUGH, NC.KEY_SLOT,
   NC.EXT, NC.LISTEN, NC.QHOLD]

/-- The commit-owned fields of a context (R177). -/
def NC.commit : List Fld :=
  [NC.SEQ_VALID, NC.LAST_SEQ, NC.RX_FC, NC.LAST_FCS, NC.ANCHOR, NC.PERIOD_LO, NC.PERIOD_HI, NC.FOFS_LO, NC.FOFS_HI, NC.SKEW_LO,
   NC.SKEW_HI, NC.RES_LO, NC.RES_HI, NC.LAST_RX]

/-- The drift fields that a change of class and RESET_DRIFT clear (R184). -/
def NC.drift : List Fld :=
  [NC.ANCHOR, NC.SKEW_LO, NC.SKEW_HI, NC.RES_LO, NC.RES_HI, NC.PERIOD_LO, NC.PERIOD_HI]

/-- A context with the listed fields taken from another. -/
def takeFields (fs : List Fld) (src dst : BitVec 512) : BitVec 512 := fs.foldl (fun x f => f.put x (f.of src)) dst

/-- A context with the listed fields zero. -/
def zeroFields (fs : List Fld) (x : BitVec 512) : BitVec 512 := fs.foldl (fun y f => f.put y 0) x

/-- The CSL period of a context (R178). -/
def periodOf (x : BitVec 512) : Nat := NC.PERIOD_LO.of x + 4096 * NC.PERIOD_HI.of x
/-- The skew of a context in ppb (R178). -/
def skewOf (x : BitVec 512) : Int := sgn 18 (NC.SKEW_LO.of x + 4096 * NC.SKEW_HI.of x)
/-- The residual bound of a context in ppb (R178). -/
def resOf (x : BitVec 512) : Nat := NC.RES_LO.of x + 4096 * NC.RES_HI.of x
/-- The carrier offset of a context in Hz (R179). -/
def fofsOf (x : BitVec 512) : Int := sgn 18 (NC.FOFS_LO.of x + 4096 * NC.FOFS_HI.of x)

/-- The context with PERIOD replaced. -/
def putPeriod (x : BitVec 512) (v : Nat) : BitVec 512 := putAll x [(NC.PERIOD_LO, v), (NC.PERIOD_HI, v / 4096)]
/-- The context with SKEW replaced, saturated at ±131,071 (R179). -/
def putSkew (x : BitVec 512) (v : Int) : BitVec 512 :=
  let n := unsgn 18 (clampInt (-131071) 131071 v)
  putAll x [(NC.SKEW_LO, n), (NC.SKEW_HI, n / 4096)]
/-- The context with RES replaced, saturated at 262,143 (R179). -/
def putRes (x : BitVec 512) (v : Nat) : BitVec 512 :=
  let n := min 262143 v
  putAll x [(NC.RES_LO, n), (NC.RES_HI, n / 4096)]
/-- The context with FOFS replaced, clamped to ±131,071 Hz (R179). -/
def putFofs (x : BitVec 512) (v : Int) : BitVec 512 :=
  let n := unsgn 18 (clampInt (-131071) 131071 v)
  putAll x [(NC.FOFS_LO, n), (NC.FOFS_HI, n / 4096)]

/-! ## Item header (R187) -/

def IH.NEXT_ITEM : Fld := fld 0x00 0 20
def IH.PRIO : Fld := fld 0x00 20 2
def IH.ORIGIN : Fld := fld 0x00 22 1
def IH.SECURE : Fld := fld 0x00 23 1
def IH.ACK_REQ : Fld := fld 0x00 24 1
def IH.CHAIN_OVR : Fld := fld 0x00 25 1
def IH.CHAIN : Fld := fld 0x00 26 3
def IH.CTX : Fld := fld 0x04 0 14
def IH.ENGINE : Fld := fld 0x04 0 6
def IH.COOKIE : Fld := fld 0x04 16 16
def IH.LENGTH : Fld := fld 0x08 0 11
def IH.RATE : Fld := fld 0x08 12 4
def IH.GRID : Fld := fld 0x08 16 4
def IH.CHAN : Fld := fld 0x08 20 8
def IH.RETRIES : Fld := fld 0x0C 0 4
def IH.BE : Fld := fld 0x0C 4 4
def IH.BACKOFF : Fld := fld 0x0C 8 6
def IH.HDR_LEN : Fld := fld 0x0C 16 8
def IH.ATTEMPTS : Fld := fld 0x0C 24 4
def IH.DEADLINE : Fld := fld 0x10 0 64
def IH.FIRST_DATA : Fld := fld 0x18 0 20
def IH.KEY_INDEX : Fld := fld 0x1C 0 8
def IH.KEY_IDX_EN : Fld := fld 0x1C 8 1

/-! ## Receive descriptor (R97) -/

def RD.NODE : Fld := fld 0x00 0 16
def RD.PART : Fld := fld 0x00 16 6
def RD.NODE_VALID : Fld := fld 0x00 22 1
def RD.GRID : Fld := fld 0x00 24 4
def RD.RATE : Fld := fld 0x00 28 4
def RD.CHAN : Fld := fld 0x04 0 8
def RD.LQI : Fld := fld 0x04 8 8
def RD.RSSI : Fld := fld 0x04 16 8
def RD.SNR : Fld := fld 0x04 24 8
def RD.SFD_TS : Fld := fld 0x08 0 64
def RD.DURATION : Fld := fld 0x10 0 32
def RD.FOFS : Fld := fld 0x14 0 20
def RD.TOFS : Fld := fld 0x14 20 8
def RD.TAINTED : Fld := fld 0x18 0 1
def RD.OUT_OF_WINDOW : Fld := fld 0x18 1 1
def RD.CAPTURE : Fld := fld 0x18 2 1
def RD.PAIR_WON : Fld := fld 0x18 3 1
def RD.GAIN_UNSETTLED : Fld := fld 0x18 4 1
def RD.FCS_BAD : Fld := fld 0x18 5 1
def RD.CODED : Fld := fld 0x18 6 1
def RD.WHITENED : Fld := fld 0x18 7 1
def RD.FCS4 : Fld := fld 0x18 8 1
def RD.TAINT_MASK : Fld := fld 0x18 16 8
def RD.COMB_MASK : Fld := fld 0x18 24 8
def RD.ANT_RSSI : Fld := fld 0x1C 0 64
def RD.EVM : Fld := fld 0x24 0 8
def RD.GAIN : Fld := fld 0x24 8 8
def RD.LANE : Fld := fld 0x24 16 9
def RD.LENGTH : Fld := fld 0x28 0 11
def RD.FIRST_CELL : Fld := fld 0x28 12 20
def RD.FRAME_COUNTER : Fld := fld 0x2C 0 32
def RD.SEC_LEVEL : Fld := fld 0x30 0 3
def RD.KEY_ID_MODE : Fld := fld 0x30 3 2
def RD.SECURED : Fld := fld 0x30 7 1
def RD.KEY_INDEX : Fld := fld 0x30 8 8
def RD.SEQ : Fld := fld 0x34 0 8
def RD.SEQ_SUPPR : Fld := fld 0x34 8 1
def RD.FRAME_TYPE : Fld := fld 0x34 9 3
def RD.FRAME_VERSION : Fld := fld 0x34 12 2
def RD.TCORR : Fld := fld 0x38 0 32

/-! ## Submission and completion entries (R275, R276) -/

def SQ.OPCODE : Fld := fld 0x00 0 8
def SQ.FLAGS : Fld := fld 0x00 8 8
def SQ.TAG : Fld := fld 0x00 16 16
def SQ.NODE : Fld := fld 0x04 0 16
def SQ.RSV0 : Fld := fld 0x04 16 16
def SQ.ADDR : Fld := fld 0x08 0 64
def SQ.LEN : Fld := fld 0x10 0 16
def SQ.RSV1 : Fld := fld 0x10 16 48
def SQ.DEADLINE : Fld := fld 0x18 0 64
def SQ.P (k : Nat) : Fld := fld (0x20 + 4 * k) 0 32
def SQ.P0_PRIO : Fld := fld 0x20 0 2
def SQ.P0_SECURE : Fld := fld 0x20 2 1
def SQ.P0_ACK_REQ : Fld := fld 0x20 3 1
def SQ.P0_CHAIN_OVR : Fld := fld 0x20 4 1
def SQ.P0_CHAIN : Fld := fld 0x20 5 3
def SQ.P0_RATE : Fld := fld 0x20 8 4
def SQ.P0_GRID : Fld := fld 0x20 12 4
def SQ.P0_CHAN : Fld := fld 0x20 16 8
def SQ.P0_HDR_LEN : Fld := fld 0x20 24 8
def SQ.P0_TARGET : Fld := fld 0x20 0 16
def SQ.P0_SLOT : Fld := fld 0x20 0 16
def SQ.P0_LONG : Fld := fld 0x20 16 1
def SQ.P0_ENGINE : Fld := fld 0x20 0 6
def SQ.P1_RETRIES : Fld := fld 0x24 0 4
def SQ.P1_BE : Fld := fld 0x24 4 4
def SQ.P1_BACKOFF : Fld := fld 0x24 8 6
def SQ.P1_MEM : Fld := fld 0x24 0 2
def SQ.P2_KEY_INDEX : Fld := fld 0x28 0 8
def SQ.P2_KEY_IDX_EN : Fld := fld 0x28 8 1

def CQ.TAG : Fld := fld 0x00 0 16
def CQ.STATUS : Fld := fld 0x00 16 8
def CQ.KIND : Fld := fld 0x00 24 4
def CQ.PHASE : Fld := fld 0x00 31 1
def CQ.DETAIL : Fld := fld 0x04 0 8
def CQ.ATTEMPTS : Fld := fld 0x04 8 4
def CQ.NODE : Fld := fld 0x04 16 16
def CQ.VALUE : Fld := fld 0x08 0 64
def CQ.RESULT : Fld := fld 0x10 0 32
def CQ.ATB : Fld := fld 0x18 0 64

/-! ## Node operation word (R197, R229) -/

def NW.HANDLE : Fld := fld 0 0 16
def NW.OP : Fld := fld 0 16 3
def NW.IMPORT : Fld := fld 0 20 1
def NW.RESET_DUP : Fld := fld 0 21 1
def NW.RESET_DRIFT : Fld := fld 0 22 1
def NW.QHOLD_VAL : Fld := fld 0 23 1
def NW.CLR_OVR : Fld := fld 0 24 1

/-! ## Correction entry (R105) -/

def CE.LEVEL : Fld := fld 0x00 0 13
def CE.RAMP_CURVE : Fld := fld 0x00 16 4
def CE.VALID : Fld := fld 0x00 31 1
def CE.TEMP_SLOPE : Fld := fld 0x08 0 32

/-! ## Key blob (R245) -/

def KB.FORMAT : Fld := fld 0x00 0 8
def KB.KIND : Fld := fld 0x00 8 4
def KB.RSV0 : Fld := fld 0x00 12 4
def KB.WRAP_SLOT : Fld := fld 0x00 16 8
def KB.ZERO0 : Fld := fld 0x00 24 8
def KB.KEY_ID_MODE : Fld := fld 0x04 0 2
def KB.KEY_INDEX : Fld := fld 0x04 8 8
def KB.PART : Fld := fld 0x04 16 6
def KB.PART_BIND : Fld := fld 0x04 22 1
def KB.KEY_SOURCE : Fld := fld 0x08 0 32
def KB.TX_FC : Fld := fld 0x0C 0 32
def KB.LONG_ZERO : Fld := fld 0x04 0 96
def KB.NONCE : Fld := fld 0x10 0 104
def KB.ZERO1 : Fld := fld 0x1D 0 24
def KB.KEY : Fld := fld 0x20 0 256
def KB.TAG : Fld := fld 0x40 0 128

/-! ## Sequencer state (R174) -/

def SS.NEXT : Fld := fld 0x0 0 7
def SS.END : Fld := fld 0x0 7 1
def SS.COND : Fld := fld 0x0 8 4
def SS.BASE : Fld := fld 0x0 12 4
def SS.ACTION : Fld := fld 0x0 16 8
def SS.ARG : Fld := fld 0x0 24 8
def SS.DELAY : Fld := fld 0x4 0 24
def SS.ALT : Fld := fld 0x4 24 7
def SS.TIMEOUT_EN : Fld := fld 0x4 31 1

/-! ## Format entry (R307) -/

def FM.KIND : Fld := fld 0x00 0 4
def FM.INS_SEQ : Fld := fld 0x00 8 1
def FM.INS_DPAN : Fld := fld 0x00 9 1
def FM.DST_MODE : Fld := fld 0x00 10 2
def FM.INS_SPAN : Fld := fld 0x00 12 1
def FM.SRC_MODE : Fld := fld 0x00 13 2
def FM.INS_AUX : Fld := fld 0x00 15 1
def FM.INS_TCORR : Fld := fld 0x00 16 1
def FM.INS_RZ : Fld := fld 0x00 17 1
def FM.FC : Fld := fld 0x04 0 16
def FM.IE_LEN : Fld := fld 0x04 16 8

/-! ## Link command (R230) -/

def LC.CODE : Fld := fld 0x0 0 8
def LC.K : Fld := fld 0x0 16 6
def LC.CELL : Fld := fld 0x0 16 13
def LC.CHANNEL : Fld := fld 0x0 16 7
def LC.COOKIE : Fld := fld 0x4 0 16
def LC.NODE : Fld := fld 0x4 16 16
def LC.W2 : Fld := fld 0x8 0 32
def LC.W3 : Fld := fld 0xC 0 32

/-- The octets of a wide record, lowest address first. -/
def recBytes {n : Nat} (len : Nat) (x : BitVec n) : List Byte := octets len x.toNat

/-- A record of n bits from its octets, lowest address first. -/
def recOf (n : Nat) (bs : List Byte) : BitVec n := BitVec.ofNat n (unoctets bs)

end Sys2Proof.Machine
end

