-- ==== Sys2Proof/Machine/Phy.lean ====
section
/-! DEFINITION. What stands on the air between the PHYs and the octets of a frame: check sequences, whitening, the Reach
convolutional code, PHY headers (R80, R81, R85, R86, R436), and the MAC header of a received frame (R91, R142, R143); and powers
between decibels and linear units (R68, R95). The 2- and 4-octet FCS, the PN9 sequence and the MAC frame format are those of IEEE
802.15.4-2020, which R5 names (log entry 22). -/

namespace Sys2Proof.Machine

/-! ## Check sequences -/

/-- One bit step of a reflected CRC. -/
def crcBit (poly c : Nat) : Nat := if c % 2 = 1 then Nat.xor (c / 2) poly else c / 2

/-- One octet of a reflected CRC. -/
def crcByte (poly c : Nat) (b : Byte) : Nat := (List.range 8).foldl (fun x _ => crcBit poly x) (Nat.xor c b.toNat)

/-- CRC-32C of an octet string with the parameters of R86. -/
def crc32c (bs : List Byte) : Nat := Nat.xor (bs.foldl (crcByte 0x82F63B78) 0xFFFFFFFF) 0xFFFFFFFF

/-- The standard's 2-octet FCS: x¹⁶ + x¹² + x⁵ + 1, from zero, least significant bit first (R80, R81). -/
def fcs16 (bs : List Byte) : Nat := bs.foldl (crcByte 0x8408) 0

/-- The standard's 4-octet FCS of SUN-FSK, over at least 4 octets, zeros added (R81). -/
def fcs32 (bs : List Byte) : Nat :=
  Nat.xor ((bs ++ List.replicate (4 - bs.length) 0).foldl (crcByte 0xEDB88320) 0xFFFFFFFF) 0xFFFFFFFF

/-- One bit step of the CRC-8 of R85. -/
def hcsBit (c : Nat) : Nat := if 128 ≤ c then Nat.xor (2 * c % 256) 7 else 2 * c

/-- The HCS of a Reach header's lower 16 bits: octet [7:0], then octet [15:8], most significant bit first (R85). -/
def reachHcs (h : Nat) : Nat :=
  [h % 256, h / 256 % 256].foldl (fun c o => (List.range 8).foldl (fun x _ => hcsBit x) (Nat.xor c o)) 0

/-! ## Whitening and the convolutional code -/

/-- One bit of PN9 (x⁹ + x⁵ + 1): the register's last nine bits, newest lowest, give the next bit and register (R81, R86). -/
def pn9Step (r : Nat) : Nat × Nat :=
  let b := (r / 8 + r / 256) % 2
  (b, (2 * r + b) % 512)

/-- The next octet of PN9, its first bit lowest, and the register after it. -/
def pn9Octet (r : Nat) : Nat × Nat :=
  (List.range 8).foldl (fun (q : Nat × Nat) k => let n := pn9Step q.2; (q.1 + n.1 * 2 ^ k, n.2)) (0, r)

/-- Octets XORed with PN9 from a register on. -/
def whitenFrom : Nat → List Byte → List Byte
  | _, [] => []
  | r, b :: bs => let q := pn9Octet r; (b ^^^ BitVec.ofNat 8 q.1) :: whitenFrom q.2 bs

/-- The octets of a PSDU from octet k on, whitened or with their whitening removed (R86, R436). -/
def whitenAt (k : Nat) (bs : List Byte) : List Byte := (whitenFrom 0x1FF (List.replicate k 0 ++ bs)).drop k

/-- The lowest n bits of a number, lowest first. -/
def lowBits (n v : Nat) : List Bool := (List.range n).map (fun k => v.testBit k)

/-- The bits of octets, least significant bit first (R86). -/
def octetBits (bs : List Byte) : List Bool := bs.flatMap (fun b => lowBits 8 b.toNat)

/-- The parity of the bits of a 7-bit register that a generator selects. -/
def parity7 (reg gen : Nat) : Bool := ((List.range 7).filter (fun k => reg.testBit k && gen.testBit k)).length % 2 == 1

/-- The rate-1/2 code of R86 from a state on: for each bit the output of 0o133, then of 0o171. -/
def convFrom : Nat → List Bool → List Bool
  | _, [] => []
  | r, b :: bs =>
    let q := (if b then 64 else 0) + r
    parity7 q 0o133 :: parity7 q 0o171 :: convFrom (q / 2) bs

/-- One separately coded part of a Reach frame with its 6 zero tail bits (R84, R86). -/
def reachPart (bits : List Bool) : List Bool := convFrom 0 (bits ++ List.replicate 6 false)

/-! ## PHY headers -/

/-- The header of a Reach frame with its HCS (R85). -/
def reachHeader (len : Nat) (white : Bool) : Nat :=
  let h := len % 256 + (if white then 1024 else 0)
  h + 65536 * reachHcs h

/-- The bits of a SUN-FSK PHR in the order in which they are sent: mode switch, two reserved, FCS type, whitening, length from its
highest bit (R81, R436; the order is the standard's, log entry 22). -/
def fskPhr (len : Nat) (white fcs4 : Bool) : List Bool := [false, false, false, !fcs4, white] ++ (lowBits 11 len).reverse

/-- The PHY header a lane decodes. O-QPSK: the PHR octet. SUN-FSK: mode switch in bit 0, reserved bits [2:1], FCS type [3], whitening
[4], length [15:5]. Reach: the fields of R85. coded tells which SFD of the grid's pair was received (R80, R81, R85). -/
def phyParse (r : Nat) (coded : Bool) (w : Nat) : PhyHdr :=
  if r = 0 then
    { length := w % 128, modeSwitch := false, reservedZero := true, hcsOk := true, version := 0, coded := false, whitened := false
      fcs4 := false }
  else if r ≤ 3 then
    { length := w / 32 % 2048, modeSwitch := w % 2 == 1, reservedZero := w / 2 % 4 == 0, hcsOk := true, version := 0, coded := coded
      whitened := w / 16 % 2 == 1, fcs4 := w / 8 % 2 == 0 }
  else
    { length := w % 256, modeSwitch := false, reservedZero := w / 2048 % 32 == 0, hcsOk := w / 65536 % 256 == reachHcs (w % 65536)
      version := w / 256 % 4, coded := true, whitened := w / 1024 % 2 == 1, fcs4 := true }

/-- The PHY header check (R85, R90). -/
def phyOk (r : Nat) (h : PhyHdr) : Bool :=
  if r = 0 then decide (5 ≤ h.length)
  else if r ≤ 3 then
    !h.modeSwitch && h.reservedZero && decide (1 ≤ h.length) && decide (h.length ≤ 2047) && decide ((if h.fcs4 then 4 else 2) + 3 ≤ h.length)
  else h.hcsOk && h.version == 0 && h.reservedZero && decide (7 ≤ h.length)

/-- Octets of a received frame's FCS (R80, R81, R86). -/
def rxFcsLen (r : Nat) (h : PhyHdr) : Nat := if r = 0 then 2 else if r ≤ 3 then (if h.fcs4 then 4 else 2) else 4

/-- The check sequence of a rate over octets, least significant octet first (R80, R81, R86). -/
def fcsOf (r : Nat) (fcs4 : Bool) (bs : List Byte) : List Byte :=
  if r = 0 then octets 2 (fcs16 bs)
  else if r ≤ 3 then (if fcs4 then octets 4 (fcs32 bs) else octets 2 (fcs16 bs))
  else octets 4 (crc32c bs)

/-- The FCS of a received PSDU is right (R80, R81, R86, R92). -/
def fcsRight (r : Nat) (h : PhyHdr) (psdu : List Byte) : Bool :=
  let n := psdu.length - rxFcsLen r h
  fcsOf r h.fcs4 (psdu.take n) == psdu.drop n

/-! ## The MAC header of a received frame -/

/-- The number in n octets of a frame from octet k on; what the frame does not hold reads as zero. -/
def macNum (bs : List Byte) (k n : Nat) : Nat := unoctets ((bs.drop k).take n)

/-- An address of a mode that stands at octet k. -/
def macAddr (bs : List Byte) (mode k : Nat) : Addr :=
  match mode with
  | 0 => .none
  | 1 => .reserved
  | 2 => .short (BitVec.ofNat 16 (macNum bs k 2))
  | _ => .ext (BitVec.ofNat 64 (macNum bs k 8))

/-- Octets of an address of a mode. -/
def addrLen (mode : Nat) : Nat := if mode = 2 then 2 else if mode = 3 then 8 else 0

/-- A frame control that announces a sequence number, PAN identifiers and addresses: whether each stands in the frame. -/
structure MacCtl where
  seq : Bool
  dpan : Bool
  dmode : Nat
  span : Bool
  smode : Nat
  octs : Nat
  deriving DecidableEq, Repr

/-- A multipurpose frame of the 2015 version with the long frame control (log entry 22). -/
def isMulti (fc : Nat) : Bool := fc % 8 == 5 && fc / 4096 % 4 == 2 && fc / 8 % 2 == 1

/-- What a frame control announces: the standard's rules of addressing modes and PAN ID compression (R144; log entry 22). -/
def macCtl (fc : Nat) : MacCtl :=
  if isMulti fc then
    { seq := fc / 1024 % 2 == 0, dpan := fc / 256 % 2 == 1, dmode := fc / 16 % 4, span := false, smode := fc / 64 % 4, octs := 2 }
  else
    let v := fc / 4096 % 4
    let dm := fc / 1024 % 4
    let sm := fc / 16384 % 4
    let pc := fc / 64 % 2 == 1
    let dp := if v = 2 then
        (if dm = 0 then sm == 0 && pc else if sm = 0 then !pc else if dm = 3 ∧ sm = 3 then !pc else true)
      else dm != 0
    let sp := if sm = 0 then false
      else if v = 2 ∧ dm = 3 ∧ sm = 3 then false
      else !pc
    { seq := !(v == 2 && fc / 256 % 2 == 1), dpan := dp, dmode := dm, span := sp, smode := sm, octs := 2 }

/-- Octets from the start of a frame to the end of its addressing fields, where the auxiliary security header stands. -/
def ctlLen (c : MacCtl) : Nat :=
  c.octs + (if c.seq then 1 else 0) + (if c.dpan then 2 else 0) + addrLen c.dmode + (if c.span then 2 else 0) + addrLen c.smode

/-- Security is enabled in a frame control. -/
def ctlSecured (fc : Nat) : Bool := if isMulti fc then fc / 512 % 2 == 1 else fc / 8 % 2 == 1

/-- Octets of the auxiliary security header of a key ID mode (R187, R253). -/
def auxLen (mode : Nat) : Nat := match mode with | 0 => 5 | 1 => 6 | 2 => 10 | _ => 14

/-- Octets of the MIC of a security level (R251). -/
def micLen (level : Nat) : Nat :=
  match level with | 1 => 4 | 5 => 4 | 2 => 8 | 6 => 8 | 3 => 16 | 7 => 16 | _ => 0

/-- The header information elements of the octets from k to stop: where they end, and the phase and period of a CSL element
among them. Fuel bounds their number. -/
def macIes (bs : List Byte) (stop : Nat) : Nat → Nat → Option (Nat × Nat) → Nat × Option (Nat × Nat)
  | 0, k, c => (k, c)
  | f + 1, k, c =>
    if stop < k + 2 then (k, c)
    else
      let w := macNum bs k 2
      let len := w % 128
      let id := w / 128 % 256
      if id = 0x7E ∨ id = 0x7F then (k + 2, c)
      else macIes bs stop f (k + 2 + len)
        (if id = 0x1A ∧ 4 ≤ len ∧ c = none then some (macNum bs (k + 2) 2, macNum bs (k + 4) 2) else c)

/-- The octets of a frame that its lane header item needs: through the addressing fields, and the security control octet where
security is enabled (R91, R142). -/
def headerNeed (bs : List Byte) : Nat :=
  let fc := macNum bs 0 2
  ctlLen (macCtl fc) + (if ctlSecured fc then 1 else 0)

/-- The MAC header of a PSDU of len octets of which bs are known, with an FCS of n octets (R91, R97, R142, R143, R163). -/
def macParse (bs : List Byte) (len n : Nat) : MacHdr :=
  let fc := macNum bs 0 2
  let c := macCtl fc
  let multi := isMulti fc
  let sec := ctlSecured fc
  let v := fc / 4096 % 4
  let p1 := c.octs + (if c.seq then 1 else 0)
  let p2 := p1 + (if c.dpan then 2 else 0)
  let p3 := p2 + addrLen c.dmode
  let p4 := p3 + (if c.span then 2 else 0)
  let at_ := p4 + addrLen c.smode
  let ctl := macNum bs at_ 1
  let mode := ctl / 8 % 4
  let aux := if sec then auxLen mode else 0
  let ie := if multi then fc / 32768 % 2 == 1 else v == 2 && fc / 512 % 2 == 1
  let mic := if sec then micLen (ctl % 8) else 0
  let ies := if ie then macIes bs (len - n - mic) 64 (at_ + aux) none else (at_ + aux, none)
  { ftype := fc % 8, version := v, ackReq := if multi then fc / 16384 % 2 == 1 else fc / 32 % 2 == 1
    seq := if c.seq then macNum bs c.octs 1 else 0, seqSuppr := !c.seq
    dstPan := if c.dpan then some (BitVec.ofNat 16 (macNum bs p1 2)) else none
    srcPan := if c.span then some (BitVec.ofNat 16 (macNum bs p3 2)) else none
    dst := macAddr bs c.dmode p2, src := macAddr bs c.smode p4, secured := sec, level := if sec then ctl % 8 else 0
    keyMode := if sec then mode else 0
    keyIndex := if sec ∧ mode ≠ 0 then macNum bs (at_ + aux - 1) 1 else 0
    keySource := if sec ∧ mode = 2 then macNum bs (at_ + 5) 4 else 0
    counter := if sec then macNum bs (at_ + 1) 4 else 0
    hdrLen := ies.1, minLen := at_ + aux, csl := ies.2, fcs := n }

/-! ## Powers -/

/-- Whether 10 to the power of n / (10 u) is at most num / den, for a whole n: u steps to a decibel. -/
def dbAtMost (u num den : Nat) (n : Int) : Bool :=
  if 0 ≤ n then decide (10 ^ n.toNat * den ^ (10 * u) ≤ num ^ (10 * u))
  else decide (den ^ (10 * u) ≤ num ^ (10 * u) * 10 ^ (-n).toNat)

/-- 10·log10 of num / den in steps of 1/u dB, rounded down, from -2^15 to 2^15 - 1. -/
def dbFloor (u num den : Nat) : Int :=
  [15, 14, 13, 12, 11, 10, 9, 8, 7, 6, 5, 4, 3, 2, 1, 0].foldl (fun (n : Int) k =>
    if dbAtMost u num den (n + 2 ^ k) then n + 2 ^ k else n) (-32768)

/-- 10·log10 of num / den in steps of 1/u dB: exact where it is a whole number of steps, else one of the two next to it, the spec
giving no rounding (log entry 3). -/
def dbOf (u num den : Nat) : Int :=
  let n := dbFloor u num den
  let exact := if 0 ≤ n then 10 ^ n.toNat * den ^ (10 * u) == num ^ (10 * u) else den ^ (10 * u) == num ^ (10 * u) * 10 ^ (-n).toNat
  if !exact && Config.roundsUp num den then n + 1 else n

/-- The largest m below 2^152 with m^160 at most x. -/
def root160 (x : Nat) : Nat := (List.range 152).foldl (fun m k => if (m + 2 ^ (151 - k)) ^ 160 ≤ x then m + 2 ^ (151 - k) else m) 0

/-- The linear power of v in 1/16 dB, in units of 10^-24, rounded down (R95). -/
def linPower (v : Int) : Nat := root160 (10 ^ (v + 3840).toNat)

/-- The mean in linear power of powers in 1/16 dB, over a power of one unit. -/
def meanPower (vs : List Int) : Nat × Nat := ((vs.map linPower).sum, vs.length * 10 ^ 24)

/-- The largest whole number at most 127 whose square over a is at most num / den, for num at most 127² den. -/
def root127 (num den : Nat) : Nat := [64, 32, 16, 8, 4, 2, 1].foldl (fun m k => if (m + k) * (m + k) * den ≤ num then m + k else m) 0

/-- A component of a weight scaled so that the largest magnitude, of square m2, becomes 127; between two whole numbers the spec gives
no rounding (R52, log entry 3). -/
def scaleAmp (m2 : Nat) (v : Int) : Int :=
  let num := 127 * 127 * (v.natAbs * v.natAbs)
  let r := root127 num m2
  let r := if r * r * m2 != num && Config.roundsUp num m2 then r + 1 else r
  if v < 0 then -(r : Int) else r

/-- The eight weights of a candidate or lane: zero outside a mask of antennas, scaled so that the largest magnitude is 127, I in [7:0]
and Q in [15:8] of each antenna's 16 bits (R52, R76). -/
def packWeights (mask : Nat) (amps : List (Int × Int)) : BitVec 128 :=
  let w := fun (n : Nat) => if bitOn mask n then amps.getD n (0, 0) else (0, 0)
  let m2 := (List.range 8).foldl (fun m n => max m ((w n).1.natAbs * (w n).1.natAbs + (w n).2.natAbs * (w n).2.natAbs)) 0
  BitVec.ofNat 128 ((List.range 8).foldr (fun n acc =>
    (if m2 = 0 then 0 else unsgn 8 (scaleAmp m2 (w n).1) + 256 * unsgn 8 (scaleAmp m2 (w n).2)) + 65536 * acc) 0)

end Sys2Proof.Machine
end

