-- ==== Sys2Proof/Machine/Cells.lean ====
section
/-! DEFINITION. The frame store, the node contexts, the address index and the node queues as operations (R182, R187-R196). -/

namespace Sys2Proof.Machine

/-! ## Cells -/

/-- The number of no cell (R177, R187). -/
def noCell : Nat := 0xFFFFF

/-- Cells in the frame store (R25). -/
def storeCells : Nat := 786432

/-- A cell of the frame store. -/
def State.cell (s : State) (k : Nat) : FCell := sget (fun _ => ({} : FCell)) s.que.cells k

/-- The state with a cell replaced. -/
def State.setCell (s : State) (k : Nat) (c : FCell) : State :=
  { s with que := { s.que with cells := sset (fun _ => {}) s.que.cells k c } }

/-- The unused guarantees of all partitions in cells (R192). -/
def cellsResv (s : State) : Nat :=
  ((List.range 64).map (fun q => s.rd (PRT_P_CELL_GUAR.GUAR q) - s.rd (QUE_PUSE.USE q))).sum

/-- The allocation routine of R192; a receive cell passes reserve zero (R193). -/
def cellsOk (s : State) (p n reserve : Nat) : Bool :=
  let used := s.rd (QUE_PUSE.USE p)
  let within := min n (s.rd (PRT_P_CELL_GUAR.GUAR p) - used)
  decide (used + n ≤ s.rd (PRT_P_CELL_CAP.CAP p)) &&
    decide (((n - within : Nat) : Int) ≤ (s.rd QUE_STS.FREE : Int) - cellsResv s - reserve)

/-- FREE takes a new value: its minimum follows, and falling to the reserve raises RX_LOW (R194, R197). -/
def setFree (v : Nat) (s : State) : State :=
  let old := s.rd QUE_STS.FREE
  let s1 := s.wr QUE_STS.FREE v
  let s2 := if v < s.rd QUE_FREE_MIN.MIN then s1.wr QUE_FREE_MIN.MIN v else s1
  if s.rd QUE_RX_RESERVE.CELLS < old ∧ v ≤ s.rd QUE_RX_RESERVE.CELLS then s2.raise 5 6 else s2

/-- The first n free cells from a start on (log entry 20: which free cells an allocation takes is open). -/
def freeFrom (s : State) (start n : Nat) : List Nat :=
  (((List.range (n + s.que.cells.length)).map (fun k => (start + k) % storeCells)).filter
    (fun k => (s.cell k).acct.isNone)).take n

/-- An account's use grows by n. Accounts above 63 are the unattributed one (R193). -/
def useMore (a n : Nat) (s : State) : State :=
  if a < 64 then s.wr (QUE_PUSE.USE a) (s.rd (QUE_PUSE.USE a) + n)
  else { s with que := { s.que with unattr := s.que.unattr + n } }

/-- An account's use falls by n. -/
def useLess (a n : Nat) (s : State) : State :=
  if a < 64 then s.wr (QUE_PUSE.USE a) (s.rd (QUE_PUSE.USE a) - n)
  else { s with que := { s.que with unattr := s.que.unattr - n } }

/-- A cell is taken by an account: it is to be written anew, with good parity (R188). -/
def takeCell (a : Nat) (s : State) (k : Nat) : State :=
  s.setCell k { s.cell k with acct := some a, badPar := 0, poison := false }

/-- n cells are taken and charged to an account (R192, R193). -/
def takeCells (a n : Nat) (s : State) : State × List Nat :=
  let ks := freeFrom s (s.freeVal storeCells) n
  let s1 := ks.foldl (takeCell a) s.freed
  (useMore a n (setFree (s.rd QUE_STS.FREE - n) s1), ks)

/-- One cell is freed: its account is relieved and no queue owns it; its data are not cleared (R194). -/
def freeCell (s : State) (k : Nat) : State :=
  match (s.cell k).acct with
  | none => s
  | some a => useLess a 1 (setFree (s.rd QUE_STS.FREE + 1) (s.setCell k { s.cell k with acct := none, owner := none, hdrCell := false }))

/-- Cells are freed. -/
def freeCells (ks : List Nat) (s : State) : State := ks.foldl freeCell s

/-- A cell moves to another account (R193). -/
def moveCell (a : Nat) (s : State) (k : Nat) : State :=
  match (s.cell k).acct with
  | none => s
  | some b => useMore a 1 (useLess b 1 (s.setCell k { s.cell k with acct := some a }))

/-- The chunks of 64 octets of an octet string. -/
def chunks64 : Nat → List Byte → List (List Byte)
  | 0, _ => []
  | _ + 1, [] => []
  | f + 1, bs => bs.take 64 :: chunks64 f (bs.drop 64)

/-- Octets are written to a chain of cells with their sidebands (R188). -/
def fillChain : List Nat → List (List Byte) → Option Nat → State → State
  | k :: ks, b :: bs, own, s =>
    let c := s.cell k
    fillChain ks bs own (s.setCell k { c with
      data := recOf 512 b, next := ks.headD noCell, last := ks.isEmpty, count := if ks.isEmpty then b.length % 64 else 0, owner := own })
  | _, _, _, s => s

/-- The cells of a chain from cell k on, up to and with the END cell (R188). -/
def chainCells (s : State) : Nat → Nat → List Nat
  | 0, _ => []
  | f + 1, k => if k = noCell then [] else if (s.cell k).last then [k] else k :: chainCells s f (s.cell k).next

/-- The valid octets of a cell (R188, R194). -/
def cellBytes (c : FCell) : List Byte := recBytes (if c.last && c.count != 0 then c.count else 64) c.data

/-- The octets a chain holds. -/
def chainBytes (s : State) (ks : List Nat) : List Byte := ks.flatMap (fun k => cellBytes (s.cell k))

/-! ## Contexts -/

/-- A node context with its hidden state. -/
def State.node (s : State) (h : Nat) : Node := sget (fun _ => ({} : Node)) s.que.nodes h

/-- The state with a node replaced. -/
def State.setNode (s : State) (h : Nat) (n : Node) : State :=
  { s with que := { s.que with nodes := sset (fun _ => {}) s.que.nodes h n } }

/-- A field of a context. -/
def State.nc (s : State) (h : Nat) (f : Fld) : Nat := f.of (s.node h).ctx

/-- The state with a context field replaced. -/
def State.ncPut (s : State) (h : Nat) (f : Fld) (v : Nat) : State :=
  s.setNode h { s.node h with ctx := f.put (s.node h).ctx v }

/-- A reader checks a context's word parities: a bad word in a context that is not poisoned poisons it, with the log, the count
and the event (R195). -/
def ctxCheck (h : Nat) (s : State) : State :=
  let n := s.node h
  if n.badPar = 0 ∨ n.poison then s
  else
    let s1 := s.setNode h { n with poison := true }
    let s2 := ((s1.wr QUE_PAR_LOG.INDEX h).wr QUE_PAR_LOG.KIND 1).wr QUE_PAR_LOG.VALID 1
    (s2.inc QUE_CNT_CTX_PAR.COUNT).raise 5 2

/-- A cell parity error is counted, logged and raised (R196, R197). -/
def cellParity (k : Nat) (s : State) : State :=
  ((((s.wr QUE_PAR_LOG.INDEX k).wr QUE_PAR_LOG.KIND 0).wr QUE_PAR_LOG.VALID 1).inc QUE_CNT_CELL_PAR.COUNT).raise 5 1

/-! ## Address index (R182) -/

/-- The octets of an index key. -/
def keyOctets (pan : Nat) (a : Addr) : List Byte :=
  match a with
  | .short v => BitVec.ofNat 8 pan :: 2 :: octets 2 v.toNat
  | .ext v => BitVec.ofNat 8 pan :: 3 :: octets 8 v.toNat
  | _ => []

/-- The eight places of a key. -/
def keyPlaces (pan : Nat) (a : Addr) : List Nat :=
  (List.range 8).map (fun k => (crc32c (keyOctets pan a) % 131072 + k) % 131072)

/-- The handle a key names. -/
def idxLookup (s : State) (pan : Nat) (a : Addr) : Option Nat :=
  (keyPlaces pan a).findSome? (fun k =>
    match sfind s.que.index k with
    | some x => if x.pan = pan ∧ x.addr = a then some x.node else none
    | none => none)

/-- The state with the index replaced and its key count. -/
def setIndex (x : Sparse IdxKey) (s : State) : State :=
  { s with que := { s.que with index := x } }.wr QUE_IDX_STS.KEYS x.length

/-- A key is inserted in the first free of its places: 0 done, 3 ADDR_CONFLICT, 4 INDEX_FULL. -/
def idxInsert (pan : Nat) (a : Addr) (h : Nat) (s : State) : State × Nat :=
  match idxLookup s pan a with
  | some j => (s, if j = h then 0 else 3)
  | none =>
    match (keyPlaces pan a).find? (fun k => (sfind s.que.index k).isNone) with
    | some k => (setIndex (sput s.que.index k ⟨pan, a, h⟩) s, 0)
    | none => (s.inc QUE_CNT_IDX_FAIL.COUNT, 4)

/-- A handle's keys are removed. -/
def idxRemove (h : Nat) (s : State) : State := setIndex (s.que.index.filter (fun p => p.2.node != h)) s

/-- Keys, with their PAN entry, are removed. -/
def idxDrop (ks : List (Nat × Addr)) (s : State) : State :=
  setIndex (s.que.index.filter (fun p => !ks.contains (p.2.pan, p.2.addr))) s

/-- The keys a context asks for (R182): none for a broadcast queue. -/
def ctxKeys (x : BitVec 512) : List Addr :=
  if NC.CLASS.of x = 3 then []
  else .ext (BitVec.ofNat 64 (NC.EXT.of x)) ::
    (if NC.SHORT_VALID.of x = 1 then [.short (BitVec.ofNat 16 (NC.SHORT.of x))] else [])

/-- The keys a context asks for, with its PAN entry. -/
def ctxPanKeys (x : BitVec 512) : List (Nat × Addr) := (ctxKeys x).map (fun a => (NC.PAN.of x, a))

/-- A context's keys are inserted; the first failure stands and leaves the state to be thrown away. -/
def idxInsertAll (h pan : Nat) (ks : List Addr) (s : State) : State × Nat :=
  ks.foldl (fun (r : State × Nat) a => if r.2 = 0 then idxInsert pan a h r.1 else r) (s, 0)

/-! ## Node queues (R187-R190) -/

/-- A field of an item header. -/
def State.ih (s : State) (hc : Nat) (f : Fld) : Nat := f.of (s.cell hc).data

/-- The state with an item header field replaced. -/
def State.ihPut (s : State) (hc : Nat) (f : Fld) (v : Nat) : State :=
  s.setCell hc { s.cell hc with data := f.put (s.cell hc).data v }

/-- The items of a queue from header cell k on, in read order. -/
def itemsFrom (s : State) : Nat → Nat → List Nat
  | 0, _ => []
  | f + 1, k => if k = noCell then [] else k :: itemsFrom s f (s.ih k IH.NEXT_ITEM)

/-- The items of a node's queue in read order. -/
def queueItems (s : State) (h : Nat) : List Nat := itemsFrom s 256 (s.nc h NC.HEAD)

/-- The headers of a list of items take their NEXT_ITEM. -/
def linkNext : List Nat → State → State
  | [], s => s
  | k :: ks, s => linkNext ks (s.ihPut k IH.NEXT_ITEM (ks.headD noCell))

/-- The last item of a level in a list of items. -/
def lastOfLevel (s : State) (items : List Nat) (k : Nat) : Nat := ((items.filter (fun i => s.ih i IH.PRIO == k)).getLast?).getD noCell

/-- A node's queue becomes a list of items in read order: HEAD, tails and links follow. -/
def setQueue (h : Nat) (items : List Nat) (s : State) : State :=
  let s1 := (linkNext items s).ncPut h NC.HEAD (items.headD noCell)
  [0, 1, 2, 3].foldl (fun u k => u.ncPut h (NC.TAIL k) (lastOfLevel s items k)) s1

/-- A written item goes after the last item of its level or of the levels above (R189). -/
def insertBack (s : State) (k hc : Nat) : List Nat → List Nat
  | [] => [hc]
  | i :: is => if s.ih i IH.PRIO ≤ k then i :: insertBack s k hc is else hc :: i :: is

/-- A returned item goes ahead of the first item of its level (R189). -/
def insertFront (s : State) (k hc : Nat) : List Nat → List Nat
  | [] => [hc]
  | i :: is => if s.ih i IH.PRIO < k then i :: insertFront s k hc is else hc :: i :: is

/-- An item is linked in at the end of its level. -/
def linkItem (h hc : Nat) (s : State) : State := setQueue h (insertBack s (s.ih hc IH.PRIO) hc (queueItems s h)) s

/-- An item is returned to the head of its level (R122, R125). -/
def returnItem (h hc : Nat) (s : State) : State := setQueue h (insertFront s (s.ih hc IH.PRIO) hc (queueItems s h)) s

/-- An item leaves the queue. -/
def unlinkItem (h hc : Nat) (s : State) : State := setQueue h ((queueItems s h).filter (fun i => i != hc)) s

/-- The cells of an item: its header cell and its data chain (R187). -/
def itemCells (s : State) (hc : Nat) : List Nat := hc :: chainCells s 40 (s.ih hc IH.FIRST_DATA)

/-- The octets of an item's frame. -/
def itemBytes (s : State) (hc : Nat) : List Byte :=
  (chainBytes s (chainCells s 40 (s.ih hc IH.FIRST_DATA))).take (s.ih hc IH.LENGTH)

end Sys2Proof.Machine
end

