-- ==== Sys2Proof/Machine/Outcome.lean ====
section
/-! DEFINITION. How an item or a host command ends: the one final completion of a command context (R276, R277, R284), the notices
of an engine (R228), and the notices of a partition (R290). -/

namespace Sys2Proof.Machine

/-- The command context x, if it is held. -/
def State.ctx (s : State) (x : Nat) : Option Ctx := sfind s.hst.ctxs x

/-- The state with command context x set. -/
def State.setCtx (s : State) (x : Nat) (c : Ctx) : State := { s with hst := { s.hst with ctxs := sput s.hst.ctxs x c } }

/-- The state with command context x free. -/
def State.dropCtx (s : State) (x : Nat) : State := { s with hst := { s.hst with ctxs := sdel s.hst.ctxs x } }

/-- A completion entry but for its phase (R276). -/
def cqEntry (s : State) (q tag kind status detail attempts node value result : Nat) : BitVec 256 :=
  putAll 0 [(CQ.TAG, tag), (CQ.STATUS, status), (CQ.KIND, kind), (CQ.DETAIL, detail), (CQ.ATTEMPTS, attempts), (CQ.NODE, node),
    (CQ.VALUE, value), (CQ.RESULT, result), (CQ.ATB, if s.feature (s.portOwner q) 6 then s.atb else 0)]

/-- The record of a port. -/
def State.port (s : State) (q : Nat) : Port := sget (fun _ => ({} : Port)) s.hst.ports q

/-- The state with a port's record replaced. -/
def State.setPort (s : State) (q : Nat) (p : Port) : State :=
  { s with hst := { s.hst with ports := sset (fun _ => {}) s.hst.ports q p } }

/-- A held context's final entry becomes ready (R276); on a port that is being disabled the command ends without one (R271). -/
def readyCtx (x : Nat) (c : Ctx) (status detail attempts value result : Nat) (s : State) : State :=
  if (s.port c.port).closing then s.dropCtx x
  else
    let e := cqEntry s c.port (SQ.TAG.of c.sq) 0 status detail attempts (SQ.NODE.of c.sq) value result
    let s1 := s.setCtx x { c with stage := 2, cpl := e }
    { s1 with hst := { s1.hst with ready := s1.hst.ready ++ [⟨c.port, x, s1.hst.rseq, e⟩], rseq := s1.hst.rseq + 1 } }

/-- A command among others in fetch order. -/
def putFetched (p : Nat × Ctx) : Sparse Ctx → Sparse Ctx
  | [] => [p]
  | q :: qs => if p.2.order ≤ q.2.order then p :: q :: qs else q :: putFetched p qs

/-- Commands in the order they were fetched, in which entries that are ready in the same cycle are written (R276). -/
def fetchOrder (cs : Sparse Ctx) : Sparse Ctx := cs.foldr putFetched []

/-- The command of context x ends with its one final completion; its duplicates complete right after it in fetch order (R276, R277, R285). -/
def State.complete (s : State) (x status detail attempts value result : Nat) : State :=
  match s.ctx x with
  | none => s
  | some c =>
    if c.stage = 2 then s
    else
      (fetchOrder (s.hst.ctxs.filter (fun p => p.2.dupOf == some x && p.2.stage != 2))).foldl
        (fun u p => readyCtx p.1 p.2 8 status 0 0 0 u) (readyCtx x c status detail attempts value result s)

/-- The notices waiting for an engine. -/
def noticesOf (s : State) (e : Nat) : List Notice := sget (fun _ => []) s.eng.notices e

/-- A notice enters an engine's queue (R228). -/
def giveNotice (e : Nat) (n : Notice) (s : State) : State :=
  { s with eng := { s.eng with notices := sset (fun _ => []) s.eng.notices e (noticesOf s e ++ [n]) } }

/-- An item of an engine ends: its notice is queued, or discarded and counted after a reset of the engine (R228, R237). -/
def finalNotice (e hc : Nat) (n : Notice) (s : State) : State :=
  if (e, hc) ∈ s.eng.outst then
    giveNotice e n { s with eng := { s.eng with
      outst := s.eng.outst.filter (fun p => p != (e, hc)), late := s.eng.late.filter (fun p => p != (e, hc)) } }
  else if (e, hc) ∈ s.eng.discard then
    ({ s with eng := { s.eng with
        discard := s.eng.discard.filter (fun p => p != (e, hc)), late := s.eng.late.filter (fun p => p != (e, hc)) } }).inc
      (ENG_NTF_DISC.COUNT (e / 8) (e % 8))
  else s

/-- The notice kind of a final status (R228). -/
def noticeKind (status : Nat) : Nat := if status = 0x12 then 3 else if status = 0x10 then 4 else 1

/-- The air time of an item's last attempt, zero before any. -/
def lastAirOf (s : State) (hc : Nat) : Nat := sget (fun _ => 0) s.que.airs hc

/-- The attempts made of an item. The 4-bit ATTEMPTS of its header shows at most 15 of them (log entry 80). -/
def triesOf (s : State) (hc : Nat) : Nat := sget (fun _ => 0) s.que.tries hc

/-- The attempts made of an item have reached its limit of retries plus one (R159). -/
def triesOver (s : State) (hc : Nat) : Bool := decide (s.ih hc IH.RETRIES + 1 ≤ triesOf s hc)

/-- An item's origin is told its one final outcome (R160, R228, R280). -/
def tellOrigin (h hc status : Nat) (s : State) : State :=
  if s.ih hc IH.ORIGIN = 0 then
    let x := s.ih hc IH.CTX
    match s.ctx x with
    | some c => if c.header = some hc then s.complete x status 0 (s.ih hc IH.ATTEMPTS) (lastAirOf s hc) 0 else s
    | none => s
  else
    finalNotice (s.ih hc IH.ENGINE) hc
      ⟨noticeKind status, status, s.ih hc IH.ATTEMPTS, s.ih hc IH.COOKIE, h, lastAirOf s hc⟩ s

/-- An item that stands in no queue ends: its origin is told, its cells are freed, QLEN falls by one (R190). -/
def endItem (h hc status : Nat) (s : State) : State :=
  let s1 := tellOrigin h hc status s
  let s2 := { s1 with que := { s1.que with airs := sdel s1.que.airs hc, tries := sdel s1.que.tries hc } }
  freeCells (itemCells s hc) (s2.ncPut h NC.QLEN (s2.nc h NC.QLEN - 1))

/-- The command context that waits for an item's outcome ends without one (R33, R271). -/
def forgetOrigin (hc : Nat) (s : State) : State :=
  let x := s.ih hc IH.CTX
  if s.ih hc IH.ORIGIN == 0 && (match s.ctx x with | some c => c.header == some hc | none => false) then s.dropCtx x else s

/-- An item is removed without an outcome: its cells are freed, QLEN falls by one. -/
def dropItem (h hc : Nat) (s : State) : State :=
  let s0 := forgetOrigin hc s
  let s1 := { s0 with que := { s0.que with airs := sdel s0.que.airs hc, tries := sdel s0.que.tries hc } }
  freeCells (itemCells s hc) (s1.ncPut h NC.QLEN (s1.nc h NC.QLEN - 1))

/-- The notices waiting for a partition's notice port. -/
def notesOf (s : State) (p : Nat) : List PNote := sget (fun _ => []) s.hst.notes p

/-- A frame-counter mark or an exhausted slot is noticed to its partition with feature 2, or dropped from a full queue (R290). -/
def noteTo (p : Nat) (n : PNote) (s : State) : State :=
  if s.feature p 2 then
    if (notesOf s p).length < 64 then
      { s with hst := { s.hst with
          notes := sset (fun _ => []) s.hst.notes p (notesOf s p ++ [{ n with seq := s.hst.rseq, ready := s.atb }])
          rseq := s.hst.rseq + 1 } }
    else
      let s1 := (s.inc (HST_PCNT.COUNT p 7)).raise 8 3
      { s1 with hst := { s1.hst with lost := s1.hst.lost.filter (fun q => q != p) ++ [p] } }
  else s

end Sys2Proof.Machine
end

