-- ==== Sys2Proof/Machine/Keys.lean ====
section
/-! DEFINITION. Key slots, the choice of a slot, the drawing of a frame counter with its mark, nonces and the parts of a secured
frame (R243, R251-R253, R256, R259). -/

namespace Sys2Proof.Machine

/-- A short key slot. -/
def State.kslot (s : State) (k : Nat) : KSlot := sget (fun _ => ({} : KSlot)) s.sec.slots k

/-- The state with a short slot replaced. -/
def State.setKslot (s : State) (k : Nat) (v : KSlot) : State :=
  { s with sec := { s.sec with slots := sset (fun _ => {}) s.sec.slots k v } }

/-- A long key slot. -/
def State.lslot (s : State) (k : Nat) : LSlot := sget (fun _ => ({} : LSlot)) s.sec.longs k

/-- The state with a long slot replaced. -/
def State.setLslot (s : State) (k : Nat) (v : LSlot) : State :=
  { s with sec := { s.sec with longs := sset (fun _ => {}) s.sec.longs k v } }

/-- The key slots of partition p are erased; long slot 0 only by an alarm (R211, R244). -/
def eraseKeys (p : Nat) (s : State) : State :=
  { s with sec := { s.sec with
      slots := s.sec.slots.filter (fun k => s.slotOwner k.1 != p)
      longs := s.sec.longs.filter (fun k => k.1 == 0 || s.longOwner k.1 != p) } }

/-- The sibling of a slot (R253). -/
def sibling (k : Nat) : Nat := if k % 2 = 0 then k + 1 else k - 1

/-- A slot holds a key: LOADED or EXHAUSTED. -/
def holdsKey (s : State) (k : Nat) : Bool := (s.kslot k).state != 0

/-- The auxiliary security header from a slot's attributes (R256). -/
def auxHeader (level : Nat) (k : KSlot) (fc : Nat) : List Byte :=
  BitVec.ofNat 8 (level + 8 * k.mode) :: octets 4 fc ++
    (match k.mode with
     | 0 => []
     | 1 => octets 1 k.index
     | _ => octets 4 k.source ++ octets 1 k.index)

/-- The CCM* nonce (R252): source extended address, counter, level, most significant octets first. -/
def ccmNonce (ext fc level : Nat) : List Byte := (octets 8 ext).reverse ++ (octets 4 fc).reverse ++ octets 1 level

/-- The secured form of a frame: header with its auxiliary header, payload and MIC (R251). -/
def ccmSecure (key : List Byte) (ext fc level : Nat) (hdr pay : List Byte) : List Byte :=
  let n := ccmNonce ext fc level
  if level < 4 then hdr ++ pay ++ Config.ccmTag (micLen level) key n (hdr ++ pay) []
  else hdr ++ Config.ccmCipher key n hdr pay ++ Config.ccmTag (micLen level) key n hdr pay

/-- A received secured frame's MIC verifies (R251, R252): body is the PSDU without its FCS. -/
def ccmVerify (key : List Byte) (ext fc level hdrLen : Nat) (body : List Byte) : Bool :=
  let n := ccmNonce ext fc level
  let m := micLen level
  let hdr := body.take hdrLen
  let pay := (body.drop hdrLen).take (body.length - hdrLen - m)
  let tag := body.drop (body.length - m)
  if level < 4 then Config.ccmTag m key n (hdr ++ pay) [] == tag
  else Config.ccmTag m key n hdr (Config.ccmPlain key n hdr pay) == tag

/-- No HALT is in force, the random source has passed its start-up tests and frame jobs are enabled (R249, R262, R263). -/
def frameJobsRun (s : State) : Bool := s.on SEC_CTRL.EN && s.sec.haltBy == 0 && s.sec.rngUp

/-- The slot that holds the key index an item names, or the node's own slot (R256). -/
def chooseTx (s : State) (k idx : Nat) (en : Bool) : Option Nat :=
  if !en then some k
  else if (s.kslot k).state = 1 ∧ (s.kslot k).index = idx then some k
  else if (s.kslot (sibling k)).state = 1 ∧ (s.kslot (sibling k)).index = idx then some (sibling k)
  else none

/-- What a draw of a counter meets: a slot to use, or the status that ends the item (R256, R258). -/
inductive Draw where
  | ok (slot : Nat)
  | noKey (refused : Option Nat)
  | exhaust
  deriving DecidableEq, Repr

/-- The slot an encrypt job of partition p draws from (R201, R256, R258). -/
def drawFrom (s : State) (p k idx : Nat) (en : Bool) : Draw :=
  match chooseTx s k idx en with
  | none => .noKey none
  | some j =>
    if s.slotOwner j ≠ p then .noKey (some j)
    else match (s.kslot j).state with
      | 0 => .noKey none
      | 1 => .ok j
      | _ => .exhaust

/-- A drawn counter that ends a run of MARK_SHIFT bits is marked: the FIFO, the event and the notice (R259). -/
def pushMark (k c : Nat) (s : State) : State :=
  if c ≠ 0 ∧ c % 2 ^ s.rd SEC_CFG.MARK_SHIFT = 0 then
    let s1 := if s.sec.marks.length < 64 then { s with sec := { s.sec with marks := s.sec.marks ++ [(k, c)] } }
      else (s.wr SEC_MARK.OVF 1).raise 6 7
    noteTo (s.slotOwner k) ⟨0x40, k, c, 0, 0⟩ (s1.raise 6 2)
  else s

/-- A slot issues its counter and counts on; at 0xFFFF_FFFF it is EXHAUSTED (R256, R259). -/
def drawCounter (k : Nat) (s : State) : State × Nat :=
  let v := s.kslot k
  let c := v.fc
  let s1 := pushMark k c (s.setKslot k { v with fc := c + 1, state := if c + 1 = 0xFFFFFFFF then 2 else v.state })
  (if c + 1 = 0xFFFFFFFF then noteTo (s.slotOwner k) ⟨0x41, k, c + 1, 0, 0⟩ (s1.raise 6 3) else s1, c)

/-- A slot's attributes fit a frame's key identifier (R253). -/
def keyFits (v : KSlot) (mode idx src : Nat) : Bool :=
  v.mode == mode && (mode == 0 || v.index == idx) && (mode != 2 || v.source == src)

/-- What the choice of a receive slot gives (R253). -/
inductive RxKey where
  | ok (slot : Nat)
  | noKey
  | mismatch
  deriving DecidableEq, Repr

/-- A slot may be used by a job of partition p and holds a key (R201, R253). -/
def rxHolds (s : State) (p k : Nat) : Bool := s.slotOwner k == p && holdsKey s k

/-- The slot of a received frame: the named one, else its sibling (R253). -/
def chooseRx (s : State) (p k mode idx src : Nat) : RxKey :=
  if rxHolds s p k && keyFits (s.kslot k) mode idx src then .ok k
  else if rxHolds s p (sibling k) && keyFits (s.kslot (sibling k)) mode idx src then .ok (sibling k)
  else if rxHolds s p k || rxHolds s p (sibling k) then .mismatch
  else .noKey

end Sys2Proof.Machine
end

