-- ==== Sys2Proof/Machine/Frames.lean ====
section
/-! DEFINITION. The frames the hub sends: their PHY timing and lengths (R80-R87, R101, R436), how the format table builds their MAC
octets (R307), the check sequence, and the coded stream (R113, R114). -/

namespace Sys2Proof.Machine

/-- The Reach spreading factor of a rate (R40). -/
def reachSf (r : Nat) : Nat := match r with | 4 => 8 | 5 => 32 | 6 => 128 | _ => 512

/-- Ticks of one SUN-FSK bit (R40). -/
def fskBit (r : Nat) : Nat := match r with | 1 => 640 | 2 => 320 | _ => 160

/-- Ticks from a frame's SFD timestamp to its end, for a PSDU of len octets (R80, R81, R84, R87). -/
def bodyTicks (r : Nat) (coded : Bool) (len : Nat) : Nat :=
  if r = 0 then 512 * (2 + 2 * len)
  else if r ≤ 3 then fskBit r * (if coded then Config.fskCodedBits (16 + 8 * len) else 16 + 8 * len)
  else reachSf r * 40 * (36 + 8 * len)

/-- Ticks from the first preamble chip or bit to the SFD timestamp of a frame the hub sends (R436). -/
def shrTicks (s : State) (r : Nat) : Nat :=
  if r = 0 then 5120
  else if r ≤ 3 then fskBit r * (8 * s.rd (TXC_PHY.PRE r) + 16)
  else reachSf r * 40 * (s.rd (TXC_PHY.PRE r) + 8)

/-- Ticks from the air time to the end of a frame the hub sends (R101). -/
def frameTicks (s : State) (r len : Nat) : Nat := shrTicks s r + bodyTicks r (s.on (TXC_PHY.CODED r)) len

/-- Octets of the FCS of a frame the hub sends (R436). -/
def fcsLen (s : State) (r : Nat) : Nat := if r = 0 then 2 else if r ≤ 3 then (if s.on (TXC_PHY.FCS4 r) then 4 else 2) else 4

/-- The largest PSDU of a PHY (R80, R81, R85). -/
def maxPsdu (r : Nat) : Nat := if r = 0 then 127 else if r ≤ 3 then 2047 else 255

/-- The minimum Reach preamble (R84). -/
def minReach (r : Nat) : Nat := match r with | 4 => 32 | 5 => 16 | 6 => 10 | _ => 8

/-- A rate's transmit settings lie in their ranges (R436). -/
def txRateOk (s : State) (r : Nat) : Bool :=
  let p := s.rd (TXC_PHY.PRE r)
  if r = 0 then true
  else if r ≤ 3 then decide (4 ≤ p) && decide (p ≤ 1000)
  else decide (r < 8) && decide (minReach r ≤ p) && decide (p ≤ 255)

/-- A rate, grid and channel index are enabled for transmit (R279, R436). -/
def txEnabled (s : State) (r g k : Nat) : Bool :=
  decide (r < 8) && s.on (TXC_CORR_BASE.EN g) && s.on (CNP_GRID_BASE.EN g) && decide (k < s.rd (CNP_GRID_GEOM.COUNT g)) &&
    bitOn (s.rd (CNP_GRID_GEOM.RATES g)) r && txRateOk s r

/-- The check sequence of a frame the hub sends (R80, R81, R86, R436). -/
def fcsOctets (s : State) (r : Nat) (bs : List Byte) : List Byte := fcsOf r (s.on (TXC_PHY.FCS4 r)) bs

/-- Bits of the coded stream that staging writes: PHY header and PSDU, coded where FEC is in use (R86, R113; log entry 21). -/
def streamBits (s : State) (r len : Nat) : Nat :=
  if r = 0 then 8 * (1 + len)
  else if r ≤ 3 then (if s.on (TXC_PHY.CODED r) then Config.fskCodedBits (16 + 8 * len) else 16 + 8 * len)
  else 2 * (36 + 8 * len)

/-- Cells of the coded stream of n frames of len octets (R114; log entry 21). -/
def streamCells (s : State) (r len n : Nat) : Nat := ceilDiv (n * streamBits s r len) 512

/-- The coded stream of one PSDU on a grid under the settings of R436: the PHY header, the PSDU whitened where WHITEN is set, FEC and
interleaving (R85, R86, R113). -/
def frameStream (s : State) (r g : Nat) (psdu : List Byte) : List Bool :=
  let white := r != 0 && s.on (TXC_PHY.WHITEN r)
  let body := octetBits (if white then whitenAt 0 psdu else psdu)
  if r = 0 then lowBits 8 psdu.length ++ body
  else if r ≤ 3 then
    let plain := fskPhr psdu.length white (s.on (TXC_PHY.FCS4 r)) ++ body
    if s.on (TXC_PHY.CODED r) then
      (List.range (Config.fskCodedBits plain.length)).map
        (Config.fskCode (s.on (LNE_FSK_CFG.FEC_SCHEME g)) (s.on (LNE_FSK_CFG.INTERLEAVE g)) plain)
    else plain
  else reachPart (lowBits 24 (reachHeader psdu.length white)) ++ reachPart body

/-- The number whose bits stand lowest first. -/
def bitsNum : List Bool → Nat
  | [] => 0
  | b :: bs => (if b then 1 else 0) + 2 * bitsNum bs

/-- A coded stream is written into its cells, 512 bits to a cell (R113, R114). -/
def putStream : List Nat → List Bool → State → State
  | [], _, s => s
  | k :: ks, bs, s =>
    putStream ks (bs.drop 512) (s.setCell k { s.cell k with
      data := BitVec.ofNat 512 (bitsNum (bs.take 512)), next := ks.headD noCell, last := ks.isEmpty, count := 0 })

/-! ## MAC octets -/

/-- Octets from the start of a frame to the end of its addressing fields, where the auxiliary security header stands (R307). -/
def auxAtOf (mac : List Byte) : Nat := ctlLen (macCtl (macNum mac 0 2))

/-- The sequence number of a frame, if it carries one. -/
def macSeq (mac : List Byte) : Nat := unoctets ((mac.drop 2).take 1)

/-- A header IE of two content octets (log entry 22). -/
def headerIe (id v : Nat) : List Byte := octets 2 (2 + 128 * id) ++ octets 2 v

/-- The hub's extended address in a PAN entry (R252). -/
def panExt (s : State) (i : Nat) : Nat := s.rd (LNK_PAN_EXT_LO.EXT_LO i) + 2 ^ 32 * s.rd (LNK_PAN_EXT_HI.EXT_HI i)

/-- The address octets of a format's address mode. -/
def addrOctets (mode short ext : Nat) : List Byte := if mode = 2 then octets 2 short else if mode = 3 then octets 8 ext else []

/-- The PAN ID compression bit that the addressing requires (R307; log entry 22). -/
def panCompress (fm : BitVec 512) : Nat :=
  let d := FM.DST_MODE.of fm
  let sm := FM.SRC_MODE.of fm
  let dp := FM.INS_DPAN.of fm
  let sp := FM.INS_SPAN.of fm
  if bf (BitVec.ofNat 16 (FM.FC.of fm)) 12 2 = 2 then
    (if d = 0 ∧ sm = 0 then dp
     else if sm = 0 then 1 - dp
     else if d = 0 then 1 - sp
     else if d = 3 ∧ sm = 3 then 1 - dp else 1 - sp)
  else if d ≠ 0 ∧ sm ≠ 0 ∧ sp = 0 then 1 else 0

/-- A frame built from a format entry without its auxiliary security header, and where that header goes (R307). -/
def buildMac (s : State) (fm : BitVec 512) (pend secure : Bool) (seq pan : Nat) (node : Option Nat) (tcorr rz : Option Nat) :
    List Byte × Nat :=
  let ies := (match tcorr with | some v => if FM.INS_TCORR.of fm = 1 then headerIe 0x1E v else [] | none => []) ++
    (match rz with | some v => if FM.INS_RZ.of fm = 1 then headerIe 0x1D v else [] | none => []) ++
    ((recBytes 64 fm).drop 16).take (FM.IE_LEN.of fm)
  let fc := FM.FC.of fm + (if pend then 0x10 else 0) + (if secure then 8 else 0) + (if ies.isEmpty then 0 else 0x200) +
    64 * panCompress fm
  let nshort := match node with | some h => s.nc h NC.SHORT | none => 0
  let next := match node with | some h => s.nc h NC.EXT | none => 0
  let pid := octets 2 (s.rd (LNK_PAN_ID.PAN_ID pan))
  let pre := octets 2 fc ++ (if FM.INS_SEQ.of fm = 1 then octets 1 seq else []) ++
    (if FM.INS_DPAN.of fm = 1 then pid else []) ++ addrOctets (FM.DST_MODE.of fm) nshort next ++
    (if FM.INS_SPAN.of fm = 1 then pid else []) ++ addrOctets (FM.SRC_MODE.of fm) (s.rd (LNK_PAN_ID.SHORT pan)) (panExt s pan)
  (pre ++ ies, pre.length)

/-- Octets of the auxiliary security header of a secured frame built from a format entry: none where INS_AUX is clear (R307). -/
def auxOf (fm : BitVec 512) (mode : Nat) : Nat := if FM.INS_AUX.of fm = 1 then auxLen mode else 0

/-- The state entry n of a sequencer program (R174). -/
def seqState (s : State) (q n : Nat) : BitVec 64 :=
  BitVec.ofNat 64 ((s.reg (LNK_SEQ_LO.reg q n)).toNat + 2 ^ 32 * (s.reg (LNK_SEQ_HI.reg q n)).toNat)

/-- The format entry of a kind: the one a build action of the program names, else the lowest of that kind (log entry 23). -/
def formatOf (s : State) (prog action kind : Nat) : BitVec 512 :=
  let named := (List.range 128).find? (fun n => SS.ACTION.of (seqState s prog n) == action)
  match named with
  | some n => sget (fun _ => 0) s.lnk.fmts (SS.ARG.of (seqState s prog n))
  | none => ((s.lnk.fmts.find? (fun p => FM.KIND.of p.2 == kind)).map (·.2)).getD 0

end Sys2Proof.Machine
end

