-- ==== Sys2Proof/Machine/Staging.lean ====
section
/-! DEFINITION. Staging entries and acknowledgement slots as operations (R99-R129): taking and freeing an entry, carriers, coexistence
requests, airtime, squash, the pending-clear frame, and preparation with its encrypt job (R256-R258). Entries are numbered
0-1,023 and the acknowledgement slots 1,024-1,055. -/

namespace Sys2Proof.Machine

/-- A staging entry or acknowledgement slot. -/
def State.ent (s : State) (e : Nat) : Ent := sget (fun _ => ({} : Ent)) s.txc.ents e

/-- The state with an entry replaced. -/
def State.setEnt (s : State) (e : Nat) (x : Ent) : State :=
  { s with txc := { s.txc with ents := sset (fun _ => {}) s.txc.ents e x } }

/-- A FREE entry among n from lo on, if there is one: which one a new item takes is open (log entry 20). -/
def pickEnt (s : State) (lo n : Nat) : Option Nat :=
  let free := ((List.range n).map (· + lo)).filter (fun e => (s.ent e).st == 0)
  if free.isEmpty then none else free[s.freeVal free.length]?

/-- The state of the entry a register reads: its STATE code (R112). -/
def isSlot (e : Nat) : Bool := decide (1024 ≤ e)

/-! ## Airtime (R205, R206) -/

/-- Airtime charged to a partition in the present period. -/
def airUsed (s : State) (p : Nat) : Nat := s.rd (PRT_PAIR.VALUE p 0)

/-- The present period. -/
def airPeriod (s : State) : Nat := s.atb / s.rd PRT_AIR_PERIOD.TICKS

/-- The placement check of R205. -/
def airOk (s : State) (p a : Nat) : Bool :=
  !s.on PRT_AIR_CTRL.EN ||
    shareOk (s.rd PRT_AIR_TOTAL.TICKS) (fun q => s.rd (PRT_P_AIR_GUAR.GUAR q)) (fun q => s.rd (PRT_P_AIR_CAP.CAP q)) (airUsed s) p a

/-- Airtime is charged. -/
def chargeAir (p a : Nat) (s : State) : State := s.wr (PRT_PAIR.VALUE p 0) (airUsed s p + a)

/-- An entry's charge returns if its period still runs (R206). -/
def returnAir (x : Ent) (s : State) : State :=
  if x.charge ≠ 0 ∧ x.period = airPeriod s then s.wr (PRT_PAIR.VALUE x.part 0) (airUsed s x.part - x.charge) else s

/-! ## Correction and ramp -/

/-- The correction entry that serves a grid channel on a chain (R104). -/
def corrEntry (s : State) (n g k : Nat) : BitVec 1024 :=
  sget (fun _ => 0) s.txc.corr (512 * n + (s.rd (TXC_CORR_BASE.BASE g) + k) % 512)

/-- The ramp curve of a grid channel on a chain. -/
def curveOf (s : State) (n g k : Nat) : Nat := CE.RAMP_CURVE.of (corrEntry s n g k)

/-- T_UP of a ramp curve. -/
def tUp (s : State) (c : Nat) : Nat := s.rd (TXC_RAMP_T.T_UP c)
/-- T_DOWN of a ramp curve. -/
def tDown (s : State) (c : Nat) : Nat := s.rd (TXC_RAMP_T.T_DOWN c)

/-! ## Coexistence requests -/

/-- COEX_REQ follows the intervals in force and is held deasserted in mode OFF (R131, R132); an assertion is counted. -/
def reqUpdate (s : State) : State :=
  [0, 1, 2, 3].foldl (fun u k =>
    let want := u.on (TXC_COEX_CFG.MODE k) && u.txc.coex.any (fun r => r.pair == k)
    if want == u.on (TXC_COEX_STS.REQ k) then u
    else if want then (u.wr (TXC_COEX_STS.REQ k) 1).inc (TXC_COEX_REQS.COUNT k) else u.wr (TXC_COEX_STS.REQ k) 0) s

/-- A frame that misses or is squashed withdraws its interval at once (R132). -/
def withdrawCoex (e : Nat) (s : State) : State :=
  reqUpdate { s with txc := { s.txc with coex := s.txc.coex.filter (fun r => !(r.ent == e && r.drop.isNone)) } }

/-! ## Headers and the sweep (R196) -/

/-- A bad header or a malformed chain puts the context in SWEEP; items still reachable before it end POISONED. -/
def startSweep (h bad : Nat) (s : State) : State :=
  let items := queueItems s h
  let before := if items.contains bad then items.takeWhile (fun i => i != bad) else []
  let n := s.node h
  let s1 := (s.setNode h { n with life := 3 }).ncPut h NC.HEAD bad
  let s2 := { s1 with que := { s1.que with sweeps := s1.que.sweeps ++ [h] } }.wr QUE_STS.SWEEP 1
  before.foldl (fun u i => endItem h i 0x10 u) s2

/-- A cell's parity is bad or it is poisoned. -/
def badCell (c : FCell) : Bool := c.badPar != 0 || c.poison

/-- The headers that an operation on an ACTIVE node's queue reads are checked; the first bad one starts the sweep. The flag tells that all
are good (R196). -/
def readHeaders (h : Nat) (ks : List Nat) (s : State) : State × Bool :=
  match ks.find? (fun k => badCell (s.cell k)) with
  | some k => (if (s.node h).life = 1 then startSweep h k (cellParity k s) else s, false)
  | none => (s, true)

/-- The header behind which an item of a level is linked: the last of the levels above, and for a written item of its own level too. -/
def linkPoint (s : State) (h k : Nat) (own : Bool) : List Nat :=
  ((queueItems s h).filter (fun i => decide (s.ih i IH.PRIO < k) || (own && s.ih i IH.PRIO == k))).getLast?.toList

/-- The octets an item's data chain holds match its LENGTH (R188). -/
def chainOk (s : State) (hc : Nat) : Bool :=
  let ks := chainCells s 40 (s.ih hc IH.FIRST_DATA)
  ((ks.map (fun k => (cellBytes (s.cell k)).length)).sum == s.ih hc IH.LENGTH) &&
    (match ks.getLast? with | some k => (s.cell k).last | none => true)

/-! ## Leaving staging -/

/-- An entry becomes FREE: its coded-stream cells are freed, its coexistence interval ends and no retry of it waits (R114, R132). -/
def releaseEnt (e : Nat) (s : State) : State :=
  let s1 := withdrawCoex e ((freeCells (s.ent e).cells s).setEnt e {})
  { s1 with lnk := { s1.lnk with retryAt := sdel s1.lnk.retryAt e } }

/-- An entry leaves staging. A PREPARING one becomes FREE only when its cipher result returns, and holds nothing but its place until then
(R122, R125). -/
def vacate (e : Nat) (s : State) : State :=
  let x := s.ent e
  if x.st = 2 then
    (releaseEnt e s).setEnt e { st := 2, kind := x.kind, chain := x.chain, part := x.part, prio := x.prio, job := true, fc := x.fc, dead := true }
  else releaseEnt e s

/-- A data frame goes back to the head of its level (R122, R125). -/
def backToQueue (x : Ent) (s : State) : State :=
  if x.kind = 0 ∨ x.kind = 4 then
    match x.node, x.item with
    | some h, some hc => returnItem h hc (readHeaders h (linkPoint s h (s.ih hc IH.PRIO) false) s).1
    | _, _ => s
  else s

/-- A counter already returned for an entry that does not go to the air is burned (R126). -/
def burnEnt (x : Ent) (s : State) : State := if x.fc.isSome ∧ x.st ≠ 8 ∧ x.st ≠ 2 then s.inc TXC_CNT_BURN.COUNT else s

/-- An entry's frame before securing: octets, header length, place of the auxiliary header. -/
def entMac (s : State) (x : Ent) : List Byte × Nat × Nat :=
  match x.item with
  | some hc => if x.kind = 0 ∨ x.kind = 4 then
      let m := itemBytes s hc
      (m, s.ih hc IH.HDR_LEN, auxAtOf m) else (x.mac, x.hdrLen, x.auxAt)
  | none => (x.mac, x.hdrLen, x.auxAt)

/-- The coded stream of an entry: one frame, or the frames of a wake-up sequence (R113, R167). -/
def entStream (s : State) (x : Ent) : List Bool :=
  if x.kind = 3 then
    (List.range x.nWuf).flatMap (fun i => frameStream s x.rate x.grid ((x.psdu.drop (i * x.wufLen)).take x.wufLen))
  else frameStream s x.rate x.grid x.psdu

/-- Cells for an entry's coded stream, if the queue fabric grants them (R114, R192). -/
def streamAlloc (x : Ent) (len : Nat) (s : State) : Option (State × List Nat) :=
  let n := streamCells s x.rate len (max 1 x.nWuf)
  if cellsOk s x.part n (s.rd QUE_RX_RESERVE.CELLS) then some (takeCells x.part n s) else none

/-- The entry's stream is complete in the frame store: READY (R112, R113, R118). -/
def ready (e : Nat) (x : Ent) (s : State) : State :=
  (putStream x.cells (entStream s x) s).setEnt e { x with st := 3, job := false, readyAt := s.atb }

/-- An unsecured entry is prepared: READY once its cells are granted. -/
def prepPlain (e : Nat) (s : State) : State :=
  let x := s.ent e
  let m := (entMac s x).1
  let psdu := if x.kind = 3 then x.psdu else m ++ fcsOctets s x.rate m
  let len := if x.kind = 3 then x.wufLen else m.length + fcsLen s x.rate
  match streamAlloc x len s with
  | some r => ready e { x with cells := r.2, psdu := psdu, len := len, dur := if x.kind = 3 then x.dur else frameTicks s x.rate len } r.1
  | none => s

/-- An entry is placed in an acknowledgement slot, if a slot is free; an unsecured one is READY at once (R118). -/
def stageSlot (x : Ent) (s : State) : Option (State × Nat) :=
  match pickEnt s 1024 32 with
  | some e =>
    let s1 := s.freed.setEnt e { x with st := 1, seqNo := s.txc.arrivals }
    let s2 := { s1 with txc := { s1.txc with arrivals := s1.txc.arrivals + 1 } }
    some (if x.secure then s2 else prepPlain e s2, e)
  | none => none

/-- The pending-clear rule of R154 for node h after an acknowledgement that ended at aEnd: the empty frame is staged if it fits the
node's listen time. -/
def pendClear (x : Ent) (s1 : State) : State :=
  match x.node with
  | none => s1
  | some h =>
    let s := ctxCheck h s1
    if s.nc h NC.PCLR_OK = 0 then s
    else
      let lvl := s.nc h NC.SEC_LEVEL
      let fm := formatOf s 3 5 4
      let m := buildMac s fm false (lvl != 0) (s.freeVal 256) (s.nc h NC.PAN) (some h) none none
      let k := s.kslot (s.nc h NC.KEY_SLOT)
      let len := m.1.length + (if lvl = 0 then 0 else auxOf fm k.mode + micLen lvl) + fcsLen s x.rate
      let c := curveOf s x.chain x.grid x.chan
      let dur := frameTicks s x.rate len
      let t := max (s.atb + 4096) (x.aEnd + s.rd (LNK_RATE_TURN.TURN x.rate))
      let a := tUp s c + dur + tDown s c
      let s0 := s.freed
      if x.aEnd + x.listen < t + dur then (s0.inc LNK_CNT_PCLR_LATE.COUNT).raise 4 3
      else if !airOk s0 x.part a then s0.inc (PRT_PCNT.COUNT x.part 1)
      else
        let y : Ent := { kind := 2, chain := x.chain, part := x.part, prio := 0, node := some h, air := t, grid := x.grid, chan := x.chan
                         rate := x.rate, freqAdj := x.freqAdj, secure := lvl != 0, level := lvl, len := len, dur := dur
                         slot := if lvl = 0 then none else some (s.nc h NC.KEY_SLOT), mac := m.1, hdrLen := m.1.length, auxAt := m.2, noAux := FM.INS_AUX.of fm == 0
                         pan := some (s.nc h NC.PAN), tUp := tUp s c, tDown := tDown s c, charge := a, period := airPeriod s }
        match stageSlot y s0 with
        | some r => (chargeAir x.part a r.1).inc LNK_CNT_PCLR.COUNT
        | none => (s0.inc LNK_CNT_ACK_NOCRED.COUNT).raise 4 0

/-- The acknowledgement that a follow-up answers to is still on its way: its slot is in use (R154). -/
def ackUnderWay (x : Ent) (s : State) : Bool :=
  s.txc.ents.any (fun p => p.2.kind == 1 && p.2.node == x.node && p.2.air + p.2.dur == x.aEnd)

/-- A follow-up has left staging without committing: the pending-clear rule applies once its acknowledgement went to the air. -/
def followUpLost (x : Ent) (s : State) : State :=
  if x.kind = 4 ∧ !ackUnderWay x s then pendClear x s else s

/-- The link controller's sequencer instance for a program starts (R173). -/
def startSeq (prog sfd fend air aend slot sample : Nat) (conds : BitVec 16) (h hc att : Option Nat) (s : State) : State :=
  { s with lnk := { s.lnk with seqs := s.lnk.seqs ++ [⟨prog, 0, s.atb, s.atb, sfd, fend, air, aend, slot, sample, conds, h, hc, att⟩] } }

/-- A follow-up has left staging without committing: its sequencer program starts, and the pending-clear rule applies (R154, R173). -/
def followUpGone (x : Ent) (s : State) : State :=
  if x.kind = 4 then followUpLost x (startSeq 3 0 0 x.air x.aEnd 0 0 0 x.node x.item none s) else s

/-- A squash of one entry (R124, R125, R126): SCHEDULED to PRIMED and HELD only; a PREPARING entry stays until its result
returns. -/
def squashEnt (cause : Nat) (s : State) (e : Nat) : State :=
  let x := s.ent e
  if x.dead ∨ ¬(x.st ∈ [1, 2, 3, 4, 5, 8]) then s
  else
    let s1 := returnAir x (burnEnt x s)
    let s3 := backToQueue x (vacate e s1)
    let s4 := { s3 with lnk := { s3.lnk with atts := s3.lnk.atts.filter (fun a => a.ent != e || a.done) } }
    let s5 := (s4.inc (TXC_SQ_CNT.COUNT (cause - 1))).raise 3 1
    if cause < 6 then followUpGone x s5 else s5

/-- A schedule item that staging has not yet taken is squashed: its charge returns and its frame goes back (R124, R125). -/
def squashSched (cause : Nat) (s : State) (d : Sched) : State :=
  let s1 := { s with lnk := { s.lnk with scheds := s.lnk.scheds.filter (fun y => !decide (y = d)) } }
  let s2 := ((backToQueue d.ent (returnAir d.ent s1)).inc (TXC_SQ_CNT.COUNT (cause - 1))).raise 3 1
  if cause < 6 then followUpGone d.ent s2 else s2

/-- The follow-up of an acknowledgement that does not go to the air is not placed: the frame keeps its place (R154). -/
def unplaceFollowUp (x : Ent) (s : State) : State :=
  let mine := fun (y : Ent) => y.kind == 4 && y.node == x.node && y.aEnd == x.air + x.dur
  let s1 := ((s.txc.ents.filter (fun p => mine p.2 && [1, 2, 3, 4, 5].contains p.2.st && !p.2.dead)).map (·.1)).foldl (fun u e =>
    let y := u.ent e
    backToQueue y (vacate e (returnAir y (burnEnt y u)))) s
  let gone := s1.lnk.scheds.filter (fun d => mine d.ent)
  let s2 := { s1 with lnk := { s1.lnk with scheds := s1.lnk.scheds.filter (fun d => !mine d.ent) } }
  gone.foldl (fun u d => backToQueue d.ent (returnAir d.ent u)) s2

/-- What a squash can take: an entry by number or a schedule item, with its air time and order of arrival. -/
structure Prey where
  air : Nat
  seqNo : Nat
  ent : Option Nat
  sched : Sched

/-- Prey in descending order of air time, so that returns leave the earliest at the head (R125). -/
def byAirDesc (xs : List Prey) : List Prey :=
  xs.mergeSort (fun a b => decide (b.air < a.air) || (a.air == b.air && decide (b.seqNo ≤ a.seqNo)))

/-- Every entry and schedule item that a condition names is squashed with one cause (R124). Schedule items count as entry 0. -/
def squashAll (cause : Nat) (sel : Nat → Ent → Bool) (s : State) : State :=
  let es := (s.txc.ents.filter (fun p => sel p.1 p.2)).map (fun p => ({ air := p.2.air, seqNo := p.2.seqNo, ent := some p.1, sched := ⟨p.2⟩ } : Prey))
  let ds := (s.lnk.scheds.zipIdx.filter (fun d => sel 0 d.1.ent)).map (fun d =>
    ({ air := d.1.ent.air, seqNo := s.txc.arrivals + d.2, ent := none, sched := d.1 } : Prey))
  (byAirDesc (es ++ ds)).foldl (fun u x => match x.ent with
    | some e => squashEnt cause u e
    | none => squashSched cause u x.sched) s

/-- The squash of a node's entries, not of acknowledgement slots (R124). -/
def squashNode (cause h : Nat) (s : State) : State :=
  squashAll cause (fun e x => !isSlot e && x.node == some h) s

/-- The squash of every entry whose frame uses a key slot (R247). A frame not yet prepared uses the slot of its node. -/
def squashSlot (k : Nat) (s : State) : State :=
  squashAll 2 (fun e x => !isSlot e && x.slot == some k) s

/-! ## Preparation (R113-R115, R256-R258) -/

/-- An item that cannot be prepared ends with a status, and one that was a follow-up has left staging uncommitted; an acknowledgement or
pending-clear frame is not sent, and neither is the follow-up of the acknowledgement (R149, R154, R258). -/
def prepareFails (e status : Nat) (s : State) : State :=
  let x := s.ent e
  let s1 := returnAir x (releaseEnt e s)
  if x.kind = 0 ∨ x.kind = 4 then
    match x.node, x.item with
    | some h, some hc => followUpGone x (endItem h hc status s1)
    | _, _ => s1
  else
    let s2 := (s1.inc LNK_CNT_ACK_NOCRED.COUNT).raise 4 0
    if x.kind = 1 then unplaceFollowUp x s2 else s2

/-- Transmit contexts in use: encrypt jobs, the unwrap of a key operation under way, a seal job (R249). -/
def txUsed (s : State) : Nat := s.sec.txJobs.length + s.sec.unwrapKey.toList.length + s.sec.sealKey.toList.length

/-- A frame counter of slot k cannot be drawn for want of a key: counted by block and by partition (R256, R258, R266). -/
def countNoKey (p : Nat) (s : State) : State := (s.inc SEC_CNT_NO_KEY.COUNT).inc (SEC_PCNT.COUNT p 1)

/-- Counters to one node air in increasing order: a draw squashes the node's later-airing uncommitted entries with lower counters
from the same slot (R257). -/
def counterOrder (e k c : Nat) (s : State) : State :=
  let x := s.ent e
  squashAll 2 (fun j y => !isSlot j && j != e && y.node == x.node && y.node.isSome && y.slot == some k && y.st != 8 &&
    (match y.fc with | some f => decide (f < c) | none => false) && decide (x.air < y.air)) s

/-- A secured entry is prepared: the slot is chosen, the length judged, the cells granted, the counter drawn and the job issued. -/
def prepSecured (e : Nat) (s : State) : State :=
  let x := s.ent e
  let m := entMac s x
  let isItem := decide (x.kind = 0 ∨ x.kind = 4)
  let base := x.slot.getD 0
  let idx := match x.item with | some hc => if isItem then s.ih hc IH.KEY_INDEX else 0 | none => 0
  let en := match x.item with | some hc => isItem && s.ih hc IH.KEY_IDX_EN == 1 | none => false
  match drawFrom s x.part base idx en with
  | .noKey r =>
    let s1 := match r with | some k => s.bark x.part 5 2 k | none => s
    prepareFails e 0x13 (countNoKey x.part s1)
  | .exhaust => prepareFails e 0x14 ((s.inc SEC_CNT_EXHAUST.COUNT).inc (SEC_PCNT.COUNT x.part 3))
  | .ok k =>
    let v := s.kslot k
    let len := m.1.length + (if x.noAux then 0 else auxLen v.mode) + micLen x.level + fcsLen s x.rate
    if maxPsdu x.rate < len then prepareFails e 0x11 s
    else if !frameJobsRun s || decide (32 ≤ txUsed s) then s
    else match streamAlloc x len s with
      | none => s
      | some r =>
        let d := drawCounter k r.1
        let hdr := m.1.take m.2.2 ++ (if x.noAux then [] else auxHeader x.level v d.2) ++ (m.1.drop m.2.2).take (m.2.1 - m.2.2)
        let body := ccmSecure v.key (panExt s (x.pan.getD 0)) d.2 x.level hdr (m.1.drop m.2.1)
        let s1 := d.1.setEnt e { x with st := 2, cells := r.2, psdu := body ++ fcsOctets s x.rate body, len := len
                                        dur := frameTicks s x.rate len, slot := some k, fc := some d.2, job := true }
        let s2 := { s1 with sec := { s1.sec with txJobs := s1.sec.txJobs ++ [⟨e⟩] } }
        counterOrder e k d.2 s2

/-- Preparation of a SCHEDULED entry: parity of its item's cells first (R196), then the plain or the secured path. -/
def prepareEnt (e : Nat) (s : State) : State :=
  let x := s.ent e
  let go := if x.secure then prepSecured e s else prepPlain e s
  match x.node, x.item with
  | some h, some hc =>
    if x.kind = 0 ∨ x.kind = 4 then
      if badCell (s.cell hc) ∨ !chainOk s hc then startSweep h hc (returnAir x (releaseEnt e (cellParity hc s)))
      else match (chainCells s 40 (s.ih hc IH.FIRST_DATA)).find? (fun k => badCell (s.cell k)) with
        | some k => prepareFails e 0x10 (cellParity k s)
        | none => go
    else go
  | _, _ => go

end Sys2Proof.Machine
end

