-- ==== Sys2Proof/Machine/Canopy.lean ====
section
/-! DEFINITION. The canopy (R35-R68): search, candidates, noise estimates, the gain loop, over-range and taint, and the diagnostic
capture. -/

namespace Sys2Proof.Machine

/-- The CNP lock is set (R68). -/
def State.cnpLocked (s : State) : Bool := s.on CNP_CTRL.LOCK

/-- The group delay D of a slice (R59). -/
def sliceD (s : State) (b : Nat) : Nat := if b = 0 then s.rd CNP_TAINT_SUB.D else s.rd CNP_TAINT_24.D

/-- The clean time of a slice (R59). -/
def sliceClean (s : State) (b : Nat) : Nat := if b = 0 then s.rd CNP_TAINT_SUB.CLEAN else s.rd CNP_TAINT_24.CLEAN

/-- The slice of a rate code (R40): O-QPSK is received at 2.4 GHz, every other rate in the sub-GHz slice. -/
def rateSlice (r : Nat) : Nat := if r = 0 then 1 else 0

/-- The correlation step S_r of a rate (R45). -/
def corrStep (r : Nat) : Nat :=
  match r with
  | 0 => 512 | 1 => 5120 | 2 => 2560 | 3 => 1280 | 4 => 320 | 5 => 1280 | 6 => 5120 | _ => 20480

/-- The correlation length L of a rate (R40). -/
def corrLen (r : Nat) : Nat :=
  match r with
  | 0 => 2048 | 1 => 15360 | 2 => 7680 | 3 => 3840 | 4 => 640 | 5 => 2560 | 6 => 10240 | _ => 40960

/-- Twice the offset tolerance T of a rate, in Hz (R40, R43). -/
def twoTol (r : Nat) : Nat :=
  match r with
  | 0 => 240000 | 5 => 20000 | 6 => 5000 | 7 => 1250 | _ => 80000

/-- The antennas enabled: those of CNP_ANT_EN within the power state's set (R360). -/
def antEnabled (s : State) (n : Nat) : Bool :=
  bitOn (s.rd CNP_ANT_EN.EN) n &&
    match s.powerState with
    | 1 => bitOn (s.rd PWR_TRIM_CFG.ANT) n
    | 2 => s.rd PWR_WATCH_CFG.ANT == n
    | _ => true

/-- The point classes the power state lets evaluate (R360). -/
def classOn (s : State) (c : Nat) : Bool :=
  match s.powerState with
  | 1 => bitOn (s.rd PWR_TRIM_CFG.CLS) c
  | 2 => bitOn (s.rd PWR_WATCH_CFG.CLS) c
  | _ => true

/-- Streams flow: FS is locked and the RADIO domain runs (R68). -/
def streamsOn (s : State) : Bool := s.clk.tb && !s.radioHeld

/-- An antenna is tainted on a slice somewhere in [lo, hi) (R59, R60). -/
def taintedIn (s : State) (n b lo hi : Nat) : Bool :=
  s.cnp.taints.any (fun t => t.ant == n && t.slice == b && decide (t.lo < hi) && decide (lo < t.hi))

/-- The slice of a lane's frame. -/
def laneSlice (l : Lane) : Nat := rateSlice l.cand.rate

/-- The tick from which a lane reads its streams (R72). -/
def laneStart (l : Lane) : Nat := l.cand.ts - min (corrLen l.cand.rate) 3072

/-- A lane's frame has samples in [lo, hi): from where it reads to the frame's end once that is known (R72, R77). -/
def laneSpans (l : Lane) (lo hi : Nat) : Bool :=
  decide (laneStart l < hi) && (l.fend == 0 || decide (lo < l.fend))

/-- Lanes in flight on a slice record an antenna tainted over [lo, hi) (R77). -/
def taintLanes (s : State) (n b lo hi : Nat) : State :=
  { s with lanes := s.lanes.map (fun p =>
      if laneSlice p.2 = b ∧ laneSpans p.2 lo hi then (p.1, { p.2 with taint := bitSet p.2.taint n }) else p) }

/-- What is known of tick t may be forgotten: it is long past and no lane in flight reads that far back (R42, R95). -/
def longPast (s : State) (t : Nat) : Bool := decide (t + 65536 ≤ s.atb) && s.lanes.all (fun p => decide (t < laneStart p.2))

/-- The attenuation in effect on antenna n at tick t, which the stream samples of t carry (R42). -/
def attAt (s : State) (n t : Nat) : Nat :=
  match s.cnp.attLog.find? (fun e => e.1 == n && decide (t < e.2.1)) with
  | some e => e.2.2
  | none => s.rd (CNP_ATT.ATT n)

/-- The attenuation of antenna n becomes a at tick t; what was in effect before is kept for the samples taken under it, oldest first
(R42, R57). -/
def setAtt (n t a : Nat) (s : State) : State :=
  { s with cnp := { s.cnp with
      attLog := s.cnp.attLog.filter (fun (e : Nat × Nat × Nat) => !longPast s e.2.1) ++ [(n, t, s.rd (CNP_ATT.ATT n))] } }.wr (CNP_ATT.ATT n) a

/-- The present-taint field of a slice. -/
def taintNowF (b : Nat) : RegFld := if b = 0 then CNP_TAINT_NOW.SUB else CNP_TAINT_NOW.B24

/-- The blind flag of a slice. -/
def blindF (b : Nat) : RegFld := if b = 0 then CNP_STS.BLIND_SUB else CNP_STS.BLIND_24

/-- A slice's blindness follows the enabled antennas and their taint; each blind episode is counted and raised (R62). -/
def blindCheck (b : Nat) (s : State) : State :=
  let en := (List.range 8).filter (antEnabled s)
  let blind := !en.isEmpty && en.all (fun n => bitOn (s.rd (taintNowF b)) n)
  if blind then
    if s.on (blindF b) then s
    else ((s.wr (blindF b) 1).inc (if b = 0 then CNP_BLIND_CNT.SUB else CNP_BLIND_CNT.B24)).raise 1 (1 + b)
  else s.wr (blindF b) 0

/-- Taint intervals with [lo, hi) of antenna n and slice b among them; those that overlap or touch it merge into one (R60). -/
def mergeTaint (ts : List Taint) (n b lo hi : Nat) : List Taint :=
  let meets := fun (t : Taint) => t.ant == n && t.slice == b && decide (t.lo ≤ hi) && decide (lo ≤ t.hi)
  let with_ := ts.filter meets
  ts.filter (fun t => !meets t) ++ [⟨n, b, with_.foldl (fun m t => min m t.lo) lo, with_.foldl (fun m t => max m t.hi) hi⟩]

/-- Antenna n is tainted on slice b over [lo, hi): the interval is kept, lanes record it, and blindness follows
(R59, R60, R62). -/
def addTaint (n b lo hi : Nat) (s : State) : State :=
  let keep := s.cnp.taints.filter (fun t => !longPast s t.hi)
  let s1 := { s with cnp := { s.cnp with taints := mergeTaint keep n b lo hi } }
  let s2 := taintLanes s1 n b lo hi
  blindCheck b (s2.wr (taintNowF b) (bitSet (s2.rd (taintNowF b)) n))

/-- A step, trim or limit move at tick t taints both slices over [t - D, t + t_clean) (R60). -/
def stepTaint (n t : Nat) (s : State) : State :=
  [0, 1].foldl (fun u b => addTaint n b (t - sliceD s b) (t + sliceClean s b) u) s

/-- The attenuation of antenna n moves to a at the present tick, tainting the antenna if it changes (R57, R60). -/
def moveAtt (n a : Nat) (s : State) : State :=
  if s.rd (CNP_ATT.ATT n) = a then s else stepTaint n s.atb (setAtt n s.atb a s)

/-- The antenna's record. -/
def State.ant (s : State) (n : Nat) : Ant := sget (fun _ => ({} : Ant)) s.cnp.ants n

/-- The state with an antenna's record replaced. -/
def State.setAnt (s : State) (n : Nat) (a : Ant) : State :=
  { s with cnp := { s.cnp with ants := sset (fun _ => {}) s.cnp.ants n a } }

/-! ## Search -/

/-- The antenna-count adjustment for K antennas (R46). -/
def kAdj (s : State) (k : Nat) : Nat :=
  if k = 0 then 0 else if k ≤ 4 then bf (s.reg CNP_KADJ0.reg) (8 * (k - 1)) 8 else bf (s.reg CNP_KADJ1.reg) (8 * (k - 5)) 8

/-- A point's noise estimate on antenna n, kept one up so that zero says none yet (R47). -/
def noiseOf (s : State) (p n : Nat) : Nat := (sget (fun _ => []) s.cnp.noise p).getD n 0

/-- The antennas a point combines over the correlation interval [lo, hi) of its slice (R45). -/
def usedAnts (s : State) (p b lo hi : Nat) : List Nat :=
  (List.range 8).filter (fun n => antEnabled s n && !taintedIn s n b lo hi && noiseOf s p n != 0)

/-- The encoded score: 40·log10 of num / den rounded down, from 0 to 255 (R45). -/
def encodeScore (num den : Nat) : Nat := (List.range 255).foldl (fun k n => if 10 ^ (n + 1) * den ^ 40 ≤ num ^ 40 then n + 1 else k) 0

/-- The sum over antennas of correlation power over noise, as a fraction (R45). -/
def scoreSum (s : State) (o : PointObs) (ants : List Nat) : Nat × Nat :=
  ants.foldl (fun (q : Nat × Nat) n =>
    let z := noiseOf s o.point n - 1
    (q.1 * z + o.corr.getD n 0 * q.2, q.2 * z)) (0, 1)

/-- One evaluated point: its observation, K, score. -/
structure Evald where
  obs : PointObs
  k : Nat
  score : Nat
  deriving DecidableEq, Repr

/-- A point's search offset j (R43, R68). -/
def pointOfs (s : State) (p : Nat) : Int := sgn 7 (s.rd (CNP_POINT.OFFSET p))

/-- The points that evaluate at tick t: enabled, of a rate whose step ends there, in a class the power state allows, with a
noise estimate, and with U not empty (R45, R47, R360). -/
def evalPoint (s : State) (t : Nat) (o : PointObs) : Option Evald :=
  let r := s.rd (CNP_POINT.RATE o.point)
  if o.point < 2048 && s.on (CNP_POINT.EN o.point) && t % corrStep r == 0 && classOn s (s.rd (CNP_POINT.THR_CLASS o.point)) then
    let u := usedAnts s o.point (rateSlice r) (t - corrLen r) t
    if u.isEmpty then none
    else
      let q := scoreSum s o u
      some ⟨o, u.length, encodeScore q.1 q.2⟩
  else none

/-- A point detects: its score reaches the threshold less the adjustment, or zero (R46). -/
def detects (s : State) (e : Evald) : Bool :=
  decide (s.rd (CNP_THR.THR (s.rd (CNP_POINT.THR_CLASS e.obs.point))) - kAdj s e.k ≤ e.score)

/-- The point group of a point: grid, channel and rate in one number (R43). -/
def groupOf (s : State) (p : Nat) : Nat :=
  s.rd (CNP_POINT.GRID p) * 4096 + s.rd (CNP_POINT.CHAN p) * 16 + s.rd (CNP_POINT.RATE p)

/-- Of two detecting points of one group the first wins: higher score, then smaller |j|, then the negative offset (R48). -/
def beats (s : State) (x y : Evald) : Bool :=
  let jx := pointOfs s x.obs.point
  let jy := pointOfs s y.obs.point
  decide (y.score < x.score) || (x.score == y.score && (decide (jx.natAbs < jy.natAbs) || (jx.natAbs == jy.natAbs && decide (jx < jy))))

/-- A detection takes its group's place if it beats what the group has (R48). -/
def joinGroup (s : State) (gs : List Evald) (e : Evald) : List Evald :=
  match gs with
  | [] => [e]
  | g :: rest => if groupOf s g.obs.point = groupOf s e.obs.point then (if beats s e g then e :: rest else g :: rest)
                 else g :: joinGroup s rest e

/-- A detection goes before another in pairing: higher score, then lower rate code (R50). -/
def before (s : State) (x y : Evald) : Bool :=
  decide (y.score < x.score) ||
    (x.score == y.score && decide (s.rd (CNP_POINT.RATE x.obs.point) ≤ s.rd (CNP_POINT.RATE y.obs.point)))

/-- A detection in its place among those of one step (R50). -/
def insertDet (s : State) (e : Evald) : List Evald → List Evald
  | [] => [e]
  | x :: xs => if before s e x then e :: x :: xs else x :: insertDet s e xs

/-- The grid spacing in kHz (R68). -/
def spacingKhz (c : Nat) : Nat := match c with | 0 => 200 | 1 => 400 | 2 => 1000 | _ => 5000

/-- The centre of a grid channel in kHz (R41). -/
def chanKhz (s : State) (g c : Nat) : Nat := s.rd (CNP_GRID_BASE.BASE_KHZ g) + c * spacingKhz (s.rd (CNP_GRID_GEOM.SPACING g))

/-- Two centres are the same channel (R41). -/
def sameChan (x y : Nat) : Bool := decide (x - y ≤ 1) && decide (y - x ≤ 1)

/-- The pairing window that governs a detection of rate r at khz and tick t (R50). -/
def pairWin (s : State) (khz r t : Nat) : Option PairWin :=
  s.cnp.pairs.find? (fun w => sameChan w.khz khz && decide (t ≤ w.ts + 1024) && w.rate != r)

/-- What becomes of a detection by the pairing rule (R50). -/
inductive PairSay where
  | first
  | companion (w : PairWin)
  | suppressed
  | plain
  deriving DecidableEq, Repr

/-- The pairing rule's word on a detection (R50, R51): Reach is never paired. A detection of the rate that opened a window, on the same
channel while the window runs (a capture, or another grid at the same centre), is issued as an ordinary candidate and the window
goes on: R50 speaks of other rates only (DESIGN CHOICE, log entry 74). -/
def pairSay (s : State) (khz r t score : Nat) : PairSay :=
  if 4 ≤ r then .plain
  else match pairWin s khz r t with
    | none => if s.cnp.pairs.any (fun w => sameChan w.khz khz && decide (t ≤ w.ts + 1024)) then .plain else .first
    | some w =>
      if w.score + 12 < score && (match w.comp with | some c => decide (c + 12 < score) | none => true) then .first
      else if w.comp = none ∧ w.score ≤ score + 12 then .companion w
      else .suppressed

/-- A candidate is placed in the queue with its counts, hold-off and window (R49, R50, R52); without a credit the detection
only counts as an exhaustion (R22, R70). -/
def issueCand (s : State) (t : Nat) (e : Evald) (capture : Bool) (say : PairSay) : State :=
  let p := e.obs.point
  let r := s.rd (CNP_POINT.RATE p)
  let b := rateSlice r
  if 64 ≤ s.cnp.cands.length then (s.inc LNE_CNT_EXHAUST.COUNT).raise 2 0
  else
    let comp := match say with | .companion _ => true | _ => false
    let pid := match say with | .companion w => w.pairId | _ => s.cnp.nextPair
    let khz := chanKhz s (s.rd (CNP_POINT.GRID p)) (s.rd (CNP_POINT.CHAN p))
    let c : Cand := { ts := t, point := p, grid := s.rd (CNP_POINT.GRID p), chan := s.rd (CNP_POINT.CHAN p), rate := r
                      fofs := unsgn 20 (pointOfs s p * twoTol r + e.obs.resid), score := e.score, k := e.k
                      weight := packWeights ((usedAnts s p b (t - corrLen r) t).foldl bitSet 0) e.obs.amps
                      taint := (List.range 8).foldl (fun m n => if taintedIn s n b t (t + 1) then bitSet m n else m) 0
                      pairId := pid, kind := (if comp then 1 else 0) + (if capture then 2 else 0) }
    let pairs := match say with
      | .first => ⟨khz, t, r, e.score, pid, none⟩ :: s.cnp.pairs.filter (fun w => !sameChan w.khz khz)
      | .companion w => { w with comp := some e.score } :: s.cnp.pairs.filter (fun v => !decide (v = w))
      | _ => s.cnp.pairs
    let hold := t + s.rd (CNP_THR.HOLDOFF (s.rd (CNP_POINT.THR_CLASS p))) * 16
    let s1 := { s with cnp := { s.cnp with
      cands := s.cnp.cands ++ [c]
      pairs := pairs
      holds := sset (fun _ => (0, 0)) s.cnp.holds (groupOf s p) (hold, e.score)
      nextPair := if comp then s.cnp.nextPair else (s.cnp.nextPair + 1) % 1024
      capCand := if s.cnp.capCand.isNone && s.rd CNP_CAP_STS.STATE == 2 && s.rd CNP_CAP_CFG.TRIG == 5 && s.rd CNP_CAP_PT.POINT == p
        then some s.atb else s.cnp.capCand } }
    let s2 := (s1.inc CNP_DET_CNT.COUNT).inc (CNP_PT_DET.COUNT p)
    let s3 := if comp then s2.inc CNP_PAIR_CNT.COUNT else s2
    if capture then s3.inc CNP_CAPT_CNT.COUNT else s3

/-- A group's detection at tick t: the hold-off first, then the pairing rule, then the issue (R49, R50). -/
def detection (t : Nat) (s : State) (e : Evald) : State :=
  let p := e.obs.point
  let r := s.rd (CNP_POINT.RATE p)
  let h := sget (fun _ => (0, 0)) s.cnp.holds (groupOf s p)
  let held := decide (t < h.1)
  let capture := held && decide (h.2 + s.rd (CNP_THR.CAPTURE (s.rd (CNP_POINT.THR_CLASS p))) ≤ e.score)
  if s.on (blindF (rateSlice r)) || (held && !capture) then s
  else
    match pairSay s (chanKhz s (s.rd (CNP_POINT.GRID p)) (s.rd (CNP_POINT.CHAN p))) r t e.score with
    | .suppressed => s.inc CNP_SUPPR_CNT.COUNT
    | say => issueCand s t e capture say

/-- Search evaluates: SEARCH is set, streams flow, and no entry to DORMANT runs (R53, R362). -/
def searchOn (s : State) : Bool := s.on CNP_CTRL.SEARCH && streamsOn s && s.rd PWR_STS.STATE != 3 && s.pwr.req != some 3

/-- A point detected at tick t, whether or not its group issued it (R47). -/
def markDet (t : Nat) (s : State) (e : Evald) : State :=
  { s with cnp := { s.cnp with detAt := sset (fun _ => 0) s.cnp.detAt e.obs.point (t + 1) } }

/-- The points of slice b at the end of the correlation steps at reference-plane tick t, for the rates whose steps end there; the last
samples leave the channeliser at t + D (R45-R52, R61). Among the points of a group that detect, the best is issued: where the
highest-scoring point of the group lies below the higher threshold of its own class, R48 does not say whether another point that
detects is issued (DESIGN CHOICE, log entry 74). -/
def correlationStep (b t : Nat) (obs : List PointObs) (s : State) : State :=
  if searchOn s then
    let s1 := s.at_ (t + sliceD s b)
    let evs := (obs.filter (fun o => rateSlice (s1.rd (CNP_POINT.RATE o.point)) == b)).filterMap (evalPoint s1 t)
    let s2 := evs.foldl (fun u e => u.wr (CNP_PT_STS.LAST_SCORE e.obs.point) e.score) s1
    let hits := evs.filter (detects s2)
    let dets := hits.foldl (joinGroup s2) []
    (dets.foldl (fun l e => insertDet s2 e l) []).foldl (detection t) (hits.foldl (markDet t) s2)
  else s

/-- CORRELATION_STEP. -/
def execCorrelationStep (b t : Nat) (obs : List PointObs) (s : State) : Host.Outcome State Fault Refusal :=
  ranged (b < 2) (correlationStep b t obs s)

/-- The tick from which a point's noise estimates are formed: when the search plan took effect, the point changed, or a change of power
state brought its class back, which is kept under 4,096 and the class (R47, R53, R360). -/
def noiseFrom (s : State) (p : Nat) : Nat :=
  let at_ := sget (fun _ => 0) s.cnp.since
  max s.cnp.start (max (at_ p) (at_ (4096 + s.rd (CNP_POINT.THR_CLASS p))))

/-- Points restart their noise estimates at the present tick (R47, R53). -/
def noiseRestart (ps : List Nat) (s : State) : State :=
  { s with cnp := { s.cnp with
      noise := s.cnp.noise.filter (fun q => !ps.contains q.1)
      since := ps.foldl (fun m p => sset (fun _ => 0) m p s.atb) s.cnp.since } }

/-- The mean of a point's noise estimates in 1/16 dB relative to a full-scale sine; 0x8000 before there is one (R68). -/
def noiseLevel (est : List Nat) : Nat :=
  let xs := est.filter (· != 0)
  if xs.isEmpty then 0x8000 else unsgn 16 (clampInt (-32768) 32767 (dbOf 16 ((xs.map (· - 1)).sum) (xs.length * 2 ^ 40)))

/-- One point's noise estimates take the block that ends at t, but not where it detected in the block, the antenna was tainted in it,
or the block began before the point was enabled (R47). -/
def noiseUpdate (b t : Nat) (s : State) (o : NoiseObs) : State :=
  let p := o.point
  let d := sget (fun _ => 0) s.cnp.detAt p
  if p < 2048 ∧ s.on (CNP_POINT.EN p) = true ∧ rateSlice (s.rd (CNP_POINT.RATE p)) = b ∧ noiseFrom s p + 32000 ≤ t ∧
      ¬(t - 32000 + 1 < d ∧ d ≤ t + 1) then
    let est := (List.range 8).map (fun n =>
      if antEnabled s n && !taintedIn s n b (t - 32000) t then o.power.getD n 0 + 1 else noiseOf s p n)
    let s1 := s.wr (CNP_PT_STS.NOISE p) (noiseLevel est)
    { s1 with cnp := { s1.cnp with noise := if est.all (· == 0) then sdel s1.cnp.noise p else sput s1.cnp.noise p est } }
  else s

/-- The 1 ms block that ends at tick t, for the points of slice b; its last samples leave the channeliser at t + D (R47, R61). Blocks end
at the multiples of 32,000 ticks (DESIGN CHOICE, log entry 75). -/
def noiseBlock (b t : Nat) (obs : List NoiseObs) (s : State) : State :=
  if streamsOn s ∧ t % 32000 = 0 then obs.foldl (noiseUpdate b t) (s.at_ (t + sliceD s b)) else s

/-- NOISE_BLOCK. -/
def execNoiseBlock (b t : Nat) (obs : List NoiseObs) (s : State) : Host.Outcome State Fault Refusal :=
  ranged (b < 2) (noiseBlock b t obs s)

/-- The RADIO domain runs: noise estimates start with the next complete block (R47, R315). -/
def radioRuns (s : State) : State := { s with radioHeld := false, cnp := { s.cnp with start := s.atb } }

/-! ## Gain loop, over-range and taint -/

/-- The next instant at or after now with t mod 320,000 = 40,000 n (R55). -/
def routineAt (now n : Nat) : Nat := now + (40000 * n + 320000 - now % 320000) % 320000

/-- The routine decision of antenna n with the interval's peak and mean power in 1/16 dBFS (R55). -/
def routineStep (n : Nat) (peak mean : Int) (s0 : State) : State :=
  let s := s0.at_ (routineAt s0.atb n)
  let a := s.ant n
  let s1 := ((s.wr (CNP_PWR.PEAK n) (unsgn 16 peak)).wr (CNP_PWR.MEAN n) (unsgn 16 mean)).setAnt n
    { a with ovrInt := false, stepInt := false }
  let att := s.rd (CNP_ATT.ATT n)
  if s.rd (CNP_ATT.MODE n) ≠ 0 ∨ a.stepInt then s1
  else if -(4 * (s.rd CNP_GAIN_CFG.HI : Int)) ≤ peak then moveAtt n (min (att + 1) (s.rd (CNP_ATT_LIM.MAX n))) s1
  else if peak < -(4 * (s.rd CNP_GAIN_CFG.LO : Int)) ∧ ¬a.ovrInt then moveAtt n (max (att - 1) (s.rd (CNP_ATT_LIM.MIN n))) s1
  else s1

/-- ROUTINE_STEP. -/
def execRoutineStep (n : Nat) (peak mean : Int) (s : State) : Host.Outcome State Fault Refusal :=
  ranged (n < 8) (if streamsOn s then routineStep n peak mean s else s)

/-- An over-range sample of antenna n at tick t: the first of an episode sets the flag, counts, raises OVR and forces a step at
t + 64 in AUTO and HOLD; a sample in the examined interval after a step makes another fall due; both slices are tainted to
t + t_clean (R56, R58, R59). -/
def overRange (n t samples : Nat) (s0 : State) : State :=
  let s := s0.at_ t
  let a := s.ant n
  let forced := s.rd (CNP_ATT.MODE n) ≠ 2
  let again := match a.prevDue with
    | some d => if d + 64 ≤ t ∧ t < d + 1536 ∧ forced then [d + 1536] else []
    | none => []
  let first := if a.active then [] else if forced then [t + 64] else []
  let dues := a.dues ++ (again ++ first).filter (fun d => !a.dues.contains d)
  let s1 := (s.setAnt n { a with last := t, active := true, dues := dues, ovrInt := true }).incBy (CNP_OVR_SMP.COUNT n) samples
  let s2 := if a.active then s1
    else (((s1.wr CNP_OVR_STS.OVR (bitSet (s1.rd CNP_OVR_STS.OVR) n)).inc (CNP_OVR_CNT.COUNT n)).raise 1 0)
  let s3 := [0, 1].foldl (fun u b =>
    addTaint n b ((if a.active then a.last else t) - sliceD s b) (t + sliceClean s b) u) s2
  if s.rd CNP_CAP_STS.STATE = 2 ∧ s.rd CNP_CAP_CFG.TRIG = 4 ∧ bitOn (s.rd CNP_CAP_CFG.ANT_MASK) n then
    { s3 with cnp := { s3.cnp with capOvr := some (s3.cnp.capOvr.getD t) } }
  else s3

/-- OVER_RANGE. -/
def execOverRange (n t samples : Nat) (s : State) : Host.Outcome State Fault Refusal :=
  ranged (n < 8) (if streamsOn s then overRange n t samples s else s)

/-- The forced step that falls due first on antenna n (R56): taken in AUTO and HOLD, refused at the maximum. -/
def forcedStep (n : Nat) (s0 : State) : State :=
  match (s0.ant n).dues with
  | [] => s0
  | d :: ds =>
    let s := s0.at_ d
    let a := s.ant n
    let att := s.rd (CNP_ATT.ATT n)
    let mx := s.rd (CNP_ATT_LIM.MAX n)
    if s.rd (CNP_ATT.MODE n) = 2 then s.setAnt n { a with dues := ds }
    else if mx ≤ att then
      ((s.setAnt n { a with dues := ds, prevDue := some d }).wr CNP_ATTMAX_STS.AT_MAX (bitSet (s.rd CNP_ATTMAX_STS.AT_MAX) n)).raise 1 3
    else
      let s1 := (s.setAnt n { a with dues := ds, prevDue := some d, stepInt := true }).inc (CNP_FORCE_CNT.COUNT n)
      stepTaint n d (setAtt n d (min (att + s.rd CNP_GAIN_CFG.FORCE_STEP) mx) s1)

/-- FORCED_STEP. -/
def execForcedStep (n : Nat) (s : State) : Host.Outcome State Fault Refusal := ranged (n < 8) (forcedStep n s)

/-- An episode ends 1,536 ticks after its last over-range sample (R58). -/
def overRangeEnd (n : Nat) (s : State) : State :=
  let a := s.ant n
  if a.active then (s.at_ (a.last + 1536)).setAnt n { a with active := false } else s

/-- OVER_RANGE_EPISODE_END. -/
def execOverRangeEpisodeEnd (n : Nat) (s : State) : Host.Outcome State Fault Refusal := ranged (n < 8) (overRangeEnd n s)

/-- The end of an antenna's present taint on a slice, if it is tainted (R59). -/
def taintEndAt (s : State) (n b : Nat) : Option Nat :=
  (s.cnp.taints.filter (fun t => t.ant == n && t.slice == b)).foldl (fun m t => some (max t.hi (m.getD 0))) none

/-- An antenna re-enters the lanes of a slice: its held weight is scaled by the change of attenuation since the SFD (R77). -/
def rescale (n b : Nat) (s : State) : State :=
  { s with lanes := s.lanes.map (fun p =>
      if laneSlice p.2 = b ∧ bitOn p.2.wmask n = true ∧ p.2.atts ≠ [] then
        let d : Int := (s.rd (CNP_ATT.ATT n) : Int) - (p.2.atts.getD n 0 : Nat)
        (p.1, { p.2 with wdb := ((List.range 8).map (fun m => p.2.wdb.getD m 0)).set n d })
      else p) }

/-- The taint interval of antenna n on slice b ends: the antenna rejoins, and a blind slice stops being blind (R59, R62, R77). -/
def taintEnd (n b : Nat) (s0 : State) : State :=
  match taintEndAt s0 n b with
  | none => s0
  | some e =>
    let s := s0.at_ e
    if e ≤ s.atb then blindCheck b (rescale n b (s.wr (taintNowF b) (bitClr (s.rd (taintNowF b)) n))) else s

/-- TAINT_END. -/
def execTaintEnd (n b : Nat) (s : State) : Host.Outcome State Fault Refusal := ranged (n < 8 && b < 2) (taintEnd n b s)

/-! ## Capture -/

/-- Samples of the captured source per so many ticks: raw ADC samples at FS, a slice stream at 96 MS/s, a channel stream at the stream
rate of its grid's spacing, FS over 64 and the decimation (R40, R64). -/
def capRate (s : State) : Nat × Nat :=
  match s.rd CNP_CAP_CFG.SOURCE with
  | 0 => (192, 1)
  | 1 => (3, 1)
  | _ => (1, match s.rd (CNP_GRID_GEOM.SPACING (s.rd CNP_CAP_CFG.GRID)) with | 0 => 40 | 1 => 20 | 2 => 10 | _ => 4)

/-- The number of the first sample at or after tick t. Samples are numbered so that one falls on tick 0 (DESIGN CHOICE, log entry 76). -/
def capFirst (s : State) (t : Nat) : Nat := ceilDiv (t * (capRate s).1) (capRate s).2

/-- The tick of a sample. -/
def capTick (s : State) (k : Nat) : Nat := k * (capRate s).2 / (capRate s).1

/-- Antennas captured. -/
def capAnts (s : State) : Nat := (bitsOf (s.rd CNP_CAP_CFG.ANT_MASK) 8).length

/-- Samples per antenna that the buffer holds (R64). -/
def capSize (s : State) : Nat := if s.rd CNP_CAP_CFG.SOURCE = 0 then 262144 else 131072 / capAnts s

/-- Samples per antenna written after the trigger (R66). -/
def capPost (s : State) : Nat := capSize s * (16 - s.rd CNP_CAP_POS.PRE) / 16

/-- Samples per antenna that stand before the trigger when the capture is done: those since filling began, at most the rest of the
buffer (R66). -/
def capPre (s : State) : Nat := min (capFirst s s.cnp.capAt - capFirst s s.cnp.capFrom) (capSize s - capPost s)

/-- The word of the buffer that holds the sample of antenna i, in ascending order, that is n after the first one filled; filling is
circular (R64, R66). -/
def capWord (s : State) (n i : Nat) : Nat :=
  if s.rd CNP_CAP_CFG.SOURCE = 0 then n % capSize s / 2 else n % capSize s * capAnts s + i

/-- Words that n samples per antenna occupy. -/
def capWords (s : State) (n : Nat) : Nat :=
  if s.rd CNP_CAP_CFG.SOURCE = 0 then ceilDiv (min n (capSize s)) 2 else min n (capSize s) * capAnts s

/-- One captured sample: two 12-bit samples sign-extended to a word, the earlier in [15:0], or I in [15:0] and Q in [31:16] (R64). -/
def capPut (n i : Nat) (v : Int × Int) (s : State) : State :=
  let a := CNP_CAP_MEM.reg (capWord s n i)
  if s.rd CNP_CAP_CFG.SOURCE = 0 then
    s.setReg a (bfSet (s.reg a) (16 * (n % capSize s % 2)) 16 (unsgn 16 (sgn 12 (unsgn 12 v.1))))
  else s.setReg a (BitVec.ofNat 32 (unsgn 16 v.1 + 65536 * unsgn 16 v.2))

/-- Samples in the order of their instants, and at one instant of their antennas, from the one numbered k on. -/
def capFill : List (Int × Int) → Nat → Nat → State → State
  | [], _, _, s => s
  | v :: vs, k, n0, s =>
    let m := if s.rd CNP_CAP_CFG.SOURCE = 0 then 1 else capAnts s
    capFill vs (k + 1) n0 (capPut (n0 + k / m) (k % m) v s)

/-- What aborted captures left below word w is written over. -/
def capCut (w : Nat) (s : State) : State :=
  { s with cnp := { s.cnp with capAir := (s.cnp.capAir.map (fun e => (max w e.1, e.2.1, e.2.2))).filter (fun e => decide (e.1 < e.2.1)) } }

/-- The first w words of the capture memory hold zero. -/
def capBlank (w : Nat) (s : State) : State := { s with regs := sdrop s.regs (CNP_CAP_MEM.reg 0) (CNP_CAP_MEM.reg w) }

/-- Filling stops before the capture is done: the words filled so far hold samples that no command lists, numbered by the free value they
read as (R66, R67). -/
def capLeave (s : State) : State :=
  if s.rd CNP_CAP_STS.STATE ∈ [2, 3] then
    let n := capFirst s s.atb - capFirst s s.cnp.capFrom
    let n := if s.rd CNP_CAP_STS.STATE = 3 then min n (capFirst s s.cnp.capAt + capPost s - capFirst s s.cnp.capFrom) else n
    let w := capWords s n
    let t := (capCut w s).freed
    if w = 0 then s else { t with cnp := { t.cnp with capAir := (0, w, s.free) :: t.cnp.capAir } }
  else s

/-- The capture moves to ABORTED with a cause, returning or withdrawing its leave (R63, R67). -/
def capAbort (cause : Nat) (s : State) : State :=
  if s.rd CNP_CAP_STS.STATE ∈ [1, 2, 3] then
    ((((capLeave s).wr CNP_CAP_STS.STATE 5).wr CNP_CAP_STS.CAUSE cause).returnLeave .capture).raise 1 5
  else s

/-- An antenna that joins search is tainted for t_clean and starts its noise estimates again (R53). -/
def antJoin (s : State) (n : Nat) : State :=
  let s1 := [0, 1].foldl (fun u b => addTaint n b s.atb (s.atb + sliceClean s b) u) s
  { s1 with cnp := { s1.cnp with noise := (s1.cnp.noise.map (fun p => (p.1, p.2.set n 0))).filter (fun p => !p.2.all (· == 0)) } }

/-- An antenna that leaves search counts as tainted for each lane in flight until its frame's end, and a capture of it aborts
(R53, R67). -/
def antLeave (s : State) (n : Nat) : State :=
  let s1 := { s with lanes := s.lanes.map (fun p =>
    if p.2.fend = 0 ∨ s.atb < p.2.fend then (p.1, { p.2 with taint := bitSet p.2.taint n, left := p.2.left ++ [(n, s.atb)] }) else p) }
  if bitOn (s1.rd CNP_CAP_CFG.ANT_MASK) n then capAbort 3 s1 else s1

/-- After a change of the enabled antennas: those gone leave, those new join, and blindness follows (R53, R62, R360). -/
def antChange (old : List Nat) (s : State) : State :=
  let s1 := (old.filter (fun n => !antEnabled s n)).foldl antLeave s
  let s2 := (((List.range 8).filter (antEnabled s)).filter (fun n => !old.contains n)).foldl antJoin s1
  blindCheck 1 (blindCheck 0 s2)

/-- ANTENNA_ENABLE_WRITE: a write of CNP_ANT_EN (R53). -/
def execAntennaEnableWrite (f : Fn) (v : Word) (s : State) : Host.Outcome State Fault Refusal :=
  .next (s.p0Only f CNP_ANT_EN.reg
    (antChange ((List.range 8).filter (antEnabled s)) (s.wr CNP_ANT_EN.EN (v.toNat % 256))))

/-- Antenna n enters MANUAL: a forced step that is pending is not taken, and the attenuation in effect stays (R54). -/
def enterManual (n : Nat) (s : State) : State := s.setAnt n { s.ant n with dues := [] }

/-- MAN_ATT_WRITE: the request is stored, and in MANUAL the attenuation moves at once within the limits (R54). -/
def execManAttWrite (f : Fn) (n v : Nat) (s : State) : Host.Outcome State Fault Refusal :=
  ranged (n < 8) (s.p0Only f (CNP_ATT.reg n)
    (let s1 := s.wr (CNP_ATT.MAN_ATT n) v
     if s.rd (CNP_ATT.MODE n) = 2 then moveAtt n (min (max (v % 32) (s.rd (CNP_ATT_LIM.MIN n))) (s.rd (CNP_ATT_LIM.MAX n))) s1 else s1))

/-- ATT_LIM_WRITE: refused with MIN above MAX; an attenuation outside the new limits moves to the nearer one (R57). -/
def execAttLimWrite (f : Fn) (n mn mx : Nat) (s : State) : Host.Outcome State Fault Refusal :=
  ranged (n < 8) (s.p0Only f (CNP_ATT_LIM.reg n)
    (if s.cnpLocked || decide (mx % 32 < mn % 32) then s
     else moveAtt n (min (max (s.rd (CNP_ATT.ATT n)) (mn % 32)) (mx % 32))
       ((s.wr (CNP_ATT_LIM.MIN n) mn).wr (CNP_ATT_LIM.MAX n) mx)))

/-- TRIM_WRITE: the antenna's trim changes and taints it as an attenuator step does (R37, R60). -/
def execTrimWrite (f : Fn) (n v : Nat) (s : State) : Host.Outcome State Fault Refusal :=
  ranged (n < 8) (s.p0Only f (CNP_DLY.reg n)
    (if s.cnpLocked then s
     else if s.rd (CNP_DLY.DELAY n) = v % 65536 then s
     else stepTaint n s.atb (s.wr (CNP_DLY.DELAY n) v)))

/-- CNP_CNT_CLR.BLOCK (R68). -/
def execCnpCntClrBlock (f : Fn) (s : State) : Host.Outcome State Fault Refusal :=
  .next (s.p0Only f CNP_CNT_CLR.reg (s.zero [CNP_DET_CNT.COUNT, CNP_PAIR_CNT.COUNT, CNP_SUPPR_CNT.COUNT, CNP_CAPT_CNT.COUNT,
    CNP_BLIND_CNT.SUB, CNP_BLIND_CNT.B24]))

/-- CNP_CNT_CLR.POINTS (R68). -/
def execCnpCntClrPoints (f : Fn) (s : State) : Host.Outcome State Fault Refusal :=
  .next (s.p0Only f CNP_CNT_CLR.reg { s with regs := sdrop s.regs (CNP_PT_DET.reg 0) (CNP_PT_DET.reg 2048) })

/-- CNP_CNT_CLR.ANT (R68). -/
def execCnpCntClrAnt (f : Fn) (s : State) : Host.Outcome State Fault Refusal :=
  .next (s.p0Only f CNP_CNT_CLR.reg (s.zero ((List.range 8).flatMap (fun n =>
    [CNP_OVR_CNT.COUNT n, CNP_OVR_SMP.COUNT n, CNP_FORCE_CNT.COUNT n]))))

/-- The capture configuration meets the conditions of its source (R64). -/
def capValid (s : State) : Bool :=
  let k := (bitsOf (s.rd CNP_CAP_CFG.ANT_MASK) 8).length
  let g := s.rd CNP_CAP_CFG.GRID
  match s.rd CNP_CAP_CFG.SOURCE with
  | 0 => k == 1
  | 1 => [1, 2, 4, 8].contains k
  | _ => [1, 2, 4, 8].contains k && s.on (CNP_GRID_BASE.EN g) && decide (s.rd CNP_CAP_CFG.CHAN < s.rd (CNP_GRID_GEOM.COUNT g))

/-- CNP_CAP_CTRL.ARM (R63, R64, R67): leave is requested for the capture, or the configuration fails with cause 0x4. LATE and CAUSE of
the capture before are cleared (DESIGN CHOICE, log entry 76: the spec gives no instant at which they clear). -/
def capArm (s : State) : State :=
  if s.rd CNP_CAP_STS.STATE ∈ [0, 4, 5] then
    let s1 := (s.wr CNP_CAP_STS.LATE 0).wr CNP_CAP_STS.CAUSE 0
    if capValid s then
      ({ s1.wr CNP_CAP_STS.STATE 1 with cnp := { s.cnp with capPulse := none, capCand := none, capOvr := none } }).askLeave
        .capture 0 (s.budget 9)
    else ((s1.wr CNP_CAP_STS.STATE 5).wr CNP_CAP_STS.CAUSE 4).raise 1 5
  else s

/-- ARM. -/
def execArm (f : Fn) (s : State) : Host.Outcome State Fault Refusal := .next (s.p0Only f CNP_CAP_CTRL.reg (capArm s))

/-- The trigger fires at a tick: POST (R65, R67). -/
def capFire (t : Nat) (s : State) : State :=
  { s with cnp := { s.cnp with capAt := t } }.wr CNP_CAP_STS.STATE 3

/-- Leave for the capture is granted: filling begins, and an ATB trigger already passed fires at once with LATE (R65-R67). -/
def capGranted (s : State) : State :=
  let s1 := { s with cnp := { s.cnp with capFrom := s.atb } }.wr CNP_CAP_STS.STATE 2
  if s.rd CNP_CAP_CFG.TRIG = 2 ∧ s.rd64 CNP_CAP_TRIG_ATB_LO.reg ≤ s.atb then capFire s.atb (s1.wr CNP_CAP_STS.LATE 1)
  else s1

/-- CAPTURE_ABORT. -/
def execCaptureAbort (f : Fn) (s : State) : Host.Outcome State Fault Refusal :=
  .next (s.p0Only f CNP_CAP_CTRL.reg (capAbort 1 s))

/-- FORCE_TRIG fires the trigger of an ARMED capture whatever its source (R65). -/
def capForce (s : State) : State := if s.rd CNP_CAP_STS.STATE = 2 then capFire s.atb s else s

/-- FORCE_TRIG. -/
def execForceTrig (f : Fn) (s : State) : Host.Outcome State Fault Refusal := .next (s.p0Only f CNP_CAP_CTRL.reg (capForce s))

/-- The selected trigger fires on an ARMED capture, at the tick of its event (R65). -/
def capTrigger (s : State) : State :=
  let on_ := fun (e : Option Nat) => match e with | some t => capFire t s | none => s
  if s.rd CNP_CAP_STS.STATE = 2 then
    match s.rd CNP_CAP_CFG.TRIG with
    | 0 => capFire s.cnp.capFrom s
    | 2 => capFire (s.rd64 CNP_CAP_TRIG_ATB_LO.reg) (s.at_ (s.rd64 CNP_CAP_TRIG_ATB_LO.reg))
    | 3 => on_ s.cnp.capPulse
    | 4 => on_ s.cnp.capOvr
    | 5 => on_ s.cnp.capCand
    | _ => s
  else s

/-- CAPTURE_TRIGGER. -/
def execCaptureTrigger (s : State) : Host.Outcome State Fault Refusal := .next (capTrigger s)

/-- The samples per antenna from the first one filled to the earliest that a full capture holds (R66). -/
def capBase (s : State) : Nat := capFirst s s.cnp.capAt - capPre s - capFirst s s.cnp.capFrom

/-- The instant at which the post-trigger part is full: its last sample's tick, and the group delay of the source's slice (R61, R66). -/
def capEnd (s : State) : Nat :=
  capTick s (capFirst s s.cnp.capAt + capPost s) + (if s.rd CNP_CAP_CFG.SOURCE = 0 then 0
    else sliceD s (if s.rd CNP_CAP_CFG.SOURCE = 1 then s.rd CNP_CAP_CFG.SLICE else s.rd (CNP_GRID_BASE.SLICE (s.rd CNP_CAP_CFG.GRID))))

/-- The post-trigger part is full (R66, R67): air lists the samples that the buffer holds, from the earliest valid one on, in the order of
their instants and antennas; words written that it does not reach hold zero. The indexes, the earliest sample's tick and the
return of the leave follow. Samples are counted by their reference-plane ticks (DESIGN CHOICE, log entry 76). -/
def captureDone (air : List (Int × Int)) (s0 : State) : State :=
  if s0.rd CNP_CAP_STS.STATE = 3 then
    let first := capFirst s0 s0.cnp.capAt - capPre s0
    let n0 := capBase s0
    let held := capPre s0 + capPost s0
    let s := s0.at_ (capEnd s0)
    let w := capWords s (n0 + held)
    let s1 := capBlank w (capCut w s)
    let m := if s.rd CNP_CAP_CFG.SOURCE = 0 then 1 else capAnts s
    let s2 := capFill (air.take (held * m)) 0 n0 s1
    ((((s2.wr CNP_CAP_STS.STATE 4).wr CNP_CAP_FIRST.IDX (capWord s n0 0)).wr CNP_CAP_TRIG_IDX.IDX
      (capWord s (n0 + capPre s) 0)).wr64 CNP_CAP_ATB_LO.reg (capTick s first) |>.returnLeave .capture).raise 1 4
  else s0

/-- CAPTURE_DONE. -/
def execCaptureDone (air : List (Int × Int)) (s : State) : Host.Outcome State Fault Refusal := .next (captureDone air s)

end Sys2Proof.Machine
end

