-- ==== Sys2Proof/Machine/Wake.lean ====
section
/-! DEFINITION. The power state's change (R359, R360) and the wake sources (R366, R367). -/

namespace Sys2Proof.Machine

/-- Noise estimates of the points whose class a change of state brings back start anew (R360). -/
def classesBack (old : Nat → Bool) (s : State) : State :=
  let back := fun c => !old c && classOn s c
  { s with cnp := { s.cnp with
      noise := s.cnp.noise.filter (fun p => !back (s.rd (CNP_POINT.THR_CLASS p.1)))
      since := ((List.range 8).filter back).foldl (fun m c => sset (fun _ => 0) m (4096 + c) s.atb) s.cnp.since } }

/-- A chain is in the chain set of the power state in force (R360, R361). -/
def chainSet (s : State) (n : Nat) : Bool :=
  match s.powerState with
  | 1 => bitOn (s.rd PWR_TRIM_CFG.CHAIN) n
  | 2 => false
  | _ => true

/-- A chain that is neither in use nor latched is IDLE while it is enabled and in the power state's set, else OFF (R134, R360). -/
def restChain (n : Nat) (s : State) : State := s.wr (TXC_CH_STS.STATE n) (if s.on (TXC_CH_CTRL.EN n) && chainSet s n then 1 else 0)

/-- Chains at rest follow the power state's set (R360). -/
def restChains (s : State) : State :=
  (List.range 8).foldl (fun t n => if t.rd (TXC_CH_STS.STATE n) ≤ 1 then restChain n t else t) s

/-- The device is in state k: antennas outside its set leave, those in it again join, and points of returning classes start
anew, and chains at rest outside its set are OFF (R358, R360). -/
def enterState (k : Nat) (s : State) : State :=
  let old := (List.range 8).filter (antEnabled s)
  restChains (classesBack (classOn s) (antChange old (s.wr PWR_STS.STATE k)))

/-- A request ends with a status: OK raises STATE_DONE, anything else CMD_FAIL (R359). -/
def pwrEnd (status : Nat) (s : State) : State :=
  let t := { (s.wr PWR_CMD_RES.STATUS status).wr PWR_STS.BUSY 0 with pwr := { s.pwr with req := none } }
  t.raise 11 (if status = 0 then 0 else 1)

/-- A request for DORMANT is given up: the device is in the state it left (R362, R367). -/
def pwrGiveUp (status : Nat) (s : State) : State :=
  pwrEnd status (if s.rd PWR_STS.STATE = 3 then s.wr PWR_STS.STATE s.pwr.left else s)

/-- The transmit quiescence that WATCH waits for is reached once no carrier is in use (R361). -/
def watchSettled (s : State) : State :=
  if s.pwr.req = some 2 ∧ s.txc.carriers.isEmpty then pwrEnd 0 (enterState 2 s) else s

/-- A wake source fires: from WATCH the device returns to RUN, an entry to DORMANT ends WOKEN, and in DORMANT PWR_EN asserts and
the wake is pending; sources that fire later in a return merge (R366, R367, R368). -/
def wakeFire (src : Nat) (s : State) : State :=
  if s.pwr.mode = 1 then
    if s.pwr.wakeFired then s
    else
      { (s.wr PWR_WAKE_STS.SRC src).wr PWR_WAKE_STS.PENDING 1 with
        pwr := { s.pwr with wakeFired := true, wakeAt := s.now, pwrEn := true } }
  else if s.pwr.mode ≠ 0 then s
  else if s.rd PWR_STS.STATE = 3 then pwrGiveUp 9 (s.wr PWR_WAKE_STS.SRC src)
  else if s.rd PWR_STS.STATE = 2 then (enterState 0 (s.wr PWR_WAKE_STS.SRC src)).raise 11 0
  else s

end Sys2Proof.Machine
end

