-- ==== Sys2Proof/Machine/Transmit.lean ====
section
/-! DEFINITION. The transmit chains (R99-R134): schedule items, preparation, priming, commit, the ramps, faults, coexistence,
correction entries. -/

namespace Sys2Proof.Machine

/-! ## Misses -/

/-- A returned frame whose wake-up sequence has been on the air has made its attempt: without a retry left it ends NO_ACK
(R159, R167). -/
def payloadMissed (x : Ent) (s : State) : State :=
  match x.node, x.item with
  | some h, some hc =>
    if x.wuf ∧ triesOver s hc then
      (endItem h hc 3 (unlinkItem h hc s)).inc (LNK_PCNT.COUNT x.part 3)
    else s
  | _, _ => s

/-- The payload behind a wake-up sequence that does not go to the air whole is withdrawn from staging and goes back to its queue
(R166, R167). -/
def withdrawPayload (x : Ent) (s : State) : State :=
  let mine := fun (y : Ent) => y.kind == 0 && y.item == x.item && y.item.isSome && [1, 2, 3, 4, 5].contains y.st && !y.dead
  let s1 := ((s.txc.ents.filter (fun p => mine p.2)).map (·.1)).foldl (fun u e =>
    let y := u.ent e
    backToQueue y (vacate e (returnAir y (burnEnt y u)))) s
  let waits := fun (y : Ent) => y.kind == 0 && y.item == x.item && y.item.isSome
  let gone := s1.lnk.scheds.filter (fun d => waits d.ent)
  let s2 := { s1 with lnk := { s1.lnk with scheds := s1.lnk.scheds.filter (fun d => !waits d.ent) } }
  gone.foldl (fun u d => backToQueue d.ent (returnAir d.ent u)) s2

/-- What a missed window does beyond its entry (R122, R149, R154, R167). -/
def missTail (x : Ent) (cause : Nat) (s : State) : State :=
  let s1 := (s.inc (TXC_MISS_CNT.COUNT (cause - 1))).raise 3 0
  if x.kind = 1 then unplaceFollowUp x (s1.raise 4 0)
  else if x.kind = 3 then withdrawPayload x s1
  else followUpGone x (payloadMissed x (backToQueue x s1))

/-- The LAST_MISS field of an entry or slot. -/
def lastMissF (e : Nat) : RegFld := if isSlot e then TXC_SLOT0.LAST_MISS (e - 1024) else TXC_STAGE0.LAST_MISS e

/-- A staged frame misses its window (R122). A PREPARING entry stays until its result returns, and its counter is burned then (R126). -/
def missEnt (e cause : Nat) (s : State) : State :=
  let x := s.ent e
  missTail x cause (vacate e (returnAir x (burnEnt x (s.wr (lastMissF e) cause))))

/-! ## Schedule items and preparation -/

/-- Staging takes the schedule item at the head of its queue (R112, R115, R134). An item that is late as well as refused by ENABLE misses
with cause 0x6 (DESIGN CHOICE, log entry 79: the spec does not say which of the two causes it takes). -/
def scheduleItem (s : State) : State :=
  match s.lnk.scheds with
  | [] => s
  | d :: ds =>
    let s1 := { s with lnk := { s.lnk with scheds := ds } }
    if !s.on TXC_CTRL.ENABLE then missTail d.ent 6 (returnAir d.ent s1)
    else if d.ent.air ≤ s.atb + 2048 then missTail d.ent 7 (returnAir d.ent s1)
    else match pickEnt s 0 1024 with
      | none => s
      | some e =>
        let s2 := (s1.freed.setEnt e { d.ent with st := 1, seqNo := s.txc.arrivals })
        let s3 := { s2 with txc := { s2.txc with arrivals := s2.txc.arrivals + 1 } }
        if 1024 ≤ (s3.txc.ents.filter (fun p => !isSlot p.1)).length then s3.raise 3 4 else s3

/-- SCHEDULE_ITEM. -/
def execScheduleItem (s : State) : Host.Outcome State Fault Refusal := .next (scheduleItem s)

/-- A SCHEDULED entry could be prepared now: the horizon reaches it and the queue fabric would grant its cells (R114, R115). -/
def preparable (s : State) (x : Ent) : Bool :=
  x.st == 1 && decide (x.air ≤ s.atb + s.rd TXC_HORIZON.TICKS) &&
    cellsOk s x.part (streamCells s x.rate x.len (max 1 x.nWuf)) (s.rd QUE_RX_RESERVE.CELLS)

/-- A secured acknowledgement or pending-clear frame waits for its job (R118, R249). -/
def ackJobWaits (s : State) : Bool := s.txc.ents.any (fun p => isSlot p.1 && p.2.secure && preparable s p.2)

/-- Entry e is the next that staging prepares: an acknowledgement slot, or a data entry of which none that could be prepared has an
earlier air time, or an equal one and an earlier arrival (R113, R115); a secured one waits for every secured acknowledgement (R118). An
entry whose cells are refused holds back no other (DESIGN CHOICE, log entry 79). -/
def prepTurn (e : Nat) (s : State) : Bool :=
  let x := s.ent e
  isSlot e || (!(x.secure && ackJobWaits s) && s.txc.ents.all (fun p => p.1 == e || isSlot p.1 || !preparable s p.2 ||
    decide (x.air < p.2.air) || (x.air == p.2.air && decide (x.seqNo < p.2.seqNo))))

/-- The horizon reaches a SCHEDULED entry, whose turn it is (R113-R115). -/
def prepare (e : Nat) (s0 : State) : State :=
  let s := s0.at_ ((s0.ent e).air - s0.rd TXC_HORIZON.TICKS)
  if (s.ent e).st = 1 ∧ prepTurn e s then prepareEnt e s else s0

/-- PREPARE. -/
def execPrepare (e : Nat) (s : State) : Host.Outcome State Fault Refusal := ranged (e < 1056) (prepare e s)

/-- An encrypt result returns (R112, R125, R126, R250). -/
def encryptResult (e : Nat) (s : State) : State :=
  let x := s.ent e
  if x.st = 2 ∧ x.job then
    let s1 := { s with sec := { s.sec with txJobs := s.sec.txJobs.filter (fun j => j.ent != e) } }.inc SEC_CNT_ENCRYPT.COUNT
    if x.dead then (s1.inc TXC_CNT_BURN.COUNT).setEnt e {} else ready e x s1
  else s

/-- ENCRYPT_RESULT. -/
def execEncryptResult (e : Nat) (s : State) : Host.Outcome State Fault Refusal := ranged (e < 1056) (encryptResult e s)

/-- The amplitude of R103: LEVEL by back-off in 0.5 dB units, an exact half up. -/
def amplitude (level b : Nat) : Nat :=
  [12, 11, 10, 9, 8, 7, 6, 5, 4, 3, 2, 1, 0].foldl (fun a k =>
    if (2 * (a + 2 ^ k) - 1) ^ 40 * 10 ^ b ≤ (2 * level) ^ 40 then a + 2 ^ k else a) 0

/-- The value of a curve at x (R305). -/
def curveAt : List (Int × Int) → Int → Int
  | [], _ => 0
  | [p], _ => p.2
  | p :: q :: ps, x =>
    if x ≤ p.1 then p.2
    else if x ≤ q.1 then p.2 + Config.curveRound ((q.2 - p.2) * (x - p.1)) (q.1 - p.1)
    else curveAt (q :: ps) x

/-- The curve of a kind and target among some. -/
def findCurve (cs : List Curve) (kind target : Nat) : Option Curve := cs.find? (fun c => c.kind == kind && c.target == target)

/-- The curve of a kind and target, if the image has one. -/
def State.curve (s : State) (kind target : Nat) : Option Curve := findCurve s.curves kind target

/-- Priming of an entry loads its correction entry, curve, frequency and amplitude, with the gain correction of the last derivation
(R100, R106, R108, R116); before the first derivation there is none (DESIGN CHOICE, log entry 79). -/
def priming (e : Nat) (s0 : State) : State :=
  if (s0.ent e).st = 3 then
    let s := s0.at_ (max ((s0.ent e).air - 4096) (s0.ent e).readyAt)
    let x := s.ent e
    let ce := corrEntry s x.chain x.grid x.chan
    let c := CE.RAMP_CURVE.of ce
    let g := match s.txc.tdie with
      | some die => Config.tempGain (sget (fun _ => 0) s.txc.tgain (2 * x.chain + rateSlice x.rate)) (sgn 32 (CE.TEMP_SLOPE.of ce)) die
      | none => 0
    s.setEnt e { x with st := 4, corr := ce, tUp := tUp s c, tDown := tDown s c, lead := s.rd (TXC_RAMP_PA.PA_EN_LEAD c)
                        lag := s.rd (TXC_RAMP_PA.PA_EN_LAG c), freq := (chanKhz s x.grid x.chan : Int) * 1000 + x.freqAdj
                        amp := amplitude (CE.LEVEL.of ce) x.backoff, gain := g }
  else s0

/-- PRIMING. -/
def execPriming (e : Nat) (s : State) : Host.Outcome State Fault Refusal := ranged (e < 1056) (priming e s)

/-- Priming completes: PRIMED where the correction entry is valid (R107, R116). -/
def primed (e : Nat) (s : State) : State :=
  let x := s.ent e
  if x.st = 4 ∧ CE.VALID.of x.corr = 1 then s.setEnt e { x with st := 5 } else s

/-- PRIMED. -/
def execPrimed (e : Nat) (s : State) : Host.Outcome State Fault Refusal := ranged (e < 1056) (primed e s)

/-! ## Coexistence -/

/-- Pair k covers an entry's chain and band in a mode that makes requests (R131). -/
def covers (s : State) (k : Nat) (x : Ent) : Bool :=
  s.on (TXC_COEX_CFG.MODE k) && bitOn (s.rd (TXC_COEX_CFG.CHAINS k)) x.chain && bitOn (s.rd (TXC_COEX_CFG.BANDS k)) (rateSlice x.rate)

/-- The request of a covered frame is due (R132). -/
def coexRequest (e : Nat) (s0 : State) : State :=
  let x := s0.ent e
  let due := [0, 1, 2, 3].filter (fun k => covers s0 k x && !(s0.txc.coex.any (fun r => r.pair == k && r.ent == e && r.drop.isNone)))
  if x.st ∈ [1, 2, 3, 4, 5, 6, 7] ∧ !x.dead ∧ !due.isEmpty then
    let first := due.foldl (fun m k => min m (x.air - s0.rd (TXC_COEX_TIME.REQ_LEAD k))) (x.air - 2112)
    let s := s0.at_ first
    let now := due.filter (fun k => decide (x.air - s.rd (TXC_COEX_TIME.REQ_LEAD k) ≤ s.atb))
    reqUpdate { s with txc := { s.txc with coex := s.txc.coex ++ now.map (fun k => ({ pair := k, ent := e, drop := none } : CoexReq)) } }
  else s0

/-- COEX_REQUEST. -/
def execCoexRequest (e : Nat) (s : State) : Host.Outcome State Fault Refusal := ranged (e < 1056) (coexRequest e s)

/-- The grant pins as sampled, bit k for pair k (R133). -/
def sampleGrants (gnt : Nat) (s : State) : State :=
  [0, 1, 2, 3].foldl (fun u k =>
    u.wr (TXC_COEX_STS.GNT k) (if bitOn gnt k == u.on (TXC_COEX_CFG.GNT_POL k) then 0 else 1)) s

/-- The grant of an uncommitted frame is sampled at air time - 2,080 (R133). -/
def grantSample (e gnt : Nat) (s0 : State) : State :=
  if (s0.ent e).st ∈ [1, 2, 3, 4, 5] ∧ !(s0.ent e).dead then
    let s := sampleGrants gnt (s0.at_ ((s0.ent e).air - 2080))
    let x := s.ent e
    let ack := x.kind = 1 ∨ x.kind = 2
    let denied := [0, 1, 2, 3].filter (fun k => covers s k x && s.rd (TXC_COEX_CFG.MODE k) == 2 &&
      !(decide ack && s.on (TXC_COEX_CFG.ACK_EXEMPT k)) && !s.on (TXC_COEX_STS.GNT k))
    if denied.isEmpty then s
    else missEnt e 5 (denied.foldl (fun u k => u.inc (TXC_COEX_DENIED.COUNT k)) s)
  else s0

/-- GRANT_SAMPLE. -/
def execGrantSample (e gnt : Nat) (s : State) : Host.Outcome State Fault Refusal := ranged (e < 1056) (grantSample e gnt s)

/-- The grant of pair k deasserts during a committed frame (R133). -/
def gntDrop (e k : Nat) (s : State) : State :=
  let x := s.ent e
  if x.st ∈ [6, 7] ∧ covers s k x ∧ s.rd (TXC_COEX_CFG.MODE k) = 2 then
    ((s.wr (TXC_COEX_STS.GNT k) 0).inc (TXC_COEX_GDROP.COUNT k)).raise 3 3
  else s

/-- GNT_DROP. -/
def execGntDrop (e k : Nat) (s : State) : Host.Outcome State Fault Refusal := ranged (e < 1056 && k < 4) (gntDrop e k s)

/-- COEX_REQ of pair k deasserts once the last interval in its scope has ended (R132). -/
def coexRelease (k : Nat) (s0 : State) : State :=
  let mine := s0.txc.coex.filter (fun r => r.pair == k)
  if !mine.isEmpty ∧ mine.all (fun r => r.drop.isSome) then
    let s := s0.at_ (mine.foldl (fun m r => max m (r.drop.getD 0)) 0)
    reqUpdate { s with txc := { s.txc with coex := s.txc.coex.filter (fun r => r.pair != k) } }
  else s0

/-- COEX_RELEASE. -/
def execCoexRelease (k : Nat) (s : State) : Host.Outcome State Fault Refusal := ranged (k < 4) (coexRelease k s)

/-! ## Commit and the air -/

/-- Carriers in use on a chain. -/
def chainCarriers (s : State) (n : Nat) : List Carrier := s.txc.carriers.filter (fun c => c.chain == n)

/-- A chain's amplitude sum (R103). -/
def ampSum (s : State) (n : Nat) : Nat := ((chainCarriers s n).map (·.amp)).sum

/-- A chain may commit: enabled, not faulted, in the power state's set and in no quiescence (R119, R130, R360-R362). -/
def chainUsable (s : State) (n : Nat) : Bool :=
  s.on (TXC_CH_CTRL.EN n) && s.rd (TXC_CH_STS.STATE n) != 4 && s.pwr.req.isNone && chainSet s n

/-- The lowest-numbered free carrier of a chain (R99). -/
def freeCarrier (s : State) (n : Nat) : Option Nat := (List.range 16).find? (fun m => !(chainCarriers s n).any (fun c => c.idx == m))

/-- The state of a chain: one that wakes is ACTIVE once its waking has run (R121). -/
def chainState (s : State) (n : Nat) : Nat :=
  if s.rd (TXC_CH_STS.STATE n) = 2 ∧ (sfind s.txc.wakeAt n).any (fun t => decide (t ≤ s.atb)) then 3 else s.rd (TXC_CH_STS.STATE n)

/-- The level of a front-end enable of chain n: TXEN_SUBn (band 0) or TXEN_24n (band 1), asserted while any of its carriers needs it,
with its polarity (R110). -/
def txenPin (s : State) (n b : Nat) : Bool :=
  s.txc.txens.any (fun x => x.chain == n && x.band == b && decide (x.on ≤ s.now) && decide (s.now < x.off)) !=
    s.on (if b = 0 then TXC_CH_CFG.SUB_POL n else TXC_CH_CFG.B24_POL n)

/-- The use of a front-end enable by a carrier that commits: from air time - T_UP - PA_EN_LEAD to end + T_DOWN + PA_EN_LAG (R110). -/
def openTxEn (e : Nat) (x : Ent) (s : State) : State :=
  let y : TxEn := { chain := x.chain, band := rateSlice x.rate, ent := e, air := x.air, on := s.now + (x.air - x.tUp - x.lead - s.atb)
                    off := s.now + (x.air + x.dur + x.tDown + x.lag - s.atb) }
  { s with txc := { s.txc with txens := s.txc.txens.filter (fun z => decide (s.now < z.off)) ++ [y] } }

/-- The use of a front-end enable by a faulted carrier ends t units from now, without PA_EN_LAG (R129). -/
def cutTxEn (e : Nat) (x : Ent) (t : Nat) (s : State) : State :=
  { s with txc := { s.txc with txens := s.txc.txens.map (fun z =>
      if z.ent = e ∧ z.air = x.air then { z with off := min z.off (s.now + t) } else z) } }

/-- The leave a commit asks for: its carrier, and the chain's activation where it is not active (R120, R121). -/
def commitAsks (s : State) (x : Ent) (m : Nat) : List (Holder × Nat) :=
  (Holder.carrier x.chain m, s.budget (3 + rateSlice x.rate)) ::
    (if s.rd (TXC_CH_STS.STATE x.chain) ∈ [2, 3] then [] else [(Holder.chain x.chain, s.budget 2)])

/-- A commit that passes: carrier, amplitude and leave are held, the front-end enable's instants are known, and an idle chain wakes, to be
ACTIVE within 640 ticks (R110, R119-R121); how soon is a free value. -/
def commitPass (e m : Nat) (s : State) : State :=
  let x := s.ent e
  let n := x.chain
  let s1 := s.setEnt e { x with st := 6, carrier := m }
  let s2 := { s1 with txc := { s1.txc with
    carriers := s1.txc.carriers ++ ([⟨n, m, e, x.amp⟩] : List Carrier)
    idleAt := sdel s1.txc.idleAt n } }
  let s3 := if s.rd (TXC_CH_STS.STATE n) ∈ [2, 3] then s2 else
    { s2.freed.wr (TXC_CH_STS.STATE n) 2 with txc := { s2.txc with wakeAt := sput s2.txc.wakeAt n (s2.atb + s2.freeVal 641) } }
  ((openTxEn e x s3).inc TXC_CNT_COMMIT.COUNT).inc (TXC_CH_CNT_COMMIT.COUNT n)

/-- The three checks of a commit in their order (R26, R119). -/
def commitChecks (e : Nat) (s : State) : State :=
  let x := s.ent e
  if x.st ≠ 5 then missEnt e 1 s
  else if !chainUsable s x.chain then missEnt e 6 s
  else match freeCarrier s x.chain with
    | none => missEnt e 2 s
    | some m =>
      if s.rd (TXC_CH_BUDGET.AMP_MAX x.chain) < ampSum s x.chain + x.amp then missEnt e 3 s
      else
        let r := s.commitLeave x.part (commitAsks s x m)
        if r.2 then commitPass e m r.1 else missEnt e 4 r.1

/-- Commits of one air time are decided by chain, then by arrival (R26). -/
def commitTurn (e : Nat) (s : State) : Bool :=
  let x := s.ent e
  s.txc.ents.all (fun p => p.1 == e || !([1, 2, 3, 4, 5].contains p.2.st) || p.2.dead || p.2.air != x.air ||
    decide (x.chain < p.2.chain) || (x.chain == p.2.chain && decide (x.seqNo ≤ p.2.seqNo)))

/-- The commit of an entry at air time - 2,048 (R119). -/
def commit (e : Nat) (s0 : State) : State :=
  if (s0.ent e).st ∈ [1, 2, 3, 4, 5] ∧ !(s0.ent e).dead ∧ commitTurn e s0 then commitChecks e (s0.at_ ((s0.ent e).air - 2048)) else s0

/-- COMMIT. -/
def execCommit (e : Nat) (s : State) : Host.Outcome State Fault Refusal := ranged (e < 1056) (commit e s)

/-- An attempt of an item begins: ATTEMPTS, of four bits, and the last air time follow (R157, R187; log entry 80). -/
def countAttempt (hc air : Nat) (s : State) : State :=
  let n := triesOf s hc + 1
  let s1 := s.ihPut hc IH.ATTEMPTS (min 15 n)
  { s1 with que := { s1.que with airs := sset (fun _ => 0) s1.que.airs hc air, tries := sset (fun _ => 0) s1.que.tries hc n } }

/-- The ramp-up of a committed frame: ON_AIR on a chain that is ACTIVE (R112, R121). -/
def rampUp (e : Nat) (s0 : State) : State :=
  if (s0.ent e).st = 6 ∧ (s0.ent e).fault = none then
    let s := s0.at_ ((s0.ent e).air - (s0.ent e).tUp)
    let x := s.ent e
    let s2 := s.setEnt e { x with st := 7 }
    let s3 := (s2.wr (TXC_CH_STS.STATE x.chain) (if s2.rd (TXC_CH_STS.STATE x.chain) = 4 then 4 else 3)).post (.air x.chain x.carrier x.air x.freq x.psdu)
    match x.kind, x.item with
    | 1, _ => (s3.inc TXC_CNT_ACK.COUNT).inc (LNK_PCNT.COUNT x.part 2)
    | 2, _ => s3.inc TXC_CNT_ACK.COUNT
    | 3, some hc =>
      let s4 := { s3 with txc := { s3.txc with ents := s3.txc.ents.map (fun p =>
        if p.2.item = some hc ∧ (p.2.kind = 0 ∨ p.2.kind = 4) then (p.1, { p.2 with wuf := true }) else p) } }
      countAttempt hc x.air s4
    | _, some hc => if x.wuf then s3 else countAttempt hc x.air s3
    | _, none => s3
  else s0

/-- RAMP_UP. -/
def execRampUp (e : Nat) (s : State) : Host.Outcome State Fault Refusal := ranged (e < 1056) (rampUp e s)

/-- A carrier and its leave are released; the chain's hold begins with its last one (R121), and an entry to WATCH completes with the last
of the device (R361). -/
def dropCarrier (e : Nat) (s : State) : State :=
  let x := s.ent e
  let s1 := { s with txc := { s.txc with carriers := s.txc.carriers.filter (fun c => c.ent != e) } }.returnLeave
    (.carrier x.chain x.carrier)
  watchSettled (if (chainCarriers s1 x.chain).isEmpty then
    { s1 with txc := { s1.txc with
      idleAt := sput s1.txc.idleAt x.chain (s1.atb + 32 * s1.rd (TXC_CH_CFG.IDLE_HOLD x.chain)) } }
  else s1)

/-- A frame whose ramp-down ends at an instant leaves its coexistence interval running to REQ_HOLD after it (R132). -/
def holdCoex (e stop : Nat) (s : State) : State :=
  { s with txc := { s.txc with coex := s.txc.coex.map (fun r =>
      if r.ent = e ∧ r.drop.isNone then { r with drop := some (stop + s.rd (TXC_COEX_TIME.REQ_HOLD r.pair)) } else r) } }

/-- The acknowledgement wait of an attempt (R139). -/
def openWait (e : Nat) (x : Ent) (h : Nat) (s : State) : State :=
  let fe := x.air + x.dur
  let r := x.rate
  let shr := s.rd (LNK_RATE_SHR.SHR r)
  let o := if x.tsch then fe + s.rd LNK_TSCH_RX_ACK_DLY.TICKS + shr else fe + s.rd (LNK_RATE_ACKW_OPEN.ACKW_OPEN r)
  let c := if x.tsch then o + s.rd LNK_TSCH_ACK_WAIT.TICKS else fe + s.rd (LNK_RATE_ACKW_CLOSE.ACKW_CLOSE r)
  let ex := if x.tsch then fe + s.rd LNK_TSCH_TX_ACK_DLY.TICKS + shr else fe + s.rd (LNK_RATE_TURN.TURN r) + shr
  { s with lnk := { s.lnk with
      atts := s.lnk.atts ++ [{ id := s.lnk.nextAtt, ent := e, node := h, part := x.part, seq := macSeq x.psdu, grid := x.grid
                               chan := x.chan, wOpen := o, close := c, expect := ex, done := false, closed := false }]
      nextAtt := s.lnk.nextAtt + 1 } }

/-- The follow-up of an acknowledgement is under way: a schedule item or an entry. -/
def hasFollowUp (x : Ent) (s : State) : Bool :=
  s.txc.ents.any (fun p => p.2.kind == 4 && p.2.node == x.node && p.2.aEnd == x.air + x.dur) ||
    s.lnk.scheds.any (fun d => d.ent.kind == 4 && d.ent.node == x.node && d.ent.aEnd == x.air + x.dur)

/-- An acknowledgement has been sent: where its pending bit was set for a class A or D node and no follow-up is under way, the
pending-clear rule applies (R153, R154). -/
def ackSent (x : Ent) (s0 : State) : State :=
  match x.node with
  | some h =>
    let s := ctxCheck h s0
    if x.pend ∧ (s.nc h NC.CLASS = 0 ∨ s.nc h NC.CLASS = 2) ∧ !hasFollowUp x s then pendClear { x with aEnd := x.air + x.dur } s else s
  | none => s0

/-- The faulted ramp-down of a carrier has ended (R129): carrier and leave are returned, the attempt ends FAULTED, the entry becomes FREE,
the frame goes back to the head of its level and its consumed counter is burned. The coexistence request covers the ramp (R132). -/
def faultEnd (e stop : Nat) (x : Ent) (s : State) : State :=
  let s2 := holdCoex e stop (dropCarrier e s)
  let s3 := releaseEnt e (if x.fc.isSome then s2.inc TXC_CNT_BURN.COUNT else s2)
  if x.kind = 1 then unplaceFollowUp x s3
  else if x.kind = 3 then withdrawPayload x s3
  else match x.node, x.item with
    | some h, some hc => if x.gone then dropItem h hc s3 else backToQueue x s3
    | _, _ => s3

/-- The frame of an entry whose attempt is discarded by a reset (R210) has a counter that no attempt will use again: burned. -/
def burnGone (x : Ent) (s : State) : State := if x.burn ∧ x.fc.isSome then s.inc TXC_CNT_BURN.COUNT else s

/-- A whole frame has been on the air and its ramp-down ends (R112, R117, R121, R280). -/
def frameSent (e : Nat) (x : Ent) (s : State) : State :=
  let s1 := burnGone x (holdCoex e (x.air + x.dur + x.tDown) (dropCarrier e s))
  match x.kind, x.node, x.item with
  | 1, _, _ => ackSent x (releaseEnt e s1)
  | 2, _, _ => releaseEnt e s1
  | 3, _, _ => releaseEnt e s1
  | _, some h, some hc =>
    if x.gone then dropItem h hc (releaseEnt e s1)
    else if x.ackReq then
      startSeq 2 0 0 x.air (x.air + x.dur) 0 0 0 (some h) (some hc) (some s1.lnk.nextAtt)
        (openWait e x h (s1.setEnt e { x with st := 8 }))
    else endItem h hc 2 (releaseEnt e s1)
  | _, _, _ => releaseEnt e s1

/-- A ramp-down ends: of a faulted carrier, or of a frame at its end. -/
def rampDownEnd (e : Nat) (s0 : State) : State :=
  let x := s0.ent e
  match x.fault with
  | some t => if x.st ∈ [6, 7] then faultEnd e t x (s0.at_ t) else s0
  | none => if x.st = 7 then frameSent e x (s0.at_ (x.air + x.dur + x.tDown)) else s0

/-- RAMP_DOWN_END. -/
def execRampDownEnd (e : Nat) (s : State) : Host.Outcome State Fault Refusal := ranged (e < 1056) (rampDownEnd e s)

/-- A write of a chain's EN moves a chain at rest between OFF and IDLE (R134). -/
def chainEnable (n : Nat) (s : State) : State := if s.rd (TXC_CH_STS.STATE n) ≤ 1 then restChain n s else s

/-- A chain's hold ends: IDLE, its activation leave returned (R121). -/
def chainIdle (n : Nat) (s0 : State) : State :=
  match sfind s0.txc.idleAt n with
  | some t =>
    if (chainCarriers s0 n).isEmpty then
      let s := s0.at_ t
      let s1 := { s with txc := { s.txc with idleAt := sdel s.txc.idleAt n } }.returnLeave (.chain n)
      if s1.rd (TXC_CH_STS.STATE n) = 4 then s1 else restChain n s1
    else s0
  | none => s0

/-- CHAIN_IDLE. -/
def execChainIdle (n : Nat) (s : State) : Host.Outcome State Fault Refusal := ranged (n < 8) (chainIdle n s)

/-! ## Faults (R128-R130) -/

/-- The faulted ramp-down of one carrier begins (R129): it plays over min(T_DOWN, 56) ticks, and its front-end enable deasserts when it
ends. A carrier that ramps down already goes on. -/
def faultCarrier (s : State) (e : Nat) : State :=
  let x := s.ent e
  if x.fault.isSome then s
  else
    let t := min x.tDown 56
    cutTxEn e x t ((((s.setEnt e { x with fault := some (s.atb + t) }).inc TXC_CNT_FAULT.COUNT).inc (TXC_CH_CNT_FAULT.COUNT x.chain)).raise 3 2)

/-- Every carrier of a chain is ramped down, the cause bit is set and the chain latches FAULT (R128-R130). -/
def faultChain (n cause : Nat) (s : State) : State :=
  let s1 := (s.wr (TXC_CH_FAULT.CAUSE n) (bitSet (s.rd (TXC_CH_FAULT.CAUSE n)) cause)).wr (TXC_CH_STS.STATE n) 4
  ((chainCarriers s n).map (·.ent)).foldl faultCarrier s1

/-- KILL. -/
def execKill (f : Fn) (n : Nat) (s : State) : Host.Outcome State Fault Refusal :=
  ranged (n < 8) (s.p0Only f (TXC_CH_CTRL.reg n) (faultChain n 0 s))

/-- A pulse delivered on a chain's enabled fault channel faults it (R128). -/
def chainFaultEvent (n : Nat) (s : State) : State :=
  if n ∈ s.txc.faultPulse then
    let s1 := { s with txc := { s.txc with faultPulse := s.txc.faultPulse.filter (fun m => m != n) } }
    if s.on (TXC_CH_CTRL.FEVT_EN n) then faultChain n 1 s1 else s1
  else s

/-- CHAIN_FAULT_EVENT. -/
def execChainFaultEvent (n : Nat) (s : State) : Host.Outcome State Fault Refusal := ranged (n < 8) (chainFaultEvent n s)

/-- A bad coded-stream cell of a committed frame ramps its one carrier down without latching the chain (R128, R130). -/
def cellFault (e : Nat) (s : State) : State :=
  let x := s.ent e
  if x.st ∈ [6, 7] ∧ x.fault = none then
    let k := (x.cells[s.freeVal x.cells.length]?).getD 0
    faultCarrier (cellParity k (s.freed.wr (TXC_CH_FAULT.CAUSE x.chain) (bitSet (s.rd (TXC_CH_FAULT.CAUSE x.chain)) 3))) e
  else s

/-- CELL_FAULT. -/
def execCellFault (e : Nat) (s : State) : Host.Outcome State Fault Refusal := ranged (e < 1056) (cellFault e s)

/-- FAULT_CLR returns a latched chain to IDLE if its cause bits are clear (R130), whatever EN holds (DESIGN CHOICE, log entry 79: R134's
OFF of a chain with EN clear is not applied here). -/
def faultClr (n : Nat) (s : State) : State :=
  if s.rd (TXC_CH_STS.STATE n) = 4 ∧ s.rd (TXC_CH_FAULT.CAUSE n) = 0 then (s.wr (TXC_CH_STS.STATE n) 1).returnLeave (.chain n) else s

/-- FAULT_CLR. -/
def execFaultClr (f : Fn) (n : Nat) (s : State) : Host.Outcome State Fault Refusal :=
  ranged (n < 8) (s.p0Only f (TXC_CH_CTRL.reg n) (faultClr n s))

/-! ## Correction tables -/

/-- TXC_CORR_CMD takes its operands; each operation completes at once (R107). -/
def corrCmd (n x : Nat) (s : State) : State := (s.wr TXC_CORR_CMD.CHAIN n).wr TXC_CORR_CMD.INDEX x

/-- The state with a correction entry replaced. -/
def State.setCorr (s : State) (k : Nat) (v : BitVec 1024) : State :=
  { s with txc := { s.txc with corr := sset (fun _ => 0) s.txc.corr k v } }

/-- TXC_CORR_DATA0-31 as one entry. -/
def corrData (s : State) : BitVec 1024 :=
  BitVec.ofNat 1024 ((List.range 32).foldr (fun w acc => (s.reg (TXC_CORR_DATA.reg w)).toNat + 2 ^ 32 * acc) 0)

/-- CORR_WRITE. -/
def execCorrWrite (f : Fn) (n x : Nat) (s : State) : Host.Outcome State Fault Refusal :=
  ranged (n < 8 && x < 512) (s.p0Only f TXC_CORR_CMD.reg ((corrCmd n x s).setCorr (512 * n + x) (corrData s)))

/-- CORR_READ. -/
def execCorrRead (f : Fn) (n x : Nat) (s : State) : Host.Outcome State Fault Refusal :=
  ranged (n < 8 && x < 512) (s.p0Only f TXC_CORR_CMD.reg
    ((List.range 32).foldl (fun u w => u.setReg (TXC_CORR_DATA.reg w)
      (BitVec.ofNat 32 (bf (sget (fun _ => 0) s.txc.corr (512 * n + x)) (32 * w) 32))) (corrCmd n x s)))

/-- CLEAR_VALID. -/
def execClearValid (f : Fn) (n x : Nat) (s : State) : Host.Outcome State Fault Refusal :=
  ranged (n < 8 && x < 512) (s.p0Only f TXC_CORR_CMD.reg
    ((corrCmd n x s).setCorr (512 * n + x) (CE.VALID.put (sget (fun _ => 0) s.txc.corr (512 * n + x)) 0)))

/-- The gain correction of every chain and band is derived from the die temperature, each 3,200,000 ticks (R108), at the multiples of
that many ticks (DESIGN CHOICE, log entry 79). -/
def tempGain (s0 : State) : State :=
  let s := s0.at_ (s0.atb + (3200000 - s0.atb % 3200000))
  let v : Nat → Int := fun k => match s.curve 3 (k / 2 + 8 * (k % 2)) with
    | some c => curveAt c.pts (sgn 16 (s.rd PWR_TEMP_STS.TEMP))
    | none => 0
  { s with txc := { s.txc with tdie := some (sgn 16 (s.rd PWR_TEMP_STS.TEMP)), tgain := (List.range 16).foldl (fun m k => sset (fun _ => 0) m k (v k)) [] } }

/-- TEMP_GAIN_DERIVE. -/
def execTempGainDerive (s : State) : Host.Outcome State Fault Refusal := .next (tempGain s)

/-! ## Counter clears -/

/-- TXC_CNT_CLR.BLOCK. -/
def execTxcCntClrBlock (f : Fn) (s : State) : Host.Outcome State Fault Refusal :=
  .next (s.p0Only f TXC_CNT_CLR.reg (s.zero ([TXC_CNT_COMMIT.COUNT, TXC_CNT_FAULT.COUNT, TXC_CNT_BURN.COUNT, TXC_CNT_ACK.COUNT] ++
    (List.range 7).flatMap (fun c => [TXC_MISS_CNT.COUNT c, TXC_SQ_CNT.COUNT c]))))

/-- TXC_CNT_CLR.CHAIN. -/
def execTxcCntClrChain (f : Fn) (s : State) : Host.Outcome State Fault Refusal :=
  .next (s.p0Only f TXC_CNT_CLR.reg (s.zero ((List.range 8).flatMap (fun n => [TXC_CH_CNT_COMMIT.COUNT n, TXC_CH_CNT_FAULT.COUNT n]))))

/-- TXC_CNT_CLR.COEX. -/
def execTxcCntClrCoex (f : Fn) (s : State) : Host.Outcome State Fault Refusal :=
  .next (s.p0Only f TXC_CNT_CLR.reg (s.zero ((List.range 4).flatMap (fun k =>
    [TXC_COEX_DENIED.COUNT k, TXC_COEX_GDROP.COUNT k, TXC_COEX_REQS.COUNT k]))))

end Sys2Proof.Machine
end

