-- ==== Sys2Proof/Machine/Lanes.lean ====
section
/-! DEFINITION. The lanes (R69-R98): grant, attribution and release, the SFD and the PHY header, the filter and attribution rules the link
controller answers a lane header with (R142-R147), cells, frame end and descriptor. -/

namespace Sys2Proof.Machine

/-- Lane l's frame, if the lane is granted. -/
def State.lane (s : State) (l : Nat) : Option Lane := sfind s.lanes l

/-- The state with a lane's frame replaced. -/
def State.putLane (s : State) (l : Nat) (x : Lane) : State := { s with lanes := sput s.lanes l x }

/-! ## Release -/

/-- The other member of a lane's unresolved pair, if there is one. -/
def partner (s : State) (l : Nat) : Option Nat :=
  match s.lane l with
  | none => none
  | some x =>
    if s.on (LNE_LANE_STS.PAIRED l) then
      (skeys s.lanes).find? (fun m => m != l && s.on (LNE_LANE_STS.PAIRED m) &&
        (match s.lane m with | some y => y.cand.pairId == x.cand.pairId | none => false))
    else none

/-- A pair is unresolved no more: its partner continues alone (R75). -/
def unpair (l : Nat) (s : State) : State :=
  match partner s l with
  | some m => s.wr (LNE_LANE_STS.PAIRED m) 0
  | none => s

/-- A lane is released with a cause: it is free, and its use leaves its account (R69). Cells are the caller's affair. -/
def releaseLane (l cause : Nat) (s0 : State) : State :=
  let s := unpair l s0
  let att := s.on (LNE_LANE_STS.ATTRIB l)
  let p := s.rd (LNE_LANE_STS.PART l)
  let s1 := ({ s with lanes := sdel s.lanes l }.setReg (LNE_LANE_STS.reg l) 0).wr (LNE_LANE_STS.LAST_CAUSE l) cause
  let s2 := s1.wr LNE_POOL_STS.FREE (s1.rd LNE_POOL_STS.FREE + 1)
  if att then s2.wr (LNE_PSTS.IN_USE p) (s2.rd (LNE_PSTS.IN_USE p) - 1)
  else s2.wr LNE_POOL_STS.UNATTR (s2.rd LNE_POOL_STS.UNATTR - 1)

/-- A lane that delivers nothing is released and its cells are freed. -/
def dropLane (l cause : Nat) (s : State) : State :=
  match s.lane l with
  | some x => releaseLane l cause (freeCells x.cells s)
  | none => s

/-! ## Grant -/

/-- Lanes the allocator may grant: those below the limit of WATCH (R361). -/
def laneLimit (s : State) : Nat := if s.powerState = 2 then s.rd PWR_WATCH_CFG.LANES else 512

/-- Candidates are granted: ACCEPT is set and no quiescence towards DORMANT runs (R71, R362). -/
def accepting (s : State) : Bool := s.on LNE_CTRL.ACCEPT && s.pwr.req != some 3

/-- The lane a candidate's partner holds, still before its header check. -/
def waitingPartner (s : State) (c : Cand) : Option Nat :=
  if c.kind % 2 = 1 then
    (s.lanes.find? (fun p => p.2.cand.pairId == c.pairId && p.2.phy.isNone && p.2.cand.rate != c.rate)).map (·.1)
  else none

/-- The antennas tainted on a slice at some sample of [lo, hi) (R61, R77). -/
def taintMask (s : State) (b lo hi : Nat) : Nat := maskOf 8 (fun n => taintedIn s n b lo hi)

/-- The antennas that can have a weight: enabled, and untainted at some tick of the interval over which weights are estimated
(R76-R78). -/
def weighted (s : State) (b lo hi : Nat) : Nat :=
  maskOf 8 (fun n => antEnabled s n &&
    !s.cnp.taints.any (fun t => t.ant == n && t.slice == b && decide (t.lo ≤ lo) && decide (hi ≤ t.hi)))

/-- The frame of a lane that is granted: its weights start from the candidate's, and the taint its samples carry is known (R61, R72,
R76, R77). -/
def newLane (s : State) (c : Cand) : Lane :=
  let x : Lane := { cand := c, weight := c.weight }
  let b := rateSlice c.rate
  { x with
    wmask := weighted s b (laneStart x) c.ts
    taint := taintMask s b (laneStart x) (max (c.ts + 1) (s.atb - sliceD s b + 1)) }

/-- A candidate is granted lane l (R70, R75). -/
def grantLane (l : Nat) (c : Cand) (s : State) : State :=
  let mate := waitingPartner s c
  let f := s.rd LNE_POOL_STS.FREE
  let s1 := ((s.putLane l (newLane s c)).wr LNE_POOL_STS.FREE (f - 1)).wr LNE_POOL_STS.UNATTR (s.rd LNE_POOL_STS.UNATTR + 1)
  let s2 := if f - 1 < s.rd LNE_POOL_MIN.MIN_FREE then s1.wr LNE_POOL_MIN.MIN_FREE (f - 1) else s1
  let s3 := if s.rd LNE_POOL_CTRL.LOW_WM ≤ f ∧ f - 1 < s.rd LNE_POOL_CTRL.LOW_WM then s2.raise 2 1 else s2
  let s4 := ((s3.inc LNE_CNT_GRANT.COUNT).wr (LNE_LANE_STS.STATE l) 1).wr (LNE_LANE_STS.RATE l) c.rate
  match mate with
  | some m => (s4.wr (LNE_LANE_STS.PAIRED l) 1).wr (LNE_LANE_STS.PAIRED m) 1
  | none => s4

/-- The allocator takes the candidate at the head of the queue (R70-R72). -/
def candidateAllocation (s : State) : State :=
  match s.cnp.cands with
  | [] => s
  | c :: cs =>
    let s1 := { s with cnp := { s.cnp with cands := cs } }
    if !accepting s then s1.inc LNE_CNT_REFUSED.COUNT
    else match (List.range (laneLimit s)).find? (fun l => (s.lane l).isNone) with
      | some l => grantLane l c s1
      | none => (s1.inc LNE_CNT_EXHAUST.COUNT).raise 2 0

/-- CANDIDATE_ALLOCATION. -/
def execCandidateAllocation (s : State) : Host.Outcome State Fault Refusal := .next (candidateAllocation s)

/-! ## SFD and PHY header -/

/-- An instant of 1/128 ticks to the nearest tick, an exact half to the earlier (R88). -/
def roundTick (x : Nat) : Nat := (x + 63) / 128

/-- One half symbol of the gain loop: a step of 0.5 dB towards a combined level of -12 dBFS, from the level before the gain in 1/16 dBFS
(R79). -/
def gainStep (g : Nat) (level : Int) : Nat :=
  let v := level + 8 * g
  if v < -192 then min 255 (g + 1) else if -192 < v then g - 1 else g

/-- The gain a lane has when its SFD is found, from the levels of the preamble's half symbols (R79). -/
def laneGain (levels : List Int) : Nat := levels.foldl gainStep (min 255 Config.laneGain)

/-- The gain has settled within 1 dB of its target (R79). -/
def gainSettled (levels : List Int) : Bool :=
  match levels.getLast? with
  | some v => decide ((v + 8 * (laneGain levels : Int) + 192).natAbs ≤ 16)
  | none => false

/-- The tick from which a lane estimates its weights: the start of its samples, or the detection for Reach SF128 and SF512, whose
correlation is older than the stream buffer (R72, R76). -/
def weightsFrom (x : Lane) : Nat := if 6 ≤ x.cand.rate then x.cand.ts else laneStart x

/-- The lane finds its SFD: t128 is the instant in stream time in 1/128 tick, coded tells which SFD of the grid's pair it is, levels the
combined levels the gain loop met and amps the refined estimate of the weights, held from here on (R76, R79, R81, R87-R89). -/
def sfdFound (l t128 : Nat) (coded : Bool) (levels : List Int) (amps : List (Int × Int)) (s0 : State) : State :=
  match s0.lane l with
  | none => s0
  | some x =>
    let r := x.cand.rate
    let exact := t128 - 8 * s0.rd (LNE_RATE_LAT.LAT r)
    let ts := roundTick exact
    if s0.rd (LNE_LANE_STS.STATE l) = 1 ∧ ts ≤ x.cand.ts + s0.rd (LNE_RATE_SFDTO.SFD_TO r) then
      let s := s0.at_ (ts + sliceD s0 (rateSlice r))
      let w := weighted s (rateSlice r) (weightsFrom x) ts
      let y := { x with
        sfdTs := ts, tofs := unsgn 8 ((exact : Int) - 128 * ts), settled := gainSettled levels, gain := laneGain levels
        sfdCoded := coded, weight := packWeights w amps, wmask := w, wdb := []
        curves := s.curves, atts := (List.range 8).map (fun n => attAt s n ts) }
      (s.putLane l y).wr (LNE_LANE_STS.STATE l) 2
    else s0

/-- SFD_FOUND. -/
def execSfdFound (l t128 : Nat) (coded : Bool) (levels : List Int) (amps : List (Int × Int)) (s : State) :
    Host.Outcome State Fault Refusal :=
  ranged (l < 512) (sfdFound l t128 coded levels amps s)

/-- No SFD can be found any more (R89). -/
def sfdTimeout (l : Nat) (s0 : State) : State :=
  match s0.lane l with
  | none => s0
  | some x =>
    if s0.rd (LNE_LANE_STS.STATE l) = 1 then
      (dropLane l 2 (s0.at_ (x.cand.ts + s0.rd (LNE_RATE_SFDTO.SFD_TO x.cand.rate) + 1 + sliceD s0 (laneSlice x)))).inc LNE_CNT_SFDTO.COUNT
    else s0

/-- SFD_TIMEOUT. -/
def execSfdTimeout (l : Nat) (s : State) : Host.Outcome State Fault Refusal := ranged (l < 512) (sfdTimeout l s)

/-- A frame passes its header check: its end is known, and its partner, if the pair is unresolved, is released (R75, R88). -/
def headerPass (l : Nat) (h : PhyHdr) (s : State) : State :=
  match s.lane l with
  | none => s
  | some x =>
    let y := { x with phy := some h, fend := x.sfdTs + bodyTicks x.cand.rate h.coded h.length }
    match partner s l with
    | some m => ((dropLane m 1 s).inc LNE_CNT_PAIRLOSS.COUNT).putLane l { y with pairWon := true } |>.wr (LNE_LANE_STS.PAIRED l) 0
    | none => s.putLane l y

/-- A frame fails its header check (R90). -/
def headerFail (l : Nat) (s : State) : State := (dropLane l 3 s).inc LNE_CNT_HDRFAIL.COUNT

/-- What lane l decodes from a PHY header word while it waits for one. -/
def headerOf (s : State) (l w : Nat) : Option PhyHdr :=
  match s.lane l with
  | some x => if s.rd (LNE_LANE_STS.STATE l) = 2 ∧ x.phy = none then some (phyParse x.cand.rate x.sfdCoded w) else none
  | none => none

/-- The rate code and candidate score of a lane. -/
def laneRank (s : State) (l : Nat) : Nat × Nat := match s.lane l with | some x => (x.cand.rate, x.cand.score) | none => (0, 0)

/-- Of two members of a pair that pass in one cycle the first wins: the higher score, then the lower rate code (R75). -/
def pairBeats (s : State) (l m : Nat) : Bool :=
  let x := laneRank s l
  let y := laneRank s m
  decide (y.2 < x.2) || (x.2 == y.2 && decide (x.1 < y.1))

/-- A lane's header and check, in the order of one lane (R90). -/
def headerStep (l : Nat) (h : PhyHdr) (s : State) : State := if phyOk (laneRank s l).1 h then headerPass l h s else headerFail l s

/-- The PHY header of lane l becomes known, and in the same cycle that of its partner where one is given: a frame that fails its check is
released, one that passes ends its pair, and of two that pass one wins (R75, R90). A member that fails in the cycle in which its
partner passes ends by its own failure. -/
def phyHeaderCheck (l w : Nat) (mate : Option Nat) (s : State) : State :=
  match headerOf s l w with
  | none => s
  | some h =>
    match partner s l, mate with
    | some m, some v =>
      match headerOf s m v with
      | none => headerStep l h s
      | some g =>
        if !phyOk (laneRank s m).1 g then headerStep l h (headerFail m s)
        else if phyOk (laneRank s l).1 h && pairBeats s l m then headerPass l h s
        else if phyOk (laneRank s l).1 h then headerPass m g s
        else headerPass m g (headerFail l s)
    | _, _ => headerStep l h s

/-- PHY_HEADER_CHECK. -/
def execPhyHeaderCheck (l w : Nat) (mate : Option Nat) (s : State) : Host.Outcome State Fault Refusal :=
  ranged (l < 512) (phyHeaderCheck l w mate s)

/-! ## Filtering and attribution (R142-R147) -/

/-- A node whose keys a source lookup finds: not one that is being pruned (R146, R186). -/
def lookupSrc (s : State) (pan : Nat) (a : Addr) : Option Nat :=
  match a with
  | .none => none
  | .reserved => none
  | _ => match idxLookup s pan a with
    | some h => if (s.node h).life = 2 then none else some h
    | none => none

/-- PAN entry i is enabled and serves a grid. -/
def panServes (s : State) (g i : Nat) : Bool := s.on (LNK_PAN_CFG.EN i) && bitOn (s.rd (LNK_PAN_CFG.GRIDS i)) g

/-- The PAN entry of a frame (R144). Where several entries that serve the grid bind the source of a frame with no PAN identifier or
0xFFFF, the lowest is taken (DESIGN CHOICE, log entry 77: the rule names one). -/
def entryOf (s : State) (g : Nat) (h : MacHdr) : Option Nat :=
  let bySrc := (List.range 64).find? (fun i => panServes s g i && (lookupSrc s i h.src).isSome)
  match h.dstPan <|> h.srcPan with
  | some v =>
    if v = 0xFFFF then bySrc
    else (List.range 64).find? (fun i => panServes s g i && s.rd (LNK_PAN_ID.PAN_ID i) == v.toNat)
  | none => bySrc

/-- The destination address matches a PAN entry (R145). -/
def dstOk (s : State) (i : Nat) (h : MacHdr) : Bool :=
  match h.dst with
  | .short a => a == 0xFFFF || a.toNat == s.rd (LNK_PAN_ID.SHORT i)
  | .ext a => a.toNat == panExt s i
  | .none => s.on (LNK_PAN_CFG.COORD i) && (h.ftype == 1 || h.ftype == 3)
  | .reserved => false

/-- Reasons 1, 2, 3 and 7 (R143), for a PSDU of len octets. -/
def earlyReason (len : Nat) (h : MacHdr) : Option Nat :=
  if h.version = 0 ∨ h.version = 3 then some 1
  else if h.ftype = 4 ∨ h.ftype = 6 ∨ h.ftype = 7 ∨ (h.ftype = 5 ∧ h.version = 1) ∨ h.dst = .reserved ∨ h.src = .reserved then some 2
  else if len < h.minLen + (if h.secured then micLen h.level else 0) + h.fcs then some 3
  else if h.secured ∧ h.keyMode = 3 then some 7
  else none

/-- The source address of an acknowledgement is a node's (R147). -/
def ackSource (s : State) (n : Nat) (h : MacHdr) : Bool :=
  match h.src with
  | .short a => h.version != 2 || (s.nc n NC.SHORT_VALID == 1 && a.toNat == s.nc n NC.SHORT)
  | .ext a => h.version != 2 || a.toNat == s.nc n NC.EXT
  | _ => true

/-- The attempt an acknowledgement matches: one in whose window it falls before one whose it does not (R147). -/
def ackMatch (s : State) (x : Lane) (h : MacHdr) : Option Att :=
  let ms := s.lnk.atts.filter (fun a => !a.done && decide (a.wOpen ≤ s.atb) && decide (s.atb < a.close + 32000) && !h.seqSuppr &&
    a.seq == h.seq && a.grid == x.cand.grid && a.chan == x.cand.chan && ackSource s a.node h)
  match ms.find? (fun a => decide (a.wOpen ≤ x.sfdTs) && decide (x.sfdTs < a.close)) with
  | some a => some a
  | none => ms.head?

/-- The link controller's answer to a frame that is not an acknowledgement (R144-R146, R195). -/
def answerData (x : Lane) (h : MacHdr) (s : State) : State × Answer :=
  match entryOf s x.cand.grid h with
  | none =>
    if h.dstPan = some 0xFFFF ∧ h.dst = .short 0xFFFF then (s, .accept 0 none none true none) else (s, .reject 4)
  | some i =>
    if !dstOk s i h then (s, .reject 5)
    else
      let p := s.rd (LNK_PAN_CFG.PART i)
      let anon : Answer := if s.on (LNK_PAN_CFG.ADMIT i) then .accept p none (some i) false none else .reject 6
      match lookupSrc s i h.src with
      | none => (s, anon)
      | some n =>
        let s1 := ctxCheck n s
        if (s1.node n).poison then (s1.inc QUE_CNT_POISON_REJ.COUNT, anon) else (s1, .accept p (some n) (some i) false none)

/-- The link controller's answer to a lane header (R143, R147). -/
def answerHeader (x : Lane) (len : Nat) (h : MacHdr) (s : State) : State × Answer :=
  match earlyReason len h with
  | some r => (s, .reject r)
  | none =>
    if h.ftype = 2 then
      match ackMatch s x h with
      | some a => (s, .accept a.part (some a.node) (some (s.nc a.node NC.PAN)) false (some a.id))
      | none => (s, .reject 5)
    else answerData x h s

/-- Octets of a lane's PSDU become known behind those it has, their whitening removed (R86, R437). -/
def laneOctets (x : Lane) (f : PhyHdr) (octs : List Byte) : List Byte :=
  (x.psdu ++ (if f.whitened then whitenAt x.psdu.length octs else octs)).take f.length

/-- A lane knows its header: octs are the PSDU octets received behind those it has. It sends its lane header item once it knows the
octets the item needs, or the whole PSDU, and the link controller judges it (R91, R142). -/
def laneHeader (l : Nat) (octs : List Byte) (s : State) : State :=
  match s.lane l with
  | none => s
  | some x =>
    match x.phy with
    | none => s
    | some f =>
      let known := laneOctets x f octs
      if x.hdr = none ∧ (known.length = f.length ∨ (2 ≤ known.length ∧ headerNeed known ≤ known.length)) then
        let h := macParse known f.length (rxFcsLen x.cand.rate f)
        let r := answerHeader x f.length h s
        r.1.putLane l { x with psdu := known, hdr := some h, ans := some r.2 }
      else s

/-- LANE_HEADER. -/
def execLaneHeader (l : Nat) (octs : List Byte) (s : State) : Host.Outcome State Fault Refusal := ranged (l < 512) (laneHeader l octs s)

/-- Partition p is RESETTING and was not DISABLED when the reset was requested (R210). -/
def resetting (s : State) (p : Nat) : Bool := s.prt.resets.any (fun r => r.part == p && !r.wasOff)

/-- A lane header is rejected with reason k (R91). -/
def rejectLane (l k : Nat) (s : State) : State := (dropLane l 4 s).inc (LNE_FLT_CNT.COUNT (k - 1))

/-- The window a frame is tested against: expected SFD and whether the SFD lies inside (R138, R139, R141). -/
def windowOf (s : State) (x : Lane) (p : Nat) (n att : Option Nat) : Option (Bool × Int) :=
  match att.bind (fun k => s.lnk.atts.find? (fun a => a.id == k)) with
  | some a => some (decide (a.wOpen ≤ x.sfdTs) && decide (x.sfdTs < a.close), (a.expect : Int) - x.sfdTs)
  | none =>
    match s.lnk.wins.find? (fun w => n.isSome && (w.node == n || (w.node == none && w.part == p)) && decide (w.slotLo ≤ x.sfdTs) &&
        decide (x.sfdTs < w.slotHi)) with
    | some w =>
      let shr := s.rd (LNK_RATE_SHR.SHR x.cand.rate)
      some (decide (w.wOpen + shr ≤ x.sfdTs) && decide (x.sfdTs < w.close + shr), (w.expect + shr : Int) - x.sfdTs)
    | none => none

/-- A lane is attributed to partition p; the cap, the guarantee and the watermark decide whether it is kept (R73, R193). PEAK counts a lane
that is shed here, since it was attributed first (DESIGN CHOICE, log entry 78: R98 does not say). -/
def attributeLane (l p : Nat) (x : Lane) (s : State) : State :=
  let u := s.rd (LNE_PSTS.IN_USE p) + 1
  let s1 := ((((s.putLane l x).wr (LNE_LANE_STS.STATE l) 3).wr (LNE_LANE_STS.ATTRIB l) 1).wr (LNE_LANE_STS.PART l) p).wr
    LNE_POOL_STS.UNATTR (s.rd LNE_POOL_STS.UNATTR - 1)
  let s2 := (s1.wr (LNE_PSTS.IN_USE p) u).wr (LNE_PSTS.PEAK p) (max u (s.rd (LNE_PSTS.PEAK p)))
  let s3 := x.cells.foldl (moveCell p) (s2.inc (LNE_PCNT.COUNT p 0))
  if s.rd (PRT_P_LANE.CAP p) < u then ((dropLane l 6 s3).inc (LNE_PCNT.COUNT p 2)).raise 2 2
  else if s.on LNE_CTRL.SHED_EN ∧ s.rd LNE_POOL_STS.FREE < s.rd LNE_POOL_CTRL.LOW_WM ∧ s.rd (PRT_P_LANE.GUAR p) < u then
    ((dropLane l 5 s3).inc (LNE_PCNT.COUNT p 1)).raise 2 2
  else s3

/-- The answer reaches the lane (R91): it is released, or attributed to a partition. -/
def headerAnswer (l : Nat) (s : State) : State :=
  match s.lane l with
  | none => s
  | some x =>
    match x.ans with
    | none => s
    | some (.reject k) => rejectLane l k s
    | some (.accept p n _ _ att) =>
      if s.rd (LNE_LANE_STS.STATE l) ≠ 2 then s
      else if resetting s p then (rejectLane l 6 s).inc (PRT_PCNT.COUNT p 3)
      else
        let w := windowOf s x p n att
        attributeLane l p { x with
          att := att, winOow := w.map (fun q => !q.1), tcorr := (w.map (·.2)).getD 0, tsch := att.isNone && w.isSome } s

/-- HEADER_ANSWER. -/
def execHeaderAnswer (l : Nat) (s : State) : Host.Outcome State Fault Refusal := ranged (l < 512) (headerAnswer l s)

/-! ## Cells, frame end and descriptor -/

/-- A receive cell is granted to the unattributed account: it needs one cell of FREE less the unused guarantees (R193). -/
def unattrOk (s : State) : Bool := decide (1 ≤ (s.rd QUE_STS.FREE : Int) - cellsResv s)

/-- The account of a lane's cells, and whether one more is granted (R193). -/
def laneAccount (s : State) (l : Nat) : Nat × Bool :=
  if s.on (LNE_LANE_STS.ATTRIB l) then
    let p := s.rd (LNE_LANE_STS.PART l)
    (p, cellsOk s p 1 0)
  else (64, unattrOk s)

/-- Credits of the receive cell queue: each cell that the queue fabric has not allocated holds one (R22, R193). -/
def cellCredits (s : State) : Nat := 2048 - (s.lanes.filter (fun p => p.2.stalled)).length

/-- A PSDU cell is stored behind the lane's cells (R94, R188). A refused cell keeps its credit and stops the lane (R22, R193). -/
def storeCell (l : Nat) (x : Lane) (len : Nat) (bs : List Byte) (s : State) : State :=
  let acc := laneAccount s l
  if acc.2 then
    let r := takeCells acc.1 1 s
    let k := r.2.headD noCell
    let final := decide (len ≤ 64 * (x.cells.length + 1))
    let s1 := r.1.setCell k { r.1.cell k with data := recOf 512 bs, next := noCell, last := final, count := if final then len % 64 else 0 }
    let s2 := match x.cells.getLast? with
      | some j => s1.setCell j { s1.cell j with next := k }
      | none => s1
    s2.putLane l { x with cells := x.cells ++ [k], stalled := false }
  else s.putLane l { x with stalled := true }

/-- What a lane knows of its PSDU once its next cell is complete: d holds the cell's octets as received, of which those already known
keep their values (R94, R437). -/
def cellOctets (x : Lane) (f : PhyHdr) (d : BitVec 512) : List Byte :=
  let k := x.cells.length
  if 64 * (k + 1) ≤ x.psdu.length then x.psdu else laneOctets x f ((recBytes 64 d).drop (x.psdu.length - 64 * k))

/-- A lane hands over its next PSDU cell, while the receive cell queue has a credit for it (R22, R94). A cell of a lane whose partition was
reset is freed as it arrives (R210). -/
def receiveCell (l : Nat) (d : BitVec 512) (s : State) : State :=
  match s.lane l with
  | none => s
  | some x =>
    match x.phy with
    | none => s
    | some f =>
      if x.cells.length < ceilDiv f.length 64 ∧ (x.stalled = true ∨ 0 < cellCredits s) then
        let y := { x with psdu := cellOctets x f d }
        if x.rst then s.putLane l { y with cells := x.cells ++ [noCell] }
        else storeCell l y f.length ((y.psdu.drop (64 * x.cells.length)).take 64) s
      else s

/-- RECEIVE_CELL. -/
def execReceiveCell (l : Nat) (d : BitVec 512) (s : State) : Host.Outcome State Fault Refusal := ranged (l < 512) (receiveCell l d s)

/-- The power at the reference point of antenna n in 1/16 dBm, by the curves of the measurement and the attenuation att in effect when the
sample was taken (R42, R95, R305, R317). -/
def refPower (x : Lane) (b n att : Nat) (v : Int) : Int :=
  let a := match findCurve x.curves 2 n with
    | some c => curveAt c.pts (16 * att)
    | none => 16 * att
  (match findCurve x.curves 1 (n + 8 * b) with | some c => curveAt c.pts v | none => v) + a

/-- The interval over which ANT_RSSI is measured: SFD and PHR, or sync word and header (R84, R95). -/
def rssiSpan (x : Lane) : Nat × Nat :=
  let r := x.cand.rate
  if r = 0 then (x.sfdTs - 1024, x.sfdTs + 1024)
  else if r ≤ 3 then (x.sfdTs - 16 * fskBit r, x.sfdTs + (if x.sfdCoded then 32 else 16) * fskBit r)
  else (x.sfdTs - 8 * (reachSf r * 40), x.sfdTs + 30 * (reachSf r * 40))

/-- The lane receives antenna n untainted at tick t (R59, R60, R53). -/
def clearAt (s : State) (x : Lane) (n t : Nat) : Bool :=
  !taintedIn s n (laneSlice x) t (t + 1) && !x.left.any (fun e => e.1 == n && decide (e.2 ≤ t))

/-- The powers in 1/16 dBm of the untainted samples of antenna n in the interval, each referred through its own attenuation (R42, R95). -/
def antSamples (s : State) (x : Lane) (n : Nat) (q : Quality) : List Int :=
  let i := rssiSpan x
  ((q.power.getD n []).filter (fun e => decide (i.1 ≤ e.1) && decide (e.1 < i.2) && clearAt s x n e.1)).map
    (fun e => refPower x (laneSlice x) n (attAt s n e.1) e.2)

/-- The linear power of each enabled antenna that had an untainted sample (R95). -/
def antPowers (s : State) (x : Lane) (q : Quality) : List (Option (Nat × Nat)) :=
  (List.range 8).map (fun n =>
    let vs := antSamples s x n q
    if antEnabled s n && !vs.isEmpty then some (meanPower vs) else none)

/-- The mean of linear powers (R95). -/
def meanOf (ps : List (Nat × Nat)) : Nat × Nat :=
  let q := ps.foldl (fun (a : Nat × Nat) p => (a.1 * p.2 + p.1 * a.2, a.2 * p.2)) (0, 1)
  (q.1, q.2 * ps.length)

/-- A linear power in whole dBm (R95). -/
def powerDbm (p : Nat × Nat) : Int := dbOf 1 p.1 p.2

/-- The antennas that contributed at some sample of a frame: those with a weight, but for one that taint or its disabling covers from the
lane's first sample to the end (R77, R78, R95). -/
def combMask (s : State) (x : Lane) : Nat :=
  maskOf 8 (fun n => bitOn x.wmask n &&
    let hi := (x.left.filter (fun e => e.1 == n)).foldl (fun m e => min m e.2) x.fend
    decide (laneStart x < hi) && !s.cnp.taints.any (fun t => t.ant == n && t.slice == laneSlice x && decide (t.lo ≤ laneStart x) &&
      decide (hi ≤ t.hi)))

/-- An 8-bit dBm field: 0x80 for none (R95). -/
def dbmField (v : Option Int) : Nat := match v with | some x => unsgn 8 (clampInt (-127) 127 x) | none => 0x80

/-- The LQI of an SNR in 0.25 dB units (R96). -/
def lqi (v : Int) : Nat := (min 255 (max 0 (5 * v / 2))).toNat

/-- The lane's fields of the receive descriptor (R77, R95-R97). -/
def laneDescriptor (s : State) (l : Nat) (x : Lane) (f : PhyHdr) (h : MacHdr) (fcsOk : Bool) (q : Quality) : BitVec 512 :=
  let pw := antPowers s x q
  let comb := combMask s x
  let tm := x.taint
  let used := ((List.range 8).filter (bitOn comb)).filterMap (fun n => pw.getD n none)
  let rssi := if used.isEmpty then none else some (powerDbm (meanOf used))
  let snr := clampInt (-128) 127 q.snr
  let g := x.cand.grid
  putAll (0 : BitVec 512) [(RD.GRID, g), (RD.RATE, x.cand.rate), (RD.CHAN, s.rd (CNP_GRID_GEOM.FIRST_CHAN g) + x.cand.chan),
    (RD.LQI, lqi snr), (RD.RSSI, dbmField rssi), (RD.SNR, unsgn 8 snr), (RD.SFD_TS, x.sfdTs), (RD.DURATION, x.fend - x.sfdTs),
    (RD.FOFS, unsgn 20 q.fofs), (RD.TOFS, x.tofs), (RD.TAINTED, if tm ≠ 0 ∧ fcsOk then 1 else 0),
    (RD.CAPTURE, x.cand.kind / 2 % 2), (RD.PAIR_WON, if x.pairWon then 1 else 0), (RD.GAIN_UNSETTLED, if x.settled then 0 else 1),
    (RD.FCS_BAD, if fcsOk then 0 else 1), (RD.CODED, if f.coded ∨ 4 ≤ x.cand.rate then 1 else 0), (RD.WHITENED, if f.whitened then 1 else 0),
    (RD.FCS4, if rxFcsLen x.cand.rate f = 4 then 1 else 0), (RD.TAINT_MASK, tm), (RD.COMB_MASK, comb),
    (RD.ANT_RSSI, unoctets (pw.map (fun v => BitVec.ofNat 8 (dbmField (v.map powerDbm))))),
    (RD.EVM, min 255 q.evm), (RD.GAIN, x.gain), (RD.LANE, l), (RD.LENGTH, f.length),
    (RD.FRAME_COUNTER, if h.secured then h.counter else 0), (RD.SEC_LEVEL, if h.secured then h.level else 0),
    (RD.KEY_ID_MODE, if h.secured then h.keyMode else 0), (RD.SECURED, if h.secured then 1 else 0),
    (RD.KEY_INDEX, if h.secured ∧ h.keyMode ≠ 0 then h.keyIndex else 0), (RD.SEQ, h.seq), (RD.SEQ_SUPPR, if h.seqSuppr then 1 else 0),
    (RD.FRAME_TYPE, h.ftype), (RD.FRAME_VERSION, h.version)]

/-- The antenna with the highest ANT_RSSI, the lower on a tie (R151). -/
def bestAnt (d : BitVec 512) : Nat :=
  let v := fun n => sgn 8 (bf (BitVec.ofNat 64 (RD.ANT_RSSI.of d)) (8 * n) 8)
  (List.range 8).foldl (fun m n => if v m < v n then n else m) 0

/-- A destination that is a broadcast address. -/
def isBcast : Addr → Bool
  | .short a => a == 0xFFFF
  | _ => false

/-- The hub acknowledges a frame whose FCS is good (R148): its sequencer program starts and the frame awaits its build instant. -/
def wantAck (l : Nat) (x : Lane) (h : MacHdr) (p : Nat) (n pan : Option Nat) (d : BitVec 512) (s : State) : State :=
  if s.on LNK_CTRL.EN ∧ h.ackReq ∧ !isBcast h.dst then
    let a : AckReq := { node := n, part := p, pan := pan, hdr := h, rate := x.cand.rate, grid := x.cand.grid, chan := x.cand.chan
                        fofs := RD.FOFS.of d, ant := bestAnt d, fend := x.fend, lane := l, tsch := x.tsch, tcorr := x.tcorr
                        slot := none, verdict := if h.secured ∧ h.version = 2 then none else some true }
    startSeq (if h.version = 2 then 1 else 0) x.sfdTs x.fend 0 0 0 0 (if h.secured then 0x806 else 6) n none none { s with lnk := { s.lnk with acks := s.lnk.acks ++ [a] } }
  else s

/-- A frame's FCS fails (R93). -/
def fcsFails (l : Nat) (s : State) : State :=
  let s1 := s.inc LNE_CNT_FCSFAIL.COUNT
  if s.on (LNE_LANE_STS.ATTRIB l) then s1.inc (LNE_PCNT.COUNT (s.rd (LNE_LANE_STS.PART l)) 3) else s1

/-- The frame ends (R92, R93, R148): rest are the PSDU octets received behind those the lane knows, and its FCS is judged on all of them
(R80, R81, R86). The item reaches the link controller once the last sample has left the channeliser (R61, R92). A failed frame
that is not handed over is released whatever its answer. -/
def frameEnd (l : Nat) (rest : List Byte) (q : Quality) (s0 : State) : State :=
  match s0.lane l with
  | none => s0
  | some x =>
    match x.phy with
    | none => s0
    | some f =>
      let known := laneOctets x f rest
      if x.fcsOk ≠ none ∨ known.length < f.length then s0
      else
        let s := s0.at_ (x.fend + sliceD s0 (laneSlice x))
        let ok := fcsRight x.cand.rate f known
        if !ok ∧ !s0.on LNE_CTRL.FCS_BAD_DLV then dropLane l 7 (fcsFails l s)
        else match x.hdr, x.ans with
          | some _, some (.accept p n pan _ _) =>
            if s0.rd (LNE_LANE_STS.STATE l) = 3 then
              let h := macParse known f.length (rxFcsLen x.cand.rate f)
              let y := { x with psdu := known, hdr := some h }
              let d := laneDescriptor s l y f h ok q
              let s1 := (s.putLane l { y with fcsOk := some ok, dsc := d }).wr (LNE_LANE_STS.STATE l) 4
              if ok then wantAck l y h p n pan d s1 else fcsFails l s1
            else s0
          | _, _ => s0

/-- FRAME_END. -/
def execFrameEnd (l : Nat) (rest : List Byte) (q : Quality) (s : State) : Host.Outcome State Fault Refusal :=
  ranged (l < 512) (frameEnd l rest q s)

/-- The lane's counts of a frame handed over (R69, R93). -/
def countHanded (l : Nat) (x : Lane) (ok : Bool) (s : State) : State :=
  if ok then
    let p := s.rd (LNE_LANE_STS.PART l)
    let s1 := (s.inc LNE_CNT_HANDED.COUNT).inc (LNE_PCNT.COUNT p 5)
    if RD.TAINTED.of x.dsc = 1 then s1.inc (LNE_PCNT.COUNT p 6) else s1
  else s

/-- The queue fabric accepts the descriptor cell: the frame is handed over and the lane released (R93, R94, R97). -/
def descriptorCell (l : Nat) (s : State) : State :=
  match s.lane l with
  | none => s
  | some x =>
    match x.phy, x.hdr, x.ans, x.fcsOk with
    | some f, some h, some (.accept p n pan bc _), some ok =>
      if s.rd (LNE_LANE_STS.STATE l) = 4 ∧ x.cells.length = ceilDiv f.length 64 then
        let done := fun (u : State) => releaseLane l (if ok then 0 else 7) (countHanded l x ok u)
        if x.rst then (done s).inc (PRT_PCNT.COUNT p 3)
        else
          let acc := laneAccount s l
          if acc.2 then
            let r := takeCells acc.1 1 s
            let k := r.2.headD noCell
            let d := putAll x.dsc [(RD.NODE, n.getD 0), (RD.PART, p), (RD.NODE_VALID, if n.isSome then 1 else 0),
              (RD.OUT_OF_WINDOW, if x.winOow = some true then 1 else 0), (RD.FIRST_CELL, x.cells.headD noCell),
              (RD.TCORR, unsgn 32 x.tcorr)]
            let s1 := r.1.setCell k { r.1.cell k with data := d, next := x.cells.headD noCell, last := false, hdrCell := true }
            let rx : Rx := { dsc := d, part := p, node := n, pan := pan, hdr := h, lane := l, fend := x.fend, sfdTs := x.sfdTs
                             cells := x.cells, descCell := k, stage := if ok then 0 else 3, att := x.att, fcsBad := !ok, bcast := bc
                             oow := x.winOow, slot := 0, owed := if ok then [] else [0] }
            done { s1 with que := { s1.que with rxs := s1.que.rxs ++ [rx] } }
          else s
      else s
    | _, _, _, _ => s

/-- DESCRIPTOR_CELL. -/
def execDescriptorCell (l : Nat) (s : State) : Host.Outcome State Fault Refusal := ranged (l < 512) (descriptorCell l s)

/-- The lane time limit of R24. -/
def deliveryDrop (l : Nat) (s0 : State) : State :=
  match s0.lane l with
  | none => s0
  | some x =>
    if x.phy ≠ none then
      let s := s0.at_ (x.fend + 32000)
      let c := if s.on (LNE_LANE_STS.ATTRIB l) then LNE_PCNT.COUNT (s.rd (LNE_LANE_STS.PART l)) 4 else LNE_CNT_DLVDROP_SH.COUNT
      (dropLane l 8 (s.inc c)).raise 2 3
    else s0

/-- DELIVERY_DROP. -/
def execDeliveryDrop (l : Nat) (s : State) : Host.Outcome State Fault Refusal := ranged (l < 512) (deliveryDrop l s)

/-! ## Counter clears (R98) -/

/-- LNE_CNT_CLR.BLOCK. -/
def execLneCntClrBlock (f : Fn) (s : State) : Host.Outcome State Fault Refusal :=
  .next (s.p0Only f LNE_CNT_CLR.reg ((s.zero [LNE_CNT_GRANT.COUNT, LNE_CNT_EXHAUST.COUNT, LNE_CNT_REFUSED.COUNT,
    LNE_CNT_PAIRLOSS.COUNT, LNE_CNT_SFDTO.COUNT, LNE_CNT_HDRFAIL.COUNT, LNE_CNT_FCSFAIL.COUNT, LNE_CNT_HANDED.COUNT,
    LNE_CNT_DLVDROP_SH.COUNT]).wr LNE_POOL_MIN.MIN_FREE (s.rd LNE_POOL_STS.FREE)))

/-- Every LNE counter of partition p is cleared and its peak set to its present use. -/
def clearLanePart (s : State) (p : Nat) : State :=
  (s.zero ((List.range 7).map (LNE_PCNT.COUNT p))).wr (LNE_PSTS.PEAK p) (s.rd (LNE_PSTS.IN_USE p))

/-- LNE_CNT_CLR.PART. -/
def execLneCntClrPart (f : Fn) (s : State) : Host.Outcome State Fault Refusal :=
  .next (s.p0Only f LNE_CNT_CLR.reg ((List.range 64).foldl clearLanePart s))

/-- LNE_CNT_CLR.FLT. -/
def execLneCntClrFlt (f : Fn) (s : State) : Host.Outcome State Fault Refusal :=
  .next (s.p0Only f LNE_CNT_CLR.reg (s.zero ((List.range 7).map LNE_FLT_CNT.COUNT)))

end Sys2Proof.Machine
end

