-- ==== Sys2Proof/Machine/Link.lean ====
section
/-! DEFINITION. The link controller's placements (R157-R160, R164-R171, R205): attempts, retries and deadlines, wake-up sequences, TSCH
slots; its comparators, sequencers and registers (R136, R137, R144, R168, R173-R175). -/

namespace Sys2Proof.Machine

/-! ## Placing an item -/

/-- The frequency adjustment of a frame to a known node (R151, R179). -/
def nodeAdj (s : State) (h : Nat) : Int := if s.on LNK_CTRL.FOLLOW_FOFS then fofsOf (s.node h).ctx else 0

/-- Carrier use of a frame of dur ticks on a curve (R101, R205). -/
def useTicks (s : State) (c dur : Nat) : Nat := tUp s c + dur + tDown s c

/-- The staging entry of node h's item hc for an air time, a chain, a grid and a channel; length and charge as the frame stands now. -/
def entOf (s : State) (h hc kind air chain g k : Nat) (ackReq : Bool) : Ent :=
  let r := s.ih hc IH.RATE
  let sec := s.ih hc IH.SECURE == 1
  let slot := s.nc h NC.KEY_SLOT
  let lvl := s.nc h NC.SEC_LEVEL
  let len := s.ih hc IH.LENGTH + (if sec then auxLen (s.kslot slot).mode + micLen lvl else 0) + fcsLen s r
  let c := curveOf s chain g k
  let dur := frameTicks s r len
  { kind := kind, chain := chain, part := s.nc h NC.PART, prio := s.ih hc IH.PRIO, node := some h, item := some hc, air := air
    grid := g, chan := k, rate := r, freqAdj := nodeAdj s h, backoff := s.ih hc IH.BACKOFF, secure := sec, level := lvl
    ackReq := ackReq, len := len, dur := dur, slot := if sec then some slot else none, pan := some (s.nc h NC.PAN)
    tUp := tUp s c, tDown := tDown s c, charge := useTicks s c dur, period := airPeriod s }

/-- The transmit chain of an item: its own where it overrides the context's (R187). -/
def itemChain (s : State) (h hc : Nat) : Nat := if s.ih hc IH.CHAIN_OVR = 1 then s.ih hc IH.CHAIN else s.nc h NC.CHAIN

/-- The deadline of an item lets an attempt begin at air (R158). -/
def inTime (s : State) (hc air : Nat) : Bool := s.ih hc IH.DEADLINE == 0 || decide (air < s.ih hc IH.DEADLINE)

/-- A placement that the airtime share refuses is deferred (R205). -/
def deferAir (p : Nat) (s : State) : State := s.inc (PRT_PCNT.COUNT p 1)

/-- Entries for staging join the schedule queue and their airtime is charged. -/
def pushScheds (xs : List Ent) (s : State) : State :=
  let s1 := xs.foldl (fun u x => chargeAir x.part x.charge u) s
  { s1 with lnk := { s1.lnk with scheds := s1.lnk.scheds ++ xs.map (fun x => ({ ent := x } : Sched)) } }

/-- The schedule queue has credits for n items (R22). -/
def schedCredit (s : State) (n : Nat) : Bool := decide (s.lnk.scheds.length + n ≤ 1024)

/-- A queued item is placed: its airtime is judged and charged, and it leaves the queue for staging. -/
def placeItem (h hc : Nat) (x : Ent) (s : State) : State :=
  if !schedCredit s 1 || !inTime s hc x.air then s
  else if !airOk s x.part x.charge then deferAir x.part s
  else pushScheds [x] (unlinkItem h hc s)

/-- The scheduler may take items of node h: ACTIVE, not poisoned, not held (R183, R191, R195). -/
def mayTake (s : State) (h : Nat) : Bool := (s.node h).life == 1 && !(s.node h).poison && s.nc h NC.QHOLD == 0

/-- The head item of a node's queue. -/
def headItem (s : State) (h : Nat) : Option Nat := if s.nc h NC.HEAD = noCell then none else some (s.nc h NC.HEAD)

/-! ## Class D rendezvous (R164-R166) -/

/-- The earliest instant the scheduler places for: present ATB + LNK_SCHED_LEAD.TICKS (R165, R176). -/
def leadInstant (s : State) : Nat := s.atb + s.rd LNK_SCHED_LEAD.TICKS

/-- A quotient of integers rounded to the nearest, an exact half away from zero (R163). -/
def roundDiv (a b : Int) : Int := if 0 ≤ a then (2 * a + b) / (2 * b) else -((-(2 * a) + b) / (2 * b))

/-- A quotient of integers rounded up. -/
def ceilInt (a b : Int) : Int := -((-a) / b)

/-- The n-th predicted sample of a node whose period is pu ticks (R164). -/
def sampleAt (anchor pu : Nat) (skew : Int) (n : Nat) : Int := anchor + roundDiv (n * pu * (1000000000 + skew)) 1000000000

/-- The guard of a predicted sample (R164). -/
def guardAt (s : State) (anchor res : Nat) (t : Int) : Int :=
  s.rd LNK_DRIFT_CFG.G_FIX + ceilInt ((t - anchor) * res) 1000000000

/-- The first predicted sample from number n on whose sequence starts no earlier than a target. -/
def firstSample (s : State) (anchor pu res : Nat) (skew target : Int) : Nat → Nat → Int
  | 0, n => sampleAt anchor pu skew n
  | f + 1, n =>
    let t := sampleAt anchor pu skew n
    if target ≤ t - guardAt s anchor res t then t else firstSample s anchor pu res skew target f (n + 1)

/-- A lower bound of the sample number of R165. -/
def sampleFrom (s : State) (anchor pu res : Nat) (skew target : Int) : Nat :=
  let num := (target - anchor + s.rd LNK_DRIFT_CFG.G_FIX) * 1000000000 * 1000000000
  let den := (pu : Int) * (1000000000 + skew) * (1000000000 - res)
  if den ≤ 0 then 1 else max 1 ((num / den).toNat - 2)

/-- A wake-up sequence: its start, its guard, frames and the ticks between their starts (R165, R166). -/
structure Wake where
  start : Nat
  g : Nat
  n : Nat
  tw : Nat
  wdur : Nat
  deriving DecidableEq, Repr

/-- The wake-up frame that a rendezvous time of v units announces (R166, R307). -/
def wakeMac (s : State) (h v seq : Nat) : List Byte :=
  (buildMac s (sget (fun _ => 0) s.lnk.fmts (s.rd LNK_CSL_WUF.FMT)) false false seq (s.nc h NC.PAN) (some h) none (some v)).1

/-- The wake-up sequence for node h at a rate (R165, R166). -/
def wakePlan (s : State) (h r : Nat) : Wake :=
  let ctx := (s.node h).ctx
  let u := s.rd (LNK_RATE_UNIT.UNIT r)
  let pu := periodOf ctx * u
  let wdur := frameTicks s r ((wakeMac s h 0 0).length + fcsLen s r)
  let tw := ceilDiv wdur (max 1 u) * u
  let a := NC.ANCHOR.of ctx
  let lead := leadInstant s
  let t := firstSample s a pu (resOf ctx) (skewOf ctx) lead 8 (sampleFrom s a pu (resOf ctx) (skewOf ctx) lead)
  let g := guardAt s a (resOf ctx) t
  let whole := decide (periodOf ctx = 0) || decide ((pu : Int) ≤ 2 * g)
  let g' := if whole then (pu + tw) / 2 else g.toNat
  { start := if whole then lead else (t - g).toNat, g := g', n := ceilDiv (2 * g') (max 1 tw) + 1, tw := tw, wdur := wdur }

/-- The payload's air time behind a wake-up sequence (R166). -/
def wakePayload (s : State) (r : Nat) (w : Wake) : Nat :=
  w.start + (w.n - 1) * w.tw + w.wdur + s.rd LNK_CSL_CFG.RZ_MIN * s.rd (LNK_RATE_UNIT.UNIT r)

/-- The staging entry of a wake-up sequence ahead of a payload entry: one entry whose stream holds all frames (R166, R167). The
sequence numbers are the hub's next for the node, which are free values. -/
def wakeEnt (s : State) (h : Nat) (w : Wake) (x : Ent) : Ent :=
  let u := s.rd (LNK_RATE_UNIT.UNIT x.rate)
  let frames := (List.range w.n).map (fun i =>
    let m := wakeMac s h (s.rd LNK_CSL_CFG.RZ_MIN + (w.n - 1 - i) * w.tw / max 1 u) ((s.freeVal 256 + i) % 256)
    m ++ fcsOctets s x.rate m)
  let dur := (w.n - 1) * w.tw + w.wdur
  { x with
    kind := 3, air := w.start, secure := false, slot := none, ackReq := false, psdu := frames.flatten
    wufLen := (frames.headD []).length, nWuf := w.n, dur := dur, charge := x.tUp + dur + x.tDown }

/-- A class D item is placed behind its wake-up sequence. -/
def placeWake (h hc : Nat) (x : Ent) (s : State) : State :=
  let w := wakePlan s h x.rate
  let pay := { x with air := wakePayload s x.rate w }
  let wk := wakeEnt s h w pay
  if !schedCredit s 2 || !inTime s hc w.start then s
  else if !airOk s x.part wk.charge || !airOk (chargeAir x.part wk.charge s) x.part pay.charge then deferAir x.part s
  else startSeq 4 0 0 w.start 0 0 (w.start + w.g) 0 (some h) (some hc) none (pushScheds [wk, pay] (unlinkItem h hc s.freed))

/-! ## Retries (R117, R159) -/

/-- The HELD entry of a node that waits for a retry's placement. -/
def heldRetry (s : State) (h : Nat) : Option Nat :=
  (s.txc.ents.find? (fun p => p.2.st == 8 && p.2.node == some h && (sfind s.lnk.retryAt p.1).isSome)).map (·.1)

/-- A HELD entry's retry is placed at an air time: READY again, with the same bits and counter (R117). -/
def rescheduleEnt (e air : Nat) (g k : Nat) (s : State) : State :=
  let x := s.ent e
  let s1 := { s with lnk := { s.lnk with retryAt := sdel s.lnk.retryAt e } }
  chargeAir x.part x.charge (s1.setEnt e { x with
    st := 3, air := air, grid := g, chan := k, readyAt := s.atb, wuf := false, period := airPeriod s, seqNo := s.txc.arrivals })

/-- The item of a HELD entry ends with a final outcome and the entry is released (R117, R160). -/
def endHeld (e status : Nat) (s : State) : State :=
  let x := s.ent e
  let s1 := releaseEnt e { s with lnk := { s.lnk with
    retryAt := sdel s.lnk.retryAt e, atts := s.lnk.atts.filter (fun a => a.ent != e || a.closed) } }
  match x.node, x.item with
  | some h, some hc => if x.gone then dropItem h hc s1 else endItem h hc status s1
  | _, _ => s1

/-- A retry that is due for a class A, broadcast or class D node is placed, deferred, or ended by the deadline (R158, R159, R205). -/
def placeRetry (h e : Nat) (s0 : State) : State :=
  let s := ctxCheck h s0
  let x := s.ent e
  match x.item with
  | none => s
  | some hc =>
    if s.nc h NC.CLASS = 1 then s
    else if s.nc h NC.CLASS = 2 then
      let w := wakePlan s h x.rate
      let air := wakePayload s x.rate w
      let wk := wakeEnt s h w { x with st := 0, cells := [], fc := none, job := false, psdu := [] }
      if !inTime s hc w.start then endHeld e 4 s
      else if !schedCredit s 1 then s
      else if !airOk s x.part wk.charge || !airOk (chargeAir x.part wk.charge s) x.part x.charge then deferAir x.part s
      else startSeq 4 0 0 w.start 0 0 (w.start + w.g) 0 (some h) (some hc) none (pushScheds [wk] (rescheduleEnt e air x.grid x.chan s.freed))
    else
      let air := max ((sfind s.lnk.retryAt e).getD 0) (leadInstant s)
      if !inTime s hc air then endHeld e 4 s
      else if !airOk s x.part x.charge then deferAir x.part s
      else rescheduleEnt e air x.grid x.chan s

/-- The scheduler places for node h: a retry that waits, else the head item by the node's class (R159, R165, R176). A node's BOUGH has no
part in it: the spec states no rule of fairness among boughs (DESIGN CHOICE, log entry 81). -/
def schedulerPlace (h : Nat) (s0 : State) : State :=
  if !s0.clk.tb then s0
  else match heldRetry s0 h with
    | some e => placeRetry h e s0
    | none =>
      match headItem s0 h with
      | none => s0
      | some hc =>
        let r := readHeaders h [hc] (ctxCheck h s0)
        let s := r.1
        if !r.2 || !mayTake s h then s
        else
          let x := entOf s h hc 0 (leadInstant s) (itemChain s h hc) (s.ih hc IH.GRID) (s.ih hc IH.CHAN) (s.ih hc IH.ACK_REQ == 1)
          match s.nc h NC.CLASS with
          | 1 => s
          | 2 => placeWake h hc x s
          | _ => placeItem h hc x s

/-- SCHEDULER_PLACE. -/
def execSchedulerPlace (h : Nat) (s : State) : Host.Outcome State Fault Refusal := ranged (h < 65536) (schedulerPlace h s)

/-! ## Waits, cancels and deadlines -/

/-- An engine's cancel came too late: a notice, at most one for an item, discarded and counted after a reset of the engine (R228, R237). -/
def tooLateNotice (e h hc : Nat) (s : State) : State :=
  if (e, hc) ∈ s.eng.late then s
  else if (e, hc) ∈ s.eng.discard then
    ({ s with eng := { s.eng with late := (e, hc) :: s.eng.late } }).inc (ENG_NTF_DISC.COUNT (e / 8) (e % 8))
  else giveNotice e ⟨2, 6, s.ih hc IH.ATTEMPTS, s.ih hc IH.COOKIE, h, lastAirOf s hc⟩ { s with eng := { s.eng with late := (e, hc) :: s.eng.late } }

/-- The cancels promised for an item are answered: too late, or done (R160, R286). -/
def answerCancels (hc : Nat) (late : Bool) (h : Nat) (s : State) : State :=
  let mine := s.lnk.cancels.filter (fun c => c.item == hc)
  let s1 := { s with lnk := { s.lnk with cancels := s.lnk.cancels.filter (fun c => c.item != hc) } }
  mine.foldl (fun u c =>
    let u1 := match c.ctx with
      | some x => u.complete x (if late then 6 else 0) 0 0 0 0
      | none => u
    match c.eng with
    | some e => if late then tooLateNotice e h hc u1 else u1
    | none => u1) s1

/-- A cancel waits for the close of an item's wait. -/
def cancelWaits (s : State) (hc : Nat) : Bool := s.lnk.cancels.any (fun c => c.item == hc)

/-- A frame that may match attempt a is still under way at its close: its SFD lies in the window (R140, R286). -/
def matchUnderWay (s : State) (a : Att) : Bool :=
  s.lanes.any (fun p => decide (a.wOpen ≤ p.2.sfdTs) && decide (p.2.sfdTs < a.close) && p.2.cand.grid == a.grid &&
    p.2.cand.chan == a.chan && (p.2.hdr.isNone || p.2.att == some a.id ||
      (match p.2.ans with | some (.accept _ _ _ _ t) => t == some a.id | _ => false))) ||
    s.que.rxs.any (fun r => r.att == some a.id && decide (r.stage < 3) && r.oow == some false)

/-- An attempt has failed: a cancel ends it, the retries end it, or a retry is placed (R159, R160, R186). The back-off exponent is the BE
that the command gave its item (R187; DEDUCED, log entry 80). -/
def attemptFailed (a : Att) (s0 : State) : State :=
  let s := ctxCheck a.node s0
  let x := s.ent a.ent
  match x.item with
  | none => releaseEnt a.ent s
  | some hc =>
    let h := a.node
    if x.gone then endHeld a.ent 3 s
    else if cancelWaits s hc then
      let t := endHeld a.ent 5 { s with lnk := { s.lnk with cancels := s.lnk.cancels.filter (fun c => c.item != hc) } }
      answerCancels hc false h { t with lnk := { t.lnk with cancels := t.lnk.cancels ++ s.lnk.cancels.filter (fun c => c.item == hc) } }
    else if triesOver s hc then (endHeld a.ent 3 s).inc (LNK_PCNT.COUNT a.part 3)
    else if (s.node h).life = 2 then squashEnt 4 s a.ent
    else
      let be := 2 ^ s.ih hc IH.BE
      let at_ := if s.nc h NC.CLASS = 1 ∨ s.nc h NC.CLASS = 2 then 0
        else a.close + s.freeVal be * s.rd (LNK_RATE_UNIT.UNIT x.rate)
      let s1 := s.freed
      placeRetry h a.ent { s1 with lnk := { s1.lnk with retryAt := sput s1.lnk.retryAt a.ent at_ } }

/-- The acknowledgement wait of the k-th attempt closes without a match (R159). -/
def ackWaitClose (k : Nat) (s0 : State) : State :=
  match s0.lnk.atts[k]? with
  | none => s0
  | some a =>
    let s := s0.at_ a.close
    if a.done ∨ a.closed ∨ matchUnderWay s a then s0
    else
      let atts := (s.lnk.atts.map (fun b => if b.id = a.id then { b with closed := true } else b)).filter
        (fun b => decide (s.atb < b.close + 32000))
      attemptFailed a { s with lnk := { s.lnk with atts := atts } }

/-- ACK_WAIT_CLOSE. -/
def execAckWaitClose (k : Nat) (s : State) : Host.Outcome State Fault Refusal := ranged (k < 1024) (ackWaitClose k s)

/-- The earliest deadline among node h's queued items. -/
def firstDeadline (s : State) (h : Nat) : Option Nat :=
  ((queueItems s h).filter (fun i => s.ih i IH.DEADLINE != 0)).foldl (fun (m : Option Nat) i =>
    match m with
    | some j => if s.ih i IH.DEADLINE < s.ih j IH.DEADLINE then some i else some j
    | none => some i) none

/-- A deadline of node h passes: a HELD entry that waits for its retry, else the queued item whose deadline comes first, ends
EXPIRED (R158, R160). -/
def deadlineExpiry (h : Nat) (s0 : State) : State :=
  match heldRetry s0 h with
  | some e =>
    match (s0.ent e).item with
    | some hc => if s0.ih hc IH.DEADLINE = 0 then s0 else
        let s := s0.at_ (s0.ih hc IH.DEADLINE)
        if s0.ih hc IH.DEADLINE ≤ s.atb then endHeld e 4 s else s0
    | none => s0
  | none =>
    let r := readHeaders h (queueItems s0 h) s0
    if !r.2 then r.1
    else match firstDeadline s0 h with
      | some hc =>
        let s := s0.at_ (s0.ih hc IH.DEADLINE)
        if s.ih hc IH.DEADLINE ≤ s.atb then endItem h hc 4 (unlinkItem h hc s) else s0
      | none => s0

/-- DEADLINE_EXPIRY. -/
def execDeadlineExpiry (h : Nat) (s : State) : Host.Outcome State Fault Refusal := ranged (h < 65536) (deadlineExpiry h s)

/-- The next airtime period begins: every USED is copied to AIR_LAST and reset (R206). -/
def airtimeBoundary (s0 : State) : State :=
  let p := s0.rd PRT_AIR_PERIOD.TICKS
  let s := s0.at_ (s0.atb + (p - s0.atb % p))
  (List.range 64).foldl (fun u q => (u.wr (PRT_PAIR.VALUE q 1) (u.rd (PRT_PAIR.VALUE q 0))).wr (PRT_PAIR.VALUE q 0) 0) s

/-- AIRTIME_PERIOD_BOUNDARY. -/
def execAirtimePeriodBoundary (s : State) : Host.Outcome State Fault Refusal := .next (airtimeBoundary s)

/-! ## TSCH (R168-R171) -/

/-- The enabled cells of a slotframe in slot asn, in index order, with their slotframe (R169). -/
def frameCells (s : State) (asn f : Nat) : List (Nat × Nat) :=
  if s.on (LNK_SF_CFG.EN f) && s.on (LNK_SF_CFG.LEN f) then
    ((List.range (s.rd (LNK_SF_CELLS.COUNT f))).map (fun k => (f, s.rd (LNK_SF_CELLS.BASE f) + k))).filter (fun p =>
      decide (p.2 < 8192) && s.on (LNK_CELL1.EN p.2) && s.rd (LNK_CELL0.SLOT_OFFSET p.2) == asn % s.rd (LNK_SF_CFG.LEN f))
  else []

/-- The cells that execute in slot asn: of cells that name one node the first wins (R170). -/
def slotCells (s : State) (asn : Nat) : List (Nat × Nat) :=
  ((List.range 8).flatMap (frameCells s asn)).foldl (fun acc p =>
    if acc.any (fun q => s.rd (LNK_CELL1.NODE q.2) == s.rd (LNK_CELL1.NODE p.2)) then acc else acc ++ [p]) []

/-- The grid and channel of a cell in slot asn (R169). -/
def cellChannel (s : State) (asn f c : Nat) : Nat × Nat :=
  let q := s.rd (LNK_SF_CFG.HOP f)
  let j := (asn + s.rd (LNK_CELL0.CH_OFFSET c)) % max 1 (s.rd (LNK_HOP_LEN.LEN q))
  (s.rd (LNK_HOP.GRID q j), s.rd (LNK_HOP.CHAN q j))

/-- A transmit cell: the node's waiting retry, else its head item (R159, R170, R171). -/
def cellTx (st : Nat) (g k c h : Nat) (s0 : State) : State :=
  let air := st + s0.rd LNK_TSCH_TX_OFS.TICKS
  let bc := s0.on (LNK_CELL1.BCAST c)
  match heldRetry s0 h with
  | some e =>
    let s := ctxCheck h s0
    let x := s.ent e
    match x.item with
    | some hc =>
      if !inTime s hc air then endHeld e 4 s
      else if !airOk s x.part x.charge then deferAir x.part s
      else rescheduleEnt e air g k s
    | none => s
  | none =>
    match headItem s0 h with
    | none => s0
    | some hc =>
      let r := readHeaders h [hc] (ctxCheck h s0)
      let s := r.1
      if !r.2 || !mayTake s h then s
      else
        let ch := if bc then s.rd (LNK_CELL1.CHAIN c) else s.nc h NC.CHAIN
        let x := entOf s h hc 0 air ch g k (!bc && s.ih hc IH.ACK_REQ == 1)
        placeItem h hc { x with tsch := true } s

/-- A receive cell opens its window (R139, R170). -/
def cellRx (st c h : Nat) (s : State) : State :=
  let w : RxWin := { node := if s.on (LNK_CELL1.SHARED c) then none else some h, part := s.rd (LNK_CELL1.PART c)
                     wOpen := st + s.rd LNK_TSCH_RX_OFS.TICKS, close := st + s.rd LNK_TSCH_RX_OFS.TICKS + s.rd LNK_TSCH_RX_WAIT.TICKS
                     expect := st + s.rd LNK_TSCH_TX_OFS.TICKS, slotLo := st, slotHi := st + s.rd LNK_TSCH_SLOT_LEN.TICKS }
  { s with lnk := { s.lnk with wins := s.lnk.wins ++ [w] } }

/-- One cell of a slot that starts at st. -/
def runCell (asn st : Nat) (s : State) (p : Nat × Nat) : State :=
  let c := p.2
  let h := s.rd (LNK_CELL1.NODE c)
  let gk := cellChannel s asn p.1 c
  if s.on (LNK_CELL1.TX c) && ((headItem s h).isSome || (heldRetry s h).isSome) then cellTx st gk.1 gk.2 c h s
  else if s.on (LNK_CELL1.RX c) then cellRx st c h s
  else s

/-- The link controller reads the cells of slot asn at the slot's start minus LEAD (R170). -/
def tschSlotRead (asn : Nat) (s0 : State) : State :=
  if s0.on LNK_TSCH_CTRL.EN ∧ s0.clk.tb ∧ s0.lnk.asnRead ≤ asn then
    let st := s0.rd64 LNK_TSCH_EPOCH_LO.reg + asn * s0.rd LNK_TSCH_SLOT_LEN.TICKS
    let s := s0.at_ (st - s0.rd LNK_TSCH_LEAD.TICKS)
    let s1 := { s with lnk := { s.lnk with asnRead := asn + 1, wins := s.lnk.wins.filter (fun w => decide (s.atb < w.slotHi + 8000000)) } }
    (slotCells s1 asn).foldl (runCell asn st) (startSeq 5 0 0 0 0 st 0 0 none none none s1)
  else s0

/-- TSCH_SLOT_READ. -/
def execTschSlotRead (asn : Nat) (s : State) : Host.Outcome State Fault Refusal := .next (tschSlotRead asn s)

/-- The timeslot template meets the conditions of R168. -/
def templateOk (s : State) : Bool :=
  decide (32000 ≤ s.rd LNK_TSCH_SLOT_LEN.TICKS) &&
    decide (s.rd LNK_TSCH_RX_OFS.TICKS + s.rd LNK_TSCH_RX_WAIT.TICKS ≤ s.rd LNK_TSCH_SLOT_LEN.TICKS) &&
    decide (6144 ≤ s.rd LNK_TSCH_TX_ACK_DLY.TICKS) && decide (s.rd LNK_TSCH_LEAD.TICKS < s.rd LNK_TSCH_SLOT_LEN.TICKS) &&
    decide (8192 ≤ s.rd LNK_TSCH_LEAD.TICKS + s.rd LNK_TSCH_TX_OFS.TICKS)

/-- A write of LNK_TSCH_CTRL.EN (R168). -/
def tschEnable (en : Bool) (s : State) : State :=
  if en then (if templateOk s then
      (if s.on LNK_TSCH_CTRL.EN then s else { s.wr LNK_TSCH_CTRL.EN 1 with lnk := { s.lnk with asnRead := 0 } }) else s)
  else s.wr LNK_TSCH_CTRL.EN 0

/-- TSCH_ENABLE_WRITE. -/
def execTschEnableWrite (f : Fn) (en : Bool) (s : State) : Host.Outcome State Fault Refusal :=
  .next (s.p0Only f LNK_TSCH_CTRL.reg (tschEnable en s))

/-- A live write of word w of cell c: a cell that names a node of another partition is refused, and the bark reports it (R170,
R175). -/
def cellWrite (tag kind c w : Nat) (v : Word) (s : State) : State :=
  if s.locked (LNK_CELL0.reg c) then s
  else if w = 0 then s.setReg (LNK_CELL0.reg c) v
  else if s.handleOwner (bf v 0 16) ≠ bf v 24 6 then s.bark tag kind 7 c
  else s.regWrite (LNK_CELL1.reg c) v

/-- TSCH_CELL_WRITE. -/
def execTschCellWrite (f : Fn) (c w : Nat) (v : Word) (s : State) : Host.Outcome State Fault Refusal :=
  ranged (c < 8192 && w < 2) (s.p0Only f (LNK_CELL0.reg c + 4 * w) (cellWrite (fnTag f) (fnKind f) c w v s))

/-! ## Comparators (R136, R137) -/

/-- Comparator k fires. -/
def fireCmp (k : Nat) (late : Bool) (s : State) : State :=
  let s1 := ((s.wr (LNK_CMP_CTRL.FIRED k) 1).wr (LNK_CMP_CTRL.ARMED k) 0).wr (LNK_CMP_CTRL.LATE k) (if late then 1 else 0)
  if s.on (LNK_CMP_CTRL.EVT_EN k) then s1.pulse (s.rd (LNK_CMP_CTRL.EVT_CH k)) else s1

/-- Comparator k is armed with a value: an old value that matches in this very tick fires first (R136, R137). -/
def armCmp (k v : Nat) (s0 : State) : State :=
  let s := if s0.on (LNK_CMP_CTRL.ARMED k) ∧ s0.rd64 (LNK_CMP_LO.reg k) = s0.atb then fireCmp k false s0 else s0
  let s1 := s.wr64 (LNK_CMP_LO.reg k) v
  if v ≤ s.atb then fireCmp k true s1 else (s1.wr (LNK_CMP_CTRL.ARMED k) 1).wr (LNK_CMP_CTRL.LATE k) 0

/-- The value a write of the high word forms with the held low word (R10). -/
def formed (s : State) (lo hi : Nat) : Nat := (sget (fun a => s.reg a) s.heldLo lo).toNat + 2 ^ 32 * (hi % 2 ^ 32)

/-- The write of the high word has taken effect: the low word at lo is held no longer (R10). -/
def State.dropHeld (lo : Nat) (s : State) : State := { s with heldLo := sdel s.heldLo lo }

/-- A write of LNK_CMPk_HI arms comparator k with the value it forms (R10, R136). -/
def cmpHigh (k hi : Nat) (s : State) : State := (armCmp k (formed s (LNK_CMP_LO.reg k) hi) s).dropHeld (LNK_CMP_LO.reg k)

/-- CMP_ARM_WRITE. -/
def execCmpArmWrite (f : Fn) (k hi : Nat) (s : State) : Host.Outcome State Fault Refusal :=
  ranged (k < 64) (s.p0Only f (LNK_CMP_HI.reg k) (cmpHigh k hi s))

/-- The ATB reaches an armed comparator's value. -/
def comparatorFire (k : Nat) (s : State) : State :=
  if s.on (LNK_CMP_CTRL.ARMED k) then
    let t := s.at_ (s.rd64 (LNK_CMP_LO.reg k))
    if s.rd64 (LNK_CMP_LO.reg k) ≤ t.atb then fireCmp k false t else s
  else s

/-- COMPARATOR_FIRE. -/
def execComparatorFire (k : Nat) (s : State) : Host.Outcome State Fault Refusal := ranged (k < 64) (comparatorFire k s)

/-- DISARM clears ARMED without firing. -/
def disarmCmp (k : Nat) (s : State) : State := s.wr (LNK_CMP_CTRL.ARMED k) 0

/-- DISARM. -/
def execDisarm (f : Fn) (k : Nat) (s : State) : Host.Outcome State Fault Refusal :=
  ranged (k < 64) (s.p0Only f (LNK_CMP_CTRL.reg k) (disarmCmp k s))

/-! ## PAN entries -/

/-- Two enabled entries share a PAN_ID on an overlapping GRIDS mask (R144). -/
def panClash (s : State) (i : Nat) : Bool :=
  s.on (LNK_PAN_CFG.EN i) && (List.range 64).any (fun j => j != i && s.on (LNK_PAN_CFG.EN j) &&
    s.rd (LNK_PAN_ID.PAN_ID i) == s.rd (LNK_PAN_ID.PAN_ID j) && Nat.land (s.rd (LNK_PAN_CFG.GRIDS i)) (s.rd (LNK_PAN_CFG.GRIDS j)) != 0)

/-- A write of word w of PAN entry i (R144). -/
def panWrite (i w : Nat) (v : Word) (s : State) : State :=
  let t := s.regWrite (LNK_PAN_ID.reg i + 4 * w) v
  if panClash t i then ((s.wr LNK_PAN_ERR.ENTRY i).wr LNK_PAN_ERR.SET 1).raise 4 5 else t

/-- PAN_ENTRY_WRITE. -/
def execPanEntryWrite (f : Fn) (k w : Nat) (v : Word) (s : State) : Host.Outcome State Fault Refusal :=
  ranged (k < 64 && w < 4) (s.p0Only f (LNK_PAN_ID.reg k + 4 * w) (panWrite k w v s))

/-! ## Sequencers (R173, R174) -/

/-- The instant a state waits for. -/
def seqInstant (i : SeqInst) (x : BitVec 64) : Nat :=
  (match SS.BASE.of x with
   | 0 => i.entry | 1 => i.sfdTs | 2 => i.fend | 3 => i.attAir | 4 => i.attEnd | 5 => i.slotStart | _ => i.sample) + SS.DELAY.of x

/-- The items that staging holds for a node. -/
def stagedItems (s : State) (n : Option Nat) : List Nat := (s.txc.ents.filter (fun p => p.2.node == n)).filterMap (·.2.item)

/-- COND of a state for an instance (R174). What has come about for its frame or attempt is kept in conds, at the number of the condition:
FCS good, acknowledgement requested, MIC verified, acknowledgement matched, frame committed, frame secured. -/
def seqCond (s : State) (i : SeqInst) (c : Nat) : Bool :=
  let items := match i.item with | some hc => [hc] | none => stagedItems s i.node
  match c with
  | 0 => true
  | 5 => (match i.node with | some h => (headItem s h).isSome | none => false)
  | 7 => items.any (fun hc => !triesOver s hc)
  | 8 => items.any (fun hc => inTime s hc s.atb)
  | 9 => (match i.node with | some h => s.nc h NC.CLASS == 2 | none => false)
  | 10 => (match i.node with | some h => s.nc h NC.CLASS == 1 | none => false)
  | c => i.conds.getLsbD c

/-- A node of a class that follow-up frames serve (R153). -/
def followed (s : State) (n : Option Nat) : Bool := match n with | some h => s.nc h NC.CLASS == 0 || s.nc h NC.CLASS == 2 | none => false

/-- The attempt of an instance has closed without a match, with attempts left: a retry may be placed (R159). -/
def retryDue (s : State) (i : SeqInst) : Bool :=
  s.lnk.atts.any (fun a => some a.id == i.att && a.closed && !a.done) && (match i.item with | some hc => !triesOver s hc | none => false)

/-- The rules of the chapter fix an instant for an action, or none (R174). An action agrees with them when the instance is of the object
that the rule speaks of and its state's instant is the rule's: an acknowledgement is built at frame end + 2,048 (R149), a wait opens at its
attempt's end (R139), a follow-up is placed at the build for a node of class A or D (R153), a pending-clear frame is staged when a follow-up
has left staging for a node that accepts it (R154), a retry is placed once the wait has closed (R159), a wake-up sequence at a class D
placement (R165), an outcome is given once the item stands in no queue or stage (R160), and the drift model moves at the commit (R163). -/
def seqAgrees (s : State) (i : SeqInst) (x : BitVec 64) : Bool :=
  let t := seqInstant i x
  match SS.ACTION.of x with
  | 0 => true
  | 1 => i.prog == 0 && t == i.fend + 2048
  | 2 => i.prog == 1 && t == i.fend + 2048
  | 3 => i.att.isSome && t == i.attEnd
  | 4 => (i.prog == 0 || i.prog == 1) && t == i.fend + 2048 && followed s i.node
  | 5 => i.prog == 3 && followed s i.node && (match i.node with | some h => s.nc h NC.PCLR_OK == 1 | none => false)
  | 6 => retryDue s i
  | 7 => i.prog == 4 && (match i.node with | some h => s.nc h NC.CLASS == 2 | none => false)
  | 8 => (match i.item with | some hc => !(stagedItems s i.node).contains hc | none => false)
  | 9 => i.conds.getLsbD 6
  | _ => true

/-- An action of a state. The pulse of an event channel is the sequencer's own; a build, a wait, a placement, an outcome or an update takes
place by the commands of its rule at the rule's instant, whatever the table says, and an action that disagrees is a conflict, counted and
raised (R174; DEDUCED, log entry 82). -/
def seqAction (i : SeqInst) (x : BitVec 64) (s : State) : State :=
  if SS.ACTION.of x = 10 then s.pulse (SS.ARG.of x)
  else if seqAgrees s i x then s else (s.inc LNK_CNT_SEQ_CLAMP.COUNT).raise 4 4

/-- A condition has come about for the instances that a test selects (R174). -/
def seqMark (c : Nat) (mine : SeqInst → Bool) (s : State) : State :=
  { s with lnk := { s.lnk with seqs := s.lnk.seqs.map (fun i => if mine i then { i with conds := i.conds ||| (1#16 <<< c) } else i) } }

/-- The instances with the k-th replaced, or removed. -/
def setSeq (k : Nat) (i : Option SeqInst) (s : State) : State :=
  { s with lnk := { s.lnk with seqs := match i with | some v => s.lnk.seqs.set k v | none => s.lnk.seqs.eraseIdx k } }

/-- The k-th instance's present state comes due. -/
def sequencerState (k : Nat) (s0 : State) : State :=
  match s0.lnk.seqs[k]? with
  | none => s0
  | some i =>
    if !s0.on LNK_CTRL.EN then s0
    else
      let x := seqState s0 i.prog i.st
      let s := s0.at_ (seqInstant i x)
      if seqCond s i (SS.COND.of x) then
        let t := seqAction i x s
        if SS.END.of x = 1 then setSeq k none t else setSeq k (some { i with st := SS.NEXT.of x, entry := s.atb }) t
      else if SS.TIMEOUT_EN.of x = 1 then setSeq k (some { i with st := SS.ALT.of x, entry := s.atb }) s
      else s

/-- SEQUENCER_STATE. -/
def execSequencerState (k : Nat) (s : State) : Host.Outcome State Fault Refusal := .next (sequencerState k s)

/-- The k-th instance has run 8,000,000 ticks: it ends and is counted (R173). -/
def sequencerClamp (k : Nat) (s : State) : State :=
  match s.lnk.seqs[k]? with
  | some i => (setSeq k none (s.at_ (i.began + 8000000))).inc LNK_CNT_SEQ_CLAMP.COUNT
  | none => s

/-- SEQUENCER_CLAMP. -/
def execSequencerClamp (k : Nat) (s : State) : Host.Outcome State Fault Refusal := .next (sequencerClamp k s)

/-! ## Counter clears -/

/-- LNK_CNT_CLR.BLOCK. -/
def execLnkCntClrBlock (f : Fn) (s : State) : Host.Outcome State Fault Refusal :=
  .next (s.p0Only f LNK_CNT_CLR.reg (s.zero [LNK_CNT_ACK.COUNT, LNK_CNT_ACK_NOCRED.COUNT, LNK_CNT_ENHACK_LATE.COUNT, LNK_CNT_DUP.COUNT,
    LNK_CNT_OOW.COUNT, LNK_CNT_ACK_MATCH.COUNT, LNK_CNT_PCLR.COUNT, LNK_CNT_PCLR_LATE.COUNT, LNK_CNT_DRIFT_UPD.COUNT,
    LNK_CNT_DRIFT_UNRES.COUNT, LNK_CNT_SEQ_CLAMP.COUNT]))

/-- LNK_CNT_CLR.PART. -/
def execLnkCntClrPart (f : Fn) (s : State) : Host.Outcome State Fault Refusal :=
  .next (s.p0Only f LNK_CNT_CLR.reg (s.zero ((List.range 64).flatMap (fun p => (List.range 4).map (LNK_PCNT.COUNT p)))))

end Sys2Proof.Machine
end

