-- ==== Sys2Proof/Machine/Clocks.lean ====
section
/-! DEFINITION. The synthesiser and the aligner, grove pulses, clock outputs, the ATB bridge, the RTC and the general timers
(R378-R402). -/

namespace Sys2Proof.Machine

/-- The clocks' record replaced. -/
def State.setClk (s : State) (x : Clk) : State := { s with clk := x }

/-! ## Synthesiser (R379-R381) -/

/-- EN is set: acquisition starts (R379). -/
def synEnable (s : State) : State :=
  if s.on CLK_SYN_CTRL.EN then s else (s.wr CLK_SYN_CTRL.EN 1).setClk { s.clk with acq := true }

/-- SYN_ENABLE: a write that sets CLK_SYN_CTRL.EN, which is RWL. -/
def execSynEnable (f : Fn) (s : State) : Host.Outcome State Fault Refusal :=
  .next (s.p0Only f CLK_SYN_CTRL.reg (if s.on CLK_CTRL.LOCK then s else synEnable s))

/-- The stored band is usable: valid, no full search asked, and the die within 25 °C of its temperature (R379). -/
def bandUsable (s : State) : Bool :=
  let d := sgn 16 (s.rd PWR_TEMP_STS.TEMP) - sgn 16 (s.rd CLK_BAND_STORE.TEMP)
  s.on CLK_BAND_STORE.VALID && !s.on CLK_SYN_CTRL.FULL_SEARCH && decide (-400 ≤ d) && decide (d ≤ 400)

/-- The synthesiser locks on a band after us µs: the band and the die temperature are stored; with SRC NONE the dividers are
released at once (R379, R382). -/
def synLock (band us : Nat) (s : State) : State :=
  let stored := bandUsable s && s.rd CLK_BAND_STORE.BAND == band % 64 && decide (us ≤ 300)
  let s1 := ((s.wr CLK_SYN_STS.BAND band).wr CLK_SYN_STS.STORED (if stored then 1 else 0)).wr CLK_SYN_STS.LOCK_US (min us 65535)
  let s2 := ((s1.wr CLK_BAND_STORE.BAND band).wr CLK_BAND_STORE.TEMP (s.rd PWR_TEMP_STS.TEMP)).wr CLK_BAND_STORE.VALID 1
  let none_ := s.rd CLK_ALN_CFG.SRC == 2
  ((s2.wr CLK_STS.SYN_LOCK 1).setClk { s2.clk with acq := false, released := none_ }).raise 10 0

/-- SYN_LOCK. -/
def execSynLock (band us : Nat) (s : State) : Host.Outcome State Fault Refusal :=
  ranged (band < 64) (if s.clk.acq then synLock band us s else s)

/-- REF_LOSS: the synthesiser enters free-run; no clock stops (R380). -/
def execRefLoss (s : State) : Host.Outcome State Fault Refusal :=
  .next (if s.on CLK_STS.SYN_LOCK ∧ !s.on CLK_STS.FREE_RUN then (s.wr CLK_STS.FREE_RUN 1).raise 10 2 else s)

/-- REF_BACK: FS is pulled back to lock (R380). -/
def execRefBack (s : State) : Host.Outcome State Fault Refusal :=
  .next (if s.on CLK_STS.FREE_RUN then (s.wr CLK_STS.FREE_RUN 0).raise 10 3 else s)

/-! ## Aligner (R382-R385) -/

/-- ALIGNER_RELEASE: at the release edge the dividers restart, SYNC_DLY FS periods after it (R382). -/
def execAlignerRelease (s : State) : Host.Outcome State Fault Refusal :=
  .next (if s.on CLK_STS.SYN_LOCK ∧ !s.clk.released then
    s.setClk { s.clk with released := true, phase := s.rd CLK_ALN_CFG.SYNC_DLY } else s)

/-- SYNC_MISSING: no SYNCIN edge within 40 ms of lock; the first REFIN edge will release the dividers (R382). -/
def execSyncMissing (s : State) : Host.Outcome State Fault Refusal :=
  .next (if s.on CLK_STS.SYN_LOCK ∧ !s.clk.released ∧ s.rd CLK_ALN_CFG.SRC = 1 ∧ !s.on CLK_STS.SYNC_MISSING then
    (s.wr CLK_STS.SYNC_MISSING 1).raise 10 6 else s)

/-- ALN_LOCK: aligner lock is declared by count; the clocks switch to FS, WS becomes 3, and the ATB starts from zero unless a bridge
is owed (R18, R19, R345, R382, R388). -/
def execAlnLock (s : State) : Host.Outcome State Fault Refusal :=
  .next (if s.clk.released ∧ !s.on CLK_STS.ALN_LOCK then
    let t := ((s.wr CLK_STS.ALN_LOCK 1).wr FLC_CFG.WS 3).setClk { s.clk with tb := true, pulses := 0, expect := none, syncout := 0 }
    t.raise 10 4 else s)

/-- The instant of an ATB tick and a phase, in FS periods (R384). -/
def fsInstant (t ph : Nat) : Nat := 192 * t + ph

/-- A capture of a grove pulse (R384). -/
def syncCapture (t ph : Nat) (s : State) : State :=
  ((s.wr64 CLK_SYNC_CAP_LO.reg t).wr CLK_SYNC_CAP_PH.PHASE ph).bump CLK_SYNC_CNT.COUNT

/-- A slip: the flag, the event, the count; the expected instant restarts from the next capture (R384). -/
def syncSlip (s : State) : State :=
  let t := (s.wr CLK_STS.SLIP 1).inc CLK_CNT_SLIP.COUNT
  (t.setClk { t.clk with pulses := 0, expect := none }).raise 10 5

/-- The family's phase moves towards zero error, one FS period per 1,024 ticks until the next pulse (R384). -/
def trackPhase (s : State) (err : Int) : Nat :=
  let n : Int := min err.natAbs (s.rd CLK_SYNC_PERIOD.TICKS / 1024)
  ((s.clk.phase + (if err < 0 then -n else n)) % 192).toNat

/-- A measured SYNCIN edge at tick t and FS phase ph (R384). The first edge is compared with nothing and has not fallen within TOL (R385). -/
def syncEdge (t ph : Nat) (s0 : State) : State :=
  let s := syncCapture t ph s0
  let x := fsInstant t ph
  let next := some (x + 192 * s.rd CLK_SYNC_PERIOD.TICKS)
  match s.clk.expect with
  | none => s.setClk { s.clk with expect := next }
  | some e =>
    let err : Int := (x : Int) - e
    let s1 := s.wr CLK_ALN_STS.ERR (unsgn 9 (clampInt (-255) 255 err))
    if s.rd CLK_SYNC_TOL.TOL < err.natAbs then syncSlip s1
    else
      s1.setClk { s1.clk with
        expect := next, pulses := s.clk.pulses + 1, phase := if s.on CLK_ALN_CFG.TRACK then trackPhase s err else s.clk.phase }

/-- SYNCIN_EDGE: a SYNCIN edge at phase ph of tick t. With SRC SYNCIN and the aligner locked it is measured, unless a master's
pulses are; in REPEAT it is sent on at the next CLK_TB edge (R384, R386). -/
def execSyncinEdge (t ph : Nat) (s0 : State) : Host.Outcome State Fault Refusal :=
  let s := s0.at_ t
  let s1 := if s.rd CLK_SYNCOUT_CFG.MODE = 2 ∧ s.clk.tb then s.post (.syncout (s.atb + 1)) else s
  ranged (ph < 192)
    (if s.on CLK_STS.ALN_LOCK ∧ s.rd CLK_ALN_CFG.SRC = 1 ∧ s.rd CLK_SYNCOUT_CFG.MODE ≠ 1 then syncEdge s.atb ph s1 else s1)

/-- SYNC_SLIP: no SYNCIN edge by the expected instant plus TOL (R384). -/
def execSyncSlip (s : State) : Host.Outcome State Fault Refusal :=
  match s.clk.expect with
  | some e =>
    .next (if s.on CLK_STS.ALN_LOCK ∧ s.rd CLK_ALN_CFG.SRC = 1 then
      syncSlip (s.at_ ((e + s.rd CLK_SYNC_TOL.TOL) / 192 + 1)) else s)
  | none => .next s

/-- The trunk is grove-aligned, as follower or as master (R385). -/
def groveAligned (s : State) : Bool :=
  s.on CLK_STS.ALN_LOCK && !s.on CLK_STS.FREE_RUN &&
    ((s.rd CLK_ALN_CFG.SRC == 1 && !s.on CLK_STS.SYNC_MISSING && !s.on CLK_STS.SLIP && decide (16 ≤ s.clk.pulses)) ||
     (s.rd CLK_ALN_CFG.SRC == 0 && s.rd CLK_SYNCOUT_CFG.MODE == 1 && decide (16 ≤ s.clk.syncout)))

/-! ## Outputs (R386, R387) -/

/-- The first tick from t on at which a GENERATE pulse begins: t mod PERIOD = OFS (R386). -/
def syncoutNext (s : State) (t : Nat) : Nat :=
  let p := s.rd CLK_SYNCOUT_PERIOD.TICKS
  t + (s.rd CLK_SYNCOUT_OFS.TICKS + p - t % p) % p

/-- SYNCOUT_PULSE: the next GENERATE pulse begins and is captured (R384, R386). -/
def execSyncoutPulse (s0 : State) : Host.Outcome State Fault Refusal :=
  if s0.rd CLK_SYNCOUT_CFG.MODE = 1 ∧ s0.atbRuns ∧ s0.rd CLK_SYNCOUT_OFS.TICKS < s0.rd CLK_SYNCOUT_PERIOD.TICKS then
    let t := syncoutNext s0 (match s0.clk.lastOut with | some l => max s0.atb (l + 1) | none => s0.atb)
    let s := syncCapture t (s0.rd CLK_SYNCOUT_CFG.DLY) (s0.at_ t)
    .next ((s.setClk { s.clk with syncout := s.clk.syncout + 1, lastOut := some t }).post (.syncout t))
  else .next s0

/-- The EN field of a clock output (R387). -/
def clkoutEn (n : Nat) : RegFld := if n < 2 then CLK_OUT_CFG.EN n else CLK_OUTX_CFG.EN (n - 2)

/-- CLKOUT_ENABLE: the output starts or stops at a clean phase (R387). -/
def execClkoutEnable (f : Fn) (n : Nat) (en : Bool) (s : State) : Host.Outcome State Fault Refusal :=
  ranged (n < 4) (s.p0Only f (0x10080 + 16 * n) (s.wr (clkoutEn n) (if en then 1 else 0)))

/-! ## The ATB bridge (R388, R389) -/

/-- CLK_TB stops: the ATB holds its value and a bridge is owed (R388). -/
def stopTb (s : State) : State :=
  s.setClk { s.clk with
    tb := false, released := false
    stopA := if s.clk.tb ∧ s.clk.stopA = none then some s.atb else s.clk.stopA
    stopK := if s.clk.tb ∧ s.clk.stopA = none then none else s.clk.stopK
    xkLost := if s.clk.tb ∧ s.clk.stopA = none then !s.clk.xkOk else s.clk.xkLost || !s.clk.xkOk }

/-- Ticks to the next XK rising edge (R17). -/
def toXkEdge (s : State) : Nat := ceilDiv (15625 - s.clk.xkPhase) 16

/-- The ticks a gap of k XK periods stands for, to the nearest tick (R388). -/
def bridgeTicks (k : Nat) : Nat := (2 * 15625 * k + 16) / 32

/-- Every armed comparator the step passed fires late, and slots it skipped are not executed (R389). -/
def afterBridge (s : State) : State :=
  let t := (List.range 64).foldl (fun u k =>
    if u.on (LNK_CMP_CTRL.ARMED k) && decide (u.rd64 (LNK_CMP_LO.reg k) ≤ u.atb) then fireCmp k true u else u) s
  let e := t.rd64 LNK_TSCH_EPOCH_LO.reg
  let l := t.rd LNK_TSCH_SLOT_LEN.TICKS
  if t.on LNK_TSCH_CTRL.EN ∧ e ≤ t.atb ∧ 0 < l then
    { t with lnk := { t.lnk with asnRead := max t.lnk.asnRead ((t.atb - e) / l + 1) } }
  else t

/-- The bridge loads the ATB (R388). -/
def loadBridge (a ticks unc : Nat) (lost : Bool) (s : State) : State :=
  let t := { s with atb := a + ticks, clk := { s.clk with stopA := none, stopK := none, xkLost := false } }
  let u := ((t.wr CLK_ATB_STS.BRIDGED 1).wr64 CLK_ATB_BRIDGE_LO.reg ticks).wr CLK_ATB_UNC.TICKS unc
  afterBridge ((if lost then u.wr CLK_ATB_STS.UNTRUSTED 1 else u).raise 10 7)

/-- ATB_BRIDGE: after the aligner locks again the ATB loads the bridged value, or A + 1 where XK did not measure the gap (R388). -/
def execAtbBridge (s0 : State) : Host.Outcome State Fault Refusal :=
  match s0.clk.stopA with
  | none => .next s0
  | some a =>
    if !s0.on CLK_STS.ALN_LOCK then .next s0
    else match s0.clk.stopK with
      | some k =>
        if s0.clk.xkLost then .next (loadBridge a 1 0xFFFFFFFF true s0)
        else
          let s := s0.elapse (toXkEdge s0)
          let n := bridgeTicks (s.clk.xk - k)
          .next (loadBridge a n (min 0xFFFFFFFF (ceilDiv (n * s.rd CLK_XK_CFG.PPM) 1000000 + 1)) false s)
      | none => .next (loadBridge a 1 0xFFFFFFFF true s0)

/-! ## Real-time clock (R390-R394) -/

/-- The RTC's record replaced. -/
def State.setRtc (s : State) (x : Rtc) : State := { s with rtc := x }

/-- The seconds count. -/
def rtcSeconds (s : State) : Nat := s.rd RTC_SEC_LO.SEC + 2 ^ 32 * s.rd RTC_SEC_HI.SEC

/-- The seconds count replaced. -/
def setSeconds (v : Nat) (s : State) : State := (s.wr RTC_SEC_LO.SEC v).wr RTC_SEC_HI.SEC (v / 2 ^ 32)

/-- Time runs until x XK edges have come. -/
def elapseXk (x : Nat) (s : State) : State := s.elapse (ceilDiv (15625 * x - s.clk.xkPhase) 16)

/-- RTC_SECOND: at the wrap of RTC_SUBSEC the seconds count increments and the second event pulses (R390). -/
def execRtcSecond (s0 : State) : Host.Outcome State Fault Refusal :=
  if s0.on RTC_CTRL.HALT ∨ !s0.clk.xkOk then .next s0
  else
    let s := if s0.rtc.extra = 0 then elapseXk (32768 + s0.rtc.skip - s0.rd RTC_SUBSEC.COUNT) s0 else s0
    if s.rtc.extra = 0 then .next s
    else
      let v := min 32767 (s.rtc.extra - 1)
      let t := (setSeconds ((rtcSeconds s + 1) % 2 ^ 48) (s.wr RTC_SUBSEC.COUNT v)).setRtc { s.rtc with extra := s.rtc.extra - 1 - v }
      .next (if t.on RTC_SEC_EVT.EN then t.pulse (t.rd RTC_SEC_EVT.CH) else t)

/-- XK_FAIL: no XK edge for 1 ms; the RTC stops, time is untrusted, and a gap under way is unmeasured (R388, R390, R393). -/
def execXkFail (s : State) : Host.Outcome State Fault Refusal :=
  .next (((s.wr RTC_STS.XK_FAIL 1).wr RTC_STS.UNTRUSTED 1).setClk
    { s.clk with xkOk := false, xkLost := s.clk.stopA.isSome || s.clk.xkLost })

/-- XK_EDGES_RETURN (R390). -/
def execXkEdgesReturn (s : State) : Host.Outcome State Fault Refusal :=
  .next ((s.wr RTC_STS.XK_FAIL 0).setClk { s.clk with xkOk := true })

/-- The freeze ends: a read of RTC_SEC_HI or a write of any RTC register (R391). -/
def rtcThaw (s : State) : State := s.wr RTC_STS.FROZEN 0

/-- A read of time register r (0 RTC_SUBSEC, 1 RTC_SEC_LO, 2 RTC_SEC_HI): the first freezes all three, and a read of RTC_SEC_HI
releases them (R391). -/
def rtcRead (r : Nat) (s : State) : Word × State :=
  let t := if s.on RTC_STS.FROZEN then s
    else (s.wr RTC_STS.FROZEN 1).setRtc { s.rtc with
      shadow := (s.rd RTC_SUBSEC.COUNT, s.rd RTC_SEC_LO.SEC, s.rd RTC_SEC_HI.SEC), frozenAt := s.now }
  let sh := t.rtc.shadow
  (BitVec.ofNat 32 (match r with | 0 => sh.1 | 1 => sh.2.1 | _ => sh.2.2), if r = 2 then rtcThaw t else t)

/-- RTC_FREEZE: a read of a time register. -/
def execRtcFreeze (f : Fn) (r : Nat) (s : State) : Host.Outcome State Fault Refusal :=
  let x := rtcRead r s
  ranged (r < 3) (s.p0Only f (RTC_SUBSEC.reg + 4 * r) (x.2.post (.readData x.1)))

/-- FREEZE_TIMEOUT: a freeze held for 2 s ends and sets STALE (R391). -/
def execFreezeTimeout (s : State) : Host.Outcome State Fault Refusal :=
  .next (if s.on RTC_STS.FROZEN then
    (rtcThaw (s.elapse (s.rtc.frozenAt + 64000000 - s.now))).wr RTC_STS.STALE 1 else s)

/-- RTC_HALT_WRITE: HALT stops or resumes counting (R392). -/
def execRtcHaltWrite (f : Fn) (h : Bool) (s : State) : Host.Outcome State Fault Refusal :=
  .next (s.p0Only f RTC_CTRL.reg ((rtcThaw s).wr RTC_CTRL.HALT (if h then 1 else 0)))

/-- A seconds write loads the count, clears RTC_SUBSEC, and clears UNTRUSTED unless LOW or XK_FAIL is set (R392, R393). -/
def secondsWrite (hi : Nat) (s0 : State) : State :=
  let s := rtcThaw s0
  let t := (setSeconds (formed s RTC_SEC_LO.reg hi % 2 ^ 48) ((s.wr RTC_SUBSEC.COUNT 0).dropHeld RTC_SEC_LO.reg)).setRtc { s.rtc with extra := 0 }
  if t.on PWR_VBAK.LOW ∨ t.on RTC_STS.XK_FAIL then t else t.wr RTC_STS.UNTRUSTED 0

/-- SECONDS_WRITE: the write of RTC_SEC_HI (R392). -/
def execSecondsWrite (f : Fn) (hi : Nat) (s : State) : Host.Outcome State Fault Refusal :=
  .next (s.p0Only f RTC_SEC_HI.reg (secondsWrite hi s))

/-- The alarm fires (R394): it is a wake source where PWR_WAKE_EN enables it (R366). -/
def alarmFire (late : Bool) (s : State) : State :=
  let t := ((s.wr RTC_ALARM_CTRL.FIRED 1).wr RTC_ALARM_CTRL.ARMED 0).wr RTC_ALARM_CTRL.LATE (if late then 1 else 0)
  let u := if t.on RTC_ALARM_CTRL.EVT_EN then t.pulse (t.rd RTC_ALARM_CTRL.EVT_CH) else t
  if u.on PWR_WAKE_EN.RTC then wakeFire 2 u else u

/-- A write of RTC_ALARM_HI arms the alarm; a value not ahead fires at once (R394). -/
def alarmArm (hi : Nat) (s0 : State) : State :=
  let s := rtcThaw s0
  let v := formed s RTC_ALARM_LO.reg hi % 2 ^ 48
  let t := ((s.wr RTC_ALARM_LO.SEC v).wr RTC_ALARM_HI.SEC (v / 2 ^ 32)).dropHeld RTC_ALARM_LO.reg
  if v ≤ rtcSeconds t then alarmFire true t else (t.wr RTC_ALARM_CTRL.ARMED 1).wr RTC_ALARM_CTRL.LATE 0

/-- RTC_ALARM_ARM. -/
def execRtcAlarmArm (f : Fn) (hi : Nat) (s : State) : Host.Outcome State Fault Refusal :=
  .next (s.p0Only f RTC_ALARM_HI.reg (alarmArm hi s))

/-- RTC_ALARM_FIRE: the second boundary at which the count equals the alarm (R394). -/
def execRtcAlarmFire (s : State) : Host.Outcome State Fault Refusal :=
  .next (if s.on RTC_ALARM_CTRL.ARMED ∧ s.rd RTC_ALARM_LO.SEC + 2 ^ 32 * s.rd RTC_ALARM_HI.SEC ≤ rtcSeconds s then alarmFire false s
    else s)

/-- RTC_DISARM (R394). -/
def execRtcDisarm (f : Fn) (s : State) : Host.Outcome State Fault Refusal :=
  .next (s.p0Only f RTC_ALARM_CTRL.reg ((rtcThaw s).wr RTC_ALARM_CTRL.ARMED 0))

/-! ## General timers (R395-R399) -/

/-- A timer's record. -/
def State.tmr (s : State) (k : Nat) : Tmr := sget (fun _ => ({} : Tmr)) s.tims k

/-- A timer's record replaced. -/
def setTmr (k : Nat) (x : Tmr) (s : State) : State := { s with tims := sset (fun _ => {}) s.tims k x }

/-- The CMPx value of a timer in force (R396). -/
def timCmp (s : State) (k x : Nat) : Nat :=
  if x = 0 then (s.tmr k).cmp0.getD (s.rd (TIM_CMP0.CMP k)) else (s.tmr k).cmp1.getD (s.rd (TIM_CMP1.CMP k))

/-- A timer's source delivers edges: CLK_TB and XK only while they run (R395). -/
def timSource (s : State) (k : Nat) : Bool :=
  match s.rd (TIM_CFG.SRC k) with
  | 0 => true
  | 1 => s.clk.tb
  | _ => s.clk.xkOk

/-- Ticks until a timer has counted n more. -/
def timTicks (s : State) (k n : Nat) : Nat :=
  let e := n * 2 ^ s.rd (TIM_CFG.PRE k) - (s.tmr k).res
  match s.rd (TIM_CFG.SRC k) with
  | 0 => ceilDiv e s.perCycles
  | 1 => e
  | _ => ceilDiv (15625 * e - s.clk.xkPhase) 16

/-- Flag CMPx of a timer sets and pulses its channel (R397). -/
def timCmpFlag (k x : Nat) (s : State) : State :=
  if x = 0 then
    let t := s.wr (TIM_STATUS.CMP0 k) 1
    if t.on (TIM_EVT.CMP0_EN k) then t.pulse (t.rd (TIM_EVT.CMP0_CH k)) else t
  else
    let t := s.wr (TIM_STATUS.CMP1 k) 1
    if t.on (TIM_EVT.CMP1_EN k) then t.pulse (t.rd (TIM_EVT.CMP1_CH k)) else t

/-- A timer wraps to 0: preloads apply, ONESHOT stops it, the WRAP flag and the compares of 0 set and pulse (R395-R397). -/
def timWrap (k : Nat) (s : State) : State :=
  let x := s.tmr k
  let one := s.on (TIM_CTRL.ONESHOT k)
  let rest := if one then 0 else x.extra - 1
  let t := (setTmr k { res := x.res } s).wr (TIM_STATUS.PEND k) 0
  let c := min rest (t.rd (TIM_TOP.TOP k))
  let u := setTmr k { res := x.res, extra := rest - c } ((t.wr (TIM_CNT.COUNT k) c).wr (TIM_STATUS.WRAP k) 1)
  let v := if one then u.wr (TIM_CTRL.EN k) 0 else u
  let w := if v.on (TIM_EVT.WRAP_EN k) then v.pulse (v.rd (TIM_EVT.WRAP_CH k)) else v
  [0, 1].foldl (fun y c => if timCmp y k c = 0 then timCmpFlag k c y else y) w

/-- TIMER_WRAP: the running timer passes TOP (R395). -/
def execTimerWrap (k : Nat) (s : State) : Host.Outcome State Fault Refusal :=
  let t := if (s.tmr k).extra = 0 ∧ timSource s k then s.elapse (timTicks s k (timTop s k + 1 - s.rd (TIM_CNT.COUNT k))) else s
  ranged (k < 32) (if s.on (TIM_CTRL.EN k) ∧ 0 < (t.tmr k).extra then timWrap k t else s)

/-- TIMER_COMPARE: the running counter takes the value of CMPx; one above TOP never matches (R397). -/
def execTimerCompare (k x : Nat) (s : State) : Host.Outcome State Fault Refusal :=
  let c := timCmp s k x
  let t := if s.rd (TIM_CNT.COUNT k) < c ∧ timSource s k then s.elapse (timTicks s k (c - s.rd (TIM_CNT.COUNT k))) else s
  ranged (k < 32 && x < 2)
    (if s.on (TIM_CTRL.EN k) ∧ c ≤ timTop s k ∧ c ≤ t.rd (TIM_CNT.COUNT k) then timCmpFlag k x t else s)

/-- A write of TOP (0), CMP0 (1) or CMP1 (2): while EN is set it goes to a preload and PEND sets (R396). -/
def preloadWrite (k r : Nat) (v : Word) (s : State) : State :=
  let f := match r with | 0 => TIM_TOP.TOP k | 1 => TIM_CMP0.CMP k | _ => TIM_CMP1.CMP k
  let t := s.wr f v.toNat
  if s.on (TIM_CTRL.EN k) then
    let x := s.tmr k
    setTmr k (match r with
      | 0 => { x with top := some (timTop s k) }
      | 1 => { x with cmp0 := some (timCmp s k 0) }
      | _ => { x with cmp1 := some (timCmp s k 1) }) (t.wr (TIM_STATUS.PEND k) 1)
  else t

/-- PRELOAD_WRITE. -/
def execPreloadWrite (f : Fn) (k r : Nat) (v : Word) (s : State) : Host.Outcome State Fault Refusal :=
  ranged (k < 32 && r < 3) (s.p0Only f (TIM_TOP.reg k + 4 * r) (preloadWrite k r v s))

/-- CLR: TIM_Tt_CTRL.CLR sets the counter to 0 (R402). -/
def execClr (f : Fn) (k : Nat) (s : State) : Host.Outcome State Fault Refusal :=
  ranged (k < 32) (s.p0Only f (TIM_CTRL.reg k) (setTmr k { s.tmr k with extra := 0 } (s.wr (TIM_CNT.COUNT k) 0)))

/-- EN of the timers whose bit is set takes a value, in one cycle (R399). -/
def timEnable (v : Word) (en : Nat) (s : State) : State := (bitsOf v.toNat 32).foldl (fun t k => t.wr (TIM_CTRL.EN k) en) s

/-- TIM_START. -/
def execTimStart (f : Fn) (v : Word) (s : State) : Host.Outcome State Fault Refusal := .next (s.p0Only f TIM_START.reg (timEnable v 1 s))

/-- TIM_STOP. -/
def execTimStop (f : Fn) (v : Word) (s : State) : Host.Outcome State Fault Refusal := .next (s.p0Only f TIM_STOP.reg (timEnable v 0 s))

/-- The RUN bits of TIM_STS (R402). -/
def timRun (s : State) : Word := BitVec.ofNat 32 ((runningTimers s).foldl bitSet 0)

end Sys2Proof.Machine
end

