-- ==== Sys2Proof/Decode.lean ====
section
/-! DEFINITION. What the operation table's words spell: nothing, since it gives no row any bits; and the 32-bit words of the Fekor cores'
instructions (R217, R218), which the rows of the instruction families stand for. -/

namespace Sys2Proof

/-- The command that a word of the operation table's bits spells: the table gives no row any bits, so none. -/
def decodeTableWord (_nbits _w : Nat) : Option Instr := none

/-! ## Instruction formats (R217) -/

/-- An R-format word. -/
def rWord (op rd ra rb fn : Nat) : Nat := op * 2 ^ 26 + rd * 2 ^ 21 + ra * 2 ^ 16 + rb * 2 ^ 11 + fn
/-- An I-format word; in B format the two register places hold ra and rb. -/
def iWord (op rd ra imm : Nat) : Nat := op * 2 ^ 26 + rd * 2 ^ 21 + ra * 2 ^ 16 + imm
/-- A J-format word. -/
def jWord (op off : Nat) : Nat := op * 2 ^ 26 + off
/-- The word of LOOPI, whose count lies in bits [25:16]. -/
def lWord (cnt off : Nat) : Nat := 0x2D * 2 ^ 26 + cnt * 2 ^ 16 + off

/-- The word of an instruction row, none for the rows that are no instruction (R218). -/
def insWord : Instr → Option Nat
  | .add _ rd ra rb => some (rWord 0x00 rd ra rb 0x000)
  | .sub _ rd ra rb => some (rWord 0x00 rd ra rb 0x001)
  | .andr _ rd ra rb => some (rWord 0x00 rd ra rb 0x002)
  | .orr _ rd ra rb => some (rWord 0x00 rd ra rb 0x003)
  | .xorr _ rd ra rb => some (rWord 0x00 rd ra rb 0x004)
  | .sll _ rd ra rb => some (rWord 0x00 rd ra rb 0x005)
  | .srl _ rd ra rb => some (rWord 0x00 rd ra rb 0x006)
  | .sra _ rd ra rb => some (rWord 0x00 rd ra rb 0x007)
  | .slt _ rd ra rb => some (rWord 0x00 rd ra rb 0x008)
  | .sltu _ rd ra rb => some (rWord 0x00 rd ra rb 0x009)
  | .min _ rd ra rb => some (rWord 0x00 rd ra rb 0x00A)
  | .max _ rd ra rb => some (rWord 0x00 rd ra rb 0x00B)
  | .mul _ rd ra rb => some (rWord 0x00 rd ra rb 0x00C)
  | .mulhu _ rd ra rb => some (rWord 0x00 rd ra rb 0x00D)
  | .mulh _ rd ra rb => some (rWord 0x00 rd ra rb 0x00E)
  | .divu _ rd ra rb => some (rWord 0x00 rd ra rb 0x00F)
  | .remu _ rd ra rb => some (rWord 0x00 rd ra rb 0x010)
  | .clz _ rd ra => some (rWord 0x00 rd ra 0 0x011)
  | .popc _ rd ra => some (rWord 0x00 rd ra 0 0x012)
  | .bswap _ rd ra => some (rWord 0x00 rd ra 0 0x013)
  | .addi _ rd ra imm => some (iWord 0x01 rd ra imm)
  | .andi _ rd ra imm => some (iWord 0x02 rd ra imm)
  | .ori _ rd ra imm => some (iWord 0x03 rd ra imm)
  | .xori _ rd ra imm => some (iWord 0x04 rd ra imm)
  | .slti _ rd ra imm => some (iWord 0x05 rd ra imm)
  | .sltiu _ rd ra imm => some (iWord 0x06 rd ra imm)
  | .lui _ rd imm => some (iWord 0x07 rd 0 imm)
  | .shi _ rd ra imm => some (iWord 0x08 rd ra imm)
  | .extu _ rd ra imm => some (iWord 0x09 rd ra imm)
  | .ins _ rd ra imm => some (iWord 0x0A rd ra imm)
  | .lw _ rd ra imm => some (iWord 0x10 rd ra imm)
  | .lh _ rd ra imm => some (iWord 0x11 rd ra imm)
  | .lhu _ rd ra imm => some (iWord 0x12 rd ra imm)
  | .lb _ rd ra imm => some (iWord 0x13 rd ra imm)
  | .lbu _ rd ra imm => some (iWord 0x14 rd ra imm)
  | .sw _ rd ra imm => some (iWord 0x15 rd ra imm)
  | .sh _ rd ra imm => some (iWord 0x16 rd ra imm)
  | .sb _ rd ra imm => some (iWord 0x17 rd ra imm)
  | .lr _ rd ra imm => some (iWord 0x18 rd ra imm)
  | .sc _ rd ra rb => some (rWord 0x19 rd ra rb 0)
  | .tas _ rd ra imm => some (iWord 0x1A rd ra imm)
  | .beq _ ra rb off => some (iWord 0x20 ra rb off)
  | .bne _ ra rb off => some (iWord 0x21 ra rb off)
  | .blt _ ra rb off => some (iWord 0x22 ra rb off)
  | .bge _ ra rb off => some (iWord 0x23 ra rb off)
  | .bltu _ ra rb off => some (iWord 0x24 ra rb off)
  | .bgeu _ ra rb off => some (iWord 0x25 ra rb off)
  | .bbs _ ra b off => some (iWord 0x26 ra b off)
  | .bbc _ ra b off => some (iWord 0x27 ra b off)
  | .j _ off => some (jWord 0x28 off)
  | .jal _ off => some (jWord 0x29 off)
  | .jr _ ra => some (rWord 0x2A 0 ra 0 0)
  | .jalr _ rd ra => some (rWord 0x2B rd ra 0 0)
  | .loop _ ra off => some (iWord 0x2C ra 0 off)
  | .loopi _ cnt off => some (lWord cnt off)
  | .mfs _ rd n => some (iWord 0x30 rd 0 n)
  | .mts _ n ra => some (iWord 0x31 0 ra n)
  | .nopInsn _ => some (rWord 0x32 0 0 0 0)
  | .wfe _ => some (rWord 0x32 0 0 0 1)
  | .fence _ => some (rWord 0x32 0 0 0 2)
  | .eret _ => some (rWord 0x32 0 0 0 3)
  | .trap _ code => some (rWord 0x32 0 code 0 4)
  | .brk _ => some (rWord 0x32 0 0 0 5)
  | .halt _ => some (rWord 0x32 0 0 0 6)
  | .qrx _ rd ra => some (rWord 0x38 rd ra 0 0)
  | .crd _ rd ra rb => some (rWord 0x39 rd ra rb 0)
  | .crel _ rd ra => some (rWord 0x3A rd ra 0 0)
  | .qwr _ rd ra rb => some (rWord 0x3B rd ra rb 0)
  | .ntf _ rd ra => some (rWord 0x3E rd ra 0 0)
  | .lcmdCancel _ rd ra => some (rWord 0x3D rd ra 0 0)
  | .cmpArm _ rd ra => some (rWord 0x3D rd ra 0 0)
  | .cmpDisarm _ rd ra => some (rWord 0x3D rd ra 0 0)
  | .cellWr _ rd ra => some (rWord 0x3D rd ra 0 0)
  | .evtFire _ rd ra => some (rWord 0x3D rd ra 0 0)
  | .ncmd _ rd ra rb => some (rWord 0x3C rd ra rb 0)
  | .reservedOpcode _ w => some (w.toNat)
  | _ => none

/-! ## Reserved words (R217, R218) -/

/-- A field of an instruction word. -/
def insField (w : Word) (lo n : Nat) : Nat := w.toNat / 2 ^ lo % 2 ^ n

/-- Whether a word is reserved: its opcode or its function is, or an unused field of a format is set. Unused bits inside the immediates of
SHI, EXTU, INS, MFS and MTS are no field of the format: their instructions judge them. -/
def reservedWord (w : Word) : Bool :=
  let op := insField w 26 6
  let rd := insField w 21 5
  let ra := insField w 16 5
  let rb := insField w 11 5
  let fn := insField w 0 11
  match op with
  | 0x00 => decide (0x13 < fn) || (decide (0x11 ≤ fn) && rb != 0)
  | 0x07 => ra != 0
  | 0x19 => fn != 0
  | 0x2A => fn != 0 || rd != 0 || rb != 0
  | 0x2B => fn != 0 || rb != 0
  | 0x2C => ra != 0
  | 0x30 => ra != 0
  | 0x31 => rd != 0
  | 0x32 => decide (6 < fn) || rd != 0 || rb != 0 || (fn != 4 && ra != 0)
  | 0x38 => fn != 0 || rb != 0
  | 0x39 => fn != 0
  | 0x3A => fn != 0 || rb != 0
  | 0x3B => fn != 0
  | 0x3C => fn != 0
  | 0x3D => fn != 0 || rb != 0
  | 0x3E => fn != 0 || rb != 0
  | _ => decide (0x0B ≤ op) && decide (op < 0x10) || decide (0x1B ≤ op) && decide (op < 0x20) ||
      decide (0x2E ≤ op) && decide (op < 0x30) || decide (0x33 ≤ op)

end Sys2Proof
end

