-- ==== Sys2Proof/Machine/Memory.lean ====
section
/-! DEFINITION. The byte memories: engine and supervisor memories at their BAR0 offsets (R240, R241), backup RAM and the mailboxes.
A byte that nothing has written reads as zero (log entry 12); the boot ROM is the implementation's. -/

namespace Sys2Proof.Machine

/-- BAR0 offset of an engine's IMEM (R240). -/
def imemBase (e : Nat) : Nat := 0x2000000 + 0x200000 * (e / 8) + 0x20000 * (e % 8)
/-- BAR0 offset of an engine's DMEM (R240). -/
def dmemBase (e : Nat) : Nat := imemBase e + 0x10000
/-- BAR0 offset of an engine's shared segment (R240). -/
def segBase (e : Nat) : Nat := 0x2100000 + 0x200000 * (e / 8) + 0x10000 * (e % 8)
/-- BAR0 offset of supervisor memory (R241). -/
def supBase : Nat := 0x3100000
/-- Where backup RAM stands beside the BAR0 offsets: at its address in a supervisor's space (R232). -/
def bkupBase : Nat := 0x10000000

/-- The canonical form of the byte memories: addresses rise strictly and no listed byte is zero. -/
def Memory.wf (m : List Host.Cell) : Bool := swf (fun _ => (0 : Byte)) m

/-- A byte of memory. -/
def State.byte (s : State) (a : Nat) : Byte :=
  if 0x3000000 ≤ a ∧ a < 0x3020000 then Config.bootRom (a - 0x3000000) else sget (fun _ => 0) s.mem a

/-- n bytes from an address on. -/
def State.bytes (s : State) (a n : Nat) : List Byte := (List.range n).map (fun k => s.byte (a + k))

/-- A word of memory, little-endian. -/
def State.mword (s : State) (a : Nat) : Word := BitVec.ofNat 32 (unoctets (s.bytes a 4))

/-- Bytes stand from address a on. -/
def putMem : List Byte → Nat → List Host.Cell → List Host.Cell
  | [], _, m => m
  | b :: bs, a, m => putMem bs (a + 1) (sset (fun _ => 0) m a b)

/-- A core's record without a reservation. -/
def freeResv (k : FCore) : FCore := { k with resv := none }

/-- A reservation on a word of [lo, hi) that another core or the host writes is cleared (R221). -/
def breakResv (by_ : Option Nat) (lo hi : Nat) (s : State) : State :=
  let hit := (s.eng.cores.filter (fun p => decide (some p.1 ≠ by_) && p.2.resv.any (fun r => decide (lo ≤ r + 3) && decide (r < hi)))).map (·.1)
  let cs := hit.foldl (fun m c => sset (fun _ => {}) m c (freeResv (sget (fun _ => {}) m c))) s.eng.cores
  { s with eng := { s.eng with cores := cs } }

/-- Bytes are written by a core or, with none, by the host or a hardware path; the parity of the words written is good. -/
def State.store (s : State) (by_ : Option Nat) (a : Nat) (bs : List Byte) : State :=
  let t := breakResv by_ a (a + bs.length) s
  { t with
    mem := putMem bs a t.mem
    badPar := t.badPar.filter (fun w => decide (w + 4 ≤ a) || decide (a + bs.length ≤ w)) }

/-- A range of memory is zeroed, with good parity. -/
def State.zeroMem (lo hi : Nat) (s : State) : State :=
  { s with mem := sdrop s.mem lo hi, badPar := s.badPar.filter (fun w => decide (w < lo) || decide (hi ≤ w)) }

/-- The parity of the word that holds an address is bad. -/
def parityBad (s : State) (a : Nat) : Bool := s.badPar.contains (a / 4 * 4)

end Sys2Proof.Machine
end

