-- ==== Sys2Proof/Machine/Fekor.lean ====
section
/-! DEFINITION. The Fekor cores (R214-R223, R231-R236): registers, system registers, exceptions, loops, memory access and every
instruction's body but the queue instructions. Cores 0-63 are the engines, 64-67 the supervisors. A body answers what its
instruction does; runIns applies it to the core. -/

namespace Sys2Proof.Machine

/-! ## A core -/

/-- A core's record. -/
def State.core (s : State) (c : Nat) : FCore := sget (fun _ => ({} : FCore)) s.eng.cores c

/-- The state with a core's record replaced. -/
def State.setCore (s : State) (c : Nat) (k : FCore) : State :=
  { s with eng := { s.eng with cores := sset (fun _ => {}) s.eng.cores c k } }

/-- The core is a supervisor. -/
def isSup (c : Nat) : Bool := decide (64 ≤ c)

/-- STATE of a core: 0 HALTED, 1 RUNNING, 2 WAITING, 3 STALLED (R240, R241). -/
def stateF (c : Nat) : RegFld := if isSup c then SUP_STS.STATE (c - 64) else ENG_STS.STATE (c / 8) (c % 8)
/-- HALT_CAUSE of a core. -/
def causeF (c : Nat) : RegFld := if isSup c then SUP_STS.HALT_CAUSE (c - 64) else ENG_STS.HALT_CAUSE (c / 8) (c % 8)
/-- DBG_EN of a core. -/
def dbgF (c : Nat) : RegFld := if isSup c then SUP_CTRLN.DBG_EN (c - 64) else ENG_CTRL.DBG_EN (c / 8) (c % 8)
/-- The count of instructions retired. -/
def insnF (c : Nat) : RegFld := if isSup c then SUP_CNT_INSN.COUNT (c - 64) else ENG_CNT_INSN.COUNT (c / 8) (c % 8)

/-- A general register: g0 reads as zero (R215). -/
def State.g (s : State) (c r : Nat) : Word := if r = 0 then 0 else sget (fun _ => 0) (s.core c).g r

/-- A general register is written: writes to g0 are discarded (R215). -/
def State.setG (s : State) (c r : Nat) (v : Word) : State :=
  if r = 0 then s else s.setCore c { s.core c with g := sset (fun _ => 0) (s.core c).g r v }

/-- Reset values of the stored system registers (R216): ESTAT has PL set on a supervisor. -/
def sysReset (c n : Nat) : Word := if isSup c ∧ n = 0x14 then 4 else 0

/-- A stored system register. -/
def State.sys (s : State) (c n : Nat) : Word := sget (sysReset c) (s.core c).sys n

/-- A stored system register is replaced. -/
def State.setSys (s : State) (c n : Nat) (v : Word) : State :=
  s.setCore c { s.core c with sys := sset (sysReset c) (s.core c).sys n v }

/-- The program counter takes a value: its bits [1:0] are zero (R215). -/
def State.setPc (s : State) (c a : Nat) : State := s.setCore c { s.core c with pc := BitVec.ofNat 32 (a / 4 * 4) }

/-- The program counter of a core. -/
def State.pcOf (s : State) (c : Nat) : Nat := (s.core c).pc.toNat

/-- The level of a supervisor; an engine has none and counts as level 1 (R214). -/
def level1 (s : State) (c : Nat) : Bool := !isSup c || bf (s.sys c 0x14) 2 1 == 1

/-- Cycles since core reset: the clock's count, and no less than the cycles its instructions spent (R216, R218). -/
def cycles (s : State) (c : Nat) : Nat := max (s.core c).cyc s.clk.eng - (s.core c).cycBase

/-! ## What an instruction does -/

/-- What an instruction body answers: done, with its cycles, going on at the next instruction; a taken branch or jump; going on elsewhere with
the loops as they stand; an exception with its cause and EVAL; not yet, so that the core stays on it; a halt with a cause, past the instruction or on it. -/
inductive Ret where
  | done (t : State) (cyc : Nat)
  | jump (t : State) (target cyc : Nat)
  | goto (t : State) (target cyc : Nat)
  | exc (t : State) (cause eval : Nat)
  | hold (t : State)
  | halt (t : State) (cause : Nat) (past : Bool)

/-- An instruction's body: what it does on a core. -/
abbrev Body := Nat → State → Ret

/-- How a supervisor's load or store reaches the device registers (R232): supervisor number, offset, size. -/
structure Dev where
  read : Nat → Nat → Nat → State → State × Word
  write : Nat → Nat → Nat → Word → State → State

/-! ## Halts, exceptions, interrupts (R233-R236) -/

/-- A core halts with a cause: its reservation is cleared (R221, R236). -/
def haltCore (c cause : Nat) (s : State) : State :=
  ((s.setCore c { s.core c with resv := none, haltReq := false, stepping := false, held := false, issued := false, waitRun := 0 }).wr (stateF c) 0).wr
    (causeF c) cause

/-- A core is reset: halted with cause RESET, its registers, system registers, loops and reservation cleared; of an engine, with CLEAR, its
memories begin to be zeroed (R237). -/
def coreReset (c : Nat) (clear : Bool) (s : State) : State :=
  let t := (s.wr (stateF c) 0).wr (causeF c) 7
  let u : State := { t with eng := { t.eng with cores := sset (fun _ => {}) t.eng.cores c { cycBase := t.clk.eng } } }
  if clear then u.wr (ENG_STS.CLEARING (c / 8) (c % 8)) 1 else u

/-- A RESET that waited for the instruction in progress takes effect (R236, R237). -/
def lateReset (c : Nat) (s : State) : State := if (s.core c).resetReq = 0 then s else coreReset c ((s.core c).resetReq == 2) s

/-- A halt that waited for the instruction in progress takes effect, as a RESET where that was asked for (R236, R237). -/
def lateHalt (c : Nat) (s : State) : State := if (s.core c).resetReq = 0 then haltCore c 1 s else lateReset c s

/-- A halt with DOUBLE or NO_VECTOR is reported (R234, R327, R405). -/
def reportHalt (c : Nat) (s : State) : State :=
  if isSup c then (s.setReason 6).raise 19 (c - 64)
  else evtEdge s ((s.wr ⟨ENG_C_HALT_STS.reg (c / 8), c % 8, 1⟩ 1).blockEvent (32 * (24 + c / 8) + c % 8))

/-- ESTAT at exception entry: EX is set; on a supervisor PPL takes PL, PIE takes IE, PL becomes 1 and IE 0 (R234). -/
def enterStat (c : Nat) (e : Word) : Word :=
  if isSup c then bfSet (bfSet (bfSet (bfSet (bfSet e 3 1 (bf e 2 1)) 4 1 (bf e 1 1)) 2 1 1) 1 1 0) 0 1 1 else bfSet e 0 1 1

/-- A core takes an exception (R234): a halt with DOUBLE or NO_VECTOR, or entry into the handler. ret is the address that EPC
saves. A step ends at the handler's first instruction (R236). -/
def takeExc (c cause eval ret : Nat) (s : State) : State :=
  if bf (s.sys c 0x14) 0 1 = 1 then lateReset c (reportHalt c (haltCore c 5 s))
  else if bf (s.sys c 0x13) 0 1 = 0 then lateReset c (reportHalt c (haltCore c 8 s))
  else
    let s1 := ((s.setSys c 0x10 (BitVec.ofNat 32 ret)).setSys c 0x11 (BitVec.ofNat 32 cause)).setSys c 0x12 (BitVec.ofNat 32 eval)
    let s2 := (s1.setSys c 0x14 (enterStat c (s1.sys c 0x14))).setPc c (s1.sys c 0x13).toNat
    let s3 := s2.setCore c { s2.core c with resv := none, issued := false }
    if (s3.core c).stepping then haltCore c 4 s3 else if (s3.core c).haltReq then lateHalt c s3 else s3

/-! ## Loops (R220) -/

/-- LC, LS and LE of an open level. -/
def lcN (l : Nat) : Nat := 0x20 + 3 * l
/-- The number of LS. -/
def lsN (l : Nat) : Nat := 0x21 + 3 * l
/-- The number of LE. -/
def leN (l : Nat) : Nat := 0x22 + 3 * l

/-- A core's open levels become d. -/
def setDepth (c d : Nat) (s : State) : State := s.setCore c { s.core c with depth := d }

/-- After the instruction at an address, with d levels open: the innermost level ends there and counts, or it does not. -/
def loopNext (c a : Nat) : Nat → State → State × Nat
  | 0, s => (s, a + 4)
  | d + 1, s =>
    if (s.sys c (leN d)).toNat = a then
      let lc := s.sys c (lcN d) - 1
      let s1 := s.setSys c (lcN d) lc
      if lc ≠ 0 then (s1, (s.sys c (lsN d)).toNat) else loopNext c a d (setDepth c d s1)
    else (s, a + 4)

/-- A taken branch closes the levels whose body its target lies outside of, from the innermost. -/
def closeLoops (c target : Nat) : Nat → State → State
  | 0, s => s
  | d + 1, s =>
    if (s.sys c (lsN d)).toNat ≤ target ∧ target ≤ (s.sys c (leN d)).toNat then s else closeLoops c target d (setDepth c d s)

/-- The instruction stands at LE of an open level. -/
def atLoopEnd (s : State) (c : Nat) : Bool := (List.range (s.core c).depth).any (fun d => (s.sys c (leN d)).toNat == s.pcOf c)

/-! ## Retiring -/

/-- An instruction retires: the pc goes on, its cycles and its count are taken, and a step or a halt request ends the run (R218, R236). -/
def retire (c next cyc : Nat) (s : State) : State :=
  let s1 := (s.setPc c next).inc (insnF c)
  let s2 := s1.setCore c { s1.core c with cyc := max (s1.core c).cyc s1.clk.eng + cyc, held := false, issued := false }
  if (s2.core c).stepping then haltCore c 4 s2 else if (s2.core c).haltReq then lateHalt c s2 else s2

/-- An instruction that is done goes on to the next, through the loops. -/
def goOn (c cyc : Nat) (s : State) : State :=
  let r := loopNext c (s.pcOf c) (s.core c).depth s
  retire c r.2 cyc r.1

/-- The address of the next instruction that would have executed (R234). -/
def nextPc (s : State) (c : Nat) : Nat := (loopNext c (s.pcOf c) (s.core c).depth s).2

/-- A core's record of what its instruction answered. -/
def applyRet (c : Nat) (s : State) : Ret → State
  | .done t cyc => goOn c cyc t
  | .jump t target cyc => retire c target cyc (closeLoops c (target / 4 * 4) (t.core c).depth t)
  | .goto t target cyc => retire c target cyc t
  | .exc t cause eval => takeExc c cause eval (if cause = 7 then nextPc s c else s.pcOf c) t
  | .hold t => t
  | .halt t cause past => haltCore c cause (if past then goOn c 2 t else t)

/-! ## Fetch and breakpoints -/

/-- An enabled MPU region holds every byte of an access and grants the right r (0 read, 1 write, 2 execute) (R216, R232). -/
def mpuOk (s : State) (c a len r : Nat) : Bool :=
  (List.range 16).any (fun i =>
    let b := (s.sys c (0x110 + 2 * i)).toNat
    let l := (s.sys c (0x111 + 2 * i)).toNat
    bitOn b 3 && bitOn b r && decide (b / 4096 ≤ a / 4096) && decide ((a + len - 1) / 4096 ≤ l / 4096))

/-- The BAR0 offset from which a core fetches an address, or the exception the fetch raises (R231, R232). -/
def fetchAt (s : State) (c a : Nat) : Nat × Option Nat :=
  if isSup c then
    if a < 0x20000 ∨ (0x100000 ≤ a ∧ a < 0x300000) then (0x3000000 + a, if level1 s c || mpuOk s c a 4 2 then none else some 0xA)
    else if (0x10000000 ≤ a ∧ a < 0x10001000) ∨ (0x40000000 ≤ a ∧ a < 0x44000000) then (0, some 4)
    else (0, some 3)
  else if a < 0x8000 then (imemBase c + a, none) else (0, some 4)

/-- The exception that fetching a core's next instruction raises: access first, then parity (R233). -/
def fetchExc (s : State) (c : Nat) : Option Nat :=
  match (fetchAt s c (s.pcOf c)).2 with
  | some k => some k
  | none => if parityBad s (fetchAt s c (s.pcOf c)).1 then some 5 else none

/-- The word a core fetches next. -/
def fetchWord (s : State) (c : Nat) : Word := s.mword (fetchAt s c (s.pcOf c)).1

/-- An enabled breakpoint of a core stands at its pc (R236, R240, R241). -/
def bpHit (s : State) (c : Nat) : Bool :=
  s.on (dbgF c) && (List.range 4).any (fun j =>
    if isSup c then s.on (SUP_BP.EN (c - 64) j) && s.rd (SUP_BP.ADDR (c - 64) j) * 4 == s.pcOf c
    else s.on (ENG_BP.EN (c / 8) (c % 8) j) && s.rd (ENG_BP.ADDR (c / 8) (c % 8) j) * 4 == s.pcOf c)

/-- The core executes instructions: RUNNING, and no queue instruction holds it. -/
def running (s : State) (c : Nat) : Bool := s.rd (stateF c) == 1 && !(s.core c).held

/-- A running core executes an instruction: a breakpoint halts it first, unless it steps; a fetch that fails raises its exception. -/
def runIns (c : Nat) (b : Body) (s : State) : State :=
  if !running s c then s
  else if bpHit s c ∧ !(s.core c).stepping then haltCore c 2 s
  else match fetchExc s c with
    | some k => takeExc c k (s.pcOf c) (s.pcOf c) s
    | none => applyRet c s (b c s)

/-! ## Arithmetic (R217, R218) -/

/-- IMM16 sign-extended. -/
def simm (imm : Nat) : Word := BitVec.ofInt 32 (sgn 16 imm)

/-- A register operation of two registers. -/
def alu (cyc : Nat) (f : Word → Word → Word) (rd ra rb : Nat) : Body := fun c s => .done (s.setG c rd (f (s.g c ra) (s.g c rb))) cyc

/-- An operation of a register and an immediate. -/
def alui (f : Word → Word) (rd ra : Nat) : Body := fun c s => .done (s.setG c rd (f (s.g c ra))) 1

/-- 1 or 0. -/
def bit01 (b : Bool) : Word := if b then 1 else 0

def fAdd (a b : Word) : Word := a + b
def fSub (a b : Word) : Word := a - b
def fAnd (a b : Word) : Word := a &&& b
def fOr (a b : Word) : Word := a ||| b
def fXor (a b : Word) : Word := a ^^^ b
def fSll (a b : Word) : Word := a <<< (b.toNat % 32)
def fSrl (a b : Word) : Word := a >>> (b.toNat % 32)
def fSra (a b : Word) : Word := a.sshiftRight (b.toNat % 32)
def fSlt (a b : Word) : Word := bit01 (a.slt b)
def fSltu (a b : Word) : Word := bit01 (a.ult b)
def fMin (a b : Word) : Word := if a.slt b then a else b
def fMax (a b : Word) : Word := if a.slt b then b else a
def fMul (a b : Word) : Word := a * b
def fMulhu (a b : Word) : Word := BitVec.ofNat 32 (a.toNat * b.toNat / 2 ^ 32)
def fMulh (a b : Word) : Word := BitVec.ofInt 32 (a.toInt * b.toInt / 2 ^ 32)
def fDivu (a b : Word) : Word := if b = 0 then 0xFFFFFFFF else a / b
def fRemu (a b : Word) : Word := if b = 0 then a else a % b
/-- Leading zeros. -/
def fClz (a : Word) : Word := BitVec.ofNat 32 (((List.range 32).find? (fun k => a.getLsbD (31 - k))).getD 32)
/-- Bits set. -/
def fPopc (a : Word) : Word := BitVec.ofNat 32 ((List.range 32).countP (fun k => a.getLsbD k))
/-- Bytes reversed. -/
def fBswap (a : Word) : Word := BitVec.ofNat 32 (unoctets (octets 4 a.toNat).reverse)

/-- SHI: shift or rotate by IMM16[4:0] as IMM16[6:5] says. -/
def fShi (imm : Nat) (a : Word) : Word :=
  match imm / 32 % 4 with
  | 0 => a <<< (imm % 32)
  | 1 => a >>> (imm % 32)
  | 2 => a.sshiftRight (imm % 32)
  | _ => a.rotateRight (imm % 32)

/-- EXTU: w bits of a register from bit p on. -/
def fExtu (imm : Nat) (a : Word) : Word := BitVec.ofNat 32 (bf a (imm % 32) (imm / 32 % 32 + 1))

/-- INS: w bits of one register replace bits from p on of another. -/
def fIns (imm : Nat) (d a : Word) : Word := bfSet d (imm % 32) (imm / 32 % 32 + 1) a.toNat

/-- SHI; set unused bits raise ILLEGAL. -/
def iShi (rd ra imm : Nat) : Body := fun c s =>
  if 128 ≤ imm then .exc s 1 (iWord 0x08 rd ra imm) else alui (fShi imm) rd ra c s
/-- EXTU; set unused bits raise ILLEGAL. -/
def iExtu (rd ra imm : Nat) : Body := fun c s =>
  if 1024 ≤ imm then .exc s 1 (iWord 0x09 rd ra imm) else alui (fExtu imm) rd ra c s
/-- INS; set unused bits and a field beyond bit 31 raise ILLEGAL. -/
def iIns (rd ra imm : Nat) : Body := fun c s =>
  if 1024 ≤ imm ∨ 32 < imm % 32 + (imm / 32 % 32 + 1) then .exc s 1 (iWord 0x0A rd ra imm)
  else .done (s.setG c rd (fIns imm (s.g c rd) (s.g c ra))) 1

/-! ## Data access (R219, R221, R231, R232) -/

/-- Where a data access goes. -/
inductive Place where
  | mem (off : Nat) (shared : Bool)
  | dev (off : Nat)
  | bad (cause : Nat)
  | barked (e : Nat)
  deriving DecidableEq, Repr

/-- An engine's data access. -/
def engPlace (s : State) (c a : Nat) : Place :=
  if 0x10000 ≤ a ∧ a < 0x20000 then .mem (dmemBase c + (a - 0x10000)) false
  else if 0x100000 ≤ a ∧ a < 0x180000 then
    let e := c / 8 * 8 + (a - 0x100000) / 0x10000
    if s.engOwner e = s.engOwner c then .mem (segBase e + (a - 0x100000) % 0x10000) true else .barked e
  else .bad 3

/-- A supervisor's data access: whether it reads and writes, and whether it is LR, SC or TAS. -/
def supPlace (s : State) (c a len : Nat) (rd wr atomic : Bool) : Place :=
  let p : Place :=
    if a < 0x20000 then (if wr || atomic then .bad 3 else .mem (0x3000000 + a) false)
    else if 0x100000 ≤ a ∧ a < 0x300000 then .mem (0x3000000 + a) true
    else if atomic then .bad 3
    else if 0x10000000 ≤ a ∧ a < 0x10001000 then .mem (bkupBase + (a - 0x10000000)) false
    else if 0x40000000 ≤ a ∧ a < 0x44000000 then .dev (a - 0x40000000)
    else .bad 3
  match p with
  | .bad k => .bad k
  | q => if level1 s c || ((!rd || mpuOk s c a len 0) && (!wr || mpuOk s c a len 1)) then q else .bad 0xA

/-- A data access of a core: alignment first (R219). -/
def place (s : State) (c a len : Nat) (rd wr atomic : Bool) : Place :=
  if a % len ≠ 0 then .bad 2 else if isSup c then supPlace s c a len rd wr atomic else engPlace s c a

/-- The address of a load or store. -/
def dataAddr (s : State) (c ra imm : Nat) : Nat := (s.g c ra + simm imm).toNat

/-- Cycles of a load without contention (R218, R232). -/
def loadCyc (c : Nat) (shared : Bool) : Nat := if shared && !isSup c then 4 else 2

/-- A load of len bytes, its value formed by f. -/
def iLoad (dev : Dev) (len : Nat) (f : Nat → Word) (rd ra imm : Nat) : Body := fun c s =>
  let a := dataAddr s c ra imm
  match place s c a len true false false with
  | .bad k => .exc s k a
  | .barked e => .exc (s.bark (s.engOwner c) 3 5 e) 3 a
  | .dev o => let r := dev.read (c - 64) o len s
              .done (r.1.setG c rd (f r.2.toNat)) 16
  | .mem o sh =>
    if parityBad s o then .exc s 5 (a / 4 * 4)
    else .done (s.setG c rd (f (unoctets (s.bytes o len)))) (loadCyc c sh)

/-- A store of the low len bytes of rd. -/
def iStore (dev : Dev) (len rd ra imm : Nat) : Body := fun c s =>
  let a := dataAddr s c ra imm
  match place s c a len false true false with
  | .bad k => .exc s k a
  | .barked e => .exc (s.bark (s.engOwner c) 3 5 e) 3 a
  | .dev o => .done (dev.write (c - 64) o len (s.g c rd) s) 16
  | .mem o _ => .done (s.store (some c) o (octets len (s.g c rd).toNat)) 1

/-- The value of an unsigned load. -/
def zext (v : Nat) : Word := BitVec.ofNat 32 v
/-- The value of a signed halfword load. -/
def sext16 (v : Nat) : Word := BitVec.ofInt 32 (sgn 16 v)
/-- The value of a signed byte load. -/
def sext8 (v : Nat) : Word := BitVec.ofInt 32 (sgn 8 v)

/-- LR: load word and reserve. -/
def iLr (rd ra imm : Nat) : Body := fun c s =>
  let a := dataAddr s c ra imm
  match place s c a 4 true false true with
  | .bad k => .exc s k a
  | .barked e => .exc (s.bark (s.engOwner c) 3 5 e) 3 a
  | .dev _ => .exc s 3 a
  | .mem o sh =>
    if parityBad s o then .exc s 5 a
    else
      let s1 := s.setG c rd (s.mword o)
      .done (s1.setCore c { s1.core c with resv := some o }) (loadCyc c sh)

/-- SC: store if the word is reserved; the reservation is cleared whether it succeeds or not. -/
def iSc (rd ra rb : Nat) : Body := fun c s =>
  let a := (s.g c ra).toNat
  match place s c a 4 false true true with
  | .bad k => .exc s k a
  | .barked e => .exc (s.bark (s.engOwner c) 3 5 e) 3 a
  | .dev _ => .exc s 3 a
  | .mem o sh =>
    let ok := decide ((s.core c).resv = some o)
    let v := s.g c rb
    let s1 := s.setCore c { s.core c with resv := none }
    let s2 := if ok then s1.store (some c) o (octets 4 v.toNat) else s1
    .done (s2.setG c rd (if ok then 0 else 1)) (if sh then 5 else 2)

/-- TAS: the word becomes 1 and its old value is read. -/
def iTas (rd ra imm : Nat) : Body := fun c s =>
  let a := dataAddr s c ra imm
  match place s c a 4 true true true with
  | .bad k => .exc s k a
  | .barked e => .exc (s.bark (s.engOwner c) 3 5 e) 3 a
  | .dev _ => .exc s 3 a
  | .mem o sh =>
    if parityBad s o then .exc s 5 a
    else
      let v := s.mword o
      .done ((s.store (some c) o [1, 0, 0, 0]).setG c rd v) (if sh then 5 else 3)

/-! ## Branches, jumps, loops (R219, R220) -/

/-- An address that lies a signed number of words away. -/
def offPc (s : State) (c w off : Nat) : Nat := (BitVec.ofInt 32 ((s.pcOf c : Int) + 4 * sgn w off)).toNat

/-- A conditional branch. -/
def iBranch (w : Nat) (cond : State → Nat → Bool) (off : Nat) : Body := fun c s =>
  if atLoopEnd s c then .exc s 1 w
  else if cond s c then .jump s (offPc s c 16 off) 2 else .done s 1

/-- A branch on two registers. -/
def iCmpBr (op : Nat) (f : Word → Word → Bool) (ra rb off : Nat) : Body :=
  iBranch (iWord op ra rb off) (fun s c => f (s.g c ra) (s.g c rb)) off

/-- A branch on bit b of a register. -/
def iBitBr (op : Nat) (v : Bool) (ra b off : Nat) : Body :=
  iBranch (iWord op ra b off) (fun s c => (s.g c ra).getLsbD b == v) off

/-- J. -/
def iJ (off : Nat) : Body := fun c s => if atLoopEnd s c then .exc s 1 (jWord 0x28 off) else .jump s (offPc s c 26 off) 2
/-- JAL. -/
def iJal (off : Nat) : Body := fun c s =>
  if atLoopEnd s c then .exc s 1 (jWord 0x29 off)
  else .jump (s.setG c 31 (BitVec.ofNat 32 (s.pcOf c + 4))) (offPc s c 26 off) 2
/-- JR. -/
def iJr (ra : Nat) : Body := fun c s => if atLoopEnd s c then .exc s 1 (rWord 0x2A 0 ra 0 0) else .jump s (s.g c ra).toNat 2
/-- JALR. -/
def iJalr (rd ra : Nat) : Body := fun c s =>
  if atLoopEnd s c then .exc s 1 (rWord 0x2B rd ra 0 0)
  else .jump (s.setG c rd (BitVec.ofNat 32 (s.pcOf c + 4))) (s.g c ra).toNat 2

/-- LOOP and LOOPI with their instruction word, count and body length. -/
def iLoopN (w : Nat) (n : State → Nat → Word) (off : Nat) : Body := fun c s =>
  let le := s.pcOf c + 4 * off
  let d := (s.core c).depth
  if atLoopEnd s c ∨ off = 0 then .exc s 1 w
  else if 2 ≤ d ∨ (d = 1 ∧ (s.sys c (leN 0)).toNat < le) then .exc s 6 w
  else if n s c = 0 then .goto s (le + 4) 2
  else .done (setDepth c (d + 1) (((s.setSys c (lcN d) (n s c)).setSys c (lsN d) (BitVec.ofNat 32 (s.pcOf c + 4))).setSys c (leN d)
    (BitVec.ofNat 32 le))) 2

/-- LOOP: the count comes from a register. -/
def iLoop (ra off : Nat) : Body := iLoopN (iWord 0x2C ra 0 off) (fun s c => s.g c ra) off
/-- LOOPI: the count is CNT10. -/
def iLoopi (cnt off : Nat) : Body := iLoopN (lWord cnt off) (fun _ _ => BitVec.ofNat 32 cnt) off

/-! ## System registers (R216) -/

/-- The kinds of system register number. -/
inductive SysKind where
  | unlisted
  | readOnly
  | rw (mask : Nat)
  | w1c (mask : Nat)
  deriving DecidableEq, Repr

/-- A system register number of a core kind. -/
def sysKind (sup : Bool) (n : Nat) : SysKind :=
  if n ≤ 4 ∨ n = 0x26 then .readOnly
  else if n = 0x10 ∨ n = 0x12 ∨ (0x20 ≤ n ∧ n ≤ 0x25) then .rw 0xFFFFFFFF
  else if n = 0x11 then .rw 0xF
  else if n = 0x13 then .rw 0xFFFFFFFD
  else if n = 0x14 then .rw (if sup then 0x1F else 1)
  else if n = 0x30 then .rw 7
  else if n = 0x31 then .rw 0xFF
  else if n = 0x32 then .w1c 4
  else if 0x110 ≤ n ∧ n < 0x130 then .rw (if n % 2 = 0 then 0xFFFFF00F else 0xFFFFF000)
  else if n = 0x130 then .rw 0xFFFFFFFF
  else if n = 0x131 then .w1c 0xFFFFFFFF
  else .unlisted

/-- The exception an access to a system register number raises, if any (R216, R235). -/
def sysExc (s : State) (c n : Nat) : Option Nat :=
  if sysKind (isSup c) n = .unlisted then some 1
  else if 0x100 ≤ n then (if !isSup c then some 1 else if !level1 s c then some 9 else none)
  else none

/-- The value of a system register that is not stored under its number, with the capture that reading it makes (R10, R216). -/
def readSys (c n : Nat) (s : State) : State × Word :=
  match n with
  | 0 => (s, BitVec.ofNat 32 (if isSup c then c - 64 + 65536 else c + 256 * s.engOwner c))
  | 1 => (s.setCore c { s.core c with cycHi := cycles s c / 2 ^ 32 }, BitVec.ofNat 32 (cycles s c))
  | 2 => (s, BitVec.ofNat 32 (s.core c).cycHi)
  | 3 => (s.setCore c { s.core c with atbHi := s.atb / 2 ^ 32 }, BitVec.ofNat 32 s.atb)
  | 4 => (s, BitVec.ofNat 32 (s.core c).atbHi)
  | 0x26 => (s, BitVec.ofNat 32 (s.core c).depth)
  | _ => (s, s.sys c n)

/-- MFS. -/
def iMfs (rd imm : Nat) : Body := fun c s =>
  if 4096 ≤ imm then .exc s 1 (iWord 0x30 rd 0 imm)
  else match sysExc s c imm with
    | some k => .exc s k (iWord 0x30 rd 0 imm)
    | none => let r := readSys c imm s
              .done (r.1.setG c rd r.2) (if imm = 3 then 3 else 1)

/-- MTS. A channel that the engine's partition does not own is refused by the bark (R404). -/
def iMts (imm ra : Nat) : Body := fun c s =>
  let v := s.g c ra
  if 4096 ≤ imm then .exc s 1 (iWord 0x31 0 ra imm)
  else match sysExc s c imm with
    | some k => .exc s k (iWord 0x31 0 ra imm)
    | none =>
      let ch := v.toNat % 128
      if imm = 0x31 ∧ !isSup c ∧ s.engOwner c ≠ 0 ∧ s.chanOwner ch ≠ s.engOwner c then
        .exc (s.bark (s.engOwner c) 3 8 (ch / 8)) 3 (ch / 8)
      else match sysKind (isSup c) imm with
        | .rw m => .done (s.setSys c imm (BitVec.ofNat 32 (Nat.land v.toNat m))) 1
        | .w1c m => .done (s.setSys c imm (BitVec.ofNat 32 (Nat.xor (s.sys c imm).toNat (Nat.land (Nat.land (s.sys c imm).toNat m) v.toNat)))) 1
        | _ => .done s 1

/-! ## System instructions (R218, R223, R233-R236) -/

/-- NOP. -/
def iNop : Body := fun _ s => .done s 1
/-- FENCE: every earlier store of the model's cores has completed. -/
def iFence : Body := fun _ s => .done s 1

/-- A condition of WFE is true under EVM (R223). -/
def wfeReady (s : State) (c : Nat) : Bool :=
  let m := (s.sys c 0x30).toNat
  (!isSup c && bitOn m 0 && s.eng.rxq.any (fun q => q.1 == c / 8 && q.2.1 == s.engOwner c)) ||
    (!isSup c && bitOn m 1 && !(sget (fun _ => ([] : List Notice)) s.eng.notices c).isEmpty) || (bitOn m 2 && (s.sys c 0x32).getLsbD 2)

/-- WFE: done when a condition is true, else the core waits on it. -/
def iWfe : Body := fun c s => if wfeReady s c then .done s 1 else .hold (s.wr (stateF c) 2)

/-- ERET: PC takes EPC, EX clears, a supervisor's PL and IE return; the reservation is cleared (R221, R234). -/
def iEret : Body := fun c s =>
  if !level1 s c then .exc s 9 (rWord 0x32 0 0 0 3)
  else
    let e := s.sys c 0x14
    let e1 := bfSet e 0 1 0
    let e2 := if isSup c then bfSet (bfSet e1 2 1 (bf e 3 1)) 1 1 (bf e 4 1) else e1
    let s1 := s.setSys c 0x14 e2
    .goto (s1.setCore c { s1.core c with resv := none }) (s.sys c 0x10).toNat 2

/-- TRAP with a code. -/
def iTrap (code : Nat) : Body := fun _ s => .exc s 7 code
/-- BRK: a debug halt that leaves the pc on it, or the BRK exception. -/
def iBrk : Body := fun c s => if s.on (dbgF c) then .halt s 3 false else .exc s 8 (rWord 0x32 0 0 0 5)
/-- HALT: cause SELF; a supervisor at level 0 may not. -/
def iHalt : Body := fun c s => if !level1 s c then .exc s 9 (rWord 0x32 0 0 0 6) else .halt s 6 true

/-- RESERVED_OPCODE and words that no instruction decodes: ILLEGAL. -/
def iIllegal (w : Nat) : Body := fun _ s => .exc s 1 w

/-! ## Waking and interrupting -/

/-- A waiting core's WFE completes (R223). -/
def wfeWake (c : Nat) (s : State) : State :=
  if s.rd (stateF c) = 2 ∧ wfeReady s c then goOn c 1 (s.wr (stateF c) 1) else s

/-- The lowest pending and enabled interrupt line of a supervisor (R235). -/
def pendingLine (s : State) (c : Nat) : Option Nat := (List.range 32).find? (fun i => (s.sys c 0x131).getLsbD i && (s.sys c 0x130).getLsbD i)

/-- A supervisor takes its lowest pending enabled line while IE is set and EX is clear; a WFE completes with it (R223, R235). -/
def interrupt (c : Nat) (s : State) : State :=
  let e := s.sys c 0x14
  if isSup c ∧ bf e 1 1 = 1 ∧ bf e 0 1 = 0 then
    match pendingLine s c with
    | none => s
    | some i =>
      if s.rd (stateF c) = 2 then
        let t := goOn c 1 (s.wr (stateF c) 1)
        if t.rd (stateF c) = 1 then takeExc c 0xB i (t.pcOf c) t else t
      else if running s c then takeExc c 0xB i (s.pcOf c) s
      else s
  else s

/-- A breakpoint halts a running core before it executes (R236). -/
def breakpoint (c : Nat) (s : State) : State := if running s c ∧ bpHit s c then haltCore c 2 s else s

end Sys2Proof.Machine
end

