-- ==== Sys2Proof/Machine/Receive.lean ====
section
/-! DEFINITION. A received frame from its descriptor to its receiver: duplicate test, verification, commit with the drift model, delivery
to engines and ports (R147, R155, R156, R161-R163, R178-R180, R208, R225, R253-R255, R287, R288), and the acknowledgement that
answers it (R148-R153, R172). Frames stand in the order in which their descriptors were accepted, and committed ones behind them in the order of
their commits; a command names a frame by its place. -/

namespace Sys2Proof.Machine

/-! ## Frames in order -/

/-- The received frame in place k. -/
def State.rx (s : State) (k : Nat) : Option Rx := s.que.rxs[k]?

/-- The state with the frame in place k replaced. -/
def State.setRx (s : State) (k : Nat) (r : Rx) : State := { s with que := { s.que with rxs := s.que.rxs.set k r } }

/-- A frame leaves its place and its cells are freed. -/
def dropRx (k : Nat) (r : Rx) (s : State) : State :=
  freeCells (r.descCell :: r.cells) { s with que := { s.que with rxs := s.que.rxs.eraseIdx k } }

/-- The octets of a frame's PSDU. -/
def rxBytes (s : State) (r : Rx) : List Byte := (chainBytes s r.cells).take (RD.LENGTH.of r.dsc)

/-- An acknowledgement waits for its frame's verification: an Enh-ACK to a secured frame (R150). -/
def ackAwaits (a : AckReq) : Bool := a.hdr.version == 2 && a.hdr.secured

/-- A sequencer instance is of a received frame. -/
def seqOf (r : Rx) (i : SeqInst) : Bool := (i.prog == 0 || i.prog == 1) && i.fend == r.fend && i.node == r.node && i.sfdTs == r.sfdTs

/-- The Enh-ACK of a secured frame learns of its verification; no other acknowledgement depends on it (R148, R150). -/
def ackVerdict (r : Rx) (ok : Bool) (slot : Option Nat) (s : State) : State :=
  { s with lnk := { s.lnk with acks := s.lnk.acks.map (fun a =>
      if a.lane = r.lane ∧ a.fend = r.fend ∧ ackAwaits a then { a with verdict := some ok, slot := slot } else a) } }

/-- A received frame whose cells fail parity before delivery is dropped and counted (R196). -/
def rxParity (k : Nat) (r : Rx) (s : State) : Option State :=
  match (r.descCell :: r.cells).find? (fun c => badCell (s.cell c)) with
  | some c => some (dropRx k r ((cellParity c s).inc QUE_CNT_RX_PAR_DROP.COUNT))
  | none => none

/-! ## Verification -/

/-- An earlier-ending frame of a frame's node that has neither committed nor been discarded: handed over, or still in a lane (R156). -/
def predecessor (s : State) (k : Nat) (r : Rx) : Bool :=
  let first := fun (e l : Nat) => decide (e < r.fend) || (e == r.fend && decide (l < r.lane))
  r.node.isSome && ((s.que.rxs.zipIdx.any (fun p => p.2 != k && p.1.node == r.node && decide (p.1.stage < 3) && first p.1.fend p.1.lane)) ||
    s.lanes.any (fun p => (match p.2.ans with
      | some (.accept _ n _ _ _) => n == r.node
      | _ => false) && p.2.phy.isSome && first p.2.fend p.1))

/-- The frame is an acknowledgement. -/
def isAck (r : Rx) : Bool := r.hdr.ftype == 2

/-- The FCS value of a frame, its octets least significant first (R177). -/
def fcsValue (s : State) (r : Rx) : Nat := unoctets ((rxBytes s r).drop (RD.LENGTH.of r.dsc - r.hdr.fcs))

/-- A frame repeats the last accepted of its node (R155, R180). -/
def isDup (s : State) (r : Rx) : Bool :=
  match r.node with
  | none => false
  | some h =>
    if r.hdr.secured then decide (r.hdr.counter < s.nc h NC.RX_FC)
    else !isAck r && !r.hdr.seqSuppr && s.nc h NC.SEQ_VALID == 1 && s.nc h NC.LAST_SEQ == r.hdr.seq && s.nc h NC.LAST_FCS == fcsValue s r

/-- A frame fails a check or its MIC: block counter, partition counter, event, and its discard (R255). -/
def verifyFails (k : Nat) (r : Rx) (cnt : RegFld) (pk ev : Nat) (s : State) : State :=
  dropRx k r ((ackVerdict r false none ((s.inc cnt).inc (SEC_PCNT.COUNT r.part pk))).raise 6 ev)

/-- The slot a frame's key comes from first (R253). -/
def rxSlot (s : State) (r : Rx) : Option Nat :=
  match r.node with
  | some h => some (s.nc h NC.KEY_SLOT)
  | none => match r.pan with
    | some i => if s.on (SEC_PANKEY.EN i) then some (s.rd (SEC_PANKEY.SLOT i)) else none
    | none => none

/-- The source address of a frame's nonce (R252). -/
def nonceSource (s : State) (r : Rx) : Option Nat :=
  match r.node with
  | some h => some (s.nc h NC.EXT)
  | none => match r.hdr.src with | .ext a => some a.toNat | _ => none

/-- The verify job of a frame is issued to a free receive context (R249, R252). The key is read at issue. -/
def issueVerify (k : Nat) (r : Rx) (slot ext : Nat) (s : State) : State :=
  if !frameJobsRun s || decide (32 ≤ s.sec.rxJobs.length) then s
  else match rxParity k r s with
    | some t => t
    | none =>
      let body := (rxBytes s r).take (RD.LENGTH.of r.dsc - r.hdr.fcs)
      let ok := ccmVerify (s.kslot slot).key ext r.hdr.counter r.hdr.level r.hdr.hdrLen body
      { s with sec := { s.sec with rxJobs := s.sec.rxJobs ++ ([⟨r.descCell, ok⟩] : List RxJob) } }.setRx k { r with stage := 1, slot := slot }

/-- The key and nonce of a secured frame (checks 5 and 6 of R254). -/
def chooseAndIssue (k : Nat) (r : Rx) (s : State) : State :=
  match rxSlot s r with
  | none => verifyFails k r SEC_CNT_NO_KEY.COUNT 1 1 s
  | some j =>
    let s1 := if s.slotOwner j = r.part then s else s.bark r.part 5 2 j
    match chooseRx s r.part j r.hdr.keyMode r.hdr.keyIndex r.hdr.keySource with
    | .noKey => verifyFails k r SEC_CNT_NO_KEY.COUNT 1 1 s1
    | .mismatch => verifyFails k r SEC_CNT_KEY_MISMATCH.COUNT 1 1 s
    | .ok slot =>
      match nonceSource s r with
      | none => verifyFails k r SEC_CNT_NO_EXT.COUNT 1 1 s
      | some ext => issueVerify k r slot ext s

/-- The slot whose key a frame is secured with: the named one or its sibling, by the frame's key identifier (R150, R253). -/
def frameSlot (s : State) (r : Rx) : Option Nat :=
  match rxSlot s r with
  | some j => (match chooseRx s r.part j r.hdr.keyMode r.hdr.keyIndex r.hdr.keySource with | .ok k => some k | _ => some j)
  | none => none

/-- A duplicate is neither verified, committed nor delivered (R155); its acknowledgement stands. -/
def duplicate (k : Nat) (r : Rx) (s : State) : State :=
  let s1 := ((s.inc LNK_CNT_DUP.COUNT).inc (LNK_PCNT.COUNT r.part 1)).raise 4 1
  dropRx k r (ackVerdict r true (frameSlot s r) s1)

/-- No earlier secured frame that its predecessors do not hold back still waits for its job: jobs issue in order of arrival (R249). -/
def verifyTurn (s : State) (k : Nat) : Bool :=
  (s.que.rxs.zipIdx.take k).all (fun p => p.1.stage != 0 || !p.1.hdr.secured || predecessor s p.2 p.1)

/-- The node of a frame, read: its context's parity is checked (R195). -/
def readNode (n : Option Nat) (s : State) : State := match n with | some h => ctxCheck h s | none => s

/-- The checks before a verify job, in their order (R254), and the job. An unsecured frame that passes needs none. -/
def verifyChecks (k : Nat) (r : Rx) (s : State) : State :=
  let lvl := match r.node with | some h => s.nc h NC.SEC_LEVEL | none => 0
  if r.hdr.secured ∧ r.hdr.counter = 0xFFFFFFFF then verifyFails k r SEC_CNT_FC_MAX.COUNT 1 1 s
  else if isDup s r then duplicate k r s
  else if !isAck r ∧ lvl ≠ 0 ∧ (!r.hdr.secured ∨ r.hdr.level < lvl) then verifyFails k r SEC_CNT_LOW_LEVEL.COUNT 2 1 s
  else if !r.hdr.secured then s.setRx k { r with stage := 2 }
  else if r.hdr.level = 0 ∨ r.hdr.level = 4 then verifyFails k r SEC_CNT_BAD_LEVEL.COUNT 1 1 s
  else if verifyTurn s k then chooseAndIssue k r s else s

/-- A received frame's checks and job, once its predecessors are done with (R156, R254). -/
def verifyIssue (k : Nat) (s : State) : State :=
  match s.rx k with
  | none => s
  | some r => if r.stage ≠ 0 ∨ predecessor s k r then s else verifyChecks k r (readNode r.node s)

/-- VERIFY_ISSUE. -/
def execVerifyIssue (k : Nat) (s : State) : Host.Outcome State Fault Refusal := ranged (k < 786432) (verifyIssue k s)

/-- The result of a verify job returns (R250, R255). -/
def verifyResult (k : Nat) (s : State) : State :=
  match s.rx k with
  | none => s
  | some r =>
    match s.sec.rxJobs.find? (fun j => j.cell == r.descCell) with
    | none => s
    | some j =>
      let s1 := { s with sec := { s.sec with rxJobs := s.sec.rxJobs.filter (fun i => i.cell != r.descCell) } }
      if j.ok then seqMark 3 (seqOf r) ((ackVerdict r true (some r.slot) (s1.inc SEC_CNT_VERIFY_OK.COUNT)).setRx k { r with stage := 2 })
      else verifyFails k r SEC_CNT_MIC_FAIL.COUNT 0 0 s1

/-- VERIFY_RESULT. -/
def execVerifyResult (k : Nat) (s : State) : Host.Outcome State Fault Refusal := ranged (k < 786432) (verifyResult k s)

/-! ## Commit -/

/-- The model of a class D node takes a CSL IE of phase phi and period p seen at ref (R163, R178, R179). -/
def driftD (s : State) (ctx : BitVec 512) (ref u phi p : Nat) : BitVec 512 × Option RegFld :=
  let tObs := ref + phi * u
  let fresh := NC.ANCHOR.put ctx tObs
  if periodOf ctx = 0 ∨ p ≠ periodOf ctx then
    (putRes (putSkew (putPeriod fresh p) 0) (s.rd LNK_DRIFT_RES.R_INIT), none)
  else
    let dt : Int := (tObs : Int) - NC.ANCHOR.of ctx
    let res : Int := resOf ctx
    if (p * u : Int) ≤ 2 * ((s.rd LNK_DRIFT_CFG.G_FIX : Int) + ceilInt (dt * res) 1000000000) then (fresh, some LNK_CNT_DRIFT_UNRES.COUNT)
    else if dt ≤ 0 ∨ dt < s.rd LNK_DRIFT_SPAN.MIN_SPAN then (fresh, none)
    else
      let ph : Int := (p * u : Int) * (1000000000 + skewOf ctx)
      let e : Int := dt * 1000000000 - roundDiv (dt * 1000000000) ph * ph
      let ds := roundDiv (roundDiv e dt) (2 ^ s.rd LNK_DRIFT_CFG.SKEW_SHIFT)
      let eres := e - 1000000000 * roundDiv (ds * dt) 1000000000
      let robs := ceilInt ((eres.natAbs : Int) + u * 1000000000) dt
      let r := max (s.rd LNK_DRIFT_FLOOR.R_FLOOR : Int) (max robs (ceilInt res 2))
      (putRes (putSkew fresh (skewOf ctx + ds)) r.toNat, some LNK_CNT_DRIFT_UPD.COUNT)

/-- The node context after a frame's commit (R161-R163, R177-R180), with the counter that counts the model's update. -/
def commitCtx (s : State) (r : Rx) (ctx : BitVec 512) : BitVec 512 × Option RegFld :=
  let c1 := if r.hdr.secured then NC.RX_FC.put ctx (r.hdr.counter + 1)
    else if r.hdr.seqSuppr then ctx
    else putAll ctx [(NC.LAST_SEQ, r.hdr.seq), (NC.LAST_FCS, fcsValue s r), (NC.SEQ_VALID, 1)]
  let c2 := NC.LAST_RX.put (putFofs c1 (sgn 20 (RD.FOFS.of r.dsc))) (r.sfdTs / 16384)
  let outside := r.oow = some true
  match NC.CLASS.of ctx with
  | 1 => (if r.oow = some false ∧ r.att = none then NC.ANCHOR.put c2 r.sfdTs else c2, none)
  | 2 => match r.hdr.csl with
    | some (phi, p) =>
      if outside then (c2, none)
      else driftD s c2 (if s.on LNK_CSL_CFG.PHASE_REF then r.fend else r.sfdTs) (s.rd (LNK_RATE_UNIT.UNIT (RD.RATE.of r.dsc))) phi p
    | none => (c2, none)
  | _ => (c2, none)

/-- The commit writes the frame's node. -/
def commitNode (r : Rx) (s : State) : State :=
  match r.node with
  | none => s
  | some h =>
    let s1 := ctxCheck h s
    let c := commitCtx s1 r (s1.node h).ctx
    let s2 := s1.setNode h { s1.node h with ctx := c.1 }
    match c.2 with | some f => s2.inc f | none => s2

/-- An attempt is acknowledged: its item ends ACKED, after any cancel that came too late (R147, R160, R286). -/
def ackAttempt (a : Att) (s : State) : State :=
  let x := s.ent a.ent
  let s1 := seqMark 4 (fun i => i.att == some a.id)
    ({ s with lnk := { s.lnk with atts := s.lnk.atts.filter (fun b => b.id != a.id) } }.inc LNK_CNT_ACK_MATCH.COUNT)
  match x.item with
  | some hc => if x.node = some a.node ∧ x.st = 8 then endHeld a.ent 1 (answerCancels hc true a.node s1) else s1
  | none => s1

/-- The cluster that receives frames of type t of partition p: the lowest with EN and the type's bit set (R225). -/
def engRoute (s : State) (p t : Nat) : Option Nat :=
  (List.range 8).find? (fun c => s.on (ENG_C_RX.EN c p) && bitOn (s.rd (ENG_C_RX.TYPES c p)) t)

/-- The port of partition p that receives frames of type t (R287); one that is being disabled takes no more. -/
def rxPort (s : State) (p t : Nat) : Option Nat :=
  (List.range 1024).find? (fun q => s.on (HST_PORT_STS.EN q) && !(s.port q).closing && s.portOwner q == p && s.on (HST_PORT_CFG.RX_EN q) &&
    bitOn (s.rd (HST_PORT_CFG.TYPES q)) t)

/-- A subscriber has a receiver for a frame type. -/
def hasReceiver (s : State) (p t : Nat) : Bool := (engRoute s p t).isSome || (rxPort s p t).isSome

/-- The subscribers of a grid (R208). -/
def subscribers (s : State) (g : Nat) : List Nat :=
  (List.range 64).filter (fun p => if p < 32 then bitOn (s.rd (PRT_BSUB_LO.MASK g)) p else bitOn (s.rd (PRT_BSUB_HI.MASK g)) (p - 32))

/-- The partitions a committed frame is owed to, and the subscribers skipped (R208). -/
def owedTo (s : State) (r : Rx) : List Nat × Nat :=
  if r.bcast then
    let subs := subscribers s (RD.GRID.of r.dsc)
    if subs.isEmpty then ([0], 0)
    else
      let ok := subs.filter (fun p => hasReceiver s p r.hdr.ftype)
      (ok, subs.length - ok.length)
  else ([r.part], 0)

/-- A committed frame awaits its deliveries behind those committed before it. -/
def awaitDelivery (k : Nat) (r : Rx) (s : State) : State :=
  let o := owedTo s r
  let s1 := s.incBy PRT_CNT_BCAST_SKIP.COUNT o.2
  if o.1.isEmpty then dropRx k r s1
  else { s1 with que := { s1.que with rxs := s1.que.rxs.eraseIdx k ++ [{ r with stage := 3, owed := o.1 }] } }

/-- A frame outside its window is counted (R141). -/
def countOow (r : Rx) (s : State) : State :=
  if r.oow = some true then ((s.inc LNK_CNT_OOW.COUNT).inc (LNK_PCNT.COUNT r.part 0)).raise 4 2 else s

/-- The commit of the frame in place k (R147, R156). -/
def frameCommit (k : Nat) (s : State) : State :=
  match s.rx k with
  | none => s
  | some r =>
    if r.stage ≠ 2 ∨ predecessor s k r then s
    else
      let s1 := seqMark 6 (seqOf r) (countOow r (commitNode r s))
      match r.att with
      | some id =>
        if r.oow = some false then
          let s2 := dropRx k r s1
          match s2.lnk.atts.find? (fun a => a.id == id && !a.done) with
          | some a => ackAttempt a s2
          | none => s2
        else awaitDelivery k r s1
      | none => awaitDelivery k r s1

/-- FRAME_COMMIT. -/
def execFrameCommit (k : Nat) (s : State) : Host.Outcome State Fault Refusal := ranged (k < 786432) (frameCommit k s)

/-! ## Delivery -/

/-- Deliveries of a frame's descriptor that engines hold or that wait for them. -/
def engineOwed (s : State) (cell : Nat) : Bool := (s.eng.rxq ++ s.eng.held).any (fun q => q.2.2 == cell)

/-- A frame with no delivery owed or held is freed (R208, R226, R288). -/
def settleRx (k : Nat) (s : State) : State :=
  match s.rx k with
  | some r => if r.owed.isEmpty ∧ !engineOwed s r.descCell then dropRx k r s else s
  | none => s

/-- The delivery credits of partition p on a cluster (R225). -/
def engShare (s : State) (c p : Nat) : Nat :=
  let ps := (List.range 64).filter (fun q => s.on (ENG_C_RX.EN c q))
  if s.on (ENG_C_RX.EN c p) then 256 / ps.length + (if ps.head? = some p then 256 % ps.length else 0) else 0

/-- Deliveries of partition p outstanding on a cluster. -/
def engUsed (s : State) (c p : Nat) : Nat := ((s.eng.rxq ++ s.eng.held).filter (fun q => q.1 == c && q.2.1 == p)).length

/-- Where a frame owed to partition p goes: an engine cluster, a port, or nowhere (R225, R287). -/
inductive Route where
  | engine (c : Nat)
  | port (q : Nat)
  | nowhere
  deriving DecidableEq, Repr

/-- The route of a frame to partition p. -/
def routeOf (s : State) (r : Rx) (p : Nat) : Route :=
  if r.fcsBad then
    (if s.feature 0 8 then (match rxPort s 0 r.hdr.ftype with | some q => .port q | none => .nowhere) else .nowhere)
  else match engRoute s p r.hdr.ftype with
    | some c => .engine c
    | none => match rxPort s p r.hdr.ftype with | some q => .port q | none => .nowhere

/-- An earlier committed frame is still to go the same way for the same partition (R226, R288). -/
def behind (s : State) (k p : Nat) (w : Route) : Bool :=
  (s.que.rxs.take k).any (fun r => r.stage == 3 && r.owed.contains p && decide (routeOf s r p = w))

/-- The deliveries to host ports that frames await, in the order of their commits: place and partition (R22, R288). -/
def hostOwed (s : State) : List (Nat × Nat) :=
  s.que.rxs.zipIdx.flatMap (fun z =>
    if z.1.stage = 3 then (z.1.owed.filter (fun p => match routeOf s z.1 p with | .port _ => true | _ => false)).map (fun p => (z.2, p)) else [])

/-- The delivery-to-host credits held: each awaited delivery takes one in its turn while there is one (R21, R22, R197). -/
def hostCredits (s : State) : Nat := 4096 - (hostOwed s).length

/-- A frame's delivery to a partition's port holds one of the 4,096 credits (R22). -/
def hostCredited (s : State) (k p : Nat) : Bool := ((hostOwed s).take 4096).contains (k, p)

/-- A delivery of a broadcast is counted (R208). -/
def countBcast (r : Rx) (s : State) : State := if r.bcast then s.inc PRT_CNT_BCAST.COUNT else s

/-- A committed frame's descriptor goes to the lowest qualifying cluster when its share has a credit and the cluster is ON
(R225, R361). -/
def engineDelivery (k : Nat) (s : State) : State :=
  match s.rx k with
  | none => s
  | some r =>
    match r.owed with
    | [] => s
    | p :: ps =>
      match routeOf s r p with
      | .engine c =>
        if r.stage = 3 ∧ !behind s k p (.engine c) ∧ engUsed s c p < engShare s c p ∧ s.rd (ENG_C_STS.PSTATE c) = 2 then
          match rxParity k r s with
          | some t => t
          | none =>
            let s1 := s.setRx k { r with owed := ps }
            countBcast r { s1 with eng := { s1.eng with rxq := s1.eng.rxq ++ [(c, p, r.descCell)] } }
        else s
      | _ => s

/-- ENGINE_DELIVERY. -/
def execEngineDelivery (k : Nat) (s : State) : Host.Outcome State Fault Refusal := ranged (k < 786432) (engineDelivery k s)

/-- A frame is written into the buffer of a POST_RX command, which completes (R288). -/
def fillBuffer (q x p : Nat) (c : Ctx) (r : Rx) (s : State) : State :=
  let len := SQ.LEN.of c.sq
  let psdu := rxBytes s r
  let out := psdu.take (len - 64)
  let d := putAll r.dsc [(RD.PART, if r.bcast then p else RD.PART.of r.dsc), (RD.FIRST_CELL, noCell)]
  let a := SQ.ADDR.of c.sq
  let fn := s.portOwner q
  let pt := s.port q
  let s1 := (s.post (.dmaWrite fn a (recBytes 64 d))).post (.dmaWrite fn (a + 64) out)
  let s2 := s1.setPort q { pt with posted := pt.posted.filter (fun y => y != x) }
  (s2.complete x (if psdu.length ≤ len - 64 then 0x18 else 0x19) 0 0 out.length psdu.length).inc (HST_PCNT.COUNT p 3)

/-- A committed frame is written into the oldest buffer waiting on its port, or freed where no port qualifies (R287, R288). -/
def rxDelivery (k : Nat) (s : State) : State :=
  match s.rx k with
  | none => s
  | some r =>
    match r.owed with
    | [] => s
    | p :: ps =>
      if r.stage ≠ 3 then s
      else match routeOf s r p with
        | .engine _ => s
        | .nowhere =>
          let s1 := if r.fcsBad ∧ !s.feature 0 8 then s
            else if r.bcast ∧ (subscribers s (RD.GRID.of r.dsc)).contains p then s.inc PRT_CNT_BCAST_SKIP.COUNT
            else s.inc (HST_PCNT.COUNT p 4)
          settleRx k (s1.setRx k { r with owed := ps })
        | .port q =>
          let pt := s.port q
          match pt.posted with
          | [] => s
          | x :: _ =>
            if behind s k p (.port q) ∨ !hostCredited s k p ∨ !(s.func (s.portOwner q)).bme then s
            else match rxParity k r s, s.ctx x with
              | some t, _ => t
              | none, some c => settleRx k ((countBcast r (fillBuffer q x p c r s)).setRx k { r with owed := ps })
              | none, none => s

/-- RX_DELIVERY. -/
def execRxDelivery (k : Nat) (s : State) : Host.Outcome State Fault Refusal := ranged (k < 786432) (rxDelivery k s)

/-! ## Acknowledgements (R148-R153) -/

/-- The content of the time-correction IE for a TCORR in ticks: µs to the nearest, an exact half towards zero, saturated (R172). -/
def tcorrIe (v : Int) : Nat :=
  let us : Int := if 0 ≤ v then (v + 15) / 32 else -((-v + 15) / 32)
  unsgn 12 (clampInt (-2047) 2047 us)

/-- The frame-pending bit at the build (R152). -/
def pendingBit (s : State) (n : Option Nat) : Bool :=
  match n with
  | none => false
  | some h => (headItem s h).isSome ||
      s.txc.ents.any (fun p => !isSlot p.1 && p.2.node == some h && [1, 2, 3, 4, 5].contains p.2.st && !p.2.dead) ||
      s.lnk.scheds.any (fun d => d.ent.node == some h)

/-- The entry of an acknowledgement (R149-R152, R206, R307). -/
def ackEnt (a : AckReq) (pend : Bool) (s : State) : Ent :=
  let enh := a.hdr.version == 2
  let fm := if enh then formatOf s 1 2 2 else formatOf s 0 1 1
  let sec := enh && a.hdr.secured
  let chain := match a.node with | some h => s.nc h NC.CHAIN | none => bf (s.reg LNK_ANTMAP.reg) (4 * a.ant) 3
  let m := buildMac s fm pend sec a.hdr.seq (a.pan.getD 0) a.node (if a.tsch then some (tcorrIe a.tcorr) else none) none
  let lvl := if sec then a.hdr.level else 0
  let slot := a.slot.getD (match a.node with | some h => s.nc h NC.KEY_SLOT | none => 0)
  let len := m.1.length + (if sec then auxOf fm (s.kslot slot).mode + micLen lvl else 0) + fcsLen s a.rate
  let c := curveOf s chain a.grid a.chan
  let dur := frameTicks s a.rate len
  { kind := 1, chain := chain, part := a.part, node := a.node
    air := a.fend + (if a.tsch then s.rd LNK_TSCH_TX_ACK_DLY.TICKS else s.rd (LNK_RATE_TURN.TURN a.rate))
    grid := a.grid, chan := a.chan, rate := a.rate
    freqAdj := if s.on LNK_CTRL.FOLLOW_FOFS then clampInt (-131071) 131071 (sgn 20 a.fofs) else 0
    secure := sec, level := lvl, len := len, dur := dur, slot := if sec then some slot else none, pend := pend
    mac := m.1, hdrLen := m.1.length, auxAt := m.2, noAux := FM.INS_AUX.of fm == 0, pan := some (a.pan.getD 0), tUp := tUp s c, tDown := tDown s c
    listen := match a.node with | some h => 16384 * s.nc h NC.LISTEN | none => 0
    charge := useTicks s c dur, period := airPeriod s }

/-- The follow-up of an acknowledgement with its pending bit set: the head frame of a class A or D node (R153). -/
def followUp (x : Ent) (s0 : State) : State :=
  match x.node with
  | none => s0
  | some h =>
    match headItem s0 h with
    | none => s0
    | some hc =>
      let r := readHeaders h [hc] (ctxCheck h s0)
      let s := r.1
      if r.2 ∧ x.pend ∧ (s.nc h NC.CLASS = 0 ∨ s.nc h NC.CLASS = 2) ∧ mayTake s h then
        let aEnd := x.air + x.dur
        let y := entOf s h hc 4 (aEnd + s.rd (LNK_RATE_TURN.TURN x.rate)) (itemChain s h hc) (s.ih hc IH.GRID) (s.ih hc IH.CHAN)
          (s.ih hc IH.ACK_REQ == 1)
        placeItem h hc { y with aEnd := aEnd, listen := x.listen } s
      else s

/-- The k-th acknowledgement request's build instant (R149, R150, R206). -/
def ackBuild (k : Nat) (s0 : State) : State :=
  match s0.lnk.acks[k]? with
  | none => s0
  | some a =>
    let t := readNode a.node (s0.at_ (a.fend + 2048))
    let s := { t with lnk := { t.lnk with acks := t.lnk.acks.eraseIdx k } }
    match a.verdict with
    | none => (s.inc LNK_CNT_ENHACK_LATE.COUNT).raise 4 0
    | some false => s
    | some true =>
      let x := ackEnt a (pendingBit s a.node) s
      match stageSlot x s with
      | none => (s.inc LNK_CNT_ACK_NOCRED.COUNT).raise 4 0
      | some r => followUp x ((chargeAir x.part x.charge r.1).inc LNK_CNT_ACK.COUNT)

/-- ACK_BUILD. -/
def execAckBuild (k : Nat) (s : State) : Host.Outcome State Fault Refusal := ranged (k < 1024) (ackBuild k s)

end Sys2Proof.Machine
end

