-- ==== Sys2Proof/Machine/Nodes.lean ====
section
/-! DEFINITION. Node operations, queue writes, pruning, the sweep and the NTW window (R176, R183-R191, R196-R198, R204). -/

namespace Sys2Proof.Machine

/-! ## Node operations (R183, R184) -/

/-- The fields of a context that must be zero in a broadcast queue (R176). -/
def bcastZero (imp : Bool) (x : BitVec 512) : Bool :=
  [NC.SHORT_VALID, NC.SHORT, NC.EXT, NC.SEC_LEVEL, NC.KEY_SLOT].all (fun f => f.of x == 0) &&
    (!imp || NC.commit.all (fun f => f.of x == 0))

/-- The supplied fields of handle h's context give BAD_FIELD (R176, R183, R200). -/
def badField (s : State) (h : Nat) (imp : Bool) (x : BitVec 512) : Bool :=
  let i := NC.PAN.of x
  let p := NC.PART.of x
  !s.on (LNK_PAN_CFG.EN i) || s.rd (LNK_PAN_CFG.PART i) != p || s.handleOwner h != p || !s.on (TXC_CH_CTRL.EN (NC.CHAIN.of x)) ||
    (if NC.CLASS.of x = 3 then !bcastZero imp x else s.slotOwner (NC.KEY_SLOT.of x) != p || NC.SEC_LEVEL.of x == 4)

/-- An empty queue's fields in a context. -/
def emptyQueue (x : BitVec 512) : BitVec 512 :=
  putAll x [(NC.QLEN, 0), (NC.HEAD, noCell), (NC.QOVR, 0), (NC.TAIL 0, noCell), (NC.TAIL 1, noCell), (NC.TAIL 2, noCell), (NC.TAIL 3, noCell)]

/-- ADD (R183): the state after it and its status. -/
def nodeAdd (h : Nat) (imp : Bool) (x : BitVec 512) (s : State) : State × Nat :=
  if (s.node h).life ≠ 0 then (s, 1)
  else if badField s h imp x then (s, 5)
  else
    let r := idxInsertAll h (NC.PAN.of x) (ctxKeys x) s
    if r.2 = 0 then
      let c := takeFields (NC.host ++ if imp then NC.commit else []) x 0
      (r.1.setNode h { ctx := NC.VALID.put (emptyQueue c) 1, life := 1 }, 0)
    else (if r.2 = 4 then s.inc QUE_CNT_IDX_FAIL.COUNT else s, r.2)

/-- The context UPDATE leaves (R184). -/
def updatedCtx (imp dup drift : Bool) (old x : BitVec 512) : BitVec 512 :=
  let c1 := takeFields (NC.host ++ if imp then NC.commit else []) x old
  let c2 := if dup || NC.KEY_SLOT.of x != NC.KEY_SLOT.of old then zeroFields [NC.RX_FC, NC.SEQ_VALID] c1 else c1
  if drift || NC.CLASS.of x != NC.CLASS.of old then zeroFields NC.drift c2 else c2

/-- UPDATE (R184): a key that the address fields keep stays in its place. -/
def nodeUpdate (h : Nat) (imp dup drift : Bool) (x : BitVec 512) (s0 : State) : State × Nat :=
  let s := ctxCheck h s0
  let n := s.node h
  if n.life ≠ 1 then (s, 2)
  else if badField s h imp x ∨ NC.PART.of x ≠ NC.PART.of n.ctx then (s, 5)
  else if n.poison ∧ !imp then (s, 6)
  else
    let old := ctxPanKeys n.ctx
    let new := ctxPanKeys x
    let r := idxInsertAll h (NC.PAN.of x) ((new.filter (fun k => !old.contains k)).map (·.2)) (idxDrop (old.filter (fun k => !new.contains k)) s)
    if r.2 = 0 then
      let s1 := r.1.setNode h { n with ctx := updatedCtx imp dup drift n.ctx x, poison := false, badPar := if imp then 0 else n.badPar }
      (squashNode 3 h s1, 0)
    else (if r.2 = 4 then s.inc QUE_CNT_IDX_FAIL.COUNT else s, r.2)

/-- The first two steps of PRUNE (R186). -/
def nodePrune (h : Nat) (w : PruneFor) (s0 : State) : State × Nat :=
  let s := ctxCheck h s0
  if (s.node h).life ≠ 1 then (s, 2)
  else
    let s1 := s.setNode h { s.node h with life := 2 }
    (squashNode 4 h { s1 with que := { s1.que with prunes := s1.que.prunes ++ [(h, w)] } }, 0)

/-- READ's status; the check it makes may poison the context (R183, R195). -/
def nodeRead (h : Nat) (s0 : State) : State × Nat :=
  let s := ctxCheck h s0
  (s, if (s.node h).life = 0 then 2 else 0)

/-- QSET (R183). -/
def nodeQset (h : Nat) (hold clr : Bool) (s0 : State) : State × Nat :=
  let s := ctxCheck h s0
  if (s.node h).life ≠ 1 then (s, 2)
  else if (s.node h).poison then (s, 6)
  else
    let s1 := s.ncPut h NC.QHOLD (if hold then 1 else 0)
    (if clr then s1.ncPut h NC.QOVR 0 else s1, 0)

/-- The result of an operation in the layout of QUE_NRES (R197): the hidden state after a READ. -/
def nresWord (s : State) (h op status : Nat) : Word :=
  let n := s.node h
  if op = 4 then BitVec.ofNat 32 (status + 16 * n.life + (if n.poison then 64 else 0) + 65536 * n.badPar.toNat) else BitVec.ofNat 32 status

/-- A frame of the node is between its end and its commit or discard, so a node operation waits (R185). -/
def nodeBusy (s : State) (h : Nat) : Bool :=
  s.que.rxs.any (fun r => r.node == some h && decide (r.stage < 3) && !r.fcsBad) ||
    s.lanes.any (fun p => p.2.phy.isSome && decide (p.2.fend ≤ s.atb) &&
      (match p.2.ans with | some (.accept _ n _ _ _) => n == some h | _ => false))

/-- One node operation of the word that QUE_NCMD holds, with the supplied context (R183, R197). -/
def nodeOp (op : Nat) (v : Word) (x : BitVec 512) (w : PruneFor) (s : State) : State × Nat :=
  let h := NW.HANDLE.of v
  match op with
  | 1 => nodeAdd h (NW.IMPORT.of v == 1) x s
  | 2 => nodeUpdate h (NW.IMPORT.of v == 1) (NW.RESET_DUP.of v == 1) (NW.RESET_DRIFT.of v == 1) x s
  | 3 => nodePrune h w s
  | 4 => nodeRead h s
  | _ => nodeQset h (NW.QHOLD_VAL.of v == 1) (NW.CLR_OVR.of v == 1) s

/-- QUE_NDATA as one context. -/
def ndata (s : State) : BitVec 512 :=
  BitVec.ofNat 512 ((List.range 16).foldr (fun w acc => (s.reg (QUE_NDATA.reg w)).toNat + 2 ^ 32 * acc) 0)

/-- QUE_NDATA takes a context. -/
def putNdata (x : BitVec 512) (s : State) : State :=
  (List.range 16).foldl (fun u w => u.setReg (QUE_NDATA.reg w) (BitVec.ofNat 32 (bf x (32 * w) 32))) s

/-- The owner's operation runs: it ends at once, but for a prune that has begun (R186). -/
def ncmdRun (op : Nat) (v : Word) (s : State) : State :=
  let h := NW.HANDLE.of v
  let r := nodeOp op v (ndata s) .reg s
  if op = 3 ∧ r.2 = 0 then { r.1.wr QUE_NCMD.BUSY 1 with que := { r.1.que with ncmd := none } }
  else
    let s1 := ({ r.1 with que := { r.1.que with ncmd := none } }.wr QUE_NCMD.BUSY 0).setReg QUE_NRES.reg (nresWord r.1 h op r.2)
    if op = 4 ∧ r.2 = 0 then putNdata (s1.node h).ctx s1 else s1

/-- The owner's operation must wait: for frames of the node (R185), or for the reset of its partition (R211). -/
def ncmdWaits (s : State) (h : Nat) : Bool := nodeBusy s h || s.prt.resets.any (fun r => r.part == s.handleOwner h)

/-- A write of QUE_NCMD with an operation: it runs, or waits with BUSY set; a command that repeats the waiting word is its execution
once nothing holds it back. Writes are ignored while another runs (R197). -/
def ncmd (op : Nat) (v0 : Word) (s : State) : State :=
  let v := NW.OP.put v0 op
  let h := NW.HANDLE.of v
  if s.on QUE_NCMD.BUSY then (if s.que.ncmd = some v ∧ !ncmdWaits s h then ncmdRun op v s else s)
  else
    let s1 := s.regWrite QUE_NCMD.reg v
    if ncmdWaits s h then { s1.wr QUE_NCMD.BUSY 1 with que := { s1.que with ncmd := some v } } else ncmdRun op v s1

/-- NODE_OP_ADD. -/
def execNodeOpAdd (f : Fn) (v : Word) (s : State) : Host.Outcome State Fault Refusal := .next (s.p0Only f QUE_NCMD.reg (ncmd 1 v s))
/-- NODE_OP_UPDATE. -/
def execNodeOpUpdate (f : Fn) (v : Word) (s : State) : Host.Outcome State Fault Refusal := .next (s.p0Only f QUE_NCMD.reg (ncmd 2 v s))
/-- NODE_OP_PRUNE. -/
def execNodeOpPrune (f : Fn) (v : Word) (s : State) : Host.Outcome State Fault Refusal := .next (s.p0Only f QUE_NCMD.reg (ncmd 3 v s))
/-- NODE_OP_READ. -/
def execNodeOpRead (f : Fn) (v : Word) (s : State) : Host.Outcome State Fault Refusal := .next (s.p0Only f QUE_NCMD.reg (ncmd 4 v s))
/-- NODE_OP_QSET. -/
def execNodeOpQset (f : Fn) (v : Word) (s : State) : Host.Outcome State Fault Refusal := .next (s.p0Only f QUE_NCMD.reg (ncmd 5 v s))

/-! ## Pruning and sweep -/

/-- Step 3 of pruning: the node has no entry committed, on the air or with an open wait, and no lane (R186). -/
def pruneClear (s : State) (h : Nat) : Bool :=
  !s.txc.ents.any (fun p => p.2.node == some h && [6, 7].contains p.2.st) &&
    !s.lnk.atts.any (fun a => a.node == h && !a.done && !a.closed) &&
    !s.lanes.any (fun p => match p.2.ans with | some (.accept _ n _ _ _) => n == some h | _ => false) && !nodeBusy s h

/-- The engine instruction that waited takes its result and retires. -/
def engResult (c rd v : Nat) (s : State) : State := goOn c 40 (s.setG c rd (BitVec.ofNat 32 v))

/-- A prune's requester hears of its end. -/
def pruneTold (w : PruneFor) (s : State) : State :=
  match w with
  | .reg => (s.wr QUE_NCMD.BUSY 0).setReg QUE_NRES.reg 0
  | .host x => s.complete x 0 0 0 0 0
  | .engine c rd => engResult c rd 0 s
  | .reset => s

/-- The scan frees one cell of the node's, reporting a header whose item has not ended. -/
def sweepCell (h : Nat) (s : State) (k : Nat) : State :=
  let c := s.cell k
  if c.owner = some h then freeCell (if c.hdrCell then tellOrigin h k 0x10 s else s) k else s

/-- A node's items still queued end with a status, in read order, up to the first whose header is bad: the items from it on are found by the
scan of R196 and end with the poisoned status. -/
def endQueue (h status : Nat) (s : State) : State :=
  let items := queueItems s h
  let good := items.takeWhile (fun hc => !badCell (s.cell hc))
  let s1 := good.foldl (fun u hc => endItem h hc status (unlinkItem h hc u)) s
  match items[good.length]? with
  | some hc => (skeys s1.que.cells).foldl (sweepCell h) (cellParity hc s1)
  | none => s1

/-- Steps 4 and 5 of pruning (R186). -/
def pruneEnd (h : Nat) (s : State) : State :=
  let s1 := idxRemove h (endQueue h 0x12 s)
  let mine := s1.que.prunes.filter (fun p => p.1 == h)
  let s2 := { s1.setNode h {} with que := { (s1.setNode h {}).que with prunes := s1.que.prunes.filter (fun p => p.1 != h) } }
  mine.foldl (fun u p => pruneTold p.2 u) ((s2.inc QUE_CNT_PRUNED.COUNT).raise 5 4)

/-- PRUNE_COMPLETE. -/
def execPruneComplete (h : Nat) (s : State) : Host.Outcome State Fault Refusal :=
  ranged (h < 65536) (if (s.node h).life = 2 ∧ pruneClear s h then pruneEnd h s else s)

/-- The header cells of a node's items that staging holds. -/
def stagedOf (s : State) (h : Nat) : List Nat :=
  ((s.txc.ents.map (·.2)).filter (fun x => x.node == some h && (x.kind == 0 || x.kind == 4) && x.st != 0)).filterMap (·.item) ++
    (s.lnk.scheds.filter (fun d => d.ent.node == some h && d.ent.kind != 3)).filterMap (·.ent.item)

/-- The sweep of a context ends (R196). -/
def sweepDone (h : Nat) (s : State) : State :=
  if (s.node h).life = 3 then
    let staged := stagedOf s h
    let keep := staged.flatMap (itemCells s)
    let s1 := ((skeys s.que.cells).filter (fun k => !keep.contains k)).foldl (sweepCell h) s
    let n := s1.node h
    let s2 := s1.setNode h { n with life := 1, ctx := NC.QLEN.put (emptyQueue n.ctx) staged.length |> fun x => NC.QOVR.put x (NC.QOVR.of n.ctx) }
    let sw := s2.que.sweeps.filter (fun j => j != h)
    ({ s2 with que := { s2.que with sweeps := sw } }.wr QUE_STS.SWEEP (if sw.isEmpty then 0 else 1)).raise 5 5
  else s

/-- SWEEP_DONE. -/
def execSweepDone (h : Nat) (s : State) : Host.Outcome State Fault Refusal := ranged (h < 65536) (sweepDone h s)

/-! ## Queue writes (R187-R190) -/

/-- The auxiliary security header a write counts with: that of the slot chosen now, or the shortest where none can be (R187). -/
def writeAux (s : State) (h : Nat) (hdr : BitVec 512) : Nat :=
  if IH.SECURE.of hdr = 0 then 0
  else match chooseTx s (s.nc h NC.KEY_SLOT) (IH.KEY_INDEX.of hdr) (IH.KEY_IDX_EN.of hdr == 1) with
    | some k => if holdsKey s k then auxLen (s.kslot k).mode else 5
    | none => 5

/-- A frame is too long for its PHY (R187). -/
def tooLong (s : State) (h : Nat) (hdr : BitVec 512) : Bool :=
  let r := IH.RATE.of hdr
  let mic := if IH.SECURE.of hdr = 1 then micLen (s.nc h NC.SEC_LEVEL) else 0
  decide (maxPsdu r < IH.LENGTH.of hdr + writeAux s h hdr + mic + fcsLen s r)

/-- A write refused as full (R190). -/
def writeFull (p h : Nat) (s : State) : State :=
  ((((s.ncPut h NC.QOVR 1).inc QUE_CNT_WR_FULL.COUNT).inc (QUE_PFULL.COUNT p)).raise 5 0)

/-- A node queue write by partition p (R190): the state after it, and the header cell or the status of its refusal. -/
def queueWrite (p h : Nat) (hdr : BitVec 512) (data : List Byte) (s0 : State) : State × Nat × Option Nat :=
  let s := ctxCheck h s0
  let n := 1 + ceilDiv data.length 64
  if (s.node h).life ≠ 1 then (s, 0x0F, none)
  else if (s.node h).poison then (s, 0x10, none)
  else if tooLong s h hdr then (s, 0x11, none)
  else if s.rd QUE_QMAX.MAX ≤ s.nc h NC.QLEN ∨ !cellsOk s p n (s.rd QUE_RX_RESERVE.CELLS) ∨ !s.on QUE_CTRL.WR_EN then (writeFull p h s, 0x0E, none)
  else if (linkPoint s h (IH.PRIO.of hdr) true).any (fun k => badCell (s.cell k)) then
    ((readHeaders h (linkPoint s h (IH.PRIO.of hdr) true) s).1, 0x0F, none)
  else
    let r := takeCells p n s
    let hc := r.2.headD noCell
    let dc := r.2.drop 1
    let s1 := fillChain dc (chunks64 64 data) (some h) r.1
    let x := putAll hdr [(IH.ATTEMPTS, 0), (IH.FIRST_DATA, dc.headD noCell)]
    let s2 := s1.setCell hc { s1.cell hc with data := x, next := dc.headD noCell, last := dc.isEmpty, owner := some h, hdrCell := true }
    ((linkItem h hc s2).ncPut h NC.QLEN (s2.nc h NC.QLEN + 1), 0, some hc)

/-! ## The NTW window (R198) -/

/-- A read of word 0 of a context captures all its words. -/
def ntwTake (h : Nat) (s : State) : State :=
  let s1 := ctxCheck h s
  { s1 with que := { s1.que with ntwShadow := if (s1.node h).life = 0 then 0 else (s1.node h).ctx, ntwOf := some h } }

/-- The captured word w. -/
def ntwWord (s : State) (w : Nat) : Word := BitVec.ofNat 32 (bf s.que.ntwShadow (32 * w) 32)

/-- The read of word 0 with its answer. -/
def ntwCapture (h : Nat) (s : State) : State := (ntwTake h s).post (.readData (ntwWord (ntwTake h s) 0))

/-- NTW_CAPTURE: the window is reachable only from the physical function. -/
def execNtwCapture (f : Fn) (h : Nat) (s : State) : Host.Outcome State Fault Refusal :=
  ranged (h < 65536) (
    if s.pwr.mode ≠ 0 then s
    else if f ≠ .pf then (s.bark (fnTag f) (fnKind f) 0 (0x1000000 + 64 * h)).post (.readData 0)
    else if s.hidden f (0x1000000 + 64 * h) then (s.unmapped (0x1000000 + 64 * h)).post (.readData 0)
    else ntwCapture h s)

/-- A write to the window has no effect but its count. -/
def ntwWrite (s : State) : State := (s.inc QUE_CNT_NTW_WR.COUNT).raise 5 3

/-- NTW_WRITE. -/
def execNtwWrite (f : Fn) (off : Nat) (_v : Word) (s : State) : Host.Outcome State Fault Refusal :=
  ranged (off < 0x400000) (if f = .pf then s.reach f (0x1000000 + off) (ntwWrite s)
    else if s.pwr.mode ≠ 0 then s else s.bark (fnTag f) (fnKind f) 0 (0x1000000 + off))

/-! ## Reserve and counters -/

/-- A live write that breaks a sum of R204 sets PRT_MAP_ERR. -/
def mapErr (off : Nat) (que : Bool) (s : State) : State :=
  (((s.wr PRT_MAP_ERR.OFFSET off).wr PRT_MAP_ERR.QUE (if que then 1 else 0)).wr PRT_MAP_ERR.SET 1).raise 7 2

/-- The sum of the cell guarantees. -/
def cellGuarSum (s : State) : Nat := ((List.range 64).map (fun q => s.rd (PRT_P_CELL_GUAR.GUAR q))).sum

/-- A write of QUE_RX_RESERVE (R204). -/
def rxReserveWrite (v : Nat) (s : State) : State :=
  if s.locked QUE_RX_RESERVE.reg then s
  else if 786432 < cellGuarSum s + v % 2 ^ 20 then mapErr 0x000C true s
  else s.wr QUE_RX_RESERVE.CELLS v

/-- RX_RESERVE_WRITE. -/
def execRxReserveWrite (f : Fn) (v : Nat) (s : State) : Host.Outcome State Fault Refusal :=
  .next (s.p0Only f QUE_RX_RESERVE.reg (rxReserveWrite v s))

/-- QUE_CNT_CLR.BLOCK. -/
def execQueCntClrBlock (f : Fn) (s : State) : Host.Outcome State Fault Refusal :=
  .next (s.p0Only f QUE_CNT_CLR.reg ((s.zero [QUE_CNT_WR_FULL.COUNT, QUE_CNT_CELL_PAR.COUNT, QUE_CNT_CTX_PAR.COUNT,
    QUE_CNT_RX_PAR_DROP.COUNT, QUE_CNT_POISON_REJ.COUNT, QUE_CNT_PRUNED.COUNT, QUE_CNT_IDX_FAIL.COUNT, QUE_CNT_NTW_WR.COUNT]).wr
    QUE_FREE_MIN.MIN (s.rd QUE_STS.FREE)))

/-- QUE_CNT_CLR.PART. -/
def execQueCntClrPart (f : Fn) (s : State) : Host.Outcome State Fault Refusal :=
  .next (s.p0Only f QUE_CNT_CLR.reg (s.zero ((List.range 64).map QUE_PFULL.COUNT)))

end Sys2Proof.Machine
end

