-- ==== Sys2Proof/Machine/Engines.lean ====
section
/-! DEFINITION. The engines' queue instructions (R224-R230), the cancel of an item (R160), the reading of an instruction word (R217),
and what the owner does to engines, clusters and supervisors (R236-R241). -/

namespace Sys2Proof.Machine

/-! ## Operands of queue instructions (R224) -/

/-- The exception a pointer raises that is misaligned or does not lie wholly inside DMEM. -/
def ptrExc (a len : Nat) : Option Nat := if a % 4 ≠ 0 then some 2 else if a < 0x10000 ∨ 0x20000 < a + len then some 3 else none

/-- BAR0 offset of a DMEM address of an engine. -/
def dmemOff (e a : Nat) : Nat := dmemBase e + (a - 0x10000)

/-- A queue instruction with a pointer to len bytes: ILLEGAL on a supervisor, then the pointer's exceptions, then its own work on
the address. -/
def withPtr (w ra len : Nat) (k : Nat → Nat → State → Ret) : Body := fun c s =>
  let a := (s.g c ra).toNat
  if isSup c then .exc s 1 w
  else match ptrExc a len with
    | some x => .exc s x a
    | none => k a c s

/-- A word of DMEM that an instruction reads has bad parity: its address (R233). -/
def badDmem (s : State) (c a n : Nat) : Option Nat :=
  ((List.range (ceilDiv n 4)).map (fun k => a + 4 * k)).find? (fun w => parityBad s (dmemOff c w))

/-- An instruction that reads n bytes of DMEM raises PARITY where one of their words fails (R233). -/
def readsDmem (a n : Nat) (k : Nat → State → Ret) : Nat → State → Ret := fun c s =>
  match badDmem s c a n with
  | some w => .exc s 5 w
  | none => k c s

/-- A bark refusal of an engine's request: ACCESS with the resource's index (R201, R233). -/
def barkExc (c tgt idx : Nat) (s : State) : Ret := .exc (s.bark (s.engOwner c) 3 tgt idx) 3 idx

/-- An instruction that returns a status. -/
def status (c rd v cyc : Nat) (s : State) : Ret := .done (s.setG c rd (BitVec.ofNat 32 v)) cyc

/-! ## Receive side (R226) -/

/-- QRX: the oldest waiting descriptor of the engine's partition, with its receiver in PART. -/
def iQrx (rd ra : Nat) : Body := withPtr (rWord 0x38 rd ra 0 0) ra 64 (fun a c s =>
  match s.eng.rxq.find? (fun q => q.1 == c / 8 && q.2.1 == s.engOwner c) with
  | none => status c rd 1 20 s
  | some q =>
    let d := RD.PART.put (((s.que.rxs.find? (fun r => r.descCell == q.2.2)).map (·.dsc)).getD 0) q.2.1
    let s1 := { s with eng := { s.eng with rxq := s.eng.rxq.erase q, held := s.eng.held ++ [q] } }
    status c rd (256 * q.2.2) 20 (s1.store (some c) (dmemOff c a) (recBytes 64 d)))

/-- A cell that partition p may read: its own, or one of a frame delivered to it (R200, R208). -/
def mayReadCell (s : State) (p k : Nat) : Bool :=
  (s.cell k).acct == some p || s.que.rxs.any (fun r => s.eng.held.any (fun q => q.2.1 == p && q.2.2 == r.descCell) && (r.descCell :: r.cells).contains k)

/-- CRD: a cell and its sideband word. -/
def iCrd (rd ra rb : Nat) : Body := withPtr (rWord 0x39 rd ra rb 0) ra 68 (fun a c s =>
  let k := (s.g c rb).toNat % 2 ^ 20
  let x := s.cell k
  if !mayReadCell s (s.engOwner c) k then barkExc c 9 k s
  else if badCell x then status c rd 4 20 (cellParity k s)
  else
    let side := x.next + (if x.last then 2 ^ 20 else 0) + 2 ^ 21 * x.count
    status c rd 0 20 (s.store (some c) (dmemOff c a) (recBytes 64 (recOf 512 (cellBytes x)) ++ octets 4 side)))

/-- The place of the frame with a descriptor cell. -/
def placeOf (s : State) (cell : Nat) : Nat := s.que.rxs.findIdx (fun r => r.descCell == cell)

/-- CREL: a delivery the engine's partition holds is released. -/
def iCrel (rd ra : Nat) : Body := fun c s =>
  if isSup c then .exc s 1 (rWord 0x3A rd ra 0 0)
  else
    let k := (s.g c ra).toNat % 2 ^ 20
    let p := s.engOwner c
    match s.eng.held.find? (fun q => q.2.1 == p && q.2.2 == k) with
    | some q => status c rd 0 8 (settleRx (placeOf s k) { s with eng := { s.eng with held := s.eng.held.erase q } })
    | none => if (s.cell k).acct = some p then status c rd 7 8 s else barkExc c 9 k s

/-! ## QWR (R227) -/

/-- A reserved bit of an item header image is set (R187). -/
def hdrReserved (x : BitVec 512) : Bool :=
  [fld 0x00 29 3, fld 0x08 11 1, fld 0x08 28 4, fld 0x0C 14 2, fld 0x0C 28 4, fld 0x18 20 12, fld 0x1C 9 23].any (fun f => f.of x != 0)

/-- The status of a refused write in an engine's coding (R224). -/
def qwrStatus (st : Nat) : Nat := match st with | 0x0E => 2 | 0x0F => 3 | 0x10 => 4 | 0x11 => 5 | _ => 0

/-- QWR. -/
def iQwr (rd ra rb : Nat) : Body := withPtr (rWord 0x3B rd ra rb 0) ra 32 (fun a => readsDmem a 32 (fun c s =>
  let h := (s.g c rb).toNat % 65536
  let p := s.engOwner c
  let x := putAll (recOf 512 (s.bytes (dmemOff c a) 32)) [(IH.ORIGIN, 1)]
  let len := IH.LENGTH.of x
  if 0x20000 < a + 32 + len then .exc s 3 a
  else if s.handleOwner h ≠ p then barkExc c 1 h s
  else if hdrReserved x ∨ !txEnabled s (IH.RATE.of x) (IH.GRID.of x) (IH.CHAN.of x) then status c rd 7 24 s
  else if 64 ≤ (s.eng.outst.filter (fun q => q.1 == c)).length then status c rd 6 24 s
  else readsDmem (a + 32) len (fun c s =>
    let hdr := IH.ENGINE.put (fld 0x04 6 10 |>.put x 0) c
    let r := queueWrite p h hdr (s.bytes (dmemOff c (a + 32)) len) s
    match r.2.2 with
    | none => status c rd (qwrStatus r.2.1) 24 r.1
    | some hc => status c rd 0 (24 + 2 * ceilDiv len 64) { r.1 with eng := { r.1.eng with outst := r.1.eng.outst ++ [(c, hc)] } }) c s))

/-! ## NTF (R228) -/

/-- The octets of a notice. -/
def noticeBytes (n : Notice) : List Byte :=
  octets 4 (n.kind + 256 * n.status + 65536 * n.attempts) ++ octets 4 (n.cookie + 65536 * n.node) ++ octets 8 n.lastAir

/-- NTF: the oldest notice. -/
def iNtf (rd ra : Nat) : Body := withPtr (rWord 0x3E rd ra 0 0) ra 16 (fun a c s =>
  match noticesOf s c with
  | [] => status c rd 1 8 s
  | n :: ns =>
    let s1 := { s with eng := { s.eng with notices := sset (fun _ => []) s.eng.notices c ns } }
    status c rd 0 8 (s1.store (some c) (dmemOff c a) (noticeBytes n)))

/-! ## NCMD (R229) -/

/-- NCMD: it waits as node operations wait, and a prune holds the engine to its end. A reserved code's result is a free value. -/
def iNcmd (rd ra rb : Nat) : Body := withPtr (rWord 0x3C rd ra rb 0) ra 64 (fun a c s =>
  let v := s.g c rb
  let h := NW.HANDLE.of v
  let op := NW.OP.of v
  if s.handleOwner h ≠ s.engOwner c then barkExc c 1 h s
  else if op = 0 ∨ 5 < op then status c rd (s.freeVal (2 ^ 32)) 40 s.freed
  else if nodeBusy s h then .hold (s.setCore c { s.core c with issued := true })
  else readsDmem a (if op = 1 ∨ op = 2 then 64 else 0) (fun c s =>
    let r := nodeOp op v (recOf 512 (s.bytes (dmemOff c a) 64)) (.engine c rd) s
    if op = 3 ∧ r.2 = 0 then .hold (r.1.setCore c { r.1.core c with held := true })
    else
      let s1 := if op = 4 ∧ r.2 = 0 then r.1.store (some c) (dmemOff c a) (recBytes 64 (r.1.node h).ctx) else r.1
      .done (s1.setG c rd (nresWord r.1 h op r.2)) 40) c s)

/-! ## Cancel (R160) -/

/-- How a cancel of an item falls: 0 it squashes the frame, 1 too late, 2 it waits for the close of the wait. -/
def cancelKind (s : State) (hc : Nat) : Nat :=
  if s.txc.ents.any (fun p => p.2.item == some hc && [6, 7].contains p.2.st) then 1
  else if s.txc.ents.any (fun p => p.2.item == some hc && p.2.st == 8 && s.lnk.atts.any (fun a => a.ent == p.1 && !a.done && !a.closed)) then 2
  else 0

/-- A cancel that squashes: the frame's entries leave staging with cause 1 and its item ends CANCELLED. -/
def cancelNow (h hc : Nat) (s : State) : State :=
  endItem h hc 5 (unlinkItem h hc (squashAll 1 (fun e x => !isSlot e && x.item == some hc) s))

/-- An engine's cancel of its item (R228, R230). -/
def engCancel (e h hc : Nat) (s : State) : State :=
  match cancelKind s hc with
  | 0 => cancelNow h hc s
  | 1 => tooLateNotice e h hc s
  | _ => { s with lnk := { s.lnk with cancels := s.lnk.cancels ++ ([⟨hc, none, some e⟩] : List Cancel) } }

/-! ## LCMD (R230) -/

/-- The link command at a DMEM address. -/
def linkCmd (s : State) (c a : Nat) : BitVec 128 := recOf 128 (s.bytes (dmemOff c a) 16)

/-- A link command has taken effect: OK, and a sequencer instance of program 6 or 7 starts; which of them the spec does not say, a free
value (R173; log entry 82). -/
def linkOk (c rd : Nat) (s : State) : Ret :=
  status c rd 0 16 (startSeq (6 + s.freeVal 2) 0 0 0 0 0 0 0 none none none s.freed)

/-- A link command: its reserved bits are checked, then its effect takes place. -/
def lcmd (rd ra : Nat) (rsv : List Fld) (k : BitVec 128 → Nat → State → Ret) : Body :=
  withPtr (rWord 0x3D rd ra 0 0) ra 16 (fun a => readsDmem a 16 (fun c s =>
    let x := linkCmd s c a
    if rsv.any (fun f => f.of x != 0) then status c rd 7 16 s else k x c s))

/-- LCMD CANCEL. -/
def iLcancel (rd ra : Nat) : Body := lcmd rd ra [fld 0 8 24, fld 8 0 64] (fun x c s =>
  match s.eng.outst.find? (fun q => q.1 == c && s.ih q.2 IH.COOKIE == LC.COOKIE.of x && (s.cell q.2).owner == some (LC.NODE.of x)) with
  | some q => linkOk c rd (engCancel c (LC.NODE.of x) q.2 s)
  | none => status c rd 7 16 s)

/-- LCMD CMP_ARM. -/
def iCmpArm (rd ra : Nat) : Body := lcmd rd ra [fld 0 8 8, fld 0 22 10, fld 4 0 32] (fun x c s =>
  let k := LC.K.of x
  if s.rd (LNK_CMP_CTRL.PART k) ≠ s.engOwner c then barkExc c 6 k s
  else linkOk c rd ((armCmp k (LC.W2.of x + 2 ^ 32 * LC.W3.of x) s).dropHeld (LNK_CMP_LO.reg k)))

/-- LCMD CMP_DISARM. -/
def iCmpDisarm (rd ra : Nat) : Body := lcmd rd ra [fld 0 8 8, fld 0 22 10, fld 4 0 96] (fun x c s =>
  let k := LC.K.of x
  if s.rd (LNK_CMP_CTRL.PART k) ≠ s.engOwner c then barkExc c 6 k s else linkOk c rd (disarmCmp k s))

/-- LCMD CELL_WR: the cell, and the node it names, must be the engine's partition's. -/
def iCellWr (rd ra : Nat) : Body := lcmd rd ra [fld 0 8 8, fld 0 29 3, fld 4 0 32] (fun x c s =>
  let k := LC.CELL.of x
  let p := s.engOwner c
  let w3 := BitVec.ofNat 32 (LC.W3.of x)
  if s.rd (LNK_CELL1.PART k) ≠ p ∨ bf w3 24 6 ≠ p ∨ s.handleOwner (bf w3 0 16) ≠ p then barkExc c 7 k s
  else linkOk c rd (cellWrite p 3 k 1 w3 (cellWrite p 3 k 0 (BitVec.ofNat 32 (LC.W2.of x)) s)))

/-- LCMD EVT_FIRE. -/
def iEvtFire (rd ra : Nat) : Body := lcmd rd ra [fld 0 8 8, fld 0 23 9, fld 4 0 96] (fun x c s =>
  let ch := LC.CHANNEL.of x
  if s.chanOwner ch ≠ s.engOwner c then barkExc c 8 (ch / 8) s else linkOk c rd (s.pulse ch))

/-- LCMD as its word says; a reserved code returns BAD_ARG. -/
def iLcmd (rd ra : Nat) : Body := fun c s =>
  let a := (s.g c ra).toNat
  match LC.CODE.of (linkCmd s c a) with
  | 1 => iLcancel rd ra c s
  | 2 => iCmpArm rd ra c s
  | 3 => iCmpDisarm rd ra c s
  | 4 => iCellWr rd ra c s
  | 5 => iEvtFire rd ra c s
  | _ => lcmd rd ra [] (fun _ c s => status c rd 7 16 s) c s

/-! ## Reading an instruction word (R217, R218) -/

/-- An R-format instruction whose unused fields must be zero. -/
def zeros (xs : List Nat) (b : Body) : Option Body := if xs.all (· == 0) then some b else none

/-- The register operations by function. -/
def decAlu (fn rd ra rb : Nat) : Option Body :=
  match fn with
  | 0x000 => some (alu 1 fAdd rd ra rb) | 0x001 => some (alu 1 fSub rd ra rb) | 0x002 => some (alu 1 fAnd rd ra rb)
  | 0x003 => some (alu 1 fOr rd ra rb) | 0x004 => some (alu 1 fXor rd ra rb) | 0x005 => some (alu 1 fSll rd ra rb)
  | 0x006 => some (alu 1 fSrl rd ra rb) | 0x007 => some (alu 1 fSra rd ra rb) | 0x008 => some (alu 1 fSlt rd ra rb)
  | 0x009 => some (alu 1 fSltu rd ra rb) | 0x00A => some (alu 1 fMin rd ra rb) | 0x00B => some (alu 1 fMax rd ra rb)
  | 0x00C => some (alu 2 fMul rd ra rb) | 0x00D => some (alu 2 fMulhu rd ra rb) | 0x00E => some (alu 2 fMulh rd ra rb)
  | 0x00F => some (alu 18 fDivu rd ra rb) | 0x010 => some (alu 18 fRemu rd ra rb) | 0x011 => zeros [rb] (alui fClz rd ra)
  | 0x012 => zeros [rb] (alui fPopc rd ra) | 0x013 => zeros [rb] (alui fBswap rd ra)
  | _ => none

/-- The system instructions by function. -/
def decSys (fn rd ra rb : Nat) : Option Body :=
  match fn with
  | 0 => zeros [rd, ra, rb] iNop | 1 => zeros [rd, ra, rb] iWfe | 2 => zeros [rd, ra, rb] iFence | 3 => zeros [rd, ra, rb] iEret
  | 4 => zeros [rd, rb] (iTrap ra) | 5 => zeros [rd, ra, rb] iBrk | 6 => zeros [rd, ra, rb] iHalt
  | _ => none

/-- The comparison of a branch opcode. -/
def cmpOf (op : Nat) : Word → Word → Bool :=
  match op with
  | 0x20 => fun a b => a == b | 0x21 => fun a b => a != b | 0x22 => BitVec.slt | 0x23 => fun a b => !a.slt b
  | 0x24 => BitVec.ult | _ => fun a b => !a.ult b

/-- The instructions of opcodes 0x01 to 0x0A: a register and an immediate. -/
def decImm (op rd ra imm : Nat) : Option Body :=
  match op with
  | 0x01 => some (alui (fAdd (simm imm)) rd ra)
  | 0x02 => some (alui (fAnd (BitVec.ofNat 32 imm)) rd ra)
  | 0x03 => some (alui (fOr (BitVec.ofNat 32 imm)) rd ra)
  | 0x04 => some (alui (fXor (BitVec.ofNat 32 imm)) rd ra)
  | 0x05 => some (alui (fun a => fSlt a (simm imm)) rd ra)
  | 0x06 => some (alui (fun a => fSltu a (simm imm)) rd ra)
  | 0x07 => zeros [ra] (alui (fun _ => BitVec.ofNat 32 (imm * 65536)) rd 0)
  | 0x08 => some (iShi rd ra imm)
  | 0x09 => some (iExtu rd ra imm)
  | 0x0A => some (iIns rd ra imm)
  | _ => none

/-- The instructions of opcodes 0x10 to 0x1A: memory. -/
def decMem (dev : Dev) (op rd ra rb fn imm : Nat) : Option Body :=
  match op with
  | 0x10 => some (iLoad dev 4 zext rd ra imm)
  | 0x11 => some (iLoad dev 2 sext16 rd ra imm)
  | 0x12 => some (iLoad dev 2 zext rd ra imm)
  | 0x13 => some (iLoad dev 1 sext8 rd ra imm)
  | 0x14 => some (iLoad dev 1 zext rd ra imm)
  | 0x15 => some (iStore dev 4 rd ra imm)
  | 0x16 => some (iStore dev 2 rd ra imm)
  | 0x17 => some (iStore dev 1 rd ra imm)
  | 0x18 => some (iLr rd ra imm)
  | 0x19 => zeros [fn] (iSc rd ra rb)
  | 0x1A => some (iTas rd ra imm)
  | _ => none

/-- The instructions of opcodes 0x26 to 0x2D: bit branches, jumps, loops. off26 is the offset of J format. -/
def decFlow (op rd ra rb fn imm off26 : Nat) : Option Body :=
  match op with
  | 0x26 => some (iBitBr 0x26 true rd ra imm)
  | 0x27 => some (iBitBr 0x27 false rd ra imm)
  | 0x28 => some (iJ off26)
  | 0x29 => some (iJal off26)
  | 0x2A => zeros [fn, rd, rb] (iJr ra)
  | 0x2B => zeros [fn, rb] (iJalr rd ra)
  | 0x2C => zeros [ra] (iLoop rd imm)
  | 0x2D => some (iLoopi (32 * rd + ra) imm)
  | _ => none

/-- The instructions of opcodes 0x38 to 0x3E: queues and link commands. -/
def decQueue (op rd ra rb fn : Nat) : Option Body :=
  match op with
  | 0x38 => zeros [fn, rb] (iQrx rd ra)
  | 0x39 => zeros [fn] (iCrd rd ra rb)
  | 0x3A => zeros [fn, rb] (iCrel rd ra)
  | 0x3B => zeros [fn] (iQwr rd ra rb)
  | 0x3C => zeros [fn] (iNcmd rd ra rb)
  | 0x3D => zeros [fn, rb] (iLcmd rd ra)
  | 0x3E => zeros [fn, rb] (iNtf rd ra)
  | _ => none

/-- The instructions of opcodes 0x30 to 0x32: system registers and system functions. -/
def decSystem (op rd ra rb fn imm : Nat) : Option Body :=
  match op with
  | 0x30 => zeros [ra] (iMfs rd imm)
  | 0x31 => zeros [rd] (iMts imm ra)
  | 0x32 => decSys fn rd ra rb
  | _ => none

/-- An instruction by its fields: none for a reserved opcode, a reserved function or a set unused field. -/
def decFields (dev : Dev) (op rd ra rb fn imm off26 : Nat) : Option Body :=
  if op = 0 then decAlu fn rd ra rb
  else if op < 0x10 then decImm op rd ra imm
  else if op < 0x20 then decMem dev op rd ra rb fn imm
  else if op < 0x26 then some (iCmpBr op (cmpOf op) rd ra imm)
  else if op < 0x30 then decFlow op rd ra rb fn imm off26
  else if op < 0x38 then decSystem op rd ra rb fn imm
  else decQueue op rd ra rb fn

/-- An instruction word's body (R217, R218). -/
def decodeIns (dev : Dev) (w : Word) : Option Body :=
  decFields dev (bf w 26 6) (bf w 21 5) (bf w 16 5) (bf w 11 5) (bf w 0 11) (bf w 0 16) (bf w 0 26)

/-- A core executes the word it fetches. -/
def stepCore (dev : Dev) (c : Nat) (s : State) : State :=
  runIns c ((decodeIns dev (fetchWord s c)).getD (iIllegal (fetchWord s c).toNat)) s

/-! ## Engines under their owner (R236-R239) -/

/-- A core starts: RUN, or STEP of one instruction. -/
def startCore (c : Nat) (step : Bool) (s : State) : State :=
  (s.setCore c { s.core c with stepping := step, waitRun := 0 }).wr (stateF c) 1

/-- An engine's memories are being zeroed. -/
def clearing (s : State) (e : Nat) : Bool := s.on (ENG_STS.CLEARING (e / 8) (e % 8))

/-- RUN (1) or STEP (2) of a halted engine: at once on a cluster that is ON, else once it is, with leave asked for an OFF cluster. -/
def engRun (e kind : Nat) (s : State) : State :=
  if s.on (stateF e) || clearing s e then s
  else if s.rd (ENG_C_STS.PSTATE (e / 8)) = 2 then startCore e (kind == 2) s
  else
    let s1 := s.setCore e { s.core e with waitRun := kind }
    if s.rd (ENG_C_STS.PSTATE (e / 8)) = 0 then
      (s1.wr (ENG_C_STS.PSTATE (e / 8)) 1).askLeave (.cluster (e / 8)) (s.engOwner e) (s.budget 5)
    else s1

/-- A core has issued a queue instruction that waits. -/
def midway (s : State) (c : Nat) : Bool := (s.core c).held || (s.core c).issued

/-- A halt request of a core: at once, or when the queue instruction that it has issued ends. -/
def coreHalt (c : Nat) (s : State) : State :=
  if s.rd (stateF c) = 0 then s.setCore c { s.core c with waitRun := 0 }
  else if midway s c then s.setCore c { s.core c with haltReq := true }
  else haltCore c 1 s

/-- A prune that an engine waits for goes on without it. -/
def forgetPrunes (e : Nat) (s : State) : State :=
  { s with que := { s.que with prunes := s.que.prunes.map (fun p =>
      match p.2 with
      | .engine c _ => if c = e then (p.1, .reset) else p
      | _ => p) } }

/-- An engine's notices, and those that arrive later for its outstanding items, are discarded; nothing is outstanding (R237). -/
def engDiscard (e : Nat) (s : State) : State :=
  let t := s.incBy (ENG_NTF_DISC.COUNT (e / 8) (e % 8)) (noticesOf s e).length
  { t with eng := { t.eng with
      notices := sset (fun _ => []) t.eng.notices e []
      discard := t.eng.discard ++ t.eng.outst.filter (fun q => q.1 == e)
      outst := t.eng.outst.filter (fun q => q.1 != e) } }

/-- RESET of an engine, with CLEAR or without; a queue instruction that has issued completes first (R236, R237). -/
def engReset (e : Nat) (clear : Bool) (s : State) : State :=
  let t := engDiscard e s
  if midway t e then t.setCore e { t.core e with haltReq := true, stepping := false, resetReq := if clear then 2 else 1 }
  else coreReset e clear t

/-- The reset of an engine by a reset of its partition waits for no instruction: the node operations of a partition in reset wait for that reset
(R210, R211). -/
def engClear (e : Nat) (s : State) : State := coreReset e true (engDiscard e (forgetPrunes e s))

/-- An engine's memories are zero, with good parity. -/
def zeroEngine (e : Nat) (s : State) : State :=
  s.zeroMem (imemBase e) (imemBase e + 0x8000) |>.zeroMem (dmemBase e) (dmemBase e + 0x10000) |>.zeroMem (segBase e) (segBase e + 0x10000)

/-- The clear ends after 10,240 cycles. -/
def clearDone (e : Nat) (s : State) : State :=
  if clearing s e then (zeroEngine e s).wr (ENG_STS.CLEARING (e / 8) (e % 8)) 0 else s

/-- A write to IMEM is accepted only while the engine is halted and not clearing (R238). -/
def imemAccepts (s : State) (e : Nat) : Bool := s.rd (stateF e) == 0 && !clearing s e

/-- A write of octets to IMEM. -/
def imemWrite (e off : Nat) (bs : List Byte) (s : State) : State :=
  if imemAccepts s e then s.store none (imemBase e + off) bs else s.wr (ENG_STS.WR_REFUSED (e / 8) (e % 8)) 1

/-- An owner's request on an engine that R203 and R238 keep for the engine's own partition. -/
def ownEngine (f : Fn) (off e : Nat) (t s : State) : State :=
  if fnTag f ≠ 0 then s.bark (fnTag f) (fnKind f) 0 off
  else if s.engOwner e ≠ 0 then s.bark 0 (fnKind f) 5 e
  else t

/-- WAKE of a cluster, charged to P0 (R239). -/
def wakeCluster (c : Nat) (s : State) : State :=
  if s.rd (ENG_C_STS.PSTATE c) = 0 then (s.wr (ENG_C_STS.PSTATE c) 1).askLeave (.cluster c) 0 (s.budget 5) else s

/-- SLEEP of a cluster whose eight engines are halted; a RUN that still waits is dropped. -/
def sleepCluster (c : Nat) (s : State) : State :=
  if (List.range 8).all (fun k => s.rd (stateF (8 * c + k)) == 0) then
    ((List.range 8).foldl (fun u k => u.setCore (8 * c + k) { u.core (8 * c + k) with waitRun := 0 }) (s.wr (ENG_C_STS.PSTATE c) 0)).returnLeave
      (.cluster c)
  else s

/-- A cluster is ON after its grant: waiting RUN and STEP take effect. -/
def clusterOn (c : Nat) (s : State) : State :=
  if s.rd (ENG_C_STS.PSTATE c) = 1 ∧ s.pwr.held.any (fun l => decide (l.who = .cluster c)) then
    (List.range 8).foldl (fun u k =>
      let e := 8 * c + k
      match (u.core e).waitRun with
      | 0 => u
      | w => startCore e (w == 2) u) (s.wr (ENG_C_STS.PSTATE c) 2)
  else s

/-- RUN or STEP of a supervisor that is halted (R236, R241). -/
def supRun (n : Nat) (step : Bool) (s : State) : State := if s.on (stateF (64 + n)) then s else startCore (64 + n) step s

/-- RESET of a supervisor: its core alone is cleared. -/
def supReset (n : Nat) (s : State) : State :=
  let s1 := (s.wr (stateF (64 + n)) 0).wr (causeF (64 + n)) 7
  s1.setCore (64 + n) { cycBase := s1.clk.eng }

end Sys2Proof.Machine
end

