-- ==== Sys2Proof/Machine/Events.lean ====
section
/-! DEFINITION. The event router and GPIO (R403-R407, R419), the two-wire buses (R408-R414) and the antenna bias gates
(R415-R418). -/

namespace Sys2Proof.Machine

/-! ## Event channels (R403-R406) -/

/-- The capture trigger takes a pulse on its channel while ARMED (R65). -/
def pulseCapture (ch : Nat) (s : State) : State :=
  if s.rd CNP_CAP_STS.STATE = 2 ∧ s.rd CNP_CAP_CFG.TRIG = 3 ∧ s.rd CNP_CAP_EVT.CHANNEL = ch then
    { s with cnp := { s.cnp with capPulse := some (s.cnp.capPulse.getD s.atb) } } else s

/-- A timer captures its counter and the ATB, whether or not it runs (R398). -/
def pulseTimer (ch : Nat) (s : State) (k : Nat) : State :=
  if s.on (TIM_EVT.CAP_EN k) ∧ s.rd (TIM_EVT.CAP_CH k) = ch then
    let t := (s.wr (TIM_CAP.CAP k) (s.rd (TIM_CNT.COUNT k))).wr64 (TIM_CAP_ATB_LO.reg k) s.atb
    (if s.on (TIM_STATUS.CAPF k) then t.wr (TIM_STATUS.CAP_OVR k) 1 else t).wr (TIM_STATUS.CAPF k) 1
  else s

/-- An engine latches a pulse on the channel of its EVC (R216). -/
def pulseCore (ch : Nat) (s : State) (c : Nat) : State :=
  let w := s.sys c 0x31
  if bf w 7 1 = 1 ∧ bf w 0 7 = ch then s.setSys c 0x32 (s.sys c 0x32 ||| 4) else s

/-- A supervisor's interrupt line takes a pulse on its channel (R235). -/
def pulseIrq (ch n : Nat) (s : State) (i : Nat) : State :=
  if s.on (SUP_IRQ.EN n i) ∧ s.rd (SUP_IRQ.CH n i) = ch then
    s.setSys (64 + n) 0x131 (s.sys (64 + n) 0x131 ||| BitVec.ofNat 32 (2 ^ i)) else s

/-- A transmit chain takes a pulse on its fault channel (R128). -/
def pulseChain (ch : Nat) (s : State) (n : Nat) : State :=
  if s.on (TXC_CH_CTRL.FEVT_EN n) ∧ s.rd (TXC_CH_CTRL.FEVT_CH n) = ch ∧ n ∉ s.txc.faultPulse then
    { s with txc := { s.txc with faultPulse := s.txc.faultPulse ++ [n] } } else s

/-- A pin applies its output action (R407). -/
def pulsePin (ch : Nat) (s : State) (p : Nat) : State :=
  if s.rd (EVR_GPIO_CFG.OUT_CH p) = ch then
    let v := s.rd EVR_GPIO_OUT.VAL
    match s.rd (EVR_GPIO_CFG.OUT_ACT p) with
    | 1 => s.wr EVR_GPIO_OUT.VAL (bitSet v p)
    | 2 => s.wr EVR_GPIO_OUT.VAL (bitClr v p)
    | 3 => s.wr EVR_GPIO_OUT.VAL (if bitOn v p then bitClr v p else bitSet v p)
    | _ => s
  else s

/-- The wake source takes a pulse on its channel in WATCH (R366). -/
def pulseWake (ch : Nat) (s : State) : State :=
  if s.on PWR_WAKE_EN.EVT ∧ s.rd PWR_WAKE_EN.EVT_CH = ch ∧ s.rd PWR_STS.STATE = 2 then wakeFire 3 s else s

/-- A pulse is delivered: counted, watched, and taken by every consumer that names the channel (R403, R404, R406). -/
def deliverPulse (ch : Nat) (s : State) : State :=
  let t := (s.inc (EVR_CH_CNT.COUNT ch)).wr ⟨EVR_WATCH.reg (ch / 32), ch % 32, 1⟩ 1
  let u := if bitOn (s.rd (EVR_WATCH_EN.EN (ch / 32))) (ch % 32) then t.raise 18 0 else t
  let a := (List.range 32).foldl (pulseTimer ch) (pulseCapture ch u)
  let b := (skeys a.eng.cores).foldl (pulseCore ch) a
  let c := (List.range 4).foldl (fun x n => (List.range 32).foldl (pulseIrq ch n) x) b
  let d := (List.range 8).foldl (pulseChain ch) c
  pulseWake ch ((List.range 24).foldl (pulsePin ch) d)

/-- EVENT_PULSE: the next pulse produced on a channel, at FS phase ph of the present tick. Within 20 ns of the previous one it
merges; on a disabled channel it is neither delivered nor counted (R403). -/
def execEventPulse (ch ph : Nat) (s : State) : Host.Outcome State Fault Refusal :=
  let x := 192 * s.now + ph + 1
  let last := sget (fun _ => 0) s.evr.last ch
  let t := { s with evr := { s.evr with pulses := s.evr.pulses.erase ch } }
  ranged (ch < 128 && ph < 192)
    (if ch ∉ s.evr.pulses then s
     else if !s.on (EVR_CH_CFG.EN ch) then t
     else
       let u := { t with evr := { t.evr with last := sset (fun _ => 0) t.evr.last ch x } }
       if last ≠ 0 ∧ x ≤ last + 122 then (u.wr ⟨EVR_MERGE.reg (ch / 32), ch % 32, 1⟩ 1).raise 18 1
       else deliverPulse ch u)

/-- EVR_FIRE: software fires a channel (R406). -/
def execEvrFire (f : Fn) (ch : Nat) (s : State) : Host.Outcome State Fault Refusal :=
  ranged (ch < 128) (s.p0Only f EVR_FIRE.reg (s.pulse ch))

/-- EVR_CNT_CLR (R419). -/
def execEvrCntClr (f : Fn) (s : State) : Host.Outcome State Fault Refusal :=
  .next (s.p0Only f EVR_CNT_CLR.reg (s.zero ((List.range 128).map EVR_CH_CNT.COUNT)))

/-- A write of EVR_CHc_CFG: SRC_EN is refused on a channel of a group whose PRT_EVGg has EN set (R405). -/
def channelCfg (ch : Nat) (v : Word) (s : State) : State :=
  let t := s.regWrite (EVR_CH_CFG.reg ch) v
  if t.on (EVR_CH_CFG.SRC_EN ch) ∧ s.on (PRT_EVG.EN (ch / 8)) then s else t

/-- CHANNEL_CFG_WRITE. -/
def execChannelCfgWrite (f : Fn) (ch : Nat) (v : Word) (s : State) : Host.Outcome State Fault Refusal :=
  ranged (ch < 128) (s.p0Only f (EVR_CH_CFG.reg ch) (channelCfg ch v s))

/-! ## GPIO (R407) -/

/-- The edge selection of a pin takes a rising or a falling edge. -/
def edgeTaken (sel : Nat) (rise : Bool) : Bool := if rise then sel == 1 || sel == 3 else sel == 2 || sel == 3

/-- GPIO_EDGE: an input pin has held a new level for two CLK_PER cycles (R407). -/
def execGpioEdge (p : Nat) (lvl : Bool) (s : State) : Host.Outcome State Fault Refusal :=
  let v := s.rd EVR_GPIO_IN.VAL
  let t := s.wr EVR_GPIO_IN.VAL (if lvl then bitSet v p else bitClr v p)
  ranged (p < 24)
    (if bitOn (s.rd EVR_GPIO_DIR.OUT) p ∨ bitOn v p = lvl then s
     else if edgeTaken (s.rd (EVR_GPIO_CFG.IN_EDGE p)) lvl then t.pulse (s.rd (EVR_GPIO_CFG.IN_CH p))
     else t)

/-- GPIO_SET (R407). -/
def execGpioSet (f : Fn) (v : Word) (s : State) : Host.Outcome State Fault Refusal :=
  .next (s.p0Only f EVR_GPIO_SET.reg (s.wr EVR_GPIO_OUT.VAL (Nat.lor (s.rd EVR_GPIO_OUT.VAL) (bf v 0 24))))

/-- GPIO_CLR (R407). -/
def execGpioClr (f : Fn) (v : Word) (s : State) : Host.Outcome State Fault Refusal :=
  let x := s.rd EVR_GPIO_OUT.VAL
  .next (s.p0Only f EVR_GPIO_CLR.reg (s.wr EVR_GPIO_OUT.VAL (Nat.xor x (Nat.land x (bf v 0 24)))))

/-! ## TWA target (R409-R411) -/

/-- The word at a pointer of the target's pages (R409). -/
def twaWord (s : State) (p : Nat) : Word :=
  let w := p % 4096 / 4 * 4
  match p / 4096 with
  | 0 => match w with
    | 0x000 => s.reg TOP_ID.reg
    | 0x004 => s.reg TOP_START_STS.reg
    | 0x008 => s.reg (TOP_START_REASON.reg 0)
    | 0x00C => s.reg (TOP_START_REASON.reg 1)
    | 0x010 => s.reg (TOP_START_REASON.reg 2)
    | 0x014 => s.reg (TOP_START_REASON.reg 3)
    | 0x018 => s.reg PWR_STS.reg
    | 0x01C => s.reg PWR_TEMP_STS.reg
    | 0x020 => s.reg PWR_VBAK.reg
    | 0x024 => s.reg RTC_STS.reg
    | 0x028 => s.reg SEC_ALARM_STS.reg
    | 0x02C => s.reg FLC_GRAFT_STS.reg
    | _ => 0
  | 1 => if s.on TOP_START_STS.SEEDLING then s.reg (TOP_MBOX.reg (w / 4)) else 0
  | 2 => if w < 1024 then s.reg (TWA_MBOX.reg (w / 4)) else 0
  | _ => 0xFFFFFFFF

/-- The pointer advances within its page (R409). -/
def twaNext (p : Nat) : Nat := p / 4096 * 4096 + (p + 1) % 4096

/-- A whole word is written at a pointer (R410). -/
def twaPut (p : Nat) (v : Word) (s : State) : State :=
  let w := p % 4096 / 4
  if p / 4096 = 1 then (if s.on TOP_START_STS.SEEDLING then s.setReg (TOP_MBOX.reg w) v else s)
  else (if w < 256 then s.setReg (TWA_MBOX.reg w) v else s).raise 15 3

/-- Held bytes whose word was not completed are discarded (R410). -/
def twaPartial (held : List (Nat × Byte)) (s : State) : State :=
  if held.isEmpty then s else (s.inc TWA_CNT_PARTIAL.COUNT).raise 15 2

/-- The word that held bytes make: bytes of it that the transaction did not write are free values, the spec gives none
(R410; log entry 25). -/
def twaHeldWord (s : State) (held : List (Nat × Byte)) : Word :=
  BitVec.ofNat 32 (unoctets ((List.range 4).map (fun k =>
    match held.find? (fun h => h.1 % 4 == k) with
    | some h => h.2
    | none => BitVec.ofNat 8 (s.freeVal 0 / 256 ^ k))))

/-- The data bytes of a write transaction, from a pointer on with the bytes held so far (R410). -/
def twaBytes : List Byte → Nat → List (Nat × Byte) → State → State
  | [], p, held, s => (twaPartial held s).wr TWA_STS.PTR p
  | b :: bs, p, held, s =>
    if p / 4096 ≠ 1 ∧ p / 4096 ≠ 2 then ((twaPartial held s).wr TWA_STS.PTR p).post .twaNack
    else
      let same := held.all (fun h => h.1 / 4 == p / 4)
      let s1 := if same then s else twaPartial held s
      let h1 := (if same then held else []) ++ [(p, b)]
      if p % 4 = 3 then twaBytes bs (twaNext p) [] (twaPut p (twaHeldWord s1 h1) s1.freed)
      else twaBytes bs (twaNext p) h1 s1

/-- The pointer's word is prefetched (R410). -/
def twaFetch (p : Nat) (s : State) : State := { s with two := { s.two with capture := some (p / 4, twaWord s p), ahead := none } }

/-- The target is addressed: it answers to its address while enabled and its lines are not released (R370, R409, R410). -/
def twaMine (s : State) (addr : Nat) : Bool := s.on TWA_CTRL.EN && s.rd TWA_CFG.ADDR == addr && s.pwr.mode == 0

/-- TWA_WRITE: a write transaction to an address with its bytes, the pointer's two first (R409, R410). -/
def execTwaWrite (addr : Nat) (d : List Byte) (s : State) : Host.Outcome State Fault Refusal :=
  if !twaMine s addr then .next (s.post .twaNack)
  else
    let t := s.inc TWA_CNT_XFER.COUNT
    match d with
    | hi :: lo :: bs =>
      let p := 256 * hi.toNat + lo.toNat
      .next (twaBytes bs p [] (twaFetch p t))
    | _ => .next t

/-- The bytes a read transaction sends from a pointer on (R409, R410). -/
def twaSend : Nat → Nat → State → State
  | 0, p, s => s.wr TWA_STS.PTR p
  | n + 1, p, s =>
    let here := s.two.capture.filter (fun c => c.1 == p / 4)
    let next := s.two.ahead.filter (fun c => c.1 == p / 4)
    let v := match here, next with
      | some c, _ => c.2
      | none, some c => c.2
      | none, none => twaWord s p
    let q := p / 4096 * 4096 + (p / 4 * 4 + 4) % 4096
    let ahead := if here.isNone ∨ p % 4 = 0 then some (q / 4, twaWord s q) else s.two.ahead
    let t := { s with two := { s.two with capture := some (p / 4, v), ahead := ahead } }
    twaSend n (twaNext p) (t.post (.twaByte (BitVec.ofNat 8 (v.toNat / 256 ^ (p % 4)))))

/-- TWA_READ: a read of n bytes from the pointer; while the prefetch has not completed the address is NACKed (R410). -/
def execTwaRead (addr n : Nat) (ready : Bool) (s : State) : Host.Outcome State Fault Refusal :=
  if !twaMine s addr then .next (s.post .twaNack)
  else if !ready then .next (((s.inc TWA_CNT_BUSY_NACK.COUNT).raise 15 1).post .twaNack)
  else .next (twaSend n (s.rd TWA_STS.PTR) (s.inc TWA_CNT_XFER.COUNT))

/-- TWA_TIMEOUT (R411). -/
def execTwaTimeout (s : State) : Host.Outcome State Fault Refusal :=
  .next (if s.on TWA_CTRL.EN then (s.inc TWA_CNT_TMO.COUNT).raise 15 0 else s)

/-! ## TWB controller (R412, R413) -/

/-- A write of TWB_CMD with START: ignored while BUSY or while a stuck bus awaits its recovery (R412, R413). -/
def twbStart (v : Word) (s : State) : State :=
  if s.on TWB_CMD.BUSY ∨ s.on TWB_STS.STUCK then s
  else
    let t := s.regWrite TWB_CMD.reg v
    if t.on TWB_CTRL.EN then (t.wr TWB_CMD.BUSY 1).inc TWB_CNT_OP.COUNT else t

/-- START. -/
def execStart (f : Fn) (v : Word) (s : State) : Host.Outcome State Fault Refusal := .next (s.p0Only f TWB_CMD.reg (twbStart v s))

/-- The operation ends with a status, bytes transferred and tries made (R412). -/
def twbEnd (status done tries : Nat) (s : State) : State :=
  let t := (((s.wr TWB_RES.STATUS status).wr TWB_RES.DONE done).wr TWB_RES.TRIES tries).wr TWB_CMD.BUSY 0
  if status = 0 then t.raise 16 0 else (t.inc TWB_CNT_ERR.COUNT).raise 16 1

/-- Received bytes stand in TWB_RXw from byte k on (R420). -/
def twbRx : List Byte → Nat → State → State
  | [], _, s => s
  | b :: bs, k, s => twbRx bs (k + 1) (s.wr ⟨TWB_RX.reg (k / 4), 8 * (k % 4), 8⟩ b.toNat)

/-- The first n bytes of TWB_TXw (R412). -/
def twbTx (s : State) (n : Nat) : List Byte := ((List.range 8).flatMap (fun w => octets 4 (s.rd (TWB_TX.DATA w)))).take n

/-- What the operation under way comes to with a target (R412). A released SDA reads 1 where the target sends nothing. -/
def twbDone (r : TwbTarget) (s : State) : State :=
  let w := s.rd TWB_CMD.WLEN
  let n := s.rd TWB_CMD.RLEN
  let retry := s.rd TWB_CMD.RETRY
  if retry < r.addrNacks then twbEnd 1 0 (retry + 1) s
  else
    let tries := r.addrNacks + 1
    if r.arbLost then twbEnd 5 (min r.accepts w) tries s
    else if r.accepts < w then twbEnd 2 r.accepts tries (s.post (.twbBytes (twbTx s r.accepts)))
    else
      let rx := (List.range n).map (fun k => r.sends.getD k 255)
      twbEnd 0 (w + n) tries (twbRx rx 0 (s.post (.twbBytes (twbTx s w))))

/-- TWB_DONE. -/
def execTwbDone (r : TwbTarget) (s : State) : Host.Outcome State Fault Refusal :=
  .next (if s.on TWB_CMD.BUSY then twbDone r s else s)

/-- STRETCH_TIMEOUT: one stretch lasts STRETCH_US, and with low SCL stays low for LOW_MS; how far the operation came is a free value
(R413; log entry 1). -/
def stretchTimeout (low : Bool) (s : State) : State :=
  let n := s.rd TWB_CMD.WLEN + s.rd TWB_CMD.RLEN
  let done := s.freeVal (n + 1)
  let tries := s.freed.freeVal (s.rd TWB_CMD.RETRY + 1) + 1
  let t := s.freed.freed
  if low then twbEnd 4 done tries (((t.wr TWB_STS.STUCK 1).wr TWB_STS.SCL 0).raise 16 2) else twbEnd 3 done tries t

/-- STRETCH_TIMEOUT. -/
def execStretchTimeout (low : Bool) (s : State) : Host.Outcome State Fault Refusal :=
  .next (if s.on TWB_CMD.BUSY then stretchTimeout low s else s)

/-- BUS_RECOVERY: SCL reads high; nine clocks and STOP, and the bus is no longer stuck (R413). -/
def execBusRecovery (s : State) : Host.Outcome State Fault Refusal :=
  .next (if s.on TWB_STS.STUCK then (s.wr TWB_STS.STUCK 0).wr TWB_STS.SCL 1 else s)

/-! ## Antenna bias (R415-R418) -/

/-- A gate's record. -/
def State.gate (s : State) (n : Nat) : Gate := sget (fun _ => ({} : Gate)) s.gates n

/-- A gate's record replaced. -/
def setGate (n : Nat) (x : Gate) (s : State) : State := { s with gates := sset (fun _ => {}) s.gates n x }

/-- BIAS_ON: an OFF gate asks for leave (R415). -/
def execBiasOn (f : Fn) (n : Nat) (s : State) : Host.Outcome State Fault Refusal :=
  ranged (n < 8) (s.p0Only f (BIAS_G_CTRL.reg n)
    (if s.rd (BIAS_G_STS.STATE n) = 0 then (s.wr (BIAS_G_STS.STATE n) 1).askLeave (.bias n) 0 (s.budget 6) else s))

/-- Leave is granted: the gate ramps and its antenna is tainted to the ramp's end (R415, R418). -/
def biasRamp (n : Nat) (s : State) : State :=
  let e := 3200 * s.rd (BIAS_G_CFG.RAMP n)
  let t := setGate n { s.gate n with rampAt := s.atb, rampEnd := s.now + e } (s.wr (BIAS_G_STS.STATE n) 2)
  [0, 1].foldl (fun u b => addTaint n b (s.atb - sliceD s b) (s.atb + e + sliceClean s b) u) t

/-- RAMP_DONE: RAMP × 100 µs after the ramp began the gate is ON and its leave returns (R415). -/
def execRampDone (n : Nat) (s0 : State) : Host.Outcome State Fault Refusal :=
  let s := s0.elapse ((s0.gate n).rampEnd - s0.now)
  ranged (n < 8) (if s0.rd (BIAS_G_STS.STATE n) = 2 then ((s.wr (BIAS_G_STS.STATE n) 3).returnLeave (.bias n)).raise 17 2 else s0)

/-- A ramp's taint of a slice that is cut short ends with the cut (R418). -/
def cutTaint (n b lo hi : Nat) (s : State) : State :=
  { s with cnp := { s.cnp with taints := s.cnp.taints.map (fun t =>
      if t.ant = n ∧ t.slice = b ∧ t.lo = lo ∧ hi < t.hi then ⟨n, b, lo, hi⟩ else t) } }

/-- A trip or OFF pulls the gate off: leave returns and the antenna is tainted from now; a ramp under way ends (R415, R418). -/
def gateOff (n : Nat) (s : State) : State :=
  let t := setGate n { s.gate n with low := 0, high := 0 } (s.returnLeave (.bias n))
  let u := if s.rd (BIAS_G_STS.STATE n) = 2 then
      [0, 1].foldl (fun x b => cutTaint n b ((s.gate n).rampAt - sliceD s b) (s.atb + sliceClean s b) x) t
    else t
  if s.rd (BIAS_G_STS.STATE n) = 1 then u else stepTaint n s.atb u

/-- BIAS_OFF (R415). -/
def execBiasOff (f : Fn) (n : Nat) (s : State) : Host.Outcome State Fault Refusal :=
  ranged (n < 8) (s.p0Only f (BIAS_G_CTRL.reg n)
    (if 1 ≤ s.rd (BIAS_G_STS.STATE n) ∧ s.rd (BIAS_G_STS.STATE n) ≤ 3 then (gateOff n s).wr (BIAS_G_STS.STATE n) 0 else s))

/-- BIAS_TRIP: the sense current reaches TRIP_MA (R416). -/
def execBiasTrip (n : Nat) (s : State) : Host.Outcome State Fault Refusal :=
  let st := s.rd (BIAS_G_STS.STATE n)
  let t := gateOff n s
  let u := ((setGate n { t.gate n with tripXk := s.clk.xk } t).wr (BIAS_G_STS.STATE n) 4).wr (BIAS_G_STS.CAUSE n) (if st = 2 then 1 else 2)
  ranged (n < 8)
    (if st = 2 ∨ st = 3 then ((u.wr (BIAS_G_STS.HOLDOFF n) 1).inc (BIAS_G_CNT_TRIP.COUNT n)).raise 17 0 else s)

/-- BIAS_FAULT_CLR: FAULT goes to OFF unless HOLDOFF holds (R417). -/
def execBiasFaultClr (f : Fn) (n : Nat) (s : State) : Host.Outcome State Fault Refusal :=
  ranged (n < 8) (s.p0Only f (BIAS_G_CTRL.reg n)
    (if s.rd (BIAS_G_STS.STATE n) = 4 ∧ !s.on (BIAS_G_STS.HOLDOFF n) then (s.wr (BIAS_G_STS.STATE n) 0).wr (BIAS_G_STS.CAUSE n) 0 else s))

/-- HOLDOFF_END: 3,277 XK periods after a trip (R417). -/
def execHoldoffEnd (n : Nat) (s0 : State) : Host.Outcome State Fault Refusal :=
  let k := (s0.gate n).tripXk + 3277 - s0.clk.xk
  let s := if s0.clk.xkOk ∧ 0 < k then elapseXk k s0 else s0
  ranged (n < 8)
    (if s0.on (BIAS_G_STS.HOLDOFF n) ∧ (s0.gate n).tripXk + 3277 ≤ s.clk.xk then s.wr (BIAS_G_STS.HOLDOFF n) 0 else s0)

/-- The mean current of 1 ms of an ON gate and the OPEN detection (R418). -/
def biasSample (n ma : Nat) (s : State) : State :=
  let g := s.gate n
  let low := decide (ma < s.rd (BIAS_G_LIM.OPEN_MA n))
  let g1 : Gate := { g with low := if low then g.low + 1 else 0, high := if low then 0 else g.high + 1 }
  let t := setGate n g1 (s.wr (BIAS_G_CUR.MA n) ma)
  if g1.low = 100 ∧ !s.on (BIAS_G_STS.OPEN n) then (t.wr (BIAS_G_STS.OPEN n) 1).raise 17 1
  else if 100 ≤ g1.high then t.wr (BIAS_G_STS.OPEN n) 0
  else t

/-- BIAS_CURRENT_SAMPLE. -/
def execBiasCurrentSample (n ma : Nat) (s : State) : Host.Outcome State Fault Refusal :=
  ranged (n < 8 && ma < 4096) (if s.rd (BIAS_G_STS.STATE n) = 3 then biasSample n ma s else s)

/-- BIAS_STS: the gates that are ON, in FAULT, and flagged OPEN (R420). -/
def biasSts (s : State) : Word :=
  let m (f : Nat → Bool) : Nat := ((List.range 8).filter f).foldl bitSet 0
  BitVec.ofNat 32 (m (fun n => s.rd (BIAS_G_STS.STATE n) == 3) + 256 * m (fun n => s.rd (BIAS_G_STS.STATE n) == 4)
    + 65536 * m (fun n => s.on (BIAS_G_STS.OPEN n)))

end Sys2Proof.Machine
end

