-- ==== Sys2Proof/Machine/Flash.lean ====
section
/-! DEFINITION. The in-package flash (R344-R357): the array with its spares, erase-open marks and remap table, the controller's
operations, window reads, and what an interruption leaves. -/

namespace Sys2Proof.Machine

/-! ## The array -/

/-- The flash controller's record replaced. -/
def State.setFlc (s : State) (x : Flc) : State := { s with flc := x }

/-- Copy A of the information row wins: the valid copy with the higher generation (R356). -/
def infoA (n : Nvm) : Bool := if n.copyA.ok = n.copyB.ok then decide (n.copyB.gen ≤ n.copyA.gen) else n.copyA.ok

/-- The record of the information row in force (R356). -/
def State.info (s : State) : InfoCopy := if infoA s.nvm then s.nvm.copyA else s.nvm.copyB

/-- The copy of the information row that loses is written (R356). -/
def putLoser (i : InfoCopy) (s : State) : State :=
  if infoA s.nvm then { s with nvm := { s.nvm with copyB := i } } else { s with nvm := { s.nvm with copyA := i } }

/-- A change of the information row's record: the copy that loses takes it, one generation above (R356). -/
def putInfo (i : InfoCopy) (s : State) : State := putLoser { i with ok := true, gen := s.info.gen + 1 } s

/-- A write of the information row is cut off: the copy that loses is left without its CRC (R356). -/
def cutInfo (s : State) : State := putLoser { ok := false } s

/-- At a CHIP reset the losing copy becomes a byte copy of the winner (R356). -/
def settleInfo (s : State) : State := { s with nvm := { s.nvm with copyA := s.info, copyB := s.info } }

/-- What spare k is used for (R355). -/
def spareUse (i : InfoCopy) (k : Nat) : Nat := sget (fun _ => 0) i.spares k

/-- The spare that stands for a sector (R355). -/
def spareOf (s : State) (sec : Nat) : Option Nat := (List.range 64).find? (fun k => spareUse s.info k == 2 + sec)

/-- The physical sector that a sector's reads, programs and marks go to (R355). -/
def physSector (s : State) (sec : Nat) : Nat := match spareOf s sec with | some k => 8128 + k | none => sec

/-- The physical address of a flash byte. -/
def physAddr (s : State) (a : Nat) : Nat := 4096 * physSector s (a / 4096) + a % 4096

/-- A sector is bad without a spare (R355). -/
def sectorBad (s : State) (sec : Nat) : Bool := s.info.bad.contains sec

/-- The sectors an operation works on (R344): one, the 16 of its block, or the one under way of a block erase that goes sector by sector
(R352). -/
def opSectors (o : FlashOp) : List Nat :=
  if o.code = 7 then []
  else if o.code = 3 then (if o.sep then [o.addr / 65536 * 16 + o.cur] else (List.range 16).map (fun k => o.addr / 65536 * 16 + k))
  else [o.addr / 4096]

/-- An erase has begun: its sectors carry their marks (R352). -/
def eraseOpen (o : FlashOp) : Bool := (o.code == 2 || o.code == 3) && o.begun

/-- The erases that have begun and not ended: the running one and the suspended one. -/
def openErases (s : State) : List FlashOp := (s.flc.op.toList ++ s.flc.resume.toList).filter eraseOpen

/-- A sector is under an erase that has begun. -/
def underErase (s : State) (sec : Nat) : Bool := (openErases s).any (fun o => (opSectors o).contains sec)

/-- A sector carries an erase-open mark (R352, R353). -/
def sectorOpen (s : State) (sec : Nat) : Bool := s.nvm.marks.contains (physSector s sec) || underErase s sec

/-- A byte at a physical address as stored: unreliable where an interrupted operation left it so, all ones where nothing has been
programmed (R344, R353, R354; log entries 3 and 13). -/
def physByte (s : State) (p : Nat) : Byte :=
  match sfind s.nvm.torn (p / 16) with
  | some k => Config.tornByte k p
  | none => match sfind s.nvm.wild (p / 4096) with
    | some k => Config.tornByte k p
    | none => sget (fun _ => 255) s.flash p

/-- A byte of flash as stored. -/
def flashByte (s : State) (a : Nat) : Byte := physByte s (physAddr s a)

/-- Bytes of flash as stored. -/
def flashBytes (s : State) (a n : Nat) : List Byte := (List.range n).map (fun k => flashByte s (a + k))

/-- A word of flash as stored, little-endian. -/
def flashWord (s : State) (a : Nat) : Nat := unoctets (flashBytes s a 4)

/-- The check bits of a physical program word as stored, all ones where nothing has been programmed (R344). -/
def physCheck (s : State) (w : Nat) : Nat :=
  match sfind s.nvm.torn w with
  | some k => Config.tornCheck k w % 512
  | none => match sfind s.nvm.wild (w / 256) with
    | some k => Config.tornCheck k w % 512
    | none => sget (fun _ => 511) s.nvm.check w

/-- Bytes stored at a physical address on. -/
def putFlash : List Byte → Nat → List Host.Cell → List Host.Cell
  | [], _, m => m
  | b :: bs, p, m => putFlash bs (p + 1) (sset (fun _ => 255) m p b)

/-- A sector is an overlay sector (R348). -/
def overlay (s : State) (sec : Nat) : Bool :=
  (List.range 8).any (fun i => s.on (FLC_OVL.EN i) && s.rd (FLC_OVL.SECTOR i) == sec)

/-- A program word stands at a byte address with its check bits; an overlay program clears bits only and writes no check bits (R344, R347,
R348). -/
def programWord (s : State) (a : Nat) (w : List Byte) : State :=
  let p := physAddr s a
  let ovl := overlay s (a / 4096)
  let v := if ovl then (w.zip (flashBytes s a 16)).map (fun x => x.1 &&& x.2) else w
  { s with
    flash := putFlash v p s.flash
    nvm := { s.nvm with
      check := if ovl then s.nvm.check else sset (fun _ => 511) s.nvm.check (p / 16) (Config.eccOf w % 512)
      torn := sdel s.nvm.torn (p / 16) } }

/-- A physical sector reads all ones again: data, unreliable words and mark are gone (R352). -/
def clearPhys (p : Nat) (s : State) : State :=
  { s with
    flash := sdrop s.flash (4096 * p) (4096 * p + 4096)
    nvm := { s.nvm with
      check := sdrop s.nvm.check (256 * p) (256 * p + 256)
      torn := sdrop s.nvm.torn (256 * p) (256 * p + 256)
      wild := sdel s.nvm.wild p
      marks := s.nvm.marks.filter (fun m => m != p) } }

/-- A sector is erased and its mark cleared. -/
def clearSector (s : State) (sec : Nat) : State := clearPhys (physSector s sec) s

/-- A sector's mark is left set (R352, R354). -/
def leaveMark (s : State) (sec : Nat) : State :=
  let p := physSector s sec
  { s with nvm := { s.nvm with marks := if s.nvm.marks.contains p then s.nvm.marks else s.nvm.marks ++ [p] } }

/-- A sector's data is left unreliable: what it reads as is a free value (R353; log entry 1). -/
def leaveWild (s : State) (sec : Nat) : State :=
  let t := s.freed
  { t with nvm := { t.nvm with wild := sput t.nvm.wild (physSector s sec) s.free } }

/-- A program word is left unreliable (R354). -/
def leaveTorn (s : State) (a : Nat) : State :=
  let t := s.freed
  { t with nvm := { t.nvm with torn := sput t.nvm.torn (physAddr s a / 16) s.free } }

/-- Every word of a range of flash is erased: data and check bits read all ones, with nothing unreliable in it (R344). -/
def flashBlank (s : State) (a n : Nat) : Bool :=
  (flashBytes s a n).all (fun b => b == 255) &&
    (List.range (n / 16)).all (fun k => (sfind s.nvm.torn (physAddr s (a + 16 * k) / 16)).isNone && physCheck s (physAddr s (a + 16 * k) / 16) == 511)

/-! ## Remapping -/

/-- Spares in use or bad (R357). -/
def sparesUsed (i : InfoCopy) : Nat := i.spares.length

/-- SPARE_LOW is raised when the last eight spares are reached (R355). -/
def spareLow (i j : InfoCopy) (s : State) : State :=
  let t := s.wr FLC_SPARE.USED (sparesUsed j)
  if sparesUsed i < 56 ∧ 56 ≤ sparesUsed j then t.raise 12 5 else t

/-- A sector fails its erase: the lowest free spare takes its place, those of `worse` that fail their own erase becoming bad first, or the
sector becomes bad (R355). The flag tells that a spare was found. -/
def remap (sec : Nat) (worse : List Nat) (s : State) : State × Bool :=
  let i := s.info
  let sp0 := match spareOf s sec with | some k => sput i.spares k 1 | none => i.spares
  let free := (List.range 64).filter (fun k => sget (fun _ => 0) sp0 k == 0)
  let sp1 := (free.takeWhile worse.contains).foldl (fun m k => sput m k 1) sp0
  match (free.dropWhile worse.contains).head? with
  | some k =>
    let j : InfoCopy := { i with spares := sput sp1 k (2 + sec) }
    (spareLow i j ((clearPhys (8128 + k) (putInfo j s)).raise 12 3), true)
  | none =>
    let j : InfoCopy := { i with spares := sp1, bad := if i.bad.contains sec then i.bad else i.bad ++ [sec] }
    (spareLow i j (putInfo j s), false)

/-- A sector has been through an erase: it verified and its mark is cleared, or it is remapped or becomes bad with its mark set. A
sector marked at a PROG_FAIL is remapped (R352, R355). The pair tells whether a remap happened and whether a spare was wanting. -/
def eraseEnd (fail worse : List Nat) (x : State × Bool × Bool) (sec : Nat) : State × Bool × Bool :=
  let s := x.1
  if fail.contains sec || s.nvm.failed.contains (physSector s sec) then
    let m := s.nvm.failed.filter (fun p => p != physSector s sec)
    let r := remap sec worse { s with nvm := { s.nvm with failed := m } }
    if r.2 then (r.1, true, x.2.2) else (leaveWild (leaveMark r.1 sec) sec, x.2.1, true)
  else (clearSector s sec, x.2.1, x.2.2)

/-! ## Operations -/

/-- A block erase runs as 16 sector erases where one of its sectors is remapped or bad (R352). -/
def oneByOne (s : State) (o : FlashOp) : Bool := (opSectors o).any (fun k => (spareOf s k).isSome || sectorBad s k)

/-- The status an operation's checks give before any pulse (R347, R351); 0 where they pass. -/
def flashCheck (s : State) (o : FlashOp) (w : List Byte) : Nat :=
  let sec := o.addr / 4096
  if o.code = 1 then
    if o.addr % 16 ≠ 0 ∨ 8128 ≤ sec ∨ (o.addr + 16 * o.n - 1) / 4096 ≠ sec then 1
    else if sectorBad s sec then 4
    else if s.nvm.marks.contains (physSector s sec) then 3
    else if sectorOpen s sec then 3
    else if s.flc.resume.any (fun e => (opSectors e).contains sec) then 6
    else if flashBlank s o.addr (16 * o.n) then 0
    else if overlay s sec && (List.range o.n).all (fun k => (sfind s.nvm.torn (physAddr s (o.addr + 16 * k) / 16)).isNone) then
      (if (w.zip (flashBytes s o.addr (16 * o.n))).all (fun x => x.1 &&& x.2 == x.1) then 0 else 5)
    else 2
  else if o.code = 7 then 0
  else if (opSectors o).any (fun k => decide (8128 ≤ k)) then 1
  else if s.flc.resume.isSome then 6
  else 0

/-- The banks an operation keeps busy (R344, R349). -/
def opBanks (s : State) (o : FlashOp) : Nat :=
  (opSectors o).foldl (fun m k => bitSet m (physSector s k / 2048)) 0

/-- The operation that keeps banks busy: one that runs, or that a low supply has interrupted and that has not ended (R349, R354). -/
def runningOp (s : State) : Option FlashOp := s.flc.op.filter (fun o => o.stage == 1 || o.stage == 5)

/-- The controller's status after its operations changed: BUSY, BANK_BUSY, SUSPENDED, WAIT_LEAVE, and the register command's BUSY
(R346, R349, R351). -/
def flashStatus (s : State) : State :=
  let run := runningOp s
  let wait := s.flc.op.any (fun o => o.stage == 0)
  let mine := (s.flc.op.toList ++ s.flc.wait).any (fun o => o.src == 0)
  (((((s.wr FLC_STS.BUSY (if run.isSome then 1 else 0)).wr FLC_STS.BANK_BUSY (match run with | some o => opBanks s o | none => 0)).wr
    FLC_STS.SUSPENDED (if s.flc.resume.isSome then 1 else 0)).wr FLC_STS.WAIT_LEAVE (if wait then 1 else 0)).wr
    FLC_CMD.BUSY (if mine then 1 else 0))

/-- The controller's running or waiting operation replaced. -/
def setFlashOp (o : Option FlashOp) (s : State) : State := flashStatus (s.setFlc { s.flc with op := o })

/-- The power leave of an operation: budget entry 7 for an erase, 8 for a program (R346). -/
def flashLeave (s : State) (o : FlashOp) : Nat := if o.code = 2 ∨ o.code = 3 then s.budget 7 else s.budget 8

/-- An operation asks for its leave. -/
def flashAsk (o : FlashOp) (s : State) : State := (setFlashOp (some o) s).askLeave .flash 0 (flashLeave s o)

/-- An operation arrives: it asks for its leave, or waits for those that arrived before it (R346). -/
def flashArrive (o : FlashOp) (s : State) : State :=
  if s.flc.op.isNone then flashAsk o s else flashStatus (s.setFlc { s.flc with wait := s.flc.wait ++ [o] })

/-- The operation that arrived first of those pending asks for its leave (R346). -/
def flashNext (s : State) : State :=
  match s.flc.op, s.flc.wait with
  | none, o :: os => flashAsk o (s.setFlc { s.flc with wait := os })
  | _, _ => s

/-- The operation that a step of a unit's work is. -/
def stepOp (u : Nat) : NvStep → FlashOp
  | .erase sec => { code := 2, addr := 4096 * sec, n := 0, data := [], stage := 0, begun := false, src := u }
  | .program a d => { code := 1, addr := a, n := ceilDiv d.length 16, data := d, stage := 0, begun := false, src := u }
  | .highWater area gen => { code := 7, addr := area, n := gen, data := [], stage := 0, begun := false, src := u }

/-- The work of a unit, if it has any. -/
def unitWork (s : State) (u : Nat) : Option UnitWork := s.flc.works.find? (fun w => w.unit == u)

/-- The work of a unit is over. -/
def unitClear (u : Nat) (s : State) : State := s.setFlc { s.flc with works := s.flc.works.filter (fun w => w.unit != u) }

/-- A step that programs a chunk of a ledger WRITE waits while seal jobs may not run (R262, R263, R338, R340). -/
def stepHeld (s : State) (u : Nat) (x : NvStep) : Bool :=
  match x with
  | .program _ d => u == 1 && s.flc.ldg == some 1 && d.length == 4096 && !keyJobsRun s
  | _ => false

/-- The next step of a unit's work arrives, unless it is pending already or is held (R346). -/
def unitNext (u : Nat) (s : State) : State :=
  match (unitWork s u).bind (fun w => w.left.head?) with
  | some x =>
    if stepHeld s u x || (s.flc.op.toList ++ s.flc.wait).any (fun o => o.src == u) then s
    else s.setFlc { s.flc with wait := s.flc.wait ++ [stepOp u x] }
  | none => s

/-- A step of a unit's work ended, OK or not: the next step arrives, or the work goes no further (R346). -/
def unitTold (u : Nat) (ok : Bool) (s : State) : State :=
  match unitWork s u with
  | none => s
  | some w =>
    let v : UnitWork := if ok then { w with left := w.left.drop 1 } else { w with left := [], ok := false }
    unitNext u (s.setFlc { s.flc with works := s.flc.works.map (fun z => if z.unit = u then v else z) })

/-- A unit's work begins with its first step (R346). -/
def unitBegin (w : UnitWork) (s : State) : State :=
  flashNext (unitNext w.unit (s.setFlc { s.flc with works := s.flc.works.filter (fun v => v.unit != w.unit) ++ [w] }))

/-- An operation ends: its leave returns, its result goes to FLC_RES with OP_DONE or to the unit that asked, and the next one that is
pending asks for its leave (R346). -/
def flashEnd (o : FlashOp) (status done remapped : Nat) (s : State) : State :=
  let t := (setFlashOp none s).returnLeave .flash
  let u := if o.src = 0 then (((t.wr FLC_RES.STATUS status).wr FLC_RES.DONE done).wr FLC_RES.REMAPPED remapped).raise 12 0
    else unitTold o.src (status == 0) t
  flashNext u

/-- The words of the program buffer for n program words, as octets (R357). -/
def pbufBytes (s : State) (n : Nat) : List Byte :=
  (List.range (4 * n)).flatMap (fun w => octets 4 (s.rd (FLC_PBUF.DATA w)))

/-- A range of flash lies in the image slot that CHECK checked: the slot that is not ACTIVE (R333). -/
def inChecked (s : State) (lo hi : Nat) : Bool :=
  s.flc.boot.any (fun b =>
    let z := if b.active = 0 then b.slotB else b.slotA
    decide (lo < z.1 + z.2) && decide (z.1 < hi))

/-- An erase or program inside the checked slot returns CHECKED to NONE (R333). -/
def uncheck (lo hi : Nat) (s : State) : State :=
  if s.rd FLC_GRAFT_STS.STATE = 1 ∧ inChecked s lo hi then s.wr FLC_GRAFT_STS.STATE 0 else s

/-- The flash range an operation works on. -/
def opRange (o : FlashOp) : Nat × Nat :=
  if o.code = 7 then (0, 0)
  else if o.code = 1 then (o.addr, o.addr + 16 * o.n)
  else if o.code = 2 then (o.addr / 4096 * 4096, o.addr / 4096 * 4096 + 4096)
  else (o.addr / 65536 * 65536, o.addr / 65536 * 65536 + 65536)

/-- An operation that holds its leave begins: its checks, then its first pulse; none begins while a supply is low, and a suspended erase goes
on (R346, R347, R351, R352, R354). -/
def flashBegin (o : FlashOp) (s : State) : State :=
  if s.flc.low then setFlashOp (some { o with stage := 4 }) s
  else if o.begun then
    setFlashOp (some { o with stage := 1 }) (uncheck (opRange o).1 (opRange o).2 (s.setFlc { s.flc with resume := none }))
  else
    let w := if o.src = 0 then pbufBytes s o.n else o.data
    let c := flashCheck s o w
    if c ≠ 0 then flashEnd o c 0 0 s
    else setFlashOp (some { o with stage := 1, begun := true, data := w, sep := o.code == 3 && oneByOne s o })
      (uncheck (opRange o).1 (opRange o).2 s)

/-- The arbiter grants the flash operation's leave (R346). -/
def flashGrant (s : State) : State := match s.flc.op with | some o => flashBegin o s | none => s

/-- A write of FLC_CMD with an operation: COUNT takes the value, and the operation starts unless a register command is pending or
running (R346, R357). -/
def flashStart (code : Nat) (v : Word) (s : State) : State :=
  let t := s.regWrite FLC_CMD.reg v
  if t.on FLC_CMD.BUSY then t
  else flashArrive { code := code, addr := t.rd FLC_ADDR.ADDR, n := t.rd FLC_CMD.COUNT, data := [], stage := 0, begun := false } t

/-- PROGRAM (R347). -/
def execProgram (f : Fn) (v : Word) (s : State) : Host.Outcome State Fault Refusal :=
  .next (s.p0Only f 0x80020 (flashStart 1 v s))

/-- ERASE_SECTOR (R352). -/
def execEraseSector (f : Fn) (v : Word) (s : State) : Host.Outcome State Fault Refusal :=
  .next (s.p0Only f 0x80020 (flashStart 2 v s))

/-- ERASE_BLOCK (R352). -/
def execEraseBlock (f : Fn) (v : Word) (s : State) : Host.Outcome State Fault Refusal :=
  .next (s.p0Only f 0x80020 (flashStart 3 v s))

/-- A running erase is suspended: its leave returns, and what is pending goes on (R351). -/
def flashSuspend (s : State) : State :=
  match s.flc.op with
  | some o =>
    if eraseOpen o && o.stage == 1 then
      flashNext (flashStatus ((s.setFlc { s.flc with op := none, resume := some { o with stage := 2 } }).returnLeave .flash))
    else s
  | none => s

/-- SUSPEND (R351). -/
def execSuspend (f : Fn) (v : Word) (s : State) : Host.Outcome State Fault Refusal :=
  .next (s.p0Only f 0x80020 (flashSuspend (s.regWrite FLC_CMD.reg v)))

/-- A suspended erase asks for leave again, behind what is pending, unless it does already; it stays suspended until it goes on (R346, R351). -/
def flashResume (s : State) : State :=
  match s.flc.resume with
  | some e => if (s.flc.op.toList ++ s.flc.wait).any eraseOpen then s else flashArrive { e with stage := 0 } s
  | none => s

/-- RESUME (R351). -/
def execResume (f : Fn) (v : Word) (s : State) : Host.Outcome State Fault Refusal :=
  .next (s.p0Only f 0x80020 (flashResume (s.regWrite FLC_CMD.reg v)))

/-- The register command's operation, if it is pending or waits for leave, ends ABORTED; one that has begun its first pulse goes on (R346). -/
def flashAbort (s : State) : State :=
  let mine := fun (o : FlashOp) => o.src == 0 && !o.begun
  match s.flc.op.filter mine, s.flc.wait.filter mine with
  | some o, _ => flashEnd o 10 0 0 s
  | none, _ :: _ =>
    let t := flashStatus (s.setFlc { s.flc with wait := s.flc.wait.filter (fun o => !mine o) })
    (((t.wr FLC_RES.STATUS 10).wr FLC_RES.DONE 0).wr FLC_RES.REMAPPED 0).raise 12 0
  | none, [] => s

/-- ABORT (R346). -/
def execAbort (f : Fn) (v : Word) (s : State) : Host.Outcome State Fault Refusal :=
  .next (s.p0Only f 0x80020 (flashAbort (s.regWrite FLC_CMD.reg v)))

/-- n program words of a program stand from its address on. -/
def programWords (o : FlashOp) (n : Nat) (s : State) : State :=
  (List.range n).foldl (fun t k => programWord t (o.addr + 16 * k) ((o.data.drop (16 * k)).take 16)) s

/-- A program ends: all its words verify, or the first of `fail` does not (R347, R355). -/
def programEnd (o : FlashOp) (fail : List Nat) (s : State) : State :=
  match fail.head? with
  | some w =>
    if w < o.n then
      let t := leaveTorn (programWords o w s) (o.addr + 16 * w)
      let p := physSector s (o.addr / 4096)
      let u := { t with nvm := { t.nvm with failed := if t.nvm.failed.contains p then t.nvm.failed else t.nvm.failed ++ [p] } }
      flashEnd o 7 w 0 u
    else flashEnd o 0 o.n 0 (programWords o o.n s)
  | none => flashEnd o 0 o.n 0 (programWords o o.n s)

/-- An erase ends: sectors in `fail` did not verify, spares in `worse` failed their own erase (R352, R355). Of a block erase that goes sector by
sector, the sector under way ends and the next one takes its mark. -/
def eraseDone (o : FlashOp) (fail worse : List Nat) (s : State) : State :=
  let r := (opSectors o).foldl (eraseEnd fail worse) (s.setFlc { s.flc with op := none }, bitOn o.acc 0, bitOn o.acc 1)
  let acc := (if r.2.1 then 1 else 0) + (if r.2.2 then 2 else 0)
  if o.sep ∧ o.cur < 15 then setFlashOp (some { o with cur := o.cur + 1, acc := acc }) r.1
  else flashEnd o (if r.2.2 then 8 else 0) 0 (if r.2.1 then 1 else 0) r.1

/-- A record of a ledger area's high-water GEN is written (R341). -/
def highDone (o : FlashOp) (s : State) : State :=
  flashEnd o 0 0 0 (putInfo (if o.addr = 0 then { s.info with highA := o.n } else { s.info with highB := o.n }) s)

/-- The running program or erase ends with its status and returns its leave (R346). -/
def opDone (fail worse : List Nat) (s : State) : State :=
  match s.flc.op with
  | some o =>
    if o.stage = 1 ∧ o.begun then
      (if o.code = 7 then highDone o s else if o.code = 1 then programEnd o fail s else eraseDone o fail worse s)
    else s
  | none => s

/-! ## Window reads -/

/-- The operation that keeps a sector's reads busy: one that runs in its bank, or a suspended erase of the sector (R349, R351). -/
def busyOp (s : State) (sec : Nat) : Option FlashOp :=
  match (runningOp s).filter (fun o => bitOn (opBanks s o) (physSector s sec / 2048)) with
  | some o => some o
  | none => s.flc.resume.filter (fun e => (opSectors e).contains sec)

/-- The status word of a busy bank (R349). -/
def busyWord (o : FlashOp) : Word :=
  BitVec.ofNat 32 (0xB5 * 2 ^ 24 + o.code * 2 ^ 20 + (if o.sep then (opSectors o).headD 0 else o.addr / 4096))

/-- A program word whose stored bits read back with those of a mask changed, bits 127-0 the data and 136-128 the check bits: the word read and
what the SEC-DED code finds, 0 no error, 1 one bit corrected, 2 uncorrectable (R344, R350). -/
def eccRead (s : State) (w flips : Nat) : List Byte × Nat :=
  let d := (List.range 16).map (fun k => physByte s (16 * w + k))
  let c := physCheck s w
  let d' := octets 16 (Nat.xor (unoctets d) (flips % 2 ^ 128))
  let c' := Nat.xor c (flips / 2 ^ 128 % 512)
  let sound := c == Config.eccOf d % 512 || (c == 511 && d.all (fun b => b == 255))
  match sound, (bitsOf flips 137).length with
  | true, 0 => (d, 0)
  | true, 1 => (d, 1)
  | true, 2 => (d', 2)
  | _, _ =>
    let k := Config.eccKind d' c' % 3
    (if k = 1 then Config.eccFix d' c' else d', k)

/-- An ECC event is counted, logged and raised (R350). -/
def eccEvent (a kind : Nat) (s : State) : State :=
  let t := s.inc (if kind = 1 then FLC_CNT_ECC_CORR.COUNT else FLC_CNT_ECC_UNCORR.COUNT)
  (((t.wr FLC_ECC_LOG.ADDR (a / 16)).wr FLC_ECC_LOG.KIND (kind - 1)).wr FLC_ECC_LOG.VALID 1).raise 12 kind

/-- A window read of the word at offset off: the word, its KIND, and the state after; flips are the bits of the program word that read back
changed (R348, R349, R350). -/
def windowRead (off flips : Nat) (s : State) : Word × State :=
  let sec := s.rd FLC_WIN.SECTOR
  let a := 4096 * sec + off / 4 * 4
  let w := physAddr s a / 16
  let pick (d : List Byte) : Word := BitVec.ofNat 32 (unoctets ((d.drop (a % 16)).take 4))
  let raw := pick (octets 16 (Nat.xor (unoctets ((List.range 16).map (fun k => physByte s (16 * w + k)))) (flips % 2 ^ 128)))
  let kind (k : Nat) : State := s.wr FLC_RD_STS.KIND k
  if 8128 ≤ sec then (0xFFFFFFFF, kind 6)
  else if sectorBad s sec then (raw, kind 5)
  else match busyOp s sec with
    | some o =>
      if s.nvm.marks.contains (physSector s sec) && !underErase s sec then (raw, kind 4) else (busyWord o, kind 3)
    | none =>
      if sectorOpen s sec then (raw, kind 4)
      else if overlay s sec then (raw, kind 0)
      else
        let r := eccRead s w flips
        (pick r.1, if r.2 = 0 then kind 0 else eccEvent a r.2 (kind r.2))

/-- WINDOW_READ (R350). -/
def execWindowRead (f : Fn) (off flips : Nat) (s : State) : Host.Outcome State Fault Refusal :=
  let r := windowRead off flips s
  ranged (decide (off < 4096) && decide (flips < 2 ^ 137)) (s.p0Only f (0x88000 + off) (r.2.post (.readData r.1)))

/-- What FLC_SECT_INFO shows of the queried sector (R353, R357). -/
def sectInfo (s : State) : Word :=
  let q := s.rd FLC_SECT_Q.SECTOR
  let nxt := ((List.range 8128).find? (fun k => decide (q ≤ k) && sectorOpen s k)).getD 0x1FFF
  let b (x : Bool) : Nat := if x then 1 else 0
  BitVec.ofNat 32 (b (sectorOpen s q) + 2 * b (sectorBad s q) + 4 * b (spareOf s q).isSome + 8 * b (overlay s q)
    + 16 * (spareOf s q).getD 0 + 65536 * nxt)

/-! ## Brown-out and reset -/

/-- FLC_BO_LOG takes the operation's address and code, and BROWN_OUT is raised (R354). -/
def boLog (addr op : Nat) (s : State) : State :=
  (((s.wr FLC_BO_LOG.ADDR addr).wr FLC_BO_LOG.OP op).wr FLC_BO_LOG.VALID 1).raise 12 4

/-- What an interrupted erase leaves. pos / 3 is the sector reached, pos % 3 the phase: 0 its mark is being set, 1 pulses run, 2 its
mark is being cleared (R352, R354). -/
def eraseCut (o : FlashOp) (pos : Nat) (s : State) : State :=
  let secs := opSectors o
  let k := min (pos / 3) (secs.length - 1)
  match pos % 3 with
  | 0 => (secs.take (k + 1)).foldl leaveMark s
  | 1 => secs.foldl leaveWild (secs.foldl leaveMark s)
  | _ => (secs.drop k).foldl leaveMark (secs.foldl clearSector s)

/-- The words of a program that were complete when it was cut off at a point. -/
def wordsDone (o : FlashOp) (pos : Nat) : Nat := min pos (o.n - 1)

/-- An operation of the array is cut off: a program leaves the word in progress unreliable (R354), an erase its marks set, a record of the
information row its copy without its CRC (R356). -/
def flashCut (o : FlashOp) (pos : Nat) (s : State) : State :=
  if o.code = 7 then cutInfo s
  else if o.code = 1 then leaveTorn (programWords o (wordsDone o pos) s) (o.addr + 16 * wordsDone o pos)
  else eraseCut o pos s

/-- The FLC_BO_LOG code of an interrupted operation (R357). -/
def cutCode (o : FlashOp) (pos : Nat) : Nat :=
  if o.code = 1 ∨ o.code = 7 then 1 else match pos % 3 with | 0 => 4 | 1 => o.code | _ => 5

/-- The address that FLC_BO_LOG takes: the operation's, none for the information row. -/
def cutAddr (o : FlashOp) : Nat := if o.code = 7 then 0 else o.addr

/-- A supply is low: the pulse in progress ends and the log is written (R354). pos is the point the operation had reached. -/
def flashBrownOut (pos : Nat) (s : State) : State :=
  let t := s.setFlc { s.flc with low := true }
  match s.flc.op with
  | some o =>
    if o.stage = 1 ∧ o.begun then
      let u := flashCut o pos (t.setFlc { t.flc with op := none })
      boLog (cutAddr o) (cutCode o pos)
        (u.setFlc { u.flc with op := some { o with stage := 5, cur := if o.code = 1 then wordsDone o pos else o.cur } })
    else t
  | none => t

/-- FLASH_BROWN_OUT (R354). -/
def execFlashBrownOut (pos : Nat) (s : State) : Host.Outcome State Fault Refusal := .next (flashBrownOut pos s)

/-- The supplies have recovered: the interrupted operation ends BROWN_OUT and returns its leave; one that had leave and no pulse begins
(R354). -/
def supplyBack (s : State) : State :=
  let t := s.setFlc { s.flc with low := false }
  match s.flc.op with
  | some o =>
    if o.stage = 5 then flashEnd o 9 (if o.code = 1 then o.cur else 0) 0 t
    else if o.stage = 4 then flashBegin o t
    else t
  | none => t

/-- An operation that a CHIP reset cuts off, at a point that the reset chose, a free value (R354; log entry 24). -/
def resetCut (o : FlashOp) (s : State) : State :=
  if o.begun ∧ o.stage = 1 then flashCut o (s.freeVal (max 1 (if o.code = 1 then o.n else 48))) s.freed else s

/-- A suspended erase keeps its marks over a CHIP reset, and its sectors are unreliable (R351, R353). -/
def resumeCut (o : FlashOp) (s : State) : State := (opSectors o).foldl leaveWild ((opSectors o).foldl leaveMark s)

/-- What a CHIP reset finds of the operations in the array; then the mark scan counts the open sectors and the information row settles
(R351, R352, R353, R356). -/
def flashReset (s : State) : State :=
  let t := s.setFlc { s.flc with op := none, wait := [], works := [], resume := none }
  let u := s.flc.resume.toList.foldl (fun x o => resumeCut o x) (s.flc.op.toList.foldl (fun x o => resetCut o x) t)
  let v := settleInfo u
  (v.wr FLC_OPEN_CNT.COUNT ((List.range 8128).filter (sectorOpen v)).length).wr FLC_SPARE.USED (sparesUsed v.info)

end Sys2Proof.Machine
end

