-- ==== Sys2Proof/Machine/EngRegs.lean ====
section
/-! DEFINITION. The registers of one engine and of one supervisor core as they read and as writes act on them (R236-R241), and the bounds of the
memories that the host's engine commands reach (R281). -/

namespace Sys2Proof.Machine

/-- No device registers: engines reach none (R231). -/
def noDev : Dev := ⟨fun _ _ _ s => (s, 0), fun _ _ _ _ s => s⟩

/-- ENG_En_STS as it reads: PART follows the partition map (R240). -/
def engSts (e : Nat) (s : State) : Word := bfSet (s.reg (ENG_STS.reg (e / 8) (e % 8))) 16 6 (s.engOwner e)

/-- The word at an offset of an engine's register block (R240). -/
def engRead (e r : Nat) (s : State) : Word :=
  if r = 0x04 then engSts e s
  else if r = 0x08 then (s.core e).pc
  else if r = 0x0C then BitVec.ofNat 32 ((s.sys e 0x11).toNat % 16)
  else if r = 0x24 then BitVec.ofNat 32 ((s.eng.outst.filter (fun q => q.1 == e)).length + 65536 * (noticesOf s e).length)
  else if 0x80 ≤ r ∧ r < 0x100 then (if s.rd (stateF e) = 0 then s.g e ((r - 0x80) / 4) else 0)
  else s.reg (ENG_CTRL.reg (e / 8) (e % 8) + r)

/-- A core that was told to step executes its one instruction. -/
def stepNow (dev : Dev) (c : Nat) (s : State) : State :=
  if (s.core c).stepping && running s c then stepCore dev c s else s

/-- Requests written to an engine's control register, in the order RESET with CLEAR, HALT, STEP, RUN (R236, R237, R281). -/
def engCtrl (e : Nat) (run halt step reset clear : Bool) (s : State) : State :=
  let s1 := if reset then engReset e clear s else s
  let s2 := if halt then coreHalt e s1 else s1
  let s3 := if step then stepNow noDev e (engRun e 2 s2) else s2
  if run then engRun e 1 s3 else s3

/-- A write at an offset of an engine's register block (R240). -/
def engWrite (e r : Nat) (v : Word) (s : State) : State :=
  let b := fun (k : Nat) => bf v k 1 == 1
  if r = 0 then engCtrl e (b 0) (b 1) (b 2) (b 3) (b 4) (s.wr (dbgF e) (bf v 8 1))
  else if r = 0x08 then (if s.rd (stateF e) = 0 then s.setPc e v.toNat else s)
  else if 0x80 ≤ r ∧ r < 0x100 then (if s.rd (stateF e) = 0 then s.setG e ((r - 0x80) / 4) v else s)
  else s.regWrite (ENG_CTRL.reg (e / 8) (e % 8) + r) v

/-- Words are written in ascending order at an engine's register block. -/
def engWrites (e : Nat) : List Word → Nat → State → State
  | [], _, s => s
  | w :: ws, r, s => engWrites e ws (r + 4) (engWrite e r w s)

/-- The word at an offset of a supervisor's register block (R241). -/
def supRead (n r : Nat) (s : State) : Word :=
  let c := 64 + n
  if r = 0x04 then bfSet (s.reg (SUP_STS.reg n)) 8 1 (bf (s.sys c 0x14) 2 1)
  else if r = 0x08 then (s.core c).pc
  else if r = 0x0C then BitVec.ofNat 32 ((s.sys c 0x11).toNat % 16)
  else if 0x80 ≤ r ∧ r < 0x100 then (if s.rd (stateF c) = 0 then s.g c ((r - 0x80) / 4) else 0)
  else s.reg (SUP_CTRLN.reg n + r)

/-- Requests written to a supervisor's control register. A step is left to the core's next instruction. -/
def supCtrl (n : Nat) (run halt step reset : Bool) (s : State) : State :=
  let s1 := if reset then supReset n s else s
  let s2 := if halt then coreHalt (64 + n) s1 else s1
  let s3 := if step then supRun n true s2 else s2
  if run then supRun n false s3 else s3

/-- A write at an offset of a supervisor's register block (R241). -/
def supWrite (n r : Nat) (v : Word) (s : State) : State :=
  let c := 64 + n
  let b := fun (k : Nat) => bf v k 1 == 1
  if r = 0 then supCtrl n (b 0) (b 1) (b 2) (b 3) (s.wr (dbgF c) (bf v 8 1))
  else if r = 0x08 then (if s.rd (stateF c) = 0 then s.setPc c v.toNat else s)
  else if 0x80 ≤ r ∧ r < 0x100 then (if s.rd (stateF c) = 0 then s.setG c ((r - 0x80) / 4) v else s)
  else s.regWrite (SUP_CTRLN.reg n + r) v

/-- The size of an engine's target: IMEM, DMEM, shared segment, registers (R281). -/
def engTarget (mem : Nat) : Nat := match mem with | 0 => 0x8000 | 1 => 0x10000 | 2 => 0x10000 | _ => 0x100

/-- The offset and length of an engine command fit its target (R281). -/
def engFits (mem off len : Nat) : Bool := off % 4 == 0 && len % 4 == 0 && decide (off + len ≤ engTarget mem)

/-- The BAR0 offset of an engine's memory. -/
def engMem (e mem : Nat) : Nat := match mem with | 0 => imemBase e | 1 => dmemBase e | _ => segBase e

/-- The words of an octet string. -/
def wordsOf : Nat → List Byte → List Word
  | 0, _ => []
  | n + 1, bs => BitVec.ofNat 32 (unoctets (bs.take 4)) :: wordsOf n (bs.drop 4)

/-- Octets are written to an engine's target; writes to memory are ignored while a clear runs (R237, R238). -/
def engPut (e mem off : Nat) (bs : List Byte) (s : State) : State :=
  if mem = 3 then engWrites e (wordsOf (bs.length / 4) bs) off s
  else if mem = 0 then imemWrite e off bs s
  else if clearing s e then s
  else s.store none (engMem e mem + off) bs

/-- Octets of an engine's target. -/
def engGet (e mem off len : Nat) (s : State) : List Byte :=
  if mem = 3 then (List.range (len / 4)).flatMap (fun k => octets 4 (engRead e (off + 4 * k) s).toNat)
  else s.bytes (engMem e mem + off) len

end Sys2Proof.Machine
end

