-- ==== Sys2Proof/Machine/Security.lean ====
section
/-! DEFINITION. The cipher cluster's commands (R242-R248, R260-R266): key operations, seal jobs, marks, alarms, the random source. -/

namespace Sys2Proof.Machine

/-! ## Key operations (R245-R248) -/

/-- Octets lo to lo + n - 1 of a key blob. -/
def blobBytes (b : BitVec 640) (lo n : Nat) : List Byte := ((recBytes 80 b).drop lo).take n

/-- The plaintext of a blob under a wrap key, if its tag verifies (R245). -/
def unwrap (key : List Byte) (b : BitVec 640) : Option (List Byte) :=
  let plain := Config.ccmPlain key (blobBytes b 0x10 13) (blobBytes b 0 16) (blobBytes b 0x20 32)
  if Config.ccmTag 16 key (blobBytes b 0x10 13) (blobBytes b 0 16) plain = blobBytes b 0x40 16 then some plain else none

/-- A key slot exists (R243, R246). -/
def slotExists (slot : Nat) (long : Bool) : Bool := if long then decide (slot < 256) else decide (slot < 65536)

/-- The owner of a key operation's target (R200). -/
def keyOwner (s : State) (slot : Nat) (long : Bool) : Nat := if long then s.longOwner slot else s.slotOwner slot

/-- A key slot's state: a slot that does not exist holds no key. -/
def keyState (s : State) (slot : Nat) (long : Bool) : Nat :=
  if !slotExists slot long then 0 else if long then (s.lslot slot).state else (s.kslot slot).state

/-- The format of a blob fits its target (check 4 of R246). -/
def blobOk (b : BitVec 640) (long : Bool) : Bool :=
  KB.FORMAT.of b == 1 && KB.KIND.of b == (if long then 2 else 1) && KB.ZERO0.of b == 0 && KB.ZERO1.of b == 0 &&
    (if long then KB.LONG_ZERO.of b == 0 else KB.KEY_ID_MODE.of b != 3 && KB.TX_FC.of b != 0xFFFFFFFF)

/-- The wrap slot is allowed for the target (check 5 of R246). -/
def wrapAllowed (s : State) (w slot : Nat) (long : Bool) : Bool :=
  if long then w == 0 || s.longOwner w == s.longOwner slot else w != 0 && s.longOwner w == s.slotOwner slot

/-- Checks 1 to 6 of a load, which need no unwrap job: the first status that fails, or zero (R246). -/
def loadEarly (s : State) (k : Kop) : Nat :=
  let w := KB.WRAP_SLOT.of k.blob
  if !slotExists k.slot k.long ∨ (k.long ∧ k.slot = 0) then 7
  else if s.sec.tamper then 8
  else if k.op = 1 ∧ keyState s k.slot k.long ≠ 0 then 1
  else if !blobOk k.blob k.long then 2
  else if !wrapAllowed s w k.slot k.long then 4
  else if (s.lslot w).state ≠ 1 then 3
  else 0

/-- Checks 7 to 9 of a load under the wrap key that its unwrap job read, with the plaintext (R246, R248). -/
def loadLate (s : State) (key : List Byte) (k : Kop) : Nat × List Byte :=
  match unwrap key k.blob with
  | none => (5, [])
  | some p =>
    if !k.long ∧ (p.drop 16).any (· != 0) then (2, [])
    else if !k.long ∧ KB.PART_BIND.of k.blob = 1 ∧ KB.PART.of k.blob ≠ keyOwner s k.slot k.long then (6, [])
    else (0, p)

/-- A loaded target: key, attributes and counter change at one instant; REPLACE of a short slot squashes (R247). -/
def loadSlot (k : Kop) (plain : List Byte) (s : State) : State :=
  if k.long then s.setLslot k.slot { state := 1, key := plain }
  else
    let b := k.blob
    let t := s.setKslot k.slot { state := 1, key := plain.take 16, mode := KB.KEY_ID_MODE.of b, index := KB.KEY_INDEX.of b
                                 source := KB.KEY_SOURCE.of b, fc := KB.TX_FC.of b }
    if k.op = 2 then squashSlot k.slot t else t

/-- ERASE empties the slot and, for a short one, squashes (R247). -/
def eraseSlot (k : Kop) (s : State) : State :=
  if k.long then s.setLslot k.slot {} else squashSlot k.slot (s.setKslot k.slot {})

/-- The bark refuses a key operation's target to a partition (R201, R246). -/
def kopDenied (s : State) (k : Kop) : Bool := slotExists k.slot k.long && k.tag != 0 && keyOwner s k.slot k.long != k.tag

/-- The unwrap job of the load whose turn it is is issued, once its checks 1 to 6 are passed and a transmit context is free, ahead of
every other job: it reads its wrap key at issue (R246, R248, R249). -/
def unwrapIssue (s : State) : State :=
  match s.sec.kops with
  | k :: _ =>
    if s.sec.unwrapKey = none ∧ k.op ≤ 2 ∧ !kopDenied s k ∧ loadEarly s k = 0 ∧ keyJobsRun s ∧ txUsed s < 32 then
      { s with sec := { s.sec with unwrapKey := some (s.lslot (KB.WRAP_SLOT.of k.blob)).key } }
    else s
  | [] => s

/-- A key operation's effect and status; none while its unwrap job cannot run (R246-R249). -/
def kopRun (k : Kop) (s : State) : Option (State × Nat) :=
  if kopDenied s k then
    some (s.bark k.tag 2 (if k.long then 3 else 2) k.slot, 9)
  else if k.op ≤ 2 then
    match s.sec.unwrapKey with
    | some key =>
      let r := loadLate s key k
      some (if r.1 = 0 then loadSlot k r.2 s else s, r.1)
    | none => if loadEarly s k = 0 then none else some (s, loadEarly s k)
  else if k.op = 3 then
    (if !slotExists k.slot k.long ∨ (k.long ∧ k.slot = 0) then some (s, 7) else some (eraseSlot k s, 0))
  else some (s, if slotExists k.slot k.long then 0 else 7)

/-- The owner's operation reports in the registers (R266). -/
def kopReg (k : Kop) (st : Nat) (s : State) : State :=
  let v := s.kslot k.slot
  let s1 := ((s.wr SEC_KOP_RES.STATUS st).wr SEC_KOP_RES.STATE (keyState s k.slot k.long)).wr SEC_KOP_CMD.BUSY 0
  if k.op = 4 ∧ !k.long ∧ st = 0 then
    (((s1.wr SEC_KOP_ATTR.KEY_ID_MODE v.mode).wr SEC_KOP_ATTR.KEY_INDEX v.index).wr SEC_KOP_FC.TX_FC v.fc).wr SEC_KOP_SRC.KEY_SOURCE v.source
  else s1

/-- A host command's operation completes (R278, R282). -/
def kopHost (k : Kop) (x st : Nat) (s : State) : State :=
  let v := s.kslot k.slot
  let state := keyState s k.slot k.long
  if st = 9 then s.complete x 0x0C 0 0 0 0
  else if st ≠ 0 then s.complete x 0x16 st 0 0 state
  else if k.op = 4 ∧ !k.long then s.complete x 0 0 0 (v.fc + 2 ^ 32 * v.source) (state + 256 * v.mode + 65536 * v.index)
  else s.complete x 0 0 0 0 state

/-- The key operation whose turn it is completes, and the next one's job is issued (R248). An unwrap job that could not be issued before,
or that an alarm or a RADIO reset has ended, is issued now. -/
def kopDone (s0 : State) : State :=
  let s := unwrapIssue s0
  match s.sec.kops with
  | [] => s
  | k :: ks =>
    match kopRun k s with
    | none => s
    | some (t, st) =>
      let s1 := unwrapIssue { t with sec := { t.sec with kops := ks, unwrapKey := none } }
      let s2 := (if st = 0 then s1 else s1.inc SEC_CNT_KOP_FAIL.COUNT).raise 6 6
      match k.ctx with
      | none => kopReg k st s2
      | some x => kopHost k x st s2

/-- KOP_DONE. -/
def execKopDone (s : State) : Host.Outcome State Fault Refusal := .next (kopDone s)

/-- The blob that SEC_KBLOB holds. -/
def kblob (s : State) : BitVec 640 :=
  BitVec.ofNat 640 ((List.range 20).foldr (fun w acc => (s.reg (SEC_KBLOB.reg w)).toNat + 2 ^ 32 * acc) 0)

/-- A key operation joins the queue; the job of one whose turn it is at once is issued. -/
def kopAsk (k : Kop) (s : State) : State := unwrapIssue { s with sec := { s.sec with kops := s.sec.kops ++ [k] } }

/-- A write of SEC_KOP_CMD with an operation: ignored while one runs (R266). -/
def kopCmd (op slot : Nat) (long : Bool) (s : State) : State :=
  if s.on SEC_KOP_CMD.BUSY then s
  else
    let s1 := ((s.wr SEC_KOP_CMD.SLOT slot).wr SEC_KOP_CMD.LONG (if long then 1 else 0)).wr SEC_KOP_CMD.BUSY 1
    kopAsk ⟨0, none, op, slot % 65536, long, kblob s⟩ s1

/-- LOAD. -/
def execLoad (f : Fn) (slot : Nat) (long : Bool) (s : State) : Host.Outcome State Fault Refusal :=
  .next (s.p0Only f SEC_KOP_CMD.reg (kopCmd 1 slot long s))
/-- REPLACE. -/
def execReplace (f : Fn) (slot : Nat) (long : Bool) (s : State) : Host.Outcome State Fault Refusal :=
  .next (s.p0Only f SEC_KOP_CMD.reg (kopCmd 2 slot long s))
/-- ERASE. -/
def execErase (f : Fn) (slot : Nat) (long : Bool) (s : State) : Host.Outcome State Fault Refusal :=
  .next (s.p0Only f SEC_KOP_CMD.reg (kopCmd 3 slot long s))
/-- STATUS. -/
def execStatus (f : Fn) (slot : Nat) (long : Bool) (s : State) : Host.Outcome State Fault Refusal :=
  .next (s.p0Only f SEC_KOP_CMD.reg (kopCmd 4 slot long s))

/-! ## Seal jobs (R260) -/

/-- A seal or unseal is refused before any job: BAD_ARG for long slot 0 or a range outside supervisor memory, LOCKED under the tamper latch,
WRAP_EMPTY without a key; zero where none applies (R260, R265). PDATA counts the plaintext; the tag follows the ciphertext. -/
def sealRefusal (op : Nat) (s : State) : Nat :=
  let k := s.rd SEC_SEAL_CTRL.LONG
  let n := s.rd SEC_SEAL_LEN.PDATA
  if k = 0 ∨ 0x200000 < s.rd SEC_SEAL_SRC.OFFSET + s.rd SEC_SEAL_LEN.ADATA + n + (if op = 2 then 16 else 0) ∨
      0x200000 < s.rd SEC_SEAL_DST.OFFSET + n + (if op = 1 then 16 else 0) then 3
  else if s.sec.tamper then 4
  else if (s.lslot k).state ≠ 1 then 2
  else 0

/-- A frame waits for its encrypt job and could be prepared now: seal jobs come behind it (R249). -/
def frameJobWaits (s : State) : Bool := frameJobsRun s && s.txc.ents.any (fun p => p.2.secure && preparable s p.2)

/-- A seal job takes a free transmit context behind every frame job, and reads its key (R248, R249). -/
def sealIssue (s : State) : State :=
  match s.sec.sealing with
  | some op =>
    if s.sec.sealKey = none ∧ sealRefusal op s = 0 ∧ keyJobsRun s ∧ txUsed s < 32 ∧ !frameJobWaits s then
      { s with sec := { s.sec with sealKey := some (s.lslot (s.rd SEC_SEAL_CTRL.LONG)).key } }
    else s
  | none => s

/-- A seal or unseal is asked for; its job is issued where a context is free. -/
def sealCmd (op long : Nat) (s : State) : State :=
  if s.on SEC_SEAL_CTRL.BUSY then s
  else sealIssue { (s.wr SEC_SEAL_CTRL.LONG long).wr SEC_SEAL_CTRL.BUSY 1 with sec := { s.sec with sealing := some op } }

/-- SEAL. -/
def execSeal (f : Fn) (long : Nat) (s : State) : Host.Outcome State Fault Refusal := .next (s.p0Only f SEC_SEAL_CTRL.reg (sealCmd 1 long s))
/-- UNSEAL. -/
def execUnseal (f : Fn) (long : Nat) (s : State) : Host.Outcome State Fault Refusal := .next (s.p0Only f SEC_SEAL_CTRL.reg (sealCmd 2 long s))

/-- The nonce of the seal registers. -/
def sealNonce (s : State) : List Byte := (((List.range 4).map (fun j => s.reg (SEC_SEAL_N.reg j))).flatMap (fun w => octets 4 w.toNat)).take 13

/-- A seal or unseal job's status under the key it read, and what it writes to supervisor memory (R260). -/
def sealRun (op : Nat) (key : List Byte) (s : State) : Nat × List Byte :=
  let src := supBase + s.rd SEC_SEAL_SRC.OFFSET
  let a := s.rd SEC_SEAL_LEN.ADATA
  let p := s.rd SEC_SEAL_LEN.PDATA
  let n := sealNonce s
  let ad := s.bytes src a
  let d := s.bytes (src + a) p
  if op = 1 then (0, Config.ccmCipher key n ad d ++ Config.ccmTag 16 key n ad d)
  else
    let plain := Config.ccmPlain key n ad d
    if Config.ccmTag 16 key n ad plain = s.bytes (src + a + p) 16 then (0, plain) else (1, [])

/-- A seal operation ends with a status. -/
def sealEnd (status : Nat) (s : State) : State :=
  { (s.wr SEC_SEAL_CTRL.STATUS status).wr SEC_SEAL_CTRL.BUSY 0 with sec := { s.sec with sealing := none, sealKey := none } }

/-- A seal or unseal ends: by its job's result, or refused while no job of it is under way, even while no job is issued (R249, R260). A job
that could not be issued before is issued now. -/
def sealDone (s0 : State) : State :=
  let s := sealIssue s0
  match s.sec.sealing, s.sec.sealKey with
  | some op, some key =>
    let r := sealRun op key s
    let s1 := sealEnd r.1 s
    if r.2.isEmpty then s1 else s1.store none (supBase + s.rd SEC_SEAL_DST.OFFSET) r.2
  | some op, none => if sealRefusal op s = 0 then s else sealEnd (sealRefusal op s) s
  | none, _ => s

/-- SEAL_DONE. -/
def execSealDone (s : State) : Host.Outcome State Fault Refusal := .next (sealDone s)

/-! ## Marks (R259, R266) -/

/-- The oldest mark leaves the FIFO. -/
def markPop (s : State) : State := { s with sec := { s.sec with marks := s.sec.marks.drop 1 } }

/-- MARK_POP. -/
def execMarkPop (f : Fn) (s : State) : Host.Outcome State Fault Refusal := .next (s.p0Only f SEC_MARK_POP.reg (markPop s))

/-! ## Alarms (R261, R263-R265) -/

/-- A transmit job is aborted: its counter is burned, and its entry is prepared again, or becomes FREE where it was squashed. -/
def abortTx (s : State) (e : Nat) : State :=
  let x := s.ent e
  let s1 := (s.inc SEC_CNT_ABORTED.COUNT).inc TXC_CNT_BURN.COUNT
  if x.dead then s1.setEnt e {}
  else (freeCells x.cells s1).setEnt e { x with st := 1, cells := [], fc := none, job := false, psdu := [] }

/-- A receive job is aborted: its frame waits for verification again. -/
def abortRx (s : State) (cell : Nat) : State :=
  let s1 := s.inc SEC_CNT_ABORTED.COUNT
  { s1 with que := { s1.que with rxs := s1.que.rxs.map (fun r => if r.descCell = cell then { r with stage := 0 } else r) } }

/-- The unwrap or the seal job in flight is aborted: its operation waits for another job (DESIGN CHOICE, log entry 83). -/
def abortUnwrap (s : State) : State :=
  if s.sec.unwrapKey.isSome then { s.inc SEC_CNT_ABORTED.COUNT with sec := { s.sec with unwrapKey := none } } else s
/-- As abortUnwrap, of a seal job. -/
def abortSeal (s : State) : State :=
  if s.sec.sealKey.isSome then { s.inc SEC_CNT_ABORTED.COUNT with sec := { s.sec with sealKey := none } } else s

/-- Jobs in flight are aborted (R263). -/
def abortJobs (s0 : State) : State :=
  let s := abortSeal (abortUnwrap s0)
  let s1 := { s with sec := { s.sec with rxJobs := [], txJobs := [] } }
  (s.sec.txJobs.map (·.ent)).foldl abortTx ((s.sec.rxJobs.map (·.cell)).foldl abortRx s1)

/-- Received frames that await verification under security fail with NO_KEY (R264). -/
def failAwaiting : List Rx → State → State
  | [], s => s
  | r :: rs, s =>
    failAwaiting rs (if r.hdr.secured ∧ r.stage < 2 ∧ !r.fcsBad then
      verifyFails (s.que.rxs.findIdx (fun q => q.descCell == r.descCell)) r SEC_CNT_NO_KEY.COUNT 1 1 s else s)

/-- A seal whose job an erasure aborted ends with what refuses it now that no slot holds a key (log entry 83). -/
def sealLost (was : Bool) (s : State) : State :=
  match s.sec.sealing with
  | some op => if was then sealEnd (sealRefusal op s) s else s
  | none => s

/-- An erasure (R264): every slot is empty, jobs are aborted, entries that use short slots are squashed, waiting frames fail. -/
def erasure (s : State) : State :=
  let s1 := sealLost s.sec.sealKey.isSome (abortJobs { s with sec := { s.sec with slots := [], longs := [] } })
  let s2 := squashAll 2 (fun e x => !isSlot e && x.slot.isSome) s1
  failAwaiting s2.que.rxs (s2.inc SEC_ALARM_CNT.COUNT)

/-- The action of an alarm: 0 REPORT, 1 HALT, 2 ERASE (R263). -/
def alarmAct (s : State) (a : Nat) : Nat :=
  match a with
  | 3 => s.rd SEC_ALARM_CFG.TEMP_ACT
  | 4 => s.rd SEC_ALARM_CFG.FAULT_ACT
  | 5 => s.rd SEC_ALARM_CFG.RNG_ACT
  | _ => 2

/-- A bit of SEC_ALARM_STS is set and ALARM raised. -/
def alarmBit (a : Nat) (s : State) : State :=
  let s1 := s.wr SEC_ALARM_STS.ALARM (bitSet (s.rd SEC_ALARM_STS.ALARM) a)
  (s1.wr SEC_ALARM_CAUSE.PRESENT (bitSet (s1.rd SEC_ALARM_CAUSE.PRESENT) a)).raise 6 5

/-- Which causes of alarms are still present at a read is a free value: they go without a command (R266; log entry 83). -/
def causesGone (s : State) : State :=
  s.freed.wr SEC_ALARM_CAUSE.PRESENT (Nat.land (s.rd SEC_ALARM_CAUSE.PRESENT) (s.freeVal 64))

/-- HALT is in force for an alarm. -/
def haltFor (a : Nat) (s : State) : State := { s with sec := { s.sec with haltBy := bitSet s.sec.haltBy a } }

/-- An alarm is detected: its bit, the tamper latch, its action (R263, R265). -/
def alarm (a : Nat) (s : State) : State :=
  let s1 := alarmBit a s
  let s2 := if a < 3 then { s1 with sec := { s1.sec with tamper := true } } else s1
  match alarmAct s a with
  | 0 => s2
  | 1 => abortJobs (haltFor a s2)
  | _ => haltFor a (erasure s2)

/-- The result of a faulted receive job is discarded with its frame (R261). -/
def faultRx (k : Nat) (s : State) : State :=
  match s.rx k with
  | some r =>
    if r.stage = 1 then
      dropRx k r (ackVerdict r false none ({ s with sec := { s.sec with rxJobs := s.sec.rxJobs.filter (fun j => j.cell != r.descCell) } }.inc
        SEC_CNT_ABORTED.COUNT))
    else s
  | none => s

/-- The result of a faulted transmit job is discarded and its counter burned (R261). -/
def faultTx (e : Nat) (s : State) : State :=
  if (s.ent e).st = 2 ∧ (s.ent e).job then
    abortTx { s with sec := { s.sec with txJobs := s.sec.txJobs.filter (fun j => j.ent != e) } } e
  else s

/-- The transmit-half job that a FAULT names: the encrypt job of an entry, 1,056 for the unwrap job, 1,057 for the seal job (R261). -/
def faultTxJob (e : Nat) (s : State) : State := if e = 1056 then abortUnwrap s else if e = 1057 then abortSeal s else faultTx e s

/-- ALARM: a FAULT names the receive or transmit job that was found faulty. VGLITCH is disarmed by a low PWR_GOOD (R428). -/
def execAlarm (a : Nat) (rx tx : Option Nat) (s : State) : Host.Outcome State Fault Refusal :=
  ranged (a < 6)
    (if a = 1 ∧ s.start.glitchOff then s else
     let s1 := match rx with | some k => if a = 4 then faultRx k s else s | none => s
     let s2 := match tx with | some e => if a = 4 then faultTxJob e s1 else s1 | none => s1
     alarm a s2)

/-- Alarm bits written as 1 whose cause is gone are cleared; HALT and the tamper latch follow (R265). -/
def alarmClear (v : Nat) (s : State) : State :=
  let old := s.rd SEC_ALARM_STS.ALARM
  let new := Nat.land old (Nat.lor (Nat.xor (v % 64) 63) (s.rd SEC_ALARM_CAUSE.PRESENT))
  let s1 := s.wr SEC_ALARM_STS.ALARM new
  { s1 with sec := { s1.sec with
      haltBy := Nat.land s1.sec.haltBy new
      tamper := if old % 8 ≠ 0 ∧ new % 8 = 0 then false else s1.sec.tamper } }

/-- ALARM_CLEAR: with the causes that the detectors show present. -/
def execAlarmClear (f : Fn) (v present : Nat) (s : State) : Host.Outcome State Fault Refusal :=
  .next (s.p0Only f SEC_ALARM_STS.reg (alarmClear v (s.wr SEC_ALARM_CAUSE.PRESENT present)))

/-! ## The random source (R262) -/

/-- A health test fails: repetition count or adaptive proportion. -/
def rngFail (apt : Bool) (s : State) : State :=
  (((s.wr (if apt then SEC_RNG_STS.APT_FAIL else SEC_RNG_STS.REP_FAIL) 1).inc SEC_RNG_CNT.COUNT)).raise 6 4

/-- RNG_HEALTH_FAIL. -/
def execRngHealthFail (apt : Bool) (s : State) : Host.Outcome State Fault Refusal := .next (rngFail apt s)

/-- A health failure is pending. -/
def rngPending (s : State) : Bool := s.on SEC_RNG_STS.REP_FAIL || s.on SEC_RNG_STS.APT_FAIL

/-- The start-up tests have passed: jobs may issue. -/
def execRngOk (s : State) : Host.Outcome State Fault Refusal :=
  .next { s.wr SEC_RNG_STS.RESEED_LEFT (2 ^ 20) with sec := { s.sec with rngUp := true } }

/-- A reseed falls due: done, or the RNG alarm while a failure persists. -/
def reseed (s : State) : State := if rngPending s then alarm 5 s else s.wr SEC_RNG_STS.RESEED_LEFT (2 ^ 20)

/-- RESEED. -/
def execReseed (s : State) : Host.Outcome State Fault Refusal := .next (if s.sec.rngUp then reseed s else s)

/-! ## Counter clears (R266) -/

/-- SEC_CNT_CLR.BLOCK. -/
def execSecCntClrBlock (f : Fn) (s : State) : Host.Outcome State Fault Refusal :=
  .next (s.p0Only f SEC_CNT_CLR.reg (s.zero [SEC_CNT_VERIFY_OK.COUNT, SEC_CNT_MIC_FAIL.COUNT, SEC_CNT_KEY_MISMATCH.COUNT,
    SEC_CNT_NO_KEY.COUNT, SEC_CNT_LOW_LEVEL.COUNT, SEC_CNT_FC_MAX.COUNT, SEC_CNT_NO_EXT.COUNT, SEC_CNT_BAD_LEVEL.COUNT,
    SEC_CNT_ENCRYPT.COUNT, SEC_CNT_EXHAUST.COUNT, SEC_CNT_ABORTED.COUNT, SEC_CNT_KOP_FAIL.COUNT]))

/-- SEC_CNT_CLR.PART. -/
def execSecCntClrPart (f : Fn) (s : State) : Host.Outcome State Fault Refusal :=
  .next (s.p0Only f SEC_CNT_CLR.reg (s.zero ((List.range 64).flatMap (fun p => (List.range 4).map (SEC_PCNT.COUNT p)))))

end Sys2Proof.Machine
end

