-- ==== Sys2Proof/Machine/Host.lean ====
section
/-! DEFINITION. The host interface (R267-R297): ports, fetch, every opcode, cancels, completions, messages, feature negotiation, virtual
functions. A command of the host that the device has fetched stands in its command context; an opcode's command names the context and runs
what stands there. Where it must wait it leaves the state as it is, and the same command later is its next try. -/

namespace Sys2Proof.Machine

/-! ## Functions and ports -/

/-- The MSI-X table size of a function (R292). -/
def vecCount (s : State) (fn : Nat) : Nat := if fn = 0 then s.rd HST_PF_VEC.COUNT else s.rd (HST_VF_VEC.COUNT fn)

/-- The function that owns a port may do DMA for it (R268). -/
def dmaOk (s : State) (q : Nat) : Bool := (s.func (s.portOwner q)).bme

/-- A 64-bit ring base of a port. -/
def ringBase (s : State) (lo : Nat) : Nat := s.rd64 lo

/-- The command contexts of the device (R25). -/
def allCtxs : Nat := 16384

/-- The contexts that port q holds. -/
def ctxsOf (s : State) (q : Nat) : Sparse Ctx := s.hst.ctxs.filter (fun p => p.2.port == q)

/-- A port reports an error. -/
def portErr (q code : Nat) (s : State) : State := (s.wr (HST_PORT_STS.ERR q) code).raise 8 1

/-- The first condition of R270 that an enable by a function of partition p fails, or zero. -/
def enableErr (s : State) (q p : Nat) : Nat :=
  let sq := s.rd (HST_PORT_SIZE.SQ_LOG2 q)
  let cq := s.rd (HST_PORT_SIZE.CQ_LOG2 q)
  if sq < 4 ∨ 12 < sq ∨ cq < 4 ∨ 12 < cq then 1
  else if ringBase s (HST_PORT_SQ_BASE_LO.reg q) % 64 ≠ 0 ∨ ringBase s (HST_PORT_CQ_BASE_LO.reg q) % 32 ≠ 0 then 2
  else if s.portOwner q ≠ p ∨ s.rd (PRT_P_CFG.STATE p) ≠ 1 then 3
  else if !s.feature p 0 then 4
  else if vecCount s p ≤ s.rd (HST_PORT_CFG.VECTOR q) then 5
  else 0

/-- The notices of a partition become ready again, now that their port has changed (R290). -/
def restamp (p : Nat) (s : State) : State :=
  let ns := (notesOf s p).map (fun n => { n with seq := s.hst.rseq, ready := s.atb })
  { s with hst := { s.hst with notes := sset (fun _ => []) s.hst.notes p ns, rseq := s.hst.rseq + 1 } }

/-- A port that meets every condition is enabled (R270); the first of the physical function's advances the start record (R327). -/
def portOn (q : Nat) (s0 : State) : State :=
  let s := if s0.portOwner q = 0 then s0.setStage 4 else s0
  let s1 := ((s.wr (HST_PORT_STS.EN q) 1).wr (HST_PORT_STS.ERR q) 0).wr (HST_PORT_STS.SQ_HEAD q) 0
  let s2 := (s1.wr (HST_PORT_CQ_TAIL.TAIL q) 0).wr (HST_PORT_CQ_TAIL.PHASE q) 1
  restamp (s.portOwner q) (s2.setPort q {})

/-- A write of 1 to CFG.EN (R270). A virtual function reaches only its own ports (R29). -/
def portEnable (f : Fn) (q : Nat) (s : State) : State :=
  let p := fnTag f
  if p ≠ 0 ∧ s.portOwner q ≠ p then s.bark p (fnKind f) 4 q
  else if s.on (HST_PORT_STS.EN q) then s
  else
    let s1 := s.wr (HST_PORT_CFG.EN q) 1
    let e := enableErr s1 q p
    if e = 0 then portOn q s1 else portErr q e s1

/-- PORT_ENABLE. -/
def execPortEnable (f : Fn) (q : Nat) (s : State) : Host.Outcome State Fault Refusal :=
  ranged (q < 1024) (if fnHere s f then s.reach f (HST_PORT_CFG.reg q) (portEnable f q s) else s)

/-- An item of a command whose port is disabled: queued, it ends; staged and uncommitted, it is squashed with cause 1 first; committed,
it stays to its end on the air and its outcome is discarded (R271). -/
def withdrawItem (h hc : Nat) (s : State) : State :=
  let s1 := squashAll 1 (fun e x => !isSlot e && x.item == some hc) s
  let on := (s1.txc.ents.filter (fun p => p.2.item == some hc && p.2.kind != 3 && [6, 7].contains p.2.st)).map (·.1)
  if on.isEmpty then dropItem h hc (unlinkItem h hc s1) else on.foldl (fun u e => u.setEnt e { u.ent e with gone := true }) s1

/-- A command in flight on a port that is being disabled ends without a completion, but for one whose operation has begun. -/
def withdrawCtx (s : State) (p : Nat × Ctx) : State :=
  match s.ctx p.1, p.2.header with
  | some c, some hc => if c.stage = 2 then s.dropCtx p.1 else withdrawItem (SQ.NODE.of c.sq) hc s
  | some c, none => if c.stage = 1 ∧ c.dupOf.isNone ∧ 0x20 ≤ SQ.OPCODE.of c.sq then s else s.dropCtx p.1
  | none, _ => s

/-- The disable of a port begins (R271): its commands in flight are withdrawn, posted buffers and entries not yet written are abandoned. -/
def portClose (q : Nat) (s : State) : State :=
  let s1 := (s.wr (HST_PORT_CFG.EN q) 0).setPort q { s.port q with closing := true, posted := [], tags := [] }
  let s2 := { s1 with
    hst := { s1.hst with ready := s1.hst.ready.filter (fun r => r.port != q) }
    lnk := { s1.lnk with cancels := s1.lnk.cancels.map (fun c => match c.ctx with
      | some x => if (match s.ctx x with | some k => k.port == q | none => false) then { c with ctx := none } else c
      | none => c) } }
  restamp (s.portOwner q) ((ctxsOf s2 q).foldl withdrawCtx s2)

/-- A write of 0 to CFG.EN: the owner may disable any port (R203, R271). -/
def portDisable (f : Fn) (q : Nat) (s : State) : State :=
  let p := fnTag f
  if p ≠ 0 ∧ s.portOwner q ≠ p then s.bark p (fnKind f) 4 q
  else if s.on (HST_PORT_STS.EN q) ∧ !(s.port q).closing then portClose q s
  else s.wr (HST_PORT_CFG.EN q) 0

/-- PORT_DISABLE. -/
def execPortDisable (f : Fn) (q : Nat) (s : State) : Host.Outcome State Fault Refusal :=
  ranged (q < 1024) (if fnHere s f then s.reach f (HST_PORT_CFG.reg q) (portDisable f q s) else s)

/-- Nothing of a port that is being disabled remains in flight: STS.EN reads 0 and its tags are forgotten (R33, R271). -/
def portDisabled (q : Nat) (s : State) : State :=
  if (s.port q).closing ∧ (ctxsOf s q).isEmpty then (s.wr (HST_PORT_STS.EN q) 0).setPort q {} else s

/-- PORT_DISABLED. -/
def execPortDisabled (q : Nat) (s : State) : Host.Outcome State Fault Refusal := ranged (q < 1024) (portDisabled q s)

/-- Context x is held for port q. -/
def ctxOn (s : State) (q x : Nat) : Bool := match s.ctx x with | some c => c.port == q | none => false

/-- A prune asked for by a command of port q goes on without it. -/
def orphanPrune (s : State) (q : Nat) (p : Nat × PruneFor) : Nat × PruneFor :=
  match p.2 with
  | .host x => if ctxOn s q x then (p.1, .reset) else p
  | _ => p

/-- A key operation asked for by a command of port q goes on and answers no context. -/
def orphanKop (s : State) (q : Nat) (k : Kop) : Kop :=
  match k.ctx with
  | some x => if ctxOn s q x then { k with ctx := some allCtxs } else k
  | none => k

/-- Operations begun by commands of port q go on without them. -/
def orphan (q : Nat) (s : State) : State :=
  { s with
    que := { s.que with prunes := s.que.prunes.map (orphanPrune s q) }
    sec := { s.sec with kops := s.sec.kops.map (orphanKop s q) } }

/-- A reset disables a port at once: every command in flight on it ends without a completion (R33). -/
def portAbort (q : Nat) (s : State) : State :=
  if s.on (HST_PORT_STS.EN q) then
    let s1 := orphan q (portClose q s)
    let s2 := { s1 with hst := { s1.hst with ctxs := s1.hst.ctxs.filter (fun p => p.2.port != q) } }
    portDisabled q s2
  else s.wr (HST_PORT_CFG.EN q) 0

/-! ## Doorbells (R272) -/

/-- A doorbell write is refused unless it comes from the port's own function (R203, R297). -/
def ownDoorbell (f : Fn) (q : Nat) (t s : State) : State :=
  if fnTag f = s.portOwner q then t else s.bark (fnTag f) (fnKind f) 4 q

/-- SQ_TAIL: the entries up to the index are submitted; an index out of range sets ERR. -/
def sqTail (q v : Nat) (s : State) : State :=
  let n := v % 4096
  if !s.on (HST_PORT_STS.EN q) || (s.port q).closing then s
  else if 2 ^ s.rd (HST_PORT_SIZE.SQ_LOG2 q) ≤ n then s.wr (HST_PORT_STS.ERR q) 7
  else s.setPort q { s.port q with sqTail := n }

/-- SQ_TAIL. -/
def execSqTail (f : Fn) (q v : Nat) (s : State) : Host.Outcome State Fault Refusal :=
  ranged (q < 1024) (if fnHere s f then s.reach f (HST_PORT_SQ_TAIL.reg q) (ownDoorbell f q (sqTail q v s) s) else s)

/-- CQ_HEAD: the entries before the index are returned to the device. -/
def cqHead (q v : Nat) (s : State) : State :=
  let n := v % 4096
  let size := 2 ^ s.rd (HST_PORT_SIZE.CQ_LOG2 q)
  let p := s.port q
  if !s.on (HST_PORT_STS.EN q) || decide (size ≤ n) then s
  else s.setPort q { p with cqHead := n, out := p.out - (n + size - p.cqHead) % size }

/-- CQ_HEAD. -/
def execCqHead (f : Fn) (q v : Nat) (s : State) : Host.Outcome State Fault Refusal :=
  ranged (q < 1024) (if fnHere s f then s.reach f (HST_PORT_CQ_HEAD.reg q) (ownDoorbell f q (cqHead q v s) s) else s)

/-! ## Fetch (R22, R273, R274, R285) -/

/-- The fetcher can serve a port. -/
def fetchable (s : State) (q : Nat) : Bool :=
  s.on (HST_PORT_STS.EN q) && !(s.port q).closing && !(s.port q).stopped && (s.port q).sqTail != s.rd (HST_PORT_STS.SQ_HEAD q) &&
    decide ((ctxsOf s q).length < s.rd (HST_PORT_CTX.MAX q)) && dmaOk s q

/-- The port whose turn it is: ascending, after the last one served. -/
def nextPort (s : State) : Option Nat :=
  ((List.range 1024).map (fun k => (s.hst.lastPort + 1 + k) % 1024)).find? (fetchable s)

/-- Entries a visit to a port may take. -/
def visitLen (s : State) (q : Nat) : Nat :=
  let size := 2 ^ s.rd (HST_PORT_SIZE.SQ_LOG2 q)
  let waiting := ((s.port q).sqTail + size - s.rd (HST_PORT_STS.SQ_HEAD q)) % size
  min (min 8 waiting) (min (s.rd (HST_PORT_CTX.MAX q) - (ctxsOf s q).length) (allCtxs - s.hst.ctxs.length))

/-- A free command context; which one is a free value (log entry 20). -/
def freeCtx (s : State) : Nat :=
  ((List.range allCtxs).map (fun k => (s.freeVal allCtxs + k) % allCtxs)).find? (fun x => (s.ctx x).isNone) |>.getD 0

/-- The command in flight of a port with a tag, duplicates aside (R285, R286). -/
def tagHolder (s : State) (q tag : Nat) : Option (Nat × Ctx) :=
  (ctxsOf s q).find? (fun p => p.2.dupOf.isNone && SQ.TAG.of p.2.sq == tag)

/-- A fetched command with a remembered tag is not executed: a duplicate, or a conflict of tags (R285). -/
def tagCheck (x : Nat) (c : Ctx) (s : State) : State :=
  let tag := SQ.TAG.of c.sq
  let same := fun (op node : Nat) => op == SQ.OPCODE.of c.sq && node == SQ.NODE.of c.sq
  match tagHolder s c.port tag, (s.port c.port).tags.find? (fun t => t.tag == tag) with
  | some (y, o), _ =>
    if same (SQ.OPCODE.of o.sq) (SQ.NODE.of o.sq) then
      (if o.stage = 2 then readyCtx x { c with dupOf := some allCtxs } 8 (CQ.STATUS.of o.cpl) 0 0 0 s
       else s.setCtx x { c with dupOf := some y, stage := 1 })
    else readyCtx x { c with dupOf := some allCtxs } 9 0 0 0 0 s
  | none, some t =>
    if same t.opcode t.node then readyCtx x { c with dupOf := some allCtxs } 8 t.status 0 0 0 s
    else readyCtx x { c with dupOf := some allCtxs } 9 0 0 0 0 s
  | none, none => s.setCtx x c

/-- One entry is fetched into a context. -/
def fetchOne (q : Nat) (s : State) (e : List Byte) : State :=
  let x := freeCtx s
  let size := 2 ^ s.rd (HST_PORT_SIZE.SQ_LOG2 q)
  let s1 := (s.freed.wr (HST_PORT_STS.SQ_HEAD q) ((s.rd (HST_PORT_STS.SQ_HEAD q) + 1) % size)).inc HST_CNT_FETCH.COUNT
  let left := allCtxs - (s.hst.ctxs.length + 1)
  let s2 := s1.wr HST_CTX_MIN.MIN_FREE (min (s1.rd HST_CTX_MIN.MIN_FREE) left)
  let s3 := if left = 0 then s2.raise 8 0 else s2
  let c : Ctx := ⟨q, recOf 512 e, s3.hst.order, 0, 0, none, none, s3.atb⟩
  tagCheck x c { s3 with hst := { s3.hst with order := s3.hst.order + 1 } }

/-- The fetcher visits port q, and the host's memory answers (R273, R274). -/
def fetch (q : Nat) (d : Dma) (s : State) : State :=
  if nextPort s ≠ some q then s
  else if allCtxs ≤ s.hst.ctxs.length then s.inc HST_CNT_CTX_STALL.COUNT
  else match d with
    | .fail =>
      let s1 := portErr q 6 (s.setPort q { s.port q with stopped := true })
      (s1.inc HST_CNT_DMA_ERR.COUNT).inc (HST_PCNT.COUNT (s.portOwner q) 5)
    | .data bs =>
      let s1 := (chunks64 (min (visitLen s q) (bs.length / 64)) bs).foldl (fetchOne q) s
      { s1 with hst := { s1.hst with lastPort := q } }

/-- FETCH. -/
def execFetch (q : Nat) (d : Dma) (s : State) : Host.Outcome State Fault Refusal := ranged (q < 1024) (fetch q d s)

/-! ## Opcodes: what every one checks (R275, R278) -/

/-- What an opcode uses of a submission entry: its feature, NODE, ADDR and LEN, the masks of FLAGS, P0, P1 and P2, DEADLINE. -/
structure OpRow where
  feat : Nat
  node : Bool
  buf : Bool
  flags : Nat
  p0 : Nat
  p1 : Nat
  p2 : Nat
  dead : Bool

/-- The opcode table (R278). -/
def opRow (op : Nat) : Option OpRow :=
  match op with
  | 0x00 => some ⟨0, false, false, 0, 0, 0, 0, false⟩
  | 0x01 => some ⟨0, true, true, 0, 0xFFFFFFFF, 0x3FFF, 0x1FF, true⟩
  | 0x02 => some ⟨0, false, false, 0, 0xFFFF, 0, 0, false⟩
  | 0x10 => some ⟨0, false, true, 0, 0, 0, 0, false⟩
  | 0x11 => some ⟨0, false, false, 0, 0, 0, 0, false⟩
  | 0x20 => some ⟨0, true, true, 0x01, 0, 0, 0, false⟩
  | 0x21 => some ⟨0, true, true, 0x07, 0, 0, 0, false⟩
  | 0x22 => some ⟨0, true, false, 0, 0, 0, 0, false⟩
  | 0x23 => some ⟨0, true, true, 0, 0, 0, 0, false⟩
  | 0x24 => some ⟨0, true, false, 0x18, 0, 0, 0, false⟩
  | 0x25 => some ⟨5, true, true, 0x20, 0, 0, 0, false⟩
  | 0x30 => some ⟨4, false, true, 0, 0x1FFFF, 0, 0, false⟩
  | 0x31 => some ⟨4, false, true, 0, 0x1FFFF, 0, 0, false⟩
  | 0x32 => some ⟨4, false, false, 0, 0x1FFFF, 0, 0, false⟩
  | 0x33 => some ⟨4, false, false, 0, 0x1FFFF, 0, 0, false⟩
  | 0x40 => some ⟨3, false, false, 0xFF, 0x3F, 0xFFFFFFFF, 0, false⟩
  | 0x41 => some ⟨3, false, true, 0, 0x3F, 0x3, 0xFFFFFFFF, false⟩
  | 0x42 => some ⟨3, false, true, 0, 0x3F, 0x3, 0xFFFFFFFF, false⟩
  | _ => none

/-- A value has no bit outside a mask. -/
def within (v mask : Nat) : Bool := Nat.land v mask == v

/-- The length of a data buffer fits the opcode (R278). TX and the engine opcodes judge theirs themselves. -/
def lenOk (op len : Nat) : Bool :=
  match op with
  | 0x10 => decide (128 ≤ len)
  | 0x20 => len == 64 | 0x21 => len == 64 | 0x23 => len == 64 | 0x25 => len == 64
  | 0x30 => len == 80 | 0x31 => len == 80
  | _ => true

/-- Every field that the opcode does not use is zero, reserved bits are zero, and the buffer has the length the table gives (R275, R278). -/
def entryOk (r : OpRow) (x : BitVec 512) : Bool :=
  SQ.RSV0.of x == 0 && SQ.RSV1.of x == 0 && within (SQ.FLAGS.of x) r.flags && (r.node || SQ.NODE.of x == 0) &&
    (r.buf || (SQ.ADDR.of x == 0 && SQ.LEN.of x == 0)) && (r.dead || SQ.DEADLINE.of x == 0) && within ((SQ.P 0).of x) r.p0 &&
    within ((SQ.P 1).of x) r.p1 && within ((SQ.P 2).of x) r.p2 && [3, 4, 5, 6, 7].all (fun k => (SQ.P k).of x == 0) &&
    lenOk (SQ.OPCODE.of x) (SQ.LEN.of x)

/-- An opcode that the port's function may use: listed, with its feature negotiated (R278). -/
def opKnown (s : State) (c : Ctx) : Option OpRow :=
  match opRow (SQ.OPCODE.of c.sq) with
  | some r => if s.feature (s.portOwner c.port) r.feat then some r else none
  | none => none

/-- The partition of a command. -/
def partOf (s : State) (c : Ctx) : Nat := s.portOwner c.port

/-- Commands on nodes, frames and engines: a RADIO reset removes their work (R438). -/
def radioOp (op : Nat) : Bool := op == 1 || (decide (0x20 ≤ op) && decide (op < 0x30)) || decide (0x40 ≤ op)

/-- A command waits in its context while the RADIO domain is in reset: one fetched in the reset, or one whose work the domain does (R438). -/
def resetWaits (s : State) (c : Ctx) : Bool := s.radioHeld && (decide (s.hst.resetAt ≤ c.order) || radioOp (SQ.OPCODE.of c.sq))

/-- The command of context x runs if it is of an opcode, is known and stands at a stage: entries that break R275 complete BAD_FIELD. -/
def runOp (op stage x : Nat) (k : Ctx → State → State) (s : State) : State :=
  match s.ctx x with
  | none => s
  | some c =>
    if c.stage ≠ stage ∨ c.dupOf.isSome ∨ SQ.OPCODE.of c.sq ≠ op ∨ resetWaits s c then s
    else match opKnown s c with
      | none => s
      | some r => if stage = 0 ∧ !entryOk r c.sq then s.complete x 0x0B 0 0 0 0 else k c s

/-- The bark's check of the node that a command names (R201, R278). -/
def ownNode (x : Nat) (c : Ctx) (t s : State) : State :=
  let h := SQ.NODE.of c.sq
  if s.handleOwner h = partOf s c then t else (s.bark (partOf s c) 2 1 h).complete x 0x0C 0 0 0 0

/-- A command's data buffer is read: nothing while its function may not do DMA, DMA_ERR where the read fails (R268, R274). -/
def withData (x : Nat) (c : Ctx) (d : Dma) (k : List Byte → State → State) (s : State) : State :=
  if !dmaOk s c.port then s
  else match d with
    | .fail => (((s.inc HST_CNT_DMA_ERR.COUNT).inc (HST_PCNT.COUNT (partOf s c) 5)).complete x 0x0D 0 0 0 0)
    | .data bs => k (bs.take (SQ.LEN.of c.sq)) s

/-- The context is handed on. -/
def begun (x : Nat) (c : Ctx) (s : State) : State := s.setCtx x { c with stage := 1 }

/-- BAD_OPCODE: not listed, or its feature not negotiated (R278). -/
def badOpcode (x : Nat) (s : State) : State :=
  match s.ctx x with
  | none => s
  | some c => if c.stage = 0 ∧ c.dupOf.isNone ∧ !resetWaits s c ∧ (opKnown s c).isNone then s.complete x 0x0A 0 0 0 0 else s

/-- BAD_OPCODE. -/
def execBadOpcode (x : Nat) (s : State) : Host.Outcome State Fault Refusal := ranged (x < 16384) (badOpcode x s)

/-- NOP. -/
def execNop (x : Nat) (s : State) : Host.Outcome State Fault Refusal :=
  ranged (x < 16384) (runOp 0x00 0 x (fun _ u => u.complete x 0 0 0 0 0) s)

/-! ## TX (R279) -/

/-- The item header that a TX command's entry gives (R187, R279). -/
def txHeader (x : Nat) (q : BitVec 512) : BitVec 512 :=
  putAll 0 [(IH.PRIO, SQ.P0_PRIO.of q), (IH.SECURE, SQ.P0_SECURE.of q), (IH.ACK_REQ, SQ.P0_ACK_REQ.of q),
    (IH.CHAIN_OVR, SQ.P0_CHAIN_OVR.of q), (IH.CHAIN, SQ.P0_CHAIN.of q), (IH.CTX, x), (IH.LENGTH, SQ.LEN.of q), (IH.RATE, SQ.P0_RATE.of q),
    (IH.GRID, SQ.P0_GRID.of q), (IH.CHAN, SQ.P0_CHAN.of q), (IH.RETRIES, SQ.P1_RETRIES.of q), (IH.BE, SQ.P1_BE.of q),
    (IH.BACKOFF, SQ.P1_BACKOFF.of q), (IH.HDR_LEN, SQ.P0_HDR_LEN.of q), (IH.DEADLINE, SQ.DEADLINE.of q),
    (IH.KEY_INDEX, SQ.P2_KEY_INDEX.of q), (IH.KEY_IDX_EN, SQ.P2_KEY_IDX_EN.of q)]

/-- A TX command completes BAD_FIELD without writing (R279). -/
def txBad (s : State) (c : Ctx) : Bool :=
  let q := c.sq
  let n := s.node (SQ.NODE.of q)
  !txEnabled s (SQ.P0_RATE.of q) (SQ.P0_GRID.of q) (SQ.P0_CHAN.of q) || decide (SQ.LEN.of q < SQ.P0_HDR_LEN.of q) ||
    (n.life != 0 && SQ.P0_SECURE.of q == 1 && NC.SEC_LEVEL.of n.ctx == 0) ||
    (n.life != 0 && SQ.P0_ACK_REQ.of q == 1 && NC.CLASS.of n.ctx == 3) ||
    (SQ.DEADLINE.of q != 0 && !s.feature (partOf s c) 1) || (SQ.P2_KEY_IDX_EN.of q == 1 && SQ.P0_SECURE.of q == 0)

/-- Another TX command of the port to the same node and level was fetched earlier and is not written yet (R273). -/
def txBehind (s : State) (c : Ctx) : Bool :=
  (ctxsOf s c.port).any (fun p => p.2.stage == 0 && p.2.dupOf.isNone && decide (p.2.order < c.order) && SQ.OPCODE.of p.2.sq == 1 &&
    SQ.NODE.of p.2.sq == SQ.NODE.of c.sq && SQ.P0_PRIO.of p.2.sq == SQ.P0_PRIO.of c.sq)

/-- The item is written to the node queue, or the write is refused (R190, R279). A LENGTH above the header field's range is too long
for every PHY (R187). -/
def txWrite (x : Nat) (c : Ctx) (bs : List Byte) (s : State) : State :=
  let h := SQ.NODE.of c.sq
  if 2047 < SQ.LEN.of c.sq ∧ (s.node h).life = 1 ∧ !((ctxCheck h s).node h).poison then (ctxCheck h s).complete x 0x11 0 0 0 0
  else
    let r := queueWrite (partOf s c) h (txHeader x c.sq) bs s
    match r.2.2 with
    | none => r.1.complete x r.2.1 0 0 0 0
    | some hc => r.1.setCtx x { c with stage := 1, header := some hc }

/-- TX. -/
def tx (x : Nat) (d : Dma) (c : Ctx) (s : State) : State :=
  if txBehind s c then s
  else ownNode x c
    (if txBad s c then s.complete x 0x0B 0 0 0 0
     else if SQ.DEADLINE.of c.sq ≠ 0 ∧ SQ.DEADLINE.of c.sq ≤ c.fetched then s.complete x 4 0 0 0 0
     else withData x c d (txWrite x c) s) s

/-- TX. -/
def execTx (x : Nat) (d : Dma) (s : State) : Host.Outcome State Fault Refusal := ranged (x < 16384) (runOp 0x01 0 x (tx x d) s)

/-! ## Receive buffers (R286, R288, R289) -/

/-- A receive buffer is posted. -/
def postRx (x : Nat) (c : Ctx) (s : State) : State :=
  (begun x c s).setPort c.port { s.port c.port with posted := (s.port c.port).posted ++ [x] }

/-- POST_RX. -/
def execPostRx (x : Nat) (s : State) : Host.Outcome State Fault Refusal := ranged (x < 16384) (runOp 0x10 0 x (postRx x) s)

/-- RX_FLUSH: every buffer that waits completes FLUSHED, then the command with their number. -/
def rxFlush (x : Nat) (c : Ctx) (s : State) : State :=
  let ps := (s.port c.port).posted
  let s1 := ps.foldl (fun u y => u.complete y 0x1A 0 0 0 0) (s.setPort c.port { s.port c.port with posted := [] })
  s1.complete x 0 0 0 ps.length 0

/-- RX_FLUSH. -/
def execRxFlush (x : Nat) (s : State) : Host.Outcome State Fault Refusal := ranged (x < 16384) (runOp 0x11 0 x (rxFlush x) s)

/-! ## CANCEL (R160, R286) -/

/-- A cancel of an item that stands in a queue or in staging. -/
def cancelItem (x h hc : Nat) (c : Ctx) (s : State) : State :=
  match cancelKind s hc with
  | 0 => (cancelNow h hc s).complete x 0 0 0 0 0
  | 1 => s.complete x 6 0 0 0 0
  | _ =>
    let s1 := begun x c s
    { s1 with lnk := { s1.lnk with cancels := s1.lnk.cancels ++ ([⟨hc, some x, none⟩] : List Cancel) } }

/-- A cancel of a command in flight. -/
def cancelCtx (x y : Nat) (c o : Ctx) (s : State) : State :=
  let op := SQ.OPCODE.of o.sq
  match o.header with
  | some hc => cancelItem x (SQ.NODE.of o.sq) hc c s
  | none =>
    if op = 1 then (s.complete y 5 0 0 0 0).complete x 0 0 0 0 0
    else if op = 0x10 then
      (((s.setPort o.port { s.port o.port with posted := (s.port o.port).posted.filter (fun z => z != y) }).complete y 0x1A 0 0 0 0).complete
        x 0 0 0 0 0)
    else s.complete x 6 0 0 0 0

/-- CANCEL: its target among the commands in flight, else the remembered status. -/
def cancel (x : Nat) (c : Ctx) (s : State) : State :=
  let tag := SQ.P0_TARGET.of c.sq
  match tagHolder s c.port tag with
  | some (y, o) =>
    if o.stage = 2 then s.complete x 7 (CQ.STATUS.of o.cpl) 0 0 0 else cancelCtx x y c o s
  | none =>
    let d := match (s.port c.port).tags.find? (fun t => t.tag == tag) with | some t => t.status | none => 0xFF
    s.complete x 7 d 0 0 0

/-- CANCEL. -/
def execCancel (x : Nat) (s : State) : Host.Outcome State Fault Refusal := ranged (x < 16384) (runOp 0x02 0 x (cancel x) s)

/-! ## Node commands (R282, R283) -/

/-- Node operations of host commands that the queue fabric holds: prunes and exports that have begun (R22, R183). -/
def nodeOpsHeld (s : State) : Nat :=
  (s.que.prunes.filter (fun p => match p.2 with | .host _ => true | _ => false)).length +
    (s.hst.ctxs.filter (fun p => p.2.stage == 1 && p.2.dupOf.isNone && SQ.OPCODE.of p.2.sq == 0x25 &&
      !s.que.prunes.any (fun z => decide (z.2 = .host p.1)))).length

/-- A node operation of a command must wait: for a credit of the node operation queue (R22), for frames of the node (R185), or for the reset of
its partition (R211). -/
def nodeWaits (s : State) (c : Ctx) : Bool := decide (32 ≤ nodeOpsHeld s) || ncmdWaits s (SQ.NODE.of c.sq)

/-- A node operation's status completes the command: OK, or NODE_FAIL with its DETAIL (R282). -/
def nodeTold (x st result : Nat) (s : State) : State := s.complete x (if st = 0 then 0 else 0x15) st 0 0 result

/-- The operation word that a command's entry stands for. -/
def nodeWord (c : Ctx) : Word :=
  let f := SQ.FLAGS.of c.sq
  putAll 0 [(NW.HANDLE, SQ.NODE.of c.sq), (NW.IMPORT, bitsIf f 0), (NW.RESET_DUP, bitsIf f 1), (NW.RESET_DRIFT, bitsIf f 2),
    (NW.QHOLD_VAL, bitsIf f 3), (NW.CLR_OVR, bitsIf f 4)]
where
  bitsIf (f k : Nat) : Nat := if bitOn f k then 1 else 0

/-- A node command: the bark, its buffer where it has one, its waits, then its operation. -/
def nodeCmd (op x : Nat) (d : Option Dma) (c : Ctx) (s : State) : State :=
  let go := fun (bs : List Byte) (u : State) =>
    if nodeWaits u c then u
    else
      let r := nodeOp op (nodeWord c) (recOf 512 bs) (.host x) u
      if op = 3 ∧ r.2 = 0 then begun x c r.1 else nodeTold x r.2 0 r.1
  ownNode x c (match d with | some d => withData x c d go s | none => go [] s) s

/-- NODE_ADD. -/
def execNodeAdd (x : Nat) (d : Dma) (s : State) : Host.Outcome State Fault Refusal :=
  ranged (x < 16384) (runOp 0x20 0 x (nodeCmd 1 x (some d)) s)
/-- NODE_UPDATE. -/
def execNodeUpdate (x : Nat) (d : Dma) (s : State) : Host.Outcome State Fault Refusal :=
  ranged (x < 16384) (runOp 0x21 0 x (nodeCmd 2 x (some d)) s)
/-- NODE_PRUNE. -/
def execNodePrune (x : Nat) (s : State) : Host.Outcome State Fault Refusal :=
  ranged (x < 16384) (runOp 0x22 0 x (nodeCmd 3 x none) s)
/-- NODE_QSET. -/
def execNodeQset (x : Nat) (s : State) : Host.Outcome State Fault Refusal :=
  ranged (x < 16384) (runOp 0x24 0 x (nodeCmd 5 x none) s)

/-- A context is written to a command's buffer. -/
def giveCtx (c : Ctx) (h : Nat) (s : State) : State :=
  s.post (.dmaWrite (partOf s c) (SQ.ADDR.of c.sq) (recBytes 64 (s.node h).ctx))

/-- NODE_READ: the context to the buffer, the hidden state in RESULT. -/
def nodeReadCmd (x : Nat) (c : Ctx) (s : State) : State :=
  let h := SQ.NODE.of c.sq
  ownNode x c
    (if nodeWaits s c ∨ !dmaOk s c.port then s
     else
      let r := nodeRead h s
      nodeTold x r.2 (nresWord r.1 h 4 r.2).toNat (if r.2 = 0 then giveCtx c h r.1 else r.1)) s

/-- NODE_READ. -/
def execNodeRead (x : Nat) (s : State) : Host.Outcome State Fault Refusal := ranged (x < 16384) (runOp 0x23 0 x (nodeReadCmd x) s)

/-- NODE_EXPORT's last steps, once the node has nothing on the air or in a lane (R283). -/
def exportEnd (x : Nat) (c : Ctx) (s : State) : State :=
  let h := SQ.NODE.of c.sq
  if (s.node h).life = 3 ∨ !pruneClear s h ∨ !dmaOk s c.port then s
  else if (s.node h).life ≠ 1 then nodeTold x 2 0 s
  else
    let s1 := giveCtx c h s
    if bitOn (SQ.FLAGS.of c.sq) 5 then pruneEnd h (nodePrune h (.host x) s1).1 else s1.complete x 0 0 0 0 0

/-- NODE_EXPORT's first steps: the queue is held and the node's uncommitted entries are squashed. -/
def exportBegin (x : Nat) (c : Ctx) (s : State) : State :=
  let h := SQ.NODE.of c.sq
  ownNode x c
    (if nodeWaits s c then s
     else
      let r := nodeQset h true false s
      if r.2 ≠ 0 then nodeTold x r.2 0 r.1
      else exportEnd x { c with stage := 1 } (begun x c (squashNode 3 h r.1))) s

/-- NODE_EXPORT: it begins, or goes on where it waited. -/
def execNodeExport (x : Nat) (s : State) : Host.Outcome State Fault Refusal :=
  ranged (x < 16384) (match s.ctx x with
    | some c => if c.stage = 1 then runOp 0x25 1 x (exportEnd x) s else runOp 0x25 0 x (exportBegin x) s
    | none => s)

/-! ## Key commands (R282) -/

/-- A key command joins the key operations while the dispatcher has a credit (R22). -/
def keyCmd (op x : Nat) (c : Ctx) (bs : List Byte) (s : State) : State :=
  if 16 ≤ (s.sec.kops.filter (fun k => k.ctx.isSome)).length then s
  else kopAsk ⟨partOf s c, some x, op, SQ.P0_SLOT.of c.sq, SQ.P0_LONG.of c.sq == 1, recOf 640 bs⟩ (begun x c s)

/-- KEY_LOAD. -/
def execKeyLoad (x : Nat) (d : Dma) (s : State) : Host.Outcome State Fault Refusal :=
  ranged (x < 16384) (runOp 0x30 0 x (fun c u => withData x c d (keyCmd 1 x c) u) s)
/-- KEY_REPLACE. -/
def execKeyReplace (x : Nat) (d : Dma) (s : State) : Host.Outcome State Fault Refusal :=
  ranged (x < 16384) (runOp 0x31 0 x (fun c u => withData x c d (keyCmd 2 x c) u) s)
/-- KEY_ERASE. -/
def execKeyErase (x : Nat) (s : State) : Host.Outcome State Fault Refusal :=
  ranged (x < 16384) (runOp 0x32 0 x (fun c u => keyCmd 3 x c [] u) s)
/-- KEY_STATUS. -/
def execKeyStatus (x : Nat) (s : State) : Host.Outcome State Fault Refusal :=
  ranged (x < 16384) (runOp 0x33 0 x (fun c u => keyCmd 4 x c [] u) s)

/-! ## Engine commands (R281) -/

/-- The bark's check of the engine that a command names (R278). -/
def ownEng (x : Nat) (c : Ctx) (t s : State) : State :=
  let e := SQ.P0_ENGINE.of c.sq
  if s.engOwner e = partOf s c then t else (s.bark (partOf s c) 2 5 e).complete x 0x0C 0 0 0 0

/-- ENG_CTRL: SET_PC, DBG_EN, RESET with CLEAR, HALT, STEP, RUN in this order. -/
def engCtrlCmd (x : Nat) (c : Ctx) (s : State) : State :=
  let e := SQ.P0_ENGINE.of c.sq
  let f := SQ.FLAGS.of c.sq
  ownEng x c
    (let s1 := if bitOn f 5 then engWrite e 0x08 (BitVec.ofNat 32 ((SQ.P 1).of c.sq)) s else s
     let s2 := if bitOn f 6 then s1.wr (dbgF e) (if bitOn f 7 then 1 else 0) else s1
     let s3 := engCtrl e (bitOn f 0) (bitOn f 1) (bitOn f 2) (bitOn f 3) (bitOn f 4) s2
     s3.complete x 0 0 0 0 (engSts e s3).toNat) s

/-- ENG_CTRL. -/
def execEngCtrl (x : Nat) (s : State) : Host.Outcome State Fault Refusal := ranged (x < 16384) (runOp 0x40 0 x (engCtrlCmd x) s)

/-- ENG_WRITE. -/
def engWriteCmd (x : Nat) (d : Dma) (c : Ctx) (s : State) : State :=
  let e := SQ.P0_ENGINE.of c.sq
  let m := SQ.P1_MEM.of c.sq
  let off := (SQ.P 2).of c.sq
  if !engFits m off (SQ.LEN.of c.sq) then s.complete x 0x0B 0 0 0 0
  else ownEng x c (withData x c d (fun bs u =>
    if m = 0 ∧ !imemAccepts u e then (engPut e m off bs u).complete x 0x17 0 0 0 0
    else (engPut e m off bs u).complete x 0 0 0 0 0) s) s

/-- ENG_WRITE. -/
def execEngWrite (x : Nat) (d : Dma) (s : State) : Host.Outcome State Fault Refusal :=
  ranged (x < 16384) (runOp 0x41 0 x (engWriteCmd x d) s)

/-- ENG_READ. -/
def engReadCmd (x : Nat) (c : Ctx) (s : State) : State :=
  let e := SQ.P0_ENGINE.of c.sq
  let m := SQ.P1_MEM.of c.sq
  let off := (SQ.P 2).of c.sq
  if !engFits m off (SQ.LEN.of c.sq) then s.complete x 0x0B 0 0 0 0
  else ownEng x c
    (if !dmaOk s c.port then s
     else (s.post (.dmaWrite (partOf s c) (SQ.ADDR.of c.sq) (engGet e m off (SQ.LEN.of c.sq) s))).complete x 0 0 0 0 0) s

/-- ENG_READ. -/
def execEngRead (x : Nat) (s : State) : Host.Outcome State Fault Refusal := ranged (x < 16384) (runOp 0x42 0 x (engReadCmd x) s)

/-! ## Completions and messages (R276, R290, R291) -/

/-- The notice port of a partition (R290). -/
def notePort (s : State) (p : Nat) : Option Nat :=
  (List.range 1024).find? (fun q => s.on (HST_PORT_STS.EN q) && !(s.port q).closing && s.portOwner q == p && s.on (HST_PORT_CFG.NOTICE_EN q))

/-- The port's message is sent (R291). -/
def announce (q : Nat) (s : State) : State :=
  (s.setPort q { s.port q with since := 0, firstAt := none }).sendMsix (s.portOwner q) (s.rd (HST_PORT_CFG.VECTOR q))

/-- One entry goes to the completion ring, with the phase of the ring; the message follows when enough have been written. -/
def putEntry (q : Nat) (e : BitVec 256) (s : State) : State :=
  let t := s.rd (HST_PORT_CQ_TAIL.TAIL q)
  let ph := s.rd (HST_PORT_CQ_TAIL.PHASE q)
  let size := 2 ^ s.rd (HST_PORT_SIZE.CQ_LOG2 q)
  let s1 := s.post (.dmaWrite (s.portOwner q) (ringBase s (HST_PORT_CQ_BASE_LO.reg q) + 32 * t) (recBytes 32 (CQ.PHASE.put e ph)))
  let s2 := if t + 1 = size then (s1.wr (HST_PORT_CQ_TAIL.TAIL q) 0).wr (HST_PORT_CQ_TAIL.PHASE q) (1 - ph)
    else s1.wr (HST_PORT_CQ_TAIL.TAIL q) (t + 1)
  let p := s2.port q
  let s3 := (s2.setPort q { p with out := p.out + 1, since := p.since + 1, firstAt := some (p.firstAt.getD s.now) }).inc HST_CNT_CPL.COUNT
  if max 1 (s.rd (HST_PORT_MOD.COUNT q)) ≤ p.since + 1 then announce q s3 else s3

/-- The remembered tags of a port with one more, the oldest forgotten first (R285). -/
def remember (ts : List Tag) (t : Tag) : List Tag := (ts ++ [t]).drop (ts.length + 1 - 256)

/-- A command's final completion is written: its context is free and its tag remembered (R23, R285). -/
def writeCpl (q : Nat) (r : Ready) (s : State) : State :=
  let st := CQ.STATUS.of r.entry
  let p := s.portOwner q
  let s1 := putEntry q r.entry { s with hst := { s.hst with ready := s.hst.ready.filter (fun x => x.seq != r.seq) } }
  let s2 := s1.inc (HST_PCNT.COUNT p 0)
  let s3 := if st = 8 then s2.inc (HST_PCNT.COUNT p 1) else if st = 9 then s2.inc (HST_PCNT.COUNT p 2) else s2
  let s4 := match s.ctx r.ctx with
    | some c => if st = 8 ∨ st = 9 then s3
        else s3.setPort q { s3.port q with
          tags := remember (s3.port q).tags ⟨SQ.TAG.of c.sq, SQ.OPCODE.of c.sq, SQ.NODE.of c.sq, st⟩ }
    | none => s3
  s4.dropCtx r.ctx

/-- A notice is written (R290). -/
def writeNote (q p : Nat) (n : PNote) (ns : List PNote) (s : State) : State :=
  let lost := s.hst.lost.contains p
  let e := cqEntry s q 0xFFFF 1 n.status (if lost then 1 else 0) 0 n.slot n.counter 0
  let e1 := CQ.ATB.put e (if s.feature p 6 then n.ready else 0)
  putEntry q e1 { s with hst := { s.hst with notes := sset (fun _ => []) s.hst.notes p ns, lost := s.hst.lost.filter (fun r => r != p) } }

/-- The entry of port q that became ready first is written, while the ring has room (R276). -/
def completionWrite (q : Nat) (s : State) : State :=
  let p := s.portOwner q
  if !s.on (HST_PORT_STS.EN q) || (s.port q).closing || !dmaOk s q || decide (2 ^ s.rd (HST_PORT_SIZE.CQ_LOG2 q) ≤ (s.port q).out) then s
  else
    let notes := if notePort s p = some q then notesOf s p else []
    match s.hst.ready.find? (fun r => r.port == q), notes with
    | some r, n :: ns => if n.seq < r.seq then writeNote q p n ns s else writeCpl q r s
    | some r, [] => writeCpl q r s
    | none, n :: ns => writeNote q p n ns s
    | none, [] => s

/-- COMPLETION_WRITE. -/
def execCompletionWrite (q : Nat) (s : State) : Host.Outcome State Fault Refusal := ranged (q < 1024) (completionWrite q s)

/-- MOD.TIME µs after the first entry since the last message, with feature 7 (R291). -/
def modTime (q : Nat) (s : State) : State :=
  match (s.port q).firstAt with
  | some t =>
    let w := s.rd (HST_PORT_MOD.TIME q)
    if s.on (HST_PORT_STS.EN q) ∧ w ≠ 0 ∧ s.feature (s.portOwner q) 7 then announce q (s.elapse (t + 32 * w - s.now)) else s
  | none => s

/-- MOD_TIME. -/
def execModTime (q : Nat) (s : State) : Host.Outcome State Fault Refusal := ranged (q < 1024) (modTime q s)

/-! ## Functions (R268, R292, R294, R295) -/

/-- A word of what a function is offered (R294). -/
def offerWord (s : State) (fn w : Nat) : Word :=
  if fn = 0 then s.reg (TOP_FEAT_OFFER.reg w)
  else (s.reg (TOP_FEAT_ACT.reg w) &&& s.reg (HST_VF_FEAT_MASK.reg w)) &&& (if w = 0 then 0xFFFFFEFF else 0xFFFFFFFF)

/-- A word of what a function requests. -/
def reqWord (s : State) (fn w : Nat) : Word := if fn = 0 then s.reg (TOP_FEAT_REQ.reg w) else s.vreg fn (0x20 + 4 * w)

/-- RESULT of a function's negotiation is set. -/
def setResult (fn v : Nat) (s : State) : State :=
  if fn = 0 then s.wr TOP_FEAT_CTRL.RESULT v else s.setVreg fn 0x30 (BitVec.ofNat 32 (16 * v))

/-- ACT becomes REQ. -/
def acceptReq (fn : Nat) (s : State) : State :=
  (List.range 4).foldl (fun u w => if fn = 0 then u.setReg (TOP_FEAT_ACT.reg w) (reqWord s fn w) else u.setVreg fn (0x40 + 4 * w) (reqWord s fn w)) s

/-- A port of partition p is enabled. -/
def anyPortOn (s : State) (p : Nat) : Bool := (List.range 1024).any (fun q => s.on (HST_PORT_STS.EN q) && s.portOwner q == p)

/-- A write of 1 to CTRL.COMMIT (R294). -/
def featureCommit (fn : Nat) (s : State) : State :=
  if anyPortOn s fn then setResult fn 3 s
  else if (List.range 4).any (fun w => reqWord s fn w &&& ~~~(offerWord s fn w) != 0) ∨ (reqWord s fn 0).toNat % 2 = 0 then (setResult fn 2 s).raise 9 1
  else (setResult fn 1 (acceptReq fn s)).raise 9 1

/-- FEATURE_COMMIT. -/
def execFeatureCommit (f : Fn) (s : State) : Host.Outcome State Fault Refusal :=
  ranged (fnTag f < 64) (if fnHere s f then s.reach f TOP_FEAT_CTRL.reg (featureCommit (fnTag f) s) else s)

/-- A virtual function's vectors are allotted, or its table is refused (R292): the total taken so far goes on. -/
def allot (p : State × Nat) (n : Nat) : State × Nat :=
  let s := p.1
  let k := s.rd (HST_VF_VEC.COUNT n)
  let put := fun (off : Bool) (u : State) =>
    { u with hst := { u.hst with funcs := sset (fun _ => {}) u.hst.funcs n { s.func n with on := true, msixOff := off } } }
  if p.2 + k ≤ 4096 then (put false s, p.2 + k)
  else
    let s1 := if s.on HST_VEC_ERR.SET then s else (s.wr HST_VEC_ERR.FUNC n).wr HST_VEC_ERR.SET 1
    ((put true s1).raise 8 2, p.2)

/-- VF Enable is written with NumVFs, or cleared with none (R267, R292); it has no effect in seedling mode (R330). -/
def vfEnable (num : Nat) (s : State) : State :=
  if s.on TOP_START_STS.SEEDLING then s
  else if num = 0 then
    { s with hst := { s.hst with funcs := s.hst.funcs.filter (fun p => p.1 == 0) } }
  else if s.hst.funcs.any (fun p => p.1 != 0 && p.2.on) then s
  else (((List.range num).map (· + 1)).foldl allot (s, s.rd HST_PF_VEC.COUNT)).1

/-- VF_ENABLE. -/
def execVfEnable (num : Nat) (s : State) : Host.Outcome State Fault Refusal := ranged (num < 64) (vfEnable num s)

/-- Messages that wait and are no longer held are sent (R268, R291). -/
def flushMsix (fn : Nat) (s : State) : State :=
  ((List.range 64).flatMap (fun w => (bitsOf (pbaWord s fn (32 * w)) 32).map (fun b => 32 * w + b))).foldl (fun u v =>
    if vecMasked u fn v || !(u.func fn).bme || (u.func fn).msixOff then u
    else (setPbaWord fn v (bitClr (pbaWord u fn v) (v % 32)) u).post (.msix fn v)) s

/-- Bus Master Enable of a function changes (R268). -/
def busMaster (n : Nat) (en : Bool) (s : State) : State :=
  if n ≠ 0 ∧ !(s.func n).on then s
  else
    let s1 := { s with hst := { s.hst with funcs := sset (fun _ => {}) s.hst.funcs n { s.func n with bme := en } } }
    if en then flushMsix n s1 else s1

/-- BUS_MASTER_ENABLE. -/
def execBusMasterEnable (n : Nat) (en : Bool) (s : State) : Host.Outcome State Fault Refusal := ranged (n < 64) (busMaster n en s)

/-- The partition counters of R295. -/
def partCounters (p : Nat) : List RegFld :=
  (List.range 7).map (LNE_PCNT.COUNT p) ++ (List.range 4).map (LNK_PCNT.COUNT p) ++ [QUE_PFULL.COUNT p] ++
    (List.range 4).map (PRT_PCNT.COUNT p) ++ (List.range 4).map (SEC_PCNT.COUNT p) ++ (List.range 8).map (HST_PCNT.COUNT p)

/-- VF_CNT_CLR. -/
def execVfCntClr (n : Nat) (s : State) : Host.Outcome State Fault Refusal :=
  ranged (0 < n ∧ n < 64) (if (s.func n).on && s.pwr.mode == 0 then s.zero (partCounters n) else s)

/-- HST_CNT_CLR.BLOCK. -/
def execHstCntClrBlock (f : Fn) (s : State) : Host.Outcome State Fault Refusal :=
  .next (s.p0Only f HST_CNT_CLR.reg ((s.zero [HST_CNT_FETCH.COUNT, HST_CNT_CPL.COUNT, HST_CNT_DMA_ERR.COUNT, HST_CNT_CTX_STALL.COUNT]).wr
    HST_CTX_MIN.MIN_FREE (allCtxs - s.hst.ctxs.length)))

/-- HST_CNT_CLR.PART. -/
def execHstCntClrPart (f : Fn) (s : State) : Host.Outcome State Fault Refusal :=
  .next (s.p0Only f HST_CNT_CLR.reg (s.zero ((List.range 64).flatMap (fun p => (List.range 8).map (HST_PCNT.COUNT p)))))

end Sys2Proof.Machine
end

