-- ==== Sys2Proof/Machine/Partitions.lean ====
section
/-! DEFINITION. The partition map, shares, partition enable and partition resets (R200, R204, R209-R213, R439). -/

namespace Sys2Proof.Machine

/-! ## The map (R212) -/

/-- Some register row with an address in [lo, hi) at a stride, not at its reset value, fulfils a test of its index and word. -/
def anyRow (s : State) (lo hi stride : Nat) (t : Nat → Word → Bool) : Bool :=
  s.regs.any (fun p => decide (lo ≤ p.1) && decide (p.1 < hi) && (p.1 - lo) % stride == 0 && t ((p.1 - lo) / stride) p.2)

/-- The resource of a map entry at an offset of PRT is idle: none where the offset is no map entry (R212). -/
def mapIdle (s : State) (off : Nat) : Option Bool :=
  if 0x1000 ≤ off ∧ off < 0x1400 then
    some (!s.que.nodes.any (fun p => p.1 / 256 == (off - 0x1000) / 4 && p.2.life != 0))
  else if 0x1400 ≤ off ∧ off < 0x1800 then
    some (!s.sec.slots.any (fun p => p.1 / 256 == (off - 0x1400) / 4 && p.2.state != 0))
  else if 0x1800 ≤ off ∧ off < 0x1840 then
    some (!s.sec.longs.any (fun p => p.1 / 16 == (off - 0x1800) / 4 && p.2.state != 0))
  else if 0x2000 ≤ off ∧ off < 0x3000 then some (!s.on (HST_PORT_STS.EN ((off - 0x2000) / 4)))
  else if 0x3000 ≤ off ∧ off < 0x3100 then
    let e := (off - 0x3000) / 4
    some (s.rd (stateF e) == 0 && s.rd (causeF e) == 7)
  else if 0x3200 ≤ off ∧ off < 0x3240 then
    let g := (off - 0x3200) / 4
    some (!(List.range 8).any (fun k => s.on (EVR_CH_CFG.EN (8 * g + k))))
  else if 0x3240 ≤ off ∧ off < 0x32C0 then some (!s.on (TIM_CTRL.EN ((off - 0x3240) / 4)))
  else none

/-- The owner a map entry's word names. -/
def ownerOf (w : Word) : Nat := if bf w 6 1 = 1 then bf w 0 6 else 0

/-- A live write of a map entry: an owner changes only while the resource is idle. -/
def mapEntryWrite (off : Nat) (idle : Bool) (v : Word) (s : State) : State :=
  let a := 0x700000 + off
  let t := s.regWrite a v
  if ownerOf (t.reg a) ≠ ownerOf (s.reg a) ∧ !idle then mapErr off false s else t

/-- MAP_ENTRY_WRITE. -/
def execMapEntryWrite (f : Fn) (off : Nat) (v : Word) (s : State) : Host.Outcome State Fault Refusal :=
  ranged ((mapIdle s off).isSome && off % 4 == 0)
    (s.p0Only f (0x700000 + off) (mapEntryWrite off ((mapIdle s off).getD false) v s))

/-! ## Shares (R204) -/

/-- The sum of a guarantee over all partitions. -/
def guarSum (s : State) (f : Nat → RegFld) : Nat := ((List.range 64).map (fun p => s.rd (f p))).sum

/-- The sum that a share register at an offset of PRT takes part in holds: none where the offset is no share register. -/
def sumsOk (s : State) (off : Nat) : Option Bool :=
  let k := (off - 0x100) % 32
  if off = 0x28 then some (decide (guarSum s PRT_P_AIR_GUAR.GUAR ≤ s.rd PRT_AIR_TOTAL.TICKS))
  else if off < 0x100 ∨ 0x900 ≤ off then none
  else if k = 4 then some (decide (guarSum s PRT_P_LANE.GUAR ≤ 512))
  else if k = 8 ∨ k = 0xC then some (decide (guarSum s PRT_P_CELL_GUAR.GUAR + s.rd QUE_RX_RESERVE.CELLS ≤ 786432))
  else if k = 0x10 ∨ k = 0x14 then some (decide (guarSum s PRT_P_AIR_GUAR.GUAR ≤ s.rd PRT_AIR_TOTAL.TICKS))
  else if k = 0x18 then some (decide (guarSum s PRT_P_PWR.GUAR ≤ s.budget 1))
  else none

/-- A live share write that would break its sum is refused; a cap lowered below use is accepted. -/
def shareWrite (off : Nat) (v : Word) (s : State) : State :=
  let t := s.regWrite (0x700000 + off) v
  if sumsOk t off = some false then mapErr off false s else t

/-- SHARE_WRITE. -/
def execShareWrite (f : Fn) (off : Nat) (v : Word) (s : State) : Host.Outcome State Fault Refusal :=
  ranged ((sumsOk s off).isSome) (s.p0Only f (0x700000 + off) (shareWrite off v s))

/-! ## Enable (R439) -/

/-- An enabled map entry of [lo, hi) names partition p. -/
def mapNames (s : State) (lo hi p : Nat) : Bool := anyRow s (0x700000 + lo) (0x700000 + hi) 4 (fun _ w => bf w 6 1 == 1 && bf w 0 6 == p)

/-- A partition holds nothing (R439). -/
def holdsNothing (s : State) (p : Nat) : Bool :=
  !([(0x1000, 0x1840), (0x2000, 0x3100), (0x3200, 0x32C0)].any (fun r => mapNames s r.1 r.2 p)) &&
    !(List.range 64).any (fun i => s.on (LNK_PAN_CFG.EN i) && s.rd (LNK_PAN_CFG.PART i) == p) &&
    !(List.range 64).any (fun k => s.on (LNK_CMP_CTRL.ARMED k) && s.rd (LNK_CMP_CTRL.PART k) == p) &&
    !anyRow s (LNK_CELL1.reg 0) (LNK_CELL1.reg 8192) 8 (fun _ w => bf w 23 1 == 1 && bf w 24 6 == p) &&
    s.rd (LNE_PSTS.IN_USE p) == 0 && s.rd (QUE_PUSE.USE p) == 0 && s.rd (PRT_PAIR.VALUE p 0) == 0 && s.leaveOf p == 0

/-- A write of PRT_Pp_CFG.EN. P0's is fixed at 1. -/
def partEnable (p : Nat) (en : Bool) (s : State) : State :=
  if p = 0 ∨ s.locked (PRT_P_CFG.reg p) ∨ s.rd (PRT_P_CFG.STATE p) = 2 then s
  else if en then
    (if s.rd (PRT_P_CFG.STATE p) = 0 then (s.wr (PRT_P_CFG.EN p) 1).wr (PRT_P_CFG.STATE p) 1 else s)
  else if s.rd (PRT_P_CFG.STATE p) = 0 then s
  else if holdsNothing s p then (s.wr (PRT_P_CFG.EN p) 0).wr (PRT_P_CFG.STATE p) 0
  else mapErr (0x100 + 32 * p) false s

/-- PARTITION_ENABLE_WRITE. -/
def execPartitionEnableWrite (f : Fn) (p : Nat) (en : Bool) (s : State) : Host.Outcome State Fault Refusal :=
  ranged (p < 64) (s.p0Only f (PRT_P_CFG.reg p) (partEnable p en s))

/-! ## Partition resets (R209-R211) -/

/-- The ports of a partition. -/
def portsOf (s : State) (p : Nat) : List Nat := (List.range 1024).filter (fun q => s.portOwner q == p)

/-- The nodes of a partition. -/
def nodesOf (s : State) (p : Nat) : List Nat := (s.que.nodes.filter (fun n => n.2.life != 0 && NC.PART.of n.2.ctx == p)).map (·.1)

/-- Host-origin items still queued for a node end without an outcome; with all set, every item. -/
def emptyNode (all : Bool) (s : State) (h : Nat) : State :=
  ((queueItems s h).filter (fun hc => all || s.ih hc IH.ORIGIN == 0)).foldl (fun u hc => dropItem h hc (unlinkItem h hc u)) s

/-- The outcome of a committed frame of partition p is discarded: of a host-origin item only, or with all set of any. -/
def discardOutcome (p : Nat) (all : Bool) (s : State) (x : Nat × Ent) : State :=
  let y := x.2
  if y.part == p && (y.st == 6 || y.st == 7) && (all || (match y.item with | some hc => s.ih hc IH.ORIGIN == 0 | none => false)) then
    s.setEnt x.1 { s.ent x.1 with gone := true, burn := all }
  else s

/-- The PORTS scope (R209): entries and acknowledgement slots squashed with cause 6, ports disabled, host-origin items ended. With all
set, items of every origin. -/
def portsReset (p : Nat) (all : Bool) (s : State) : State :=
  let s1 := squashAll 6 (fun _ x => x.part == p) s
  let s2 := s1.txc.ents.foldl (discardOutcome p all) s1
  let s3 := (nodesOf s2 p).foldl (emptyNode all) s2
  (portsOf s3 p).foldl (fun u q => portAbort q u) s3

/-- The engines of a partition. -/
def enginesOf (s : State) (p : Nat) : List Nat := (List.range 64).filter (fun e => s.engOwner e == p)

/-- A lane whose frame is a partition's delivers nothing any more (R210). -/
def laneGone (p : Nat) (x : Lane) : Lane :=
  match x.ans with
  | some (.accept q _ _ _ _) => if q = p ∧ !x.rst then { x with rst := true, cells := x.cells.map (fun _ => noCell) } else x
  | _ => x

/-- Lanes of the partition in flight free the cells they have handed over. -/
def freeLanes (p : Nat) (s : State) : State :=
  let mine := s.lanes.filter (fun l => match l.2.ans with | some (.accept q _ _ _ _) => q == p && !l.2.rst | _ => false)
  let s1 := mine.foldl (fun u l => freeCells l.2.cells u) s
  { s1 with lanes := s1.lanes.map (fun l => (l.1, laneGone p l.2)) }

/-- PAN entries and TSCH cells of a partition have EN cleared, whatever the lock (R209). -/
def clearLinks (p : Nat) (s : State) : State :=
  let s1 := ((List.range 64).filter (fun i => s.rd (LNK_PAN_CFG.PART i) == p)).foldl (fun u i => u.wr (LNK_PAN_CFG.EN i) 0) s
  let cells := (s1.regs.filter (fun r => decide (LNK_CELL1.reg 0 ≤ r.1) && decide (r.1 < LNK_CELL1.reg 8192) && (r.1 - LNK_CELL1.reg 0) % 8 == 0 &&
    bf r.2 24 6 == p)).map (fun r => (r.1 - LNK_CELL1.reg 0) / 8)
  cells.foldl (fun u c => u.wr (LNK_CELL1.EN c) 0) s1

/-- Comparators of a partition are disarmed. -/
def disarmAll (p : Nat) (s : State) : State :=
  ((List.range 64).filter (fun k => s.rd (LNK_CMP_CTRL.PART k) == p)).foldl (fun u k => disarmCmp k u) s

/-- Steps 1 to 3 of a FULL (1) or DEPART (2) reset (R210). -/
def partResetBegin (p scope : Nat) (s : State) : State :=
  let r : PReset := ⟨p, scope, s.rd (PRT_P_CFG.STATE p) == 0⟩
  let s1 := (s.wr (PRT_P_CFG.STATE p) 2).wr (PRT_P_RESET.BUSY p) 1
  let s2 := portsReset p true { s1 with prt := { s1.prt with resets := s1.prt.resets ++ [r] } }
  let s3 := disarmAll p ((enginesOf s2 p).foldl (fun u e => engClear e u) s2)
  let s4 := freeLanes p s3
  if scope = 2 then clearLinks p s4 else s4

/-- A request for a reset of a partition: ignored for P0, merged with one that runs (R209, R211). -/
def partReset (p scope : Nat) (s : State) : State :=
  if p = 0 then s
  else if s.prt.resets.any (fun r => r.part == p) then
    let s1 := { s with prt := { s.prt with resets := s.prt.resets.map (fun r => if r.part = p then { r with scope := max r.scope scope } else r) } }
    if scope = 2 then clearLinks p s1 else s1
  else partResetBegin p scope s

/-- FULL. -/
def execFull (f : Fn) (p : Nat) (s : State) : Host.Outcome State Fault Refusal :=
  ranged (p < 64) (s.p0Only f (PRT_P_RESET.reg p) (partReset p 1 s))
/-- DEPART. -/
def execDepart (f : Fn) (p : Nat) (s : State) : Host.Outcome State Fault Refusal :=
  ranged (p < 64) (s.p0Only f (PRT_P_RESET.reg p) (partReset p 2 s))

/-- Cells that frames on the air or committed still use: their streams and their items. -/
def airCells (s : State) : List Nat :=
  (s.txc.ents.filter (fun p => p.2.st == 6 || p.2.st == 7)).flatMap (fun p =>
    p.2.cells ++ (match p.2.item with | some hc => itemCells s hc | none => []))

/-- A frame whose delivery to a partition is no longer owed. -/
def notOwed (p : Nat) (r : Rx) : Rx := { r with owed := r.owed.filter (· != p) }

/-- Undelivered received frames of a partition end: its own, and its deliveries of broadcasts. -/
def dropFrames (p : Nat) (s : State) : State :=
  let mine := s.que.rxs.filter (fun r => r.part == p && !r.bcast)
  let own := fun (r : Rx) => r.part == p && !r.bcast
  let s1 := mine.foldl (fun u r => freeCells (r.descCell :: r.cells) u) s
  let s2 := { s1 with
    que := { s1.que with rxs := (s1.que.rxs.filter (fun r => !own r)).map (notOwed p) }
    sec := { s1.sec with rxJobs := s1.sec.rxJobs.filter (fun j => !mine.any (fun r => r.descCell == j.cell)) }
    eng := { s1.eng with rxq := s1.eng.rxq.filter (fun q => q.2.1 != p), held := s1.eng.held.filter (fun q => q.2.1 != p) } }
  let done := s2.que.rxs.filter (fun r => r.stage == 3 && r.owed.isEmpty && !engineOwed s2 r.descCell)
  done.foldl (fun u r => dropRx (placeOf u r.descCell) r u) s2

/-- The scan of step 4: every cell tagged with the partition is freed, but for those of frames on the air. -/
def scanCells (p : Nat) (s : State) : State :=
  let keep := airCells s
  freeCells ((s.que.cells.filter (fun c => c.2.acct == some p && !keep.contains c.1)).map (·.1)) s

/-- Step 5 for DEPART: nodes pruned, key slots erased (R209). -/
def departEnd (p : Nat) (s : State) : State :=
  let s1 := (nodesOf s p).foldl (fun u h => pruneEnd h u) s
  let shorts := (s1.sec.slots.map (·.1)).filter (fun k => s1.slotOwner k == p)
  let s2 := shorts.foldl (fun u k => squashSlot k (u.setKslot k {})) s1
  eraseKeys p s2

/-- A partition's counters in LNE, LNK, QUE and PRT (R209). -/
def resetCounters (p : Nat) : List RegFld :=
  (List.range 7).map (LNE_PCNT.COUNT p) ++ (List.range 4).map (LNK_PCNT.COUNT p) ++ [QUE_PFULL.COUNT p] ++ (List.range 4).map (PRT_PCNT.COUNT p)

/-- Step 6 (R210). -/
def partResetEnd (r : PReset) (s : State) : State :=
  let p := r.part
  let off := r.wasOff || r.scope == 2
  let s1 := (s.zero (resetCounters p)).wr (PRT_P_CFG.STATE p) (if off then 0 else 1)
  let s2 := (if off then s1.wr (PRT_P_CFG.EN p) 0 else s1).wr (PRT_P_RESET.BUSY p) 0
  let s3 := s2.setVreg p 4 (BitVec.ofNat 32 (((s2.vreg p 4).toNat + 1) % 65536))
  { s3 with prt := { s3.prt with resets := s3.prt.resets.filter (fun q => q.part != p) } }.raise 7 3

/-- The last steps of the reset of partition p: for DEPART once its nodes have nothing on the air or in a lane (R186, R210); while a
RADIO reload runs they are the reload's (R211). -/
def partResetDone (p : Nat) (s : State) : State :=
  match s.prt.resets.find? (fun r => r.part == p) with
  | none => s
  | some r =>
    if s.flc.load.any (fun j => j.mode == 2) ∨ (r.scope = 2 ∧ !(nodesOf s p).all (pruneClear s)) then s
    else
      let s1 := (enginesOf s p).foldl (fun u e => clearDone e u) s
      let s2 := scanCells p (dropFrames p ((nodesOf s1 p).foldl (emptyNode true) s1))
      partResetEnd r (if r.scope = 2 then departEnd p s2 else s2)

/-- PARTITION_RESET_DONE. -/
def execPartitionResetDone (p : Nat) (s : State) : Host.Outcome State Fault Refusal := ranged (p < 64) (partResetDone p s)

/-! ## The fault log and counters (R202, R213) -/

/-- The oldest entry of the fault log is removed. -/
def fltPop (s : State) : State := { s with prt := { s.prt with log := s.prt.log.drop 1 } }

/-- FLT_POP. -/
def execFltPop (f : Fn) (s : State) : Host.Outcome State Fault Refusal := .next (s.p0Only f PRT_FLT_POP.reg (fltPop s))

/-- PRT_CNT_CLR.BLOCK. -/
def execPrtCntClrBlock (f : Fn) (s : State) : Host.Outcome State Fault Refusal :=
  .next (s.p0Only f PRT_CNT_CLR.reg (s.zero [PRT_CNT_BCAST.COUNT, PRT_CNT_BCAST_SKIP.COUNT]))

/-- PRT_CNT_CLR.PART. -/
def execPrtCntClrPart (f : Fn) (s : State) : Host.Outcome State Fault Refusal :=
  .next (s.p0Only f PRT_CNT_CLR.reg (s.zero ((List.range 64).flatMap (fun p => (List.range 4).map (PRT_PCNT.COUNT p)))))

end Sys2Proof.Machine
end

