-- ==== Sys2Proof/Machine/ImageCheck.lean ====
section
/-! DEFINITION. The heartwood image: reading its container (R298-R300), applying its sections to a state (R302-R310), and the
loader's checks in their order (R301, R311, R312). -/

namespace Sys2Proof.Machine

/-! ## The container (R298-R300) -/

/-- A byte of an image source: flash (0) or supervisor memory (1). -/
def srcByte (s : State) (src a : Nat) : Byte := if src = 0 then flashByte s a else s.byte (supBase + a)

/-- n bytes of an image source. -/
def srcBytes (s : State) (src a n : Nat) : List Byte := (List.range n).map (fun k => srcByte s src (a + k))

/-- A little-endian word of an image source. -/
def srcWord (s : State) (src a : Nat) : Nat := unoctets (srcBytes s src a 4)

/-- How many bytes an image source has (R241, R344). -/
def srcSize (src : Nat) : Nat := if src = 0 then 0x2000000 else 0x200000

/-- Entry k of the section table (R300). -/
def readSect (s : State) (src a k : Nat) : Sect :=
  let b := a + 0x100 + 64 * k
  let w := srcWord s src b
  ⟨k, w % 256, w / 256 % 256, srcWord s src (b + 4), srcWord s src (b + 8), srcWord s src (b + 12), srcBytes s src (b + 16) 48⟩

/-- The number of sections (R299). -/
def sectCount (s : State) (src a : Nat) : Nat := srcWord s src (a + 0x18) % 256

/-- The section table. -/
def readTable (s : State) (src a : Nat) : List Sect := (List.range (sectCount s src a)).map (readSect s src a)

/-- The header as the loader keeps it, with the table digest (R299, R301). -/
def readHdr (s : State) (src a : Nat) : ImgHdr :=
  ⟨srcWord s src (a + 0x0C), srcWord s src (a + 0x10), srcWord s src (a + 0x14), srcWord s src (a + 0x18) / 256 % 4,
    srcWord s src (a + 0x1C) % 2 ^ 18, Config.sha384 (srcBytes s src a (0x100 + 64 * sectCount s src a))⟩

/-- The data of a section. -/
def sectData (s : State) (src a : Nat) (x : Sect) : List Byte := srcBytes s src (a + x.off) x.len

/-- Word k of a section's data. -/
def dw (d : List Byte) (k : Nat) : Nat := unoctets ((d.drop (4 * k)).take 4)

/-! ## Section types (R302) -/

/-- The reset domain of a section type: true for CHIP (R302). -/
def chipScope (t : Nat) : Bool := t == 1 || t == 2 || t == 3 || t == 0x0E

/-- A live image may hold the type (R302). -/
def liveType (t : Nat) : Bool := t == 3 || t == 6 || t == 8 || t == 0x0E

/-- The instances of a section type; none where it is not listed (R302). -/
def sectInstances (t : Nat) : Option Nat :=
  match t with
  | 0x01 => some 1 | 0x02 => some 1 | 0x03 => some 1 | 0x04 => some 1 | 0x05 => some 1 | 0x06 => some 1 | 0x07 => some 1
  | 0x08 => some 64 | 0x09 => some 16 | 0x0A => some 8 | 0x0B => some 1 | 0x0C => some 8 | 0x0D => some 1 | 0x0E => some 1
  | 0x0F => some 8 | 0x10 => some 8 | 0x11 => some 64
  | _ => none

/-- A section's data length lies within its type's bounds (R302, R303, R305-R310). -/
def sectLenOk (t n : Nat) : Bool :=
  match t with
  | 0x02 => decide (32 ≤ n) && decide (n ≤ 32 + 0x200000)
  | 0x08 => decide (16 ≤ n) && decide (n ≤ 136)
  | 0x09 => n == 256
  | 0x0A => decide (128 ≤ n) && decide (n ≤ 65536) && n % 128 == 0
  | 0x0B => decide (64 ≤ n) && decide (n ≤ 16384) && n % 64 == 0
  | 0x0C => n == 1024
  | 0x0E => n == 128
  | 0x10 => decide (n ≤ 0x80000)
  | 0x11 => decide (16 ≤ n) && decide (n ≤ 16 + 0x8000 + 0x10000)
  | _ => n % 8 == 0

/-- The sections a base image must hold (R302). -/
def requiredSects : List (Nat × Nat) :=
  [(1, 0), (2, 0), (3, 0), (4, 0), (5, 0), (6, 0), (7, 0), (0x0B, 0), (0x0C, 0), (0x0C, 1), (0x0C, 2), (0x0C, 3), (0x0C, 4),
    (0x0C, 5), (0x0C, 6), (0x0C, 7), (0x0D, 0), (0x0E, 0)]

/-! ## Register records (R303, R304) -/

/-- The ranges a record section defines, as [first, end) BAR0 offsets (R303). -/
def typeRanges (t : Nat) : List (Nat × Nat) :=
  match t with
  | 0x01 => [(0x10000, 0x20000)]
  | 0x03 => [(0x700020, 0x70002C), (0x700100, 0x700900), (0x701000, 0x7032C0)]
  | 0x04 => [(0x100100, 0x100200), (0x200200, 0x200240), (0x300100, 0x300140)]
  | 0x05 => [(0x100008, 0x10000C), (0x100020, 0x100028), (0x100400, 0x100500)]
  | 0x06 => [(0x100040, 0x10004C), (0x100200, 0x100220), (0x110000, 0x112000)]
  | 0x07 => [(0x200000, 0x200008), (0x200100, 0x200140)]
  | 0x0D => [(0x400000, 0x400200), (0x401000, 0x401400), (0x403000, 0x405000), (0x410000, 0x420000), (0x600400, 0x600500)]
  | 0x0F => [(0x100000, 0x600000), (0x600000, 0x600100)] ++ (List.range 8).map (fun c => (0x2181400 + 0x200000 * c, 0x2181500 + 0x200000 * c))
  | _ => []

/-- The section type consists of register records. -/
def recordType (t : Nat) : Bool := [0x01, 0x03, 0x04, 0x05, 0x06, 0x07, 0x0D, 0x0F].contains t

/-- An offset lies in the ranges of a type. -/
def inRanges (t a : Nat) : Bool := (typeRanges t).any (fun r => decide (r.1 ≤ a) && decide (a < r.2))

/-- RO fields at an offset are loaded from the image: slices, grids, points, lane latencies and SUN-FSK settings (R303). -/
def imageRO (a : Nat) : Bool :=
  a == 0x100020 || a == 0x100024 || (decide (0x100100 ≤ a) && decide (a < 0x100200)) || (decide (0x110000 ≤ a) && decide (a < 0x112000)) ||
    (decide (0x200100 ≤ a) && decide (a < 0x200140) && a % 8 == 0) || (decide (0x200200 ≤ a) && decide (a < 0x200240))

/-- A record may set a field (R303). -/
def settable (a : Nat) (f : FieldSpec) : Bool := f.acc == .rw || f.acc == .rwl || (f.acc == .ro && imageRO a)

/-- Where the register at a CLK offset that the spec gives to two registers lives (log entry 11). -/
def homeOf (a : Nat) : Nat := if (a == 0x100A0 || a == 0x100B0) && Config.clkOverlapOut then a + 0x4000000 else a

/-- Encodings that are reserved of fields an image loads (R38, R41, R43, R68) and of the output dividers, which are even (R387). A slice
that is neither enabled nor given a centre has none. -/
def imageLimits (a v : Nat) : Bool :=
  let unset := decide (v = 0)
  if a = 0x100020 then unset || (decide (860000 ≤ v % 2 ^ 22) && decide (v % 2 ^ 22 ≤ 935000))
  else if a = 0x100024 then unset || (decide (2420000 ≤ v % 2 ^ 22) && decide (v % 2 ^ 22 ≤ 2460000))
  else if 0x100100 ≤ a ∧ a < 0x100200 ∧ a % 16 = 4 then decide (v % 512 ≤ 256)
  else if 0x110000 ≤ a ∧ a < 0x112000 then
    decide (v / 2 ^ 12 % 16 < 8) && decide (-31 ≤ sgn 7 (v / 2 ^ 16 % 128)) && decide (sgn 7 (v / 2 ^ 16 % 128) ≤ 31)
  else if (List.range 16).any (fun n => a == CLK_OUT_CFG.reg n) then v % 8192 % 2 == 0
  else true

/-- A record of a section type is allowed: its target lies in the type's ranges and is a register, it sets no bit outside the fields
a record may set, and no reserved encoding (R303). -/
def recordOk (t a v : Nat) : Bool :=
  inRanges t a && match rowAt (homeOf a) with
    | some r =>
      let fs := r.fields.filter (settable a)
      !fs.isEmpty && decide (v = (fs.map (fun f => v / 2 ^ f.lo % 2 ^ f.w * 2 ^ f.lo)).sum) &&
        fs.all (fun f => notReserved f (v / 2 ^ f.lo % 2 ^ f.w)) && imageLimits (homeOf a) v
    | none => false

/-- A register's word with the fields a record may set taken from v. -/
def recordWord (a : Nat) (old v : Word) : Word :=
  match rowAt a with
  | some r => (r.fields.filter (settable a)).foldl (fun w f => bfSet w f.lo f.w (bf v f.lo f.w)) old
  | none => old

/-- A record is applied, whatever the block's lock (R304). -/
def applyRecord (s : State) (x : Nat × Nat) : State :=
  let a := homeOf x.1
  s.setReg a (recordWord a (s.reg a) (BitVec.ofNat 32 x.2))

/-- The records of a section's data. -/
def recordsOf (d : List Byte) : List (Nat × Nat) := (List.range (d.length / 8)).map (fun k => (dw d (2 * k), dw d (2 * k + 1)))

/-- Every field in a type's ranges takes its reset value (R304). -/
def resetRanges (t : Nat) (s : State) : State :=
  ((skeys s.regs).filter (fun a => inRanges t (if 0x4000000 ≤ a then a - 0x4000000 else a))).foldl
    (fun u a => u.setReg a (recordWord a (u.reg a) (regReset a))) s

/-- A section's records are applied; all but REGS define their ranges completely (R304). -/
def applyRecords (t : Nat) (d : List Byte) (s : State) : State :=
  (recordsOf d).foldl applyRecord (if t = 0x0F then s else resetRanges t s)

/-! ## Applying a section (R304-R310) -/

/-- The state of partition p follows the EN that a section gives it, as a write of EN would (R439): a RESETTING partition keeps its EN, and
an ACTIVE one that still holds something keeps it set. -/
def syncPart (old u : State) (p : Nat) : State :=
  if old.rd (PRT_P_CFG.STATE p) = 2 then u.wr (PRT_P_CFG.EN p) (old.rd (PRT_P_CFG.EN p))
  else if u.on (PRT_P_CFG.EN p) then u.wr (PRT_P_CFG.STATE p) 1
  else if old.rd (PRT_P_CFG.STATE p) = 0 then u.wr (PRT_P_CFG.STATE p) 0
  else if holdsNothing u p then u.wr (PRT_P_CFG.STATE p) 0
  else mapErr (0x100 + 32 * p) false (u.wr (PRT_P_CFG.EN p) 1)

/-- The states of the partitions follow their EN (R439); P0 is always enabled. -/
def syncParts (old new : State) : State :=
  (List.range 63).foldl (fun u k => syncPart old u (k + 1)) (new.wr (PRT_P_CFG.EN 0) 1)

/-- The plan summary follows the enabled points and grids (R68). -/
def planStatus (s : State) : State :=
  (s.wr CNP_PLAN_STS.POINTS ((List.range 2048).filter (fun p => s.on (CNP_POINT.EN p))).length).wr
    CNP_PLAN_STS.GRIDS ((List.range 16).filter (fun g => s.on (CNP_GRID_BASE.EN g))).length

/-- Attenuations follow their mode and limits (R54, R57). A record that leaves MANUAL in force moves ATT to MAN_ATT when it is applied (DESIGN
CHOICE, log entry 86: R54 says that images normally preload the attenuation, not how). -/
def attInit (s : State) : State :=
  (List.range 8).foldl (fun u n =>
    let v := if u.rd (CNP_ATT.MODE n) = 2 then u.rd (CNP_ATT.MAN_ATT n) else u.rd (CNP_ATT.ATT n)
    u.wr (CNP_ATT.ATT n) (min (max v (u.rd (CNP_ATT_LIM.MIN n))) (u.rd (CNP_ATT_LIM.MAX n)))) s

/-- A CURVE section's curve (R305). -/
def readCurve (inst : Nat) (d : List Byte) : Curve :=
  let n := dw d 0 / 65536 % 256
  ⟨inst, dw d 0 % 256, dw d 0 / 256 % 256, (List.range n).map (fun k => (sgn 16 (dw d (2 + k) % 65536), sgn 16 (dw d (2 + k) / 65536)))⟩

/-- A curve takes its place (R305, R317). -/
def putCurve (c : Curve) (s : State) : State := { s with curves := s.curves.filter (fun x => x.inst != c.inst) ++ [c] }

/-- A RAMP section's words stand in the ramp memory (R306). -/
def putRamp (c : Nat) (d : List Byte) (s : State) : State :=
  (List.range 34).foldl (fun u k => u.setReg (0x300800 + 256 * c + 4 * k) (BitVec.ofNat 32 (dw d k))) s

/-- A CORRECTION section's entries; indices beyond its length have VALID clear (R306). -/
def putCorrection (n : Nat) (d : List Byte) (s : State) : State :=
  (List.range 512).foldl (fun u i =>
    u.setCorr (512 * n + i) (if 128 * i < d.length then BitVec.ofNat 1024 (unoctets ((d.drop (128 * i)).take 128)) else 0)) s

/-- The FORMAT section's entries (R307). -/
def putFormats (d : List Byte) (s : State) : State :=
  { s with lnk := { s.lnk with fmts := (List.range (d.length / 64)).foldl (fun m i =>
      sset (fun _ => 0) m i (BitVec.ofNat 512 (unoctets ((d.drop (64 * i)).take 64)))) [] } }

/-- A SEQUENCER section's states (R308). -/
def putSeq (q : Nat) (d : List Byte) (s : State) : State :=
  (List.range 128).foldl (fun u n =>
    (u.setReg (LNK_SEQ_LO.reg q n) (BitVec.ofNat 32 (dw d (2 * n)))).setReg (LNK_SEQ_HI.reg q n) (BitVec.ofNat 32 (dw d (2 * n + 1)))) s

/-- The POWER section's budget table (R309). -/
def putPower (d : List Byte) (s : State) : State :=
  { s with pwr := { s.pwr with budget := (List.range 11).foldl (fun m k => sset (fun _ => 0) m k (dw d k % 65536)) [] } }

/-- The SUPERVISOR section (R310): supervisor memory, with what it does not cover zeroed but for the image's own bytes [lo, hi) while it
is loaded from there; PCs are given to SV1-SV3. -/
def putSupervisor (d : List Byte) (lo hi : Nat) (s : State) : State :=
  let n := dw d 0
  let t := s.zeroMem (supBase + n) (supBase + max n lo) |>.zeroMem (supBase + max n hi) (supBase + 0x200000)
  let u := t.store none supBase ((d.drop 32).take n)
  [1, 2, 3].foldl (fun x k => x.setPc (64 + k) (dw d k)) u

/-- A SHARED section: a cluster's shared memory from offset 0 (R310). -/
def putShared (c : Nat) (d : List Byte) (s : State) : State := s.store none (segBase (8 * c)) d

/-- An ENGINE section: IMEM, DMEM and the start address (R310). -/
def putEngine (e : Nat) (d : List Byte) (s : State) : State :=
  let i := dw d 0
  let t := (s.store none (imemBase e) ((d.drop 16).take i)).store none (dmemBase e) ((d.drop (16 + i)).take (dw d 1))
  t.setPc e (dw d 2)

/-- An engine whose section has RUN set is started (R239, R310). -/
def startEngine (e : Nat) (d : List Byte) (s : State) : State := if dw d 3 % 2 = 1 then engRun e 1 s else s

/-- The live search plan switches: PLAN_GEN, PLAN_CHANGE, and noise estimates restart for points that changed (R53, R317). -/
def planSwitch (old new : State) : State :=
  let same (p : Nat) : Bool :=
    bf (old.reg (CNP_POINT.reg p)) 0 23 == bf (new.reg (CNP_POINT.reg p)) 0 23 && old.on (CNP_POINT.EN p) == new.on (CNP_POINT.EN p)
  let t := planStatus (noiseRestart ((List.range 2048).filter (fun p => !same p)) new)
  (t.bump CNP_PLAN_STS.PLAN_GEN).raise 1 6

/-- CLOCK records that set CLK_SYN_CTRL.EN start acquisition (R313, R379). -/
def clockApplied (old new : State) : State :=
  if new.on CLK_SYN_CTRL.EN ∧ !old.on CLK_SYN_CTRL.EN then new.setClk { new.clk with acq := true } else new

/-- A section's content is applied; lo and hi bound the image's own bytes in supervisor memory. -/
def applySect (lo hi : Nat) (x : Sect) (d : List Byte) (s : State) : State :=
  match x.typ with
  | 0x01 => clockApplied s (applyRecords 1 d s)
  | 0x02 => putSupervisor d lo hi s
  | 0x03 => syncParts s (applyRecords 3 d s)
  | 0x05 => attInit (applyRecords 5 d s)
  | 0x08 => putCurve (readCurve x.inst d) s
  | 0x09 => putRamp x.inst d s
  | 0x0A => putCorrection x.inst d s
  | 0x0B => putFormats d s
  | 0x0C => putSeq x.inst d s
  | 0x0E => putPower d s
  | 0x10 => putShared x.inst d s
  | 0x11 => putEngine x.inst d s
  | t => planStatus (applyRecords t d s)

/-! ## Content checks (R305-R310) -/

/-- The first index of a list's elements that fails a test, scaled to a byte offset. -/
def firstBad (n scale : Nat) (ok : Nat → Bool) : Option Nat := ((List.range n).find? (fun k => !ok k)).map (· * scale)

/-- A CURVE section is well formed (R305). -/
def curveBad (d : List Byte) : Option Nat :=
  let w := dw d 0
  let n := w / 65536 % 256
  let kind := w % 256
  let target := w / 256 % 256
  if kind = 0 ∨ 3 < kind ∨ (if kind = 2 then 8 else 16) ≤ target ∨ n < 2 ∨ 32 < n ∨ w / 2 ^ 24 ≠ 0 ∨ d.length ≠ 8 + 4 * n then some 0
  else if dw d 1 ≠ 0 then some 4
  else (firstBad (n - 1) 4 (fun k => decide (sgn 16 (dw d (2 + k) % 65536) < sgn 16 (dw d (3 + k) % 65536)))).map (· + 12)

/-- A RAMP section is well formed: fields within their bounds, reserved bits zero (R109, R306). -/
def rampBad (d : List Byte) : Option Nat :=
  let t := dw d 0
  let p := dw d 1
  let tOk (v : Nat) : Bool := decide (1 ≤ v) && decide (v ≤ 1024)
  if !tOk (t % 2048) ∨ !tOk (t / 65536 % 2048) ∨ t % 65536 / 2048 ≠ 0 ∨ t / 2 ^ 27 ≠ 0 then some 0
  else if p % 65536 / 2048 ≠ 0 ∨ p / 2 ^ 24 ≠ 0 then some 4
  else firstBad 64 4 (fun k =>
    if k < 2 then true
    else if k < 34 then dw d k % 65536 / 1024 == 0 && dw d k / 2 ^ 26 == 0
    else dw d k == 0)

/-- A CORRECTION entry's reserved bits are zero (R105, R306). -/
def correctionBad (d : List Byte) : Option Nat :=
  firstBad (d.length / 128) 128 (fun i =>
    let e := d.drop (128 * i)
    dw e 0 % 2 ^ 16 / 2 ^ 13 == 0 && dw e 0 % 2 ^ 31 / 2 ^ 20 == 0 && dw e 3 == 0 && ((e.drop 0x54).take 0x2C).all (· == 0))

/-- A FORMAT entry follows R307. -/
def formatOk (e : List Byte) : Bool :=
  let w := dw e 0
  let x : BitVec 512 := BitVec.ofNat 512 (unoctets e)
  let kind := w % 16
  let ver := FM.FC.of x / 4096 % 4
  decide (1 ≤ kind) && decide (kind ≤ 4) && w / 16 % 16 == 0 && w / 2 ^ 18 == 0 && FM.DST_MODE.of x != 1 && FM.SRC_MODE.of x != 1 &&
    decide (FM.IE_LEN.of x ≤ 40) && dw e 1 / 2 ^ 24 == 0 && dw e 2 == 0 && dw e 3 == 0 && dw e 14 == 0 && dw e 15 == 0 &&
    FM.FC.of x / 8 % 2 == 0 && FM.FC.of x / 16 % 2 == 0 && FM.FC.of x / 64 % 2 == 0 && FM.FC.of x / 512 % 2 == 0 &&
    (kind != 1 || (ver == 1 && w / 256 % 1024 == 1)) && (kind != 2 || ver == 2) &&
    (FM.INS_TCORR.of x == 0 || kind == 2) && ((FM.INS_RZ.of x == 1) == (kind == 3))

/-- The FORMAT section is well formed, and LNK_CSL_WUF.FMT names a wake-up entry of the state t the image would leave (R307). -/
def formatBad (t : State) (d : List Byte) : Option Nat :=
  match firstBad (d.length / 64) 64 (fun i => formatOk ((d.drop (64 * i)).take 64)) with
  | some o => some o
  | none => if FM.KIND.of (sget (fun _ => 0) t.lnk.fmts (t.rd LNK_CSL_WUF.FMT)) = 3 then none else some (64 * t.rd LNK_CSL_WUF.FMT)

/-- The build actions of a SEQUENCER name entries of their kind (R174, R307). -/
def seqBad (t : State) (d : List Byte) : Option Nat :=
  firstBad 128 8 (fun n =>
    let act := dw d (2 * n) / 65536 % 256
    let kind := FM.KIND.of (sget (fun _ => 0) t.lnk.fmts (dw d (2 * n) / 2 ^ 24))
    (act != 1 || kind == 1) && (act != 2 || kind == 2))

/-- The POWER section is well formed (R309). -/
def powerBad (d : List Byte) : Option Nat :=
  firstBad 32 4 (fun k => dw d k / 65536 == 0 && (decide (k < 11) || dw d k == 0))

/-- The SUPERVISOR header agrees with the data (R310). -/
def supervisorBad (d : List Byte) : Option Nat :=
  if dw d 0 ≠ d.length - 32 then some 0 else firstBad 8 4 (fun k => decide (k < 4) || dw d k == 0)

/-- An ENGINE header agrees with the data (R310). -/
def engineBad (d : List Byte) : Option Nat :=
  if dw d 0 % 4 ≠ 0 ∨ 0x8000 < dw d 0 then some 0
  else if dw d 1 % 4 ≠ 0 ∨ 0x10000 < dw d 1 ∨ d.length ≠ 16 + dw d 0 + dw d 1 then some 4
  else if 2 ≤ dw d 3 then some 12
  else none

/-- The byte offset at which a section's content fails, in the state t the image would leave (R305-R310). -/
def contentBad (t : State) (x : Sect) (d : List Byte) : Option Nat :=
  match x.typ with
  | 0x02 => supervisorBad d
  | 0x08 => curveBad d
  | 0x09 => rampBad d
  | 0x0A => correctionBad d
  | 0x0B => formatBad t d
  | 0x0C => seqBad t d
  | 0x0E => powerBad d
  | 0x11 => engineBad d
  | _ => none

/-! ## Validation rules (R312) -/

/-- Twice the occupied bandwidth of a rate in kHz, halved: the bandwidth in kHz (R40). -/
def bandKhz (r : Nat) : Nat := match r with | 0 => 2000 | 1 => 200 | 2 => 400 | 3 => 400 | _ => 1000

/-- The spacing code a rate needs (R40, R68). -/
def rateSpacing (r : Nat) : Nat := match r with | 0 => 3 | 1 => 0 | 2 => 1 | 3 => 1 | _ => 2

/-- The centre of a slice in kHz. -/
def sliceCentre (s : State) (b : Nat) : Nat := if b = 0 then s.rd CNP_SLICE_SUB.CENTRE_KHZ else s.rd CNP_SLICE_24.CENTRE_KHZ

/-- A slice is enabled. -/
def sliceOn (s : State) (b : Nat) : Bool := if b = 0 then s.on CNP_SLICE_SUB.EN else s.on CNP_SLICE_24.EN

/-- A band of a width around a centre, both in Hz, lies in a slice's usable passband (R38). -/
def inPassband (s : State) (b : Nat) (centre width : Int) : Bool :=
  let c : Int := 1000 * sliceCentre s b
  decide (2 * (c - 44000000) ≤ 2 * centre - width) && decide (2 * centre + width ≤ 2 * (c + 44000000))

/-- The enabled grids. -/
def gridsOn (s : State) : List Nat := (List.range 16).filter (fun g => s.on (CNP_GRID_BASE.EN g))

/-- The enabled points. -/
def pointsOn (s : State) : List Nat := (List.range 2048).filter (fun p => s.on (CNP_POINT.EN p))

/-- An enabled grid breaks R39: its slice is disabled, a rate does not fit its spacing and slice, or a band leaves the passband. -/
def gridBreaks (s : State) (g : Nat) : Bool :=
  let b := s.rd (CNP_GRID_BASE.SLICE g)
  !sliceOn s b || (bitsOf (s.rd (CNP_GRID_GEOM.RATES g)) 8).any (fun r =>
    rateSlice r != b || rateSpacing r != s.rd (CNP_GRID_GEOM.SPACING g) ||
      [0, s.rd (CNP_GRID_GEOM.COUNT g) - 1].any (fun k => !inPassband s b (1000 * chanKhz s g k) (1000 * bandKhz r)))

/-- An enabled point breaks R39: its search channel leaves the passband of its slice, or that is disabled. -/
def pointBreaks (s : State) (p : Nat) : Bool :=
  let g := s.rd (CNP_POINT.GRID p)
  let r := s.rd (CNP_POINT.RATE p)
  let b := s.rd (CNP_GRID_BASE.SLICE g)
  !sliceOn s b || !inPassband s b (1000 * chanKhz s g (s.rd (CNP_POINT.CHAN p)) + pointOfs s p * twoTol r) (1000 * bandKhz r)

/-- An enabled grid breaks R41. -/
def geomBreaks (s : State) (g : Nat) : Bool :=
  s.rd (CNP_GRID_GEOM.COUNT g) == 0 || decide (256 < s.rd (CNP_GRID_GEOM.FIRST_CHAN g) + s.rd (CNP_GRID_GEOM.COUNT g))

/-- Some pair of distinct elements of a list stands in a relation. -/
def somePair (xs : List Nat) (r : Nat → Nat → Bool) : Bool := xs.any (fun x => xs.any (fun y => decide (x < y) && r x y))

/-- The enabled points break R44. -/
def planBreaks (s : State) : Bool :=
  let ps := pointsOn s
  decide (2048 < ps.length) || somePair ps (fun x y => bf (s.reg (CNP_POINT.reg x)) 0 23 == bf (s.reg (CNP_POINT.reg y)) 0 23) ||
    ps.any (fun p =>
      let g := s.rd (CNP_POINT.GRID p)
      !s.on (CNP_GRID_BASE.EN g) || decide (s.rd (CNP_GRID_GEOM.COUNT g) ≤ s.rd (CNP_POINT.CHAN p)) ||
        !bitOn (s.rd (CNP_GRID_GEOM.RATES g)) (s.rd (CNP_POINT.RATE p)))

/-- The grids that carry transmit traffic. -/
def txGrids (s : State) : List Nat := (gridsOn s).filter (fun g => s.on (TXC_CORR_BASE.EN g))

/-- The correction bases of the enabled grids, or the entries of one that carries transmit traffic, break R104. -/
def corrBreaks (s : State) : Bool :=
  let b (g : Nat) : Nat := s.rd (TXC_CORR_BASE.BASE g)
  let n (g : Nat) : Nat := s.rd (CNP_GRID_GEOM.COUNT g)
  somePair (gridsOn s) (fun x y => decide (b x < b y + n y) && decide (b y < b x + n x)) ||
    (gridsOn s).any (fun g => decide (512 < b g + n g)) ||
    (txGrids s).any (fun g => (List.range 8).any (fun c => (List.range (n g)).any (fun k => CE.VALID.of (corrEntry s c g k) == 0)))

/-- A ramp curve breaks R109. -/
def rampBreaks (s : State) (c : Nat) : Bool := decide (1344 < s.rd (TXC_RAMP_T.T_UP c) + s.rd (TXC_RAMP_PA.PA_EN_LEAD c))

/-- Two enabled PAN entries share a PAN identifier on an overlapping grid mask (R144). -/
def panBreaks (s : State) : Bool :=
  somePair ((List.range 64).filter (fun i => s.on (LNK_PAN_CFG.EN i))) (fun x y =>
    s.rd (LNK_PAN_ID.PAN_ID x) == s.rd (LNK_PAN_ID.PAN_ID y) && Nat.land (s.rd (LNK_PAN_CFG.GRIDS x)) (s.rd (LNK_PAN_CFG.GRIDS y)) != 0)

/-- TSCH or a slotframe is enabled with a template that breaks R168. -/
def tschBreaks (s : State) : Bool := (s.on LNK_TSCH_CTRL.EN || (List.range 8).any (fun f => s.on (LNK_SF_CFG.EN f))) && !templateOk s

/-- A sequencer program uses a reserved code (R174). -/
def seqBreaks (s : State) (q : Nat) : Bool :=
  (List.range 128).any (fun n =>
    let e := seqState s q n
    decide (11 < SS.COND.of e) || decide (6 < SS.BASE.of e) || decide (10 < SS.ACTION.of e))

/-- The partition map breaks R204. -/
def shareBreaks (s : State) : Bool :=
  (List.range 64).any (fun p =>
    decide (s.rd (PRT_P_LANE.CAP p) < s.rd (PRT_P_LANE.GUAR p)) || decide (s.rd (PRT_P_CELL_CAP.CAP p) < s.rd (PRT_P_CELL_GUAR.GUAR p)) ||
      decide (s.rd (PRT_P_AIR_CAP.CAP p) < s.rd (PRT_P_AIR_GUAR.GUAR p)) || decide (s.rd (PRT_P_PWR.CAP p) < s.rd (PRT_P_PWR.GUAR p))) ||
    [0x104, 0x108, 0x110, 0x118].any (fun off => sumsOk s off == some false)

/-- A cluster delivers to a partition that has no engine on it (R225). -/
def deliverBreaks (s : State) : Bool :=
  (List.range 8).any (fun c => (List.range 64).any (fun p =>
    s.on (ENG_C_RX.EN c p) && !(List.range 8).any (fun k => s.engOwner (8 * c + k) == p)))

/-- An enabled cell names a node of another partition than its own (R175). -/
def cellBreaks (s : State) : Bool :=
  anyRow s (LNK_CELL1.reg 0) (LNK_CELL1.reg 8192) 8 (fun _ w => bf w 23 1 == 1 && s.handleOwner (bf w 0 16) != bf w 24 6)

/-- The synthesiser's settings break R378. -/
def synBreaks (s : State) : Bool :=
  let ref := s.rd CLK_SYN_REF.REF_KHZ
  let rdiv := s.rd CLK_SYN_REF.RDIV
  let got := ref * (s.rd CLK_SYN_N.N * 2 ^ 24 + s.rd CLK_SYN_FRAC.FRAC)
  let want := 6144000 * rdiv * 2 ^ 24
  decide (ref < 10000 * rdiv) || decide (62500 * rdiv < ref) || decide (want < 1000000000 * (got - want)) ||
    decide (want < 1000000000 * (want - got))

/-- A grid that carries transmit traffic has a rate whose transmit settings lie outside their ranges (R436). -/
def phyBreaks (s : State) : Bool := (txGrids s).any (fun g => (bitsOf (s.rd (CNP_GRID_GEOM.RATES g)) 8).any (fun r => !txRateOk s r))

/-- An enabled antenna of an enabled slice has no RSSI calibration curve, or two curves have one kind and target (R305). -/
def curveBreaks (s : State) : Bool :=
  (List.range 8).any (fun n => [0, 1].any (fun b =>
    bitOn (s.rd CNP_ANT_EN.EN) n && sliceOn s b && (s.curve 1 (n + 8 * b)).isNone)) ||
    somePair (List.range s.curves.length) (fun i j =>
      match s.curves[i]?, s.curves[j]? with
      | some x, some y => x.kind == y.kind && x.target == y.target
      | _, _ => false)

/-- A format builds a frame version the device does not support (R5). -/
def versionBreaks (s : State) : Bool :=
  s.lnk.fmts.any (fun p => FM.KIND.of p.2 != 0 && (FM.FC.of p.2 / 4096 % 4 == 0 || FM.FC.of p.2 / 4096 % 4 == 3))

/-- A section type takes part in a breach. -/
def ofTypes (ts : List Nat) (x : Sect) : Bool := ts.contains x.typ

/-- The rules a state breaks, each by the sections that take part in the breach (R312). -/
def ruleBreaches (t : State) : List (Sect → Bool) :=
  let one (b : Bool) (f : Sect → Bool) : List (Sect → Bool) := if b then [f] else []
  one (synBreaks t) (ofTypes [0x01]) ++ one (shareBreaks t) (ofTypes [0x03, 0x0E, 0x0F]) ++
    one ((gridsOn t).any (gridBreaks t)) (ofTypes [0x04, 0x05]) ++ one ((gridsOn t).any (geomBreaks t)) (ofTypes [0x04]) ++
    one ((pointsOn t).any (pointBreaks t)) (ofTypes [0x04, 0x05, 0x06]) ++ one (planBreaks t) (ofTypes [0x04, 0x06]) ++
    one (corrBreaks t) (ofTypes [0x04, 0x0A, 0x0F]) ++ one (phyBreaks t) (ofTypes [0x04, 0x0F]) ++
    one (curveBreaks t) (ofTypes [0x05, 0x08]) ++
    ((List.range 16).filter (rampBreaks t)).map (fun c x => x.typ == 0x09 && x.inst == c) ++
    one (versionBreaks t) (ofTypes [0x0B]) ++ ((List.range 8).filter (seqBreaks t)).map (fun q x => x.typ == 0x0C && x.inst == q) ++
    one (panBreaks t) (ofTypes [0x0D, 0x0F]) ++ one (tschBreaks t) (ofTypes [0x0D, 0x0F]) ++
    one (cellBreaks t) (ofTypes [0x03, 0x0D, 0x0F]) ++ one (deliverBreaks t) (ofTypes [0x03, 0x0F])

/-- The first section, in table order, that takes part in a breach; none where no rule is broken (R312). -/
def ruleFail (t : State) (secs : List Sect) : Option Nat :=
  let bs := ruleBreaches t
  if bs.isEmpty then none
  else some (((secs.filter (fun x => bs.any (fun f => f x))).map (·.idx)).headD 0xFF)

/-! ## Pass 1 (R311, R313) -/

/-- A failed check: code, section table index, byte offset within the section where the spec tells it. -/
structure LoadErr where
  code : Nat
  sec : Nat
  ofs : Option Nat
  deriving DecidableEq, Repr

/-- The checks of the header's first fields (R299, R311). -/
def headErr (s : State) (mode src a : Nat) : Option LoadErr :=
  let w (k : Nat) : Nat := srcWord s src (a + 4 * k)
  let zero (lo n : Nat) : Bool := (srcBytes s src (a + lo) n).all (· == 0)
  let live := mode == 1
  if w 0 ≠ 0x57545248 then some ⟨1, 255, some 0⟩
  else if w 1 % 256 ≠ 1 ∨ w 1 / 256 % 256 ≠ (if live then 2 else 1) ∨ w 1 / 65536 ≠ 0x100 then some ⟨2, 255, some 4⟩
  else if w 2 / 2 ^ 24 ≠ 0 then some ⟨2, 255, some 8⟩
  else if w 6 / 2 ^ 10 ≠ 0 then some ⟨2, 255, some 0x18⟩
  else if w 7 / 2 ^ 18 ≠ 0 ∨ (live ∧ w 7 ≠ 0) then some ⟨2, 255, some 0x1C⟩
  else if !live ∧ !zero 0x20 48 then some ⟨2, 255, some 0x20⟩
  else if !zero 0xB0 0x50 then some ⟨2, 255, some 0xB0⟩
  else if w 2 % 65536 ≠ 0x6480 ∨ s.rd TOP_ID.STEP < w 2 / 65536 % 256 then some ⟨3, 255, some 8⟩
  else none

/-- The lengths, bounds, alignment, order and overlap of the image and its sections (R298, R300, R311, R320). -/
def boundsErr (s : State) (src a : Nat) : Option LoadErr :=
  let n := sectCount s src a
  let total := srcWord s src (a + 0x0C)
  let secs := readTable s src a
  let start := 0x180 + 64 * n
  if a % (if src = 0 then 4096 else 64) ≠ 0 ∨ srcSize src < a + total ∨ 0xF00000 < total ∨ total % 64 ≠ 0 ∨ total < start then
    some ⟨4, 255, some 0x0C⟩
  else if n = 0 then some ⟨4, 255, some 0x18⟩
  else
    let prev (x : Sect) : Option Sect := if x.idx = 0 then none else some (readSect s src a (x.idx - 1))
    (secs.find? (fun x =>
      x.off % 64 != 0 || decide (x.off < start) || decide (total < x.off + x.len) ||
        match prev x with
        | some y => decide (256 * x.typ + x.inst ≤ 256 * y.typ + y.inst) || decide (x.off < y.off + y.len)
        | none => false)).map (fun x => ⟨4, x.idx, none⟩)

/-- Key, signature, rollback and, for a live image, the base it is bound to (R301, R311, R335). -/
def trustErr (s : State) (mode src a : Nat) : Option LoadErr :=
  let h := readHdr s src a
  let n := sectCount s src a
  let pub := srcBytes s src (a + 0x50) 96
  let sig := srcBytes s src (a + 0x100 + 64 * n) 96
  if s.fuses.revoked.contains h.key ∨ sfind s.fuses.keys h.key ≠ some (Config.sha384 pub) then some ⟨5, 255, some 0x50⟩
  else if !Config.ecdsaVerify pub h.digest sig then some ⟨6, 255, none⟩
  else if (if mode = 1 then decide (h.secver ≠ s.rd FLC_IMG_SECVER.SEC_VERSION) else decide (h.secver < s.fuses.floor)) then
    some ⟨7, 255, some 0x10⟩
  else if mode = 1 ∧ srcBytes s src (a + 0x20) 48 ≠ (List.range 12).flatMap (fun w => octets 4 (s.rd (FLC_IMG_DIGEST.DIGEST w))) then
    some ⟨8, 255, some 0x20⟩
  else none

/-- The first section that fails a test, with the offset the test gives. -/
def sectErr (code : Nat) (secs : List Sect) (bad : Sect → Option (Option Nat)) : Option LoadErr :=
  (secs.findSome? (fun x => (bad x).map (fun o => (x.idx, o)))).map (fun y => ⟨code, y.1, y.2⟩)

/-- A section type, instance or length is not allowed (R302). -/
def typeErr (mode : Nat) (secs : List Sect) : Option LoadErr :=
  match sectErr 0x0B secs (fun x =>
    if (match sectInstances x.typ with | some n => decide (x.inst < n) | none => false) && sectLenOk x.typ x.len &&
        (mode != 1 || liveType x.typ) then none else some none) with
  | some e => some e
  | none =>
    if mode ≠ 1 ∧ requiredSects.any (fun r => !secs.any (fun x => x.typ == r.1 && x.inst == r.2)) then some ⟨0x0B, 255, none⟩ else none

/-- The sections a load of a mode applies: all, or those of RADIO scope at a RADIO reload (R313, R315). -/
def modeSects (mode : Nat) (secs : List Sect) : List Sect := if mode = 2 then secs.filter (fun x => !chipScope x.typ) else secs

/-- The state sections would leave, judged whole (R312): a base image's from reset, a live image's over the active image, and those of a RADIO
reload over what the CHIP domain keeps. -/
def leaves (s : State) (mode src a : Nat) (secs : List Sect) : State :=
  let own := secs.map (fun x => (x, sectData s src a x))
  let before := if mode = 1 then s.flc.base ++ s.flc.live else []
  (before ++ own).foldl (fun t p => applySect 0 0 p.1 p.2 t) (if mode = 2 then { s with curves := [] } else State.reset)

/-- The first check that fails, of an image at an address of a source, for a load of a mode; checks run in the order of R311. -/
def imgErr (s : State) (mode src a : Nat) : Option LoadErr :=
  match headErr s mode src a with
  | some e => some e
  | none => match boundsErr s src a with
    | some e => some e
    | none => match trustErr s mode src a with
      | some e => some e
      | none =>
        let secs := readTable s src a
        let data (x : Sect) := sectData s src a x
        match sectErr 9 secs (fun x => if crc32c (data x) = x.crc then none else some none) with
        | some e => some e
        | none => match sectErr 0x0A secs (fun x => if Config.sha384 (data x) = x.digest then none else some none) with
          | some e => some e
          | none => match typeErr mode secs with
            | some e => some e
            | none => match sectErr 0x0C (secs.filter (fun x => recordType x.typ)) (fun x =>
                (firstBad (x.len / 8) 8 (fun k => recordOk x.typ (dw (data x) (2 * k)) (dw (data x) (2 * k + 1)))).map some) with
              | some e => some e
              | none =>
                let t := leaves s mode src a (modeSects mode secs)
                match sectErr 0x0D secs (fun x => (contentBad t x (data x)).map some) with
                | some e => some e
                | none => (ruleFail t secs).map (fun i => ⟨0x0E, i, none⟩)

end Sys2Proof.Machine
end

