-- ==== Sys2Proof/Machine/Image.lean ====
section
/-! DEFINITION. The image loader (R313-R320): base, live and RADIO loads, their failures and their ends. -/

namespace Sys2Proof.Machine

/-! ## Failures -/

/-- The base or RADIO state that a live load falls back to (R319). -/
def liveState (s : State) : Nat := if s.flc.liveRadio || s.flc.liveChip then 5 else 3

/-- A partition reset that a RADIO reset absorbed completes with the reload: for DEPART the key slots are erased, at whatever time it was
asked for, and the links cleared again (R211). -/
def absorbed (s : State) (r : PReset) : State := partResetEnd r (if r.scope = 2 then clearLinks r.part (eraseKeys r.part s) else s)

/-- The RADIO reset's reload is over: partition resets that it absorbed complete (R211). -/
def reloadOver (s : State) : State := s.prt.resets.foldl absorbed (s.wr TOP_RESET_STS.RADIO_BUSY 0)

/-- A number that the spec leaves open where it is not given (log entry 1). -/
def orFree (f : RegFld) (v : Option Nat) (s : State) : State :=
  match v with
  | some x => s.wr f x
  | none => s.freed.wr f (s.freeVal (2 ^ f.w))

/-- The failure registers take a code, a section and an offset, and LOAD_FAIL is raised (R311, R320). -/
def reportLoad (code : Nat) (sec ofs : Option Nat) (s : State) : State :=
  (orFree FLC_IMG_FAIL_OFS.OFFSET ofs (orFree FLC_IMG_STS.FAIL_SEC sec (s.wr FLC_IMG_STS.CODE code))).raise 13 1

/-- A load fails: STATE becomes FAILED, or for a live load the state in force (R311-R319). -/
def imgFail (code : Nat) (sec ofs : Option Nat) (s : State) : State :=
  match s.flc.load with
  | none => s
  | some j =>
    let t := (s.setFlc { s.flc with load := none }).wr FLC_IMG_CTRL.BUSY 0
    let u := reportLoad code sec ofs (t.wr FLC_IMG_STS.STATE (if j.mode = 1 then liveState s else 4))
    if j.mode = 2 then reloadOver u else u

/-! ## Pass 1 and CLOCK -/

/-- The header's length of an image, at most the largest (R298). -/
def imgSpan (s : State) (src a : Nat) : Nat := min (srcWord s src (a + 0x0C)) 0xF00000

/-- Reads of the image stall: a bank that it lies in is busy (R349). -/
def imgStalls (s : State) (src a : Nat) : Bool :=
  src == 0 && s.on FLC_STS.BANK_BUSY &&
    (List.range (ceilDiv (imgSpan s src a) 4096 + 1)).any (fun k => bitOn (s.rd FLC_STS.BANK_BUSY) (physSector s (a / 4096 + k) / 2048))

/-- The mode whose checks a load runs: a return from DORMANT loads a base (R368). -/
def checkMode (mode : Nat) : Nat := if mode = 3 then 0 else mode

/-- A section is loaded by a job: one of a RADIO reload, or of a return from DORMANT, skips what it keeps (R313, R315, R368). -/
def jobSects (s : State) (j : LoadJob) (secs : List Sect) : List Sect :=
  if j.mode = 3 then
    secs.filter (fun x => !(x.typ == 2 && bitOn (s.rd PWR_RET_CFG.BANKS) 2) && !((x.typ == 0x10 || x.typ == 0x11) && bitOn (s.rd PWR_RET_CFG.BANKS) 3))
  else modeSects j.mode secs

/-- Pass 1 passes: the header and the sections to apply are kept, STATE is APPLYING, and a base load applies CLOCK and waits 50 ms for
lock (R313). -/
def pass2 (j : LoadJob) (s : State) : State :=
  let secs := jobSects s j (readTable s j.src j.addr)
  let base := j.mode == 0 || j.mode == 3
  let k : LoadJob := { j with checked := true, hdr := readHdr s j.src j.addr, left := if base then secs.filter (fun x => x.typ != 1) else secs }
  let t := (s.setFlc { s.flc with load := some k }).wr FLC_IMG_STS.STATE 2
  if base then
    let u := (secs.filter (fun x => x.typ == 1)).foldl (fun v x => applySect 0 0 x (sectData s j.src j.addr x) v) t
    if j.locks then u else imgFail 0x10 none none (u.elapse 1600000)
  else t

/-- Pass 1 of the job (R311, R313). -/
def pass1 (s : State) : State :=
  match s.flc.load with
  | none => s
  | some j =>
    if j.checked || imgStalls s j.src j.addr then s
    else match imgErr s (checkMode j.mode) j.src j.addr with
      | some e => imgFail e.code (some e.sec) e.ofs s
      | none => pass2 j s

/-- A header not read yet. -/
def noHdr : ImgHdr := ⟨0, 0, 0, 0, 0, []⟩

/-- A load begins (R313, R315, R316). -/
def imgBegin (mode addr src : Nat) (locks : Bool) (s : State) : State :=
  let t := ((s.setFlc { s.flc with load := some ⟨mode, addr, src, locks, false, noHdr, []⟩ }).wr FLC_IMG_CTRL.BUSY 1).wr FLC_IMG_STS.STATE 1
  if mode = 2 then t else pass1 t

/-- A write of FLC_IMG_CTRL with START: ignored while a load runs or in a state that does not accept it; SEEDLING in seedling mode
(R313, R316, R318, R330). -/
def imgStart (mode : Nat) (sup locks : Bool) (s : State) : State :=
  if s.on FLC_IMG_CTRL.BUSY then s
  else
    let src := if sup then 1 else 0
    let t := (s.wr FLC_IMG_CTRL.MODE mode).wr FLC_IMG_CTRL.SRC src
    if s.on TOP_START_STS.SEEDLING then reportLoad 0xE2 none none t
    else if (if mode = 1 then [3, 5] else [0, 4]).contains (s.rd FLC_IMG_STS.STATE) then imgBegin mode (s.rd FLC_IMG_ADDR.ADDR) src locks t
    else t

/-- BASE_LOAD (R313): locks tells whether the synthesiser and the aligner lock in time under the image's CLOCK section. -/
def execBaseLoad (f : Fn) (sup locks : Bool) (s : State) : Host.Outcome State Fault Refusal :=
  .next (s.p0Only f FLC_IMG_CTRL.reg (imgStart 0 sup locks s))

/-- LIVE_LOAD (R316). -/
def execLiveLoad (f : Fn) (sup : Bool) (s : State) : Host.Outcome State Fault Refusal :=
  .next (s.p0Only f FLC_IMG_CTRL.reg (imgStart 1 sup true s))

/-- LOAD_ABORT: a live load ends ABORTED (R318). -/
def imgAbort (s : State) : State := if s.flc.load.any (fun j => j.mode == 1) then imgFail 0x11 none none s else s

/-- LOAD_ABORT. -/
def execLoadAbort (f : Fn) (s : State) : Host.Outcome State Fault Refusal := .next (s.p0Only f FLC_IMG_CTRL.reg (imgAbort s))

/-! ## Pass 2 (R313, R314) -/

/-- A section's data still has its digest (R314). -/
def digestOk (s : State) (j : LoadJob) (x : Sect) : Bool := Config.sha384 (sectData s j.src j.addr x) == x.digest

/-- Sections are applied in order until one's digest differs: that one, with the state (R314). An image in supervisor memory stays
there. -/
def applyAll (j : LoadJob) : List Sect → State → State × Option Sect
  | [], s => (s, none)
  | x :: xs, s =>
    if digestOk s j x then
      let lo := if j.src = 1 then j.addr else 0
      let hi := if j.src = 1 then j.addr + j.hdr.total else 0
      applyAll j xs (applySect lo hi x (sectData s j.src j.addr x) s)
    else (s, some x)

/-- The order in which a base load applies its sections: SUPERVISOR, PARTMAP, RADIO, POWER (R313). -/
def baseOrder (secs : List Sect) : List Sect :=
  secs.filter (fun x => x.typ == 2) ++ secs.filter (fun x => x.typ == 3) ++ secs.filter (fun x => !chipScope x.typ) ++
    secs.filter (fun x => x.typ == 0x0E)

/-- Engines whose sections have RUN start (R239, R310). -/
def startEngines (j : LoadJob) (s : State) : State :=
  (j.left.filter (fun x => x.typ == 0x11)).foldl (fun u x => startEngine x.inst (sectData s j.src j.addr x) u) s

/-- The lock bits of LOCK_MASK (R299). -/
def lockBits : List RegFld :=
  [CNP_CTRL.LOCK, LNE_CTRL.LOCK, TXC_CTRL.LOCK, LNK_CTRL.LOCK, QUE_CTRL.LOCK, SEC_CTRL.LOCK, PRT_CTRL.LOCK, HST_CTRL.LOCK, SUP_CTRL.LOCK,
    SUP_CTRL.MEM_LOCK] ++ (List.range 8).map ENG_C_CTRL.LOCK

/-- The lock bits that a mask names are set (R299). -/
def setLocks (mask : Nat) (s : State) : State :=
  (lockBits.zipIdx.filter (fun p => bitOn mask p.2)).foldl (fun u p => u.wr p.1 1) s

/-- The bits of a mask in the RADIO domain: 0-5 and 10-17 (R315). -/
def radioLocks (mask : Nat) : Nat := mask % 64 + mask / 1024 * 1024

/-- Supervisors 1 to 3 with a start address run (R313). -/
def runSupervisors (s : State) : State := [1, 2, 3].foldl (fun u k => if u.pcOf (64 + k) = 0 then u else supRun k false u) s

/-- The slot of the boot block an image's address is the base of (R337). -/
def slotOf (s : State) (src a : Nat) : Option Nat :=
  if src = 0 then
    match s.flc.boot with
    | some b => if a = b.slotA.1 then some 0 else if a = b.slotB.1 then some 1 else none
    | none => none
  else none

/-- The registers of the active base (R320, R343). -/
def setActive (j : LoadJob) (s : State) : State :=
  let t := ((((s.wr FLC_IMG_ACTIVE.ADDR j.addr).wr FLC_IMG_SECVER.SEC_VERSION j.hdr.secver).wr FLC_IMG_ID.IMAGE_ID j.hdr.id).wr
    FLC_IMG_LIVE_GEN.GEN 0).wr FLC_IMG_KEYS.ACTIVE_KEY j.hdr.key
  let u := (List.range 12).foldl (fun v w => v.wr (FLC_IMG_DIGEST.DIGEST w) (unoctets ((j.hdr.digest.drop (4 * w)).take 4))) t
  let sl := slotOf s j.src j.addr
  (u.setFlc { u.flc with runSlot := sl, baseSrc := j.src }).wr FLC_GRAFT_STS.RUN_SLOT (sl.getD 0)

/-- A load completes: the state it gives, BUSY clear, LOAD_DONE raised. -/
def loadEnds (st : Nat) (s : State) : State :=
  (((s.setFlc { s.flc with load := none }).wr FLC_IMG_CTRL.BUSY 0).wr FLC_IMG_STS.STATE st).raise 13 0

/-- The sections of an image with their data. -/
def sectsWith (j : LoadJob) (s : State) (secs : List Sect) : List (Sect × List Byte) := secs.map (fun x => (x, sectData s j.src j.addr x))

/-- Engine and shared memory that the sections do not cover is zero with good parity (R310); a return from DORMANT keeps what it
retained (R368). -/
def zeroEngines (j : LoadJob) (s : State) : State :=
  if j.mode = 3 ∧ bitOn (s.rd PWR_RET_CFG.BANKS) 3 then s else s.zeroMem 0x2000000 0x3000000

/-- The last steps of a base load (R313, R319). -/
def baseDone (j : LoadJob) (s : State) : State :=
  match applyAll j (baseOrder j.left) (zeroEngines j s) with
  | (t, some x) => imgFail 0x0F (some x.idx) none t
  | (t, none) =>
    let u := setActive j (setLocks j.hdr.lockMask (startEngines j (radioRuns t)))
    loadEnds 3 (runSupervisors (u.setFlc { u.flc with
      base := sectsWith j u (readTable u j.src j.addr), live := [], liveRadio := false, liveChip := false }))

/-- The end of a live load (R317, R319). -/
def liveDone (s : State) : State := loadEnds 5 (s.bump FLC_IMG_LIVE_GEN.GEN)

/-- A load completes, or its pass 1 that stalled runs (R313, R349). -/
def loadDone (s : State) : State :=
  match s.flc.load with
  | none => s
  | some j =>
    if !j.checked then (if j.mode = 2 then s else pass1 s)
    else if imgStalls s j.src j.addr then s
    else match j.mode with
      | 1 => if j.left.isEmpty then liveDone s else s
      | 2 => s
      | _ => if s.clk.tb then baseDone j s else s

/-! ## RADIO reload (R315) -/

/-- The RADIO reload: pass 1 in full, the RADIO sections, the lock bits of the domain; absorbed partition resets complete
(R211, R315, R319). -/
def radioReload (s : State) : State :=
  match s.flc.load with
  | none => s
  | some j =>
    if j.mode ≠ 2 ∨ !s.clk.tb ∨ imgStalls s j.src j.addr then s
    else match imgErr s 2 j.src j.addr with
      | some e => imgFail e.code (some e.sec) e.ofs s
      | none =>
        let k : LoadJob := { j with checked := true, hdr := readHdr s j.src j.addr, left := modeSects 2 (readTable s j.src j.addr) }
        match applyAll k k.left (s.wr FLC_IMG_STS.STATE 2) with
        | (t, some x) => imgFail 0x0F (some x.idx) none t
        | (t, none) =>
          let u := setLocks (radioLocks k.hdr.lockMask) (startEngines k (radioRuns t))
          let v := u.setFlc { u.flc with base := u.flc.base.filter (fun p => chipScope p.1.typ) ++ sectsWith k u k.left }
          reloadOver (loadEnds (if v.flc.liveChip then 5 else 3) v)

/-- RADIO_RELOAD. -/
def execRadioReload (s : State) : Host.Outcome State Fault Refusal := .next (radioReload s)

/-! ## Live switches (R317) -/

/-- The map entries that differ between two states name resources that are idle (R212). -/
def mapChangesIdle (s t : State) : Bool :=
  ((skeys s.regs ++ skeys t.regs).filter (fun a => decide (0x701000 ≤ a) && decide (a < 0x7032C0))).all (fun a =>
    match mapIdle s (a - 0x700000) with
    | some idle => ownerOf (s.reg a) == ownerOf (t.reg a) || idle
    | none => true)

/-- A section has switched: a live section of its scope is in force (R319). -/
def switched (x : Sect) (d : List Byte) (s : State) : State :=
  s.setFlc { s.flc with
    live := s.flc.live.filter (fun p => !(p.1.typ == x.typ && p.1.inst == x.inst)) ++ [(x, d)]
    liveRadio := s.flc.liveRadio || !chipScope x.typ
    liveChip := s.flc.liveChip || chipScope x.typ
    load := s.flc.load.map (fun j => { j with left := j.left.drop 1 }) }

/-- One section of a live image switches (R314, R317). -/
def switchSect (j : LoadJob) (x : Sect) (s : State) : State :=
  let s0 := if x.typ = 6 then s.at_ (ceilDiv s.atb 20480 * 20480) else s
  if !digestOk s0 j x then imgFail 0x0F (some x.idx) none s0
  else
    let d := sectData s0 j.src j.addr x
    let t := applySect 0 0 x d s0
    if x.typ = 3 then
      if mapChangesIdle s0 t && [0x104, 0x108, 0x110, 0x118].all (fun off => sumsOk t off != some false) then switched x d t
      else imgFail 0x12 (some x.idx) none s0
    else if x.typ = 6 then switched x d (planSwitch s0 t)
    else switched x d t

/-- The next section of the live image switches. -/
def liveSwitch (s : State) : State :=
  match s.flc.load with
  | none => s
  | some j =>
    if j.mode ≠ 1 ∨ !j.checked ∨ imgStalls s j.src j.addr then s
    else match j.left with
      | [] => s
      | x :: _ => switchSect j x s

/-- LIVE_SWITCH. -/
def execLiveSwitch (s : State) : Host.Outcome State Fault Refusal := .next (liveSwitch s)

end Sys2Proof.Machine
end

