-- ==== Sys2Proof/Machine/Ledger.lean ====
section
/-! DEFINITION. The boot blocks (R321-R324), the graft unit (R333-R335), the fuses (R336) and the persisted ledger (R337-R343). -/

namespace Sys2Proof.Machine

/-! ## Flash work of the units (R346) -/

/-- A ledger area's high-water GEN (R341). -/
def highGen (s : State) (area : Nat) : Nat := if area = 0 then s.info.highA else s.info.highB

/-- A program that writes a range, without the words that stay erased. -/
def programOf (a : Nat) (d : List Byte) : List NvStep := if d.all (fun b => b == 255) then [] else [.program a d]

/-! ## Boot blocks (R322-R324) -/

/-- Two ranges of flash, as (base, length), lie clear of each other. -/
def clear2 (x y : Nat × Nat) : Bool := x.2 == 0 || y.2 == 0 || decide (x.1 + x.2 ≤ y.1) || decide (y.1 + y.2 ≤ x.1)

/-- The two sectors' copies of a ledger area, as (base, length). A base of zero is no area (R342). -/
def areaRange (b : BootBlk) (area : Nat) : Nat × Nat :=
  let a := if area = 0 then b.ldgA else b.ldgB
  (a, if a = 0 then 0 else 8192 * b.sectors)

/-- Every pair of a list's elements stands in a relation. -/
def pairsOk (r : Nat × Nat → Nat × Nat → Bool) : List (Nat × Nat) → Bool
  | [] => true
  | x :: xs => xs.all (r x) && pairsOk r xs

/-- The fields of the boot block in sector k (R322). -/
def bootFields (s : State) (k : Nat) : BootBlk :=
  let w (o : Nat) : Nat := flashWord s (4096 * k + o)
  { idx := k, gen := w 8, active := w 12 % 2, trial := w 12 / 2 % 2 == 1, last := w 12 / 4 % 4, slotA := (w 16, w 20), slotB := (w 24, w 28)
    ldgA := w 32, ldgB := w 36, sectors := w 40 % 65536, tmo := w 44 % 65536 }

/-- A boot block is valid (R323). -/
def bootValid (s : State) (k : Nat) : Bool :=
  let b := bootFields s k
  let w (o : Nat) : Nat := flashWord s (4096 * k + o)
  let rs := [b.slotA, b.slotB, areaRange b 0, areaRange b 1]
  w 0 == 0x544F4F42 && w 4 == 1 && decide (1 ≤ b.gen) && decide (b.gen ≤ 0xFFFFFFFE) && decide (w 12 < 16) &&
    (flashBytes s (4096 * k + 0x30) 0xFCC).all (fun x => x == 0) && w 0xFFC == crc32c (flashBytes s (4096 * k) 0xFFC) &&
    rs.all (fun r => r.2 == 0 || (decide (0x10000 ≤ r.1) && decide (r.1 + r.2 ≤ 0x2000000))) && pairsOk clear2 rs && !sectorOpen s k

/-- The winning boot block (R323). -/
def chooseBoot (s : State) : Option BootBlk :=
  match bootValid s 0, bootValid s 1 with
  | true, true => some (if (bootFields s 0).gen < (bootFields s 1).gen then bootFields s 1 else bootFields s 0)
  | true, false => some (bootFields s 0)
  | false, true => some (bootFields s 1)
  | false, false => none

/-- A boot block's octets but for its CRC (R322). -/
def bootOctets (b : BootBlk) : List Byte :=
  [0x544F4F42, 1, b.gen, b.active + (if b.trial then 2 else 0) + 4 * b.last, b.slotA.1, b.slotA.2, b.slotB.1, b.slotB.2, b.ldgA, b.ldgB,
    b.sectors, b.tmo].flatMap (octets 4) ++ List.replicate 0xFCC 0

/-- The steps that write the block that did not win with octets (R324). -/
def blockSteps (idx : Nat) (d : List Byte) : List NvStep :=
  let o := 1 - idx
  [.erase o, .program (4096 * o) (d.take 0xFF0), .program (4096 * o + 0xFF0) (d.drop 0xFF0)]

/-- A change of the boot block: what the block that did not win takes (R324). -/
def changeSteps (b : BootBlk) : List NvStep :=
  let d := bootOctets { b with gen := b.gen + 1 }
  blockSteps b.idx (d ++ octets 4 (crc32c d))

/-- A boot block whose GEN refuses changes (R324). -/
def bootFull (b : BootBlk) : Bool := b.gen == 0xFFFFFFFE

/-- The boot block in force takes new fields, and FLC_GRAFT_STS shows LAST_GRAFT (R333, R343). -/
def setBoot (b : BootBlk) (s : State) : State := (s.setFlc { s.flc with boot := some b }).wr FLC_GRAFT_STS.LAST_GRAFT b.last

/-! ## Graft (R333-R335) -/

/-- A slot of a boot block, as (base, length). -/
def bootSlot (b : BootBlk) (k : Nat) : Nat × Nat := if k = 0 then b.slotA else b.slotB

/-- A base image loaded from a slot is in force (R333). -/
def slotInForce (s : State) : Bool := s.flc.runSlot.isSome && (s.rd FLC_IMG_STS.STATE == 3 || s.rd FLC_IMG_STS.STATE == 5)

/-- The state a graft operation needs (R333): op is 1 CHECK, 2 ARM, 4 CONFIRM, 8 WITHDRAW, 20 CONFIRM with RAISE_FLOOR. -/
def graftFrom (s : State) (op : Nat) : Bool :=
  let st := s.rd FLC_GRAFT_STS.STATE
  match op with
  | 1 => st == 0 || st == 1 || st == 5 || st == 4
  | 2 => st == 1 && s.start.okNow
  | 8 => st == 2 || st == 3 || st == 4
  | _ => st == 3 && s.start.okNow

/-- How a graft operation is turned away: SEEDLING, STATE_ERR, BB_FULL (R324, R330, R333). -/
def graftRefused (s : State) (op : Nat) : Option Nat :=
  if s.on TOP_START_STS.SEEDLING then some 0xE2
  else if !slotInForce s || !graftFrom s op then some 0xE0
  else if op ≠ 1 ∧ s.flc.boot.any bootFull then some 0xE1
  else none

/-- The boot block after a graft operation (R333). -/
def graftBlock (s : State) (op : Nat) (b : BootBlk) : BootBlk :=
  match op with
  | 2 => { b with trial := true }
  | 8 => { b with trial := false, last := 3 }
  | _ => { b with active := s.flc.runSlot.getD b.active, trial := false, last := 1 }

/-- The boot-block write of the graft operation under way begins, once the boot ROM's own writes are over (R324, R328, R333). -/
def graftBegin (s : State) : State :=
  match s.flc.graft, s.flc.boot with
  | some op, some b =>
    if op = 1 ∨ 0xE0 ≤ op ∨ (unitWork s 3).isSome then s
    else unitBegin { unit := 2, left := changeSteps (graftBlock s op b), ok := true } s
  | _, _ => s

/-- A graft operation starts; one at a time (R333). -/
def graftStart (op : Nat) (s : State) : State :=
  if s.on FLC_GRAFT_CTRL.BUSY then s
  else graftBegin ((s.wr FLC_GRAFT_CTRL.BUSY 1).setFlc { s.flc with graft := some ((graftRefused s op).getD op) })

/-- GRAFT_CHECK. -/
def execGraftCheck (f : Fn) (_v : Word) (s : State) : Host.Outcome State Fault Refusal :=
  .next (s.p0Only f 0x80A00 (graftStart 1 s))
/-- GRAFT_ARM. -/
def execGraftArm (f : Fn) (_v : Word) (s : State) : Host.Outcome State Fault Refusal :=
  .next (s.p0Only f 0x80A00 (graftStart 2 s))
/-- CONFIRM; with RAISE_FLOOR where its bit is written too. -/
def execConfirm (f : Fn) (v : Word) (s : State) : Host.Outcome State Fault Refusal :=
  .next (s.p0Only f 0x80A00 (graftStart (if bf v 4 1 = 1 then 20 else 4) s))
/-- RAISE_FLOOR: it acts with CONFIRM in the same write. -/
def execRaiseFloor (f : Fn) (v : Word) (s : State) : Host.Outcome State Fault Refusal :=
  .next (s.p0Only f 0x80A00 (if bf v 2 1 = 1 then graftStart 20 s else s))
/-- WITHDRAW. -/
def execWithdraw (f : Fn) (_v : Word) (s : State) : Host.Outcome State Fault Refusal :=
  .next (s.p0Only f 0x80A00 (graftStart 8 s))

/-- The registers that show the fuses (R320, R325, R335, R343). -/
def fuseViews (s : State) : State :=
  (((s.wr TOP_START_STS.LIMIT (s.fuses.limit.getD 3)).wr FLC_FLOOR.FLOOR s.fuses.floor).wr FLC_IMG_KEYS.PRESENT
    ((skeys s.fuses.keys).foldl bitSet 0)).wr FLC_IMG_KEYS.REVOKED (s.fuses.revoked.foldl bitSet 0)

/-- The floor rises to the active base's SEC_VERSION, at most 96, and never falls (R333, R335). -/
def raiseFloor (s : State) : State :=
  fuseViews { s with fuses := { s.fuses with floor := max s.fuses.floor (min 96 (s.rd FLC_IMG_SECVER.SEC_VERSION)) } }

/-- A graft operation is over: its code, BUSY clear, GRAFT_DONE. -/
def graftEnds (code : Nat) (s : State) : State :=
  (((s.setFlc { s.flc with graft := none }).wr FLC_GRAFT_CTRL.BUSY 0).wr FLC_GRAFT_STS.CODE code).raise 14 0

/-- CHECK runs pass 1 on the slot that is not ACTIVE (R333). -/
def graftCheck (b : BootBlk) (s : State) : State :=
  let a := (bootSlot b (1 - b.active)).1
  if imgStalls s 0 a then s
  else
    let t := s.wr FLC_GRAFT_SECVER.SEC_VERSION (srcWord s 0 (a + 0x10))
    match imgErr t 0 0 a with
    | some e => graftEnds e.code (t.wr FLC_GRAFT_STS.STATE 0)
    | none => graftEnds 0 (t.wr FLC_GRAFT_STS.STATE 1)

/-- The state that a boot-block write gives (R334). -/
def graftTo (op : Nat) : Nat := match op with | 2 => 2 | 8 => 0 | _ => 5

/-- A graft operation's boot-block write has ended. The code of a write that fails is not given: a free value, and the old block still
wins (R324; log entry 1). -/
def graftWritten (op : Nat) (b : BootBlk) (ok : Bool) (s : State) : State :=
  let r := unitClear 2 s
  if ok then
    let t := setBoot (graftBlock s op b) (r.wr FLC_GRAFT_STS.STATE (graftTo op))
    graftEnds 0 (if op = 20 then raiseFloor t else t)
  else graftEnds (r.freeVal 256) r.freed

/-- GRAFT_DONE: the operation under way completes; one whose boot-block write is not over goes on. -/
def graftDone (s : State) : State :=
  match s.flc.graft, s.flc.boot with
  | some op, some b =>
    if 0xE0 ≤ op then graftEnds op s
    else if op = 1 then graftCheck b s
    else match unitWork s 2 with
      | some w => if w.left.isEmpty then graftWritten op b w.ok s else s
      | none => graftBegin s
  | some op, none => graftEnds op s
  | none, _ => s

/-- GRAFT_DONE. -/
def execGraftDone (s : State) : Host.Outcome State Fault Refusal := .next (graftDone s)

/-! ## Fuses (R336) -/

/-- A base image is active: one was loaded since the CHIP reset. -/
def baseActive (s : State) : Bool := !s.on TOP_START_STS.SEEDLING && s.rd FLC_IMG_STS.STATE != 0 && s.rd FLC_IMG_STS.STATE != 4

/-- Key k is fused. -/
def keyPresent (s : State) (k : Nat) : Bool := (skeys s.fuses.keys).contains k

/-- A fuse operation is allowed: op is 1 PROGRAM_KEY, 2 REVOKE_KEY, 3 SET_LIMIT (R336). -/
def fuseAllowed (s : State) (op : Nat) : Bool :=
  let k := s.rd FLC_FUSE_CMD.INDEX
  match op with
  | 1 => !keyPresent s k
  | 2 => keyPresent s k && !(baseActive s && s.rd FLC_IMG_KEYS.ACTIVE_KEY == k) &&
      (List.range 4).any (fun j => j != k && keyPresent s j && !s.fuses.revoked.contains j)
  | _ => s.fuses.limit.isNone && decide (2 ≤ s.rd FLC_FUSE_CMD.LIMIT)

/-- The fuses that an operation blows (R336). -/
def fuseBlow (op : Nat) (s : State) : State :=
  let k := s.rd FLC_FUSE_CMD.INDEX
  let x := match op with
    | 1 => { s.fuses with keys := sput s.fuses.keys k ((List.range 12).flatMap (fun w => octets 4 (s.rd (FLC_FUSE_DATA.HASH w)))) }
    | 2 => { s.fuses with revoked := if s.fuses.revoked.contains k then s.fuses.revoked else s.fuses.revoked ++ [k] }
    | _ => { s.fuses with limit := some (s.rd FLC_FUSE_CMD.LIMIT) }
  fuseViews { s with fuses := x }

/-- A write of FLC_FUSE_CMD with an operation; it is ignored while one runs. -/
def fuseStart (op : Nat) (v : Word) (s : State) : State :=
  if s.on FLC_FUSE_CMD.BUSY then s
  else (((s.regWrite 0x80A10 v).wr FLC_FUSE_CMD.BUSY 1)).setFlc { s.flc with fuse := some op }

/-- PROGRAM_KEY. -/
def execProgramKey (f : Fn) (v : Word) (s : State) : Host.Outcome State Fault Refusal := .next (s.p0Only f 0x80A10 (fuseStart 1 v s))
/-- REVOKE_KEY. -/
def execRevokeKey (f : Fn) (v : Word) (s : State) : Host.Outcome State Fault Refusal := .next (s.p0Only f 0x80A10 (fuseStart 2 v s))
/-- SET_LIMIT. -/
def execSetLimit (f : Fn) (v : Word) (s : State) : Host.Outcome State Fault Refusal := .next (s.p0Only f 0x80A10 (fuseStart 3 v s))

/-- A fuse operation is over. -/
def fuseEnds (status : Nat) (s : State) : State :=
  (((s.setFlc { s.flc with fuse := none }).wr FLC_FUSE_CMD.BUSY 0).wr FLC_FUSE_CMD.STATUS status).raise 14 2

/-- FUSE_DONE: fail tells that the fuses did not take the value, which ends FUSE_FAIL (R336, R343). -/
def fuseDone (fail : Bool) (s : State) : State :=
  match s.flc.fuse with
  | some op => if !fuseAllowed s op then fuseEnds 1 s else if fail then fuseEnds 2 s else fuseEnds 0 (fuseBlow op s)
  | none => s

/-- FUSE_DONE. -/
def execFuseDone (fail : Bool) (s : State) : Host.Outcome State Fault Refusal := .next (fuseDone fail s)

/-! ## Ledger areas and copies (R337-R339) -/

/-- Address of copy c of an area. -/
def copyAt (b : BootBlk) (area c : Nat) : Nat := (areaRange b area).1 + 4096 * b.sectors * c

/-- An area can be used: its base is not zero, and its sectors lie in the flash, clear of the image slots (R342). -/
def areaOk (b : BootBlk) (area : Nat) : Bool :=
  let r := areaRange b area
  r.1 != 0 && decide (r.1 + r.2 ≤ 0x2000000) && clear2 r b.slotA && clear2 r b.slotB

/-- The chunks of a stream (R338). -/
def chunksOf (len : Nat) : Nat := ceilDiv len 4080

/-- The first 32 octets of a copy's header (R338). -/
def ledgerHead (gen fmt area long len secver id : Nat) : List Byte :=
  [0x5247444C, gen, fmt + 256 * area + 65536 * long, len, secver, id, chunksOf len, 0].flatMap (octets 4)

/-- The nonce and the a-data of chunk k (R338). Whether chunk indices start at 0 or 1 is the implementation's. -/
def chunkNonce (area gen k : Nat) : List Byte :=
  0x4C :: octets 1 area ++ (octets 4 gen).reverse ++ (octets 2 (k + Config.firstChunk)).reverse ++ List.replicate 5 0
/-- The a-data of chunk k. -/
def chunkData (head : List Byte) (k : Nat) : List Byte := head ++ (octets 2 (k + Config.firstChunk)).reverse

/-- A chunk sealed as a sector (R338). -/
def sealChunk (key head : List Byte) (area gen k : Nat) (plain : List Byte) : List Byte :=
  Config.ccmCipher key (chunkNonce area gen k) (chunkData head k) plain ++
    Config.ccmTag 16 key (chunkNonce area gen k) (chunkData head k) plain

/-- A sealed sector's plaintext, if its tag verifies. -/
def openChunk (key head : List Byte) (area gen k : Nat) (x : List Byte) : Option (List Byte) :=
  let plain := Config.ccmPlain key (chunkNonce area gen k) (chunkData head k) (x.take 4080)
  if Config.ccmTag 16 key (chunkNonce area gen k) (chunkData head k) plain = x.drop 4080 then some plain else none

/-- A header word of a copy. -/
def copyWord (s : State) (a o : Nat) : Nat := flashWord s (a + o)

/-- The GEN of a copy's header, zero where it is none (R340). -/
def copyGen (s : State) (a : Nat) : Nat :=
  let g := copyWord s a 4
  if 1 ≤ g ∧ g ≤ 0xFFFFFFFE then g else 0

/-- A copy's header is correct by the table (R338, R339). -/
def headerOk (s : State) (a area n : Nat) : Bool :=
  let w := copyWord s a 8
  copyWord s a 0 == 0x5247444C && copyGen s a != 0 && w % 256 != 0 && w / 256 % 256 == area && w / 65536 % 256 != 0 && w / 2 ^ 24 == 0 &&
    copyWord s a 0x18 % 65536 == chunksOf (copyWord s a 12) && decide (chunksOf (copyWord s a 12) < n) &&
    (flashBytes s (a + 0x1C) 0xFE0).all (fun x => x == 0) && copyWord s a 0xFFC == crc32c (flashBytes s a 0xFFC)

/-- The long slot a copy was sealed under. -/
def copyLong (s : State) (a : Nat) : Nat := copyWord s a 8 / 65536 % 256

/-- The plaintext of a copy's chunks, if every tag verifies (R339). -/
def copyStream (s : State) (a area : Nat) : Option (List Byte) :=
  let key := (s.lslot (copyLong s a)).key
  let head := flashBytes s a 32
  let cs := (List.range (chunksOf (copyWord s a 12))).map (fun k =>
    openChunk key head area (copyGen s a) k (flashBytes s (a + 4096 * (k + 1)) 4096))
  if (s.lslot (copyLong s a)).state = 1 ∧ cs.all Option.isSome then some (cs.filterMap id).flatten else none

/-- A copy is valid (R339). -/
def copyValid (s : State) (a area n : Nat) : Bool :=
  headerOk s a area n && (copyStream s a area).isSome &&
    (List.range n).all (fun k => !sectorOpen s (a / 4096 + k) && (decide (k ≤ chunksOf (copyWord s a 12)) || flashBlank s (a + 4096 * k) 4096))

/-- Two copies differ in some byte of their sectors. -/
def copiesDiffer (s : State) (a0 a1 n : Nat) : Bool := flashBytes s a0 (4096 * n) != flashBytes s a1 (4096 * n)

/-- The copy that wins a READ (R339). -/
def winner (s : State) (b : BootBlk) (area : Nat) : Option Nat :=
  let a0 := copyAt b area 0
  let a1 := copyAt b area 1
  match copyValid s a0 area b.sectors, copyValid s a1 area b.sectors with
  | true, true => some (if copyGen s a0 < copyGen s a1 then 1 else 0)
  | true, false => some 0
  | false, true => some 1
  | false, false => none

/-- The copy that would lose a READ; a free value where the spec tells no loser: neither copy is valid, or they are equal (R340; log
entry 1). -/
def loser (s : State) (b : BootBlk) (area : Nat) : Nat :=
  match winner s b area with
  | some w => if copiesDiffer s (copyAt b area 0) (copyAt b area 1) b.sectors then 1 - w else s.freeVal 2
  | none => s.freeVal 2

/-! ## Ledger operations (R340-R342) -/

/-- The GEN that a WRITE takes (R340). -/
def writeGen (s : State) (b : BootBlk) (area : Nat) : Nat :=
  1 + max (max (copyGen s (copyAt b area 0)) (copyGen s (copyAt b area 1))) (highGen s area)

/-- The stream that a WRITE stores, padded to whole chunks (R338). -/
def ledgerStream (s : State) : List Byte :=
  let n := s.rd FLC_LDG_LEN.LEN
  s.bytes (supBase + s.rd FLC_LDG_MEM.OFFSET) n ++ List.replicate (4080 * chunksOf n - n) 0

/-- The steps of a WRITE in their order (R340). -/
def writeSteps (s : State) (b : BootBlk) (area : Nat) : List NvStep :=
  let a := copyAt b area (loser s b area)
  let gen := writeGen s b area
  let len := s.rd FLC_LDG_LEN.LEN
  let long := s.rd FLC_LDG_CFG.LONG
  let head := ledgerHead gen (s.rd FLC_LDG_CFG.FMT) area long len (s.rd FLC_IMG_SECVER.SEC_VERSION) (s.rd FLC_IMG_ID.IMAGE_ID)
  let rest := head ++ List.replicate 0xFDC 0
  let full := rest ++ octets 4 (crc32c rest)
  let str := ledgerStream s
  ((List.range b.sectors).filter (fun k => decide (k ≤ chunksOf len) || !flashBlank s (a + 4096 * k) 4096 || sectorOpen s (a / 4096 + k))).map
      (fun k => .erase (a / 4096 + k)) ++
    [.program a (full.take 16), .highWater area gen] ++
    (List.range (chunksOf len)).map (fun k =>
      .program (a + 4096 * (k + 1)) (sealChunk (s.lslot long).key head area gen k ((str.drop (4080 * k)).take 4080))) ++
    [.program (a + 16) ((full.drop 16).take 0xFE0), .program (a + 0xFF0) (full.drop 0xFF0)]

/-- The steps that rewrite a copy as a byte copy of the other (R339). -/
def repairSteps (s : State) (src dst n : Nat) : List NvStep :=
  (List.range n).map (fun k => NvStep.erase (dst / 4096 + k)) ++
    (List.range n).flatMap (fun k => programOf (dst + 4096 * k) (flashBytes s (src + 4096 * k) 4096))

/-- The flash work of a READ: the loser's repair where it differs from the winner (R339). -/
def readSteps (s : State) (b : BootBlk) (area : Nat) : List NvStep :=
  match winner s b area with
  | some w =>
    if copiesDiffer s (copyAt b area 0) (copyAt b area 1) b.sectors then
      repairSteps s (copyAt b area w) (copyAt b area (1 - w)) b.sectors
    else []
  | none => []

/-- The area that a ledger operation works on: op is 1 WRITE, 2 READ, 3 RESET_GEN (R337). -/
def ldgArea (s : State) (op : Nat) : Option Nat := if op = 1 then s.flc.runSlot else some (s.rd FLC_LDG_CTRL.AREA)

/-- An argument of a ledger operation is bad (R342). -/
def ldgBadArg (s : State) (op : Nat) (b : BootBlk) (area : Nat) : Bool :=
  let long := s.rd FLC_LDG_CFG.LONG
  let ofs := s.rd FLC_LDG_MEM.OFFSET
  let len := s.rd FLC_LDG_LEN.LEN
  let noKey := long == 0 || (s.lslot long).state != 1
  match op with
  | 1 => noKey || s.rd FLC_LDG_CFG.FMT == 0 || decide (0x200000 < ofs + len) || decide ((b.sectors - 1) * 4080 < len)
  | 2 => noKey || (match winner s b area with
      | some w => decide (0x200000 < ofs + copyWord s (copyAt b area w) 12)
      | none => decide (0x200000 ≤ ofs))
  | _ => noKey || !flashBlank s (areaRange b area).1 (areaRange b area).2

/-- The status that a ledger operation's first checks give, which read no flash (R342). -/
def ldgEarly (s : State) (op : Nat) : Option Nat :=
  if s.on TOP_START_STS.SEEDLING then some 6
  else match s.flc.boot, ldgArea s op with
    | some b, some area => if !areaOk b area then some 4 else if s.sec.tamper ∧ op ≠ 3 then some 5 else none
    | _, _ => some 4

/-- The status that a ledger operation's checks give before any flash work; none where they pass (R342). NO_VALID is judged with
them: no flash work precedes it. -/
def ldgCheck (s : State) (op : Nat) : Option Nat :=
  match ldgEarly s op with
  | some c => some c
  | none => match s.flc.boot, ldgArea s op with
    | some b, some area =>
      if ldgBadArg s op b area then some 2
      else if op = 1 ∧ 0xFFFFFFFF ≤ writeGen s b area then some 7
      else if op = 2 ∧ (winner s b area).isNone then some 1
      else none
    | _, _ => some 4

/-- A ledger operation's reads stall on a busy bank of its area, and its unseal jobs wait while none may run (R262, R263, R349). -/
def ldgWaits (s : State) (op : Nat) : Bool :=
  (op != 3 && !keyJobsRun s) ||
    (s.on FLC_STS.BANK_BUSY && (match s.flc.boot, ldgArea s op with
      | some b, some area => (List.range (2 * b.sectors)).any (fun k =>
          bitOn (s.rd FLC_STS.BANK_BUSY) (physSector s ((areaRange b area).1 / 4096 + k) / 2048))
      | _, _ => false))

/-- The flash work of the ledger operation under way. -/
def ldgSteps (s : State) : List NvStep :=
  match s.flc.ldg, s.flc.boot with
  | some op, some b =>
    match op with
    | 1 => writeSteps s b ((ldgArea s 1).getD 0)
    | 2 => readSteps s b ((ldgArea s 2).getD 0)
    | 3 => [.highWater ((ldgArea s 3).getD 0) 0]
    | _ => []
  | _, _ => []

/-- A ledger operation is over (R342). -/
def ldgEnds (status : Nat) (s : State) : State :=
  (((s.setFlc { s.flc with ldg := none }).wr FLC_LDG_CTRL.BUSY 0).wr FLC_LDG_STS.STATUS status).raise 14 1

/-- What a WRITE reports (R343). -/
def writeReport (gen copy : Nat) (s : State) : State :=
  (((s.wr FLC_LDG_GEN.GEN gen).wr FLC_LDG_STS.COPY copy).wr FLC_LDG_STS.REPAIRED 0).wr FLC_LDG_STS.STALE 0

/-- What a READ reports, and the stream it restores (R337, R339, R343). -/
def readReport (b : BootBlk) (area w : Nat) (repaired : Bool) (s : State) : State :=
  let a := copyAt b area w
  let len := copyWord s a 12
  let stale := copyWord s a 0x10 != s.rd FLC_IMG_SECVER.SEC_VERSION || copyWord s a 0x14 != s.rd FLC_IMG_ID.IMAGE_ID
  let t := ((((s.wr FLC_LDG_GEN.GEN (copyGen s a)).wr FLC_LDG_STS.COPY w).wr FLC_LDG_STS.REPAIRED (if repaired then 1 else 0)).wr
    FLC_LDG_STS.STALE (if stale then 1 else 0)).wr FLC_LDG_STS.FMT (copyWord s a 8 % 256)
  (t.wr FLC_LDG_LEN.LEN len).store none (supBase + s.rd FLC_LDG_MEM.OFFSET) (((copyStream s a area).getD []).take len)

/-- The GEN and the copy that an operation works on: those of a WRITE, the winner of a READ. -/
def ldgCopy (op : Nat) (s : State) : Nat × Nat :=
  match s.flc.boot, ldgArea s op with
  | some b, some area => if op = 1 then (writeGen s b area, loser s b area) else (0, (winner s b area).getD 0)
  | _, _ => (0, 0)

/-- An operation has ended OK on a copy, with its flash work if it had any (R337, R339, R343). -/
def ldgReport (op gen copy : Nat) (worked : Bool) (s : State) : State :=
  match s.flc.boot, ldgArea s op with
  | some b, some area =>
    if op = 1 then writeReport gen copy s else if op = 2 then readReport b area copy worked s else s
  | _, _ => s

/-- The flash work of the ledger operation under way begins where its checks pass (R342, R346). -/
def ldgBegin (s : State) : State :=
  match s.flc.ldg with
  | none => s
  | some op =>
    if (ldgEarly s op).isSome || ldgWaits s op || (ldgCheck s op).isSome || (ldgSteps s).isEmpty then s
    else
      let w : UnitWork := { unit := 1, left := ldgSteps s, ok := true, gen := (ldgCopy op s).1, copy := (ldgCopy op s).2 }
      unitBegin w (if op = 1 then s.freed else s)

/-- A write of FLC_LDG_CTRL with an operation; it is ignored while one runs (R343). -/
def ldgStart (op : Nat) (v : Word) (s : State) : State :=
  if s.on FLC_LDG_CTRL.BUSY then s
  else ldgBegin ((((s.regWrite 0x80900 v).wr FLC_LDG_CTRL.BUSY 1)).setFlc { s.flc with ldg := some op })

/-- WRITE. -/
def execWrite (f : Fn) (v : Word) (s : State) : Host.Outcome State Fault Refusal := .next (s.p0Only f 0x80900 (ldgStart 1 v s))
/-- READ. -/
def execRead (f : Fn) (v : Word) (s : State) : Host.Outcome State Fault Refusal := .next (s.p0Only f 0x80900 (ldgStart 2 v s))
/-- RESET_GEN. -/
def execResetGen (f : Fn) (v : Word) (s : State) : Host.Outcome State Fault Refusal := .next (s.p0Only f 0x80900 (ldgStart 3 v s))

/-- A ledger operation whose flash work is under way: it ends when the work has, LOCKED where the tamper latch keeps a chunk from being
sealed, and otherwise goes on (R342). -/
def ldgWorked (op : Nat) (w : UnitWork) (s : State) : State :=
  match w.left with
  | [] => if w.ok then ldgEnds 0 (ldgReport op w.gen w.copy true (unitClear 1 s)) else ldgEnds 3 (unitClear 1 s)
  | x :: _ => if stepHeld s 1 x && s.sec.tamper then ldgEnds 5 (unitClear 1 s) else flashNext (unitNext 1 s)

/-- A ledger operation without flash work under way: its checks, its end where it has none to do, or the work's begin (R342). -/
def ldgUnworked (op : Nat) (s : State) : State :=
  match ldgEarly s op with
  | some c => ldgEnds c s
  | none =>
    if ldgWaits s op then s
    else match ldgCheck s op with
      | some c => ldgEnds c s
      | none => if (ldgSteps s).isEmpty then ldgEnds 0 (ldgReport op (ldgCopy op s).1 (ldgCopy op s).2 false s) else ldgBegin s

/-- LDG_DONE: the operation under way ends with its status, or goes on (R342). -/
def ldgDone (s : State) : State :=
  match s.flc.ldg with
  | none => s
  | some op => match unitWork s 1 with
    | some w => ldgWorked op w s
    | none => ldgUnworked op s

/-- LDG_DONE. -/
def execLdgDone (s : State) : Host.Outcome State Fault Refusal := .next (ldgDone s)

/-! ## Interruptions -/

/-- What a CHIP reset finds of a fuse operation: its fuses have blown or not, a free value (log entry 1). -/
def fuseCut (s : State) : State :=
  match s.flc.fuse with
  | some op => if fuseAllowed s op && s.freeVal 2 == 1 then fuseBlow op s.freed else s.freed
  | none => s

end Sys2Proof.Machine
end

