-- ==== Sys2Proof/Machine/Resets.lean ====
section
/-! DEFINITION. The reset domains (R30-R34, R209, R381, R427-R429, R438). -/

namespace Sys2Proof.Machine

/-! ## RADIO (R30, R32, R381, R438) -/

/-- Node and engine commands that the port's function may use; any other of their opcodes completes BAD_OPCODE (R278, R438). -/
def nodeOrEngine (s : State) (c : Ctx) : Bool := radioOp (SQ.OPCODE.of c.sq) && SQ.OPCODE.of c.sq != 1 && (opKnown s c).isSome

/-- A command whose radio work a RADIO reset removes completes RADIO_RESET (R438). -/
def radioGone (s : State) (p : Nat × Ctx) : State :=
  match s.ctx p.1 with
  | none => s
  | some c =>
    if c.dupOf.isSome ∨ c.stage = 2 then s
    else match c.header with
      | some hc => s.complete p.1 0x1B 0 (s.ih hc IH.ATTEMPTS) (lastAirOf s hc) 0
      | none => if nodeOrEngine s c then s.complete p.1 0x1B 0 0 0 0 else s

/-- A CANCEL whose target completed RADIO_RESET (R438). -/
def cancelGone (s : State) (c : Cancel) : State :=
  match c.ctx with
  | some x => s.complete x 7 0x1B 0 0 0
  | none => s

/-- The commands in flight that a RADIO reset ends, in fetch order, and the cancels after their targets (R276, R438). Commands fetched
from now on wait for the end of the reset. -/
def radioCommands (s : State) : State :=
  let t := s.lnk.cancels.foldl cancelGone ((fetchOrder s.hst.ctxs).foldl radioGone s)
  { t with hst := { t.hst with resetAt := t.hst.order } }

/-- Chains with a frame on the air ramp down: when their front-end enables deassert (R32, R129). The enable of a carrier that has not ramped
up deasserts at once. -/
def airOff (s : State) : List TxEn :=
  s.txc.txens.map (fun z =>
    let x := s.ent z.ent
    if x.air ≠ z.air then z
    else if x.st = 7 then { z with off := min z.off (s.now + min x.tDown 56) }
    else if x.st = 6 then { z with off := min z.off s.now } else z)

/-- Registers of the RADIO domain (R27, R266). -/
def inRadio (a : Nat) : Bool :=
  (decide (0x100000 ≤ a) && decide (a < 0x600100)) || (decide (0x60020C ≤ a) && decide (a < 0x700000) && a != 0x600500) ||
    (decide (0x1000000 ≤ a) && decide (a < 0x1400000)) || (decide (0x2000000 ≤ a) && decide (a < 0x3000000))

/-- Leave of the RADIO domain's operations: carriers, chains, clusters, capture, sweep. -/
def radioHolder : Holder → Bool
  | .bias _ => false
  | .flash => false
  | _ => true

/-- The supervisors' cores as they stand, the engines' at reset (R215, R237). -/
def engineReset (s : State) : Eng :=
  { cores := (List.range 64).foldl (fun m e => sset (fun _ => {}) m e { cycBase := s.clk.eng }) (s.eng.cores.filter (fun p => isSup p.1)) }

/-- The RADIO domain at its reset values (R30): the key store, key operations, marks and alarms stay. -/
def radioClear (s : State) : State :=
  let t := s.zeroMem 0x2000000 0x3000000
  { t with
    regs := t.regs.filter (fun p => !inRadio p.1)
    shadow := t.shadow.filter (fun p => !inRadio p.1)
    heldLo := t.heldLo.filter (fun p => !inRadio p.1)
    cnp := {}
    lanes := []
    lnk := {}
    txc := { txens := airOff s }
    que := {}
    eng := engineReset s
    sec := { t.sec with rxJobs := [], txJobs := [], sealing := none, sealKey := none, unwrapKey := none }
    pwr := { t.pwr with
      held := t.pwr.held.filter (fun l => !radioHolder l.who), waiters := t.pwr.waiters.filter (fun l => !radioHolder l.who) }
    curves := []
    radioHeld := true }

/-- Key slots that a partition reset of scope DEPART owes are erased before the domain leaves reset (R211). -/
def absorbKeys (s : State) (r : PReset) : State :=
  if r.scope = 2 then eraseKeys r.part s else s

/-- A RADIO reset: merged with one that runs; the reload of the active base follows (R31, R315, R318). -/
def radioReset (s : State) : State :=
  if s.radioHeld then s
  else
    let s1 := squashAll 7 (fun _ _ => true) (imgAbort (radioCommands s))
    let s2 := s1.prt.resets.foldl absorbKeys (radioClear s1)
    let s3 := (s2.setFlc { s2.flc with liveRadio := false, live := s2.flc.live.filter (fun p => chipScope p.1.typ) }).wr TOP_RESET_STS.RADIO_BUSY 1
    imgBegin 2 (s3.rd FLC_IMG_ACTIVE.ADDR) s3.flc.baseSrc true (watchSettled s3)

/-- The key that a write of TOP_RESET must carry (R296). -/
def resetKey : Nat := 0xC1A5

/-- RADIO_RESET. -/
def execRadioReset (f : Fn) (key : Nat) (s : State) : Host.Outcome State Fault Refusal :=
  .next (s.p0Only f TOP_RESET.reg (if key = resetKey then radioReset s else s))

/-- A loss of lock with REFIN present (R381). -/
def synUnlock (s : State) : State :=
  if s.on CLK_STS.SYN_LOCK ∧ !s.on CLK_STS.FREE_RUN then
    let t := stopTb (radioReset ((s.raise 10 1).inc CLK_SYN_CNT.COUNT))
    let u := ((t.wr CLK_STS.SYN_LOCK 0).wr CLK_STS.ALN_LOCK 0).wr CLK_STS.SYNC_MISSING 0
    u.setClk { u.clk with acq := true, pulses := 0, expect := none, syncout := 0 }
  else s

/-- SYN_UNLOCK. -/
def execSynUnlock (s : State) : Host.Outcome State Fault Refusal := .next (synUnlock s)

/-! ## CHIP and AON (R30, R31, R34) -/

/-- Registers of the AON domain (R27, R296, R357, R377, R400, R401). -/
def aonReg (a : Nat) : Bool :=
  (decide (0x200 ≤ a) && decide (a < 0x214)) || a == 0x220 || a == 0x10038 || [0x100A0, 0x100A4, 0x100A8, 0x100AC].contains a ||
    (decide (0x20004 ≤ a) && decide (a < 0x20080)) || (decide (0x200C0 ≤ a) && decide (a < 0x40000)) || a == 0x80090 || a == 0x600500

/-- A CHIP reset with its cause: everything but the AON domain, the flash and the fuses; a boot is due (R30, R367). -/
def chipReset (cause : Nat) (s0 : State) : State :=
  let s := fuseCut s0
  let t : State := { State.reset with
    pending := s.pending
    free := s.free
    now := s.now
    posted := s.posted
    regs := s.regs.filter (fun p => aonReg p.1)
    shadow := s.shadow.filter (fun p => aonReg p.1)
    heldLo := s.heldLo.filter (fun p => aonReg p.1)
    mem := s.mem.filter (fun p => decide (bkupBase ≤ p.1))
    flash := s.flash
    nvm := s.nvm
    fuses := s.fuses
    txc := { txens := airOff s }
    sec := { tamper := s.sec.tamper, haltBy := s.sec.haltBy }
    pwr := { wakePin := s.pwr.wakePin, resumeAddr := s.pwr.resumeAddr, shieldOff := s.pwr.shieldOff }
    clk := { xkPhase := s.clk.xkPhase, xk := s.clk.xk, xkOk := s.clk.xkOk, eng := s.clk.eng }
    rtc := s.rtc
    flc := { op := s.flc.op, resume := s.flc.resume, low := s.flc.low }
    start := { opened := s.start.opened, reasoned := s.start.reasoned, held := s.start.held } }
  let u := flashReset (fuseViews t)
  ((((u.wr PWR_STS.STATE 0).wr PWR_STS.BUSY 0).wr PWR_WAKE_STS.RESUME 0).wr TOP_START_STS.SEEDLING 0).wr TOP_RESET_STS.LAST_CAUSE cause

/-- POWER_ON: the supplies rise and PWR_GOOD is raised; a broken order holds the reset (R30, R427, R429). -/
def execPowerOn (ordered : Bool) (s : State) : Host.Outcome State Fault Refusal :=
  let t := chipReset 1 s
  .next { t with
    start := { t.start with held := !ordered }
    clk := { t.clk with xkOk := !t.on RTC_STS.XK_FAIL } }

/-- RESET_N_LOW for a time in ns: at least 1 µs resets, up to 100 ns is ignored, and between them the choice is a free value
(R30, R434; log entry 1). In HOLDOVER the device does not see it. -/
def execResetNLow (ns : Nat) (s : State) : Host.Outcome State Fault Refusal :=
  .next (if s.pwr.mode = 2 ∨ ns ≤ 100 then s
    else if 1000 ≤ ns then chipReset 2 s
    else if s.freeVal 2 = 0 then s.freed else chipReset 2 s.freed)

/-- BROWN_OUT of VDD_CORE while PWR_EN is active; a low PWR_GOOD disarms VGLITCH until the reset ends. deep: VDD_CORE falls below 0.65 V for
more than 5 ns, so that with PWR_GOOD high VGLITCH acts too (R428). -/
def execBrownOut (good deep : Bool) (s : State) : Host.Outcome State Fault Refusal :=
  .next (if s.pwr.mode = 0 then
    let t := chipReset 3 (if good && deep && !s.start.glitchOff then alarm 1 s else s)
    { t with start := { t.start with glitchOff := !good } }
  else s)

/-- AON_RESET: VDD_ANA and VBAK are lost; the device is without power until POWER_ON (R30, R393). -/
def execAonReset (s0 : State) : Host.Outcome State Fault Refusal :=
  let s := fuseCut s0
  let t : State := { State.reset with
    pending := s.pending
    free := s.free
    now := s.now
    posted := s.posted
    flash := s.flash
    nvm := s.nvm
    fuses := s.fuses
    flc := { op := s.flc.op, resume := s.flc.resume, low := s.flc.low }
    pwr := { mode := 2, pwrEn := false, wakePin := s.pwr.wakePin }
    clk := { xkOk := false }
    start := { held := true } }
  .next (flashReset (fuseViews t))

/-- FULL_RESET: TOP_RESET with FULL and the key (R30, R296). -/
def execFullReset (f : Fn) (key : Nat) (s : State) : Host.Outcome State Fault Refusal :=
  .next (s.p0Only f TOP_RESET.reg (if key = resetKey then chipReset 4 s else s))

/-! ## HOST and virtual functions (R30, R33, R209, R294) -/

/-- Registers of a virtual function that a reset of it clears: negotiation and the MSI-X table (R292, R294). -/
def vfCleared (off : Nat) : Bool := (decide (0x20 ≤ off) && decide (off < 0x50)) || decide (0xA0000 ≤ off)

/-- A HOST reset: every partition takes a PORTS reset, and every function its defaults (R30, R209, R294). -/
def hostReset (s : State) : State :=
  let t := (List.range 64).foldl (fun u p => portsReset p false u) s
  let u := { t with
    regs := t.regs.filter (fun p => !(decide (0x800000 ≤ p.1) && decide (p.1 < 0x1000000)))
    vregs := t.vregs.filter (fun p => !vfCleared (p.1 % 0x100000))
    hst := {} }
  (List.range 4).foldl (fun v w => v.wr (TOP_FEAT_ACT.ACT w) 0) u

/-- HOST_RESET. -/
def execHostReset (s : State) : Host.Outcome State Fault Refusal := .next (hostReset s)

/-- A function-level reset of virtual function n (R209, R294). -/
def vfFlr (n : Nat) (s : State) : State :=
  if (s.func n).on then
    let t := portsReset n false s
    { t with
      vregs := t.vregs.filter (fun p => !(p.1 / 0x100000 == n && vfCleared (p.1 % 0x100000)))
      hst := { t.hst with funcs := sset (fun _ => {}) t.hst.funcs n { t.func n with bme := false } } }
  else s

/-- VF_FLR. -/
def execVfFlr (n : Nat) (s : State) : Host.Outcome State Fault Refusal := ranged (0 < n ∧ n < 64) (vfFlr n s)

end Sys2Proof.Machine
end

