-- ==== Sys2Proof/Machine/Start.lean ====
section
/-! DEFINITION. The start of the device: the boot, its records and watchdog, seedling mode, DRIVER_OK (R325-R332). -/

namespace Sys2Proof.Machine

/-- The start's record replaced. -/
def State.setStart (s : State) (x : Start) : State := { s with start := x }

/-! ## Records (R327) -/

/-- The previous record is closed: left open without a reason, it takes one from LAST_CAUSE, whose codes are those
of the reasons (R327). -/
def closeRecord (s : State) : State :=
  let t := if s.start.opened && !s.start.reasoned then s.wr (TOP_START_REASON.REASON 0) (s.rd TOP_RESET_STS.LAST_CAUSE) else s
  t.setStart { t.start with opened := false, reasoned := false }

/-- A record opens: the older ones move up (R327). -/
def openRecord (s : State) : State :=
  let t := [3, 2, 1].foldl (fun u k => u.setReg (TOP_START_REASON.reg k) (u.reg (TOP_START_REASON.reg (k - 1)))) s
  let u := (((t.setReg (TOP_START_REASON.reg 0) 0).wr (TOP_START_REASON.VALID 0) 1).wr (TOP_START_REASON.SLOT 0) 3)
  u.setStart { u.start with opened := true, reasoned := false }

/-! ## Seedling mode (R330, R331) -/

/-- The mailbox summary (R331). -/
def seedlingSummary (cause : Nat) (s : State) : State :=
  let gen := match chooseBoot s with | some b => b.gen | none => 0
  let t := (s.wr (TOP_MBOX.WORD 0) (cause + 0x5EED0000)).wr (TOP_MBOX.WORD 5) s.fuses.floor
  let u := (List.range 4).foldl (fun v k => v.wr (TOP_MBOX.WORD (1 + k)) (v.reg (TOP_START_REASON.reg k)).toNat) t
  u.wr (TOP_MBOX.WORD 6) gen

/-- SV0 runs at an address (R328, R368). -/
def supZero (pc : Nat) (s : State) : State := supRun 0 false (s.setPc 64 pc)

/-- No virtual function is enabled (R330). -/
def noVfs (s : State) : State := { s with hst := { s.hst with funcs := s.hst.funcs.filter (fun p => p.1 == 0) } }

/-- The synthesiser is not started (R330). -/
def synStopped (s : State) : State :=
  let t := stopTb (((s.wr CLK_SYN_CTRL.EN 0).wr CLK_STS.SYN_LOCK 0).wr CLK_STS.ALN_LOCK 0)
  t.setClk { t.clk with acq := false }

/-- The device enters seedling mode: SV0 runs the monitor at an address of the boot ROM that the spec does not give, a free value
(R330, R331; log entry 1). -/
def seedling (cause : Nat) (s : State) : State :=
  let t := seedlingSummary cause ((s.wr TOP_START_STS.SEEDLING 1).wr FLC_GRAFT_STS.STATE 0)
  let u := synStopped (noVfs (t.setStart { t.start with wdt := none, try_ := none }))
  supZero (4 * u.freeVal 0x8000) u.freed

/-! ## Boot (R328, R329) -/

/-- Long slot 0 takes the device wrap key unless the tamper latch is set (R244). -/
def deriveWrap (s : State) : State := if s.sec.tamper then s else s.setLslot 0 ⟨1, Config.deviceWrapKey⟩

/-- The graft state that the loaded slot gives (R329, R334). -/
def bootGraft (b : BootBlk) (slot : Nat) : Nat := if b.trial then (if slot = b.active then 4 else 3) else 0

/-- The boot block that a fall-back writes (R329). -/
def fallBack (b : BootBlk) : BootBlk := { b with trial := false, last := 2 }

/-- The boot-block writes due once a base is active: the fall-back's change, else the rewrite of a block that differs from the
winner (R323, R329). -/
def bootWrites (slot : Nat) (b : BootBlk) (s : State) : List NvStep :=
  if bootGraft b slot = 4 ∧ !bootFull b then changeSteps (fallBack b)
  else if flashBytes s 0 4096 ≠ flashBytes s 4096 4096 ∨ !bootValid s (1 - b.idx) then
    blockSteps b.idx (flashBytes s (4096 * b.idx) 4096)
  else []

/-- The boot-block writes begin, with leave from the power budget just loaded (R328 step 6). -/
def bootWork (slot : Nat) (b : BootBlk) (s : State) : State :=
  let fell := bootGraft b slot == 4 && !bootFull b
  unitBegin { unit := 3, left := bootWrites slot b s, ok := true, gen := if fell then 1 else 0 } s

/-- The fall-back's change is in force. -/
def bootFell (w : UnitWork) (s : State) : State :=
  match s.flc.boot with
  | some b => if w.gen = 1 ∧ w.ok then setBoot (fallBack b) s else s
  | none => s

/-- Once the boot-block writes are over, whether they ended OK or not, SV0 jumps to supervisor memory and STAGE becomes 3 (R328 step 7). -/
def bootGo (s : State) : State :=
  match unitWork s 3 with
  | some w => if w.left.isEmpty then (supZero 0x100000 (bootFell w (unitClear 3 s))).setStage 3 else s
  | none => s

/-- The base is active: the graft state, then the boot-block writes and the jump (R328, R329). -/
def bootDone (slot : Nat) (s : State) : State :=
  let t := s.setStart { s.start with try_ := none }
  match t.flc.boot with
  | some b => bootGo (bootWork slot b (t.wr FLC_GRAFT_STS.STATE (bootGraft b slot)))
  | none => (supZero 0x100000 t).setStage 3

/-- The resume record in backup RAM takes the active slot's address (R368). -/
def keepResume (s : State) : State :=
  { s with pwr := { s.pwr with resumeAddr := some (s.rd FLC_IMG_ACTIVE.ADDR, s.flc.baseSrc) } }

/-- A slot is loaded as a base image (R313, R329). -/
def beginSlot (b : BootBlk) (slot : Nat) (locks : Bool) (s : State) : State :=
  let t := (s.setStage 2).wr (TOP_START_REASON.SLOT 0) slot
  let a := (bootSlot b slot).1
  imgBegin 0 a 0 locks (((t.wr FLC_IMG_ADDR.ADDR a).wr FLC_IMG_CTRL.MODE 0).wr FLC_IMG_CTRL.SRC 0)

/-- No slot loads: the reason with the loader's last code, then seedling mode (R327, R328). -/
def noImage (s : State) : State :=
  let t := ((s.setReason 7).wr (TOP_START_REASON.DETAIL 0) (s.rd FLC_IMG_STS.CODE)).wr (TOP_START_REASON.FAIL_SEC 0) (s.rd FLC_IMG_STS.FAIL_SEC)
  seedling 3 t

/-- The load of the second slot. -/
def secondSlot (b : BootBlk) (slot : Nat) (locks : Bool) (s : State) : State :=
  let t := beginSlot b slot locks s
  if t.flc.load.isNone then noImage t else t.setStart { t.start with try_ := some ⟨slot, none, locks⟩ }

/-- The load of the first slot. -/
def firstSlot (b : BootBlk) (slot : Nat) (locks1 locks2 : Bool) (s : State) : State :=
  let t := beginSlot b slot locks1 s
  if t.flc.load.isNone then secondSlot b (1 - slot) locks2 t
  else t.setStart { t.start with try_ := some ⟨slot, some (1 - slot), locks2⟩ }

/-- The slot tried first: count is COUNT before its increment (R329). -/
def bootFirst (b : BootBlk) (count : Nat) : Nat := if b.trial ∧ count = 0 then 1 - b.active else b.active

/-- The start watchdog is armed with START_TMO seconds of XK periods (R326). -/
def armWatchdog (b : BootBlk) (s : State) : State := s.setStart { s.start with wdt := some (s.clk.xk + 32768 * b.tmo) }

/-- The boot from the start counter on (R328 steps 2 to 5). -/
def bootFrom (locks1 locks2 : Bool) (s0 : State) : State :=
  let s := closeRecord s0
  let count := s.rd TOP_START_STS.COUNT
  let views (t : State) : State := match chooseBoot t with | some b => setBoot b t | none => t
  if s.rd TOP_START_STS.LIMIT ≤ count then seedling 1 (views s)
  else
    let t := views (openRecord (s.inc TOP_START_STS.COUNT))
    match t.flc.boot with
    | none => seedling 2 t
    | some b => firstSlot b (bootFirst b count) locks1 locks2 (armWatchdog b (t.setStage 1))

/-- BOOT: the start that a CHIP reset, or a return from DORMANT whose load failed, owes. locks1 and locks2 tell whether the
synthesiser and the aligner lock in time under the first and the second slot's CLOCK section (R313, R328, R368). -/
def boot (locks1 locks2 : Bool) (s : State) : State :=
  if (s.start.due ≠ 1 ∧ s.start.due ≠ 3) ∨ s.start.held ∨ s.pwr.mode ≠ 0 then s
  else
    let t := if s.start.due = 1 then deriveWrap s else s
    bootFrom locks1 locks2 (t.setStart { t.start with due := 0, okNow := false, glitchOff := false })

/-- BOOT. -/
def execBoot (locks1 locks2 : Bool) (s : State) : Host.Outcome State Fault Refusal := .next (boot locks1 locks2 s)

/-- The boot goes on when the load of a slot has ended (R328). -/
def bootNext (s : State) : State :=
  match s.start.try_ with
  | none => s
  | some x =>
    if s.flc.load.isSome then s
    else if s.rd FLC_IMG_STS.STATE = 3 then keepResume (bootDone x.slot s)
    else match x.next, s.flc.boot with
      | some k, some b => secondSlot b k x.locks (s.setStart { s.start with try_ := none })
      | _, _ => noImage s

/-- The resume load of a return from DORMANT has ended: SV0 jumps and STATE_DONE is raised, or the retained banks are cleared and
a boot is due (R368). -/
def resumeNext (s : State) : State :=
  if s.start.due ≠ 2 ∨ s.flc.load.isSome then s
  else if s.rd FLC_IMG_STS.STATE = 3 then
    let t := supZero 0x100000 (s.setStart { s.start with due := 0 })
    (t.wr PWR_STS.STATE 0).raise 11 0
  else
    let t := s.zeroMem 0x2000000 0x3000000 |>.zeroMem supBase (supBase + 0x200000)
    let u : State := { t with que := {}, sec := { tamper := t.sec.tamper, haltBy := t.sec.haltBy } }
    (deriveWrap u).setStart { u.start with due := 3 }

/-- LOAD_DONE: the load completes, and the boot or the return from DORMANT that waits for it goes on (R313, R328, R368). -/
def execLoadDone (s : State) : Host.Outcome State Fault Refusal :=
  .next (if s.flc.load.isSome then (let t := loadDone s; if t.start.due = 2 then resumeNext t else bootNext t) else s)

/-! ## Flash operations that end while the boot waits for its writes (R328, R346) -/

/-- OP_DONE: the program or erase that runs ends; `fail` names the words or sectors that do not verify, `spares` the spares that fail their own
erase (R347, R352, R355). -/
def execOpDone (fail spares : List Nat) (s : State) : Host.Outcome State Fault Refusal := .next (bootGo (opDone fail spares s))

/-- SUPPLY_RECOVERY: the supplies that FLASH_BROWN_OUT found low are back (R354). -/
def execSupplyRecovery (s : State) : Host.Outcome State Fault Refusal := .next (bootGo (supplyBack s))

/-! ## Watchdog and DRIVER_OK (R325, R326) -/

/-- START_WATCHDOG_EXPIRY: XK periods count to the watchdog's end; reason WATCHDOG, then a CHIP reset (R326). -/
def execStartWatchdogExpiry (s : State) : Host.Outcome State Fault Refusal :=
  .next (match s.start.wdt with
    | some d => if s.clk.xkOk ∧ s.pwr.mode ≠ 2 then chipReset 4 ((elapseXk (d - s.clk.xk) s).setReason 5) else s
    | none => s)

/-- DRIVER_OK is written: COUNT clears, the attempt closes with reason OK, the watchdog stops (R325). -/
def driverOk (s : State) : State :=
  let t := (s.wr TOP_START_CTRL.DRIVER_OK 1).wr TOP_START_STS.COUNT 0
  let u := if t.start.opened then t.wr (TOP_START_REASON.REASON 0) 0 else t
  u.setStart { u.start with wdt := none, opened := false, reasoned := false, okNow := true }

/-- DRIVER_OK. -/
def execDriverOk (f : Fn) (s : State) : Host.Outcome State Fault Refusal := .next (s.p0Only f 0x220 (driverOk s))

end Sys2Proof.Machine
end

