-- ==== Sys2Proof/Machine/Power.lean ====
section
/-! DEFINITION. Power states, retention and wakes, the arbiter's grants, the die-temperature trip, the backup cell (R358-R377). -/

namespace Sys2Proof.Machine

/-! ## Requests (R359-R362) -/

/-- The power record replaced. -/
def State.setPwr (s : State) (x : Pwr) : State := { s with pwr := x }

/-- The retention load in tenths of a mA: the AON domain and the banks kept (R364). -/
def retentionLoad (banks : Nat) (compat : Bool) : Nat :=
  let m (k : Nat) : Bool := compat || bitOn banks k
  4 + (if m 0 then 32 else 0) + (if m 1 then 14 else 0) + (if m 2 then 16 else 0) + (if m 3 then 75 else 0) + (if m 4 then 360 else 0)
    + (if compat then 20 else 0)

/-- A bank is kept in DORMANT: its bit is set, or COMPAT keeps every bank (R364). -/
def bankKept (s : State) (k : Nat) : Bool := s.on PWR_RET_CFG.COMPAT || bitOn (s.rd PWR_RET_CFG.BANKS) k

/-- The full quiescence of DORMANT is reached (R362). -/
def quiescent (s : State) : Bool :=
  (List.range 512).all (fun l => s.rd (LNE_LANE_STS.STATE l) == 0) && s.txc.carriers.isEmpty && s.txc.ents.all (fun p => p.2.st == 0) &&
    s.sec.rxJobs.isEmpty && s.sec.txJobs.isEmpty && s.sec.kops.isEmpty && s.sec.sealing.isNone &&
    !s.flc.op.any (fun o => o.stage == 1) && s.flc.ldg.isNone && s.flc.graft.isNone && s.pwr.held.isEmpty

/-- What the present request waits for is reached (R361, R362). -/
def reqSettled (s : State) : Bool := if s.pwr.req = some 3 then quiescent s else s.txc.carriers.isEmpty

/-- The status that the checks before a change of state give, in their order (R359). -/
def pwrCheck (s : State) (k : Nat) : Nat :=
  if s.rd PWR_STS.STATE = 3 then 1
  else if 2 ≤ k ∧ (List.range 8).any (fun c => s.rd (ENG_C_STS.PSTATE c) != 0) then 2
  else if k ≠ 3 then 0
  else if (List.range 1024).any (fun q => s.on (HST_PORT_STS.EN q)) then 3
  else if bitOn (s.rd PWR_RET_CFG.BANKS) 4 ∧ !bitOn (s.rd PWR_RET_CFG.BANKS) 0 then 4
  else if s.on PWR_RET_CFG.COMPAT ∧ s.on PWR_REG_CFG.MODE then 5
  else if s.on PWR_REG_CFG.MODE ∧ 80 < retentionLoad (s.rd PWR_RET_CFG.BANKS) (s.on PWR_RET_CFG.COMPAT) then 6
  else 0

/-- A request waits for its quiescence; DORMANT reads as being entered (R361-R363). -/
def pwrWait (k : Nat) (s : State) : State :=
  let t := (s.wr PWR_STS.BUSY 1).setPwr { s.pwr with req := some k, reqAt := s.now, left := s.rd PWR_STS.STATE }
  if k = 3 then t.wr PWR_STS.STATE 3 else watchSettled t

/-- A write of PWR_CMD with a target: 0 RUN, 1 TRIM, 2 WATCH, 3 DORMANT (R359, R366). -/
def pwrCmd (k : Nat) (s : State) : State :=
  if s.on PWR_STS.BUSY then s
  else
    let c := pwrCheck s k
    if s.rd PWR_STS.STATE = k ∧ k ≠ 3 then pwrEnd 0 s
    else if c ≠ 0 then pwrEnd c s
    else if k = 0 ∧ s.rd PWR_STS.STATE = 2 then wakeFire 5 (s.wr PWR_CMD_RES.STATUS 0)
    else if k < 2 then pwrEnd 0 (enterState k s)
    else pwrWait k s

/-- RUN. -/
def execRun (f : Fn) (s : State) : Host.Outcome State Fault Refusal := .next (s.p0Only f PWR_CMD.reg (pwrCmd 0 s))
/-- TRIM. -/
def execTrim (f : Fn) (s : State) : Host.Outcome State Fault Refusal := .next (s.p0Only f PWR_CMD.reg (pwrCmd 1 s))
/-- WATCH. -/
def execWatch (f : Fn) (s : State) : Host.Outcome State Fault Refusal := .next (s.p0Only f PWR_CMD.reg (pwrCmd 2 s))
/-- DORMANT. -/
def execDormant (f : Fn) (s : State) : Host.Outcome State Fault Refusal := .next (s.p0Only f PWR_CMD.reg (pwrCmd 3 s))

/-- QUIESCENCE_TIMEOUT: a quiescence not reached within PWR_QUIESCE_TMO ends the request TIMEOUT (R362). -/
def execQuiescenceTimeout (s : State) : Host.Outcome State Fault Refusal :=
  .next (if s.pwr.req.isSome ∧ !reqSettled s then
    pwrGiveUp 7 (s.elapse (s.pwr.reqAt + 32000 * s.rd PWR_QUIESCE_TMO.MS - s.now))
  else s)

/-! ## DORMANT (R363-R369) -/

/-- The supervisors that run. -/
def runningSups (s : State) : List Nat := (List.range 4).filter (fun n => s.on (stateF (64 + n)))

/-- Every gate is OFF (R415). -/
def gatesOff (s : State) : State :=
  (List.range 8).foldl (fun t n =>
    let u := if 1 ≤ t.rd (BIAS_G_STS.STATE n) ∧ t.rd (BIAS_G_STS.STATE n) ≤ 3 then gateOff n t else t
    u.wr (BIAS_G_STS.STATE n) 0) s

/-- Steps 3 and 4 of the entry: keys that are not retained are zeroised, in COMPAT the supervisors stop, the bias gates are OFF, the core is isolated and
PWR_EN deasserts (R363, R415). -/
def enterDormant (s : State) : State :=
  let t := if bankKept s 1 then s else { s with sec := { s.sec with slots := [], longs := [] } }
  let sv := runningSups s
  let u := sv.foldl (fun x n => (x.wr (stateF (64 + n)) 0).wr (causeF (64 + n)) 1) (stopTb (gatesOff t))
  ((u.wr PWR_CMD_RES.STATUS 0).wr PWR_STS.BUSY 0).setPwr { u.pwr with
    mode := 1, req := none, svRun := sv, pwrEn := false, wakeFired := false, retLost := false }

/-- LINK_L2_READY: the link is in L2/L3 Ready or down; once the quiescence holds, the cells are checked and DORMANT is entered
(R359, R363). -/
def linkL2Ready (s : State) : State :=
  if s.pwr.req = some 3 ∧ quiescent s then
    if !bankKept s 4 ∧ s.rd QUE_STS.FREE < 786432 then pwrGiveUp 8 s else enterDormant s
  else s

/-- LINK_L2_READY. -/
def execLinkL2Ready (s : State) : Host.Outcome State Fault Refusal := .next (linkL2Ready s)

/-- The retained banks of a state in native DORMANT: the rest of the core is at its reset values (R364, R368). -/
def keepBanks (s t : State) : State :=
  let inMem (a : Nat) : Bool :=
    decide (bkupBase ≤ a) || (bankKept s 2 && decide (supBase ≤ a) && decide (a < supBase + 0x200000)) ||
      (bankKept s 3 && decide (0x2000000 ≤ a) && decide (a < 0x3000000))
  let q : Que := { (if bankKept s 0 then { nodes := s.que.nodes, index := s.que.index } else {} : Que) with
    cells := if bankKept s 4 then s.que.cells else [] }
  { t with
    mem := s.mem.filter (fun p => inMem p.1)
    badPar := s.badPar.filter inMem
    que := q
    sec := if bankKept s 1 then { t.sec with slots := s.sec.slots, longs := s.sec.longs } else t.sec }

/-- The frame store's accounts show what its retained cells hold (R192, R364). -/
def keepCounts (s t : State) : State :=
  if bankKept s 4 then
    let u := (List.range 64).foldl (fun x q => x.wr (QUE_PUSE.USE q) (s.rd (QUE_PUSE.USE q))) t
    { ((u.wr QUE_STS.FREE (s.rd QUE_STS.FREE)).wr QUE_FREE_MIN.MIN (s.rd QUE_STS.FREE)) with que := { u.que with unattr := s.que.unattr } }
  else t

/-- The return from native DORMANT up to its load: everything outside the retained banks and the AON domain is at its reset value, and
the boot ROM loads the base of its resume record (R368). -/
def returnNative (locks : Bool) (s : State) : State :=
  let t := chipReset (s.rd TOP_RESET_STS.LAST_CAUSE) s
  let u := keepBanks s { t with
    atb := s.atb
    clk := { t.clk with stopA := s.clk.stopA, stopK := s.clk.stopK, xkLost := s.clk.xkLost }
    start := { t.start with due := 2, okNow := s.start.okNow }
    flc := { t.flc with boot := s.flc.boot } }
  let k := if bankKept s 1 then u else deriveWrap u
  let v := (match k.flc.boot with | some b => setBoot b k | none => k).wr PWR_WAKE_STS.RESUME 1
  let w := keepCounts s (v.wr QUE_IDX_STS.KEYS v.que.index.length)
  match w.pwr.resumeAddr with
  | some (a, src) => resumeNext (imgBegin 3 a src locks w)
  | none => resumeNext w

/-- The return from compatibility DORMANT: register and core state is restored, the HOST domain starts from reset, the synthesiser
relocks and the supervisors that ran resume (R369). -/
def returnCompat (s : State) : State :=
  let t := hostReset s
  let u := t.pwr.svRun.foldl (fun x n => x.wr (stateF (64 + n)) 1) t
  let v := ((u.setPwr { u.pwr with mode := 0, wakeFired := false, svRun := [] }).setClk
    { u.clk with acq := u.on CLK_SYN_CTRL.EN }).wr PWR_WAKE_STS.RESUME 1
  (enterState 0 v).raise 11 0

/-- WAKE_RETURN: PWR_GOOD rises after a wake; locks tells whether the clocks lock in time under the resume load. After a loss of the
retention rail the device boots as after a power-on (R365, R368, R369). -/
def wakeReturn (locks : Bool) (s : State) : State :=
  if s.pwr.mode = 1 ∧ s.pwr.wakeFired then
    if s.pwr.retLost then chipReset 1 s
    else if s.on PWR_RET_CFG.COMPAT then returnCompat s
    else returnNative locks s
  else s

/-- WAKE_RETURN. -/
def execWakeReturn (locks : Bool) (s : State) : Host.Outcome State Fault Refusal := .next (wakeReturn locks s)

/-- WAKE_TIMEOUT: PWR_GOOD did not rise within WAKE_TMO (R368). -/
def wakeTimeout (s : State) : State :=
  if s.pwr.mode = 1 ∧ s.pwr.wakeFired then
    let t := s.elapse (s.pwr.wakeAt + 32000 * s.rd PWR_WAKE_TMO.MS - s.now)
    (t.wr PWR_WAKE_STS.WAKE_FAIL 1).setPwr { t.pwr with pwrEn := false, wakeFired := false }
  else s

/-- WAKE_TIMEOUT. -/
def execWakeTimeout (s : State) : Host.Outcome State Fault Refusal := .next (wakeTimeout s)

/-- The level of WAKE_IN that is active (R366). -/
def wakeActive (s : State) (lvl : Bool) : Bool := lvl != s.on PWR_WAKE_EN.WAKE_IN_POL

/-- WAKE_IN: the pin has held a level for two XK periods; reaching its active level wakes (R366). -/
def execWakeIn (lvl : Bool) (s : State) : Host.Outcome State Fault Refusal :=
  let t := s.setPwr { s.pwr with wakePin := lvl }
  .next (if s.pwr.wakePin ≠ lvl ∧ wakeActive s lvl ∧ s.on PWR_WAKE_EN.WAKE_IN then wakeFire 1 t else t)

/-- A Reach wake frame's octets 0-7 match PWR_AIR_CODE under PWR_AIR_MASK (R366). -/
def airMatch (s : State) (d : List Byte) : Bool :=
  let w := unoctets (d.take 8)
  Nat.land w (s.rd64 PWR_AIR_MASK_LO.reg) == Nat.land (s.rd64 PWR_AIR_CODE_LO.reg) (s.rd64 PWR_AIR_MASK_LO.reg)

/-- The air wake detector runs: WATCH, with streams, the WATCH antenna, and a GRID that names an enabled 1.0 MHz grid of an enabled
slice (R366). -/
def airDetector (s : State) : Bool :=
  let g := s.rd PWR_AIR_CFG.GRID
  s.rd PWR_STS.STATE == 2 && streamsOn s && antEnabled s (s.rd PWR_WATCH_CFG.ANT) && s.on (CNP_GRID_BASE.EN g) &&
    s.rd (CNP_GRID_GEOM.SPACING g) == 2 && (if s.rd (CNP_GRID_BASE.SLICE g) = 0 then s.on CNP_SLICE_SUB.EN else s.on CNP_SLICE_24.EN)

/-- AIR_WAKE: a Reach frame with PSDU d, a header that passes R90 and a good FCS, on channel index chan at spreading factor code sf of
the detector's grid (R366). -/
def airWake (chan sf : Nat) (d : List Byte) (s : State) : State :=
  if airDetector s && chan == s.rd PWR_AIR_CFG.CHAN && sf == s.rd PWR_AIR_CFG.SF && d.length == 12 && airMatch s d then
    let t := (s.inc PWR_AIR_CNT.COUNT).raise 11 4
    if s.on PWR_WAKE_EN.AIR then wakeFire 4 t else t
  else s

/-- AIR_WAKE. -/
def execAirWake (chan sf : Nat) (d : List Byte) (s : State) : Host.Outcome State Fault Refusal :=
  ranged (decide (chan < 256) && decide (sf < 4)) (airWake chan sf d s)

/-- The retained banks are lost: RET_LOST, the count, the event; every bank is cleared (R365). -/
def retentionLost (s : State) : State :=
  if s.pwr.mode = 1 ∧ !s.pwr.retLost then
    let t := s.zeroMem 0x2000000 0x3000000 |>.zeroMem supBase (supBase + 0x200000)
    let u : State := { t with
      que := {}
      sec := { t.sec with slots := [], longs := [] }
      pwr := { t.pwr with retLost := true } }
    ((u.wr PWR_WAKE_STS.RET_LOST 1).inc PWR_CNT_AON_BO.COUNT).raise 11 7
  else s

/-- RETENTION_LOSS. -/
def execRetentionLoss (s : State) : Host.Outcome State Fault Refusal := .next (retentionLost s)

/-- HOLDOVER: VDD_ANA is lost; the AON domain runs on VBAK and the rest of the device stops (R365, R375). -/
def holdover (s : State) : State :=
  if s.pwr.mode = 2 then s
  else
    let t := retentionLost s
    (t.setPwr { t.pwr with mode := 2, pwrEn := false, wakeFired := false }).setClk { t.clk with tb := false, stopA := none }

/-- HOLDOVER. -/
def execHoldover (s : State) : Host.Outcome State Fault Refusal := .next (holdover s)

/-! ## The arbiter (R371, R372) -/

/-- What a grant starts. -/
def grantStarts (who : Holder) (s : State) : State :=
  match who with
  | .flash => bootGo (flashGrant s)
  | .capture => capGranted s
  | .bias n => biasRamp n s
  | _ => s

/-- The arbiter looks at the head of its queue: it is granted where it fits, and a refusal by its partition share counts once (R372). -/
def leaveGrant (s : State) : State :=
  match s.pwr.waiters with
  | [] => s
  | l :: rest =>
    if s.waiterFits l then
      grantStarts l.who (((s.setPwr { s.pwr with waiters := rest }).holdLeave l.who l.part l.mw).inc PWR_CNT_GRANT.COUNT)
    else if !l.refused && !s.leaveShare l.part l.mw then
      (s.setPwr { s.pwr with waiters := { l with refused := true } :: rest }).inc (PRT_PCNT.COUNT l.part 2)
    else s

/-- LEAVE_GRANT. -/
def execLeaveGrant (s : State) : Host.Outcome State Fault Refusal := .next (leaveGrant s)

/-! ## Die temperature (R374) -/

/-- Every chain takes the faulted ramp-down with cause bit 2 (R128, R374). -/
def tripChains (s : State) : State := (List.range 8).foldl (fun u n => faultChain n 2 u) s

/-- A sample of the die sensor in 1/16 °C: four consecutive samples at or above TRIP trip, four below TRIP - HYST release (R374). -/
def tempSample (temp : Int) (s : State) : State :=
  if s.pwr.mode ≠ 0 then s
  else
    let hi := sgn 16 (s.rd PWR_TEMP_CFG.TRIP)
    let lo := hi - s.rd PWR_TEMP_CFG.HYST
    let hot := if hi ≤ temp then min 4 (s.pwr.hot + 1) else 0
    let cool := if temp < lo then min 4 (s.pwr.cool + 1) else 0
    let t := (s.wr PWR_TEMP_STS.TEMP (unsgn 16 temp)).setPwr { s.pwr with hot := hot, cool := cool }
    if hot = 4 ∧ !t.on PWR_TEMP_STS.TRIP then tripChains (((t.wr PWR_TEMP_STS.TRIP 1).inc PWR_CNT_TRIP.COUNT).raise 11 2)
    else if cool = 4 ∧ t.on PWR_TEMP_STS.TRIP then (t.wr PWR_TEMP_STS.TRIP 0).raise 11 3
    else t

/-- TEMP_SAMPLE. -/
def execTempSample (temp : Int) (s : State) : Host.Outcome State Fault Refusal :=
  ranged (decide (-32768 ≤ temp) && decide (temp ≤ 32767)) (tempSample temp s)

/-! ## The backup cell (R375, R376) -/

/-- The gauge and the voltage disagree (R376). -/
def gaugeWrong (s : State) : State := (((s.wr PWR_GAUGE_REM.MISMATCH 1).wr PWR_GAUGE_REM.UNKNOWN 1).wr PWR_GAUGE_REM.UAH 0).raise 11 5

/-- The shield monitor stops on LOW in HOLDOVER and restarts above PWR_VBAK_LOW + 50 mV (R376). -/
def shieldMonitor (mv : Nat) (s : State) : State :=
  if s.on PWR_VBAK.LOW ∧ s.pwr.mode = 2 ∧ !s.pwr.shieldOff then
    (s.wr PWR_VBAK.SHIELD_UNMON 1).setPwr { s.pwr with shieldOff := true }
  else if s.rd PWR_VBAK_LOW.MV + 50 < mv then s.setPwr { s.pwr with shieldOff := false }
  else s

/-- A measurement of the backup cell: its voltage in mV and the charge in µAh drawn since the last one, which counts in HOLDOVER
(R376, R393). -/
def vbakMeasure (mv uah : Nat) (s : State) : State :=
  let rem := s.rd PWR_GAUGE_REM.UAH
  let rem' := if s.pwr.mode = 2 then rem - uah else rem
  let low := decide (mv ≤ s.rd PWR_VBAK_LOW.MV)
  let was := s.on PWR_VBAK.LOW
  let t := ((s.wr PWR_VBAK.MV mv).wr PWR_VBAK.LOW (if low then 1 else 0)).wr PWR_GAUGE_REM.UAH rem'
  let u := if low && !was then (t.wr RTC_STS.UNTRUSTED 1).raise 11 6 else t
  let known := !s.on PWR_GAUGE_REM.UNKNOWN
  let v := if known && ((rem != 0 && rem' == 0 && !low) || (low && !was && rem' != 0)) then gaugeWrong u else u
  shieldMonitor mv v

/-- VBAK_MEASURE. -/
def execVbakMeasure (mv uah : Nat) (s : State) : Host.Outcome State Fault Refusal := ranged (mv < 4096) (vbakMeasure mv uah s)

/-- RECAL sets REM to the capacity and clears UNKNOWN (R376). -/
def recal (s : State) : State := (s.wr PWR_GAUGE_REM.UAH (s.rd PWR_GAUGE_CAP.UAH)).wr PWR_GAUGE_REM.UNKNOWN 0

/-- RECAL. -/
def execRecal (f : Fn) (s : State) : Host.Outcome State Fault Refusal := .next (s.p0Only f PWR_GAUGE_CAL.reg (recal s))

/-- Every counter of the PWR block is cleared (R377). -/
def pwrClear (s : State) : State :=
  s.zero [PWR_AIR_CNT.COUNT, PWR_CNT_AON_BO.COUNT, PWR_CNT_GRANT.COUNT, PWR_CNT_REFUSED.COUNT, PWR_CNT_WAITED.COUNT, PWR_CNT_TRIP.COUNT]

/-- PWR_CNT_CLR. -/
def execPwrCntClr (f : Fn) (s : State) : Host.Outcome State Fault Refusal := .next (s.p0Only f PWR_CNT_CLR.reg (pwrClear s))

end Sys2Proof.Machine
end

