-- ==== Sys2Proof/Machine/Views.lean ====
section
/-! DEFINITION. What a register access reads: registers that show other state, quantities wider than 32 bits (R10), the register windows of the
physical function and the supervisors (R27, R28), and the partition regions of a virtual function (R29, R295). -/

namespace Sys2Proof.Machine

/-- A truth value as bit k of a word. -/
def bitAt (b : Bool) (k : Nat) : Nat := if b then 2 ^ k else 0

/-! ## Registers that show other state -/

/-- CLK: GROVE_ALIGNED as it stands (R385, R400). -/
def clkView (a : Nat) (s : State) : Word :=
  if a = CLK_STS.reg then bfSet (s.reg a) 3 1 (bitAt (groveAligned s) 0) else s.reg (homeOf a)

/-- PWR: leave held, waiters, the budget in force (R371, R377). -/
def pwrView (a : Nat) (s : State) : Word :=
  if a = PWR_ARB_STS.reg then BitVec.ofNat 32 (min 65535 s.leaveUsed + 65536 * min 31 s.pwr.waiters.length)
  else if a = PWR_ARB_BUDGET.reg then BitVec.ofNat 32 s.budgetNow
  else s.reg a

/-- The level of each pin: an output pin's is its output register's (R407). -/
def gpioIn (s : State) : Word :=
  let d := s.rd EVR_GPIO_DIR.OUT
  BitVec.ofNat 32 (maskOf 24 (fun p => bitOn (if bitOn d p then s.rd EVR_GPIO_OUT.VAL else s.rd EVR_GPIO_IN.VAL) p))

/-- EVR (R407, R419). -/
def evrView (a : Nat) (s : State) : Word :=
  if a = EVR_GPIO_SET.reg then s.reg EVR_GPIO_OUT.reg
  else if a = EVR_GPIO_IN.reg then gpioIn s
  else s.reg a

/-- CNP: search and streams as they stand, and the capture memory while no capture runs (R67, R68). -/
def cnpView (a : Nat) (s : State) : Word :=
  if a = CNP_STS.reg then bfSet (bfSet (s.reg a) 0 1 (bitAt (searchOn s) 0)) 3 1 (bitAt (streamsOn s) 0)
  else if CNP_CAP_MEM.reg 0 ≤ a then
    if s.rd CNP_CAP_STS.STATE ∈ [1, 2, 3] then 0
    else
      let i := (a - CNP_CAP_MEM.reg 0) / 4
      match s.cnp.capAir.find? (fun e => decide (e.1 ≤ i) && decide (i < e.2.1)) with
      | some e => Config.airWord e.2.2 i
      | none => s.reg a
  else s.reg a

/-- The antennas contributing at a lane's present sample, which lies D ticks before the present ATB (R77, R98). -/
def laneComb (s : State) (l : Nat) : Nat :=
  match s.lane l with
  | some x => maskOf 8 (fun n => bitOn x.wmask n && clearAt s x n (s.atb - sliceD s (laneSlice x)))
  | none => 0

/-- LNE: LNE_PLIMp is a view of PRT_Pp_LANE, and a lane's COMB follows its samples (R98). -/
def lneView (a : Nat) (s : State) : Word :=
  if 0x200400 ≤ a ∧ a < 0x200500 then s.reg (PRT_P_LANE.reg ((a - 0x200400) / 4))
  else if LNE_LANE_STS.reg 0 ≤ a ∧ a < LNE_LANE_STS.reg 512 then
    bfSet (s.reg a) 16 8 (laneComb s ((a - LNE_LANE_STS.reg 0) / 4))
  else s.reg a

/-- The carriers in use on a chain. -/
def chainBusy (s : State) (n : Nat) : Nat := (chainCarriers s n).foldl (fun m c => bitSet m c.idx) 0

/-- Word w of the status of a staging entry or slot, with its last miss (R112, R134). -/
def entView (s : State) (e w miss : Nat) : Word :=
  let x := s.ent e
  if w = 0 then BitVec.ofNat 32 (x.st + 16 * x.chain + 256 * x.carrier + 4096 * x.part + 2 ^ 18 * x.prio + 2 ^ 20 * miss)
  else BitVec.ofNat 32 (x.node.getD 0)

/-- A per-chain register of TXC (R134). -/
def chainView (a n : Nat) (s : State) : Word :=
  if a = TXC_CH_STS.reg n then
    bfSet (bfSet (bfSet (s.reg a) 0 3 (chainState s n)) 8 5 (chainCarriers s n).length) 16 16 (min 65535 (ampSum s n))
  else if a = TXC_CH_CARR.reg n then BitVec.ofNat 32 (chainBusy s n)
  else s.reg a

/-- TXC (R134). -/
def txcView (a : Nat) (s : State) : Word :=
  let o := a - 0x300000
  if a = TXC_STS.reg then
    BitVec.ofNat 32 (maskOf 8 (fun n => chainState s n == 3) + 256 * maskOf 8 (fun n => chainState s n == 4) +
      65536 * s.txc.carriers.length)
  else if a = TXC_STAGE_STS.reg then
    BitVec.ofNat 32 ((s.txc.ents.filter (fun p => !isSlot p.1 && p.2.st != 0)).length +
      65536 * (s.txc.ents.filter (fun p => isSlot p.1 && p.2.st != 0)).length)
  else if 0x2000 ≤ o ∧ o < 0x2200 then chainView a ((o - 0x2000) / 64) s
  else if 0x10000 ≤ o ∧ o < 0x12000 then
    let e := (o - 0x10000) / 8
    entView s e (o / 4 % 2) (s.rd (TXC_STAGE0.LAST_MISS e))
  else if 0x12000 ≤ o ∧ o < 0x12100 then
    let e := (o - 0x12000) / 8
    entView s (1024 + e) (o / 4 % 2) (s.rd (TXC_SLOT0.LAST_MISS e))
  else s.reg a

/-- The ASN of the slot that holds the present ATB; zero before the epoch (R168). -/
def asnNow (s : State) : Nat := (s.atb - s.rd64 LNK_TSCH_EPOCH_LO.reg) / s.rd LNK_TSCH_SLOT_LEN.TICKS

/-- LNK (R175). -/
def lnkView (a : Nat) (s : State) : Word :=
  if a = LNK_STS.reg then
    BitVec.ofNat 32 (bitAt (s.on LNK_CTRL.EN && s.atbRuns) 0 +
      bitAt (s.on LNK_TSCH_CTRL.EN && s.atbRuns && decide (s.rd64 LNK_TSCH_EPOCH_LO.reg ≤ s.atb)) 1)
  else s.reg a

/-- QUE: credits not spent, and the guarantees and caps that the partition map holds (R22, R197). -/
def queView (a : Nat) (s : State) : Word :=
  let o := a - 0x500000
  if a = QUE_CRED_VERIFY.reg then BitVec.ofNat 32 (32 - s.sec.rxJobs.length)
  else if a = QUE_CRED_HOST.reg then BitVec.ofNat 32 (hostCredits s)
  else if 0x220 ≤ o ∧ o < 0x240 then
    BitVec.ofNat 32 (256 - ((s.eng.rxq ++ s.eng.held).filter (fun q => q.1 == (o - 0x220) / 4)).length)
  else if 0x400 ≤ o ∧ o < 0x800 ∧ o % 16 = 0 then s.reg (PRT_P_CELL_GUAR.reg ((o - 0x400) / 16))
  else if 0x400 ≤ o ∧ o < 0x800 ∧ o % 16 = 4 then s.reg (PRT_P_CELL_CAP.reg ((o - 0x400) / 16))
  else s.reg a

/-- SEC (R266). -/
def secView (a : Nat) (s : State) : Word :=
  if a = SEC_STS.reg then
    BitVec.ofNat 32 (min 32 s.sec.rxJobs.length + 256 * min 32 (txUsed s) + bitAt (s.sec.haltBy != 0) 16 +
      bitAt ((s.lslot 0).state == 1) 17 + bitAt s.sec.tamper 18)
  else if a = SEC_MARK.reg then
    match s.sec.marks with
    | m :: _ => bfSet (bfSet (s.reg a) 0 16 m.1) 31 1 1
    | [] => s.reg a
  else if a = SEC_MARK_FC.reg then BitVec.ofNat 32 ((s.sec.marks.head?.map (·.2)).getD 0)
  else if a = SEC_RNG_STS.reg then bfSet (s.reg a) 0 1 (bitAt (s.sec.rngUp && !rngPending s) 0)
  else s.reg a

/-- PRT (R202, R207, R213). -/
def prtView (a : Nat) (s : State) : Word :=
  let o := a - 0x700000
  if a = PRT_STS.reg then BitVec.ofNat 32 ((List.range 64).filter (fun p => s.rd (PRT_P_CFG.STATE p) == 1)).length
  else if a = PRT_FLT_STS.reg then bfSet (s.reg a) 0 5 s.prt.log.length
  else if a = PRT_FLT_W0.reg then
    match s.prt.log with
    | l :: _ => BitVec.ofNat 32 (l.tag + 256 * l.src + 4096 * l.tgt)
    | [] => 0
  else if a = PRT_FLT_W1.reg then BitVec.ofNat 32 ((s.prt.log.head?.map (·.index)).getD 0)
  else if 0x5000 ≤ o ∧ o < 0x5400 ∧ o % 16 = 8 then BitVec.ofNat 32 (s.leaveOf ((o - 0x5000) / 16))
  else s.reg a

/-- A port's register (R297). -/
def portView (q r : Nat) (s : State) : Word :=
  let a := HST_PORT_SQ_TAIL.reg q + r
  if r = 0x28 then bfSet (s.reg a) 0 15 (ctxsOf s q).length
  else if r = 0x2C then BitVec.ofNat 32 (s.port q).posted.length
  else s.reg a

/-- HST: entries of the MSI-X table at or beyond its size do not exist (R292, R297). -/
def hstView (a : Nat) (s : State) : Word :=
  let o := a - 0x800000
  if o < 0x10000 then portView (o / 64) (o % 64) s
  else if 0x100000 ≤ o ∧ o < 0x108000 ∧ vecCount s 0 ≤ (o - 0x100000) / 16 then 0
  else if a = HST_STS.reg then
    BitVec.ofNat 32 (s.hst.ctxs.length + 65536 * ((List.range 1024).filter (fun q => s.on (HST_PORT_STS.EN q))).length)
  else s.reg a

/-! ## Engines and supervisors -/

/-- The engine whose memory or registers an offset of ENG belongs to; none for the cluster registers and unused offsets (R240). -/
def engAt (a : Nat) : Option Nat :=
  let o := a - 0x2000000
  let c := o / 0x200000
  let r := o % 0x200000
  if r < 0x100000 then (if r % 0x20000 < 0x8000 ∨ 0x10000 ≤ r % 0x20000 then some (8 * c + r / 0x20000) else none)
  else if r < 0x180000 then some (8 * c + (r - 0x100000) / 0x10000)
  else if r < 0x180800 then some (8 * c + (r - 0x180000) / 0x100)
  else none

/-- The offset in an engine's register block; none for its memories. -/
def engRegAt (a : Nat) : Option Nat :=
  let r := (a - 0x2000000) % 0x200000
  if 0x180000 ≤ r ∧ r < 0x180800 then some (r % 0x100) else none

/-- What the owner reads of an engine of another partition: its status and its counters (R203, R238). -/
def ownerReads (a : Nat) : Bool :=
  match engRegAt a with
  | some r => [0x04, 0x0C, 0x20, 0x24, 0x28].contains r || (decide (0x2C ≤ r) && decide (r < 0x80))
  | none => false

/-- A cluster register (R240). -/
def clusterView (a : Nat) (s : State) : Word :=
  let c := (a - 0x2000000) / 0x200000
  if a = ENG_C_STS.reg c then bfSet (s.reg a) 16 9 (s.eng.rxq.filter (fun q => q.1 == c)).length
  else if ENG_C_RX.reg c 0 ≤ a ∧ a < ENG_C_RX.reg c 0 + 256 then bfSet (s.reg a) 16 9 (engShare s c ((a - ENG_C_RX.reg c 0) / 4))
  else s.reg a

/-- A word of ENG. -/
def engView (a : Nat) (s : State) : Word :=
  match engAt a, engRegAt a with
  | some e, some r => engRead e r s
  | some _, none => s.mword a
  | none, _ => clusterView a s

/-- A word of SUP (R241). -/
def supView (a : Nat) (s : State) : Word :=
  let o := a - 0x3000000
  if o < 0x20000 ∨ (0x100000 ≤ o ∧ o < 0x300000) then s.mword a
  else if 0x800000 ≤ o ∧ o < 0x804000 then supRead ((o - 0x800000) / 0x1000) (o % 0x1000) s
  else s.reg a

/-- The word at an aligned offset of the physical function's BAR0, without the effects of reading it. -/
def pfView (a : Nat) (s : State) : Word :=
  if a < 0x10000 then (if 0x8000 ≤ a ∧ a < 0x9000 ∧ !s.on TOP_START_STS.SEEDLING then 0 else s.reg a)
  else if a < 0x20000 then clkView a s
  else if a < 0x30000 then pwrView a s
  else if a < 0x50000 then (if a = TIM_STS.reg then timRun s else s.reg a)
  else if a < 0x60000 then evrView a s
  else if a < 0x80000 then (if a = BIAS_STS.reg then biasSts s else s.reg a)
  else if a < 0x100000 then (if a = FLC_SECT_INFO.reg then sectInfo s else s.reg a)
  else if a < 0x200000 then cnpView a s
  else if a < 0x300000 then lneView a s
  else if a < 0x400000 then txcView a s
  else if a < 0x500000 then lnkView a s
  else if a < 0x600000 then queView a s
  else if a < 0x700000 then secView a s
  else if a < 0x800000 then prtView a s
  else if a < 0x2000000 then hstView a s
  else if a < 0x3000000 then engView a s
  else supView a s

/-! ## Wide quantities (R10) -/

/-- The value of the wide quantity whose lowest word stands at an offset, where it changes while the device runs. -/
def wideAt (a : Nat) (s : State) : Option Nat :=
  if a = LNK_ATB_LO.reg then some s.atb
  else if a = LNK_TSCH_ASN_LO.reg then some (asnNow s)
  else if LNK_CMP_LO.reg 0 ≤ a ∧ a < LNK_CMP_LO.reg 64 ∧ (a - LNK_CMP_LO.reg 0) % 16 = 0 then some (s.rd64 a)
  else if a = PRT_FLT_ATB_LO.reg then some ((s.prt.log.head?.map (·.atb)).getD 0)
  else if [CLK_SYNC_CAP_LO.reg, CLK_ATB_BRIDGE_LO.reg, CNP_CAP_ATB_LO.reg, CNP_CAP_TRIG_ATB_LO.reg].contains a then some (s.rd64 a)
  else if TIM_CAP_ATB_LO.reg 0 ≤ a ∧ a < 0x40900 ∧ (a - TIM_CAP_ATB_LO.reg 0) % 64 = 0 then some (s.rd64 a)
  else none

/-- Reading the lowest word captures the whole value into the shadow. -/
def wideRead (a v : Nat) (s : State) : State × Word :=
  ({ s with shadow := sset regReset s.shadow (a + 4) (BitVec.ofNat 32 (v / 2 ^ 32)) }, BitVec.ofNat 32 v)

/-! ## Reads of the physical function and of the supervisors -/

/-- A read of the node table window (R198): reachable only from the physical function; words of a context not captured read as a free
value, the spec gives none. -/
def ntwRead (f : Fn) (a : Nat) (s : State) : State × Word :=
  let h := (a - 0x1000000) / 64
  let w := a % 64 / 4
  if f ≠ .pf then (s.bark (fnTag f) (fnKind f) 0 a, 0)
  else if w = 0 then let t := ntwTake h s; (t, ntwWord t 0)
  else if s.que.ntwOf = some h then (s, ntwWord s w)
  else (s.freed, BitVec.ofNat 32 (s.freeVal 0))

/-- A read of an aligned word that is mapped, by the physical function or a supervisor, with its effects. -/
def pfRead (f : Fn) (a : Nat) (s : State) : State × Word :=
  if 0x1000000 ≤ a ∧ a < 0x1400000 then ntwRead f a s
  else if RTC_SUBSEC.reg ≤ a ∧ a ≤ RTC_SEC_HI.reg then let r := rtcRead ((a - RTC_SUBSEC.reg) / 4) s; (r.2, r.1)
  else if 0x88000 ≤ a ∧ a < 0x89000 then let r := windowRead (a - 0x88000) (s.freeVal (2 ^ 137)) s.freed; (r.2, r.1)
  else if a = SEC_RNG_STS.reg ∧ s.sec.rngUp then (s.freed, bfSet (pfView a s) 8 24 (s.freeVal (2 ^ 20 + 1)))
  else if a = SEC_ALARM_CAUSE.reg then
    let t := causesGone s
    (t, pfView a t)
  else match wideAt a s, wideAt (a - 4) s with
    | some v, _ => wideRead a v s
    | none, some _ => (s, sget regReset s.shadow a)
    | none, none =>
      match (if 0x2000000 ≤ a ∧ a < 0x3000000 then engAt a else none) with
      | some e => if s.engOwner e ≠ 0 ∧ !ownerReads a then (s.bark 0 (fnKind f) 5 e, 0) else (s, pfView a s)
      | none => (s, pfView a s)

/-! ## A virtual function's regions -/

/-- The physical-function offset of the register that a word of a virtual function's counter and status regions is a view of (R295). -/
def vfHome (n o : Nat) : Option Nat :=
  if o < 0x10000 then none
  else if o < 0x1001C then some (LNE_PCNT.reg n ((o - 0x10000) / 4))
  else if 0x10020 ≤ o ∧ o < 0x10030 then some (LNK_PCNT.reg n ((o - 0x10020) / 4))
  else if o = 0x10030 then some (QUE_PFULL.reg n)
  else if 0x10040 ≤ o ∧ o < 0x10050 then some (PRT_PCNT.reg n ((o - 0x10040) / 4))
  else if 0x10050 ≤ o ∧ o < 0x10060 then some (SEC_PCNT.reg n ((o - 0x10050) / 4))
  else if 0x10060 ≤ o ∧ o < 0x10080 then some (HST_PCNT.reg n ((o - 0x10060) / 4))
  else if o = 0x20000 then some (LNE_PLIM.reg n)
  else if o = 0x20004 then some (LNE_PSTS.reg n)
  else if 0x20010 ≤ o ∧ o < 0x2001C then some (QUE_PGUAR.reg n + (o - 0x20010))
  else if o = 0x20020 then some (PRT_P_AIR_GUAR.reg n)
  else if o = 0x20024 then some (PRT_P_AIR_CAP.reg n)
  else if 0x20028 ≤ o ∧ o < 0x20034 then some (PRT_PAIR.reg n ((o - 0x20028) / 4))
  else if o = 0x20034 then some (PRT_P_PWR.reg n)
  else none

/-- The command contexts that a partition's ports hold (R295). -/
def partCtxs (s : State) (p : Nat) : Nat := (s.hst.ctxs.filter (fun c => s.portOwner c.2.port == p)).length

/-- The global port behind a doorbell offset of a virtual function (R29). -/
def localPort (s : State) (n o : Nat) : Option Nat := (portsOf s n)[(o - 0x80000) / 64]?

/-- The word at an aligned offset of a virtual function's BAR0. -/
def vfView (n o : Nat) (s : State) : Word :=
  if o = 0 then BitVec.ofNat 32 (n + 256 * s.rd (PRT_P_CFG.STATE n) + 65536 * (portsOf s n).length)
  else if 0x10 ≤ o ∧ o < 0x20 then offerWord s n ((o - 0x10) / 4)
  else if o = 4 ∨ o = 0x30 ∨ o = 0x100 ∨ (0x20 ≤ o ∧ o < 0x30) ∨ (0x40 ≤ o ∧ o < 0x50) then s.vreg n o
  else if o = 0x20040 then BitVec.ofNat 32 (partCtxs s n)
  else if 0x80000 ≤ o ∧ o < 0x90000 then
    match localPort s n o with
    | some q => portView q (o % 64) s
    | none => 0
  else if 0xA0000 ≤ o ∧ o < 0xA8000 then (if vecCount s n ≤ (o - 0xA0000) / 16 then 0 else s.vreg n o)
  else if 0xA8000 ≤ o ∧ o < 0xA8100 then s.vreg n o
  else match vfHome n o with
    | some a => pfView a s
    | none => 0

end Sys2Proof.Machine
end

