-- ==== Sys2Proof/Machine/Bus.lean ====
section
/-! DEFINITION. What a register access writes (R9-R16, R27-R29, R269): block by block, a write does what its fields' types say, or what the
rule of the register says; then the whole access of a function. A write that sets several command bits performs them from the lowest bit up
(DESIGN CHOICE, log entry 26). -/

namespace Sys2Proof.Machine

/-- The state a command's meaning answers, or the state it began in. -/
def did (s : State) (r : Host.Outcome State Fault Refusal) : State := match r with | .next t => t | _ => s

/-- Bit k of a written word. -/
def wb (v : Word) (k : Nat) : Bool := bf v k 1 == 1

/-- An effect that a written bit asks for. -/
def onBit (b : Bool) (t : State → State) (s : State) : State := if b then t s else s

/-- A register written by its fields' types; an enable that lets an event through sends the event vector (R13, R293). -/
def plainWrite (a : Nat) (v : Word) (s : State) : State := evtEdge s (s.regWrite a v)

/-- The low word of a quantity that a write of the high word completes is held (R10). -/
def holdLow (a : Nat) (v : Word) (s : State) : State := { s with heldLo := sput s.heldLo a v }

/-! ## Trunk, clocks, power, time -/

/-- TOP (R294, R296, R331). -/
def topWrite (f : Fn) (o : Nat) (v : Word) (s : State) : State :=
  if o = TOP_FEAT_CTRL.reg then onBit (wb v 0) (featureCommit 0) s
  else if o = TOP_RESET.reg then
    if wb v 0 then did s (execFullReset f (bf v 16 16) s) else if wb v 1 then did s (execRadioReset f (bf v 16 16) s) else s
  else if o = 0x220 then onBit (wb v 0) (fun u => did u (execDriverOk f u)) s
  else if 0x8000 ≤ o ∧ o < 0x9000 ∧ !s.on TOP_START_STS.SEEDLING then s
  else plainWrite o v s

/-- CLK_OUTn_CFG at its home h: DIV and DLY are ignored while EN is set, and an odd DIV is reserved (R387). -/
def outWrite (h : Nat) (v : Word) (s : State) : State :=
  let w := s.reg h
  let v1 := if bf w 31 1 = 1 ∨ bf v 0 1 = 1 then bfSet v 0 13 (bf w 0 13) else v
  s.regWrite h (if bf w 31 1 = 1 then bfSet v1 16 8 (bf w 16 8) else v1)

/-- A change of SYNCOUT's mode, period or offset starts the master's count of pulses anew (R385, R386); an offset not below the period is
reserved. -/
def syncoutWrite (a : Nat) (v : Word) (s : State) : State :=
  if a = CLK_SYNCOUT_OFS.reg ∧ s.rd CLK_SYNCOUT_PERIOD.TICKS ≤ bf v 0 21 then s
  else
    let t := s.regWrite a v
    if t.rd CLK_SYNCOUT_CFG.MODE = s.rd CLK_SYNCOUT_CFG.MODE ∧ t.reg CLK_SYNCOUT_PERIOD.reg = s.reg CLK_SYNCOUT_PERIOD.reg ∧
        t.reg CLK_SYNCOUT_OFS.reg = s.reg CLK_SYNCOUT_OFS.reg then t
    else t.setClk { t.clk with syncout := 0, lastOut := none }

/-- CLK (R379, R385-R387, R400). -/
def clkWrite (a : Nat) (v : Word) (s : State) : State :=
  let h := homeOf a
  if a = CLK_STS.reg then
    let t := s.regWrite a v
    if s.on CLK_STS.SLIP ∧ !t.on CLK_STS.SLIP then t.setClk { t.clk with pulses := 0 } else t
  else if a = CLK_SYN_CTRL.reg then
    let t := s.regWrite a v
    if t.on CLK_SYN_CTRL.EN ∧ !s.on CLK_SYN_CTRL.EN then t.setClk { t.clk with acq := true } else t
  else if [CLK_SYNCOUT_CFG.reg, CLK_SYNCOUT_PERIOD.reg, CLK_SYNCOUT_OFS.reg].contains a then syncoutWrite a v s
  else if [CLK_OUT_CFG.reg 0, CLK_OUT_CFG.reg 1, CLK_OUTX_CFG.reg 0, CLK_OUTX_CFG.reg 1].contains h then outWrite h v s
  else plainWrite h v s

/-- The sets of the power state in force change with its register (R360). -/
def setsWrite (a : Nat) (v : Word) (s : State) : State :=
  let t := s.regWrite a v
  if s.powerState = (if a = PWR_TRIM_CFG.reg then 1 else 2) then
    restChains (classesBack (classOn s) (antChange ((List.range 8).filter (antEnabled s)) t))
  else t

/-- PWR (R359, R376, R377). -/
def pwrWrite (a : Nat) (v : Word) (s : State) : State :=
  if a = PWR_CMD.reg then (if bf v 0 3 ≤ 3 then pwrCmd (bf v 0 3) s else s)
  else if a = PWR_TRIM_CFG.reg ∨ a = PWR_WATCH_CFG.reg then setsWrite a v s
  else if a = PWR_GAUGE_CAL.reg then onBit (wb v 0) recal s
  else if a = PWR_CNT_CLR.reg then onBit (wb v 0) pwrClear s
  else plainWrite a v s

/-- RTC: a write of any register ends a freeze (R391, R392, R394, R401). -/
def rtcWrite (f : Fn) (a : Nat) (v : Word) (s : State) : State :=
  if (rowAt a).isNone then s
  else if a = RTC_SEC_LO.reg ∨ a = RTC_ALARM_LO.reg then holdLow a v (rtcThaw s)
  else if a = RTC_SEC_HI.reg then secondsWrite v.toNat s
  else if a = RTC_ALARM_HI.reg then alarmArm v.toNat s
  else
    let t := (rtcThaw s).regWrite a v
    onBit (a == RTC_ALARM_CTRL.reg && wb v 3) (fun u => did u (execRtcDisarm f u)) t

/-- Every channel a timer's EVT word names lies in a group of the timer's owner (R399). -/
def timChannelsOk (s : State) (k : Nat) (v : Word) : Bool :=
  [0, 8, 16, 24].all (fun l => s.chanOwner (bf v l 7) == s.timOwner k)

/-- A timer's register (R395, R396, R399, R402). -/
def timerWrite (f : Fn) (k r : Nat) (v : Word) (s : State) : State :=
  let a := TIM_CTRL.reg k + r
  if r = 0 then onBit (wb v 2) (fun u => did u (execClr f k u)) (s.regWrite a v)
  else if r = 4 ∨ r = 8 then (if s.on (TIM_CTRL.EN k) then s else s.regWrite a v)
  else if r = 0xC ∨ r = 0x10 ∨ r = 0x14 then preloadWrite k ((r - 0xC) / 4) v s
  else if r = 0x28 then
    (if timChannelsOk s k v then s.regWrite a v else s.bark (fnTag f) (fnKind f) 8 k)
  else s.regWrite a v

/-- TIM. -/
def timWrite (f : Fn) (a : Nat) (v : Word) (s : State) : State :=
  let o := a - 0x40000
  if a = TIM_START.reg then timEnable v 1 s
  else if a = TIM_STOP.reg then timEnable v 0 s
  else if 0x100 ≤ o ∧ o < 0x900 then timerWrite f ((o - 0x100) / 64) (o % 64) v s
  else s

/-! ## Events, two-wire, bias, flash -/

/-- EVR (R405-R407, R419). -/
def evrWrite (f : Fn) (a : Nat) (v : Word) (s : State) : State :=
  let o := a - 0x50000
  if a = EVR_FIRE.reg then did s (execEvrFire f (bf v 0 7) s)
  else if a = EVR_CNT_CLR.reg then onBit (wb v 0) (fun u => did u (execEvrCntClr f u)) s
  else if 0x100 ≤ o ∧ o < 0x300 then channelCfg ((o - 0x100) / 4) v s
  else if a = EVR_GPIO_SET.reg then did s (execGpioSet f v s)
  else if a = EVR_GPIO_CLR.reg then did s (execGpioClr f v s)
  else plainWrite a v s

/-- TWA and TWB: a command word without START only takes its fields, unless an operation or a recovery runs (R412, R413, R420). -/
def twoWrite (a : Nat) (v : Word) (s : State) : State :=
  if a = TWB_CMD.reg then
    if wb v 30 then twbStart v s else if s.on TWB_CMD.BUSY ∨ s.on TWB_STS.STUCK then s else s.regWrite a v
  else plainWrite a v s

/-- The trip threshold that a gate's registers give lies in 5-200 mV (R416). -/
def tripOk (s : State) (n : Nat) : Bool :=
  let mv := s.rd (BIAS_G_LIM.TRIP_MA n) * s.rd (BIAS_G_CFG.SHUNT_MOHM n)
  decide (5000 ≤ mv) && decide (mv ≤ 200000)

/-- A gate's register. -/
def gateWrite (f : Fn) (n r a : Nat) (v : Word) (s : State) : State :=
  match r with
  | 0 => onBit (wb v 2) (fun u => did u (execBiasFaultClr f n u)) (onBit (wb v 1) (fun u => did u (execBiasOff f n u))
      (onBit (wb v 0) (fun u => did u (execBiasOn f n u)) s))
  | 4 => let t := s.regWrite a v; if tripOk t n then t else s
  | 8 => let t := s.regWrite a v; if tripOk t n then t else s
  | _ => s.regWrite a v

/-- BIAS (R415-R417, R420). -/
def biasWrite (f : Fn) (a : Nat) (v : Word) (s : State) : State :=
  if 0x70100 ≤ a ∧ a < 0x70200 then gateWrite f ((a - 0x70100) / 32) (a % 32) a v s else plainWrite a v s

/-- FLC_CMD (R346, R351, R357). -/
def flcCmd (v : Word) (s : State) : State :=
  match bf v 0 3 with
  | 1 => flashStart 1 v s
  | 2 => flashStart 2 v s
  | 3 => flashStart 3 v s
  | 4 => flashSuspend (s.regWrite FLC_CMD.reg v)
  | 5 => flashResume (s.regWrite FLC_CMD.reg v)
  | 6 => flashAbort (s.regWrite FLC_CMD.reg v)
  | _ => s.regWrite FLC_CMD.reg v

/-- FLC_IMG_CTRL: START, then ABORT; whether the clocks lock in time under a base image's CLOCK section is a free value here
(R313, R316, R318, R320). -/
def imgCtrl (v : Word) (s : State) : State :=
  let t := if s.on FLC_IMG_CTRL.BUSY then s
    else if wb v 0 then imgStart (bf v 2 1) (wb v 3) (s.freeVal 2 == 1) s.freed
    else s.regWrite FLC_IMG_CTRL.reg v
  onBit (wb v 1) imgAbort t

/-- FLC_GRAFT_CTRL: one operation at a time; which one a write that names several starts is open (R333; log entry 1). -/
def graftCtrl (v : Word) (s : State) : State :=
  let ops := ([(0, 1), (1, 2), (2, if wb v 4 then 20 else 4), (3, 8)].filter (fun p => wb v p.1)).map (·.2)
  match ops with
  | [] => s
  | [x] => graftStart x s
  | xs => graftStart (xs.getD (s.freeVal xs.length) 1) s.freed

/-- A wait-state value allowed for the present clock (R345). -/
def waitOk (s : State) (ws : Nat) : Bool := decide ((if s.clk.tb then 2 else 1) ≤ ws)

/-- FLC (R320, R343, R345, R357). -/
def flcWrite (a : Nat) (v : Word) (s : State) : State :=
  let o := a - 0x80000
  if a = FLC_CFG.reg then (if waitOk s (bf v 0 2) then s.regWrite a v else s)
  else if a = FLC_CMD.reg then flcCmd v s
  else if a = FLC_IMG_CTRL.reg then imgCtrl v s
  else if o = 0x900 then
    (if bf v 0 2 ≠ 0 then ldgStart (bf v 0 2) v s else if s.on FLC_LDG_CTRL.BUSY then s else s.regWrite a v)
  else if 0x900 < o ∧ o < 0xA00 then (if s.on FLC_LDG_CTRL.BUSY then s else s.regWrite a v)
  else if o = 0xA00 then graftCtrl v s
  else if o = 0xA10 then
    (if bf v 0 2 ≠ 0 then fuseStart (bf v 0 2) v s else if s.on FLC_FUSE_CMD.BUSY then s else s.regWrite a v)
  else plainWrite a v s

/-! ## Radio -/

/-- An antenna's register (R37, R54, R57, R68). -/
def antWrite (f : Fn) (n r : Nat) (v : Word) (s : State) : State :=
  let a := CNP_ATT.reg n + r
  if r = 0 then
    let old := s.rd (CNP_ATT.MODE n)
    let t := s.regWrite a v
    if t.rd (CNP_ATT.MODE n) ≠ 2 then t
    else if old = 2 then did t (execManAttWrite f n (bf v 16 5) t)
    else enterManual n t
  else if r = 4 then did s (execAttLimWrite f n (bf v 0 5) (bf v 8 5) s)
  else if r = 8 then did s (execTrimWrite f n (bf v 0 16) s)
  else s.regWrite a v

/-- CNP (R53, R65, R67, R68). -/
def cnpWrite (f : Fn) (a : Nat) (v : Word) (s : State) : State :=
  let o := a - 0x100000
  if a = CNP_ANT_EN.reg then did s (execAntennaEnableWrite f v s)
  else if a = CNP_CNT_CLR.reg then
    onBit (wb v 2) (fun u => did u (execCnpCntClrAnt f u)) (onBit (wb v 1) (fun u => did u (execCnpCntClrPoints f u))
      (onBit (wb v 0) (fun u => did u (execCnpCntClrBlock f u)) s))
  else if 0x400 ≤ o ∧ o < 0x500 then antWrite f ((o - 0x400) / 32) (o % 32) v s
  else if a = CNP_CAP_CTRL.reg then onBit (wb v 2) capForce (onBit (wb v 1) (capAbort 1) (onBit (wb v 0) capArm s))
  else if a = CNP_CAP_TRIG_ATB_LO.reg then holdLow a v s
  else if a = CNP_CAP_TRIG_ATB_HI.reg then (s.wr64 CNP_CAP_TRIG_ATB_LO.reg (formed s CNP_CAP_TRIG_ATB_LO.reg v.toNat)).dropHeld CNP_CAP_TRIG_ATB_LO.reg
  else plainWrite a v s

/-- LNE (R98). -/
def lneWrite (f : Fn) (a : Nat) (v : Word) (s : State) : State :=
  if a = LNE_CNT_CLR.reg then
    onBit (wb v 2) (fun u => did u (execLneCntClrFlt f u)) (onBit (wb v 1) (fun u => did u (execLneCntClrPart f u))
      (onBit (wb v 0) (fun u => did u (execLneCntClrBlock f u)) s))
  else plainWrite a v s

/-- TXC_CORR_CMD (R107, R134). -/
def corrWrite (f : Fn) (v : Word) (s : State) : State :=
  let n := bf v 12 3
  let x := bf v 0 9
  match bf v 16 2 with
  | 1 => did s (execCorrWrite f n x s)
  | 2 => did s (execCorrRead f n x s)
  | 3 => did s (execClearValid f n x s)
  | _ => s.regWrite TXC_CORR_CMD.reg v

/-- A chain's register: cause bit 2 does not clear while the temperature trip holds (R128-R130, R134). -/
def chainWrite (f : Fn) (n r : Nat) (v : Word) (s : State) : State :=
  let a := TXC_CH_CTRL.reg n + r
  if r = 0 then onBit (wb v 2) (fun u => did u (execFaultClr f n u)) (onBit (wb v 1) (fun u => did u (execKill f n u)) (chainEnable n (s.regWrite a v)))
  else if r = 0x14 ∧ s.on PWR_TEMP_STS.TRIP then s.regWrite a (bfSet v 2 1 0)
  else s.regWrite a v

/-- TXC (R134). -/
def txcWrite (f : Fn) (a : Nat) (v : Word) (s : State) : State :=
  let o := a - 0x300000
  if a = TXC_CNT_CLR.reg then
    onBit (wb v 2) (fun u => did u (execTxcCntClrCoex f u)) (onBit (wb v 1) (fun u => did u (execTxcCntClrChain f u))
      (onBit (wb v 0) (fun u => did u (execTxcCntClrBlock f u)) s))
  else if a = TXC_CORR_CMD.reg then corrWrite f v s
  else if 0x2000 ≤ o ∧ o < 0x2200 then chainWrite f ((o - 0x2000) / 64) (o % 64) v s
  else if 0x3000 ≤ o ∧ o < 0x3080 then reqUpdate (plainWrite a v s)
  else plainWrite a v s

/-- LNK_CMPk_CTRL: a channel outside the groups of the comparator's partition is refused; then DISARM (R137, R404). -/
def cmpCtrl (f : Fn) (k : Nat) (v : Word) (s : State) : State :=
  let t := s.regWrite (LNK_CMP_CTRL.reg k) v
  let p := t.rd (LNK_CMP_CTRL.PART k)
  let ch := t.rd (LNK_CMP_CTRL.EVT_CH k)
  let u := if p ≠ 0 ∧ t.chanOwner ch ≠ p then (t.wr (LNK_CMP_CTRL.EVT_CH k) (s.rd (LNK_CMP_CTRL.EVT_CH k))).bark (fnTag f) (fnKind f) 8 (ch / 8)
    else t
  onBit (wb v 3) (disarmCmp k) u

/-- LNK (R136, R144, R168, R170, R175). -/
def lnkWrite (f : Fn) (a : Nat) (v : Word) (s : State) : State :=
  let o := a - 0x400000
  if a = LNK_CNT_CLR.reg then
    onBit (wb v 1) (fun u => did u (execLnkCntClrPart f u)) (onBit (wb v 0) (fun u => did u (execLnkCntClrBlock f u)) s)
  else if 0x1000 ≤ o ∧ o < 0x1400 then panWrite ((o - 0x1000) / 16) (o / 4 % 4) v s
  else if 0x2000 ≤ o ∧ o < 0x2400 then
    let k := (o - 0x2000) / 16
    match o % 16 with
    | 0 => holdLow a v s
    | 4 => cmpHigh k v.toNat s
    | 8 => cmpCtrl f k v s
    | _ => s
  else if a = LNK_TSCH_CTRL.reg then tschEnable (wb v 0) s
  else if 0x3010 ≤ o ∧ o < 0x3200 then (if s.on LNK_TSCH_CTRL.EN then s else s.regWrite a v)
  else if 0x10000 ≤ o ∧ o < 0x20000 then cellWrite (fnTag f) (fnKind f) ((o - 0x10000) / 8) (o / 4 % 2) v s
  else plainWrite a v s

/-! ## Queue fabric, cipher, partition map, host -/

/-- QUE (R183, R197, R204). -/
def queWrite (f : Fn) (a : Nat) (v : Word) (s : State) : State :=
  let o := a - 0x500000
  if a = QUE_RX_RESERVE.reg then rxReserveWrite v.toNat s
  else if a = QUE_CNT_CLR.reg then
    onBit (wb v 1) (fun u => did u (execQueCntClrPart f u)) (onBit (wb v 0) (fun u => did u (execQueCntClrBlock f u)) s)
  else if a = QUE_NCMD.reg then
    let op := bf v 16 3
    if 1 ≤ op ∧ op ≤ 5 then ncmd op v s else if s.on QUE_NCMD.BUSY then s else s.regWrite a v
  else if 0x140 ≤ o ∧ o < 0x180 ∧ s.on QUE_NCMD.BUSY then s
  else plainWrite a v s

/-- SEC (R247, R257, R260, R265, R266). -/
def secWrite (f : Fn) (a : Nat) (v : Word) (s : State) : State :=
  let o := a - 0x600000
  if a = SEC_KOP_CMD.reg then
    let op := bf v 17 3
    if 1 ≤ op ∧ op ≤ 4 then kopCmd op (bf v 0 16) (wb v 16) s else if s.on SEC_KOP_CMD.BUSY then s else s.regWrite a v
  else if 0x140 ≤ o ∧ o < 0x190 ∧ s.on SEC_KOP_CMD.BUSY then s
  else if a = SEC_MARK_POP.reg then onBit (wb v 0) markPop s
  else if a = SEC_CNT_CLR.reg then
    onBit (wb v 1) (fun u => did u (execSecCntClrPart f u)) (onBit (wb v 0) (fun u => did u (execSecCntClrBlock f u)) s)
  else if a = SEC_ALARM_STS.reg then alarmClear v.toNat s
  else if a = SEC_SEAL_CTRL.reg then
    let op := bf v 0 2
    if 1 ≤ op ∧ op ≤ 2 then sealCmd op (bf v 8 8) s else if s.on SEC_SEAL_CTRL.BUSY then s else s.regWrite a v
  else if 0x700 < o ∧ o < 0x720 ∧ s.on SEC_SEAL_CTRL.BUSY then s
  else plainWrite a v s

/-- A partition's register at offset r of its block. -/
def partWrite (p r a o : Nat) (v : Word) (s : State) : State :=
  if r = 0 then partEnable p (wb v 0) s
  else if r = 0x1C then (if 1 ≤ bf v 0 2 ∧ bf v 0 2 ≤ 2 then partReset p (bf v 0 2) s else s)
  else if (sumsOk s o).isSome then shareWrite o v s
  else plainWrite a v s

/-- PRT at offset o of its block (R204, R209, R212, R213, R439). -/
def prtAt (f : Fn) (a o : Nat) (v : Word) (s : State) : State :=
  match mapIdle s o with
  | some idle => mapEntryWrite o idle v s
  | none =>
    if 0x100 ≤ o ∧ o < 0x900 then partWrite ((o - 0x100) / 32) (o % 32) a o v s
    else if (sumsOk s o).isSome then shareWrite o v s
    else if a = PRT_FLT_POP.reg then onBit (wb v 0) fltPop s
    else if a = PRT_CNT_CLR.reg then
      onBit (wb v 1) (fun u => did u (execPrtCntClrPart f u)) (onBit (wb v 0) (fun u => did u (execPrtCntClrBlock f u)) s)
    else plainWrite a v s

/-- PRT. -/
def prtWrite (f : Fn) (a : Nat) (v : Word) (s : State) : State := prtAt f a (a - 0x700000) v s

/-- A port's register: all but the doorbells, CFG.EN and MOD ignore writes while the port is enabled, and a virtual function does not
write CTX.MAX (R270-R272, R297). -/
def portWrite (f : Fn) (q r : Nat) (v : Word) (s : State) : State :=
  let a := HST_PORT_SQ_TAIL.reg q + r
  let on := s.on (HST_PORT_STS.EN q)
  if r = 0 then ownDoorbell f q (sqTail q v.toNat s) s
  else if r = 4 then ownDoorbell f q (cqHead q v.toNat s) s
  else if r = 0x1C then
    let t := if on then s else s.regWrite a (bfSet v 0 1 (bf (s.reg a) 0 1))
    if wb v 0 then portEnable f q t else portDisable f q t
  else if r = 0x20 then s.regWrite a v
  else if on || (r == 0x28 && fnTag f != 0) then s
  else s.regWrite a v

/-- Some virtual function is enabled. -/
def vfsOn (s : State) : Bool := s.hst.funcs.any (fun p => p.1 != 0 && p.2.on)

/-- HST (R268, R291, R292, R297). -/
def hstWrite (f : Fn) (a : Nat) (v : Word) (s : State) : State :=
  let o := a - 0x800000
  if o < 0x10000 then portWrite f (o / 64) (o % 64) v s
  else if 0x100000 ≤ o ∧ o < 0x108000 then
    (if vecCount s 0 ≤ (o - 0x100000) / 16 then s else flushMsix 0 (s.regWrite a v))
  else if 0x180404 ≤ o ∧ o < 0x180500 ∧ vfsOn s then s
  else if a = HST_CNT_CLR.reg then
    onBit (wb v 1) (fun u => did u (execHstCntClrPart f u)) (onBit (wb v 0) (fun u => did u (execHstCntClrBlock f u)) s)
  else plainWrite a v s

/-! ## Engines and supervisors -/

/-- A word written at an address of an engine's memories. -/
def engMemWrite (a e : Nat) (v : Word) (s : State) : State :=
  if a < dmemBase e then (if a < imemBase e + 0x8000 then engPut e 0 (a - imemBase e) (octets 4 v.toNat) s else s)
  else if a < segBase e then engPut e 1 (a - dmemBase e) (octets 4 v.toNat) s
  else engPut e 2 (a - segBase e) (octets 4 v.toNat) s

/-- A word written at an engine's memories or, with r, at offset r of its registers by the owner: of an engine of another partition it
may only halt, reset and clear (R203, R237, R238). -/
def ownerWrite (f : Fn) (a e : Nat) (r : Option Nat) (v : Word) (s : State) : State :=
  match r with
  | some r =>
    if s.engOwner e = 0 then engWrite e r v s
    else if r = 0 ∧ !wb v 0 ∧ !wb v 2 ∧ !wb v 8 then engCtrl e false (wb v 1) false (wb v 3) (wb v 4) s
    else if 0x2C ≤ r ∧ r < 0x80 then s
    else s.bark 0 (fnKind f) 5 e
  | none => if s.engOwner e = 0 then engMemWrite a e v s else s.bark 0 (fnKind f) 5 e

/-- A register of a cluster. -/
def clusterWrite (c a : Nat) (v : Word) (s : State) : State :=
  if a = ENG_C_CTRL.reg c then onBit (wb v 1) (sleepCluster c) (onBit (wb v 0) (wakeCluster c) (s.regWrite a v))
  else plainWrite a v s

/-- The cluster an offset of ENG lies in. -/
def clusterOf (a : Nat) : Nat := (a - 0x2000000) / 0x200000

/-- A word written at an address of engine e, or with none of a cluster's registers. -/
def engHome (f : Fn) (a : Nat) (e r : Option Nat) (v : Word) (s : State) : State :=
  match e with
  | some e => ownerWrite f a e r v s
  | none => clusterWrite (clusterOf a) a v s

/-- ENG (R239, R240). -/
def engWord (f : Fn) (a : Nat) (v : Word) (s : State) : State := engHome f a (engAt a) (engRegAt a) v s

/-- SUP (R241). -/
def supWord (f : Fn) (a : Nat) (v : Word) (s : State) : State :=
  let o := a - 0x3000000
  if o < 0x20000 then s
  else if 0x100000 ≤ o ∧ o < 0x300000 then
    (if s.on SUP_CTRL.MEM_LOCK && decide (f = .pf) then s else s.store none a (octets 4 v.toNat))
  else if 0x800000 ≤ o ∧ o < 0x804000 then supWrite ((o - 0x800000) / 0x1000) (o % 0x1000) v s
  else plainWrite a v s

/-! ## Accesses -/

/-- A write of an aligned word that is mapped, by the physical function or a supervisor. -/
def pfWrite (f : Fn) (a : Nat) (v : Word) (s : State) : State :=
  if a < 0x10000 then topWrite f a v s
  else if a < 0x20000 then clkWrite a v s
  else if a < 0x30000 then pwrWrite a v s
  else if a < 0x40000 then rtcWrite f a v s
  else if a < 0x50000 then timWrite f a v s
  else if a < 0x60000 then evrWrite f a v s
  else if a < 0x70000 then twoWrite a v s
  else if a < 0x80000 then biasWrite f a v s
  else if a < 0x100000 then flcWrite a v s
  else if a < 0x200000 then cnpWrite f a v s
  else if a < 0x300000 then lneWrite f a v s
  else if a < 0x400000 then txcWrite f a v s
  else if a < 0x500000 then lnkWrite f a v s
  else if a < 0x600000 then queWrite f a v s
  else if a < 0x700000 then secWrite f a v s
  else if a < 0x800000 then prtWrite f a v s
  else if a < 0x1000000 then hstWrite f a v s
  else if a < 0x2000000 then (if f = .pf then ntwWrite s else s.bark (fnTag f) (fnKind f) 0 a)
  else if a < 0x3000000 then engWord f a v s
  else supWord f a v s

/-- A reserved range between the blocks of the physical function's BAR0 (R27, R28). -/
def pfReserved (o : Nat) : Bool := (decide (0x90000 ≤ o) && decide (o < 0x100000)) || (decide (0x1400000 ≤ o) && decide (o < 0x2000000))

/-- A reserved range of a virtual function's BAR0 (R29). -/
def vfReserved (o : Nat) : Bool :=
  (decide (0x30000 ≤ o) && decide (o < 0x80000)) || (decide (0x90000 ≤ o) && decide (o < 0xA0000)) || decide (0xA8100 ≤ o)

/-- An access of a size or alignment that R9 forbids is counted and logged (R269). -/
def State.badSize (s : State) (off : Nat) : State :=
  ((((s.inc TOP_CNT_BADSIZE.COUNT).wr TOP_BAD_LOG.OFFSET off).wr TOP_BAD_LOG.KIND 1).wr TOP_BAD_LOG.VALID 1).raise 9 0

/-- A bad access of a virtual function is counted and logged in its partition (R269). -/
def vfBad (n off kind : Nat) (s : State) : State :=
  (s.inc (HST_PCNT.COUNT n 6)).setVreg n 0x100 (BitVec.ofNat 32 (off % 2 ^ 20 + kind * 2 ^ 28 + 2 ^ 31))

/-- The addressed bytes of the containing register (R9). -/
def bytesOf (w : Word) (off size : Nat) : Word := BitVec.ofNat 32 (w.toNat / 2 ^ (8 * (off % 4)) % 2 ^ (8 * size))

/-- An access of the physical function or a supervisor: the state after, and the value of a read. -/
def pfAccess (f : Fn) (off size : Nat) (acc : Access) (s : State) : State × Word :=
  let a := off / 4 * 4
  if pfReserved off || s.hidden f off then (s.unmapped off, 0)
  else if size = 4 ∧ off % 4 = 0 then
    match acc with
    | .read => pfRead f a s
    | .write v => (pfWrite f a v s, 0)
  else
    let t := s.badSize off
    match acc with
    | .read => let r := pfRead f a t; (r.1, bytesOf r.2 off size)
    | .write _ => (t, 0)

/-- A write of an aligned word at a virtual function's BAR0 (R29, R291, R294, R295). -/
def vfWrite (n o : Nat) (v : Word) (s : State) : State :=
  if 0x20 ≤ o ∧ o < 0x30 then s.setVreg n o v
  else if o = 0x30 then onBit (wb v 0) (featureCommit n) s
  else if o = 0x100 then onBit (wb v 31) (fun u => u.setVreg n o (bfSet (u.vreg n o) 31 1 0)) s
  else if o = 0x100FC then onBit (wb v 0) (fun u => u.zero (partCounters n)) s
  else if 0x80000 ≤ o ∧ o < 0x90000 then
    match localPort s n o with
    | some q => portWrite (.vf n) q (o % 64) v s
    | none => s.bark n 1 4 ((o - 0x80000) / 64)
  else if 0xA0000 ≤ o ∧ o < 0xA8000 then
    (if vecCount s n ≤ (o - 0xA0000) / 16 then s else flushMsix n (s.setVreg n o v))
  else s

/-- An access of a virtual function. -/
def vfAccess (n off size : Nat) (acc : Access) (s : State) : State × Word :=
  let o := off / 4 * 4
  if vfReserved off then (vfBad n off 0 s, 0)
  else if size = 4 ∧ off % 4 = 0 then
    match acc with
    | .read => (s, vfView n o s)
    | .write v => (vfWrite n o v s, 0)
  else
    let t := vfBad n off 1 s
    match acc with
    | .read => (t, bytesOf (vfView n o t) off size)
    | .write _ => (t, 0)

/-- A register access of a function; nothing answers while VDD_CORE is off, nor a virtual function that does not exist (R267, R363). -/
def busAccess (f : Fn) (off size : Nat) (acc : Access) (s : State) : State × Word :=
  if s.pwr.mode ≠ 0 ∨ !fnHere s f then (s, 0)
  else match f with
    | .vf n => vfAccess n off size acc s
    | g => pfAccess g off size acc s

/-- A supervisor's loads and stores of device registers (R232). -/
def supDev : Dev where
  read := fun n o size s => busAccess (.sv n) o size .read s
  write := fun n o size v s => (busAccess (.sv n) o size (.write v) s).1

/-- A function's BAR0 holds an offset, and the function's number exists. -/
def inBar (f : Fn) (off : Nat) : Bool :=
  match f with
  | .pf => decide (off < 0x4000000)
  | .vf n => decide (0 < n) && decide (n < 64) && decide (off < 0x100000)
  | .sv n => decide (n < 4) && decide (off < 0x4000000)

/-- REGISTER_WRITE: a register access; a read answers with its value, and a supervisor that the access told to step does so. -/
def execRegisterWrite (f : Fn) (off size : Nat) (acc : Access) (s : State) : Host.Outcome State Fault Refusal :=
  let r := busAccess f off size acc s
  let t := (List.range 4).foldl (fun u n => stepNow supDev (64 + n) u) r.1
  ranged (inBar f off && decide (0 < size))
    (match acc with
     | .read => if s.pwr.mode = 0 ∧ fnHere s f then t.post (.readData r.2) else t
     | .write _ => t)

end Sys2Proof.Machine
end

