-- ==== Sys2Proof/Machine/Cores.lean ====
section
/-! DEFINITION. The instruction rows and the owner's commands on cores. A row stands for the instruction that the core has fetched: it has
its effect while the core is running and neither a breakpoint nor the fetch of its address stops it (R214-R241; log entry 27). -/

namespace Sys2Proof.Machine

/-- An instruction row: the core exists and each field fits its place in the word. -/
def insn (c : Nat) (fields : List (Nat × Nat)) (b : Body) (s : State) : Host.Outcome State Fault Refusal :=
  ranged (decide (c < 68) && fields.all (fun p => decide (p.1 < p.2))) (runIns c b s)

/-! ## Register operations (R218) -/

/-- ADD: a sum modulo 2^32. -/
def execAdd (c rd ra rb : Nat) (s : State) : Host.Outcome State Fault Refusal :=
  insn c [(rd, 32), (ra, 32), (rb, 32)] (alu 1 fAdd rd ra rb) s

/-- SUB: a difference modulo 2^32. -/
def execSub (c rd ra rb : Nat) (s : State) : Host.Outcome State Fault Refusal :=
  insn c [(rd, 32), (ra, 32), (rb, 32)] (alu 1 fSub rd ra rb) s

/-- AND: bitwise and. -/
def execAnd (c rd ra rb : Nat) (s : State) : Host.Outcome State Fault Refusal :=
  insn c [(rd, 32), (ra, 32), (rb, 32)] (alu 1 fAnd rd ra rb) s

/-- OR: bitwise or. -/
def execOr (c rd ra rb : Nat) (s : State) : Host.Outcome State Fault Refusal :=
  insn c [(rd, 32), (ra, 32), (rb, 32)] (alu 1 fOr rd ra rb) s

/-- XOR: bitwise exclusive or. -/
def execXor (c rd ra rb : Nat) (s : State) : Host.Outcome State Fault Refusal :=
  insn c [(rd, 32), (ra, 32), (rb, 32)] (alu 1 fXor rd ra rb) s

/-- SLL: a left shift by the low five bits of rb. -/
def execSll (c rd ra rb : Nat) (s : State) : Host.Outcome State Fault Refusal :=
  insn c [(rd, 32), (ra, 32), (rb, 32)] (alu 1 fSll rd ra rb) s

/-- SRL: a logical right shift. -/
def execSrl (c rd ra rb : Nat) (s : State) : Host.Outcome State Fault Refusal :=
  insn c [(rd, 32), (ra, 32), (rb, 32)] (alu 1 fSrl rd ra rb) s

/-- SRA: an arithmetic right shift. -/
def execSra (c rd ra rb : Nat) (s : State) : Host.Outcome State Fault Refusal :=
  insn c [(rd, 32), (ra, 32), (rb, 32)] (alu 1 fSra rd ra rb) s

/-- SLT: 1 when ra is below rb as signed numbers. -/
def execSlt (c rd ra rb : Nat) (s : State) : Host.Outcome State Fault Refusal :=
  insn c [(rd, 32), (ra, 32), (rb, 32)] (alu 1 fSlt rd ra rb) s

/-- SLTU: 1 when ra is below rb as unsigned numbers. -/
def execSltu (c rd ra rb : Nat) (s : State) : Host.Outcome State Fault Refusal :=
  insn c [(rd, 32), (ra, 32), (rb, 32)] (alu 1 fSltu rd ra rb) s

/-- MIN: the signed minimum. -/
def execMin (c rd ra rb : Nat) (s : State) : Host.Outcome State Fault Refusal :=
  insn c [(rd, 32), (ra, 32), (rb, 32)] (alu 1 fMin rd ra rb) s

/-- MAX: the signed maximum. -/
def execMax (c rd ra rb : Nat) (s : State) : Host.Outcome State Fault Refusal :=
  insn c [(rd, 32), (ra, 32), (rb, 32)] (alu 1 fMax rd ra rb) s

/-- MUL: the low word of the product. -/
def execMul (c rd ra rb : Nat) (s : State) : Host.Outcome State Fault Refusal :=
  insn c [(rd, 32), (ra, 32), (rb, 32)] (alu 2 fMul rd ra rb) s

/-- MULHU: the high word of the unsigned product. -/
def execMulhu (c rd ra rb : Nat) (s : State) : Host.Outcome State Fault Refusal :=
  insn c [(rd, 32), (ra, 32), (rb, 32)] (alu 2 fMulhu rd ra rb) s

/-- MULH: the high word of the signed product. -/
def execMulh (c rd ra rb : Nat) (s : State) : Host.Outcome State Fault Refusal :=
  insn c [(rd, 32), (ra, 32), (rb, 32)] (alu 2 fMulh rd ra rb) s

/-- DIVU: the unsigned quotient, all ones for a zero divisor. -/
def execDivu (c rd ra rb : Nat) (s : State) : Host.Outcome State Fault Refusal :=
  insn c [(rd, 32), (ra, 32), (rb, 32)] (alu 18 fDivu rd ra rb) s

/-- REMU: the unsigned remainder, ra for a zero divisor. -/
def execRemu (c rd ra rb : Nat) (s : State) : Host.Outcome State Fault Refusal :=
  insn c [(rd, 32), (ra, 32), (rb, 32)] (alu 18 fRemu rd ra rb) s

/-- CLZ: leading zeros. -/
def execClz (c rd ra : Nat) (s : State) : Host.Outcome State Fault Refusal :=
  insn c [(rd, 32), (ra, 32)] (alui fClz rd ra) s

/-- POPC: bits set. -/
def execPopc (c rd ra : Nat) (s : State) : Host.Outcome State Fault Refusal :=
  insn c [(rd, 32), (ra, 32)] (alui fPopc rd ra) s

/-- BSWAP: bytes reversed. -/
def execBswap (c rd ra : Nat) (s : State) : Host.Outcome State Fault Refusal :=
  insn c [(rd, 32), (ra, 32)] (alui fBswap rd ra) s

/-- ADDI: a sum with the sign-extended immediate. -/
def execAddi (c rd ra imm : Nat) (s : State) : Host.Outcome State Fault Refusal :=
  insn c [(rd, 32), (ra, 32), (imm, 65536)] (alui (fAdd (simm imm)) rd ra) s

/-- ANDI: the immediate is zero-extended. -/
def execAndi (c rd ra imm : Nat) (s : State) : Host.Outcome State Fault Refusal :=
  insn c [(rd, 32), (ra, 32), (imm, 65536)] (alui (fAnd (BitVec.ofNat 32 imm)) rd ra) s

/-- ORI: the immediate is zero-extended. -/
def execOri (c rd ra imm : Nat) (s : State) : Host.Outcome State Fault Refusal :=
  insn c [(rd, 32), (ra, 32), (imm, 65536)] (alui (fOr (BitVec.ofNat 32 imm)) rd ra) s

/-- XORI: the immediate is zero-extended. -/
def execXori (c rd ra imm : Nat) (s : State) : Host.Outcome State Fault Refusal :=
  insn c [(rd, 32), (ra, 32), (imm, 65536)] (alui (fXor (BitVec.ofNat 32 imm)) rd ra) s

/-- SLTI: against the sign-extended immediate, signed. -/
def execSlti (c rd ra imm : Nat) (s : State) : Host.Outcome State Fault Refusal :=
  insn c [(rd, 32), (ra, 32), (imm, 65536)] (alui (fun a => fSlt a (simm imm)) rd ra) s

/-- SLTIU: against the sign-extended immediate, unsigned. -/
def execSltiu (c rd ra imm : Nat) (s : State) : Host.Outcome State Fault Refusal :=
  insn c [(rd, 32), (ra, 32), (imm, 65536)] (alui (fun a => fSltu a (simm imm)) rd ra) s

/-- LUI: the immediate in the high half, zeros in the low. -/
def execLui (c rd imm : Nat) (s : State) : Host.Outcome State Fault Refusal :=
  insn c [(rd, 32), (imm, 65536)] (alui (fun _ => BitVec.ofNat 32 (imm * 65536)) rd 0) s

/-- SHI: a shift or rotate by an immediate. -/
def execShi (c rd ra imm : Nat) (s : State) : Host.Outcome State Fault Refusal :=
  insn c [(rd, 32), (ra, 32), (imm, 65536)] (iShi rd ra imm) s

/-- EXTU: a field is extracted. -/
def execExtu (c rd ra imm : Nat) (s : State) : Host.Outcome State Fault Refusal :=
  insn c [(rd, 32), (ra, 32), (imm, 65536)] (iExtu rd ra imm) s

/-- INS: a field is inserted. -/
def execIns (c rd ra imm : Nat) (s : State) : Host.Outcome State Fault Refusal :=
  insn c [(rd, 32), (ra, 32), (imm, 65536)] (iIns rd ra imm) s

/-! ## Loads, stores, reservations (R219, R221, R231, R232) -/

/-- LW: loads a word. -/
def execLw (c rd ra imm : Nat) (s : State) : Host.Outcome State Fault Refusal :=
  insn c [(rd, 32), (ra, 32), (imm, 65536)] (iLoad supDev 4 zext rd ra imm) s

/-- LH: loads a halfword, sign-extended. -/
def execLh (c rd ra imm : Nat) (s : State) : Host.Outcome State Fault Refusal :=
  insn c [(rd, 32), (ra, 32), (imm, 65536)] (iLoad supDev 2 sext16 rd ra imm) s

/-- LHU: loads a halfword, zero-extended. -/
def execLhu (c rd ra imm : Nat) (s : State) : Host.Outcome State Fault Refusal :=
  insn c [(rd, 32), (ra, 32), (imm, 65536)] (iLoad supDev 2 zext rd ra imm) s

/-- LB: loads a byte, sign-extended. -/
def execLb (c rd ra imm : Nat) (s : State) : Host.Outcome State Fault Refusal :=
  insn c [(rd, 32), (ra, 32), (imm, 65536)] (iLoad supDev 1 sext8 rd ra imm) s

/-- LBU: loads a byte, zero-extended. -/
def execLbu (c rd ra imm : Nat) (s : State) : Host.Outcome State Fault Refusal :=
  insn c [(rd, 32), (ra, 32), (imm, 65536)] (iLoad supDev 1 zext rd ra imm) s

/-- SW: stores a word of rd. -/
def execSw (c rd ra imm : Nat) (s : State) : Host.Outcome State Fault Refusal :=
  insn c [(rd, 32), (ra, 32), (imm, 65536)] (iStore supDev 4 rd ra imm) s

/-- SH: stores the low halfword of rd. -/
def execSh (c rd ra imm : Nat) (s : State) : Host.Outcome State Fault Refusal :=
  insn c [(rd, 32), (ra, 32), (imm, 65536)] (iStore supDev 2 rd ra imm) s

/-- SB: stores the low byte of rd. -/
def execSb (c rd ra imm : Nat) (s : State) : Host.Outcome State Fault Refusal :=
  insn c [(rd, 32), (ra, 32), (imm, 65536)] (iStore supDev 1 rd ra imm) s

/-- LR: loads a word and reserves it. -/
def execLr (c rd ra imm : Nat) (s : State) : Host.Outcome State Fault Refusal :=
  insn c [(rd, 32), (ra, 32), (imm, 65536)] (iLr rd ra imm) s

/-- SC: stores to a reserved word and tells whether it did. -/
def execSc (c rd ra rb : Nat) (s : State) : Host.Outcome State Fault Refusal :=
  insn c [(rd, 32), (ra, 32), (rb, 32)] (iSc rd ra rb) s

/-- TAS: reads a word and sets it to one. -/
def execTas (c rd ra imm : Nat) (s : State) : Host.Outcome State Fault Refusal :=
  insn c [(rd, 32), (ra, 32), (imm, 65536)] (iTas rd ra imm) s

/-! ## Branches, jumps, loops (R219, R220) -/

/-- BEQ: branches when ra and rb compare equal. -/
def execBeq (c ra rb off : Nat) (s : State) : Host.Outcome State Fault Refusal :=
  insn c [(ra, 32), (rb, 32), (off, 65536)] (iCmpBr 0x20 (cmpOf 0x20) ra rb off) s

/-- BNE: branches when ra and rb compare not equal. -/
def execBne (c ra rb off : Nat) (s : State) : Host.Outcome State Fault Refusal :=
  insn c [(ra, 32), (rb, 32), (off, 65536)] (iCmpBr 0x21 (cmpOf 0x21) ra rb off) s

/-- BLT: branches when ra and rb compare signed below. -/
def execBlt (c ra rb off : Nat) (s : State) : Host.Outcome State Fault Refusal :=
  insn c [(ra, 32), (rb, 32), (off, 65536)] (iCmpBr 0x22 (cmpOf 0x22) ra rb off) s

/-- BGE: branches when ra and rb compare signed not below. -/
def execBge (c ra rb off : Nat) (s : State) : Host.Outcome State Fault Refusal :=
  insn c [(ra, 32), (rb, 32), (off, 65536)] (iCmpBr 0x23 (cmpOf 0x23) ra rb off) s

/-- BLTU: branches when ra and rb compare unsigned below. -/
def execBltu (c ra rb off : Nat) (s : State) : Host.Outcome State Fault Refusal :=
  insn c [(ra, 32), (rb, 32), (off, 65536)] (iCmpBr 0x24 (cmpOf 0x24) ra rb off) s

/-- BGEU: branches when ra and rb compare unsigned not below. -/
def execBgeu (c ra rb off : Nat) (s : State) : Host.Outcome State Fault Refusal :=
  insn c [(ra, 32), (rb, 32), (off, 65536)] (iCmpBr 0x25 (cmpOf 0x25) ra rb off) s

/-- BBS: branches when bit b of ra is set. -/
def execBbs (c ra b off : Nat) (s : State) : Host.Outcome State Fault Refusal :=
  insn c [(ra, 32), (b, 32), (off, 65536)] (iBitBr 0x26 true ra b off) s

/-- BBC: branches when bit b of ra is clear. -/
def execBbc (c ra b off : Nat) (s : State) : Host.Outcome State Fault Refusal :=
  insn c [(ra, 32), (b, 32), (off, 65536)] (iBitBr 0x27 false ra b off) s

/-- J: a jump by a signed number of words. -/
def execJ (c off : Nat) (s : State) : Host.Outcome State Fault Refusal :=
  insn c [(off, 2 ^ 26)] (iJ off) s

/-- JAL: a jump that links g31. -/
def execJal (c off : Nat) (s : State) : Host.Outcome State Fault Refusal :=
  insn c [(off, 2 ^ 26)] (iJal off) s

/-- JR: a jump to a register. -/
def execJr (c ra : Nat) (s : State) : Host.Outcome State Fault Refusal :=
  insn c [(ra, 32)] (iJr ra) s

/-- JALR: a jump to a register that links rd. -/
def execJalr (c rd ra : Nat) (s : State) : Host.Outcome State Fault Refusal :=
  insn c [(rd, 32), (ra, 32)] (iJalr rd ra) s

/-- LOOP: a hardware loop whose count comes from a register. -/
def execLoop (c ra off : Nat) (s : State) : Host.Outcome State Fault Refusal :=
  insn c [(ra, 32), (off, 65536)] (iLoop ra off) s

/-- LOOPI: a hardware loop with an immediate count. -/
def execLoopi (c cnt off : Nat) (s : State) : Host.Outcome State Fault Refusal :=
  insn c [(cnt, 1024), (off, 65536)] (iLoopi cnt off) s

/-! ## System instructions (R216, R223, R233-R236) -/

/-- MFS: reads a system register. -/
def execMfs (c rd n : Nat) (s : State) : Host.Outcome State Fault Refusal :=
  insn c [(rd, 32), (n, 65536)] (iMfs rd n) s

/-- MTS: writes a system register. -/
def execMts (c n ra : Nat) (s : State) : Host.Outcome State Fault Refusal :=
  insn c [(n, 65536), (ra, 32)] (iMts n ra) s

/-- NOP. -/
def execNopInsn (c : Nat) (s : State) : Host.Outcome State Fault Refusal :=
  insn c [] (iNop) s

/-- WFE: waits for an event. -/
def execWfe (c : Nat) (s : State) : Host.Outcome State Fault Refusal :=
  insn c [] (iWfe) s

/-- WFE_WAKE: a core that waits goes on once a condition of its WFE is true (R223). -/
def execWfeWake (c : Nat) (s : State) : Host.Outcome State Fault Refusal := ranged (decide (c < 68)) (wfeWake c s)

/-- FENCE. -/
def execFence (c : Nat) (s : State) : Host.Outcome State Fault Refusal :=
  insn c [] (iFence) s

/-- ERET: returns from an exception. -/
def execEret (c : Nat) (s : State) : Host.Outcome State Fault Refusal :=
  insn c [] (iEret) s

/-- TRAP: the exception TRAP with its code. -/
def execTrap (c code : Nat) (s : State) : Host.Outcome State Fault Refusal :=
  insn c [(code, 32)] (iTrap code) s

/-- BRK: a debug halt, or the exception BRK. -/
def execBrk (c : Nat) (s : State) : Host.Outcome State Fault Refusal :=
  insn c [] (iBrk) s

/-- HALT: the core halts itself. -/
def execHalt (c : Nat) (s : State) : Host.Outcome State Fault Refusal :=
  insn c [] (iHalt) s

/-- RESERVED_OPCODE: a word that no instruction decodes raises ILLEGAL (R217, R218). -/
def execReservedOpcode (c : Nat) (w : Word) (s : State) : Host.Outcome State Fault Refusal :=
  ranged (decide (c < 68) && reservedWord w) (runIns c (iIllegal w.toNat) s)

/-- INTERRUPT: a supervisor takes its lowest pending enabled line (R235). -/
def execInterrupt (c : Nat) (s : State) : Host.Outcome State Fault Refusal := ranged (decide (c < 68)) (interrupt c s)

/-- BREAKPOINT: a running core halts at an enabled breakpoint (R236). -/
def execBreakpoint (c : Nat) (s : State) : Host.Outcome State Fault Refusal := ranged (decide (c < 68)) (breakpoint c s)

/-! ## Queue instructions (R224-R230) -/

/-- QRX: takes the oldest waiting descriptor (R226). -/
def execQrx (c rd ra : Nat) (s : State) : Host.Outcome State Fault Refusal :=
  insn c [(rd, 32), (ra, 32)] (iQrx rd ra) s

/-- CRD: reads a cell (R226). -/
def execCrd (c rd ra rb : Nat) (s : State) : Host.Outcome State Fault Refusal :=
  insn c [(rd, 32), (ra, 32), (rb, 32)] (iCrd rd ra rb) s

/-- CREL: releases a delivery (R226). -/
def execCrel (c rd ra : Nat) (s : State) : Host.Outcome State Fault Refusal :=
  insn c [(rd, 32), (ra, 32)] (iCrel rd ra) s

/-- QWR: writes a queue item (R227). -/
def execQwr (c rd ra rb : Nat) (s : State) : Host.Outcome State Fault Refusal :=
  insn c [(rd, 32), (ra, 32), (rb, 32)] (iQwr rd ra rb) s

/-- NCMD: a node operation (R229). -/
def execNcmd (c rd ra rb : Nat) (s : State) : Host.Outcome State Fault Refusal :=
  insn c [(rd, 32), (ra, 32), (rb, 32)] (iNcmd rd ra rb) s

/-- NTF: takes the oldest notice (R228). -/
def execNtf (c rd ra : Nat) (s : State) : Host.Outcome State Fault Refusal :=
  insn c [(rd, 32), (ra, 32)] (iNtf rd ra) s

/-- LCMD with the code that cancels an item; the other fields come from the record at ra (R230). -/
def execLcmdCancel (c rd ra : Nat) (s : State) : Host.Outcome State Fault Refusal :=
  insn c [(rd, 32), (ra, 32)] (iLcancel rd ra) s

/-- LCMD with the code that arms a comparator; the other fields come from the record at ra (R230). -/
def execCmpArm (c rd ra : Nat) (s : State) : Host.Outcome State Fault Refusal :=
  insn c [(rd, 32), (ra, 32)] (iCmpArm rd ra) s

/-- LCMD with the code that disarms a comparator; the other fields come from the record at ra (R230). -/
def execCmpDisarm (c rd ra : Nat) (s : State) : Host.Outcome State Fault Refusal :=
  insn c [(rd, 32), (ra, 32)] (iCmpDisarm rd ra) s

/-- LCMD with the code that writes a cell of the hopping schedule; the other fields come from the record at ra (R230). -/
def execCellWr (c rd ra : Nat) (s : State) : Host.Outcome State Fault Refusal :=
  insn c [(rd, 32), (ra, 32)] (iCellWr rd ra) s

/-- LCMD with the code that fires an event channel; the other fields come from the record at ra (R230). -/
def execEvtFire (c rd ra : Nat) (s : State) : Host.Outcome State Fault Refusal :=
  insn c [(rd, 32), (ra, 32)] (iEvtFire rd ra) s

/-! ## The owner's commands (R236-R241) -/

/-- The offset of an engine's control register. -/
def ctrlOff (e : Nat) : Nat := ENG_CTRL.reg (e / 8) (e % 8)

/-- ENGINE_RUN: a halted engine starts (R236). -/
def execEngineRun (f : Fn) (e : Nat) (s : State) : Host.Outcome State Fault Refusal :=
  ranged (decide (e < 64)) (s.p0Only f (ctrlOff e) (ownEngine f (ctrlOff e) e (engRun e 1 s) s))

/-- ENGINE_HALT: any engine halts at the owner's request (R203, R236). -/
def execEngineHalt (f : Fn) (e : Nat) (s : State) : Host.Outcome State Fault Refusal :=
  ranged (decide (e < 64)) (s.p0Only f (ctrlOff e) (coreHalt e s))

/-- ENGINE_STEP: a halted engine executes one instruction (R236). -/
def execEngineStep (f : Fn) (e : Nat) (s : State) : Host.Outcome State Fault Refusal :=
  ranged (decide (e < 64)) (s.p0Only f (ctrlOff e) (ownEngine f (ctrlOff e) e (stepNow noDev e (engRun e 2 s)) s))

/-- ENGINE_RESET: any engine is reset (R203, R237). -/
def execEngineReset (f : Fn) (e : Nat) (s : State) : Host.Outcome State Fault Refusal :=
  ranged (decide (e < 64)) (s.p0Only f (ctrlOff e) (engReset e false s))

/-- ENGINE_CLEAR: any engine is reset and its memories begin to be zeroed (R203, R237). -/
def execEngineClear (f : Fn) (e : Nat) (s : State) : Host.Outcome State Fault Refusal :=
  ranged (decide (e < 64)) (s.p0Only f (ctrlOff e) (engReset e true s))

/-- CLEAR_DONE: an engine's memories are zero (R237). -/
def execClearDone (e : Nat) (s : State) : Host.Outcome State Fault Refusal := ranged (decide (e < 64)) (clearDone e s)

/-- IMEM_WRITE: a word of an engine's instruction memory is written while it is halted (R238). -/
def execImemWrite (f : Fn) (e off : Nat) (v : Word) (s : State) : Host.Outcome State Fault Refusal :=
  ranged (decide (e < 64) && decide (off < 0x8000) && off % 4 == 0)
    (s.p0Only f (imemBase e + off) (ownEngine f (imemBase e + off) e (imemWrite e off (octets 4 v.toNat) s) s))

/-- WAKE: a cluster that is OFF asks for leave (R239). -/
def execWake (f : Fn) (c : Nat) (s : State) : Host.Outcome State Fault Refusal :=
  ranged (decide (c < 8)) (s.p0Only f (ENG_C_CTRL.reg c) (wakeCluster c s))

/-- CLUSTER_ON: a cluster is ON after its grant (R239). -/
def execClusterOn (c : Nat) (s : State) : Host.Outcome State Fault Refusal := ranged (decide (c < 8)) (clusterOn c s)

/-- SLEEP: a cluster whose engines are all halted goes OFF (R239). -/
def execSleep (f : Fn) (c : Nat) (s : State) : Host.Outcome State Fault Refusal :=
  ranged (decide (c < 8)) (s.p0Only f (ENG_C_CTRL.reg c) (sleepCluster c s))

/-- SUPERVISOR_RUN: a halted supervisor starts (R236, R241). -/
def execSupervisorRun (f : Fn) (n : Nat) (s : State) : Host.Outcome State Fault Refusal :=
  ranged (decide (n < 4)) (s.p0Only f (SUP_CTRLN.reg n) (supRun n false s))

/-- SUPERVISOR_HALT: a supervisor halts (R236, R241). -/
def execSupervisorHalt (f : Fn) (n : Nat) (s : State) : Host.Outcome State Fault Refusal :=
  ranged (decide (n < 4)) (s.p0Only f (SUP_CTRLN.reg n) (coreHalt (64 + n) s))

/-- SUPERVISOR_STEP: a halted supervisor executes one instruction (R236, R241). -/
def execSupervisorStep (f : Fn) (n : Nat) (s : State) : Host.Outcome State Fault Refusal :=
  ranged (decide (n < 4)) (s.p0Only f (SUP_CTRLN.reg n) (stepNow supDev (64 + n) (supRun n true s)))

/-- SUPERVISOR_RESET: a supervisor core is reset (R241). -/
def execSupervisorReset (f : Fn) (n : Nat) (s : State) : Host.Outcome State Fault Refusal :=
  ranged (decide (n < 4)) (s.p0Only f (SUP_CTRLN.reg n) (supReset n s))

end Sys2Proof.Machine
end

