-- ==== Sys2Proof/Machine/Dispatch.lean ====
section
/-! DEFINITION. One arm per command: the call of its meaning, or its refusal by name. -/

namespace Sys2Proof.Machine

/-- The effect of one command on everything but the queue. -/
def exec (i : Instr) (s : State) : Host.Outcome State Fault Refusal :=
  match i with
  | .powerOn ordered => Sys2Proof.Machine.execPowerOn ordered s
  | .resetNLow ns => Sys2Proof.Machine.execResetNLow ns s
  | .brownOut good deep => Sys2Proof.Machine.execBrownOut good deep s
  | .aonReset => Sys2Proof.Machine.execAonReset s
  | .fullReset f key => Sys2Proof.Machine.execFullReset f key s
  | .radioReset f key => Sys2Proof.Machine.execRadioReset f key s
  | .radioReload => Sys2Proof.Machine.execRadioReload s
  | .hostReset => Sys2Proof.Machine.execHostReset s
  | .vfFlr n => Sys2Proof.Machine.execVfFlr n s
  | .boot locks1 locks2 => Sys2Proof.Machine.execBoot locks1 locks2 s
  | .startWatchdogExpiry => Sys2Proof.Machine.execStartWatchdogExpiry s
  | .driverOk f => Sys2Proof.Machine.execDriverOk f s
  | .registerWrite f off size acc => Sys2Proof.Machine.execRegisterWrite f off size acc s
  | .correlationStep b t obs => Sys2Proof.Machine.execCorrelationStep b t obs s
  | .noiseBlock b t obs => Sys2Proof.Machine.execNoiseBlock b t obs s
  | .routineStep n peak mean => Sys2Proof.Machine.execRoutineStep n peak mean s
  | .overRange n t samples => Sys2Proof.Machine.execOverRange n t samples s
  | .forcedStep n => Sys2Proof.Machine.execForcedStep n s
  | .overRangeEpisodeEnd n => Sys2Proof.Machine.execOverRangeEpisodeEnd n s
  | .antennaEnableWrite f v => Sys2Proof.Machine.execAntennaEnableWrite f v s
  | .manAttWrite f n v => Sys2Proof.Machine.execManAttWrite f n v s
  | .attLimWrite f n mn mx => Sys2Proof.Machine.execAttLimWrite f n mn mx s
  | .trimWrite f n v => Sys2Proof.Machine.execTrimWrite f n v s
  | .cnpCntClrBlock f => Sys2Proof.Machine.execCnpCntClrBlock f s
  | .cnpCntClrPoints f => Sys2Proof.Machine.execCnpCntClrPoints f s
  | .cnpCntClrAnt f => Sys2Proof.Machine.execCnpCntClrAnt f s
  | .arm f => Sys2Proof.Machine.execArm f s
  | .captureAbort f => Sys2Proof.Machine.execCaptureAbort f s
  | .forceTrig f => Sys2Proof.Machine.execForceTrig f s
  | .captureTrigger => Sys2Proof.Machine.execCaptureTrigger s
  | .captureDone air => Sys2Proof.Machine.execCaptureDone air s
  | .candidateAllocation => Sys2Proof.Machine.execCandidateAllocation s
  | .sfdFound l t128 coded levels amps => Sys2Proof.Machine.execSfdFound l t128 coded levels amps s
  | .sfdTimeout l => Sys2Proof.Machine.execSfdTimeout l s
  | .phyHeaderCheck l w mate => Sys2Proof.Machine.execPhyHeaderCheck l w mate s
  | .laneHeader l octs => Sys2Proof.Machine.execLaneHeader l octs s
  | .headerAnswer l => Sys2Proof.Machine.execHeaderAnswer l s
  | .receiveCell l d => Sys2Proof.Machine.execReceiveCell l d s
  | .descriptorCell l => Sys2Proof.Machine.execDescriptorCell l s
  | .frameEnd l rest q => Sys2Proof.Machine.execFrameEnd l rest q s
  | .deliveryDrop l => Sys2Proof.Machine.execDeliveryDrop l s
  | .lneCntClrBlock f => Sys2Proof.Machine.execLneCntClrBlock f s
  | .lneCntClrPart f => Sys2Proof.Machine.execLneCntClrPart f s
  | .lneCntClrFlt f => Sys2Proof.Machine.execLneCntClrFlt f s
  | .verifyIssue k => Sys2Proof.Machine.execVerifyIssue k s
  | .verifyResult k => Sys2Proof.Machine.execVerifyResult k s
  | .frameCommit k => Sys2Proof.Machine.execFrameCommit k s
  | .engineDelivery k => Sys2Proof.Machine.execEngineDelivery k s
  | .rxDelivery k => Sys2Proof.Machine.execRxDelivery k s
  | .ackBuild k => Sys2Proof.Machine.execAckBuild k s
  | .ackWaitClose k => Sys2Proof.Machine.execAckWaitClose k s
  | .deadlineExpiry h => Sys2Proof.Machine.execDeadlineExpiry h s
  | .schedulerPlace h => Sys2Proof.Machine.execSchedulerPlace h s
  | .airtimePeriodBoundary => Sys2Proof.Machine.execAirtimePeriodBoundary s
  | .tschSlotRead asn => Sys2Proof.Machine.execTschSlotRead asn s
  | .sequencerState k => Sys2Proof.Machine.execSequencerState k s
  | .sequencerClamp k => Sys2Proof.Machine.execSequencerClamp k s
  | .scheduleItem => Sys2Proof.Machine.execScheduleItem s
  | .prepare e => Sys2Proof.Machine.execPrepare e s
  | .encryptResult e => Sys2Proof.Machine.execEncryptResult e s
  | .priming e => Sys2Proof.Machine.execPriming e s
  | .primed e => Sys2Proof.Machine.execPrimed e s
  | .coexRequest e => Sys2Proof.Machine.execCoexRequest e s
  | .grantSample e gnt => Sys2Proof.Machine.execGrantSample e gnt s
  | .commit e => Sys2Proof.Machine.execCommit e s
  | .rampUp e => Sys2Proof.Machine.execRampUp e s
  | .rampDownEnd e => Sys2Proof.Machine.execRampDownEnd e s
  | .coexRelease k => Sys2Proof.Machine.execCoexRelease k s
  | .chainIdle n => Sys2Proof.Machine.execChainIdle n s
  | .kill f n => Sys2Proof.Machine.execKill f n s
  | .chainFaultEvent n => Sys2Proof.Machine.execChainFaultEvent n s
  | .cellFault e => Sys2Proof.Machine.execCellFault e s
  | .faultClr f n => Sys2Proof.Machine.execFaultClr f n s
  | .corrWrite f n x => Sys2Proof.Machine.execCorrWrite f n x s
  | .corrRead f n x => Sys2Proof.Machine.execCorrRead f n x s
  | .clearValid f n x => Sys2Proof.Machine.execClearValid f n x s
  | .tempGainDerive => Sys2Proof.Machine.execTempGainDerive s
  | .txcCntClrBlock f => Sys2Proof.Machine.execTxcCntClrBlock f s
  | .txcCntClrChain f => Sys2Proof.Machine.execTxcCntClrChain f s
  | .txcCntClrCoex f => Sys2Proof.Machine.execTxcCntClrCoex f s
  | .cmpArmWrite f k hi => Sys2Proof.Machine.execCmpArmWrite f k hi s
  | .comparatorFire k => Sys2Proof.Machine.execComparatorFire k s
  | .disarm f k => Sys2Proof.Machine.execDisarm f k s
  | .panEntryWrite f k w v => Sys2Proof.Machine.execPanEntryWrite f k w v s
  | .tschEnableWrite f en => Sys2Proof.Machine.execTschEnableWrite f en s
  | .tschCellWrite f c w v => Sys2Proof.Machine.execTschCellWrite f c w v s
  | .lnkCntClrBlock f => Sys2Proof.Machine.execLnkCntClrBlock f s
  | .lnkCntClrPart f => Sys2Proof.Machine.execLnkCntClrPart f s
  | .nodeOpAdd f v => Sys2Proof.Machine.execNodeOpAdd f v s
  | .nodeOpUpdate f v => Sys2Proof.Machine.execNodeOpUpdate f v s
  | .nodeOpPrune f v => Sys2Proof.Machine.execNodeOpPrune f v s
  | .nodeOpRead f v => Sys2Proof.Machine.execNodeOpRead f v s
  | .nodeOpQset f v => Sys2Proof.Machine.execNodeOpQset f v s
  | .pruneComplete h => Sys2Proof.Machine.execPruneComplete h s
  | .sweepDone h => Sys2Proof.Machine.execSweepDone h s
  | .ntwCapture f h => Sys2Proof.Machine.execNtwCapture f h s
  | .ntwWrite f off v => Sys2Proof.Machine.execNtwWrite f off v s
  | .rxReserveWrite f v => Sys2Proof.Machine.execRxReserveWrite f v s
  | .queCntClrBlock f => Sys2Proof.Machine.execQueCntClrBlock f s
  | .queCntClrPart f => Sys2Proof.Machine.execQueCntClrPart f s
  | .mapEntryWrite f off v => Sys2Proof.Machine.execMapEntryWrite f off v s
  | .shareWrite f off v => Sys2Proof.Machine.execShareWrite f off v s
  | .partitionEnableWrite f p en => Sys2Proof.Machine.execPartitionEnableWrite f p en s
  | .full f p => Sys2Proof.Machine.execFull f p s
  | .depart f p => Sys2Proof.Machine.execDepart f p s
  | .partitionResetDone p => Sys2Proof.Machine.execPartitionResetDone p s
  | .fltPop f => Sys2Proof.Machine.execFltPop f s
  | .prtCntClrBlock f => Sys2Proof.Machine.execPrtCntClrBlock f s
  | .prtCntClrPart f => Sys2Proof.Machine.execPrtCntClrPart f s
  | .add c rd ra rb => Sys2Proof.Machine.execAdd c rd ra rb s
  | .sub c rd ra rb => Sys2Proof.Machine.execSub c rd ra rb s
  | .andr c rd ra rb => Sys2Proof.Machine.execAnd c rd ra rb s
  | .orr c rd ra rb => Sys2Proof.Machine.execOr c rd ra rb s
  | .xorr c rd ra rb => Sys2Proof.Machine.execXor c rd ra rb s
  | .sll c rd ra rb => Sys2Proof.Machine.execSll c rd ra rb s
  | .srl c rd ra rb => Sys2Proof.Machine.execSrl c rd ra rb s
  | .sra c rd ra rb => Sys2Proof.Machine.execSra c rd ra rb s
  | .slt c rd ra rb => Sys2Proof.Machine.execSlt c rd ra rb s
  | .sltu c rd ra rb => Sys2Proof.Machine.execSltu c rd ra rb s
  | .min c rd ra rb => Sys2Proof.Machine.execMin c rd ra rb s
  | .max c rd ra rb => Sys2Proof.Machine.execMax c rd ra rb s
  | .mul c rd ra rb => Sys2Proof.Machine.execMul c rd ra rb s
  | .mulhu c rd ra rb => Sys2Proof.Machine.execMulhu c rd ra rb s
  | .mulh c rd ra rb => Sys2Proof.Machine.execMulh c rd ra rb s
  | .divu c rd ra rb => Sys2Proof.Machine.execDivu c rd ra rb s
  | .remu c rd ra rb => Sys2Proof.Machine.execRemu c rd ra rb s
  | .clz c rd ra => Sys2Proof.Machine.execClz c rd ra s
  | .popc c rd ra => Sys2Proof.Machine.execPopc c rd ra s
  | .bswap c rd ra => Sys2Proof.Machine.execBswap c rd ra s
  | .addi c rd ra imm => Sys2Proof.Machine.execAddi c rd ra imm s
  | .andi c rd ra imm => Sys2Proof.Machine.execAndi c rd ra imm s
  | .ori c rd ra imm => Sys2Proof.Machine.execOri c rd ra imm s
  | .xori c rd ra imm => Sys2Proof.Machine.execXori c rd ra imm s
  | .slti c rd ra imm => Sys2Proof.Machine.execSlti c rd ra imm s
  | .sltiu c rd ra imm => Sys2Proof.Machine.execSltiu c rd ra imm s
  | .lui c rd imm => Sys2Proof.Machine.execLui c rd imm s
  | .shi c rd ra imm => Sys2Proof.Machine.execShi c rd ra imm s
  | .extu c rd ra imm => Sys2Proof.Machine.execExtu c rd ra imm s
  | .ins c rd ra imm => Sys2Proof.Machine.execIns c rd ra imm s
  | .lw c rd ra imm => Sys2Proof.Machine.execLw c rd ra imm s
  | .lh c rd ra imm => Sys2Proof.Machine.execLh c rd ra imm s
  | .lhu c rd ra imm => Sys2Proof.Machine.execLhu c rd ra imm s
  | .lb c rd ra imm => Sys2Proof.Machine.execLb c rd ra imm s
  | .lbu c rd ra imm => Sys2Proof.Machine.execLbu c rd ra imm s
  | .sw c rd ra imm => Sys2Proof.Machine.execSw c rd ra imm s
  | .sh c rd ra imm => Sys2Proof.Machine.execSh c rd ra imm s
  | .sb c rd ra imm => Sys2Proof.Machine.execSb c rd ra imm s
  | .lr c rd ra imm => Sys2Proof.Machine.execLr c rd ra imm s
  | .sc c rd ra rb => Sys2Proof.Machine.execSc c rd ra rb s
  | .tas c rd ra imm => Sys2Proof.Machine.execTas c rd ra imm s
  | .beq c ra rb off => Sys2Proof.Machine.execBeq c ra rb off s
  | .bne c ra rb off => Sys2Proof.Machine.execBne c ra rb off s
  | .blt c ra rb off => Sys2Proof.Machine.execBlt c ra rb off s
  | .bge c ra rb off => Sys2Proof.Machine.execBge c ra rb off s
  | .bltu c ra rb off => Sys2Proof.Machine.execBltu c ra rb off s
  | .bgeu c ra rb off => Sys2Proof.Machine.execBgeu c ra rb off s
  | .bbs c ra b off => Sys2Proof.Machine.execBbs c ra b off s
  | .bbc c ra b off => Sys2Proof.Machine.execBbc c ra b off s
  | .j c off => Sys2Proof.Machine.execJ c off s
  | .jal c off => Sys2Proof.Machine.execJal c off s
  | .jr c ra => Sys2Proof.Machine.execJr c ra s
  | .jalr c rd ra => Sys2Proof.Machine.execJalr c rd ra s
  | .loop c ra off => Sys2Proof.Machine.execLoop c ra off s
  | .loopi c cnt off => Sys2Proof.Machine.execLoopi c cnt off s
  | .mfs c rd n => Sys2Proof.Machine.execMfs c rd n s
  | .mts c n ra => Sys2Proof.Machine.execMts c n ra s
  | .nopInsn c => Sys2Proof.Machine.execNopInsn c s
  | .wfe c => Sys2Proof.Machine.execWfe c s
  | .wfeWake c => Sys2Proof.Machine.execWfeWake c s
  | .fence c => Sys2Proof.Machine.execFence c s
  | .eret c => Sys2Proof.Machine.execEret c s
  | .trap c code => Sys2Proof.Machine.execTrap c code s
  | .brk c => Sys2Proof.Machine.execBrk c s
  | .halt c => Sys2Proof.Machine.execHalt c s
  | .qrx c rd ra => Sys2Proof.Machine.execQrx c rd ra s
  | .crd c rd ra rb => Sys2Proof.Machine.execCrd c rd ra rb s
  | .crel c rd ra => Sys2Proof.Machine.execCrel c rd ra s
  | .qwr c rd ra rb => Sys2Proof.Machine.execQwr c rd ra rb s
  | .ntf c rd ra => Sys2Proof.Machine.execNtf c rd ra s
  | .lcmdCancel c rd ra => Sys2Proof.Machine.execLcmdCancel c rd ra s
  | .cmpArm c rd ra => Sys2Proof.Machine.execCmpArm c rd ra s
  | .cmpDisarm c rd ra => Sys2Proof.Machine.execCmpDisarm c rd ra s
  | .cellWr c rd ra => Sys2Proof.Machine.execCellWr c rd ra s
  | .evtFire c rd ra => Sys2Proof.Machine.execEvtFire c rd ra s
  | .interrupt c => Sys2Proof.Machine.execInterrupt c s
  | .breakpoint c => Sys2Proof.Machine.execBreakpoint c s
  | .engineRun f e => Sys2Proof.Machine.execEngineRun f e s
  | .engineHalt f e => Sys2Proof.Machine.execEngineHalt f e s
  | .engineStep f e => Sys2Proof.Machine.execEngineStep f e s
  | .engineReset f e => Sys2Proof.Machine.execEngineReset f e s
  | .engineClear f e => Sys2Proof.Machine.execEngineClear f e s
  | .clearDone e => Sys2Proof.Machine.execClearDone e s
  | .imemWrite f e off v => Sys2Proof.Machine.execImemWrite f e off v s
  | .wake f c => Sys2Proof.Machine.execWake f c s
  | .clusterOn c => Sys2Proof.Machine.execClusterOn c s
  | .sleep f c => Sys2Proof.Machine.execSleep f c s
  | .supervisorRun f n => Sys2Proof.Machine.execSupervisorRun f n s
  | .supervisorHalt f n => Sys2Proof.Machine.execSupervisorHalt f n s
  | .supervisorStep f n => Sys2Proof.Machine.execSupervisorStep f n s
  | .supervisorReset f n => Sys2Proof.Machine.execSupervisorReset f n s
  | .load f slot long => Sys2Proof.Machine.execLoad f slot long s
  | .replace f slot long => Sys2Proof.Machine.execReplace f slot long s
  | .erase f slot long => Sys2Proof.Machine.execErase f slot long s
  | .status f slot long => Sys2Proof.Machine.execStatus f slot long s
  | .kopDone => Sys2Proof.Machine.execKopDone s
  | .sealOp f long => Sys2Proof.Machine.execSeal f long s
  | .unsealOp f long => Sys2Proof.Machine.execUnseal f long s
  | .sealDone => Sys2Proof.Machine.execSealDone s
  | .markPop f => Sys2Proof.Machine.execMarkPop f s
  | .alarm a rx tx => Sys2Proof.Machine.execAlarm a rx tx s
  | .alarmClear f v present => Sys2Proof.Machine.execAlarmClear f v present s
  | .rngHealthFail apt => Sys2Proof.Machine.execRngHealthFail apt s
  | .rngOk => Sys2Proof.Machine.execRngOk s
  | .reseed => Sys2Proof.Machine.execReseed s
  | .secCntClrBlock f => Sys2Proof.Machine.execSecCntClrBlock f s
  | .secCntClrPart f => Sys2Proof.Machine.execSecCntClrPart f s
  | .portEnable f q => Sys2Proof.Machine.execPortEnable f q s
  | .portDisable f q => Sys2Proof.Machine.execPortDisable f q s
  | .portDisabled q => Sys2Proof.Machine.execPortDisabled q s
  | .sqTail f q v => Sys2Proof.Machine.execSqTail f q v s
  | .cqHead f q v => Sys2Proof.Machine.execCqHead f q v s
  | .fetch q d => Sys2Proof.Machine.execFetch q d s
  | .nop x => Sys2Proof.Machine.execNop x s
  | .tx x d => Sys2Proof.Machine.execTx x d s
  | .cancel x => Sys2Proof.Machine.execCancel x s
  | .postRx x => Sys2Proof.Machine.execPostRx x s
  | .rxFlush x => Sys2Proof.Machine.execRxFlush x s
  | .nodeAdd x d => Sys2Proof.Machine.execNodeAdd x d s
  | .nodeUpdate x d => Sys2Proof.Machine.execNodeUpdate x d s
  | .nodePrune x => Sys2Proof.Machine.execNodePrune x s
  | .nodeRead x => Sys2Proof.Machine.execNodeRead x s
  | .nodeQset x => Sys2Proof.Machine.execNodeQset x s
  | .nodeExport x => Sys2Proof.Machine.execNodeExport x s
  | .keyLoad x d => Sys2Proof.Machine.execKeyLoad x d s
  | .keyReplace x d => Sys2Proof.Machine.execKeyReplace x d s
  | .keyErase x => Sys2Proof.Machine.execKeyErase x s
  | .keyStatus x => Sys2Proof.Machine.execKeyStatus x s
  | .engCtrl x => Sys2Proof.Machine.execEngCtrl x s
  | .engWrite x d => Sys2Proof.Machine.execEngWrite x d s
  | .engRead x => Sys2Proof.Machine.execEngRead x s
  | .completionWrite q => Sys2Proof.Machine.execCompletionWrite q s
  | .modTime q => Sys2Proof.Machine.execModTime q s
  | .featureCommit f => Sys2Proof.Machine.execFeatureCommit f s
  | .vfEnable num => Sys2Proof.Machine.execVfEnable num s
  | .vfCntClr n => Sys2Proof.Machine.execVfCntClr n s
  | .hstCntClrBlock f => Sys2Proof.Machine.execHstCntClrBlock f s
  | .hstCntClrPart f => Sys2Proof.Machine.execHstCntClrPart f s
  | .baseLoad f sup locks => Sys2Proof.Machine.execBaseLoad f sup locks s
  | .liveLoad f sup => Sys2Proof.Machine.execLiveLoad f sup s
  | .liveSwitch => Sys2Proof.Machine.execLiveSwitch s
  | .loadAbort f => Sys2Proof.Machine.execLoadAbort f s
  | .loadDone => Sys2Proof.Machine.execLoadDone s
  | .graftCheck f v => Sys2Proof.Machine.execGraftCheck f v s
  | .graftArm f v => Sys2Proof.Machine.execGraftArm f v s
  | .confirm f v => Sys2Proof.Machine.execConfirm f v s
  | .raiseFloor f v => Sys2Proof.Machine.execRaiseFloor f v s
  | .withdraw f v => Sys2Proof.Machine.execWithdraw f v s
  | .graftDone => Sys2Proof.Machine.execGraftDone s
  | .write f v => Sys2Proof.Machine.execWrite f v s
  | .read f v => Sys2Proof.Machine.execRead f v s
  | .resetGen f v => Sys2Proof.Machine.execResetGen f v s
  | .ldgDone => Sys2Proof.Machine.execLdgDone s
  | .programKey f v => Sys2Proof.Machine.execProgramKey f v s
  | .revokeKey f v => Sys2Proof.Machine.execRevokeKey f v s
  | .setLimit f v => Sys2Proof.Machine.execSetLimit f v s
  | .fuseDone fail => Sys2Proof.Machine.execFuseDone fail s
  | .program f v => Sys2Proof.Machine.execProgram f v s
  | .eraseSector f v => Sys2Proof.Machine.execEraseSector f v s
  | .eraseBlock f v => Sys2Proof.Machine.execEraseBlock f v s
  | .suspend f v => Sys2Proof.Machine.execSuspend f v s
  | .resume f v => Sys2Proof.Machine.execResume f v s
  | .abort f v => Sys2Proof.Machine.execAbort f v s
  | .opDone fail spares => Sys2Proof.Machine.execOpDone fail spares s
  | .windowRead f off flips => Sys2Proof.Machine.execWindowRead f off flips s
  | .flashBrownOut pos => Sys2Proof.Machine.execFlashBrownOut pos s
  | .run f => Sys2Proof.Machine.execRun f s
  | .trim f => Sys2Proof.Machine.execTrim f s
  | .watch f => Sys2Proof.Machine.execWatch f s
  | .dormant f => Sys2Proof.Machine.execDormant f s
  | .quiescenceTimeout => Sys2Proof.Machine.execQuiescenceTimeout s
  | .linkL2Ready => Sys2Proof.Machine.execLinkL2Ready s
  | .wakeIn lvl => Sys2Proof.Machine.execWakeIn lvl s
  | .airWake chan sf d => Sys2Proof.Machine.execAirWake chan sf d s
  | .wakeReturn locks => Sys2Proof.Machine.execWakeReturn locks s
  | .wakeTimeout => Sys2Proof.Machine.execWakeTimeout s
  | .retentionLoss => Sys2Proof.Machine.execRetentionLoss s
  | .holdover => Sys2Proof.Machine.execHoldover s
  | .leaveGrant => Sys2Proof.Machine.execLeaveGrant s
  | .tempSample temp => Sys2Proof.Machine.execTempSample temp s
  | .vbakMeasure mv uah => Sys2Proof.Machine.execVbakMeasure mv uah s
  | .recal f => Sys2Proof.Machine.execRecal f s
  | .pwrCntClr f => Sys2Proof.Machine.execPwrCntClr f s
  | .synEnable f => Sys2Proof.Machine.execSynEnable f s
  | .synLock band us => Sys2Proof.Machine.execSynLock band us s
  | .refLoss => Sys2Proof.Machine.execRefLoss s
  | .refBack => Sys2Proof.Machine.execRefBack s
  | .synUnlock => Sys2Proof.Machine.execSynUnlock s
  | .alignerRelease => Sys2Proof.Machine.execAlignerRelease s
  | .syncMissing => Sys2Proof.Machine.execSyncMissing s
  | .alnLock => Sys2Proof.Machine.execAlnLock s
  | .syncinEdge t ph => Sys2Proof.Machine.execSyncinEdge t ph s
  | .syncSlip => Sys2Proof.Machine.execSyncSlip s
  | .syncoutPulse => Sys2Proof.Machine.execSyncoutPulse s
  | .clkoutEnable f n en => Sys2Proof.Machine.execClkoutEnable f n en s
  | .atbBridge => Sys2Proof.Machine.execAtbBridge s
  | .rtcSecond => Sys2Proof.Machine.execRtcSecond s
  | .xkFail => Sys2Proof.Machine.execXkFail s
  | .rtcFreeze f r => Sys2Proof.Machine.execRtcFreeze f r s
  | .freezeTimeout => Sys2Proof.Machine.execFreezeTimeout s
  | .rtcHaltWrite f h => Sys2Proof.Machine.execRtcHaltWrite f h s
  | .secondsWrite f hi => Sys2Proof.Machine.execSecondsWrite f hi s
  | .rtcAlarmArm f hi => Sys2Proof.Machine.execRtcAlarmArm f hi s
  | .rtcAlarmFire => Sys2Proof.Machine.execRtcAlarmFire s
  | .rtcDisarm f => Sys2Proof.Machine.execRtcDisarm f s
  | .timerWrap k => Sys2Proof.Machine.execTimerWrap k s
  | .timerCompare k x => Sys2Proof.Machine.execTimerCompare k x s
  | .preloadWrite f k r v => Sys2Proof.Machine.execPreloadWrite f k r v s
  | .clr f k => Sys2Proof.Machine.execClr f k s
  | .timStart f v => Sys2Proof.Machine.execTimStart f v s
  | .timStop f v => Sys2Proof.Machine.execTimStop f v s
  | .eventPulse ch ph => Sys2Proof.Machine.execEventPulse ch ph s
  | .evrFire f ch => Sys2Proof.Machine.execEvrFire f ch s
  | .evrCntClr f => Sys2Proof.Machine.execEvrCntClr f s
  | .channelCfgWrite f ch v => Sys2Proof.Machine.execChannelCfgWrite f ch v s
  | .gpioEdge p lvl => Sys2Proof.Machine.execGpioEdge p lvl s
  | .gpioSet f v => Sys2Proof.Machine.execGpioSet f v s
  | .gpioClr f v => Sys2Proof.Machine.execGpioClr f v s
  | .twaWrite addr d => Sys2Proof.Machine.execTwaWrite addr d s
  | .twaRead addr n ready => Sys2Proof.Machine.execTwaRead addr n ready s
  | .twaTimeout => Sys2Proof.Machine.execTwaTimeout s
  | .start f v => Sys2Proof.Machine.execStart f v s
  | .twbDone r => Sys2Proof.Machine.execTwbDone r s
  | .stretchTimeout low => Sys2Proof.Machine.execStretchTimeout low s
  | .busRecovery => Sys2Proof.Machine.execBusRecovery s
  | .biasOn f n => Sys2Proof.Machine.execBiasOn f n s
  | .rampDone n => Sys2Proof.Machine.execRampDone n s
  | .biasOff f n => Sys2Proof.Machine.execBiasOff f n s
  | .biasTrip n => Sys2Proof.Machine.execBiasTrip n s
  | .biasFaultClr f n => Sys2Proof.Machine.execBiasFaultClr f n s
  | .biasCurrentSample n ma => Sys2Proof.Machine.execBiasCurrentSample n ma s
  | .ncmd c rd ra rb => Sys2Proof.Machine.execNcmd c rd ra rb s
  | .reservedOpcode c w => Sys2Proof.Machine.execReservedOpcode c w s
  | .badOpcode x => Sys2Proof.Machine.execBadOpcode x s
  | .taintEnd n b => Sys2Proof.Machine.execTaintEnd n b s
  | .gntDrop e k => Sys2Proof.Machine.execGntDrop e k s
  | .xkEdgesReturn => Sys2Proof.Machine.execXkEdgesReturn s
  | .supplyRecovery => Sys2Proof.Machine.execSupplyRecovery s
  | .holdoffEnd n => Sys2Proof.Machine.execHoldoffEnd n s
  | .busMasterEnable n en => Sys2Proof.Machine.execBusMasterEnable n en s

end Sys2Proof.Machine
end

