-- ==== Sys2Proof/WellFormed.lean ====
section
/-! DEFINITION. Which commands are well formed: the function exists by its number, each object lies in the range of the scope chapter, and
each field fits its place. Every arm is decidable and none looks at the state. -/

namespace Sys2Proof

/-- A function's number exists: virtual functions 1 to 63, supervisors 0 to 3 (R199). -/
def Fn.wf : Fn → Bool
  | .pf => true
  | .vf n => decide (0 < n) && decide (n < 64)
  | .sv n => decide (n < 4)

/-- The size of a function's BAR0 (R27, R29). -/
def Fn.barSize : Fn → Nat
  | .pf => 0x4000000
  | .vf _ => 0x100000
  | .sv _ => 0x4000000

/-- An offset of PRT inside a partition map (R212). -/
def mapEntry (off : Nat) : Bool :=
  (decide (0x1000 ≤ off) && decide (off < 0x1840)) || (decide (0x2000 ≤ off) && decide (off < 0x3100)) ||
    (decide (0x3200 ≤ off) && decide (off < 0x32C0))

/-- An offset of PRT that holds a share (R204, R212). -/
def shareEntry (off : Nat) : Bool :=
  off == 0x28 || (decide (0x100 ≤ off) && decide (off < 0x900) && [4, 8, 0xC, 0x10, 0x14, 0x18].contains ((off - 0x100) % 32))

/-- A command is well formed. -/
def Instr.wf : Instr → Bool
  | .powerOn _ => true
  | .resetNLow _ => true
  | .brownOut _ _ => true
  | .aonReset => true
  | .fullReset f key => f.wf && decide (key < 65536)
  | .radioReset f key => f.wf && decide (key < 65536)
  | .radioReload => true
  | .hostReset => true
  | .vfFlr n => decide (0 < n) && decide (n < 64)
  | .boot _ _ => true
  | .startWatchdogExpiry => true
  | .driverOk f => f.wf
  | .registerWrite f off size _ => f.wf && decide (off < f.barSize) && decide (0 < size)
  | .correlationStep b _ _ => decide (b < 2)
  | .noiseBlock b _ _ => decide (b < 2)
  | .routineStep n _ _ => decide (n < 8)
  | .overRange n _ _ => decide (n < 8)
  | .forcedStep n => decide (n < 8)
  | .overRangeEpisodeEnd n => decide (n < 8)
  | .antennaEnableWrite f _ => f.wf
  | .manAttWrite f n v => f.wf && decide (n < 8) && decide (v < 32)
  | .attLimWrite f n mn mx => f.wf && decide (n < 8) && decide (mn < 32) && decide (mx < 32)
  | .trimWrite f n v => f.wf && decide (n < 8) && decide (v < 65536)
  | .cnpCntClrBlock f => f.wf
  | .cnpCntClrPoints f => f.wf
  | .cnpCntClrAnt f => f.wf
  | .arm f => f.wf
  | .captureAbort f => f.wf
  | .forceTrig f => f.wf
  | .captureTrigger => true
  | .captureDone _ => true
  | .candidateAllocation => true
  | .sfdFound l _ _ _ _ => decide (l < 512)
  | .sfdTimeout l => decide (l < 512)
  | .phyHeaderCheck l _ _ => decide (l < 512)
  | .laneHeader l _ => decide (l < 512)
  | .headerAnswer l => decide (l < 512)
  | .receiveCell l _ => decide (l < 512)
  | .descriptorCell l => decide (l < 512)
  | .frameEnd l _ _ => decide (l < 512)
  | .deliveryDrop l => decide (l < 512)
  | .lneCntClrBlock f => f.wf
  | .lneCntClrPart f => f.wf
  | .lneCntClrFlt f => f.wf
  | .verifyIssue k => decide (k < 786432)
  | .verifyResult k => decide (k < 786432)
  | .frameCommit k => decide (k < 786432)
  | .engineDelivery k => decide (k < 786432)
  | .rxDelivery k => decide (k < 786432)
  | .ackBuild k => decide (k < 1024)
  | .ackWaitClose k => decide (k < 1024)
  | .deadlineExpiry h => decide (h < 65536)
  | .schedulerPlace h => decide (h < 65536)
  | .airtimePeriodBoundary => true
  | .tschSlotRead _ => true
  | .sequencerState _ => true
  | .sequencerClamp _ => true
  | .scheduleItem => true
  | .prepare e => decide (e < 1056)
  | .encryptResult e => decide (e < 1056)
  | .priming e => decide (e < 1056)
  | .primed e => decide (e < 1056)
  | .coexRequest e => decide (e < 1056)
  | .grantSample e _ => decide (e < 1056)
  | .commit e => decide (e < 1056)
  | .rampUp e => decide (e < 1056)
  | .rampDownEnd e => decide (e < 1056)
  | .coexRelease k => decide (k < 4)
  | .chainIdle n => decide (n < 8)
  | .kill f n => f.wf && decide (n < 8)
  | .chainFaultEvent n => decide (n < 8)
  | .cellFault e => decide (e < 1056)
  | .faultClr f n => f.wf && decide (n < 8)
  | .corrWrite f n x => f.wf && decide (n < 8) && decide (x < 512)
  | .corrRead f n x => f.wf && decide (n < 8) && decide (x < 512)
  | .clearValid f n x => f.wf && decide (n < 8) && decide (x < 512)
  | .tempGainDerive => true
  | .txcCntClrBlock f => f.wf
  | .txcCntClrChain f => f.wf
  | .txcCntClrCoex f => f.wf
  | .cmpArmWrite f k hi => f.wf && decide (k < 64) && decide (hi < 2 ^ 32)
  | .comparatorFire k => decide (k < 64)
  | .disarm f k => f.wf && decide (k < 64)
  | .panEntryWrite f k w _ => f.wf && decide (k < 64) && decide (w < 4)
  | .tschEnableWrite f _ => f.wf
  | .tschCellWrite f c w _ => f.wf && decide (c < 8192) && decide (w < 2)
  | .lnkCntClrBlock f => f.wf
  | .lnkCntClrPart f => f.wf
  | .nodeOpAdd f _ => f.wf
  | .nodeOpUpdate f _ => f.wf
  | .nodeOpPrune f _ => f.wf
  | .nodeOpRead f _ => f.wf
  | .nodeOpQset f _ => f.wf
  | .pruneComplete h => decide (h < 65536)
  | .sweepDone h => decide (h < 65536)
  | .ntwCapture f h => f.wf && decide (h < 65536)
  | .ntwWrite f off _ => f.wf && decide (off < 0x400000)
  | .rxReserveWrite f v => f.wf && decide (v < 2 ^ 20)
  | .queCntClrBlock f => f.wf
  | .queCntClrPart f => f.wf
  | .mapEntryWrite f off _ => f.wf && mapEntry off && off % 4 == 0
  | .shareWrite f off _ => f.wf && shareEntry off
  | .partitionEnableWrite f p _ => f.wf && decide (p < 64)
  | .full f p => f.wf && decide (p < 64)
  | .depart f p => f.wf && decide (p < 64)
  | .partitionResetDone p => decide (p < 64)
  | .fltPop f => f.wf
  | .prtCntClrBlock f => f.wf
  | .prtCntClrPart f => f.wf
  | .add c rd ra rb => decide (c < 68) && decide (rd < 32) && decide (ra < 32) && decide (rb < 32)
  | .sub c rd ra rb => decide (c < 68) && decide (rd < 32) && decide (ra < 32) && decide (rb < 32)
  | .andr c rd ra rb => decide (c < 68) && decide (rd < 32) && decide (ra < 32) && decide (rb < 32)
  | .orr c rd ra rb => decide (c < 68) && decide (rd < 32) && decide (ra < 32) && decide (rb < 32)
  | .xorr c rd ra rb => decide (c < 68) && decide (rd < 32) && decide (ra < 32) && decide (rb < 32)
  | .sll c rd ra rb => decide (c < 68) && decide (rd < 32) && decide (ra < 32) && decide (rb < 32)
  | .srl c rd ra rb => decide (c < 68) && decide (rd < 32) && decide (ra < 32) && decide (rb < 32)
  | .sra c rd ra rb => decide (c < 68) && decide (rd < 32) && decide (ra < 32) && decide (rb < 32)
  | .slt c rd ra rb => decide (c < 68) && decide (rd < 32) && decide (ra < 32) && decide (rb < 32)
  | .sltu c rd ra rb => decide (c < 68) && decide (rd < 32) && decide (ra < 32) && decide (rb < 32)
  | .min c rd ra rb => decide (c < 68) && decide (rd < 32) && decide (ra < 32) && decide (rb < 32)
  | .max c rd ra rb => decide (c < 68) && decide (rd < 32) && decide (ra < 32) && decide (rb < 32)
  | .mul c rd ra rb => decide (c < 68) && decide (rd < 32) && decide (ra < 32) && decide (rb < 32)
  | .mulhu c rd ra rb => decide (c < 68) && decide (rd < 32) && decide (ra < 32) && decide (rb < 32)
  | .mulh c rd ra rb => decide (c < 68) && decide (rd < 32) && decide (ra < 32) && decide (rb < 32)
  | .divu c rd ra rb => decide (c < 68) && decide (rd < 32) && decide (ra < 32) && decide (rb < 32)
  | .remu c rd ra rb => decide (c < 68) && decide (rd < 32) && decide (ra < 32) && decide (rb < 32)
  | .clz c rd ra => decide (c < 68) && decide (rd < 32) && decide (ra < 32)
  | .popc c rd ra => decide (c < 68) && decide (rd < 32) && decide (ra < 32)
  | .bswap c rd ra => decide (c < 68) && decide (rd < 32) && decide (ra < 32)
  | .addi c rd ra imm => decide (c < 68) && decide (rd < 32) && decide (ra < 32) && decide (imm < 65536)
  | .andi c rd ra imm => decide (c < 68) && decide (rd < 32) && decide (ra < 32) && decide (imm < 65536)
  | .ori c rd ra imm => decide (c < 68) && decide (rd < 32) && decide (ra < 32) && decide (imm < 65536)
  | .xori c rd ra imm => decide (c < 68) && decide (rd < 32) && decide (ra < 32) && decide (imm < 65536)
  | .slti c rd ra imm => decide (c < 68) && decide (rd < 32) && decide (ra < 32) && decide (imm < 65536)
  | .sltiu c rd ra imm => decide (c < 68) && decide (rd < 32) && decide (ra < 32) && decide (imm < 65536)
  | .lui c rd imm => decide (c < 68) && decide (rd < 32) && decide (imm < 65536)
  | .shi c rd ra imm => decide (c < 68) && decide (rd < 32) && decide (ra < 32) && decide (imm < 65536)
  | .extu c rd ra imm => decide (c < 68) && decide (rd < 32) && decide (ra < 32) && decide (imm < 65536)
  | .ins c rd ra imm => decide (c < 68) && decide (rd < 32) && decide (ra < 32) && decide (imm < 65536)
  | .lw c rd ra imm => decide (c < 68) && decide (rd < 32) && decide (ra < 32) && decide (imm < 65536)
  | .lh c rd ra imm => decide (c < 68) && decide (rd < 32) && decide (ra < 32) && decide (imm < 65536)
  | .lhu c rd ra imm => decide (c < 68) && decide (rd < 32) && decide (ra < 32) && decide (imm < 65536)
  | .lb c rd ra imm => decide (c < 68) && decide (rd < 32) && decide (ra < 32) && decide (imm < 65536)
  | .lbu c rd ra imm => decide (c < 68) && decide (rd < 32) && decide (ra < 32) && decide (imm < 65536)
  | .sw c rd ra imm => decide (c < 68) && decide (rd < 32) && decide (ra < 32) && decide (imm < 65536)
  | .sh c rd ra imm => decide (c < 68) && decide (rd < 32) && decide (ra < 32) && decide (imm < 65536)
  | .sb c rd ra imm => decide (c < 68) && decide (rd < 32) && decide (ra < 32) && decide (imm < 65536)
  | .lr c rd ra imm => decide (c < 68) && decide (rd < 32) && decide (ra < 32) && decide (imm < 65536)
  | .sc c rd ra rb => decide (c < 68) && decide (rd < 32) && decide (ra < 32) && decide (rb < 32)
  | .tas c rd ra imm => decide (c < 68) && decide (rd < 32) && decide (ra < 32) && decide (imm < 65536)
  | .beq c ra rb off => decide (c < 68) && decide (ra < 32) && decide (rb < 32) && decide (off < 65536)
  | .bne c ra rb off => decide (c < 68) && decide (ra < 32) && decide (rb < 32) && decide (off < 65536)
  | .blt c ra rb off => decide (c < 68) && decide (ra < 32) && decide (rb < 32) && decide (off < 65536)
  | .bge c ra rb off => decide (c < 68) && decide (ra < 32) && decide (rb < 32) && decide (off < 65536)
  | .bltu c ra rb off => decide (c < 68) && decide (ra < 32) && decide (rb < 32) && decide (off < 65536)
  | .bgeu c ra rb off => decide (c < 68) && decide (ra < 32) && decide (rb < 32) && decide (off < 65536)
  | .bbs c ra b off => decide (c < 68) && decide (ra < 32) && decide (b < 32) && decide (off < 65536)
  | .bbc c ra b off => decide (c < 68) && decide (ra < 32) && decide (b < 32) && decide (off < 65536)
  | .j c off => decide (c < 68) && decide (off < 2 ^ 26)
  | .jal c off => decide (c < 68) && decide (off < 2 ^ 26)
  | .jr c ra => decide (c < 68) && decide (ra < 32)
  | .jalr c rd ra => decide (c < 68) && decide (rd < 32) && decide (ra < 32)
  | .loop c ra off => decide (c < 68) && decide (ra < 32) && decide (off < 65536)
  | .loopi c cnt off => decide (c < 68) && decide (cnt < 1024) && decide (off < 65536)
  | .mfs c rd n => decide (c < 68) && decide (rd < 32) && decide (n < 65536)
  | .mts c n ra => decide (c < 68) && decide (n < 65536) && decide (ra < 32)
  | .nopInsn c => decide (c < 68)
  | .wfe c => decide (c < 68)
  | .wfeWake c => decide (c < 68)
  | .fence c => decide (c < 68)
  | .eret c => decide (c < 68)
  | .trap c code => decide (c < 68) && decide (code < 32)
  | .brk c => decide (c < 68)
  | .halt c => decide (c < 68)
  | .qrx c rd ra => decide (c < 68) && decide (rd < 32) && decide (ra < 32)
  | .crd c rd ra rb => decide (c < 68) && decide (rd < 32) && decide (ra < 32) && decide (rb < 32)
  | .crel c rd ra => decide (c < 68) && decide (rd < 32) && decide (ra < 32)
  | .qwr c rd ra rb => decide (c < 68) && decide (rd < 32) && decide (ra < 32) && decide (rb < 32)
  | .ntf c rd ra => decide (c < 68) && decide (rd < 32) && decide (ra < 32)
  | .lcmdCancel c rd ra => decide (c < 68) && decide (rd < 32) && decide (ra < 32)
  | .cmpArm c rd ra => decide (c < 68) && decide (rd < 32) && decide (ra < 32)
  | .cmpDisarm c rd ra => decide (c < 68) && decide (rd < 32) && decide (ra < 32)
  | .cellWr c rd ra => decide (c < 68) && decide (rd < 32) && decide (ra < 32)
  | .evtFire c rd ra => decide (c < 68) && decide (rd < 32) && decide (ra < 32)
  | .interrupt c => decide (c < 68)
  | .breakpoint c => decide (c < 68)
  | .engineRun f e => f.wf && decide (e < 64)
  | .engineHalt f e => f.wf && decide (e < 64)
  | .engineStep f e => f.wf && decide (e < 64)
  | .engineReset f e => f.wf && decide (e < 64)
  | .engineClear f e => f.wf && decide (e < 64)
  | .clearDone e => decide (e < 64)
  | .imemWrite f e off _ => f.wf && decide (e < 64) && decide (off < 0x8000) && off % 4 == 0
  | .wake f c => f.wf && decide (c < 8)
  | .clusterOn c => decide (c < 8)
  | .sleep f c => f.wf && decide (c < 8)
  | .supervisorRun f n => f.wf && decide (n < 4)
  | .supervisorHalt f n => f.wf && decide (n < 4)
  | .supervisorStep f n => f.wf && decide (n < 4)
  | .supervisorReset f n => f.wf && decide (n < 4)
  | .load f slot _ => f.wf && decide (slot < 65536)
  | .replace f slot _ => f.wf && decide (slot < 65536)
  | .erase f slot _ => f.wf && decide (slot < 65536)
  | .status f slot _ => f.wf && decide (slot < 65536)
  | .kopDone => true
  | .sealOp f long => f.wf && decide (long < 256)
  | .unsealOp f long => f.wf && decide (long < 256)
  | .sealDone => true
  | .markPop f => f.wf
  | .alarm a _ _ => decide (a < 6)
  | .alarmClear f _ _ => f.wf
  | .rngHealthFail _ => true
  | .rngOk => true
  | .reseed => true
  | .secCntClrBlock f => f.wf
  | .secCntClrPart f => f.wf
  | .portEnable f q => f.wf && decide (q < 1024)
  | .portDisable f q => f.wf && decide (q < 1024)
  | .portDisabled q => decide (q < 1024)
  | .sqTail f q _ => f.wf && decide (q < 1024)
  | .cqHead f q _ => f.wf && decide (q < 1024)
  | .fetch q _ => decide (q < 1024)
  | .nop x => decide (x < 16384)
  | .tx x _ => decide (x < 16384)
  | .cancel x => decide (x < 16384)
  | .postRx x => decide (x < 16384)
  | .rxFlush x => decide (x < 16384)
  | .nodeAdd x _ => decide (x < 16384)
  | .nodeUpdate x _ => decide (x < 16384)
  | .nodePrune x => decide (x < 16384)
  | .nodeRead x => decide (x < 16384)
  | .nodeQset x => decide (x < 16384)
  | .nodeExport x => decide (x < 16384)
  | .keyLoad x _ => decide (x < 16384)
  | .keyReplace x _ => decide (x < 16384)
  | .keyErase x => decide (x < 16384)
  | .keyStatus x => decide (x < 16384)
  | .engCtrl x => decide (x < 16384)
  | .engWrite x _ => decide (x < 16384)
  | .engRead x => decide (x < 16384)
  | .completionWrite q => decide (q < 1024)
  | .modTime q => decide (q < 1024)
  | .featureCommit f => f.wf
  | .vfEnable num => decide (num < 64)
  | .vfCntClr n => decide (0 < n) && decide (n < 64)
  | .hstCntClrBlock f => f.wf
  | .hstCntClrPart f => f.wf
  | .baseLoad f _ _ => f.wf
  | .liveLoad f _ => f.wf
  | .liveSwitch => true
  | .loadAbort f => f.wf
  | .loadDone => true
  | .graftCheck f _ => f.wf
  | .graftArm f _ => f.wf
  | .confirm f _ => f.wf
  | .raiseFloor f _ => f.wf
  | .withdraw f _ => f.wf
  | .graftDone => true
  | .write f _ => f.wf
  | .read f _ => f.wf
  | .resetGen f _ => f.wf
  | .ldgDone => true
  | .programKey f _ => f.wf
  | .revokeKey f _ => f.wf
  | .setLimit f _ => f.wf
  | .fuseDone _ => true
  | .program f _ => f.wf
  | .eraseSector f _ => f.wf
  | .eraseBlock f _ => f.wf
  | .suspend f _ => f.wf
  | .resume f _ => f.wf
  | .abort f _ => f.wf
  | .opDone _ _ => true
  | .windowRead f off flips => f.wf && decide (off < 4096) && decide (flips < 2 ^ 137)
  | .flashBrownOut _ => true
  | .run f => f.wf
  | .trim f => f.wf
  | .watch f => f.wf
  | .dormant f => f.wf
  | .quiescenceTimeout => true
  | .linkL2Ready => true
  | .wakeIn _ => true
  | .airWake chan sf _ => decide (chan < 256) && decide (sf < 4)
  | .wakeReturn _ => true
  | .wakeTimeout => true
  | .retentionLoss => true
  | .holdover => true
  | .leaveGrant => true
  | .tempSample temp => decide (-32768 ≤ temp) && decide (temp ≤ 32767)
  | .vbakMeasure mv _ => decide (mv < 4096)
  | .recal f => f.wf
  | .pwrCntClr f => f.wf
  | .synEnable f => f.wf
  | .synLock band _ => decide (band < 64)
  | .refLoss => true
  | .refBack => true
  | .synUnlock => true
  | .alignerRelease => true
  | .syncMissing => true
  | .alnLock => true
  | .syncinEdge _ ph => decide (ph < 192)
  | .syncSlip => true
  | .syncoutPulse => true
  | .clkoutEnable f n _ => f.wf && decide (n < 4)
  | .atbBridge => true
  | .rtcSecond => true
  | .xkFail => true
  | .rtcFreeze f r => f.wf && decide (r < 3)
  | .freezeTimeout => true
  | .rtcHaltWrite f _ => f.wf
  | .secondsWrite f hi => f.wf && decide (hi < 2 ^ 32)
  | .rtcAlarmArm f hi => f.wf && decide (hi < 2 ^ 32)
  | .rtcAlarmFire => true
  | .rtcDisarm f => f.wf
  | .timerWrap k => decide (k < 32)
  | .timerCompare k x => decide (k < 32) && decide (x < 2)
  | .preloadWrite f k r _ => f.wf && decide (k < 32) && decide (r < 3)
  | .clr f k => f.wf && decide (k < 32)
  | .timStart f _ => f.wf
  | .timStop f _ => f.wf
  | .eventPulse ch ph => decide (ch < 128) && decide (ph < 192)
  | .evrFire f ch => f.wf && decide (ch < 128)
  | .evrCntClr f => f.wf
  | .channelCfgWrite f ch _ => f.wf && decide (ch < 128)
  | .gpioEdge p _ => decide (p < 24)
  | .gpioSet f _ => f.wf
  | .gpioClr f _ => f.wf
  | .twaWrite _ _ => true
  | .twaRead _ _ _ => true
  | .twaTimeout => true
  | .start f _ => f.wf
  | .twbDone _ => true
  | .stretchTimeout _ => true
  | .busRecovery => true
  | .biasOn f n => f.wf && decide (n < 8)
  | .rampDone n => decide (n < 8)
  | .biasOff f n => f.wf && decide (n < 8)
  | .biasTrip n => decide (n < 8)
  | .biasFaultClr f n => f.wf && decide (n < 8)
  | .biasCurrentSample n ma => decide (n < 8) && decide (ma < 4096)
  | .ncmd c rd ra rb => decide (c < 68) && decide (rd < 32) && decide (ra < 32) && decide (rb < 32)
  | .reservedOpcode c w => decide (c < 68) && reservedWord w
  | .badOpcode x => decide (x < 16384)
  | .taintEnd n b => decide (n < 8) && decide (b < 2)
  | .gntDrop e k => decide (e < 1056) && decide (k < 4)
  | .xkEdgesReturn => true
  | .supplyRecovery => true
  | .holdoffEnd n => decide (n < 8)
  | .busMasterEnable n _ => decide (n < 64)

end Sys2Proof
end

