-- ==== Sys2Proof/Machine/Step.lean ====
section
/-! DEFINITION. One step: the command at the front of the queue takes effect on the machine with the queue's rest; on an empty queue one tick of
31.25 ns passes (DESIGN CHOICE, log entry 5). -/

namespace Sys2Proof.Machine

open Sys2Proof

/-- The step of the machine. -/
def step (s : State) : Host.Outcome State Fault Refusal :=
  match s.pending with
  | [] => .next (s.elapse 1)
  | c :: cs => exec c { s with pending := cs }

/-- The state with a command put at the front of its queue. -/
def State.push (s : State) (c : Instr) : State := { s with pending := c :: s.pending }

/-- The state with the command that a word of the operation table's bits spells put at the front of its queue; the table gives no row
bits, so no word spells one (log entry 8). -/
def State.withFetchWord (s : State) (nbits w : Nat) : State :=
  match decodeTableWord nbits w with
  | some c => s.push c
  | none => s

end Sys2Proof.Machine
end

