-- ==== Sys2Proof/Machine/Pins.lean ====
section
/-! DEFINITION. What the output pins show (R110, R132, R366, R370, R386, R387, R407, R415). No command depends on them. -/

namespace Sys2Proof.Machine

/-- The output pins: front-end enables, coexistence requests, bias gates, clock outputs, the grove pulse, the two-wire lines, general pins,
transmit converters, PWR_EN and IRQ_OUT (R422). -/
inductive Pin where
  | txenSub (n : Nat)
  | txen24 (n : Nat)
  | coexReq (k : Nat)
  | biasGate (n : Nat)
  | clkout (n : Nat)
  | syncout
  | twa
  | twb
  | gpio (p : Nat)
  | rfout (n : Nat)
  | pwrEn
  | irqOut
  deriving DecidableEq, Repr

/-- What a pin shows: a driven level; a signal that runs; an open line that its bus uses; a released line; no drive; a converter that is
off with its common mode held; no supply. -/
inductive Shown where
  | level (high : Bool)
  | runs
  | bus
  | released
  | highZ
  | dacOff
  | unpowered
  deriving DecidableEq, Repr

/-- A pin in RUN, TRIM and WATCH, and while the state changes. -/
def pinOn (s : State) : Pin → Shown
  | .txenSub n => .level (txenPin s n 0)
  | .txen24 n => .level (txenPin s n 1)
  | .coexReq k => .level (s.on (TXC_COEX_STS.REQ k) != s.on (TXC_COEX_CFG.REQ_POL k))
  | .biasGate n => .level (s.rd (BIAS_G_STS.STATE n) == 2 || s.rd (BIAS_G_STS.STATE n) == 3)
  | .clkout n => if s.on (clkoutEn n) then .runs else .level false
  | .syncout => if s.rd CLK_SYNCOUT_CFG.MODE = 0 then .level false else .runs
  | .twa => .bus
  | .twb => .bus
  | .gpio p => if bitOn (s.rd EVR_GPIO_DIR.OUT) p then .level (bitOn (s.rd EVR_GPIO_OUT.VAL) p) else .highZ
  | .rfout _ => .runs
  | .pwrEn => .level s.pwr.pwrEn
  | .irqOut => .level (s.on PWR_WAKE_STS.PENDING)

/-- A pin of bank A or B in DORMANT: released where its FLOAT bit says so, else as given (R370). -/
def floated (fl : Bool) (v : Shown) : Shown := if fl then .highZ else v

/-- A pin in DORMANT (R370). The registers stand as they were latched at entry. -/
def pinDormant (s : State) : Pin → Shown
  | .txenSub n => floated (s.on PWR_RET_CFG.FLOAT_A) (.level (s.on (TXC_CH_CFG.SUB_POL n)))
  | .txen24 n => floated (s.on PWR_RET_CFG.FLOAT_B) (.level (s.on (TXC_CH_CFG.B24_POL n)))
  | .coexReq k => floated (s.on PWR_RET_CFG.FLOAT_A) (.level (s.on (TXC_COEX_CFG.REQ_POL k)))
  | .biasGate _ => .level false
  | .clkout _ => floated (s.on PWR_RET_CFG.FLOAT_B) (.level false)
  | .syncout => floated (s.on PWR_RET_CFG.FLOAT_B) (.level false)
  | .twa => .released
  | .twb => .released
  | .gpio p => floated (if p < 12 then s.on PWR_RET_CFG.FLOAT_A else s.on PWR_RET_CFG.FLOAT_B) (pinOn s (.gpio p))
  | .rfout _ => .dacOff
  | .pwrEn => .level s.pwr.pwrEn
  | .irqOut => .level (s.on PWR_WAKE_STS.PENDING)

/-- A pin in HOLDOVER (R370). -/
def pinHoldover : Pin → Shown
  | .twa => .released
  | .twb => .released
  | .rfout _ => .unpowered
  | _ => .highZ

/-- What an output pin shows. -/
def pinShows (s : State) (p : Pin) : Shown :=
  match s.pwr.mode with
  | 0 => pinOn s p
  | 1 => pinDormant s p
  | _ => pinHoldover p

end Sys2Proof.Machine
end

