-- ==== Sys2Proof/Safety.lean ====
section
/-! DEFINITION. What the statements call a run that goes on, a register command that reaches its register, a core that executes its
instruction, and the canonical form of the machine's tables. -/

namespace Sys2Proof.Machine

/-- The command ends in a next state. -/
def goesOn (o : Host.Outcome State Fault Refusal) : Prop := ∃ t, o = .next t

/-- A register command of function f takes effect at offset off: the function exists and carries the P0 tag, VDD_CORE is on, and seedling
mode does not hide the register (R199, R330, R363). -/
abbrev reaches (s : State) (f : Fn) (off : Nat) : Prop := s.pwr.mode = 0 ∧ fnHere s f = true ∧ fnTag f = 0 ∧ s.hidden f off = false

/-- Core c executes its next instruction: it runs, no breakpoint stands there and the fetch raises nothing (R214, R233, R236). -/
abbrev executes (s : State) (c : Nat) : Prop := running s c = true ∧ bpHit s c = false ∧ fetchExc s c = none

/-- Core c goes on to the next instruction in sequence after this one: no open loop ends here, and neither a step nor a halt request stops it
(R220, R236). -/
abbrev inSequence (s : State) (c : Nat) : Prop :=
  atLoopEnd s c = false ∧ (s.core c).stepping = false ∧ (s.core c).haltReq = false

/-- The flash is in canonical form: no listed octet equals an erased one. -/
def flashWf (m : List Host.Cell) : Bool := swf (fun _ => (0xFF : Byte)) m

/-- A core's record is in order: its registers are held in canonical form and its program counter is a multiple of four (R215). -/
def coreWf (c : Nat) (k : FCore) : Bool := swf (fun _ => (0 : Word)) k.g && swf (sysReset c) k.sys && k.pc.toNat % 4 == 0

/-- The cores' table is in canonical form and every core's record is in order. -/
def coresWf (m : Sparse FCore) : Bool := swf (fun _ => ({} : FCore)) m && m.all (fun p => coreWf p.1 p.2)

/-- The machine's invariant: registers, the virtual functions' registers, memory, flash and cores are held in canonical form, so that
equal contents are equal data, and every program counter is a multiple of four. -/
def State.inv (s : State) : Bool :=
  swf regReset s.regs && swf vregInit s.vregs && Memory.wf s.mem && flashWf s.flash && coresWf s.eng.cores

/-- Fuses only ever blow: the anti-rollback floor does not fall, and a fused key, a revocation and a fused limit stay (R335, R336). -/
def fusesGrow (f g : Fuses) : Prop :=
  f.floor ≤ g.floor ∧ (∀ k ∈ f.revoked, k ∈ g.revoked) ∧ (∀ l, f.limit = some l → g.limit = some l) ∧
    ∀ k x, sfind f.keys k = some x → sfind g.keys k = some x

/-- Only the registers at the given offsets differ. -/
def onlyRegs (s t : State) (as : List Nat) : Prop := t = { s with regs := t.regs } ∧ ∀ a, a ∉ as → t.reg a = s.reg a

/-- Offset a lies outside the pending-bit array, in which an event can leave a message waiting (R291, R293). -/
def noPba (a : Nat) : Prop := a < HST_PBA.reg 0 ∨ HST_PBA.reg 64 ≤ a

/-- Only the registers at the given offsets differ, beside what a raised event brings with it: pulses, messages and the pending-bit arrays
(R291, R293, R405). -/
def raisedOnly (s t : State) (as : List Nat) : Prop :=
  t = { s with regs := t.regs, vregs := t.vregs, posted := t.posted, evr := t.evr } ∧ ∀ a, a ∉ as → noPba a → t.reg a = s.reg a

/-- Bit b of the event status of the block with that code is set (R405). -/
def flagged (t : State) (code b : Nat) : Prop := ∃ a, evtReg code = some a ∧ t.rd ⟨a, b, 1⟩ = 1

/-- Field f of t is v, and nothing else of the machine changed. -/
def sets (s t : State) (f : RegFld) (v : Nat) : Prop :=
  t.rd f = v ∧ onlyRegs s t [f.addr] ∧ ∀ lo w, lo + w ≤ f.lo ∨ f.lo + f.w ≤ lo → bf (t.reg f.addr) lo w = bf (s.reg f.addr) lo w

/-- The fields are zero, and no other register and nothing else of the machine changed. -/
def clears (s t : State) (fs : List RegFld) : Prop := (∀ f ∈ fs, t.rd f = 0) ∧ onlyRegs s t (fs.map (·.addr))

/-- Beside the given registers, only what a gain step brings differs: taint, the lanes' record of it, the attenuation that was in effect
before, blindness and its events (R42, R60, R62). -/
def stepOnly (s t : State) (as : List Nat) : Prop :=
  t = { s with regs := t.regs, vregs := t.vregs, posted := t.posted, evr := t.evr, lanes := t.lanes,
               cnp := { s.cnp with taints := t.cnp.taints, ants := t.cnp.ants, attLog := t.cnp.attLog } } ∧
    ∀ a, a ∉ as → a ∉ [CNP_TAINT_NOW.reg, CNP_STS.reg, CNP_BLIND_CNT.reg, CNP_EVT_STS.reg] → noPba a → t.reg a = s.reg a

/-- Antenna n is tainted on slice b over [lo, hi), and reads as tainted now (R59, R60). -/
def tainted (t : State) (n b lo hi : Nat) : Prop :=
  (∃ x ∈ t.cnp.taints, x.ant = n ∧ x.slice = b ∧ x.lo ≤ lo ∧ hi ≤ x.hi) ∧ bitOn (t.rd (taintNowF b)) n = true

/-- Only registers inside the given ranges [lo, hi) differ, and the pending-bit array. -/
def regsIn (s t : State) (rs : List (Nat × Nat)) : Prop :=
  ∀ a, noPba a → (∀ r ∈ rs, a < r.1 ∨ r.2 ≤ a) → t.reg a = s.reg a

/-- Lane l is free again, with the cause of its release; the pool has one lane more and the lane's account one less (R69). -/
def laneFreed (s t : State) (l cause : Nat) : Prop :=
  t.lanes = sdel s.lanes l ∧ t.rd (LNE_LANE_STS.STATE l) = 0 ∧ t.rd (LNE_LANE_STS.LAST_CAUSE l) = cause ∧
    t.rd LNE_POOL_STS.FREE = (s.rd LNE_POOL_STS.FREE + 1) % 1024 ∧
    (if s.on (LNE_LANE_STS.ATTRIB l)
     then t.rd (LNE_PSTS.IN_USE (s.rd (LNE_LANE_STS.PART l))) = s.rd (LNE_PSTS.IN_USE (s.rd (LNE_LANE_STS.PART l))) - 1
     else t.rd LNE_POOL_STS.UNATTR = s.rd LNE_POOL_STS.UNATTR - 1)

/-- What a command of the lanes can change beside the passing of time: lanes, cells, received frames, registers of the lane and queue blocks,
and what raised events bring. -/
def lanesOnly (s t : State) : Prop :=
  t = { s with regs := t.regs, vregs := t.vregs, posted := t.posted, evr := t.evr, free := t.free, lanes := t.lanes, que := t.que } ∧
    ∀ a, noPba a → (a < 0x200000 ∨ 0x300000 ≤ a) → (a < 0x500000 ∨ 0x600000 ≤ a) → (∀ p ∈ s.lanes, a ≠ LNE_LANE_STS.reg p.1) → t.reg a = s.reg a

/-- The data frame in staging entry e misses its window with a cause: its entry and cells are given up, the miss is logged, counted and
raised, and the frame is back at the head of its level (R122). -/
def missed (s t : State) (e cause : Nat) : Prop :=
  t.txc.ents = sdel s.txc.ents e ∧ t.rd (TXC_STAGE0.LAST_MISS e) = cause ∧
    t.rd (TXC_MISS_CNT.COUNT (cause - 1)) = min 0xFFFFFFFF (s.rd (TXC_MISS_CNT.COUNT (cause - 1)) + 1) ∧ flagged t 3 0 ∧
    t.que = (backToQueue (s.ent e) (freeCells (s.ent e).cells s)).que

/-- The host's command in context x stands fetched and unanswered: an opcode its function may use, with fields that meet R275, on a port that
stays enabled, with no duplicate waiting for it, and not held back by a RADIO reset (R275, R278, R438). -/
abbrev takes (s : State) (x op : Nat) (c : Ctx) : Prop :=
  s.ctx x = some c ∧ c.stage = 0 ∧ c.dupOf = none ∧ SQ.OPCODE.of c.sq = op ∧ (∃ r, opKnown s c = some r ∧ entryOk r c.sq = true) ∧
    resetWaits s c = false ∧ (s.port c.port).closing = false ∧ ∀ p ∈ s.hst.ctxs, p.2.dupOf ≠ some x

/-- The command of context x has its one final completion ready, last in the order of becoming ready (R276, R277). -/
def completed (s t : State) (x : Nat) (c : Ctx) (status detail value result : Nat) : Prop :=
  ∃ r : Ready, t.hst.ready = s.hst.ready ++ [r] ∧ r.port = c.port ∧ r.ctx = x ∧ t.ctx x = some { c with stage := 2, cpl := r.entry } ∧
    CQ.TAG.of r.entry = SQ.TAG.of c.sq ∧ CQ.STATUS.of r.entry = status ∧ CQ.KIND.of r.entry = 0 ∧ CQ.DETAIL.of r.entry = detail ∧
    CQ.NODE.of r.entry = SQ.NODE.of c.sq ∧ CQ.VALUE.of r.entry = value ∧ CQ.RESULT.of r.entry = result ∧ CQ.ATTEMPTS.of r.entry = 0

/-- Core c retired one instruction and stands at an address: its count is one up, and beside it only cores, memory and its parity may differ,
other cores in their reservation alone (R218, R221). -/
def advanced (s t : State) (c next : Nat) : Prop :=
  t.pcOf c = next % 2 ^ 32 ∧ t.rd (insnF c) = min 0xFFFFFFFF (s.rd (insnF c) + 1) ∧
    t = { s with regs := t.regs, eng := { s.eng with cores := t.eng.cores }, mem := t.mem, badPar := t.badPar } ∧
    (∀ a, a ≠ (insnF c).addr → t.reg a = s.reg a) ∧
    ∀ d, d ≠ c → ({ t.core d with resv := none } : FCore) = { s.core d with resv := none }

/-- Memory and every other core are as they were, and core c's system registers, loops and reservation too. -/
def quiet (s t : State) (c : Nat) : Prop :=
  t.mem = s.mem ∧ t.badPar = s.badPar ∧ (∀ d, d ≠ c → t.core d = s.core d) ∧ (t.core c).sys = (s.core c).sys ∧
    (t.core c).depth = (s.core c).depth ∧ (t.core c).resv = (s.core c).resv

/-- General register rd of core c is v, g0 apart, which stays zero; its other general registers are as they were (R215). -/
def wrote (s t : State) (c rd : Nat) (v : Word) : Prop := (rd ≠ 0 → t.g c rd = v) ∧ t.g c 0 = 0 ∧ ∀ r, r ≠ rd → t.g c r = s.g c r

/-- Core c enters its handler for an exception: none is being handled, EVEC is valid, and neither a step nor a halt request waits (R234). -/
abbrev excReady (s : State) (c : Nat) : Prop :=
  bf (s.sys c 0x14) 0 1 = 0 ∧ bf (s.sys c 0x13) 0 1 = 1 ∧ (s.core c).stepping = false ∧ (s.core c).haltReq = false

/-- Core c has entered its handler: EPC, ECAUSE and EVAL are saved, EX is set, a supervisor's level and interrupt enable go to PPL and PIE, the
pc is at EVEC's base, the reservation is gone, and nothing else changed (R234). -/
def tookExc (s t : State) (c cause eval ret : Nat) : Prop :=
  t.sys c 0x10 = BitVec.ofNat 32 ret ∧ t.sys c 0x11 = BitVec.ofNat 32 cause ∧ t.sys c 0x12 = BitVec.ofNat 32 eval ∧
    bf (t.sys c 0x14) 0 1 = 1 ∧
    (64 ≤ c → bf (t.sys c 0x14) 1 1 = 0 ∧ bf (t.sys c 0x14) 2 1 = 1 ∧ bf (t.sys c 0x14) 3 1 = bf (s.sys c 0x14) 2 1 ∧
      bf (t.sys c 0x14) 4 1 = bf (s.sys c 0x14) 1 1) ∧
    t.pcOf c = (s.sys c 0x13).toNat / 4 * 4 ∧ (t.core c).resv = none ∧ (t.core c).depth = (s.core c).depth ∧
    (∀ n, n ∉ [0x10, 0x11, 0x12, 0x14] → t.sys c n = s.sys c n) ∧ (∀ r, t.g c r = s.g c r) ∧ (∀ d, d ≠ c → t.core d = s.core d) ∧
    t = { s with eng := { s.eng with cores := t.eng.cores } }

/-- Core c has halted with a cause (R236). -/
def haltedBy (t : State) (c cause : Nat) : Prop :=
  t.rd (stateF c) = 0 ∧ t.rd (causeF c) = cause ∧ (t.core c).resv = none ∧ (t.core c).stepping = false ∧ (t.core c).haltReq = false

end Sys2Proof.Machine
end

