-- ==== Sys2Proof/Certificates/Slice0/Obligations.lean ====
section
/-! DEFINITION. The statements for the provers, one per obligation; OBLIGATIONS.json lists them in this order. -/

open Sys2Proof Sys2Proof.Machine

/-- A step takes the front command and runs it with the queue's rest (the model's form of command delivery, log entry 5). -/
def Obligations.FrontCommandRuns : Prop :=
  ∀ (c : Instr) (q : List Instr) (s : State), step { s with pending := c :: q } = exec c { s with pending := q }

/-- An empty queue lets one tick pass (log entry 5): ATB counts while it runs (R19), and no command's state moves. -/
def Obligations.EmptyQueueLetsOneTickPass : Prop :=
  ∀ s : State, s.pending = [] →
    ∃ t, step s = .next t ∧ t.now = s.now + 1 ∧ t.atb = (if s.atbRuns then s.atb + 1 else s.atb) ∧
      t = { s with regs := t.regs, tims := t.tims, rtc := t.rtc, now := t.now, atb := t.atb, clk := t.clk } ∧
      (s.inv = true → ∀ a, a < 0x30000 ∨ 0x50000 ≤ a → t.reg a = s.reg a)

/-- The invariant holds at reset. -/
def Obligations.ResetMeetsTheInvariant : Prop := State.reset.inv = true

/-- Every step keeps the invariant. -/
def Obligations.EveryStepKeepsTheInvariant : Prop := ∀ s t : State, s.inv = true → step s = .next t → t.inv = true

/-- Fuses are programmed once and never cleared (R335, R336). -/
def Obligations.FusesOnlyBlow : Prop := ∀ s t : State, s.inv = true → step s = .next t → fusesGrow s.fuses t.fuses

/-- No well-formed command stops the machine. -/
def Obligations.EveryWellFormedCommandGoesOn : Prop := ∀ (c : Instr) (s : State), c.wf = true → goesOn (exec c s)

/-- Commands leave the queue alone, and time does not run backwards. -/
def Obligations.CommandsLeaveTheQueueAndTime : Prop :=
  ∀ (c : Instr) (s t : State), s.inv = true → exec c s = .next t → t.pending = s.pending ∧ s.now ≤ t.now

/-- The radio blocks' counter clears. -/
def Obligations.RadioCounterClearsClearExactlyTheirCounters : Prop :=
  ∀ (f : Fn) (s : State), s.inv = true →
    (reaches s f CNP_CNT_CLR.reg →
      (∃ t, exec (.cnpCntClrBlock f) s = .next t ∧
        clears s t [CNP_DET_CNT.COUNT, CNP_PAIR_CNT.COUNT, CNP_SUPPR_CNT.COUNT, CNP_CAPT_CNT.COUNT, CNP_BLIND_CNT.SUB, CNP_BLIND_CNT.B24]) ∧
      (∃ t, exec (.cnpCntClrPoints f) s = .next t ∧ (∀ p, p < 2048 → t.rd (CNP_PT_DET.COUNT p) = 0) ∧ t = { s with regs := t.regs } ∧
        ∀ a, a < CNP_PT_DET.reg 0 ∨ CNP_PT_DET.reg 2048 ≤ a → t.reg a = s.reg a) ∧
      (∃ t, exec (.cnpCntClrAnt f) s = .next t ∧
        clears s t ((List.range 8).flatMap (fun n => [CNP_OVR_CNT.COUNT n, CNP_OVR_SMP.COUNT n, CNP_FORCE_CNT.COUNT n])))) ∧
    (reaches s f LNE_CNT_CLR.reg →
      (∃ t, exec (.lneCntClrBlock f) s = .next t ∧ t.rd LNE_POOL_MIN.MIN_FREE = s.rd LNE_POOL_STS.FREE ∧
        clears (s.wr LNE_POOL_MIN.MIN_FREE (s.rd LNE_POOL_STS.FREE)) t [LNE_CNT_GRANT.COUNT, LNE_CNT_EXHAUST.COUNT, LNE_CNT_REFUSED.COUNT,
          LNE_CNT_PAIRLOSS.COUNT, LNE_CNT_SFDTO.COUNT, LNE_CNT_HDRFAIL.COUNT, LNE_CNT_FCSFAIL.COUNT, LNE_CNT_HANDED.COUNT,
          LNE_CNT_DLVDROP_SH.COUNT]) ∧
      (∃ t, exec (.lneCntClrPart f) s = .next t ∧
        (∀ p k, p < 64 → k < 7 → t.rd (LNE_PCNT.COUNT p k) = 0) ∧
        (∀ p, p < 64 → t.rd (LNE_PSTS.PEAK p) = s.rd (LNE_PSTS.IN_USE p) ∧ t.rd (LNE_PSTS.IN_USE p) = s.rd (LNE_PSTS.IN_USE p)) ∧
        onlyRegs s t ((List.range 64).flatMap (fun p => LNE_PSTS.reg p :: (List.range 7).map (LNE_PCNT.reg p)))) ∧
      (∃ t, exec (.lneCntClrFlt f) s = .next t ∧ clears s t ((List.range 7).map LNE_FLT_CNT.COUNT))) ∧
    (reaches s f LNK_CNT_CLR.reg →
      (∃ t, exec (.lnkCntClrBlock f) s = .next t ∧
        clears s t [LNK_CNT_ACK.COUNT, LNK_CNT_ACK_NOCRED.COUNT, LNK_CNT_ENHACK_LATE.COUNT, LNK_CNT_DUP.COUNT, LNK_CNT_OOW.COUNT,
          LNK_CNT_ACK_MATCH.COUNT, LNK_CNT_PCLR.COUNT, LNK_CNT_PCLR_LATE.COUNT, LNK_CNT_DRIFT_UPD.COUNT, LNK_CNT_DRIFT_UNRES.COUNT,
          LNK_CNT_SEQ_CLAMP.COUNT]) ∧
      (∃ t, exec (.lnkCntClrPart f) s = .next t ∧
        clears s t ((List.range 64).flatMap (fun p => (List.range 4).map (LNK_PCNT.COUNT p))))) ∧
    (reaches s f TXC_CNT_CLR.reg →
      (∃ t, exec (.txcCntClrBlock f) s = .next t ∧
        clears s t ([TXC_CNT_COMMIT.COUNT, TXC_CNT_FAULT.COUNT, TXC_CNT_BURN.COUNT, TXC_CNT_ACK.COUNT] ++
          (List.range 7).flatMap (fun c => [TXC_MISS_CNT.COUNT c, TXC_SQ_CNT.COUNT c]))) ∧
      (∃ t, exec (.txcCntClrChain f) s = .next t ∧
        clears s t ((List.range 8).flatMap (fun n => [TXC_CH_CNT_COMMIT.COUNT n, TXC_CH_CNT_FAULT.COUNT n]))) ∧
      (∃ t, exec (.txcCntClrCoex f) s = .next t ∧
        clears s t ((List.range 4).flatMap (fun k => [TXC_COEX_DENIED.COUNT k, TXC_COEX_GDROP.COUNT k, TXC_COEX_REQS.COUNT k]))))

/-- The service blocks' counter clears. -/
def Obligations.ServiceCounterClearsClearExactlyTheirCounters : Prop :=
  ∀ (f : Fn) (s : State), s.inv = true →
    (reaches s f QUE_CNT_CLR.reg →
      (∃ t, exec (.queCntClrBlock f) s = .next t ∧ t.rd QUE_FREE_MIN.MIN = s.rd QUE_STS.FREE ∧
        clears (s.wr QUE_FREE_MIN.MIN (s.rd QUE_STS.FREE)) t [QUE_CNT_WR_FULL.COUNT, QUE_CNT_CELL_PAR.COUNT, QUE_CNT_CTX_PAR.COUNT,
          QUE_CNT_RX_PAR_DROP.COUNT, QUE_CNT_POISON_REJ.COUNT, QUE_CNT_PRUNED.COUNT, QUE_CNT_IDX_FAIL.COUNT, QUE_CNT_NTW_WR.COUNT]) ∧
      (∃ t, exec (.queCntClrPart f) s = .next t ∧ clears s t ((List.range 64).map QUE_PFULL.COUNT))) ∧
    (reaches s f PRT_CNT_CLR.reg →
      (∃ t, exec (.prtCntClrBlock f) s = .next t ∧ clears s t [PRT_CNT_BCAST.COUNT, PRT_CNT_BCAST_SKIP.COUNT]) ∧
      (∃ t, exec (.prtCntClrPart f) s = .next t ∧
        clears s t ((List.range 64).flatMap (fun p => (List.range 4).map (PRT_PCNT.COUNT p))))) ∧
    (reaches s f SEC_CNT_CLR.reg →
      (∃ t, exec (.secCntClrBlock f) s = .next t ∧
        clears s t [SEC_CNT_VERIFY_OK.COUNT, SEC_CNT_MIC_FAIL.COUNT, SEC_CNT_KEY_MISMATCH.COUNT, SEC_CNT_NO_KEY.COUNT,
          SEC_CNT_LOW_LEVEL.COUNT, SEC_CNT_FC_MAX.COUNT, SEC_CNT_NO_EXT.COUNT, SEC_CNT_BAD_LEVEL.COUNT, SEC_CNT_ENCRYPT.COUNT,
          SEC_CNT_EXHAUST.COUNT, SEC_CNT_ABORTED.COUNT, SEC_CNT_KOP_FAIL.COUNT]) ∧
      (∃ t, exec (.secCntClrPart f) s = .next t ∧
        clears s t ((List.range 64).flatMap (fun p => (List.range 4).map (SEC_PCNT.COUNT p))))) ∧
    (reaches s f HST_CNT_CLR.reg →
      (∃ t, exec (.hstCntClrBlock f) s = .next t ∧ t.rd HST_CTX_MIN.MIN_FREE = 16384 - s.hst.ctxs.length ∧
        clears (s.wr HST_CTX_MIN.MIN_FREE (16384 - s.hst.ctxs.length)) t
          [HST_CNT_FETCH.COUNT, HST_CNT_CPL.COUNT, HST_CNT_DMA_ERR.COUNT, HST_CNT_CTX_STALL.COUNT]) ∧
      (∃ t, exec (.hstCntClrPart f) s = .next t ∧
        clears s t ((List.range 64).flatMap (fun p => (List.range 8).map (HST_PCNT.COUNT p))))) ∧
    (reaches s f PWR_CNT_CLR.reg → ∃ t, exec (.pwrCntClr f) s = .next t ∧
      clears s t [PWR_AIR_CNT.COUNT, PWR_CNT_AON_BO.COUNT, PWR_CNT_GRANT.COUNT, PWR_CNT_REFUSED.COUNT, PWR_CNT_WAITED.COUNT, PWR_CNT_TRIP.COUNT]) ∧
    (reaches s f EVR_CNT_CLR.reg → ∃ t, exec (.evrCntClr f) s = .next t ∧ clears s t ((List.range 128).map EVR_CH_CNT.COUNT)) ∧
    (∀ p, 0 < p → p < 64 → s.pwr.mode = 0 → (s.func p).on = true → ∃ t, exec (.vfCntClr p) s = .next t ∧
      clears s t ((List.range 7).map (LNE_PCNT.COUNT p) ++ (List.range 4).map (LNK_PCNT.COUNT p) ++ [QUE_PFULL.COUNT p] ++
        (List.range 4).map (PRT_PCNT.COUNT p) ++ (List.range 4).map (SEC_PCNT.COUNT p) ++ (List.range 8).map (HST_PCNT.COUNT p)))

/-- The capture's transitions (R63-R67). -/
def Obligations.CaptureCommandsMoveTheCapture : Prop :=
  ∀ (f : Fn) (s : State), s.inv = true → reaches s f CNP_CAP_CTRL.reg →
    (s.rd CNP_CAP_STS.STATE ∈ [0, 4, 5] → capValid s = true →
      ∃ t l, exec (.arm f) s = .next t ∧ l.who = .capture ∧ l.mw = s.budget 9 ∧ l.part = 0 ∧ t.pwr.waiters = s.pwr.waiters ++ [l] ∧
        t.pwr.held = s.pwr.held ∧ t.rd CNP_CAP_STS.STATE = 1 ∧ t.rd CNP_CAP_STS.CAUSE = 0 ∧ t.rd CNP_CAP_STS.LATE = 0 ∧
        onlyRegs { s with cnp := t.cnp, pwr := t.pwr } t [CNP_CAP_STS.reg, PWR_CNT_WAITED.reg, PRT_PCNT.reg 0 2]) ∧
    (s.rd CNP_CAP_STS.STATE ∈ [0, 4, 5] → capValid s = false →
      ∃ t, exec (.arm f) s = .next t ∧ t.rd CNP_CAP_STS.STATE = 5 ∧ t.rd CNP_CAP_STS.CAUSE = 4 ∧ t.rd CNP_CAP_STS.LATE = 0 ∧ flagged t 1 5 ∧
        raisedOnly s t [CNP_CAP_STS.reg, CNP_EVT_STS.reg]) ∧
    (s.rd CNP_CAP_STS.STATE ∈ [1, 2, 3] → exec (.arm f) s = .next s) ∧
    (s.rd CNP_CAP_STS.STATE ∈ [1, 2, 3] →
      ∃ t, exec (.captureAbort f) s = .next t ∧ t.rd CNP_CAP_STS.STATE = 5 ∧ t.rd CNP_CAP_STS.CAUSE = 1 ∧ flagged t 1 5 ∧
        raisedOnly { s.returnLeave .capture with cnp := { s.cnp with capAir := t.cnp.capAir }, free := t.free } t [CNP_CAP_STS.reg, CNP_EVT_STS.reg]) ∧
    (s.rd CNP_CAP_STS.STATE ∈ [0, 4, 5] → exec (.captureAbort f) s = .next s) ∧
    (s.rd CNP_CAP_STS.STATE = 2 → ∃ t, exec (.forceTrig f) s = .next t ∧
      sets { s with cnp := { s.cnp with capAt := s.atb } } t CNP_CAP_STS.STATE 3) ∧
    (s.rd CNP_CAP_STS.STATE ≠ 2 → exec (.forceTrig f) s = .next s ∧ exec .captureTrigger s = .next s) ∧
    (s.rd CNP_CAP_STS.STATE = 2 → s.rd CNP_CAP_CFG.TRIG = 2 →
      let x := s.rd64 CNP_CAP_TRIG_ATB_LO.reg
      ∃ t, exec .captureTrigger s = .next t ∧ sets { s.at_ x with cnp := { s.cnp with capAt := x } } t CNP_CAP_STS.STATE 3) ∧
    (∀ x, s.rd CNP_CAP_STS.STATE = 2 → (s.rd CNP_CAP_CFG.TRIG = 0 ∧ s.cnp.capFrom = x ∨ s.rd CNP_CAP_CFG.TRIG = 3 ∧ s.cnp.capPulse = some x ∨
        s.rd CNP_CAP_CFG.TRIG = 4 ∧ s.cnp.capOvr = some x ∨ s.rd CNP_CAP_CFG.TRIG = 5 ∧ s.cnp.capCand = some x) →
      ∃ t, exec .captureTrigger s = .next t ∧ sets { s with cnp := { s.cnp with capAt := x } } t CNP_CAP_STS.STATE 3) ∧
    (s.rd CNP_CAP_STS.STATE ≠ 3 → ∀ air, exec (.captureDone air) s = .next s) ∧
    (s.rd CNP_CAP_STS.STATE = 3 → capValid s = true → ∀ air : List (Int × Int),
      let m := if s.rd CNP_CAP_CFG.SOURCE = 0 then 1 else capAnts s
      let done := (s.at_ (capEnd s)).returnLeave .capture
      let at_ := fun (j : Nat) => capWord s (capBase s + j / m) (j % m)
      ∃ t, exec (.captureDone air) s = .next t ∧ t.rd CNP_CAP_STS.STATE = 4 ∧ t.rd CNP_CAP_FIRST.IDX = at_ 0 ∧
        t.rd CNP_CAP_TRIG_IDX.IDX = at_ (m * capPre s) ∧ flagged t 1 4 ∧
        t.rd64 CNP_CAP_ATB_LO.reg = capTick s (capFirst s s.cnp.capAt - capPre s) % 2 ^ 64 ∧
        (∀ j, j < air.length → j < m * (capPre s + capPost s) →
          (s.rd CNP_CAP_CFG.SOURCE ≠ 0 → (t.reg (CNP_CAP_MEM.reg (at_ j))).toNat = unsgn 16 (air.getD j (0, 0)).1 + 65536 * unsgn 16 (air.getD j (0, 0)).2) ∧
          (s.rd CNP_CAP_CFG.SOURCE = 0 → bf (t.reg (CNP_CAP_MEM.reg (at_ j))) (16 * ((capBase s + j) % capSize s % 2)) 16 =
            unsgn 16 (sgn 12 (unsgn 12 (air.getD j (0, 0)).1)))) ∧
        t = { done with regs := t.regs, vregs := t.vregs, posted := t.posted, evr := t.evr, cnp := { s.cnp with capAir := t.cnp.capAir } } ∧
        ∀ a, a ∉ [CNP_CAP_STS.reg, CNP_CAP_FIRST.reg, CNP_CAP_TRIG_IDX.reg, CNP_CAP_ATB_LO.reg, CNP_CAP_ATB_HI.reg, CNP_EVT_STS.reg] →
          (∀ k, k < 131072 → a ≠ CNP_CAP_MEM.reg k) → noPba a → t.reg a = done.reg a)

/-- The attenuation of one antenna under the gain commands (R54-R57, R60). -/
def Obligations.GainCommandsMoveTheAttenuation : Prop :=
  ∀ (f : Fn) (s : State) (n : Nat), s.inv = true → n < 8 →
    (∀ v, v < 32 → reaches s f (CNP_ATT.reg n) →
      ∃ t, exec (.manAttWrite f n v) s = .next t ∧ t.rd (CNP_ATT.MAN_ATT n) = v ∧
        t.rd (CNP_ATT.ATT n) = (if s.rd (CNP_ATT.MODE n) = 2 then min (max v (s.rd (CNP_ATT_LIM.MIN n))) (s.rd (CNP_ATT_LIM.MAX n))
          else s.rd (CNP_ATT.ATT n)) ∧
        (t.rd (CNP_ATT.ATT n) ≠ s.rd (CNP_ATT.ATT n) → (n, s.atb, s.rd (CNP_ATT.ATT n)) ∈ t.cnp.attLog ∧
          ∀ b, b < 2 → tainted t n b (s.atb - sliceD s b) (s.atb + sliceClean s b)) ∧
        stepOnly s t [CNP_ATT.reg n]) ∧
    (∀ mn mx, mn < 32 → mx < 32 → reaches s f (CNP_ATT_LIM.reg n) →
      (s.cnpLocked = true ∨ mx < mn → exec (.attLimWrite f n mn mx) s = .next s) ∧
      (s.cnpLocked = false → mn ≤ mx →
        ∃ t, exec (.attLimWrite f n mn mx) s = .next t ∧ t.rd (CNP_ATT_LIM.MIN n) = mn ∧ t.rd (CNP_ATT_LIM.MAX n) = mx ∧
          t.rd (CNP_ATT.ATT n) = min (max (s.rd (CNP_ATT.ATT n)) mn) mx ∧ t.rd (CNP_ATT.MODE n) = s.rd (CNP_ATT.MODE n) ∧
          (t.rd (CNP_ATT.ATT n) ≠ s.rd (CNP_ATT.ATT n) → ∀ b, b < 2 → tainted t n b (s.atb - sliceD s b) (s.atb + sliceClean s b)) ∧
          stepOnly s t [CNP_ATT.reg n, CNP_ATT_LIM.reg n])) ∧
    (∀ v, v < 65536 → reaches s f (CNP_DLY.reg n) →
      (s.cnpLocked = true → exec (.trimWrite f n v) s = .next s) ∧
      (s.cnpLocked = false →
        ∃ t, exec (.trimWrite f n v) s = .next t ∧ t.rd (CNP_DLY.DELAY n) = v ∧
          (v ≠ s.rd (CNP_DLY.DELAY n) → ∀ b, b < 2 → tainted t n b (s.atb - sliceD s b) (s.atb + sliceClean s b)) ∧
          stepOnly s t [CNP_DLY.reg n])) ∧
    (∀ peak mean : Int, streamsOn s = false → exec (.routineStep n peak mean) s = .next s) ∧
    (∀ peak mean : Int, streamsOn s = true →
      ∃ t, exec (.routineStep n peak mean) s = .next t ∧ t.rd (CNP_PWR.PEAK n) = unsgn 16 peak ∧ t.rd (CNP_PWR.MEAN n) = unsgn 16 mean ∧
        t.rd (CNP_ATT.ATT n) =
          (if s.rd (CNP_ATT.MODE n) ≠ 0 ∨ (s.ant n).stepInt = true then s.rd (CNP_ATT.ATT n)
           else if -(4 * (s.rd CNP_GAIN_CFG.HI : Int)) ≤ peak then min (s.rd (CNP_ATT.ATT n) + 1) (s.rd (CNP_ATT_LIM.MAX n))
           else if peak < -(4 * (s.rd CNP_GAIN_CFG.LO : Int)) ∧ (s.ant n).ovrInt = false then
             max (s.rd (CNP_ATT.ATT n) - 1) (s.rd (CNP_ATT_LIM.MIN n))
           else s.rd (CNP_ATT.ATT n)) ∧
        t.rd (CNP_ATT.MODE n) = s.rd (CNP_ATT.MODE n) ∧
        t.cnp.ants = sset (fun _ => {}) s.cnp.ants n { s.ant n with ovrInt := false, stepInt := false } ∧
        stepOnly (s.at_ (routineAt s.atb n)) t [CNP_PWR.reg n, CNP_ATT.reg n]) ∧
    ((s.ant n).dues = [] → exec (.forcedStep n) s = .next s) ∧
    (∀ d ds, (s.ant n).dues = d :: ds → s.rd (CNP_ATT.MODE n) = 2 →
      exec (.forcedStep n) s = .next ((s.at_ d).setAnt n { s.ant n with dues := ds })) ∧
    (∀ d ds, (s.ant n).dues = d :: ds → s.rd (CNP_ATT.MODE n) ≠ 2 →
      (s.rd (CNP_ATT.ATT n) < s.rd (CNP_ATT_LIM.MAX n) →
        ∃ t, exec (.forcedStep n) s = .next t ∧
          t.rd (CNP_ATT.ATT n) = min (s.rd (CNP_ATT.ATT n) + s.rd CNP_GAIN_CFG.FORCE_STEP) (s.rd (CNP_ATT_LIM.MAX n)) ∧
          t.rd (CNP_FORCE_CNT.COUNT n) = min 0xFFFFFFFF (s.rd (CNP_FORCE_CNT.COUNT n) + 1) ∧ (t.ant n).dues = ds ∧
          (t.atb < d + 65536 → ∀ b, b < 2 → tainted t n b (d - sliceD s b) (d + sliceClean s b)) ∧
          stepOnly (s.at_ d) t [CNP_ATT.reg n, CNP_FORCE_CNT.reg n]) ∧
      (s.rd (CNP_ATT_LIM.MAX n) ≤ s.rd (CNP_ATT.ATT n) →
        ∃ t, exec (.forcedStep n) s = .next t ∧ (t.ant n).dues = ds ∧ bitOn (t.rd CNP_ATTMAX_STS.AT_MAX) n = true ∧ flagged t 1 3 ∧
          stepOnly (s.at_ d) t [CNP_ATTMAX_STS.reg]))

/-- Over-range episodes and the ends of taint (R56, R58, R59, R62). -/
def Obligations.OverRangeOpensAndClosesAnEpisode : Prop :=
  ∀ (s : State) (n : Nat), s.inv = true → n < 8 →
    (∀ t samples, streamsOn s = false → exec (.overRange n t samples) s = .next s) ∧
    (∀ t samples, streamsOn s = true →
      ∃ u, exec (.overRange n t samples) s = .next u ∧ (u.ant n).active = true ∧ (u.ant n).last = t ∧ (u.ant n).ovrInt = true ∧
        u.rd (CNP_OVR_SMP.COUNT n) = min 0xFFFFFFFF (s.rd (CNP_OVR_SMP.COUNT n) + samples) ∧
        (∀ b, b < 2 → u.atb < t + 65536 →
          tainted u n b ((if (s.ant n).active then (s.ant n).last else t) - sliceD s b) (t + sliceClean s b)) ∧
        u.cnp.ants = sset (fun _ => {}) s.cnp.ants n (u.ant n) ∧
        ((s.ant n).active = false →
          bitOn (u.rd CNP_OVR_STS.OVR) n = true ∧ u.rd (CNP_OVR_CNT.COUNT n) = min 0xFFFFFFFF (s.rd (CNP_OVR_CNT.COUNT n) + 1) ∧
            flagged u 1 0 ∧ (s.rd (CNP_ATT.MODE n) ≠ 2 → t + 64 ∈ (u.ant n).dues)) ∧
        ((s.ant n).active = true → u.rd (CNP_OVR_CNT.COUNT n) = s.rd (CNP_OVR_CNT.COUNT n)) ∧
        stepOnly { s.at_ t with cnp := { s.cnp with capOvr := u.cnp.capOvr } } u [CNP_OVR_STS.reg, CNP_OVR_CNT.reg n, CNP_OVR_SMP.reg n]) ∧
    ((s.ant n).active = true →
      exec (.overRangeEpisodeEnd n) s = .next ((s.at_ ((s.ant n).last + 1536)).setAnt n { s.ant n with active := false })) ∧
    ((s.ant n).active = false → exec (.overRangeEpisodeEnd n) s = .next s) ∧
    (∀ b, b < 2 → taintEndAt s n b = none → exec (.taintEnd n b) s = .next s) ∧
    (∀ b e, b < 2 → taintEndAt s n b = some e → e ≤ (s.at_ e).atb →
      ∃ u, exec (.taintEnd n b) s = .next u ∧ bitOn (u.rd (taintNowF b)) n = false ∧
        (antEnabled s n = true → u.rd (blindF b) = 0) ∧
        (∀ m, m ≠ n → m < 8 → bitOn (u.rd (taintNowF b)) m = bitOn (s.rd (taintNowF b)) m) ∧
        (∀ p ∈ s.lanes, laneSlice p.2 = b → bitOn p.2.wmask n = true → p.2.atts ≠ [] →
          ∃ y, (p.1, y) ∈ u.lanes ∧ y.wdb.getD n 0 = (s.rd (CNP_ATT.ATT n) : Int) - (p.2.atts.getD n 0 : Nat)) ∧
        raisedOnly { s.at_ e with lanes := u.lanes } u [CNP_TAINT_NOW.reg, CNP_STS.reg, CNP_BLIND_CNT.reg, CNP_EVT_STS.reg])

/-- Search, noise estimates and antenna enables (R45-R53, R67). -/
def Obligations.SearchFillsTheCandidateQueueInOrder : Prop :=
  ∀ (s : State) (b : Nat), s.inv = true → b < 2 →
    (∀ t obs, searchOn s = false → exec (.correlationStep b t obs) s = .next s) ∧
    (∀ t obs, searchOn s = true →
      ∃ u added, exec (.correlationStep b t obs) s = .next u ∧ u.cnp.cands = s.cnp.cands ++ added ∧
        (∀ c ∈ added, c.ts = t ∧ rateSlice c.rate = b ∧ s.on (CNP_POINT.EN c.point) = true ∧ ∃ o ∈ obs, o.point = c.point) ∧
        (s.cnp.cands.length ≤ 64 → u.cnp.cands.length ≤ 64) ∧
        u = { s.at_ (t + sliceD s b) with regs := u.regs, vregs := u.vregs, posted := u.posted, evr := u.evr, cnp := u.cnp }) ∧
    (∀ t (o : PointObs) e, searchOn s = true → rateSlice (s.rd (CNP_POINT.RATE o.point)) = b → evalPoint (s.at_ (t + sliceD s b)) t o = some e →
      detects s e = true → s.on (blindF b) = false → (sget (fun _ => (0, 0)) s.cnp.holds (groupOf s o.point)).1 ≤ t →
      (∀ w ∈ s.cnp.pairs, sameChan w.khz (chanKhz s (s.rd (CNP_POINT.GRID o.point)) (s.rd (CNP_POINT.CHAN o.point))) = false ∨ w.ts + 1024 < t) →
      s.cnp.cands.length < 64 →
      ∃ u c, exec (.correlationStep b t [o]) s = .next u ∧ u.cnp.cands = s.cnp.cands ++ [c] ∧ c.ts = t ∧ c.point = o.point ∧
        c.grid = s.rd (CNP_POINT.GRID o.point) ∧ c.chan = s.rd (CNP_POINT.CHAN o.point) ∧ c.rate = s.rd (CNP_POINT.RATE o.point) ∧
        c.fofs = unsgn 20 (pointOfs s o.point * twoTol c.rate + o.resid) ∧ c.score = e.score ∧ c.k = e.k ∧ c.kind = 0 ∧ c.pairId = s.cnp.nextPair ∧
        u.cnp.nextPair = (s.cnp.nextPair + 1) % 1024 ∧ u.rd (CNP_PT_STS.LAST_SCORE o.point) = e.score ∧
        u.rd CNP_DET_CNT.COUNT = min 0xFFFFFFFF (s.rd CNP_DET_CNT.COUNT + 1) ∧
        u.rd (CNP_PT_DET.COUNT o.point) = min 0xFFFFFFFF (s.rd (CNP_PT_DET.COUNT o.point) + 1) ∧
        sget (fun _ => (0, 0)) u.cnp.holds (groupOf s o.point) =
          (t + s.rd (CNP_THR.HOLDOFF (s.rd (CNP_POINT.THR_CLASS o.point))) * 16, e.score)) ∧
    (∀ t obs, streamsOn s = false ∨ t % 32000 ≠ 0 → exec (.noiseBlock b t obs) s = .next s) ∧
    (∀ t (o : NoiseObs), streamsOn s = true → t % 32000 = 0 →
      let p := o.point
      let d := sget (fun _ => 0) s.cnp.detAt p
      let takes := fun (n : Nat) => antEnabled s n && !taintedIn s n b (t - 32000) t
      let whole := s.on (CNP_POINT.EN p) = true ∧ rateSlice (s.rd (CNP_POINT.RATE p)) = b ∧ noiseFrom s p + 32000 ≤ t
      let hit := t - 32000 + 1 < d ∧ d ≤ t + 1
      (2048 ≤ p ∨ ¬whole ∨ hit → exec (.noiseBlock b t [o]) s = .next (s.at_ (t + sliceD s b))) ∧
      (p < 2048 → whole → ¬hit → (∃ n, n < 8 ∧ (takes n = true ∨ noiseOf s p n ≠ 0)) →
        ∃ u, exec (.noiseBlock b t [o]) s = .next u ∧ u.rd (CNP_PT_STS.NOISE p) = noiseLevel ((List.range 8).map (noiseOf u p)) ∧
          (∀ n, n < 8 → noiseOf u p n = if takes n then o.power.getD n 0 + 1 else noiseOf s p n) ∧
          onlyRegs { s.at_ (t + sliceD s b) with cnp := { s.cnp with noise := u.cnp.noise } } u [CNP_PT_STS.reg p])) ∧
    (∀ (f : Fn) (v : Word), reaches s f CNP_ANT_EN.reg →
      ∃ u, exec (.antennaEnableWrite f v) s = .next u ∧ u.rd CNP_ANT_EN.EN = v.toNat % 256 ∧
        (∀ n, n < 8 → antEnabled s n = false → antEnabled u n = true → tainted u n b s.atb (s.atb + sliceClean s b)) ∧
        (∀ n, n < 8 → antEnabled s n = true → antEnabled u n = false → bitOn (s.rd CNP_CAP_CFG.ANT_MASK) n = true →
          s.rd CNP_CAP_STS.STATE ∈ [1, 2, 3] → u.rd CNP_CAP_STS.STATE = 5 ∧ u.rd CNP_CAP_STS.CAUSE = 3 ∧ flagged u 1 5) ∧
        u = { s with regs := u.regs, vregs := u.vregs, posted := u.posted, evr := u.evr, free := u.free, lanes := u.lanes, cnp := u.cnp, pwr := u.pwr } ∧
        ∀ a, a ∉ [CNP_ANT_EN.reg, CNP_TAINT_NOW.reg, CNP_STS.reg, CNP_BLIND_CNT.reg, CNP_EVT_STS.reg, CNP_CAP_STS.reg] → noPba a →
          u.reg a = s.reg a)

/-- Candidate allocation (R70, R71). -/
def Obligations.AllocatorTakesTheHeadCandidate : Prop :=
  ∀ (s : State), s.inv = true →
    (s.cnp.cands = [] → exec .candidateAllocation s = .next s) ∧
    (∀ c cs, s.cnp.cands = c :: cs → accepting s = false →
      ∃ t, exec .candidateAllocation s = .next t ∧
        sets { s with cnp := { s.cnp with cands := cs } } t LNE_CNT_REFUSED.COUNT (min 0xFFFFFFFF (s.rd LNE_CNT_REFUSED.COUNT + 1))) ∧
    (∀ c cs, s.cnp.cands = c :: cs → accepting s = true → (∀ l, l < laneLimit s → (s.lane l).isSome = true) →
      ∃ t, exec .candidateAllocation s = .next t ∧ t.rd LNE_CNT_EXHAUST.COUNT = min 0xFFFFFFFF (s.rd LNE_CNT_EXHAUST.COUNT + 1) ∧
        flagged t 2 0 ∧ raisedOnly { s with cnp := { s.cnp with cands := cs } } t [LNE_CNT_EXHAUST.reg, LNE_EVT_STS.reg]) ∧
    (∀ c cs l, s.cnp.cands = c :: cs → accepting s = true → c.rate < 8 → l < laneLimit s → s.lane l = none →
        (∀ m, m < l → (s.lane m).isSome = true) → laneLimit s ≤ 512 →
      ∃ t y, exec .candidateAllocation s = .next t ∧ t.lanes = sput s.lanes l y ∧ y.cand = c ∧ y.weight = c.weight ∧ y.phy = none ∧ y.cells = [] ∧
        (∀ n, n < 8 → bitOn y.taint n = taintedIn s n (rateSlice c.rate) (laneStart y) (max (c.ts + 1) (s.atb - sliceD s (rateSlice c.rate) + 1))) ∧
        t.rd (LNE_LANE_STS.STATE l) = 1 ∧
        t.rd (LNE_LANE_STS.RATE l) = c.rate ∧ t.rd LNE_POOL_STS.FREE = s.rd LNE_POOL_STS.FREE - 1 ∧
        t.rd LNE_POOL_STS.UNATTR = (s.rd LNE_POOL_STS.UNATTR + 1) % 1024 ∧
        t.rd LNE_CNT_GRANT.COUNT = min 0xFFFFFFFF (s.rd LNE_CNT_GRANT.COUNT + 1) ∧
        t = { s with regs := t.regs, vregs := t.vregs, posted := t.posted, evr := t.evr, lanes := t.lanes, cnp := { s.cnp with cands := cs } } ∧
        ∀ a, noPba a → (a < 0x200000 ∨ 0x300000 ≤ a) → (∀ p ∈ s.lanes, a ≠ LNE_LANE_STS.reg p.1) → t.reg a = s.reg a)

/-- Lane releases by cause (R69, R89-R93, R24). -/
def Obligations.LanesAreReleasedForTheirCause : Prop :=
  ∀ (s : State) (l : Nat) (x : Lane), s.inv = true → l < 512 → s.lane l = some x →
    (s.rd (LNE_LANE_STS.STATE l) = 1 →
      let u := s.at_ (x.cand.ts + s.rd (LNE_RATE_SFDTO.SFD_TO x.cand.rate) + 1 + sliceD s (laneSlice x))
      ∃ t, exec (.sfdTimeout l) s = .next t ∧ laneFreed u t l 2 ∧
        t.rd LNE_CNT_SFDTO.COUNT = min 0xFFFFFFFF (s.rd LNE_CNT_SFDTO.COUNT + 1) ∧ lanesOnly u t) ∧
    (∀ w, s.rd (LNE_LANE_STS.STATE l) = 2 → x.phy = none → phyOk x.cand.rate (phyParse x.cand.rate x.sfdCoded w) = false →
      ∃ t, exec (.phyHeaderCheck l w none) s = .next t ∧ laneFreed s t l 3 ∧
        t.rd LNE_CNT_HDRFAIL.COUNT = min 0xFFFFFFFF (s.rd LNE_CNT_HDRFAIL.COUNT + 1) ∧ lanesOnly s t) ∧
    (∀ k, 1 ≤ k → k ≤ 7 → x.ans = some (.reject k) →
      ∃ t, exec (.headerAnswer l) s = .next t ∧ laneFreed s t l 4 ∧
        t.rd (LNE_FLT_CNT.COUNT (k - 1)) = min 0xFFFFFFFF (s.rd (LNE_FLT_CNT.COUNT (k - 1)) + 1) ∧ lanesOnly s t) ∧
    (∀ p n pan bc att, x.ans = some (.accept p n pan bc att) → p < 64 → s.rd (LNE_LANE_STS.STATE l) = 2 → resetting s p = true →
      ∃ t, exec (.headerAnswer l) s = .next t ∧ laneFreed s t l 4 ∧
        t.rd (LNE_FLT_CNT.COUNT 5) = min 0xFFFFFFFF (s.rd (LNE_FLT_CNT.COUNT 5) + 1) ∧
        t.rd (PRT_PCNT.COUNT p 3) = min 0xFFFFFFFF (s.rd (PRT_PCNT.COUNT p 3) + 1)) ∧
    (∀ f rest q, x.phy = some f → x.fcsOk = none → f.length ≤ (laneOctets x f rest).length → fcsRight x.cand.rate f (laneOctets x f rest) = false →
        s.on LNE_CTRL.FCS_BAD_DLV = false →
      let u := s.at_ (x.fend + sliceD s (laneSlice x))
      ∃ t, exec (.frameEnd l rest q) s = .next t ∧ laneFreed u t l 7 ∧
        t.rd LNE_CNT_FCSFAIL.COUNT = min 0xFFFFFFFF (s.rd LNE_CNT_FCSFAIL.COUNT + 1) ∧ lanesOnly u t) ∧
    (∀ f, x.phy = some f →
      ∃ t, exec (.deliveryDrop l) s = .next t ∧ laneFreed (s.at_ (x.fend + 32000)) t l 8 ∧ flagged t 2 3 ∧
        (if s.on (LNE_LANE_STS.ATTRIB l)
         then t.rd (LNE_PCNT.COUNT (s.rd (LNE_LANE_STS.PART l)) 4) = min 0xFFFFFFFF (s.rd (LNE_PCNT.COUNT (s.rd (LNE_LANE_STS.PART l)) 4) + 1)
         else t.rd LNE_CNT_DLVDROP_SH.COUNT = min 0xFFFFFFFF (s.rd LNE_CNT_DLVDROP_SH.COUNT + 1)) ∧
        lanesOnly (s.at_ (x.fend + 32000)) t)

/-- A lane's frame from its SFD to its descriptor (R75-R97, R143-R146, R22). -/
def Obligations.LanesCarryAFrameToTheQueueFabric : Prop :=
  ∀ (s : State) (l : Nat) (x : Lane), s.inv = true → l < 512 → s.lane l = some x →
    (∀ t128 b levels amps, s.rd (LNE_LANE_STS.STATE l) = 1 →
      let exact := t128 - 8 * s.rd (LNE_RATE_LAT.LAT x.cand.rate)
      let ts := roundTick exact
      (x.cand.ts + s.rd (LNE_RATE_SFDTO.SFD_TO x.cand.rate) < ts → exec (.sfdFound l t128 b levels amps) s = .next s) ∧
      (ts ≤ x.cand.ts + s.rd (LNE_RATE_SFDTO.SFD_TO x.cand.rate) →
        ∃ t y, exec (.sfdFound l t128 b levels amps) s = .next t ∧ t.lane l = some y ∧ y.cand = x.cand ∧ y.cells = x.cells ∧ y.sfdTs = ts ∧
          y.tofs = unsgn 8 ((exact : Int) - 128 * ts) ∧ y.sfdCoded = b ∧ y.settled = gainSettled levels ∧ y.gain = laneGain levels ∧
          y.weight = packWeights y.wmask amps ∧ y.atts = (List.range 8).map (fun n => attAt s n ts) ∧ t.rd (LNE_LANE_STS.STATE l) = 2 ∧
          onlyRegs { s.at_ (ts + sliceD s (laneSlice x)) with lanes := sput s.lanes l y } t [LNE_LANE_STS.reg l])) ∧
    (∀ w h, s.rd (LNE_LANE_STS.STATE l) = 2 → x.phy = none → phyParse x.cand.rate x.sfdCoded w = h → phyOk x.cand.rate h = true →
      (∃ t y, exec (.phyHeaderCheck l w none) s = .next t ∧ t.lane l = some y ∧ y.phy = some h ∧
        y.fend = x.sfdTs + bodyTicks x.cand.rate h.coded h.length ∧ y.pairWon = (x.pairWon || (partner s l).isSome) ∧
        (∀ m, partner s l = some m → t.rd (LNE_LANE_STS.LAST_CAUSE m) = 1) ∧ lanesOnly s t) ∧
      (∀ m v g z, partner s l = some m → partner s m = some l → s.lane m = some z → s.rd (LNE_LANE_STS.STATE m) = 2 → z.phy = none →
          phyParse z.cand.rate z.sfdCoded v = g → phyOk z.cand.rate g = true →
        let first := z.cand.score < x.cand.score ∨ x.cand.score = z.cand.score ∧ x.cand.rate < z.cand.rate
        ∃ t, exec (.phyHeaderCheck l w (some v)) s = .next t ∧
          (first → t.rd (LNE_LANE_STS.STATE m) = 0 ∧ t.rd (LNE_LANE_STS.LAST_CAUSE m) = 1 ∧ (t.lane l).bind (·.phy) = some h) ∧
          (¬first → t.rd (LNE_LANE_STS.STATE l) = 0 ∧ t.rd (LNE_LANE_STS.LAST_CAUSE l) = 1 ∧ (t.lane m).bind (·.phy) = some g))) ∧
    (∀ f octs, x.phy = some f → x.hdr = none →
      let known := laneOctets x f octs
      let ready := known.length = f.length ∨ 2 ≤ known.length ∧ headerNeed known ≤ known.length
      let h := macParse known f.length (rxFcsLen x.cand.rate f)
      let plain := earlyReason f.length h = none ∧ h.ftype ≠ 2
      (¬ready → exec (.laneHeader l octs) s = .next s) ∧
      (ready → ∃ t a, exec (.laneHeader l octs) s = .next t ∧ t.lane l = some { x with psdu := known, hdr := some h, ans := some a } ∧
        (h.version = 0 ∨ h.version = 3 → a = .reject 1) ∧
        (∀ r, earlyReason f.length h = some r → a = .reject r) ∧
        (earlyReason f.length h = none → h.ftype = 2 → (ackMatch s x h).isNone = true → a = .reject 5) ∧
        (plain → entryOf s x.cand.grid h = none → h.dstPan ≠ some 0xFFFF → a = .reject 4) ∧
        (∀ i, plain → entryOf s x.cand.grid h = some i → dstOk s i h = false → a = .reject 5) ∧
        (∀ i, plain → entryOf s x.cand.grid h = some i → dstOk s i h = true → lookupSrc s i h.src = none →
          a = if s.on (LNK_PAN_CFG.ADMIT i) then .accept (s.rd (LNK_PAN_CFG.PART i)) none (some i) false none else .reject 6) ∧
        (∀ i n, plain → entryOf s x.cand.grid h = some i → dstOk s i h = true → lookupSrc s i h.src = some n →
          ((ctxCheck n s).node n).poison = false → a = .accept (s.rd (LNK_PAN_CFG.PART i)) (some n) (some i) false none) ∧
        lanesOnly s t)) ∧
    (∀ f d, x.phy = some f → x.cells.length < ceilDiv f.length 64 → x.rst = false →
      let known := cellOctets x f d
      (x.stalled = false → cellCredits s = 0 → exec (.receiveCell l d) s = .next s) ∧
      (x.stalled = true ∨ 0 < cellCredits s →
        ((laneAccount s l).2 = false → exec (.receiveCell l d) s = .next (s.putLane l { x with psdu := known, stalled := true })) ∧
        ((laneAccount s l).2 = true →
          ∃ t k, exec (.receiveCell l d) s = .next t ∧ t.lane l = some { x with psdu := known, cells := x.cells ++ [k], stalled := false } ∧
            (t.cell k).data = recOf 512 ((known.drop (64 * x.cells.length)).take 64) ∧ t.rd QUE_STS.FREE = s.rd QUE_STS.FREE - 1 ∧ lanesOnly s t))) ∧
    (∀ f h0 p n pan bc att rest q, x.phy = some f → x.fcsOk = none → x.hdr = some h0 → x.ans = some (.accept p n pan bc att) →
        s.rd (LNE_LANE_STS.STATE l) = 3 → f.length ≤ (laneOctets x f rest).length →
      let known := laneOctets x f rest
      let ok := fcsRight x.cand.rate f known
      let h := macParse known f.length (rxFcsLen x.cand.rate f)
      let y := { x with psdu := known, hdr := some h }
      (ok = true ∨ s.on LNE_CTRL.FCS_BAD_DLV = true) →
      ∃ t, exec (.frameEnd l rest q) s = .next t ∧
        t.lane l = some { y with fcsOk := some ok, dsc := laneDescriptor (s.at_ (x.fend + sliceD s (laneSlice x))) l y f h ok q } ∧
        t.rd (LNE_LANE_STS.STATE l) = 4 ∧
        (ok = true → s.on LNK_CTRL.EN = true → h.ackReq = true → isBcast h.dst = false →
          ∃ a, t.lnk.acks = s.lnk.acks ++ [a] ∧ a.fend = x.fend ∧ a.lane = l ∧ a.part = p ∧ a.hdr = h ∧ a.node = n) ∧
        (ok = false ∨ s.on LNK_CTRL.EN = false ∨ h.ackReq = false ∨ isBcast h.dst = true → t.lnk = s.lnk)) ∧
    (∀ f h p n pan bc att ok, x.phy = some f → x.hdr = some h → x.ans = some (.accept p n pan bc att) → x.fcsOk = some ok →
        s.rd (LNE_LANE_STS.STATE l) = 4 → x.cells.length = ceilDiv f.length 64 → x.rst = false →
      ((laneAccount s l).2 = false → exec (.descriptorCell l) s = .next s) ∧
      ((laneAccount s l).2 = true →
        ∃ t r, exec (.descriptorCell l) s = .next t ∧ t.que.rxs = s.que.rxs ++ [r] ∧ r.part = p ∧ r.node = n ∧ r.pan = pan ∧ r.hdr = h ∧
          r.lane = l ∧ r.cells = x.cells ∧ r.stage = (if ok then 0 else 3) ∧ laneFreed s t l (if ok then 0 else 7) ∧ lanesOnly s t))

/-- The shedding rule (R73). -/
def Obligations.AttributionKeepsOrShedsALane : Prop :=
  ∀ (s : State) (l : Nat) (x : Lane) (p : Nat) (n pan att : Option Nat) (bc : Bool), s.inv = true → l < 512 → s.lane l = some x →
    x.ans = some (.accept p n pan bc att) → p < 64 → s.rd (LNE_LANE_STS.STATE l) = 2 → resetting s p = false → s.rd (LNE_PSTS.IN_USE p) < 512 →
    let u := s.rd (LNE_PSTS.IN_USE p) + 1
    let low := s.on LNE_CTRL.SHED_EN = true ∧ s.rd LNE_POOL_STS.FREE < s.rd LNE_POOL_CTRL.LOW_WM ∧ s.rd (PRT_P_LANE.GUAR p) < u
    ∃ t, exec (.headerAnswer l) s = .next t ∧ lanesOnly s t ∧ t.rd (LNE_PCNT.COUNT p 0) = min 0xFFFFFFFF (s.rd (LNE_PCNT.COUNT p 0) + 1) ∧
      (s.rd (PRT_P_LANE.CAP p) < u →
        t.lanes = sdel s.lanes l ∧ t.rd (LNE_LANE_STS.LAST_CAUSE l) = 6 ∧ t.rd (LNE_PSTS.IN_USE p) = s.rd (LNE_PSTS.IN_USE p) ∧
          t.rd (LNE_PCNT.COUNT p 2) = min 0xFFFFFFFF (s.rd (LNE_PCNT.COUNT p 2) + 1) ∧ flagged t 2 2) ∧
      (u ≤ s.rd (PRT_P_LANE.CAP p) → low →
        t.lanes = sdel s.lanes l ∧ t.rd (LNE_LANE_STS.LAST_CAUSE l) = 5 ∧ t.rd (LNE_PSTS.IN_USE p) = s.rd (LNE_PSTS.IN_USE p) ∧
          t.rd (LNE_PCNT.COUNT p 1) = min 0xFFFFFFFF (s.rd (LNE_PCNT.COUNT p 1) + 1) ∧ flagged t 2 2) ∧
      (u ≤ s.rd (PRT_P_LANE.CAP p) → ¬low →
        (∃ y, t.lane l = some y ∧ y.cand = x.cand ∧ y.cells = x.cells ∧ y.att = att) ∧ t.rd (LNE_LANE_STS.STATE l) = 3 ∧
          t.rd (LNE_LANE_STS.ATTRIB l) = 1 ∧ t.rd (LNE_LANE_STS.PART l) = p ∧ t.rd (LNE_PSTS.IN_USE p) = u ∧
          t.rd (LNE_PSTS.PEAK p) = max u (s.rd (LNE_PSTS.PEAK p)) ∧ t.rd LNE_POOL_STS.UNATTR = s.rd LNE_POOL_STS.UNATTR - 1)

/-- Verification of a received frame (R150, R155, R195, R249, R254, R255). -/
def Obligations.VerificationChecksRunInTheirOrder : Prop :=
  ∀ (s : State) (k : Nat) (r : Rx), s.inv = true → k < 786432 → s.rx k = some r → r.part < 64 →
    let u := readNode r.node s
    let lvl := match r.node with | some h => u.nc h NC.SEC_LEVEL | none => 0
    let lost (v t : State) (cnt : RegFld) (pk : Nat) : Prop :=
      t.que.rxs = v.que.rxs.eraseIdx k ∧ t.rd cnt = min 0xFFFFFFFF (v.rd cnt + 1) ∧
        t.rd (SEC_PCNT.COUNT r.part pk) = min 0xFFFFFFFF (v.rd (SEC_PCNT.COUNT r.part pk) + 1) ∧
        t.lnk.acks = (ackVerdict r false none v).lnk.acks ∧
        t = { v with regs := t.regs, vregs := t.vregs, posted := t.posted, evr := t.evr, que := t.que, prt := t.prt,
                     lnk := { v.lnk with acks := t.lnk.acks } } ∧
        regsIn v t [(0x500000, 0x600000), (0x600000, 0x700000), (0x700000, 0x800000)]
    (∀ h, r.node = some h → (s.node h).badPar ≠ 0 → (u.node h).poison = true) ∧
    ((∀ h, r.node = some h → (s.node h).badPar = 0) → u = s) ∧
    (r.stage = 0 → predecessor s k r = false →
      (r.hdr.secured = true → r.hdr.counter = 0xFFFFFFFF →
        ∃ t, exec (.verifyIssue k) s = .next t ∧ lost u t SEC_CNT_FC_MAX.COUNT 1 ∧ flagged t 6 1) ∧
      (¬(r.hdr.secured = true ∧ r.hdr.counter = 0xFFFFFFFF) →
        (isDup u r = true →
          ∃ t, exec (.verifyIssue k) s = .next t ∧ t.que.rxs = u.que.rxs.eraseIdx k ∧
            t.rd LNK_CNT_DUP.COUNT = min 0xFFFFFFFF (u.rd LNK_CNT_DUP.COUNT + 1) ∧
            t.rd (LNK_PCNT.COUNT r.part 1) = min 0xFFFFFFFF (u.rd (LNK_PCNT.COUNT r.part 1) + 1) ∧ flagged t 4 1 ∧
            t.lnk.acks = (ackVerdict r true (frameSlot u r) u).lnk.acks ∧
            t = { u with regs := t.regs, vregs := t.vregs, posted := t.posted, evr := t.evr, que := t.que,
                         lnk := { u.lnk with acks := t.lnk.acks } }) ∧
        (isDup u r = false →
          (isAck r = false → lvl ≠ 0 → r.hdr.secured = false ∨ r.hdr.level < lvl →
            ∃ t, exec (.verifyIssue k) s = .next t ∧ lost u t SEC_CNT_LOW_LEVEL.COUNT 2 ∧ flagged t 6 1) ∧
          (isAck r = true ∨ lvl = 0 → r.hdr.secured = false → exec (.verifyIssue k) s = .next (u.setRx k { r with stage := 2 })) ∧
          (isAck r = true ∨ lvl ≤ r.hdr.level → r.hdr.secured = true →
            (r.hdr.level = 0 ∨ r.hdr.level = 4 →
              ∃ t, exec (.verifyIssue k) s = .next t ∧ lost u t SEC_CNT_BAD_LEVEL.COUNT 1 ∧ flagged t 6 1) ∧
            (r.hdr.level ≠ 0 → r.hdr.level ≠ 4 → verifyTurn u k = false → exec (.verifyIssue k) s = .next u) ∧
            (r.hdr.level ≠ 0 → r.hdr.level ≠ 4 → verifyTurn u k = true →
              (rxSlot u r = none → ∃ t, exec (.verifyIssue k) s = .next t ∧ lost u t SEC_CNT_NO_KEY.COUNT 1 ∧ flagged t 6 1) ∧
              (∀ j, rxSlot u r = some j →
                (chooseRx u r.part j r.hdr.keyMode r.hdr.keyIndex r.hdr.keySource = .noKey →
                  ∃ t, exec (.verifyIssue k) s = .next t ∧ lost u t SEC_CNT_NO_KEY.COUNT 1 ∧ flagged t 6 1) ∧
                (chooseRx u r.part j r.hdr.keyMode r.hdr.keyIndex r.hdr.keySource = .mismatch →
                  ∃ t, exec (.verifyIssue k) s = .next t ∧ lost u t SEC_CNT_KEY_MISMATCH.COUNT 1 ∧ flagged t 6 1)) ∧
              (∀ j j', rxSlot u r = some j → chooseRx u r.part j r.hdr.keyMode r.hdr.keyIndex r.hdr.keySource = .ok j' →
                nonceSource u r = none → ∃ t, exec (.verifyIssue k) s = .next t ∧ lost u t SEC_CNT_NO_EXT.COUNT 1 ∧ flagged t 6 1) ∧
              (∀ j j' ext, rxSlot u r = some j → chooseRx u r.part j r.hdr.keyMode r.hdr.keyIndex r.hdr.keySource = .ok j' →
                  nonceSource u r = some ext →
                (frameJobsRun u = false ∨ 32 ≤ u.sec.rxJobs.length → exec (.verifyIssue k) s = .next u) ∧
                (frameJobsRun u = true → u.sec.rxJobs.length < 32 → (r.descCell :: r.cells).all (fun c => !badCell (u.cell c)) = true →
                  exec (.verifyIssue k) s = .next ({ u with sec := { u.sec with rxJobs := u.sec.rxJobs ++ ([⟨r.descCell,
                    ccmVerify (u.kslot j').key ext r.hdr.counter r.hdr.level r.hdr.hdrLen
                      ((rxBytes u r).take (RD.LENGTH.of r.dsc - r.hdr.fcs))⟩] : List RxJob) } }.setRx k { r with stage := 1, slot := j' })) ∧
                (frameJobsRun u = true → u.sec.rxJobs.length < 32 → (r.descCell :: r.cells).all (fun c => !badCell (u.cell c)) = false →
                  ∃ t, exec (.verifyIssue k) s = .next t ∧ t.que.rxs = u.que.rxs.eraseIdx k ∧
                    t.rd QUE_CNT_RX_PAR_DROP.COUNT = min 0xFFFFFFFF (u.rd QUE_CNT_RX_PAR_DROP.COUNT + 1) ∧ flagged t 5 1))))))) ∧
    (∀ j, s.sec.rxJobs.find? (fun i => i.cell == r.descCell) = some j →
      let v : State := { s with sec := { s.sec with rxJobs := s.sec.rxJobs.filter (fun i => i.cell != r.descCell) } }
      (j.ok = true →
        ∃ t, exec (.verifyResult k) s = .next t ∧ t.que.rxs = s.que.rxs.set k { r with stage := 2 } ∧
          t.lnk.acks = (ackVerdict r true (some r.slot) s).lnk.acks ∧
          t.rd SEC_CNT_VERIFY_OK.COUNT = min 0xFFFFFFFF (s.rd SEC_CNT_VERIFY_OK.COUNT + 1) ∧
          onlyRegs { v with que := t.que, lnk := { s.lnk with acks := t.lnk.acks, seqs := t.lnk.seqs } } t [SEC_CNT_VERIFY_OK.reg]) ∧
      (j.ok = false → ∃ t, exec (.verifyResult k) s = .next t ∧ lost v t SEC_CNT_MIC_FAIL.COUNT 0 ∧ flagged t 6 0))

/-- Frame commit (R141, R147, R156, R180). -/
def Obligations.CommittedFramesUpdateTheirNode : Prop :=
  ∀ (s : State) (k : Nat) (r : Rx), s.inv = true → k < 786432 → s.rx k = some r → r.part < 64 → r.stage = 2 →
    (predecessor s k r = true → exec (.frameCommit k) s = .next s) ∧
    (predecessor s k r = false →
      ∃ t, exec (.frameCommit k) s = .next t ∧
        (∀ h, r.node = some h → r.att = none ∨ r.oow ≠ some false →
          (r.hdr.secured = true → r.hdr.counter < 0xFFFFFFFF → t.nc h NC.RX_FC = r.hdr.counter + 1) ∧
          (r.hdr.secured = false → r.hdr.seqSuppr = false → r.hdr.seq < 256 →
            t.nc h NC.SEQ_VALID = 1 ∧ t.nc h NC.LAST_SEQ = r.hdr.seq ∧ t.nc h NC.LAST_FCS = fcsValue s r % 2 ^ 32)) ∧
        (r.oow = some true →
          t.rd LNK_CNT_OOW.COUNT = min 0xFFFFFFFF (s.rd LNK_CNT_OOW.COUNT + 1) ∧
            t.rd (LNK_PCNT.COUNT r.part 0) = min 0xFFFFFFFF (s.rd (LNK_PCNT.COUNT r.part 0) + 1) ∧ flagged t 4 2) ∧
        (r.bcast = false → r.att = none ∨ r.oow ≠ some false →
          t.que.rxs = s.que.rxs.eraseIdx k ++ [{ r with stage := 3, owed := [r.part] }] ∧
            t = { s with regs := t.regs, vregs := t.vregs, posted := t.posted, evr := t.evr, que := t.que, lnk := { s.lnk with seqs := t.lnk.seqs } }) ∧
        (∀ id, r.att = some id → r.oow = some false →
          (s.lnk.atts.find? (fun a => a.id == id && !a.done)).isSome = true →
          t.rd LNK_CNT_ACK_MATCH.COUNT = min 0xFFFFFFFF (s.rd LNK_CNT_ACK_MATCH.COUNT + 1) ∧ ∀ a ∈ t.lnk.atts, a.id ≠ id))

/-- Delivery to engines and ports (R22, R208, R225, R287, R288). -/
def Obligations.DeliveriesGoToTheirReceiver : Prop :=
  ∀ (s : State) (k p : Nat) (ps : List Nat) (r : Rx), s.inv = true → k < 786432 → s.rx k = some r → r.owed = p :: ps → r.stage = 3 → p < 64 →
    (∀ c, routeOf s r p = .engine c →
      (engShare s c p ≤ engUsed s c p ∨ s.rd (ENG_C_STS.PSTATE c) ≠ 2 ∨ behind s k p (.engine c) = true → exec (.engineDelivery k) s = .next s) ∧
      (engUsed s c p < engShare s c p → s.rd (ENG_C_STS.PSTATE c) = 2 → behind s k p (.engine c) = false →
          (r.descCell :: r.cells).all (fun c => !badCell (s.cell c)) = true →
        ∃ t, exec (.engineDelivery k) s = .next t ∧
          (r.bcast = true → t.rd PRT_CNT_BCAST.COUNT = min 0xFFFFFFFF (s.rd PRT_CNT_BCAST.COUNT + 1)) ∧
          onlyRegs { s.setRx k { r with owed := ps } with eng := { s.eng with rxq := s.eng.rxq ++ [(c, p, r.descCell)] } } t
            (if r.bcast then [PRT_CNT_BCAST.reg] else []))) ∧
    (routeOf s r p = .nowhere →
      ∃ t, exec (.rxDelivery k) s = .next t ∧
        (r.fcsBad = false ∨ s.feature 0 8 = true →
          (r.bcast = true ∧ p ∈ subscribers s (RD.GRID.of r.dsc) →
            t.rd PRT_CNT_BCAST_SKIP.COUNT = min 0xFFFFFFFF (s.rd PRT_CNT_BCAST_SKIP.COUNT + 1) ∧
              t.rd (HST_PCNT.COUNT p 4) = s.rd (HST_PCNT.COUNT p 4)) ∧
          (¬(r.bcast = true ∧ p ∈ subscribers s (RD.GRID.of r.dsc)) →
            t.rd (HST_PCNT.COUNT p 4) = min 0xFFFFFFFF (s.rd (HST_PCNT.COUNT p 4) + 1))) ∧
        (ps ≠ [] → t.que.rxs = s.que.rxs.set k { r with owed := ps }) ∧
        (ps = [] → engineOwed s r.descCell = false → t.que.rxs = s.que.rxs.eraseIdx k) ∧
        t = { s with regs := t.regs, vregs := t.vregs, posted := t.posted, evr := t.evr, que := t.que }) ∧
    (∀ q, routeOf s r p = .port q →
      ((s.port q).posted = [] ∨ behind s k p (.port q) = true ∨ hostCredited s k p = false ∨ (s.func (s.portOwner q)).bme = false →
        exec (.rxDelivery k) s = .next s) ∧
      (∀ x c xs, (s.port q).posted = x :: xs → s.ctx x = some c → behind s k p (.port q) = false → hostCredited s k p = true →
          (s.func (s.portOwner q)).bme = true → (r.descCell :: r.cells).all (fun c => !badCell (s.cell c)) = true →
        ∃ t more, exec (.rxDelivery k) s = .next t ∧
          t.posted = s.posted ++ [Posted.dmaWrite (s.portOwner q) (SQ.ADDR.of c.sq)
              (recBytes 64 (RD.FIRST_CELL.put (RD.PART.put r.dsc (if r.bcast then p else RD.PART.of r.dsc)) noCell)),
            .dmaWrite (s.portOwner q) (SQ.ADDR.of c.sq + 64) ((rxBytes s r).take (SQ.LEN.of c.sq - 64))] ++ more ∧
          t.rd (HST_PCNT.COUNT p 3) = min 0xFFFFFFFF (s.rd (HST_PCNT.COUNT p 3) + 1)))

/-- Acknowledgement builds (R118, R149, R150, R195). -/
def Obligations.AcknowledgementsAreBuiltAtTheirInstant : Prop :=
  ∀ (s : State) (k : Nat) (a : AckReq), s.inv = true → k < 1024 → s.lnk.acks[k]? = some a →
    let u := readNode a.node (s.at_ (a.fend + 2048))
    let v : State := { u with lnk := { u.lnk with acks := u.lnk.acks.eraseIdx k } }
    (a.verdict = none →
      ∃ t, exec (.ackBuild k) s = .next t ∧ t.rd LNK_CNT_ENHACK_LATE.COUNT = min 0xFFFFFFFF (s.rd LNK_CNT_ENHACK_LATE.COUNT + 1) ∧
        flagged t 4 0 ∧ raisedOnly v t [LNK_CNT_ENHACK_LATE.reg, LNK_EVT_STS.reg]) ∧
    (a.verdict = some false → exec (.ackBuild k) s = .next v) ∧
    (a.verdict = some true → (∀ e, 1024 ≤ e → e < 1056 → (s.ent e).st ≠ 0) →
      ∃ t, exec (.ackBuild k) s = .next t ∧ t.rd LNK_CNT_ACK_NOCRED.COUNT = min 0xFFFFFFFF (s.rd LNK_CNT_ACK_NOCRED.COUNT + 1) ∧
        flagged t 4 0 ∧ raisedOnly v t [LNK_CNT_ACK_NOCRED.reg, LNK_EVT_STS.reg]) ∧
    (a.verdict = some true → (∃ e, 1024 ≤ e ∧ e < 1056 ∧ (s.ent e).st = 0) →
      ∃ t e, exec (.ackBuild k) s = .next t ∧ 1024 ≤ e ∧ e < 1056 ∧ (s.ent e).st = 0 ∧ (t.ent e).st ≠ 0 ∧ (t.ent e).kind = 1 ∧
        (t.ent e).part = a.part ∧ (t.ent e).node = a.node ∧
        (t.ent e).air = a.fend + (if a.tsch then s.rd LNK_TSCH_TX_ACK_DLY.TICKS else s.rd (LNK_RATE_TURN.TURN a.rate)) ∧
        t.rd LNK_CNT_ACK.COUNT = min 0xFFFFFFFF (s.rd LNK_CNT_ACK.COUNT + 1))

/-- Scheduler comparators (R136). -/
def Obligations.ComparatorsFireAtTheirValue : Prop :=
  ∀ (f : Fn) (s : State) (k hi : Nat), s.inv = true → k < 64 →
    let ch := if s.on (LNK_CMP_CTRL.EVT_EN k) then [s.rd (LNK_CMP_CTRL.EVT_CH k)] else []
    let regs := [LNK_CMP_LO.reg k, LNK_CMP_HI.reg k, LNK_CMP_CTRL.reg k]
    (reaches s f (LNK_CMP_HI.reg k) →
      let v := (sget (fun a => s.reg a) s.heldLo (LNK_CMP_LO.reg k)).toNat + 2 ^ 32 * (hi % 2 ^ 32)
      let old := if s.on (LNK_CMP_CTRL.ARMED k) = true ∧ s.rd64 (LNK_CMP_LO.reg k) = s.atb then ch else []
      ∃ t, exec (.cmpArmWrite f k hi) s = .next t ∧ t.rd64 (LNK_CMP_LO.reg k) = v ∧
        (v ≤ s.atb → t.on (LNK_CMP_CTRL.FIRED k) = true ∧ t.on (LNK_CMP_CTRL.ARMED k) = false ∧ t.on (LNK_CMP_CTRL.LATE k) = true ∧
          t.evr = { s.evr with pulses := s.evr.pulses ++ old ++ ch }) ∧
        (s.atb < v → t.on (LNK_CMP_CTRL.ARMED k) = true ∧ t.on (LNK_CMP_CTRL.LATE k) = false ∧
          t.evr = { s.evr with pulses := s.evr.pulses ++ old }) ∧
        onlyRegs { s with evr := t.evr, heldLo := sdel s.heldLo (LNK_CMP_LO.reg k) } t regs) ∧
    (s.on (LNK_CMP_CTRL.ARMED k) = true → s.atbRuns = true → s.atb ≤ s.rd64 (LNK_CMP_LO.reg k) →
      let u := s.at_ (s.rd64 (LNK_CMP_LO.reg k))
      ∃ t, exec (.comparatorFire k) s = .next t ∧ t.atb = s.rd64 (LNK_CMP_LO.reg k) ∧ t.on (LNK_CMP_CTRL.FIRED k) = true ∧
        t.on (LNK_CMP_CTRL.ARMED k) = false ∧ t.on (LNK_CMP_CTRL.LATE k) = false ∧
        onlyRegs { u with evr := { s.evr with pulses := s.evr.pulses ++ ch } } t [LNK_CMP_CTRL.reg k]) ∧
    (s.on (LNK_CMP_CTRL.ARMED k) = false → exec (.comparatorFire k) s = .next s)

/-- DISARM and the writes of PAN entries and of the hopping schedule (R137, R144, R168, R170). -/
def Obligations.DisarmAndPanEntriesAndTschWrites : Prop :=
  ∀ (f : Fn) (s : State), s.inv = true →
    (∀ k, k < 64 → reaches s f (LNK_CMP_CTRL.reg k) → ∃ t, exec (.disarm f k) s = .next t ∧ sets s t (LNK_CMP_CTRL.ARMED k) 0) ∧
    (∀ k w v, k < 64 → w < 4 → reaches s f (LNK_PAN_ID.reg k + 4 * w) →
      let u := s.regWrite (LNK_PAN_ID.reg k + 4 * w) v
      (panClash u k = false → exec (.panEntryWrite f k w v) s = .next u) ∧
      (panClash u k = true →
        ∃ t, exec (.panEntryWrite f k w v) s = .next t ∧ t.rd LNK_PAN_ERR.ENTRY = k ∧ t.rd LNK_PAN_ERR.SET = 1 ∧ flagged t 4 5 ∧
          raisedOnly s t [LNK_PAN_ERR.reg, LNK_EVT_STS.reg])) ∧
    (reaches s f LNK_TSCH_CTRL.reg →
      (∃ t, exec (.tschEnableWrite f false) s = .next t ∧ sets s t LNK_TSCH_CTRL.EN 0) ∧
      (templateOk s = false ∨ s.on LNK_TSCH_CTRL.EN = true → exec (.tschEnableWrite f true) s = .next s) ∧
      (templateOk s = true → s.on LNK_TSCH_CTRL.EN = false →
        ∃ t, exec (.tschEnableWrite f true) s = .next t ∧ sets { s with lnk := { s.lnk with asnRead := 0 } } t LNK_TSCH_CTRL.EN 1)) ∧
    (∀ c v, c < 8192 → reaches s f (LNK_CELL0.reg c) → reaches s f (LNK_CELL0.reg c + 4) →
      (s.on LNK_CTRL.LOCK = true → exec (.tschCellWrite f c 0 v) s = .next s ∧ exec (.tschCellWrite f c 1 v) s = .next s) ∧
      (s.on LNK_CTRL.LOCK = false → exec (.tschCellWrite f c 0 v) s = .next (s.setReg (LNK_CELL0.reg c) v) ∧
        (s.handleOwner (bf v 0 16) = bf v 24 6 → exec (.tschCellWrite f c 1 v) s = .next (s.regWrite (LNK_CELL1.reg c) v)) ∧
        (s.handleOwner (bf v 0 16) ≠ bf v 24 6 →
          exec (.tschCellWrite f c 1 v) s = .next (s.bark 0 (fnKind f) 7 c))))

/-- Placement by node class and the airtime period (R165, R176, R196, R205, R206). -/
def Obligations.SchedulerPlacesHeadItemsByClass : Prop :=
  ∀ (s : State) (h : Nat), s.inv = true → h < 65536 →
    (s.clk.tb = false → exec (.schedulerPlace h) s = .next s) ∧
    (s.clk.tb = true → heldRetry s h = none → headItem s h = none → exec (.schedulerPlace h) s = .next s) ∧
    (∀ hc, s.clk.tb = true → heldRetry s h = none → headItem s h = some hc → (s.node h).badPar = 0 → badCell (s.cell hc) = true → (s.node h).life = 1 →
      exec (.schedulerPlace h) s = .next (startSweep h hc (cellParity hc s))) ∧
    (∀ hc, s.clk.tb = true → heldRetry s h = none → headItem s h = some hc → (s.node h).badPar = 0 → badCell (s.cell hc) = false → mayTake s h = false →
      exec (.schedulerPlace h) s = .next s) ∧
    (∀ hc, s.clk.tb = true → heldRetry s h = none → headItem s h = some hc → (s.node h).badPar = 0 → badCell (s.cell hc) = false → mayTake s h = true →
      let x := entOf s h hc 0 (leadInstant s) (itemChain s h hc) (s.ih hc IH.GRID) (s.ih hc IH.CHAN) (s.ih hc IH.ACK_REQ == 1)
      (s.nc h NC.CLASS = 1 → exec (.schedulerPlace h) s = .next s) ∧
      (s.nc h NC.CLASS = 0 ∨ s.nc h NC.CLASS = 3 →
        (inTime s hc (leadInstant s) = true → s.lnk.scheds.length < 1024 → airOk s x.part x.charge = true →
          ∃ t, exec (.schedulerPlace h) s = .next t ∧ t.lnk.scheds = s.lnk.scheds ++ [(⟨x⟩ : Sched)] ∧ x.air = s.atb + s.rd LNK_SCHED_LEAD.TICKS ∧
            t.rd (PRT_PAIR.VALUE x.part 0) = (s.rd (PRT_PAIR.VALUE x.part 0) + x.charge) % 2 ^ 32 ∧ t.que = (unlinkItem h hc s).que ∧
            onlyRegs { s with que := t.que, lnk := t.lnk } t [PRT_PAIR.reg x.part 0]) ∧
        (inTime s hc (leadInstant s) = true → s.lnk.scheds.length < 1024 → airOk s x.part x.charge = false →
          ∃ t, exec (.schedulerPlace h) s = .next t ∧
            sets s t (PRT_PCNT.COUNT x.part 1) (min 0xFFFFFFFF (s.rd (PRT_PCNT.COUNT x.part 1) + 1))) ∧
        (inTime s hc (leadInstant s) = false ∨ 1024 ≤ s.lnk.scheds.length → exec (.schedulerPlace h) s = .next s)) ∧
      (s.nc h NC.CLASS = 2 →
        let w := wakePlan s h x.rate
        let pay := { x with air := wakePayload s x.rate w }
        let wk := wakeEnt s h w pay
        inTime s hc w.start = true → s.lnk.scheds.length + 2 ≤ 1024 → airOk s x.part wk.charge = true →
          airOk (chargeAir x.part wk.charge s) x.part pay.charge = true →
          ∃ t, exec (.schedulerPlace h) s = .next t ∧ t.lnk.scheds = s.lnk.scheds ++ [(⟨wk⟩ : Sched), (⟨pay⟩ : Sched)] ∧ wk.kind = 3 ∧ wk.nWuf = w.n ∧
            wk.air = w.start ∧ t.que = (unlinkItem h hc s).que ∧ t.lnk.seqs.length = s.lnk.seqs.length + 1)) ∧
    (s.rd PRT_AIR_PERIOD.TICKS ≠ 0 →
      ∃ t, exec .airtimePeriodBoundary s = .next t ∧
        (∀ q, q < 64 → t.rd (PRT_PAIR.VALUE q 0) = 0 ∧ t.rd (PRT_PAIR.VALUE q 1) = s.rd (PRT_PAIR.VALUE q 0)) ∧
        (s.atbRuns = true → t.atb % s.rd PRT_AIR_PERIOD.TICKS = 0 ∧ s.atb < t.atb ∧ t.atb ≤ s.atb + s.rd PRT_AIR_PERIOD.TICKS) ∧
        onlyRegs (s.at_ (s.atb + (s.rd PRT_AIR_PERIOD.TICKS - s.atb % s.rd PRT_AIR_PERIOD.TICKS))) t
          ((List.range 64).flatMap (fun q => [PRT_PAIR.reg q 0, PRT_PAIR.reg q 1])))

/-- Deadlines, waits and retries (R117, R158-R160). -/
def Obligations.WaitsAndDeadlinesEndAttempts : Prop :=
  ∀ (s : State), s.inv = true →
    (∀ h hc, h < 65536 → heldRetry s h = none → (∀ i ∈ queueItems s h, badCell (s.cell i) = false) → firstDeadline s h = some hc →
      let u := s.at_ (s.ih hc IH.DEADLINE)
      s.ih hc IH.DEADLINE ≤ u.atb → exec (.deadlineExpiry h) s = .next (endItem h hc 4 (unlinkItem h hc u))) ∧
    (∀ h, h < 65536 → heldRetry s h = none → (∀ i ∈ queueItems s h, badCell (s.cell i) = false) → firstDeadline s h = none →
      exec (.deadlineExpiry h) s = .next s) ∧
    (∀ h e hc, h < 65536 → heldRetry s h = some e → (s.ent e).item = some hc → s.ih hc IH.DEADLINE ≠ 0 →
      let u := s.at_ (s.ih hc IH.DEADLINE)
      s.ih hc IH.DEADLINE ≤ u.atb → exec (.deadlineExpiry h) s = .next (endHeld e 4 u)) ∧
    (∀ k a, k < 1024 → s.lnk.atts[k]? = some a → a.done = true ∨ a.closed = true → exec (.ackWaitClose k) s = .next s) ∧
    (∀ k a, k < 1024 → s.lnk.atts[k]? = some a → a.done = false → a.closed = false →
      let u := s.at_ a.close
      let x := s.ent a.ent
      (matchUnderWay u a = true → exec (.ackWaitClose k) s = .next s) ∧
      (matchUnderWay u a = false → ∀ hc, x.item = some hc → x.gone = false → a.part < 64 →
        (cancelWaits s hc = true → ∃ t, exec (.ackWaitClose k) s = .next t ∧ t.txc.ents = sdel s.txc.ents a.ent) ∧
        (cancelWaits s hc = false → triesOver s hc = true →
          ∃ t, exec (.ackWaitClose k) s = .next t ∧ t.txc.ents = sdel s.txc.ents a.ent ∧
            t.rd (LNK_PCNT.COUNT a.part 3) = min 0xFFFFFFFF (s.rd (LNK_PCNT.COUNT a.part 3) + 1)) ∧
        (cancelWaits s hc = false → triesOver s hc = false → (s.node a.node).life = 1 → s.nc a.node NC.CLASS = 1 →
          ∃ t, exec (.ackWaitClose k) s = .next t ∧ t.ent a.ent = x ∧ sfind t.lnk.retryAt a.ent = some 0) ∧
        (cancelWaits s hc = false → triesOver s hc = false → (s.node a.node).life = 1 → s.nc a.node NC.CLASS = 0 → s.ih hc IH.DEADLINE = 0 →
            airOk u x.part x.charge = true →
          ∃ t b, exec (.ackWaitClose k) s = .next t ∧ b < 2 ^ s.ih hc IH.BE ∧ (t.ent a.ent).st = 3 ∧
            (t.ent a.ent).air = max (a.close + b * s.rd (LNK_RATE_UNIT.UNIT x.rate)) (leadInstant u) ∧ (t.ent a.ent).psdu = x.psdu ∧
            (t.ent a.ent).fc = x.fc ∧ (t.ent a.ent).item = some hc)))

/-- TSCH slots and sequencers (R139, R168-R174). -/
def Obligations.TschSlotsAndSequencersRun : Prop :=
  ∀ (s : State), s.inv = true →
    (∀ asn, s.on LNK_TSCH_CTRL.EN = false ∨ s.clk.tb = false → exec (.tschSlotRead asn) s = .next s) ∧
    (∀ asn f c, s.on LNK_TSCH_CTRL.EN = true → s.clk.tb = true → s.lnk.asnRead ≤ asn → slotCells s asn = [(f, c)] →
      let st := s.rd64 LNK_TSCH_EPOCH_LO.reg + asn * s.rd LNK_TSCH_SLOT_LEN.TICKS
      let h := s.rd (LNK_CELL1.NODE c)
      (s.on (LNK_CELL1.RX c) = true → s.on (LNK_CELL1.TX c) = false →
        ∃ t w ws, exec (.tschSlotRead asn) s = .next t ∧ t.lnk.asnRead = asn + 1 ∧ t.lnk.wins = ws ++ [w] ∧
          w.node = (if s.on (LNK_CELL1.SHARED c) then none else some h) ∧ w.wOpen = st + s.rd LNK_TSCH_RX_OFS.TICKS ∧
          w.close = st + s.rd LNK_TSCH_RX_OFS.TICKS + s.rd LNK_TSCH_RX_WAIT.TICKS ∧ w.expect = st + s.rd LNK_TSCH_TX_OFS.TICKS ∧
          t = { s.at_ (st - s.rd LNK_TSCH_LEAD.TICKS) with lnk := t.lnk }) ∧
      (∀ hc, s.on (LNK_CELL1.TX c) = true → headItem s h = some hc → heldRetry s h = none → mayTake s h = true → (s.node h).badPar = 0 →
        badCell (s.cell hc) = false → s.ih hc IH.DEADLINE = 0 → s.lnk.scheds.length < 1024 → s.on PRT_AIR_CTRL.EN = false →
        ∃ t x, exec (.tschSlotRead asn) s = .next t ∧ t.lnk.scheds = s.lnk.scheds ++ [(⟨x⟩ : Sched)] ∧ x.node = some h ∧ x.item = some hc ∧
          x.air = st + s.rd LNK_TSCH_TX_OFS.TICKS ∧ (x.grid, x.chan) = cellChannel s asn f c ∧
          (s.on (LNK_CELL1.BCAST c) = true → x.ackReq = false ∧ x.chain = s.rd (LNK_CELL1.CHAIN c)))) ∧
    (∀ k i, s.lnk.seqs[k]? = some i → s.on LNK_CTRL.EN = true →
      let x := seqState s i.prog i.st
      let u := s.at_ (seqInstant i x)
      (seqCond u i (SS.COND.of x) = true →
        ∃ t, exec (.sequencerState k) s = .next t ∧
          (SS.END.of x = 1 → t.lnk.seqs = s.lnk.seqs.eraseIdx k) ∧
          (SS.END.of x ≠ 1 → t.lnk.seqs = s.lnk.seqs.set k { i with st := SS.NEXT.of x, entry := u.atb }) ∧
          (SS.ACTION.of x = 10 → t = { u with lnk := t.lnk, evr := { u.evr with pulses := u.evr.pulses ++ [SS.ARG.of x] } }) ∧
          (SS.ACTION.of x ≠ 10 → seqAgrees u i x = true → t = { u with lnk := t.lnk }) ∧
          (SS.ACTION.of x ≠ 10 → seqAgrees u i x = false → flagged t 4 4 ∧
            t.rd LNK_CNT_SEQ_CLAMP.COUNT = min 0xFFFFFFFF (s.rd LNK_CNT_SEQ_CLAMP.COUNT + 1) ∧
            raisedOnly { u with lnk := t.lnk } t [LNK_CNT_SEQ_CLAMP.reg, LNK_EVT_STS.reg])) ∧
      (seqCond u i (SS.COND.of x) = false → SS.TIMEOUT_EN.of x = 1 →
        exec (.sequencerState k) s = .next { u with lnk := { u.lnk with seqs := u.lnk.seqs.set k { i with st := SS.ALT.of x, entry := u.atb } } }) ∧
      (seqCond u i (SS.COND.of x) = false → SS.TIMEOUT_EN.of x ≠ 1 → exec (.sequencerState k) s = .next u)) ∧
    (∀ k i, s.lnk.seqs[k]? = some i →
      ∃ t, exec (.sequencerClamp k) s = .next t ∧
        sets { s.at_ (i.began + 8000000) with lnk := { s.lnk with seqs := s.lnk.seqs.eraseIdx k } } t LNK_CNT_SEQ_CLAMP.COUNT
          (min 0xFFFFFFFF (s.rd LNK_CNT_SEQ_CLAMP.COUNT + 1))) ∧
    (∀ k, s.lnk.seqs[k]? = none ∨ s.on LNK_CTRL.EN = false → exec (.sequencerState k) s = .next s) ∧
    (∀ k, s.lnk.seqs[k]? = none → exec (.sequencerClamp k) s = .next s)

/-- Staging, preparation and priming (R103, R108, R112-R116, R126, R196, R256). -/
def Obligations.StagingTakesPreparesAndPrimesFrames : Prop :=
  (∀ level b a : Nat, level < 8192 → amplitude level b = a →
    (2 * level) ^ 40 < (2 * a + 1) ^ 40 * 10 ^ b ∧ (a = 0 ∨ (2 * a - 1) ^ 40 * 10 ^ b ≤ (2 * level) ^ 40)) ∧
  ∀ (s : State), s.inv = true →
    (∀ d ds, s.lnk.scheds = d :: ds → d.ent.kind = 0 → d.ent.wuf = false → d.ent.part < 64 →
      (s.on TXC_CTRL.ENABLE = true → s.atb + 2048 < d.ent.air → (∃ e, e < 1024 ∧ (s.ent e).st = 0) →
        ∃ t e, exec .scheduleItem s = .next t ∧ e < 1024 ∧ (s.ent e).st = 0 ∧
          t.ent e = { d.ent with st := 1, seqNo := s.txc.arrivals } ∧
          t.txc = { s.txc with ents := sput s.txc.ents e (t.ent e), arrivals := s.txc.arrivals + 1 } ∧
          raisedOnly { s with lnk := { s.lnk with scheds := ds }, txc := t.txc, free := s.free + 1 } t [TXC_EVT_STS.reg]) ∧
      (s.on TXC_CTRL.ENABLE = true → s.atb + 2048 < d.ent.air → (∀ e, e < 1024 → (s.ent e).st ≠ 0) → exec .scheduleItem s = .next s) ∧
      (∀ c, (s.on TXC_CTRL.ENABLE = false ∧ c = 6) ∨ (s.on TXC_CTRL.ENABLE = true ∧ d.ent.air ≤ s.atb + 2048 ∧ c = 7) →
        ∃ t, exec .scheduleItem s = .next t ∧ t.lnk = { s.lnk with scheds := ds } ∧ t.que = (backToQueue d.ent s).que ∧ flagged t 3 0 ∧
          t.rd (TXC_MISS_CNT.COUNT (c - 1)) = min 0xFFFFFFFF (s.rd (TXC_MISS_CNT.COUNT (c - 1)) + 1))) ∧
    (s.lnk.scheds = [] → exec .scheduleItem s = .next s) ∧
    (∀ e, e < 1056 → (s.ent e).st ≠ 1 ∨ prepTurn e (s.at_ ((s.ent e).air - s.rd TXC_HORIZON.TICKS)) = false → exec (.prepare e) s = .next s) ∧
    (∀ e h hc, e < 1056 →
      let u := s.at_ ((s.ent e).air - s.rd TXC_HORIZON.TICKS)
      let x := s.ent e
      x.st = 1 → prepTurn e u = true → x.kind = 0 → x.node = some h → x.item = some hc → x.part < 64 →
      (badCell (u.cell hc) = true ∨ chainOk u hc = false →
        ∃ t, exec (.prepare e) s = .next t ∧ t.txc.ents = sdel s.txc.ents e ∧ (t.node h).life = 3 ∧ flagged t 5 1) ∧
      (badCell (u.cell hc) = false → chainOk u hc = true → (∃ k ∈ chainCells u 40 (u.ih hc IH.FIRST_DATA), badCell (u.cell k) = true) →
        ∃ t, exec (.prepare e) s = .next t ∧ t.txc.ents = sdel s.txc.ents e ∧ flagged t 5 1)) ∧
    (∀ e h hc, e < 1056 →
      let u := s.at_ ((s.ent e).air - s.rd TXC_HORIZON.TICKS)
      let x := s.ent e
      let m := itemBytes u hc
      x.st = 1 → prepTurn e u = true → x.kind = 0 → x.node = some h → x.item = some hc → x.part < 64 →
      badCell (u.cell hc) = false → chainOk u hc = true → (∀ k ∈ chainCells u 40 (u.ih hc IH.FIRST_DATA), badCell (u.cell k) = false) →
      (x.secure = false →
        let len := m.length + fcsLen u x.rate
        let n := streamCells u x.rate len (max 1 x.nWuf)
        cellsOk u x.part n (u.rd QUE_RX_RESERVE.CELLS) = true →
        ∃ t, exec (.prepare e) s = .next t ∧ (t.ent e).st = 3 ∧ (t.ent e).psdu = m ++ fcsOctets u x.rate m ∧ (t.ent e).len = len ∧
          (t.ent e).dur = frameTicks u x.rate len ∧ (t.ent e).readyAt = u.atb ∧ (∀ k ∈ (t.ent e).cells, (u.cell k).acct = none) ∧
          t.rd QUE_STS.FREE = u.rd QUE_STS.FREE - n) ∧
      (x.secure = false → cellsOk u x.part (streamCells u x.rate (m.length + fcsLen u x.rate) (max 1 x.nWuf)) (u.rd QUE_RX_RESERVE.CELLS) = false →
        exec (.prepare e) s = .next u) ∧
      (x.secure = true →
        let hl := u.ih hc IH.HDR_LEN
        let d := drawFrom u x.part (x.slot.getD 0) (u.ih hc IH.KEY_INDEX) (u.ih hc IH.KEY_IDX_EN == 1)
        (∀ k, d = .ok k →
          let v := u.kslot k
          let len := m.length + (if x.noAux then 0 else auxLen v.mode) + micLen x.level + fcsLen u x.rate
          let n := streamCells u x.rate len (max 1 x.nWuf)
          let hdr := m.take (auxAtOf m) ++ (if x.noAux then [] else auxHeader x.level v v.fc) ++ (m.drop (auxAtOf m)).take (hl - auxAtOf m)
          let body := ccmSecure v.key (panExt u (x.pan.getD 0)) v.fc x.level hdr (m.drop hl)
          (maxPsdu x.rate < len → ∃ t, exec (.prepare e) s = .next t ∧ t.txc.ents = sdel s.txc.ents e) ∧
          (len ≤ maxPsdu x.rate → frameJobsRun u = false ∨ 32 ≤ txUsed u ∨ cellsOk u x.part n (u.rd QUE_RX_RESERVE.CELLS) = false →
            exec (.prepare e) s = .next u) ∧
          (len ≤ maxPsdu x.rate → frameJobsRun u = true → txUsed u < 32 → cellsOk u x.part n (u.rd QUE_RX_RESERVE.CELLS) = true →
          ∃ t, exec (.prepare e) s = .next t ∧ (t.ent e).st = 2 ∧ (t.ent e).fc = some v.fc ∧ (t.ent e).slot = some k ∧
            (t.ent e).psdu = body ++ fcsOctets u x.rate body ∧ t.sec.txJobs = s.sec.txJobs ++ [(⟨e⟩ : TxJob)] ∧
            t.kslot k = { v with fc := v.fc + 1, state := if v.fc + 1 = 0xFFFFFFFF then 2 else 1 })) ∧
        (∀ r, d = .noKey r → ∃ t, exec (.prepare e) s = .next t ∧ t.txc.ents = sdel s.txc.ents e ∧
          t.rd SEC_CNT_NO_KEY.COUNT = min 0xFFFFFFFF (s.rd SEC_CNT_NO_KEY.COUNT + 1) ∧
          t.rd (SEC_PCNT.COUNT x.part 1) = min 0xFFFFFFFF (s.rd (SEC_PCNT.COUNT x.part 1) + 1)) ∧
        (d = .exhaust → ∃ t, exec (.prepare e) s = .next t ∧ t.txc.ents = sdel s.txc.ents e ∧
          t.rd SEC_CNT_EXHAUST.COUNT = min 0xFFFFFFFF (s.rd SEC_CNT_EXHAUST.COUNT + 1)))) ∧
    (∀ e, e < 1056 → (s.ent e).st = 2 → (s.ent e).job = true →
      ∃ t, exec (.encryptResult e) s = .next t ∧ t.sec = { s.sec with txJobs := s.sec.txJobs.filter (fun j => j.ent != e) } ∧
        t.rd SEC_CNT_ENCRYPT.COUNT = min 0xFFFFFFFF (s.rd SEC_CNT_ENCRYPT.COUNT + 1) ∧
        ((s.ent e).dead = false → t.txc = { s.txc with ents := sput s.txc.ents e { s.ent e with st := 3, job := false, readyAt := s.atb } } ∧
          onlyRegs { putStream (s.ent e).cells (entStream s (s.ent e)) s with sec := t.sec, txc := t.txc } t [SEC_CNT_ENCRYPT.reg]) ∧
        ((s.ent e).dead = true → t.txc = { s.txc with ents := sdel s.txc.ents e } ∧
          t.rd TXC_CNT_BURN.COUNT = min 0xFFFFFFFF (s.rd TXC_CNT_BURN.COUNT + 1) ∧
          onlyRegs { s with sec := t.sec, txc := t.txc } t [SEC_CNT_ENCRYPT.reg, TXC_CNT_BURN.reg])) ∧
    (∀ e, e < 1056 → (s.ent e).st ≠ 2 ∨ (s.ent e).job = false → exec (.encryptResult e) s = .next s) ∧
    (∀ e, e < 1056 → (s.ent e).st = 3 →
      let x := s.ent e
      let u := s.at_ (max (x.air - 4096) x.readyAt)
      let ce := corrEntry s x.chain x.grid x.chan
      ∃ y, exec (.priming e) s = .next (u.setEnt e y) ∧ y.st = 4 ∧ y.corr = ce ∧ y.amp = amplitude (CE.LEVEL.of ce) x.backoff ∧
        y.freq = (chanKhz u x.grid x.chan : Int) * 1000 + x.freqAdj ∧ y.tUp = s.rd (TXC_RAMP_T.T_UP (CE.RAMP_CURVE.of ce)) ∧
        y.tDown = s.rd (TXC_RAMP_T.T_DOWN (CE.RAMP_CURVE.of ce)) ∧ y.lead = s.rd (TXC_RAMP_PA.PA_EN_LEAD (CE.RAMP_CURVE.of ce)) ∧
        y.lag = s.rd (TXC_RAMP_PA.PA_EN_LAG (CE.RAMP_CURVE.of ce)) ∧ y.psdu = x.psdu ∧ y.air = x.air ∧ y.cells = x.cells ∧
        (s.txc.tdie = none → y.gain = 0) ∧
        (∀ die, s.txc.tdie = some die → y.gain = Config.tempGain (sget (fun _ => 0) s.txc.tgain (2 * x.chain + rateSlice x.rate))
          (sgn 32 (CE.TEMP_SLOPE.of ce)) die)) ∧
    (∀ e, e < 1056 → (s.ent e).st ≠ 3 → exec (.priming e) s = .next s) ∧
    (∀ e, e < 1056 → (s.ent e).st ≠ 4 → exec (.primed e) s = .next s) ∧
    (∀ e, e < 1056 → (s.ent e).st = 4 →
      (CE.VALID.of (s.ent e).corr = 1 → exec (.primed e) s = .next (s.setEnt e { s.ent e with st := 5 })) ∧
      (CE.VALID.of (s.ent e).corr ≠ 1 → exec (.primed e) s = .next s))

/-- Commit, the air and the return to idle (R26, R99, R110, R112, R119-R122, R132, R139, R210). -/
def Obligations.CommitDecidesAndTheFrameGoesToTheAir : Prop :=
  ∀ (s : State) (e : Nat), s.inv = true → e < 1024 → (s.ent e).chain < 8 → (s.ent e).part < 64 →
    let x := s.ent e
    (x.st ∉ [1, 2, 3, 4, 5] ∨ x.dead = true ∨ commitTurn e s = false → exec (.commit e) s = .next s) ∧
    (x.st = 2 → x.dead = false → commitTurn e s = true → x.kind = 0 → x.wuf = false →
      ∃ t, exec (.commit e) s = .next t ∧ (t.ent e).st = 2 ∧ (t.ent e).dead = true ∧ (t.ent e).job = true ∧ (t.ent e).fc = x.fc ∧
        t.rd (TXC_STAGE0.LAST_MISS e) = 1 ∧ flagged t 3 0 ∧
        t.rd (TXC_MISS_CNT.COUNT 0) = min 0xFFFFFFFF (s.rd (TXC_MISS_CNT.COUNT 0) + 1)) ∧
    (x.st ∈ [1, 3, 4, 5] → x.dead = false → commitTurn e s = true → x.kind = 0 → x.wuf = false →
      let u := s.at_ (x.air - 2048)
      let sum := ((u.txc.carriers.filter (fun c => c.chain == x.chain)).map (·.amp)).sum
      let ask := ((commitAsks u x 0).map (·.2)).sum
      (x.st ≠ 5 → ∃ t, exec (.commit e) s = .next t ∧ missed u t e 1) ∧
      (x.st = 5 → chainUsable u x.chain = false → ∃ t, exec (.commit e) s = .next t ∧ missed u t e 6) ∧
      (x.st = 5 → chainUsable u x.chain = true → (∀ m, m < 16 → ∃ c ∈ u.txc.carriers, c.chain = x.chain ∧ c.idx = m) →
        ∃ t, exec (.commit e) s = .next t ∧ missed u t e 2) ∧
      (∀ m, m < 16 → (∀ c ∈ u.txc.carriers, c.chain = x.chain → c.idx ≠ m) → (∀ k, k < m → ∃ c ∈ u.txc.carriers, c.chain = x.chain ∧ c.idx = k) →
        x.st = 5 → chainUsable u x.chain = true →
        (u.rd (TXC_CH_BUDGET.AMP_MAX x.chain) < sum + x.amp → ∃ t, exec (.commit e) s = .next t ∧ missed u t e 3) ∧
        (sum + x.amp ≤ u.rd (TXC_CH_BUDGET.AMP_MAX x.chain) →
          (u.on PWR_TEMP_STS.TRIP = true ∨ u.leaveShare x.part ask = false ∨ u.budgetNow < u.leaveUsed + ask →
            ∃ t, exec (.commit e) s = .next t ∧ missed u t e 4) ∧
          (u.on PWR_TEMP_STS.TRIP = false → u.leaveShare x.part ask = true → u.leaveUsed + ask ≤ u.budgetNow →
            ∃ t, exec (.commit e) s = .next t ∧ t.ent e = { x with st := 6, carrier := m } ∧
              t.txc.carriers = s.txc.carriers ++ [(⟨x.chain, m, e, x.amp⟩ : Carrier)] ∧ t.leaveUsed = u.leaveUsed + ask ∧
              (∃ y ∈ t.txc.txens, y.chain = x.chain ∧ y.band = rateSlice x.rate ∧ y.ent = e ∧ y.on = u.now + (x.air - x.tUp - x.lead - u.atb) ∧
                y.off = u.now + (x.air + x.dur + x.tDown + x.lag - u.atb)) ∧
              t.rd (TXC_CH_STS.STATE x.chain) = (if u.rd (TXC_CH_STS.STATE x.chain) = 3 then 3 else 2) ∧
              (u.rd (TXC_CH_STS.STATE x.chain) ∉ [2, 3] → ∃ k, k ≤ 640 ∧ sfind t.txc.wakeAt x.chain = some (u.atb + k)) ∧
              t.rd TXC_CNT_COMMIT.COUNT = min 0xFFFFFFFF (s.rd TXC_CNT_COMMIT.COUNT + 1) ∧
              t.rd (TXC_CH_CNT_COMMIT.COUNT x.chain) = min 0xFFFFFFFF (s.rd (TXC_CH_CNT_COMMIT.COUNT x.chain) + 1) ∧
              onlyRegs { u with txc := t.txc, pwr := t.pwr, free := t.free } t
                [TXC_CH_STS.reg x.chain, TXC_CNT_COMMIT.reg, TXC_CH_CNT_COMMIT.reg x.chain, PWR_CNT_GRANT.reg])))) ∧
    (x.st ≠ 6 ∨ x.fault ≠ none → exec (.rampUp e) s = .next s) ∧
    (x.st = 6 → x.fault = none →
      let u := s.at_ (x.air - x.tUp)
      ∃ t, exec (.rampUp e) s = .next t ∧ (t.ent e).st = 7 ∧
        t.rd (TXC_CH_STS.STATE x.chain) = (if u.rd (TXC_CH_STS.STATE x.chain) = 4 then 4 else 3) ∧
        t.posted = u.posted ++ [Posted.air x.chain x.carrier x.air x.freq x.psdu] ∧
        (∀ hc, x.kind = 0 ∨ x.kind = 4 → x.item = some hc → x.wuf = false →
          t.ih hc IH.ATTEMPTS = min 15 (triesOf s hc + 1) ∧ t.que.tries = sset (fun _ => 0) s.que.tries hc (triesOf s hc + 1) ∧
          t.que.airs = sset (fun _ => 0) s.que.airs hc x.air ∧
          onlyRegs { u with txc := t.txc, que := t.que, posted := t.posted } t [TXC_CH_STS.reg x.chain]) ∧
        (x.kind = 0 ∨ x.kind = 4 → x.wuf = true ∨ x.item = none → t.que = s.que) ∧
        (∀ hc, x.kind = 3 → x.item = some hc → t.ih hc IH.ATTEMPTS = min 15 (triesOf s hc + 1) ∧
          ∀ p ∈ t.txc.ents, p.2.item = some hc → p.2.kind = 0 ∨ p.2.kind = 4 → p.2.wuf = true) ∧
        (x.kind = 1 → t.rd TXC_CNT_ACK.COUNT = min 0xFFFFFFFF (s.rd TXC_CNT_ACK.COUNT + 1) ∧
          t.rd (LNK_PCNT.COUNT x.part 2) = min 0xFFFFFFFF (s.rd (LNK_PCNT.COUNT x.part 2) + 1) ∧ t.que = s.que) ∧
        (x.kind = 2 → t.rd TXC_CNT_ACK.COUNT = min 0xFFFFFFFF (s.rd TXC_CNT_ACK.COUNT + 1) ∧ t.que = s.que)) ∧
    (x.st ≠ 7 → x.fault = none → exec (.rampDownEnd e) s = .next s) ∧
    (x.st = 7 → x.fault = none → x.kind = 2 ∨ x.kind = 3 →
      ∃ t, exec (.rampDownEnd e) s = .next t ∧ t.txc.ents = sdel s.txc.ents e ∧ t.txc.carriers = s.txc.carriers.filter (fun c => c.ent != e)) ∧
    (∀ h hc, x.st = 7 → x.fault = none → x.kind = 0 → x.node = some h → x.item = some hc → x.gone = true →
      ∃ t, exec (.rampDownEnd e) s = .next t ∧ t.txc.ents = sdel s.txc.ents e ∧ t.txc.carriers = s.txc.carriers.filter (fun c => c.ent != e) ∧
        (x.burn = true → x.fc.isSome = true → t.rd TXC_CNT_BURN.COUNT = min 0xFFFFFFFF (s.rd TXC_CNT_BURN.COUNT + 1))) ∧
    (∀ h hc, x.st = 7 → x.fault = none → x.kind = 0 → x.node = some h → x.item = some hc → x.gone = false → s.pwr.req = none →
      let u := s.at_ (x.air + x.dur + x.tDown)
      let left := s.txc.carriers.filter (fun c => c.ent != e)
      ∃ t, exec (.rampDownEnd e) s = .next t ∧ t.txc.carriers = left ∧
        t.pwr.held = s.pwr.held.filter (fun l => !decide (l.who = .carrier x.chain x.carrier)) ∧
        ((left.filter (fun c => c.chain == x.chain)).isEmpty = true →
          sfind t.txc.idleAt x.chain = some (u.atb + 32 * u.rd (TXC_CH_CFG.IDLE_HOLD x.chain))) ∧
        (∀ r ∈ s.txc.coex, r.ent = e → r.drop = none →
          (⟨r.pair, e, some (x.air + x.dur + x.tDown + u.rd (TXC_COEX_TIME.REQ_HOLD r.pair))⟩ : CoexReq) ∈ t.txc.coex) ∧
        (x.ackReq = true → x.tsch = false → (t.ent e).st = 8 ∧ ∃ a, t.lnk.atts = s.lnk.atts ++ [a] ∧ a.ent = e ∧ a.node = h ∧
          a.wOpen = x.air + x.dur + u.rd (LNK_RATE_ACKW_OPEN.ACKW_OPEN x.rate) ∧
          a.close = x.air + x.dur + u.rd (LNK_RATE_ACKW_CLOSE.ACKW_CLOSE x.rate) ∧ t.que = s.que) ∧
        (x.ackReq = false → t.txc.ents = sdel s.txc.ents e)) ∧
    (∀ n, n < 8 → sfind s.txc.idleAt n = none ∨ (∃ c ∈ s.txc.carriers, c.chain = n) → exec (.chainIdle n) s = .next s) ∧
    (∀ n at_, n < 8 → sfind s.txc.idleAt n = some at_ → (∀ c ∈ s.txc.carriers, c.chain ≠ n) →
      let u := s.at_ at_
      ∃ t, exec (.chainIdle n) s = .next t ∧
        t.rd (TXC_CH_STS.STATE n) = (if s.rd (TXC_CH_STS.STATE n) = 4 then 4 else if s.on (TXC_CH_CTRL.EN n) = true ∧ chainSet s n = true then 1 else 0) ∧
        t.pwr = (u.returnLeave (.chain n)).pwr ∧ t.txc = { s.txc with idleAt := sdel s.txc.idleAt n } ∧
        onlyRegs { u with txc := t.txc, pwr := t.pwr } t [TXC_CH_STS.reg n])

/-- The coexistence wires (R131-R133). -/
def Obligations.CoexistenceRequestsAndGrants : Prop :=
  ∀ (s : State) (e : Nat), s.inv = true → e < 1024 →
    let x := s.ent e
    let ks := [0, 1, 2, 3]
    let reqs := ks.map TXC_COEX_STS.reg ++ ks.map TXC_COEX_REQS.reg
    let due := ks.filter (fun k => covers s k x && !(s.txc.coex.any (fun r => r.pair == k && r.ent == e && r.drop.isNone)))
    (x.st ∈ [1, 2, 3, 4, 5, 6, 7] → x.dead = false → due ≠ [] →
      ∃ t, exec (.coexRequest e) s = .next t ∧
        (∀ k ∈ due, x.air - s.rd (TXC_COEX_TIME.REQ_LEAD k) ≤ t.atb → ⟨k, e, none⟩ ∈ t.txc.coex) ∧
        (∀ k ∈ ks, t.on (TXC_COEX_STS.REQ k) = (s.on (TXC_COEX_CFG.MODE k) && t.txc.coex.any (fun r => r.pair == k))) ∧
        (∀ k ∈ ks, t.rd (TXC_COEX_REQS.COUNT k) =
          if s.on (TXC_COEX_STS.REQ k) = false ∧ t.on (TXC_COEX_STS.REQ k) = true then min 0xFFFFFFFF (s.rd (TXC_COEX_REQS.COUNT k) + 1)
          else s.rd (TXC_COEX_REQS.COUNT k)) ∧
        t.txc = { s.txc with coex := t.txc.coex } ∧
        ∃ a, onlyRegs { s.at_ a with txc := t.txc } t reqs) ∧
    (x.st ∉ [1, 2, 3, 4, 5, 6, 7] ∨ x.dead = true ∨ due = [] → exec (.coexRequest e) s = .next s) ∧
    (∀ g, x.st ∉ [1, 2, 3, 4, 5] ∨ x.dead = true → exec (.grantSample e g) s = .next s) ∧
    (∀ g, x.st ∈ [1, 2, 3, 4, 5] → x.dead = false → x.kind = 0 → x.wuf = false → x.part < 64 →
      let u := s.at_ (x.air - 2080)
      let granted := fun k => bitOn g k != s.on (TXC_COEX_CFG.GNT_POL k)
      let denied := ks.filter (fun k => covers s k x && s.rd (TXC_COEX_CFG.MODE k) == 2 && !granted k)
      ∃ t, exec (.grantSample e g) s = .next t ∧ (∀ k ∈ ks, t.on (TXC_COEX_STS.GNT k) = granted k) ∧
        (denied = [] → onlyRegs u t (ks.map TXC_COEX_STS.reg)) ∧
        (denied ≠ [] → (x.st ≠ 2 → missed u t e 5) ∧
          (x.st = 2 → (t.ent e).st = 2 ∧ (t.ent e).dead = true ∧ (t.ent e).job = true ∧ t.rd (TXC_STAGE0.LAST_MISS e) = 5) ∧ ∀ k ∈ denied, t.rd (TXC_COEX_DENIED.COUNT k) = min 0xFFFFFFFF (s.rd (TXC_COEX_DENIED.COUNT k) + 1))) ∧
    (∀ k, k < 4 → x.st ∈ [6, 7] → covers s k x = true → s.rd (TXC_COEX_CFG.MODE k) = 2 →
      ∃ t, exec (.gntDrop e k) s = .next t ∧ t.on (TXC_COEX_STS.GNT k) = false ∧ flagged t 3 3 ∧
        t.rd (TXC_COEX_GDROP.COUNT k) = min 0xFFFFFFFF (s.rd (TXC_COEX_GDROP.COUNT k) + 1) ∧
        raisedOnly s t [TXC_COEX_STS.reg k, TXC_COEX_GDROP.reg k, TXC_EVT_STS.reg]) ∧
    (∀ k, k < 4 → x.st ∉ [6, 7] ∨ covers s k x = false ∨ s.rd (TXC_COEX_CFG.MODE k) ≠ 2 → exec (.gntDrop e k) s = .next s) ∧
    (∀ k, k < 4 → (∀ r ∈ s.txc.coex, r.pair ≠ k) ∨ (∃ r ∈ s.txc.coex, r.pair = k ∧ r.drop = none) → exec (.coexRelease k) s = .next s) ∧
    (∀ k, k < 4 → (∃ r ∈ s.txc.coex, r.pair = k) → (∀ r ∈ s.txc.coex, r.pair = k → r.drop ≠ none) →
      ∃ t, exec (.coexRelease k) s = .next t ∧ t.on (TXC_COEX_STS.REQ k) = false ∧
        (∀ r ∈ s.txc.coex, ∀ d, s.atbRuns = true → r.pair = k → r.drop = some d → d ≤ t.atb) ∧
        t.txc = { s.txc with coex := s.txc.coex.filter (fun r => r.pair != k) } ∧ ∃ a, onlyRegs { s.at_ a with txc := t.txc } t reqs)

/-- Faulted ramp-down and the fault latch (R128-R130, R132). -/
def Obligations.FaultsLatchTheirChain : Prop :=
  ∀ (f : Fn) (s : State) (n : Nat), s.inv = true → n < 8 → (∀ p ∈ s.txc.ents, p.2.chain < 8 ∧ p.2.part < 64) →
    let latched := fun (t : State) (b : Nat) => t.rd (TXC_CH_STS.STATE n) = 4 ∧ t.rd (TXC_CH_FAULT.CAUSE n) = bitSet (s.rd (TXC_CH_FAULT.CAUSE n)) b ∧
      t.txc.carriers = s.txc.carriers ∧ t.pwr = s.pwr ∧ t.que = s.que ∧
      (∀ c ∈ s.txc.carriers, c.chain = n → (s.ent c.ent).fault = none →
        t.ent c.ent = { s.ent c.ent with fault := some (s.atb + min (s.ent c.ent).tDown 56) } ∧
          ∀ z ∈ t.txc.txens, z.ent = c.ent → z.air = (s.ent c.ent).air → z.off ≤ s.now + min (s.ent c.ent).tDown 56) ∧
      (∀ e, (∀ c ∈ s.txc.carriers, c.chain = n → c.ent ≠ e) → t.ent e = s.ent e)
    (reaches s f (TXC_CH_CTRL.reg n) → ∃ t, exec (.kill f n) s = .next t ∧ latched t 0) ∧
    (n ∈ s.txc.faultPulse → s.on (TXC_CH_CTRL.FEVT_EN n) = true → ∃ t, exec (.chainFaultEvent n) s = .next t ∧ latched t 1) ∧
    (n ∈ s.txc.faultPulse → s.on (TXC_CH_CTRL.FEVT_EN n) = false →
      exec (.chainFaultEvent n) s = .next { s with txc := { s.txc with faultPulse := s.txc.faultPulse.filter (fun m => m != n) } }) ∧
    (n ∉ s.txc.faultPulse → exec (.chainFaultEvent n) s = .next s) ∧
    (∀ e, e < 1024 → s.rd (TXC_CH_STS.STATE n) = 4 → (s.ent e).chain = n → (s.ent e).st = 5 → (s.ent e).dead = false → (s.ent e).kind = 0 →
      (s.ent e).wuf = false → commitTurn e s = true → ∃ t, exec (.commit e) s = .next t ∧ missed (s.at_ ((s.ent e).air - 2048)) t e 6) ∧
    (reaches s f (TXC_CH_CTRL.reg n) →
      (s.rd (TXC_CH_STS.STATE n) = 4 → s.rd (TXC_CH_FAULT.CAUSE n) = 0 → ∃ t, exec (.faultClr f n) s = .next t ∧ t.rd (TXC_CH_STS.STATE n) = 1 ∧
        t.pwr = (s.returnLeave (.chain n)).pwr ∧ onlyRegs { s with pwr := t.pwr } t [TXC_CH_STS.reg n]) ∧
      (s.rd (TXC_CH_STS.STATE n) ≠ 4 ∨ s.rd (TXC_CH_FAULT.CAUSE n) ≠ 0 → exec (.faultClr f n) s = .next s)) ∧
    (∀ e, e < 1056 → (s.ent e).st ∉ [6, 7] ∨ (s.ent e).fault ≠ none → exec (.cellFault e) s = .next s) ∧
    (∀ e, e < 1056 → (s.ent e).st ∈ [6, 7] → (s.ent e).fault = none → (s.ent e).chain = n →
      ∃ t, exec (.cellFault e) s = .next t ∧ t.rd (TXC_CH_FAULT.CAUSE n) = bitSet (s.rd (TXC_CH_FAULT.CAUSE n)) 3 ∧
        t.rd (TXC_CH_STS.STATE n) = s.rd (TXC_CH_STS.STATE n) ∧ t.txc.carriers = s.txc.carriers ∧ t.que = s.que ∧
        t.ent e = { s.ent e with fault := some (s.atb + min (s.ent e).tDown 56) } ∧ (∀ d, d ≠ e → t.ent d = s.ent d) ∧
        t.rd TXC_CNT_FAULT.COUNT = min 0xFFFFFFFF (s.rd TXC_CNT_FAULT.COUNT + 1) ∧
        t.rd (TXC_CH_CNT_FAULT.COUNT n) = min 0xFFFFFFFF (s.rd (TXC_CH_CNT_FAULT.COUNT n) + 1) ∧ flagged t 3 2 ∧ flagged t 5 1) ∧
    (∀ e h hc at_, e < 1024 → (s.ent e).st ∈ [6, 7] → (s.ent e).fault = some at_ → (s.ent e).kind = 0 → (s.ent e).node = some h →
      (s.ent e).item = some hc → (s.ent e).gone = false → s.pwr.req = none →
      let x := s.ent e
      let u := s.at_ at_
      ∃ t, exec (.rampDownEnd e) s = .next t ∧ t.txc.ents = sdel s.txc.ents e ∧ t.txc.carriers = s.txc.carriers.filter (fun c => c.ent != e) ∧
        t.pwr.held = s.pwr.held.filter (fun l => !decide (l.who = .carrier x.chain x.carrier)) ∧
        (∀ r ∈ s.txc.coex, r.ent = e → r.drop = none →
          (⟨r.pair, e, some (at_ + u.rd (TXC_COEX_TIME.REQ_HOLD r.pair))⟩ : CoexReq) ∈ t.txc.coex) ∧
        (x.fc.isSome = true → t.rd TXC_CNT_BURN.COUNT = min 0xFFFFFFFF (s.rd TXC_CNT_BURN.COUNT + 1)) ∧
        t.que = (backToQueue x (freeCells x.cells s)).que)

/-- Correction entries and the temperature correction (R105, R107, R108). -/
def Obligations.CorrectionEntriesAreWrittenWhole : Prop :=
  ∀ (f : Fn) (s : State) (n x : Nat), s.inv = true → n < 8 → x < 512 →
    (reaches s f TXC_CORR_CMD.reg →
      (∃ t v, exec (.corrWrite f n x) s = .next t ∧ (∀ w, w < 32 → bf v (32 * w) 32 = (s.reg (TXC_CORR_DATA.reg w)).toNat) ∧
        t.txc = { s.txc with corr := sset (fun _ => (0 : BitVec 1024)) s.txc.corr (512 * n + x) v } ∧
        t.rd TXC_CORR_CMD.CHAIN = n ∧ t.rd TXC_CORR_CMD.INDEX = x ∧ onlyRegs { s with txc := t.txc } t [TXC_CORR_CMD.reg]) ∧
      (∃ t, exec (.corrRead f n x) s = .next t ∧
        (∀ w, w < 32 → (t.reg (TXC_CORR_DATA.reg w)).toNat = bf (sget (fun _ => (0 : BitVec 1024)) s.txc.corr (512 * n + x)) (32 * w) 32) ∧
        t.rd TXC_CORR_CMD.CHAIN = n ∧ t.rd TXC_CORR_CMD.INDEX = x ∧
        onlyRegs s t (TXC_CORR_CMD.reg :: (List.range 32).map TXC_CORR_DATA.reg)) ∧
      (∃ t v, exec (.clearValid f n x) s = .next t ∧ CE.VALID.of v = 0 ∧
        (∀ b, b < 1024 → b ≠ 31 → v.getLsbD b = (sget (fun _ => (0 : BitVec 1024)) s.txc.corr (512 * n + x)).getLsbD b) ∧
        t.txc = { s.txc with corr := sset (fun _ => (0 : BitVec 1024)) s.txc.corr (512 * n + x) v } ∧
        t.rd TXC_CORR_CMD.CHAIN = n ∧ t.rd TXC_CORR_CMD.INDEX = x ∧ onlyRegs { s with txc := t.txc } t [TXC_CORR_CMD.reg])) ∧
    (let u := s.at_ (s.atb + (3200000 - s.atb % 3200000))
     ∃ t, exec .tempGainDerive s = .next t ∧ t = { u with txc := { s.txc with tgain := t.txc.tgain, tdie := some (sgn 16 (s.rd PWR_TEMP_STS.TEMP)) } } ∧
       (s.atbRuns = true → t.atb % 3200000 = 0) ∧
       ∀ c b, c < 8 → b < 2 → sget (fun _ => (0 : Int)) t.txc.tgain (2 * c + b) =
         match s.curve 3 (c + 8 * b) with
         | some k => curveAt k.pts (sgn 16 (s.rd PWR_TEMP_STS.TEMP))
         | none => 0)

/-- Node operations of the owner (R182-R186, R197). -/
def Obligations.NodeOperationsGiveTheirStatus : Prop :=
  ∀ (f : Fn) (v : Word) (s : State), s.inv = true → reaches s f QUE_NCMD.reg → s.on QUE_NCMD.BUSY = false →
    let h := NW.HANDLE.of v
    let imp := NW.IMPORT.of v == 1
    let x := ndata s
    let n := s.node h
    let done := fun (t : State) (st : Nat) => t.reg QUE_NRES.reg = BitVec.ofNat 32 st ∧ t.on QUE_NCMD.BUSY = false
    (∀ op c, ((op, c) ∈ [(1, Instr.nodeOpAdd f v), (2, .nodeOpUpdate f v), (3, .nodeOpPrune f v), (4, .nodeOpRead f v), (5, .nodeOpQset f v)]) →
      ncmdWaits s h = true → ∃ t, exec c s = .next t ∧ t.on QUE_NCMD.BUSY = true ∧
        t.que = { s.que with ncmd := some (NW.OP.put v op) } ∧ onlyRegs { s with que := t.que } t [QUE_NCMD.reg] ∧
        (∀ v', NW.OP.put v' 1 ≠ NW.OP.put v op → exec (.nodeOpAdd f v') t = .next t)) ∧
    (ncmdWaits s h = false → n.badPar = 0 →
      (n.life = 0 → badField s h imp x = false → (idxInsertAll h (NC.PAN.of x) (ctxKeys x) s).2 = 0 →
        ∃ t, exec (.nodeOpAdd f v) s = .next t ∧ done t 0 ∧ (t.node h).life = 1 ∧ NC.VALID.of (t.node h).ctx = 1 ∧
          (∀ g ∈ NC.host, g.of (t.node h).ctx = g.of x) ∧ (∀ g ∈ NC.commit, g.of (t.node h).ctx = if imp then g.of x else 0) ∧
          NC.QLEN.of (t.node h).ctx = 0 ∧ NC.HEAD.of (t.node h).ctx = 0xFFFFF ∧
          (∀ a ∈ ctxKeys x, idxLookup t (NC.PAN.of x) a = some h) ∧ t.que.nodes = sput s.que.nodes h (t.node h) ∧
          onlyRegs { s with que := t.que } t [QUE_NCMD.reg, QUE_NRES.reg, QUE_IDX_STS.reg]) ∧
      (∀ k, (n.life ≠ 0 ∧ k = 1) ∨ (n.life = 0 ∧ badField s h imp x = true ∧ k = 5) ∨
          (n.life = 0 ∧ badField s h imp x = false ∧ k = (idxInsertAll h (NC.PAN.of x) (ctxKeys x) s).2 ∧ k ≠ 0) →
        ∃ t, exec (.nodeOpAdd f v) s = .next t ∧ done t k ∧ t.que = { s.que with ncmd := none } ∧
          onlyRegs { s with que := t.que } t [QUE_NCMD.reg, QUE_NRES.reg, QUE_CNT_IDX_FAIL.reg]) ∧
      (n.life = 1 → badField s h imp x = false → NC.PART.of x = NC.PART.of n.ctx → (n.poison = false ∨ imp = true) →
        let old := ctxPanKeys n.ctx
        let new := ctxPanKeys x
        (idxInsertAll h (NC.PAN.of x) ((new.filter (fun k => !old.contains k)).map (·.2)) (idxDrop (old.filter (fun k => !new.contains k)) s)).2 = 0 →
        ∃ t, exec (.nodeOpUpdate f v) s = .next t ∧ done t 0 ∧ (t.node h).poison = false ∧
          (∀ g ∈ NC.host, g.of (t.node h).ctx = g.of x) ∧
          (NW.RESET_DUP.of v = 1 ∨ NC.KEY_SLOT.of x ≠ NC.KEY_SLOT.of n.ctx →
            NC.RX_FC.of (t.node h).ctx = 0 ∧ NC.SEQ_VALID.of (t.node h).ctx = 0) ∧
          (NW.RESET_DUP.of v = 0 → NC.KEY_SLOT.of x = NC.KEY_SLOT.of n.ctx → imp = false →
            NC.RX_FC.of (t.node h).ctx = NC.RX_FC.of n.ctx ∧ NC.LAST_SEQ.of (t.node h).ctx = NC.LAST_SEQ.of n.ctx) ∧
          (NW.RESET_DRIFT.of v = 1 ∨ NC.CLASS.of x ≠ NC.CLASS.of n.ctx → ∀ g ∈ NC.drift, g.of (t.node h).ctx = 0) ∧
          (s.que.index.Pairwise (fun a b => a.1 ≠ b.1) → (∀ k ∈ old, idxLookup s k.1 k.2 = some h) →
            ∀ a ∈ ctxKeys x, idxLookup t (NC.PAN.of x) a = some h) ∧
          ((∀ p ∈ s.txc.ents, p.2.node ≠ some h) → (∀ d ∈ s.lnk.scheds, d.ent.node ≠ some h) →
            (t.node h).life = 1 ∧ t.que.nodes = sput s.que.nodes h (t.node h) ∧
            onlyRegs { s with que := t.que } t [QUE_NCMD.reg, QUE_NRES.reg, QUE_IDX_STS.reg])) ∧
      (∀ k, n.life = 1 → ((badField s h imp x = true ∨ NC.PART.of x ≠ NC.PART.of n.ctx) ∧ k = 5) ∨
          (badField s h imp x = false ∧ NC.PART.of x = NC.PART.of n.ctx ∧ n.poison = true ∧ imp = false ∧ k = 6) →
        ∃ t, exec (.nodeOpUpdate f v) s = .next t ∧ done t k ∧ t.que = { s.que with ncmd := none } ∧
          onlyRegs { s with que := t.que } t [QUE_NCMD.reg, QUE_NRES.reg]) ∧
      (n.life ≠ 1 → ∀ c ∈ [Instr.nodeOpUpdate f v, .nodeOpPrune f v, .nodeOpQset f v],
        ∃ t, exec c s = .next t ∧ done t 2 ∧ t.que = { s.que with ncmd := none } ∧
          onlyRegs { s with que := t.que } t [QUE_NCMD.reg, QUE_NRES.reg]) ∧
      (n.life = 1 → ∃ t, exec (.nodeOpPrune f v) s = .next t ∧ t.on QUE_NCMD.BUSY = true ∧ (t.node h).life = 2 ∧
        (h, .reg) ∈ t.que.prunes ∧ t.reg QUE_NRES.reg = s.reg QUE_NRES.reg) ∧
      (n.life ≠ 0 → ∃ t, exec (.nodeOpRead f v) s = .next t ∧ done t (16 * n.life + (if n.poison then 64 else 0)) ∧ ndata t = n.ctx ∧
        t.que = { s.que with ncmd := none } ∧
        onlyRegs { s with que := t.que } t (QUE_NCMD.reg :: QUE_NRES.reg :: (List.range 16).map QUE_NDATA.reg)) ∧
      (n.life = 0 → ∃ t, exec (.nodeOpRead f v) s = .next t ∧ done t (2 + (if n.poison then 64 else 0)) ∧ t.que = { s.que with ncmd := none } ∧
        onlyRegs { s with que := t.que } t [QUE_NCMD.reg, QUE_NRES.reg]) ∧
      (n.life = 1 → n.poison = true → ∃ t, exec (.nodeOpQset f v) s = .next t ∧ done t 6 ∧ t.que = { s.que with ncmd := none } ∧
        onlyRegs { s with que := t.que } t [QUE_NCMD.reg, QUE_NRES.reg]) ∧
      (n.life = 1 → n.poison = false → ∃ t, exec (.nodeOpQset f v) s = .next t ∧ done t 0 ∧
        NC.QHOLD.of (t.node h).ctx = NW.QHOLD_VAL.of v ∧ NC.QOVR.of (t.node h).ctx = (if NW.CLR_OVR.of v = 1 then 0 else NC.QOVR.of n.ctx) ∧
        (∀ g ∈ [NC.VALID, NC.HEAD, NC.QLEN, NC.KEY_SLOT, NC.RX_FC, NC.ANCHOR], g.of (t.node h).ctx = g.of n.ctx) ∧
        onlyRegs { s with que := t.que } t [QUE_NCMD.reg, QUE_NRES.reg]))

/-- Pruning, the sweep, the NTW window and the reserve (R186, R196, R198, R204). -/
def Obligations.PruneSweepWindowAndReserve : Prop :=
  ∀ (f : Fn) (s : State) (h : Nat), s.inv = true → h < 65536 →
    ((s.node h).life = 2 → pruneClear s h = true →
      (s.que.prunes.filter (fun p => p.1 == h) = [(h, .reg)] →
        ∃ t, exec (.pruneComplete h) s = .next t ∧ (∀ k ∈ t.que.index, k.2.node ≠ h) ∧ (∀ p ∈ t.que.prunes, p.1 ≠ h) ∧
          t.rd QUE_CNT_PRUNED.COUNT = min 0xFFFFFFFF (s.rd QUE_CNT_PRUNED.COUNT + 1) ∧ flagged t 5 4 ∧ t.on QUE_NCMD.BUSY = false ∧
          t.reg QUE_NRES.reg = 0 ∧ (s.nc h NC.HEAD = 0xFFFFF → t.que.nodes = sdel s.que.nodes h)) ∧
      (∀ x c, s.que.prunes.filter (fun p => p.1 == h) = [(h, .host x)] → s.ctx x = some c → c.stage = 1 → (s.port c.port).closing = false →
        (∀ q ∈ s.hst.ctxs, q.2.dupOf ≠ some x) → s.nc h NC.HEAD = 0xFFFFF →
        ∃ t r, exec (.pruneComplete h) s = .next t ∧ t.hst.ready = s.hst.ready ++ [r] ∧ r.ctx = x ∧ CQ.STATUS.of r.entry = 0 ∧
          CQ.TAG.of r.entry = SQ.TAG.of c.sq)) ∧
    ((s.node h).life ≠ 2 ∨ pruneClear s h = false → exec (.pruneComplete h) s = .next s) ∧
    ((s.node h).life ≠ 3 → exec (.sweepDone h) s = .next s) ∧
    ((s.node h).life = 3 → ∃ t, exec (.sweepDone h) s = .next t ∧ (t.node h).life = 1 ∧
      NC.HEAD.of (t.node h).ctx = 0xFFFFF ∧ NC.QLEN.of (t.node h).ctx = (stagedOf s h).length % 256 ∧
      NC.QOVR.of (t.node h).ctx = s.nc h NC.QOVR ∧ (∀ g ∈ NC.host, g.of (t.node h).ctx = g.of (s.node h).ctx) ∧
      t.que.sweeps = s.que.sweeps.filter (fun j => j != h) ∧ t.on QUE_STS.SWEEP = !t.que.sweeps.isEmpty ∧ flagged t 5 5) ∧
    (s.pwr.mode = 0 → s.hidden .pf (0x1000000 + 64 * h) = false → (s.node h).badPar = 0 →
      let w := if (s.node h).life = 0 then 0 else (s.node h).ctx
      exec (.ntwCapture .pf h) s = .next { s with que := { s.que with ntwShadow := w, ntwOf := some h },
                                                    posted := s.posted ++ [Posted.readData (BitVec.ofNat 32 (bf w 0 32))] }) ∧
    (∀ n, 0 < n → n < 64 → s.pwr.mode = 0 → exec (.ntwCapture (.vf n) h) s =
      .next ((s.bark n 1 0 (0x1000000 + 64 * h)).post (.readData 0))) ∧
    (∀ n off v, 0 < n → n < 64 → off < 0x400000 → s.pwr.mode = 0 → exec (.ntwWrite (.vf n) off v) s = .next (s.bark n 1 0 (0x1000000 + off))) ∧
    (∀ off v, off < 0x400000 → s.pwr.mode = 0 → s.hidden .pf (0x1000000 + off) = false →
      ∃ t, exec (.ntwWrite .pf off v) s = .next t ∧ flagged t 5 3 ∧
        t.rd QUE_CNT_NTW_WR.COUNT = min 0xFFFFFFFF (s.rd QUE_CNT_NTW_WR.COUNT + 1) ∧
        raisedOnly s t [QUE_CNT_NTW_WR.reg, QUE_EVT_STS.reg]) ∧
    (∀ v, reaches s f QUE_RX_RESERVE.reg →
      (s.on QUE_CTRL.LOCK = true → exec (.rxReserveWrite f v) s = .next s) ∧
      (s.on QUE_CTRL.LOCK = false → cellGuarSum s + v % 2 ^ 20 ≤ 786432 →
        ∃ t, exec (.rxReserveWrite f v) s = .next t ∧ sets s t QUE_RX_RESERVE.CELLS (v % 2 ^ 20)) ∧
      (s.on QUE_CTRL.LOCK = false → 786432 < cellGuarSum s + v % 2 ^ 20 →
        ∃ t, exec (.rxReserveWrite f v) s = .next t ∧ t.rd PRT_MAP_ERR.OFFSET = 0xC ∧ t.rd PRT_MAP_ERR.QUE = 1 ∧
          t.rd PRT_MAP_ERR.SET = 1 ∧ flagged t 7 2 ∧ raisedOnly s t [PRT_MAP_ERR.reg, PRT_EVT_STS.reg]))

/-- The partition map, the shares and the enable (R202, R204, R212, R439). -/
def Obligations.MapSharesAndEnableKeepTheirRules : Prop :=
  ∀ (f : Fn) (s : State), s.inv = true →
    let refused := fun (t : State) (off : Nat) => t.rd PRT_MAP_ERR.OFFSET = off ∧ t.rd PRT_MAP_ERR.QUE = 0 ∧ t.rd PRT_MAP_ERR.SET = 1 ∧
      flagged t 7 2 ∧ raisedOnly s t [PRT_MAP_ERR.reg, PRT_EVT_STS.reg]
    let sums := fun (u : State) =>
      ((List.range 64).map (fun p => u.rd (PRT_P_LANE.GUAR p))).sum ≤ 512 ∧
      ((List.range 64).map (fun p => u.rd (PRT_P_CELL_GUAR.GUAR p))).sum + u.rd QUE_RX_RESERVE.CELLS ≤ 786432 ∧
      ((List.range 64).map (fun p => u.rd (PRT_P_AIR_GUAR.GUAR p))).sum ≤ u.rd PRT_AIR_TOTAL.TICKS ∧
      ((List.range 64).map (fun p => u.rd (PRT_P_PWR.GUAR p))).sum ≤ u.budget 1
    (∀ off idle v, mapIdle s off = some idle → off % 4 = 0 → reaches s f (0x700000 + off) →
      let a := 0x700000 + off
      let u := s.regWrite a v
      (idle = true ∨ u.ownerAt a = s.ownerAt a → exec (.mapEntryWrite f off v) s = .next u) ∧
      (idle = false → u.ownerAt a ≠ s.ownerAt a → ∃ t, exec (.mapEntryWrite f off v) s = .next t ∧ refused t off)) ∧
    (∀ off ok v, sumsOk (s.regWrite (0x700000 + off) v) off = some ok → reaches s f (0x700000 + off) →
      (ok = true → exec (.shareWrite f off v) s = .next (s.regWrite (0x700000 + off) v)) ∧
      (ok = false → ∃ t, exec (.shareWrite f off v) s = .next t ∧ refused t off)) ∧
    (sums s → ∀ t, (∃ off v, shareEntry off = true ∧ exec (.shareWrite f off v) s = .next t) ∨ (∃ v, exec (.rxReserveWrite f v) s = .next t) →
      sums t) ∧
    (∀ p, 0 < p → p < 64 → reaches s f (PRT_P_CFG.reg p) → s.on PRT_CTRL.LOCK = false →
      (s.rd (PRT_P_CFG.STATE p) = 0 → ∃ t, exec (.partitionEnableWrite f p true) s = .next t ∧ t.rd (PRT_P_CFG.STATE p) = 1 ∧
        t.rd (PRT_P_CFG.EN p) = 1 ∧ onlyRegs s t [PRT_P_CFG.reg p]) ∧
      (s.rd (PRT_P_CFG.STATE p) = 1 → holdsNothing s p = true → ∃ t, exec (.partitionEnableWrite f p false) s = .next t ∧
        t.rd (PRT_P_CFG.STATE p) = 0 ∧ t.rd (PRT_P_CFG.EN p) = 0 ∧ onlyRegs s t [PRT_P_CFG.reg p]) ∧
      (s.rd (PRT_P_CFG.STATE p) = 1 → holdsNothing s p = false → ∃ t, exec (.partitionEnableWrite f p false) s = .next t ∧
        refused t (0x100 + 32 * p)) ∧
      (s.rd (PRT_P_CFG.STATE p) = 2 → ∀ en, exec (.partitionEnableWrite f p en) s = .next s)) ∧
    (∀ en, reaches s f (PRT_P_CFG.reg 0) → exec (.partitionEnableWrite f 0 en) s = .next s) ∧
    (reaches s f PRT_FLT_POP.reg → exec (.fltPop f) s = .next { s with prt := { s.prt with log := s.prt.log.drop 1 } })

/-- Partition resets (R209-R211, R244). -/
def Obligations.PartitionResetsRunTheirSteps : Prop :=
  ∀ (f : Fn) (s : State) (p : Nat), s.inv = true → 0 < p → p < 64 →
    (∀ x ∈ s.txc.ents, x.2.chain < 8 ∧ x.2.part < 64) → (∀ d ∈ s.lnk.scheds, d.ent.part < 64) →
    (reaches s f (PRT_P_RESET.reg p) → (∀ r ∈ s.prt.resets, r.part ≠ p) →
      (∃ t, exec (.full f p) s = .next t ∧ t.rd (PRT_P_CFG.STATE p) = 2 ∧ t.on (PRT_P_RESET.BUSY p) = true ∧
        t.prt.resets = s.prt.resets ++ [(⟨p, 1, s.rd (PRT_P_CFG.STATE p) == 0⟩ : PReset)] ∧
        (∀ k, k < 64 → s.rd (LNK_CMP_CTRL.PART k) = p → t.on (LNK_CMP_CTRL.ARMED k) = false)) ∧
      (∃ t, exec (.depart f p) s = .next t ∧ t.rd (PRT_P_CFG.STATE p) = 2 ∧ t.on (PRT_P_RESET.BUSY p) = true ∧
        t.prt.resets = s.prt.resets ++ [(⟨p, 2, s.rd (PRT_P_CFG.STATE p) == 0⟩ : PReset)] ∧
        (∀ i, i < 64 → s.rd (LNK_PAN_CFG.PART i) = p → t.on (LNK_PAN_CFG.EN i) = false) ∧
        (∀ c, c < 8192 → s.rd (LNK_CELL1.PART c) = p → t.on (LNK_CELL1.EN c) = false))) ∧
    (reaches s f (PRT_P_RESET.reg p) → (∃ r ∈ s.prt.resets, r.part = p) → exec (.full f p) s =
      .next { s with prt := { s.prt with resets := s.prt.resets.map (fun r => if r.part = p then { r with scope := max r.scope 1 } else r) } }) ∧
    (reaches s f (PRT_P_RESET.reg p) → (∃ r ∈ s.prt.resets, r.part = p) → ∃ t, exec (.depart f p) s = .next t ∧
      t.prt.resets = s.prt.resets.map (fun r => if r.part = p then { r with scope := max r.scope 2 } else r) ∧
      (∀ i, i < 64 → s.rd (LNK_PAN_CFG.PART i) = p → t.on (LNK_PAN_CFG.EN i) = false) ∧
      (∀ c, c < 8192 → s.rd (LNK_CELL1.PART c) = p → t.on (LNK_CELL1.EN c) = false)) ∧
    ((∃ j, s.flc.load = some j ∧ j.mode = 2) → exec (.partitionResetDone p) s = .next s) ∧
    (reaches s f (PRT_P_RESET.reg 0) → exec (.full f 0) s = .next s ∧ exec (.depart f 0) s = .next s) ∧
    ((∀ r ∈ s.prt.resets, r.part ≠ p) → exec (.partitionResetDone p) s = .next s) ∧
    (∀ r, s.prt.resets.find? (fun r => r.part == p) = some r → (∀ j, s.flc.load = some j → j.mode ≠ 2) →
      ((r.scope = 2 ∧ (nodesOf s p).all (pruneClear s) = false) → exec (.partitionResetDone p) s = .next s) ∧
      (r.scope ≠ 2 ∨ (nodesOf s p).all (pruneClear s) = true →
        let off := r.wasOff = true ∨ r.scope = 2
        ∃ t, exec (.partitionResetDone p) s = .next t ∧ t.rd (PRT_P_CFG.STATE p) = (if off then 0 else 1) ∧ (off → t.rd (PRT_P_CFG.EN p) = 0) ∧
          t.on (PRT_P_RESET.BUSY p) = false ∧ (∀ c ∈ resetCounters p, t.rd c = 0) ∧ flagged t 7 3 ∧
          t.prt.resets = s.prt.resets.filter (fun q => q.part != p) ∧
          (r.scope = 2 → (∀ k ∈ t.sec.slots, s.slotOwner k.1 ≠ p) ∧
            t.sec.longs = s.sec.longs.filter (fun k => k.1 == 0 || s.longOwner k.1 != p))))

/-- The checks of a key load (R246). -/
def Obligations.LoadsEndWithTheFirstFailingCheck : Prop :=
  ∀ (s : State) (k : Kop) (ks : List Kop), s.inv = true → s.sec.kops = k :: ks → k.ctx = none → k.op = 1 ∨ k.op = 2 → k.tag < 64 →
    let b := k.blob
    let w := KB.WRAP_SLOT.of b
    let exists_ : Prop := if k.long then k.slot < 256 else k.slot < 65536
    let owner := if k.long then s.longOwner k.slot else s.slotOwner k.slot
    let held := if k.long then (s.lslot k.slot).state else (s.kslot k.slot).state
    let format : Prop := KB.FORMAT.of b = 1 ∧ KB.ZERO0.of b = 0 ∧ KB.ZERO1.of b = 0 ∧
      if k.long then KB.KIND.of b = 2 ∧ KB.LONG_ZERO.of b = 0 else KB.KIND.of b = 1 ∧ KB.KEY_ID_MODE.of b ≠ 3 ∧ KB.TX_FC.of b ≠ 0xFFFFFFFF
    let allowed : Prop := if k.long then w = 0 ∨ s.longOwner w = owner else w ≠ 0 ∧ s.longOwner w = owner
    let bound : Prop := k.long = false ∧ KB.PART_BIND.of b = 1 ∧ KB.PART.of b ≠ owner
    let failed := fun (t : State) => t.sec = { s.sec with kops := ks, unwrapKey := t.sec.unwrapKey } ∧
      t.rd SEC_CNT_KOP_FAIL.COUNT = min 0xFFFFFFFF (s.rd SEC_CNT_KOP_FAIL.COUNT + 1)
    let late := fun (key : List Byte) (t : State) =>
      (unwrap key b = none → t.rd SEC_KOP_RES.STATUS = 5) ∧
      (∀ p, unwrap key b = some p →
        (k.long = false → (∃ o ∈ p.drop 16, o ≠ 0) → t.rd SEC_KOP_RES.STATUS = 2) ∧
        (k.long = true ∨ (∀ o ∈ p.drop 16, o = 0) →
          (bound → t.rd SEC_KOP_RES.STATUS = 6) ∧
          (¬bound → t.rd SEC_KOP_RES.STATUS = 0 ∧ t.rd SEC_KOP_RES.STATE = 1 ∧
            (k.long = true → t.sec.longs = sput s.sec.longs k.slot { state := 1, key := p }) ∧
            (k.long = false → t.sec.slots = sput s.sec.slots k.slot
              { state := 1, key := p.take 16, mode := KB.KEY_ID_MODE.of b, index := KB.KEY_INDEX.of b, source := KB.KEY_SOURCE.of b,
                fc := KB.TX_FC.of b }))))
    (∀ key, s.sec.unwrapKey = some key → exists_ → k.tag = 0 ∨ owner = k.tag →
      ∃ t, exec .kopDone s = .next t ∧ t.sec.kops = ks ∧ t.on SEC_KOP_CMD.BUSY = false ∧ flagged t 6 6 ∧ late key t ∧
        (t.rd SEC_KOP_RES.STATUS ≠ 0 → failed t)) ∧
    (s.sec.unwrapKey = none → keyJobsRun s = true → txUsed s < 32 →
      ∃ t, exec .kopDone s = .next t ∧ t.sec.kops = ks ∧ t.on SEC_KOP_CMD.BUSY = false ∧ flagged t 6 6 ∧
        (¬exists_ → t.rd SEC_KOP_RES.STATUS = 7) ∧
        (exists_ → k.tag ≠ 0 → owner ≠ k.tag → t.rd SEC_KOP_RES.STATUS = 9 ∧ t.rd (PRT_PCNT.COUNT k.tag 0) =
          min 0xFFFFFFFF (s.rd (PRT_PCNT.COUNT k.tag 0) + 1)) ∧
        (exists_ → k.tag = 0 ∨ owner = k.tag →
          (k.long = true ∧ k.slot = 0 → t.rd SEC_KOP_RES.STATUS = 7) ∧
          (¬(k.long = true ∧ k.slot = 0) →
            (s.sec.tamper = true → t.rd SEC_KOP_RES.STATUS = 8) ∧
            (s.sec.tamper = false →
              (k.op = 1 ∧ held ≠ 0 → t.rd SEC_KOP_RES.STATUS = 1) ∧
              (k.op = 2 ∨ held = 0 →
                (¬format → t.rd SEC_KOP_RES.STATUS = 2) ∧
                (format → ¬allowed → t.rd SEC_KOP_RES.STATUS = 4) ∧
                (format → allowed → (s.lslot w).state ≠ 1 → t.rd SEC_KOP_RES.STATUS = 3) ∧
                (format → allowed → (s.lslot w).state = 1 → late (s.lslot w).key t))))) ∧
        (t.rd SEC_KOP_RES.STATUS ≠ 0 → failed t))

/-- Key operations beside the load's checks (R247-R249, R266). -/
def Obligations.KeyCommandsQueueEraseAndReport : Prop :=
  ∀ (f : Fn) (s : State) (slot : Nat) (long : Bool), s.inv = true → slot < 65536 →
    (reaches s f SEC_KOP_CMD.reg →
      ∀ op c, ((op, c) ∈ [(1, Instr.load f slot long), (2, .replace f slot long), (3, .erase f slot long), (4, .status f slot long)]) →
        (s.on SEC_KOP_CMD.BUSY = true → exec c s = .next s) ∧
        (s.on SEC_KOP_CMD.BUSY = false → ∃ t b, exec c s = .next t ∧
          t.sec = { s.sec with kops := s.sec.kops ++ [(⟨0, none, op, slot, long, b⟩ : Kop)], unwrapKey := t.sec.unwrapKey } ∧
          (s.sec.unwrapKey ≠ none → t.sec.unwrapKey = s.sec.unwrapKey) ∧
          (op ≤ 2 → s.sec.kops = [] → s.sec.unwrapKey = none → keyJobsRun s = true → txUsed s < 32 → loadEarly s ⟨0, none, op, slot, long, b⟩ = 0 →
            t.sec.unwrapKey = some (s.lslot (KB.WRAP_SLOT.of b)).key) ∧
          (∀ w, w < 20 → bf b (32 * w) 32 = (s.reg (SEC_KBLOB.reg w)).toNat) ∧ t.rd SEC_KOP_CMD.SLOT = slot ∧
          t.on SEC_KOP_CMD.LONG = long ∧ t.on SEC_KOP_CMD.BUSY = true ∧ onlyRegs { s with sec := t.sec } t [SEC_KOP_CMD.reg])) ∧
    (s.sec.kops = [] → exec .kopDone s = .next s) ∧
    (∀ k ks, s.sec.kops = k :: ks → k.ctx = none → k.tag = 0 → k.slot = slot → k.long = long →
      let exists_ : Prop := if long then slot < 256 else slot < 65536
      let gone := fun (t : State) => (long = false → t.sec.slots = sdel s.sec.slots slot ∧ t.sec.longs = s.sec.longs) ∧
        (long = true → t.sec.longs = sdel s.sec.longs slot ∧ t.sec.slots = s.sec.slots)
      (k.op = 3 → exists_ → ¬(long = true ∧ slot = 0) → ∃ t, exec .kopDone s = .next t ∧ t.rd SEC_KOP_RES.STATUS = 0 ∧ gone t ∧
        t.on SEC_KOP_CMD.BUSY = false ∧ flagged t 6 6 ∧ t.sec.kops = ks) ∧
      (k.op = 3 ∧ (long = true ∧ slot = 0) ∨ (k.op = 3 ∨ k.op = 4) ∧ ¬exists_ → ∃ t, exec .kopDone s = .next t ∧ t.rd SEC_KOP_RES.STATUS = 7 ∧
        t.sec = { s.sec with kops := ks, unwrapKey := t.sec.unwrapKey } ∧
        t.rd SEC_CNT_KOP_FAIL.COUNT = min 0xFFFFFFFF (s.rd SEC_CNT_KOP_FAIL.COUNT + 1) ∧ flagged t 6 6) ∧
      (k.op = 4 → exists_ → ∃ t, exec .kopDone s = .next t ∧ t.rd SEC_KOP_RES.STATUS = 0 ∧ t.on SEC_KOP_CMD.BUSY = false ∧
        t.rd SEC_KOP_RES.STATE = (if long then (s.lslot slot).state else (s.kslot slot).state) % 4 ∧
        (long = false → t.rd SEC_KOP_FC.TX_FC = (s.kslot slot).fc % 2 ^ 32 ∧ t.rd SEC_KOP_SRC.KEY_SOURCE = (s.kslot slot).source % 2 ^ 32 ∧
          t.rd SEC_KOP_ATTR.KEY_ID_MODE = (s.kslot slot).mode % 4 ∧ t.rd SEC_KOP_ATTR.KEY_INDEX = (s.kslot slot).index % 256) ∧
        raisedOnly { s with sec := { s.sec with kops := ks, unwrapKey := t.sec.unwrapKey } } t
          [SEC_KOP_CMD.reg, SEC_KOP_RES.reg, SEC_KOP_ATTR.reg, SEC_KOP_FC.reg, SEC_KOP_SRC.reg, SEC_EVT_STS.reg]) ∧
      (k.op = 1 ∨ k.op = 2 → s.sec.unwrapKey = none → keyJobsRun s = false ∨ 32 ≤ txUsed s → loadEarly s k = 0 → exec .kopDone s = .next s))

/-- Seal jobs, marks and the random source (R249, R259, R260, R262, R266). -/
def Obligations.SealJobsMarksAndTheRandomSource : Prop :=
  ∀ (f : Fn) (s : State) (l : Nat), s.inv = true → l < 256 →
    (reaches s f SEC_SEAL_CTRL.reg → ∀ op c, ((op, c) ∈ [(1, Instr.sealOp f l), (2, .unsealOp f l)]) →
      (s.on SEC_SEAL_CTRL.BUSY = true → exec c s = .next s) ∧
      (s.on SEC_SEAL_CTRL.BUSY = false → ∃ t, exec c s = .next t ∧ t.sec = { s.sec with sealing := some op, sealKey := t.sec.sealKey } ∧
        (s.sec.sealKey ≠ none → t.sec.sealKey = s.sec.sealKey) ∧
        (s.sec.sealKey = none → sealRefusal op t = 0 → keyJobsRun s = true → txUsed s < 32 → frameJobWaits s = false →
          t.sec.sealKey = some (s.lslot l).key) ∧
        t.rd SEC_SEAL_CTRL.LONG = l ∧ t.on SEC_SEAL_CTRL.BUSY = true ∧ onlyRegs { s with sec := t.sec } t [SEC_SEAL_CTRL.reg])) ∧
    (s.sec.sealing = none → exec .sealDone s = .next s) ∧
    (∀ op, s.sec.sealing = some op → (op = 1 ∨ op = 2) →
      let k := s.rd SEC_SEAL_CTRL.LONG
      let a := s.rd SEC_SEAL_LEN.ADATA
      let p := s.rd SEC_SEAL_LEN.PDATA
      let src := s.rd SEC_SEAL_SRC.OFFSET
      let dst := s.rd SEC_SEAL_DST.OFFSET
      let fits : Prop := k ≠ 0 ∧ src + a + p + (if op = 2 then 16 else 0) ≤ 0x200000 ∧ dst + p + (if op = 1 then 16 else 0) ≤ 0x200000
      let ad := s.bytes (supBase + src) a
      let d := s.bytes (supBase + src + a) p
      let ends := fun (t : State) (st : Nat) (bs : List Byte) => t.rd SEC_SEAL_CTRL.STATUS = st ∧ t.on SEC_SEAL_CTRL.BUSY = false ∧
        t.sec = { s.sec with sealing := none, sealKey := none } ∧
        (∀ n, n < 0x3000000 ∨ 0x3020000 ≤ n → n < supBase + dst ∨ supBase + dst + bs.length ≤ n → t.byte n = s.byte n) ∧
        (∀ n, n < bs.length → t.byte (supBase + dst + n) = bs.getD n 0) ∧
        onlyRegs { s with sec := t.sec, mem := t.mem, badPar := t.badPar, eng := t.eng } t [SEC_SEAL_CTRL.reg]
      let runs := fun (key : List Byte) =>
        let opened := Config.ccmPlain key (sealNonce s) ad d
        let good : Prop := Config.ccmTag 16 key (sealNonce s) ad opened = s.bytes (supBase + src + a + p) 16
        (op = 1 → ∃ t, exec .sealDone s = .next t ∧
          ends t 0 (Config.ccmCipher key (sealNonce s) ad d ++ Config.ccmTag 16 key (sealNonce s) ad d)) ∧
        (op = 2 → good → ∃ t, exec .sealDone s = .next t ∧ ends t 0 opened) ∧
        (op = 2 → ¬good → ∃ t, exec .sealDone s = .next t ∧ ends t 1 [])
      (∀ key, s.sec.sealKey = some key → fits → runs key) ∧
      (s.sec.sealKey = none →
        (¬fits → ∃ t, exec .sealDone s = .next t ∧ ends t 3 []) ∧
        (fits → s.sec.tamper = true → ∃ t, exec .sealDone s = .next t ∧ ends t 4 []) ∧
        (fits → s.sec.tamper = false → (s.lslot k).state ≠ 1 → ∃ t, exec .sealDone s = .next t ∧ ends t 2 []) ∧
        (fits → s.sec.tamper = false → (s.lslot k).state = 1 →
          (keyJobsRun s = false ∨ 32 ≤ txUsed s ∨ frameJobWaits s = true → exec .sealDone s = .next s) ∧
          (keyJobsRun s = true → txUsed s < 32 → frameJobWaits s = false → runs (s.lslot k).key)))) ∧
    (reaches s f SEC_MARK_POP.reg → exec (.markPop f) s = .next { s with sec := { s.sec with marks := s.sec.marks.drop 1 } }) ∧
    (∀ apt, ∃ t, exec (.rngHealthFail apt) s = .next t ∧ t.rd (if apt then SEC_RNG_STS.APT_FAIL else SEC_RNG_STS.REP_FAIL) = 1 ∧
      t.rd SEC_RNG_CNT.COUNT = min 0xFFFFFFFF (s.rd SEC_RNG_CNT.COUNT + 1) ∧ flagged t 6 4 ∧
      raisedOnly s t [SEC_RNG_STS.reg, SEC_RNG_CNT.reg, SEC_EVT_STS.reg]) ∧
    (∃ t, exec .rngOk s = .next t ∧ t.sec = { s.sec with rngUp := true } ∧ sets { s with sec := t.sec } t SEC_RNG_STS.RESEED_LEFT (2 ^ 20)) ∧
    (s.sec.rngUp = false → exec .reseed s = .next s) ∧
    (s.sec.rngUp = true →
      (rngPending s = false → ∃ t, exec .reseed s = .next t ∧ sets s t SEC_RNG_STS.RESEED_LEFT (2 ^ 20)) ∧
      (rngPending s = true → s.rd SEC_ALARM_CFG.RNG_ACT = 0 → ∃ t, exec .reseed s = .next t ∧ bitOn (t.rd SEC_ALARM_STS.ALARM) 5 = true ∧
        flagged t 6 5 ∧ raisedOnly s t [SEC_ALARM_STS.reg, SEC_ALARM_CAUSE.reg, SEC_EVT_STS.reg]))

/-- Alarms (R261-R265). -/
def Obligations.AlarmsActAndClear : Prop :=
  ∀ (f : Fn) (s : State) (a : Nat), s.inv = true → a < 6 →
    (s.start.glitchOff = true → ∀ rx tx, exec (.alarm 1 rx tx) s = .next s) ∧
    (¬(a = 1 ∧ s.start.glitchOff = true) →
    let act := if a < 3 then 2 else s.rd (if a = 3 then SEC_ALARM_CFG.TEMP_ACT else if a = 4 then SEC_ALARM_CFG.FAULT_ACT else SEC_ALARM_CFG.RNG_ACT)
    (∃ t, exec (.alarm a none none) s = .next t ∧ bitOn (t.rd SEC_ALARM_STS.ALARM) a = true ∧ flagged t 6 5 ∧
      (∀ b, b < 6 → b ≠ a → bitOn (t.rd SEC_ALARM_STS.ALARM) b = bitOn (s.rd SEC_ALARM_STS.ALARM) b) ∧
      t.sec.tamper = (s.sec.tamper || decide (a < 3)) ∧
      (act = 0 → raisedOnly s t [SEC_ALARM_STS.reg, SEC_ALARM_CAUSE.reg, SEC_EVT_STS.reg]) ∧
      (act = 1 → t.sec = { s.sec with rxJobs := [], txJobs := [], unwrapKey := none, sealKey := none, haltBy := bitSet s.sec.haltBy a, tamper := t.sec.tamper } ∧
        t.rd SEC_CNT_ABORTED.COUNT = min 0xFFFFFFFF (s.rd SEC_CNT_ABORTED.COUNT + s.sec.rxJobs.length + txUsed s)) ∧
      (2 ≤ act → t.sec.slots = [] ∧ t.sec.longs = [] ∧ t.sec.rxJobs = [] ∧ t.sec.txJobs = [] ∧ t.sec.unwrapKey = none ∧
        t.sec.sealKey = none ∧ bitOn t.sec.haltBy a = true ∧ frameJobsRun t = false ∧
        keyJobsRun t = false ∧ t.rd SEC_ALARM_CNT.COUNT = min 0xFFFFFFFF (s.rd SEC_ALARM_CNT.COUNT + 1))) ∧
    (∀ e, a = 4 → e < 1056 → (s.ent e).st = 2 → (s.ent e).job = true → (s.ent e).dead = false → s.rd SEC_ALARM_CFG.FAULT_ACT = 0 →
      ∃ t, exec (.alarm 4 none (some e)) s = .next t ∧ (t.ent e).st = 1 ∧ (t.ent e).fc = none ∧ (t.ent e).cells = [] ∧
        t.sec = { s.sec with txJobs := s.sec.txJobs.filter (fun j => j.ent != e) } ∧
        t.rd TXC_CNT_BURN.COUNT = min 0xFFFFFFFF (s.rd TXC_CNT_BURN.COUNT + 1) ∧
        t.rd SEC_CNT_ABORTED.COUNT = min 0xFFFFFFFF (s.rd SEC_CNT_ABORTED.COUNT + 1)) ∧
    (∀ k r, a = 4 → s.rx k = some r → r.stage = 1 → s.rd SEC_ALARM_CFG.FAULT_ACT = 0 →
      ∃ t, exec (.alarm 4 (some k) none) s = .next t ∧ t.que.rxs = s.que.rxs.eraseIdx k ∧
        t.sec = { s.sec with rxJobs := s.sec.rxJobs.filter (fun j => j.cell != r.descCell) } ∧
        t.rd SEC_CNT_ABORTED.COUNT = min 0xFFFFFFFF (s.rd SEC_CNT_ABORTED.COUNT + 1)) ∧
    (a = 4 → s.rd SEC_ALARM_CFG.FAULT_ACT = 0 →
      (s.sec.unwrapKey ≠ none → ∃ t, exec (.alarm 4 none (some 1056)) s = .next t ∧ t.sec = { s.sec with unwrapKey := none } ∧
        t.rd SEC_CNT_ABORTED.COUNT = min 0xFFFFFFFF (s.rd SEC_CNT_ABORTED.COUNT + 1)) ∧
      (s.sec.sealKey ≠ none → ∃ t, exec (.alarm 4 none (some 1057)) s = .next t ∧ t.sec = { s.sec with sealKey := none } ∧
        t.rd SEC_CNT_ABORTED.COUNT = min 0xFFFFFFFF (s.rd SEC_CNT_ABORTED.COUNT + 1)))) ∧
    (∀ v present, v < 64 → present < 64 → reaches s f SEC_ALARM_STS.reg →
      ∃ t, exec (.alarmClear f v present) s = .next t ∧
        (∀ b, b < 6 → bitOn (t.rd SEC_ALARM_STS.ALARM) b =
          (bitOn (s.rd SEC_ALARM_STS.ALARM) b && (!bitOn v b || bitOn present b))) ∧
        (∀ b, bitOn t.sec.haltBy b = (bitOn s.sec.haltBy b && bitOn (t.rd SEC_ALARM_STS.ALARM) b)) ∧
        t.sec.tamper = (s.sec.tamper && !((s.rd SEC_ALARM_STS.ALARM) % 8 != 0 && (t.rd SEC_ALARM_STS.ALARM) % 8 == 0)) ∧
        t.rd SEC_ALARM_CAUSE.PRESENT = present ∧
        onlyRegs { s with sec := t.sec } t [SEC_ALARM_STS.reg, SEC_ALARM_CAUSE.reg])

/-- Ports and doorbells (R270-R272, R297). -/
def Obligations.PortsAndDoorbellsFollowTheirConditions : Prop :=
  ∀ (f : Fn) (s : State) (q : Nat), s.inv = true → q < 1024 → s.pwr.mode = 0 → fnHere s f = true → fnTag f < 64 →
    (∀ x ∈ s.txc.ents, x.2.part < 64) → (∀ d ∈ s.lnk.scheds, d.ent.part < 64) →
    let p := fnTag f
    let sq := s.rd (HST_PORT_SIZE.SQ_LOG2 q)
    let cq := s.rd (HST_PORT_SIZE.CQ_LOG2 q)
    let e : Nat := if sq < 4 ∨ 12 < sq ∨ cq < 4 ∨ 12 < cq then 1
      else if s.rd64 (HST_PORT_SQ_BASE_LO.reg q) % 64 ≠ 0 ∨ s.rd64 (HST_PORT_CQ_BASE_LO.reg q) % 32 ≠ 0 then 2
      else if s.portOwner q ≠ p ∨ s.rd (PRT_P_CFG.STATE p) ≠ 1 then 3
      else if s.feature p 0 = false then 4
      else if vecCount s p ≤ s.rd (HST_PORT_CFG.VECTOR q) then 5 else 0
    (s.hidden f (HST_PORT_CFG.reg q) = false →
      (p ≠ 0 → s.portOwner q ≠ p → exec (.portEnable f q) s = .next (s.bark p (fnKind f) 4 q) ∧
        exec (.portDisable f q) s = .next (s.bark p (fnKind f) 4 q)) ∧
      (p = 0 ∨ s.portOwner q = p →
        (s.on (HST_PORT_STS.EN q) = true → exec (.portEnable f q) s = .next s) ∧
        (s.on (HST_PORT_STS.EN q) = false →
          (e ≠ 0 → ∃ t, exec (.portEnable f q) s = .next t ∧ t.rd (HST_PORT_STS.ERR q) = e ∧ t.on (HST_PORT_CFG.EN q) = true ∧
            t.on (HST_PORT_STS.EN q) = false ∧ flagged t 8 1 ∧
            raisedOnly s t [HST_PORT_CFG.reg q, HST_PORT_STS.reg q, HST_EVT_STS.reg]) ∧
          (e = 0 → ∃ t, exec (.portEnable f q) s = .next t ∧ t.on (HST_PORT_STS.EN q) = true ∧ t.on (HST_PORT_CFG.EN q) = true ∧
            t.rd (HST_PORT_STS.ERR q) = 0 ∧ t.rd (HST_PORT_STS.SQ_HEAD q) = 0 ∧ t.rd (HST_PORT_CQ_TAIL.TAIL q) = 0 ∧
            t.rd (HST_PORT_CQ_TAIL.PHASE q) = 1 ∧ t.hst.ports = sdel s.hst.ports q ∧
            onlyRegs { s with hst := t.hst } t [HST_PORT_CFG.reg q, HST_PORT_STS.reg q, HST_PORT_CQ_TAIL.reg q, TOP_START_REASON.reg 0]) ∧
          (∃ t, exec (.portDisable f q) s = .next t ∧ sets s t (HST_PORT_CFG.EN q) 0)) ∧
        (s.on (HST_PORT_STS.EN q) = true → (s.port q).closing = false → ∃ t, exec (.portDisable f q) s = .next t ∧
          t.on (HST_PORT_CFG.EN q) = false ∧ t.on (HST_PORT_STS.EN q) = true ∧ (t.port q).closing = true ∧ (t.port q).posted = [] ∧
          (∀ r ∈ t.hst.ready, r.port ≠ q)))) ∧
    ((s.port q).closing = true → (∀ c ∈ s.hst.ctxs, c.2.port ≠ q) → ∃ t, exec (.portDisabled q) s = .next t ∧
      t.hst = { s.hst with ports := sdel s.hst.ports q } ∧ sets { s with hst := t.hst } t (HST_PORT_STS.EN q) 0) ∧
    ((s.port q).closing = false ∨ (∃ c ∈ s.hst.ctxs, c.2.port = q) → exec (.portDisabled q) s = .next s) ∧
    (∀ v, s.hidden f (HST_PORT_SQ_TAIL.reg q) = false → s.hidden f (HST_PORT_CQ_HEAD.reg q) = false →
      let n := v % 4096
      let put := fun (x : Port) => State.setPort s q x
      (s.portOwner q ≠ p → exec (.sqTail f q v) s = .next (s.bark p (fnKind f) 4 q) ∧ exec (.cqHead f q v) s = .next (s.bark p (fnKind f) 4 q)) ∧
      (s.portOwner q = p → s.on (HST_PORT_STS.EN q) = true →
        ((s.port q).closing = false → n < 2 ^ sq → exec (.sqTail f q v) s = .next (put { s.port q with sqTail := n })) ∧
        ((s.port q).closing = false → 2 ^ sq ≤ n → ∃ t, exec (.sqTail f q v) s = .next t ∧ sets s t (HST_PORT_STS.ERR q) 7) ∧
        ((s.port q).closing = true → exec (.sqTail f q v) s = .next s) ∧
        (n < 2 ^ cq → exec (.cqHead f q v) s =
          .next (put { s.port q with cqHead := n, out := (s.port q).out - (n + 2 ^ cq - (s.port q).cqHead) % 2 ^ cq })) ∧
        (2 ^ cq ≤ n → exec (.cqHead f q v) s = .next s)) ∧
      (s.portOwner q = p → s.on (HST_PORT_STS.EN q) = false → exec (.sqTail f q v) s = .next s ∧ exec (.cqHead f q v) s = .next s))

/-- Functions, features and messages (R267, R268, R291-R294, R330). -/
def Obligations.FunctionsNegotiateAndSendMessages : Prop :=
  ∀ (f : Fn) (s : State), s.inv = true → s.pwr.mode = 0 →
    (fnHere s f = true → s.hidden f TOP_FEAT_CTRL.reg = false → fnTag f < 64 →
      let n := fnTag f
      let bad : Prop := (∃ w, w < 4 ∧ reqWord s n w &&& ~~~(offerWord s n w) ≠ 0) ∨ (reqWord s n 0).toNat % 2 = 0
      let result := fun (t : State) (v : Nat) => if n = 0 then t.rd TOP_FEAT_CTRL.RESULT = v else t.vreg n 0x30 = BitVec.ofNat 32 (16 * v)
      let act := fun (t : State) (w : Nat) => if n = 0 then t.reg (TOP_FEAT_ACT.reg w) else t.vreg n (0x40 + 4 * w)
      let own := if n = 0 then [TOP_FEAT_CTRL.reg, TOP_FEAT_ACT.reg 0, TOP_FEAT_ACT.reg 1, TOP_FEAT_ACT.reg 2, TOP_FEAT_ACT.reg 3] else []
      ∃ t, exec (.featureCommit f) s = .next t ∧ raisedOnly s t (TOP_EVT_STS.reg :: own) ∧
        (anyPortOn s n = true → result t 3 ∧ ∀ w, w < 4 → act t w = act s w) ∧
        (anyPortOn s n = false → bad → result t 2 ∧ flagged t 9 1 ∧ ∀ w, w < 4 → act t w = act s w) ∧
        (anyPortOn s n = false → ¬bad → result t 1 ∧ flagged t 9 1 ∧ ∀ w, w < 4 → act t w = reqWord s n w)) ∧
    (∀ num, num < 64 →
      (s.on TOP_START_STS.SEEDLING = true → exec (.vfEnable num) s = .next s) ∧
      (s.on TOP_START_STS.SEEDLING = false →
        (num = 0 → ∃ t, exec (.vfEnable num) s = .next t ∧ (∀ n, n ≠ 0 → (t.func n).on = false ∧ (t.func n).bme = false) ∧
          t = { s with hst := { s.hst with funcs := t.hst.funcs } }) ∧
        (0 < num → (∀ x ∈ s.hst.funcs, x.1 ≠ 0 → x.2.on = false) →
          s.rd HST_PF_VEC.COUNT + ((List.range num).map (fun k => s.rd (HST_VF_VEC.COUNT (k + 1)))).sum ≤ 4096 →
          ∃ t, exec (.vfEnable num) s = .next t ∧ (∀ n, 0 < n → n ≤ num → (t.func n).on = true ∧ (t.func n).msixOff = false) ∧
            t = { s with hst := { s.hst with funcs := t.hst.funcs } }) ∧
        (0 < num → (∃ x ∈ s.hst.funcs, x.1 ≠ 0 ∧ x.2.on = true) → exec (.vfEnable num) s = .next s))) ∧
    (∀ n, n < 64 → (n = 0 ∨ (s.func n).on = true) →
      (exec (.busMasterEnable n false) s = .next { s with hst := { s.hst with
        funcs := sset (fun _ => ({} : Func)) s.hst.funcs n { s.func n with bme := false } } }) ∧
      (∃ t, exec (.busMasterEnable n true) s = .next t ∧ (t.func n).bme = true ∧
        (∀ v, v < 2048 → (s.func n).msixOff = false → bitOn (pbaWord s n v) (v % 32) = true →
          (vecMasked s n v = false → bitOn (pbaWord t n v) (v % 32) = false ∧ .msix n v ∈ t.posted) ∧
          (vecMasked s n v = true → bitOn (pbaWord t n v) (v % 32) = true)) ∧
        t = { s with regs := t.regs, vregs := t.vregs, posted := t.posted, hst := { s.hst with funcs := t.hst.funcs } } ∧
        ∀ a, noPba a → t.reg a = s.reg a)) ∧
    (∀ n en, 0 < n → n < 64 → (s.func n).on = false → exec (.busMasterEnable n en) s = .next s) ∧
    (∀ q at_, q < 1024 → (s.port q).firstAt = some at_ → s.on (HST_PORT_STS.EN q) = true → s.rd (HST_PORT_MOD.TIME q) ≠ 0 →
      s.feature (s.portOwner q) 7 = true → (s.func (s.portOwner q)).msixOff = false → (s.func (s.portOwner q)).bme = true →
      vecMasked s (s.portOwner q) (s.rd (HST_PORT_CFG.VECTOR q)) = false →
      let u := s.elapse (at_ + 32 * s.rd (HST_PORT_MOD.TIME q) - s.now)
      ∃ t, exec (.modTime q) s = .next t ∧ t = { u with posted := s.posted ++ [Posted.msix (s.portOwner q) (s.rd (HST_PORT_CFG.VECTOR q))],
                                                        hst := { s.hst with ports := t.hst.ports } } ∧
        t.hst.ports = sset (fun _ => ({} : Port)) s.hst.ports q { s.port q with since := 0, firstAt := none } ∧
        at_ + 32 * s.rd (HST_PORT_MOD.TIME q) ≤ t.now)

/-- Fetch, the simple commands and completions (R273-R278, R285-R288). -/
def Obligations.CommandsAreFetchedAnsweredAndWritten : Prop :=
  ∀ (s : State) (q x : Nat), s.inv = true → q < 1024 → x < 16384 →
    (nextPort s ≠ some q → ∀ d, exec (.fetch q d) s = .next s) ∧
    (nextPort s = some q → 16384 ≤ s.hst.ctxs.length → ∀ d, ∃ t, exec (.fetch q d) s = .next t ∧
      sets s t HST_CNT_CTX_STALL.COUNT (min 0xFFFFFFFF (s.rd HST_CNT_CTX_STALL.COUNT + 1))) ∧
    (nextPort s = some q → s.hst.ctxs.length < 16384 → s.portOwner q < 64 →
      (∃ t, exec (.fetch q .fail) s = .next t ∧ t.rd (HST_PORT_STS.ERR q) = 6 ∧ (t.port q).stopped = true ∧ flagged t 8 1 ∧
        t.rd HST_CNT_DMA_ERR.COUNT = min 0xFFFFFFFF (s.rd HST_CNT_DMA_ERR.COUNT + 1)) ∧
      (∀ bs, 64 ≤ bs.length → min (visitLen s q) (bs.length / 64) = 1 →
        let e : BitVec 512 := recOf 512 (bs.take 64)
        ∃ t y c, exec (.fetch q (.data bs)) s = .next t ∧ s.ctx y = none ∧ t.ctx y = some c ∧ c.port = q ∧ c.sq = e ∧ c.order = s.hst.order ∧
          t.hst.order = s.hst.order + 1 ∧ t.hst.lastPort = q ∧
          t.rd (HST_PORT_STS.SQ_HEAD q) = (s.rd (HST_PORT_STS.SQ_HEAD q) + 1) % 2 ^ s.rd (HST_PORT_SIZE.SQ_LOG2 q) % 4096 ∧
          t.rd HST_CNT_FETCH.COUNT = min 0xFFFFFFFF (s.rd HST_CNT_FETCH.COUNT + 1) ∧
          (∀ g, tagHolder s q (SQ.TAG.of e) = none → (s.port q).tags.find? (fun k => k.tag == SQ.TAG.of e) = g →
            (g = none → c.stage = 0 ∧ c.dupOf = none ∧ t.hst.ready = s.hst.ready) ∧
            (∀ k, g = some k → ∃ r, t.hst.ready = s.hst.ready ++ [r] ∧ r.ctx = y ∧
              (k.opcode = SQ.OPCODE.of e ∧ k.node = SQ.NODE.of e → k.status < 256 → CQ.STATUS.of r.entry = 8 ∧ CQ.DETAIL.of r.entry = k.status) ∧
              (¬(k.opcode = SQ.OPCODE.of e ∧ k.node = SQ.NODE.of e) → CQ.STATUS.of r.entry = 9))))) ∧
    (∀ c, takes s x 0 c → ∃ t, exec (.nop x) s = .next t ∧ completed s t x c 0 0 0 0 ∧ t = { s with hst := t.hst }) ∧
    (∀ c, s.ctx x = some c → resetWaits s c = true → exec (.nop x) s = .next s ∧ exec (.badOpcode x) s = .next s) ∧
    (∀ c, s.ctx x = some c → c.stage = 0 → c.dupOf = none → resetWaits s c = false → (s.port c.port).closing = false →
      (∀ p ∈ s.hst.ctxs, p.2.dupOf ≠ some x) →
      (opKnown s c = none → ∃ t, exec (.badOpcode x) s = .next t ∧ completed s t x c 0x0A 0 0 0 ∧ t = { s with hst := t.hst }) ∧
      (∀ r, opKnown s c = some r → entryOk r c.sq = false → SQ.OPCODE.of c.sq = 0 →
        ∃ t, exec (.nop x) s = .next t ∧ completed s t x c 0x0B 0 0 0 ∧ t = { s with hst := t.hst })) ∧
    (∀ c, takes s x 0x10 c → ∃ t, exec (.postRx x) s = .next t ∧ t.ctx x = some { c with stage := 1 } ∧
      (t.port c.port).posted = (s.port c.port).posted ++ [x] ∧ t = { s with hst := t.hst }) ∧
    (∀ c, takes s x 0x11 c → let ports := sset (fun _ => ({} : Port)) s.hst.ports c.port { s.port c.port with posted := [] }
      ((s.port c.port).posted = [] → ∃ t, exec (.rxFlush x) s = .next t ∧ completed s t x c 0 0 0 0 ∧ t = { s with hst := t.hst }) ∧
      (∀ y o, (s.port c.port).posted = [y] → s.ctx y = some o → y ≠ x → o.stage = 1 → o.dupOf = none → (s.port o.port).closing = false →
        o.port = c.port → (∀ p ∈ s.hst.ctxs, p.2.dupOf ≠ some y) →
        ∃ t u, exec (.rxFlush x) s = .next t ∧ completed s u y o 0x1A 0 0 0 ∧ completed u t x c 0 0 1 0 ∧ t.hst.ports = ports ∧
          t = { s with hst := t.hst })) ∧
    (∀ c, takes s x 2 c → tagHolder s c.port (SQ.P0_TARGET.of c.sq) = none → (∀ k ∈ (s.port c.port).tags, k.tag ≠ SQ.P0_TARGET.of c.sq) →
      ∃ t, exec (.cancel x) s = .next t ∧ completed s t x c 7 0xFF 0 0 ∧ t = { s with hst := t.hst }) ∧
    (∀ c y o, takes s x 2 c → tagHolder s c.port (SQ.P0_TARGET.of c.sq) = some (y, o) → s.ctx y = some o → y ≠ x → o.stage = 0 →
      SQ.OPCODE.of o.sq = 1 → o.header = none → (∀ p ∈ s.hst.ctxs, p.2.dupOf ≠ some y) →
      ∃ t u, exec (.cancel x) s = .next t ∧ completed s u y o 5 0 0 0 ∧ completed u t x c 0 0 0 0 ∧ t = { s with hst := t.hst }) ∧
    (∀ c y o, takes s x 2 c → tagHolder s c.port (SQ.P0_TARGET.of c.sq) = some (y, o) →
      (o.stage = 2 → ∃ t, exec (.cancel x) s = .next t ∧ completed s t x c 7 (CQ.STATUS.of o.cpl) 0 0 ∧ t = { s with hst := t.hst }) ∧
      (o.stage ≠ 2 → o.header = none → SQ.OPCODE.of o.sq ∉ [1, 0x10] →
        ∃ t, exec (.cancel x) s = .next t ∧ completed s t x c 6 0 0 0 ∧ t = { s with hst := t.hst })) ∧
    (s.on (HST_PORT_STS.EN q) = false ∨ (s.port q).closing = true ∨ dmaOk s q = false ∨
      2 ^ s.rd (HST_PORT_SIZE.CQ_LOG2 q) ≤ (s.port q).out → exec (.completionWrite q) s = .next s) ∧
    (s.on (HST_PORT_STS.EN q) = true → (s.port q).closing = false → dmaOk s q = true → (s.port q).out < 2 ^ s.rd (HST_PORT_SIZE.CQ_LOG2 q) →
      s.portOwner q < 64 →
      let p := s.portOwner q
      let at_ := s.rd (HST_PORT_CQ_TAIL.TAIL q)
      let ph := s.rd (HST_PORT_CQ_TAIL.PHASE q)
      let first := s.hst.ready.find? (fun r => r.port == q)
      let notes := if notePort s p = some q then notesOf s p else []
      let written := fun (t : State) (e : BitVec 256) => ∃ rest,
        t.posted = s.posted ++ .dmaWrite p (s.rd64 (HST_PORT_CQ_BASE_LO.reg q) + 32 * at_) (recBytes 32 (CQ.PHASE.put e ph)) :: rest ∧
        (s.rd (HST_PORT_MOD.COUNT q) ≤ (s.port q).since + 1 ∨ rest = []) ∧
        (t.rd (HST_PORT_CQ_TAIL.TAIL q), t.rd (HST_PORT_CQ_TAIL.PHASE q)) =
          (if at_ + 1 = 2 ^ s.rd (HST_PORT_SIZE.CQ_LOG2 q) then (0, 1 - ph) else ((at_ + 1) % 4096, ph)) ∧
        (t.port q).out = (s.port q).out + 1 ∧ t.rd HST_CNT_CPL.COUNT = min 0xFFFFFFFF (s.rd HST_CNT_CPL.COUNT + 1)
      (first = none → notes = [] → exec (.completionWrite q) s = .next s) ∧
      (∀ r, first = some r → (∀ n ns, notes = n :: ns → r.seq ≤ n.seq) → ∃ t, exec (.completionWrite q) s = .next t ∧ written t r.entry ∧
        t.hst.ready = s.hst.ready.filter (fun k => k.seq != r.seq) ∧ t.hst.ctxs = sdel s.hst.ctxs r.ctx ∧ t.hst.notes = s.hst.notes ∧
        t.rd (HST_PCNT.COUNT p 0) = min 0xFFFFFFFF (s.rd (HST_PCNT.COUNT p 0) + 1)) ∧
      (∀ n ns, notes = n :: ns → (∀ r, first = some r → n.seq < r.seq) → ∃ t e, exec (.completionWrite q) s = .next t ∧ written t e ∧
        CQ.TAG.of e = 0xFFFF ∧ CQ.KIND.of e = 1 ∧ CQ.STATUS.of e = n.status % 256 ∧ CQ.NODE.of e = n.slot % 65536 ∧
        CQ.VALUE.of e = n.counter % 2 ^ 64 ∧ CQ.DETAIL.of e = (if s.hst.lost.contains p then 1 else 0) ∧
        t.hst.notes = sset (fun _ => []) s.hst.notes p ns ∧ t.hst.ready = s.hst.ready ∧ t.hst.ctxs = s.hst.ctxs))

/-- Commands on nodes, frames, keys and engines (R190, R278-R283). -/
def Obligations.CommandsOnNodesKeysFramesAndEngines : Prop :=
  ∀ (s : State) (x : Nat) (c : Ctx), s.inv = true → x < 16384 → s.portOwner c.port < 64 → dmaOk s c.port = true →
    let p := s.portOwner c.port
    let h := SQ.NODE.of c.sq
    let e := SQ.P0_ENGINE.of c.sq
    let w := nodeWord c
    let mine : Prop := s.handleOwner h = p
    let told := fun (t : State) (r : State × Nat) => completed r.1 t x c (if r.2 = 0 then 0 else 0x15) r.2 0 0 ∧ t = { r.1 with hst := t.hst }
    (takes s x 1 c → txBehind s c = false →
      (¬mine → ∀ d, ∃ t, exec (.tx x d) s = .next t ∧ completed (s.bark p 2 1 h) t x c 0x0C 0 0 0) ∧
      (mine → txBad s c = true → ∀ d, ∃ t, exec (.tx x d) s = .next t ∧ completed s t x c 0x0B 0 0 0 ∧ t = { s with hst := t.hst }) ∧
      (mine → txBad s c = false → SQ.DEADLINE.of c.sq ≠ 0 → SQ.DEADLINE.of c.sq ≤ c.fetched → ∀ d,
        ∃ t, exec (.tx x d) s = .next t ∧ completed s t x c 4 0 0 0 ∧ t = { s with hst := t.hst }) ∧
      (mine → txBad s c = false → (SQ.DEADLINE.of c.sq = 0 ∨ c.fetched < SQ.DEADLINE.of c.sq) →
        (∃ t, exec (.tx x .fail) s = .next t ∧ completed s t x c 0x0D 0 0 0) ∧
        (∀ bs, bs.length = SQ.LEN.of c.sq → bs.length < 2048 → (s.node h).life = 1 → (s.node h).poison = false → (s.node h).badPar = 0 →
          tooLong s h (txHeader x c.sq) = false → (∀ k ∈ linkPoint s h (SQ.P0_PRIO.of c.sq) true, badCell (s.cell k) = false) → s.nc h NC.QLEN < s.rd QUE_QMAX.MAX → s.on QUE_CTRL.WR_EN = true →
          cellsOk s p (1 + ceilDiv bs.length 64) (s.rd QUE_RX_RESERVE.CELLS) = true → s.nc h NC.QLEN < 255 → s.que.cells.length < 700000 →
          ∃ t hc, exec (.tx x (.data bs)) s = .next t ∧ t.ctx x = some { c with stage := 1, header := some hc } ∧ (s.cell hc).acct = none ∧
            (t.cell hc).owner = some h ∧ (t.cell hc).hdrCell = true ∧ t.nc h NC.QLEN = s.nc h NC.QLEN + 1 ∧
            t.ih hc IH.PRIO = SQ.P0_PRIO.of c.sq ∧ t.ih hc IH.LENGTH = bs.length ∧ t.ih hc IH.RATE = SQ.P0_RATE.of c.sq ∧ t.ih hc IH.ORIGIN = 0 ∧
            t.ih hc IH.CTX = x ∧ t.ih hc IH.DEADLINE = SQ.DEADLINE.of c.sq ∧ t.ih hc IH.ATTEMPTS = 0 ∧
            t.ih hc IH.RETRIES = SQ.P1_RETRIES.of c.sq ∧ t.rd QUE_STS.FREE = s.rd QUE_STS.FREE - (1 + ceilDiv bs.length 64)))) ∧
    (mine → nodeWaits s c = false → ∀ bs : List Byte,
      let op := fun (k : Nat) => nodeOp k w (recOf 512 (bs.take (SQ.LEN.of c.sq))) (.host x) s
      (takes s x 0x20 c → ∃ t, exec (.nodeAdd x (.data bs)) s = .next t ∧ told t (op 1)) ∧
      (takes s x 0x21 c → ∃ t, exec (.nodeUpdate x (.data bs)) s = .next t ∧ told t (op 2)) ∧
      (takes s x 0x24 c → ∃ t, exec (.nodeQset x) s = .next t ∧ told t (nodeQset h (NW.QHOLD_VAL.of w == 1) (NW.CLR_OVR.of w == 1) s)) ∧
      (takes s x 0x22 c → (s.node h).badPar = 0 →
        ((s.node h).life = 1 → ∃ t, exec (.nodePrune x) s = .next t ∧ t.ctx x = some { c with stage := 1 } ∧ (t.node h).life = 2 ∧
          (h, .host x) ∈ t.que.prunes) ∧
        ((s.node h).life ≠ 1 → ∃ t, exec (.nodePrune x) s = .next t ∧ completed s t x c 0x15 2 0 0)) ∧
      (takes s x 0x23 c → (s.node h).badPar = 0 → (s.node h).life ∈ [1, 2, 3] → ∃ t, exec (.nodeRead x) s = .next t ∧
        t.posted = s.posted ++ [Posted.dmaWrite p (SQ.ADDR.of c.sq) (recBytes 64 (s.node h).ctx)] ∧
        completed s t x c 0 0 0 (16 * (s.node h).life + if (s.node h).poison then 64 else 0) ∧
        t = { s with hst := t.hst, posted := t.posted }) ∧
      (takes s x 0x25 c → (s.node h).badPar = 0 → (s.node h).life = 1 → (s.node h).poison = false → bitOn (SQ.FLAGS.of c.sq) 5 = false →
        (∀ y ∈ s.txc.ents, y.2.node ≠ some h) → (∀ d ∈ s.lnk.scheds, d.ent.node ≠ some h) → pruneClear s h = true →
        ∃ t, exec (.nodeExport x) s = .next t ∧ t.nc h NC.QHOLD = 1 ∧
          t.posted = s.posted ++ [Posted.dmaWrite p (SQ.ADDR.of c.sq) (recBytes 64 (t.node h).ctx)] ∧ completed s t x { c with stage := 1 } 0 0 0 0)) ∧
    (mine → nodeWaits s c = true → (∀ bs, takes s x 0x20 c → exec (.nodeAdd x (.data bs)) s = .next s) ∧
      (∀ bs, takes s x 0x21 c → exec (.nodeUpdate x (.data bs)) s = .next s) ∧ (takes s x 0x22 c → exec (.nodePrune x) s = .next s) ∧
      (takes s x 0x23 c → exec (.nodeRead x) s = .next s) ∧ (takes s x 0x24 c → exec (.nodeQset x) s = .next s) ∧
      (takes s x 0x25 c → exec (.nodeExport x) s = .next s)) ∧
    (¬mine → takes s x 0x23 c → ∃ t, exec (.nodeRead x) s = .next t ∧ completed (s.bark p 2 1 h) t x c 0x0C 0 0 0) ∧
    ((s.sec.kops.filter (fun k => k.ctx.isSome)).length < 16 → ∀ bs : List Byte,
      let joins := fun (t : State) (op : Nat) (b : BitVec 640) => t.ctx x = some { c with stage := 1 } ∧
        t.sec = { s.sec with kops := s.sec.kops ++ [(⟨p, some x, op, SQ.P0_SLOT.of c.sq, SQ.P0_LONG.of c.sq == 1, b⟩ : Kop)], unwrapKey := t.sec.unwrapKey } ∧
        t = { s with hst := t.hst, sec := t.sec }
      (takes s x 0x30 c → ∃ t, exec (.keyLoad x (.data bs)) s = .next t ∧ joins t 1 (recOf 640 (bs.take (SQ.LEN.of c.sq)))) ∧
      (takes s x 0x31 c → ∃ t, exec (.keyReplace x (.data bs)) s = .next t ∧ joins t 2 (recOf 640 (bs.take (SQ.LEN.of c.sq)))) ∧
      (takes s x 0x32 c → ∃ t, exec (.keyErase x) s = .next t ∧ joins t 3 (recOf 640 [])) ∧
      (takes s x 0x33 c → ∃ t, exec (.keyStatus x) s = .next t ∧ joins t 4 (recOf 640 []))) ∧
    (s.engOwner e = p → clearing s e = false →
      (takes s x 0x40 c → SQ.FLAGS.of c.sq = 1 → s.rd (stateF e) = 0 → s.rd (ENG_C_STS.PSTATE (e / 8)) = 2 →
        ∃ t, exec (.engCtrl x) s = .next t ∧ t.rd (stateF e) = 1 ∧ (∃ r, completed s t x c 0 0 0 r) ∧
          onlyRegs { s with hst := t.hst, eng := t.eng } t [(stateF e).addr]) ∧
      (takes s x 0x41 c → ∀ bs, SQ.P1_MEM.of c.sq = 1 → engFits 1 ((SQ.P 2).of c.sq) (SQ.LEN.of c.sq) = true → bs.length = SQ.LEN.of c.sq →
        ∃ t, exec (.engWrite x (.data bs)) s = .next t ∧ completed s t x c 0 0 0 0 ∧
          (∀ n, n < bs.length → t.byte (dmemBase e + (SQ.P 2).of c.sq + n) = bs.getD n 0) ∧
          (∀ n, n < dmemBase e + (SQ.P 2).of c.sq ∨ dmemBase e + (SQ.P 2).of c.sq + bs.length ≤ n → t.byte n = s.byte n) ∧ t.regs = s.regs) ∧
      (takes s x 0x42 c → SQ.P1_MEM.of c.sq = 1 → engFits 1 ((SQ.P 2).of c.sq) (SQ.LEN.of c.sq) = true →
        ∃ t, exec (.engRead x) s = .next t ∧ completed s t x c 0 0 0 0 ∧
          t.posted = s.posted ++ [Posted.dmaWrite p (SQ.ADDR.of c.sq) (s.bytes (dmemBase e + (SQ.P 2).of c.sq) (SQ.LEN.of c.sq))] ∧
          t = { s with hst := t.hst, posted := t.posted }))

/-- The instruction rows and the decoder agree (R217, R218, R230). -/
def Obligations.InstructionRowsRunTheirWords : Prop :=
  (∀ i w, insWord i = some w → i.wf = true → w / 2 ^ 26 ≠ 0x3D →
    ∃ c, c < 68 ∧ ∀ s : State, fetchWord s c = BitVec.ofNat 32 w → exec i s = .next (stepCore supDev c s)) ∧
  (∀ (s : State) (c rd ra : Nat), c < 68 → rd < 32 → ra < 32 → fetchWord s c = BitVec.ofNat 32 (rWord 0x3D rd ra 0 0) →
    ∀ p ∈ [(1, Instr.lcmdCancel c rd ra), (2, .cmpArm c rd ra), (3, .cmpDisarm c rd ra), (4, .cellWr c rd ra), (5, .evtFire c rd ra)],
      LC.CODE.of (linkCmd s c (s.g c ra).toNat) = p.1 → exec p.2 s = .next (stepCore supDev c s)) ∧
  ∀ w : Word, (decodeIns supDev w).isNone = reservedWord w

/-- Register and immediate instructions (R215, R217, R218). -/
def Obligations.RegisterInstructionsComputeTheirResult : Prop :=
  ∀ (s : State) (c rd ra rb imm : Nat), s.inv = true → c < 68 → rd < 32 → ra < 32 → rb < 32 → imm < 65536 → executes s c →
    let a := s.g c ra
    let b := s.g c rb
    let n := b.toNat % 32
    let si : Word := BitVec.ofInt 32 (if imm < 32768 then (imm : Int) else (imm : Int) - 65536)
    let ui : Word := BitVec.ofNat 32 imm
    let p := imm % 32
    let w := imm / 32 % 32 + 1
    let yes := fun (q : Bool) => if q then (1 : Word) else 0
    let all : List (Instr × Word) :=
      [(.add c rd ra rb, a + b), (.sub c rd ra rb, a - b), (.andr c rd ra rb, a &&& b), (.orr c rd ra rb, a ||| b), (.xorr c rd ra rb, a ^^^ b),
       (.sll c rd ra rb, BitVec.ofNat 32 (a.toNat * 2 ^ n)), (.srl c rd ra rb, BitVec.ofNat 32 (a.toNat / 2 ^ n)),
       (.sra c rd ra rb, BitVec.ofInt 32 (a.toInt / 2 ^ n)), (.slt c rd ra rb, yes (decide (a.toInt < b.toInt))),
       (.sltu c rd ra rb, yes (decide (a.toNat < b.toNat))), (.min c rd ra rb, if a.toInt ≤ b.toInt then a else b),
       (.max c rd ra rb, if a.toInt ≤ b.toInt then b else a), (.mul c rd ra rb, BitVec.ofNat 32 (a.toNat * b.toNat)),
       (.mulhu c rd ra rb, BitVec.ofNat 32 (a.toNat * b.toNat / 2 ^ 32)), (.mulh c rd ra rb, BitVec.ofInt 32 (a.toInt * b.toInt / 2 ^ 32)),
       (.divu c rd ra rb, if b = 0 then 0xFFFFFFFF else BitVec.ofNat 32 (a.toNat / b.toNat)),
       (.remu c rd ra rb, if b = 0 then a else BitVec.ofNat 32 (a.toNat % b.toNat)),
       (.clz c rd ra, BitVec.ofNat 32 (if a = 0 then 32 else 31 - Nat.log2 a.toNat)),
       (.popc c rd ra, BitVec.ofNat 32 ((List.range 32).map (fun k => a.toNat / 2 ^ k % 2)).sum),
       (.bswap c rd ra, BitVec.ofNat 32 (a.toNat % 256 * 2 ^ 24 + a.toNat / 256 % 256 * 2 ^ 16 + a.toNat / 65536 % 256 * 256 + a.toNat / 2 ^ 24)),
       (.addi c rd ra imm, a + si), (.andi c rd ra imm, a &&& ui), (.ori c rd ra imm, a ||| ui), (.xori c rd ra imm, a ^^^ ui),
       (.slti c rd ra imm, yes (decide (a.toInt < si.toInt))), (.sltiu c rd ra imm, yes (decide (a.toNat < si.toNat))),
       (.lui c rd imm, BitVec.ofNat 32 (imm * 65536))]
    let shi : Word := if imm / 32 = 0 then BitVec.ofNat 32 (a.toNat * 2 ^ p) else if imm / 32 = 1 then BitVec.ofNat 32 (a.toNat / 2 ^ p)
      else if imm / 32 = 2 then BitVec.ofInt 32 (a.toInt / 2 ^ p) else BitVec.ofNat 32 (a.toNat / 2 ^ p + a.toNat * 2 ^ (32 - p))
    let extu : Word := BitVec.ofNat 32 (a.toNat / 2 ^ p % 2 ^ w)
    let ins : Word := BitVec.ofNat 32 ((s.g c rd).toNat % 2 ^ p + a.toNat % 2 ^ w * 2 ^ p + (s.g c rd).toNat / 2 ^ (p + w) * 2 ^ (p + w))
    let ops := all ++ (if imm < 128 then [(Instr.shi c rd ra imm, shi)] else []) ++ (if imm < 1024 then [(Instr.extu c rd ra imm, extu)] else []) ++
      (if imm < 1024 ∧ p + w ≤ 32 then [(Instr.ins c rd ra imm, ins)] else [])
    let bad : List (Instr × Nat) := (if 128 ≤ imm then [(Instr.shi c rd ra imm, iWord 0x08 rd ra imm)] else []) ++
      (if 1024 ≤ imm then [(Instr.extu c rd ra imm, iWord 0x09 rd ra imm)] else []) ++
      (if 1024 ≤ imm ∨ 32 < p + w then [(Instr.ins c rd ra imm, iWord 0x0A rd ra imm)] else [])
    (inSequence s c → ∀ q ∈ ops, ∃ t, exec q.1 s = .next t ∧ advanced s t c (s.pcOf c + 4) ∧ quiet s t c ∧ wrote s t c rd q.2) ∧
    (excReady s c → ∀ q ∈ bad, ∃ t, exec q.1 s = .next t ∧ tookExc s t c 1 q.2 (s.pcOf c))

/-- Data access (R219, R221, R231-R233). -/
def Obligations.LoadsStoresAndReservations : Prop :=
  ∀ (s : State) (c rd ra rb imm : Nat), s.inv = true → c < 68 → rd < 32 → ra < 32 → rb < 32 → imm < 65536 → executes s c →
    let a := dataAddr s c ra imm
    let se := fun (w v : Nat) => BitVec.ofInt 32 (if v < 2 ^ (w - 1) then (v : Int) else (v : Int) - 2 ^ w)
    let loads : List (Instr × Nat × (Nat → Word)) := [(.lw c rd ra imm, 4, BitVec.ofNat 32), (.lh c rd ra imm, 2, se 16), (.lhu c rd ra imm, 2, BitVec.ofNat 32),
      (.lb c rd ra imm, 1, se 8), (.lbu c rd ra imm, 1, BitVec.ofNat 32)]
    let stores : List (Instr × Nat) := [(.sw c rd ra imm, 4), (.sh c rd ra imm, 2), (.sb c rd ra imm, 1)]
    let stored := fun (t : State) (o len : Nat) (v : Word) =>
      (∀ k, k < len → t.byte (o + k) = BitVec.ofNat 8 (v.toNat / 256 ^ k)) ∧ (∀ x, x < o ∨ o + len ≤ x → t.byte x = s.byte x) ∧
      ∀ d, d ≠ c → (t.core d).resv = (match (s.core d).resv with | some r => if o ≤ r + 3 ∧ r < o + len then none else some r | none => none)
    (inSequence s c →
      (∀ q ∈ loads, ∀ o sh, place s c a q.2.1 true false false = .mem o sh → parityBad s o = false →
        ∃ t, exec q.1 s = .next t ∧ advanced s t c (s.pcOf c + 4) ∧ quiet s t c ∧ wrote s t c rd (q.2.2 (unoctets (s.bytes o q.2.1)))) ∧
      (∀ q ∈ stores, ∀ o sh, place s c a q.2 false true false = .mem o sh →
        ∃ t, exec q.1 s = .next t ∧ advanced s t c (s.pcOf c + 4) ∧ stored t o q.2 (s.g c rd) ∧ ∀ r, t.g c r = s.g c r) ∧
      (∀ o sh, place s c a 4 true false true = .mem o sh → parityBad s o = false →
        ∃ t, exec (.lr c rd ra imm) s = .next t ∧ advanced s t c (s.pcOf c + 4) ∧ t.mem = s.mem ∧ (t.core c).resv = some o ∧
          wrote s t c rd (s.mword o)) ∧
      (∀ o sh, place s c (s.g c ra).toNat 4 false true true = .mem o sh →
        ∃ t, exec (.sc c rd ra rb) s = .next t ∧ advanced s t c (s.pcOf c + 4) ∧ (t.core c).resv = none ∧
          ((s.core c).resv = some o → stored t o 4 (s.g c rb) ∧ wrote s t c rd 0) ∧
          ((s.core c).resv ≠ some o → t.mem = s.mem ∧ wrote s t c rd 1)) ∧
      (∀ o sh, place s c a 4 true true true = .mem o sh → parityBad s o = false →
        ∃ t, exec (.tas c rd ra imm) s = .next t ∧ advanced s t c (s.pcOf c + 4) ∧ stored t o 4 1 ∧ wrote s t c rd (s.mword o))) ∧
    (excReady s c →
      (∀ q ∈ loads, ∀ k, place s c a q.2.1 true false false = .bad k → ∃ t, exec q.1 s = .next t ∧ tookExc s t c k a (s.pcOf c)) ∧
      (∀ q ∈ loads, ∀ o sh, place s c a q.2.1 true false false = .mem o sh → parityBad s o = true →
        ∃ t, exec q.1 s = .next t ∧ tookExc s t c 5 (a / 4 * 4) (s.pcOf c)) ∧
      (∀ q ∈ stores, ∀ k, place s c a q.2 false true false = .bad k → ∃ t, exec q.1 s = .next t ∧ tookExc s t c k a (s.pcOf c)) ∧
      (∀ e, place s c a 4 true false false = .barked e → ∃ t, exec (.lw c rd ra imm) s = .next t ∧
        tookExc (s.bark (s.engOwner c) 3 5 e) t c 3 a (s.pcOf c))) ∧
    (∀ len r w at_, at_ % len ≠ 0 → place s c at_ len r w false = .bad 2) ∧
    (∀ o, place s c a 4 true false false = .dev o →
      exec (.lw c rd ra imm) s = .next (goOn c 16 ((supDev.read (c - 64) o 4 s).1.setG c rd (supDev.read (c - 64) o 4 s).2))) ∧
    (∀ o, place s c a 4 false true false = .dev o → exec (.sw c rd ra imm) s = .next (goOn c 16 (supDev.write (c - 64) o 4 (s.g c rd) s)))

/-- Branches, jumps and loops (R218-R220). -/
def Obligations.BranchesJumpsAndLoopsMoveThePc : Prop :=
  ∀ (s : State) (c rd ra rb off off26 cnt : Nat), s.inv = true → c < 68 → rd < 32 → ra < 32 → rb < 32 → off < 65536 → off26 < 2 ^ 26 → cnt < 1024 →
    executes s c → (s.core c).stepping = false → (s.core c).haltReq = false →
    let a := s.g c ra
    let b := s.g c rb
    let pc := s.pcOf c
    let dest := fun (w v : Nat) => (((pc : Int) + 4 * (if v < 2 ^ (w - 1) then (v : Int) else (v : Int) - 2 ^ w)) % 2 ^ 32).toNat
    let branches : List (Instr × Bool) := [(.beq c ra rb off, decide (a = b)), (.bne c ra rb off, decide (a ≠ b)),
      (.blt c ra rb off, decide (a.toInt < b.toInt)), (.bge c ra rb off, decide (b.toInt ≤ a.toInt)), (.bltu c ra rb off, decide (a.toNat < b.toNat)),
      (.bgeu c ra rb off, decide (b.toNat ≤ a.toNat)), (.bbs c ra rb off, a.getLsbD rb), (.bbc c ra rb off, !a.getLsbD rb)]
    let d := (s.core c).depth
    let le := pc + 4 * off
    let loops : List (Instr × Nat × Nat) := [(.loop c ra off, a.toNat, iWord 0x2C ra 0 off), (.loopi c cnt off, cnt, lWord cnt off)]
    (d = 0 →
      (∀ q ∈ branches, ∃ t, exec q.1 s = .next t ∧ advanced s t c (if q.2 then dest 16 off else pc + 4) ∧ quiet s t c ∧ ∀ r, t.g c r = s.g c r) ∧
      (∃ t, exec (.j c off26) s = .next t ∧ advanced s t c (dest 26 off26) ∧ quiet s t c ∧ ∀ r, t.g c r = s.g c r) ∧
      (∃ t, exec (.jal c off26) s = .next t ∧ advanced s t c (dest 26 off26) ∧ quiet s t c ∧ wrote s t c 31 (BitVec.ofNat 32 (pc + 4))) ∧
      (∃ t, exec (.jr c ra) s = .next t ∧ advanced s t c (a.toNat / 4 * 4) ∧ quiet s t c ∧ ∀ r, t.g c r = s.g c r) ∧
      (∃ t, exec (.jalr c rd ra) s = .next t ∧ advanced s t c (a.toNat / 4 * 4) ∧ quiet s t c ∧ wrote s t c rd (BitVec.ofNat 32 (pc + 4)))) ∧
    (atLoopEnd s c = true → excReady s c → ∀ q ∈ branches.map (·.1) ++ [Instr.j c off26, .jal c off26, .jr c ra, .jalr c rd ra, .loop c ra off, .loopi c cnt off],
      ∃ t w, exec q s = .next t ∧ insWord q = some w ∧ tookExc s t c 1 w pc) ∧
    (atLoopEnd s c = false → off ≠ 0 → (d = 0 ∨ d = 1 ∧ le ≤ (s.sys c 0x22).toNat) → ∀ q ∈ loops,
      (q.2.1 ≠ 0 → ∃ t, exec q.1 s = .next t ∧ advanced s t c (pc + 4) ∧ (t.core c).depth = d + 1 ∧ t.sys c (0x20 + 3 * d) = BitVec.ofNat 32 q.2.1 ∧
        t.sys c (0x21 + 3 * d) = BitVec.ofNat 32 (pc + 4) ∧ t.sys c (0x22 + 3 * d) = BitVec.ofNat 32 le ∧
        (∀ n, n < 0x20 + 3 * d ∨ 0x23 + 3 * d ≤ n → t.sys c n = s.sys c n) ∧ t.mem = s.mem ∧ ∀ r, t.g c r = s.g c r) ∧
      (q.2.1 = 0 → ∃ t, exec q.1 s = .next t ∧ advanced s t c (le + 4) ∧ quiet s t c ∧ ∀ r, t.g c r = s.g c r)) ∧
    (excReady s c → atLoopEnd s c = false → ∀ q ∈ loops,
      (off = 0 → ∃ t, exec q.1 s = .next t ∧ tookExc s t c 1 q.2.2 pc) ∧
      (off ≠ 0 → (2 ≤ d ∨ d = 1 ∧ (s.sys c 0x22).toNat < le) → ∃ t, exec q.1 s = .next t ∧ tookExc s t c 6 q.2.2 pc)) ∧
    (d = 1 → (s.sys c 0x22).toNat = pc →
      ((s.sys c 0x20).toNat ≠ 1 → ∃ t, exec (.nopInsn c) s = .next t ∧ advanced s t c ((s.sys c 0x21).toNat / 4 * 4) ∧
        t.sys c 0x20 = s.sys c 0x20 - 1 ∧ (t.core c).depth = 1 ∧ ∀ r, t.g c r = s.g c r) ∧
      ((s.sys c 0x20).toNat = 1 → ∃ t, exec (.nopInsn c) s = .next t ∧ advanced s t c (pc + 4) ∧ t.sys c 0x20 = 0 ∧ (t.core c).depth = 0 ∧
        ∀ r, t.g c r = s.g c r))

/-- System instructions, exceptions, interrupts and halts (R216, R223, R233-R236). -/
def Obligations.SystemInstructionsExceptionsAndInterrupts : Prop :=
  ∀ (s : State) (c rd ra n code : Nat) (w : Word), s.inv = true → c < 68 → rd < 32 → ra < 32 → n < 4096 → code < 32 →
    let pc := s.pcOf c
    let e := s.sys c 0x14
    (executes s c → inSequence s c →
      (∀ m, sysKind (isSup c) n = .rw m → sysExc s c n = none →
        (∃ t, exec (.mfs c rd n) s = .next t ∧ advanced s t c (pc + 4) ∧ quiet s t c ∧ wrote s t c rd (s.sys c n)) ∧
        (n ≠ 0x31 → (n ∉ [0x22, 0x25] ∨ (s.core c).depth = 0) → ∃ t, exec (.mts c n ra) s = .next t ∧ advanced s t c (pc + 4) ∧ t.sys c n = BitVec.ofNat 32 (Nat.land (s.g c ra).toNat m) ∧
          (∀ k, k ≠ n → t.sys c k = s.sys c k) ∧ t.mem = s.mem ∧ ∀ r, t.g c r = s.g c r)) ∧
      (∀ m, sysKind (isSup c) n = .w1c m → sysExc s c n = none → ∃ t, exec (.mts c n ra) s = .next t ∧ advanced s t c (pc + 4) ∧
        (∀ b, b < 32 → (t.sys c n).getLsbD b = ((s.sys c n).getLsbD b && !(m.testBit b && (s.g c ra).getLsbD b))) ∧
        (∀ k, k ≠ n → t.sys c k = s.sys c k) ∧ t.mem = s.mem ∧ ∀ r, t.g c r = s.g c r) ∧
      (∀ i ∈ [Instr.nopInsn c, .fence c], ∃ t, exec i s = .next t ∧ advanced s t c (pc + 4) ∧ quiet s t c ∧ ∀ r, t.g c r = s.g c r) ∧
      (wfeReady s c = true → ∃ t, exec (.wfe c) s = .next t ∧ advanced s t c (pc + 4) ∧ quiet s t c) ∧
      (wfeReady s c = false → ∃ t, exec (.wfe c) s = .next t ∧ sets s t (stateF c) 2) ∧
      (level1 s c = true → ∃ t, exec (.eret c) s = .next t ∧ advanced s t c ((s.sys c 0x10).toNat / 4 * 4) ∧ bf (t.sys c 0x14) 0 1 = 0 ∧
        (64 ≤ c → bf (t.sys c 0x14) 2 1 = bf e 3 1 ∧ bf (t.sys c 0x14) 1 1 = bf e 4 1) ∧ (t.core c).resv = none ∧ ∀ r, t.g c r = s.g c r) ∧
      (level1 s c = true → ∃ t, exec (.halt c) s = .next t ∧ haltedBy t c 6 ∧ t.pcOf c = (pc + 4) % 2 ^ 32) ∧
      (s.on (dbgF c) = true → ∃ t, exec (.brk c) s = .next t ∧ haltedBy t c 3 ∧ t.pcOf c = pc)) ∧
    (executes s c → excReady s c → (s.core c).depth = 0 →
      (∃ t, exec (.trap c code) s = .next t ∧ tookExc s t c 7 code (pc + 4)) ∧
      (reservedWord w = true → ∃ t, exec (.reservedOpcode c w) s = .next t ∧ tookExc s t c 1 w.toNat pc) ∧
      (s.on (dbgF c) = false → ∃ t, exec (.brk c) s = .next t ∧ tookExc s t c 8 (rWord 0x32 0 0 0 5) pc) ∧
      (sysKind (isSup c) n = .unlisted ∨ (0x100 ≤ n ∧ c < 64) → ∃ t, exec (.mfs c rd n) s = .next t ∧ tookExc s t c 1 (iWord 0x30 rd 0 n) pc) ∧
      (level1 s c = false → (∃ t, exec (.eret c) s = .next t ∧ tookExc s t c 9 (rWord 0x32 0 0 0 3) pc) ∧
        (∃ t, exec (.halt c) s = .next t ∧ tookExc s t c 9 (rWord 0x32 0 0 0 6) pc))) ∧
    (executes s c → (s.core c).resetReq = 0 →
      (bf e 0 1 = 1 → ∃ t, exec (.trap c code) s = .next t ∧ haltedBy t c 5 ∧ t.pcOf c = pc) ∧
      (bf e 0 1 = 0 → bf (s.sys c 0x13) 0 1 = 0 → ∃ t, exec (.trap c code) s = .next t ∧ haltedBy t c 8 ∧ t.pcOf c = pc)) ∧
    (s.rd (stateF c) ≠ 2 ∨ wfeReady s c = false → exec (.wfeWake c) s = .next s) ∧
    (s.rd (stateF c) = 2 → wfeReady s c = true → inSequence s c →
      ∃ t, exec (.wfeWake c) s = .next t ∧ advanced (s.wr (stateF c) 1) t c (pc + 4) ∧ t.rd (stateF c) = 1) ∧
    (∀ i, 64 ≤ c → running s c = true → excReady s c → bf e 1 1 = 1 → pendingLine s c = some i →
      ∃ t, exec (.interrupt c) s = .next t ∧ tookExc s t c 0xB i pc) ∧
    (c < 64 ∨ bf e 1 1 = 0 ∨ bf e 0 1 = 1 ∨ pendingLine s c = none → exec (.interrupt c) s = .next s) ∧
    (running s c = true → bpHit s c = true → ∃ t, exec (.breakpoint c) s = .next t ∧ haltedBy t c 2 ∧ t.pcOf c = pc) ∧
    (running s c = false ∨ bpHit s c = false → exec (.breakpoint c) s = .next s)

/-- The queue instructions but LCMD (R224, R226-R229). -/
def Obligations.QueueInstructionsMoveFramesAndItems : Prop :=
  ∀ (s : State) (c rd ra rb : Nat), s.inv = true → c < 68 → rd < 32 → ra < 32 → rb < 32 → executes s c →
    let a := (s.g c ra).toNat
    let v := s.g c rb
    let o := dmemOff c a
    let p := s.engOwner c
    let pc := s.pcOf c
    let fits := fun (len : Nat) => a % 4 = 0 ∧ 0x10000 ≤ a ∧ a + len ≤ 0x20000
    let ends := fun (u t : State) (x : Nat) => advanced u t c (pc + 4) ∧ wrote u t c rd (BitVec.ofNat 32 x)
    let copied := fun (t : State) (bs : List Byte) => t.bytes o bs.length = bs ∧ ∀ k, k < o ∨ o + bs.length ≤ k → t.byte k = s.byte k
    let ptrs : List (Instr × Nat × Nat) := [(.qrx c rd ra, 64, rWord 0x38 rd ra 0 0), (.crd c rd ra rb, 68, rWord 0x39 rd ra rb 0),
      (.qwr c rd ra rb, 32, rWord 0x3B rd ra rb 0), (.ncmd c rd ra rb, 64, rWord 0x3C rd ra rb 0), (.ntf c rd ra, 16, rWord 0x3E rd ra 0 0),
      (.lcmdCancel c rd ra, 16, rWord 0x3D rd ra 0 0), (.cmpArm c rd ra, 16, rWord 0x3D rd ra 0 0), (.cmpDisarm c rd ra, 16, rWord 0x3D rd ra 0 0),
      (.cellWr c rd ra, 16, rWord 0x3D rd ra 0 0), (.evtFire c rd ra, 16, rWord 0x3D rd ra 0 0)]
    (excReady s c → ∀ q ∈ ptrs,
      (64 ≤ c → ∃ t, exec q.1 s = .next t ∧ tookExc s t c 1 q.2.2 pc) ∧
      (c < 64 → a % 4 ≠ 0 → ∃ t, exec q.1 s = .next t ∧ tookExc s t c 2 a pc) ∧
      (c < 64 → a % 4 = 0 → (a < 0x10000 ∨ 0x20000 < a + q.2.1) → ∃ t, exec q.1 s = .next t ∧ tookExc s t c 3 a pc)) ∧
    (c < 64 → inSequence s c →
      (fits 64 → (∀ q ∈ s.eng.rxq, q.1 ≠ c / 8 ∨ q.2.1 ≠ p) → ∃ t, exec (.qrx c rd ra) s = .next t ∧ ends s t 1 ∧ quiet s t c) ∧
      (fits 64 → ∀ r k, s.eng.rxq.find? (fun q => q.1 == c / 8 && q.2.1 == p) = some (c / 8, p, k) →
        s.que.rxs.find? (fun r => r.descCell == k) = some r →
        let u := { s with eng := { s.eng with rxq := s.eng.rxq.erase (c / 8, p, k), held := s.eng.held ++ [(c / 8, p, k)] } }
        ∃ t, exec (.qrx c rd ra) s = .next t ∧ ends u t (256 * k) ∧ copied t (recBytes 64 (RD.PART.put r.dsc p))) ∧
      (let k := v.toNat % 2 ^ 20
       (fits 68 → mayReadCell s p k = false → excReady s c → ∃ t, exec (.crd c rd ra rb) s = .next t ∧ tookExc (s.bark p 3 9 k) t c 3 k pc) ∧
       (fits 68 → mayReadCell s p k = true →
        (badCell (s.cell k) = true → ∃ t, exec (.crd c rd ra rb) s = .next t ∧ ends (cellParity k s) t 4 ∧ t.mem = s.mem) ∧
        (badCell (s.cell k) = false → ∃ t, exec (.crd c rd ra rb) s = .next t ∧ ends s t 0 ∧
          copied t (recBytes 64 (recOf 512 (cellBytes (s.cell k))) ++
            octets 4 ((s.cell k).next + (if (s.cell k).last then 2 ^ 20 else 0) + 2 ^ 21 * (s.cell k).count))))) ∧
      (let k := a % 2 ^ 20
       (∀ q, s.eng.held.find? (fun q => q.2.1 == p && q.2.2 == k) = some q →
          ∃ t, exec (.crel c rd ra) s = .next t ∧
            ends (settleRx (placeOf s k) { s with eng := { s.eng with held := s.eng.held.erase q } }) t 0 ∧ t.mem = s.mem) ∧
        ((∀ q ∈ s.eng.held, q.2.1 ≠ p ∨ q.2.2 ≠ k) → (s.cell k).acct = some p →
          ∃ t, exec (.crel c rd ra) s = .next t ∧ ends s t 7 ∧ quiet s t c) ∧
        ((∀ q ∈ s.eng.held, q.2.1 ≠ p ∨ q.2.2 ≠ k) → (s.cell k).acct ≠ some p → excReady s c →
          ∃ t, exec (.crel c rd ra) s = .next t ∧ tookExc (s.bark p 3 9 k) t c 3 k pc)) ∧
      (fits 16 → (noticesOf s c = [] → ∃ t, exec (.ntf c rd ra) s = .next t ∧ ends s t 1 ∧ quiet s t c) ∧
        ∀ n ns, noticesOf s c = n :: ns → ∃ t, exec (.ntf c rd ra) s = .next t ∧
          ends { s with eng := { s.eng with notices := sset (fun _ => []) s.eng.notices c ns } } t 0 ∧ copied t (noticeBytes n)) ∧
      (let h := v.toNat % 65536
       let x := IH.ORIGIN.put (recOf 512 (s.bytes o 32)) 1
       let len := IH.LENGTH.of x
       let hdr := IH.ENGINE.put ((fld 0x04 6 10).put x 0) c
       let gives := fun (k : Nat) => ∃ t, exec (.qwr c rd ra rb) s = .next t ∧ ends s t k ∧ quiet s t c
       (fits 32 → ∀ w, badDmem s c a 32 = some w → excReady s c → ∃ t, exec (.qwr c rd ra rb) s = .next t ∧ tookExc s t c 5 w pc) ∧
       (fits (32 + len) → badDmem s c a 32 = none →
        (s.handleOwner h ≠ p → excReady s c → ∃ t, exec (.qwr c rd ra rb) s = .next t ∧ tookExc (s.bark p 3 1 h) t c 3 h pc) ∧
        (s.handleOwner h = p → (hdrReserved x = true ∨ txEnabled s (IH.RATE.of x) (IH.GRID.of x) (IH.CHAN.of x) = false) → gives 7) ∧
        (s.handleOwner h = p → hdrReserved x = false → txEnabled s (IH.RATE.of x) (IH.GRID.of x) (IH.CHAN.of x) = true →
          (64 ≤ (s.eng.outst.filter (fun q => q.1 == c)).length → gives 6) ∧
          (∀ w, (s.eng.outst.filter (fun q => q.1 == c)).length < 64 → badDmem s c (a + 32) len = some w → excReady s c →
            ∃ t, exec (.qwr c rd ra rb) s = .next t ∧ tookExc s t c 5 w pc) ∧
          ((s.eng.outst.filter (fun q => q.1 == c)).length < 64 → badDmem s c (a + 32) len = none → (s.node h).badPar = 0 →
            ((s.node h).life ≠ 1 → gives 3) ∧
            ((s.node h).life = 1 → (s.node h).poison = true → gives 4) ∧
            ((s.node h).life = 1 → (s.node h).poison = false → tooLong s h hdr = true → gives 5) ∧
            ((s.node h).life = 1 → (s.node h).poison = false → tooLong s h hdr = false →
              (s.rd QUE_QMAX.MAX ≤ s.nc h NC.QLEN ∨ cellsOk s p (1 + ceilDiv len 64) (s.rd QUE_RX_RESERVE.CELLS) = false ∨ s.on QUE_CTRL.WR_EN = false) →
              ∃ t, exec (.qwr c rd ra rb) s = .next t ∧ ends (writeFull p h s) t 2 ∧ t.nc h NC.QOVR = 1) ∧
            ((s.node h).life = 1 → (s.node h).poison = false → tooLong s h hdr = false → s.nc h NC.QLEN < s.rd QUE_QMAX.MAX →
              s.on QUE_CTRL.WR_EN = true → cellsOk s p (1 + ceilDiv len 64) (s.rd QUE_RX_RESERVE.CELLS) = true → s.nc h NC.QLEN < 255 →
              s.que.cells.length < 700000 → (∀ k ∈ linkPoint s h (IH.PRIO.of x) true, badCell (s.cell k) = false) →
              ∃ t hc, exec (.qwr c rd ra rb) s = .next t ∧ t.pcOf c = (pc + 4) % 2 ^ 32 ∧ (rd ≠ 0 → t.g c rd = 0) ∧ (∀ r, r ≠ rd → t.g c r = s.g c r) ∧
                t.eng.outst = s.eng.outst ++ [(c, hc)] ∧ (s.cell hc).acct = none ∧ (t.cell hc).owner = some h ∧ (t.cell hc).hdrCell = true ∧
                t.nc h NC.QLEN = s.nc h NC.QLEN + 1 ∧ t.ih hc IH.ORIGIN = 1 ∧ t.ih hc IH.ENGINE = c ∧ t.ih hc IH.LENGTH = len ∧
                t.ih hc IH.PRIO = IH.PRIO.of x ∧ t.ih hc IH.COOKIE = IH.COOKIE.of x ∧ t.ih hc IH.RATE = IH.RATE.of x ∧
                t.ih hc IH.DEADLINE = IH.DEADLINE.of x ∧ t.ih hc IH.ATTEMPTS = 0 ∧ t.mem = s.mem ∧
                t.rd QUE_STS.FREE = s.rd QUE_STS.FREE - (1 + ceilDiv len 64)))))) ∧
      (let h := NW.HANDLE.of v
       let op := NW.OP.of v
       let r := nodeOp op v (recOf 512 (s.bytes o 64)) (.engine c rd) s
       fits 64 →
        (s.handleOwner h ≠ p → excReady s c → ∃ t, exec (.ncmd c rd ra rb) s = .next t ∧ tookExc (s.bark p 3 1 h) t c 3 h pc) ∧
        (s.handleOwner h = p → op = 0 ∨ 5 < op → ∃ t v, exec (.ncmd c rd ra rb) s = .next t ∧ advanced s.freed t c (pc + 4) ∧ wrote s t c rd v ∧
          t.mem = s.mem) ∧
        (s.handleOwner h = p → 0 < op → op ≤ 5 →
          (nodeBusy s h = true → exec (.ncmd c rd ra rb) s = .next (s.setCore c { s.core c with issued := true })) ∧
          (nodeBusy s h = false → op ≤ 2 → ∀ w, badDmem s c a 64 = some w → excReady s c →
            ∃ t, exec (.ncmd c rd ra rb) s = .next t ∧ tookExc s t c 5 w pc) ∧
          (nodeBusy s h = false → (2 < op ∨ badDmem s c a 64 = none) → (op = 3 ∧ r.2 = 0 →
              ∃ t, exec (.ncmd c rd ra rb) s = .next t ∧ (t.core c).held = true ∧ t.pcOf c = pc ∧ (t.node h).life = 2 ∧
                (h, .engine c rd) ∈ t.que.prunes ∧ running t c = false) ∧
            (op ≠ 3 ∨ r.2 ≠ 0 → ∃ t, exec (.ncmd c rd ra rb) s = .next t ∧ advanced r.1 t c (pc + 4) ∧ wrote r.1 t c rd (nresWord r.1 h op r.2) ∧
              (op = 4 → r.2 = 0 → copied t (recBytes 64 (r.1.node h).ctx)) ∧ (op ≠ 4 → t.mem = s.mem))))))

/-- The link commands (R137, R160, R170, R230). -/
def Obligations.LinkCommandsOfEngines : Prop :=
  ∀ (s : State) (c rd ra : Nat), s.inv = true → c < 64 → rd < 32 → ra < 32 → executes s c → inSequence s c →
    let a := (s.g c ra).toNat
    let x := linkCmd s c a
    let p := s.engOwner c
    let pc := s.pcOf c
    let ends := fun (i : Instr) (u : State) (k : Nat) => ∃ t, exec i s = .next t ∧ advanced u t c (pc + 4) ∧ wrote u t c rd (BitVec.ofNat 32 k) ∧ t.mem = s.mem
    let traps := fun (i : Instr) (tgt idx : Nat) => excReady s c → ∃ t, exec i s = .next t ∧ tookExc (s.bark p 3 tgt idx) t c 3 idx pc
    let zero := fun (fs : List Fld) => ∀ f ∈ fs, f.of x = 0
    let begun := fun (u : State) => startSeq (6 + u.freeVal 2) 0 0 0 0 0 0 0 none none none u.freed
    a % 4 = 0 → 0x10000 ≤ a → a + 16 ≤ 0x20000 →
      (∀ w, badDmem s c a 16 = some w → excReady s c → ∀ i ∈ [Instr.lcmdCancel c rd ra, .cmpArm c rd ra, .cmpDisarm c rd ra, .cellWr c rd ra, .evtFire c rd ra],
        ∃ t, exec i s = .next t ∧ tookExc s t c 5 w pc) ∧
      (badDmem s c a 16 = none →
      (∀ q ∈ [(Instr.lcmdCancel c rd ra, fld 0 8 24), (.lcmdCancel c rd ra, fld 8 0 64), (.cmpArm c rd ra, fld 0 8 8), (.cmpArm c rd ra, fld 0 22 10),
          (.cmpArm c rd ra, fld 4 0 32), (.cmpDisarm c rd ra, fld 0 8 8), (.cmpDisarm c rd ra, fld 4 0 96), (.cellWr c rd ra, fld 0 8 8),
          (.cellWr c rd ra, fld 0 29 3), (.evtFire c rd ra, fld 0 23 9), (.evtFire c rd ra, fld 4 0 96)],
        q.2.of x ≠ 0 → ends q.1 s 7) ∧
      (zero [fld 0 8 24, fld 8 0 64] →
        let mine := fun (q : Nat × Nat) => q.1 = c ∧ s.ih q.2 IH.COOKIE = LC.COOKIE.of x ∧ (s.cell q.2).owner = some (LC.NODE.of x)
        ((∀ q ∈ s.eng.outst, ¬mine q) → ends (.lcmdCancel c rd ra) s 7) ∧
        (∀ hc, s.eng.outst.filter (fun q => decide (mine q)) = [(c, hc)] →
          (cancelKind s hc = 0 → ends (.lcmdCancel c rd ra) (begun (cancelNow (LC.NODE.of x) hc s)) 0) ∧
          (cancelKind s hc = 1 → (c, hc) ∉ s.eng.late → (c, hc) ∉ s.eng.discard → ∃ t, exec (.lcmdCancel c rd ra) s = .next t ∧ (c, hc) ∈ t.eng.late ∧
            noticesOf t c = noticesOf s c ++ [(⟨2, 6, s.ih hc IH.ATTEMPTS, s.ih hc IH.COOKIE, LC.NODE.of x, lastAirOf s hc⟩ : Notice)] ∧ t.eng.outst = s.eng.outst) ∧
          (cancelKind s hc = 1 → (c, hc) ∈ s.eng.late → ends (.lcmdCancel c rd ra) (begun s) 0) ∧
          (cancelKind s hc = 2 → ends (.lcmdCancel c rd ra) (begun { s with lnk := { s.lnk with cancels := s.lnk.cancels ++ [(⟨hc, none, some c⟩ : Cancel)] } }) 0))) ∧
      (zero [fld 0 8 8, fld 0 22 10, fld 4 0 32] →
        (s.rd (LNK_CMP_CTRL.PART (LC.K.of x)) = p → 
          ends (.cmpArm c rd ra) (begun ((armCmp (LC.K.of x) (LC.W2.of x + 2 ^ 32 * LC.W3.of x) s).dropHeld (LNK_CMP_LO.reg (LC.K.of x)))) 0) ∧
        (s.rd (LNK_CMP_CTRL.PART (LC.K.of x)) ≠ p → traps (.cmpArm c rd ra) 6 (LC.K.of x))) ∧
      (zero [fld 0 8 8, fld 0 22 10, fld 4 0 96] →
        (s.rd (LNK_CMP_CTRL.PART (LC.K.of x)) = p → ends (.cmpDisarm c rd ra) (begun (s.wr (LNK_CMP_CTRL.ARMED (LC.K.of x)) 0)) 0) ∧
        (s.rd (LNK_CMP_CTRL.PART (LC.K.of x)) ≠ p → traps (.cmpDisarm c rd ra) 6 (LC.K.of x))) ∧
      (zero [fld 0 8 8, fld 0 29 3, fld 4 0 32] →
        let k := LC.CELL.of x
        let w := BitVec.ofNat 32 (LC.W3.of x)
        let good := s.rd (LNK_CELL1.PART k) = p ∧ bf w 24 6 = p ∧ s.handleOwner (bf w 0 16) = p
        (good → s.on LNK_CTRL.LOCK = false → 
          ends (.cellWr c rd ra) (begun ((s.setReg (LNK_CELL0.reg k) (BitVec.ofNat 32 (LC.W2.of x))).regWrite (LNK_CELL1.reg k) w)) 0) ∧
        (good → s.on LNK_CTRL.LOCK = true → ends (.cellWr c rd ra) (begun s) 0) ∧
        (¬good → traps (.cellWr c rd ra) 7 k)) ∧
      (zero [fld 0 8 8, fld 0 23 9, fld 4 0 96] →
        (s.chanOwner (LC.CHANNEL.of x) = p → ends (.evtFire c rd ra) (begun (s.pulse (LC.CHANNEL.of x))) 0) ∧
        (s.chanOwner (LC.CHANNEL.of x) ≠ p → traps (.evtFire c rd ra) 8 (LC.CHANNEL.of x / 8))))

/-- The owner's commands on engines, clusters and supervisors (R203, R236-R241). -/
def Obligations.OwnersStartStopAndLoadCores : Prop :=
  ∀ (f : Fn) (s : State) (e n k off : Nat) (v : Word), s.inv = true → e < 64 → n < 4 → k < 8 →
    let only := fun (t : State) (c : Nat) (as : List Nat) => onlyRegs { s with eng := { s.eng with cores := t.eng.cores } } t as ∧
      ∀ d, d ≠ c → t.core d = s.core d
    let started := fun (t : State) (c : Nat) => t.rd (stateF c) = 1 ∧ t.core c = { s.core c with stepping := false, waitRun := 0 } ∧
      only t c [(stateF c).addr]
    let steps := fun (c : Nat) => (s.setCore c { s.core c with stepping := true, waitRun := 0 }).wr (stateF c) 1
    let halts := fun (i : Instr) (c : Nat) =>
      (s.rd (stateF c) ≠ 0 → midway s c = false → ∃ t, exec i s = .next t ∧ haltedBy t c 1 ∧ t.pcOf c = s.pcOf c ∧ (t.core c).g = (s.core c).g ∧
        (t.core c).sys = (s.core c).sys ∧ only t c [(stateF c).addr, (causeF c).addr]) ∧
      (s.rd (stateF c) ≠ 0 → midway s c = true → exec i s = .next (s.setCore c { s.core c with haltReq := true })) ∧
      (s.rd (stateF c) = 0 → exec i s = .next (s.setCore c { s.core c with waitRun := 0 }))
    let fresh := fun (t : State) (c : Nat) => t.core c = { cycBase := s.clk.eng } ∧ t.rd (stateF c) = 0 ∧ t.rd (causeF c) = 7 ∧ t.pcOf c = 0 ∧
      (∀ r, t.g c r = 0) ∧ (∀ m, t.sys c m = if 64 ≤ c ∧ m = 0x14 then 4 else 0) ∧ ∀ d, d ≠ c → t.core d = s.core d
    let noted := fun (t : State) => t.eng.outst = s.eng.outst.filter (fun q => q.1 != e) ∧
      t.eng.discard = s.eng.discard ++ s.eng.outst.filter (fun q => q.1 == e) ∧ t.eng.notices = sdel s.eng.notices e ∧
      t.rd (ENG_NTF_DISC.COUNT (e / 8) (e % 8)) = min 0xFFFFFFFF (s.rd (ENG_NTF_DISC.COUNT (e / 8) (e % 8)) + (noticesOf s e).length)
    (reaches s f (ctrlOff e) →
      (s.engOwner e = 0 → s.rd (stateF e) = 0 → clearing s e = false →
        (s.rd (ENG_C_STS.PSTATE (e / 8)) = 2 →
          (∃ t, exec (.engineRun f e) s = .next t ∧ started t e) ∧
          ((s.core e).held = false → exec (.engineStep f e) s = .next (stepCore noDev e (steps e)))) ∧
        (s.rd (ENG_C_STS.PSTATE (e / 8)) = 0 → ∀ q ∈ [(Instr.engineRun f e, 1), (.engineStep f e, 2)],
          ∃ t, exec q.1 s = .next t ∧ t.rd (ENG_C_STS.PSTATE (e / 8)) = 1 ∧ t.core e = { s.core e with waitRun := q.2 } ∧ t.rd (stateF e) = 0 ∧
            ∃ l, t.pwr.waiters = s.pwr.waiters ++ [l] ∧ l.who = .cluster (e / 8) ∧ l.part = 0 ∧ l.mw = s.budget 5)) ∧
      (s.engOwner e = 0 → s.rd (stateF e) ≠ 0 → exec (.engineRun f e) s = .next s) ∧
      (s.engOwner e ≠ 0 → exec (.engineRun f e) s = .next (s.bark 0 (fnKind f) 5 e) ∧ exec (.engineStep f e) s = .next (s.bark 0 (fnKind f) 5 e)) ∧
      halts (.engineHalt f e) e ∧
      (midway s e = false →
        (∃ t, exec (.engineReset f e) s = .next t ∧ fresh t e ∧ noted t ∧ t.mem = s.mem ∧ t.que = s.que) ∧
        (∃ t, exec (.engineClear f e) s = .next t ∧ fresh t e ∧ noted t ∧ t.mem = s.mem ∧ t.que = s.que ∧
          t.on (ENG_STS.CLEARING (e / 8) (e % 8)) = true)) ∧
      (midway s e = true → ∀ q ∈ [(Instr.engineReset f e, 1), (.engineClear f e, 2)], ∃ t, exec q.1 s = .next t ∧ noted t ∧
        t.core e = { s.core e with haltReq := true, stepping := false, resetReq := q.2 } ∧ t.rd (stateF e) = s.rd (stateF e) ∧ t.mem = s.mem ∧ t.que = s.que)) ∧
    (clearing s e = true → ∃ t, exec (.clearDone e) s = .next t ∧ clearing t e = false ∧
      (∀ x, (imemBase e ≤ x ∧ x < imemBase e + 0x8000) ∨ (dmemBase e ≤ x ∧ x < dmemBase e + 0x10000) ∨ (segBase e ≤ x ∧ x < segBase e + 0x10000) →
        t.byte x = 0 ∧ parityBad t x = false) ∧
      (∀ x, (x < imemBase e ∨ imemBase e + 0x8000 ≤ x) → (x < dmemBase e ∨ dmemBase e + 0x10000 ≤ x) → (x < segBase e ∨ segBase e + 0x10000 ≤ x) →
        t.byte x = s.byte x) ∧ onlyRegs { s with mem := t.mem, badPar := t.badPar } t [(ENG_STS.CLEARING (e / 8) (e % 8)).addr]) ∧
    (clearing s e = false → exec (.clearDone e) s = .next s) ∧
    (off < 0x8000 → off % 4 = 0 → reaches s f (imemBase e + off) → s.engOwner e = 0 →
      (s.rd (stateF e) = 0 → clearing s e = false → ∃ t, exec (.imemWrite f e off v) s = .next t ∧ t.mword (imemBase e + off) = v ∧
        (∀ x, x < imemBase e + off ∨ imemBase e + off + 4 ≤ x → t.byte x = s.byte x) ∧ t.regs = s.regs) ∧
      (s.rd (stateF e) ≠ 0 ∨ clearing s e = true → ∃ t, exec (.imemWrite f e off v) s = .next t ∧ sets s t (ENG_STS.WR_REFUSED (e / 8) (e % 8)) 1)) ∧
    (reaches s f (ENG_C_CTRL.reg k) →
      (s.rd (ENG_C_STS.PSTATE k) = 0 → ∃ t l, exec (.wake f k) s = .next t ∧ t.rd (ENG_C_STS.PSTATE k) = 1 ∧
        t.pwr.waiters = s.pwr.waiters ++ [l] ∧ l.who = .cluster k ∧ l.part = 0 ∧ l.mw = s.budget 5 ∧ t.eng = s.eng) ∧
      (s.rd (ENG_C_STS.PSTATE k) ≠ 0 → exec (.wake f k) s = .next s) ∧
      ((∃ j, j < 8 ∧ s.rd (stateF (8 * k + j)) ≠ 0) → exec (.sleep f k) s = .next s) ∧
      ((∀ j, j < 8 → s.rd (stateF (8 * k + j)) = 0) → ∃ t, exec (.sleep f k) s = .next t ∧ t.rd (ENG_C_STS.PSTATE k) = 0 ∧ t.mem = s.mem ∧
        (∀ l ∈ t.pwr.held, l.who ≠ .cluster k) ∧ (∀ j, j < 8 → t.core (8 * k + j) = { s.core (8 * k + j) with waitRun := 0 }) ∧
        onlyRegs { s with eng := t.eng, pwr := t.pwr } t [ENG_C_STS.reg k])) ∧
    (s.rd (ENG_C_STS.PSTATE k) = 1 → (∃ l ∈ s.pwr.held, l.who = .cluster k) →
      ∃ t, exec (.clusterOn k) s = .next t ∧ t.rd (ENG_C_STS.PSTATE k) = 2 ∧
        (∀ j, j < 8 → (s.core (8 * k + j)).waitRun ≠ 0 → t.rd (stateF (8 * k + j)) = 1 ∧
          (t.core (8 * k + j)).stepping = ((s.core (8 * k + j)).waitRun == 2) ∧ (t.core (8 * k + j)).waitRun = 0) ∧
        (∀ j, j < 8 → (s.core (8 * k + j)).waitRun = 0 → t.core (8 * k + j) = s.core (8 * k + j) ∧ t.rd (stateF (8 * k + j)) = s.rd (stateF (8 * k + j)))) ∧
    (s.rd (ENG_C_STS.PSTATE k) ≠ 1 ∨ (∀ l ∈ s.pwr.held, l.who ≠ .cluster k) → exec (.clusterOn k) s = .next s) ∧
    (reaches s f (SUP_CTRLN.reg n) →
      (s.rd (stateF (64 + n)) = 0 → ∃ t, exec (.supervisorRun f n) s = .next t ∧ started t (64 + n)) ∧
      (s.rd (stateF (64 + n)) ≠ 0 → exec (.supervisorRun f n) s = .next s) ∧
      halts (.supervisorHalt f n) (64 + n) ∧
      (s.rd (stateF (64 + n)) = 0 → (s.core (64 + n)).held = false →
        exec (.supervisorStep f n) s = .next (stepCore supDev (64 + n) (steps (64 + n)))) ∧
      (∃ t, exec (.supervisorReset f n) s = .next t ∧ fresh t (64 + n) ∧ only t (64 + n) [(stateF (64 + n)).addr, (causeF (64 + n)).addr]))

/-- The flash controller (R344-R356). -/
def Obligations.FlashOperationsRunToTheirStatus : Prop :=
  ∀ (f : Fn) (v : Word) (s : State), s.inv = true →
    let next := fun (t : State) => t.flc.op = s.flc.wait.head? ∧ t.flc.wait = s.flc.wait.drop 1 ∧ t.on FLC_CMD.BUSY = s.flc.wait.any (fun w => w.src == 0) ∧
      ∀ l ∈ t.pwr.held, l.who ≠ .flash
    let told := fun (t : State) (st done : Nat) => t.rd FLC_RES.STATUS = st ∧ t.rd FLC_RES.DONE = done ∧ flagged t 12 0
    let ended := fun (t : State) (st done : Nat) => told t st done ∧ next t
    let asks := fun (t : State) (mw : Nat) => ∃ l, t.pwr.waiters = s.pwr.waiters ++ [l] ∧ l.who = .flash ∧ l.part = 0 ∧ l.mw = mw
    let mine := fun (o : FlashOp) => o.src == 0 && !o.begun
    let leave := fun (o : FlashOp) => s.budget (if o.code = 2 ∨ o.code = 3 then 7 else 8)
    (reaches s f FLC_CMD.reg →
      (∀ q ∈ [(Instr.program f v, 1), (.eraseSector f v, 2), (.eraseBlock f v, 3)],
        let o : FlashOp := ⟨q.2, s.rd FLC_ADDR.ADDR, bf v 4 5, [], 0, false, 0, false, 0, 0⟩
        (s.on FLC_CMD.BUSY = false → 1 ≤ bf v 4 5 → bf v 4 5 ≤ 16 →
          (s.flc.op = none → ∃ t, exec q.1 s = .next t ∧ t.flc = { s.flc with op := some o } ∧ t.on FLC_CMD.BUSY = true ∧ t.on FLC_STS.WAIT_LEAVE = true ∧
            asks t (leave o) ∧ t.flash = s.flash ∧ t.nvm = s.nvm) ∧
          (s.flc.op ≠ none → ∃ t, exec q.1 s = .next t ∧ t.flc = { s.flc with wait := s.flc.wait ++ [o] } ∧ t.on FLC_CMD.BUSY = true ∧ t.pwr = s.pwr ∧
            t.flash = s.flash ∧ t.nvm = s.nvm)) ∧
        (s.on FLC_CMD.BUSY = true → exec q.1 s = .next (s.regWrite FLC_CMD.reg v))) ∧
      (∀ o, s.flc.op = some o →
        ((o.code = 2 ∨ o.code = 3) → o.begun = true → o.stage = 1 → ∃ t, exec (.suspend f v) s = .next t ∧ next t ∧
          t.flc.resume = some { o with stage := 2 } ∧ t.on FLC_STS.SUSPENDED = true ∧ t.flash = s.flash ∧ t.nvm = s.nvm) ∧
        (¬(o.code = 2 ∨ o.code = 3) ∨ o.begun = false ∨ o.stage ≠ 1 → exec (.suspend f v) s = .next (s.regWrite FLC_CMD.reg v)) ∧
        (mine o = true → ∃ t, exec (.abort f v) s = .next t ∧ ended t 10 0 ∧ t.flash = s.flash ∧ t.nvm = s.nvm)) ∧
      ((∀ o, s.flc.op = some o → mine o = false) →
        ((∀ o ∈ s.flc.wait, mine o = false) → exec (.abort f v) s = .next (s.regWrite FLC_CMD.reg v)) ∧
        ((∃ o ∈ s.flc.wait, mine o = true) → ∃ t, exec (.abort f v) s = .next t ∧ told t 10 0 ∧
          t.flc = { s.flc with wait := s.flc.wait.filter (fun o => !mine o) } ∧ t.flash = s.flash ∧ t.nvm = s.nvm)) ∧
      (s.flc.op = none → exec (.suspend f v) s = .next (s.regWrite FLC_CMD.reg v)) ∧
      (s.flc.resume = none → exec (.resume f v) s = .next (s.regWrite FLC_CMD.reg v)) ∧
      (∀ e, s.flc.resume = some e →
        ((∃ o ∈ s.flc.op.toList ++ s.flc.wait, eraseOpen o = true) → exec (.resume f v) s = .next (s.regWrite FLC_CMD.reg v)) ∧
        ((∀ o ∈ s.flc.op.toList ++ s.flc.wait, eraseOpen o = false) →
          (s.flc.op = none → ∃ t, exec (.resume f v) s = .next t ∧ t.flc = { s.flc with op := some { e with stage := 0 } } ∧ asks t (leave e) ∧
            t.on FLC_STS.SUSPENDED = true) ∧
          (s.flc.op ≠ none → ∃ t, exec (.resume f v) s = .next t ∧ t.flc = { s.flc with wait := s.flc.wait ++ [{ e with stage := 0 }] } ∧
            t.pwr = s.pwr ∧ t.on FLC_STS.SUSPENDED = true)))) ∧
    (∀ o, s.flc.op = some o → o.stage = 1 → o.begun = true → o.src = 0 → s.flc.resume = none →
      let sec := o.addr / 4096
      let p := physSector s sec
      let at_ := physAddr s o.addr
      (o.code = 1 → o.addr % 16 = 0 → o.data.length = 16 * o.n → 0 < o.n → o.n ≤ 16 → (o.addr + 16 * o.n - 1) / 4096 = sec → overlay s sec = false →
        sfind s.nvm.wild p = none → swf (fun _ => 511) s.nvm.check = true → (∀ k, k < o.n → sfind s.nvm.torn (at_ / 16 + k) = none) →
        (∀ sp, ∃ t, exec (.opDone [] sp) s = .next t ∧ ended t 0 o.n ∧ (∀ j, j < 16 * o.n → flashByte t (o.addr + j) = o.data.getD j 0) ∧
          (∀ k, k < o.n → sget (fun _ => 511) t.nvm.check (at_ / 16 + k) = Config.eccOf ((o.data.drop (16 * k)).take 16) % 512) ∧
          ∀ x, x < at_ ∨ at_ + 16 * o.n ≤ x → sget (fun _ => 255) t.flash x = sget (fun _ => 255) s.flash x) ∧
        (∀ w sp, w < o.n → ∃ t, exec (.opDone [w] sp) s = .next t ∧ ended t 7 w ∧ p ∈ t.nvm.failed ∧
          ∀ j, j < 16 * w → flashByte t (o.addr + j) = o.data.getD j 0)) ∧
      (o.code = 2 → o.sep = false → o.acc = 0 → p ∉ s.nvm.failed →
        (∀ sp, ∃ t, exec (.opDone [] sp) s = .next t ∧ ended t 0 0 ∧ t.rd FLC_RES.REMAPPED = 0 ∧ t.flash = sdrop s.flash (4096 * p) (4096 * p + 4096) ∧
          p ∉ t.nvm.marks ∧ (sfind s.nvm.wild p = none → ∀ x, x / 4096 = sec → flashByte t x = 255)) ∧
        (spareOf s sec = none → ∀ k, (List.range 64).find? (fun j => spareUse s.info j == 0) = some k →
          ∃ t, exec (.opDone [sec] []) s = .next t ∧ ended t 0 0 ∧ t.rd FLC_RES.REMAPPED = 1 ∧ spareUse t.info k = 2 + sec ∧ flagged t 12 3) ∧
        (spareOf s sec = none → (∀ j, j < 64 → spareUse s.info j ≠ 0) →
          ∃ t, exec (.opDone [sec] []) s = .next t ∧ ended t 8 0 ∧ sectorBad t sec = true ∧ p ∈ t.nvm.marks)) ∧
      (o.code = 3 → o.acc = 0 → (∀ k ∈ opSectors o, physSector s k = k ∧ k ∉ s.nvm.failed) → ∀ sp,
        let gone := fun (t : State) => ∀ x, sget (fun _ => 255) t.flash x = if x / 4096 ∈ opSectors o then 255 else sget (fun _ => 255) s.flash x
        (o.sep = true → o.cur < 15 → ∃ t, exec (.opDone [] sp) s = .next t ∧ t.flc = { s.flc with op := some { o with cur := o.cur + 1 } } ∧ gone t) ∧
        (o.sep = false → ∃ t, exec (.opDone [] sp) s = .next t ∧ ended t 0 0 ∧ gone t))) ∧
    ((∀ o, s.flc.op = some o → o.stage ≠ 1 ∨ o.begun = false) → ∀ l sp, exec (.opDone l sp) s = .next s) ∧
    (∀ off flips, off < 4096 → flips < 2 ^ 137 → reaches s f (0x88000 + off) →
      let sec := s.rd FLC_WIN.SECTOR
      let a := 4096 * sec + off / 4 * 4
      let w := physAddr s a / 16
      let stored := (List.range 16).map (fun k => physByte s (16 * w + k))
      let pick := fun (d : List Byte) => BitVec.ofNat 32 (unoctets ((d.drop (a % 16)).take 4))
      let raw : Word := pick (octets 16 (Nat.xor (unoctets stored) (flips % 2 ^ 128)))
      let gives := fun (u : State) (w : Word) (k : Nat) => exec (.windowRead f off flips) s = .next ((u.wr FLC_RD_STS.KIND k).post (.readData w))
      let events := fun (w : Word) (k : Nat) (c : RegFld) => ∃ t, exec (.windowRead f off flips) s = .next t ∧ t.rd FLC_RD_STS.KIND = k ∧
        t.posted.getLast? = some (.readData w) ∧ t.rd FLC_ECC_LOG.ADDR = a / 16 ∧ t.rd FLC_ECC_LOG.KIND = k - 1 ∧ flagged t 12 k ∧
        t.rd c = min 0xFFFFFFFF (s.rd c + 1)
      (8128 ≤ sec → gives s 0xFFFFFFFF 6) ∧
      (sec < 8128 → sectorBad s sec = true → gives s raw 5) ∧
      (sec < 8128 → sectorBad s sec = false → s.nvm.marks.contains (physSector s sec) = true → underErase s sec = false → gives s raw 4) ∧
      (sec < 8128 → sectorBad s sec = false → (s.nvm.marks.contains (physSector s sec) = false ∨ underErase s sec = true) →
        (∀ o, busyOp s sec = some o → gives s (busyWord o) 3) ∧
        (busyOp s sec = none → sectorOpen s sec = true → gives s raw 4) ∧
        (busyOp s sec = none → sectorOpen s sec = false →
          (overlay s sec = true → gives s raw 0) ∧
          (overlay s sec = false → physCheck s w = Config.eccOf stored % 512 →
            (flips = 0 → gives s (pick stored) 0) ∧
            (∀ b, b < 137 → flips = 2 ^ b → events (pick stored) 1 FLC_CNT_ECC_CORR.COUNT) ∧
            (∀ b c, b < c → c < 137 → flips = 2 ^ b + 2 ^ c → events raw 2 FLC_CNT_ECC_UNCORR.COUNT))))) ∧
    (∀ pos o, s.flc.op = some o → o.stage = 1 → o.begun = true →
      let t5 := fun (t : State) (done code : Nat) => exec (.flashBrownOut pos) s = .next t ∧
        t.flc = { s.flc with op := some { o with stage := 5, cur := done }, low := true } ∧ t.rd FLC_BO_LOG.ADDR = o.addr % 2 ^ 25 ∧
        t.rd FLC_BO_LOG.OP = code ∧ t.rd FLC_BO_LOG.VALID = 1 ∧ flagged t 12 4
      (o.code = 1 → ∃ t, t5 t (min pos (o.n - 1)) 1 ∧ (sfind t.nvm.torn (physAddr s (o.addr + 16 * min pos (o.n - 1)) / 16)).isSome = true) ∧
      (o.code = 2 → ∃ t, t5 t o.cur (if pos % 3 = 0 then 4 else if pos % 3 = 1 then 2 else 5) ∧ physSector s (o.addr / 4096) ∈ t.nvm.marks)) ∧
    ((∀ o, s.flc.op = some o → o.stage ≠ 1 ∨ o.begun = false) → ∀ pos, exec (.flashBrownOut pos) s = .next (s.setFlc { s.flc with low := true })) ∧
    (∀ o, s.flc.op = some o →
      (o.stage = 5 → o.src = 0 → o.cur < 16 → ∃ t, exec .supplyRecovery s = .next t ∧ ended t 9 (if o.code = 1 then o.cur else 0) ∧ t.flc.low = false ∧
        t.flash = s.flash) ∧
      (o.stage = 4 → o.begun = false → o.src = 0 → o.code ∈ [1, 2, 3] →
        let w := pbufBytes s o.n
        let u := s.setFlc { s.flc with low := false }
        (flashCheck u o w ≠ 0 → ∃ t, exec .supplyRecovery s = .next t ∧ ended t (flashCheck u o w) 0 ∧ t.flash = s.flash ∧ t.nvm = s.nvm) ∧
        (flashCheck u o w = 0 → ∃ t, exec .supplyRecovery s = .next t ∧
          t.flc = { u.flc with op := some { o with stage := 1, begun := true, data := w, sep := o.code == 3 && oneByOne u o } } ∧
          t.on FLC_STS.BUSY = true ∧ t.flash = s.flash ∧ t.nvm = s.nvm)) ∧
      (o.stage ≠ 4 → o.stage ≠ 5 → exec .supplyRecovery s = .next (s.setFlc { s.flc with low := false }))) ∧
    (s.flc.op = none → exec .supplyRecovery s = .next (s.setFlc { s.flc with low := false }))

/-- The graft unit, the fuses and the ledger (R324, R333-R342, R346). -/
def Obligations.GraftFusesAndLedgerRunTheirOperations : Prop :=
  ∀ (f : Fn) (v : Word) (s : State), s.inv = true →
    let overG := fun (t : State) (code : Nat) => t.flc.graft = none ∧ t.on FLC_GRAFT_CTRL.BUSY = false ∧ t.rd FLC_GRAFT_STS.CODE = code ∧ flagged t 14 0
    let fused := fun (t : State) (st : Nat) => t.flc.fuse = none ∧ t.on FLC_FUSE_CMD.BUSY = false ∧ t.rd FLC_FUSE_CMD.STATUS = st ∧ flagged t 14 2
    let told := fun (t : State) (st : Nat) => t.flc.ldg = none ∧ t.on FLC_LDG_CTRL.BUSY = false ∧ t.rd FLC_LDG_STS.STATUS = st ∧ flagged t 14 1 ∧
      t.flash = s.flash ∧ t.nvm = s.nvm
    let writes := fun (t : State) (op : Nat) (b : BootBlk) =>
      unitWork t 2 = some { unit := 2, left := changeSteps (graftBlock s op b), ok := true } ∧ t.flash = s.flash ∧ t.nvm = s.nvm ∧
        (s.flc.op = none → s.flc.wait = [] → t.flc.op = some (stepOp 2 (.erase (1 - b.idx))) ∧ ∃ l, t.pwr.waiters = s.pwr.waiters ++ [l] ∧ l.who = .flash)
    (reaches s f FLC_GRAFT_CTRL.reg →
      (∀ q ∈ [(Instr.graftCheck f v, 1), (.graftArm f v, 2), (.withdraw f v, 8), (.confirm f v, if bf v 4 1 = 1 then 20 else 4)] ++
          (if bf v 2 1 = 1 then [(Instr.raiseFloor f v, 20)] else []),
        (s.on FLC_GRAFT_CTRL.BUSY = true → exec q.1 s = .next s) ∧
        (s.on FLC_GRAFT_CTRL.BUSY = false → ∃ t, exec q.1 s = .next t ∧ t.on FLC_GRAFT_CTRL.BUSY = true ∧
          (∀ c, graftRefused s q.2 = some c → t.flc = { s.flc with graft := some c } ∧ sets { s with flc := t.flc } t FLC_GRAFT_CTRL.BUSY 1) ∧
          (graftRefused s q.2 = none → t.flc.graft = some q.2 ∧
            (q.2 = 1 → t.flc = { s.flc with graft := some 1 } ∧ sets { s with flc := t.flc } t FLC_GRAFT_CTRL.BUSY 1) ∧
            (∀ b, q.2 ≠ 1 → s.flc.boot = some b → unitWork s 3 = none → writes t q.2 b)))) ∧
      (bf v 2 1 = 0 → exec (.raiseFloor f v) s = .next s)) ∧
    (s.flc.graft = none → exec .graftDone s = .next s) ∧
    (∀ op b, s.flc.graft = some op → s.flc.boot = some b →
      (0xE0 ≤ op → op < 256 → ∃ t, exec .graftDone s = .next t ∧ overG t op ∧ t.rd FLC_GRAFT_STS.STATE = s.rd FLC_GRAFT_STS.STATE ∧
        raisedOnly { s with flc := t.flc } t [FLC_GRAFT_CTRL.reg, FLC_GRAFT_STS.reg, FLC_GRAFT_EVT_STS.reg] ∧ t.flc = { s.flc with graft := none }) ∧
      (op = 1 →
        let a := (bootSlot b (1 - b.active)).1
        let u := s.wr FLC_GRAFT_SECVER.SEC_VERSION (srcWord s 0 (a + 0x10))
        (imgStalls s 0 a = true → exec .graftDone s = .next s) ∧
        (imgStalls s 0 a = false → ∃ t, exec .graftDone s = .next t ∧ t.flc = { s.flc with graft := none } ∧ t.flash = s.flash ∧
          (imgErr u 0 0 a = none → overG t 0 ∧ t.rd FLC_GRAFT_STS.STATE = 1) ∧
          (∀ e, imgErr u 0 0 a = some e → overG t (e.code % 256) ∧ t.rd FLC_GRAFT_STS.STATE = 0))) ∧
      (op ∈ [2, 4, 8, 20] →
        let c : BootBlk := if op = 2 then { b with trial := true } else if op = 8 then { b with trial := false, last := 3 }
          else { b with active := s.flc.runSlot.getD b.active, trial := false, last := 1 }
        (unitWork s 2 = none → unitWork s 3 = none →
          ∃ t, exec .graftDone s = .next t ∧ t.flc.graft = some op ∧ writes t op b) ∧
        (unitWork s 2 = none → unitWork s 3 ≠ none → exec .graftDone s = .next s) ∧
        (∀ w, unitWork s 2 = some w →
          (w.left ≠ [] → exec .graftDone s = .next s) ∧
          (w.left = [] → w.ok = true → ∃ t, exec .graftDone s = .next t ∧ overG t 0 ∧ t.flc.boot = some c ∧ unitWork t 2 = none ∧ t.flash = s.flash ∧
            t.rd FLC_GRAFT_STS.STATE = (if op = 2 then 2 else if op = 8 then 0 else 5) ∧
            t.fuses.floor = (if op = 20 then max s.fuses.floor (min 96 (s.rd FLC_IMG_SECVER.SEC_VERSION)) else s.fuses.floor)) ∧
          (w.left = [] → w.ok = false → ∃ t, exec .graftDone s = .next t ∧ t.flc.graft = none ∧ t.on FLC_GRAFT_CTRL.BUSY = false ∧ t.flc.boot = some b ∧
            t.rd FLC_GRAFT_STS.STATE = s.rd FLC_GRAFT_STS.STATE ∧ t.fuses = s.fuses ∧ flagged t 14 0)))) ∧
    (∀ o w, s.flc.op = some o → o.stage = 1 → o.begun = true → o.src ≠ 0 → unitWork s o.src = some w →
      let ends := fun (t : State) (w : UnitWork) => unitWork t o.src = some w ∧ t.reg FLC_RES.reg = s.reg FLC_RES.reg ∧
        (s.flc.wait = [] → (∀ x, w.left.head? = some x → stepHeld s o.src x = false) → t.flc.op = w.left.head?.map (stepOp o.src))
      let on := { w with left := w.left.drop 1 }
      let off := { w with left := [], ok := false }
      (o.code = 2 → o.sep = false → o.acc = 0 → physSector s (o.addr / 4096) ∉ s.nvm.failed → ∀ sp, ∃ t, exec (.opDone [] sp) s = .next t ∧ ends t on) ∧
      (o.code = 1 → (∃ t, exec (.opDone [] []) s = .next t ∧ ends t on) ∧
        ∀ k, k < o.n → ∃ t, exec (.opDone [k] []) s = .next t ∧ ends t off) ∧
      (o.code = 7 → ∀ l sp, ∃ t, exec (.opDone l sp) s = .next t ∧ ends t on ∧ highGen t o.addr = o.n ∧ t.flash = s.flash)) ∧
    (reaches s f FLC_FUSE_CMD.reg → ∀ q ∈ [(Instr.programKey f v, 1), (.revokeKey f v, 2), (.setLimit f v, 3)],
      (s.on FLC_FUSE_CMD.BUSY = true → exec q.1 s = .next s) ∧
      (s.on FLC_FUSE_CMD.BUSY = false → ∃ t, exec q.1 s = .next t ∧ t.flc = { s.flc with fuse := some q.2 } ∧ t.on FLC_FUSE_CMD.BUSY = true ∧
        t.rd FLC_FUSE_CMD.INDEX = bf v 4 2 ∧ t.rd FLC_FUSE_CMD.LIMIT = bf v 8 3 ∧ onlyRegs { s with flc := t.flc } t [FLC_FUSE_CMD.reg])) ∧
    (s.flc.fuse = none → ∀ x, exec (.fuseDone x) s = .next s) ∧
    (∀ op, s.flc.fuse = some op →
      let k := s.rd FLC_FUSE_CMD.INDEX
      (fuseAllowed s op = false → ∀ x, ∃ t, exec (.fuseDone x) s = .next t ∧ fused t 1 ∧ t.fuses = s.fuses) ∧
      (fuseAllowed s op = true → (∃ t, exec (.fuseDone true) s = .next t ∧ fused t 2 ∧ t.fuses = s.fuses) ∧
        ∃ t, exec (.fuseDone false) s = .next t ∧ fused t 0 ∧ fusesGrow s.fuses t.fuses ∧
          (op = 1 → sfind t.fuses.keys k = some ((List.range 12).flatMap (fun w => octets 4 (s.rd (FLC_FUSE_DATA.HASH w)))) ∧
            bitOn (t.rd FLC_IMG_KEYS.PRESENT) k = true) ∧
          (op = 2 → k ∈ t.fuses.revoked ∧ bitOn (t.rd FLC_IMG_KEYS.REVOKED) k = true) ∧
          (op = 3 → t.fuses.limit = some (s.rd FLC_FUSE_CMD.LIMIT)))) ∧
    (let begins := fun (u t : State) (op : Nat) =>
        unitWork t 1 = some { unit := 1, left := ldgSteps u, ok := true, gen := (ldgCopy op u).1, copy := (ldgCopy op u).2 } ∧ t.flc.ldg = some op ∧
          t.mem = s.mem ∧ t.flash = s.flash ∧ t.nvm = s.nvm
     (reaches s f FLC_LDG_CTRL.reg → ∀ q ∈ [(Instr.write f v, 1), (.read f v, 2), (.resetGen f v, 3)],
      (s.on FLC_LDG_CTRL.BUSY = true → exec q.1 s = .next s) ∧
      (s.on FLC_LDG_CTRL.BUSY = false → ∃ t u, exec q.1 s = .next t ∧ u.flc = { s.flc with ldg := some q.2 } ∧ u.on FLC_LDG_CTRL.BUSY = true ∧
        u.rd FLC_LDG_CTRL.AREA = bf v 4 1 ∧ onlyRegs { s with flc := u.flc } u [FLC_LDG_CTRL.reg] ∧ t.flc.ldg = some q.2 ∧ t.on FLC_LDG_CTRL.BUSY = true ∧
        ((ldgEarly u q.2).isSome = true ∨ ldgWaits u q.2 = true ∨ (ldgCheck u q.2).isSome = true ∨ ldgSteps u = [] → t = u) ∧
        (ldgEarly u q.2 = none → ldgWaits u q.2 = false → ldgCheck u q.2 = none → ldgSteps u ≠ [] → begins u t q.2))) ∧
     (s.flc.ldg = none → exec .ldgDone s = .next s) ∧
     (∀ op, s.flc.ldg = some op → op ∈ [1, 2, 3] →
      let restored := fun (t : State) (b : BootBlk) (area c : Nat) (rep : Bool) =>
        let a := copyAt b area c
        let st := ((copyStream s a area).getD []).take (copyWord s a 12)
        let o := supBase + s.rd FLC_LDG_MEM.OFFSET
        told t 0 ∧ t.rd FLC_LDG_LEN.LEN = copyWord s a 12 % 2 ^ 24 ∧ t.rd FLC_LDG_GEN.GEN = copyGen s a ∧ t.rd FLC_LDG_STS.COPY = c % 2 ∧
          t.on FLC_LDG_STS.REPAIRED = rep ∧ t.bytes o st.length = st ∧ ∀ x, x < o ∨ o + st.length ≤ x → t.byte x = s.byte x
      (unitWork s 1 = none →
        (∀ c, ldgEarly s op = some c → ∃ t, exec .ldgDone s = .next t ∧ told t c ∧ t.mem = s.mem) ∧
        (ldgEarly s op = none → ldgWaits s op = true → exec .ldgDone s = .next s) ∧
        (ldgEarly s op = none → ldgWaits s op = false →
          (∀ c, ldgCheck s op = some c → ∃ t, exec .ldgDone s = .next t ∧ told t c ∧ t.mem = s.mem) ∧
          (ldgCheck s op = none → ldgSteps s ≠ [] → ∃ t, exec .ldgDone s = .next t ∧ begins s t op) ∧
          (∀ b area w, op = 2 → s.flc.boot = some b → ldgArea s op = some area → ldgCheck s op = none → winner s b area = some w →
            readSteps s b area = [] → ∃ t, exec .ldgDone s = .next t ∧ restored t b area w false))) ∧
      (∀ w, unitWork s 1 = some w →
        (w.left = [] → w.ok = false → ∃ t, exec .ldgDone s = .next t ∧ told t 3 ∧ t.mem = s.mem ∧ unitWork t 1 = none) ∧
        (∀ b area, w.left = [] → w.ok = true → s.flc.boot = some b → ldgArea s op = some area →
          (op = 1 → ∃ t, exec .ldgDone s = .next t ∧ told t 0 ∧ t.rd FLC_LDG_GEN.GEN = w.gen % 2 ^ 32 ∧ t.rd FLC_LDG_STS.COPY = w.copy % 2 ∧
            t.on FLC_LDG_STS.REPAIRED = false ∧ t.on FLC_LDG_STS.STALE = false ∧ t.mem = s.mem) ∧
          (op = 2 → ∃ t, exec .ldgDone s = .next t ∧ restored t b area w.copy true) ∧
          (op = 3 → ∃ t, exec .ldgDone s = .next t ∧ told t 0 ∧ t.mem = s.mem)) ∧
        (∀ x xs, w.left = x :: xs →
          (stepHeld s 1 x = true → s.sec.tamper = true → ∃ t, exec .ldgDone s = .next t ∧ told t 5 ∧ t.mem = s.mem) ∧
          (stepHeld s 1 x = true → s.sec.tamper = false → s.flc.op ≠ none ∨ s.flc.wait = [] → exec .ldgDone s = .next s) ∧
          (stepHeld s 1 x = false → s.flc.op ≠ none → (∃ o ∈ s.flc.op.toList ++ s.flc.wait, o.src = 1) → exec .ldgDone s = .next s) ∧
          (stepHeld s 1 x = false → (∀ o ∈ s.flc.op.toList ++ s.flc.wait, o.src ≠ 1) →
            ∃ t, exec .ldgDone s = .next t ∧ stepOp 1 x ∈ t.flc.op.toList ++ t.flc.wait)))))

/-- Power states and the arbiter (R359-R363, R371, R372). -/
def Obligations.PowerRequestsAndLeaveAreServed : Prop :=
  ∀ (f : Fn) (s : State), s.inv = true →
    let st := s.rd PWR_STS.STATE
    let cmds := [(Instr.run f, 0), (.trim f, 1), (.watch f, 2), (.dormant f, 3)]
    let ends := fun (t : State) (k c : Nat) => t.rd PWR_STS.STATE = k ∧ t.rd PWR_CMD_RES.STATUS = c ∧ t.on PWR_STS.BUSY = false ∧ t.pwr.req = none ∧
      flagged t 11 (if c = 0 then 0 else 1)
    (reaches s f PWR_CMD.reg →
      (∀ q ∈ cmds, s.on PWR_STS.BUSY = true → exec q.1 s = .next s) ∧
      (s.on PWR_STS.BUSY = false →
        let fails := fun (i : Instr) (c : Nat) => ∃ t, exec i s = .next t ∧ ends t st c ∧
          raisedOnly { s with pwr := { s.pwr with req := none } } t [PWR_STS.reg, PWR_CMD_RES.reg, PWR_EVT_STS.reg]
        let quiet : Prop := ∀ c, c < 8 → s.rd (ENG_C_STS.PSTATE c) = 0
        let closed : Prop := ∀ q, q < 1024 → s.on (HST_PORT_STS.EN q) = false
        (∀ q ∈ cmds, st = 3 → fails q.1 1) ∧
        (∀ q ∈ cmds, st = q.2 → q.2 ≠ 3 → fails q.1 0) ∧
        (st < 3 → ¬quiet → fails (.dormant f) 2 ∧ (st ≠ 2 → fails (.watch f) 2)) ∧
        (st < 3 → quiet → ¬closed → fails (.dormant f) 3) ∧
        (st < 3 → quiet → closed → bitOn (s.rd PWR_RET_CFG.BANKS) 4 = true → bitOn (s.rd PWR_RET_CFG.BANKS) 0 = false → fails (.dormant f) 4) ∧
        (st < 3 → quiet → closed → (bitOn (s.rd PWR_RET_CFG.BANKS) 4 = false ∨ bitOn (s.rd PWR_RET_CFG.BANKS) 0 = true) →
          s.on PWR_REG_CFG.MODE = true → (s.on PWR_RET_CFG.COMPAT = true → fails (.dormant f) 5) ∧
          (s.on PWR_RET_CFG.COMPAT = false → 80 < retentionLoad (s.rd PWR_RET_CFG.BANKS) false → fails (.dormant f) 6)) ∧
        (∀ q ∈ [(Instr.run f, 0), (.trim f, 1)], st < 3 → st ≠ q.2 → ¬(q.2 = 0 ∧ st = 2) → ∃ t, exec q.1 s = .next t ∧ ends t q.2 0) ∧
        (st = 2 → ∃ t, exec (.run f) s = .next t ∧ (s.pwr.mode = 0 → t.rd PWR_STS.STATE = 0 ∧ t.rd PWR_WAKE_STS.SRC = 5 ∧ t.rd PWR_CMD_RES.STATUS = 0 ∧
          flagged t 11 0)) ∧
        (st < 2 → quiet → s.txc.carriers = [] → ∃ t, exec (.watch f) s = .next t ∧ ends t 2 0) ∧
        (st < 2 → quiet → s.txc.carriers ≠ [] → ∃ t, exec (.watch f) s = .next t ∧ t.pwr = { s.pwr with req := some 2, reqAt := s.now, left := st } ∧
          sets { s with pwr := t.pwr } t PWR_STS.BUSY 1) ∧
        (pwrCheck s 3 = 0 → ∃ t, exec (.dormant f) s = .next t ∧ t.pwr = { s.pwr with req := some 3, reqAt := s.now, left := st } ∧
          t.on PWR_STS.BUSY = true ∧ t.rd PWR_STS.STATE = 3 ∧ onlyRegs { s with pwr := t.pwr } t [PWR_STS.reg]))) ∧
    (∀ k, s.pwr.req = some k → reqSettled s = false →
      ∃ t, exec .quiescenceTimeout s = .next t ∧ (s.pwr.left < 3 → ends t (if st = 3 then s.pwr.left else st) 7) ∧
        t.now = max s.now (s.pwr.reqAt + 32000 * s.rd PWR_QUIESCE_TMO.MS)) ∧
    (s.pwr.req = none ∨ reqSettled s = true → exec .quiescenceTimeout s = .next s) ∧
    (s.pwr.req ≠ some 3 ∨ quiescent s = false → exec .linkL2Ready s = .next s) ∧
    (s.pwr.req = some 3 → quiescent s = true → st = 3 → s.pwr.left < 3 →
      (bankKept s 4 = false → s.rd QUE_STS.FREE < 786432 → ∃ t, exec .linkL2Ready s = .next t ∧ ends t s.pwr.left 8) ∧
      (bankKept s 4 = true ∨ s.rd QUE_STS.FREE = 786432 → ∃ t, exec .linkL2Ready s = .next t ∧ t.pwr.mode = 1 ∧ t.pwr.pwrEn = false ∧
        t.pwr.req = none ∧ t.rd PWR_CMD_RES.STATUS = 0 ∧ t.on PWR_STS.BUSY = false ∧ t.clk.tb = false ∧ t.mem = s.mem ∧ t.que = s.que ∧
        t.sec = (if bankKept s 1 then s.sec else { s.sec with slots := [], longs := [] }) ∧
        ∀ n, n < 4 → t.rd (stateF (64 + n)) = 0)) ∧
    (s.pwr.waiters = [] → exec .leaveGrant s = .next s) ∧
    (∀ l rest, s.pwr.waiters = l :: rest →
      (s.waiterFits l = true →
        let u := ({ s with pwr := { s.pwr with waiters := rest, held := s.pwr.held ++ [(⟨l.who, l.part, l.mw, false⟩ : Leave)] } } : State).inc PWR_CNT_GRANT.COUNT
        (∀ c, l.who = .cluster c → exec .leaveGrant s = .next u) ∧
        (l.who = .flash → ∀ o, s.flc.op = some o → s.flc.low = false → o.begun = true →
          (∀ w, unitWork s 3 = some w → w.left ≠ []) →
          ∃ t, exec .leaveGrant s = .next t ∧ t.pwr = u.pwr ∧ t.flc = { s.flc with op := some { o with stage := 1 }, resume := none } ∧
            t.on FLC_STS.BUSY = true ∧ t.on FLC_STS.WAIT_LEAVE = false ∧ t.on FLC_STS.SUSPENDED = false) ∧
        (l.who = .flash → ∀ o, s.flc.op = some o → s.flc.low = false → o.begun = false →
          let w := if o.src = 0 then pbufBytes s o.n else o.data
          flashCheck u o w = 0 → (∀ w, unitWork s 3 = some w → w.left ≠ []) →
          ∃ t, exec .leaveGrant s = .next t ∧ t.pwr = u.pwr ∧ t.on FLC_STS.BUSY = true ∧
            t.flc = { s.flc with op := some { o with stage := 1, begun := true, data := w, sep := o.code == 3 && oneByOne s o } }) ∧
        (l.who = .capture → s.rd CNP_CAP_CFG.TRIG ≠ 2 → ∃ t, exec .leaveGrant s = .next t ∧ t.pwr = u.pwr ∧ t.rd CNP_CAP_STS.STATE = 2 ∧
          t.cnp = { s.cnp with capFrom := s.atb }) ∧
        (∀ n, n < 8 → l.who = .bias n → ∃ t, exec .leaveGrant s = .next t ∧ t.pwr = u.pwr ∧ t.rd (BIAS_G_STS.STATE n) = 2)) ∧
      (s.waiterFits l = false → l.refused = false → s.leaveShare l.part l.mw = false → l.part < 64 →
        exec .leaveGrant s = .next ({ s with pwr := { s.pwr with waiters := { l with refused := true } :: rest } }.inc (PRT_PCNT.COUNT l.part 2))) ∧
      (s.waiterFits l = false → (l.refused = true ∨ s.leaveShare l.part l.mw = true) → exec .leaveGrant s = .next s))

/-- Wakes, the temperature trip and the backup cell (R365-R376). -/
def Obligations.WakesTemperatureAndTheBackupCell : Prop :=
  ∀ (f : Fn) (s : State), s.inv = true →
    let counted := fun (t : State) (r : RegFld) => t.rd r = min (2 ^ r.w - 1) (s.rd r + 1)
    (∀ lvl,
      let u := { s with pwr := { s.pwr with wakePin := lvl } }
      let active : Prop := s.pwr.wakePin ≠ lvl ∧ wakeActive s lvl = true ∧ s.on PWR_WAKE_EN.WAKE_IN = true
      (¬active → exec (.wakeIn lvl) s = .next u) ∧
      (active → s.pwr.mode = 1 → s.pwr.wakeFired = false → ∃ t, exec (.wakeIn lvl) s = .next t ∧ t.rd PWR_WAKE_STS.SRC = 1 ∧ t.rd PWR_WAKE_STS.PENDING = 1 ∧
        t.pwr = { s.pwr with wakePin := lvl, wakeFired := true, wakeAt := s.now, pwrEn := true } ∧ onlyRegs { s with pwr := t.pwr } t [PWR_WAKE_STS.reg]) ∧
      (active → s.pwr.mode = 1 → s.pwr.wakeFired = true → exec (.wakeIn lvl) s = .next u) ∧
      (active → s.pwr.mode = 0 → s.rd PWR_STS.STATE = 2 → ∃ t, exec (.wakeIn lvl) s = .next t ∧ t.rd PWR_STS.STATE = 0 ∧ t.rd PWR_WAKE_STS.SRC = 1 ∧
        flagged t 11 0) ∧
      (active → s.pwr.mode = 0 → s.rd PWR_STS.STATE = 3 → s.pwr.left < 3 → ∃ t, exec (.wakeIn lvl) s = .next t ∧ t.rd PWR_STS.STATE = s.pwr.left ∧
        t.rd PWR_WAKE_STS.SRC = 1 ∧ t.rd PWR_CMD_RES.STATUS = 9 ∧ t.pwr = { s.pwr with wakePin := lvl, req := none } ∧ flagged t 11 1) ∧
      (active → s.pwr.mode = 0 → s.rd PWR_STS.STATE < 2 → exec (.wakeIn lvl) s = .next u)) ∧
    (∀ chan sf d, chan < 256 → sf < 4 →
      let heard := airDetector s && chan == s.rd PWR_AIR_CFG.CHAN && sf == s.rd PWR_AIR_CFG.SF && d.length == 12 && airMatch s d
      (heard = false → exec (.airWake chan sf d) s = .next s) ∧
      (heard = true → s.on PWR_WAKE_EN.AIR = false → ∃ t, exec (.airWake chan sf d) s = .next t ∧ counted t PWR_AIR_CNT.COUNT ∧ flagged t 11 4 ∧
        raisedOnly s t [PWR_AIR_CNT.reg, PWR_EVT_STS.reg]) ∧
      (heard = true → s.on PWR_WAKE_EN.AIR = true → s.pwr.mode = 0 → ∃ t, exec (.airWake chan sf d) s = .next t ∧ counted t PWR_AIR_CNT.COUNT ∧
        flagged t 11 4 ∧ t.rd PWR_STS.STATE = 0 ∧ t.rd PWR_WAKE_STS.SRC = 4)) ∧
    (∀ lk, (s.pwr.mode ≠ 1 ∨ s.pwr.wakeFired = false → exec (.wakeReturn lk) s = .next s) ∧
      (s.pwr.mode = 1 → s.pwr.wakeFired = true →
        (s.pwr.retLost = true → exec (.wakeReturn lk) s = .next (chipReset 1 s)) ∧
        (s.pwr.retLost = false → s.on PWR_RET_CFG.COMPAT = true → ∃ t, exec (.wakeReturn lk) s = .next t ∧ t.pwr.mode = 0 ∧ t.rd PWR_STS.STATE = 0 ∧
          t.rd PWR_WAKE_STS.RESUME = 1 ∧ flagged t 11 0 ∧ (∀ n ∈ s.pwr.svRun, n < 4 → t.rd (stateF (64 + n)) = 1)) ∧
        (s.pwr.retLost = false → s.on PWR_RET_CFG.COMPAT = false → s.pwr.resumeAddr = none → ∃ t, exec (.wakeReturn lk) s = .next t ∧ t.pwr.mode = 0 ∧
          t.rd PWR_WAKE_STS.RESUME = 1 ∧ t.start.due = 3 ∧ (∀ x, bkupBase ≤ x → t.byte x = s.byte x) ∧ t.que.nodes = [] ∧ t.eng.cores = State.reset.eng.cores))) ∧
    (s.pwr.mode = 1 → s.pwr.wakeFired = true → ∃ t, exec .wakeTimeout s = .next t ∧ t.rd PWR_WAKE_STS.WAKE_FAIL = 1 ∧ t.pwr.pwrEn = false ∧
      t.pwr.wakeFired = false ∧ t.now = max s.now (s.pwr.wakeAt + 32000 * s.rd PWR_WAKE_TMO.MS)) ∧
    (s.pwr.mode ≠ 1 ∨ s.pwr.wakeFired = false → exec .wakeTimeout s = .next s) ∧
    (s.pwr.mode = 1 → s.pwr.retLost = false → ∃ t, exec .retentionLoss s = .next t ∧ t.que = {} ∧ t.sec = { s.sec with slots := [], longs := [] } ∧
      t.pwr = { s.pwr with retLost := true } ∧ t.rd PWR_WAKE_STS.RET_LOST = 1 ∧ counted t PWR_CNT_AON_BO.COUNT ∧ flagged t 11 7 ∧
      (∀ x, bkupBase ≤ x → t.byte x = s.byte x) ∧ (∀ x, supBase ≤ x → x < supBase + 0x200000 → t.byte x = 0)) ∧
    (s.pwr.mode ≠ 1 ∨ s.pwr.retLost = true → exec .retentionLoss s = .next s) ∧
    (s.pwr.mode = 1 → pinShows s .twa = .released ∧ pinShows s .twb = .released ∧
      ∀ n, pinShows s (.biasGate n) = .level false ∧ pinShows s (.clkout n) = (if s.on PWR_RET_CFG.FLOAT_B then .highZ else .level false) ∧
        pinShows s (.txenSub n) = (if s.on PWR_RET_CFG.FLOAT_A then .highZ else .level (s.on (TXC_CH_CFG.SUB_POL n))) ∧
        pinShows s (.txen24 n) = (if s.on PWR_RET_CFG.FLOAT_B then .highZ else .level (s.on (TXC_CH_CFG.B24_POL n)))) ∧
    (s.pwr.mode = 2 → pinShows s .twa = .released ∧ pinShows s .twb = .released ∧ pinShows s .pwrEn = .highZ ∧
      ∀ n, pinShows s (.biasGate n) = .highZ ∧ pinShows s (.clkout n) = .highZ ∧ pinShows s (.txenSub n) = .highZ ∧ pinShows s (.rfout n) = .unpowered) ∧
    (s.pwr.mode = 2 → exec .holdover s = .next s) ∧
    (s.pwr.mode = 0 → exec .holdover s = .next { s with pwr := { s.pwr with mode := 2, pwrEn := false, wakeFired := false },
                                                          clk := { s.clk with tb := false, stopA := none } }) ∧
    (s.pwr.mode = 1 → ∃ t, exec .holdover s = .next t ∧ t.pwr = { s.pwr with mode := 2, pwrEn := false, wakeFired := false, retLost := true } ∧
      t.clk.tb = false ∧ (s.pwr.retLost = false → t.rd PWR_WAKE_STS.RET_LOST = 1)) ∧
    (∀ temp : Int, -32768 ≤ temp → temp ≤ 32767 → s.pwr.mode ≠ 0 → exec (.tempSample temp) s = .next s) ∧
    (∀ temp : Int, -32768 ≤ temp → temp ≤ 32767 → s.pwr.mode = 0 →
      let hi := sgn 16 (s.rd PWR_TEMP_CFG.TRIP)
      let lo := hi - s.rd PWR_TEMP_CFG.HYST
      (hi ≤ temp → s.pwr.hot = 3 → s.on PWR_TEMP_STS.TRIP = false → s.txc.carriers = [] → ∃ t, exec (.tempSample temp) s = .next t ∧
        t.rd PWR_TEMP_STS.TRIP = 1 ∧ counted t PWR_CNT_TRIP.COUNT ∧ flagged t 11 2 ∧ t.pwr.hot = 4 ∧
        ∀ n, n < 8 → bitOn (t.rd (TXC_CH_FAULT.CAUSE n)) 2 = true) ∧
      (hi ≤ temp → s.pwr.hot < 3 ∨ s.on PWR_TEMP_STS.TRIP = true → ∃ t, exec (.tempSample temp) s = .next t ∧
        t.pwr = { s.pwr with hot := min 4 (s.pwr.hot + 1), cool := 0 } ∧
        sets { s with pwr := t.pwr } t PWR_TEMP_STS.TEMP (temp % 65536).toNat) ∧
      (temp < lo → ¬hi ≤ temp → s.pwr.cool = 3 → s.on PWR_TEMP_STS.TRIP = true → ∃ t, exec (.tempSample temp) s = .next t ∧
        t.rd PWR_TEMP_STS.TRIP = 0 ∧ flagged t 11 3 ∧ t.rd PWR_TEMP_STS.TEMP = (temp % 65536).toNat ∧
        raisedOnly { s with pwr := { s.pwr with hot := 0, cool := 4 } } t [PWR_TEMP_STS.reg, PWR_EVT_STS.reg]) ∧
      (temp < lo → ¬hi ≤ temp → s.pwr.cool < 3 ∨ s.on PWR_TEMP_STS.TRIP = false → ∃ t, exec (.tempSample temp) s = .next t ∧
        t.pwr = { s.pwr with hot := 0, cool := min 4 (s.pwr.cool + 1) } ∧ sets { s with pwr := t.pwr } t PWR_TEMP_STS.TEMP (temp % 65536).toNat) ∧
      (¬temp < lo → ¬hi ≤ temp → ∃ t, exec (.tempSample temp) s = .next t ∧ t.pwr = { s.pwr with hot := 0, cool := 0 } ∧
        sets { s with pwr := t.pwr } t PWR_TEMP_STS.TEMP (temp % 65536).toNat)) ∧
    (∀ mv uah, mv < 4096 →
      let rem := if s.pwr.mode = 2 then s.rd PWR_GAUGE_REM.UAH - uah else s.rd PWR_GAUGE_REM.UAH
      ∃ t, exec (.vbakMeasure mv uah) s = .next t ∧ t.rd PWR_VBAK.MV = mv ∧ t.on PWR_VBAK.LOW = decide (mv ≤ s.rd PWR_VBAK_LOW.MV) ∧
        (s.on PWR_GAUGE_REM.UNKNOWN = true → t.rd PWR_GAUGE_REM.UAH = rem) ∧
        (s.on PWR_VBAK.LOW = false → mv ≤ s.rd PWR_VBAK_LOW.MV → t.rd RTC_STS.UNTRUSTED = 1 ∧ flagged t 11 6) ∧
        (s.on PWR_GAUGE_REM.UNKNOWN = false → s.on PWR_VBAK.LOW = false → mv ≤ s.rd PWR_VBAK_LOW.MV → rem ≠ 0 →
          t.rd PWR_GAUGE_REM.MISMATCH = 1 ∧ t.on PWR_GAUGE_REM.UNKNOWN = true ∧ t.rd PWR_GAUGE_REM.UAH = 0 ∧ flagged t 11 5)) ∧
    (reaches s f PWR_GAUGE_CAL.reg → ∃ t, exec (.recal f) s = .next t ∧ t.rd PWR_GAUGE_REM.UAH = s.rd PWR_GAUGE_CAP.UAH ∧
      t.on PWR_GAUGE_REM.UNKNOWN = false ∧ onlyRegs s t [PWR_GAUGE_REM.reg])

/-- The synthesiser, the aligner, grove pulses and the bridge (R379-R389). -/
def Obligations.SynthesiserAlignerAndBridge : Prop :=
  ∀ (f : Fn) (s : State), s.inv = true →
    (reaches s f CLK_SYN_CTRL.reg →
      (s.on CLK_CTRL.LOCK = true ∨ s.on CLK_SYN_CTRL.EN = true → exec (.synEnable f) s = .next s) ∧
      (s.on CLK_CTRL.LOCK = false → s.on CLK_SYN_CTRL.EN = false → ∃ t, exec (.synEnable f) s = .next t ∧ t.clk = { s.clk with acq := true } ∧
        sets { s with clk := t.clk } t CLK_SYN_CTRL.EN 1)) ∧
    (∀ band us, band < 64 →
      (s.clk.acq = false → exec (.synLock band us) s = .next s) ∧
      (s.clk.acq = true → ∃ t, exec (.synLock band us) s = .next t ∧ t.on CLK_STS.SYN_LOCK = true ∧ t.rd CLK_SYN_STS.BAND = band ∧
        t.rd CLK_SYN_STS.LOCK_US = min us 65535 ∧ t.rd CLK_BAND_STORE.BAND = band ∧ t.rd CLK_BAND_STORE.TEMP = s.rd PWR_TEMP_STS.TEMP ∧
        t.on CLK_BAND_STORE.VALID = true ∧ t.on CLK_SYN_STS.STORED = (bandUsable s && s.rd CLK_BAND_STORE.BAND == band && decide (us ≤ 300)) ∧
        flagged t 10 0 ∧ t.clk = { s.clk with acq := false, released := s.rd CLK_ALN_CFG.SRC == 2 } ∧
        raisedOnly { s with clk := t.clk } t [CLK_STS.reg, CLK_SYN_STS.reg, CLK_BAND_STORE.reg, CLK_EVT_STS.reg])) ∧
    (let free := fun (i : Instr) (v b : Nat) => ∃ t, exec i s = .next t ∧ t.rd CLK_STS.FREE_RUN = v ∧ flagged t 10 b ∧
        raisedOnly s t [CLK_STS.reg, CLK_EVT_STS.reg]
     (s.on CLK_STS.SYN_LOCK = true → s.on CLK_STS.FREE_RUN = false → free .refLoss 1 2) ∧
     (s.on CLK_STS.SYN_LOCK = false ∨ s.on CLK_STS.FREE_RUN = true → exec .refLoss s = .next s) ∧
     (s.on CLK_STS.FREE_RUN = true → free .refBack 0 3) ∧ (s.on CLK_STS.FREE_RUN = false → exec .refBack s = .next s)) ∧
    (s.on CLK_STS.SYN_LOCK = true → s.clk.released = false →
      exec .alignerRelease s = .next { s with clk := { s.clk with released := true, phase := s.rd CLK_ALN_CFG.SYNC_DLY } } ∧
      (s.rd CLK_ALN_CFG.SRC = 1 → s.on CLK_STS.SYNC_MISSING = false → ∃ t, exec .syncMissing s = .next t ∧ t.on CLK_STS.SYNC_MISSING = true ∧
        flagged t 10 6 ∧ raisedOnly s t [CLK_STS.reg, CLK_EVT_STS.reg])) ∧
    (s.on CLK_STS.SYN_LOCK = false ∨ s.clk.released = true → exec .alignerRelease s = .next s ∧ exec .syncMissing s = .next s) ∧
    (s.clk.released = true → s.on CLK_STS.ALN_LOCK = false → ∃ t, exec .alnLock s = .next t ∧ t.on CLK_STS.ALN_LOCK = true ∧ t.rd FLC_CFG.WS = 3 ∧
      flagged t 10 4 ∧ t.clk = { s.clk with tb := true, pulses := 0, expect := none, syncout := 0 } ∧
      raisedOnly { s with clk := t.clk } t [CLK_STS.reg, FLC_CFG.reg, CLK_EVT_STS.reg]) ∧
    (s.clk.released = false ∨ s.on CLK_STS.ALN_LOCK = true → exec .alnLock s = .next s) ∧
    (let slips := fun (u t : State) => t.on CLK_STS.SLIP = true ∧ t.rd CLK_CNT_SLIP.COUNT = min 0xFFFFFFFF (s.rd CLK_CNT_SLIP.COUNT + 1) ∧
        flagged t 10 5 ∧ t.clk = { u.clk with pulses := 0, expect := none }
     let measured : Prop := s.on CLK_STS.ALN_LOCK = true ∧ s.rd CLK_ALN_CFG.SRC = 1
     (∀ at_ ph, ph < 192 →
       let u := s.at_ at_
       let x := 192 * u.atb + ph
       let next := some (x + 192 * s.rd CLK_SYNC_PERIOD.TICKS)
       let caught := fun (t : State) => t.rd64 CLK_SYNC_CAP_LO.reg = u.atb % 2 ^ 64 ∧ t.rd CLK_SYNC_CAP_PH.PHASE = ph ∧
         t.rd CLK_SYNC_CNT.COUNT = (s.rd CLK_SYNC_CNT.COUNT + 1) % 2 ^ 32
       (measured → s.rd CLK_SYNCOUT_CFG.MODE = 0 →
         (u.clk.expect = none → ∃ t, exec (.syncinEdge at_ ph) s = .next t ∧ caught t ∧ t.clk = { u.clk with expect := next } ∧
           onlyRegs { u with clk := t.clk } t [CLK_SYNC_CAP_LO.reg, CLK_SYNC_CAP_LO.reg + 4, CLK_SYNC_CAP_PH.reg, CLK_SYNC_CNT.reg]) ∧
         (∀ e, u.clk.expect = some e → ((x : Int) - e).natAbs ≤ s.rd CLK_SYNC_TOL.TOL → ∃ t, exec (.syncinEdge at_ ph) s = .next t ∧ caught t ∧
           t.rd CLK_ALN_STS.ERR = unsgn 9 (clampInt (-255) 255 ((x : Int) - e)) ∧ t.clk.expect = next ∧ t.clk.pulses = u.clk.pulses + 1 ∧
           (s.on CLK_ALN_CFG.TRACK = false → t.clk = { u.clk with expect := next, pulses := u.clk.pulses + 1 })) ∧
         (∀ e, u.clk.expect = some e → s.rd CLK_SYNC_TOL.TOL < ((x : Int) - e).natAbs → ∃ t, exec (.syncinEdge at_ ph) s = .next t ∧ caught t ∧ slips u t)) ∧
       (¬measured ∧ (s.rd CLK_SYNCOUT_CFG.MODE ≠ 2 ∨ s.clk.tb = false) ∨ s.rd CLK_SYNCOUT_CFG.MODE = 1 → exec (.syncinEdge at_ ph) s = .next u) ∧
       (measured → s.rd CLK_SYNCOUT_CFG.MODE = 2 → s.clk.tb = true → u.clk.expect = none → ∃ t, exec (.syncinEdge at_ ph) s = .next t ∧ caught t ∧
         t.posted = u.posted ++ [Posted.syncout (u.atb + 1)] ∧ t.clk = { u.clk with expect := next }) ∧
       (¬measured → s.rd CLK_SYNCOUT_CFG.MODE = 2 → s.clk.tb = true → exec (.syncinEdge at_ ph) s = .next (u.post (.syncout (u.atb + 1))))) ∧
     (∀ e, s.clk.expect = some e → measured → ∃ t, exec .syncSlip s = .next t ∧ slips (s.at_ ((e + s.rd CLK_SYNC_TOL.TOL) / 192 + 1)) t) ∧
     (s.clk.expect = none ∨ ¬measured → exec .syncSlip s = .next s)) ∧
    (s.rd CLK_SYNCOUT_CFG.MODE = 1 → s.atbRuns = true → s.rd CLK_SYNCOUT_OFS.TICKS < s.rd CLK_SYNCOUT_PERIOD.TICKS →
      let from_ := match s.clk.lastOut with | some l => max s.atb (l + 1) | none => s.atb
      ∃ t n, exec .syncoutPulse s = .next t ∧ from_ ≤ n ∧ n % s.rd CLK_SYNCOUT_PERIOD.TICKS = s.rd CLK_SYNCOUT_OFS.TICKS ∧
        (∀ m, from_ ≤ m → m < n → m % s.rd CLK_SYNCOUT_PERIOD.TICKS ≠ s.rd CLK_SYNCOUT_OFS.TICKS) ∧ t.atb = n ∧ t.clk.lastOut = some n ∧
        t.posted = s.posted ++ [Posted.syncout n] ∧ t.rd64 CLK_SYNC_CAP_LO.reg = n % 2 ^ 64 ∧ t.clk.syncout = s.clk.syncout + 1) ∧
    (s.rd CLK_SYNCOUT_CFG.MODE ≠ 1 ∨ s.atbRuns = false → exec .syncoutPulse s = .next s) ∧
    (∀ n en, n < 4 → reaches s f (0x10080 + 16 * n) → ∃ t, exec (.clkoutEnable f n en) s = .next t ∧ sets s t (clkoutEn n) (if en then 1 else 0)) ∧
    (s.clk.stopA = none ∨ s.on CLK_STS.ALN_LOCK = false → exec .atbBridge s = .next s) ∧
    (∀ a, s.clk.stopA = some a → s.on CLK_STS.ALN_LOCK = true →
      let bridged := fun (t : State) (n : Nat) => t.atb = a + n ∧ t.on CLK_ATB_STS.BRIDGED = true ∧ t.rd64 CLK_ATB_BRIDGE_LO.reg = n % 2 ^ 64 ∧
        t.clk.stopA = none ∧ t.clk.stopK = none ∧ flagged t 10 7 ∧
        ∀ k, k < 64 → s.on (LNK_CMP_CTRL.ARMED k) = true → s.rd64 (LNK_CMP_LO.reg k) ≤ a + n →
          t.on (LNK_CMP_CTRL.FIRED k) = true ∧ t.on (LNK_CMP_CTRL.LATE k) = true ∧ t.on (LNK_CMP_CTRL.ARMED k) = false
      (s.clk.stopK = none ∨ s.clk.xkLost = true → ∃ t, exec .atbBridge s = .next t ∧ bridged t 1 ∧ t.on CLK_ATB_STS.UNTRUSTED = true ∧
        t.rd CLK_ATB_UNC.TICKS = 0xFFFFFFFF) ∧
      (∀ k, s.clk.stopK = some k → s.clk.xkLost = false → s.clk.xkOk = true → s.clk.xkPhase < 15625 →
        ∃ t, exec .atbBridge s = .next t ∧ bridged t ((2 * 15625 * (s.clk.xk + 1 - k) + 16) / 32) ∧ t.clk.xk = s.clk.xk + 1))

/-- The real-time clock and the general timers (R390-R399). -/
def Obligations.RealTimeClockAndTimers : Prop :=
  ∀ (f : Fn) (s : State), s.inv = true →
    let secPulse := if s.on RTC_SEC_EVT.EN then [s.rd RTC_SEC_EVT.CH] else []
    (s.on RTC_CTRL.HALT = true ∨ s.clk.xkOk = false → exec .rtcSecond s = .next s) ∧
    (s.on RTC_CTRL.HALT = false → s.clk.xkOk = true →
      (s.rtc.extra ≠ 0 → ∃ t, exec .rtcSecond s = .next t ∧ rtcSeconds t = (rtcSeconds s + 1) % 2 ^ 48 ∧
        t.rd RTC_SUBSEC.COUNT = min 32767 (s.rtc.extra - 1) ∧ t.evr.pulses = s.evr.pulses ++ secPulse ∧
        onlyRegs { s with rtc := t.rtc, evr := t.evr } t [RTC_SUBSEC.reg, RTC_SEC_LO.reg, RTC_SEC_HI.reg]) ∧
      (s.rtc.extra = 0 → s.clk.xkPhase < 15625 → s.rtc.cal + 32768 + s.rtc.skip < 2 ^ 20 → ∃ t, exec .rtcSecond s = .next t ∧
        rtcSeconds t = (rtcSeconds s + 1) % 2 ^ 48 ∧ t.rd RTC_SUBSEC.COUNT = 0 ∧ t.evr.pulses = s.evr.pulses ++ secPulse ∧
        t.clk.xk = s.clk.xk + (32768 + s.rtc.skip - s.rd RTC_SUBSEC.COUNT))) ∧
    (∃ t, exec .xkFail s = .next t ∧ t.on RTC_STS.XK_FAIL = true ∧ t.on RTC_STS.UNTRUSTED = true ∧
      t.clk = { s.clk with xkOk := false, xkLost := s.clk.stopA.isSome || s.clk.xkLost } ∧ onlyRegs { s with clk := t.clk } t [RTC_STS.reg]) ∧
    (∃ t, exec .xkEdgesReturn s = .next t ∧ t.clk = { s.clk with xkOk := true } ∧ sets { s with clk := t.clk } t RTC_STS.XK_FAIL 0) ∧
    (∀ r, r < 3 → reaches s f (RTC_SUBSEC.reg + 4 * r) →
      let regs := [s.rd RTC_SUBSEC.COUNT, s.rd RTC_SEC_LO.SEC, s.rd RTC_SEC_HI.SEC]
      let held := [s.rtc.shadow.1, s.rtc.shadow.2.1, s.rtc.shadow.2.2]
      ∃ t, exec (.rtcFreeze f r) s = .next t ∧ t.on RTC_STS.FROZEN = decide (r ≠ 2) ∧
        t.posted = s.posted ++ [Posted.readData (BitVec.ofNat 32 (if s.on RTC_STS.FROZEN then held.getD r 0 else regs.getD r 0))] ∧
        (s.on RTC_STS.FROZEN = false → t.rtc = { s.rtc with shadow := (s.rd RTC_SUBSEC.COUNT, s.rd RTC_SEC_LO.SEC, s.rd RTC_SEC_HI.SEC), frozenAt := s.now }) ∧
        onlyRegs { s with rtc := t.rtc, posted := t.posted } t [RTC_STS.reg]) ∧
    (s.on RTC_STS.FROZEN = true → ∃ t, exec .freezeTimeout s = .next t ∧ t.on RTC_STS.FROZEN = false ∧ t.on RTC_STS.STALE = true ∧
      t.now = max s.now (s.rtc.frozenAt + 64000000)) ∧
    (s.on RTC_STS.FROZEN = false → exec .freezeTimeout s = .next s) ∧
    (∀ h, reaches s f RTC_CTRL.reg → ∃ t, exec (.rtcHaltWrite f h) s = .next t ∧ t.on RTC_CTRL.HALT = h ∧ t.on RTC_STS.FROZEN = false ∧
      onlyRegs s t [RTC_CTRL.reg, RTC_STS.reg]) ∧
    (∀ hi, reaches s f RTC_SEC_HI.reg →
      let v := (sget (fun a => s.reg a) s.heldLo RTC_SEC_LO.reg).toNat + 2 ^ 32 * (hi % 65536)
      ∃ t, exec (.secondsWrite f hi) s = .next t ∧ rtcSeconds t = v ∧ t.rd RTC_SUBSEC.COUNT = 0 ∧ t.on RTC_STS.FROZEN = false ∧
        t.on RTC_STS.UNTRUSTED = (s.on RTC_STS.UNTRUSTED && (s.on PWR_VBAK.LOW || s.on RTC_STS.XK_FAIL)) ∧
        onlyRegs ({ s with rtc := { s.rtc with extra := 0 } }.dropHeld RTC_SEC_LO.reg) t [RTC_SUBSEC.reg, RTC_SEC_LO.reg, RTC_SEC_HI.reg, RTC_STS.reg]) ∧
    (s.on PWR_WAKE_EN.RTC = false →
      let fired := fun (t : State) (late : Bool) => t.on RTC_ALARM_CTRL.FIRED = true ∧ t.on RTC_ALARM_CTRL.ARMED = false ∧ t.on RTC_ALARM_CTRL.LATE = late ∧
        t.evr = { s.evr with pulses := s.evr.pulses ++ if s.on RTC_ALARM_CTRL.EVT_EN then [s.rd RTC_ALARM_CTRL.EVT_CH] else [] }
      (∀ hi, reaches s f RTC_ALARM_HI.reg →
        let v := (sget (fun a => s.reg a) s.heldLo RTC_ALARM_LO.reg).toNat + 2 ^ 32 * (hi % 65536)
        ∃ t, exec (.rtcAlarmArm f hi) s = .next t ∧ t.rd RTC_ALARM_LO.SEC + 2 ^ 32 * t.rd RTC_ALARM_HI.SEC = v ∧
          (v ≤ rtcSeconds s → fired t true) ∧
          (rtcSeconds s < v → t.on RTC_ALARM_CTRL.ARMED = true ∧ t.on RTC_ALARM_CTRL.LATE = false ∧ t.evr = s.evr) ∧
          onlyRegs ({ s with evr := t.evr }.dropHeld RTC_ALARM_LO.reg) t [RTC_ALARM_LO.reg, RTC_ALARM_HI.reg, RTC_ALARM_CTRL.reg, RTC_STS.reg]) ∧
      (s.on RTC_ALARM_CTRL.ARMED = true → s.rd RTC_ALARM_LO.SEC + 2 ^ 32 * s.rd RTC_ALARM_HI.SEC ≤ rtcSeconds s →
        ∃ t, exec .rtcAlarmFire s = .next t ∧ fired t false ∧ onlyRegs { s with evr := t.evr } t [RTC_ALARM_CTRL.reg])) ∧
    (s.on PWR_WAKE_EN.RTC = true → s.pwr.mode = 1 → s.pwr.wakeFired = false → s.on RTC_ALARM_CTRL.ARMED = true →
      s.rd RTC_ALARM_LO.SEC + 2 ^ 32 * s.rd RTC_ALARM_HI.SEC ≤ rtcSeconds s → ∃ t, exec .rtcAlarmFire s = .next t ∧ t.on RTC_ALARM_CTRL.FIRED = true ∧
        t.rd PWR_WAKE_STS.SRC = 2 ∧ t.pwr = { s.pwr with wakeFired := true, wakeAt := s.now, pwrEn := true }) ∧
    (s.on RTC_ALARM_CTRL.ARMED = false ∨ rtcSeconds s < s.rd RTC_ALARM_LO.SEC + 2 ^ 32 * s.rd RTC_ALARM_HI.SEC → exec .rtcAlarmFire s = .next s) ∧
    (reaches s f RTC_ALARM_CTRL.reg → ∃ t, exec (.rtcDisarm f) s = .next t ∧ t.on RTC_ALARM_CTRL.ARMED = false ∧ t.evr = s.evr ∧
      onlyRegs s t [RTC_ALARM_CTRL.reg, RTC_STS.reg]) ∧
    (∀ k, k < 32 →
      let alone : Prop := s.pwr.mode = 0 ∧ timSource s k = true ∧ (∀ j, j < 32 → (s.on (TIM_CTRL.EN j) = true ↔ j = k)) ∧
        (s.tmr k).res < 2 ^ s.rd (TIM_CFG.PRE k) ∧ s.clk.xkPhase < 15625
      let wrapped := fun (t : State) => t.on (TIM_STATUS.WRAP k) = true ∧ t.on (TIM_STATUS.PEND k) = false ∧
        t.on (TIM_CTRL.EN k) = !s.on (TIM_CTRL.ONESHOT k) ∧ (s.on (TIM_CTRL.ONESHOT k) = true → t.rd (TIM_CNT.COUNT k) = 0) ∧
        (s.on (TIM_EVT.WRAP_EN k) = true → s.rd (TIM_EVT.WRAP_CH k) ∈ t.evr.pulses)
      (s.on (TIM_CTRL.EN k) = true → 0 < (s.tmr k).extra → ∃ t, exec (.timerWrap k) s = .next t ∧ wrapped t ∧
        (s.on (TIM_CTRL.ONESHOT k) = false → t.rd (TIM_CNT.COUNT k) = min ((s.tmr k).extra - 1) (s.rd (TIM_TOP.TOP k)))) ∧
      (alone → (s.tmr k).extra = 0 → s.rd (TIM_CNT.COUNT k) ≤ timTop s k → ∃ t, exec (.timerWrap k) s = .next t ∧ wrapped t) ∧
      (s.on (TIM_CTRL.EN k) = false → exec (.timerWrap k) s = .next s) ∧
      (alone → ∀ x, x < 2 → s.rd (TIM_CNT.COUNT k) < timCmp s k x → timCmp s k x ≤ timTop s k → ∃ t, exec (.timerCompare k x) s = .next t ∧
        t.on (if x = 0 then TIM_STATUS.CMP0 k else TIM_STATUS.CMP1 k) = true ∧ timCmp s k x ≤ t.rd (TIM_CNT.COUNT k) ∧
        (s.rd (TIM_CFG.SRC k) = 1 → t.rd (TIM_CNT.COUNT k) = timCmp s k x) ∧
        t.evr.pulses = s.evr.pulses ++ if x = 0 then (if s.on (TIM_EVT.CMP0_EN k) then [s.rd (TIM_EVT.CMP0_CH k)] else [])
          else if s.on (TIM_EVT.CMP1_EN k) then [s.rd (TIM_EVT.CMP1_CH k)] else []) ∧
      (∀ x, x < 2 → s.on (TIM_CTRL.EN k) = false ∨ timTop s k < timCmp s k x → exec (.timerCompare k x) s = .next s) ∧
      (∀ v r, r < 3 → reaches s f (TIM_TOP.reg k + 4 * r) →
        let fld := if r = 0 then TIM_TOP.TOP k else if r = 1 then TIM_CMP0.CMP k else TIM_CMP1.CMP k
        let inForce := fun (u : State) => (timTop u k, timCmp u k 0, timCmp u k 1)
        (s.on (TIM_CTRL.EN k) = false → ∃ t, exec (.preloadWrite f k r v) s = .next t ∧ sets s t fld v.toNat) ∧
        (s.on (TIM_CTRL.EN k) = true → ∃ t, exec (.preloadWrite f k r v) s = .next t ∧ t.rd fld = v.toNat ∧ inForce t = inForce s ∧
          t.on (TIM_STATUS.PEND k) = true ∧ onlyRegs { s with tims := t.tims } t [fld.addr, TIM_STATUS.reg k])) ∧
      (reaches s f (TIM_CTRL.reg k) → ∃ t, exec (.clr f k) s = .next t ∧ sets { s with tims := t.tims } t (TIM_CNT.COUNT k) 0)) ∧
    (∀ v : Word, (reaches s f TIM_START.reg → ∃ t, exec (.timStart f v) s = .next t ∧
        (∀ k, k < 32 → t.on (TIM_CTRL.EN k) = (s.on (TIM_CTRL.EN k) || v.getLsbD k)) ∧ onlyRegs s t ((List.range 32).map TIM_CTRL.reg)) ∧
      (reaches s f TIM_STOP.reg → ∃ t, exec (.timStop f v) s = .next t ∧
        (∀ k, k < 32 → t.on (TIM_CTRL.EN k) = (s.on (TIM_CTRL.EN k) && !v.getLsbD k)) ∧ onlyRegs s t ((List.range 32).map TIM_CTRL.reg)))

/-- The event router, the pins, the two-wire buses and the antenna bias gates (R403-R418). -/
def Obligations.EventsBusesAndBiasGatesAct : Prop :=
  ∀ (f : Fn) (s : State), s.inv = true →
    let counted := fun (t : State) (r : RegFld) => t.rd r = min (2 ^ r.w - 1) (s.rd r + 1)
    (∀ ch ph, ch < 128 → ph < 192 →
      let x := 192 * s.now + ph + 1
      let last := sget (fun _ => 0) s.evr.last ch
      let gone := { s with evr := { s.evr with pulses := s.evr.pulses.erase ch } }
      (ch ∉ s.evr.pulses → exec (.eventPulse ch ph) s = .next s) ∧
      (ch ∈ s.evr.pulses → s.on (EVR_CH_CFG.EN ch) = false → exec (.eventPulse ch ph) s = .next gone) ∧
      (ch ∈ s.evr.pulses → s.on (EVR_CH_CFG.EN ch) = true → last ≠ 0 → x ≤ last + 122 → ∃ t, exec (.eventPulse ch ph) s = .next t ∧
        t.rd ⟨EVR_MERGE.reg (ch / 32), ch % 32, 1⟩ = 1 ∧ flagged t 18 1 ∧ raisedOnly s t [EVR_MERGE.reg (ch / 32), EVR_EVT_STS.reg]) ∧
      (ch ∈ s.evr.pulses → s.on (EVR_CH_CFG.EN ch) = true → last = 0 ∨ last + 122 < x →
        s.rd PWR_STS.STATE = 2 → s.on PWR_WAKE_EN.EVT = true → s.rd PWR_WAKE_EN.EVT_CH = ch → ∃ t, exec (.eventPulse ch ph) s = .next t ∧
        counted t (EVR_CH_CNT.COUNT ch) ∧ (s.pwr.mode = 0 → t.rd PWR_STS.STATE = 0 ∧ t.rd PWR_WAKE_STS.SRC = 3 ∧ flagged t 11 0)) ∧
      (ch ∈ s.evr.pulses → s.on (EVR_CH_CFG.EN ch) = true → last = 0 ∨ last + 122 < x →
        s.rd PWR_STS.STATE ≠ 2 ∨ s.on PWR_WAKE_EN.EVT = false ∨ s.rd PWR_WAKE_EN.EVT_CH ≠ ch → ∃ t, exec (.eventPulse ch ph) s = .next t ∧
        counted t (EVR_CH_CNT.COUNT ch) ∧ t.rd ⟨EVR_WATCH.reg (ch / 32), ch % 32, 1⟩ = 1 ∧
        (bitOn (s.rd (EVR_WATCH_EN.EN (ch / 32))) (ch % 32) = true → flagged t 18 0) ∧
        (s.rd CNP_CAP_STS.STATE = 2 → s.rd CNP_CAP_CFG.TRIG = 3 → s.rd CNP_CAP_EVT.CHANNEL = ch → t.cnp = { s.cnp with capPulse := some (s.cnp.capPulse.getD s.atb) }) ∧
        (∀ k, k < 32 → s.on (TIM_EVT.CAP_EN k) = true → s.rd (TIM_EVT.CAP_CH k) = ch → t.rd (TIM_CAP.CAP k) = s.rd (TIM_CNT.COUNT k) ∧
          t.rd64 (TIM_CAP_ATB_LO.reg k) = s.atb % 2 ^ 64 ∧ t.on (TIM_STATUS.CAPF k) = true ∧
          t.on (TIM_STATUS.CAP_OVR k) = (s.on (TIM_STATUS.CAPF k) || s.on (TIM_STATUS.CAP_OVR k))) ∧
        (∀ c, bf (s.sys c 0x31) 7 1 = 1 → bf (s.sys c 0x31) 0 7 = ch → bf (t.sys c 0x32) 2 1 = 1) ∧
        (∀ n i, n < 4 → i < 32 → s.on (SUP_IRQ.EN n i) = true → s.rd (SUP_IRQ.CH n i) = ch → bf (t.sys (64 + n) 0x131) i 1 = 1) ∧
        (∀ n, n < 8 → s.on (TXC_CH_CTRL.FEVT_EN n) = true → s.rd (TXC_CH_CTRL.FEVT_CH n) = ch → n ∈ t.txc.faultPulse) ∧
        (∀ p, p < 24 → bitOn (t.rd EVR_GPIO_OUT.VAL) p =
          if s.rd (EVR_GPIO_CFG.OUT_CH p) = ch then
            (match s.rd (EVR_GPIO_CFG.OUT_ACT p) with
              | 1 => true | 2 => false | 3 => !bitOn (s.rd EVR_GPIO_OUT.VAL) p | _ => bitOn (s.rd EVR_GPIO_OUT.VAL) p)
          else bitOn (s.rd EVR_GPIO_OUT.VAL) p)) ∧
      (reaches s f EVR_FIRE.reg → exec (.evrFire f ch) s = .next (s.pulse ch)) ∧
      (∀ v : Word, reaches s f (EVR_CH_CFG.reg ch) → s.locked (EVR_CH_CFG.reg ch) = false →
        (bf v 18 1 = 1 → s.on (PRT_EVG.EN (ch / 8)) = true → exec (.channelCfgWrite f ch v) s = .next s) ∧
        (bf v 18 1 = 0 ∨ s.on (PRT_EVG.EN (ch / 8)) = false → ∃ t, exec (.channelCfgWrite f ch v) s = .next t ∧ t.rd (EVR_CH_CFG.EN ch) = bf v 0 1 ∧
          t.rd (EVR_CH_CFG.SRC ch) = bf v 8 10 ∧ t.rd (EVR_CH_CFG.SRC_EN ch) = bf v 18 1 ∧ onlyRegs s t [EVR_CH_CFG.reg ch]))) ∧
    (∀ p lvl, p < 24 →
      let v := s.rd EVR_GPIO_IN.VAL
      let edge := s.rd (EVR_GPIO_CFG.IN_EDGE p)
      let fired := if edge = 3 ∨ edge = (if lvl then 1 else 2) then [s.rd (EVR_GPIO_CFG.IN_CH p)] else []
      (bitOn (s.rd EVR_GPIO_DIR.OUT) p = true ∨ bitOn v p = lvl → exec (.gpioEdge p lvl) s = .next s) ∧
      (bitOn (s.rd EVR_GPIO_DIR.OUT) p = false → bitOn v p = !lvl → ∃ t, exec (.gpioEdge p lvl) s = .next t ∧
        (∀ q, q < 24 → bitOn (t.rd EVR_GPIO_IN.VAL) q = if q = p then lvl else bitOn v q) ∧
        t.evr = { s.evr with pulses := s.evr.pulses ++ fired } ∧ onlyRegs { s with evr := t.evr } t [EVR_GPIO_IN.reg])) ∧
    (∀ v : Word,
      (reaches s f EVR_GPIO_SET.reg → ∃ t, exec (.gpioSet f v) s = .next t ∧ onlyRegs s t [EVR_GPIO_OUT.reg] ∧
        ∀ p, p < 24 → bitOn (t.rd EVR_GPIO_OUT.VAL) p = (bitOn (s.rd EVR_GPIO_OUT.VAL) p || bitOn v.toNat p)) ∧
      (reaches s f EVR_GPIO_CLR.reg → ∃ t, exec (.gpioClr f v) s = .next t ∧ onlyRegs s t [EVR_GPIO_OUT.reg] ∧
        ∀ p, p < 24 → bitOn (t.rd EVR_GPIO_OUT.VAL) p = (bitOn (s.rd EVR_GPIO_OUT.VAL) p && !bitOn v.toNat p)) ∧
      (reaches s f TWB_CMD.reg →
        (s.on TWB_CMD.BUSY = true ∨ s.on TWB_STS.STUCK = true → exec (.start f v) s = .next s) ∧
        (s.on TWB_CMD.BUSY = false → s.on TWB_STS.STUCK = false → s.on TWB_CTRL.EN = false →
          exec (.start f v) s = .next (s.regWrite TWB_CMD.reg v)) ∧
        (s.on TWB_CMD.BUSY = false → s.on TWB_STS.STUCK = false → s.on TWB_CTRL.EN = true → bf v 8 6 ≤ 32 → bf v 16 6 ≤ 32 →
          ∃ t, exec (.start f v) s = .next t ∧ t.on TWB_CMD.BUSY = true ∧ counted t TWB_CNT_OP.COUNT ∧ t.rd TWB_CMD.ADDR = bf v 0 7 ∧
            t.rd TWB_CMD.WLEN = bf v 8 6 ∧ t.rd TWB_CMD.RLEN = bf v 16 6 ∧ t.rd TWB_CMD.RETRY = bf v 24 3 ∧
            onlyRegs s t [TWB_CMD.reg, TWB_CNT_OP.reg]))) ∧
    (∀ addr,
      let mine : Prop := s.on TWA_CTRL.EN = true ∧ s.rd TWA_CFG.ADDR = addr ∧ s.pwr.mode = 0
      let p := s.rd TWA_STS.PTR
      let after := fun (q : Nat) => q / 4096 * 4096 + (q + 1) % 4096
      (¬mine → (∀ d, exec (.twaWrite addr d) s = .next (s.post .twaNack)) ∧ ∀ n r, exec (.twaRead addr n r) s = .next (s.post .twaNack)) ∧
      (mine → ∀ d, d.length < 2 → ∃ t, exec (.twaWrite addr d) s = .next t ∧ counted t TWA_CNT_XFER.COUNT ∧ onlyRegs s t [TWA_CNT_XFER.reg]) ∧
      (mine → ∀ n, ∃ (t : State) (bs : List Byte), exec (.twaRead addr n true) s = .next t ∧ t.rd TWA_STS.PTR = p / 4096 * 4096 + (p + n) % 4096 ∧ bs.length = n ∧
        t.posted = s.posted ++ bs.map Posted.twaByte ∧ counted t TWA_CNT_XFER.COUNT ∧
        onlyRegs { s with two := t.two, posted := t.posted } t [TWA_STS.reg, TWA_CNT_XFER.reg]) ∧
      (mine → ∀ hi lo b0 b1 b2 b3 : Byte,
        let q := 256 * hi.toNat + lo.toNat
        (∃ t, exec (.twaWrite addr [hi, lo]) s = .next t ∧ t.rd TWA_STS.PTR = q ∧ counted t TWA_CNT_XFER.COUNT ∧ t.two.capture = some (q / 4, twaWord s q) ∧
          onlyRegs { s with two := t.two } t [TWA_STS.reg, TWA_CNT_XFER.reg]) ∧
        (q / 4096 = 2 → q % 4 = 0 → q % 4096 < 1024 → ∃ t, exec (.twaWrite addr [hi, lo, b0, b1, b2, b3]) s = .next t ∧
          (t.reg (TWA_MBOX.reg (q % 4096 / 4))).toNat = b0.toNat + 256 * b1.toNat + 65536 * b2.toNat + 16777216 * b3.toNat ∧
          t.rd TWA_STS.PTR = q + 4 ∧ counted t TWA_CNT_XFER.COUNT ∧ flagged t 15 3 ∧
          raisedOnly { s with two := t.two, free := t.free } t [TWA_MBOX.reg (q % 4096 / 4), TWA_STS.reg, TWA_CNT_XFER.reg, TWA_EVT_STS.reg]) ∧
        (q / 4096 = 2 → q % 4 ≠ 3 → ∃ t, exec (.twaWrite addr [hi, lo, b0]) s = .next t ∧ t.rd TWA_STS.PTR = after q ∧ counted t TWA_CNT_PARTIAL.COUNT ∧
          flagged t 15 2 ∧ raisedOnly { s with two := t.two } t [TWA_STS.reg, TWA_CNT_XFER.reg, TWA_CNT_PARTIAL.reg, TWA_EVT_STS.reg]) ∧
        (q / 4096 ≠ 1 → q / 4096 ≠ 2 → ∃ t, exec (.twaWrite addr [hi, lo, b0]) s = .next t ∧ t.rd TWA_STS.PTR = q ∧
          t.posted = s.posted ++ [Posted.twaNack] ∧ ∀ w, w < 256 → t.reg (TWA_MBOX.reg w) = s.reg (TWA_MBOX.reg w))) ∧
      (mine → (∀ n, ∃ t, exec (.twaRead addr n false) s = .next t ∧ counted t TWA_CNT_BUSY_NACK.COUNT ∧ flagged t 15 1 ∧ .twaNack ∈ t.posted ∧
          raisedOnly s t [TWA_CNT_BUSY_NACK.reg, TWA_EVT_STS.reg]) ∧
        ∃ t, exec (.twaRead addr 1 true) s = .next t ∧ t.rd TWA_STS.PTR = after p ∧ counted t TWA_CNT_XFER.COUNT ∧
          onlyRegs { s with two := t.two, posted := t.posted } t [TWA_STS.reg, TWA_CNT_XFER.reg] ∧
          (∀ v, s.two.capture = some (p / 4, v) → t.posted = s.posted ++ [Posted.twaByte (BitVec.ofNat 8 (v.toNat / 256 ^ (p % 4)))]) ∧
          (s.two.capture = none → s.two.ahead = none →
            t.posted = s.posted ++ [Posted.twaByte (BitVec.ofNat 8 ((twaWord s p).toNat / 256 ^ (p % 4)))]))) ∧
    (s.on TWA_CTRL.EN = true → ∃ t, exec .twaTimeout s = .next t ∧ counted t TWA_CNT_TMO.COUNT ∧ flagged t 15 0 ∧
      raisedOnly s t [TWA_CNT_TMO.reg, TWA_EVT_STS.reg]) ∧
    (s.on TWA_CTRL.EN = false → exec .twaTimeout s = .next s) ∧
    (let w := s.rd TWB_CMD.WLEN
     let n := s.rd TWB_CMD.RLEN
     let ended := fun (t : State) (st done tries : Nat) => t.rd TWB_RES.STATUS = st ∧ t.rd TWB_RES.DONE = done % 64 ∧ t.rd TWB_RES.TRIES = tries ∧
       t.on TWB_CMD.BUSY = false ∧ flagged t 16 (if st = 0 then 0 else 1) ∧ (st ≠ 0 → counted t TWB_CNT_ERR.COUNT)
     (s.on TWB_CMD.BUSY = true → w ≤ 32 → n ≤ 32 →
       (∀ r : TwbTarget,
         (s.rd TWB_CMD.RETRY < r.addrNacks → ∃ t, exec (.twbDone r) s = .next t ∧ ended t 1 0 (s.rd TWB_CMD.RETRY + 1) ∧
           raisedOnly s t [TWB_RES.reg, TWB_CMD.reg, TWB_CNT_ERR.reg, TWB_EVT_STS.reg]) ∧
         (r.addrNacks ≤ s.rd TWB_CMD.RETRY → r.arbLost = true → ∃ t, exec (.twbDone r) s = .next t ∧ ended t 5 (min r.accepts w) (r.addrNacks + 1) ∧
           raisedOnly s t [TWB_RES.reg, TWB_CMD.reg, TWB_CNT_ERR.reg, TWB_EVT_STS.reg]) ∧
         (r.addrNacks ≤ s.rd TWB_CMD.RETRY → r.arbLost = false → r.accepts < w → ∃ t, exec (.twbDone r) s = .next t ∧
           ended t 2 r.accepts (r.addrNacks + 1) ∧ .twbBytes (twbTx s r.accepts) ∈ t.posted) ∧
         (r.addrNacks ≤ s.rd TWB_CMD.RETRY → r.arbLost = false → w ≤ r.accepts → ∃ t, exec (.twbDone r) s = .next t ∧
           ended t 0 (w + n) (r.addrNacks + 1) ∧ .twbBytes (twbTx s w) ∈ t.posted ∧
           (∀ k, k < n → t.rd ⟨TWB_RX.reg (k / 4), 8 * (k % 4), 8⟩ = (r.sends.getD k 255).toNat) ∧
           raisedOnly s t (TWB_RES.reg :: TWB_CMD.reg :: TWB_EVT_STS.reg :: (List.range 8).map TWB_RX.reg))) ∧
       (∃ t d k, exec (.stretchTimeout false) s = .next t ∧ ended t 3 d k ∧
         raisedOnly { s with free := t.free } t [TWB_RES.reg, TWB_CMD.reg, TWB_CNT_ERR.reg, TWB_EVT_STS.reg]) ∧
       (∃ t d k, exec (.stretchTimeout true) s = .next t ∧ ended t 4 d k ∧ t.on TWB_STS.STUCK = true ∧ t.on TWB_STS.SCL = false ∧ flagged t 16 2)) ∧
     (s.on TWB_CMD.BUSY = false → (∀ r, exec (.twbDone r) s = .next s) ∧ ∀ low, exec (.stretchTimeout low) s = .next s)) ∧
    (s.on TWB_STS.STUCK = true → ∃ t, exec .busRecovery s = .next t ∧ t.on TWB_STS.STUCK = false ∧ t.on TWB_STS.SCL = true ∧ onlyRegs s t [TWB_STS.reg]) ∧
    (s.on TWB_STS.STUCK = false → exec .busRecovery s = .next s) ∧
    (∀ n, n < 8 →
      let st := s.rd (BIAS_G_STS.STATE n)
      let sts := BIAS_G_STS.reg n
      let noLeave := fun (t : State) => ∀ l ∈ t.pwr.held ++ t.pwr.waiters, l.who ≠ .bias n
      let dirty := fun (t : State) => ∀ b, b < 2 → tainted t n b (s.atb - sliceD s b) (s.atb + sliceClean s b)
      (reaches s f (BIAS_G_CTRL.reg n) →
        (st ≠ 0 → exec (.biasOn f n) s = .next s) ∧
        (st = 0 → ∃ t r, exec (.biasOn f n) s = .next t ∧ t.rd (BIAS_G_STS.STATE n) = 1 ∧
          t.pwr = { s.pwr with waiters := s.pwr.waiters ++ [(⟨.bias n, 0, s.budget 6, r⟩ : Leave)] } ∧
          onlyRegs { s with pwr := t.pwr } t [sts, PWR_CNT_WAITED.reg, (PRT_PCNT.COUNT 0 2).addr]) ∧
        (st = 0 ∨ 3 < st → exec (.biasOff f n) s = .next s) ∧
        (1 ≤ st → st ≤ 3 → ∃ t, exec (.biasOff f n) s = .next t ∧ t.rd (BIAS_G_STS.STATE n) = 0 ∧ noLeave t ∧ (st ≠ 1 → dirty t) ∧
          stepOnly { s.returnLeave (.bias n) with gates := t.gates } t [sts]) ∧
        (st = 4 → s.on (BIAS_G_STS.HOLDOFF n) = false → ∃ t, exec (.biasFaultClr f n) s = .next t ∧ t.rd (BIAS_G_STS.STATE n) = 0 ∧
          t.rd (BIAS_G_STS.CAUSE n) = 0 ∧ onlyRegs s t [sts]) ∧
        (st ≠ 4 ∨ s.on (BIAS_G_STS.HOLDOFF n) = true → exec (.biasFaultClr f n) s = .next s)) ∧
      (∀ l rest, s.pwr.waiters = l :: rest → l.who = .bias n → s.waiterFits l = true → ∃ t, exec .leaveGrant s = .next t ∧ t.rd (BIAS_G_STS.STATE n) = 2 ∧
        ⟨l.who, l.part, l.mw, false⟩ ∈ t.pwr.held ∧ counted t PWR_CNT_GRANT.COUNT ∧
        ∀ b, b < 2 → tainted t n b (s.atb - sliceD s b) (s.atb + 3200 * s.rd (BIAS_G_CFG.RAMP n) + sliceClean s b)) ∧
      (st ≠ 2 → exec (.rampDone n) s = .next s) ∧
      (st = 2 → let u := s.elapse ((s.gate n).rampEnd - s.now)
        ∃ t, exec (.rampDone n) s = .next t ∧ t.rd (BIAS_G_STS.STATE n) = 3 ∧ noLeave t ∧ flagged t 17 2 ∧
          raisedOnly (u.returnLeave (.bias n)) t [sts, BIAS_EVT_STS.reg]) ∧
      (st ≠ 2 → st ≠ 3 → exec (.biasTrip n) s = .next s) ∧
      (st = 2 ∨ st = 3 → ∃ t, exec (.biasTrip n) s = .next t ∧ t.rd (BIAS_G_STS.STATE n) = 4 ∧ t.rd (BIAS_G_STS.CAUSE n) = (if st = 2 then 1 else 2) ∧
        t.on (BIAS_G_STS.HOLDOFF n) = true ∧ counted t (BIAS_G_CNT_TRIP.COUNT n) ∧ flagged t 17 0 ∧ noLeave t ∧ dirty t ∧
        stepOnly { s.returnLeave (.bias n) with gates := t.gates } t [sts, (BIAS_G_CNT_TRIP.COUNT n).addr, BIAS_EVT_STS.reg]) ∧
      (∀ ma, ma < 4096 →
        (st ≠ 3 → exec (.biasCurrentSample n ma) s = .next s) ∧
        (st = 3 → ∃ t, exec (.biasCurrentSample n ma) s = .next t ∧ t.rd (BIAS_G_CUR.MA n) = ma ∧
          (ma < s.rd (BIAS_G_LIM.OPEN_MA n) → (s.gate n).low = 99 → t.on (BIAS_G_STS.OPEN n) = true ∧ (s.on (BIAS_G_STS.OPEN n) = false → flagged t 17 1)) ∧
          (s.rd (BIAS_G_LIM.OPEN_MA n) ≤ ma → 99 ≤ (s.gate n).high → t.on (BIAS_G_STS.OPEN n) = false) ∧
          (ma < s.rd (BIAS_G_LIM.OPEN_MA n) → (s.gate n).low ≠ 99 → t.on (BIAS_G_STS.OPEN n) = s.on (BIAS_G_STS.OPEN n)) ∧
          (s.rd (BIAS_G_LIM.OPEN_MA n) ≤ ma → (s.gate n).high < 99 → t.on (BIAS_G_STS.OPEN n) = s.on (BIAS_G_STS.OPEN n)) ∧
          raisedOnly { s with gates := t.gates } t [BIAS_G_CUR.reg n, sts, BIAS_EVT_STS.reg])) ∧
      (s.on (BIAS_G_STS.HOLDOFF n) = false → exec (.holdoffEnd n) s = .next s) ∧
      (let k := (s.gate n).tripXk + 3277 - s.clk.xk
       (s.clk.xkOk = false → 0 < k → exec (.holdoffEnd n) s = .next s) ∧
       (s.on (BIAS_G_STS.HOLDOFF n) = true → k = 0 → ∃ t, exec (.holdoffEnd n) s = .next t ∧ sets s t (BIAS_G_STS.HOLDOFF n) 0) ∧
       (s.on (BIAS_G_STS.HOLDOFF n) = true → s.clk.xkOk = true → s.clk.xkPhase < 15625 → ∃ t, exec (.holdoffEnd n) s = .next t ∧
         sets (elapseXk k s) t (BIAS_G_STS.HOLDOFF n) 0)))

/-- Resets and the start (R30-R34, R325-R331, R368, R381, R427-R429, R438). -/
def Obligations.ResetsAndTheStart : Prop :=
  ∀ (f : Fn) (s : State), s.inv = true →
    let counted := fun (t : State) (r : RegFld) => t.rd r = min (2 ^ r.w - 1) (s.rd r + 1)
    let idle : Prop := s.flc.ldg = none ∧ s.flc.graft = none ∧ s.flc.fuse = none ∧ s.flc.op = none ∧ s.flc.resume = none
    let moved := [TOP_START_STS.reg, TOP_RESET_STS.reg, PWR_STS.reg, PWR_WAKE_STS.reg, FLC_FLOOR.reg, FLC_IMG_KEYS.reg, FLC_OPEN_CNT.reg, FLC_SPARE.reg]
    let gone := fun (t : State) => t.lanes = [] ∧ t.que = {} ∧ t.sec.slots = [] ∧ t.sec.longs = [] ∧ t.hst = {} ∧ t.lnk = {} ∧ t.prt = {} ∧ t.atb = 0 ∧
      t.radioHeld = true ∧ t.pending = s.pending
    let chip := fun (t : State) (cause : Nat) => gone t ∧ t.rd TOP_RESET_STS.LAST_CAUSE = cause ∧ t.start.due = 1 ∧ t.pwr.mode = 0 ∧ t.rd PWR_STS.STATE = 0 ∧
      t.on TOP_START_STS.SEEDLING = false ∧
      (idle → t.flash = s.flash ∧ t.fuses = s.fuses ∧ (∀ a, a ∉ moved → t.reg a = if aonReg a then s.reg a else regReset a) ∧
        (∀ x, bkupBase ≤ x → t.byte x = s.byte x) ∧ ∀ x, x < bkupBase → (x < 0x3000000 ∨ 0x3020000 ≤ x) → t.byte x = 0)
    (∀ ordered, ∃ t, exec (.powerOn ordered) s = .next t ∧ chip t 1 ∧ t.start.held = !ordered) ∧
    (∀ ns, (s.pwr.mode = 2 ∨ ns ≤ 100 → exec (.resetNLow ns) s = .next s) ∧
      (s.pwr.mode ≠ 2 → 1000 ≤ ns → ∃ t, exec (.resetNLow ns) s = .next t ∧ chip t 2) ∧
      (s.pwr.mode ≠ 2 → 100 < ns → ns < 1000 → ∃ t, exec (.resetNLow ns) s = .next t ∧ (t = s.freed ∨ chip t 2))) ∧
    (∀ good deep,
      (s.pwr.mode = 0 → good = false ∨ deep = false ∨ s.start.glitchOff = true → ∃ t, exec (.brownOut good deep) s = .next t ∧ chip t 3 ∧
        t.start.glitchOff = !good) ∧
      (s.pwr.mode = 0 → good = true → deep = true → s.start.glitchOff = false → ∃ t, exec (.brownOut good deep) s = .next t ∧ gone t ∧
        t.rd TOP_RESET_STS.LAST_CAUSE = 3 ∧ t.start.due = 1 ∧ t.start.glitchOff = false ∧ t.sec.tamper = true ∧ bitOn t.sec.haltBy 1 = true ∧
        bitOn (t.rd SEC_ALARM_STS.ALARM) 1 = true) ∧
      (s.pwr.mode ≠ 0 → exec (.brownOut good deep) s = .next s)) ∧
    (∃ t, exec .aonReset s = .next t ∧ gone t ∧ t.pwr.mode = 2 ∧ t.pwr.pwrEn = false ∧ t.clk.xkOk = false ∧ t.start.held = true ∧
      (idle → t.flash = s.flash ∧ t.fuses = s.fuses ∧ (∀ a, a ∉ moved → t.reg a = regReset a) ∧ ∀ x, (x < 0x3000000 ∨ 0x3020000 ≤ x) → t.byte x = 0)) ∧
    (∀ key, reaches s f TOP_RESET.reg →
      (key ≠ 0xC1A5 → exec (.fullReset f key) s = .next s ∧ exec (.radioReset f key) s = .next s) ∧
      (key = 0xC1A5 → (∃ t, exec (.fullReset f key) s = .next t ∧ chip t 4) ∧
        (s.radioHeld = true → exec (.radioReset f key) s = .next s) ∧
        (s.radioHeld = false → s.pwr.req = none → ∃ t, exec (.radioReset f key) s = .next t ∧ t.radioHeld = true ∧ t.lanes = [] ∧ t.lnk = {} ∧ t.que = {} ∧
          t.cnp = {} ∧ t.on TOP_RESET_STS.RADIO_BUSY = true ∧ (∀ a, inRadio a = true → t.reg a = regReset a) ∧
          (∀ x, 0x2000000 ≤ x → x < 0x3000000 → t.byte x = 0) ∧ ((∀ r ∈ s.prt.resets, r.scope ≠ 2) → t.sec.slots = s.sec.slots ∧ t.sec.longs = s.sec.longs) ∧
          (∃ j, t.flc.load = some j ∧ j.mode = 2 ∧ j.addr = s.rd FLC_IMG_ACTIVE.ADDR ∧ j.checked = false) ∧
          ∀ x c, s.ctx x = some c → (∀ p ∈ s.hst.ctxs, p.1 = x → p.2 = c) → c.stage ≠ 2 → c.dupOf = none → c.header = none → nodeOrEngine s c = true → (s.port c.port).closing = false →
            ∃ r ∈ t.hst.ready, r.ctx = x ∧ r.port = c.port ∧ CQ.STATUS.of r.entry = 0x1B))) ∧
    (∃ t, exec .hostReset s = .next t ∧ t.hst = {} ∧ t.flash = s.flash ∧ t.radioHeld = s.radioHeld ∧
      (∀ a, 0x800000 ≤ a → a < 0x1000000 → t.reg a = regReset a) ∧ (∀ w, w < 4 → t.rd (TOP_FEAT_ACT.ACT w) = 0) ∧
      ∀ n o, o < 2 ^ 20 → vfCleared o = true → t.vreg n o = vregInit o) ∧
    (∀ n, 0 < n → n < 64 → ((s.func n).on = false → exec (.vfFlr n) s = .next s) ∧
      ((s.func n).on = true → ∃ t, exec (.vfFlr n) s = .next t ∧ (t.func n).bme = false ∧ ∀ o, o < 2 ^ 20 → vfCleared o = true → t.vreg n o = vregInit o)) ∧
    (s.on CLK_STS.SYN_LOCK = true → s.on CLK_STS.FREE_RUN = false → ∃ t, exec .synUnlock s = .next t ∧ t.on CLK_STS.SYN_LOCK = false ∧
      t.on CLK_STS.ALN_LOCK = false ∧ t.clk.tb = false ∧ t.clk.acq = true ∧ t.radioHeld = true ∧ counted t CLK_SYN_CNT.COUNT ∧ flagged t 10 1) ∧
    (s.on CLK_STS.SYN_LOCK = false ∨ s.on CLK_STS.FREE_RUN = true → exec .synUnlock s = .next s) ∧
    (∀ l1 l2,
      let count := s.rd TOP_START_STS.COUNT
      let ready : Prop := (s.start.due = 1 ∨ s.start.due = 3) ∧ s.start.held = false ∧ s.pwr.mode = 0
      let seeded := fun (t : State) (cause : Nat) => t.on TOP_START_STS.SEEDLING = true ∧ t.rd (TOP_MBOX.WORD 0) = 0x5EED0000 + cause ∧
        t.on (stateF 64) = true ∧ t.start.wdt = none ∧ t.start.try_ = none
      let opened := fun (t : State) => t.rd TOP_START_STS.COUNT = count + 1 ∧ t.on (TOP_START_REASON.VALID 0) = true ∧ t.start.opened = true ∧
        (s.start.opened = true → s.start.reasoned = false → t.rd (TOP_START_REASON.REASON 1) = s.rd TOP_RESET_STS.LAST_CAUSE)
      (¬ready → exec (.boot l1 l2) s = .next s) ∧
      (ready → ∃ t, exec (.boot l1 l2) s = .next t ∧ t.start.due = 0 ∧
        (s.start.due = 1 → s.sec.tamper = false → t.lslot 0 = ⟨1, Config.deviceWrapKey⟩) ∧
        (s.rd TOP_START_STS.LIMIT ≤ count → seeded t 1) ∧
        (count < s.rd TOP_START_STS.LIMIT → chooseBoot s = none → seeded t 2 ∧ opened t) ∧
        (∀ b, count < s.rd TOP_START_STS.LIMIT → chooseBoot s = some b → t.start.opened = true ∧ t.flc.boot = some b ∧
          (let runs := fun (slot : Nat) (next : Option Nat) => t.start.try_ = some ⟨slot, next, l2⟩ ∧ t.flc.load.isSome = true ∧
             t.start.wdt = some (s.clk.xk + 32768 * b.tmo)
           runs (bootFirst b count) (some (1 - bootFirst b count)) ∨ runs (1 - bootFirst b count) none ∨
             (seeded t 3 ∧ t.rd (TOP_START_REASON.REASON 0) = 7))))) ∧
    (s.flc.load = none → exec .loadDone s = .next s) ∧
    (∀ j, s.flc.load = some j → j.checked = true → imgStalls s j.src j.addr = false → j.mode ≠ 2 →
      let ends := fun (t : State) => t.flc.load = none ∧ t.on FLC_IMG_CTRL.BUSY = false
      let base : Prop := j.mode ≠ 1 ∧ s.clk.tb = true ∧ j.src = 0
      let good : Prop := base ∧ ∀ x ∈ j.left, digestOk s j x = true
      (s.start.due ≠ 2 → s.start.try_ = none →
        (j.mode ≠ 1 → s.clk.tb = false → exec .loadDone s = .next s) ∧
        (j.mode = 1 → j.left ≠ [] → exec .loadDone s = .next s) ∧
        (j.mode = 1 → j.left = [] → ∃ t, exec .loadDone s = .next t ∧ ends t ∧ t.rd FLC_IMG_STS.STATE = 5 ∧ flagged t 13 0 ∧
          t.rd FLC_IMG_LIVE_GEN.GEN = (s.rd FLC_IMG_LIVE_GEN.GEN + 1) % 65536) ∧
        (good → ∃ t, exec .loadDone s = .next t ∧ ends t ∧ t.rd FLC_IMG_STS.STATE = 3 ∧ flagged t 13 0 ∧ t.rd FLC_IMG_ACTIVE.ADDR = j.addr % 2 ^ 32 ∧
          t.rd FLC_IMG_SECVER.SEC_VERSION = j.hdr.secver % 2 ^ 32 ∧ t.rd FLC_IMG_LIVE_GEN.GEN = 0 ∧ t.radioHeld = false) ∧
        (∀ x xs, base → baseOrder j.left = x :: xs → digestOk s j x = false → ∃ t, exec .loadDone s = .next t ∧ ends t ∧ t.rd FLC_IMG_STS.STATE = 4 ∧
          t.rd FLC_IMG_STS.CODE = 0x0F ∧ t.rd FLC_IMG_STS.FAIL_SEC = x.idx % 256 ∧ flagged t 13 1)) ∧
      (∀ y, s.start.due ≠ 2 → s.start.try_ = some y →
        (good → ∃ t, exec .loadDone s = .next t ∧ t.start.try_ = none ∧ t.pwr.resumeAddr = some (j.addr % 2 ^ 32, 0) ∧
          ((∀ b, s.flc.boot = some b → bootWrites y.slot b s = []) → t.pcOf 64 = 0x100000 ∧ t.on (stateF 64) = true ∧
            (s.start.opened = true → 3 ≤ t.rd (TOP_START_REASON.STAGE 0))) ∧
          (∀ b, s.flc.boot = some b → bootWrites y.slot b s ≠ [] → ∃ w, unitWork t 3 = some w ∧ w.left = bootWrites y.slot b s ∧ w.ok = true)) ∧
        (∀ x xs, base → baseOrder j.left = x :: xs → digestOk s j x = false → y.next = none → ∃ t, exec .loadDone s = .next t ∧
          t.on TOP_START_STS.SEEDLING = true ∧ t.rd (TOP_MBOX.WORD 0) = 0x5EED0003 ∧ t.on (stateF 64) = true)) ∧
      (s.start.due = 2 →
        (good → ∃ t, exec .loadDone s = .next t ∧ t.start.due = 0 ∧ t.pcOf 64 = 0x100000 ∧ t.on (stateF 64) = true ∧ t.rd PWR_STS.STATE = 0 ∧ flagged t 11 0) ∧
        (∀ x xs, base → baseOrder j.left = x :: xs → digestOk s j x = false → ∃ t, exec .loadDone s = .next t ∧ t.start.due = 3 ∧ t.que = {} ∧
          t.sec.slots = [] ∧ ∀ a, supBase ≤ a → a < supBase + 0x200000 → t.byte a = 0))) ∧
    (s.start.wdt = none → exec .startWatchdogExpiry s = .next s) ∧
    (∀ d, s.start.wdt = some d → (s.clk.xkOk = false ∨ s.pwr.mode = 2 → exec .startWatchdogExpiry s = .next s) ∧
      (s.clk.xkOk = true → s.pwr.mode ≠ 2 → s.clk.xkPhase < 15625 → ∃ t, exec .startWatchdogExpiry s = .next t ∧ gone t ∧
        t.rd TOP_RESET_STS.LAST_CAUSE = 4 ∧ t.start.due = 1 ∧ d ≤ t.clk.xk ∧ (idle → s.start.opened = true → t.rd (TOP_START_REASON.REASON 0) = 5))) ∧
    (reaches s f 0x220 → ∃ t, exec (.driverOk f) s = .next t ∧ t.on TOP_START_CTRL.DRIVER_OK = true ∧ t.rd TOP_START_STS.COUNT = 0 ∧
      (s.start.opened = true → t.rd (TOP_START_REASON.REASON 0) = 0) ∧
      t.start = { s.start with wdt := none, opened := false, reasoned := false, okNow := true } ∧
      onlyRegs { s with start := t.start } t [TOP_START_CTRL.reg, TOP_START_STS.reg, TOP_START_REASON.reg 0])

/-- The image loader and register accesses (R9-R14, R28, R269, R313-R319). -/
def Obligations.ImagesLoadAndRegistersAreWritten : Prop :=
  ∀ (f : Fn) (s : State), s.inv = true →
    let st := s.rd FLC_IMG_STS.STATE
    let fallen := if s.flc.liveRadio = true ∨ s.flc.liveChip = true then 5 else 3
    let failed := fun (t : State) (k c sec : Nat) => t.rd FLC_IMG_STS.STATE = k ∧ t.rd FLC_IMG_STS.CODE = c % 256 ∧ t.rd FLC_IMG_STS.FAIL_SEC = sec % 256 ∧
      t.flc.load = none ∧ t.on FLC_IMG_CTRL.BUSY = false ∧ flagged t 13 1
    let chosen := fun (mode : Nat) (sup : Bool) => (s.wr FLC_IMG_CTRL.MODE mode).wr FLC_IMG_CTRL.SRC (if sup then 1 else 0)
    let begun := fun (mode : Nat) (sup locks : Bool) =>
      let j : LoadJob := ⟨mode, s.rd FLC_IMG_ADDR.ADDR, if sup then 1 else 0, locks, false, noHdr, []⟩
      (({ chosen mode sup with flc := { s.flc with load := some j } } : State).wr FLC_IMG_CTRL.BUSY 1).wr FLC_IMG_STS.STATE 1
    (∀ sup locks, reaches s f FLC_IMG_CTRL.reg →
      let src := if sup then 1 else 0
      let a := s.rd FLC_IMG_ADDR.ADDR
      (s.on FLC_IMG_CTRL.BUSY = true → exec (.baseLoad f sup locks) s = .next s ∧ exec (.liveLoad f sup) s = .next s) ∧
      (s.on FLC_IMG_CTRL.BUSY = false → s.on TOP_START_STS.SEEDLING = true →
        (∃ t, exec (.baseLoad f sup locks) s = .next t ∧ t.rd FLC_IMG_STS.CODE = 0xE2 ∧ t.rd FLC_IMG_STS.STATE = st ∧ t.flc = s.flc ∧ flagged t 13 1) ∧
        ∃ t, exec (.liveLoad f sup) s = .next t ∧ t.rd FLC_IMG_STS.CODE = 0xE2 ∧ t.rd FLC_IMG_STS.STATE = st ∧ t.flc = s.flc ∧ flagged t 13 1) ∧
      (s.on FLC_IMG_CTRL.BUSY = false → s.on TOP_START_STS.SEEDLING = false →
        (st ≠ 0 → st ≠ 4 → exec (.baseLoad f sup locks) s = .next (chosen 0 sup)) ∧
        (st ≠ 3 → st ≠ 5 → exec (.liveLoad f sup) s = .next (chosen 1 sup)) ∧
        (st = 0 ∨ st = 4 →
          let u := begun 0 sup locks
          (imgStalls u src a = true → exec (.baseLoad f sup locks) s = .next u) ∧
          (∀ e, imgStalls u src a = false → imgErr u 0 src a = some e → ∃ t, exec (.baseLoad f sup locks) s = .next t ∧ failed t 4 e.code e.sec) ∧
          (imgStalls u src a = false → imgErr u 0 src a = none →
            (locks = true → ∃ t j, exec (.baseLoad f sup locks) s = .next t ∧ t.flc.load = some j ∧ j.mode = 0 ∧ j.addr = a ∧ j.src = src ∧ j.checked = true ∧
              j.left = (readTable u src a).filter (fun x => x.typ != 1)) ∧
            (locks = false → ∃ t, exec (.baseLoad f sup locks) s = .next t ∧ t.flc.load = none ∧ t.rd FLC_IMG_STS.STATE = 4 ∧ t.rd FLC_IMG_STS.CODE = 0x10 ∧
              s.now + 1600000 ≤ t.now))) ∧
        (st = 3 ∨ st = 5 →
          let u := begun 1 sup true
          (imgStalls u src a = true → exec (.liveLoad f sup) s = .next u) ∧
          (∀ e, imgStalls u src a = false → imgErr u 1 src a = some e → ∃ t, exec (.liveLoad f sup) s = .next t ∧ failed t fallen e.code e.sec) ∧
          (imgStalls u src a = false → imgErr u 1 src a = none → ∃ t j, exec (.liveLoad f sup) s = .next t ∧ t.flc.load = some j ∧ j.mode = 1 ∧ j.addr = a ∧
            j.src = src ∧ j.checked = true ∧ j.left = readTable u src a ∧ t.rd FLC_IMG_STS.STATE = 2)))) ∧
    (reaches s f FLC_IMG_CTRL.reg →
      (s.flc.load.any (fun j => j.mode == 1) = false → exec (.loadAbort f) s = .next s) ∧
      (∀ j, s.flc.load = some j → j.mode = 1 → ∃ t, exec (.loadAbort f) s = .next t ∧ t.rd FLC_IMG_STS.STATE = fallen ∧ t.rd FLC_IMG_STS.CODE = 0x11 ∧
        t.flc = { s.flc with load := none } ∧ t.on FLC_IMG_CTRL.BUSY = false ∧ flagged t 13 1)) ∧
    (s.flc.load = none → exec .liveSwitch s = .next s ∧ exec .radioReload s = .next s) ∧
    (∀ j, s.flc.load = some j →
      let stalls := imgStalls s j.src j.addr
      (j.mode ≠ 1 ∨ j.checked = false ∨ stalls = true ∨ j.left = [] → exec .liveSwitch s = .next s) ∧
      (j.mode ≠ 2 ∨ s.clk.tb = false ∨ stalls = true → exec .radioReload s = .next s) ∧
      (∀ x xs, j.mode = 1 → j.checked = true → stalls = false → j.left = x :: xs → x.typ ≠ 6 →
        (digestOk s j x = false → ∃ t, exec .liveSwitch s = .next t ∧ failed t fallen 0x0F x.idx ∧ t.flc = { s.flc with load := none }) ∧
        (digestOk s j x = true → x.typ ≠ 3 →
          let u := applySect 0 0 x (sectData s j.src j.addr x) s
          exec .liveSwitch s = .next { u with flc := { u.flc with
            liveRadio := u.flc.liveRadio || !chipScope x.typ, liveChip := u.flc.liveChip || chipScope x.typ,
            live := u.flc.live.filter (fun p => !(p.1.typ == x.typ && p.1.inst == x.inst)) ++ [(x, sectData s j.src j.addr x)],
            load := u.flc.load.map (fun k => { k with left := k.left.drop 1 }) } }) ∧
        (digestOk s j x = true → x.typ = 3 → mapChangesIdle s (applySect 0 0 x (sectData s j.src j.addr x) s) = false →
          ∃ t, exec .liveSwitch s = .next t ∧ failed t fallen 0x12 x.idx ∧ t.flc = { s.flc with load := none })) ∧
      (∀ x xs, j.mode = 1 → j.checked = true → stalls = false → j.left = x :: xs → x.typ = 6 →
        let v := s.at_ (ceilDiv s.atb 20480 * 20480)
        digestOk v j x = true → ∃ t, exec .liveSwitch s = .next t ∧ flagged t 1 6 ∧ t.flc.liveRadio = true ∧
          t.flc.load = some { j with left := xs }) ∧
      (j.mode = 2 → s.clk.tb = true → stalls = false → s.prt.resets = [] →
        (∀ e, imgErr s 2 j.src j.addr = some e → ∃ t, exec .radioReload s = .next t ∧ failed t 4 e.code e.sec ∧ t.on TOP_RESET_STS.RADIO_BUSY = false ∧
          t.radioHeld = s.radioHeld) ∧
        (imgErr s 2 j.src j.addr = none → j.src = 0 → (∀ x ∈ modeSects 2 (readTable s j.src j.addr), digestOk s j x = true) →
          ∃ t, exec .radioReload s = .next t ∧ t.radioHeld = false ∧ t.flc.load = none ∧ t.on TOP_RESET_STS.RADIO_BUSY = false ∧ flagged t 13 0 ∧
            t.rd FLC_IMG_STS.STATE = if s.flc.liveChip then 5 else 3))) ∧
    ((∀ n, n < 4 → (s.core (64 + n)).stepping = false) →
      let logged := fun (t : State) (r : RegFld) (off kind : Nat) => t.rd r = min 0xFFFFFFFF (s.rd r + 1) ∧ t.rd TOP_BAD_LOG.OFFSET = off ∧
        t.rd TOP_BAD_LOG.KIND = kind ∧ t.on TOP_BAD_LOG.VALID = true ∧ flagged t 9 0 ∧ raisedOnly s t [r.addr, TOP_BAD_LOG.reg, TOP_EVT_STS.reg]
      (∀ off size (v : Word), inBar f off = true → 0 < size →
        (s.pwr.mode ≠ 0 ∨ fnHere s f = false → exec (.registerWrite f off size (.write v)) s = .next s ∧ exec (.registerWrite f off size .read) s = .next s) ∧
        (s.pwr.mode = 0 → f = .pf →
          (pfReserved off = true ∨ s.hidden f off = true → ∃ t, exec (.registerWrite f off size (.write v)) s = .next t ∧ logged t TOP_CNT_UNMAPPED.COUNT off 0) ∧
          (pfReserved off = false → s.hidden f off = false → size ≠ 4 ∨ off % 4 ≠ 0 →
            ∃ t, exec (.registerWrite f off size (.write v)) s = .next t ∧ logged t TOP_CNT_BADSIZE.COUNT off 1)) ∧
        (∀ n, s.pwr.mode = 0 → f = .vf n → fnHere s f = true → vfReserved off = true ∨ size ≠ 4 ∨ off % 4 ≠ 0 →
          ∃ t, exec (.registerWrite f off size (.write v)) s = .next t ∧ t.rd (HST_PCNT.COUNT n 6) = min 0xFFFFFFFF (s.rd (HST_PCNT.COUNT n 6) + 1) ∧
            bf (t.vreg n 0x100) 31 1 = 1)) ∧
      (s.pwr.mode = 0 → ∀ v : Word,
        (∀ k, k < 4 → ∃ t, exec (.registerWrite .pf (TOP_FEAT_REQ.reg k) 4 (.write v)) s = .next t ∧ t.reg (TOP_FEAT_REQ.reg k) = v ∧
          onlyRegs s t [TOP_FEAT_REQ.reg k]) ∧
        (∃ t, exec (.registerWrite .pf TOP_EVT_STS.reg 4 (.write v)) s = .next t ∧ onlyRegs s t [TOP_EVT_STS.reg] ∧
          ∀ b, b < 2 → bf (t.reg TOP_EVT_STS.reg) b 1 = if bf v b 1 = 1 then 0 else bf (s.reg TOP_EVT_STS.reg) b 1) ∧
        (s.on TOP_START_STS.SEEDLING = false → s.on TWA_CTRL.LOCK = true →
          ∃ t, exec (.registerWrite .pf TWA_CFG.reg 4 (.write v)) s = .next t ∧ t.reg TWA_CFG.reg = s.reg TWA_CFG.reg ∧ onlyRegs s t []) ∧
        (s.on TOP_START_STS.SEEDLING = false → s.on TWA_CTRL.LOCK = false →
          ∃ t, exec (.registerWrite .pf TWA_CFG.reg 4 (.write v)) s = .next t ∧ onlyRegs s t [TWA_CFG.reg] ∧ t.rd TWA_CFG.FILT = bf v 8 4 ∧
            t.rd TWA_CFG.ADDR = if 8 ≤ bf v 0 7 ∧ bf v 0 7 ≤ 119 then bf v 0 7 else s.rd TWA_CFG.ADDR) ∧
        exec (.registerWrite .pf TOP_RESET_STS.reg 4 .read) s = .next (s.post (.readData (s.reg TOP_RESET_STS.reg))) ∧
        ∃ t, exec (.registerWrite .pf TOP_RESET_STS.reg 4 (.write v)) s = .next t ∧ onlyRegs s t []))
end

