-- ==== Sys2Proof/Laws/Sparse.lean ====
section
/-! SUPPORT. Sparse tables: reading after writing, and the canonical form kept by every table operation and by the byte memories. -/

namespace Sys2Proof.Machine

variable {α : Type}

/-- Below every listed key, a table reads as unlisted. -/
theorem sget_below (d : Nat → α) [DecidableEq α] : ∀ (m : Sparse α) (lo k : Nat), swfFrom d lo m = true → k < lo → sget d m k = d k
  | [], _, _, _, _ => rfl
  | (j, v) :: m, lo, k, h, hk => by
    simp only [swfFrom, Bool.and_eq_true, decide_eq_true_eq] at h
    have hj : k < j := Nat.lt_of_lt_of_le hk h.1.1
    simp [sget, Nat.ne_of_lt hj, hj]

/-- A form that holds from lo on holds from any lower key on. -/
theorem swfFrom_mono [DecidableEq α] (d : Nat → α) : ∀ (m : Sparse α) (lo lo' : Nat), lo' ≤ lo → swfFrom d lo m = true → swfFrom d lo' m = true
  | [], _, _, _, _ => rfl
  | (j, v) :: m, lo, lo', hl, h => by
    simp only [swfFrom, Bool.and_eq_true, decide_eq_true_eq] at h ⊢
    exact ⟨⟨Nat.le_trans hl h.1.1, h.1.2⟩, h.2⟩

theorem sdel_swfFrom [DecidableEq α] (d : Nat → α) (k : Nat) : ∀ (m : Sparse α) (lo : Nat), swfFrom d lo m = true → swfFrom d lo (sdel m k) = true
  | [], _, _ => rfl
  | (j, v) :: m, lo, h => by
    have h' := h
    simp only [swfFrom, Bool.and_eq_true, decide_eq_true_eq] at h
    unfold sdel
    split
    · exact swfFrom_mono d m (j + 1) lo (by omega) h.2
    · split
      · exact h'
      · simp only [swfFrom, Bool.and_eq_true, decide_eq_true_eq]
        exact ⟨h.1, sdel_swfFrom d k m (j + 1) h.2⟩

theorem sput_swfFrom [DecidableEq α] (d : Nat → α) (k : Nat) (v : α) (hv : v ≠ d k) :
    ∀ (m : Sparse α) (lo : Nat), lo ≤ k → swfFrom d lo m = true → swfFrom d lo (sput m k v) = true
  | [], lo, hk, _ => by simp [sput, swfFrom, hk, hv]
  | (j, u) :: m, lo, hk, h => by
    have h' := h
    simp only [swfFrom, Bool.and_eq_true, decide_eq_true_eq] at h
    unfold sput
    split
    · rename_i e
      subst e
      simp only [swfFrom, Bool.and_eq_true, decide_eq_true_eq]
      exact ⟨⟨hk, by simp [hv]⟩, h.2⟩
    · split
      · rename_i hkj
        simp only [swfFrom, Bool.and_eq_true, decide_eq_true_eq]
        exact ⟨⟨hk, by simp [hv]⟩, ⟨by omega, h.1.2⟩, h.2⟩
      · simp only [swfFrom, Bool.and_eq_true, decide_eq_true_eq]
        exact ⟨h.1, sput_swfFrom d k v hv m (j + 1) (by omega) h.2⟩

/-- Writing one key keeps the canonical form. -/
theorem sset_swf [DecidableEq α] (d : Nat → α) (m : Sparse α) (k : Nat) (v : α) (h : swf d m = true) : swf d (sset d m k v) = true := by
  unfold sset
  split
  · exact sdel_swfFrom d k m 0 h
  · exact sput_swfFrom d k v ‹_› m 0 (Nat.zero_le k) h

/-- Keeping some of the entries keeps the canonical form. -/
theorem filter_swfFrom [DecidableEq α] (d : Nat → α) (p : Nat × α → Bool) :
    ∀ (m : Sparse α) (lo : Nat), swfFrom d lo m = true → swfFrom d lo (m.filter p) = true
  | [], _, _ => rfl
  | (j, v) :: m, lo, h => by
    simp only [swfFrom, Bool.and_eq_true, decide_eq_true_eq] at h
    rw [List.filter_cons]
    split
    · simp only [swfFrom, Bool.and_eq_true, decide_eq_true_eq]
      exact ⟨h.1, filter_swfFrom d p m (j + 1) h.2⟩
    · exact swfFrom_mono d _ (j + 1) lo (by omega) (filter_swfFrom d p m (j + 1) h.2)

theorem filter_swf [DecidableEq α] (d : Nat → α) (p : Nat × α → Bool) (m : Sparse α) (h : swf d m = true) : swf d (m.filter p) = true :=
  filter_swfFrom d p m 0 h

theorem sdrop_swf [DecidableEq α] (d : Nat → α) (m : Sparse α) (lo hi : Nat) (h : swf d m = true) : swf d (sdrop m lo hi) = true :=
  filter_swf d _ m h

theorem sget_sput_same (d : Nat → α) (k : Nat) (v : α) : ∀ m : Sparse α, sget d (sput m k v) k = v
  | [] => by simp [sput, sget]
  | (j, u) :: m => by
    unfold sput
    split
    · simp [sget]
    · split
      · simp [sget]
      · rename_i h1 h2
        simp [sget, h1, h2, sget_sput_same d k v m]

theorem sget_sput_other (d : Nat → α) (k x : Nat) (v : α) (hx : x ≠ k) :
    ∀ m : Sparse α, [DecidableEq α] → ∀ lo, swfFrom d lo m = true → sget d (sput m k v) x = sget d m x
  | [], _, _, _ => by
    simp only [sput, sget, if_neg hx]
    split <;> rfl
  | (j, u) :: m, _, lo, h => by
    have h' := h
    simp only [swfFrom, Bool.and_eq_true, decide_eq_true_eq] at h
    unfold sput
    split
    · rename_i e
      subst e
      simp [sget, hx]
    · split
      · rename_i h1 h2
        by_cases hk : x < k
        · have : x < j := by omega
          have : x ≠ j := by omega
          simp [sget, *]
        · simp [sget, hx, hk]
      · rename_i h1 h2
        simp only [sget]
        rw [sget_sput_other d k x v hx m (j + 1) h.2]

theorem sget_sdel_same (d : Nat → α) [DecidableEq α] (k : Nat) :
    ∀ (m : Sparse α) (lo : Nat), swfFrom d lo m = true → sget d (sdel m k) k = d k
  | [], _, _ => rfl
  | (j, u) :: m, lo, h => by
    simp only [swfFrom, Bool.and_eq_true, decide_eq_true_eq] at h
    unfold sdel
    split
    · rename_i e
      subst e
      exact sget_below d m (k + 1) k h.2 (Nat.lt_succ_self k)
    · split
      · rename_i h1 h2
        simp [sget, h1, h2]
      · rename_i h1 h2
        simp only [sget, if_neg h1, if_neg h2]
        exact sget_sdel_same d k m (j + 1) h.2

theorem sget_sdel_other (d : Nat → α) [DecidableEq α] (k x : Nat) (hx : x ≠ k) :
    ∀ (m : Sparse α) (lo : Nat), swfFrom d lo m = true → sget d (sdel m k) x = sget d m x
  | [], _, _ => rfl
  | (j, u) :: m, lo, h => by
    simp only [swfFrom, Bool.and_eq_true, decide_eq_true_eq] at h
    unfold sdel
    split
    · rename_i e
      subst e
      by_cases hk : x < k
      · simp only [sget, if_neg hx, if_pos hk]
        exact sget_below d m (k + 1) x h.2 (by omega)
      · simp [sget, hx, hk]
    · split
      · rfl
      · simp only [sget]
        rw [sget_sdel_other d k x hx m (j + 1) h.2]

/-- A key reads what was written to it. -/
theorem sget_sset_same [DecidableEq α] (d : Nat → α) (m : Sparse α) (k : Nat) (v : α) (h : swf d m = true) : sget d (sset d m k v) k = v := by
  unfold sset
  split
  · rename_i e
    rw [e]
    exact sget_sdel_same d k m 0 h
  · exact sget_sput_same d k v m

/-- Every other key reads as before. -/
theorem sget_sset_other [DecidableEq α] (d : Nat → α) (m : Sparse α) (k x : Nat) (v : α) (hx : x ≠ k) (h : swf d m = true) :
    sget d (sset d m k v) x = sget d m x := by
  unfold sset
  split
  · exact sget_sdel_other d k x hx m 0 h
  · exact sget_sput_other d k x v hx m 0 h

/-- Writing octets keeps the canonical form of the byte memories. -/
theorem putMem_wf : ∀ (bs : List Byte) (a : Nat) (m : List Host.Cell), Memory.wf m = true → Memory.wf (putMem bs a m) = true
  | [], _, _, h => h
  | b :: bs, a, m, h => putMem_wf bs (a + 1) _ (sset_swf _ m a b h)

theorem store_mem_wf (s : State) (w : Option Nat) (a : Nat) (bs : List Byte) (h : Memory.wf s.mem = true) :
    Memory.wf (s.store w a bs).mem = true := putMem_wf bs a _ h

theorem zeroMem_mem_wf (s : State) (lo hi : Nat) (h : Memory.wf s.mem = true) : Memory.wf (State.zeroMem lo hi s).mem = true :=
  sdrop_swf _ s.mem lo hi h

/-- Memory lists nothing at reset. -/
theorem reset_mem_wf : Memory.wf State.reset.mem = true := rfl

end Sys2Proof.Machine
end

