-- ==== Sys2Proof/Laws/Keep.lean ====
section
/-! SUPPORT. What every command keeps: the queue, the passing of time, the fuses that are blown and the machine's invariant. Kept z s says
that s keeps what z had; the files under Laws/Keep prove it of every operation. -/

namespace Sys2Proof.Machine

/-- What is kept, over the fields it looks at. -/
def keptOf (z : State) (pending : List Instr) (now : Nat) (fuses : Fuses) (regs vregs : Sparse Word) (mem flash : List Host.Cell)
    (cores : Sparse FCore) : Prop :=
  (pending = z.pending ∧ z.now ≤ now ∧ fusesGrow z.fuses fuses) ∧ swf regReset regs = true ∧ swf vregInit vregs = true ∧
    Memory.wf mem = true ∧ flashWf flash = true ∧ coresWf cores = true

/-- State s keeps what state z had. -/
def Kept (z s : State) : Prop := keptOf z s.pending s.now s.fuses s.regs s.vregs s.mem s.flash s.eng.cores

theorem fusesGrow_refl (f : Fuses) : fusesGrow f f := ⟨Nat.le_refl _, fun _ h => h, fun _ h => h, fun _ _ h => h⟩

theorem fusesGrow_trans {f g h : Fuses} (a : fusesGrow f g) (b : fusesGrow g h) : fusesGrow f h :=
  ⟨Nat.le_trans a.1 b.1, fun k hk => b.2.1 k (a.2.1 k hk), fun l hl => b.2.2.1 l (a.2.2.1 l hl), fun k x hx => b.2.2.2 k x (a.2.2.2 k x hx)⟩

/-- A state with the invariant keeps what it has. -/
theorem kept_refl {s : State} (h : s.inv = true) : Kept s s := by
  simp only [State.inv, Bool.and_eq_true] at h
  exact ⟨⟨rfl, Nat.le_refl _, fusesGrow_refl _⟩, h.1.1.1.1, h.1.1.1.2, h.1.1.2, h.1.2, h.2⟩

theorem kept_inv {z s : State} (h : Kept z s) : s.inv = true := by
  obtain ⟨-, h1, h2, h3, h4, h5⟩ := h
  simp only [State.inv, Bool.and_eq_true]
  exact ⟨⟨⟨⟨h1, h2⟩, h3⟩, h4⟩, h5⟩

/-- What is kept of a state written out. -/
theorem kept_mk_eq {z : State} {pending : List Instr} {free now atb : Nat} {regs shadow heldLo vregs : Sparse Word} {mem : List Host.Cell}
    {badPar : List Nat} {flash : List Host.Cell} {nvm : Nvm} {fuses : Fuses} {cnp : Cnp} {lanes : Sparse Lane} {lnk : Lnk} {txc : Txc}
    {que : Que} {prt : Prt} {eng : Eng} {sec : Sec} {hst : Hst} {pwr : Pwr} {clk : Clk} {rtc : Rtc} {evr : Evr} {two : Two}
    {tims : Sparse Tmr} {gates : Sparse Gate} {flc : Flc} {radioHeld : Bool} {start : Start} {curves : List Curve} {posted : List Posted} :
    Kept z { pending, free, now, atb, regs, shadow, heldLo, vregs, mem, badPar, flash, nvm, fuses, cnp, lanes, lnk, txc, que, prt, eng, sec,
             hst, pwr, clk, rtc, evr, two, tims, gates, flc, radioHeld, start, curves, posted } =
      keptOf z pending now fuses regs vregs mem flash eng.cores := rfl

theorem kept_of {z s : State} (h : Kept z s) : keptOf z s.pending s.now s.fuses s.regs s.vregs s.mem s.flash s.eng.cores := h

theorem kept_ite {z s t : State} {p : Prop} [Decidable p] (hs : Kept z s) (ht : Kept z t) : Kept z (if p then s else t) := by
  split
  · exact hs
  · exact ht

theorem kept_foldl {z : State} {α : Type} (f : State → α → State) (l : List α) (s : State) (h : Kept z s)
    (hf : ∀ u x, Kept z u → Kept z (f u x)) : Kept z (l.foldl f s) := by
  induction l generalizing s with
  | nil => exact h
  | cons x xs ih => exact ih (f s x) (hf s x h)

theorem kept_setReg {z : State} (s : State) (a : Nat) (v : Word) (h : Kept z s) : Kept z (s.setReg a v) :=
  ⟨h.1, sset_swf _ _ a v h.2.1, h.2.2⟩

theorem kept_vregs {z : State} (s : State) (m : Sparse Word) (h : Kept z s) (hm : swf vregInit m = true) : Kept z { s with vregs := m } :=
  ⟨h.1, h.2.1, hm, h.2.2.2⟩

theorem kept_setVreg {z : State} (s : State) (n off : Nat) (v : Word) (h : Kept z s) : Kept z (s.setVreg n off v) := by
  unfold State.setVreg
  exact kept_vregs s _ h (sset_swf vregInit s.vregs _ v h.2.2.1)

/-- The cores' table after a record that is in order is written. -/
theorem sdel_mem {α : Type} (k : Nat) : ∀ (m : Sparse α) (p : Nat × α), p ∈ sdel m k → p ∈ m
  | [], _, h => h
  | (j, v) :: m, p, h => by
    unfold sdel at h
    split at h
    · exact List.mem_cons_of_mem _ h
    · split at h
      · exact h
      · rcases List.mem_cons.mp h with h | h
        · exact h ▸ List.mem_cons_self
        · exact List.mem_cons_of_mem _ (sdel_mem k m p h)

theorem sput_mem {α : Type} (k : Nat) (v : α) : ∀ (m : Sparse α) (p : Nat × α), p ∈ sput m k v → p = (k, v) ∨ p ∈ m
  | [], p, h => .inl (by simpa [sput] using h)
  | (j, u) :: m, p, h => by
    unfold sput at h
    split at h
    · rcases List.mem_cons.mp h with h | h
      · exact .inl h
      · exact .inr (List.mem_cons_of_mem _ h)
    · split at h
      · rcases List.mem_cons.mp h with h | h
        · exact .inl h
        · exact .inr h
      · rcases List.mem_cons.mp h with h | h
        · exact .inr (h ▸ List.mem_cons_self)
        · rcases sput_mem k v m p h with h | h
          · exact .inl h
          · exact .inr (List.mem_cons_of_mem _ h)

theorem coresWf_sset (m : Sparse FCore) (c : Nat) (k : FCore) (h : coresWf m = true) (hk : coreWf c k = true) :
    coresWf (sset (fun _ => {}) m c k) = true := by
  simp only [coresWf, Bool.and_eq_true, List.all_eq_true] at h ⊢
  refine ⟨sset_swf _ m c k h.1, fun p hp => ?_⟩
  unfold sset at hp
  split at hp
  · exact h.2 p (sdel_mem c m p hp)
  · rcases sput_mem c k m p hp with e | e
    · rw [e]; exact hk
    · exact h.2 p e

theorem coresWf_filter (m : Sparse FCore) (f : Nat × FCore → Bool) (h : coresWf m = true) : coresWf (m.filter f) = true := by
  simp only [coresWf, Bool.and_eq_true, List.all_eq_true] at h ⊢
  exact ⟨filter_swf _ f m h.1, fun p hp => h.2 p (List.mem_of_mem_filter hp)⟩

theorem sget_mem {α : Type} (d : Nat → α) (k : Nat) : ∀ m : Sparse α, (k, sget d m k) ∈ m ∨ sget d m k = d k
  | [] => .inr rfl
  | (j, v) :: m => by
    unfold sget
    split
    · rename_i e; exact .inl (e ▸ List.mem_cons_self)
    · split
      · exact .inr rfl
      · rcases sget_mem d k m with h | h
        · exact .inl (List.mem_cons_of_mem _ h)
        · exact .inr h

theorem coresWf_core (m : Sparse FCore) (c : Nat) (h : coresWf m = true) : coreWf c (sget (fun _ => {}) m c) = true := by
  simp only [coresWf, Bool.and_eq_true, List.all_eq_true] at h
  rcases sget_mem (fun _ => ({} : FCore)) c m with e | e
  · exact h.2 _ e
  · rw [e]; rfl

theorem kept_coreWf {z s : State} (h : Kept z s) (c : Nat) : coreWf c (s.core c) = true := coresWf_core _ c h.2.2.2.2.2

theorem kept_coreRaw {z s : State} (c : Nat) (h : Kept z s) :
    (swf (fun _ => (0 : Word)) (s.core c).g && swf (sysReset c) (s.core c).sys && (s.core c).pc.toNat % 4 == 0) = true := kept_coreWf h c

theorem kept_setCore {z : State} (s : State) (c : Nat) (k : FCore) (h : Kept z s) (hk : coreWf c k = true) : Kept z (s.setCore c k) :=
  ⟨h.1, h.2.1, h.2.2.1, h.2.2.2.1, h.2.2.2.2.1, coresWf_sset _ c k h.2.2.2.2.2 hk⟩

/-- A word whose value is a multiple of four. -/
theorem word_aligned (a : Nat) : (BitVec.ofNat 32 (a / 4 * 4)).toNat % 4 = 0 := by
  simp only [BitVec.toNat_ofNat]
  omega

/-- Whatever an instruction answers keeps what was kept. -/
def KeptR (z : State) : Ret → Prop
  | .done t _ => Kept z t
  | .jump t _ _ => Kept z t
  | .goto t _ _ => Kept z t
  | .exc t _ _ => Kept z t
  | .hold t => Kept z t
  | .halt t _ _ => Kept z t

theorem keptR_done {z t : State} {n : Nat} (h : Kept z t) : KeptR z (.done t n) := h
theorem keptR_jump {z t : State} {a n : Nat} (h : Kept z t) : KeptR z (.jump t a n) := h
theorem keptR_goto {z t : State} {a n : Nat} (h : Kept z t) : KeptR z (.goto t a n) := h
theorem keptR_exc {z t : State} {a n : Nat} (h : Kept z t) : KeptR z (.exc t a n) := h
theorem keptR_hold {z t : State} (h : Kept z t) : KeptR z (.hold t) := h
theorem keptR_halt {z t : State} {n : Nat} {p : Bool} (h : Kept z t) : KeptR z (.halt t n p) := h

/-- An instruction's body keeps what was kept. -/
def KeptB (z : State) (b : Body) : Prop := ∀ c s, Kept z s → KeptR z (b c s)

/-- The device registers that a supervisor reaches keep what was kept. -/
def KeptD (z : State) (d : Dev) : Prop :=
  (∀ n o l s, Kept z s → Kept z (d.read n o l s).1) ∧ ∀ n o l v s, Kept z s → Kept z (d.write n o l v s)

/-- A command's outcome keeps what was kept. -/
def KeptO (z : State) (o : Host.Outcome State Fault Refusal) : Prop := ∀ t, o = .next t → Kept z t

theorem keptO_next {z s : State} (h : Kept z s) : KeptO z (.next s) := fun t e => by
  cases e
  exact h

theorem keptO_fault {z : State} {f : Fault} : KeptO z (.fault f) := fun t e => by cases e

theorem keptO_ranged {z s : State} {b : Bool} (h : Kept z s) : KeptO z (ranged b s) := by
  unfold ranged
  split
  · exact keptO_next h
  · exact keptO_fault

end Sys2Proof.Machine
end

