-- ==== Sys2Proof/Laws/KeepOps.lean ====
section
/-! SUPPORT. What every command keeps, for the shared operations, cells, frames and staging: one lemma per operation. -/

set_option linter.unusedTactic false
set_option linter.unreachableTactic false
set_option linter.unusedVariables false
set_option linter.unusedSimpArgs false

namespace Sys2Proof.Machine

theorem kept_ranged {z : State} (inside : Bool) (t : State) (h0 : Kept z t) : KeptO z (ranged inside t) := by
  unfold ranged
  (try dsimp only)
  repeat' with_reducible (first | assumption | apply keptO_next | apply keptO_ranged | apply keptO_fault | apply kept_ite | split)

theorem kept_wr {z : State} (s : State) (f : RegFld) (v : Nat) (h0 : Kept z s) : Kept z (State.wr s f v) := by
  unfold State.wr
  (try dsimp only)
  repeat' with_reducible (first | assumption | apply kept_setReg | apply kept_ite | split)

theorem kept_incBy {z : State} (s : State) (f : RegFld) (n : Nat) (h0 : Kept z s) : Kept z (State.incBy s f n) := by
  unfold State.incBy
  (try dsimp only)
  repeat' with_reducible (first | assumption | apply kept_wr | apply kept_ite | split)

theorem kept_inc {z : State} (s : State) (f : RegFld) (h0 : Kept z s) : Kept z (State.inc s f) := by
  unfold State.inc
  (try dsimp only)
  repeat' with_reducible (first | assumption | apply kept_incBy | apply kept_ite | split)

theorem kept_bump {z : State} (s : State) (f : RegFld) (h0 : Kept z s) : Kept z (State.bump s f) := by
  unfold State.bump
  (try dsimp only)
  repeat' with_reducible (first | assumption | apply kept_wr | apply kept_ite | split)

theorem kept_zero {z : State} (s : State) (fs : List RegFld) (h0 : Kept z s) : Kept z (State.zero s fs) := by
  unfold State.zero
  (try dsimp only)
  repeat' with_reducible (first | assumption | apply kept_wr | apply kept_foldl | (intro _; (try dsimp only)) | apply kept_ite | split)

theorem kept_wr64 {z : State} (s : State) (lo v : Nat) (h0 : Kept z s) : Kept z (State.wr64 s lo v) := by
  unfold State.wr64
  (try dsimp only)
  repeat' with_reducible (first | assumption | apply kept_setReg | apply kept_ite | split)

theorem kept_post {z : State} (s : State) (p : Posted) (h0 : Kept z s) : Kept z (State.post s p) := by
  unfold State.post
  (try dsimp only)
  repeat' with_reducible (first | assumption | (simp only [kept_mk_eq]; apply kept_of) | apply kept_ite | split)

theorem kept_freed {z : State} (s : State) (h0 : Kept z s) : Kept z (State.freed s) := by
  unfold State.freed
  (try dsimp only)
  repeat' with_reducible (first | assumption | (simp only [kept_mk_eq]; apply kept_of) | apply kept_ite | split)

theorem kept_pulse {z : State} (s : State) (ch : Nat) (h0 : Kept z s) : Kept z (State.pulse s ch) := by
  unfold State.pulse
  (try dsimp only)
  repeat' with_reducible (first | assumption | (simp only [kept_mk_eq]; apply kept_of) | apply kept_ite | split)

theorem kept_blockEvent {z : State} (s : State) (src : Nat) (h0 : Kept z s) : Kept z (State.blockEvent s src) := by
  unfold State.blockEvent
  (try dsimp only)
  repeat' with_reducible (first | assumption | apply kept_pulse | apply kept_foldl | (intro _; (try dsimp only)) | apply kept_ite | split)

theorem kept_setPbaWord {z : State} (fn v w : Nat) (s : State) (h : Kept z s) : Kept z (setPbaWord fn v w s) := by
  unfold setPbaWord
  split
  · exact kept_setReg _ _ _ h
  · exact kept_setVreg _ _ _ _ h

theorem kept_sendMsix {z : State} (s : State) (fn v : Nat) (h0 : Kept z s) : Kept z (State.sendMsix s fn v) := by
  unfold State.sendMsix
  (try dsimp only)
  repeat' with_reducible (first | assumption | apply kept_post | apply kept_setPbaWord | apply kept_ite | split)

theorem kept_evtEdge {z : State} (s t : State) (h0 : Kept z s) (h1 : Kept z t) : Kept z (evtEdge s t) := by
  unfold evtEdge
  (try dsimp only)
  repeat' with_reducible (first | assumption | apply kept_sendMsix | apply kept_ite | split)

theorem kept_raise {z : State} (s : State) (code b : Nat) (h0 : Kept z s) : Kept z (State.raise s code b) := by
  unfold State.raise
  (try dsimp only)
  repeat' with_reducible (first | assumption | apply kept_wr | apply kept_blockEvent | apply kept_evtEdge | (simp only [kept_mk_eq]; apply kept_of) | apply kept_ite | split)

theorem kept_setStage {z : State} (s : State) (k : Nat) (h0 : Kept z s) : Kept z (State.setStage s k) := by
  unfold State.setStage
  (try dsimp only)
  repeat' with_reducible (first | assumption | apply kept_wr | apply kept_ite | split)

theorem kept_setReason {z : State} (s : State) (r : Nat) (h0 : Kept z s) : Kept z (State.setReason s r) := by
  unfold State.setReason
  (try dsimp only)
  repeat' with_reducible (first | assumption | apply kept_wr | (simp only [kept_mk_eq]; apply kept_of) | apply kept_ite | split)

theorem kept_tickTimer {z : State} (t : Nat) (edges : Nat) (s : State) (h0 : Kept z s) : Kept z (tickTimer t edges s) := by
  unfold tickTimer
  (try dsimp only)
  repeat' with_reducible (first | assumption | apply kept_wr | (simp only [kept_mk_eq]; apply kept_of) | apply kept_ite | split)

theorem kept_tickRtc {z : State} (x : Nat) (s : State) (h0 : Kept z s) : Kept z (tickRtc x s) := by
  unfold tickRtc
  (try dsimp only)
  repeat' with_reducible (first | assumption | apply kept_wr | (simp only [kept_mk_eq]; apply kept_of) | apply kept_ite | split)

theorem kept_elapse {z : State} (n : Nat) (s : State) (h : Kept z s) : Kept z (s.elapse n) := by
  unfold State.elapse
  split
  · exact h
  · dsimp only
    have h1 : Kept z ((runningTimers s).foldl (fun u t => tickTimer t (timerEdges s t n (xkEdges s n)) u) s) :=
      kept_foldl _ _ _ h (fun u x hu => kept_tickTimer _ _ _ hu)
    have h2 : Kept z (if xkEdges s n = 0 then (runningTimers s).foldl (fun u t => tickTimer t (timerEdges s t n (xkEdges s n)) u) s
        else tickRtc (xkEdges s n) ((runningTimers s).foldl (fun u t => tickTimer t (timerEdges s t n (xkEdges s n)) u) s)) := by
      split
      · exact h1
      · exact kept_tickRtc _ _ h1
    exact ⟨⟨h2.1.1, Nat.le_trans h.1.2.1 (Nat.le_add_right _ _), h2.1.2.2⟩, h2.2⟩

theorem kept_at_ {z : State} (s : State) (t : Nat) (h0 : Kept z s) : Kept z (State.at_ s t) := by
  unfold State.at_
  (try dsimp only)
  repeat' with_reducible (first | assumption | apply kept_elapse | apply kept_ite | split)

theorem kept_bark {z : State} (s : State) (tag src tgt index : Nat) (h0 : Kept z s) : Kept z (State.bark s tag src tgt index) := by
  unfold State.bark
  (try dsimp only)
  repeat' with_reducible (first | assumption | apply kept_wr | apply kept_inc | apply kept_raise | (simp only [kept_mk_eq]; apply kept_of) | apply kept_ite | split)

theorem kept_unmapped {z : State} (s : State) (off : Nat) (h0 : Kept z s) : Kept z (State.unmapped s off) := by
  unfold State.unmapped
  (try dsimp only)
  repeat' with_reducible (first | assumption | apply kept_wr | apply kept_inc | apply kept_raise | apply kept_ite | split)

theorem kept_p0Only {z : State} (s : State) (f : Fn) (off : Nat) (t : State) (h0 : Kept z s) (h1 : Kept z t) : Kept z (State.p0Only s f off t) := by
  unfold State.p0Only
  (try dsimp only)
  repeat' with_reducible (first | assumption | apply kept_bark | apply kept_unmapped | apply kept_ite | split)

theorem kept_reach {z : State} (s : State) (f : Fn) (off : Nat) (t : State) (h0 : Kept z s) (h1 : Kept z t) : Kept z (State.reach s f off t) := by
  unfold State.reach
  (try dsimp only)
  repeat' with_reducible (first | assumption | apply kept_unmapped | apply kept_ite | split)

theorem kept_holdLeave {z : State} (s : State) (who : Holder) (p mw : Nat) (h0 : Kept z s) : Kept z (State.holdLeave s who p mw) := by
  unfold State.holdLeave
  (try dsimp only)
  repeat' with_reducible (first | assumption | (simp only [kept_mk_eq]; apply kept_of) | apply kept_ite | split)

theorem kept_returnLeave {z : State} (s : State) (who : Holder) (h0 : Kept z s) : Kept z (State.returnLeave s who) := by
  unfold State.returnLeave
  (try dsimp only)
  repeat' with_reducible (first | assumption | (simp only [kept_mk_eq]; apply kept_of) | apply kept_ite | split)

theorem kept_askLeave {z : State} (s : State) (who : Holder) (p mw : Nat) (h0 : Kept z s) : Kept z (State.askLeave s who p mw) := by
  unfold State.askLeave
  (try dsimp only)
  repeat' with_reducible (first | assumption | apply kept_inc | (simp only [kept_mk_eq]; apply kept_of) | apply kept_ite | split)

theorem kept_commitLeave {z : State} (s : State) (p : Nat) (asks : List (Holder × Nat)) (h0 : Kept z s) : Kept z ((State.commitLeave s p asks).1) := by
  unfold State.commitLeave
  (try dsimp only)
  repeat' with_reducible (first | assumption | apply kept_inc | apply kept_holdLeave | apply kept_foldl | (intro _; (try dsimp only)) | apply kept_ite | split)

theorem kept_setCell {z : State} (s : State) (k : Nat) (c : FCell) (h0 : Kept z s) : Kept z (State.setCell s k c) := by
  unfold State.setCell
  (try dsimp only)
  repeat' with_reducible (first | assumption | (simp only [kept_mk_eq]; apply kept_of) | apply kept_ite | split)

theorem kept_setFree {z : State} (v : Nat) (s : State) (h0 : Kept z s) : Kept z (setFree v s) := by
  unfold setFree
  (try dsimp only)
  repeat' with_reducible (first | assumption | apply kept_wr | apply kept_raise | apply kept_ite | split)

theorem kept_useMore {z : State} (a n : Nat) (s : State) (h0 : Kept z s) : Kept z (useMore a n s) := by
  unfold useMore
  (try dsimp only)
  repeat' with_reducible (first | assumption | apply kept_wr | (simp only [kept_mk_eq]; apply kept_of) | apply kept_ite | split)

theorem kept_useLess {z : State} (a n : Nat) (s : State) (h0 : Kept z s) : Kept z (useLess a n s) := by
  unfold useLess
  (try dsimp only)
  repeat' with_reducible (first | assumption | apply kept_wr | (simp only [kept_mk_eq]; apply kept_of) | apply kept_ite | split)

theorem kept_takeCell {z : State} (a : Nat) (s : State) (k : Nat) (h0 : Kept z s) : Kept z (takeCell a s k) := by
  unfold takeCell
  (try dsimp only)
  repeat' with_reducible (first | assumption | apply kept_setCell | (simp only [kept_mk_eq]; apply kept_of) | apply kept_ite | split)

theorem kept_takeCells {z : State} (a n : Nat) (s : State) (h0 : Kept z s) : Kept z ((takeCells a n s).1) := by
  unfold takeCells
  (try dsimp only)
  repeat' with_reducible (first | assumption | apply kept_freed | apply kept_setFree | apply kept_useMore | apply kept_takeCell | apply kept_foldl | (intro _; (try dsimp only)) | apply kept_ite | split)

theorem kept_freeCell {z : State} (s : State) (k : Nat) (h0 : Kept z s) : Kept z (freeCell s k) := by
  unfold freeCell
  (try dsimp only)
  repeat' with_reducible (first | assumption | apply kept_setCell | apply kept_setFree | apply kept_useLess | (simp only [kept_mk_eq]; apply kept_of) | apply kept_ite | split)

theorem kept_freeCells {z : State} (ks : List Nat) (s : State) (h0 : Kept z s) : Kept z (freeCells ks s) := by
  unfold freeCells
  (try dsimp only)
  repeat' with_reducible (first | assumption | apply kept_freeCell | apply kept_foldl | (intro _; (try dsimp only)) | apply kept_ite | split)

theorem kept_moveCell {z : State} (a : Nat) (s : State) (k : Nat) (h0 : Kept z s) : Kept z (moveCell a s k) := by
  unfold moveCell
  (try dsimp only)
  repeat' with_reducible (first | assumption | apply kept_setCell | apply kept_useMore | apply kept_useLess | (simp only [kept_mk_eq]; apply kept_of) | apply kept_ite | split)

theorem kept_fillChain {z : State} : ∀ (ks : List Nat) (bs : List (List Byte)) (own : Option Nat) (s : State), Kept z s → Kept z (fillChain ks bs own s)
  | k :: ks, b :: bs, own, s, h => kept_fillChain ks bs own _ (by apply kept_setCell; exact h)
  | [], _, _, _, h => by unfold fillChain; exact h
  | _ :: _, [], _, _, h => by unfold fillChain; exact h

theorem kept_setNode {z : State} (s : State) (h : Nat) (n : Node) (h0 : Kept z s) : Kept z (State.setNode s h n) := by
  unfold State.setNode
  (try dsimp only)
  repeat' with_reducible (first | assumption | (simp only [kept_mk_eq]; apply kept_of) | apply kept_ite | split)

theorem kept_ncPut {z : State} (s : State) (h : Nat) (f : Fld) (v : Nat) (h0 : Kept z s) : Kept z (State.ncPut s h f v) := by
  unfold State.ncPut
  (try dsimp only)
  repeat' with_reducible (first | assumption | apply kept_setNode | (simp only [kept_mk_eq]; apply kept_of) | apply kept_ite | split)

theorem kept_ctxCheck {z : State} (h : Nat) (s : State) (h0 : Kept z s) : Kept z (ctxCheck h s) := by
  unfold ctxCheck
  (try dsimp only)
  repeat' with_reducible (first | assumption | apply kept_wr | apply kept_inc | apply kept_raise | apply kept_setNode | (simp only [kept_mk_eq]; apply kept_of) | apply kept_ite | split)

theorem kept_cellParity {z : State} (k : Nat) (s : State) (h0 : Kept z s) : Kept z (cellParity k s) := by
  unfold cellParity
  (try dsimp only)
  repeat' with_reducible (first | assumption | apply kept_wr | apply kept_inc | apply kept_raise | apply kept_ite | split)

theorem kept_setIndex {z : State} (x : Sparse IdxKey) (s : State) (h0 : Kept z s) : Kept z (setIndex x s) := by
  unfold setIndex
  (try dsimp only)
  repeat' with_reducible (first | assumption | apply kept_wr | (simp only [kept_mk_eq]; apply kept_of) | apply kept_ite | split)

theorem kept_idxInsert {z : State} (pan : Nat) (a : Addr) (h : Nat) (s : State) (h0 : Kept z s) : Kept z ((idxInsert pan a h s).1) := by
  unfold idxInsert
  (try dsimp only)
  repeat' with_reducible (first | assumption | apply kept_inc | apply kept_setIndex | (simp only [kept_mk_eq]; apply kept_of) | apply kept_ite | split)

theorem kept_idxRemove {z : State} (h : Nat) (s : State) (h0 : Kept z s) : Kept z (idxRemove h s) := by
  unfold idxRemove
  (try dsimp only)
  repeat' with_reducible (first | assumption | apply kept_setIndex | apply kept_ite | split)

theorem kept_idxDrop {z : State} (ks : List (Nat × Addr)) (s : State) (h0 : Kept z s) : Kept z (idxDrop ks s) := by
  unfold idxDrop
  (try dsimp only)
  repeat' with_reducible (first | assumption | apply kept_setIndex | apply kept_ite | split)

theorem kept_idxInsertAll {z : State} (h pan : Nat) (ks : List Addr) (s : State) (h0 : Kept z s) : Kept z (idxInsertAll h pan ks s).1 := by
  unfold idxInsertAll
  have : ∀ (l : List Addr) (r : State × Nat), Kept z r.1 →
      Kept z (l.foldl (fun r a => if r.2 = 0 then idxInsert pan a h r.1 else r) r).1 := by
    intro l
    induction l with
    | nil => exact fun _ hr => hr
    | cons a as ih =>
      intro r hr
      refine ih _ ?_
      dsimp only
      split
      · exact kept_idxInsert _ _ _ _ hr
      · exact hr
  exact this ks (s, 0) h0

theorem kept_ihPut {z : State} (s : State) (hc : Nat) (f : Fld) (v : Nat) (h0 : Kept z s) : Kept z (State.ihPut s hc f v) := by
  unfold State.ihPut
  (try dsimp only)
  repeat' with_reducible (first | assumption | apply kept_setCell | (simp only [kept_mk_eq]; apply kept_of) | apply kept_ite | split)

theorem kept_linkNext {z : State} : ∀ (l : List Nat) (s : State), Kept z s → Kept z (linkNext l s)
  | [], _, h => h
  | k :: ks, s, h => kept_linkNext ks _ (by apply kept_ihPut; exact h)

theorem kept_setQueue {z : State} (h : Nat) (items : List Nat) (s : State) (h0 : Kept z s) : Kept z (setQueue h items s) := by
  unfold setQueue
  (try dsimp only)
  repeat' with_reducible (first | assumption | apply kept_ncPut | apply kept_linkNext | apply kept_foldl | (intro _; (try dsimp only)) | apply kept_ite | split)

theorem kept_linkItem {z : State} (h hc : Nat) (s : State) (h0 : Kept z s) : Kept z (linkItem h hc s) := by
  unfold linkItem
  (try dsimp only)
  repeat' with_reducible (first | assumption | apply kept_setQueue | apply kept_ite | split)

theorem kept_returnItem {z : State} (h hc : Nat) (s : State) (h0 : Kept z s) : Kept z (returnItem h hc s) := by
  unfold returnItem
  (try dsimp only)
  repeat' with_reducible (first | assumption | apply kept_setQueue | apply kept_ite | split)

theorem kept_unlinkItem {z : State} (h hc : Nat) (s : State) (h0 : Kept z s) : Kept z (unlinkItem h hc s) := by
  unfold unlinkItem
  (try dsimp only)
  repeat' with_reducible (first | assumption | apply kept_setQueue | apply kept_ite | split)

theorem kept_setCtx {z : State} (s : State) (x : Nat) (c : Ctx) (h0 : Kept z s) : Kept z (State.setCtx s x c) := by
  unfold State.setCtx
  (try dsimp only)
  repeat' with_reducible (first | assumption | (simp only [kept_mk_eq]; apply kept_of) | apply kept_ite | split)

theorem kept_dropCtx {z : State} (s : State) (x : Nat) (h0 : Kept z s) : Kept z (State.dropCtx s x) := by
  unfold State.dropCtx
  (try dsimp only)
  repeat' with_reducible (first | assumption | (simp only [kept_mk_eq]; apply kept_of) | apply kept_ite | split)

theorem kept_setPort {z : State} (s : State) (q : Nat) (p : Port) (h0 : Kept z s) : Kept z (State.setPort s q p) := by
  unfold State.setPort
  (try dsimp only)
  repeat' with_reducible (first | assumption | (simp only [kept_mk_eq]; apply kept_of) | apply kept_ite | split)

theorem kept_readyCtx {z : State} (x : Nat) (c : Ctx) (status detail attempts value result : Nat) (s : State) (h0 : Kept z s) : Kept z (readyCtx x c status detail attempts value result s) := by
  unfold readyCtx
  (try dsimp only)
  repeat' with_reducible (first | assumption | apply kept_setCtx | apply kept_dropCtx | (simp only [kept_mk_eq]; apply kept_of) | apply kept_ite | split)

theorem kept_complete {z : State} (s : State) (x status detail attempts value result : Nat) (h0 : Kept z s) : Kept z (State.complete s x status detail attempts value result) := by
  unfold State.complete
  (try dsimp only)
  repeat' with_reducible (first | assumption | apply kept_readyCtx | apply kept_foldl | (intro _; (try dsimp only)) | (simp only [kept_mk_eq]; apply kept_of) | apply kept_ite | split)

theorem kept_giveNotice {z : State} (e : Nat) (n : Notice) (s : State) (h0 : Kept z s) : Kept z (giveNotice e n s) := by
  unfold giveNotice
  (try dsimp only)
  repeat' with_reducible (first | assumption | (simp only [kept_mk_eq]; apply kept_of) | apply kept_ite | split)

theorem kept_finalNotice {z : State} (e hc : Nat) (n : Notice) (s : State) (h0 : Kept z s) : Kept z (finalNotice e hc n s) := by
  unfold finalNotice
  (try dsimp only)
  repeat' with_reducible (first | assumption | apply kept_inc | apply kept_giveNotice | (simp only [kept_mk_eq]; apply kept_of) | apply kept_ite | split)

theorem kept_tellOrigin {z : State} (h hc status : Nat) (s : State) (h0 : Kept z s) : Kept z (tellOrigin h hc status s) := by
  unfold tellOrigin
  (try dsimp only)
  repeat' with_reducible (first | assumption | apply kept_complete | apply kept_finalNotice | (simp only [kept_mk_eq]; apply kept_of) | apply kept_ite | split)

theorem kept_endItem {z : State} (h hc status : Nat) (s : State) (h0 : Kept z s) : Kept z (endItem h hc status s) := by
  unfold endItem
  (try dsimp only)
  repeat' with_reducible (first | assumption | apply kept_freeCells | apply kept_ncPut | apply kept_tellOrigin | (simp only [kept_mk_eq]; apply kept_of) | apply kept_ite | split)

theorem kept_forgetOrigin {z : State} (hc : Nat) (s : State) (h0 : Kept z s) : Kept z (forgetOrigin hc s) := by
  unfold forgetOrigin
  (try dsimp only)
  repeat' with_reducible (first | assumption | apply kept_dropCtx | (simp only [kept_mk_eq]; apply kept_of) | apply kept_ite | split)

theorem kept_dropItem {z : State} (h hc : Nat) (s : State) (h0 : Kept z s) : Kept z (dropItem h hc s) := by
  unfold dropItem
  (try dsimp only)
  repeat' with_reducible (first | assumption | apply kept_freeCells | apply kept_ncPut | apply kept_forgetOrigin | (simp only [kept_mk_eq]; apply kept_of) | apply kept_ite | split)

theorem kept_noteTo {z : State} (p : Nat) (n : PNote) (s : State) (h0 : Kept z s) : Kept z (noteTo p n s) := by
  unfold noteTo
  (try dsimp only)
  repeat' with_reducible (first | assumption | apply kept_inc | apply kept_raise | (simp only [kept_mk_eq]; apply kept_of) | apply kept_ite | split)

theorem kept_setKslot {z : State} (s : State) (k : Nat) (v : KSlot) (h0 : Kept z s) : Kept z (State.setKslot s k v) := by
  unfold State.setKslot
  (try dsimp only)
  repeat' with_reducible (first | assumption | (simp only [kept_mk_eq]; apply kept_of) | apply kept_ite | split)

theorem kept_setLslot {z : State} (s : State) (k : Nat) (v : LSlot) (h0 : Kept z s) : Kept z (State.setLslot s k v) := by
  unfold State.setLslot
  (try dsimp only)
  repeat' with_reducible (first | assumption | (simp only [kept_mk_eq]; apply kept_of) | apply kept_ite | split)

theorem kept_eraseKeys {z : State} (p : Nat) (s : State) (h0 : Kept z s) : Kept z (eraseKeys p s) := by
  unfold eraseKeys
  (try dsimp only)
  repeat' with_reducible (first | assumption | (simp only [kept_mk_eq]; apply kept_of) | apply kept_ite | split)

theorem kept_pushMark {z : State} (k c : Nat) (s : State) (h0 : Kept z s) : Kept z (pushMark k c s) := by
  unfold pushMark
  (try dsimp only)
  repeat' with_reducible (first | assumption | apply kept_wr | apply kept_raise | apply kept_noteTo | (simp only [kept_mk_eq]; apply kept_of) | apply kept_ite | split)

theorem kept_drawCounter {z : State} (k : Nat) (s : State) (h0 : Kept z s) : Kept z ((drawCounter k s).1) := by
  unfold drawCounter
  (try dsimp only)
  repeat' with_reducible (first | assumption | apply kept_raise | apply kept_noteTo | apply kept_setKslot | apply kept_pushMark | (simp only [kept_mk_eq]; apply kept_of) | apply kept_ite | split)

theorem kept_putStream {z : State} : ∀ (ks : List Nat) (bs : List Bool) (s : State), Kept z s → Kept z (putStream ks bs s)
  | [], _, _, h => h
  | _ :: ks, bs, _, h => kept_putStream ks (bs.drop 512) _ (kept_setCell _ _ _ h)

theorem kept_setEnt {z : State} (s : State) (e : Nat) (x : Ent) (h0 : Kept z s) : Kept z (State.setEnt s e x) := by
  unfold State.setEnt
  (try dsimp only)
  repeat' with_reducible (first | assumption | (simp only [kept_mk_eq]; apply kept_of) | apply kept_ite | split)

theorem kept_chargeAir {z : State} (p a : Nat) (s : State) (h0 : Kept z s) : Kept z (chargeAir p a s) := by
  unfold chargeAir
  (try dsimp only)
  repeat' with_reducible (first | assumption | apply kept_wr | apply kept_ite | split)

theorem kept_returnAir {z : State} (x : Ent) (s : State) (h0 : Kept z s) : Kept z (returnAir x s) := by
  unfold returnAir
  (try dsimp only)
  repeat' with_reducible (first | assumption | apply kept_wr | apply kept_ite | split)

theorem kept_reqUpdate {z : State} (s : State) (h0 : Kept z s) : Kept z (reqUpdate s) := by
  unfold reqUpdate
  (try dsimp only)
  repeat' with_reducible (first | assumption | apply kept_wr | apply kept_inc | apply kept_foldl | (intro _; (try dsimp only)) | apply kept_ite | split)

theorem kept_withdrawCoex {z : State} (e : Nat) (s : State) (h0 : Kept z s) : Kept z (withdrawCoex e s) := by
  unfold withdrawCoex
  (try dsimp only)
  repeat' with_reducible (first | assumption | apply kept_reqUpdate | (simp only [kept_mk_eq]; apply kept_of) | apply kept_ite | split)

theorem kept_startSweep {z : State} (h bad : Nat) (s : State) (h0 : Kept z s) : Kept z (startSweep h bad s) := by
  unfold startSweep
  (try dsimp only)
  repeat' with_reducible (first | assumption | apply kept_wr | apply kept_setNode | apply kept_ncPut | apply kept_endItem | apply kept_foldl | (intro _; (try dsimp only)) | (simp only [kept_mk_eq]; apply kept_of) | apply kept_ite | split)

theorem kept_readHeaders {z : State} (h : Nat) (ks : List Nat) (s : State) (h0 : Kept z s) : Kept z ((readHeaders h ks s).1) := by
  unfold readHeaders
  (try dsimp only)
  repeat' with_reducible (first | assumption | apply kept_cellParity | apply kept_startSweep | (simp only [kept_mk_eq]; apply kept_of) | apply kept_ite | split)

theorem kept_releaseEnt {z : State} (e : Nat) (s : State) (h0 : Kept z s) : Kept z (releaseEnt e s) := by
  unfold releaseEnt
  (try dsimp only)
  repeat' with_reducible (first | assumption | apply kept_freeCells | apply kept_setEnt | apply kept_withdrawCoex | (simp only [kept_mk_eq]; apply kept_of) | apply kept_ite | split)

theorem kept_vacate {z : State} (e : Nat) (s : State) (h0 : Kept z s) : Kept z (vacate e s) := by
  unfold vacate
  (try dsimp only)
  repeat' with_reducible (first | assumption | apply kept_setEnt | apply kept_releaseEnt | apply kept_ite | split)

theorem kept_backToQueue {z : State} (x : Ent) (s : State) (h0 : Kept z s) : Kept z (backToQueue x s) := by
  unfold backToQueue
  (try dsimp only)
  repeat' with_reducible (first | assumption | apply kept_returnItem | apply kept_readHeaders | (simp only [kept_mk_eq]; apply kept_of) | apply kept_ite | split)

theorem kept_burnEnt {z : State} (x : Ent) (s : State) (h0 : Kept z s) : Kept z (burnEnt x s) := by
  unfold burnEnt
  (try dsimp only)
  repeat' with_reducible (first | assumption | apply kept_inc | apply kept_ite | split)

theorem kept_streamAlloc {z : State} {x : Ent} {len : Nat} {s : State} {r : State × List Nat} (e : streamAlloc x len s = some r) (h : Kept z s) :
    Kept z r.1 := by
  unfold streamAlloc at e
  dsimp only at e
  split at e
  · cases e; exact kept_takeCells _ _ _ h
  · cases e

theorem kept_ready {z : State} (e : Nat) (x : Ent) (s : State) (h0 : Kept z s) : Kept z (ready e x s) := by
  unfold ready
  (try dsimp only)
  repeat' with_reducible (first | assumption | apply kept_putStream | apply kept_setEnt | (simp only [kept_mk_eq]; apply kept_of) | apply kept_ite | split)

theorem kept_prepPlain {z : State} (e : Nat) (s : State) (h0 : Kept z s) : Kept z (prepPlain e s) := by
  unfold prepPlain
  (try dsimp only)
  repeat' with_reducible (first | assumption | refine kept_streamAlloc (by assumption) ?_ | apply kept_ready | (simp only [kept_mk_eq]; apply kept_of) | apply kept_ite | split)

theorem kept_stageSlot {z : State} {x : Ent} {s : State} {r : State × Nat} (e : stageSlot x s = some r) (h : Kept z s) : Kept z r.1 := by
  unfold stageSlot at e
  split at e
  · cases e
    dsimp only
    repeat' with_reducible (first | assumption | apply kept_prepPlain | apply kept_setEnt | apply kept_freed | (simp only [kept_mk_eq]; apply kept_of) | split)
  · cases e

theorem kept_pendClear {z : State} (x : Ent) (s1 : State) (h0 : Kept z s1) : Kept z (pendClear x s1) := by
  unfold pendClear
  (try dsimp only)
  repeat' with_reducible (first | assumption | apply kept_inc | apply kept_freed | apply kept_raise | apply kept_ctxCheck | apply kept_chargeAir | refine kept_stageSlot (by assumption) ?_ | (simp only [kept_mk_eq]; apply kept_of) | apply kept_ite | split)

theorem kept_followUpLost {z : State} (x : Ent) (s : State) (h0 : Kept z s) : Kept z (followUpLost x s) := by
  unfold followUpLost
  (try dsimp only)
  repeat' with_reducible (first | assumption | apply kept_pendClear | apply kept_ite | split)

theorem kept_startSeq {z : State} (prog sfd fend air aend slot sample : Nat) (conds : BitVec 16) (h hc att : Option Nat) (s : State) (h0 : Kept z s) : Kept z (startSeq prog sfd fend air aend slot sample conds h hc att s) := by
  unfold startSeq
  (try dsimp only)
  repeat' with_reducible (first | assumption | (simp only [kept_mk_eq]; apply kept_of) | apply kept_ite | split)

theorem kept_followUpGone {z : State} (x : Ent) (s : State) (h0 : Kept z s) : Kept z (followUpGone x s) := by
  unfold followUpGone
  (try dsimp only)
  repeat' with_reducible (first | assumption | apply kept_followUpLost | apply kept_startSeq | apply kept_ite | split)

theorem kept_squashEnt {z : State} (cause : Nat) (s : State) (e : Nat) (h0 : Kept z s) : Kept z (squashEnt cause s e) := by
  unfold squashEnt
  (try dsimp only)
  repeat' with_reducible (first | assumption | apply kept_inc | apply kept_raise | apply kept_returnAir | apply kept_vacate | apply kept_backToQueue | apply kept_burnEnt | apply kept_followUpGone | (simp only [kept_mk_eq]; apply kept_of) | apply kept_ite | split)

theorem kept_squashSched {z : State} (cause : Nat) (s : State) (d : Sched) (h0 : Kept z s) : Kept z (squashSched cause s d) := by
  unfold squashSched
  (try dsimp only)
  repeat' with_reducible (first | assumption | apply kept_inc | apply kept_raise | apply kept_returnAir | apply kept_backToQueue | apply kept_followUpGone | (simp only [kept_mk_eq]; apply kept_of) | apply kept_ite | split)

theorem kept_unplaceFollowUp {z : State} (x : Ent) (s : State) (h0 : Kept z s) : Kept z (unplaceFollowUp x s) := by
  unfold unplaceFollowUp
  (try dsimp only)
  repeat' with_reducible (first | assumption | apply kept_returnAir | apply kept_vacate | apply kept_backToQueue | apply kept_burnEnt | apply kept_foldl | (intro _; (try dsimp only)) | (simp only [kept_mk_eq]; apply kept_of) | apply kept_ite | split)

theorem kept_squashAll {z : State} (cause : Nat) (sel : Nat → Ent → Bool) (s : State) (h0 : Kept z s) : Kept z (squashAll cause sel s) := by
  unfold squashAll
  (try dsimp only)
  repeat' with_reducible (first | assumption | apply kept_squashEnt | apply kept_squashSched | apply kept_foldl | (intro _; (try dsimp only)) | (simp only [kept_mk_eq]; apply kept_of) | apply kept_ite | split)

theorem kept_squashNode {z : State} (cause h : Nat) (s : State) (h0 : Kept z s) : Kept z (squashNode cause h s) := by
  unfold squashNode
  (try dsimp only)
  repeat' with_reducible (first | assumption | apply kept_squashAll | apply kept_ite | split)

theorem kept_squashSlot {z : State} (k : Nat) (s : State) (h0 : Kept z s) : Kept z (squashSlot k s) := by
  unfold squashSlot
  (try dsimp only)
  repeat' with_reducible (first | assumption | apply kept_squashAll | apply kept_ite | split)

theorem kept_prepareFails {z : State} (e status : Nat) (s : State) (h0 : Kept z s) : Kept z (prepareFails e status s) := by
  unfold prepareFails
  (try dsimp only)
  repeat' with_reducible (first | assumption | apply kept_inc | apply kept_raise | apply kept_endItem | apply kept_returnAir | apply kept_releaseEnt | apply kept_followUpGone | apply kept_unplaceFollowUp | (simp only [kept_mk_eq]; apply kept_of) | apply kept_ite | split)

theorem kept_countNoKey {z : State} (p : Nat) (s : State) (h0 : Kept z s) : Kept z (countNoKey p s) := by
  unfold countNoKey
  (try dsimp only)
  repeat' with_reducible (first | assumption | apply kept_inc | apply kept_ite | split)

theorem kept_counterOrder {z : State} (e k c : Nat) (s : State) (h0 : Kept z s) : Kept z (counterOrder e k c s) := by
  unfold counterOrder
  (try dsimp only)
  repeat' with_reducible (first | assumption | apply kept_squashAll | (simp only [kept_mk_eq]; apply kept_of) | apply kept_ite | split)

theorem kept_prepSecured {z : State} (e : Nat) (s : State) (h0 : Kept z s) : Kept z (prepSecured e s) := by
  unfold prepSecured
  (try dsimp only)
  repeat' with_reducible (first | assumption | apply kept_inc | apply kept_bark | apply kept_drawCounter | apply kept_setEnt | refine kept_streamAlloc (by assumption) ?_ | apply kept_prepareFails | apply kept_countNoKey | apply kept_counterOrder | (simp only [kept_mk_eq]; apply kept_of) | apply kept_ite | split)

theorem kept_prepareEnt {z : State} (e : Nat) (s : State) (h0 : Kept z s) : Kept z (prepareEnt e s) := by
  unfold prepareEnt
  (try dsimp only)
  repeat' with_reducible (first | assumption | apply kept_cellParity | apply kept_returnAir | apply kept_startSweep | apply kept_releaseEnt | apply kept_prepPlain | apply kept_prepareFails | apply kept_prepSecured | (simp only [kept_mk_eq]; apply kept_of) | apply kept_ite | split)

end Sys2Proof.Machine
end

