-- ==== Sys2Proof/Laws/KeepRadio.lean ====
section
/-! SUPPORT. What every command keeps, for the canopy, the lanes, the chains and the link: one lemma per operation. -/

set_option linter.unusedTactic false
set_option linter.unreachableTactic false
set_option linter.unusedVariables false
set_option linter.unusedSimpArgs false

namespace Sys2Proof.Machine

theorem kept_taintLanes {z : State} (s : State) (n b lo hi : Nat) (h0 : Kept z s) : Kept z (taintLanes s n b lo hi) := by
  unfold taintLanes
  (try dsimp only)
  repeat' with_reducible (first | assumption | (simp only [kept_mk_eq]; apply kept_of) | apply kept_ite | split)

theorem kept_setAtt {z : State} (n t a : Nat) (s : State) (h0 : Kept z s) : Kept z (setAtt n t a s) := by
  unfold setAtt
  (try dsimp only)
  repeat' with_reducible (first | assumption | apply kept_wr | (simp only [kept_mk_eq]; apply kept_of) | apply kept_ite | split)

theorem kept_blindCheck {z : State} (b : Nat) (s : State) (h0 : Kept z s) : Kept z (blindCheck b s) := by
  unfold blindCheck
  (try dsimp only)
  repeat' with_reducible (first | assumption | apply kept_wr | apply kept_inc | apply kept_raise | apply kept_ite | split)

theorem kept_addTaint {z : State} (n b lo hi : Nat) (s : State) (h0 : Kept z s) : Kept z (addTaint n b lo hi s) := by
  unfold addTaint
  (try dsimp only)
  repeat' with_reducible (first | assumption | apply kept_wr | apply kept_taintLanes | apply kept_blindCheck | (simp only [kept_mk_eq]; apply kept_of) | apply kept_ite | split)

theorem kept_stepTaint {z : State} (n t : Nat) (s : State) (h0 : Kept z s) : Kept z (stepTaint n t s) := by
  unfold stepTaint
  (try dsimp only)
  repeat' with_reducible (first | assumption | apply kept_addTaint | apply kept_foldl | (intro _; (try dsimp only)) | apply kept_ite | split)

theorem kept_moveAtt {z : State} (n a : Nat) (s : State) (h0 : Kept z s) : Kept z (moveAtt n a s) := by
  unfold moveAtt
  (try dsimp only)
  repeat' with_reducible (first | assumption | apply kept_setAtt | apply kept_stepTaint | apply kept_ite | split)

theorem kept_setAnt {z : State} (s : State) (n : Nat) (a : Ant) (h0 : Kept z s) : Kept z (State.setAnt s n a) := by
  unfold State.setAnt
  (try dsimp only)
  repeat' with_reducible (first | assumption | (simp only [kept_mk_eq]; apply kept_of) | apply kept_ite | split)

theorem kept_issueCand {z : State} (s : State) (t : Nat) (e : Evald) (capture : Bool) (say : PairSay) (h0 : Kept z s) : Kept z (issueCand s t e capture say) := by
  unfold issueCand
  (try dsimp only)
  repeat' with_reducible (first | assumption | apply kept_inc | apply kept_raise | apply kept_foldl | (intro _; (try dsimp only)) | (simp only [kept_mk_eq]; apply kept_of) | apply kept_ite | split)

theorem kept_detection {z : State} (t : Nat) (s : State) (e : Evald) (h0 : Kept z s) : Kept z (detection t s e) := by
  unfold detection
  (try dsimp only)
  repeat' with_reducible (first | assumption | apply kept_inc | apply kept_issueCand | (simp only [kept_mk_eq]; apply kept_of) | apply kept_ite | split)

theorem kept_markDet {z : State} (t : Nat) (s : State) (e : Evald) (h0 : Kept z s) : Kept z (markDet t s e) := by
  unfold markDet
  (try dsimp only)
  repeat' with_reducible (first | assumption | (simp only [kept_mk_eq]; apply kept_of) | apply kept_ite | split)

theorem kept_correlationStep {z : State} (b t : Nat) (obs : List PointObs) (s : State) (h0 : Kept z s) : Kept z (correlationStep b t obs s) := by
  unfold correlationStep
  (try dsimp only)
  repeat' with_reducible (first | assumption | apply kept_wr | apply kept_at_ | apply kept_detection | apply kept_markDet | apply kept_foldl | (intro _; (try dsimp only)) | apply kept_ite | split)

theorem kept_execCorrelationStep {z : State} (b t : Nat) (obs : List PointObs) (s : State) (h0 : Kept z s) : KeptO z (execCorrelationStep b t obs s) := by
  unfold execCorrelationStep
  (try dsimp only)
  repeat' with_reducible (first | assumption | apply keptO_next | apply keptO_ranged | apply keptO_fault | apply kept_ranged | apply kept_correlationStep | apply kept_ite | split)

theorem kept_noiseRestart {z : State} (ps : List Nat) (s : State) (h0 : Kept z s) : Kept z (noiseRestart ps s) := by
  unfold noiseRestart
  (try dsimp only)
  repeat' with_reducible (first | assumption | apply kept_foldl | (intro _; (try dsimp only)) | (simp only [kept_mk_eq]; apply kept_of) | apply kept_ite | split)

theorem kept_noiseUpdate {z : State} (b t : Nat) (s : State) (o : NoiseObs) (h0 : Kept z s) : Kept z (noiseUpdate b t s o) := by
  unfold noiseUpdate
  (try dsimp only)
  repeat' with_reducible (first | assumption | apply kept_wr | (simp only [kept_mk_eq]; apply kept_of) | apply kept_ite | split)

theorem kept_noiseBlock {z : State} (b t : Nat) (obs : List NoiseObs) (s : State) (h0 : Kept z s) : Kept z (noiseBlock b t obs s) := by
  unfold noiseBlock
  (try dsimp only)
  repeat' with_reducible (first | assumption | apply kept_at_ | apply kept_noiseUpdate | apply kept_foldl | (intro _; (try dsimp only)) | apply kept_ite | split)

theorem kept_execNoiseBlock {z : State} (b t : Nat) (obs : List NoiseObs) (s : State) (h0 : Kept z s) : KeptO z (execNoiseBlock b t obs s) := by
  unfold execNoiseBlock
  (try dsimp only)
  repeat' with_reducible (first | assumption | apply keptO_next | apply keptO_ranged | apply keptO_fault | apply kept_ranged | apply kept_noiseBlock | apply kept_ite | split)

theorem kept_radioRuns {z : State} (s : State) (h0 : Kept z s) : Kept z (radioRuns s) := by
  unfold radioRuns
  (try dsimp only)
  repeat' with_reducible (first | assumption | (simp only [kept_mk_eq]; apply kept_of) | apply kept_ite | split)

theorem kept_routineStep {z : State} (n : Nat) (peak mean : Int) (s0 : State) (h0 : Kept z s0) : Kept z (routineStep n peak mean s0) := by
  unfold routineStep
  (try dsimp only)
  repeat' with_reducible (first | assumption | apply kept_wr | apply kept_at_ | apply kept_moveAtt | apply kept_setAnt | (simp only [kept_mk_eq]; apply kept_of) | apply kept_ite | split)

theorem kept_execRoutineStep {z : State} (n : Nat) (peak mean : Int) (s : State) (h0 : Kept z s) : KeptO z (execRoutineStep n peak mean s) := by
  unfold execRoutineStep
  (try dsimp only)
  repeat' with_reducible (first | assumption | apply keptO_next | apply keptO_ranged | apply keptO_fault | apply kept_ranged | apply kept_routineStep | apply kept_ite | split)

theorem kept_overRange {z : State} (n t samples : Nat) (s0 : State) (h0 : Kept z s0) : Kept z (overRange n t samples s0) := by
  unfold overRange
  (try dsimp only)
  repeat' with_reducible (first | assumption | apply kept_wr | apply kept_incBy | apply kept_inc | apply kept_raise | apply kept_at_ | apply kept_addTaint | apply kept_setAnt | apply kept_foldl | (intro _; (try dsimp only)) | (simp only [kept_mk_eq]; apply kept_of) | apply kept_ite | split)

theorem kept_execOverRange {z : State} (n t samples : Nat) (s : State) (h0 : Kept z s) : KeptO z (execOverRange n t samples s) := by
  unfold execOverRange
  (try dsimp only)
  repeat' with_reducible (first | assumption | apply keptO_next | apply keptO_ranged | apply keptO_fault | apply kept_ranged | apply kept_overRange | apply kept_ite | split)

theorem kept_forcedStep {z : State} (n : Nat) (s0 : State) (h0 : Kept z s0) : Kept z (forcedStep n s0) := by
  unfold forcedStep
  (try dsimp only)
  repeat' with_reducible (first | assumption | apply kept_wr | apply kept_inc | apply kept_raise | apply kept_at_ | apply kept_setAtt | apply kept_stepTaint | apply kept_setAnt | (simp only [kept_mk_eq]; apply kept_of) | apply kept_ite | split)

theorem kept_execForcedStep {z : State} (n : Nat) (s : State) (h0 : Kept z s) : KeptO z (execForcedStep n s) := by
  unfold execForcedStep
  (try dsimp only)
  repeat' with_reducible (first | assumption | apply keptO_next | apply keptO_ranged | apply keptO_fault | apply kept_ranged | apply kept_forcedStep | apply kept_ite | split)

theorem kept_overRangeEnd {z : State} (n : Nat) (s : State) (h0 : Kept z s) : Kept z (overRangeEnd n s) := by
  unfold overRangeEnd
  (try dsimp only)
  repeat' with_reducible (first | assumption | apply kept_at_ | apply kept_setAnt | (simp only [kept_mk_eq]; apply kept_of) | apply kept_ite | split)

theorem kept_execOverRangeEpisodeEnd {z : State} (n : Nat) (s : State) (h0 : Kept z s) : KeptO z (execOverRangeEpisodeEnd n s) := by
  unfold execOverRangeEpisodeEnd
  (try dsimp only)
  repeat' with_reducible (first | assumption | apply keptO_next | apply keptO_ranged | apply keptO_fault | apply kept_ranged | apply kept_overRangeEnd | apply kept_ite | split)

theorem kept_rescale {z : State} (n b : Nat) (s : State) (h0 : Kept z s) : Kept z (rescale n b s) := by
  unfold rescale
  (try dsimp only)
  repeat' with_reducible (first | assumption | (simp only [kept_mk_eq]; apply kept_of) | apply kept_ite | split)

theorem kept_taintEnd {z : State} (n b : Nat) (s0 : State) (h0 : Kept z s0) : Kept z (taintEnd n b s0) := by
  unfold taintEnd
  (try dsimp only)
  repeat' with_reducible (first | assumption | apply kept_wr | apply kept_at_ | apply kept_blindCheck | apply kept_rescale | (simp only [kept_mk_eq]; apply kept_of) | apply kept_ite | split)

theorem kept_execTaintEnd {z : State} (n b : Nat) (s : State) (h0 : Kept z s) : KeptO z (execTaintEnd n b s) := by
  unfold execTaintEnd
  (try dsimp only)
  repeat' with_reducible (first | assumption | apply keptO_next | apply keptO_ranged | apply keptO_fault | apply kept_ranged | apply kept_taintEnd | apply kept_ite | split)

theorem kept_capPut {z : State} (n i : Nat) (v : Int × Int) (s : State) (h0 : Kept z s) : Kept z (capPut n i v s) := by
  unfold capPut
  (try dsimp only)
  repeat' with_reducible (first | assumption | apply kept_setReg | apply kept_ite | split)

theorem kept_capFill {z : State} : ∀ (l : List (Int × Int)) (k n0 : Nat) (s : State), Kept z s → Kept z (capFill l k n0 s)
  | [], _, _, _, h => h
  | _ :: vs, k, n0, _, h => kept_capFill vs (k + 1) n0 _ (kept_capPut _ _ _ _ h)

theorem kept_capCut {z : State} (w : Nat) (s : State) (h0 : Kept z s) : Kept z (capCut w s) := by
  unfold capCut
  (try dsimp only)
  repeat' with_reducible (first | assumption | (simp only [kept_mk_eq]; apply kept_of) | apply kept_ite | split)

theorem kept_capBlank {z : State} (w : Nat) (s : State) (h : Kept z s) : Kept z (capBlank w s) :=
  ⟨h.1, sdrop_swf regReset s.regs _ _ h.2.1, h.2.2⟩

theorem kept_capLeave {z : State} (s : State) (h0 : Kept z s) : Kept z (capLeave s) := by
  unfold capLeave
  (try dsimp only)
  repeat' with_reducible (first | assumption | apply kept_freed | apply kept_capCut | (simp only [kept_mk_eq]; apply kept_of) | apply kept_ite | split)

theorem kept_capAbort {z : State} (cause : Nat) (s : State) (h0 : Kept z s) : Kept z (capAbort cause s) := by
  unfold capAbort
  (try dsimp only)
  repeat' with_reducible (first | assumption | apply kept_wr | apply kept_raise | apply kept_returnLeave | apply kept_capLeave | apply kept_ite | split)

theorem kept_antJoin {z : State} (s : State) (n : Nat) (h0 : Kept z s) : Kept z (antJoin s n) := by
  unfold antJoin
  (try dsimp only)
  repeat' with_reducible (first | assumption | apply kept_addTaint | apply kept_foldl | (intro _; (try dsimp only)) | (simp only [kept_mk_eq]; apply kept_of) | apply kept_ite | split)

theorem kept_antLeave {z : State} (s : State) (n : Nat) (h0 : Kept z s) : Kept z (antLeave s n) := by
  unfold antLeave
  (try dsimp only)
  repeat' with_reducible (first | assumption | apply kept_capAbort | (simp only [kept_mk_eq]; apply kept_of) | apply kept_ite | split)

theorem kept_antChange {z : State} (old : List Nat) (s : State) (h0 : Kept z s) : Kept z (antChange old s) := by
  unfold antChange
  (try dsimp only)
  repeat' with_reducible (first | assumption | apply kept_blindCheck | apply kept_antJoin | apply kept_antLeave | apply kept_foldl | (intro _; (try dsimp only)) | apply kept_ite | split)

theorem kept_execAntennaEnableWrite {z : State} (f : Fn) (v : Word) (s : State) (h0 : Kept z s) : KeptO z (execAntennaEnableWrite f v s) := by
  unfold execAntennaEnableWrite
  (try dsimp only)
  repeat' with_reducible (first | assumption | apply keptO_next | apply keptO_ranged | apply keptO_fault | apply kept_wr | apply kept_p0Only | apply kept_antChange | apply kept_ite | split)

theorem kept_enterManual {z : State} (n : Nat) (s : State) (h0 : Kept z s) : Kept z (enterManual n s) := by
  unfold enterManual
  (try dsimp only)
  repeat' with_reducible (first | assumption | apply kept_setAnt | (simp only [kept_mk_eq]; apply kept_of) | apply kept_ite | split)

theorem kept_execManAttWrite {z : State} (f : Fn) (n v : Nat) (s : State) (h0 : Kept z s) : KeptO z (execManAttWrite f n v s) := by
  unfold execManAttWrite
  (try dsimp only)
  repeat' with_reducible (first | assumption | apply keptO_next | apply keptO_ranged | apply keptO_fault | apply kept_ranged | apply kept_wr | apply kept_p0Only | apply kept_moveAtt | apply kept_ite | split)

theorem kept_execAttLimWrite {z : State} (f : Fn) (n mn mx : Nat) (s : State) (h0 : Kept z s) : KeptO z (execAttLimWrite f n mn mx s) := by
  unfold execAttLimWrite
  (try dsimp only)
  repeat' with_reducible (first | assumption | apply keptO_next | apply keptO_ranged | apply keptO_fault | apply kept_ranged | apply kept_wr | apply kept_p0Only | apply kept_moveAtt | apply kept_ite | split)

theorem kept_execTrimWrite {z : State} (f : Fn) (n v : Nat) (s : State) (h0 : Kept z s) : KeptO z (execTrimWrite f n v s) := by
  unfold execTrimWrite
  (try dsimp only)
  repeat' with_reducible (first | assumption | apply keptO_next | apply keptO_ranged | apply keptO_fault | apply kept_ranged | apply kept_wr | apply kept_p0Only | apply kept_stepTaint | apply kept_ite | split)

theorem kept_execCnpCntClrBlock {z : State} (f : Fn) (s : State) (h0 : Kept z s) : KeptO z (execCnpCntClrBlock f s) := by
  unfold execCnpCntClrBlock
  (try dsimp only)
  repeat' with_reducible (first | assumption | apply keptO_next | apply keptO_ranged | apply keptO_fault | apply kept_zero | apply kept_p0Only | apply kept_ite | split)

theorem kept_execCnpCntClrPoints {z : State} (f : Fn) (s : State) (h : Kept z s) : KeptO z (execCnpCntClrPoints f s) := by
  unfold execCnpCntClrPoints
  refine keptO_next (kept_p0Only _ _ _ _ h ?_)
  exact ⟨h.1, sdrop_swf _ _ _ _ h.2.1, h.2.2⟩

theorem kept_execCnpCntClrAnt {z : State} (f : Fn) (s : State) (h0 : Kept z s) : KeptO z (execCnpCntClrAnt f s) := by
  unfold execCnpCntClrAnt
  (try dsimp only)
  repeat' with_reducible (first | assumption | apply keptO_next | apply keptO_ranged | apply keptO_fault | apply kept_zero | apply kept_p0Only | apply kept_ite | split)

theorem kept_capArm {z : State} (s : State) (h0 : Kept z s) : Kept z (capArm s) := by
  unfold capArm
  (try dsimp only)
  repeat' with_reducible (first | assumption | apply kept_wr | apply kept_raise | apply kept_askLeave | (simp only [kept_mk_eq]; apply kept_of) | apply kept_ite | split)

theorem kept_execArm {z : State} (f : Fn) (s : State) (h0 : Kept z s) : KeptO z (execArm f s) := by
  unfold execArm
  (try dsimp only)
  repeat' with_reducible (first | assumption | apply keptO_next | apply keptO_ranged | apply keptO_fault | apply kept_p0Only | apply kept_capArm | apply kept_ite | split)

theorem kept_capFire {z : State} (t : Nat) (s : State) (h0 : Kept z s) : Kept z (capFire t s) := by
  unfold capFire
  (try dsimp only)
  repeat' with_reducible (first | assumption | apply kept_wr | (simp only [kept_mk_eq]; apply kept_of) | apply kept_ite | split)

theorem kept_capGranted {z : State} (s : State) (h0 : Kept z s) : Kept z (capGranted s) := by
  unfold capGranted
  (try dsimp only)
  repeat' with_reducible (first | assumption | apply kept_wr | apply kept_capFire | (simp only [kept_mk_eq]; apply kept_of) | apply kept_ite | split)

theorem kept_execCaptureAbort {z : State} (f : Fn) (s : State) (h0 : Kept z s) : KeptO z (execCaptureAbort f s) := by
  unfold execCaptureAbort
  (try dsimp only)
  repeat' with_reducible (first | assumption | apply keptO_next | apply keptO_ranged | apply keptO_fault | apply kept_p0Only | apply kept_capAbort | apply kept_ite | split)

theorem kept_capForce {z : State} (s : State) (h0 : Kept z s) : Kept z (capForce s) := by
  unfold capForce
  (try dsimp only)
  repeat' with_reducible (first | assumption | apply kept_capFire | apply kept_ite | split)

theorem kept_execForceTrig {z : State} (f : Fn) (s : State) (h0 : Kept z s) : KeptO z (execForceTrig f s) := by
  unfold execForceTrig
  (try dsimp only)
  repeat' with_reducible (first | assumption | apply keptO_next | apply keptO_ranged | apply keptO_fault | apply kept_p0Only | apply kept_capForce | apply kept_ite | split)

theorem kept_capTrigger {z : State} (s : State) (h0 : Kept z s) : Kept z (capTrigger s) := by
  unfold capTrigger
  (try dsimp only)
  repeat' with_reducible (first | assumption | apply kept_at_ | apply kept_capFire | (simp only [kept_mk_eq]; apply kept_of) | apply kept_ite | split)

theorem kept_execCaptureTrigger {z : State} (s : State) (h0 : Kept z s) : KeptO z (execCaptureTrigger s) := by
  unfold execCaptureTrigger
  (try dsimp only)
  repeat' with_reducible (first | assumption | apply keptO_next | apply keptO_ranged | apply keptO_fault | apply kept_capTrigger | apply kept_ite | split)

theorem kept_captureDone {z : State} (air : List (Int × Int)) (s0 : State) (h0 : Kept z s0) : Kept z (captureDone air s0) := by
  unfold captureDone
  (try dsimp only)
  repeat' with_reducible (first | assumption | apply kept_wr | apply kept_wr64 | apply kept_raise | apply kept_at_ | apply kept_returnLeave | apply kept_capFill | apply kept_capCut | apply kept_capBlank | apply kept_ite | split)

theorem kept_execCaptureDone {z : State} (air : List (Int × Int)) (s : State) (h0 : Kept z s) : KeptO z (execCaptureDone air s) := by
  unfold execCaptureDone
  (try dsimp only)
  repeat' with_reducible (first | assumption | apply keptO_next | apply keptO_ranged | apply keptO_fault | apply kept_captureDone | apply kept_ite | split)

theorem kept_classesBack {z : State} (old : Nat → Bool) (s : State) (h0 : Kept z s) : Kept z (classesBack old s) := by
  unfold classesBack
  (try dsimp only)
  repeat' with_reducible (first | assumption | apply kept_foldl | (intro _; (try dsimp only)) | (simp only [kept_mk_eq]; apply kept_of) | apply kept_ite | split)

theorem kept_restChain {z : State} (n : Nat) (s : State) (h0 : Kept z s) : Kept z (restChain n s) := by
  unfold restChain
  (try dsimp only)
  repeat' with_reducible (first | assumption | apply kept_wr | apply kept_ite | split)

theorem kept_restChains {z : State} (s : State) (h0 : Kept z s) : Kept z (restChains s) := by
  unfold restChains
  (try dsimp only)
  repeat' with_reducible (first | assumption | apply kept_restChain | apply kept_foldl | (intro _; (try dsimp only)) | apply kept_ite | split)

theorem kept_enterState {z : State} (k : Nat) (s : State) (h0 : Kept z s) : Kept z (enterState k s) := by
  unfold enterState
  (try dsimp only)
  repeat' with_reducible (first | assumption | apply kept_wr | apply kept_antChange | apply kept_classesBack | apply kept_restChains | apply kept_ite | split)

theorem kept_pwrEnd {z : State} (status : Nat) (s : State) (h0 : Kept z s) : Kept z (pwrEnd status s) := by
  unfold pwrEnd
  (try dsimp only)
  repeat' with_reducible (first | assumption | apply kept_wr | apply kept_raise | (simp only [kept_mk_eq]; apply kept_of) | apply kept_ite | split)

theorem kept_pwrGiveUp {z : State} (status : Nat) (s : State) (h0 : Kept z s) : Kept z (pwrGiveUp status s) := by
  unfold pwrGiveUp
  (try dsimp only)
  repeat' with_reducible (first | assumption | apply kept_wr | apply kept_pwrEnd | apply kept_ite | split)

theorem kept_watchSettled {z : State} (s : State) (h0 : Kept z s) : Kept z (watchSettled s) := by
  unfold watchSettled
  (try dsimp only)
  repeat' with_reducible (first | assumption | apply kept_enterState | apply kept_pwrEnd | apply kept_ite | split)

theorem kept_wakeFire {z : State} (src : Nat) (s : State) (h0 : Kept z s) : Kept z (wakeFire src s) := by
  unfold wakeFire
  (try dsimp only)
  repeat' with_reducible (first | assumption | apply kept_wr | apply kept_raise | apply kept_enterState | apply kept_pwrGiveUp | (simp only [kept_mk_eq]; apply kept_of) | apply kept_ite | split)

theorem kept_payloadMissed {z : State} (x : Ent) (s : State) (h0 : Kept z s) : Kept z (payloadMissed x s) := by
  unfold payloadMissed
  (try dsimp only)
  repeat' with_reducible (first | assumption | apply kept_inc | apply kept_unlinkItem | apply kept_endItem | (simp only [kept_mk_eq]; apply kept_of) | apply kept_ite | split)

theorem kept_withdrawPayload {z : State} (x : Ent) (s : State) (h0 : Kept z s) : Kept z (withdrawPayload x s) := by
  unfold withdrawPayload
  (try dsimp only)
  repeat' with_reducible (first | assumption | apply kept_returnAir | apply kept_vacate | apply kept_backToQueue | apply kept_burnEnt | apply kept_foldl | (intro _; (try dsimp only)) | (simp only [kept_mk_eq]; apply kept_of) | apply kept_ite | split)

theorem kept_missTail {z : State} (x : Ent) (cause : Nat) (s : State) (h0 : Kept z s) : Kept z (missTail x cause s) := by
  unfold missTail
  (try dsimp only)
  repeat' with_reducible (first | assumption | apply kept_inc | apply kept_raise | apply kept_backToQueue | apply kept_followUpGone | apply kept_unplaceFollowUp | apply kept_payloadMissed | apply kept_withdrawPayload | (simp only [kept_mk_eq]; apply kept_of) | apply kept_ite | split)

theorem kept_missEnt {z : State} (e cause : Nat) (s : State) (h0 : Kept z s) : Kept z (missEnt e cause s) := by
  unfold missEnt
  (try dsimp only)
  repeat' with_reducible (first | assumption | apply kept_wr | apply kept_returnAir | apply kept_vacate | apply kept_burnEnt | apply kept_missTail | apply kept_ite | split)

theorem kept_scheduleItem {z : State} (s : State) (h0 : Kept z s) : Kept z (scheduleItem s) := by
  unfold scheduleItem
  (try dsimp only)
  repeat' with_reducible (first | assumption | apply kept_freed | apply kept_raise | apply kept_setEnt | apply kept_returnAir | apply kept_missTail | (simp only [kept_mk_eq]; apply kept_of) | apply kept_ite | split)

theorem kept_execScheduleItem {z : State} (s : State) (h0 : Kept z s) : KeptO z (execScheduleItem s) := by
  unfold execScheduleItem
  (try dsimp only)
  repeat' with_reducible (first | assumption | apply keptO_next | apply keptO_ranged | apply keptO_fault | apply kept_scheduleItem | apply kept_ite | split)

theorem kept_prepare {z : State} (e : Nat) (s0 : State) (h0 : Kept z s0) : Kept z (prepare e s0) := by
  unfold prepare
  (try dsimp only)
  repeat' with_reducible (first | assumption | apply kept_at_ | apply kept_prepareEnt | apply kept_ite | split)

theorem kept_execPrepare {z : State} (e : Nat) (s : State) (h0 : Kept z s) : KeptO z (execPrepare e s) := by
  unfold execPrepare
  (try dsimp only)
  repeat' with_reducible (first | assumption | apply keptO_next | apply keptO_ranged | apply keptO_fault | apply kept_ranged | apply kept_prepare | apply kept_ite | split)

theorem kept_encryptResult {z : State} (e : Nat) (s : State) (h0 : Kept z s) : Kept z (encryptResult e s) := by
  unfold encryptResult
  (try dsimp only)
  repeat' with_reducible (first | assumption | apply kept_inc | apply kept_setEnt | apply kept_ready | (simp only [kept_mk_eq]; apply kept_of) | apply kept_ite | split)

theorem kept_execEncryptResult {z : State} (e : Nat) (s : State) (h0 : Kept z s) : KeptO z (execEncryptResult e s) := by
  unfold execEncryptResult
  (try dsimp only)
  repeat' with_reducible (first | assumption | apply keptO_next | apply keptO_ranged | apply keptO_fault | apply kept_ranged | apply kept_encryptResult | apply kept_ite | split)

theorem kept_priming {z : State} (e : Nat) (s0 : State) (h0 : Kept z s0) : Kept z (priming e s0) := by
  unfold priming
  (try dsimp only)
  repeat' with_reducible (first | assumption | apply kept_at_ | apply kept_setEnt | (simp only [kept_mk_eq]; apply kept_of) | apply kept_ite | split)

theorem kept_execPriming {z : State} (e : Nat) (s : State) (h0 : Kept z s) : KeptO z (execPriming e s) := by
  unfold execPriming
  (try dsimp only)
  repeat' with_reducible (first | assumption | apply keptO_next | apply keptO_ranged | apply keptO_fault | apply kept_ranged | apply kept_priming | apply kept_ite | split)

theorem kept_primed {z : State} (e : Nat) (s : State) (h0 : Kept z s) : Kept z (primed e s) := by
  unfold primed
  (try dsimp only)
  repeat' with_reducible (first | assumption | apply kept_setEnt | (simp only [kept_mk_eq]; apply kept_of) | apply kept_ite | split)

theorem kept_execPrimed {z : State} (e : Nat) (s : State) (h0 : Kept z s) : KeptO z (execPrimed e s) := by
  unfold execPrimed
  (try dsimp only)
  repeat' with_reducible (first | assumption | apply keptO_next | apply keptO_ranged | apply keptO_fault | apply kept_ranged | apply kept_primed | apply kept_ite | split)

theorem kept_coexRequest {z : State} (e : Nat) (s0 : State) (h0 : Kept z s0) : Kept z (coexRequest e s0) := by
  unfold coexRequest
  (try dsimp only)
  repeat' with_reducible (first | assumption | apply kept_at_ | apply kept_reqUpdate | apply kept_foldl | (intro _; (try dsimp only)) | (simp only [kept_mk_eq]; apply kept_of) | apply kept_ite | split)

theorem kept_execCoexRequest {z : State} (e : Nat) (s : State) (h0 : Kept z s) : KeptO z (execCoexRequest e s) := by
  unfold execCoexRequest
  (try dsimp only)
  repeat' with_reducible (first | assumption | apply keptO_next | apply keptO_ranged | apply keptO_fault | apply kept_ranged | apply kept_coexRequest | apply kept_ite | split)

theorem kept_sampleGrants {z : State} (gnt : Nat) (s : State) (h0 : Kept z s) : Kept z (sampleGrants gnt s) := by
  unfold sampleGrants
  (try dsimp only)
  repeat' with_reducible (first | assumption | apply kept_wr | apply kept_foldl | (intro _; (try dsimp only)) | apply kept_ite | split)

theorem kept_grantSample {z : State} (e gnt : Nat) (s0 : State) (h0 : Kept z s0) : Kept z (grantSample e gnt s0) := by
  unfold grantSample
  (try dsimp only)
  repeat' with_reducible (first | assumption | apply kept_inc | apply kept_at_ | apply kept_missEnt | apply kept_sampleGrants | apply kept_foldl | (intro _; (try dsimp only)) | apply kept_ite | split)

theorem kept_execGrantSample {z : State} (e gnt : Nat) (s : State) (h0 : Kept z s) : KeptO z (execGrantSample e gnt s) := by
  unfold execGrantSample
  (try dsimp only)
  repeat' with_reducible (first | assumption | apply keptO_next | apply keptO_ranged | apply keptO_fault | apply kept_ranged | apply kept_grantSample | apply kept_ite | split)

theorem kept_gntDrop {z : State} (e k : Nat) (s : State) (h0 : Kept z s) : Kept z (gntDrop e k s) := by
  unfold gntDrop
  (try dsimp only)
  repeat' with_reducible (first | assumption | apply kept_wr | apply kept_inc | apply kept_raise | apply kept_ite | split)

theorem kept_execGntDrop {z : State} (e k : Nat) (s : State) (h0 : Kept z s) : KeptO z (execGntDrop e k s) := by
  unfold execGntDrop
  (try dsimp only)
  repeat' with_reducible (first | assumption | apply keptO_next | apply keptO_ranged | apply keptO_fault | apply kept_ranged | apply kept_gntDrop | apply kept_ite | split)

theorem kept_coexRelease {z : State} (k : Nat) (s0 : State) (h0 : Kept z s0) : Kept z (coexRelease k s0) := by
  unfold coexRelease
  (try dsimp only)
  repeat' with_reducible (first | assumption | apply kept_at_ | apply kept_reqUpdate | apply kept_foldl | (intro _; (try dsimp only)) | (simp only [kept_mk_eq]; apply kept_of) | apply kept_ite | split)

theorem kept_execCoexRelease {z : State} (k : Nat) (s : State) (h0 : Kept z s) : KeptO z (execCoexRelease k s) := by
  unfold execCoexRelease
  (try dsimp only)
  repeat' with_reducible (first | assumption | apply keptO_next | apply keptO_ranged | apply keptO_fault | apply kept_ranged | apply kept_coexRelease | apply kept_ite | split)

theorem kept_openTxEn {z : State} (e : Nat) (x : Ent) (s : State) (h0 : Kept z s) : Kept z (openTxEn e x s) := by
  unfold openTxEn
  (try dsimp only)
  repeat' with_reducible (first | assumption | (simp only [kept_mk_eq]; apply kept_of) | apply kept_ite | split)

theorem kept_cutTxEn {z : State} (e : Nat) (x : Ent) (t : Nat) (s : State) (h0 : Kept z s) : Kept z (cutTxEn e x t s) := by
  unfold cutTxEn
  (try dsimp only)
  repeat' with_reducible (first | assumption | (simp only [kept_mk_eq]; apply kept_of) | apply kept_ite | split)

theorem kept_commitPass {z : State} (e m : Nat) (s : State) (h0 : Kept z s) : Kept z (commitPass e m s) := by
  unfold commitPass
  (try dsimp only)
  repeat' with_reducible (first | assumption | apply kept_wr | apply kept_inc | apply kept_freed | apply kept_setEnt | apply kept_openTxEn | (simp only [kept_mk_eq]; apply kept_of) | apply kept_ite | split)

theorem kept_commitChecks {z : State} (e : Nat) (s : State) (h0 : Kept z s) : Kept z (commitChecks e s) := by
  unfold commitChecks
  (try dsimp only)
  repeat' with_reducible (first | assumption | apply kept_commitLeave | apply kept_missEnt | apply kept_commitPass | (simp only [kept_mk_eq]; apply kept_of) | apply kept_ite | split)

theorem kept_commit {z : State} (e : Nat) (s0 : State) (h0 : Kept z s0) : Kept z (commit e s0) := by
  unfold commit
  (try dsimp only)
  repeat' with_reducible (first | assumption | apply kept_at_ | apply kept_commitChecks | apply kept_ite | split)

theorem kept_execCommit {z : State} (e : Nat) (s : State) (h0 : Kept z s) : KeptO z (execCommit e s) := by
  unfold execCommit
  (try dsimp only)
  repeat' with_reducible (first | assumption | apply keptO_next | apply keptO_ranged | apply keptO_fault | apply kept_ranged | apply kept_commit | apply kept_ite | split)

theorem kept_countAttempt {z : State} (hc air : Nat) (s : State) (h0 : Kept z s) : Kept z (countAttempt hc air s) := by
  unfold countAttempt
  (try dsimp only)
  repeat' with_reducible (first | assumption | apply kept_ihPut | (simp only [kept_mk_eq]; apply kept_of) | apply kept_ite | split)

theorem kept_rampUp {z : State} (e : Nat) (s0 : State) (h0 : Kept z s0) : Kept z (rampUp e s0) := by
  unfold rampUp
  (try dsimp only)
  repeat' with_reducible (first | assumption | apply kept_wr | apply kept_inc | apply kept_post | apply kept_at_ | apply kept_setEnt | apply kept_countAttempt | (simp only [kept_mk_eq]; apply kept_of) | apply kept_ite | split)

theorem kept_execRampUp {z : State} (e : Nat) (s : State) (h0 : Kept z s) : KeptO z (execRampUp e s) := by
  unfold execRampUp
  (try dsimp only)
  repeat' with_reducible (first | assumption | apply keptO_next | apply keptO_ranged | apply keptO_fault | apply kept_ranged | apply kept_rampUp | apply kept_ite | split)

theorem kept_dropCarrier {z : State} (e : Nat) (s : State) (h0 : Kept z s) : Kept z (dropCarrier e s) := by
  unfold dropCarrier
  (try dsimp only)
  repeat' with_reducible (first | assumption | apply kept_returnLeave | apply kept_watchSettled | (simp only [kept_mk_eq]; apply kept_of) | apply kept_ite | split)

theorem kept_holdCoex {z : State} (e stop : Nat) (s : State) (h0 : Kept z s) : Kept z (holdCoex e stop s) := by
  unfold holdCoex
  (try dsimp only)
  repeat' with_reducible (first | assumption | (simp only [kept_mk_eq]; apply kept_of) | apply kept_ite | split)

theorem kept_openWait {z : State} (e : Nat) (x : Ent) (h : Nat) (s : State) (h0 : Kept z s) : Kept z (openWait e x h s) := by
  unfold openWait
  (try dsimp only)
  repeat' with_reducible (first | assumption | (simp only [kept_mk_eq]; apply kept_of) | apply kept_ite | split)

theorem kept_ackSent {z : State} (x : Ent) (s0 : State) (h0 : Kept z s0) : Kept z (ackSent x s0) := by
  unfold ackSent
  (try dsimp only)
  repeat' with_reducible (first | assumption | apply kept_ctxCheck | apply kept_pendClear | (simp only [kept_mk_eq]; apply kept_of) | apply kept_ite | split)

theorem kept_faultEnd {z : State} (e stop : Nat) (x : Ent) (s : State) (h0 : Kept z s) : Kept z (faultEnd e stop x s) := by
  unfold faultEnd
  (try dsimp only)
  repeat' with_reducible (first | assumption | apply kept_inc | apply kept_dropItem | apply kept_releaseEnt | apply kept_backToQueue | apply kept_unplaceFollowUp | apply kept_withdrawPayload | apply kept_dropCarrier | apply kept_holdCoex | (simp only [kept_mk_eq]; apply kept_of) | apply kept_ite | split)

theorem kept_burnGone {z : State} (x : Ent) (s : State) (h0 : Kept z s) : Kept z (burnGone x s) := by
  unfold burnGone
  (try dsimp only)
  repeat' with_reducible (first | assumption | apply kept_inc | apply kept_ite | split)

theorem kept_frameSent {z : State} (e : Nat) (x : Ent) (s : State) (h0 : Kept z s) : Kept z (frameSent e x s) := by
  unfold frameSent
  (try dsimp only)
  repeat' with_reducible (first | assumption | apply kept_endItem | apply kept_dropItem | apply kept_setEnt | apply kept_releaseEnt | apply kept_startSeq | apply kept_dropCarrier | apply kept_holdCoex | apply kept_openWait | apply kept_ackSent | apply kept_burnGone | (simp only [kept_mk_eq]; apply kept_of) | apply kept_ite | split)

theorem kept_rampDownEnd {z : State} (e : Nat) (s0 : State) (h0 : Kept z s0) : Kept z (rampDownEnd e s0) := by
  unfold rampDownEnd
  (try dsimp only)
  repeat' with_reducible (first | assumption | apply kept_at_ | apply kept_faultEnd | apply kept_frameSent | (simp only [kept_mk_eq]; apply kept_of) | apply kept_ite | split)

theorem kept_execRampDownEnd {z : State} (e : Nat) (s : State) (h0 : Kept z s) : KeptO z (execRampDownEnd e s) := by
  unfold execRampDownEnd
  (try dsimp only)
  repeat' with_reducible (first | assumption | apply keptO_next | apply keptO_ranged | apply keptO_fault | apply kept_ranged | apply kept_rampDownEnd | apply kept_ite | split)

theorem kept_chainEnable {z : State} (n : Nat) (s : State) (h0 : Kept z s) : Kept z (chainEnable n s) := by
  unfold chainEnable
  (try dsimp only)
  repeat' with_reducible (first | assumption | apply kept_restChain | apply kept_ite | split)

theorem kept_chainIdle {z : State} (n : Nat) (s0 : State) (h0 : Kept z s0) : Kept z (chainIdle n s0) := by
  unfold chainIdle
  (try dsimp only)
  repeat' with_reducible (first | assumption | apply kept_at_ | apply kept_returnLeave | apply kept_restChain | (simp only [kept_mk_eq]; apply kept_of) | apply kept_ite | split)

theorem kept_execChainIdle {z : State} (n : Nat) (s : State) (h0 : Kept z s) : KeptO z (execChainIdle n s) := by
  unfold execChainIdle
  (try dsimp only)
  repeat' with_reducible (first | assumption | apply keptO_next | apply keptO_ranged | apply keptO_fault | apply kept_ranged | apply kept_chainIdle | apply kept_ite | split)

theorem kept_faultCarrier {z : State} (s : State) (e : Nat) (h0 : Kept z s) : Kept z (faultCarrier s e) := by
  unfold faultCarrier
  (try dsimp only)
  repeat' with_reducible (first | assumption | apply kept_inc | apply kept_raise | apply kept_setEnt | apply kept_cutTxEn | (simp only [kept_mk_eq]; apply kept_of) | apply kept_ite | split)

theorem kept_faultChain {z : State} (n cause : Nat) (s : State) (h0 : Kept z s) : Kept z (faultChain n cause s) := by
  unfold faultChain
  (try dsimp only)
  repeat' with_reducible (first | assumption | apply kept_wr | apply kept_faultCarrier | apply kept_foldl | (intro _; (try dsimp only)) | apply kept_ite | split)

theorem kept_execKill {z : State} (f : Fn) (n : Nat) (s : State) (h0 : Kept z s) : KeptO z (execKill f n s) := by
  unfold execKill
  (try dsimp only)
  repeat' with_reducible (first | assumption | apply keptO_next | apply keptO_ranged | apply keptO_fault | apply kept_ranged | apply kept_p0Only | apply kept_faultChain | apply kept_ite | split)

theorem kept_chainFaultEvent {z : State} (n : Nat) (s : State) (h0 : Kept z s) : Kept z (chainFaultEvent n s) := by
  unfold chainFaultEvent
  (try dsimp only)
  repeat' with_reducible (first | assumption | apply kept_faultChain | (simp only [kept_mk_eq]; apply kept_of) | apply kept_ite | split)

theorem kept_execChainFaultEvent {z : State} (n : Nat) (s : State) (h0 : Kept z s) : KeptO z (execChainFaultEvent n s) := by
  unfold execChainFaultEvent
  (try dsimp only)
  repeat' with_reducible (first | assumption | apply keptO_next | apply keptO_ranged | apply keptO_fault | apply kept_ranged | apply kept_chainFaultEvent | apply kept_ite | split)

theorem kept_cellFault {z : State} (e : Nat) (s : State) (h0 : Kept z s) : Kept z (cellFault e s) := by
  unfold cellFault
  (try dsimp only)
  repeat' with_reducible (first | assumption | apply kept_wr | apply kept_freed | apply kept_cellParity | apply kept_faultCarrier | apply kept_ite | split)

theorem kept_execCellFault {z : State} (e : Nat) (s : State) (h0 : Kept z s) : KeptO z (execCellFault e s) := by
  unfold execCellFault
  (try dsimp only)
  repeat' with_reducible (first | assumption | apply keptO_next | apply keptO_ranged | apply keptO_fault | apply kept_ranged | apply kept_cellFault | apply kept_ite | split)

theorem kept_faultClr {z : State} (n : Nat) (s : State) (h0 : Kept z s) : Kept z (faultClr n s) := by
  unfold faultClr
  (try dsimp only)
  repeat' with_reducible (first | assumption | apply kept_wr | apply kept_returnLeave | apply kept_ite | split)

theorem kept_execFaultClr {z : State} (f : Fn) (n : Nat) (s : State) (h0 : Kept z s) : KeptO z (execFaultClr f n s) := by
  unfold execFaultClr
  (try dsimp only)
  repeat' with_reducible (first | assumption | apply keptO_next | apply keptO_ranged | apply keptO_fault | apply kept_ranged | apply kept_p0Only | apply kept_faultClr | apply kept_ite | split)

theorem kept_corrCmd {z : State} (n x : Nat) (s : State) (h0 : Kept z s) : Kept z (corrCmd n x s) := by
  unfold corrCmd
  (try dsimp only)
  repeat' with_reducible (first | assumption | apply kept_wr | apply kept_ite | split)

theorem kept_setCorr {z : State} (s : State) (k : Nat) (v : BitVec 1024) (h0 : Kept z s) : Kept z (State.setCorr s k v) := by
  unfold State.setCorr
  (try dsimp only)
  repeat' with_reducible (first | assumption | (simp only [kept_mk_eq]; apply kept_of) | apply kept_ite | split)

theorem kept_execCorrWrite {z : State} (f : Fn) (n x : Nat) (s : State) (h0 : Kept z s) : KeptO z (execCorrWrite f n x s) := by
  unfold execCorrWrite
  (try dsimp only)
  repeat' with_reducible (first | assumption | apply keptO_next | apply keptO_ranged | apply keptO_fault | apply kept_ranged | apply kept_p0Only | apply kept_corrCmd | apply kept_setCorr | apply kept_ite | split)

theorem kept_execCorrRead {z : State} (f : Fn) (n x : Nat) (s : State) (h0 : Kept z s) : KeptO z (execCorrRead f n x s) := by
  unfold execCorrRead
  (try dsimp only)
  repeat' with_reducible (first | assumption | apply keptO_next | apply keptO_ranged | apply keptO_fault | apply kept_setReg | apply kept_ranged | apply kept_p0Only | apply kept_corrCmd | apply kept_foldl | (intro _; (try dsimp only)) | apply kept_ite | split)

theorem kept_execClearValid {z : State} (f : Fn) (n x : Nat) (s : State) (h0 : Kept z s) : KeptO z (execClearValid f n x s) := by
  unfold execClearValid
  (try dsimp only)
  repeat' with_reducible (first | assumption | apply keptO_next | apply keptO_ranged | apply keptO_fault | apply kept_ranged | apply kept_p0Only | apply kept_corrCmd | apply kept_setCorr | apply kept_ite | split)

theorem kept_tempGain {z : State} (s0 : State) (h0 : Kept z s0) : Kept z (tempGain s0) := by
  unfold tempGain
  (try dsimp only)
  repeat' with_reducible (first | assumption | apply kept_at_ | apply kept_foldl | (intro _; (try dsimp only)) | (simp only [kept_mk_eq]; apply kept_of) | apply kept_ite | split)

theorem kept_execTempGainDerive {z : State} (s : State) (h0 : Kept z s) : KeptO z (execTempGainDerive s) := by
  unfold execTempGainDerive
  (try dsimp only)
  repeat' with_reducible (first | assumption | apply keptO_next | apply keptO_ranged | apply keptO_fault | apply kept_tempGain | apply kept_ite | split)

theorem kept_execTxcCntClrBlock {z : State} (f : Fn) (s : State) (h0 : Kept z s) : KeptO z (execTxcCntClrBlock f s) := by
  unfold execTxcCntClrBlock
  (try dsimp only)
  repeat' with_reducible (first | assumption | apply keptO_next | apply keptO_ranged | apply keptO_fault | apply kept_zero | apply kept_p0Only | apply kept_ite | split)

theorem kept_execTxcCntClrChain {z : State} (f : Fn) (s : State) (h0 : Kept z s) : KeptO z (execTxcCntClrChain f s) := by
  unfold execTxcCntClrChain
  (try dsimp only)
  repeat' with_reducible (first | assumption | apply keptO_next | apply keptO_ranged | apply keptO_fault | apply kept_zero | apply kept_p0Only | apply kept_ite | split)

theorem kept_execTxcCntClrCoex {z : State} (f : Fn) (s : State) (h0 : Kept z s) : KeptO z (execTxcCntClrCoex f s) := by
  unfold execTxcCntClrCoex
  (try dsimp only)
  repeat' with_reducible (first | assumption | apply keptO_next | apply keptO_ranged | apply keptO_fault | apply kept_zero | apply kept_p0Only | apply kept_ite | split)

theorem kept_putLane {z : State} (s : State) (l : Nat) (x : Lane) (h0 : Kept z s) : Kept z (State.putLane s l x) := by
  unfold State.putLane
  (try dsimp only)
  repeat' with_reducible (first | assumption | (simp only [kept_mk_eq]; apply kept_of) | apply kept_ite | split)

theorem kept_unpair {z : State} (l : Nat) (s : State) (h0 : Kept z s) : Kept z (unpair l s) := by
  unfold unpair
  (try dsimp only)
  repeat' with_reducible (first | assumption | apply kept_wr | (simp only [kept_mk_eq]; apply kept_of) | apply kept_ite | split)

theorem kept_releaseLane {z : State} (l cause : Nat) (s0 : State) (h0 : Kept z s0) : Kept z (releaseLane l cause s0) := by
  unfold releaseLane
  (try dsimp only)
  repeat' with_reducible (first | assumption | apply kept_setReg | apply kept_wr | apply kept_unpair | (simp only [kept_mk_eq]; apply kept_of) | apply kept_ite | split)

theorem kept_dropLane {z : State} (l cause : Nat) (s : State) (h0 : Kept z s) : Kept z (dropLane l cause s) := by
  unfold dropLane
  (try dsimp only)
  repeat' with_reducible (first | assumption | apply kept_freeCells | apply kept_releaseLane | (simp only [kept_mk_eq]; apply kept_of) | apply kept_ite | split)

theorem kept_grantLane {z : State} (l : Nat) (c : Cand) (s : State) (h0 : Kept z s) : Kept z (grantLane l c s) := by
  unfold grantLane
  (try dsimp only)
  repeat' with_reducible (first | assumption | apply kept_wr | apply kept_inc | apply kept_raise | apply kept_putLane | (simp only [kept_mk_eq]; apply kept_of) | apply kept_ite | split)

theorem kept_candidateAllocation {z : State} (s : State) (h0 : Kept z s) : Kept z (candidateAllocation s) := by
  unfold candidateAllocation
  (try dsimp only)
  repeat' with_reducible (first | assumption | apply kept_inc | apply kept_raise | apply kept_grantLane | (simp only [kept_mk_eq]; apply kept_of) | apply kept_ite | split)

theorem kept_execCandidateAllocation {z : State} (s : State) (h0 : Kept z s) : KeptO z (execCandidateAllocation s) := by
  unfold execCandidateAllocation
  (try dsimp only)
  repeat' with_reducible (first | assumption | apply keptO_next | apply keptO_ranged | apply keptO_fault | apply kept_candidateAllocation | apply kept_ite | split)

theorem kept_sfdFound {z : State} (l t128 : Nat) (coded : Bool) (levels : List Int) (amps : List (Int × Int)) (s0 : State) (h0 : Kept z s0) : Kept z (sfdFound l t128 coded levels amps s0) := by
  unfold sfdFound
  (try dsimp only)
  repeat' with_reducible (first | assumption | apply kept_wr | apply kept_at_ | apply kept_putLane | (simp only [kept_mk_eq]; apply kept_of) | apply kept_ite | split)

theorem kept_execSfdFound {z : State} (l t128 : Nat) (coded : Bool) (levels : List Int) (amps : List (Int × Int)) (s : State) (h0 : Kept z s) : KeptO z (execSfdFound l t128 coded levels amps s) := by
  unfold execSfdFound
  (try dsimp only)
  repeat' with_reducible (first | assumption | apply keptO_next | apply keptO_ranged | apply keptO_fault | apply kept_ranged | apply kept_sfdFound | apply kept_ite | split)

theorem kept_sfdTimeout {z : State} (l : Nat) (s0 : State) (h0 : Kept z s0) : Kept z (sfdTimeout l s0) := by
  unfold sfdTimeout
  (try dsimp only)
  repeat' with_reducible (first | assumption | apply kept_inc | apply kept_at_ | apply kept_dropLane | (simp only [kept_mk_eq]; apply kept_of) | apply kept_ite | split)

theorem kept_execSfdTimeout {z : State} (l : Nat) (s : State) (h0 : Kept z s) : KeptO z (execSfdTimeout l s) := by
  unfold execSfdTimeout
  (try dsimp only)
  repeat' with_reducible (first | assumption | apply keptO_next | apply keptO_ranged | apply keptO_fault | apply kept_ranged | apply kept_sfdTimeout | apply kept_ite | split)

theorem kept_headerPass {z : State} (l : Nat) (h : PhyHdr) (s : State) (h0 : Kept z s) : Kept z (headerPass l h s) := by
  unfold headerPass
  (try dsimp only)
  repeat' with_reducible (first | assumption | apply kept_wr | apply kept_inc | apply kept_putLane | apply kept_dropLane | (simp only [kept_mk_eq]; apply kept_of) | apply kept_ite | split)

theorem kept_headerFail {z : State} (l : Nat) (s : State) (h0 : Kept z s) : Kept z (headerFail l s) := by
  unfold headerFail
  (try dsimp only)
  repeat' with_reducible (first | assumption | apply kept_inc | apply kept_dropLane | apply kept_ite | split)

theorem kept_headerStep {z : State} (l : Nat) (h : PhyHdr) (s : State) (h0 : Kept z s) : Kept z (headerStep l h s) := by
  unfold headerStep
  (try dsimp only)
  repeat' with_reducible (first | assumption | apply kept_headerPass | apply kept_headerFail | apply kept_ite | split)

theorem kept_phyHeaderCheck {z : State} (l w : Nat) (mate : Option Nat) (s : State) (h0 : Kept z s) : Kept z (phyHeaderCheck l w mate s) := by
  unfold phyHeaderCheck
  (try dsimp only)
  repeat' with_reducible (first | assumption | apply kept_headerPass | apply kept_headerFail | apply kept_headerStep | (simp only [kept_mk_eq]; apply kept_of) | apply kept_ite | split)

theorem kept_execPhyHeaderCheck {z : State} (l w : Nat) (mate : Option Nat) (s : State) (h0 : Kept z s) : KeptO z (execPhyHeaderCheck l w mate s) := by
  unfold execPhyHeaderCheck
  (try dsimp only)
  repeat' with_reducible (first | assumption | apply keptO_next | apply keptO_ranged | apply keptO_fault | apply kept_ranged | apply kept_phyHeaderCheck | apply kept_ite | split)

theorem kept_answerData {z : State} (x : Lane) (h : MacHdr) (s : State) (h0 : Kept z s) : Kept z ((answerData x h s).1) := by
  unfold answerData
  (try dsimp only)
  repeat' with_reducible (first | assumption | apply kept_inc | apply kept_ctxCheck | (simp only [kept_mk_eq]; apply kept_of) | apply kept_ite | split)

theorem kept_answerHeader {z : State} (x : Lane) (len : Nat) (h : MacHdr) (s : State) (h0 : Kept z s) : Kept z ((answerHeader x len h s).1) := by
  unfold answerHeader
  (try dsimp only)
  repeat' with_reducible (first | assumption | apply kept_answerData | (simp only [kept_mk_eq]; apply kept_of) | apply kept_ite | split)

theorem kept_laneHeader {z : State} (l : Nat) (octs : List Byte) (s : State) (h0 : Kept z s) : Kept z (laneHeader l octs s) := by
  unfold laneHeader
  (try dsimp only)
  repeat' with_reducible (first | assumption | apply kept_putLane | apply kept_answerHeader | (simp only [kept_mk_eq]; apply kept_of) | apply kept_ite | split)

theorem kept_execLaneHeader {z : State} (l : Nat) (octs : List Byte) (s : State) (h0 : Kept z s) : KeptO z (execLaneHeader l octs s) := by
  unfold execLaneHeader
  (try dsimp only)
  repeat' with_reducible (first | assumption | apply keptO_next | apply keptO_ranged | apply keptO_fault | apply kept_ranged | apply kept_laneHeader | apply kept_ite | split)

theorem kept_rejectLane {z : State} (l k : Nat) (s : State) (h0 : Kept z s) : Kept z (rejectLane l k s) := by
  unfold rejectLane
  (try dsimp only)
  repeat' with_reducible (first | assumption | apply kept_inc | apply kept_dropLane | apply kept_ite | split)

theorem kept_attributeLane {z : State} (l p : Nat) (x : Lane) (s : State) (h0 : Kept z s) : Kept z (attributeLane l p x s) := by
  unfold attributeLane
  (try dsimp only)
  repeat' with_reducible (first | assumption | apply kept_wr | apply kept_inc | apply kept_raise | apply kept_moveCell | apply kept_putLane | apply kept_dropLane | apply kept_foldl | (intro _; (try dsimp only)) | apply kept_ite | split)

theorem kept_headerAnswer {z : State} (l : Nat) (s : State) (h0 : Kept z s) : Kept z (headerAnswer l s) := by
  unfold headerAnswer
  (try dsimp only)
  repeat' with_reducible (first | assumption | apply kept_inc | apply kept_rejectLane | apply kept_attributeLane | (simp only [kept_mk_eq]; apply kept_of) | apply kept_ite | split)

theorem kept_execHeaderAnswer {z : State} (l : Nat) (s : State) (h0 : Kept z s) : KeptO z (execHeaderAnswer l s) := by
  unfold execHeaderAnswer
  (try dsimp only)
  repeat' with_reducible (first | assumption | apply keptO_next | apply keptO_ranged | apply keptO_fault | apply kept_ranged | apply kept_headerAnswer | apply kept_ite | split)

theorem kept_storeCell {z : State} (l : Nat) (x : Lane) (len : Nat) (bs : List Byte) (s : State) (h0 : Kept z s) : Kept z (storeCell l x len bs s) := by
  unfold storeCell
  (try dsimp only)
  repeat' with_reducible (first | assumption | apply kept_setCell | apply kept_takeCells | apply kept_putLane | (simp only [kept_mk_eq]; apply kept_of) | apply kept_ite | split)

theorem kept_receiveCell {z : State} (l : Nat) (d : BitVec 512) (s : State) (h0 : Kept z s) : Kept z (receiveCell l d s) := by
  unfold receiveCell
  (try dsimp only)
  repeat' with_reducible (first | assumption | apply kept_putLane | apply kept_storeCell | (simp only [kept_mk_eq]; apply kept_of) | apply kept_ite | split)

theorem kept_execReceiveCell {z : State} (l : Nat) (d : BitVec 512) (s : State) (h0 : Kept z s) : KeptO z (execReceiveCell l d s) := by
  unfold execReceiveCell
  (try dsimp only)
  repeat' with_reducible (first | assumption | apply keptO_next | apply keptO_ranged | apply keptO_fault | apply kept_ranged | apply kept_receiveCell | apply kept_ite | split)

theorem kept_wantAck {z : State} (l : Nat) (x : Lane) (h : MacHdr) (p : Nat) (n pan : Option Nat) (d : BitVec 512) (s : State) (h0 : Kept z s) : Kept z (wantAck l x h p n pan d s) := by
  unfold wantAck
  (try dsimp only)
  repeat' with_reducible (first | assumption | apply kept_startSeq | (simp only [kept_mk_eq]; apply kept_of) | apply kept_ite | split)

theorem kept_fcsFails {z : State} (l : Nat) (s : State) (h0 : Kept z s) : Kept z (fcsFails l s) := by
  unfold fcsFails
  (try dsimp only)
  repeat' with_reducible (first | assumption | apply kept_inc | apply kept_ite | split)

theorem kept_frameEnd {z : State} (l : Nat) (rest : List Byte) (q : Quality) (s0 : State) (h0 : Kept z s0) : Kept z (frameEnd l rest q s0) := by
  unfold frameEnd
  (try dsimp only)
  repeat' with_reducible (first | assumption | apply kept_wr | apply kept_at_ | apply kept_putLane | apply kept_dropLane | apply kept_wantAck | apply kept_fcsFails | (simp only [kept_mk_eq]; apply kept_of) | apply kept_ite | split)

theorem kept_execFrameEnd {z : State} (l : Nat) (rest : List Byte) (q : Quality) (s : State) (h0 : Kept z s) : KeptO z (execFrameEnd l rest q s) := by
  unfold execFrameEnd
  (try dsimp only)
  repeat' with_reducible (first | assumption | apply keptO_next | apply keptO_ranged | apply keptO_fault | apply kept_ranged | apply kept_frameEnd | apply kept_ite | split)

theorem kept_countHanded {z : State} (l : Nat) (x : Lane) (ok : Bool) (s : State) (h0 : Kept z s) : Kept z (countHanded l x ok s) := by
  unfold countHanded
  (try dsimp only)
  repeat' with_reducible (first | assumption | apply kept_inc | apply kept_ite | split)

theorem kept_descriptorCell {z : State} (l : Nat) (s : State) (h0 : Kept z s) : Kept z (descriptorCell l s) := by
  unfold descriptorCell
  (try dsimp only)
  repeat' with_reducible (first | assumption | apply kept_inc | apply kept_setCell | apply kept_takeCells | apply kept_releaseLane | apply kept_countHanded | (simp only [kept_mk_eq]; apply kept_of) | apply kept_ite | split)

theorem kept_execDescriptorCell {z : State} (l : Nat) (s : State) (h0 : Kept z s) : KeptO z (execDescriptorCell l s) := by
  unfold execDescriptorCell
  (try dsimp only)
  repeat' with_reducible (first | assumption | apply keptO_next | apply keptO_ranged | apply keptO_fault | apply kept_ranged | apply kept_descriptorCell | apply kept_ite | split)

theorem kept_deliveryDrop {z : State} (l : Nat) (s0 : State) (h0 : Kept z s0) : Kept z (deliveryDrop l s0) := by
  unfold deliveryDrop
  (try dsimp only)
  repeat' with_reducible (first | assumption | apply kept_inc | apply kept_raise | apply kept_at_ | apply kept_dropLane | (simp only [kept_mk_eq]; apply kept_of) | apply kept_ite | split)

theorem kept_execDeliveryDrop {z : State} (l : Nat) (s : State) (h0 : Kept z s) : KeptO z (execDeliveryDrop l s) := by
  unfold execDeliveryDrop
  (try dsimp only)
  repeat' with_reducible (first | assumption | apply keptO_next | apply keptO_ranged | apply keptO_fault | apply kept_ranged | apply kept_deliveryDrop | apply kept_ite | split)

theorem kept_execLneCntClrBlock {z : State} (f : Fn) (s : State) (h0 : Kept z s) : KeptO z (execLneCntClrBlock f s) := by
  unfold execLneCntClrBlock
  (try dsimp only)
  repeat' with_reducible (first | assumption | apply keptO_next | apply keptO_ranged | apply keptO_fault | apply kept_wr | apply kept_zero | apply kept_p0Only | apply kept_ite | split)

theorem kept_clearLanePart {z : State} (s : State) (p : Nat) (h0 : Kept z s) : Kept z (clearLanePart s p) := by
  unfold clearLanePart
  (try dsimp only)
  repeat' with_reducible (first | assumption | apply kept_wr | apply kept_zero | apply kept_ite | split)

theorem kept_execLneCntClrPart {z : State} (f : Fn) (s : State) (h0 : Kept z s) : KeptO z (execLneCntClrPart f s) := by
  unfold execLneCntClrPart
  (try dsimp only)
  repeat' with_reducible (first | assumption | apply keptO_next | apply keptO_ranged | apply keptO_fault | apply kept_p0Only | apply kept_clearLanePart | apply kept_foldl | (intro _; (try dsimp only)) | apply kept_ite | split)

theorem kept_execLneCntClrFlt {z : State} (f : Fn) (s : State) (h0 : Kept z s) : KeptO z (execLneCntClrFlt f s) := by
  unfold execLneCntClrFlt
  (try dsimp only)
  repeat' with_reducible (first | assumption | apply keptO_next | apply keptO_ranged | apply keptO_fault | apply kept_zero | apply kept_p0Only | apply kept_ite | split)

theorem kept_regWrite {z : State} (s : State) (a : Nat) (v : Word) (h0 : Kept z s) : Kept z (State.regWrite s a v) := by
  unfold State.regWrite
  (try dsimp only)
  repeat' with_reducible (first | assumption | apply kept_setReg | apply kept_ite | split)

theorem kept_deferAir {z : State} (p : Nat) (s : State) (h0 : Kept z s) : Kept z (deferAir p s) := by
  unfold deferAir
  (try dsimp only)
  repeat' with_reducible (first | assumption | apply kept_inc | apply kept_ite | split)

theorem kept_pushScheds {z : State} (xs : List Ent) (s : State) (h0 : Kept z s) : Kept z (pushScheds xs s) := by
  unfold pushScheds
  (try dsimp only)
  repeat' with_reducible (first | assumption | apply kept_chargeAir | apply kept_foldl | (intro _; (try dsimp only)) | (simp only [kept_mk_eq]; apply kept_of) | apply kept_ite | split)

theorem kept_placeItem {z : State} (h hc : Nat) (x : Ent) (s : State) (h0 : Kept z s) : Kept z (placeItem h hc x s) := by
  unfold placeItem
  (try dsimp only)
  repeat' with_reducible (first | assumption | apply kept_unlinkItem | apply kept_deferAir | apply kept_pushScheds | apply kept_ite | split)

theorem kept_placeWake {z : State} (h hc : Nat) (x : Ent) (s : State) (h0 : Kept z s) : Kept z (placeWake h hc x s) := by
  unfold placeWake
  (try dsimp only)
  repeat' with_reducible (first | assumption | apply kept_freed | apply kept_unlinkItem | apply kept_chargeAir | apply kept_startSeq | apply kept_deferAir | apply kept_pushScheds | (simp only [kept_mk_eq]; apply kept_of) | apply kept_ite | split)

theorem kept_rescheduleEnt {z : State} (e air : Nat) (g k : Nat) (s : State) (h0 : Kept z s) : Kept z (rescheduleEnt e air g k s) := by
  unfold rescheduleEnt
  (try dsimp only)
  repeat' with_reducible (first | assumption | apply kept_setEnt | apply kept_chargeAir | (simp only [kept_mk_eq]; apply kept_of) | apply kept_ite | split)

theorem kept_endHeld {z : State} (e status : Nat) (s : State) (h0 : Kept z s) : Kept z (endHeld e status s) := by
  unfold endHeld
  (try dsimp only)
  repeat' with_reducible (first | assumption | apply kept_endItem | apply kept_dropItem | apply kept_releaseEnt | (simp only [kept_mk_eq]; apply kept_of) | apply kept_ite | split)

theorem kept_placeRetry {z : State} (h e : Nat) (s0 : State) (h0 : Kept z s0) : Kept z (placeRetry h e s0) := by
  unfold placeRetry
  (try dsimp only)
  repeat' with_reducible (first | assumption | apply kept_freed | apply kept_ctxCheck | apply kept_chargeAir | apply kept_startSeq | apply kept_deferAir | apply kept_pushScheds | apply kept_rescheduleEnt | apply kept_endHeld | (simp only [kept_mk_eq]; apply kept_of) | apply kept_ite | split)

theorem kept_schedulerPlace {z : State} (h : Nat) (s0 : State) (h0 : Kept z s0) : Kept z (schedulerPlace h s0) := by
  unfold schedulerPlace
  (try dsimp only)
  repeat' with_reducible (first | assumption | apply kept_ctxCheck | apply kept_readHeaders | apply kept_placeItem | apply kept_placeWake | apply kept_placeRetry | (simp only [kept_mk_eq]; apply kept_of) | apply kept_ite | split)

theorem kept_execSchedulerPlace {z : State} (h : Nat) (s : State) (h0 : Kept z s) : KeptO z (execSchedulerPlace h s) := by
  unfold execSchedulerPlace
  (try dsimp only)
  repeat' with_reducible (first | assumption | apply keptO_next | apply keptO_ranged | apply keptO_fault | apply kept_ranged | apply kept_schedulerPlace | apply kept_ite | split)

theorem kept_tooLateNotice {z : State} (e h hc : Nat) (s : State) (h0 : Kept z s) : Kept z (tooLateNotice e h hc s) := by
  unfold tooLateNotice
  (try dsimp only)
  repeat' with_reducible (first | assumption | apply kept_inc | apply kept_giveNotice | (simp only [kept_mk_eq]; apply kept_of) | apply kept_ite | split)

theorem kept_answerCancels {z : State} (hc : Nat) (late : Bool) (h : Nat) (s : State) (h0 : Kept z s) : Kept z (answerCancels hc late h s) := by
  unfold answerCancels
  (try dsimp only)
  repeat' with_reducible (first | assumption | apply kept_complete | apply kept_tooLateNotice | apply kept_foldl | (intro _; (try dsimp only)) | (simp only [kept_mk_eq]; apply kept_of) | apply kept_ite | split)

theorem kept_attemptFailed {z : State} (a : Att) (s0 : State) (h0 : Kept z s0) : Kept z (attemptFailed a s0) := by
  unfold attemptFailed
  (try dsimp only)
  repeat' with_reducible (first | assumption | apply kept_inc | apply kept_freed | apply kept_at_ | apply kept_ctxCheck | apply kept_releaseEnt | apply kept_squashEnt | apply kept_endHeld | apply kept_placeRetry | apply kept_answerCancels | (simp only [kept_mk_eq]; apply kept_of) | apply kept_ite | split)

theorem kept_ackWaitClose {z : State} (k : Nat) (s0 : State) (h0 : Kept z s0) : Kept z (ackWaitClose k s0) := by
  unfold ackWaitClose
  (try dsimp only)
  repeat' with_reducible (first | assumption | apply kept_at_ | apply kept_attemptFailed | (simp only [kept_mk_eq]; apply kept_of) | apply kept_ite | split)

theorem kept_execAckWaitClose {z : State} (k : Nat) (s : State) (h0 : Kept z s) : KeptO z (execAckWaitClose k s) := by
  unfold execAckWaitClose
  (try dsimp only)
  repeat' with_reducible (first | assumption | apply keptO_next | apply keptO_ranged | apply keptO_fault | apply kept_ranged | apply kept_ackWaitClose | apply kept_ite | split)

theorem kept_deadlineExpiry {z : State} (h : Nat) (s0 : State) (h0 : Kept z s0) : Kept z (deadlineExpiry h s0) := by
  unfold deadlineExpiry
  (try dsimp only)
  repeat' with_reducible (first | assumption | apply kept_at_ | apply kept_unlinkItem | apply kept_endItem | apply kept_readHeaders | apply kept_endHeld | (simp only [kept_mk_eq]; apply kept_of) | apply kept_ite | split)

theorem kept_execDeadlineExpiry {z : State} (h : Nat) (s : State) (h0 : Kept z s) : KeptO z (execDeadlineExpiry h s) := by
  unfold execDeadlineExpiry
  (try dsimp only)
  repeat' with_reducible (first | assumption | apply keptO_next | apply keptO_ranged | apply keptO_fault | apply kept_ranged | apply kept_deadlineExpiry | apply kept_ite | split)

theorem kept_airtimeBoundary {z : State} (s0 : State) (h0 : Kept z s0) : Kept z (airtimeBoundary s0) := by
  unfold airtimeBoundary
  (try dsimp only)
  repeat' with_reducible (first | assumption | apply kept_wr | apply kept_at_ | apply kept_foldl | (intro _; (try dsimp only)) | apply kept_ite | split)

theorem kept_execAirtimePeriodBoundary {z : State} (s : State) (h0 : Kept z s) : KeptO z (execAirtimePeriodBoundary s) := by
  unfold execAirtimePeriodBoundary
  (try dsimp only)
  repeat' with_reducible (first | assumption | apply keptO_next | apply keptO_ranged | apply keptO_fault | apply kept_airtimeBoundary | apply kept_ite | split)

theorem kept_cellTx {z : State} (st : Nat) (g k c h : Nat) (s0 : State) (h0 : Kept z s0) : Kept z (cellTx st g k c h s0) := by
  unfold cellTx
  (try dsimp only)
  repeat' with_reducible (first | assumption | apply kept_ctxCheck | apply kept_readHeaders | apply kept_deferAir | apply kept_placeItem | apply kept_rescheduleEnt | apply kept_endHeld | (simp only [kept_mk_eq]; apply kept_of) | apply kept_ite | split)

theorem kept_cellRx {z : State} (st c h : Nat) (s : State) (h0 : Kept z s) : Kept z (cellRx st c h s) := by
  unfold cellRx
  (try dsimp only)
  repeat' with_reducible (first | assumption | (simp only [kept_mk_eq]; apply kept_of) | apply kept_ite | split)

theorem kept_runCell {z : State} (asn st : Nat) (s : State) (p : Nat × Nat) (h0 : Kept z s) : Kept z (runCell asn st s p) := by
  unfold runCell
  (try dsimp only)
  repeat' with_reducible (first | assumption | apply kept_cellTx | apply kept_cellRx | apply kept_ite | split)

theorem kept_tschSlotRead {z : State} (asn : Nat) (s0 : State) (h0 : Kept z s0) : Kept z (tschSlotRead asn s0) := by
  unfold tschSlotRead
  (try dsimp only)
  repeat' with_reducible (first | assumption | apply kept_at_ | apply kept_startSeq | apply kept_runCell | apply kept_foldl | (intro _; (try dsimp only)) | (simp only [kept_mk_eq]; apply kept_of) | apply kept_ite | split)

theorem kept_execTschSlotRead {z : State} (asn : Nat) (s : State) (h0 : Kept z s) : KeptO z (execTschSlotRead asn s) := by
  unfold execTschSlotRead
  (try dsimp only)
  repeat' with_reducible (first | assumption | apply keptO_next | apply keptO_ranged | apply keptO_fault | apply kept_tschSlotRead | apply kept_ite | split)

theorem kept_tschEnable {z : State} (en : Bool) (s : State) (h0 : Kept z s) : Kept z (tschEnable en s) := by
  unfold tschEnable
  (try dsimp only)
  repeat' with_reducible (first | assumption | apply kept_wr | (simp only [kept_mk_eq]; apply kept_of) | apply kept_ite | split)

theorem kept_execTschEnableWrite {z : State} (f : Fn) (en : Bool) (s : State) (h0 : Kept z s) : KeptO z (execTschEnableWrite f en s) := by
  unfold execTschEnableWrite
  (try dsimp only)
  repeat' with_reducible (first | assumption | apply keptO_next | apply keptO_ranged | apply keptO_fault | apply kept_p0Only | apply kept_tschEnable | apply kept_ite | split)

theorem kept_cellWrite {z : State} (tag kind c w : Nat) (v : Word) (s : State) (h0 : Kept z s) : Kept z (cellWrite tag kind c w v s) := by
  unfold cellWrite
  (try dsimp only)
  repeat' with_reducible (first | assumption | apply kept_setReg | apply kept_bark | apply kept_regWrite | apply kept_ite | split)

theorem kept_execTschCellWrite {z : State} (f : Fn) (c w : Nat) (v : Word) (s : State) (h0 : Kept z s) : KeptO z (execTschCellWrite f c w v s) := by
  unfold execTschCellWrite
  (try dsimp only)
  repeat' with_reducible (first | assumption | apply keptO_next | apply keptO_ranged | apply keptO_fault | apply kept_ranged | apply kept_p0Only | apply kept_cellWrite | apply kept_ite | split)

theorem kept_fireCmp {z : State} (k : Nat) (late : Bool) (s : State) (h0 : Kept z s) : Kept z (fireCmp k late s) := by
  unfold fireCmp
  (try dsimp only)
  repeat' with_reducible (first | assumption | apply kept_wr | apply kept_pulse | apply kept_ite | split)

theorem kept_armCmp {z : State} (k v : Nat) (s0 : State) (h0 : Kept z s0) : Kept z (armCmp k v s0) := by
  unfold armCmp
  (try dsimp only)
  repeat' with_reducible (first | assumption | apply kept_wr | apply kept_wr64 | apply kept_fireCmp | apply kept_ite | split)

theorem kept_dropHeld {z : State} (lo : Nat) (s : State) (h0 : Kept z s) : Kept z (State.dropHeld lo s) := by
  unfold State.dropHeld
  (try dsimp only)
  repeat' with_reducible (first | assumption | (simp only [kept_mk_eq]; apply kept_of) | apply kept_ite | split)

theorem kept_cmpHigh {z : State} (k hi : Nat) (s : State) (h0 : Kept z s) : Kept z (cmpHigh k hi s) := by
  unfold cmpHigh
  (try dsimp only)
  repeat' with_reducible (first | assumption | apply kept_armCmp | apply kept_dropHeld | apply kept_ite | split)

theorem kept_execCmpArmWrite {z : State} (f : Fn) (k hi : Nat) (s : State) (h0 : Kept z s) : KeptO z (execCmpArmWrite f k hi s) := by
  unfold execCmpArmWrite
  (try dsimp only)
  repeat' with_reducible (first | assumption | apply keptO_next | apply keptO_ranged | apply keptO_fault | apply kept_ranged | apply kept_p0Only | apply kept_cmpHigh | apply kept_ite | split)

theorem kept_comparatorFire {z : State} (k : Nat) (s : State) (h0 : Kept z s) : Kept z (comparatorFire k s) := by
  unfold comparatorFire
  (try dsimp only)
  repeat' with_reducible (first | assumption | apply kept_at_ | apply kept_fireCmp | apply kept_ite | split)

theorem kept_execComparatorFire {z : State} (k : Nat) (s : State) (h0 : Kept z s) : KeptO z (execComparatorFire k s) := by
  unfold execComparatorFire
  (try dsimp only)
  repeat' with_reducible (first | assumption | apply keptO_next | apply keptO_ranged | apply keptO_fault | apply kept_ranged | apply kept_comparatorFire | apply kept_ite | split)

theorem kept_disarmCmp {z : State} (k : Nat) (s : State) (h0 : Kept z s) : Kept z (disarmCmp k s) := by
  unfold disarmCmp
  (try dsimp only)
  repeat' with_reducible (first | assumption | apply kept_wr | apply kept_ite | split)

theorem kept_execDisarm {z : State} (f : Fn) (k : Nat) (s : State) (h0 : Kept z s) : KeptO z (execDisarm f k s) := by
  unfold execDisarm
  (try dsimp only)
  repeat' with_reducible (first | assumption | apply keptO_next | apply keptO_ranged | apply keptO_fault | apply kept_ranged | apply kept_p0Only | apply kept_disarmCmp | apply kept_ite | split)

theorem kept_panWrite {z : State} (i w : Nat) (v : Word) (s : State) (h0 : Kept z s) : Kept z (panWrite i w v s) := by
  unfold panWrite
  (try dsimp only)
  repeat' with_reducible (first | assumption | apply kept_wr | apply kept_raise | apply kept_regWrite | apply kept_ite | split)

theorem kept_execPanEntryWrite {z : State} (f : Fn) (k w : Nat) (v : Word) (s : State) (h0 : Kept z s) : KeptO z (execPanEntryWrite f k w v s) := by
  unfold execPanEntryWrite
  (try dsimp only)
  repeat' with_reducible (first | assumption | apply keptO_next | apply keptO_ranged | apply keptO_fault | apply kept_ranged | apply kept_p0Only | apply kept_panWrite | apply kept_ite | split)

theorem kept_seqAction {z : State} (i : SeqInst) (x : BitVec 64) (s : State) (h0 : Kept z s) : Kept z (seqAction i x s) := by
  unfold seqAction
  (try dsimp only)
  repeat' with_reducible (first | assumption | apply kept_inc | apply kept_pulse | apply kept_raise | apply kept_ite | split)

theorem kept_seqMark {z : State} (c : Nat) (mine : SeqInst → Bool) (s : State) (h0 : Kept z s) : Kept z (seqMark c mine s) := by
  unfold seqMark
  (try dsimp only)
  repeat' with_reducible (first | assumption | (simp only [kept_mk_eq]; apply kept_of) | apply kept_ite | split)

theorem kept_setSeq {z : State} (k : Nat) (i : Option SeqInst) (s : State) (h0 : Kept z s) : Kept z (setSeq k i s) := by
  unfold setSeq
  (try dsimp only)
  repeat' with_reducible (first | assumption | (simp only [kept_mk_eq]; apply kept_of) | apply kept_ite | split)

theorem kept_sequencerState {z : State} (k : Nat) (s0 : State) (h0 : Kept z s0) : Kept z (sequencerState k s0) := by
  unfold sequencerState
  (try dsimp only)
  repeat' with_reducible (first | assumption | apply kept_at_ | apply kept_seqAction | apply kept_setSeq | (simp only [kept_mk_eq]; apply kept_of) | apply kept_ite | split)

theorem kept_execSequencerState {z : State} (k : Nat) (s : State) (h0 : Kept z s) : KeptO z (execSequencerState k s) := by
  unfold execSequencerState
  (try dsimp only)
  repeat' with_reducible (first | assumption | apply keptO_next | apply keptO_ranged | apply keptO_fault | apply kept_sequencerState | apply kept_ite | split)

theorem kept_sequencerClamp {z : State} (k : Nat) (s : State) (h0 : Kept z s) : Kept z (sequencerClamp k s) := by
  unfold sequencerClamp
  (try dsimp only)
  repeat' with_reducible (first | assumption | apply kept_inc | apply kept_at_ | apply kept_setSeq | (simp only [kept_mk_eq]; apply kept_of) | apply kept_ite | split)

theorem kept_execSequencerClamp {z : State} (k : Nat) (s : State) (h0 : Kept z s) : KeptO z (execSequencerClamp k s) := by
  unfold execSequencerClamp
  (try dsimp only)
  repeat' with_reducible (first | assumption | apply keptO_next | apply keptO_ranged | apply keptO_fault | apply kept_sequencerClamp | apply kept_ite | split)

theorem kept_execLnkCntClrBlock {z : State} (f : Fn) (s : State) (h0 : Kept z s) : KeptO z (execLnkCntClrBlock f s) := by
  unfold execLnkCntClrBlock
  (try dsimp only)
  repeat' with_reducible (first | assumption | apply keptO_next | apply keptO_ranged | apply keptO_fault | apply kept_zero | apply kept_p0Only | apply kept_ite | split)

theorem kept_execLnkCntClrPart {z : State} (f : Fn) (s : State) (h0 : Kept z s) : KeptO z (execLnkCntClrPart f s) := by
  unfold execLnkCntClrPart
  (try dsimp only)
  repeat' with_reducible (first | assumption | apply keptO_next | apply keptO_ranged | apply keptO_fault | apply kept_zero | apply kept_p0Only | apply kept_ite | split)

theorem kept_setRx {z : State} (s : State) (k : Nat) (r : Rx) (h0 : Kept z s) : Kept z (State.setRx s k r) := by
  unfold State.setRx
  (try dsimp only)
  repeat' with_reducible (first | assumption | (simp only [kept_mk_eq]; apply kept_of) | apply kept_ite | split)

theorem kept_dropRx {z : State} (k : Nat) (r : Rx) (s : State) (h0 : Kept z s) : Kept z (dropRx k r s) := by
  unfold dropRx
  (try dsimp only)
  repeat' with_reducible (first | assumption | apply kept_freeCells | (simp only [kept_mk_eq]; apply kept_of) | apply kept_ite | split)

theorem kept_ackVerdict {z : State} (r : Rx) (ok : Bool) (slot : Option Nat) (s : State) (h0 : Kept z s) : Kept z (ackVerdict r ok slot s) := by
  unfold ackVerdict
  (try dsimp only)
  repeat' with_reducible (first | assumption | (simp only [kept_mk_eq]; apply kept_of) | apply kept_ite | split)

theorem kept_rxParity {z : State} {k : Nat} {r : Rx} {s t : State} (e : rxParity k r s = some t) (h : Kept z s) : Kept z t := by
  unfold rxParity at e
  split at e
  · cases e
    repeat' with_reducible (first | assumption | apply kept_dropRx | apply kept_inc | apply kept_cellParity)
  · cases e

theorem kept_verifyFails {z : State} (k : Nat) (r : Rx) (cnt : RegFld) (pk ev : Nat) (s : State) (h0 : Kept z s) : Kept z (verifyFails k r cnt pk ev s) := by
  unfold verifyFails
  (try dsimp only)
  repeat' with_reducible (first | assumption | apply kept_inc | apply kept_raise | apply kept_dropRx | apply kept_ackVerdict | apply kept_ite | split)

theorem kept_issueVerify {z : State} (k : Nat) (r : Rx) (slot ext : Nat) (s : State) (h0 : Kept z s) : Kept z (issueVerify k r slot ext s) := by
  unfold issueVerify
  (try dsimp only)
  repeat' with_reducible (first | assumption | apply kept_setRx | refine kept_rxParity (by assumption) ?_ | (simp only [kept_mk_eq]; apply kept_of) | apply kept_ite | split)

theorem kept_chooseAndIssue {z : State} (k : Nat) (r : Rx) (s : State) (h0 : Kept z s) : Kept z (chooseAndIssue k r s) := by
  unfold chooseAndIssue
  (try dsimp only)
  repeat' with_reducible (first | assumption | apply kept_bark | apply kept_verifyFails | apply kept_issueVerify | (simp only [kept_mk_eq]; apply kept_of) | apply kept_ite | split)

theorem kept_duplicate {z : State} (k : Nat) (r : Rx) (s : State) (h0 : Kept z s) : Kept z (duplicate k r s) := by
  unfold duplicate
  (try dsimp only)
  repeat' with_reducible (first | assumption | apply kept_inc | apply kept_raise | apply kept_dropRx | apply kept_ackVerdict | apply kept_ite | split)

theorem kept_readNode {z : State} (n : Option Nat) (s : State) (h0 : Kept z s) : Kept z (readNode n s) := by
  unfold readNode
  (try dsimp only)
  repeat' with_reducible (first | assumption | apply kept_ctxCheck | (simp only [kept_mk_eq]; apply kept_of) | apply kept_ite | split)

theorem kept_verifyChecks {z : State} (k : Nat) (r : Rx) (s : State) (h0 : Kept z s) : Kept z (verifyChecks k r s) := by
  unfold verifyChecks
  (try dsimp only)
  repeat' with_reducible (first | assumption | apply kept_setRx | apply kept_verifyFails | apply kept_chooseAndIssue | apply kept_duplicate | (simp only [kept_mk_eq]; apply kept_of) | apply kept_ite | split)

theorem kept_verifyIssue {z : State} (k : Nat) (s : State) (h0 : Kept z s) : Kept z (verifyIssue k s) := by
  unfold verifyIssue
  (try dsimp only)
  repeat' with_reducible (first | assumption | apply kept_readNode | apply kept_verifyChecks | (simp only [kept_mk_eq]; apply kept_of) | apply kept_ite | split)

theorem kept_execVerifyIssue {z : State} (k : Nat) (s : State) (h0 : Kept z s) : KeptO z (execVerifyIssue k s) := by
  unfold execVerifyIssue
  (try dsimp only)
  repeat' with_reducible (first | assumption | apply keptO_next | apply keptO_ranged | apply keptO_fault | apply kept_ranged | apply kept_verifyIssue | apply kept_ite | split)

theorem kept_verifyResult {z : State} (k : Nat) (s : State) (h0 : Kept z s) : Kept z (verifyResult k s) := by
  unfold verifyResult
  (try dsimp only)
  repeat' with_reducible (first | assumption | apply kept_inc | apply kept_seqMark | apply kept_setRx | apply kept_ackVerdict | apply kept_verifyFails | (simp only [kept_mk_eq]; apply kept_of) | apply kept_ite | split)

theorem kept_execVerifyResult {z : State} (k : Nat) (s : State) (h0 : Kept z s) : KeptO z (execVerifyResult k s) := by
  unfold execVerifyResult
  (try dsimp only)
  repeat' with_reducible (first | assumption | apply keptO_next | apply keptO_ranged | apply keptO_fault | apply kept_ranged | apply kept_verifyResult | apply kept_ite | split)

theorem kept_commitNode {z : State} (r : Rx) (s : State) (h0 : Kept z s) : Kept z (commitNode r s) := by
  unfold commitNode
  (try dsimp only)
  repeat' with_reducible (first | assumption | apply kept_inc | apply kept_setNode | apply kept_ctxCheck | (simp only [kept_mk_eq]; apply kept_of) | apply kept_ite | split)

theorem kept_ackAttempt {z : State} (a : Att) (s : State) (h0 : Kept z s) : Kept z (ackAttempt a s) := by
  unfold ackAttempt
  (try dsimp only)
  repeat' with_reducible (first | assumption | apply kept_inc | apply kept_endHeld | apply kept_answerCancels | apply kept_seqMark | (simp only [kept_mk_eq]; apply kept_of) | apply kept_ite | split)

theorem kept_awaitDelivery {z : State} (k : Nat) (r : Rx) (s : State) (h0 : Kept z s) : Kept z (awaitDelivery k r s) := by
  unfold awaitDelivery
  (try dsimp only)
  repeat' with_reducible (first | assumption | apply kept_incBy | apply kept_dropRx | (simp only [kept_mk_eq]; apply kept_of) | apply kept_ite | split)

theorem kept_countOow {z : State} (r : Rx) (s : State) (h0 : Kept z s) : Kept z (countOow r s) := by
  unfold countOow
  (try dsimp only)
  repeat' with_reducible (first | assumption | apply kept_inc | apply kept_raise | apply kept_ite | split)

theorem kept_frameCommit {z : State} (k : Nat) (s : State) (h0 : Kept z s) : Kept z (frameCommit k s) := by
  unfold frameCommit
  (try dsimp only)
  repeat' with_reducible (first | assumption | apply kept_seqMark | apply kept_dropRx | apply kept_commitNode | apply kept_ackAttempt | apply kept_awaitDelivery | apply kept_countOow | (simp only [kept_mk_eq]; apply kept_of) | apply kept_ite | split)

theorem kept_execFrameCommit {z : State} (k : Nat) (s : State) (h0 : Kept z s) : KeptO z (execFrameCommit k s) := by
  unfold execFrameCommit
  (try dsimp only)
  repeat' with_reducible (first | assumption | apply keptO_next | apply keptO_ranged | apply keptO_fault | apply kept_ranged | apply kept_frameCommit | apply kept_ite | split)

theorem kept_settleRx {z : State} (k : Nat) (s : State) (h0 : Kept z s) : Kept z (settleRx k s) := by
  unfold settleRx
  (try dsimp only)
  repeat' with_reducible (first | assumption | apply kept_dropRx | (simp only [kept_mk_eq]; apply kept_of) | apply kept_ite | split)

theorem kept_countBcast {z : State} (r : Rx) (s : State) (h0 : Kept z s) : Kept z (countBcast r s) := by
  unfold countBcast
  (try dsimp only)
  repeat' with_reducible (first | assumption | apply kept_inc | apply kept_ite | split)

theorem kept_engineDelivery {z : State} (k : Nat) (s : State) (h0 : Kept z s) : Kept z (engineDelivery k s) := by
  unfold engineDelivery
  (try dsimp only)
  repeat' with_reducible (first | assumption | apply kept_setRx | refine kept_rxParity (by assumption) ?_ | apply kept_countBcast | (simp only [kept_mk_eq]; apply kept_of) | apply kept_ite | split)

theorem kept_execEngineDelivery {z : State} (k : Nat) (s : State) (h0 : Kept z s) : KeptO z (execEngineDelivery k s) := by
  unfold execEngineDelivery
  (try dsimp only)
  repeat' with_reducible (first | assumption | apply keptO_next | apply keptO_ranged | apply keptO_fault | apply kept_ranged | apply kept_engineDelivery | apply kept_ite | split)

theorem kept_fillBuffer {z : State} (q x p : Nat) (c : Ctx) (r : Rx) (s : State) (h0 : Kept z s) : Kept z (fillBuffer q x p c r s) := by
  unfold fillBuffer
  (try dsimp only)
  repeat' with_reducible (first | assumption | apply kept_inc | apply kept_post | apply kept_setPort | apply kept_complete | (simp only [kept_mk_eq]; apply kept_of) | apply kept_ite | split)

theorem kept_rxDelivery {z : State} (k : Nat) (s : State) (h0 : Kept z s) : Kept z (rxDelivery k s) := by
  unfold rxDelivery
  (try dsimp only)
  repeat' with_reducible (first | assumption | apply kept_inc | apply kept_setRx | refine kept_rxParity (by assumption) ?_ | apply kept_settleRx | apply kept_countBcast | apply kept_fillBuffer | (simp only [kept_mk_eq]; apply kept_of) | apply kept_ite | split)

theorem kept_execRxDelivery {z : State} (k : Nat) (s : State) (h0 : Kept z s) : KeptO z (execRxDelivery k s) := by
  unfold execRxDelivery
  (try dsimp only)
  repeat' with_reducible (first | assumption | apply keptO_next | apply keptO_ranged | apply keptO_fault | apply kept_ranged | apply kept_rxDelivery | apply kept_ite | split)

theorem kept_followUp {z : State} (x : Ent) (s0 : State) (h0 : Kept z s0) : Kept z (followUp x s0) := by
  unfold followUp
  (try dsimp only)
  repeat' with_reducible (first | assumption | apply kept_ctxCheck | apply kept_readHeaders | apply kept_placeItem | (simp only [kept_mk_eq]; apply kept_of) | apply kept_ite | split)

theorem kept_ackBuild {z : State} (k : Nat) (s0 : State) (h0 : Kept z s0) : Kept z (ackBuild k s0) := by
  unfold ackBuild
  (try dsimp only)
  repeat' with_reducible (first | assumption | apply kept_inc | apply kept_raise | apply kept_at_ | apply kept_chargeAir | refine kept_stageSlot (by assumption) ?_ | apply kept_readNode | apply kept_followUp | (simp only [kept_mk_eq]; apply kept_of) | apply kept_ite | split)

theorem kept_execAckBuild {z : State} (k : Nat) (s : State) (h0 : Kept z s) : KeptO z (execAckBuild k s) := by
  unfold execAckBuild
  (try dsimp only)
  repeat' with_reducible (first | assumption | apply keptO_next | apply keptO_ranged | apply keptO_fault | apply kept_ranged | apply kept_ackBuild | apply kept_ite | split)

end Sys2Proof.Machine
end

