-- ==== Sys2Proof/Laws/KeepCores.lean ====
section
/-! SUPPORT. What every command keeps, for memories, cores, nodes and queue instructions: one lemma per operation. -/

set_option linter.unusedTactic false
set_option linter.unreachableTactic false
set_option linter.unusedVariables false
set_option linter.unusedSimpArgs false

namespace Sys2Proof.Machine

theorem kept_breakResv {z : State} (by_ : Option Nat) (lo hi : Nat) (s : State) (h : Kept z s) : Kept z (breakResv by_ lo hi s) := by
  refine ⟨h.1, h.2.1, h.2.2.1, h.2.2.2.1, h.2.2.2.2.1, ?_⟩
  have : ∀ (l : List Nat) (m : Sparse FCore), coresWf m = true →
      coresWf (l.foldl (fun m c => sset (fun _ => {}) m c (freeResv (sget (fun _ => {}) m c))) m) = true := by
    intro l
    induction l with
    | nil => exact fun _ hm => hm
    | cons c cs ih =>
      intro m hm
      exact ih _ (coresWf_sset m c _ hm (coresWf_core m c hm))
  exact this _ _ h.2.2.2.2.2

theorem kept_store {z : State} (s : State) (by_ : Option Nat) (a : Nat) (bs : List Byte) (h : Kept z s) : Kept z (s.store by_ a bs) := by
  have h1 := kept_breakResv by_ a (a + bs.length) s h
  exact ⟨h1.1, h1.2.1, h1.2.2.1, putMem_wf bs a _ h1.2.2.2.1, h1.2.2.2.2⟩

theorem kept_zeroMem {z : State} (lo hi : Nat) (s : State) (h : Kept z s) : Kept z (State.zeroMem lo hi s) :=
  ⟨h.1, h.2.1, h.2.2.1, sdrop_swf _ _ _ _ h.2.2.2.1, h.2.2.2.2⟩

theorem kept_setG {z : State} (s : State) (c r : Nat) (v : Word) (h : Kept z s) : Kept z (s.setG c r v) := by
  unfold State.setG
  split
  · exact h
  · refine kept_setCore _ _ _ h ?_
    have := kept_coreWf h c
    simp only [coreWf, Bool.and_eq_true] at this ⊢
    exact ⟨⟨sset_swf _ _ _ _ this.1.1, this.1.2⟩, this.2⟩

theorem kept_setSys {z : State} (s : State) (c n : Nat) (v : Word) (h : Kept z s) : Kept z (s.setSys c n v) := by
  unfold State.setSys
  refine kept_setCore _ _ _ h ?_
  have := kept_coreWf h c
  simp only [coreWf, Bool.and_eq_true] at this ⊢
  exact ⟨⟨this.1.1, sset_swf _ _ _ _ this.1.2⟩, this.2⟩

theorem kept_setPc {z : State} (s : State) (c a : Nat) (h : Kept z s) : Kept z (s.setPc c a) := by
  unfold State.setPc
  refine kept_setCore _ _ _ h ?_
  have := kept_coreWf h c
  simp only [coreWf, Bool.and_eq_true, beq_iff_eq] at this ⊢
  exact ⟨this.1, word_aligned a⟩

theorem kept_haltCore {z : State} (c cause : Nat) (s : State) (h0 : Kept z s) : Kept z (haltCore c cause s) := by
  unfold haltCore
  (try dsimp only)
  repeat' with_reducible (first | assumption | apply kept_setCore | apply kept_wr | (simp only [kept_mk_eq]; apply kept_of) | (simp only [coreWf]; apply kept_coreRaw) | apply kept_ite | split)

theorem kept_coreReset {z : State} (c : Nat) (clear : Bool) (s : State) (h : Kept z s) : Kept z (coreReset c clear s) := by
  unfold coreReset
  have h2 : Kept z ((s.wr (stateF c) 0).wr (causeF c) 7) := kept_wr _ _ _ (kept_wr _ _ _ h)
  dsimp only
  generalize (s.wr (stateF c) 0).wr (causeF c) 7 = t at h2
  have h3 : Kept z { t with eng := { t.eng with cores := sset (fun _ => {}) t.eng.cores c { cycBase := t.clk.eng } } } :=
    ⟨h2.1, h2.2.1, h2.2.2.1, h2.2.2.2.1, h2.2.2.2.2.1, coresWf_sset _ _ _ h2.2.2.2.2.2 rfl⟩
  split
  · exact kept_wr _ _ _ h3
  · exact h3

theorem kept_lateReset {z : State} (c : Nat) (s : State) (h0 : Kept z s) : Kept z (lateReset c s) := by
  unfold lateReset
  (try dsimp only)
  repeat' with_reducible (first | assumption | apply kept_coreReset | apply kept_ite | split)

theorem kept_lateHalt {z : State} (c : Nat) (s : State) (h0 : Kept z s) : Kept z (lateHalt c s) := by
  unfold lateHalt
  (try dsimp only)
  repeat' with_reducible (first | assumption | apply kept_haltCore | apply kept_lateReset | apply kept_ite | split)

theorem kept_reportHalt {z : State} (c : Nat) (s : State) (h0 : Kept z s) : Kept z (reportHalt c s) := by
  unfold reportHalt
  (try dsimp only)
  repeat' with_reducible (first | assumption | apply kept_wr | apply kept_blockEvent | apply kept_evtEdge | apply kept_raise | apply kept_setReason | apply kept_ite | split)

theorem kept_takeExc {z : State} (c cause eval ret : Nat) (s : State) (h0 : Kept z s) : Kept z (takeExc c cause eval ret s) := by
  unfold takeExc
  (try dsimp only)
  repeat' with_reducible (first | assumption | apply kept_setCore | apply kept_setSys | apply kept_setPc | apply kept_haltCore | apply kept_lateReset | apply kept_lateHalt | apply kept_reportHalt | (simp only [kept_mk_eq]; apply kept_of) | (simp only [coreWf]; apply kept_coreRaw) | apply kept_ite | split)

theorem kept_setDepth {z : State} (c d : Nat) (s : State) (h0 : Kept z s) : Kept z (setDepth c d s) := by
  unfold setDepth
  (try dsimp only)
  repeat' with_reducible (first | assumption | apply kept_setCore | (simp only [kept_mk_eq]; apply kept_of) | (simp only [coreWf]; apply kept_coreRaw) | apply kept_ite | split)

theorem kept_loopNext {z : State} (c a : Nat) : ∀ (d : Nat) (s : State), Kept z s → Kept z (loopNext c a d s).1
  | 0, _, h => h
  | d + 1, s, h => by
    unfold loopNext
    dsimp only
    repeat' with_reducible (first | assumption | apply kept_setSys | apply kept_loopNext | apply kept_setDepth | split)

theorem kept_closeLoops {z : State} (c target : Nat) : ∀ (d : Nat) (s : State), Kept z s → Kept z (closeLoops c target d s)
  | 0, _, h => h
  | d + 1, s, h => by
    unfold closeLoops
    repeat' with_reducible (first | assumption | apply kept_closeLoops | apply kept_setDepth | split)

theorem kept_retire {z : State} (c next cyc : Nat) (s : State) (h0 : Kept z s) : Kept z (retire c next cyc s) := by
  unfold retire
  (try dsimp only)
  repeat' with_reducible (first | assumption | apply kept_setCore | apply kept_inc | apply kept_setPc | apply kept_haltCore | apply kept_lateHalt | (simp only [kept_mk_eq]; apply kept_of) | (simp only [coreWf]; apply kept_coreRaw) | apply kept_ite | split)

theorem kept_goOn {z : State} (c cyc : Nat) (s : State) (h0 : Kept z s) : Kept z (goOn c cyc s) := by
  unfold goOn
  (try dsimp only)
  repeat' with_reducible (first | assumption | apply kept_loopNext | apply kept_retire | apply kept_ite | split)

theorem kept_applyRet {z : State} (c : Nat) (s : State) (r : Ret) (h : KeptR z r) : Kept z (applyRet c s r) := by
  cases r <;> simp only [KeptR] at h <;> unfold applyRet <;> dsimp only
  all_goals repeat' with_reducible (first | assumption | apply kept_goOn | apply kept_retire | apply kept_closeLoops | apply kept_takeExc | apply kept_haltCore | split)

theorem kept_runIns {z : State} (c : Nat) (b : Body) (s : State) (hb : KeptB z b) (h : Kept z s) : Kept z (runIns c b s) := by
  unfold runIns
  split
  · exact h
  · split
    · exact kept_haltCore _ _ _ h
    · split
      · exact kept_takeExc _ _ _ _ _ h
      · exact kept_applyRet _ _ _ (hb c s h)

theorem kept_alu {z : State} (cyc : Nat) (f : Word → Word → Word) (rd ra rb : Nat)  : KeptB z (alu cyc f rd ra rb) := by
  unfold alu
  intro c s h
  (try dsimp only)
  repeat' with_reducible (first | assumption | apply keptR_done | apply keptR_jump | apply keptR_goto | apply keptR_exc | apply keptR_hold | apply keptR_halt | apply kept_setG | (intro _; (try dsimp only)) | apply kept_ite | split)

theorem kept_alui {z : State} (f : Word → Word) (rd ra : Nat)  : KeptB z (alui f rd ra) := by
  unfold alui
  intro c s h
  (try dsimp only)
  repeat' with_reducible (first | assumption | apply keptR_done | apply keptR_jump | apply keptR_goto | apply keptR_exc | apply keptR_hold | apply keptR_halt | apply kept_setG | (intro _; (try dsimp only)) | apply kept_ite | split)

theorem kept_iShi {z : State} (rd ra imm : Nat) : KeptB z (iShi rd ra imm) := by
  intro c s h
  unfold iShi
  split
  · exact h
  · exact kept_alui _ _ _ c s h

theorem kept_iExtu {z : State} (rd ra imm : Nat) : KeptB z (iExtu rd ra imm) := by
  intro c s h
  unfold iExtu
  split
  · exact h
  · exact kept_alui _ _ _ c s h

theorem kept_iIns {z : State} (rd ra imm : Nat)  : KeptB z (iIns rd ra imm) := by
  unfold iIns
  intro c s h
  (try dsimp only)
  repeat' with_reducible (first | assumption | apply keptR_done | apply keptR_jump | apply keptR_goto | apply keptR_exc | apply keptR_hold | apply keptR_halt | apply kept_setG | (intro _; (try dsimp only)) | apply kept_ite | split)

theorem kept_iLoad {z : State} (dev : Dev) (len : Nat) (f : Nat → Word) (rd ra imm : Nat) (hd : KeptD z dev) : KeptB z (iLoad dev len f rd ra imm) := by
  intro c s h
  unfold iLoad
  dsimp only
  split
  · exact h
  · exact kept_bark _ _ _ _ _ h
  · exact kept_setG _ _ _ _ (hd.1 _ _ _ _ h)
  · split
    · exact h
    · exact kept_setG _ _ _ _ h

theorem kept_iStore {z : State} (dev : Dev) (len rd ra imm : Nat) (hd : KeptD z dev) : KeptB z (iStore dev len rd ra imm) := by
  intro c s h
  unfold iStore
  dsimp only
  split
  · exact h
  · exact kept_bark _ _ _ _ _ h
  · exact hd.2 _ _ _ _ _ h
  · exact kept_store _ _ _ _ h

theorem kept_iLr {z : State} (rd ra imm : Nat)  : KeptB z (iLr rd ra imm) := by
  unfold iLr
  intro c s h
  (try dsimp only)
  repeat' with_reducible (first | assumption | apply keptR_done | apply keptR_jump | apply keptR_goto | apply keptR_exc | apply keptR_hold | apply keptR_halt | apply kept_setCore | apply kept_bark | apply kept_setG | (intro _; (try dsimp only)) | (simp only [kept_mk_eq]; apply kept_of) | (simp only [coreWf]; apply kept_coreRaw) | apply kept_ite | split)

theorem kept_iSc {z : State} (rd ra rb : Nat)  : KeptB z (iSc rd ra rb) := by
  unfold iSc
  intro c s h
  (try dsimp only)
  repeat' with_reducible (first | assumption | apply keptR_done | apply keptR_jump | apply keptR_goto | apply keptR_exc | apply keptR_hold | apply keptR_halt | apply kept_setCore | apply kept_bark | apply kept_store | apply kept_setG | (intro _; (try dsimp only)) | (simp only [kept_mk_eq]; apply kept_of) | (simp only [coreWf]; apply kept_coreRaw) | apply kept_ite | split)

theorem kept_iTas {z : State} (rd ra imm : Nat)  : KeptB z (iTas rd ra imm) := by
  unfold iTas
  intro c s h
  (try dsimp only)
  repeat' with_reducible (first | assumption | apply keptR_done | apply keptR_jump | apply keptR_goto | apply keptR_exc | apply keptR_hold | apply keptR_halt | apply kept_bark | apply kept_store | apply kept_setG | (intro _; (try dsimp only)) | (simp only [kept_mk_eq]; apply kept_of) | apply kept_ite | split)

theorem kept_iBranch {z : State} (w : Nat) (cond : State → Nat → Bool) (off : Nat)  : KeptB z (iBranch w cond off) := by
  unfold iBranch
  intro c s h
  (try dsimp only)
  repeat' with_reducible (first | assumption | apply keptR_done | apply keptR_jump | apply keptR_goto | apply keptR_exc | apply keptR_hold | apply keptR_halt | (intro _; (try dsimp only)) | apply kept_ite | split)

theorem kept_iCmpBr {z : State} (op : Nat) (f : Word → Word → Bool) (ra rb off : Nat)  : KeptB z (iCmpBr op f ra rb off) := by
  unfold iCmpBr
  (try dsimp only)
  repeat' with_reducible (first | assumption | apply keptR_done | apply keptR_jump | apply keptR_goto | apply keptR_exc | apply keptR_hold | apply keptR_halt | apply kept_iBranch | (intro _; (try dsimp only)) | apply kept_ite | split)

theorem kept_iBitBr {z : State} (op : Nat) (v : Bool) (ra b off : Nat)  : KeptB z (iBitBr op v ra b off) := by
  unfold iBitBr
  (try dsimp only)
  repeat' with_reducible (first | assumption | apply keptR_done | apply keptR_jump | apply keptR_goto | apply keptR_exc | apply keptR_hold | apply keptR_halt | apply kept_iBranch | (intro _; (try dsimp only)) | apply kept_ite | split)

theorem kept_iJ {z : State} (off : Nat)  : KeptB z (iJ off) := by
  unfold iJ
  intro c s h
  (try dsimp only)
  repeat' with_reducible (first | assumption | apply keptR_done | apply keptR_jump | apply keptR_goto | apply keptR_exc | apply keptR_hold | apply keptR_halt | (intro _; (try dsimp only)) | apply kept_ite | split)

theorem kept_iJal {z : State} (off : Nat)  : KeptB z (iJal off) := by
  unfold iJal
  intro c s h
  (try dsimp only)
  repeat' with_reducible (first | assumption | apply keptR_done | apply keptR_jump | apply keptR_goto | apply keptR_exc | apply keptR_hold | apply keptR_halt | apply kept_setG | (intro _; (try dsimp only)) | apply kept_ite | split)

theorem kept_iJr {z : State} (ra : Nat)  : KeptB z (iJr ra) := by
  unfold iJr
  intro c s h
  (try dsimp only)
  repeat' with_reducible (first | assumption | apply keptR_done | apply keptR_jump | apply keptR_goto | apply keptR_exc | apply keptR_hold | apply keptR_halt | (intro _; (try dsimp only)) | apply kept_ite | split)

theorem kept_iJalr {z : State} (rd ra : Nat)  : KeptB z (iJalr rd ra) := by
  unfold iJalr
  intro c s h
  (try dsimp only)
  repeat' with_reducible (first | assumption | apply keptR_done | apply keptR_jump | apply keptR_goto | apply keptR_exc | apply keptR_hold | apply keptR_halt | apply kept_setG | (intro _; (try dsimp only)) | apply kept_ite | split)

theorem kept_iLoopN {z : State} (w : Nat) (n : State → Nat → Word) (off : Nat)  : KeptB z (iLoopN w n off) := by
  unfold iLoopN
  intro c s h
  (try dsimp only)
  repeat' with_reducible (first | assumption | apply keptR_done | apply keptR_jump | apply keptR_goto | apply keptR_exc | apply keptR_hold | apply keptR_halt | apply kept_setSys | apply kept_setDepth | (intro _; (try dsimp only)) | apply kept_ite | split)

theorem kept_iLoop {z : State} (ra off : Nat)  : KeptB z (iLoop ra off) := by
  unfold iLoop
  (try dsimp only)
  repeat' with_reducible (first | assumption | apply keptR_done | apply keptR_jump | apply keptR_goto | apply keptR_exc | apply keptR_hold | apply keptR_halt | apply kept_iLoopN | (intro _; (try dsimp only)) | apply kept_ite | split)

theorem kept_iLoopi {z : State} (cnt off : Nat)  : KeptB z (iLoopi cnt off) := by
  unfold iLoopi
  (try dsimp only)
  repeat' with_reducible (first | assumption | apply keptR_done | apply keptR_jump | apply keptR_goto | apply keptR_exc | apply keptR_hold | apply keptR_halt | apply kept_iLoopN | (intro _; (try dsimp only)) | apply kept_ite | split)

theorem kept_readSys {z : State} (c n : Nat) (s : State) (h0 : Kept z s) : Kept z ((readSys c n s).1) := by
  unfold readSys
  (try dsimp only)
  repeat' with_reducible (first | assumption | apply kept_setCore | (simp only [kept_mk_eq]; apply kept_of) | (simp only [coreWf]; apply kept_coreRaw) | apply kept_ite | split)

theorem kept_iMfs {z : State} (rd imm : Nat)  : KeptB z (iMfs rd imm) := by
  unfold iMfs
  intro c s h
  (try dsimp only)
  repeat' with_reducible (first | assumption | apply keptR_done | apply keptR_jump | apply keptR_goto | apply keptR_exc | apply keptR_hold | apply keptR_halt | apply kept_setG | apply kept_readSys | (intro _; (try dsimp only)) | (simp only [kept_mk_eq]; apply kept_of) | apply kept_ite | split)

theorem kept_iMts {z : State} (imm ra : Nat)  : KeptB z (iMts imm ra) := by
  unfold iMts
  intro c s h
  (try dsimp only)
  repeat' with_reducible (first | assumption | apply keptR_done | apply keptR_jump | apply keptR_goto | apply keptR_exc | apply keptR_hold | apply keptR_halt | apply kept_bark | apply kept_setSys | (intro _; (try dsimp only)) | (simp only [kept_mk_eq]; apply kept_of) | apply kept_ite | split)

theorem kept_iNop {z : State}   : KeptB z iNop := by
  unfold iNop
  intro c s h
  (try dsimp only)
  repeat' with_reducible (first | assumption | apply keptR_done | apply keptR_jump | apply keptR_goto | apply keptR_exc | apply keptR_hold | apply keptR_halt | (intro _; (try dsimp only)) | apply kept_ite | split)

theorem kept_iFence {z : State}   : KeptB z iFence := by
  unfold iFence
  intro c s h
  (try dsimp only)
  repeat' with_reducible (first | assumption | apply keptR_done | apply keptR_jump | apply keptR_goto | apply keptR_exc | apply keptR_hold | apply keptR_halt | (intro _; (try dsimp only)) | apply kept_ite | split)

theorem kept_iWfe {z : State}   : KeptB z iWfe := by
  unfold iWfe
  intro c s h
  (try dsimp only)
  repeat' with_reducible (first | assumption | apply keptR_done | apply keptR_jump | apply keptR_goto | apply keptR_exc | apply keptR_hold | apply keptR_halt | apply kept_wr | (intro _; (try dsimp only)) | apply kept_ite | split)

theorem kept_iEret {z : State}   : KeptB z iEret := by
  unfold iEret
  intro c s h
  (try dsimp only)
  repeat' with_reducible (first | assumption | apply keptR_done | apply keptR_jump | apply keptR_goto | apply keptR_exc | apply keptR_hold | apply keptR_halt | apply kept_setCore | apply kept_setSys | (intro _; (try dsimp only)) | (simp only [kept_mk_eq]; apply kept_of) | (simp only [coreWf]; apply kept_coreRaw) | apply kept_ite | split)

theorem kept_iTrap {z : State} (code : Nat)  : KeptB z (iTrap code) := by
  unfold iTrap
  intro c s h
  (try dsimp only)
  repeat' with_reducible (first | assumption | apply keptR_done | apply keptR_jump | apply keptR_goto | apply keptR_exc | apply keptR_hold | apply keptR_halt | (intro _; (try dsimp only)) | apply kept_ite | split)

theorem kept_iBrk {z : State}   : KeptB z iBrk := by
  unfold iBrk
  intro c s h
  (try dsimp only)
  repeat' with_reducible (first | assumption | apply keptR_done | apply keptR_jump | apply keptR_goto | apply keptR_exc | apply keptR_hold | apply keptR_halt | (intro _; (try dsimp only)) | apply kept_ite | split)

theorem kept_iHalt {z : State}   : KeptB z iHalt := by
  unfold iHalt
  intro c s h
  (try dsimp only)
  repeat' with_reducible (first | assumption | apply keptR_done | apply keptR_jump | apply keptR_goto | apply keptR_exc | apply keptR_hold | apply keptR_halt | (intro _; (try dsimp only)) | apply kept_ite | split)

theorem kept_iIllegal {z : State} (w : Nat)  : KeptB z (iIllegal w) := by
  unfold iIllegal
  intro c s h
  (try dsimp only)
  repeat' with_reducible (first | assumption | apply keptR_done | apply keptR_jump | apply keptR_goto | apply keptR_exc | apply keptR_hold | apply keptR_halt | (intro _; (try dsimp only)) | apply kept_ite | split)

theorem kept_wfeWake {z : State} (c : Nat) (s : State) (h0 : Kept z s) : Kept z (wfeWake c s) := by
  unfold wfeWake
  (try dsimp only)
  repeat' with_reducible (first | assumption | apply kept_wr | apply kept_goOn | apply kept_ite | split)

theorem kept_interrupt {z : State} (c : Nat) (s : State) (h0 : Kept z s) : Kept z (interrupt c s) := by
  unfold interrupt
  (try dsimp only)
  repeat' with_reducible (first | assumption | apply kept_wr | apply kept_takeExc | apply kept_goOn | (simp only [kept_mk_eq]; apply kept_of) | apply kept_ite | split)

theorem kept_breakpoint {z : State} (c : Nat) (s : State) (h0 : Kept z s) : Kept z (breakpoint c s) := by
  unfold breakpoint
  (try dsimp only)
  repeat' with_reducible (first | assumption | apply kept_haltCore | apply kept_ite | split)

theorem kept_nodeAdd {z : State} (h : Nat) (imp : Bool) (x : BitVec 512) (s : State) (h0 : Kept z s) : Kept z ((nodeAdd h imp x s).1) := by
  unfold nodeAdd
  (try dsimp only)
  repeat' with_reducible (first | assumption | apply kept_inc | apply kept_setNode | apply kept_idxInsertAll | apply kept_ite | split)

theorem kept_nodeUpdate {z : State} (h : Nat) (imp dup drift : Bool) (x : BitVec 512) (s0 : State) (h0 : Kept z s0) : Kept z ((nodeUpdate h imp dup drift x s0).1) := by
  unfold nodeUpdate
  (try dsimp only)
  repeat' with_reducible (first | assumption | apply kept_inc | apply kept_setNode | apply kept_ctxCheck | apply kept_idxDrop | apply kept_idxInsertAll | apply kept_squashNode | (simp only [kept_mk_eq]; apply kept_of) | apply kept_ite | split)

theorem kept_nodePrune {z : State} (h : Nat) (w : PruneFor) (s0 : State) (h0 : Kept z s0) : Kept z ((nodePrune h w s0).1) := by
  unfold nodePrune
  (try dsimp only)
  repeat' with_reducible (first | assumption | apply kept_setNode | apply kept_ctxCheck | apply kept_squashNode | (simp only [kept_mk_eq]; apply kept_of) | apply kept_ite | split)

theorem kept_nodeRead {z : State} (h : Nat) (s0 : State) (h0 : Kept z s0) : Kept z ((nodeRead h s0).1) := by
  unfold nodeRead
  (try dsimp only)
  repeat' with_reducible (first | assumption | apply kept_ctxCheck | apply kept_ite | split)

theorem kept_nodeQset {z : State} (h : Nat) (hold clr : Bool) (s0 : State) (h0 : Kept z s0) : Kept z ((nodeQset h hold clr s0).1) := by
  unfold nodeQset
  (try dsimp only)
  repeat' with_reducible (first | assumption | apply kept_ncPut | apply kept_ctxCheck | apply kept_ite | split)

theorem kept_nodeOp {z : State} (op : Nat) (v : Word) (x : BitVec 512) (w : PruneFor) (s : State) (h0 : Kept z s) : Kept z ((nodeOp op v x w s).1) := by
  unfold nodeOp
  (try dsimp only)
  repeat' with_reducible (first | assumption | apply kept_nodeAdd | apply kept_nodeUpdate | apply kept_nodePrune | apply kept_nodeRead | apply kept_nodeQset | (simp only [kept_mk_eq]; apply kept_of) | apply kept_ite | split)

theorem kept_putNdata {z : State} (x : BitVec 512) (s : State) (h0 : Kept z s) : Kept z (putNdata x s) := by
  unfold putNdata
  (try dsimp only)
  repeat' with_reducible (first | assumption | apply kept_setReg | apply kept_foldl | (intro _; (try dsimp only)) | apply kept_ite | split)

theorem kept_ncmdRun {z : State} (op : Nat) (v : Word) (s : State) (h0 : Kept z s) : Kept z (ncmdRun op v s) := by
  unfold ncmdRun
  (try dsimp only)
  repeat' with_reducible (first | assumption | apply kept_setReg | apply kept_wr | apply kept_nodeOp | apply kept_putNdata | (simp only [kept_mk_eq]; apply kept_of) | apply kept_ite | split)

theorem kept_ncmd {z : State} (op : Nat) (v0 : Word) (s : State) (h0 : Kept z s) : Kept z (ncmd op v0 s) := by
  unfold ncmd
  (try dsimp only)
  repeat' with_reducible (first | assumption | apply kept_wr | apply kept_regWrite | apply kept_ncmdRun | (simp only [kept_mk_eq]; apply kept_of) | apply kept_ite | split)

theorem kept_execNodeOpAdd {z : State} (f : Fn) (v : Word) (s : State) (h0 : Kept z s) : KeptO z (execNodeOpAdd f v s) := by
  unfold execNodeOpAdd
  (try dsimp only)
  repeat' with_reducible (first | assumption | apply keptO_next | apply keptO_ranged | apply keptO_fault | apply kept_p0Only | apply kept_ncmd | apply kept_ite | split)

theorem kept_execNodeOpUpdate {z : State} (f : Fn) (v : Word) (s : State) (h0 : Kept z s) : KeptO z (execNodeOpUpdate f v s) := by
  unfold execNodeOpUpdate
  (try dsimp only)
  repeat' with_reducible (first | assumption | apply keptO_next | apply keptO_ranged | apply keptO_fault | apply kept_p0Only | apply kept_ncmd | apply kept_ite | split)

theorem kept_execNodeOpPrune {z : State} (f : Fn) (v : Word) (s : State) (h0 : Kept z s) : KeptO z (execNodeOpPrune f v s) := by
  unfold execNodeOpPrune
  (try dsimp only)
  repeat' with_reducible (first | assumption | apply keptO_next | apply keptO_ranged | apply keptO_fault | apply kept_p0Only | apply kept_ncmd | apply kept_ite | split)

theorem kept_execNodeOpRead {z : State} (f : Fn) (v : Word) (s : State) (h0 : Kept z s) : KeptO z (execNodeOpRead f v s) := by
  unfold execNodeOpRead
  (try dsimp only)
  repeat' with_reducible (first | assumption | apply keptO_next | apply keptO_ranged | apply keptO_fault | apply kept_p0Only | apply kept_ncmd | apply kept_ite | split)

theorem kept_execNodeOpQset {z : State} (f : Fn) (v : Word) (s : State) (h0 : Kept z s) : KeptO z (execNodeOpQset f v s) := by
  unfold execNodeOpQset
  (try dsimp only)
  repeat' with_reducible (first | assumption | apply keptO_next | apply keptO_ranged | apply keptO_fault | apply kept_p0Only | apply kept_ncmd | apply kept_ite | split)

theorem kept_engResult {z : State} (c rd v : Nat) (s : State) (h0 : Kept z s) : Kept z (engResult c rd v s) := by
  unfold engResult
  (try dsimp only)
  repeat' with_reducible (first | assumption | apply kept_setG | apply kept_goOn | apply kept_ite | split)

theorem kept_pruneTold {z : State} (w : PruneFor) (s : State) (h0 : Kept z s) : Kept z (pruneTold w s) := by
  unfold pruneTold
  (try dsimp only)
  repeat' with_reducible (first | assumption | apply kept_setReg | apply kept_wr | apply kept_complete | apply kept_engResult | (simp only [kept_mk_eq]; apply kept_of) | apply kept_ite | split)

theorem kept_sweepCell {z : State} (h : Nat) (s : State) (k : Nat) (h0 : Kept z s) : Kept z (sweepCell h s k) := by
  unfold sweepCell
  (try dsimp only)
  repeat' with_reducible (first | assumption | apply kept_freeCell | apply kept_tellOrigin | apply kept_ite | split)

theorem kept_endQueue {z : State} (h status : Nat) (s : State) (h0 : Kept z s) : Kept z (endQueue h status s) := by
  unfold endQueue
  (try dsimp only)
  repeat' with_reducible (first | assumption | apply kept_cellParity | apply kept_unlinkItem | apply kept_endItem | apply kept_sweepCell | apply kept_foldl | (intro _; (try dsimp only)) | (simp only [kept_mk_eq]; apply kept_of) | apply kept_ite | split)

theorem kept_pruneEnd {z : State} (h : Nat) (s : State) (h0 : Kept z s) : Kept z (pruneEnd h s) := by
  unfold pruneEnd
  (try dsimp only)
  repeat' with_reducible (first | assumption | apply kept_inc | apply kept_raise | apply kept_setNode | apply kept_idxRemove | apply kept_pruneTold | apply kept_endQueue | apply kept_foldl | (intro _; (try dsimp only)) | (simp only [kept_mk_eq]; apply kept_of) | apply kept_ite | split)

theorem kept_execPruneComplete {z : State} (h : Nat) (s : State) (h0 : Kept z s) : KeptO z (execPruneComplete h s) := by
  unfold execPruneComplete
  (try dsimp only)
  repeat' with_reducible (first | assumption | apply keptO_next | apply keptO_ranged | apply keptO_fault | apply kept_ranged | apply kept_pruneEnd | apply kept_ite | split)

theorem kept_sweepDone {z : State} (h : Nat) (s : State) (h0 : Kept z s) : Kept z (sweepDone h s) := by
  unfold sweepDone
  (try dsimp only)
  repeat' with_reducible (first | assumption | apply kept_wr | apply kept_raise | apply kept_setNode | apply kept_sweepCell | apply kept_foldl | (intro _; (try dsimp only)) | (simp only [kept_mk_eq]; apply kept_of) | apply kept_ite | split)

theorem kept_execSweepDone {z : State} (h : Nat) (s : State) (h0 : Kept z s) : KeptO z (execSweepDone h s) := by
  unfold execSweepDone
  (try dsimp only)
  repeat' with_reducible (first | assumption | apply keptO_next | apply keptO_ranged | apply keptO_fault | apply kept_ranged | apply kept_sweepDone | apply kept_ite | split)

theorem kept_writeFull {z : State} (p h : Nat) (s : State) (h0 : Kept z s) : Kept z (writeFull p h s) := by
  unfold writeFull
  (try dsimp only)
  repeat' with_reducible (first | assumption | apply kept_inc | apply kept_raise | apply kept_ncPut | apply kept_ite | split)

theorem kept_queueWrite {z : State} (p h : Nat) (hdr : BitVec 512) (data : List Byte) (s0 : State) (h0 : Kept z s0) : Kept z ((queueWrite p h hdr data s0).1) := by
  unfold queueWrite
  (try dsimp only)
  repeat' with_reducible (first | assumption | apply kept_setCell | apply kept_takeCells | apply kept_fillChain | apply kept_ncPut | apply kept_ctxCheck | apply kept_linkItem | apply kept_readHeaders | apply kept_writeFull | (simp only [kept_mk_eq]; apply kept_of) | apply kept_ite | split)

theorem kept_ntwTake {z : State} (h : Nat) (s : State) (h0 : Kept z s) : Kept z (ntwTake h s) := by
  unfold ntwTake
  (try dsimp only)
  repeat' with_reducible (first | assumption | apply kept_ctxCheck | (simp only [kept_mk_eq]; apply kept_of) | apply kept_ite | split)

theorem kept_ntwCapture {z : State} (h : Nat) (s : State) (h0 : Kept z s) : Kept z (ntwCapture h s) := by
  unfold ntwCapture
  (try dsimp only)
  repeat' with_reducible (first | assumption | apply kept_post | apply kept_ntwTake | apply kept_ite | split)

theorem kept_execNtwCapture {z : State} (f : Fn) (h : Nat) (s : State) (h0 : Kept z s) : KeptO z (execNtwCapture f h s) := by
  unfold execNtwCapture
  (try dsimp only)
  repeat' with_reducible (first | assumption | apply keptO_next | apply keptO_ranged | apply keptO_fault | apply kept_ranged | apply kept_post | apply kept_bark | apply kept_unmapped | apply kept_ntwCapture | apply kept_ite | split)

theorem kept_ntwWrite {z : State} (s : State) (h0 : Kept z s) : Kept z (ntwWrite s) := by
  unfold ntwWrite
  (try dsimp only)
  repeat' with_reducible (first | assumption | apply kept_inc | apply kept_raise | apply kept_ite | split)

theorem kept_execNtwWrite {z : State} (f : Fn) (off : Nat) (_v : Word) (s : State) (h0 : Kept z s) : KeptO z (execNtwWrite f off _v s) := by
  unfold execNtwWrite
  (try dsimp only)
  repeat' with_reducible (first | assumption | apply keptO_next | apply keptO_ranged | apply keptO_fault | apply kept_ranged | apply kept_bark | apply kept_reach | apply kept_ntwWrite | apply kept_ite | split)

theorem kept_mapErr {z : State} (off : Nat) (que : Bool) (s : State) (h0 : Kept z s) : Kept z (mapErr off que s) := by
  unfold mapErr
  (try dsimp only)
  repeat' with_reducible (first | assumption | apply kept_wr | apply kept_raise | apply kept_ite | split)

theorem kept_rxReserveWrite {z : State} (v : Nat) (s : State) (h0 : Kept z s) : Kept z (rxReserveWrite v s) := by
  unfold rxReserveWrite
  (try dsimp only)
  repeat' with_reducible (first | assumption | apply kept_wr | apply kept_mapErr | apply kept_ite | split)

theorem kept_execRxReserveWrite {z : State} (f : Fn) (v : Nat) (s : State) (h0 : Kept z s) : KeptO z (execRxReserveWrite f v s) := by
  unfold execRxReserveWrite
  (try dsimp only)
  repeat' with_reducible (first | assumption | apply keptO_next | apply keptO_ranged | apply keptO_fault | apply kept_p0Only | apply kept_rxReserveWrite | apply kept_ite | split)

theorem kept_execQueCntClrBlock {z : State} (f : Fn) (s : State) (h0 : Kept z s) : KeptO z (execQueCntClrBlock f s) := by
  unfold execQueCntClrBlock
  (try dsimp only)
  repeat' with_reducible (first | assumption | apply keptO_next | apply keptO_ranged | apply keptO_fault | apply kept_wr | apply kept_zero | apply kept_p0Only | apply kept_ite | split)

theorem kept_execQueCntClrPart {z : State} (f : Fn) (s : State) (h0 : Kept z s) : KeptO z (execQueCntClrPart f s) := by
  unfold execQueCntClrPart
  (try dsimp only)
  repeat' with_reducible (first | assumption | apply keptO_next | apply keptO_ranged | apply keptO_fault | apply kept_zero | apply kept_p0Only | apply kept_ite | split)

theorem kept_withPtr {z : State} (w ra len : Nat) (k : Nat → Nat → State → Ret) (hk : ∀ a c s, Kept z s → KeptR z (k a c s)) :
    KeptB z (withPtr w ra len k) := by
  intro c s h
  unfold withPtr
  dsimp only
  repeat' with_reducible (first | apply keptR_exc | apply hk | assumption | split)

theorem kept_readsDmem {z : State} (a n : Nat) (k : Nat → State → Ret) (hk : ∀ c s, Kept z s → KeptR z (k c s)) :
    ∀ c s, Kept z s → KeptR z (readsDmem a n k c s) := by
  intro c s h
  unfold readsDmem
  split
  · exact h
  · exact hk c s h

theorem kept_barkExc {z : State} (c tgt idx : Nat) (s : State) (h : Kept z s) : KeptR z (barkExc c tgt idx s) := keptR_exc (kept_bark _ _ _ _ _ h)

theorem kept_status {z : State} (c rd v cyc : Nat) (s : State) (h : Kept z s) : KeptR z (status c rd v cyc s) := keptR_done (kept_setG _ _ _ _ h)

theorem kept_iQrx {z : State} (rd ra : Nat)  : KeptB z (iQrx rd ra) := by
  unfold iQrx
  (try dsimp only)
  repeat' with_reducible (first | assumption | apply keptR_done | apply keptR_jump | apply keptR_goto | apply keptR_exc | apply keptR_hold | apply keptR_halt | apply kept_store | apply kept_withPtr | apply kept_status | (intro _; (try dsimp only)) | (simp only [kept_mk_eq]; apply kept_of) | apply kept_ite | split)

theorem kept_iCrd {z : State} (rd ra rb : Nat)  : KeptB z (iCrd rd ra rb) := by
  unfold iCrd
  (try dsimp only)
  repeat' with_reducible (first | assumption | apply keptR_done | apply keptR_jump | apply keptR_goto | apply keptR_exc | apply keptR_hold | apply keptR_halt | apply kept_cellParity | apply kept_store | apply kept_withPtr | apply kept_barkExc | apply kept_status | (intro _; (try dsimp only)) | (simp only [kept_mk_eq]; apply kept_of) | apply kept_ite | split)

theorem kept_iCrel {z : State} (rd ra : Nat)  : KeptB z (iCrel rd ra) := by
  unfold iCrel
  intro c s h
  (try dsimp only)
  repeat' with_reducible (first | assumption | apply keptR_done | apply keptR_jump | apply keptR_goto | apply keptR_exc | apply keptR_hold | apply keptR_halt | apply kept_settleRx | apply kept_barkExc | apply kept_status | (intro _; (try dsimp only)) | (simp only [kept_mk_eq]; apply kept_of) | apply kept_ite | split)

theorem kept_iQwr {z : State} (rd ra rb : Nat)  : KeptB z (iQwr rd ra rb) := by
  unfold iQwr
  (try dsimp only)
  repeat' with_reducible (first | assumption | apply keptR_done | apply keptR_jump | apply keptR_goto | apply keptR_exc | apply keptR_hold | apply keptR_halt | apply kept_queueWrite | apply kept_withPtr | apply kept_readsDmem | apply kept_barkExc | apply kept_status | (intro _; (try dsimp only)) | (simp only [kept_mk_eq]; apply kept_of) | apply kept_ite | split)

theorem kept_iNtf {z : State} (rd ra : Nat)  : KeptB z (iNtf rd ra) := by
  unfold iNtf
  (try dsimp only)
  repeat' with_reducible (first | assumption | apply keptR_done | apply keptR_jump | apply keptR_goto | apply keptR_exc | apply keptR_hold | apply keptR_halt | apply kept_store | apply kept_withPtr | apply kept_status | (intro _; (try dsimp only)) | (simp only [kept_mk_eq]; apply kept_of) | apply kept_ite | split)

theorem kept_iNcmd {z : State} (rd ra rb : Nat)  : KeptB z (iNcmd rd ra rb) := by
  unfold iNcmd
  (try dsimp only)
  repeat' with_reducible (first | assumption | apply keptR_done | apply keptR_jump | apply keptR_goto | apply keptR_exc | apply keptR_hold | apply keptR_halt | apply kept_setCore | apply kept_freed | apply kept_store | apply kept_setG | apply kept_nodeOp | apply kept_withPtr | apply kept_readsDmem | apply kept_barkExc | apply kept_status | (intro _; (try dsimp only)) | (simp only [kept_mk_eq]; apply kept_of) | (simp only [coreWf]; apply kept_coreRaw) | apply kept_ite | split)

theorem kept_cancelNow {z : State} (h hc : Nat) (s : State) (h0 : Kept z s) : Kept z (cancelNow h hc s) := by
  unfold cancelNow
  (try dsimp only)
  repeat' with_reducible (first | assumption | apply kept_unlinkItem | apply kept_endItem | apply kept_squashAll | apply kept_ite | split)

theorem kept_engCancel {z : State} (e h hc : Nat) (s : State) (h0 : Kept z s) : Kept z (engCancel e h hc s) := by
  unfold engCancel
  (try dsimp only)
  repeat' with_reducible (first | assumption | apply kept_tooLateNotice | apply kept_cancelNow | (simp only [kept_mk_eq]; apply kept_of) | apply kept_ite | split)

theorem kept_linkOk {z : State} (c rd : Nat) (s : State) (h0 : Kept z s) : KeptR z (linkOk c rd s) := by
  unfold linkOk
  (try dsimp only)
  repeat' with_reducible (first | assumption | apply keptR_done | apply keptR_exc | apply kept_freed | apply kept_startSeq | apply kept_status | apply kept_ite | split)

theorem kept_lcmd {z : State} (rd ra : Nat) (rsv : List Fld) (k : BitVec 128 → Nat → State → Ret) (hk : ∀ x c s, Kept z s → KeptR z (k x c s)) :
    KeptB z (lcmd rd ra rsv k) := by
  unfold lcmd
  apply kept_withPtr
  intro a
  apply kept_readsDmem
  intro c s h
  dsimp only
  repeat' with_reducible (first | apply hk | assumption | apply kept_status | split)

theorem kept_iLcancel {z : State} (rd ra : Nat)  : KeptB z (iLcancel rd ra) := by
  unfold iLcancel
  (try dsimp only)
  repeat' with_reducible (first | assumption | apply keptR_done | apply keptR_jump | apply keptR_goto | apply keptR_exc | apply keptR_hold | apply keptR_halt | apply kept_status | apply kept_engCancel | apply kept_linkOk | apply kept_lcmd | (intro _; (try dsimp only)) | (simp only [kept_mk_eq]; apply kept_of) | apply kept_ite | split)

theorem kept_iCmpArm {z : State} (rd ra : Nat)  : KeptB z (iCmpArm rd ra) := by
  unfold iCmpArm
  (try dsimp only)
  repeat' with_reducible (first | assumption | apply keptR_done | apply keptR_jump | apply keptR_goto | apply keptR_exc | apply keptR_hold | apply keptR_halt | apply kept_armCmp | apply kept_dropHeld | apply kept_barkExc | apply kept_linkOk | apply kept_lcmd | (intro _; (try dsimp only)) | apply kept_ite | split)

theorem kept_iCmpDisarm {z : State} (rd ra : Nat)  : KeptB z (iCmpDisarm rd ra) := by
  unfold iCmpDisarm
  (try dsimp only)
  repeat' with_reducible (first | assumption | apply keptR_done | apply keptR_jump | apply keptR_goto | apply keptR_exc | apply keptR_hold | apply keptR_halt | apply kept_disarmCmp | apply kept_barkExc | apply kept_linkOk | apply kept_lcmd | (intro _; (try dsimp only)) | apply kept_ite | split)

theorem kept_iCellWr {z : State} (rd ra : Nat)  : KeptB z (iCellWr rd ra) := by
  unfold iCellWr
  (try dsimp only)
  repeat' with_reducible (first | assumption | apply keptR_done | apply keptR_jump | apply keptR_goto | apply keptR_exc | apply keptR_hold | apply keptR_halt | apply kept_cellWrite | apply kept_barkExc | apply kept_linkOk | apply kept_lcmd | (intro _; (try dsimp only)) | apply kept_ite | split)

theorem kept_iEvtFire {z : State} (rd ra : Nat)  : KeptB z (iEvtFire rd ra) := by
  unfold iEvtFire
  (try dsimp only)
  repeat' with_reducible (first | assumption | apply keptR_done | apply keptR_jump | apply keptR_goto | apply keptR_exc | apply keptR_hold | apply keptR_halt | apply kept_pulse | apply kept_barkExc | apply kept_linkOk | apply kept_lcmd | (intro _; (try dsimp only)) | apply kept_ite | split)

theorem kept_iLcmd {z : State} (rd ra : Nat) : KeptB z (iLcmd rd ra) := by
  intro c s h
  unfold iLcmd
  dsimp only
  split
  · exact kept_iLcancel _ _ c s h
  · exact kept_iCmpArm _ _ c s h
  · exact kept_iCmpDisarm _ _ c s h
  · exact kept_iCellWr _ _ c s h
  · exact kept_iEvtFire _ _ c s h
  · exact kept_lcmd _ _ _ _ (fun _ c s h => kept_status _ _ _ _ _ h) c s h

theorem kept_zeros {z : State} (xs : List Nat) (b : Body) (hb : KeptB z b) : ∀ d, zeros xs b = some d → KeptB z d := by
  intro d e
  unfold zeros at e
  split at e
  · cases e; exact hb
  · cases e

theorem kept_decAlu {z : State} (fn rd ra rb : Nat) : ∀ d, decAlu fn rd ra rb = some d → KeptB z d := by
  intro d e
  unfold decAlu at e
  split at e
  all_goals first
    | (cases e; apply kept_alu)
    | exact kept_zeros _ _ (by apply kept_alui) d e
    | cases e

theorem kept_decSys {z : State} (fn rd ra rb : Nat) : ∀ d, decSys fn rd ra rb = some d → KeptB z d := by
  intro d e
  unfold decSys at e
  split at e
  all_goals first
    | exact kept_zeros _ _ (by first | exact kept_iNop | exact kept_iWfe | exact kept_iFence | exact kept_iEret | apply kept_iTrap | exact kept_iBrk | exact kept_iHalt) d e
    | cases e

theorem kept_decImm {z : State} (op rd ra imm : Nat) : ∀ d, decImm op rd ra imm = some d → KeptB z d := by
  intro d e
  unfold decImm at e
  split at e
  all_goals first
    | (cases e; first | apply kept_alui | apply kept_iShi | apply kept_iExtu | apply kept_iIns)
    | exact kept_zeros _ _ (by apply kept_alui) d e
    | cases e

theorem kept_decMem {z : State} (dev : Dev) (hd : KeptD z dev) (op rd ra rb fn imm : Nat) : ∀ d, decMem dev op rd ra rb fn imm = some d → KeptB z d := by
  intro d e
  unfold decMem at e
  split at e
  all_goals first
    | (cases e; first | exact kept_iLoad _ _ _ _ _ _ hd | exact kept_iStore _ _ _ _ _ hd | apply kept_iLr | apply kept_iTas)
    | exact kept_zeros _ _ (by apply kept_iSc) d e
    | cases e

theorem kept_decFlow {z : State} (op rd ra rb fn imm off26 : Nat) : ∀ d, decFlow op rd ra rb fn imm off26 = some d → KeptB z d := by
  intro d e
  unfold decFlow at e
  split at e
  all_goals first
    | (cases e; with_reducible first | apply kept_iBitBr | apply kept_iJ | apply kept_iJal | apply kept_iLoopi)
    | exact kept_zeros _ _ (by with_reducible first | apply kept_iJr | apply kept_iJalr | apply kept_iLoop) d e
    | cases e

theorem kept_decQueue {z : State} (op rd ra rb fn : Nat) : ∀ d, decQueue op rd ra rb fn = some d → KeptB z d := by
  intro d e
  unfold decQueue at e
  split at e
  all_goals first
    | exact kept_zeros _ _ (by first | apply kept_iQrx | apply kept_iCrd | apply kept_iCrel | apply kept_iQwr | apply kept_iNcmd | apply kept_iLcmd | apply kept_iNtf) d e
    | cases e

theorem kept_decSystem {z : State} (op rd ra rb fn imm : Nat) : ∀ d, decSystem op rd ra rb fn imm = some d → KeptB z d := by
  intro d e
  unfold decSystem at e
  split at e
  all_goals first
    | exact kept_zeros _ _ (by first | apply kept_iMfs | apply kept_iMts) d e
    | exact kept_decSys _ _ _ _ d e
    | cases e

theorem kept_decFields {z : State} (dev : Dev) (hd : KeptD z dev) (op rd ra rb fn imm off26 : Nat) :
    ∀ d, decFields dev op rd ra rb fn imm off26 = some d → KeptB z d := by
  intro d e
  unfold decFields at e
  split at e
  · exact kept_decAlu _ _ _ _ d e
  split at e
  · exact kept_decImm _ _ _ _ d e
  split at e
  · exact kept_decMem dev hd _ _ _ _ _ _ d e
  split at e
  · cases e
    apply kept_iCmpBr
  split at e
  · exact kept_decFlow _ _ _ _ _ _ _ d e
  split at e
  · exact kept_decSystem _ _ _ _ _ _ d e
  · exact kept_decQueue _ _ _ _ _ d e

theorem kept_decodeIns {z : State} (dev : Dev) (hd : KeptD z dev) (w : Word) : ∀ d, decodeIns dev w = some d → KeptB z d :=
  kept_decFields dev hd _ _ _ _ _ _ _

theorem kept_stepCore {z : State} (dev : Dev) (hd : KeptD z dev) (c : Nat) (s : State) (h : Kept z s) : Kept z (stepCore dev c s) := by
  unfold stepCore
  refine kept_runIns _ _ _ ?_ h
  cases e : decodeIns dev (fetchWord s c) with
  | none => apply kept_iIllegal
  | some b => exact kept_decodeIns dev hd _ b e

theorem kept_startCore {z : State} (c : Nat) (step : Bool) (s : State) (h0 : Kept z s) : Kept z (startCore c step s) := by
  unfold startCore
  (try dsimp only)
  repeat' with_reducible (first | assumption | apply kept_setCore | apply kept_wr | (simp only [kept_mk_eq]; apply kept_of) | (simp only [coreWf]; apply kept_coreRaw) | apply kept_ite | split)

theorem kept_engRun {z : State} (e kind : Nat) (s : State) (h0 : Kept z s) : Kept z (engRun e kind s) := by
  unfold engRun
  (try dsimp only)
  repeat' with_reducible (first | assumption | apply kept_setCore | apply kept_wr | apply kept_askLeave | apply kept_startCore | (simp only [kept_mk_eq]; apply kept_of) | (simp only [coreWf]; apply kept_coreRaw) | apply kept_ite | split)

theorem kept_coreHalt {z : State} (c : Nat) (s : State) (h0 : Kept z s) : Kept z (coreHalt c s) := by
  unfold coreHalt
  (try dsimp only)
  repeat' with_reducible (first | assumption | apply kept_setCore | apply kept_haltCore | (simp only [kept_mk_eq]; apply kept_of) | (simp only [coreWf]; apply kept_coreRaw) | apply kept_ite | split)

theorem kept_forgetPrunes {z : State} (e : Nat) (s : State) (h0 : Kept z s) : Kept z (forgetPrunes e s) := by
  unfold forgetPrunes
  (try dsimp only)
  repeat' with_reducible (first | assumption | (simp only [kept_mk_eq]; apply kept_of) | apply kept_ite | split)

theorem kept_engDiscard {z : State} (e : Nat) (s : State) (h0 : Kept z s) : Kept z (engDiscard e s) := by
  unfold engDiscard
  (try dsimp only)
  repeat' with_reducible (first | assumption | apply kept_incBy | (simp only [kept_mk_eq]; apply kept_of) | apply kept_ite | split)

theorem kept_engReset {z : State} (e : Nat) (clear : Bool) (s : State) (h0 : Kept z s) : Kept z (engReset e clear s) := by
  unfold engReset
  (try dsimp only)
  repeat' with_reducible (first | assumption | apply kept_setCore | apply kept_coreReset | apply kept_engDiscard | (simp only [kept_mk_eq]; apply kept_of) | (simp only [coreWf]; apply kept_coreRaw) | apply kept_ite | split)

theorem kept_engClear {z : State} (e : Nat) (s : State) (h0 : Kept z s) : Kept z (engClear e s) := by
  unfold engClear
  (try dsimp only)
  repeat' with_reducible (first | assumption | apply kept_coreReset | apply kept_forgetPrunes | apply kept_engDiscard | apply kept_ite | split)

theorem kept_zeroEngine {z : State} (e : Nat) (s : State) (h0 : Kept z s) : Kept z (zeroEngine e s) := by
  unfold zeroEngine
  (try dsimp only)
  repeat' with_reducible (first | assumption | apply kept_zeroMem | apply kept_ite | split)

theorem kept_clearDone {z : State} (e : Nat) (s : State) (h0 : Kept z s) : Kept z (clearDone e s) := by
  unfold clearDone
  (try dsimp only)
  repeat' with_reducible (first | assumption | apply kept_wr | apply kept_zeroEngine | apply kept_ite | split)

theorem kept_imemWrite {z : State} (e off : Nat) (bs : List Byte) (s : State) (h0 : Kept z s) : Kept z (imemWrite e off bs s) := by
  unfold imemWrite
  (try dsimp only)
  repeat' with_reducible (first | assumption | apply kept_wr | apply kept_store | apply kept_ite | split)

theorem kept_ownEngine {z : State} (f : Fn) (off e : Nat) (t s : State) (h0 : Kept z t) (h1 : Kept z s) : Kept z (ownEngine f off e t s) := by
  unfold ownEngine
  (try dsimp only)
  repeat' with_reducible (first | assumption | apply kept_bark | apply kept_ite | split)

theorem kept_wakeCluster {z : State} (c : Nat) (s : State) (h0 : Kept z s) : Kept z (wakeCluster c s) := by
  unfold wakeCluster
  (try dsimp only)
  repeat' with_reducible (first | assumption | apply kept_wr | apply kept_askLeave | apply kept_ite | split)

theorem kept_sleepCluster {z : State} (c : Nat) (s : State) (h0 : Kept z s) : Kept z (sleepCluster c s) := by
  unfold sleepCluster
  (try dsimp only)
  repeat' with_reducible (first | assumption | apply kept_setCore | apply kept_wr | apply kept_returnLeave | apply kept_foldl | (intro _; (try dsimp only)) | (simp only [kept_mk_eq]; apply kept_of) | (simp only [coreWf]; apply kept_coreRaw) | apply kept_ite | split)

theorem kept_clusterOn {z : State} (c : Nat) (s : State) (h0 : Kept z s) : Kept z (clusterOn c s) := by
  unfold clusterOn
  (try dsimp only)
  repeat' with_reducible (first | assumption | apply kept_wr | apply kept_startCore | apply kept_foldl | (intro _; (try dsimp only)) | (simp only [kept_mk_eq]; apply kept_of) | apply kept_ite | split)

theorem kept_supRun {z : State} (n : Nat) (step : Bool) (s : State) (h0 : Kept z s) : Kept z (supRun n step s) := by
  unfold supRun
  (try dsimp only)
  repeat' with_reducible (first | assumption | apply kept_startCore | apply kept_ite | split)

theorem kept_supReset {z : State} (n : Nat) (s : State) (h : Kept z s) : Kept z (supReset n s) :=
  kept_setCore _ _ _ (kept_wr _ _ _ (kept_wr _ _ _ h)) rfl

theorem kept_noDev {z : State} : KeptD z noDev := ⟨fun _ _ _ _ h => h, fun _ _ _ _ _ h => h⟩

theorem kept_stepNow {z : State} (dev : Dev) (hd : KeptD z dev) (c : Nat) (s : State) (h : Kept z s) : Kept z (stepNow dev c s) := by
  unfold stepNow
  split
  · exact kept_stepCore dev hd c s h
  · exact h

theorem kept_engCtrl {z : State} (e : Nat) (run halt step reset clear : Bool) (s : State) (h0 : Kept z s) : Kept z (engCtrl e run halt step reset clear s) := by
  unfold engCtrl
  (try dsimp only)
  repeat' with_reducible (first | assumption | apply kept_engRun | apply kept_coreHalt | apply kept_engReset | apply kept_noDev | apply kept_stepNow | apply kept_ite | split)

theorem kept_engWrite {z : State} (e r : Nat) (v : Word) (s : State) (h0 : Kept z s) : Kept z (engWrite e r v s) := by
  unfold engWrite
  (try dsimp only)
  repeat' with_reducible (first | assumption | apply kept_wr | apply kept_regWrite | apply kept_setG | apply kept_setPc | apply kept_engCtrl | apply kept_ite | split)

theorem kept_engWrites {z : State} (e : Nat) : ∀ (l : List Word) (r : Nat) (s : State), Kept z s → Kept z (engWrites e l r s)
  | [], _, _, h => h
  | w :: ws, r, s, h => kept_engWrites e ws (r + 4) _ (by apply kept_engWrite; exact h)

theorem kept_supCtrl {z : State} (n : Nat) (run halt step reset : Bool) (s : State) (h0 : Kept z s) : Kept z (supCtrl n run halt step reset s) := by
  unfold supCtrl
  (try dsimp only)
  repeat' with_reducible (first | assumption | apply kept_coreHalt | apply kept_supRun | apply kept_supReset | apply kept_ite | split)

theorem kept_supWrite {z : State} (n r : Nat) (v : Word) (s : State) (h0 : Kept z s) : Kept z (supWrite n r v s) := by
  unfold supWrite
  (try dsimp only)
  repeat' with_reducible (first | assumption | apply kept_wr | apply kept_regWrite | apply kept_setG | apply kept_setPc | apply kept_supCtrl | apply kept_ite | split)

theorem kept_engPut {z : State} (e mem off : Nat) (bs : List Byte) (s : State) (h0 : Kept z s) : Kept z (engPut e mem off bs s) := by
  unfold engPut
  (try dsimp only)
  repeat' with_reducible (first | assumption | apply kept_store | apply kept_imemWrite | apply kept_engWrites | apply kept_ite | split)

end Sys2Proof.Machine
end

