-- ==== Sys2Proof/Laws/KeepHost.lean ====
section
/-! SUPPORT. What every command keeps, for the cipher, the host ports and the partition map: one lemma per operation. -/

set_option linter.unusedTactic false
set_option linter.unreachableTactic false
set_option linter.unusedVariables false
set_option linter.unusedSimpArgs false

namespace Sys2Proof.Machine

theorem kept_loadSlot {z : State} (k : Kop) (plain : List Byte) (s : State) (h0 : Kept z s) : Kept z (loadSlot k plain s) := by
  unfold loadSlot
  (try dsimp only)
  repeat' with_reducible (first | assumption | apply kept_setKslot | apply kept_setLslot | apply kept_squashSlot | apply kept_ite | split)

theorem kept_eraseSlot {z : State} (k : Kop) (s : State) (h0 : Kept z s) : Kept z (eraseSlot k s) := by
  unfold eraseSlot
  (try dsimp only)
  repeat' with_reducible (first | assumption | apply kept_setKslot | apply kept_setLslot | apply kept_squashSlot | apply kept_ite | split)

theorem kept_unwrapIssue {z : State} (s : State) (h0 : Kept z s) : Kept z (unwrapIssue s) := by
  unfold unwrapIssue
  (try dsimp only)
  repeat' with_reducible (first | assumption | (simp only [kept_mk_eq]; apply kept_of) | apply kept_ite | split)

theorem kept_kopRun {z : State} {k : Kop} {s : State} {r : State × Nat} (e : kopRun k s = some r) (h : Kept z s) : Kept z r.1 := by
  unfold kopRun at e
  dsimp only at e
  repeat' split at e
  all_goals cases e
  all_goals dsimp only
  all_goals repeat' with_reducible (first | assumption | apply kept_bark | apply kept_loadSlot | apply kept_eraseSlot | split)

theorem kept_kopReg {z : State} (k : Kop) (st : Nat) (s : State) (h0 : Kept z s) : Kept z (kopReg k st s) := by
  unfold kopReg
  (try dsimp only)
  repeat' with_reducible (first | assumption | apply kept_wr | apply kept_ite | split)

theorem kept_kopHost {z : State} (k : Kop) (x st : Nat) (s : State) (h0 : Kept z s) : Kept z (kopHost k x st s) := by
  unfold kopHost
  (try dsimp only)
  repeat' with_reducible (first | assumption | apply kept_complete | apply kept_ite | split)

theorem kept_kopDone {z : State} (s0 : State) (h0 : Kept z s0) : Kept z (kopDone s0) := by
  unfold kopDone
  have h := kept_unwrapIssue s0 h0
  dsimp only
  generalize unwrapIssue s0 = s at h
  split
  · exact h
  · split
    · exact h
    · rename_i e
      have h1 := kept_kopRun e h
      dsimp only at h1 ⊢
      repeat' with_reducible (first | assumption | apply kept_kopReg | apply kept_kopHost | apply kept_raise | apply kept_inc | apply kept_unwrapIssue | (simp only [kept_mk_eq]; apply kept_of) | split)

theorem kept_execKopDone {z : State} (s : State) (h0 : Kept z s) : KeptO z (execKopDone s) := by
  unfold execKopDone
  (try dsimp only)
  repeat' with_reducible (first | assumption | apply keptO_next | apply keptO_ranged | apply keptO_fault | apply kept_kopDone | apply kept_ite | split)

theorem kept_kopAsk {z : State} (k : Kop) (s : State) (h0 : Kept z s) : Kept z (kopAsk k s) := by
  unfold kopAsk
  (try dsimp only)
  repeat' with_reducible (first | assumption | apply kept_unwrapIssue | (simp only [kept_mk_eq]; apply kept_of) | apply kept_ite | split)

theorem kept_kopCmd {z : State} (op slot : Nat) (long : Bool) (s : State) (h0 : Kept z s) : Kept z (kopCmd op slot long s) := by
  unfold kopCmd
  (try dsimp only)
  repeat' with_reducible (first | assumption | apply kept_wr | apply kept_kopAsk | apply kept_ite | split)

theorem kept_execLoad {z : State} (f : Fn) (slot : Nat) (long : Bool) (s : State) (h0 : Kept z s) : KeptO z (execLoad f slot long s) := by
  unfold execLoad
  (try dsimp only)
  repeat' with_reducible (first | assumption | apply keptO_next | apply keptO_ranged | apply keptO_fault | apply kept_p0Only | apply kept_kopCmd | apply kept_ite | split)

theorem kept_execReplace {z : State} (f : Fn) (slot : Nat) (long : Bool) (s : State) (h0 : Kept z s) : KeptO z (execReplace f slot long s) := by
  unfold execReplace
  (try dsimp only)
  repeat' with_reducible (first | assumption | apply keptO_next | apply keptO_ranged | apply keptO_fault | apply kept_p0Only | apply kept_kopCmd | apply kept_ite | split)

theorem kept_execErase {z : State} (f : Fn) (slot : Nat) (long : Bool) (s : State) (h0 : Kept z s) : KeptO z (execErase f slot long s) := by
  unfold execErase
  (try dsimp only)
  repeat' with_reducible (first | assumption | apply keptO_next | apply keptO_ranged | apply keptO_fault | apply kept_p0Only | apply kept_kopCmd | apply kept_ite | split)

theorem kept_execStatus {z : State} (f : Fn) (slot : Nat) (long : Bool) (s : State) (h0 : Kept z s) : KeptO z (execStatus f slot long s) := by
  unfold execStatus
  (try dsimp only)
  repeat' with_reducible (first | assumption | apply keptO_next | apply keptO_ranged | apply keptO_fault | apply kept_p0Only | apply kept_kopCmd | apply kept_ite | split)

theorem kept_sealIssue {z : State} (s : State) (h0 : Kept z s) : Kept z (sealIssue s) := by
  unfold sealIssue
  (try dsimp only)
  repeat' with_reducible (first | assumption | (simp only [kept_mk_eq]; apply kept_of) | apply kept_ite | split)

theorem kept_sealCmd {z : State} (op long : Nat) (s : State) (h0 : Kept z s) : Kept z (sealCmd op long s) := by
  unfold sealCmd
  (try dsimp only)
  repeat' with_reducible (first | assumption | apply kept_wr | apply kept_sealIssue | (simp only [kept_mk_eq]; apply kept_of) | apply kept_ite | split)

theorem kept_execSeal {z : State} (f : Fn) (long : Nat) (s : State) (h0 : Kept z s) : KeptO z (execSeal f long s) := by
  unfold execSeal
  (try dsimp only)
  repeat' with_reducible (first | assumption | apply keptO_next | apply keptO_ranged | apply keptO_fault | apply kept_p0Only | apply kept_sealCmd | apply kept_ite | split)

theorem kept_execUnseal {z : State} (f : Fn) (long : Nat) (s : State) (h0 : Kept z s) : KeptO z (execUnseal f long s) := by
  unfold execUnseal
  (try dsimp only)
  repeat' with_reducible (first | assumption | apply keptO_next | apply keptO_ranged | apply keptO_fault | apply kept_p0Only | apply kept_sealCmd | apply kept_ite | split)

theorem kept_sealEnd {z : State} (status : Nat) (s : State) (h0 : Kept z s) : Kept z (sealEnd status s) := by
  unfold sealEnd
  (try dsimp only)
  repeat' with_reducible (first | assumption | apply kept_wr | apply kept_status | (simp only [kept_mk_eq]; apply kept_of) | apply kept_ite | split)

theorem kept_sealDone {z : State} (s0 : State) (h0 : Kept z s0) : Kept z (sealDone s0) := by
  unfold sealDone
  (try dsimp only)
  repeat' with_reducible (first | assumption | apply kept_store | apply kept_sealIssue | apply kept_sealEnd | (simp only [kept_mk_eq]; apply kept_of) | apply kept_ite | split)

theorem kept_execSealDone {z : State} (s : State) (h0 : Kept z s) : KeptO z (execSealDone s) := by
  unfold execSealDone
  (try dsimp only)
  repeat' with_reducible (first | assumption | apply keptO_next | apply keptO_ranged | apply keptO_fault | apply kept_sealDone | apply kept_ite | split)

theorem kept_markPop {z : State} (s : State) (h0 : Kept z s) : Kept z (markPop s) := by
  unfold markPop
  (try dsimp only)
  repeat' with_reducible (first | assumption | (simp only [kept_mk_eq]; apply kept_of) | apply kept_ite | split)

theorem kept_execMarkPop {z : State} (f : Fn) (s : State) (h0 : Kept z s) : KeptO z (execMarkPop f s) := by
  unfold execMarkPop
  (try dsimp only)
  repeat' with_reducible (first | assumption | apply keptO_next | apply keptO_ranged | apply keptO_fault | apply kept_p0Only | apply kept_markPop | apply kept_ite | split)

theorem kept_abortTx {z : State} (s : State) (e : Nat) (h0 : Kept z s) : Kept z (abortTx s e) := by
  unfold abortTx
  (try dsimp only)
  repeat' with_reducible (first | assumption | apply kept_inc | apply kept_freeCells | apply kept_setEnt | (simp only [kept_mk_eq]; apply kept_of) | apply kept_ite | split)

theorem kept_abortRx {z : State} (s : State) (cell : Nat) (h0 : Kept z s) : Kept z (abortRx s cell) := by
  unfold abortRx
  (try dsimp only)
  repeat' with_reducible (first | assumption | apply kept_inc | (simp only [kept_mk_eq]; apply kept_of) | apply kept_ite | split)

theorem kept_abortUnwrap {z : State} (s : State) (h0 : Kept z s) : Kept z (abortUnwrap s) := by
  unfold abortUnwrap
  (try dsimp only)
  repeat' with_reducible (first | assumption | apply kept_inc | (simp only [kept_mk_eq]; apply kept_of) | apply kept_ite | split)

theorem kept_abortSeal {z : State} (s : State) (h0 : Kept z s) : Kept z (abortSeal s) := by
  unfold abortSeal
  (try dsimp only)
  repeat' with_reducible (first | assumption | apply kept_inc | (simp only [kept_mk_eq]; apply kept_of) | apply kept_ite | split)

theorem kept_abortJobs {z : State} (s0 : State) (h0 : Kept z s0) : Kept z (abortJobs s0) := by
  unfold abortJobs
  (try dsimp only)
  repeat' with_reducible (first | assumption | apply kept_abortTx | apply kept_abortRx | apply kept_abortUnwrap | apply kept_abortSeal | apply kept_foldl | (intro _; (try dsimp only)) | (simp only [kept_mk_eq]; apply kept_of) | apply kept_ite | split)

theorem kept_failAwaiting {z : State} : ∀ (l : List Rx) (s : State), Kept z s → Kept z (failAwaiting l s)
  | [], _, h => h
  | r :: rs, s, h => by
    unfold failAwaiting
    refine kept_failAwaiting rs _ ?_
    split
    · apply kept_verifyFails; exact h
    · exact h

theorem kept_sealLost {z : State} (was : Bool) (s : State) (h0 : Kept z s) : Kept z (sealLost was s) := by
  unfold sealLost
  (try dsimp only)
  repeat' with_reducible (first | assumption | apply kept_sealEnd | (simp only [kept_mk_eq]; apply kept_of) | apply kept_ite | split)

theorem kept_erasure {z : State} (s : State) (h0 : Kept z s) : Kept z (erasure s) := by
  unfold erasure
  (try dsimp only)
  repeat' with_reducible (first | assumption | apply kept_inc | apply kept_squashAll | apply kept_abortJobs | apply kept_failAwaiting | apply kept_sealLost | (simp only [kept_mk_eq]; apply kept_of) | apply kept_ite | split)

theorem kept_alarmBit {z : State} (a : Nat) (s : State) (h0 : Kept z s) : Kept z (alarmBit a s) := by
  unfold alarmBit
  (try dsimp only)
  repeat' with_reducible (first | assumption | apply kept_wr | apply kept_raise | apply kept_ite | split)

theorem kept_causesGone {z : State} (s : State) (h0 : Kept z s) : Kept z (causesGone s) := by
  unfold causesGone
  (try dsimp only)
  repeat' with_reducible (first | assumption | apply kept_wr | apply kept_freed | apply kept_ite | split)

theorem kept_haltFor {z : State} (a : Nat) (s : State) (h0 : Kept z s) : Kept z (haltFor a s) := by
  unfold haltFor
  (try dsimp only)
  repeat' with_reducible (first | assumption | (simp only [kept_mk_eq]; apply kept_of) | apply kept_ite | split)

theorem kept_alarm {z : State} (a : Nat) (s : State) (h0 : Kept z s) : Kept z (alarm a s) := by
  unfold alarm
  (try dsimp only)
  repeat' with_reducible (first | assumption | apply kept_abortJobs | apply kept_erasure | apply kept_alarmBit | apply kept_haltFor | (simp only [kept_mk_eq]; apply kept_of) | apply kept_ite | split)

theorem kept_faultRx {z : State} (k : Nat) (s : State) (h0 : Kept z s) : Kept z (faultRx k s) := by
  unfold faultRx
  (try dsimp only)
  repeat' with_reducible (first | assumption | apply kept_inc | apply kept_dropRx | apply kept_ackVerdict | (simp only [kept_mk_eq]; apply kept_of) | apply kept_ite | split)

theorem kept_faultTx {z : State} (e : Nat) (s : State) (h0 : Kept z s) : Kept z (faultTx e s) := by
  unfold faultTx
  (try dsimp only)
  repeat' with_reducible (first | assumption | apply kept_abortTx | (simp only [kept_mk_eq]; apply kept_of) | apply kept_ite | split)

theorem kept_faultTxJob {z : State} (e : Nat) (s : State) (h0 : Kept z s) : Kept z (faultTxJob e s) := by
  unfold faultTxJob
  (try dsimp only)
  repeat' with_reducible (first | assumption | apply kept_abortUnwrap | apply kept_abortSeal | apply kept_faultTx | apply kept_ite | split)

theorem kept_execAlarm {z : State} (a : Nat) (rx tx : Option Nat) (s : State) (h0 : Kept z s) : KeptO z (execAlarm a rx tx s) := by
  unfold execAlarm
  (try dsimp only)
  repeat' with_reducible (first | assumption | apply keptO_next | apply keptO_ranged | apply keptO_fault | apply kept_ranged | apply kept_alarm | apply kept_faultRx | apply kept_faultTxJob | (simp only [kept_mk_eq]; apply kept_of) | apply kept_ite | split)

theorem kept_alarmClear {z : State} (v : Nat) (s : State) (h0 : Kept z s) : Kept z (alarmClear v s) := by
  unfold alarmClear
  (try dsimp only)
  repeat' with_reducible (first | assumption | apply kept_wr | (simp only [kept_mk_eq]; apply kept_of) | apply kept_ite | split)

theorem kept_execAlarmClear {z : State} (f : Fn) (v present : Nat) (s : State) (h0 : Kept z s) : KeptO z (execAlarmClear f v present s) := by
  unfold execAlarmClear
  (try dsimp only)
  repeat' with_reducible (first | assumption | apply keptO_next | apply keptO_ranged | apply keptO_fault | apply kept_wr | apply kept_p0Only | apply kept_alarmClear | apply kept_ite | split)

theorem kept_rngFail {z : State} (apt : Bool) (s : State) (h0 : Kept z s) : Kept z (rngFail apt s) := by
  unfold rngFail
  (try dsimp only)
  repeat' with_reducible (first | assumption | apply kept_wr | apply kept_inc | apply kept_raise | apply kept_ite | split)

theorem kept_execRngHealthFail {z : State} (apt : Bool) (s : State) (h0 : Kept z s) : KeptO z (execRngHealthFail apt s) := by
  unfold execRngHealthFail
  (try dsimp only)
  repeat' with_reducible (first | assumption | apply keptO_next | apply keptO_ranged | apply keptO_fault | apply kept_rngFail | apply kept_ite | split)

theorem kept_execRngOk {z : State} (s : State) (h0 : Kept z s) : KeptO z (execRngOk s) := by
  unfold execRngOk
  (try dsimp only)
  repeat' with_reducible (first | assumption | apply keptO_next | apply keptO_ranged | apply keptO_fault | apply kept_wr | (simp only [kept_mk_eq]; apply kept_of) | apply kept_ite | split)

theorem kept_reseed {z : State} (s : State) (h0 : Kept z s) : Kept z (reseed s) := by
  unfold reseed
  (try dsimp only)
  repeat' with_reducible (first | assumption | apply kept_wr | apply kept_alarm | apply kept_ite | split)

theorem kept_execReseed {z : State} (s : State) (h0 : Kept z s) : KeptO z (execReseed s) := by
  unfold execReseed
  (try dsimp only)
  repeat' with_reducible (first | assumption | apply keptO_next | apply keptO_ranged | apply keptO_fault | apply kept_reseed | apply kept_ite | split)

theorem kept_execSecCntClrBlock {z : State} (f : Fn) (s : State) (h0 : Kept z s) : KeptO z (execSecCntClrBlock f s) := by
  unfold execSecCntClrBlock
  (try dsimp only)
  repeat' with_reducible (first | assumption | apply keptO_next | apply keptO_ranged | apply keptO_fault | apply kept_zero | apply kept_p0Only | apply kept_ite | split)

theorem kept_execSecCntClrPart {z : State} (f : Fn) (s : State) (h0 : Kept z s) : KeptO z (execSecCntClrPart f s) := by
  unfold execSecCntClrPart
  (try dsimp only)
  repeat' with_reducible (first | assumption | apply keptO_next | apply keptO_ranged | apply keptO_fault | apply kept_zero | apply kept_p0Only | apply kept_ite | split)

theorem kept_portErr {z : State} (q code : Nat) (s : State) (h0 : Kept z s) : Kept z (portErr q code s) := by
  unfold portErr
  (try dsimp only)
  repeat' with_reducible (first | assumption | apply kept_wr | apply kept_raise | apply kept_ite | split)

theorem kept_restamp {z : State} (p : Nat) (s : State) (h0 : Kept z s) : Kept z (restamp p s) := by
  unfold restamp
  (try dsimp only)
  repeat' with_reducible (first | assumption | apply kept_ready | (simp only [kept_mk_eq]; apply kept_of) | apply kept_ite | split)

theorem kept_portOn {z : State} (q : Nat) (s0 : State) (h0 : Kept z s0) : Kept z (portOn q s0) := by
  unfold portOn
  (try dsimp only)
  repeat' with_reducible (first | assumption | apply kept_wr | apply kept_setStage | apply kept_setPort | apply kept_restamp | apply kept_ite | split)

theorem kept_portEnable {z : State} (f : Fn) (q : Nat) (s : State) (h0 : Kept z s) : Kept z (portEnable f q s) := by
  unfold portEnable
  (try dsimp only)
  repeat' with_reducible (first | assumption | apply kept_wr | apply kept_bark | apply kept_portErr | apply kept_portOn | apply kept_ite | split)

theorem kept_execPortEnable {z : State} (f : Fn) (q : Nat) (s : State) (h0 : Kept z s) : KeptO z (execPortEnable f q s) := by
  unfold execPortEnable
  (try dsimp only)
  repeat' with_reducible (first | assumption | apply keptO_next | apply keptO_ranged | apply keptO_fault | apply kept_ranged | apply kept_reach | apply kept_portEnable | apply kept_ite | split)

theorem kept_withdrawItem {z : State} (h hc : Nat) (s : State) (h0 : Kept z s) : Kept z (withdrawItem h hc s) := by
  unfold withdrawItem
  (try dsimp only)
  repeat' with_reducible (first | assumption | apply kept_unlinkItem | apply kept_dropItem | apply kept_setEnt | apply kept_squashAll | apply kept_foldl | (intro _; (try dsimp only)) | (simp only [kept_mk_eq]; apply kept_of) | apply kept_ite | split)

theorem kept_withdrawCtx {z : State} (s : State) (p : Nat × Ctx) (h0 : Kept z s) : Kept z (withdrawCtx s p) := by
  unfold withdrawCtx
  (try dsimp only)
  repeat' with_reducible (first | assumption | apply kept_dropCtx | apply kept_withdrawItem | (simp only [kept_mk_eq]; apply kept_of) | apply kept_ite | split)

theorem kept_portClose {z : State} (q : Nat) (s : State) (h0 : Kept z s) : Kept z (portClose q s) := by
  unfold portClose
  (try dsimp only)
  repeat' with_reducible (first | assumption | apply kept_wr | apply kept_setPort | apply kept_ready | apply kept_restamp | apply kept_withdrawCtx | apply kept_foldl | (intro _; (try dsimp only)) | (simp only [kept_mk_eq]; apply kept_of) | apply kept_ite | split)

theorem kept_portDisable {z : State} (f : Fn) (q : Nat) (s : State) (h0 : Kept z s) : Kept z (portDisable f q s) := by
  unfold portDisable
  (try dsimp only)
  repeat' with_reducible (first | assumption | apply kept_wr | apply kept_bark | apply kept_portClose | apply kept_ite | split)

theorem kept_execPortDisable {z : State} (f : Fn) (q : Nat) (s : State) (h0 : Kept z s) : KeptO z (execPortDisable f q s) := by
  unfold execPortDisable
  (try dsimp only)
  repeat' with_reducible (first | assumption | apply keptO_next | apply keptO_ranged | apply keptO_fault | apply kept_ranged | apply kept_reach | apply kept_portDisable | apply kept_ite | split)

theorem kept_portDisabled {z : State} (q : Nat) (s : State) (h0 : Kept z s) : Kept z (portDisabled q s) := by
  unfold portDisabled
  (try dsimp only)
  repeat' with_reducible (first | assumption | apply kept_wr | apply kept_setPort | apply kept_ite | split)

theorem kept_execPortDisabled {z : State} (q : Nat) (s : State) (h0 : Kept z s) : KeptO z (execPortDisabled q s) := by
  unfold execPortDisabled
  (try dsimp only)
  repeat' with_reducible (first | assumption | apply keptO_next | apply keptO_ranged | apply keptO_fault | apply kept_ranged | apply kept_portDisabled | apply kept_ite | split)

theorem kept_orphan {z : State} (q : Nat) (s : State) (h0 : Kept z s) : Kept z (orphan q s) := by
  unfold orphan
  (try dsimp only)
  repeat' with_reducible (first | assumption | (simp only [kept_mk_eq]; apply kept_of) | apply kept_ite | split)

theorem kept_portAbort {z : State} (q : Nat) (s : State) (h0 : Kept z s) : Kept z (portAbort q s) := by
  unfold portAbort
  (try dsimp only)
  repeat' with_reducible (first | assumption | apply kept_wr | apply kept_portClose | apply kept_portDisabled | apply kept_orphan | (simp only [kept_mk_eq]; apply kept_of) | apply kept_ite | split)

theorem kept_ownDoorbell {z : State} (f : Fn) (q : Nat) (t s : State) (h0 : Kept z t) (h1 : Kept z s) : Kept z (ownDoorbell f q t s) := by
  unfold ownDoorbell
  (try dsimp only)
  repeat' with_reducible (first | assumption | apply kept_bark | apply kept_ite | split)

theorem kept_sqTail {z : State} (q v : Nat) (s : State) (h0 : Kept z s) : Kept z (sqTail q v s) := by
  unfold sqTail
  (try dsimp only)
  repeat' with_reducible (first | assumption | apply kept_wr | apply kept_setPort | (simp only [kept_mk_eq]; apply kept_of) | apply kept_ite | split)

theorem kept_execSqTail {z : State} (f : Fn) (q v : Nat) (s : State) (h0 : Kept z s) : KeptO z (execSqTail f q v s) := by
  unfold execSqTail
  (try dsimp only)
  repeat' with_reducible (first | assumption | apply keptO_next | apply keptO_ranged | apply keptO_fault | apply kept_ranged | apply kept_reach | apply kept_ownDoorbell | apply kept_sqTail | apply kept_ite | split)

theorem kept_cqHead {z : State} (q v : Nat) (s : State) (h0 : Kept z s) : Kept z (cqHead q v s) := by
  unfold cqHead
  (try dsimp only)
  repeat' with_reducible (first | assumption | apply kept_setPort | (simp only [kept_mk_eq]; apply kept_of) | apply kept_ite | split)

theorem kept_execCqHead {z : State} (f : Fn) (q v : Nat) (s : State) (h0 : Kept z s) : KeptO z (execCqHead f q v s) := by
  unfold execCqHead
  (try dsimp only)
  repeat' with_reducible (first | assumption | apply keptO_next | apply keptO_ranged | apply keptO_fault | apply kept_ranged | apply kept_reach | apply kept_ownDoorbell | apply kept_cqHead | apply kept_ite | split)

theorem kept_tagCheck {z : State} (x : Nat) (c : Ctx) (s : State) (h0 : Kept z s) : Kept z (tagCheck x c s) := by
  unfold tagCheck
  (try dsimp only)
  repeat' with_reducible (first | assumption | apply kept_setCtx | apply kept_readyCtx | (simp only [kept_mk_eq]; apply kept_of) | apply kept_ite | split)

theorem kept_fetchOne {z : State} (q : Nat) (s : State) (e : List Byte) (h0 : Kept z s) : Kept z (fetchOne q s e) := by
  unfold fetchOne
  (try dsimp only)
  repeat' with_reducible (first | assumption | apply kept_wr | apply kept_inc | apply kept_freed | apply kept_raise | apply kept_tagCheck | (simp only [kept_mk_eq]; apply kept_of) | apply kept_ite | split)

theorem kept_fetch {z : State} (q : Nat) (d : Dma) (s : State) (h0 : Kept z s) : Kept z (fetch q d s) := by
  unfold fetch
  (try dsimp only)
  repeat' with_reducible (first | assumption | apply kept_inc | apply kept_setPort | apply kept_portErr | apply kept_fetchOne | apply kept_foldl | (intro _; (try dsimp only)) | (simp only [kept_mk_eq]; apply kept_of) | apply kept_ite | split)

theorem kept_execFetch {z : State} (q : Nat) (d : Dma) (s : State) (h0 : Kept z s) : KeptO z (execFetch q d s) := by
  unfold execFetch
  (try dsimp only)
  repeat' with_reducible (first | assumption | apply keptO_next | apply keptO_ranged | apply keptO_fault | apply kept_ranged | apply kept_fetch | apply kept_ite | split)

theorem kept_runOp {z : State} (op stage x : Nat) (k : Ctx → State → State) (s : State) (h : Kept z s)
    (hk : ∀ c u, Kept z u → Kept z (k c u)) : Kept z (runOp op stage x k s) := by
  unfold runOp
  repeat' with_reducible (first | assumption | apply kept_complete | apply hk | split)

theorem kept_ownNode {z : State} (x : Nat) (c : Ctx) (t s : State) (h0 : Kept z t) (h1 : Kept z s) : Kept z (ownNode x c t s) := by
  unfold ownNode
  (try dsimp only)
  repeat' with_reducible (first | assumption | apply kept_bark | apply kept_complete | apply kept_ite | split)

theorem kept_withData {z : State} (x : Nat) (c : Ctx) (d : Dma) (k : List Byte → State → State) (s : State) (h : Kept z s)
    (hk : ∀ bs u, Kept z u → Kept z (k bs u)) : Kept z (withData x c d k s) := by
  unfold withData
  repeat' with_reducible (first | assumption | apply kept_complete | apply kept_inc | apply hk | split)

theorem kept_begun {z : State} (x : Nat) (c : Ctx) (s : State) (h0 : Kept z s) : Kept z (begun x c s) := by
  unfold begun
  (try dsimp only)
  repeat' with_reducible (first | assumption | apply kept_setCtx | (simp only [kept_mk_eq]; apply kept_of) | apply kept_ite | split)

theorem kept_badOpcode {z : State} (x : Nat) (s : State) (h0 : Kept z s) : Kept z (badOpcode x s) := by
  unfold badOpcode
  (try dsimp only)
  repeat' with_reducible (first | assumption | apply kept_complete | (simp only [kept_mk_eq]; apply kept_of) | apply kept_ite | split)

theorem kept_execBadOpcode {z : State} (x : Nat) (s : State) (h0 : Kept z s) : KeptO z (execBadOpcode x s) := by
  unfold execBadOpcode
  (try dsimp only)
  repeat' with_reducible (first | assumption | apply keptO_next | apply keptO_ranged | apply keptO_fault | apply kept_ranged | apply kept_badOpcode | apply kept_ite | split)

theorem kept_execNop {z : State} (x : Nat) (s : State) (h0 : Kept z s) : KeptO z (execNop x s) := by
  unfold execNop
  (try dsimp only)
  repeat' with_reducible (first | assumption | apply keptO_next | apply keptO_ranged | apply keptO_fault | apply kept_ranged | apply kept_complete | apply kept_runOp | (intro _; (try dsimp only)) | apply kept_ite | split)

theorem kept_txWrite {z : State} (x : Nat) (c : Ctx) (bs : List Byte) (s : State) (h0 : Kept z s) : Kept z (txWrite x c bs s) := by
  unfold txWrite
  (try dsimp only)
  repeat' with_reducible (first | assumption | apply kept_ctxCheck | apply kept_setCtx | apply kept_complete | apply kept_queueWrite | (simp only [kept_mk_eq]; apply kept_of) | apply kept_ite | split)

theorem kept_tx {z : State} (x : Nat) (d : Dma) (c : Ctx) (s : State) (h0 : Kept z s) : Kept z (tx x d c s) := by
  unfold tx
  (try dsimp only)
  repeat' with_reducible (first | assumption | apply kept_complete | apply kept_ownNode | apply kept_withData | apply kept_txWrite | (intro _; (try dsimp only)) | (simp only [kept_mk_eq]; apply kept_of) | apply kept_ite | split)

theorem kept_execTx {z : State} (x : Nat) (d : Dma) (s : State) (h0 : Kept z s) : KeptO z (execTx x d s) := by
  unfold execTx
  (try dsimp only)
  repeat' with_reducible (first | assumption | apply keptO_next | apply keptO_ranged | apply keptO_fault | apply kept_ranged | apply kept_runOp | apply kept_tx | (intro _; (try dsimp only)) | apply kept_ite | split)

theorem kept_postRx {z : State} (x : Nat) (c : Ctx) (s : State) (h0 : Kept z s) : Kept z (postRx x c s) := by
  unfold postRx
  (try dsimp only)
  repeat' with_reducible (first | assumption | apply kept_setPort | apply kept_begun | (simp only [kept_mk_eq]; apply kept_of) | apply kept_ite | split)

theorem kept_execPostRx {z : State} (x : Nat) (s : State) (h0 : Kept z s) : KeptO z (execPostRx x s) := by
  unfold execPostRx
  (try dsimp only)
  repeat' with_reducible (first | assumption | apply keptO_next | apply keptO_ranged | apply keptO_fault | apply kept_ranged | apply kept_runOp | apply kept_postRx | (intro _; (try dsimp only)) | apply kept_ite | split)

theorem kept_rxFlush {z : State} (x : Nat) (c : Ctx) (s : State) (h0 : Kept z s) : Kept z (rxFlush x c s) := by
  unfold rxFlush
  (try dsimp only)
  repeat' with_reducible (first | assumption | apply kept_setPort | apply kept_complete | apply kept_foldl | (intro _; (try dsimp only)) | (simp only [kept_mk_eq]; apply kept_of) | apply kept_ite | split)

theorem kept_execRxFlush {z : State} (x : Nat) (s : State) (h0 : Kept z s) : KeptO z (execRxFlush x s) := by
  unfold execRxFlush
  (try dsimp only)
  repeat' with_reducible (first | assumption | apply keptO_next | apply keptO_ranged | apply keptO_fault | apply kept_ranged | apply kept_runOp | apply kept_rxFlush | (intro _; (try dsimp only)) | apply kept_ite | split)

theorem kept_cancelItem {z : State} (x h hc : Nat) (c : Ctx) (s : State) (h0 : Kept z s) : Kept z (cancelItem x h hc c s) := by
  unfold cancelItem
  (try dsimp only)
  repeat' with_reducible (first | assumption | apply kept_complete | apply kept_cancelNow | apply kept_begun | (simp only [kept_mk_eq]; apply kept_of) | apply kept_ite | split)

theorem kept_cancelCtx {z : State} (x y : Nat) (c o : Ctx) (s : State) (h0 : Kept z s) : Kept z (cancelCtx x y c o s) := by
  unfold cancelCtx
  (try dsimp only)
  repeat' with_reducible (first | assumption | apply kept_setPort | apply kept_complete | apply kept_cancelItem | (simp only [kept_mk_eq]; apply kept_of) | apply kept_ite | split)

theorem kept_cancel {z : State} (x : Nat) (c : Ctx) (s : State) (h0 : Kept z s) : Kept z (cancel x c s) := by
  unfold cancel
  (try dsimp only)
  repeat' with_reducible (first | assumption | apply kept_complete | apply kept_cancelCtx | (simp only [kept_mk_eq]; apply kept_of) | apply kept_ite | split)

theorem kept_execCancel {z : State} (x : Nat) (s : State) (h0 : Kept z s) : KeptO z (execCancel x s) := by
  unfold execCancel
  (try dsimp only)
  repeat' with_reducible (first | assumption | apply keptO_next | apply keptO_ranged | apply keptO_fault | apply kept_ranged | apply kept_runOp | apply kept_cancel | (intro _; (try dsimp only)) | apply kept_ite | split)

theorem kept_nodeTold {z : State} (x st result : Nat) (s : State) (h0 : Kept z s) : Kept z (nodeTold x st result s) := by
  unfold nodeTold
  (try dsimp only)
  repeat' with_reducible (first | assumption | apply kept_complete | apply kept_ite | split)

theorem kept_nodeCmd {z : State} (op x : Nat) (d : Option Dma) (c : Ctx) (s : State) (h0 : Kept z s) : Kept z (nodeCmd op x d c s) := by
  unfold nodeCmd
  (try dsimp only)
  repeat' with_reducible (first | assumption | apply kept_nodeOp | apply kept_ownNode | apply kept_withData | apply kept_begun | apply kept_nodeTold | (intro _; (try dsimp only)) | (simp only [kept_mk_eq]; apply kept_of) | apply kept_ite | split)

theorem kept_execNodeAdd {z : State} (x : Nat) (d : Dma) (s : State) (h0 : Kept z s) : KeptO z (execNodeAdd x d s) := by
  unfold execNodeAdd
  (try dsimp only)
  repeat' with_reducible (first | assumption | apply keptO_next | apply keptO_ranged | apply keptO_fault | apply kept_ranged | apply kept_runOp | apply kept_nodeCmd | (intro _; (try dsimp only)) | apply kept_ite | split)

theorem kept_execNodeUpdate {z : State} (x : Nat) (d : Dma) (s : State) (h0 : Kept z s) : KeptO z (execNodeUpdate x d s) := by
  unfold execNodeUpdate
  (try dsimp only)
  repeat' with_reducible (first | assumption | apply keptO_next | apply keptO_ranged | apply keptO_fault | apply kept_ranged | apply kept_runOp | apply kept_nodeCmd | (intro _; (try dsimp only)) | apply kept_ite | split)

theorem kept_execNodePrune {z : State} (x : Nat) (s : State) (h0 : Kept z s) : KeptO z (execNodePrune x s) := by
  unfold execNodePrune
  (try dsimp only)
  repeat' with_reducible (first | assumption | apply keptO_next | apply keptO_ranged | apply keptO_fault | apply kept_ranged | apply kept_runOp | apply kept_nodeCmd | (intro _; (try dsimp only)) | apply kept_ite | split)

theorem kept_execNodeQset {z : State} (x : Nat) (s : State) (h0 : Kept z s) : KeptO z (execNodeQset x s) := by
  unfold execNodeQset
  (try dsimp only)
  repeat' with_reducible (first | assumption | apply keptO_next | apply keptO_ranged | apply keptO_fault | apply kept_ranged | apply kept_runOp | apply kept_nodeCmd | (intro _; (try dsimp only)) | apply kept_ite | split)

theorem kept_giveCtx {z : State} (c : Ctx) (h : Nat) (s : State) (h0 : Kept z s) : Kept z (giveCtx c h s) := by
  unfold giveCtx
  (try dsimp only)
  repeat' with_reducible (first | assumption | apply kept_post | apply kept_ite | split)

theorem kept_nodeReadCmd {z : State} (x : Nat) (c : Ctx) (s : State) (h0 : Kept z s) : Kept z (nodeReadCmd x c s) := by
  unfold nodeReadCmd
  (try dsimp only)
  repeat' with_reducible (first | assumption | apply kept_nodeRead | apply kept_ownNode | apply kept_nodeTold | apply kept_giveCtx | apply kept_ite | split)

theorem kept_execNodeRead {z : State} (x : Nat) (s : State) (h0 : Kept z s) : KeptO z (execNodeRead x s) := by
  unfold execNodeRead
  (try dsimp only)
  repeat' with_reducible (first | assumption | apply keptO_next | apply keptO_ranged | apply keptO_fault | apply kept_ranged | apply kept_runOp | apply kept_nodeReadCmd | (intro _; (try dsimp only)) | apply kept_ite | split)

theorem kept_exportEnd {z : State} (x : Nat) (c : Ctx) (s : State) (h0 : Kept z s) : Kept z (exportEnd x c s) := by
  unfold exportEnd
  (try dsimp only)
  repeat' with_reducible (first | assumption | apply kept_complete | apply kept_nodePrune | apply kept_pruneEnd | apply kept_nodeTold | apply kept_giveCtx | apply kept_ite | split)

theorem kept_exportBegin {z : State} (x : Nat) (c : Ctx) (s : State) (h0 : Kept z s) : Kept z (exportBegin x c s) := by
  unfold exportBegin
  (try dsimp only)
  repeat' with_reducible (first | assumption | apply kept_squashNode | apply kept_nodeQset | apply kept_ownNode | apply kept_begun | apply kept_nodeTold | apply kept_exportEnd | (simp only [kept_mk_eq]; apply kept_of) | apply kept_ite | split)

theorem kept_execNodeExport {z : State} (x : Nat) (s : State) (h0 : Kept z s) : KeptO z (execNodeExport x s) := by
  unfold execNodeExport
  (try dsimp only)
  repeat' with_reducible (first | assumption | apply keptO_next | apply keptO_ranged | apply keptO_fault | apply kept_ranged | apply kept_runOp | apply kept_exportEnd | apply kept_exportBegin | (intro _; (try dsimp only)) | (simp only [kept_mk_eq]; apply kept_of) | apply kept_ite | split)

theorem kept_keyCmd {z : State} (op x : Nat) (c : Ctx) (bs : List Byte) (s : State) (h0 : Kept z s) : Kept z (keyCmd op x c bs s) := by
  unfold keyCmd
  (try dsimp only)
  repeat' with_reducible (first | assumption | apply kept_kopAsk | apply kept_begun | apply kept_ite | split)

theorem kept_execKeyLoad {z : State} (x : Nat) (d : Dma) (s : State) (h0 : Kept z s) : KeptO z (execKeyLoad x d s) := by
  unfold execKeyLoad
  (try dsimp only)
  repeat' with_reducible (first | assumption | apply keptO_next | apply keptO_ranged | apply keptO_fault | apply kept_ranged | apply kept_runOp | apply kept_withData | apply kept_keyCmd | (intro _; (try dsimp only)) | (simp only [kept_mk_eq]; apply kept_of) | apply kept_ite | split)

theorem kept_execKeyReplace {z : State} (x : Nat) (d : Dma) (s : State) (h0 : Kept z s) : KeptO z (execKeyReplace x d s) := by
  unfold execKeyReplace
  (try dsimp only)
  repeat' with_reducible (first | assumption | apply keptO_next | apply keptO_ranged | apply keptO_fault | apply kept_ranged | apply kept_runOp | apply kept_withData | apply kept_keyCmd | (intro _; (try dsimp only)) | (simp only [kept_mk_eq]; apply kept_of) | apply kept_ite | split)

theorem kept_execKeyErase {z : State} (x : Nat) (s : State) (h0 : Kept z s) : KeptO z (execKeyErase x s) := by
  unfold execKeyErase
  (try dsimp only)
  repeat' with_reducible (first | assumption | apply keptO_next | apply keptO_ranged | apply keptO_fault | apply kept_ranged | apply kept_runOp | apply kept_keyCmd | (intro _; (try dsimp only)) | apply kept_ite | split)

theorem kept_execKeyStatus {z : State} (x : Nat) (s : State) (h0 : Kept z s) : KeptO z (execKeyStatus x s) := by
  unfold execKeyStatus
  (try dsimp only)
  repeat' with_reducible (first | assumption | apply keptO_next | apply keptO_ranged | apply keptO_fault | apply kept_ranged | apply kept_runOp | apply kept_keyCmd | (intro _; (try dsimp only)) | apply kept_ite | split)

theorem kept_ownEng {z : State} (x : Nat) (c : Ctx) (t s : State) (h0 : Kept z t) (h1 : Kept z s) : Kept z (ownEng x c t s) := by
  unfold ownEng
  (try dsimp only)
  repeat' with_reducible (first | assumption | apply kept_bark | apply kept_complete | apply kept_ite | split)

theorem kept_engCtrlCmd {z : State} (x : Nat) (c : Ctx) (s : State) (h0 : Kept z s) : Kept z (engCtrlCmd x c s) := by
  unfold engCtrlCmd
  (try dsimp only)
  repeat' with_reducible (first | assumption | apply kept_wr | apply kept_complete | apply kept_engCtrl | apply kept_engWrite | apply kept_ownEng | apply kept_ite | split)

theorem kept_execEngCtrl {z : State} (x : Nat) (s : State) (h0 : Kept z s) : KeptO z (execEngCtrl x s) := by
  unfold execEngCtrl
  (try dsimp only)
  repeat' with_reducible (first | assumption | apply keptO_next | apply keptO_ranged | apply keptO_fault | apply kept_ranged | apply kept_runOp | apply kept_engCtrlCmd | (intro _; (try dsimp only)) | apply kept_ite | split)

theorem kept_engWriteCmd {z : State} (x : Nat) (d : Dma) (c : Ctx) (s : State) (h0 : Kept z s) : Kept z (engWriteCmd x d c s) := by
  unfold engWriteCmd
  (try dsimp only)
  repeat' with_reducible (first | assumption | apply kept_complete | apply kept_engPut | apply kept_withData | apply kept_ownEng | (intro _; (try dsimp only)) | (simp only [kept_mk_eq]; apply kept_of) | apply kept_ite | split)

theorem kept_execEngWrite {z : State} (x : Nat) (d : Dma) (s : State) (h0 : Kept z s) : KeptO z (execEngWrite x d s) := by
  unfold execEngWrite
  (try dsimp only)
  repeat' with_reducible (first | assumption | apply keptO_next | apply keptO_ranged | apply keptO_fault | apply kept_ranged | apply kept_runOp | apply kept_engWriteCmd | (intro _; (try dsimp only)) | apply kept_ite | split)

theorem kept_engReadCmd {z : State} (x : Nat) (c : Ctx) (s : State) (h0 : Kept z s) : Kept z (engReadCmd x c s) := by
  unfold engReadCmd
  (try dsimp only)
  repeat' with_reducible (first | assumption | apply kept_post | apply kept_complete | apply kept_ownEng | apply kept_ite | split)

theorem kept_execEngRead {z : State} (x : Nat) (s : State) (h0 : Kept z s) : KeptO z (execEngRead x s) := by
  unfold execEngRead
  (try dsimp only)
  repeat' with_reducible (first | assumption | apply keptO_next | apply keptO_ranged | apply keptO_fault | apply kept_ranged | apply kept_runOp | apply kept_engReadCmd | (intro _; (try dsimp only)) | apply kept_ite | split)

theorem kept_announce {z : State} (q : Nat) (s : State) (h0 : Kept z s) : Kept z (announce q s) := by
  unfold announce
  (try dsimp only)
  repeat' with_reducible (first | assumption | apply kept_sendMsix | apply kept_setPort | (simp only [kept_mk_eq]; apply kept_of) | apply kept_ite | split)

theorem kept_putEntry {z : State} (q : Nat) (e : BitVec 256) (s : State) (h0 : Kept z s) : Kept z (putEntry q e s) := by
  unfold putEntry
  (try dsimp only)
  repeat' with_reducible (first | assumption | apply kept_wr | apply kept_inc | apply kept_post | apply kept_setPort | apply kept_announce | (simp only [kept_mk_eq]; apply kept_of) | apply kept_ite | split)

theorem kept_writeCpl {z : State} (q : Nat) (r : Ready) (s : State) (h0 : Kept z s) : Kept z (writeCpl q r s) := by
  unfold writeCpl
  (try dsimp only)
  repeat' with_reducible (first | assumption | apply kept_inc | apply kept_dropCtx | apply kept_setPort | apply kept_ready | apply kept_putEntry | (simp only [kept_mk_eq]; apply kept_of) | apply kept_ite | split)

theorem kept_writeNote {z : State} (q p : Nat) (n : PNote) (ns : List PNote) (s : State) (h0 : Kept z s) : Kept z (writeNote q p n ns s) := by
  unfold writeNote
  (try dsimp only)
  repeat' with_reducible (first | assumption | apply kept_putEntry | (simp only [kept_mk_eq]; apply kept_of) | apply kept_ite | split)

theorem kept_completionWrite {z : State} (q : Nat) (s : State) (h0 : Kept z s) : Kept z (completionWrite q s) := by
  unfold completionWrite
  (try dsimp only)
  repeat' with_reducible (first | assumption | apply kept_writeCpl | apply kept_writeNote | (simp only [kept_mk_eq]; apply kept_of) | apply kept_ite | split)

theorem kept_execCompletionWrite {z : State} (q : Nat) (s : State) (h0 : Kept z s) : KeptO z (execCompletionWrite q s) := by
  unfold execCompletionWrite
  (try dsimp only)
  repeat' with_reducible (first | assumption | apply keptO_next | apply keptO_ranged | apply keptO_fault | apply kept_ranged | apply kept_completionWrite | apply kept_ite | split)

theorem kept_modTime {z : State} (q : Nat) (s : State) (h0 : Kept z s) : Kept z (modTime q s) := by
  unfold modTime
  (try dsimp only)
  repeat' with_reducible (first | assumption | apply kept_elapse | apply kept_announce | (simp only [kept_mk_eq]; apply kept_of) | apply kept_ite | split)

theorem kept_execModTime {z : State} (q : Nat) (s : State) (h0 : Kept z s) : KeptO z (execModTime q s) := by
  unfold execModTime
  (try dsimp only)
  repeat' with_reducible (first | assumption | apply keptO_next | apply keptO_ranged | apply keptO_fault | apply kept_ranged | apply kept_modTime | apply kept_ite | split)

theorem kept_setResult {z : State} (fn v : Nat) (s : State) (h0 : Kept z s) : Kept z (setResult fn v s) := by
  unfold setResult
  (try dsimp only)
  repeat' with_reducible (first | assumption | apply kept_setVreg | apply kept_wr | apply kept_ite | split)

theorem kept_acceptReq {z : State} (fn : Nat) (s : State) (h0 : Kept z s) : Kept z (acceptReq fn s) := by
  unfold acceptReq
  (try dsimp only)
  repeat' with_reducible (first | assumption | apply kept_setReg | apply kept_setVreg | apply kept_foldl | (intro _; (try dsimp only)) | apply kept_ite | split)

theorem kept_featureCommit {z : State} (fn : Nat) (s : State) (h0 : Kept z s) : Kept z (featureCommit fn s) := by
  unfold featureCommit
  (try dsimp only)
  repeat' with_reducible (first | assumption | apply kept_raise | apply kept_setResult | apply kept_acceptReq | apply kept_ite | split)

theorem kept_execFeatureCommit {z : State} (f : Fn) (s : State) (h0 : Kept z s) : KeptO z (execFeatureCommit f s) := by
  unfold execFeatureCommit
  (try dsimp only)
  repeat' with_reducible (first | assumption | apply keptO_next | apply keptO_ranged | apply keptO_fault | apply kept_ranged | apply kept_reach | apply kept_featureCommit | apply kept_ite | split)

theorem kept_allot {z : State} (p : State × Nat) (n : Nat) (h : Kept z p.1) : Kept z (allot p n).1 := by
  unfold allot
  dsimp only
  repeat' with_reducible (first | assumption | apply kept_raise | apply kept_wr | (simp only [kept_mk_eq]; apply kept_of) | split)

theorem kept_vfEnable {z : State} (num : Nat) (s : State) (h : Kept z s) : Kept z (vfEnable num s) := by
  have fold : ∀ (l : List Nat) (p : State × Nat), Kept z p.1 → Kept z (l.foldl allot p).1 := by
    intro l
    induction l with
    | nil => exact fun _ hp => hp
    | cons a as ih => exact fun p hp => ih _ (kept_allot p a hp)
  unfold vfEnable
  repeat' with_reducible (first | assumption | apply fold | (simp only [kept_mk_eq]; apply kept_of) | split)

theorem kept_execVfEnable {z : State} (num : Nat) (s : State) (h0 : Kept z s) : KeptO z (execVfEnable num s) := by
  unfold execVfEnable
  (try dsimp only)
  repeat' with_reducible (first | assumption | apply keptO_next | apply keptO_ranged | apply keptO_fault | apply kept_ranged | apply kept_vfEnable | apply kept_ite | split)

theorem kept_flushMsix {z : State} (fn : Nat) (s : State) (h0 : Kept z s) : Kept z (flushMsix fn s) := by
  unfold flushMsix
  (try dsimp only)
  repeat' with_reducible (first | assumption | apply kept_post | apply kept_setPbaWord | apply kept_foldl | (intro _; (try dsimp only)) | apply kept_ite | split)

theorem kept_busMaster {z : State} (n : Nat) (en : Bool) (s : State) (h0 : Kept z s) : Kept z (busMaster n en s) := by
  unfold busMaster
  (try dsimp only)
  repeat' with_reducible (first | assumption | apply kept_flushMsix | (simp only [kept_mk_eq]; apply kept_of) | apply kept_ite | split)

theorem kept_execBusMasterEnable {z : State} (n : Nat) (en : Bool) (s : State) (h0 : Kept z s) : KeptO z (execBusMasterEnable n en s) := by
  unfold execBusMasterEnable
  (try dsimp only)
  repeat' with_reducible (first | assumption | apply keptO_next | apply keptO_ranged | apply keptO_fault | apply kept_ranged | apply kept_busMaster | apply kept_ite | split)

theorem kept_execVfCntClr {z : State} (n : Nat) (s : State) (h0 : Kept z s) : KeptO z (execVfCntClr n s) := by
  unfold execVfCntClr
  (try dsimp only)
  repeat' with_reducible (first | assumption | apply keptO_next | apply keptO_ranged | apply keptO_fault | apply kept_ranged | apply kept_zero | apply kept_ite | split)

theorem kept_execHstCntClrBlock {z : State} (f : Fn) (s : State) (h0 : Kept z s) : KeptO z (execHstCntClrBlock f s) := by
  unfold execHstCntClrBlock
  (try dsimp only)
  repeat' with_reducible (first | assumption | apply keptO_next | apply keptO_ranged | apply keptO_fault | apply kept_wr | apply kept_zero | apply kept_p0Only | apply kept_ite | split)

theorem kept_execHstCntClrPart {z : State} (f : Fn) (s : State) (h0 : Kept z s) : KeptO z (execHstCntClrPart f s) := by
  unfold execHstCntClrPart
  (try dsimp only)
  repeat' with_reducible (first | assumption | apply keptO_next | apply keptO_ranged | apply keptO_fault | apply kept_zero | apply kept_p0Only | apply kept_ite | split)

theorem kept_mapEntryWrite {z : State} (off : Nat) (idle : Bool) (v : Word) (s : State) (h0 : Kept z s) : Kept z (mapEntryWrite off idle v s) := by
  unfold mapEntryWrite
  (try dsimp only)
  repeat' with_reducible (first | assumption | apply kept_regWrite | apply kept_mapErr | apply kept_ite | split)

theorem kept_execMapEntryWrite {z : State} (f : Fn) (off : Nat) (v : Word) (s : State) (h0 : Kept z s) : KeptO z (execMapEntryWrite f off v s) := by
  unfold execMapEntryWrite
  (try dsimp only)
  repeat' with_reducible (first | assumption | apply keptO_next | apply keptO_ranged | apply keptO_fault | apply kept_ranged | apply kept_p0Only | apply kept_mapEntryWrite | apply kept_ite | split)

theorem kept_shareWrite {z : State} (off : Nat) (v : Word) (s : State) (h0 : Kept z s) : Kept z (shareWrite off v s) := by
  unfold shareWrite
  (try dsimp only)
  repeat' with_reducible (first | assumption | apply kept_regWrite | apply kept_mapErr | apply kept_ite | split)

theorem kept_execShareWrite {z : State} (f : Fn) (off : Nat) (v : Word) (s : State) (h0 : Kept z s) : KeptO z (execShareWrite f off v s) := by
  unfold execShareWrite
  (try dsimp only)
  repeat' with_reducible (first | assumption | apply keptO_next | apply keptO_ranged | apply keptO_fault | apply kept_ranged | apply kept_p0Only | apply kept_shareWrite | apply kept_ite | split)

theorem kept_partEnable {z : State} (p : Nat) (en : Bool) (s : State) (h0 : Kept z s) : Kept z (partEnable p en s) := by
  unfold partEnable
  (try dsimp only)
  repeat' with_reducible (first | assumption | apply kept_wr | apply kept_mapErr | apply kept_ite | split)

theorem kept_execPartitionEnableWrite {z : State} (f : Fn) (p : Nat) (en : Bool) (s : State) (h0 : Kept z s) : KeptO z (execPartitionEnableWrite f p en s) := by
  unfold execPartitionEnableWrite
  (try dsimp only)
  repeat' with_reducible (first | assumption | apply keptO_next | apply keptO_ranged | apply keptO_fault | apply kept_ranged | apply kept_p0Only | apply kept_partEnable | apply kept_ite | split)

theorem kept_emptyNode {z : State} (all : Bool) (s : State) (h : Nat) (h0 : Kept z s) : Kept z (emptyNode all s h) := by
  unfold emptyNode
  (try dsimp only)
  repeat' with_reducible (first | assumption | apply kept_unlinkItem | apply kept_dropItem | apply kept_foldl | (intro _; (try dsimp only)) | apply kept_ite | split)

theorem kept_discardOutcome {z : State} (p : Nat) (all : Bool) (s : State) (x : Nat × Ent) (h0 : Kept z s) : Kept z (discardOutcome p all s x) := by
  unfold discardOutcome
  (try dsimp only)
  repeat' with_reducible (first | assumption | apply kept_setEnt | (simp only [kept_mk_eq]; apply kept_of) | apply kept_ite | split)

theorem kept_portsReset {z : State} (p : Nat) (all : Bool) (s : State) (h0 : Kept z s) : Kept z (portsReset p all s) := by
  unfold portsReset
  (try dsimp only)
  repeat' with_reducible (first | assumption | apply kept_squashAll | apply kept_portAbort | apply kept_emptyNode | apply kept_discardOutcome | apply kept_foldl | (intro _; (try dsimp only)) | apply kept_ite | split)

theorem kept_freeLanes {z : State} (p : Nat) (s : State) (h0 : Kept z s) : Kept z (freeLanes p s) := by
  unfold freeLanes
  (try dsimp only)
  repeat' with_reducible (first | assumption | apply kept_freeCells | apply kept_foldl | (intro _; (try dsimp only)) | (simp only [kept_mk_eq]; apply kept_of) | apply kept_ite | split)

theorem kept_clearLinks {z : State} (p : Nat) (s : State) (h0 : Kept z s) : Kept z (clearLinks p s) := by
  unfold clearLinks
  (try dsimp only)
  repeat' with_reducible (first | assumption | apply kept_wr | apply kept_foldl | (intro _; (try dsimp only)) | apply kept_ite | split)

theorem kept_disarmAll {z : State} (p : Nat) (s : State) (h0 : Kept z s) : Kept z (disarmAll p s) := by
  unfold disarmAll
  (try dsimp only)
  repeat' with_reducible (first | assumption | apply kept_disarmCmp | apply kept_foldl | (intro _; (try dsimp only)) | apply kept_ite | split)

theorem kept_partResetBegin {z : State} (p scope : Nat) (s : State) (h0 : Kept z s) : Kept z (partResetBegin p scope s) := by
  unfold partResetBegin
  (try dsimp only)
  repeat' with_reducible (first | assumption | apply kept_wr | apply kept_engClear | apply kept_portsReset | apply kept_freeLanes | apply kept_clearLinks | apply kept_disarmAll | apply kept_foldl | (intro _; (try dsimp only)) | (simp only [kept_mk_eq]; apply kept_of) | apply kept_ite | split)

theorem kept_partReset {z : State} (p scope : Nat) (s : State) (h0 : Kept z s) : Kept z (partReset p scope s) := by
  unfold partReset
  (try dsimp only)
  repeat' with_reducible (first | assumption | apply kept_clearLinks | apply kept_partResetBegin | (simp only [kept_mk_eq]; apply kept_of) | apply kept_ite | split)

theorem kept_execFull {z : State} (f : Fn) (p : Nat) (s : State) (h0 : Kept z s) : KeptO z (execFull f p s) := by
  unfold execFull
  (try dsimp only)
  repeat' with_reducible (first | assumption | apply keptO_next | apply keptO_ranged | apply keptO_fault | apply kept_ranged | apply kept_p0Only | apply kept_partReset | apply kept_ite | split)

theorem kept_execDepart {z : State} (f : Fn) (p : Nat) (s : State) (h0 : Kept z s) : KeptO z (execDepart f p s) := by
  unfold execDepart
  (try dsimp only)
  repeat' with_reducible (first | assumption | apply keptO_next | apply keptO_ranged | apply keptO_fault | apply kept_ranged | apply kept_p0Only | apply kept_partReset | apply kept_ite | split)

theorem kept_dropFrames {z : State} (p : Nat) (s : State) (h0 : Kept z s) : Kept z (dropFrames p s) := by
  unfold dropFrames
  (try dsimp only)
  repeat' with_reducible (first | assumption | apply kept_freeCells | apply kept_dropRx | apply kept_foldl | (intro _; (try dsimp only)) | (simp only [kept_mk_eq]; apply kept_of) | apply kept_ite | split)

theorem kept_scanCells {z : State} (p : Nat) (s : State) (h0 : Kept z s) : Kept z (scanCells p s) := by
  unfold scanCells
  (try dsimp only)
  repeat' with_reducible (first | assumption | apply kept_freeCells | apply kept_ite | split)

theorem kept_departEnd {z : State} (p : Nat) (s : State) (h0 : Kept z s) : Kept z (departEnd p s) := by
  unfold departEnd
  (try dsimp only)
  repeat' with_reducible (first | assumption | apply kept_setKslot | apply kept_eraseKeys | apply kept_squashSlot | apply kept_pruneEnd | apply kept_foldl | (intro _; (try dsimp only)) | apply kept_ite | split)

theorem kept_partResetEnd {z : State} (r : PReset) (s : State) (h0 : Kept z s) : Kept z (partResetEnd r s) := by
  unfold partResetEnd
  (try dsimp only)
  repeat' with_reducible (first | assumption | apply kept_setVreg | apply kept_wr | apply kept_zero | apply kept_raise | (simp only [kept_mk_eq]; apply kept_of) | apply kept_ite | split)

theorem kept_partResetDone {z : State} (p : Nat) (s : State) (h0 : Kept z s) : Kept z (partResetDone p s) := by
  unfold partResetDone
  (try dsimp only)
  repeat' with_reducible (first | assumption | apply kept_clearDone | apply kept_emptyNode | apply kept_dropFrames | apply kept_scanCells | apply kept_departEnd | apply kept_partResetEnd | apply kept_foldl | (intro _; (try dsimp only)) | (simp only [kept_mk_eq]; apply kept_of) | apply kept_ite | split)

theorem kept_execPartitionResetDone {z : State} (p : Nat) (s : State) (h0 : Kept z s) : KeptO z (execPartitionResetDone p s) := by
  unfold execPartitionResetDone
  (try dsimp only)
  repeat' with_reducible (first | assumption | apply keptO_next | apply keptO_ranged | apply keptO_fault | apply kept_ranged | apply kept_partResetDone | apply kept_ite | split)

theorem kept_fltPop {z : State} (s : State) (h0 : Kept z s) : Kept z (fltPop s) := by
  unfold fltPop
  (try dsimp only)
  repeat' with_reducible (first | assumption | (simp only [kept_mk_eq]; apply kept_of) | apply kept_ite | split)

theorem kept_execFltPop {z : State} (f : Fn) (s : State) (h0 : Kept z s) : KeptO z (execFltPop f s) := by
  unfold execFltPop
  (try dsimp only)
  repeat' with_reducible (first | assumption | apply keptO_next | apply keptO_ranged | apply keptO_fault | apply kept_p0Only | apply kept_fltPop | apply kept_ite | split)

theorem kept_execPrtCntClrBlock {z : State} (f : Fn) (s : State) (h0 : Kept z s) : KeptO z (execPrtCntClrBlock f s) := by
  unfold execPrtCntClrBlock
  (try dsimp only)
  repeat' with_reducible (first | assumption | apply keptO_next | apply keptO_ranged | apply keptO_fault | apply kept_zero | apply kept_p0Only | apply kept_ite | split)

theorem kept_execPrtCntClrPart {z : State} (f : Fn) (s : State) (h0 : Kept z s) : KeptO z (execPrtCntClrPart f s) := by
  unfold execPrtCntClrPart
  (try dsimp only)
  repeat' with_reducible (first | assumption | apply keptO_next | apply keptO_ranged | apply keptO_fault | apply kept_zero | apply kept_p0Only | apply kept_ite | split)

end Sys2Proof.Machine
end

