-- ==== Sys2Proof/Laws/KeepService.lean ====
section
/-! SUPPORT. What every command keeps, for flash, clocks, images, resets, events and power: one lemma per operation. -/

set_option linter.unusedTactic false
set_option linter.unreachableTactic false
set_option linter.unusedVariables false
set_option linter.unusedSimpArgs false

namespace Sys2Proof.Machine

theorem kept_setFlc {z : State} (s : State) (x : Flc) (h0 : Kept z s) : Kept z (State.setFlc s x) := by
  unfold State.setFlc
  (try dsimp only)
  repeat' with_reducible (first | assumption | (simp only [kept_mk_eq]; apply kept_of) | apply kept_ite | split)

theorem kept_putLoser {z : State} (i : InfoCopy) (s : State) (h0 : Kept z s) : Kept z (putLoser i s) := by
  unfold putLoser
  (try dsimp only)
  repeat' with_reducible (first | assumption | (simp only [kept_mk_eq]; apply kept_of) | apply kept_ite | split)

theorem kept_putInfo {z : State} (i : InfoCopy) (s : State) (h0 : Kept z s) : Kept z (putInfo i s) := by
  unfold putInfo
  (try dsimp only)
  repeat' with_reducible (first | assumption | apply kept_putLoser | (simp only [kept_mk_eq]; apply kept_of) | apply kept_ite | split)

theorem kept_cutInfo {z : State} (s : State) (h0 : Kept z s) : Kept z (cutInfo s) := by
  unfold cutInfo
  (try dsimp only)
  repeat' with_reducible (first | assumption | apply kept_putLoser | apply kept_ite | split)

theorem kept_settleInfo {z : State} (s : State) (h0 : Kept z s) : Kept z (settleInfo s) := by
  unfold settleInfo
  (try dsimp only)
  repeat' with_reducible (first | assumption | (simp only [kept_mk_eq]; apply kept_of) | apply kept_ite | split)

theorem putFlash_wf : ∀ (bs : List Byte) (a : Nat) (m : List Host.Cell), flashWf m = true → flashWf (putFlash bs a m) = true
  | [], _, _, h => h
  | b :: bs, a, m, h => putFlash_wf bs (a + 1) _ (sset_swf _ m a b h)

theorem kept_programWord {z : State} (s : State) (a : Nat) (w : List Byte) (h : Kept z s) : Kept z (programWord s a w) :=
  ⟨h.1, h.2.1, h.2.2.1, h.2.2.2.1, putFlash_wf _ _ _ h.2.2.2.2.1, h.2.2.2.2.2⟩

theorem kept_clearPhys {z : State} (p : Nat) (s : State) (h : Kept z s) : Kept z (clearPhys p s) :=
  ⟨h.1, h.2.1, h.2.2.1, h.2.2.2.1, sdrop_swf _ _ _ _ h.2.2.2.2.1, h.2.2.2.2.2⟩

theorem kept_clearSector {z : State} (s : State) (sec : Nat) (h0 : Kept z s) : Kept z (clearSector s sec) := by
  unfold clearSector
  (try dsimp only)
  repeat' with_reducible (first | assumption | apply kept_clearPhys | apply kept_ite | split)

theorem kept_leaveMark {z : State} (s : State) (sec : Nat) (h0 : Kept z s) : Kept z (leaveMark s sec) := by
  unfold leaveMark
  (try dsimp only)
  repeat' with_reducible (first | assumption | (simp only [kept_mk_eq]; apply kept_of) | apply kept_ite | split)

theorem kept_leaveWild {z : State} (s : State) (sec : Nat) (h0 : Kept z s) : Kept z (leaveWild s sec) := by
  unfold leaveWild
  (try dsimp only)
  repeat' with_reducible (first | assumption | apply kept_freed | (simp only [kept_mk_eq]; apply kept_of) | apply kept_ite | split)

theorem kept_leaveTorn {z : State} (s : State) (a : Nat) (h0 : Kept z s) : Kept z (leaveTorn s a) := by
  unfold leaveTorn
  (try dsimp only)
  repeat' with_reducible (first | assumption | apply kept_freed | (simp only [kept_mk_eq]; apply kept_of) | apply kept_ite | split)

theorem kept_spareLow {z : State} (i j : InfoCopy) (s : State) (h0 : Kept z s) : Kept z (spareLow i j s) := by
  unfold spareLow
  (try dsimp only)
  repeat' with_reducible (first | assumption | apply kept_wr | apply kept_raise | apply kept_ite | split)

theorem kept_remap {z : State} (sec : Nat) (worse : List Nat) (s : State) (h0 : Kept z s) : Kept z ((remap sec worse s).1) := by
  unfold remap
  (try dsimp only)
  repeat' with_reducible (first | assumption | apply kept_raise | apply kept_putInfo | apply kept_clearPhys | apply kept_spareLow | apply kept_foldl | (intro _; (try dsimp only)) | (simp only [kept_mk_eq]; apply kept_of) | apply kept_ite | split)

theorem kept_eraseEnd {z : State} (fail worse : List Nat) (x : State × Bool × Bool) (sec : Nat) (h : Kept z x.1) :
    Kept z (eraseEnd fail worse x sec).1 := by
  unfold eraseEnd
  dsimp only
  repeat' with_reducible (first | assumption | apply kept_remap | apply kept_leaveWild | apply kept_leaveMark | apply kept_clearSector | (simp only [kept_mk_eq]; apply kept_of) | split)

theorem kept_flashStatus {z : State} (s : State) (h0 : Kept z s) : Kept z (flashStatus s) := by
  unfold flashStatus
  (try dsimp only)
  repeat' with_reducible (first | assumption | apply kept_wr | (simp only [kept_mk_eq]; apply kept_of) | apply kept_ite | split)

theorem kept_setFlashOp {z : State} (o : Option FlashOp) (s : State) (h0 : Kept z s) : Kept z (setFlashOp o s) := by
  unfold setFlashOp
  (try dsimp only)
  repeat' with_reducible (first | assumption | apply kept_setFlc | apply kept_flashStatus | (simp only [kept_mk_eq]; apply kept_of) | apply kept_ite | split)

theorem kept_flashAsk {z : State} (o : FlashOp) (s : State) (h0 : Kept z s) : Kept z (flashAsk o s) := by
  unfold flashAsk
  (try dsimp only)
  repeat' with_reducible (first | assumption | apply kept_askLeave | apply kept_setFlashOp | apply kept_ite | split)

theorem kept_flashArrive {z : State} (o : FlashOp) (s : State) (h0 : Kept z s) : Kept z (flashArrive o s) := by
  unfold flashArrive
  (try dsimp only)
  repeat' with_reducible (first | assumption | apply kept_setFlc | apply kept_flashStatus | apply kept_flashAsk | (simp only [kept_mk_eq]; apply kept_of) | apply kept_ite | split)

theorem kept_flashNext {z : State} (s : State) (h0 : Kept z s) : Kept z (flashNext s) := by
  unfold flashNext
  (try dsimp only)
  repeat' with_reducible (first | assumption | apply kept_setFlc | apply kept_flashAsk | (simp only [kept_mk_eq]; apply kept_of) | apply kept_ite | split)

theorem kept_unitClear {z : State} (u : Nat) (s : State) (h0 : Kept z s) : Kept z (unitClear u s) := by
  unfold unitClear
  (try dsimp only)
  repeat' with_reducible (first | assumption | apply kept_setFlc | (simp only [kept_mk_eq]; apply kept_of) | apply kept_ite | split)

theorem kept_unitNext {z : State} (u : Nat) (s : State) (h0 : Kept z s) : Kept z (unitNext u s) := by
  unfold unitNext
  (try dsimp only)
  repeat' with_reducible (first | assumption | apply kept_setFlc | (simp only [kept_mk_eq]; apply kept_of) | apply kept_ite | split)

theorem kept_unitTold {z : State} (u : Nat) (ok : Bool) (s : State) (h0 : Kept z s) : Kept z (unitTold u ok s) := by
  unfold unitTold
  (try dsimp only)
  repeat' with_reducible (first | assumption | apply kept_setFlc | apply kept_unitNext | (simp only [kept_mk_eq]; apply kept_of) | apply kept_ite | split)

theorem kept_unitBegin {z : State} (w : UnitWork) (s : State) (h0 : Kept z s) : Kept z (unitBegin w s) := by
  unfold unitBegin
  (try dsimp only)
  repeat' with_reducible (first | assumption | apply kept_setFlc | apply kept_flashNext | apply kept_unitNext | (simp only [kept_mk_eq]; apply kept_of) | apply kept_ite | split)

theorem kept_flashEnd {z : State} (o : FlashOp) (status done remapped : Nat) (s : State) (h0 : Kept z s) : Kept z (flashEnd o status done remapped s) := by
  unfold flashEnd
  (try dsimp only)
  repeat' with_reducible (first | assumption | apply kept_wr | apply kept_raise | apply kept_returnLeave | apply kept_status | apply kept_setFlashOp | apply kept_flashNext | apply kept_unitTold | apply kept_ite | split)

theorem kept_uncheck {z : State} (lo hi : Nat) (s : State) (h0 : Kept z s) : Kept z (uncheck lo hi s) := by
  unfold uncheck
  (try dsimp only)
  repeat' with_reducible (first | assumption | apply kept_wr | apply kept_ite | split)

theorem kept_flashBegin {z : State} (o : FlashOp) (s : State) (h0 : Kept z s) : Kept z (flashBegin o s) := by
  unfold flashBegin
  (try dsimp only)
  repeat' with_reducible (first | assumption | apply kept_begun | apply kept_setFlc | apply kept_setFlashOp | apply kept_flashEnd | apply kept_uncheck | (simp only [kept_mk_eq]; apply kept_of) | apply kept_ite | split)

theorem kept_flashGrant {z : State} (s : State) (h0 : Kept z s) : Kept z (flashGrant s) := by
  unfold flashGrant
  (try dsimp only)
  repeat' with_reducible (first | assumption | apply kept_flashBegin | (simp only [kept_mk_eq]; apply kept_of) | apply kept_ite | split)

theorem kept_flashStart {z : State} (code : Nat) (v : Word) (s : State) (h0 : Kept z s) : Kept z (flashStart code v s) := by
  unfold flashStart
  (try dsimp only)
  repeat' with_reducible (first | assumption | apply kept_regWrite | apply kept_begun | apply kept_flashArrive | apply kept_ite | split)

theorem kept_execProgram {z : State} (f : Fn) (v : Word) (s : State) (h0 : Kept z s) : KeptO z (execProgram f v s) := by
  unfold execProgram
  (try dsimp only)
  repeat' with_reducible (first | assumption | apply keptO_next | apply keptO_ranged | apply keptO_fault | apply kept_p0Only | apply kept_flashStart | apply kept_ite | split)

theorem kept_execEraseSector {z : State} (f : Fn) (v : Word) (s : State) (h0 : Kept z s) : KeptO z (execEraseSector f v s) := by
  unfold execEraseSector
  (try dsimp only)
  repeat' with_reducible (first | assumption | apply keptO_next | apply keptO_ranged | apply keptO_fault | apply kept_p0Only | apply kept_flashStart | apply kept_ite | split)

theorem kept_execEraseBlock {z : State} (f : Fn) (v : Word) (s : State) (h0 : Kept z s) : KeptO z (execEraseBlock f v s) := by
  unfold execEraseBlock
  (try dsimp only)
  repeat' with_reducible (first | assumption | apply keptO_next | apply keptO_ranged | apply keptO_fault | apply kept_p0Only | apply kept_flashStart | apply kept_ite | split)

theorem kept_flashSuspend {z : State} (s : State) (h0 : Kept z s) : Kept z (flashSuspend s) := by
  unfold flashSuspend
  (try dsimp only)
  repeat' with_reducible (first | assumption | apply kept_returnLeave | apply kept_setFlc | apply kept_flashStatus | apply kept_flashNext | (simp only [kept_mk_eq]; apply kept_of) | apply kept_ite | split)

theorem kept_execSuspend {z : State} (f : Fn) (v : Word) (s : State) (h0 : Kept z s) : KeptO z (execSuspend f v s) := by
  unfold execSuspend
  (try dsimp only)
  repeat' with_reducible (first | assumption | apply keptO_next | apply keptO_ranged | apply keptO_fault | apply kept_p0Only | apply kept_regWrite | apply kept_flashSuspend | apply kept_ite | split)

theorem kept_flashResume {z : State} (s : State) (h0 : Kept z s) : Kept z (flashResume s) := by
  unfold flashResume
  (try dsimp only)
  repeat' with_reducible (first | assumption | apply kept_flashArrive | (simp only [kept_mk_eq]; apply kept_of) | apply kept_ite | split)

theorem kept_execResume {z : State} (f : Fn) (v : Word) (s : State) (h0 : Kept z s) : KeptO z (execResume f v s) := by
  unfold execResume
  (try dsimp only)
  repeat' with_reducible (first | assumption | apply keptO_next | apply keptO_ranged | apply keptO_fault | apply kept_p0Only | apply kept_regWrite | apply kept_flashResume | apply kept_ite | split)

theorem kept_flashAbort {z : State} (s : State) (h0 : Kept z s) : Kept z (flashAbort s) := by
  unfold flashAbort
  (try dsimp only)
  repeat' with_reducible (first | assumption | apply kept_wr | apply kept_raise | apply kept_setFlc | apply kept_flashStatus | apply kept_flashEnd | (simp only [kept_mk_eq]; apply kept_of) | apply kept_ite | split)

theorem kept_execAbort {z : State} (f : Fn) (v : Word) (s : State) (h0 : Kept z s) : KeptO z (execAbort f v s) := by
  unfold execAbort
  (try dsimp only)
  repeat' with_reducible (first | assumption | apply keptO_next | apply keptO_ranged | apply keptO_fault | apply kept_p0Only | apply kept_regWrite | apply kept_flashAbort | apply kept_ite | split)

theorem kept_programWords {z : State} (o : FlashOp) (n : Nat) (s : State) (h0 : Kept z s) : Kept z (programWords o n s) := by
  unfold programWords
  (try dsimp only)
  repeat' with_reducible (first | assumption | apply kept_programWord | apply kept_foldl | (intro _; (try dsimp only)) | apply kept_ite | split)

theorem kept_programEnd {z : State} (o : FlashOp) (fail : List Nat) (s : State) (h0 : Kept z s) : Kept z (programEnd o fail s) := by
  unfold programEnd
  (try dsimp only)
  repeat' with_reducible (first | assumption | apply kept_leaveTorn | apply kept_flashEnd | apply kept_programWords | (simp only [kept_mk_eq]; apply kept_of) | apply kept_ite | split)

theorem kept_eraseDone {z : State} (o : FlashOp) (fail worse : List Nat) (s : State) (h : Kept z s) : Kept z (eraseDone o fail worse s) := by
  have fold : ∀ (l : List Nat) (p : State × Bool × Bool), Kept z p.1 → Kept z (l.foldl (eraseEnd fail worse) p).1 := by
    intro l
    induction l with
    | nil => exact fun _ hp => hp
    | cons a as ih => exact fun p hp => ih _ (kept_eraseEnd _ _ p a hp)
  unfold eraseDone
  dsimp only
  have h1 := fold (opSectors o) (s.setFlc { s.flc with op := none }, bitOn o.acc 0, bitOn o.acc 1) (kept_setFlc _ _ h)
  split
  · exact kept_setFlashOp _ _ h1
  · exact kept_flashEnd _ _ _ _ _ h1

theorem kept_highDone {z : State} (o : FlashOp) (s : State) (h0 : Kept z s) : Kept z (highDone o s) := by
  unfold highDone
  (try dsimp only)
  repeat' with_reducible (first | assumption | apply kept_putInfo | apply kept_flashEnd | (simp only [kept_mk_eq]; apply kept_of) | apply kept_ite | split)

theorem kept_opDone {z : State} (fail worse : List Nat) (s : State) (h0 : Kept z s) : Kept z (opDone fail worse s) := by
  unfold opDone
  (try dsimp only)
  repeat' with_reducible (first | assumption | apply kept_programEnd | apply kept_eraseDone | apply kept_highDone | (simp only [kept_mk_eq]; apply kept_of) | apply kept_ite | split)

theorem kept_eccEvent {z : State} (a kind : Nat) (s : State) (h0 : Kept z s) : Kept z (eccEvent a kind s) := by
  unfold eccEvent
  (try dsimp only)
  repeat' with_reducible (first | assumption | apply kept_wr | apply kept_inc | apply kept_raise | apply kept_ite | split)

theorem kept_windowRead {z : State} (off flips : Nat) (s : State) (h0 : Kept z s) : Kept z ((windowRead off flips s).2) := by
  unfold windowRead
  (try dsimp only)
  repeat' with_reducible (first | assumption | apply kept_wr | apply kept_eccEvent | (simp only [kept_mk_eq]; apply kept_of) | apply kept_ite | split)

theorem kept_execWindowRead {z : State} (f : Fn) (off flips : Nat) (s : State) (h0 : Kept z s) : KeptO z (execWindowRead f off flips s) := by
  unfold execWindowRead
  (try dsimp only)
  repeat' with_reducible (first | assumption | apply keptO_next | apply keptO_ranged | apply keptO_fault | apply kept_ranged | apply kept_post | apply kept_p0Only | apply kept_windowRead | apply kept_ite | split)

theorem kept_boLog {z : State} (addr op : Nat) (s : State) (h0 : Kept z s) : Kept z (boLog addr op s) := by
  unfold boLog
  (try dsimp only)
  repeat' with_reducible (first | assumption | apply kept_wr | apply kept_raise | apply kept_ite | split)

theorem kept_eraseCut {z : State} (o : FlashOp) (pos : Nat) (s : State) (h0 : Kept z s) : Kept z (eraseCut o pos s) := by
  unfold eraseCut
  (try dsimp only)
  repeat' with_reducible (first | assumption | apply kept_clearSector | apply kept_leaveMark | apply kept_leaveWild | apply kept_foldl | (intro _; (try dsimp only)) | (simp only [kept_mk_eq]; apply kept_of) | apply kept_ite | split)

theorem kept_flashCut {z : State} (o : FlashOp) (pos : Nat) (s : State) (h0 : Kept z s) : Kept z (flashCut o pos s) := by
  unfold flashCut
  (try dsimp only)
  repeat' with_reducible (first | assumption | apply kept_cutInfo | apply kept_leaveTorn | apply kept_programWords | apply kept_eraseCut | apply kept_ite | split)

theorem kept_flashBrownOut {z : State} (pos : Nat) (s : State) (h0 : Kept z s) : Kept z (flashBrownOut pos s) := by
  unfold flashBrownOut
  (try dsimp only)
  repeat' with_reducible (first | assumption | apply kept_setFlc | apply kept_boLog | apply kept_flashCut | (simp only [kept_mk_eq]; apply kept_of) | apply kept_ite | split)

theorem kept_execFlashBrownOut {z : State} (pos : Nat) (s : State) (h0 : Kept z s) : KeptO z (execFlashBrownOut pos s) := by
  unfold execFlashBrownOut
  (try dsimp only)
  repeat' with_reducible (first | assumption | apply keptO_next | apply keptO_ranged | apply keptO_fault | apply kept_flashBrownOut | apply kept_ite | split)

theorem kept_supplyBack {z : State} (s : State) (h0 : Kept z s) : Kept z (supplyBack s) := by
  unfold supplyBack
  (try dsimp only)
  repeat' with_reducible (first | assumption | apply kept_setFlc | apply kept_flashEnd | apply kept_flashBegin | (simp only [kept_mk_eq]; apply kept_of) | apply kept_ite | split)

theorem kept_resetCut {z : State} (o : FlashOp) (s : State) (h0 : Kept z s) : Kept z (resetCut o s) := by
  unfold resetCut
  (try dsimp only)
  repeat' with_reducible (first | assumption | apply kept_freed | apply kept_flashCut | apply kept_ite | split)

theorem kept_resumeCut {z : State} (o : FlashOp) (s : State) (h0 : Kept z s) : Kept z (resumeCut o s) := by
  unfold resumeCut
  (try dsimp only)
  repeat' with_reducible (first | assumption | apply kept_leaveMark | apply kept_leaveWild | apply kept_foldl | (intro _; (try dsimp only)) | apply kept_ite | split)

theorem kept_flashReset {z : State} (s : State) (h0 : Kept z s) : Kept z (flashReset s) := by
  unfold flashReset
  (try dsimp only)
  repeat' with_reducible (first | assumption | apply kept_wr | apply kept_setFlc | apply kept_settleInfo | apply kept_resetCut | apply kept_resumeCut | apply kept_foldl | (intro _; (try dsimp only)) | (simp only [kept_mk_eq]; apply kept_of) | apply kept_ite | split)

theorem kept_setClk {z : State} (s : State) (x : Clk) (h0 : Kept z s) : Kept z (State.setClk s x) := by
  unfold State.setClk
  (try dsimp only)
  repeat' with_reducible (first | assumption | (simp only [kept_mk_eq]; apply kept_of) | apply kept_ite | split)

theorem kept_synEnable {z : State} (s : State) (h0 : Kept z s) : Kept z (synEnable s) := by
  unfold synEnable
  (try dsimp only)
  repeat' with_reducible (first | assumption | apply kept_wr | apply kept_setClk | (simp only [kept_mk_eq]; apply kept_of) | apply kept_ite | split)

theorem kept_execSynEnable {z : State} (f : Fn) (s : State) (h0 : Kept z s) : KeptO z (execSynEnable f s) := by
  unfold execSynEnable
  (try dsimp only)
  repeat' with_reducible (first | assumption | apply keptO_next | apply keptO_ranged | apply keptO_fault | apply kept_p0Only | apply kept_synEnable | apply kept_ite | split)

theorem kept_synLock {z : State} (band us : Nat) (s : State) (h0 : Kept z s) : Kept z (synLock band us s) := by
  unfold synLock
  (try dsimp only)
  repeat' with_reducible (first | assumption | apply kept_wr | apply kept_raise | apply kept_setClk | (simp only [kept_mk_eq]; apply kept_of) | apply kept_ite | split)

theorem kept_execSynLock {z : State} (band us : Nat) (s : State) (h0 : Kept z s) : KeptO z (execSynLock band us s) := by
  unfold execSynLock
  (try dsimp only)
  repeat' with_reducible (first | assumption | apply keptO_next | apply keptO_ranged | apply keptO_fault | apply kept_ranged | apply kept_synLock | apply kept_ite | split)

theorem kept_execRefLoss {z : State} (s : State) (h0 : Kept z s) : KeptO z (execRefLoss s) := by
  unfold execRefLoss
  (try dsimp only)
  repeat' with_reducible (first | assumption | apply keptO_next | apply keptO_ranged | apply keptO_fault | apply kept_wr | apply kept_raise | apply kept_ite | split)

theorem kept_execRefBack {z : State} (s : State) (h0 : Kept z s) : KeptO z (execRefBack s) := by
  unfold execRefBack
  (try dsimp only)
  repeat' with_reducible (first | assumption | apply keptO_next | apply keptO_ranged | apply keptO_fault | apply kept_wr | apply kept_raise | apply kept_ite | split)

theorem kept_execAlignerRelease {z : State} (s : State) (h0 : Kept z s) : KeptO z (execAlignerRelease s) := by
  unfold execAlignerRelease
  (try dsimp only)
  repeat' with_reducible (first | assumption | apply keptO_next | apply keptO_ranged | apply keptO_fault | apply kept_setClk | (simp only [kept_mk_eq]; apply kept_of) | apply kept_ite | split)

theorem kept_execSyncMissing {z : State} (s : State) (h0 : Kept z s) : KeptO z (execSyncMissing s) := by
  unfold execSyncMissing
  (try dsimp only)
  repeat' with_reducible (first | assumption | apply keptO_next | apply keptO_ranged | apply keptO_fault | apply kept_wr | apply kept_raise | apply kept_ite | split)

theorem kept_execAlnLock {z : State} (s : State) (h0 : Kept z s) : KeptO z (execAlnLock s) := by
  unfold execAlnLock
  (try dsimp only)
  repeat' with_reducible (first | assumption | apply keptO_next | apply keptO_ranged | apply keptO_fault | apply kept_wr | apply kept_raise | apply kept_setClk | (simp only [kept_mk_eq]; apply kept_of) | apply kept_ite | split)

theorem kept_syncCapture {z : State} (t ph : Nat) (s : State) (h0 : Kept z s) : Kept z (syncCapture t ph s) := by
  unfold syncCapture
  (try dsimp only)
  repeat' with_reducible (first | assumption | apply kept_wr | apply kept_bump | apply kept_wr64 | apply kept_ite | split)

theorem kept_syncSlip {z : State} (s : State) (h0 : Kept z s) : Kept z (syncSlip s) := by
  unfold syncSlip
  (try dsimp only)
  repeat' with_reducible (first | assumption | apply kept_wr | apply kept_inc | apply kept_raise | apply kept_setClk | (simp only [kept_mk_eq]; apply kept_of) | apply kept_ite | split)

theorem kept_syncEdge {z : State} (t ph : Nat) (s0 : State) (h0 : Kept z s0) : Kept z (syncEdge t ph s0) := by
  unfold syncEdge
  (try dsimp only)
  repeat' with_reducible (first | assumption | apply kept_wr | apply kept_setClk | apply kept_syncCapture | apply kept_syncSlip | (simp only [kept_mk_eq]; apply kept_of) | apply kept_ite | split)

theorem kept_execSyncinEdge {z : State} (t ph : Nat) (s0 : State) (h0 : Kept z s0) : KeptO z (execSyncinEdge t ph s0) := by
  unfold execSyncinEdge
  (try dsimp only)
  repeat' with_reducible (first | assumption | apply keptO_next | apply keptO_ranged | apply keptO_fault | apply kept_ranged | apply kept_post | apply kept_at_ | apply kept_syncEdge | apply kept_ite | split)

theorem kept_execSyncSlip {z : State} (s : State) (h0 : Kept z s) : KeptO z (execSyncSlip s) := by
  unfold execSyncSlip
  (try dsimp only)
  repeat' with_reducible (first | assumption | apply keptO_next | apply keptO_ranged | apply keptO_fault | apply kept_at_ | apply kept_syncSlip | (simp only [kept_mk_eq]; apply kept_of) | apply kept_ite | split)

theorem kept_execSyncoutPulse {z : State} (s0 : State) (h0 : Kept z s0) : KeptO z (execSyncoutPulse s0) := by
  unfold execSyncoutPulse
  (try dsimp only)
  repeat' with_reducible (first | assumption | apply keptO_next | apply keptO_ranged | apply keptO_fault | apply kept_post | apply kept_at_ | apply kept_setClk | apply kept_syncCapture | (simp only [kept_mk_eq]; apply kept_of) | apply kept_ite | split)

theorem kept_execClkoutEnable {z : State} (f : Fn) (n : Nat) (en : Bool) (s : State) (h0 : Kept z s) : KeptO z (execClkoutEnable f n en s) := by
  unfold execClkoutEnable
  (try dsimp only)
  repeat' with_reducible (first | assumption | apply keptO_next | apply keptO_ranged | apply keptO_fault | apply kept_ranged | apply kept_wr | apply kept_p0Only | apply kept_ite | split)

theorem kept_stopTb {z : State} (s : State) (h0 : Kept z s) : Kept z (stopTb s) := by
  unfold stopTb
  (try dsimp only)
  repeat' with_reducible (first | assumption | apply kept_setClk | (simp only [kept_mk_eq]; apply kept_of) | apply kept_ite | split)

theorem kept_afterBridge {z : State} (s : State) (h0 : Kept z s) : Kept z (afterBridge s) := by
  unfold afterBridge
  (try dsimp only)
  repeat' with_reducible (first | assumption | apply kept_fireCmp | apply kept_foldl | (intro _; (try dsimp only)) | (simp only [kept_mk_eq]; apply kept_of) | apply kept_ite | split)

theorem kept_loadBridge {z : State} (a ticks unc : Nat) (lost : Bool) (s : State) (h0 : Kept z s) : Kept z (loadBridge a ticks unc lost s) := by
  unfold loadBridge
  (try dsimp only)
  repeat' with_reducible (first | assumption | apply kept_wr | apply kept_wr64 | apply kept_raise | apply kept_afterBridge | (simp only [kept_mk_eq]; apply kept_of) | apply kept_ite | split)

theorem kept_execAtbBridge {z : State} (s0 : State) (h0 : Kept z s0) : KeptO z (execAtbBridge s0) := by
  unfold execAtbBridge
  (try dsimp only)
  repeat' with_reducible (first | assumption | apply keptO_next | apply keptO_ranged | apply keptO_fault | apply kept_elapse | apply kept_loadBridge | (simp only [kept_mk_eq]; apply kept_of) | apply kept_ite | split)

theorem kept_setRtc {z : State} (s : State) (x : Rtc) (h0 : Kept z s) : Kept z (State.setRtc s x) := by
  unfold State.setRtc
  (try dsimp only)
  repeat' with_reducible (first | assumption | (simp only [kept_mk_eq]; apply kept_of) | apply kept_ite | split)

theorem kept_setSeconds {z : State} (v : Nat) (s : State) (h0 : Kept z s) : Kept z (setSeconds v s) := by
  unfold setSeconds
  (try dsimp only)
  repeat' with_reducible (first | assumption | apply kept_wr | apply kept_ite | split)

theorem kept_elapseXk {z : State} (x : Nat) (s : State) (h0 : Kept z s) : Kept z (elapseXk x s) := by
  unfold elapseXk
  (try dsimp only)
  repeat' with_reducible (first | assumption | apply kept_elapse | apply kept_ite | split)

theorem kept_execRtcSecond {z : State} (s0 : State) (h0 : Kept z s0) : KeptO z (execRtcSecond s0) := by
  unfold execRtcSecond
  (try dsimp only)
  repeat' with_reducible (first | assumption | apply keptO_next | apply keptO_ranged | apply keptO_fault | apply kept_wr | apply kept_pulse | apply kept_setRtc | apply kept_setSeconds | apply kept_elapseXk | (simp only [kept_mk_eq]; apply kept_of) | apply kept_ite | split)

theorem kept_execXkFail {z : State} (s : State) (h0 : Kept z s) : KeptO z (execXkFail s) := by
  unfold execXkFail
  (try dsimp only)
  repeat' with_reducible (first | assumption | apply keptO_next | apply keptO_ranged | apply keptO_fault | apply kept_wr | apply kept_setClk | (simp only [kept_mk_eq]; apply kept_of) | apply kept_ite | split)

theorem kept_execXkEdgesReturn {z : State} (s : State) (h0 : Kept z s) : KeptO z (execXkEdgesReturn s) := by
  unfold execXkEdgesReturn
  (try dsimp only)
  repeat' with_reducible (first | assumption | apply keptO_next | apply keptO_ranged | apply keptO_fault | apply kept_wr | apply kept_setClk | (simp only [kept_mk_eq]; apply kept_of) | apply kept_ite | split)

theorem kept_rtcThaw {z : State} (s : State) (h0 : Kept z s) : Kept z (rtcThaw s) := by
  unfold rtcThaw
  (try dsimp only)
  repeat' with_reducible (first | assumption | apply kept_wr | apply kept_ite | split)

theorem kept_rtcRead {z : State} (r : Nat) (s : State) (h0 : Kept z s) : Kept z ((rtcRead r s).2) := by
  unfold rtcRead
  (try dsimp only)
  repeat' with_reducible (first | assumption | apply kept_wr | apply kept_setRtc | apply kept_rtcThaw | (simp only [kept_mk_eq]; apply kept_of) | apply kept_ite | split)

theorem kept_execRtcFreeze {z : State} (f : Fn) (r : Nat) (s : State) (h0 : Kept z s) : KeptO z (execRtcFreeze f r s) := by
  unfold execRtcFreeze
  (try dsimp only)
  repeat' with_reducible (first | assumption | apply keptO_next | apply keptO_ranged | apply keptO_fault | apply kept_ranged | apply kept_post | apply kept_p0Only | apply kept_rtcRead | apply kept_ite | split)

theorem kept_execFreezeTimeout {z : State} (s : State) (h0 : Kept z s) : KeptO z (execFreezeTimeout s) := by
  unfold execFreezeTimeout
  (try dsimp only)
  repeat' with_reducible (first | assumption | apply keptO_next | apply keptO_ranged | apply keptO_fault | apply kept_wr | apply kept_elapse | apply kept_rtcThaw | apply kept_ite | split)

theorem kept_execRtcHaltWrite {z : State} (f : Fn) (h : Bool) (s : State) (h0 : Kept z s) : KeptO z (execRtcHaltWrite f h s) := by
  unfold execRtcHaltWrite
  (try dsimp only)
  repeat' with_reducible (first | assumption | apply keptO_next | apply keptO_ranged | apply keptO_fault | apply kept_wr | apply kept_p0Only | apply kept_rtcThaw | apply kept_ite | split)

theorem kept_secondsWrite {z : State} (hi : Nat) (s0 : State) (h0 : Kept z s0) : Kept z (secondsWrite hi s0) := by
  unfold secondsWrite
  (try dsimp only)
  repeat' with_reducible (first | assumption | apply kept_wr | apply kept_dropHeld | apply kept_setRtc | apply kept_setSeconds | apply kept_rtcThaw | (simp only [kept_mk_eq]; apply kept_of) | apply kept_ite | split)

theorem kept_execSecondsWrite {z : State} (f : Fn) (hi : Nat) (s : State) (h0 : Kept z s) : KeptO z (execSecondsWrite f hi s) := by
  unfold execSecondsWrite
  (try dsimp only)
  repeat' with_reducible (first | assumption | apply keptO_next | apply keptO_ranged | apply keptO_fault | apply kept_p0Only | apply kept_secondsWrite | apply kept_ite | split)

theorem kept_alarmFire {z : State} (late : Bool) (s : State) (h0 : Kept z s) : Kept z (alarmFire late s) := by
  unfold alarmFire
  (try dsimp only)
  repeat' with_reducible (first | assumption | apply kept_wr | apply kept_pulse | apply kept_wakeFire | apply kept_ite | split)

theorem kept_alarmArm {z : State} (hi : Nat) (s0 : State) (h0 : Kept z s0) : Kept z (alarmArm hi s0) := by
  unfold alarmArm
  (try dsimp only)
  repeat' with_reducible (first | assumption | apply kept_wr | apply kept_dropHeld | apply kept_rtcThaw | apply kept_alarmFire | apply kept_ite | split)

theorem kept_execRtcAlarmArm {z : State} (f : Fn) (hi : Nat) (s : State) (h0 : Kept z s) : KeptO z (execRtcAlarmArm f hi s) := by
  unfold execRtcAlarmArm
  (try dsimp only)
  repeat' with_reducible (first | assumption | apply keptO_next | apply keptO_ranged | apply keptO_fault | apply kept_p0Only | apply kept_alarmArm | apply kept_ite | split)

theorem kept_execRtcAlarmFire {z : State} (s : State) (h0 : Kept z s) : KeptO z (execRtcAlarmFire s) := by
  unfold execRtcAlarmFire
  (try dsimp only)
  repeat' with_reducible (first | assumption | apply keptO_next | apply keptO_ranged | apply keptO_fault | apply kept_alarmFire | apply kept_ite | split)

theorem kept_execRtcDisarm {z : State} (f : Fn) (s : State) (h0 : Kept z s) : KeptO z (execRtcDisarm f s) := by
  unfold execRtcDisarm
  (try dsimp only)
  repeat' with_reducible (first | assumption | apply keptO_next | apply keptO_ranged | apply keptO_fault | apply kept_wr | apply kept_p0Only | apply kept_rtcThaw | apply kept_ite | split)

theorem kept_setTmr {z : State} (k : Nat) (x : Tmr) (s : State) (h0 : Kept z s) : Kept z (setTmr k x s) := by
  unfold setTmr
  (try dsimp only)
  repeat' with_reducible (first | assumption | (simp only [kept_mk_eq]; apply kept_of) | apply kept_ite | split)

theorem kept_timCmpFlag {z : State} (k x : Nat) (s : State) (h0 : Kept z s) : Kept z (timCmpFlag k x s) := by
  unfold timCmpFlag
  (try dsimp only)
  repeat' with_reducible (first | assumption | apply kept_wr | apply kept_pulse | apply kept_ite | split)

theorem kept_timWrap {z : State} (k : Nat) (s : State) (h0 : Kept z s) : Kept z (timWrap k s) := by
  unfold timWrap
  (try dsimp only)
  repeat' with_reducible (first | assumption | apply kept_wr | apply kept_pulse | apply kept_setTmr | apply kept_timCmpFlag | apply kept_foldl | (intro _; (try dsimp only)) | apply kept_ite | split)

theorem kept_execTimerWrap {z : State} (k : Nat) (s : State) (h0 : Kept z s) : KeptO z (execTimerWrap k s) := by
  unfold execTimerWrap
  (try dsimp only)
  repeat' with_reducible (first | assumption | apply keptO_next | apply keptO_ranged | apply keptO_fault | apply kept_ranged | apply kept_elapse | apply kept_timWrap | apply kept_ite | split)

theorem kept_execTimerCompare {z : State} (k x : Nat) (s : State) (h0 : Kept z s) : KeptO z (execTimerCompare k x s) := by
  unfold execTimerCompare
  (try dsimp only)
  repeat' with_reducible (first | assumption | apply keptO_next | apply keptO_ranged | apply keptO_fault | apply kept_ranged | apply kept_elapse | apply kept_timCmpFlag | apply kept_ite | split)

theorem kept_preloadWrite {z : State} (k r : Nat) (v : Word) (s : State) (h0 : Kept z s) : Kept z (preloadWrite k r v s) := by
  unfold preloadWrite
  (try dsimp only)
  repeat' with_reducible (first | assumption | apply kept_wr | apply kept_setTmr | (simp only [kept_mk_eq]; apply kept_of) | apply kept_ite | split)

theorem kept_execPreloadWrite {z : State} (f : Fn) (k r : Nat) (v : Word) (s : State) (h0 : Kept z s) : KeptO z (execPreloadWrite f k r v s) := by
  unfold execPreloadWrite
  (try dsimp only)
  repeat' with_reducible (first | assumption | apply keptO_next | apply keptO_ranged | apply keptO_fault | apply kept_ranged | apply kept_p0Only | apply kept_preloadWrite | apply kept_ite | split)

theorem kept_execClr {z : State} (f : Fn) (k : Nat) (s : State) (h0 : Kept z s) : KeptO z (execClr f k s) := by
  unfold execClr
  (try dsimp only)
  repeat' with_reducible (first | assumption | apply keptO_next | apply keptO_ranged | apply keptO_fault | apply kept_ranged | apply kept_wr | apply kept_p0Only | apply kept_setTmr | (simp only [kept_mk_eq]; apply kept_of) | apply kept_ite | split)

theorem kept_timEnable {z : State} (v : Word) (en : Nat) (s : State) (h0 : Kept z s) : Kept z (timEnable v en s) := by
  unfold timEnable
  (try dsimp only)
  repeat' with_reducible (first | assumption | apply kept_wr | apply kept_foldl | (intro _; (try dsimp only)) | apply kept_ite | split)

theorem kept_execTimStart {z : State} (f : Fn) (v : Word) (s : State) (h0 : Kept z s) : KeptO z (execTimStart f v s) := by
  unfold execTimStart
  (try dsimp only)
  repeat' with_reducible (first | assumption | apply keptO_next | apply keptO_ranged | apply keptO_fault | apply kept_p0Only | apply kept_timEnable | apply kept_ite | split)

theorem kept_execTimStop {z : State} (f : Fn) (v : Word) (s : State) (h0 : Kept z s) : KeptO z (execTimStop f v s) := by
  unfold execTimStop
  (try dsimp only)
  repeat' with_reducible (first | assumption | apply keptO_next | apply keptO_ranged | apply keptO_fault | apply kept_p0Only | apply kept_timEnable | apply kept_ite | split)

theorem kept_applyRecord {z : State} (s : State) (x : Nat × Nat) (h0 : Kept z s) : Kept z (applyRecord s x) := by
  unfold applyRecord
  (try dsimp only)
  repeat' with_reducible (first | assumption | apply kept_setReg | apply kept_ite | split)

theorem kept_resetRanges {z : State} (t : Nat) (s : State) (h0 : Kept z s) : Kept z (resetRanges t s) := by
  unfold resetRanges
  (try dsimp only)
  repeat' with_reducible (first | assumption | apply kept_setReg | apply kept_foldl | (intro _; (try dsimp only)) | apply kept_ite | split)

theorem kept_applyRecords {z : State} (t : Nat) (d : List Byte) (s : State) (h0 : Kept z s) : Kept z (applyRecords t d s) := by
  unfold applyRecords
  (try dsimp only)
  repeat' with_reducible (first | assumption | apply kept_applyRecord | apply kept_resetRanges | apply kept_foldl | (intro _; (try dsimp only)) | apply kept_ite | split)

theorem kept_syncPart {z : State} (old u : State) (p : Nat) (h0 : Kept z old) (h1 : Kept z u) : Kept z (syncPart old u p) := by
  unfold syncPart
  (try dsimp only)
  repeat' with_reducible (first | assumption | apply kept_wr | apply kept_mapErr | apply kept_ite | split)

theorem kept_syncParts {z : State} (old new : State) (h0 : Kept z old) (h1 : Kept z new) : Kept z (syncParts old new) := by
  unfold syncParts
  (try dsimp only)
  repeat' with_reducible (first | assumption | apply kept_wr | apply kept_syncPart | apply kept_foldl | (intro _; (try dsimp only)) | apply kept_ite | split)

theorem kept_planStatus {z : State} (s : State) (h0 : Kept z s) : Kept z (planStatus s) := by
  unfold planStatus
  (try dsimp only)
  repeat' with_reducible (first | assumption | apply kept_wr | apply kept_ite | split)

theorem kept_attInit {z : State} (s : State) (h0 : Kept z s) : Kept z (attInit s) := by
  unfold attInit
  (try dsimp only)
  repeat' with_reducible (first | assumption | apply kept_wr | apply kept_foldl | (intro _; (try dsimp only)) | apply kept_ite | split)

theorem kept_putCurve {z : State} (c : Curve) (s : State) (h0 : Kept z s) : Kept z (putCurve c s) := by
  unfold putCurve
  (try dsimp only)
  repeat' with_reducible (first | assumption | (simp only [kept_mk_eq]; apply kept_of) | apply kept_ite | split)

theorem kept_putRamp {z : State} (c : Nat) (d : List Byte) (s : State) (h0 : Kept z s) : Kept z (putRamp c d s) := by
  unfold putRamp
  (try dsimp only)
  repeat' with_reducible (first | assumption | apply kept_setReg | apply kept_foldl | (intro _; (try dsimp only)) | apply kept_ite | split)

theorem kept_putCorrection {z : State} (n : Nat) (d : List Byte) (s : State) (h0 : Kept z s) : Kept z (putCorrection n d s) := by
  unfold putCorrection
  (try dsimp only)
  repeat' with_reducible (first | assumption | apply kept_setCorr | apply kept_foldl | (intro _; (try dsimp only)) | apply kept_ite | split)

theorem kept_putFormats {z : State} (d : List Byte) (s : State) (h0 : Kept z s) : Kept z (putFormats d s) := by
  unfold putFormats
  (try dsimp only)
  repeat' with_reducible (first | assumption | apply kept_foldl | (intro _; (try dsimp only)) | (simp only [kept_mk_eq]; apply kept_of) | apply kept_ite | split)

theorem kept_putSeq {z : State} (q : Nat) (d : List Byte) (s : State) (h0 : Kept z s) : Kept z (putSeq q d s) := by
  unfold putSeq
  (try dsimp only)
  repeat' with_reducible (first | assumption | apply kept_setReg | apply kept_foldl | (intro _; (try dsimp only)) | apply kept_ite | split)

theorem kept_putPower {z : State} (d : List Byte) (s : State) (h0 : Kept z s) : Kept z (putPower d s) := by
  unfold putPower
  (try dsimp only)
  repeat' with_reducible (first | assumption | apply kept_foldl | (intro _; (try dsimp only)) | (simp only [kept_mk_eq]; apply kept_of) | apply kept_ite | split)

theorem kept_putSupervisor {z : State} (d : List Byte) (lo hi : Nat) (s : State) (h0 : Kept z s) : Kept z (putSupervisor d lo hi s) := by
  unfold putSupervisor
  (try dsimp only)
  repeat' with_reducible (first | assumption | apply kept_store | apply kept_zeroMem | apply kept_setPc | apply kept_foldl | (intro _; (try dsimp only)) | apply kept_ite | split)

theorem kept_putShared {z : State} (c : Nat) (d : List Byte) (s : State) (h0 : Kept z s) : Kept z (putShared c d s) := by
  unfold putShared
  (try dsimp only)
  repeat' with_reducible (first | assumption | apply kept_store | apply kept_ite | split)

theorem kept_putEngine {z : State} (e : Nat) (d : List Byte) (s : State) (h0 : Kept z s) : Kept z (putEngine e d s) := by
  unfold putEngine
  (try dsimp only)
  repeat' with_reducible (first | assumption | apply kept_store | apply kept_setPc | apply kept_ite | split)

theorem kept_startEngine {z : State} (e : Nat) (d : List Byte) (s : State) (h0 : Kept z s) : Kept z (startEngine e d s) := by
  unfold startEngine
  (try dsimp only)
  repeat' with_reducible (first | assumption | apply kept_engRun | apply kept_ite | split)

theorem kept_planSwitch {z : State} (old new : State) (h0 : Kept z old) (h1 : Kept z new) : Kept z (planSwitch old new) := by
  unfold planSwitch
  (try dsimp only)
  repeat' with_reducible (first | assumption | apply kept_bump | apply kept_raise | apply kept_noiseRestart | apply kept_planStatus | apply kept_ite | split)

theorem kept_clockApplied {z : State} (old new : State) (h0 : Kept z old) (h1 : Kept z new) : Kept z (clockApplied old new) := by
  unfold clockApplied
  (try dsimp only)
  repeat' with_reducible (first | assumption | apply kept_setClk | (simp only [kept_mk_eq]; apply kept_of) | apply kept_ite | split)

theorem kept_applySect {z : State} (lo hi : Nat) (x : Sect) (d : List Byte) (s : State) (h0 : Kept z s) : Kept z (applySect lo hi x d s) := by
  unfold applySect
  (try dsimp only)
  repeat' with_reducible (first | assumption | apply kept_applyRecords | apply kept_syncParts | apply kept_planStatus | apply kept_attInit | apply kept_putCurve | apply kept_putRamp | apply kept_putCorrection | apply kept_putFormats | apply kept_putSeq | apply kept_putPower | apply kept_putSupervisor | apply kept_putShared | apply kept_putEngine | apply kept_clockApplied | (simp only [kept_mk_eq]; apply kept_of) | apply kept_ite | split)

theorem kept_absorbed {z : State} (s : State) (r : PReset) (h0 : Kept z s) : Kept z (absorbed s r) := by
  unfold absorbed
  (try dsimp only)
  repeat' with_reducible (first | assumption | apply kept_eraseKeys | apply kept_clearLinks | apply kept_partResetEnd | apply kept_ite | split)

theorem kept_reloadOver {z : State} (s : State) (h0 : Kept z s) : Kept z (reloadOver s) := by
  unfold reloadOver
  (try dsimp only)
  repeat' with_reducible (first | assumption | apply kept_wr | apply kept_absorbed | apply kept_foldl | (intro _; (try dsimp only)) | apply kept_ite | split)

theorem kept_orFree {z : State} (f : RegFld) (v : Option Nat) (s : State) (h0 : Kept z s) : Kept z (orFree f v s) := by
  unfold orFree
  (try dsimp only)
  repeat' with_reducible (first | assumption | apply kept_wr | apply kept_freed | (simp only [kept_mk_eq]; apply kept_of) | apply kept_ite | split)

theorem kept_reportLoad {z : State} (code : Nat) (sec ofs : Option Nat) (s : State) (h0 : Kept z s) : Kept z (reportLoad code sec ofs s) := by
  unfold reportLoad
  (try dsimp only)
  repeat' with_reducible (first | assumption | apply kept_wr | apply kept_raise | apply kept_orFree | apply kept_ite | split)

theorem kept_imgFail {z : State} (code : Nat) (sec ofs : Option Nat) (s : State) (h0 : Kept z s) : Kept z (imgFail code sec ofs s) := by
  unfold imgFail
  (try dsimp only)
  repeat' with_reducible (first | assumption | apply kept_wr | apply kept_setFlc | apply kept_reloadOver | apply kept_reportLoad | (simp only [kept_mk_eq]; apply kept_of) | apply kept_ite | split)

theorem kept_pass2 {z : State} (j : LoadJob) (s : State) (h0 : Kept z s) : Kept z (pass2 j s) := by
  unfold pass2
  (try dsimp only)
  repeat' with_reducible (first | assumption | apply kept_wr | apply kept_elapse | apply kept_setFlc | apply kept_applySect | apply kept_imgFail | apply kept_foldl | (intro _; (try dsimp only)) | (simp only [kept_mk_eq]; apply kept_of) | apply kept_ite | split)

theorem kept_pass1 {z : State} (s : State) (h0 : Kept z s) : Kept z (pass1 s) := by
  unfold pass1
  (try dsimp only)
  repeat' with_reducible (first | assumption | apply kept_imgFail | apply kept_pass2 | (simp only [kept_mk_eq]; apply kept_of) | apply kept_ite | split)

theorem kept_imgBegin {z : State} (mode addr src : Nat) (locks : Bool) (s : State) (h0 : Kept z s) : Kept z (imgBegin mode addr src locks s) := by
  unfold imgBegin
  (try dsimp only)
  repeat' with_reducible (first | assumption | apply kept_wr | apply kept_setFlc | apply kept_pass1 | (simp only [kept_mk_eq]; apply kept_of) | apply kept_ite | split)

theorem kept_imgStart {z : State} (mode : Nat) (sup locks : Bool) (s : State) (h0 : Kept z s) : Kept z (imgStart mode sup locks s) := by
  unfold imgStart
  (try dsimp only)
  repeat' with_reducible (first | assumption | apply kept_wr | apply kept_reportLoad | apply kept_imgBegin | apply kept_ite | split)

theorem kept_execBaseLoad {z : State} (f : Fn) (sup locks : Bool) (s : State) (h0 : Kept z s) : KeptO z (execBaseLoad f sup locks s) := by
  unfold execBaseLoad
  (try dsimp only)
  repeat' with_reducible (first | assumption | apply keptO_next | apply keptO_ranged | apply keptO_fault | apply kept_p0Only | apply kept_imgStart | apply kept_ite | split)

theorem kept_execLiveLoad {z : State} (f : Fn) (sup : Bool) (s : State) (h0 : Kept z s) : KeptO z (execLiveLoad f sup s) := by
  unfold execLiveLoad
  (try dsimp only)
  repeat' with_reducible (first | assumption | apply keptO_next | apply keptO_ranged | apply keptO_fault | apply kept_p0Only | apply kept_imgStart | apply kept_ite | split)

theorem kept_imgAbort {z : State} (s : State) (h0 : Kept z s) : Kept z (imgAbort s) := by
  unfold imgAbort
  (try dsimp only)
  repeat' with_reducible (first | assumption | apply kept_imgFail | apply kept_ite | split)

theorem kept_execLoadAbort {z : State} (f : Fn) (s : State) (h0 : Kept z s) : KeptO z (execLoadAbort f s) := by
  unfold execLoadAbort
  (try dsimp only)
  repeat' with_reducible (first | assumption | apply keptO_next | apply keptO_ranged | apply keptO_fault | apply kept_p0Only | apply kept_imgAbort | apply kept_ite | split)

theorem kept_applyAll {z : State} (j : LoadJob) : ∀ (l : List Sect) (s : State), Kept z s → Kept z (applyAll j l s).1
  | [], _, h => h
  | x :: xs, s, h => by
    unfold applyAll
    split
    · exact kept_applyAll j xs _ (by apply kept_applySect; exact h)
    · exact h

theorem kept_startEngines {z : State} (j : LoadJob) (s : State) (h0 : Kept z s) : Kept z (startEngines j s) := by
  unfold startEngines
  (try dsimp only)
  repeat' with_reducible (first | assumption | apply kept_startEngine | apply kept_foldl | (intro _; (try dsimp only)) | apply kept_ite | split)

theorem kept_setLocks {z : State} (mask : Nat) (s : State) (h0 : Kept z s) : Kept z (setLocks mask s) := by
  unfold setLocks
  (try dsimp only)
  repeat' with_reducible (first | assumption | apply kept_wr | apply kept_foldl | (intro _; (try dsimp only)) | apply kept_ite | split)

theorem kept_runSupervisors {z : State} (s : State) (h0 : Kept z s) : Kept z (runSupervisors s) := by
  unfold runSupervisors
  (try dsimp only)
  repeat' with_reducible (first | assumption | apply kept_supRun | apply kept_foldl | (intro _; (try dsimp only)) | apply kept_ite | split)

theorem kept_setActive {z : State} (j : LoadJob) (s : State) (h0 : Kept z s) : Kept z (setActive j s) := by
  unfold setActive
  (try dsimp only)
  repeat' with_reducible (first | assumption | apply kept_wr | apply kept_setFlc | apply kept_foldl | (intro _; (try dsimp only)) | (simp only [kept_mk_eq]; apply kept_of) | apply kept_ite | split)

theorem kept_loadEnds {z : State} (st : Nat) (s : State) (h0 : Kept z s) : Kept z (loadEnds st s) := by
  unfold loadEnds
  (try dsimp only)
  repeat' with_reducible (first | assumption | apply kept_wr | apply kept_raise | apply kept_setFlc | (simp only [kept_mk_eq]; apply kept_of) | apply kept_ite | split)

theorem kept_zeroEngines {z : State} (j : LoadJob) (s : State) (h0 : Kept z s) : Kept z (zeroEngines j s) := by
  unfold zeroEngines
  (try dsimp only)
  repeat' with_reducible (first | assumption | apply kept_zeroMem | apply kept_ite | split)

theorem kept_baseDone {z : State} (j : LoadJob) (s : State) (h : Kept z s) : Kept z (baseDone j s) := by
  have ha := kept_applyAll j (baseOrder j.left) _ (kept_zeroEngines j s h)
  unfold baseDone
  split <;> (rename_i e; rw [e] at ha; dsimp only at ha ⊢)
  · exact kept_imgFail _ _ _ _ ha
  · repeat' with_reducible (first | assumption | apply kept_loadEnds | apply kept_runSupervisors | apply kept_setFlc | apply kept_setActive | apply kept_setLocks | apply kept_startEngines | apply kept_radioRuns | (simp only [kept_mk_eq]; apply kept_of))

theorem kept_liveDone {z : State} (s : State) (h0 : Kept z s) : Kept z (liveDone s) := by
  unfold liveDone
  (try dsimp only)
  repeat' with_reducible (first | assumption | apply kept_bump | apply kept_loadEnds | apply kept_ite | split)

theorem kept_loadDone {z : State} (s : State) (h0 : Kept z s) : Kept z (loadDone s) := by
  unfold loadDone
  (try dsimp only)
  repeat' with_reducible (first | assumption | apply kept_pass1 | apply kept_baseDone | apply kept_liveDone | (simp only [kept_mk_eq]; apply kept_of) | apply kept_ite | split)

theorem kept_radioReload {z : State} (s : State) (h : Kept z s) : Kept z (radioReload s) := by
  unfold radioReload
  split
  · exact h
  · apply kept_ite h
    split
    · exact kept_imgFail _ _ _ _ h
    · extract_lets k
      have ha := kept_applyAll k k.left (s.wr FLC_IMG_STS.STATE 2) (kept_wr _ _ _ h)
      generalize applyAll k k.left (s.wr FLC_IMG_STS.STATE 2) = r at ha
      obtain ⟨t, o⟩ := r
      cases o with
      | some x => exact kept_imgFail _ _ _ _ ha
      | none =>
        dsimp only at ha ⊢
        apply kept_reloadOver
        apply kept_loadEnds
        apply kept_setFlc
        apply kept_setLocks
        apply kept_startEngines
        exact kept_radioRuns _ ha

theorem kept_execRadioReload {z : State} (s : State) (h0 : Kept z s) : KeptO z (execRadioReload s) := by
  unfold execRadioReload
  (try dsimp only)
  repeat' with_reducible (first | assumption | apply keptO_next | apply keptO_ranged | apply keptO_fault | apply kept_radioReload | apply kept_ite | split)

theorem kept_switched {z : State} (x : Sect) (d : List Byte) (s : State) (h0 : Kept z s) : Kept z (switched x d s) := by
  unfold switched
  (try dsimp only)
  repeat' with_reducible (first | assumption | apply kept_setFlc | (simp only [kept_mk_eq]; apply kept_of) | apply kept_ite | split)

theorem kept_switchSect {z : State} (j : LoadJob) (x : Sect) (s : State) (h0 : Kept z s) : Kept z (switchSect j x s) := by
  unfold switchSect
  (try dsimp only)
  repeat' with_reducible (first | assumption | apply kept_at_ | apply kept_planSwitch | apply kept_applySect | apply kept_imgFail | apply kept_switched | apply kept_ite | split)

theorem kept_liveSwitch {z : State} (s : State) (h0 : Kept z s) : Kept z (liveSwitch s) := by
  unfold liveSwitch
  (try dsimp only)
  repeat' with_reducible (first | assumption | apply kept_switchSect | (simp only [kept_mk_eq]; apply kept_of) | apply kept_ite | split)

theorem kept_execLiveSwitch {z : State} (s : State) (h0 : Kept z s) : KeptO z (execLiveSwitch s) := by
  unfold execLiveSwitch
  (try dsimp only)
  repeat' with_reducible (first | assumption | apply keptO_next | apply keptO_ranged | apply keptO_fault | apply kept_liveSwitch | apply kept_ite | split)

theorem kept_setBoot {z : State} (b : BootBlk) (s : State) (h0 : Kept z s) : Kept z (setBoot b s) := by
  unfold setBoot
  (try dsimp only)
  repeat' with_reducible (first | assumption | apply kept_wr | apply kept_setFlc | (simp only [kept_mk_eq]; apply kept_of) | apply kept_ite | split)

theorem kept_graftBegin {z : State} (s : State) (h0 : Kept z s) : Kept z (graftBegin s) := by
  unfold graftBegin
  (try dsimp only)
  repeat' with_reducible (first | assumption | apply kept_unitBegin | (simp only [kept_mk_eq]; apply kept_of) | apply kept_ite | split)

theorem kept_graftStart {z : State} (op : Nat) (s : State) (h0 : Kept z s) : Kept z (graftStart op s) := by
  unfold graftStart
  (try dsimp only)
  repeat' with_reducible (first | assumption | apply kept_wr | apply kept_setFlc | apply kept_graftBegin | (simp only [kept_mk_eq]; apply kept_of) | apply kept_ite | split)

theorem kept_execGraftCheck {z : State} (f : Fn) (_v : Word) (s : State) (h0 : Kept z s) : KeptO z (execGraftCheck f _v s) := by
  unfold execGraftCheck
  (try dsimp only)
  repeat' with_reducible (first | assumption | apply keptO_next | apply keptO_ranged | apply keptO_fault | apply kept_p0Only | apply kept_graftStart | apply kept_ite | split)

theorem kept_execGraftArm {z : State} (f : Fn) (_v : Word) (s : State) (h0 : Kept z s) : KeptO z (execGraftArm f _v s) := by
  unfold execGraftArm
  (try dsimp only)
  repeat' with_reducible (first | assumption | apply keptO_next | apply keptO_ranged | apply keptO_fault | apply kept_p0Only | apply kept_graftStart | apply kept_ite | split)

theorem kept_execConfirm {z : State} (f : Fn) (v : Word) (s : State) (h0 : Kept z s) : KeptO z (execConfirm f v s) := by
  unfold execConfirm
  (try dsimp only)
  repeat' with_reducible (first | assumption | apply keptO_next | apply keptO_ranged | apply keptO_fault | apply kept_p0Only | apply kept_graftStart | apply kept_ite | split)

theorem kept_execRaiseFloor {z : State} (f : Fn) (v : Word) (s : State) (h0 : Kept z s) : KeptO z (execRaiseFloor f v s) := by
  unfold execRaiseFloor
  (try dsimp only)
  repeat' with_reducible (first | assumption | apply keptO_next | apply keptO_ranged | apply keptO_fault | apply kept_p0Only | apply kept_graftStart | apply kept_ite | split)

theorem kept_execWithdraw {z : State} (f : Fn) (_v : Word) (s : State) (h0 : Kept z s) : KeptO z (execWithdraw f _v s) := by
  unfold execWithdraw
  (try dsimp only)
  repeat' with_reducible (first | assumption | apply keptO_next | apply keptO_ranged | apply keptO_fault | apply kept_p0Only | apply kept_graftStart | apply kept_ite | split)

theorem kept_fuseViews {z : State} (s : State) (h0 : Kept z s) : Kept z (fuseViews s) := by
  unfold fuseViews
  (try dsimp only)
  repeat' with_reducible (first | assumption | apply kept_wr | apply kept_foldl | (intro _; (try dsimp only)) | apply kept_ite | split)

theorem kept_raiseFloor {z : State} (s : State) (h : Kept z s) : Kept z (raiseFloor s) := by
  unfold raiseFloor
  apply kept_fuseViews
  exact ⟨⟨h.1.1, h.1.2.1, fusesGrow_trans h.1.2.2 ⟨Nat.le_max_left _ _, fun _ hk => hk, fun _ hl => hl, fun _ _ hx => hx⟩⟩, h.2⟩

theorem kept_graftEnds {z : State} (code : Nat) (s : State) (h0 : Kept z s) : Kept z (graftEnds code s) := by
  unfold graftEnds
  (try dsimp only)
  repeat' with_reducible (first | assumption | apply kept_wr | apply kept_raise | apply kept_setFlc | (simp only [kept_mk_eq]; apply kept_of) | apply kept_ite | split)

theorem kept_graftCheck {z : State} (b : BootBlk) (s : State) (h0 : Kept z s) : Kept z (graftCheck b s) := by
  unfold graftCheck
  (try dsimp only)
  repeat' with_reducible (first | assumption | apply kept_wr | apply kept_graftEnds | (simp only [kept_mk_eq]; apply kept_of) | apply kept_ite | split)

theorem kept_graftWritten {z : State} (op : Nat) (b : BootBlk) (ok : Bool) (s : State) (h0 : Kept z s) : Kept z (graftWritten op b ok s) := by
  unfold graftWritten
  (try dsimp only)
  repeat' with_reducible (first | assumption | apply kept_wr | apply kept_freed | apply kept_unitClear | apply kept_setBoot | apply kept_raiseFloor | apply kept_graftEnds | apply kept_ite | split)

theorem kept_graftDone {z : State} (s : State) (h0 : Kept z s) : Kept z (graftDone s) := by
  unfold graftDone
  (try dsimp only)
  repeat' with_reducible (first | assumption | apply kept_graftBegin | apply kept_graftEnds | apply kept_graftCheck | apply kept_graftWritten | (simp only [kept_mk_eq]; apply kept_of) | apply kept_ite | split)

theorem kept_execGraftDone {z : State} (s : State) (h0 : Kept z s) : KeptO z (execGraftDone s) := by
  unfold execGraftDone
  (try dsimp only)
  repeat' with_reducible (first | assumption | apply keptO_next | apply keptO_ranged | apply keptO_fault | apply kept_graftDone | apply kept_ite | split)

theorem sfind_none_of_absent {α : Type} (k : Nat) (m : Sparse α) (h : (skeys m).contains k = false) : sfind m k = none := by
  unfold sfind
  rw [Option.map_eq_none_iff, List.find?_eq_none]
  intro p hp e
  have : k ∈ skeys m := by
    unfold skeys
    rw [beq_iff_eq] at e
    exact e ▸ List.mem_map_of_mem hp
  simp [this] at h

theorem sfind_sput_other {α : Type} (k x : Nat) (v : α) (hx : x ≠ k) : ∀ m : Sparse α, sfind (sput m k v) x = sfind m x
  | [] => by
    have : (k == x) = false := by simpa using fun e => hx e.symm
    simp [sput, sfind, this]
  | (j, u) :: m => by
    have hk : (k == x) = false := by simpa using fun e => hx e.symm
    have ih := sfind_sput_other k x v hx m
    unfold sput
    split
    · rename_i e
      subst e
      simp [sfind, hk]
    · split
      · simp [sfind, hk]
      · unfold sfind at ih ⊢
        rw [List.find?_cons, List.find?_cons]
        split
        · rfl
        · exact ih

theorem kept_fuseBlow {z : State} (op : Nat) (s : State) (ha : fuseAllowed s op = true) (h : Kept z s) : Kept z (fuseBlow op s) := by
  unfold fuseBlow
  dsimp only
  apply kept_fuseViews
  refine ⟨⟨h.1.1, h.1.2.1, fusesGrow_trans h.1.2.2 ?_⟩, h.2⟩
  unfold fuseAllowed at ha
  dsimp only at ha
  split
  · refine ⟨Nat.le_refl _, fun _ hk => hk, fun _ hl => hl, fun k x hx => ?_⟩
    simp only [keyPresent, Bool.not_eq_true'] at ha
    have hn := sfind_none_of_absent _ _ ha
    rw [sfind_sput_other]
    · exact hx
    · rintro rfl
      rw [hn] at hx
      cases hx
  · refine ⟨Nat.le_refl _, fun k hk => ?_, fun _ hl => hl, fun _ _ hx => hx⟩
    dsimp only
    split
    · exact hk
    · exact List.mem_append_left _ hk
  · refine ⟨Nat.le_refl _, fun _ hk => hk, fun l hl => ?_, fun _ _ hx => hx⟩
    simp [hl] at ha

theorem kept_fuseStart {z : State} (op : Nat) (v : Word) (s : State) (h0 : Kept z s) : Kept z (fuseStart op v s) := by
  unfold fuseStart
  (try dsimp only)
  repeat' with_reducible (first | assumption | apply kept_wr | apply kept_regWrite | apply kept_setFlc | (simp only [kept_mk_eq]; apply kept_of) | apply kept_ite | split)

theorem kept_execProgramKey {z : State} (f : Fn) (v : Word) (s : State) (h0 : Kept z s) : KeptO z (execProgramKey f v s) := by
  unfold execProgramKey
  (try dsimp only)
  repeat' with_reducible (first | assumption | apply keptO_next | apply keptO_ranged | apply keptO_fault | apply kept_p0Only | apply kept_fuseStart | apply kept_ite | split)

theorem kept_execRevokeKey {z : State} (f : Fn) (v : Word) (s : State) (h0 : Kept z s) : KeptO z (execRevokeKey f v s) := by
  unfold execRevokeKey
  (try dsimp only)
  repeat' with_reducible (first | assumption | apply keptO_next | apply keptO_ranged | apply keptO_fault | apply kept_p0Only | apply kept_fuseStart | apply kept_ite | split)

theorem kept_execSetLimit {z : State} (f : Fn) (v : Word) (s : State) (h0 : Kept z s) : KeptO z (execSetLimit f v s) := by
  unfold execSetLimit
  (try dsimp only)
  repeat' with_reducible (first | assumption | apply keptO_next | apply keptO_ranged | apply keptO_fault | apply kept_p0Only | apply kept_fuseStart | apply kept_ite | split)

theorem kept_fuseEnds {z : State} (status : Nat) (s : State) (h0 : Kept z s) : Kept z (fuseEnds status s) := by
  unfold fuseEnds
  (try dsimp only)
  repeat' with_reducible (first | assumption | apply kept_wr | apply kept_raise | apply kept_status | apply kept_setFlc | (simp only [kept_mk_eq]; apply kept_of) | apply kept_ite | split)

theorem kept_fuseDone {z : State} (fail : Bool) (s : State) (h : Kept z s) : Kept z (fuseDone fail s) := by
  unfold fuseDone
  split
  · split
    · exact kept_fuseEnds _ _ h
    · rename_i op _ ha
      split
      · exact kept_fuseEnds _ _ h
      · exact kept_fuseEnds _ _ (kept_fuseBlow _ _ (by simpa using ha) h)
  · exact h

theorem kept_execFuseDone {z : State} (fail : Bool) (s : State) (h0 : Kept z s) : KeptO z (execFuseDone fail s) := by
  unfold execFuseDone
  (try dsimp only)
  repeat' with_reducible (first | assumption | apply keptO_next | apply keptO_ranged | apply keptO_fault | apply kept_fuseDone | apply kept_ite | split)

theorem kept_ldgEnds {z : State} (status : Nat) (s : State) (h0 : Kept z s) : Kept z (ldgEnds status s) := by
  unfold ldgEnds
  (try dsimp only)
  repeat' with_reducible (first | assumption | apply kept_wr | apply kept_raise | apply kept_status | apply kept_setFlc | (simp only [kept_mk_eq]; apply kept_of) | apply kept_ite | split)

theorem kept_writeReport {z : State} (gen copy : Nat) (s : State) (h0 : Kept z s) : Kept z (writeReport gen copy s) := by
  unfold writeReport
  (try dsimp only)
  repeat' with_reducible (first | assumption | apply kept_wr | apply kept_ite | split)

theorem kept_readReport {z : State} (b : BootBlk) (area w : Nat) (repaired : Bool) (s : State) (h0 : Kept z s) : Kept z (readReport b area w repaired s) := by
  unfold readReport
  (try dsimp only)
  repeat' with_reducible (first | assumption | apply kept_wr | apply kept_store | apply kept_ite | split)

theorem kept_ldgReport {z : State} (op gen copy : Nat) (worked : Bool) (s : State) (h0 : Kept z s) : Kept z (ldgReport op gen copy worked s) := by
  unfold ldgReport
  (try dsimp only)
  repeat' with_reducible (first | assumption | apply kept_writeReport | apply kept_readReport | (simp only [kept_mk_eq]; apply kept_of) | apply kept_ite | split)

theorem kept_ldgBegin {z : State} (s : State) (h0 : Kept z s) : Kept z (ldgBegin s) := by
  unfold ldgBegin
  (try dsimp only)
  repeat' with_reducible (first | assumption | apply kept_freed | apply kept_unitBegin | (simp only [kept_mk_eq]; apply kept_of) | apply kept_ite | split)

theorem kept_ldgStart {z : State} (op : Nat) (v : Word) (s : State) (h0 : Kept z s) : Kept z (ldgStart op v s) := by
  unfold ldgStart
  (try dsimp only)
  repeat' with_reducible (first | assumption | apply kept_wr | apply kept_regWrite | apply kept_setFlc | apply kept_ldgBegin | (simp only [kept_mk_eq]; apply kept_of) | apply kept_ite | split)

theorem kept_execWrite {z : State} (f : Fn) (v : Word) (s : State) (h0 : Kept z s) : KeptO z (execWrite f v s) := by
  unfold execWrite
  (try dsimp only)
  repeat' with_reducible (first | assumption | apply keptO_next | apply keptO_ranged | apply keptO_fault | apply kept_p0Only | apply kept_ldgStart | apply kept_ite | split)

theorem kept_execRead {z : State} (f : Fn) (v : Word) (s : State) (h0 : Kept z s) : KeptO z (execRead f v s) := by
  unfold execRead
  (try dsimp only)
  repeat' with_reducible (first | assumption | apply keptO_next | apply keptO_ranged | apply keptO_fault | apply kept_p0Only | apply kept_ldgStart | apply kept_ite | split)

theorem kept_execResetGen {z : State} (f : Fn) (v : Word) (s : State) (h0 : Kept z s) : KeptO z (execResetGen f v s) := by
  unfold execResetGen
  (try dsimp only)
  repeat' with_reducible (first | assumption | apply keptO_next | apply keptO_ranged | apply keptO_fault | apply kept_p0Only | apply kept_ldgStart | apply kept_ite | split)

theorem kept_ldgWorked {z : State} (op : Nat) (w : UnitWork) (s : State) (h0 : Kept z s) : Kept z (ldgWorked op w s) := by
  unfold ldgWorked
  (try dsimp only)
  repeat' with_reducible (first | assumption | apply kept_flashNext | apply kept_unitClear | apply kept_unitNext | apply kept_ldgEnds | apply kept_ldgReport | (simp only [kept_mk_eq]; apply kept_of) | apply kept_ite | split)

theorem kept_ldgUnworked {z : State} (op : Nat) (s : State) (h0 : Kept z s) : Kept z (ldgUnworked op s) := by
  unfold ldgUnworked
  (try dsimp only)
  repeat' with_reducible (first | assumption | apply kept_ldgEnds | apply kept_ldgReport | apply kept_ldgBegin | (simp only [kept_mk_eq]; apply kept_of) | apply kept_ite | split)

theorem kept_ldgDone {z : State} (s : State) (h0 : Kept z s) : Kept z (ldgDone s) := by
  unfold ldgDone
  (try dsimp only)
  repeat' with_reducible (first | assumption | apply kept_ldgWorked | apply kept_ldgUnworked | (simp only [kept_mk_eq]; apply kept_of) | apply kept_ite | split)

theorem kept_execLdgDone {z : State} (s : State) (h0 : Kept z s) : KeptO z (execLdgDone s) := by
  unfold execLdgDone
  (try dsimp only)
  repeat' with_reducible (first | assumption | apply keptO_next | apply keptO_ranged | apply keptO_fault | apply kept_ldgDone | apply kept_ite | split)

theorem kept_fuseCut {z : State} (s : State) (h : Kept z s) : Kept z (fuseCut s) := by
  unfold fuseCut
  split
  · split
    · rename_i hc
      rw [Bool.and_eq_true] at hc
      exact kept_fuseBlow _ _ hc.1 (kept_freed _ h)
    · exact kept_freed _ h
  · exact h

theorem kept_radioGone {z : State} (s : State) (p : Nat × Ctx) (h0 : Kept z s) : Kept z (radioGone s p) := by
  unfold radioGone
  (try dsimp only)
  repeat' with_reducible (first | assumption | apply kept_complete | (simp only [kept_mk_eq]; apply kept_of) | apply kept_ite | split)

theorem kept_cancelGone {z : State} (s : State) (c : Cancel) (h0 : Kept z s) : Kept z (cancelGone s c) := by
  unfold cancelGone
  (try dsimp only)
  repeat' with_reducible (first | assumption | apply kept_complete | (simp only [kept_mk_eq]; apply kept_of) | apply kept_ite | split)

theorem kept_radioCommands {z : State} (s : State) (h0 : Kept z s) : Kept z (radioCommands s) := by
  unfold radioCommands
  (try dsimp only)
  repeat' with_reducible (first | assumption | apply kept_radioGone | apply kept_cancelGone | apply kept_foldl | (intro _; (try dsimp only)) | (simp only [kept_mk_eq]; apply kept_of) | apply kept_ite | split)

theorem coresWf_engineReset {z : State} (s : State) (h : Kept z s) : coresWf (engineReset s).cores = true := by
  have : ∀ (l : List Nat) (m : Sparse FCore), coresWf m = true →
      coresWf (l.foldl (fun m e => sset (fun _ => {}) m e { cycBase := s.clk.eng }) m) = true := by
    intro l
    induction l with
    | nil => exact fun _ hm => hm
    | cons c cs ih => exact fun m hm => ih _ (coresWf_sset m c _ hm rfl)
  exact this _ _ (coresWf_filter _ _ h.2.2.2.2.2)

theorem kept_radioClear {z : State} (s : State) (h : Kept z s) : Kept z (radioClear s) := by
  have h1 := kept_zeroMem 0x2000000 0x3000000 s h
  refine ⟨h1.1, filter_swf _ _ _ h1.2.1, h1.2.2.1, h1.2.2.2.1, h1.2.2.2.2.1, ?_⟩
  exact coresWf_engineReset s h

theorem kept_absorbKeys {z : State} (s : State) (r : PReset) (h0 : Kept z s) : Kept z (absorbKeys s r) := by
  unfold absorbKeys
  (try dsimp only)
  repeat' with_reducible (first | assumption | apply kept_eraseKeys | apply kept_ite | split)

theorem kept_radioReset {z : State} (s : State) (h0 : Kept z s) : Kept z (radioReset s) := by
  unfold radioReset
  (try dsimp only)
  repeat' with_reducible (first | assumption | apply kept_wr | apply kept_squashAll | apply kept_watchSettled | apply kept_setFlc | apply kept_imgBegin | apply kept_imgAbort | apply kept_radioCommands | apply kept_radioClear | apply kept_absorbKeys | apply kept_foldl | (intro _; (try dsimp only)) | (simp only [kept_mk_eq]; apply kept_of) | apply kept_ite | split)

theorem kept_execRadioReset {z : State} (f : Fn) (key : Nat) (s : State) (h0 : Kept z s) : KeptO z (execRadioReset f key s) := by
  unfold execRadioReset
  (try dsimp only)
  repeat' with_reducible (first | assumption | apply keptO_next | apply keptO_ranged | apply keptO_fault | apply kept_p0Only | apply kept_radioReset | apply kept_ite | split)

theorem kept_synUnlock {z : State} (s : State) (h0 : Kept z s) : Kept z (synUnlock s) := by
  unfold synUnlock
  (try dsimp only)
  repeat' with_reducible (first | assumption | apply kept_wr | apply kept_inc | apply kept_raise | apply kept_setClk | apply kept_stopTb | apply kept_radioReset | (simp only [kept_mk_eq]; apply kept_of) | apply kept_ite | split)

theorem kept_execSynUnlock {z : State} (s : State) (h0 : Kept z s) : KeptO z (execSynUnlock s) := by
  unfold execSynUnlock
  (try dsimp only)
  repeat' with_reducible (first | assumption | apply keptO_next | apply keptO_ranged | apply keptO_fault | apply kept_synUnlock | apply kept_ite | split)

theorem kept_chipReset {z : State} (cause : Nat) (s0 : State) (h0 : Kept z s0) : Kept z (chipReset cause s0) := by
  have h := kept_fuseCut s0 h0
  unfold chipReset
  dsimp only
  generalize fuseCut s0 = s at h
  apply kept_wr
  apply kept_wr
  apply kept_wr
  apply kept_wr
  apply kept_wr
  apply kept_flashReset
  apply kept_fuseViews
  exact ⟨h.1, filter_swf _ _ _ h.2.1, rfl, filter_swf _ _ _ h.2.2.2.1, h.2.2.2.2.1, rfl⟩

theorem kept_execPowerOn {z : State} (ordered : Bool) (s : State) (h0 : Kept z s) : KeptO z (execPowerOn ordered s) := by
  unfold execPowerOn
  (try dsimp only)
  repeat' with_reducible (first | assumption | apply keptO_next | apply keptO_ranged | apply keptO_fault | apply kept_chipReset | (simp only [kept_mk_eq]; apply kept_of) | apply kept_ite | split)

theorem kept_execResetNLow {z : State} (ns : Nat) (s : State) (h0 : Kept z s) : KeptO z (execResetNLow ns s) := by
  unfold execResetNLow
  (try dsimp only)
  repeat' with_reducible (first | assumption | apply keptO_next | apply keptO_ranged | apply keptO_fault | apply kept_freed | apply kept_chipReset | apply kept_ite | split)

theorem kept_execBrownOut {z : State} (good deep : Bool) (s : State) (h0 : Kept z s) : KeptO z (execBrownOut good deep s) := by
  unfold execBrownOut
  (try dsimp only)
  repeat' with_reducible (first | assumption | apply keptO_next | apply keptO_ranged | apply keptO_fault | apply kept_alarm | apply kept_chipReset | (simp only [kept_mk_eq]; apply kept_of) | apply kept_ite | split)

theorem kept_execAonReset {z : State} (s0 : State) (h0 : Kept z s0) : KeptO z (execAonReset s0) := by
  have h := kept_fuseCut s0 h0
  unfold execAonReset
  dsimp only
  generalize fuseCut s0 = s at h
  apply keptO_next
  apply kept_flashReset
  apply kept_fuseViews
  exact ⟨h.1, rfl, rfl, rfl, h.2.2.2.2.1, rfl⟩

theorem kept_execFullReset {z : State} (f : Fn) (key : Nat) (s : State) (h0 : Kept z s) : KeptO z (execFullReset f key s) := by
  unfold execFullReset
  (try dsimp only)
  repeat' with_reducible (first | assumption | apply keptO_next | apply keptO_ranged | apply keptO_fault | apply kept_p0Only | apply kept_chipReset | apply kept_ite | split)

theorem kept_hostReset {z : State} (s : State) (h : Kept z s) : Kept z (hostReset s) := by
  have ht : Kept z ((List.range 64).foldl (fun u p => portsReset p false u) s) := kept_foldl _ _ _ h (fun u x hu => kept_portsReset _ _ _ hu)
  unfold hostReset
  dsimp only
  generalize (List.range 64).foldl (fun u p => portsReset p false u) s = t at ht
  refine kept_foldl _ _ _ ?_ (fun u x hu => kept_wr _ _ _ hu)
  exact ⟨ht.1, filter_swf _ _ _ ht.2.1, filter_swf _ _ _ ht.2.2.1, ht.2.2.2⟩

theorem kept_execHostReset {z : State} (s : State) (h0 : Kept z s) : KeptO z (execHostReset s) := by
  unfold execHostReset
  (try dsimp only)
  repeat' with_reducible (first | assumption | apply keptO_next | apply keptO_ranged | apply keptO_fault | apply kept_hostReset | apply kept_ite | split)

theorem kept_vfFlr {z : State} (n : Nat) (s : State) (h : Kept z s) : Kept z (vfFlr n s) := by
  unfold vfFlr
  apply kept_ite _ h
  have ht := kept_portsReset n false s h
  simp only [kept_mk_eq]
  exact ⟨ht.1, ht.2.1, filter_swf _ _ _ ht.2.2.1, ht.2.2.2⟩

theorem kept_execVfFlr {z : State} (n : Nat) (s : State) (h0 : Kept z s) : KeptO z (execVfFlr n s) := by
  unfold execVfFlr
  (try dsimp only)
  repeat' with_reducible (first | assumption | apply keptO_next | apply keptO_ranged | apply keptO_fault | apply kept_ranged | apply kept_vfFlr | apply kept_ite | split)

theorem kept_setStart {z : State} (s : State) (x : Start) (h0 : Kept z s) : Kept z (State.setStart s x) := by
  unfold State.setStart
  (try dsimp only)
  repeat' with_reducible (first | assumption | (simp only [kept_mk_eq]; apply kept_of) | apply kept_ite | split)

theorem kept_closeRecord {z : State} (s : State) (h0 : Kept z s) : Kept z (closeRecord s) := by
  unfold closeRecord
  (try dsimp only)
  repeat' with_reducible (first | assumption | apply kept_wr | apply kept_setStart | (simp only [kept_mk_eq]; apply kept_of) | apply kept_ite | split)

theorem kept_openRecord {z : State} (s : State) (h0 : Kept z s) : Kept z (openRecord s) := by
  unfold openRecord
  (try dsimp only)
  repeat' with_reducible (first | assumption | apply kept_setReg | apply kept_wr | apply kept_setStart | apply kept_foldl | (intro _; (try dsimp only)) | (simp only [kept_mk_eq]; apply kept_of) | apply kept_ite | split)

theorem kept_seedlingSummary {z : State} (cause : Nat) (s : State) (h0 : Kept z s) : Kept z (seedlingSummary cause s) := by
  unfold seedlingSummary
  (try dsimp only)
  repeat' with_reducible (first | assumption | apply kept_wr | apply kept_foldl | (intro _; (try dsimp only)) | (simp only [kept_mk_eq]; apply kept_of) | apply kept_ite | split)

theorem kept_supZero {z : State} (pc : Nat) (s : State) (h0 : Kept z s) : Kept z (supZero pc s) := by
  unfold supZero
  (try dsimp only)
  repeat' with_reducible (first | assumption | apply kept_setPc | apply kept_supRun | apply kept_ite | split)

theorem kept_noVfs {z : State} (s : State) (h0 : Kept z s) : Kept z (noVfs s) := by
  unfold noVfs
  (try dsimp only)
  repeat' with_reducible (first | assumption | (simp only [kept_mk_eq]; apply kept_of) | apply kept_ite | split)

theorem kept_synStopped {z : State} (s : State) (h0 : Kept z s) : Kept z (synStopped s) := by
  unfold synStopped
  (try dsimp only)
  repeat' with_reducible (first | assumption | apply kept_wr | apply kept_setClk | apply kept_stopTb | (simp only [kept_mk_eq]; apply kept_of) | apply kept_ite | split)

theorem kept_seedling {z : State} (cause : Nat) (s : State) (h0 : Kept z s) : Kept z (seedling cause s) := by
  unfold seedling
  (try dsimp only)
  repeat' with_reducible (first | assumption | apply kept_wr | apply kept_freed | apply kept_setStart | apply kept_seedlingSummary | apply kept_supZero | apply kept_noVfs | apply kept_synStopped | (simp only [kept_mk_eq]; apply kept_of) | apply kept_ite | split)

theorem kept_deriveWrap {z : State} (s : State) (h0 : Kept z s) : Kept z (deriveWrap s) := by
  unfold deriveWrap
  (try dsimp only)
  repeat' with_reducible (first | assumption | apply kept_setLslot | apply kept_ite | split)

theorem kept_bootWork {z : State} (slot : Nat) (b : BootBlk) (s : State) (h0 : Kept z s) : Kept z (bootWork slot b s) := by
  unfold bootWork
  (try dsimp only)
  repeat' with_reducible (first | assumption | apply kept_unitBegin | apply kept_ite | split)

theorem kept_bootFell {z : State} (w : UnitWork) (s : State) (h0 : Kept z s) : Kept z (bootFell w s) := by
  unfold bootFell
  (try dsimp only)
  repeat' with_reducible (first | assumption | apply kept_setBoot | (simp only [kept_mk_eq]; apply kept_of) | apply kept_ite | split)

theorem kept_bootGo {z : State} (s : State) (h0 : Kept z s) : Kept z (bootGo s) := by
  unfold bootGo
  (try dsimp only)
  repeat' with_reducible (first | assumption | apply kept_setStage | apply kept_unitClear | apply kept_supZero | apply kept_bootFell | (simp only [kept_mk_eq]; apply kept_of) | apply kept_ite | split)

theorem kept_bootDone {z : State} (slot : Nat) (s : State) (h0 : Kept z s) : Kept z (bootDone slot s) := by
  unfold bootDone
  (try dsimp only)
  repeat' with_reducible (first | assumption | apply kept_wr | apply kept_setStage | apply kept_setStart | apply kept_supZero | apply kept_bootWork | apply kept_bootGo | (simp only [kept_mk_eq]; apply kept_of) | apply kept_ite | split)

theorem kept_keepResume {z : State} (s : State) (h0 : Kept z s) : Kept z (keepResume s) := by
  unfold keepResume
  (try dsimp only)
  repeat' with_reducible (first | assumption | (simp only [kept_mk_eq]; apply kept_of) | apply kept_ite | split)

theorem kept_beginSlot {z : State} (b : BootBlk) (slot : Nat) (locks : Bool) (s : State) (h0 : Kept z s) : Kept z (beginSlot b slot locks s) := by
  unfold beginSlot
  (try dsimp only)
  repeat' with_reducible (first | assumption | apply kept_wr | apply kept_setStage | apply kept_imgBegin | apply kept_ite | split)

theorem kept_noImage {z : State} (s : State) (h0 : Kept z s) : Kept z (noImage s) := by
  unfold noImage
  (try dsimp only)
  repeat' with_reducible (first | assumption | apply kept_wr | apply kept_setReason | apply kept_seedling | apply kept_ite | split)

theorem kept_secondSlot {z : State} (b : BootBlk) (slot : Nat) (locks : Bool) (s : State) (h0 : Kept z s) : Kept z (secondSlot b slot locks s) := by
  unfold secondSlot
  (try dsimp only)
  repeat' with_reducible (first | assumption | apply kept_setStart | apply kept_beginSlot | apply kept_noImage | (simp only [kept_mk_eq]; apply kept_of) | apply kept_ite | split)

theorem kept_firstSlot {z : State} (b : BootBlk) (slot : Nat) (locks1 locks2 : Bool) (s : State) (h0 : Kept z s) : Kept z (firstSlot b slot locks1 locks2 s) := by
  unfold firstSlot
  (try dsimp only)
  repeat' with_reducible (first | assumption | apply kept_setStart | apply kept_beginSlot | apply kept_secondSlot | (simp only [kept_mk_eq]; apply kept_of) | apply kept_ite | split)

theorem kept_armWatchdog {z : State} (b : BootBlk) (s : State) (h0 : Kept z s) : Kept z (armWatchdog b s) := by
  unfold armWatchdog
  (try dsimp only)
  repeat' with_reducible (first | assumption | apply kept_setStart | (simp only [kept_mk_eq]; apply kept_of) | apply kept_ite | split)

theorem kept_bootFrom {z : State} (locks1 locks2 : Bool) (s0 : State) (h0 : Kept z s0) : Kept z (bootFrom locks1 locks2 s0) := by
  unfold bootFrom
  (try dsimp only)
  repeat' with_reducible (first | assumption | apply kept_inc | apply kept_setStage | apply kept_setBoot | apply kept_closeRecord | apply kept_openRecord | apply kept_seedling | apply kept_firstSlot | apply kept_armWatchdog | (simp only [kept_mk_eq]; apply kept_of) | apply kept_ite | split)

theorem kept_boot {z : State} (locks1 locks2 : Bool) (s : State) (h0 : Kept z s) : Kept z (boot locks1 locks2 s) := by
  unfold boot
  (try dsimp only)
  repeat' with_reducible (first | assumption | apply kept_setStart | apply kept_deriveWrap | apply kept_bootFrom | (simp only [kept_mk_eq]; apply kept_of) | apply kept_ite | split)

theorem kept_execBoot {z : State} (locks1 locks2 : Bool) (s : State) (h0 : Kept z s) : KeptO z (execBoot locks1 locks2 s) := by
  unfold execBoot
  (try dsimp only)
  repeat' with_reducible (first | assumption | apply keptO_next | apply keptO_ranged | apply keptO_fault | apply kept_boot | apply kept_ite | split)

theorem kept_bootNext {z : State} (s : State) (h0 : Kept z s) : Kept z (bootNext s) := by
  unfold bootNext
  (try dsimp only)
  repeat' with_reducible (first | assumption | apply kept_setStart | apply kept_bootDone | apply kept_keepResume | apply kept_noImage | apply kept_secondSlot | (simp only [kept_mk_eq]; apply kept_of) | apply kept_ite | split)

theorem kept_resumeNext {z : State} (s : State) (h0 : Kept z s) : Kept z (resumeNext s) := by
  unfold resumeNext
  (try dsimp only)
  repeat' with_reducible (first | assumption | apply kept_wr | apply kept_raise | apply kept_zeroMem | apply kept_setStart | apply kept_supZero | apply kept_deriveWrap | (simp only [kept_mk_eq]; apply kept_of) | apply kept_ite | split)

theorem kept_execLoadDone {z : State} (s : State) (h0 : Kept z s) : KeptO z (execLoadDone s) := by
  unfold execLoadDone
  (try dsimp only)
  repeat' with_reducible (first | assumption | apply keptO_next | apply keptO_ranged | apply keptO_fault | apply kept_loadDone | apply kept_bootNext | apply kept_resumeNext | apply kept_ite | split)

theorem kept_execOpDone {z : State} (fail spares : List Nat) (s : State) (h0 : Kept z s) : KeptO z (execOpDone fail spares s) := by
  unfold execOpDone
  (try dsimp only)
  repeat' with_reducible (first | assumption | apply keptO_next | apply keptO_ranged | apply keptO_fault | apply kept_opDone | apply kept_bootGo | apply kept_ite | split)

theorem kept_execSupplyRecovery {z : State} (s : State) (h0 : Kept z s) : KeptO z (execSupplyRecovery s) := by
  unfold execSupplyRecovery
  (try dsimp only)
  repeat' with_reducible (first | assumption | apply keptO_next | apply keptO_ranged | apply keptO_fault | apply kept_supplyBack | apply kept_bootGo | apply kept_ite | split)

theorem kept_execStartWatchdogExpiry {z : State} (s : State) (h0 : Kept z s) : KeptO z (execStartWatchdogExpiry s) := by
  unfold execStartWatchdogExpiry
  (try dsimp only)
  repeat' with_reducible (first | assumption | apply keptO_next | apply keptO_ranged | apply keptO_fault | apply kept_setReason | apply kept_elapseXk | apply kept_chipReset | (simp only [kept_mk_eq]; apply kept_of) | apply kept_ite | split)

theorem kept_driverOk {z : State} (s : State) (h0 : Kept z s) : Kept z (driverOk s) := by
  unfold driverOk
  (try dsimp only)
  repeat' with_reducible (first | assumption | apply kept_wr | apply kept_setStart | (simp only [kept_mk_eq]; apply kept_of) | apply kept_ite | split)

theorem kept_execDriverOk {z : State} (f : Fn) (s : State) (h0 : Kept z s) : KeptO z (execDriverOk f s) := by
  unfold execDriverOk
  (try dsimp only)
  repeat' with_reducible (first | assumption | apply keptO_next | apply keptO_ranged | apply keptO_fault | apply kept_p0Only | apply kept_driverOk | apply kept_ite | split)

theorem kept_pulseCapture {z : State} (ch : Nat) (s : State) (h0 : Kept z s) : Kept z (pulseCapture ch s) := by
  unfold pulseCapture
  (try dsimp only)
  repeat' with_reducible (first | assumption | (simp only [kept_mk_eq]; apply kept_of) | apply kept_ite | split)

theorem kept_pulseTimer {z : State} (ch : Nat) (s : State) (k : Nat) (h0 : Kept z s) : Kept z (pulseTimer ch s k) := by
  unfold pulseTimer
  (try dsimp only)
  repeat' with_reducible (first | assumption | apply kept_wr | apply kept_wr64 | apply kept_ite | split)

theorem kept_pulseCore {z : State} (ch : Nat) (s : State) (c : Nat) (h0 : Kept z s) : Kept z (pulseCore ch s c) := by
  unfold pulseCore
  (try dsimp only)
  repeat' with_reducible (first | assumption | apply kept_setSys | apply kept_ite | split)

theorem kept_pulseIrq {z : State} (ch n : Nat) (s : State) (i : Nat) (h0 : Kept z s) : Kept z (pulseIrq ch n s i) := by
  unfold pulseIrq
  (try dsimp only)
  repeat' with_reducible (first | assumption | apply kept_setSys | apply kept_ite | split)

theorem kept_pulseChain {z : State} (ch : Nat) (s : State) (n : Nat) (h0 : Kept z s) : Kept z (pulseChain ch s n) := by
  unfold pulseChain
  (try dsimp only)
  repeat' with_reducible (first | assumption | (simp only [kept_mk_eq]; apply kept_of) | apply kept_ite | split)

theorem kept_pulsePin {z : State} (ch : Nat) (s : State) (p : Nat) (h0 : Kept z s) : Kept z (pulsePin ch s p) := by
  unfold pulsePin
  (try dsimp only)
  repeat' with_reducible (first | assumption | apply kept_wr | (simp only [kept_mk_eq]; apply kept_of) | apply kept_ite | split)

theorem kept_pulseWake {z : State} (ch : Nat) (s : State) (h0 : Kept z s) : Kept z (pulseWake ch s) := by
  unfold pulseWake
  (try dsimp only)
  repeat' with_reducible (first | assumption | apply kept_wakeFire | apply kept_ite | split)

theorem kept_deliverPulse {z : State} (ch : Nat) (s : State) (h0 : Kept z s) : Kept z (deliverPulse ch s) := by
  unfold deliverPulse
  (try dsimp only)
  repeat' with_reducible (first | assumption | apply kept_wr | apply kept_inc | apply kept_raise | apply kept_pulseCapture | apply kept_pulseTimer | apply kept_pulseCore | apply kept_pulseIrq | apply kept_pulseChain | apply kept_pulsePin | apply kept_pulseWake | apply kept_foldl | (intro _; (try dsimp only)) | apply kept_ite | split)

theorem kept_execEventPulse {z : State} (ch ph : Nat) (s : State) (h0 : Kept z s) : KeptO z (execEventPulse ch ph s) := by
  unfold execEventPulse
  (try dsimp only)
  repeat' with_reducible (first | assumption | apply keptO_next | apply keptO_ranged | apply keptO_fault | apply kept_ranged | apply kept_wr | apply kept_raise | apply kept_deliverPulse | (simp only [kept_mk_eq]; apply kept_of) | apply kept_ite | split)

theorem kept_execEvrFire {z : State} (f : Fn) (ch : Nat) (s : State) (h0 : Kept z s) : KeptO z (execEvrFire f ch s) := by
  unfold execEvrFire
  (try dsimp only)
  repeat' with_reducible (first | assumption | apply keptO_next | apply keptO_ranged | apply keptO_fault | apply kept_ranged | apply kept_pulse | apply kept_p0Only | apply kept_ite | split)

theorem kept_execEvrCntClr {z : State} (f : Fn) (s : State) (h0 : Kept z s) : KeptO z (execEvrCntClr f s) := by
  unfold execEvrCntClr
  (try dsimp only)
  repeat' with_reducible (first | assumption | apply keptO_next | apply keptO_ranged | apply keptO_fault | apply kept_zero | apply kept_p0Only | apply kept_ite | split)

theorem kept_channelCfg {z : State} (ch : Nat) (v : Word) (s : State) (h0 : Kept z s) : Kept z (channelCfg ch v s) := by
  unfold channelCfg
  (try dsimp only)
  repeat' with_reducible (first | assumption | apply kept_regWrite | apply kept_ite | split)

theorem kept_execChannelCfgWrite {z : State} (f : Fn) (ch : Nat) (v : Word) (s : State) (h0 : Kept z s) : KeptO z (execChannelCfgWrite f ch v s) := by
  unfold execChannelCfgWrite
  (try dsimp only)
  repeat' with_reducible (first | assumption | apply keptO_next | apply keptO_ranged | apply keptO_fault | apply kept_ranged | apply kept_p0Only | apply kept_channelCfg | apply kept_ite | split)

theorem kept_execGpioEdge {z : State} (p : Nat) (lvl : Bool) (s : State) (h0 : Kept z s) : KeptO z (execGpioEdge p lvl s) := by
  unfold execGpioEdge
  (try dsimp only)
  repeat' with_reducible (first | assumption | apply keptO_next | apply keptO_ranged | apply keptO_fault | apply kept_ranged | apply kept_wr | apply kept_pulse | apply kept_ite | split)

theorem kept_execGpioSet {z : State} (f : Fn) (v : Word) (s : State) (h0 : Kept z s) : KeptO z (execGpioSet f v s) := by
  unfold execGpioSet
  (try dsimp only)
  repeat' with_reducible (first | assumption | apply keptO_next | apply keptO_ranged | apply keptO_fault | apply kept_wr | apply kept_p0Only | apply kept_ite | split)

theorem kept_execGpioClr {z : State} (f : Fn) (v : Word) (s : State) (h0 : Kept z s) : KeptO z (execGpioClr f v s) := by
  unfold execGpioClr
  (try dsimp only)
  repeat' with_reducible (first | assumption | apply keptO_next | apply keptO_ranged | apply keptO_fault | apply kept_wr | apply kept_p0Only | apply kept_ite | split)

theorem kept_twaPut {z : State} (p : Nat) (v : Word) (s : State) (h0 : Kept z s) : Kept z (twaPut p v s) := by
  unfold twaPut
  (try dsimp only)
  repeat' with_reducible (first | assumption | apply kept_setReg | apply kept_raise | apply kept_ite | split)

theorem kept_twaPartial {z : State} (held : List (Nat × Byte)) (s : State) (h0 : Kept z s) : Kept z (twaPartial held s) := by
  unfold twaPartial
  (try dsimp only)
  repeat' with_reducible (first | assumption | apply kept_inc | apply kept_raise | apply kept_ite | split)

theorem kept_twaBytes {z : State} : ∀ (l : List Byte) (p : Nat) (held : List (Nat × Byte)) (s : State), Kept z s → Kept z (twaBytes l p held s)
  | [], _, _, s, h => by
    unfold twaBytes
    repeat' with_reducible (first | assumption | apply kept_wr | apply kept_twaPartial)
  | b :: bs, p, held, s, h => by
    unfold twaBytes
    dsimp only
    repeat' with_reducible (first | assumption | apply kept_twaBytes | apply kept_twaPut | apply kept_freed | apply kept_post | apply kept_wr | apply kept_twaPartial | split)

theorem kept_twaFetch {z : State} (p : Nat) (s : State) (h0 : Kept z s) : Kept z (twaFetch p s) := by
  unfold twaFetch
  (try dsimp only)
  repeat' with_reducible (first | assumption | (simp only [kept_mk_eq]; apply kept_of) | apply kept_ite | split)

theorem kept_execTwaWrite {z : State} (addr : Nat) (d : List Byte) (s : State) (h0 : Kept z s) : KeptO z (execTwaWrite addr d s) := by
  unfold execTwaWrite
  (try dsimp only)
  repeat' with_reducible (first | assumption | apply keptO_next | apply keptO_ranged | apply keptO_fault | apply kept_inc | apply kept_post | apply kept_twaBytes | apply kept_twaFetch | (simp only [kept_mk_eq]; apply kept_of) | apply kept_ite | split)

theorem kept_twaSend {z : State} : ∀ (n p : Nat) (s : State), Kept z s → Kept z (twaSend n p s)
  | 0, _, _, h => kept_wr _ _ _ h
  | n + 1, p, s, h => by
    unfold twaSend
    dsimp only
    refine kept_twaSend n _ _ ?_
    exact kept_post _ _ h

theorem kept_execTwaRead {z : State} (addr n : Nat) (ready : Bool) (s : State) (h0 : Kept z s) : KeptO z (execTwaRead addr n ready s) := by
  unfold execTwaRead
  (try dsimp only)
  repeat' with_reducible (first | assumption | apply keptO_next | apply keptO_ranged | apply keptO_fault | apply kept_inc | apply kept_post | apply kept_raise | apply kept_ready | apply kept_twaSend | apply kept_ite | split)

theorem kept_execTwaTimeout {z : State} (s : State) (h0 : Kept z s) : KeptO z (execTwaTimeout s) := by
  unfold execTwaTimeout
  (try dsimp only)
  repeat' with_reducible (first | assumption | apply keptO_next | apply keptO_ranged | apply keptO_fault | apply kept_inc | apply kept_raise | apply kept_ite | split)

theorem kept_twbStart {z : State} (v : Word) (s : State) (h0 : Kept z s) : Kept z (twbStart v s) := by
  unfold twbStart
  (try dsimp only)
  repeat' with_reducible (first | assumption | apply kept_wr | apply kept_inc | apply kept_regWrite | apply kept_ite | split)

theorem kept_execStart {z : State} (f : Fn) (v : Word) (s : State) (h0 : Kept z s) : KeptO z (execStart f v s) := by
  unfold execStart
  (try dsimp only)
  repeat' with_reducible (first | assumption | apply keptO_next | apply keptO_ranged | apply keptO_fault | apply kept_p0Only | apply kept_twbStart | apply kept_ite | split)

theorem kept_twbEnd {z : State} (status done tries : Nat) (s : State) (h0 : Kept z s) : Kept z (twbEnd status done tries s) := by
  unfold twbEnd
  (try dsimp only)
  repeat' with_reducible (first | assumption | apply kept_wr | apply kept_inc | apply kept_raise | apply kept_status | apply kept_ite | split)

theorem kept_twbRx {z : State} : ∀ (l : List Byte) (k : Nat) (s : State), Kept z s → Kept z (twbRx l k s)
  | [], _, _, h => h
  | b :: bs, k, s, h => kept_twbRx bs (k + 1) _ (kept_wr _ _ _ h)

theorem kept_twbDone {z : State} (r : TwbTarget) (s : State) (h0 : Kept z s) : Kept z (twbDone r s) := by
  unfold twbDone
  (try dsimp only)
  repeat' with_reducible (first | assumption | apply kept_post | apply kept_twbEnd | apply kept_twbRx | apply kept_ite | split)

theorem kept_execTwbDone {z : State} (r : TwbTarget) (s : State) (h0 : Kept z s) : KeptO z (execTwbDone r s) := by
  unfold execTwbDone
  (try dsimp only)
  repeat' with_reducible (first | assumption | apply keptO_next | apply keptO_ranged | apply keptO_fault | apply kept_twbDone | apply kept_ite | split)

theorem kept_stretchTimeout {z : State} (low : Bool) (s : State) (h0 : Kept z s) : Kept z (stretchTimeout low s) := by
  unfold stretchTimeout
  (try dsimp only)
  repeat' with_reducible (first | assumption | apply kept_wr | apply kept_freed | apply kept_raise | apply kept_twbEnd | apply kept_ite | split)

theorem kept_execStretchTimeout {z : State} (low : Bool) (s : State) (h0 : Kept z s) : KeptO z (execStretchTimeout low s) := by
  unfold execStretchTimeout
  (try dsimp only)
  repeat' with_reducible (first | assumption | apply keptO_next | apply keptO_ranged | apply keptO_fault | apply kept_stretchTimeout | apply kept_ite | split)

theorem kept_execBusRecovery {z : State} (s : State) (h0 : Kept z s) : KeptO z (execBusRecovery s) := by
  unfold execBusRecovery
  (try dsimp only)
  repeat' with_reducible (first | assumption | apply keptO_next | apply keptO_ranged | apply keptO_fault | apply kept_wr | apply kept_ite | split)

theorem kept_setGate {z : State} (n : Nat) (x : Gate) (s : State) (h0 : Kept z s) : Kept z (setGate n x s) := by
  unfold setGate
  (try dsimp only)
  repeat' with_reducible (first | assumption | (simp only [kept_mk_eq]; apply kept_of) | apply kept_ite | split)

theorem kept_execBiasOn {z : State} (f : Fn) (n : Nat) (s : State) (h0 : Kept z s) : KeptO z (execBiasOn f n s) := by
  unfold execBiasOn
  (try dsimp only)
  repeat' with_reducible (first | assumption | apply keptO_next | apply keptO_ranged | apply keptO_fault | apply kept_ranged | apply kept_wr | apply kept_p0Only | apply kept_askLeave | apply kept_ite | split)

theorem kept_biasRamp {z : State} (n : Nat) (s : State) (h0 : Kept z s) : Kept z (biasRamp n s) := by
  unfold biasRamp
  (try dsimp only)
  repeat' with_reducible (first | assumption | apply kept_wr | apply kept_addTaint | apply kept_setGate | apply kept_foldl | (intro _; (try dsimp only)) | (simp only [kept_mk_eq]; apply kept_of) | apply kept_ite | split)

theorem kept_execRampDone {z : State} (n : Nat) (s0 : State) (h0 : Kept z s0) : KeptO z (execRampDone n s0) := by
  unfold execRampDone
  (try dsimp only)
  repeat' with_reducible (first | assumption | apply keptO_next | apply keptO_ranged | apply keptO_fault | apply kept_ranged | apply kept_wr | apply kept_raise | apply kept_elapse | apply kept_returnLeave | apply kept_ite | split)

theorem kept_cutTaint {z : State} (n b lo hi : Nat) (s : State) (h0 : Kept z s) : Kept z (cutTaint n b lo hi s) := by
  unfold cutTaint
  (try dsimp only)
  repeat' with_reducible (first | assumption | (simp only [kept_mk_eq]; apply kept_of) | apply kept_ite | split)

theorem kept_gateOff {z : State} (n : Nat) (s : State) (h0 : Kept z s) : Kept z (gateOff n s) := by
  unfold gateOff
  (try dsimp only)
  repeat' with_reducible (first | assumption | apply kept_returnLeave | apply kept_stepTaint | apply kept_setGate | apply kept_cutTaint | apply kept_foldl | (intro _; (try dsimp only)) | (simp only [kept_mk_eq]; apply kept_of) | apply kept_ite | split)

theorem kept_execBiasOff {z : State} (f : Fn) (n : Nat) (s : State) (h0 : Kept z s) : KeptO z (execBiasOff f n s) := by
  unfold execBiasOff
  (try dsimp only)
  repeat' with_reducible (first | assumption | apply keptO_next | apply keptO_ranged | apply keptO_fault | apply kept_ranged | apply kept_wr | apply kept_p0Only | apply kept_gateOff | apply kept_ite | split)

theorem kept_execBiasTrip {z : State} (n : Nat) (s : State) (h0 : Kept z s) : KeptO z (execBiasTrip n s) := by
  unfold execBiasTrip
  (try dsimp only)
  repeat' with_reducible (first | assumption | apply keptO_next | apply keptO_ranged | apply keptO_fault | apply kept_ranged | apply kept_wr | apply kept_inc | apply kept_raise | apply kept_setGate | apply kept_gateOff | (simp only [kept_mk_eq]; apply kept_of) | apply kept_ite | split)

theorem kept_execBiasFaultClr {z : State} (f : Fn) (n : Nat) (s : State) (h0 : Kept z s) : KeptO z (execBiasFaultClr f n s) := by
  unfold execBiasFaultClr
  (try dsimp only)
  repeat' with_reducible (first | assumption | apply keptO_next | apply keptO_ranged | apply keptO_fault | apply kept_ranged | apply kept_wr | apply kept_p0Only | apply kept_ite | split)

theorem kept_execHoldoffEnd {z : State} (n : Nat) (s0 : State) (h0 : Kept z s0) : KeptO z (execHoldoffEnd n s0) := by
  unfold execHoldoffEnd
  (try dsimp only)
  repeat' with_reducible (first | assumption | apply keptO_next | apply keptO_ranged | apply keptO_fault | apply kept_ranged | apply kept_wr | apply kept_elapseXk | apply kept_ite | split)

theorem kept_biasSample {z : State} (n ma : Nat) (s : State) (h0 : Kept z s) : Kept z (biasSample n ma s) := by
  unfold biasSample
  (try dsimp only)
  repeat' with_reducible (first | assumption | apply kept_wr | apply kept_raise | apply kept_setGate | (simp only [kept_mk_eq]; apply kept_of) | apply kept_ite | split)

theorem kept_execBiasCurrentSample {z : State} (n ma : Nat) (s : State) (h0 : Kept z s) : KeptO z (execBiasCurrentSample n ma s) := by
  unfold execBiasCurrentSample
  (try dsimp only)
  repeat' with_reducible (first | assumption | apply keptO_next | apply keptO_ranged | apply keptO_fault | apply kept_ranged | apply kept_biasSample | apply kept_ite | split)

theorem kept_setPwr {z : State} (s : State) (x : Pwr) (h0 : Kept z s) : Kept z (State.setPwr s x) := by
  unfold State.setPwr
  (try dsimp only)
  repeat' with_reducible (first | assumption | (simp only [kept_mk_eq]; apply kept_of) | apply kept_ite | split)

theorem kept_pwrWait {z : State} (k : Nat) (s : State) (h0 : Kept z s) : Kept z (pwrWait k s) := by
  unfold pwrWait
  (try dsimp only)
  repeat' with_reducible (first | assumption | apply kept_wr | apply kept_watchSettled | apply kept_setPwr | (simp only [kept_mk_eq]; apply kept_of) | apply kept_ite | split)

theorem kept_pwrCmd {z : State} (k : Nat) (s : State) (h0 : Kept z s) : Kept z (pwrCmd k s) := by
  unfold pwrCmd
  (try dsimp only)
  repeat' with_reducible (first | assumption | apply kept_wr | apply kept_enterState | apply kept_pwrEnd | apply kept_wakeFire | apply kept_pwrWait | apply kept_ite | split)

theorem kept_execRun {z : State} (f : Fn) (s : State) (h0 : Kept z s) : KeptO z (execRun f s) := by
  unfold execRun
  (try dsimp only)
  repeat' with_reducible (first | assumption | apply keptO_next | apply keptO_ranged | apply keptO_fault | apply kept_p0Only | apply kept_pwrCmd | apply kept_ite | split)

theorem kept_execTrim {z : State} (f : Fn) (s : State) (h0 : Kept z s) : KeptO z (execTrim f s) := by
  unfold execTrim
  (try dsimp only)
  repeat' with_reducible (first | assumption | apply keptO_next | apply keptO_ranged | apply keptO_fault | apply kept_p0Only | apply kept_pwrCmd | apply kept_ite | split)

theorem kept_execWatch {z : State} (f : Fn) (s : State) (h0 : Kept z s) : KeptO z (execWatch f s) := by
  unfold execWatch
  (try dsimp only)
  repeat' with_reducible (first | assumption | apply keptO_next | apply keptO_ranged | apply keptO_fault | apply kept_p0Only | apply kept_pwrCmd | apply kept_ite | split)

theorem kept_execDormant {z : State} (f : Fn) (s : State) (h0 : Kept z s) : KeptO z (execDormant f s) := by
  unfold execDormant
  (try dsimp only)
  repeat' with_reducible (first | assumption | apply keptO_next | apply keptO_ranged | apply keptO_fault | apply kept_p0Only | apply kept_pwrCmd | apply kept_ite | split)

theorem kept_execQuiescenceTimeout {z : State} (s : State) (h0 : Kept z s) : KeptO z (execQuiescenceTimeout s) := by
  unfold execQuiescenceTimeout
  (try dsimp only)
  repeat' with_reducible (first | assumption | apply keptO_next | apply keptO_ranged | apply keptO_fault | apply kept_elapse | apply kept_pwrGiveUp | apply kept_ite | split)

theorem kept_gatesOff {z : State} (s : State) (h0 : Kept z s) : Kept z (gatesOff s) := by
  unfold gatesOff
  (try dsimp only)
  repeat' with_reducible (first | assumption | apply kept_wr | apply kept_gateOff | apply kept_foldl | (intro _; (try dsimp only)) | apply kept_ite | split)

theorem kept_enterDormant {z : State} (s : State) (h0 : Kept z s) : Kept z (enterDormant s) := by
  unfold enterDormant
  (try dsimp only)
  repeat' with_reducible (first | assumption | apply kept_wr | apply kept_stopTb | apply kept_setPwr | apply kept_gatesOff | apply kept_foldl | (intro _; (try dsimp only)) | (simp only [kept_mk_eq]; apply kept_of) | apply kept_ite | split)

theorem kept_linkL2Ready {z : State} (s : State) (h0 : Kept z s) : Kept z (linkL2Ready s) := by
  unfold linkL2Ready
  (try dsimp only)
  repeat' with_reducible (first | assumption | apply kept_pwrGiveUp | apply kept_enterDormant | apply kept_ite | split)

theorem kept_execLinkL2Ready {z : State} (s : State) (h0 : Kept z s) : KeptO z (execLinkL2Ready s) := by
  unfold execLinkL2Ready
  (try dsimp only)
  repeat' with_reducible (first | assumption | apply keptO_next | apply keptO_ranged | apply keptO_fault | apply kept_linkL2Ready | apply kept_ite | split)

theorem kept_keepBanks {z : State} (s t : State) (h0 : Kept z s) (h1 : Kept z t) : Kept z (keepBanks s t) :=
  ⟨h1.1, h1.2.1, h1.2.2.1, filter_swf _ _ _ h0.2.2.2.1, h1.2.2.2.2.1, h1.2.2.2.2.2⟩

theorem kept_keepCounts {z : State} (s t : State) (h0 : Kept z s) (h1 : Kept z t) : Kept z (keepCounts s t) := by
  unfold keepCounts
  (try dsimp only)
  repeat' with_reducible (first | assumption | apply kept_wr | apply kept_foldl | (intro _; (try dsimp only)) | (simp only [kept_mk_eq]; apply kept_of) | apply kept_ite | split)

theorem kept_returnNative {z : State} (locks : Bool) (s : State) (h0 : Kept z s) : Kept z (returnNative locks s) := by
  unfold returnNative
  (try dsimp only)
  repeat' with_reducible (first | assumption | apply kept_wr | apply kept_imgBegin | apply kept_setBoot | apply kept_chipReset | apply kept_deriveWrap | apply kept_boot | apply kept_resumeNext | apply kept_keepBanks | apply kept_keepCounts | (simp only [kept_mk_eq]; apply kept_of) | apply kept_ite | split)

theorem kept_returnCompat {z : State} (s : State) (h0 : Kept z s) : Kept z (returnCompat s) := by
  unfold returnCompat
  (try dsimp only)
  repeat' with_reducible (first | assumption | apply kept_wr | apply kept_raise | apply kept_enterState | apply kept_setClk | apply kept_hostReset | apply kept_setPwr | apply kept_foldl | (intro _; (try dsimp only)) | (simp only [kept_mk_eq]; apply kept_of) | apply kept_ite | split)

theorem kept_wakeReturn {z : State} (locks : Bool) (s : State) (h0 : Kept z s) : Kept z (wakeReturn locks s) := by
  unfold wakeReturn
  (try dsimp only)
  repeat' with_reducible (first | assumption | apply kept_chipReset | apply kept_returnNative | apply kept_returnCompat | apply kept_ite | split)

theorem kept_execWakeReturn {z : State} (locks : Bool) (s : State) (h0 : Kept z s) : KeptO z (execWakeReturn locks s) := by
  unfold execWakeReturn
  (try dsimp only)
  repeat' with_reducible (first | assumption | apply keptO_next | apply keptO_ranged | apply keptO_fault | apply kept_wakeReturn | apply kept_ite | split)

theorem kept_wakeTimeout {z : State} (s : State) (h0 : Kept z s) : Kept z (wakeTimeout s) := by
  unfold wakeTimeout
  (try dsimp only)
  repeat' with_reducible (first | assumption | apply kept_wr | apply kept_elapse | apply kept_setPwr | (simp only [kept_mk_eq]; apply kept_of) | apply kept_ite | split)

theorem kept_execWakeTimeout {z : State} (s : State) (h0 : Kept z s) : KeptO z (execWakeTimeout s) := by
  unfold execWakeTimeout
  (try dsimp only)
  repeat' with_reducible (first | assumption | apply keptO_next | apply keptO_ranged | apply keptO_fault | apply kept_wakeTimeout | apply kept_ite | split)

theorem kept_execWakeIn {z : State} (lvl : Bool) (s : State) (h0 : Kept z s) : KeptO z (execWakeIn lvl s) := by
  unfold execWakeIn
  (try dsimp only)
  repeat' with_reducible (first | assumption | apply keptO_next | apply keptO_ranged | apply keptO_fault | apply kept_wakeFire | apply kept_setPwr | (simp only [kept_mk_eq]; apply kept_of) | apply kept_ite | split)

theorem kept_airWake {z : State} (chan sf : Nat) (d : List Byte) (s : State) (h0 : Kept z s) : Kept z (airWake chan sf d s) := by
  unfold airWake
  (try dsimp only)
  repeat' with_reducible (first | assumption | apply kept_inc | apply kept_raise | apply kept_wakeFire | apply kept_ite | split)

theorem kept_execAirWake {z : State} (chan sf : Nat) (d : List Byte) (s : State) (h0 : Kept z s) : KeptO z (execAirWake chan sf d s) := by
  unfold execAirWake
  (try dsimp only)
  repeat' with_reducible (first | assumption | apply keptO_next | apply keptO_ranged | apply keptO_fault | apply kept_ranged | apply kept_airWake | apply kept_ite | split)

theorem kept_retentionLost {z : State} (s : State) (h0 : Kept z s) : Kept z (retentionLost s) := by
  unfold retentionLost
  (try dsimp only)
  repeat' with_reducible (first | assumption | apply kept_wr | apply kept_inc | apply kept_raise | apply kept_zeroMem | (simp only [kept_mk_eq]; apply kept_of) | apply kept_ite | split)

theorem kept_execRetentionLoss {z : State} (s : State) (h0 : Kept z s) : KeptO z (execRetentionLoss s) := by
  unfold execRetentionLoss
  (try dsimp only)
  repeat' with_reducible (first | assumption | apply keptO_next | apply keptO_ranged | apply keptO_fault | apply kept_retentionLost | apply kept_ite | split)

theorem kept_holdover {z : State} (s : State) (h0 : Kept z s) : Kept z (holdover s) := by
  unfold holdover
  (try dsimp only)
  repeat' with_reducible (first | assumption | apply kept_setClk | apply kept_setPwr | apply kept_retentionLost | (simp only [kept_mk_eq]; apply kept_of) | apply kept_ite | split)

theorem kept_execHoldover {z : State} (s : State) (h0 : Kept z s) : KeptO z (execHoldover s) := by
  unfold execHoldover
  (try dsimp only)
  repeat' with_reducible (first | assumption | apply keptO_next | apply keptO_ranged | apply keptO_fault | apply kept_holdover | apply kept_ite | split)

theorem kept_grantStarts {z : State} (who : Holder) (s : State) (h0 : Kept z s) : Kept z (grantStarts who s) := by
  unfold grantStarts
  (try dsimp only)
  repeat' with_reducible (first | assumption | apply kept_capGranted | apply kept_flashGrant | apply kept_bootGo | apply kept_biasRamp | (simp only [kept_mk_eq]; apply kept_of) | apply kept_ite | split)

theorem kept_leaveGrant {z : State} (s : State) (h0 : Kept z s) : Kept z (leaveGrant s) := by
  unfold leaveGrant
  (try dsimp only)
  repeat' with_reducible (first | assumption | apply kept_inc | apply kept_holdLeave | apply kept_setPwr | apply kept_grantStarts | (simp only [kept_mk_eq]; apply kept_of) | apply kept_ite | split)

theorem kept_execLeaveGrant {z : State} (s : State) (h0 : Kept z s) : KeptO z (execLeaveGrant s) := by
  unfold execLeaveGrant
  (try dsimp only)
  repeat' with_reducible (first | assumption | apply keptO_next | apply keptO_ranged | apply keptO_fault | apply kept_leaveGrant | apply kept_ite | split)

theorem kept_tripChains {z : State} (s : State) (h0 : Kept z s) : Kept z (tripChains s) := by
  unfold tripChains
  (try dsimp only)
  repeat' with_reducible (first | assumption | apply kept_faultChain | apply kept_foldl | (intro _; (try dsimp only)) | apply kept_ite | split)

theorem kept_tempSample {z : State} (temp : Int) (s : State) (h0 : Kept z s) : Kept z (tempSample temp s) := by
  unfold tempSample
  (try dsimp only)
  repeat' with_reducible (first | assumption | apply kept_wr | apply kept_inc | apply kept_raise | apply kept_setPwr | apply kept_tripChains | (simp only [kept_mk_eq]; apply kept_of) | apply kept_ite | split)

theorem kept_execTempSample {z : State} (temp : Int) (s : State) (h0 : Kept z s) : KeptO z (execTempSample temp s) := by
  unfold execTempSample
  (try dsimp only)
  repeat' with_reducible (first | assumption | apply keptO_next | apply keptO_ranged | apply keptO_fault | apply kept_ranged | apply kept_tempSample | apply kept_ite | split)

theorem kept_gaugeWrong {z : State} (s : State) (h0 : Kept z s) : Kept z (gaugeWrong s) := by
  unfold gaugeWrong
  (try dsimp only)
  repeat' with_reducible (first | assumption | apply kept_wr | apply kept_raise | apply kept_ite | split)

theorem kept_shieldMonitor {z : State} (mv : Nat) (s : State) (h0 : Kept z s) : Kept z (shieldMonitor mv s) := by
  unfold shieldMonitor
  (try dsimp only)
  repeat' with_reducible (first | assumption | apply kept_wr | apply kept_setPwr | (simp only [kept_mk_eq]; apply kept_of) | apply kept_ite | split)

theorem kept_vbakMeasure {z : State} (mv uah : Nat) (s : State) (h0 : Kept z s) : Kept z (vbakMeasure mv uah s) := by
  unfold vbakMeasure
  (try dsimp only)
  repeat' with_reducible (first | assumption | apply kept_wr | apply kept_raise | apply kept_gaugeWrong | apply kept_shieldMonitor | apply kept_ite | split)

theorem kept_execVbakMeasure {z : State} (mv uah : Nat) (s : State) (h0 : Kept z s) : KeptO z (execVbakMeasure mv uah s) := by
  unfold execVbakMeasure
  (try dsimp only)
  repeat' with_reducible (first | assumption | apply keptO_next | apply keptO_ranged | apply keptO_fault | apply kept_ranged | apply kept_vbakMeasure | apply kept_ite | split)

theorem kept_recal {z : State} (s : State) (h0 : Kept z s) : Kept z (recal s) := by
  unfold recal
  (try dsimp only)
  repeat' with_reducible (first | assumption | apply kept_wr | apply kept_ite | split)

theorem kept_execRecal {z : State} (f : Fn) (s : State) (h0 : Kept z s) : KeptO z (execRecal f s) := by
  unfold execRecal
  (try dsimp only)
  repeat' with_reducible (first | assumption | apply keptO_next | apply keptO_ranged | apply keptO_fault | apply kept_p0Only | apply kept_recal | apply kept_ite | split)

theorem kept_pwrClear {z : State} (s : State) (h0 : Kept z s) : Kept z (pwrClear s) := by
  unfold pwrClear
  (try dsimp only)
  repeat' with_reducible (first | assumption | apply kept_zero | apply kept_ite | split)

theorem kept_execPwrCntClr {z : State} (f : Fn) (s : State) (h0 : Kept z s) : KeptO z (execPwrCntClr f s) := by
  unfold execPwrCntClr
  (try dsimp only)
  repeat' with_reducible (first | assumption | apply keptO_next | apply keptO_ranged | apply keptO_fault | apply kept_p0Only | apply kept_pwrClear | apply kept_ite | split)

end Sys2Proof.Machine
end

