-- ==== Sys2Proof/Laws/KeepBus.lean ====
section
/-! SUPPORT. What every command keeps, for the register bus, the instruction rows and every command: one lemma per operation. -/

set_option linter.unusedTactic false
set_option linter.unreachableTactic false
set_option linter.unusedVariables false
set_option linter.unusedSimpArgs false

namespace Sys2Proof.Machine

theorem kept_wideRead {z : State} (a v : Nat) (s : State) (h0 : Kept z s) : Kept z ((wideRead a v s).1) := by
  unfold wideRead
  (try dsimp only)
  repeat' with_reducible (first | assumption | (simp only [kept_mk_eq]; apply kept_of) | apply kept_ite | split)

theorem kept_ntwRead {z : State} (f : Fn) (a : Nat) (s : State) (h0 : Kept z s) : Kept z ((ntwRead f a s).1) := by
  unfold ntwRead
  (try dsimp only)
  repeat' with_reducible (first | assumption | apply kept_freed | apply kept_bark | apply kept_ntwTake | apply kept_ite | split)

theorem kept_pfRead {z : State} (f : Fn) (a : Nat) (s : State) (h0 : Kept z s) : Kept z ((pfRead f a s).1) := by
  unfold pfRead
  (try dsimp only)
  repeat' with_reducible (first | assumption | apply kept_freed | apply kept_bark | apply kept_causesGone | apply kept_windowRead | apply kept_rtcRead | apply kept_wideRead | apply kept_ntwRead | (simp only [kept_mk_eq]; apply kept_of) | apply kept_ite | split)

theorem kept_did {z : State} (s : State) (r : Host.Outcome State Fault Refusal) (h : Kept z s) (hr : KeptO z r) : Kept z (did s r) := by
  unfold did
  split
  · exact hr _ rfl
  · exact h

theorem kept_onBit {z : State} (b : Bool) (t : State → State) (s : State) (h : Kept z s) (ht : ∀ u, Kept z u → Kept z (t u)) :
    Kept z (onBit b t s) := by
  unfold onBit
  split
  · exact ht _ h
  · exact h

theorem kept_plainWrite {z : State} (a : Nat) (v : Word) (s : State) (h0 : Kept z s) : Kept z (plainWrite a v s) := by
  unfold plainWrite
  (try dsimp only)
  repeat' with_reducible (first | assumption | apply kept_evtEdge | apply kept_regWrite | apply kept_ite | split)

theorem kept_holdLow {z : State} (a : Nat) (v : Word) (s : State) (h0 : Kept z s) : Kept z (holdLow a v s) := by
  unfold holdLow
  (try dsimp only)
  repeat' with_reducible (first | assumption | (simp only [kept_mk_eq]; apply kept_of) | apply kept_ite | split)

theorem kept_topWrite {z : State} (f : Fn) (o : Nat) (v : Word) (s : State) (h0 : Kept z s) : Kept z (topWrite f o v s) := by
  unfold topWrite
  (try dsimp only)
  repeat' with_reducible (first | assumption | apply kept_featureCommit | apply kept_execRadioReset | apply kept_execFullReset | apply kept_execDriverOk | apply kept_did | apply kept_onBit | apply kept_plainWrite | (intro _; (try dsimp only)) | apply kept_ite | split)

theorem kept_outWrite {z : State} (h : Nat) (v : Word) (s : State) (h0 : Kept z s) : Kept z (outWrite h v s) := by
  unfold outWrite
  (try dsimp only)
  repeat' with_reducible (first | assumption | apply kept_regWrite | apply kept_ite | split)

theorem kept_syncoutWrite {z : State} (a : Nat) (v : Word) (s : State) (h0 : Kept z s) : Kept z (syncoutWrite a v s) := by
  unfold syncoutWrite
  (try dsimp only)
  repeat' with_reducible (first | assumption | apply kept_regWrite | apply kept_setClk | (simp only [kept_mk_eq]; apply kept_of) | apply kept_ite | split)

theorem kept_clkWrite {z : State} (a : Nat) (v : Word) (s : State) (h0 : Kept z s) : Kept z (clkWrite a v s) := by
  unfold clkWrite
  (try dsimp only)
  repeat' with_reducible (first | assumption | apply kept_regWrite | apply kept_setClk | apply kept_plainWrite | apply kept_outWrite | apply kept_syncoutWrite | (simp only [kept_mk_eq]; apply kept_of) | apply kept_ite | split)

theorem kept_setsWrite {z : State} (a : Nat) (v : Word) (s : State) (h0 : Kept z s) : Kept z (setsWrite a v s) := by
  unfold setsWrite
  (try dsimp only)
  repeat' with_reducible (first | assumption | apply kept_antChange | apply kept_classesBack | apply kept_restChains | apply kept_regWrite | apply kept_ite | split)

theorem kept_pwrWrite {z : State} (a : Nat) (v : Word) (s : State) (h0 : Kept z s) : Kept z (pwrWrite a v s) := by
  unfold pwrWrite
  (try dsimp only)
  repeat' with_reducible (first | assumption | apply kept_pwrCmd | apply kept_recal | apply kept_pwrClear | apply kept_onBit | apply kept_plainWrite | apply kept_setsWrite | (intro _; (try dsimp only)) | apply kept_ite | split)

theorem kept_rtcWrite {z : State} (f : Fn) (a : Nat) (v : Word) (s : State) (h0 : Kept z s) : Kept z (rtcWrite f a v s) := by
  unfold rtcWrite
  (try dsimp only)
  repeat' with_reducible (first | assumption | apply kept_regWrite | apply kept_rtcThaw | apply kept_secondsWrite | apply kept_alarmArm | apply kept_execRtcDisarm | apply kept_did | apply kept_onBit | apply kept_holdLow | (intro _; (try dsimp only)) | apply kept_ite | split)

theorem kept_timerWrite {z : State} (f : Fn) (k r : Nat) (v : Word) (s : State) (h0 : Kept z s) : Kept z (timerWrite f k r v s) := by
  unfold timerWrite
  (try dsimp only)
  repeat' with_reducible (first | assumption | apply kept_bark | apply kept_regWrite | apply kept_preloadWrite | apply kept_execClr | apply kept_did | apply kept_onBit | (intro _; (try dsimp only)) | apply kept_ite | split)

theorem kept_timWrite {z : State} (f : Fn) (a : Nat) (v : Word) (s : State) (h0 : Kept z s) : Kept z (timWrite f a v s) := by
  unfold timWrite
  (try dsimp only)
  repeat' with_reducible (first | assumption | apply kept_timEnable | apply kept_timerWrite | apply kept_ite | split)

theorem kept_evrWrite {z : State} (f : Fn) (a : Nat) (v : Word) (s : State) (h0 : Kept z s) : Kept z (evrWrite f a v s) := by
  unfold evrWrite
  (try dsimp only)
  repeat' with_reducible (first | assumption | apply kept_execEvrFire | apply kept_execEvrCntClr | apply kept_channelCfg | apply kept_execGpioSet | apply kept_execGpioClr | apply kept_did | apply kept_onBit | apply kept_plainWrite | (intro _; (try dsimp only)) | apply kept_ite | split)

theorem kept_twoWrite {z : State} (a : Nat) (v : Word) (s : State) (h0 : Kept z s) : Kept z (twoWrite a v s) := by
  unfold twoWrite
  (try dsimp only)
  repeat' with_reducible (first | assumption | apply kept_regWrite | apply kept_twbStart | apply kept_plainWrite | apply kept_ite | split)

theorem kept_gateWrite {z : State} (f : Fn) (n r a : Nat) (v : Word) (s : State) (h0 : Kept z s) : Kept z (gateWrite f n r a v s) := by
  unfold gateWrite
  (try dsimp only)
  repeat' with_reducible (first | assumption | apply kept_regWrite | apply kept_execBiasOn | apply kept_execBiasOff | apply kept_execBiasFaultClr | apply kept_did | apply kept_onBit | (intro _; (try dsimp only)) | (simp only [kept_mk_eq]; apply kept_of) | apply kept_ite | split)

theorem kept_biasWrite {z : State} (f : Fn) (a : Nat) (v : Word) (s : State) (h0 : Kept z s) : Kept z (biasWrite f a v s) := by
  unfold biasWrite
  (try dsimp only)
  repeat' with_reducible (first | assumption | apply kept_plainWrite | apply kept_gateWrite | apply kept_ite | split)

theorem kept_flcCmd {z : State} (v : Word) (s : State) (h0 : Kept z s) : Kept z (flcCmd v s) := by
  unfold flcCmd
  (try dsimp only)
  repeat' with_reducible (first | assumption | apply kept_regWrite | apply kept_flashStart | apply kept_flashSuspend | apply kept_flashResume | apply kept_flashAbort | (simp only [kept_mk_eq]; apply kept_of) | apply kept_ite | split)

theorem kept_imgCtrl {z : State} (v : Word) (s : State) (h0 : Kept z s) : Kept z (imgCtrl v s) := by
  unfold imgCtrl
  (try dsimp only)
  repeat' with_reducible (first | assumption | apply kept_freed | apply kept_regWrite | apply kept_imgStart | apply kept_imgAbort | apply kept_onBit | (intro _; (try dsimp only)) | apply kept_ite | split)

theorem kept_graftCtrl {z : State} (v : Word) (s : State) (h0 : Kept z s) : Kept z (graftCtrl v s) := by
  unfold graftCtrl
  (try dsimp only)
  repeat' with_reducible (first | assumption | apply kept_freed | apply kept_graftStart | (simp only [kept_mk_eq]; apply kept_of) | apply kept_ite | split)

theorem kept_flcWrite {z : State} (a : Nat) (v : Word) (s : State) (h0 : Kept z s) : Kept z (flcWrite a v s) := by
  unfold flcWrite
  (try dsimp only)
  repeat' with_reducible (first | assumption | apply kept_regWrite | apply kept_fuseStart | apply kept_ldgStart | apply kept_plainWrite | apply kept_flcCmd | apply kept_imgCtrl | apply kept_graftCtrl | apply kept_ite | split)

theorem kept_antWrite {z : State} (f : Fn) (n r : Nat) (v : Word) (s : State) (h0 : Kept z s) : Kept z (antWrite f n r v s) := by
  unfold antWrite
  (try dsimp only)
  repeat' with_reducible (first | assumption | apply kept_enterManual | apply kept_execManAttWrite | apply kept_execAttLimWrite | apply kept_execTrimWrite | apply kept_regWrite | apply kept_did | apply kept_ite | split)

theorem kept_cnpWrite {z : State} (f : Fn) (a : Nat) (v : Word) (s : State) (h0 : Kept z s) : Kept z (cnpWrite f a v s) := by
  unfold cnpWrite
  (try dsimp only)
  repeat' with_reducible (first | assumption | apply kept_wr64 | apply kept_capAbort | apply kept_execAntennaEnableWrite | apply kept_execCnpCntClrBlock | apply kept_execCnpCntClrPoints | apply kept_execCnpCntClrAnt | apply kept_capArm | apply kept_capForce | apply kept_dropHeld | apply kept_did | apply kept_onBit | apply kept_plainWrite | apply kept_holdLow | apply kept_antWrite | (intro _; (try dsimp only)) | apply kept_ite | split)

theorem kept_lneWrite {z : State} (f : Fn) (a : Nat) (v : Word) (s : State) (h0 : Kept z s) : Kept z (lneWrite f a v s) := by
  unfold lneWrite
  (try dsimp only)
  repeat' with_reducible (first | assumption | apply kept_execLneCntClrBlock | apply kept_execLneCntClrPart | apply kept_execLneCntClrFlt | apply kept_did | apply kept_onBit | apply kept_plainWrite | (intro _; (try dsimp only)) | apply kept_ite | split)

theorem kept_corrWrite {z : State} (f : Fn) (v : Word) (s : State) (h0 : Kept z s) : Kept z (corrWrite f v s) := by
  unfold corrWrite
  (try dsimp only)
  repeat' with_reducible (first | assumption | apply kept_execCorrWrite | apply kept_execCorrRead | apply kept_execClearValid | apply kept_regWrite | apply kept_did | (simp only [kept_mk_eq]; apply kept_of) | apply kept_ite | split)

theorem kept_chainWrite {z : State} (f : Fn) (n r : Nat) (v : Word) (s : State) (h0 : Kept z s) : Kept z (chainWrite f n r v s) := by
  unfold chainWrite
  (try dsimp only)
  repeat' with_reducible (first | assumption | apply kept_chainEnable | apply kept_execKill | apply kept_execFaultClr | apply kept_regWrite | apply kept_did | apply kept_onBit | (intro _; (try dsimp only)) | apply kept_ite | split)

theorem kept_txcWrite {z : State} (f : Fn) (a : Nat) (v : Word) (s : State) (h0 : Kept z s) : Kept z (txcWrite f a v s) := by
  unfold txcWrite
  (try dsimp only)
  repeat' with_reducible (first | assumption | apply kept_reqUpdate | apply kept_execTxcCntClrBlock | apply kept_execTxcCntClrChain | apply kept_execTxcCntClrCoex | apply kept_did | apply kept_onBit | apply kept_plainWrite | apply kept_corrWrite | apply kept_chainWrite | (intro _; (try dsimp only)) | apply kept_ite | split)

theorem kept_cmpCtrl {z : State} (f : Fn) (k : Nat) (v : Word) (s : State) (h0 : Kept z s) : Kept z (cmpCtrl f k v s) := by
  unfold cmpCtrl
  (try dsimp only)
  repeat' with_reducible (first | assumption | apply kept_wr | apply kept_bark | apply kept_regWrite | apply kept_disarmCmp | apply kept_onBit | (intro _; (try dsimp only)) | apply kept_ite | split)

theorem kept_lnkWrite {z : State} (f : Fn) (a : Nat) (v : Word) (s : State) (h0 : Kept z s) : Kept z (lnkWrite f a v s) := by
  unfold lnkWrite
  (try dsimp only)
  repeat' with_reducible (first | assumption | apply kept_regWrite | apply kept_tschEnable | apply kept_cellWrite | apply kept_cmpHigh | apply kept_panWrite | apply kept_execLnkCntClrBlock | apply kept_execLnkCntClrPart | apply kept_did | apply kept_onBit | apply kept_plainWrite | apply kept_holdLow | apply kept_cmpCtrl | (intro _; (try dsimp only)) | (simp only [kept_mk_eq]; apply kept_of) | apply kept_ite | split)

theorem kept_queWrite {z : State} (f : Fn) (a : Nat) (v : Word) (s : State) (h0 : Kept z s) : Kept z (queWrite f a v s) := by
  unfold queWrite
  (try dsimp only)
  repeat' with_reducible (first | assumption | apply kept_regWrite | apply kept_ncmd | apply kept_rxReserveWrite | apply kept_execQueCntClrBlock | apply kept_execQueCntClrPart | apply kept_did | apply kept_onBit | apply kept_plainWrite | (intro _; (try dsimp only)) | apply kept_ite | split)

theorem kept_secWrite {z : State} (f : Fn) (a : Nat) (v : Word) (s : State) (h0 : Kept z s) : Kept z (secWrite f a v s) := by
  unfold secWrite
  (try dsimp only)
  repeat' with_reducible (first | assumption | apply kept_regWrite | apply kept_kopCmd | apply kept_sealCmd | apply kept_markPop | apply kept_alarmClear | apply kept_execSecCntClrBlock | apply kept_execSecCntClrPart | apply kept_did | apply kept_onBit | apply kept_plainWrite | (intro _; (try dsimp only)) | apply kept_ite | split)

theorem kept_partWrite {z : State} (p r a o : Nat) (v : Word) (s : State) (h0 : Kept z s) : Kept z (partWrite p r a o v s) := by
  unfold partWrite
  (try dsimp only)
  repeat' with_reducible (first | assumption | apply kept_shareWrite | apply kept_partEnable | apply kept_partReset | apply kept_plainWrite | apply kept_ite | split)

theorem kept_prtAt {z : State} (f : Fn) (a o : Nat) (v : Word) (s : State) (h0 : Kept z s) : Kept z (prtAt f a o v s) := by
  unfold prtAt
  (try dsimp only)
  repeat' with_reducible (first | assumption | apply kept_mapEntryWrite | apply kept_shareWrite | apply kept_fltPop | apply kept_execPrtCntClrBlock | apply kept_execPrtCntClrPart | apply kept_did | apply kept_onBit | apply kept_plainWrite | apply kept_partWrite | (intro _; (try dsimp only)) | (simp only [kept_mk_eq]; apply kept_of) | apply kept_ite | split)

theorem kept_prtWrite {z : State} (f : Fn) (a : Nat) (v : Word) (s : State) (h0 : Kept z s) : Kept z (prtWrite f a v s) := by
  unfold prtWrite
  (try dsimp only)
  repeat' with_reducible (first | assumption | apply kept_prtAt | apply kept_ite | split)

theorem kept_portWrite {z : State} (f : Fn) (q r : Nat) (v : Word) (s : State) (h0 : Kept z s) : Kept z (portWrite f q r v s) := by
  unfold portWrite
  (try dsimp only)
  repeat' with_reducible (first | assumption | apply kept_regWrite | apply kept_portEnable | apply kept_portDisable | apply kept_ownDoorbell | apply kept_sqTail | apply kept_cqHead | apply kept_ite | split)

theorem kept_hstWrite {z : State} (f : Fn) (a : Nat) (v : Word) (s : State) (h0 : Kept z s) : Kept z (hstWrite f a v s) := by
  unfold hstWrite
  (try dsimp only)
  repeat' with_reducible (first | assumption | apply kept_regWrite | apply kept_flushMsix | apply kept_execHstCntClrBlock | apply kept_execHstCntClrPart | apply kept_did | apply kept_onBit | apply kept_plainWrite | apply kept_portWrite | (intro _; (try dsimp only)) | apply kept_ite | split)

theorem kept_engMemWrite {z : State} (a e : Nat) (v : Word) (s : State) (h0 : Kept z s) : Kept z (engMemWrite a e v s) := by
  unfold engMemWrite
  (try dsimp only)
  repeat' with_reducible (first | assumption | apply kept_engPut | apply kept_ite | split)

theorem kept_ownerWrite {z : State} (f : Fn) (a e : Nat) (r : Option Nat) (v : Word) (s : State) (h0 : Kept z s) : Kept z (ownerWrite f a e r v s) := by
  unfold ownerWrite
  (try dsimp only)
  repeat' with_reducible (first | assumption | apply kept_bark | apply kept_engCtrl | apply kept_engWrite | apply kept_engMemWrite | (simp only [kept_mk_eq]; apply kept_of) | apply kept_ite | split)

theorem kept_clusterWrite {z : State} (c a : Nat) (v : Word) (s : State) (h0 : Kept z s) : Kept z (clusterWrite c a v s) := by
  unfold clusterWrite
  (try dsimp only)
  repeat' with_reducible (first | assumption | apply kept_regWrite | apply kept_wakeCluster | apply kept_sleepCluster | apply kept_onBit | apply kept_plainWrite | (intro _; (try dsimp only)) | apply kept_ite | split)

theorem kept_engHome {z : State} (f : Fn) (a : Nat) (e r : Option Nat) (v : Word) (s : State) (h0 : Kept z s) : Kept z (engHome f a e r v s) := by
  unfold engHome
  (try dsimp only)
  repeat' with_reducible (first | assumption | apply kept_ownerWrite | apply kept_clusterWrite | (simp only [kept_mk_eq]; apply kept_of) | apply kept_ite | split)

theorem kept_engWord {z : State} (f : Fn) (a : Nat) (v : Word) (s : State) (h0 : Kept z s) : Kept z (engWord f a v s) := by
  unfold engWord
  (try dsimp only)
  repeat' with_reducible (first | assumption | apply kept_engHome | apply kept_ite | split)

theorem kept_supWord {z : State} (f : Fn) (a : Nat) (v : Word) (s : State) (h0 : Kept z s) : Kept z (supWord f a v s) := by
  unfold supWord
  (try dsimp only)
  repeat' with_reducible (first | assumption | apply kept_store | apply kept_supWrite | apply kept_plainWrite | apply kept_ite | split)

theorem kept_pfWrite {z : State} (f : Fn) (a : Nat) (v : Word) (s : State) (h0 : Kept z s) : Kept z (pfWrite f a v s) := by
  unfold pfWrite
  (try dsimp only)
  repeat' with_reducible (first | assumption | apply kept_bark | apply kept_ntwWrite | apply kept_topWrite | apply kept_clkWrite | apply kept_pwrWrite | apply kept_rtcWrite | apply kept_timWrite | apply kept_evrWrite | apply kept_twoWrite | apply kept_biasWrite | apply kept_flcWrite | apply kept_cnpWrite | apply kept_lneWrite | apply kept_txcWrite | apply kept_lnkWrite | apply kept_queWrite | apply kept_secWrite | apply kept_prtWrite | apply kept_hstWrite | apply kept_engWord | apply kept_supWord | apply kept_ite | split)

theorem kept_badSize {z : State} (s : State) (off : Nat) (h0 : Kept z s) : Kept z (State.badSize s off) := by
  unfold State.badSize
  (try dsimp only)
  repeat' with_reducible (first | assumption | apply kept_wr | apply kept_inc | apply kept_raise | apply kept_ite | split)

theorem kept_vfBad {z : State} (n off kind : Nat) (s : State) (h0 : Kept z s) : Kept z (vfBad n off kind s) := by
  unfold vfBad
  (try dsimp only)
  repeat' with_reducible (first | assumption | apply kept_setVreg | apply kept_inc | apply kept_ite | split)

theorem kept_pfAccess {z : State} (f : Fn) (off size : Nat) (acc : Access) (s : State) (h0 : Kept z s) : Kept z ((pfAccess f off size acc s).1) := by
  unfold pfAccess
  (try dsimp only)
  repeat' with_reducible (first | assumption | apply kept_unmapped | apply kept_pfRead | apply kept_pfWrite | apply kept_badSize | (simp only [kept_mk_eq]; apply kept_of) | apply kept_ite | split)

theorem kept_vfWrite {z : State} (n o : Nat) (v : Word) (s : State) (h0 : Kept z s) : Kept z (vfWrite n o v s) := by
  unfold vfWrite
  (try dsimp only)
  repeat' with_reducible (first | assumption | apply kept_setVreg | apply kept_zero | apply kept_bark | apply kept_featureCommit | apply kept_flushMsix | apply kept_onBit | apply kept_portWrite | (intro _; (try dsimp only)) | (simp only [kept_mk_eq]; apply kept_of) | apply kept_ite | split)

theorem kept_vfAccess {z : State} (n off size : Nat) (acc : Access) (s : State) (h0 : Kept z s) : Kept z ((vfAccess n off size acc s).1) := by
  unfold vfAccess
  (try dsimp only)
  repeat' with_reducible (first | assumption | apply kept_vfBad | apply kept_vfWrite | (simp only [kept_mk_eq]; apply kept_of) | apply kept_ite | split)

theorem kept_busAccess {z : State} (f : Fn) (off size : Nat) (acc : Access) (s : State) (h0 : Kept z s) : Kept z ((busAccess f off size acc s).1) := by
  unfold busAccess
  (try dsimp only)
  repeat' with_reducible (first | assumption | apply kept_pfAccess | apply kept_vfAccess | (simp only [kept_mk_eq]; apply kept_of) | apply kept_ite | split)

theorem kept_supDev {z : State} : KeptD z supDev :=
  ⟨fun _ _ _ _ h => kept_busAccess _ _ _ _ _ h, fun _ _ _ _ _ h => kept_busAccess _ _ _ _ _ h⟩

theorem kept_execRegisterWrite {z : State} (f : Fn) (off size : Nat) (acc : Access) (s : State) (h0 : Kept z s) : KeptO z (execRegisterWrite f off size acc s) := by
  unfold execRegisterWrite
  (try dsimp only)
  repeat' with_reducible (first | assumption | apply keptO_next | apply keptO_ranged | apply keptO_fault | apply kept_ranged | apply kept_post | apply kept_stepNow | apply kept_busAccess | apply kept_supDev | apply kept_foldl | (intro _; (try dsimp only)) | (simp only [kept_mk_eq]; apply kept_of) | apply kept_ite | split)

theorem kept_insn {z : State} (c : Nat) (fields : List (Nat × Nat)) (b : Body) (s : State) (h : Kept z s) (hb : KeptB z b) :
    KeptO z (insn c fields b s) := keptO_ranged (kept_runIns _ _ _ hb h)

theorem kept_execAdd {z : State} (c rd ra rb : Nat) (s : State) (h0 : Kept z s) : KeptO z (execAdd c rd ra rb s) := by
  unfold execAdd
  (try dsimp only)
  repeat' with_reducible (first | assumption | apply keptO_next | apply keptO_ranged | apply keptO_fault | apply kept_alu | apply kept_insn | apply kept_ite | split)

theorem kept_execSub {z : State} (c rd ra rb : Nat) (s : State) (h0 : Kept z s) : KeptO z (execSub c rd ra rb s) := by
  unfold execSub
  (try dsimp only)
  repeat' with_reducible (first | assumption | apply keptO_next | apply keptO_ranged | apply keptO_fault | apply kept_alu | apply kept_insn | apply kept_ite | split)

theorem kept_execAnd {z : State} (c rd ra rb : Nat) (s : State) (h0 : Kept z s) : KeptO z (execAnd c rd ra rb s) := by
  unfold execAnd
  (try dsimp only)
  repeat' with_reducible (first | assumption | apply keptO_next | apply keptO_ranged | apply keptO_fault | apply kept_alu | apply kept_insn | apply kept_ite | split)

theorem kept_execOr {z : State} (c rd ra rb : Nat) (s : State) (h0 : Kept z s) : KeptO z (execOr c rd ra rb s) := by
  unfold execOr
  (try dsimp only)
  repeat' with_reducible (first | assumption | apply keptO_next | apply keptO_ranged | apply keptO_fault | apply kept_alu | apply kept_insn | apply kept_ite | split)

theorem kept_execXor {z : State} (c rd ra rb : Nat) (s : State) (h0 : Kept z s) : KeptO z (execXor c rd ra rb s) := by
  unfold execXor
  (try dsimp only)
  repeat' with_reducible (first | assumption | apply keptO_next | apply keptO_ranged | apply keptO_fault | apply kept_alu | apply kept_insn | apply kept_ite | split)

theorem kept_execSll {z : State} (c rd ra rb : Nat) (s : State) (h0 : Kept z s) : KeptO z (execSll c rd ra rb s) := by
  unfold execSll
  (try dsimp only)
  repeat' with_reducible (first | assumption | apply keptO_next | apply keptO_ranged | apply keptO_fault | apply kept_alu | apply kept_insn | apply kept_ite | split)

theorem kept_execSrl {z : State} (c rd ra rb : Nat) (s : State) (h0 : Kept z s) : KeptO z (execSrl c rd ra rb s) := by
  unfold execSrl
  (try dsimp only)
  repeat' with_reducible (first | assumption | apply keptO_next | apply keptO_ranged | apply keptO_fault | apply kept_alu | apply kept_insn | apply kept_ite | split)

theorem kept_execSra {z : State} (c rd ra rb : Nat) (s : State) (h0 : Kept z s) : KeptO z (execSra c rd ra rb s) := by
  unfold execSra
  (try dsimp only)
  repeat' with_reducible (first | assumption | apply keptO_next | apply keptO_ranged | apply keptO_fault | apply kept_alu | apply kept_insn | apply kept_ite | split)

theorem kept_execSlt {z : State} (c rd ra rb : Nat) (s : State) (h0 : Kept z s) : KeptO z (execSlt c rd ra rb s) := by
  unfold execSlt
  (try dsimp only)
  repeat' with_reducible (first | assumption | apply keptO_next | apply keptO_ranged | apply keptO_fault | apply kept_alu | apply kept_insn | apply kept_ite | split)

theorem kept_execSltu {z : State} (c rd ra rb : Nat) (s : State) (h0 : Kept z s) : KeptO z (execSltu c rd ra rb s) := by
  unfold execSltu
  (try dsimp only)
  repeat' with_reducible (first | assumption | apply keptO_next | apply keptO_ranged | apply keptO_fault | apply kept_alu | apply kept_insn | apply kept_ite | split)

theorem kept_execMin {z : State} (c rd ra rb : Nat) (s : State) (h0 : Kept z s) : KeptO z (execMin c rd ra rb s) := by
  unfold execMin
  (try dsimp only)
  repeat' with_reducible (first | assumption | apply keptO_next | apply keptO_ranged | apply keptO_fault | apply kept_alu | apply kept_insn | apply kept_ite | split)

theorem kept_execMax {z : State} (c rd ra rb : Nat) (s : State) (h0 : Kept z s) : KeptO z (execMax c rd ra rb s) := by
  unfold execMax
  (try dsimp only)
  repeat' with_reducible (first | assumption | apply keptO_next | apply keptO_ranged | apply keptO_fault | apply kept_alu | apply kept_insn | apply kept_ite | split)

theorem kept_execMul {z : State} (c rd ra rb : Nat) (s : State) (h0 : Kept z s) : KeptO z (execMul c rd ra rb s) := by
  unfold execMul
  (try dsimp only)
  repeat' with_reducible (first | assumption | apply keptO_next | apply keptO_ranged | apply keptO_fault | apply kept_alu | apply kept_insn | apply kept_ite | split)

theorem kept_execMulhu {z : State} (c rd ra rb : Nat) (s : State) (h0 : Kept z s) : KeptO z (execMulhu c rd ra rb s) := by
  unfold execMulhu
  (try dsimp only)
  repeat' with_reducible (first | assumption | apply keptO_next | apply keptO_ranged | apply keptO_fault | apply kept_alu | apply kept_insn | apply kept_ite | split)

theorem kept_execMulh {z : State} (c rd ra rb : Nat) (s : State) (h0 : Kept z s) : KeptO z (execMulh c rd ra rb s) := by
  unfold execMulh
  (try dsimp only)
  repeat' with_reducible (first | assumption | apply keptO_next | apply keptO_ranged | apply keptO_fault | apply kept_alu | apply kept_insn | apply kept_ite | split)

theorem kept_execDivu {z : State} (c rd ra rb : Nat) (s : State) (h0 : Kept z s) : KeptO z (execDivu c rd ra rb s) := by
  unfold execDivu
  (try dsimp only)
  repeat' with_reducible (first | assumption | apply keptO_next | apply keptO_ranged | apply keptO_fault | apply kept_alu | apply kept_insn | apply kept_ite | split)

theorem kept_execRemu {z : State} (c rd ra rb : Nat) (s : State) (h0 : Kept z s) : KeptO z (execRemu c rd ra rb s) := by
  unfold execRemu
  (try dsimp only)
  repeat' with_reducible (first | assumption | apply keptO_next | apply keptO_ranged | apply keptO_fault | apply kept_alu | apply kept_insn | apply kept_ite | split)

theorem kept_execClz {z : State} (c rd ra : Nat) (s : State) (h0 : Kept z s) : KeptO z (execClz c rd ra s) := by
  unfold execClz
  (try dsimp only)
  repeat' with_reducible (first | assumption | apply keptO_next | apply keptO_ranged | apply keptO_fault | apply kept_alui | apply kept_insn | apply kept_ite | split)

theorem kept_execPopc {z : State} (c rd ra : Nat) (s : State) (h0 : Kept z s) : KeptO z (execPopc c rd ra s) := by
  unfold execPopc
  (try dsimp only)
  repeat' with_reducible (first | assumption | apply keptO_next | apply keptO_ranged | apply keptO_fault | apply kept_alui | apply kept_insn | apply kept_ite | split)

theorem kept_execBswap {z : State} (c rd ra : Nat) (s : State) (h0 : Kept z s) : KeptO z (execBswap c rd ra s) := by
  unfold execBswap
  (try dsimp only)
  repeat' with_reducible (first | assumption | apply keptO_next | apply keptO_ranged | apply keptO_fault | apply kept_alui | apply kept_insn | apply kept_ite | split)

theorem kept_execAddi {z : State} (c rd ra imm : Nat) (s : State) (h0 : Kept z s) : KeptO z (execAddi c rd ra imm s) := by
  unfold execAddi
  (try dsimp only)
  repeat' with_reducible (first | assumption | apply keptO_next | apply keptO_ranged | apply keptO_fault | apply kept_alui | apply kept_insn | apply kept_ite | split)

theorem kept_execAndi {z : State} (c rd ra imm : Nat) (s : State) (h0 : Kept z s) : KeptO z (execAndi c rd ra imm s) := by
  unfold execAndi
  (try dsimp only)
  repeat' with_reducible (first | assumption | apply keptO_next | apply keptO_ranged | apply keptO_fault | apply kept_alui | apply kept_insn | apply kept_ite | split)

theorem kept_execOri {z : State} (c rd ra imm : Nat) (s : State) (h0 : Kept z s) : KeptO z (execOri c rd ra imm s) := by
  unfold execOri
  (try dsimp only)
  repeat' with_reducible (first | assumption | apply keptO_next | apply keptO_ranged | apply keptO_fault | apply kept_alui | apply kept_insn | apply kept_ite | split)

theorem kept_execXori {z : State} (c rd ra imm : Nat) (s : State) (h0 : Kept z s) : KeptO z (execXori c rd ra imm s) := by
  unfold execXori
  (try dsimp only)
  repeat' with_reducible (first | assumption | apply keptO_next | apply keptO_ranged | apply keptO_fault | apply kept_alui | apply kept_insn | apply kept_ite | split)

theorem kept_execSlti {z : State} (c rd ra imm : Nat) (s : State) (h0 : Kept z s) : KeptO z (execSlti c rd ra imm s) := by
  unfold execSlti
  (try dsimp only)
  repeat' with_reducible (first | assumption | apply keptO_next | apply keptO_ranged | apply keptO_fault | apply kept_alui | apply kept_insn | apply kept_ite | split)

theorem kept_execSltiu {z : State} (c rd ra imm : Nat) (s : State) (h0 : Kept z s) : KeptO z (execSltiu c rd ra imm s) := by
  unfold execSltiu
  (try dsimp only)
  repeat' with_reducible (first | assumption | apply keptO_next | apply keptO_ranged | apply keptO_fault | apply kept_alui | apply kept_insn | apply kept_ite | split)

theorem kept_execLui {z : State} (c rd imm : Nat) (s : State) (h0 : Kept z s) : KeptO z (execLui c rd imm s) := by
  unfold execLui
  (try dsimp only)
  repeat' with_reducible (first | assumption | apply keptO_next | apply keptO_ranged | apply keptO_fault | apply kept_alui | apply kept_insn | apply kept_ite | split)

theorem kept_execShi {z : State} (c rd ra imm : Nat) (s : State) (h0 : Kept z s) : KeptO z (execShi c rd ra imm s) := by
  unfold execShi
  (try dsimp only)
  repeat' with_reducible (first | assumption | apply keptO_next | apply keptO_ranged | apply keptO_fault | apply kept_iShi | apply kept_insn | apply kept_ite | split)

theorem kept_execExtu {z : State} (c rd ra imm : Nat) (s : State) (h0 : Kept z s) : KeptO z (execExtu c rd ra imm s) := by
  unfold execExtu
  (try dsimp only)
  repeat' with_reducible (first | assumption | apply keptO_next | apply keptO_ranged | apply keptO_fault | apply kept_iExtu | apply kept_insn | apply kept_ite | split)

theorem kept_execIns {z : State} (c rd ra imm : Nat) (s : State) (h0 : Kept z s) : KeptO z (execIns c rd ra imm s) := by
  unfold execIns
  (try dsimp only)
  repeat' with_reducible (first | assumption | apply keptO_next | apply keptO_ranged | apply keptO_fault | apply kept_iIns | apply kept_insn | apply kept_ite | split)

theorem kept_execLw {z : State} (c rd ra imm : Nat) (s : State) (h0 : Kept z s) : KeptO z (execLw c rd ra imm s) := by
  unfold execLw
  (try dsimp only)
  repeat' with_reducible (first | assumption | apply keptO_next | apply keptO_ranged | apply keptO_fault | apply kept_iLoad | apply kept_supDev | apply kept_insn | apply kept_ite | split)

theorem kept_execLh {z : State} (c rd ra imm : Nat) (s : State) (h0 : Kept z s) : KeptO z (execLh c rd ra imm s) := by
  unfold execLh
  (try dsimp only)
  repeat' with_reducible (first | assumption | apply keptO_next | apply keptO_ranged | apply keptO_fault | apply kept_iLoad | apply kept_supDev | apply kept_insn | apply kept_ite | split)

theorem kept_execLhu {z : State} (c rd ra imm : Nat) (s : State) (h0 : Kept z s) : KeptO z (execLhu c rd ra imm s) := by
  unfold execLhu
  (try dsimp only)
  repeat' with_reducible (first | assumption | apply keptO_next | apply keptO_ranged | apply keptO_fault | apply kept_iLoad | apply kept_supDev | apply kept_insn | apply kept_ite | split)

theorem kept_execLb {z : State} (c rd ra imm : Nat) (s : State) (h0 : Kept z s) : KeptO z (execLb c rd ra imm s) := by
  unfold execLb
  (try dsimp only)
  repeat' with_reducible (first | assumption | apply keptO_next | apply keptO_ranged | apply keptO_fault | apply kept_iLoad | apply kept_supDev | apply kept_insn | apply kept_ite | split)

theorem kept_execLbu {z : State} (c rd ra imm : Nat) (s : State) (h0 : Kept z s) : KeptO z (execLbu c rd ra imm s) := by
  unfold execLbu
  (try dsimp only)
  repeat' with_reducible (first | assumption | apply keptO_next | apply keptO_ranged | apply keptO_fault | apply kept_iLoad | apply kept_supDev | apply kept_insn | apply kept_ite | split)

theorem kept_execSw {z : State} (c rd ra imm : Nat) (s : State) (h0 : Kept z s) : KeptO z (execSw c rd ra imm s) := by
  unfold execSw
  (try dsimp only)
  repeat' with_reducible (first | assumption | apply keptO_next | apply keptO_ranged | apply keptO_fault | apply kept_iStore | apply kept_supDev | apply kept_insn | apply kept_ite | split)

theorem kept_execSh {z : State} (c rd ra imm : Nat) (s : State) (h0 : Kept z s) : KeptO z (execSh c rd ra imm s) := by
  unfold execSh
  (try dsimp only)
  repeat' with_reducible (first | assumption | apply keptO_next | apply keptO_ranged | apply keptO_fault | apply kept_iStore | apply kept_supDev | apply kept_insn | apply kept_ite | split)

theorem kept_execSb {z : State} (c rd ra imm : Nat) (s : State) (h0 : Kept z s) : KeptO z (execSb c rd ra imm s) := by
  unfold execSb
  (try dsimp only)
  repeat' with_reducible (first | assumption | apply keptO_next | apply keptO_ranged | apply keptO_fault | apply kept_iStore | apply kept_supDev | apply kept_insn | apply kept_ite | split)

theorem kept_execLr {z : State} (c rd ra imm : Nat) (s : State) (h0 : Kept z s) : KeptO z (execLr c rd ra imm s) := by
  unfold execLr
  (try dsimp only)
  repeat' with_reducible (first | assumption | apply keptO_next | apply keptO_ranged | apply keptO_fault | apply kept_iLr | apply kept_insn | apply kept_ite | split)

theorem kept_execSc {z : State} (c rd ra rb : Nat) (s : State) (h0 : Kept z s) : KeptO z (execSc c rd ra rb s) := by
  unfold execSc
  (try dsimp only)
  repeat' with_reducible (first | assumption | apply keptO_next | apply keptO_ranged | apply keptO_fault | apply kept_iSc | apply kept_insn | apply kept_ite | split)

theorem kept_execTas {z : State} (c rd ra imm : Nat) (s : State) (h0 : Kept z s) : KeptO z (execTas c rd ra imm s) := by
  unfold execTas
  (try dsimp only)
  repeat' with_reducible (first | assumption | apply keptO_next | apply keptO_ranged | apply keptO_fault | apply kept_iTas | apply kept_insn | apply kept_ite | split)

theorem kept_execBeq {z : State} (c ra rb off : Nat) (s : State) (h0 : Kept z s) : KeptO z (execBeq c ra rb off s) := by
  unfold execBeq
  (try dsimp only)
  repeat' with_reducible (first | assumption | apply keptO_next | apply keptO_ranged | apply keptO_fault | apply kept_iCmpBr | apply kept_insn | apply kept_ite | split)

theorem kept_execBne {z : State} (c ra rb off : Nat) (s : State) (h0 : Kept z s) : KeptO z (execBne c ra rb off s) := by
  unfold execBne
  (try dsimp only)
  repeat' with_reducible (first | assumption | apply keptO_next | apply keptO_ranged | apply keptO_fault | apply kept_iCmpBr | apply kept_insn | apply kept_ite | split)

theorem kept_execBlt {z : State} (c ra rb off : Nat) (s : State) (h0 : Kept z s) : KeptO z (execBlt c ra rb off s) := by
  unfold execBlt
  (try dsimp only)
  repeat' with_reducible (first | assumption | apply keptO_next | apply keptO_ranged | apply keptO_fault | apply kept_iCmpBr | apply kept_insn | apply kept_ite | split)

theorem kept_execBge {z : State} (c ra rb off : Nat) (s : State) (h0 : Kept z s) : KeptO z (execBge c ra rb off s) := by
  unfold execBge
  (try dsimp only)
  repeat' with_reducible (first | assumption | apply keptO_next | apply keptO_ranged | apply keptO_fault | apply kept_iCmpBr | apply kept_insn | apply kept_ite | split)

theorem kept_execBltu {z : State} (c ra rb off : Nat) (s : State) (h0 : Kept z s) : KeptO z (execBltu c ra rb off s) := by
  unfold execBltu
  (try dsimp only)
  repeat' with_reducible (first | assumption | apply keptO_next | apply keptO_ranged | apply keptO_fault | apply kept_iCmpBr | apply kept_insn | apply kept_ite | split)

theorem kept_execBgeu {z : State} (c ra rb off : Nat) (s : State) (h0 : Kept z s) : KeptO z (execBgeu c ra rb off s) := by
  unfold execBgeu
  (try dsimp only)
  repeat' with_reducible (first | assumption | apply keptO_next | apply keptO_ranged | apply keptO_fault | apply kept_iCmpBr | apply kept_insn | apply kept_ite | split)

theorem kept_execBbs {z : State} (c ra b off : Nat) (s : State) (h0 : Kept z s) : KeptO z (execBbs c ra b off s) := by
  unfold execBbs
  (try dsimp only)
  repeat' with_reducible (first | assumption | apply keptO_next | apply keptO_ranged | apply keptO_fault | apply kept_iBitBr | apply kept_insn | apply kept_ite | split)

theorem kept_execBbc {z : State} (c ra b off : Nat) (s : State) (h0 : Kept z s) : KeptO z (execBbc c ra b off s) := by
  unfold execBbc
  (try dsimp only)
  repeat' with_reducible (first | assumption | apply keptO_next | apply keptO_ranged | apply keptO_fault | apply kept_iBitBr | apply kept_insn | apply kept_ite | split)

theorem kept_execJ {z : State} (c off : Nat) (s : State) (h0 : Kept z s) : KeptO z (execJ c off s) := by
  unfold execJ
  (try dsimp only)
  repeat' with_reducible (first | assumption | apply keptO_next | apply keptO_ranged | apply keptO_fault | apply kept_iJ | apply kept_insn | apply kept_ite | split)

theorem kept_execJal {z : State} (c off : Nat) (s : State) (h0 : Kept z s) : KeptO z (execJal c off s) := by
  unfold execJal
  (try dsimp only)
  repeat' with_reducible (first | assumption | apply keptO_next | apply keptO_ranged | apply keptO_fault | apply kept_iJal | apply kept_insn | apply kept_ite | split)

theorem kept_execJr {z : State} (c ra : Nat) (s : State) (h0 : Kept z s) : KeptO z (execJr c ra s) := by
  unfold execJr
  (try dsimp only)
  repeat' with_reducible (first | assumption | apply keptO_next | apply keptO_ranged | apply keptO_fault | apply kept_iJr | apply kept_insn | apply kept_ite | split)

theorem kept_execJalr {z : State} (c rd ra : Nat) (s : State) (h0 : Kept z s) : KeptO z (execJalr c rd ra s) := by
  unfold execJalr
  (try dsimp only)
  repeat' with_reducible (first | assumption | apply keptO_next | apply keptO_ranged | apply keptO_fault | apply kept_iJalr | apply kept_insn | apply kept_ite | split)

theorem kept_execLoop {z : State} (c ra off : Nat) (s : State) (h0 : Kept z s) : KeptO z (execLoop c ra off s) := by
  unfold execLoop
  (try dsimp only)
  repeat' with_reducible (first | assumption | apply keptO_next | apply keptO_ranged | apply keptO_fault | apply kept_iLoop | apply kept_insn | apply kept_ite | split)

theorem kept_execLoopi {z : State} (c cnt off : Nat) (s : State) (h0 : Kept z s) : KeptO z (execLoopi c cnt off s) := by
  unfold execLoopi
  (try dsimp only)
  repeat' with_reducible (first | assumption | apply keptO_next | apply keptO_ranged | apply keptO_fault | apply kept_iLoopi | apply kept_insn | apply kept_ite | split)

theorem kept_execMfs {z : State} (c rd n : Nat) (s : State) (h0 : Kept z s) : KeptO z (execMfs c rd n s) := by
  unfold execMfs
  (try dsimp only)
  repeat' with_reducible (first | assumption | apply keptO_next | apply keptO_ranged | apply keptO_fault | apply kept_iMfs | apply kept_insn | apply kept_ite | split)

theorem kept_execMts {z : State} (c n ra : Nat) (s : State) (h0 : Kept z s) : KeptO z (execMts c n ra s) := by
  unfold execMts
  (try dsimp only)
  repeat' with_reducible (first | assumption | apply keptO_next | apply keptO_ranged | apply keptO_fault | apply kept_iMts | apply kept_insn | apply kept_ite | split)

theorem kept_execNopInsn {z : State} (c : Nat) (s : State) (h0 : Kept z s) : KeptO z (execNopInsn c s) := by
  unfold execNopInsn
  (try dsimp only)
  repeat' with_reducible (first | assumption | apply keptO_next | apply keptO_ranged | apply keptO_fault | apply kept_iNop | apply kept_insn | apply kept_ite | split)

theorem kept_execWfe {z : State} (c : Nat) (s : State) (h0 : Kept z s) : KeptO z (execWfe c s) := by
  unfold execWfe
  (try dsimp only)
  repeat' with_reducible (first | assumption | apply keptO_next | apply keptO_ranged | apply keptO_fault | apply kept_iWfe | apply kept_insn | apply kept_ite | split)

theorem kept_execWfeWake {z : State} (c : Nat) (s : State) (h0 : Kept z s) : KeptO z (execWfeWake c s) := by
  unfold execWfeWake
  (try dsimp only)
  repeat' with_reducible (first | assumption | apply keptO_next | apply keptO_ranged | apply keptO_fault | apply kept_ranged | apply kept_wfeWake | apply kept_ite | split)

theorem kept_execFence {z : State} (c : Nat) (s : State) (h0 : Kept z s) : KeptO z (execFence c s) := by
  unfold execFence
  (try dsimp only)
  repeat' with_reducible (first | assumption | apply keptO_next | apply keptO_ranged | apply keptO_fault | apply kept_iFence | apply kept_insn | apply kept_ite | split)

theorem kept_execEret {z : State} (c : Nat) (s : State) (h0 : Kept z s) : KeptO z (execEret c s) := by
  unfold execEret
  (try dsimp only)
  repeat' with_reducible (first | assumption | apply keptO_next | apply keptO_ranged | apply keptO_fault | apply kept_iEret | apply kept_insn | apply kept_ite | split)

theorem kept_execTrap {z : State} (c code : Nat) (s : State) (h0 : Kept z s) : KeptO z (execTrap c code s) := by
  unfold execTrap
  (try dsimp only)
  repeat' with_reducible (first | assumption | apply keptO_next | apply keptO_ranged | apply keptO_fault | apply kept_iTrap | apply kept_insn | apply kept_ite | split)

theorem kept_execBrk {z : State} (c : Nat) (s : State) (h0 : Kept z s) : KeptO z (execBrk c s) := by
  unfold execBrk
  (try dsimp only)
  repeat' with_reducible (first | assumption | apply keptO_next | apply keptO_ranged | apply keptO_fault | apply kept_iBrk | apply kept_insn | apply kept_ite | split)

theorem kept_execHalt {z : State} (c : Nat) (s : State) (h0 : Kept z s) : KeptO z (execHalt c s) := by
  unfold execHalt
  (try dsimp only)
  repeat' with_reducible (first | assumption | apply keptO_next | apply keptO_ranged | apply keptO_fault | apply kept_iHalt | apply kept_insn | apply kept_ite | split)

theorem kept_execReservedOpcode {z : State} (c : Nat) (w : Word) (s : State) (h0 : Kept z s) : KeptO z (execReservedOpcode c w s) := by
  unfold execReservedOpcode
  (try dsimp only)
  repeat' with_reducible (first | assumption | apply keptO_next | apply keptO_ranged | apply keptO_fault | apply kept_ranged | apply kept_runIns | apply kept_iIllegal | apply kept_ite | split)

theorem kept_execInterrupt {z : State} (c : Nat) (s : State) (h0 : Kept z s) : KeptO z (execInterrupt c s) := by
  unfold execInterrupt
  (try dsimp only)
  repeat' with_reducible (first | assumption | apply keptO_next | apply keptO_ranged | apply keptO_fault | apply kept_ranged | apply kept_interrupt | apply kept_ite | split)

theorem kept_execBreakpoint {z : State} (c : Nat) (s : State) (h0 : Kept z s) : KeptO z (execBreakpoint c s) := by
  unfold execBreakpoint
  (try dsimp only)
  repeat' with_reducible (first | assumption | apply keptO_next | apply keptO_ranged | apply keptO_fault | apply kept_ranged | apply kept_breakpoint | apply kept_ite | split)

theorem kept_execQrx {z : State} (c rd ra : Nat) (s : State) (h0 : Kept z s) : KeptO z (execQrx c rd ra s) := by
  unfold execQrx
  (try dsimp only)
  repeat' with_reducible (first | assumption | apply keptO_next | apply keptO_ranged | apply keptO_fault | apply kept_iQrx | apply kept_insn | apply kept_ite | split)

theorem kept_execCrd {z : State} (c rd ra rb : Nat) (s : State) (h0 : Kept z s) : KeptO z (execCrd c rd ra rb s) := by
  unfold execCrd
  (try dsimp only)
  repeat' with_reducible (first | assumption | apply keptO_next | apply keptO_ranged | apply keptO_fault | apply kept_iCrd | apply kept_insn | apply kept_ite | split)

theorem kept_execCrel {z : State} (c rd ra : Nat) (s : State) (h0 : Kept z s) : KeptO z (execCrel c rd ra s) := by
  unfold execCrel
  (try dsimp only)
  repeat' with_reducible (first | assumption | apply keptO_next | apply keptO_ranged | apply keptO_fault | apply kept_iCrel | apply kept_insn | apply kept_ite | split)

theorem kept_execQwr {z : State} (c rd ra rb : Nat) (s : State) (h0 : Kept z s) : KeptO z (execQwr c rd ra rb s) := by
  unfold execQwr
  (try dsimp only)
  repeat' with_reducible (first | assumption | apply keptO_next | apply keptO_ranged | apply keptO_fault | apply kept_iQwr | apply kept_insn | apply kept_ite | split)

theorem kept_execNcmd {z : State} (c rd ra rb : Nat) (s : State) (h0 : Kept z s) : KeptO z (execNcmd c rd ra rb s) := by
  unfold execNcmd
  (try dsimp only)
  repeat' with_reducible (first | assumption | apply keptO_next | apply keptO_ranged | apply keptO_fault | apply kept_iNcmd | apply kept_insn | apply kept_ite | split)

theorem kept_execNtf {z : State} (c rd ra : Nat) (s : State) (h0 : Kept z s) : KeptO z (execNtf c rd ra s) := by
  unfold execNtf
  (try dsimp only)
  repeat' with_reducible (first | assumption | apply keptO_next | apply keptO_ranged | apply keptO_fault | apply kept_iNtf | apply kept_insn | apply kept_ite | split)

theorem kept_execLcmdCancel {z : State} (c rd ra : Nat) (s : State) (h0 : Kept z s) : KeptO z (execLcmdCancel c rd ra s) := by
  unfold execLcmdCancel
  (try dsimp only)
  repeat' with_reducible (first | assumption | apply keptO_next | apply keptO_ranged | apply keptO_fault | apply kept_iLcancel | apply kept_insn | apply kept_ite | split)

theorem kept_execCmpArm {z : State} (c rd ra : Nat) (s : State) (h0 : Kept z s) : KeptO z (execCmpArm c rd ra s) := by
  unfold execCmpArm
  (try dsimp only)
  repeat' with_reducible (first | assumption | apply keptO_next | apply keptO_ranged | apply keptO_fault | apply kept_iCmpArm | apply kept_insn | apply kept_ite | split)

theorem kept_execCmpDisarm {z : State} (c rd ra : Nat) (s : State) (h0 : Kept z s) : KeptO z (execCmpDisarm c rd ra s) := by
  unfold execCmpDisarm
  (try dsimp only)
  repeat' with_reducible (first | assumption | apply keptO_next | apply keptO_ranged | apply keptO_fault | apply kept_iCmpDisarm | apply kept_insn | apply kept_ite | split)

theorem kept_execCellWr {z : State} (c rd ra : Nat) (s : State) (h0 : Kept z s) : KeptO z (execCellWr c rd ra s) := by
  unfold execCellWr
  (try dsimp only)
  repeat' with_reducible (first | assumption | apply keptO_next | apply keptO_ranged | apply keptO_fault | apply kept_iCellWr | apply kept_insn | apply kept_ite | split)

theorem kept_execEvtFire {z : State} (c rd ra : Nat) (s : State) (h0 : Kept z s) : KeptO z (execEvtFire c rd ra s) := by
  unfold execEvtFire
  (try dsimp only)
  repeat' with_reducible (first | assumption | apply keptO_next | apply keptO_ranged | apply keptO_fault | apply kept_iEvtFire | apply kept_insn | apply kept_ite | split)

theorem kept_execEngineRun {z : State} (f : Fn) (e : Nat) (s : State) (h0 : Kept z s) : KeptO z (execEngineRun f e s) := by
  unfold execEngineRun
  (try dsimp only)
  repeat' with_reducible (first | assumption | apply keptO_next | apply keptO_ranged | apply keptO_fault | apply kept_ranged | apply kept_p0Only | apply kept_engRun | apply kept_ownEngine | apply kept_ite | split)

theorem kept_execEngineHalt {z : State} (f : Fn) (e : Nat) (s : State) (h0 : Kept z s) : KeptO z (execEngineHalt f e s) := by
  unfold execEngineHalt
  (try dsimp only)
  repeat' with_reducible (first | assumption | apply keptO_next | apply keptO_ranged | apply keptO_fault | apply kept_ranged | apply kept_p0Only | apply kept_coreHalt | apply kept_ite | split)

theorem kept_execEngineStep {z : State} (f : Fn) (e : Nat) (s : State) (h0 : Kept z s) : KeptO z (execEngineStep f e s) := by
  unfold execEngineStep
  (try dsimp only)
  repeat' with_reducible (first | assumption | apply keptO_next | apply keptO_ranged | apply keptO_fault | apply kept_ranged | apply kept_p0Only | apply kept_engRun | apply kept_ownEngine | apply kept_noDev | apply kept_stepNow | apply kept_ite | split)

theorem kept_execEngineReset {z : State} (f : Fn) (e : Nat) (s : State) (h0 : Kept z s) : KeptO z (execEngineReset f e s) := by
  unfold execEngineReset
  (try dsimp only)
  repeat' with_reducible (first | assumption | apply keptO_next | apply keptO_ranged | apply keptO_fault | apply kept_ranged | apply kept_p0Only | apply kept_engReset | apply kept_ite | split)

theorem kept_execEngineClear {z : State} (f : Fn) (e : Nat) (s : State) (h0 : Kept z s) : KeptO z (execEngineClear f e s) := by
  unfold execEngineClear
  (try dsimp only)
  repeat' with_reducible (first | assumption | apply keptO_next | apply keptO_ranged | apply keptO_fault | apply kept_ranged | apply kept_p0Only | apply kept_engReset | apply kept_ite | split)

theorem kept_execClearDone {z : State} (e : Nat) (s : State) (h0 : Kept z s) : KeptO z (execClearDone e s) := by
  unfold execClearDone
  (try dsimp only)
  repeat' with_reducible (first | assumption | apply keptO_next | apply keptO_ranged | apply keptO_fault | apply kept_ranged | apply kept_clearDone | apply kept_ite | split)

theorem kept_execImemWrite {z : State} (f : Fn) (e off : Nat) (v : Word) (s : State) (h0 : Kept z s) : KeptO z (execImemWrite f e off v s) := by
  unfold execImemWrite
  (try dsimp only)
  repeat' with_reducible (first | assumption | apply keptO_next | apply keptO_ranged | apply keptO_fault | apply kept_ranged | apply kept_p0Only | apply kept_imemWrite | apply kept_ownEngine | apply kept_ite | split)

theorem kept_execWake {z : State} (f : Fn) (c : Nat) (s : State) (h0 : Kept z s) : KeptO z (execWake f c s) := by
  unfold execWake
  (try dsimp only)
  repeat' with_reducible (first | assumption | apply keptO_next | apply keptO_ranged | apply keptO_fault | apply kept_ranged | apply kept_p0Only | apply kept_wakeCluster | apply kept_ite | split)

theorem kept_execClusterOn {z : State} (c : Nat) (s : State) (h0 : Kept z s) : KeptO z (execClusterOn c s) := by
  unfold execClusterOn
  (try dsimp only)
  repeat' with_reducible (first | assumption | apply keptO_next | apply keptO_ranged | apply keptO_fault | apply kept_ranged | apply kept_clusterOn | apply kept_ite | split)

theorem kept_execSleep {z : State} (f : Fn) (c : Nat) (s : State) (h0 : Kept z s) : KeptO z (execSleep f c s) := by
  unfold execSleep
  (try dsimp only)
  repeat' with_reducible (first | assumption | apply keptO_next | apply keptO_ranged | apply keptO_fault | apply kept_ranged | apply kept_p0Only | apply kept_sleepCluster | apply kept_ite | split)

theorem kept_execSupervisorRun {z : State} (f : Fn) (n : Nat) (s : State) (h0 : Kept z s) : KeptO z (execSupervisorRun f n s) := by
  unfold execSupervisorRun
  (try dsimp only)
  repeat' with_reducible (first | assumption | apply keptO_next | apply keptO_ranged | apply keptO_fault | apply kept_ranged | apply kept_p0Only | apply kept_supRun | apply kept_ite | split)

theorem kept_execSupervisorHalt {z : State} (f : Fn) (n : Nat) (s : State) (h0 : Kept z s) : KeptO z (execSupervisorHalt f n s) := by
  unfold execSupervisorHalt
  (try dsimp only)
  repeat' with_reducible (first | assumption | apply keptO_next | apply keptO_ranged | apply keptO_fault | apply kept_ranged | apply kept_p0Only | apply kept_coreHalt | apply kept_ite | split)

theorem kept_execSupervisorStep {z : State} (f : Fn) (n : Nat) (s : State) (h0 : Kept z s) : KeptO z (execSupervisorStep f n s) := by
  unfold execSupervisorStep
  (try dsimp only)
  repeat' with_reducible (first | assumption | apply keptO_next | apply keptO_ranged | apply keptO_fault | apply kept_ranged | apply kept_p0Only | apply kept_supRun | apply kept_stepNow | apply kept_supDev | apply kept_ite | split)

theorem kept_execSupervisorReset {z : State} (f : Fn) (n : Nat) (s : State) (h0 : Kept z s) : KeptO z (execSupervisorReset f n s) := by
  unfold execSupervisorReset
  (try dsimp only)
  repeat' with_reducible (first | assumption | apply keptO_next | apply keptO_ranged | apply keptO_fault | apply kept_ranged | apply kept_p0Only | apply kept_supReset | apply kept_ite | split)

/-- Every command keeps what was kept. -/
theorem kept_exec {z : State} (i : Instr) (s : State) (hk : Kept z s) : KeptO z (exec i s) :=
  match i with
  | .powerOn ordered => kept_execPowerOn ordered s hk
  | .resetNLow ns => kept_execResetNLow ns s hk
  | .brownOut good deep => kept_execBrownOut good deep s hk
  | .aonReset => kept_execAonReset s hk
  | .fullReset f key => kept_execFullReset f key s hk
  | .radioReset f key => kept_execRadioReset f key s hk
  | .radioReload => kept_execRadioReload s hk
  | .hostReset => kept_execHostReset s hk
  | .vfFlr n => kept_execVfFlr n s hk
  | .boot locks1 locks2 => kept_execBoot locks1 locks2 s hk
  | .startWatchdogExpiry => kept_execStartWatchdogExpiry s hk
  | .driverOk f => kept_execDriverOk f s hk
  | .registerWrite f off size acc => kept_execRegisterWrite f off size acc s hk
  | .correlationStep b t obs => kept_execCorrelationStep b t obs s hk
  | .noiseBlock b t obs => kept_execNoiseBlock b t obs s hk
  | .routineStep n peak mean => kept_execRoutineStep n peak mean s hk
  | .overRange n t samples => kept_execOverRange n t samples s hk
  | .forcedStep n => kept_execForcedStep n s hk
  | .overRangeEpisodeEnd n => kept_execOverRangeEpisodeEnd n s hk
  | .antennaEnableWrite f v => kept_execAntennaEnableWrite f v s hk
  | .manAttWrite f n v => kept_execManAttWrite f n v s hk
  | .attLimWrite f n mn mx => kept_execAttLimWrite f n mn mx s hk
  | .trimWrite f n v => kept_execTrimWrite f n v s hk
  | .cnpCntClrBlock f => kept_execCnpCntClrBlock f s hk
  | .cnpCntClrPoints f => kept_execCnpCntClrPoints f s hk
  | .cnpCntClrAnt f => kept_execCnpCntClrAnt f s hk
  | .arm f => kept_execArm f s hk
  | .captureAbort f => kept_execCaptureAbort f s hk
  | .forceTrig f => kept_execForceTrig f s hk
  | .captureTrigger => kept_execCaptureTrigger s hk
  | .captureDone air => kept_execCaptureDone air s hk
  | .candidateAllocation => kept_execCandidateAllocation s hk
  | .sfdFound l t128 coded levels amps => kept_execSfdFound l t128 coded levels amps s hk
  | .sfdTimeout l => kept_execSfdTimeout l s hk
  | .phyHeaderCheck l w mate => kept_execPhyHeaderCheck l w mate s hk
  | .laneHeader l octs => kept_execLaneHeader l octs s hk
  | .headerAnswer l => kept_execHeaderAnswer l s hk
  | .receiveCell l d => kept_execReceiveCell l d s hk
  | .descriptorCell l => kept_execDescriptorCell l s hk
  | .frameEnd l rest q => kept_execFrameEnd l rest q s hk
  | .deliveryDrop l => kept_execDeliveryDrop l s hk
  | .lneCntClrBlock f => kept_execLneCntClrBlock f s hk
  | .lneCntClrPart f => kept_execLneCntClrPart f s hk
  | .lneCntClrFlt f => kept_execLneCntClrFlt f s hk
  | .verifyIssue k => kept_execVerifyIssue k s hk
  | .verifyResult k => kept_execVerifyResult k s hk
  | .frameCommit k => kept_execFrameCommit k s hk
  | .engineDelivery k => kept_execEngineDelivery k s hk
  | .rxDelivery k => kept_execRxDelivery k s hk
  | .ackBuild k => kept_execAckBuild k s hk
  | .ackWaitClose k => kept_execAckWaitClose k s hk
  | .deadlineExpiry h => kept_execDeadlineExpiry h s hk
  | .schedulerPlace h => kept_execSchedulerPlace h s hk
  | .airtimePeriodBoundary => kept_execAirtimePeriodBoundary s hk
  | .tschSlotRead asn => kept_execTschSlotRead asn s hk
  | .sequencerState k => kept_execSequencerState k s hk
  | .sequencerClamp k => kept_execSequencerClamp k s hk
  | .scheduleItem => kept_execScheduleItem s hk
  | .prepare e => kept_execPrepare e s hk
  | .encryptResult e => kept_execEncryptResult e s hk
  | .priming e => kept_execPriming e s hk
  | .primed e => kept_execPrimed e s hk
  | .coexRequest e => kept_execCoexRequest e s hk
  | .grantSample e gnt => kept_execGrantSample e gnt s hk
  | .commit e => kept_execCommit e s hk
  | .rampUp e => kept_execRampUp e s hk
  | .rampDownEnd e => kept_execRampDownEnd e s hk
  | .coexRelease k => kept_execCoexRelease k s hk
  | .chainIdle n => kept_execChainIdle n s hk
  | .kill f n => kept_execKill f n s hk
  | .chainFaultEvent n => kept_execChainFaultEvent n s hk
  | .cellFault e => kept_execCellFault e s hk
  | .faultClr f n => kept_execFaultClr f n s hk
  | .corrWrite f n x => kept_execCorrWrite f n x s hk
  | .corrRead f n x => kept_execCorrRead f n x s hk
  | .clearValid f n x => kept_execClearValid f n x s hk
  | .tempGainDerive => kept_execTempGainDerive s hk
  | .txcCntClrBlock f => kept_execTxcCntClrBlock f s hk
  | .txcCntClrChain f => kept_execTxcCntClrChain f s hk
  | .txcCntClrCoex f => kept_execTxcCntClrCoex f s hk
  | .cmpArmWrite f k hi => kept_execCmpArmWrite f k hi s hk
  | .comparatorFire k => kept_execComparatorFire k s hk
  | .disarm f k => kept_execDisarm f k s hk
  | .panEntryWrite f k w v => kept_execPanEntryWrite f k w v s hk
  | .tschEnableWrite f en => kept_execTschEnableWrite f en s hk
  | .tschCellWrite f c w v => kept_execTschCellWrite f c w v s hk
  | .lnkCntClrBlock f => kept_execLnkCntClrBlock f s hk
  | .lnkCntClrPart f => kept_execLnkCntClrPart f s hk
  | .nodeOpAdd f v => kept_execNodeOpAdd f v s hk
  | .nodeOpUpdate f v => kept_execNodeOpUpdate f v s hk
  | .nodeOpPrune f v => kept_execNodeOpPrune f v s hk
  | .nodeOpRead f v => kept_execNodeOpRead f v s hk
  | .nodeOpQset f v => kept_execNodeOpQset f v s hk
  | .pruneComplete h => kept_execPruneComplete h s hk
  | .sweepDone h => kept_execSweepDone h s hk
  | .ntwCapture f h => kept_execNtwCapture f h s hk
  | .ntwWrite f off v => kept_execNtwWrite f off v s hk
  | .rxReserveWrite f v => kept_execRxReserveWrite f v s hk
  | .queCntClrBlock f => kept_execQueCntClrBlock f s hk
  | .queCntClrPart f => kept_execQueCntClrPart f s hk
  | .mapEntryWrite f off v => kept_execMapEntryWrite f off v s hk
  | .shareWrite f off v => kept_execShareWrite f off v s hk
  | .partitionEnableWrite f p en => kept_execPartitionEnableWrite f p en s hk
  | .full f p => kept_execFull f p s hk
  | .depart f p => kept_execDepart f p s hk
  | .partitionResetDone p => kept_execPartitionResetDone p s hk
  | .fltPop f => kept_execFltPop f s hk
  | .prtCntClrBlock f => kept_execPrtCntClrBlock f s hk
  | .prtCntClrPart f => kept_execPrtCntClrPart f s hk
  | .add c rd ra rb => kept_execAdd c rd ra rb s hk
  | .sub c rd ra rb => kept_execSub c rd ra rb s hk
  | .andr c rd ra rb => kept_execAnd c rd ra rb s hk
  | .orr c rd ra rb => kept_execOr c rd ra rb s hk
  | .xorr c rd ra rb => kept_execXor c rd ra rb s hk
  | .sll c rd ra rb => kept_execSll c rd ra rb s hk
  | .srl c rd ra rb => kept_execSrl c rd ra rb s hk
  | .sra c rd ra rb => kept_execSra c rd ra rb s hk
  | .slt c rd ra rb => kept_execSlt c rd ra rb s hk
  | .sltu c rd ra rb => kept_execSltu c rd ra rb s hk
  | .min c rd ra rb => kept_execMin c rd ra rb s hk
  | .max c rd ra rb => kept_execMax c rd ra rb s hk
  | .mul c rd ra rb => kept_execMul c rd ra rb s hk
  | .mulhu c rd ra rb => kept_execMulhu c rd ra rb s hk
  | .mulh c rd ra rb => kept_execMulh c rd ra rb s hk
  | .divu c rd ra rb => kept_execDivu c rd ra rb s hk
  | .remu c rd ra rb => kept_execRemu c rd ra rb s hk
  | .clz c rd ra => kept_execClz c rd ra s hk
  | .popc c rd ra => kept_execPopc c rd ra s hk
  | .bswap c rd ra => kept_execBswap c rd ra s hk
  | .addi c rd ra imm => kept_execAddi c rd ra imm s hk
  | .andi c rd ra imm => kept_execAndi c rd ra imm s hk
  | .ori c rd ra imm => kept_execOri c rd ra imm s hk
  | .xori c rd ra imm => kept_execXori c rd ra imm s hk
  | .slti c rd ra imm => kept_execSlti c rd ra imm s hk
  | .sltiu c rd ra imm => kept_execSltiu c rd ra imm s hk
  | .lui c rd imm => kept_execLui c rd imm s hk
  | .shi c rd ra imm => kept_execShi c rd ra imm s hk
  | .extu c rd ra imm => kept_execExtu c rd ra imm s hk
  | .ins c rd ra imm => kept_execIns c rd ra imm s hk
  | .lw c rd ra imm => kept_execLw c rd ra imm s hk
  | .lh c rd ra imm => kept_execLh c rd ra imm s hk
  | .lhu c rd ra imm => kept_execLhu c rd ra imm s hk
  | .lb c rd ra imm => kept_execLb c rd ra imm s hk
  | .lbu c rd ra imm => kept_execLbu c rd ra imm s hk
  | .sw c rd ra imm => kept_execSw c rd ra imm s hk
  | .sh c rd ra imm => kept_execSh c rd ra imm s hk
  | .sb c rd ra imm => kept_execSb c rd ra imm s hk
  | .lr c rd ra imm => kept_execLr c rd ra imm s hk
  | .sc c rd ra rb => kept_execSc c rd ra rb s hk
  | .tas c rd ra imm => kept_execTas c rd ra imm s hk
  | .beq c ra rb off => kept_execBeq c ra rb off s hk
  | .bne c ra rb off => kept_execBne c ra rb off s hk
  | .blt c ra rb off => kept_execBlt c ra rb off s hk
  | .bge c ra rb off => kept_execBge c ra rb off s hk
  | .bltu c ra rb off => kept_execBltu c ra rb off s hk
  | .bgeu c ra rb off => kept_execBgeu c ra rb off s hk
  | .bbs c ra b off => kept_execBbs c ra b off s hk
  | .bbc c ra b off => kept_execBbc c ra b off s hk
  | .j c off => kept_execJ c off s hk
  | .jal c off => kept_execJal c off s hk
  | .jr c ra => kept_execJr c ra s hk
  | .jalr c rd ra => kept_execJalr c rd ra s hk
  | .loop c ra off => kept_execLoop c ra off s hk
  | .loopi c cnt off => kept_execLoopi c cnt off s hk
  | .mfs c rd n => kept_execMfs c rd n s hk
  | .mts c n ra => kept_execMts c n ra s hk
  | .nopInsn c => kept_execNopInsn c s hk
  | .wfe c => kept_execWfe c s hk
  | .wfeWake c => kept_execWfeWake c s hk
  | .fence c => kept_execFence c s hk
  | .eret c => kept_execEret c s hk
  | .trap c code => kept_execTrap c code s hk
  | .brk c => kept_execBrk c s hk
  | .halt c => kept_execHalt c s hk
  | .qrx c rd ra => kept_execQrx c rd ra s hk
  | .crd c rd ra rb => kept_execCrd c rd ra rb s hk
  | .crel c rd ra => kept_execCrel c rd ra s hk
  | .qwr c rd ra rb => kept_execQwr c rd ra rb s hk
  | .ntf c rd ra => kept_execNtf c rd ra s hk
  | .lcmdCancel c rd ra => kept_execLcmdCancel c rd ra s hk
  | .cmpArm c rd ra => kept_execCmpArm c rd ra s hk
  | .cmpDisarm c rd ra => kept_execCmpDisarm c rd ra s hk
  | .cellWr c rd ra => kept_execCellWr c rd ra s hk
  | .evtFire c rd ra => kept_execEvtFire c rd ra s hk
  | .interrupt c => kept_execInterrupt c s hk
  | .breakpoint c => kept_execBreakpoint c s hk
  | .engineRun f e => kept_execEngineRun f e s hk
  | .engineHalt f e => kept_execEngineHalt f e s hk
  | .engineStep f e => kept_execEngineStep f e s hk
  | .engineReset f e => kept_execEngineReset f e s hk
  | .engineClear f e => kept_execEngineClear f e s hk
  | .clearDone e => kept_execClearDone e s hk
  | .imemWrite f e off v => kept_execImemWrite f e off v s hk
  | .wake f c => kept_execWake f c s hk
  | .clusterOn c => kept_execClusterOn c s hk
  | .sleep f c => kept_execSleep f c s hk
  | .supervisorRun f n => kept_execSupervisorRun f n s hk
  | .supervisorHalt f n => kept_execSupervisorHalt f n s hk
  | .supervisorStep f n => kept_execSupervisorStep f n s hk
  | .supervisorReset f n => kept_execSupervisorReset f n s hk
  | .load f slot long => kept_execLoad f slot long s hk
  | .replace f slot long => kept_execReplace f slot long s hk
  | .erase f slot long => kept_execErase f slot long s hk
  | .status f slot long => kept_execStatus f slot long s hk
  | .kopDone => kept_execKopDone s hk
  | .sealOp f long => kept_execSeal f long s hk
  | .unsealOp f long => kept_execUnseal f long s hk
  | .sealDone => kept_execSealDone s hk
  | .markPop f => kept_execMarkPop f s hk
  | .alarm a rx tx => kept_execAlarm a rx tx s hk
  | .alarmClear f v present => kept_execAlarmClear f v present s hk
  | .rngHealthFail apt => kept_execRngHealthFail apt s hk
  | .rngOk => kept_execRngOk s hk
  | .reseed => kept_execReseed s hk
  | .secCntClrBlock f => kept_execSecCntClrBlock f s hk
  | .secCntClrPart f => kept_execSecCntClrPart f s hk
  | .portEnable f q => kept_execPortEnable f q s hk
  | .portDisable f q => kept_execPortDisable f q s hk
  | .portDisabled q => kept_execPortDisabled q s hk
  | .sqTail f q v => kept_execSqTail f q v s hk
  | .cqHead f q v => kept_execCqHead f q v s hk
  | .fetch q d => kept_execFetch q d s hk
  | .nop x => kept_execNop x s hk
  | .tx x d => kept_execTx x d s hk
  | .cancel x => kept_execCancel x s hk
  | .postRx x => kept_execPostRx x s hk
  | .rxFlush x => kept_execRxFlush x s hk
  | .nodeAdd x d => kept_execNodeAdd x d s hk
  | .nodeUpdate x d => kept_execNodeUpdate x d s hk
  | .nodePrune x => kept_execNodePrune x s hk
  | .nodeRead x => kept_execNodeRead x s hk
  | .nodeQset x => kept_execNodeQset x s hk
  | .nodeExport x => kept_execNodeExport x s hk
  | .keyLoad x d => kept_execKeyLoad x d s hk
  | .keyReplace x d => kept_execKeyReplace x d s hk
  | .keyErase x => kept_execKeyErase x s hk
  | .keyStatus x => kept_execKeyStatus x s hk
  | .engCtrl x => kept_execEngCtrl x s hk
  | .engWrite x d => kept_execEngWrite x d s hk
  | .engRead x => kept_execEngRead x s hk
  | .completionWrite q => kept_execCompletionWrite q s hk
  | .modTime q => kept_execModTime q s hk
  | .featureCommit f => kept_execFeatureCommit f s hk
  | .vfEnable num => kept_execVfEnable num s hk
  | .vfCntClr n => kept_execVfCntClr n s hk
  | .hstCntClrBlock f => kept_execHstCntClrBlock f s hk
  | .hstCntClrPart f => kept_execHstCntClrPart f s hk
  | .baseLoad f sup locks => kept_execBaseLoad f sup locks s hk
  | .liveLoad f sup => kept_execLiveLoad f sup s hk
  | .liveSwitch => kept_execLiveSwitch s hk
  | .loadAbort f => kept_execLoadAbort f s hk
  | .loadDone => kept_execLoadDone s hk
  | .graftCheck f v => kept_execGraftCheck f v s hk
  | .graftArm f v => kept_execGraftArm f v s hk
  | .confirm f v => kept_execConfirm f v s hk
  | .raiseFloor f v => kept_execRaiseFloor f v s hk
  | .withdraw f v => kept_execWithdraw f v s hk
  | .graftDone => kept_execGraftDone s hk
  | .write f v => kept_execWrite f v s hk
  | .read f v => kept_execRead f v s hk
  | .resetGen f v => kept_execResetGen f v s hk
  | .ldgDone => kept_execLdgDone s hk
  | .programKey f v => kept_execProgramKey f v s hk
  | .revokeKey f v => kept_execRevokeKey f v s hk
  | .setLimit f v => kept_execSetLimit f v s hk
  | .fuseDone fail => kept_execFuseDone fail s hk
  | .program f v => kept_execProgram f v s hk
  | .eraseSector f v => kept_execEraseSector f v s hk
  | .eraseBlock f v => kept_execEraseBlock f v s hk
  | .suspend f v => kept_execSuspend f v s hk
  | .resume f v => kept_execResume f v s hk
  | .abort f v => kept_execAbort f v s hk
  | .opDone fail spares => kept_execOpDone fail spares s hk
  | .windowRead f off flips => kept_execWindowRead f off flips s hk
  | .flashBrownOut pos => kept_execFlashBrownOut pos s hk
  | .run f => kept_execRun f s hk
  | .trim f => kept_execTrim f s hk
  | .watch f => kept_execWatch f s hk
  | .dormant f => kept_execDormant f s hk
  | .quiescenceTimeout => kept_execQuiescenceTimeout s hk
  | .linkL2Ready => kept_execLinkL2Ready s hk
  | .wakeIn lvl => kept_execWakeIn lvl s hk
  | .airWake chan sf d => kept_execAirWake chan sf d s hk
  | .wakeReturn locks => kept_execWakeReturn locks s hk
  | .wakeTimeout => kept_execWakeTimeout s hk
  | .retentionLoss => kept_execRetentionLoss s hk
  | .holdover => kept_execHoldover s hk
  | .leaveGrant => kept_execLeaveGrant s hk
  | .tempSample temp => kept_execTempSample temp s hk
  | .vbakMeasure mv uah => kept_execVbakMeasure mv uah s hk
  | .recal f => kept_execRecal f s hk
  | .pwrCntClr f => kept_execPwrCntClr f s hk
  | .synEnable f => kept_execSynEnable f s hk
  | .synLock band us => kept_execSynLock band us s hk
  | .refLoss => kept_execRefLoss s hk
  | .refBack => kept_execRefBack s hk
  | .synUnlock => kept_execSynUnlock s hk
  | .alignerRelease => kept_execAlignerRelease s hk
  | .syncMissing => kept_execSyncMissing s hk
  | .alnLock => kept_execAlnLock s hk
  | .syncinEdge t ph => kept_execSyncinEdge t ph s hk
  | .syncSlip => kept_execSyncSlip s hk
  | .syncoutPulse => kept_execSyncoutPulse s hk
  | .clkoutEnable f n en => kept_execClkoutEnable f n en s hk
  | .atbBridge => kept_execAtbBridge s hk
  | .rtcSecond => kept_execRtcSecond s hk
  | .xkFail => kept_execXkFail s hk
  | .rtcFreeze f r => kept_execRtcFreeze f r s hk
  | .freezeTimeout => kept_execFreezeTimeout s hk
  | .rtcHaltWrite f h => kept_execRtcHaltWrite f h s hk
  | .secondsWrite f hi => kept_execSecondsWrite f hi s hk
  | .rtcAlarmArm f hi => kept_execRtcAlarmArm f hi s hk
  | .rtcAlarmFire => kept_execRtcAlarmFire s hk
  | .rtcDisarm f => kept_execRtcDisarm f s hk
  | .timerWrap k => kept_execTimerWrap k s hk
  | .timerCompare k x => kept_execTimerCompare k x s hk
  | .preloadWrite f k r v => kept_execPreloadWrite f k r v s hk
  | .clr f k => kept_execClr f k s hk
  | .timStart f v => kept_execTimStart f v s hk
  | .timStop f v => kept_execTimStop f v s hk
  | .eventPulse ch ph => kept_execEventPulse ch ph s hk
  | .evrFire f ch => kept_execEvrFire f ch s hk
  | .evrCntClr f => kept_execEvrCntClr f s hk
  | .channelCfgWrite f ch v => kept_execChannelCfgWrite f ch v s hk
  | .gpioEdge p lvl => kept_execGpioEdge p lvl s hk
  | .gpioSet f v => kept_execGpioSet f v s hk
  | .gpioClr f v => kept_execGpioClr f v s hk
  | .twaWrite addr d => kept_execTwaWrite addr d s hk
  | .twaRead addr n ready => kept_execTwaRead addr n ready s hk
  | .twaTimeout => kept_execTwaTimeout s hk
  | .start f v => kept_execStart f v s hk
  | .twbDone r => kept_execTwbDone r s hk
  | .stretchTimeout low => kept_execStretchTimeout low s hk
  | .busRecovery => kept_execBusRecovery s hk
  | .biasOn f n => kept_execBiasOn f n s hk
  | .rampDone n => kept_execRampDone n s hk
  | .biasOff f n => kept_execBiasOff f n s hk
  | .biasTrip n => kept_execBiasTrip n s hk
  | .biasFaultClr f n => kept_execBiasFaultClr f n s hk
  | .biasCurrentSample n ma => kept_execBiasCurrentSample n ma s hk
  | .ncmd c rd ra rb => kept_execNcmd c rd ra rb s hk
  | .reservedOpcode c w => kept_execReservedOpcode c w s hk
  | .badOpcode x => kept_execBadOpcode x s hk
  | .taintEnd n b => kept_execTaintEnd n b s hk
  | .gntDrop e k => kept_execGntDrop e k s hk
  | .xkEdgesReturn => kept_execXkEdgesReturn s hk
  | .supplyRecovery => kept_execSupplyRecovery s hk
  | .holdoffEnd n => kept_execHoldoffEnd n s hk
  | .busMasterEnable n en => kept_execBusMasterEnable n en s hk

end Sys2Proof.Machine
end

