-- ==== Sys2Proof/Laws/Fields.lean ====
section
/-! SUPPORT. Registers and their fields, bytes of memory and a core's registers: what is read after a write. -/

namespace Sys2Proof.Machine

/-! ## Bit fields -/

theorem bf_lt {n : Nat} (x : BitVec n) (lo w : Nat) : bf x lo w < 2 ^ w := Nat.mod_lt _ (Nat.two_pow_pos w)

/-- A number with bits lo to lo + w - 1 replaced, as its parts. -/
theorem split_field (x lo w : Nat) : x = x / 2 ^ lo / 2 ^ w * 2 ^ w * 2 ^ lo + x / 2 ^ lo % 2 ^ w * 2 ^ lo + x % 2 ^ lo := by
  have h1 := Nat.div_add_mod x (2 ^ lo)
  have h2 := Nat.div_add_mod (x / 2 ^ lo) (2 ^ w)
  calc x = 2 ^ lo * (x / 2 ^ lo) + x % 2 ^ lo := h1.symm
    _ = 2 ^ lo * (2 ^ w * (x / 2 ^ lo / 2 ^ w) + x / 2 ^ lo % 2 ^ w) + x % 2 ^ lo := by rw [h2]
    _ = _ := by ring

theorem field_small {v r w lo : Nat} (hv : v < 2 ^ w) (hr : r < 2 ^ lo) : v * 2 ^ lo + r < 2 ^ w * 2 ^ lo :=
  calc v * 2 ^ lo + r < v * 2 ^ lo + 2 ^ lo := Nat.add_lt_add_left hr _
    _ = (v + 1) * 2 ^ lo := by ring
    _ ≤ 2 ^ w * 2 ^ lo := Nat.mul_le_mul_right _ hv

/-- What a field replacement gives, as a number. -/
theorem bfSet_toNat {n : Nat} (x : BitVec n) (lo w v : Nat) (h : lo + w ≤ n) :
    (bfSet x lo w v).toNat = x.toNat / 2 ^ lo / 2 ^ w * 2 ^ w * 2 ^ lo + v % 2 ^ w * 2 ^ lo + x.toNat % 2 ^ lo := by
  have hs := split_field x.toNat lo w
  have hb : bf x lo w = x.toNat / 2 ^ lo % 2 ^ w := rfl
  have hx := x.isLt
  have hp : 2 ^ n = 2 ^ (n - (lo + w)) * 2 ^ w * 2 ^ lo := by
    rw [← pow_add, ← pow_add]
    congr 1
    omega
  have hq : x.toNat / 2 ^ lo / 2 ^ w < 2 ^ (n - (lo + w)) := by
    rw [Nat.div_div_eq_div_mul, Nat.div_lt_iff_lt_mul (by positivity)]
    calc x.toNat < 2 ^ n := hx
      _ = 2 ^ (n - (lo + w)) * (2 ^ lo * 2 ^ w) := by rw [hp]; ring
  have hv : v % 2 ^ w < 2 ^ w := Nat.mod_lt _ (Nat.two_pow_pos w)
  have hl : x.toNat % 2 ^ lo < 2 ^ lo := Nat.mod_lt _ (Nat.two_pow_pos lo)
  have hlt : x.toNat / 2 ^ lo / 2 ^ w * 2 ^ w * 2 ^ lo + v % 2 ^ w * 2 ^ lo + x.toNat % 2 ^ lo < 2 ^ n := by
    have h1 : v % 2 ^ w * 2 ^ lo + x.toNat % 2 ^ lo < 2 ^ w * 2 ^ lo := field_small hv hl
    have h2 : (x.toNat / 2 ^ lo / 2 ^ w + 1) * (2 ^ w * 2 ^ lo) ≤ 2 ^ (n - (lo + w)) * (2 ^ w * 2 ^ lo) := Nat.mul_le_mul_right _ hq
    rw [hp]
    nlinarith
  unfold bfSet
  rw [BitVec.toNat_ofNat, hb]
  have he : x.toNat - x.toNat / 2 ^ lo % 2 ^ w * 2 ^ lo + v % 2 ^ w * 2 ^ lo =
      x.toNat / 2 ^ lo / 2 ^ w * 2 ^ w * 2 ^ lo + v % 2 ^ w * 2 ^ lo + x.toNat % 2 ^ lo := by omega
  rw [he]
  exact Nat.mod_eq_of_lt hlt

/-- A field reads what was put into it. -/
theorem bf_bfSet_same {n : Nat} (x : BitVec n) (lo w v : Nat) (h : lo + w ≤ n) : bf (bfSet x lo w v) lo w = v % 2 ^ w := by
  unfold bf
  rw [bfSet_toNat x lo w v h]
  have hl : x.toNat % 2 ^ lo < 2 ^ lo := Nat.mod_lt _ (Nat.two_pow_pos lo)
  have e : x.toNat / 2 ^ lo / 2 ^ w * 2 ^ w * 2 ^ lo + v % 2 ^ w * 2 ^ lo + x.toNat % 2 ^ lo =
      x.toNat % 2 ^ lo + (v % 2 ^ w + x.toNat / 2 ^ lo / 2 ^ w * 2 ^ w) * 2 ^ lo := by ring
  rw [e, Nat.add_mul_div_right _ _ (Nat.two_pow_pos lo), Nat.div_eq_of_lt hl, Nat.zero_add, Nat.add_mul_mod_self_right, Nat.mod_mod]

/-- A field above or below the one replaced reads as before. -/
theorem bf_bfSet_other {n : Nat} (x : BitVec n) (lo w v lo' w' : Nat) (h : lo + w ≤ n) (hd : lo' + w' ≤ lo ∨ lo + w ≤ lo') :
    bf (bfSet x lo w v) lo' w' = bf x lo' w' := by
  unfold bf
  rw [bfSet_toNat x lo w v h]
  have hl : x.toNat % 2 ^ lo < 2 ^ lo := Nat.mod_lt _ (Nat.two_pow_pos lo)
  rcases hd with hd | hd
  · have e1 : x.toNat / 2 ^ lo / 2 ^ w * 2 ^ w * 2 ^ lo + v % 2 ^ w * 2 ^ lo + x.toNat % 2 ^ lo =
        x.toNat % 2 ^ lo + (x.toNat / 2 ^ lo / 2 ^ w * 2 ^ w + v % 2 ^ w) * 2 ^ lo := by ring
    have key : ∀ y : Nat, y / 2 ^ lo' % 2 ^ w' = (y % 2 ^ lo) / 2 ^ lo' % 2 ^ w' := by
      intro y
      have hy : 2 ^ lo = 2 ^ (lo - lo' - w') * 2 ^ w' * 2 ^ lo' := by
        rw [← pow_add, ← pow_add]
        congr 1
        omega
      rw [hy, Nat.mul_comm _ (2 ^ lo'), Nat.mod_mul_right_div_self, Nat.mul_comm _ (2 ^ w'), Nat.mod_mul_right_mod]
    rw [key, e1, Nat.add_mul_mod_self_right, Nat.mod_mod, ← key]
  · have hv : v % 2 ^ w < 2 ^ w := Nat.mod_lt _ (Nat.two_pow_pos w)
    have key : ∀ q r : Nat, r < 2 ^ lo * 2 ^ w → (q * (2 ^ lo * 2 ^ w) + r) / 2 ^ lo' = q * (2 ^ lo * 2 ^ w) / 2 ^ lo' := by
      intro q r hr
      have hy : 2 ^ lo' = 2 ^ lo * 2 ^ w * 2 ^ (lo' - lo - w) := by
        rw [← pow_add, ← pow_add]
        congr 1
        omega
      have hM : 0 < 2 ^ lo * 2 ^ w := by positivity
      rw [hy]
      generalize 2 ^ lo * 2 ^ w = M at hr hM
      rw [← Nat.div_div_eq_div_mul, ← Nat.div_div_eq_div_mul, Nat.mul_comm q, Nat.mul_add_div hM, Nat.div_eq_of_lt hr, Nat.add_zero,
        Nat.mul_div_cancel_left _ hM]
    have e2 : x.toNat / 2 ^ lo / 2 ^ w * 2 ^ w * 2 ^ lo + v % 2 ^ w * 2 ^ lo + x.toNat % 2 ^ lo =
        x.toNat / 2 ^ lo / 2 ^ w * (2 ^ lo * 2 ^ w) + (v % 2 ^ w * 2 ^ lo + x.toNat % 2 ^ lo) := by ring
    have e3 : x.toNat = x.toNat / 2 ^ lo / 2 ^ w * (2 ^ lo * 2 ^ w) + (x.toNat / 2 ^ lo % 2 ^ w * 2 ^ lo + x.toNat % 2 ^ lo) := by
      have := split_field x.toNat lo w
      nlinarith
    have hr : x.toNat / 2 ^ lo % 2 ^ w < 2 ^ w := Nat.mod_lt _ (Nat.two_pow_pos w)
    have c := Nat.mul_comm (2 ^ lo) (2 ^ w)
    rw [e2, key _ _ (c ▸ field_small hv hl)]
    conv_rhs => rw [e3, key _ _ (c ▸ field_small hr hl)]

/-! ## Registers -/

/-- A register reads what was written to it. -/
theorem reg_setReg_same (s : State) (a : Nat) (v : Word) (h : swf regReset s.regs = true) : (s.setReg a v).reg a = v :=
  sget_sset_same regReset s.regs a v h

/-- Every other register reads as before. -/
theorem reg_setReg_other (s : State) (a b : Nat) (v : Word) (hb : b ≠ a) (h : swf regReset s.regs = true) : (s.setReg a v).reg b = s.reg b :=
  sget_sset_other regReset s.regs a b v hb h

theorem inv_regs {s : State} (h : s.inv = true) : swf regReset s.regs = true := (kept_refl h).2.1

theorem inv_mem {s : State} (h : s.inv = true) : Memory.wf s.mem = true := (kept_refl h).2.2.2.1

theorem inv_cores {s : State} (h : s.inv = true) : coresWf s.eng.cores = true := (kept_refl h).2.2.2.2.2

/-- A field reads what was written to it, cut to its width. -/
theorem rd_wr_same (s : State) (f : RegFld) (v : Nat) (hf : f.lo + f.w ≤ 32) (h : s.inv = true) : (s.wr f v).rd f = v % 2 ^ f.w := by
  unfold State.rd State.wr
  rw [reg_setReg_same _ _ _ (inv_regs h), bf_bfSet_same _ _ _ _ hf]

/-- A field of another register reads as before. -/
theorem rd_wr_other (s : State) (f g : RegFld) (v : Nat) (hg : g.addr ≠ f.addr) (h : s.inv = true) : (s.wr f v).rd g = s.rd g := by
  unfold State.rd State.wr
  rw [reg_setReg_other _ _ _ _ hg (inv_regs h)]

/-- Another field of the same register reads as before. -/
theorem rd_wr_beside (s : State) (f g : RegFld) (v : Nat) (hf : f.lo + f.w ≤ 32) (hg : g.addr = f.addr)
    (hd : g.lo + g.w ≤ f.lo ∨ f.lo + f.w ≤ g.lo) (h : s.inv = true) : (s.wr f v).rd g = s.rd g := by
  unfold State.rd State.wr
  rw [hg, reg_setReg_same _ _ _ (inv_regs h), bf_bfSet_other _ _ _ _ _ _ hf hd]

theorem reg_wr_other (s : State) (f : RegFld) (v a : Nat) (ha : a ≠ f.addr) (h : s.inv = true) : (s.wr f v).reg a = s.reg a :=
  reg_setReg_other _ _ _ _ ha (inv_regs h)

theorem inv_setReg {s : State} (h : s.inv = true) (a : Nat) (v : Word) : (s.setReg a v).inv = true := kept_inv (kept_setReg s a v (kept_refl h))

theorem inv_wr {s : State} (h : s.inv = true) (f : RegFld) (v : Nat) : (s.wr f v).inv = true := kept_inv (kept_wr s f v (kept_refl h))

theorem inv_raise {s : State} (h : s.inv = true) (c b : Nat) : (s.raise c b).inv = true := kept_inv (kept_raise s c b (kept_refl h))

theorem inv_elapse {s : State} (h : s.inv = true) (n : Nat) : (s.elapse n).inv = true := kept_inv (kept_elapse n s (kept_refl h))

/-! ## Bytes -/

theorem sget_putMem_other (a : Nat) : ∀ (bs : List Byte) (k : Nat) (m : List Host.Cell), Memory.wf m = true → a < k ∨ k + bs.length ≤ a →
    sget (fun _ => 0) (putMem bs k m) a = sget (fun _ => 0) m a
  | [], _, _, _, _ => rfl
  | b :: bs, k, m, h, ha => by
    simp only [List.length_cons] at ha
    rw [putMem, sget_putMem_other a bs (k + 1) _ (sset_swf _ m k b h) (by omega)]
    exact sget_sset_other _ m k a b (by omega) h

/-- A byte outside the bytes stored reads as before. -/
theorem byte_store_other (s : State) (w : Option Nat) (k a : Nat) (bs : List Byte) (h : Memory.wf s.mem = true) (ha : a < k ∨ k + bs.length ≤ a) :
    (s.store w k bs).byte a = s.byte a := by
  unfold State.byte
  split
  · rfl
  · exact sget_putMem_other a bs k _ h ha

theorem sget_putMem_at : ∀ (bs : List Byte) (k i : Nat) (m : List Host.Cell), Memory.wf m = true → i < bs.length →
    sget (fun _ => 0) (putMem bs k m) (k + i) = bs.getD i 0
  | [], _, _, _, _, hi => absurd hi (Nat.not_lt_zero _)
  | b :: bs, k, 0, m, h, _ => by
    rw [putMem, sget_putMem_other (k + 0) bs (k + 1) _ (sset_swf _ m k b h) (by omega)]
    exact sget_sset_same _ m k b h
  | b :: bs, k, i + 1, m, h, hi => by
    rw [putMem, show k + (i + 1) = (k + 1) + i by omega, sget_putMem_at bs (k + 1) i _ (sset_swf _ m k b h) (by simpa using hi)]
    rfl

/-- A stored byte reads what was stored, outside the boot ROM. -/
theorem byte_store_at (s : State) (w : Option Nat) (k i : Nat) (bs : List Byte) (h : Memory.wf s.mem = true) (hi : i < bs.length)
    (hr : k + i < 0x3000000 ∨ 0x3020000 ≤ k + i) : (s.store w k bs).byte (k + i) = bs.getD i 0 := by
  unfold State.byte
  rw [if_neg (by omega)]
  exact sget_putMem_at bs k i _ h hi

/-! ## Cores -/

/-- A core's record is what was put there; every other core's is as before. -/
theorem core_setCore (s : State) (c d : Nat) (k : FCore) (h : s.inv = true) : (s.setCore c k).core d = if d = c then k else s.core d := by
  have hm : swf (fun _ => ({} : FCore)) s.eng.cores = true := by
    have := inv_cores h
    simp only [coresWf, Bool.and_eq_true] at this
    exact this.1
  unfold State.core State.setCore
  split
  · rename_i e
    subst e
    exact sget_sset_same _ _ _ _ hm
  · rename_i e
    exact sget_sset_other _ _ _ _ _ e hm

/-- g0 reads as zero whatever is written (R215). -/
theorem g_zero (s : State) (c : Nat) : s.g c 0 = 0 := rfl

/-- A written register reads what was written, every other one of every core as before; g0 discards it (R215). -/
theorem g_setG (s : State) (c r d q : Nat) (v : Word) (h : s.inv = true) :
    (s.setG c r v).g d q = if d = c ∧ q = r ∧ r ≠ 0 then v else s.g d q := by
  have hc := coresWf_core _ c (inv_cores h)
  simp only [coreWf, Bool.and_eq_true] at hc
  unfold State.setG
  split
  · rename_i e
    simp [e]
  · rename_i hr
    unfold State.g
    rw [core_setCore _ _ _ _ h]
    by_cases hq : q = 0
    · subst hq
      simp only [if_true]
      rw [if_neg (by omega)]
    · rw [if_neg hq, if_neg hq]
      by_cases hd : d = c
      · subst hd
        rw [if_pos rfl]
        by_cases hqr : q = r
        · subst hqr
          rw [if_pos ⟨rfl, rfl, hr⟩]
          exact sget_sset_same _ _ _ _ hc.1.1
        · rw [if_neg (by tauto)]
          exact sget_sset_other _ _ _ _ _ hqr hc.1.1
      · rw [if_neg hd, if_neg (by tauto)]

end Sys2Proof.Machine
end

