-- ==== Sys2Proof/Laws/State.lean ====
section
/-! SUPPORT. The fields of the state after each plain update: those that the update does not name are as before. -/

namespace Sys2Proof.Machine

@[simp] theorem setReg_pending (s : State) (a : Nat) (v : Word) : (State.setReg s a v).pending = s.pending := rfl
@[simp] theorem setReg_free (s : State) (a : Nat) (v : Word) : (State.setReg s a v).free = s.free := rfl
@[simp] theorem setReg_now (s : State) (a : Nat) (v : Word) : (State.setReg s a v).now = s.now := rfl
@[simp] theorem setReg_atb (s : State) (a : Nat) (v : Word) : (State.setReg s a v).atb = s.atb := rfl
@[simp] theorem setReg_shadow (s : State) (a : Nat) (v : Word) : (State.setReg s a v).shadow = s.shadow := rfl
@[simp] theorem setReg_heldLo (s : State) (a : Nat) (v : Word) : (State.setReg s a v).heldLo = s.heldLo := rfl
@[simp] theorem setReg_vregs (s : State) (a : Nat) (v : Word) : (State.setReg s a v).vregs = s.vregs := rfl
@[simp] theorem setReg_mem (s : State) (a : Nat) (v : Word) : (State.setReg s a v).mem = s.mem := rfl
@[simp] theorem setReg_badPar (s : State) (a : Nat) (v : Word) : (State.setReg s a v).badPar = s.badPar := rfl
@[simp] theorem setReg_flash (s : State) (a : Nat) (v : Word) : (State.setReg s a v).flash = s.flash := rfl
@[simp] theorem setReg_nvm (s : State) (a : Nat) (v : Word) : (State.setReg s a v).nvm = s.nvm := rfl
@[simp] theorem setReg_fuses (s : State) (a : Nat) (v : Word) : (State.setReg s a v).fuses = s.fuses := rfl
@[simp] theorem setReg_cnp (s : State) (a : Nat) (v : Word) : (State.setReg s a v).cnp = s.cnp := rfl
@[simp] theorem setReg_lanes (s : State) (a : Nat) (v : Word) : (State.setReg s a v).lanes = s.lanes := rfl
@[simp] theorem setReg_lnk (s : State) (a : Nat) (v : Word) : (State.setReg s a v).lnk = s.lnk := rfl
@[simp] theorem setReg_txc (s : State) (a : Nat) (v : Word) : (State.setReg s a v).txc = s.txc := rfl
@[simp] theorem setReg_que (s : State) (a : Nat) (v : Word) : (State.setReg s a v).que = s.que := rfl
@[simp] theorem setReg_prt (s : State) (a : Nat) (v : Word) : (State.setReg s a v).prt = s.prt := rfl
@[simp] theorem setReg_eng (s : State) (a : Nat) (v : Word) : (State.setReg s a v).eng = s.eng := rfl
@[simp] theorem setReg_sec (s : State) (a : Nat) (v : Word) : (State.setReg s a v).sec = s.sec := rfl
@[simp] theorem setReg_hst (s : State) (a : Nat) (v : Word) : (State.setReg s a v).hst = s.hst := rfl
@[simp] theorem setReg_pwr (s : State) (a : Nat) (v : Word) : (State.setReg s a v).pwr = s.pwr := rfl
@[simp] theorem setReg_clk (s : State) (a : Nat) (v : Word) : (State.setReg s a v).clk = s.clk := rfl
@[simp] theorem setReg_rtc (s : State) (a : Nat) (v : Word) : (State.setReg s a v).rtc = s.rtc := rfl
@[simp] theorem setReg_evr (s : State) (a : Nat) (v : Word) : (State.setReg s a v).evr = s.evr := rfl
@[simp] theorem setReg_two (s : State) (a : Nat) (v : Word) : (State.setReg s a v).two = s.two := rfl
@[simp] theorem setReg_tims (s : State) (a : Nat) (v : Word) : (State.setReg s a v).tims = s.tims := rfl
@[simp] theorem setReg_gates (s : State) (a : Nat) (v : Word) : (State.setReg s a v).gates = s.gates := rfl
@[simp] theorem setReg_flc (s : State) (a : Nat) (v : Word) : (State.setReg s a v).flc = s.flc := rfl
@[simp] theorem setReg_radioHeld (s : State) (a : Nat) (v : Word) : (State.setReg s a v).radioHeld = s.radioHeld := rfl
@[simp] theorem setReg_start (s : State) (a : Nat) (v : Word) : (State.setReg s a v).start = s.start := rfl
@[simp] theorem setReg_curves (s : State) (a : Nat) (v : Word) : (State.setReg s a v).curves = s.curves := rfl
@[simp] theorem setReg_posted (s : State) (a : Nat) (v : Word) : (State.setReg s a v).posted = s.posted := rfl

@[simp] theorem setVreg_pending (s : State) (n off : Nat) (v : Word) : (State.setVreg s n off v).pending = s.pending := rfl
@[simp] theorem setVreg_free (s : State) (n off : Nat) (v : Word) : (State.setVreg s n off v).free = s.free := rfl
@[simp] theorem setVreg_now (s : State) (n off : Nat) (v : Word) : (State.setVreg s n off v).now = s.now := rfl
@[simp] theorem setVreg_atb (s : State) (n off : Nat) (v : Word) : (State.setVreg s n off v).atb = s.atb := rfl
@[simp] theorem setVreg_regs (s : State) (n off : Nat) (v : Word) : (State.setVreg s n off v).regs = s.regs := rfl
@[simp] theorem setVreg_shadow (s : State) (n off : Nat) (v : Word) : (State.setVreg s n off v).shadow = s.shadow := rfl
@[simp] theorem setVreg_heldLo (s : State) (n off : Nat) (v : Word) : (State.setVreg s n off v).heldLo = s.heldLo := rfl
@[simp] theorem setVreg_mem (s : State) (n off : Nat) (v : Word) : (State.setVreg s n off v).mem = s.mem := rfl
@[simp] theorem setVreg_badPar (s : State) (n off : Nat) (v : Word) : (State.setVreg s n off v).badPar = s.badPar := rfl
@[simp] theorem setVreg_flash (s : State) (n off : Nat) (v : Word) : (State.setVreg s n off v).flash = s.flash := rfl
@[simp] theorem setVreg_nvm (s : State) (n off : Nat) (v : Word) : (State.setVreg s n off v).nvm = s.nvm := rfl
@[simp] theorem setVreg_fuses (s : State) (n off : Nat) (v : Word) : (State.setVreg s n off v).fuses = s.fuses := rfl
@[simp] theorem setVreg_cnp (s : State) (n off : Nat) (v : Word) : (State.setVreg s n off v).cnp = s.cnp := rfl
@[simp] theorem setVreg_lanes (s : State) (n off : Nat) (v : Word) : (State.setVreg s n off v).lanes = s.lanes := rfl
@[simp] theorem setVreg_lnk (s : State) (n off : Nat) (v : Word) : (State.setVreg s n off v).lnk = s.lnk := rfl
@[simp] theorem setVreg_txc (s : State) (n off : Nat) (v : Word) : (State.setVreg s n off v).txc = s.txc := rfl
@[simp] theorem setVreg_que (s : State) (n off : Nat) (v : Word) : (State.setVreg s n off v).que = s.que := rfl
@[simp] theorem setVreg_prt (s : State) (n off : Nat) (v : Word) : (State.setVreg s n off v).prt = s.prt := rfl
@[simp] theorem setVreg_eng (s : State) (n off : Nat) (v : Word) : (State.setVreg s n off v).eng = s.eng := rfl
@[simp] theorem setVreg_sec (s : State) (n off : Nat) (v : Word) : (State.setVreg s n off v).sec = s.sec := rfl
@[simp] theorem setVreg_hst (s : State) (n off : Nat) (v : Word) : (State.setVreg s n off v).hst = s.hst := rfl
@[simp] theorem setVreg_pwr (s : State) (n off : Nat) (v : Word) : (State.setVreg s n off v).pwr = s.pwr := rfl
@[simp] theorem setVreg_clk (s : State) (n off : Nat) (v : Word) : (State.setVreg s n off v).clk = s.clk := rfl
@[simp] theorem setVreg_rtc (s : State) (n off : Nat) (v : Word) : (State.setVreg s n off v).rtc = s.rtc := rfl
@[simp] theorem setVreg_evr (s : State) (n off : Nat) (v : Word) : (State.setVreg s n off v).evr = s.evr := rfl
@[simp] theorem setVreg_two (s : State) (n off : Nat) (v : Word) : (State.setVreg s n off v).two = s.two := rfl
@[simp] theorem setVreg_tims (s : State) (n off : Nat) (v : Word) : (State.setVreg s n off v).tims = s.tims := rfl
@[simp] theorem setVreg_gates (s : State) (n off : Nat) (v : Word) : (State.setVreg s n off v).gates = s.gates := rfl
@[simp] theorem setVreg_flc (s : State) (n off : Nat) (v : Word) : (State.setVreg s n off v).flc = s.flc := rfl
@[simp] theorem setVreg_radioHeld (s : State) (n off : Nat) (v : Word) : (State.setVreg s n off v).radioHeld = s.radioHeld := rfl
@[simp] theorem setVreg_start (s : State) (n off : Nat) (v : Word) : (State.setVreg s n off v).start = s.start := rfl
@[simp] theorem setVreg_curves (s : State) (n off : Nat) (v : Word) : (State.setVreg s n off v).curves = s.curves := rfl
@[simp] theorem setVreg_posted (s : State) (n off : Nat) (v : Word) : (State.setVreg s n off v).posted = s.posted := rfl
@[simp] theorem setVreg_reg (s : State) (n off : Nat) (v : Word) (a : Nat) : (State.setVreg s n off v).reg a = s.reg a := rfl

@[simp] theorem wr_pending (s : State) (f : RegFld) (v : Nat) : (State.wr s f v).pending = s.pending := rfl
@[simp] theorem wr_free (s : State) (f : RegFld) (v : Nat) : (State.wr s f v).free = s.free := rfl
@[simp] theorem wr_now (s : State) (f : RegFld) (v : Nat) : (State.wr s f v).now = s.now := rfl
@[simp] theorem wr_atb (s : State) (f : RegFld) (v : Nat) : (State.wr s f v).atb = s.atb := rfl
@[simp] theorem wr_shadow (s : State) (f : RegFld) (v : Nat) : (State.wr s f v).shadow = s.shadow := rfl
@[simp] theorem wr_heldLo (s : State) (f : RegFld) (v : Nat) : (State.wr s f v).heldLo = s.heldLo := rfl
@[simp] theorem wr_vregs (s : State) (f : RegFld) (v : Nat) : (State.wr s f v).vregs = s.vregs := rfl
@[simp] theorem wr_mem (s : State) (f : RegFld) (v : Nat) : (State.wr s f v).mem = s.mem := rfl
@[simp] theorem wr_badPar (s : State) (f : RegFld) (v : Nat) : (State.wr s f v).badPar = s.badPar := rfl
@[simp] theorem wr_flash (s : State) (f : RegFld) (v : Nat) : (State.wr s f v).flash = s.flash := rfl
@[simp] theorem wr_nvm (s : State) (f : RegFld) (v : Nat) : (State.wr s f v).nvm = s.nvm := rfl
@[simp] theorem wr_fuses (s : State) (f : RegFld) (v : Nat) : (State.wr s f v).fuses = s.fuses := rfl
@[simp] theorem wr_cnp (s : State) (f : RegFld) (v : Nat) : (State.wr s f v).cnp = s.cnp := rfl
@[simp] theorem wr_lanes (s : State) (f : RegFld) (v : Nat) : (State.wr s f v).lanes = s.lanes := rfl
@[simp] theorem wr_lnk (s : State) (f : RegFld) (v : Nat) : (State.wr s f v).lnk = s.lnk := rfl
@[simp] theorem wr_txc (s : State) (f : RegFld) (v : Nat) : (State.wr s f v).txc = s.txc := rfl
@[simp] theorem wr_que (s : State) (f : RegFld) (v : Nat) : (State.wr s f v).que = s.que := rfl
@[simp] theorem wr_prt (s : State) (f : RegFld) (v : Nat) : (State.wr s f v).prt = s.prt := rfl
@[simp] theorem wr_eng (s : State) (f : RegFld) (v : Nat) : (State.wr s f v).eng = s.eng := rfl
@[simp] theorem wr_sec (s : State) (f : RegFld) (v : Nat) : (State.wr s f v).sec = s.sec := rfl
@[simp] theorem wr_hst (s : State) (f : RegFld) (v : Nat) : (State.wr s f v).hst = s.hst := rfl
@[simp] theorem wr_pwr (s : State) (f : RegFld) (v : Nat) : (State.wr s f v).pwr = s.pwr := rfl
@[simp] theorem wr_clk (s : State) (f : RegFld) (v : Nat) : (State.wr s f v).clk = s.clk := rfl
@[simp] theorem wr_rtc (s : State) (f : RegFld) (v : Nat) : (State.wr s f v).rtc = s.rtc := rfl
@[simp] theorem wr_evr (s : State) (f : RegFld) (v : Nat) : (State.wr s f v).evr = s.evr := rfl
@[simp] theorem wr_two (s : State) (f : RegFld) (v : Nat) : (State.wr s f v).two = s.two := rfl
@[simp] theorem wr_tims (s : State) (f : RegFld) (v : Nat) : (State.wr s f v).tims = s.tims := rfl
@[simp] theorem wr_gates (s : State) (f : RegFld) (v : Nat) : (State.wr s f v).gates = s.gates := rfl
@[simp] theorem wr_flc (s : State) (f : RegFld) (v : Nat) : (State.wr s f v).flc = s.flc := rfl
@[simp] theorem wr_radioHeld (s : State) (f : RegFld) (v : Nat) : (State.wr s f v).radioHeld = s.radioHeld := rfl
@[simp] theorem wr_start (s : State) (f : RegFld) (v : Nat) : (State.wr s f v).start = s.start := rfl
@[simp] theorem wr_curves (s : State) (f : RegFld) (v : Nat) : (State.wr s f v).curves = s.curves := rfl
@[simp] theorem wr_posted (s : State) (f : RegFld) (v : Nat) : (State.wr s f v).posted = s.posted := rfl

@[simp] theorem incBy_pending (s : State) (f : RegFld) (n : Nat) : (State.incBy s f n).pending = s.pending := rfl
@[simp] theorem incBy_free (s : State) (f : RegFld) (n : Nat) : (State.incBy s f n).free = s.free := rfl
@[simp] theorem incBy_now (s : State) (f : RegFld) (n : Nat) : (State.incBy s f n).now = s.now := rfl
@[simp] theorem incBy_atb (s : State) (f : RegFld) (n : Nat) : (State.incBy s f n).atb = s.atb := rfl
@[simp] theorem incBy_shadow (s : State) (f : RegFld) (n : Nat) : (State.incBy s f n).shadow = s.shadow := rfl
@[simp] theorem incBy_heldLo (s : State) (f : RegFld) (n : Nat) : (State.incBy s f n).heldLo = s.heldLo := rfl
@[simp] theorem incBy_vregs (s : State) (f : RegFld) (n : Nat) : (State.incBy s f n).vregs = s.vregs := rfl
@[simp] theorem incBy_mem (s : State) (f : RegFld) (n : Nat) : (State.incBy s f n).mem = s.mem := rfl
@[simp] theorem incBy_badPar (s : State) (f : RegFld) (n : Nat) : (State.incBy s f n).badPar = s.badPar := rfl
@[simp] theorem incBy_flash (s : State) (f : RegFld) (n : Nat) : (State.incBy s f n).flash = s.flash := rfl
@[simp] theorem incBy_nvm (s : State) (f : RegFld) (n : Nat) : (State.incBy s f n).nvm = s.nvm := rfl
@[simp] theorem incBy_fuses (s : State) (f : RegFld) (n : Nat) : (State.incBy s f n).fuses = s.fuses := rfl
@[simp] theorem incBy_cnp (s : State) (f : RegFld) (n : Nat) : (State.incBy s f n).cnp = s.cnp := rfl
@[simp] theorem incBy_lanes (s : State) (f : RegFld) (n : Nat) : (State.incBy s f n).lanes = s.lanes := rfl
@[simp] theorem incBy_lnk (s : State) (f : RegFld) (n : Nat) : (State.incBy s f n).lnk = s.lnk := rfl
@[simp] theorem incBy_txc (s : State) (f : RegFld) (n : Nat) : (State.incBy s f n).txc = s.txc := rfl
@[simp] theorem incBy_que (s : State) (f : RegFld) (n : Nat) : (State.incBy s f n).que = s.que := rfl
@[simp] theorem incBy_prt (s : State) (f : RegFld) (n : Nat) : (State.incBy s f n).prt = s.prt := rfl
@[simp] theorem incBy_eng (s : State) (f : RegFld) (n : Nat) : (State.incBy s f n).eng = s.eng := rfl
@[simp] theorem incBy_sec (s : State) (f : RegFld) (n : Nat) : (State.incBy s f n).sec = s.sec := rfl
@[simp] theorem incBy_hst (s : State) (f : RegFld) (n : Nat) : (State.incBy s f n).hst = s.hst := rfl
@[simp] theorem incBy_pwr (s : State) (f : RegFld) (n : Nat) : (State.incBy s f n).pwr = s.pwr := rfl
@[simp] theorem incBy_clk (s : State) (f : RegFld) (n : Nat) : (State.incBy s f n).clk = s.clk := rfl
@[simp] theorem incBy_rtc (s : State) (f : RegFld) (n : Nat) : (State.incBy s f n).rtc = s.rtc := rfl
@[simp] theorem incBy_evr (s : State) (f : RegFld) (n : Nat) : (State.incBy s f n).evr = s.evr := rfl
@[simp] theorem incBy_two (s : State) (f : RegFld) (n : Nat) : (State.incBy s f n).two = s.two := rfl
@[simp] theorem incBy_tims (s : State) (f : RegFld) (n : Nat) : (State.incBy s f n).tims = s.tims := rfl
@[simp] theorem incBy_gates (s : State) (f : RegFld) (n : Nat) : (State.incBy s f n).gates = s.gates := rfl
@[simp] theorem incBy_flc (s : State) (f : RegFld) (n : Nat) : (State.incBy s f n).flc = s.flc := rfl
@[simp] theorem incBy_radioHeld (s : State) (f : RegFld) (n : Nat) : (State.incBy s f n).radioHeld = s.radioHeld := rfl
@[simp] theorem incBy_start (s : State) (f : RegFld) (n : Nat) : (State.incBy s f n).start = s.start := rfl
@[simp] theorem incBy_curves (s : State) (f : RegFld) (n : Nat) : (State.incBy s f n).curves = s.curves := rfl
@[simp] theorem incBy_posted (s : State) (f : RegFld) (n : Nat) : (State.incBy s f n).posted = s.posted := rfl

@[simp] theorem inc_pending (s : State) (f : RegFld) : (State.inc s f).pending = s.pending := rfl
@[simp] theorem inc_free (s : State) (f : RegFld) : (State.inc s f).free = s.free := rfl
@[simp] theorem inc_now (s : State) (f : RegFld) : (State.inc s f).now = s.now := rfl
@[simp] theorem inc_atb (s : State) (f : RegFld) : (State.inc s f).atb = s.atb := rfl
@[simp] theorem inc_shadow (s : State) (f : RegFld) : (State.inc s f).shadow = s.shadow := rfl
@[simp] theorem inc_heldLo (s : State) (f : RegFld) : (State.inc s f).heldLo = s.heldLo := rfl
@[simp] theorem inc_vregs (s : State) (f : RegFld) : (State.inc s f).vregs = s.vregs := rfl
@[simp] theorem inc_mem (s : State) (f : RegFld) : (State.inc s f).mem = s.mem := rfl
@[simp] theorem inc_badPar (s : State) (f : RegFld) : (State.inc s f).badPar = s.badPar := rfl
@[simp] theorem inc_flash (s : State) (f : RegFld) : (State.inc s f).flash = s.flash := rfl
@[simp] theorem inc_nvm (s : State) (f : RegFld) : (State.inc s f).nvm = s.nvm := rfl
@[simp] theorem inc_fuses (s : State) (f : RegFld) : (State.inc s f).fuses = s.fuses := rfl
@[simp] theorem inc_cnp (s : State) (f : RegFld) : (State.inc s f).cnp = s.cnp := rfl
@[simp] theorem inc_lanes (s : State) (f : RegFld) : (State.inc s f).lanes = s.lanes := rfl
@[simp] theorem inc_lnk (s : State) (f : RegFld) : (State.inc s f).lnk = s.lnk := rfl
@[simp] theorem inc_txc (s : State) (f : RegFld) : (State.inc s f).txc = s.txc := rfl
@[simp] theorem inc_que (s : State) (f : RegFld) : (State.inc s f).que = s.que := rfl
@[simp] theorem inc_prt (s : State) (f : RegFld) : (State.inc s f).prt = s.prt := rfl
@[simp] theorem inc_eng (s : State) (f : RegFld) : (State.inc s f).eng = s.eng := rfl
@[simp] theorem inc_sec (s : State) (f : RegFld) : (State.inc s f).sec = s.sec := rfl
@[simp] theorem inc_hst (s : State) (f : RegFld) : (State.inc s f).hst = s.hst := rfl
@[simp] theorem inc_pwr (s : State) (f : RegFld) : (State.inc s f).pwr = s.pwr := rfl
@[simp] theorem inc_clk (s : State) (f : RegFld) : (State.inc s f).clk = s.clk := rfl
@[simp] theorem inc_rtc (s : State) (f : RegFld) : (State.inc s f).rtc = s.rtc := rfl
@[simp] theorem inc_evr (s : State) (f : RegFld) : (State.inc s f).evr = s.evr := rfl
@[simp] theorem inc_two (s : State) (f : RegFld) : (State.inc s f).two = s.two := rfl
@[simp] theorem inc_tims (s : State) (f : RegFld) : (State.inc s f).tims = s.tims := rfl
@[simp] theorem inc_gates (s : State) (f : RegFld) : (State.inc s f).gates = s.gates := rfl
@[simp] theorem inc_flc (s : State) (f : RegFld) : (State.inc s f).flc = s.flc := rfl
@[simp] theorem inc_radioHeld (s : State) (f : RegFld) : (State.inc s f).radioHeld = s.radioHeld := rfl
@[simp] theorem inc_start (s : State) (f : RegFld) : (State.inc s f).start = s.start := rfl
@[simp] theorem inc_curves (s : State) (f : RegFld) : (State.inc s f).curves = s.curves := rfl
@[simp] theorem inc_posted (s : State) (f : RegFld) : (State.inc s f).posted = s.posted := rfl

@[simp] theorem bump_pending (s : State) (f : RegFld) : (State.bump s f).pending = s.pending := rfl
@[simp] theorem bump_free (s : State) (f : RegFld) : (State.bump s f).free = s.free := rfl
@[simp] theorem bump_now (s : State) (f : RegFld) : (State.bump s f).now = s.now := rfl
@[simp] theorem bump_atb (s : State) (f : RegFld) : (State.bump s f).atb = s.atb := rfl
@[simp] theorem bump_shadow (s : State) (f : RegFld) : (State.bump s f).shadow = s.shadow := rfl
@[simp] theorem bump_heldLo (s : State) (f : RegFld) : (State.bump s f).heldLo = s.heldLo := rfl
@[simp] theorem bump_vregs (s : State) (f : RegFld) : (State.bump s f).vregs = s.vregs := rfl
@[simp] theorem bump_mem (s : State) (f : RegFld) : (State.bump s f).mem = s.mem := rfl
@[simp] theorem bump_badPar (s : State) (f : RegFld) : (State.bump s f).badPar = s.badPar := rfl
@[simp] theorem bump_flash (s : State) (f : RegFld) : (State.bump s f).flash = s.flash := rfl
@[simp] theorem bump_nvm (s : State) (f : RegFld) : (State.bump s f).nvm = s.nvm := rfl
@[simp] theorem bump_fuses (s : State) (f : RegFld) : (State.bump s f).fuses = s.fuses := rfl
@[simp] theorem bump_cnp (s : State) (f : RegFld) : (State.bump s f).cnp = s.cnp := rfl
@[simp] theorem bump_lanes (s : State) (f : RegFld) : (State.bump s f).lanes = s.lanes := rfl
@[simp] theorem bump_lnk (s : State) (f : RegFld) : (State.bump s f).lnk = s.lnk := rfl
@[simp] theorem bump_txc (s : State) (f : RegFld) : (State.bump s f).txc = s.txc := rfl
@[simp] theorem bump_que (s : State) (f : RegFld) : (State.bump s f).que = s.que := rfl
@[simp] theorem bump_prt (s : State) (f : RegFld) : (State.bump s f).prt = s.prt := rfl
@[simp] theorem bump_eng (s : State) (f : RegFld) : (State.bump s f).eng = s.eng := rfl
@[simp] theorem bump_sec (s : State) (f : RegFld) : (State.bump s f).sec = s.sec := rfl
@[simp] theorem bump_hst (s : State) (f : RegFld) : (State.bump s f).hst = s.hst := rfl
@[simp] theorem bump_pwr (s : State) (f : RegFld) : (State.bump s f).pwr = s.pwr := rfl
@[simp] theorem bump_clk (s : State) (f : RegFld) : (State.bump s f).clk = s.clk := rfl
@[simp] theorem bump_rtc (s : State) (f : RegFld) : (State.bump s f).rtc = s.rtc := rfl
@[simp] theorem bump_evr (s : State) (f : RegFld) : (State.bump s f).evr = s.evr := rfl
@[simp] theorem bump_two (s : State) (f : RegFld) : (State.bump s f).two = s.two := rfl
@[simp] theorem bump_tims (s : State) (f : RegFld) : (State.bump s f).tims = s.tims := rfl
@[simp] theorem bump_gates (s : State) (f : RegFld) : (State.bump s f).gates = s.gates := rfl
@[simp] theorem bump_flc (s : State) (f : RegFld) : (State.bump s f).flc = s.flc := rfl
@[simp] theorem bump_radioHeld (s : State) (f : RegFld) : (State.bump s f).radioHeld = s.radioHeld := rfl
@[simp] theorem bump_start (s : State) (f : RegFld) : (State.bump s f).start = s.start := rfl
@[simp] theorem bump_curves (s : State) (f : RegFld) : (State.bump s f).curves = s.curves := rfl
@[simp] theorem bump_posted (s : State) (f : RegFld) : (State.bump s f).posted = s.posted := rfl

@[simp] theorem post_pending (s : State) (p : Posted) : (State.post s p).pending = s.pending := rfl
@[simp] theorem post_free (s : State) (p : Posted) : (State.post s p).free = s.free := rfl
@[simp] theorem post_now (s : State) (p : Posted) : (State.post s p).now = s.now := rfl
@[simp] theorem post_atb (s : State) (p : Posted) : (State.post s p).atb = s.atb := rfl
@[simp] theorem post_regs (s : State) (p : Posted) : (State.post s p).regs = s.regs := rfl
@[simp] theorem post_shadow (s : State) (p : Posted) : (State.post s p).shadow = s.shadow := rfl
@[simp] theorem post_heldLo (s : State) (p : Posted) : (State.post s p).heldLo = s.heldLo := rfl
@[simp] theorem post_vregs (s : State) (p : Posted) : (State.post s p).vregs = s.vregs := rfl
@[simp] theorem post_mem (s : State) (p : Posted) : (State.post s p).mem = s.mem := rfl
@[simp] theorem post_badPar (s : State) (p : Posted) : (State.post s p).badPar = s.badPar := rfl
@[simp] theorem post_flash (s : State) (p : Posted) : (State.post s p).flash = s.flash := rfl
@[simp] theorem post_nvm (s : State) (p : Posted) : (State.post s p).nvm = s.nvm := rfl
@[simp] theorem post_fuses (s : State) (p : Posted) : (State.post s p).fuses = s.fuses := rfl
@[simp] theorem post_cnp (s : State) (p : Posted) : (State.post s p).cnp = s.cnp := rfl
@[simp] theorem post_lanes (s : State) (p : Posted) : (State.post s p).lanes = s.lanes := rfl
@[simp] theorem post_lnk (s : State) (p : Posted) : (State.post s p).lnk = s.lnk := rfl
@[simp] theorem post_txc (s : State) (p : Posted) : (State.post s p).txc = s.txc := rfl
@[simp] theorem post_que (s : State) (p : Posted) : (State.post s p).que = s.que := rfl
@[simp] theorem post_prt (s : State) (p : Posted) : (State.post s p).prt = s.prt := rfl
@[simp] theorem post_eng (s : State) (p : Posted) : (State.post s p).eng = s.eng := rfl
@[simp] theorem post_sec (s : State) (p : Posted) : (State.post s p).sec = s.sec := rfl
@[simp] theorem post_hst (s : State) (p : Posted) : (State.post s p).hst = s.hst := rfl
@[simp] theorem post_pwr (s : State) (p : Posted) : (State.post s p).pwr = s.pwr := rfl
@[simp] theorem post_clk (s : State) (p : Posted) : (State.post s p).clk = s.clk := rfl
@[simp] theorem post_rtc (s : State) (p : Posted) : (State.post s p).rtc = s.rtc := rfl
@[simp] theorem post_evr (s : State) (p : Posted) : (State.post s p).evr = s.evr := rfl
@[simp] theorem post_two (s : State) (p : Posted) : (State.post s p).two = s.two := rfl
@[simp] theorem post_tims (s : State) (p : Posted) : (State.post s p).tims = s.tims := rfl
@[simp] theorem post_gates (s : State) (p : Posted) : (State.post s p).gates = s.gates := rfl
@[simp] theorem post_flc (s : State) (p : Posted) : (State.post s p).flc = s.flc := rfl
@[simp] theorem post_radioHeld (s : State) (p : Posted) : (State.post s p).radioHeld = s.radioHeld := rfl
@[simp] theorem post_start (s : State) (p : Posted) : (State.post s p).start = s.start := rfl
@[simp] theorem post_curves (s : State) (p : Posted) : (State.post s p).curves = s.curves := rfl

@[simp] theorem freed_pending (s : State) : (State.freed s).pending = s.pending := rfl
@[simp] theorem freed_now (s : State) : (State.freed s).now = s.now := rfl
@[simp] theorem freed_atb (s : State) : (State.freed s).atb = s.atb := rfl
@[simp] theorem freed_regs (s : State) : (State.freed s).regs = s.regs := rfl
@[simp] theorem freed_shadow (s : State) : (State.freed s).shadow = s.shadow := rfl
@[simp] theorem freed_heldLo (s : State) : (State.freed s).heldLo = s.heldLo := rfl
@[simp] theorem freed_vregs (s : State) : (State.freed s).vregs = s.vregs := rfl
@[simp] theorem freed_mem (s : State) : (State.freed s).mem = s.mem := rfl
@[simp] theorem freed_badPar (s : State) : (State.freed s).badPar = s.badPar := rfl
@[simp] theorem freed_flash (s : State) : (State.freed s).flash = s.flash := rfl
@[simp] theorem freed_nvm (s : State) : (State.freed s).nvm = s.nvm := rfl
@[simp] theorem freed_fuses (s : State) : (State.freed s).fuses = s.fuses := rfl
@[simp] theorem freed_cnp (s : State) : (State.freed s).cnp = s.cnp := rfl
@[simp] theorem freed_lanes (s : State) : (State.freed s).lanes = s.lanes := rfl
@[simp] theorem freed_lnk (s : State) : (State.freed s).lnk = s.lnk := rfl
@[simp] theorem freed_txc (s : State) : (State.freed s).txc = s.txc := rfl
@[simp] theorem freed_que (s : State) : (State.freed s).que = s.que := rfl
@[simp] theorem freed_prt (s : State) : (State.freed s).prt = s.prt := rfl
@[simp] theorem freed_eng (s : State) : (State.freed s).eng = s.eng := rfl
@[simp] theorem freed_sec (s : State) : (State.freed s).sec = s.sec := rfl
@[simp] theorem freed_hst (s : State) : (State.freed s).hst = s.hst := rfl
@[simp] theorem freed_pwr (s : State) : (State.freed s).pwr = s.pwr := rfl
@[simp] theorem freed_clk (s : State) : (State.freed s).clk = s.clk := rfl
@[simp] theorem freed_rtc (s : State) : (State.freed s).rtc = s.rtc := rfl
@[simp] theorem freed_evr (s : State) : (State.freed s).evr = s.evr := rfl
@[simp] theorem freed_two (s : State) : (State.freed s).two = s.two := rfl
@[simp] theorem freed_tims (s : State) : (State.freed s).tims = s.tims := rfl
@[simp] theorem freed_gates (s : State) : (State.freed s).gates = s.gates := rfl
@[simp] theorem freed_flc (s : State) : (State.freed s).flc = s.flc := rfl
@[simp] theorem freed_radioHeld (s : State) : (State.freed s).radioHeld = s.radioHeld := rfl
@[simp] theorem freed_start (s : State) : (State.freed s).start = s.start := rfl
@[simp] theorem freed_curves (s : State) : (State.freed s).curves = s.curves := rfl
@[simp] theorem freed_posted (s : State) : (State.freed s).posted = s.posted := rfl

@[simp] theorem pulse_pending (s : State) (ch : Nat) : (State.pulse s ch).pending = s.pending := rfl
@[simp] theorem pulse_free (s : State) (ch : Nat) : (State.pulse s ch).free = s.free := rfl
@[simp] theorem pulse_now (s : State) (ch : Nat) : (State.pulse s ch).now = s.now := rfl
@[simp] theorem pulse_atb (s : State) (ch : Nat) : (State.pulse s ch).atb = s.atb := rfl
@[simp] theorem pulse_regs (s : State) (ch : Nat) : (State.pulse s ch).regs = s.regs := rfl
@[simp] theorem pulse_shadow (s : State) (ch : Nat) : (State.pulse s ch).shadow = s.shadow := rfl
@[simp] theorem pulse_heldLo (s : State) (ch : Nat) : (State.pulse s ch).heldLo = s.heldLo := rfl
@[simp] theorem pulse_vregs (s : State) (ch : Nat) : (State.pulse s ch).vregs = s.vregs := rfl
@[simp] theorem pulse_mem (s : State) (ch : Nat) : (State.pulse s ch).mem = s.mem := rfl
@[simp] theorem pulse_badPar (s : State) (ch : Nat) : (State.pulse s ch).badPar = s.badPar := rfl
@[simp] theorem pulse_flash (s : State) (ch : Nat) : (State.pulse s ch).flash = s.flash := rfl
@[simp] theorem pulse_nvm (s : State) (ch : Nat) : (State.pulse s ch).nvm = s.nvm := rfl
@[simp] theorem pulse_fuses (s : State) (ch : Nat) : (State.pulse s ch).fuses = s.fuses := rfl
@[simp] theorem pulse_cnp (s : State) (ch : Nat) : (State.pulse s ch).cnp = s.cnp := rfl
@[simp] theorem pulse_lanes (s : State) (ch : Nat) : (State.pulse s ch).lanes = s.lanes := rfl
@[simp] theorem pulse_lnk (s : State) (ch : Nat) : (State.pulse s ch).lnk = s.lnk := rfl
@[simp] theorem pulse_txc (s : State) (ch : Nat) : (State.pulse s ch).txc = s.txc := rfl
@[simp] theorem pulse_que (s : State) (ch : Nat) : (State.pulse s ch).que = s.que := rfl
@[simp] theorem pulse_prt (s : State) (ch : Nat) : (State.pulse s ch).prt = s.prt := rfl
@[simp] theorem pulse_eng (s : State) (ch : Nat) : (State.pulse s ch).eng = s.eng := rfl
@[simp] theorem pulse_sec (s : State) (ch : Nat) : (State.pulse s ch).sec = s.sec := rfl
@[simp] theorem pulse_hst (s : State) (ch : Nat) : (State.pulse s ch).hst = s.hst := rfl
@[simp] theorem pulse_pwr (s : State) (ch : Nat) : (State.pulse s ch).pwr = s.pwr := rfl
@[simp] theorem pulse_clk (s : State) (ch : Nat) : (State.pulse s ch).clk = s.clk := rfl
@[simp] theorem pulse_rtc (s : State) (ch : Nat) : (State.pulse s ch).rtc = s.rtc := rfl
@[simp] theorem pulse_two (s : State) (ch : Nat) : (State.pulse s ch).two = s.two := rfl
@[simp] theorem pulse_tims (s : State) (ch : Nat) : (State.pulse s ch).tims = s.tims := rfl
@[simp] theorem pulse_gates (s : State) (ch : Nat) : (State.pulse s ch).gates = s.gates := rfl
@[simp] theorem pulse_flc (s : State) (ch : Nat) : (State.pulse s ch).flc = s.flc := rfl
@[simp] theorem pulse_radioHeld (s : State) (ch : Nat) : (State.pulse s ch).radioHeld = s.radioHeld := rfl
@[simp] theorem pulse_start (s : State) (ch : Nat) : (State.pulse s ch).start = s.start := rfl
@[simp] theorem pulse_curves (s : State) (ch : Nat) : (State.pulse s ch).curves = s.curves := rfl
@[simp] theorem pulse_posted (s : State) (ch : Nat) : (State.pulse s ch).posted = s.posted := rfl

@[simp] theorem returnLeave_pending (s : State) (who : Holder) : (State.returnLeave s who).pending = s.pending := rfl
@[simp] theorem returnLeave_free (s : State) (who : Holder) : (State.returnLeave s who).free = s.free := rfl
@[simp] theorem returnLeave_now (s : State) (who : Holder) : (State.returnLeave s who).now = s.now := rfl
@[simp] theorem returnLeave_atb (s : State) (who : Holder) : (State.returnLeave s who).atb = s.atb := rfl
@[simp] theorem returnLeave_regs (s : State) (who : Holder) : (State.returnLeave s who).regs = s.regs := rfl
@[simp] theorem returnLeave_shadow (s : State) (who : Holder) : (State.returnLeave s who).shadow = s.shadow := rfl
@[simp] theorem returnLeave_heldLo (s : State) (who : Holder) : (State.returnLeave s who).heldLo = s.heldLo := rfl
@[simp] theorem returnLeave_vregs (s : State) (who : Holder) : (State.returnLeave s who).vregs = s.vregs := rfl
@[simp] theorem returnLeave_mem (s : State) (who : Holder) : (State.returnLeave s who).mem = s.mem := rfl
@[simp] theorem returnLeave_badPar (s : State) (who : Holder) : (State.returnLeave s who).badPar = s.badPar := rfl
@[simp] theorem returnLeave_flash (s : State) (who : Holder) : (State.returnLeave s who).flash = s.flash := rfl
@[simp] theorem returnLeave_nvm (s : State) (who : Holder) : (State.returnLeave s who).nvm = s.nvm := rfl
@[simp] theorem returnLeave_fuses (s : State) (who : Holder) : (State.returnLeave s who).fuses = s.fuses := rfl
@[simp] theorem returnLeave_cnp (s : State) (who : Holder) : (State.returnLeave s who).cnp = s.cnp := rfl
@[simp] theorem returnLeave_lanes (s : State) (who : Holder) : (State.returnLeave s who).lanes = s.lanes := rfl
@[simp] theorem returnLeave_lnk (s : State) (who : Holder) : (State.returnLeave s who).lnk = s.lnk := rfl
@[simp] theorem returnLeave_txc (s : State) (who : Holder) : (State.returnLeave s who).txc = s.txc := rfl
@[simp] theorem returnLeave_que (s : State) (who : Holder) : (State.returnLeave s who).que = s.que := rfl
@[simp] theorem returnLeave_prt (s : State) (who : Holder) : (State.returnLeave s who).prt = s.prt := rfl
@[simp] theorem returnLeave_eng (s : State) (who : Holder) : (State.returnLeave s who).eng = s.eng := rfl
@[simp] theorem returnLeave_sec (s : State) (who : Holder) : (State.returnLeave s who).sec = s.sec := rfl
@[simp] theorem returnLeave_hst (s : State) (who : Holder) : (State.returnLeave s who).hst = s.hst := rfl
@[simp] theorem returnLeave_clk (s : State) (who : Holder) : (State.returnLeave s who).clk = s.clk := rfl
@[simp] theorem returnLeave_rtc (s : State) (who : Holder) : (State.returnLeave s who).rtc = s.rtc := rfl
@[simp] theorem returnLeave_evr (s : State) (who : Holder) : (State.returnLeave s who).evr = s.evr := rfl
@[simp] theorem returnLeave_two (s : State) (who : Holder) : (State.returnLeave s who).two = s.two := rfl
@[simp] theorem returnLeave_tims (s : State) (who : Holder) : (State.returnLeave s who).tims = s.tims := rfl
@[simp] theorem returnLeave_gates (s : State) (who : Holder) : (State.returnLeave s who).gates = s.gates := rfl
@[simp] theorem returnLeave_flc (s : State) (who : Holder) : (State.returnLeave s who).flc = s.flc := rfl
@[simp] theorem returnLeave_radioHeld (s : State) (who : Holder) : (State.returnLeave s who).radioHeld = s.radioHeld := rfl
@[simp] theorem returnLeave_start (s : State) (who : Holder) : (State.returnLeave s who).start = s.start := rfl
@[simp] theorem returnLeave_curves (s : State) (who : Holder) : (State.returnLeave s who).curves = s.curves := rfl
@[simp] theorem returnLeave_posted (s : State) (who : Holder) : (State.returnLeave s who).posted = s.posted := rfl

@[simp] theorem holdLeave_pending (s : State) (who : Holder) (p mw : Nat) : (State.holdLeave s who p mw).pending = s.pending := rfl
@[simp] theorem holdLeave_free (s : State) (who : Holder) (p mw : Nat) : (State.holdLeave s who p mw).free = s.free := rfl
@[simp] theorem holdLeave_now (s : State) (who : Holder) (p mw : Nat) : (State.holdLeave s who p mw).now = s.now := rfl
@[simp] theorem holdLeave_atb (s : State) (who : Holder) (p mw : Nat) : (State.holdLeave s who p mw).atb = s.atb := rfl
@[simp] theorem holdLeave_regs (s : State) (who : Holder) (p mw : Nat) : (State.holdLeave s who p mw).regs = s.regs := rfl
@[simp] theorem holdLeave_shadow (s : State) (who : Holder) (p mw : Nat) : (State.holdLeave s who p mw).shadow = s.shadow := rfl
@[simp] theorem holdLeave_heldLo (s : State) (who : Holder) (p mw : Nat) : (State.holdLeave s who p mw).heldLo = s.heldLo := rfl
@[simp] theorem holdLeave_vregs (s : State) (who : Holder) (p mw : Nat) : (State.holdLeave s who p mw).vregs = s.vregs := rfl
@[simp] theorem holdLeave_mem (s : State) (who : Holder) (p mw : Nat) : (State.holdLeave s who p mw).mem = s.mem := rfl
@[simp] theorem holdLeave_badPar (s : State) (who : Holder) (p mw : Nat) : (State.holdLeave s who p mw).badPar = s.badPar := rfl
@[simp] theorem holdLeave_flash (s : State) (who : Holder) (p mw : Nat) : (State.holdLeave s who p mw).flash = s.flash := rfl
@[simp] theorem holdLeave_nvm (s : State) (who : Holder) (p mw : Nat) : (State.holdLeave s who p mw).nvm = s.nvm := rfl
@[simp] theorem holdLeave_fuses (s : State) (who : Holder) (p mw : Nat) : (State.holdLeave s who p mw).fuses = s.fuses := rfl
@[simp] theorem holdLeave_cnp (s : State) (who : Holder) (p mw : Nat) : (State.holdLeave s who p mw).cnp = s.cnp := rfl
@[simp] theorem holdLeave_lanes (s : State) (who : Holder) (p mw : Nat) : (State.holdLeave s who p mw).lanes = s.lanes := rfl
@[simp] theorem holdLeave_lnk (s : State) (who : Holder) (p mw : Nat) : (State.holdLeave s who p mw).lnk = s.lnk := rfl
@[simp] theorem holdLeave_txc (s : State) (who : Holder) (p mw : Nat) : (State.holdLeave s who p mw).txc = s.txc := rfl
@[simp] theorem holdLeave_que (s : State) (who : Holder) (p mw : Nat) : (State.holdLeave s who p mw).que = s.que := rfl
@[simp] theorem holdLeave_prt (s : State) (who : Holder) (p mw : Nat) : (State.holdLeave s who p mw).prt = s.prt := rfl
@[simp] theorem holdLeave_eng (s : State) (who : Holder) (p mw : Nat) : (State.holdLeave s who p mw).eng = s.eng := rfl
@[simp] theorem holdLeave_sec (s : State) (who : Holder) (p mw : Nat) : (State.holdLeave s who p mw).sec = s.sec := rfl
@[simp] theorem holdLeave_hst (s : State) (who : Holder) (p mw : Nat) : (State.holdLeave s who p mw).hst = s.hst := rfl
@[simp] theorem holdLeave_clk (s : State) (who : Holder) (p mw : Nat) : (State.holdLeave s who p mw).clk = s.clk := rfl
@[simp] theorem holdLeave_rtc (s : State) (who : Holder) (p mw : Nat) : (State.holdLeave s who p mw).rtc = s.rtc := rfl
@[simp] theorem holdLeave_evr (s : State) (who : Holder) (p mw : Nat) : (State.holdLeave s who p mw).evr = s.evr := rfl
@[simp] theorem holdLeave_two (s : State) (who : Holder) (p mw : Nat) : (State.holdLeave s who p mw).two = s.two := rfl
@[simp] theorem holdLeave_tims (s : State) (who : Holder) (p mw : Nat) : (State.holdLeave s who p mw).tims = s.tims := rfl
@[simp] theorem holdLeave_gates (s : State) (who : Holder) (p mw : Nat) : (State.holdLeave s who p mw).gates = s.gates := rfl
@[simp] theorem holdLeave_flc (s : State) (who : Holder) (p mw : Nat) : (State.holdLeave s who p mw).flc = s.flc := rfl
@[simp] theorem holdLeave_radioHeld (s : State) (who : Holder) (p mw : Nat) : (State.holdLeave s who p mw).radioHeld = s.radioHeld := rfl
@[simp] theorem holdLeave_start (s : State) (who : Holder) (p mw : Nat) : (State.holdLeave s who p mw).start = s.start := rfl
@[simp] theorem holdLeave_curves (s : State) (who : Holder) (p mw : Nat) : (State.holdLeave s who p mw).curves = s.curves := rfl
@[simp] theorem holdLeave_posted (s : State) (who : Holder) (p mw : Nat) : (State.holdLeave s who p mw).posted = s.posted := rfl

@[simp] theorem setCore_pending (s : State) (c : Nat) (k : FCore) : (State.setCore s c k).pending = s.pending := rfl
@[simp] theorem setCore_free (s : State) (c : Nat) (k : FCore) : (State.setCore s c k).free = s.free := rfl
@[simp] theorem setCore_now (s : State) (c : Nat) (k : FCore) : (State.setCore s c k).now = s.now := rfl
@[simp] theorem setCore_atb (s : State) (c : Nat) (k : FCore) : (State.setCore s c k).atb = s.atb := rfl
@[simp] theorem setCore_regs (s : State) (c : Nat) (k : FCore) : (State.setCore s c k).regs = s.regs := rfl
@[simp] theorem setCore_shadow (s : State) (c : Nat) (k : FCore) : (State.setCore s c k).shadow = s.shadow := rfl
@[simp] theorem setCore_heldLo (s : State) (c : Nat) (k : FCore) : (State.setCore s c k).heldLo = s.heldLo := rfl
@[simp] theorem setCore_vregs (s : State) (c : Nat) (k : FCore) : (State.setCore s c k).vregs = s.vregs := rfl
@[simp] theorem setCore_mem (s : State) (c : Nat) (k : FCore) : (State.setCore s c k).mem = s.mem := rfl
@[simp] theorem setCore_badPar (s : State) (c : Nat) (k : FCore) : (State.setCore s c k).badPar = s.badPar := rfl
@[simp] theorem setCore_flash (s : State) (c : Nat) (k : FCore) : (State.setCore s c k).flash = s.flash := rfl
@[simp] theorem setCore_nvm (s : State) (c : Nat) (k : FCore) : (State.setCore s c k).nvm = s.nvm := rfl
@[simp] theorem setCore_fuses (s : State) (c : Nat) (k : FCore) : (State.setCore s c k).fuses = s.fuses := rfl
@[simp] theorem setCore_cnp (s : State) (c : Nat) (k : FCore) : (State.setCore s c k).cnp = s.cnp := rfl
@[simp] theorem setCore_lanes (s : State) (c : Nat) (k : FCore) : (State.setCore s c k).lanes = s.lanes := rfl
@[simp] theorem setCore_lnk (s : State) (c : Nat) (k : FCore) : (State.setCore s c k).lnk = s.lnk := rfl
@[simp] theorem setCore_txc (s : State) (c : Nat) (k : FCore) : (State.setCore s c k).txc = s.txc := rfl
@[simp] theorem setCore_que (s : State) (c : Nat) (k : FCore) : (State.setCore s c k).que = s.que := rfl
@[simp] theorem setCore_prt (s : State) (c : Nat) (k : FCore) : (State.setCore s c k).prt = s.prt := rfl
@[simp] theorem setCore_sec (s : State) (c : Nat) (k : FCore) : (State.setCore s c k).sec = s.sec := rfl
@[simp] theorem setCore_hst (s : State) (c : Nat) (k : FCore) : (State.setCore s c k).hst = s.hst := rfl
@[simp] theorem setCore_pwr (s : State) (c : Nat) (k : FCore) : (State.setCore s c k).pwr = s.pwr := rfl
@[simp] theorem setCore_clk (s : State) (c : Nat) (k : FCore) : (State.setCore s c k).clk = s.clk := rfl
@[simp] theorem setCore_rtc (s : State) (c : Nat) (k : FCore) : (State.setCore s c k).rtc = s.rtc := rfl
@[simp] theorem setCore_evr (s : State) (c : Nat) (k : FCore) : (State.setCore s c k).evr = s.evr := rfl
@[simp] theorem setCore_two (s : State) (c : Nat) (k : FCore) : (State.setCore s c k).two = s.two := rfl
@[simp] theorem setCore_tims (s : State) (c : Nat) (k : FCore) : (State.setCore s c k).tims = s.tims := rfl
@[simp] theorem setCore_gates (s : State) (c : Nat) (k : FCore) : (State.setCore s c k).gates = s.gates := rfl
@[simp] theorem setCore_flc (s : State) (c : Nat) (k : FCore) : (State.setCore s c k).flc = s.flc := rfl
@[simp] theorem setCore_radioHeld (s : State) (c : Nat) (k : FCore) : (State.setCore s c k).radioHeld = s.radioHeld := rfl
@[simp] theorem setCore_start (s : State) (c : Nat) (k : FCore) : (State.setCore s c k).start = s.start := rfl
@[simp] theorem setCore_curves (s : State) (c : Nat) (k : FCore) : (State.setCore s c k).curves = s.curves := rfl
@[simp] theorem setCore_posted (s : State) (c : Nat) (k : FCore) : (State.setCore s c k).posted = s.posted := rfl

@[simp] theorem setSys_pending (s : State) (c n : Nat) (v : Word) : (State.setSys s c n v).pending = s.pending := rfl
@[simp] theorem setSys_free (s : State) (c n : Nat) (v : Word) : (State.setSys s c n v).free = s.free := rfl
@[simp] theorem setSys_now (s : State) (c n : Nat) (v : Word) : (State.setSys s c n v).now = s.now := rfl
@[simp] theorem setSys_atb (s : State) (c n : Nat) (v : Word) : (State.setSys s c n v).atb = s.atb := rfl
@[simp] theorem setSys_regs (s : State) (c n : Nat) (v : Word) : (State.setSys s c n v).regs = s.regs := rfl
@[simp] theorem setSys_shadow (s : State) (c n : Nat) (v : Word) : (State.setSys s c n v).shadow = s.shadow := rfl
@[simp] theorem setSys_heldLo (s : State) (c n : Nat) (v : Word) : (State.setSys s c n v).heldLo = s.heldLo := rfl
@[simp] theorem setSys_vregs (s : State) (c n : Nat) (v : Word) : (State.setSys s c n v).vregs = s.vregs := rfl
@[simp] theorem setSys_mem (s : State) (c n : Nat) (v : Word) : (State.setSys s c n v).mem = s.mem := rfl
@[simp] theorem setSys_badPar (s : State) (c n : Nat) (v : Word) : (State.setSys s c n v).badPar = s.badPar := rfl
@[simp] theorem setSys_flash (s : State) (c n : Nat) (v : Word) : (State.setSys s c n v).flash = s.flash := rfl
@[simp] theorem setSys_nvm (s : State) (c n : Nat) (v : Word) : (State.setSys s c n v).nvm = s.nvm := rfl
@[simp] theorem setSys_fuses (s : State) (c n : Nat) (v : Word) : (State.setSys s c n v).fuses = s.fuses := rfl
@[simp] theorem setSys_cnp (s : State) (c n : Nat) (v : Word) : (State.setSys s c n v).cnp = s.cnp := rfl
@[simp] theorem setSys_lanes (s : State) (c n : Nat) (v : Word) : (State.setSys s c n v).lanes = s.lanes := rfl
@[simp] theorem setSys_lnk (s : State) (c n : Nat) (v : Word) : (State.setSys s c n v).lnk = s.lnk := rfl
@[simp] theorem setSys_txc (s : State) (c n : Nat) (v : Word) : (State.setSys s c n v).txc = s.txc := rfl
@[simp] theorem setSys_que (s : State) (c n : Nat) (v : Word) : (State.setSys s c n v).que = s.que := rfl
@[simp] theorem setSys_prt (s : State) (c n : Nat) (v : Word) : (State.setSys s c n v).prt = s.prt := rfl
@[simp] theorem setSys_sec (s : State) (c n : Nat) (v : Word) : (State.setSys s c n v).sec = s.sec := rfl
@[simp] theorem setSys_hst (s : State) (c n : Nat) (v : Word) : (State.setSys s c n v).hst = s.hst := rfl
@[simp] theorem setSys_pwr (s : State) (c n : Nat) (v : Word) : (State.setSys s c n v).pwr = s.pwr := rfl
@[simp] theorem setSys_clk (s : State) (c n : Nat) (v : Word) : (State.setSys s c n v).clk = s.clk := rfl
@[simp] theorem setSys_rtc (s : State) (c n : Nat) (v : Word) : (State.setSys s c n v).rtc = s.rtc := rfl
@[simp] theorem setSys_evr (s : State) (c n : Nat) (v : Word) : (State.setSys s c n v).evr = s.evr := rfl
@[simp] theorem setSys_two (s : State) (c n : Nat) (v : Word) : (State.setSys s c n v).two = s.two := rfl
@[simp] theorem setSys_tims (s : State) (c n : Nat) (v : Word) : (State.setSys s c n v).tims = s.tims := rfl
@[simp] theorem setSys_gates (s : State) (c n : Nat) (v : Word) : (State.setSys s c n v).gates = s.gates := rfl
@[simp] theorem setSys_flc (s : State) (c n : Nat) (v : Word) : (State.setSys s c n v).flc = s.flc := rfl
@[simp] theorem setSys_radioHeld (s : State) (c n : Nat) (v : Word) : (State.setSys s c n v).radioHeld = s.radioHeld := rfl
@[simp] theorem setSys_start (s : State) (c n : Nat) (v : Word) : (State.setSys s c n v).start = s.start := rfl
@[simp] theorem setSys_curves (s : State) (c n : Nat) (v : Word) : (State.setSys s c n v).curves = s.curves := rfl
@[simp] theorem setSys_posted (s : State) (c n : Nat) (v : Word) : (State.setSys s c n v).posted = s.posted := rfl

@[simp] theorem setPc_pending (s : State) (c a : Nat) : (State.setPc s c a).pending = s.pending := rfl
@[simp] theorem setPc_free (s : State) (c a : Nat) : (State.setPc s c a).free = s.free := rfl
@[simp] theorem setPc_now (s : State) (c a : Nat) : (State.setPc s c a).now = s.now := rfl
@[simp] theorem setPc_atb (s : State) (c a : Nat) : (State.setPc s c a).atb = s.atb := rfl
@[simp] theorem setPc_regs (s : State) (c a : Nat) : (State.setPc s c a).regs = s.regs := rfl
@[simp] theorem setPc_shadow (s : State) (c a : Nat) : (State.setPc s c a).shadow = s.shadow := rfl
@[simp] theorem setPc_heldLo (s : State) (c a : Nat) : (State.setPc s c a).heldLo = s.heldLo := rfl
@[simp] theorem setPc_vregs (s : State) (c a : Nat) : (State.setPc s c a).vregs = s.vregs := rfl
@[simp] theorem setPc_mem (s : State) (c a : Nat) : (State.setPc s c a).mem = s.mem := rfl
@[simp] theorem setPc_badPar (s : State) (c a : Nat) : (State.setPc s c a).badPar = s.badPar := rfl
@[simp] theorem setPc_flash (s : State) (c a : Nat) : (State.setPc s c a).flash = s.flash := rfl
@[simp] theorem setPc_nvm (s : State) (c a : Nat) : (State.setPc s c a).nvm = s.nvm := rfl
@[simp] theorem setPc_fuses (s : State) (c a : Nat) : (State.setPc s c a).fuses = s.fuses := rfl
@[simp] theorem setPc_cnp (s : State) (c a : Nat) : (State.setPc s c a).cnp = s.cnp := rfl
@[simp] theorem setPc_lanes (s : State) (c a : Nat) : (State.setPc s c a).lanes = s.lanes := rfl
@[simp] theorem setPc_lnk (s : State) (c a : Nat) : (State.setPc s c a).lnk = s.lnk := rfl
@[simp] theorem setPc_txc (s : State) (c a : Nat) : (State.setPc s c a).txc = s.txc := rfl
@[simp] theorem setPc_que (s : State) (c a : Nat) : (State.setPc s c a).que = s.que := rfl
@[simp] theorem setPc_prt (s : State) (c a : Nat) : (State.setPc s c a).prt = s.prt := rfl
@[simp] theorem setPc_sec (s : State) (c a : Nat) : (State.setPc s c a).sec = s.sec := rfl
@[simp] theorem setPc_hst (s : State) (c a : Nat) : (State.setPc s c a).hst = s.hst := rfl
@[simp] theorem setPc_pwr (s : State) (c a : Nat) : (State.setPc s c a).pwr = s.pwr := rfl
@[simp] theorem setPc_clk (s : State) (c a : Nat) : (State.setPc s c a).clk = s.clk := rfl
@[simp] theorem setPc_rtc (s : State) (c a : Nat) : (State.setPc s c a).rtc = s.rtc := rfl
@[simp] theorem setPc_evr (s : State) (c a : Nat) : (State.setPc s c a).evr = s.evr := rfl
@[simp] theorem setPc_two (s : State) (c a : Nat) : (State.setPc s c a).two = s.two := rfl
@[simp] theorem setPc_tims (s : State) (c a : Nat) : (State.setPc s c a).tims = s.tims := rfl
@[simp] theorem setPc_gates (s : State) (c a : Nat) : (State.setPc s c a).gates = s.gates := rfl
@[simp] theorem setPc_flc (s : State) (c a : Nat) : (State.setPc s c a).flc = s.flc := rfl
@[simp] theorem setPc_radioHeld (s : State) (c a : Nat) : (State.setPc s c a).radioHeld = s.radioHeld := rfl
@[simp] theorem setPc_start (s : State) (c a : Nat) : (State.setPc s c a).start = s.start := rfl
@[simp] theorem setPc_curves (s : State) (c a : Nat) : (State.setPc s c a).curves = s.curves := rfl
@[simp] theorem setPc_posted (s : State) (c a : Nat) : (State.setPc s c a).posted = s.posted := rfl

end Sys2Proof.Machine
end

