-- ==== Sys2Proof/Laws/Frames.lean ====
section
/-! SUPPORT. What the shared operations leave alone: events, messages, the passing of time, the bark, leave. -/

namespace Sys2Proof.Machine

/-- A fold keeps what each of its steps keeps. -/
theorem foldl_same {α β : Type} (g : State → β) (f : State → α → State) (l : List α) (s : State) (h : ∀ u x, g (f u x) = g u) :
    g (l.foldl f s) = g s := by
  induction l generalizing s with
  | nil => rfl
  | cons x xs ih => exact (ih (f s x)).trans (h s x)

/-- Only registers, virtual functions' registers, outputs and pulses differ. -/
def evOnly (s t : State) : Prop := ∃ r v p e, t = { s with regs := r, vregs := v, posted := p, evr := e }

/-- Only what time changes differs. -/
def timeOnly (s t : State) : Prop := ∃ r i c n a k, t = { s with regs := r, tims := i, rtc := c, now := n, atb := a, clk := k }

theorem evOnly_refl (s : State) : evOnly s s := ⟨_, _, _, _, rfl⟩

theorem evOnly_trans {s t u : State} (a : evOnly s t) (b : evOnly t u) : evOnly s u := by
  obtain ⟨_, _, _, _, rfl⟩ := a
  obtain ⟨_, _, _, _, rfl⟩ := b
  exact ⟨_, _, _, _, rfl⟩

theorem timeOnly_refl (s : State) : timeOnly s s := ⟨_, _, _, _, _, _, rfl⟩

theorem timeOnly_trans {s t u : State} (a : timeOnly s t) (b : timeOnly t u) : timeOnly s u := by
  obtain ⟨_, _, _, _, _, _, rfl⟩ := a
  obtain ⟨_, _, _, _, _, _, rfl⟩ := b
  exact ⟨_, _, _, _, _, _, rfl⟩

theorem setReg_evOnly (s : State) (a : Nat) (v : Word) : evOnly s (s.setReg a v) := ⟨_, _, _, _, rfl⟩

theorem setPbaWord_evOnly (s : State) (fn v w : Nat) : evOnly s (setPbaWord fn v w s) := by
  unfold setPbaWord
  split
  · exact setReg_evOnly _ _ _
  · exact ⟨_, _, _, _, rfl⟩

theorem sendMsix_evOnly (s : State) (fn v : Nat) : evOnly s (s.sendMsix fn v) := by
  unfold State.sendMsix
  split
  · exact evOnly_refl s
  · split
    · exact setPbaWord_evOnly _ _ _ _
    · exact ⟨_, _, _, _, rfl⟩

theorem evtEdge_evOnly (s t : State) : evOnly t (evtEdge s t) := by
  unfold evtEdge
  split
  · exact sendMsix_evOnly _ _ _
  · exact evOnly_refl t

theorem blockEvent_evOnly (s : State) (src : Nat) : evOnly s (s.blockEvent src) := by
  unfold State.blockEvent
  induction srcChannels s src generalizing s with
  | nil => exact evOnly_refl s
  | cons c cs ih => exact evOnly_trans ⟨_, _, _, _, rfl⟩ (ih (s.pulse c))

/-- What raising an event can do. -/
theorem raise_evOnly (s : State) (c b : Nat) : evOnly s (s.raise c b) := by
  unfold State.raise
  split
  · exact evOnly_trans (setReg_evOnly _ _ _) (evOnly_trans (blockEvent_evOnly _ _) (evtEdge_evOnly _ _))
  · exact blockEvent_evOnly _ _

/-- What the passing of time can do. -/
theorem elapse_timeOnly (n : Nat) (s : State) : timeOnly s (s.elapse n) := by
  have fold : ∀ (l : List Nat) (e : Nat → Nat) (u : State), timeOnly u (l.foldl (fun u t => tickTimer t (e t) u) u) := by
    intro l e
    induction l with
    | nil => exact timeOnly_refl
    | cons t ts ih => exact fun u => timeOnly_trans ⟨_, _, _, _, _, _, rfl⟩ (ih (tickTimer t (e t) u))
  unfold State.elapse
  split
  · exact timeOnly_refl s
  · have h := fold (runningTimers s) (fun t => timerEdges s t n (xkEdges s n)) s
    have hr : ∀ x u, timeOnly u (tickRtc x u) := fun x u => by
      unfold tickRtc
      split
      · exact timeOnly_refl u
      · exact ⟨_, _, _, _, _, _, rfl⟩
    dsimp only
    split
    · exact timeOnly_trans h ⟨_, _, _, _, _, _, rfl⟩
    · exact timeOnly_trans (timeOnly_trans h (hr _ _)) ⟨_, _, _, _, _, _, rfl⟩

theorem at_timeOnly (s : State) (t : Nat) : timeOnly s (s.at_ t) := by
  unfold State.at_
  split
  · exact elapse_timeOnly _ _
  · exact timeOnly_refl s

/-- What a refusal by the bark can do. -/
theorem bark_evOnly (s : State) (tag src tgt index : Nat) :
    ∃ q, evOnly { s with prt := q } (s.bark tag src tgt index) := by
  obtain ⟨r, v, p, e, h⟩ := evOnly_trans (setReg_evOnly s _ _) (raise_evOnly (s.inc (PRT_PCNT.COUNT tag 0)) 7 0)
  unfold State.bark
  rw [show (s.inc (PRT_PCNT.COUNT tag 0)).raise 7 0 = _ from h]
  dsimp only
  split
  · exact ⟨{ s.prt with log := s.prt.log ++ [⟨tag, src, tgt, index, s.atb⟩] }, r, v, p, e, rfl⟩
  · refine ⟨s.prt, evOnly_trans ?_ (evOnly_trans (setReg_evOnly _ _ _) (raise_evOnly _ _ _))⟩
    exact ⟨_, _, _, _, rfl⟩

@[simp] theorem evtEdge_pending (t s : State) : (evtEdge t s).pending = s.pending := by
  obtain ⟨_, _, _, _, h⟩ := evtEdge_evOnly t s
  rw [h]
@[simp] theorem evtEdge_free (t s : State) : (evtEdge t s).free = s.free := by
  obtain ⟨_, _, _, _, h⟩ := evtEdge_evOnly t s
  rw [h]
@[simp] theorem evtEdge_now (t s : State) : (evtEdge t s).now = s.now := by
  obtain ⟨_, _, _, _, h⟩ := evtEdge_evOnly t s
  rw [h]
@[simp] theorem evtEdge_atb (t s : State) : (evtEdge t s).atb = s.atb := by
  obtain ⟨_, _, _, _, h⟩ := evtEdge_evOnly t s
  rw [h]
@[simp] theorem evtEdge_shadow (t s : State) : (evtEdge t s).shadow = s.shadow := by
  obtain ⟨_, _, _, _, h⟩ := evtEdge_evOnly t s
  rw [h]
@[simp] theorem evtEdge_heldLo (t s : State) : (evtEdge t s).heldLo = s.heldLo := by
  obtain ⟨_, _, _, _, h⟩ := evtEdge_evOnly t s
  rw [h]
@[simp] theorem evtEdge_mem (t s : State) : (evtEdge t s).mem = s.mem := by
  obtain ⟨_, _, _, _, h⟩ := evtEdge_evOnly t s
  rw [h]
@[simp] theorem evtEdge_badPar (t s : State) : (evtEdge t s).badPar = s.badPar := by
  obtain ⟨_, _, _, _, h⟩ := evtEdge_evOnly t s
  rw [h]
@[simp] theorem evtEdge_flash (t s : State) : (evtEdge t s).flash = s.flash := by
  obtain ⟨_, _, _, _, h⟩ := evtEdge_evOnly t s
  rw [h]
@[simp] theorem evtEdge_nvm (t s : State) : (evtEdge t s).nvm = s.nvm := by
  obtain ⟨_, _, _, _, h⟩ := evtEdge_evOnly t s
  rw [h]
@[simp] theorem evtEdge_fuses (t s : State) : (evtEdge t s).fuses = s.fuses := by
  obtain ⟨_, _, _, _, h⟩ := evtEdge_evOnly t s
  rw [h]
@[simp] theorem evtEdge_cnp (t s : State) : (evtEdge t s).cnp = s.cnp := by
  obtain ⟨_, _, _, _, h⟩ := evtEdge_evOnly t s
  rw [h]
@[simp] theorem evtEdge_lanes (t s : State) : (evtEdge t s).lanes = s.lanes := by
  obtain ⟨_, _, _, _, h⟩ := evtEdge_evOnly t s
  rw [h]
@[simp] theorem evtEdge_lnk (t s : State) : (evtEdge t s).lnk = s.lnk := by
  obtain ⟨_, _, _, _, h⟩ := evtEdge_evOnly t s
  rw [h]
@[simp] theorem evtEdge_txc (t s : State) : (evtEdge t s).txc = s.txc := by
  obtain ⟨_, _, _, _, h⟩ := evtEdge_evOnly t s
  rw [h]
@[simp] theorem evtEdge_que (t s : State) : (evtEdge t s).que = s.que := by
  obtain ⟨_, _, _, _, h⟩ := evtEdge_evOnly t s
  rw [h]
@[simp] theorem evtEdge_prt (t s : State) : (evtEdge t s).prt = s.prt := by
  obtain ⟨_, _, _, _, h⟩ := evtEdge_evOnly t s
  rw [h]
@[simp] theorem evtEdge_eng (t s : State) : (evtEdge t s).eng = s.eng := by
  obtain ⟨_, _, _, _, h⟩ := evtEdge_evOnly t s
  rw [h]
@[simp] theorem evtEdge_sec (t s : State) : (evtEdge t s).sec = s.sec := by
  obtain ⟨_, _, _, _, h⟩ := evtEdge_evOnly t s
  rw [h]
@[simp] theorem evtEdge_hst (t s : State) : (evtEdge t s).hst = s.hst := by
  obtain ⟨_, _, _, _, h⟩ := evtEdge_evOnly t s
  rw [h]
@[simp] theorem evtEdge_pwr (t s : State) : (evtEdge t s).pwr = s.pwr := by
  obtain ⟨_, _, _, _, h⟩ := evtEdge_evOnly t s
  rw [h]
@[simp] theorem evtEdge_clk (t s : State) : (evtEdge t s).clk = s.clk := by
  obtain ⟨_, _, _, _, h⟩ := evtEdge_evOnly t s
  rw [h]
@[simp] theorem evtEdge_rtc (t s : State) : (evtEdge t s).rtc = s.rtc := by
  obtain ⟨_, _, _, _, h⟩ := evtEdge_evOnly t s
  rw [h]
@[simp] theorem evtEdge_two (t s : State) : (evtEdge t s).two = s.two := by
  obtain ⟨_, _, _, _, h⟩ := evtEdge_evOnly t s
  rw [h]
@[simp] theorem evtEdge_tims (t s : State) : (evtEdge t s).tims = s.tims := by
  obtain ⟨_, _, _, _, h⟩ := evtEdge_evOnly t s
  rw [h]
@[simp] theorem evtEdge_gates (t s : State) : (evtEdge t s).gates = s.gates := by
  obtain ⟨_, _, _, _, h⟩ := evtEdge_evOnly t s
  rw [h]
@[simp] theorem evtEdge_flc (t s : State) : (evtEdge t s).flc = s.flc := by
  obtain ⟨_, _, _, _, h⟩ := evtEdge_evOnly t s
  rw [h]
@[simp] theorem evtEdge_radioHeld (t s : State) : (evtEdge t s).radioHeld = s.radioHeld := by
  obtain ⟨_, _, _, _, h⟩ := evtEdge_evOnly t s
  rw [h]
@[simp] theorem evtEdge_start (t s : State) : (evtEdge t s).start = s.start := by
  obtain ⟨_, _, _, _, h⟩ := evtEdge_evOnly t s
  rw [h]
@[simp] theorem evtEdge_curves (t s : State) : (evtEdge t s).curves = s.curves := by
  obtain ⟨_, _, _, _, h⟩ := evtEdge_evOnly t s
  rw [h]

@[simp] theorem blockEvent_pending (s : State) (src : Nat) : (State.blockEvent s src).pending = s.pending := by
  obtain ⟨_, _, _, _, h⟩ := blockEvent_evOnly s src
  rw [h]
@[simp] theorem blockEvent_free (s : State) (src : Nat) : (State.blockEvent s src).free = s.free := by
  obtain ⟨_, _, _, _, h⟩ := blockEvent_evOnly s src
  rw [h]
@[simp] theorem blockEvent_now (s : State) (src : Nat) : (State.blockEvent s src).now = s.now := by
  obtain ⟨_, _, _, _, h⟩ := blockEvent_evOnly s src
  rw [h]
@[simp] theorem blockEvent_atb (s : State) (src : Nat) : (State.blockEvent s src).atb = s.atb := by
  obtain ⟨_, _, _, _, h⟩ := blockEvent_evOnly s src
  rw [h]
@[simp] theorem blockEvent_shadow (s : State) (src : Nat) : (State.blockEvent s src).shadow = s.shadow := by
  obtain ⟨_, _, _, _, h⟩ := blockEvent_evOnly s src
  rw [h]
@[simp] theorem blockEvent_heldLo (s : State) (src : Nat) : (State.blockEvent s src).heldLo = s.heldLo := by
  obtain ⟨_, _, _, _, h⟩ := blockEvent_evOnly s src
  rw [h]
@[simp] theorem blockEvent_mem (s : State) (src : Nat) : (State.blockEvent s src).mem = s.mem := by
  obtain ⟨_, _, _, _, h⟩ := blockEvent_evOnly s src
  rw [h]
@[simp] theorem blockEvent_badPar (s : State) (src : Nat) : (State.blockEvent s src).badPar = s.badPar := by
  obtain ⟨_, _, _, _, h⟩ := blockEvent_evOnly s src
  rw [h]
@[simp] theorem blockEvent_flash (s : State) (src : Nat) : (State.blockEvent s src).flash = s.flash := by
  obtain ⟨_, _, _, _, h⟩ := blockEvent_evOnly s src
  rw [h]
@[simp] theorem blockEvent_nvm (s : State) (src : Nat) : (State.blockEvent s src).nvm = s.nvm := by
  obtain ⟨_, _, _, _, h⟩ := blockEvent_evOnly s src
  rw [h]
@[simp] theorem blockEvent_fuses (s : State) (src : Nat) : (State.blockEvent s src).fuses = s.fuses := by
  obtain ⟨_, _, _, _, h⟩ := blockEvent_evOnly s src
  rw [h]
@[simp] theorem blockEvent_cnp (s : State) (src : Nat) : (State.blockEvent s src).cnp = s.cnp := by
  obtain ⟨_, _, _, _, h⟩ := blockEvent_evOnly s src
  rw [h]
@[simp] theorem blockEvent_lanes (s : State) (src : Nat) : (State.blockEvent s src).lanes = s.lanes := by
  obtain ⟨_, _, _, _, h⟩ := blockEvent_evOnly s src
  rw [h]
@[simp] theorem blockEvent_lnk (s : State) (src : Nat) : (State.blockEvent s src).lnk = s.lnk := by
  obtain ⟨_, _, _, _, h⟩ := blockEvent_evOnly s src
  rw [h]
@[simp] theorem blockEvent_txc (s : State) (src : Nat) : (State.blockEvent s src).txc = s.txc := by
  obtain ⟨_, _, _, _, h⟩ := blockEvent_evOnly s src
  rw [h]
@[simp] theorem blockEvent_que (s : State) (src : Nat) : (State.blockEvent s src).que = s.que := by
  obtain ⟨_, _, _, _, h⟩ := blockEvent_evOnly s src
  rw [h]
@[simp] theorem blockEvent_prt (s : State) (src : Nat) : (State.blockEvent s src).prt = s.prt := by
  obtain ⟨_, _, _, _, h⟩ := blockEvent_evOnly s src
  rw [h]
@[simp] theorem blockEvent_eng (s : State) (src : Nat) : (State.blockEvent s src).eng = s.eng := by
  obtain ⟨_, _, _, _, h⟩ := blockEvent_evOnly s src
  rw [h]
@[simp] theorem blockEvent_sec (s : State) (src : Nat) : (State.blockEvent s src).sec = s.sec := by
  obtain ⟨_, _, _, _, h⟩ := blockEvent_evOnly s src
  rw [h]
@[simp] theorem blockEvent_hst (s : State) (src : Nat) : (State.blockEvent s src).hst = s.hst := by
  obtain ⟨_, _, _, _, h⟩ := blockEvent_evOnly s src
  rw [h]
@[simp] theorem blockEvent_pwr (s : State) (src : Nat) : (State.blockEvent s src).pwr = s.pwr := by
  obtain ⟨_, _, _, _, h⟩ := blockEvent_evOnly s src
  rw [h]
@[simp] theorem blockEvent_clk (s : State) (src : Nat) : (State.blockEvent s src).clk = s.clk := by
  obtain ⟨_, _, _, _, h⟩ := blockEvent_evOnly s src
  rw [h]
@[simp] theorem blockEvent_rtc (s : State) (src : Nat) : (State.blockEvent s src).rtc = s.rtc := by
  obtain ⟨_, _, _, _, h⟩ := blockEvent_evOnly s src
  rw [h]
@[simp] theorem blockEvent_two (s : State) (src : Nat) : (State.blockEvent s src).two = s.two := by
  obtain ⟨_, _, _, _, h⟩ := blockEvent_evOnly s src
  rw [h]
@[simp] theorem blockEvent_tims (s : State) (src : Nat) : (State.blockEvent s src).tims = s.tims := by
  obtain ⟨_, _, _, _, h⟩ := blockEvent_evOnly s src
  rw [h]
@[simp] theorem blockEvent_gates (s : State) (src : Nat) : (State.blockEvent s src).gates = s.gates := by
  obtain ⟨_, _, _, _, h⟩ := blockEvent_evOnly s src
  rw [h]
@[simp] theorem blockEvent_flc (s : State) (src : Nat) : (State.blockEvent s src).flc = s.flc := by
  obtain ⟨_, _, _, _, h⟩ := blockEvent_evOnly s src
  rw [h]
@[simp] theorem blockEvent_radioHeld (s : State) (src : Nat) : (State.blockEvent s src).radioHeld = s.radioHeld := by
  obtain ⟨_, _, _, _, h⟩ := blockEvent_evOnly s src
  rw [h]
@[simp] theorem blockEvent_start (s : State) (src : Nat) : (State.blockEvent s src).start = s.start := by
  obtain ⟨_, _, _, _, h⟩ := blockEvent_evOnly s src
  rw [h]
@[simp] theorem blockEvent_curves (s : State) (src : Nat) : (State.blockEvent s src).curves = s.curves := by
  obtain ⟨_, _, _, _, h⟩ := blockEvent_evOnly s src
  rw [h]

@[simp] theorem raise_pending (s : State) (c b : Nat) : (State.raise s c b).pending = s.pending := by
  obtain ⟨_, _, _, _, h⟩ := raise_evOnly s c b
  rw [h]
@[simp] theorem raise_free (s : State) (c b : Nat) : (State.raise s c b).free = s.free := by
  obtain ⟨_, _, _, _, h⟩ := raise_evOnly s c b
  rw [h]
@[simp] theorem raise_now (s : State) (c b : Nat) : (State.raise s c b).now = s.now := by
  obtain ⟨_, _, _, _, h⟩ := raise_evOnly s c b
  rw [h]
@[simp] theorem raise_atb (s : State) (c b : Nat) : (State.raise s c b).atb = s.atb := by
  obtain ⟨_, _, _, _, h⟩ := raise_evOnly s c b
  rw [h]
@[simp] theorem raise_shadow (s : State) (c b : Nat) : (State.raise s c b).shadow = s.shadow := by
  obtain ⟨_, _, _, _, h⟩ := raise_evOnly s c b
  rw [h]
@[simp] theorem raise_heldLo (s : State) (c b : Nat) : (State.raise s c b).heldLo = s.heldLo := by
  obtain ⟨_, _, _, _, h⟩ := raise_evOnly s c b
  rw [h]
@[simp] theorem raise_mem (s : State) (c b : Nat) : (State.raise s c b).mem = s.mem := by
  obtain ⟨_, _, _, _, h⟩ := raise_evOnly s c b
  rw [h]
@[simp] theorem raise_badPar (s : State) (c b : Nat) : (State.raise s c b).badPar = s.badPar := by
  obtain ⟨_, _, _, _, h⟩ := raise_evOnly s c b
  rw [h]
@[simp] theorem raise_flash (s : State) (c b : Nat) : (State.raise s c b).flash = s.flash := by
  obtain ⟨_, _, _, _, h⟩ := raise_evOnly s c b
  rw [h]
@[simp] theorem raise_nvm (s : State) (c b : Nat) : (State.raise s c b).nvm = s.nvm := by
  obtain ⟨_, _, _, _, h⟩ := raise_evOnly s c b
  rw [h]
@[simp] theorem raise_fuses (s : State) (c b : Nat) : (State.raise s c b).fuses = s.fuses := by
  obtain ⟨_, _, _, _, h⟩ := raise_evOnly s c b
  rw [h]
@[simp] theorem raise_cnp (s : State) (c b : Nat) : (State.raise s c b).cnp = s.cnp := by
  obtain ⟨_, _, _, _, h⟩ := raise_evOnly s c b
  rw [h]
@[simp] theorem raise_lanes (s : State) (c b : Nat) : (State.raise s c b).lanes = s.lanes := by
  obtain ⟨_, _, _, _, h⟩ := raise_evOnly s c b
  rw [h]
@[simp] theorem raise_lnk (s : State) (c b : Nat) : (State.raise s c b).lnk = s.lnk := by
  obtain ⟨_, _, _, _, h⟩ := raise_evOnly s c b
  rw [h]
@[simp] theorem raise_txc (s : State) (c b : Nat) : (State.raise s c b).txc = s.txc := by
  obtain ⟨_, _, _, _, h⟩ := raise_evOnly s c b
  rw [h]
@[simp] theorem raise_que (s : State) (c b : Nat) : (State.raise s c b).que = s.que := by
  obtain ⟨_, _, _, _, h⟩ := raise_evOnly s c b
  rw [h]
@[simp] theorem raise_prt (s : State) (c b : Nat) : (State.raise s c b).prt = s.prt := by
  obtain ⟨_, _, _, _, h⟩ := raise_evOnly s c b
  rw [h]
@[simp] theorem raise_eng (s : State) (c b : Nat) : (State.raise s c b).eng = s.eng := by
  obtain ⟨_, _, _, _, h⟩ := raise_evOnly s c b
  rw [h]
@[simp] theorem raise_sec (s : State) (c b : Nat) : (State.raise s c b).sec = s.sec := by
  obtain ⟨_, _, _, _, h⟩ := raise_evOnly s c b
  rw [h]
@[simp] theorem raise_hst (s : State) (c b : Nat) : (State.raise s c b).hst = s.hst := by
  obtain ⟨_, _, _, _, h⟩ := raise_evOnly s c b
  rw [h]
@[simp] theorem raise_pwr (s : State) (c b : Nat) : (State.raise s c b).pwr = s.pwr := by
  obtain ⟨_, _, _, _, h⟩ := raise_evOnly s c b
  rw [h]
@[simp] theorem raise_clk (s : State) (c b : Nat) : (State.raise s c b).clk = s.clk := by
  obtain ⟨_, _, _, _, h⟩ := raise_evOnly s c b
  rw [h]
@[simp] theorem raise_rtc (s : State) (c b : Nat) : (State.raise s c b).rtc = s.rtc := by
  obtain ⟨_, _, _, _, h⟩ := raise_evOnly s c b
  rw [h]
@[simp] theorem raise_two (s : State) (c b : Nat) : (State.raise s c b).two = s.two := by
  obtain ⟨_, _, _, _, h⟩ := raise_evOnly s c b
  rw [h]
@[simp] theorem raise_tims (s : State) (c b : Nat) : (State.raise s c b).tims = s.tims := by
  obtain ⟨_, _, _, _, h⟩ := raise_evOnly s c b
  rw [h]
@[simp] theorem raise_gates (s : State) (c b : Nat) : (State.raise s c b).gates = s.gates := by
  obtain ⟨_, _, _, _, h⟩ := raise_evOnly s c b
  rw [h]
@[simp] theorem raise_flc (s : State) (c b : Nat) : (State.raise s c b).flc = s.flc := by
  obtain ⟨_, _, _, _, h⟩ := raise_evOnly s c b
  rw [h]
@[simp] theorem raise_radioHeld (s : State) (c b : Nat) : (State.raise s c b).radioHeld = s.radioHeld := by
  obtain ⟨_, _, _, _, h⟩ := raise_evOnly s c b
  rw [h]
@[simp] theorem raise_start (s : State) (c b : Nat) : (State.raise s c b).start = s.start := by
  obtain ⟨_, _, _, _, h⟩ := raise_evOnly s c b
  rw [h]
@[simp] theorem raise_curves (s : State) (c b : Nat) : (State.raise s c b).curves = s.curves := by
  obtain ⟨_, _, _, _, h⟩ := raise_evOnly s c b
  rw [h]

@[simp] theorem elapse_pending (s : State) (n : Nat) : (State.elapse n s).pending = s.pending := by
  obtain ⟨_, _, _, _, _, _, h⟩ := elapse_timeOnly n s
  rw [h]
@[simp] theorem elapse_free (s : State) (n : Nat) : (State.elapse n s).free = s.free := by
  obtain ⟨_, _, _, _, _, _, h⟩ := elapse_timeOnly n s
  rw [h]
@[simp] theorem elapse_shadow (s : State) (n : Nat) : (State.elapse n s).shadow = s.shadow := by
  obtain ⟨_, _, _, _, _, _, h⟩ := elapse_timeOnly n s
  rw [h]
@[simp] theorem elapse_heldLo (s : State) (n : Nat) : (State.elapse n s).heldLo = s.heldLo := by
  obtain ⟨_, _, _, _, _, _, h⟩ := elapse_timeOnly n s
  rw [h]
@[simp] theorem elapse_vregs (s : State) (n : Nat) : (State.elapse n s).vregs = s.vregs := by
  obtain ⟨_, _, _, _, _, _, h⟩ := elapse_timeOnly n s
  rw [h]
@[simp] theorem elapse_mem (s : State) (n : Nat) : (State.elapse n s).mem = s.mem := by
  obtain ⟨_, _, _, _, _, _, h⟩ := elapse_timeOnly n s
  rw [h]
@[simp] theorem elapse_badPar (s : State) (n : Nat) : (State.elapse n s).badPar = s.badPar := by
  obtain ⟨_, _, _, _, _, _, h⟩ := elapse_timeOnly n s
  rw [h]
@[simp] theorem elapse_flash (s : State) (n : Nat) : (State.elapse n s).flash = s.flash := by
  obtain ⟨_, _, _, _, _, _, h⟩ := elapse_timeOnly n s
  rw [h]
@[simp] theorem elapse_nvm (s : State) (n : Nat) : (State.elapse n s).nvm = s.nvm := by
  obtain ⟨_, _, _, _, _, _, h⟩ := elapse_timeOnly n s
  rw [h]
@[simp] theorem elapse_fuses (s : State) (n : Nat) : (State.elapse n s).fuses = s.fuses := by
  obtain ⟨_, _, _, _, _, _, h⟩ := elapse_timeOnly n s
  rw [h]
@[simp] theorem elapse_cnp (s : State) (n : Nat) : (State.elapse n s).cnp = s.cnp := by
  obtain ⟨_, _, _, _, _, _, h⟩ := elapse_timeOnly n s
  rw [h]
@[simp] theorem elapse_lanes (s : State) (n : Nat) : (State.elapse n s).lanes = s.lanes := by
  obtain ⟨_, _, _, _, _, _, h⟩ := elapse_timeOnly n s
  rw [h]
@[simp] theorem elapse_lnk (s : State) (n : Nat) : (State.elapse n s).lnk = s.lnk := by
  obtain ⟨_, _, _, _, _, _, h⟩ := elapse_timeOnly n s
  rw [h]
@[simp] theorem elapse_txc (s : State) (n : Nat) : (State.elapse n s).txc = s.txc := by
  obtain ⟨_, _, _, _, _, _, h⟩ := elapse_timeOnly n s
  rw [h]
@[simp] theorem elapse_que (s : State) (n : Nat) : (State.elapse n s).que = s.que := by
  obtain ⟨_, _, _, _, _, _, h⟩ := elapse_timeOnly n s
  rw [h]
@[simp] theorem elapse_prt (s : State) (n : Nat) : (State.elapse n s).prt = s.prt := by
  obtain ⟨_, _, _, _, _, _, h⟩ := elapse_timeOnly n s
  rw [h]
@[simp] theorem elapse_eng (s : State) (n : Nat) : (State.elapse n s).eng = s.eng := by
  obtain ⟨_, _, _, _, _, _, h⟩ := elapse_timeOnly n s
  rw [h]
@[simp] theorem elapse_sec (s : State) (n : Nat) : (State.elapse n s).sec = s.sec := by
  obtain ⟨_, _, _, _, _, _, h⟩ := elapse_timeOnly n s
  rw [h]
@[simp] theorem elapse_hst (s : State) (n : Nat) : (State.elapse n s).hst = s.hst := by
  obtain ⟨_, _, _, _, _, _, h⟩ := elapse_timeOnly n s
  rw [h]
@[simp] theorem elapse_pwr (s : State) (n : Nat) : (State.elapse n s).pwr = s.pwr := by
  obtain ⟨_, _, _, _, _, _, h⟩ := elapse_timeOnly n s
  rw [h]
@[simp] theorem elapse_evr (s : State) (n : Nat) : (State.elapse n s).evr = s.evr := by
  obtain ⟨_, _, _, _, _, _, h⟩ := elapse_timeOnly n s
  rw [h]
@[simp] theorem elapse_two (s : State) (n : Nat) : (State.elapse n s).two = s.two := by
  obtain ⟨_, _, _, _, _, _, h⟩ := elapse_timeOnly n s
  rw [h]
@[simp] theorem elapse_gates (s : State) (n : Nat) : (State.elapse n s).gates = s.gates := by
  obtain ⟨_, _, _, _, _, _, h⟩ := elapse_timeOnly n s
  rw [h]
@[simp] theorem elapse_flc (s : State) (n : Nat) : (State.elapse n s).flc = s.flc := by
  obtain ⟨_, _, _, _, _, _, h⟩ := elapse_timeOnly n s
  rw [h]
@[simp] theorem elapse_radioHeld (s : State) (n : Nat) : (State.elapse n s).radioHeld = s.radioHeld := by
  obtain ⟨_, _, _, _, _, _, h⟩ := elapse_timeOnly n s
  rw [h]
@[simp] theorem elapse_start (s : State) (n : Nat) : (State.elapse n s).start = s.start := by
  obtain ⟨_, _, _, _, _, _, h⟩ := elapse_timeOnly n s
  rw [h]
@[simp] theorem elapse_curves (s : State) (n : Nat) : (State.elapse n s).curves = s.curves := by
  obtain ⟨_, _, _, _, _, _, h⟩ := elapse_timeOnly n s
  rw [h]
@[simp] theorem elapse_posted (s : State) (n : Nat) : (State.elapse n s).posted = s.posted := by
  obtain ⟨_, _, _, _, _, _, h⟩ := elapse_timeOnly n s
  rw [h]

@[simp] theorem at_pending (s : State) (t : Nat) : (State.at_ s t).pending = s.pending := by
  obtain ⟨_, _, _, _, _, _, h⟩ := at_timeOnly s t
  rw [h]
@[simp] theorem at_free (s : State) (t : Nat) : (State.at_ s t).free = s.free := by
  obtain ⟨_, _, _, _, _, _, h⟩ := at_timeOnly s t
  rw [h]
@[simp] theorem at_shadow (s : State) (t : Nat) : (State.at_ s t).shadow = s.shadow := by
  obtain ⟨_, _, _, _, _, _, h⟩ := at_timeOnly s t
  rw [h]
@[simp] theorem at_heldLo (s : State) (t : Nat) : (State.at_ s t).heldLo = s.heldLo := by
  obtain ⟨_, _, _, _, _, _, h⟩ := at_timeOnly s t
  rw [h]
@[simp] theorem at_vregs (s : State) (t : Nat) : (State.at_ s t).vregs = s.vregs := by
  obtain ⟨_, _, _, _, _, _, h⟩ := at_timeOnly s t
  rw [h]
@[simp] theorem at_mem (s : State) (t : Nat) : (State.at_ s t).mem = s.mem := by
  obtain ⟨_, _, _, _, _, _, h⟩ := at_timeOnly s t
  rw [h]
@[simp] theorem at_badPar (s : State) (t : Nat) : (State.at_ s t).badPar = s.badPar := by
  obtain ⟨_, _, _, _, _, _, h⟩ := at_timeOnly s t
  rw [h]
@[simp] theorem at_flash (s : State) (t : Nat) : (State.at_ s t).flash = s.flash := by
  obtain ⟨_, _, _, _, _, _, h⟩ := at_timeOnly s t
  rw [h]
@[simp] theorem at_nvm (s : State) (t : Nat) : (State.at_ s t).nvm = s.nvm := by
  obtain ⟨_, _, _, _, _, _, h⟩ := at_timeOnly s t
  rw [h]
@[simp] theorem at_fuses (s : State) (t : Nat) : (State.at_ s t).fuses = s.fuses := by
  obtain ⟨_, _, _, _, _, _, h⟩ := at_timeOnly s t
  rw [h]
@[simp] theorem at_cnp (s : State) (t : Nat) : (State.at_ s t).cnp = s.cnp := by
  obtain ⟨_, _, _, _, _, _, h⟩ := at_timeOnly s t
  rw [h]
@[simp] theorem at_lanes (s : State) (t : Nat) : (State.at_ s t).lanes = s.lanes := by
  obtain ⟨_, _, _, _, _, _, h⟩ := at_timeOnly s t
  rw [h]
@[simp] theorem at_lnk (s : State) (t : Nat) : (State.at_ s t).lnk = s.lnk := by
  obtain ⟨_, _, _, _, _, _, h⟩ := at_timeOnly s t
  rw [h]
@[simp] theorem at_txc (s : State) (t : Nat) : (State.at_ s t).txc = s.txc := by
  obtain ⟨_, _, _, _, _, _, h⟩ := at_timeOnly s t
  rw [h]
@[simp] theorem at_que (s : State) (t : Nat) : (State.at_ s t).que = s.que := by
  obtain ⟨_, _, _, _, _, _, h⟩ := at_timeOnly s t
  rw [h]
@[simp] theorem at_prt (s : State) (t : Nat) : (State.at_ s t).prt = s.prt := by
  obtain ⟨_, _, _, _, _, _, h⟩ := at_timeOnly s t
  rw [h]
@[simp] theorem at_eng (s : State) (t : Nat) : (State.at_ s t).eng = s.eng := by
  obtain ⟨_, _, _, _, _, _, h⟩ := at_timeOnly s t
  rw [h]
@[simp] theorem at_sec (s : State) (t : Nat) : (State.at_ s t).sec = s.sec := by
  obtain ⟨_, _, _, _, _, _, h⟩ := at_timeOnly s t
  rw [h]
@[simp] theorem at_hst (s : State) (t : Nat) : (State.at_ s t).hst = s.hst := by
  obtain ⟨_, _, _, _, _, _, h⟩ := at_timeOnly s t
  rw [h]
@[simp] theorem at_pwr (s : State) (t : Nat) : (State.at_ s t).pwr = s.pwr := by
  obtain ⟨_, _, _, _, _, _, h⟩ := at_timeOnly s t
  rw [h]
@[simp] theorem at_evr (s : State) (t : Nat) : (State.at_ s t).evr = s.evr := by
  obtain ⟨_, _, _, _, _, _, h⟩ := at_timeOnly s t
  rw [h]
@[simp] theorem at_two (s : State) (t : Nat) : (State.at_ s t).two = s.two := by
  obtain ⟨_, _, _, _, _, _, h⟩ := at_timeOnly s t
  rw [h]
@[simp] theorem at_gates (s : State) (t : Nat) : (State.at_ s t).gates = s.gates := by
  obtain ⟨_, _, _, _, _, _, h⟩ := at_timeOnly s t
  rw [h]
@[simp] theorem at_flc (s : State) (t : Nat) : (State.at_ s t).flc = s.flc := by
  obtain ⟨_, _, _, _, _, _, h⟩ := at_timeOnly s t
  rw [h]
@[simp] theorem at_radioHeld (s : State) (t : Nat) : (State.at_ s t).radioHeld = s.radioHeld := by
  obtain ⟨_, _, _, _, _, _, h⟩ := at_timeOnly s t
  rw [h]
@[simp] theorem at_start (s : State) (t : Nat) : (State.at_ s t).start = s.start := by
  obtain ⟨_, _, _, _, _, _, h⟩ := at_timeOnly s t
  rw [h]
@[simp] theorem at_curves (s : State) (t : Nat) : (State.at_ s t).curves = s.curves := by
  obtain ⟨_, _, _, _, _, _, h⟩ := at_timeOnly s t
  rw [h]
@[simp] theorem at_posted (s : State) (t : Nat) : (State.at_ s t).posted = s.posted := by
  obtain ⟨_, _, _, _, _, _, h⟩ := at_timeOnly s t
  rw [h]

@[simp] theorem bark_pending (s : State) (tag src tgt index : Nat) : (State.bark s tag src tgt index).pending = s.pending := by
  obtain ⟨_, _, _, _, _, h⟩ := bark_evOnly s tag src tgt index
  rw [h]
@[simp] theorem bark_free (s : State) (tag src tgt index : Nat) : (State.bark s tag src tgt index).free = s.free := by
  obtain ⟨_, _, _, _, _, h⟩ := bark_evOnly s tag src tgt index
  rw [h]
@[simp] theorem bark_now (s : State) (tag src tgt index : Nat) : (State.bark s tag src tgt index).now = s.now := by
  obtain ⟨_, _, _, _, _, h⟩ := bark_evOnly s tag src tgt index
  rw [h]
@[simp] theorem bark_atb (s : State) (tag src tgt index : Nat) : (State.bark s tag src tgt index).atb = s.atb := by
  obtain ⟨_, _, _, _, _, h⟩ := bark_evOnly s tag src tgt index
  rw [h]
@[simp] theorem bark_shadow (s : State) (tag src tgt index : Nat) : (State.bark s tag src tgt index).shadow = s.shadow := by
  obtain ⟨_, _, _, _, _, h⟩ := bark_evOnly s tag src tgt index
  rw [h]
@[simp] theorem bark_heldLo (s : State) (tag src tgt index : Nat) : (State.bark s tag src tgt index).heldLo = s.heldLo := by
  obtain ⟨_, _, _, _, _, h⟩ := bark_evOnly s tag src tgt index
  rw [h]
@[simp] theorem bark_mem (s : State) (tag src tgt index : Nat) : (State.bark s tag src tgt index).mem = s.mem := by
  obtain ⟨_, _, _, _, _, h⟩ := bark_evOnly s tag src tgt index
  rw [h]
@[simp] theorem bark_badPar (s : State) (tag src tgt index : Nat) : (State.bark s tag src tgt index).badPar = s.badPar := by
  obtain ⟨_, _, _, _, _, h⟩ := bark_evOnly s tag src tgt index
  rw [h]
@[simp] theorem bark_flash (s : State) (tag src tgt index : Nat) : (State.bark s tag src tgt index).flash = s.flash := by
  obtain ⟨_, _, _, _, _, h⟩ := bark_evOnly s tag src tgt index
  rw [h]
@[simp] theorem bark_nvm (s : State) (tag src tgt index : Nat) : (State.bark s tag src tgt index).nvm = s.nvm := by
  obtain ⟨_, _, _, _, _, h⟩ := bark_evOnly s tag src tgt index
  rw [h]
@[simp] theorem bark_fuses (s : State) (tag src tgt index : Nat) : (State.bark s tag src tgt index).fuses = s.fuses := by
  obtain ⟨_, _, _, _, _, h⟩ := bark_evOnly s tag src tgt index
  rw [h]
@[simp] theorem bark_cnp (s : State) (tag src tgt index : Nat) : (State.bark s tag src tgt index).cnp = s.cnp := by
  obtain ⟨_, _, _, _, _, h⟩ := bark_evOnly s tag src tgt index
  rw [h]
@[simp] theorem bark_lanes (s : State) (tag src tgt index : Nat) : (State.bark s tag src tgt index).lanes = s.lanes := by
  obtain ⟨_, _, _, _, _, h⟩ := bark_evOnly s tag src tgt index
  rw [h]
@[simp] theorem bark_lnk (s : State) (tag src tgt index : Nat) : (State.bark s tag src tgt index).lnk = s.lnk := by
  obtain ⟨_, _, _, _, _, h⟩ := bark_evOnly s tag src tgt index
  rw [h]
@[simp] theorem bark_txc (s : State) (tag src tgt index : Nat) : (State.bark s tag src tgt index).txc = s.txc := by
  obtain ⟨_, _, _, _, _, h⟩ := bark_evOnly s tag src tgt index
  rw [h]
@[simp] theorem bark_que (s : State) (tag src tgt index : Nat) : (State.bark s tag src tgt index).que = s.que := by
  obtain ⟨_, _, _, _, _, h⟩ := bark_evOnly s tag src tgt index
  rw [h]
@[simp] theorem bark_eng (s : State) (tag src tgt index : Nat) : (State.bark s tag src tgt index).eng = s.eng := by
  obtain ⟨_, _, _, _, _, h⟩ := bark_evOnly s tag src tgt index
  rw [h]
@[simp] theorem bark_sec (s : State) (tag src tgt index : Nat) : (State.bark s tag src tgt index).sec = s.sec := by
  obtain ⟨_, _, _, _, _, h⟩ := bark_evOnly s tag src tgt index
  rw [h]
@[simp] theorem bark_hst (s : State) (tag src tgt index : Nat) : (State.bark s tag src tgt index).hst = s.hst := by
  obtain ⟨_, _, _, _, _, h⟩ := bark_evOnly s tag src tgt index
  rw [h]
@[simp] theorem bark_pwr (s : State) (tag src tgt index : Nat) : (State.bark s tag src tgt index).pwr = s.pwr := by
  obtain ⟨_, _, _, _, _, h⟩ := bark_evOnly s tag src tgt index
  rw [h]
@[simp] theorem bark_clk (s : State) (tag src tgt index : Nat) : (State.bark s tag src tgt index).clk = s.clk := by
  obtain ⟨_, _, _, _, _, h⟩ := bark_evOnly s tag src tgt index
  rw [h]
@[simp] theorem bark_rtc (s : State) (tag src tgt index : Nat) : (State.bark s tag src tgt index).rtc = s.rtc := by
  obtain ⟨_, _, _, _, _, h⟩ := bark_evOnly s tag src tgt index
  rw [h]
@[simp] theorem bark_two (s : State) (tag src tgt index : Nat) : (State.bark s tag src tgt index).two = s.two := by
  obtain ⟨_, _, _, _, _, h⟩ := bark_evOnly s tag src tgt index
  rw [h]
@[simp] theorem bark_tims (s : State) (tag src tgt index : Nat) : (State.bark s tag src tgt index).tims = s.tims := by
  obtain ⟨_, _, _, _, _, h⟩ := bark_evOnly s tag src tgt index
  rw [h]
@[simp] theorem bark_gates (s : State) (tag src tgt index : Nat) : (State.bark s tag src tgt index).gates = s.gates := by
  obtain ⟨_, _, _, _, _, h⟩ := bark_evOnly s tag src tgt index
  rw [h]
@[simp] theorem bark_flc (s : State) (tag src tgt index : Nat) : (State.bark s tag src tgt index).flc = s.flc := by
  obtain ⟨_, _, _, _, _, h⟩ := bark_evOnly s tag src tgt index
  rw [h]
@[simp] theorem bark_radioHeld (s : State) (tag src tgt index : Nat) : (State.bark s tag src tgt index).radioHeld = s.radioHeld := by
  obtain ⟨_, _, _, _, _, h⟩ := bark_evOnly s tag src tgt index
  rw [h]
@[simp] theorem bark_start (s : State) (tag src tgt index : Nat) : (State.bark s tag src tgt index).start = s.start := by
  obtain ⟨_, _, _, _, _, h⟩ := bark_evOnly s tag src tgt index
  rw [h]
@[simp] theorem bark_curves (s : State) (tag src tgt index : Nat) : (State.bark s tag src tgt index).curves = s.curves := by
  obtain ⟨_, _, _, _, _, h⟩ := bark_evOnly s tag src tgt index
  rw [h]

/-! ## Registers -/

/-- A register outside the pending-bit array reads as before. -/
theorem setPbaWord_reg (s : State) (fn v w a : Nat) (h : s.inv = true) (ha : a ≠ HST_PBA.reg (v / 32)) : (setPbaWord fn v w s).reg a = s.reg a := by
  unfold setPbaWord
  split
  · exact reg_setReg_other _ _ _ _ ha (inv_regs h)
  · exact setVreg_reg _ _ _ _ _

theorem sendMsix_reg (s : State) (fn v a : Nat) (h : s.inv = true) (ha : noPba a) (hv : v < 2048) : (s.sendMsix fn v).reg a = s.reg a := by
  have hp : a ≠ HST_PBA.reg (v / 32) := by
    unfold noPba HST_PBA.reg at ha
    unfold HST_PBA.reg
    omega
  unfold State.sendMsix
  split
  · rfl
  · split
    · exact setPbaWord_reg _ _ _ _ _ h hp
    · rfl

theorem evtEdge_reg (s t : State) (a : Nat) (h : t.inv = true) (ha : noPba a) : (evtEdge s t).reg a = t.reg a := by
  unfold evtEdge
  split
  · exact sendMsix_reg _ _ _ _ h ha (bf_lt _ 0 11)
  · rfl

@[simp] theorem blockEvent_reg (s : State) (src a : Nat) : (s.blockEvent src).reg a = s.reg a :=
  foldl_same (·.reg a) _ _ _ (fun _ _ => rfl)

theorem inv_blockEvent {s : State} (h : s.inv = true) (src : Nat) : (s.blockEvent src).inv = true := kept_inv (kept_blockEvent s src (kept_refl h))

/-- Raising an event leaves every register but the block's EVT_STS and the pending-bit array. -/
theorem raise_reg (s : State) (c b a : Nat) (h : s.inv = true) (ha : noPba a) (he : evtReg c ≠ some a) : (s.raise c b).reg a = s.reg a := by
  unfold State.raise
  split
  · rename_i r e
    have hr : a ≠ r := fun x => he (by rw [e, x])
    rw [evtEdge_reg _ _ _ (inv_blockEvent (inv_wr h _ _) _) ha, blockEvent_reg, reg_wr_other _ _ _ _ hr h]
  · rw [blockEvent_reg]

theorem noPba_evt {c r : Nat} (e : evtReg c = some r) : noPba r := by
  unfold evtReg at e
  unfold noPba HST_PBA.reg
  split at e <;> first | (obtain rfl := Option.some.inj e; decide) | exact absurd e (by simp)

/-- The event's own bit reads one. -/
theorem raise_flagged (s : State) (c b r : Nat) (h : s.inv = true) (e : evtReg c = some r) (hb : b < 32) : flagged (s.raise c b) c b := by
  refine ⟨r, e, ?_⟩
  have h1 := inv_blockEvent (inv_wr h ⟨r, b, 1⟩ 1) (32 * c + b)
  unfold State.raise
  rw [e]
  unfold State.rd
  dsimp only
  rw [evtEdge_reg _ _ _ h1 (noPba_evt e), blockEvent_reg]
  exact rd_wr_same s ⟨r, b, 1⟩ 1 (by simp only; omega) h

/-- Raising an event only raises it. -/
theorem raise_raisedOnly (s : State) (c b r : Nat) (h : s.inv = true) (e : evtReg c = some r) : raisedOnly s (s.raise c b) [r] := by
  refine ⟨?_, fun a ha hp => raise_reg s c b a h hp (fun x => ha ?_)⟩
  · obtain ⟨_, _, _, _, x⟩ := raise_evOnly s c b
    rw [x]
  · rw [e] at x
    simp [Option.some.inj x]

/-- A field of a register that is neither the block's event status nor in the pending-bit array reads as before. -/
theorem raise_rd (s : State) (c b : Nat) (f : RegFld) (h : s.inv = true) (ha : noPba f.addr) (he : evtReg c ≠ some f.addr) :
    (s.raise c b).rd f = s.rd f := by
  unfold State.rd
  rw [raise_reg s c b _ h ha he]

theorem raisedOnly_refl (s : State) (as : List Nat) : raisedOnly s s as := ⟨rfl, fun _ _ _ => rfl⟩

theorem raisedOnly_trans {s t u : State} {as bs : List Nat} (a : raisedOnly s t as) (b : raisedOnly t u bs) : raisedOnly s u (as ++ bs) := by
  refine ⟨?_, fun x hx hp => ?_⟩
  · rw [b.1, a.1]
  · rw [List.mem_append, not_or] at hx
    exact (b.2 x hx.2 hp).trans (a.2 x hx.1 hp)

theorem raisedOnly_sub {s t : State} {as bs : List Nat} (a : raisedOnly s t as) (h : as ⊆ bs) : raisedOnly s t bs :=
  ⟨a.1, fun x hx hp => a.2 x (fun y => hx (h y)) hp⟩

theorem setReg_raisedOnly (s : State) (a : Nat) (v : Word) (h : s.inv = true) : raisedOnly s (s.setReg a v) [a] :=
  ⟨rfl, fun x hx _ => reg_setReg_other s a x v (by simpa using hx) (inv_regs h)⟩

theorem wr_raisedOnly (s : State) (f : RegFld) (v : Nat) (h : s.inv = true) : raisedOnly s (s.wr f v) [f.addr] :=
  setReg_raisedOnly s f.addr _ h

theorem tickTimer_regs (t n : Nat) (s : State) : ∃ c, (tickTimer t n s).regs = (s.wr (TIM_CNT.COUNT t) c).regs := by
  unfold tickTimer
  exact ⟨_, rfl⟩

theorem tickTimer_reg (t n a : Nat) (s : State) (h : s.inv = true) (ha : a < 0x40000 ∨ 0x50000 ≤ a) (ht : t < 32) :
    (tickTimer t n s).reg a = s.reg a := by
  have hn : a ≠ (TIM_CNT.COUNT t).addr := by
    simp only [TIM_CNT.COUNT, TIM_CNT.reg]
    omega
  obtain ⟨c, e⟩ := tickTimer_regs t n s
  unfold State.reg
  rw [e]
  exact reg_wr_other s _ c a hn h

theorem tickRtc_reg (x a : Nat) (s : State) (h : s.inv = true) (ha : a ≠ RTC_SUBSEC.reg) : (tickRtc x s).reg a = s.reg a := by
  unfold tickRtc
  split
  · rfl
  · obtain ⟨c, e⟩ : ∃ c, (tickRtc x s).regs = (s.wr RTC_SUBSEC.COUNT c).regs := by
      unfold tickRtc
      rw [if_neg (by assumption)]
      exact ⟨_, rfl⟩
    unfold tickRtc at e
    rw [if_neg (by assumption)] at e
    unfold State.reg
    rw [e]
    exact reg_wr_other s _ c a ha h

/-- Time changes only the timers' counts and the RTC's sub-second count (R390, R395). -/
theorem elapse_reg (n a : Nat) (s : State) (h : s.inv = true) (ha : a < 0x30000 ∨ 0x50000 ≤ a) : (s.elapse n).reg a = s.reg a := by
  have fold : ∀ (l : List Nat) (e : Nat → Nat), (∀ t ∈ l, t < 32) → ∀ u : State, u.inv = true →
      (l.foldl (fun u t => tickTimer t (e t) u) u).reg a = u.reg a ∧ (l.foldl (fun u t => tickTimer t (e t) u) u).inv = true := by
    intro l e
    induction l with
    | nil => exact fun _ u hu => ⟨rfl, hu⟩
    | cons t ts ih =>
      intro hl u hu
      have h1 := kept_inv (kept_tickTimer t (e t) u (kept_refl hu))
      have h2 := ih (fun x hx => hl x (List.mem_cons_of_mem _ hx)) _ h1
      exact ⟨h2.1.trans (tickTimer_reg t (e t) a u hu (by omega) (hl t List.mem_cons_self)), h2.2⟩
  have hf := fold (runningTimers s) (fun t => timerEdges s t n (xkEdges s n))
    (fun t ht => List.mem_range.mp (List.mem_of_mem_filter ht)) s h
  unfold State.elapse
  split
  · rfl
  · show sget regReset _ a = s.reg a
    dsimp only
    split
    · exact hf.1
    · exact (tickRtc_reg _ a _ hf.2 (by simp only [RTC_SUBSEC.reg]; omega)).trans hf.1

theorem at_reg (t a : Nat) (s : State) (h : s.inv = true) (ha : a < 0x30000 ∨ 0x50000 ≤ a) : (s.at_ t).reg a = s.reg a := by
  unfold State.at_
  split
  · exact elapse_reg _ _ _ h ha
  · rfl

theorem inv_at {s : State} (h : s.inv = true) (t : Nat) : (s.at_ t).inv = true := kept_inv (kept_at_ s t (kept_refl h))

theorem inv_incBy {s : State} (h : s.inv = true) (f : RegFld) (n : Nat) : (s.incBy f n).inv = true := inv_wr h _ _

theorem inv_inc {s : State} (h : s.inv = true) (f : RegFld) : (s.inc f).inv = true := inv_wr h _ _

theorem inv_bump {s : State} (h : s.inv = true) (f : RegFld) : (s.bump f).inv = true := inv_wr h _ _

theorem inv_post {s : State} (h : s.inv = true) (p : Posted) : (s.post p).inv = true := h

theorem inv_bark {s : State} (h : s.inv = true) (t c g i : Nat) : (s.bark t c g i).inv = true := kept_inv (kept_bark s t c g i (kept_refl h))

theorem inv_setCore {s : State} (h : s.inv = true) (c : Nat) (k : FCore) (hk : coreWf c k = true) : (s.setCore c k).inv = true :=
  kept_inv (kept_setCore s c k (kept_refl h) hk)

theorem inv_setG {s : State} (h : s.inv = true) (c r : Nat) (v : Word) : (s.setG c r v).inv = true := kept_inv (kept_setG s c r v (kept_refl h))

theorem inv_setSys {s : State} (h : s.inv = true) (c n : Nat) (v : Word) : (s.setSys c n v).inv = true := kept_inv (kept_setSys s c n v (kept_refl h))

theorem inv_setPc {s : State} (h : s.inv = true) (c a : Nat) : (s.setPc c a).inv = true := kept_inv (kept_setPc s c a (kept_refl h))

/-- A field that is written reads its new value and nothing else changes. -/
theorem wr_sets (s : State) (f : RegFld) (v : Nat) (h : s.inv = true) (hf : f.lo + f.w ≤ 32) (hv : v < 2 ^ f.w) : sets s (s.wr f v) f v := by
  refine ⟨?_, ⟨rfl, fun a ha => ?_⟩, fun lo w hd => ?_⟩
  · rw [rd_wr_same _ _ _ hf h, Nat.mod_eq_of_lt hv]
  · exact reg_wr_other _ _ _ _ (by simpa using ha) h
  · unfold State.wr
    rw [reg_setReg_same _ _ _ (inv_regs h), bf_bfSet_other _ _ _ _ _ _ hf hd]

/-- A counter counts up to its width's limit and nothing else changes. -/
theorem incBy_sets (s : State) (f : RegFld) (n : Nat) (h : s.inv = true) (hf : f.lo + f.w ≤ 32) :
    sets s (s.incBy f n) f (min (2 ^ f.w - 1) (s.rd f + n)) := by
  refine wr_sets s f _ h hf ?_
  have := Nat.two_pow_pos f.w
  omega

/-- Registers that are cleared read zero and nothing else changes. -/
theorem zero_clears (fs : List RegFld) : ∀ s : State, s.inv = true → (∀ f ∈ fs, f.lo + f.w ≤ 32) → (fs.map (·.addr)).Nodup →
    clears s (s.zero fs) fs := by
  induction fs with
  | nil => exact fun s _ _ _ => ⟨fun f hf => absurd hf List.not_mem_nil, rfl, fun a _ => rfl⟩
  | cons f fs ih =>
    intro s h hw hn
    rw [List.map_cons, List.nodup_cons] at hn
    have h1 := inv_wr h f 0
    obtain ⟨hz, ht, ho⟩ := ih (s.wr f 0) h1 (fun g hg => hw g (List.mem_cons_of_mem _ hg)) hn.2
    refine ⟨fun g hg => ?_, ht, fun a ha => ?_⟩
    · rcases List.mem_cons.mp hg with e | e
      · subst e
        unfold State.rd
        rw [show (s.zero (g :: fs)).reg g.addr = ((s.wr g 0).zero fs).reg g.addr from rfl, ho _ hn.1]
        have := rd_wr_same s g 0 (hw g List.mem_cons_self) h
        unfold State.rd at this
        rw [this, Nat.zero_mod]
      · exact hz g e
    · rw [List.map_cons, List.mem_cons, not_or] at ha
      exact (ho a ha.2).trans (reg_wr_other _ _ _ _ ha.1 h)

end Sys2Proof.Machine
end

