-- ==== Sys2Proof/Laws/Flash.lean ====
section
/-! SUPPORT. What programs and erases do where no sector is remapped, bad, marked or unreliable: an erase clears its sector, a program
stores its octets, and nothing else of the array changes. -/

namespace Sys2Proof.Machine

/-- Flash without spares in use, bad or failed sectors, marks or unreliable data, in canonical form, with no erase suspended or running
and no overlay. -/
structure Flash.Plain (s : State) : Prop where
  wf : flashWf s.flash = true
  copies : ∀ c ∈ [s.nvm.copyA, s.nvm.copyB], c.spares = [] ∧ c.bad = []
  torn : s.nvm.torn = []
  wild : s.nvm.wild = []
  marks : s.nvm.marks = []
  failed : s.nvm.failed = []
  idle : s.flc.op = none ∧ s.flc.resume = none
  clear : ∀ sec, overlay s sec = false

theorem Flash.plain_info {s : State} (h : Flash.Plain s) : s.info.spares = [] ∧ s.info.bad = [] := by
  unfold State.info; split
  · exact h.copies _ (by simp)
  · exact h.copies _ (by simp)

theorem Flash.plain_spareOf {s : State} (h : Flash.Plain s) (sec : Nat) : spareOf s sec = none := by
  unfold spareOf spareUse
  rw [(Flash.plain_info h).1, List.find?_eq_none]
  intro k _
  simp [sget]; omega

theorem Flash.plain_physSector {s : State} (h : Flash.Plain s) (sec : Nat) : physSector s sec = sec := by
  unfold physSector; rw [Flash.plain_spareOf h]

theorem Flash.plain_physAddr {s : State} (h : Flash.Plain s) (a : Nat) : physAddr s a = a := by
  unfold physAddr; rw [Flash.plain_physSector h]; omega

theorem Flash.plain_byte {s : State} (h : Flash.Plain s) (a : Nat) : flashByte s a = sget (fun _ => 255) s.flash a := by
  unfold flashByte physByte; rw [Flash.plain_physAddr h, h.torn, h.wild]; rfl

theorem Flash.plain_bad {s : State} (h : Flash.Plain s) (sec : Nat) : sectorBad s sec = false := by
  unfold sectorBad; rw [(Flash.plain_info h).2]; rfl

theorem Flash.plain_open {s : State} (h : Flash.Plain s) (sec : Nat) : sectorOpen s sec = false := by
  unfold sectorOpen underErase openErases; rw [h.marks, h.idle.1, h.idle.2]; rfl

theorem Flash.plain_check {s : State} (h : Flash.Plain s) (w : Nat) : physCheck s w = sget (fun _ => 511) s.nvm.check w := by
  unfold physCheck; rw [h.torn, h.wild]; rfl

/-- A range whose stored data and check bits are all ones is blank. -/
theorem Flash.plain_blank {s : State} (h : Flash.Plain s) (a n : Nat) (e : ∀ x, a ≤ x → x < a + n → sget (fun _ => (255 : Byte)) s.flash x = 255)
    (c : ∀ k, k < n / 16 → sget (fun _ => 511) s.nvm.check ((a + 16 * k) / 16) = 511) : flashBlank s a n = true := by
  unfold flashBlank flashBytes
  rw [Bool.and_eq_true, List.all_eq_true, List.all_eq_true]
  constructor
  · intro b hb
    rw [List.mem_map] at hb
    obtain ⟨k, hk, rfl⟩ := hb
    rw [List.mem_range] at hk
    rw [Flash.plain_byte h, e _ (by omega) (by omega)]; rfl
  · intro k hk
    rw [Flash.plain_physAddr h, Flash.plain_check h, c k (List.mem_range.mp hk), h.torn]; rfl

theorem Flash.putFlash_out : ∀ (bs : List Byte) (p : Nat) (m : List Host.Cell) (x : Nat), flashWf m = true → x < p ∨ p + bs.length ≤ x →
    sget (fun _ => (255 : Byte)) (putFlash bs p m) x = sget (fun _ => (255 : Byte)) m x
  | [], _, _, _, _, _ => rfl
  | b :: bs, p, m, x, h, hx => by
    rw [List.length_cons] at hx
    unfold putFlash
    rw [Flash.putFlash_out bs (p + 1) _ x (sset_swf _ m p b h) (by omega), sget_sset_other _ _ _ _ _ (by omega) h]

theorem Flash.putFlash_in : ∀ (bs : List Byte) (p : Nat) (m : List Host.Cell) (i : Nat), flashWf m = true → (hi : i < bs.length) →
    sget (fun _ => (255 : Byte)) (putFlash bs p m) (p + i) = bs[i]
  | b :: bs, p, m, 0, h, _ => by
    unfold putFlash
    rw [Flash.putFlash_out bs (p + 1) _ _ (sset_swf _ m p b h) (by omega)]
    exact sget_sset_same _ m p b h
  | b :: bs, p, m, i + 1, h, hi => by
    unfold putFlash
    rw [show p + (i + 1) = p + 1 + i by omega, Flash.putFlash_in bs (p + 1) _ i (sset_swf _ m p b h) (by simpa using hi)]
    rfl

theorem Flash.plain_word {s : State} (h : Flash.Plain s) (a : Nat) (w : List Byte) :
    Flash.Plain (programWord s a w) ∧ (programWord s a w).flash = putFlash w a s.flash ∧ (programWord s a w).regs = s.regs := by
  have e : (programWord s a w).flash = putFlash w a s.flash := by
    unfold programWord; simp only [h.clear, Flash.plain_physAddr h, Bool.false_eq_true, if_false]
  refine ⟨⟨?_, h.copies, ?_, h.wild, h.marks, h.failed, h.idle, h.clear⟩, e, rfl⟩
  · rw [e]; exact putFlash_wf _ _ _ h.wf
  · unfold programWord; simp only [h.torn, sdel]

theorem Flash.plain_words (a : Nat) (d : List Byte) (n : Nat) : ∀ (ks : List Nat) (s : State), Flash.Plain s → (∀ k ∈ ks, k < n) →
    let t := ks.foldl (fun t k => programWord t (a + 16 * k) ((d.drop (16 * k)).take 16)) s
    Flash.Plain t ∧ ∀ x, x < a ∨ a + 16 * n ≤ x → sget (fun _ => (255 : Byte)) t.flash x = sget (fun _ => (255 : Byte)) s.flash x
  | [], _, h, _ => ⟨h, fun _ _ => rfl⟩
  | k :: ks, s, h, hk => by
    obtain ⟨p, e, _⟩ := Flash.plain_word h (a + 16 * k) ((d.drop (16 * k)).take 16)
    obtain ⟨q, f⟩ := Flash.plain_words a d n ks _ p (fun j hj => hk j (List.mem_cons_of_mem _ hj))
    refine ⟨q, fun x hx => ?_⟩
    have hn := hk k (List.mem_cons_self ..)
    have hl : ((d.drop (16 * k)).take 16).length ≤ 16 := List.length_take_le ..
    refine (f x hx).trans ?_
    rw [e, Flash.putFlash_out _ _ _ _ h.wf (by omega)]

/-- A program changes no octet outside its words. -/
theorem Flash.plain_program {s : State} (h : Flash.Plain s) (o : FlashOp) (n : Nat) :
    Flash.Plain (programWords o n s) ∧ ∀ x, x < o.addr ∨ o.addr + 16 * n ≤ x →
      sget (fun _ => (255 : Byte)) (programWords o n s).flash x = sget (fun _ => (255 : Byte)) s.flash x :=
  Flash.plain_words o.addr o.data n (List.range n) s h (fun _ hk => List.mem_range.mp hk)

theorem Flash.sget_sdrop (lo hi : Nat) : ∀ (m : List Host.Cell) (x : Nat), swfFrom (fun _ => (255 : Byte)) 0 m = true →
    sget (fun _ => (255 : Byte)) (sdrop m lo hi) x = if lo ≤ x ∧ x < hi then 255 else sget (fun _ => (255 : Byte)) m x := by
  intro m
  suffices ∀ (m : List Host.Cell) (b x : Nat), swfFrom (fun _ => (255 : Byte)) b m = true →
      sget (fun _ => (255 : Byte)) (sdrop m lo hi) x = if lo ≤ x ∧ x < hi then 255 else sget (fun _ => (255 : Byte)) m x from this m 0
  intro m
  induction m with
  | nil => intro b x _; simp [sdrop, sget]
  | cons c m ih =>
    obtain ⟨j, v⟩ := c
    intro b x h
    simp only [swfFrom, Bool.and_eq_true, decide_eq_true_eq] at h
    by_cases hj : lo ≤ j ∧ j < hi
    · have d : sdrop ((j, v) :: m) lo hi = sdrop m lo hi := by simp [sdrop, hj]
      rw [d, ih _ x h.2]
      by_cases hx : lo ≤ x ∧ x < hi
      · rw [if_pos hx, if_pos hx]
      · rw [if_neg hx, if_neg hx]
        have hn : x ≠ j := by omega
        by_cases hl : x < j
        · rw [sget_below _ m _ _ h.2 (by omega)]; simp only [sget, if_neg hn, if_pos hl]
        · simp only [sget, if_neg hn, if_neg hl]
    · have d : sdrop ((j, v) :: m) lo hi = (j, v) :: sdrop m lo hi := by
        simp only [sdrop, List.filter_cons]
        rw [if_pos (by simp; omega)]
      rw [d]
      by_cases hx : x = j
      · subst hx; rw [if_neg hj]; simp [sget]
      · by_cases hl : x < j
        · simp only [sget, if_neg hx, if_pos hl, ite_self]
        · simp only [sget, if_neg hx, if_neg hl]; exact ih _ x h.2

/-- An erase of a sector: it reads all ones and no other octet changes. -/
theorem Flash.plain_erase {s : State} (h : Flash.Plain s) (sec : Nat) :
    Flash.Plain (clearSector s sec) ∧ ∀ x, sget (fun _ => (255 : Byte)) (clearSector s sec).flash x =
      if 4096 * sec ≤ x ∧ x < 4096 * sec + 4096 then 255 else sget (fun _ => (255 : Byte)) s.flash x := by
  have f : (clearSector s sec).flash = sdrop s.flash (4096 * sec) (4096 * sec + 4096) := by
    unfold clearSector clearPhys; rw [Flash.plain_physSector h]
  refine ⟨⟨?_, h.copies, ?_, ?_, ?_, h.failed, h.idle, h.clear⟩, fun x => ?_⟩
  · rw [f]; exact sdrop_swf _ _ _ _ h.wf
  · unfold clearSector clearPhys; simp only [h.torn, sdrop]; rfl
  · unfold clearSector clearPhys; simp only [h.wild, sdel]
  · unfold clearSector clearPhys; simp only [h.marks]; rfl
  · rw [f]; exact Flash.sget_sdrop _ _ _ _ h.wf

/-- A record of the information row changes nothing of the array. -/
theorem Flash.putInfo_flash (i : InfoCopy) (s : State) : (putInfo i s).flash = s.flash := by
  unfold putInfo putLoser; split <;> rfl

end Sys2Proof.Machine
end

