-- ==== Sys2Proof/Tests/Slice0.lean ====
section
/-! SUPPORT. The model's own tests: ill-formed and well-formed terms, the spec's worked examples, single steps, and for every obligation with
hypotheses a state and operands that meet them (`test_hyps_<obligation>`). Expected values are the spec's. -/

open Sys2Proof Sys2Proof.Machine

namespace Sys2Proof.Tests

set_option maxRecDepth 4000
set_option Elab.async false

/-! ## Small states -/

/-- A device in operation: FS is locked, CLK_TB runs and the RADIO domain is out of reset. -/
def live : State := { State.reset with radioHeld := false, clk := { State.reset.clk with tb := true } }

/-- Register fields set one after another. -/
def regs (s : State) (l : List (RegFld × Nat)) : State := l.foldl (fun t p => t.wr p.1 p.2) s

/-- The state has the invariant and a P0 register command reaches the offset. -/
def open_ (s : State) (off : Nat) : Bool := s.inv && decide (reaches s .pf off)

/-- A PHY header and a MAC header of a short data frame that asks for an acknowledgement. -/
def phy0 : PhyHdr :=
  { length := 20, coded := false, fcs4 := false, whitened := false, modeSwitch := false, reservedZero := true, hcsOk := true, version := 0 }

/-- A MAC header of a data frame from node 0x22 to 0x11 of PAN 0x1234. -/
def mac0 : MacHdr :=
  { ftype := 1, version := 2, ackReq := true, secured := false, level := 0, keyMode := 0, counter := 0, keyIndex := 0, keySource := 0, seq := 5,
    seqSuppr := false, dstPan := some 0x1234, srcPan := none, dst := .short 0x11, src := .short 0x22, minLen := 9, hdrLen := 9, csl := none, fcs := 2 }

/-- The octets of that frame with a payload of nine octets and its FCS. -/
def psdu0 : List Byte :=
  let b : List Byte := [0x61, 0xA8, 5, 0x34, 0x12, 0x11, 0, 0x22, 0, 1, 2, 3, 4, 5, 6, 7, 8, 9]
  b ++ octets 2 (fcs16 b)

/-- Qualities of a received frame. -/
def qual0 : Quality := { power := [[(0, -600)]], snr := 20, evm := 5, fofs := 100 }

/-- A device with PAN entry 63 serving grid 0 as 0x11 of PAN 0x1234, for partition 5 with lanes and cells of its own. -/
def pan63 : State := regs live [(LNE_CTRL.ACCEPT, 1), (LNK_PAN_CFG.EN 63, 1), (LNK_PAN_CFG.GRIDS 63, 1), (LNK_PAN_ID.PAN_ID 63, 0x1234),
  (LNK_PAN_ID.SHORT 63, 0x11), (LNK_PAN_CFG.PART 63, 5), (LNK_CTRL.EN, 1), (PRT_P_LANE.CAP 5, 10), (PRT_P_CELL_CAP.CAP 5, 1000)]

/-- Lane 511 holds a frame in a state. -/
def lane511 (s : State) (st : Nat) (x : Lane) : State := { s.wr (LNE_LANE_STS.STATE 511) st with lanes := [(511, x)] }

/-- A received frame of partition 63 from node 3. -/
def rx0 : Rx :=
  { dsc := 0, part := 63, node := some 3, pan := none, hdr := mac0, lane := 0, fend := 0, sfdTs := 0, cells := [], descCell := 9, stage := 0, att := none,
    fcsBad := false, bcast := false, oow := none, slot := 0, owed := [] }

/-- A state with one received frame, and node 3 with a context. -/
def withRx (s : State) (ctx : BitVec 512) (r : Rx) : State := { s with que := { s.que with rxs := [r], nodes := [(3, { ctx := ctx, life := 1 })] } }

/-- A fetched command of a port. -/
def ctx0 (port : Nat) (sq : BitVec 512) : Ctx := ⟨port, sq, 0, 0, 0, none, none, 0⟩

/-- Node 3 is active with a context, and item 8, with a header, heads its queue. -/
def queued (s : State) (ctx hdr : BitVec 512) : State :=
  { s with que := { s.que with
      nodes := [(3, { ctx := NC.HEAD.put ctx 8, life := 1 })],
      cells := [(8, { data := IH.NEXT_ITEM.put hdr noCell, last := true, hdrCell := true })] } }

/-- Staging entry 1023 holds a frame on chain 7 for partition 63. -/
def staged (s : State) (x : Ent) : State := { s with txc := { s.txc with ents := [(1023, { x with chain := 7, part := 63 })] } }

/-- Partition p owns host port 1023, is enabled with every feature, and its function may do DMA. -/
def hosted (p : Nat) : State :=
  { regs live [(PRT_PORT.OWNER 1023, p), (PRT_PORT.EN 1023, 1), (PRT_P_CFG.EN p, 1), (PRT_P_CFG.STATE p, 1), (TOP_FEAT_ACT.ACT 0, 0x1FF),
      (HST_PORT_SIZE.SQ_LOG2 1023, 12), (HST_PORT_SIZE.CQ_LOG2 1023, 12), (TXC_CORR_BASE.EN 0, 1), (CNP_GRID_BASE.EN 0, 1), (CNP_GRID_GEOM.COUNT 0, 1),
      (CNP_GRID_GEOM.RATES 0, 1), (PRT_HMAP.OWNER 255, p), (PRT_HMAP.EN 255, 1), (PRT_ENG.OWNER 63, p), (PRT_ENG.EN 63, 1)] with
    vregs := if p = 0 then [] else [(p * 2 ^ 20 + 0x40, 0x1FF)]
    hst := { live.hst with funcs := [(p, { on := true, bme := true })] } }

/-- The host's command in context 16383, its last, on port 1023. -/
def asked (s : State) (c : Ctx) : State := { s with hst := { s.hst with ctxs := [(16383, c)] } }

/-- A command entry of an opcode for node 65535. -/
def cmdNode (op : Nat) (len : Nat) : Ctx := ctx0 1023 (SQ.OPCODE.put (SQ.NODE.put (SQ.LEN.put 0 len) 65535) op)

/-- A command entry of an opcode with a first and a second parameter. -/
def cmdP (op len p0 p1 p2 : Nat) : Ctx :=
  ctx0 1023 (SQ.OPCODE.put (SQ.LEN.put ((SQ.P 0).put ((SQ.P 1).put ((SQ.P 2).put 0 p2) p1) p0) len) op)

/-- Context 16383 stands fetched, unanswered and well formed (the premise `takes` of the obligations). -/
def standing (s : State) (op : Nat) (c : Ctx) : Bool :=
  s.inv && decide (s.ctx 16383 = some c) && decide (c.stage = 0) && decide (c.dupOf = none) && decide (SQ.OPCODE.of c.sq = op) &&
    (opKnown s c).any (fun r => entryOk r c.sq) && !resetWaits s c && !(s.port c.port).closing &&
    s.hst.ctxs.all (fun p => decide (p.2.dupOf ≠ some 16383))

/-- Core c runs with a record. -/
def coreOn (s : State) (c : Nat) (k : FCore) : State := (s.wr (stateF c) 1).setCore c k

/-- The two registers that most tests read: g1 and g2. -/
def g12 (a b : Word) : FCore := { g := [(1, a), (2, b)] }

/-- Words of memory beside those of a state that lists none, from an offset up. -/
def withWords (s : State) (o : Nat) (ws : List Nat) : State :=
  { s with mem := (List.range (4 * ws.length)).filterMap (fun k =>
      let b := BitVec.ofNat 8 (ws.getD (k / 4) 0 / 256 ^ (k % 4))
      if b = 0 then none else some (o + k, b)) }

/-- Core 63 may execute, in sequence. -/
def ready (s : State) (c : Nat) : Bool := s.inv && decide (executes s c) && decide (inSequence s c) && decide (excReady s c)

/-- Engine 63 of partition 5 executes with a pointer in g1 and a word in g2; DMEM words stand from 0x1FF00 on, and node 65535 is the partition's. -/
def onEng (a : Word) (v : Word) (ws : List Nat) : State :=
  withWords (coreOn (regs (hosted 5) [(QUE_CTRL.WR_EN, 1), (PRT_P_CELL_CAP.CAP 5, 100), (PRT_EVG.OWNER 15, 5), (PRT_EVG.EN 15, 1), (LNK_CMP_CTRL.PART 63, 5),
    (LNK_CELL1.PART 8191, 5)]) 63 { g := [(1, a), (2, v)], sys := [(0x13, 5#32)] }) (dmemBase 63 + 0xFF00) ws

/-- A node with an empty queue. -/
def bareNode : Node := { ctx := NC.HEAD.put 0 noCell, life := 1 }

/-- A boot block in force that names an empty ledger area and slots, with the running slot B. -/
def booted (s : State) : State :=
  { s with flc := { s.flc with boot := some ⟨0, 5, 0, true, 1, (0x10000, 0x10000), (0x20000, 0x10000), 0x1FBC000, 0x1FBE000, 1, 255⟩, runSlot := some 1 } }

/-! ## Well-formedness -/

/-- Terms that fail one check each (fullReset to kill). -/
theorem test_illFormed : (([.fullReset (.vf 0) 0, .fullReset (.vf 64) 0, .fullReset (.sv 4) 0, .fullReset .pf 65536, .radioReset (.sv 4) 0, .radioReset .pf 65536,
    .vfFlr 0, .vfFlr 64, .driverOk (.vf 0), .registerWrite (.vf 64) 0 1 .read, .registerWrite .pf 0x4000000 1 .read,
    .registerWrite (.vf 63) 0x100000 1 .read, .registerWrite .pf 0 0 .read, .correlationStep 2 0 [], .noiseBlock 2 0 [], .routineStep 8 0 0,
    .overRange 8 0 0, .forcedStep 8, .overRangeEpisodeEnd 8, .antennaEnableWrite (.sv 4) 0, .manAttWrite (.vf 0) 0 0, .manAttWrite .pf 8 0,
    .manAttWrite .pf 0 32, .attLimWrite (.vf 0) 0 0 0, .attLimWrite .pf 8 0 0, .attLimWrite .pf 0 32 0, .attLimWrite .pf 0 0 32,
    .trimWrite (.vf 64) 0 0, .trimWrite .pf 8 0, .trimWrite .pf 0 65536, .cnpCntClrBlock (.vf 64), .cnpCntClrPoints (.sv 4),
    .cnpCntClrAnt (.vf 0), .arm (.vf 64), .captureAbort (.sv 4), .forceTrig (.vf 0), .sfdFound 512 0 false [] [], .sfdTimeout 512,
    .phyHeaderCheck 512 0 none, .laneHeader 512 [], .headerAnswer 512, .receiveCell 512 0, .descriptorCell 512, .frameEnd 512 [] qual0,
    .deliveryDrop 512, .lneCntClrBlock (.vf 64), .lneCntClrPart (.sv 4), .lneCntClrFlt (.vf 0), .verifyIssue 786432, .verifyResult 786432,
    .frameCommit 786432, .engineDelivery 786432, .rxDelivery 786432, .ackBuild 1024, .ackWaitClose 1024, .deadlineExpiry 65536,
    .schedulerPlace 65536, .prepare 1056, .encryptResult 1056, .priming 1056, .primed 1056, .coexRequest 1056, .grantSample 1056 0, .commit 1056,
    .rampUp 1056, .rampDownEnd 1056, .coexRelease 4, .chainIdle 8, .kill (.vf 0) 0, .kill .pf 8] : List Instr).all (fun c => !c.wf)) = true := by decide +kernel

/-- Terms that fail one check each (chainFaultEvent to add). -/
theorem test_illFormed_2 : (([.chainFaultEvent 8, .cellFault 1056, .faultClr (.vf 64) 0, .faultClr .pf 8, .corrWrite (.vf 0) 0 0, .corrWrite .pf 8 0, .corrWrite .pf 0 512,
    .corrRead (.vf 0) 0 0, .corrRead .pf 8 0, .corrRead .pf 0 512, .clearValid (.vf 0) 0 0, .clearValid .pf 8 0, .clearValid .pf 0 512,
    .txcCntClrBlock (.vf 0), .txcCntClrChain (.vf 64), .txcCntClrCoex (.sv 4), .cmpArmWrite (.vf 0) 0 0, .cmpArmWrite .pf 64 0,
    .cmpArmWrite .pf 0 4294967296, .comparatorFire 64, .disarm (.vf 64) 0, .disarm .pf 64, .panEntryWrite (.vf 0) 0 0 0,
    .panEntryWrite .pf 64 0 0, .panEntryWrite .pf 0 4 0, .tschEnableWrite (.vf 0) false, .tschCellWrite (.vf 64) 0 0 0,
    .tschCellWrite .pf 8192 0 0, .tschCellWrite .pf 0 2 0, .lnkCntClrBlock (.vf 64), .lnkCntClrPart (.sv 4), .nodeOpAdd (.vf 0) 0,
    .nodeOpUpdate (.vf 64) 0, .nodeOpPrune (.sv 4) 0, .nodeOpRead (.vf 0) 0, .nodeOpQset (.vf 64) 0, .pruneComplete 65536, .sweepDone 65536,
    .ntwCapture (.vf 64) 0, .ntwCapture .pf 65536, .ntwWrite (.vf 0) 0 0, .ntwWrite .pf 4194304 0, .rxReserveWrite (.sv 4) 0,
    .rxReserveWrite .pf 1048576, .queCntClrBlock (.vf 64), .queCntClrPart (.sv 4), .mapEntryWrite (.vf 0) 0x1000 0, .mapEntryWrite .pf 0xFFC 0,
    .mapEntryWrite .pf 0x1840 0, .mapEntryWrite .pf 0x3100 0, .mapEntryWrite .pf 0x32C0 0, .mapEntryWrite .pf 0x1001 0,
    .shareWrite (.vf 0) 0x28 0, .shareWrite .pf 0x100 0, .shareWrite .pf 0x11C 0, .shareWrite .pf 0x2C 0, .partitionEnableWrite (.vf 64) 0 false,
    .partitionEnableWrite .pf 64 false, .full (.vf 0) 0, .full .pf 64, .depart (.sv 4) 0, .depart .pf 64, .partitionResetDone 64,
    .fltPop (.sv 4), .prtCntClrBlock (.vf 0), .prtCntClrPart (.vf 64), .add 68 0 0 0, .add 0 32 0 0, .add 0 0 32 0, .add 0 0 0 32] : List Instr).all (fun c => !c.wf)) = true := by decide +kernel

/-- Terms that fail one check each (sub to popc). -/
theorem test_illFormed_3 : (([.sub 68 0 0 0, .sub 0 32 0 0, .sub 0 0 32 0, .sub 0 0 0 32, .andr 68 0 0 0, .andr 0 32 0 0, .andr 0 0 32 0, .andr 0 0 0 32, .orr 68 0 0 0,
    .orr 0 32 0 0, .orr 0 0 32 0, .orr 0 0 0 32, .xorr 68 0 0 0, .xorr 0 32 0 0, .xorr 0 0 32 0, .xorr 0 0 0 32, .sll 68 0 0 0, .sll 0 32 0 0,
    .sll 0 0 32 0, .sll 0 0 0 32, .srl 68 0 0 0, .srl 0 32 0 0, .srl 0 0 32 0, .srl 0 0 0 32, .sra 68 0 0 0, .sra 0 32 0 0, .sra 0 0 32 0,
    .sra 0 0 0 32, .slt 68 0 0 0, .slt 0 32 0 0, .slt 0 0 32 0, .slt 0 0 0 32, .sltu 68 0 0 0, .sltu 0 32 0 0, .sltu 0 0 32 0, .sltu 0 0 0 32,
    .min 68 0 0 0, .min 0 32 0 0, .min 0 0 32 0, .min 0 0 0 32, .max 68 0 0 0, .max 0 32 0 0, .max 0 0 32 0, .max 0 0 0 32, .mul 68 0 0 0,
    .mul 0 32 0 0, .mul 0 0 32 0, .mul 0 0 0 32, .mulhu 68 0 0 0, .mulhu 0 32 0 0, .mulhu 0 0 32 0, .mulhu 0 0 0 32, .mulh 68 0 0 0,
    .mulh 0 32 0 0, .mulh 0 0 32 0, .mulh 0 0 0 32, .divu 68 0 0 0, .divu 0 32 0 0, .divu 0 0 32 0, .divu 0 0 0 32, .remu 68 0 0 0,
    .remu 0 32 0 0, .remu 0 0 32 0, .remu 0 0 0 32, .clz 68 0 0, .clz 0 32 0, .clz 0 0 32, .popc 68 0 0, .popc 0 32 0, .popc 0 0 32] : List Instr).all (fun c => !c.wf)) = true := by decide +kernel

/-- Terms that fail one check each (bswap to sh). -/
theorem test_illFormed_4 : (([.bswap 68 0 0, .bswap 0 32 0, .bswap 0 0 32, .addi 68 0 0 0, .addi 0 32 0 0, .addi 0 0 32 0, .addi 0 0 0 65536, .andi 68 0 0 0,
    .andi 0 32 0 0, .andi 0 0 32 0, .andi 0 0 0 65536, .ori 68 0 0 0, .ori 0 32 0 0, .ori 0 0 32 0, .ori 0 0 0 65536, .xori 68 0 0 0,
    .xori 0 32 0 0, .xori 0 0 32 0, .xori 0 0 0 65536, .slti 68 0 0 0, .slti 0 32 0 0, .slti 0 0 32 0, .slti 0 0 0 65536, .sltiu 68 0 0 0,
    .sltiu 0 32 0 0, .sltiu 0 0 32 0, .sltiu 0 0 0 65536, .lui 68 0 0, .lui 0 32 0, .lui 0 0 65536, .shi 68 0 0 0, .shi 0 32 0 0, .shi 0 0 32 0,
    .shi 0 0 0 65536, .extu 68 0 0 0, .extu 0 32 0 0, .extu 0 0 32 0, .extu 0 0 0 65536, .ins 68 0 0 0, .ins 0 32 0 0, .ins 0 0 32 0,
    .ins 0 0 0 65536, .lw 68 0 0 0, .lw 0 32 0 0, .lw 0 0 32 0, .lw 0 0 0 65536, .lh 68 0 0 0, .lh 0 32 0 0, .lh 0 0 32 0, .lh 0 0 0 65536,
    .lhu 68 0 0 0, .lhu 0 32 0 0, .lhu 0 0 32 0, .lhu 0 0 0 65536, .lb 68 0 0 0, .lb 0 32 0 0, .lb 0 0 32 0, .lb 0 0 0 65536, .lbu 68 0 0 0,
    .lbu 0 32 0 0, .lbu 0 0 32 0, .lbu 0 0 0 65536, .sw 68 0 0 0, .sw 0 32 0 0, .sw 0 0 32 0, .sw 0 0 0 65536, .sh 68 0 0 0, .sh 0 32 0 0,
    .sh 0 0 32 0, .sh 0 0 0 65536] : List Instr).all (fun c => !c.wf)) = true := by decide +kernel

/-- Terms that fail one check each (sb to nopInsn). -/
theorem test_illFormed_5 : (([.sb 68 0 0 0, .sb 0 32 0 0, .sb 0 0 32 0, .sb 0 0 0 65536, .lr 68 0 0 0, .lr 0 32 0 0, .lr 0 0 32 0, .lr 0 0 0 65536, .sc 68 0 0 0,
    .sc 0 32 0 0, .sc 0 0 32 0, .sc 0 0 0 32, .tas 68 0 0 0, .tas 0 32 0 0, .tas 0 0 32 0, .tas 0 0 0 65536, .beq 68 0 0 0, .beq 0 32 0 0,
    .beq 0 0 32 0, .beq 0 0 0 65536, .bne 68 0 0 0, .bne 0 32 0 0, .bne 0 0 32 0, .bne 0 0 0 65536, .blt 68 0 0 0, .blt 0 32 0 0, .blt 0 0 32 0,
    .blt 0 0 0 65536, .bge 68 0 0 0, .bge 0 32 0 0, .bge 0 0 32 0, .bge 0 0 0 65536, .bltu 68 0 0 0, .bltu 0 32 0 0, .bltu 0 0 32 0,
    .bltu 0 0 0 65536, .bgeu 68 0 0 0, .bgeu 0 32 0 0, .bgeu 0 0 32 0, .bgeu 0 0 0 65536, .bbs 68 0 0 0, .bbs 0 32 0 0, .bbs 0 0 32 0,
    .bbs 0 0 0 65536, .bbc 68 0 0 0, .bbc 0 32 0 0, .bbc 0 0 32 0, .bbc 0 0 0 65536, .j 68 0, .j 0 67108864, .jal 68 0, .jal 0 67108864,
    .jr 68 0, .jr 0 32, .jalr 68 0 0, .jalr 0 32 0, .jalr 0 0 32, .loop 68 0 0, .loop 0 32 0, .loop 0 0 65536, .loopi 68 0 0, .loopi 0 1024 0,
    .loopi 0 0 65536, .mfs 68 0 0, .mfs 0 32 0, .mfs 0 0 65536, .mts 68 0 0, .mts 0 65536 0, .mts 0 0 32, .nopInsn 68] : List Instr).all (fun c => !c.wf)) = true := by decide +kernel

/-- Terms that fail one check each (wfe to supervisorReset). -/
theorem test_illFormed_6 : (([.wfe 68, .wfeWake 68, .fence 68, .eret 68, .trap 68 0, .trap 0 32, .brk 68, .halt 68, .qrx 68 0 0, .qrx 0 32 0, .qrx 0 0 32, .crd 68 0 0 0,
    .crd 0 32 0 0, .crd 0 0 32 0, .crd 0 0 0 32, .crel 68 0 0, .crel 0 32 0, .crel 0 0 32, .qwr 68 0 0 0, .qwr 0 32 0 0, .qwr 0 0 32 0,
    .qwr 0 0 0 32, .ntf 68 0 0, .ntf 0 32 0, .ntf 0 0 32, .lcmdCancel 68 0 0, .lcmdCancel 0 32 0, .lcmdCancel 0 0 32, .cmpArm 68 0 0,
    .cmpArm 0 32 0, .cmpArm 0 0 32, .cmpDisarm 68 0 0, .cmpDisarm 0 32 0, .cmpDisarm 0 0 32, .cellWr 68 0 0, .cellWr 0 32 0, .cellWr 0 0 32,
    .evtFire 68 0 0, .evtFire 0 32 0, .evtFire 0 0 32, .interrupt 68, .breakpoint 68, .engineRun (.vf 0) 0, .engineRun .pf 64,
    .engineHalt (.sv 4) 0, .engineHalt .pf 64, .engineStep (.vf 64) 0, .engineStep .pf 64, .engineReset (.vf 0) 0, .engineReset .pf 64,
    .engineClear (.sv 4) 0, .engineClear .pf 64, .clearDone 64, .imemWrite (.sv 4) 0 0 0, .imemWrite .pf 64 0 0, .imemWrite .pf 0 32768 0,
    .imemWrite .pf 0 2 0, .wake (.vf 0) 0, .wake .pf 8, .clusterOn 8, .sleep (.vf 0) 0, .sleep .pf 8, .supervisorRun (.sv 4) 0,
    .supervisorRun .pf 4, .supervisorHalt (.vf 64) 0, .supervisorHalt .pf 4, .supervisorStep (.vf 0) 0, .supervisorStep .pf 4,
    .supervisorReset (.sv 4) 0, .supervisorReset .pf 4] : List Instr).all (fun c => !c.wf)) = true := by decide +kernel

/-- Terms that fail one check each (load to eraseBlock). -/
theorem test_illFormed_7 : (([.load (.vf 64) 0 false, .load .pf 65536 false, .replace (.vf 0) 0 false, .replace .pf 65536 false, .erase (.sv 4) 0 false,
    .erase .pf 65536 false, .status (.vf 64) 0 false, .status .pf 65536 false, .sealOp (.vf 0) 0, .sealOp .pf 256, .unsealOp (.sv 4) 0,
    .unsealOp .pf 256, .markPop (.vf 64), .alarm 6 none none, .alarmClear (.vf 0) 0 0, .secCntClrBlock (.vf 64), .secCntClrPart (.sv 4),
    .portEnable (.vf 0) 0, .portEnable .pf 1024, .portDisable (.sv 4) 0, .portDisable .pf 1024, .portDisabled 1024, .sqTail (.sv 4) 0 0,
    .sqTail .pf 1024 0, .cqHead (.vf 64) 0 0, .cqHead .pf 1024 0, .fetch 1024 .fail, .nop 16384, .tx 16384 .fail, .cancel 16384, .postRx 16384,
    .rxFlush 16384, .nodeAdd 16384 .fail, .nodeUpdate 16384 .fail, .nodePrune 16384, .nodeRead 16384, .nodeQset 16384, .nodeExport 16384,
    .keyLoad 16384 .fail, .keyReplace 16384 .fail, .keyErase 16384, .keyStatus 16384, .engCtrl 16384, .engWrite 16384 .fail, .engRead 16384,
    .completionWrite 1024, .modTime 1024, .featureCommit (.vf 0), .vfEnable 64, .vfCntClr 0, .vfCntClr 64, .hstCntClrBlock (.vf 64),
    .hstCntClrPart (.sv 4), .baseLoad (.vf 0) false false, .liveLoad (.vf 64) false, .loadAbort (.sv 4), .graftCheck (.vf 0) 0,
    .graftArm (.vf 64) 0, .confirm (.sv 4) 0, .raiseFloor (.vf 0) 0, .withdraw (.vf 64) 0, .write (.sv 4) 0, .read (.vf 0) 0,
    .resetGen (.vf 64) 0, .programKey (.sv 4) 0, .revokeKey (.vf 0) 0, .setLimit (.vf 64) 0, .program (.sv 4) 0, .eraseSector (.vf 0) 0,
    .eraseBlock (.vf 64) 0] : List Instr).all (fun c => !c.wf)) = true := by decide +kernel

/-- Terms that fail one check each (suspend to taintEnd). -/
theorem test_illFormed_8 : (([.suspend (.sv 4) 0, .resume (.vf 0) 0, .abort (.vf 64) 0, .windowRead (.sv 4) 0 0, .windowRead .pf 4096 0,
    .windowRead .pf 0 174224571863520493293247799005065324265472, .run (.sv 4), .trim (.vf 0), .watch (.vf 64), .dormant (.sv 4),
    .airWake 256 0 [], .airWake 0 4 [], .tempSample (-32769), .tempSample 32768, .vbakMeasure 4096 0, .recal (.sv 4), .pwrCntClr (.vf 0),
    .synEnable (.vf 64), .synLock 64 0, .syncinEdge 0 192, .clkoutEnable (.vf 64) 0 false, .clkoutEnable .pf 4 false, .rtcFreeze (.vf 0) 0,
    .rtcFreeze .pf 3, .rtcHaltWrite (.sv 4) false, .secondsWrite (.vf 0) 0, .secondsWrite .pf 4294967296, .rtcAlarmArm (.sv 4) 0,
    .rtcAlarmArm .pf 4294967296, .rtcDisarm (.vf 64), .timerWrap 32, .timerCompare 32 0, .timerCompare 0 2, .preloadWrite (.sv 4) 0 0 0,
    .preloadWrite .pf 32 0 0, .preloadWrite .pf 0 3 0, .clr (.sv 4) 0, .clr .pf 32, .timStart (.vf 64) 0, .timStop (.sv 4) 0, .eventPulse 128 0,
    .eventPulse 0 192, .evrFire (.sv 4) 0, .evrFire .pf 128, .evrCntClr (.vf 64), .channelCfgWrite (.sv 4) 0 0, .channelCfgWrite .pf 128 0,
    .gpioEdge 24 false, .gpioSet (.sv 4) 0, .gpioClr (.vf 0) 0, .start (.vf 64) 0, .biasOn (.sv 4) 0, .biasOn .pf 8, .rampDone 8,
    .biasOff (.sv 4) 0, .biasOff .pf 8, .biasTrip 8, .biasFaultClr (.sv 4) 0, .biasFaultClr .pf 8, .biasCurrentSample 8 0,
    .biasCurrentSample 0 4096, .ncmd 68 0 0 0, .ncmd 0 32 0 0, .ncmd 0 0 32 0, .ncmd 0 0 0 32, .reservedOpcode 68 0xFFFFFFFF,
    .reservedOpcode 0 0, .badOpcode 16384, .taintEnd 8 0, .taintEnd 0 2] : List Instr).all (fun c => !c.wf)) = true := by decide +kernel

/-- Terms that fail one check each (gntDrop to busMasterEnable). -/
theorem test_illFormed_9 : (([.gntDrop 1056 0, .gntDrop 0 4, .holdoffEnd 8, .busMasterEnable 64 false] : List Instr).all (fun c => !c.wf)) = true := by decide +kernel

/-- Well-formed terms (powerOn to nodeOpUpdate). -/
theorem test_wellFormed : (([.powerOn false, .resetNLow 0, .brownOut false false, .aonReset, .fullReset .pf 0, .radioReset .pf 0, .radioReload, .hostReset, .vfFlr 1,
    .boot false false, .startWatchdogExpiry, .driverOk .pf, .registerWrite .pf 0 1 .read, .correlationStep 0 0 [], .noiseBlock 0 0 [],
    .routineStep 0 0 0, .overRange 0 0 0, .forcedStep 0, .overRangeEpisodeEnd 0, .antennaEnableWrite .pf 0, .manAttWrite .pf 0 0,
    .attLimWrite .pf 0 0 0, .trimWrite .pf 0 0, .cnpCntClrBlock .pf, .cnpCntClrPoints .pf, .cnpCntClrAnt .pf, .arm .pf, .captureAbort .pf,
    .forceTrig .pf, .captureTrigger, .captureDone [], .candidateAllocation, .sfdFound 0 0 false [] [], .sfdTimeout 0, .phyHeaderCheck 0 0 none,
    .laneHeader 0 [], .headerAnswer 0, .receiveCell 0 0, .descriptorCell 0, .frameEnd 0 [] qual0, .deliveryDrop 0, .lneCntClrBlock .pf,
    .lneCntClrPart .pf, .lneCntClrFlt .pf, .verifyIssue 0, .verifyResult 0, .frameCommit 0, .engineDelivery 0, .rxDelivery 0, .ackBuild 0,
    .ackWaitClose 0, .deadlineExpiry 0, .schedulerPlace 0, .airtimePeriodBoundary, .tschSlotRead 0, .sequencerState 0, .sequencerClamp 0,
    .scheduleItem, .prepare 0, .encryptResult 0, .priming 0, .primed 0, .coexRequest 0, .grantSample 0 0, .commit 0, .rampUp 0, .rampDownEnd 0,
    .coexRelease 0, .chainIdle 0, .kill .pf 0, .chainFaultEvent 0, .cellFault 0, .faultClr .pf 0, .corrWrite .pf 0 0, .corrRead .pf 0 0,
    .clearValid .pf 0 0, .tempGainDerive, .txcCntClrBlock .pf, .txcCntClrChain .pf, .txcCntClrCoex .pf, .cmpArmWrite .pf 0 0, .comparatorFire 0,
    .disarm .pf 0, .panEntryWrite .pf 0 0 0, .tschEnableWrite .pf false, .tschCellWrite .pf 0 0 0, .lnkCntClrBlock .pf, .lnkCntClrPart .pf,
    .nodeOpAdd .pf 0, .nodeOpUpdate .pf 0] : List Instr).all Instr.wf) = true := by decide +kernel

/-- Well-formed terms (nodeOpPrune to lcmdCancel). -/
theorem test_wellFormed_2 : (([.nodeOpPrune .pf 0, .nodeOpRead .pf 0, .nodeOpQset .pf 0, .pruneComplete 0, .sweepDone 0, .ntwCapture .pf 0, .ntwWrite .pf 0 0,
    .rxReserveWrite .pf 0, .queCntClrBlock .pf, .queCntClrPart .pf, .mapEntryWrite .pf 0x1000 0, .shareWrite .pf 0x28 0,
    .partitionEnableWrite .pf 0 false, .full .pf 0, .depart .pf 0, .partitionResetDone 0, .fltPop .pf, .prtCntClrBlock .pf, .prtCntClrPart .pf,
    .add 0 0 0 0, .sub 0 0 0 0, .andr 0 0 0 0, .orr 0 0 0 0, .xorr 0 0 0 0, .sll 0 0 0 0, .srl 0 0 0 0, .sra 0 0 0 0, .slt 0 0 0 0,
    .sltu 0 0 0 0, .min 0 0 0 0, .max 0 0 0 0, .mul 0 0 0 0, .mulhu 0 0 0 0, .mulh 0 0 0 0, .divu 0 0 0 0, .remu 0 0 0 0, .clz 0 0 0,
    .popc 0 0 0, .bswap 0 0 0, .addi 0 0 0 0, .andi 0 0 0 0, .ori 0 0 0 0, .xori 0 0 0 0, .slti 0 0 0 0, .sltiu 0 0 0 0, .lui 0 0 0,
    .shi 0 0 0 0, .extu 0 0 0 0, .ins 0 0 0 0, .lw 0 0 0 0, .lh 0 0 0 0, .lhu 0 0 0 0, .lb 0 0 0 0, .lbu 0 0 0 0, .sw 0 0 0 0, .sh 0 0 0 0,
    .sb 0 0 0 0, .lr 0 0 0 0, .sc 0 0 0 0, .tas 0 0 0 0, .beq 0 0 0 0, .bne 0 0 0 0, .blt 0 0 0 0, .bge 0 0 0 0, .bltu 0 0 0 0, .bgeu 0 0 0 0,
    .bbs 0 0 0 0, .bbc 0 0 0 0, .j 0 0, .jal 0 0, .jr 0 0, .jalr 0 0 0, .loop 0 0 0, .loopi 0 0 0, .mfs 0 0 0, .mts 0 0 0, .nopInsn 0, .wfe 0,
    .wfeWake 0, .fence 0, .eret 0, .trap 0 0, .brk 0, .halt 0, .qrx 0 0 0, .crd 0 0 0 0, .crel 0 0 0, .qwr 0 0 0 0, .ntf 0 0 0,
    .lcmdCancel 0 0 0] : List Instr).all Instr.wf) = true := by decide +kernel

/-- Well-formed terms (cmpArm to suspend). -/
theorem test_wellFormed_3 : (([.cmpArm 0 0 0, .cmpDisarm 0 0 0, .cellWr 0 0 0, .evtFire 0 0 0, .interrupt 0, .breakpoint 0, .engineRun .pf 0, .engineHalt .pf 0,
    .engineStep .pf 0, .engineReset .pf 0, .engineClear .pf 0, .clearDone 0, .imemWrite .pf 0 0 0, .wake .pf 0, .clusterOn 0, .sleep .pf 0,
    .supervisorRun .pf 0, .supervisorHalt .pf 0, .supervisorStep .pf 0, .supervisorReset .pf 0, .load .pf 0 false, .replace .pf 0 false,
    .erase .pf 0 false, .status .pf 0 false, .kopDone, .sealOp .pf 0, .unsealOp .pf 0, .sealDone, .markPop .pf, .alarm 0 none none,
    .alarmClear .pf 0 0, .rngHealthFail false, .rngOk, .reseed, .secCntClrBlock .pf, .secCntClrPart .pf, .portEnable .pf 0, .portDisable .pf 0,
    .portDisabled 0, .sqTail .pf 0 0, .cqHead .pf 0 0, .fetch 0 .fail, .nop 0, .tx 0 .fail, .cancel 0, .postRx 0, .rxFlush 0, .nodeAdd 0 .fail,
    .nodeUpdate 0 .fail, .nodePrune 0, .nodeRead 0, .nodeQset 0, .nodeExport 0, .keyLoad 0 .fail, .keyReplace 0 .fail, .keyErase 0, .keyStatus 0,
    .engCtrl 0, .engWrite 0 .fail, .engRead 0, .completionWrite 0, .modTime 0, .featureCommit .pf, .vfEnable 0, .vfCntClr 1, .hstCntClrBlock .pf,
    .hstCntClrPart .pf, .baseLoad .pf false false, .liveLoad .pf false, .liveSwitch, .loadAbort .pf, .loadDone, .graftCheck .pf 0,
    .graftArm .pf 0, .confirm .pf 0, .raiseFloor .pf 0, .withdraw .pf 0, .graftDone, .write .pf 0, .read .pf 0, .resetGen .pf 0, .ldgDone,
    .programKey .pf 0, .revokeKey .pf 0, .setLimit .pf 0, .fuseDone false, .program .pf 0, .eraseSector .pf 0, .eraseBlock .pf 0, .suspend .pf 0] : List Instr).all Instr.wf) = true := by decide +kernel

/-- Well-formed terms (resume to busMasterEnable). -/
theorem test_wellFormed_4 : (([.resume .pf 0, .abort .pf 0, .opDone [] [], .windowRead .pf 0 0, .flashBrownOut 0, .run .pf, .trim .pf, .watch .pf, .dormant .pf,
    .quiescenceTimeout, .linkL2Ready, .wakeIn false, .airWake 0 0 [], .wakeReturn false, .wakeTimeout, .retentionLoss, .holdover, .leaveGrant,
    .tempSample 0, .vbakMeasure 0 0, .recal .pf, .pwrCntClr .pf, .synEnable .pf, .synLock 0 0, .refLoss, .refBack, .synUnlock, .alignerRelease,
    .syncMissing, .alnLock, .syncinEdge 0 0, .syncSlip, .syncoutPulse, .clkoutEnable .pf 0 false, .atbBridge, .rtcSecond, .xkFail,
    .rtcFreeze .pf 0, .freezeTimeout, .rtcHaltWrite .pf false, .secondsWrite .pf 0, .rtcAlarmArm .pf 0, .rtcAlarmFire, .rtcDisarm .pf,
    .timerWrap 0, .timerCompare 0 0, .preloadWrite .pf 0 0 0, .clr .pf 0, .timStart .pf 0, .timStop .pf 0, .eventPulse 0 0, .evrFire .pf 0,
    .evrCntClr .pf, .channelCfgWrite .pf 0 0, .gpioEdge 0 false, .gpioSet .pf 0, .gpioClr .pf 0, .twaWrite 0 [], .twaRead 0 0 false, .twaTimeout,
    .start .pf 0, .twbDone ⟨0, 0, [], false⟩, .stretchTimeout false, .busRecovery, .biasOn .pf 0, .rampDone 0, .biasOff .pf 0, .biasTrip 0,
    .biasFaultClr .pf 0, .biasCurrentSample 0 0, .ncmd 0 0 0 0, .reservedOpcode 0 0xFFFFFFFF, .badOpcode 0, .taintEnd 0 0, .gntDrop 0 0,
    .xkEdgesReturn, .supplyRecovery, .holdoffEnd 0, .busMasterEnable 0 false] : List Instr).all Instr.wf) = true := by decide +kernel

/-! ## The spec's worked examples -/

/-- The three words of the example of 08_fekor_engines.md, the counting engine. -/
theorem test_insWord_example : insWord (.addi 0 3 3 0xFFFF) = some 0x0463FFFF ∧ insWord (.bne 0 5 0 0xFFFD) = some 0x84A0FFFD ∧
    insWord (.qrx 0 4 20) = some 0xE0940000 := by decide

/-- A word of each format written out from R217: R (MUL g3, g4, g5), I (SW), J (JAL), LOOPI, MTS, WFE; each is no reserved word. -/
theorem test_insWord_formats :
    insWord (.mul 0 3 4 5) = some (0b000000_00011_00100_00101_00000001100) ∧ insWord (.sw 0 0 6 4) = some (0b010101_00000_00110_0000000000000100) ∧
    insWord (.jal 0 1) = some (0b101001_00000000000000000000000001) ∧ insWord (.loopi 0 256 2) = some (0b101101_0100000000_0000000000000010) ∧
    insWord (.mts 0 0x13 7) = some (0b110001_00000_00111_0000000000010011) ∧ insWord (.wfe 0) = some (0b110010_00000_00000_00000_00000000001) ∧
    ([0x006428 * 2 ^ 8 + 0x0C, 0x54060004, 0xA4000001, 0xB5000002, 0xC4070013, 0xC8000001] : List Nat).all
      (fun w => !reservedWord (BitVec.ofNat 32 w)) = true := by decide

/-- Reserved words (R217, R218): opcode 0x3F, a function past 0x13, and CLZ with its unused field set. -/
theorem test_reserved_words : reservedWord 0xFC000000 = true ∧ reservedWord 0x00000014 = true ∧ reservedWord 0x00000811 = true := by decide

/-- The amplitudes of R103's worked example. -/
theorem test_amplitude_example : amplitude 1600 0 = 1600 ∧ amplitude 1540 6 = 1090 ∧ amplitude 1540 12 = 772 ∧ amplitude 1600 8 = 1010 ∧
    amplitude 1600 24 = 402 := by decide +kernel

/-- Frame lengths: the leaf's 40-octet frame from SFD timestamp to end (01_trunk_architecture.md), 62 symbols of a 30-octet frame (R173's example), and
the 20-octet SF512 frame with the shortest preamble (R86). -/
theorem test_frame_ticks : 5120 + bodyTicks 0 false 40 = 47104 ∧ bodyTicks 0 false 30 = 62 * 512 ∧ 512 * 40 * (8 + 8) + bodyTicks 7 false 20 = 4341760 := by decide

/-- The model of a class D node whose residual is RES, with the image's numbers. -/
def leafD (res : Nat) : State × BitVec 512 :=
  (regs live [(LNK_DRIFT_CFG.G_FIX, 2880), (LNK_DRIFT_CFG.SKEW_SHIFT, 0), (LNK_DRIFT_RES.R_INIT, 40000), (LNK_DRIFT_FLOOR.R_FLOOR, 1000),
     (LNK_DRIFT_SPAN.MIN_SPAN, 32000000)], putRes (putPeriod (NC.ANCHOR.put 0 1000) 3125) res)

/-- The drift update of the worked example: 120 periods and 23,040 ticks after the anchor, SKEW becomes 12,000 and RES 20,000 (R164). -/
theorem test_drift_example :
    let r := driftD (leafD 40000).1 (leafD 40000).2 1920024040 5120 0 3125
    skewOf r.1 = 12000 ∧ resOf r.1 = 20000 ∧ NC.ANCHOR.of r.1 = 1920024040 ∧ r.2 = some LNK_CNT_DRIFT_UPD.COUNT := by decide +kernel

/-- RES halves until robs, 2,667, holds it. -/
theorem test_drift_floor : resOf (driftD (leafD 5000).1 (putSkew (leafD 5000).2 12000) 1920024040 5120 0 3125).1 = 2667 := by decide +kernel

/-- The guards of the worked example (R164). -/
theorem test_guard_example : ([40000, 20000, 10000, 5000, 2667] : List Nat).map (fun r => guardAt (leafD 0).1 1000 r 1920001000) =
    [79680, 41280, 22080, 12480, 8001] := by decide +kernel

/-- The frame store of the example of R192-R194: FREE, and the use of P1, P2 and P5. -/
def arena (free u1 u2 u5 : Nat) : State :=
  regs live [(QUE_RX_RESERVE.CELLS, 65536), (QUE_STS.FREE, free), (PRT_P_CELL_GUAR.GUAR 1, 250000), (PRT_P_CELL_CAP.CAP 1, 400000),
    (PRT_P_CELL_GUAR.GUAR 2, 150000), (PRT_P_CELL_CAP.CAP 2, 300000), (PRT_P_CELL_GUAR.GUAR 5, 40000), (PRT_P_CELL_CAP.CAP 5, 120000),
    (QUE_PUSE.USE 1, u1), (QUE_PUSE.USE 2, u2), (QUE_PUSE.USE 5, u5)]

/-- The four allocations of the example. -/
theorem test_cells_example : cellsOk (arena 125600 380000 90000 40000) 1 40 65536 = true ∧ cellsOk (arena 125560 380040 90000 40000) 5 30 65536 = false ∧
    cellsOk (arena 125560 380040 90000 40000) 2 30 65536 = true ∧ cellsOk (arena 125530 380040 90030 40000) 5 1 0 = true := by decide +kernel

/-- The three stands of the example of R204-R206. -/
def stands (u1 u2 u3 : Nat) : State :=
  regs live [(PRT_AIR_CTRL.EN, 1), (PRT_AIR_TOTAL.TICKS, 96000000), (PRT_P_AIR_GUAR.GUAR 1, 40000000), (PRT_P_AIR_CAP.CAP 1, 70000000),
    (PRT_P_AIR_GUAR.GUAR 2, 20000000), (PRT_P_AIR_CAP.CAP 2, 40000000), (PRT_P_AIR_GUAR.GUAR 3, 10000000), (PRT_P_AIR_CAP.CAP 3, 30000000),
    (PRT_PAIR.VALUE 1 0, u1), (PRT_PAIR.VALUE 2 0, u2), (PRT_PAIR.VALUE 3 0, u3)]

/-- The four placements of the example. -/
theorem test_airtime_example : airOk (stands 52000000 6000000 12000000) 3 4341888 = true ∧ airOk (stands 52000000 6000000 16341888) 1 4341888 = true ∧
    airOk (stands 56341888 6000000 16341888) 3 4341888 = false ∧ airOk (stands 56341888 6000000 16341888) 2 4341888 = true := by decide +kernel

/-- The arena of the example of R372 and R373, with some leave held. -/
def leaves9 (used : Nat) : State :=
  { regs live [(PWR_ARB_RESERVE.MW, 1200), (PRT_P_PWR.CAP 0, 65535), (PRT_P_PWR.CAP 1, 65535), (PRT_P_PWR.GUAR 0, 0)] with
    pwr := { live.pwr with budget := [(0, 9000), (1, 65535)], held := [⟨.capture, 0, used, false⟩] } }

/-- Its requests: the flash erase and the bias ramp fit, the cluster's wake does not; one commit fits and the next does not. -/
theorem test_leave_example : (leaves9 7350).waiterFits ⟨.flash, 0, 90, false⟩ = true ∧ (leaves9 7440).waiterFits ⟨.bias 3, 0, 350, false⟩ = true ∧
    (leaves9 7790).waiterFits ⟨.cluster 5, 0, 200, false⟩ = false ∧ ((leaves9 7790).commitLeave 1 [(.chain 6, 420), (.carrier 6 9, 180)]).2 = true ∧
    ((leaves9 8390).commitLeave 1 [(.chain 1, 420), (.carrier 1 8, 140)]).2 = true ∧ ((leaves9 8950).commitLeave 1 [(.carrier 6 7, 180)]).2 = false := by
  decide +kernel

/-- The leaf's nonce (R249). -/
theorem test_nonce_example : ccmNonce 0x001BC50C4A297E13 0x3A17 5 =
    [0x00, 0x1B, 0xC5, 0x0C, 0x4A, 0x29, 0x7E, 0x13, 0x00, 0x00, 0x3A, 0x17, 0x05] := by decide +kernel

/-- The check value of CRC-32C over the nine digits (the polynomial of that name). -/
theorem test_crc32c : crc32c [0x31, 0x32, 0x33, 0x34, 0x35, 0x36, 0x37, 0x38, 0x39] = 0xE3069283 := by decide +kernel

/-! ## Single steps -/

/-- What a command gives, or the state it stood on. -/
def after (o : Host.Outcome State Fault Refusal) (s : State) : State := match o with | .next t => t | _ => s

/-- The first over-range sample of antenna 3 at tick 5,000 and the forced step that follows it 64 ticks on: 4 dB more attenuation, and both taints of
the blocker example. -/
theorem test_blocker_example :
    let s := regs live [(CNP_GAIN_CFG.FORCE_STEP, 4), (CNP_ATT.ATT 3, 10), (CNP_TAINT_SUB.D, 1280), (CNP_TAINT_SUB.CLEAN, 1536)]
    let t := after (exec (.overRange 3 5000 1) s) s
    let u := after (exec (.forcedStep 3) t) t
    bitOn (t.rd CNP_OVR_STS.OVR) 3 = true ∧ t.rd (CNP_ATT.ATT 3) = s.rd (CNP_ATT.ATT 3) ∧ u.rd (CNP_ATT.ATT 3) = s.rd (CNP_ATT.ATT 3) + 4 ∧
      taintedIn u 3 0 3720 3721 = true ∧ taintedIn u 3 0 6599 6600 = true ∧ taintedIn u 3 0 6600 6601 = false ∧ taintedIn u 3 0 3719 3720 = false := by
  decide +kernel

/-- Half-time at a stadium: the lane that lifts P1 to 231 is shed with cause 5, the one that lifts P2 to 86 is kept (R73). -/
theorem test_shedding_example :
    let s := regs live [(LNE_CTRL.SHED_EN, 1), (LNE_POOL_CTRL.LOW_WM, 32), (LNE_POOL_STS.FREE, 29), (LNE_POOL_STS.UNATTR, 108), (PRT_P_LANE.GUAR 1, 200),
      (PRT_P_LANE.CAP 1, 320), (PRT_P_LANE.GUAR 2, 120), (PRT_P_LANE.CAP 2, 200), (LNE_PSTS.IN_USE 1, 230), (LNE_PSTS.IN_USE 2, 85)]
    let x := fun (l p : Nat) => { s.wr (LNE_LANE_STS.STATE l) 2 with lanes := [(l, { ans := some (.accept p none none false none) })] }
    let t := after (exec (.headerAnswer 301) (x 301 1)) s
    let u := after (exec (.headerAnswer 88) (x 88 2)) s
    t.rd (LNE_LANE_STS.LAST_CAUSE 301) = 5 ∧ t.rd LNE_POOL_STS.FREE = 30 ∧ t.rd (LNE_PCNT.COUNT 1 1) = 1 ∧ t.rd (LNE_PSTS.IN_USE 1) = 230 ∧
      u.rd (LNE_LANE_STS.STATE 88) = 3 ∧ u.rd (LNE_PSTS.IN_USE 2) = 86 ∧ u.rd LNE_POOL_STS.FREE = 29 := by decide +kernel

/-- The register a core's instruction leaves, from g1 and g2. -/
def result (c : Instr) (a b : Word) (r : Nat) : Word := let s := coreOn live 64 (g12 a b); (after (exec c s) s).g 64 r

/-- Arithmetic at its corners (R218): a sum wraps, a difference borrows, division by zero and the most negative quotient, shifts by 32 and more. -/
theorem test_core_arithmetic :
    result (.add 64 3 1 2) 0xFFFFFFFF 2 3 = 1 ∧ result (.sub 64 3 1 2) 1 2 3 = 0xFFFFFFFF ∧ result (.add 64 0 1 2) 3 4 0 = 0 ∧
      result (.mulhu 64 3 1 2) 0xFFFFFFFF 0xFFFFFFFF 3 = 0xFFFFFFFE ∧ result (.mulh 64 3 1 2) 0x80000000 0x80000000 3 = 0x40000000 ∧
      result (.divu 64 3 1 2) 7 0 3 = 0xFFFFFFFF ∧ result (.remu 64 3 1 2) 7 0 3 = 7 ∧ result (.sll 64 3 1 2) 1 33 3 = 2 ∧
      result (.sra 64 3 1 2) 0x80000000 31 3 = 0xFFFFFFFF ∧ result (.clz 64 3 1) 0 0 3 = 32 ∧ result (.bswap 64 3 1) 0x11223344 0 3 = 0x44332211 := by
  decide +kernel

/-- A source that is also the destination, and immediates that are sign- or zero-extended (R218). -/
theorem test_core_immediates :
    result (.addi 64 1 1 0xFFFF) 5 0 1 = 4 ∧ result (.andi 64 3 1 0xFFFF) 0xFFFF1234 0 3 = 0x1234 ∧ result (.lui 64 3 0x8000) 0 0 3 = 0x80000000 ∧
      result (.slt 64 3 1 2) 0xFFFFFFFF 0 3 = 1 ∧ result (.sltu 64 3 1 2) 0xFFFFFFFF 0 3 = 0 := by decide +kernel

/-- A branch is relative to its own address (R219): BNE g1, g0, −3 at 0x100 goes to 0xF4. -/
theorem test_core_branch :
    let s := coreOn live 64 { pc := 0x100, g := [(1, 1)] }
    (after (exec (.bne 64 1 0 0xFFFD) s) s).pcOf 64 = 0xF4 := by decide +kernel

/-- FULL_RESET with a wrong key does nothing (R30). -/
theorem test_fullReset_key : after (exec (.fullReset .pf 0xC1A4) live) State.reset = live := by decide +kernel

/-- An antenna number past 7 names no object, and the row stops. -/
theorem test_noSuchObject : (match exec (.forcedStep 8) live with | .fault .noSuchObject => true | _ => false) = true := by decide +kernel

/-- An odd divider, and one outside 8 to 4,096, is reserved and leaves the field; 10 takes effect (R387, R16). -/
theorem test_clkout_div :
    let w := fun (v : Nat) => (after (exec (.registerWrite .pf (CLK_OUT_CFG.reg 0) 4 (.write (BitVec.ofNat 32 v))) live) live).rd (CLK_OUT_CFG.DIV 0)
    w 10 = 10 ∧ w 9 = live.rd (CLK_OUT_CFG.DIV 0) ∧ w 6 = live.rd (CLK_OUT_CFG.DIV 0) := by decide +kernel

/-- A command at the front of the queue is taken, and the queue's rest stays (log entry 5 for the empty queue). -/
theorem test_step_takes_front : (after (step { live with pending := [.nop 0, .kopDone] }) live).pending = [.kopDone] := by decide +kernel

/-! ## Hypotheses of the obligations -/

/-- Hypotheses of EmptyQueueLetsOneTickPass. -/
theorem test_hyps_EmptyQueueLetsOneTickPass : State.reset.pending = [] ∧ State.reset.inv = true := by decide

/-- Hypotheses of EveryStepKeepsTheInvariant. -/
theorem test_hyps_EveryStepKeepsTheInvariant : State.reset.inv = true ∧ ∃ t, step State.reset = .next t := ⟨by decide, _, rfl⟩

/-- Hypotheses of FusesOnlyBlow. -/
theorem test_hyps_FusesOnlyBlow : State.reset.inv = true ∧ ∃ t, step State.reset = .next t := ⟨by decide, _, rfl⟩

/-- Hypotheses of EveryWellFormedCommandGoesOn. -/
theorem test_hyps_EveryWellFormedCommandGoesOn : (Instr.radioReset .pf 0).wf = true := by decide

/-- Hypotheses of CommandsLeaveTheQueueAndTime. -/
theorem test_hyps_CommandsLeaveTheQueueAndTime : State.reset.inv = true ∧ ∃ t, exec (.nopInsn 0) State.reset = .next t := ⟨by decide, _, rfl⟩

/-- Hypotheses of RadioCounterClearsClearExactlyTheirCounters. -/
theorem test_hyps_RadioCounterClearsClearExactlyTheirCounters : State.reset.inv = true ∧ reaches State.reset .pf CNP_CNT_CLR.reg ∧ reaches State.reset .pf LNE_CNT_CLR.reg ∧
    reaches State.reset .pf LNK_CNT_CLR.reg ∧ reaches State.reset (.sv 1) TXC_CNT_CLR.reg := by decide

/-- Hypotheses of ServiceCounterClearsClearExactlyTheirCounters. -/
theorem test_hyps_ServiceCounterClearsClearExactlyTheirCounters : State.reset.inv = true ∧ reaches State.reset .pf QUE_CNT_CLR.reg ∧ reaches State.reset .pf PRT_CNT_CLR.reg ∧
    reaches State.reset .pf SEC_CNT_CLR.reg ∧ reaches State.reset .pf HST_CNT_CLR.reg ∧ reaches State.reset .pf PWR_CNT_CLR.reg ∧
    reaches State.reset .pf EVR_CNT_CLR.reg ∧
    (let s : State := { State.reset with hst := { State.reset.hst with funcs := [(3, { on := true })] } }
     s.inv = true ∧ s.pwr.mode = 0 ∧ (s.func 3).on = true) := by decide

/-- Hypotheses of the capture's transitions, clause by clause. -/
theorem test_hyps_CaptureCommandsMoveTheCapture :
    let s := fun (st : Nat) (l : List (RegFld × Nat)) => regs live ((CNP_CAP_STS.STATE, st) :: l)
    (∀ st ∈ [0, 1, 2, 3, 4, 5], open_ (s st []) CNP_CAP_CTRL.reg = true ∧ (s st []).rd CNP_CAP_STS.STATE = st) ∧
    capValid (s 5 [(CNP_CAP_CFG.ANT_MASK, 128)]) = true ∧ capValid (s 5 []) = false ∧ open_ (s 5 [(CNP_CAP_CFG.ANT_MASK, 128)]) CNP_CAP_CTRL.reg = true ∧
    (∀ k ∈ [0, 2, 3, 4, 5], (s 2 [(CNP_CAP_CFG.TRIG, k)]).rd CNP_CAP_CFG.TRIG = k ∧
      ({ s 2 [(CNP_CAP_CFG.TRIG, k)] with cnp := { capPulse := some 7, capOvr := some 7, capCand := some 7, capFrom := 7 } } : State).inv = true) ∧
    (∀ k ∈ [0, 1, 2], (let t := s 3 [(CNP_CAP_CFG.SOURCE, k), (CNP_CAP_CFG.ANT_MASK, 128), (CNP_CAP_CFG.GRID, 1), (CNP_GRID_BASE.EN 1, 1), (CNP_GRID_GEOM.COUNT 1, 1),
        (CNP_CAP_POS.PRE, 15)]
      open_ t CNP_CAP_CTRL.reg = true ∧ t.rd CNP_CAP_STS.STATE = 3 ∧ capValid t = true ∧ t.rd CNP_CAP_CFG.SOURCE = k)) := by decide +kernel

/-- Hypotheses of the gain commands, clause by clause. -/
theorem test_hyps_GainCommandsMoveTheAttenuation :
    let s := regs live [(CNP_ATT_LIM.MIN 7, 3), (CNP_ATT_LIM.MAX 7, 31), (CNP_ATT.ATT 7, 30)]
    let locked := s.wr CNP_CTRL.LOCK 1
    let due := fun (t : State) => { t with cnp := { t.cnp with ants := [(7, ({ dues := [64] } : Ant))] } }
    (∀ t ∈ [s, locked], open_ t (CNP_ATT.reg 7) = true ∧ open_ t (CNP_ATT_LIM.reg 7) = true ∧ open_ t (CNP_DLY.reg 7) = true) ∧
    s.cnpLocked = false ∧ locked.cnpLocked = true ∧ streamsOn s = true ∧ streamsOn State.reset = false ∧ (s.ant 7).dues = [] ∧
    (due (s.wr (CNP_ATT.MODE 7) 2)).inv = true ∧ (due (s.wr (CNP_ATT.MODE 7) 2)).rd (CNP_ATT.MODE 7) = 2 ∧
    (due s).inv = true ∧ ((due s).ant 7).dues = [64] ∧ (due s).rd (CNP_ATT.MODE 7) ≠ 2 ∧ (due s).rd (CNP_ATT.ATT 7) < (due s).rd (CNP_ATT_LIM.MAX 7) ∧
    (due (s.wr (CNP_ATT.ATT 7) 31)).inv = true ∧ (due (s.wr (CNP_ATT.ATT 7) 31)).rd (CNP_ATT_LIM.MAX 7) ≤ (due (s.wr (CNP_ATT.ATT 7) 31)).rd (CNP_ATT.ATT 7) := by
  decide +kernel

/-- Hypotheses of over-range and the ends of taint. -/
theorem test_hyps_OverRangeOpensAndClosesAnEpisode :
    let act : State := { live with cnp := { live.cnp with ants := [(7, ({ active := true, last := 9 } : Ant))], taints := [⟨7, 1, 0, 9⟩] } }
    State.reset.inv = true ∧ streamsOn State.reset = false ∧ live.inv = true ∧ streamsOn live = true ∧ (live.ant 7).active = false ∧
    act.inv = true ∧ streamsOn act = true ∧ (act.ant 7).active = true ∧ taintEndAt act 7 1 = some 9 ∧ 9 ≤ (act.at_ 9).atb ∧ taintEndAt act 7 0 = none ∧
    (let x : Lane := { wmask := 128, atts := [0, 0, 0, 0, 0, 0, 0, 5] }
     let t := { act with lanes := [(511, x)] }
     t.inv = true ∧ laneSlice x = 1 ∧ bitOn x.wmask 7 = true) := by decide +kernel

/-- Hypotheses of search, noise and antenna enables: point 2047 of channel 1023 detects at tick 10,240 on antenna 7. -/
theorem test_hyps_SearchFillsTheCandidateQueueInOrder :
    let on := regs live [(CNP_CTRL.SEARCH, 1), (CNP_POINT.EN 2047, 1), (CNP_POINT.GRID 2047, 7), (CNP_POINT.CHAN 2047, 1023), (CNP_POINT.RATE 2047, 1),
      (CNP_ANT_EN.EN, 128), (CNP_THR.THR 0, 40)]
    let heard : State := { on with cnp := { on.cnp with noise := [(2047, [0, 0, 0, 0, 0, 0, 0, 11])] } }
    let o : PointObs := ⟨2047, [0, 0, 0, 0, 0, 0, 0, 1000], 5, []⟩
    live.inv = true ∧ searchOn live = false ∧ heard.inv = true ∧ searchOn heard = true ∧ heard.cnp.cands.length < 64 ∧
    evalPoint (heard.at_ (10240 + sliceD heard 0)) 10240 o = some ⟨o, 1, 80⟩ ∧ detects heard ⟨o, 1, 80⟩ = true ∧ rateSlice (heard.rd (CNP_POINT.RATE 2047)) = 0 ∧
    heard.on (blindF 0) = false ∧ (sget (fun _ => (0, 0)) heard.cnp.holds (groupOf heard 2047)).1 = 0 ∧ heard.cnp.pairs = [] ∧
    (streamsOn on = true ∧ on.on (CNP_POINT.EN 2047) = true ∧ noiseFrom on 2047 = 0 ∧ sget (fun _ => 0) on.cnp.detAt 2047 = 0 ∧
      (antEnabled on 7 && !taintedIn on 7 0 0 32000) = true) ∧
    (let hit : State := { on with cnp := { on.cnp with detAt := [(2047, 10241)] } }; hit.inv = true ∧ sget (fun _ => 0) hit.cnp.detAt 2047 = 10241) ∧
    (open_ on CNP_ANT_EN.reg = true ∧ antEnabled (on.wr CNP_ANT_EN.EN 0) 7 = false ∧ open_ (on.wr CNP_ANT_EN.EN 0) CNP_ANT_EN.reg = true) ∧
    (let cap := regs on [(CNP_CAP_STS.STATE, 3), (CNP_CAP_CFG.ANT_MASK, 128)]
     open_ cap CNP_ANT_EN.reg = true ∧ antEnabled cap 7 = true ∧ bitOn (cap.rd CNP_CAP_CFG.ANT_MASK) 7 = true) := by decide +kernel

/-- Hypotheses of candidate allocation, clause by clause. -/
theorem test_hyps_AllocatorTakesTheHeadCandidate :
    let q := fun (s : State) => { s with cnp := { s.cnp with cands := [({ rate := 7 } : Cand)] } }
    let full := { q (regs pan63 [(PWR_STS.STATE, 2), (PWR_WATCH_CFG.LANES, 1)]) with lanes := [(0, ({} : Lane))] }
    let last := { q pan63 with lanes := (List.range 511).map (fun l => (l, ({} : Lane))) }
    (live.inv = true ∧ live.cnp.cands = []) ∧ ((q live).inv = true ∧ accepting (q live) = false) ∧
    (full.inv = true ∧ accepting full = true ∧ ∀ l, l < laneLimit full → (full.lane l).isSome = true) ∧
    (last.inv = true ∧ accepting last = true ∧ laneLimit last = 512 ∧ last.lane 511 = none ∧ ∀ m, m < 511 → (last.lane m).isSome = true) := by
  decide +kernel

/-- Hypotheses of the lane releases, clause by clause. -/
theorem test_hyps_LanesAreReleasedForTheirCause :
    let x : Lane := { cand := { rate := 7 } }
    let y : Lane := { x with phy := some phy0 }
    let z : Lane := { cand := { rate := 1 }, phy := some phy0 }
    let acc : Lane := { y with ans := some (.accept 5 none none false none) }
    let rs : State := { lane511 live 2 acc with prt := { live.prt with resets := [⟨5, 1, false⟩] } }
    (lane511 live 1 x).inv = true ∧ (lane511 live 1 x).lane 511 = some x ∧ (lane511 live 1 x).rd (LNE_LANE_STS.STATE 511) = 1 ∧
    (lane511 live 2 x).inv = true ∧ (lane511 live 2 x).rd (LNE_LANE_STS.STATE 511) = 2 ∧ phyOk 7 (phyParse 7 false 6) = false ∧
    (∀ k ∈ [1, 7], (lane511 live 2 { y with ans := some (.reject k) }).inv = true ∧
      (lane511 live 2 { y with ans := some (.reject k) }).lane 511 = some { y with ans := some (.reject k) }) ∧
    (rs.inv = true ∧ rs.lane 511 = some acc ∧ rs.rd (LNE_LANE_STS.STATE 511) = 2 ∧ resetting rs 5 = true) ∧
    (lane511 live 3 z).inv = true ∧ (lane511 live 3 z).lane 511 = some z ∧ (lane511 live 3 z).on LNE_CTRL.FCS_BAD_DLV = false ∧
    phy0.length ≤ (laneOctets z phy0 (psdu0.set 19 0)).length ∧ fcsRight 1 phy0 (laneOctets z phy0 (psdu0.set 19 0)) = false := by decide +kernel

/-- Hypotheses of a lane's frame from its SFD to its descriptor, clause by clause: a frame of 20 octets in lane 511. -/
theorem test_hyps_LanesCarryAFrameToTheQueueFabric :
    let x : Lane := { cand := { rate := 1 } }
    let y : Lane := { x with phy := some phy0 }
    let z : Lane := { y with psdu := psdu0.take 9, hdr := some mac0, ans := some (.accept 5 none (some 63) false none) }
    let w : Lane := { z with psdu := psdu0, fcsOk := some true, cells := [7] }
    let s := fun (st : Nat) (x : Lane) => lane511 pan63 st x
    let frame := fun (k : Nat) (b : Byte) => (psdu0.take 9).set k b
    let head := fun (os : List Byte) => macParse os 20 2
    let attrib := fun (s : State) => regs s [(LNE_LANE_STS.ATTRIB 511, 1), (LNE_LANE_STS.PART 511, 5), (PRT_P_CELL_CAP.CAP 5, 0)]
    ((s 1 x).inv = true ∧ (s 1 x).lane 511 = some x ∧ roundTick (0 - (s 1 x).rd (LNE_RATE_LAT.LAT 1)) ≤ (s 1 x).rd (LNE_RATE_SFDTO.SFD_TO 1)) ∧
    ((s 2 x).inv = true ∧ (s 2 x).lane 511 = some x ∧ (s 2 x).rd (LNE_LANE_STS.STATE 511) = 2 ∧ phyOk 1 (phyParse 1 false 648) = true ∧
      phyParse 1 false 648 = phy0) ∧
    ((s 2 y).inv = true ∧ (s 2 y).lane 511 = some y ∧ laneOctets y phy0 (psdu0.take 9) = psdu0.take 9 ∧ headerNeed (psdu0.take 9) = 9 ∧
      headerNeed (psdu0.take 8) = 9 ∧ head (psdu0.take 9) = { mac0 with seq := 5 } ∧ earlyReason 20 (head (psdu0.take 9)) = none ∧
      (let h := head (frame 0 0x62); earlyReason 20 h = none ∧ h.ftype = 2 ∧ (ackMatch (s 2 y) y h).isNone = true) ∧
      (let h := head (frame 4 0x43); entryOf (s 2 y) 0 h = none ∧ earlyReason 20 h = none ∧ h.ftype ≠ 2) ∧
      (let h := head (psdu0.take 9); entryOf (s 2 y) 0 h = some 63 ∧ dstOk (s 2 y) 63 h = true ∧ lookupSrc (s 2 y) 63 h.src = none) ∧
      (let h := head (frame 5 0x12); entryOf (s 2 y) 0 h = some 63 ∧ dstOk (s 2 y) 63 h = false ∧ earlyReason 20 h = none)) ∧
    ((s 3 z).inv = true ∧ (s 3 z).lane 511 = some z ∧ z.cells.length < ceilDiv phy0.length 64 ∧ z.rst = false ∧ 0 < cellCredits (s 3 z) ∧
      (laneAccount (s 3 z) 511).2 = true ∧ (attrib (s 3 z)).inv = true ∧ (laneAccount (attrib (s 3 z)) 511).2 = false) ∧
    ((s 3 z).rd (LNE_LANE_STS.STATE 511) = 3 ∧ laneOctets z phy0 (psdu0.drop 9) = psdu0 ∧ fcsRight 1 phy0 psdu0 = true ∧ macParse psdu0 20 2 = mac0 ∧
      (s 3 z).on LNK_CTRL.EN = true ∧ isBcast mac0.dst = false ∧ (s 3 z).on LNE_CTRL.FCS_BAD_DLV = false) ∧
    ((s 4 w).inv = true ∧ (s 4 w).lane 511 = some w ∧ w.cells.length = ceilDiv phy0.length 64 ∧ (laneAccount (s 4 w) 511).2 = true ∧
      (attrib (s 4 w)).inv = true ∧ (laneAccount (attrib (s 4 w)) 511).2 = false) := by decide +kernel

/-- More hypotheses of a lane's frame: a pair in lanes 510 and 511 before its headers, a node known by its source address, and no credit. -/
theorem test_hyps_LanesCarryAFrameToTheQueueFabric_2 :
    let x := fun (r : Nat) => ({ cand := { rate := r, pairId := 9, score := 100 } } : Lane)
    let s : State := { regs pan63 [(LNE_LANE_STS.STATE 510, 2), (LNE_LANE_STS.STATE 511, 2), (LNE_LANE_STS.PAIRED 510, 1), (LNE_LANE_STS.PAIRED 511, 1)] with
      lanes := [(510, x 1), (511, x 2)] }
    let known : Lane := { cand := { rate := 1 }, phy := some phy0 }
    let n := idxInsertAll 3 63 [.short 0x22] (withRx (lane511 pan63 2 known) 0 rx0)
    let busy : State := { lane511 pan63 3 known with lanes := (List.range 2048).map (fun k => (1000 + k, ({ stalled := true } : Lane))) }
    (s.inv = true ∧ s.lane 511 = some (x 2) ∧ s.lane 510 = some (x 1) ∧ partner s 511 = some 510 ∧ partner s 510 = some 511 ∧
      phyOk 1 (phyParse 1 false 648) = true ∧ phyOk 2 (phyParse 2 false 648) = true) ∧
    (n.1.inv = true ∧ lookupSrc n.1 63 (.short 0x22) = some 3 ∧ ((ctxCheck 3 n.1).node 3).poison = false) ∧
    (busy.inv = true ∧ cellCredits busy = 0) := by decide +kernel

/-- Hypotheses of the shedding rule, clause by clause. -/
theorem test_hyps_AttributionKeepsOrShedsALane :
    let x : Lane := { phy := some phy0, hdr := some mac0, ans := some (.accept 63 none none false none) }
    let s := fun (l : List (RegFld × Nat)) => lane511 (regs live l) 2 x
    let ok := fun (t : State) => t.inv = true ∧ t.lane 511 = some x ∧ t.rd (LNE_LANE_STS.STATE 511) = 2 ∧ resetting t 63 = false
    let a := s [(PRT_P_LANE.CAP 63, 1), (LNE_PSTS.IN_USE 63, 1)]
    let b := s [(PRT_P_LANE.CAP 63, 2), (PRT_P_LANE.GUAR 63, 1), (LNE_PSTS.IN_USE 63, 1), (LNE_CTRL.SHED_EN, 1), (LNE_POOL_STS.FREE, 0), (LNE_POOL_CTRL.LOW_WM, 1)]
    let c := s [(PRT_P_LANE.CAP 63, 2), (PRT_P_LANE.GUAR 63, 2), (LNE_PSTS.IN_USE 63, 1)]
    (ok a ∧ a.rd (PRT_P_LANE.CAP 63) < a.rd (LNE_PSTS.IN_USE 63) + 1) ∧
    (ok b ∧ b.rd (LNE_PSTS.IN_USE 63) + 1 ≤ b.rd (PRT_P_LANE.CAP 63) ∧ b.on LNE_CTRL.SHED_EN = true ∧
      b.rd LNE_POOL_STS.FREE < b.rd LNE_POOL_CTRL.LOW_WM ∧ b.rd (PRT_P_LANE.GUAR 63) < b.rd (LNE_PSTS.IN_USE 63) + 1) ∧
    (ok c ∧ c.rd (LNE_PSTS.IN_USE 63) + 1 ≤ c.rd (PRT_P_LANE.CAP 63) ∧ ¬c.rd (PRT_P_LANE.GUAR 63) < c.rd (LNE_PSTS.IN_USE 63) + 1) := by decide +kernel

/-- Hypotheses of verification, clause by clause; the order of the checks first. -/
theorem test_hyps_VerificationChecksRunInTheirOrder :
    let sec := { mac0 with secured := true, level := 5, keyMode := 1, counter := 7 }
    let r := fun (h : MacHdr) => { rx0 with hdr := h }
    let ok := fun (c : BitVec 512) (x : Rx) => (withRx live c x).inv = true ∧ (withRx live c x).rx 0 = some x ∧ predecessor (withRx live c x) 0 x = false
    ok 0 (r { sec with counter := 0xFFFFFFFF }) ∧
    (ok (NC.RX_FC.put 0 8) (r sec) ∧ isDup (withRx live (NC.RX_FC.put 0 8) (r sec)) (r sec) = true) ∧
    (ok (NC.SEC_LEVEL.put 0 6) (r sec) ∧ isDup (withRx live (NC.SEC_LEVEL.put 0 6) (r sec)) (r sec) = false ∧ isAck (r sec) = false ∧
      (withRx live (NC.SEC_LEVEL.put 0 6) (r sec)).nc 3 NC.SEC_LEVEL = 6) ∧
    (ok 0 rx0 ∧ isDup (withRx live 0 rx0) rx0 = false ∧ (withRx live 0 rx0).nc 3 NC.SEC_LEVEL = 0) ∧
    (∀ l ∈ [0, 4], ok 0 (r { sec with level := l }) ∧ isDup (withRx live 0 (r { sec with level := l })) (r { sec with level := l }) = false) := by decide +kernel

/-- Hypotheses of verification: a bad context, a frame behind another, the choice of the key. -/
theorem test_hyps_VerificationChecksRunInTheirOrder_key :
    let r := { rx0 with hdr := { mac0 with secured := true, level := 5, keyMode := 1, counter := 7 } }
    let bad := { withRx live 0 r with que := { (withRx live 0 r).que with nodes := [(3, ({ life := 1, badPar := 1 } : Node))] } }
    let two := { withRx live 0 r with que := { (withRx live 0 r).que with rxs := [{ r with node := some 4 }, r] } }
    let ks := fun (m : Nat) => regs { live with sec := { live.sec with rngUp := true, slots := [(0, ({ state := 1, mode := m } : KSlot))] } }
      [(SEC_CTRL.EN, 1), (PRT_KMAP.OWNER 0, 63), (PRT_KMAP.EN 0, 1)]
    let bare := { r with node := none }
    let pan := { r with node := none, pan := some 63 }
    (bad.inv = true ∧ bad.rx 0 = some r ∧ (bad.node 3).badPar ≠ 0) ∧
    (two.inv = true ∧ two.rx 1 = some r ∧ predecessor two 1 r = false ∧ verifyTurn two 1 = false ∧ isDup two r = false) ∧
    (rxSlot (withRx live 0 bare) bare = none ∧ isDup (withRx live 0 bare) bare = false ∧ verifyTurn (withRx live 0 bare) 0 = true) ∧
    (rxSlot (withRx live 0 r) r = some 0 ∧ chooseRx (withRx live 0 r) 63 0 1 0 0 = .noKey) ∧
    (chooseRx (withRx (ks 2) 0 r) 63 0 1 0 0 = .mismatch ∧ rxSlot (withRx (ks 2) 0 r) r = some 0) ∧
    (rxSlot (regs (withRx (ks 1) 0 pan) [(SEC_PANKEY.EN 63, 1)]) pan = some 0 ∧ nonceSource (regs (withRx (ks 1) 0 pan) [(SEC_PANKEY.EN 63, 1)]) pan = none ∧
      chooseRx (regs (withRx (ks 1) 0 pan) [(SEC_PANKEY.EN 63, 1)]) 63 0 1 0 0 = .ok 0) := by decide +kernel

/-- Hypotheses of verification: the job and its result. -/
theorem test_hyps_VerificationChecksRunInTheirOrder_job :
    let r := { rx0 with hdr := { mac0 with secured := true, level := 5, keyMode := 1, counter := 7 } }
    let key := fun (j : List RxJob) => { regs (withRx live 0 r) [(SEC_CTRL.EN, 1), (PRT_KMAP.OWNER 0, 63), (PRT_KMAP.EN 0, 1)] with
      sec := { live.sec with rxJobs := j, rngUp := true, slots := [(0, ({ state := 1, mode := 1 } : KSlot))] } }
    let badc := { key [] with que := { (key []).que with cells := [(9, ({ badPar := 1 } : FCell))] } }
    (∀ j ∈ [[], List.replicate 32 (⟨8, true⟩ : RxJob)], (key j).inv = true ∧ (key j).rx 0 = some r ∧ predecessor (key j) 0 r = false ∧
      isDup (key j) r = false ∧ (key j).nc 3 NC.SEC_LEVEL ≤ 5 ∧ verifyTurn (key j) 0 = true ∧ rxSlot (key j) r = some 0 ∧
      chooseRx (key j) 63 0 1 0 0 = .ok 0 ∧ nonceSource (key j) r = some 0 ∧ frameJobsRun (key j) = true ∧
      ((9 : Nat) :: r.cells).all (fun c => !badCell ((key j).cell c)) = true) ∧
    (badc.inv = true ∧ badc.rx 0 = some r ∧ frameJobsRun badc = true ∧ chooseRx badc 63 0 1 0 0 = .ok 0 ∧
      ((9 : Nat) :: r.cells).all (fun c => !badCell (badc.cell c)) = false) ∧
    (∀ b ∈ [true, false], (key [⟨9, b⟩]).inv = true ∧ (key [⟨9, b⟩]).sec.rxJobs.find? (fun i => i.cell == 9) = some ⟨9, b⟩) := by decide +kernel

/-- Hypotheses of frame commit, clause by clause. -/
theorem test_hyps_CommittedFramesUpdateTheirNode :
    let r := { rx0 with stage := 2 }
    let att : Att := ⟨4, 0, 3, 63, 5, 0, 0, 0, 9, 0, false, false⟩
    let ok := fun (x : Rx) => (withRx live 0 x).inv = true ∧ (withRx live 0 x).rx 0 = some x ∧ predecessor (withRx live 0 x) 0 x = false ∧ x.stage = 2
    let two := { withRx live 0 r with que := { (withRx live 0 r).que with rxs := [rx0, { r with fend := 1 }] } }
    ok r ∧ ok { r with hdr := { mac0 with ftype := 2 } } ∧ predecessor two 1 { r with fend := 1 } = true ∧ (two.rx 1 = some { r with fend := 1 } ∧ two.inv = true) ∧ ok { r with hdr := { mac0 with secured := true, counter := 0xFFFFFFFE } } ∧ ok { r with oow := some true } ∧
    ok { r with att := some 4, oow := some false } ∧
    (let s := { withRx live 0 { r with att := some 4, oow := some false } with lnk := { live.lnk with atts := [att] } }
     s.inv = true ∧ (s.lnk.atts.find? (fun a => a.id == 4 && !a.done)).isSome = true ∧ predecessor s 0 { r with att := some 4, oow := some false } = false) := by
  decide +kernel

/-- Hypotheses of delivery, clause by clause. -/
theorem test_hyps_DeliveriesGoToTheirReceiver :
    let r := { rx0 with stage := 3, owed := [63], node := none }
    let eng := regs (withRx live 0 r) [(ENG_C_RX.EN 7 63, 1), (ENG_C_RX.TYPES 7 63, 2)]
    let up := eng.wr (ENG_C_STS.PSTATE 7) 2
    let port := { regs (withRx live 0 r) [(HST_PORT_STS.EN 1, 1), (HST_PORT_CFG.RX_EN 1, 1), (HST_PORT_CFG.TYPES 1, 2), (PRT_PORT.OWNER 1, 63), (PRT_PORT.EN 1, 1)] with
      hst := { live.hst with funcs := [(63, { on := true, bme := true })], ports := [(1, { posted := [5] })], ctxs := [(5, ctx0 1 0)] } }
    (eng.inv = true ∧ eng.rx 0 = some r ∧ routeOf eng r 63 = .engine 7 ∧ eng.rd (ENG_C_STS.PSTATE 7) ≠ 2) ∧
    (up.inv = true ∧ up.rx 0 = some r ∧ routeOf up r 63 = .engine 7 ∧ engUsed up 7 63 < engShare up 7 63 ∧ up.rd (ENG_C_STS.PSTATE 7) = 2 ∧
      behind up 0 63 (.engine 7) = false ∧ (r.descCell :: r.cells).all (fun c => !badCell (up.cell c)) = true) ∧
    (let eb := { up with que := { up.que with rxs := [r, r] } }
     eb.inv = true ∧ eb.rx 1 = some r ∧ behind eb 1 63 (.engine 7) = true) ∧
    ((withRx live 0 r).inv = true ∧ routeOf (withRx live 0 r) r 63 = .nowhere ∧ engineOwed (withRx live 0 r) r.descCell = false) ∧
    (let b := { r with bcast := true, owed := [63, 2] }
     let sb := regs (withRx live 0 b) [(PRT_BSUB_HI.MASK 0, 0x80000000)]
     sb.inv = true ∧ sb.rx 0 = some b ∧ routeOf sb b 63 = .nowhere ∧ (63 : Nat) ∈ subscribers sb (RD.GRID.of b.dsc)) ∧
    (port.inv = true ∧ port.rx 0 = some r ∧ routeOf port r 63 = .port 1 ∧ (port.port 1).posted = [5] ∧ (port.ctx 5).isSome = true ∧
      behind port 0 63 (.port 1) = false ∧ hostCredited port 0 63 = true ∧ (port.func (port.portOwner 1)).bme = true) ∧
    (let none := { port with hst := { port.hst with ports := [] } }
     none.inv = true ∧ routeOf none r 63 = .port 1 ∧ (none.port 1).posted = []) := by decide +kernel

/-- Hypotheses of acknowledgement builds, clause by clause. -/
theorem test_hyps_AcknowledgementsAreBuiltAtTheirInstant :
    let a := fun (v : Option Bool) => (⟨some 3, 63, none, mac0, 1, 0, 0, 0, 0, 0, 0, false, 0, none, v⟩ : AckReq)
    let s := fun (v : Option Bool) => { live with lnk := { live.lnk with acks := [a v] } }
    let full := { s (some true) with txc := { live.txc with ents := (List.range 32).map (fun k => (1024 + k, ({ st := 1 } : Ent))) } }
    (∀ v ∈ [none, some false, some true], (s v).inv = true ∧ (s v).lnk.acks[0]? = some (a v)) ∧ ((s (some true)).ent 1055).st = 0 ∧
    (full.inv = true ∧ full.lnk.acks[0]? = some (a (some true)) ∧ ∀ k, k < 32 → (full.ent (1024 + k)).st ≠ 0) := by decide +kernel

/-- Hypotheses of the comparators, clause by clause. -/
theorem test_hyps_ComparatorsFireAtTheirValue :
    let armed := fun (v : Nat) => { regs live [(LNK_CMP_CTRL.ARMED 63, 1), (LNK_CMP_LO.VALUE_LO 63, v)] with atb := 9 }
    open_ { live with atb := 9 } (LNK_CMP_HI.reg 63) = true ∧
    (∀ v ∈ [9, 10], (armed v).inv = true ∧ (armed v).on (LNK_CMP_CTRL.ARMED 63) = true ∧ (armed v).atbRuns = true ∧ (armed v).atb ≤ (armed v).rd64 (LNK_CMP_LO.reg 63)) ∧
    live.on (LNK_CMP_CTRL.ARMED 63) = false := by decide +kernel

/-- Hypotheses of DISARM and the writes of PAN entries and of the hopping schedule. -/
theorem test_hyps_DisarmAndPanEntriesAndTschWrites :
    let pans := regs live [(LNK_PAN_CFG.EN 0, 1), (LNK_PAN_CFG.GRIDS 0, 1), (LNK_PAN_ID.PAN_ID 0, 0x1234), (LNK_PAN_CFG.GRIDS 63, 1), (LNK_PAN_CFG.EN 63, 1)]
    let tsch := regs live [(LNK_TSCH_SLOT_LEN.TICKS, 32000), (LNK_TSCH_RX_OFS.TICKS, 2000), (LNK_TSCH_RX_WAIT.TICKS, 30000), (LNK_TSCH_LEAD.TICKS, 8192)]
    open_ live (LNK_CMP_CTRL.reg 63) = true ∧ (open_ pans (LNK_PAN_ID.reg 63) = true ∧ open_ pans (LNK_PAN_ID.reg 63 + 12) = true) ∧
    panClash (pans.regWrite (LNK_PAN_ID.reg 63) 0x1235#32) 63 = false ∧ panClash (pans.regWrite (LNK_PAN_ID.reg 63) 0x1234#32) 63 = true ∧
    open_ live LNK_TSCH_CTRL.reg = true ∧ templateOk live = false ∧ open_ (live.wr LNK_TSCH_CTRL.EN 1) LNK_TSCH_CTRL.reg = true ∧
      (live.wr LNK_TSCH_CTRL.EN 1).on LNK_TSCH_CTRL.EN = true ∧ (open_ tsch LNK_TSCH_CTRL.reg = true ∧ templateOk tsch = true ∧ tsch.on LNK_TSCH_CTRL.EN = false) ∧
    (open_ (live.wr LNK_CTRL.LOCK 1) (LNK_CELL0.reg 8191) = true ∧ (live.wr LNK_CTRL.LOCK 1).on LNK_CTRL.LOCK = true) ∧
    (open_ live (LNK_CELL0.reg 8191 + 4) = true ∧ live.on LNK_CTRL.LOCK = false ∧ live.handleOwner 65535 = 0) := by decide +kernel

/-- Hypotheses of placement by node class and of the airtime period. -/
theorem test_hyps_SchedulerPlacesHeadItemsByClass :
    let idle : State := { live with que := { live.que with nodes := [(65535, { ctx := NC.HEAD.put 0 noCell, life := 1 })] } }
    let ok := fun (s : State) (c : Nat) => s.inv = true ∧ s.clk.tb = true ∧ heldRetry s 3 = none ∧ headItem s 3 = some 8 ∧ mayTake s 3 = true ∧
      (s.node 3).badPar = 0 ∧ s.nc 3 NC.CLASS = c ∧ badCell (s.cell 8) = false
    let full := { queued live 0 0 with lnk := { live.lnk with scheds := List.replicate 1024 ⟨{}⟩ } }
    let tight := regs (queued live 0 0) [(PRT_AIR_CTRL.EN, 1)]
    let bad := { queued live 0 0 with que := { (queued live 0 0).que with cells := [(8, ({ badPar := 1, hdrCell := true } : FCell))] } }
    let held := queued live (NC.QHOLD.put 0 1) 0
    (idle.inv = true ∧ idle.clk.tb = true ∧ headItem idle 65535 = none ∧ heldRetry idle 65535 = none) ∧
    (bad.inv = true ∧ bad.clk.tb = true ∧ heldRetry bad 3 = none ∧ headItem bad 3 = some 8 ∧ (bad.node 3).badPar = 0 ∧ badCell (bad.cell 8) = true ∧
      (bad.node 3).life = 1) ∧
    (held.inv = true ∧ heldRetry held 3 = none ∧ headItem held 3 = some 8 ∧ badCell (held.cell 8) = false ∧ mayTake held 3 = false) ∧
    (State.reset.inv = true ∧ State.reset.clk.tb = false) ∧
    (let wd := queued live (NC.CLASS.put 0 2) 0
     let x := entOf wd 3 8 0 (leadInstant wd) (itemChain wd 3 8) (wd.ih 8 IH.GRID) (wd.ih 8 IH.CHAN) (wd.ih 8 IH.ACK_REQ == 1)
     inTime wd 8 (wakePlan wd 3 x.rate).start = true ∧ airOk wd 0 5 = true) ∧
    (∀ c ∈ [0, 1, 2, 3], ok (queued live (NC.CLASS.put 0 c) 0) c) ∧
    (inTime (queued live 0 0) 8 (leadInstant (queued live 0 0)) = true ∧ airOk (queued live 0 0) 0 0 = true) ∧
    (ok tight 0 ∧ airOk tight 0 1 = false) ∧ (ok full 0 ∧ 1024 ≤ full.lnk.scheds.length) ∧
    (live.rd PRT_AIR_PERIOD.TICKS ≠ 0 ∧ live.atbRuns = true) := by decide +kernel

/-- Hypotheses of deadlines, waits and retries. -/
theorem test_hyps_WaitsAndDeadlinesEndAttempts :
    let due := queued live 0 (IH.DEADLINE.put 0 9)
    let hdr := fun (r : Nat) => IH.RETRIES.put 0 r
    let att : Att := ⟨4, 0, 3, 63, 5, 0, 0, 0, 9, 0, false, false⟩
    let s := fun (cl r : Nat) => { queued live (NC.CLASS.put 0 cl) (hdr r) with
      lnk := { live.lnk with atts := [att] }, txc := { live.txc with ents := [(0, ({ st := 9, item := some 8, node := some 3 } : Ent))] } }
    let tried := { s 0 0 with que := { (s 0 0).que with tries := [(8, 1)] } }
    let asked := { s 0 0 with lnk := { (s 0 0).lnk with cancels := [⟨8, none, none⟩] } }
    let busy := { s 0 0 with lanes := [(0, ({ sfdTs := 8 } : Lane))] }
    let held := { due with txc := { due.txc with ents := [(0, ({ st := 8, item := some 8, node := some 3 } : Ent))] }, lnk := { due.lnk with retryAt := [(0, 5)] } }
    (due.inv = true ∧ heldRetry due 3 = none ∧ firstDeadline due 3 = some 8 ∧ (due.at_ 9).atb = 9 ∧ ∀ i ∈ queueItems due 3, badCell (due.cell i) = false) ∧
    (firstDeadline (queued live 0 0) 3 = none ∧ heldRetry (queued live 0 0) 3 = none ∧ ∀ i ∈ queueItems (queued live 0 0) 3, badCell ((queued live 0 0).cell i) = false) ∧
    (held.inv = true ∧ heldRetry held 3 = some 0 ∧ (held.ent 0).item = some 8 ∧ held.ih 8 IH.DEADLINE = 9 ∧ (held.at_ 9).atb = 9) ∧
    (busy.inv = true ∧ busy.lnk.atts[0]? = some att ∧ matchUnderWay (busy.at_ 9) att = true) ∧
    (∀ c ∈ [s 0 0, s 1 0, tried, asked], c.inv = true ∧ c.lnk.atts[0]? = some att ∧ matchUnderWay (c.at_ 9) att = false ∧
      (c.ent 0).item = some 8 ∧ (c.ent 0).gone = false) ∧
    cancelWaits asked 8 = true ∧ cancelWaits tried 8 = false ∧ triesOver tried 8 = true ∧ cancelWaits (s 1 0) 8 = false ∧ triesOver (s 1 0) 8 = false ∧
    (s 1 0).nc 3 NC.CLASS = 1 ∧ triesOver (s 0 0) 8 = false ∧
    (((s 0 0).node 3).life = 1 ∧ (s 0 0).nc 3 NC.CLASS = 0 ∧ (s 0 0).ih 8 IH.DEADLINE = 0 ∧ airOk ((s 0 0).at_ 9) 0 0 = true) ∧
    (let c := { s 0 0 with lnk := { live.lnk with atts := [{ att with closed := true }] } }
     c.inv = true ∧ c.lnk.atts[0]? = some { att with closed := true }) := by decide +kernel

/-- Hypotheses of TSCH slots and sequencers. -/
theorem test_hyps_TschSlotsAndSequencersRun :
    let cfg := [(LNK_TSCH_CTRL.EN, 1), (LNK_SF_CFG.EN 7, 1), (LNK_SF_CFG.LEN 7, 1), (LNK_SF_CELLS.BASE 7, 8191), (LNK_SF_CELLS.COUNT 7, 1), (LNK_CELL1.EN 8191, 1),
      (LNK_CELL1.NODE 8191, 3), (LNK_TSCH_SLOT_LEN.TICKS, 32000)]
    let rx := regs live (cfg ++ [(LNK_CELL1.RX 8191, 1)])
    let tx := queued (regs live (cfg ++ [(LNK_CELL1.TX 8191, 1)])) 0 0
    let seq : SeqInst := ⟨1, 0, 0, 0, 0, 0, 0, 0, 0, 0, 0, none, none, none⟩
    let run := fun (x : BitVec 64) => { ((live.wr LNK_CTRL.EN 1).setReg (LNK_SEQ_LO.reg 1 0) (BitVec.ofNat 32 x.toNat)).setReg (LNK_SEQ_HI.reg 1 0)
      (BitVec.ofNat 32 (x.toNat / 2 ^ 32)) with lnk := { live.lnk with seqs := [seq] } }
    live.on LNK_TSCH_CTRL.EN = false ∧
    (rx.inv = true ∧ rx.clk.tb = true ∧ slotCells rx 0 = [(7, 8191)] ∧ rx.on (LNK_CELL1.RX 8191) = true ∧ rx.on (LNK_CELL1.TX 8191) = false) ∧
    (tx.inv = true ∧ slotCells tx 5 = [(7, 8191)] ∧ tx.on (LNK_CELL1.TX 8191) = true ∧ headItem tx 3 = some 8 ∧ heldRetry tx 3 = none ∧ mayTake tx 3 = true ∧
      (tx.node 3).badPar = 0 ∧ badCell (tx.cell 8) = false ∧ tx.ih 8 IH.DEADLINE = 0 ∧ tx.on PRT_AIR_CTRL.EN = false) ∧
    (∀ p ∈ [(SS.END, 1), (SS.ACTION, 10), (SS.ARG, 0)], let x : BitVec 64 := p.1.put 0 p.2
      (run x).inv = true ∧ (run x).lnk.seqs[0]? = some seq ∧ (run x).on LNK_CTRL.EN = true ∧
      seqState (run x) 1 0 = x ∧ seqCond ((run x).at_ 0) seq (SS.COND.of x) = true) ∧
    (let x : BitVec 64 := SS.ACTION.put 0 2
     seqAgrees ((run x).at_ 0) seq x = false ∧ seqAgrees ((run 0).at_ 0) seq 0 = true) ∧ live.lnk.seqs[0]? = none ∧
    (∀ k ∈ [0, 1], let x : BitVec 64 := SS.TIMEOUT_EN.put (SS.COND.put 0 1) k
      (run x).inv = true ∧ seqCond ((run x).at_ 0) seq (SS.COND.of x) = false) := by
  decide +kernel

/-- Hypotheses of staging, preparation and priming, clause by clause. -/
theorem test_hyps_StagingTakesPreparesAndPrimesFrames :
    let sched := fun (s : State) (air : Nat) => { s with lnk := { s.lnk with scheds := [⟨{ air := air, part := 63 }⟩] } }
    let on := live.wr TXC_CTRL.ENABLE 1
    let s := fun (l : List (RegFld × Nat)) (x : Ent) => staged (queued (regs live l) 0 (IH.FIRST_DATA.put 0 noCell))
      { x with st := 1, node := some 3, item := some 8, air := 5000 }
    let plain := s [(PRT_P_CELL_CAP.CAP 63, 1000)] { rate := 1 }
    let sec := fun (fc st : Nat) => { s [(PRT_P_CELL_CAP.CAP 63, 1000), (SEC_CTRL.EN, 1), (PRT_KMAP.OWNER 0, 63), (PRT_KMAP.EN 0, 1)]
        { rate := 1, secure := true, level := 5, slot := some 7 } with
      sec := { live.sec with rngUp := true, slots := [(7, ({ state := st, fc := fc } : KSlot))] } }
    let ok := fun (u : State) => u.inv = true ∧ prepTurn 1023 (u.at_ (5000 - u.rd TXC_HORIZON.TICKS)) = true ∧ badCell (u.cell 8) = false ∧ chainOk u 8 = true ∧
      chainCells u 40 (u.ih 8 IH.FIRST_DATA) = []
    amplitude 8191 0 = 8191 ∧
    ((sched on 2049).inv = true ∧ (sched on 2049).on TXC_CTRL.ENABLE = true ∧ (sched on 2049).atb + 2048 < 2049 ∧ ((sched on 2049).ent 1023).st = 0) ∧
    ((sched live 0).inv = true ∧ (sched live 0).on TXC_CTRL.ENABLE = false) ∧ 2048 ≤ (sched on 2048).atb + 2048 ∧
    (let crowd := { sched on 2049 with txc := { live.txc with ents := (List.range 1024).map (fun k => (k, ({ st := 1 } : Ent))) } }
     crowd.inv = true ∧ crowd.on TXC_CTRL.ENABLE = true ∧ crowd.txc.ents.all (fun p => p.2.st != 0) = true) ∧ live.lnk.scheds = [] ∧
    (let badh := { plain with que := { plain.que with cells := [(8, ({ badPar := 1 } : FCell))] } }
     badh.inv = true ∧ prepTurn 1023 (badh.at_ (5000 - badh.rd TXC_HORIZON.TICKS)) = true ∧ badCell (badh.cell 8) = true) ∧
    (let badd := s [(PRT_P_CELL_CAP.CAP 63, 1000)] { rate := 1 }
     let v := { badd with que := { badd.que with cells := [(8, ({ data := IH.LENGTH.put (IH.NEXT_ITEM.put (IH.FIRST_DATA.put 0 9) noCell) 64, last := true } : FCell)), (9, ({ last := true, badPar := 1 } : FCell))] } }
     v.inv = true ∧ prepTurn 1023 (v.at_ (5000 - v.rd TXC_HORIZON.TICKS)) = true ∧ badCell (v.cell 8) = false ∧ chainOk v 8 = true ∧
       chainCells v 40 (v.ih 8 IH.FIRST_DATA) = [9] ∧ badCell (v.cell 9) = true) ∧
    cellsOk (s [] { rate := 1 }) 63 (streamCells plain 1 (fcsLen plain 1) 1) (plain.rd QUE_RX_RESERVE.CELLS) = false ∧
    frameJobsRun plain = false ∧ prepTurn 1023 (s [] { rate := 1 }) = true ∧
    (ok plain ∧ cellsOk plain 63 (streamCells plain 1 (fcsLen plain 1) 1) (plain.rd QUE_RX_RESERVE.CELLS) = true) ∧
    (∀ fc ∈ [0, 0xFFFFFFFE], ok (sec fc 1) ∧ (sec fc 1).kslot 7 = { state := 1, fc := fc } ∧ frameJobsRun (sec fc 1) = true ∧ txUsed (sec fc 1) < 32 ∧
      (match drawFrom (sec fc 1) 63 7 0 false with | .ok k => k == 7 | _ => false) = true) ∧
    (ok (sec 0 0) ∧ (match drawFrom (sec 0 0) 63 7 0 false with | .noKey _ => true | _ => false) = true) ∧
    (ok (sec 0 2) ∧ (match drawFrom (sec 0 2) 63 7 0 false with | .exhaust => true | _ => false) = true) ∧
    (let old := { s [(PRT_P_CELL_CAP.CAP 0, 1000)] { rate := 1 } with txc := { plain.txc with ents := [(5, ({ st := 1, rate := 1 } : Ent)), (1023, ({ st := 1, rate := 1, air := 5000, part := 63 } : Ent))] } }
     (old.ent 1023).st = 1 ∧ prepTurn 1023 (old.at_ (5000 - old.rd TXC_HORIZON.TICKS)) = false) ∧
    (staged live { st := 3 }).txc.tdie = none ∧
    (∀ k ∈ [2, 3, 4], (staged live { st := k, job := true, corr := CE.VALID.put 0 1 }).inv = true) ∧
    CE.VALID.of (CE.VALID.put 0 1 : BitVec 1024) = 1 ∧ CE.VALID.of (0 : BitVec 1024) ≠ 1 := by decide +kernel

/-- Hypotheses of commit, the air and the return to idle. -/
theorem test_hyps_CommitDecidesAndTheFrameGoesToTheAir :
    let s := fun (l : List (RegFld × Nat)) (st : Nat) => staged (regs live l) { st := st, amp := 9, air := 5000, node := some 3, item := some 8 }
    let up := [(TXC_CH_CTRL.EN 7, 1), (TXC_CH_STS.STATE 7, 1), (TXC_CH_BUDGET.AMP_MAX 7, 9)]
    let busy := { s up 5 with txc := { (s up 5).txc with carriers := (List.range 16).map (fun m => ⟨7, m, m, 0⟩) } }
    let rich := { s (up ++ [(PRT_P_PWR.CAP 63, 100)]) 5 with pwr := { live.pwr with budget := [(0, 100), (1, 100)] } }
    let idle := { regs live up with txc := { live.txc with idleAt := [(7, 9)] } }
    (∀ k ∈ [1, 2, 3, 4, 5], (s up k).inv = true ∧ commitTurn 1023 (s up k) = true ∧ ((s up k).ent 1023).st = k) ∧
    chainUsable ((s [] 5).at_ 2952) 7 = false ∧ chainUsable ((s up 5).at_ 2952) 7 = true ∧
    (busy.inv = true ∧ commitTurn 1023 busy = true ∧ chainUsable (busy.at_ 2952) 7 = true ∧
      ∀ m, m < 16 → (busy.at_ 2952).txc.carriers.any (fun c => c.chain == 7 && c.idx == m) = true) ∧
    (s (up ++ [(TXC_CH_BUDGET.AMP_MAX 7, 8)]) 5).rd (TXC_CH_BUDGET.AMP_MAX 7) < 9 ∧ 9 ≤ (s up 5).rd (TXC_CH_BUDGET.AMP_MAX 7) ∧
    (s (up ++ [(PWR_TEMP_STS.TRIP, 1)]) 5).on PWR_TEMP_STS.TRIP = true ∧
    (rich.inv = true ∧ commitTurn 1023 rich = true ∧ chainUsable (rich.at_ 2952) 7 = true ∧ (rich.at_ 2952).on PWR_TEMP_STS.TRIP = false ∧
      (let u := rich.at_ 2952
       let ask := ((commitAsks u (u.ent 1023) 0).map (·.2)).sum
       u.leaveShare 63 ask = true ∧ u.leaveUsed + ask ≤ u.budgetNow)) ∧
    ((s up 6).inv = true ∧ (s up 7).inv = true ∧ (s up 7).pwr.req = none ∧ ((s up 7).ent 1023).gone = false ∧ ((s up 7).ent 1023).fault = none) ∧
    (commitTurn 1023 { s up 5 with txc := { (s up 5).txc with ents := [(5, { air := 5000, st := 5 }), (1023, { air := 5000, st := 5, chain := 7 })] } } = false) ∧
    (idle.inv = true ∧ sfind idle.txc.idleAt 7 = some 9 ∧ idle.txc.carriers = [] ∧ sfind live.txc.idleAt 7 = none) := by decide +kernel

/-- Hypotheses of the coexistence wires. -/
theorem test_hyps_CoexistenceRequestsAndGrants :
    let s := fun (st : Nat) => staged (regs live [(TXC_COEX_CFG.MODE 3, 2), (TXC_COEX_CFG.CHAINS 3, 128), (TXC_COEX_CFG.BANDS 3, 1)]) { st := st, rate := 1, air := 5000 }
    let rel := { live with txc := { live.txc with coex := [⟨3, 1023, some 9⟩] } }
    (∀ k ∈ [1, 2, 3, 7], (s k).inv = true ∧ covers (s k) 3 ((s k).ent 1023) = true ∧ (s k).txc.coex = [] ∧ ((s k).ent 1023).dead = false ∧
      (s k).rd (TXC_COEX_CFG.MODE 3) = 2) ∧
    (rel.inv = true ∧ rel.txc.coex.any (fun r => r.pair == 3) = true ∧ rel.txc.coex.all (fun r => r.drop != none) = true ∧ rel.atbRuns = true) ∧
    (covers live 3 (live.ent 0) = false ∧ live.txc.coex = []) := by
  decide +kernel

/-- Hypotheses of faulted ramp-down and the fault latch. -/
theorem test_hyps_FaultsLatchTheirChain :
    let pulse := fun (e : Nat) => { regs live [(TXC_CH_CTRL.FEVT_EN 7, e)] with txc := { live.txc with faultPulse := [7] } }
    let latched := fun (c st : Nat) => staged (regs live [(TXC_CH_STS.STATE 7, 4), (TXC_CH_FAULT.CAUSE 7, c)]) { st := st, node := some 3, item := some 8 }
    let ramping := staged live { st := 7, fault := some 9, node := some 3, item := some 8, fc := some 5 }
    let ok := fun (s : State) => s.inv = true ∧ s.txc.ents.all (fun p => decide (p.2.chain < 8 ∧ p.2.part < 64)) = true
    (ok (latched 0 5) ∧ open_ (latched 0 5) (TXC_CH_CTRL.reg 7) = true ∧ (latched 0 5).rd (TXC_CH_FAULT.CAUSE 7) = 0 ∧ commitTurn 1023 (latched 0 5) = true) ∧
    (ok (latched 1 5) ∧ open_ (latched 1 5) (TXC_CH_CTRL.reg 7) = true ∧ (latched 1 5).rd (TXC_CH_FAULT.CAUSE 7) ≠ 0) ∧
    (∀ e ∈ [0, 1], ok (pulse e) ∧ (pulse e).txc.faultPulse = [7] ∧ (pulse e).rd (TXC_CH_CTRL.FEVT_EN 7) = e) ∧ live.txc.faultPulse = [] ∧
    (∀ k ∈ [6, 7], ok (latched 0 k) ∧ ((latched 0 k).ent 1023).fault = none) ∧
    (ok ramping ∧ ramping.pwr.req = none ∧ (ramping.ent 1023).fault = some 9 ∧ (ramping.ent 1023).gone = false) := by
  decide +kernel

/-- Hypotheses of the correction commands. -/
theorem test_hyps_CorrectionEntriesAreWrittenWhole : open_ live TXC_CORR_CMD.reg = true ∧ live.atbRuns = true := by decide +kernel

/-- Hypotheses of the node operations, clause by clause. -/
theorem test_hyps_NodeOperationsGiveTheirStatus :
    let x : BitVec 512 := NC.EXT.put 0 0xABCD
    let data := fun (s : State) (x : BitVec 512) => regs s ([(LNK_PAN_CFG.EN 0, 1), (TXC_CH_CTRL.EN 0, 1)] ++ (List.range 16).map (fun w => (QUE_NDATA.WORD w, bf x (32 * w) 32)))
    let node := fun (s : State) (n : Node) => { s with que := { s.que with nodes := [(255, n)] } }
    let ok := fun (s : State) => open_ s QUE_NCMD.reg = true ∧ s.on QUE_NCMD.BUSY = false ∧ (s.node 255).badPar = 0 ∧ ncmdWaits s 255 = false
    let free := data live x
    let held := { free with que := { free.que with rxs := [{ rx0 with node := some 255 }] } }
    let clash := { free with que := { free.que with index := [((keyPlaces 0 (.ext 0xABCD)).headD 0, ⟨0, .ext 0xABCD, 7⟩)] } }
    let used := node free { ctx := x, life := 1 }
    NW.HANDLE.of (255 : Word) = 255 ∧ NW.IMPORT.of (255 : Word) = 0 ∧ ndata free = x ∧
    (open_ held QUE_NCMD.reg = true ∧ held.on QUE_NCMD.BUSY = false ∧ ncmdWaits held 255 = true) ∧
    (ok free ∧ (free.node 255).life = 0 ∧ badField free 255 false x = false ∧ (idxInsertAll 255 0 (ctxKeys x) free).2 = 0) ∧
    (ok used ∧ (used.node 255).life = 1 ∧ (used.node 255).poison = false ∧ badField used 255 false x = false ∧ ctxPanKeys x = [(0, .ext 0xABCD)] ∧
      (idxInsertAll 255 0 [] (idxDrop [] used)).2 = 0) ∧
    (let keyed := { used with que := { used.que with index := [((keyPlaces 0 (.ext 0xABCD)).headD 0, ⟨0, .ext 0xABCD, 255⟩)] } }
     ok keyed ∧ idxLookup keyed 0 (.ext 0xABCD) = some 255 ∧ (keyed.que.index.map (·.1)).length = 1) ∧
    (let foul := node free { ctx := x, life := 1, poison := true }
     ok foul ∧ (foul.node 255).poison = true ∧ badField foul 255 false x = false) ∧
    (ok (node live { ctx := x, life := 1 }) ∧ badField (node live { ctx := x, life := 1 }) 255 false (ndata live) = true) ∧
    (ok live ∧ badField live 255 false (ndata live) = true) ∧
    (ok clash ∧ badField clash 255 false x = false ∧ (idxInsertAll 255 0 (ctxKeys x) clash).2 = 3) := by decide +kernel

/-- Hypotheses of pruning, the sweep, the NTW window and the reserve. -/
theorem test_hyps_PruneSweepWindowAndReserve :
    let node := fun (l : Nat) (p : List (Nat × PruneFor)) => { live with que := { live.que with nodes := [(65535, { ctx := NC.HEAD.put 0 noCell, life := l })], prunes := p }, hst := { live.hst with ctxs := [(5, { ctx0 1 0 with stage := 1 })] } }
    let reg := node 2 [(65535, .reg)]
    let host := node 2 [(65535, .host 5)]
    let air := { reg with txc := { reg.txc with ents := [(0, ({ node := some 65535, st := 7 } : Ent))] } }
    (reg.inv = true ∧ (reg.node 65535).life = 2 ∧ pruneClear reg 65535 = true ∧ reg.nc 65535 NC.HEAD = 0xFFFFF ∧
      reg.que.prunes.filter (fun p => p.1 == 65535) = [(65535, .reg)]) ∧
    (host.inv = true ∧ pruneClear host 65535 = true ∧ host.que.prunes.filter (fun p => p.1 == 65535) = [(65535, .host 5)] ∧
      (host.ctx 5).isSome = true ∧ (host.port 1).closing = false) ∧
    (air.inv = true ∧ pruneClear air 65535 = false) ∧ ((node 3 []).inv = true ∧ ((node 3 []).node 65535).life = 3) ∧
    (live.pwr.mode = 0 ∧ live.hidden .pf (0x1000000 + 64 * 65535) = false ∧ (live.node 65535).badPar = 0 ∧ live.hidden .pf (0x1000000 + 0x3FFFFC) = false) ∧
    (open_ (live.wr QUE_CTRL.LOCK 1) QUE_RX_RESERVE.reg = true ∧ (live.wr QUE_CTRL.LOCK 1).on QUE_CTRL.LOCK = true) ∧
    (open_ live QUE_RX_RESERVE.reg = true ∧ live.on QUE_CTRL.LOCK = false ∧ cellGuarSum live + 786432 % 2 ^ 20 ≤ 786432 ∧ 786432 < cellGuarSum live + 786433 % 2 ^ 20) := by
  decide +kernel

/-- Hypotheses of the partition map, the shares and the enable. -/
theorem test_hyps_MapSharesAndEnableKeepTheirRules :
    let portOn := live.wr (HST_PORT_STS.EN 1023) 1
    let p := fun (st : Nat) => regs live [(PRT_P_CFG.STATE 63, st), (PRT_P_CFG.EN 63, 1)]
    let holds := (p 1).wr (QUE_PUSE.USE 63) 1
    (open_ live 0x701000 = true ∧ mapIdle live 0x1000 = some true) ∧
    (open_ portOn 0x702FFC = true ∧ mapIdle portOn 0x2FFC = some false ∧ (portOn.regWrite 0x702FFC 0x45#32).ownerAt 0x702FFC ≠ portOn.ownerAt 0x702FFC ∧
      (portOn.regWrite 0x702FFC 0#32).ownerAt 0x702FFC = portOn.ownerAt 0x702FFC) ∧
    (sumsOk (live.regWrite 0x7008E4 512#32) 0x8E4 = some true ∧ sumsOk (live.regWrite 0x7008E4 513#32) 0x8E4 = some false ∧ open_ live 0x7008E4 = true) ∧
    (((List.range 64).map (fun p => live.rd (PRT_P_LANE.GUAR p))).sum ≤ 512 ∧
      ((List.range 64).map (fun p => live.rd (PRT_P_CELL_GUAR.GUAR p))).sum + live.rd QUE_RX_RESERVE.CELLS ≤ 786432 ∧
      ((List.range 64).map (fun p => live.rd (PRT_P_AIR_GUAR.GUAR p))).sum ≤ live.rd PRT_AIR_TOTAL.TICKS ∧
      ((List.range 64).map (fun p => live.rd (PRT_P_PWR.GUAR p))).sum ≤ live.budget 1 ∧ shareEntry 0x8E4 = true) ∧
    (∀ st ∈ [0, 1, 2], open_ (p st) (PRT_P_CFG.reg 63) = true ∧ (p st).on PRT_CTRL.LOCK = false ∧ (p st).rd (PRT_P_CFG.STATE 63) = st) ∧
    holdsNothing (p 1) 63 = true ∧ (open_ holds (PRT_P_CFG.reg 63) = true ∧ holdsNothing holds 63 = false ∧ holds.rd (PRT_P_CFG.STATE 63) = 1) ∧
    open_ live (PRT_P_CFG.reg 0) = true ∧ open_ live PRT_FLT_POP.reg = true := by decide +kernel

/-- Hypotheses of partition resets. -/
theorem test_hyps_PartitionResetsRunTheirSteps :
    let r := fun (sc : Nat) => { live with prt := { live.prt with resets := [⟨63, sc, false⟩] } }
    let stuck := { regs (r 2) [(PRT_HMAP.OWNER 0, 63), (PRT_HMAP.EN 0, 1)] with
      que := { live.que with nodes := [(3, { ctx := NC.PART.put 0 63, life := 1 })] }, txc := { live.txc with ents := [(0, ({ node := some 3, st := 7 } : Ent))] } }
    (open_ live (PRT_P_RESET.reg 63) = true ∧ open_ live (PRT_P_RESET.reg 0) = true ∧ live.prt.resets = [] ∧ live.txc.ents = [] ∧ live.lnk.scheds = []) ∧
    (∀ sc ∈ [1, 2], open_ (r sc) (PRT_P_RESET.reg 63) = true ∧ (r sc).prt.resets.find? (fun r => r.part == 63) = some ⟨63, sc, false⟩ ∧ (r sc).flc.load = none ∧
      (nodesOf (r sc) 63).all (pruneClear (r sc)) = true) ∧
    (let busy := { r 1 with flc := { live.flc with load := some ⟨2, 0, 0, true, true, ⟨0, 0, 0, 0, 0, []⟩, []⟩ } }
     busy.inv = true ∧ busy.flc.load.any (fun j => j.mode == 2) = true) ∧
    (stuck.inv = true ∧ stuck.prt.resets.find? (fun r => r.part == 63) = some ⟨63, 2, false⟩ ∧ (nodesOf stuck 63).all (pruneClear stuck) = false) := by
  decide +kernel

/-- Hypotheses of the load's checks, one state per check, each at the end of the slots. -/
theorem test_hyps_LoadsEndWithTheFirstFailingCheck :
    let short := KB.FORMAT.put (KB.KIND.put (KB.WRAP_SLOT.put (0 : BitVec 640) 255) 1) 1
    let wide := KB.FORMAT.put (KB.KIND.put (0 : BitVec 640) 2) 1
    let s := fun (tag op slot : Nat) (long : Bool) (b : BitVec 640) (x : Sec) =>
      { regs live [(PRT_KMAP.OWNER 255, tag), (PRT_KMAP.EN 255, 1), (PRT_LMAP.OWNER 15, tag), (PRT_LMAP.EN 15, 1)] with
        sec := { x with kops := [⟨tag, none, op, slot, long, b⟩], rngUp := true } }
    let up := fun (t : State) => (t.inv && keyJobsRun t && !t.sec.tamper && t.sec.unwrapKey.isNone && decide (txUsed t < 32)) = true
    let loaded : Sec := { longs := [(255, { state := 1, key := [] })] }
    let full : Sec := { slots := [(65535, { state := 1 })], longs := [(255, { state := 1, key := [] })] }
    (s 63 2 65536 false short {}).inv = true ∧ (s 63 2 65536 false short {}).sec.kops.length = 1 ∧
    (let t := s 0 1 65535 false short {}; t.inv = true ∧ t.slotOwner 65535 = 0) ∧
    (let t := s 63 1 65535 false short {}; up t ∧ t.slotOwner 65535 = 63 ∧ t.longOwner 255 = 63 ∧ (t.lslot 255).state ≠ 1) ∧
    (let t := { s 63 1 65535 false short {} with sec := { (s 63 1 65535 false short {}).sec with kops := [⟨1, none, 1, 65535, false, short⟩] } };
      t.inv = true ∧ t.slotOwner 65535 ≠ 1) ∧
    (let t := s 63 1 65535 false short { tamper := true }; t.inv = true ∧ t.sec.tamper = true ∧ keyJobsRun t = true) ∧
    (let t := s 63 1 65535 false short full; up t ∧ (t.kslot 65535).state ≠ 0) ∧
    (let t := s 63 2 65535 false (KB.KEY_ID_MODE.put short 3) full; up t ∧ KB.KEY_ID_MODE.of (KB.KEY_ID_MODE.put short 3) = 3) ∧
    (let t := s 63 2 65535 false (KB.WRAP_SLOT.put short 0) full; up t ∧ KB.WRAP_SLOT.of (KB.WRAP_SLOT.put short 0) = 0) ∧
    (let t := s 63 1 65535 false short loaded; up t ∧ t.longOwner 255 = t.slotOwner 65535 ∧ (t.kslot 65535).state = 0 ∧ (t.lslot 255).state = 1 ∧
      KB.FORMAT.of short = 1 ∧ KB.KIND.of short = 1 ∧ KB.ZERO0.of short = 0 ∧ KB.ZERO1.of short = 0 ∧ KB.KEY_ID_MODE.of short ≠ 3 ∧
      KB.TX_FC.of short ≠ 0xFFFFFFFF ∧ KB.WRAP_SLOT.of short = 255) ∧
    (let t := s 63 1 255 true wide { longs := [(0, { state := 1, key := [] })] }; up t ∧ t.longOwner 255 = 63 ∧ (t.lslot 255).state = 0 ∧
      (t.lslot 0).state = 1 ∧ KB.KIND.of wide = 2 ∧ KB.LONG_ZERO.of wide = 0 ∧ KB.WRAP_SLOT.of wide = 0) ∧
    (let t := s 0 1 0 true wide {}; up t ∧ t.longOwner 0 = 0) ∧
    (let t := s 63 1 65535 false short { loaded with unwrapKey := some [] }; t.inv = true ∧ t.sec.unwrapKey = some [] ∧ t.slotOwner 65535 = 63) := by decide +kernel

/-- Hypotheses of the owner's key operations. -/
theorem test_hyps_KeyCommandsQueueEraseAndReport :
    let s := fun (op slot : Nat) (long : Bool) => { live with sec := { live.sec with kops := [⟨0, none, op, slot, long, 0⟩], rngUp := true } }
    let waits := { live with sec := { live.sec with longs := [(255, { state := 1, key := [] })], kops := [⟨0, none, 1, 65535, false, KB.FORMAT.put (KB.KIND.put (KB.WRAP_SLOT.put (0 : BitVec 640) 255) 1) 1⟩] } }
    (open_ live SEC_KOP_CMD.reg = true ∧ live.on SEC_KOP_CMD.BUSY = false ∧ live.sec.kops = []) ∧
    (open_ (live.wr SEC_KOP_CMD.BUSY 1) SEC_KOP_CMD.reg = true ∧ (live.wr SEC_KOP_CMD.BUSY 1).on SEC_KOP_CMD.BUSY = true) ∧
    (∀ op ∈ [3, 4], (s op 65535 false).inv = true ∧ (s op 255 true).inv = true ∧ (s op 256 true).inv = true) ∧
    (let go := { waits with sec := { waits.sec with rngUp := true, kops := [] } }
     open_ go SEC_KOP_CMD.reg = true ∧ go.sec.unwrapKey = none ∧ keyJobsRun go = true ∧ txUsed go < 32 ∧
       loadEarly go (waits.sec.kops.headD ⟨0, none, 0, 0, false, 0⟩) = 0) ∧
    (s 3 0 true).inv = true ∧
    (waits.inv = true ∧ waits.sec.unwrapKey = none ∧ keyJobsRun waits = false ∧ loadEarly waits (waits.sec.kops.headD ⟨0, none, 0, 0, false, 0⟩) = 0) := by decide +kernel

/-- Hypotheses of seal jobs, marks and the random source. -/
theorem test_hyps_SealJobsMarksAndTheRandomSource :
    let s := fun (src dst adata pdata : Nat) (x : Sec) => { regs live [(SEC_SEAL_CTRL.LONG, 255), (SEC_SEAL_LEN.ADATA, adata), (SEC_SEAL_LEN.PDATA, pdata),
      (SEC_SEAL_SRC.OFFSET, src), (SEC_SEAL_DST.OFFSET, dst)] with sec := { x with rngUp := true } }
    let full : Sec := { sealing := some 1, longs := [(255, { state := 1, key := [] })] }
    let ok := fun (t : State) => t.inv = true ∧ keyJobsRun t = true ∧ t.rd SEC_SEAL_CTRL.LONG = 255
    let range := fun (t : State) (op : Nat) => t.rd SEC_SEAL_SRC.OFFSET + t.rd SEC_SEAL_LEN.ADATA + t.rd SEC_SEAL_LEN.PDATA + (if op = 2 then 16 else 0) ≤ 0x200000 ∧
      t.rd SEC_SEAL_DST.OFFSET + t.rd SEC_SEAL_LEN.PDATA + (if op = 1 then 16 else 0) ≤ 0x200000
    (open_ live SEC_SEAL_CTRL.reg = true ∧ live.on SEC_SEAL_CTRL.BUSY = false ∧ keyJobsRun live = false) ∧
    (open_ (live.wr SEC_SEAL_CTRL.BUSY 1) SEC_SEAL_CTRL.reg = true ∧ (live.wr SEC_SEAL_CTRL.BUSY 1).on SEC_SEAL_CTRL.BUSY = true) ∧
    (let t := s 0x1FFFD8 0x1FFFE8 32 8 full; ok t ∧ range t 1 ∧ (t.lslot 255).state = 1 ∧ t.sec.tamper = false ∧ t.sec.sealing = some 1 ∧ t.sec.sealKey = none ∧ txUsed t < 32 ∧ frameJobWaits t = false) ∧
    (let t := s 0x1FFFD8 0x1FFFE9 32 8 full; ok t ∧ ¬range t 1) ∧
    (let t := s 0x1FFFC8 0x1FFFF8 32 8 { full with sealing := some 2 }; ok t ∧ range t 2 ∧ (t.lslot 255).state = 1 ∧ t.sec.sealing = some 2) ∧
    (let t := s 0x1FFFD8 0x1FFFE8 32 8 { full with sealKey := some [] }; t.inv = true ∧ range t 1 ∧ t.sec.sealKey = some []) ∧
    (let t := { s 0 0 0 0 full with radioHeld := true }; t.inv = true ∧ range t 1 ∧ keyJobsRun t = false ∧ t.sec.sealKey = none) ∧
    live.sec.sealing = none ∧ live.sec.rngUp = false ∧
    (let t := s 0 0 0 0 full; sealRefusal 1 t = 0) ∧
    (let t := s 0 0 0 0 { full with tamper := true }; ok t ∧ range t 1 ∧ t.sec.tamper = true) ∧
    (let t := s 0 0 0 0 { sealing := some 1 }; ok t ∧ range t 1 ∧ (t.lslot 255).state ≠ 1) ∧
    open_ live SEC_MARK_POP.reg = true ∧
    (let t := s 0 0 0 0 {}; t.inv = true ∧ t.sec.rngUp = true ∧ rngPending t = false) ∧
    (let t := regs (s 0 0 0 0 {}) [(SEC_RNG_STS.APT_FAIL, 1), (SEC_ALARM_CFG.RNG_ACT, 0)]; t.inv = true ∧ t.sec.rngUp = true ∧ rngPending t = true ∧ t.rd SEC_ALARM_CFG.RNG_ACT = 0) := by
  decide +kernel

/-- Hypotheses of alarms, with an encrypt job for the last entry of the adapters. -/
theorem test_hyps_AlarmsActAndClear :
    let job := { regs live [(SEC_ALARM_CFG.FAULT_ACT, 0)] with txc := { live.txc with ents := [(1055, ({ st := 2, job := true } : Ent))] } }
    live.inv = true ∧ live.start.glitchOff = false ∧ open_ live SEC_ALARM_STS.reg = true ∧
    (∀ x ∈ [0, 1, 2], (regs live [(SEC_ALARM_CFG.TEMP_ACT, x)]).inv = true ∧ (regs live [(SEC_ALARM_CFG.TEMP_ACT, x)]).rd SEC_ALARM_CFG.TEMP_ACT = x) ∧
    ({ live with start := { live.start with glitchOff := true } } : State).inv = true ∧
    (let r := { rx0 with stage := 1 }
     let q := regs (withRx { live with sec := { live.sec with rxJobs := [⟨9, true⟩], unwrapKey := some [], sealKey := some [] } } 0 r) [(SEC_ALARM_CFG.FAULT_ACT, 0)]
     q.inv = true ∧ q.rx 0 = some r ∧ q.rd SEC_ALARM_CFG.FAULT_ACT = 0 ∧ q.sec.unwrapKey ≠ none ∧ q.sec.sealKey ≠ none) ∧
    (job.inv = true ∧ (job.ent 1055).st = 2 ∧ (job.ent 1055).job = true ∧ (job.ent 1055).dead = false ∧ job.rd SEC_ALARM_CFG.FAULT_ACT = 0) := by
  decide +kernel

/-- Hypotheses of ports and doorbells, for the owner and for a virtual function, at the last port. -/
theorem test_hyps_PortsAndDoorbellsFollowTheirConditions :
    let f : Fn := .vf 63
    let s := fun (l : List (RegFld × Nat)) => regs (hosted 63) l
    let shown := fun (t : State) (f : Fn) => t.inv = true ∧ t.pwr.mode = 0 ∧ fnHere t f = true ∧ t.hidden f (HST_PORT_CFG.reg 1023) = false
    (shown live .pf ∧ fnTag .pf = 0) ∧ (shown (s []) f ∧ fnTag f = 63 ∧ (s []).portOwner 1023 = 63 ∧ (s []).portOwner 1022 ≠ 63) ∧
    (shown (s [(HST_PORT_SIZE.SQ_LOG2 1023, 13)]) f ∧ (s [(HST_PORT_SIZE.SQ_LOG2 1023, 13)]).rd (HST_PORT_SIZE.SQ_LOG2 1023) = 13) ∧
    (let t := (s []).setReg (HST_PORT_CQ_BASE_LO.reg 1023) 16#32; shown t f ∧ t.rd64 (HST_PORT_CQ_BASE_LO.reg 1023) % 32 ≠ 0) ∧
    (let t := s [(PRT_P_CFG.STATE 63, 2)]; shown t f ∧ t.rd (PRT_P_CFG.STATE 63) ≠ 1) ∧
    (let t := { s [] with vregs := [] }; shown t f ∧ t.feature 63 0 = false ∧ t.rd (PRT_P_CFG.STATE 63) = 1) ∧
    (let t := s [(HST_PORT_CFG.VECTOR 1023, 64)]; shown t f ∧ vecCount t 63 = 64 ∧ t.feature 63 0 = true) ∧
    (let t := s [(HST_PORT_CFG.VECTOR 1023, 63)]; shown t f ∧ 63 < vecCount t 63 ∧ t.rd64 (HST_PORT_SQ_BASE_LO.reg 1023) % 64 = 0 ∧
      t.rd (HST_PORT_SIZE.SQ_LOG2 1023) = 12 ∧ t.rd (HST_PORT_SIZE.CQ_LOG2 1023) = 12 ∧ t.on (HST_PORT_STS.EN 1023) = false) := by decide +kernel

/-- Hypotheses of a disable and of doorbells. -/
theorem test_hyps_PortsAndDoorbellsFollowTheirConditions_2 :
    let f : Fn := .vf 63
    let shown := fun (t : State) (f : Fn) => t.inv = true ∧ t.pwr.mode = 0 ∧ fnHere t f = true ∧ t.hidden f (HST_PORT_CFG.reg 1023) = false
    let put := fun (t : State) (x : Port) => t.setPort 1023 x
    let on := regs (hosted 63) [(HST_PORT_STS.EN 1023, 1)]
    (shown on f ∧ on.on (HST_PORT_STS.EN 1023) = true ∧ (on.port 1023).closing = false ∧ on.hidden f (HST_PORT_SQ_TAIL.reg 1023) = false ∧
      on.hidden f (HST_PORT_CQ_HEAD.reg 1023) = false ∧ on.portOwner 1023 = 63 ∧ (4095 : Nat) < 2 ^ on.rd (HST_PORT_SIZE.SQ_LOG2 1023)) ∧
    (let t := on.wr (HST_PORT_SIZE.SQ_LOG2 1023) 11; t.inv = true ∧ 2 ^ t.rd (HST_PORT_SIZE.SQ_LOG2 1023) ≤ 4095) ∧
    (let t := on.wr (HST_PORT_SIZE.CQ_LOG2 1023) 11; t.inv = true ∧ 2 ^ t.rd (HST_PORT_SIZE.CQ_LOG2 1023) ≤ 4095) ∧
    (let t := put on { closing := true }; t.inv = true ∧ (t.port 1023).closing = true ∧ t.hst.ctxs = []) ∧
    (let t := asked (put on { closing := true }) (cmdP 0 0 0 0 0); t.inv = true ∧ (t.port 1023).closing = true ∧ t.hst.ctxs.any (fun c => c.2.port == 1023) = true) ∧
    on.txc.ents = [] ∧ on.lnk.scheds = [] := by decide +kernel

/-- Hypotheses of negotiation, the functions and messages. -/
theorem test_hyps_FunctionsNegotiateAndSendMessages :
    let s := hosted 63
    let up := fun (t : State) => t.inv = true ∧ t.pwr.mode = 0
    let portOn := s.wr (HST_PORT_STS.EN 1023) 1
    let asks := fun (v : Word) => { s with vregs := [(63 * 2 ^ 20 + 0x20, v)], regs := (regs s [(HST_VF_FEAT_MASK.MASK 0, 0xFFFFFFFF)]).regs }
    let mod := { regs { portOn with vregs := [(63 * 2 ^ 20 + 0x40, 0x1FF), (63 * 2 ^ 20 + 0xA000C + 16 * 63, 0#32)] } [(HST_PORT_MOD.TIME 1023, 65535), (HST_PORT_CFG.VECTOR 1023, 63)] with
      hst := { portOn.hst with ports := [(1023, { firstAt := some 1, since := 1 })] } }
    (up s ∧ fnHere s (.vf 63) = true ∧ s.hidden (.vf 63) TOP_FEAT_CTRL.reg = false ∧ anyPortOn s 63 = false ∧ (reqWord s 63 0).toNat % 2 = 0) ∧
    (up portOn ∧ anyPortOn portOn 63 = true) ∧
    (up (asks 1#32) ∧ (∀ w < 4, reqWord (asks 1#32) 63 w &&& ~~~(offerWord (asks 1#32) 63 w) = 0) ∧ (reqWord (asks 1#32) 63 0).toNat % 2 = 1) ∧
    (up (asks 0x101#32) ∧ reqWord (asks 0x101#32) 63 0 &&& ~~~(offerWord (asks 0x101#32) 63 0) ≠ 0) ∧
    (up live ∧ live.on TOP_START_STS.SEEDLING = false ∧ live.hst.funcs = []) ∧
    (let t := regs live ((HST_PF_VEC.COUNT, 64) :: (List.range 63).map (fun k => (HST_VF_VEC.COUNT (k + 1), 64)));
      up t ∧ t.rd HST_PF_VEC.COUNT + ((List.range 63).map (fun k => t.rd (HST_VF_VEC.COUNT (k + 1)))).sum ≤ 4096) ∧
    (up (live.wr TOP_START_STS.SEEDLING 1) ∧ (live.wr TOP_START_STS.SEEDLING 1).on TOP_START_STS.SEEDLING = true) ∧
    s.hst.funcs.any (fun x => x.1 != 0 && x.2.on) = true ∧ ((s.func 63).on = true ∧ (s.func 62).on = false) ∧
    (let t := { s with vregs := [(63 * 2 ^ 20 + 0x40, 0x1FF), (63 * 2 ^ 20 + 0xA000C + 16 * 2047, 0#32), (63 * 2 ^ 20 + 0xA80FC, 0x80000000#32)] };
      up t ∧ (t.func 63).msixOff = false ∧ bitOn (pbaWord t 63 2047) 31 = true ∧ vecMasked t 63 2047 = false) ∧
    (let t := { s with vregs := [(63 * 2 ^ 20 + 0x40, 0x1FF), (63 * 2 ^ 20 + 0xA80FC, 0x80000000#32)] };
      up t ∧ bitOn (pbaWord t 63 2047) 31 = true ∧ vecMasked t 63 2047 = true) ∧
    (up mod ∧ (mod.port 1023).firstAt = some 1 ∧ mod.on (HST_PORT_STS.EN 1023) = true ∧ mod.rd (HST_PORT_MOD.TIME 1023) ≠ 0 ∧
      mod.feature (mod.portOwner 1023) 7 = true ∧ (mod.func (mod.portOwner 1023)).msixOff = false ∧ (mod.func (mod.portOwner 1023)).bme = true ∧
      vecMasked mod (mod.portOwner 1023) (mod.rd (HST_PORT_CFG.VECTOR 1023)) = false) := by decide +kernel

/-- Hypotheses of fetch, the simple commands and completions, at the last port and context. -/
theorem test_hyps_CommandsAreFetchedAnsweredAndWritten :
    let on := regs (hosted 63) [(HST_PORT_STS.EN 1023, 1), (HST_PORT_STS.SQ_HEAD 1023, 4094)]
    let put := fun (t : State) (x : Port) => t.setPort 1023 x
    let last := fun (t : State) => { t with hst := { t.hst with lastPort := 1022 } }
    let one := last (put on { sqTail := 4095 })
    let known : Tag := ⟨0, 0x20, 7, 255⟩
    let s := fun (c : Ctx) (x : Port) => asked (put on x) c
    let two := fun (c o : Ctx) (x : Port) => let t := put on x; { t with hst := { t.hst with ctxs := [(16382, o), (16383, c)] } }
    let ready := fun (x : Port) => let t := asked (put (regs on [(PRT_PORT.OWNER 0, 63), (PRT_PORT.EN 0, 1), (HST_PORT_STS.EN 0, 1), (HST_PORT_CFG.NOTICE_EN 0, 1)]) x) (cmdP 0 0 0 0 0); { t with hst := { t.hst with ready := [⟨1023, 16383, 0, 0⟩], rseq := 1 } }
    (live.inv = true ∧ fetchable live 1023 = false) ∧
    (one.inv = true ∧ nextPort one = some 1023 ∧ one.hst.ctxs.length < 16384 ∧ one.portOwner 1023 < 64 ∧ min (visitLen one 1023) (64 / 64) = 1 ∧
      tagHolder one 1023 0 = none) ∧
    (let t := last (put on { sqTail := 4095, tags := [known] }); t.inv = true ∧ nextPort t = some 1023 ∧
      (t.port 1023).tags.find? (fun k => k.tag == SQ.TAG.of (0 : BitVec 512)) = some known ∧ known.status < 256) ∧
    standing (s (cmdP 0 0 0 0 0) {}) 0 (cmdP 0 0 0 0 0) = true ∧
    (let c := cmdP 0x43 0 0 0 0; let t := s c {}; t.inv = true ∧ t.ctx 16383 = some c ∧ opKnown t c = none ∧ (t.port c.port).closing = false) ∧
    (let c := cmdP 0 0 1 0 0; let t := s c {}; t.inv = true ∧ (opKnown t c).any (fun r => !entryOk r c.sq) = true ∧ SQ.OPCODE.of c.sq = 0) ∧
    standing (s (cmdP 0x10 128 0 0 0) {}) 0x10 (cmdP 0x10 128 0 0 0) = true ∧
    standing (s (cmdP 0x11 0 0 0 0) {}) 0x11 (cmdP 0x11 0 0 0 0) = true ∧
    (let c := cmdP 0x11 0 0 0 0; let o := { cmdP 0x10 128 0 0 0 with stage := 1 }; let t := two c o { posted := [16382] };
      standing t 0x11 c = true ∧ (t.port 1023).posted = [16382] ∧ t.ctx 16382 = some o ∧ t.hst.ctxs.all (fun p => decide (p.2.dupOf ≠ some 16382)) = true) ∧
    (let c := cmdP 2 0 65535 0 0; let t := s c {}; standing t 2 c = true ∧ SQ.P0_TARGET.of c.sq = 65535 ∧ tagHolder t 1023 65535 = none ∧
      (∀ k ∈ (t.port 1023).tags, k.tag ≠ 65535)) ∧
    (let c := cmdP 2 0 65535 0 0; let o := ctx0 1023 (SQ.OPCODE.put (SQ.TAG.put 0 65535) 1); let t := two c o {};
      standing t 2 c = true ∧ tagHolder t 1023 65535 = some (16382, o) ∧ o.header = none ∧ SQ.OPCODE.of o.sq = 1) ∧
    (let t := ready {}; t.inv = true ∧ (t.hst.ready.find? (fun r => r.port == 1023)).isSome = true ∧ t.on (HST_PORT_STS.EN 1023) = true ∧
      (t.port 1023).closing = false ∧ dmaOk t 1023 = true ∧ (t.port 1023).out < 2 ^ t.rd (HST_PORT_SIZE.CQ_LOG2 1023) ∧
      notePort t (t.portOwner 1023) = some 0 ∧ t.portOwner 1023 < 64) := by decide +kernel

/-- Hypotheses of notices, of a ring that is full, of cancels of commands that run or have ended, and of a command held back. -/
theorem test_hyps_CommandsAreFetchedAnsweredAndWritten_2 :
    let on := regs (hosted 63) [(HST_PORT_STS.EN 1023, 1), (HST_PORT_STS.SQ_HEAD 1023, 4094)]
    let put := fun (t : State) (x : Port) => t.setPort 1023 x
    let s := fun (c : Ctx) (x : Port) => asked (put on x) c
    let two := fun (c o : Ctx) (x : Port) => let t := put on x; { t with hst := { t.hst with ctxs := [(16382, o), (16383, c)] } }
    let ready := fun (x : Port) => let t := asked (put (regs on [(PRT_PORT.OWNER 0, 63), (PRT_PORT.EN 0, 1), (HST_PORT_STS.EN 0, 1), (HST_PORT_CFG.NOTICE_EN 0, 1)]) x) (cmdP 0 0 0 0 0); { t with hst := { t.hst with ready := [⟨1023, 16383, 0, 0⟩], rseq := 1 } }
    (let t := regs (ready {}) [(HST_PORT_CFG.NOTICE_EN 1023, 1), (HST_PORT_CFG.NOTICE_EN 0, 0)]
     let u := { t with hst := { t.hst with notes := [(63, [⟨1, 65535, 0xFFFFFFFF, 0, 0⟩])], ready := [⟨1023, 16383, 1, 0⟩] } }
     u.inv = true ∧ notePort u 63 = some 1023 ∧ (notesOf u 63).length = 1 ∧ u.hst.ready.find? (fun r => r.port == 1023) = some ⟨1023, 16383, 1, 0⟩ ∧
       u.on (HST_PORT_STS.EN 1023) = true ∧ dmaOk u 1023 = true ∧ (u.port 1023).closing = false) ∧
    (let t := put on { out := 4096 }; t.inv = true ∧ 2 ^ t.rd (HST_PORT_SIZE.CQ_LOG2 1023) ≤ (t.port 1023).out) ∧
    (let c := cmdP 2 0 65535 0 0; let o := { ctx0 1023 (SQ.OPCODE.put (SQ.TAG.put 0 65535) 0x23) with stage := 1 }; let t := two c o {};
      standing t 2 c = true ∧ tagHolder t 1023 65535 = some (16382, o) ∧ o.header = none ∧ SQ.OPCODE.of o.sq = 0x23) ∧
    (let c := cmdP 2 0 65535 0 0; let o := { ctx0 1023 (SQ.OPCODE.put (SQ.TAG.put 0 65535) 0x23) with stage := 2 }; let t := two c o {};
      standing t 2 c = true ∧ tagHolder t 1023 65535 = some (16382, o)) ∧
    (let t := { s (cmdP 0 0 0 0 0) {} with radioHeld := true }; t.inv = true ∧ resetWaits t (cmdP 0 0 0 0 0) = true ∧ t.ctx 16383 = some (cmdP 0 0 0 0 0)) := by decide +kernel

/-- Hypotheses of commands on nodes, keys, frames and engines: the last node, key slot and engine, for partition 63. -/
theorem test_hyps_CommandsOnNodesKeysFramesAndEngines :
    let s := fun (c : Ctx) (n : Node) => let t := asked (hosted 63) c; { t with que := { t.que with nodes := [(65535, n)] } }
    let n0 : Node := { ctx := NC.HEAD.put 0 noCell, life := 1 }
    let base := fun (t : State) (c : Ctx) => t.inv = true ∧ t.portOwner c.port = 63 ∧ dmaOk t c.port = true
    let tx := fun (dead : Nat) (rate : Nat) => { ctx0 1023 (SQ.OPCODE.put (SQ.NODE.put (SQ.LEN.put (SQ.DEADLINE.put (SQ.P0_RATE.put 0 rate) dead) 64) 65535) 1) with fetched := 5 }
    let room := fun (c : Ctx) => regs (s c n0) [(QUE_CTRL.WR_EN, 1), (PRT_P_CELL_CAP.CAP 63, 2)]
    let txOk := fun (t : State) (c : Ctx) => base t c ∧ standing t 1 c = true ∧ txBehind t c = false ∧ txBad t c = false
    (txOk (s (tx 5 0) n0) (tx 5 0) ∧ SQ.DEADLINE.of (tx 5 0).sq ≤ (tx 5 0).fetched ∧ (s (tx 5 0) n0).handleOwner 65535 = 63) ∧
    (base (s (tx 0 1) n0) (tx 0 1) ∧ standing (s (tx 0 1) n0) 1 (tx 0 1) = true ∧ txBad (s (tx 0 1) n0) (tx 0 1) = true) ∧
    (let t := (s (tx 0 0) n0).wr (PRT_HMAP.OWNER 255) 62; base t (tx 0 0) ∧ standing t 1 (tx 0 0) = true ∧ txBehind t (tx 0 0) = false ∧ t.handleOwner 65535 ≠ 63) ∧
    (let c := tx 6 0; let t := room c; txOk t c ∧ c.fetched < SQ.DEADLINE.of c.sq ∧ SQ.LEN.of c.sq = 64 ∧ (t.node 65535).life = 1 ∧ (t.node 65535).poison = false ∧
      (t.node 65535).badPar = 0 ∧ tooLong t 65535 (txHeader 16383 c.sq) = false ∧ t.nc 65535 NC.QLEN < t.rd QUE_QMAX.MAX ∧ t.on QUE_CTRL.WR_EN = true ∧
      (∀ k ∈ linkPoint t 65535 (SQ.P0_PRIO.of c.sq) true, badCell (t.cell k) = false) ∧ cellsOk t 63 (1 + ceilDiv 64 64) (t.rd QUE_RX_RESERVE.CELLS) = true ∧ t.nc 65535 NC.QLEN < 255 ∧ t.que.cells.length < 700000) := by decide +kernel

/-- Hypotheses of the node, key and engine commands. -/
theorem test_hyps_CommandsOnNodesKeysFramesAndEngines_2 :
    let s := fun (c : Ctx) (n : Node) => let t := asked (hosted 63) c; { t with que := { t.que with nodes := [(65535, n)] } }
    let n0 : Node := { ctx := NC.HEAD.put 0 noCell, life := 1 }
    let base := fun (t : State) (c : Ctx) => t.inv = true ∧ t.portOwner c.port = 63 ∧ dmaOk t c.port = true
    let e := fun (op len p0 p1 p2 : Nat) => let c := cmdP op len p0 p1 p2; let t := s c n0; base t c ∧ standing t op c = true ∧ t.engOwner 63 = 63 ∧
      clearing t 63 = false ∧ SQ.P0_ENGINE.of c.sq = 63
    (∀ x ∈ [(0x20, 64), (0x21, 64), (0x22, 0), (0x23, 64), (0x24, 0), (0x25, 64)], let c := cmdNode x.1 x.2; let t := s c n0;
      base t c ∧ standing t x.1 c = true ∧ t.handleOwner 65535 = 63 ∧ nodeWaits t c = false ∧ (t.node 65535).life = 1) ∧
    ((s (cmdNode 0x22 0) { n0 with life := 2 }).inv = true) ∧
    (∀ x ∈ [(0x20, 64), (0x21, 64), (0x22, 0), (0x23, 64), (0x24, 0), (0x25, 64)], let c := cmdNode x.1 x.2
      let t := { s c n0 with prt := { (s c n0).prt with resets := [⟨63, 1, false⟩] } };
      base t c ∧ standing t x.1 c = true ∧ t.handleOwner 65535 = 63 ∧ nodeWaits t c = true) ∧
    (let c := cmdNode 0x23 64; let t := (s c n0).wr (PRT_HMAP.OWNER 255) 62; base t c ∧ standing t 0x23 c = true ∧ t.handleOwner 65535 ≠ 63) ∧
    (let t := s (cmdNode 0x25 64) n0; t.txc.ents = [] ∧ t.lnk.scheds = [] ∧ pruneClear t 65535 = true ∧ bitOn (SQ.FLAGS.of (cmdNode 0x25 64).sq) 5 = false) ∧
    (∀ op ∈ [0x30, 0x31], let c := cmdP op 80 0x1FFFF 0 0; base (s c n0) c ∧ standing (s c n0) op c = true ∧ (s c n0).sec.kops = []) ∧
    (∀ op ∈ [0x32, 0x33], let c := cmdP op 0 0x1FFFF 0 0; base (s c n0) c ∧ standing (s c n0) op c = true) ∧
    (let c := ctx0 1023 (SQ.OPCODE.put (SQ.FLAGS.put ((SQ.P 0).put 0 63) 1) 0x40); let t := (s c n0).wr (ENG_C_STS.PSTATE 7) 2;
      base t c ∧ standing t 0x40 c = true ∧ SQ.FLAGS.of c.sq = 1 ∧ t.rd (stateF 63) = 0 ∧ t.rd (ENG_C_STS.PSTATE (63 / 8)) = 2) ∧
    (e 0x41 4 63 1 32764 ∧ engFits 1 32764 4 = true) ∧ (e 0x42 4 63 1 32764) := by decide +kernel

/-- Hypotheses of the instruction rows: ADDI g3, g3, -1 on engine 63, and each link command. -/
theorem test_hyps_InstructionRowsRunTheirWords :
    (Instr.addi 63 3 3 0xFFFF).wf = true ∧ insWord (.addi 63 3 3 0xFFFF) = some 0x0463FFFF ∧ 0x0463FFFF / 2 ^ 26 ≠ 0x3D ∧
    fetchWord (withWords live (imemBase 63) [0x0463FFFF]) 63 = BitVec.ofNat 32 0x0463FFFF ∧
    (∀ k ∈ [1, 2, 3, 4, 5],
      let s := withWords (coreOn live 63 { g := [(31, 0x1FFF0#32)], pc := 0x7FFC#32 }) (imemBase 63 + 0x7FFC) [rWord 0x3D 31 31 0 0]
      let t := { s with mem := s.mem ++ [(dmemBase 63 + 0xFFF0, BitVec.ofNat 8 k)] }
      t.inv = true ∧ fetchWord t 63 = BitVec.ofNat 32 (rWord 0x3D 31 31 0 0) ∧ LC.CODE.of (linkCmd t 63 (t.g 63 31).toNat) = k) := by decide +kernel

/-- Hypotheses of register instructions on an engine and a supervisor, with the most negative word over zero. -/
theorem test_hyps_RegisterInstructionsComputeTheirResult :
    ∀ c ∈ [63, 67], let s := coreOn live c { g12 0x80000000 0 with g := [(1, 0x80000000)], sys := [(0x13, 5#32)] }
      s.inv = true ∧ executes s c ∧ inSequence s c ∧ excReady s c := by decide +kernel

/-- Hypotheses of data access, place by place. -/
theorem test_hyps_LoadsStoresAndReservations :
    let s := fun (c : Nat) (a : Word) => coreOn live c { g := [(1, a)], sys := [(0x13, 5#32)] }
    let user := fun (a : Word) => coreOn live 67 { g := [(1, a)], sys := [(0x13, 5#32), (0x14, 0), (0x110, 0xF)] }
    let foreign := fun (a : Word) => regs (s 63 a) [(PRT_ENG.OWNER 56, 5), (PRT_ENG.EN 56, 1)]
    let bad := { s 63 0x1FFFC with badPar := [dmemBase 63 + 0xFFFC] }
    (ready (s 63 0x1FFFC) 63 = true ∧ place (s 63 0x1FFFC) 63 0x1FFFC 4 true false false = .mem (dmemBase 63 + 0xFFFC) false ∧
      place (s 63 0x1FFFC) 63 0x1FFFC 4 true false true = .mem (dmemBase 63 + 0xFFFC) false ∧ parityBad (s 63 0x1FFFC) (dmemBase 63 + 0xFFFC) = false ∧
      dataAddr (s 63 0x1FFFC) 63 1 0 = 0x1FFFC) ∧
    (place (s 63 0x1FFFF) 63 0x1FFFF 1 false true false = .mem (dmemBase 63 + 0xFFFF) false) ∧
    (bad.inv = true ∧ ready bad 63 = true ∧ parityBad bad (dmemBase 63 + 0xFFFC) = true) ∧
    (ready (s 63 0x1FFFE) 63 = true ∧ place (s 63 0x1FFFE) 63 0x1FFFE 4 true false false = .bad 2 ∧ 0x1FFFE % 4 ≠ 0) ∧
    (ready (s 63 0xFFFC) 63 = true ∧ place (s 63 0xFFFC) 63 0xFFFC 4 true false false = .bad 3) ∧
    (ready (foreign 0x100000) 63 = true ∧ place (foreign 0x100000) 63 0x100000 4 true false false = .barked 56) ∧
    (place (s 63 0x170000) 63 0x170000 4 true true true = .mem (segBase 63) true) ∧
    (ready (s 67 0x2FFFFC) 67 = true ∧ place (s 67 0x2FFFFC) 67 0x2FFFFC 4 true true true = .mem 0x32FFFFC true) ∧
    (ready (user 0x2FFFFC) 67 = true ∧ place (user 0x2FFFFC) 67 0x2FFFFC 4 false true false = .bad 0xA) ∧
    (ready (s 67 0x43FFFFFC) 67 = true ∧ place (s 67 0x43FFFFFC) 67 0x43FFFFFC 4 true false false = .dev 0x3FFFFFC ∧
      place (s 67 0x43FFFFFC) 67 0x43FFFFFC 4 false true false = .dev 0x3FFFFFC) := by decide +kernel

/-- Hypotheses of branches, jumps and loops. -/
theorem test_hyps_BranchesJumpsAndLoopsMoveThePc :
    let s := fun (d : Nat) (sys : List (Nat × Word)) => coreOn live 63 { g := [(1, 5)], depth := d, sys := (0x13, 5#32) :: sys, pc := 0x100 }
    let lc := fun (n le : Nat) => [(0x20, BitVec.ofNat 32 n), (0x21, 0x40#32), (0x22, BitVec.ofNat 32 le)]
    let ok := fun (t : State) => t.inv = true ∧ executes t 63 ∧ excReady t 63
    (ok (s 0 []) ∧ (s 0 []).g 63 1 ≠ 0) ∧ (ok (s 1 (lc 2 0x100)) ∧ atLoopEnd (s 1 (lc 2 0x100)) 63 = true ∧ ((s 1 (lc 2 0x100)).sys 63 0x22).toNat = 0x100 ∧
      ((s 1 (lc 2 0x100)).sys 63 0x20).toNat ≠ 1) ∧
    (ok (s 1 (lc 1 0x100)) ∧ ((s 1 (lc 1 0x100)).sys 63 0x20).toNat = 1) ∧
    (ok (s 1 (lc 2 0x104)) ∧ atLoopEnd (s 1 (lc 2 0x104)) 63 = false ∧ 0x100 + 4 * 1 ≤ ((s 1 (lc 2 0x104)).sys 63 0x22).toNat ∧
      ((s 1 (lc 2 0x104)).sys 63 0x22).toNat < 0x100 + 4 * 2) ∧
    (ok (s 2 (lc 2 0x104)) ∧ atLoopEnd (s 2 (lc 2 0x104)) 63 = false) := by decide +kernel

/-- Hypotheses of system instructions, exceptions and halts. -/
theorem test_hyps_SystemInstructionsExceptionsAndInterrupts :
    let s := fun (c : Nat) (sys : List (Nat × Word)) => coreOn live c { sys := sys }
    let at_ := fun (t : State) (c : Nat) => t.inv = true ∧ executes t c ∧ inSequence t c
    (at_ (s 63 []) 63 ∧ sysKind (isSup 63) 0x30 = .rw 7 ∧ sysExc (s 63 []) 63 0x30 = none ∧ sysKind (isSup 63) 0x32 = .w1c 4 ∧ sysExc (s 63 []) 63 0x32 = none ∧
      sysKind (isSup 63) 0x22 = .rw 0xFFFFFFFF ∧ ((s 63 []).core 63).depth = 0 ∧ level1 (s 63 []) 63 = true ∧ wfeReady (s 63 []) 63 = false ∧
      (s 63 []).on (dbgF 63) = false) ∧
    (at_ (s 67 []) 67 ∧ sysKind (isSup 67) 0x131 = .w1c 0xFFFFFFFF ∧ sysExc (s 67 []) 67 0x131 = none ∧ level1 (s 67 []) 67 = true) ∧
    (at_ (s 63 [(0x30, 4), (0x32, 4)]) 63 ∧ wfeReady (s 63 [(0x30, 4), (0x32, 4)]) 63 = true) ∧
    (let t := (s 63 []).wr (dbgF 63) 1; at_ t 63 ∧ t.on (dbgF 63) = true) ∧
    (let t := s 67 [(0x13, 5), (0x14, 0), (0x110, 0xF)]; at_ t 67 ∧ excReady t 67 ∧ level1 t 67 = false) := by decide +kernel

/-- Hypotheses of exceptions, waits, interrupts and breakpoints. -/
theorem test_hyps_SystemInstructionsExceptionsAndInterrupts_2 :
    let s := fun (c : Nat) (sys : List (Nat × Word)) => coreOn live c { sys := sys }
    let at_ := fun (t : State) (c : Nat) => t.inv = true ∧ executes t c ∧ inSequence t c
    let waits := fun (evt : List (Nat × Word)) => (s 63 evt).wr (stateF 63) 2
    let line := s 67 [(0x13, 5), (0x14, 6), (0x130, 0x80000000), (0x131, 0x80000000)]
    let bp := fun (c : Nat) (en : RegFld) => regs (s c []) [(dbgF c, 1), (en, 1)]
    (let t := bp 63 (ENG_BP.EN 7 7 3); t.inv = true ∧ running t 63 = true ∧ bpHit t 63 = true) ∧
    (let t := s 63 [(0x13, 5)]; at_ t 63 ∧ excReady t 63 ∧ (t.core 63).depth = 0 ∧ t.on (dbgF 63) = false ∧ reservedWord 0xFFFFFFFF = true ∧
      sysKind (isSup 63) 0xFFF = .unlisted) ∧
    (let t := s 63 [(0x13, 5), (0x14, 1)]; at_ t 63 ∧ bf (t.sys 63 0x14) 0 1 = 1) ∧
    (at_ (s 63 []) 63 ∧ bf ((s 63 []).sys 63 0x14) 0 1 = 0 ∧ bf ((s 63 []).sys 63 0x13) 0 1 = 0) ∧
    ((waits []).inv = true ∧ (waits []).rd (stateF 63) = 2 ∧ wfeReady (waits []) 63 = false) ∧
    (let t := waits [(0x30, 4), (0x32, 4)]; t.inv = true ∧ t.rd (stateF 63) = 2 ∧ wfeReady t 63 = true ∧ inSequence t 63) ∧
    (line.inv = true ∧ running line 67 = true ∧ excReady line 67 ∧ bf (line.sys 67 0x14) 1 1 = 1 ∧ pendingLine line 67 = some 31) ∧
    (let t := bp 67 (SUP_BP.EN 3 3); t.inv = true ∧ running t 67 = true ∧ bpHit t 67 = true) ∧ (running live 67 = false ∧ bpHit live 67 = false) := by
  decide +kernel

/-- Hypotheses of pointers, QRX, CRD, CREL and NTF. -/
theorem test_hyps_QueueInstructionsMoveFramesAndItems :
    let s := fun (a v : Word) => onEng a v []
    let p := fun (a : Word) (len : Nat) => a.toNat % 4 = 0 ∧ 0x10000 ≤ a.toNat ∧ a.toNat + len ≤ 0x20000
    let rxs := fun (t : State) => { t with que := { t.que with rxs := [{ rx0 with descCell := 786431 }] }, eng := { t.eng with rxq := [(7, 5, 786431)] } }
    let cell := fun (t : State) (c : FCell) => { t with que := { t.que with cells := [(786431, c)] } }
    let held := fun (t : State) => { t with eng := { t.eng with held := [(7, 5, 786431)] } }
    let note := fun (t : State) => { t with eng := { t.eng with notices := [(63, [⟨2, 0, 1, 65535, 65535, 9⟩])] } }
    (ready (coreOn live 67 { sys := [(0x13, 5#32)] }) 67 = true) ∧ ready (s 0x1FFC2 0x1) 63 = true ∧
    (ready (s 0x1FFC4 0x1) 63 = true ∧ 0x20000 < 0x1FFC4 + 64) ∧
    (ready (s 0x1FFC0 0x1) 63 = true ∧ p 0x1FFC0 64 ∧ (s 0x1FFC0 0x1).eng.rxq = [] ∧ (s 0x1FFC0 0x1).engOwner 63 = 5) ∧
    (let t := rxs (s 0x1FFC0 0x1); ready t 63 = true ∧ t.eng.rxq.find? (fun q => q.1 == 63 / 8 && q.2.1 == 5) = some (63 / 8, 5, 786431) ∧
      (t.que.rxs.find? (fun r => r.descCell == 786431)).isSome = true) ∧
    (let t := s 0x1FFBC 786431; ready t 63 = true ∧ p 0x1FFBC 68 ∧ mayReadCell t 5 786431 = false) ∧
    (let t := cell (s 0x1FFBC 786431) { acct := some 5 }; ready t 63 = true ∧ mayReadCell t 5 786431 = true ∧ badCell (t.cell 786431) = false) ∧
    (let t := cell (s 0x1FFBC 786431) { acct := some 5, poison := true }; ready t 63 = true ∧ mayReadCell t 5 786431 = true ∧ badCell (t.cell 786431) = true) ∧
    (let t := held (s 786431 0x1); ready t 63 = true ∧ t.eng.held.find? (fun q => q.2.1 == 5 && q.2.2 == 786431) = some (7, 5, 786431)) ∧
    (let t := cell (s 786431 0x1) { acct := some 5 }; ready t 63 = true ∧ t.eng.held = [] ∧ (t.cell 786431).acct = some 5) ∧
    (let t := s 786431 0x1; ready t 63 = true ∧ (t.cell 786431).acct ≠ some 5) ∧
    (let t := s 0x1FFF0 0x1; ready t 63 = true ∧ p 0x1FFF0 16 ∧ noticesOf t 63 = []) ∧
    (let t := note (s 0x1FFF0 0x1); ready t 63 = true ∧ noticesOf t 63 = [⟨2, 0, 1, 65535, 65535, 9⟩]) := by decide +kernel

/-- Hypotheses of QWR and NCMD: a header with LENGTH 224 whose frame ends at the end of DMEM. -/
theorem test_hyps_QueueInstructionsMoveFramesAndItems_2 :
    let w := fun (n : Node) (hdr : List Nat) => let t := onEng 0x1FF00 65535 hdr; { t with que := { t.que with nodes := [(65535, n)] } }
    let x := fun (t : State) => IH.ORIGIN.put (recOf 512 (t.bytes (dmemOff 63 0x1FF00) 32)) 1
    let hd := fun (t : State) => IH.ENGINE.put ((fld 0x04 6 10).put (x t) 0) 63
    let sent := fun (t : State) => hdrReserved (x t) = false ∧ txEnabled t (IH.RATE.of (x t)) (IH.GRID.of (x t)) (IH.CHAN.of (x t)) = true
    let good := fun (n : Node) => let t := w n [0, 0, 64]; ready t 63 = true ∧ IH.LENGTH.of (x t) = 64 ∧ sent t ∧ t.eng.outst = [] ∧ t.handleOwner 65535 = 5 ∧ (t.node 65535).badPar = 0
    let full := fun (s : State) => { s with eng := { s.eng with outst := (List.range 64).map (fun k => (63, k)) } }
    let op := fun (k : Nat) => let t := onEng 0x1FFC0 (BitVec.ofNat 32 (65535 + 65536 * k)) []; { t with que := { t.que with nodes := [(65535, bareNode)] } }
    good {} ∧ good { bareNode with poison := true } ∧ (good bareNode ∧ tooLong (w bareNode [0, 0, 64]) 65535 (hd (w bareNode [0, 0, 64])) = false ∧
      (w bareNode [0, 0, 64]).nc 65535 NC.QLEN < (w bareNode [0, 0, 64]).rd QUE_QMAX.MAX ∧
      cellsOk (w bareNode [0, 0, 64]) 5 (1 + ceilDiv 64 64) ((w bareNode [0, 0, 64]).rd QUE_RX_RESERVE.CELLS) = true) ∧
    (let t := w bareNode [0, 0, 224]; ready t 63 = true ∧ sent t ∧ 0x1FF00 + 32 + IH.LENGTH.of (x t) = 0x20000 ∧ tooLong t 65535 (hd t) = true) ∧
    (let t := (w bareNode [0, 0, 64]).wr QUE_CTRL.WR_EN 0; ready t 63 = true ∧ sent t ∧ tooLong t 65535 (hd t) = false ∧ t.on QUE_CTRL.WR_EN = false) ∧
    (let t := full (w bareNode [0, 0, 64]); ready t 63 = true ∧ sent t ∧ 64 ≤ (t.eng.outst.filter (fun q => q.1 == 63)).length) ∧
    (let t := w bareNode [0x80000000, 0, 64]; ready t 63 = true ∧ hdrReserved (x t) = true) ∧
    (let t := (w bareNode [0, 0, 64]).wr (PRT_HMAP.OWNER 255) 4; ready t 63 = true ∧ t.handleOwner 65535 ≠ 5) ∧
    (∀ k ∈ [1, 2, 3, 4, 5], ready (op k) 63 = true ∧ (op k).handleOwner 65535 = 5 ∧ nodeBusy (op k) 65535 = false ∧ NW.OP.of (BitVec.ofNat 32 (65535 + 65536 * k)) = k) ∧
    (nodeOp 3 (BitVec.ofNat 32 (65535 + 65536 * 3)) (0 : BitVec 512) (.engine 63 3) (op 3)).2 = 0 ∧
    (let t := { op 3 with que := { (op 3).que with rxs := [{ rx0 with node := some 65535 }] } }; ready t 63 = true ∧ nodeBusy t 65535 = true) := by decide +kernel

/-- Hypotheses of reserved node operations and of records with bad parity. -/
theorem test_hyps_QueueInstructionsMoveFramesAndItems_3 :
    let w := fun (n : Node) (hdr : List Nat) => let t := onEng 0x1FF00 65535 hdr; { t with que := { t.que with nodes := [(65535, n)] } }
    let op := fun (k : Nat) => let t := onEng 0x1FFC0 (BitVec.ofNat 32 (65535 + 65536 * k)) []; { t with que := { t.que with nodes := [(65535, bareNode)] } }
    (∀ k ∈ [0, 7], ready (op k) 63 = true ∧ (op k).handleOwner 65535 = 5 ∧ NW.OP.of (BitVec.ofNat 32 (65535 + 65536 * k)) = k) ∧
    (let t := { op 1 with badPar := [dmemBase 63 + 0xFFFC] }; ready t 63 = true ∧ badDmem t 63 0x1FFC0 64 = some 0x1FFFC ∧ badDmem (op 1) 63 0x1FFC0 64 = none) ∧
    (let t := { w bareNode [0, 0, 64] with badPar := [dmemBase 63 + 0xFF1C] }; ready t 63 = true ∧ badDmem t 63 0x1FF00 32 = some 0x1FF1C) ∧
    (let t := { w bareNode [0, 0, 64] with badPar := [dmemBase 63 + 0xFF5C] }; ready t 63 = true ∧ badDmem t 63 0x1FF00 32 = none ∧ badDmem t 63 0x1FF20 64 = some 0x1FF5C) ∧
    (let t := w bareNode [0, 0, 64]; badDmem t 63 0x1FF00 32 = none ∧ badDmem t 63 0x1FF20 64 = none ∧ linkPoint t 65535 0 true = []) := by decide +kernel

/-- Hypotheses of the link commands. -/
theorem test_hyps_LinkCommandsOfEngines :
    let s := fun (ws : List Nat) => onEng 0x1FFF0 0x1 (List.replicate 60 0 ++ ws)
    let x := fun (t : State) => linkCmd t 63 0x1FFF0
    let z := fun (t : State) (fs : List Fld) => (fs.all (fun f => f.of (x t) == 0)) = true
    let ok := fun (t : State) (fs : List Fld) => ready t 63 = true ∧ z t fs
    let item := let t := s [1, 0xFFFF0000, 0, 0]; { t with que := { t.que with cells := [(8, { owner := some 65535, hdrCell := true })] }, eng := { t.eng with outst := [(63, 8)] } }
    let onAir := { item with txc := { item.txc with ents := [(0, ({ item := some 8, st := 7 } : Ent))] } }
    let waits := { item with txc := { item.txc with ents := [(0, ({ item := some 8, st := 8 } : Ent))] },
                             lnk := { item.lnk with atts := [⟨0, 0, 65535, 5, 0, 0, 0, 0, 100, 50, false, false⟩] } }
    (let t := s [0x101, 0, 0, 0]; ready t 63 = true ∧ (fld 0 8 24).of (x t) ≠ 0 ∧ 0x1FFF0 % 4 = 0 ∧ 0x10000 ≤ 0x1FFF0 ∧ 0x1FFF0 + 16 ≤ 0x20000) ∧
    (ok (s [1, 0xFFFF0000, 0, 0]) [fld 0 8 24, fld 8 0 64] ∧ (s [1, 0xFFFF0000, 0, 0]).eng.outst = []) ∧
    (ok item [fld 0 8 24, fld 8 0 64] ∧ cancelKind item 8 = 0 ∧
      item.eng.outst.filter (fun q => decide (q.1 = 63 ∧ item.ih q.2 IH.COOKIE = LC.COOKIE.of (x item) ∧ (item.cell q.2).owner = some (LC.NODE.of (x item)))) = [(63, 8)]) ∧
    (ok onAir [fld 0 8 24, fld 8 0 64] ∧ cancelKind onAir 8 = 1 ∧ onAir.eng.late = []) ∧ cancelKind { onAir with eng := { onAir.eng with late := [(63, 8)] } } 8 = 1 ∧
    (ok waits [fld 0 8 24, fld 8 0 64] ∧ cancelKind waits 8 = 2) ∧
    (let t := s [2 + 63 * 65536, 0, 5, 1]; ok t [fld 0 8 8, fld 0 22 10, fld 4 0 32] ∧ LC.K.of (x t) = 63 ∧ t.rd (LNK_CMP_CTRL.PART 63) = t.engOwner 63) ∧
    (let t := s [2 + 62 * 65536, 0, 5, 1]; ok t [fld 0 8 8, fld 0 22 10, fld 4 0 32] ∧ t.rd (LNK_CMP_CTRL.PART (LC.K.of (x t))) ≠ t.engOwner 63) ∧
    (let t := s [3 + 63 * 65536, 0, 0, 0]; ok t [fld 0 8 8, fld 0 22 10, fld 4 0 96] ∧ LC.K.of (x t) = 63) ∧
    (let t := s [4 + 8191 * 65536, 0, 1, 65535 + 5 * 2 ^ 24]; let w := BitVec.ofNat 32 (LC.W3.of (x t));
      ok t [fld 0 8 8, fld 0 29 3, fld 4 0 32] ∧ LC.CELL.of (x t) = 8191 ∧ t.rd (LNK_CELL1.PART 8191) = t.engOwner 63 ∧ bf w 24 6 = t.engOwner 63 ∧
        t.handleOwner (bf w 0 16) = t.engOwner 63 ∧ t.on LNK_CTRL.LOCK = false ∧ (t.wr LNK_CTRL.LOCK 1).on LNK_CTRL.LOCK = true ∧ (t.wr LNK_CTRL.LOCK 1).inv = true) ∧
    (let t := s [4 + 8190 * 65536, 0, 1, 65535 + 5 * 2 ^ 24]; ok t [fld 0 8 8, fld 0 29 3, fld 4 0 32] ∧ t.rd (LNK_CELL1.PART 8190) ≠ t.engOwner 63) ∧
    (let t := s [5 + 127 * 65536, 0, 0, 0]; ok t [fld 0 8 8, fld 0 23 9, fld 4 0 96] ∧ LC.CHANNEL.of (x t) = 127 ∧ t.chanOwner 127 = t.engOwner 63) ∧
    (let t := s [5 + 119 * 65536, 0, 0, 0]; ok t [fld 0 8 8, fld 0 23 9, fld 4 0 96] ∧ t.chanOwner (LC.CHANNEL.of (x t)) ≠ t.engOwner 63) ∧
    badDmem item 63 0x1FFF0 16 = none ∧ onAir.eng.discard = [] ∧
    (let t := { item with badPar := [dmemBase 63 + 0xFFFC] }; ready t 63 = true ∧ badDmem t 63 0x1FFF0 16 = some 0x1FFFC) := by decide +kernel

/-- Hypotheses of the owners' commands on engine 63, cluster 7 and supervisor 3. -/
theorem test_hyps_OwnersStartStopAndLoadCores :
    let on := live.wr (ENG_C_STS.PSTATE 7) 2
    let run := on.wr (stateF 63) 1
    let held := run.setCore 63 { held := true }
    let clr := on.wr (ENG_STS.CLEARING 7 7) 1
    let foreign := regs on [(PRT_ENG.OWNER 63, 5), (PRT_ENG.EN 63, 1)]
    let sv := live.wr (stateF 67) 1
    let got := let t := live.wr (ENG_C_STS.PSTATE 7) 1; { t with pwr := { t.pwr with held := [⟨.cluster 7, 0, 1, false⟩] } }
    (open_ on (ctrlOff 63) = true ∧ on.engOwner 63 = 0 ∧ on.rd (stateF 63) = 0 ∧ clearing on 63 = false ∧ on.rd (ENG_C_STS.PSTATE (63 / 8)) = 2 ∧
      (on.core 63).held = false) ∧
    (open_ live (ctrlOff 63) = true ∧ live.rd (ENG_C_STS.PSTATE (63 / 8)) = 0 ∧ clearing live 63 = false ∧ live.engOwner 63 = 0) ∧
    (open_ run (ctrlOff 63) = true ∧ run.rd (stateF 63) ≠ 0 ∧ midway run 63 = false) ∧ (open_ foreign (ctrlOff 63) = true ∧ foreign.engOwner 63 ≠ 0) ∧
    (held.inv = true ∧ open_ held (ctrlOff 63) = true ∧ held.rd (stateF 63) ≠ 0 ∧ midway held 63 = true ∧ midway on 63 = false) ∧
    (clr.inv = true ∧ clearing clr 63 = true ∧ open_ clr (imemBase 63 + 0x7FFC) = true) ∧ open_ on (imemBase 63 + 0x7FFC) = true ∧
    open_ run (imemBase 63 + 0x7FFC) = true ∧ (open_ live (ENG_C_CTRL.reg 7) = true ∧ live.rd (ENG_C_STS.PSTATE 7) = 0) ∧
    (open_ on (ENG_C_CTRL.reg 7) = true ∧ on.rd (ENG_C_STS.PSTATE 7) ≠ 0 ∧ ∀ j < 8, on.rd (stateF (8 * 7 + j)) = 0) ∧
    (open_ run (ENG_C_CTRL.reg 7) = true ∧ ∃ j < 8, run.rd (stateF (8 * 7 + j)) ≠ 0) ∧
    (got.inv = true ∧ got.rd (ENG_C_STS.PSTATE 7) = 1 ∧ got.pwr.held.any (fun l => decide (l.who = .cluster 7)) = true) ∧
    (live.rd (ENG_C_STS.PSTATE 7) ≠ 1) ∧ (open_ live (SUP_CTRLN.reg 3) = true ∧ live.rd (stateF 67) = 0 ∧ (live.core 67).held = false) ∧
    (open_ sv (SUP_CTRLN.reg 3) = true ∧ sv.rd (stateF 67) ≠ 0) := by decide +kernel

/-- Hypotheses of the flash controller, at the last sector of the array. -/
theorem test_hyps_FlashOperationsRunToTheirStatus :
    let s := fun (x : Flc) => { live with flc := x }
    let nv := fun (n : Nvm) (x : Flc) => { live with flc := x, nvm := n }
    let er : FlashOp := { code := 2, addr := 8127 * 4096, n := 0, data := [], stage := 1, begun := true }
    let pr : FlashOp := { code := 1, addr := 8127 * 4096 + 3840, n := 16, data := List.replicate 256 7, stage := 1, begun := true }
    let wait : FlashOp := { pr with stage := 0, begun := false }
    let blk : FlashOp := { er with code := 3, addr := 506 * 65536 }
    (open_ live FLC_CMD.reg = true ∧ live.on FLC_CMD.BUSY = false ∧ live.flc.op = none ∧ live.flc.resume = none ∧ live.flc.wait = []) ∧
    (open_ (live.wr FLC_CMD.BUSY 1) FLC_CMD.reg = true ∧ (live.wr FLC_CMD.BUSY 1).on FLC_CMD.BUSY = true) ∧
    (∀ o ∈ [er, pr, wait, blk], open_ (s { op := some o }) FLC_CMD.reg = true ∧ (s { op := some o }).flc.op = some o) ∧
    (let t := s { op := some pr }; t.inv = true ∧ pr.addr % 16 = 0 ∧ pr.data.length = 16 * pr.n ∧ pr.n = 16 ∧ (pr.addr + 16 * pr.n - 1) / 4096 = pr.addr / 4096 ∧
      overlay t 8127 = false ∧ sfind t.nvm.wild (physSector t 8127) = none ∧ swf (fun _ => 511) t.nvm.check = true ∧
      (∀ k < 16, sfind t.nvm.torn (physAddr t pr.addr / 16 + k) = none)) ∧
    (let t := s { op := some er }; t.inv = true ∧ physSector t 8127 ∉ t.nvm.failed ∧ spareOf t 8127 = none ∧
      (List.range 64).find? (fun j => spareUse t.info j == 0) = some 0) ∧
    (let t := nv { copyA := { spares := (List.range 64).map (fun j => (j, 1)) } } { op := some er };
      t.inv = true ∧ spareOf t 8127 = none ∧ (∀ j < 64, spareUse t.info j ≠ 0) ∧ physSector t 8127 ∉ t.nvm.failed) ∧
    (let t := s { op := some { blk with sep := true, cur := 14 } }; t.inv = true ∧ opSectors { blk with sep := true, cur := 14 } = [8110] ∧
      physSector t 8110 = 8110 ∧ 8110 ∉ t.nvm.failed) ∧
    (let t := s { op := some blk }; t.inv = true ∧ ∀ k ∈ opSectors blk, physSector t k = k ∧ k ∉ t.nvm.failed) := by decide +kernel

/-- Hypotheses of suspends, resumes and aborts, of what waits, and of low supplies. -/
theorem test_hyps_FlashOperationsRunToTheirStatus_2 :
    let s := fun (x : Flc) => { live with flc := x }
    let er : FlashOp := { code := 2, addr := 8127 * 4096, n := 0, data := [], stage := 1, begun := true }
    let wait : FlashOp := { er with code := 1, n := 16, stage := 0, begun := false }
    let gone : FlashOp := { er with stage := 2 }
    let low := fun (o : FlashOp) => s { op := some o, low := true }
    (open_ (s { op := some er, wait := [wait] }) FLC_CMD.reg = true ∧ (wait.src == 0 && !wait.begun) = true) ∧
    (open_ (s { op := some { er with src := 1 } }) FLC_CMD.reg = true ∧ (s { op := some { er with src := 1 } }).on FLC_CMD.BUSY = false) ∧
    (open_ (s { resume := some gone }) FLC_CMD.reg = true ∧ ∀ o ∈ (s { resume := some gone }).flc.op.toList, eraseOpen o = false) ∧
    (open_ (s { op := some { wait with begun := true }, resume := some gone }) FLC_CMD.reg = true ∧ eraseOpen { wait with begun := true } = false) ∧
    (open_ (s { op := some { gone with stage := 0 }, resume := some gone }) FLC_CMD.reg = true ∧ eraseOpen { gone with stage := 0 } = true) ∧
    (low { er with stage := 5 }).inv = true ∧ (low { wait with stage := 5, begun := true, cur := 15 }).inv = true ∧
    (let t := low { wait with stage := 4 }; t.inv = true ∧
      flashCheck (t.setFlc { t.flc with low := false }) { wait with stage := 4 } (pbufBytes t 16) = 0) ∧
    (let t := (low { wait with stage := 4, addr := 0x1FFFFFF }); t.inv = true ∧
      flashCheck (t.setFlc { t.flc with low := false }) { wait with stage := 4, addr := 0x1FFFFFF } (pbufBytes t 16) = 1) ∧
    ((s { op := some wait }).inv = true ∧ wait.stage ≠ 1) := by decide +kernel

/-- Hypotheses of window reads, each KIND: the word at the end of the array, whose check bits are those the code gives. -/
theorem test_hyps_FlashOperationsRunToTheirStatus_3 :
    let w := fun (n : Nvm) (x : Flc) (sec : Nat) => { live.wr FLC_WIN.SECTOR sec with flc := x, nvm := n }
    let er : FlashOp := { code := 2, addr := 8127 * 4096, n := 0, data := [], stage := 2, begun := true }
    let free := fun (t : State) => sectorBad t 8127 = false ∧ busyOp t 8127 = none
    (open_ (w {} {} 8128) (0x88000 + 4095) = true ∧ (w {} {} 8128).rd FLC_WIN.SECTOR = 8128) ∧
    (let t := w { copyA := { bad := [8127] } } {} 8127; open_ t (0x88000 + 4095) = true ∧ sectorBad t 8127 = true) ∧
    (let t := w {} { resume := some er } 8127; open_ t (0x88000 + 4095) = true ∧ sectorBad t 8127 = false ∧ busyOp t 8127 = some er ∧ underErase t 8127 = true) ∧
    (let t := w { marks := [8127] } {} 8127; open_ t (0x88000 + 4095) = true ∧ free t ∧ sectorOpen t 8127 = true ∧ underErase t 8127 = false) ∧
    (let t := w {} { op := some { er with addr := 8126 * 4096, stage := 1 } } 8127; open_ t (0x88000 + 4095) = true ∧ sectorBad t 8127 = false ∧
      (busyOp t 8127).isSome = true) ∧
    (let t := (w {} {} 8127).wr (FLC_OVL.SECTOR 7) 8127; let u := t.wr (FLC_OVL.EN 7) 1; open_ u (0x88000 + 4095) = true ∧ free u ∧ overlay u 8127 = true) ∧
    (let t := w {} {} 8127; open_ t (0x88000 + 4095) = true ∧ free t ∧ sectorOpen t 8127 = false ∧ overlay t 8127 = false) := by decide +kernel

/-- A word of flash with the check bits of the SEC-DED code, whatever that code is, is one the reads of the statement speak of. -/
theorem test_hyps_FlashOperationsRunToTheirStatus_4 :
    let ff : List Byte := List.replicate 16 255
    let t : State := { live.wr FLC_WIN.SECTOR 8127 with nvm := { check := [(2080767, Config.eccOf ff % 512)] } }
    physAddr t (4096 * 8127 + 4092) / 16 = 2080767 ∧ (List.range 16).map (fun k => physByte t (16 * 2080767 + k)) = ff ∧
      physCheck t 2080767 = Config.eccOf ff % 512 := by
  refine ⟨by decide +kernel, by decide +kernel, ?_⟩
  simp [physCheck, sfind, sget]

/-- Hypotheses of the graft unit, step by step. -/
theorem test_hyps_GraftFusesAndLedgerRunTheirOperations :
    let s := fun (op : Nat) => let t := booted live; { t with flc := { t.flc with graft := some op } }
    let b := (booted live).flc.boot.getD ⟨0, 5, 0, true, 1, (0, 0), (0, 0), 0, 0, 1, 255⟩
    let work := fun (t : State) (w : UnitWork) => { t with flc := { t.flc with works := [w] } }
    let a := (bootSlot b (1 - b.active)).1
    let idle := regs (booted live) [(FLC_IMG_STS.STATE, 3), (FLC_GRAFT_STS.STATE, 3)]
    let okd := { idle with start := { idle.start with okNow := true } }
    (∀ r ∈ [FLC_GRAFT_CTRL.reg, FLC_FUSE_CMD.reg, FLC_LDG_CTRL.reg], open_ live r = true) ∧
    (live.on FLC_GRAFT_CTRL.BUSY = false ∧ live.on FLC_FUSE_CMD.BUSY = false ∧ live.on FLC_LDG_CTRL.BUSY = false) ∧
    (∀ q ∈ [FLC_GRAFT_CTRL.BUSY, FLC_FUSE_CMD.BUSY, FLC_LDG_CTRL.BUSY], open_ (live.wr q 1) q.addr = true ∧ (live.wr q 1).on q = true) ∧
    (live.flc.graft = none ∧ live.flc.fuse = none ∧ live.flc.ldg = none) ∧ graftRefused live 2 = some 0xE0 ∧
    (open_ okd FLC_GRAFT_CTRL.reg = true ∧ ∀ op ∈ [4, 20], graftRefused okd op = none) ∧
    (let t := okd.wr FLC_GRAFT_STS.STATE 1; t.inv = true ∧ ∀ op ∈ [1, 2], graftRefused t op = none) ∧
    (∀ op ∈ [0xE0, 255, 1, 2, 4, 8, 20], (s op).inv = true ∧ (s op).flc.graft = some op ∧ (s op).flc.boot = some b) ∧
    (imgStalls (s 1) 0 a = false ∧ (imgErr ((s 1).wr FLC_GRAFT_SECVER.SEC_VERSION (srcWord (s 1) 0 (a + 0x10))) 0 0 a).isSome = true) ∧
    (let t := { s 1 with flc := { (s 1).flc with op := some { code := 2, addr := a, n := 0, data := [], stage := 1, begun := true } } }.wr FLC_STS.BANK_BUSY 15
     t.inv = true ∧ imgStalls t 0 a = true) ∧
    (∀ op ∈ [2, 4, 8, 20], unitWork (s op) 2 = none ∧ unitWork (s op) 3 = none ∧
      unitWork (work (s op) { unit := 3, left := [], ok := true }) 3 ≠ none ∧
      ∀ w ∈ [({ unit := 2, left := [], ok := true } : UnitWork), { unit := 2, left := [], ok := false }, { unit := 2, left := [.erase 1], ok := true }],
        (work (s op) w).inv = true ∧ unitWork (work (s op) w) 2 = some w) := by decide +kernel

/-- Hypotheses of fuses. -/
theorem test_hyps_GraftFusesAndLedgerRunTheirOperations_2 :
    let fuse := fun (op : Nat) (x : Fuses) => { live.wr FLC_FUSE_CMD.INDEX 3 with flc := { live.flc with fuse := some op }, fuses := x }
    let two : Fuses := { keys := [(2, []), (3, [])] }
    let lim := { (regs live [(FLC_FUSE_CMD.INDEX, 3), (FLC_FUSE_CMD.LIMIT, 7)]) with flc := { live.flc with fuse := some 3 } }
    ((fuse 1 {}).inv = true ∧ fuseAllowed (fuse 1 {}) 1 = true) ∧ ((fuse 2 two).inv = true ∧ fuseAllowed (fuse 2 two) 2 = true) ∧
    (lim.inv = true ∧ fuseAllowed lim 3 = true) ∧ (fuseAllowed (fuse 1 two) 1 = false ∧ (fuse 1 two).inv = true) := by decide +kernel

/-- Area B of a ledger, its key loaded and an empty stream, and an operation of it. -/
def ledgerB (op : Nat) : State :=
  let t := booted (regs live [(FLC_LDG_CFG.LONG, 255), (FLC_LDG_CFG.FMT, 1), (FLC_LDG_CTRL.AREA, 1), (FLC_LDG_MEM.OFFSET, 0x1FFFFC)])
  { t with sec := { live.sec with longs := [(255, { state := 1 })], rngUp := true }, flc := { t.flc with ldg := some op } }

/-- Hypotheses of the ledger's checks and work. -/
theorem test_hyps_GraftFusesAndLedgerRunTheirOperations_3 :
    let work := fun (t : State) (w : UnitWork) => { t with flc := { t.flc with works := [w] } }
    let data : NvStep := .program 0x1FBF000 (List.replicate 4096 0)
    (∀ op ∈ [1, 3], (ledgerB op).inv = true ∧ (ledgerB op).flc.ldg = some op ∧ ldgEarly (ledgerB op) op = none ∧ ldgWaits (ledgerB op) op = false ∧
      ldgCheck (ledgerB op) op = none ∧ ldgArea (ledgerB op) op = some 1 ∧ ldgSteps (ledgerB op) ≠ [] ∧ unitWork (ledgerB op) 1 = none) ∧
    (∀ op ∈ [1, 2, 3], let t := { ledgerB op with flc := { (ledgerB op).flc with boot := none } }; t.inv = true ∧ ldgEarly t op = some 4) ∧
    (let t := { ledgerB 2 with sec := { (ledgerB 2).sec with rngUp := false } }; t.inv = true ∧ ldgEarly t 2 = none ∧ ldgWaits t 2 = true) ∧
    (let t := (ledgerB 1).wr FLC_LDG_CFG.FMT 0; t.inv = true ∧ ldgEarly t 1 = none ∧ ldgWaits t 1 = false ∧ ldgCheck t 1 = some 2) ∧
    (∀ op ∈ [1, 2, 3], ∀ w ∈ [({ unit := 1, left := [], ok := true, gen := 7, copy := 1 } : UnitWork), { unit := 1, left := [], ok := false },
        { unit := 1, left := [data], ok := true }], let t := work (ledgerB op) w; t.inv = true ∧ unitWork t 1 = some w ∧ t.flc.boot.isSome = true) ∧
    (let t := work (ledgerB 1) { unit := 1, left := [data], ok := true }
     stepHeld t 1 data = false ∧ t.flc.op = none ∧ t.flc.wait = [] ∧
       (let u := { t with sec := { t.sec with rngUp := false } }; u.inv = true ∧ stepHeld u 1 data = true ∧ u.sec.tamper = false) ∧
       (let u := { t with sec := { t.sec with rngUp := false, tamper := true } }; u.inv = true ∧ stepHeld u 1 data = true ∧ u.sec.tamper = true) ∧
       (let u := { t with flc := { t.flc with op := some (stepOp 1 data) } }; u.inv = true ∧ stepHeld u 1 data = false ∧ u.flc.op ≠ none ∧ (stepOp 1 data).src = 1)) :=
  by decide +kernel

/-- Hypotheses of a unit's flash steps. -/
theorem test_hyps_GraftFusesAndLedgerRunTheirOperations_4 :
    let runs := fun (x : NvStep) => let o := { stepOp 1 x with stage := 1, begun := true }
      let t := { ledgerB 1 with flc := { (ledgerB 1).flc with op := some o, works := [{ unit := 1, left := [x, .erase 8127], ok := true }] } }
      t.inv = true ∧ t.flc.op = some o ∧ o.src = 1 ∧ (unitWork t 1).isSome = true ∧ stepHeld t 1 (.erase 8127) = false ∧
        physSector t (o.addr / 4096) ∉ t.nvm.failed
    runs (.erase 8126) ∧ runs (.program 0x1FBF000 (List.replicate 16 7)) ∧ runs (.highWater 1 7) := by decide +kernel

/-- Hypotheses of power requests, check by check. -/
theorem test_hyps_PowerRequestsAndLeaveAreServed :
    let s := fun (l : List (RegFld × Nat)) => regs live l
    let ok := fun (t : State) => open_ t PWR_CMD.reg = true ∧ t.on PWR_STS.BUSY = false
    let quiet := fun (t : State) => ∀ c < 8, t.rd (ENG_C_STS.PSTATE c) = 0
    (open_ (s [(PWR_STS.BUSY, 1)]) PWR_CMD.reg = true ∧ (s [(PWR_STS.BUSY, 1)]).on PWR_STS.BUSY = true) ∧
    (∀ st < 4, ok (s [(PWR_STS.STATE, st)]) ∧ (s [(PWR_STS.STATE, st)]).rd PWR_STS.STATE = st) ∧
    (ok (s [(ENG_C_STS.PSTATE 7, 1)]) ∧ ¬quiet (s [(ENG_C_STS.PSTATE 7, 1)])) ∧
    (ok (s [(HST_PORT_STS.EN 1023, 1)]) ∧ quiet (s [(HST_PORT_STS.EN 1023, 1)]) ∧ (s [(HST_PORT_STS.EN 1023, 1)]).on (HST_PORT_STS.EN 1023) = true) ∧
    (let t := s [(PWR_RET_CFG.BANKS, 16)]; ok t ∧ quiet t ∧ bitOn (t.rd PWR_RET_CFG.BANKS) 4 = true ∧ bitOn (t.rd PWR_RET_CFG.BANKS) 0 = false ∧
      (List.range 1024).all (fun q => !t.on (HST_PORT_STS.EN q)) = true) ∧
    (let t := s [(PWR_RET_CFG.COMPAT, 1)]; ok t ∧ quiet t ∧ bitOn (t.rd PWR_RET_CFG.BANKS) 4 = false ∧ t.on PWR_RET_CFG.COMPAT = true ∧ t.on PWR_REG_CFG.MODE = true) ∧
    (let t := s [(PWR_RET_CFG.BANKS, 9), (PWR_REG_CFG.MODE, 1)]; ok t ∧ quiet t ∧ t.on PWR_REG_CFG.MODE = true ∧ t.on PWR_RET_CFG.COMPAT = false ∧
      80 < retentionLoad (t.rd PWR_RET_CFG.BANKS) false) ∧
    (ok (s []) ∧ (s []).rd PWR_STS.STATE < 2 ∧ quiet (s []) ∧ (s []).txc.carriers = [] ∧ pwrCheck (s []) 3 = 0 ∧ (s []).pwr.mode = 0) ∧
    (let t := { s [] with txc := { live.txc with carriers := [⟨7, 0, 0, 0⟩] } }; ok t ∧ t.txc.carriers ≠ []) := by decide +kernel

/-- Hypotheses of a request's wait, the link's L2 and the arbiter. -/
theorem test_hyps_PowerRequestsAndLeaveAreServed_2 :
    let s := fun (l : List (RegFld × Nat)) (x : Pwr) => { regs live ((PWR_STS.STATE, 3) :: l) with pwr := x }
    let busy := fun (t : State) => t.wr (LNE_LANE_STS.STATE 511) 1
    let asks := fun (h : Holder) (p mw : Nat) (r : Bool) (l : List (RegFld × Nat)) => { regs live l with pwr := { waiters := [⟨h, p, mw, r⟩] } }
    let fl := fun (begun : Bool) => { asks .flash 0 0 false [] with flc := { op := some { code := 1, addr := 8127 * 4096 + 3840, n := 16, data := [], stage := 0, begun := begun } } }
    let l := fun (h : Holder) (p mw : Nat) (r : Bool) => (⟨h, p, mw, r⟩ : Leave)
    (let t := busy (s [] { req := some 3 }); t.inv = true ∧ t.pwr.req = some 3 ∧ reqSettled t = false ∧ t.pwr.left < 3 ∧ quiescent t = false) ∧
    (live.pwr.req = none ∧ live.pwr.waiters = []) ∧
    (let t := s [(QUE_STS.FREE, 786431)] { req := some 3 }; t.inv = true ∧ t.pwr.req = some 3 ∧ quiescent t = true ∧ t.rd PWR_STS.STATE = 3 ∧ t.pwr.left < 3 ∧
      bankKept t 4 = false ∧ t.rd QUE_STS.FREE < 786432) ∧
    (let t := s [] { req := some 3 }; t.inv = true ∧ quiescent t = true ∧ t.rd QUE_STS.FREE = 786432) ∧
    (let t := asks (.cluster 7) 0 0 false []; t.inv = true ∧ t.waiterFits (l (.cluster 7) 0 0 false) = true) ∧
    (∀ b ∈ [true, false], (fl b).inv = true ∧ (fl b).waiterFits (l .flash 0 0 false) = true ∧ (fl b).flc.low = false) ∧
    flashCheck ((({ fl false with pwr := { held := [l .flash 0 0 false] } } : State)).inc PWR_CNT_GRANT.COUNT) { code := 1, addr := 8127 * 4096 + 3840, n := 16, data := [], stage := 0, begun := false } (pbufBytes (fl false) 16) = 0 ∧
    (∀ b ∈ [true, false], unitWork (fl b) 3 = none) ∧
    (let t := asks .capture 0 0 false []; t.inv = true ∧ t.waiterFits (l .capture 0 0 false) = true ∧ t.rd CNP_CAP_CFG.TRIG ≠ 2) ∧
    (let t := asks (.bias 7) 0 0 false []; t.inv = true ∧ t.waiterFits (l (.bias 7) 0 0 false) = true) ∧
    (let t := asks (.chain 7) 63 100 false []; t.inv = true ∧ t.waiterFits (l (.chain 7) 63 100 false) = false ∧ t.leaveShare 63 100 = false) ∧
    (let t := asks (.chain 7) 0 0 false [(PWR_TEMP_STS.TRIP, 1)]; t.inv = true ∧ t.waiterFits (l (.chain 7) 0 0 false) = false ∧ t.leaveShare 0 0 = true) := by
  decide +kernel

/-- Hypotheses of wakes, temperature samples and the backup cell. -/
theorem test_hyps_WakesTemperatureAndTheBackupCell :
    let s := fun (l : List (RegFld × Nat)) (x : Pwr) => { regs live l with pwr := x }
    let pin := fun (x : Pwr) => s [(PWR_WAKE_EN.WAKE_IN, 1), (PWR_STS.STATE, 2)] x
    let air := fun (en : Nat) => { s [(PWR_STS.STATE, 2), (PWR_AIR_CFG.GRID, 15), (PWR_AIR_CFG.CHAN, 255), (PWR_AIR_CFG.SF, 3), 
      (CNP_GRID_BASE.EN 15, 1), (CNP_GRID_GEOM.SPACING 15, 2), (CNP_SLICE_SUB.EN, 1), (CNP_ANT_EN.EN, 128), (PWR_WATCH_CFG.ANT, 7), (PWR_WAKE_EN.AIR, en)] {} with radioHeld := false }
    let temp := fun (hot cool trip : Nat) => s [(PWR_TEMP_STS.TRIP, trip)] { hot := hot, cool := cool }
    let hi := sgn 16 (live.rd PWR_TEMP_CFG.TRIP)
    ((pin {}).inv = true ∧ (pin {}).pwr.wakePin ≠ true ∧ wakeActive (pin {}) true = true ∧ (pin {}).on PWR_WAKE_EN.WAKE_IN = true ∧ (pin {}).rd PWR_STS.STATE = 2) ∧
    (let t := (pin {}).wr PWR_STS.STATE 3; t.inv = true ∧ wakeActive t true = true ∧ t.on PWR_WAKE_EN.WAKE_IN = true ∧ t.rd PWR_STS.STATE = 3 ∧ t.pwr.left < 3) ∧
    (let t := (pin {}).wr PWR_STS.STATE 1; t.inv = true ∧ wakeActive t true = true ∧ t.on PWR_WAKE_EN.WAKE_IN = true ∧ t.rd PWR_STS.STATE < 2) ∧
    (∀ b ∈ [true, false], (pin { mode := 1, wakeFired := b }).inv = true ∧ (pin { mode := 1, wakeFired := b, retLost := true }).inv = true) ∧
    (∀ c < 2, (s [(PWR_RET_CFG.COMPAT, c)] { mode := 1, wakeFired := true, svRun := [3] }).inv = true ∧
      (s [(PWR_RET_CFG.COMPAT, c)] { mode := 1, wakeFired := true }).on PWR_RET_CFG.COMPAT = decide (c = 1)) ∧
    (∀ en < 2, (air en).inv = true ∧ airDetector (air en) = true ∧ 255 = (air en).rd PWR_AIR_CFG.CHAN ∧ 3 = (air en).rd PWR_AIR_CFG.SF ∧
      airMatch (air en) (List.replicate 12 5) = true ∧ (air en).on PWR_WAKE_EN.AIR = decide (en = 1)) ∧
    live.pwr.mode = 0 ∧ (s [] { mode := 2 }).inv = true ∧ (s [] { mode := 1 }).inv = true ∧
    ((temp 3 0 0).inv = true ∧ hi ≤ 32767 ∧ (temp 3 0 0).on PWR_TEMP_STS.TRIP = false ∧ (temp 3 0 0).txc.carriers = []) ∧
    ((temp 2 0 0).pwr.hot < 3 ∧ (temp 0 3 1).on PWR_TEMP_STS.TRIP = true ∧ (temp 3 0 1).on PWR_TEMP_STS.TRIP = true ∧ (temp 0 2 0).pwr.cool < 3 ∧ -32768 < hi - live.rd PWR_TEMP_CFG.HYST) ∧
    (live.on PWR_GAUGE_REM.UNKNOWN = true ∧ live.on PWR_VBAK.LOW = false) ∧
    (let t := s [(PWR_GAUGE_REM.UNKNOWN, 0), (PWR_GAUGE_REM.UAH, 5)] {}; t.inv = true ∧ t.on PWR_GAUGE_REM.UNKNOWN = false ∧ t.rd PWR_GAUGE_REM.UAH ≠ 0 ∧
      0 ≤ t.rd PWR_VBAK_LOW.MV) ∧
    open_ live PWR_GAUGE_CAL.reg = true := by decide +kernel

/-- Hypotheses of the synthesiser and the aligner. -/
theorem test_hyps_SynthesiserAlignerAndBridge :
    let s := fun (l : List (RegFld × Nat)) (x : Clk) => { regs live l with clk := x }
    let run := [(CLK_STS.SYN_LOCK, 1), (CLK_STS.ALN_LOCK, 1), (CLK_ALN_CFG.SRC, 1)]
    (open_ live CLK_SYN_CTRL.reg = true ∧ live.on CLK_CTRL.LOCK = false ∧ live.on CLK_SYN_CTRL.EN = false ∧ live.clk.acq = false) ∧
    (let t := s [(CLK_CTRL.LOCK, 1)] {}; open_ t CLK_SYN_CTRL.reg = true ∧ t.on CLK_CTRL.LOCK = true) ∧
    (let t := s [(CLK_SYN_CTRL.EN, 1)] { acq := true }; open_ t CLK_SYN_CTRL.reg = true ∧ t.on CLK_SYN_CTRL.EN = true ∧ t.clk.acq = true) ∧
    (let t := s [(CLK_STS.SYN_LOCK, 1)] {}; t.inv = true ∧ t.on CLK_STS.SYN_LOCK = true ∧ t.on CLK_STS.FREE_RUN = false ∧ t.clk.released = false) ∧
    (let t := s [(CLK_STS.SYN_LOCK, 1), (CLK_STS.FREE_RUN, 1)] {}; t.inv = true ∧ t.on CLK_STS.FREE_RUN = true) ∧
    (let t := s [(CLK_STS.SYN_LOCK, 1), (CLK_ALN_CFG.SRC, 1)] {}; t.inv = true ∧ t.rd CLK_ALN_CFG.SRC = 1 ∧ t.on CLK_STS.SYNC_MISSING = false) ∧
    (live.on CLK_STS.SYN_LOCK = false ∧ live.on CLK_STS.FREE_RUN = false) ∧
    (let t := s [(CLK_STS.SYN_LOCK, 1)] { released := true }; t.inv = true ∧ t.clk.released = true ∧ t.on CLK_STS.ALN_LOCK = false) ∧
    (let t := s run { released := true }; t.inv = true ∧ t.on CLK_STS.ALN_LOCK = true ∧ t.rd CLK_ALN_CFG.SRC = 1 ∧ t.rd CLK_SYNCOUT_CFG.MODE = 0) := by decide +kernel

/-- Hypotheses of grove pulses and the bridge. -/
theorem test_hyps_SynthesiserAlignerAndBridge_2 :
    let s := fun (l : List (RegFld × Nat)) (x : Clk) => { regs live l with clk := x }
    let run := [(CLK_STS.SYN_LOCK, 1), (CLK_STS.ALN_LOCK, 1), (CLK_ALN_CFG.SRC, 1)]
    let at_ := fun (e : Nat) => s run { tb := true, released := true, expect := some e }
    let x : Nat := 192 * (((at_ 0).at_ 5).atb) + 191
    (((s run { tb := true }).at_ 5).clk.expect = none ∧ (s run { tb := true }).inv = true) ∧
    ((at_ (x + 8)).inv = true ∧ ((at_ (x + 8)).at_ 5).clk.expect = some (x + 8) ∧ ((x : Int) - ((x + 8 : Nat) : Int)).natAbs ≤ (at_ (x + 8)).rd CLK_SYNC_TOL.TOL) ∧
    ((at_ (x + 9)).rd CLK_SYNC_TOL.TOL < ((x : Int) - ((x + 9 : Nat) : Int)).natAbs) ∧
    (let t := regs (at_ 0) [(CLK_ALN_CFG.TRACK, 0)]; t.inv = true ∧ t.on CLK_ALN_CFG.TRACK = false) ∧
    (∀ m < 3, (s [(CLK_SYNCOUT_CFG.MODE, m)] { tb := true }).inv = true ∧ (s [(CLK_SYNCOUT_CFG.MODE, m)] { tb := true }).on CLK_STS.ALN_LOCK = false) ∧
    (let t := s [(CLK_SYNCOUT_CFG.MODE, 1), (CLK_SYNCOUT_OFS.TICKS, 31999)] { tb := true }; t.inv = true ∧ t.atbRuns = true ∧
      t.rd CLK_SYNCOUT_OFS.TICKS < t.rd CLK_SYNCOUT_PERIOD.TICKS ∧ t.clk.lastOut = none) ∧
    (let t := s (run ++ [(CLK_SYNCOUT_CFG.MODE, 2)]) { tb := true, released := true }; t.inv = true ∧ t.on CLK_STS.ALN_LOCK = true ∧ t.rd CLK_ALN_CFG.SRC = 1 ∧
      t.rd CLK_SYNCOUT_CFG.MODE = 2 ∧ (t.at_ 5).clk.expect = none) ∧
    (∀ n < 4, open_ live (0x10080 + 16 * n) = true) ∧
    (let t := s run { tb := true, stopA := some 7 }; t.inv = true ∧ t.on CLK_STS.ALN_LOCK = true ∧ t.clk.stopK = none) ∧
    (let t := regs (s run { tb := true, stopA := some 7, stopK := some 0, xkPhase := 15624 }) [(LNK_CMP_CTRL.ARMED 63, 1)]; t.inv = true ∧ t.clk.xkOk = true ∧
      t.clk.xkPhase < 15625 ∧ t.on (LNK_CMP_CTRL.ARMED 63) = true ∧ t.rd64 (LNK_CMP_LO.reg 63) ≤ 7) := by decide +kernel

/-- Hypotheses of the RTC. -/
theorem test_hyps_RealTimeClockAndTimers :
    let s := fun (l : List (RegFld × Nat)) (x : Rtc) => { regs live l with rtc := x }
    (live.inv = true ∧ live.on RTC_CTRL.HALT = false ∧ live.clk.xkOk = true ∧ live.rtc.extra = 0 ∧ live.clk.xkPhase < 15625 ∧
      live.rtc.cal + 32768 + live.rtc.skip < 2 ^ 20) ∧
    ((s [] { extra := 32768 }).inv = true ∧ (s [] { extra := 32768 }).rtc.extra ≠ 0) ∧ (s [(RTC_CTRL.HALT, 1)] {}).on RTC_CTRL.HALT = true ∧
    (∀ r < 3, open_ live (RTC_SUBSEC.reg + 4 * r) = true ∧ open_ (live.wr RTC_STS.FROZEN 1) (RTC_SUBSEC.reg + 4 * r) = true) ∧
    ((live.wr RTC_STS.FROZEN 1).on RTC_STS.FROZEN = true ∧ live.on RTC_STS.FROZEN = false) ∧
    (open_ live RTC_CTRL.reg = true ∧ open_ live RTC_SEC_HI.reg = true ∧ open_ live RTC_ALARM_HI.reg = true ∧ open_ live RTC_ALARM_CTRL.reg = true ∧
      live.on PWR_WAKE_EN.RTC = false) ∧
    (let t := s [(RTC_ALARM_CTRL.ARMED, 1), (RTC_ALARM_LO.SEC, 5), (RTC_SEC_LO.SEC, 5)] {}; t.inv = true ∧ t.on RTC_ALARM_CTRL.ARMED = true ∧
      t.rd RTC_ALARM_LO.SEC + 2 ^ 32 * t.rd RTC_ALARM_HI.SEC ≤ rtcSeconds t) ∧
    (let t := { s [(RTC_ALARM_CTRL.ARMED, 1), (PWR_WAKE_EN.RTC, 1)] {} with pwr := { mode := 1 } }; t.inv = true ∧ t.on PWR_WAKE_EN.RTC = true ∧
      t.on RTC_ALARM_CTRL.ARMED = true ∧ t.rd RTC_ALARM_LO.SEC + 2 ^ 32 * t.rd RTC_ALARM_HI.SEC ≤ rtcSeconds t) ∧ live.on RTC_ALARM_CTRL.ARMED = false := by decide +kernel

/-- Hypotheses of timer 31, whose source is CLK_TB, alone in running. -/
theorem test_hyps_RealTimeClockAndTimers_2 :
    let s := fun (l : List (RegFld × Nat)) (x : Tmr) => { regs live ([(TIM_CTRL.EN 31, 1), (TIM_CFG.SRC 31, 1), (TIM_CMP1.CMP 31, 9), (TIM_TOP.TOP 31, 9)] ++ l) with tims := [(31, x)] }
    let alone := fun (t : State) => t.inv = true ∧ t.pwr.mode = 0 ∧ timSource t 31 = true ∧ (∀ j < 32, (t.on (TIM_CTRL.EN j) = true ↔ j = 31)) ∧
      (t.tmr 31).res < 2 ^ t.rd (TIM_CFG.PRE 31) ∧ t.clk.xkPhase < 15625
    (let t := s [] { extra := 3 }; t.inv = true ∧ t.on (TIM_CTRL.EN 31) = true ∧ 0 < (t.tmr 31).extra) ∧
    (let t := { s [(TIM_CNT.COUNT 31, 9)] {} with tims := [] }; alone t ∧ (t.tmr 31).extra = 0 ∧ t.rd (TIM_CNT.COUNT 31) ≤ timTop t 31) ∧
    (let t := { s [(TIM_CNT.COUNT 31, 8)] {} with tims := [] }; alone t ∧ t.rd (TIM_CNT.COUNT 31) < timCmp t 31 1 ∧ timCmp t 31 1 ≤ timTop t 31 ∧
      (∀ r < 3, open_ t (TIM_TOP.reg 31 + 4 * r) = true) ∧ open_ t (TIM_CTRL.reg 31) = true ∧ open_ t TIM_START.reg = true ∧ open_ t TIM_STOP.reg = true) ∧
    (let t := s [(TIM_TOP.TOP 31, 8)] {}; t.inv = true ∧ timTop t 31 < timCmp t 31 1) ∧ live.on (TIM_CTRL.EN 31) = false ∧ (∀ r < 3, open_ live (TIM_TOP.reg 31 + 4 * r) = true) := by
  decide +kernel

/-- Hypotheses of pulses, on the last channel. -/
theorem test_hyps_EventsBusesAndBiasGatesAct :
    let s := fun (l : List (RegFld × Nat)) (x : Evr) => { regs live l with evr := x }
    let pulse := fun (last : Nat) => s [(EVR_CH_CFG.EN 127, 1)] { pulses := [127], last := if last = 0 then [] else [(127, last)] }
    (live.inv = true ∧ 127 ∉ live.evr.pulses) ∧
    (let t := s [] { pulses := [127] }; t.inv = true ∧ 127 ∈ t.evr.pulses ∧ t.on (EVR_CH_CFG.EN 127) = false) ∧
    ((pulse 0).inv = true ∧ 127 ∈ (pulse 0).evr.pulses ∧ (pulse 0).on (EVR_CH_CFG.EN 127) = true ∧ sget (fun _ => 0) (pulse 0).evr.last 127 = 0 ∧
      (pulse 0).rd PWR_STS.STATE ≠ 2) ∧
    (sget (fun _ => 0) (pulse (192 * live.now + 70)).evr.last 127 ≠ 0 ∧ 192 * live.now + 191 + 1 = 192 * live.now + 70 + 122) ∧
    (sget (fun _ => 0) (pulse 69).evr.last 127 + 122 < 192 * live.now + 191 + 1) ∧
    (let t := regs (pulse 0) [(PWR_STS.STATE, 2), (PWR_WAKE_EN.EVT, 1), (PWR_WAKE_EN.EVT_CH, 127)]; t.inv = true ∧ t.rd PWR_STS.STATE = 2 ∧
      t.on PWR_WAKE_EN.EVT = true ∧ t.rd PWR_WAKE_EN.EVT_CH = 127 ∧ t.pwr.mode = 0) ∧
    (open_ live EVR_FIRE.reg = true ∧ open_ live (EVR_CH_CFG.reg 127) = true ∧ live.locked (EVR_CH_CFG.reg 127) = false ∧ live.on (PRT_EVG.EN (127 / 8)) = false) ∧
    (let t := s [(PRT_EVG.EN 15, 1)] {}; open_ t (EVR_CH_CFG.reg 127) = true ∧ t.on (PRT_EVG.EN (127 / 8)) = true) ∧
    (let t := s [(EVR_GPIO_DIR.OUT, 2 ^ 23)] {}; t.inv = true ∧ bitOn (t.rd EVR_GPIO_DIR.OUT) 23 = true) ∧
    (bitOn (live.rd EVR_GPIO_DIR.OUT) 23 = false ∧ bitOn (live.rd EVR_GPIO_IN.VAL) 23 = false) ∧
    (open_ live EVR_GPIO_SET.reg = true ∧ open_ live EVR_GPIO_CLR.reg = true) := by decide +kernel

/-- Hypotheses of the two-wire buses. -/
theorem test_hyps_EventsBusesAndBiasGatesAct_2 :
    let s := fun (l : List (RegFld × Nat)) => regs live l
    let mine := s [(TWA_CTRL.EN, 1), (TWA_CFG.ADDR, 127), (TWA_STS.PTR, 0x2FFF)]
    let busy := fun (w n r : Nat) => s [(TWB_CMD.BUSY, 1), (TWB_CMD.WLEN, w), (TWB_CMD.RLEN, n), (TWB_CMD.RETRY, r), (TWB_CTRL.EN, 1)]
    (open_ live TWB_CMD.reg = true ∧ live.on TWB_CMD.BUSY = false ∧ live.on TWB_STS.STUCK = false ∧ (s [(TWB_STS.STUCK, 1)]).on TWB_STS.STUCK = true) ∧
    (let t := s [(TWB_CTRL.EN, 1)]; open_ t TWB_CMD.reg = true ∧ t.on TWB_CTRL.EN = true ∧ bf (0x07202000 : Word) 8 6 = 32 ∧ bf (0x07202000 : Word) 16 6 = 32) ∧
    (mine.inv = true ∧ mine.on TWA_CTRL.EN = true ∧ mine.rd TWA_CFG.ADDR = 127 ∧ mine.pwr.mode = 0 ∧ mine.two.capture = none ∧ mine.two.ahead = none) ∧
    (let t := { mine with two := { mine.two with capture := some (0x2FFF / 4, 7#32) } }; t.inv = true ∧ t.two.capture = some (t.rd TWA_STS.PTR / 4, 7#32)) ∧
    (s [(TWA_CTRL.EN, 0)]).on TWA_CTRL.EN = false ∧
    ((256 * 0x23 + 0xFC) / 4096 = 2 ∧ (256 * 0x23 + 0xFC) % 4 = 0 ∧ (256 * 0x23 + 0xFC) % 4096 < 1024 ∧ (256 * 0x2F + 0xFE) / 4096 = 2 ∧ (256 * 0x2F + 0xFE) % 4 ≠ 3 ∧
      (256 * 0x30) / 4096 ≠ 1 ∧ (256 * 0x30) / 4096 ≠ 2) ∧
    ((busy 32 32 7).inv = true ∧ (busy 32 32 7).on TWB_CMD.BUSY = true ∧ (busy 32 32 7).rd TWB_CMD.WLEN = 32 ∧ (busy 32 32 7).rd TWB_CMD.RLEN = 32 ∧
      (busy 32 32 7).rd TWB_CMD.RETRY < 8 ∧ 7 ≤ (busy 32 32 7).rd TWB_CMD.RETRY) := by decide +kernel

/-- Hypotheses of the bias gates, at gate 7. -/
theorem test_hyps_EventsBusesAndBiasGatesAct_3 :
    let s := fun (l : List (RegFld × Nat)) => regs live l
    let g := fun (low high : Nat) => { s [(BIAS_G_STS.STATE 7, 3), (BIAS_G_LIM.OPEN_MA 7, 5)] with gates := [(7, { low := low, high := high })] }
    let asks := { s [(BIAS_G_STS.STATE 7, 1)] with pwr := { live.pwr with waiters := [⟨.bias 7, 0, 0, false⟩] } }
    (∀ st < 5, open_ (s [(BIAS_G_STS.STATE 7, st)]) (BIAS_G_CTRL.reg 7) = true ∧ (s [(BIAS_G_STS.STATE 7, st)]).rd (BIAS_G_STS.STATE 7) = st) ∧
    (let t := s [(BIAS_G_STS.STATE 7, 4), (BIAS_G_STS.HOLDOFF 7, 1)]; t.inv = true ∧ t.on (BIAS_G_STS.HOLDOFF 7) = true ∧ t.clk.xkOk = true ∧ t.clk.xkPhase < 15625) ∧
    (let t := { s [(BIAS_G_STS.STATE 7, 4), (BIAS_G_STS.HOLDOFF 7, 1)] with clk := { live.clk with xk := 3277 } }; t.inv = true ∧
      t.on (BIAS_G_STS.HOLDOFF 7) = true ∧ (t.gate 7).tripXk + 3277 - t.clk.xk = 0) ∧
    live.on (BIAS_G_STS.HOLDOFF 7) = false ∧ (asks.inv = true ∧ asks.waiterFits ⟨.bias 7, 0, 0, false⟩ = true) ∧
    ((g 99 0).inv = true ∧ 4 < (g 99 0).rd (BIAS_G_LIM.OPEN_MA 7) ∧ ((g 99 0).gate 7).low = 99 ∧ ((g 98 0).gate 7).low ≠ 99 ∧ (g 98 0).inv = true) ∧
    ((g 0 99).inv = true ∧ (g 0 99).rd (BIAS_G_LIM.OPEN_MA 7) ≤ 5 ∧ 99 ≤ ((g 0 99).gate 7).high ∧ ((g 0 98).gate 7).high < 99) ∧
    (let t := { live with clk := { live.clk with xkOk := false } }; t.inv = true ∧ t.clk.xkOk = false ∧ 0 < (t.gate 7).tripXk + 3277 - t.clk.xk) := by decide +kernel

/-- How many octets a number is written in. -/
theorem octets_length (n v : Nat) : (octets n v).length = n := by unfold octets; rw [List.length_map, List.length_range]

/-- A ledger operation of area B over a flash of some contents. -/
abbrev ledger (op : Nat) (flash : List Host.Cell) : State := { ledgerB op with flash := flash }

/-- Flash of a ledger device is plain. -/
theorem ledger_plain (op : Nat) (fl : List Host.Cell) (w : flashWf fl = true) : Flash.Plain (ledger op fl) := by
  have z : ∀ j < 8, (ledger op fl).on (FLC_OVL.EN j) = false := fun j hj => by
    have y : ∀ j < 8, (ledger 0 []).on (FLC_OVL.EN j) = false := by decide +kernel
    exact y j hj
  have c : ∀ c ∈ [(ledger op fl).nvm.copyA, (ledger op fl).nvm.copyB], c.spares = [] ∧ c.bad = [] := by
    intro c m; simp only [List.mem_cons, List.not_mem_nil, or_false] at m; rcases m with rfl | rfl <;> exact ⟨rfl, rfl⟩
  refine ⟨w, c, rfl, rfl, rfl, rfl, ⟨rfl, rfl⟩, fun sec => ?_⟩
  unfold overlay
  rw [List.any_eq_false]
  intro i hi
  simp [z i (List.mem_range.mp hi)]

/-- Octets read back from flash that they were put in. -/
theorem flashBytes_put {s : State} (h : Flash.Plain s) (d : List Byte) (a o n : Nat) (e : ∀ i (hi : i < d.length), sget (fun _ => (255 : Byte)) s.flash (a + i) = d[i])
    (hl : o + n ≤ d.length) : flashBytes s (a + o) n = (d.drop o).take n := by
  have f : flashBytes s (a + o) n = (List.range n).map (fun k => flashByte s (a + o + k)) := rfl
  rw [f]
  apply List.ext_getElem
  · rw [List.length_map, List.length_range, List.length_take, List.length_drop]; omega
  · intro i h1 h2
    have hi : i < n := by rwa [List.length_map, List.length_range] at h1
    rw [List.getElem_map, List.getElem_range, Flash.plain_byte h, Nat.add_assoc, e (o + i) (by omega), List.getElem_take, List.getElem_drop]

/-- A CRC-32C fits 32 bits. -/
theorem crc32c_lt (bs : List Byte) : crc32c bs < 2 ^ 32 := by
  have bit : ∀ c, c < 2 ^ 32 → crcBit 0x82F63B78 c < 2 ^ 32 := fun c h => by
    unfold crcBit; split
    · exact Nat.xor_lt_two_pow (by omega) (by decide)
    · omega
  have bits : ∀ (l : List Nat) c, c < 2 ^ 32 → l.foldl (fun x _ => crcBit 0x82F63B78 x) c < 2 ^ 32 := fun l => by
    induction l with
    | nil => exact fun _ h => h
    | cons _ l ih => exact fun c h => ih _ (bit c h)
  have byte : ∀ c (b : Byte), c < 2 ^ 32 → crcByte 0x82F63B78 c b < 2 ^ 32 := fun c b h => bits _ _ (Nat.xor_lt_two_pow h (by omega))
  have all : ∀ (l : List Byte) c, c < 2 ^ 32 → l.foldl (crcByte 0x82F63B78) c < 2 ^ 32 := fun l => by
    induction l with
    | nil => exact fun _ h => h
    | cons b l ih => exact fun c h => ih _ (byte c b h)
  exact Nat.xor_lt_two_pow (all bs _ (by decide)) (by decide)

/-- A number's four octets give it back. -/
theorem unoctets_octets (x : Nat) (h : x < 2 ^ 32) : unoctets (octets 4 x) = x := by
  show (BitVec.ofNat 8 (x / 256 ^ 0)).toNat + 256 * ((BitVec.ofNat 8 (x / 256 ^ 1)).toNat + 256 * ((BitVec.ofNat 8 (x / 256 ^ 2)).toNat +
    256 * ((BitVec.ofNat 8 (x / 256 ^ 3)).toNat + 256 * 0))) = x
  simp only [BitVec.toNat_ofNat]; omega

/-- A text followed by its CRC: the last word is the CRC of what stands before it. -/
theorem crc_last (rest : List Byte) (l : rest.length = 4092) :
    unoctets (((rest ++ octets 4 (crc32c rest)).drop 4092).take 4) = crc32c ((rest ++ octets 4 (crc32c rest)).take 4092) := by
  rw [List.drop_left' l, List.take_left' l, List.take_of_length_le (by rw [octets_length]), unoctets_octets _ (crc32c_lt rest)]

/-- A copy of an empty stream of area B, sealed under long slot 255. -/
def emptyCopy : List Byte :=
  let rest := [0x5247444C, 7, 1 + 256 + 65536 * 255, 0, 0, 0, 0, 0].flatMap (octets 4) ++ List.replicate 4060 0
  rest ++ octets 4 (crc32c rest)

/-- Both copies of area B hold the empty stream. -/
def copied : List Host.Cell := putFlash emptyCopy 0x1FBE000 (putFlash emptyCopy 0x1FBF000 [])

/-- The last word of a copy is its CRC. -/
theorem emptyCopy_crc : unoctets ((emptyCopy.drop 4092).take 4) = crc32c (emptyCopy.take 4092) := by
  unfold emptyCopy
  apply crc_last
  simp only [List.length_append, List.length_replicate, octets_length, List.flatMap_cons, List.flatMap_nil, List.length_nil, Nat.reduceAdd]

/-- The length of a copy. -/
theorem emptyCopy_length : emptyCopy.length = 4096 := by
  unfold emptyCopy
  simp only [List.length_append, List.length_replicate, octets_length, List.flatMap_cons, List.flatMap_nil, List.length_nil, Nat.reduceAdd]

/-- Where the two copies of a text stand in flash. -/
theorem twoCopies (d : List Byte) (l : d.length = 4096) (i : Nat) (hi : i < d.length) :
    sget (fun _ => (255 : Byte)) (putFlash d 0x1FBE000 (putFlash d 0x1FBF000 [])) (0x1FBE000 + i) = d[i] ∧
    sget (fun _ => (255 : Byte)) (putFlash d 0x1FBE000 (putFlash d 0x1FBF000 [])) (0x1FBF000 + i) = d[i] :=
  ⟨Flash.putFlash_in _ _ _ i (putFlash_wf _ _ _ rfl) hi,
    (Flash.putFlash_out _ _ _ _ (putFlash_wf _ _ _ rfl) (Or.inr (by rw [l]; omega))).trans (Flash.putFlash_in _ _ _ i rfl hi)⟩

/-- What the fields of ledger B's boot block are. -/
abbrev bootB : BootBlk := ⟨0, 5, 0, true, 1, (0x10000, 0x10000), (0x20000, 0x10000), 0x1FBC000, 0x1FBE000, 1, 255⟩

/-- Flash that holds the empty stream in both copies makes a READ whose copies are equal. -/
theorem emptyRead_ok (fl : List Host.Cell) (hw : flashWf fl = true)
    (e0 : ∀ i (hi : i < emptyCopy.length), sget (fun _ => (255 : Byte)) fl (0x1FBE000 + i) = emptyCopy[i]'hi)
    (e1 : ∀ i (hi : i < emptyCopy.length), sget (fun _ => (255 : Byte)) fl (0x1FBF000 + i) = emptyCopy[i]'hi) :
    let s := ledger 2 fl
    s.flc.boot = some bootB ∧ ldgArea s 2 = some 1 ∧ s.inv = true ∧ s.flc.ldg = some 2 ∧ ldgCheck s 2 = none ∧ winner s bootB 1 = some 0 ∧
      readSteps s bootB 1 = [] ∧ ldgEarly s 2 = none ∧ ldgWaits s 2 = false ∧ unitWork s 1 = none := by
  intro s
  have p : Flash.Plain s := ledger_plain 2 fl hw
  have l := emptyCopy_length
  have rd : ∀ a, (∀ i (hi : i < emptyCopy.length), sget (fun _ => (255 : Byte)) fl (a + i) = emptyCopy[i]'hi) → ∀ o n, o + n ≤ 4096 →
      flashBytes s (a + o) n = (emptyCopy.drop o).take n := fun a e o n h => flashBytes_put p _ a o n e (by rw [l]; exact h)
  have valid : ∀ a, (∀ i (hi : i < emptyCopy.length), sget (fun _ => (255 : Byte)) fl (a + i) = emptyCopy[i]'hi) →
      copyGen s a = 7 ∧ copyWord s a 12 = 0 ∧ copyValid s a 1 1 = true := by
    intro a e
    have w : ∀ o, o + 4 ≤ 4096 → copyWord s a o = unoctets ((emptyCopy.drop o).take 4) := fun o h => by
      unfold copyWord flashWord; rw [rd a e o 4 h]
    have g : copyGen s a = 7 := by unfold copyGen; rw [w 4 (by decide)]; decide +kernel
    have n : copyWord s a 12 = 0 := by rw [w 12 (by decide)]; decide +kernel
    have c : (copyStream s a 1).isSome = true := by
      unfold copyStream copyLong
      rw [n, w 8 (by decide)]
      have k : (s.lslot (unoctets ((emptyCopy.drop 8).take 4) / 65536 % 256)).state = 1 := by
        have z : ((ledger 2 []).lslot (unoctets ((emptyCopy.drop 8).take 4) / 65536 % 256)).state = 1 := by decide +kernel
        exact z
      simp only [k, show chunksOf 0 = 0 by decide, List.range_zero, List.map_nil, List.all_nil, and_self, if_true, Option.isSome_some]
    refine ⟨g, n, ?_⟩
    unfold copyValid headerOk
    rw [c, g, n, w 8 (by decide), w 0 (by decide), w 0x18 (by decide), w 0xFFC (by decide), rd a e 0x1C 0xFE0 (by decide)]
    have f := rd a e 0 0xFFC (by decide)
    rw [Nat.add_zero] at f
    rw [f]
    have o := Flash.plain_open p (a / 4096)
    simp only [List.range_one, List.all_cons, List.all_nil, Nat.add_zero, o, show chunksOf 0 = 0 by decide, Nat.le_refl, decide_true, Bool.true_or,
      Bool.not_false, Bool.and_true, List.drop_zero, emptyCopy_crc, beq_self_eq_true]
    decide +kernel
  obtain ⟨g0, n0, v0⟩ := valid 0x1FBE000 e0
  obtain ⟨g1, n1, v1⟩ := valid 0x1FBF000 e1
  have r : s.inv = true := by
    have z : (ledger 2 []).inv = true := by decide +kernel
    unfold State.inv at z ⊢
    simp only [Bool.and_eq_true] at z ⊢
    exact ⟨⟨⟨⟨z.1.1.1.1, z.1.1.1.2⟩, z.1.1.2⟩, hw⟩, z.2⟩
  have wn : winner s bootB 1 = some 0 := by
    unfold winner
    show (match copyValid s 0x1FBE000 1 1, copyValid s 0x1FBF000 1 1 with
      | true, true => some (if copyGen s 0x1FBE000 < copyGen s 0x1FBF000 then 1 else 0)
      | true, false => some 0 | false, true => some 1 | false, false => none) = _
    rw [v0, v1, g0, g1]; rfl
  have ar : ldgArea s 2 = some 1 := by
    have z : ldgArea (ledger 2 []) 2 = some 1 := by decide +kernel
    exact z
  have bt : s.flc.boot = some bootB := rfl
  have ok : areaOk bootB 1 = true := by decide
  have tm : s.sec.tamper = false := rfl
  have ey : ldgEarly s 2 = none := by
    unfold ldgEarly
    have sd : s.on TOP_START_STS.SEEDLING = false := by
      have z : (ledger 2 []).on TOP_START_STS.SEEDLING = false := by decide +kernel
      exact z
    rw [sd, ar, bt]
    simp only [ok, tm, Bool.false_eq_true, Bool.not_true, false_and, if_false]
  have wt : ldgWaits s 2 = false := by
    have z : (decide ((2 : Nat) ≠ 3) && !keyJobsRun (ledger 2 [])) = false ∧ (ledger 2 []).on FLC_STS.BANK_BUSY = false := by decide +kernel
    have k : keyJobsRun s = true := by have y : keyJobsRun (ledger 2 []) = true := by decide +kernel
                                       exact y
    have q : s.on FLC_STS.BANK_BUSY = false := z.2
    unfold ldgWaits
    rw [k, q]; rfl
  refine ⟨rfl, ar, r, rfl, ?_, wn, ?_, ey, wt, rfl⟩
  · unfold ldgCheck
    have ba : ldgBadArg s 2 bootB 1 = false := by
      unfold ldgBadArg
      rw [wn]
      show ((s.rd FLC_LDG_CFG.LONG == 0 || (s.lslot (s.rd FLC_LDG_CFG.LONG)).state != 1) || decide (0x200000 < s.rd FLC_LDG_MEM.OFFSET + copyWord s 0x1FBE000 12)) = false
      rw [n0]
      have z : (((ledger 2 []).rd FLC_LDG_CFG.LONG == 0 || ((ledger 2 []).lslot ((ledger 2 []).rd FLC_LDG_CFG.LONG)).state != 1) ||
        decide (0x200000 < (ledger 2 []).rd FLC_LDG_MEM.OFFSET + 0)) = false := by decide +kernel
      exact z
    rw [ey, ar, bt]
    simp only [ba, wn, Bool.false_eq_true, false_and, if_false, Option.isNone_some, and_false, Nat.reduceEqDiff]
  · unfold readSteps
    rw [wn]
    have cd : copiesDiffer s 0x1FBE000 0x1FBF000 1 = false := by
      unfold copiesDiffer
      have a := rd _ e0 0 4096 (by decide)
      have b := rd _ e1 0 4096 (by decide)
      rw [Nat.add_zero] at a b
      rw [Nat.mul_one, a, b, bne_self_eq_false]
    show (if copiesDiffer s 0x1FBE000 0x1FBF000 1 = true then _ else []) = []
    rw [cd]; rfl

/-- Hypotheses of a READ whose copies are equal. -/
theorem test_hyps_GraftFusesAndLedgerRunTheirOperations_5 :
    ∃ fl, let s := ledger 2 fl
      s.flc.boot = some bootB ∧ ldgArea s 2 = some 1 ∧ s.inv = true ∧ s.flc.ldg = some 2 ∧ ldgCheck s 2 = none ∧ winner s bootB 1 = some 0 ∧
        readSteps s bootB 1 = [] ∧ ldgEarly s 2 = none ∧ ldgWaits s 2 = false ∧ unitWork s 1 = none :=
  ⟨copied, emptyRead_ok copied (putFlash_wf _ _ _ (putFlash_wf _ _ _ rfl)) (fun i hi => (twoCopies _ emptyCopy_length i hi).1)
    (fun i hi => (twoCopies _ emptyCopy_length i hi).2)⟩

/-- Hypotheses of the resets. -/
theorem test_hyps_ResetsAndTheStart :
    let s := fun (l : List (RegFld × Nat)) (x : Start) => { regs live l with start := x }
    let mode := fun (m : Nat) => { live with pwr := { live.pwr with mode := m } }
    let c := { ctx0 1023 (SQ.OPCODE.put (0 : BitVec 512) 0x20) with stage := 1 }
    let vf := { live with hst := { live.hst with funcs := [(63, { on := true })] } }
    (live.inv = true ∧ live.pwr.mode = 0 ∧ live.flc.ldg = none ∧ live.flc.graft = none ∧ live.flc.fuse = none ∧ live.flc.op = none ∧ live.flc.resume = none) ∧
    ((mode 2).inv = true ∧ (mode 1).inv = true) ∧ (open_ live TOP_RESET.reg = true ∧ live.radioHeld = false ∧ live.pwr.req = none ∧ live.prt.resets = []) ∧
    (let t := { live with radioHeld := true }; open_ t TOP_RESET.reg = true ∧ t.radioHeld = true) ∧
    (let t := asked (hosted 5) c; t.inv = true ∧ t.ctx 16383 = some c ∧ t.hst.ctxs.all (fun p => decide (p.1 = 16383 → p.2 = c)) = true ∧ c.stage ≠ 2 ∧ c.dupOf = none ∧ c.header = none ∧
      nodeOrEngine t c = true ∧ (t.port c.port).closing = false) ∧
    (let t := { live with start := { glitchOff := true } }; t.inv = true ∧ t.start.glitchOff = true ∧ live.start.glitchOff = false) ∧
    (vf.inv = true ∧ (vf.func 63).on = true ∧ (vf.func 62).on = false) ∧
    (let t := s [(CLK_STS.SYN_LOCK, 1)] {}; t.inv = true ∧ t.on CLK_STS.SYN_LOCK = true ∧ t.on CLK_STS.FREE_RUN = false) ∧ live.on CLK_STS.SYN_LOCK = false ∧
    (let t := s [] { wdt := some 5, opened := true }; t.inv = true ∧ t.start.wdt = some 5 ∧ t.clk.xkOk = true ∧ t.pwr.mode ≠ 2 ∧ t.clk.xkPhase < 15625) ∧
    (live.start.wdt = none ∧ open_ live 0x220 = true ∧ (s [] { opened := true }).start.opened = true) := by decide +kernel

/-- Hypotheses of the boot's counter and of loads that pass or fail their second pass. -/
theorem test_hyps_ResetsAndTheStart_2 :
    let s := fun (l : List (RegFld × Nat)) (x : Start) => { regs live l with start := x }
    let j : LoadJob := ⟨0, 4096, 0, true, true, noHdr, []⟩
    let load := fun (x : Start) (j : LoadJob) => { live with start := x, flc := { live.flc with load := some j } }
    (∀ due ∈ [1, 3], let t := s [] { due := due }; t.inv = true ∧ t.start.held = false ∧ t.pwr.mode = 0 ∧ t.rd TOP_START_STS.COUNT < t.rd TOP_START_STS.LIMIT ∧
      chooseBoot t = none) ∧
    (let t := s [(TOP_START_STS.COUNT, 7), (TOP_START_STS.LIMIT, 7)] { due := 1 }; t.inv = true ∧ t.rd TOP_START_STS.LIMIT ≤ t.rd TOP_START_STS.COUNT) ∧
    (s [] { due := 0 }).start.due = 0 ∧
    (let t := load { due := 0 } j; t.inv = true ∧ imgStalls t 0 4096 = false ∧ t.clk.tb = true ∧ t.start.try_ = none) ∧
    (let t := load { due := 0 } { j with mode := 1 }; t.inv = true ∧ t.start.try_ = none) ∧
    (let t := { load { due := 0 } j with clk := { live.clk with tb := false } }; t.inv = true ∧ imgStalls t 0 4096 = false ∧ t.clk.tb = false) ∧
    (let t := load { due := 0, try_ := some ⟨1, none, true⟩, opened := true } j; t.inv = true ∧ t.start.try_ = some ⟨1, none, true⟩) ∧
    (let t := load { due := 0, try_ := some ⟨0, some 1, true⟩ } j
     let u := { t with flc := { t.flc with boot := some bootB } }
     u.inv = true ∧ u.start.try_ = some ⟨0, some 1, true⟩ ∧ u.flc.boot = some bootB ∧ bootWrites 0 bootB u ≠ []) ∧
    (let t := load { due := 2 } { j with mode := 3 }; t.inv = true ∧ t.start.due = 2) := by decide +kernel

/-- A section whose digest is right, and one whose digest is wrong, whatever the hash. -/
theorem test_hyps_ResetsAndTheStart_3 (s : State) :
    let j : LoadJob := ⟨0, 4096, 0, true, true, noHdr, []⟩
    let d := Config.sha384 (sectData s 0 4096 ⟨9, 2, 0, 384, 64, 0, []⟩)
    baseOrder [⟨9, 2, 0, 384, 64, 0, d ++ [0]⟩] = [⟨9, 2, 0, 384, 64, 0, d ++ [0]⟩] ∧ digestOk s j ⟨9, 2, 0, 384, 64, 0, d ++ [0]⟩ = false ∧
      digestOk s j ⟨9, 2, 0, 384, 64, 0, d⟩ = true := by
  refine ⟨rfl, ?_, ?_⟩
  · unfold digestOk
    rw [beq_eq_false_iff_ne]
    intro e
    have := congrArg List.length e
    rw [List.length_append] at this
    exact absurd this (by show ¬ (_ = _ + 1); exact fun h => absurd h (Nat.ne_of_lt (Nat.lt_succ_self _)))
  · unfold digestOk; exact beq_self_eq_true _

/-- A boot block that tries slot B first. -/
def trialBlock : List Byte := let d := bootOctets ⟨0, 5, 0, true, 1, (0x10000, 0x10000), (0x20000, 0x10000), 0x1FBC000, 0x1FBE000, 1, 255⟩; d ++ octets 4 (crc32c d)

/-- Its length. -/
theorem trialBlock_length : trialBlock.length = 4096 := by
  unfold trialBlock bootOctets
  simp only [List.length_append, List.length_replicate, octets_length, List.flatMap_cons, List.flatMap_nil, List.length_nil, Nat.reduceAdd]

/-- Its last word is its CRC. -/
theorem trialBlock_crc : unoctets ((trialBlock.drop 4092).take 4) = crc32c (trialBlock.take 4092) := by
  unfold trialBlock
  apply crc_last
  unfold bootOctets
  simp only [List.length_append, List.length_replicate, octets_length, List.flatMap_cons, List.flatMap_nil, List.length_nil, Nat.reduceAdd]

/-- A boot finds the boot block that flash holds in its first sector. -/
theorem boot_finds (fl : List Host.Cell) (hw : flashWf fl = true)
    (e : ∀ i (hi : i < trialBlock.length), sget (fun _ => (255 : Byte)) fl (0 + i) = trialBlock[i]'hi)
    (o : ∀ x, 4096 ≤ x → sget (fun _ => (255 : Byte)) fl x = 255) :
    let s : State := { live with flash := fl, start := { due := 1 } }
    s.inv = true ∧ s.start.due = 1 ∧ s.start.held = false ∧ s.pwr.mode = 0 ∧ s.rd TOP_START_STS.COUNT < s.rd TOP_START_STS.LIMIT ∧ chooseBoot s = some bootB ∧
      bootFirst bootB (s.rd TOP_START_STS.COUNT) = 1 := by
  intro s
  have hc : ∀ c ∈ [s.nvm.copyA, s.nvm.copyB], c.spares = [] ∧ c.bad = [] := by
    intro c m; simp only [List.mem_cons, List.not_mem_nil, or_false] at m; rcases m with rfl | rfl <;> exact ⟨rfl, rfl⟩
  have p : Flash.Plain s := by
    refine ⟨hw, hc, rfl, rfl, rfl, rfl, ⟨rfl, rfl⟩, fun sec => ?_⟩
    unfold overlay
    rw [List.any_eq_false]
    intro i hi
    have z : ∀ j < 8, live.on (FLC_OVL.EN j) = false := by decide +kernel
    have y : s.on (FLC_OVL.EN i) = false := z i (List.mem_range.mp hi)
    simp [y]
  have rd : ∀ o n, o + n ≤ 4096 → flashBytes s (0 + o) n = (trialBlock.drop o).take n := fun o n h =>
    flashBytes_put p _ 0 o n e (by rw [trialBlock_length]; exact h)
  have w : ∀ o, o + 4 ≤ 4096 → flashWord s (4096 * 0 + o) = unoctets ((trialBlock.drop o).take 4) := fun o h => by
    unfold flashWord; rw [Nat.mul_zero, rd o 4 h]
  have w0 : flashWord s (4096 * 1 + 0) = 0xFFFFFFFF := by
    have g : ∀ x, 4096 ≤ x → flashByte s x = 255 := fun x hx => by rw [Flash.plain_byte p]; exact o x hx
    show unoctets [flashByte s 4096, flashByte s 4097, flashByte s 4098, flashByte s 4099] = _
    rw [g 4096 (by decide), g 4097 (by decide), g 4098 (by decide), g 4099 (by decide)]; decide
  have f0 : bootFields s 0 = bootB := by
    unfold bootFields
    simp only [w 8 (by decide), w 12 (by decide), w 16 (by decide), w 20 (by decide), w 24 (by decide), w 28 (by decide), w 32 (by decide), w 36 (by decide),
      w 40 (by decide), w 44 (by decide)]
    decide +kernel
  have v0 : bootValid s 0 = true := by
    unfold bootValid
    rw [f0]
    have a := rd 0 0xFFC (by decide)
    rw [Nat.add_zero] at a
    simp only [Nat.mul_zero, rd 0x30 0xFCC (by decide), a, Flash.plain_open p]
    have w' : ∀ o, o + 4 ≤ 4096 → flashWord s (0 + o) = unoctets ((trialBlock.drop o).take 4) := fun o h => by rw [← w o h, Nat.mul_zero]
    simp only [w' 0 (by decide), w' 4 (by decide), w' 12 (by decide), w' 0xFFC (by decide), List.drop_zero, trialBlock_crc, beq_self_eq_true]
    decide +kernel
  have v1 : bootValid s 1 = false := by
    unfold bootValid
    dsimp only
    rw [w0]; simp
  refine ⟨?_, rfl, rfl, rfl, ?_, ?_, ?_⟩
  · have z : live.inv = true := by decide +kernel
    unfold State.inv at z ⊢
    simp only [Bool.and_eq_true] at z ⊢
    exact ⟨⟨⟨⟨z.1.1.1.1, z.1.1.1.2⟩, z.1.1.2⟩, hw⟩, z.2⟩
  · have z : live.rd TOP_START_STS.COUNT < live.rd TOP_START_STS.LIMIT := by decide +kernel
    exact z
  · unfold chooseBoot
    rw [v0, v1, f0]
  · have z : bootFirst bootB (live.rd TOP_START_STS.COUNT) = 1 := by decide +kernel
    exact z

/-- Hypotheses of a boot that finds a boot block. -/
theorem test_hyps_ResetsAndTheStart_4 :
    ∃ fl, let s : State := { live with flash := fl, start := { due := 1 } }
      s.inv = true ∧ s.start.due = 1 ∧ s.start.held = false ∧ s.pwr.mode = 0 ∧ s.rd TOP_START_STS.COUNT < s.rd TOP_START_STS.LIMIT ∧ chooseBoot s = some bootB ∧
        bootFirst bootB (s.rd TOP_START_STS.COUNT) = 1 :=
  ⟨putFlash trialBlock 0 [], boot_finds _ (putFlash_wf _ _ _ rfl) (fun i hi => Flash.putFlash_in _ _ _ i rfl hi)
    (fun x hx => Flash.putFlash_out _ _ _ _ rfl (Or.inr (by rw [trialBlock_length]; omega)))⟩

/-- Hypotheses of loads that begin: busy, in seedling mode, not accepted, stalled, and failing their first check (blank flash). -/
theorem test_hyps_ImagesLoadAndRegistersAreWritten :
    let l := fun (x : List (RegFld × Nat)) => regs live x
    let begun := fun (s : State) (mode : Nat) =>
      (({ (s.wr FLC_IMG_CTRL.MODE mode).wr FLC_IMG_CTRL.SRC 0 with
          flc := { s.flc with load := some ⟨mode, s.rd FLC_IMG_ADDR.ADDR, 0, true, false, noHdr, []⟩ } } : State).wr FLC_IMG_CTRL.BUSY 1).wr FLC_IMG_STS.STATE 1
    (let t := l [(FLC_IMG_CTRL.BUSY, 1)]; open_ t FLC_IMG_CTRL.reg = true ∧ t.on FLC_IMG_CTRL.BUSY = true) ∧
    (let t := l [(TOP_START_STS.SEEDLING, 1)]; open_ t FLC_IMG_CTRL.reg = true ∧ t.on FLC_IMG_CTRL.BUSY = false ∧ t.on TOP_START_STS.SEEDLING = true) ∧
    (∀ k ∈ [1, 3], let t := l [(FLC_IMG_STS.STATE, k)]; open_ t FLC_IMG_CTRL.reg = true ∧ t.on FLC_IMG_CTRL.BUSY = false ∧ t.on TOP_START_STS.SEEDLING = false ∧
      t.rd FLC_IMG_STS.STATE ≠ 0 ∧ t.rd FLC_IMG_STS.STATE ≠ 4) ∧
    (let t := l [(FLC_IMG_STS.STATE, 4)]; t.rd FLC_IMG_STS.STATE ≠ 3 ∧ t.rd FLC_IMG_STS.STATE ≠ 5) ∧
    (∀ p ∈ [(0, 0), (4, 0), (3, 1), (5, 1)], let t := l [(FLC_IMG_STS.STATE, p.1), (FLC_IMG_ADDR.ADDR, 4096)]
      open_ t FLC_IMG_CTRL.reg = true ∧ t.on FLC_IMG_CTRL.BUSY = false ∧ t.on TOP_START_STS.SEEDLING = false ∧ t.rd FLC_IMG_STS.STATE = p.1 ∧
      imgStalls (begun t p.2) 0 (t.rd FLC_IMG_ADDR.ADDR) = false ∧ (imgErr (begun t p.2) p.2 0 (t.rd FLC_IMG_ADDR.ADDR)).isSome = true) ∧
    (∀ p ∈ [(0, 0), (5, 1)], let t := l [(FLC_IMG_STS.STATE, p.1), (FLC_STS.BANK_BUSY, 1)]
      open_ t FLC_IMG_CTRL.reg = true ∧ t.on FLC_IMG_CTRL.BUSY = false ∧ t.rd FLC_IMG_STS.STATE = p.1 ∧
      imgStalls (begun t p.2) 0 (t.rd FLC_IMG_ADDR.ADDR) = true) := by decide +kernel

/-- Hypotheses of aborts, switches and reloads. -/
theorem test_hyps_ImagesLoadAndRegistersAreWritten_2 :
    let load := fun (s : State) (j : LoadJob) => { s with flc := { s.flc with load := some j } }
    let j := fun (mode : Nat) (left : List Sect) => (⟨mode, 4096, 0, true, true, noHdr, left⟩ : LoadJob)
    let x := fun (t : Nat) => (⟨9, t, 0, 384, 64, 0, []⟩ : Sect)
    let stuck := regs live [(FLC_STS.BANK_BUSY, 1)]
    (live.inv = true ∧ live.flc.load = none) ∧
    (let t := load live (j 0 []); open_ t FLC_IMG_CTRL.reg = true ∧ t.flc.load.any (fun j => j.mode == 1) = false ∧ (j 0 []).mode ≠ 1 ∧ (j 0 []).mode ≠ 2) ∧
    (∀ k ∈ [2, 7], let t := load live (j 1 [x k]); open_ t FLC_IMG_CTRL.reg = true ∧ t.flc.load = some (j 1 [x k]) ∧ imgStalls t 0 4096 = false ∧
      (x k).typ ≠ 6 ∧ (x k).typ ≠ 3) ∧
    (let y : Sect := ⟨9, 3, 0, 384, 0, 0, []⟩
     let t := load (regs live [(PRT_ENG.OWNER 63, 5), (PRT_ENG.EN 63, 1), (stateF 63, 1)]) (j 1 [y])
     t.inv = true ∧ t.flc.load = some (j 1 [y]) ∧ imgStalls t 0 4096 = false ∧ mapChangesIdle t (applySect 0 0 y (sectData t 0 4096 y) t) = false) ∧
    (let t := load live (j 1 [x 6, x 7]); t.inv = true ∧ t.flc.load = some (j 1 [x 6, x 7]) ∧ imgStalls t 0 4096 = false) ∧
    (let t := load stuck (j 1 [x 7]); t.inv = true ∧ imgStalls t 0 4096 = true) ∧ (let t := load stuck (j 2 []); t.inv = true ∧ imgStalls t 0 4096 = true) ∧
    (let t := load live { j 1 [x 7] with checked := false }; t.inv = true) ∧ (let t := load live (j 1 []); t.inv = true) ∧
    (let t := load { live with clk := { live.clk with tb := false } } (j 2 []); t.inv = true ∧ t.clk.tb = false) ∧
    (let t := load live (j 2 []); t.inv = true ∧ t.clk.tb = true ∧ imgStalls t 0 4096 = false ∧ t.prt.resets = [] ∧ (imgErr t 2 0 4096).isSome = true) := by
  decide +kernel

/-- A section's digest is right, or wrong, whatever the hash. -/
theorem test_hyps_ImagesLoadAndRegistersAreWritten_3 (s : State) (k : Nat) :
    let j : LoadJob := ⟨1, 4096, 0, true, true, noHdr, []⟩
    let d := Config.sha384 (sectData s 0 4096 ⟨9, k, 0, 384, 64, 0, []⟩)
    digestOk s j ⟨9, k, 0, 384, 64, 0, d ++ [0]⟩ = false ∧ digestOk s j ⟨9, k, 0, 384, 64, 0, d⟩ = true := by
  refine ⟨?_, ?_⟩
  · unfold digestOk
    rw [beq_eq_false_iff_ne]
    intro e
    have := congrArg List.length e
    rw [List.length_append] at this
    exact absurd this (by show ¬ (_ = _ + 1); exact fun h => absurd h (Nat.ne_of_lt (Nat.lt_succ_self _)))
  · unfold digestOk; exact beq_self_eq_true _

/-- Hypotheses of register accesses, at the ends of the ranges they name. -/
theorem test_hyps_ImagesLoadAndRegistersAreWritten_4 :
    let vf := { live with hst := { live.hst with funcs := [(63, { on := true })] } }
    (live.inv = true ∧ ∀ n ∈ List.range 4, (live.core (64 + n)).stepping = false) ∧
    (let t := { live with pwr := { live.pwr with mode := 2 } }; t.inv = true ∧ inBar .pf 0x3FFFFFF = true ∧ t.pwr.mode ≠ 0) ∧
    (inBar (.vf 62) 0xFFFFF = true ∧ fnHere vf (.vf 62) = false) ∧
    (∀ o ∈ [0x90000, 0xFFFFF, 0x1400000, 0x1FFFFFF], inBar .pf o = true ∧ live.pwr.mode = 0 ∧ pfReserved o = true) ∧
    (let t := regs live [(TOP_START_STS.SEEDLING, 1)]; t.inv = true ∧ (∀ n ∈ List.range 4, (t.core (64 + n)).stepping = false) ∧ t.hidden .pf 0x10000 = true) ∧
    (∀ o ∈ [0, 0x8FFFF, 0x100000, 0x2000001], pfReserved o = false ∧ live.hidden .pf o = false) ∧
    (vf.inv = true ∧ vf.pwr.mode = 0 ∧ fnHere vf (.vf 63) = true ∧ inBar (.vf 63) 0xA8100 = true ∧ vfReserved 0xA8100 = true ∧ vfReserved 0xA8001 = false ∧
      ∀ n ∈ List.range 4, (vf.core (64 + n)).stepping = false) ∧
    (let t := regs live [(TWA_CTRL.LOCK, 1)]; t.inv = true ∧ t.on TOP_START_STS.SEEDLING = false ∧ t.on TWA_CTRL.LOCK = true) ∧
    live.on TOP_START_STS.SEEDLING = false ∧ live.on TWA_CTRL.LOCK = false := by decide +kernel

end Sys2Proof.Tests
end

/-! The trunk's architecture: an idle step, and the boot that keeps a boot block flash no longer holds. -/

namespace Sys2Proof.Machine

/-! ## Idle steps (R19) -/

/-- Time passes by what is asked for. -/
@[simp] theorem elapse_now (n : Nat) (s : State) : (s.elapse n).now = s.now + n := by
  unfold State.elapse
  split
  · next h => rw [h, Nat.add_zero]
  · rfl

/-- The ATB counts every unit that passes while it runs (R19). -/
theorem elapse_atb (n : Nat) (s : State) : (s.elapse n).atb = if s.atbRuns then s.atb + n else s.atb := by
  unfold State.elapse
  split
  · next h => rw [h, Nat.add_zero, ite_self]
  · rfl

/-- A step on an empty queue is one unit of time. -/
theorem step_empty {s : State} (h : s.pending = []) : step s = .next (s.elapse 1) := by
  unfold step
  rw [h]

/-- What only time changes is named field by field. -/
theorem timeOnly_eq {s t : State} (h : timeOnly s t) :
    t = { s with regs := t.regs, tims := t.tims, rtc := t.rtc, now := t.now, atb := t.atb, clk := t.clk } := by
  obtain ⟨_, _, _, _, _, _, rfl⟩ := h
  rfl

/-- Settles O2: the step is `elapse 1`, whose clock, ATB and frame are those of every passing of time. -/
theorem emptyQueueLetsOneTickPass : Obligations.EmptyQueueLetsOneTickPass := by
  intro s hs
  exact ⟨s.elapse 1, step_empty hs, elapse_now 1 s, elapse_atb 1 s, timeOnly_eq (elapse_timeOnly 1 s), fun hi a ha => elapse_reg 1 a s hi ha⟩

/-! ## A boot that keeps its boot block (R323, R328, R368) -/

/-- What BOOT answers. -/
theorem exec_boot (l1 l2 : Bool) (s : State) : exec (.boot l1 l2) s = .next (boot l1 l2 s) := rfl

/-- The state of a boot that has counted its attempt and opened the record (R328 step 3). -/
def attempted (s : State) : State := openRecord ((closeRecord s).inc TOP_START_STS.COUNT)

/-- A boot that finds no valid boot block in flash loads the slots of the block in force, where there is one. -/
theorem bootFrom_block_in_force {l1 l2 : Bool} {s : State} {b : BootBlk} {count : Nat}
    (hk : (closeRecord s).rd TOP_START_STS.COUNT = count) (hc : count < (closeRecord s).rd TOP_START_STS.LIMIT)
    (hn : chooseBoot (attempted s) = none) (hb : (attempted s).flc.boot = some b) :
    bootFrom l1 l2 s = firstSlot b (bootFirst b count) l1 l2 (armWatchdog b ((attempted s).setStage 1)) := by
  subst hk
  unfold attempted at hn hb
  unfold bootFrom attempted
  simp only [Nat.not_le.mpr hc, if_false, hn, hb]

/-- A boot block with two slots and no ledger area. -/
def keptBlock : BootBlk := ⟨0, 5, 0, false, 1, (0x10000, 0x10000), (0x20000, 0x10000), 0, 0, 1, 255⟩

/-- A device whose return from DORMANT has failed its resume load: a boot is due (R368), the boot block of the start before is in force still,
and the flash has been erased. -/
def returnFailed : State := { State.reset with start := { due := 3 }, flc := { boot := some keptBlock } }

/-- Erased flash holds no boot block. -/
theorem returnFailed_chooses_none : chooseBoot returnFailed = none := by decide +kernel

/-- The boot is ready and below its limit of failed starts. -/
theorem returnFailed_ready :
    returnFailed.inv = true ∧ (returnFailed.start.due = 1 ∨ returnFailed.start.due = 3) ∧ returnFailed.start.held = false ∧
      returnFailed.pwr.mode = 0 ∧ returnFailed.rd TOP_START_STS.COUNT < returnFailed.rd TOP_START_STS.LIMIT := by decide +kernel

/-- `returnFailed` with its due start taken. -/
def returnFailedTaken : State := { returnFailed with start := { due := 0 } }

/-- The boot of `returnFailed` tries slot A of the kept block first. -/
theorem returnFailed_boot_tries_kept :
    boot true true returnFailed = firstSlot keptBlock 0 true true (armWatchdog keptBlock ((attempted returnFailedTaken).setStage 1)) := by
  have hboot : boot true true returnFailed = bootFrom true true returnFailedTaken := if_neg (by decide)
  rw [hboot]
  exact bootFrom_block_in_force (b := keptBlock) (count := 0) (by decide +kernel) (by decide +kernel) (by decide +kernel) (by decide +kernel)

/-- Neither slot of the kept block holds an image, so the boot ends with cause NO_IMAGE (3), not NO_BOOT_BLOCK (2). -/
theorem returnFailed_boot_no_image : (boot true true returnFailed).rd (TOP_MBOX.WORD 0) = 0x5EED0003 := by
  rw [returnFailed_boot_tries_kept]
  decide +kernel

/-- Refutes O59: where flash holds no valid boot block the statement has every boot enter seedling mode with cause NO_BOOT_BLOCK, but the
model's boot goes on from a block that is in force still. In `returnFailed` it tries that block's two slots and ends with NO_IMAGE. -/
theorem not_resetsAndTheStart : ¬ Obligations.ResetsAndTheStart := by
  intro h
  obtain ⟨hinv, hdue, hheld, hmode, hcount⟩ := returnFailed_ready
  obtain ⟨-, -, -, -, -, -, -, -, -, hboot, -⟩ := h .pf returnFailed hinv
  obtain ⟨t, ht, -, -, -, hnone, -⟩ := (hboot true true).2 ⟨hdue, hheld, hmode⟩
  obtain ⟨⟨-, hword, -⟩, -⟩ := hnone hcount returnFailed_chooses_none
  obtain rfl := Host.Outcome.next.inj ((exec_boot _ _ _).symm.trans ht)
  exact absurd (hword.symm.trans returnFailed_boot_no_image) (by decide)

end Sys2Proof.Machine

/-! The registers of the radio blocks: clears of counters (R68, R98), and what a field reads through the shared operations. -/

namespace Sys2Proof.Machine

/-! ## Clearing bits -/

/-- A bit of a number whose bits lo to lo + w - 1 are cleared. -/
theorem testBit_bfSet_zero {n : Nat} (x : BitVec n) (lo w i : Nat) (h : lo + w ≤ n) :
    (bfSet x lo w 0).toNat.testBit i = (x.toNat.testBit i && !(decide (lo ≤ i) && decide (i < lo + w))) := by
  have hl : x.toNat % 2 ^ lo < 2 ^ lo := Nat.mod_lt _ (Nat.two_pow_pos lo)
  have e : (bfSet x lo w 0).toNat = 2 ^ lo * (2 ^ w * (x.toNat / 2 ^ lo / 2 ^ w) + 0) + x.toNat % 2 ^ lo := by
    rw [bfSet_toNat x lo w 0 h, Nat.zero_mod]
    ring
  rw [e, Nat.testBit_two_pow_mul_add _ hl]
  split
  · next hi => simp [Nat.testBit_mod_two_pow, hi, Nat.not_le.mpr hi]
  · next hi =>
    rw [Nat.testBit_two_pow_mul_add _ (Nat.two_pow_pos w)]
    split
    · next hw =>
      have : i < lo + w := by omega
      simp [this, Nat.le_of_not_lt hi]
    · next hw =>
      have hn : ¬i < lo + w := by omega
      have hs : i - lo - w + w + lo = i := by omega
      simp [hn, Nat.testBit_div_two_pow, hs]

/-- Field bits are zero exactly where the number's bits are. -/
theorem bf_eq_zero_iff {n : Nat} (x : BitVec n) (lo w : Nat) : bf x lo w = 0 ↔ ∀ i, i < w → x.toNat.testBit (i + lo) = false := by
  unfold bf
  constructor
  · intro h i hi
    have := congrArg (·.testBit i) h
    simpa [Nat.testBit_mod_two_pow, Nat.testBit_div_two_pow, hi] using this
  · intro h
    refine Nat.eq_of_testBit_eq fun i => ?_
    rw [Nat.testBit_mod_two_pow, Nat.testBit_div_two_pow, Nat.zero_testBit]
    by_cases hi : i < w
    · simp [h i hi]
    · simp [hi]

/-- Clearing some bits leaves a field that is zero at zero. -/
theorem bf_bfSet_zero {n : Nat} (x : BitVec n) (lo w lo' w' : Nat) (h : lo + w ≤ n) (hz : bf x lo' w' = 0) :
    bf (bfSet x lo w 0) lo' w' = 0 := by
  rw [bf_eq_zero_iff] at hz ⊢
  intro i hi
  rw [testBit_bfSet_zero x lo w _ h, hz i hi, Bool.false_and]

/-! ## What differs in registers alone -/

theorem onlyRegs_refl (s : State) (as : List Nat) : onlyRegs s s as := ⟨rfl, fun _ _ => rfl⟩

theorem onlyRegs_trans {s t u : State} {as bs : List Nat} (a : onlyRegs s t as) (b : onlyRegs t u bs) : onlyRegs s u (as ++ bs) := by
  refine ⟨?_, fun x hx => ?_⟩
  · rw [b.1, a.1]
  · rw [List.mem_append, not_or] at hx
    exact (b.2 x hx.2).trans (a.2 x hx.1)

theorem onlyRegs_sub {s t : State} {as bs : List Nat} (a : onlyRegs s t as) (h : as ⊆ bs) : onlyRegs s t bs :=
  ⟨a.1, fun x hx => a.2 x (fun y => hx (h y))⟩

theorem wr_onlyRegs (s : State) (f : RegFld) (v : Nat) (h : s.inv = true) : onlyRegs s (s.wr f v) [f.addr] :=
  ⟨rfl, fun _ hx => reg_wr_other s f v _ (List.ne_of_not_mem_cons hx) h⟩

/-- A field reads as before where its register does. -/
theorem rd_of_reg {s t : State} {f : RegFld} (h : t.reg f.addr = s.reg f.addr) : t.rd f = s.rd f := by
  unfold State.rd
  rw [h]

theorem onlyRegs_rd {s t : State} {as : List Nat} (a : onlyRegs s t as) {f : RegFld} (hf : f.addr ∉ as) : t.rd f = s.rd f :=
  rd_of_reg (a.2 _ hf)

/-! ## Fields set to zero -/

/-- A field that is zero stays zero when any field is cleared. -/
theorem rd_wr_zero {s : State} {f g : RegFld} (h : s.inv = true) (hg : g.lo + g.w ≤ 32) (hz : s.rd f = 0) : (s.wr g 0).rd f = 0 := by
  by_cases ha : f.addr = g.addr
  · unfold State.rd State.wr at *
    rw [ha, reg_setReg_same _ _ _ (inv_regs h)]
    exact bf_bfSet_zero _ _ _ _ _ hg (ha ▸ hz)
  · rw [rd_wr_other s g f 0 ha h, hz]

theorem inv_zero {s : State} (h : s.inv = true) (fs : List RegFld) : (s.zero fs).inv = true := kept_inv (kept_zero s fs (kept_refl h))

theorem rd_zero_zero {f : RegFld} : ∀ (fs : List RegFld) (s : State), s.inv = true → (∀ g ∈ fs, g.lo + g.w ≤ 32) → s.rd f = 0 →
    (s.zero fs).rd f = 0
  | [], _, _, _, hz => hz
  | g :: gs, s, h, hw, hz =>
    rd_zero_zero gs (s.wr g 0) (inv_wr h g 0) (fun x hx => hw x (List.mem_cons_of_mem _ hx)) (rd_wr_zero h (hw g List.mem_cons_self) hz)

/-- Fields set to zero read zero, also where they share registers, and nothing else changes. -/
theorem zero_clears_all : ∀ (fs : List RegFld) (s : State), s.inv = true → (∀ f ∈ fs, f.lo + f.w ≤ 32) → clears s (s.zero fs) fs
  | [], s, _, _ => ⟨fun _ hf => absurd hf List.not_mem_nil, onlyRegs_refl s _⟩
  | f :: fs, s, h, hw => by
    have hf := hw f List.mem_cons_self
    have hfs : ∀ g ∈ fs, g.lo + g.w ≤ 32 := fun g hg => hw g (List.mem_cons_of_mem _ hg)
    obtain ⟨hz, ho⟩ := zero_clears_all fs (s.wr f 0) (inv_wr h f 0) hfs
    refine ⟨fun g hg => ?_, onlyRegs_trans (wr_onlyRegs s f 0 h) ho⟩
    rcases List.mem_cons.mp hg with rfl | hg
    · exact rd_zero_zero fs _ (inv_wr h g 0) hfs (by rw [rd_wr_same s g 0 hf h, Nat.zero_mod])
    · exact hz g hg

/-! ## A range of registers dropped -/

/-- A table reads what an unlisted key reads as inside a range dropped, and as before outside it. -/
theorem sget_sdrop {α : Type} [DecidableEq α] (d : Nat → α) (lo hi x : Nat) : ∀ (m : Sparse α) (b : Nat), swfFrom d b m = true →
    sget d (sdrop m lo hi) x = if lo ≤ x ∧ x < hi then d x else sget d m x
  | [], _, _ => by simp [sdrop, sget]
  | (j, v) :: m, b, h => by
    simp only [swfFrom, Bool.and_eq_true, decide_eq_true_eq] at h
    have ih := sget_sdrop d lo hi x m (j + 1) h.2
    by_cases hj : lo ≤ j ∧ j < hi
    · have e : sdrop ((j, v) :: m) lo hi = sdrop m lo hi := by simp [sdrop, hj]
      rw [e, ih]
      by_cases hx : lo ≤ x ∧ x < hi
      · rw [if_pos hx, if_pos hx]
      · have hn : x ≠ j := fun c => hx (c ▸ hj)
        rw [if_neg hx, if_neg hx, sget, if_neg hn]
        split
        · next hl => exact sget_below d m _ _ h.2 (by omega)
        · rfl
    · have e : sdrop ((j, v) :: m) lo hi = (j, v) :: sdrop m lo hi := by
        unfold sdrop
        rw [List.filter_cons_of_pos (by simp; omega)]
      rw [e, sget, sget, ih]
      split
      · next hx => rw [hx, if_neg hj]
      · split
        · next => rw [ite_self]
        · rfl

/-- Registers after a range was dropped: reset values inside, as before outside. -/
theorem reg_sdrop (s : State) (lo hi a : Nat) (h : s.inv = true) :
    ({ s with regs := sdrop s.regs lo hi } : State).reg a = if lo ≤ a ∧ a < hi then regReset a else s.reg a :=
  sget_sdrop regReset lo hi a s.regs 0 (inv_regs h)

/-- No repetition of a register row lies in [lo, hi). -/
def RegRow.outside (r : RegRow) (lo hi : Nat) : Bool :=
  decide (hi ≤ r.addr) || match r.dims with
    | [] => decide (r.addr < lo)
    | (n, st) :: _ => decide (0 < st) && decide (r.addr + n * st ≤ lo)

/-- An address in a range that a row lies outside of is none of its repetitions. -/
theorem RegRow.outside_misses {r : RegRow} {lo hi a : Nat} (h : r.outside lo hi = true) (hlo : lo ≤ a) (hhi : a < hi) :
    (decide (r.addr ≤ a) && dimsHit r.dims (a - r.addr)) = false := by
  unfold RegRow.outside at h
  rw [Bool.or_eq_true, decide_eq_true_eq] at h
  rcases h with h | h
  · have : ¬r.addr ≤ a := by omega
    simp [this]
  · split at h
    · next hd =>
      have : a - r.addr ≠ 0 := by
        rw [decide_eq_true_eq] at h
        omega
      simp [hd, dimsHit, this]
    · next n st ds hd =>
      rw [Bool.and_eq_true, decide_eq_true_eq, decide_eq_true_eq] at h
      have : ¬(a - r.addr) / st < n := by
        rw [Nat.div_lt_iff_lt_mul h.1]
        omega
      simp [hd, dimsHit, this]

/-- A register resets to zero where every row of its block does or lies elsewhere. -/
theorem regReset_zero {lo hi a : Nat} (ha : a ≠ 0) (hlo : lo ≤ a) (hhi : a < hi)
    (h : ∀ r ∈ blockRows a, rowReset r = 0 ∨ r.outside lo hi = true) : regReset a = 0 := by
  unfold regReset
  rw [if_neg ha]
  split
  · next r hr =>
    rcases h r (List.mem_of_find?_eq_some hr) with h | h
    · exact h
    · have hit := List.find?_some (p := fun r : RegRow => decide (r.addr ≤ a) && dimsHit r.dims (a - r.addr)) hr
      exact absurd ((RegRow.outside_misses h hlo hhi).symm.trans hit) Bool.false_ne_true
  · rfl

/-- The points' detection counters reset to zero (R68). -/
theorem regReset_PT_DET {a : Nat} (hlo : CNP_PT_DET.reg 0 ≤ a) (hhi : a < CNP_PT_DET.reg 2048) : regReset a = 0 := by
  have rows : ∀ r ∈ rowsCNP0 ++ rowsCNP1, rowReset r = 0 ∨ r.outside (CNP_PT_DET.reg 0) (CNP_PT_DET.reg 2048) = true := by decide
  refine regReset_zero (by unfold CNP_PT_DET.reg at hlo; omega) hlo hhi ?_
  unfold CNP_PT_DET.reg at hlo hhi
  have hb : blockRows a = rowsCNP0 ++ rowsCNP1 := by
    unfold blockRows
    repeat rw [if_neg (by omega)]
    rw [if_pos (by omega)]
  rwa [hb]

/-! ## The counters of the radio blocks -/

/-- A register command that reaches its register has its effect. -/
theorem p0Only_reaches {s : State} {f : Fn} {off : Nat} (h : reaches s f off) (t : State) : s.p0Only f off t = t := by
  obtain ⟨hm, hf, ht, hh⟩ := h
  unfold State.p0Only
  rw [if_neg (by simp [hm, hf]), if_neg (by simp [ht]), if_neg (by simp [hh])]

/-- A command that reaches its register and sets fields to zero clears them and changes nothing else. -/
theorem p0Only_zero_clears {s : State} {f : Fn} {off : Nat} {fs : List RegFld} {o : Host.Outcome State Fault Refusal} (h : s.inv = true)
    (hr : reaches s f off) (hw : ∀ g ∈ fs, g.lo + g.w ≤ 32) (ho : o = .next (s.p0Only f off (s.zero fs))) :
    ∃ t, o = .next t ∧ clears s t fs :=
  ⟨s.zero fs, by rw [ho, p0Only_reaches hr], zero_clears_all fs s h hw⟩

/-- CNP_CNT_CLR.POINTS (R68). -/
theorem cnpCntClrPoints_clears {s : State} {f : Fn} (h : s.inv = true) (hr : reaches s f CNP_CNT_CLR.reg) :
    ∃ t, exec (.cnpCntClrPoints f) s = .next t ∧ (∀ p, p < 2048 → t.rd (CNP_PT_DET.COUNT p) = 0) ∧ t = { s with regs := t.regs } ∧
      ∀ a, a < CNP_PT_DET.reg 0 ∨ CNP_PT_DET.reg 2048 ≤ a → t.reg a = s.reg a := by
  have hreg := fun a => reg_sdrop s (CNP_PT_DET.reg 0) (CNP_PT_DET.reg 2048) a h
  refine ⟨_, congrArg Host.Outcome.next (p0Only_reaches hr _), fun p hp => ?_, rfl, fun a ha => ?_⟩
  · have hlo : CNP_PT_DET.reg 0 ≤ CNP_PT_DET.reg p := by unfold CNP_PT_DET.reg; omega
    have hhi : CNP_PT_DET.reg p < CNP_PT_DET.reg 2048 := by unfold CNP_PT_DET.reg; omega
    unfold State.rd
    rw [show (CNP_PT_DET.COUNT p).addr = CNP_PT_DET.reg p from rfl, hreg, if_pos ⟨hlo, hhi⟩, regReset_PT_DET hlo hhi]
    simp [bf]
  · rw [hreg, if_neg (by omega)]

/-- LNE_CNT_CLR.BLOCK: the counters are cleared beside the minimum free count, which takes the present one (R98). -/
theorem lneCntClrBlock_clears {s : State} {fs : List RegFld} (h : s.inv = true) (hw : ∀ g ∈ fs, g.lo + g.w ≤ 32)
    (hm : LNE_POOL_MIN.reg ∉ fs.map (·.addr)) (v : Nat) : clears (s.wr LNE_POOL_MIN.MIN_FREE v) ((s.zero fs).wr LNE_POOL_MIN.MIN_FREE v) fs := by
  obtain ⟨hz, hx, ho⟩ := zero_clears_all fs s h hw
  have hi := inv_zero h fs
  refine ⟨fun g hg => ?_, ?_, fun a ha => ?_⟩
  · rw [rd_wr_other _ _ _ _ (fun e => hm (List.mem_map.mpr ⟨g, hg, e⟩)) hi]
    exact hz g hg
  · conv_lhs => rw [hx]
    rfl
  · by_cases e : a = LNE_POOL_MIN.reg
    · subst e
      have e1 := reg_setReg_same (s.zero fs) LNE_POOL_MIN.reg (bfSet ((s.zero fs).reg LNE_POOL_MIN.reg) 0 10 v) (inv_regs hi)
      have e2 := reg_setReg_same s LNE_POOL_MIN.reg (bfSet (s.reg LNE_POOL_MIN.reg) 0 10 v) (inv_regs h)
      exact e1.trans ((congrArg (bfSet · 0 10 v) (ho _ ha)).trans e2.symm)
    · rw [reg_wr_other _ _ _ _ e hi, reg_wr_other _ _ _ _ e h, ho a ha]

/-- The lane block's counters of partition p are cleared and its peak is its present use (R98). -/
def lanePartCleared (s t : State) (p : Nat) : Prop :=
  (∀ k, k < 7 → t.rd (LNE_PCNT.COUNT p k) = 0) ∧ t.rd (LNE_PSTS.PEAK p) = s.rd (LNE_PSTS.IN_USE p) ∧
    t.rd (LNE_PSTS.IN_USE p) = s.rd (LNE_PSTS.IN_USE p)

/-- The lane block's registers that a clear of partition p writes. -/
def lanePartRegs (p : Nat) : List Nat := LNE_PSTS.reg p :: (List.range 7).map (LNE_PCNT.reg p)

theorem mem_lanePartRegs {p a : Nat} : a ∈ lanePartRegs p ↔ a = LNE_PSTS.reg p ∨ ∃ k, k < 7 ∧ LNE_PCNT.reg p k = a := by
  simp [lanePartRegs]

/-- Two partitions share no register of the lane block. -/
theorem lanePartRegs_disjoint {p q a : Nat} (hp : p < 64) (hq : q < 64) (hn : p ≠ q) (h : a ∈ lanePartRegs p) : a ∉ lanePartRegs q := by
  rw [mem_lanePartRegs] at h ⊢
  unfold LNE_PSTS.reg LNE_PCNT.reg at *
  rintro (e | ⟨k, hk, e⟩) <;> rcases h with e' | ⟨j, hj, e'⟩ <;> omega

theorem inv_clearLanePart {s : State} (h : s.inv = true) (p : Nat) : (clearLanePart s p).inv = true :=
  kept_inv (kept_clearLanePart s p (kept_refl h))

/-- Clearing one partition. -/
theorem clearLanePart_clears {s : State} {p : Nat} (h : s.inv = true) (hp : p < 64) :
    lanePartCleared s (clearLanePart s p) p ∧ onlyRegs s (clearLanePart s p) (lanePartRegs p) := by
  have hw : ∀ g ∈ (List.range 7).map (LNE_PCNT.COUNT p), g.lo + g.w ≤ 32 := by simp [LNE_PCNT.COUNT]
  obtain ⟨hz, ho⟩ := zero_clears_all _ s h hw
  have hi := inv_zero h ((List.range 7).map (LNE_PCNT.COUNT p))
  have hu : s.rd (LNE_PSTS.IN_USE p) < 2 ^ 10 := bf_lt _ _ _
  have hsts : LNE_PSTS.reg p ∉ ((List.range 7).map (LNE_PCNT.COUNT p)).map (·.addr) := by
    simp only [List.map_map, List.mem_map, List.mem_range, not_exists, not_and, Function.comp_apply]
    intro k _ e
    simp only [LNE_PCNT.COUNT, LNE_PCNT.reg, LNE_PSTS.reg] at e
    omega
  unfold clearLanePart
  refine ⟨⟨fun k hk => ?_, ?_, ?_⟩, onlyRegs_sub (onlyRegs_trans ho (wr_onlyRegs _ _ _ hi)) fun a ha => ?_⟩
  · have hne : LNE_PCNT.reg p k ≠ LNE_PSTS.reg p := by
      unfold LNE_PCNT.reg LNE_PSTS.reg
      omega
    rw [rd_wr_other _ _ _ _ hne hi]
    exact hz _ (List.mem_map.mpr ⟨k, List.mem_range.mpr hk, rfl⟩)
  · exact (rd_wr_same _ (LNE_PSTS.PEAK p) _ (Nat.le_of_ble_eq_true rfl) hi).trans (Nat.mod_eq_of_lt hu)
  · exact (rd_wr_beside _ (LNE_PSTS.PEAK p) (LNE_PSTS.IN_USE p) _ (Nat.le_of_ble_eq_true rfl) rfl (.inl (Nat.le_of_ble_eq_true rfl)) hi).trans
      (onlyRegs_rd ho hsts)
  · rw [mem_lanePartRegs]
    simpa [LNE_PCNT.COUNT, LNE_PSTS.PEAK, or_comm] using ha

/-- Clearing one partition after another. -/
theorem foldl_clearLanePart_clears (ps : List Nat) (s : State) (h : s.inv = true) (hlt : ∀ p ∈ ps, p < 64) (hn : ps.Nodup) :
    (∀ p ∈ ps, lanePartCleared s (ps.foldl clearLanePart s) p) ∧ onlyRegs s (ps.foldl clearLanePart s) (ps.flatMap lanePartRegs) := by
  induction ps generalizing s with
  | nil => exact ⟨fun _ hp => absurd hp List.not_mem_nil, onlyRegs_refl s _⟩
  | cons p ps ih =>
    rw [List.nodup_cons] at hn
    rw [List.foldl_cons, List.flatMap_cons]
    have hp := hlt p List.mem_cons_self
    have hlt' : ∀ q ∈ ps, q < 64 := fun q hq => hlt q (List.mem_cons_of_mem _ hq)
    obtain ⟨⟨hcnt, hpeak, huse⟩, hone⟩ := clearLanePart_clears h hp
    obtain ⟨hps, hrest⟩ := ih (clearLanePart s p) (inv_clearLanePart h p) hlt' hn.2
    have keeps : ∀ g : RegFld, g.addr ∈ lanePartRegs p → (ps.foldl clearLanePart (clearLanePart s p)).rd g = (clearLanePart s p).rd g := by
      refine fun g hg => onlyRegs_rd hrest fun hm => ?_
      obtain ⟨q, hq, hqr⟩ := List.mem_flatMap.mp hm
      exact lanePartRegs_disjoint hp (hlt' q hq) (fun e => hn.1 (e ▸ hq)) hg hqr
    refine ⟨fun q hq => ?_, onlyRegs_trans hone hrest⟩
    have hsts : ∀ r, LNE_PSTS.reg r ∈ lanePartRegs r := fun _ => mem_lanePartRegs.mpr (.inl rfl)
    rcases List.mem_cons.mp hq with e | hq
    · rw [e]
      refine ⟨fun k hk => ?_, (keeps (LNE_PSTS.PEAK p) (hsts p)).trans hpeak, (keeps (LNE_PSTS.IN_USE p) (hsts p)).trans huse⟩
      exact (keeps (LNE_PCNT.COUNT p k) (mem_lanePartRegs.mpr (.inr ⟨k, hk, rfl⟩))).trans (hcnt k hk)
    · obtain ⟨hc, hk, hu⟩ := hps q hq
      have hs : (clearLanePart s p).rd (LNE_PSTS.IN_USE q) = s.rd (LNE_PSTS.IN_USE q) :=
        onlyRegs_rd hone (lanePartRegs_disjoint (hlt' q hq) hp (fun e => hn.1 (e ▸ hq)) (hsts q))
      exact ⟨hc, hk.trans hs, hu.trans hs⟩

/-- LNE_CNT_CLR.PART (R98). -/
theorem lneCntClrPart_clears {s : State} {f : Fn} (h : s.inv = true) (hr : reaches s f LNE_CNT_CLR.reg) :
    ∃ t, exec (.lneCntClrPart f) s = .next t ∧ (∀ p k, p < 64 → k < 7 → t.rd (LNE_PCNT.COUNT p k) = 0) ∧
      (∀ p, p < 64 → t.rd (LNE_PSTS.PEAK p) = s.rd (LNE_PSTS.IN_USE p) ∧ t.rd (LNE_PSTS.IN_USE p) = s.rd (LNE_PSTS.IN_USE p)) ∧
      onlyRegs s t ((List.range 64).flatMap lanePartRegs) := by
  obtain ⟨hall, ho⟩ := foldl_clearLanePart_clears (List.range 64) s h (fun _ => List.mem_range.mp) List.nodup_range
  refine ⟨_, congrArg Host.Outcome.next (p0Only_reaches hr _), fun p k hp hk => ?_, fun p hp => ?_, ho⟩
  · exact (hall p (List.mem_range.mpr hp)).1 k hk
  · exact (hall p (List.mem_range.mpr hp)).2

/-- Settles O8: the clears of each block set their group's fields to zero, drop a range of registers that resets to zero, or clear one
partition after another; fields that share a register stay zero through one another's clear. -/
theorem radioCounterClearsClearExactlyTheirCounters : Obligations.RadioCounterClearsClearExactlyTheirCounters := by
  refine fun f s h => ⟨fun hr => ⟨?_, cnpCntClrPoints_clears h hr, ?_⟩, fun hr => ⟨?_, lneCntClrPart_clears h hr, ?_⟩,
    fun hr => ⟨?_, ?_⟩, fun hr => ⟨?_, ?_, ?_⟩⟩
  case refine_3 =>
    have hm := inv_zero h [LNE_CNT_GRANT.COUNT, LNE_CNT_EXHAUST.COUNT, LNE_CNT_REFUSED.COUNT, LNE_CNT_PAIRLOSS.COUNT, LNE_CNT_SFDTO.COUNT,
      LNE_CNT_HDRFAIL.COUNT, LNE_CNT_FCSFAIL.COUNT, LNE_CNT_HANDED.COUNT, LNE_CNT_DLVDROP_SH.COUNT]
    refine ⟨_, congrArg Host.Outcome.next (p0Only_reaches hr _), ?_, lneCntClrBlock_clears h (by decide) (by decide) _⟩
    rw [rd_wr_same _ _ _ (by decide) hm]
    exact Nat.mod_eq_of_lt (bf_lt _ _ _)
  all_goals exact p0Only_zero_clears h hr (by decide +kernel) rfl

end Sys2Proof.Machine

/-! The canopy: what raised events, taint, blindness and a move of an attenuation change (R57-R62). -/

namespace Sys2Proof.Machine

/-! ## Masks of the eight antennas -/

theorem bitOn_eq_bf {m k : Nat} (hm : m < 256) : bitOn m k = (bf (BitVec.ofNat 8 m) k 1 == 1) := by
  unfold bitOn bf
  rw [BitVec.toNat_ofNat, Nat.mod_eq_of_lt hm, Nat.pow_one]

/-- Setting a bit of a mask of eight is replacing a field of one bit. -/
theorem bitSet_eq_bfSet {m k : Nat} (hm : m < 256) (hk : k < 8) : bitSet m k = (bfSet (BitVec.ofNat 8 m) k 1 1).toNat := by
  rw [bfSet_toNat _ k 1 1 (by omega), BitVec.toNat_ofNat, Nat.mod_eq_of_lt hm]
  have hs := split_field m k 1
  have hb : m / 2 ^ k % 2 < 2 := Nat.mod_lt _ (by decide)
  unfold bitSet bitOn
  split
  · next h =>
    rw [beq_iff_eq] at h
    rw [Nat.pow_one, h] at hs
    simpa using hs
  · next h =>
    have h0 : m / 2 ^ k % 2 = 0 := by
      rw [beq_iff_eq] at h
      omega
    rw [Nat.pow_one, h0] at hs
    simp only [Nat.pow_one, Nat.one_mod]
    omega

/-- Clearing a bit is replacing it by zero. -/
theorem bitClr_eq_bfSet {m k : Nat} (hm : m < 256) (hk : k < 8) : bitClr m k = (bfSet (BitVec.ofNat 8 m) k 1 0).toNat := by
  rw [bfSet_toNat _ k 1 0 (by omega), BitVec.toNat_ofNat, Nat.mod_eq_of_lt hm]
  have hs := split_field m k 1
  have hb : m / 2 ^ k % 2 < 2 := Nat.mod_lt _ (by decide)
  unfold bitClr bitOn
  split
  · next h =>
    rw [beq_iff_eq] at h
    rw [Nat.pow_one, h] at hs
    simp only [Nat.pow_one, Nat.zero_mod]
    omega
  · next h =>
    have h0 : m / 2 ^ k % 2 = 0 := by
      rw [beq_iff_eq] at h
      omega
    rw [Nat.pow_one, h0] at hs
    simpa using hs

theorem bitSet_lt {m k : Nat} (hm : m < 256) (hk : k < 8) : bitSet m k < 256 :=
  bitSet_eq_bfSet hm hk ▸ (bfSet (BitVec.ofNat 8 m) k 1 1).isLt

theorem bitClr_lt {m k : Nat} (hm : m < 256) (hk : k < 8) : bitClr m k < 256 :=
  bitClr_eq_bfSet hm hk ▸ (bfSet (BitVec.ofNat 8 m) k 1 0).isLt

theorem bitOn_bitSet_same {m k : Nat} (hm : m < 256) (hk : k < 8) : bitOn (bitSet m k) k = true := by
  rw [bitOn_eq_bf (bitSet_lt hm hk), bitSet_eq_bfSet hm hk, BitVec.ofNat_toNat, BitVec.setWidth_eq, bf_bfSet_same _ _ _ _ (by omega)]
  rfl

theorem bitOn_bitSet_other {m k j : Nat} (hm : m < 256) (hk : k < 8) (hj : j ≠ k) : bitOn (bitSet m k) j = bitOn m j := by
  rw [bitOn_eq_bf (bitSet_lt hm hk), bitOn_eq_bf hm, bitSet_eq_bfSet hm hk, BitVec.ofNat_toNat, BitVec.setWidth_eq,
    bf_bfSet_other _ _ _ _ _ _ (by omega) (by omega)]

theorem bitOn_bitSet_of_on {m k j : Nat} (hm : m < 256) (hk : k < 8) (hj : bitOn m j = true) : bitOn (bitSet m k) j = true := by
  by_cases e : j = k
  · rw [e]
    exact bitOn_bitSet_same hm hk
  · rwa [bitOn_bitSet_other hm hk e]

theorem bitOn_bitClr_same {m k : Nat} (hm : m < 256) (hk : k < 8) : bitOn (bitClr m k) k = false := by
  rw [bitOn_eq_bf (bitClr_lt hm hk), bitClr_eq_bfSet hm hk, BitVec.ofNat_toNat, BitVec.setWidth_eq, bf_bfSet_same _ _ _ _ (by omega)]
  rfl

theorem bitOn_bitClr_other {m k j : Nat} (hm : m < 256) (hk : k < 8) (hj : j ≠ k) : bitOn (bitClr m k) j = bitOn m j := by
  rw [bitOn_eq_bf (bitClr_lt hm hk), bitOn_eq_bf hm, bitClr_eq_bfSet hm hk, BitVec.ofNat_toNat, BitVec.setWidth_eq,
    bf_bfSet_other _ _ _ _ _ _ (by omega) (by omega)]

/-! ## Events -/

/-- A register below the host block lies outside the pending-bit array. -/
theorem noPba_of_lt {a : Nat} (h : a < 0x900000) : noPba a := .inl (by unfold HST_PBA.reg; omega)

theorem raisedOnly_rd {s t : State} {as : List Nat} (a : raisedOnly s t as) {f : RegFld} (hf : f.addr ∉ as) (hp : noPba f.addr) :
    t.rd f = s.rd f := rd_of_reg (a.2 _ hf hp)

/-- Raising an event writes its bit and no other of the block's event status. -/
theorem raise_evt_reg {s : State} {c b r : Nat} (h : s.inv = true) (e : evtReg c = some r) : (s.raise c b).reg r = (s.wr ⟨r, b, 1⟩ 1).reg r := by
  unfold State.raise
  rw [e]
  dsimp only
  rw [evtEdge_reg _ _ _ (inv_blockEvent (inv_wr h _ _) _) (noPba_evt e), blockEvent_reg]

/-- A set event stays set when another is raised. -/
theorem flagged_raise_of_flagged {s : State} {c b k : Nat} (h : s.inv = true) (hb : b < 32) (hk : flagged s c k) : flagged (s.raise c b) c k := by
  obtain ⟨r, e, hr⟩ := hk
  refine ⟨r, e, ?_⟩
  rw [rd_of_reg (f := ⟨r, k, 1⟩) (raise_evt_reg h e)]
  by_cases ekb : k = b
  · rw [ekb]
    exact rd_wr_same s ⟨r, b, 1⟩ 1 (Nat.succ_le_of_lt hb) h
  · rw [rd_wr_beside s ⟨r, b, 1⟩ ⟨r, k, 1⟩ 1 (Nat.succ_le_of_lt hb) rfl (by dsimp only; omega) h]
    exact hr

/-- Events are kept where the event status is. -/
theorem flagged_of_reg {s t : State} {k : Nat} (h : t.reg CNP_EVT_STS.reg = s.reg CNP_EVT_STS.reg) (hk : flagged s 1 k) : flagged t 1 k := by
  obtain ⟨r, e, hr⟩ := hk
  obtain rfl : CNP_EVT_STS.reg = r := Option.some.inj e
  exact ⟨_, e, (rd_of_reg h).trans hr⟩

/-! ## Blindness (R62) -/

theorem blindF_addr (b : Nat) : (blindF b).addr = CNP_STS.reg := by
  unfold blindF
  split <;> rfl

theorem blindF_fits (b : Nat) : (blindF b).lo + (blindF b).w ≤ 32 := by
  unfold blindF
  split <;> decide

/-- Blindness follows the taint in its flag, its count and its events. -/
theorem blindCheck_raisedOnly {s : State} (h : s.inv = true) (b : Nat) :
    raisedOnly s (blindCheck b s) [CNP_STS.reg, CNP_BLIND_CNT.reg, CNP_EVT_STS.reg] := by
  have hflag : ∀ v, raisedOnly s (s.wr (blindF b) v) [CNP_STS.reg] := fun v => blindF_addr b ▸ wr_raisedOnly s (blindF b) v h
  unfold blindCheck
  dsimp only
  split
  · split
    · exact raisedOnly_refl _ _
    · have h1 := inv_wr h (blindF b) 1
      have hcnt : ∀ f : RegFld, f.addr = CNP_BLIND_CNT.reg → raisedOnly (s.wr (blindF b) 1) ((s.wr (blindF b) 1).inc f) [CNP_BLIND_CNT.reg] :=
        fun f e => e ▸ wr_raisedOnly _ f _ h1
      refine raisedOnly_trans (raisedOnly_trans (hflag 1) (hcnt _ ?_)) (raise_raisedOnly _ 1 (1 + b) _ (inv_inc h1 _) rfl)
      split <;> rfl
  · exact raisedOnly_sub (hflag 0) (by simp)

theorem blindCheck_flagged {s : State} {b k : Nat} (h : s.inv = true) (hb : b < 2) (hk : flagged s 1 k) : flagged (blindCheck b s) 1 k := by
  have hkeep : ∀ v, flagged (s.wr (blindF b) v) 1 k :=
    fun v => flagged_of_reg (reg_wr_other _ _ _ _ (by rw [blindF_addr]; decide) h) hk
  unfold blindCheck
  dsimp only
  split
  · split
    · exact hk
    · have h1 := inv_wr h (blindF b) 1
      refine flagged_raise_of_flagged (inv_inc h1 _) (by omega) (flagged_of_reg (reg_wr_other _ _ _ _ ?_ h1) (hkeep 1))
      split <;> decide
  · exact hkeep 0

/-- A slice with an enabled antenna that is not tainted is not blind. -/
theorem blindCheck_clear {s : State} {b n : Nat} (h : s.inv = true) (hn : n < 8) (hen : antEnabled s n = true)
    (ht : bitOn (s.rd (taintNowF b)) n = false) : (blindCheck b s).rd (blindF b) = 0 := by
  have hall : ((List.range 8).filter (antEnabled s)).all (fun n => bitOn (s.rd (taintNowF b)) n) = false := by
    rw [List.all_eq_false]
    exact ⟨n, List.mem_filter.mpr ⟨List.mem_range.mpr hn, hen⟩, by simp [ht]⟩
  unfold blindCheck
  dsimp only
  rw [hall, Bool.and_false, if_neg Bool.false_ne_true, rd_wr_same _ _ _ (blindF_fits b) h, Nat.zero_mod]

/-! ## Taint intervals (R59, R60) -/

/-- Some interval of antenna n and slice b covers [lo, hi). -/
def covered (ts : List Taint) (n b lo hi : Nat) : Prop := ∃ x ∈ ts, x.ant = n ∧ x.slice = b ∧ x.lo ≤ lo ∧ hi ≤ x.hi

theorem foldl_min_le (f : Taint → Nat) : ∀ (l : List Taint) (m : Nat),
    l.foldl (fun m t => min m (f t)) m ≤ m ∧ ∀ t ∈ l, l.foldl (fun m t => min m (f t)) m ≤ f t
  | [], m => ⟨Nat.le_refl m, fun _ h => absurd h List.not_mem_nil⟩
  | x :: l, m => by
    obtain ⟨hm, hl⟩ := foldl_min_le f l (min m (f x))
    refine ⟨hm.trans (Nat.min_le_left _ _), fun t ht => ?_⟩
    rcases List.mem_cons.mp ht with rfl | ht
    · exact hm.trans (Nat.min_le_right _ _)
    · exact hl t ht

theorem le_foldl_max (f : Taint → Nat) : ∀ (l : List Taint) (m : Nat),
    m ≤ l.foldl (fun m t => max m (f t)) m ∧ ∀ t ∈ l, f t ≤ l.foldl (fun m t => max m (f t)) m
  | [], m => ⟨Nat.le_refl m, fun _ h => absurd h List.not_mem_nil⟩
  | x :: l, m => by
    obtain ⟨hm, hl⟩ := le_foldl_max f l (max m (f x))
    refine ⟨(Nat.le_max_left _ _).trans hm, fun t ht => ?_⟩
    rcases List.mem_cons.mp ht with rfl | ht
    · exact (Nat.le_max_right _ _).trans hm
    · exact hl t ht

/-- An interval that merges with [lo, hi) of antenna n and slice b. -/
def taintMeets (n b lo hi : Nat) (t : Taint) : Bool := t.ant == n && t.slice == b && decide (t.lo ≤ hi) && decide (lo ≤ t.hi)

theorem mergeTaint_eq (ts : List Taint) (n b lo hi : Nat) :
    mergeTaint ts n b lo hi = ts.filter (fun t => !taintMeets n b lo hi t) ++
      [⟨n, b, (ts.filter (taintMeets n b lo hi)).foldl (fun m t => min m t.lo) lo,
        (ts.filter (taintMeets n b lo hi)).foldl (fun m t => max m t.hi) hi⟩] :=
  rfl

/-- A merged interval covers the new one. -/
theorem mergeTaint_covers (ts : List Taint) (n b lo hi : Nat) : covered (mergeTaint ts n b lo hi) n b lo hi :=
  ⟨_, List.mem_append_right _ List.mem_cons_self, rfl, rfl, (foldl_min_le Taint.lo _ lo).1, (le_foldl_max Taint.hi _ hi).1⟩

/-- Merging keeps what was covered. -/
theorem covered_mergeTaint {ts : List Taint} {m c lo' hi' : Nat} (n b lo hi : Nat) (h : covered ts m c lo' hi') :
    covered (mergeTaint ts n b lo hi) m c lo' hi' := by
  obtain ⟨x, hx, ha, hs, hlo, hhi⟩ := h
  rw [mergeTaint_eq]
  cases hm : taintMeets n b lo hi x with
  | true =>
    have hw : x ∈ ts.filter (taintMeets n b lo hi) := List.mem_filter.mpr ⟨hx, hm⟩
    simp only [taintMeets, Bool.and_eq_true, beq_iff_eq] at hm
    exact ⟨_, List.mem_append_right _ List.mem_cons_self, hm.1.1.1.symm.trans ha, hm.1.1.2.symm.trans hs,
      ((foldl_min_le Taint.lo _ lo).2 x hw).trans hlo, hhi.trans ((le_foldl_max Taint.hi _ hi).2 x hw)⟩
  | false => exact ⟨x, List.mem_append_left _ (List.mem_filter.mpr ⟨hx, by rw [hm]; rfl⟩), ha, hs, hlo, hhi⟩

/-- What ends less than 65,536 ticks ago is not forgotten. -/
theorem longPast_recent {s : State} {t : Nat} (h : s.atb < t + 65536) : longPast s t = false := by
  unfold longPast
  rw [decide_eq_false (by omega), Bool.false_and]

/-- Dropping what is long past keeps what was covered until recently. -/
theorem covered_recent {s : State} {m c lo hi : Nat} (h : covered s.cnp.taints m c lo hi) (hr : s.atb < hi + 65536) :
    covered (s.cnp.taints.filter (fun t => !longPast s t.hi)) m c lo hi := by
  obtain ⟨x, hx, ha, hs, hlo, hhi⟩ := h
  exact ⟨x, List.mem_filter.mpr ⟨hx, by rw [longPast_recent (by omega)]; rfl⟩, ha, hs, hlo, hhi⟩

/-! ## The present taint of a slice -/

theorem taintNowF_addr (b : Nat) : (taintNowF b).addr = CNP_TAINT_NOW.reg := by
  unfold taintNowF
  split <;> rfl

theorem taintNowF_w (b : Nat) : (taintNowF b).w = 8 := by
  unfold taintNowF
  split <;> rfl

theorem taintNowF_fits (b : Nat) : (taintNowF b).lo + (taintNowF b).w ≤ 32 := by
  unfold taintNowF
  split <;> decide

theorem rd_taintNowF_lt (s : State) (b : Nat) : s.rd (taintNowF b) < 256 := by
  have := bf_lt (s.reg (taintNowF b).addr) (taintNowF b).lo (taintNowF b).w
  rwa [show 2 ^ (taintNowF b).w = 256 from congrArg (2 ^ ·) (taintNowF_w b)] at this

theorem rd_wr_taintNowF_same {s : State} {b v : Nat} (h : s.inv = true) (hv : v < 256) : (s.wr (taintNowF b) v).rd (taintNowF b) = v := by
  rw [rd_wr_same _ _ _ (taintNowF_fits b) h, taintNowF_w]
  exact Nat.mod_eq_of_lt hv

theorem rd_wr_taintNowF_other {s : State} {b c v : Nat} (h : s.inv = true) (hb : b < 2) (hc : c < 2) (hn : c ≠ b) :
    (s.wr (taintNowF b) v).rd (taintNowF c) = s.rd (taintNowF c) := by
  refine rd_wr_beside _ _ _ _ (taintNowF_fits b) (by rw [taintNowF_addr, taintNowF_addr]) ?_ h
  have : b = 0 ∧ c = 1 ∨ b = 1 ∧ c = 0 := by omega
  rcases this with ⟨rfl, rfl⟩ | ⟨rfl, rfl⟩ <;> decide

/-- Blindness does not touch the present taint. -/
theorem blindCheck_rd_taintNowF {s : State} (h : s.inv = true) (b c : Nat) : (blindCheck b s).rd (taintNowF c) = s.rd (taintNowF c) :=
  raisedOnly_rd (blindCheck_raisedOnly h b) (by rw [taintNowF_addr]; decide) (by rw [taintNowF_addr]; exact noPba_of_lt (by decide))

/-! ## Adding taint -/

/-- The registers that taint and blindness write. -/
def taintRegs : List Nat := [CNP_TAINT_NOW.reg, CNP_STS.reg, CNP_BLIND_CNT.reg, CNP_EVT_STS.reg]

/-- What adding taint can change: taint, the lanes' record of it, blindness and its events, which leave set events set. -/
structure TaintStep (s t : State) : Prop where
  frame : t = { s with regs := t.regs, vregs := t.vregs, posted := t.posted, evr := t.evr, lanes := t.lanes,
                       cnp := { s.cnp with taints := t.cnp.taints } }
  reg : ∀ a, a ∉ taintRegs → noPba a → t.reg a = s.reg a
  event : ∀ k, flagged s 1 k → flagged t 1 k

theorem TaintStep.trans {s t u : State} (a : TaintStep s t) (b : TaintStep t u) : TaintStep s u where
  frame := by rw [b.frame, a.frame]
  reg x hx hp := (b.reg x hx hp).trans (a.reg x hx hp)
  event k hk := b.event k (a.event k hk)

theorem TaintStep.atb {s t : State} (a : TaintStep s t) : t.atb = s.atb := by rw [a.frame]

theorem TaintStep.cnp {s t : State} (a : TaintStep s t) : t.cnp = { s.cnp with taints := t.cnp.taints } := by rw [a.frame]

/-- A field of the antennas' registers reads as before. -/
theorem TaintStep.rd {s t : State} (a : TaintStep s t) {f : RegFld} (hf : f.addr ∉ taintRegs) (hp : f.addr < 0x900000) : t.rd f = s.rd f :=
  rd_of_reg (a.reg _ hf (noPba_of_lt hp))

theorem inv_addTaint {s : State} (h : s.inv = true) (n b lo hi : Nat) : (addTaint n b lo hi s).inv = true :=
  kept_inv (kept_addTaint n b lo hi s (kept_refl h))

/-- The state in which a new taint has been noted, before blindness follows. -/
def taintNoted (n b lo hi : Nat) (s : State) : State :=
  let u := taintLanes { s with cnp := { s.cnp with taints := mergeTaint (s.cnp.taints.filter (fun t => !longPast s t.hi)) n b lo hi } } n b lo hi
  u.wr (taintNowF b) (bitSet (s.rd (taintNowF b)) n)

theorem addTaint_eq (n b lo hi : Nat) (s : State) : addTaint n b lo hi s = blindCheck b (taintNoted n b lo hi s) := rfl

theorem inv_taintNoted {s : State} (h : s.inv = true) (n b lo hi : Nat) : (taintNoted n b lo hi s).inv = true := inv_wr h _ _

theorem addTaint_step {s : State} {b : Nat} (h : s.inv = true) (hb : b < 2) (n lo hi : Nat) : TaintStep s (addTaint n b lo hi s) := by
  have hi' := inv_taintNoted h n b lo hi
  obtain ⟨hf, hr⟩ := blindCheck_raisedOnly hi' b
  have hnoted : ∀ a, a ≠ CNP_TAINT_NOW.reg → (taintNoted n b lo hi s).reg a = s.reg a :=
    fun a ha => reg_wr_other _ _ _ _ (by rwa [taintNowF_addr]) h
  rw [addTaint_eq]
  refine ⟨?_, fun a ha hp => ?_, fun k hk => ?_⟩
  · rw [hf]
    rfl
  · simp only [taintRegs, List.mem_cons, not_or] at ha
    exact (hr a (by simp only [List.mem_cons, not_or]; exact ha.2) hp).trans (hnoted a ha.1)
  · exact blindCheck_flagged hi' hb (flagged_of_reg (hnoted _ (by decide)) hk)

theorem addTaint_taints {s : State} (h : s.inv = true) (n b lo hi : Nat) :
    (addTaint n b lo hi s).cnp.taints = mergeTaint (s.cnp.taints.filter (fun t => !longPast s t.hi)) n b lo hi :=
  congrArg (fun u : State => u.cnp.taints) (blindCheck_raisedOnly (inv_taintNoted h n b lo hi) b).1

theorem addTaint_now_same {s : State} {n : Nat} (h : s.inv = true) (hn : n < 8) (b lo hi : Nat) :
    (addTaint n b lo hi s).rd (taintNowF b) = bitSet (s.rd (taintNowF b)) n :=
  (blindCheck_rd_taintNowF (inv_taintNoted h n b lo hi) b b).trans (rd_wr_taintNowF_same h (bitSet_lt (rd_taintNowF_lt s b) hn))

theorem addTaint_now_other {s : State} {b c : Nat} (h : s.inv = true) (hb : b < 2) (hc : c < 2) (hne : c ≠ b) (n lo hi : Nat) :
    (addTaint n b lo hi s).rd (taintNowF c) = s.rd (taintNowF c) :=
  (blindCheck_rd_taintNowF (inv_taintNoted h n b lo hi) b c).trans (rd_wr_taintNowF_other h hb hc hne)

/-- Added taint taints. -/
theorem addTaint_tainted {s : State} {n : Nat} (h : s.inv = true) (hn : n < 8) (b lo hi : Nat) : tainted (addTaint n b lo hi s) n b lo hi := by
  refine ⟨?_, ?_⟩
  · rw [addTaint_taints h]
    exact mergeTaint_covers _ n b lo hi
  · rw [addTaint_now_same h hn]
    exact bitOn_bitSet_same (rd_taintNowF_lt s b) hn

/-- What is tainted until recently stays tainted when taint is added. -/
theorem tainted_addTaint {s : State} {n b m c lo' hi' : Nat} (h : s.inv = true) (hn : n < 8) (hb : b < 2) (hc : c < 2)
    (ht : tainted s m c lo' hi') (hr : s.atb < hi' + 65536) (lo hi : Nat) : tainted (addTaint n b lo hi s) m c lo' hi' := by
  obtain ⟨hcov, hbit⟩ := ht
  refine ⟨?_, ?_⟩
  · rw [addTaint_taints h]
    exact covered_mergeTaint n b lo hi (covered_recent hcov hr)
  · by_cases e : c = b
    · rw [e, addTaint_now_same h hn]
      exact bitOn_bitSet_of_on (rd_taintNowF_lt s b) hn (e ▸ hbit)
    · rwa [addTaint_now_other h hb hc e]

/-- Taint of an antenna on both slices. -/
theorem addTaint_both {s : State} {n : Nat} (h : s.inv = true) (hn : n < 8) (lo hi : Nat → Nat) :
    TaintStep s ([0, 1].foldl (fun u b => addTaint n b (lo b) (hi b) u) s) ∧
      (s.atb < hi 0 + 65536 → ∀ b, b < 2 → tainted ([0, 1].foldl (fun u b => addTaint n b (lo b) (hi b) u) s) n b (lo b) (hi b)) := by
  have h0 := inv_addTaint h n 0 (lo 0) (hi 0)
  have first := addTaint_step h (b := 0) (by decide) n (lo 0) (hi 0)
  refine ⟨first.trans (addTaint_step h0 (by decide) n (lo 1) (hi 1)), fun hr b hb => ?_⟩
  have : b = 0 ∨ b = 1 := by omega
  rcases this with rfl | rfl
  · exact tainted_addTaint h0 hn (by decide) (by decide) (addTaint_tainted h hn 0 _ _) (by rwa [first.atb]) _ _
  · exact addTaint_tainted h0 hn 1 _ _

/-! ## A step of the attenuation (R57, R60) -/

theorem stepOnly_refl (s : State) (as : List Nat) : stepOnly s s as := ⟨rfl, fun _ _ _ _ => rfl⟩

theorem stepOnly_trans {s t u : State} {as bs : List Nat} (a : stepOnly s t as) (b : stepOnly t u bs) : stepOnly s u (as ++ bs) := by
  refine ⟨?_, fun x hx ht hp => ?_⟩
  · rw [b.1, a.1]
  · rw [List.mem_append, not_or] at hx
    exact (b.2 x hx.2 ht hp).trans (a.2 x hx.1 ht hp)

theorem stepOnly_sub {s t : State} {as bs : List Nat} (a : stepOnly s t as) (h : as ⊆ bs) : stepOnly s t bs :=
  ⟨a.1, fun x hx => a.2 x (fun y => hx (h y))⟩

theorem TaintStep.stepOnly {s t : State} (a : TaintStep s t) : stepOnly s t [] := by
  refine ⟨?_, fun x _ ht hp => a.reg x ht hp⟩
  rw [a.frame]

theorem raisedOnly.stepOnly {s t : State} {as : List Nat} (a : raisedOnly s t as) : stepOnly s t as := by
  refine ⟨?_, fun x hx _ hp => a.2 x hx hp⟩
  rw [a.1]

theorem wr_stepOnly (s : State) (f : RegFld) (v : Nat) (h : s.inv = true) : stepOnly s (s.wr f v) [f.addr] := (wr_raisedOnly s f v h).stepOnly

theorem setAnt_stepOnly (s : State) (n : Nat) (a : Ant) : stepOnly s (s.setAnt n a) [] := ⟨rfl, fun _ _ _ _ => rfl⟩

theorem setAtt_stepOnly {s : State} (h : s.inv = true) (n t a : Nat) : stepOnly s (setAtt n t a s) [CNP_ATT.reg n] :=
  ⟨rfl, fun _ hx _ _ => reg_wr_other _ _ _ _ (List.ne_of_not_mem_cons hx) h⟩

theorem inv_setAtt {s : State} (h : s.inv = true) (n t a : Nat) : (setAtt n t a s).inv = true := kept_inv (kept_setAtt n t a s (kept_refl h))

theorem inv_setAnt {s : State} (h : s.inv = true) (n : Nat) (a : Ant) : (s.setAnt n a).inv = true := h

/-- A change of the registers that leaves the taint times leaves both slices' times. -/
theorem slice_times {s t : State} (hs : t.reg CNP_TAINT_SUB.reg = s.reg CNP_TAINT_SUB.reg) (hb : t.reg CNP_TAINT_24.reg = s.reg CNP_TAINT_24.reg)
    (b : Nat) : sliceD t b = sliceD s b ∧ sliceClean t b = sliceClean s b := by
  unfold sliceD sliceClean
  rw [rd_of_reg (f := CNP_TAINT_SUB.D) hs, rd_of_reg (f := CNP_TAINT_24.D) hb, rd_of_reg (f := CNP_TAINT_SUB.CLEAN) hs,
    rd_of_reg (f := CNP_TAINT_24.CLEAN) hb]
  exact ⟨rfl, rfl⟩

/-- A step of the gain at tick t taints both slices. -/
theorem stepTaint_spec {s : State} {n : Nat} (h : s.inv = true) (hn : n < 8) (t : Nat) :
    TaintStep s (stepTaint n t s) ∧
      (s.atb < t + 65536 → ∀ b, b < 2 → tainted (stepTaint n t s) n b (t - sliceD s b) (t + sliceClean s b)) := by
  obtain ⟨hs, ht⟩ := addTaint_both h hn (fun b => t - sliceD s b) (fun b => t + sliceClean s b)
  exact ⟨hs, fun hr => ht (by omega)⟩

/-- What a move of antenna n's attenuation to a leaves: the register's other fields, the antennas' records, and all but the taint. -/
structure GainStep (s t : State) (n a : Nat) : Prop where
  att : t.rd (CNP_ATT.ATT n) = a
  beside : ∀ lo w, 5 ≤ lo → t.rd ⟨CNP_ATT.reg n, lo, w⟩ = s.rd ⟨CNP_ATT.reg n, lo, w⟩
  ants : t.cnp.ants = s.cnp.ants
  only : stepOnly s t [CNP_ATT.reg n]

/-- The registers of the antennas lie above those of taint. -/
theorem not_taintRegs {a : Nat} (h : 0x100400 ≤ a) : a ∉ taintRegs := by
  simp only [taintRegs, CNP_TAINT_NOW.reg, CNP_STS.reg, CNP_BLIND_CNT.reg, CNP_EVT_STS.reg, List.mem_cons, List.not_mem_nil, or_false]
  omega

theorem CNP_ATT_reg_not_taint (n : Nat) : CNP_ATT.reg n ∉ taintRegs := not_taintRegs (Nat.le_add_right _ _)

theorem gainStep_of_eq {s : State} {n a : Nat} (h : s.rd (CNP_ATT.ATT n) = a) : GainStep s s n a :=
  ⟨h, fun _ _ _ => rfl, rfl, stepOnly_refl s _⟩

/-- The attenuation moves at tick t, with its taint. -/
theorem gainStep_setAtt {s : State} {n a : Nat} (h : s.inv = true) (hn : n < 8) (ha : a < 32) (t : Nat) :
    GainStep s (stepTaint n t (setAtt n t a s)) n a := by
  have h1 := inv_setAtt h n t a
  obtain ⟨ht, -⟩ := stepTaint_spec h1 hn t
  have keeps : ∀ lo w, (stepTaint n t (setAtt n t a s)).rd ⟨CNP_ATT.reg n, lo, w⟩ = (setAtt n t a s).rd ⟨CNP_ATT.reg n, lo, w⟩ :=
    fun lo w => ht.rd (CNP_ATT_reg_not_taint n) (by dsimp only [CNP_ATT.reg]; omega)
  refine ⟨?_, fun lo w hlo => ?_, ?_, ?_⟩
  · refine (keeps 0 5).trans ((rd_wr_same _ (CNP_ATT.ATT n) a (Nat.le_of_ble_eq_true rfl) h).trans (Nat.mod_eq_of_lt ha))
  · exact (keeps lo w).trans (rd_wr_beside _ (CNP_ATT.ATT n) ⟨CNP_ATT.reg n, lo, w⟩ a (Nat.le_of_ble_eq_true rfl) rfl (.inr hlo) h)
  · rw [ht.cnp]
    rfl
  · exact stepOnly_sub (stepOnly_trans (setAtt_stepOnly h n t a) ht.stepOnly) (by simp)

theorem setAtt_slice_times {s : State} (h : s.inv = true) (n t a b : Nat) :
    sliceD (setAtt n t a s) b = sliceD s b ∧ sliceClean (setAtt n t a s) b = sliceClean s b := by
  have ne : ∀ x, x < 0x100400 → x ≠ CNP_ATT.reg n := fun x hx => by unfold CNP_ATT.reg; omega
  exact slice_times (reg_wr_other _ _ _ _ (ne _ (by decide)) h) (reg_wr_other _ _ _ _ (ne _ (by decide)) h) b

/-- A move at tick t taints both slices, unless it is long past. -/
theorem setAtt_tainted {s : State} {n : Nat} (h : s.inv = true) (hn : n < 8) (t a : Nat) (hr : s.atb < t + 65536) (b : Nat) (hb : b < 2) :
    tainted (stepTaint n t (setAtt n t a s)) n b (t - sliceD s b) (t + sliceClean s b) := by
  have := (stepTaint_spec (inv_setAtt h n t a) hn t).2 hr b hb
  obtain ⟨hd, hc⟩ := setAtt_slice_times h n t a b
  rwa [hd, hc] at this

/-- The attenuation before a move at tick t is kept for the samples taken under it (R57). -/
theorem setAtt_logged {s : State} {n : Nat} (h : s.inv = true) (hn : n < 8) (t a : Nat) :
    (n, t, s.rd (CNP_ATT.ATT n)) ∈ (stepTaint n t (setAtt n t a s)).cnp.attLog := by
  rw [(stepTaint_spec (inv_setAtt h n t a) hn t).1.cnp]
  exact List.mem_append_right _ List.mem_cons_self

theorem moveAtt_of_eq {s : State} {n a : Nat} (h : s.rd (CNP_ATT.ATT n) = a) : moveAtt n a s = s := if_pos h

theorem moveAtt_of_ne {s : State} {n a : Nat} (h : s.rd (CNP_ATT.ATT n) ≠ a) : moveAtt n a s = stepTaint n s.atb (setAtt n s.atb a s) := if_neg h

/-- A move of the attenuation at the present tick. -/
theorem moveAtt_gainStep {s : State} {n a : Nat} (h : s.inv = true) (hn : n < 8) (ha : a < 32) : GainStep s (moveAtt n a s) n a := by
  by_cases e : s.rd (CNP_ATT.ATT n) = a
  · rw [moveAtt_of_eq e]
    exact gainStep_of_eq e
  · rw [moveAtt_of_ne e]
    exact gainStep_setAtt h hn ha s.atb

/-- A move that changes the attenuation taints both slices and keeps the attenuation before it. -/
theorem moveAtt_changes {s : State} {n a : Nat} (h : s.inv = true) (hn : n < 8) (e : s.rd (CNP_ATT.ATT n) ≠ a) :
    (n, s.atb, s.rd (CNP_ATT.ATT n)) ∈ (moveAtt n a s).cnp.attLog ∧
      ∀ b, b < 2 → tainted (moveAtt n a s) n b (s.atb - sliceD s b) (s.atb + sliceClean s b) := by
  rw [moveAtt_of_ne e]
  exact ⟨setAtt_logged h hn _ a, setAtt_tainted h hn _ a (by omega)⟩

end Sys2Proof.Machine

/-! The gain commands: manual writes, limits, trims, routine decisions and forced steps (R37, R54-R57, R60). -/

namespace Sys2Proof.Machine

/-- A command that names an antenna below eight and reaches its register has its effect. -/
theorem ranged_reaches {s : State} {f : Fn} {off n : Nat} (hn : n < 8) (hr : reaches s f off) (t : State) :
    ranged (n < 8) (s.p0Only f off t) = .next t := by
  unfold ranged
  rw [if_pos (decide_eq_true hn), p0Only_reaches hr]

theorem ranged_next {n : Nat} (hn : n < 8) (t : State) : ranged (n < 8) t = .next t := if_pos (decide_eq_true hn)

/-- Time does not touch the radio's registers. -/
theorem at_rd {s : State} {f : RegFld} (h : s.inv = true) (hf : 0x50000 ≤ f.addr) (t : Nat) : (s.at_ t).rd f = s.rd f :=
  rd_of_reg (at_reg t f.addr s h (.inr hf))

@[simp] theorem at_ant (s : State) (t n : Nat) : (s.at_ t).ant n = s.ant n := by
  unfold State.ant
  rw [at_cnp]

theorem at_slice_times {s : State} (h : s.inv = true) (t b : Nat) : sliceD (s.at_ t) b = sliceD s b ∧ sliceClean (s.at_ t) b = sliceClean s b :=
  slice_times (at_reg t _ s h (.inr (by decide))) (at_reg t _ s h (.inr (by decide))) b

/-- A register field outside a step's registers and taint reads as before. -/
theorem stepOnly_rd {s t : State} {as : List Nat} (a : stepOnly s t as) {f : RegFld} (hf : f.addr ∉ as) (ht : f.addr ∉ taintRegs)
    (hp : f.addr < 0x900000) : t.rd f = s.rd f := rd_of_reg (a.2 _ hf ht (noPba_of_lt hp))

/-! ## The registers of one antenna -/

theorem rd_MIN_lt (s : State) (n : Nat) : s.rd (CNP_ATT_LIM.MIN n) < 32 := bf_lt _ 0 5
theorem rd_MAX_lt (s : State) (n : Nat) : s.rd (CNP_ATT_LIM.MAX n) < 32 := bf_lt _ 8 5
theorem rd_ATT_lt (s : State) (n : Nat) : s.rd (CNP_ATT.ATT n) < 32 := bf_lt _ 0 5

theorem ATT_ne_PWR (n : Nat) : CNP_ATT.reg n ≠ CNP_PWR.reg n := by unfold CNP_ATT.reg CNP_PWR.reg; omega
theorem ATT_ne_LIM (n : Nat) : CNP_ATT.reg n ≠ CNP_ATT_LIM.reg n := by unfold CNP_ATT.reg CNP_ATT_LIM.reg; omega

/-- A write above the taint times leaves them. -/
theorem wr_slice_times {s : State} (h : s.inv = true) {f : RegFld} (hf : 0x100400 ≤ f.addr) (v b : Nat) :
    sliceD (s.wr f v) b = sliceD s b ∧ sliceClean (s.wr f v) b = sliceClean s b := by
  have ne : ∀ x, x < 0x100400 → x ≠ f.addr := fun x hx => by omega
  exact slice_times (reg_wr_other _ _ _ _ (ne _ (by decide)) h) (reg_wr_other _ _ _ _ (ne _ (by decide)) h) b

/-! ## Manual writes and limits -/

/-- A manual request within the limits (R54). -/
def manualAtt (s : State) (n v : Nat) : Nat := min (max v (s.rd (CNP_ATT_LIM.MIN n))) (s.rd (CNP_ATT_LIM.MAX n))

/-- MAN_ATT_WRITE stores the request, and in MANUAL the attenuation moves to it. -/
theorem manAttWrite_exec {f : Fn} {s : State} {n v : Nat} (hn : n < 8) (hv : v < 32) (hr : reaches s f (CNP_ATT.reg n)) :
    exec (.manAttWrite f n v) s = .next (if s.rd (CNP_ATT.MODE n) = 2 then moveAtt n (manualAtt s n v) (s.wr (CNP_ATT.MAN_ATT n) v)
      else s.wr (CNP_ATT.MAN_ATT n) v) := by
  refine (ranged_reaches hn hr _).trans ?_
  rw [Nat.mod_eq_of_lt hv]
  rfl

/-- MAN_ATT_WRITE (R54). -/
theorem manAttWrite_moves {f : Fn} {s : State} {n v : Nat} (h : s.inv = true) (hn : n < 8) (hv : v < 32) (hr : reaches s f (CNP_ATT.reg n)) :
    ∃ t, exec (.manAttWrite f n v) s = .next t ∧ t.rd (CNP_ATT.MAN_ATT n) = v ∧
      t.rd (CNP_ATT.ATT n) = (if s.rd (CNP_ATT.MODE n) = 2 then manualAtt s n v else s.rd (CNP_ATT.ATT n)) ∧
      (t.rd (CNP_ATT.ATT n) ≠ s.rd (CNP_ATT.ATT n) → (n, s.atb, s.rd (CNP_ATT.ATT n)) ∈ t.cnp.attLog ∧
        ∀ b, b < 2 → tainted t n b (s.atb - sliceD s b) (s.atb + sliceClean s b)) ∧
      stepOnly s t [CNP_ATT.reg n] := by
  have h1 := inv_wr h (CNP_ATT.MAN_ATT n) v
  have hreq : (s.wr (CNP_ATT.MAN_ATT n) v).rd (CNP_ATT.MAN_ATT n) = v :=
    (rd_wr_same s (CNP_ATT.MAN_ATT n) v (Nat.le_of_ble_eq_true rfl) h).trans (Nat.mod_eq_of_lt hv)
  have hatt : (s.wr (CNP_ATT.MAN_ATT n) v).rd (CNP_ATT.ATT n) = s.rd (CNP_ATT.ATT n) :=
    rd_wr_beside s (CNP_ATT.MAN_ATT n) (CNP_ATT.ATT n) v (Nat.le_of_ble_eq_true rfl) rfl (.inl (Nat.le_of_ble_eq_true rfl)) h
  have hfirst := wr_stepOnly s (CNP_ATT.MAN_ATT n) v h
  refine ⟨_, manAttWrite_exec hn hv hr, ?_⟩
  by_cases hm : s.rd (CNP_ATT.MODE n) = 2
  · rw [if_pos hm, if_pos hm]
    have g := moveAtt_gainStep h1 hn (a := manualAtt s n v) ((Nat.min_le_right _ _).trans_lt (rd_MAX_lt s n))
    refine ⟨(g.beside 16 5 (by decide)).trans hreq, g.att, fun hc => ?_, stepOnly_sub (stepOnly_trans hfirst g.only) (by simp [CNP_ATT.MAN_ATT])⟩
    rw [g.att, ← hatt] at hc
    obtain ⟨hlog, htaint⟩ := moveAtt_changes h1 hn (Ne.symm hc)
    rw [hatt, wr_atb] at hlog
    refine ⟨hlog, fun b hb => ?_⟩
    obtain ⟨hd, hcl⟩ := wr_slice_times h (f := CNP_ATT.MAN_ATT n) (Nat.le_add_right _ _) v b
    have ht := htaint b hb
    rwa [hd, hcl, wr_atb] at ht
  · rw [if_neg hm, if_neg hm]
    exact ⟨hreq, hatt, fun hc => absurd hatt hc, hfirst⟩

/-- The limits of antenna n as stored. -/
def limStored (s : State) (n mn mx : Nat) : State := (s.wr (CNP_ATT_LIM.MIN n) mn).wr (CNP_ATT_LIM.MAX n) mx

theorem inv_limStored {s : State} (h : s.inv = true) (n mn mx : Nat) : (limStored s n mn mx).inv = true := inv_wr (inv_wr h _ _) _ _

theorem le_LIM (n : Nat) : 0x100400 ≤ CNP_ATT_LIM.reg n := by unfold CNP_ATT_LIM.reg; omega

theorem limStored_lim {s : State} {n mn mx : Nat} (h : s.inv = true) (hmn : mn < 32) (hmx : mx < 32) :
    (limStored s n mn mx).rd (CNP_ATT_LIM.MIN n) = mn ∧ (limStored s n mn mx).rd (CNP_ATT_LIM.MAX n) = mx := by
  have h0 := inv_wr h (CNP_ATT_LIM.MIN n) mn
  unfold limStored
  rw [rd_wr_beside _ (CNP_ATT_LIM.MAX n) (CNP_ATT_LIM.MIN n) _ (Nat.le_of_ble_eq_true rfl) rfl (.inl (Nat.le_of_ble_eq_true rfl)) h0,
    rd_wr_same _ (CNP_ATT_LIM.MIN n) _ (Nat.le_of_ble_eq_true rfl) h, rd_wr_same _ (CNP_ATT_LIM.MAX n) _ (Nat.le_of_ble_eq_true rfl) h0]
  exact ⟨Nat.mod_eq_of_lt hmn, Nat.mod_eq_of_lt hmx⟩

theorem limStored_att {s : State} (h : s.inv = true) (n mn mx lo w : Nat) :
    (limStored s n mn mx).rd ⟨CNP_ATT.reg n, lo, w⟩ = s.rd ⟨CNP_ATT.reg n, lo, w⟩ :=
  (rd_wr_other _ (CNP_ATT_LIM.MAX n) _ mx (ATT_ne_LIM n) (inv_wr h _ _)).trans (rd_wr_other s (CNP_ATT_LIM.MIN n) _ mn (ATT_ne_LIM n) h)

theorem limStored_only {s : State} (h : s.inv = true) (n mn mx : Nat) : stepOnly s (limStored s n mn mx) [CNP_ATT_LIM.reg n, CNP_ATT_LIM.reg n] :=
  stepOnly_trans (wr_stepOnly s (CNP_ATT_LIM.MIN n) mn h) (wr_stepOnly _ (CNP_ATT_LIM.MAX n) mx (inv_wr h _ _))

theorem limStored_slice_times {s : State} (h : s.inv = true) (n mn mx b : Nat) :
    sliceD (limStored s n mn mx) b = sliceD s b ∧ sliceClean (limStored s n mn mx) b = sliceClean s b := by
  obtain ⟨hd0, hc0⟩ := wr_slice_times h (f := CNP_ATT_LIM.MIN n) (le_LIM n) mn b
  obtain ⟨hd1, hc1⟩ := wr_slice_times (inv_wr h _ _) (f := CNP_ATT_LIM.MAX n) (le_LIM n) mx b
  exact ⟨hd1.trans hd0, hc1.trans hc0⟩

theorem limStored_atb (s : State) (n mn mx : Nat) : (limStored s n mn mx).atb = s.atb := by
  unfold limStored
  rw [wr_atb, wr_atb]

/-- A write of the limits in order, outside the lock, stores them and moves the attenuation to the nearer one. -/
theorem attLimWrite_exec {f : Fn} {s : State} {n mn mx : Nat} (hn : n < 8) (hmn : mn < 32) (hmx : mx < 32) (hr : reaches s f (CNP_ATT_LIM.reg n))
    (hl : s.cnpLocked = false) (hle : mn ≤ mx) :
    exec (.attLimWrite f n mn mx) s = .next (moveAtt n (min (max (s.rd (CNP_ATT.ATT n)) mn) mx) (limStored s n mn mx)) := by
  refine (ranged_reaches hn hr _).trans ?_
  rw [Nat.mod_eq_of_lt hmn, Nat.mod_eq_of_lt hmx, hl, decide_eq_false (Nat.not_lt.mpr hle)]
  rfl

/-- ATT_LIM_WRITE outside the lock and in order (R57). -/
theorem attLimWrite_moves {f : Fn} {s : State} {n mn mx : Nat} (h : s.inv = true) (hn : n < 8) (hmn : mn < 32) (hmx : mx < 32)
    (hr : reaches s f (CNP_ATT_LIM.reg n)) (hl : s.cnpLocked = false) (hle : mn ≤ mx) :
    ∃ t, exec (.attLimWrite f n mn mx) s = .next t ∧ t.rd (CNP_ATT_LIM.MIN n) = mn ∧ t.rd (CNP_ATT_LIM.MAX n) = mx ∧
      t.rd (CNP_ATT.ATT n) = min (max (s.rd (CNP_ATT.ATT n)) mn) mx ∧ t.rd (CNP_ATT.MODE n) = s.rd (CNP_ATT.MODE n) ∧
      (t.rd (CNP_ATT.ATT n) ≠ s.rd (CNP_ATT.ATT n) → ∀ b, b < 2 → tainted t n b (s.atb - sliceD s b) (s.atb + sliceClean s b)) ∧
      stepOnly s t [CNP_ATT.reg n, CNP_ATT_LIM.reg n] := by
  have h1 := inv_limStored h n mn mx
  have g := moveAtt_gainStep h1 hn (a := min (max (s.rd (CNP_ATT.ATT n)) mn) mx) ((Nat.min_le_right _ _).trans_lt hmx)
  have hhi : CNP_ATT_LIM.reg n < 0x900000 := by unfold CNP_ATT_LIM.reg; omega
  have hkeep := fun lo w => stepOnly_rd g.only (f := ⟨CNP_ATT_LIM.reg n, lo, w⟩) (fun hm => ATT_ne_LIM n (List.mem_singleton.mp hm).symm)
    (not_taintRegs (le_LIM n)) hhi
  obtain ⟨hmin, hmax⟩ := limStored_lim (n := n) h hmn hmx
  have hatt : (limStored s n mn mx).rd (CNP_ATT.ATT n) = s.rd (CNP_ATT.ATT n) := limStored_att h n mn mx 0 5
  refine ⟨_, attLimWrite_exec hn hmn hmx hr hl hle, (hkeep 0 5).trans hmin, (hkeep 8 5).trans hmax, g.att,
    (g.beside 8 2 (by decide)).trans (limStored_att h n mn mx 8 2), fun hc b hb => ?_,
    stepOnly_sub (stepOnly_trans (limStored_only h n mn mx) g.only) (by simp)⟩
  rw [g.att, ← hatt] at hc
  have ht := (moveAtt_changes h1 hn (Ne.symm hc)).2 b hb
  obtain ⟨hd, hcl⟩ := limStored_slice_times h n mn mx b
  rwa [hd, hcl, hatt, limStored_atb] at ht

/-- ATT_LIM_WRITE under the lock or out of order (R57). -/
theorem attLimWrite_refused {f : Fn} {s : State} {n mn mx : Nat} (hn : n < 8) (hmn : mn < 32) (hmx : mx < 32)
    (hr : reaches s f (CNP_ATT_LIM.reg n)) (hb : s.cnpLocked = true ∨ mx < mn) : exec (.attLimWrite f n mn mx) s = .next s := by
  refine (ranged_reaches hn hr _).trans (congrArg _ (if_pos ?_))
  rw [Nat.mod_eq_of_lt hmn, Nat.mod_eq_of_lt hmx, Bool.or_eq_true, decide_eq_true_eq]
  exact hb

/-- TRIM_WRITE under the lock (R37). -/
theorem trimWrite_locked {f : Fn} {s : State} {n v : Nat} (hn : n < 8) (hr : reaches s f (CNP_DLY.reg n)) (hl : s.cnpLocked = true) :
    exec (.trimWrite f n v) s = .next s :=
  (ranged_reaches hn hr _).trans (congrArg _ (if_pos hl))

/-- TRIM_WRITE outside the lock (R37, R60). -/
theorem trimWrite_moves {f : Fn} {s : State} {n v : Nat} (h : s.inv = true) (hn : n < 8) (hv : v < 65536) (hr : reaches s f (CNP_DLY.reg n))
    (hl : s.cnpLocked = false) :
    ∃ t, exec (.trimWrite f n v) s = .next t ∧ t.rd (CNP_DLY.DELAY n) = v ∧
      (v ≠ s.rd (CNP_DLY.DELAY n) → ∀ b, b < 2 → tainted t n b (s.atb - sliceD s b) (s.atb + sliceClean s b)) ∧
      stepOnly s t [CNP_DLY.reg n] := by
  have hexec : exec (.trimWrite f n v) s =
      .next (if s.rd (CNP_DLY.DELAY n) = v then s else stepTaint n s.atb (s.wr (CNP_DLY.DELAY n) v)) := by
    refine (ranged_reaches hn hr _).trans ?_
    rw [Nat.mod_eq_of_lt hv, hl]
    rfl
  refine ⟨_, hexec, ?_⟩
  by_cases e : s.rd (CNP_DLY.DELAY n) = v
  · rw [if_pos e]
    exact ⟨e, fun hc => absurd e.symm hc, stepOnly_refl s _⟩
  · rw [if_neg e]
    have h1 := inv_wr h (CNP_DLY.DELAY n) v
    obtain ⟨hstep, htaint⟩ := stepTaint_spec h1 hn s.atb
    have hlo : 0x100400 ≤ (CNP_DLY.DELAY n).addr := by dsimp only [CNP_DLY.DELAY, CNP_DLY.reg]; omega
    have hhi : (CNP_DLY.DELAY n).addr < 0x900000 := by dsimp only [CNP_DLY.DELAY, CNP_DLY.reg]; omega
    refine ⟨?_, fun _ b hb => ?_, stepOnly_sub (stepOnly_trans (wr_stepOnly s (CNP_DLY.DELAY n) v h) hstep.stepOnly) (List.Subset.refl _)⟩
    · rw [hstep.rd (not_taintRegs hlo) hhi, rd_wr_same s (CNP_DLY.DELAY n) v (Nat.le_of_ble_eq_true rfl) h]
      exact Nat.mod_eq_of_lt hv
    · obtain ⟨hd, hc⟩ := wr_slice_times h hlo v b
      have hr : (s.wr (CNP_DLY.DELAY n) v).atb < s.atb + 65536 := Nat.lt_add_of_pos_right (by decide)
      exact hd ▸ hc ▸ htaint hr b hb

/-! ## Routine decisions (R55) -/

/-- The attenuation that a routine decision asks for (R55). -/
def routineAtt (s : State) (n : Nat) (peak : Int) : Nat :=
  if s.rd (CNP_ATT.MODE n) ≠ 0 ∨ (s.ant n).stepInt = true then s.rd (CNP_ATT.ATT n)
  else if -(4 * (s.rd CNP_GAIN_CFG.HI : Int)) ≤ peak then min (s.rd (CNP_ATT.ATT n) + 1) (s.rd (CNP_ATT_LIM.MAX n))
  else if peak < -(4 * (s.rd CNP_GAIN_CFG.LO : Int)) ∧ (s.ant n).ovrInt = false then
    max (s.rd (CNP_ATT.ATT n) - 1) (s.rd (CNP_ATT_LIM.MIN n))
  else s.rd (CNP_ATT.ATT n)

/-- The state in which a routine decision has recorded the interval's power and begun the next (R55). -/
def routineNoted (s : State) (n : Nat) (peak mean : Int) : State :=
  ((s.wr (CNP_PWR.PEAK n) (unsgn 16 peak)).wr (CNP_PWR.MEAN n) (unsgn 16 mean)).setAnt n { s.ant n with ovrInt := false, stepInt := false }

theorem inv_routineNoted {s : State} (h : s.inv = true) (n : Nat) (peak mean : Int) : (routineNoted s n peak mean).inv = true :=
  inv_setAnt (inv_wr (inv_wr h _ _) _ _) n _

theorem unsgn_lt (w : Nat) (v : Int) : unsgn w v < 2 ^ w := by
  unfold unsgn
  have hp : (0 : Int) < 2 ^ w := by positivity
  have h0 := Int.emod_nonneg v hp.ne'
  have h1 := Int.emod_lt_of_pos v hp
  zify
  rw [Int.toNat_of_nonneg h0]
  exact h1

/-- Recording the power leaves all but its register. -/
theorem routineNoted_only {s : State} (h : s.inv = true) (n : Nat) (peak mean : Int) :
    stepOnly s (routineNoted s n peak mean) [CNP_PWR.reg n] :=
  stepOnly_sub (stepOnly_trans (stepOnly_trans (wr_stepOnly s (CNP_PWR.PEAK n) _ h) (wr_stepOnly _ (CNP_PWR.MEAN n) _ (inv_wr h _ _)))
    (setAnt_stepOnly _ n _)) (by simp [CNP_PWR.PEAK, CNP_PWR.MEAN])

@[simp] theorem setAnt_ants (s : State) (n : Nat) (a : Ant) : (s.setAnt n a).cnp.ants = sset (fun _ => {}) s.cnp.ants n a := rfl

theorem routineNoted_ants (s : State) (n : Nat) (peak mean : Int) :
    (routineNoted s n peak mean).cnp.ants = sset (fun _ => {}) s.cnp.ants n { s.ant n with ovrInt := false, stepInt := false } := by
  unfold routineNoted
  rw [setAnt_ants, wr_cnp, wr_cnp]

@[simp] theorem setAnt_reg (s : State) (n : Nat) (a : Ant) (x : Nat) : (s.setAnt n a).reg x = s.reg x := rfl

theorem routineNoted_power {s : State} (h : s.inv = true) (n : Nat) (peak mean : Int) :
    (routineNoted s n peak mean).rd (CNP_PWR.PEAK n) = unsgn 16 peak ∧ (routineNoted s n peak mean).rd (CNP_PWR.MEAN n) = unsgn 16 mean := by
  have h1 := inv_wr h (CNP_PWR.PEAK n) (unsgn 16 peak)
  unfold routineNoted
  rw [rd_of_reg (f := CNP_PWR.PEAK n) (setAnt_reg _ n _ _), rd_of_reg (f := CNP_PWR.MEAN n) (setAnt_reg _ n _ _),
    rd_wr_beside _ (CNP_PWR.MEAN n) (CNP_PWR.PEAK n) _ (Nat.le_of_ble_eq_true rfl) rfl (.inr (Nat.le_of_ble_eq_true rfl)) h1,
    rd_wr_same _ (CNP_PWR.PEAK n) _ (Nat.le_of_ble_eq_true rfl) h, rd_wr_same _ (CNP_PWR.MEAN n) _ (Nat.le_of_ble_eq_true rfl) h1]
  exact ⟨Nat.mod_eq_of_lt (unsgn_lt 16 peak), Nat.mod_eq_of_lt (unsgn_lt 16 mean)⟩

theorem routineNoted_att {s : State} {n : Nat} (h : s.inv = true) (hn : n < 8) (peak mean : Int) (lo w : Nat) :
    (routineNoted s n peak mean).rd ⟨CNP_ATT.reg n, lo, w⟩ = s.rd ⟨CNP_ATT.reg n, lo, w⟩ :=
  stepOnly_rd (routineNoted_only h n peak mean) (fun hm => ATT_ne_PWR n (List.mem_singleton.mp hm)) (CNP_ATT_reg_not_taint n)
    (by dsimp only [CNP_ATT.reg]; omega)

/-- A routine decision is a step of the gain from the noted state (R55). -/
theorem routineStep_gainStep {s0 : State} {n : Nat} (h0 : s0.inv = true) (hn : n < 8) (peak mean : Int) :
    GainStep (routineNoted (s0.at_ (routineAt s0.atb n)) n peak mean) (routineStep n peak mean s0) n
      (routineAtt (s0.at_ (routineAt s0.atb n)) n peak) := by
  have h := inv_at h0 (routineAt s0.atb n)
  unfold routineStep
  dsimp only
  generalize s0.at_ (routineAt s0.atb n) = s at h
  have h1 := inv_routineNoted h n peak mean
  have same := gainStep_of_eq (routineNoted_att h hn peak mean 0 5)
  have moves : ∀ a, a < 32 → GainStep (routineNoted s n peak mean) (moveAtt n a (routineNoted s n peak mean)) n a :=
    fun a ha => moveAtt_gainStep h1 hn ha
  unfold routineAtt
  by_cases held : s.rd (CNP_ATT.MODE n) ≠ 0 ∨ (s.ant n).stepInt = true
  · rw [if_pos held, if_pos held]
    exact same
  rw [if_neg held, if_neg held]
  by_cases high : -(4 * (s.rd CNP_GAIN_CFG.HI : Int)) ≤ peak
  · rw [if_pos high, if_pos high]
    exact moves _ ((Nat.min_le_right _ _).trans_lt (rd_MAX_lt s n))
  rw [if_neg high, if_neg high]
  simp only [Bool.not_eq_true]
  by_cases low : peak < -(4 * (s.rd CNP_GAIN_CFG.LO : Int)) ∧ (s.ant n).ovrInt = false
  · rw [if_pos low, if_pos low]
    have := rd_ATT_lt s n
    exact moves _ (Nat.max_lt.mpr ⟨by omega, rd_MIN_lt s n⟩)
  · rw [if_neg low, if_neg low]
    exact same

/-- ROUTINE_STEP while streams flow (R55). -/
theorem routineStep_decides {s : State} {n : Nat} (h : s.inv = true) (hn : n < 8) (hon : streamsOn s = true) (peak mean : Int) :
    ∃ t, exec (.routineStep n peak mean) s = .next t ∧ t.rd (CNP_PWR.PEAK n) = unsgn 16 peak ∧ t.rd (CNP_PWR.MEAN n) = unsgn 16 mean ∧
      t.rd (CNP_ATT.ATT n) = routineAtt s n peak ∧ t.rd (CNP_ATT.MODE n) = s.rd (CNP_ATT.MODE n) ∧
      t.cnp.ants = sset (fun _ => {}) s.cnp.ants n { s.ant n with ovrInt := false, stepInt := false } ∧
      stepOnly (s.at_ (routineAt s.atb n)) t [CNP_PWR.reg n, CNP_ATT.reg n] := by
  have g := routineStep_gainStep h hn peak mean
  have ha := inv_at h (routineAt s.atb n)
  have hr : ∀ f : RegFld, 0x50000 ≤ f.addr → (s.at_ (routineAt s.atb n)).rd f = s.rd f := fun f hf => at_rd h hf _
  obtain ⟨hpeak, hmean⟩ := routineNoted_power ha n peak mean
  have hpwr : ∀ lo w, (routineStep n peak mean s).rd ⟨CNP_PWR.reg n, lo, w⟩ =
      (routineNoted (s.at_ (routineAt s.atb n)) n peak mean).rd ⟨CNP_PWR.reg n, lo, w⟩ := fun lo w =>
    stepOnly_rd g.only (fun hm => ATT_ne_PWR n (List.mem_singleton.mp hm).symm)
      (not_taintRegs (by dsimp only [CNP_PWR.reg]; omega)) (by dsimp only [CNP_PWR.reg]; omega)
  have hatt : routineAtt (s.at_ (routineAt s.atb n)) n peak = routineAtt s n peak := by
    have hge : ∀ x, 0x50000 ≤ 0x100400 + x := fun x => by omega
    unfold routineAtt
    rw [hr (CNP_ATT.MODE n) (hge _), hr (CNP_ATT.ATT n) (hge _), hr CNP_GAIN_CFG.HI (by decide), hr CNP_GAIN_CFG.LO (by decide),
      hr (CNP_ATT_LIM.MAX n) ((le_LIM n).trans' (by decide)), hr (CNP_ATT_LIM.MIN n) ((le_LIM n).trans' (by decide)), at_ant]
  have hexec : exec (.routineStep n peak mean) s = .next (routineStep n peak mean s) := by
    refine (ranged_next hn _).trans ?_
    rw [if_pos hon]
  refine ⟨_, hexec, (hpwr 16 16).trans hpeak, (hpwr 0 16).trans hmean, g.att.trans hatt, ?_, ?_, ?_⟩
  · exact (g.beside 8 2 (by decide)).trans ((routineNoted_att ha hn peak mean 8 2).trans (hr (CNP_ATT.MODE n) (Nat.le_add_right_of_le (by decide))))
  · rw [g.ants, routineNoted_ants, at_cnp, at_ant]
  · exact stepOnly_sub (stepOnly_trans (routineNoted_only ha n peak mean) g.only) (by simp)

end Sys2Proof.Machine

/-! Forced steps of the gain (R56), and the gain commands together. -/

namespace Sys2Proof.Machine

/-- Registers of taint need not be named. -/
theorem stepOnly_but_taint {s t : State} {as bs : List Nat} (a : stepOnly s t as) (h : ∀ x ∈ as, x ∈ bs ∨ x ∈ taintRegs) :
    stepOnly s t bs :=
  ⟨a.1, fun x hx ht hp => a.2 x (fun hm => (h x hm).elim hx ht) ht hp⟩

theorem stepOnly_atb {s t : State} {as : List Nat} (a : stepOnly s t as) : t.atb = s.atb := by rw [a.1]

/-- An antenna's record reads what was put there, unless that is the record at rest. -/
theorem ant_setAnt (s : State) (n : Nat) {a : Ant} (h : a ≠ {}) : (s.setAnt n a).ant n = a := by
  unfold State.ant State.setAnt sset
  rw [if_neg h]
  exact sget_sput_same _ n a _

/-- A counter has counted. -/
theorem rd_incBy {s : State} (h : s.inv = true) (f : RegFld) (n : Nat) (hf : f.lo + f.w ≤ 32) :
    (s.incBy f n).rd f = min (2 ^ f.w - 1) (s.rd f + n) :=
  (incBy_sets s f n h hf).1

theorem ATT_ne_FORCE_CNT (n : Nat) : CNP_ATT.reg n ≠ CNP_FORCE_CNT.reg n := by unfold CNP_ATT.reg CNP_FORCE_CNT.reg; omega

/-- FORCED_STEP with none due (R56). -/
theorem forcedStep_none {s : State} {n : Nat} (hn : n < 8) (hd : (s.ant n).dues = []) : exec (.forcedStep n) s = .next s := by
  refine (ranged_next hn _).trans ?_
  unfold forcedStep
  rw [hd]

/-- FORCED_STEP in MANUAL (R56). -/
theorem forcedStep_manual {s : State} {n d : Nat} {ds : List Nat} (h : s.inv = true) (hn : n < 8) (hd : (s.ant n).dues = d :: ds)
    (hm : s.rd (CNP_ATT.MODE n) = 2) : exec (.forcedStep n) s = .next ((s.at_ d).setAnt n { s.ant n with dues := ds }) := by
  have hmode : (s.at_ d).rd (CNP_ATT.MODE n) = 2 := (at_rd h (Nat.le_add_right_of_le (by decide)) d).trans hm
  refine (ranged_next hn _).trans ?_
  unfold forcedStep
  rw [hd]
  dsimp only
  rw [if_pos hmode, at_ant]

/-- The state in which a forced step has been taken from those due and counted (R56). -/
def forcedNoted (s : State) (n d : Nat) (ds : List Nat) : State :=
  (s.setAnt n { s.ant n with dues := ds, prevDue := some d, stepInt := true }).inc (CNP_FORCE_CNT.COUNT n)

/-- FORCED_STEP in AUTO or HOLD below the maximum, as its notes and the step (R56). -/
theorem forcedStep_below {s : State} {n d : Nat} {ds : List Nat} (h : s.inv = true) (hn : n < 8) (hd : (s.ant n).dues = d :: ds)
    (hm : s.rd (CNP_ATT.MODE n) ≠ 2) (hlt : s.rd (CNP_ATT.ATT n) < s.rd (CNP_ATT_LIM.MAX n)) :
    exec (.forcedStep n) s = .next (stepTaint n d
      (setAtt n d (min (s.rd (CNP_ATT.ATT n) + s.rd CNP_GAIN_CFG.FORCE_STEP) (s.rd (CNP_ATT_LIM.MAX n))) (forcedNoted (s.at_ d) n d ds))) := by
  have hge : ∀ x, 0x50000 ≤ 0x100400 + x := fun x => by omega
  refine (ranged_next hn _).trans ?_
  unfold forcedStep
  rw [hd]
  dsimp only
  rw [at_rd h (f := CNP_ATT.MODE n) (hge _) d, at_rd h (f := CNP_ATT.ATT n) (hge _) d, at_rd h (f := CNP_GAIN_CFG.FORCE_STEP) (by decide) d,
    at_rd h (f := CNP_ATT_LIM.MAX n) ((le_LIM n).trans' (by decide)) d, if_neg hm, if_neg (Nat.not_le.mpr hlt)]
  rfl

theorem inv_forcedNoted {s : State} (h : s.inv = true) (n d : Nat) (ds : List Nat) : (forcedNoted s n d ds).inv = true :=
  inv_inc (inv_setAnt h n _) _

theorem le_FORCE_CNT (n : Nat) : 0x100400 ≤ CNP_FORCE_CNT.reg n := by unfold CNP_FORCE_CNT.reg; omega

theorem forcedNoted_only {s : State} (h : s.inv = true) (n d : Nat) (ds : List Nat) : stepOnly s (forcedNoted s n d ds) [CNP_FORCE_CNT.reg n] :=
  stepOnly_trans (setAnt_stepOnly s n _) (wr_stepOnly _ (CNP_FORCE_CNT.COUNT n) _ (inv_setAnt h n _))

theorem forcedNoted_dues (s : State) (n d : Nat) (ds : List Nat) : ((forcedNoted s n d ds).ant n).dues = ds := by
  have hne : ({ s.ant n with dues := ds, prevDue := some d, stepInt := true } : Ant) ≠ {} := fun e => nomatch congrArg Ant.prevDue e
  exact congrArg Ant.dues (ant_setAnt s n hne)

theorem forcedNoted_cnt {s : State} (h : s.inv = true) (n d : Nat) (ds : List Nat) :
    (forcedNoted s n d ds).rd (CNP_FORCE_CNT.COUNT n) = min 0xFFFFFFFF (s.rd (CNP_FORCE_CNT.COUNT n) + 1) :=
  rd_incBy (inv_setAnt h n _) (CNP_FORCE_CNT.COUNT n) 1 (Nat.le_of_ble_eq_true rfl)

theorem forcedNoted_slice_times {s : State} (h : s.inv = true) (n d : Nat) (ds : List Nat) (b : Nat) :
    sliceD (forcedNoted s n d ds) b = sliceD s b ∧ sliceClean (forcedNoted s n d ds) b = sliceClean s b :=
  wr_slice_times (inv_setAnt h n _) (f := CNP_FORCE_CNT.COUNT n) (le_FORCE_CNT n) _ b

/-- FORCED_STEP in AUTO or HOLD below the maximum (R56, R60). -/
theorem forcedStep_steps {s : State} {n d : Nat} {ds : List Nat} (h : s.inv = true) (hn : n < 8) (hd : (s.ant n).dues = d :: ds)
    (hm : s.rd (CNP_ATT.MODE n) ≠ 2) (hlt : s.rd (CNP_ATT.ATT n) < s.rd (CNP_ATT_LIM.MAX n)) :
    ∃ t, exec (.forcedStep n) s = .next t ∧
      t.rd (CNP_ATT.ATT n) = min (s.rd (CNP_ATT.ATT n) + s.rd CNP_GAIN_CFG.FORCE_STEP) (s.rd (CNP_ATT_LIM.MAX n)) ∧
      t.rd (CNP_FORCE_CNT.COUNT n) = min 0xFFFFFFFF (s.rd (CNP_FORCE_CNT.COUNT n) + 1) ∧ (t.ant n).dues = ds ∧
      (t.atb < d + 65536 → ∀ b, b < 2 → tainted t n b (d - sliceD s b) (d + sliceClean s b)) ∧
      stepOnly (s.at_ d) t [CNP_ATT.reg n, CNP_FORCE_CNT.reg n] := by
  have ha := inv_at h d
  have h1 := inv_forcedNoted ha n d ds
  have g := gainStep_setAtt h1 hn ((Nat.min_le_right (s.rd (CNP_ATT.ATT n) + s.rd CNP_GAIN_CFG.FORCE_STEP) _).trans_lt (rd_MAX_lt s n)) d
  have hhi : CNP_FORCE_CNT.reg n < 0x900000 := by unfold CNP_FORCE_CNT.reg; omega
  have hcnt := stepOnly_rd g.only (f := CNP_FORCE_CNT.COUNT n) (fun e => ATT_ne_FORCE_CNT n (List.mem_singleton.mp e).symm)
    (not_taintRegs (le_FORCE_CNT n)) hhi
  refine ⟨_, forcedStep_below h hn hd hm hlt, g.att, ?_, ?_, fun hr b hb => ?_,
    stepOnly_sub (stepOnly_trans (forcedNoted_only ha n d ds) g.only) (by simp)⟩
  · rw [hcnt, forcedNoted_cnt ha, at_rd h (f := CNP_FORCE_CNT.COUNT n) ((le_FORCE_CNT n).trans' (by decide)) d]
  · have hants := congrArg (fun m => (sget (fun _ => ({} : Ant)) m n).dues) g.ants
    exact hants.trans (forcedNoted_dues (s.at_ d) n d ds)
  · rw [stepOnly_atb g.only] at hr
    have ht := setAtt_tainted h1 hn d (min (s.rd (CNP_ATT.ATT n) + s.rd CNP_GAIN_CFG.FORCE_STEP) (s.rd (CNP_ATT_LIM.MAX n))) hr b hb
    obtain ⟨hd1, hc1⟩ := forcedNoted_slice_times ha n d ds b
    obtain ⟨hd0, hc0⟩ := at_slice_times h d b
    rwa [hd1, hc1, hd0, hc0] at ht

/-- The state in which a forced step has been taken from those due and refused at the maximum (R56). -/
def forcedRefused (s : State) (n d : Nat) (ds : List Nat) : State :=
  (s.setAnt n { s.ant n with dues := ds, prevDue := some d }).wr CNP_ATTMAX_STS.AT_MAX (bitSet (s.rd CNP_ATTMAX_STS.AT_MAX) n)

theorem inv_forcedRefused {s : State} (h : s.inv = true) (n d : Nat) (ds : List Nat) : (forcedRefused s n d ds).inv = true :=
  inv_wr (inv_setAnt h n _) _ _

theorem forcedRefused_dues (s : State) (n d : Nat) (ds : List Nat) : ((forcedRefused s n d ds).ant n).dues = ds := by
  have hne : ({ s.ant n with dues := ds, prevDue := some d } : Ant) ≠ {} := fun e => nomatch congrArg Ant.prevDue e
  exact congrArg Ant.dues (ant_setAnt s n hne)

theorem forcedRefused_bit {s : State} {n : Nat} (h : s.inv = true) (hn : n < 8) (d : Nat) (ds : List Nat) :
    bitOn ((forcedRefused s n d ds).rd CNP_ATTMAX_STS.AT_MAX) n = true := by
  have hlt : s.rd CNP_ATTMAX_STS.AT_MAX < 256 := bf_lt _ 0 8
  unfold forcedRefused
  rw [rd_wr_same _ CNP_ATTMAX_STS.AT_MAX _ (by decide) (inv_setAnt h n _)]
  exact (congrArg (bitOn · n) (Nat.mod_eq_of_lt (bitSet_lt hlt hn))).trans (bitOn_bitSet_same hlt hn)

/-- FORCED_STEP in AUTO or HOLD at the maximum, as its notes and ATT_MAX (R56). -/
theorem forcedStep_refused {s : State} {n d : Nat} {ds : List Nat} (h : s.inv = true) (hn : n < 8) (hd : (s.ant n).dues = d :: ds)
    (hm : s.rd (CNP_ATT.MODE n) ≠ 2) (hle : s.rd (CNP_ATT_LIM.MAX n) ≤ s.rd (CNP_ATT.ATT n)) :
    exec (.forcedStep n) s = .next ((forcedRefused (s.at_ d) n d ds).raise 1 3) := by
  have hge : ∀ x, 0x50000 ≤ 0x100400 + x := fun x => by omega
  refine (ranged_next hn _).trans ?_
  unfold forcedStep
  rw [hd]
  dsimp only
  rw [at_rd h (f := CNP_ATT.MODE n) (hge _) d, at_rd h (f := CNP_ATT.ATT n) (hge _) d,
    at_rd h (f := CNP_ATT_LIM.MAX n) ((le_LIM n).trans' (by decide)) d, if_neg hm, if_pos hle]
  rfl

/-- FORCED_STEP in AUTO or HOLD at the maximum (R56). -/
theorem forcedStep_at_max {s : State} {n d : Nat} {ds : List Nat} (h : s.inv = true) (hn : n < 8) (hd : (s.ant n).dues = d :: ds)
    (hm : s.rd (CNP_ATT.MODE n) ≠ 2) (hle : s.rd (CNP_ATT_LIM.MAX n) ≤ s.rd (CNP_ATT.ATT n)) :
    ∃ t, exec (.forcedStep n) s = .next t ∧ (t.ant n).dues = ds ∧ bitOn (t.rd CNP_ATTMAX_STS.AT_MAX) n = true ∧ flagged t 1 3 ∧
      stepOnly (s.at_ d) t [CNP_ATTMAX_STS.reg] := by
  have ha := inv_at h d
  have h2 := inv_forcedRefused ha n d ds
  refine ⟨_, forcedStep_refused h hn hd hm hle, ?_, ?_, raise_flagged _ 1 3 _ h2 rfl (by decide), ?_⟩
  · have hcnp := congrArg (fun c : Cnp => (sget (fun _ => ({} : Ant)) c.ants n).dues) (raise_cnp (forcedRefused (s.at_ d) n d ds) 1 3)
    exact hcnp.trans (forcedRefused_dues (s.at_ d) n d ds)
  · rw [raise_rd _ 1 3 CNP_ATTMAX_STS.AT_MAX h2 (noPba_of_lt (by decide)) (by decide)]
    exact forcedRefused_bit ha hn d ds
  · have hfirst : stepOnly (s.at_ d) (forcedRefused (s.at_ d) n d ds) [CNP_ATTMAX_STS.reg] :=
      stepOnly_trans (setAnt_stepOnly (s.at_ d) n _) (wr_stepOnly _ CNP_ATTMAX_STS.AT_MAX _ (inv_setAnt ha n _))
    exact stepOnly_but_taint (stepOnly_trans hfirst (raise_raisedOnly _ 1 3 _ h2 rfl).stepOnly) (by decide)

/-- Settles O11: every command's move of an attenuation is one step of the gain, which leaves its register's other fields, logs the old
value and taints both slices; limits, trims, recorded power and counts lie in registers that the step leaves. -/
theorem gainCommandsMoveTheAttenuation : Obligations.GainCommandsMoveTheAttenuation := by
  refine fun f s n h hn => ⟨fun v hv hr => manAttWrite_moves h hn hv hr, fun mn mx hmn hmx hr => ⟨attLimWrite_refused hn hmn hmx hr, ?_⟩,
    fun v hv hr => ⟨trimWrite_locked hn hr, trimWrite_moves h hn hv hr⟩, fun peak mean hoff => ?_,
    fun peak mean hon => routineStep_decides h hn hon peak mean, forcedStep_none hn, fun d ds hd hm => forcedStep_manual h hn hd hm,
    fun d ds hd hm => ⟨forcedStep_steps h hn hd hm, forcedStep_at_max h hn hd hm⟩⟩
  · exact attLimWrite_moves h hn hmn hmx hr
  · refine (ranged_next hn _).trans ?_
    rw [hoff]
    rfl

end Sys2Proof.Machine

/-! Over-range episodes and the ends of taint (R56, R58, R59, R62, R77). -/

namespace Sys2Proof.Machine

/-! ## An over-range sample -/

/-- The antenna's record after an over-range sample at tick t (R56, R58). -/
def ovrAnt (s : State) (n t : Nat) : Ant :=
  let a := s.ant n
  let forced := s.rd (CNP_ATT.MODE n) ≠ 2
  let again := match a.prevDue with
    | some d => if d + 64 ≤ t ∧ t < d + 1536 ∧ forced then [d + 1536] else []
    | none => []
  let first := if a.active then [] else if forced then [t + 64] else []
  { a with last := t, active := true, dues := a.dues ++ (again ++ first).filter (fun d => !a.dues.contains d), ovrInt := true }

/-- The sample is counted and noted. -/
def ovrNoted (s : State) (n t samples : Nat) : State := (s.setAnt n (ovrAnt s n t)).incBy (CNP_OVR_SMP.COUNT n) samples

/-- The first sample of an episode sets the antenna's bit, counts the episode and raises OVR (R58). -/
def ovrOpened (s : State) (n t samples : Nat) : State :=
  let s1 := ovrNoted s n t samples
  if (s.ant n).active then s1
  else ((s1.wr CNP_OVR_STS.OVR (bitSet (s1.rd CNP_OVR_STS.OVR) n)).inc (CNP_OVR_CNT.COUNT n)).raise 1 0

/-- Both slices are tainted from the episode's last sample on (R59). -/
def ovrTainted (s : State) (n t samples : Nat) : State :=
  [0, 1].foldl (fun u b => addTaint n b ((if (s.ant n).active then (s.ant n).last else t) - sliceD s b) (t + sliceClean s b) u)
    (ovrOpened s n t samples)

/-- A sample is noted, opens an episode, taints, and may be a capture's trigger. -/
theorem overRange_eq (n t samples : Nat) (s : State) :
    ∃ x, overRange n t samples s =
      { ovrTainted (s.at_ t) n t samples with cnp := { (ovrTainted (s.at_ t) n t samples).cnp with capOvr := x } } := by
  unfold overRange ovrTainted ovrOpened ovrNoted ovrAnt
  dsimp only
  split
  · exact ⟨_, rfl⟩
  · exact ⟨_, rfl⟩

theorem ovrAnt_ne (s : State) (n t : Nat) : ovrAnt s n t ≠ {} := fun e => nomatch congrArg Ant.active e

/-- The first sample of an episode makes a forced step due 64 ticks later, outside MANUAL (R56). -/
theorem ovrAnt_due {s : State} {n : Nat} (ha : (s.ant n).active = false) (hm : s.rd (CNP_ATT.MODE n) ≠ 2) (t : Nat) :
    t + 64 ∈ (ovrAnt s n t).dues := by
  unfold ovrAnt
  dsimp only
  rw [ha, if_neg Bool.false_ne_true, if_pos hm, List.mem_append, List.mem_filter, List.mem_append]
  by_cases hd : t + 64 ∈ (s.ant n).dues
  · exact .inl hd
  · exact .inr ⟨.inr List.mem_cons_self, by simpa using hd⟩

/-- The counts of an antenna's over-range have registers of their own. -/
theorem OVR_ne (n : Nat) :
    CNP_OVR_SMP.reg n ≠ CNP_OVR_CNT.reg n ∧ CNP_OVR_STS.reg ≠ CNP_OVR_CNT.reg n ∧ CNP_OVR_STS.reg ≠ CNP_OVR_SMP.reg n := by
  unfold CNP_OVR_SMP.reg CNP_OVR_CNT.reg CNP_OVR_STS.reg
  omega

/-- Where an episode's registers lie: no register of taint, and below the host block. -/
theorem OVR_plain {n a : Nat} (hn : n < 8) (h : a ∈ [CNP_OVR_STS.reg, CNP_OVR_CNT.reg n, CNP_OVR_SMP.reg n]) :
    a ∉ taintRegs ∧ a < 0x900000 := by
  unfold CNP_OVR_SMP.reg CNP_OVR_CNT.reg at h
  simp only [List.mem_cons, List.not_mem_nil, or_false] at h
  rcases h with rfl | rfl | rfl
  · decide
  · exact ⟨not_taintRegs (by omega), by omega⟩
  · exact ⟨not_taintRegs (by omega), by omega⟩

theorem inv_ovrNoted {s : State} (h : s.inv = true) (n t samples : Nat) : (ovrNoted s n t samples).inv = true :=
  inv_incBy (inv_setAnt h n (ovrAnt s n t)) _ _

theorem ovrNoted_only {s : State} (h : s.inv = true) (n t samples : Nat) : stepOnly s (ovrNoted s n t samples) [CNP_OVR_SMP.reg n] :=
  stepOnly_trans (setAnt_stepOnly s n (ovrAnt s n t)) (wr_stepOnly _ (CNP_OVR_SMP.COUNT n) _ (inv_setAnt h n _))

theorem ovrNoted_smp {s : State} (h : s.inv = true) (n t samples : Nat) :
    (ovrNoted s n t samples).rd (CNP_OVR_SMP.COUNT n) = min 0xFFFFFFFF (s.rd (CNP_OVR_SMP.COUNT n) + samples) :=
  rd_incBy (inv_setAnt h n (ovrAnt s n t)) (CNP_OVR_SMP.COUNT n) samples (Nat.le_of_ble_eq_true rfl)

/-- A further sample of an episode does no more than be noted. -/
theorem ovrOpened_active {s : State} {n : Nat} (ha : (s.ant n).active = true) (t samples : Nat) :
    ovrOpened s n t samples = ovrNoted s n t samples := if_pos ha

/-- The first sample's flag and count, before OVR is raised. -/
def ovrFlagged (s1 : State) (n : Nat) : State := (s1.wr CNP_OVR_STS.OVR (bitSet (s1.rd CNP_OVR_STS.OVR) n)).inc (CNP_OVR_CNT.COUNT n)

theorem ovrOpened_first {s : State} {n : Nat} (ha : (s.ant n).active = false) (t samples : Nat) :
    ovrOpened s n t samples = (ovrFlagged (ovrNoted s n t samples) n).raise 1 0 := if_neg (by rw [ha]; exact Bool.false_ne_true)

theorem inv_ovrFlagged {s : State} (h : s.inv = true) (n : Nat) : (ovrFlagged s n).inv = true := inv_inc (inv_wr h _ _) _

theorem ovrFlagged_only {s : State} (h : s.inv = true) (n : Nat) : stepOnly s (ovrFlagged s n) [CNP_OVR_STS.reg, CNP_OVR_CNT.reg n] :=
  stepOnly_trans (wr_stepOnly s CNP_OVR_STS.OVR _ h) (wr_stepOnly _ (CNP_OVR_CNT.COUNT n) _ (inv_wr h _ _))

theorem ovrFlagged_bit {s : State} {n : Nat} (h : s.inv = true) (hn : n < 8) : bitOn ((ovrFlagged s n).rd CNP_OVR_STS.OVR) n = true := by
  have hlt : s.rd CNP_OVR_STS.OVR < 256 := bf_lt _ 0 8
  have hcnt : (ovrFlagged s n).rd CNP_OVR_STS.OVR = (s.wr CNP_OVR_STS.OVR (bitSet (s.rd CNP_OVR_STS.OVR) n)).rd CNP_OVR_STS.OVR :=
    rd_wr_other _ (CNP_OVR_CNT.COUNT n) CNP_OVR_STS.OVR _ (OVR_ne n).2.1 (inv_wr h _ _)
  rw [hcnt, rd_wr_same _ _ _ (by decide) h]
  exact (congrArg (bitOn · n) (Nat.mod_eq_of_lt (bitSet_lt hlt hn))).trans (bitOn_bitSet_same hlt hn)

theorem ovrFlagged_cnt {s : State} (h : s.inv = true) (n : Nat) :
    (ovrFlagged s n).rd (CNP_OVR_CNT.COUNT n) = min 0xFFFFFFFF (s.rd (CNP_OVR_CNT.COUNT n) + 1) :=
  (rd_incBy (inv_wr h _ _) (CNP_OVR_CNT.COUNT n) 1 (Nat.le_of_ble_eq_true rfl)).trans
    (congrArg (fun x => min 0xFFFFFFFF (x + 1)) (rd_wr_other s _ (CNP_OVR_CNT.COUNT n) _ (OVR_ne n).2.1.symm h))

theorem inv_ovrOpened {s : State} (h : s.inv = true) (n t samples : Nat) : (ovrOpened s n t samples).inv = true := by
  have h1 := inv_ovrNoted h n t samples
  cases ha : (s.ant n).active with
  | true => rwa [ovrOpened_active ha]
  | false =>
    rw [ovrOpened_first ha]
    exact inv_raise (inv_ovrFlagged h1 n) 1 0

theorem ovrOpened_only {s : State} (h : s.inv = true) (n t samples : Nat) :
    stepOnly s (ovrOpened s n t samples) [CNP_OVR_STS.reg, CNP_OVR_CNT.reg n, CNP_OVR_SMP.reg n] := by
  have h1 := inv_ovrNoted h n t samples
  cases ha : (s.ant n).active with
  | true =>
    rw [ovrOpened_active ha]
    exact stepOnly_sub (ovrNoted_only h n t samples) (by simp)
  | false =>
    rw [ovrOpened_first ha]
    refine stepOnly_but_taint (stepOnly_trans (stepOnly_trans (ovrNoted_only h n t samples) (ovrFlagged_only h1 n))
      (raise_raisedOnly _ 1 0 _ (inv_ovrFlagged h1 n) rfl).stepOnly) ?_
    simp [taintRegs, CNP_EVT_STS.reg]

/-- Opening an episode does not touch the antennas' records that the sample's note wrote. -/
theorem ovrOpened_cnp (s : State) (n t samples : Nat) : (ovrOpened s n t samples).cnp = (s.setAnt n (ovrAnt s n t)).cnp := by
  cases ha : (s.ant n).active with
  | true =>
    rw [ovrOpened_active ha]
    rfl
  | false =>
    rw [ovrOpened_first ha, raise_cnp]
    rfl

/-- Raising OVR leaves the episode's registers. -/
theorem raise_OVR_rd {s : State} {n : Nat} (h : s.inv = true) (hn : n < 8) {f : RegFld}
    (hf : f.addr ∈ [CNP_OVR_STS.reg, CNP_OVR_CNT.reg n, CNP_OVR_SMP.reg n]) : (s.raise 1 0).rd f = s.rd f := by
  obtain ⟨ht, hlt⟩ := OVR_plain hn hf
  refine raise_rd s 1 0 f h (noPba_of_lt hlt) fun e => ht ?_
  rw [← Option.some.inj e]
  decide

theorem ovrOpened_smp {s : State} {n : Nat} (h : s.inv = true) (hn : n < 8) (t samples : Nat) :
    (ovrOpened s n t samples).rd (CNP_OVR_SMP.COUNT n) = min 0xFFFFFFFF (s.rd (CNP_OVR_SMP.COUNT n) + samples) := by
  have h1 := inv_ovrNoted h n t samples
  have hmem : (CNP_OVR_SMP.COUNT n).addr ∈ [CNP_OVR_STS.reg, CNP_OVR_CNT.reg n, CNP_OVR_SMP.reg n] := by simp [CNP_OVR_SMP.COUNT]
  obtain ⟨hsc, -, hss⟩ := OVR_ne n
  cases ha : (s.ant n).active with
  | true =>
    rw [ovrOpened_active ha]
    exact ovrNoted_smp h n t samples
  | false =>
    rw [ovrOpened_first ha, raise_OVR_rd (inv_ovrFlagged h1 n) hn hmem,
      stepOnly_rd (ovrFlagged_only h1 n) (by simp [CNP_OVR_SMP.COUNT, hsc, hss.symm]) (OVR_plain hn hmem).1 (OVR_plain hn hmem).2]
    exact ovrNoted_smp h n t samples

/-- What the first sample of an episode shows (R58). -/
theorem ovrOpened_first_shows {s : State} {n : Nat} (h : s.inv = true) (hn : n < 8) (ha : (s.ant n).active = false) (t samples : Nat) :
    bitOn ((ovrOpened s n t samples).rd CNP_OVR_STS.OVR) n = true ∧
      (ovrOpened s n t samples).rd (CNP_OVR_CNT.COUNT n) = min 0xFFFFFFFF (s.rd (CNP_OVR_CNT.COUNT n) + 1) ∧
      flagged (ovrOpened s n t samples) 1 0 := by
  have h1 := inv_ovrNoted h n t samples
  have h2 := inv_ovrFlagged h1 n
  have hcnt : (ovrNoted s n t samples).rd (CNP_OVR_CNT.COUNT n) = s.rd (CNP_OVR_CNT.COUNT n) :=
    rd_wr_other _ (CNP_OVR_SMP.COUNT n) (CNP_OVR_CNT.COUNT n) _ (OVR_ne n).1.symm (inv_setAnt h n (ovrAnt s n t))
  rw [ovrOpened_first ha]
  refine ⟨?_, ?_, raise_flagged _ 1 0 _ h2 rfl (by decide)⟩
  · rw [raise_OVR_rd h2 hn (f := CNP_OVR_STS.OVR) List.mem_cons_self]
    exact ovrFlagged_bit h1 hn
  · rw [raise_OVR_rd h2 hn (f := CNP_OVR_CNT.COUNT n) (List.mem_cons_of_mem _ List.mem_cons_self), ovrFlagged_cnt h1, hcnt]

/-- A further sample of an episode does not count another (R58). -/
theorem ovrOpened_active_cnt {s : State} {n : Nat} (h : s.inv = true) (ha : (s.ant n).active = true) (t samples : Nat) :
    (ovrOpened s n t samples).rd (CNP_OVR_CNT.COUNT n) = s.rd (CNP_OVR_CNT.COUNT n) := by
  rw [ovrOpened_active ha]
  exact rd_wr_other _ (CNP_OVR_SMP.COUNT n) (CNP_OVR_CNT.COUNT n) _ (OVR_ne n).1.symm (inv_setAnt h n (ovrAnt s n t))

/-- The taint of a sample. -/
theorem ovrTainted_spec {s : State} {n : Nat} (h : s.inv = true) (hn : n < 8) (t samples : Nat) :
    TaintStep (ovrOpened s n t samples) (ovrTainted s n t samples) ∧ ((ovrTainted s n t samples).atb < t + 65536 → ∀ b, b < 2 →
      tainted (ovrTainted s n t samples) n b ((if (s.ant n).active then (s.ant n).last else t) - sliceD s b) (t + sliceClean s b)) := by
  obtain ⟨hs, ht⟩ := addTaint_both (inv_ovrOpened h n t samples) hn
    (fun b => (if (s.ant n).active then (s.ant n).last else t) - sliceD s b) (fun b => t + sliceClean s b)
  refine ⟨hs, fun hr => ht ?_⟩
  rw [← hs.atb]
  exact Nat.lt_of_lt_of_le hr (by omega)

/-- Taking the trigger's instant beside a step leaves the step. -/
theorem stepOnly_capOvr {s t : State} {as : List Nat} (a : stepOnly s t as) (x : Option Nat) :
    stepOnly { s with cnp := { s.cnp with capOvr := x } } { t with cnp := { t.cnp with capOvr := x } } as := by
  refine ⟨?_, a.2⟩
  rw [a.1]

/-- OVER_RANGE while streams flow (R56, R58, R59). -/
theorem overRange_opens {s : State} {n : Nat} (h : s.inv = true) (hn : n < 8) (hon : streamsOn s = true) (t samples : Nat) :
    ∃ u, exec (.overRange n t samples) s = .next u ∧ (u.ant n).active = true ∧ (u.ant n).last = t ∧ (u.ant n).ovrInt = true ∧
      u.rd (CNP_OVR_SMP.COUNT n) = min 0xFFFFFFFF (s.rd (CNP_OVR_SMP.COUNT n) + samples) ∧
      (∀ b, b < 2 → u.atb < t + 65536 →
        tainted u n b ((if (s.ant n).active then (s.ant n).last else t) - sliceD s b) (t + sliceClean s b)) ∧
      u.cnp.ants = sset (fun _ => {}) s.cnp.ants n (u.ant n) ∧
      ((s.ant n).active = false →
        bitOn (u.rd CNP_OVR_STS.OVR) n = true ∧ u.rd (CNP_OVR_CNT.COUNT n) = min 0xFFFFFFFF (s.rd (CNP_OVR_CNT.COUNT n) + 1) ∧
          flagged u 1 0 ∧ (s.rd (CNP_ATT.MODE n) ≠ 2 → t + 64 ∈ (u.ant n).dues)) ∧
      ((s.ant n).active = true → u.rd (CNP_OVR_CNT.COUNT n) = s.rd (CNP_OVR_CNT.COUNT n)) ∧
      stepOnly { s.at_ t with cnp := { s.cnp with capOvr := u.cnp.capOvr } } u [CNP_OVR_STS.reg, CNP_OVR_CNT.reg n, CNP_OVR_SMP.reg n] := by
  have ha := inv_at h t
  obtain ⟨x, hx⟩ := overRange_eq n t samples s
  obtain ⟨hstep, htaint⟩ := ovrTainted_spec ha hn t samples
  have hexec : exec (.overRange n t samples) s = .next (overRange n t samples s) := by
    refine (ranged_next hn _).trans ?_
    rw [if_pos hon]
  have hants : (ovrTainted (s.at_ t) n t samples).cnp.ants = sset (fun _ => {}) s.cnp.ants n (ovrAnt (s.at_ t) n t) := by
    rw [hstep.cnp, ovrOpened_cnp, ← at_cnp s t]
    rfl
  have hant : (ovrTainted (s.at_ t) n t samples).ant n = ovrAnt (s.at_ t) n t := by
    unfold State.ant
    rw [hants, ← at_cnp s t]
    exact ant_setAnt (s.at_ t) n (ovrAnt_ne _ n t)
  have hrd : ∀ f : RegFld, f.addr ∈ [CNP_OVR_STS.reg, CNP_OVR_CNT.reg n, CNP_OVR_SMP.reg n] →
      (ovrTainted (s.at_ t) n t samples).rd f = (ovrOpened (s.at_ t) n t samples).rd f := fun f hf =>
    hstep.rd (OVR_plain hn hf).1 (OVR_plain hn hf).2
  have hsmp := hrd (CNP_OVR_SMP.COUNT n) (by simp [CNP_OVR_SMP.COUNT])
  have hcnt := hrd (CNP_OVR_CNT.COUNT n) (by simp [CNP_OVR_CNT.COUNT])
  have hat : ∀ f : RegFld, 0x100400 ≤ f.addr → (s.at_ t).rd f = s.rd f := fun f hf => at_rd h (by omega) t
  have haddr : 0x100400 ≤ CNP_OVR_SMP.reg n ∧ 0x100400 ≤ CNP_OVR_CNT.reg n := by
    unfold CNP_OVR_SMP.reg CNP_OVR_CNT.reg
    omega
  rw [hexec, hx]
  refine ⟨_, rfl, congrArg Ant.active hant, congrArg Ant.last hant, congrArg Ant.ovrInt hant, ?_, fun b hb hr => ?_, hants.trans (hant ▸ rfl),
    fun hf => ?_, fun hact => ?_, ?_⟩
  · exact hsmp.trans ((ovrOpened_smp ha hn t samples).trans (by rw [hat (CNP_OVR_SMP.COUNT n) haddr.1]))
  · have := htaint hr b hb
    rwa [(at_slice_times h t b).1, (at_slice_times h t b).2, at_ant] at this
  · obtain ⟨hbit, hone, hflag⟩ := ovrOpened_first_shows ha hn (by rwa [at_ant]) t samples
    refine ⟨?_, hcnt.trans (hone.trans (by rw [hat (CNP_OVR_CNT.COUNT n) haddr.2])), hstep.event 0 hflag, fun hm => ?_⟩
    · exact (congrArg (bitOn · n) (hrd CNP_OVR_STS.OVR List.mem_cons_self)).trans hbit
    · have hdue := ovrAnt_due (s := s.at_ t) (by rwa [at_ant]) (by rwa [hat (CNP_ATT.MODE n) (Nat.le_add_right _ _)]) t
      exact hant ▸ hdue
  · exact hcnt.trans ((ovrOpened_active_cnt ha (by rwa [at_ant]) t samples).trans (hat (CNP_OVR_CNT.COUNT n) haddr.2))
  · rw [← at_cnp s t]
    exact stepOnly_sub (stepOnly_capOvr (stepOnly_trans (ovrOpened_only ha n t samples) hstep.stepOnly) x) (by simp)

/-! ## The end of taint -/

/-- The enabled antennas hang on the power state and its sets (R360). -/
theorem antEnabled_of_regs {s t : State} (hp : t.pwr = s.pwr) (hen : t.reg CNP_ANT_EN.reg = s.reg CNP_ANT_EN.reg)
    (hsts : t.reg PWR_STS.reg = s.reg PWR_STS.reg) (htrim : t.reg PWR_TRIM_CFG.reg = s.reg PWR_TRIM_CFG.reg)
    (hwatch : t.reg PWR_WATCH_CFG.reg = s.reg PWR_WATCH_CFG.reg) (n : Nat) : antEnabled t n = antEnabled s n := by
  unfold antEnabled State.powerState
  rw [hp, rd_of_reg (f := CNP_ANT_EN.EN) hen, rd_of_reg (f := PWR_STS.STATE) hsts, rd_of_reg (f := PWR_TRIM_CFG.ANT) htrim,
    rd_of_reg (f := PWR_WATCH_CFG.ANT) hwatch]

/-- The state in which the antenna reads as tainted no more and has rejoined its lanes. -/
def taintCleared (s : State) (n b : Nat) : State := rescale n b (s.wr (taintNowF b) (bitClr (s.rd (taintNowF b)) n))

theorem inv_taintCleared {s : State} (h : s.inv = true) (n b : Nat) : (taintCleared s n b).inv = true := by
  unfold taintCleared
  exact kept_inv (kept_rescale n b _ (kept_refl (inv_wr h _ _)))

@[simp] theorem rescale_reg (n b a : Nat) (s : State) : (rescale n b s).reg a = s.reg a := rfl

theorem taintCleared_reg {s : State} (h : s.inv = true) (n b : Nat) {a : Nat} (ha : a ≠ CNP_TAINT_NOW.reg) :
    (taintCleared s n b).reg a = s.reg a := reg_wr_other s _ _ a (by rwa [taintNowF_addr]) h

/-- The present taint of the slice loses antenna n and no other. -/
theorem taintCleared_now {s : State} {n : Nat} (h : s.inv = true) (hn : n < 8) (b : Nat) :
    bitOn ((taintCleared s n b).rd (taintNowF b)) n = false ∧
      ∀ m, m ≠ n → bitOn ((taintCleared s n b).rd (taintNowF b)) m = bitOn (s.rd (taintNowF b)) m := by
  have hlt := rd_taintNowF_lt s b
  have e : (taintCleared s n b).rd (taintNowF b) = bitClr (s.rd (taintNowF b)) n :=
    (rd_of_reg (rescale_reg n b _ _)).trans (rd_wr_taintNowF_same h (bitClr_lt hlt hn))
  rw [e]
  exact ⟨bitOn_bitClr_same hlt hn, fun m hm => bitOn_bitClr_other hlt hn hm⟩

/-- A lane that holds the antenna's weight takes the change of attenuation since its SFD (R77). -/
theorem rescale_lane {s : State} {n b : Nat} (hn : n < 8) {p : Nat × Lane} (hp : p ∈ s.lanes) (hs : laneSlice p.2 = b)
    (hw : bitOn p.2.wmask n = true) (ha : p.2.atts ≠ []) :
    ∃ y, (p.1, y) ∈ (rescale n b s).lanes ∧ y.wdb.getD n 0 = (s.rd (CNP_ATT.ATT n) : Int) - (p.2.atts.getD n 0 : Nat) := by
  refine ⟨_, List.mem_map.mpr ⟨p, hp, if_pos ⟨hs, hw, ha⟩⟩, ?_⟩
  simp [hn]

/-- Time leaves the radio's and the power block's registers that the canopy reads. -/
theorem at_antEnabled {s : State} (h : s.inv = true) (t n : Nat) : antEnabled (s.at_ t) n = antEnabled s n :=
  antEnabled_of_regs (at_pwr s t) (at_reg t _ s h (.inr (by decide))) (at_reg t _ s h (.inl (by decide))) (at_reg t _ s h (.inl (by decide)))
    (at_reg t _ s h (.inl (by decide))) n

/-- TAINT_END of a present taint (R59, R62, R77). -/
theorem taintEnd_rejoins {s : State} {n b e : Nat} (h : s.inv = true) (hn : n < 8) (hb : b < 2) (hsome : taintEndAt s n b = some e)
    (he : e ≤ (s.at_ e).atb) :
    ∃ u, exec (.taintEnd n b) s = .next u ∧ bitOn (u.rd (taintNowF b)) n = false ∧ (antEnabled s n = true → u.rd (blindF b) = 0) ∧
      (∀ m, m ≠ n → m < 8 → bitOn (u.rd (taintNowF b)) m = bitOn (s.rd (taintNowF b)) m) ∧
      (∀ p ∈ s.lanes, laneSlice p.2 = b → bitOn p.2.wmask n = true → p.2.atts ≠ [] →
        ∃ y, (p.1, y) ∈ u.lanes ∧ y.wdb.getD n 0 = (s.rd (CNP_ATT.ATT n) : Int) - (p.2.atts.getD n 0 : Nat)) ∧
      raisedOnly { s.at_ e with lanes := u.lanes } u [CNP_TAINT_NOW.reg, CNP_STS.reg, CNP_BLIND_CNT.reg, CNP_EVT_STS.reg] := by
  have ha := inv_at h e
  have hc := inv_taintCleared ha n b
  obtain ⟨hoff, hrest⟩ := taintCleared_now ha hn b
  have hnow := blindCheck_rd_taintNowF hc b b
  obtain ⟨hframe, hregs⟩ := blindCheck_raisedOnly hc b
  have hexec : exec (.taintEnd n b) s = .next (blindCheck b (taintCleared (s.at_ e) n b)) := by
    have hin : (decide (n < 8) && decide (b < 2)) = true := by simp [hn, hb]
    refine (if_pos hin).trans (congrArg _ ?_)
    unfold taintEnd
    rw [hsome]
    exact if_pos he
  have hlanes : (blindCheck b (taintCleared (s.at_ e) n b)).lanes = (taintCleared (s.at_ e) n b).lanes := by rw [hframe]
  have hkept : antEnabled (taintCleared (s.at_ e) n b) n = antEnabled (s.at_ e) n := by
    refine antEnabled_of_regs (s := s.at_ e) (t := taintCleared (s.at_ e) n b) rfl ?_ ?_ ?_ ?_ n <;> exact taintCleared_reg ha n b (by decide)
  have hen : antEnabled (taintCleared (s.at_ e) n b) n = antEnabled s n := hkept.trans (at_antEnabled h e n)
  refine ⟨_, hexec, ?_, fun hs => blindCheck_clear hc hn (hen.trans hs) hoff, fun m hm _ => ?_, fun p hp hs hw hatts => ?_, ?_, fun a hx hp => ?_⟩
  · rw [hnow]
    exact hoff
  · rw [hnow, hrest m hm, at_rd h (by rw [taintNowF_addr]; decide)]
  · rw [hlanes]
    obtain ⟨y, hy, hdb⟩ := rescale_lane (s := (s.at_ e).wr (taintNowF b) (bitClr ((s.at_ e).rd (taintNowF b)) n)) (b := b) hn (p := p)
      ((at_lanes s e).symm ▸ hp) hs hw hatts
    refine ⟨y, hy, hdb.trans ?_⟩
    have hlow : 0x100400 ≤ (CNP_ATT.ATT n).addr := Nat.le_add_right _ _
    rw [rd_wr_other _ _ (CNP_ATT.ATT n) _ (by rw [taintNowF_addr]; exact fun e => absurd (e ▸ hlow) (by decide)) ha, at_rd h (by omega)]
  · rw [hframe]
    rfl
  · rw [List.mem_cons, not_or] at hx
    exact (hregs a hx.2 hp).trans (taintCleared_reg ha n b hx.1)

/-- Settles O12: a sample's note and flag lie in registers that the taint leaves, and the taint covers the interval from the episode's last
sample; at the end of a taint one bit of the slice's mask goes, which frees the slice of blindness, and lanes take the gain's change. -/
theorem overRangeOpensAndClosesAnEpisode : Obligations.OverRangeOpensAndClosesAnEpisode := by
  refine fun s n h hn => ⟨fun t samples hoff => ?_, fun t samples hon => overRange_opens h hn hon t samples, fun ha => ?_, fun ha => ?_,
    fun b hb hnone => ?_, fun b e hb hsome he => taintEnd_rejoins h hn hb hsome he⟩
  · exact (ranged_next hn _).trans (congrArg _ (if_neg (by rw [hoff]; exact Bool.false_ne_true)))
  · exact (ranged_next hn _).trans (congrArg _ (if_pos ha))
  · exact (ranged_next hn _).trans (congrArg _ (if_neg (by rw [ha]; exact Bool.false_ne_true)))
  · have hin : (decide (n < 8) && decide (b < 2)) = true := by simp [hn, hb]
    refine (if_pos hin).trans (congrArg _ ?_)
    unfold taintEnd
    rw [hnone]

end Sys2Proof.Machine

/-! The end of filling: the capture memory is written over as a range of offsets (R66). -/

namespace Sys2Proof.Machine

/-- A capture of slice samples of antenna 0 whose trigger has fired, in a device that holds a word at offset 0x180001, inside the capture
memory and between two of its registers. -/
def capturePosted : State :=
  ([(CNP_CAP_STS.STATE, 3), (CNP_CAP_CFG.SOURCE, 1), (CNP_CAP_CFG.ANT_MASK, 1)].foldl (fun u p => u.wr p.1 p.2) State.reset).setReg 0x180001 5#32

/-- It has the invariant, the capture stands in POST and its configuration is valid. -/
theorem capturePosted_ready :
    capturePosted.inv = true ∧ reaches capturePosted .pf CNP_CAP_CTRL.reg ∧ capturePosted.rd CNP_CAP_STS.STATE = 3 ∧
      capValid capturePosted = true := by decide +kernel

/-- Time and the return of the leave keep the word. -/
theorem capturePosted_word : ((capturePosted.at_ (capEnd capturePosted)).returnLeave .capture).reg 0x180001 = 5#32 := by decide +kernel

/-- The end of filling clears it with the words that the capture writes. -/
theorem captureDone_clears_word : (captureDone [] capturePosted).reg 0x180001 = 0#32 := by decide +kernel

/-- Refutes O10: its last clause has the end of filling leave every offset that is none of the 131,072 capture registers, but the model
blanks the whole range of offsets that the capture fills, and the invariant allows words between the registers. In `capturePosted`
the word at 0x180001 is lost. -/
theorem not_captureCommandsMoveTheCapture : ¬ Obligations.CaptureCommandsMoveTheCapture := by
  intro h
  obtain ⟨hinv, hreach, hstate, hvalid⟩ := capturePosted_ready
  obtain ⟨-, -, -, -, -, -, -, -, -, -, hdone⟩ := h .pf capturePosted hinv hreach
  obtain ⟨t, ht, -, -, -, -, -, -, -, hregs⟩ := hdone hstate hvalid []
  obtain rfl : captureDone [] capturePosted = t := Host.Outcome.next.inj ht
  have hout : ∀ k, k < 131072 → 0x180001 ≠ CNP_CAP_MEM.reg k := fun k _ => by
    unfold CNP_CAP_MEM.reg
    omega
  have hsame := hregs 0x180001 (by decide) hout (noPba_of_lt (by decide))
  rw [captureDone_clears_word, capturePosted_word] at hsame
  exact absurd hsame (by decide)

end Sys2Proof.Machine

/-! Search: the hold-off that a detection leaves (R49). -/

namespace Sys2Proof.Machine

/-- Detection of point 0 searches: FS is locked, the RADIO domain runs, antenna 0 and point 0 are enabled, with a threshold and a hold-off of
zero and a noise estimate. -/
def searchingPoint : State :=
  let s : State := { State.reset with radioHeld := false, clk := { State.reset.clk with tb := true } }
  { [(CNP_CTRL.SEARCH, 1), (CNP_ANT_EN.EN, 1), (CNP_POINT.EN 0, 1), (CNP_THR.THR 0, 0), (CNP_THR.HOLDOFF 0, 0)].foldl (fun u p => u.wr p.1 p.2) s with
    cnp := { noise := [(0, [2])], holds := [(0, (0, 0)), (0, (5, 5))] } }

/-- Point 0 hears nothing. -/
def silentObs : PointObs := ⟨0, [], 0, []⟩

/-- With a threshold of zero the silent point detects at tick 0, outside every hold-off and pairing window. -/
theorem searchingPoint_detects :
    searchingPoint.inv = true ∧ searchOn searchingPoint = true ∧ rateSlice (searchingPoint.rd (CNP_POINT.RATE silentObs.point)) = 1 ∧
      evalPoint (searchingPoint.at_ (0 + sliceD searchingPoint 1)) 0 silentObs = some ⟨silentObs, 1, 0⟩ ∧
      detects searchingPoint ⟨silentObs, 1, 0⟩ = true ∧ searchingPoint.on (blindF 1) = false ∧
      (sget (fun _ => (0, 0)) searchingPoint.cnp.holds (groupOf searchingPoint silentObs.point)).1 ≤ 0 ∧ searchingPoint.cnp.pairs = [] ∧
      searchingPoint.cnp.cands.length < 64 := by decide +kernel

/-- The hold-off it leaves is (0, 0), which the table takes as no entry: the group's older pair of the table shows. -/
theorem searchingPoint_hold :
    sget (fun _ => (0, 0)) (correlationStep 1 0 [silentObs] searchingPoint).cnp.holds (groupOf searchingPoint silentObs.point) = (5, 5) := by
  decide +kernel

/-- Refutes O13: its third clause says that the hold-off table reads the hold-off of the detection just issued, but the invariant does not
keep that table canonical. In `searchingPoint` group 0 is listed twice; the step at tick 0, with hold-off and score zero, removes one
entry and the table reads the other. -/
theorem not_searchFillsTheCandidateQueueInOrder : ¬ Obligations.SearchFillsTheCandidateQueueInOrder := by
  intro h
  obtain ⟨hinv, hon, hslice, heval, hdet, hblind, hhold, hpairs, hcred⟩ := searchingPoint_detects
  obtain ⟨-, -, hissue, -⟩ := h searchingPoint 1 hinv (by decide)
  obtain ⟨u, c, hu, -, -, -, -, -, -, -, -, -, -, -, -, -, -, -, hold⟩ := hissue 0 silentObs _ hon hslice heval hdet hblind hhold
    (fun w hw => absurd (hpairs ▸ hw) List.not_mem_nil) hcred
  obtain rfl : correlationStep 1 0 [silentObs] searchingPoint = u := Host.Outcome.next.inj hu
  have hzero : searchingPoint.rd (CNP_THR.HOLDOFF (searchingPoint.rd (CNP_POINT.THR_CLASS silentObs.point))) = 0 := by decide +kernel
  rw [searchingPoint_hold, hzero] at hold
  exact absurd hold (by decide)

end Sys2Proof.Machine

/-! The lanes as a table, the queue fabric's cells as they touch it, and the release of a lane (R69, R75, R192-R194). -/

namespace Sys2Proof.Machine

/-! ## Tables written without regard to their order -/

theorem sfind_sput_same {α : Type} (k : Nat) (v : α) : ∀ m : Sparse α, sfind (sput m k v) k = some v
  | [] => by simp [sput, sfind]
  | (j, u) :: m => by
    have ih := sfind_sput_same k v m
    unfold sput
    split
    · simp [sfind]
    · next hne =>
      split
      · simp [sfind]
      · unfold sfind at ih ⊢
        rwa [List.find?_cons_of_neg (by simpa using fun e => hne e.symm)]

/-- Removing a key that was just bound removes what was bound before. -/
theorem sdel_sput_same {α : Type} (k : Nat) (v : α) : ∀ m : Sparse α, sdel (sput m k v) k = sdel m k
  | [] => by simp [sput, sdel]
  | (j, u) :: m => by
    have ih := sdel_sput_same k v m
    by_cases e : k = j
    · simp [sput, sdel, e]
    · by_cases hl : k < j
      · simp [sput, sdel, e, hl]
      · simp [sput, sdel, e, hl, ih]

/-- Binding a key leaves every other key of any table. -/
theorem sget_sput_ne {α : Type} (d : Nat → α) {k x : Nat} (v : α) (hx : x ≠ k) : ∀ m : Sparse α, sget d (sput m k v) x = sget d m x
  | [] => by simp [sput, sget, hx]
  | (j, u) :: m => by
    have ih := sget_sput_ne d v hx m
    by_cases e : k = j
    · subst e
      simp [sput, sget, hx]
    · by_cases hl : k < j
      · by_cases hk : x < k
        · simp [sput, sget, e, hl, hx, hk, Nat.ne_of_lt (hk.trans hl), hk.trans hl]
        · simp [sput, sget, e, hl, hx, hk]
      · simp [sput, sget, e, hl, ih]

theorem mem_of_sfind {α : Type} {m : Sparse α} {k : Nat} {v : α} (h : sfind m k = some v) : (k, v) ∈ m := by
  unfold sfind at h
  obtain ⟨p, hp, rfl⟩ := Option.map_eq_some_iff.mp h
  have hk := List.find?_some hp
  rw [beq_iff_eq] at hk
  exact hk ▸ List.mem_of_find?_eq_some hp

/-! ## Lanes -/

@[simp] theorem putLane_lanes (s : State) (l : Nat) (x : Lane) : (s.putLane l x).lanes = sput s.lanes l x := rfl
@[simp] theorem putLane_reg (s : State) (l a : Nat) (x : Lane) : (s.putLane l x).reg a = s.reg a := rfl
@[simp] theorem putLane_rd (s : State) (l : Nat) (x : Lane) (f : RegFld) : (s.putLane l x).rd f = s.rd f := rfl

theorem inv_putLane {s : State} (h : s.inv = true) (l : Nat) (x : Lane) : (s.putLane l x).inv = true := h

theorem lane_of_lanes {s t : State} (h : t.lanes = s.lanes) (l : Nat) : t.lane l = s.lane l := by
  unfold State.lane
  rw [h]

theorem lane_of_sput {s t : State} {l : Nat} {x : Lane} (h : t.lanes = sput s.lanes l x) : t.lane l = some x := by
  unfold State.lane
  rw [h, sfind_sput_same]

/-- A command on lane l below 512 has its effect. -/
theorem ranged_lane {l : Nat} (hl : l < 512) (t : State) : ranged (l < 512) t = .next t := if_pos (decide_eq_true hl)

/-- Offset a is the status register of a listed lane. -/
def onLane (s : State) (a : Nat) : Prop := ∃ p ∈ s.lanes, a = LNE_LANE_STS.reg p.1

theorem not_onLane_of_lt {s : State} {a : Nat} (h : a < LNE_LANE_STS.reg 0) : ¬onLane s a := by
  rintro ⟨p, -, e⟩
  unfold LNE_LANE_STS.reg at *
  omega

theorem LNE_LANE_STS_reg_inj {l m : Nat} (h : LNE_LANE_STS.reg l = LNE_LANE_STS.reg m) : l = m := by
  unfold LNE_LANE_STS.reg at h
  omega

theorem onLane_of_lane {s : State} {l : Nat} {x : Lane} (h : s.lane l = some x) : onLane s (LNE_LANE_STS.reg l) := ⟨_, mem_of_sfind h, rfl⟩

theorem wr_frame (s : State) (f : RegFld) (v : Nat) : s.wr f v = { s with regs := (s.wr f v).regs } := rfl

/-- Fields of different registers, or side by side in one, do not disturb each other. -/
theorem rd_wr_apart {s : State} {f g : RegFld} {v : Nat} (h : s.inv = true) (hf : f.lo + f.w ≤ 32)
    (hd : g.addr ≠ f.addr ∨ g.lo + g.w ≤ f.lo ∨ f.lo + f.w ≤ g.lo) : (s.wr f v).rd g = s.rd g := by
  by_cases e : g.addr = f.addr
  · exact rd_wr_beside s f g v hf e (hd.resolve_left fun n => n e) h
  · exact rd_wr_other s f g v e h

/-- A field reads a value that fits it. -/
theorem rd_wr_fits {s : State} {f : RegFld} {v : Nat} (h : s.inv = true) (hf : f.lo + f.w ≤ 32) (hv : v < 2 ^ f.w) : (s.wr f v).rd f = v :=
  (rd_wr_same s f v hf h).trans (Nat.mod_eq_of_lt hv)

/-- A 32-bit counter counts one more. -/
theorem rd_inc_same {s : State} {f : RegFld} (h : s.inv = true) (hf : f.lo + f.w ≤ 32) : (s.inc f).rd f = min (2 ^ f.w - 1) (s.rd f + 1) :=
  (incBy_sets s f 1 h hf).1

/-! ## The queue fabric's operations -/

/-- What operations on cells and contexts can change: the queue fabric's state and registers, the free values, and what raised events
bring. -/
structure QueStep (s t : State) : Prop where
  inv : t.inv = true
  frame : t = { s with regs := t.regs, vregs := t.vregs, posted := t.posted, evr := t.evr, free := t.free, que := t.que }
  reg : ∀ a, noPba a → (a < 0x500000 ∨ 0x600000 ≤ a) → t.reg a = s.reg a

theorem QueStep.refl {s : State} (h : s.inv = true) : QueStep s s := ⟨h, rfl, fun _ _ _ => rfl⟩

theorem QueStep.trans {s t u : State} (a : QueStep s t) (b : QueStep t u) : QueStep s u where
  inv := b.inv
  frame := by rw [b.frame, a.frame]
  reg x hp hx := (b.reg x hp hx).trans (a.reg x hp hx)

theorem QueStep.lanes {s t : State} (a : QueStep s t) : t.lanes = s.lanes := by rw [a.frame]

theorem QueStep.rd {s t : State} (a : QueStep s t) {f : RegFld} (hf : f.addr < 0x500000) : t.rd f = s.rd f :=
  rd_of_reg (a.reg _ (noPba_of_lt (hf.trans (by decide))) (.inl hf))

theorem QueStep.foldl {α : Type} {f : State → α → State} (hf : ∀ u x, u.inv = true → QueStep u (f u x)) :
    ∀ (l : List α) {s : State}, s.inv = true → QueStep s (l.foldl f s)
  | [], _, h => .refl h
  | x :: l, s, h => (hf s x h).trans (QueStep.foldl hf l (hf s x h).inv)

theorem queStep_wr {s : State} (h : s.inv = true) {f : RegFld} (hlo : 0x500000 ≤ f.addr) (hhi : f.addr < 0x600000) (v : Nat) :
    QueStep s (s.wr f v) :=
  ⟨inv_wr h f v, rfl, fun a _ ha => reg_wr_other s f v a (by omega) h⟩

theorem queStep_inc {s : State} (h : s.inv = true) {f : RegFld} (hlo : 0x500000 ≤ f.addr) (hhi : f.addr < 0x600000) : QueStep s (s.inc f) :=
  queStep_wr h hlo hhi _

theorem queStep_raise {s : State} (h : s.inv = true) (b : Nat) : QueStep s (s.raise 5 b) := by
  obtain ⟨hf, hr⟩ := raise_raisedOnly s 5 b 0x500014 h rfl
  refine ⟨inv_raise h 5 b, ?_, fun a hp ha => hr a ?_ hp⟩
  · rw [hf]
  · rw [List.mem_singleton]
    omega

theorem queStep_que {s : State} (h : s.inv = true) (q : Que) : QueStep s { s with que := q } := ⟨h, rfl, fun _ _ _ => rfl⟩

theorem queStep_setCell {s : State} (h : s.inv = true) (k : Nat) (c : FCell) : QueStep s (s.setCell k c) := queStep_que h _

theorem queStep_setFree {s : State} (h : s.inv = true) (v : Nat) : QueStep s (setFree v s) := by
  have h1 := queStep_wr h (f := QUE_STS.FREE) (by decide) (by decide) v
  have h2 : QueStep s (if v < s.rd QUE_FREE_MIN.MIN then (s.wr QUE_STS.FREE v).wr QUE_FREE_MIN.MIN v else s.wr QUE_STS.FREE v) := by
    split
    · exact h1.trans (queStep_wr h1.inv (by decide) (by decide) v)
    · exact h1
  unfold setFree
  dsimp only
  split
  · exact h2.trans (queStep_raise h2.inv 6)
  · exact h2

theorem QUE_PUSE_addr {a : Nat} (ha : a < 64) : 0x500000 ≤ (QUE_PUSE.USE a).addr ∧ (QUE_PUSE.USE a).addr < 0x600000 := by
  dsimp only [QUE_PUSE.USE, QUE_PUSE.reg]
  omega

theorem queStep_useMore {s : State} (h : s.inv = true) (a n : Nat) : QueStep s (useMore a n s) := by
  unfold useMore
  split
  · next ha => exact queStep_wr h (QUE_PUSE_addr ha).1 (QUE_PUSE_addr ha).2 _
  · exact queStep_que h _

theorem queStep_useLess {s : State} (h : s.inv = true) (a n : Nat) : QueStep s (useLess a n s) := by
  unfold useLess
  split
  · next ha => exact queStep_wr h (QUE_PUSE_addr ha).1 (QUE_PUSE_addr ha).2 _
  · exact queStep_que h _

theorem queStep_freeCell {s : State} (h : s.inv = true) (k : Nat) : QueStep s (freeCell s k) := by
  unfold freeCell
  split
  · exact .refl h
  · next a _ =>
    have h1 := queStep_setCell h k { s.cell k with acct := none, owner := none, hdrCell := false }
    have h2 := h1.trans (queStep_setFree h1.inv (s.rd QUE_STS.FREE + 1))
    exact h2.trans (queStep_useLess h2.inv a 1)

theorem queStep_freeCells {s : State} (h : s.inv = true) (ks : List Nat) : QueStep s (freeCells ks s) :=
  QueStep.foldl (fun _ k hu => queStep_freeCell hu k) ks h

theorem queStep_moveCell {s : State} (h : s.inv = true) (p k : Nat) : QueStep s (moveCell p s k) := by
  unfold moveCell
  split
  · exact .refl h
  · next b _ =>
    have h1 := queStep_setCell h k { s.cell k with acct := some p }
    have h2 := h1.trans (queStep_useLess h1.inv b 1)
    exact h2.trans (queStep_useMore h2.inv p 1)

theorem queStep_moveCells {s : State} (h : s.inv = true) (p : Nat) (ks : List Nat) : QueStep s (ks.foldl (moveCell p) s) :=
  QueStep.foldl (fun _ k hu => queStep_moveCell hu p k) ks h

theorem queStep_takeCells {s : State} (h : s.inv = true) (a n : Nat) : QueStep s (takeCells a n s).1 := by
  have h0 : QueStep s s.freed := ⟨h, rfl, fun _ _ _ => rfl⟩
  have h1 := h0.trans (QueStep.foldl (f := takeCell a) (fun u k hu => queStep_setCell hu k _) (freeFrom s (s.freeVal storeCells) n) h0.inv)
  have h2 := h1.trans (queStep_setFree h1.inv (s.rd QUE_STS.FREE - n))
  exact h2.trans (queStep_useMore h2.inv a n)

/-! ## Pairs -/

/-- The partner of a lane is another listed lane (R75). -/
theorem partner_spec {s : State} {l m : Nat} (h : partner s l = some m) : m ≠ l ∧ ∃ z, s.lane m = some z := by
  unfold partner at h
  split at h
  · exact absurd h (by simp)
  · split at h
    · have hm := List.find?_some h
      simp only [Bool.and_eq_true, bne_iff_ne] at hm
      obtain ⟨⟨hne, -⟩, hz⟩ := hm
      refine ⟨hne, ?_⟩
      split at hz
      · next z _ => exact ⟨z, by assumption⟩
      · exact absurd hz (by decide)
    · exact absurd h (by simp)

theorem inv_unpair {s : State} (h : s.inv = true) (l : Nat) : (unpair l s).inv = true := kept_inv (kept_unpair l s (kept_refl h))

/-- Ending a pair writes the partner's status register alone. -/
theorem unpair_frame (l : Nat) (s : State) : unpair l s = { s with regs := (unpair l s).regs } := by
  unfold unpair
  generalize partner s l = m
  cases m with
  | none => rfl
  | some m => exact wr_frame s _ 0

theorem unpair_reg {s : State} {l a : Nat} (h : s.inv = true) (ha : a = LNE_LANE_STS.reg l ∨ ¬onLane s a) : (unpair l s).reg a = s.reg a := by
  unfold unpair
  split
  · next m hm =>
    obtain ⟨hne, z, hz⟩ := partner_spec hm
    refine reg_wr_other s _ 0 a ?_ h
    rintro rfl
    rcases ha with e | hn
    · exact hne (LNE_LANE_STS_reg_inj e)
    · exact hn (onLane_of_lane hz)
  · rfl

/-! ## Release -/

/-- The count of lanes that a lane's account holds: its partition's, or the unattributed one (R69, R73). -/
def accountF (s : State) (l : Nat) : RegFld :=
  if s.on (LNE_LANE_STS.ATTRIB l) then LNE_PSTS.IN_USE (s.rd (LNE_LANE_STS.PART l)) else LNE_POOL_STS.UNATTR

/-- The registers that count lanes. -/
def countsLanes (a : Nat) : Prop := a = LNE_POOL_STS.reg ∨ LNE_PSTS.reg 0 ≤ a ∧ a < LNE_PSTS.reg 64

theorem countsLanes_PSTS {p : Nat} (hp : p < 64) : countsLanes (LNE_PSTS.reg p) := by
  unfold countsLanes LNE_PSTS.reg
  omega

theorem rd_PART_lt (s : State) (l : Nat) : s.rd (LNE_LANE_STS.PART l) < 64 := bf_lt _ 8 6

theorem countsLanes_lt {a : Nat} (h : countsLanes a) : a < LNE_LANE_STS.reg 0 := by
  unfold countsLanes LNE_POOL_STS.reg LNE_PSTS.reg at h
  unfold LNE_LANE_STS.reg
  omega

theorem accountF_counts (s : State) (l : Nat) : countsLanes (accountF s l).addr := by
  unfold accountF
  split
  · exact countsLanes_PSTS (rd_PART_lt s l)
  · exact .inl rfl

theorem accountF_fits (s : State) (l : Nat) : (accountF s l).lo + (accountF s l).w ≤ 32 := by
  unfold accountF
  split <;> exact Nat.le_of_ble_eq_true rfl

theorem accountF_not_FREE (s : State) (l : Nat) :
    LNE_POOL_STS.FREE.addr ≠ (accountF s l).addr ∨ LNE_POOL_STS.FREE.lo + LNE_POOL_STS.FREE.w ≤ (accountF s l).lo := by
  unfold accountF
  split
  · refine .inl ?_
    dsimp only [LNE_POOL_STS.FREE, LNE_POOL_STS.reg, LNE_PSTS.IN_USE, LNE_PSTS.reg]
    omega
  · exact .inr (by decide)

theorem accountF_of_reg {s t : State} {l : Nat} (h : t.reg (LNE_LANE_STS.reg l) = s.reg (LNE_LANE_STS.reg l)) : accountF t l = accountF s l := by
  unfold accountF State.on
  rw [rd_of_reg (f := LNE_LANE_STS.ATTRIB l) h, rd_of_reg (f := LNE_LANE_STS.PART l) h]

/-- What `laneFreed` says of a lane's account. -/
theorem laneFreed_iff {s t : State} {l cause : Nat} : laneFreed s t l cause ↔
    t.lanes = sdel s.lanes l ∧ t.rd (LNE_LANE_STS.STATE l) = 0 ∧ t.rd (LNE_LANE_STS.LAST_CAUSE l) = cause ∧
      t.rd LNE_POOL_STS.FREE = (s.rd LNE_POOL_STS.FREE + 1) % 1024 ∧ t.rd (accountF s l) = s.rd (accountF s l) - 1 := by
  unfold laneFreed accountF
  split <;> rfl

/-- What the release of any listed lane, with or without its cells, leaves beside the counts. -/
structure Released (s t : State) (l cause : Nat) : Prop where
  inv : t.inv = true
  lanes : t.lanes = sdel s.lanes l
  state : t.rd (LNE_LANE_STS.STATE l) = 0
  cause : t.rd (LNE_LANE_STS.LAST_CAUSE l) = cause
  frame : t = { s with regs := t.regs, vregs := t.vregs, posted := t.posted, evr := t.evr, free := t.free, lanes := t.lanes, que := t.que }
  reg : ∀ a, noPba a → ¬countsLanes a → (a < 0x500000 ∨ 0x600000 ≤ a) → a ≠ LNE_LANE_STS.reg l → ¬onLane s a → t.reg a = s.reg a

/-- The state in which lane l holds no frame and its status is its cause alone. -/
def laneVacated (l cause : Nat) (s : State) : State :=
  ({ s with lanes := sdel s.lanes l }.setReg (LNE_LANE_STS.reg l) 0).wr (LNE_LANE_STS.LAST_CAUSE l) cause

theorem inv_laneVacated {s : State} (h : s.inv = true) (l cause : Nat) : (laneVacated l cause s).inv = true :=
  inv_wr (inv_setReg (s := { s with lanes := sdel s.lanes l }) h _ _) _ _

theorem laneVacated_reg {s : State} {l a : Nat} (h : s.inv = true) (ha : a ≠ LNE_LANE_STS.reg l) (cause : Nat) :
    (laneVacated l cause s).reg a = s.reg a := by
  have h0 : ({ s with lanes := sdel s.lanes l } : State).inv = true := h
  exact (reg_wr_other _ _ _ a ha (inv_setReg h0 _ _)).trans (reg_setReg_other _ _ _ _ ha (inv_regs h0))

theorem laneVacated_status {s : State} {cause : Nat} (h : s.inv = true) (hc : cause < 16) (l : Nat) :
    (laneVacated l cause s).rd (LNE_LANE_STS.STATE l) = 0 ∧ (laneVacated l cause s).rd (LNE_LANE_STS.LAST_CAUSE l) = cause := by
  have h0 : ({ s with lanes := sdel s.lanes l } : State).inv = true := h
  have h1 := inv_setReg h0 (LNE_LANE_STS.reg l) 0
  refine ⟨?_, rd_wr_fits h1 (f := LNE_LANE_STS.LAST_CAUSE l) (Nat.le_of_ble_eq_true rfl) hc⟩
  refine (rd_wr_apart (f := LNE_LANE_STS.LAST_CAUSE l) h1 (Nat.le_of_ble_eq_true rfl) (.inr (.inl (Nat.le_of_ble_eq_true rfl)))).trans ?_
  unfold State.rd
  rw [show (LNE_LANE_STS.STATE l).addr = LNE_LANE_STS.reg l from rfl, reg_setReg_same _ _ _ (inv_regs h0)]
  exact (congrArg (· % 2 ^ 3) (Nat.zero_div _)).trans (Nat.zero_mod _)

/-- The pool takes one lane more from an account (R69). -/
def poolTakes (g : RegFld) (s : State) : State :=
  let w := s.wr LNE_POOL_STS.FREE (s.rd LNE_POOL_STS.FREE + 1)
  w.wr g (w.rd g - 1)

theorem inv_poolTakes {s : State} (h : s.inv = true) (g : RegFld) : (poolTakes g s).inv = true := inv_wr (inv_wr h _ _) _ _

theorem poolTakes_reg {s : State} {g : RegFld} {a : Nat} (h : s.inv = true) (hg : countsLanes g.addr) (ha : ¬countsLanes a) :
    (poolTakes g s).reg a = s.reg a :=
  (reg_wr_other _ _ _ a (fun e => ha (e ▸ hg)) (inv_wr h _ _)).trans (reg_wr_other _ _ _ a (fun e => ha (.inl e)) h)

/-- The pool has one lane more and the account, in a field of its own, one less. -/
theorem poolTakes_counts {s : State} {g : RegFld} (h : s.inv = true) (hg : g.lo + g.w ≤ 32)
    (hd : LNE_POOL_STS.FREE.addr ≠ g.addr ∨ LNE_POOL_STS.FREE.lo + LNE_POOL_STS.FREE.w ≤ g.lo) :
    (poolTakes g s).rd LNE_POOL_STS.FREE = (s.rd LNE_POOL_STS.FREE + 1) % 1024 ∧ (poolTakes g s).rd g = s.rd g - 1 := by
  have hw := inv_wr h LNE_POOL_STS.FREE (s.rd LNE_POOL_STS.FREE + 1)
  have hkeep : (s.wr LNE_POOL_STS.FREE (s.rd LNE_POOL_STS.FREE + 1)).rd g = s.rd g :=
    rd_wr_apart h (by decide) (hd.imp Ne.symm .inr)
  refine ⟨(rd_wr_apart hw hg (hd.imp_right .inl)).trans (rd_wr_same s LNE_POOL_STS.FREE _ (by decide) h), ?_⟩
  unfold poolTakes
  dsimp only
  rw [hkeep]
  exact rd_wr_fits hw hg (Nat.lt_of_le_of_lt (Nat.sub_le _ _) (bf_lt _ _ _))

/-- A release vacates the lane and moves one lane from its account to the pool. -/
theorem releaseLane_eq (l cause : Nat) (s : State) :
    releaseLane l cause s = poolTakes (accountF (unpair l s) l) (laneVacated l cause (unpair l s)) := by
  unfold releaseLane accountF poolTakes laneVacated
  dsimp only
  split <;> rfl

theorem not_countsLanes_LANE_STS (l : Nat) : ¬countsLanes (LNE_LANE_STS.reg l) := fun e => by
  have := countsLanes_lt e
  unfold LNE_LANE_STS.reg at this
  omega

theorem poolTakes_frame (g : RegFld) (s : State) : poolTakes g s = { s with regs := (poolTakes g s).regs } := rfl

theorem laneVacated_frame (l cause : Nat) (s : State) :
    laneVacated l cause s = { s with regs := (laneVacated l cause s).regs, lanes := sdel s.lanes l } := rfl

theorem releaseLane_frame (l cause : Nat) (s : State) :
    releaseLane l cause s = { s with regs := (releaseLane l cause s).regs, lanes := sdel s.lanes l } := by
  rw [releaseLane_eq, poolTakes_frame, laneVacated_frame, unpair_frame]

/-- Vacating a lane leaves every register but its own and its partner's. -/
theorem laneVacated_unpair_reg {s : State} {l a : Nat} (h : s.inv = true) (ha : a ≠ LNE_LANE_STS.reg l) (hn : ¬onLane s a) (cause : Nat) :
    (laneVacated l cause (unpair l s)).reg a = s.reg a :=
  (laneVacated_reg (inv_unpair h l) ha cause).trans (unpair_reg h (.inr hn))

theorem releaseLane_account {s : State} (h : s.inv = true) (l cause : Nat) :
    releaseLane l cause s = poolTakes (accountF s l) (laneVacated l cause (unpair l s)) := by
  rw [releaseLane_eq, accountF_of_reg (unpair_reg h (.inl rfl))]

theorem releaseLane_released {s : State} {cause : Nat} (h : s.inv = true) (hc : cause < 16) (l : Nat) :
    Released s (releaseLane l cause s) l cause := by
  have hu := inv_unpair h l
  have hv := inv_laneVacated hu l cause
  have hg := accountF_counts s l
  have heq := releaseLane_account h l cause
  have hstatus := poolTakes_reg hv hg (not_countsLanes_LANE_STS l)
  obtain ⟨hstate, hcause⟩ := laneVacated_status hu hc l
  refine ⟨heq ▸ inv_poolTakes hv _, ?_, ?_, ?_, ?_, fun a _ hn _ hl ho => ?_⟩
  · rw [releaseLane_frame]
  · rw [heq]
    exact (rd_of_reg (f := LNE_LANE_STS.STATE l) hstatus).trans hstate
  · rw [heq]
    exact (rd_of_reg (f := LNE_LANE_STS.LAST_CAUSE l) hstatus).trans hcause
  · rw [releaseLane_frame]
  · rw [heq, poolTakes_reg hv hg hn]
    exact laneVacated_unpair_reg h hl ho cause

theorem releaseLane_freed {s : State} {cause : Nat} (h : s.inv = true) (hc : cause < 16) (l : Nat) :
    laneFreed s (releaseLane l cause s) l cause := by
  have hr := releaseLane_released h hc l
  have hv := inv_laneVacated (inv_unpair h l) l cause
  have hcount : ∀ f : RegFld, countsLanes f.addr → (laneVacated l cause (unpair l s)).rd f = s.rd f := fun f hf =>
    rd_of_reg (laneVacated_unpair_reg h (fun e => not_countsLanes_LANE_STS l (e ▸ hf)) (not_onLane_of_lt (countsLanes_lt hf)) cause)
  obtain ⟨hfree, hless⟩ := poolTakes_counts hv (accountF_fits s l) (accountF_not_FREE s l)
  rw [hcount _ (.inl rfl), ← releaseLane_account h] at hfree
  rw [hcount _ (accountF_counts s l), ← releaseLane_account h] at hless
  exact laneFreed_iff.mpr ⟨hr.lanes, hr.state, hr.cause, hfree, hless⟩

/-- A step that leaves the lanes' table, the lane's status and the counts may precede the release. -/
theorem laneFreed_of_same {s u t : State} {l cause : Nat} (hl : u.lanes = s.lanes) (hs : u.reg (LNE_LANE_STS.reg l) = s.reg (LNE_LANE_STS.reg l))
    (hc : ∀ a, countsLanes a → u.reg a = s.reg a) (h : laneFreed u t l cause) : laneFreed s t l cause := by
  have hcount : ∀ f : RegFld, countsLanes f.addr → u.rd f = s.rd f := fun f hf => rd_of_reg (hc _ hf)
  rw [laneFreed_iff, hl, accountF_of_reg hs, hcount _ (.inl rfl), hcount _ (accountF_counts s l)] at h
  exact laneFreed_iff.mpr h

theorem QueStep.released {s u t : State} {l cause : Nat} (a : QueStep s u) (b : Released u t l cause) : Released s t l cause where
  inv := b.inv
  lanes := a.lanes ▸ b.lanes
  state := b.state
  cause := b.cause
  frame := by rw [b.frame, a.frame]
  reg x hp hn hq hx ho := by
    have hon : ¬onLane u x := by
      unfold onLane
      rwa [a.lanes]
    exact (b.reg x hp hn hq hx hon).trans (a.reg x hp hq)

theorem dropLane_eq {s : State} {l : Nat} {x : Lane} (hx : s.lane l = some x) (cause : Nat) :
    dropLane l cause s = releaseLane l cause (freeCells x.cells s) := by
  unfold dropLane
  rw [hx]

/-- A lane that is released with its cells (R69, R194). -/
theorem dropLane_released {s : State} {l cause : Nat} {x : Lane} (h : s.inv = true) (hc : cause < 16) (hx : s.lane l = some x) :
    Released s (dropLane l cause s) l cause := by
  have hq := queStep_freeCells h x.cells
  rw [dropLane_eq hx]
  exact hq.released (releaseLane_released hq.inv hc l)

theorem QueStep.freed {s u t : State} {l cause : Nat} (a : QueStep s u) (hl : l < 512) (b : laneFreed u t l cause) : laneFreed s t l cause := by
  have hlow : ∀ x, x < 0x500000 → u.reg x = s.reg x := fun x hx => a.reg x (noPba_of_lt (hx.trans (by decide))) (.inl hx)
  refine laneFreed_of_same a.lanes (hlow _ ?_) (fun x hx => hlow x ((countsLanes_lt hx).trans (by decide))) b
  unfold LNE_LANE_STS.reg
  omega

theorem dropLane_freed {s : State} {l cause : Nat} {x : Lane} (h : s.inv = true) (hl : l < 512) (hc : cause < 16) (hx : s.lane l = some x) :
    laneFreed s (dropLane l cause s) l cause := by
  have hq := queStep_freeCells h x.cells
  rw [dropLane_eq hx]
  exact hq.freed hl (releaseLane_freed hq.inv hc l)

end Sys2Proof.Machine

/-! Releases: the partner of a pair may hold any number as its lane (R75, R69). -/

namespace Sys2Proof.Machine

/-- The lane number whose status register is PRT_PCNT of partition 5, counter 3. -/
def strayLane : Nat := 0x140017

theorem strayLane_reg : LNE_LANE_STS.reg strayLane = PRT_PCNT.reg 5 3 := by decide

/-- A lane whose header was accepted for partition 5. -/
def acceptedLane : Lane := { ans := some (.accept 5 none none false none) }

/-- Lane 0 is active and one of an unresolved pair, whose other member is listed under `strayLane`; partition 5 is RESETTING and has
discarded 0x8000 frames. -/
def strayPair : State :=
  { [(LNE_LANE_STS.STATE 0, 2), (LNE_LANE_STS.PAIRED 0, 1), (PRT_PCNT.COUNT 5 3, 0x8000)].foldl (fun u p => u.wr p.1 p.2) State.reset with
    lanes := [(0, acceptedLane), (strayLane, acceptedLane)]
    prt := { State.reset.prt with resets := [⟨5, 1, false⟩] } }

theorem strayPair_ready :
    strayPair.inv = true ∧ strayPair.lane 0 = some acceptedLane ∧ strayPair.rd (LNE_LANE_STS.STATE 0) = 2 ∧ resetting strayPair 5 = true ∧
      strayPair.rd (PRT_PCNT.COUNT 5 3) = 0x8000 := by decide +kernel

/-- The end of the pair clears bit 15 of the partner's status register, which is the counter, before it counts. -/
theorem strayPair_counts_one : (headerAnswer 0 strayPair).rd (PRT_PCNT.COUNT 5 3) = 1 := by decide +kernel

/-- Refutes O15: the invariant allows lanes above 511, and the partner of a released lane of a pair has its PAIRED bit cleared
at whatever offset its number gives. In `strayPair` this is the counter of partition 5's discarded frames: after 0x8000 it counts 1, where
the fourth clause has it count 0x8001. -/
theorem not_lanesAreReleasedForTheirCause : ¬ Obligations.LanesAreReleasedForTheirCause := by
  intro h
  obtain ⟨hinv, hlane, hstate, hreset, hcount⟩ := strayPair_ready
  obtain ⟨-, -, -, hdiscard, -⟩ := h strayPair 0 acceptedLane hinv (by decide) hlane
  obtain ⟨t, ht, -, -, hone⟩ := hdiscard 5 none none false none rfl (by decide) hstate hreset
  obtain rfl : headerAnswer 0 strayPair = t := Host.Outcome.next.inj ht
  rw [strayPair_counts_one, hcount] at hone
  exact absurd hone (by decide)

end Sys2Proof.Machine

/-! What a command of the lanes may change (R69-R98), and the attribution of a lane (R73). -/

namespace Sys2Proof.Machine

/-! ## What a command of the lanes may change -/

theorem lanesOnly_trans {s u t : State} (a : lanesOnly s u) (b : lanesOnly u t)
    (hk : ∀ p ∈ u.lanes, p.1 < 512 ∨ onLane s (LNE_LANE_STS.reg p.1)) : lanesOnly s t := by
  obtain ⟨hf, hr⟩ := a
  obtain ⟨gf, gr⟩ := b
  refine ⟨?_, fun x hp h2 h5 hn => (gr x hp h2 h5 fun p hm e => ?_).trans (hr x hp h2 h5 hn)⟩
  · rw [gf, hf]
  · rcases hk p hm with hl | ⟨q, hq, eq⟩
    · unfold LNE_LANE_STS.reg at e
      omega
    · exact hn q hq (e.trans eq)

/-- A step that keeps the lanes' table before another. -/
theorem lanesOnly_trans_of_same {s u t : State} (a : lanesOnly s u) (hl : u.lanes = s.lanes) (b : lanesOnly u t) : lanesOnly s t :=
  lanesOnly_trans a b fun p hp => .inr ⟨p, hl ▸ hp, rfl⟩

theorem QueStep.lanesOnly {s t : State} (a : QueStep s t) : lanesOnly s t := by
  refine ⟨?_, fun x hp _ h5 _ => a.reg x hp h5⟩
  rw [a.frame]

theorem putLane_lanesOnly (s : State) (l : Nat) (x : Lane) : lanesOnly s (s.putLane l x) := ⟨rfl, fun _ _ _ _ _ => rfl⟩

/-- A step of the lane block's registers alone. -/
theorem onlyRegs.lanesOnly {s t : State} {as : List Nat} (a : onlyRegs s t as) (has : ∀ x ∈ as, 0x200000 ≤ x ∧ x < 0x300000) :
    lanesOnly s t := by
  refine ⟨?_, fun x _ h2 _ _ => a.2 x fun hx => ?_⟩
  · rw [a.1]
  · have := has x hx
    omega

theorem wr_lanesOnly {s : State} (h : s.inv = true) {f : RegFld} (hlo : 0x200000 ≤ f.addr) (hhi : f.addr < 0x300000) (v : Nat) :
    lanesOnly s (s.wr f v) :=
  (wr_onlyRegs s f v h).lanesOnly fun x hx => by
    rw [List.mem_singleton.mp hx]
    exact ⟨hlo, hhi⟩

theorem raise_lanesOnly {s : State} (h : s.inv = true) (b : Nat) : lanesOnly s (s.raise 2 b) := by
  obtain ⟨hf, hr⟩ := raise_raisedOnly s 2 b LNE_EVT_STS.reg h rfl
  refine ⟨?_, fun x hp h2 _ _ => hr x (fun hx => ?_) hp⟩
  · rw [hf]
  · rw [List.mem_singleton.mp hx] at h2
    exact absurd h2 (by decide)

theorem Released.lanesOnly {s t : State} {l cause : Nat} (a : Released s t l cause) (hl : onLane s (LNE_LANE_STS.reg l)) : lanesOnly s t := by
  refine ⟨?_, fun x hp h2 h5 hn => a.reg x hp (fun hc => ?_) h5 (fun e => ?_) fun ⟨p, hm, e⟩ => hn p hm e⟩
  · rw [a.frame]
  · have hlt := countsLanes_lt hc
    unfold countsLanes LNE_POOL_STS.reg LNE_PSTS.reg at hc
    unfold LNE_LANE_STS.reg at hlt
    omega
  · obtain ⟨p, hm, ep⟩ := hl
    exact hn p hm (e.trans ep)

/-- A field of the lane block below the lanes' status that counts no lanes. -/
theorem Released.rd {s t : State} {l cause : Nat} (a : Released s t l cause) {f : RegFld} (hf : f.addr < LNE_LANE_STS.reg 0)
    (hn : ¬countsLanes f.addr) : t.rd f = s.rd f := by
  have hlt : f.addr < 0x500000 := hf.trans (by decide)
  refine rd_of_reg (a.reg _ (noPba_of_lt (hlt.trans (by decide))) hn (.inl hlt) (fun e => ?_) (not_onLane_of_lt hf))
  unfold LNE_LANE_STS.reg at hf e
  omega

/-- Keys of the table after a lane is put. -/
theorem putLane_keys {s t : State} {l : Nat} {x : Lane} (hl : l < 512) (h : t.lanes = sput s.lanes l x) :
    ∀ p ∈ t.lanes, p.1 < 512 ∨ onLane s (LNE_LANE_STS.reg p.1) := fun p hp => by
  rcases sput_mem l x s.lanes p (h ▸ hp) with rfl | hp
  · exact .inl hl
  · exact .inr ⟨p, hp, rfl⟩

/-! ## The counters of the lane block -/

theorem LNE_PCNT_addr {p k : Nat} (hp : p < 64) (hk : k < 8) : 0x201000 ≤ LNE_PCNT.reg p k ∧ LNE_PCNT.reg p k < LNE_LANE_STS.reg 0 := by
  unfold LNE_PCNT.reg LNE_LANE_STS.reg
  omega

theorem LNE_PCNT_not_counts {p k : Nat} (hp : p < 64) (hk : k < 8) : ¬countsLanes (LNE_PCNT.reg p k) := by
  have := LNE_PCNT_addr hp hk
  unfold countsLanes LNE_POOL_STS.reg LNE_PSTS.reg
  omega

theorem LNE_LANE_STS_addr {l : Nat} (hl : l < 512) : 0x204000 ≤ LNE_LANE_STS.reg l ∧ LNE_LANE_STS.reg l < 0x300000 := by
  unfold LNE_LANE_STS.reg
  omega

theorem LNE_PSTS_addr {p : Nat} (hp : p < 64) : 0x200500 ≤ LNE_PSTS.reg p ∧ LNE_PSTS.reg p < 0x200600 := by
  unfold LNE_PSTS.reg
  omega

/-! ## Attribution -/

/-- A lane's status takes its partition (R73). -/
def laneMarked (l p : Nat) (x : Lane) (s : State) : State :=
  (((s.putLane l x).wr (LNE_LANE_STS.STATE l) 3).wr (LNE_LANE_STS.ATTRIB l) 1).wr (LNE_LANE_STS.PART l) p

/-- The lane leaves the unattributed account for its partition's, whose peak follows (R73, R98). -/
def laneCharged (l p : Nat) (x : Lane) (s : State) : State :=
  let u := s.rd (LNE_PSTS.IN_USE p) + 1
  (((laneMarked l p x s).wr LNE_POOL_STS.UNATTR (s.rd LNE_POOL_STS.UNATTR - 1)).wr (LNE_PSTS.IN_USE p) u).wr (LNE_PSTS.PEAK p)
    (max u (s.rd (LNE_PSTS.PEAK p)))

/-- The lane is attributed and its cells with it, before the shedding rule is applied (R73, R193). -/
def laneAttributed (l p : Nat) (x : Lane) (s : State) : State := x.cells.foldl (moveCell p) ((laneCharged l p x s).inc (LNE_PCNT.COUNT p 0))

/-- A shed lane is counted by its partition and raised (R73). -/
def shedNoted (p k : Nat) (s : State) : State := (s.inc (LNE_PCNT.COUNT p k)).raise 2 2

theorem attributeLane_eq (l p : Nat) (x : Lane) (s : State) : attributeLane l p x s =
    if s.rd (PRT_P_LANE.CAP p) < s.rd (LNE_PSTS.IN_USE p) + 1 then
      shedNoted p 2 (dropLane l 6 (laneAttributed l p x s))
    else if s.on LNE_CTRL.SHED_EN ∧ s.rd LNE_POOL_STS.FREE < s.rd LNE_POOL_CTRL.LOW_WM ∧
        s.rd (PRT_P_LANE.GUAR p) < s.rd (LNE_PSTS.IN_USE p) + 1 then
      shedNoted p 1 (dropLane l 5 (laneAttributed l p x s))
    else laneAttributed l p x s := rfl

theorem laneMarked_onlyRegs {s : State} (h : s.inv = true) (l p : Nat) (x : Lane) :
    (laneMarked l p x s).inv = true ∧ onlyRegs (s.putLane l x) (laneMarked l p x s) [LNE_LANE_STS.reg l] := by
  have h0 := inv_putLane h l x
  have h1 := inv_wr h0 (LNE_LANE_STS.STATE l) 3
  have h2 := inv_wr h1 (LNE_LANE_STS.ATTRIB l) 1
  refine ⟨inv_wr h2 _ _, onlyRegs_sub (onlyRegs_trans (onlyRegs_trans (wr_onlyRegs _ (LNE_LANE_STS.STATE l) 3 h0)
    (wr_onlyRegs _ (LNE_LANE_STS.ATTRIB l) 1 h1)) (wr_onlyRegs _ (LNE_LANE_STS.PART l) p h2)) ?_⟩
  simp [LNE_LANE_STS.STATE, LNE_LANE_STS.ATTRIB, LNE_LANE_STS.PART]

theorem laneMarked_status {s : State} {p : Nat} (h : s.inv = true) (hp : p < 64) (l : Nat) (x : Lane) :
    (laneMarked l p x s).rd (LNE_LANE_STS.STATE l) = 3 ∧ (laneMarked l p x s).rd (LNE_LANE_STS.ATTRIB l) = 1 ∧
      (laneMarked l p x s).rd (LNE_LANE_STS.PART l) = p := by
  have h0 := inv_putLane h l x
  have h1 := inv_wr h0 (LNE_LANE_STS.STATE l) 3
  have h2 := inv_wr h1 (LNE_LANE_STS.ATTRIB l) 1
  have fits : ∀ lo w, Nat.ble (lo + w) 32 = true → lo + w ≤ 32 := fun _ _ => Nat.le_of_ble_eq_true
  refine ⟨?_, ?_, rd_wr_fits h2 (f := LNE_LANE_STS.PART l) (fits 8 6 rfl) hp⟩
  · refine (rd_wr_apart (f := LNE_LANE_STS.PART l) h2 (fits 8 6 rfl) (.inr (.inl (Nat.le_of_ble_eq_true rfl)))).trans ?_
    refine (rd_wr_apart (f := LNE_LANE_STS.ATTRIB l) h1 (fits 14 1 rfl) (.inr (.inl (Nat.le_of_ble_eq_true rfl)))).trans ?_
    exact rd_wr_fits h0 (f := LNE_LANE_STS.STATE l) (fits 0 3 rfl) (by show 3 < 2 ^ 3; decide)
  · refine (rd_wr_apart (f := LNE_LANE_STS.PART l) h2 (fits 8 6 rfl) (.inr (.inr (Nat.le_of_ble_eq_true rfl)))).trans ?_
    exact rd_wr_fits h1 (f := LNE_LANE_STS.ATTRIB l) (fits 14 1 rfl) (by show 1 < 2 ^ 1; decide)

/-- What an attribution leaves, before the shedding rule is applied. -/
structure Attributed (s t : State) (l p : Nat) (x : Lane) : Prop where
  inv : t.inv = true
  lanes : t.lanes = sput s.lanes l x
  state : t.rd (LNE_LANE_STS.STATE l) = 3
  attrib : t.rd (LNE_LANE_STS.ATTRIB l) = 1
  part : t.rd (LNE_LANE_STS.PART l) = p
  unattr : t.rd LNE_POOL_STS.UNATTR = s.rd LNE_POOL_STS.UNATTR - 1
  inUse : t.rd (LNE_PSTS.IN_USE p) = s.rd (LNE_PSTS.IN_USE p) + 1
  peak : t.rd (LNE_PSTS.PEAK p) = max (s.rd (LNE_PSTS.IN_USE p) + 1) (s.rd (LNE_PSTS.PEAK p))
  counted : t.rd (LNE_PCNT.COUNT p 0) = min 0xFFFFFFFF (s.rd (LNE_PCNT.COUNT p 0) + 1)
  others : ∀ k, 0 < k → k < 8 → t.rd (LNE_PCNT.COUNT p k) = s.rd (LNE_PCNT.COUNT p k)
  only : lanesOnly s t

/-- What the charge of a lane to its partition leaves. -/
structure Charged (s t : State) (l p : Nat) (x : Lane) : Prop where
  inv : t.inv = true
  only : onlyRegs (laneMarked l p x s) t [LNE_POOL_STS.reg, LNE_PSTS.reg p]
  unattr : t.rd LNE_POOL_STS.UNATTR = s.rd LNE_POOL_STS.UNATTR - 1
  inUse : t.rd (LNE_PSTS.IN_USE p) = s.rd (LNE_PSTS.IN_USE p) + 1
  peak : t.rd (LNE_PSTS.PEAK p) = max (s.rd (LNE_PSTS.IN_USE p) + 1) (s.rd (LNE_PSTS.PEAK p))

theorem laneCharged_spec {s : State} {l p : Nat} (h : s.inv = true) (hp : p < 64) (hu : s.rd (LNE_PSTS.IN_USE p) < 512) (x : Lane) :
    Charged s (laneCharged l p x s) l p x := by
  have hpeak : s.rd (LNE_PSTS.PEAK p) < 1024 := bf_lt _ 16 10
  have hun : s.rd LNE_POOL_STS.UNATTR < 1024 := bf_lt _ 16 10
  have hm := (laneMarked_onlyRegs h l p x).1
  have h1 := inv_wr hm LNE_POOL_STS.UNATTR (s.rd LNE_POOL_STS.UNATTR - 1)
  have h2 := inv_wr h1 (LNE_PSTS.IN_USE p) (s.rd (LNE_PSTS.IN_USE p) + 1)
  have hpool := wr_onlyRegs _ LNE_POOL_STS.UNATTR (s.rd LNE_POOL_STS.UNATTR - 1) hm
  have hcharge : onlyRegs _ (laneCharged l p x s) [LNE_PSTS.reg p] :=
    onlyRegs_sub (onlyRegs_trans (wr_onlyRegs _ (LNE_PSTS.IN_USE p) (s.rd (LNE_PSTS.IN_USE p) + 1) h1)
      (wr_onlyRegs _ (LNE_PSTS.PEAK p) (max (s.rd (LNE_PSTS.IN_USE p) + 1) (s.rd (LNE_PSTS.PEAK p))) h2)) (by simp [LNE_PSTS.IN_USE, LNE_PSTS.PEAK])
  have hfits : ∀ lo, Nat.ble (lo + 10) 32 = true → lo + 10 ≤ 32 := fun _ => Nat.le_of_ble_eq_true
  refine ⟨inv_wr h2 _ _, onlyRegs_trans hpool hcharge, ?_, ?_, ?_⟩
  · refine (onlyRegs_rd hcharge fun hm => ?_).trans (rd_wr_fits hm (f := LNE_POOL_STS.UNATTR) (by decide) (Nat.lt_of_le_of_lt (Nat.sub_le _ 1) hun))
    have := LNE_PSTS_addr hp
    rw [← List.mem_singleton.mp hm] at this
    exact absurd this.1 (by decide)
  · refine (rd_wr_apart (f := LNE_PSTS.PEAK p) h2 (hfits 16 rfl) (.inr (.inl (Nat.le_of_ble_eq_true rfl)))).trans ?_
    exact rd_wr_fits h1 (f := LNE_PSTS.IN_USE p) (hfits 0 rfl) (by show _ < 1024; omega)
  · exact rd_wr_fits h2 (f := LNE_PSTS.PEAK p) (hfits 16 rfl) (by show _ < 1024; omega)

/-- An attribution counts the lane and moves its cells after it has charged it. -/
theorem laneAttributed_queStep {s : State} {l p : Nat} {x : Lane} (hc : (laneCharged l p x s).inv = true) :
    QueStep ((laneCharged l p x s).inc (LNE_PCNT.COUNT p 0)) (laneAttributed l p x s) :=
  queStep_moveCells (inv_inc hc (LNE_PCNT.COUNT p 0)) p x.cells

theorem laneAttributed_rd {s : State} {l p : Nat} {x : Lane} (hc : (laneCharged l p x s).inv = true) {f : RegFld} (hf : f.addr < 0x500000)
    (hn : f.addr ≠ LNE_PCNT.reg p 0) : (laneAttributed l p x s).rd f = (laneCharged l p x s).rd f :=
  ((laneAttributed_queStep hc).rd hf).trans (rd_wr_other _ (LNE_PCNT.COUNT p 0) f _ hn hc)

/-- The lane's status after its attribution is that of its mark. -/
theorem laneAttributed_status {s : State} {l p : Nat} {x : Lane} (hl : l < 512) (hp : p < 64) (hc : Charged s (laneCharged l p x s) l p x) (lo w : Nat) :
    (laneAttributed l p x s).rd ⟨LNE_LANE_STS.reg l, lo, w⟩ = (laneMarked l p x s).rd ⟨LNE_LANE_STS.reg l, lo, w⟩ := by
  have hsts := LNE_LANE_STS_addr hl
  have hpsts := LNE_PSTS_addr hp
  have hcnt := LNE_PCNT_addr (k := 0) hp (by decide)
  have hpool : LNE_POOL_STS.reg = 0x200008 := rfl
  have hlow : LNE_LANE_STS.reg 0 = 0x204000 := rfl
  have hne : LNE_LANE_STS.reg l ≠ LNE_POOL_STS.reg ∧ LNE_LANE_STS.reg l ≠ LNE_PSTS.reg p := by omega
  exact (laneAttributed_rd hc.inv (hsts.2.trans (by decide)) (by dsimp only; omega)).trans (onlyRegs_rd hc.only (by simp [hne]))

/-- The charge writes the lane's status, the pool's counts and the partition's use. -/
theorem laneCharged_onlyRegs {s : State} {l p : Nat} {x : Lane} (h : s.inv = true) (hc : Charged s (laneCharged l p x s) l p x) :
    onlyRegs (s.putLane l x) (laneCharged l p x s) [LNE_LANE_STS.reg l, LNE_POOL_STS.reg, LNE_PSTS.reg p] :=
  onlyRegs_trans (laneMarked_onlyRegs h l p x).2 hc.only

theorem laneCharged_counter {s : State} {l p k : Nat} {x : Lane} (h : s.inv = true) (hl : l < 512) (hp : p < 64) (hk : k < 8)
    (hc : Charged s (laneCharged l p x s) l p x) : (laneCharged l p x s).rd (LNE_PCNT.COUNT p k) = s.rd (LNE_PCNT.COUNT p k) := by
  have hsts := LNE_LANE_STS_addr hl
  have hpsts := LNE_PSTS_addr hp
  have hcnt := LNE_PCNT_addr hp hk
  have hpool : LNE_POOL_STS.reg = 0x200008 := rfl
  have hlow : LNE_LANE_STS.reg 0 = 0x204000 := rfl
  refine (onlyRegs_rd (laneCharged_onlyRegs h hc) ?_).trans (putLane_rd s l x _)
  simp only [LNE_PCNT.COUNT, List.mem_cons, List.not_mem_nil, or_false, not_or]
  omega

theorem inc_onlyRegs {s : State} (h : s.inv = true) (f : RegFld) : onlyRegs s (s.inc f) [f.addr] := wr_onlyRegs s f _ h

theorem laneAttributed_lanesOnly {s : State} {l p : Nat} {x : Lane} (h : s.inv = true) (hl : l < 512) (hp : p < 64)
    (hc : Charged s (laneCharged l p x s) l p x) : lanesOnly s (laneAttributed l p x s) := by
  have hsts := LNE_LANE_STS_addr hl
  have hpsts := LNE_PSTS_addr hp
  have hcnt := LNE_PCNT_addr (k := 0) hp (by decide)
  have hpool : LNE_POOL_STS.reg = 0x200008 := rfl
  have hlow : LNE_LANE_STS.reg 0 = 0x204000 := rfl
  have hq := laneAttributed_queStep hc.inv
  have hblock := onlyRegs_trans (laneCharged_onlyRegs h hc) (inc_onlyRegs hc.inv (LNE_PCNT.COUNT p 0))
  refine lanesOnly_trans (putLane_lanesOnly s l x) (lanesOnly_trans_of_same (hblock.lanesOnly fun a ha => ?_) ?_ hq.lanesOnly) (putLane_keys hl rfl)
  · simp only [LNE_PCNT.COUNT, List.cons_append, List.nil_append, List.mem_cons, List.not_mem_nil, or_false] at ha
    omega
  · rw [hblock.1]

theorem laneAttributed_spec {s : State} {l p : Nat} (h : s.inv = true) (hl : l < 512) (hp : p < 64) (hu : s.rd (LNE_PSTS.IN_USE p) < 512) (x : Lane) :
    Attributed s (laneAttributed l p x s) l p x := by
  have hc := laneCharged_spec (l := l) h hp hu x
  have hq := laneAttributed_queStep hc.inv
  have hpsts := LNE_PSTS_addr hp
  have hcnt := fun k (hk : k < 8) => LNE_PCNT_addr hp hk
  have hlow : LNE_LANE_STS.reg 0 = 0x204000 := rfl
  have hfirst := hcnt 0 (by decide)
  obtain ⟨hstate, hattrib, hpart⟩ := laneMarked_status h hp l x
  have hstatus := laneAttributed_status hl hp hc
  have hcounts : ∀ lo w, (laneAttributed l p x s).rd ⟨LNE_PSTS.reg p, lo, w⟩ = (laneCharged l p x s).rd ⟨LNE_PSTS.reg p, lo, w⟩ := fun lo w =>
    laneAttributed_rd hc.inv (hpsts.2.trans (by decide)) (by dsimp only; omega)
  refine ⟨hq.inv, ?_, (hstatus 0 3).trans hstate, (hstatus 14 1).trans hattrib, (hstatus 8 6).trans hpart, ?_, (hcounts 0 10).trans hc.inUse,
    (hcounts 16 10).trans hc.peak, ?_, fun k h0 hk => ?_, laneAttributed_lanesOnly h hl hp hc⟩
  · rw [hq.lanes, inc_lanes, (laneCharged_onlyRegs h hc).1]
    rfl
  · refine (laneAttributed_rd hc.inv (by decide) fun e => ?_).trans hc.unattr
    exact absurd (e ▸ hfirst.1) (by decide)
  · rw [hq.rd (f := LNE_PCNT.COUNT p 0) (hfirst.2.trans (by decide)), rd_inc_same hc.inv (Nat.le_of_ble_eq_true rfl),
      laneCharged_counter h hl hp (by decide) hc]
    rfl
  · refine (laneAttributed_rd (f := LNE_PCNT.COUNT p k) hc.inv ((hcnt k hk).2.trans (by decide)) ?_).trans (laneCharged_counter h hl hp hk hc)
    simp only [LNE_PCNT.COUNT, LNE_PCNT.reg]
    omega

/-! ## Shedding -/

theorem shedNoted_spec {s : State} {p k : Nat} (h : s.inv = true) (hp : p < 64) (hk : k < 8) :
    (shedNoted p k s).lanes = s.lanes ∧ (shedNoted p k s).rd (LNE_PCNT.COUNT p k) = min 0xFFFFFFFF (s.rd (LNE_PCNT.COUNT p k) + 1) ∧
      (∀ f : RegFld, f.addr < 0x900000 → f.addr ≠ LNE_EVT_STS.reg → f.addr ≠ LNE_PCNT.reg p k → (shedNoted p k s).rd f = s.rd f) ∧
      flagged (shedNoted p k s) 2 2 ∧ lanesOnly s (shedNoted p k s) := by
  have hi := inv_inc h (LNE_PCNT.COUNT p k)
  have hcnt := LNE_PCNT_addr hp hk
  have hev : evtReg 2 = some LNE_EVT_STS.reg := rfl
  have hraise : ∀ f : RegFld, f.addr < 0x900000 → f.addr ≠ LNE_EVT_STS.reg → (shedNoted p k s).rd f = (s.inc (LNE_PCNT.COUNT p k)).rd f :=
    fun f hf hn => raise_rd _ 2 2 f hi (noPba_of_lt hf) (fun e => hn (Option.some.inj (hev.symm.trans e)).symm)
  refine ⟨by rw [shedNoted, raise_lanes, inc_lanes], ?_, fun f hf hn hne => (hraise f hf hn).trans (rd_wr_other s _ f _ hne h),
    raise_flagged _ 2 2 _ hi hev (by decide), ?_⟩
  · have hne : LNE_PCNT.reg p k ≠ LNE_EVT_STS.reg := fun e => absurd (e ▸ hcnt.1) (by decide)
    exact (hraise (LNE_PCNT.COUNT p k) (hcnt.2.trans (by decide)) hne).trans (rd_inc_same h (Nat.le_of_ble_eq_true rfl))
  · refine lanesOnly_trans_of_same (wr_lanesOnly h ?_ ?_ _) (inc_lanes _ _) (raise_lanesOnly hi 2)
    · exact hcnt.1.trans' (by decide)
    · exact hcnt.2.trans (by decide)

/-- An attributed lane that is shed gives back what it took, and is counted under its cause (R73). -/
theorem laneShed_spec {s a : State} {l p k cause : Nat} {y : Lane} (hl : l < 512) (hp : p < 64) (hk : 0 < k ∧ k < 8) (hc : cause < 16)
    (ha : Attributed s a l p y) :
    let t := shedNoted p k (dropLane l cause a)
    lanesOnly s t ∧ t.rd (LNE_PCNT.COUNT p 0) = min 0xFFFFFFFF (s.rd (LNE_PCNT.COUNT p 0) + 1) ∧
      t.lanes = sdel s.lanes l ∧ t.rd (LNE_LANE_STS.LAST_CAUSE l) = cause ∧ t.rd (LNE_PSTS.IN_USE p) = s.rd (LNE_PSTS.IN_USE p) ∧
      t.rd (LNE_PCNT.COUNT p k) = min 0xFFFFFFFF (s.rd (LNE_PCNT.COUNT p k) + 1) ∧ flagged t 2 2 := by
  have hy := lane_of_sput ha.lanes
  have hr := dropLane_released ha.inv hc hy
  obtain ⟨-, -, -, -, hless⟩ := laneFreed_iff.mp (dropLane_freed ha.inv hl hc hy)
  have hacc : accountF a l = LNE_PSTS.IN_USE p := by
    unfold accountF State.on
    rw [ha.attrib, ha.part]
    rfl
  rw [hacc, ha.inUse] at hless
  obtain ⟨htab, hcount, hrest, hflag, honly⟩ := shedNoted_spec hr.inv hp hk.2
  have hcnt := LNE_PCNT_addr hp hk.2
  have hcnt0 := LNE_PCNT_addr (k := 0) hp (by decide)
  have hsts := LNE_LANE_STS_addr hl
  have hpsts := LNE_PSTS_addr hp
  have hevt : LNE_EVT_STS.reg = 0x200010 := rfl
  have hlow : LNE_LANE_STS.reg 0 = 0x204000 := rfl
  refine ⟨?_, ?_, ?_, ?_, ?_, ?_, hflag⟩
  · have hkeys : ∀ q ∈ (dropLane l cause a).lanes, q.1 < 512 ∨ onLane a (LNE_LANE_STS.reg q.1) :=
      fun q hq => .inr ⟨q, sdel_mem l a.lanes q (hr.lanes ▸ hq), rfl⟩
    exact lanesOnly_trans ha.only (lanesOnly_trans (hr.lanesOnly (onLane_of_lane hy)) honly hkeys) (putLane_keys hl ha.lanes)
  · have hne : LNE_PCNT.reg p 0 ≠ LNE_PCNT.reg p k := by
      unfold LNE_PCNT.reg
      omega
    refine (hrest (LNE_PCNT.COUNT p 0) ?_ ?_ hne).trans ((hr.rd hcnt0.2 (LNE_PCNT_not_counts hp (by decide))).trans ha.counted)
    all_goals simp only [LNE_PCNT.COUNT]; omega
  · rw [htab, hr.lanes, ha.lanes, sdel_sput_same]
  · refine (hrest (LNE_LANE_STS.LAST_CAUSE l) ?_ ?_ ?_).trans hr.cause
    all_goals
      simp only [LNE_LANE_STS.LAST_CAUSE]
      unfold LNE_LANE_STS.reg at *
      omega
  · refine (hrest (LNE_PSTS.IN_USE p) ?_ ?_ ?_).trans hless
    all_goals simp only [LNE_PSTS.IN_USE]; omega
  · rw [hcount, hr.rd (f := LNE_PCNT.COUNT p k) hcnt.2 (LNE_PCNT_not_counts hp hk.2), ha.others k hk.1 hk.2]

/-- HEADER_ANSWER of a lane that waits for it attributes the lane (R91). -/
theorem headerAnswer_accept {s : State} {l p : Nat} {x : Lane} {n pan att : Option Nat} {bc : Bool} (hx : s.lane l = some x)
    (hans : x.ans = some (.accept p n pan bc att)) (hst : s.rd (LNE_LANE_STS.STATE l) = 2) (hr : resetting s p = false) :
    ∃ y, headerAnswer l s = attributeLane l p y s ∧ y.cand = x.cand ∧ y.cells = x.cells ∧ y.att = att := by
  unfold headerAnswer
  simp only [hx, hans, hst, hr]
  exact ⟨_, rfl, rfl, rfl, rfl⟩

/-- Settles O17: an attribution counts the lane to its partition before the cap, the guarantee and the watermark are looked at; a lane that is shed
gives it back with its release. -/
theorem attributionKeepsOrShedsALane : Obligations.AttributionKeepsOrShedsALane := by
  intro s l x p n pan att bc h hl hx hans hp hst hr hu
  obtain ⟨y, hy, hcand, hcells, hatt⟩ := headerAnswer_accept hx hans hst hr
  have ha := laneAttributed_spec h hl hp hu y
  have hexec : exec (.headerAnswer l) s = .next (attributeLane l p y s) := (ranged_lane hl _).trans (congrArg _ hy)
  dsimp only
  refine ⟨_, hexec, ?_⟩
  rw [attributeLane_eq]
  by_cases hcap : s.rd (PRT_P_LANE.CAP p) < s.rd (LNE_PSTS.IN_USE p) + 1
  · rw [if_pos hcap]
    obtain ⟨honly, hattr, hshed⟩ := laneShed_spec (k := 2) (cause := 6) hl hp (by decide) (by decide) ha
    exact ⟨honly, hattr, fun _ => hshed, fun hle => absurd hcap (Nat.not_lt.mpr hle), fun hle => absurd hcap (Nat.not_lt.mpr hle)⟩
  rw [if_neg hcap]
  by_cases hlow : s.on LNE_CTRL.SHED_EN = true ∧ s.rd LNE_POOL_STS.FREE < s.rd LNE_POOL_CTRL.LOW_WM ∧
      s.rd (PRT_P_LANE.GUAR p) < s.rd (LNE_PSTS.IN_USE p) + 1
  · rw [if_pos hlow]
    obtain ⟨honly, hattr, hshed⟩ := laneShed_spec (k := 1) (cause := 5) hl hp (by decide) (by decide) ha
    exact ⟨honly, hattr, fun hc => absurd hc hcap, fun _ _ => hshed, fun _ hn => absurd hlow hn⟩
  · rw [if_neg hlow]
    exact ⟨ha.only, ha.counted, fun hc => absurd hc hcap, fun _ hl => absurd hl hlow,
      fun _ _ => ⟨⟨y, lane_of_sput ha.lanes, hcand, hcells, hatt⟩, ha.state, ha.attrib, ha.part, ha.inUse, ha.peak, ha.unattr⟩⟩

end Sys2Proof.Machine

/-! The grant of a lane to the candidate at the head of the queue (R69-R71, R76, R77). -/

namespace Sys2Proof.Machine

/-! ## Masks -/

theorem bitOn_foldl_bitSet {k : Nat} (hk : k < 8) : ∀ (ns : List Nat) (m : Nat), (∀ n ∈ ns, n < 8) → m < 256 →
    bitOn (ns.foldl bitSet m) k = (bitOn m k || decide (k ∈ ns))
  | [], m, _, _ => by simp
  | n :: ns, m, hns, hm => by
    have hn := hns n List.mem_cons_self
    rw [List.foldl_cons, bitOn_foldl_bitSet hk ns _ (fun x hx => hns x (List.mem_cons_of_mem _ hx)) (bitSet_lt hm hn)]
    by_cases e : k = n
    · simp [e, bitOn_bitSet_same hm hn]
    · simp [e, bitOn_bitSet_other hm hn e]

/-- A mask of the antennas holds those that pass its test. -/
theorem bitOn_maskOf {k : Nat} (hk : k < 8) (t : Nat → Bool) : bitOn (maskOf 8 t) k = t k := by
  have hz : bitOn 0 k = false := by simp [bitOn]
  have hlt : ∀ n ∈ (List.range 8).filter t, n < 8 := fun n hn => List.mem_range.mp (List.mem_filter.mp hn).1
  unfold maskOf
  rw [bitOn_foldl_bitSet hk _ 0 hlt (by decide), hz]
  cases ht : t k <;> simp [ht, hk]

/-! ## The steps of a grant -/

/-- A lane leaves the pool for the unattributed account and holds a frame (R69, R70). -/
def poolGives (l : Nat) (x : Lane) (s : State) : State :=
  ((s.putLane l x).wr LNE_POOL_STS.FREE (s.rd LNE_POOL_STS.FREE - 1)).wr LNE_POOL_STS.UNATTR (s.rd LNE_POOL_STS.UNATTR + 1)

/-- The free count before was f: its minimum follows, and falling below the watermark is raised (R70). -/
def poolNoted (s t : State) : State :=
  let f := s.rd LNE_POOL_STS.FREE
  let t1 := if f - 1 < s.rd LNE_POOL_MIN.MIN_FREE then t.wr LNE_POOL_MIN.MIN_FREE (f - 1) else t
  if s.rd LNE_POOL_CTRL.LOW_WM ≤ f ∧ f - 1 < s.rd LNE_POOL_CTRL.LOW_WM then t1.raise 2 1 else t1

/-- The grant is counted and the lane searches at its rate (R70). -/
def laneSearches (l r : Nat) (s : State) : State := ((s.inc LNE_CNT_GRANT.COUNT).wr (LNE_LANE_STS.STATE l) 1).wr (LNE_LANE_STS.RATE l) r

/-- A lane and its partner, where it has one, are an unresolved pair (R75). -/
def pairUp (l : Nat) (mate : Option Nat) (s : State) : State :=
  match mate with
  | some m => (s.wr (LNE_LANE_STS.PAIRED l) 1).wr (LNE_LANE_STS.PAIRED m) 1
  | none => s

theorem grantLane_eq (l : Nat) (c : Cand) (s : State) : grantLane l c s =
    pairUp l (waitingPartner s c) (laneSearches l c.rate (poolNoted s (poolGives l (newLane s c) s))) := rfl

theorem inv_poolGives {s : State} (h : s.inv = true) (l : Nat) (x : Lane) : (poolGives l x s).inv = true :=
  inv_wr (inv_wr (inv_putLane h l x) _ _) _ _

theorem poolGives_raisedOnly {s : State} (h : s.inv = true) (l : Nat) (x : Lane) :
    raisedOnly (s.putLane l x) (poolGives l x s) [LNE_POOL_STS.reg] := by
  have h0 := inv_putLane h l x
  exact raisedOnly_sub (raisedOnly_trans (wr_raisedOnly _ LNE_POOL_STS.FREE _ h0) (wr_raisedOnly _ LNE_POOL_STS.UNATTR _ (inv_wr h0 _ _))) (by decide)

theorem poolGives_counts {s : State} (h : s.inv = true) (l : Nat) (x : Lane) :
    (poolGives l x s).rd LNE_POOL_STS.FREE = s.rd LNE_POOL_STS.FREE - 1 ∧
      (poolGives l x s).rd LNE_POOL_STS.UNATTR = (s.rd LNE_POOL_STS.UNATTR + 1) % 1024 := by
  have h0 := inv_putLane h l x
  have h1 := inv_wr h0 LNE_POOL_STS.FREE (s.rd LNE_POOL_STS.FREE - 1)
  have hf : s.rd LNE_POOL_STS.FREE < 1024 := bf_lt _ 0 10
  refine ⟨(rd_wr_apart h1 (by decide) (.inr (by decide))).trans (rd_wr_fits h0 (by decide) ?_), rd_wr_same _ LNE_POOL_STS.UNATTR _ (by decide) h1⟩
  exact Nat.lt_of_le_of_lt (Nat.sub_le _ 1) hf

theorem poolNoted_raisedOnly (s : State) {t : State} (h : t.inv = true) :
    (poolNoted s t).inv = true ∧ raisedOnly t (poolNoted s t) [LNE_POOL_MIN.reg, LNE_EVT_STS.reg] := by
  have h1 : ∀ v, ∃ u, (if s.rd LNE_POOL_STS.FREE - 1 < s.rd LNE_POOL_MIN.MIN_FREE then t.wr LNE_POOL_MIN.MIN_FREE v else t) = u ∧
      u.inv = true ∧ raisedOnly t u [LNE_POOL_MIN.reg] := fun v => by
    split
    · exact ⟨_, rfl, inv_wr h _ _, wr_raisedOnly t LNE_POOL_MIN.MIN_FREE v h⟩
    · exact ⟨_, rfl, h, raisedOnly_refl t _⟩
  obtain ⟨u, hu, hi, hr⟩ := h1 (s.rd LNE_POOL_STS.FREE - 1)
  unfold poolNoted
  dsimp only
  rw [hu]
  split
  · exact ⟨inv_raise hi 2 1, raisedOnly_trans hr (raise_raisedOnly u 2 1 LNE_EVT_STS.reg hi rfl)⟩
  · exact ⟨hi, raisedOnly_sub hr (by decide)⟩

theorem laneSearches_spec {s : State} {l r : Nat} (h : s.inv = true) (hr : r < 8) :
    (laneSearches l r s).inv = true ∧ raisedOnly s (laneSearches l r s) [LNE_CNT_GRANT.reg, LNE_LANE_STS.reg l] ∧
      (laneSearches l r s).rd (LNE_LANE_STS.STATE l) = 1 ∧ (laneSearches l r s).rd (LNE_LANE_STS.RATE l) = r ∧
      (laneSearches l r s).rd LNE_CNT_GRANT.COUNT = min 0xFFFFFFFF (s.rd LNE_CNT_GRANT.COUNT + 1) := by
  have h1 := inv_inc h LNE_CNT_GRANT.COUNT
  have h2 := inv_wr h1 (LNE_LANE_STS.STATE l) 1
  have hne : LNE_CNT_GRANT.reg ≠ LNE_LANE_STS.reg l := by
    unfold LNE_CNT_GRANT.reg LNE_LANE_STS.reg
    omega
  have hfits : ∀ lo w, Nat.ble (lo + w) 32 = true → lo + w ≤ 32 := fun _ _ => Nat.le_of_ble_eq_true
  refine ⟨inv_wr h2 _ _, ?_, ?_, ?_, ?_⟩
  · refine raisedOnly_sub (raisedOnly_trans (raisedOnly_trans (wr_raisedOnly s LNE_CNT_GRANT.COUNT _ h)
      (wr_raisedOnly _ (LNE_LANE_STS.STATE l) 1 h1)) (wr_raisedOnly _ (LNE_LANE_STS.RATE l) r h2)) ?_
    simp [LNE_CNT_GRANT.COUNT, LNE_LANE_STS.STATE, LNE_LANE_STS.RATE]
  · refine (rd_wr_apart (f := LNE_LANE_STS.RATE l) h2 (hfits 4 4 rfl) (.inr (.inl (Nat.le_of_ble_eq_true rfl)))).trans ?_
    exact rd_wr_fits h1 (f := LNE_LANE_STS.STATE l) (hfits 0 3 rfl) (by show 1 < 2 ^ 3; decide)
  · exact rd_wr_fits h2 (f := LNE_LANE_STS.RATE l) (hfits 4 4 rfl) (by show r < 16; omega)
  · refine (rd_wr_other _ (LNE_LANE_STS.RATE l) LNE_CNT_GRANT.COUNT r hne h2).trans ?_
    exact (rd_wr_other _ (LNE_LANE_STS.STATE l) LNE_CNT_GRANT.COUNT 1 hne h1).trans (rd_inc_same h (by decide))

/-- A pair's mark leaves the other fields of its lanes. -/
theorem pairUp_spec {s : State} (h : s.inv = true) (l : Nat) (mate : Option Nat) :
    raisedOnly s (pairUp l mate s) (LNE_LANE_STS.reg l :: mate.toList.map LNE_LANE_STS.reg) ∧
      ∀ f : RegFld, f.lo + f.w ≤ 15 → (pairUp l mate s).rd f = s.rd f := by
  cases mate with
  | none => exact ⟨raisedOnly_refl s _, fun _ _ => rfl⟩
  | some m =>
    have h1 := inv_wr h (LNE_LANE_STS.PAIRED l) 1
    have hfit : ∀ k, (LNE_LANE_STS.PAIRED k).lo + (LNE_LANE_STS.PAIRED k).w ≤ 32 := fun _ => Nat.le_of_ble_eq_true rfl
    refine ⟨raisedOnly_trans (wr_raisedOnly s (LNE_LANE_STS.PAIRED l) 1 h) (wr_raisedOnly _ (LNE_LANE_STS.PAIRED m) 1 h1), fun f hf => ?_⟩
    exact (rd_wr_apart h1 (hfit m) (.inr (.inl hf))).trans (rd_wr_apart h (hfit l) (.inr (.inl hf)))

/-- A waiting partner is a listed lane. -/
theorem waitingPartner_onLane {s : State} {c : Cand} {m : Nat} (h : waitingPartner s c = some m) : onLane s (LNE_LANE_STS.reg m) := by
  unfold waitingPartner at h
  split at h
  · obtain ⟨p, hp, rfl⟩ := Option.map_eq_some_iff.mp h
    exact ⟨p, List.mem_of_find?_eq_some hp, rfl⟩
  · exact absurd h (by simp)

/-- A new lane carries the candidate, its weights and the taint of the samples that it starts from (R61, R72, R76, R77). -/
theorem newLane_spec (s : State) (c : Cand) :
    (newLane s c).cand = c ∧ (newLane s c).weight = c.weight ∧ (newLane s c).phy = none ∧ (newLane s c).cells = [] ∧
      ∀ n, n < 8 → bitOn (newLane s c).taint n =
        taintedIn s n (rateSlice c.rate) (laneStart (newLane s c)) (max (c.ts + 1) (s.atb - sliceD s (rateSlice c.rate) + 1)) :=
  ⟨rfl, rfl, rfl, rfl, fun _ hn => bitOn_maskOf hn _⟩

/-- What the mark of a pair leaves. -/
theorem pairUp_reg {s t : State} {l a : Nat} {c : Cand} (h : t.inv = true) (hp : noPba a) (hl : a ≠ LNE_LANE_STS.reg l) (ho : ¬onLane s a) :
    (pairUp l (waitingPartner s c) t).reg a = t.reg a := by
  refine (pairUp_spec h l (waitingPartner s c)).1.2 a (fun hm => ?_) hp
  rcases List.mem_cons.mp hm with e | hm
  · exact hl e
  · obtain ⟨m, hm, e⟩ := List.mem_map.mp hm
    exact ho (e ▸ waitingPartner_onLane (Option.mem_toList.mp hm))

/-- What a grant leaves of a register below the lanes' status, beside the pool's. -/
theorem grantLane_low {s : State} {l a : Nat} {c : Cand} (h : s.inv = true) (hr : c.rate < 8) (ha : a < LNE_LANE_STS.reg 0)
    (hm : a ∉ [LNE_POOL_MIN.reg, LNE_EVT_STS.reg]) (hg : a ≠ LNE_CNT_GRANT.reg) :
    (grantLane l c s).reg a = (poolGives l (newLane s c) s).reg a := by
  have hpb := noPba_of_lt (ha.trans (show LNE_LANE_STS.reg 0 < 0x900000 by decide))
  obtain ⟨hn, hnoted⟩ := poolNoted_raisedOnly s (inv_poolGives h l (newLane s c))
  obtain ⟨hs, hsearch, -⟩ := laneSearches_spec (l := l) hn hr
  have hne : a ≠ LNE_LANE_STS.reg l := by
    unfold LNE_LANE_STS.reg at *
    omega
  rw [grantLane_eq]
  exact (pairUp_reg hs hpb hne (not_onLane_of_lt ha)).trans ((hsearch.2 a (by simp [hg, hne]) hpb).trans (hnoted.2 a hm hpb))

/-- What a grant leaves of every block but the lanes' (R70). -/
theorem grantLane_outside {s : State} {l a : Nat} {c : Cand} (h : s.inv = true) (hl : l < 512) (hr : c.rate < 8) (hpb : noPba a)
    (ha : a < 0x200000 ∨ 0x300000 ≤ a) (ho : ¬onLane s a) : (grantLane l c s).reg a = s.reg a := by
  have hsts := LNE_LANE_STS_addr hl
  obtain ⟨hn, hnoted⟩ := poolNoted_raisedOnly s (inv_poolGives h l (newLane s c))
  obtain ⟨hs, hsearch, -⟩ := laneSearches_spec (l := l) hn hr
  have hout : a ≠ LNE_LANE_STS.reg l ∧ a ∉ [LNE_POOL_MIN.reg, LNE_EVT_STS.reg] ∧ a ≠ LNE_CNT_GRANT.reg ∧ a ∉ [LNE_POOL_STS.reg] := by
    simp only [List.mem_cons, List.not_mem_nil, or_false, LNE_POOL_MIN.reg, LNE_EVT_STS.reg, LNE_CNT_GRANT.reg, LNE_POOL_STS.reg]
    omega
  obtain ⟨hne, hn1, hn2, hn3⟩ := hout
  rw [grantLane_eq]
  refine (pairUp_reg hs hpb hne ho).trans ((hsearch.2 a (by simp [hn2, hne]) hpb).trans ?_)
  exact (hnoted.2 a hn1 hpb).trans ((poolGives_raisedOnly h l (newLane s c)).2 a hn3 hpb)

/-- What a grant changes beside registers. -/
theorem grantLane_changes {s : State} (h : s.inv = true) (l : Nat) {c : Cand} (hr : c.rate < 8) :
    let t := grantLane l c s
    t = { s with regs := t.regs, vregs := t.vregs, posted := t.posted, evr := t.evr, lanes := sput s.lanes l (newLane s c) } := by
  obtain ⟨hn, hnoted⟩ := poolNoted_raisedOnly s (inv_poolGives h l (newLane s c))
  obtain ⟨hs, hsearch, -⟩ := laneSearches_spec (l := l) hn hr
  have hpair := (pairUp_spec hs l (waitingPartner s c)).1
  rw [grantLane_eq, hpair.1, hsearch.1, hnoted.1, (poolGives_raisedOnly h l (newLane s c)).1]
  rfl

theorem grantLane_lanes {s : State} (h : s.inv = true) (l : Nat) {c : Cand} (hr : c.rate < 8) :
    (grantLane l c s).lanes = sput s.lanes l (newLane s c) := congrArg State.lanes (grantLane_changes h l hr)

theorem grantLane_frame {s : State} (h : s.inv = true) (l : Nat) {c : Cand} (hr : c.rate < 8) :
    let t := grantLane l c s
    t = { s with regs := t.regs, vregs := t.vregs, posted := t.posted, evr := t.evr, lanes := t.lanes } := by
  have hlanes := grantLane_lanes h l hr
  dsimp only
  rw [hlanes]
  exact grantLane_changes h l hr

/-- A grant is counted, and the lane searches at the candidate's rate (R70). -/
theorem grantLane_status {s : State} {c : Cand} (h : s.inv = true) (l : Nat) (hr : c.rate < 8) :
    (grantLane l c s).rd (LNE_LANE_STS.STATE l) = 1 ∧ (grantLane l c s).rd (LNE_LANE_STS.RATE l) = c.rate ∧
      (grantLane l c s).rd LNE_CNT_GRANT.COUNT = min 0xFFFFFFFF (s.rd LNE_CNT_GRANT.COUNT + 1) := by
  have hpb : noPba LNE_CNT_GRANT.reg := noPba_of_lt (by decide)
  obtain ⟨hn, hnoted⟩ := poolNoted_raisedOnly s (inv_poolGives h l (newLane s c))
  obtain ⟨hs, -, hstate, hrate, hgrant⟩ := laneSearches_spec (l := l) hn hr
  obtain ⟨-, hbeside⟩ := pairUp_spec hs l (waitingPartner s c)
  have hbefore := (hnoted.2 _ (by decide) hpb).trans ((poolGives_raisedOnly h l (newLane s c)).2 LNE_CNT_GRANT.reg (by decide) hpb)
  have hne : LNE_CNT_GRANT.reg ≠ LNE_LANE_STS.reg l := by
    unfold LNE_CNT_GRANT.reg LNE_LANE_STS.reg
    omega
  rw [rd_of_reg (f := LNE_CNT_GRANT.COUNT) hbefore] at hgrant
  rw [grantLane_eq]
  exact ⟨(hbeside (LNE_LANE_STS.STATE l) (Nat.le_of_ble_eq_true rfl)).trans hstate,
    (hbeside (LNE_LANE_STS.RATE l) (Nat.le_of_ble_eq_true rfl)).trans hrate,
    (rd_of_reg (f := LNE_CNT_GRANT.COUNT) (pairUp_reg hs hpb hne (not_onLane_of_lt (by decide)))).trans hgrant⟩

/-- A grant takes one lane from the pool for the unattributed account (R69, R70). -/
theorem grantLane_counts {s : State} {c : Cand} (h : s.inv = true) (l : Nat) (hr : c.rate < 8) :
    (grantLane l c s).rd LNE_POOL_STS.FREE = s.rd LNE_POOL_STS.FREE - 1 ∧
      (grantLane l c s).rd LNE_POOL_STS.UNATTR = (s.rd LNE_POOL_STS.UNATTR + 1) % 1024 := by
  obtain ⟨hfree, hun⟩ := poolGives_counts h l (newLane s c)
  have hpool := grantLane_low (l := l) (a := LNE_POOL_STS.reg) h hr (by decide) (by decide) (by decide)
  exact ⟨(rd_of_reg (f := LNE_POOL_STS.FREE) hpool).trans hfree, (rd_of_reg (f := LNE_POOL_STS.UNATTR) hpool).trans hun⟩

/-! ## The allocator -/

theorem exec_candidateAllocation (s : State) : exec .candidateAllocation s = .next (candidateAllocation s) := rfl

/-- The state in which the head candidate has left the queue. -/
def candTaken (cs : List Cand) (s : State) : State := { s with cnp := { s.cnp with cands := cs } }

theorem candidateAllocation_refuses {s : State} {c : Cand} {cs : List Cand} (hc : s.cnp.cands = c :: cs) (ha : accepting s = false) :
    candidateAllocation s = (candTaken cs s).inc LNE_CNT_REFUSED.COUNT := by
  unfold candidateAllocation
  simp only [hc, ha]
  rfl

theorem candidateAllocation_grants {s : State} {c : Cand} {cs : List Cand} {l : Nat} (hc : s.cnp.cands = c :: cs) (ha : accepting s = true)
    (hl : (List.range (laneLimit s)).find? (fun l => (s.lane l).isNone) = some l) : candidateAllocation s = grantLane l c (candTaken cs s) := by
  unfold candidateAllocation
  simp only [hc, ha, hl]
  rfl

theorem candidateAllocation_exhausted {s : State} {c : Cand} {cs : List Cand} (hc : s.cnp.cands = c :: cs) (ha : accepting s = true)
    (hl : (List.range (laneLimit s)).find? (fun l => (s.lane l).isNone) = none) :
    candidateAllocation s = ((candTaken cs s).inc LNE_CNT_EXHAUST.COUNT).raise 2 0 := by
  unfold candidateAllocation
  simp only [hc, ha, hl]
  rfl

/-- Settles O14: the search through the lanes finds the lowest free one or none; a grant writes the pool's counts and the lane's status,
each in registers that its other steps leave. -/
theorem allocatorTakesTheHeadCandidate : Obligations.AllocatorTakesTheHeadCandidate := by
  refine fun s h => ⟨fun hc => ?_, fun c cs hc ha => ?_, fun c cs hc ha hfull => ?_, fun c cs l hc ha hr hl hfree hlow hlim => ?_⟩
  · rw [exec_candidateAllocation]
    unfold candidateAllocation
    rw [hc]
  · have h1 : (candTaken cs s).inv = true := h
    exact ⟨_, congrArg Host.Outcome.next (candidateAllocation_refuses hc ha), incBy_sets _ LNE_CNT_REFUSED.COUNT 1 h1 (by decide)⟩
  · have h1 : (candTaken cs s).inv = true := h
    have hi := inv_inc h1 LNE_CNT_EXHAUST.COUNT
    have hnone : (List.range (laneLimit s)).find? (fun l => (s.lane l).isNone) = none := List.find?_eq_none.mpr fun l hl => by
      rw [← Option.not_isSome, hfull l (List.mem_range.mp hl)]
      decide
    refine ⟨_, congrArg Host.Outcome.next (candidateAllocation_exhausted hc ha hnone), ?_,
      raise_flagged _ 2 0 LNE_EVT_STS.reg hi rfl (by decide), ?_⟩
    · exact (raise_rd _ 2 0 LNE_CNT_EXHAUST.COUNT hi (noPba_of_lt (by decide)) (by decide)).trans (rd_inc_same h1 (by decide))
    · exact raisedOnly_trans (wr_raisedOnly _ LNE_CNT_EXHAUST.COUNT _ h1) (raise_raisedOnly _ 2 0 LNE_EVT_STS.reg hi rfl)
  · have h1 : (candTaken cs s).inv = true := h
    have hfind : (List.range (laneLimit s)).find? (fun l => (s.lane l).isNone) = some l := List.find?_range_eq_some.mpr
      ⟨by rw [hfree]; rfl, List.mem_range.mpr hl, fun m hm => by rw [← Option.not_isSome, hlow m hm]; rfl⟩
    obtain ⟨hcand, hweight, hphy, hcells, htaint⟩ := newLane_spec (candTaken cs s) c
    obtain ⟨hstate, hrate, hgrant⟩ := grantLane_status h1 l hr
    obtain ⟨hpool, hun⟩ := grantLane_counts h1 l hr
    refine ⟨_, newLane (candTaken cs s) c, congrArg Host.Outcome.next (candidateAllocation_grants hc ha hfind),
      grantLane_lanes h1 l hr, hcand, hweight, hphy, hcells, htaint, hstate, hrate, hpool, hun, hgrant, grantLane_frame h1 l hr, fun a hpb hb hn => ?_⟩
    exact grantLane_outside h1 (hl.trans_le hlim) hr hpb hb fun ⟨p, hp, e⟩ => hn p hp e

end Sys2Proof.Machine

/-! A lane's SFD and its PHY header (R75, R79, R81, R87-R90). -/

namespace Sys2Proof.Machine

/-! ## SFD -/

/-- The attenuation that applied at a tick does not hang on the present one. -/
theorem at_attAt {s : State} (h : s.inv = true) (t n u : Nat) : attAt (s.at_ t) n u = attAt s n u := by
  unfold attAt
  rw [at_cnp, at_rd (f := CNP_ATT.ATT n) h (Nat.le_add_right_of_le (by decide))]

/-- The frame of a lane that has found its SFD at an instant, in the state of its tick (R79, R87-R89). -/
def sfdLane (s : State) (x : Lane) (exact ts : Nat) (coded : Bool) (levels : List Int) (amps : List (Int × Int)) : Lane :=
  let w := weighted s (rateSlice x.cand.rate) (weightsFrom x) ts
  { x with
    sfdTs := ts, tofs := unsgn 8 ((exact : Int) - 128 * ts), settled := gainSettled levels, gain := laneGain levels
    sfdCoded := coded, weight := packWeights w amps, wmask := w, wdb := []
    curves := s.curves, atts := (List.range 8).map (fun n => attAt s n ts) }

/-- The instant of an SFD in 1/128 tick (R87). -/
def sfdExact (s : State) (x : Lane) (t128 : Nat) : Nat := t128 - 8 * s.rd (LNE_RATE_LAT.LAT x.cand.rate)

/-- The last tick at which a lane's SFD is found (R89). -/
def sfdLast (s : State) (x : Lane) : Nat := x.cand.ts + s.rd (LNE_RATE_SFDTO.SFD_TO x.cand.rate)

theorem sfdFound_late {s : State} {l t128 : Nat} {x : Lane} (hx : s.lane l = some x) (hlate : sfdLast s x < roundTick (sfdExact s x t128))
    (b : Bool) (levels : List Int) (amps : List (Int × Int)) : sfdFound l t128 b levels amps s = s := by
  unfold sfdFound
  simp only [hx]
  exact if_neg fun hc => absurd hc.2 (Nat.not_le.mpr hlate)

theorem sfdFound_in_time {s : State} {l t128 : Nat} {x : Lane} (hx : s.lane l = some x) (hst : s.rd (LNE_LANE_STS.STATE l) = 1)
    (ht : roundTick (sfdExact s x t128) ≤ sfdLast s x) (b : Bool) (levels : List Int) (amps : List (Int × Int)) :
    let ts := roundTick (sfdExact s x t128)
    let u := s.at_ (ts + sliceD s (laneSlice x))
    sfdFound l t128 b levels amps s = (u.putLane l (sfdLane u x (sfdExact s x t128) ts b levels amps)).wr (LNE_LANE_STS.STATE l) 2 := by
  unfold sfdFound
  simp only [hx]
  exact if_pos ⟨hst, ht⟩

/-- SFD_FOUND in time (R79, R87-R89). -/
theorem sfdFound_activates {s : State} {l t128 : Nat} {x : Lane} (h : s.inv = true) (hl : l < 512) (hx : s.lane l = some x)
    (hst : s.rd (LNE_LANE_STS.STATE l) = 1) (ht : roundTick (sfdExact s x t128) ≤ sfdLast s x) (b : Bool) (levels : List Int)
    (amps : List (Int × Int)) :
    let ts := roundTick (sfdExact s x t128)
    ∃ (t : State) (y : Lane), exec (.sfdFound l t128 b levels amps) s = .next t ∧ t.lane l = some y ∧ y.cand = x.cand ∧ y.cells = x.cells ∧ y.sfdTs = ts ∧
      y.tofs = unsgn 8 ((sfdExact s x t128 : Int) - 128 * ts) ∧ y.sfdCoded = b ∧ y.settled = gainSettled levels ∧ y.gain = laneGain levels ∧
      y.weight = packWeights y.wmask amps ∧ y.atts = (List.range 8).map (fun n => attAt s n ts) ∧ t.rd (LNE_LANE_STS.STATE l) = 2 ∧
      onlyRegs { s.at_ (ts + sliceD s (laneSlice x)) with lanes := sput s.lanes l y } t [LNE_LANE_STS.reg l] := by
  dsimp only
  have hu := inv_at h (roundTick (sfdExact s x t128) + sliceD s (laneSlice x))
  refine ⟨_, sfdLane (s.at_ (roundTick (sfdExact s x t128) + sliceD s (laneSlice x))) x (sfdExact s x t128) (roundTick (sfdExact s x t128)) b levels
    amps, (ranged_lane hl _).trans (congrArg _ (sfdFound_in_time hx hst ht b levels amps)), ?_⟩
  refine ⟨lane_of_sput (s := s.at_ (roundTick (sfdExact s x t128) + sliceD s (laneSlice x))) rfl, rfl, rfl, rfl, rfl, rfl, rfl, rfl, rfl,
    ?_, ?_, ?_⟩
  · exact List.map_congr_left fun n _ => at_attAt h _ n _
  · exact rd_wr_fits (inv_putLane hu l _) (f := LNE_LANE_STS.STATE l) (Nat.le_of_ble_eq_true rfl) (by show 2 < 2 ^ 3; decide)
  · rw [← at_lanes s (roundTick (sfdExact s x t128) + sliceD s (laneSlice x))]
    exact wr_onlyRegs _ (LNE_LANE_STS.STATE l) 2 (inv_putLane hu l _)

/-! ## The PHY header -/

/-- The frame of a lane whose PHY header has passed: its end is known (R88). -/
def headedLane (x : Lane) (h : PhyHdr) : Lane := { x with phy := some h, fend := x.sfdTs + bodyTicks x.cand.rate h.coded h.length }

theorem headerPass_alone {s : State} {l : Nat} {x : Lane} (hx : s.lane l = some x) (hp : partner s l = none) (h : PhyHdr) :
    headerPass l h s = s.putLane l (headedLane x h) := by
  unfold headerPass
  simp only [hx, hp]
  rfl

/-- The state in which the partner of a lane that passes has lost and the lane goes on (R75). -/
def pairWon (l m : Nat) (x : Lane) (h : PhyHdr) (s : State) : State :=
  (((dropLane m 1 s).inc LNE_CNT_PAIRLOSS.COUNT).putLane l { headedLane x h with pairWon := true }).wr (LNE_LANE_STS.PAIRED l) 0

theorem headerPass_pair {s : State} {l m : Nat} {x : Lane} (hx : s.lane l = some x) (hp : partner s l = some m) (h : PhyHdr) :
    headerPass l h s = pairWon l m x h s := by
  unfold headerPass
  simp only [hx, hp]
  rfl

/-- The loser of a pair is released with cause 1 and the winner has its header (R75). -/
theorem pairWon_spec {s : State} {l m : Nat} (h : s.inv = true) (hp : partner s l = some m) (x : Lane) (hd : PhyHdr) :
    (pairWon l m x hd s).lane l = some { headedLane x hd with pairWon := true } ∧ (pairWon l m x hd s).rd (LNE_LANE_STS.STATE m) = 0 ∧
      (pairWon l m x hd s).rd (LNE_LANE_STS.LAST_CAUSE m) = 1 := by
  obtain ⟨hne, z, hz⟩ := partner_spec hp
  have hr := dropLane_released (cause := 1) h (by decide) hz
  have hi := inv_inc hr.inv LNE_CNT_PAIRLOSS.COUNT
  have hkeep : ∀ lo w, (pairWon l m x hd s).rd ⟨LNE_LANE_STS.reg m, lo, w⟩ = (dropLane m 1 s).rd ⟨LNE_LANE_STS.reg m, lo, w⟩ := by
    intro lo w
    refine (rd_wr_other _ (LNE_LANE_STS.PAIRED l) _ 0 (fun e => hne (LNE_LANE_STS_reg_inj e)) (inv_putLane hi l _)).trans ?_
    refine (putLane_rd _ _ _ _).trans (rd_wr_other _ LNE_CNT_PAIRLOSS.COUNT _ _ (fun e => ?_) hr.inv)
    simp only [LNE_LANE_STS.reg, LNE_CNT_PAIRLOSS.COUNT, LNE_CNT_PAIRLOSS.reg] at e
    omega
  exact ⟨lane_of_sput (s := (dropLane m 1 s).inc LNE_CNT_PAIRLOSS.COUNT) rfl, (hkeep 0 3).trans hr.state, (hkeep 24 4).trans hr.cause⟩

theorem pairWon_lanesOnly {s : State} {l m : Nat} (h : s.inv = true) (hl : l < 512) (hp : partner s l = some m) (x : Lane) (hd : PhyHdr) :
    lanesOnly s (pairWon l m x hd s) := by
  obtain ⟨-, z, hz⟩ := partner_spec hp
  have hr := dropLane_released (cause := 1) h (by decide) hz
  have hi := inv_inc hr.inv LNE_CNT_PAIRLOSS.COUNT
  have hsts := LNE_LANE_STS_addr hl
  have hpaired : lanesOnly (((dropLane m 1 s).inc LNE_CNT_PAIRLOSS.COUNT).putLane l { headedLane x hd with pairWon := true }) (pairWon l m x hd s) :=
    wr_lanesOnly (f := LNE_LANE_STS.PAIRED l) (inv_putLane hi l _) (hsts.1.trans' (by decide)) hsts.2 0
  have hput : lanesOnly ((dropLane m 1 s).inc LNE_CNT_PAIRLOSS.COUNT) (pairWon l m x hd s) :=
    lanesOnly_trans (putLane_lanesOnly _ l _) hpaired (putLane_keys hl rfl)
  have hloss : lanesOnly (dropLane m 1 s) (pairWon l m x hd s) :=
    lanesOnly_trans_of_same (wr_lanesOnly hr.inv (f := LNE_CNT_PAIRLOSS.COUNT) (by decide) (by decide) _) (inc_lanes _ _) hput
  exact lanesOnly_trans (hr.lanesOnly (onLane_of_lane hz)) hloss fun q hq => .inr ⟨q, sdel_mem m s.lanes q (hr.lanes ▸ hq), rfl⟩

theorem headerOf_waiting {s : State} {l w : Nat} {x : Lane} (hx : s.lane l = some x) (hst : s.rd (LNE_LANE_STS.STATE l) = 2) (hn : x.phy = none) :
    headerOf s l w = some (phyParse x.cand.rate x.sfdCoded w) := by
  unfold headerOf
  simp only [hx, hst, hn, and_self, if_true]

theorem laneRank_of_lane {s : State} {l : Nat} {x : Lane} (hx : s.lane l = some x) : laneRank s l = (x.cand.rate, x.cand.score) := by
  unfold laneRank
  rw [hx]

/-- A header that passes alone (R90). -/
theorem phyHeaderCheck_passes {s : State} {l w : Nat} {x : Lane} {hd : PhyHdr} (hx : s.lane l = some x) (hst : s.rd (LNE_LANE_STS.STATE l) = 2)
    (hn : x.phy = none) (hp : phyParse x.cand.rate x.sfdCoded w = hd) (hok : phyOk x.cand.rate hd = true) :
    phyHeaderCheck l w none s = headerPass l hd s := by
  have hrank : phyOk (laneRank s l).1 hd = true := by rwa [laneRank_of_lane hx]
  have hstep : headerStep l hd s = headerPass l hd s := if_pos hrank
  unfold phyHeaderCheck
  rw [headerOf_waiting hx hst hn, hp]
  cases partner s l <;> exact hstep

/-- PHY_HEADER_CHECK of one lane that passes (R75, R88, R90). -/
theorem phyHeaderCheck_heads {s : State} {l w : Nat} {x : Lane} {hd : PhyHdr} (h : s.inv = true) (hl : l < 512) (hx : s.lane l = some x)
    (hst : s.rd (LNE_LANE_STS.STATE l) = 2) (hn : x.phy = none) (hp : phyParse x.cand.rate x.sfdCoded w = hd) (hok : phyOk x.cand.rate hd = true) :
    ∃ (t : State) (y : Lane), exec (.phyHeaderCheck l w none) s = .next t ∧ t.lane l = some y ∧ y.phy = some hd ∧
      y.fend = x.sfdTs + bodyTicks x.cand.rate hd.coded hd.length ∧ y.pairWon = (x.pairWon || (partner s l).isSome) ∧
      (∀ m, partner s l = some m → t.rd (LNE_LANE_STS.LAST_CAUSE m) = 1) ∧ lanesOnly s t := by
  have hexec : exec (.phyHeaderCheck l w none) s = .next (headerPass l hd s) :=
    (ranged_lane hl _).trans (congrArg _ (phyHeaderCheck_passes hx hst hn hp hok))
  cases hm : partner s l with
  | none =>
    rw [headerPass_alone hx hm] at hexec
    exact ⟨_, _, hexec, lane_of_sput (s := s) rfl, rfl, rfl, (Bool.or_false _).symm, fun m e => absurd e (by simp), putLane_lanesOnly s l _⟩
  | some m =>
    rw [headerPass_pair hx hm] at hexec
    obtain ⟨hlane, -, hcause⟩ := pairWon_spec h hm x hd
    exact ⟨_, _, hexec, hlane, rfl, rfl, (Bool.or_true _).symm, fun k e => Option.some.inj e ▸ hcause, pairWon_lanesOnly h hl hm x hd⟩

/-- The first of two members of a pair (R75). -/
theorem pairBeats_iff {s : State} {l m : Nat} {x z : Lane} (hx : s.lane l = some x) (hz : s.lane m = some z) :
    pairBeats s l m = true ↔ z.cand.score < x.cand.score ∨ x.cand.score = z.cand.score ∧ x.cand.rate < z.cand.rate := by
  unfold pairBeats
  simp only [laneRank_of_lane hx, laneRank_of_lane hz, Bool.or_eq_true, Bool.and_eq_true, decide_eq_true_eq, beq_iff_eq]

/-- Of two headers that pass in one cycle the first member's goes on (R75, R90). -/
theorem phyHeaderCheck_pair {s : State} {l m w v : Nat} {x z : Lane} {hd g : PhyHdr} (hx : s.lane l = some x)
    (hst : s.rd (LNE_LANE_STS.STATE l) = 2) (hn : x.phy = none) (hp : phyParse x.cand.rate x.sfdCoded w = hd) (hok : phyOk x.cand.rate hd = true)
    (hm : partner s l = some m) (hz : s.lane m = some z) (hstm : s.rd (LNE_LANE_STS.STATE m) = 2) (hnm : z.phy = none)
    (hg : phyParse z.cand.rate z.sfdCoded v = g) (hgok : phyOk z.cand.rate g = true) :
    phyHeaderCheck l w (some v) s = if pairBeats s l m then headerPass l hd s else headerPass m g s := by
  unfold phyHeaderCheck
  simp only [headerOf_waiting hx hst hn, hp, hm, headerOf_waiting hz hstm hnm, hg, laneRank_of_lane hx, laneRank_of_lane hz, hok, hgok, Bool.true_and,
    Bool.not_true, Bool.false_eq_true, if_false, if_true]

/-- PHY_HEADER_CHECK of a pair that passes in one cycle (R75, R90). -/
theorem phyHeaderCheck_pair_ends {s : State} {l m w v : Nat} {x z : Lane} {hd g : PhyHdr} (h : s.inv = true) (hl : l < 512) (hx : s.lane l = some x)
    (hst : s.rd (LNE_LANE_STS.STATE l) = 2) (hn : x.phy = none) (hp : phyParse x.cand.rate x.sfdCoded w = hd) (hok : phyOk x.cand.rate hd = true)
    (hm : partner s l = some m) (hml : partner s m = some l) (hz : s.lane m = some z) (hstm : s.rd (LNE_LANE_STS.STATE m) = 2) (hnm : z.phy = none)
    (hg : phyParse z.cand.rate z.sfdCoded v = g) (hgok : phyOk z.cand.rate g = true) :
    let first := z.cand.score < x.cand.score ∨ x.cand.score = z.cand.score ∧ x.cand.rate < z.cand.rate
    ∃ t, exec (.phyHeaderCheck l w (some v)) s = .next t ∧
      (first → t.rd (LNE_LANE_STS.STATE m) = 0 ∧ t.rd (LNE_LANE_STS.LAST_CAUSE m) = 1 ∧ (t.lane l).bind (·.phy) = some hd) ∧
      (¬first → t.rd (LNE_LANE_STS.STATE l) = 0 ∧ t.rd (LNE_LANE_STS.LAST_CAUSE l) = 1 ∧ (t.lane m).bind (·.phy) = some g) := by
  have hexec : exec (.phyHeaderCheck l w (some v)) s = .next (if pairBeats s l m then headerPass l hd s else headerPass m g s) :=
    (ranged_lane hl _).trans (congrArg _ (phyHeaderCheck_pair hx hst hn hp hok hm hz hstm hnm hg hgok))
  dsimp only
  refine ⟨_, hexec, fun hf => ?_, fun hf => ?_⟩
  · rw [if_pos ((pairBeats_iff hx hz).mpr hf), headerPass_pair hx hm]
    obtain ⟨hlane, hstate, hcause⟩ := pairWon_spec h hm x hd
    exact ⟨hstate, hcause, congrArg (·.bind (·.phy)) hlane⟩
  · rw [if_neg fun hb => hf ((pairBeats_iff hx hz).mp hb), headerPass_pair hz hml]
    obtain ⟨hlane, hstate, hcause⟩ := pairWon_spec h hml z g
    exact ⟨hstate, hcause, congrArg (·.bind (·.phy)) hlane⟩

end Sys2Proof.Machine

/-! The lane header and the link controller's answer to it (R91, R142-R147). -/

namespace Sys2Proof.Machine

/-! ## Answers -/

theorem answerHeader_early {x : Lane} {len r : Nat} {h : MacHdr} (s : State) (he : earlyReason len h = some r) :
    answerHeader x len h s = (s, .reject r) := by
  unfold answerHeader
  rw [he]

theorem earlyReason_version {len : Nat} {h : MacHdr} (hv : h.version = 0 ∨ h.version = 3) : earlyReason len h = some 1 := if_pos hv

/-- An acknowledgement that matches no attempt (R147). -/
theorem answerHeader_unmatched {x : Lane} {len : Nat} {h : MacHdr} {s : State} (he : earlyReason len h = none) (ht : h.ftype = 2)
    (hm : ackMatch s x h = none) : answerHeader x len h s = (s, .reject 5) := by
  unfold answerHeader
  simp only [he, ht, hm, if_true]

theorem answerHeader_data {x : Lane} {len : Nat} {h : MacHdr} (s : State) (he : earlyReason len h = none) (ht : h.ftype ≠ 2) :
    answerHeader x len h s = answerData x h s := by
  unfold answerHeader
  simp only [he, ht, if_false]

theorem answerData_noEntry {x : Lane} {h : MacHdr} {s : State} (he : entryOf s x.cand.grid h = none) (hd : h.dstPan ≠ some 0xFFFF) :
    answerData x h s = (s, .reject 4) := by
  unfold answerData
  simp only [he, hd, false_and, if_false]

theorem answerData_badDst {x : Lane} {h : MacHdr} {s : State} {i : Nat} (he : entryOf s x.cand.grid h = some i) (hd : dstOk s i h = false) :
    answerData x h s = (s, .reject 5) := by
  unfold answerData
  simp only [he, hd, Bool.not_false, if_true]

/-- The answer to a frame whose source is no node of the PAN (R146). -/
def anonymous (s : State) (i : Nat) : Answer :=
  if s.on (LNK_PAN_CFG.ADMIT i) then .accept (s.rd (LNK_PAN_CFG.PART i)) none (some i) false none else .reject 6

theorem answerData_anonymous {x : Lane} {h : MacHdr} {s : State} {i : Nat} (he : entryOf s x.cand.grid h = some i) (hd : dstOk s i h = true)
    (hs : lookupSrc s i h.src = none) : answerData x h s = (s, anonymous s i) := by
  unfold answerData
  simp only [he, hd, hs, Bool.not_true, Bool.false_eq_true, if_false]
  rfl

/-- The answer to a frame of a node whose context has been checked (R146, R195). -/
theorem answerData_node {x : Lane} {h : MacHdr} {s : State} {i n : Nat} (he : entryOf s x.cand.grid h = some i) (hd : dstOk s i h = true)
    (hs : lookupSrc s i h.src = some n) : answerData x h s =
      if ((ctxCheck n s).node n).poison then ((ctxCheck n s).inc QUE_CNT_POISON_REJ.COUNT, anonymous s i)
      else (ctxCheck n s, .accept (s.rd (LNK_PAN_CFG.PART i)) (some n) (some i) false none) := by
  unfold answerData
  simp only [he, hd, hs, Bool.not_true, Bool.false_eq_true, if_false]
  rfl

/-! ## What an answer changes -/

theorem queStep_ctxCheck {s : State} (h : s.inv = true) (n : Nat) : QueStep s (ctxCheck n s) := by
  unfold ctxCheck
  dsimp only
  split
  · exact .refl h
  · have h0 : QueStep s (s.setNode n { s.node n with poison := true }) := queStep_que h _
    have h1 := h0.trans (queStep_wr h0.inv (f := QUE_PAR_LOG.INDEX) (by decide) (by decide) n)
    have h2 := h1.trans (queStep_wr h1.inv (f := QUE_PAR_LOG.KIND) (by decide) (by decide) 1)
    have h3 := h2.trans (queStep_wr h2.inv (f := QUE_PAR_LOG.VALID) (by decide) (by decide) 1)
    have h4 := h3.trans (queStep_inc h3.inv (f := QUE_CNT_CTX_PAR.COUNT) (by decide) (by decide))
    exact h4.trans (queStep_raise h4.inv 2)

theorem queStep_answerData {s : State} (h : s.inv = true) (x : Lane) (hd : MacHdr) : QueStep s (answerData x hd s).1 := by
  cases he : entryOf s x.cand.grid hd with
  | none =>
    unfold answerData
    simp only [he]
    split <;> exact .refl h
  | some i =>
    cases hok : dstOk s i hd with
    | false => rw [answerData_badDst he hok]; exact .refl h
    | true =>
      cases hs : lookupSrc s i hd.src with
      | none => rw [answerData_anonymous he hok hs]; exact .refl h
      | some n =>
        have hc := queStep_ctxCheck h n
        rw [answerData_node he hok hs]
        split
        · exact hc.trans (queStep_inc hc.inv (by decide) (by decide))
        · exact hc

theorem queStep_answerHeader {s : State} (h : s.inv = true) (x : Lane) (len : Nat) (hd : MacHdr) : QueStep s (answerHeader x len hd s).1 := by
  cases he : earlyReason len hd with
  | some r => rw [answerHeader_early s he]; exact .refl h
  | none =>
    by_cases ht : hd.ftype = 2
    · cases hm : ackMatch s x hd with
      | none => rw [answerHeader_unmatched he ht hm]; exact .refl h
      | some a =>
        unfold answerHeader
        simp only [he, ht, hm, if_true]
        exact .refl h
    · rw [answerHeader_data s he ht]
      exact queStep_answerData h x hd

/-! ## LANE_HEADER -/

/-- The octets that a lane header item needs are known (R142). -/
def headerReady (f : PhyHdr) (known : List Byte) : Prop := known.length = f.length ∨ 2 ≤ known.length ∧ headerNeed known ≤ known.length

theorem laneHeader_waits {s : State} {l : Nat} {x : Lane} {f : PhyHdr} {octs : List Byte} (hx : s.lane l = some x) (hf : x.phy = some f)
    (hr : ¬headerReady f (laneOctets x f octs)) : laneHeader l octs s = s := by
  unfold laneHeader
  simp only [hx, hf]
  exact if_neg fun hc => hr hc.2

theorem laneHeader_sends {s : State} {l : Nat} {x : Lane} {f : PhyHdr} {octs : List Byte} (hx : s.lane l = some x) (hf : x.phy = some f)
    (hn : x.hdr = none) (hr : headerReady f (laneOctets x f octs)) :
    let known := laneOctets x f octs
    let h := macParse known f.length (rxFcsLen x.cand.rate f)
    let r := answerHeader x f.length h s
    laneHeader l octs s = r.1.putLane l { x with psdu := known, hdr := some h, ans := some r.2 } := by
  unfold laneHeader
  simp only [hx, hf]
  exact if_pos ⟨hn, hr⟩

/-- LANE_HEADER (R91, R142-R147, R195). -/
theorem laneHeader_spec {s : State} {l : Nat} {x : Lane} {f : PhyHdr} {octs : List Byte} (h : s.inv = true) (hl : l < 512) (hx : s.lane l = some x)
    (hf : x.phy = some f) (hn : x.hdr = none) :
      let known := laneOctets x f octs
      let ready := known.length = f.length ∨ 2 ≤ known.length ∧ headerNeed known ≤ known.length
      let h := macParse known f.length (rxFcsLen x.cand.rate f)
      let plain := earlyReason f.length h = none ∧ h.ftype ≠ 2
      (¬ready → exec (.laneHeader l octs) s = .next s) ∧
      (ready → ∃ (t : State) (a : Answer), exec (.laneHeader l octs) s = .next t ∧
        t.lane l = some { x with psdu := known, hdr := some h, ans := some a } ∧
        (h.version = 0 ∨ h.version = 3 → a = .reject 1) ∧
        (∀ r, earlyReason f.length h = some r → a = .reject r) ∧
        (earlyReason f.length h = none → h.ftype = 2 → (ackMatch s x h).isNone = true → a = .reject 5) ∧
        (plain → entryOf s x.cand.grid h = none → h.dstPan ≠ some 0xFFFF → a = .reject 4) ∧
        (∀ i, plain → entryOf s x.cand.grid h = some i → dstOk s i h = false → a = .reject 5) ∧
        (∀ i, plain → entryOf s x.cand.grid h = some i → dstOk s i h = true → lookupSrc s i h.src = none →
          a = if s.on (LNK_PAN_CFG.ADMIT i) then .accept (s.rd (LNK_PAN_CFG.PART i)) none (some i) false none else .reject 6) ∧
        (∀ i n, plain → entryOf s x.cand.grid h = some i → dstOk s i h = true → lookupSrc s i h.src = some n →
          ((ctxCheck n s).node n).poison = false → a = .accept (s.rd (LNK_PAN_CFG.PART i)) (some n) (some i) false none) ∧
        lanesOnly s t) := by
  intro known ready hd plain
  have hexec : ∀ {t}, laneHeader l octs s = t → exec (.laneHeader l octs) s = .next t := fun e => (ranged_lane hl _).trans (congrArg _ e)
  refine ⟨fun hr => hexec (laneHeader_waits hx hf hr),
    fun hr => ⟨_, (answerHeader x f.length hd s).2, hexec (laneHeader_sends hx hf hn hr), ?_⟩⟩
  have hq := queStep_answerHeader h x f.length hd
  have hdata : plain → (answerHeader x f.length hd s).2 = (answerData x hd s).2 := fun hp => by rw [answerHeader_data s hp.1 hp.2]
  refine ⟨lane_of_sput (s := (answerHeader x f.length hd s).1) rfl, fun hv => ?_, fun r he => ?_, fun he ht hm => ?_, fun hp he hpan => ?_,
    fun i hp he hdst => ?_, fun i hp he hdst hs => ?_, fun i n hp he hdst hs hpois => ?_, ?_⟩
  · rw [answerHeader_early s (earlyReason_version hv)]
  · rw [answerHeader_early s he]
  · rw [answerHeader_unmatched he ht (Option.isNone_iff_eq_none.mp hm)]
  · rw [hdata hp, answerData_noEntry he hpan]
  · rw [hdata hp, answerData_badDst he hdst]
  · rw [hdata hp, answerData_anonymous he hdst hs]
    rfl
  · rw [hdata hp, answerData_node he hdst hs, if_neg (by rw [hpois]; exact Bool.false_ne_true)]
  · exact lanesOnly_trans_of_same hq.lanesOnly hq.lanes (putLane_lanesOnly _ l _)

end Sys2Proof.Machine

/-! A lane's cells, its frame end and its descriptor, and the whole way of its frame (R22, R92-R97, R148, R188, R193). -/

namespace Sys2Proof.Machine

/-! ## Cells -/

/-- A cell that is written to something reads what was written. -/
theorem cell_setCell_same (s : State) (k : Nat) {c : FCell} (hc : c ≠ {}) : (s.setCell k c).cell k = c := by
  show sget (fun _ => ({} : FCell)) (sset (fun _ => {}) s.que.cells k c) k = c
  unfold sset
  rw [if_neg hc]
  exact sget_sput_same _ k c _

theorem cell_setCell_ne (s : State) {j k : Nat} {c : FCell} (hc : c ≠ {}) (hk : k ≠ j) : (s.setCell j c).cell k = s.cell k := by
  show sget (fun _ => ({} : FCell)) (sset (fun _ => {}) s.que.cells j c) k = s.cell k
  unfold sset
  rw [if_neg hc]
  exact sget_sput_ne _ c hk _

/-- The lowest key stands first in a table. -/
theorem sput_zero {α : Type} (v : α) : ∀ m : Sparse α, ∃ m', sput m 0 v = (0, v) :: m'
  | [] => ⟨_, rfl⟩
  | (0, _) :: _ => ⟨_, rfl⟩
  | (_ + 1, _) :: _ => ⟨_, rfl⟩

/-- Cell zero, once written, keeps its contents whatever is written to another. -/
theorem cell_zero_setCell (s : State) {j : Nat} {v : FCell} (hv : v ≠ {}) (c : FCell) (hj : j ≠ 0) :
    ((s.setCell 0 v).setCell j c).cell 0 = v := by
  obtain ⟨m', hm⟩ := sput_zero v s.que.cells
  have hcells : (s.setCell 0 v).que.cells = (0, v) :: m' := (if_neg hv).trans hm
  show sget (fun _ => ({} : FCell)) (sset (fun _ => {}) (s.setCell 0 v).que.cells j c) 0 = v
  rw [hcells]
  unfold sset
  split
  · simp [sdel, sget, hj]
  · simp [sput, sget, hj]

/-- A cell is linked behind the last one of a chain, where there is one (R188). -/
def linkCell (last : Option Nat) (k : Nat) (s : State) : State :=
  match last with
  | some j => s.setCell j { s.cell j with next := k }
  | none => s

theorem queStep_linkCell {s : State} (h : s.inv = true) (last : Option Nat) (k : Nat) : QueStep s (linkCell last k s) := by
  cases last with
  | none => exact .refl h
  | some j => exact queStep_setCell h j _

theorem linkCell_regs (last : Option Nat) (k : Nat) (s : State) : (linkCell last k s).regs = s.regs := by
  cases last <;> rfl

/-- A link leaves the data of the cell that it names. Where the cell is zero it has to be charged: a blank cell that comes to name cell zero
is listed no more, and the table need not be in order. -/
theorem cell_linkCell_data (s : State) (last : Option Nat) (k : Nat) {v : FCell} (hv : v ≠ {}) (hk : k ≠ 0 ∨ v.acct ≠ none) :
    ((linkCell last k (s.setCell k v)).cell k).data = v.data := by
  cases last with
  | none => exact congrArg FCell.data (cell_setCell_same s k hv)
  | some j =>
  show (((s.setCell k v).setCell j { (s.setCell k v).cell j with next := k }).cell k).data = v.data
  by_cases e : j = k
  · subst e
    have hne : ({ v with next := j } : FCell) ≠ {} := fun hc => by
      rcases hk with hj | ha
      · exact hj (congrArg FCell.next hc)
      · exact ha (congrArg FCell.acct hc)
    rw [cell_setCell_same s j hv, cell_setCell_same _ j hne]
  · by_cases hc : ({ (s.setCell k v).cell j with next := k } : FCell) = {}
    · obtain rfl : k = 0 := congrArg FCell.next hc
      rw [cell_zero_setCell s hv _ e]
    · rw [cell_setCell_ne _ hc (Ne.symm e), cell_setCell_same s k hv]

/-! ## Taking a cell -/

theorem setFree_que (v : Nat) (s : State) : (setFree v s).que = s.que := by
  unfold setFree
  dsimp only
  split <;> split <;> simp only [raise_que, wr_que]

theorem useMore_cells (a n : Nat) (s : State) : (useMore a n s).que.cells = s.que.cells ∧ (useMore a n s).que.rxs = s.que.rxs := by
  unfold useMore
  split <;> exact ⟨rfl, rfl⟩

theorem takeCells_eq (a n : Nat) (s : State) : (takeCells a n s).1 =
    useMore a n (setFree (s.rd QUE_STS.FREE - n) ((takeCells a n s).2.foldl (takeCell a) s.freed)) := rfl

/-- Taking cells leaves the received frames. -/
theorem takeCells_rxs (a n : Nat) (s : State) : (takeCells a n s).1.que.rxs = s.que.rxs := by
  rw [takeCells_eq, (useMore_cells _ _ _).2, setFree_que]
  exact foldl_same (fun u : State => u.que.rxs) (takeCell a) _ _ fun _ _ => rfl

theorem takeCells_cell (a n k : Nat) (s : State) : (takeCells a n s).1.cell k = ((takeCells a n s).2.foldl (takeCell a) s.freed).cell k := by
  unfold State.cell
  rw [takeCells_eq, (useMore_cells _ _ _).1, setFree_que]

/-- The one cell that is taken, if its number is zero, is charged to its account. -/
theorem takeCells_charged (a : Nat) (s : State) :
    (takeCells a 1 s).2.headD noCell ≠ 0 ∨ ((takeCells a 1 s).1.cell ((takeCells a 1 s).2.headD noCell)).acct ≠ none := by
  have hlen : (takeCells a 1 s).2.length ≤ 1 := List.length_take_le _ _
  rw [takeCells_cell]
  generalize (takeCells a 1 s).2 = ks at hlen
  match ks, hlen with
  | [], _ => exact .inl (by decide)
  | [k], _ =>
    refine .inr ?_
    have hne : ({ s.freed.cell k with acct := some a, badPar := 0, poison := false } : FCell) ≠ {} :=
      fun hc => absurd (congrArg FCell.acct hc) (by simp)
    show ((takeCell a s.freed k).cell k).acct ≠ none
    unfold takeCell
    rw [cell_setCell_same _ k hne]
    simp

theorem setFree_free {s : State} {v : Nat} (h : s.inv = true) (hv : v < 2 ^ 20) : (setFree v s).rd QUE_STS.FREE = v := by
  have h1 := inv_wr h QUE_STS.FREE v
  have hread : (s.wr QUE_STS.FREE v).rd QUE_STS.FREE = v := rd_wr_fits h (by decide) hv
  have h2 : ∃ u, (if v < s.rd QUE_FREE_MIN.MIN then (s.wr QUE_STS.FREE v).wr QUE_FREE_MIN.MIN v else s.wr QUE_STS.FREE v) = u ∧ u.inv = true ∧
      u.rd QUE_STS.FREE = v := by
    split
    · exact ⟨_, rfl, inv_wr h1 _ _, (rd_wr_other _ QUE_FREE_MIN.MIN QUE_STS.FREE v (by decide) h1).trans hread⟩
    · exact ⟨_, rfl, h1, hread⟩
  obtain ⟨u, hu, hi, hr⟩ := h2
  unfold setFree
  dsimp only
  rw [hu]
  split
  · exact (raise_rd u 5 6 QUE_STS.FREE hi (noPba_of_lt (by decide)) (by decide)).trans hr
  · exact hr

theorem useMore_free {s : State} (h : s.inv = true) (a n : Nat) : (useMore a n s).rd QUE_STS.FREE = s.rd QUE_STS.FREE := by
  unfold useMore
  split
  · refine rd_wr_other s (QUE_PUSE.USE a) QUE_STS.FREE _ ?_ h
    dsimp only [QUE_PUSE.USE, QUE_PUSE.reg, QUE_STS.FREE, QUE_STS.reg]
    omega
  · rfl

theorem takeCells_free {s : State} (h : s.inv = true) (a n : Nat) : (takeCells a n s).1.rd QUE_STS.FREE = s.rd QUE_STS.FREE - n := by
  have h1 : ((takeCells a n s).2.foldl (takeCell a) s.freed).inv = true :=
    (QueStep.foldl (f := takeCell a) (fun u k hu => queStep_setCell hu k _) _ (s := s.freed) h).inv
  have hlt : s.rd QUE_STS.FREE < 2 ^ 20 := bf_lt _ 0 20
  rw [takeCells_eq, useMore_free (queStep_setFree h1 _).inv]
  exact setFree_free h1 (Nat.lt_of_le_of_lt (Nat.sub_le _ _) hlt)

/-! ## RECEIVE_CELL -/

theorem receiveCell_waits {s : State} {l : Nat} {x : Lane} {f : PhyHdr} (hx : s.lane l = some x) (hf : x.phy = some f) (hs : x.stalled = false)
    (hc : cellCredits s = 0) (d : BitVec 512) : receiveCell l d s = s := by
  unfold receiveCell
  simp only [hx, hf, hs, hc]
  simp

/-- A cell handed over by a lane whose partition stays goes to the frame store. -/
theorem receiveCell_stores {s : State} {l : Nat} {x : Lane} {f : PhyHdr} (hx : s.lane l = some x) (hf : x.phy = some f)
    (hn : x.cells.length < ceilDiv f.length 64) (hr : x.rst = false) (hs : x.stalled = true ∨ 0 < cellCredits s) (d : BitVec 512) :
    receiveCell l d s = storeCell l { x with psdu := cellOctets x f d } f.length (((cellOctets x f d).drop (64 * x.cells.length)).take 64) s := by
  have hgo : x.cells.length < ceilDiv f.length 64 ∧ (x.stalled = true ∨ 0 < cellCredits s) := ⟨hn, hs⟩
  unfold receiveCell
  simp only [hx, hf, hgo, hr]
  rfl

theorem storeCell_refused {s : State} {l : Nat} (hacc : (laneAccount s l).2 = false) (x : Lane) (len : Nat) (bs : List Byte) :
    storeCell l x len bs s = s.putLane l { x with stalled := true } := by
  unfold storeCell
  simp only [hacc]
  rfl

/-- A PSDU cell as it is written: the n-th of a frame of len octets (R188). -/
def psduCell (c : FCell) (n len : Nat) (bs : List Byte) : FCell :=
  let final := decide (len ≤ 64 * (n + 1))
  { c with data := recOf 512 bs, next := noCell, last := final, count := if final then len % 64 else 0 }

theorem psduCell_ne (c : FCell) (n len : Nat) (bs : List Byte) : psduCell c n len bs ≠ {} := fun hc =>
  absurd (congrArg FCell.next hc) (show noCell ≠ 0 by decide)

theorem storeCell_eq {s : State} {l : Nat} (hacc : (laneAccount s l).2 = true) (x : Lane) (len : Nat) (bs : List Byte) :
    let r := takeCells (laneAccount s l).1 1 s
    let k := r.2.headD noCell
    storeCell l x len bs s = (linkCell x.cells.getLast? k (r.1.setCell k (psduCell (r.1.cell k) x.cells.length len bs))).putLane l
      { x with cells := x.cells ++ [k], stalled := false } := by
  unfold storeCell linkCell
  simp only [hacc, if_true]
  cases x.cells.getLast? <;> rfl

/-- A granted cell stands behind the lane's cells with its octets (R94, R188). -/
theorem storeCell_granted {s : State} {l : Nat} (h : s.inv = true) (hacc : (laneAccount s l).2 = true) (x : Lane) (len : Nat) (bs : List Byte) :
    ∃ k, (storeCell l x len bs s).lane l = some { x with cells := x.cells ++ [k], stalled := false } ∧
      ((storeCell l x len bs s).cell k).data = recOf 512 bs ∧ (storeCell l x len bs s).rd QUE_STS.FREE = s.rd QUE_STS.FREE - 1 ∧
      lanesOnly s (storeCell l x len bs s) := by
  have hq := queStep_takeCells h (laneAccount s l).1 1
  have hfree := takeCells_free h (laneAccount s l).1 1
  have hcharged := takeCells_charged (laneAccount s l).1 s
  rw [storeCell_eq hacc]
  generalize takeCells (laneAccount s l).1 1 s = r at hq hfree hcharged
  generalize r.2.headD noCell = k at hcharged
  have hset := hq.trans (queStep_setCell hq.inv k (psduCell (r.1.cell k) x.cells.length len bs))
  have hlink := hset.trans (queStep_linkCell hset.inv x.cells.getLast? k)
  refine ⟨k, lane_of_sput rfl, cell_linkCell_data r.1 _ k (psduCell_ne _ _ _ _) hcharged, ?_, ?_⟩
  · refine (rd_of_reg ?_).trans hfree
    unfold State.reg
    exact congrArg (sget regReset · _) (linkCell_regs _ _ _)
  · exact lanesOnly_trans_of_same hlink.lanesOnly hlink.lanes (putLane_lanesOnly _ l _)

/-- RECEIVE_CELL of a lane whose partition stays (R22, R94, R188, R193). -/
theorem receiveCell_spec {s : State} {l : Nat} {x : Lane} {f : PhyHdr} {d : BitVec 512} (h : s.inv = true) (hl : l < 512) (hx : s.lane l = some x)
    (hf : x.phy = some f) (hn : x.cells.length < ceilDiv f.length 64) (hr : x.rst = false) :
    let known := cellOctets x f d
    (x.stalled = false → cellCredits s = 0 → exec (.receiveCell l d) s = .next s) ∧
    (x.stalled = true ∨ 0 < cellCredits s →
      ((laneAccount s l).2 = false → exec (.receiveCell l d) s = .next (s.putLane l { x with psdu := known, stalled := true })) ∧
      ((laneAccount s l).2 = true →
        ∃ (t : State) (k : Nat), exec (.receiveCell l d) s = .next t ∧
          t.lane l = some { x with psdu := known, cells := x.cells ++ [k], stalled := false } ∧
          (t.cell k).data = recOf 512 ((known.drop (64 * x.cells.length)).take 64) ∧ t.rd QUE_STS.FREE = s.rd QUE_STS.FREE - 1 ∧
          lanesOnly s t)) := by
  have hexec : ∀ {t}, receiveCell l d s = t → exec (.receiveCell l d) s = .next t := fun e => (ranged_lane hl _).trans (congrArg _ e)
  refine ⟨fun hs hc => hexec (receiveCell_waits hx hf hs hc d), fun hs => ⟨fun hacc => ?_, fun hacc => ?_⟩⟩
  · exact hexec ((receiveCell_stores hx hf hn hr hs d).trans (storeCell_refused hacc _ _ _))
  · obtain ⟨k, hlane, hdata, hfree, honly⟩ := storeCell_granted h hacc { x with psdu := cellOctets x f d } f.length
      (((cellOctets x f d).drop (64 * x.cells.length)).take 64)
    exact ⟨_, k, hexec (receiveCell_stores hx hf hn hr hs d), hlane, hdata, hfree, honly⟩

/-! ## FRAME_END -/

theorem wantAck_frame (l : Nat) (x : Lane) (h : MacHdr) (p : Nat) (n pan : Option Nat) (d : BitVec 512) (s : State) :
    (wantAck l x h p n pan d s).lanes = s.lanes ∧ (wantAck l x h p n pan d s).regs = s.regs := by
  unfold wantAck
  split <;> exact ⟨rfl, rfl⟩

/-- A frame that asks for an acknowledgement, while the link controller runs, joins those that await it (R148). -/
theorem wantAck_joins {s : State} {h : MacHdr} (he : s.on LNK_CTRL.EN = true) (ha : h.ackReq = true) (hb : isBcast h.dst = false) (l : Nat) (x : Lane)
    (p : Nat) (n pan : Option Nat) (d : BitVec 512) :
    ∃ a : AckReq, (wantAck l x h p n pan d s).lnk.acks = s.lnk.acks ++ [a] ∧ a.fend = x.fend ∧ a.lane = l ∧ a.part = p ∧ a.hdr = h ∧
      a.node = n := by
  have hgo : s.on LNK_CTRL.EN = true ∧ h.ackReq = true ∧ (!isBcast h.dst) = true := ⟨he, ha, by rw [hb]; rfl⟩
  unfold wantAck
  rw [if_pos hgo]
  exact ⟨_, rfl, rfl, rfl, rfl, rfl, rfl⟩

theorem wantAck_none {s : State} {h : MacHdr} (hn : s.on LNK_CTRL.EN = false ∨ h.ackReq = false ∨ isBcast h.dst = true) (l : Nat) (x : Lane)
    (p : Nat) (n pan : Option Nat) (d : BitVec 512) : wantAck l x h p n pan d s = s := by
  unfold wantAck
  refine if_neg fun hc => ?_
  obtain ⟨he, ha, hb⟩ := hc
  rcases hn with e | e | e <;> simp [e] at he ha hb

/-- A failed FCS is only counted (R93). -/
theorem fcsFails_spec {s : State} (h : s.inv = true) (l : Nat) :
    (fcsFails l s).lanes = s.lanes ∧ (fcsFails l s).lnk = s.lnk ∧ (fcsFails l s).rd (LNE_LANE_STS.STATE l) = s.rd (LNE_LANE_STS.STATE l) := by
  have hfirst : (s.inc LNE_CNT_FCSFAIL.COUNT).rd (LNE_LANE_STS.STATE l) = s.rd (LNE_LANE_STS.STATE l) := rd_wr_other _ _ _ _ (fun e => by
    simp only [LNE_LANE_STS.STATE, LNE_LANE_STS.reg, LNE_CNT_FCSFAIL.COUNT, LNE_CNT_FCSFAIL.reg] at e
    omega) h
  unfold fcsFails
  dsimp only
  split
  · refine ⟨rfl, rfl, (rd_wr_other _ _ _ _ (fun e => ?_) (inv_inc h _)).trans hfirst⟩
    have := LNE_PCNT_addr (k := 3) (rd_PART_lt s l) (by decide)
    simp only [LNE_LANE_STS.STATE, LNE_LANE_STS.reg, LNE_PCNT.COUNT] at e this
    omega
  · exact ⟨rfl, rfl, hfirst⟩

/-- The state in which a lane's frame has ended, before it is acknowledged or its failure counted (R92, R95-R97). -/
def frameEnded (l : Nat) (x : Lane) (f : PhyHdr) (known : List Byte) (q : Quality) (s : State) : State :=
  let h := macParse known f.length (rxFcsLen x.cand.rate f)
  let ok := fcsRight x.cand.rate f known
  let y := { x with psdu := known, hdr := some h }
  (s.putLane l { y with fcsOk := some ok, dsc := laneDescriptor s l y f h ok q }).wr (LNE_LANE_STS.STATE l) 4

/-- FRAME_END of an attributed lane whose frame is handed over (R92, R93, R148). -/
theorem frameEnd_eq {s : State} {l p : Nat} {x : Lane} {f : PhyHdr} {h0 : MacHdr} {n pan att : Option Nat} {bc : Bool} {rest : List Byte}
    {q : Quality} (hx : s.lane l = some x) (hf : x.phy = some f) (hk : x.fcsOk = none) (hh : x.hdr = some h0) (ha : x.ans = some (.accept p n pan bc att))
    (hst : s.rd (LNE_LANE_STS.STATE l) = 3) (hlen : f.length ≤ (laneOctets x f rest).length)
    (hok : fcsRight x.cand.rate f (laneOctets x f rest) = true ∨ s.on LNE_CTRL.FCS_BAD_DLV = true) :
    let known := laneOctets x f rest
    let u := s.at_ (x.fend + sliceD s (laneSlice x))
    let h := macParse known f.length (rxFcsLen x.cand.rate f)
    let y := { x with psdu := known, hdr := some h }
    let ok := fcsRight x.cand.rate f known
    frameEnd l rest q s =
      if ok then wantAck l y h p n pan (laneDescriptor u l y f h ok q) (frameEnded l x f known q u) else fcsFails l (frameEnded l x f known q u) := by
  have hgo : ¬(x.fcsOk ≠ none ∨ (laneOctets x f rest).length < f.length) := by
    rw [hk, not_or]
    exact ⟨fun c => c rfl, Nat.not_lt.mpr hlen⟩
  have hkeep : ¬((!fcsRight x.cand.rate f (laneOctets x f rest)) = true ∧ (!s.on LNE_CTRL.FCS_BAD_DLV) = true) := by
    rcases hok with e | e <;> simp [e]
  unfold frameEnd frameEnded
  simp only [hx, hf]
  rw [if_neg hgo, if_neg hkeep]
  simp only [hh, ha, hst, if_true]

/-- FRAME_END of an attributed lane (R92, R93, R95-R97, R148). -/
theorem frameEnd_spec {s : State} {l p : Nat} {x : Lane} {f : PhyHdr} {h0 : MacHdr} {n pan att : Option Nat} {bc : Bool} {rest : List Byte}
    {q : Quality} (hi : s.inv = true) (hl : l < 512) (hx : s.lane l = some x) (hf : x.phy = some f) (hk : x.fcsOk = none) (hh : x.hdr = some h0)
    (ha : x.ans = some (.accept p n pan bc att)) (hst : s.rd (LNE_LANE_STS.STATE l) = 3) (hlen : f.length ≤ (laneOctets x f rest).length) :
    let known := laneOctets x f rest
    let ok := fcsRight x.cand.rate f known
    let h := macParse known f.length (rxFcsLen x.cand.rate f)
    let y := { x with psdu := known, hdr := some h }
    (ok = true ∨ s.on LNE_CTRL.FCS_BAD_DLV = true) →
    ∃ t : State, exec (.frameEnd l rest q) s = .next t ∧
      t.lane l = some { y with fcsOk := some ok, dsc := laneDescriptor (s.at_ (x.fend + sliceD s (laneSlice x))) l y f h ok q } ∧
      t.rd (LNE_LANE_STS.STATE l) = 4 ∧
      (ok = true → s.on LNK_CTRL.EN = true → h.ackReq = true → isBcast h.dst = false →
        ∃ a : AckReq, t.lnk.acks = s.lnk.acks ++ [a] ∧ a.fend = x.fend ∧ a.lane = l ∧ a.part = p ∧ a.hdr = h ∧ a.node = n) ∧
      (ok = false ∨ s.on LNK_CTRL.EN = false ∨ h.ackReq = false ∨ isBcast h.dst = true → t.lnk = s.lnk) := by
  intro known ok h y hok
  have hu := inv_at hi (x.fend + sliceD s (laneSlice x))
  have hsts := LNE_LANE_STS_addr hl
  have hended : (frameEnded l x f known q (s.at_ (x.fend + sliceD s (laneSlice x)))).rd (LNE_LANE_STS.STATE l) = 4 :=
    rd_wr_fits (inv_putLane hu l _) (f := LNE_LANE_STS.STATE l) (Nat.le_of_ble_eq_true rfl) (by show 4 < 2 ^ 3; decide)
  have hinv : (frameEnded l x f known q (s.at_ (x.fend + sliceD s (laneSlice x)))).inv = true := inv_wr (inv_putLane hu l _) _ _
  have hen : (frameEnded l x f known q (s.at_ (x.fend + sliceD s (laneSlice x)))).on LNK_CTRL.EN = s.on LNK_CTRL.EN := by
    unfold State.on
    rw [← at_rd (f := LNK_CTRL.EN) hi (by decide) (x.fend + sliceD s (laneSlice x))]
    refine congrArg (· != 0) (rd_wr_other _ (LNE_LANE_STS.STATE l) LNK_CTRL.EN 4 (fun e => ?_) (inv_putLane hu l _))
    simp only [LNK_CTRL.EN, LNK_CTRL.reg, LNE_LANE_STS.STATE, LNE_LANE_STS.reg] at e
    omega
  have hlnk : (frameEnded l x f known q (s.at_ (x.fend + sliceD s (laneSlice x)))).lnk = s.lnk := at_lnk s _
  refine ⟨_, (ranged_lane hl _).trans (congrArg _ (frameEnd_eq hx hf hk hh ha hst hlen hok)), ?_⟩
  cases hb : ok with
  | true =>
    rw [if_pos hb]
    obtain ⟨hlanes, hregs⟩ := wantAck_frame l y h p n pan (laneDescriptor (s.at_ (x.fend + sliceD s (laneSlice x))) l y f h ok q)
      (frameEnded l x f known q (s.at_ (x.fend + sliceD s (laneSlice x))))
    refine ⟨hb ▸ lane_of_sput hlanes, (congrArg (bf · 0 3) (congrArg (sget regReset · _) hregs)).trans hended,
      fun _ he hack hbc => ?_, fun hn => ?_⟩
    · exact hlnk ▸ wantAck_joins (hen.trans he) hack hbc l y p n pan _
    · rw [wantAck_none (hn.resolve_left (by decide) |>.imp_left hen.trans)]
      exact hlnk
  | false =>
    have hne : ¬ok = true := by rw [hb]; exact Bool.false_ne_true
    rw [if_neg hne]
    obtain ⟨hlanes, hl2, hstate⟩ := fcsFails_spec hinv l
    exact ⟨hb ▸ lane_of_sput hlanes, hstate.trans hended, fun hc => absurd hc (by decide), fun _ => hl2.trans hlnk⟩

end Sys2Proof.Machine

/-! A lane's descriptor, and the way of its frame from the SFD to the queue fabric (R22, R75-R97, R143-R146, R193). -/

namespace Sys2Proof.Machine

/-! ## The counts of a frame that is handed over -/

theorem countHanded_spec {s : State} (h : s.inv = true) (l : Nat) (x : Lane) (ok : Bool) :
    (countHanded l x ok s).inv = true ∧ onlyRegs s (countHanded l x ok s) [LNE_CNT_HANDED.reg, LNE_PCNT.reg (s.rd (LNE_LANE_STS.PART l)) 5,
      LNE_PCNT.reg (s.rd (LNE_LANE_STS.PART l)) 6] := by
  have h1 := inv_inc h LNE_CNT_HANDED.COUNT
  have h2 := inv_inc h1 (LNE_PCNT.COUNT (s.rd (LNE_LANE_STS.PART l)) 5)
  have ho := onlyRegs_trans (inc_onlyRegs h LNE_CNT_HANDED.COUNT) (inc_onlyRegs h1 (LNE_PCNT.COUNT (s.rd (LNE_LANE_STS.PART l)) 5))
  unfold countHanded
  dsimp only
  split
  · split
    · exact ⟨inv_inc h2 _, onlyRegs_trans ho (inc_onlyRegs h2 (LNE_PCNT.COUNT (s.rd (LNE_LANE_STS.PART l)) 6))⟩
    · exact ⟨h2, onlyRegs_sub ho (by simp [LNE_CNT_HANDED.COUNT, LNE_PCNT.COUNT])⟩
  · exact ⟨h, onlyRegs_refl s _⟩

/-- The counters of frames handed over lie in the lane block, below the lanes' status, and count no lanes. -/
theorem handedRegs_apart {p a : Nat} (hp : p < 64) (ha : a ∈ [LNE_CNT_HANDED.reg, LNE_PCNT.reg p 5, LNE_PCNT.reg p 6]) :
    0x200000 ≤ a ∧ a < LNE_LANE_STS.reg 0 ∧ ¬countsLanes a := by
  have hpcnt : ∀ k, k < 8 → 0x200000 ≤ LNE_PCNT.reg p k ∧ LNE_PCNT.reg p k < LNE_LANE_STS.reg 0 ∧ ¬countsLanes (LNE_PCNT.reg p k) :=
    fun k hk =>
    ⟨(LNE_PCNT_addr hp hk).1.trans' (by decide), (LNE_PCNT_addr hp hk).2, LNE_PCNT_not_counts hp hk⟩
  simp only [List.mem_cons, List.not_mem_nil, or_false] at ha
  rcases ha with rfl | rfl | rfl
  · exact ⟨by decide, by decide, by unfold countsLanes; decide⟩
  · exact hpcnt 5 (by decide)
  · exact hpcnt 6 (by decide)

/-- A frame is handed over: it is counted and its lane released (R69, R93). -/
theorem handedOver_spec {s u : State} {l cause : Nat} {x : Lane} (hl : l < 512) (hc : cause < 16) (hq : QueStep s u) (hx : s.lane l = some x)
    (ok : Bool) :
    let t := releaseLane l cause (countHanded l x ok u)
    laneFreed s t l cause ∧ lanesOnly s t ∧ t.que = u.que := by
  intro t
  obtain ⟨hi, ho⟩ := countHanded_spec hq.inv l x ok
  have hapart := fun a => handedRegs_apart (a := a) (rd_PART_lt u l)
  have hlanes : (countHanded l x ok u).lanes = u.lanes := by rw [ho.1]
  refine ⟨hq.freed hl (laneFreed_of_same hlanes ?_ (fun a ha => ?_) (releaseLane_freed hi hc l)), ?_, ?_⟩
  · refine ho.2 _ fun hm => ?_
    have := (hapart _ hm).2.1
    unfold LNE_LANE_STS.reg at this
    omega
  · exact ho.2 a fun hm => (hapart a hm).2.2 ha
  · have hlist : onLane (countHanded l x ok u) (LNE_LANE_STS.reg l) := onLane_of_lane ((lane_of_lanes (hlanes.trans hq.lanes) l).trans hx)
    have hcount : lanesOnly u (countHanded l x ok u) := ho.lanesOnly fun a ha => ⟨(hapart a ha).1, (hapart a ha).2.1.trans (by decide)⟩
    exact lanesOnly_trans_of_same hq.lanesOnly hq.lanes (lanesOnly_trans_of_same hcount hlanes ((releaseLane_released hi hc l).lanesOnly hlist))
  · show (releaseLane l cause (countHanded l x ok u)).que = u.que
    rw [releaseLane_frame, ho.1]

/-! ## DESCRIPTOR_CELL -/

/-- The descriptor cell of a lane's frame is written and the frame joins those received (R94, R97). -/
def descriptorStored (a : Nat) (d : BitVec 512) (next : Nat) (rx : Nat → Rx) (s : State) : State :=
  let r := takeCells a 1 s
  let k := r.2.headD noCell
  let s1 := r.1.setCell k { r.1.cell k with data := d, next := next, last := false, hdrCell := true }
  { s1 with que := { s1.que with rxs := s1.que.rxs ++ [rx k] } }

theorem queStep_descriptorStored {s : State} (h : s.inv = true) (a : Nat) (d : BitVec 512) (next : Nat) (rx : Nat → Rx) :
    QueStep s (descriptorStored a d next rx s) := by
  have hq := queStep_takeCells h a 1
  have hset : ∀ k c, QueStep s ((takeCells a 1 s).1.setCell k c) := fun k c => hq.trans (queStep_setCell hq.inv k c)
  exact (hset _ _).trans (queStep_que (hset _ _).inv _)

theorem descriptorStored_rxs (s : State) (a : Nat) (d : BitVec 512) (next : Nat) (rx : Nat → Rx) :
    (descriptorStored a d next rx s).que.rxs = s.que.rxs ++ [rx ((takeCells a 1 s).2.headD noCell)] :=
  congrArg (· ++ [rx ((takeCells a 1 s).2.headD noCell)]) (takeCells_rxs a 1 s)

/-- The received frame that a lane hands over with its descriptor in cell k (R97). -/
def handedRx (l : Nat) (x : Lane) (h : MacHdr) (p : Nat) (n pan : Option Nat) (bc ok : Bool) (d : BitVec 512) (k : Nat) : Rx :=
  { dsc := d, part := p, node := n, pan := pan, hdr := h, lane := l, fend := x.fend, sfdTs := x.sfdTs
    cells := x.cells, descCell := k, stage := if ok then 0 else 3, att := x.att, fcsBad := !ok, bcast := bc
    oow := x.winOow, slot := 0, owed := if ok then [] else [0] }

/-- The descriptor with what the link controller and the cells add to the lane's fields (R97). -/
def handedDsc (x : Lane) (p : Nat) (n : Option Nat) : BitVec 512 :=
  putAll x.dsc [(RD.NODE, n.getD 0), (RD.PART, p), (RD.NODE_VALID, if n.isSome then 1 else 0),
    (RD.OUT_OF_WINDOW, if x.winOow = some true then 1 else 0), (RD.FIRST_CELL, x.cells.headD noCell), (RD.TCORR, unsgn 32 x.tcorr)]

theorem descriptorCell_eq {s : State} {l p : Nat} {x : Lane} {f : PhyHdr} {h : MacHdr} {n pan att : Option Nat} {bc ok : Bool}
    (hx : s.lane l = some x) (hf : x.phy = some f) (hh : x.hdr = some h) (ha : x.ans = some (.accept p n pan bc att)) (hk : x.fcsOk = some ok)
    (hst : s.rd (LNE_LANE_STS.STATE l) = 4) (hc : x.cells.length = ceilDiv f.length 64) (hr : x.rst = false) :
    descriptorCell l s =
      if (laneAccount s l).2 then releaseLane l (if ok then 0 else 7) (countHanded l x ok (descriptorStored (laneAccount s l).1 (handedDsc x p n)
        (x.cells.headD noCell) (handedRx l x h p n pan bc ok (handedDsc x p n)) s))
      else s := by
  unfold descriptorCell
  simp only [hx, hf, hh, ha, hk, hst, hc, hr, and_self, if_true, Bool.false_eq_true, if_false]
  rfl

/-- DESCRIPTOR_CELL of a lane whose partition stays (R93, R94, R97, R193). -/
theorem descriptorCell_spec {s : State} {l p : Nat} {x : Lane} {f : PhyHdr} {h : MacHdr} {n pan att : Option Nat} {bc ok : Bool} (hi : s.inv = true)
    (hl : l < 512) (hx : s.lane l = some x) (hf : x.phy = some f) (hh : x.hdr = some h) (ha : x.ans = some (.accept p n pan bc att))
    (hk : x.fcsOk = some ok) (hst : s.rd (LNE_LANE_STS.STATE l) = 4) (hc : x.cells.length = ceilDiv f.length 64) (hr : x.rst = false) :
    ((laneAccount s l).2 = false → exec (.descriptorCell l) s = .next s) ∧
    ((laneAccount s l).2 = true →
      ∃ (t : State) (r : Rx), exec (.descriptorCell l) s = .next t ∧ t.que.rxs = s.que.rxs ++ [r] ∧ r.part = p ∧ r.node = n ∧ r.pan = pan ∧ r.hdr = h ∧
        r.lane = l ∧ r.cells = x.cells ∧ r.stage = (if ok then 0 else 3) ∧ laneFreed s t l (if ok then 0 else 7) ∧ lanesOnly s t) := by
  have hexec : exec (.descriptorCell l) s = .next _ := (ranged_lane hl _).trans (congrArg _ (descriptorCell_eq hx hf hh ha hk hst hc hr))
  refine ⟨fun hacc => ?_, fun hacc => ?_⟩
  · rw [hexec, if_neg (by rw [hacc]; exact Bool.false_ne_true)]
  · rw [if_pos hacc] at hexec
    have hcause : (if ok then 0 else 7) < 16 := by cases ok <;> decide
    have hstored := queStep_descriptorStored hi (laneAccount s l).1 (handedDsc x p n) (x.cells.headD noCell)
      (handedRx l x h p n pan bc ok (handedDsc x p n))
    obtain ⟨hfreed, honly, hque⟩ := handedOver_spec hl hcause hstored hx ok
    exact ⟨_, _, hexec, (congrArg Que.rxs hque).trans (descriptorStored_rxs _ _ _ _ _), rfl, rfl, rfl, rfl, rfl, rfl, rfl, hfreed, honly⟩

/-! ## The whole way -/

/-- Settles O16: each step of a frame's way writes its own lane's entry and status; the queue fabric's operations leave the lanes' registers and
table, so that a hand-over frees the lane as it stood. -/
theorem lanesCarryAFrameToTheQueueFabric : Obligations.LanesCarryAFrameToTheQueueFabric := by
  refine fun s l x h hl hx => ⟨fun t128 b levels amps hst => ⟨fun hlate => ?_, fun ht => sfdFound_activates h hl hx hst ht b levels amps⟩,
    fun w hd hst hn hp hok => ⟨phyHeaderCheck_heads h hl hx hst hn hp hok, fun m v g z hm hml hz hstm hnm hg hgok =>
      phyHeaderCheck_pair_ends h hl hx hst hn hp hok hm hml hz hstm hnm hg hgok⟩,
    fun f octs hf hn => laneHeader_spec h hl hx hf hn,
    fun f d hf hn hr => receiveCell_spec h hl hx hf hn hr,
    fun f h0 p n pan bc att rest q hf hk hh ha hst hlen => frameEnd_spec h hl hx hf hk hh ha hst hlen,
    fun f hd p n pan bc att ok hf hh ha hk hst hc hr => descriptorCell_spec h hl hx hf hh ha hk hst hc hr⟩
  exact (ranged_lane hl _).trans (congrArg _ (sfdFound_late hx hlate b levels amps))

end Sys2Proof.Machine

/-! The correction table and the gain correction by temperature (R105, R107, R108). -/

namespace Sys2Proof.Machine

/-! ## Words of a wide record -/

/-- The number that the words f 0, f 1, … up to n - 1 make, lowest first. -/
def wordsNum (f : Nat → Nat) (n : Nat) : Nat := (List.range n).foldr (fun w acc => f w + 2 ^ 32 * acc) 0

theorem wordsNum_succ (f : Nat → Nat) (n : Nat) : wordsNum f (n + 1) = f 0 + 2 ^ 32 * wordsNum (fun w => f (w + 1)) n := by
  unfold wordsNum
  rw [List.range_succ_eq_map, List.foldr_cons, List.foldr_map]

theorem wordsNum_lt (n : Nat) : ∀ f : Nat → Nat, (∀ w, f w < 2 ^ 32) → wordsNum f n < 2 ^ (32 * n) := by
  induction n with
  | zero => exact fun _ _ => Nat.one_pos
  | succ n ih =>
    intro f hf
    have h0 := hf 0
    have hr := ih (fun w => f (w + 1)) fun w => hf (w + 1)
    rw [wordsNum_succ, show 32 * (n + 1) = 32 + 32 * n by omega, Nat.pow_add]
    nlinarith

/-- Each word of the number is where it was put. -/
theorem wordsNum_word (n : Nat) : ∀ (f : Nat → Nat) (w : Nat), (∀ w, f w < 2 ^ 32) → w < n → wordsNum f n / 2 ^ (32 * w) % 2 ^ 32 = f w := by
  induction n with
  | zero => exact fun _ _ _ h => absurd h (Nat.not_lt_zero _)
  | succ n ih =>
    intro f w hf hw
    rw [wordsNum_succ]
    cases w with
    | zero => rw [Nat.mul_zero, Nat.pow_zero, Nat.div_one, Nat.add_mul_mod_self_left, Nat.mod_eq_of_lt (hf 0)]
    | succ w =>
      rw [show 32 * (w + 1) = 32 + 32 * w by omega, Nat.pow_add, ← Nat.div_div_eq_div_mul, Nat.add_mul_div_left _ _ (by decide),
        Nat.div_eq_of_lt (hf 0), Nat.zero_add]
      exact ih (fun w => f (w + 1)) w (fun w => hf (w + 1)) (Nat.lt_of_succ_lt_succ hw)

/-- A number that fits is the record's. -/
theorem toNat_ofNat_fits {n m : Nat} (h : m < 2 ^ n) : (BitVec.ofNat n m).toNat = m := by
  rw [BitVec.toNat_ofNat, Nat.mod_eq_of_lt h]

/-- TXC_CORR_DATA0-31 stand in an entry word by word (R105). -/
theorem bf_corrData (s : State) {w : Nat} (hw : w < 32) : bf (corrData s) (32 * w) 32 = (s.reg (TXC_CORR_DATA.reg w)).toNat := by
  have hlt : ∀ w, (s.reg (TXC_CORR_DATA.reg w)).toNat < 2 ^ 32 := fun w => (s.reg (TXC_CORR_DATA.reg w)).isLt
  have hfit : wordsNum (fun w => (s.reg (TXC_CORR_DATA.reg w)).toNat) 32 < 2 ^ 1024 :=
    Nat.lt_of_lt_of_eq (wordsNum_lt 32 _ hlt) (congrArg (2 ^ ·) (by decide : 32 * 32 = 1024))
  have hnum : (corrData s).toNat = wordsNum (fun w => (s.reg (TXC_CORR_DATA.reg w)).toNat) 32 := toNat_ofNat_fits hfit
  unfold bf
  rw [hnum]
  exact wordsNum_word 32 _ w hlt hw

/-! ## The commands of the table -/

/-- A correction command that reaches its register has its effect. -/
theorem corr_reaches {s : State} {f : Fn} {n x : Nat} (hn : n < 8) (hx : x < 512) (hr : reaches s f TXC_CORR_CMD.reg) (t : State) :
    ranged (n < 8 && x < 512) (s.p0Only f TXC_CORR_CMD.reg t) = .next t := by
  have hin : (decide (n < 8) && decide (x < 512)) = true := by simp [hn, hx]
  rw [p0Only_reaches hr]
  exact if_pos hin

/-- TXC_CORR_CMD shows the operands of the command and nothing else changes. -/
theorem corrCmd_spec {s : State} {n x : Nat} (h : s.inv = true) (hn : n < 8) (hx : x < 512) :
    (corrCmd n x s).inv = true ∧ (corrCmd n x s).rd TXC_CORR_CMD.CHAIN = n ∧ (corrCmd n x s).rd TXC_CORR_CMD.INDEX = x ∧
      onlyRegs s (corrCmd n x s) [TXC_CORR_CMD.reg] := by
  have h1 := inv_wr h TXC_CORR_CMD.CHAIN n
  refine ⟨inv_wr h1 _ _, ?_, rd_wr_fits h1 (by decide) hx,
    onlyRegs_sub (onlyRegs_trans (wr_onlyRegs s TXC_CORR_CMD.CHAIN n h) (wr_onlyRegs _ TXC_CORR_CMD.INDEX x h1))
      (by simp [TXC_CORR_CMD.CHAIN, TXC_CORR_CMD.INDEX])⟩
  exact (rd_wr_apart h1 (by decide) (.inr (.inr (by decide)))).trans (rd_wr_fits h (by decide) hn)

theorem setCorr_regs (s : State) (k : Nat) (v : BitVec 1024) : (s.setCorr k v).regs = s.regs := rfl

theorem setCorr_rd (s : State) (k : Nat) (v : BitVec 1024) (f : RegFld) : (s.setCorr k v).rd f = s.rd f := by
  unfold State.rd State.reg
  rw [setCorr_regs]

/-- An entry that is replaced by a command touches no register but the command's and no other entry (R107). -/
theorem corrCmd_setCorr {s : State} {n x : Nat} (h : s.inv = true) (hn : n < 8) (hx : x < 512) (k : Nat) (v : BitVec 1024) :
    let t := (corrCmd n x s).setCorr k v
    t.txc = { s.txc with corr := sset (fun _ => (0 : BitVec 1024)) s.txc.corr k v } ∧ t.rd TXC_CORR_CMD.CHAIN = n ∧ t.rd TXC_CORR_CMD.INDEX = x ∧
      onlyRegs { s with txc := t.txc } t [TXC_CORR_CMD.reg] := by
  obtain ⟨-, hchain, hindex, hf, hr⟩ := corrCmd_spec h hn hx
  exact ⟨rfl, (setCorr_rd _ k v _).trans hchain, (setCorr_rd _ k v _).trans hindex, rfl, hr⟩

/-- VALID is cleared and no other bit of the entry (R107). -/
theorem clearValid_bits (v : BitVec 1024) : CE.VALID.of (CE.VALID.put v 0) = 0 ∧
    ∀ b, b < 1024 → b ≠ 31 → (CE.VALID.put v 0).getLsbD b = v.getLsbD b := by
  refine ⟨bf_bfSet_same v 31 1 0 (by decide), fun b _ hb => ?_⟩
  have hbit : (CE.VALID.put v 0).toNat.testBit b = (v.toNat.testBit b && !(decide (31 ≤ b) && decide (b < 32))) :=
    testBit_bfSet_zero v 31 1 b (by decide)
  have hout : (decide (31 ≤ b) && decide (b < 32)) = false := by
    rw [Bool.and_eq_false_iff, decide_eq_false_iff_not, decide_eq_false_iff_not]
    omega
  rw [BitVec.getLsbD, BitVec.getLsbD, hbit, hout, Bool.not_false, Bool.and_true]

/-- CORR_WRITE makes the data registers an entry (R107). -/
theorem corrWrite_spec {f : Fn} {s : State} {n x : Nat} (h : s.inv = true) (hn : n < 8) (hx : x < 512) (hr : reaches s f TXC_CORR_CMD.reg) :
    ∃ t v, exec (.corrWrite f n x) s = .next t ∧ (∀ w, w < 32 → bf v (32 * w) 32 = (s.reg (TXC_CORR_DATA.reg w)).toNat) ∧
      t.txc = { s.txc with corr := sset (fun _ => (0 : BitVec 1024)) s.txc.corr (512 * n + x) v } ∧
      t.rd TXC_CORR_CMD.CHAIN = n ∧ t.rd TXC_CORR_CMD.INDEX = x ∧ onlyRegs { s with txc := t.txc } t [TXC_CORR_CMD.reg] := by
  exact ⟨(corrCmd n x s).setCorr (512 * n + x) (corrData s), corrData s, corr_reaches hn hx hr _, fun w hw => bf_corrData s hw,
    corrCmd_setCorr h hn hx _ _⟩

/-- CLEAR_VALID clears an entry's VALID bit (R107). -/
theorem clearValid_spec {f : Fn} {s : State} {n x : Nat} (h : s.inv = true) (hn : n < 8) (hx : x < 512) (hr : reaches s f TXC_CORR_CMD.reg) :
    ∃ t v, exec (.clearValid f n x) s = .next t ∧ CE.VALID.of v = 0 ∧
      (∀ b, b < 1024 → b ≠ 31 → v.getLsbD b = (sget (fun _ => (0 : BitVec 1024)) s.txc.corr (512 * n + x)).getLsbD b) ∧
      t.txc = { s.txc with corr := sset (fun _ => (0 : BitVec 1024)) s.txc.corr (512 * n + x) v } ∧
      t.rd TXC_CORR_CMD.CHAIN = n ∧ t.rd TXC_CORR_CMD.INDEX = x ∧ onlyRegs { s with txc := t.txc } t [TXC_CORR_CMD.reg] := by
  obtain ⟨hclear, hbits⟩ := clearValid_bits (sget (fun _ => 0) s.txc.corr (512 * n + x))
  exact ⟨(corrCmd n x s).setCorr (512 * n + x) (CE.VALID.put (sget (fun _ => 0) s.txc.corr (512 * n + x)) 0), _, corr_reaches hn hx hr _, hclear,
    hbits, corrCmd_setCorr h hn hx _ _⟩

/-! ## Registers filled one after another -/

/-- Registers at distinct offsets hold what was written to each, and nothing else changes. -/
theorem foldl_setReg_spec (g : Nat → Nat) (v : Nat → Word) : ∀ (ws : List Nat) (s : State), s.inv = true → (ws.map g).Nodup →
    (∀ w ∈ ws, (ws.foldl (fun u w => u.setReg (g w) (v w)) s).reg (g w) = v w) ∧
      onlyRegs s (ws.foldl (fun u w => u.setReg (g w) (v w)) s) (ws.map g)
  | [], s, _, _ => ⟨fun _ hw => absurd hw List.not_mem_nil, onlyRegs_refl s _⟩
  | w :: ws, s, h, hn => by
    rw [List.map_cons, List.nodup_cons] at hn
    obtain ⟨hset, hf, ho⟩ := foldl_setReg_spec g v ws (s.setReg (g w) (v w)) (inv_setReg h _ _) hn.2
    refine ⟨fun k hk => ?_, hf, fun a ha => ?_⟩
    · rcases List.mem_cons.mp hk with rfl | hk
      · exact (ho _ hn.1).trans (reg_setReg_same s _ _ (inv_regs h))
      · exact hset k hk
    · rw [List.map_cons, List.mem_cons, not_or] at ha
      exact (ho a ha.2).trans (reg_setReg_other s _ a _ ha.1 (inv_regs h))

theorem nodup_corrData : ((List.range 32).map TXC_CORR_DATA.reg).Nodup := by decide

/-- CORR_READ brings an entry's words into TXC_CORR_DATA (R107). -/
theorem corrRead_spec {f : Fn} {s : State} {n x : Nat} (h : s.inv = true) (hn : n < 8) (hx : x < 512) (hr : reaches s f TXC_CORR_CMD.reg) :
    ∃ t, exec (.corrRead f n x) s = .next t ∧
      (∀ w, w < 32 → (t.reg (TXC_CORR_DATA.reg w)).toNat = bf (sget (fun _ => (0 : BitVec 1024)) s.txc.corr (512 * n + x)) (32 * w) 32) ∧
      t.rd TXC_CORR_CMD.CHAIN = n ∧ t.rd TXC_CORR_CMD.INDEX = x ∧
      onlyRegs s t (TXC_CORR_CMD.reg :: (List.range 32).map TXC_CORR_DATA.reg) := by
  obtain ⟨hinv, hchain, hindex, honly⟩ := corrCmd_spec h hn hx
  obtain ⟨hset, hdata⟩ := foldl_setReg_spec TXC_CORR_DATA.reg
    (fun w => BitVec.ofNat 32 (bf (sget (fun _ => (0 : BitVec 1024)) s.txc.corr (512 * n + x)) (32 * w) 32)) (List.range 32) _ hinv nodup_corrData
  refine ⟨_, corr_reaches hn hx hr _, fun w hw => ?_, (onlyRegs_rd hdata (by decide)).trans hchain, (onlyRegs_rd hdata (by decide)).trans hindex,
    onlyRegs_trans honly hdata⟩
  rw [hset w (List.mem_range.mpr hw), BitVec.toNat_ofNat]
  exact Nat.mod_eq_of_lt (bf_lt _ _ _)

/-! ## The derivation of the gain correction -/

/-- A table filled in order reads what was written. -/
theorem sget_foldl_sset {α : Type} [DecidableEq α] (d v : Nat → α) : ∀ (ks : List Nat) (m : Sparse α), swf d m = true → ks.Nodup →
    (∀ k ∈ ks, sget d (ks.foldl (fun m k => sset d m k (v k)) m) k = v k) ∧
      ∀ k, k ∉ ks → sget d (ks.foldl (fun m k => sset d m k (v k)) m) k = sget d m k
  | [], _, _, _ => ⟨fun _ hk => absurd hk List.not_mem_nil, fun _ _ => rfl⟩
  | j :: ks, m, h, hn => by
    rw [List.nodup_cons] at hn
    obtain ⟨hset, hkeep⟩ := sget_foldl_sset d v ks (sset d m j (v j)) (sset_swf d m j _ h) hn.2
    refine ⟨fun k hk => ?_, fun k hk => ?_⟩
    · rcases List.mem_cons.mp hk with rfl | hk
      · exact (hkeep k hn.1).trans (sget_sset_same d m k _ h)
      · exact hset k hk
    · rw [List.mem_cons, not_or] at hk
      exact (hkeep k hk.2).trans (sget_sset_other d m j k _ hk.1 h)

/-- The value of the gain curve of index k of the correction table at the die temperature, zero without a curve (R108). -/
def gainAt (s : State) (k : Nat) : Int :=
  match s.curve 3 (k / 2 + 8 * (k % 2)) with
  | some c => curveAt c.pts (sgn 16 (s.rd PWR_TEMP_STS.TEMP))
  | none => 0

/-- Time leaves curves and die temperature. -/
theorem gainAt_at {s : State} (h : s.inv = true) (t k : Nat) : gainAt (s.at_ t) k = gainAt s k := by
  unfold gainAt State.curve
  rw [at_curves, rd_of_reg (s := s) (f := PWR_TEMP_STS.TEMP) (at_reg t _ s h (.inl (by decide)))]

/-- The derived gains stand in the table one after another. -/
def derivedGains (s : State) : Sparse Int := (List.range 16).foldl (fun m k => sset (fun _ => 0) m k (gainAt s k)) []

theorem derivedGains_at (s : State) {k : Nat} (hk : k < 16) : sget (fun _ => (0 : Int)) (derivedGains s) k = gainAt s k :=
  (sget_foldl_sset (fun _ => (0 : Int)) (gainAt s) (List.range 16) [] rfl List.nodup_range).1 k (List.mem_range.mpr hk)

theorem tempGain_eq (s : State) : tempGain s =
    let u := s.at_ (s.atb + (3200000 - s.atb % 3200000))
    { u with txc := { u.txc with tdie := some (sgn 16 (u.rd PWR_TEMP_STS.TEMP)), tgain := derivedGains u } } := rfl

/-- An instant ahead is reached where the ATB counts. -/
theorem at_atb_ahead {s : State} {t : Nat} (hr : s.atbRuns = true) (ht : s.atb ≤ t) : (s.at_ t).atb = t := by
  unfold State.at_
  rw [if_pos hr, elapse_atb, if_pos hr]
  omega

theorem tempGainDerive_spec {s : State} (h : s.inv = true) :
    let u := s.at_ (s.atb + (3200000 - s.atb % 3200000))
    ∃ t, exec .tempGainDerive s = .next t ∧
      t = { u with txc := { s.txc with tgain := t.txc.tgain, tdie := some (sgn 16 (s.rd PWR_TEMP_STS.TEMP)) } } ∧
      (s.atbRuns = true → t.atb % 3200000 = 0) ∧
      ∀ c b, c < 8 → b < 2 → sget (fun _ => (0 : Int)) t.txc.tgain (2 * c + b) =
        match s.curve 3 (c + 8 * b) with
        | some k => curveAt k.pts (sgn 16 (s.rd PWR_TEMP_STS.TEMP))
        | none => 0 := by
  intro u
  have hdie : u.rd PWR_TEMP_STS.TEMP = s.rd PWR_TEMP_STS.TEMP := rd_of_reg (at_reg _ PWR_TEMP_STS.TEMP.addr s h (.inl (by decide)))
  have htxc : u.txc = s.txc := at_txc s _
  refine ⟨tempGain s, rfl, ?_, fun hr => ?_, fun c b hc hb => ?_⟩
  · rw [tempGain_eq, ← hdie, ← htxc]
  · exact (congrArg (· % 3200000) (at_atb_ahead hr (Nat.le_add_right _ _))).trans (by omega)
  · rw [tempGain_eq]
    dsimp only
    rw [derivedGains_at _ (by omega), gainAt_at h]
    unfold gainAt
    rw [show (2 * c + b) / 2 + 8 * ((2 * c + b) % 2) = c + 8 * b by omega]

/-- Settles O31: each command writes its operands and one entry or the data registers; the derivation fills a table from the curves. -/
theorem correctionEntriesAreWrittenWhole : Obligations.CorrectionEntriesAreWrittenWhole := by
  exact fun f s n x h hn hx =>
    ⟨fun hr => ⟨corrWrite_spec h hn hx hr, corrRead_spec h hn hx hr, clearValid_spec h hn hx hr⟩, tempGainDerive_spec h⟩

end Sys2Proof.Machine

/-! A returned cipher result: a staging entry may hold any number as its rate (R112, R113, R250). -/

namespace Sys2Proof.Machine

/-- The rate number whose transmit settings would stand in SEC_CNT_ENCRYPT. -/
def strayRate : Nat := 0xC0008

/-- A secured frame of one octet that waits for its cipher result, with cell 0 for its coded stream. -/
def strayEnt : Ent := { st := 2, job := true, rate := strayRate, psdu := [0#8], cells := [0] }

/-- Entry 0 waits for its result, and 0x1FFFF jobs have been counted. -/
def strayPreparing : State :=
  { State.reset.wr SEC_CNT_ENCRYPT.COUNT 0x1FFFF with txc := { State.reset.txc with ents := [(0, strayEnt)] } }

theorem strayPreparing_waits :
    strayPreparing.inv = true ∧ (strayPreparing.ent 0).st = 2 ∧ (strayPreparing.ent 0).job = true ∧ (strayPreparing.ent 0).dead = false := by
  decide +kernel

/-- The count of the job sets WHITEN of the entry's rate before its stream is coded. -/
theorem strayPreparing_stream :
    (encryptResult 0 strayPreparing).cell 0 ≠
      (putStream (strayPreparing.ent 0).cells (entStream strayPreparing (strayPreparing.ent 0)) strayPreparing).cell 0 := by
  decide +kernel

/-- Refutes O27: the invariant does not bound an entry's rate, and the clause on a returned result has the coded stream made under
the settings that stood before the job was counted. In `strayPreparing` the count, going from 0x1FFFF to 0x20000, is the register of the
entry's own settings: the stream in its cell is whitened. -/
theorem not_stagingTakesPreparesAndPrimesFrames : ¬ Obligations.StagingTakesPreparesAndPrimesFrames := by
  intro h
  obtain ⟨hinv, hst, hjob, hlive⟩ := strayPreparing_waits
  obtain ⟨-, -, -, -, -, hresult, -⟩ := h.2 strayPreparing hinv
  obtain ⟨t, ht, -, -, hready, -⟩ := hresult 0 (by decide) hst hjob
  obtain rfl : encryptResult 0 strayPreparing = t := Host.Outcome.next.inj ht
  obtain ⟨-, hsame, -⟩ := hready hlive
  exact strayPreparing_stream (congrArg (fun u => u.cell 0) hsame)

end Sys2Proof.Machine

/-! The return and the end of items (R122, R125, R187-R196, R228): they read nothing but the queue fabric, and leave the transmit chains. -/

namespace Sys2Proof.Machine

/-! ## What is read from the fabric -/

section
variable {s t : State} (h : s.que = t.que)
include h

theorem cell_of_que (k : Nat) : s.cell k = t.cell k := by unfold State.cell; rw [h]

theorem node_of_que (n : Nat) : s.node n = t.node n := by unfold State.node; rw [h]

theorem ih_of_que (hc : Nat) (f : Fld) : s.ih hc f = t.ih hc f := by unfold State.ih; rw [cell_of_que h]

theorem nc_of_que (n : Nat) (f : Fld) : s.nc n f = t.nc n f := by unfold State.nc; rw [node_of_que h]

theorem chainCells_of_que : ∀ n k, chainCells s n k = chainCells t n k
  | 0, _ => rfl
  | n + 1, k => by simp only [chainCells, cell_of_que h, chainCells_of_que n]

theorem itemCells_of_que (hc : Nat) : itemCells s hc = itemCells t hc := by
  unfold itemCells
  rw [ih_of_que h, chainCells_of_que h]

theorem itemsFrom_of_que : ∀ n k, itemsFrom s n k = itemsFrom t n k
  | 0, _ => rfl
  | n + 1, k => by simp only [itemsFrom, ih_of_que h, itemsFrom_of_que n]

theorem queueItems_of_que (n : Nat) : queueItems s n = queueItems t n := by
  unfold queueItems
  rw [nc_of_que h, itemsFrom_of_que h]

theorem insertFront_of_que (k hc : Nat) : ∀ is, insertFront s k hc is = insertFront t k hc is
  | [] => rfl
  | i :: is => by simp only [insertFront, ih_of_que h, insertFront_of_que k hc is]

theorem lastOfLevel_of_que (is : List Nat) (k : Nat) : lastOfLevel s is k = lastOfLevel t is k := by
  unfold lastOfLevel
  simp only [ih_of_que h]

theorem linkPoint_of_que (n k : Nat) (own : Bool) : linkPoint s n k own = linkPoint t n k own := by
  unfold linkPoint
  simp only [queueItems_of_que h, ih_of_que h]

/-! ## What becomes of the fabric -/

theorem que_setCell (k : Nat) (c : FCell) : (s.setCell k c).que = (t.setCell k c).que := by
  unfold State.setCell
  rw [h]

theorem que_setNode (n : Nat) (x : Node) : (s.setNode n x).que = (t.setNode n x).que := by
  unfold State.setNode
  rw [h]

theorem que_ncPut (n : Nat) (f : Fld) (v : Nat) : (s.ncPut n f v).que = (t.ncPut n f v).que := by
  unfold State.ncPut
  rw [node_of_que h]
  exact que_setNode h _ _

theorem que_ihPut (hc : Nat) (f : Fld) (v : Nat) : (s.ihPut hc f v).que = (t.ihPut hc f v).que := by
  unfold State.ihPut
  rw [cell_of_que h]
  exact que_setCell h _ _

theorem que_useLess (a n : Nat) : (useLess a n s).que = (useLess a n t).que := by
  unfold useLess
  split
  · exact h
  · exact congrArg (fun q : Que => { q with unattr := q.unattr - n }) h

theorem que_freeCell (k : Nat) : (freeCell s k).que = (freeCell t k).que := by
  unfold freeCell
  rw [cell_of_que h]
  split
  · exact h
  · refine que_useLess ?_ _ _
    rw [setFree_que, setFree_que]
    exact que_setCell h _ _

end

/-- Folds of steps that agree on the fabric agree on it. -/
theorem que_foldl {α : Type} {f g : State → α → State} (hf : ∀ (u v : State) (x : α), u.que = v.que → (f u x).que = (g v x).que) :
    ∀ (l : List α) {u v : State}, u.que = v.que → (l.foldl f u).que = (l.foldl g v).que
  | [], _, _, h => h
  | x :: l, u, v, h => que_foldl hf l (hf u v x h)

theorem que_linkNext : ∀ (ks : List Nat) {s t : State}, s.que = t.que → (linkNext ks s).que = (linkNext ks t).que
  | [], _, _, h => h
  | _ :: ks, _, _, h => que_linkNext ks (que_ihPut h _ _ _)

theorem complete_que (s : State) (x status detail attempts value result : Nat) : (s.complete x status detail attempts value result).que = s.que := by
  have ready : ∀ (u : State) (p : Nat × Ctx) (a b c d e : Nat), (readyCtx p.1 p.2 a b c d e u).que = u.que := fun u p a b c d e => by
    unfold readyCtx
    split <;> rfl
  unfold State.complete
  split
  · rfl
  · next c _ =>
    split
    · rfl
    · exact (foldl_same State.que _ _ _ fun u p => ready u p 8 status 0 0 0).trans (ready s (x, c) status detail attempts value result)

theorem finalNotice_que (e hc : Nat) (n : Notice) (s : State) : (finalNotice e hc n s).que = s.que := by
  unfold finalNotice
  split
  · rfl
  · split <;> rfl

theorem tellOrigin_que (h hc status : Nat) (s : State) : (tellOrigin h hc status s).que = s.que := by
  unfold tellOrigin
  split
  · dsimp only
    split
    · split
      · exact complete_que _ _ _ _ _ _ _
      · rfl
    · rfl
  · exact finalNotice_que _ _ _ _

/-- An item's attempts are forgotten. -/
def forgotten (hc : Nat) (s : State) : State := { s with que := { s.que with airs := sdel s.que.airs hc, tries := sdel s.que.tries hc } }

theorem endItem_eq (h hc status : Nat) (s : State) :
    endItem h hc status s =
      let u := forgotten hc (tellOrigin h hc status s)
      freeCells (itemCells s hc) (u.ncPut h NC.QLEN (u.nc h NC.QLEN - 1)) := rfl

/-- The items of a queue that are read before a header. -/
def itemsBefore (s : State) (h bad : Nat) : List Nat :=
  if (queueItems s h).contains bad then (queueItems s h).takeWhile (fun i => i != bad) else []

/-- A context is in SWEEP from a bad header on, and joins the sweep's list. -/
def sweepDue (h bad : Nat) (s : State) : State :=
  let u := (s.setNode h { s.node h with life := 3 }).ncPut h NC.HEAD bad
  { u with que := { u.que with sweeps := u.que.sweeps ++ [h] } }

theorem startSweep_eq (h bad : Nat) (s : State) :
    startSweep h bad s = (itemsBefore s h bad).foldl (fun u i => endItem h i 0x10 u) ((sweepDue h bad s).wr QUE_STS.SWEEP 1) := rfl

theorem setQueue_eq (h : Nat) (items : List Nat) (s : State) :
    setQueue h items s =
      let u := (linkNext items s).ncPut h NC.HEAD (items.headD noCell)
      [0, 1, 2, 3].foldl (fun v k => v.ncPut h (NC.TAIL k) (lastOfLevel s items k)) u := rfl

theorem cellParity_que (k : Nat) (s : State) : (cellParity k s).que = s.que := by
  unfold cellParity
  rw [raise_que, inc_que, wr_que, wr_que, wr_que]

theorem readHeaders_good {s : State} {ks : List Nat} (hf : ks.find? (fun k => badCell (s.cell k)) = none) (h : Nat) :
    (readHeaders h ks s).1 = s := by
  unfold readHeaders
  rw [hf]

/-- A bad header of a queue that is not ACTIVE starts no sweep. -/
theorem readHeaders_idle {s : State} {ks : List Nat} {h k : Nat} (hf : ks.find? (fun k => badCell (s.cell k)) = some k)
    (hl : (s.node h).life ≠ 1) : (readHeaders h ks s).1 = s := by
  unfold readHeaders
  rw [hf]
  exact if_neg hl

theorem readHeaders_bad {s : State} {ks : List Nat} {h k : Nat} (hf : ks.find? (fun k => badCell (s.cell k)) = some k)
    (hl : (s.node h).life = 1) : (readHeaders h ks s).1 = startSweep h k (cellParity k s) := by
  unfold readHeaders
  rw [hf]
  exact if_pos hl

section
variable {s t : State} (h : s.que = t.que)
include h

theorem que_freeCells (ks : List Nat) : (freeCells ks s).que = (freeCells ks t).que := que_foldl (fun _ _ k e => que_freeCell e k) ks h

theorem que_forgotten (hc : Nat) : (forgotten hc s).que = (forgotten hc t).que :=
  congrArg (fun q : Que => { q with airs := sdel q.airs hc, tries := sdel q.tries hc }) h

theorem que_endItem (n hc status : Nat) : (endItem n hc status s).que = (endItem n hc status t).que := by
  have hq : (forgotten hc (tellOrigin n hc status s)).que = (forgotten hc (tellOrigin n hc status t)).que :=
    que_forgotten (by rw [tellOrigin_que, tellOrigin_que, h]) hc
  rw [endItem_eq, endItem_eq]
  dsimp only
  rw [itemCells_of_que h, nc_of_que hq]
  exact que_freeCells (que_ncPut hq _ _ _) _

theorem que_sweepDue (n bad : Nat) : (sweepDue n bad s).que = (sweepDue n bad t).que := by
  unfold sweepDue
  rw [node_of_que h]
  dsimp only
  rw [que_ncPut (que_setNode h n _) n NC.HEAD bad]

theorem que_startSweep (n bad : Nat) : (startSweep n bad s).que = (startSweep n bad t).que := by
  have hb : itemsBefore s n bad = itemsBefore t n bad := by
    unfold itemsBefore
    rw [queueItems_of_que h]
  rw [startSweep_eq, startSweep_eq, hb]
  refine que_foldl (fun _ _ i e => que_endItem e n i 0x10) _ ?_
  rw [wr_que, wr_que]
  exact que_sweepDue h n bad

theorem que_readHeaders (n : Nat) (ks : List Nat) : (readHeaders n ks s).1.que = (readHeaders n ks t).1.que := by
  have hbad : ks.find? (fun k => badCell (s.cell k)) = ks.find? (fun k => badCell (t.cell k)) := by simp only [cell_of_que h]
  cases hf : ks.find? (fun k => badCell (t.cell k)) with
  | none => rw [readHeaders_good hf, readHeaders_good (hbad.trans hf), h]
  | some k =>
    by_cases hl : (t.node n).life = 1
    · rw [readHeaders_bad hf hl, readHeaders_bad (hbad.trans hf) ((node_of_que h n).symm ▸ hl)]
      refine que_startSweep ?_ n k
      rw [cellParity_que, cellParity_que, h]
    · rw [readHeaders_idle hf hl, readHeaders_idle (hbad.trans hf) ((node_of_que h n).symm ▸ hl), h]

theorem que_setQueue (n : Nat) (items : List Nat) : (setQueue n items s).que = (setQueue n items t).que := by
  rw [setQueue_eq, setQueue_eq]
  refine que_foldl (f := fun v k => v.ncPut n (NC.TAIL k) (lastOfLevel s items k)) (g := fun v k => v.ncPut n (NC.TAIL k) (lastOfLevel t items k))
    (fun u v k e => ?_) [0, 1, 2, 3] (que_ncPut (que_linkNext items h) n NC.HEAD _)
  rw [lastOfLevel_of_que h]
  exact que_ncPut e n _ _

theorem que_returnItem (n hc : Nat) : (returnItem n hc s).que = (returnItem n hc t).que := by
  unfold returnItem
  rw [ih_of_que h, queueItems_of_que h, insertFront_of_que h]
  exact que_setQueue h _ _

/-- A frame that goes back to its queue reads nothing but the fabric (R122). -/
theorem que_backToQueue (x : Ent) : (backToQueue x s).que = (backToQueue x t).que := by
  unfold backToQueue
  split
  · split
    · rw [ih_of_que h, linkPoint_of_que h]
      exact que_returnItem (que_readHeaders h _ _) _ _
    · exact h
  · exact h

end

/-! ## What the return and the end of an item can change -/

/-- The queue fabric, host commands, engines' notices, registers from the queue fabric's block on, and what raised events bring. -/
structure ItemStep (s t : State) : Prop where
  inv : t.inv = true
  frame : t = { s with regs := t.regs, vregs := t.vregs, posted := t.posted, evr := t.evr, free := t.free, que := t.que, hst := t.hst, eng := t.eng }
  reg : ∀ a, a < 0x500000 → t.reg a = s.reg a

theorem ItemStep.refl {s : State} (h : s.inv = true) : ItemStep s s := ⟨h, rfl, fun _ _ => rfl⟩

theorem ItemStep.trans {s t u : State} (a : ItemStep s t) (b : ItemStep t u) : ItemStep s u where
  inv := b.inv
  frame := by rw [b.frame, a.frame]
  reg x hx := (b.reg x hx).trans (a.reg x hx)

theorem QueStep.item {s t : State} (a : QueStep s t) : ItemStep s t where
  inv := a.inv
  frame := by rw [a.frame]
  reg x hx := a.reg x (noPba_of_lt (hx.trans (by decide))) (.inl hx)

theorem ItemStep.txc {s t : State} (a : ItemStep s t) : t.txc = s.txc := by rw [a.frame]
theorem ItemStep.lnk {s t : State} (a : ItemStep s t) : t.lnk = s.lnk := by rw [a.frame]
theorem ItemStep.pwr {s t : State} (a : ItemStep s t) : t.pwr = s.pwr := by rw [a.frame]

theorem ItemStep.rd {s t : State} (a : ItemStep s t) {f : RegFld} (hf : f.addr < 0x500000) : t.rd f = s.rd f := rd_of_reg (a.reg _ hf)

theorem ItemStep.foldl {α : Type} {f : State → α → State} (hf : ∀ u x, u.inv = true → ItemStep u (f u x)) :
    ∀ (l : List α) {s : State}, s.inv = true → ItemStep s (l.foldl f s)
  | [], _, h => .refl h
  | x :: l, s, h => (hf s x h).trans (ItemStep.foldl hf l (hf s x h).inv)

theorem itemStep_hst {s : State} (h : s.inv = true) (x : Hst) : ItemStep s { s with hst := x } := ⟨h, rfl, fun _ _ => rfl⟩

theorem readyCtx_frame (x : Nat) (c : Ctx) (status detail attempts value result : Nat) (s : State) :
    readyCtx x c status detail attempts value result s = { s with hst := (readyCtx x c status detail attempts value result s).hst } := by
  unfold readyCtx
  split <;> rfl

theorem complete_frame (s : State) (x status detail attempts value result : Nat) :
    s.complete x status detail attempts value result = { s with hst := (s.complete x status detail attempts value result).hst } := by
  have fold : ∀ (l : Sparse Ctx) (u : State), ∃ y, l.foldl (fun u p => readyCtx p.1 p.2 8 status 0 0 0 u) u = { u with hst := y } := by
    intro l
    induction l with
    | nil => exact fun u => ⟨u.hst, rfl⟩
    | cons p l ih =>
      intro u
      obtain ⟨y, hy⟩ := ih (readyCtx p.1 p.2 8 status 0 0 0 u)
      refine ⟨y, ?_⟩
      rw [List.foldl_cons, hy, readyCtx_frame]
  unfold State.complete
  split
  · rfl
  · next c _ =>
    split
    · rfl
    · obtain ⟨y, hy⟩ := fold (fetchOrder (s.hst.ctxs.filter (fun p => p.2.dupOf == some x && p.2.stage != 2)))
        (readyCtx x c status detail attempts value result s)
      rw [hy, readyCtx_frame]

theorem ENG_NTF_DISC_high (i j : Nat) : 0x500000 ≤ ENG_NTF_DISC.reg i j := by
  unfold ENG_NTF_DISC.reg
  omega

theorem itemStep_finalNotice {s : State} (h : s.inv = true) (e hc : Nat) (n : Notice) : ItemStep s (finalNotice e hc n s) := by
  refine ⟨kept_inv (kept_finalNotice e hc n s (kept_refl h)), ?_, fun a ha => ?_⟩
  · unfold finalNotice
    split
    · rfl
    · split <;> rfl
  · have hne : a ≠ (ENG_NTF_DISC.COUNT (e / 8) (e % 8)).addr := Nat.ne_of_lt (Nat.lt_of_lt_of_le ha (ENG_NTF_DISC_high _ _))
    unfold finalNotice
    split
    · rfl
    · split
      · exact reg_wr_other { s with eng := _ } _ _ a hne h
      · rfl

theorem itemStep_tellOrigin {s : State} (hi : s.inv = true) (h hc status : Nat) : ItemStep s (tellOrigin h hc status s) := by
  unfold tellOrigin
  split
  · dsimp only
    split
    · split
      · rw [complete_frame]
        exact itemStep_hst hi _
      · exact .refl hi
    · exact .refl hi
  · exact itemStep_finalNotice hi _ _ _

theorem itemStep_forgetOrigin {s : State} (hi : s.inv = true) (hc : Nat) : ItemStep s (forgetOrigin hc s) := by
  have drop : ∀ b : Bool, ItemStep s (if b then s.dropCtx (s.ih hc IH.CTX) else s)
    | true => itemStep_hst hi _
    | false => .refl hi
  exact drop _

theorem queStep_setNode {s : State} (h : s.inv = true) (n : Nat) (x : Node) : QueStep s (s.setNode n x) := queStep_que h _

theorem queStep_ncPut {s : State} (h : s.inv = true) (n : Nat) (f : Fld) (v : Nat) : QueStep s (s.ncPut n f v) := queStep_setNode h n _

theorem queStep_forgotten {s : State} (h : s.inv = true) (hc : Nat) : QueStep s (forgotten hc s) := queStep_que h _

/-- An item that has been told to its origin leaves its cells and its context. -/
theorem itemStep_leaves {s u : State} (a : ItemStep s u) (h hc : Nat) (ks : List Nat) (v : Nat) :
    ItemStep s (freeCells ks ((forgotten hc u).ncPut h NC.QLEN v)) :=
  have b := a.trans (queStep_forgotten a.inv hc).item
  have c := b.trans (queStep_ncPut b.inv h NC.QLEN v).item
  c.trans (queStep_freeCells c.inv ks).item

theorem itemStep_endItem {s : State} (hi : s.inv = true) (h hc status : Nat) : ItemStep s (endItem h hc status s) :=
  itemStep_leaves (itemStep_tellOrigin hi h hc status) h hc _ _

theorem itemStep_dropItem {s : State} (hi : s.inv = true) (h hc : Nat) : ItemStep s (dropItem h hc s) :=
  itemStep_leaves (itemStep_forgetOrigin hi hc) h hc _ _

theorem queStep_cellParity {s : State} (h : s.inv = true) (k : Nat) : QueStep s (cellParity k s) := by
  have a := queStep_wr h (f := QUE_PAR_LOG.INDEX) (by decide) (by decide) k
  have b := a.trans (queStep_wr a.inv (f := QUE_PAR_LOG.KIND) (by decide) (by decide) 0)
  have c := b.trans (queStep_wr b.inv (f := QUE_PAR_LOG.VALID) (by decide) (by decide) 1)
  have d := c.trans (queStep_inc c.inv (f := QUE_CNT_CELL_PAR.COUNT) (by decide) (by decide))
  exact d.trans (queStep_raise d.inv 1)

theorem queStep_sweepDue {s : State} (hi : s.inv = true) (h bad : Nat) : QueStep s (sweepDue h bad s) := by
  have a := queStep_setNode hi h { s.node h with life := 3 }
  have b := a.trans (queStep_ncPut a.inv h NC.HEAD bad)
  exact b.trans (queStep_que b.inv _)

theorem itemStep_startSweep {s : State} (hi : s.inv = true) (h bad : Nat) : ItemStep s (startSweep h bad s) := by
  have a := queStep_sweepDue hi h bad
  have b := a.trans (queStep_wr a.inv (f := QUE_STS.SWEEP) (by decide) (by decide) 1)
  rw [startSweep_eq]
  exact b.item.trans (ItemStep.foldl (fun u i hu => itemStep_endItem hu h i 0x10) _ b.inv)

theorem itemStep_readHeaders {s : State} (hi : s.inv = true) (h : Nat) (ks : List Nat) : ItemStep s (readHeaders h ks s).1 := by
  cases hf : ks.find? (fun k => badCell (s.cell k)) with
  | none =>
    rw [readHeaders_good hf h]
    exact .refl hi
  | some k =>
    by_cases hl : (s.node h).life = 1
    · have a := queStep_cellParity hi k
      rw [readHeaders_bad hf hl]
      exact a.item.trans (itemStep_startSweep a.inv h k)
    · rw [readHeaders_idle hf hl]
      exact .refl hi

theorem queStep_linkNext : ∀ (ks : List Nat) {s : State}, s.inv = true → QueStep s (linkNext ks s)
  | [], _, h => .refl h
  | _ :: ks, _, h => (queStep_setCell h _ _).trans (queStep_linkNext ks h)

theorem queStep_setQueue {s : State} (hi : s.inv = true) (h : Nat) (items : List Nat) : QueStep s (setQueue h items s) := by
  have a := queStep_linkNext items hi
  have b := a.trans (queStep_ncPut a.inv h NC.HEAD (items.headD noCell))
  rw [setQueue_eq]
  exact b.trans (QueStep.foldl (fun u k hu => queStep_ncPut hu h _ _) _ b.inv)

/-- A frame that goes back to its queue leaves the transmit chains (R122, R125). -/
theorem itemStep_backToQueue {s : State} (hi : s.inv = true) (x : Ent) : ItemStep s (backToQueue x s) := by
  unfold backToQueue
  split
  · split
    · next h hc _ _ =>
      have a := itemStep_readHeaders hi h (linkPoint s h (s.ih hc IH.PRIO) false)
      exact a.trans (queStep_setQueue a.inv _ _).item
    · exact .refl hi
  · exact .refl hi

end Sys2Proof.Machine

/-! Leaving staging and the missed window of a data frame (R122, R125, R126, R132). -/

namespace Sys2Proof.Machine

/-! ## Staging entries -/

@[simp] theorem setEnt_que (s : State) (e : Nat) (x : Ent) : (s.setEnt e x).que = s.que := rfl
@[simp] theorem setEnt_carriers (s : State) (e : Nat) (x : Ent) : (s.setEnt e x).txc.carriers = s.txc.carriers := rfl
@[simp] theorem setEnt_coex (s : State) (e : Nat) (x : Ent) : (s.setEnt e x).txc.coex = s.txc.coex := rfl
@[simp] theorem setEnt_ents (s : State) (e : Nat) (x : Ent) : (s.setEnt e x).txc.ents = sset (fun _ => {}) s.txc.ents e x := rfl

/-- An entry that is replaced by something reads as what replaced it. -/
theorem ent_setEnt_same (s : State) (e : Nat) {x : Ent} (hx : x ≠ {}) : (s.setEnt e x).ent e = x := by
  show sget (fun _ => ({} : Ent)) (sset (fun _ => {}) s.txc.ents e x) e = x
  unfold sset
  rw [if_neg hx]
  exact sget_sput_same _ e x _

/-- Every other entry reads as before. -/
theorem ent_setEnt_ne (s : State) {e d : Nat} {x : Ent} (hx : x ≠ {}) (hd : d ≠ e) : (s.setEnt e x).ent d = s.ent d := by
  show sget (fun _ => ({} : Ent)) (sset (fun _ => {}) s.txc.ents e x) d = s.ent d
  unfold sset
  rw [if_neg hx]
  exact sget_sput_ne _ x hd _

/-- An entry whose STATE is not FREE is listed. -/
theorem ent_ne_of_st {x : Ent} (h : x.st ≠ 0) : x ≠ {} := fun e => h (congrArg Ent.st e)

theorem setEnt_free (s : State) (e : Nat) : (s.setEnt e {}).txc.ents = sdel s.txc.ents e := by
  rw [setEnt_ents]
  unfold sset
  rw [if_pos rfl]

theorem ent_of_txc {s t : State} (h : s.txc = t.txc) (e : Nat) : s.ent e = t.ent e := by unfold State.ent; rw [h]

@[simp] theorem at_ent (s : State) (t e : Nat) : (s.at_ t).ent e = s.ent e := ent_of_txc (at_txc s t) e

/-! ## Coexistence requests -/

/-- The registers of the coexistence pairs. -/
def coexReg (a : Nat) : Prop := 0x303000 ≤ a ∧ a < 0x304000

/-- What the request wires can change: their own registers. -/
structure PairStep (s t : State) : Prop where
  inv : t.inv = true
  frame : t = { s with regs := t.regs }
  reg : ∀ a, ¬coexReg a → t.reg a = s.reg a

theorem PairStep.refl {s : State} (h : s.inv = true) : PairStep s s := ⟨h, rfl, fun _ _ => rfl⟩

theorem PairStep.trans {s t u : State} (a : PairStep s t) (b : PairStep t u) : PairStep s u where
  inv := b.inv
  frame := by rw [b.frame, a.frame]
  reg x hx := (b.reg x hx).trans (a.reg x hx)

theorem pairStep_wr {s : State} (h : s.inv = true) {f : RegFld} (hf : coexReg f.addr) (v : Nat) : PairStep s (s.wr f v) :=
  ⟨inv_wr h f v, rfl, fun _ ha => reg_wr_other s f v _ (fun e => ha (e ▸ hf)) h⟩

/-- COEX_REQ of one pair follows its intervals, and an assertion is counted (R131, R132). -/
def reqFollows (u : State) (k : Nat) : State :=
  let want := u.on (TXC_COEX_CFG.MODE k) && u.txc.coex.any (fun r => r.pair == k)
  if want == u.on (TXC_COEX_STS.REQ k) then u
  else if want then (u.wr (TXC_COEX_STS.REQ k) 1).inc (TXC_COEX_REQS.COUNT k) else u.wr (TXC_COEX_STS.REQ k) 0

theorem coexReg_REQ {k : Nat} (hk : k < 4) : coexReg (TXC_COEX_STS.REQ k).addr := by
  unfold coexReg
  dsimp only [TXC_COEX_STS.REQ, TXC_COEX_STS.reg]
  omega

theorem coexReg_REQS {k : Nat} (hk : k < 4) : coexReg (TXC_COEX_REQS.COUNT k).addr := by
  unfold coexReg
  dsimp only [TXC_COEX_REQS.COUNT, TXC_COEX_REQS.reg]
  omega

theorem pairStep_reqFollows {s : State} {k : Nat} (h : s.inv = true) (hk : k < 4) : PairStep s (reqFollows s k) := by
  have hone := pairStep_wr h (coexReg_REQ hk) 1
  unfold reqFollows
  dsimp only
  split
  · exact .refl h
  · split
    · exact hone.trans (pairStep_wr hone.inv (coexReg_REQS hk) _)
    · exact pairStep_wr h (coexReg_REQ hk) 0

theorem pairStep_foldl : ∀ (ks : List Nat) {s : State}, s.inv = true → (∀ k ∈ ks, k < 4) → PairStep s (ks.foldl reqFollows s)
  | [], _, h, _ => .refl h
  | _ :: ks, _, h, hk =>
    have a := pairStep_reqFollows h (hk _ List.mem_cons_self)
    a.trans (pairStep_foldl ks a.inv fun j hj => hk j (List.mem_cons_of_mem _ hj))

theorem pairStep_reqUpdate {s : State} (h : s.inv = true) : PairStep s (reqUpdate s) := pairStep_foldl [0, 1, 2, 3] h (by decide)

/-! ## What leaving staging can change -/

/-- What items change, the staging entries and the coexistence intervals with their wires, and the retries that wait. -/
structure StageStep (s t : State) : Prop where
  inv : t.inv = true
  frame : t = { s with regs := t.regs, vregs := t.vregs, posted := t.posted, evr := t.evr, free := t.free, que := t.que, hst := t.hst, eng := t.eng,
                       txc := { s.txc with ents := t.txc.ents, coex := t.txc.coex }, lnk := { s.lnk with retryAt := t.lnk.retryAt } }
  reg : ∀ a, a < 0x500000 → ¬coexReg a → t.reg a = s.reg a

theorem StageStep.trans {s t u : State} (a : StageStep s t) (b : StageStep t u) : StageStep s u where
  inv := b.inv
  frame := by rw [b.frame, a.frame]
  reg x hx hc := (b.reg x hx hc).trans (a.reg x hx hc)

theorem ItemStep.stage {s t : State} (a : ItemStep s t) : StageStep s t where
  inv := a.inv
  frame := by rw [a.frame]
  reg x hx _ := a.reg x hx

theorem StageStep.rd {s t : State} (a : StageStep s t) {f : RegFld} (hf : f.addr < 0x500000) (hc : ¬coexReg f.addr) : t.rd f = s.rd f :=
  rd_of_reg (a.reg _ hf hc)

theorem StageStep.txc {s t : State} (a : StageStep s t) : t.txc = { s.txc with ents := t.txc.ents, coex := t.txc.coex } := by rw [a.frame]
theorem StageStep.pwr {s t : State} (a : StageStep s t) : t.pwr = s.pwr := by rw [a.frame]

theorem stageStep_setEnt {s : State} (h : s.inv = true) (e : Nat) (x : Ent) : StageStep s (s.setEnt e x) := ⟨h, rfl, fun _ _ _ => rfl⟩

/-- The intervals of an entry that is gone before its ramp-down end at once. -/
def coexWithdrawn (e : Nat) (s : State) : State :=
  { s with txc := { s.txc with coex := s.txc.coex.filter (fun r => !(r.ent == e && r.drop.isNone)) } }

theorem stageStep_coexWithdrawn {s : State} (h : s.inv = true) (e : Nat) : StageStep s (coexWithdrawn e s) := ⟨h, rfl, fun _ _ _ => rfl⟩

theorem withdrawCoex_eq (e : Nat) (s : State) : withdrawCoex e s = reqUpdate (coexWithdrawn e s) := rfl

/-- An entry's cells are freed and its place is FREE. -/
def entFreed (e : Nat) (s : State) : State := (freeCells (s.ent e).cells s).setEnt e {}

theorem coexWithdrawn_que (e : Nat) (s : State) : (coexWithdrawn e s).que = s.que := rfl
theorem coexWithdrawn_ents (e : Nat) (s : State) : (coexWithdrawn e s).txc.ents = s.txc.ents := rfl
theorem coexWithdrawn_coex (e : Nat) (s : State) :
    (coexWithdrawn e s).txc.coex = s.txc.coex.filter (fun r => !(r.ent == e && r.drop.isNone)) := rfl
theorem entFreed_que (e : Nat) (s : State) : (entFreed e s).que = (freeCells (s.ent e).cells s).que := setEnt_que _ _ _
theorem entFreed_ents (e : Nat) (s : State) : (entFreed e s).txc.ents = sdel (freeCells (s.ent e).cells s).txc.ents e := setEnt_free _ e
theorem entFreed_coex (e : Nat) (s : State) : (entFreed e s).txc.coex = (freeCells (s.ent e).cells s).txc.coex := setEnt_coex _ _ _

theorem releaseEnt_eq (e : Nat) (s : State) :
    releaseEnt e s =
      let u := reqUpdate (coexWithdrawn e (entFreed e s))
      { u with lnk := { u.lnk with retryAt := sdel u.lnk.retryAt e } } := by
  unfold releaseEnt entFreed
  rw [withdrawCoex_eq]

theorem releaseEnt_spec {s : State} (h : s.inv = true) (e : Nat) :
    StageStep s (releaseEnt e s) ∧ (releaseEnt e s).que = (freeCells (s.ent e).cells s).que ∧
      (releaseEnt e s).txc.ents = sdel s.txc.ents e ∧
      (releaseEnt e s).txc.coex = s.txc.coex.filter (fun r => !(r.ent == e && r.drop.isNone)) := by
  have a := (queStep_freeCells h (s.ent e).cells).item
  have b : StageStep s (entFreed e s) := a.stage.trans (stageStep_setEnt a.inv e {})
  have c := b.trans (stageStep_coexWithdrawn b.inv e)
  have d := pairStep_reqUpdate c.inv
  rw [releaseEnt_eq]
  dsimp only
  refine ⟨⟨d.inv, ?_, fun x hx hc => (d.reg x hc).trans (c.reg x hx hc)⟩, ?_, ?_, ?_⟩
  · rw [d.frame, c.frame]
  · rw [d.frame, coexWithdrawn_que, entFreed_que]
  · rw [d.frame, coexWithdrawn_ents, entFreed_ents, a.txc]
  · rw [d.frame, coexWithdrawn_coex, entFreed_coex, a.txc]

theorem itemStep_returnAir {s : State} (h : s.inv = true) (x : Ent) : ItemStep s (returnAir x s) := by
  have hne : ∀ a, a < 0x500000 → a ≠ (PRT_PAIR.VALUE x.part 0).addr := fun a ha => by
    dsimp only [PRT_PAIR.VALUE, PRT_PAIR.reg]
    omega
  unfold returnAir
  split
  · exact ⟨inv_wr h _ _, rfl, fun a ha => reg_wr_other s _ _ a (hne a ha) h⟩
  · exact .refl h

@[simp] theorem returnAir_que (x : Ent) (s : State) : (returnAir x s).que = s.que := by
  unfold returnAir
  split <;> rfl

/-- A counter that is burned is counted, and nothing else changes (R126). -/
theorem burnEnt_onlyRegs {s : State} (h : s.inv = true) (x : Ent) : (burnEnt x s).inv = true ∧ onlyRegs s (burnEnt x s) [TXC_CNT_BURN.reg] := by
  unfold burnEnt
  split
  · exact ⟨inv_inc h _, inc_onlyRegs h _⟩
  · exact ⟨h, onlyRegs_refl s _⟩

/-! ## A missed window -/

/-- A missed window up to the entry's leaving staging: logged, its counter burned, its airtime returned. -/
def missLogged (e cause : Nat) (s : State) : State := returnAir (s.ent e) (burnEnt (s.ent e) (s.wr (lastMissF e) cause))

/-- The miss is counted and raised. -/
def missCounted (cause : Nat) (s : State) : State := (s.inc (TXC_MISS_CNT.COUNT (cause - 1))).raise 3 0

/-- A data frame without a wake-up sequence only goes back to its queue. -/
theorem missTail_data {x : Ent} (hk : x.kind = 0) (hw : x.wuf = false) (cause : Nat) (s : State) :
    missTail x cause s = backToQueue x (missCounted cause s) := by
  have hpay : ∀ u : State, payloadMissed x u = u := fun u => by
    unfold payloadMissed
    split
    · rw [hw, if_neg (fun e => Bool.false_ne_true e.1)]
    · rfl
  have hgone : ∀ u : State, followUpGone x u = u := fun u => if_neg (by rw [hk]; decide)
  unfold missTail
  dsimp only
  rw [if_neg (by rw [hk]; decide), if_neg (by rw [hk]; decide), hgone, hpay]
  rfl

theorem missEnt_data {s : State} {e : Nat} (hk : (s.ent e).kind = 0) (hw : (s.ent e).wuf = false) (cause : Nat) :
    missEnt e cause s = backToQueue (s.ent e) (missCounted cause (vacate e (missLogged e cause s))) :=
  missTail_data hk hw cause _

/-- What stays of a PREPARING entry that has given up its frame (R122, R125). -/
def awaitsResult (x : Ent) : Ent :=
  { st := 2, kind := x.kind, chain := x.chain, part := x.part, prio := x.prio, job := true, fc := x.fc, dead := true }

theorem vacate_released {s : State} {e : Nat} (h : (s.ent e).st ≠ 2) : vacate e s = releaseEnt e s := if_neg h

theorem vacate_preparing {s : State} {e : Nat} (h : (s.ent e).st = 2) : vacate e s = (releaseEnt e s).setEnt e (awaitsResult (s.ent e)) := if_pos h

theorem stageStep_vacate {s : State} (h : s.inv = true) (e : Nat) : StageStep s (vacate e s) := by
  have a := (releaseEnt_spec h e).1
  by_cases hp : (s.ent e).st = 2
  · rw [vacate_preparing hp]
    exact a.trans (stageStep_setEnt a.inv e _)
  · rw [vacate_released hp]
    exact a

theorem lastMissF_entry {e : Nat} (he : e < 1024) : lastMissF e = TXC_STAGE0.LAST_MISS e := by
  unfold lastMissF isSlot
  rw [decide_eq_false (Nat.not_le_of_lt he), if_neg Bool.false_ne_true]

/-- The registers that count misses and say why, apart from those of coexistence and of burned counters. -/
theorem LAST_MISS_apart {e a : Nat} (he : e < 1024) (ha : a < 0x310000) : a ≠ TXC_STAGE0.reg e ∧ TXC_STAGE0.reg e < 0x500000 ∧
    ¬coexReg (TXC_STAGE0.reg e) ∧ noPba (TXC_STAGE0.reg e) := by
  unfold TXC_STAGE0.reg coexReg
  exact ⟨by omega, by omega, by omega, noPba_of_lt (by omega)⟩

/-- A miss is logged in the entry's LAST_MISS; beside it only the count of burned counters and what items change may differ. -/
theorem missLogged_spec {s : State} {e c : Nat} (h : s.inv = true) (he : e < 1024) (hc : c < 256) :
    (missLogged e c s).inv = true ∧ (missLogged e c s).txc = s.txc ∧ (missLogged e c s).que = s.que ∧
      (missLogged e c s).rd (TXC_STAGE0.LAST_MISS e) = c ∧
      ∀ a, a < 0x310000 → a ≠ TXC_CNT_BURN.reg → (missLogged e c s).reg a = s.reg a := by
  have h1 := inv_wr h (TXC_STAGE0.LAST_MISS e) c
  obtain ⟨h2, ho⟩ := burnEnt_onlyRegs h1 (s.ent e)
  have hi := itemStep_returnAir h2 (s.ent e)
  have hburn : TXC_CNT_BURN.reg ≠ TXC_STAGE0.reg e := (LAST_MISS_apart he (by decide)).1
  have hlow : TXC_STAGE0.reg e < 0x500000 := (LAST_MISS_apart he (a := 0) (by decide)).2.1
  unfold missLogged
  rw [lastMissF_entry he]
  refine ⟨hi.inv, ?_, ?_, ?_, fun a ha hb => ?_⟩
  · rw [hi.txc, ho.1, wr_txc]
  · rw [returnAir_que, ho.1, wr_que]
  · rw [hi.rd hlow, onlyRegs_rd ho (by simpa [TXC_STAGE0.LAST_MISS] using Ne.symm hburn)]
    exact rd_wr_fits h (f := TXC_STAGE0.LAST_MISS e) (Nat.le_of_ble_eq_true rfl) hc
  · rw [hi.reg a (by omega), ho.2 a (by simpa using hb)]
    exact reg_wr_other s _ c a (LAST_MISS_apart he ha).1 h

/-- A miss is counted by its cause and raised (R122). -/
theorem missCounted_spec {s : State} {c : Nat} (h : s.inv = true) (hc : c - 1 < 7) :
    (missCounted c s).inv = true ∧ (missCounted c s).rd (TXC_MISS_CNT.COUNT (c - 1)) = min 0xFFFFFFFF (s.rd (TXC_MISS_CNT.COUNT (c - 1)) + 1) ∧
      flagged (missCounted c s) 3 0 ∧ raisedOnly s (missCounted c s) [TXC_MISS_CNT.reg (c - 1), TXC_EVT_STS.reg] := by
  have h1 := inv_inc h (TXC_MISS_CNT.COUNT (c - 1))
  have hlt : TXC_MISS_CNT.reg (c - 1) < 0x900000 := by unfold TXC_MISS_CNT.reg; omega
  have hne : evtReg 3 ≠ some (TXC_MISS_CNT.reg (c - 1)) := fun e => by
    have := Option.some.inj e
    unfold TXC_MISS_CNT.reg at this
    omega
  refine ⟨inv_raise h1 3 0, ?_, raise_flagged _ 3 0 _ h1 rfl (by decide), ?_⟩
  · exact (raise_rd _ 3 0 (TXC_MISS_CNT.COUNT (c - 1)) h1 (noPba_of_lt hlt) hne).trans (rd_inc_same h (Nat.le_of_ble_eq_true rfl))
  · exact raisedOnly_trans (wr_raisedOnly s (TXC_MISS_CNT.COUNT (c - 1)) _ h) (raise_raisedOnly _ 3 0 _ h1 rfl)

/-- What a missed window of a data frame comes to, whatever its entry's state: the entry is vacated, the miss logged, counted and raised, and
the frame is back in its queue (R122). -/
theorem missEnt_spec {s : State} {e c : Nat} (h : s.inv = true) (he : e < 1024) (hc : c < 8) (hpos : 0 < c) (hk : (s.ent e).kind = 0)
    (hw : (s.ent e).wuf = false) :
    (missEnt e c s).txc = (vacate e (missLogged e c s)).txc ∧ (missEnt e c s).rd (TXC_STAGE0.LAST_MISS e) = c ∧
      (missEnt e c s).rd (TXC_MISS_CNT.COUNT (c - 1)) = min 0xFFFFFFFF (s.rd (TXC_MISS_CNT.COUNT (c - 1)) + 1) ∧ flagged (missEnt e c s) 3 0 ∧
      (missEnt e c s).que = (backToQueue (s.ent e) (vacate e (missLogged e c s))).que := by
  obtain ⟨h1, -, -, hlast, hlow⟩ := missLogged_spec h he (Nat.lt_trans hc (by decide))
  have hv := stageStep_vacate h1 e
  obtain ⟨h3, hcount, hflag, hraise⟩ := missCounted_spec hv.inv (c := c) (by omega)
  have hb := itemStep_backToQueue h3 (s.ent e)
  obtain ⟨hne, hlt, hco, hpba⟩ := LAST_MISS_apart he (a := TXC_EVT_STS.reg) (by decide)
  have hcnt : TXC_MISS_CNT.reg (c - 1) < 0x3000A0 := by unfold TXC_MISS_CNT.reg; omega
  have hcne : TXC_MISS_CNT.reg (c - 1) ≠ TXC_CNT_BURN.reg := by unfold TXC_MISS_CNT.reg TXC_CNT_BURN.reg; omega
  have hcco : ¬coexReg (TXC_MISS_CNT.reg (c - 1)) := by unfold coexReg; omega
  rw [missEnt_data hk hw]
  refine ⟨?_, ?_, ?_, ?_, ?_⟩
  · rw [hb.txc, hraise.1]
  · have hnot : TXC_STAGE0.reg e ∉ [TXC_MISS_CNT.reg (c - 1), TXC_EVT_STS.reg] := by
      have := (LAST_MISS_apart he (a := TXC_MISS_CNT.reg (c - 1)) (by omega)).1
      simp only [List.mem_cons, List.not_mem_nil, or_false, not_or]
      exact ⟨Ne.symm this, Ne.symm hne⟩
    rw [hb.rd (f := TXC_STAGE0.LAST_MISS e) hlt, raisedOnly_rd hraise (f := TXC_STAGE0.LAST_MISS e) hnot hpba,
      hv.rd (f := TXC_STAGE0.LAST_MISS e) hlt hco, hlast]
  · rw [hb.rd (f := TXC_MISS_CNT.COUNT (c - 1)) (Nat.lt_trans hcnt (by decide)), hcount,
      hv.rd (f := TXC_MISS_CNT.COUNT (c - 1)) (Nat.lt_trans hcnt (by decide)) hcco,
      rd_of_reg (f := TXC_MISS_CNT.COUNT (c - 1)) (hlow _ (Nat.lt_trans hcnt (by decide)) hcne)]
  · obtain ⟨a, ha, hbit⟩ := hflag
    obtain rfl : TXC_EVT_STS.reg = a := Option.some.inj ha
    exact ⟨_, rfl, (hb.rd (f := ⟨TXC_EVT_STS.reg, 0, 1⟩) (by decide)).trans hbit⟩
  · exact que_backToQueue (by rw [hraise.1]) _

/-- A data frame that is not being prepared misses its window (R122). -/
theorem missEnt_missed {s : State} {e c : Nat} (h : s.inv = true) (he : e < 1024) (hc : c < 8) (hpos : 0 < c) (hk : (s.ent e).kind = 0)
    (hw : (s.ent e).wuf = false) (hst : (s.ent e).st ≠ 2) : missed s (missEnt e c s) e c := by
  obtain ⟨h1, htxc, hque, -⟩ := missLogged_spec h he (c := c) (Nat.lt_trans hc (by decide))
  obtain ⟨ht, hlast, hcount, hflag, hq⟩ := missEnt_spec h he hc hpos hk hw
  have hent := ent_of_txc htxc e
  have hvac : vacate e (missLogged e c s) = releaseEnt e (missLogged e c s) := vacate_released (hent ▸ hst)
  obtain ⟨-, hrq, hre, -⟩ := releaseEnt_spec h1 e
  refine ⟨?_, hlast, hcount, hflag, ?_⟩
  · rw [ht, hvac, hre, htxc]
  · rw [hq, hvac]
    refine que_backToQueue ?_ _
    rw [hrq, hent]
    exact que_freeCells hque _

/-- A PREPARING data frame misses its window and keeps its place for its result (R122, R126). -/
theorem missEnt_preparing {s : State} {e c : Nat} (h : s.inv = true) (he : e < 1024) (hc : c < 8) (hpos : 0 < c) (hk : (s.ent e).kind = 0)
    (hw : (s.ent e).wuf = false) (hst : (s.ent e).st = 2) : (missEnt e c s).ent e = awaitsResult (s.ent e) := by
  obtain ⟨-, htxc, -⟩ := missLogged_spec h he (c := c) (Nat.lt_trans hc (by decide))
  have hent := ent_of_txc htxc e
  rw [ent_of_txc (missEnt_spec h he hc hpos hk hw).1, vacate_preparing (hent ▸ hst), hent]
  exact ent_setEnt_same _ e (ent_ne_of_st (show 2 ≠ 0 by decide))

/-- A miss is the same seen from a state that agrees on staging, the queue fabric and the count. -/
theorem missed_of_same {r s t : State} {e c : Nat} (htxc : s.txc = r.txc) (hque : s.que = r.que)
    (hcount : s.rd (TXC_MISS_CNT.COUNT (c - 1)) = r.rd (TXC_MISS_CNT.COUNT (c - 1))) (h : missed s t e c) : missed r t e c := by
  obtain ⟨hents, hlast, hcnt, hflag, hq⟩ := h
  refine ⟨htxc ▸ hents, hlast, hcount ▸ hcnt, hflag, ?_⟩
  rw [hq, ent_of_txc htxc]
  exact que_backToQueue (que_freeCells hque _) _

end Sys2Proof.Machine

/-! Faults: ramp-downs, the latch of a chain and the end of a faulted ramp-down (R128-R130, R132). -/

namespace Sys2Proof.Machine

/-! ## Commits and what a chain may do -/

/-- An entry in its turn is decided at air time - 2,048 (R119). -/
theorem exec_commit {s : State} {e : Nat} (he : e < 1056) (hst : (s.ent e).st ∈ [1, 2, 3, 4, 5]) (hd : (s.ent e).dead = false)
    (ht : commitTurn e s = true) : exec (.commit e) s = .next (commitChecks e (s.at_ ((s.ent e).air - 2048))) := by
  have hdo : commit e s = commitChecks e (s.at_ ((s.ent e).air - 2048)) := if_pos ⟨hst, by rw [hd]; rfl, ht⟩
  have hex : execCommit e s = .next (commit e s) := if_pos (decide_eq_true he)
  exact hex.trans (congrArg Host.Outcome.next hdo)

/-- A PRIMED entry on a chain that may not commit misses with cause 6 (R119, R130). -/
theorem commitChecks_unusable {s : State} {e : Nat} (hst : (s.ent e).st = 5) (hu : chainUsable s (s.ent e).chain = false) :
    commitChecks e s = missEnt e 6 s := by
  have hno : (!chainUsable s (s.ent e).chain) = true := by rw [hu]; rfl
  unfold commitChecks
  dsimp only
  rw [if_neg (not_not.mpr hst), if_pos hno]

theorem chainUsable_latched {s : State} {n : Nat} (h : s.rd (TXC_CH_STS.STATE n) = 4) : chainUsable s n = false := by
  unfold chainUsable
  rw [h]
  simp

theorem at_STATE {s : State} (h : s.inv = true) (n t : Nat) : (s.at_ t).rd (TXC_CH_STS.STATE n) = s.rd (TXC_CH_STS.STATE n) :=
  at_rd h (show 0x50000 ≤ 0x30200C + 0x40 * n by omega) t

/-! ## One carrier's faulted ramp-down -/

/-- An entry whose carrier begins its faulted ramp-down (R129). -/
def rampedDown (x : Ent) (atb : Nat) : Ent := { x with fault := some (atb + min x.tDown 56) }

/-- The counts and the event of a faulted ramp-down on chain n. -/
def faultCounted (n : Nat) (s : State) : State := ((s.inc TXC_CNT_FAULT.COUNT).inc (TXC_CH_CNT_FAULT.COUNT n)).raise 3 2

theorem faultCarrier_eq {s : State} {e : Nat} (h : (s.ent e).fault = none) :
    faultCarrier s e =
      cutTxEn e (s.ent e) (min (s.ent e).tDown 56) (faultCounted (s.ent e).chain (s.setEnt e (rampedDown (s.ent e) s.atb))) :=
  if_neg (by rw [h]; decide)

theorem faultCarrier_again {s : State} {e : Nat} (h : (s.ent e).fault ≠ none) : faultCarrier s e = s :=
  if_pos (Option.isSome_iff_ne_none.mpr h)

theorem rampedDown_ne (x : Ent) (atb : Nat) : rampedDown x atb ≠ {} := fun h => Option.some_ne_none _ (congrArg Ent.fault h)

theorem CH_CNT_FAULT_apart {n : Nat} (hn : n < 8) : TXC_CH_CNT_FAULT.reg n < 0x303000 ∧ 0x300044 < TXC_CH_CNT_FAULT.reg n := by
  unfold TXC_CH_CNT_FAULT.reg
  omega

theorem faultCounted_spec {s : State} {n : Nat} (h : s.inv = true) (hn : n < 8) :
    (faultCounted n s).inv = true ∧ raisedOnly s (faultCounted n s) [TXC_CNT_FAULT.reg, TXC_CH_CNT_FAULT.reg n, TXC_EVT_STS.reg] ∧
      (faultCounted n s).rd TXC_CNT_FAULT.COUNT = min 0xFFFFFFFF (s.rd TXC_CNT_FAULT.COUNT + 1) ∧
      (faultCounted n s).rd (TXC_CH_CNT_FAULT.COUNT n) = min 0xFFFFFFFF (s.rd (TXC_CH_CNT_FAULT.COUNT n) + 1) ∧ flagged (faultCounted n s) 3 2 := by
  obtain ⟨hhi, hlo⟩ := CH_CNT_FAULT_apart hn
  have h1 := inv_inc h TXC_CNT_FAULT.COUNT
  have h2 := inv_inc h1 (TXC_CH_CNT_FAULT.COUNT n)
  have hr := raise_raisedOnly ((s.inc TXC_CNT_FAULT.COUNT).inc (TXC_CH_CNT_FAULT.COUNT n)) 3 2 TXC_EVT_STS.reg h2 rfl
  have hall : TXC_CNT_FAULT.reg ∉ [TXC_EVT_STS.reg] := by decide
  have hone : TXC_CH_CNT_FAULT.reg n ∉ [TXC_EVT_STS.reg] := by
    rw [List.mem_singleton]
    exact Nat.ne_of_gt (Nat.lt_trans (by decide) hlo)
  have hboth := raisedOnly_trans (wr_raisedOnly _ (TXC_CH_CNT_FAULT.COUNT n) _ h1) hr
  refine ⟨inv_raise h2 3 2, raisedOnly_trans (wr_raisedOnly s TXC_CNT_FAULT.COUNT _ h) hboth, ?_, ?_, raise_flagged _ 3 2 _ h2 rfl (by decide)⟩
  · refine (raisedOnly_rd hr (f := TXC_CNT_FAULT.COUNT) hall (noPba_of_lt (by decide))).trans ?_
    exact (rd_wr_other _ _ _ _ (Nat.ne_of_lt hlo) h1).trans (rd_inc_same h (by decide))
  · refine (raisedOnly_rd hr (f := TXC_CH_CNT_FAULT.COUNT n) hone (noPba_of_lt (Nat.lt_trans hhi (by decide)))).trans ?_
    rw [rd_inc_same h1 (Nat.le_of_ble_eq_true rfl)]
    exact congrArg (fun k => min 0xFFFFFFFF (k + 1)) (rd_wr_other _ _ _ _ (Nat.ne_of_gt hlo) h)

/-- The front-end enables of entry d at air time a are off by b. -/
def offBy (s : State) (d a b : Nat) : Prop := ∀ z ∈ s.txc.txens, z.ent = d → z.air = a → z.off ≤ b

/-- What the faulted ramp-downs of the entries ds change: each that has none yet begins its own, and nothing else of staging differs. -/
structure FaultStep (s t : State) (ds : List Nat) : Prop where
  inv : t.inv = true
  frame : t = { s with regs := t.regs, vregs := t.vregs, posted := t.posted, evr := t.evr,
                       txc := { s.txc with ents := t.txc.ents, txens := t.txc.txens } }
  reg : ∀ a, a ∉ [TXC_CNT_FAULT.reg, TXC_EVT_STS.reg] → (∀ k, k < 8 → a ≠ TXC_CH_CNT_FAULT.reg k) → noPba a → t.reg a = s.reg a
  cut : ∀ e, e ∈ ds → (s.ent e).fault = none →
    t.ent e = rampedDown (s.ent e) s.atb ∧ offBy t e (s.ent e).air (s.now + min (s.ent e).tDown 56)
  same : ∀ e, e ∉ ds ∨ (s.ent e).fault ≠ none → t.ent e = s.ent e
  off : ∀ d a b, offBy s d a b → offBy t d a b

theorem FaultStep.refl {s : State} {ds : List Nat} (h : s.inv = true) (hf : ∀ e ∈ ds, (s.ent e).fault ≠ none) : FaultStep s s ds :=
  ⟨h, rfl, fun _ _ _ _ => rfl, fun e he hn => absurd hn (hf e he), fun _ _ => rfl, fun _ _ _ h => h⟩

theorem FaultStep.carriers {s t : State} {ds : List Nat} (a : FaultStep s t ds) : t.txc.carriers = s.txc.carriers := by rw [a.frame]
theorem FaultStep.que {s t : State} {ds : List Nat} (a : FaultStep s t ds) : t.que = s.que := by rw [a.frame]
theorem FaultStep.pwr {s t : State} {ds : List Nat} (a : FaultStep s t ds) : t.pwr = s.pwr := by rw [a.frame]

theorem FaultStep.trans {s t u : State} {ds es : List Nat} (a : FaultStep s t ds) (b : FaultStep t u es) : FaultStep s u (ds ++ es) where
  inv := b.inv
  frame := by rw [b.frame, a.frame]
  reg x h1 h2 h3 := (b.reg x h1 h2 h3).trans (a.reg x h1 h2 h3)
  cut e he hn := by
    by_cases hd : e ∈ ds
    · obtain ⟨hent, hoff⟩ := a.cut e hd hn
      refine ⟨(b.same e (.inr ?_)).trans hent, b.off _ _ _ hoff⟩
      rw [hent]
      exact Option.some_ne_none _
    · have hs := a.same e (.inl hd)
      have hatb : t.atb = s.atb := by rw [a.frame]
      have hnow : t.now = s.now := by rw [a.frame]
      have hc := b.cut e ((List.mem_append.mp he).resolve_left hd) (hs ▸ hn)
      rwa [hs, hatb, hnow] at hc
  same e he := by
    have hs : t.ent e = s.ent e := a.same e (he.imp_left fun h hd => h (List.mem_append_left _ hd))
    refine (b.same e ?_).trans hs
    rw [hs]
    exact he.imp_left fun h hd => h (List.mem_append_right _ hd)
  off d x y h := b.off d x y (a.off d x y h)

theorem cutTxEn_txc (e : Nat) (x : Ent) (t : Nat) (s : State) : (cutTxEn e x t s).txc =
    { s.txc with txens := s.txc.txens.map (fun z => if z.ent = e ∧ z.air = x.air then { z with off := min z.off (s.now + t) } else z) } := rfl

/-- An enable that is cut belongs to the same entry and air time as before, and is off no later. -/
theorem mem_cutTxEn {e t : Nat} {x : Ent} {s : State} {z : TxEn} (h : z ∈ (cutTxEn e x t s).txc.txens) :
    ∃ y ∈ s.txc.txens, z.ent = y.ent ∧ z.air = y.air ∧ z.off ≤ y.off ∧ (y.ent = e → y.air = x.air → z.off ≤ s.now + t) := by
  rw [cutTxEn_txc] at h
  obtain ⟨y, hy, rfl⟩ := List.mem_map.mp h
  refine ⟨y, hy, ?_⟩
  split
  · exact ⟨rfl, rfl, Nat.min_le_left _ _, fun _ _ => Nat.min_le_right _ _⟩
  · next hno => exact ⟨rfl, rfl, Nat.le_refl _, fun he ha => absurd ⟨he, ha⟩ hno⟩

theorem faultCarrier_step {s : State} {e : Nat} (h : s.inv = true) (hc : (s.ent e).chain < 8) : FaultStep s (faultCarrier s e) [e] := by
  by_cases hf : (s.ent e).fault = none
  · have h1 : (s.setEnt e (rampedDown (s.ent e) s.atb)).inv = true := h
    obtain ⟨h2, hr, -⟩ := faultCounted_spec h1 hc
    have htx : (faultCounted (s.ent e).chain (s.setEnt e (rampedDown (s.ent e) s.atb))).txc =
        (s.setEnt e (rampedDown (s.ent e) s.atb)).txc := by rw [hr.1]
    have hnow : (faultCounted (s.ent e).chain (s.setEnt e (rampedDown (s.ent e) s.atb))).now = s.now := by rw [hr.1]; rfl
    have hents : ∀ d, (faultCarrier s e).ent d = (s.setEnt e (rampedDown (s.ent e) s.atb)).ent d := fun d => by
      rw [faultCarrier_eq hf]
      exact (ent_of_txc (t := s.setEnt e (rampedDown (s.ent e) s.atb)) htx d)
    have hmem : ∀ z ∈ (faultCarrier s e).txc.txens, ∃ y ∈ s.txc.txens, z.ent = y.ent ∧ z.air = y.air ∧ z.off ≤ y.off ∧
        (y.ent = e → y.air = (s.ent e).air → z.off ≤ s.now + min (s.ent e).tDown 56) := fun z hz => by
      rw [faultCarrier_eq hf] at hz
      obtain ⟨y, hy, hz⟩ := mem_cutTxEn hz
      rw [htx] at hy
      rw [hnow] at hz
      exact ⟨y, hy, hz⟩
    refine ⟨?_, ?_, fun a h1 h2 h3 => ?_, fun d hd _ => ?_, fun d hd => ?_, fun d a b ho z hz he ha => ?_⟩
    · rw [faultCarrier_eq hf]
      exact h2
    · rw [faultCarrier_eq hf]
      unfold cutTxEn
      rw [hr.1]
      rfl
    · rw [faultCarrier_eq hf]
      refine hr.2 a ?_ h3
      simp only [List.mem_cons, List.not_mem_nil, or_false, not_or] at h1 ⊢
      exact ⟨h1.1, h2 _ hc, h1.2⟩
    · obtain rfl := List.mem_singleton.mp hd
      refine ⟨(hents d).trans (ent_setEnt_same s d (rampedDown_ne _ _)), fun z hz he ha => ?_⟩
      obtain ⟨y, -, hye, hya, -, hoff⟩ := hmem z hz
      exact hoff (hye ▸ he) (hya ▸ ha)
    · have hne : d ≠ e := fun hde => hd.elim (fun hn => hn (List.mem_singleton.mpr hde)) fun hn => hn (hde ▸ hf)
      exact (hents d).trans (ent_setEnt_ne s (rampedDown_ne _ _) hne)
    · obtain ⟨y, hy, hye, hya, hoff, -⟩ := hmem z hz
      exact Nat.le_trans hoff (ho y hy (hye ▸ he) (hya ▸ ha))
  · rw [faultCarrier_again hf]
    exact .refl h fun d hd => List.mem_singleton.mp hd ▸ hf

/-- Every entry belongs to one of the eight chains. -/
def chained (s : State) : Prop := ∀ e, (s.ent e).chain < 8

theorem chained_of_listed {s : State} (h : ∀ p ∈ s.txc.ents, p.2.chain < 8) : chained s := fun e => by
  rcases sget_mem (fun _ => ({} : Ent)) e s.txc.ents with hm | hd
  · exact h _ hm
  · unfold State.ent
    rw [hd]
    decide

theorem FaultStep.chained {s t : State} {ds : List Nat} (a : FaultStep s t ds) (h : chained s) : chained t := fun e => by
  by_cases hc : e ∈ ds ∧ (s.ent e).fault = none
  · rw [(a.cut e hc.1 hc.2).1]
    exact h e
  · rw [a.same e (not_and_or.mp hc)]
    exact h e

theorem faultCarriers_step : ∀ (ds : List Nat) {s : State}, s.inv = true → chained s → FaultStep s (ds.foldl faultCarrier s) ds
  | [], _, h, _ => .refl h fun _ he => absurd he List.not_mem_nil
  | d :: ds, _, h, hc =>
    have a := faultCarrier_step h (hc d)
    a.trans (faultCarriers_step ds a.inv (a.chained hc))

/-! ## The latch of a chain -/

/-- A chain's STATE and CAUSE are other registers than those a faulted ramp-down counts in. -/
theorem FaultStep.chain_rd {s t : State} {ds : List Nat} (a : FaultStep s t ds) {n : Nat} (hn : n < 8) :
    t.rd (TXC_CH_STS.STATE n) = s.rd (TXC_CH_STS.STATE n) ∧ t.rd (TXC_CH_FAULT.CAUSE n) = s.rd (TXC_CH_FAULT.CAUSE n) := by
  have keep : ∀ f : RegFld, f.addr = TXC_CH_STS.reg n ∨ f.addr = TXC_CH_FAULT.reg n → t.rd f = s.rd f := fun f hf => by
    unfold TXC_CH_STS.reg TXC_CH_FAULT.reg at hf
    refine rd_of_reg (a.reg _ ?_ (fun k hk => ?_) (noPba_of_lt (by omega)))
    · simp only [TXC_CNT_FAULT.reg, TXC_EVT_STS.reg, List.mem_cons, List.not_mem_nil, or_false]
      omega
    · unfold TXC_CH_CNT_FAULT.reg
      omega
  exact ⟨keep _ (.inl rfl), keep _ (.inr rfl)⟩

/-- A cause bit fits its register beside the others. -/
theorem bitSet_fits {m b : Nat} (hm : m < 16) (hb : b < 4) : bitSet m b < 16 :=
  (by decide : ∀ m < 16, ∀ b < 4, bitSet m b < 16) m hm b hb

theorem CAUSE_lt (s : State) (n : Nat) : s.rd (TXC_CH_FAULT.CAUSE n) < 16 := bf_lt _ _ _

/-- What latching chain n with cause bit b comes to: its carriers ramp down and stand with their leave until that ends, and other entries go on. -/
def latchedBy (s : State) (n : Nat) (t : State) (b : Nat) : Prop :=
  t.rd (TXC_CH_STS.STATE n) = 4 ∧ t.rd (TXC_CH_FAULT.CAUSE n) = bitSet (s.rd (TXC_CH_FAULT.CAUSE n)) b ∧
    t.txc.carriers = s.txc.carriers ∧ t.pwr = s.pwr ∧ t.que = s.que ∧
    (∀ c ∈ s.txc.carriers, c.chain = n → (s.ent c.ent).fault = none →
      t.ent c.ent = { s.ent c.ent with fault := some (s.atb + min (s.ent c.ent).tDown 56) } ∧
        ∀ z ∈ t.txc.txens, z.ent = c.ent → z.air = (s.ent c.ent).air → z.off ≤ s.now + min (s.ent c.ent).tDown 56) ∧
    (∀ e, (∀ c ∈ s.txc.carriers, c.chain = n → c.ent ≠ e) → t.ent e = s.ent e)

/-- The entries of a chain's carriers. -/
def chainEnts (s : State) (n : Nat) : List Nat := (chainCarriers s n).map (·.ent)

theorem mem_chainEnts {s : State} {n e : Nat} : e ∈ chainEnts s n ↔ ∃ c ∈ s.txc.carriers, c.chain = n ∧ c.ent = e := by
  unfold chainEnts chainCarriers
  simp only [List.mem_map, List.mem_filter, beq_iff_eq, and_assoc]

/-- The registers that latch a chain. -/
def chainLatched (n b : Nat) (s : State) : State :=
  (s.wr (TXC_CH_FAULT.CAUSE n) (bitSet (s.rd (TXC_CH_FAULT.CAUSE n)) b)).wr (TXC_CH_STS.STATE n) 4

/-- A chain that is faulted latches (R128-R130). -/
theorem faultChain_latched {s : State} {n b : Nat} (h : s.inv = true) (hn : n < 8) (hb : b < 4) (hc : chained s) :
    latchedBy s n (faultChain n b s) b := by
  have h1 := inv_wr h (TXC_CH_FAULT.CAUSE n) (bitSet (s.rd (TXC_CH_FAULT.CAUSE n)) b)
  have h2 : (chainLatched n b s).inv = true := inv_wr h1 (TXC_CH_STS.STATE n) 4
  have a : FaultStep (chainLatched n b s) (faultChain n b s) (chainEnts s n) := faultCarriers_step _ h2 hc
  obtain ⟨hstate, hcause⟩ := a.chain_rd hn
  have hne : TXC_CH_FAULT.reg n ≠ TXC_CH_STS.reg n := by unfold TXC_CH_FAULT.reg TXC_CH_STS.reg; omega
  have hcut := a.cut
  have hsame := a.same
  refine ⟨?_, ?_, a.carriers, a.pwr, a.que, fun c hm hcn hf => ?_, fun e he => ?_⟩
  · exact hstate.trans (rd_wr_fits h1 (f := TXC_CH_STS.STATE n) (Nat.le_of_ble_eq_true rfl) (show 4 < 2 ^ 3 by decide))
  · refine hcause.trans ((rd_wr_other _ _ _ _ hne h1).trans ?_)
    exact rd_wr_fits h (f := TXC_CH_FAULT.CAUSE n) (Nat.le_of_ble_eq_true rfl) (bitSet_fits (CAUSE_lt s n) hb)
  · exact hcut c.ent (mem_chainEnts.mpr ⟨c, hm, hcn, rfl⟩) hf
  · refine hsame e (.inl fun hm => ?_)
    obtain ⟨c, hc, hcn, rfl⟩ := mem_chainEnts.mp hm
    exact he c hc hcn rfl

/-- A pulse that has been taken leaves the fault channels. -/
def pulseTaken (n : Nat) (s : State) : State := { s with txc := { s.txc with faultPulse := s.txc.faultPulse.filter (fun m => m != n) } }

theorem exec_chainFaultEvent {n : Nat} (hn : n < 8) (s : State) : exec (.chainFaultEvent n) s = .next (chainFaultEvent n s) := ranged_next hn _

theorem chainFaultEvent_enabled {s : State} {n : Nat} (hp : n ∈ s.txc.faultPulse) (he : s.on (TXC_CH_CTRL.FEVT_EN n) = true) :
    chainFaultEvent n s = faultChain n 1 (pulseTaken n s) := (if_pos hp).trans (if_pos he)

theorem chainFaultEvent_disabled {s : State} {n : Nat} (hp : n ∈ s.txc.faultPulse) (he : s.on (TXC_CH_CTRL.FEVT_EN n) = false) :
    chainFaultEvent n s = pulseTaken n s := (if_pos hp).trans (if_neg (by rw [he]; decide))

/-- The commit of a PRIMED frame on a latched chain misses (R130). -/
theorem commit_latched {s : State} {e n : Nat} (h : s.inv = true) (he : e < 1024) (hl : s.rd (TXC_CH_STS.STATE n) = 4)
    (hc : (s.ent e).chain = n) (hst : (s.ent e).st = 5) (hd : (s.ent e).dead = false) (hk : (s.ent e).kind = 0) (hw : (s.ent e).wuf = false)
    (ht : commitTurn e s = true) : ∃ t, exec (.commit e) s = .next t ∧ missed (s.at_ ((s.ent e).air - 2048)) t e 6 := by
  have hent := at_ent s ((s.ent e).air - 2048) e
  have hin : (s.ent e).st ∈ [1, 2, 3, 4, 5] := by rw [hst]; decide
  have hno : chainUsable (s.at_ ((s.ent e).air - 2048)) ((s.at_ ((s.ent e).air - 2048)).ent e).chain = false := by
    rw [hent, hc]
    exact chainUsable_latched ((at_STATE h n _).trans hl)
  refine ⟨_, exec_commit (by omega) hin hd ht, ?_⟩
  rw [commitChecks_unusable (by rw [hent]; exact hst) hno]
  exact missEnt_missed (inv_at h _) he (by decide) (by decide) ((congrArg Ent.kind hent).trans hk) ((congrArg Ent.wuf hent).trans hw)
    (by rw [hent, hst]; decide)

/-- FAULT_CLR returns a latched chain with clear cause bits to IDLE (R130). -/
theorem faultClr_clear {s : State} {n : Nat} (h : s.inv = true) (hl : s.rd (TXC_CH_STS.STATE n) = 4) (hc : s.rd (TXC_CH_FAULT.CAUSE n) = 0) :
    let t := faultClr n s
    t.rd (TXC_CH_STS.STATE n) = 1 ∧ t.pwr = (s.returnLeave (.chain n)).pwr ∧ onlyRegs { s with pwr := t.pwr } t [TXC_CH_STS.reg n] := by
  have hdo : faultClr n s = (s.wr (TXC_CH_STS.STATE n) 1).returnLeave (.chain n) := if_pos ⟨hl, hc⟩
  have hstate : (s.wr (TXC_CH_STS.STATE n) 1).rd (TXC_CH_STS.STATE n) = 1 :=
    rd_wr_fits h (f := TXC_CH_STS.STATE n) (Nat.le_of_ble_eq_true rfl) (show 1 < 2 ^ 3 by decide)
  rw [hdo]
  exact ⟨hstate, rfl, rfl, fun a ha => reg_wr_other s _ _ a (List.ne_of_not_mem_cons ha) h⟩

theorem faultClr_ignored {s : State} {n : Nat} (h : s.rd (TXC_CH_STS.STATE n) ≠ 4 ∨ s.rd (TXC_CH_FAULT.CAUSE n) ≠ 0) : faultClr n s = s :=
  if_neg (not_and_or.mpr h)

/-! ## A bad coded-stream cell -/

theorem ItemStep.atb {s t : State} (a : ItemStep s t) : t.atb = s.atb := by rw [a.frame]

/-- What the carrier of an entry that had no fault counts and raises (R128, R129). -/
theorem faultCarrier_counts {s : State} {e : Nat} (h : s.inv = true) (hc : (s.ent e).chain < 8) (hf : (s.ent e).fault = none) :
    (faultCarrier s e).rd TXC_CNT_FAULT.COUNT = min 0xFFFFFFFF (s.rd TXC_CNT_FAULT.COUNT + 1) ∧
      (faultCarrier s e).rd (TXC_CH_CNT_FAULT.COUNT (s.ent e).chain) = min 0xFFFFFFFF (s.rd (TXC_CH_CNT_FAULT.COUNT (s.ent e).chain) + 1) ∧
      flagged (faultCarrier s e) 3 2 := by
  obtain ⟨-, -, hcounts⟩ := faultCounted_spec (s := s.setEnt e (rampedDown (s.ent e) s.atb)) h hc
  rw [faultCarrier_eq hf]
  exact hcounts

/-- The bad cell of entry e is counted and its cause bit set, before the ramp-down begins. -/
def cellFound (e : Nat) (s : State) : State :=
  cellParity ((s.ent e).cells[s.freeVal (s.ent e).cells.length]?.getD 0)
    (s.freed.wr (TXC_CH_FAULT.CAUSE (s.ent e).chain) (bitSet (s.rd (TXC_CH_FAULT.CAUSE (s.ent e).chain)) 3))

theorem cellFault_eq {s : State} {e : Nat} (hst : (s.ent e).st ∈ [6, 7]) (hf : (s.ent e).fault = none) :
    cellFault e s = faultCarrier (cellFound e s) e := if_pos ⟨hst, hf⟩

theorem cellFault_none {s : State} {e : Nat} (h : (s.ent e).st ∉ [6, 7] ∨ (s.ent e).fault ≠ none) : cellFault e s = s :=
  if_neg (not_and_or.mpr h)

theorem exec_cellFault {e : Nat} (he : e < 1056) (s : State) : exec (.cellFault e) s = .next (cellFault e s) := if_pos (decide_eq_true he)

theorem flagged_cellParity {s : State} (h : s.inv = true) (k : Nat) : flagged (cellParity k s) 5 1 :=
  raise_flagged _ 5 1 _ (inv_inc (inv_wr (inv_wr (inv_wr h _ _) _ _) _ _) _) rfl (by decide)

theorem cellFound_spec {s : State} {e n : Nat} (h : s.inv = true) (hn : n < 8) (hc : (s.ent e).chain = n) :
    (cellFound e s).inv = true ∧ (cellFound e s).txc = s.txc ∧ (cellFound e s).atb = s.atb ∧ (cellFound e s).que = s.que ∧
      (cellFound e s).rd (TXC_CH_FAULT.CAUSE n) = bitSet (s.rd (TXC_CH_FAULT.CAUSE n)) 3 ∧ flagged (cellFound e s) 5 1 ∧
      ∀ a, a < 0x500000 → a ≠ TXC_CH_FAULT.reg n → (cellFound e s).reg a = s.reg a := by
  subst hc
  have h0 : s.freed.inv = true := h
  have h1 := inv_wr h0 (TXC_CH_FAULT.CAUSE (s.ent e).chain) (bitSet (s.rd (TXC_CH_FAULT.CAUSE (s.ent e).chain)) 3)
  have a := queStep_cellParity h1 ((s.ent e).cells[s.freeVal (s.ent e).cells.length]?.getD 0)
  have hq := cellParity_que ((s.ent e).cells[s.freeVal (s.ent e).cells.length]?.getD 0)
    (s.freed.wr (TXC_CH_FAULT.CAUSE (s.ent e).chain) (bitSet (s.rd (TXC_CH_FAULT.CAUSE (s.ent e).chain)) 3))
  have hlt : TXC_CH_FAULT.reg (s.ent e).chain < 0x500000 := by unfold TXC_CH_FAULT.reg; omega
  refine ⟨a.inv, a.item.txc, a.item.atb, hq, ?_, flagged_cellParity h1 _, fun x hx hne => ?_⟩
  · refine (a.item.rd (f := TXC_CH_FAULT.CAUSE (s.ent e).chain) hlt).trans ?_
    exact rd_wr_fits h0 (f := TXC_CH_FAULT.CAUSE (s.ent e).chain) (Nat.le_of_ble_eq_true rfl) (bitSet_fits (CAUSE_lt s _) (by decide))
  · exact (a.item.reg x hx).trans (reg_wr_other s.freed _ _ x hne h0)

/-- A bad coded-stream cell ramps its carrier down and does not latch the chain (R128-R130). -/
theorem cellFault_spec {s : State} {e n : Nat} (h : s.inv = true) (hn : n < 8) (hst : (s.ent e).st ∈ [6, 7]) (hf : (s.ent e).fault = none)
    (hc : (s.ent e).chain = n) :
    let t := cellFault e s
    t.rd (TXC_CH_FAULT.CAUSE n) = bitSet (s.rd (TXC_CH_FAULT.CAUSE n)) 3 ∧
      t.rd (TXC_CH_STS.STATE n) = s.rd (TXC_CH_STS.STATE n) ∧ t.txc.carriers = s.txc.carriers ∧ t.que = s.que ∧
      t.ent e = { s.ent e with fault := some (s.atb + min (s.ent e).tDown 56) } ∧ (∀ d, d ≠ e → t.ent d = s.ent d) ∧
      t.rd TXC_CNT_FAULT.COUNT = min 0xFFFFFFFF (s.rd TXC_CNT_FAULT.COUNT + 1) ∧
      t.rd (TXC_CH_CNT_FAULT.COUNT n) = min 0xFFFFFFFF (s.rd (TXC_CH_CNT_FAULT.COUNT n) + 1) ∧ flagged t 3 2 ∧ flagged t 5 1 := by
  obtain ⟨hi, htxc, hatb, hque, hcause, hflag, hreg⟩ := cellFound_spec h hn hc
  have hent := fun d => ent_of_txc htxc d
  have a := faultCarrier_step (s := cellFound e s) (e := e) hi (by rw [hent, hc]; exact hn)
  obtain ⟨hall, hone, hrise⟩ := faultCarrier_counts (s := cellFound e s) (e := e) hi (by rw [hent, hc]; exact hn) (by rw [hent]; exact hf)
  obtain ⟨hstate, hkeep⟩ := a.chain_rd hn
  have hfar : TXC_CH_STS.reg n ≠ TXC_CH_FAULT.reg n ∧ TXC_CNT_FAULT.reg ≠ TXC_CH_FAULT.reg n ∧
      TXC_CH_CNT_FAULT.reg n ≠ TXC_CH_FAULT.reg n ∧
      TXC_CH_STS.reg n < 0x500000 ∧ TXC_CH_CNT_FAULT.reg n < 0x500000 := by
    unfold TXC_CH_STS.reg TXC_CH_FAULT.reg TXC_CH_CNT_FAULT.reg TXC_CNT_FAULT.reg
    omega
  obtain ⟨hf1, hf2, hf3, hf4, hf5⟩ := hfar
  rw [cellFault_eq hst hf]
  refine ⟨hkeep.trans hcause, hstate.trans (rd_of_reg (hreg _ hf4 hf1)), ?_, ?_, ?_, fun d hd => ?_, ?_, ?_, hrise, ?_⟩
  · exact a.carriers.trans (congrArg Txc.carriers htxc)
  · exact a.que.trans hque
  · rw [(a.cut e List.mem_cons_self (by rw [hent]; exact hf)).1, hent, hatb]
    rfl
  · exact (a.same d (.inl (by rwa [List.mem_singleton]))).trans (hent d)
  · rw [hall, rd_of_reg (f := TXC_CNT_FAULT.COUNT) (hreg _ (by decide) hf2)]
  · rw [hent, hc] at hone
    rw [hone, rd_of_reg (f := TXC_CH_CNT_FAULT.COUNT n) (hreg _ hf5 hf3)]
  · obtain ⟨r, hr, hbit⟩ := hflag
    obtain rfl : QUE_EVT_STS.reg = r := Option.some.inj hr
    have hkeep := a.reg QUE_EVT_STS.reg (by decide) (fun k hk => Nat.ne_of_gt (Nat.lt_trans (CH_CNT_FAULT_apart hk).1 (by decide)))
      (noPba_of_lt (by decide))
    exact ⟨_, rfl, (rd_of_reg (f := ⟨QUE_EVT_STS.reg, 1, 1⟩) hkeep).trans hbit⟩

/-! ## The end of a ramp-down -/

/-- A carrier and its leave are released, and the chain's hold begins with its last one (R121). -/
def carrierReturned (e : Nat) (s : State) : State :=
  let x := s.ent e
  let s1 := { s with txc := { s.txc with carriers := s.txc.carriers.filter (fun c => c.ent != e) } }.returnLeave (.carrier x.chain x.carrier)
  if (chainCarriers s1 x.chain).isEmpty then
    { s1 with txc := { s1.txc with idleAt := sput s1.txc.idleAt x.chain (s1.atb + 32 * s1.rd (TXC_CH_CFG.IDLE_HOLD x.chain)) } }
  else s1

theorem dropCarrier_eq (e : Nat) (s : State) : dropCarrier e s = watchSettled (carrierReturned e s) := rfl

theorem carrierReturned_frame (e : Nat) (s : State) : carrierReturned e s =
    { s with pwr := (s.returnLeave (.carrier (s.ent e).chain (s.ent e).carrier)).pwr,
             txc := { s.txc with carriers := s.txc.carriers.filter (fun c => c.ent != e), idleAt := (carrierReturned e s).txc.idleAt } } := by
  unfold carrierReturned
  dsimp only
  split <;> rfl

/-- Without an entry to WATCH that waits for quiescence, the last carrier ends nothing else (R361). -/
theorem dropCarrier_idle {s : State} {e : Nat} (h : s.pwr.req = none) : dropCarrier e s = carrierReturned e s := by
  have hreq : (carrierReturned e s).pwr.req = none := by
    rw [carrierReturned_frame]
    exact h
  rw [dropCarrier_eq]
  exact if_neg fun hw => Option.some_ne_none _ (hw.1.symm.trans hreq)

/-- A request whose frame's ramp-down ends is dropped REQ_HOLD later (R132). -/
def coexDropped (e stop : Nat) (s : State) (r : CoexReq) : CoexReq :=
  if r.ent = e ∧ r.drop.isNone then { r with drop := some (stop + s.rd (TXC_COEX_TIME.REQ_HOLD r.pair)) } else r

theorem holdCoex_eq (e stop : Nat) (s : State) : holdCoex e stop s =
    { s with txc := { s.txc with coex := s.txc.coex.map (coexDropped e stop s) } } := rfl

/-- A ramp-down that ends gives back its carrier with its leave, and lets its requests run on. -/
def rampDone (e stop : Nat) (s : State) : State := holdCoex e stop (carrierReturned e s)

theorem rampDone_eq (e stop : Nat) (s : State) : rampDone e stop s =
    { s with pwr := (s.returnLeave (.carrier (s.ent e).chain (s.ent e).carrier)).pwr,
             txc := { s.txc with carriers := s.txc.carriers.filter (fun c => c.ent != e), idleAt := (carrierReturned e s).txc.idleAt,
                                 coex := s.txc.coex.map (coexDropped e stop s) } } := by
  unfold rampDone
  rw [holdCoex_eq, carrierReturned_frame]
  rfl

/-- The interval of a frame whose ramp-down has ended runs REQ_HOLD on (R132). -/
theorem mem_rampDone_coex {s : State} {e stop : Nat} {r : CoexReq} (hr : r ∈ s.txc.coex) (he : r.ent = e) (hd : r.drop = none) :
    (⟨r.pair, e, some (stop + s.rd (TXC_COEX_TIME.REQ_HOLD r.pair))⟩ : CoexReq) ∈ (rampDone e stop s).txc.coex := by
  rw [rampDone_eq]
  refine List.mem_map.mpr ⟨r, hr, ?_⟩
  unfold coexDropped
  rw [if_pos ⟨he, by rw [hd]; rfl⟩, he]

theorem exec_rampDownEnd {e : Nat} (he : e < 1056) (s : State) : exec (.rampDownEnd e) s = .next (rampDownEnd e s) := if_pos (decide_eq_true he)

theorem rampDownEnd_faulted {s : State} {e t : Nat} (hf : (s.ent e).fault = some t) (hst : (s.ent e).st ∈ [6, 7]) :
    rampDownEnd e s = faultEnd e t (s.ent e) (s.at_ t) := by
  unfold rampDownEnd
  dsimp only
  rw [hf]
  exact if_pos hst

/-- A consumed counter whose frame will be sent anew is burned (R126). -/
def counterBurned (x : Ent) (s : State) : State := if x.fc.isSome then s.inc TXC_CNT_BURN.COUNT else s

theorem counterBurned_onlyRegs {s : State} (h : s.inv = true) (x : Ent) :
    (counterBurned x s).inv = true ∧ onlyRegs s (counterBurned x s) [TXC_CNT_BURN.reg] := by
  unfold counterBurned
  split
  · exact ⟨inv_inc h _, inc_onlyRegs h _⟩
  · exact ⟨h, onlyRegs_refl s _⟩

theorem counterBurned_rd {s : State} {x : Ent} (h : s.inv = true) (hx : x.fc.isSome = true) :
    (counterBurned x s).rd TXC_CNT_BURN.COUNT = min 0xFFFFFFFF (s.rd TXC_CNT_BURN.COUNT + 1) := by
  unfold counterBurned
  rw [if_pos hx]
  exact rd_inc_same h (by decide)

/-- The faulted ramp-down of a data frame ends without an entry to WATCH under way. -/
theorem faultEnd_data {s : State} {e stop h hc : Nat} {x : Ent} (hreq : s.pwr.req = none) (hk : x.kind = 0) (hn : x.node = some h)
    (hi : x.item = some hc) (hg : x.gone = false) :
    faultEnd e stop x s = backToQueue x (releaseEnt e (counterBurned x (rampDone e stop s))) := by
  unfold faultEnd
  dsimp only
  rw [dropCarrier_idle hreq, if_neg (by rw [hk]; decide), if_neg (by rw [hk]; decide), hn, hi]
  exact if_neg (by rw [hg]; decide)

theorem faultEnd_spec {s : State} {e stop h hc : Nat} {x : Ent} (hs : s.inv = true) (hx : s.ent e = x) (hreq : s.pwr.req = none)
    (hk : x.kind = 0) (hn : x.node = some h) (hi : x.item = some hc) (hg : x.gone = false) :
    let t := faultEnd e stop x s
    t.txc.ents = sdel s.txc.ents e ∧ t.txc.carriers = s.txc.carriers.filter (fun c => c.ent != e) ∧
      t.pwr.held = s.pwr.held.filter (fun l => !decide (l.who = .carrier x.chain x.carrier)) ∧
      (∀ r ∈ s.txc.coex, r.ent = e → r.drop = none →
        (⟨r.pair, e, some (stop + s.rd (TXC_COEX_TIME.REQ_HOLD r.pair))⟩ : CoexReq) ∈ t.txc.coex) ∧
      (x.fc.isSome = true → t.rd TXC_CNT_BURN.COUNT = min 0xFFFFFFFF (s.rd TXC_CNT_BURN.COUNT + 1)) ∧
      t.que = (backToQueue x (freeCells x.cells s)).que := by
  have h1 : (rampDone e stop s).inv = true := by rw [rampDone_eq]; exact hs
  obtain ⟨h2, hburn⟩ := counterBurned_onlyRegs h1 x
  obtain ⟨hrel, hrq, hre, hrc⟩ := releaseEnt_spec h2 e
  have hb := itemStep_backToQueue hrel.inv x
  have htx : (counterBurned x (rampDone e stop s)).txc = (rampDone e stop s).txc := by rw [hburn.1]
  have hent : (counterBurned x (rampDone e stop s)).ent e = x := by
    rw [ent_of_txc htx, ← hx, rampDone_eq]
    rfl
  rw [faultEnd_data hreq hk hn hi hg]
  refine ⟨?_, ?_, ?_, fun r hr he hd => ?_, fun hfc => ?_, ?_⟩
  · rw [hb.txc, hre, htx, rampDone_eq]
  · rw [hb.txc, hrel.txc, htx, rampDone_eq]
  · rw [hb.pwr, hrel.pwr, hburn.1, rampDone_eq, hx]
    rfl
  · rw [hb.txc, hrc, htx]
    exact List.mem_filter.mpr ⟨mem_rampDone_coex hr he hd, by simp⟩
  · rw [hb.rd (f := TXC_CNT_BURN.COUNT) (by decide), hrel.rd (f := TXC_CNT_BURN.COUNT) (by decide) (by unfold coexReg; decide),
      counterBurned_rd h1 hfc, rampDone_eq]
    rfl
  · refine que_backToQueue ?_ _
    rw [hrq, hent]
    exact que_freeCells (by rw [hburn.1, rampDone_eq]) _

/-- Settles O30: a fault begins the ramp-downs of its carriers, latches its chain unless it is one bad cell, and the end of a faulted ramp-down
gives everything back. -/
theorem faultsLatchTheirChain : Obligations.FaultsLatchTheirChain := by
  unfold Obligations.FaultsLatchTheirChain
  intro f s n h hn hents
  have hch : chained s := chained_of_listed fun p hp => (hents p hp).1
  refine ⟨fun hr => ?_, fun hp he => ?_, fun hp he => ?_, fun hp => ?_, fun e he hl hc hst hd hk hw ht => ?_,
    fun hr => ⟨fun hl hc => ?_, fun hx => ?_⟩, fun e he hx => ?_, fun e he hst hf hc => ?_, fun e hh hc at_ he hst hf hk hnode hitem hg hreq => ?_⟩
  · exact ⟨_, ranged_reaches hn hr _, faultChain_latched h hn (by decide) hch⟩
  · refine ⟨_, exec_chainFaultEvent hn s, ?_⟩
    rw [chainFaultEvent_enabled hp he]
    exact faultChain_latched (s := pulseTaken n s) h hn (by decide) hch
  · rw [exec_chainFaultEvent hn, chainFaultEvent_disabled hp he]
    rfl
  · exact (exec_chainFaultEvent hn s).trans (congrArg Host.Outcome.next (if_neg hp))
  · exact commit_latched h he hl hc hst hd hk hw ht
  · exact ⟨_, ranged_reaches hn hr _, faultClr_clear h hl hc⟩
  · exact (ranged_reaches hn hr _).trans (congrArg Host.Outcome.next (faultClr_ignored hx))
  · rw [exec_cellFault he, cellFault_none hx]
  · exact ⟨_, exec_cellFault he s, cellFault_spec h hn hst hf hc⟩
  · have hspec := faultEnd_spec (s := s.at_ at_) (e := e) (stop := at_) (inv_at h _) (at_ent s at_ e) (by rw [at_pwr]; exact hreq) hk hnode hitem hg
    have hburn : (s.at_ at_).rd TXC_CNT_BURN.COUNT = s.rd TXC_CNT_BURN.COUNT := at_rd h (by decide) _
    refine ⟨_, exec_rampDownEnd (by omega) s, ?_⟩
    rw [rampDownEnd_faulted hf hst]
    rw [at_txc, at_pwr, hburn] at hspec
    obtain ⟨hents, hcar, hheld, hcoex, hcount, hque⟩ := hspec
    exact ⟨hents, hcar, hheld, hcoex, hcount, hque.trans (que_backToQueue (que_freeCells (at_que s at_) _) _)⟩

end Sys2Proof.Machine

/-! The commit of a frame: its checks in their order, and what passing them holds (R26, R99, R110, R119-R121). -/

namespace Sys2Proof.Machine

/-! ## The checks -/

/-- An entry that is not to be decided, or not yet in its turn, goes on (R26, R119). -/
theorem exec_commit_none {s : State} {e : Nat} (he : e < 1056)
    (h : (s.ent e).st ∉ [1, 2, 3, 4, 5] ∨ (s.ent e).dead = true ∨ commitTurn e s = false) : exec (.commit e) s = .next s := by
  have hno : ¬((s.ent e).st ∈ [1, 2, 3, 4, 5] ∧ (!(s.ent e).dead) = true ∧ commitTurn e s = true) := fun ⟨h1, h2, h3⟩ => by
    rcases h with h | h | h
    · exact h h1
    · rw [h] at h2
      exact Bool.false_ne_true h2
    · rw [h] at h3
      exact Bool.false_ne_true h3
  have hex : execCommit e s = .next (commit e s) := if_pos (decide_eq_true he)
  exact hex.trans (congrArg Host.Outcome.next (if_neg hno))

/-- An entry that is not PRIMED misses with cause 1. -/
theorem commitChecks_unprimed {s : State} {e : Nat} (h : (s.ent e).st ≠ 5) : commitChecks e s = missEnt e 1 s := if_pos h

/-- What a PRIMED entry's carrier, where there is one, decides: its amplitude, then its leave (R119). -/
def carrierDecides (e : Nat) (s : State) (m : Option Nat) : State :=
  match m with
  | none => missEnt e 2 s
  | some m =>
    if s.rd (TXC_CH_BUDGET.AMP_MAX (s.ent e).chain) < ampSum s (s.ent e).chain + (s.ent e).amp then missEnt e 3 s
    else
      let r := s.commitLeave (s.ent e).part (commitAsks s (s.ent e) m)
      if r.2 then commitPass e m r.1 else missEnt e 4 r.1

section
variable {s : State} {e : Nat} (hst : (s.ent e).st = 5) (hu : chainUsable s (s.ent e).chain = true)
include hst hu

theorem commitChecks_usable : commitChecks e s = carrierDecides e s (freeCarrier s (s.ent e).chain) :=
  (if_neg (not_not.mpr hst)).trans (if_neg (by rw [hu]; decide))

theorem commitChecks_full (hm : freeCarrier s (s.ent e).chain = none) : commitChecks e s = missEnt e 2 s :=
  (commitChecks_usable hst hu).trans (congrArg (carrierDecides e s) hm)

theorem commitChecks_loud {m : Nat} (hm : freeCarrier s (s.ent e).chain = some m)
    (ha : s.rd (TXC_CH_BUDGET.AMP_MAX (s.ent e).chain) < ampSum s (s.ent e).chain + (s.ent e).amp) : commitChecks e s = missEnt e 3 s :=
  ((commitChecks_usable hst hu).trans (congrArg (carrierDecides e s) hm)).trans (if_pos ha)

theorem commitChecks_leave {m : Nat} (hm : freeCarrier s (s.ent e).chain = some m)
    (ha : ¬s.rd (TXC_CH_BUDGET.AMP_MAX (s.ent e).chain) < ampSum s (s.ent e).chain + (s.ent e).amp) {r : State × Bool}
    (hr : s.commitLeave (s.ent e).part (commitAsks s (s.ent e) m) = r) :
    commitChecks e s = if r.2 then commitPass e m r.1 else missEnt e 4 r.1 := by
  subst hr
  exact ((commitChecks_usable hst hu).trans (congrArg (carrierDecides e s) hm)).trans (if_neg ha)

theorem commitChecks_refused {m : Nat} {t : State} (hm : freeCarrier s (s.ent e).chain = some m)
    (ha : ¬s.rd (TXC_CH_BUDGET.AMP_MAX (s.ent e).chain) < ampSum s (s.ent e).chain + (s.ent e).amp)
    (hr : s.commitLeave (s.ent e).part (commitAsks s (s.ent e) m) = (t, false)) : commitChecks e s = missEnt e 4 t :=
  (commitChecks_leave hst hu hm ha hr).trans (if_neg Bool.false_ne_true)

theorem commitChecks_passed {m : Nat} {t : State} (hm : freeCarrier s (s.ent e).chain = some m)
    (ha : ¬s.rd (TXC_CH_BUDGET.AMP_MAX (s.ent e).chain) < ampSum s (s.ent e).chain + (s.ent e).amp)
    (hr : s.commitLeave (s.ent e).part (commitAsks s (s.ent e) m) = (t, true)) : commitChecks e s = commitPass e m t :=
  (commitChecks_leave hst hu hm ha hr).trans (if_pos rfl)

end

/-! ## The free carrier (R99) -/

/-- Carrier m of chain n is in use. -/
def carrierUsed (s : State) (n m : Nat) : Prop := ∃ c ∈ s.txc.carriers, c.chain = n ∧ c.idx = m

theorem carrierUsed_iff (s : State) (n m : Nat) : (chainCarriers s n).any (fun c => c.idx == m) = true ↔ carrierUsed s n m := by
  unfold chainCarriers carrierUsed
  simp only [List.any_eq_true, List.mem_filter, beq_iff_eq, and_assoc]

theorem freeCarrier_none {s : State} {n : Nat} (h : ∀ m, m < 16 → carrierUsed s n m) : freeCarrier s n = none := by
  refine List.find?_eq_none.mpr fun m hm => ?_
  rw [(carrierUsed_iff s n m).mpr (h m (List.mem_range.mp hm))]
  decide

theorem freeCarrier_lowest {s : State} {n m : Nat} (hm : m < 16) (hf : ¬carrierUsed s n m) (hl : ∀ k, k < m → carrierUsed s n k) :
    freeCarrier s n = some m := by
  have hfree : (chainCarriers s n).any (fun c => c.idx == m) = false := Bool.eq_false_iff.mpr fun h => hf ((carrierUsed_iff s n m).mp h)
  refine List.find?_range_eq_some.mpr ⟨by rw [hfree]; rfl, List.mem_range.mpr hm, fun k hk => ?_⟩
  rw [(carrierUsed_iff s n k).mpr (hl k hk)]
  rfl

/-! ## Leave of a commit (R120, R371, R372) -/

/-- What a commit asks for does not depend on the carrier it would take. -/
theorem commitAsks_sum (s : State) (x : Ent) (m : Nat) : ((commitAsks s x m).map (·.2)).sum = ((commitAsks s x 0).map (·.2)).sum := rfl

/-- Leave is refused by the trip, by the share or by the budget; the refusal is counted and nothing else changes. -/
theorem commitLeave_refused {s : State} {p : Nat} {asks : List (Holder × Nat)}
    (h : s.on PWR_TEMP_STS.TRIP = true ∨ s.leaveShare p (asks.map (·.2)).sum = false ∨ s.budgetNow < s.leaveUsed + (asks.map (·.2)).sum) :
    ∃ f ∈ [PWR_CNT_REFUSED.COUNT, PRT_PCNT.COUNT p 2], s.commitLeave p asks = (s.inc f, false) := by
  unfold State.commitLeave
  dsimp only
  by_cases ht : s.on PWR_TEMP_STS.TRIP = true
  · exact ⟨_, List.mem_cons_self, if_pos ht⟩
  · rw [if_neg ht]
    by_cases hs : s.leaveShare p (asks.map (·.2)).sum = true
    · have hb := (h.resolve_left ht).resolve_left (by rw [hs]; decide)
      rw [if_neg (by rw [hs]; decide), if_neg (Nat.not_le_of_lt hb)]
      exact ⟨_, List.mem_cons_self, rfl⟩
    · rw [if_pos (by rw [Bool.eq_false_iff.mpr hs]; rfl)]
      exact ⟨_, List.mem_cons_of_mem _ List.mem_cons_self, rfl⟩

/-- The state in which partition p holds leave as asked. -/
def leaveHeld (p : Nat) (asks : List (Holder × Nat)) (s : State) : State :=
  { s with pwr := { s.pwr with held := s.pwr.held ++ asks.map (fun h => ⟨h.1, p, h.2, false⟩) } }

theorem foldl_holdLeave (p : Nat) : ∀ (asks : List (Holder × Nat)) (s : State),
    asks.foldl (fun t h => t.holdLeave h.1 p h.2) s = leaveHeld p asks s
  | [], s => by
    unfold leaveHeld
    rw [List.map_nil, List.append_nil]
    rfl
  | h :: asks, s => by
    rw [List.foldl_cons, foldl_holdLeave p asks]
    unfold leaveHeld State.holdLeave
    rw [List.map_cons, List.append_assoc, List.singleton_append]

theorem leaveUsed_leaveHeld (p : Nat) (asks : List (Holder × Nat)) (s : State) :
    (leaveHeld p asks s).leaveUsed = s.leaveUsed + (asks.map (·.2)).sum := by
  unfold leaveHeld State.leaveUsed
  dsimp only
  rw [List.map_append, List.sum_append, List.map_map]
  rfl

/-- Leave that is granted is counted. -/
def leaveGranted (p : Nat) (asks : List (Holder × Nat)) (s : State) : State := (leaveHeld p asks s).inc PWR_CNT_GRANT.COUNT

theorem commitLeave_granted {s : State} {p : Nat} {asks : List (Holder × Nat)} (ht : s.on PWR_TEMP_STS.TRIP = false)
    (hs : s.leaveShare p (asks.map (·.2)).sum = true) (hb : s.leaveUsed + (asks.map (·.2)).sum ≤ s.budgetNow) :
    s.commitLeave p asks = (leaveGranted p asks s, true) := by
  unfold State.commitLeave
  dsimp only
  rw [if_neg (by rw [ht]; decide), if_neg (by rw [hs]; decide), if_pos hb, foldl_holdLeave]
  rfl

/-! ## A commit that passes -/

section
variable {s t : State} {as : List Nat} (a : onlyRegs s t as)
include a

theorem onlyRegs_txc : t.txc = s.txc := by rw [a.1]
theorem onlyRegs_pwr : t.pwr = s.pwr := by rw [a.1]
theorem onlyRegs_now : t.now = s.now := by rw [a.1]
theorem onlyRegs_atb : t.atb = s.atb := by rw [a.1]

end

/-- The entry is COMMITTED on its carrier, and its chain's hold ends. -/
def carrierTaken (e m : Nat) (s : State) : State :=
  let x := s.ent e
  let s1 := s.setEnt e { x with st := 6, carrier := m }
  { s1 with txc := { s1.txc with
    carriers := s1.txc.carriers ++ ([⟨x.chain, m, e, x.amp⟩] : List Carrier)
    idleAt := sdel s1.txc.idleAt x.chain } }

/-- A chain that is not in use wakes, to be ACTIVE within 640 ticks (R121). -/
def chainWoken (n : Nat) (s : State) : State :=
  if s.rd (TXC_CH_STS.STATE n) ∈ [2, 3] then s else
    { s.freed.wr (TXC_CH_STS.STATE n) 2 with txc := { s.txc with wakeAt := sput s.txc.wakeAt n (s.atb + s.freeVal 641) } }

/-- The counts of commits. -/
def commitCounted (n : Nat) (s : State) : State := (s.inc TXC_CNT_COMMIT.COUNT).inc (TXC_CH_CNT_COMMIT.COUNT n)

theorem commitPass_eq (e m : Nat) (s : State) :
    commitPass e m s = commitCounted (s.ent e).chain (openTxEn e (s.ent e) (chainWoken (s.ent e).chain (carrierTaken e m s))) := rfl

theorem carrierTaken_regs (e m : Nat) (s : State) : (carrierTaken e m s).regs = s.regs := rfl
theorem carrierTaken_carriers (e m : Nat) (s : State) :
    (carrierTaken e m s).txc.carriers = s.txc.carriers ++ ([⟨(s.ent e).chain, m, e, (s.ent e).amp⟩] : List Carrier) := rfl
theorem carrierTaken_ents (e m : Nat) (s : State) :
    (carrierTaken e m s).txc.ents = (s.setEnt e { s.ent e with st := 6, carrier := m }).txc.ents := rfl

theorem carrierTaken_ent (e m : Nat) (s : State) : (carrierTaken e m s).ent e = { s.ent e with st := 6, carrier := m } := by
  unfold State.ent
  rw [carrierTaken_ents]
  exact ent_setEnt_same s e (ent_ne_of_st (show 6 ≠ 0 by decide))

theorem carrierTaken_rd (e m : Nat) (s : State) (f : RegFld) : (carrierTaken e m s).rd f = s.rd f := by
  unfold State.rd State.reg
  rw [carrierTaken_regs]

theorem chainWoken_spec {s : State} (h : s.inv = true) (n : Nat) :
    let t := chainWoken n s
    t.inv = true ∧ t.txc = { s.txc with wakeAt := t.txc.wakeAt } ∧
      t.rd (TXC_CH_STS.STATE n) = (if s.rd (TXC_CH_STS.STATE n) = 3 then 3 else 2) ∧
      (s.rd (TXC_CH_STS.STATE n) ∉ [2, 3] → ∃ k, k ≤ 640 ∧ sfind t.txc.wakeAt n = some (s.atb + k)) ∧
      onlyRegs { s with txc := t.txc, free := t.free } t [TXC_CH_STS.reg n] := by
  by_cases hs : s.rd (TXC_CH_STS.STATE n) ∈ [2, 3]
  · have hdo : chainWoken n s = s := if_pos hs
    rw [hdo]
    refine ⟨h, rfl, ?_, fun hn => absurd hs hn, rfl, fun _ _ => rfl⟩
    simp only [List.mem_cons, List.not_mem_nil, or_false] at hs
    split <;> omega
  · have hdo : chainWoken n s =
      { s.freed.wr (TXC_CH_STS.STATE n) 2 with txc := { s.txc with wakeAt := sput s.txc.wakeAt n (s.atb + s.freeVal 641) } } := if_neg hs
    have hstate : (s.freed.wr (TXC_CH_STS.STATE n) 2).rd (TXC_CH_STS.STATE n) = 2 :=
      rd_wr_fits (s := s.freed) h (f := TXC_CH_STS.STATE n) (Nat.le_of_ble_eq_true rfl) (show 2 < 2 ^ 3 by decide)
    have hinv : (s.freed.wr (TXC_CH_STS.STATE n) 2).inv = true := inv_wr (s := s.freed) h _ _
    have hfree : s.freeVal 641 ≤ 640 := Nat.le_of_lt_succ (Nat.mod_lt _ (by decide))
    have hne : s.rd (TXC_CH_STS.STATE n) ≠ 3 := fun e => hs (by rw [e]; decide)
    rw [hdo, if_neg hne]
    exact ⟨hinv, rfl, hstate, fun _ => ⟨_, hfree, sfind_sput_same n _ _⟩, rfl,
      fun a ha => reg_wr_other s.freed _ _ a (List.ne_of_not_mem_cons ha) h⟩

/-- The registers of chain n that a commit writes lie apart from those of all chains. -/
theorem commitRegs_apart {n : Nat} : TXC_CNT_COMMIT.reg ≠ TXC_CH_STS.reg n ∧ TXC_CNT_COMMIT.reg ≠ TXC_CH_CNT_COMMIT.reg n ∧
    TXC_CH_STS.reg n ≠ TXC_CH_CNT_COMMIT.reg n := by
  unfold TXC_CNT_COMMIT.reg TXC_CH_STS.reg TXC_CH_CNT_COMMIT.reg
  omega

theorem commitCounted_spec {s : State} (h : s.inv = true) (n : Nat) :
    let t := commitCounted n s
    t.rd TXC_CNT_COMMIT.COUNT = min 0xFFFFFFFF (s.rd TXC_CNT_COMMIT.COUNT + 1) ∧
      t.rd (TXC_CH_CNT_COMMIT.COUNT n) = min 0xFFFFFFFF (s.rd (TXC_CH_CNT_COMMIT.COUNT n) + 1) ∧
      onlyRegs s t [TXC_CNT_COMMIT.reg, TXC_CH_CNT_COMMIT.reg n] := by
  have h1 := inv_inc h TXC_CNT_COMMIT.COUNT
  obtain ⟨-, hne, -⟩ := commitRegs_apart (n := n)
  refine ⟨(rd_wr_other _ _ _ _ hne h1).trans (rd_inc_same h (by decide)), ?_, onlyRegs_trans (inc_onlyRegs h _) (inc_onlyRegs h1 _)⟩
  refine (rd_inc_same h1 (f := TXC_CH_CNT_COMMIT.COUNT n) (Nat.le_of_ble_eq_true rfl)).trans ?_
  exact congrArg (fun k => min 0xFFFFFFFF (k + 1)) (rd_wr_other _ _ _ _ (Ne.symm hne) h)

theorem mem_openTxEn (e : Nat) (x : Ent) (s : State) : ∃ y ∈ (openTxEn e x s).txc.txens, y.chain = x.chain ∧ y.band = rateSlice x.rate ∧
    y.ent = e ∧ y.on = s.now + (x.air - x.tUp - x.lead - s.atb) ∧ y.off = s.now + (x.air + x.dur + x.tDown + x.lag - s.atb) :=
  ⟨_, List.mem_append_right _ List.mem_cons_self, rfl, rfl, rfl, rfl, rfl⟩

theorem openTxEn_frame (e : Nat) (x : Ent) (s : State) :
    openTxEn e x s = { s with txc := { s.txc with txens := (openTxEn e x s).txc.txens } } := rfl

/-- What passing the checks comes to (R99, R110, R119-R121). -/
theorem commitPass_spec {s : State} {e m : Nat} {x : Ent} (h : s.inv = true) (hx : s.ent e = x) :
    let t := commitPass e m s
    t.ent e = { x with st := 6, carrier := m } ∧ t.txc.carriers = s.txc.carriers ++ [(⟨x.chain, m, e, x.amp⟩ : Carrier)] ∧ t.pwr = s.pwr ∧
      (∃ y ∈ t.txc.txens, y.chain = x.chain ∧ y.band = rateSlice x.rate ∧ y.ent = e ∧ y.on = s.now + (x.air - x.tUp - x.lead - s.atb) ∧
        y.off = s.now + (x.air + x.dur + x.tDown + x.lag - s.atb)) ∧
      t.rd (TXC_CH_STS.STATE x.chain) = (if s.rd (TXC_CH_STS.STATE x.chain) = 3 then 3 else 2) ∧
      (s.rd (TXC_CH_STS.STATE x.chain) ∉ [2, 3] → ∃ k, k ≤ 640 ∧ sfind t.txc.wakeAt x.chain = some (s.atb + k)) ∧
      t.rd TXC_CNT_COMMIT.COUNT = min 0xFFFFFFFF (s.rd TXC_CNT_COMMIT.COUNT + 1) ∧
      t.rd (TXC_CH_CNT_COMMIT.COUNT x.chain) = min 0xFFFFFFFF (s.rd (TXC_CH_CNT_COMMIT.COUNT x.chain) + 1) ∧
      onlyRegs { s with txc := t.txc, free := t.free } t [TXC_CH_STS.reg x.chain, TXC_CNT_COMMIT.reg, TXC_CH_CNT_COMMIT.reg x.chain] := by
  subst hx
  have h1 : (carrierTaken e m s).inv = true := h
  obtain ⟨h2, htxc, hstate, hwake, hw⟩ := chainWoken_spec h1 (s.ent e).chain
  obtain ⟨hall, hone, hc⟩ := commitCounted_spec (s := openTxEn e (s.ent e) (chainWoken (s.ent e).chain (carrierTaken e m s))) h2 (s.ent e).chain
  obtain ⟨hne1, hne2, hne3⟩ := commitRegs_apart (n := (s.ent e).chain)
  rw [commitPass_eq]
  generalize hwo : chainWoken (s.ent e).chain (carrierTaken e m s) = w at *
  generalize hto : commitCounted (s.ent e).chain (openTxEn e (s.ent e) w) = t at *
  have htx : t.txc = (openTxEn e (s.ent e) w).txc := onlyRegs_txc hc
  have hwnow : w.now = s.now := (onlyRegs_now hw :)
  have hwatb : w.atb = s.atb := (onlyRegs_atb hw :)
  have hcount : ∀ f : RegFld, f.addr ≠ TXC_CH_STS.reg (s.ent e).chain → w.rd f = s.rd f := fun f hf =>
    (onlyRegs_rd hw (f := f) (by rwa [List.mem_singleton])).trans (carrierTaken_rd e m s f)
  have hkeep : t.rd (TXC_CH_STS.STATE (s.ent e).chain) = w.rd (TXC_CH_STS.STATE (s.ent e).chain) :=
    onlyRegs_rd hc (by simpa using ⟨Ne.symm hne1, hne3⟩)
  have hents : t.txc.ents = (carrierTaken e m s).txc.ents := by
    rw [htx, openTxEn_frame, htxc]
  refine ⟨?_, ?_, ?_, ?_, ?_, ?_, ?_, ?_, ?_⟩
  · exact (congrArg (fun l => sget (fun _ => ({} : Ent)) l e) hents).trans (carrierTaken_ent e m s)
  · rw [htx, openTxEn_frame, htxc]
    exact carrierTaken_carriers e m s
  · exact (onlyRegs_pwr hc).trans (onlyRegs_pwr hw :)
  · rw [htx, ← hwnow, ← hwatb]
    exact mem_openTxEn e (s.ent e) w
  · rw [hkeep, hstate, carrierTaken_rd]
  · intro hn
    rw [htx, openTxEn_frame]
    exact hwake (by rwa [carrierTaken_rd])
  · exact hall.trans (congrArg (fun k => min 0xFFFFFFFF (k + 1)) (hcount TXC_CNT_COMMIT.COUNT hne1))
  · exact hone.trans (congrArg (fun k => min 0xFFFFFFFF (k + 1)) (hcount (TXC_CH_CNT_COMMIT.COUNT _) (Ne.symm hne3)))
  · refine ⟨?_, fun a ha => ?_⟩
    · rw [hc.1, openTxEn_frame, hw.1]
      rfl
    · simp only [List.mem_cons, List.not_mem_nil, or_false, not_or] at ha
      exact (hc.2 a (by simpa using ha.2)).trans (hw.2 a (by simpa using ha.1))

/-! ## What a commit comes to -/

theorem commitLeave_regs_apart {p : Nat} {f : RegFld} (hf : f ∈ [PWR_CNT_REFUSED.COUNT, PRT_PCNT.COUNT p 2]) :
    TXC_MISS_CNT.reg 3 ≠ f.addr := by
  simp only [List.mem_cons, List.not_mem_nil, or_false] at hf
  rcases hf with rfl | rfl
  · decide
  · show 0x300080 + 4 * 3 ≠ 0x704000 + 0x10 * p + 4 * 2
    omega

theorem inc_ent (s : State) (f : RegFld) (e : Nat) : (s.inc f).ent e = s.ent e := ent_of_txc (by rw [inc_txc]) e

/-- A data frame whose leave is refused misses its window with cause 4 (R120). -/
theorem missed_refused {s : State} {e p : Nat} {f : RegFld} (h : s.inv = true) (he : e < 1024) (hk : (s.ent e).kind = 0)
    (hw : (s.ent e).wuf = false) (hst : (s.ent e).st ≠ 2) (hf : f ∈ [PWR_CNT_REFUSED.COUNT, PRT_PCNT.COUNT p 2]) :
    missed s (missEnt e 4 (s.inc f)) e 4 := by
  have hent := inc_ent s f e
  refine missed_of_same (s := s.inc f) (by rw [inc_txc]) (by rw [inc_que]) (rd_wr_other s f _ _ (commitLeave_regs_apart hf) h) ?_
  exact missEnt_missed (inv_inc h f) he (by decide) (by decide) ((congrArg Ent.kind hent).trans hk) ((congrArg Ent.wuf hent).trans hw)
    (fun h2 => hst ((congrArg Ent.st hent).symm.trans h2))

theorem leaveGranted_onlyRegs {s : State} (h : s.inv = true) (p : Nat) (asks : List (Holder × Nat)) :
    onlyRegs { s with pwr := (leaveGranted p asks s).pwr } (leaveGranted p asks s) [PWR_CNT_GRANT.reg] :=
  inc_onlyRegs (s := leaveHeld p asks s) h PWR_CNT_GRANT.COUNT

theorem leaveGranted_ent (s : State) (p : Nat) (asks : List (Holder × Nat)) (e : Nat) : (leaveGranted p asks s).ent e = s.ent e :=
  ent_of_txc (by unfold leaveGranted leaveHeld; rw [inc_txc]) e

/-- A frame that passes all checks holds its carrier and its leave (R99, R110, R119-R121). -/
theorem commitPass_granted {s : State} {e m p : Nat} {asks : List (Holder × Nat)} {x : Ent} (h : s.inv = true) (hx : s.ent e = x) :
    let t := commitPass e m (leaveGranted p asks s)
    t.ent e = { x with st := 6, carrier := m } ∧ t.txc.carriers = s.txc.carriers ++ [(⟨x.chain, m, e, x.amp⟩ : Carrier)] ∧
      t.leaveUsed = s.leaveUsed + (asks.map (·.2)).sum ∧
      (∃ y ∈ t.txc.txens, y.chain = x.chain ∧ y.band = rateSlice x.rate ∧ y.ent = e ∧ y.on = s.now + (x.air - x.tUp - x.lead - s.atb) ∧
        y.off = s.now + (x.air + x.dur + x.tDown + x.lag - s.atb)) ∧
      t.rd (TXC_CH_STS.STATE x.chain) = (if s.rd (TXC_CH_STS.STATE x.chain) = 3 then 3 else 2) ∧
      (s.rd (TXC_CH_STS.STATE x.chain) ∉ [2, 3] → ∃ k, k ≤ 640 ∧ sfind t.txc.wakeAt x.chain = some (s.atb + k)) ∧
      t.rd TXC_CNT_COMMIT.COUNT = min 0xFFFFFFFF (s.rd TXC_CNT_COMMIT.COUNT + 1) ∧
      t.rd (TXC_CH_CNT_COMMIT.COUNT x.chain) = min 0xFFFFFFFF (s.rd (TXC_CH_CNT_COMMIT.COUNT x.chain) + 1) ∧
      onlyRegs { s with txc := t.txc, pwr := t.pwr, free := t.free } t
        [TXC_CH_STS.reg x.chain, TXC_CNT_COMMIT.reg, TXC_CH_CNT_COMMIT.reg x.chain, PWR_CNT_GRANT.reg] := by
  have hg := leaveGranted_onlyRegs h p asks
  have hgi : (leaveGranted p asks s).inv = true := inv_inc (s := leaveHeld p asks s) h _
  have hrd : ∀ f : RegFld, 0x300000 ≤ f.addr → (leaveGranted p asks s).rd f = s.rd f := fun f hf =>
    onlyRegs_rd hg (by rw [List.mem_singleton]; exact Nat.ne_of_gt (Nat.lt_of_lt_of_le (by decide) hf))
  have hhigh : 0x300000 ≤ TXC_CH_STS.reg x.chain ∧ 0x300000 ≤ TXC_CH_CNT_COMMIT.reg x.chain := by
    unfold TXC_CH_STS.reg TXC_CH_CNT_COMMIT.reg
    omega
  have htxc : (leaveGranted p asks s).txc = s.txc := (onlyRegs_txc hg :)
  have hnow : (leaveGranted p asks s).now = s.now := (onlyRegs_now hg :)
  have hatb : (leaveGranted p asks s).atb = s.atb := (onlyRegs_atb hg :)
  have hspec := commitPass_spec (m := m) hgi ((leaveGranted_ent s p asks e).trans hx)
  rw [hrd (TXC_CH_STS.STATE x.chain) hhigh.1, hrd TXC_CNT_COMMIT.COUNT (by decide), hrd (TXC_CH_CNT_COMMIT.COUNT x.chain) hhigh.2] at hspec
  rw [htxc, hnow, hatb] at hspec
  obtain ⟨hent, hcar, hpwr, hen, hstate, hwake, hall, hone, ho⟩ := hspec
  refine ⟨hent, hcar, ?_, hen, hstate, hwake, hall, hone, ?_, fun a ha => ?_⟩
  · unfold State.leaveUsed
    rw [hpwr]
    exact leaveUsed_leaveHeld p asks s
  · rw [ho.1, hg.1]
  · simp only [List.mem_cons, List.not_mem_nil, or_false, not_or] at ha
    obtain ⟨h1, h2, h3, h4⟩ := ha
    exact (ho.2 a (by simpa using ⟨h1, h2, h3⟩)).trans (hg.2 a (by simpa using h4))

end Sys2Proof.Machine

/-! The ramp-up of a committed frame (R112, R121, R157, R187). -/

namespace Sys2Proof.Machine

/-! ## Attempts of an item -/

/-- An item header field that is written to something reads as it was written. -/
theorem ih_ihPut_same (s : State) (hc : Nat) {f : Fld} {v : Nat} (hf : f.lo + f.w ≤ 512) (hv : v < 2 ^ f.w) (h0 : v ≠ 0) :
    (s.ihPut hc f v).ih hc f = v := by
  have hput : f.of (f.put (s.cell hc).data v) = v := (bf_bfSet_same _ _ _ _ hf).trans (Nat.mod_eq_of_lt hv)
  have hne : ({ s.cell hc with data := f.put (s.cell hc).data v } : FCell) ≠ {} := fun e => by
    have hd : f.put (s.cell hc).data v = 0#512 := congrArg FCell.data e
    rw [hd] at hput
    refine h0 (hput.symm.trans ?_)
    unfold Fld.of bf
    rw [BitVec.toNat_zero, Nat.zero_div, Nat.zero_mod]
  unfold State.ihPut State.ih
  rw [cell_setCell_same s hc hne]
  exact hput

theorem ihPut_frame (s : State) (hc : Nat) (f : Fld) (v : Nat) : s.ihPut hc f v = { s with que := (s.ihPut hc f v).que } := rfl
theorem ihPut_tries (s : State) (hc : Nat) (f : Fld) (v : Nat) : (s.ihPut hc f v).que.tries = s.que.tries := rfl
theorem ihPut_airs (s : State) (hc : Nat) (f : Fld) (v : Nat) : (s.ihPut hc f v).que.airs = s.que.airs := rfl

/-- An item's n-th attempt and its air time are kept beside its cells. -/
def attemptNoted (hc air n : Nat) (s : State) : State :=
  { s with que := { s.que with airs := sset (fun _ => 0) s.que.airs hc air, tries := sset (fun _ => 0) s.que.tries hc n } }

theorem attemptNoted_ih (hc air n : Nat) (s : State) (f : Fld) : (attemptNoted hc air n s).ih hc f = s.ih hc f := rfl
theorem attemptNoted_tries (hc air n : Nat) (s : State) : (attemptNoted hc air n s).que.tries = sset (fun _ => 0) s.que.tries hc n := rfl
theorem attemptNoted_airs (hc air n : Nat) (s : State) : (attemptNoted hc air n s).que.airs = sset (fun _ => 0) s.que.airs hc air := rfl
theorem attemptNoted_frame (hc air n : Nat) (s : State) : attemptNoted hc air n s = { s with que := (attemptNoted hc air n s).que } := rfl

theorem countAttempt_eq (hc air : Nat) (s : State) :
    countAttempt hc air s = attemptNoted hc air (triesOf s hc + 1) (s.ihPut hc IH.ATTEMPTS (min 15 (triesOf s hc + 1))) := by
  unfold countAttempt attemptNoted
  rfl

/-- An attempt begins: its item's count, of four bits in the header, and its last air time follow, and nothing else (R157, R187). -/
theorem countAttempt_spec (hc air : Nat) (s : State) :
    let t := countAttempt hc air s
    t.ih hc IH.ATTEMPTS = min 15 (triesOf s hc + 1) ∧ t.que.tries = sset (fun _ => 0) s.que.tries hc (triesOf s hc + 1) ∧
      t.que.airs = sset (fun _ => 0) s.que.airs hc air ∧ t = { s with que := t.que } := by
  have hput := ih_ihPut_same s hc (f := IH.ATTEMPTS) (v := min 15 (triesOf s hc + 1)) (by decide)
    (Nat.lt_of_le_of_lt (Nat.min_le_left _ _) (by decide)) (by omega)
  rw [countAttempt_eq]
  refine ⟨(attemptNoted_ih _ _ _ _ _).trans hput, ?_, ?_, ?_⟩
  · rw [attemptNoted_tries, ihPut_tries]
  · rw [attemptNoted_airs, ihPut_airs]
  · rw [attemptNoted_frame, ihPut_frame]

/-! ## The ramp-up -/

/-- The entry is ON_AIR on a chain that is ACTIVE, and its frame is handed to the air. -/
def aired (e : Nat) (s : State) : State :=
  let x := s.ent e
  let s2 := s.setEnt e { x with st := 7 }
  (s2.wr (TXC_CH_STS.STATE x.chain) (if s2.rd (TXC_CH_STS.STATE x.chain) = 4 then 4 else 3)).post (.air x.chain x.carrier x.air x.freq x.psdu)

/-- A data frame of the item that a wake-up sequence announces goes out as the same attempt. -/
def announced (hc : Nat) (y : Ent) : Ent := if y.item = some hc ∧ (y.kind = 0 ∨ y.kind = 4) then { y with wuf := true } else y

/-- A wake-up sequence is on the air: its payload's attempt has begun. -/
def payloadAnnounced (hc : Nat) (s : State) : State :=
  { s with txc := { s.txc with ents := s.txc.ents.map (fun p =>
      if p.2.item = some hc ∧ (p.2.kind = 0 ∨ p.2.kind = 4) then (p.1, { p.2 with wuf := true }) else p) } }

/-- What the kind of a frame brings when it is on the air: an acknowledgement is counted, an attempt of an item begins. -/
def attemptBegun (x : Ent) (s : State) : State :=
  match x.kind, x.item with
  | 1, _ => (s.inc TXC_CNT_ACK.COUNT).inc (LNK_PCNT.COUNT x.part 2)
  | 2, _ => s.inc TXC_CNT_ACK.COUNT
  | 3, some hc => countAttempt hc x.air (payloadAnnounced hc s)
  | _, some hc => if x.wuf then s else countAttempt hc x.air s
  | _, none => s

theorem rampUp_taken {s : State} {e : Nat} (hst : (s.ent e).st = 6) (hf : (s.ent e).fault = none) :
    rampUp e s = attemptBegun (s.ent e) (aired e (s.at_ ((s.ent e).air - (s.ent e).tUp))) := by
  have hent := at_ent s ((s.ent e).air - (s.ent e).tUp) e
  have hdo : rampUp e s = attemptBegun ((s.at_ ((s.ent e).air - (s.ent e).tUp)).ent e) (aired e (s.at_ ((s.ent e).air - (s.ent e).tUp))) :=
    if_pos ⟨hst, hf⟩
  rw [hdo, hent]

theorem rampUp_none {s : State} {e : Nat} (h : (s.ent e).st ≠ 6 ∨ (s.ent e).fault ≠ none) : rampUp e s = s := if_neg (not_and_or.mpr h)

theorem exec_rampUp {e : Nat} (he : e < 1056) (s : State) : exec (.rampUp e) s = .next (rampUp e s) := if_pos (decide_eq_true he)

theorem aired_txc (e : Nat) (s : State) : (aired e s).txc = (s.setEnt e { s.ent e with st := 7 }).txc := rfl
theorem aired_que (e : Nat) (s : State) : (aired e s).que = s.que := rfl
theorem aired_posted (e : Nat) (s : State) : (aired e s).posted =
    s.posted ++ [Posted.air (s.ent e).chain (s.ent e).carrier (s.ent e).air (s.ent e).freq (s.ent e).psdu] := rfl

theorem aired_ent (e : Nat) (s : State) : (aired e s).ent e = { s.ent e with st := 7 } := by
  rw [ent_of_txc (aired_txc e s)]
  exact ent_setEnt_same s e (ent_ne_of_st (show 7 ≠ 0 by decide))

theorem aired_regs (e : Nat) (s : State) : (aired e s).regs =
    (s.wr (TXC_CH_STS.STATE (s.ent e).chain) (if s.rd (TXC_CH_STS.STATE (s.ent e).chain) = 4 then 4 else 3)).regs := rfl
theorem aired_frame (e : Nat) (s : State) :
    aired e s = { s with regs := (aired e s).regs, txc := (aired e s).txc, posted := (aired e s).posted } := rfl

theorem inv_aired {s : State} (h : s.inv = true) (e : Nat) : (aired e s).inv = true :=
  inv_wr (s := s.setEnt e { s.ent e with st := 7 }) h (TXC_CH_STS.STATE (s.ent e).chain)
    (if s.rd (TXC_CH_STS.STATE (s.ent e).chain) = 4 then 4 else 3)

theorem aired_reg (e : Nat) (s : State) (a : Nat) : (aired e s).reg a =
    (s.wr (TXC_CH_STS.STATE (s.ent e).chain) (if s.rd (TXC_CH_STS.STATE (s.ent e).chain) = 4 then 4 else 3)).reg a := by
  unfold State.reg
  rw [aired_regs]

theorem aired_spec {s : State} (h : s.inv = true) (e : Nat) :
    (aired e s).rd (TXC_CH_STS.STATE (s.ent e).chain) = (if s.rd (TXC_CH_STS.STATE (s.ent e).chain) = 4 then 4 else 3) ∧
      onlyRegs { s with txc := (aired e s).txc, posted := (aired e s).posted } (aired e s) [TXC_CH_STS.reg (s.ent e).chain] := by
  have hv : (if s.rd (TXC_CH_STS.STATE (s.ent e).chain) = 4 then 4 else 3) < 2 ^ 3 := by split <;> decide
  refine ⟨?_, aired_frame e s, fun a ha => ?_⟩
  · exact (rd_of_reg (aired_reg e s _)).trans (rd_wr_fits h (f := TXC_CH_STS.STATE (s.ent e).chain) (Nat.le_of_ble_eq_true rfl) hv)
  · exact (aired_reg e s a).trans (reg_wr_other _ _ _ a (List.ne_of_not_mem_cons ha) h)

/-! ## What each kind brings -/

theorem payloadAnnounced_ents (hc : Nat) (s : State) : (payloadAnnounced hc s).txc.ents = s.txc.ents.map (fun p => (p.1, announced hc p.2)) := by
  refine List.map_congr_left fun p _ => ?_
  unfold announced
  split <;> rfl

theorem announced_st (hc : Nat) (y : Ent) : (announced hc y).st = y.st := by
  unfold announced
  split <;> rfl

theorem announced_wuf {hc : Nat} {y : Ent} (hi : (announced hc y).item = some hc) (hk : (announced hc y).kind = 0 ∨ (announced hc y).kind = 4) :
    (announced hc y).wuf = true := by
  unfold announced at *
  split
  · rfl
  · next hno =>
    rw [if_neg hno] at hi hk
    exact absurd ⟨hi, hk⟩ hno

/-- A change of every value that keeps the default's property keeps it of every key. -/
theorem sget_map {α β : Type} (g : α → α) (r : α → β) (hr : ∀ a, r (g a) = r a) (d : Nat → α) (k : Nat) :
    ∀ m : Sparse α, r (sget d (m.map (fun p => (p.1, g p.2))) k) = r (sget d m k)
  | [] => rfl
  | p :: m => by
    simp only [List.map_cons, sget]
    split
    · exact hr _
    · split
      · rfl
      · exact sget_map g r hr d k m

theorem payloadAnnounced_st (hc e : Nat) (s : State) : ((payloadAnnounced hc s).ent e).st = (s.ent e).st := by
  unfold State.ent
  rw [payloadAnnounced_ents]
  exact sget_map (announced hc) Ent.st (announced_st hc) _ e _

/-- Entry e stands where it stood, and so do chain n's state and what was handed to the air. -/
structure StaysAired (e n : Nat) (s t : State) : Prop where
  inv : t.inv = true
  st : (t.ent e).st = (s.ent e).st
  posted : t.posted = s.posted
  state : t.rd (TXC_CH_STS.STATE n) = s.rd (TXC_CH_STS.STATE n)

theorem StaysAired.trans {e n : Nat} {s t u : State} (a : StaysAired e n s t) (b : StaysAired e n t u) : StaysAired e n s u :=
  ⟨b.inv, b.st.trans a.st, b.posted.trans a.posted, b.state.trans a.state⟩

theorem staysAired_inc {s : State} (h : s.inv = true) (e : Nat) {n : Nat} {f : RegFld} (hf : TXC_CH_STS.reg n ≠ f.addr) :
    StaysAired e n s (s.inc f) :=
  ⟨inv_inc h f, congrArg Ent.st (inc_ent s f e), inc_posted s f, rd_wr_other s f _ _ hf h⟩

theorem staysAired_que {s : State} (h : s.inv = true) (e n : Nat) (q : Que) : StaysAired e n s { s with que := q } := ⟨h, rfl, rfl, rfl⟩

theorem staysAired_countAttempt {s : State} (h : s.inv = true) (e n hc air : Nat) : StaysAired e n s (countAttempt hc air s) := by
  obtain ⟨-, -, -, hframe⟩ := countAttempt_spec hc air s
  rw [hframe]
  exact staysAired_que h e n _

theorem staysAired_payloadAnnounced {s : State} (h : s.inv = true) (e n hc : Nat) : StaysAired e n s (payloadAnnounced hc s) :=
  ⟨h, payloadAnnounced_st hc e s, rfl, rfl⟩

/-- Whatever its kind, a frame on the air keeps its entry ON_AIR, its chain's state and what was handed to the air. -/
theorem attemptBegun_keeps {s : State} (h : s.inv = true) (x : Ent) (e : Nat) {n : Nat} (hn : n < 8) : StaysAired e n s (attemptBegun x s) := by
  have hack : TXC_CH_STS.reg n ≠ TXC_CNT_ACK.reg := by unfold TXC_CH_STS.reg TXC_CNT_ACK.reg; omega
  have hlnk : TXC_CH_STS.reg n ≠ LNK_PCNT.reg x.part 2 := by unfold TXC_CH_STS.reg LNK_PCNT.reg; omega
  have a := staysAired_inc h e (f := TXC_CNT_ACK.COUNT) hack
  unfold attemptBegun
  split
  · exact a.trans (staysAired_inc a.inv e (f := LNK_PCNT.COUNT x.part 2) hlnk)
  · exact a
  · next hc _ _ =>
    have b := staysAired_payloadAnnounced h e n hc
    exact b.trans (staysAired_countAttempt b.inv e n hc _)
  · split
    · exact ⟨h, rfl, rfl, rfl⟩
    · exact staysAired_countAttempt h e n _ _
  · exact ⟨h, rfl, rfl, rfl⟩

section
variable {x : Ent} (s : State) {hc : Nat}

theorem attemptBegun_data (hk : x.kind = 0 ∨ x.kind = 4) (hi : x.item = some hc) (hw : x.wuf = false) :
    attemptBegun x s = countAttempt hc x.air s := by
  have hno : ¬x.wuf = true := by rw [hw]; decide
  unfold attemptBegun
  rw [hi]
  rcases hk with hk | hk <;> rw [hk] <;> exact if_neg hno

theorem attemptBegun_same (hk : x.kind = 0 ∨ x.kind = 4) (hw : x.wuf = true ∨ x.item = none) : attemptBegun x s = s := by
  unfold attemptBegun
  cases hi : x.item with
  | none => rcases hk with hk | hk <;> rw [hk] <;> rfl
  | some hc =>
    have hyes : x.wuf = true := hw.resolve_right (by rw [hi]; exact Option.some_ne_none hc)
    rcases hk with hk | hk <;> rw [hk] <;> exact if_pos hyes

theorem attemptBegun_wuf (hk : x.kind = 3) (hi : x.item = some hc) :
    attemptBegun x s = countAttempt hc x.air (payloadAnnounced hc s) := by
  unfold attemptBegun
  rw [hk, hi]
  rfl

theorem attemptBegun_ack (hk : x.kind = 1) : attemptBegun x s = (s.inc TXC_CNT_ACK.COUNT).inc (LNK_PCNT.COUNT x.part 2) := by
  unfold attemptBegun
  rw [hk]
  rfl

theorem attemptBegun_clear (hk : x.kind = 2) : attemptBegun x s = s.inc TXC_CNT_ACK.COUNT := by
  unfold attemptBegun
  rw [hk]
  rfl

end

/-! ## What the ramp-up comes to -/

theorem triesOf_of_que {s t : State} (h : s.que = t.que) (hc : Nat) : triesOf s hc = triesOf t hc := by
  unfold triesOf
  rw [h]

/-- What an attempt changes of the fabric adds to what handing the frame to the air changes. -/
theorem onlyRegs_putQue {s a : State} {as : List Nat} (h : onlyRegs { s with txc := a.txc, posted := a.posted } a as) (q : Que) :
    onlyRegs { s with txc := a.txc, que := q, posted := a.posted } { a with que := q } as := by
  obtain ⟨hframe, hreg⟩ := h
  exact ⟨by rw [hframe], hreg⟩

/-- A data frame on the air: its attempt is counted, and nothing else of the fabric or of the registers changes (R157, R187). -/
theorem attemptBegun_data_spec {s : State} {x : Ent} {e hc : Nat} (h : s.inv = true) (hx : s.ent e = x) (hk : x.kind = 0 ∨ x.kind = 4)
    (hi : x.item = some hc) (hw : x.wuf = false) :
    let t := attemptBegun x (aired e s)
    t.ih hc IH.ATTEMPTS = min 15 (triesOf s hc + 1) ∧ t.que.tries = sset (fun _ => 0) s.que.tries hc (triesOf s hc + 1) ∧
      t.que.airs = sset (fun _ => 0) s.que.airs hc x.air ∧
      onlyRegs { s with txc := t.txc, que := t.que, posted := t.posted } t [TXC_CH_STS.reg x.chain] := by
  subst hx
  obtain ⟨-, ho⟩ := aired_spec h e
  obtain ⟨hih, htries, hairs, hframe⟩ := countAttempt_spec hc (s.ent e).air (aired e s)
  rw [attemptBegun_data _ hk hi hw]
  rw [triesOf_of_que (aired_que e s), aired_que] at htries
  rw [triesOf_of_que (aired_que e s)] at hih
  rw [aired_que] at hairs
  refine ⟨hih, htries, hairs, ?_⟩
  rw [hframe]
  exact onlyRegs_putQue ho _

/-- A wake-up sequence on the air is its payload's attempt (R157). -/
theorem attemptBegun_wuf_spec {s : State} {x : Ent} {hc : Nat} (hk : x.kind = 3) (hi : x.item = some hc) :
    let t := attemptBegun x s
    t.ih hc IH.ATTEMPTS = min 15 (triesOf s hc + 1) ∧
      ∀ p ∈ t.txc.ents, p.2.item = some hc → p.2.kind = 0 ∨ p.2.kind = 4 → p.2.wuf = true := by
  obtain ⟨hih, -, -, hframe⟩ := countAttempt_spec hc x.air (payloadAnnounced hc s)
  rw [attemptBegun_wuf s hk hi]
  refine ⟨hih, fun p hp hpi hpk => ?_⟩
  rw [hframe, payloadAnnounced_ents] at hp
  obtain ⟨y, -, rfl⟩ := List.mem_map.mp hp
  exact announced_wuf hpi hpk

/-- An acknowledgement on the air is counted, for the device and for its partition. -/
theorem attemptBegun_ack_spec {s : State} {x : Ent} (h : s.inv = true) (hk : x.kind = 1) :
    let t := attemptBegun x s
    t.rd TXC_CNT_ACK.COUNT = min 0xFFFFFFFF (s.rd TXC_CNT_ACK.COUNT + 1) ∧
      t.rd (LNK_PCNT.COUNT x.part 2) = min 0xFFFFFFFF (s.rd (LNK_PCNT.COUNT x.part 2) + 1) ∧ t.que = s.que := by
  have h1 := inv_inc h TXC_CNT_ACK.COUNT
  have hne : TXC_CNT_ACK.reg ≠ LNK_PCNT.reg x.part 2 := by unfold TXC_CNT_ACK.reg LNK_PCNT.reg; omega
  rw [attemptBegun_ack s hk]
  refine ⟨(rd_wr_other _ _ _ _ hne h1).trans (rd_inc_same h (by decide)), ?_, ?_⟩
  · refine (rd_inc_same h1 (f := LNK_PCNT.COUNT x.part 2) (Nat.le_of_ble_eq_true rfl)).trans ?_
    exact congrArg (fun k => min 0xFFFFFFFF (k + 1)) (rd_wr_other _ _ _ _ (Ne.symm hne) h)
  · rw [inc_que, inc_que]

/-- The registers other than the chain's state read on the air as before it. -/
theorem aired_rd {s : State} (h : s.inv = true) (e : Nat) {f : RegFld} (hf : f.addr ≠ TXC_CH_STS.reg (s.ent e).chain) : (aired e s).rd f = s.rd f :=
  onlyRegs_rd (aired_spec h e).2 (by rwa [List.mem_singleton])

/-- What a ramp-up comes to, by the kind of its frame (R112, R121, R157). -/
theorem rampUp_spec {s : State} {e : Nat} {x : Ent} (h : s.inv = true) (hx : s.ent e = x) (hn : x.chain < 8) :
    let t := attemptBegun x (aired e s)
    (t.ent e).st = 7 ∧ t.rd (TXC_CH_STS.STATE x.chain) = (if s.rd (TXC_CH_STS.STATE x.chain) = 4 then 4 else 3) ∧
      t.posted = s.posted ++ [Posted.air x.chain x.carrier x.air x.freq x.psdu] ∧
      (x.kind = 0 ∨ x.kind = 4 → x.wuf = true ∨ x.item = none → t.que = s.que) ∧
      (∀ hc, x.kind = 3 → x.item = some hc → t.ih hc IH.ATTEMPTS = min 15 (triesOf s hc + 1) ∧
        ∀ p ∈ t.txc.ents, p.2.item = some hc → p.2.kind = 0 ∨ p.2.kind = 4 → p.2.wuf = true) ∧
      (x.kind = 1 → t.rd TXC_CNT_ACK.COUNT = min 0xFFFFFFFF (s.rd TXC_CNT_ACK.COUNT + 1) ∧
        t.rd (LNK_PCNT.COUNT x.part 2) = min 0xFFFFFFFF (s.rd (LNK_PCNT.COUNT x.part 2) + 1) ∧ t.que = s.que) ∧
      (x.kind = 2 → t.rd TXC_CNT_ACK.COUNT = min 0xFFFFFFFF (s.rd TXC_CNT_ACK.COUNT + 1) ∧ t.que = s.que) := by
  subst hx
  have hi := inv_aired h e
  have a := attemptBegun_keeps hi (s.ent e) e hn
  have hlnk : LNK_PCNT.reg (s.ent e).part 2 ≠ TXC_CH_STS.reg (s.ent e).chain := by unfold LNK_PCNT.reg TXC_CH_STS.reg; omega
  have hack : TXC_CNT_ACK.reg ≠ TXC_CH_STS.reg (s.ent e).chain := by unfold TXC_CNT_ACK.reg TXC_CH_STS.reg; omega
  have hq := aired_que e s
  have hall := aired_rd h e (f := TXC_CNT_ACK.COUNT) hack
  have hone := aired_rd h e (f := LNK_PCNT.COUNT (s.ent e).part 2) hlnk
  refine ⟨a.st.trans (congrArg Ent.st (aired_ent e s)), a.state.trans (aired_spec h e).1, a.posted.trans (aired_posted e s), fun hk hw => ?_,
    fun hc hk hitem => ?_, fun hk => ?_, fun hk => ?_⟩
  · rw [attemptBegun_same _ hk hw, hq]
  · obtain ⟨hih, hents⟩ := attemptBegun_wuf_spec (s := aired e s) hk hitem
    exact ⟨hih.trans (congrArg (fun n => min 15 (n + 1)) (triesOf_of_que hq hc)), hents⟩
  · obtain ⟨h1, h2, h3⟩ := attemptBegun_ack_spec hi hk
    exact ⟨h1.trans (congrArg (fun k => min 0xFFFFFFFF (k + 1)) hall), h2.trans (congrArg (fun k => min 0xFFFFFFFF (k + 1)) hone), h3.trans hq⟩
  · rw [attemptBegun_clear _ hk]
    refine ⟨(rd_inc_same hi (f := TXC_CNT_ACK.COUNT) (by decide)).trans (congrArg (fun k => min 0xFFFFFFFF (k + 1)) hall), ?_⟩
    rw [inc_que, hq]

end Sys2Proof.Machine

/-! The end of a frame's ramp-down, and of a chain's hold (R112, R117, R121, R132, R139, R360, R361). -/

namespace Sys2Proof.Machine

/-! ## An entry to WATCH that completes with the last carrier (R361) -/

/-- What entering a power state changes: search, the power domain, and registers other than those of the transmit block below its chains. -/
structure WatchStep (s t : State) : Prop where
  inv : t.inv = true
  frame : t = { s with regs := t.regs, vregs := t.vregs, posted := t.posted, evr := t.evr, free := t.free, lanes := t.lanes, cnp := t.cnp,
                       pwr := t.pwr }
  reg : ∀ a, 0x300000 ≤ a → a < 0x302000 → t.reg a = s.reg a

theorem WatchStep.refl {s : State} (h : s.inv = true) : WatchStep s s := ⟨h, rfl, fun _ _ _ => rfl⟩

theorem WatchStep.trans {s t u : State} (a : WatchStep s t) (b : WatchStep t u) : WatchStep s u where
  inv := b.inv
  frame := by rw [b.frame, a.frame]
  reg x hx hy := (b.reg x hx hy).trans (a.reg x hx hy)

theorem WatchStep.txc {s t : State} (a : WatchStep s t) : t.txc = s.txc := by rw [a.frame]

theorem WatchStep.foldl {α : Type} {f : State → α → State} (hf : ∀ u x, u.inv = true → WatchStep u (f u x)) :
    ∀ (l : List α) {s : State}, s.inv = true → WatchStep s (l.foldl f s)
  | [], _, h => .refl h
  | x :: l, s, h => (hf s x h).trans (WatchStep.foldl hf l (hf s x h).inv)

theorem watchStep_wr {s : State} (h : s.inv = true) {f : RegFld} (hf : f.addr < 0x300000 ∨ 0x302000 ≤ f.addr) (v : Nat) :
    WatchStep s (s.wr f v) :=
  ⟨inv_wr h f v, rfl, fun a ha hb => reg_wr_other s f v a (fun e => by omega) h⟩

theorem watchStep_cnp {s : State} (h : s.inv = true) (c : Cnp) : WatchStep s { s with cnp := c } := ⟨h, rfl, fun _ _ _ => rfl⟩
theorem watchStep_lanes {s : State} (h : s.inv = true) (l : Sparse Lane) : WatchStep s { s with lanes := l } := ⟨h, rfl, fun _ _ _ => rfl⟩
theorem watchStep_pwr {s : State} (h : s.inv = true) (p : Pwr) : WatchStep s { s with pwr := p } := ⟨h, rfl, fun _ _ _ => rfl⟩

theorem watchStep_returnLeave {s : State} (h : s.inv = true) (who : Holder) : WatchStep s (s.returnLeave who) := watchStep_pwr h _

theorem watchStep_of_raised {s t : State} {as : List Nat} (hi : t.inv = true) (h : raisedOnly s t as) (ha : ∀ a ∈ as, a < 0x300000) :
    WatchStep s t where
  inv := hi
  frame := by rw [h.1]
  reg a hlo hhi := h.2 a (fun hm => Nat.not_le_of_lt (ha a hm) hlo) (noPba_of_lt (Nat.lt_trans hhi (by decide)))

theorem watchStep_raise {s : State} (h : s.inv = true) {c b r : Nat} (he : evtReg c = some r) (hr : r < 0x300000) : WatchStep s (s.raise c b) :=
  watchStep_of_raised (inv_raise h c b) (raise_raisedOnly s c b r h he) fun a ha => by rwa [List.mem_singleton.mp ha]

theorem watchStep_blindCheck {s : State} (h : s.inv = true) (b : Nat) : WatchStep s (blindCheck b s) :=
  watchStep_of_raised (kept_inv (kept_blindCheck b s (kept_refl h))) (blindCheck_raisedOnly h b) (by decide)

theorem watchStep_addTaint {s : State} (h : s.inv = true) {b : Nat} (hb : b < 2) (n lo hi : Nat) : WatchStep s (addTaint n b lo hi s) := by
  have a := addTaint_step h hb n lo hi
  refine ⟨inv_addTaint h n b lo hi, ?_, fun x hx hy => a.reg x (fun hm => ?_) (noPba_of_lt (Nat.lt_trans hy (by decide)))⟩
  · rw [a.frame]
  · have := (by decide : ∀ y ∈ taintRegs, y < 0x300000) x hm
    omega

theorem watchStep_antJoin {s : State} (h : s.inv = true) (n : Nat) : WatchStep s (antJoin s n) := by
  have a := watchStep_addTaint h (b := 0) (by decide) n s.atb (s.atb + sliceClean s 0)
  have b := a.trans (watchStep_addTaint a.inv (b := 1) (by decide) n s.atb (s.atb + sliceClean s 1))
  exact b.trans (watchStep_cnp b.inv _)

/-- The words filled before a capture is left hold samples that no command lists, or there are none. -/
theorem watchStep_capNoted {s : State} (h : s.inv = true) (w : Nat) :
    WatchStep s (if w = 0 then s else
      { (capCut w s).freed with cnp := { (capCut w s).freed.cnp with capAir := (0, w, s.free) :: (capCut w s).freed.cnp.capAir } }) := by
  split
  · exact .refl h
  · exact ⟨h, rfl, fun _ _ _ => rfl⟩

theorem watchStep_capLeave {s : State} (h : s.inv = true) : WatchStep s (capLeave s) := by
  by_cases hs : s.rd CNP_CAP_STS.STATE ∈ [2, 3]
  · rw [show capLeave s = _ from if_pos hs]
    exact watchStep_capNoted h _
  · rw [show capLeave s = s from if_neg hs]
    exact .refl h

theorem watchStep_capAbort {s : State} (h : s.inv = true) (cause : Nat) : WatchStep s (capAbort cause s) := by
  unfold capAbort
  split
  · have a := watchStep_capLeave h
    have b := a.trans (watchStep_wr a.inv (f := CNP_CAP_STS.STATE) (by decide) 5)
    have c := b.trans (watchStep_wr b.inv (f := CNP_CAP_STS.CAUSE) (by decide) cause)
    have d := c.trans (watchStep_returnLeave c.inv .capture)
    exact d.trans (watchStep_raise d.inv (r := CNP_EVT_STS.reg) rfl (by decide))
  · exact .refl h

/-- The lanes in flight keep the antenna that leaves as tainted (R53). -/
def lanesLeft (n : Nat) (s : State) : State :=
  { s with lanes := s.lanes.map (fun p =>
    if p.2.fend = 0 ∨ s.atb < p.2.fend then (p.1, { p.2 with taint := bitSet p.2.taint n, left := p.2.left ++ [(n, s.atb)] }) else p) }

theorem antLeave_eq (s : State) (n : Nat) :
    antLeave s n = if bitOn ((lanesLeft n s).rd CNP_CAP_CFG.ANT_MASK) n then capAbort 3 (lanesLeft n s) else lanesLeft n s := rfl

theorem watchStep_antLeave {s : State} (h : s.inv = true) (n : Nat) : WatchStep s (antLeave s n) := by
  have a : WatchStep s (lanesLeft n s) := watchStep_lanes h _
  rw [antLeave_eq]
  split
  · exact a.trans (watchStep_capAbort a.inv 3)
  · exact a

theorem watchStep_antChange {s : State} (h : s.inv = true) (old : List Nat) : WatchStep s (antChange old s) := by
  have a := WatchStep.foldl (fun u n hu => watchStep_antLeave hu n) (old.filter (fun n => !antEnabled s n)) h
  have b := a.trans (WatchStep.foldl (fun u n hu => watchStep_antJoin hu n)
    (((List.range 8).filter (antEnabled s)).filter (fun n => !old.contains n)) a.inv)
  have c := b.trans (watchStep_blindCheck b.inv 0)
  exact c.trans (watchStep_blindCheck c.inv 1)

theorem watchStep_classesBack {s : State} (h : s.inv = true) (old : Nat → Bool) : WatchStep s (classesBack old s) := watchStep_cnp h _

theorem STATE_high (n : Nat) : 0x302000 ≤ (TXC_CH_STS.STATE n).addr := by
  dsimp only [TXC_CH_STS.STATE, TXC_CH_STS.reg]
  omega

theorem watchStep_restChains {s : State} (h : s.inv = true) : WatchStep s (restChains s) := by
  refine WatchStep.foldl (fun u n hu => ?_) (List.range 8) h
  split
  · exact watchStep_wr hu (.inr (STATE_high n)) _
  · exact .refl hu

theorem watchStep_enterState {s : State} (h : s.inv = true) (k : Nat) : WatchStep s (enterState k s) := by
  have a := watchStep_wr h (f := PWR_STS.STATE) (by decide) k
  have b := a.trans (watchStep_antChange a.inv ((List.range 8).filter (antEnabled s)))
  have c := b.trans (watchStep_classesBack b.inv (classOn s))
  exact c.trans (watchStep_restChains c.inv)

theorem watchStep_pwrEnd {s : State} (h : s.inv = true) (status : Nat) : WatchStep s (pwrEnd status s) := by
  have a := watchStep_wr h (f := PWR_CMD_RES.STATUS) (by decide) status
  have b := a.trans (watchStep_wr a.inv (f := PWR_STS.BUSY) (by decide) 0)
  have c := b.trans (watchStep_pwr b.inv { s.pwr with req := none })
  exact c.trans (watchStep_raise c.inv (c := 11) (b := if status = 0 then 0 else 1) (r := PWR_EVT_STS.reg) rfl (by decide))

/-- The last carrier's end can complete an entry to WATCH, which leaves the transmit chains' staging as it is (R361). -/
theorem watchStep_watchSettled {s : State} (h : s.inv = true) : WatchStep s (watchSettled s) := by
  unfold watchSettled
  split
  · have a := watchStep_enterState h 2
    exact a.trans (watchStep_pwrEnd a.inv 0)
  · exact .refl h

/-! ## The end of a frame's ramp-down -/

/-- The instant a frame's ramp-down ends. -/
def rampStop (x : Ent) : Nat := x.air + x.dur + x.tDown

/-- What the end of a ramp-down brings whatever becomes of its frame. -/
def offAir (e : Nat) (x : Ent) (s : State) : State := burnGone x (holdCoex e (rampStop x) (dropCarrier e s))

theorem rampDownEnd_sent {s : State} {e : Nat} (hst : (s.ent e).st = 7) (hf : (s.ent e).fault = none) :
    rampDownEnd e s = frameSent e (s.ent e) (s.at_ (rampStop (s.ent e))) := by
  unfold rampDownEnd
  dsimp only
  rw [hf]
  exact if_pos hst

theorem rampDownEnd_none {s : State} {e : Nat} (hst : (s.ent e).st ≠ 7) (hf : (s.ent e).fault = none) : rampDownEnd e s = s := by
  unfold rampDownEnd
  dsimp only
  rw [hf]
  exact if_neg hst

section
variable {x : Ent} (s : State) (e : Nat)

theorem frameSent_freed (hk : x.kind = 2 ∨ x.kind = 3) : frameSent e x s = releaseEnt e (offAir e x s) := by
  unfold frameSent
  dsimp only
  rcases hk with hk | hk <;> rw [hk] <;> rfl

variable {h hc : Nat} (hk : x.kind = 0) (hn : x.node = some h) (hi : x.item = some hc)
include hk hn hi

theorem frameSent_gone (hg : x.gone = true) : frameSent e x s = dropItem h hc (releaseEnt e (offAir e x s)) := by
  unfold frameSent
  dsimp only
  rw [hk, hn, hi]
  exact if_pos hg

theorem frameSent_ended (hg : x.gone = false) (ha : x.ackReq = false) : frameSent e x s = endItem h hc 2 (releaseEnt e (offAir e x s)) := by
  unfold frameSent
  dsimp only
  rw [hk, hn, hi]
  exact (if_neg (by rw [hg]; decide)).trans (if_neg (by rw [ha]; decide))

/-- The entry is HELD for its acknowledgement, whose wait is open and whose sequencer program has started (R117, R139). -/
theorem frameSent_held (hg : x.gone = false) (ha : x.ackReq = true) :
    frameSent e x s = startSeq 2 0 0 x.air (x.air + x.dur) 0 0 0 (some h) (some hc) (some (offAir e x s).lnk.nextAtt)
      (openWait e x h ((offAir e x s).setEnt e { x with st := 8 })) := by
  unfold frameSent
  dsimp only
  rw [hk, hn, hi]
  exact (if_neg (by rw [hg]; decide)).trans (if_pos ha)

end

theorem burnGone_onlyRegs {s : State} (h : s.inv = true) (x : Ent) : (burnGone x s).inv = true ∧ onlyRegs s (burnGone x s) [TXC_CNT_BURN.reg] := by
  unfold burnGone
  split
  · exact ⟨inv_inc h _, inc_onlyRegs h _⟩
  · exact ⟨h, onlyRegs_refl s _⟩

theorem burnGone_rd {s : State} {x : Ent} (h : s.inv = true) (hb : x.burn = true) (hf : x.fc.isSome = true) :
    (burnGone x s).rd TXC_CNT_BURN.COUNT = min 0xFFFFFFFF (s.rd TXC_CNT_BURN.COUNT + 1) := by
  have hdo : burnGone x s = s.inc TXC_CNT_BURN.COUNT := if_pos ⟨hb, hf⟩
  rw [hdo]
  exact rd_inc_same h (by decide)

theorem carrierReturned_ents (e : Nat) (s : State) : (carrierReturned e s).txc.ents = s.txc.ents := by rw [carrierReturned_frame]
theorem carrierReturned_carriers (e : Nat) (s : State) : (carrierReturned e s).txc.carriers = s.txc.carriers.filter (fun c => c.ent != e) := by
  rw [carrierReturned_frame]

theorem inv_carrierReturned {s : State} (h : s.inv = true) (e : Nat) : (carrierReturned e s).inv = true := by
  rw [carrierReturned_frame]
  exact h

theorem carrierReturned_rd (e : Nat) (s : State) (f : RegFld) : (carrierReturned e s).rd f = s.rd f := by
  rw [carrierReturned_frame]
  rfl

/-- The end of a ramp-down keeps the staging entries, gives the carrier back and burns the counter of a discarded attempt. -/
theorem offAir_spec {s : State} (h : s.inv = true) (e : Nat) (x : Ent) :
    let t := offAir e x s
    t.inv = true ∧ t.txc.ents = s.txc.ents ∧ t.txc.carriers = s.txc.carriers.filter (fun c => c.ent != e) ∧
      (x.burn = true → x.fc.isSome = true → t.rd TXC_CNT_BURN.COUNT = min 0xFFFFFFFF (s.rd TXC_CNT_BURN.COUNT + 1)) := by
  have a := watchStep_watchSettled (inv_carrierReturned h e)
  have h1 : (holdCoex e (rampStop x) (dropCarrier e s)).inv = true := a.inv
  have htx : (dropCarrier e s).txc = (carrierReturned e s).txc := a.txc
  obtain ⟨h2, ho⟩ := burnGone_onlyRegs h1 x
  refine ⟨h2, ?_, ?_, fun hb hf => ?_⟩
  · refine (congrArg Txc.ents (onlyRegs_txc ho)).trans ?_
    rw [holdCoex_eq, htx, carrierReturned_ents]
  · refine (congrArg Txc.carriers (onlyRegs_txc ho)).trans ?_
    rw [holdCoex_eq, htx, carrierReturned_carriers]
  · have hcount : (dropCarrier e s).rd TXC_CNT_BURN.COUNT = s.rd TXC_CNT_BURN.COUNT :=
      (rd_of_reg (a.reg _ (by decide) (by decide))).trans (carrierReturned_rd e s _)
    exact (burnGone_rd h1 hb hf).trans (congrArg (fun k => min 0xFFFFFFFF (k + 1)) hcount)

/-! ## What becomes of the frame -/

/-- A discarded attempt, an acknowledgement's pending-clear frame and a wake-up sequence leave staging (R112, R210). -/
theorem released_spec {s : State} (h : s.inv = true) (e : Nat) (x : Ent) :
    let t := releaseEnt e (offAir e x s)
    t.inv = true ∧ t.txc.ents = sdel s.txc.ents e ∧ t.txc.carriers = s.txc.carriers.filter (fun c => c.ent != e) ∧
      (x.burn = true → x.fc.isSome = true → t.rd TXC_CNT_BURN.COUNT = min 0xFFFFFFFF (s.rd TXC_CNT_BURN.COUNT + 1)) := by
  obtain ⟨hi, hents, hcar, hburn⟩ := offAir_spec h e x
  obtain ⟨hrel, -, hre, -⟩ := releaseEnt_spec hi e
  refine ⟨hrel.inv, hre.trans (congrArg (fun l => sdel l e) hents), ?_, fun hb hf => ?_⟩
  · rw [hrel.txc]
    exact hcar
  · exact (hrel.rd (f := TXC_CNT_BURN.COUNT) (by decide) (by unfold coexReg; decide)).trans (hburn hb hf)

/-- A frame whose outcome is discarded ends its item without telling anyone (R210, R271). -/
theorem frameSent_gone_spec {s : State} {e h hc : Nat} {x : Ent} (hs : s.inv = true) (hk : x.kind = 0) (hn : x.node = some h)
    (hi : x.item = some hc) (hg : x.gone = true) :
    let t := frameSent e x s
    t.txc.ents = sdel s.txc.ents e ∧ t.txc.carriers = s.txc.carriers.filter (fun c => c.ent != e) ∧
      (x.burn = true → x.fc.isSome = true → t.rd TXC_CNT_BURN.COUNT = min 0xFFFFFFFF (s.rd TXC_CNT_BURN.COUNT + 1)) := by
  obtain ⟨hri, hents, hcar, hburn⟩ := released_spec hs e x
  have hd := itemStep_dropItem hri h hc
  rw [frameSent_gone s e hk hn hi hg]
  refine ⟨?_, ?_, fun hb hf => (hd.rd (f := TXC_CNT_BURN.COUNT) (by decide)).trans (hburn hb hf)⟩
  · rw [hd.txc]
    exact hents
  · rw [hd.txc]
    exact hcar

/-- Carrier and leave are given back, the chain's hold begins with its last carrier, and the coexistence interval runs on (R121, R132). -/
def carrierBack (s t : State) (e : Nat) (x : Ent) : Prop :=
  let left := s.txc.carriers.filter (fun c => c.ent != e)
  t.txc.carriers = left ∧ t.pwr.held = s.pwr.held.filter (fun l => !decide (l.who = .carrier x.chain x.carrier)) ∧
    ((left.filter (fun c => c.chain == x.chain)).isEmpty = true →
      sfind t.txc.idleAt x.chain = some (s.atb + 32 * s.rd (TXC_CH_CFG.IDLE_HOLD x.chain))) ∧
    ∀ r ∈ s.txc.coex, r.ent = e → r.drop = none →
      (⟨r.pair, e, some (rampStop x + s.rd (TXC_COEX_TIME.REQ_HOLD r.pair))⟩ : CoexReq) ∈ t.txc.coex

/-- A chain's hold begins (R121). -/
def holdBegun (n : Nat) (s : State) : State :=
  { s with txc := { s.txc with idleAt := sput s.txc.idleAt n (s.atb + 32 * s.rd (TXC_CH_CFG.IDLE_HOLD n)) } }

theorem holdBegun_idleAt (n : Nat) (s : State) :
    sfind (holdBegun n s).txc.idleAt n = some (s.atb + 32 * s.rd (TXC_CH_CFG.IDLE_HOLD n)) := sfind_sput_same _ _ _

theorem carrierReturned_idleAt {s : State} {e : Nat}
    (h : ((s.txc.carriers.filter (fun c => c.ent != e)).filter (fun c => c.chain == (s.ent e).chain)).isEmpty = true) :
    sfind (carrierReturned e s).txc.idleAt (s.ent e).chain = some (s.atb + 32 * s.rd (TXC_CH_CFG.IDLE_HOLD (s.ent e).chain)) := by
  have hdo : carrierReturned e s = holdBegun (s.ent e).chain
    ({ s with txc := { s.txc with carriers := s.txc.carriers.filter (fun c => c.ent != e) } }.returnLeave
      (.carrier (s.ent e).chain (s.ent e).carrier)) := if_pos h
  rw [hdo]
  exact holdBegun_idleAt _ _

theorem carrierBack_rampDone {s : State} {e : Nat} {x : Ent} (hx : s.ent e = x) : carrierBack s (rampDone e (rampStop x) s) e x := by
  refine ⟨?_, ?_, fun h => ?_, fun r hr he hd => mem_rampDone_coex hr he hd⟩
  · rw [rampDone_eq]
  · rw [rampDone_eq, hx]
    rfl
  · subst hx
    rw [rampDone_eq]
    exact carrierReturned_idleAt h

/-- What the chains have back stays so while carriers and leave are let be and no running request is dropped. -/
theorem carrierBack_of_kept {s t u : State} {e : Nat} {x : Ent} (h : carrierBack s t e x) (hcar : u.txc.carriers = t.txc.carriers)
    (hpwr : u.pwr = t.pwr) (hidle : u.txc.idleAt = t.txc.idleAt) (hcoex : ∀ r ∈ t.txc.coex, r.drop ≠ none → r ∈ u.txc.coex) :
    carrierBack s u e x := by
  obtain ⟨h1, h2, h3, h4⟩ := h
  refine ⟨hcar.trans h1, ?_, fun hl => ?_, fun r hr he hd => hcoex _ (h4 r hr he hd) (Option.some_ne_none _)⟩
  · rw [hpwr]
    exact h2
  · rw [hidle]
    exact h3 hl

theorem offAir_idle {s : State} {e : Nat} {x : Ent} (hr : s.pwr.req = none) : offAir e x s = burnGone x (rampDone e (rampStop x) s) := by
  unfold offAir
  rw [dropCarrier_idle hr]
  rfl

theorem inv_rampDone {s : State} (h : s.inv = true) (e stop : Nat) : (rampDone e stop s).inv = true := by
  rw [rampDone_eq]
  exact h

/-- Without an entry to WATCH under way, the end of a ramp-down changes the transmit chains, leave and the count of burned counters only. -/
theorem offAir_onlyRegs {s : State} {e : Nat} {x : Ent} (h : s.inv = true) (hr : s.pwr.req = none) :
    onlyRegs { s with txc := (offAir e x s).txc, pwr := (offAir e x s).pwr } (offAir e x s) [TXC_CNT_BURN.reg] := by
  obtain ⟨-, ho⟩ := burnGone_onlyRegs (inv_rampDone h e (rampStop x)) x
  rw [offAir_idle hr]
  refine ⟨?_, fun a ha => (ho.2 a ha).trans ?_⟩
  · rw [ho.1, rampDone_eq]
  · rw [rampDone_eq]
    rfl

theorem carrierBack_offAir {s : State} {e : Nat} {x : Ent} (h : s.inv = true) (hx : s.ent e = x) (hr : s.pwr.req = none) :
    carrierBack s (offAir e x s) e x := by
  obtain ⟨-, ho⟩ := burnGone_onlyRegs (inv_rampDone h e (rampStop x)) x
  have htx := onlyRegs_txc ho
  rw [offAir_idle hr]
  refine carrierBack_of_kept (carrierBack_rampDone hx) (congrArg Txc.carriers htx) (onlyRegs_pwr ho) (congrArg Txc.idleAt htx) fun r hm _ => ?_
  rw [htx]
  exact hm

/-- A frame that asks for no acknowledgement ends its item, and its entry is FREE (R112). -/
theorem frameSent_ended_spec {s : State} {e h hc : Nat} {x : Ent} (hs : s.inv = true) (hx : s.ent e = x) (hr : s.pwr.req = none) (hk : x.kind = 0)
    (hn : x.node = some h) (hi : x.item = some hc) (hg : x.gone = false) (ha : x.ackReq = false) :
    carrierBack s (frameSent e x s) e x ∧ (frameSent e x s).txc.ents = sdel s.txc.ents e := by
  obtain ⟨hoi, -⟩ := offAir_spec hs e x
  obtain ⟨hri, hents, -⟩ := released_spec hs e x
  obtain ⟨hrel, -, -, hrc⟩ := releaseEnt_spec hoi e
  have hd := itemStep_endItem hri h hc 2
  have hcoex : ∀ r ∈ (offAir e x s).txc.coex, r.drop ≠ none → r ∈ (releaseEnt e (offAir e x s)).txc.coex := fun r hm hdrop => by
    rw [hrc]
    refine List.mem_filter.mpr ⟨hm, ?_⟩
    cases hrd : r.drop with
    | none => exact absurd hrd hdrop
    | some _ => simp
  have hback := carrierBack_of_kept (u := releaseEnt e (offAir e x s)) (carrierBack_offAir hs hx hr) (by rw [hrel.txc]) hrel.pwr
    (by rw [hrel.txc]) hcoex
  rw [frameSent_ended s e hk hn hi hg ha]
  refine ⟨carrierBack_of_kept hback (by rw [hd.txc]) hd.pwr (by rw [hd.txc]) fun r hm _ => ?_, ?_⟩
  · rw [hd.txc]
    exact hm
  · rw [hd.txc]
    exact hents

theorem startSeq_txc (prog sfd fend air aend slot sample : Nat) (conds : BitVec 16) (h hc att : Option Nat) (s : State) :
    (startSeq prog sfd fend air aend slot sample conds h hc att s).txc = s.txc := rfl
theorem startSeq_pwr (prog sfd fend air aend slot sample : Nat) (conds : BitVec 16) (h hc att : Option Nat) (s : State) :
    (startSeq prog sfd fend air aend slot sample conds h hc att s).pwr = s.pwr := rfl
theorem startSeq_que (prog sfd fend air aend slot sample : Nat) (conds : BitVec 16) (h hc att : Option Nat) (s : State) :
    (startSeq prog sfd fend air aend slot sample conds h hc att s).que = s.que := rfl
theorem startSeq_atts (prog sfd fend air aend slot sample : Nat) (conds : BitVec 16) (h hc att : Option Nat) (s : State) :
    (startSeq prog sfd fend air aend slot sample conds h hc att s).lnk.atts = s.lnk.atts := rfl

theorem openWait_frame (e : Nat) (x : Ent) (h : Nat) (s : State) : openWait e x h s = { s with lnk := (openWait e x h s).lnk } := rfl

/-- The wait of an attempt outside a slotted schedule (R139). -/
theorem openWait_atts {e h : Nat} {x : Ent} (hx : x.tsch = false) (s : State) :
    ∃ a, (openWait e x h s).lnk.atts = s.lnk.atts ++ [a] ∧ a.ent = e ∧
    a.node = h ∧ a.wOpen = x.air + x.dur + s.rd (LNK_RATE_ACKW_OPEN.ACKW_OPEN x.rate) ∧
    a.close = x.air + x.dur + s.rd (LNK_RATE_ACKW_CLOSE.ACKW_CLOSE x.rate) := by
  have hno : ¬x.tsch = true := by rw [hx]; decide
  exact ⟨_, rfl, rfl, rfl, if_neg hno, if_neg hno⟩

/-- A frame that asks for an acknowledgement is HELD, its wait open (R117, R139). -/
theorem frameSent_held_spec {s : State} {e h hc : Nat} {x : Ent} (hs : s.inv = true) (hx : s.ent e = x) (hr : s.pwr.req = none) (hk : x.kind = 0)
    (hn : x.node = some h) (hi : x.item = some hc) (hg : x.gone = false) (ha : x.ackReq = true) :
    let t := frameSent e x s
    carrierBack s t e x ∧ (t.ent e).st = 8 ∧ t.que = s.que ∧
      (x.tsch = false → ∃ a, t.lnk.atts = s.lnk.atts ++ [a] ∧ a.ent = e ∧ a.node = h ∧
        a.wOpen = x.air + x.dur + s.rd (LNK_RATE_ACKW_OPEN.ACKW_OPEN x.rate) ∧
        a.close = x.air + x.dur + s.rd (LNK_RATE_ACKW_CLOSE.ACKW_CLOSE x.rate)) := by
  have ho := offAir_onlyRegs (e := e) (x := x) hs hr
  have hque : (offAir e x s).que = s.que := by rw [ho.1]
  have hlnk : (offAir e x s).lnk = s.lnk := by rw [ho.1]
  have hopen : (offAir e x s).rd (LNK_RATE_ACKW_OPEN.ACKW_OPEN x.rate) = s.rd (LNK_RATE_ACKW_OPEN.ACKW_OPEN x.rate) := by
    refine onlyRegs_rd ho (f := LNK_RATE_ACKW_OPEN.ACKW_OPEN x.rate) ?_
    rw [List.mem_singleton]
    show 0x400104 + 0x20 * x.rate ≠ 0x300048
    omega
  have hclose : (offAir e x s).rd (LNK_RATE_ACKW_CLOSE.ACKW_CLOSE x.rate) = s.rd (LNK_RATE_ACKW_CLOSE.ACKW_CLOSE x.rate) := by
    refine onlyRegs_rd ho (f := LNK_RATE_ACKW_CLOSE.ACKW_CLOSE x.rate) ?_
    rw [List.mem_singleton]
    show 0x400108 + 0x20 * x.rate ≠ 0x300048
    omega
  have hback := carrierBack_offAir hs hx hr
  rw [frameSent_held s e hk hn hi hg ha]
  refine ⟨carrierBack_of_kept hback ?_ ?_ ?_ fun r hm _ => ?_, ?_, ?_, fun ht => ?_⟩
  · rw [startSeq_txc, openWait_frame, setEnt_carriers]
  · rw [startSeq_pwr, openWait_frame]
    rfl
  · rw [startSeq_txc, openWait_frame]
    rfl
  · rw [startSeq_txc, openWait_frame, setEnt_coex]
    exact hm
  · have hent : (openWait e x h ((offAir e x s).setEnt e { x with st := 8 })).ent e = ((offAir e x s).setEnt e { x with st := 8 }).ent e := by
      rw [openWait_frame]
      rfl
    have hheld := hent.trans (ent_setEnt_same _ e (ent_ne_of_st (show 8 ≠ 0 by decide)))
    exact congrArg Ent.st ((ent_of_txc (startSeq_txc _ _ _ _ _ _ _ _ _ _ _ _) e).trans hheld)
  · rw [startSeq_que, openWait_frame, setEnt_que, hque]
  · obtain ⟨a, hatts, hae, han, hao, hac⟩ := openWait_atts (e := e) (h := h) ht ((offAir e x s).setEnt e { x with st := 8 })
    refine ⟨a, (startSeq_atts _ _ _ _ _ _ _ _ _ _ _ _).trans (hatts.trans ?_), hae, han, hao.trans ?_, hac.trans ?_⟩
    · rw [← hlnk]
      rfl
    · rw [← hopen]
      rfl
    · rw [← hclose]
      rfl

/-! ## The end of a chain's hold (R121) -/

theorem exec_chainIdle {n : Nat} (hn : n < 8) (s : State) : exec (.chainIdle n) s = .next (chainIdle n s) := ranged_next hn _

theorem chainCarriers_isEmpty {s : State} {n : Nat} : (chainCarriers s n).isEmpty = true ↔ ∀ c ∈ s.txc.carriers, c.chain ≠ n := by
  unfold chainCarriers
  rw [List.isEmpty_iff, List.filter_eq_nil_iff]
  simp only [beq_iff_eq, ne_eq]

theorem chainIdle_none {s : State} {n : Nat} (h : sfind s.txc.idleAt n = none ∨ ∃ c ∈ s.txc.carriers, c.chain = n) : chainIdle n s = s := by
  unfold chainIdle
  cases ht : sfind s.txc.idleAt n with
  | none => rfl
  | some t =>
    obtain ⟨c, hc, hcn⟩ := h.resolve_left (by rw [ht]; exact Option.some_ne_none t)
    exact if_neg fun he => chainCarriers_isEmpty.mp he c hc hcn

/-- A chain's hold has ended: its activation leave is returned. -/
def holdEnded (n : Nat) (s : State) : State := { s with txc := { s.txc with idleAt := sdel s.txc.idleAt n } }.returnLeave (.chain n)

theorem chainIdle_taken {s : State} {n t : Nat} (ht : sfind s.txc.idleAt n = some t) (hc : ∀ c ∈ s.txc.carriers, c.chain ≠ n) :
    chainIdle n s = (if (holdEnded n (s.at_ t)).rd (TXC_CH_STS.STATE n) = 4 then holdEnded n (s.at_ t) else restChain n (holdEnded n (s.at_ t))) := by
  unfold chainIdle
  rw [ht]
  exact if_pos (chainCarriers_isEmpty.mpr hc)

theorem holdEnded_rd (n : Nat) (s : State) (f : RegFld) : (holdEnded n s).rd f = s.rd f := rfl
theorem holdEnded_pwr (n : Nat) (s : State) : (holdEnded n s).pwr = (s.returnLeave (.chain n)).pwr := rfl
theorem holdEnded_txc (n : Nat) (s : State) : (holdEnded n s).txc = { s.txc with idleAt := sdel s.txc.idleAt n } := rfl
theorem holdEnded_frame (n : Nat) (s : State) : holdEnded n s = { s with txc := (holdEnded n s).txc, pwr := (holdEnded n s).pwr } := rfl
theorem holdEnded_left (n : Nat) (s : State) : (holdEnded n s).pwr.left = s.pwr.left := rfl

/-- A chain's set follows the power state and its configuration alone. -/
theorem chainSet_of_rd {s t : State} (h1 : t.rd PWR_STS.STATE = s.rd PWR_STS.STATE) (h2 : t.rd PWR_TRIM_CFG.CHAIN = s.rd PWR_TRIM_CFG.CHAIN)
    (h3 : t.pwr.left = s.pwr.left) (n : Nat) : chainSet t n = chainSet s n := by
  unfold chainSet State.powerState
  rw [h1, h2, h3]

theorem restChain_eq (n : Nat) (s : State) :
    restChain n s = s.wr (TXC_CH_STS.STATE n) (if s.on (TXC_CH_CTRL.EN n) = true ∧ chainSet s n = true then 1 else 0) := by
  unfold restChain
  simp only [Bool.and_eq_true]

/-- A chain whose hold ends returns its leave and is at rest, unless it is latched (R121, R130, R360). -/
theorem chainIdle_spec {s : State} {n t : Nat} (h : s.inv = true) (ht : sfind s.txc.idleAt n = some t)
    (hc : ∀ c ∈ s.txc.carriers, c.chain ≠ n) :
    let u := s.at_ t
    let r := chainIdle n s
    r.rd (TXC_CH_STS.STATE n) = (if s.rd (TXC_CH_STS.STATE n) = 4 then 4
        else if s.on (TXC_CH_CTRL.EN n) = true ∧ chainSet s n = true then 1 else 0) ∧
      r.pwr = (u.returnLeave (.chain n)).pwr ∧ r.txc = { s.txc with idleAt := sdel s.txc.idleAt n } ∧
      onlyRegs { u with txc := r.txc, pwr := r.pwr } r [TXC_CH_STS.reg n] := by
  have hu := inv_at h t
  have hi : (holdEnded n (s.at_ t)).inv = true := hu
  have hstate : (holdEnded n (s.at_ t)).rd (TXC_CH_STS.STATE n) = s.rd (TXC_CH_STS.STATE n) := (holdEnded_rd _ _ _).trans (at_STATE h n t)
  have htxc : (holdEnded n (s.at_ t)).txc = { s.txc with idleAt := sdel s.txc.idleAt n } := by rw [holdEnded_txc, at_txc]
  have hen : (holdEnded n (s.at_ t)).on (TXC_CH_CTRL.EN n) = s.on (TXC_CH_CTRL.EN n) :=
    congrArg (· != 0) ((holdEnded_rd _ _ _).trans (at_rd h (show 0x50000 ≤ 0x302000 + 0x40 * n by omega) t))
  have hset : chainSet (holdEnded n (s.at_ t)) n = chainSet s n := by
    refine chainSet_of_rd ?_ ?_ ?_ n
    · exact (holdEnded_rd _ _ _).trans (rd_of_reg (at_reg t _ s h (.inl (by decide))))
    · exact (holdEnded_rd _ _ _).trans (rd_of_reg (at_reg t _ s h (.inl (by decide))))
    · rw [holdEnded_left, at_pwr]
  rw [chainIdle_taken ht hc, hstate]
  by_cases hl : s.rd (TXC_CH_STS.STATE n) = 4
  · rw [if_pos hl, if_pos hl]
    exact ⟨hstate.trans hl, holdEnded_pwr _ _, htxc, holdEnded_frame _ _, fun _ _ => rfl⟩
  · have hv : (if s.on (TXC_CH_CTRL.EN n) = true ∧ chainSet s n = true then 1 else 0) < 2 ^ 3 := by split <;> decide
    rw [if_neg hl, if_neg hl, restChain_eq, hen, hset]
    refine ⟨rd_wr_fits hi (f := TXC_CH_STS.STATE n) (Nat.le_of_ble_eq_true rfl) hv, ?_, ?_, ?_, fun a ha => ?_⟩
    · rw [wr_pwr, holdEnded_pwr]
    · rw [wr_txc, htxc]
    · rfl
    · exact reg_wr_other _ _ _ a (List.ne_of_not_mem_cons ha) hi

end Sys2Proof.Machine

/-! A commit's decision and the frame's way over the air, whole (R99, R110, R112, R119-R122, R139, R210). -/

namespace Sys2Proof.Machine

/-! ## The decision of a commit -/

section
variable {s : State} {e : Nat} {x : Ent} (h : s.inv = true) (he : e < 1024) (hx : s.ent e = x) (hk : x.kind = 0) (hw : x.wuf = false)
include h he hx hk hw

/-- A data frame that its commit finds unfit misses with the cause, unless it is being prepared (R119, R122). -/
theorem missEnt_unfit (hst : x.st ≠ 2) {c : Nat} (hc : c < 8) (hpos : 0 < c) : missed s (missEnt e c s) e c := by
  subst hx
  exact missEnt_missed h he hc hpos hk hw hst

/-- A frame that is not PRIMED, or whose chain may not commit, misses before any carrier is looked for. -/
theorem commitChecks_early (hst : x.st ≠ 2) :
    (x.st ≠ 5 → missed s (commitChecks e s) e 1) ∧ (x.st = 5 → chainUsable s x.chain = false → missed s (commitChecks e s) e 6) := by
  subst hx
  refine ⟨fun h5 => ?_, fun h5 hu => ?_⟩
  · rw [commitChecks_unprimed h5]
    exact missEnt_unfit h he rfl hk hw hst (by decide) (by decide)
  · rw [commitChecks_unusable h5 hu]
    exact missEnt_unfit h he rfl hk hw hst (by decide) (by decide)

variable (hst : x.st = 5) (hu : chainUsable s x.chain = true)
include hst hu

/-- Without a free carrier a frame misses with cause 2 (R99). -/
theorem commitChecks_noCarrier (hm : ∀ m, m < 16 → carrierUsed s x.chain m) : missed s (commitChecks e s) e 2 := by
  have hmiss := missEnt_unfit h he hx hk hw (by rw [hst]; decide) (c := 2) (by decide) (by decide)
  subst hx
  rw [commitChecks_full hst hu (freeCarrier_none hm)]
  exact hmiss

variable {m : Nat} (hm : freeCarrier s x.chain = some m)
include hm

/-- A frame that would make its chain's sum too large misses with cause 3 (R103, R119). -/
theorem commitChecks_tooLoud (ha : s.rd (TXC_CH_BUDGET.AMP_MAX x.chain) < ampSum s x.chain + x.amp) : missed s (commitChecks e s) e 3 := by
  have hmiss := missEnt_unfit h he hx hk hw (by rw [hst]; decide) (c := 3) (by decide) (by decide)
  subst hx
  rw [commitChecks_loud hst hu hm ha]
  exact hmiss

variable (ha : ampSum s x.chain + x.amp ≤ s.rd (TXC_CH_BUDGET.AMP_MAX x.chain))
include ha

/-- A frame whose leave is refused misses with cause 4 (R120). -/
theorem commitChecks_noLeave (hr : s.on PWR_TEMP_STS.TRIP = true ∨ s.leaveShare x.part ((commitAsks s x 0).map (·.2)).sum = false ∨
    s.budgetNow < s.leaveUsed + ((commitAsks s x 0).map (·.2)).sum) : missed s (commitChecks e s) e 4 := by
  subst hx
  obtain ⟨f, hf, hleave⟩ := commitLeave_refused (asks := commitAsks s (s.ent e) m) hr
  rw [commitChecks_refused hst hu hm (Nat.not_lt_of_le ha) hleave]
  exact missed_refused h he hk hw (by rw [hst]; decide) hf

omit h he hk hw in
/-- A frame that passes all checks is committed with its leave granted. -/
theorem commitChecks_pass (ht : s.on PWR_TEMP_STS.TRIP = false) (hs : s.leaveShare x.part ((commitAsks s x 0).map (·.2)).sum = true)
    (hb : s.leaveUsed + ((commitAsks s x 0).map (·.2)).sum ≤ s.budgetNow) :
    commitChecks e s = commitPass e m (leaveGranted x.part (commitAsks s x m) s) := by
  subst hx
  exact commitChecks_passed hst hu hm (Nat.not_lt_of_le ha) (commitLeave_granted ht hs hb)

end

/-- A PREPARING frame misses with cause 1 and keeps its place for its result (R122, R126). -/
theorem commitChecks_preparing {s : State} {e : Nat} {x : Ent} (h : s.inv = true) (he : e < 1024) (hx : s.ent e = x) (hk : x.kind = 0)
    (hw : x.wuf = false) (hst : x.st = 2) :
    let t := commitChecks e s
    t.ent e = awaitsResult x ∧ t.rd (TXC_STAGE0.LAST_MISS e) = 1 ∧ flagged t 3 0 ∧
      t.rd (TXC_MISS_CNT.COUNT 0) = min 0xFFFFFFFF (s.rd (TXC_MISS_CNT.COUNT 0) + 1) := by
  subst hx
  obtain ⟨-, hlast, hcount, hflag, -⟩ := missEnt_spec h he (c := 1) (by decide) (by decide) hk hw
  rw [commitChecks_unprimed (by rw [hst]; decide)]
  exact ⟨missEnt_preparing h he (by decide) (by decide) hk hw hst, hlast, hflag, hcount⟩

/-- Counts of commits and misses do not change as time passes to the commit. -/
theorem at_COMMIT {s : State} (h : s.inv = true) (t n : Nat) :
    (s.at_ t).rd TXC_CNT_COMMIT.COUNT = s.rd TXC_CNT_COMMIT.COUNT ∧ (s.at_ t).rd (TXC_CH_CNT_COMMIT.COUNT n) = s.rd (TXC_CH_CNT_COMMIT.COUNT n) ∧
      (s.at_ t).rd (TXC_MISS_CNT.COUNT 0) = s.rd (TXC_MISS_CNT.COUNT 0) :=
  ⟨at_rd h (by decide) t, at_rd h (show 0x50000 ≤ 0x302018 + 0x40 * n by omega) t, at_rd h (by decide) t⟩

/-- Settles O28: the checks of a commit in their order, then the frame's carrier, its time on the air, and the end of its ramp-down. -/
theorem commitDecidesAndTheFrameGoesToTheAir : Obligations.CommitDecidesAndTheFrameGoesToTheAir := by
  unfold Obligations.CommitDecidesAndTheFrameGoesToTheAir
  intro s e h he hn hp x
  have he' : e < 1056 := Nat.lt_trans he (by decide)
  refine ⟨exec_commit_none he', fun hst hd ht hk hw => ?_, fun hst hd ht hk hw => ?_, fun hx => ?_, fun hst hf => ?_, fun hst hf => ?_,
    fun hst hf hk => ?_, fun hh hc hst hf hk hnode hitem hg => ?_, fun hh hc hst hf hk hnode hitem hg hreq => ?_, fun n hn hx => ?_,
    fun n t hn ht hc => ?_⟩
  · obtain ⟨hent, hlast, hflag, hcount⟩ := commitChecks_preparing (inv_at h (x.air - 2048)) he (at_ent s _ e) hk hw hst
    rw [(at_COMMIT h _ 0).2.2] at hcount
    refine ⟨_, exec_commit he' (by rw [show (s.ent e).st = 2 from hst]; decide) hd ht, ?_⟩
    rw [hent]
    exact ⟨rfl, rfl, rfl, rfl, hlast, hflag, hcount⟩
  · have hu := inv_at h (x.air - 2048)
    have hx := at_ent s (x.air - 2048) e
    have hin : x.st ∈ [1, 2, 3, 4, 5] := (by decide : [1, 3, 4, 5] ⊆ [1, 2, 3, 4, 5]) hst
    have hex := exec_commit he' hin hd ht
    have hst2 : x.st ≠ 2 := fun h2 => absurd hst (by rw [h2]; decide)
    obtain ⟨hearly, hunfit⟩ := commitChecks_early hu he hx hk hw hst2
    refine ⟨fun h5 => ⟨_, hex, hearly h5⟩, fun h5 hc => ⟨_, hex, hunfit h5 hc⟩,
      fun h5 hc hm => ⟨_, hex, commitChecks_noCarrier hu he hx hk hw h5 hc hm⟩, fun m hm hfree hlow h5 hc => ?_⟩
    have hcar := freeCarrier_lowest hm (fun ⟨c, hin, hcn, hidx⟩ => hfree c hin hcn hidx) hlow
    refine ⟨fun ha => ⟨_, hex, commitChecks_tooLoud hu he hx hk hw h5 hc hcar ha⟩,
      fun ha => ⟨fun hr => ⟨_, hex, commitChecks_noLeave hu he hx hk hw h5 hc hcar ha hr⟩, fun htrip hshare hbudget => ⟨_, hex, ?_⟩⟩⟩
    have hspec := commitPass_granted (m := m) (p := x.part) (asks := commitAsks (s.at_ (x.air - 2048)) x m) hu hx
    obtain ⟨hall, hone, -⟩ := at_COMMIT h (x.air - 2048) x.chain
    rw [commitAsks_sum, hall, hone, at_txc] at hspec
    rw [commitChecks_pass hx h5 hc hcar ha htrip hshare hbudget]
    exact hspec
  · rw [exec_rampUp he', rampUp_none hx]
  · have hu := inv_at h (x.air - x.tUp)
    have hx := at_ent s (x.air - x.tUp) e
    have hque := at_que s (x.air - x.tUp)
    have hlnk : (s.at_ (x.air - x.tUp)).rd (LNK_PCNT.COUNT x.part 2) = s.rd (LNK_PCNT.COUNT x.part 2) :=
      at_rd h (show 0x50000 ≤ 0x400400 + 0x10 * x.part + 0x4 * 2 by omega) _
    have hspec := rampUp_spec hu hx hn
    rw [hque, hlnk, at_rd h (f := TXC_CNT_ACK.COUNT) (by decide)] at hspec
    obtain ⟨hent, hstate, hposted, hsame, hwuf, hack, hclear⟩ := hspec
    refine ⟨_, exec_rampUp he' s, ?_⟩
    rw [rampUp_taken hst hf]
    refine ⟨hent, hstate, hposted, fun hc hk hi hw => ?_, hsame, fun hc hk hi => ?_, hack, hclear⟩
    · have hdata := attemptBegun_data_spec hu hx hk hi hw
      rw [triesOf_of_que hque, hque] at hdata
      exact hdata
    · rw [← triesOf_of_que hque]
      exact hwuf hc hk hi
  · rw [exec_rampDownEnd he', rampDownEnd_none hst hf]
  · have hu := inv_at h (rampStop x)
    obtain ⟨-, hents, hcar, -⟩ := released_spec hu e x
    refine ⟨_, exec_rampDownEnd he' s, ?_⟩
    rw [rampDownEnd_sent hst hf, frameSent_freed _ _ hk]
    rw [at_txc] at hents hcar
    exact ⟨hents, hcar⟩
  · have hu := inv_at h (rampStop x)
    have hspec := frameSent_gone_spec (e := e) hu hk hnode hitem hg
    rw [at_txc, at_rd h (f := TXC_CNT_BURN.COUNT) (by decide)] at hspec
    refine ⟨_, exec_rampDownEnd he' s, ?_⟩
    rw [rampDownEnd_sent hst hf]
    exact hspec
  · have hu := inv_at h (rampStop x)
    have hx := at_ent s (rampStop x) e
    have hreq' : (s.at_ (rampStop x)).pwr.req = none := by rw [at_pwr]; exact hreq
    refine ⟨_, exec_rampDownEnd he' s, ?_⟩
    rw [rampDownEnd_sent hst hf]
    have hback : carrierBack (s.at_ (rampStop x)) (frameSent e x (s.at_ (rampStop x))) e x := by
      cases ha : x.ackReq with
      | true => exact (frameSent_held_spec hu hx hreq' hk hnode hitem hg ha).1
      | false => exact (frameSent_ended_spec hu hx hreq' hk hnode hitem hg ha).1
    unfold carrierBack at hback
    rw [at_txc, at_pwr] at hback
    obtain ⟨hcar, hheld, hidle, hcoex⟩ := hback
    refine ⟨hcar, hheld, hidle, hcoex, fun ha ht => ?_, fun ha => ?_⟩
    · obtain ⟨-, hst8, hque, hwait⟩ := frameSent_held_spec hu hx hreq' hk hnode hitem hg ha
      obtain ⟨a, hatts, hae, han, hopen, hclose⟩ := hwait ht
      rw [at_lnk] at hatts
      exact ⟨hst8, a, hatts, hae, han, hopen, hclose, hque.trans (at_que s _)⟩
    · have hents := (frameSent_ended_spec hu hx hreq' hk hnode hitem hg ha).2
      rwa [at_txc] at hents
  · rw [exec_chainIdle hn, chainIdle_none hx]
  · exact ⟨_, exec_chainIdle hn s, chainIdle_spec h ht hc⟩

end Sys2Proof.Machine
/-! The comparators of the air timebase: arming, firing and the value that is reached (R10, R136, R137). -/

namespace Sys2Proof.Machine

/-- A command on an object in range that reaches its register has its effect. -/
theorem ranged_p0Only {b : Bool} {s : State} {f : Fn} {off : Nat} (hb : b = true) (hr : reaches s f off) (t : State) :
    ranged b (s.p0Only f off t) = .next t := by
  rw [hb, p0Only_reaches hr]
  rfl

/-! ## Quantities of two registers -/

theorem inv_wr64 {s : State} (h : s.inv = true) (lo v : Nat) : (s.wr64 lo v).inv = true := inv_setReg (inv_setReg h _ _) _ _

theorem rd64_wr64 {s : State} {v : Nat} (h : s.inv = true) (hv : v < 2 ^ 64) (lo : Nat) : (s.wr64 lo v).rd64 lo = v := by
  have hlo := inv_setReg h lo (BitVec.ofNat 32 v)
  unfold State.rd64 State.wr64
  rw [reg_setReg_same _ _ _ (inv_regs hlo), reg_setReg_other _ _ _ _ (by omega) (inv_regs hlo), reg_setReg_same _ _ _ (inv_regs h),
    BitVec.toNat_ofNat, BitVec.toNat_ofNat]
  omega

theorem wr64_onlyRegs {s : State} (h : s.inv = true) (lo v : Nat) : onlyRegs s (s.wr64 lo v) [lo, lo + 4] := by
  have hlo := inv_setReg h lo (BitVec.ofNat 32 v)
  refine ⟨rfl, fun a ha => ?_⟩
  rw [List.mem_cons, List.mem_singleton, not_or] at ha
  exact (reg_setReg_other _ _ _ _ ha.2 (inv_regs hlo)).trans (reg_setReg_other _ _ _ _ ha.1 (inv_regs h))

theorem rd64_of_reg {s t : State} {lo : Nat} (hlo : t.reg lo = s.reg lo) (hhi : t.reg (lo + 4) = s.reg (lo + 4)) : t.rd64 lo = s.rd64 lo := by
  unfold State.rd64
  rw [hlo, hhi]

/-- A quantity formed of a held low word and a high word fits 64 bits (R10). -/
theorem formed_lt (s : State) (lo hi : Nat) : formed s lo hi < 2 ^ 64 := by
  have hlow := (sget (fun a => s.reg a) s.heldLo lo).isLt
  unfold formed
  omega

/-! ## Firing -/

/-- The channel that comparator k pulses when it fires, if its EVT_EN is set. -/
def cmpChannels (s : State) (k : Nat) : List Nat := if s.on (LNK_CMP_CTRL.EVT_EN k) then [s.rd (LNK_CMP_CTRL.EVT_CH k)] else []

/-- Pulses are produced on channels, one after another. -/
def pulsed (cs : List Nat) (s : State) : State := { s with evr := { s.evr with pulses := s.evr.pulses ++ cs } }

theorem pulsed_nil (s : State) : pulsed [] s = s := by
  unfold pulsed
  rw [List.append_nil]

@[simp] theorem pulsed_rd (cs : List Nat) (s : State) (f : RegFld) : (pulsed cs s).rd f = s.rd f := rfl
@[simp] theorem pulsed_on (cs : List Nat) (s : State) (f : RegFld) : (pulsed cs s).on f = s.on f := rfl

theorem inv_pulsed {s : State} (h : s.inv = true) (cs : List Nat) : (pulsed cs s).inv = true := h

theorem pulsed_pulsed (as bs : List Nat) (s : State) : pulsed bs (pulsed as s) = pulsed (as ++ bs) s := by
  unfold pulsed
  rw [← List.append_assoc]

theorem onlyRegs_pulsed {s t : State} {as : List Nat} (h : onlyRegs s t as) (cs : List Nat) : onlyRegs (pulsed cs s) (pulsed cs t) as :=
  ⟨by unfold pulsed; rw [h.1], h.2⟩

/-- Comparator k's status bits after it has fired. -/
def cmpMarked (k : Nat) (late : Bool) (s : State) : State :=
  ((s.wr (LNK_CMP_CTRL.FIRED k) 1).wr (LNK_CMP_CTRL.ARMED k) 0).wr (LNK_CMP_CTRL.LATE k) (if late then 1 else 0)

theorem fireCmp_eq (k : Nat) (late : Bool) (s : State) : fireCmp k late s = pulsed (cmpChannels s k) (cmpMarked k late s) := by
  unfold cmpChannels
  by_cases he : s.on (LNK_CMP_CTRL.EVT_EN k) = true
  · rw [if_pos he]
    exact if_pos he
  · rw [if_neg he, pulsed_nil]
    exact if_neg he

/-- A comparator's pulse depends on its control register alone. -/
theorem cmpChannels_of_rd {s t : State} {k : Nat} (hen : t.rd (LNK_CMP_CTRL.EVT_EN k) = s.rd (LNK_CMP_CTRL.EVT_EN k))
    (hch : t.rd (LNK_CMP_CTRL.EVT_CH k) = s.rd (LNK_CMP_CTRL.EVT_CH k)) : cmpChannels t k = cmpChannels s k := by
  unfold cmpChannels State.on
  rw [hen, hch]

theorem cmpChannels_of_reg {s t : State} {k : Nat} (h : t.reg (LNK_CMP_CTRL.reg k) = s.reg (LNK_CMP_CTRL.reg k)) :
    cmpChannels t k = cmpChannels s k := cmpChannels_of_rd (rd_of_reg h) (rd_of_reg h)

/-- Comparator k has fired between s and t, with LATE as given. -/
structure Fired (s t : State) (k : Nat) (late : Bool) : Prop where
  inv : t.inv = true
  fired : t.on (LNK_CMP_CTRL.FIRED k) = true
  armed : t.on (LNK_CMP_CTRL.ARMED k) = false
  late : t.on (LNK_CMP_CTRL.LATE k) = late
  channels : cmpChannels t k = cmpChannels s k
  only : onlyRegs (pulsed (cmpChannels s k) s) t [LNK_CMP_CTRL.reg k]

/-- The status bits of a comparator lie side by side below its other fields. -/
theorem cmpStatus_layout (k : Nat) :
    (LNK_CMP_CTRL.ARMED k).lo + (LNK_CMP_CTRL.ARMED k).w ≤ (LNK_CMP_CTRL.FIRED k).lo ∧
      (LNK_CMP_CTRL.FIRED k).lo + (LNK_CMP_CTRL.FIRED k).w ≤ (LNK_CMP_CTRL.LATE k).lo ∧
      (LNK_CMP_CTRL.LATE k).lo + (LNK_CMP_CTRL.LATE k).w ≤ 4 := ⟨Nat.le_refl 1, Nat.le_refl 2, Nat.le_of_ble_eq_true rfl⟩

theorem on_wr_flag {s : State} {f : RegFld} (h : s.inv = true) (hf : f.lo + f.w ≤ 32) (hw : f.w = 1) (b : Bool) :
    (s.wr f (if b then 1 else 0)).on f = b := by
  unfold State.on
  rw [rd_wr_same _ _ _ hf h, hw]
  cases b <;> rfl

theorem on_of_rd {s t : State} {f : RegFld} (h : t.rd f = s.rd f) : t.on f = s.on f := by
  unfold State.on
  rw [h]

theorem cmpMarked_above {s : State} (h : s.inv = true) (k : Nat) (late : Bool) {f : RegFld} (hf : 4 ≤ f.lo) :
    (cmpMarked k late s).rd f = s.rd f := by
  obtain ⟨haf, hfl, hl⟩ := cmpStatus_layout k
  have h1 := inv_wr h (LNK_CMP_CTRL.FIRED k) 1
  have h2 := inv_wr h1 (LNK_CMP_CTRL.ARMED k) 0
  unfold cmpMarked
  rw [rd_wr_apart h2 (by omega) (.inr (.inr (by omega))), rd_wr_apart h1 (by omega) (.inr (.inr (by omega))),
    rd_wr_apart h (by omega) (.inr (.inr (by omega)))]

theorem cmpMarked_status {s : State} (h : s.inv = true) (k : Nat) (late : Bool) :
    (cmpMarked k late s).on (LNK_CMP_CTRL.FIRED k) = true ∧ (cmpMarked k late s).on (LNK_CMP_CTRL.ARMED k) = false ∧
      (cmpMarked k late s).on (LNK_CMP_CTRL.LATE k) = late := by
  obtain ⟨haf, hfl, hl⟩ := cmpStatus_layout k
  have h1 := inv_wr h (LNK_CMP_CTRL.FIRED k) 1
  have h2 := inv_wr h1 (LNK_CMP_CTRL.ARMED k) 0
  refine ⟨?_, ?_, on_wr_flag h2 (by omega) rfl late⟩
  · calc (cmpMarked k late s).on (LNK_CMP_CTRL.FIRED k)
        = ((s.wr (LNK_CMP_CTRL.FIRED k) 1).wr (LNK_CMP_CTRL.ARMED k) 0).on (LNK_CMP_CTRL.FIRED k) :=
          on_of_rd (rd_wr_apart h2 (by omega) (.inr (.inl hfl)))
      _ = (s.wr (LNK_CMP_CTRL.FIRED k) 1).on (LNK_CMP_CTRL.FIRED k) := on_of_rd (rd_wr_apart h1 (by omega) (.inr (.inr haf)))
      _ = true := on_wr_flag h (by omega) rfl true
  · calc (cmpMarked k late s).on (LNK_CMP_CTRL.ARMED k)
        = ((s.wr (LNK_CMP_CTRL.FIRED k) 1).wr (LNK_CMP_CTRL.ARMED k) 0).on (LNK_CMP_CTRL.ARMED k) :=
          on_of_rd (rd_wr_apart h2 (by omega) (.inr (.inl (by omega))))
      _ = false := on_wr_flag h1 (by omega) rfl false

theorem cmpMarked_onlyRegs {s : State} (h : s.inv = true) (k : Nat) (late : Bool) :
    (cmpMarked k late s).inv = true ∧ onlyRegs s (cmpMarked k late s) [LNK_CMP_CTRL.reg k] := by
  have h1 := inv_wr h (LNK_CMP_CTRL.FIRED k) 1
  have h2 := inv_wr h1 (LNK_CMP_CTRL.ARMED k) 0
  exact ⟨inv_wr h2 _ _, onlyRegs_sub (onlyRegs_trans (onlyRegs_trans (wr_onlyRegs s (LNK_CMP_CTRL.FIRED k) 1 h)
    (wr_onlyRegs _ (LNK_CMP_CTRL.ARMED k) 0 h1)) (wr_onlyRegs _ (LNK_CMP_CTRL.LATE k) _ h2))
    (by simp [LNK_CMP_CTRL.FIRED, LNK_CMP_CTRL.ARMED, LNK_CMP_CTRL.LATE])⟩

theorem fireCmp_fired {s : State} (h : s.inv = true) (k : Nat) (late : Bool) : Fired s (fireCmp k late s) k late := by
  obtain ⟨hfired, harmed, hlate⟩ := cmpMarked_status h k late
  obtain ⟨hi, ho⟩ := cmpMarked_onlyRegs h k late
  have hen := cmpMarked_above h k late (f := LNK_CMP_CTRL.EVT_EN k) (Nat.le_refl 4)
  have hch := cmpMarked_above h k late (f := LNK_CMP_CTRL.EVT_CH k) (Nat.le_succ 4)
  rw [fireCmp_eq]
  exact ⟨inv_pulsed hi _, (pulsed_on _ _ _).trans hfired, (pulsed_on _ _ _).trans harmed, (pulsed_on _ _ _).trans hlate,
    cmpChannels_of_rd ((pulsed_rd _ _ _).trans hen) ((pulsed_rd _ _ _).trans hch), onlyRegs_pulsed ho _⟩

/-! ## Arming -/

/-- An old value that matches in this very tick fires first (R137). -/
def cmpMatched (k : Nat) (s : State) : State :=
  if s.on (LNK_CMP_CTRL.ARMED k) = true ∧ s.rd64 (LNK_CMP_LO.reg k) = s.atb then fireCmp k false s else s

/-- The pulse of an old value that matches in this very tick. -/
def cmpOld (s : State) (k : Nat) : List Nat :=
  if s.on (LNK_CMP_CTRL.ARMED k) = true ∧ s.rd64 (LNK_CMP_LO.reg k) = s.atb then cmpChannels s k else []

theorem armCmp_eq (k v : Nat) (s : State) :
    armCmp k v s =
      let u := (cmpMatched k s).wr64 (LNK_CMP_LO.reg k) v
      if v ≤ (cmpMatched k s).atb then fireCmp k true u else (u.wr (LNK_CMP_CTRL.ARMED k) 1).wr (LNK_CMP_CTRL.LATE k) 0 := rfl

theorem cmpMatched_spec {s : State} (h : s.inv = true) (k : Nat) :
    (cmpMatched k s).inv = true ∧ cmpChannels (cmpMatched k s) k = cmpChannels s k ∧
      onlyRegs (pulsed (cmpOld s k) s) (cmpMatched k s) [LNK_CMP_CTRL.reg k] := by
  unfold cmpMatched cmpOld
  split
  · have hf := fireCmp_fired h k false
    exact ⟨hf.inv, hf.channels, hf.only⟩
  · rw [pulsed_nil]
    exact ⟨h, rfl, onlyRegs_refl s _⟩

/-- The registers of comparator k. -/
def cmpRegs (k : Nat) : List Nat := [LNK_CMP_LO.reg k, LNK_CMP_HI.reg k, LNK_CMP_CTRL.reg k]

/-- The state in which an armed comparator's value is judged: an old match has fired and the new value is written. -/
def cmpValued (k v : Nat) (s : State) : State := (cmpMatched k s).wr64 (LNK_CMP_LO.reg k) v

theorem cmpValued_spec {s : State} {v : Nat} (h : s.inv = true) (hv : v < 2 ^ 64) (k : Nat) :
    (cmpValued k v s).inv = true ∧ (cmpValued k v s).rd64 (LNK_CMP_LO.reg k) = v ∧ cmpChannels (cmpValued k v s) k = cmpChannels s k ∧
      onlyRegs (pulsed (cmpOld s k) s) (cmpValued k v s) (cmpRegs k) := by
  obtain ⟨hi, hch, ho⟩ := cmpMatched_spec h k
  have hw := wr64_onlyRegs hi (LNK_CMP_LO.reg k) v
  refine ⟨inv_wr64 hi _ _, rd64_wr64 hi hv _, (cmpChannels_of_reg (hw.2 _ ?_)).trans hch, onlyRegs_sub (onlyRegs_trans ho hw) ?_⟩
  · simp only [LNK_CMP_CTRL.reg, LNK_CMP_LO.reg, List.mem_cons, List.not_mem_nil, or_false]
    omega
  · rw [show LNK_CMP_LO.reg k + 4 = LNK_CMP_HI.reg k by unfold LNK_CMP_LO.reg LNK_CMP_HI.reg; omega]
    simp [cmpRegs]

/-- A comparator's value is outside its control register. -/
theorem rd64_of_cmpCtrl {s t : State} {k : Nat} (h : onlyRegs s t [LNK_CMP_CTRL.reg k]) :
    t.rd64 (LNK_CMP_LO.reg k) = s.rd64 (LNK_CMP_LO.reg k) := by
  refine rd64_of_reg (h.2 _ ?_) (h.2 _ ?_) <;> simp only [LNK_CMP_CTRL.reg, LNK_CMP_LO.reg, List.mem_singleton] <;> omega

/-- A value that is not ahead fires in the tick of arming with LATE (R136). -/
theorem armCmp_behind {s : State} {v : Nat} (h : s.inv = true) (hv : v < 2 ^ 64) (hle : v ≤ s.atb) (k : Nat) :
    let t := armCmp k v s
    t.rd64 (LNK_CMP_LO.reg k) = v ∧ t.on (LNK_CMP_CTRL.FIRED k) = true ∧ t.on (LNK_CMP_CTRL.ARMED k) = false ∧
      t.on (LNK_CMP_CTRL.LATE k) = true ∧ onlyRegs (pulsed (cmpOld s k ++ cmpChannels s k) s) t (cmpRegs k) := by
  obtain ⟨hi, hval, hch, ho⟩ := cmpValued_spec h hv k
  have hatb : (cmpMatched k s).atb = s.atb := by rw [(cmpMatched_spec h k).2.2.1]; rfl
  have hf := fireCmp_fired hi k true
  have hall := onlyRegs_trans (onlyRegs_pulsed ho (cmpChannels s k)) (hch ▸ hf.only)
  rw [armCmp_eq, hatb]
  dsimp only
  rw [if_pos hle]
  refine ⟨(rd64_of_cmpCtrl hf.only).trans hval, hf.fired, hf.armed, hf.late, ?_⟩
  rw [← pulsed_pulsed]
  exact onlyRegs_sub hall (by simp [cmpRegs])

/-- A value ahead arms the comparator (R136). -/
theorem armCmp_ahead {s : State} {v : Nat} (h : s.inv = true) (hv : v < 2 ^ 64) (hlt : s.atb < v) (k : Nat) :
    let t := armCmp k v s
    t.rd64 (LNK_CMP_LO.reg k) = v ∧ t.on (LNK_CMP_CTRL.ARMED k) = true ∧ t.on (LNK_CMP_CTRL.LATE k) = false ∧
      onlyRegs (pulsed (cmpOld s k) s) t (cmpRegs k) := by
  obtain ⟨hi, hval, -, ho⟩ := cmpValued_spec h hv k
  have hatb : (cmpMatched k s).atb = s.atb := by rw [(cmpMatched_spec h k).2.2.1]; rfl
  obtain ⟨haf, hfl, hl⟩ := cmpStatus_layout k
  have h1 := inv_wr hi (LNK_CMP_CTRL.ARMED k) 1
  have hctl : onlyRegs (cmpValued k v s) (((cmpValued k v s).wr (LNK_CMP_CTRL.ARMED k) 1).wr (LNK_CMP_CTRL.LATE k) 0) [LNK_CMP_CTRL.reg k] :=
    onlyRegs_sub (onlyRegs_trans (wr_onlyRegs _ _ 1 hi) (wr_onlyRegs _ (LNK_CMP_CTRL.LATE k) 0 h1))
      (by simp [LNK_CMP_CTRL.ARMED, LNK_CMP_CTRL.LATE])
  rw [armCmp_eq, hatb]
  dsimp only
  rw [if_neg (Nat.not_le_of_lt hlt)]
  refine ⟨(rd64_of_cmpCtrl hctl).trans hval, ?_, on_wr_flag h1 (by omega) rfl false, onlyRegs_sub (onlyRegs_trans ho hctl) (by simp [cmpRegs])⟩
  exact (on_of_rd (rd_wr_apart h1 (by omega) (.inr (.inl (by omega))))).trans (on_wr_flag hi (by omega) rfl true)

/-! ## The commands -/

/-- What the write of a high word leaves is told of the state in which the low word is held no longer (R10). -/
theorem onlyRegs_dropHeld {s t : State} {cs as : List Nat} (h : onlyRegs (pulsed cs s) t as) (lo : Nat) :
    (t.dropHeld lo).evr = { s.evr with pulses := s.evr.pulses ++ cs } ∧
      onlyRegs { s with evr := (t.dropHeld lo).evr, heldLo := sdel s.heldLo lo } (t.dropHeld lo) as := by
  obtain ⟨ht, hreg⟩ := h
  unfold State.dropHeld
  exact ⟨by rw [ht]; rfl, by rw [ht]; rfl, hreg⟩

theorem comparatorFire_reached {s : State} {k : Nat} (ha : s.on (LNK_CMP_CTRL.ARMED k) = true)
    (hv : s.rd64 (LNK_CMP_LO.reg k) ≤ (s.at_ (s.rd64 (LNK_CMP_LO.reg k))).atb) :
    comparatorFire k s = fireCmp k false (s.at_ (s.rd64 (LNK_CMP_LO.reg k))) := by
  unfold comparatorFire
  rw [if_pos ha]
  exact if_pos hv

theorem comparatorFire_idle {s : State} {k : Nat} (ha : s.on (LNK_CMP_CTRL.ARMED k) = false) : comparatorFire k s = s := by
  unfold comparatorFire
  exact if_neg (by rw [ha]; exact Bool.false_ne_true)

/-- Settles O22: an arming is an old match that fires, then the new value, which is behind and fires late or is ahead and armed; an armed
comparator fires when the ATB reaches its value. -/
theorem comparatorsFireAtTheirValue : Obligations.ComparatorsFireAtTheirValue := by
  intro f s k hi h hk
  have hk' := decide_eq_true hk
  refine ⟨fun hr => ?_, fun ha hrun hle => ?_, fun ha => ?_⟩
  · have hv := formed_lt s (LNK_CMP_LO.reg k) hi
    refine ⟨cmpHigh k hi s, ranged_p0Only hk' hr _, ?_⟩
    rcases Nat.lt_or_ge s.atb (formed s (LNK_CMP_LO.reg k) hi) with hlt | hle
    · obtain ⟨hval, harm, hlate, ho⟩ := armCmp_ahead h hv hlt k
      obtain ⟨hevr, hall⟩ := onlyRegs_dropHeld ho (LNK_CMP_LO.reg k)
      exact ⟨hval, fun hn => absurd hn (Nat.not_le_of_lt hlt), fun _ => ⟨harm, hlate, hevr⟩, hall⟩
    · obtain ⟨hval, hfired, harm, hlate, ho⟩ := armCmp_behind h hv hle k
      obtain ⟨hevr, hall⟩ := onlyRegs_dropHeld ho (LNK_CMP_LO.reg k)
      rw [← List.append_assoc] at hevr
      exact ⟨hval, fun _ => ⟨hfired, harm, hlate, hevr⟩, fun hn => absurd hn (Nat.not_lt_of_ge hle), hall⟩
  · have hatb := at_atb_ahead hrun hle
    have hf := fireCmp_fired (inv_at h (s.rd64 (LNK_CMP_LO.reg k))) k false
    have hch : cmpChannels (s.at_ (s.rd64 (LNK_CMP_LO.reg k))) k = cmpChannels s k :=
      cmpChannels_of_reg (at_reg _ _ s h (.inr (by unfold LNK_CMP_CTRL.reg; omega)))
    refine ⟨fireCmp k false (s.at_ (s.rd64 (LNK_CMP_LO.reg k))), ?_, ?_, hf.fired, hf.armed, hf.late, ?_⟩
    · rw [← comparatorFire_reached ha hatb.ge]
      exact if_pos hk'
    · rw [hf.only.1]
      exact hatb
    · have ho := hf.only
      rw [hch] at ho
      unfold pulsed at ho
      rwa [at_evr] at ho
  · refine (if_pos hk').trans ?_
    rw [comparatorFire_idle ha]

end Sys2Proof.Machine

/-! DISARM, the PAN entries, and the enable and the cells of the hopping schedule (R137, R144, R168, R170). -/

namespace Sys2Proof.Machine

theorem disarm_sets {f : Fn} {s : State} {k : Nat} (h : s.inv = true) (hk : k < 64) (hr : reaches s f (LNK_CMP_CTRL.reg k)) :
    ∃ t, exec (.disarm f k) s = .next t ∧ sets s t (LNK_CMP_CTRL.ARMED k) 0 :=
  ⟨disarmCmp k s, ranged_p0Only (decide_eq_true hk) hr _, wr_sets s _ 0 h (Nat.le_of_ble_eq_true rfl) (Nat.two_pow_pos _)⟩

/-! ## PAN entries -/

/-- A clash of PAN entries is reported with the entry's number (R144). -/
def panReported (k : Nat) (s : State) : State := ((s.wr LNK_PAN_ERR.ENTRY k).wr LNK_PAN_ERR.SET 1).raise 4 5

theorem panWrite_eq (k w : Nat) (v : Word) (s : State) :
    panWrite k w v s =
      if panClash (s.regWrite (LNK_PAN_ID.reg k + 4 * w) v) k then panReported k s else s.regWrite (LNK_PAN_ID.reg k + 4 * w) v := rfl

theorem panReported_spec {s : State} {k : Nat} (h : s.inv = true) (hk : k < 64) :
    let t := panReported k s
    t.rd LNK_PAN_ERR.ENTRY = k ∧ t.rd LNK_PAN_ERR.SET = 1 ∧ flagged t 4 5 ∧ raisedOnly s t [LNK_PAN_ERR.reg, LNK_EVT_STS.reg] := by
  have h1 := inv_wr h LNK_PAN_ERR.ENTRY k
  have h2 := inv_wr h1 LNK_PAN_ERR.SET 1
  have read : ∀ f : RegFld, f.addr = LNK_PAN_ERR.reg →
      (panReported k s).rd f = ((s.wr LNK_PAN_ERR.ENTRY k).wr LNK_PAN_ERR.SET 1).rd f := fun f hf =>
    raise_rd _ 4 5 f h2 (hf ▸ noPba_of_lt (by decide)) (by rw [hf]; decide)
  refine ⟨?_, ?_, raise_flagged _ 4 5 _ h2 rfl (by decide), ?_⟩
  · rw [read _ rfl, rd_wr_apart h1 (by decide) (.inr (.inl (by decide)))]
    exact rd_wr_fits h (by decide) hk
  · rw [read _ rfl]
    exact rd_wr_fits h1 (by decide) (by decide)
  · exact raisedOnly_sub (raisedOnly_trans (raisedOnly_trans (wr_raisedOnly s LNK_PAN_ERR.ENTRY k h) (wr_raisedOnly _ LNK_PAN_ERR.SET 1 h1))
      (raise_raisedOnly _ 4 5 _ h2 rfl)) (by decide)

theorem exec_panEntryWrite {f : Fn} {s : State} {k w : Nat} (hk : k < 64) (hw : w < 4) (hr : reaches s f (LNK_PAN_ID.reg k + 4 * w)) (v : Word) :
    exec (.panEntryWrite f k w v) s = .next (panWrite k w v s) :=
  ranged_p0Only (Bool.and_eq_true_iff.mpr ⟨decide_eq_true hk, decide_eq_true hw⟩) hr _

/-! ## The hopping schedule -/

theorem exec_tschEnableWrite {f : Fn} {s : State} (hr : reaches s f LNK_TSCH_CTRL.reg) (en : Bool) :
    exec (.tschEnableWrite f en) s = .next (tschEnable en s) := congrArg Host.Outcome.next (p0Only_reaches hr _)

/-- EN stays where the template fails its conditions or EN is set already (R168). -/
theorem tschEnable_stays {s : State} (h : templateOk s = false ∨ s.on LNK_TSCH_CTRL.EN = true) : tschEnable true s = s := by
  unfold tschEnable
  rw [if_pos rfl]
  rcases h with h | h
  · rw [if_neg (by rw [h]; exact Bool.false_ne_true)]
  · rw [if_pos h, ite_self]

theorem tschEnable_starts {s : State} (ht : templateOk s = true) (hoff : s.on LNK_TSCH_CTRL.EN = false) :
    tschEnable true s = ({ s with lnk := { s.lnk with asnRead := 0 } } : State).wr LNK_TSCH_CTRL.EN 1 := by
  unfold tschEnable
  rw [if_pos rfl, if_pos ht, if_neg (by rw [hoff]; exact Bool.false_ne_true)]
  rfl

/-- The lock of the link controller's block governs the cells (R14, R175). -/
theorem locked_CELL0 {c : Nat} (hc : c < 8192) (s : State) : s.locked (LNK_CELL0.reg c) = s.on LNK_CTRL.LOCK := by
  have hlock : lockOf (LNK_CELL0.reg c) = some LNK_CTRL.LOCK := by
    have hlo : 0x410000 ≤ LNK_CELL0.reg c := Nat.le_add_right _ _
    have hhi : LNK_CELL0.reg c < 0x420000 := by
      unfold LNK_CELL0.reg
      omega
    unfold lockOf
    repeat rw [if_neg (by omega)]
    exact if_pos (by omega)
  unfold State.locked
  rw [hlock]

theorem exec_tschCellWrite {f : Fn} {s : State} {c w : Nat} (hc : c < 8192) (hw : w < 2) (hr : reaches s f (LNK_CELL0.reg c + 4 * w)) (v : Word) :
    exec (.tschCellWrite f c w v) s = .next (cellWrite 0 (fnKind f) c w v s) := by
  have htag : fnTag f = 0 := hr.2.2.1
  rw [← htag]
  exact ranged_p0Only (Bool.and_eq_true_iff.mpr ⟨decide_eq_true hc, decide_eq_true hw⟩) hr _

section
variable {s : State} {c : Nat} (hc : c < 8192)
include hc

theorem cellWrite_locked (hl : s.on LNK_CTRL.LOCK = true) (kind w : Nat) (v : Word) : cellWrite 0 kind c w v s = s :=
  if_pos ((locked_CELL0 hc s).trans hl)

theorem cellWrite_open (hl : s.on LNK_CTRL.LOCK = false) (kind w : Nat) (v : Word) :
    cellWrite 0 kind c w v s =
      if w = 0 then s.setReg (LNK_CELL0.reg c) v
      else if s.handleOwner (bf v 0 16) ≠ bf v 24 6 then s.bark 0 kind 7 c else s.regWrite (LNK_CELL1.reg c) v :=
  if_neg (by rw [locked_CELL0 hc s, hl]; exact Bool.false_ne_true)

end

/-- Settles O23: each command is one write, of which the conditions of its rule decide. -/
theorem disarmAndPanEntriesAndTschWrites : Obligations.DisarmAndPanEntriesAndTschWrites := by
  intro f s h
  refine ⟨fun k hk hr => disarm_sets h hk hr, fun k w v hk hw hr => ?_, fun hr => ⟨?_, fun hs => ?_, fun ht hoff => ?_⟩, fun c v hc hr0 hr1 => ?_⟩
  · rw [exec_panEntryWrite hk hw hr, panWrite_eq]
    refine ⟨fun hno => ?_, fun hyes => ?_⟩
    · rw [if_neg (by rw [hno]; exact Bool.false_ne_true)]
    · rw [if_pos hyes]
      exact ⟨panReported k s, rfl, panReported_spec h hk⟩
  · exact ⟨_, exec_tschEnableWrite hr false, wr_sets s _ 0 h (by decide) (by decide)⟩
  · rw [exec_tschEnableWrite hr, tschEnable_stays hs]
  · refine ⟨_, exec_tschEnableWrite hr true, ?_⟩
    rw [tschEnable_starts ht hoff]
    exact wr_sets _ _ 1 h (by decide) (by decide)
  · rw [exec_tschCellWrite hc (by decide) hr0, exec_tschCellWrite hc (by decide) hr1]
    refine ⟨fun hl => ?_, fun hl => ⟨?_, fun ho => ?_, fun ho => ?_⟩⟩
    · rw [cellWrite_locked hc hl, cellWrite_locked hc hl]
      exact ⟨rfl, rfl⟩
    · rw [cellWrite_open hc hl, if_pos rfl]
    · rw [cellWrite_open hc hl, if_neg (by decide), if_neg (fun hn => hn ho)]
    · rw [cellWrite_open hc hl, if_neg (by decide), if_pos ho]

end Sys2Proof.Machine

/-! An acknowledgement request may hold any number as its rate (R149, R151, R195). -/

namespace Sys2Proof.Machine

/-! ## A secured frame in an acknowledgement slot (R118) -/

/-- A secured frame stands in its slot as it was handed over, with its order of arrival. -/
theorem stageSlot_secured {x : Ent} {s : State} {r : State × Nat} (hx : x.secure = true) (h : stageSlot x s = some r) :
    r.1.que = s.que ∧ r.1.txc.ents = sset (fun _ => {}) s.txc.ents r.2 { x with st := 1, seqNo := s.txc.arrivals } := by
  unfold stageSlot at h
  split at h
  · dsimp only at h
    rw [if_pos hx] at h
    obtain rfl := Option.some.inj h
    exact ⟨rfl, rfl⟩
  · exact absurd h (Option.some_ne_none r).symm

/-- An acknowledgement whose node's queue is empty has no follow-up (R153). -/
theorem followUp_none {x : Ent} {s : State} {h : Nat} (hn : x.node = some h) (hh : headItem s h = none) : followUp x s = s := by
  unfold followUp
  rw [hn]
  dsimp only
  rw [hh]

/-- The state in which a request's acknowledgement is built: its node has been read, and it waits no longer (R149, R195). -/
def ackDue (k : Nat) (a : AckReq) (s : State) : State :=
  let u := readNode a.node (s.at_ (a.fend + 2048))
  { u with lnk := { u.lnk with acks := u.lnk.acks.eraseIdx k } }

/-- The acknowledgement of a request as the state at its build gives it. -/
def ackFor (k : Nat) (a : AckReq) (s : State) : Ent := ackEnt a (pendingBit (ackDue k a s) a.node) (ackDue k a s)

theorem ackBuild_verified {s : State} {k : Nat} {a : AckReq} (ha : s.lnk.acks[k]? = some a) (hv : a.verdict = some true) :
    ackBuild k s =
      match stageSlot (ackFor k a s) (ackDue k a s) with
      | none => ((ackDue k a s).inc LNK_CNT_ACK_NOCRED.COUNT).raise 4 0
      | some r => followUp (ackFor k a s) ((chargeAir (ackFor k a s).part (ackFor k a s).charge r.1).inc LNK_CNT_ACK.COUNT) := by
  unfold ackBuild
  rw [ha]
  dsimp only
  rw [hv]
  rfl

theorem headItem_none {s : State} {h : Nat} (hq : s.nc h NC.HEAD = noCell) : headItem s h = none := if_pos hq

theorem ent_of_ents {s t : State} (h : s.txc.ents = t.txc.ents) (e : Nat) : s.ent e = t.ent e := by unfold State.ent; rw [h]

/-- A secured acknowledgement to a node with an empty queue leaves the entries as they were, or takes one of them. -/
theorem ackBuild_secured {s : State} {k h : Nat} {a : AckReq} (ha : s.lnk.acks[k]? = some a) (hv : a.verdict = some true)
    (hn : a.node = some h) (hq : (ackDue k a s).nc h NC.HEAD = noCell) (hs : (ackFor k a s).secure = true) :
    (ackBuild k s).txc.ents = (ackDue k a s).txc.ents ∨
      ∃ e n, (ackBuild k s).txc.ents = ((ackDue k a s).setEnt e { ackFor k a s with st := 1, seqNo := n }).txc.ents := by
  rw [ackBuild_verified ha hv]
  cases hst : stageSlot (ackFor k a s) (ackDue k a s) with
  | none =>
    refine .inl ?_
    dsimp only
    rw [raise_txc, inc_txc]
  | some r =>
    obtain ⟨hque, hents⟩ := stageSlot_secured hs hst
    have hnone : headItem ((chargeAir (ackFor k a s).part (ackFor k a s).charge r.1).inc LNK_CNT_ACK.COUNT) h = none :=
      headItem_none ((nc_of_que hque h NC.HEAD).trans hq)
    refine .inr ⟨r.2, (ackDue k a s).txc.arrivals, ?_⟩
    dsimp only
    rw [followUp_none (x := ackFor k a s) hn hnone]
    exact hents

/-- Where no entry was in use, one that is in use has the acknowledgement's air time. -/
theorem ackBuild_air {s : State} {k h : Nat} {a : AckReq} (ha : s.lnk.acks[k]? = some a) (hv : a.verdict = some true)
    (hn : a.node = some h) (hq : (ackDue k a s).nc h NC.HEAD = noCell) (hs : (ackFor k a s).secure = true)
    (hfree : ∀ e, ((ackDue k a s).ent e).st = 0) {e : Nat} (he : ((ackBuild k s).ent e).st ≠ 0) :
    ((ackBuild k s).ent e).air = (ackFor k a s).air := by
  rcases ackBuild_secured ha hv hn hq hs with h0 | ⟨d, n, h1⟩
  · rw [ent_of_ents h0] at he
    exact absurd (hfree e) he
  · have hy : ({ ackFor k a s with st := 1, seqNo := n } : Ent) ≠ {} := ent_ne_of_st Nat.one_ne_zero
    rw [ent_of_ents h1] at he ⊢
    by_cases hd : e = d
    · rw [hd, ent_setEnt_same _ _ hy]
    · rw [ent_setEnt_ne _ hy hd] at he
      exact absurd (hfree e) he

/-- The rate number whose turnaround would stand in QUE_PAR_LOG. -/
def strayTurn : Nat := 0x7FF9

theorem strayTurn_reg : LNK_RATE_TURN.reg strayTurn = QUE_PAR_LOG.reg := by decide

/-- A verified Enh-ACK to node 1, at that rate. -/
def strayAck : AckReq :=
  { node := some 1, part := 0, pan := none, rate := strayTurn, grid := 0, chan := 0, fofs := 0, ant := 0, fend := 0, lane := 0, tsch := false, tcorr := 0
    slot := none, verdict := some true
    hdr := { ftype := 1, version := 2, ackReq := true, seq := 0, seqSuppr := false, dstPan := none, srcPan := none, dst := .none, src := .none, secured := true
             level := 5, keyMode := 0, keyIndex := 0, keySource := 0, counter := 0, hdrLen := 0, minLen := 0, csl := none, fcs := 2 } }

/-- The request waits for its build, and the context of node 1, whose queue is empty, has a bad word. -/
def strayAcked : State :=
  { State.reset with
    lnk := { State.reset.lnk with acks := [strayAck] }
    que := { State.reset.que with nodes := [(1, { ctx := NC.HEAD.put 0 noCell, life := 1, badPar := 1 })] } }

theorem strayAcked_ready :
    strayAcked.inv = true ∧ strayAcked.lnk.acks[0]? = some strayAck ∧ strayAcked.rd (LNK_RATE_TURN.TURN strayTurn) = 0 ∧
      (ackDue 0 strayAck strayAcked).txc.ents = [] ∧ (ackDue 0 strayAck strayAcked).nc 1 NC.HEAD = noCell := by decide +kernel

/-- The parity log that the reading of the node writes is the turnaround of the acknowledgement's rate. -/
theorem strayAcked_air : (ackFor 0 strayAck strayAcked).secure = true ∧ (ackFor 0 strayAck strayAcked).air = 0x100001 := by decide +kernel

/-- Refutes O21: the invariant does not bound a request's rate, and the last clause has the air time follow from the turnaround that stood
before the node was read. In `strayAcked` the turnaround of the request's rate is the parity log, which reads zero until the reading of the
node logs the bad word of its context: the acknowledgement goes to the air 0x100001 ticks after the frame's end. -/
theorem not_acknowledgementsAreBuiltAtTheirInstant : ¬ Obligations.AcknowledgementsAreBuiltAtTheirInstant := by
  intro h
  obtain ⟨hinv, hack, hturn, hents, hqueue⟩ := strayAcked_ready
  obtain ⟨hsec, hat⟩ := strayAcked_air
  obtain ⟨-, -, -, hbuilt⟩ := h strayAcked 0 strayAck hinv (by decide) hack
  obtain ⟨t, e, ht, -, -, -, hst, -, -, -, hair, -⟩ := hbuilt rfl ⟨1024, by decide, by decide, rfl⟩
  obtain rfl : ackBuild 0 strayAcked = t := Host.Outcome.next.inj ht
  have hfree : ∀ d, ((ackDue 0 strayAck strayAcked).ent d).st = 0 := fun d => by
    unfold State.ent
    rw [hents]
    rfl
  rw [ackBuild_air hack rfl rfl hqueue hsec hfree hst, hat] at hair
  rw [if_neg (by decide), show strayAck.rate = strayTurn from rfl, hturn] at hair
  exact absurd hair (by decide)

end Sys2Proof.Machine

/-! A retry's staging entry may hold any number as its partition (R159, R195, R205, R293). -/

namespace Sys2Proof.Machine

/-- The partition number whose airtime use would stand in the first word of the pending-bit array. -/
def strayPart : Nat := 0x20300

theorem strayPart_reg : PRT_PAIR.reg strayPart 0 = HST_PBA.reg 0 := by decide

/-- Entry 0 holds item 7 of node 1 for that partition, and 10 ticks of airtime are its charge. -/
def strayHeld : Ent := { st := 8, part := strayPart, node := some 1, item := some 7, charge := 10 }

/-- The attempt of entry 0 whose wait closes. -/
def strayAtt : Att := { id := 0, ent := 0, node := 1, part := 0, seq := 0, grid := 0, chan := 0, wOpen := 0, close := 0, expect := 0, done := false, closed := false }

/-- The wait of entry 0 closes with a retry left, its airtime share passes, and the context of node 1 has a bad word: the event that
reports it is enabled, and the masked vector 31 stands for events. -/
def strayRetry : State :=
  { [(PRT_AIR_CTRL.EN, 1), (PRT_AIR_TOTAL.TICKS, 1000), (PRT_P_AIR_CAP.CAP strayPart, 100), (⟨QUE_EVT_STS.reg + 4, 2, 1⟩, 1), (HST_EVT_VEC.EN, 1),
      (HST_EVT_VEC.VECTOR, 31)].foldl (fun u p => u.wr p.1 p.2) State.reset with
    lnk := { State.reset.lnk with atts := [strayAtt] }
    txc := { State.reset.txc with ents := [(0, strayHeld)] }
    que := { State.reset.que with nodes := [(1, { life := 1, badPar := 1 })] } }

theorem strayRetry_ready :
    strayRetry.inv = true ∧ strayRetry.lnk.atts[0]? = some strayAtt ∧ matchUnderWay (strayRetry.at_ strayAtt.close) strayAtt = false ∧
      strayRetry.ent strayAtt.ent = strayHeld ∧ cancelWaits strayRetry 7 = false ∧ triesOver strayRetry 7 = false ∧
      (strayRetry.node strayAtt.node).life = 1 ∧ strayRetry.nc strayAtt.node NC.CLASS = 0 ∧ strayRetry.ih 7 IH.DEADLINE = 0 ∧
      airOk (strayRetry.at_ strayAtt.close) strayHeld.part strayHeld.charge = true := by decide +kernel

/-- The event of the bad context leaves its message pending, which the share of that partition then takes for airtime used: the retry is
deferred. -/
theorem strayRetry_defers : ((ackWaitClose 0 strayRetry).ent strayAtt.ent).st = 8 := by decide +kernel

/-- Refutes O25: the invariant does not bound an entry's partition, and the last clause has the airtime share judged before the
node is read. In `strayRetry` the use of the entry's partition is a word of the pending-bit array: the share passes, the reading of the node
raises the event of its bad context, whose message stays pending in that word, and then the share fails, so that the retry is not placed. -/
theorem not_waitsAndDeadlinesEndAttempts : ¬ Obligations.WaitsAndDeadlinesEndAttempts := by
  intro h
  obtain ⟨hinv, hatt, hmatch, hent, hcancel, htries, hlife, hclass, hdead, hair⟩ := strayRetry_ready
  obtain ⟨-, -, -, -, hwait⟩ := h strayRetry hinv
  obtain ⟨-, hcloses⟩ := hwait 0 strayAtt (by decide) hatt rfl rfl
  obtain ⟨-, -, -, hretry⟩ := hcloses hmatch 7 (by rw [hent]; rfl) (by rw [hent]; rfl) (by decide)
  obtain ⟨t, b, ht, -, hst, -⟩ := hretry hcancel htries hlife hclass hdead (by rw [hent]; exact hair)
  obtain rfl : ackWaitClose 0 strayRetry = t := Host.Outcome.next.inj ht
  rw [strayRetry_defers] at hst
  exact absurd hst (by decide)

end Sys2Proof.Machine

/-! The scheduler's placements by node class, and the airtime period (R165, R176, R196, R205, R206). -/

namespace Sys2Proof.Machine

/-! ## What a placement reads -/

theorem ctxCheck_good {s : State} {h : Nat} (hp : (s.node h).badPar = 0) : ctxCheck h s = s := if_pos (.inl hp)

theorem readHeaders_one_good {s : State} {hc : Nat} (hb : badCell (s.cell hc) = false) (h : Nat) : readHeaders h [hc] s = (s, true) := by
  unfold readHeaders
  rw [List.find?_cons_of_neg (by rw [hb]; exact Bool.false_ne_true), List.find?_nil]

theorem readHeaders_one_bad {s : State} {h hc : Nat} (hb : badCell (s.cell hc) = true) (hl : (s.node h).life = 1) :
    readHeaders h [hc] s = (startSweep h hc (cellParity hc s), false) := by
  unfold readHeaders
  rw [show [hc].find? (fun k => badCell (s.cell k)) = some hc from List.find?_cons_of_pos hb]
  exact congrArg (fun u : State => (u, false)) (if_pos hl)

/-! ## A queue written anew -/

/-- Nothing but the queue fabric's state differs. -/
def queOnly (s t : State) : Prop := ∃ q, t = { s with que := q }

theorem queOnly_trans {s t u : State} (a : queOnly s t) (b : queOnly t u) : queOnly s u := by
  obtain ⟨p, rfl⟩ := a
  obtain ⟨q, rfl⟩ := b
  exact ⟨q, rfl⟩

theorem queOnly_setCell (s : State) (k : Nat) (c : FCell) : queOnly s (s.setCell k c) := ⟨_, rfl⟩

theorem queOnly_setNode (s : State) (n : Nat) (x : Node) : queOnly s (s.setNode n x) := ⟨_, rfl⟩

theorem queOnly_linkNext : ∀ (ks : List Nat) (s : State), queOnly s (linkNext ks s)
  | [], s => ⟨s.que, rfl⟩
  | k :: ks, s => queOnly_trans (queOnly_setCell s k _) (queOnly_linkNext ks _)

theorem queOnly_ncPut (s : State) (n : Nat) (f : Fld) (v : Nat) : queOnly s (s.ncPut n f v) := queOnly_setNode s n _

theorem queOnly_foldl_ncPut (h : Nat) (f : Nat → Fld) (g : Nat → Nat) :
    ∀ (ks : List Nat) (s : State), queOnly s (ks.foldl (fun v k => v.ncPut h (f k) (g k)) s)
  | [], s => ⟨s.que, rfl⟩
  | k :: ks, s => queOnly_trans (queOnly_ncPut s h (f k) (g k)) (queOnly_foldl_ncPut h f g ks _)

theorem queOnly_setQueue (h : Nat) (items : List Nat) (s : State) : queOnly s (setQueue h items s) := by
  have links := queOnly_linkNext items s
  have head := queOnly_ncPut (linkNext items s) h NC.HEAD (items.headD noCell)
  have tails := queOnly_foldl_ncPut h NC.TAIL (lastOfLevel s items) [0, 1, 2, 3] ((linkNext items s).ncPut h NC.HEAD (items.headD noCell))
  rw [setQueue_eq]
  exact queOnly_trans (queOnly_trans links head) tails

/-- An item that leaves its queue changes nothing but the fabric. -/
theorem queOnly_unlinkItem (h hc : Nat) (s : State) : queOnly s (unlinkItem h hc s) := queOnly_setQueue _ _ s

theorem unlinkItem_lnk (h hc : Nat) (s : State) : (unlinkItem h hc s).lnk = s.lnk := by
  obtain ⟨q, e⟩ := queOnly_unlinkItem h hc s
  rw [e]

/-- Which item leaves a queue depends on the fabric alone. -/
theorem que_unlinkItem {s t : State} (e : s.que = t.que) (h hc : Nat) : (unlinkItem h hc s).que = (unlinkItem h hc t).que := by
  unfold unlinkItem
  rw [queueItems_of_que e]
  exact que_setQueue e _ _

/-! ## Placing -/

section
variable {s : State} {h hc : Nat} {x : Ent}

theorem chargeAir_lnk (p a : Nat) (s : State) : (chargeAir p a s).lnk = s.lnk := rfl

theorem chargeAir_que (p a : Nat) (s : State) : (chargeAir p a s).que = s.que := rfl

theorem pushScheds_scheds (xs : List Ent) (s : State) : (pushScheds xs s).lnk.scheds = s.lnk.scheds ++ xs.map (fun x => ({ ent := x } : Sched)) := by
  unfold pushScheds
  dsimp only
  rw [foldl_same State.lnk _ xs s fun u x => chargeAir_lnk x.part x.charge u]

theorem pushScheds_seqs (xs : List Ent) (s : State) : (pushScheds xs s).lnk.seqs = s.lnk.seqs := by
  unfold pushScheds
  dsimp only
  rw [foldl_same State.lnk _ xs s fun u x => chargeAir_lnk x.part x.charge u]

theorem pushScheds_que (xs : List Ent) (s : State) : (pushScheds xs s).que = s.que := by
  unfold pushScheds
  dsimp only
  rw [foldl_same State.que _ xs s fun u x => chargeAir_que x.part x.charge u]

/-- The schedule queue with an entry at its end. -/
def scheduled (x : Ent) (s : State) : State := { s with lnk := { s.lnk with scheds := s.lnk.scheds ++ [(⟨x⟩ : Sched)] } }

theorem pushScheds_one (x : Ent) (s : State) : pushScheds [x] s = chargeAir x.part x.charge (scheduled x s) := rfl

/-- Airtime is charged to a partition, and nothing else changes (R206). -/
theorem chargeAir_spec (hs : s.inv = true) (p a : Nat) :
    (chargeAir p a s).rd (PRT_PAIR.VALUE p 0) = (s.rd (PRT_PAIR.VALUE p 0) + a) % 2 ^ 32 ∧ onlyRegs s (chargeAir p a s) [PRT_PAIR.reg p 0] :=
  ⟨rd_wr_same s (PRT_PAIR.VALUE p 0) _ (Nat.le_refl 32) hs, wr_onlyRegs s (PRT_PAIR.VALUE p 0) _ hs⟩

theorem placeItem_placed (ht : inTime s hc x.air = true) (hn : s.lnk.scheds.length < 1024) (ha : airOk s x.part x.charge = true) :
    placeItem h hc x s = pushScheds [x] (unlinkItem h hc s) := by
  have hcred : schedCredit s 1 = true := decide_eq_true hn
  unfold placeItem
  rw [ht, ha, hcred]
  rfl

theorem placeItem_deferred (ht : inTime s hc x.air = true) (hn : s.lnk.scheds.length < 1024) (ha : airOk s x.part x.charge = false) :
    placeItem h hc x s = deferAir x.part s := by
  have hcred : schedCredit s 1 = true := decide_eq_true hn
  unfold placeItem
  rw [ht, ha, hcred]
  rfl

theorem placeItem_waits (hw : inTime s hc x.air = false ∨ 1024 ≤ s.lnk.scheds.length) : placeItem h hc x s = s := by
  unfold placeItem
  rcases hw with ht | hn
  · rw [ht, Bool.not_false, Bool.or_true]
    rfl
  · have hcred : schedCredit s 1 = false := decide_eq_false (Nat.not_le_of_lt (Nat.lt_succ_of_le hn))
    rw [hcred]
    rfl

/-- An item that is placed joins the schedule queue, is charged and leaves its queue (R165, R176, R206). -/
theorem placeItem_spec (hs : s.inv = true) (ht : inTime s hc x.air = true) (hn : s.lnk.scheds.length < 1024) (ha : airOk s x.part x.charge = true) :
    let t := placeItem h hc x s
    t.lnk.scheds = s.lnk.scheds ++ [(⟨x⟩ : Sched)] ∧
      t.rd (PRT_PAIR.VALUE x.part 0) = (s.rd (PRT_PAIR.VALUE x.part 0) + x.charge) % 2 ^ 32 ∧ t.que = (unlinkItem h hc s).que ∧
      onlyRegs { s with que := t.que, lnk := t.lnk } t [PRT_PAIR.reg x.part 0] := by
  obtain ⟨q, e⟩ := queOnly_unlinkItem h hc s
  have hu : (scheduled x { s with que := q }).inv = true := hs
  obtain ⟨hcharge, honly⟩ := chargeAir_spec hu x.part x.charge
  rw [placeItem_placed ht hn ha, pushScheds_one, e]
  exact ⟨rfl, hcharge, rfl, honly⟩

theorem startSeq_scheds (prog sfd fend air aend slot sample : Nat) (conds : BitVec 16) (h hc att : Option Nat) (s : State) :
    (startSeq prog sfd fend air aend slot sample conds h hc att s).lnk.scheds = s.lnk.scheds := rfl

theorem startSeq_seqs (prog sfd fend air aend slot sample : Nat) (conds : BitVec 16) (h hc att : Option Nat) (s : State) :
    (startSeq prog sfd fend air aend slot sample conds h hc att s).lnk.seqs.length = s.lnk.seqs.length + 1 := List.length_append

/-- The payload's entry of a class D item, at its air time behind the wake-up sequence (R166). -/
def wakePay (s : State) (h : Nat) (x : Ent) : Ent := { x with air := wakePayload s x.rate (wakePlan s h x.rate) }

/-- The entry of the wake-up sequence ahead of a class D item (R166). -/
def wakeOf (s : State) (h : Nat) (x : Ent) : Ent := wakeEnt s h (wakePlan s h x.rate) (wakePay s h x)

/-- An item of class D is placed behind its wake-up sequence, which has an entry of its own (R165, R166). -/
theorem placeWake_spec (ht : inTime s hc (wakePlan s h x.rate).start = true) (hn : s.lnk.scheds.length + 2 ≤ 1024)
    (ha : airOk s x.part (wakeOf s h x).charge = true)
    (hb : airOk (chargeAir x.part (wakeOf s h x).charge s) x.part (wakePay s h x).charge = true) :
    let t := placeWake h hc x s
    t.lnk.scheds = s.lnk.scheds ++ [(⟨wakeOf s h x⟩ : Sched), (⟨wakePay s h x⟩ : Sched)] ∧ t.que = (unlinkItem h hc s).que ∧
      t.lnk.seqs.length = s.lnk.seqs.length + 1 := by
  have hplaced : placeWake h hc x s =
      startSeq 4 0 0 (wakePlan s h x.rate).start 0 0 ((wakePlan s h x.rate).start + (wakePlan s h x.rate).g) 0 (some h) (some hc) none
        (pushScheds [wakeOf s h x, wakePay s h x] (unlinkItem h hc s.freed)) := by
    have hcred : schedCredit s 2 = true := decide_eq_true hn
    unfold placeWake
    change (if !schedCredit s 2 || !inTime s hc (wakePlan s h x.rate).start then s
      else if !airOk s x.part (wakeOf s h x).charge || !airOk (chargeAir x.part (wakeOf s h x).charge s) x.part (wakePay s h x).charge then
        deferAir x.part s
      else _) = _
    rw [ht, ha, hb, hcred]
    rfl
  rw [hplaced]
  refine ⟨?_, ?_, ?_⟩
  · rw [startSeq_scheds, pushScheds_scheds, unlinkItem_lnk]
    rfl
  · rw [startSeq_que, pushScheds_que]
    exact que_unlinkItem (freed_que s) h hc
  · rw [startSeq_seqs, pushScheds_seqs, unlinkItem_lnk]
    rfl

end

/-! ## The scheduler's turn -/

/-- The entry of an item of node h for the earliest instant the scheduler places for. -/
def leadEnt (s : State) (h hc : Nat) : Ent :=
  entOf s h hc 0 (leadInstant s) (itemChain s h hc) (s.ih hc IH.GRID) (s.ih hc IH.CHAN) (s.ih hc IH.ACK_REQ == 1)

theorem exec_schedulerPlace {h : Nat} (hh : h < 65536) (s : State) : exec (.schedulerPlace h) s = .next (schedulerPlace h s) :=
  if_pos (decide_eq_true hh)

theorem schedulerPlace_stopped {s : State} (htb : s.clk.tb = false) (h : Nat) : schedulerPlace h s = s := by
  unfold schedulerPlace
  rw [htb]
  rfl

section
variable {s : State} {h : Nat} (htb : s.clk.tb = true) (hr : heldRetry s h = none)
include htb hr

theorem schedulerPlace_empty (hh : headItem s h = none) : schedulerPlace h s = s := by
  unfold schedulerPlace
  rw [htb, hr, hh]
  rfl

variable {hc : Nat} (hh : headItem s h = some hc) (hp : (s.node h).badPar = 0)
include hh hp

theorem schedulerPlace_badHeader (hb : badCell (s.cell hc) = true) (hl : (s.node h).life = 1) :
    schedulerPlace h s = startSweep h hc (cellParity hc s) := by
  unfold schedulerPlace
  rw [htb, hr, hh]
  dsimp only
  rw [ctxCheck_good hp, readHeaders_one_bad hb hl]
  rfl

variable (hb : badCell (s.cell hc) = false)
include hb

theorem schedulerPlace_notTaken (ht : mayTake s h = false) : schedulerPlace h s = s := by
  unfold schedulerPlace
  rw [htb, hr, hh]
  dsimp only
  rw [ctxCheck_good hp, readHeaders_one_good hb]
  dsimp only
  rw [ht]
  rfl

variable (ht : mayTake s h = true)
include ht

/-- An item of a class S node waits for its cells (R171). -/
theorem schedulerPlace_classS (hcl : s.nc h NC.CLASS = 1) : schedulerPlace h s = s := by
  unfold schedulerPlace
  rw [htb, hr, hh]
  dsimp only
  rw [ctxCheck_good hp, readHeaders_one_good hb]
  dsimp only
  rw [ht, hcl]
  rfl

theorem schedulerPlace_classD (hcl : s.nc h NC.CLASS = 2) : schedulerPlace h s = placeWake h hc (leadEnt s h hc) s := by
  unfold schedulerPlace
  rw [htb, hr, hh]
  dsimp only
  rw [ctxCheck_good hp, readHeaders_one_good hb]
  dsimp only
  rw [ht, hcl]
  rfl

theorem schedulerPlace_atOnce (hcl : s.nc h NC.CLASS = 0 ∨ s.nc h NC.CLASS = 3) : schedulerPlace h s = placeItem h hc (leadEnt s h hc) s := by
  unfold schedulerPlace
  rw [htb, hr, hh]
  dsimp only
  rw [ctxCheck_good hp, readHeaders_one_good hb]
  dsimp only
  rw [ht]
  rcases hcl with hcl | hcl <;> rw [hcl] <;> rfl

end

/-! ## The airtime period (R206) -/

/-- A partition's airtime of the present period becomes that of the last, and counts from zero. -/
def periodTurned (s : State) (q : Nat) : State := (s.wr (PRT_PAIR.VALUE q 1) (s.rd (PRT_PAIR.VALUE q 0))).wr (PRT_PAIR.VALUE q 0) 0

/-- The airtime registers of a partition. -/
def airRegs (q : Nat) : List Nat := [PRT_PAIR.reg q 0, PRT_PAIR.reg q 1]

theorem mem_airRegs {q a : Nat} : a ∈ airRegs q ↔ a = PRT_PAIR.reg q 0 ∨ a = PRT_PAIR.reg q 1 := by
  unfold airRegs
  rw [List.mem_cons, List.mem_singleton]

theorem airRegs_disjoint {p q a : Nat} (hn : p ≠ q) (h : a ∈ airRegs p) : a ∉ airRegs q := by
  rw [mem_airRegs] at h ⊢
  simp only [PRT_PAIR.reg] at h ⊢
  omega

theorem airtimeBoundary_eq (s : State) :
    airtimeBoundary s =
      (List.range 64).foldl periodTurned (s.at_ (s.atb + (s.rd PRT_AIR_PERIOD.TICKS - s.atb % s.rd PRT_AIR_PERIOD.TICKS))) := rfl

/-- Partition q's airtime has turned over between s and t. -/
def turnedOver (s t : State) (q : Nat) : Prop := t.rd (PRT_PAIR.VALUE q 0) = 0 ∧ t.rd (PRT_PAIR.VALUE q 1) = s.rd (PRT_PAIR.VALUE q 0)

theorem periodTurned_spec {s : State} (h : s.inv = true) (q : Nat) :
    (periodTurned s q).inv = true ∧ turnedOver s (periodTurned s q) q ∧ onlyRegs s (periodTurned s q) (airRegs q) := by
  have h1 := inv_wr h (PRT_PAIR.VALUE q 1) (s.rd (PRT_PAIR.VALUE q 0))
  have hne : PRT_PAIR.reg q 1 ≠ PRT_PAIR.reg q 0 := by
    unfold PRT_PAIR.reg
    omega
  refine ⟨inv_wr h1 _ _, ⟨?_, ?_⟩, ?_⟩
  · exact rd_wr_fits h1 (Nat.le_refl 32) (Nat.two_pow_pos 32)
  · exact (rd_wr_other _ (PRT_PAIR.VALUE q 0) (PRT_PAIR.VALUE q 1) _ hne h1).trans (rd_wr_fits h (Nat.le_refl 32) (bf_lt _ 0 32))
  · exact onlyRegs_sub (onlyRegs_trans (wr_onlyRegs s (PRT_PAIR.VALUE q 1) _ h) (wr_onlyRegs _ (PRT_PAIR.VALUE q 0) 0 h1))
      (by simp [airRegs, PRT_PAIR.VALUE])

theorem foldl_periodTurned : ∀ (qs : List Nat) {s : State}, s.inv = true → qs.Nodup →
    (∀ q ∈ qs, turnedOver s (qs.foldl periodTurned s) q) ∧ onlyRegs s (qs.foldl periodTurned s) (qs.flatMap airRegs)
  | [], s, _, _ => ⟨fun _ hq => absurd hq List.not_mem_nil, onlyRegs_refl s _⟩
  | q :: qs, s, h, hn => by
    rw [List.nodup_cons] at hn
    obtain ⟨hi, hq, ho⟩ := periodTurned_spec h q
    obtain ⟨hrest, horest⟩ := foldl_periodTurned qs hi hn.2
    refine ⟨fun p hp => ?_, onlyRegs_trans ho horest⟩
    rcases List.mem_cons.mp hp with rfl | hp
    · have keeps : ∀ a ∈ airRegs p, (qs.foldl periodTurned (periodTurned s p)).reg a = (periodTurned s p).reg a := fun a ha =>
        horest.2 a fun hm => by
          obtain ⟨r, hr, har⟩ := List.mem_flatMap.mp hm
          exact airRegs_disjoint (fun e : p = r => hn.1 (e ▸ hr)) ha har
      exact ⟨(rd_of_reg (keeps _ (mem_airRegs.mpr (.inl rfl)))).trans hq.1, (rd_of_reg (keeps _ (mem_airRegs.mpr (.inr rfl)))).trans hq.2⟩
    · have hne : p ≠ q := fun e => hn.1 (e ▸ hp)
      obtain ⟨hzero, hlast⟩ := hrest p hp
      exact ⟨hzero, hlast.trans (rd_of_reg (ho.2 _ (airRegs_disjoint hne (mem_airRegs.mpr (.inl rfl)))))⟩

/-- The instant after a that lies on the next multiple of p. -/
theorem next_multiple {a p : Nat} (hp : p ≠ 0) : (a + (p - a % p)) % p = 0 ∧ a < a + (p - a % p) ∧ a + (p - a % p) ≤ a + p := by
  have hlt := Nat.mod_lt a (Nat.pos_of_ne_zero hp)
  have hsum : a + (p - a % p) = p * (a / p) + p := by
    have := Nat.div_add_mod a p
    omega
  exact ⟨by rw [hsum, Nat.mul_add_mod, Nat.mod_self], by omega, by omega⟩

theorem airtimeBoundary_spec {s : State} (h : s.inv = true) (hp : s.rd PRT_AIR_PERIOD.TICKS ≠ 0) :
    let t := airtimeBoundary s
    (∀ q, q < 64 → t.rd (PRT_PAIR.VALUE q 0) = 0 ∧ t.rd (PRT_PAIR.VALUE q 1) = s.rd (PRT_PAIR.VALUE q 0)) ∧
      (s.atbRuns = true → t.atb % s.rd PRT_AIR_PERIOD.TICKS = 0 ∧ s.atb < t.atb ∧ t.atb ≤ s.atb + s.rd PRT_AIR_PERIOD.TICKS) ∧
      onlyRegs (s.at_ (s.atb + (s.rd PRT_AIR_PERIOD.TICKS - s.atb % s.rd PRT_AIR_PERIOD.TICKS))) t ((List.range 64).flatMap airRegs) := by
  obtain ⟨hturned, honly⟩ := foldl_periodTurned (List.range 64)
    (inv_at h (s.atb + (s.rd PRT_AIR_PERIOD.TICKS - s.atb % s.rd PRT_AIR_PERIOD.TICKS))) List.nodup_range
  rw [airtimeBoundary_eq]
  refine ⟨fun q hq => ?_, fun hrun => ?_, honly⟩
  · obtain ⟨hzero, hlast⟩ := hturned q (List.mem_range.mpr hq)
    exact ⟨hzero, hlast.trans (at_rd h (Nat.le_trans (by decide) (Nat.le_add_right 0x705000 (0x10 * q))) _)⟩
  · rw [honly.1]
    dsimp only
    rw [at_atb_ahead hrun (Nat.le_add_right _ _)]
    exact next_multiple hp

/-- Settles O24: the scheduler's turn is one placement by the class of the node, and the period's boundary turns every partition's airtime
over. -/
theorem schedulerPlacesHeadItemsByClass : Obligations.SchedulerPlacesHeadItemsByClass := by
  intro s h hs hh
  rw [exec_schedulerPlace hh]
  refine ⟨fun htb => ?_, fun htb hr hq => ?_, fun hc htb hr hq hp hb hl => ?_, fun hc htb hr hq hp hb hm => ?_, fun hc htb hr hq hp hb hm => ?_,
    fun hp => ⟨_, rfl, airtimeBoundary_spec hs hp⟩⟩
  · rw [schedulerPlace_stopped htb]
  · rw [schedulerPlace_empty htb hr hq]
  · rw [schedulerPlace_badHeader htb hr hq hp hb hl]
  · rw [schedulerPlace_notTaken htb hr hq hp hb hm]
  · refine ⟨fun hcl => ?_, fun hcl => ?_, fun hcl ht hn ha hpay => ?_⟩
    · rw [schedulerPlace_classS htb hr hq hp hb hm hcl]
    · rw [schedulerPlace_atOnce htb hr hq hp hb hm hcl]
      refine ⟨fun ht hn ha => ?_, fun ht hn ha => ?_, fun hw => ?_⟩
      · obtain ⟨hsch, hcharge, hque, honly⟩ := placeItem_spec (h := h) (x := leadEnt s h hc) hs ht hn ha
        exact ⟨_, rfl, hsch, rfl, hcharge, hque, honly⟩
      · rw [placeItem_deferred (x := leadEnt s h hc) ht hn ha]
        exact ⟨_, rfl, incBy_sets s (PRT_PCNT.COUNT (leadEnt s h hc).part 1) 1 hs (Nat.le_refl 32)⟩
      · rw [placeItem_waits (x := leadEnt s h hc) hw]
    · rw [schedulerPlace_classD htb hr hq hp hb hm hcl]
      obtain ⟨hsch, hque, hseq⟩ := placeWake_spec (h := h) (x := leadEnt s h hc) ht hn ha hpay
      exact ⟨_, rfl, hsch, rfl, rfl, rfl, hque, hseq⟩

end Sys2Proof.Machine

/-! TSCH slots and the sequencers (R139, R168-R174). -/

namespace Sys2Proof.Machine

/-! ## What a slot's cells read -/

/-- The registers from 0x50000 on read in t as in s. -/
def highKept (s t : State) : Prop := ∀ a, 0x50000 ≤ a → t.reg a = s.reg a

theorem highKept_at {s : State} (hs : s.inv = true) (t : Nat) : highKept s (s.at_ t) := fun a ha => at_reg t a s hs (.inr ha)

/-- A base that lies there takes its offset along. -/
theorem high_add {b : Nat} (hb : 0x50000 ≤ b) (o : Nat) : 0x50000 ≤ b + o := Nat.le_trans hb (Nat.le_add_right b o)

section
variable {s t : State} (e : highKept s t)
include e

theorem rd_of_highKept {f : RegFld} (hf : 0x50000 ≤ f.addr) : t.rd f = s.rd f := rd_of_reg (e _ hf)

theorem on_of_highKept {f : RegFld} (hf : 0x50000 ≤ f.addr) : t.on f = s.on f := on_of_rd (rd_of_highKept e hf)

theorem cell0_of_highKept (c : Nat) : t.reg (LNK_CELL0.reg c) = s.reg (LNK_CELL0.reg c) :=
  e _ (high_add (Nat.le_of_ble_eq_true rfl) _)

theorem cell1_of_highKept (c : Nat) : t.reg (LNK_CELL1.reg c) = s.reg (LNK_CELL1.reg c) :=
  e _ (high_add (Nat.le_of_ble_eq_true rfl) _)

theorem sfCfg_of_highKept (f : Nat) : t.reg (LNK_SF_CFG.reg f) = s.reg (LNK_SF_CFG.reg f) :=
  e _ (high_add (Nat.le_of_ble_eq_true rfl) _)

theorem sfCells_of_highKept (f : Nat) : t.reg (LNK_SF_CELLS.reg f) = s.reg (LNK_SF_CELLS.reg f) :=
  e _ (high_add (Nat.le_of_ble_eq_true rfl) _)

theorem frameCells_of_highKept (asn f : Nat) : frameCells t asn f = frameCells s asn f := by
  have hen : t.on (LNK_SF_CFG.EN f) = s.on (LNK_SF_CFG.EN f) := on_of_rd (rd_of_reg (sfCfg_of_highKept e f))
  have hlen : t.rd (LNK_SF_CFG.LEN f) = s.rd (LNK_SF_CFG.LEN f) := rd_of_reg (sfCfg_of_highKept e f)
  have hcount : t.rd (LNK_SF_CELLS.COUNT f) = s.rd (LNK_SF_CELLS.COUNT f) := rd_of_reg (sfCells_of_highKept e f)
  have hbase : t.rd (LNK_SF_CELLS.BASE f) = s.rd (LNK_SF_CELLS.BASE f) := rd_of_reg (sfCells_of_highKept e f)
  have hcell : ∀ c, t.on (LNK_CELL1.EN c) = s.on (LNK_CELL1.EN c) := fun c => on_of_rd (rd_of_reg (cell1_of_highKept e c))
  have hslot : ∀ c, t.rd (LNK_CELL0.SLOT_OFFSET c) = s.rd (LNK_CELL0.SLOT_OFFSET c) := fun c => rd_of_reg (cell0_of_highKept e c)
  unfold frameCells
  simp only [hen, on_of_rd hlen, hlen, hcount, hbase, hcell, hslot]

theorem slotCells_of_highKept (asn : Nat) : slotCells t asn = slotCells s asn := by
  have hnode : ∀ c, t.rd (LNK_CELL1.NODE c) = s.rd (LNK_CELL1.NODE c) := fun c => rd_of_reg (cell1_of_highKept e c)
  have hframe : frameCells t asn = frameCells s asn := funext (frameCells_of_highKept e asn)
  unfold slotCells
  simp only [hnode, hframe]

theorem cellChannel_of_highKept (asn f c : Nat) : cellChannel t asn f c = cellChannel s asn f c := by
  have hhop : t.rd (LNK_SF_CFG.HOP f) = s.rd (LNK_SF_CFG.HOP f) := rd_of_reg (sfCfg_of_highKept e f)
  have hofs : t.rd (LNK_CELL0.CH_OFFSET c) = s.rd (LNK_CELL0.CH_OFFSET c) := rd_of_reg (cell0_of_highKept e c)
  have hlen : ∀ q, t.rd (LNK_HOP_LEN.LEN q) = s.rd (LNK_HOP_LEN.LEN q) := fun q =>
    rd_of_highKept e (high_add (Nat.le_of_ble_eq_true rfl) _)
  have hseq : ∀ q j, t.reg (LNK_HOP.reg q j) = s.reg (LNK_HOP.reg q j) := fun q j =>
    e _ (high_add (high_add (Nat.le_of_ble_eq_true rfl) _) _)
  have hgrid : ∀ q j, t.rd (LNK_HOP.GRID q j) = s.rd (LNK_HOP.GRID q j) := fun q j => rd_of_reg (hseq q j)
  have hchan : ∀ q j, t.rd (LNK_HOP.CHAN q j) = s.rd (LNK_HOP.CHAN q j) := fun q j => rd_of_reg (hseq q j)
  unfold cellChannel
  simp only [hhop, hofs, hlen, hgrid, hchan]

end

/-! ## A slot -/

/-- The start of slot asn (R168). -/
def slotStart (s : State) (asn : Nat) : Nat := s.rd64 LNK_TSCH_EPOCH_LO.reg + asn * s.rd LNK_TSCH_SLOT_LEN.TICKS

/-- The windows that the read of slot asn keeps: those whose slot ended less than 8,000,000 ticks ago. -/
def liveWins (s : State) : List RxWin := s.lnk.wins.filter (fun w => decide (s.atb < w.slotHi + 8000000))

/-- The instant of slot asn's read: the slot is read, and the windows still alive stay (R170). -/
def slotRead (s : State) (asn : Nat) : State :=
  let u := s.at_ (slotStart s asn - s.rd LNK_TSCH_LEAD.TICKS)
  { u with lnk := { u.lnk with asnRead := asn + 1, wins := liveWins u } }

/-- The state a slot's cells are run from, its sequencer begun (R173). -/
def slotBegun (s : State) (asn : Nat) : State := startSeq 5 0 0 0 0 (slotStart s asn) 0 0 none none none (slotRead s asn)

theorem exec_tschSlotRead (s : State) (asn : Nat) : exec (.tschSlotRead asn) s = .next (tschSlotRead asn s) := rfl

theorem tschSlotRead_off {s : State} {asn : Nat} (h : s.on LNK_TSCH_CTRL.EN = false ∨ s.clk.tb = false) : tschSlotRead asn s = s := by
  refine if_neg fun hc => ?_
  obtain ⟨hen, htb, -⟩ := hc
  rcases h with h | h
  · exact absurd (hen.symm.trans h) (by decide)
  · exact absurd (htb.symm.trans h) (by decide)

/-- A state's relation to the one a slot is read in: what its cells read is the same. -/
structure SlotView (s u : State) : Prop where
  regs : highKept s u
  que : u.que = s.que
  txc : u.txc = s.txc
  scheds : u.lnk.scheds = s.lnk.scheds
  retryAt : u.lnk.retryAt = s.lnk.retryAt

theorem slotBegun_asnRead (s : State) (asn : Nat) : (slotBegun s asn).lnk.asnRead = asn + 1 := rfl

theorem slotBegun_lnkOnly (s : State) (asn : Nat) :
    slotBegun s asn = { s.at_ (slotStart s asn - s.rd LNK_TSCH_LEAD.TICKS) with lnk := (slotBegun s asn).lnk } := rfl

theorem slotBegun_scheds (s : State) (asn : Nat) : (slotBegun s asn).lnk.scheds = s.lnk.scheds := by
  change (s.at_ _).lnk.scheds = _
  rw [at_lnk]

theorem slotBegun_retryAt (s : State) (asn : Nat) : (slotBegun s asn).lnk.retryAt = s.lnk.retryAt := by
  change (s.at_ _).lnk.retryAt = _
  rw [at_lnk]

theorem slotBegun_view {s : State} (hs : s.inv = true) (asn : Nat) : SlotView s (slotBegun s asn) where
  regs := highKept_at hs _
  que := at_que s _
  txc := at_txc s _
  scheds := slotBegun_scheds s asn
  retryAt := slotBegun_retryAt s asn

theorem heldRetry_of_view {s u : State} (v : SlotView s u) (h : Nat) : heldRetry u h = heldRetry s h := by
  unfold heldRetry
  rw [v.txc, v.retryAt]

theorem headItem_of_que {s t : State} (e : s.que = t.que) (h : Nat) : headItem s h = headItem t h := by
  unfold headItem
  rw [nc_of_que e]

theorem mayTake_of_que {s t : State} (e : s.que = t.que) (h : Nat) : mayTake s h = mayTake t h := by
  unfold mayTake
  rw [nc_of_que e, node_of_que e]

section
variable {s : State} {asn : Nat} (hen : s.on LNK_TSCH_CTRL.EN = true) (htb : s.clk.tb = true) (hasn : s.lnk.asnRead ≤ asn)
include hen htb hasn

theorem tschSlotRead_on : tschSlotRead asn s = (slotCells (slotRead s asn) asn).foldl (runCell asn (slotStart s asn)) (slotBegun s asn) :=
  if_pos ⟨hen, htb, hasn⟩

/-- The cells of a slot are those that stood before its read. -/
theorem tschSlotRead_one (hs : s.inv = true) {f c : Nat} (hcells : slotCells s asn = [(f, c)]) :
    tschSlotRead asn s = runCell asn (slotStart s asn) (slotBegun s asn) (f, c) := by
  have hkept : highKept s (slotRead s asn) := highKept_at hs _
  rw [tschSlotRead_on hen htb hasn, slotCells_of_highKept hkept, hcells]
  rfl

end

/-- A receive cell that has nothing to send opens its window (R139, R170). -/
theorem runCell_rx {asn st f c : Nat} {s : State} (hrx : s.on (LNK_CELL1.RX c) = true) (htx : s.on (LNK_CELL1.TX c) = false) :
    runCell asn st s (f, c) = cellRx st c (s.rd (LNK_CELL1.NODE c)) s := by
  unfold runCell
  dsimp only
  rw [htx, hrx]
  rfl

/-- The window that a receive cell for node h opens in the slot that starts at st (R139, R170). -/
def cellWin (st c h : Nat) (s : State) : RxWin :=
  { node := if s.on (LNK_CELL1.SHARED c) then none else some h, part := s.rd (LNK_CELL1.PART c)
    wOpen := st + s.rd LNK_TSCH_RX_OFS.TICKS, close := st + s.rd LNK_TSCH_RX_OFS.TICKS + s.rd LNK_TSCH_RX_WAIT.TICKS
    expect := st + s.rd LNK_TSCH_TX_OFS.TICKS, slotLo := st, slotHi := st + s.rd LNK_TSCH_SLOT_LEN.TICKS }

theorem cellRx_asnRead (st c h : Nat) (s : State) : (cellRx st c h s).lnk.asnRead = s.lnk.asnRead := rfl

theorem cellRx_wins (st c h : Nat) (s : State) : (cellRx st c h s).lnk.wins = s.lnk.wins ++ [cellWin st c h s] := rfl

theorem cellRx_lnkOnly (st c h : Nat) {s t : State} (e : s = { t with lnk := s.lnk }) :
    cellRx st c h s = { t with lnk := (cellRx st c h s).lnk } :=
  congrArg (fun u : State => { u with lnk := (cellRx st c h s).lnk }) e

/-- A transmit cell with something to send sends it (R170, R171). -/
theorem runCell_tx {asn st f c hc : Nat} {s : State} (htx : s.on (LNK_CELL1.TX c) = true) (hh : headItem s (s.rd (LNK_CELL1.NODE c)) = some hc) :
    runCell asn st s (f, c) =
      cellTx st (cellChannel s asn f c).1 (cellChannel s asn f c).2 c (s.rd (LNK_CELL1.NODE c)) s := by
  unfold runCell
  dsimp only
  rw [htx, hh]
  rfl

/-- The entry that a transmit cell gives node h's item for the air at st plus TX_OFS (R171). -/
def cellEnt (st g k c h hc : Nat) (s : State) : Ent :=
  { entOf s h hc 0 (st + s.rd LNK_TSCH_TX_OFS.TICKS) (if s.on (LNK_CELL1.BCAST c) then s.rd (LNK_CELL1.CHAIN c) else s.nc h NC.CHAIN) g k
      (!s.on (LNK_CELL1.BCAST c) && s.ih hc IH.ACK_REQ == 1) with
    tsch := true }

theorem cellTx_head {st g k c h hc : Nat} {s : State} (hr : heldRetry s h = none) (hh : headItem s h = some hc) (hp : (s.node h).badPar = 0)
    (hb : badCell (s.cell hc) = false) (hm : mayTake s h = true) : cellTx st g k c h s = placeItem h hc (cellEnt st g k c h hc s) s := by
  unfold cellTx
  dsimp only
  rw [hr, hh]
  dsimp only
  rw [ctxCheck_good hp, readHeaders_one_good hb]
  dsimp only
  rw [hm]
  rfl

theorem inTime_of_none {s : State} {hc : Nat} (hd : s.ih hc IH.DEADLINE = 0) (air : Nat) : inTime s hc air = true := by
  unfold inTime
  rw [hd]
  rfl

theorem airOk_of_off {s : State} (ha : s.on PRT_AIR_CTRL.EN = false) (p a : Nat) : airOk s p a = true := by
  unfold airOk
  rw [ha]
  rfl

/-! ## The sequencers -/

theorem exec_sequencerState (s : State) (k : Nat) : exec (.sequencerState k) s = .next (sequencerState k s) := rfl

theorem exec_sequencerClamp (s : State) (k : Nat) : exec (.sequencerClamp k) s = .next (sequencerClamp k s) := rfl

theorem sequencerState_none {s : State} {k : Nat} (h : s.lnk.seqs[k]? = none) : sequencerState k s = s := by
  unfold sequencerState
  rw [h]

theorem sequencerClamp_none {s : State} {k : Nat} (h : s.lnk.seqs[k]? = none) : sequencerClamp k s = s := by
  unfold sequencerClamp
  rw [h]

theorem sequencerState_off {s : State} (k : Nat) (h : s.on LNK_CTRL.EN = false) : sequencerState k s = s := by
  unfold sequencerState
  split
  · rfl
  · rw [h]
    rfl

/-- The k-th sequencer after its state's action: gone with END, else at NEXT. -/
def seqMoved (i : SeqInst) (x : BitVec 64) (now : Nat) : Option SeqInst :=
  if SS.END.of x = 1 then none else some { i with st := SS.NEXT.of x, entry := now }

section
variable {s : State} {k : Nat} {i : SeqInst} (hi : s.lnk.seqs[k]? = some i) (hen : s.on LNK_CTRL.EN = true)
include hi hen

theorem sequencerState_acts {x : BitVec 64} (hx : seqState s i.prog i.st = x) (hc : seqCond (s.at_ (seqInstant i x)) i (SS.COND.of x) = true) :
    sequencerState k s = setSeq k (seqMoved i x (s.at_ (seqInstant i x)).atb) (seqAction i x (s.at_ (seqInstant i x))) := by
  unfold sequencerState seqMoved
  rw [hi]
  dsimp only
  rw [hen, hx, hc]
  rw [if_neg (show ¬(!true) = true by decide), if_pos rfl]
  split <;> rfl

theorem sequencerState_waits {x : BitVec 64} (hx : seqState s i.prog i.st = x) (hc : seqCond (s.at_ (seqInstant i x)) i (SS.COND.of x) = false) :
    sequencerState k s =
      if SS.TIMEOUT_EN.of x = 1 then
        setSeq k (some { i with st := SS.ALT.of x, entry := (s.at_ (seqInstant i x)).atb }) (s.at_ (seqInstant i x))
      else s.at_ (seqInstant i x) := by
  unfold sequencerState
  rw [hi]
  dsimp only
  rw [hen, hx, hc]
  rfl

end

theorem setSeq_moved_end {i : SeqInst} {x : BitVec 64} (he : SS.END.of x = 1) (k now : Nat) (s : State) :
    (setSeq k (seqMoved i x now) s).lnk.seqs = s.lnk.seqs.eraseIdx k := by
  unfold seqMoved
  rw [if_pos he]
  rfl

theorem setSeq_moved_next {i : SeqInst} {x : BitVec 64} (he : SS.END.of x ≠ 1) (k now : Nat) (s : State) :
    (setSeq k (seqMoved i x now) s).lnk.seqs = s.lnk.seqs.set k { i with st := SS.NEXT.of x, entry := now } := by
  unfold seqMoved
  rw [if_neg he]
  rfl

theorem seqAction_lnk (i : SeqInst) (x : BitVec 64) (s : State) : (seqAction i x s).lnk = s.lnk := by
  unfold seqAction
  split
  · rfl
  · split
    · rfl
    · rw [raise_lnk, inc_lnk]

theorem seqAction_pulse {x : BitVec 64} (ha : SS.ACTION.of x = 10) (i : SeqInst) (s : State) : seqAction i x s = s.pulse (SS.ARG.of x) := if_pos ha

theorem seqAction_agrees {x : BitVec 64} {i : SeqInst} {s : State} (ha : SS.ACTION.of x ≠ 10) (hg : seqAgrees s i x = true) : seqAction i x s = s :=
  (if_neg ha).trans (if_pos hg)

/-- An action that disagrees with the rules: counted and raised (R174; log entry 82). -/
def seqConflict (s : State) : State := (s.inc LNK_CNT_SEQ_CLAMP.COUNT).raise 4 4

theorem seqAction_conflict {x : BitVec 64} {i : SeqInst} {s : State} (ha : SS.ACTION.of x ≠ 10) (hg : seqAgrees s i x = false) :
    seqAction i x s = seqConflict s :=
  (if_neg ha).trans (if_neg (hg ▸ Bool.false_ne_true))

theorem seqConflict_spec {s : State} (hs : s.inv = true) :
    flagged (seqConflict s) 4 4 ∧ (seqConflict s).rd LNK_CNT_SEQ_CLAMP.COUNT = min 0xFFFFFFFF (s.rd LNK_CNT_SEQ_CLAMP.COUNT + 1) ∧
      raisedOnly s (seqConflict s) [LNK_CNT_SEQ_CLAMP.reg, LNK_EVT_STS.reg] := by
  have hi := inv_inc hs LNK_CNT_SEQ_CLAMP.COUNT
  refine ⟨raise_flagged _ 4 4 LNK_EVT_STS.reg hi rfl (by decide), ?_, ?_⟩
  · exact (raise_rd _ 4 4 LNK_CNT_SEQ_CLAMP.COUNT hi (noPba_of_lt (by decide)) (by decide)).trans (rd_inc_same hs (Nat.le_refl 32))
  · exact raisedOnly_trans (wr_raisedOnly s LNK_CNT_SEQ_CLAMP.COUNT _ hs) (raise_raisedOnly _ 4 4 LNK_EVT_STS.reg hi rfl)

theorem raisedOnly_setSeq {s t : State} {as : List Nat} (r : raisedOnly s t as) (k : Nat) (o : Option SeqInst) :
    raisedOnly { s with lnk := (setSeq k o t).lnk } (setSeq k o t) as :=
  ⟨congrArg (fun w : State => { w with lnk := (setSeq k o t).lnk }) r.1, r.2⟩

theorem sequencerClamp_some {s : State} {k : Nat} {i : SeqInst} (hi : s.lnk.seqs[k]? = some i) :
    sequencerClamp k s = (setSeq k none (s.at_ (i.began + 8000000))).inc LNK_CNT_SEQ_CLAMP.COUNT := by
  unfold sequencerClamp
  rw [hi]

/-- Settles O26: a slot's read runs its cells from the instant of the read, which leaves what they read as it was; a sequencer's state acts
and moves on by one step. -/
theorem tschSlotsAndSequencersRun : Obligations.TschSlotsAndSequencersRun := by
  intro s hs
  refine ⟨fun asn hoff => ?_, fun asn f c hen htb hasn hcells => ?_, fun k i hi hen => ?_, fun k i hi => ?_, fun k h => ?_, fun k h => ?_⟩
  · rw [exec_tschSlotRead, tschSlotRead_off hoff]
  · have v := slotBegun_view hs asn
    have hcell : ∀ {g : Nat → RegFld}, (∀ j, (g j).addr = LNK_CELL1.reg j) → (slotBegun s asn).rd (g c) = s.rd (g c) := fun hg =>
      rd_of_reg (by rw [hg]; exact cell1_of_highKept v.regs c)
    have hofs : (slotBegun s asn).rd LNK_TSCH_TX_OFS.TICKS = s.rd LNK_TSCH_TX_OFS.TICKS := rd_of_highKept v.regs (Nat.le_of_ble_eq_true rfl)
    have hnode : (slotBegun s asn).rd (LNK_CELL1.NODE c) = s.rd (LNK_CELL1.NODE c) := hcell fun _ => rfl
    rw [exec_tschSlotRead, tschSlotRead_one hen htb hasn hs hcells]
    refine ⟨fun hrx htx => ?_, fun hc htx hh hr hm hp hb hd hn ha => ?_⟩
    · rw [runCell_rx ((on_of_rd (hcell fun _ => rfl)).trans hrx) ((on_of_rd (hcell fun _ => rfl)).trans htx), hnode]
      have hshared : (slotBegun s asn).on (LNK_CELL1.SHARED c) = s.on (LNK_CELL1.SHARED c) := on_of_rd (hcell fun _ => rfl)
      have hrxo : (slotBegun s asn).rd LNK_TSCH_RX_OFS.TICKS = s.rd LNK_TSCH_RX_OFS.TICKS := rd_of_highKept v.regs (Nat.le_of_ble_eq_true rfl)
      have hwait : (slotBegun s asn).rd LNK_TSCH_RX_WAIT.TICKS = s.rd LNK_TSCH_RX_WAIT.TICKS := rd_of_highKept v.regs (Nat.le_of_ble_eq_true rfl)
      refine ⟨_, cellWin (slotStart s asn) c (s.rd (LNK_CELL1.NODE c)) (slotBegun s asn), (slotBegun s asn).lnk.wins, rfl,
        (cellRx_asnRead _ _ _ _).trans (slotBegun_asnRead s asn), cellRx_wins _ _ _ _, ?_, ?_, ?_, ?_, cellRx_lnkOnly _ _ _ (slotBegun_lnkOnly s asn)⟩
      · unfold cellWin
        rw [hshared]
      · exact congrArg (slotStart s asn + ·) hrxo
      · unfold cellWin
        rw [hrxo, hwait]
        rfl
      · exact congrArg (slotStart s asn + ·) hofs
    · have hbc : (slotBegun s asn).on (LNK_CELL1.BCAST c) = s.on (LNK_CELL1.BCAST c) := on_of_rd (hcell fun _ => rfl)
      have hch : (slotBegun s asn).rd (LNK_CELL1.CHAIN c) = s.rd (LNK_CELL1.CHAIN c) := hcell fun _ => rfl
      have hh' := (headItem_of_que v.que (s.rd (LNK_CELL1.NODE c))).trans hh
      have hair : (slotBegun s asn).on PRT_AIR_CTRL.EN = false := (on_of_highKept v.regs (Nat.le_of_ble_eq_true rfl)).trans ha
      rw [runCell_tx ((on_of_rd (hcell fun _ => rfl)).trans htx) (hnode.symm ▸ hh'), hnode, cellChannel_of_highKept v.regs,
        cellTx_head ((heldRetry_of_view v _).trans hr) hh' ((congrArg Node.badPar (node_of_que v.que _)).trans hp)
          ((congrArg badCell (cell_of_que v.que _)).trans hb) ((mayTake_of_que v.que _).trans hm),
        placeItem_placed (inTime_of_none ((ih_of_que v.que _ _).trans hd) _) (v.scheds.symm ▸ hn) (airOk_of_off hair _ _)]
      refine ⟨_, cellEnt (slotStart s asn) (cellChannel s asn f c).1 (cellChannel s asn f c).2 c (s.rd (LNK_CELL1.NODE c)) hc (slotBegun s asn),
        rfl, ?_, rfl, rfl, ?_, rfl, fun hbcast => ⟨?_, ?_⟩⟩
      · rw [pushScheds_scheds, unlinkItem_lnk, v.scheds]
        rfl
      · exact congrArg (slotStart s asn + ·) hofs
      · unfold cellEnt entOf
        dsimp only
        rw [hbc, hbcast]
        rfl
      · unfold cellEnt entOf
        dsimp only
        rw [hbc, hbcast]
        exact hch
  · rw [exec_sequencerState]
    refine ⟨fun hc => ?_, fun hc ht => ?_, fun hc ht => ?_⟩
    · have hu := inv_at hs (seqInstant i (seqState s i.prog i.st))
      have hseqs := congrArg Lnk.seqs ((seqAction_lnk i (seqState s i.prog i.st) (s.at_ (seqInstant i (seqState s i.prog i.st)))).trans (at_lnk s _))
      rw [sequencerState_acts hi hen rfl hc]
      refine ⟨_, rfl, fun he => ?_, fun he => ?_, fun ha => ?_, fun ha hg => ?_, fun ha hg => ?_⟩
      · rw [setSeq_moved_end he, hseqs]
      · rw [setSeq_moved_next he, hseqs]
      · rw [seqAction_pulse ha]
        rfl
      · rw [seqAction_agrees ha hg]
        rfl
      · obtain ⟨hflag, hcount, honly⟩ := seqConflict_spec hu
        rw [seqAction_conflict ha hg]
        refine ⟨hflag, hcount.trans ?_, raisedOnly_setSeq honly k _⟩
        rw [at_rd hs (Nat.le_of_ble_eq_true rfl)]
    · rw [sequencerState_waits hi hen rfl hc, if_pos ht]
      rfl
    · rw [sequencerState_waits hi hen rfl hc, if_neg ht]
  · have hsets := incBy_sets (setSeq k none (s.at_ (i.began + 8000000))) LNK_CNT_SEQ_CLAMP.COUNT 1 (inv_at hs _) (Nat.le_refl 32)
    have hcount : (setSeq k none (s.at_ (i.began + 8000000))).rd LNK_CNT_SEQ_CLAMP.COUNT = s.rd LNK_CNT_SEQ_CLAMP.COUNT :=
      at_rd hs (Nat.le_of_ble_eq_true rfl) _
    have hbefore : setSeq k none (s.at_ (i.began + 8000000)) =
        { s.at_ (i.began + 8000000) with lnk := { s.lnk with seqs := s.lnk.seqs.eraseIdx k } } := by
      unfold setSeq
      rw [at_lnk]
    rw [exec_sequencerClamp, sequencerClamp_some hi]
    rw [hcount, hbefore] at hsets
    exact ⟨_, rfl, hbefore ▸ hsets⟩
  · rw [exec_sequencerState]
    rcases h with h | h
    · rw [sequencerState_none h]
    · rw [sequencerState_off k h]
  · rw [exec_sequencerClamp, sequencerClamp_none h]

end Sys2Proof.Machine

/-! A received frame's commit (R141, R147, R156, R162, R180). -/

namespace Sys2Proof.Machine

/-! ## The node's context after the commit -/

theorem of_put_same {n : Nat} {f : Fld} (hf : f.lo + f.w ≤ n) (x : BitVec n) (v : Nat) : f.of (f.put x v) = v % 2 ^ f.w :=
  bf_bfSet_same x f.lo f.w v hf

theorem of_put_apart {n : Nat} {f g : Fld} (hg : g.lo + g.w ≤ n) (hd : f.lo + f.w ≤ g.lo ∨ g.lo + g.w ≤ f.lo) (x : BitVec n) (v : Nat) :
    f.of (g.put x v) = f.of x := bf_bfSet_other x g.lo g.w v f.lo f.w hg hd

/-- The context y holds what x does below the fields that a reception measures, ANCHOR and those above it (R177). -/
def lowSame (x y : BitVec 512) : Prop := ∀ f : Fld, f.lo + f.w ≤ NC.ANCHOR.lo → f.of y = f.of x

theorem lowSame_trans {x y z : BitVec 512} (a : lowSame x y) (b : lowSame y z) : lowSame x z := fun f hf => (b f hf).trans (a f hf)

theorem lowSame_put {g : Fld} (hlo : NC.ANCHOR.lo ≤ g.lo) (hw : g.lo + g.w ≤ 512) (x : BitVec 512) (v : Nat) : lowSame x (g.put x v) :=
  fun _ hf => of_put_apart hw (.inl (hf.trans hlo)) x v

/-- A measured value in two fields. -/
theorem lowSame_putTwo {g k : Fld} (hg : NC.ANCHOR.lo ≤ g.lo ∧ g.lo + g.w ≤ 512) (hk : NC.ANCHOR.lo ≤ k.lo ∧ k.lo + k.w ≤ 512) (x : BitVec 512) (a b : Nat) :
    lowSame x (putAll x [(g, a), (k, b)]) := lowSame_trans (lowSame_put hg.1 hg.2 x a) (lowSame_put hk.1 hk.2 (g.put x a) b)

theorem lowSame_putFofs (x : BitVec 512) (v : Int) : lowSame x (putFofs x v) := lowSame_putTwo (by decide) (by decide) x _ _

theorem lowSame_putPeriod (x : BitVec 512) (v : Nat) : lowSame x (putPeriod x v) := lowSame_putTwo (by decide) (by decide) x _ _

theorem lowSame_putSkew (x : BitVec 512) (v : Int) : lowSame x (putSkew x v) := lowSame_putTwo (by decide) (by decide) x _ _

theorem lowSame_putRes (x : BitVec 512) (v : Nat) : lowSame x (putRes x v) := lowSame_putTwo (by decide) (by decide) x _ _

theorem lowSame_anchor (x : BitVec 512) (v : Nat) : lowSame x (NC.ANCHOR.put x v) := lowSame_put (Nat.le_refl _) (by decide) x v

/-- The counters of the drift model's updates (R163). -/
def driftCounts : List RegFld := [LNK_CNT_DRIFT_UPD.COUNT, LNK_CNT_DRIFT_UNRES.COUNT]

/-- The drift model writes measured fields only, and counts with its own counters. -/
theorem driftD_spec (s : State) (ctx : BitVec 512) (ref u phi p : Nat) :
    lowSame ctx (driftD s ctx ref u phi p).1 ∧ ∀ f, (driftD s ctx ref u phi p).2 = some f → f ∈ driftCounts := by
  have fresh : lowSame ctx (NC.ANCHOR.put ctx (ref + phi * u)) := lowSame_anchor ctx _
  have skewed : ∀ (x : BitVec 512) (k : Int) (n : Nat), lowSame x (putRes (putSkew x k) n) := fun x k n =>
    lowSame_trans (lowSame_putSkew x k) (lowSame_putRes _ n)
  unfold driftD
  dsimp only
  split
  · exact ⟨lowSame_trans fresh (lowSame_trans (lowSame_putPeriod _ p) (skewed _ _ _)), fun f hf => absurd hf (by simp)⟩
  · split
    · exact ⟨fresh, fun f hf => by simp [driftCounts, Option.some.inj hf.symm]⟩
    · split
      · exact ⟨fresh, fun f hf => absurd hf (by simp)⟩
      · exact ⟨lowSame_trans fresh (skewed _ _ _), fun f hf => by simp [driftCounts, Option.some.inj hf.symm]⟩

/-- The context with what a frame is known by: its counter, or its sequence number and FCS (R180). -/
def receivedCtx (s : State) (r : Rx) (ctx : BitVec 512) : BitVec 512 :=
  if r.hdr.secured then NC.RX_FC.put ctx (r.hdr.counter + 1)
  else if r.hdr.seqSuppr then ctx
  else putAll ctx [(NC.LAST_SEQ, r.hdr.seq), (NC.LAST_FCS, fcsValue s r), (NC.SEQ_VALID, 1)]

/-- The context with the frame's frequency offset and time too (R162, R178). -/
def measuredCtx (s : State) (r : Rx) (ctx : BitVec 512) : BitVec 512 :=
  NC.LAST_RX.put (putFofs (receivedCtx s r ctx) (sgn 20 (RD.FOFS.of r.dsc))) (r.sfdTs / 16384)

theorem lowSame_measuredCtx (s : State) (r : Rx) (ctx : BitVec 512) : lowSame (receivedCtx s r ctx) (measuredCtx s r ctx) :=
  lowSame_trans (lowSame_putFofs _ _) (lowSame_put (by decide) (by decide) _ _)

/-- A commit's context beside what identifies the frame: measured fields only, counted by the drift model's counters (R161-R163). -/
theorem commitCtx_spec (s : State) (r : Rx) (ctx : BitVec 512) :
    lowSame (receivedCtx s r ctx) (commitCtx s r ctx).1 ∧ ∀ f, (commitCtx s r ctx).2 = some f → f ∈ driftCounts := by
  have plain : lowSame (receivedCtx s r ctx) (measuredCtx s r ctx) ∧ ∀ f, (none : Option RegFld) = some f → f ∈ driftCounts :=
    ⟨lowSame_measuredCtx s r ctx, fun f hf => absurd hf.symm (Option.some_ne_none f)⟩
  unfold commitCtx
  dsimp only
  split
  · refine ⟨?_, plain.2⟩
    dsimp only
    split
    · exact lowSame_trans plain.1 (lowSame_anchor _ _)
    · exact plain.1
  · split
    · split
      · exact plain
      · obtain ⟨hlow, hcount⟩ := driftD_spec s (measuredCtx s r ctx)
          (if s.on LNK_CSL_CFG.PHASE_REF then r.fend else r.sfdTs) (s.rd (LNK_RATE_UNIT.UNIT (RD.RATE.of r.dsc))) _ _
        exact ⟨lowSame_trans plain.1 hlow, hcount⟩
    · exact plain
  · exact plain

/-- A secured frame leaves RX_FC one past its counter. -/
theorem commitCtx_secured {r : Rx} (hs : r.hdr.secured = true) (hc : r.hdr.counter < 0xFFFFFFFF) (s : State) (ctx : BitVec 512) :
    NC.RX_FC.of (commitCtx s r ctx).1 = r.hdr.counter + 1 := by
  rw [(commitCtx_spec s r ctx).1 NC.RX_FC (by decide), receivedCtx, if_pos hs, of_put_same (by decide)]
  exact Nat.mod_eq_of_lt (Nat.succ_lt_succ hc)

/-- An unsecured frame with a sequence number leaves it with its FCS. -/
theorem commitCtx_unsecured {r : Rx} (hs : r.hdr.secured = false) (hq : r.hdr.seqSuppr = false) (hb : r.hdr.seq < 256) (s : State) (ctx : BitVec 512) :
    NC.SEQ_VALID.of (commitCtx s r ctx).1 = 1 ∧ NC.LAST_SEQ.of (commitCtx s r ctx).1 = r.hdr.seq ∧
      NC.LAST_FCS.of (commitCtx s r ctx).1 = fcsValue s r % 2 ^ 32 := by
  have hrec : receivedCtx s r ctx =
      NC.SEQ_VALID.put (NC.LAST_FCS.put (NC.LAST_SEQ.put ctx r.hdr.seq) (fcsValue s r)) 1 := by
    unfold receivedCtx
    rw [hs, hq]
    rfl
  have low := (commitCtx_spec s r ctx).1
  refine ⟨?_, ?_, ?_⟩
  · rw [low NC.SEQ_VALID (by decide), hrec, of_put_same (by decide)]
    rfl
  · rw [low NC.LAST_SEQ (by decide), hrec, of_put_apart (by decide) (by decide), of_put_apart (by decide) (by decide), of_put_same (by decide)]
    exact Nat.mod_eq_of_lt hb
  · rw [low NC.LAST_FCS (by decide), hrec, of_put_apart (by decide) (by decide), of_put_same (by decide)]
    rfl

/-! ## The node written -/

theorem node_setNode_same {n : Node} (hn : n ≠ {}) (s : State) (h : Nat) : (s.setNode h n).node h = n := by
  unfold State.setNode State.node sset
  rw [if_neg hn]
  exact sget_sput_same _ h n _

theorem of_zero (n : Nat) (f : Fld) : f.of (0 : BitVec n) = 0 := by
  unfold Fld.of bf
  rw [BitVec.ofNat_eq_ofNat, BitVec.toNat_ofNat, Nat.zero_mod, Nat.zero_div, Nat.zero_mod]

/-- A context with a field that is not zero is not the empty node's. -/
theorem node_ne_empty {n : Node} {f : Fld} (hf : f.of n.ctx ≠ 0) : n ≠ {} := fun e => hf (by
  rw [e]
  exact of_zero 512 f)

/-- What a commit's writes of its node change: contexts, what raised events bring, and registers of which only the drift model's counters
lie below the queue fabric's. -/
structure NodeStep (s t : State) : Prop where
  inv : t.inv = true
  frame : t = { s with regs := t.regs, vregs := t.vregs, posted := t.posted, evr := t.evr, que := { s.que with nodes := t.que.nodes } }
  reg : ∀ a, a < 0x500000 → a ∉ driftCounts.map RegFld.addr → t.reg a = s.reg a

theorem NodeStep.refl {s : State} (h : s.inv = true) : NodeStep s s := ⟨h, rfl, fun _ _ _ => rfl⟩

theorem NodeStep.trans {s t u : State} (a : NodeStep s t) (b : NodeStep t u) : NodeStep s u where
  inv := b.inv
  frame := by rw [b.frame, a.frame]
  reg x hx hd := (b.reg x hx hd).trans (a.reg x hx hd)

theorem NodeStep.rd {s t : State} (a : NodeStep s t) {f : RegFld} (hf : f.addr < 0x500000) (hd : f.addr ∉ driftCounts.map RegFld.addr) :
    t.rd f = s.rd f := rd_of_reg (a.reg _ hf hd)

theorem nodeStep_setNode {s : State} (h : s.inv = true) (n : Nat) (x : Node) : NodeStep s (s.setNode n x) := ⟨h, rfl, fun _ _ _ => rfl⟩

theorem nodeStep_count {s : State} (h : s.inv = true) {f : RegFld} (hf : f ∈ driftCounts) : NodeStep s (s.inc f) :=
  ⟨inv_inc h f, rfl, fun a _ hd => (inc_onlyRegs h f).2 a fun ha => hd (List.mem_singleton.mp ha ▸ List.mem_map_of_mem hf)⟩

theorem ctxCheck_free (h : Nat) (s : State) : (ctxCheck h s).free = s.free := by
  unfold ctxCheck
  dsimp only
  split
  · rfl
  · rw [raise_free, inc_free, wr_free, wr_free, wr_free]
    rfl

/-- A context's check leaves the fabric as it was, but for a node poisoned. -/
theorem ctxCheck_que (h : Nat) (s : State) : (ctxCheck h s).que = s.que ∨ (ctxCheck h s).que = (s.setNode h { s.node h with poison := true }).que := by
  unfold ctxCheck
  dsimp only
  split
  · exact .inl rfl
  · rw [raise_que, inc_que, wr_que, wr_que, wr_que]
    exact .inr rfl

theorem nodeStep_ctxCheck {s : State} (h : s.inv = true) (n : Nat) : NodeStep s (ctxCheck n s) := by
  have q := queStep_ctxCheck h n
  have hque : (ctxCheck n s).que = { s.que with nodes := (ctxCheck n s).que.nodes } := by
    rcases ctxCheck_que n s with e | e <;> rw [e]
    rfl
  refine ⟨q.inv, ?_, fun a ha _ => q.reg a (noPba_of_lt (ha.trans (by decide))) (.inl ha)⟩
  have hframe := q.frame
  rw [ctxCheck_free, hque] at hframe
  exact hframe

/-- What a frame's octets are depends on the cells alone. -/
theorem fcsValue_of_cells {s t : State} (e : s.que.cells = t.que.cells) (r : Rx) : fcsValue s r = fcsValue t r := by
  unfold fcsValue rxBytes chainBytes State.cell
  rw [e]

theorem NodeStep.fcsValue {s t : State} (a : NodeStep s t) (r : Rx) : fcsValue t r = fcsValue s r :=
  fcsValue_of_cells (congrArg (fun u : State => u.que.cells) a.frame) r

/-- The count of the drift model's update, if it made one. -/
def driftCounted : Option RegFld → State → State
  | some f, s => s.inc f
  | none, s => s

theorem driftCounted_que : ∀ (c : Option RegFld) (s : State), (driftCounted c s).que = s.que
  | some f, s => inc_que s f
  | none, _ => rfl

theorem nodeStep_driftCounted {s : State} (h : s.inv = true) : ∀ {c : Option RegFld}, (∀ f, c = some f → f ∈ driftCounts) → NodeStep s (driftCounted c s)
  | some f, hc => nodeStep_count h (hc f rfl)
  | none, _ => .refl h

/-- The context that a frame's commit leaves in its node h. -/
def newCtx (r : Rx) (h : Nat) (s : State) : BitVec 512 × Option RegFld := commitCtx (ctxCheck h s) r ((ctxCheck h s).node h).ctx

theorem commitNode_some {r : Rx} {h : Nat} (hn : r.node = some h) (s : State) :
    commitNode r s =
      driftCounted (newCtx r h s).2 ((ctxCheck h s).setNode h { (ctxCheck h s).node h with ctx := (newCtx r h s).1 }) := by
  unfold commitNode
  rw [hn]
  dsimp only
  unfold newCtx
  split
  · next f hf => rw [hf]; rfl
  · next hf => rw [hf]; rfl

theorem nodeStep_commitNode {s : State} (hs : s.inv = true) (r : Rx) : NodeStep s (commitNode r s) := by
  cases hn : r.node with
  | none =>
    unfold commitNode
    rw [hn]
    exact .refl hs
  | some h =>
    rw [commitNode_some hn]
    have a := nodeStep_ctxCheck hs h
    have b := a.trans (nodeStep_setNode a.inv h { (ctxCheck h s).node h with ctx := (newCtx r h s).1 })
    exact b.trans (nodeStep_driftCounted b.inv (commitCtx_spec _ r _).2)

/-- The node reads the new context, if that is not empty. -/
theorem nc_commitNode {r : Rx} {h : Nat} (hn : r.node = some h) {s : State} {g : Fld} (hg : g.of (newCtx r h s).1 ≠ 0) (f : Fld) :
    (commitNode r s).nc h f = f.of (newCtx r h s).1 := by
  rw [commitNode_some hn, nc_of_que (driftCounted_que _ _), State.nc, node_setNode_same (node_ne_empty (f := g) hg)]

/-! ## The marks of a commit -/

/-- What a commit changes before the frame leaves its place. -/
structure CommitStep (s t : State) : Prop where
  inv : t.inv = true
  frame : t = { s with regs := t.regs, vregs := t.vregs, posted := t.posted, evr := t.evr, que := { s.que with nodes := t.que.nodes },
                       lnk := { s.lnk with seqs := t.lnk.seqs } }

theorem CommitStep.trans {s t u : State} (a : CommitStep s t) (b : CommitStep t u) : CommitStep s u where
  inv := b.inv
  frame := by rw [b.frame, a.frame]

theorem NodeStep.commit {s t : State} (a : NodeStep s t) : CommitStep s t where
  inv := a.inv
  frame := by rw [a.frame]

theorem raisedOnly.commit {s t : State} {as : List Nat} (a : raisedOnly s t as) (h : t.inv = true) : CommitStep s t where
  inv := h
  frame := by rw [a.1]

theorem commitStep_seqMark {s : State} (h : s.inv = true) (c : Nat) (mine : SeqInst → Bool) : CommitStep s (seqMark c mine s) := ⟨h, rfl⟩

theorem inc_raisedOnly {s : State} (h : s.inv = true) (f : RegFld) : raisedOnly s (s.inc f) [f.addr] := wr_raisedOnly s f _ h

theorem countOow_inside {r : Rx} (ho : r.oow ≠ some true) (s : State) : countOow r s = s := if_neg ho

section
variable {s : State} (hs : s.inv = true) {r : Rx} (ho : r.oow = some true)
include hs ho

theorem countOow_raisedOnly :
    raisedOnly s (countOow r s) [LNK_CNT_OOW.reg, LNK_PCNT.reg r.part 0, LNK_EVT_STS.reg] ∧ (countOow r s).inv = true := by
  have h1 := inv_inc hs LNK_CNT_OOW.COUNT
  have h2 := inv_inc h1 (LNK_PCNT.COUNT r.part 0)
  have o1 := inc_raisedOnly hs LNK_CNT_OOW.COUNT
  have o2 := inc_raisedOnly h1 (LNK_PCNT.COUNT r.part 0)
  have o3 := raise_raisedOnly ((s.inc LNK_CNT_OOW.COUNT).inc (LNK_PCNT.COUNT r.part 0)) 4 2 LNK_EVT_STS.reg h2 rfl
  rw [countOow, if_pos ho]
  exact ⟨raisedOnly_trans o1 (raisedOnly_trans o2 o3), inv_raise h2 4 2⟩

/-- A frame outside its window is counted for the block and for its partition, and raised (R141). -/
theorem countOow_spec (hp : r.part < 64) :
    (countOow r s).rd LNK_CNT_OOW.COUNT = min 0xFFFFFFFF (s.rd LNK_CNT_OOW.COUNT + 1) ∧
      (countOow r s).rd (LNK_PCNT.COUNT r.part 0) = min 0xFFFFFFFF (s.rd (LNK_PCNT.COUNT r.part 0) + 1) ∧ flagged (countOow r s) 4 2 := by
  have h1 := inv_inc hs LNK_CNT_OOW.COUNT
  have h2 := inv_inc h1 (LNK_PCNT.COUNT r.part 0)
  have hne : LNK_PCNT.reg r.part 0 ≠ LNK_CNT_OOW.reg ∧ LNK_PCNT.reg r.part 0 ≠ LNK_EVT_STS.reg ∧ LNK_PCNT.reg r.part 0 < 0x500000 := by
    unfold LNK_PCNT.reg LNK_CNT_OOW.reg LNK_EVT_STS.reg
    omega
  obtain ⟨hblock, hevt, hlow⟩ := hne
  rw [countOow, if_pos ho]
  refine ⟨?_, ?_, raise_flagged _ 4 2 LNK_EVT_STS.reg h2 rfl (by decide)⟩
  · rw [raise_rd _ 4 2 LNK_CNT_OOW.COUNT h2 (noPba_of_lt (by decide)) (by decide)]
    exact (rd_wr_other _ (LNK_PCNT.COUNT r.part 0) LNK_CNT_OOW.COUNT _ hblock.symm h1).trans (rd_inc_same hs (Nat.le_refl 32))
  · rw [raise_rd _ 4 2 (LNK_PCNT.COUNT r.part 0) h2 (noPba_of_lt (hlow.trans (by decide))) (fun e => hevt (Option.some.inj e).symm)]
    refine (rd_inc_same (f := LNK_PCNT.COUNT r.part 0) h1 (Nat.le_refl 32)).trans ?_
    rw [show (s.inc LNK_CNT_OOW.COUNT).rd (LNK_PCNT.COUNT r.part 0) = s.rd (LNK_PCNT.COUNT r.part 0) from rd_wr_other s _ _ _ hblock hs]
    rfl

end

/-- The state after a commit's writes and counts, its frame still in place. -/
def committed (r : Rx) (s : State) : State := seqMark 6 (seqOf r) (countOow r (commitNode r s))

theorem countOow_que (r : Rx) (s : State) : (countOow r s).que = s.que := by
  unfold countOow
  split
  · rw [raise_que, inc_que, inc_que]
  · rfl

theorem committed_que (r : Rx) (s : State) : (committed r s).que = (commitNode r s).que := countOow_que r _

theorem commitStep_committed {s : State} (hs : s.inv = true) (r : Rx) : CommitStep s (committed r s) := by
  have node := (nodeStep_commitNode hs r).commit
  have count : CommitStep (commitNode r s) (countOow r (commitNode r s)) := by
    by_cases ho : r.oow = some true
    · obtain ⟨honly, hinv⟩ := countOow_raisedOnly node.inv ho
      exact honly.commit hinv
    · rw [countOow_inside ho]
      exact ⟨node.inv, rfl⟩
  have both := node.trans count
  exact both.trans (commitStep_seqMark both.inv 6 (seqOf r))

theorem committed_rxs {s : State} (hs : s.inv = true) (r : Rx) : (committed r s).que.rxs = s.que.rxs := by
  rw [(commitStep_committed hs r).frame]

theorem committed_atts {s : State} (hs : s.inv = true) (r : Rx) : (committed r s).lnk.atts = s.lnk.atts := by
  rw [(commitStep_committed hs r).frame]

/-! ## A frame's place -/

theorem freeCell_nodes (s : State) (k : Nat) : (freeCell s k).que.nodes = s.que.nodes := by
  unfold freeCell useLess
  split
  · rfl
  · split
    · rw [wr_que, setFree_que]
      rfl
    · dsimp only
      rw [setFree_que]
      rfl

theorem freeCells_nodes (ks : List Nat) (s : State) : (freeCells ks s).que.nodes = s.que.nodes :=
  foldl_same (fun u : State => u.que.nodes) freeCell ks s freeCell_nodes

theorem dropRx_nodes (k : Nat) (r : Rx) (s : State) : (dropRx k r s).que.nodes = s.que.nodes := freeCells_nodes _ _

theorem queStep_dropRx {s : State} (hs : s.inv = true) (k : Nat) (r : Rx) : QueStep s (dropRx k r s) := by
  have a := queStep_que hs { s.que with rxs := s.que.rxs.eraseIdx k }
  exact a.trans (queStep_freeCells a.inv _)

theorem awaitDelivery_nodes (k : Nat) (r : Rx) (s : State) : (awaitDelivery k r s).que.nodes = s.que.nodes := by
  unfold awaitDelivery
  dsimp only
  split
  · exact dropRx_nodes k r _
  · rfl

/-- A frame that awaits its deliveries leaves the link controller's registers. -/
theorem awaitDelivery_reg {s : State} (hs : s.inv = true) (k : Nat) (r : Rx) {a : Nat} (ha : a < 0x500000) : (awaitDelivery k r s).reg a = s.reg a := by
  have skip : ∀ n, (s.incBy PRT_CNT_BCAST_SKIP.COUNT n).reg a = s.reg a := fun n =>
    reg_wr_other s _ _ a (Nat.ne_of_lt (Nat.lt_trans ha (by decide))) hs
  unfold awaitDelivery
  dsimp only
  split
  · exact ((queStep_dropRx (inv_incBy hs _ _) k r).reg a (noPba_of_lt (ha.trans (by decide))) (.inl ha)).trans (skip _)
  · exact skip _

/-- A frame for its own partition stands behind those committed before it. -/
theorem awaitDelivery_own {r : Rx} (hb : r.bcast = false) (k : Nat) (s : State) :
    awaitDelivery k r s =
      { s.incBy PRT_CNT_BCAST_SKIP.COUNT 0 with que := { s.que with rxs := s.que.rxs.eraseIdx k ++ [{ r with stage := 3, owed := [r.part] }] } } := by
  have ho : owedTo s r = ([r.part], 0) := by
    unfold owedTo
    rw [hb]
    rfl
  unfold awaitDelivery
  rw [ho]
  rfl

/-! ## The attempt a frame matches (R147) -/

/-- What ends an attempt leaves the link controller's registers, and opens no attempt. -/
structure AttsStep (s t : State) : Prop where
  inv : t.inv = true
  reg : ∀ a, 0x400000 ≤ a → a < 0x500000 → t.reg a = s.reg a
  atts : ∀ b ∈ t.lnk.atts, b ∈ s.lnk.atts

theorem AttsStep.trans {s t u : State} (a : AttsStep s t) (b : AttsStep t u) : AttsStep s u where
  inv := b.inv
  reg x hlo hhi := (b.reg x hlo hhi).trans (a.reg x hlo hhi)
  atts x hx := a.atts x (b.atts x hx)

theorem ItemStep.attsKept {s t : State} (a : ItemStep s t) : AttsStep s t where
  inv := a.inv
  reg x _ hhi := a.reg x hhi
  atts _ hx := a.lnk ▸ hx

theorem StageStep.atts {s t : State} (a : StageStep s t) : t.lnk.atts = s.lnk.atts := by rw [a.frame]

theorem StageStep.attsKept {s t : State} (a : StageStep s t) : AttsStep s t where
  inv := a.inv
  reg x hlo hhi := a.reg x hhi fun hc => absurd (Nat.lt_of_le_of_lt hlo hc.2) (by decide)
  atts _ hx := a.atts ▸ hx

theorem AttsStep.foldl {α : Type} {f : State → α → State} (hf : ∀ u x, u.inv = true → AttsStep u (f u x)) :
    ∀ (l : List α) {s : State}, s.inv = true → AttsStep s (l.foldl f s)
  | [], _, h => ⟨h, fun _ _ _ => rfl, fun _ hx => hx⟩
  | x :: l, s, h => (hf s x h).trans (AttsStep.foldl hf l (hf s x h).inv)

theorem itemStep_complete {s : State} (h : s.inv = true) (x status detail attempts value result : Nat) :
    ItemStep s (s.complete x status detail attempts value result) := by
  rw [complete_frame]
  exact itemStep_hst h _

theorem itemStep_late {s : State} (h : s.inv = true) (l : List (Nat × Nat)) : ItemStep s { s with eng := { s.eng with late := l } } :=
  ⟨h, rfl, fun _ _ => rfl⟩

theorem itemStep_giveNotice {s : State} (h : s.inv = true) (e : Nat) (n : Notice) : ItemStep s (giveNotice e n s) := ⟨h, rfl, fun _ _ => rfl⟩

theorem itemStep_incHigh {s : State} (h : s.inv = true) {f : RegFld} (hf : 0x500000 ≤ f.addr) : ItemStep s (s.inc f) :=
  ⟨inv_inc h f, rfl, fun a ha => reg_wr_other s f _ a (Nat.ne_of_lt (Nat.lt_of_lt_of_le ha hf)) h⟩

theorem itemStep_tooLateNotice {s : State} (h : s.inv = true) (e n hc : Nat) : ItemStep s (tooLateNotice e n hc s) := by
  have late := itemStep_late h ((e, hc) :: s.eng.late)
  unfold tooLateNotice
  split
  · exact .refl h
  · split
    · exact late.trans (itemStep_incHigh late.inv (ENG_NTF_DISC_high _ _))
    · exact late.trans (itemStep_giveNotice late.inv e _)

/-- The completion of a host command's cancel. -/
def cancelCompleted (late : Bool) (s : State) : Option Nat → State
  | some x => s.complete x (if late then 6 else 0) 0 0 0 0
  | none => s

theorem itemStep_cancelCompleted {s : State} (hs : s.inv = true) (late : Bool) : ∀ o, ItemStep s (cancelCompleted late s o)
  | some x => itemStep_complete hs x _ 0 0 0 0
  | none => .refl hs

/-- The answer to one cancel of an item. -/
def cancelAnswered (hc : Nat) (late : Bool) (h : Nat) (s : State) (c : Cancel) : State :=
  match c.eng with
  | some e => if late then tooLateNotice e h hc (cancelCompleted late s c.ctx) else cancelCompleted late s c.ctx
  | none => cancelCompleted late s c.ctx

theorem itemStep_cancelAnswered {s : State} (hs : s.inv = true) (hc : Nat) (late : Bool) (h : Nat) (c : Cancel) :
    ItemStep s (cancelAnswered hc late h s c) := by
  have told := itemStep_cancelCompleted hs late c.ctx
  unfold cancelAnswered
  split
  · split
    · exact told.trans (itemStep_tooLateNotice told.inv _ h hc)
    · exact told
  · exact told

theorem answerCancels_eq (hc : Nat) (late : Bool) (h : Nat) (s : State) :
    answerCancels hc late h s =
      (s.lnk.cancels.filter (fun c => c.item == hc)).foldl (cancelAnswered hc late h)
        { s with lnk := { s.lnk with cancels := s.lnk.cancels.filter (fun c => c.item != hc) } } := rfl

theorem attsStep_answerCancels {s : State} (hs : s.inv = true) (hc : Nat) (late : Bool) (h : Nat) : AttsStep s (answerCancels hc late h s) := by
  have a : AttsStep s { s with lnk := { s.lnk with cancels := s.lnk.cancels.filter (fun c => c.item != hc) } } :=
    ⟨hs, fun _ _ _ => rfl, fun _ hx => hx⟩
  rw [answerCancels_eq]
  exact a.trans (AttsStep.foldl (fun _ c hu => (itemStep_cancelAnswered hu hc late h c).attsKept) _ a.inv)

theorem attsStep_endHeld {s : State} (hs : s.inv = true) (e status : Nat) : AttsStep s (endHeld e status s) := by
  have a : AttsStep s { s with lnk := { s.lnk with retryAt := sdel s.lnk.retryAt e, atts := s.lnk.atts.filter (fun a => a.ent != e || a.closed) } } :=
    ⟨hs, fun _ _ _ => rfl, fun _ hx => List.mem_of_mem_filter hx⟩
  have b := a.trans (releaseEnt_spec a.inv e).1.attsKept
  unfold endHeld
  dsimp only
  split
  · split
    · exact b.trans (itemStep_dropItem b.inv _ _).attsKept
    · exact b.trans (itemStep_endItem b.inv _ _ status).attsKept
  · exact b

/-- The state with an attempt gone and counted as acknowledged. -/
def ackCounted (a : Att) (s : State) : State :=
  seqMark 4 (fun i => i.att == some a.id) ({ s with lnk := { s.lnk with atts := s.lnk.atts.filter (fun b => b.id != a.id) } }.inc LNK_CNT_ACK_MATCH.COUNT)

theorem attsStep_ackAttempt {s : State} (hs : s.inv = true) (a : Att) : AttsStep (ackCounted a s) (ackAttempt a s) := by
  have hi : (ackCounted a s).inv = true := inv_inc (s := { s with lnk := _ }) hs LNK_CNT_ACK_MATCH.COUNT
  have none : AttsStep (ackCounted a s) (ackCounted a s) := ⟨hi, fun _ _ _ => rfl, fun _ hx => hx⟩
  have one := fun hc => attsStep_answerCancels hi hc true a.node
  unfold ackAttempt
  dsimp only
  split
  · split
    · exact (one _).trans (attsStep_endHeld (one _).inv a.ent 1)
    · exact none
  · exact none

/-- An attempt that is acknowledged is counted and gone. -/
theorem ackAttempt_spec {s : State} (hs : s.inv = true) (a : Att) :
    (ackAttempt a s).rd LNK_CNT_ACK_MATCH.COUNT = min 0xFFFFFFFF (s.rd LNK_CNT_ACK_MATCH.COUNT + 1) ∧
      ∀ b ∈ (ackAttempt a s).lnk.atts, b.id ≠ a.id := by
  have tail := attsStep_ackAttempt hs a
  refine ⟨?_, fun b hb => ?_⟩
  · refine (rd_of_reg (tail.reg LNK_CNT_ACK_MATCH.reg (by decide) (by decide))).trans ?_
    exact rd_inc_same (s := { s with lnk := { s.lnk with atts := s.lnk.atts.filter (fun b => b.id != a.id) } }) (f := LNK_CNT_ACK_MATCH.COUNT) hs (Nat.le_refl 32)
  · have hin : b ∈ s.lnk.atts.filter (fun b => b.id != a.id) := tail.atts b hb
    exact bne_iff_ne.mp (List.mem_filter.mp hin).2

/-! ## The commit -/

theorem exec_frameCommit {k : Nat} (hk : k < 786432) (s : State) : exec (.frameCommit k) s = .next (frameCommit k s) := if_pos (decide_eq_true hk)

section
variable {s : State} {k : Nat} {r : Rx} (hr : s.rx k = some r)
include hr

theorem frameCommit_waits (hp : predecessor s k r = true) : frameCommit k s = s := by
  unfold frameCommit
  rw [hr]
  exact if_pos (.inr hp)

variable (hst : r.stage = 2) (hp : predecessor s k r = false)
include hst hp

theorem frameCommit_awaits (hm : r.att = none ∨ r.oow ≠ some false) : frameCommit k s = awaitDelivery k r (committed r s) := by
  unfold frameCommit
  rw [hr]
  refine (if_neg ?_).trans ?_
  · rw [hst, hp]
    decide
  · dsimp only
    split
    · next id hid =>
      rcases hm with hm | hm
      · exact absurd (hid.symm.trans hm) (Option.some_ne_none id)
      · exact if_neg hm
    · rfl

theorem frameCommit_acks {id : Nat} {a : Att} (hid : r.att = some id) (ho : r.oow = some false)
    (ha : (dropRx k r (committed r s)).lnk.atts.find? (fun a => a.id == id && !a.done) = some a) :
    frameCommit k s = ackAttempt a (dropRx k r (committed r s)) := by
  unfold frameCommit
  rw [hr]
  refine (if_neg ?_).trans ?_
  · rw [hst, hp]
    decide
  · dsimp only
    rw [hid]
    refine (if_pos ho).trans ?_
    change (match (dropRx k r (committed r s)).lnk.atts.find? (fun a => a.id == id && !a.done) with
      | some a => ackAttempt a (dropRx k r (committed r s)) | none => dropRx k r (committed r s)) = _
    rw [ha]

end

/-- A context reads as before where the nodes do. -/
theorem nc_of_nodes {s t : State} (e : s.que.nodes = t.que.nodes) (h : Nat) (f : Fld) : s.nc h f = t.nc h f := by
  unfold State.nc State.node
  rw [e]

/-- An event of the link controller stands as long as its registers do. -/
theorem flagged_of_linkRegs {s t : State} (e : ∀ a, a < 0x500000 → t.reg a = s.reg a) {b : Nat} (h : flagged s 4 b) : flagged t 4 b := by
  obtain ⟨a, ha, hv⟩ := h
  obtain rfl : LNK_EVT_STS.reg = a := Option.some.inj ha
  exact ⟨_, rfl, (rd_of_reg (e LNK_EVT_STS.reg (by decide))).trans hv⟩

section
variable {s : State} (hs : s.inv = true) {k : Nat} {r : Rx}
include hs

/-- The node after the commit of a frame that goes on to its delivery. -/
theorem commit_node {h : Nat} (hn : r.node = some h) :
    let t := awaitDelivery k r (committed r s)
    (r.hdr.secured = true → r.hdr.counter < 0xFFFFFFFF → t.nc h NC.RX_FC = r.hdr.counter + 1) ∧
      (r.hdr.secured = false → r.hdr.seqSuppr = false → r.hdr.seq < 256 →
        t.nc h NC.SEQ_VALID = 1 ∧ t.nc h NC.LAST_SEQ = r.hdr.seq ∧ t.nc h NC.LAST_FCS = fcsValue s r % 2 ^ 32) := by
  have hread : ∀ f, (awaitDelivery k r (committed r s)).nc h f = (commitNode r s).nc h f := fun f =>
    nc_of_nodes ((awaitDelivery_nodes k r _).trans (congrArg Que.nodes (committed_que r s))) h f
  refine ⟨fun hsec hc => ?_, fun hsec hq hb => ?_⟩
  · have hfc := commitCtx_secured hsec hc (ctxCheck h s) ((ctxCheck h s).node h).ctx
    rw [hread, nc_commitNode hn (g := NC.RX_FC) (by rw [newCtx, hfc]; exact Nat.succ_ne_zero _)]
    exact hfc
  · obtain ⟨hvalid, hseq, hfcs⟩ := commitCtx_unsecured hsec hq hb (ctxCheck h s) ((ctxCheck h s).node h).ctx
    have hne : NC.SEQ_VALID.of (newCtx r h s).1 ≠ 0 := by
      rw [newCtx, hvalid]
      exact Nat.one_ne_zero
    rw [hread, hread, hread, nc_commitNode hn hne, nc_commitNode hn hne, nc_commitNode hn hne]
    exact ⟨hvalid, hseq, hfcs.trans (congrArg (· % 2 ^ 32) ((nodeStep_ctxCheck hs h).fcsValue r))⟩

/-- The counts of a frame outside its window stand after its commit. -/
theorem commit_oow (ho : r.oow = some true) (hp : r.part < 64) :
    let t := awaitDelivery k r (committed r s)
    t.rd LNK_CNT_OOW.COUNT = min 0xFFFFFFFF (s.rd LNK_CNT_OOW.COUNT + 1) ∧
      t.rd (LNK_PCNT.COUNT r.part 0) = min 0xFFFFFFFF (s.rd (LNK_PCNT.COUNT r.part 0) + 1) ∧ flagged t 4 2 := by
  have node := nodeStep_commitNode hs r
  obtain ⟨hcount, hpart, hflag⟩ := countOow_spec node.inv ho hp
  have keep : ∀ a, a < 0x500000 → (awaitDelivery k r (committed r s)).reg a = (countOow r (commitNode r s)).reg a := fun a ha =>
    awaitDelivery_reg (commitStep_committed hs r).inv k r ha
  have hreg : LNK_PCNT.reg r.part 0 < 0x500000 ∧ LNK_PCNT.reg r.part 0 ∉ driftCounts.map RegFld.addr := by
    simp only [LNK_PCNT.reg, driftCounts, LNK_CNT_DRIFT_UPD.COUNT, LNK_CNT_DRIFT_UNRES.COUNT, LNK_CNT_DRIFT_UPD.reg, LNK_CNT_DRIFT_UNRES.reg,
      List.map_cons, List.map_nil, List.mem_cons, List.not_mem_nil, or_false]
    omega
  obtain ⟨hlow, hdrift⟩ := hreg
  refine ⟨(rd_of_reg (keep _ (by decide))).trans ?_, (rd_of_reg (keep _ hlow)).trans ?_, flagged_of_linkRegs keep hflag⟩
  · rw [hcount, node.rd (by decide) (by decide)]
  · rw [hpart, node.rd (f := LNK_PCNT.COUNT r.part 0) hlow hdrift]

/-- A frame for its own partition goes behind those committed before it, and its commit changes nothing else. -/
theorem commit_own (hb : r.bcast = false) :
    let t := awaitDelivery k r (committed r s)
    t.que.rxs = s.que.rxs.eraseIdx k ++ [{ r with stage := 3, owed := [r.part] }] ∧
      t = { s with regs := t.regs, vregs := t.vregs, posted := t.posted, evr := t.evr, que := t.que, lnk := { s.lnk with seqs := t.lnk.seqs } } := by
  have hframe := (commitStep_committed hs r).frame
  rw [awaitDelivery_own hb]
  refine ⟨?_, ?_⟩
  · dsimp only
    rw [committed_rxs hs]
  · rw [hframe]
    rfl

/-- A frame that matches an attempt not yet done leaves; the attempt is counted and gone. -/
theorem commit_ack {id : Nat} {a : Att} (ha : s.lnk.atts.find? (fun a => a.id == id && !a.done) = some a) (ho : r.oow = some false) :
    (dropRx k r (committed r s)).lnk.atts.find? (fun a => a.id == id && !a.done) = some a ∧
      (ackAttempt a (dropRx k r (committed r s))).rd LNK_CNT_ACK_MATCH.COUNT = min 0xFFFFFFFF (s.rd LNK_CNT_ACK_MATCH.COUNT + 1) ∧
      ∀ b ∈ (ackAttempt a (dropRx k r (committed r s))).lnk.atts, b.id ≠ id := by
  have hin : committed r s = seqMark 6 (seqOf r) (commitNode r s) := by
    unfold committed
    rw [countOow_inside (by rw [ho]; decide)]
  have drop := queStep_dropRx (commitStep_committed hs r).inv k r
  obtain ⟨hcount, hgone⟩ := ackAttempt_spec drop.inv a
  have hatts : (dropRx k r (committed r s)).lnk.atts = s.lnk.atts :=
    (congrArg (fun u : State => u.lnk.atts) drop.frame).trans (committed_atts hs r)
  have hrd : (dropRx k r (committed r s)).rd LNK_CNT_ACK_MATCH.COUNT = s.rd LNK_CNT_ACK_MATCH.COUNT := by
    rw [drop.rd (by decide), hin]
    exact (nodeStep_commitNode hs r).rd (by decide) (by decide)
  have hid : a.id = id := by
    have hfound := List.find?_some ha
    rw [Bool.and_eq_true] at hfound
    exact beq_iff_eq.mp hfound.1
  exact ⟨hatts ▸ ha, hrd ▸ hcount, hid ▸ hgone⟩

end

/-- Settles O19: a commit is its writes of the node and its counts, and then either the wait for delivery or the end of the attempt. -/
theorem committedFramesUpdateTheirNode : Obligations.CommittedFramesUpdateTheirNode := by
  intro s k r hs hk hr hpart hst
  rw [exec_frameCommit hk]
  refine ⟨fun hp => by rw [frameCommit_waits hr hp], fun hp => ⟨_, rfl, fun h hn hm => ?_, fun ho => ?_, fun hb hm => ?_, fun id hid ho ha => ?_⟩⟩
  · rw [frameCommit_awaits hr hst hp hm]
    exact commit_node hs hn
  · rw [frameCommit_awaits hr hst hp (.inr (by rw [ho]; decide))]
    exact commit_oow hs ho hpart
  · rw [frameCommit_awaits hr hst hp hm]
    exact commit_own hs hb
  · obtain ⟨a, ha⟩ := Option.isSome_iff_exists.mp ha
    obtain ⟨hopen, hcount, hgone⟩ := commit_ack hs (k := k) ha ho
    rw [frameCommit_acks hr hst hp hid ho hopen]
    exact ⟨hcount, hgone⟩

end Sys2Proof.Machine

/-! What the operations on queues and staging leave of a node's context, of the address index and of the node operations' registers
(R182, R186-R196). -/

namespace Sys2Proof.Machine

/-! ## A context that stays -/

/-- Removing a key leaves every other key that is listed, whatever the table's order. -/
theorem sget_sdel_listed {α : Type} (d : Nat → α) {k x : Nat} (hx : x ≠ k) : ∀ m : Sparse α, sget d m x ≠ d x → sget d (sdel m k) x = sget d m x
  | [], _ => rfl
  | (j, v) :: m, h => by
    have ih := sget_sdel_listed d hx m
    unfold sdel
    split
    · next e =>
      subst e
      by_cases hk : x < k
      · simp [sget, hx, hk] at h
      · simp [sget, hx, hk]
    · split
      · rfl
      · unfold sget at h ⊢
        split
        · rfl
        · next hj =>
          split
          · rfl
          · next hl => exact ih (by simpa [hj, hl] using h)

/-- Writing a key leaves every other key that is listed, whatever the table's order. -/
theorem sget_sset_listed {α : Type} [DecidableEq α] (d : Nat → α) {k x : Nat} (v : α) (hx : x ≠ k) {m : Sparse α} (h : sget d m x ≠ d x) :
    sget d (sset d m k v) x = sget d m x := by
  unfold sset
  split
  · exact sget_sdel_listed d hx m h
  · exact sget_sput_ne d v hx m

/-- The fields of a context by which it holds its queue (R177, R189, R190). -/
def queueFlds : List Fld := [NC.HEAD, NC.QLEN, NC.TAIL 0, NC.TAIL 1, NC.TAIL 2, NC.TAIL 3]

/-- Two fields of a record share no bit. -/
abbrev Fld.apart (f g : Fld) : Prop := f.lo + f.w ≤ g.lo ∨ g.lo + g.w ≤ f.lo

/-- Field f of a context stands apart from those of its queue. -/
abbrev offQueue (f : Fld) : Prop := ∀ g ∈ queueFlds, f.apart g

/-- A context in use with good parity has its flags and, apart from its queue, its fields still; an ACTIVE one may have come into the sweep. -/
def nodeKept (m n : Node) : Prop :=
  m.life ≠ 0 → m.badPar = 0 →
    n.badPar = 0 ∧ n.poison = m.poison ∧ (n.life = m.life ∨ m.life = 1 ∧ n.life = 3) ∧ ∀ f, offQueue f → f.of n.ctx = f.of m.ctx

theorem nodeKept_refl (n : Node) : nodeKept n n := fun _ hp => ⟨hp, rfl, .inl rfl, fun _ _ => rfl⟩

theorem nodeKept_trans {m n k : Node} (a : nodeKept m n) (b : nodeKept n k) : nodeKept m k := by
  intro hl hp
  obtain ⟨np, npoison, nlife, nctx⟩ := a hl hp
  obtain ⟨kp, kpoison, klife, kctx⟩ := b (by omega) np
  exact ⟨kp, kpoison.trans npoison, by omega, fun f hf => (kctx f hf).trans (nctx f hf)⟩

/-- A field of the queue is written. -/
theorem nodeKept_put (n : Node) {g : Fld} (hg : g ∈ queueFlds) (v : Nat) : nodeKept n { n with ctx := g.put n.ctx v } := by
  have fits : ∀ g ∈ queueFlds, g.lo + g.w ≤ 512 := by decide
  exact fun _ hp => ⟨hp, rfl, .inl rfl, fun f hf => of_put_apart (fits g hg) (hf g hg) n.ctx v⟩

/-- A context that is in use reads so when it is written. -/
theorem node_setNode_kept {s : State} {h : Nat} {x : Node} (hx : nodeKept (s.node h) x) : nodeKept (s.node h) ((s.setNode h x).node h) := by
  intro hl hp
  obtain ⟨xp, xpoison, xlife, xctx⟩ := hx hl hp
  have hne : x ≠ {} := fun e => by
    have : x.life = 0 := congrArg Node.life e
    omega
  rw [node_setNode_same hne]
  exact ⟨xp, xpoison, xlife, xctx⟩

/-- A context in use stays when another is written. -/
theorem node_setNode_other {s : State} {h j : Nat} (hj : h ≠ j) (x : Node) (hl : (s.node h).life ≠ 0) : (s.setNode j x).node h = s.node h :=
  sget_sset_listed (fun _ => ({} : Node)) x hj fun e => hl (congrArg Node.life e)

/-! ## Steps -/

/-- The registers of the node operations and of pruning. -/
def nodeRegs : List Nat := [QUE_NCMD.reg, QUE_NRES.reg, QUE_CNT_PRUNED.reg]

/-- What the operations on queues and staging leave: the registers of node operations, the index, the prunes that run, and node h apart from its
queue. -/
structure HandleStep (h : Nat) (s t : State) : Prop where
  inv : t.inv = true
  reg : ∀ a ∈ nodeRegs, t.reg a = s.reg a
  index : t.que.index = s.que.index
  prunes : t.que.prunes = s.que.prunes
  node : nodeKept (s.node h) (t.node h)

section
variable {h : Nat}

theorem HandleStep.refl {s : State} (hs : s.inv = true) : HandleStep h s s := ⟨hs, fun _ _ => rfl, rfl, rfl, nodeKept_refl _⟩

theorem HandleStep.trans {s t u : State} (a : HandleStep h s t) (b : HandleStep h t u) : HandleStep h s u where
  inv := b.inv
  reg x hx := (b.reg x hx).trans (a.reg x hx)
  index := b.index.trans a.index
  prunes := b.prunes.trans a.prunes
  node := nodeKept_trans a.node b.node

theorem HandleStep.foldl {α : Type} {f : State → α → State} (hf : ∀ u x, u.inv = true → HandleStep h u (f u x)) :
    ∀ (l : List α) {s : State}, s.inv = true → HandleStep h s (l.foldl f s)
  | [], _, hs => .refl hs
  | x :: l, s, hs => (hf s x hs).trans (HandleStep.foldl hf l (hf s x hs).inv)

/-- A step that leaves the contexts, the index and the prunes alone. -/
theorem handleStep_of_que {s t : State} (hi : t.inv = true) (hr : ∀ a ∈ nodeRegs, t.reg a = s.reg a) (hn : t.que.nodes = s.que.nodes)
    (hx : t.que.index = s.que.index) (hp : t.que.prunes = s.que.prunes) : HandleStep h s t := by
  refine ⟨hi, hr, hx, hp, ?_⟩
  unfold State.node
  rw [hn]
  exact nodeKept_refl _

/-- A step beside registers and the queue fabric. -/
theorem handleStep_beside {s t : State} (hi : t.inv = true) (hr : t.regs = s.regs) (hq : t.que = s.que) : HandleStep h s t :=
  handleStep_of_que hi (fun _ _ => by unfold State.reg; rw [hr]) (by rw [hq]) (by rw [hq]) (by rw [hq])

theorem handleStep_wr {s : State} (hs : s.inv = true) {f : RegFld} (hf : f.addr ∉ nodeRegs) (v : Nat) : HandleStep h s (s.wr f v) :=
  handleStep_of_que (inv_wr hs f v) (fun a ha => reg_wr_other s f v a (fun e => hf (e ▸ ha)) hs) rfl rfl rfl

theorem handleStep_inc {s : State} (hs : s.inv = true) {f : RegFld} (hf : f.addr ∉ nodeRegs) : HandleStep h s (s.inc f) := handleStep_wr hs hf _

/-- Every register from the frame store's accounts on is apart from the node operations'. -/
theorem not_nodeRegs {a : Nat} (ha : 0x500400 ≤ a) : a ∉ nodeRegs := fun hm => by
  have : ∀ x ∈ nodeRegs, x < 0x500400 := by decide
  exact absurd (this a hm) (by omega)

theorem noPba_nodeRegs {a : Nat} (ha : a ∈ nodeRegs) : noPba a := by
  have : ∀ x ∈ nodeRegs, x < 0x500400 := by decide
  exact noPba_of_lt ((this a ha).trans (by decide))

theorem handleStep_raise {s : State} (hs : s.inv = true) {c : Nat} (hc : ∀ a ∈ nodeRegs, evtReg c ≠ some a) (b : Nat) :
    HandleStep h s (s.raise c b) :=
  handleStep_of_que (inv_raise hs c b) (fun a ha => raise_reg s c b a hs (noPba_nodeRegs ha) (hc a ha)) (by rw [raise_que]) (by rw [raise_que])
    (by rw [raise_que])

/-- A context is written: node h must be kept by what is written to it. -/
theorem handleStep_setNode {s : State} (hs : s.inv = true) {j : Nat} {x : Node} (hx : j = h → nodeKept (s.node h) x) :
    HandleStep h s (s.setNode j x) := by
  refine ⟨hs, fun _ _ => rfl, rfl, rfl, ?_⟩
  by_cases e : h = j
  · subst e
    exact node_setNode_kept (hx rfl)
  · intro hl
    rw [node_setNode_other e x hl]
    exact nodeKept_refl _ hl

theorem handleStep_ncPut {s : State} (hs : s.inv = true) (j : Nat) {f : Fld} (hf : f ∈ queueFlds) (v : Nat) : HandleStep h s (s.ncPut j f v) :=
  handleStep_setNode hs fun e => e ▸ nodeKept_put _ hf v

/-! ## Cells -/

theorem handleStep_setCell {s : State} (hs : s.inv = true) (k : Nat) (c : FCell) : HandleStep h s (s.setCell k c) :=
  handleStep_of_que hs (fun _ _ => rfl) rfl rfl rfl

theorem handleStep_setFree {s : State} (hs : s.inv = true) (v : Nat) : HandleStep h s (setFree v s) := by
  have a : HandleStep h s (s.wr QUE_STS.FREE v) := handleStep_wr hs (by decide) v
  have b : HandleStep h s (if v < s.rd QUE_FREE_MIN.MIN then (s.wr QUE_STS.FREE v).wr QUE_FREE_MIN.MIN v else s.wr QUE_STS.FREE v) := by
    split
    · exact a.trans (handleStep_wr a.inv (by decide) v)
    · exact a
  unfold setFree
  dsimp only
  split
  · exact b.trans (handleStep_raise b.inv (by decide) 6)
  · exact b

theorem QUE_PUSE_not_nodeRegs (a : Nat) : (QUE_PUSE.USE a).addr ∉ nodeRegs := not_nodeRegs (by
  dsimp only [QUE_PUSE.USE, QUE_PUSE.reg]
  omega)

theorem handleStep_useMore {s : State} (hs : s.inv = true) (a n : Nat) : HandleStep h s (useMore a n s) := by
  unfold useMore
  split
  · exact handleStep_wr hs (QUE_PUSE_not_nodeRegs a) _
  · exact handleStep_of_que hs (fun _ _ => rfl) rfl rfl rfl

theorem handleStep_useLess {s : State} (hs : s.inv = true) (a n : Nat) : HandleStep h s (useLess a n s) := by
  unfold useLess
  split
  · exact handleStep_wr hs (QUE_PUSE_not_nodeRegs a) _
  · exact handleStep_of_que hs (fun _ _ => rfl) rfl rfl rfl

theorem handleStep_freeCell {s : State} (hs : s.inv = true) (k : Nat) : HandleStep h s (freeCell s k) := by
  unfold freeCell
  split
  · exact .refl hs
  · have a : HandleStep h s _ := handleStep_setCell hs k { s.cell k with acct := none, owner := none, hdrCell := false }
    have b := a.trans (handleStep_setFree a.inv (s.rd QUE_STS.FREE + 1))
    exact b.trans (handleStep_useLess b.inv _ 1)

theorem handleStep_freeCells {s : State} (hs : s.inv = true) (ks : List Nat) : HandleStep h s (freeCells ks s) :=
  HandleStep.foldl (fun _ k hu => handleStep_freeCell hu k) ks hs

theorem handleStep_takeCells {s : State} (hs : s.inv = true) (a n : Nat) : HandleStep h s (takeCells a n s).1 := by
  have freed : HandleStep h s s.freed := handleStep_beside hs rfl rfl
  have taken := freed.trans (HandleStep.foldl (f := takeCell a) (fun u k hu => handleStep_setCell hu k _) (freeFrom s (s.freeVal storeCells) n) freed.inv)
  have free := taken.trans (handleStep_setFree taken.inv (s.rd QUE_STS.FREE - n))
  exact free.trans (handleStep_useMore free.inv a n)

theorem handleStep_putStream : ∀ (ks : List Nat) (bs : List Bool) {s : State}, s.inv = true → HandleStep h s (putStream ks bs s)
  | [], _, _, hs => .refl hs
  | k :: ks, bs, _, hs => (handleStep_setCell hs k _).trans (handleStep_putStream ks (bs.drop 512) hs)

theorem handleStep_cellParity {s : State} (hs : s.inv = true) (k : Nat) : HandleStep h s (cellParity k s) := by
  have index : HandleStep h s (s.wr QUE_PAR_LOG.INDEX k) := handleStep_wr hs (by decide) k
  have kind := index.trans (handleStep_wr (f := QUE_PAR_LOG.KIND) index.inv (by decide) 0)
  have valid := kind.trans (handleStep_wr (f := QUE_PAR_LOG.VALID) kind.inv (by decide) 1)
  have count := valid.trans (handleStep_inc (f := QUE_CNT_CELL_PAR.COUNT) valid.inv (by decide))
  exact count.trans (handleStep_raise count.inv (by decide) 1)

/-- A reader's check of a context with good parity leaves it. -/
theorem handleStep_ctxCheck {s : State} (hs : s.inv = true) (j : Nat) : HandleStep h s (ctxCheck j s) := by
  by_cases good : (s.node j).badPar = 0 ∨ (s.node j).poison = true
  · rw [show ctxCheck j s = s from if_pos good]
    exact .refl hs
  · have poison : HandleStep h s (s.setNode j { s.node j with poison := true }) :=
      handleStep_setNode hs fun e => e ▸ fun _ hp => absurd (.inl hp) good
    have index := poison.trans (handleStep_wr (f := QUE_PAR_LOG.INDEX) poison.inv (by decide) j)
    have kind := index.trans (handleStep_wr (f := QUE_PAR_LOG.KIND) index.inv (by decide) 1)
    have valid := kind.trans (handleStep_wr (f := QUE_PAR_LOG.VALID) kind.inv (by decide) 1)
    have count := valid.trans (handleStep_inc (f := QUE_CNT_CTX_PAR.COUNT) valid.inv (by decide))
    rw [show ctxCheck j s = _ from if_neg good]
    exact count.trans (handleStep_raise count.inv (by decide) 2)

/-! ## Items and queues -/

theorem handleStep_finalNotice {s : State} (hs : s.inv = true) (e hc : Nat) (n : Notice) : HandleStep h s (finalNotice e hc n s) := by
  have disc : (ENG_NTF_DISC.COUNT (e / 8) (e % 8)).addr ∉ nodeRegs := not_nodeRegs (by
    dsimp only [ENG_NTF_DISC.COUNT, ENG_NTF_DISC.reg]
    omega)
  have step := itemStep_finalNotice hs e hc n
  refine handleStep_of_que step.inv (fun a ha => ?_) (by rw [finalNotice_que]) (by rw [finalNotice_que]) (by rw [finalNotice_que])
  unfold finalNotice
  split
  · rfl
  · split
    · exact reg_wr_other { s with eng := _ } _ _ a (fun x => disc (x ▸ ha)) hs
    · rfl

theorem handleStep_complete {s : State} (hs : s.inv = true) (x status detail attempts value result : Nat) :
    HandleStep h s (s.complete x status detail attempts value result) := by
  rw [complete_frame]
  exact handleStep_beside hs rfl rfl

theorem handleStep_tellOrigin {s : State} (hs : s.inv = true) (j hc status : Nat) : HandleStep h s (tellOrigin j hc status s) := by
  unfold tellOrigin
  split
  · dsimp only
    split
    · split
      · exact handleStep_complete hs _ _ _ _ _ _
      · exact .refl hs
    · exact .refl hs
  · exact handleStep_finalNotice hs _ _ _

theorem handleStep_endItem {s : State} (hs : s.inv = true) (j hc status : Nat) : HandleStep h s (endItem j hc status s) := by
  have told : HandleStep h s (tellOrigin j hc status s) := handleStep_tellOrigin hs j hc status
  have gone : HandleStep h s (forgotten hc (tellOrigin j hc status s)) :=
    told.trans (handleStep_of_que told.inv (fun _ _ => rfl) rfl rfl rfl)
  have fewer := gone.trans (handleStep_ncPut gone.inv j (f := NC.QLEN) (by decide) ((forgotten hc (tellOrigin j hc status s)).nc j NC.QLEN - 1))
  rw [endItem_eq]
  exact fewer.trans (handleStep_freeCells fewer.inv _)

theorem handleStep_sweeps {s : State} (hs : s.inv = true) (l : List Nat) : HandleStep h s { s with que := { s.que with sweeps := l } } :=
  handleStep_of_que hs (fun _ _ => rfl) rfl rfl rfl

theorem handleStep_sweepDue {s : State} (hs : s.inv = true) {j : Nat} (hl : (s.node j).life = 1) (bad : Nat) :
    HandleStep h s (sweepDue j bad s) := by
  have swept : HandleStep h s (s.setNode j { s.node j with life := 3 }) :=
    handleStep_setNode hs fun e => e ▸ fun _ hp => ⟨hp, rfl, .inr ⟨hl, rfl⟩, fun _ _ => rfl⟩
  have head := swept.trans (handleStep_ncPut swept.inv j (f := NC.HEAD) (by decide) bad)
  exact head.trans (handleStep_sweeps head.inv _)

theorem handleStep_startSweep {s : State} (hs : s.inv = true) {j : Nat} (hl : (s.node j).life = 1) (bad : Nat) :
    HandleStep h s (startSweep j bad s) := by
  have due : HandleStep h s (sweepDue j bad s) := handleStep_sweepDue hs hl bad
  have shown := due.trans (handleStep_wr (f := QUE_STS.SWEEP) due.inv (by decide) 1)
  rw [startSweep_eq]
  exact shown.trans (HandleStep.foldl (fun _ i hu => handleStep_endItem hu j i 0x10) _ shown.inv)

theorem handleStep_readHeaders {s : State} (hs : s.inv = true) (j : Nat) (ks : List Nat) : HandleStep h s (readHeaders j ks s).1 := by
  cases hf : ks.find? (fun k => badCell (s.cell k)) with
  | none =>
    rw [readHeaders_good hf j]
    exact .refl hs
  | some k =>
    by_cases hl : (s.node j).life = 1
    · have parity : HandleStep h s (cellParity k s) := handleStep_cellParity hs k
      have hl' : ((cellParity k s).node j).life = 1 := by rw [node_of_que (cellParity_que k s), hl]
      rw [readHeaders_bad hf hl]
      exact parity.trans (handleStep_startSweep parity.inv hl' k)
    · rw [readHeaders_idle hf hl]
      exact .refl hs

theorem handleStep_linkNext : ∀ (ks : List Nat) {s : State}, s.inv = true → HandleStep h s (linkNext ks s)
  | [], _, hs => .refl hs
  | _ :: ks, _, hs => (handleStep_setCell hs _ _).trans (handleStep_linkNext ks hs)

theorem handleStep_tails (j : Nat) (v : Nat → Nat) : ∀ (ks : List Nat) {s : State}, s.inv = true → (∀ k ∈ ks, NC.TAIL k ∈ queueFlds) →
    HandleStep h s (ks.foldl (fun u k => u.ncPut j (NC.TAIL k) (v k)) s)
  | [], _, hs, _ => .refl hs
  | k :: ks, _, hs, hk =>
    have one := handleStep_ncPut hs j (hk k List.mem_cons_self) (v k)
    one.trans (handleStep_tails j v ks one.inv fun i hi => hk i (List.mem_cons_of_mem _ hi))

theorem handleStep_setQueue {s : State} (hs : s.inv = true) (j : Nat) (items : List Nat) : HandleStep h s (setQueue j items s) := by
  have links : HandleStep h s (linkNext items s) := handleStep_linkNext items hs
  have head := links.trans (handleStep_ncPut links.inv j (f := NC.HEAD) (by decide) (items.headD noCell))
  rw [setQueue_eq]
  exact head.trans (handleStep_tails j _ [0, 1, 2, 3] head.inv (by decide))

theorem handleStep_backToQueue {s : State} (hs : s.inv = true) (x : Ent) : HandleStep h s (backToQueue x s) := by
  unfold backToQueue
  split
  · split
    · next j hc _ _ =>
      have read : HandleStep h s _ := handleStep_readHeaders hs j (linkPoint s j (s.ih hc IH.PRIO) false)
      exact read.trans (handleStep_setQueue read.inv _ _)
    · exact .refl hs
  · exact .refl hs

end

end Sys2Proof.Machine

/-! What a squash leaves of its node (R124-R126, R154). -/

namespace Sys2Proof.Machine

section
variable {h : Nat}

/-! ## Leaving staging -/

theorem handleStep_returnAir {s : State} (hs : s.inv = true) (x : Ent) : HandleStep h s (returnAir x s) := by
  have pair : (PRT_PAIR.VALUE x.part 0).addr ∉ nodeRegs := not_nodeRegs (by
    dsimp only [PRT_PAIR.VALUE, PRT_PAIR.reg]
    omega)
  unfold returnAir
  split
  · exact handleStep_wr hs pair _
  · exact .refl hs

theorem handleStep_burnEnt {s : State} (hs : s.inv = true) (x : Ent) : HandleStep h s (burnEnt x s) := by
  unfold burnEnt
  split
  · exact handleStep_inc hs (by decide)
  · exact .refl hs

theorem handleStep_setEnt {s : State} (hs : s.inv = true) (e : Nat) (x : Ent) : HandleStep h s (s.setEnt e x) := handleStep_beside hs rfl rfl

theorem handleStep_txc {s : State} (hs : s.inv = true) (x : Txc) : HandleStep h s { s with txc := x } := handleStep_beside hs rfl rfl

theorem handleStep_lnk {s : State} (hs : s.inv = true) (l : Lnk) : HandleStep h s { s with lnk := l } := handleStep_beside hs rfl rfl

theorem handleStep_reqUpdate {s : State} (hs : s.inv = true) : HandleStep h s (reqUpdate s) := by
  have pairs := pairStep_reqUpdate hs
  have apart : ∀ a ∈ nodeRegs, ¬coexReg a := fun a ha hc => by
    have : ∀ x ∈ nodeRegs, 0x500000 ≤ x := by decide
    exact absurd (this a ha) (Nat.not_le.mpr (hc.2.trans (by decide)))
  refine handleStep_of_que pairs.inv (fun a ha => pairs.reg a (apart a ha)) ?_ ?_ ?_ <;> rw [pairs.frame]

theorem handleStep_releaseEnt {s : State} (hs : s.inv = true) (e : Nat) : HandleStep h s (releaseEnt e s) := by
  have cells : HandleStep h s (freeCells (s.ent e).cells s) := handleStep_freeCells hs _
  have free : HandleStep h s (entFreed e s) := cells.trans (handleStep_setEnt cells.inv e {})
  have withdrawn : HandleStep h s (coexWithdrawn e (entFreed e s)) := free.trans (handleStep_txc free.inv _)
  have wires := withdrawn.trans (handleStep_reqUpdate withdrawn.inv)
  rw [releaseEnt_eq]
  exact wires.trans (handleStep_lnk wires.inv _)

theorem handleStep_vacate {s : State} (hs : s.inv = true) (e : Nat) : HandleStep h s (vacate e s) := by
  have released : HandleStep h s (releaseEnt e s) := handleStep_releaseEnt hs e
  by_cases hp : (s.ent e).st = 2
  · rw [vacate_preparing hp]
    exact released.trans (handleStep_setEnt released.inv e _)
  · rw [vacate_released hp]
    exact released

/-! ## The pending-clear frame of a follow-up -/

theorem handleStep_ready {s : State} (hs : s.inv = true) (e : Nat) (x : Ent) : HandleStep h s (ready e x s) := by
  have stream : HandleStep h s _ := handleStep_putStream x.cells (entStream s x) hs
  exact stream.trans (handleStep_setEnt stream.inv e _)

theorem handleStep_streamAlloc {s : State} (hs : s.inv = true) {x : Ent} {len : Nat} {r : State × List Nat} (hr : streamAlloc x len s = some r) :
    HandleStep h s r.1 := by
  unfold streamAlloc at hr
  dsimp only at hr
  split at hr
  · obtain rfl := Option.some.inj hr
    exact handleStep_takeCells hs _ _
  · exact absurd hr.symm (Option.some_ne_none r)

theorem handleStep_prepPlain {s : State} (hs : s.inv = true) (e : Nat) : HandleStep h s (prepPlain e s) := by
  unfold prepPlain
  dsimp only
  split
  · next r hr =>
    have cells : HandleStep h s r.1 := handleStep_streamAlloc hs hr
    exact cells.trans (handleStep_ready cells.inv e _)
  · exact .refl hs

theorem handleStep_stageSlot {s : State} (hs : s.inv = true) {x : Ent} {r : State × Nat} (hr : stageSlot x s = some r) : HandleStep h s r.1 := by
  unfold stageSlot at hr
  split at hr
  · next e _ =>
    have freed : HandleStep h s s.freed := handleStep_beside hs rfl rfl
    have put := freed.trans (handleStep_setEnt freed.inv e { x with st := 1, seqNo := s.txc.arrivals })
    have staged := put.trans (handleStep_txc put.inv
      { (s.freed.setEnt e { x with st := 1, seqNo := s.txc.arrivals }).txc with arrivals := s.txc.arrivals + 1 })
    obtain rfl := Option.some.inj hr
    dsimp only
    split
    · exact staged
    · exact staged.trans (handleStep_prepPlain staged.inv e)
  · exact absurd hr.symm (Option.some_ne_none r)

theorem handleStep_chargeAir {s : State} (hs : s.inv = true) (p a : Nat) : HandleStep h s (chargeAir p a s) := handleStep_wr hs (not_nodeRegs (by
  dsimp only [PRT_PAIR.VALUE, PRT_PAIR.reg]
  omega)) _

theorem PRT_PCNT_not_nodeRegs (p k : Nat) : (PRT_PCNT.COUNT p k).addr ∉ nodeRegs := not_nodeRegs (by
  dsimp only [PRT_PCNT.COUNT, PRT_PCNT.reg]
  omega)

theorem handleStep_pendClear {s : State} (hs : s.inv = true) (x : Ent) : HandleStep h s (pendClear x s) := by
  unfold pendClear
  split
  · exact .refl hs
  · next j _ =>
    have checked : HandleStep h s (ctxCheck j s) := handleStep_ctxCheck hs j
    have freed : HandleStep h s (ctxCheck j s).freed := checked.trans (handleStep_beside checked.inv rfl rfl)
    have counted : ∀ {f : RegFld}, f.addr ∉ nodeRegs → ∀ b, HandleStep h s (((ctxCheck j s).freed.inc f).raise 4 b) := fun hf b =>
      have count := freed.trans (handleStep_inc freed.inv hf)
      count.trans (handleStep_raise count.inv (by decide) b)
    extract_lets u lvl fm m k len c dur t a v y
    split
    · exact checked
    · split
      · exact counted (by decide) 3
      · split
        · exact freed.trans (handleStep_inc freed.inv (PRT_PCNT_not_nodeRegs _ _))
        · split
          · next r hr =>
            have staged := freed.trans (handleStep_stageSlot freed.inv hr)
            have charged := staged.trans (handleStep_chargeAir staged.inv x.part a)
            exact charged.trans (handleStep_inc charged.inv (by decide))
          · exact counted (by decide) 0

theorem handleStep_followUpGone {s : State} (hs : s.inv = true) (x : Ent) : HandleStep h s (followUpGone x s) := by
  unfold followUpGone followUpLost
  split
  · have started : HandleStep h s (startSeq 3 0 0 x.air x.aEnd 0 0 0 x.node x.item none s) := handleStep_lnk hs _
    split
    · exact started.trans (handleStep_pendClear started.inv x)
    · exact started
  · exact .refl hs

/-! ## Squashes -/

/-- A squash is counted under its cause and raised, and a follow-up it took is gone. -/
def squashTold (cause : Nat) (x : Ent) (s : State) : State :=
  let u := (s.inc (TXC_SQ_CNT.COUNT (cause - 1))).raise 3 1
  if cause < 6 then followUpGone x u else u

theorem handleStep_squashTold {s : State} (hs : s.inv = true) {cause : Nat} (hc : cause < 6) (x : Ent) : HandleStep h s (squashTold cause x s) := by
  have apart : (TXC_SQ_CNT.COUNT (cause - 1)).addr ∉ nodeRegs := fun hm => by
    have : ∀ a ∈ nodeRegs, 0x500000 ≤ a := by decide
    have := this _ hm
    dsimp only [TXC_SQ_CNT.COUNT, TXC_SQ_CNT.reg] at this
    omega
  have count : HandleStep h s (s.inc (TXC_SQ_CNT.COUNT (cause - 1))) := handleStep_inc hs apart
  have told := count.trans (handleStep_raise (c := 3) count.inv (by decide) 1)
  unfold squashTold
  dsimp only
  rw [if_pos hc]
  exact told.trans (handleStep_followUpGone told.inv x)

theorem handleStep_atts {s : State} (hs : s.inv = true) (p : Att → Bool) :
    HandleStep h s { s with lnk := { s.lnk with atts := s.lnk.atts.filter p } } := handleStep_lnk hs _

theorem squashEnt_eq (cause : Nat) (s : State) (e : Nat) :
    squashEnt cause s e =
      if (s.ent e).dead ∨ ¬((s.ent e).st ∈ [1, 2, 3, 4, 5, 8]) then s
      else
        let u := backToQueue (s.ent e) (vacate e (returnAir (s.ent e) (burnEnt (s.ent e) s)))
        squashTold cause (s.ent e) { u with lnk := { u.lnk with atts := u.lnk.atts.filter (fun a => a.ent != e || a.done) } } := rfl

theorem handleStep_squashEnt {s : State} (hs : s.inv = true) {cause : Nat} (hc : cause < 6) (e : Nat) : HandleStep h s (squashEnt cause s e) := by
  rw [squashEnt_eq]
  split
  · exact .refl hs
  · have burned : HandleStep h s (burnEnt (s.ent e) s) := handleStep_burnEnt hs _
    have air := burned.trans (handleStep_returnAir burned.inv (s.ent e))
    have vacant := air.trans (handleStep_vacate air.inv e)
    have back := vacant.trans (handleStep_backToQueue vacant.inv (s.ent e))
    have closed := back.trans (handleStep_atts back.inv (fun a => a.ent != e || a.done))
    exact closed.trans (handleStep_squashTold closed.inv hc (s.ent e))

theorem squashSched_eq (cause : Nat) (s : State) (d : Sched) :
    squashSched cause s d =
      squashTold cause d.ent (backToQueue d.ent (returnAir d.ent
        { s with lnk := { s.lnk with scheds := s.lnk.scheds.filter (fun y => !decide (y = d)) } })) := rfl

theorem handleStep_squashSched {s : State} (hs : s.inv = true) {cause : Nat} (hc : cause < 6) (d : Sched) : HandleStep h s (squashSched cause s d) := by
  have gone : HandleStep h s { s with lnk := { s.lnk with scheds := s.lnk.scheds.filter (fun y => !decide (y = d)) } } := handleStep_lnk hs _
  have air := gone.trans (handleStep_returnAir gone.inv d.ent)
  have back := air.trans (handleStep_backToQueue air.inv d.ent)
  rw [squashSched_eq]
  exact back.trans (handleStep_squashTold back.inv hc d.ent)

theorem handleStep_squashAll {s : State} (hs : s.inv = true) {cause : Nat} (hc : cause < 6) (sel : Nat → Ent → Bool) :
    HandleStep h s (squashAll cause sel s) := by
  unfold squashAll
  dsimp only
  refine HandleStep.foldl (fun u x hu => ?_) _ hs
  split
  · exact handleStep_squashEnt hu hc _
  · exact handleStep_squashSched hu hc _

/-- A squash of node j's entries leaves node h but for its queue (R124). -/
theorem handleStep_squashNode {s : State} (hs : s.inv = true) {cause : Nat} (hc : cause < 6) (j : Nat) : HandleStep h s (squashNode cause j s) :=
  handleStep_squashAll hs hc _

end

/-- A squash of a node with nothing in staging does nothing. -/
theorem squashNode_idle {s : State} {h : Nat} (he : ∀ p ∈ s.txc.ents, p.2.node ≠ some h) (hd : ∀ d ∈ s.lnk.scheds, d.ent.node ≠ some h) (cause : Nat) :
    squashNode cause h s = s := by
  have ents : s.txc.ents.filter (fun p => !isSlot p.1 && p.2.node == some h) = [] :=
    List.filter_eq_nil_iff.mpr fun p hp => by simp [he p hp]
  have scheds : s.lnk.scheds.zipIdx.filter (fun d => !isSlot 0 && d.1.ent.node == some h) = [] :=
    List.filter_eq_nil_iff.mpr fun d hm => by simp [hd d.1 (List.fst_mem_of_mem_zipIdx hm)]
  unfold squashNode squashAll
  dsimp only
  rw [ents, scheds]
  simp only [List.map_nil, List.append_nil, byAirDesc, List.mergeSort_nil, List.foldl_nil]

end Sys2Proof.Machine

/-! The address index: lookups, insertions and removals of keys (R182). -/

namespace Sys2Proof.Machine

/-! ## Tables whose keys are distinct -/

theorem sfind_sput_ne {α : Type} {k x : Nat} (hx : x ≠ k) (v : α) : ∀ m : Sparse α, sfind (sput m k v) x = sfind m x
  | [] => by simp [sput, sfind, hx.symm]
  | (j, u) :: m => by
    have ih := sfind_sput_ne hx v m
    unfold sfind at ih ⊢
    by_cases e : k = j
    · subst e
      simp [sput, hx.symm]
    · by_cases hl : k < j
      · simp [sput, e, hl, hx.symm]
      · simp only [sput, if_neg e, if_neg hl, List.find?_cons]
        split
        · rfl
        · exact ih

/-- What a table with distinct keys lists is what it finds. -/
theorem sfind_of_mem {α : Type} {k : Nat} {v : α} : ∀ {m : Sparse α}, m.Pairwise (fun a b => a.1 ≠ b.1) → (k, v) ∈ m → sfind m k = some v
  | (j, u) :: m, hm, hv => by
    obtain ⟨hfirst, hrest⟩ := List.pairwise_cons.mp hm
    unfold sfind
    rcases List.mem_cons.mp hv with e | hv
    · obtain ⟨rfl, rfl⟩ := Prod.mk.inj e
      rw [List.find?_cons_of_pos (by simp)]
      rfl
    · rw [List.find?_cons_of_neg (by simpa using hfirst _ hv)]
      exact sfind_of_mem hrest hv

/-! ## Lookups -/

/-- The handle that place k of an index gives for a key. -/
def placeGives (m : Sparse IdxKey) (pan : Nat) (a : Addr) (k : Nat) : Option Nat :=
  (sfind m k).bind fun x => if x.pan = pan ∧ x.addr = a then some x.node else none

theorem idxLookup_eq (s : State) (pan : Nat) (a : Addr) : idxLookup s pan a = (keyPlaces pan a).findSome? (placeGives s.que.index pan a) := by
  have place : ∀ k, placeGives s.que.index pan a k =
      match sfind s.que.index k with | some x => if x.pan = pan ∧ x.addr = a then some x.node else none | none => none := fun k => by
    unfold placeGives
    cases sfind s.que.index k <;> rfl
  rw [funext place]
  rfl

theorem idxLookup_of_index {s t : State} (e : s.que.index = t.que.index) (pan : Nat) (a : Addr) : idxLookup s pan a = idxLookup t pan a := by
  rw [idxLookup_eq, idxLookup_eq, e]

/-- What the places give after a key is written to one. -/
theorem placeGives_sput (m : Sparse IdxKey) (k pan : Nat) (a : Addr) (h p : Nat) (b : Addr) (j : Nat) :
    placeGives (sput m k ⟨pan, a, h⟩) p b j = if j = k then (if pan = p ∧ a = b then some h else none) else placeGives m p b j := by
  unfold placeGives
  split
  · next e =>
    rw [e, sfind_sput_same]
    rfl
  · next e => rw [sfind_sput_ne e]

/-- Places that all give the same handle, if any, and of which one does, give it. -/
theorem findSome_same {f : Nat → Option Nat} {h : Nat} : ∀ {l : List Nat}, (∀ k ∈ l, f k = none ∨ f k = some h) → (∃ k ∈ l, f k = some h) →
    l.findSome? f = some h
  | k :: l, hall, hex => by
    rcases hall k List.mem_cons_self with hk | hk
    · obtain ⟨i, hi, hf⟩ := hex
      have hi : i ∈ l := (List.mem_cons.mp hi).resolve_left fun e => absurd (hk.symm.trans (e ▸ hf)) (by simp)
      rw [List.findSome?_cons_of_isNone (by rw [hk]; rfl)]
      exact findSome_same (fun i hi => hall i (List.mem_cons_of_mem _ hi)) ⟨i, hi, hf⟩
    · rw [List.findSome?_cons_of_isSome (by rw [hk]; rfl), hk]
  | [], _, hex => absurd hex (by simp)

/-! ## Insertion of one key -/

/-- What changes of the index change: the index and its key count. -/
structure IndexStep (s t : State) : Prop where
  inv : t.inv = true
  frame : t = { s with regs := t.regs, que := { s.que with index := t.que.index } }
  reg : ∀ a, a ≠ QUE_IDX_STS.reg → t.reg a = s.reg a

theorem IndexStep.refl {s : State} (hs : s.inv = true) : IndexStep s s := ⟨hs, rfl, fun _ _ => rfl⟩

theorem IndexStep.trans {s t u : State} (a : IndexStep s t) (b : IndexStep t u) : IndexStep s u where
  inv := b.inv
  frame := by rw [b.frame, a.frame]
  reg x hx := (b.reg x hx).trans (a.reg x hx)

theorem IndexStep.que {s t : State} (a : IndexStep s t) : t.que = { s.que with index := t.que.index } := congrArg State.que a.frame

theorem IndexStep.node {s t : State} (a : IndexStep s t) (h : Nat) : t.node h = s.node h := by
  unfold State.node
  rw [a.que]

theorem indexStep_setIndex {s : State} (hs : s.inv = true) (x : Sparse IdxKey) : IndexStep s (setIndex x s) :=
  ⟨kept_inv (kept_setIndex x s (kept_refl hs)), rfl,
    fun a ha => reg_wr_other { s with que := { s.que with index := x } } QUE_IDX_STS.KEYS x.length a ha hs⟩

section
variable {s : State} {pan h : Nat} {a : Addr}

theorem idxInsert_found {j : Nat} (hl : idxLookup s pan a = some j) : idxInsert pan a h s = (s, if j = h then 0 else 3) := by
  unfold idxInsert
  rw [hl]

theorem idxInsert_put {k : Nat} (hl : idxLookup s pan a = none) (hk : (keyPlaces pan a).find? (fun k => (sfind s.que.index k).isNone) = some k) :
    idxInsert pan a h s = (setIndex (sput s.que.index k ⟨pan, a, h⟩) s, 0) := by
  unfold idxInsert
  rw [hl]
  dsimp only
  rw [hk]

theorem idxInsert_full (hl : idxLookup s pan a = none) (hk : (keyPlaces pan a).find? (fun k => (sfind s.que.index k).isNone) = none) :
    idxInsert pan a h s = (s.inc QUE_CNT_IDX_FAIL.COUNT, 4) := by
  unfold idxInsert
  rw [hl]
  dsimp only
  rw [hk]

/-- A key that is inserted was looked up to its handle before, or is put in a free place of its own. -/
theorem idxInsert_done (h0 : (idxInsert pan a h s).2 = 0) :
    (idxLookup s pan a = some h ∧ (idxInsert pan a h s).1 = s) ∨
      ∃ k ∈ keyPlaces pan a, idxLookup s pan a = none ∧ sfind s.que.index k = none ∧
        (idxInsert pan a h s).1 = setIndex (sput s.que.index k ⟨pan, a, h⟩) s := by
  cases hl : idxLookup s pan a with
  | some j =>
    rw [idxInsert_found hl] at h0 ⊢
    refine .inl ⟨?_, rfl⟩
    by_cases e : j = h
    · rw [e]
    · simp [e] at h0
  | none =>
    cases hk : (keyPlaces pan a).find? (fun k => (sfind s.que.index k).isNone) with
    | some k =>
      rw [idxInsert_put hl hk]
      have free : (sfind s.que.index k).isNone = true := List.find?_some (p := fun k => (sfind s.que.index k).isNone) hk
      exact .inr ⟨k, List.mem_of_find?_eq_some hk, rfl, Option.isNone_iff_eq_none.mp free, rfl⟩
    | none =>
      rw [idxInsert_full hl hk] at h0
      exact absurd h0 (Nat.succ_ne_zero 3)

theorem indexStep_idxInsert (hs : s.inv = true) (h0 : (idxInsert pan a h s).2 = 0) : IndexStep s (idxInsert pan a h s).1 := by
  rcases idxInsert_done h0 with ⟨-, e⟩ | ⟨k, -, -, -, e⟩ <;> rw [e]
  · exact .refl hs
  · exact indexStep_setIndex hs _

/-- A key that is inserted is looked up to its handle (R182). -/
theorem idxLookup_idxInsert (h0 : (idxInsert pan a h s).2 = 0) : idxLookup (idxInsert pan a h s).1 pan a = some h := by
  rcases idxInsert_done h0 with ⟨hl, e⟩ | ⟨k, hk, hl, hfree, e⟩ <;> rw [e]
  · exact hl
  · have before : ∀ j ∈ keyPlaces pan a, placeGives s.que.index pan a j = none := by
      rw [idxLookup_eq] at hl
      exact List.findSome?_eq_none_iff.mp hl
    have place : ∀ j, placeGives (sput s.que.index k ⟨pan, a, h⟩) pan a j = if j = k then some h else placeGives s.que.index pan a j := fun j => by
      simp [placeGives_sput]
    rw [idxLookup_eq]
    refine findSome_same (fun j hj => ?_) ⟨k, hk, (place k).trans (if_pos rfl)⟩
    by_cases e : j = k
    · exact .inr ((place j).trans (if_pos e))
    · exact .inl ((place j).trans ((if_neg e).trans (before j hj)))

/-- A key that the index knows stays where it is when another is inserted. -/
theorem idxLookup_idxInsert_kept (h0 : (idxInsert pan a h s).2 = 0) {p j : Nat} {b : Addr} (hl : idxLookup s p b = some j) :
    idxLookup (idxInsert pan a h s).1 p b = some j := by
  rcases idxInsert_done h0 with ⟨-, e⟩ | ⟨k, -, hnew, hfree, e⟩ <;> rw [e]
  · exact hl
  · have other : ¬(pan = p ∧ a = b) := fun e => by
      rw [← e.1, ← e.2, hnew] at hl
      exact absurd hl (by simp)
    have place : placeGives (sput s.que.index k ⟨pan, a, h⟩) p b = placeGives s.que.index p b := funext fun i => by
      rw [placeGives_sput, if_neg other]
      split
      · next e => rw [e, placeGives, hfree]; rfl
      · rfl
    rw [idxLookup_eq] at hl ⊢
    exact (congrArg ((keyPlaces p b).findSome? ·) place).trans hl

/-- Whether a key fits depends on the index alone. -/
theorem idxInsert_of_index {t : State} (e : s.que.index = t.que.index) :
    (idxInsert pan a h s).2 = (idxInsert pan a h t).2 ∧ (idxInsert pan a h s).1.que.index = (idxInsert pan a h t).1.que.index := by
  have hlook := idxLookup_of_index e pan a
  cases hl : idxLookup t pan a with
  | some j =>
    rw [idxInsert_found hl, idxInsert_found (hlook.trans hl)]
    exact ⟨rfl, e⟩
  | none =>
    cases hk : (keyPlaces pan a).find? (fun k => (sfind t.que.index k).isNone) with
    | some k =>
      rw [idxInsert_put hl hk, idxInsert_put (hlook.trans hl) (by rw [e]; exact hk), e]
      exact ⟨rfl, rfl⟩
    | none =>
      rw [idxInsert_full hl hk, idxInsert_full (hlook.trans hl) (by rw [e]; exact hk)]
      exact ⟨rfl, e⟩

end

/-! ## Insertion of a context's keys -/

theorem idxInsertAll_nil (h pan : Nat) (s : State) : idxInsertAll h pan [] s = (s, 0) := rfl

/-- The first failure of an insertion stands. -/
theorem idxInsertAll_cons (h pan : Nat) (a : Addr) (ks : List Addr) (s : State) :
    idxInsertAll h pan (a :: ks) s =
      if (idxInsert pan a h s).2 = 0 then idxInsertAll h pan ks (idxInsert pan a h s).1 else idxInsert pan a h s := by
  have stays : ∀ (l : List Addr) (r : State × Nat), r.2 ≠ 0 → l.foldl (fun r a => if r.2 = 0 then idxInsert pan a h r.1 else r) r = r := by
    intro l
    induction l with
    | nil => exact fun _ _ => rfl
    | cons b l ih =>
      intro r hr
      rw [List.foldl_cons, if_neg hr]
      exact ih r hr
  have first : idxInsertAll h pan (a :: ks) s = ks.foldl (fun r a => if r.2 = 0 then idxInsert pan a h r.1 else r) (idxInsert pan a h s) := rfl
  rw [first]
  split
  · next h0 =>
    unfold idxInsertAll
    rw [← h0]
  · next h0 => exact stays ks _ h0

/-- Whether a context's keys fit depends on the index alone. -/
theorem idxInsertAll_of_index (h pan : Nat) : ∀ (ks : List Addr) {s t : State}, s.que.index = t.que.index →
    (idxInsertAll h pan ks s).2 = (idxInsertAll h pan ks t).2
  | [], _, _, _ => rfl
  | a :: ks, s, t, e => by
    obtain ⟨hstatus, hindex⟩ := idxInsert_of_index (pan := pan) (h := h) (a := a) e
    rw [idxInsertAll_cons, idxInsertAll_cons, hstatus]
    split
    · exact idxInsertAll_of_index h pan ks hindex
    · exact hstatus

/-- The status of the keys of a context: done, ADDR_CONFLICT or INDEX_FULL. -/
theorem idxInsertAll_status (h pan : Nat) : ∀ (ks : List Addr) (s : State), (idxInsertAll h pan ks s).2 ∈ [0, 3, 4]
  | [], _ => by simp [idxInsertAll_nil]
  | a :: ks, s => by
    rw [idxInsertAll_cons]
    split
    · exact idxInsertAll_status h pan ks _
    · unfold idxInsert
      split
      · dsimp only
        split <;> simp
      · split <;> simp

/-- The keys that fit are looked up to their handle, those known before stay, and nothing but the index and its count changes. -/
theorem idxInsertAll_done (h pan : Nat) : ∀ (ks : List Addr) {s : State}, s.inv = true → (idxInsertAll h pan ks s).2 = 0 →
    IndexStep s (idxInsertAll h pan ks s).1 ∧ (∀ a ∈ ks, idxLookup (idxInsertAll h pan ks s).1 pan a = some h) ∧
      ∀ p b j, idxLookup s p b = some j → idxLookup (idxInsertAll h pan ks s).1 p b = some j
  | [], _, hs, _ => ⟨.refl hs, fun _ ha => absurd ha List.not_mem_nil, fun _ _ _ hl => hl⟩
  | a :: ks, s, hs, h0 => by
    have one : (idxInsert pan a h s).2 = 0 := by
      rw [idxInsertAll_cons] at h0
      split at h0
      · assumption
      · exact h0
    have step := indexStep_idxInsert hs one
    rw [idxInsertAll_cons, if_pos one] at h0 ⊢
    obtain ⟨rest, hkeys, hkept⟩ := idxInsertAll_done h pan ks step.inv h0
    refine ⟨step.trans rest, fun b hb => ?_, fun p b j hl => hkept p b j (idxLookup_idxInsert_kept one hl)⟩
    rcases List.mem_cons.mp hb with rfl | hb
    · exact hkept pan b h (idxLookup_idxInsert one)
    · exact hkeys b hb

/-! ## Removal -/

theorem indexStep_idxDrop {s : State} (hs : s.inv = true) (ks : List (Nat × Addr)) : IndexStep s (idxDrop ks s) := indexStep_setIndex hs _

/-- A key that is not removed is looked up as before. -/
theorem idxLookup_idxDrop {s : State} (hd : s.que.index.Pairwise (fun a b => a.1 ≠ b.1)) {ks : List (Nat × Addr)} {pan : Nat} {a : Addr}
    (hk : (pan, a) ∉ ks) : idxLookup (idxDrop ks s) pan a = idxLookup s pan a := by
  have place : placeGives (s.que.index.filter (fun p => !ks.contains (p.2.pan, p.2.addr))) pan a = placeGives s.que.index pan a := funext fun k => by
    unfold placeGives
    cases hnew : sfind (s.que.index.filter (fun p => !ks.contains (p.2.pan, p.2.addr))) k with
    | some x =>
      rw [sfind_of_mem hd (List.mem_of_mem_filter (mem_of_sfind hnew))]
    | none =>
      cases hold : sfind s.que.index k with
      | none => rfl
      | some x =>
        have gone : ¬(x.pan = pan ∧ x.addr = a) := fun e => by
          have stays : (k, x) ∈ s.que.index.filter (fun p => !ks.contains (p.2.pan, p.2.addr)) :=
            List.mem_filter.mpr ⟨mem_of_sfind hold, by simp [e.1, e.2, hk]⟩
          rw [sfind_of_mem (hd.filter _) stays] at hnew
          exact absurd hnew (by simp)
        exact (if_neg gone).symm
  rw [idxLookup_eq, idxLookup_eq]
  exact congrArg ((keyPlaces pan a).findSome? ·) place

end Sys2Proof.Machine

/-! Contexts as the node operations write them (R177, R183, R184). -/

namespace Sys2Proof.Machine

/-! ## Lists of fields -/

section
variable {n : Nat} {f : Fld}

theorem of_lt (f : Fld) (x : BitVec n) : f.of x < 2 ^ f.w := bf_lt x f.lo f.w

/-- A field apart from those replaced reads as before. -/
theorem of_putAll_apart : ∀ (vs : List (Fld × Nat)) (x : BitVec n), (∀ p ∈ vs, p.1.lo + p.1.w ≤ n ∧ f.apart p.1) → f.of (putAll x vs) = f.of x
  | [], _, _ => rfl
  | p :: vs, x, hv => by
    obtain ⟨hfit, hapart⟩ := hv p List.mem_cons_self
    exact (of_putAll_apart vs (p.1.put x p.2) fun q hq => hv q (List.mem_cons_of_mem _ hq)).trans (of_put_apart hfit hapart x p.2)

/-- A field among those replaced, which share no bit, reads what was put into it. -/
theorem of_putAll_mem {v : Nat} : ∀ (vs : List (Fld × Nat)) (x : BitVec n), (∀ p ∈ vs, p.1.lo + p.1.w ≤ n) →
    vs.Pairwise (fun p q => p.1.apart q.1) → (f, v) ∈ vs → f.of (putAll x vs) = v % 2 ^ f.w
  | p :: vs, x, hfit, hpair, hm => by
    obtain ⟨hfirst, hrest⟩ := List.pairwise_cons.mp hpair
    have hfits := fun q hq => hfit q (List.mem_cons_of_mem p hq)
    rcases List.mem_cons.mp hm with rfl | hm
    · exact (of_putAll_apart vs (f.put x v) fun q hq => ⟨hfits q hq, hfirst q hq⟩).trans (of_put_same (hfit (f, v) List.mem_cons_self) x v)
    · exact of_putAll_mem vs (p.1.put x p.2) hfits hrest hm

theorem takeFields_eq (fs : List Fld) (src dst : BitVec 512) : takeFields fs src dst = putAll dst (fs.map fun f => (f, f.of src)) := by
  unfold takeFields putAll
  rw [List.foldl_map]

theorem zeroFields_eq (fs : List Fld) (x : BitVec 512) : zeroFields fs x = putAll x (fs.map fun f => (f, 0)) := by
  unfold zeroFields putAll
  rw [List.foldl_map]

variable {fs : List Fld}

theorem of_takeFields_apart (src dst : BitVec 512) (h : ∀ g ∈ fs, g.lo + g.w ≤ 512 ∧ f.apart g) : f.of (takeFields fs src dst) = f.of dst := by
  rw [takeFields_eq]
  refine of_putAll_apart _ dst fun p hp => ?_
  obtain ⟨g, hg, rfl⟩ := List.mem_map.mp hp
  exact h g hg

theorem of_zeroFields_apart (x : BitVec 512) (h : ∀ g ∈ fs, g.lo + g.w ≤ 512 ∧ f.apart g) : f.of (zeroFields fs x) = f.of x := by
  rw [zeroFields_eq]
  refine of_putAll_apart _ x fun p hp => ?_
  obtain ⟨g, hg, rfl⟩ := List.mem_map.mp hp
  exact h g hg

/-- The fields of a list lie in a context and share no bit. -/
abbrev separate (fs : List Fld) : Prop := (∀ g ∈ fs, g.lo + g.w ≤ 512) ∧ fs.Pairwise Fld.apart

theorem of_takeFields_mem (hs : separate fs) (hf : f ∈ fs) (src dst : BitVec 512) : f.of (takeFields fs src dst) = f.of src := by
  rw [takeFields_eq]
  refine (of_putAll_mem _ dst (fun p hp => ?_) (List.pairwise_map.mpr hs.2) (List.mem_map.mpr ⟨f, hf, rfl⟩)).trans (Nat.mod_eq_of_lt (of_lt f src))
  obtain ⟨g, hg, rfl⟩ := List.mem_map.mp hp
  exact hs.1 g hg

theorem of_zeroFields_mem (hs : separate fs) (hf : f ∈ fs) (x : BitVec 512) : f.of (zeroFields fs x) = 0 := by
  rw [zeroFields_eq]
  refine (of_putAll_mem _ x (fun p hp => ?_) (List.pairwise_map.mpr hs.2) (List.mem_map.mpr ⟨f, hf, rfl⟩)).trans (Nat.zero_mod _)
  obtain ⟨g, hg, rfl⟩ := List.mem_map.mp hp
  exact hs.1 g hg

end

/-! ## The fields an operation supplies -/

theorem separate_all : separate (NC.host ++ NC.commit) := by decide +kernel

theorem separate_host : separate NC.host := by decide +kernel

theorem host_apart_commit : ∀ g ∈ NC.commit, ∀ f ∈ NC.host, f.lo + f.w ≤ 512 ∧ g.apart f := by decide +kernel

theorem host_apart_resets : ∀ g ∈ NC.host, ∀ f ∈ [NC.RX_FC, NC.SEQ_VALID] ++ NC.drift, f.lo + f.w ≤ 512 ∧ g.apart f := by decide +kernel

/-- The fields that ADD and UPDATE supply: the host's, and on IMPORT the commit's too (R183). -/
def supplied (imp : Bool) : List Fld := NC.host ++ if imp then NC.commit else []

theorem separate_supplied : ∀ imp, separate (supplied imp)
  | true => separate_all
  | false => separate_host

theorem of_supplied_host {g : Fld} (hg : g ∈ NC.host) (imp : Bool) (x old : BitVec 512) : g.of (takeFields (supplied imp) x old) = g.of x :=
  of_takeFields_mem (separate_supplied imp) (List.mem_append_left _ hg) x old

theorem of_supplied_commit {g : Fld} (hg : g ∈ NC.commit) (x old : BitVec 512) :
    ∀ imp, g.of (takeFields (supplied imp) x old) = if imp then g.of x else g.of old
  | true => of_takeFields_mem (separate_supplied true) (List.mem_append_right _ hg) x old
  | false => of_takeFields_apart x old (host_apart_commit g hg)

/-! ## The context ADD makes -/

/-- The fields of a context that an empty queue sets. -/
def emptyFlds : List Fld := [NC.QLEN, NC.HEAD, NC.QOVR, NC.TAIL 0, NC.TAIL 1, NC.TAIL 2, NC.TAIL 3]

theorem of_emptyQueue_apart {f : Fld} (hf : ∀ g ∈ emptyFlds, g.lo + g.w ≤ 512 ∧ f.apart g) (x : BitVec 512) : f.of (emptyQueue x) = f.of x := by
  refine of_putAll_apart _ x fun p hp => hf p.1 ?_
  have flds : emptyFlds = ([(NC.QLEN, 0), (NC.HEAD, noCell), (NC.QOVR, 0), (NC.TAIL 0, noCell), (NC.TAIL 1, noCell), (NC.TAIL 2, noCell),
    (NC.TAIL 3, noCell)] : List (Fld × Nat)).map (·.1) := rfl
  exact flds ▸ List.mem_map_of_mem hp

theorem of_emptyQueue (x : BitVec 512) :
    NC.QLEN.of (emptyQueue x) = 0 ∧ NC.HEAD.of (emptyQueue x) = 0xFFFFF := by
  unfold emptyQueue
  exact ⟨of_putAll_mem _ x (by decide) (by decide) (v := 0) (by decide), of_putAll_mem _ x (by decide) (by decide) (v := noCell) (by decide)⟩

/-- The context ADD makes of the supplied one (R183). -/
def addedCtx (imp : Bool) (x : BitVec 512) : BitVec 512 := NC.VALID.put (emptyQueue (takeFields (supplied imp) x 0)) 1

theorem addedCtx_valid (imp : Bool) (x : BitVec 512) : NC.VALID.of (addedCtx imp x) = 1 := of_put_same (by decide) _ 1

/-- A field apart from VALID and from the queue's holds what was supplied. -/
theorem of_addedCtx {f : Fld} (hv : f.apart NC.VALID) (hf : ∀ g ∈ emptyFlds, g.lo + g.w ≤ 512 ∧ f.apart g) (imp : Bool) (x : BitVec 512) :
    f.of (addedCtx imp x) = f.of (takeFields (supplied imp) x 0) :=
  (of_put_apart (by decide) hv _ 1).trans (of_emptyQueue_apart hf _)

theorem host_apart_empty : ∀ f ∈ NC.host, f.apart NC.VALID ∧ ∀ g ∈ emptyFlds, g.lo + g.w ≤ 512 ∧ f.apart g := by decide +kernel

theorem commit_apart_empty : ∀ f ∈ NC.commit, f.apart NC.VALID ∧ ∀ g ∈ emptyFlds, g.lo + g.w ≤ 512 ∧ f.apart g := by decide +kernel

theorem addedCtx_host {g : Fld} (hg : g ∈ NC.host) (imp : Bool) (x : BitVec 512) : g.of (addedCtx imp x) = g.of x :=
  (of_addedCtx (host_apart_empty g hg).1 (host_apart_empty g hg).2 imp x).trans (of_supplied_host hg imp x 0)

theorem addedCtx_commit {g : Fld} (hg : g ∈ NC.commit) (imp : Bool) (x : BitVec 512) : g.of (addedCtx imp x) = if imp then g.of x else 0 := by
  rw [of_addedCtx (commit_apart_empty g hg).1 (commit_apart_empty g hg).2 imp x, of_supplied_commit hg x 0 imp, of_zero]

theorem addedCtx_queue (imp : Bool) (x : BitVec 512) : NC.QLEN.of (addedCtx imp x) = 0 ∧ NC.HEAD.of (addedCtx imp x) = 0xFFFFF :=
  ⟨(of_put_apart (by decide) (by decide) _ 1).trans (of_emptyQueue _).1, (of_put_apart (by decide) (by decide) _ 1).trans (of_emptyQueue _).2⟩

/-! ## The context UPDATE leaves -/

/-- A context with what RESET_DUP clears, where it is to be cleared (R184). -/
def dupReset (b : Bool) (x : BitVec 512) : BitVec 512 := if b then zeroFields [NC.RX_FC, NC.SEQ_VALID] x else x

/-- A context with its drift fields cleared, where they are to be cleared (R184). -/
def driftReset (b : Bool) (x : BitVec 512) : BitVec 512 := if b then zeroFields NC.drift x else x

theorem updatedCtx_eq (imp dup drift : Bool) (old x : BitVec 512) :
    updatedCtx imp dup drift old x =
      driftReset (drift || NC.CLASS.of x != NC.CLASS.of old)
        (dupReset (dup || NC.KEY_SLOT.of x != NC.KEY_SLOT.of old) (takeFields (supplied imp) x old)) := rfl

theorem of_dupReset_apart {f : Fld} (hf : ∀ g ∈ [NC.RX_FC, NC.SEQ_VALID], g.lo + g.w ≤ 512 ∧ f.apart g) (x : BitVec 512) :
    ∀ b, f.of (dupReset b x) = f.of x
  | true => of_zeroFields_apart x hf
  | false => rfl

theorem of_driftReset_apart {f : Fld} (hf : ∀ g ∈ NC.drift, g.lo + g.w ≤ 512 ∧ f.apart g) (x : BitVec 512) : ∀ b, f.of (driftReset b x) = f.of x
  | true => of_zeroFields_apart x hf
  | false => rfl

theorem updatedCtx_host {g : Fld} (hg : g ∈ NC.host) (imp dup drift : Bool) (old x : BitVec 512) : g.of (updatedCtx imp dup drift old x) = g.of x := by
  have apart := host_apart_resets g hg
  rw [updatedCtx_eq, of_driftReset_apart (fun k hk => apart k (List.mem_append_right _ hk)),
    of_dupReset_apart (fun k hk => apart k (List.mem_append_left _ hk))]
  exact of_supplied_host hg imp x old

theorem dup_apart_drift : ∀ f ∈ [NC.RX_FC, NC.SEQ_VALID, NC.LAST_SEQ], ∀ g ∈ NC.drift, g.lo + g.w ≤ 512 ∧ f.apart g := by decide +kernel

/-- RESET_DUP and a new key slot clear what a replay is known by (R184). -/
theorem updatedCtx_dup {dup : Bool} {old x : BitVec 512} (h : dup = true ∨ NC.KEY_SLOT.of x ≠ NC.KEY_SLOT.of old) (imp drift : Bool) :
    NC.RX_FC.of (updatedCtx imp dup drift old x) = 0 ∧ NC.SEQ_VALID.of (updatedCtx imp dup drift old x) = 0 := by
  have cleared : (dup || NC.KEY_SLOT.of x != NC.KEY_SLOT.of old) = true := by
    rw [Bool.or_eq_true, bne_iff_ne]
    exact h
  have zero : ∀ f ∈ [NC.RX_FC, NC.SEQ_VALID], f ∈ [NC.RX_FC, NC.SEQ_VALID, NC.LAST_SEQ] → f.of (updatedCtx imp dup drift old x) = 0 := fun f hf hm => by
    rw [updatedCtx_eq, of_driftReset_apart (dup_apart_drift f hm), cleared, dupReset, if_pos rfl,
      of_zeroFields_mem (by decide) hf]
  exact ⟨zero _ (by decide) (by decide), zero _ (by decide) (by decide)⟩

/-- Without IMPORT, RESET_DUP and a new key slot, what a replay is known by stays (R184). -/
theorem updatedCtx_keeps {old x : BitVec 512} (h : NC.KEY_SLOT.of x = NC.KEY_SLOT.of old) (drift : Bool) :
    NC.RX_FC.of (updatedCtx false false drift old x) = NC.RX_FC.of old ∧ NC.LAST_SEQ.of (updatedCtx false false drift old x) = NC.LAST_SEQ.of old := by
  have kept : (false || NC.KEY_SLOT.of x != NC.KEY_SLOT.of old) = false := by rw [Bool.false_or, h, bne_self_eq_false]
  have same : ∀ f ∈ [NC.RX_FC, NC.SEQ_VALID, NC.LAST_SEQ], f ∈ NC.commit → f.of (updatedCtx false false drift old x) = f.of old := fun f hf hc => by
    rw [updatedCtx_eq, of_driftReset_apart (dup_apart_drift f hf), kept, dupReset, if_neg Bool.false_ne_true, of_supplied_commit hc,
      if_neg Bool.false_ne_true]
  exact ⟨same _ (by decide) (by decide), same _ (by decide) (by decide)⟩

/-- RESET_DRIFT and a new class clear the drift fields (R184). -/
theorem updatedCtx_drift {drift : Bool} {old x : BitVec 512} (h : drift = true ∨ NC.CLASS.of x ≠ NC.CLASS.of old) (imp dup : Bool) {g : Fld}
    (hg : g ∈ NC.drift) : g.of (updatedCtx imp dup drift old x) = 0 := by
  have cleared : (drift || NC.CLASS.of x != NC.CLASS.of old) = true := by
    rw [Bool.or_eq_true, bne_iff_ne]
    exact h
  rw [updatedCtx_eq, cleared, driftReset, if_pos rfl, of_zeroFields_mem (by decide +kernel) hg]

end Sys2Proof.Machine

/-! The owner's node operations through QUE_NCMD (R182-R186, R197). -/

namespace Sys2Proof.Machine

/-! ## Steps of the registers and the fabric -/

/-- Two states differ at most in registers and in the queue fabric. -/
abbrev regsQue (s t : State) : Prop := t = { s with regs := t.regs, que := t.que }

theorem regsQue_trans {s t u : State} (a : regsQue s t) (b : regsQue t u) : regsQue s u := b.trans (by rw [a])

theorem regsQue_of_onlyRegs {s t : State} {as : List Nat} (a : onlyRegs s t as) : regsQue s t := by
  have hq : t.que = s.que := by rw [a.1]
  unfold regsQue
  rw [hq]
  exact a.1

theorem IndexStep.regsQue {s t : State} (a : IndexStep s t) : regsQue s t := by
  unfold Machine.regsQue
  rw [a.que]
  exact a.frame

theorem setNode_regsQue (s : State) (h : Nat) (n : Node) : regsQue s (s.setNode h n) := rfl

/-! ## The operation word -/

theorem of_opWord {f : Fld} (hf : f.apart NW.OP) (v : Word) (op : Nat) : f.of (NW.OP.put v op) = f.of v := of_put_apart (by decide) hf v op

/-- A one-bit field compared with one gives back its value. -/
theorem flag_value {n : Nat} {f : Fld} (hw : f.w = 1) (x : BitVec n) : (if f.of x == 1 then 1 else 0) = f.of x := by
  have := of_lt f x
  rw [hw] at this
  split
  · next e => exact (beq_iff_eq.mp e).symm
  · next e =>
    rw [beq_iff_eq] at e
    omega

section
variable (v : Word) (x : BitVec 512) (w : PruneFor) (s : State)

theorem nodeOp_add : nodeOp 1 (NW.OP.put v 1) x w s = nodeAdd (NW.HANDLE.of v) (NW.IMPORT.of v == 1) x s := by
  rw [nodeOp, of_opWord (by decide), of_opWord (by decide)]

theorem nodeOp_update : nodeOp 2 (NW.OP.put v 2) x w s =
    nodeUpdate (NW.HANDLE.of v) (NW.IMPORT.of v == 1) (NW.RESET_DUP.of v == 1) (NW.RESET_DRIFT.of v == 1) x s := by
  rw [nodeOp, of_opWord (by decide), of_opWord (by decide), of_opWord (by decide), of_opWord (by decide)]

theorem nodeOp_prune : nodeOp 3 (NW.OP.put v 3) x w s = nodePrune (NW.HANDLE.of v) w s := by rw [nodeOp, of_opWord (by decide)]

theorem nodeOp_read : nodeOp 4 (NW.OP.put v 4) x w s = nodeRead (NW.HANDLE.of v) s := by rw [nodeOp, of_opWord (by decide)]

theorem nodeOp_qset : nodeOp 5 (NW.OP.put v 5) x w s = nodeQset (NW.HANDLE.of v) (NW.QHOLD_VAL.of v == 1) (NW.CLR_OVR.of v == 1) s := by
  have run : nodeOp 5 (NW.OP.put v 5) x w s =
      nodeQset (NW.HANDLE.of (NW.OP.put v 5)) (NW.QHOLD_VAL.of (NW.OP.put v 5) == 1) (NW.CLR_OVR.of (NW.OP.put v 5) == 1) s := rfl
  rw [run, of_opWord (by decide), of_opWord (by decide), of_opWord (by decide)]

end

/-! ## The write of QUE_NCMD -/

/-- The state with a word in QUE_NCMD. -/
def worded (w : Word) (s : State) : State := s.setReg QUE_NCMD.reg w

theorem setReg_frame (s : State) (a : Nat) (w : Word) : s.setReg a w = { s with regs := (s.setReg a w).regs, que := (s.setReg a w).que } := rfl

theorem regWrite_setsReg (s : State) (a : Nat) (v : Word) : ∃ w, s.regWrite a v = s.setReg a w := ⟨_, rfl⟩

section
variable {s : State} (hs : s.inv = true) (w : Word)
include hs

theorem inv_worded : (worded w s).inv = true := inv_setReg hs _ _

theorem worded_reg {a : Nat} (ha : a ≠ QUE_NCMD.reg) : (worded w s).reg a = s.reg a := reg_setReg_other s _ a _ ha (inv_regs hs)

omit hs in
theorem worded_frame : regsQue s (worded w s) := by
  unfold worded
  exact setReg_frame s _ w

omit hs in
theorem worded_que : (worded w s).que = s.que := setReg_que _ _ _

omit hs in
theorem worded_node (h : Nat) : (worded w s).node h = s.node h := node_of_que (worded_que w) h

theorem worded_ndata : ndata (worded w s) = ndata s := by
  have word : ∀ j, (worded w s).reg (QUE_NDATA.reg j) = s.reg (QUE_NDATA.reg j) := fun j => worded_reg hs w (by
    unfold QUE_NDATA.reg QUE_NCMD.reg
    omega)
  unfold ndata
  simp only [word]

/-- What an operation judges of its supplied fields does not look at QUE_NCMD. -/
theorem worded_badField (h : Nat) (imp : Bool) (x : BitVec 512) : badField (worded w s) h imp x = badField s h imp x := by
  have pan : QUE_NCMD.reg ≠ LNK_PAN_CFG.reg (NC.PAN.of x) := by
    have : NC.PAN.of x < 64 := of_lt NC.PAN x
    unfold QUE_NCMD.reg LNK_PAN_CFG.reg
    omega
  have chain : QUE_NCMD.reg ≠ TXC_CH_CTRL.reg (NC.CHAIN.of x) := by
    have : NC.CHAIN.of x < 8 := of_lt NC.CHAIN x
    unfold QUE_NCMD.reg TXC_CH_CTRL.reg
    omega
  have hmap : QUE_NCMD.reg ≠ PRT_HMAP.reg (h / 256) := by
    unfold QUE_NCMD.reg PRT_HMAP.reg
    omega
  have kmap : QUE_NCMD.reg ≠ PRT_KMAP.reg (NC.KEY_SLOT.of x / 256) := by
    unfold QUE_NCMD.reg PRT_KMAP.reg
    omega
  have rd : ∀ g : RegFld, QUE_NCMD.reg ≠ g.addr → (worded w s).rd g = s.rd g := fun g hg => rd_of_reg (worded_reg hs w hg.symm)
  unfold badField State.on State.handleOwner State.slotOwner State.ownerAt
  dsimp only
  rw [rd (LNK_PAN_CFG.EN _) pan, rd (LNK_PAN_CFG.PART _) pan, rd (TXC_CH_CTRL.EN _) chain, worded_reg hs w hmap.symm, worded_reg hs w kmap.symm]

end

/-! ## Answers -/

/-- The state with a result in QUE_NRES and BUSY clear. -/
def resulted (w : Word) (u : State) : State := (u.wr QUE_NCMD.BUSY 0).setReg QUE_NRES.reg w

section
variable {u : State} (hu : u.inv = true) (w : Word)
include hu

theorem inv_resulted : (resulted w u).inv = true := inv_setReg (inv_wr hu _ _) _ _

theorem resulted_reg {a : Nat} (hc : a ≠ QUE_NCMD.reg) (hn : a ≠ QUE_NRES.reg) : (resulted w u).reg a = u.reg a := by
  rw [resulted, reg_setReg_other _ _ _ _ hn (inv_regs (inv_wr hu _ _)), reg_wr_other _ _ _ _ hc hu]

theorem resulted_done : (resulted w u).reg QUE_NRES.reg = w ∧ (resulted w u).on QUE_NCMD.BUSY = false := by
  have h1 := inv_wr hu QUE_NCMD.BUSY 0
  have busy : (resulted w u).reg QUE_NCMD.reg = (u.wr QUE_NCMD.BUSY 0).reg QUE_NCMD.reg := by
    rw [resulted, reg_setReg_other _ _ _ _ (by decide) (inv_regs h1)]
  refine ⟨by rw [resulted, reg_setReg_same _ _ _ (inv_regs h1)], ?_⟩
  rw [State.on, rd_of_reg (f := QUE_NCMD.BUSY) busy, rd_wr_fits hu (by decide) (by decide)]
  rfl

omit hu in
theorem resulted_que : (resulted w u).que = u.que := by rw [resulted, setReg_que, wr_que]

end

/-- The state with no word in QUE_NCMD that waits. -/
def unwaiting (u : State) : State := { u with que := { u.que with ncmd := none } }

theorem inv_unwaiting {u : State} (hu : u.inv = true) : (unwaiting u).inv = true := hu

theorem unwaiting_reg (u : State) (a : Nat) : (unwaiting u).reg a = u.reg a := rfl

/-- The state with an operation's result in QUE_NRES, and QUE_NCMD ready for the next. -/
def answered (w : Word) (u : State) : State := resulted w (unwaiting u)

section
variable {u : State} (hu : u.inv = true) (w : Word)
include hu

theorem inv_answered : (answered w u).inv = true := inv_resulted (inv_unwaiting hu) w

theorem answered_reg {a : Nat} (hc : a ≠ QUE_NCMD.reg) (hn : a ≠ QUE_NRES.reg) : (answered w u).reg a = u.reg a :=
  (resulted_reg (inv_unwaiting hu) w hc hn).trans (unwaiting_reg u a)

/-- An answer shows the result and that the block is not busy. -/
theorem answered_done : (answered w u).reg QUE_NRES.reg = w ∧ (answered w u).on QUE_NCMD.BUSY = false := resulted_done (inv_unwaiting hu) w

end

theorem answer_frame (u : State) (f : RegFld) (a : Nat) (w : Word) :
    ((unwaiting u).wr f 0).setReg a w = { u with regs := (((unwaiting u).wr f 0).setReg a w).regs, que := { u.que with ncmd := none } } := rfl

theorem answered_frame (w : Word) (u : State) :
    answered w u = { u with regs := (answered w u).regs, que := { u.que with ncmd := none } } := answer_frame u _ _ w

theorem answered_que (w : Word) (u : State) : (answered w u).que = { u.que with ncmd := none } := congrArg State.que (answered_frame w u)

theorem answered_node (w : Word) (u : State) (h : Nat) : (answered w u).node h = u.node h := by
  unfold State.node
  rw [answered_que]

theorem frame_trans {s u t : State} {q : Que} (ht : t = { u with regs := t.regs, que := q }) (hu : regsQue s u) :
    t = { { s with que := t.que } with regs := t.regs } := by
  have hq : t.que = q := congrArg State.que ht
  rw [hq]
  refine ht.trans ?_
  rw [hu]

theorem onlyRegs_of_frame {s t : State} {as : List Nat} (frame : t = { { s with que := t.que } with regs := t.regs })
    (only : ∀ a, a ∉ as → t.reg a = s.reg a) : onlyRegs { s with que := t.que } t as := ⟨frame, only⟩

/-- An operation that changes the fabric's tables and the registers listed, and its answer, change nothing else. -/
theorem answered_onlyRegs {s u : State} (hs : s.inv = true) (hu : u.inv = true) (w w0 : Word) {as : List Nat}
    (hframe : regsQue s u) (hreg : ∀ a, a ∉ as → u.reg a = (worded w0 s).reg a) :
    onlyRegs { s with que := (answered w u).que } (answered w u) (QUE_NCMD.reg :: QUE_NRES.reg :: as) := by
  refine onlyRegs_of_frame (frame_trans (answered_frame w u) hframe) fun a ha => ?_
  simp only [List.mem_cons, not_or] at ha
  obtain ⟨hc, hn, ha⟩ := ha
  exact (answered_reg hu w hc hn).trans ((hreg a ha).trans (worded_reg hs w0 hc))

/-! ## The commands -/

/-- The command of each operation code. -/
def nodeCommands (f : Fn) (v : Word) : List (Nat × Instr) :=
  [(1, .nodeOpAdd f v), (2, .nodeOpUpdate f v), (3, .nodeOpPrune f v), (4, .nodeOpRead f v), (5, .nodeOpQset f v)]

theorem exec_nodeCommand {s : State} {f : Fn} (hr : reaches s f QUE_NCMD.reg) {v : Word} {op : Nat} {c : Instr} (hc : (op, c) ∈ nodeCommands f v) :
    exec c s = .next (ncmd op v s) := by
  unfold nodeCommands at hc
  simp only [List.mem_cons, List.not_mem_nil, or_false, Prod.mk.injEq] at hc
  obtain ⟨rfl, rfl⟩ | ⟨rfl, rfl⟩ | ⟨rfl, rfl⟩ | ⟨rfl, rfl⟩ | ⟨rfl, rfl⟩ := hc <;>
    exact congrArg Host.Outcome.next (p0Only_reaches hr _)

/-- The state with the flag f set, in which QUE_NCMD holds the given word, or none, for later. -/
def busied (f : RegFld) (v : Option Word) (u : State) : State := { u.wr f 1 with que := { u.que with ncmd := v } }

section
variable {u : State} {f : RegFld} (v : Option Word)

theorem busied_que : (busied f v u).que = { u.que with ncmd := v } := rfl

theorem busied_reg (a : Nat) : (busied f v u).reg a = (u.wr f 1).reg a := rfl

theorem busied_frame : busied f v u = { u with regs := (busied f v u).regs, que := { u.que with ncmd := v } } := rfl

variable (hu : u.inv = true)
include hu

theorem busied_on (hf : f.lo + f.w ≤ 32) (h1 : 1 < 2 ^ f.w) : (busied f v u).on f = true := by
  rw [State.on, rd_of_reg (busied_reg v f.addr), rd_wr_fits hu hf h1]
  rfl

theorem busied_reg_other {a : Nat} (ha : a ≠ f.addr) : (busied f v u).reg a = u.reg a := (busied_reg v a).trans (reg_wr_other _ f 1 a ha hu)

end

section
variable {s : State} {op : Nat} {v : Word}

theorem ncmd_waits (hb : s.on QUE_NCMD.BUSY = false) (hw : ncmdWaits s (NW.HANDLE.of v) = true) :
    ∃ w, ncmd op v s = busied QUE_NCMD.BUSY (some (NW.OP.put v op)) (worded w s) := by
  obtain ⟨w, e⟩ := regWrite_setsReg s QUE_NCMD.reg (NW.OP.put v op)
  refine ⟨w, ?_⟩
  unfold ncmd
  dsimp only
  rw [of_opWord (by decide), hb, hw, e, if_neg Bool.false_ne_true, if_pos rfl]
  rfl

theorem ncmd_runs (hb : s.on QUE_NCMD.BUSY = false) (hw : ncmdWaits s (NW.HANDLE.of v) = false) :
    ∃ w, ncmd op v s = ncmdRun op (NW.OP.put v op) (worded w s) := by
  obtain ⟨w, e⟩ := regWrite_setsReg s QUE_NCMD.reg (NW.OP.put v op)
  refine ⟨w, ?_⟩
  unfold ncmd
  dsimp only
  rw [of_opWord (by decide), hb, hw, e, if_neg Bool.false_ne_true, if_neg Bool.false_ne_true]
  rfl

/-- Another word that is written while one waits is ignored (R197). -/
theorem ncmd_ignored (hb : s.on QUE_NCMD.BUSY = true) (hn : s.que.ncmd ≠ some (NW.OP.put v op)) : ncmd op v s = s := by
  unfold ncmd
  dsimp only
  rw [hb, if_pos rfl, if_neg fun e => hn e.1]

end

/-- An operation ends at once with its answer, but for a PRUNE that has begun and a READ. -/
theorem ncmdRun_answers {op : Nat} {v : Word} {s : State} (h : op ≠ 3 ∧ op ≠ 4 ∨ (nodeOp op v (ndata s) .reg s).2 ≠ 0) :
    ncmdRun op v s =
      answered (nresWord (nodeOp op v (ndata s) .reg s).1 (NW.HANDLE.of v) op (nodeOp op v (ndata s) .reg s).2) (nodeOp op v (ndata s) .reg s).1 := by
  unfold ncmdRun
  dsimp only
  rw [if_neg (fun e => h.elim (fun n => n.1 e.1) (fun n => n e.2)), if_neg (fun e => h.elim (fun n => n.2 e.1) (fun n => n e.2))]
  rfl

theorem nresWord_plain {op : Nat} (ho : op ≠ 4) (s : State) (h status : Nat) : nresWord s h op status = BitVec.ofNat 32 status := if_neg ho

/-- A register stays in reach while only the fabric and registers other than TOP_START_STS change. -/
theorem reaches_of {s t : State} {f : Fn} {a : Nat} (frame : t = { { s with que := t.que } with regs := t.regs })
    (hg : t.reg TOP_START_STS.SEEDLING.addr = s.reg TOP_START_STS.SEEDLING.addr) (hr : reaches s f a) : reaches t f a := by
  obtain ⟨mode, here, tag, shown⟩ := hr
  refine ⟨?_, ?_, tag, ?_⟩
  · rw [frame]
    exact mode
  · rw [frame]
    exact here
  · unfold State.hidden State.on at shown ⊢
    rw [rd_of_reg hg]
    exact shown

section
variable {s : State} {f : Fn} {v : Word} (hs : s.inv = true) (hr : reaches s f QUE_NCMD.reg) (hb : s.on QUE_NCMD.BUSY = false)
include hs hr hb

/-- A node that must wait keeps the word with BUSY set, and another word is ignored meanwhile (R185, R211). -/
theorem nodeCommand_waits {op : Nat} {c : Instr} (hc : (op, c) ∈ nodeCommands f v) (hw : ncmdWaits s (NW.HANDLE.of v) = true) :
    ∃ t, exec c s = .next t ∧ t.on QUE_NCMD.BUSY = true ∧ t.que = { s.que with ncmd := some (NW.OP.put v op) } ∧
      onlyRegs { s with que := t.que } t [QUE_NCMD.reg] ∧ ∀ v', NW.OP.put v' 1 ≠ NW.OP.put v op → exec (.nodeOpAdd f v') t = .next t := by
  obtain ⟨w, e⟩ := ncmd_waits (op := op) hb hw
  have hinv := inv_worded hs w
  have hq : (busied QUE_NCMD.BUSY (some (NW.OP.put v op)) (worded w s)).que = { s.que with ncmd := some (NW.OP.put v op) } := by rw [busied_que, worded_que]
  have only : ∀ a, a ∉ [QUE_NCMD.reg] → (busied QUE_NCMD.BUSY (some (NW.OP.put v op)) (worded w s)).reg a = s.reg a := fun a ha => by
    have hne : a ≠ QUE_NCMD.reg := List.ne_of_not_mem_cons ha
    exact (busied_reg_other (some (NW.OP.put v op)) hinv hne).trans (worded_reg hs w hne)
  have frame := frame_trans (busied_frame (u := worded w s) (f := QUE_NCMD.BUSY) (some (NW.OP.put v op))) (s := s) (worded_frame w)
  have busy := busied_on (f := QUE_NCMD.BUSY) (some (NW.OP.put v op)) hinv (by decide) (by decide)
  generalize busied QUE_NCMD.BUSY (some (NW.OP.put v op)) (worded w s) = t at e hq only frame busy
  have near : reaches t f QUE_NCMD.reg :=
    reaches_of frame (only _ (by decide)) hr
  refine ⟨t, (exec_nodeCommand hr hc).trans (congrArg Host.Outcome.next e), busy, hq, onlyRegs_of_frame frame only, fun v' hv => ?_⟩
  rw [exec_nodeCommand near (v := v') (op := 1) List.mem_cons_self,
    ncmd_ignored busy fun e => hv (by rw [hq] at e; exact (Option.some.inj e).symm)]

variable (hw : ncmdWaits s (NW.HANDLE.of v) = false)
include hw

omit hs in
theorem exec_nodeCommand_runs {op : Nat} {c : Instr} (hc : (op, c) ∈ nodeCommands f v) :
    ∃ w, exec c s = .next (ncmdRun op (NW.OP.put v op) (worded w s)) := by
  obtain ⟨w, e⟩ := ncmd_runs (op := op) hb hw
  exact ⟨w, (exec_nodeCommand hr hc).trans (congrArg Host.Outcome.next e)⟩

/-- A command of an operation that ends at once. -/
theorem exec_nodeCommand_answers {op k : Nat} {c : Instr} {g : Word → State} (hc : (op, c) ∈ nodeCommands f v)
    (hop : ∀ w, nodeOp op (NW.OP.put v op) (ndata s) .reg (worded w s) = (g w, k)) (hk : op ≠ 3 ∧ op ≠ 4 ∨ k ≠ 0) :
    ∃ w, exec c s = .next (answered (nresWord (g w) (NW.HANDLE.of v) op k) (g w)) := by
  obtain ⟨w, e⟩ := exec_nodeCommand_runs hr hb hw hc
  have hop := hop w
  rw [← worded_ndata hs w] at hop
  refine ⟨w, e.trans ?_⟩
  rw [ncmdRun_answers (hk.imp_right fun n => by rw [hop]; exact n), hop, of_opWord (by decide)]

/-- An operation that changes the fabric's tables and the registers listed answers with its status. -/
theorem nodeCommand_changes {op k : Nat} {c : Instr} {g : Word → State} (hc : (op, c) ∈ nodeCommands f v)
    (hop : ∀ w, nodeOp op (NW.OP.put v op) (ndata s) .reg (worded w s) = (g w, k)) (hk : op ≠ 3 ∧ op ≠ 4 ∨ k ≠ 0)
    (hu : ∀ w, (g w).inv = true) {as : List Nat} (frame : ∀ w, regsQue (worded w s) (g w)) (only : ∀ w a, a ∉ as → (g w).reg a = (worded w s).reg a) :
    ∃ w t, exec c s = .next t ∧ (t.reg QUE_NRES.reg = nresWord (g w) (NW.HANDLE.of v) op k ∧ t.on QUE_NCMD.BUSY = false) ∧
      t.que = { (g w).que with ncmd := none } ∧ onlyRegs { s with que := t.que } t (QUE_NCMD.reg :: QUE_NRES.reg :: as) := by
  obtain ⟨w, e⟩ := exec_nodeCommand_answers hs hr hb hw hc hop hk
  exact ⟨w, _, e, answered_done (hu w) _, answered_que _ _, answered_onlyRegs hs (hu w) _ w (regsQue_trans (worded_frame w) (frame w)) (only w)⟩

/-- An operation that changes no table answers with its status alone. -/
theorem nodeCommand_refuses {op k : Nat} {c : Instr} {g : Word → State} (hc : (op, c) ∈ nodeCommands f v)
    (hop : ∀ w, nodeOp op (NW.OP.put v op) (ndata s) .reg (worded w s) = (g w, k)) (hk : op ≠ 3 ∧ op ≠ 4 ∨ k ≠ 0)
    (hu : ∀ w, (g w).inv = true) {as : List Nat} (only : ∀ w, onlyRegs (worded w s) (g w) as) :
    ∃ t, exec c s = .next t ∧ (t.reg QUE_NRES.reg = nresWord s (NW.HANDLE.of v) op k ∧ t.on QUE_NCMD.BUSY = false) ∧
      t.que = { s.que with ncmd := none } ∧ onlyRegs { s with que := t.que } t (QUE_NCMD.reg :: QUE_NRES.reg :: as) := by
  obtain ⟨w, t, e, done, que, rest⟩ := nodeCommand_changes hs hr hb hw hc hop hk hu (fun w => regsQue_of_onlyRegs (only w)) (fun w => (only w).2)
  have hq : (g w).que = s.que := (congrArg State.que (only w).1).trans (worded_que w)
  have hres : nresWord (g w) (NW.HANDLE.of v) op k = nresWord s (NW.HANDLE.of v) op k := by
    unfold nresWord
    rw [node_of_que hq]
  rw [hres] at done
  rw [hq] at que
  exact ⟨t, e, done, que, rest⟩

end

end Sys2Proof.Machine

/-! ADD, READ and QSET (R183). -/

namespace Sys2Proof.Machine

section
variable (s : State) (h : Nat)

theorem sset_of_ne {α : Type} [DecidableEq α] {d : Nat → α} {k : Nat} {x : α} (hx : x ≠ d k) (m : Sparse α) : sset d m k x = sput m k x :=
  if_neg hx

theorem setNode_nodes {n : Node} (hn : n ≠ {}) : (s.setNode h n).que.nodes = sput s.que.nodes h ((s.setNode h n).node h) := by
  rw [node_setNode_same hn]
  exact sset_of_ne (d := fun _ => ({} : Node)) hn _

theorem setNode_index (n : Node) : (s.setNode h n).que.index = s.que.index := rfl

theorem setNode_reg (n : Node) (a : Nat) : (s.setNode h n).reg a = s.reg a := rfl

/-- Dropping the word of QUE_NCMD leaves the contexts and the index. -/
theorem tables_of_que {t u : State} (e : t.que = { u.que with ncmd := none }) :
    t.que.nodes = u.que.nodes ∧ t.que.index = u.que.index ∧ t.que.prunes = u.que.prunes := by
  rw [e]
  exact ⟨rfl, rfl, rfl⟩

theorem node_of_nodes {t u : State} (e : t.que.nodes = u.que.nodes) (h : Nat) : t.node h = u.node h := by
  unfold State.node
  rw [e]

theorem inv_setNode {s : State} (hs : s.inv = true) (h : Nat) (n : Node) : (s.setNode h n).inv = true := hs

theorem ne_empty_of_life {n : Node} (hl : n.life ≠ 0) : n ≠ {} := fun e => hl (congrArg Node.life e)

end

/-! ## ADD -/

section
variable {s : State} {h : Nat} {imp : Bool} {x : BitVec 512}

theorem nodeAdd_taken (hl : (s.node h).life ≠ 0) : nodeAdd h imp x s = (s, 1) := if_pos hl

theorem nodeAdd_bad (hl : (s.node h).life = 0) (hbad : badField s h imp x = true) : nodeAdd h imp x s = (s, 5) := by
  rw [nodeAdd, if_neg (not_not_intro hl), if_pos hbad]

variable (hl : (s.node h).life = 0) (hbad : badField s h imp x = false)
include hl hbad

theorem nodeAdd_full (hk : (idxInsertAll h (NC.PAN.of x) (ctxKeys x) s).2 ≠ 0) :
    nodeAdd h imp x s =
      (if (idxInsertAll h (NC.PAN.of x) (ctxKeys x) s).2 = 4 then s.inc QUE_CNT_IDX_FAIL.COUNT else s,
        (idxInsertAll h (NC.PAN.of x) (ctxKeys x) s).2) := by
  rw [nodeAdd, if_neg (not_not_intro hl), hbad, if_neg Bool.false_ne_true]
  exact if_neg hk

theorem nodeAdd_adds (hk : (idxInsertAll h (NC.PAN.of x) (ctxKeys x) s).2 = 0) :
    nodeAdd h imp x s =
      ((idxInsertAll h (NC.PAN.of x) (ctxKeys x) s).1.setNode h { ctx := addedCtx imp x, life := 1 }, 0) := by
  rw [nodeAdd, if_neg (not_not_intro hl), hbad, if_neg Bool.false_ne_true]
  exact if_pos hk

end

section
variable {s : State} {f : Fn} {v : Word} (hs : s.inv = true) (hr : reaches s f QUE_NCMD.reg) (hb : s.on QUE_NCMD.BUSY = false)
  (hw : ncmdWaits s (NW.HANDLE.of v) = false)
include hs hr hb hw

/-- ADD of a FREE handle with good fields whose keys fit (R183). -/
theorem nodeOpAdd_adds (hl : (s.node (NW.HANDLE.of v)).life = 0) (hbad : badField s (NW.HANDLE.of v) (NW.IMPORT.of v == 1) (ndata s) = false)
    (hk : (idxInsertAll (NW.HANDLE.of v) (NC.PAN.of (ndata s)) (ctxKeys (ndata s)) s).2 = 0) :
    ∃ t, exec (.nodeOpAdd f v) s = .next t ∧ (t.reg QUE_NRES.reg = BitVec.ofNat 32 0 ∧ t.on QUE_NCMD.BUSY = false) ∧
      t.node (NW.HANDLE.of v) = { ctx := addedCtx (NW.IMPORT.of v == 1) (ndata s), life := 1 } ∧
      (∀ a ∈ ctxKeys (ndata s), idxLookup t (NC.PAN.of (ndata s)) a = some (NW.HANDLE.of v)) ∧
      t.que.nodes = sput s.que.nodes (NW.HANDLE.of v) (t.node (NW.HANDLE.of v)) ∧
      onlyRegs { s with que := t.que } t [QUE_NCMD.reg, QUE_NRES.reg, QUE_IDX_STS.reg] := by
  set h := NW.HANDLE.of v
  set pan := NC.PAN.of (ndata s)
  set ks := ctxKeys (ndata s)
  set n : Node := { ctx := addedCtx (NW.IMPORT.of v == 1) (ndata s), life := 1 } with hn
  have ne : n ≠ {} := ne_empty_of_life Nat.one_ne_zero
  have fits : ∀ w, (idxInsertAll h pan ks (worded w s)).2 = 0 := fun w =>
    (idxInsertAll_of_index h pan ks (congrArg Que.index (worded_que w))).trans hk
  have ins := fun w => idxInsertAll_done h pan ks (inv_worded hs w) (fits w)
  have hop : ∀ w, nodeOp 1 (NW.OP.put v 1) (ndata s) .reg (worded w s) = ((idxInsertAll h pan ks (worded w s)).1.setNode h n, 0) := fun w =>
    (nodeOp_add v (ndata s) .reg (worded w s)).trans
      (nodeAdd_adds ((congrArg Node.life (worded_node w h)).trans hl) ((worded_badField hs w _ _ _).trans hbad) (fits w))
  obtain ⟨w, t, e, done, que, only⟩ := nodeCommand_changes hs hr hb hw List.mem_cons_self hop (.inl (by decide)) (fun w => inv_setNode (ins w).1.inv h n)
    (as := [QUE_IDX_STS.reg]) (fun w => regsQue_trans (ins w).1.regsQue (setNode_regsQue _ h n))
    (fun w a ha => (setNode_reg _ h n a).trans ((ins w).1.reg a (List.ne_of_not_mem_cons ha)))
  obtain ⟨step, looked, -⟩ := ins w
  obtain ⟨nodes, index, -⟩ := tables_of_que que
  have node : t.node h = n := (node_of_nodes nodes h).trans (node_setNode_same ne _ h)
  have before : (idxInsertAll h pan ks (worded w s)).1.que.nodes = s.que.nodes := by rw [step.que, worded_que]
  refine ⟨t, e, done, node, fun a ha => ?_, ?_, only⟩
  · exact (idxLookup_of_index (index.trans (setNode_index _ h n)) pan a).trans (looked a ha)
  · rw [nodes, setNode_nodes _ h ne, node_setNode_same ne, node, before]

/-- ADD refuses a handle in use, bad fields and keys that do not fit (R183, R184). -/
theorem nodeOpAdd_refuses {k : Nat} (hk : ((s.node (NW.HANDLE.of v)).life ≠ 0 ∧ k = 1) ∨
      ((s.node (NW.HANDLE.of v)).life = 0 ∧ badField s (NW.HANDLE.of v) (NW.IMPORT.of v == 1) (ndata s) = true ∧ k = 5) ∨
      ((s.node (NW.HANDLE.of v)).life = 0 ∧ badField s (NW.HANDLE.of v) (NW.IMPORT.of v == 1) (ndata s) = false ∧
        k = (idxInsertAll (NW.HANDLE.of v) (NC.PAN.of (ndata s)) (ctxKeys (ndata s)) s).2 ∧ k ≠ 0)) :
    ∃ t, exec (.nodeOpAdd f v) s = .next t ∧ (t.reg QUE_NRES.reg = BitVec.ofNat 32 k ∧ t.on QUE_NCMD.BUSY = false) ∧
      t.que = { s.que with ncmd := none } ∧ onlyRegs { s with que := t.que } t [QUE_NCMD.reg, QUE_NRES.reg, QUE_CNT_IDX_FAIL.reg] := by
  have op : ∀ w, nodeOp 1 (NW.OP.put v 1) (ndata s) .reg (worded w s) = (if k = 4 then (worded w s).inc QUE_CNT_IDX_FAIL.COUNT else worded w s, k) := by
    intro w
    have hlife := congrArg Node.life (worded_node (s := s) w (NW.HANDLE.of v))
    have hjudged := worded_badField hs w (NW.HANDLE.of v) (NW.IMPORT.of v == 1) (ndata s)
    refine (nodeOp_add v (ndata s) .reg (worded w s)).trans ?_
    rcases hk with ⟨hl, rfl⟩ | ⟨hl, hbad, rfl⟩ | ⟨hl, hbad, hk, h0⟩
    · exact nodeAdd_taken (hlife.trans_ne hl)
    · exact nodeAdd_bad (hlife.trans hl) (hjudged.trans hbad)
    · have same : (idxInsertAll (NW.HANDLE.of v) (NC.PAN.of (ndata s)) (ctxKeys (ndata s)) (worded w s)).2 = k :=
        (idxInsertAll_of_index _ _ _ (congrArg Que.index (worded_que w))).trans hk.symm
      rw [nodeAdd_full (hlife.trans hl) (hjudged.trans hbad) (by rw [same]; exact h0), same]
  have only : ∀ w, onlyRegs (worded w s) (if k = 4 then (worded w s).inc QUE_CNT_IDX_FAIL.COUNT else worded w s) [QUE_CNT_IDX_FAIL.reg] := by
    intro w
    split
    · exact inc_onlyRegs (inv_worded hs w) QUE_CNT_IDX_FAIL.COUNT
    · exact onlyRegs_refl _ _
  have inv : ∀ w, (if k = 4 then (worded w s).inc QUE_CNT_IDX_FAIL.COUNT else worded w s).inv = true := by
    intro w
    split
    · exact inv_inc (inv_worded hs w) _
    · exact inv_worded hs w
  rw [← nresWord_plain (op := 1) (by decide) s (NW.HANDLE.of v) k]
  exact nodeCommand_refuses hs hr hb hw List.mem_cons_self op (.inl (by decide)) inv only

end

/-! ## An operation on a node that is not ACTIVE -/

section
variable (f : Fn) (v : Word)

theorem update_mem : (2, .nodeOpUpdate f v) ∈ nodeCommands f v := by simp [nodeCommands]

theorem prune_mem : (3, .nodeOpPrune f v) ∈ nodeCommands f v := by simp [nodeCommands]

theorem read_mem : (4, .nodeOpRead f v) ∈ nodeCommands f v := by simp [nodeCommands]

theorem qset_mem : (5, .nodeOpQset f v) ∈ nodeCommands f v := by simp [nodeCommands]

end

section
variable {s : State} {h : Nat} (hp : (s.node h).badPar = 0)
include hp

theorem nodeUpdate_invalid (hl : (s.node h).life ≠ 1) (imp dup drift : Bool) (x : BitVec 512) : nodeUpdate h imp dup drift x s = (s, 2) := by
  unfold nodeUpdate
  dsimp only
  rw [ctxCheck_good hp, if_pos hl]

theorem nodePrune_invalid (hl : (s.node h).life ≠ 1) (w : PruneFor) : nodePrune h w s = (s, 2) := by
  unfold nodePrune
  dsimp only
  rw [ctxCheck_good hp, if_pos hl]

theorem nodeQset_invalid (hl : (s.node h).life ≠ 1) (hold clr : Bool) : nodeQset h hold clr s = (s, 2) := by
  unfold nodeQset
  dsimp only
  rw [ctxCheck_good hp, if_pos hl]

theorem nodeQset_poisoned (hl : (s.node h).life = 1) (hpoison : (s.node h).poison = true) (hold clr : Bool) : nodeQset h hold clr s = (s, 6) := by
  unfold nodeQset
  dsimp only
  rw [ctxCheck_good hp, if_neg (not_not_intro hl), if_pos hpoison]

theorem nodeRead_eq : nodeRead h s = (s, if (s.node h).life = 0 then 2 else 0) := by
  unfold nodeRead
  dsimp only
  rw [ctxCheck_good hp]

end

/-! ## QSET -/

/-- The state in which QSET has set QHOLD, and cleared QOVR where it is told to (R183). -/
def qsetState (h : Nat) (hold clr : Bool) (s : State) : State :=
  if clr then (s.ncPut h NC.QHOLD (if hold then 1 else 0)).ncPut h NC.QOVR 0 else s.ncPut h NC.QHOLD (if hold then 1 else 0)

/-- The context that QSET leaves. -/
def qsetCtx (hold clr : Bool) (x : BitVec 512) : BitVec 512 :=
  if clr then NC.QOVR.put (NC.QHOLD.put x (if hold then 1 else 0)) 0 else NC.QHOLD.put x (if hold then 1 else 0)

section
variable {s : State} {h : Nat}

theorem nodeQset_sets (hp : (s.node h).badPar = 0) (hl : (s.node h).life = 1) (hpoison : (s.node h).poison = false) (hold clr : Bool) :
    nodeQset h hold clr s = (qsetState h hold clr s, 0) := by
  unfold nodeQset
  dsimp only
  rw [ctxCheck_good hp, if_neg (not_not_intro hl), hpoison, if_neg Bool.false_ne_true]
  rfl

theorem ncPut_regsQue (s : State) (h : Nat) (f : Fld) (v : Nat) : regsQue s (s.ncPut h f v) := rfl

theorem ncPut_reg (s : State) (h : Nat) (f : Fld) (v a : Nat) : (s.ncPut h f v).reg a = s.reg a := rfl

theorem inv_ncPut (hs : s.inv = true) (h : Nat) (f : Fld) (v : Nat) : (s.ncPut h f v).inv = true := hs

theorem node_ncPut (hl : (s.node h).life ≠ 0) (f : Fld) (v : Nat) : (s.ncPut h f v).node h = { s.node h with ctx := f.put (s.node h).ctx v } :=
  node_setNode_same (n := { s.node h with ctx := f.put (s.node h).ctx v }) (ne_empty_of_life hl) s h

theorem qsetState_node (hl : (s.node h).life ≠ 0) (hold : Bool) :
    ∀ clr, (qsetState h hold clr s).node h = { s.node h with ctx := qsetCtx hold clr (s.node h).ctx }
  | true => by
    have first := node_ncPut hl NC.QHOLD (if hold then 1 else 0)
    have second := node_ncPut (s := s.ncPut h NC.QHOLD (if hold then 1 else 0)) (h := h) (by rw [first]; exact hl) NC.QOVR 0
    rw [first] at second
    exact second
  | false => node_ncPut hl NC.QHOLD _

theorem qsetState_regs (hs : s.inv = true) (h : Nat) (hold : Bool) :
    ∀ clr, (qsetState h hold clr s).inv = true ∧ regsQue s (qsetState h hold clr s) ∧ ∀ a, (qsetState h hold clr s).reg a = s.reg a
  | true => ⟨inv_ncPut (inv_ncPut hs h _ _) h _ _, regsQue_trans (ncPut_regsQue s h _ _) (ncPut_regsQue _ h _ _),
      fun a => (ncPut_reg _ h _ _ a).trans (ncPut_reg s h _ _ a)⟩
  | false => ⟨inv_ncPut hs h _ _, ncPut_regsQue s h _ _, ncPut_reg s h _ _⟩

theorem qsetCtx_hold (hold clr : Bool) (x : BitVec 512) : NC.QHOLD.of (qsetCtx hold clr x) = if hold then 1 else 0 := by
  have small : (if hold then 1 else 0) % 2 ^ NC.QHOLD.w = if hold then 1 else 0 := by cases hold <;> rfl
  have set := (of_put_same (f := NC.QHOLD) (by decide) x (if hold then 1 else 0)).trans small
  cases clr with
  | true => exact (of_put_apart (by decide) (by decide) _ 0).trans set
  | false => exact set

theorem qsetCtx_ovr (hold : Bool) (x : BitVec 512) : ∀ clr, NC.QOVR.of (qsetCtx hold clr x) = if clr then 0 else NC.QOVR.of x
  | true => of_put_same (by decide) _ 0
  | false => of_put_apart (by decide) (by decide) x _

theorem qsetCtx_apart {g : Fld} (hh : g.apart NC.QHOLD) (ho : g.apart NC.QOVR) (hold clr : Bool) (x : BitVec 512) :
    g.of (qsetCtx hold clr x) = g.of x := by
  have set := of_put_apart (by decide) hh x (if hold then 1 else 0)
  cases clr with
  | true => exact (of_put_apart (by decide) ho _ 0).trans set
  | false => exact set

end

/-! ## READ -/

theorem wordsNum_congr : ∀ (n : Nat) {f g : Nat → Nat}, (∀ w < n, f w = g w) → wordsNum f n = wordsNum g n
  | 0, _, _, _ => rfl
  | n + 1, f, g, e => by
    rw [wordsNum_succ, wordsNum_succ, e 0 n.succ_pos, wordsNum_congr n fun w hw => e (w + 1) (Nat.succ_lt_succ hw)]

/-- The words of a number make it again. -/
theorem wordsNum_words : ∀ n m : Nat, wordsNum (fun w => m / 2 ^ (32 * w) % 2 ^ 32) n = m % 2 ^ (32 * n)
  | 0, m => (Nat.mod_one m).symm
  | n + 1, m => by
    have rest : ∀ w, m / 2 ^ (32 * (w + 1)) % 2 ^ 32 = m / 2 ^ 32 / 2 ^ (32 * w) % 2 ^ 32 := fun w => by
      rw [Nat.div_div_eq_div_mul, ← Nat.pow_add, show 32 * (w + 1) = 32 + 32 * w by omega]
    rw [wordsNum_succ, show 32 * (n + 1) = 32 + 32 * n by omega, Nat.pow_add, Nat.mod_mul]
    simp only [rest]
    rw [wordsNum_words n, Nat.mul_zero, Nat.pow_zero, Nat.div_one]

/-- QUE_NDATA reads the context that was put in it, and nothing else changes. -/
theorem putNdata_spec {s : State} (hs : s.inv = true) (x : BitVec 512) :
    ndata (putNdata x s) = x ∧ onlyRegs s (putNdata x s) ((List.range 16).map QUE_NDATA.reg) := by
  obtain ⟨word, only⟩ := foldl_setReg_spec QUE_NDATA.reg (fun w => BitVec.ofNat 32 (bf x (32 * w) 32)) (List.range 16) s hs (by decide)
  refine ⟨?_, only⟩
  have words : ∀ w < 16, ((putNdata x s).reg (QUE_NDATA.reg w)).toNat = x.toNat / 2 ^ (32 * w) % 2 ^ 32 := fun w hw =>
    (congrArg BitVec.toNat (word w (List.mem_range.mpr hw))).trans (toNat_ofNat_fits (bf_lt x (32 * w) 32))
  have num : wordsNum (fun w => ((putNdata x s).reg (QUE_NDATA.reg w)).toNat) 16 = x.toNat :=
    (wordsNum_congr 16 words).trans ((wordsNum_words 16 x.toNat).trans
      (Nat.mod_eq_of_lt (Nat.lt_of_lt_of_eq x.isLt (congrArg (2 ^ ·) (by decide : 512 = 32 * 16)))))
  refine (congrArg (BitVec.ofNat 512) num).trans ?_
  rw [BitVec.ofNat_toNat, BitVec.setWidth_eq]

section
variable {s : State} {f : Fn} {v : Word} (hs : s.inv = true) (hr : reaches s f QUE_NCMD.reg) (hb : s.on QUE_NCMD.BUSY = false)
  (hw : ncmdWaits s (NW.HANDLE.of v) = false) (hp : (s.node (NW.HANDLE.of v)).badPar = 0)
include hs hr hb hw hp

/-- UPDATE, PRUNE and QSET refuse a node that is not ACTIVE (R183). -/
theorem nodeCommand_invalid (hl : (s.node (NW.HANDLE.of v)).life ≠ 1) {op : Nat} {c : Instr} (hc : (op, c) ∈ nodeCommands f v)
    (hop : op ∈ [2, 3, 5]) :
    ∃ t, exec c s = .next t ∧ (t.reg QUE_NRES.reg = BitVec.ofNat 32 2 ∧ t.on QUE_NCMD.BUSY = false) ∧
      t.que = { s.que with ncmd := none } ∧ onlyRegs { s with que := t.que } t [QUE_NCMD.reg, QUE_NRES.reg] := by
  have run : ∀ w, nodeOp op (NW.OP.put v op) (ndata s) .reg (worded w s) = (worded w s, 2) := fun w => by
    have hp1 : ((worded w s).node (NW.HANDLE.of v)).badPar = 0 := (congrArg Node.badPar (worded_node w _)).trans hp
    have hl1 : ((worded w s).node (NW.HANDLE.of v)).life ≠ 1 := (congrArg Node.life (worded_node w _)).trans_ne hl
    simp only [List.mem_cons, List.not_mem_nil, or_false] at hop
    rcases hop with rfl | rfl | rfl
    · exact (nodeOp_update v (ndata s) .reg _).trans (nodeUpdate_invalid hp1 hl1 _ _ _ _)
    · exact (nodeOp_prune v (ndata s) .reg _).trans (nodePrune_invalid hp1 hl1 _)
    · exact (nodeOp_qset v (ndata s) .reg _).trans (nodeQset_invalid hp1 hl1 _ _)
  have ho : op ≠ 4 := fun e => absurd (e ▸ hop) (by decide)
  rw [← nresWord_plain ho s (NW.HANDLE.of v) 2]
  exact nodeCommand_refuses hs hr hb hw hc run (.inr (by decide)) (fun w => inv_worded hs w) (fun w => onlyRegs_refl _ [])

/-- QSET refuses a poisoned context (R183, R195). -/
theorem nodeOpQset_poisoned (hl : (s.node (NW.HANDLE.of v)).life = 1) (hpoison : (s.node (NW.HANDLE.of v)).poison = true) :
    ∃ t, exec (.nodeOpQset f v) s = .next t ∧ (t.reg QUE_NRES.reg = BitVec.ofNat 32 6 ∧ t.on QUE_NCMD.BUSY = false) ∧
      t.que = { s.que with ncmd := none } ∧ onlyRegs { s with que := t.que } t [QUE_NCMD.reg, QUE_NRES.reg] := by
  have run : ∀ w, nodeOp 5 (NW.OP.put v 5) (ndata s) .reg (worded w s) = (worded w s, 6) := fun w => by
    have same := worded_node (s := s) w (NW.HANDLE.of v)
    exact (nodeOp_qset v (ndata s) .reg _).trans (nodeQset_poisoned ((congrArg Node.badPar same).trans hp) ((congrArg Node.life same).trans hl)
      ((congrArg Node.poison same).trans hpoison) _ _)
  rw [← nresWord_plain (op := 5) (by decide) s (NW.HANDLE.of v) 6]
  exact nodeCommand_refuses hs hr hb hw (qset_mem f v) run (.inr (by decide)) (fun w => inv_worded hs w) (fun w => onlyRegs_refl _ [])

/-- QSET of an ACTIVE node sets QHOLD and clears QOVR where it is told to (R183). -/
theorem nodeOpQset_sets (hl : (s.node (NW.HANDLE.of v)).life = 1) (hpoison : (s.node (NW.HANDLE.of v)).poison = false) :
    ∃ t, exec (.nodeOpQset f v) s = .next t ∧ (t.reg QUE_NRES.reg = BitVec.ofNat 32 0 ∧ t.on QUE_NCMD.BUSY = false) ∧
      (t.node (NW.HANDLE.of v)).ctx = qsetCtx (NW.QHOLD_VAL.of v == 1) (NW.CLR_OVR.of v == 1) (s.node (NW.HANDLE.of v)).ctx ∧
      onlyRegs { s with que := t.que } t [QUE_NCMD.reg, QUE_NRES.reg] := by
  set h := NW.HANDLE.of v
  set hold := NW.QHOLD_VAL.of v == 1
  set clr := NW.CLR_OVR.of v == 1
  have same := fun w => worded_node (s := s) w h
  have hl1 := fun w => (congrArg Node.life (same w)).trans hl
  have run : ∀ w, nodeOp 5 (NW.OP.put v 5) (ndata s) .reg (worded w s) = (qsetState h hold clr (worded w s), 0) := fun w =>
    (nodeOp_qset v (ndata s) .reg _).trans
      (nodeQset_sets ((congrArg Node.badPar (same w)).trans hp) (hl1 w) ((congrArg Node.poison (same w)).trans hpoison) hold clr)
  have regs := fun w => qsetState_regs (inv_worded hs w) h hold clr
  obtain ⟨w, t, e, done, que, only⟩ := nodeCommand_changes hs hr hb hw (qset_mem f v) run (.inl (by decide))
    (fun w => (regs w).1) (as := []) (fun w => (regs w).2.1) (fun w a _ => (regs w).2.2 a)
  have node := node_of_nodes (tables_of_que que).1 h
  rw [qsetState_node (by rw [hl1 w]; decide) hold clr, same w] at node
  exact ⟨t, e, done, congrArg Node.ctx node, only⟩

end

/-- A node's hidden state as QUE_NRES shows it after a READ, where its parity is good (R197). -/
def hiddenState (n : Node) : Nat := 16 * n.life + (if n.poison then 64 else 0)

/-- A READ ends with QUE_NDATA filled (R183). -/
theorem ncmdRun_reads {v : Word} {s : State} (h0 : (nodeOp 4 v (ndata s) .reg s).2 = 0) :
    ncmdRun 4 v s =
      putNdata ((nodeOp 4 v (ndata s) .reg s).1.node (NW.HANDLE.of v)).ctx
        (answered (nresWord (nodeOp 4 v (ndata s) .reg s).1 (NW.HANDLE.of v) 4 0) (nodeOp 4 v (ndata s) .reg s).1) := by
  rw [← answered_node (nresWord (nodeOp 4 v (ndata s) .reg s).1 (NW.HANDLE.of v) 4 0)]
  unfold ncmdRun
  dsimp only
  rw [if_neg (fun e => absurd e.1 (by decide)), if_pos ⟨rfl, h0⟩, h0]
  rfl

section
variable {s : State} {f : Fn} {v : Word} (hs : s.inv = true) (hr : reaches s f QUE_NCMD.reg) (hb : s.on QUE_NCMD.BUSY = false)
  (hw : ncmdWaits s (NW.HANDLE.of v) = false) (hp : (s.node (NW.HANDLE.of v)).badPar = 0)
include hs hr hb hw hp

omit hs hr hb hw in
theorem nodeOp_read_eq (w : Word) :
    nodeOp 4 (NW.OP.put v 4) (ndata s) .reg (worded w s) = (worded w s, if (s.node (NW.HANDLE.of v)).life = 0 then 2 else 0) := by
  have same := worded_node (s := s) w (NW.HANDLE.of v)
  refine (nodeOp_read v (ndata s) .reg _).trans ((nodeRead_eq ((congrArg Node.badPar same).trans hp)).trans ?_)
  rw [same]

/-- READ of a FREE handle gives NOT_VALID (R183). -/
theorem nodeOpRead_invalid (hl : (s.node (NW.HANDLE.of v)).life = 0) :
    ∃ t, exec (.nodeOpRead f v) s = .next t ∧
      (t.reg QUE_NRES.reg = BitVec.ofNat 32 (2 + (if (s.node (NW.HANDLE.of v)).poison then 64 else 0)) ∧ t.on QUE_NCMD.BUSY = false) ∧
      t.que = { s.que with ncmd := none } ∧ onlyRegs { s with que := t.que } t [QUE_NCMD.reg, QUE_NRES.reg] := by
  have run : ∀ w, nodeOp 4 (NW.OP.put v 4) (ndata s) .reg (worded w s) = (worded w s, 2) := fun w => by
    rw [nodeOp_read_eq hp w, if_pos hl]
  have res : nresWord s (NW.HANDLE.of v) 4 2 = BitVec.ofNat 32 (2 + (if (s.node (NW.HANDLE.of v)).poison then 64 else 0)) := by
    unfold nresWord
    dsimp only
    rw [if_pos rfl, hl, hp]
    rfl
  rw [← res]
  exact nodeCommand_refuses hs hr hb hw (read_mem f v) run (.inr (by decide)) (fun w => inv_worded hs w) (fun w => onlyRegs_refl _ [])

/-- READ copies the context and shows the hidden state (R183, R197). -/
theorem nodeOpRead_copies (hl : (s.node (NW.HANDLE.of v)).life ≠ 0) :
    ∃ t, exec (.nodeOpRead f v) s = .next t ∧
      (t.reg QUE_NRES.reg = BitVec.ofNat 32 (hiddenState (s.node (NW.HANDLE.of v))) ∧
        t.on QUE_NCMD.BUSY = false) ∧
      ndata t = (s.node (NW.HANDLE.of v)).ctx ∧ t.que = { s.que with ncmd := none } ∧
      onlyRegs { s with que := t.que } t (QUE_NCMD.reg :: QUE_NRES.reg :: (List.range 16).map QUE_NDATA.reg) := by
  set h := NW.HANDLE.of v
  set shown := BitVec.ofNat 32 (hiddenState (s.node h))
  obtain ⟨w, e⟩ := exec_nodeCommand_runs hr hb hw (read_mem f v)
  have hs1 := inv_worded hs w
  have same := worded_node (s := s) w h
  have run : nodeOp 4 (NW.OP.put v 4) (ndata (worded w s)) .reg (worded w s) = (worded w s, 0) := by
    rw [worded_ndata hs, nodeOp_read_eq hp w, if_neg hl]
  have res : nresWord (worded w s) h 4 0 = shown := by
    unfold nresWord
    dsimp only
    rw [if_pos rfl, same, hp, Nat.zero_add]
    rfl
  rw [ncmdRun_reads (congrArg Prod.snd run), run, of_opWord (by decide), res, same] at e
  have hinv := inv_answered hs1 shown
  have only1 := answered_onlyRegs hs hs1 shown w (as := []) (worded_frame w) (fun _ _ => rfl)
  have done := answered_done hs1 shown
  have que := answered_que shown (worded w s)
  generalize answered shown (worded w s) = u at e hinv only1 done que
  obtain ⟨data, only2⟩ := putNdata_spec hinv (s.node h).ctx
  have que2 : (putNdata (s.node h).ctx u).que = u.que := by rw [only2.1]
  rw [worded_que] at que
  refine ⟨_, e, ⟨(only2.2 _ (by decide)).trans done.1, ?_⟩, data, que2.trans que, ?_⟩
  · rw [State.on, rd_of_reg (f := QUE_NCMD.BUSY) (only2.2 _ (by decide))]
    exact done.2
  · rw [que2]
    exact onlyRegs_trans only1 only2

end

end Sys2Proof.Machine

/-! UPDATE and PRUNE (R184, R186), and the node operations together. -/

namespace Sys2Proof.Machine

/-! ## The keys of an UPDATE -/

/-- The keys of context old that context x no longer asks for leave the index, and the new ones of x enter it (R184). -/
def rekeyed (h : Nat) (x old : BitVec 512) (s : State) : State × Nat :=
  idxInsertAll h (NC.PAN.of x) (((ctxPanKeys x).filter (fun k => !(ctxPanKeys old).contains k)).map (·.2))
    (idxDrop ((ctxPanKeys old).filter (fun k => !(ctxPanKeys x).contains k)) s)

section
variable {s : State} {h : Nat} {x old : BitVec 512}

theorem idxDrop_index (ks : List (Nat × Addr)) (s : State) :
    (idxDrop ks s).que.index = s.que.index.filter (fun p => !ks.contains (p.2.pan, p.2.addr)) := rfl

theorem rekeyed_of_index {t : State} (e : s.que.index = t.que.index) : (rekeyed h x old s).2 = (rekeyed h x old t).2 :=
  idxInsertAll_of_index _ _ _ (by rw [idxDrop_index, idxDrop_index, e])

theorem rekeyed_step (hs : s.inv = true) (h0 : (rekeyed h x old s).2 = 0) : IndexStep s (rekeyed h x old s).1 :=
  have drop := indexStep_idxDrop hs _
  drop.trans (idxInsertAll_done h _ _ drop.inv h0).1

/-- All keys of the new context lead to the handle, where the old one's did. -/
theorem rekeyed_lookup (hs : s.inv = true) (h0 : (rekeyed h x old s).2 = 0) (hd : s.que.index.Pairwise (fun a b => a.1 ≠ b.1))
    (hold : ∀ k ∈ ctxPanKeys old, idxLookup s k.1 k.2 = some h) {a : Addr} (ha : a ∈ ctxKeys x) :
    idxLookup (rekeyed h x old s).1 (NC.PAN.of x) a = some h := by
  have drop := indexStep_idxDrop hs ((ctxPanKeys old).filter (fun k => !(ctxPanKeys x).contains k))
  obtain ⟨-, new, kept⟩ := idxInsertAll_done h _ _ drop.inv h0
  have asked : (NC.PAN.of x, a) ∈ ctxPanKeys x := List.mem_map.mpr ⟨a, ha, rfl⟩
  by_cases mem : (NC.PAN.of x, a) ∈ ctxPanKeys old
  · refine kept _ _ _ ((idxLookup_idxDrop hd fun hm => ?_).trans (hold _ mem))
    simp [asked] at hm
  · exact new a (List.mem_map.mpr ⟨(NC.PAN.of x, a), List.mem_filter.mpr ⟨asked, by simp [mem]⟩, rfl⟩)

end

/-! ## UPDATE -/

/-- The node that UPDATE leaves (R184). -/
def updatedNode (imp dup drift : Bool) (n : Node) (x : BitVec 512) : Node :=
  { n with ctx := updatedCtx imp dup drift n.ctx x, poison := false, badPar := if imp then 0 else n.badPar }

/-- The node that an UPDATE with word v in QUE_NCMD leaves. -/
def commandedNode (v : Word) (s : State) : Node :=
  updatedNode (NW.IMPORT.of v == 1) (NW.RESET_DUP.of v == 1) (NW.RESET_DRIFT.of v == 1) (s.node (NW.HANDLE.of v)) (ndata s)

section
variable {s : State} {h : Nat} {imp : Bool} {x : BitVec 512} (hp : (s.node h).badPar = 0) (hl : (s.node h).life = 1)
include hp hl

theorem nodeUpdate_bad (hbad : badField s h imp x = true ∨ NC.PART.of x ≠ NC.PART.of (s.node h).ctx) (dup drift : Bool) :
    nodeUpdate h imp dup drift x s = (s, 5) := by
  unfold nodeUpdate
  dsimp only
  rw [ctxCheck_good hp, if_neg (not_not_intro hl), if_pos hbad]

variable (hgood : badField s h imp x = false) (hpart : NC.PART.of x = NC.PART.of (s.node h).ctx)
include hgood hpart

theorem nodeUpdate_poisoned (hpoison : (s.node h).poison = true) (himp : imp = false) (dup drift : Bool) :
    nodeUpdate h imp dup drift x s = (s, 6) := by
  have good : ¬(badField s h imp x = true ∨ NC.PART.of x ≠ NC.PART.of (s.node h).ctx) := by simp [hgood, hpart]
  unfold nodeUpdate
  dsimp only
  rw [ctxCheck_good hp, if_neg (not_not_intro hl), if_neg good, if_pos ⟨hpoison, by rw [himp]; rfl⟩]

theorem nodeUpdate_updates (hok : (s.node h).poison = false ∨ imp = true) (h0 : (rekeyed h x (s.node h).ctx s).2 = 0) (dup drift : Bool) :
    nodeUpdate h imp dup drift x s =
      (squashNode 3 h ((rekeyed h x (s.node h).ctx s).1.setNode h (updatedNode imp dup drift (s.node h) x)), 0) := by
  have good : ¬(badField s h imp x = true ∨ NC.PART.of x ≠ NC.PART.of (s.node h).ctx) := by simp [hgood, hpart]
  have sound : ¬((s.node h).poison = true ∧ (!imp) = true) := fun e => hok.elim (fun n => by simp [n] at e) (fun n => by simp [n] at e)
  unfold nodeUpdate
  dsimp only
  rw [ctxCheck_good hp, if_neg (not_not_intro hl), if_neg good, if_neg sound]
  exact if_pos h0

end

section
variable {s : State} {f : Fn} {v : Word} (hs : s.inv = true) (hr : reaches s f QUE_NCMD.reg) (hb : s.on QUE_NCMD.BUSY = false)
  (hw : ncmdWaits s (NW.HANDLE.of v) = false) (hp : (s.node (NW.HANDLE.of v)).badPar = 0) (hl : (s.node (NW.HANDLE.of v)).life = 1)
include hs hr hb hw hp hl

/-- UPDATE refuses bad fields, and a poisoned context without IMPORT (R184). -/
theorem nodeOpUpdate_refuses {k : Nat}
    (hk : ((badField s (NW.HANDLE.of v) (NW.IMPORT.of v == 1) (ndata s) = true ∨
        NC.PART.of (ndata s) ≠ NC.PART.of (s.node (NW.HANDLE.of v)).ctx) ∧ k = 5) ∨
      (badField s (NW.HANDLE.of v) (NW.IMPORT.of v == 1) (ndata s) = false ∧ NC.PART.of (ndata s) = NC.PART.of (s.node (NW.HANDLE.of v)).ctx ∧
        (s.node (NW.HANDLE.of v)).poison = true ∧ (NW.IMPORT.of v == 1) = false ∧ k = 6)) :
    ∃ t, exec (.nodeOpUpdate f v) s = .next t ∧ (t.reg QUE_NRES.reg = BitVec.ofNat 32 k ∧ t.on QUE_NCMD.BUSY = false) ∧
      t.que = { s.que with ncmd := none } ∧ onlyRegs { s with que := t.que } t [QUE_NCMD.reg, QUE_NRES.reg] := by
  have run : ∀ w, nodeOp 2 (NW.OP.put v 2) (ndata s) .reg (worded w s) = (worded w s, k) := fun w => by
    have same := worded_node (s := s) w (NW.HANDLE.of v)
    have judged := worded_badField hs w (NW.HANDLE.of v) (NW.IMPORT.of v == 1) (ndata s)
    have hp1 := (congrArg Node.badPar same).trans hp
    have hl1 := (congrArg Node.life same).trans hl
    refine (nodeOp_update v (ndata s) .reg _).trans ?_
    rcases hk with ⟨hbad, rfl⟩ | ⟨hgood, hpart, hpoison, himp, rfl⟩
    · exact nodeUpdate_bad hp1 hl1 (by rw [same, judged]; exact hbad) _ _
    · exact nodeUpdate_poisoned hp1 hl1 (judged.trans hgood) (by rw [same]; exact hpart) ((congrArg Node.poison same).trans hpoison) himp _ _
  rw [← nresWord_plain (op := 2) (by decide) s (NW.HANDLE.of v) k]
  exact nodeCommand_refuses hs hr hb hw (update_mem f v) run (.inl (by decide)) (fun w => inv_worded hs w) (fun w => onlyRegs_refl _ [])

/-- UPDATE of an ACTIVE node writes its context and its keys, and squashes what staging holds of it (R184). -/
theorem nodeOpUpdate_updates (hgood : badField s (NW.HANDLE.of v) (NW.IMPORT.of v == 1) (ndata s) = false)
    (hpart : NC.PART.of (ndata s) = NC.PART.of (s.node (NW.HANDLE.of v)).ctx)
    (hok : (s.node (NW.HANDLE.of v)).poison = false ∨ (NW.IMPORT.of v == 1) = true)
    (h0 : (rekeyed (NW.HANDLE.of v) (ndata s) (s.node (NW.HANDLE.of v)).ctx s).2 = 0) :
    ∃ t, exec (.nodeOpUpdate f v) s = .next t ∧ (t.reg QUE_NRES.reg = BitVec.ofNat 32 0 ∧ t.on QUE_NCMD.BUSY = false) ∧
      nodeKept (commandedNode v s) (t.node (NW.HANDLE.of v)) ∧
      (s.que.index.Pairwise (fun a b => a.1 ≠ b.1) →
        (∀ k ∈ ctxPanKeys (s.node (NW.HANDLE.of v)).ctx, idxLookup s k.1 k.2 = some (NW.HANDLE.of v)) →
        ∀ a ∈ ctxKeys (ndata s), idxLookup t (NC.PAN.of (ndata s)) a = some (NW.HANDLE.of v)) ∧
      ((∀ p ∈ s.txc.ents, p.2.node ≠ some (NW.HANDLE.of v)) → (∀ d ∈ s.lnk.scheds, d.ent.node ≠ some (NW.HANDLE.of v)) →
        t.node (NW.HANDLE.of v) = commandedNode v s ∧ t.que.nodes = sput s.que.nodes (NW.HANDLE.of v) (t.node (NW.HANDLE.of v)) ∧
        onlyRegs { s with que := t.que } t [QUE_NCMD.reg, QUE_NRES.reg, QUE_IDX_STS.reg]) := by
  set h := NW.HANDLE.of v
  set x := ndata s
  set n := commandedNode v s with hn
  have ne : n ≠ {} := ne_empty_of_life (by rw [hn]; exact (hl.trans_ne Nat.one_ne_zero))
  have index := fun w => congrArg Que.index (worded_que (s := s) w)
  have fits : ∀ w, (rekeyed h x (s.node h).ctx (worded w s)).2 = 0 := fun w => (rekeyed_of_index (index w)).trans h0
  have step := fun w => rekeyed_step (inv_worded hs w) (fits w)
  have run : ∀ w, nodeOp 2 (NW.OP.put v 2) x .reg (worded w s) =
      (squashNode 3 h ((rekeyed h x (s.node h).ctx (worded w s)).1.setNode h n), 0) := fun w => by
    have same := worded_node (s := s) w h
    refine (nodeOp_update v x .reg _).trans ((nodeUpdate_updates ((congrArg Node.badPar same).trans hp) ((congrArg Node.life same).trans hl)
      ((worded_badField hs w _ _ _).trans hgood) (by rw [same]; exact hpart) (by rw [same]; exact hok) (by rw [same]; exact fits w) _ _).trans ?_)
    rw [same]
    rfl
  obtain ⟨w, e⟩ := exec_nodeCommand_answers hs hr hb hw (update_mem f v) run (.inl (by decide))
  have step := step w
  have look : s.que.index.Pairwise (fun a b => a.1 ≠ b.1) → (∀ k ∈ ctxPanKeys (s.node h).ctx, idxLookup s k.1 k.2 = some h) →
      ∀ a ∈ ctxKeys x, idxLookup (rekeyed h x (s.node h).ctx (worded w s)).1 (NC.PAN.of x) a = some h := fun hd hold a ha =>
    rekeyed_lookup (inv_worded hs w) (fits w) (by rw [index w]; exact hd) (fun k hk => (idxLookup_of_index (index w) k.1 k.2).trans (hold k hk)) ha
  generalize (rekeyed h x (s.node h).ctx (worded w s)).1 = r at e step look
  have held := inv_setNode step.inv h n
  have squash := handleStep_squashNode (h := h) held (cause := 3) (by decide) h
  have idle := squashNode_idle (s := r.setNode h n) (h := h)
  have node0 : (r.setNode h n).node h = n := node_setNode_same ne r h
  rw [nresWord_plain (by decide)] at e
  refine ⟨_, e, answered_done squash.inv _, ?_, fun hd hold a ha => ?_, fun he hd => ?_⟩
  · have kept := squash.node
    rw [node0] at kept
    rw [answered_node]
    exact kept
  · exact (idxLookup_of_index ((tables_of_que (answered_que _ _)).2.1.trans squash.index) _ a).trans (look hd hold a ha)
  · have txc : r.txc = s.txc := by rw [step.frame, worded_frame (s := s) w]
    have lnk : r.lnk = s.lnk := by rw [step.frame, worded_frame (s := s) w]
    have nodes : r.que.nodes = s.que.nodes := by rw [step.que, worded_que]
    rw [idle (by rw [← txc] at he; exact he) (by rw [← lnk] at hd; exact hd) 3]
    refine ⟨(answered_node _ _ h).trans node0, ?_, ?_⟩
    · rw [answered_node, (tables_of_que (answered_que _ _)).1, setNode_nodes r h ne, nodes]
    · exact answered_onlyRegs hs held _ w (regsQue_trans (worded_frame w) (regsQue_trans step.regsQue (setNode_regsQue r h n)))
        (fun a ha => (setNode_reg r h n a).trans (step.reg a (List.ne_of_not_mem_cons ha)))

end

/-! ## PRUNE -/

/-- The state in which node h is PRUNING for the requester w (R186). -/
def pruning (h : Nat) (w : PruneFor) (s : State) : State :=
  { s.setNode h { s.node h with life := 2 } with
    que := { (s.setNode h { s.node h with life := 2 }).que with prunes := s.que.prunes ++ [(h, w)] } }

theorem nodePrune_begins {s : State} {h : Nat} (hp : (s.node h).badPar = 0) (hl : (s.node h).life = 1) (w : PruneFor) :
    nodePrune h w s = (squashNode 4 h (pruning h w s), 0) := by
  unfold nodePrune
  dsimp only
  rw [ctxCheck_good hp, if_neg (not_not_intro hl)]
  rfl

section
variable (s : State) (h : Nat) (w : PruneFor)

theorem pruning_prunes : (pruning h w s).que.prunes = s.que.prunes ++ [(h, w)] := rfl

theorem pruning_reg (a : Nat) : (pruning h w s).reg a = s.reg a := rfl

theorem inv_pruning {s : State} (hs : s.inv = true) : (pruning h w s).inv = true := hs

theorem pruning_node : (pruning h w s).node h = { s.node h with life := 2 } :=
  node_setNode_same (n := { s.node h with life := 2 }) (ne_empty_of_life two_ne_zero) s h

end

/-- A PRUNE that has begun keeps BUSY set (R186). -/
theorem ncmdRun_prunes {v : Word} {s : State} (h0 : (nodeOp 3 v (ndata s) .reg s).2 = 0) :
    ncmdRun 3 v s = busied QUE_NCMD.BUSY none (nodeOp 3 v (ndata s) .reg s).1 := by
  unfold ncmdRun
  dsimp only
  rw [if_pos ⟨rfl, h0⟩]
  rfl

section
variable {s : State} {f : Fn} {v : Word} (hs : s.inv = true) (hr : reaches s f QUE_NCMD.reg) (hb : s.on QUE_NCMD.BUSY = false)
  (hw : ncmdWaits s (NW.HANDLE.of v) = false) (hp : (s.node (NW.HANDLE.of v)).badPar = 0) (hl : (s.node (NW.HANDLE.of v)).life = 1)
include hs hr hb hw hp hl

/-- PRUNE makes an ACTIVE node PRUNING and stays BUSY (R186). -/
theorem nodeOpPrune_begins :
    ∃ t, exec (.nodeOpPrune f v) s = .next t ∧ t.on QUE_NCMD.BUSY = true ∧ (t.node (NW.HANDLE.of v)).life = 2 ∧
      (NW.HANDLE.of v, .reg) ∈ t.que.prunes ∧ t.reg QUE_NRES.reg = s.reg QUE_NRES.reg := by
  set h := NW.HANDLE.of v
  obtain ⟨w, e⟩ := exec_nodeCommand_runs hr hb hw (prune_mem f v)
  have hs1 := inv_worded hs w
  have same := worded_node (s := s) w h
  have hp1 := (congrArg Node.badPar same).trans hp
  have run := (nodeOp_prune v (ndata (worded w s)) .reg (worded w s)).trans (nodePrune_begins hp1 ((congrArg Node.life same).trans hl) .reg)
  rw [ncmdRun_prunes (congrArg Prod.snd run), run] at e
  have squash := handleStep_squashNode (h := h) (inv_pruning h .reg hs1) (cause := 4) (by decide) h
  have node0 := pruning_node (worded w s) h .reg
  have prunes0 := pruning_prunes (worded w s) h .reg
  have res0 : (pruning h .reg (worded w s)).reg QUE_NRES.reg = s.reg QUE_NRES.reg :=
    (pruning_reg (worded w s) h .reg _).trans (worded_reg hs w (by decide))
  change exec (.nodeOpPrune f v) s = .next (busied QUE_NCMD.BUSY none (squashNode 4 h (pruning h .reg (worded w s)))) at e
  generalize pruning h .reg (worded w s) = p at e squash node0 prunes0 res0
  generalize squashNode 4 h p = u at e squash
  have life0 : (p.node h).life = 2 := congrArg Node.life node0
  obtain ⟨-, -, life, -⟩ := squash.node (by rw [life0]; decide) ((congrArg Node.badPar node0).trans hp1)
  have que := busied_que (u := u) (f := QUE_NCMD.BUSY) none
  obtain ⟨nodes, -, prunes⟩ := tables_of_que que
  refine ⟨_, e, busied_on (f := QUE_NCMD.BUSY) none squash.inv (by decide) (by decide), ?_, ?_, ?_⟩
  · rw [node_of_nodes nodes h]
    omega
  · rw [prunes, squash.prunes, prunes0]
    exact List.mem_append_right _ List.mem_cons_self
  · exact (busied_reg_other none squash.inv (by decide)).trans ((squash.reg _ (by decide)).trans res0)

end

end Sys2Proof.Machine

/-! The node operations together. -/

namespace Sys2Proof.Machine

theorem offQueue_host : ∀ g ∈ NC.host, offQueue g := by decide

theorem offQueue_replay : ∀ g ∈ [NC.RX_FC, NC.SEQ_VALID, NC.LAST_SEQ], offQueue g := by decide

theorem offQueue_drift : ∀ g ∈ NC.drift, offQueue g := by decide

section
variable {s : State} {f : Fn} {v : Word} (hs : s.inv = true) (hr : reaches s f QUE_NCMD.reg) (hb : s.on QUE_NCMD.BUSY = false)
  (hw : ncmdWaits s (NW.HANDLE.of v) = false) (hp : (s.node (NW.HANDLE.of v)).badPar = 0) (hl : (s.node (NW.HANDLE.of v)).life = 1)
include hs hr hb hw hp hl

/-- What an UPDATE leaves of the context, field by field (R184). -/
theorem nodeOpUpdate_fields (hgood : badField s (NW.HANDLE.of v) (NW.IMPORT.of v == 1) (ndata s) = false)
    (hpart : NC.PART.of (ndata s) = NC.PART.of (s.node (NW.HANDLE.of v)).ctx)
    (hok : (s.node (NW.HANDLE.of v)).poison = false ∨ (NW.IMPORT.of v == 1) = true)
    (h0 : (rekeyed (NW.HANDLE.of v) (ndata s) (s.node (NW.HANDLE.of v)).ctx s).2 = 0) :
    ∃ t, exec (.nodeOpUpdate f v) s = .next t ∧ (t.reg QUE_NRES.reg = BitVec.ofNat 32 0 ∧ t.on QUE_NCMD.BUSY = false) ∧
      (t.node (NW.HANDLE.of v)).poison = false ∧
      (∀ g ∈ NC.host, g.of (t.node (NW.HANDLE.of v)).ctx = g.of (ndata s)) ∧
      (NW.RESET_DUP.of v = 1 ∨ NC.KEY_SLOT.of (ndata s) ≠ NC.KEY_SLOT.of (s.node (NW.HANDLE.of v)).ctx →
        NC.RX_FC.of (t.node (NW.HANDLE.of v)).ctx = 0 ∧ NC.SEQ_VALID.of (t.node (NW.HANDLE.of v)).ctx = 0) ∧
      (NW.RESET_DUP.of v = 0 → NC.KEY_SLOT.of (ndata s) = NC.KEY_SLOT.of (s.node (NW.HANDLE.of v)).ctx → (NW.IMPORT.of v == 1) = false →
        NC.RX_FC.of (t.node (NW.HANDLE.of v)).ctx = NC.RX_FC.of (s.node (NW.HANDLE.of v)).ctx ∧
          NC.LAST_SEQ.of (t.node (NW.HANDLE.of v)).ctx = NC.LAST_SEQ.of (s.node (NW.HANDLE.of v)).ctx) ∧
      (NW.RESET_DRIFT.of v = 1 ∨ NC.CLASS.of (ndata s) ≠ NC.CLASS.of (s.node (NW.HANDLE.of v)).ctx →
        ∀ g ∈ NC.drift, g.of (t.node (NW.HANDLE.of v)).ctx = 0) ∧
      (s.que.index.Pairwise (fun a b => a.1 ≠ b.1) →
        (∀ k ∈ ctxPanKeys (s.node (NW.HANDLE.of v)).ctx, idxLookup s k.1 k.2 = some (NW.HANDLE.of v)) →
        ∀ a ∈ ctxKeys (ndata s), idxLookup t (NC.PAN.of (ndata s)) a = some (NW.HANDLE.of v)) ∧
      ((∀ p ∈ s.txc.ents, p.2.node ≠ some (NW.HANDLE.of v)) → (∀ d ∈ s.lnk.scheds, d.ent.node ≠ some (NW.HANDLE.of v)) →
        (t.node (NW.HANDLE.of v)).life = 1 ∧ t.que.nodes = sput s.que.nodes (NW.HANDLE.of v) (t.node (NW.HANDLE.of v)) ∧
        onlyRegs { s with que := t.que } t [QUE_NCMD.reg, QUE_NRES.reg, QUE_IDX_STS.reg]) := by
  obtain ⟨t, e, done, kept, look, idle⟩ := nodeOpUpdate_updates hs hr hb hw hp hl hgood hpart hok h0
  have life : (commandedNode v s).life = 1 := hl
  have par : (commandedNode v s).badPar = 0 := by
    unfold commandedNode updatedNode
    dsimp only
    rw [hp, ite_self]
  have poison : (commandedNode v s).poison = false := rfl
  have ctx : (commandedNode v s).ctx =
      updatedCtx (NW.IMPORT.of v == 1) (NW.RESET_DUP.of v == 1) (NW.RESET_DRIFT.of v == 1) (s.node (NW.HANDLE.of v)).ctx (ndata s) := rfl
  obtain ⟨-, tpoison, -, same⟩ := kept (by rw [life]; decide) par
  rw [ctx] at same
  refine ⟨t, e, done, tpoison.trans poison, fun g hg => ?_, fun hdup => ?_, fun hdup hkey himp => ?_, fun hdrift g hg => ?_, look, fun he hd => ?_⟩
  · exact (same g (offQueue_host g hg)).trans (updatedCtx_host hg _ _ _ _ _)
  · obtain ⟨fc, seq⟩ := updatedCtx_dup (hdup.imp_left beq_iff_eq.mpr) (NW.IMPORT.of v == 1) (NW.RESET_DRIFT.of v == 1)
    exact ⟨(same _ (offQueue_replay _ (by decide))).trans fc, (same _ (offQueue_replay _ (by decide))).trans seq⟩
  · have hdup0 : (NW.RESET_DUP.of v == 1) = false := by rw [hdup]; rfl
    obtain ⟨fc, seq⟩ := updatedCtx_keeps hkey (NW.RESET_DRIFT.of v == 1)
    rw [himp, hdup0] at same
    exact ⟨(same _ (offQueue_replay _ (by decide))).trans fc, (same _ (offQueue_replay _ (by decide))).trans seq⟩
  · exact (same g (offQueue_drift g hg)).trans (updatedCtx_drift (hdrift.imp_left beq_iff_eq.mpr) _ _ hg)
  · obtain ⟨node, nodes, only⟩ := idle he hd
    exact ⟨(congrArg Node.life node).trans life, nodes, only⟩

end

/-- Settles O32: an operation's word runs or waits, a state that an operation leaves differs from the one before in the tables it writes and in the
registers of its answer, and squashing keeps every field of a context but its queue's. -/
theorem nodeOperationsGiveTheirStatus : Obligations.NodeOperationsGiveTheirStatus := by
  intro f v s hs hr hb
  refine ⟨fun op c hc hw => nodeCommand_waits hs hr hb hc hw, fun hw hp => ⟨fun hl hgood h0 => ?_, fun k hk => ?_, fun hl hgood hpart hok h0 => ?_,
    fun k hl hk => ?_, fun hl c hc => ?_, fun hl => ?_, fun hl => ?_, fun hl => ?_, fun hl hpoison => ?_, fun hl hpoison => ?_⟩⟩
  · obtain ⟨t, e, done, node, look, nodes, only⟩ := nodeOpAdd_adds hs hr hb hw hl hgood h0
    have ctx := congrArg Node.ctx node
    obtain ⟨len, head⟩ := addedCtx_queue (NW.IMPORT.of v == 1) (ndata s)
    refine ⟨t, e, done, congrArg Node.life node, ?_, fun g hg => ?_, fun g hg => ?_, ?_, ?_, look, nodes, only⟩ <;> rw [ctx]
    · exact addedCtx_valid _ _
    · exact addedCtx_host hg _ _
    · exact addedCtx_commit hg _ _
    · exact len
    · exact head
  · exact nodeOpAdd_refuses hs hr hb hw hk
  · exact nodeOpUpdate_fields hs hr hb hw hp hl hgood hpart hok h0
  · exact nodeOpUpdate_refuses hs hr hb hw hp hl hk
  · simp only [List.mem_cons, List.not_mem_nil, or_false] at hc
    rcases hc with rfl | rfl | rfl
    · exact nodeCommand_invalid hs hr hb hw hp hl (update_mem f v) (by decide)
    · exact nodeCommand_invalid hs hr hb hw hp hl (prune_mem f v) (by decide)
    · exact nodeCommand_invalid hs hr hb hw hp hl (qset_mem f v) (by decide)
  · exact nodeOpPrune_begins hs hr hb hw hp hl
  · exact nodeOpRead_copies hs hr hb hw hp hl
  · exact nodeOpRead_invalid hs hr hb hw hp hl
  · exact nodeOpQset_poisoned hs hr hb hw hp hl hpoison
  · obtain ⟨t, e, done, ctx, only⟩ := nodeOpQset_sets hs hr hb hw hp hl hpoison
    have apart : ∀ g ∈ [NC.VALID, NC.HEAD, NC.QLEN, NC.KEY_SLOT, NC.RX_FC, NC.ANCHOR], g.apart NC.QHOLD ∧ g.apart NC.QOVR := by decide
    refine ⟨t, e, done, ?_, ?_, fun g hg => ?_, only⟩ <;> rw [ctx]
    · exact (qsetCtx_hold _ _ _).trans (flag_value rfl v)
    · rw [qsetCtx_ovr]
      simp only [beq_iff_eq]
    · exact qsetCtx_apart (apart g hg).1 (apart g hg).2 _ _ _

end Sys2Proof.Machine

/-! The end of pruning, the sweep, the NTW window and the reserve (R186, R196, R198, R204). -/

namespace Sys2Proof.Machine

/-! ## What the scan and the end of a queue leave -/

section
variable {h : Nat} {s : State} (hs : s.inv = true)
include hs

theorem handleStep_sweepCell (j k : Nat) : HandleStep h s (sweepCell j s k) := by
  have told : HandleStep h s (if (s.cell k).hdrCell then tellOrigin j k 0x10 s else s) := by
    split
    · exact handleStep_tellOrigin hs j k 0x10
    · exact .refl hs
  unfold sweepCell
  dsimp only
  split
  · exact told.trans (handleStep_freeCell told.inv k)
  · exact .refl hs

theorem handleStep_endQueue (j status : Nat) : HandleStep h s (endQueue j status s) := by
  have ended : ∀ l : List Nat, HandleStep h s (l.foldl (fun u hc => endItem j hc status (unlinkItem j hc u)) s) := fun l =>
    HandleStep.foldl (f := fun u hc => endItem j hc status (unlinkItem j hc u))
      (fun u hc hu => have gone := handleStep_setQueue hu j _; gone.trans (handleStep_endItem gone.inv j hc status)) l hs
  unfold endQueue
  dsimp only
  split
  · next hc _ =>
    have good := ended ((queueItems s j).takeWhile (fun hc => !badCell (s.cell hc)))
    have bad := good.trans (handleStep_cellParity good.inv hc)
    exact bad.trans (HandleStep.foldl (fun u k hu => handleStep_sweepCell hu j k) _ bad.inv)
  · exact ended _

end

/-- A queue whose head names no cell holds no item. -/
theorem queueItems_empty {s : State} {h : Nat} (hh : s.nc h NC.HEAD = 0xFFFFF) : queueItems s h = [] := by
  have none : itemsFrom s (255 + 1) noCell = [] := if_pos rfl
  rw [queueItems, hh]
  exact none

theorem endQueue_empty {s : State} {h : Nat} (hh : s.nc h NC.HEAD = 0xFFFFF) (status : Nat) : endQueue h status s = s := by
  unfold endQueue
  rw [queueItems_empty hh]
  rfl

theorem freeCell_sweeps (s : State) (k : Nat) : (freeCell s k).que.sweeps = s.que.sweeps := by
  unfold freeCell useLess
  split
  · rfl
  · split
    · rw [wr_que, setFree_que]
      rfl
    · dsimp only
      rw [setFree_que]
      rfl

/-- The scan leaves the contexts and the sweeps that run. -/
theorem sweepCell_tables (h : Nat) (s : State) (k : Nat) : ((sweepCell h s k).que.nodes, (sweepCell h s k).que.sweeps) = (s.que.nodes, s.que.sweeps) := by
  have told : (if (s.cell k).hdrCell then tellOrigin h k 0x10 s else s).que = s.que := by
    split
    · exact tellOrigin_que _ _ _ _
    · rfl
  unfold sweepCell
  dsimp only
  split
  · rw [freeCell_nodes, freeCell_sweeps, told]
  · rfl

/-! ## The end of pruning -/

/-- Node h is n, and no prune of it runs. -/
def released (h : Nat) (n : Node) (x : State) : State :=
  { x.setNode h n with que := { (x.setNode h n).que with prunes := x.que.prunes.filter (fun p => p.1 != h) } }

/-- The end of a prune counted and flagged (R186). -/
def pruneNoted (u : State) : State := (u.inc QUE_CNT_PRUNED.COUNT).raise 5 4

theorem pruneEnd_eq (h : Nat) (s : State) :
    pruneEnd h s = ((idxRemove h (endQueue h 0x12 s)).que.prunes.filter (fun p => p.1 == h)).foldl (fun u p => pruneTold p.2 u)
      (pruneNoted (released h {} (idxRemove h (endQueue h 0x12 s)))) := rfl

theorem idxRemove_que (h : Nat) (e : State) : (idxRemove h e).que = { e.que with index := e.que.index.filter (fun p => p.2.node != h) } := by
  rw [idxRemove, setIndex, wr_que]

theorem indexStep_idxRemove {e : State} (he : e.inv = true) (h : Nat) : IndexStep e (idxRemove h e) := indexStep_setIndex he _

section
variable (h : Nat) (n : Node) {x : State}

theorem released_que : (released h n x).que =
    { x.que with nodes := sset (fun _ => {}) x.que.nodes h n, prunes := x.que.prunes.filter (fun p => p.1 != h) } := rfl

theorem released_hst : (released h n x).hst = x.hst := rfl

theorem released_reg (a : Nat) : (released h n x).reg a = x.reg a := rfl

theorem inv_released (hx : x.inv = true) : (released h n x).inv = true := hx

end

theorem sset_default {α : Type} [DecidableEq α] (d : Nat → α) (m : Sparse α) (k : Nat) : sset d m k (d k) = sdel m k := if_pos rfl

section
variable {u : State}

theorem pruneNoted_que : (pruneNoted u).que = u.que := (raise_que _ 5 4).trans (wr_que _ _ _)

theorem pruneNoted_hst : (pruneNoted u).hst = u.hst := (raise_hst _ 5 4).trans (wr_hst _ _ _)

variable (hu : u.inv = true)
include hu

theorem inv_pruneNoted : (pruneNoted u).inv = true := inv_raise (inv_inc hu _) 5 4

theorem pruneNoted_count : (pruneNoted u).rd QUE_CNT_PRUNED.COUNT = min 0xFFFFFFFF (u.rd QUE_CNT_PRUNED.COUNT + 1) :=
  (raise_rd _ 5 4 QUE_CNT_PRUNED.COUNT (inv_inc hu _) (noPba_of_lt (by decide)) (by decide)).trans (rd_inc_same hu (by decide))

theorem pruneNoted_flagged : flagged (pruneNoted u) 5 4 := raise_flagged _ 5 4 QUE_EVT_STS.reg (inv_inc hu _) rfl (by decide)

/-- A result in QUE_NRES leaves the fabric's events. -/
theorem flagged_resulted {b : Nat} (hf : flagged u 5 b) (w : Word) : flagged (resulted w u) 5 b := by
  obtain ⟨r, e, hr⟩ := hf
  obtain rfl : QUE_EVT_STS.reg = r := Option.some.inj e
  have keeps := resulted_reg hu w (a := QUE_EVT_STS.reg) (by decide) (by decide)
  exact ⟨_, rfl, (rd_of_reg (f := ⟨QUE_EVT_STS.reg, b, 1⟩) keeps).trans hr⟩

end

section
variable {s : State} {h : Nat}

theorem exec_pruneComplete (hh : h < 65536) (hl : (s.node h).life = 2) (hc : pruneClear s h = true) :
    exec (.pruneComplete h) s = .next (pruneEnd h s) :=
  (if_pos (decide_eq_true hh)).trans (congrArg _ (if_pos ⟨hl, hc⟩))

theorem exec_pruneComplete_stays (hh : h < 65536) (hn : (s.node h).life ≠ 2 ∨ pruneClear s h = false) : exec (.pruneComplete h) s = .next s :=
  (if_pos (decide_eq_true hh)).trans (congrArg _ (if_neg fun e => hn.elim (fun n => n e.1) (fun n => by simp [n] at e)))

variable (hs : s.inv = true)
include hs

/-- The end of pruning, told through QUE_NRES (R186). -/
theorem pruneEnd_told (hp : s.que.prunes.filter (fun p => p.1 == h) = [(h, .reg)]) :
    (∀ k ∈ (pruneEnd h s).que.index, k.2.node ≠ h) ∧ (∀ p ∈ (pruneEnd h s).que.prunes, p.1 ≠ h) ∧
      (pruneEnd h s).rd QUE_CNT_PRUNED.COUNT = min 0xFFFFFFFF (s.rd QUE_CNT_PRUNED.COUNT + 1) ∧ flagged (pruneEnd h s) 5 4 ∧
      (pruneEnd h s).on QUE_NCMD.BUSY = false ∧ (pruneEnd h s).reg QUE_NRES.reg = 0 ∧
      (s.nc h NC.HEAD = 0xFFFFF → (pruneEnd h s).que.nodes = sdel s.que.nodes h) := by
  have step : HandleStep h s (endQueue h 0x12 s) := handleStep_endQueue hs h 0x12
  have run : pruneEnd h s = resulted 0 (pruneNoted (released h {} (idxRemove h (endQueue h 0x12 s)))) := by
    rw [pruneEnd_eq, idxRemove_que, step.prunes, hp]
    rfl
  have empty : s.nc h NC.HEAD = 0xFFFFF → endQueue h 0x12 s = s := fun hh => endQueue_empty hh 0x12
  rw [run]
  generalize endQueue h 0x12 s = e at step empty
  have index := indexStep_idxRemove step.inv h
  have hr := inv_released h {} index.inv
  have hn := inv_pruneNoted hr
  obtain ⟨res, busy⟩ := resulted_done hn 0
  have count : (released h {} (idxRemove h e)).rd QUE_CNT_PRUNED.COUNT = s.rd QUE_CNT_PRUNED.COUNT :=
    rd_of_reg ((released_reg h {} _).trans ((index.reg _ (by decide)).trans (step.reg _ (by decide))))
  rw [resulted_que, pruneNoted_que, released_que, idxRemove_que]
  refine ⟨fun k hk => ?_, fun p hp => ?_, ?_, flagged_resulted hn (pruneNoted_flagged hr) 0, busy, res, fun hh => ?_⟩
  · exact bne_iff_ne.mp (List.mem_filter.mp hk).2
  · exact bne_iff_ne.mp (List.mem_filter.mp hp).2
  · rw [rd_of_reg (f := QUE_CNT_PRUNED.COUNT) (resulted_reg hn 0 (by decide) (by decide)), pruneNoted_count hr, count]
  · rw [empty hh]
    dsimp only
    exact sset_default (fun _ => ({} : Node)) s.que.nodes h

end

/-! ## The requester's completion -/

/-- The fields of a completion entry (R276). -/
def cqFlds : List Fld := [CQ.TAG, CQ.STATUS, CQ.KIND, CQ.DETAIL, CQ.ATTEMPTS, CQ.NODE, CQ.VALUE, CQ.RESULT, CQ.ATB]

/-- A completion entry holds its command's tag and the outcome's status (R276). -/
theorem cqEntry_tag_status (s : State) (q tag kind status detail attempts node value result : Nat) :
    CQ.TAG.of (cqEntry s q tag kind status detail attempts node value result) = tag % 2 ^ 16 ∧
      CQ.STATUS.of (cqEntry s q tag kind status detail attempts node value result) = status % 2 ^ 8 := by
  have fits : ∀ f ∈ cqFlds, f.lo + f.w ≤ 256 := by decide
  have apart : cqFlds.Pairwise Fld.apart := by decide
  have entry : ∀ (f : Fld) (v : Nat) (vs : List (Fld × Nat)), vs.map (·.1) = cqFlds → (f, v) ∈ vs → f.of (putAll (0 : BitVec 256) vs) = v % 2 ^ f.w :=
    fun f v vs e hm => of_putAll_mem vs 0 (fun p hp => fits p.1 (e ▸ List.mem_map.mpr ⟨p, hp, rfl⟩)) (List.pairwise_map.mp (e ▸ apart)) hm
  exact ⟨entry CQ.TAG tag _ rfl List.mem_cons_self, entry CQ.STATUS status _ rfl (List.mem_cons_of_mem _ List.mem_cons_self)⟩

/-- A command without duplicates whose port stays open has its one completion ready (R276, R277). -/
theorem complete_ready {u : State} {x : Nat} {c : Ctx} (hc : u.ctx x = some c) (hst : c.stage ≠ 2) (hopen : (u.port c.port).closing = false)
    (hdup : ∀ q ∈ u.hst.ctxs, q.2.dupOf ≠ some x) (status : Nat) :
    (u.complete x status 0 0 0 0).hst.ready = u.hst.ready ++
      [⟨c.port, x, u.hst.rseq, cqEntry u c.port (SQ.TAG.of c.sq) 0 status 0 0 (SQ.NODE.of c.sq) 0 0⟩] := by
  have alone : u.hst.ctxs.filter (fun p => p.2.dupOf == some x && p.2.stage != 2) = [] :=
    List.filter_eq_nil_iff.mpr fun q hq => by simp [hdup q hq]
  have done : u.complete x status 0 0 0 0 = readyCtx x c status 0 0 0 0 u := by
    unfold State.complete
    rw [hc]
    dsimp only
    rw [if_neg hst, alone]
    rfl
  rw [done, readyCtx, hopen, if_neg Bool.false_ne_true]
  rfl

/-- The end of pruning, told to a command of the host (R186, R276). -/
theorem pruneEnd_completes {s : State} {h x : Nat} {c : Ctx} (hp : s.que.prunes.filter (fun p => p.1 == h) = [(h, .host x)])
    (hc : s.ctx x = some c) (hst : c.stage = 1) (hopen : (s.port c.port).closing = false) (hdup : ∀ q ∈ s.hst.ctxs, q.2.dupOf ≠ some x)
    (hh : s.nc h NC.HEAD = 0xFFFFF) :
    ∃ r, (pruneEnd h s).hst.ready = s.hst.ready ++ [r] ∧ r.ctx = x ∧ CQ.STATUS.of r.entry = 0 ∧ CQ.TAG.of r.entry = SQ.TAG.of c.sq := by
  have run : pruneEnd h s = (pruneNoted (released h {} (idxRemove h s))).complete x 0 0 0 0 0 := by
    rw [pruneEnd_eq, endQueue_empty hh, idxRemove_que, hp]
    rfl
  have hst0 : (pruneNoted (released h {} (idxRemove h s))).hst = s.hst := by
    rw [pruneNoted_hst, released_hst, idxRemove, setIndex, wr_hst]
  rw [run]
  generalize pruneNoted (released h {} (idxRemove h s)) = u at hst0
  have ctx : u.ctx x = some c := by
    rw [State.ctx, hst0]
    exact hc
  have port : (u.port c.port).closing = false := by
    rw [State.port, hst0]
    exact hopen
  obtain ⟨tag, status⟩ := cqEntry_tag_status u c.port (SQ.TAG.of c.sq) 0 0 0 0 (SQ.NODE.of c.sq) 0 0
  refine ⟨_, (complete_ready ctx (by rw [hst]; decide) port (by rw [hst0]; exact hdup) 0).trans (by rw [hst0]), rfl, status, ?_⟩
  exact tag.trans (Nat.mod_eq_of_lt (of_lt SQ.TAG c.sq))

/-! ## The sweep -/

/-- The context of node h after its sweep (R196). -/
def sweptCtx (staged : Nat) (x : BitVec 512) : BitVec 512 := NC.QOVR.put (NC.QLEN.put (emptyQueue x) staged) (NC.QOVR.of x)

/-- The state in which the cells that staging does not hold have been scanned (R196). -/
def scanned (h : Nat) (s : State) : State :=
  ((skeys s.que.cells).filter (fun k => !((stagedOf s h).flatMap (itemCells s)).contains k)).foldl (sweepCell h) s

/-- The state with a context written and the sweeps given. -/
def sweptTo (h : Nat) (n : Node) (sw : List Nat) (u : State) : State :=
  { u.setNode h n with que := { (u.setNode h n).que with sweeps := sw } }

section
variable {s : State} {h : Nat}

theorem sweptCtx_eq (staged : Nat) (x : BitVec 512) :
    sweptCtx staged x = (NC.QLEN.put (emptyQueue x) staged |> fun y => NC.QOVR.put y (NC.QOVR.of x)) := rfl

theorem sweptTo_noted (f : RegFld) (h : Nat) (n : Node) (u : State) :
    ((sweptTo h n (u.que.sweeps.filter (fun j => j != h)) u).wr f (if (u.que.sweeps.filter (fun j => j != h)).isEmpty then 0 else 1)).raise 5 5 =
      let s2 := u.setNode h n
      let sw := s2.que.sweeps.filter (fun j => j != h)
      ({ s2 with que := { s2.que with sweeps := sw } }.wr f (if sw.isEmpty then 0 else 1)).raise 5 5 := rfl

theorem sweepDone_eq (hl : (s.node h).life = 3) :
    sweepDone h s =
      ((sweptTo h { (scanned h s).node h with life := 1, ctx := sweptCtx (stagedOf s h).length ((scanned h s).node h).ctx }
        ((scanned h s).que.sweeps.filter (fun j => j != h)) (scanned h s)).wr QUE_STS.SWEEP
          (if ((scanned h s).que.sweeps.filter (fun j => j != h)).isEmpty then 0 else 1)).raise 5 5 := by
  rw [sweptTo_noted, sweptCtx_eq]
  exact if_pos hl

theorem scanned_tables (h : Nat) (s : State) : (scanned h s).que.nodes = s.que.nodes ∧ (scanned h s).que.sweeps = s.que.sweeps :=
  Prod.mk.inj (foldl_same (fun u : State => (u.que.nodes, u.que.sweeps)) (sweepCell h) _ s (sweepCell_tables h))

theorem inv_scanned (hs : s.inv = true) (h : Nat) : (scanned h s).inv = true :=
  (HandleStep.foldl (h := h) (fun _ k hu => handleStep_sweepCell hu h k) _ hs).inv

theorem sweptTo_sweeps (n : Node) (sw : List Nat) (u : State) : (sweptTo h n sw u).que.sweeps = sw := rfl

theorem sweptTo_node {n : Node} (hn : n ≠ {}) (sw : List Nat) (u : State) : (sweptTo h n sw u).node h = n := node_setNode_same hn u h

theorem inv_sweptTo {u : State} (hu : u.inv = true) (n : Node) (sw : List Nat) : (sweptTo h n sw u).inv = true := hu

theorem sweptCtx_queue (staged : Nat) (x : BitVec 512) :
    NC.HEAD.of (sweptCtx staged x) = 0xFFFFF ∧ NC.QLEN.of (sweptCtx staged x) = staged % 256 ∧ NC.QOVR.of (sweptCtx staged x) = NC.QOVR.of x := by
  refine ⟨?_, ?_, ?_⟩
  · exact (of_put_apart (by decide) (by decide) _ _).trans ((of_put_apart (by decide) (by decide) _ _).trans (of_emptyQueue x).2)
  · exact (of_put_apart (by decide) (by decide) _ _).trans (of_put_same (by decide) _ _)
  · exact (of_put_same (by decide) _ _).trans (Nat.mod_eq_of_lt (of_lt NC.QOVR x))

theorem host_apart_swept : ∀ g ∈ NC.host, (g.apart NC.QOVR ∧ g.apart NC.QLEN) ∧ ∀ f ∈ emptyFlds, f.lo + f.w ≤ 512 ∧ g.apart f := by decide +kernel

theorem sweptCtx_host {g : Fld} (hg : g ∈ NC.host) (staged : Nat) (x : BitVec 512) : g.of (sweptCtx staged x) = g.of x := by
  obtain ⟨⟨ovr, len⟩, queue⟩ := host_apart_swept g hg
  exact (of_put_apart (by decide) ovr _ _).trans ((of_put_apart (by decide) len _ _).trans (of_emptyQueue_apart queue x))

theorem exec_sweepDone (hh : h < 65536) : exec (.sweepDone h) s = .next (sweepDone h s) := if_pos (decide_eq_true hh)

/-- A swept node is ACTIVE with an empty queue (R196). -/
theorem sweepDone_spec (hs : s.inv = true) (hl : (s.node h).life = 3) :
    (sweepDone h s).node h = { s.node h with life := 1, ctx := sweptCtx (stagedOf s h).length (s.node h).ctx } ∧
      (sweepDone h s).que.sweeps = s.que.sweeps.filter (fun j => j != h) ∧
      (sweepDone h s).on QUE_STS.SWEEP = !(s.que.sweeps.filter (fun j => j != h)).isEmpty ∧ flagged (sweepDone h s) 5 5 := by
  obtain ⟨nodes, sweeps⟩ := scanned_tables h s
  have node : (scanned h s).node h = s.node h := node_of_nodes nodes h
  have scan := inv_scanned hs h
  rw [sweepDone_eq hl, node, sweeps]
  generalize scanned h s = u at scan
  generalize s.que.sweeps.filter (fun j => j != h) = sw
  generalize hn : ({ s.node h with life := 1, ctx := sweptCtx (stagedOf s h).length (s.node h).ctx } : Node) = n
  have ne : n ≠ {} := ne_empty_of_life (by rw [← hn]; exact Nat.one_ne_zero)
  have set := inv_sweptTo (h := h) scan n sw
  have flag : (if sw.isEmpty then 0 else 1) < 2 := by split <;> decide
  have shown := inv_wr set QUE_STS.SWEEP (if sw.isEmpty then 0 else 1)
  refine ⟨?_, ?_, ?_, raise_flagged _ 5 5 QUE_EVT_STS.reg shown rfl (by decide)⟩
  · refine (node_of_que ?_ h).trans (sweptTo_node ne sw u)
    rw [raise_que, wr_que]
  · rw [raise_que, wr_que, sweptTo_sweeps]
  · rw [State.on, raise_rd _ 5 5 QUE_STS.SWEEP shown (noPba_of_lt (by decide)) (by decide), rd_wr_fits set (by decide) flag]
    cases sw <;> rfl

end

/-! ## The NTW window -/

section
variable {s : State} {h : Nat}

theorem ntwTake_good (hp : (s.node h).badPar = 0) :
    ntwTake h s = { s with que := { s.que with ntwShadow := if (s.node h).life = 0 then 0 else (s.node h).ctx, ntwOf := some h } } := by
  unfold ntwTake
  rw [ctxCheck_good hp]

/-- A read of word 0 by the physical function captures the context (R198). -/
theorem exec_ntwCapture (hh : h < 65536) (hm : s.pwr.mode = 0) (hv : s.hidden .pf (0x1000000 + 64 * h) = false) (hp : (s.node h).badPar = 0) :
    exec (.ntwCapture .pf h) s =
      .next { s with que := { s.que with ntwShadow := if (s.node h).life = 0 then 0 else (s.node h).ctx, ntwOf := some h },
                     posted := s.posted ++ [Posted.readData (BitVec.ofNat 32 (bf (if (s.node h).life = 0 then 0 else (s.node h).ctx) 0 32))] } := by
  refine (if_pos (decide_eq_true hh)).trans (congrArg _ ?_)
  rw [if_neg (not_not_intro hm), if_neg (not_not_intro rfl), hv, if_neg Bool.false_ne_true, ntwCapture, ntwTake_good hp]
  rfl

/-- A virtual function's read of the window is refused (R198). -/
theorem exec_ntwCapture_vf (hh : h < 65536) (hm : s.pwr.mode = 0) (n : Nat) :
    exec (.ntwCapture (.vf n) h) s = .next ((s.bark n 1 0 (0x1000000 + 64 * h)).post (.readData 0)) := by
  refine (if_pos (decide_eq_true hh)).trans (congrArg _ ?_)
  rw [if_neg (not_not_intro hm), if_pos (fun e : Fn.vf n = .pf => nomatch e)]
  rfl

variable {off : Nat} {v : Word}

theorem exec_ntwWrite_vf (hoff : off < 0x400000) (hm : s.pwr.mode = 0) (n : Nat) :
    exec (.ntwWrite (.vf n) off v) s = .next (s.bark n 1 0 (0x1000000 + off)) := by
  refine (if_pos (decide_eq_true hoff)).trans (congrArg _ ?_)
  rw [if_neg (fun e : Fn.vf n = .pf => nomatch e), if_neg (not_not_intro hm)]
  rfl

theorem exec_ntwWrite_pf (hoff : off < 0x400000) (hm : s.pwr.mode = 0) (hv : s.hidden .pf (0x1000000 + off) = false) :
    exec (.ntwWrite .pf off v) s = .next (ntwWrite s) := by
  refine (if_pos (decide_eq_true hoff)).trans (congrArg _ ?_)
  rw [if_pos rfl, State.reach, if_neg (not_not_intro hm), hv, if_neg Bool.false_ne_true]

/-- A write to the window is counted and flagged, and nothing more (R198). -/
theorem ntwWrite_spec (hs : s.inv = true) :
    flagged (ntwWrite s) 5 3 ∧ (ntwWrite s).rd QUE_CNT_NTW_WR.COUNT = min 0xFFFFFFFF (s.rd QUE_CNT_NTW_WR.COUNT + 1) ∧
      raisedOnly s (ntwWrite s) [QUE_CNT_NTW_WR.reg, QUE_EVT_STS.reg] := by
  have counted := inv_inc hs QUE_CNT_NTW_WR.COUNT
  refine ⟨raise_flagged _ 5 3 QUE_EVT_STS.reg counted rfl (by decide), ?_, ?_⟩
  · exact (raise_rd _ 5 3 QUE_CNT_NTW_WR.COUNT counted (noPba_of_lt (by decide)) (by decide)).trans (rd_inc_same hs (by decide))
  · exact raisedOnly_trans (inc_raisedOnly hs _) (raise_raisedOnly _ 5 3 QUE_EVT_STS.reg counted rfl)

end

/-! ## The reserve -/

/-- A field takes what fits of the value written. -/
theorem wr_mod (s : State) (f : RegFld) (v : Nat) : s.wr f (v % 2 ^ f.w) = s.wr f v := by
  unfold State.wr bfSet
  rw [Nat.mod_mod]

section
variable {s : State} {f : Fn} {v : Nat}

theorem exec_rxReserveWrite (hr : reaches s f QUE_RX_RESERVE.reg) : exec (.rxReserveWrite f v) s = .next (rxReserveWrite v s) :=
  congrArg Host.Outcome.next (p0Only_reaches hr _)

theorem reserve_locked : s.locked QUE_RX_RESERVE.reg = s.on QUE_CTRL.LOCK := rfl

theorem rxReserveWrite_locked (hl : s.on QUE_CTRL.LOCK = true) : rxReserveWrite v s = s := if_pos (reserve_locked.trans hl)

variable (hl : s.on QUE_CTRL.LOCK = false)
include hl

theorem rxReserveWrite_open :
    rxReserveWrite v s = if 786432 < cellGuarSum s + v % 2 ^ 20 then mapErr 0x000C true s else s.wr QUE_RX_RESERVE.CELLS v := by
  rw [rxReserveWrite, reserve_locked, hl, if_neg Bool.false_ne_true]

theorem rxReserveWrite_sets (hs : s.inv = true) (hv : cellGuarSum s + v % 2 ^ 20 ≤ 786432) :
    sets s (rxReserveWrite v s) QUE_RX_RESERVE.CELLS (v % 2 ^ 20) := by
  rw [rxReserveWrite_open hl, if_neg (by omega), ← wr_mod]
  exact wr_sets s QUE_RX_RESERVE.CELLS (v % 2 ^ 20) hs (by decide) (Nat.mod_lt _ (Nat.two_pow_pos 20))

/-- PRT_MAP_ERR keeps the offset of a refused write to the queue block, with its event (R204). -/
theorem rxReserveWrite_refuses (hs : s.inv = true) (hv : 786432 < cellGuarSum s + v % 2 ^ 20) :
    (rxReserveWrite v s).rd PRT_MAP_ERR.OFFSET = 0xC ∧ (rxReserveWrite v s).rd PRT_MAP_ERR.QUE = 1 ∧ (rxReserveWrite v s).rd PRT_MAP_ERR.SET = 1 ∧
      flagged (rxReserveWrite v s) 7 2 ∧ raisedOnly s (rxReserveWrite v s) [PRT_MAP_ERR.reg, PRT_EVT_STS.reg] := by
  have run : rxReserveWrite v s = (((s.wr PRT_MAP_ERR.OFFSET 0xC).wr PRT_MAP_ERR.QUE 1).wr PRT_MAP_ERR.SET 1).raise 7 2 := by
    rw [rxReserveWrite_open hl, if_pos hv, mapErr, if_pos rfl]
  have h1 := inv_wr hs PRT_MAP_ERR.OFFSET 0xC
  have h2 := inv_wr h1 PRT_MAP_ERR.QUE 1
  have h3 := inv_wr h2 PRT_MAP_ERR.SET 1
  have logged := raisedOnly_trans (raisedOnly_trans (wr_raisedOnly s PRT_MAP_ERR.OFFSET 0xC hs) (wr_raisedOnly _ PRT_MAP_ERR.QUE 1 h1))
    (wr_raisedOnly _ PRT_MAP_ERR.SET 1 h2)
  have offset : (((s.wr PRT_MAP_ERR.OFFSET 0xC).wr PRT_MAP_ERR.QUE 1).wr PRT_MAP_ERR.SET 1).rd PRT_MAP_ERR.OFFSET = 0xC := by
    rw [rd_wr_apart h2 (by decide) (by decide), rd_wr_apart h1 (by decide) (by decide), rd_wr_fits hs (by decide) (by decide)]
  have que : (((s.wr PRT_MAP_ERR.OFFSET 0xC).wr PRT_MAP_ERR.QUE 1).wr PRT_MAP_ERR.SET 1).rd PRT_MAP_ERR.QUE = 1 := by
    rw [rd_wr_apart h2 (by decide) (by decide), rd_wr_fits h1 (by decide) (by decide)]
  have set := rd_wr_fits (f := PRT_MAP_ERR.SET) (v := 1) h2 (by decide) (by decide)
  rw [run]
  generalize ((s.wr PRT_MAP_ERR.OFFSET 0xC).wr PRT_MAP_ERR.QUE 1).wr PRT_MAP_ERR.SET 1 = u at h3 logged offset que set
  have keeps : ∀ g : RegFld, g.addr = PRT_MAP_ERR.reg → (u.raise 7 2).rd g = u.rd g := fun g hg =>
    raise_rd u 7 2 g h3 (noPba_of_lt (by rw [hg]; decide)) (by rw [hg]; decide)
  exact ⟨(keeps _ rfl).trans offset, (keeps _ rfl).trans que, (keeps _ rfl).trans set, raise_flagged u 7 2 PRT_EVT_STS.reg h3 rfl (by decide),
    raisedOnly_sub (raisedOnly_trans logged (raise_raisedOnly u 7 2 PRT_EVT_STS.reg h3 rfl)) (by decide)⟩

end

/-- Settles O33: what ends in a queue leaves the index, the prunes and the registers of node operations, and the scan leaves the contexts and the
sweeps that run. -/
theorem pruneSweepWindowAndReserve : Obligations.PruneSweepWindowAndReserve := by
  intro f s h hs hh
  refine ⟨fun hl hc => ⟨fun hp => ⟨_, exec_pruneComplete hh hl hc, pruneEnd_told hs hp⟩, fun x c hp hctx hst hopen hdup hhead => ?_⟩,
    exec_pruneComplete_stays hh, fun hl => (exec_sweepDone hh).trans (congrArg _ (if_neg hl)), fun hl => ?_,
    fun hm hv hp => exec_ntwCapture hh hm hv hp, fun n _ _ hm => exec_ntwCapture_vf hh hm n, fun n off v _ _ hoff hm => exec_ntwWrite_vf hoff hm n,
    fun off v hoff hm hv => ⟨_, exec_ntwWrite_pf hoff hm hv, ntwWrite_spec hs⟩,
    fun v hr => ⟨fun hlock => (exec_rxReserveWrite hr).trans (congrArg _ (rxReserveWrite_locked hlock)),
      fun hlock hsum => ⟨_, exec_rxReserveWrite hr, rxReserveWrite_sets hlock hs hsum⟩,
      fun hlock hsum => ⟨_, exec_rxReserveWrite hr, rxReserveWrite_refuses hlock hs hsum⟩⟩⟩
  · obtain ⟨r, ready⟩ := pruneEnd_completes hp hctx hst hopen hdup hhead
    exact ⟨_, r, exec_pruneComplete hh hl hc, ready⟩
  · obtain ⟨node, sweeps, shown, flag⟩ := sweepDone_spec hs hl
    have ctx := congrArg Node.ctx node
    obtain ⟨head, len, ovr⟩ := sweptCtx_queue (stagedOf s h).length (s.node h).ctx
    refine ⟨_, exec_sweepDone hh, congrArg Node.life node, ?_, ?_, ?_, fun g hg => ?_, sweeps, ?_, flag⟩
    · rw [ctx, head]
    · rw [ctx, len]
    · rw [ctx, ovr]
      rfl
    · rw [ctx, sweptCtx_host hg]
    · rw [shown, sweeps]

end Sys2Proof.Machine

/-! The partition map, the shares, partition enable and the fault log (R202, R204, R212, R439). -/

namespace Sys2Proof.Machine

/-! ## PRT_MAP_ERR -/

/-- A refused write leaves its offset and block in PRT_MAP_ERR, with the event, and changes nothing else (R204, R212). -/
theorem mapErr_spec {s : State} (hs : s.inv = true) {off : Nat} (hoff : off < 0x10000) (que : Bool) :
    (mapErr off que s).rd PRT_MAP_ERR.OFFSET = off ∧ (mapErr off que s).rd PRT_MAP_ERR.QUE = (if que then 1 else 0) ∧
      (mapErr off que s).rd PRT_MAP_ERR.SET = 1 ∧ flagged (mapErr off que s) 7 2 ∧
      raisedOnly s (mapErr off que s) [PRT_MAP_ERR.reg, PRT_EVT_STS.reg] := by
  have hque : (if que then 1 else 0) < 2 := by split <;> decide
  unfold mapErr
  generalize (if que then 1 else 0) = q at hque
  have h1 := inv_wr hs PRT_MAP_ERR.OFFSET off
  have h2 := inv_wr h1 PRT_MAP_ERR.QUE q
  have h3 := inv_wr h2 PRT_MAP_ERR.SET 1
  have logged := raisedOnly_trans (raisedOnly_trans (wr_raisedOnly s PRT_MAP_ERR.OFFSET off hs) (wr_raisedOnly _ PRT_MAP_ERR.QUE q h1))
    (wr_raisedOnly _ PRT_MAP_ERR.SET 1 h2)
  have keeps : ∀ g : RegFld, g.addr = PRT_MAP_ERR.reg → ∀ u : State, u.inv = true → (u.raise 7 2).rd g = u.rd g := fun g hg u hu =>
    raise_rd u 7 2 g hu (noPba_of_lt (by rw [hg]; decide)) (by rw [hg]; decide)
  refine ⟨?_, ?_, ?_, raise_flagged _ 7 2 PRT_EVT_STS.reg h3 rfl (by decide),
    raisedOnly_sub (raisedOnly_trans logged (raise_raisedOnly _ 7 2 PRT_EVT_STS.reg h3 rfl)) (by decide)⟩
  · rw [keeps _ rfl _ h3, rd_wr_apart h2 (by decide) (by decide), rd_wr_apart h1 (by decide) (by decide), rd_wr_fits hs (by decide) hoff]
  · rw [keeps _ rfl _ h3, rd_wr_apart h2 (by decide) (by decide), rd_wr_fits h1 (by decide) hque]
  · rw [keeps _ rfl _ h3, rd_wr_fits h2 (by decide) (by decide)]

/-! ## The map -/

section
variable {s : State} {off : Nat} {idle : Bool} {v : Word}

theorem lt_of_mapIdle (hm : mapIdle s off = some idle) : off < 0x32C0 := by
  by_contra h
  unfold mapIdle at hm
  repeat rw [if_neg (by omega)] at hm
  exact nomatch hm

theorem exec_mapEntryWrite {f : Fn} (hm : mapIdle s off = some idle) (ha : off % 4 = 0) (hr : reaches s f (0x700000 + off)) :
    exec (.mapEntryWrite f off v) s = .next (mapEntryWrite off idle v s) := by
  refine (ranged_p0Only (Bool.and_eq_true_iff.mpr ⟨by rw [hm]; rfl, beq_iff_eq.mpr ha⟩) hr _).trans ?_
  rw [hm]
  rfl

/-- An entry of an idle resource, or one whose owner stays, is written by its fields' types (R212). -/
theorem mapEntryWrite_takes (h : idle = true ∨ (s.regWrite (0x700000 + off) v).ownerAt (0x700000 + off) = s.ownerAt (0x700000 + off)) :
    mapEntryWrite off idle v s = s.regWrite (0x700000 + off) v :=
  if_neg fun ⟨changes, busy⟩ => h.elim (fun e => by rw [e] at busy; exact nomatch busy) changes

/-- The owner of a resource in use does not change (R212). -/
theorem mapEntryWrite_refuses (hi : idle = false)
    (ho : (s.regWrite (0x700000 + off) v).ownerAt (0x700000 + off) ≠ s.ownerAt (0x700000 + off)) : mapEntryWrite off idle v s = mapErr off false s :=
  if_pos ⟨ho, by rw [hi]; rfl⟩

end

/-! ## The four sums of R204 -/

/-- What the partitions share under a guarantee (R204). -/
inductive Share where
  | lanes | cells | air | leave

/-- The guarantees of a kind, with what is kept back of it, do not exceed what the device has (R204). -/
def Share.holds (u : State) : Share → Prop
  | .lanes => guarSum u PRT_P_LANE.GUAR ≤ 512
  | .cells => guarSum u PRT_P_CELL_GUAR.GUAR + u.rd QUE_RX_RESERVE.CELLS ≤ 786432
  | .air => guarSum u PRT_P_AIR_GUAR.GUAR ≤ u.rd PRT_AIR_TOTAL.TICKS
  | .leave => guarSum u PRT_P_PWR.GUAR ≤ u.budget 1

/-- The registers that a kind's sum reads. -/
def Share.reads (a : Nat) : Share → Prop
  | .lanes => ∃ p < 64, a = PRT_P_LANE.reg p
  | .cells => (∃ p < 64, a = PRT_P_CELL_GUAR.reg p) ∨ a = QUE_RX_RESERVE.reg
  | .air => (∃ p < 64, a = PRT_P_AIR_GUAR.reg p) ∨ a = PRT_AIR_TOTAL.reg
  | .leave => ∃ p < 64, a = PRT_P_PWR.reg p

/-- The kind of the share register at an offset of PRT. -/
def shareKind (off : Nat) : Share :=
  if off = 0x28 then .air
  else if (off - 0x100) % 32 = 4 then .lanes
  else if (off - 0x100) % 32 = 8 ∨ (off - 0x100) % 32 = 0xC then .cells
  else if (off - 0x100) % 32 = 0x10 ∨ (off - 0x100) % 32 = 0x14 then .air
  else .leave

theorem shareEntry_iff (off : Nat) : shareEntry off = true ↔ off = 0x28 ∨ (0x100 ≤ off ∧ off < 0x900) ∧
    ((off - 0x100) % 32 = 4 ∨ (off - 0x100) % 32 = 8 ∨ (off - 0x100) % 32 = 0xC ∨ (off - 0x100) % 32 = 0x10 ∨ (off - 0x100) % 32 = 0x14 ∨
      (off - 0x100) % 32 = 0x18) := by
  simp [shareEntry]

/-- The sum that a share write is judged by is that of the register's kind. -/
theorem sumsOk_shareKind {u : State} {off : Nat} (he : shareEntry off = true) (hok : sumsOk u off ≠ some false) : (shareKind off).holds u := by
  have said : ∀ {P : Prop} {_ : Decidable P}, some (decide P) ≠ some false → P := fun h => by simpa using h
  have entry := (shareEntry_iff off).mp he
  unfold sumsOk at hok
  unfold shareKind
  dsimp only at hok
  by_cases total : off = 0x28
  · rw [if_pos total] at hok ⊢
    exact said hok
  have inside : ¬(off < 0x100 ∨ 0x900 ≤ off) := by omega
  rw [if_neg total, if_neg inside] at hok
  rw [if_neg total]
  generalize (off - 0x100) % 32 = k at hok entry ⊢
  by_cases lanes : k = 4
  · rw [if_pos lanes] at hok ⊢
    exact said hok
  rw [if_neg lanes] at hok ⊢
  by_cases cells : k = 8 ∨ k = 0xC
  · rw [if_pos cells] at hok ⊢
    exact said hok
  rw [if_neg cells] at hok ⊢
  by_cases air : k = 0x10 ∨ k = 0x14
  · rw [if_pos air] at hok ⊢
    exact said hok
  rw [if_neg air] at hok ⊢
  rw [if_pos (by omega)] at hok
  exact said hok

/-- A share register is read by the sum of its own kind alone. -/
theorem shareKind_of_reads {k : Share} {off : Nat} (he : shareEntry off = true) (hk : k.reads (0x700000 + off)) : shareKind off = k := by
  have entry := (shareEntry_iff off).mp he
  unfold shareKind
  cases k with
  | lanes =>
    obtain ⟨p, hp, e⟩ := hk
    unfold PRT_P_LANE.reg at e
    rw [if_neg (by omega), if_pos (by omega)]
  | cells =>
    have e : ∃ p < 64, off = 0x108 + 0x20 * p := by
      obtain ⟨p, hp, e⟩ | e := hk
      · unfold PRT_P_CELL_GUAR.reg at e
        exact ⟨p, hp, by omega⟩
      · unfold QUE_RX_RESERVE.reg at e
        omega
    obtain ⟨p, hp, e⟩ := e
    rw [if_neg (by omega), if_neg (by omega), if_pos (by omega)]
  | air =>
    obtain ⟨p, hp, e⟩ | e := hk
    · unfold PRT_P_AIR_GUAR.reg at e
      rw [if_neg (by omega), if_neg (by omega), if_neg (by omega), if_pos (by omega)]
    · unfold PRT_AIR_TOTAL.reg at e
      rw [if_pos (by omega)]
  | leave =>
    obtain ⟨p, hp, e⟩ := hk
    unfold PRT_P_PWR.reg at e
    rw [if_neg (by omega), if_neg (by omega), if_neg (by omega), if_neg (by omega)]

/-- The reserve is read by the sum of the cells alone. -/
theorem Share.eq_cells_of_reads {k : Share} (hk : k.reads QUE_RX_RESERVE.reg) : k = .cells := by
  unfold QUE_RX_RESERVE.reg at hk
  cases k with
  | cells => rfl
  | lanes =>
    obtain ⟨p, -, e⟩ := hk
    unfold PRT_P_LANE.reg at e
    omega
  | air =>
    obtain ⟨p, -, e⟩ | e := hk
    · unfold PRT_P_AIR_GUAR.reg at e
      omega
    · exact absurd e (by decide)
  | leave =>
    obtain ⟨p, -, e⟩ := hk
    unfold PRT_P_PWR.reg at e
    omega

/-- No sum reads a register of the host's, of TOP's, of the partitions' counters or of PRT's status. -/
theorem Share.reads_bounds {k : Share} {a : Nat} (hk : k.reads a) :
    0x10000 ≤ a ∧ a < 0x704000 ∧ a ≠ PRT_EVT_STS.reg ∧ a ≠ PRT_MAP_ERR.reg ∧ a ≠ PRT_FLT_STS.reg := by
  unfold PRT_EVT_STS.reg PRT_MAP_ERR.reg PRT_FLT_STS.reg
  cases k with
  | lanes =>
    obtain ⟨p, hp, rfl⟩ := hk
    unfold PRT_P_LANE.reg
    omega
  | cells =>
    obtain ⟨p, hp, rfl⟩ | rfl := hk
    · unfold PRT_P_CELL_GUAR.reg
      omega
    · decide
  | air =>
    obtain ⟨p, hp, rfl⟩ | rfl := hk
    · unfold PRT_P_AIR_GUAR.reg
      omega
    · decide
  | leave =>
    obtain ⟨p, hp, rfl⟩ := hk
    unfold PRT_P_PWR.reg
    omega

theorem guarSum_of_regs {s t : State} {g : Nat → RegFld} (h : ∀ p < 64, t.reg (g p).addr = s.reg (g p).addr) : guarSum t g = guarSum s g :=
  congrArg List.sum (List.map_congr_left fun p hp => rd_of_reg (h p (List.mem_range.mp hp)))

/-- A sum holds on where the registers it reads and the budget stay. -/
theorem Share.holds_of_regs {s t : State} {k : Share} (h : ∀ a, k.reads a → t.reg a = s.reg a) (hp : t.pwr = s.pwr) (hk : k.holds s) :
    k.holds t := by
  cases k with
  | lanes => exact (guarSum_of_regs fun p hp => h _ ⟨p, hp, rfl⟩).trans_le hk
  | cells =>
    have sum := guarSum_of_regs (g := PRT_P_CELL_GUAR.GUAR) fun p hp => h _ (.inl ⟨p, hp, rfl⟩)
    have reserve := rd_of_reg (f := QUE_RX_RESERVE.CELLS) (h _ (.inr rfl))
    exact (congrArg₂ (· + ·) sum reserve).trans_le hk
  | air =>
    have total := rd_of_reg (f := PRT_AIR_TOTAL.TICKS) (h _ (.inr rfl))
    exact ((guarSum_of_regs fun p hp => h _ (.inl ⟨p, hp, rfl⟩)).trans_le hk).trans_eq total.symm
  | leave =>
    have budget : t.budget 1 = s.budget 1 := congrArg (fun w : Pwr => sget (fun _ => 0) w.budget 1) hp
    exact ((guarSum_of_regs fun p hp => h _ ⟨p, hp, rfl⟩).trans_le hk).trans_eq budget.symm

/-! ## What keeps the sums -/

/-- The bark writes the partition's refusal count, the fault log's overflow and PRT's events, and no other register (R202). -/
theorem bark_reg {s : State} (hs : s.inv = true) (tag src tgt index : Nat) {a : Nat} (ha : a < 0x704000) (hevt : a ≠ PRT_EVT_STS.reg)
    (hflt : a ≠ PRT_FLT_STS.reg) : (s.bark tag src tgt index).reg a = s.reg a := by
  have hpcnt : a ≠ (PRT_PCNT.COUNT tag 0).addr := by
    unfold PRT_PCNT.COUNT PRT_PCNT.reg
    dsimp only
    omega
  have raised : ∀ (u : State) (b : Nat), u.inv = true → (u.raise 7 b).reg a = u.reg a := fun u b hu =>
    raise_reg u 7 b a hu (noPba_of_lt (by omega)) fun e => hevt (Option.some.inj e).symm
  have counted := inv_inc hs (PRT_PCNT.COUNT tag 0)
  have noted := inv_raise counted 7 0
  have first : ((s.inc (PRT_PCNT.COUNT tag 0)).raise 7 0).reg a = s.reg a := (raised _ 0 counted).trans (reg_wr_other s _ _ a hpcnt hs)
  unfold State.bark
  dsimp only
  split
  · exact first
  · exact (raised _ 1 (inv_wr noted _ _)).trans ((reg_wr_other _ PRT_FLT_STS.OVF 1 a hflt noted).trans first)

/-- An unmapped access writes registers of TOP alone, beside the pending-bit array (R28, R269). -/
theorem unmapped_raisedOnly {s : State} (hs : s.inv = true) (off : Nat) :
    raisedOnly s (s.unmapped off) [TOP_CNT_UNMAPPED.reg, TOP_BAD_LOG.reg, TOP_EVT_STS.reg] := by
  have h1 := inv_inc hs TOP_CNT_UNMAPPED.COUNT
  have h2 := inv_wr h1 TOP_BAD_LOG.OFFSET off
  have h3 := inv_wr h2 TOP_BAD_LOG.KIND 0
  have h4 := inv_wr h3 TOP_BAD_LOG.VALID 1
  have logged := raisedOnly_trans (raisedOnly_trans (wr_raisedOnly _ TOP_BAD_LOG.OFFSET off h1) (wr_raisedOnly _ TOP_BAD_LOG.KIND 0 h2))
    (wr_raisedOnly _ TOP_BAD_LOG.VALID 1 h3)
  exact raisedOnly_sub (raisedOnly_trans (raisedOnly_trans (inc_raisedOnly hs _) logged) (raise_raisedOnly _ 9 0 TOP_EVT_STS.reg h4 rfl)) (by decide)

section
variable {s t : State} {k : Share} (hs : s.inv = true) (hk : k.holds s)
include hs hk

theorem Share.holds_bark (tag src tgt index : Nat) : k.holds (s.bark tag src tgt index) :=
  holds_of_regs (fun _ ha => have ⟨_, hi, evt, _, flt⟩ := reads_bounds ha; bark_reg hs _ _ _ _ hi evt flt) (bark_pwr s _ _ _ _) hk

omit hs in
theorem Share.holds_of_raisedOnly {as : List Nat} (r : raisedOnly s t as) (has : ∀ a, k.reads a → a ∉ as) : k.holds t :=
  holds_of_regs (fun a ha => r.2 a (has a ha) (noPba_of_lt (by have := reads_bounds ha; omega))) (by rw [r.1]) hk

theorem Share.holds_unmapped (off : Nat) : k.holds (s.unmapped off) :=
  holds_of_raisedOnly hk (unmapped_raisedOnly hs off) fun a ha => by
    have := reads_bounds ha
    simp only [TOP_CNT_UNMAPPED.reg, TOP_BAD_LOG.reg, TOP_EVT_STS.reg, List.mem_cons, List.not_mem_nil, or_false]
    omega

theorem Share.holds_mapErr {off : Nat} (hoff : off < 0x10000) (que : Bool) : k.holds (mapErr off que s) := by
  obtain ⟨-, -, -, -, only⟩ := mapErr_spec hs hoff que
  refine holds_of_raisedOnly hk only fun a ha => ?_
  obtain ⟨-, -, evt, err, -⟩ := reads_bounds ha
  simp [evt, err]

/-- A register command keeps the sums when its effect does: whatever refuses it keeps them. -/
theorem Share.holds_p0Only (ht : k.holds t) (f : Fn) (off : Nat) : k.holds (s.p0Only f off t) := by
  unfold State.p0Only
  split
  · exact hk
  · split
    · exact holds_bark hs hk _ _ _ _
    · split
      · exact holds_unmapped hs hk off
      · exact ht

theorem Share.holds_shareWrite {off : Nat} (he : shareEntry off = true) (v : Word) : k.holds (shareWrite off v s) := by
  have entry := (shareEntry_iff off).mp he
  unfold shareWrite
  dsimp only
  split
  · exact holds_mapErr hs hk (by omega) false
  · next hok =>
    by_cases own : shareKind off = k
    · rw [← own]
      exact sumsOk_shareKind he hok
    · exact holds_of_regs (fun a ha => reg_setReg_other s _ a _ (fun e => own (shareKind_of_reads he (e ▸ ha))) (inv_regs hs)) rfl hk

theorem Share.holds_rxReserveWrite (v : Nat) : k.holds (rxReserveWrite v s) := by
  unfold rxReserveWrite
  split
  · exact hk
  · split
    · exact holds_mapErr hs hk (by decide) true
    · next hfit =>
      have other : ∀ a, a ≠ QUE_RX_RESERVE.reg → (s.wr QUE_RX_RESERVE.CELLS v).reg a = s.reg a := fun a ha => reg_wr_other s _ v a ha hs
      by_cases own : k = .cells
      · subst own
        have sum : guarSum (s.wr QUE_RX_RESERVE.CELLS v) PRT_P_CELL_GUAR.GUAR = cellGuarSum s := guarSum_of_regs fun p _ => other _ (by
          simp only [PRT_P_CELL_GUAR.GUAR, PRT_P_CELL_GUAR.reg, QUE_RX_RESERVE.reg]
          omega)
        have reserve : (s.wr QUE_RX_RESERVE.CELLS v).rd QUE_RX_RESERVE.CELLS = v % 2 ^ 20 := rd_wr_same s _ v (by decide) hs
        exact (congrArg₂ (· + ·) sum reserve).trans_le (Nat.le_of_not_lt hfit)
      · exact holds_of_regs (fun a ha => other a fun e => own (eq_cells_of_reads (e ▸ ha))) rfl hk

end

/-! ## Share writes -/

section
variable {s : State} {off : Nat} {v : Word}

theorem sumsOk_isSome (s u : State) (off : Nat) : (sumsOk s off).isSome = (sumsOk u off).isSome := by
  simp only [sumsOk, apply_ite Option.isSome, Option.isSome_some, Option.isSome_none]

theorem lt_of_sumsOk {ok : Bool} (h : sumsOk s off = some ok) : off < 0x900 := by
  by_contra hlt
  unfold sumsOk at h
  dsimp only at h
  rw [if_neg (by omega), if_pos (by omega)] at h
  exact nomatch h

theorem exec_shareWrite {f : Fn} {ok : Bool} (h : sumsOk (s.regWrite (0x700000 + off) v) off = some ok) (hr : reaches s f (0x700000 + off)) :
    exec (.shareWrite f off v) s = .next (shareWrite off v s) :=
  ranged_p0Only ((sumsOk_isSome s (s.regWrite (0x700000 + off) v) off).trans (by rw [h]; rfl)) hr _

/-- Any share write leaves the sums as they should be, whichever function makes it (R204). -/
theorem exec_shareWrite_holds {f : Fn} {t : State} {k : Share} (hs : s.inv = true) (hk : k.holds s) (he : shareEntry off = true)
    (e : exec (.shareWrite f off v) s = .next t) : k.holds t := by
  change ranged _ _ = _ at e
  unfold ranged at e
  split at e
  · obtain rfl := Host.Outcome.next.inj e
    exact Share.holds_p0Only hs hk (Share.holds_shareWrite hs hk he v) f _
  · exact nomatch e

theorem exec_rxReserveWrite_holds {f : Fn} {t : State} {k : Share} {w : Nat} (hs : s.inv = true) (hk : k.holds s)
    (e : exec (.rxReserveWrite f w) s = .next t) : k.holds t := by
  obtain rfl := Host.Outcome.next.inj e
  exact Share.holds_p0Only hs hk (Share.holds_rxReserveWrite hs hk w) f _

end

/-! ## Partition enable -/

section
variable {s : State} {p : Nat}

theorem locked_P_CFG (hp : p < 64) : s.locked (PRT_P_CFG.reg p) = s.on PRT_CTRL.LOCK := by
  have hlock : lockOf (PRT_P_CFG.reg p) = some PRT_CTRL.LOCK := by
    unfold lockOf PRT_P_CFG.reg
    repeat rw [if_neg (by omega)]
    exact if_pos (by omega)
  unfold State.locked
  rw [hlock]

theorem exec_partitionEnableWrite {f : Fn} (hp : p < 64) (hr : reaches s f (PRT_P_CFG.reg p)) (en : Bool) :
    exec (.partitionEnableWrite f p en) s = .next (partEnable p en s) := ranged_p0Only (decide_eq_true hp) hr _

theorem partEnable_P0 (en : Bool) : partEnable 0 en s = s := if_pos (.inl rfl)

theorem partEnable_resetting (hst : s.rd (PRT_P_CFG.STATE p) = 2) (en : Bool) : partEnable p en s = s := if_pos (.inr (.inr hst))

section
variable (h0 : 0 < p) (hp : p < 64) (hl : s.on PRT_CTRL.LOCK = false)
include h0 hp hl

/-- The write of an unlocked partition other than P0 that does not reset is judged by its state and what it holds (R439). -/
theorem partEnable_open (hst : s.rd (PRT_P_CFG.STATE p) ≠ 2) (en : Bool) :
    partEnable p en s =
      if en then (if s.rd (PRT_P_CFG.STATE p) = 0 then (s.wr (PRT_P_CFG.EN p) 1).wr (PRT_P_CFG.STATE p) 1 else s)
      else if s.rd (PRT_P_CFG.STATE p) = 0 then s
      else if holdsNothing s p then (s.wr (PRT_P_CFG.EN p) 0).wr (PRT_P_CFG.STATE p) 0
      else mapErr (0x100 + 32 * p) false s := by
  have unlocked : ¬s.locked (PRT_P_CFG.reg p) = true := by rw [locked_P_CFG hp, hl]; exact Bool.false_ne_true
  exact if_neg (not_or.mpr ⟨by omega, not_or.mpr ⟨unlocked, hst⟩⟩)

theorem partEnable_enables (hst : s.rd (PRT_P_CFG.STATE p) = 0) :
    partEnable p true s = (s.wr (PRT_P_CFG.EN p) 1).wr (PRT_P_CFG.STATE p) 1 := by
  rw [partEnable_open h0 hp hl (by omega), if_pos rfl, if_pos hst]

theorem partEnable_clears (hst : s.rd (PRT_P_CFG.STATE p) = 1) :
    partEnable p false s = if holdsNothing s p then (s.wr (PRT_P_CFG.EN p) 0).wr (PRT_P_CFG.STATE p) 0 else mapErr (0x100 + 32 * p) false s := by
  rw [partEnable_open h0 hp hl (by omega), if_neg Bool.false_ne_true, if_neg (by omega)]

end

/-- EN and STATE written together to PRT_Pp_CFG. -/
theorem wr_cfg_spec (hs : s.inv = true) {b : Nat} (hb : b < 2) :
    ((s.wr (PRT_P_CFG.EN p) b).wr (PRT_P_CFG.STATE p) b).rd (PRT_P_CFG.STATE p) = b ∧
      ((s.wr (PRT_P_CFG.EN p) b).wr (PRT_P_CFG.STATE p) b).rd (PRT_P_CFG.EN p) = b ∧
      onlyRegs s ((s.wr (PRT_P_CFG.EN p) b).wr (PRT_P_CFG.STATE p) b) [PRT_P_CFG.reg p] := by
  have h1 := inv_wr hs (PRT_P_CFG.EN p) b
  have fits : (PRT_P_CFG.STATE p).lo + (PRT_P_CFG.STATE p).w ≤ 32 := by simp [PRT_P_CFG.STATE]
  refine ⟨rd_wr_fits h1 fits (Nat.lt_trans hb (by simp [PRT_P_CFG.STATE])), ?_, ?_⟩
  · exact (rd_wr_apart (g := PRT_P_CFG.EN p) h1 fits (.inr (.inl (Nat.le_refl 1)))).trans (rd_wr_fits hs (by simp [PRT_P_CFG.EN]) hb)
  · exact onlyRegs_sub (onlyRegs_trans (wr_onlyRegs s _ b hs) (wr_onlyRegs _ _ b h1)) (by simp [PRT_P_CFG.EN, PRT_P_CFG.STATE])

end

/-- Settles O34: a sum of R204 is read from registers of one kind, so a write to a register of another kind leaves it, and a write to its own is
judged by it. -/
theorem mapSharesAndEnableKeepTheirRules : Obligations.MapSharesAndEnableKeepTheirRules := by
  intro f s hs refused sums
  have refusal : ∀ {off : Nat}, off < 0x10000 → refused (mapErr off false s) off := fun h => mapErr_spec hs h false
  have sums_iff : ∀ u, sums u ↔ ∀ k : Share, k.holds u := fun u =>
    ⟨fun ⟨l, c, a, w⟩ k => match k with | .lanes => l | .cells => c | .air => a | .leave => w,
      fun h => ⟨h .lanes, h .cells, h .air, h .leave⟩⟩
  refine ⟨fun off idle v hm ha hr => ⟨fun h => ?_, fun hi ho => ?_⟩, fun off ok v hsum hr => ⟨fun hok => ?_, fun hok => ?_⟩, fun h t ht => ?_,
    fun p h0 hp hr hl => ⟨fun hst => ?_, fun hst hn => ?_, fun hst hn => ?_, fun hst en => ?_⟩, fun en hr => ?_, fun hr => ?_⟩
  · exact (exec_mapEntryWrite hm ha hr).trans (congrArg _ (mapEntryWrite_takes h))
  · exact ⟨_, (exec_mapEntryWrite hm ha hr).trans (congrArg _ (mapEntryWrite_refuses hi ho)),
      refusal (Nat.lt_trans (lt_of_mapIdle hm) (by decide))⟩
  · exact (exec_shareWrite hsum hr).trans (congrArg _ (if_neg (by rw [hsum, hok]; decide)))
  · exact ⟨_, (exec_shareWrite hsum hr).trans (congrArg _ (if_pos (by rw [hsum, hok]))), refusal (Nat.lt_trans (lt_of_sumsOk hsum) (by decide))⟩
  · rw [sums_iff] at h ⊢
    intro k
    obtain ⟨off, v, he, e⟩ | ⟨v, e⟩ := ht
    · exact exec_shareWrite_holds hs (h k) he e
    · exact exec_rxReserveWrite_holds hs (h k) e
  · exact ⟨_, (exec_partitionEnableWrite hp hr true).trans (congrArg _ (partEnable_enables h0 hp hl hst)), wr_cfg_spec hs (by decide)⟩
  · exact ⟨_, (exec_partitionEnableWrite hp hr false).trans (congrArg _ ((partEnable_clears h0 hp hl hst).trans (if_pos hn))),
      wr_cfg_spec hs (by decide)⟩
  · exact ⟨_, (exec_partitionEnableWrite hp hr false).trans (congrArg _ ((partEnable_clears h0 hp hl hst).trans
      (if_neg (by rw [hn]; exact Bool.false_ne_true)))), refusal (by omega)⟩
  · exact (exec_partitionEnableWrite hp hr en).trans (congrArg _ (partEnable_resetting hst en))
  · exact (exec_partitionEnableWrite (by decide) hr en).trans (congrArg _ (partEnable_P0 en))
  · exact congrArg Host.Outcome.next (p0Only_reaches hr _)

end Sys2Proof.Machine

/-! The invariant along steps (R215): every command keeps it (Laws/Keep), and so does a tick. -/

namespace Sys2Proof.Machine

/-- A step is a tick of time or the front command with the queue's rest, and both keep the invariant. -/
theorem step_inv {s t : State} (hs : s.inv = true) (h : step s = .next t) : t.inv = true := by
  unfold step at h
  split at h
  · obtain rfl := Host.Outcome.next.inj h
    exact inv_elapse hs 1
  · next c cs _ => exact kept_inv (kept_exec c _ (kept_refl (s := { s with pending := cs }) hs) t h)

/-- Settles O4: what every command keeps holds the invariant. -/
theorem everyStepKeepsTheInvariant : Obligations.EveryStepKeepsTheInvariant := fun _ _ => step_inv

/-- Settles O3: at reset every table is empty. -/
theorem resetMeetsTheInvariant : Obligations.ResetMeetsTheInvariant := rfl

end Sys2Proof.Machine


/-! The words of the instruction rows and the decoder (R217, R218, R230). -/

namespace Sys2Proof.Machine

/-- A field of a word that is given as a number. -/
theorem bf_ofNat {x lo w : Nat} (hx : x < 2 ^ 32) : bf (BitVec.ofNat 32 x) lo w = x / 2 ^ lo % 2 ^ w := by
  rw [bf, BitVec.toNat_ofNat, Nat.mod_eq_of_lt hx]

theorem decodeIns_iWord (dev : Dev) {op rd ra imm : Nat} (ho : op < 64) (hd : rd < 32) (ha : ra < 32) (hi : imm < 65536) :
    decodeIns dev (BitVec.ofNat 32 (iWord op rd ra imm)) =
      decFields dev op rd ra (imm / 2048) (imm % 2048) imm (iWord 0 rd ra imm) := by
  have hx : iWord op rd ra imm < 2 ^ 32 := by unfold iWord; omega
  simp only [decodeIns, bf_ofNat hx]
  unfold iWord
  congr 1 <;> omega

theorem decodeIns_rWord (dev : Dev) {op rd ra rb fn : Nat} (ho : op < 64) (hd : rd < 32) (ha : ra < 32) (hb : rb < 32) (hf : fn < 2048) :
    decodeIns dev (BitVec.ofNat 32 (rWord op rd ra rb fn)) =
      decFields dev op rd ra rb fn (rb * 2048 + fn) (rWord 0 rd ra rb fn) := by
  have e : ∀ o, rWord o rd ra rb fn = iWord o rd ra (rb * 2048 + fn) := fun o => by unfold rWord iWord; omega
  rw [e, e, decodeIns_iWord dev ho hd ha (by omega), show (rb * 2048 + fn) / 2048 = rb by omega, show (rb * 2048 + fn) % 2048 = fn by omega]

theorem decodeIns_jWord (dev : Dev) {op off : Nat} (ho : op < 64) (hf : off < 2 ^ 26) :
    decodeIns dev (BitVec.ofNat 32 (jWord op off)) =
      decFields dev op (off / 2 ^ 21) (off / 2 ^ 16 % 32) (off % 2 ^ 16 / 2048) (off % 2 ^ 16 % 2048) (off % 2 ^ 16) off := by
  have e : ∀ o, jWord o off = iWord o (off / 2 ^ 21) (off / 2 ^ 16 % 32) (off % 2 ^ 16) := fun o => by unfold jWord iWord; omega
  rw [e, decodeIns_iWord dev ho (by omega) (by omega) (by omega), ← e, show jWord 0 off = off by unfold jWord; omega]

theorem decodeIns_lWord (dev : Dev) {cnt off : Nat} (hc : cnt < 1024) (hf : off < 65536) :
    decodeIns dev (BitVec.ofNat 32 (lWord cnt off)) = some (iLoopi cnt off) := by
  rw [show lWord cnt off = iWord 0x2D (cnt / 32) (cnt % 32) off by unfold lWord iWord; omega,
    decodeIns_iWord dev (by omega) (by omega) (by omega) hf]
  exact congrArg (fun n => some (iLoopi n off)) (Nat.div_add_mod cnt 32)

theorem zeros_isNone (xs : List Nat) (b : Body) : (zeros xs b).isNone = xs.any (· != 0) := by
  unfold zeros
  split
  case isTrue h => simpa using h
  case isFalse h => simpa using h

theorem decAlu_isNone (fn rd ra rb : Nat) : (decAlu fn rd ra rb).isNone = (decide (0x13 < fn) || (decide (0x11 ≤ fn) && rb != 0)) := by
  rcases Nat.lt_or_ge fn 0x14 with h | h
  · interval_cases fn <;> simp [decAlu, zeros_isNone]
  · obtain ⟨n, rfl⟩ := Nat.exists_eq_add_of_le' h
    rw [show decAlu (n + 0x14) rd ra rb = none from rfl, decide_eq_true (by omega : 0x13 < n + 0x14)]
    rfl

theorem decSys_isNone (fn rd ra rb : Nat) :
    (decSys fn rd ra rb).isNone = (decide (6 < fn) || rd != 0 || rb != 0 || (fn != 4 && ra != 0)) := by
  rcases Nat.lt_or_ge fn 7 with h | h
  · interval_cases fn <;> simp [decSys, zeros_isNone, Bool.or_comm, Bool.or_left_comm]
  · obtain ⟨n, rfl⟩ := Nat.exists_eq_add_of_le' h
    rw [show decSys (n + 7) rd ra rb = none from rfl, decide_eq_true (by omega : 6 < n + 7)]
    rfl

/-- A word is reserved where no instruction decodes (R217, R218): opcode by opcode. -/
theorem decodeIns_isNone (w : Word) : (decodeIns supDev w).isNone = reservedWord w := by
  have ho : bf w 26 6 < 64 := bf_lt w 26 6
  have e : ∀ lo n, insField w lo n = bf w lo n := fun _ _ => rfl
  simp only [decodeIns, reservedWord, e]
  generalize bf w 26 6 = op at ho
  interval_cases op <;>
    simp [decFields, decAlu_isNone, decSys_isNone, decImm, decMem, decFlow, decSystem, decQueue, zeros_isNone, Bool.or_assoc]

/-! ## Rows -/

/-- A row whose word decodes to the row's body is what its core does with the word it fetches. -/
theorem row_runs {i : Instr} {c : Nat} {fields : List (Nat × Nat)} {b : Body} {w : Nat} (hx : ∀ s, exec i s = insn c fields b s)
    (hin : (decide (c < 68) && fields.all (fun p => decide (p.1 < p.2))) = true) (hd : decodeIns supDev (BitVec.ofNat 32 w) = some b) :
    ∃ c, c < 68 ∧ ∀ s : State, fetchWord s c = BitVec.ofNat 32 w → exec i s = .next (stepCore supDev c s) := by
  refine ⟨c, of_decide_eq_true (Bool.and_eq_true_iff.mp hin).1, fun s hf => ?_⟩
  rw [hx, insn, ranged, if_pos hin, stepCore, hf, hd]
  rfl

theorem reserved_runs {c : Nat} {w : Word} (hc : c < 68) (hr : reservedWord w = true) :
    ∃ c', c' < 68 ∧ ∀ s : State, fetchWord s c' = BitVec.ofNat 32 w.toNat → exec (.reservedOpcode c w) s = .next (stepCore supDev c' s) := by
  refine ⟨c, hc, fun s hf => ?_⟩
  have hn : decodeIns supDev w = none := Option.isNone_iff_eq_none.mp ((decodeIns_isNone w).trans hr)
  rw [BitVec.ofNat_toNat, BitVec.setWidth_eq] at hf
  rw [show exec (.reservedOpcode c w) s = execReservedOpcode c w s from rfl, execReservedOpcode, ranged, hr, decide_eq_true hc, stepCore, hf, hn]
  rfl

/-- Every row but LCMD's, format by format: its fields come back from its word as they were put in. -/
theorem insWord_runs {i : Instr} {w : Nat} (h : insWord i = some w) (hwf : i.wf = true) (hl : w / 2 ^ 26 ≠ 0x3D) :
    ∃ c, c < 68 ∧ ∀ s : State, fetchWord s c = BitVec.ofNat 32 w → exec i s = .next (stepCore supDev c s) := by
  unfold insWord at h
  split at h
  case h_77 => cases h
  all_goals
    obtain rfl := Option.some.inj h
    simp only [Instr.wf, Bool.and_eq_true, decide_eq_true_eq, Nat.reducePow] at hwf
  case h_76 => exact reserved_runs hwf.1 hwf.2
  case h_70 | h_71 | h_72 | h_73 | h_74 => exact absurd (by unfold rWord; omega) hl
  all_goals
    refine row_runs (fun _ => rfl) (by simpa [and_assoc] using hwf) ?_
    simp [decodeIns_rWord, decodeIns_iWord, decodeIns_jWord, decodeIns_lWord, hwf, decFields, decAlu, decImm, decMem, decFlow, decSystem, decSys,
      decQueue, zeros]

/-- LCMD's rows: with the row's code at the record, what the core does with the word is the row's body. -/
theorem lcmd_runs {s : State} {i : Instr} {c rd ra : Nat} {b : Body} (hi : exec i s = insn c [(rd, 32), (ra, 32)] b s) (hc : c < 68) (hd : rd < 32)
    (ha : ra < 32) (hf : fetchWord s c = BitVec.ofNat 32 (rWord 0x3D rd ra 0 0)) (hb : iLcmd rd ra c s = b c s) :
    exec i s = .next (stepCore supDev c s) := by
  have hdec : decodeIns supDev (fetchWord s c) = some (iLcmd rd ra) := by
    rw [hf, decodeIns_rWord supDev (by decide) hd ha (by decide) (by decide)]
    rfl
  have hin : (decide (c < 68) && [(rd, 32), (ra, 32)].all (fun p => decide (p.1 < p.2))) = true := by simp [hc, hd, ha]
  rw [hi, insn, ranged, if_pos hin, stepCore, hdec, Option.getD_some, runIns, runIns, hb]

/-- Settles O44: a word's fields come back from it as they were put in, and the decoder gives none where a field that must be zero is set. -/
theorem instructionRowsRunTheirWords : Obligations.InstructionRowsRunTheirWords := by
  refine ⟨fun i w => insWord_runs, fun s c rd ra hc hd ha hf p hp hk => ?_, decodeIns_isNone⟩
  simp only [List.mem_cons, List.not_mem_nil, or_false] at hp
  rcases hp with rfl | rfl | rfl | rfl | rfl <;>
    exact lcmd_runs rfl hc hd ha hf (by rw [iLcmd, hk]; rfl)
end Sys2Proof.Machine

/-! The cores as a table of records, and what retiring, exceptions and halts make of one (R215, R218, R220, R233, R234, R236). -/

namespace Sys2Proof.Machine

/-! ## Records of cores -/

theorem inv_core {s : State} (hs : s.inv = true) (c : Nat) : coreWf c (s.core c) = true := coresWf_core _ c (inv_cores hs)

theorem core_setCore_same {s : State} (hs : s.inv = true) (c : Nat) (k : FCore) : (s.setCore c k).core c = k := by
  rw [core_setCore _ _ _ _ hs, if_pos rfl]

theorem core_setCore_other {s : State} (hs : s.inv = true) {c d : Nat} (hd : d ≠ c) (k : FCore) : (s.setCore c k).core d = s.core d := by
  rw [core_setCore _ _ _ _ hs, if_neg hd]

/-- A program counter is a multiple of four (R215). -/
theorem pcOf_aligned {s : State} (hs : s.inv = true) (c : Nat) : s.pcOf c % 4 = 0 := by
  have h := inv_core hs c
  simp only [coreWf, Bool.and_eq_true, beq_iff_eq] at h
  exact h.2

theorem pcOf_lt (s : State) (c : Nat) : s.pcOf c < 2 ^ 32 := (s.core c).pc.isLt

theorem sys_wf {s : State} (hs : s.inv = true) (c : Nat) : swf (sysReset c) (s.core c).sys = true := by
  have h := inv_core hs c
  simp only [coreWf, Bool.and_eq_true] at h
  exact h.1.2

/-- A system register that is written reads what was written, every other one as before. -/
theorem sys_setSys {s : State} (hs : s.inv = true) (c n m : Nat) (v : Word) : (s.setSys c n v).sys c m = if m = n then v else s.sys c m := by
  unfold State.setSys State.sys
  rw [core_setCore_same hs]
  split
  case isTrue h => rw [h]; exact sget_sset_same _ _ _ _ (sys_wf hs c)
  case isFalse h => exact sget_sset_other _ _ _ _ _ h (sys_wf hs c)

/-- Writing a system register replaces the record's system registers alone. -/
theorem core_setSys {s : State} (hs : s.inv = true) (c n : Nat) (v : Word) :
    (s.setSys c n v).core c = { s.core c with sys := ((s.setSys c n v).core c).sys } := by
  rw [State.setSys, core_setCore_same hs]

/-- Writing a general register replaces the record's general registers alone. -/
theorem core_setG {s : State} (hs : s.inv = true) (c r : Nat) (v : Word) :
    (s.setG c r v).core c = { s.core c with g := ((s.setG c r v).core c).g } := by
  unfold State.setG
  split
  · rfl
  · rw [core_setCore_same hs]

theorem core_setG_other {s : State} (hs : s.inv = true) {c d : Nat} (hd : d ≠ c) (r : Nat) (v : Word) : (s.setG c r v).core d = s.core d := by
  unfold State.setG
  split
  · rfl
  · exact core_setCore_other hs hd _

/-- Only the cores differ. -/
def coresOnly (s t : State) : Prop := t = { s with eng := { s.eng with cores := t.eng.cores } }

theorem coresOnly_trans {s t u : State} (a : coresOnly s t) (b : coresOnly t u) : coresOnly s u := by
  unfold coresOnly at *
  rw [b, a]

theorem coresOnly_setCore (s : State) (c : Nat) (k : FCore) : coresOnly s (s.setCore c k) := rfl

theorem coresOnly_setSys (s : State) (c n : Nat) (v : Word) : coresOnly s (s.setSys c n v) := rfl

theorem coresOnly_setG (s : State) (c r : Nat) (v : Word) : coresOnly s (s.setG c r v) := by
  unfold State.setG
  split <;> rfl

/-- General registers are read from the record. -/
theorem g_of_core {s t : State} {c : Nat} (h : (t.core c).g = (s.core c).g) (r : Nat) : t.g c r = s.g c r := by rw [State.g, State.g, h]

/-- System registers are read from the record. -/
theorem sys_of_core {s t : State} {c : Nat} (h : (t.core c).sys = (s.core c).sys) (n : Nat) : t.sys c n = s.sys c n := by rw [State.sys, State.sys, h]

/-! ## The registers that show a core -/

@[simp] theorem insnF_lo (c : Nat) : (insnF c).lo = 0 := by unfold insnF; split <;> rfl
@[simp] theorem insnF_w (c : Nat) : (insnF c).w = 32 := by unfold insnF; split <;> rfl
@[simp] theorem stateF_lo (c : Nat) : (stateF c).lo = 0 := by unfold stateF; split <;> rfl
@[simp] theorem stateF_w (c : Nat) : (stateF c).w = 2 := by unfold stateF; split <;> rfl
@[simp] theorem causeF_lo (c : Nat) : (causeF c).lo = 4 := by unfold causeF; split <;> rfl
@[simp] theorem causeF_w (c : Nat) : (causeF c).w = 4 := by unfold causeF; split <;> rfl
@[simp] theorem causeF_addr (c : Nat) : (causeF c).addr = (stateF c).addr := by unfold causeF stateF; split <;> rfl

/-! ## Going on after an instruction -/

/-- From u to t core c retires an instruction and stands at an address: it leaves its other fields but the cycles it spent and the marks of a
queue instruction, and nothing but the count of its instructions changes beside it (R218, R236). -/
structure Retires (u t : State) (c next : Nat) : Prop where
  core : ∃ n, t.core c = { u.core c with pc := BitVec.ofNat 32 next, cyc := n, held := false, issued := false }
  others : ∀ d, d ≠ c → t.core d = u.core d
  count : t.rd (insnF c) = min 0xFFFFFFFF (u.rd (insnF c) + 1)
  regs : ∀ a, a ≠ (insnF c).addr → t.reg a = u.reg a
  rest : t = { u with regs := t.regs, eng := { u.eng with cores := t.eng.cores } }

theorem retire_retires {u : State} (hu : u.inv = true) {c next : Nat} (cyc : Nat) (hn : next % 4 = 0) (hst : (u.core c).stepping = false)
    (hh : (u.core c).haltReq = false) : Retires u (retire c next cyc u) c next := by
  have ha : next / 4 * 4 = next := by omega
  have hp := inv_setPc hu c next
  have hi := inv_inc hp (insnF c)
  have hc : ((u.setPc c next).inc (insnF c)).core c = { u.core c with pc := BitVec.ofNat 32 next } := by
    exact (core_setCore_same hu c { u.core c with pc := BitVec.ofNat 32 (next / 4 * 4) }).trans (by rw [ha])
  have hcnt : ((u.setPc c next).inc (insnF c)).rd (insnF c) = min 0xFFFFFFFF (u.rd (insnF c) + 1) := by
    have := (incBy_sets (u.setPc c next) (insnF c) 1 hp (by simp)).1
    rwa [insnF_w] at this
  have e : ∃ n, retire c next cyc u = ((u.setPc c next).inc (insnF c)).setCore c
      { u.core c with pc := BitVec.ofNat 32 next, cyc := n, held := false, issued := false } := by
    unfold retire
    dsimp only
    rw [core_setCore_same hi, hc, if_neg (by simp [hst]), if_neg (by simp [hh])]
    exact ⟨_, rfl⟩
  obtain ⟨n, e⟩ := e
  rw [e]
  exact {
    core := ⟨n, core_setCore_same hi _ _⟩
    others := fun d hd => (core_setCore_other hi hd _).trans (core_setCore_other hu hd _)
    count := hcnt
    regs := fun a h => reg_wr_other (u.setPc c next) (insnF c) _ a h hp
    rest := rfl }

/-- Where no open loop ends, an instruction goes on to the next one (R220). -/
theorem loopNext_of_open {s : State} {c a : Nat} : ∀ {d : Nat}, (List.range d).any (fun l => (s.sys c (leN l)).toNat == a) = false →
    loopNext c a d s = (s, a + 4)
  | 0, _ => rfl
  | d + 1, h => by
    rw [List.range_succ, List.any_append, Bool.or_eq_false_iff] at h
    rw [loopNext, if_neg (by simpa using h.2)]

theorem goOn_inSequence {u : State} {c : Nat} (h : atLoopEnd u c = false) (cyc : Nat) : goOn c cyc u = retire c (u.pcOf c + 4) cyc u := by
  unfold goOn
  rw [loopNext_of_open h]

/-- Core c's flow of control is as before: its pc, its loops and the requests that would stop it. -/
structure SameFlow (s u : State) (c : Nat) : Prop where
  pc : (u.core c).pc = (s.core c).pc
  sys : (u.core c).sys = (s.core c).sys
  depth : (u.core c).depth = (s.core c).depth
  stepping : (u.core c).stepping = (s.core c).stepping
  haltReq : (u.core c).haltReq = (s.core c).haltReq

theorem sameFlow_of_core {s u : State} {c : Nat} (h : u.core c = s.core c) : SameFlow s u c := by
  constructor <;> rw [h]

theorem sameFlow_trans {s u v : State} {c : Nat} (a : SameFlow s u c) (b : SameFlow u v c) : SameFlow s v c :=
  ⟨b.pc.trans a.pc, b.sys.trans a.sys, b.depth.trans a.depth, b.stepping.trans a.stepping, b.haltReq.trans a.haltReq⟩

theorem SameFlow.atLoopEnd {s u : State} {c : Nat} (h : SameFlow s u c) : atLoopEnd u c = Machine.atLoopEnd s c := by
  simp only [Machine.atLoopEnd, State.sys, State.pcOf, h.pc, h.sys, h.depth]

theorem SameFlow.pcOf {s u : State} {c : Nat} (h : SameFlow s u c) : u.pcOf c = s.pcOf c := congrArg BitVec.toNat h.pc

theorem sameFlow_setG {s : State} (hs : s.inv = true) (c r : Nat) (v : Word) : SameFlow s (s.setG c r v) c := by
  constructor <;> rw [core_setG hs]

/-- An instruction that is done in sequence, after which flow is as before, retires at the next address. -/
theorem goOn_retires {s u : State} (hu : u.inv = true) {c : Nat} (cyc : Nat) (hf : SameFlow s u c) (h : inSequence s c) :
    Retires u (goOn c cyc u) c (s.pcOf c + 4) := by
  obtain ⟨hl, hst, hh⟩ := h
  rw [goOn_inSequence (hf.atLoopEnd.trans hl), hf.pcOf]
  have := pcOf_aligned hu c
  rw [hf.pcOf] at this
  exact retire_retires hu cyc (by omega) (hf.stepping.trans hst) (hf.haltReq.trans hh)

/-- Up to its retiring an instruction of core c changed only cores and memory, other cores in their reservation alone. -/
def coreWork (s u : State) (c : Nat) : Prop :=
  u = { s with eng := { s.eng with cores := u.eng.cores }, mem := u.mem, badPar := u.badPar } ∧
    ∀ d, d ≠ c → ({ u.core d with resv := none } : FCore) = { s.core d with resv := none }

theorem coreWork_refl (s : State) (c : Nat) : coreWork s s c := ⟨rfl, fun _ _ => rfl⟩

theorem coreWork_trans {s u v : State} {c : Nat} (a : coreWork s u c) (b : coreWork u v c) : coreWork s v c :=
  ⟨by rw [b.1, a.1], fun d hd => (b.2 d hd).trans (a.2 d hd)⟩

theorem coreWork_setG {s : State} (hs : s.inv = true) (c r : Nat) (v : Word) : coreWork s (s.setG c r v) c :=
  ⟨by rw [coresOnly_setG], fun d hd => by rw [core_setG_other hs hd]⟩

theorem coreWork_setCore {s : State} (hs : s.inv = true) (c : Nat) (k : FCore) : coreWork s (s.setCore c k) c :=
  ⟨rfl, fun d hd => by rw [core_setCore_other hs hd]⟩

theorem Retires.advanced {s u t : State} {c next : Nat} (h : Retires u t c next) (hw : coreWork s u c) : advanced s t c next := by
  obtain ⟨⟨n, hc⟩, ho, hcnt, hr, hrest⟩ := h
  obtain ⟨hf, hd⟩ := hw
  have hreg : u.regs = s.regs := by rw [hf]
  have hrd : ∀ a, u.reg a = s.reg a := fun a => by rw [State.reg, State.reg, hreg]
  refine ⟨?_, ?_, ?_, fun a h => (hr a h).trans (hrd a), fun d h => by rw [ho d h]; exact hd d h⟩
  · rw [State.pcOf, hc, BitVec.toNat_ofNat]
  · rw [hcnt, State.rd, State.rd, hrd]
  · rw [hrest, hf]

theorem Retires.g {u t : State} {c next : Nat} (h : Retires u t c next) (r : Nat) : t.g c r = u.g c r := by
  obtain ⟨n, hc⟩ := h.core
  exact g_of_core (by rw [hc]) r

theorem Retires.sys {u t : State} {c next : Nat} (h : Retires u t c next) (n : Nat) : t.sys c n = u.sys c n := by
  obtain ⟨m, hc⟩ := h.core
  exact sys_of_core (by rw [hc]) n

theorem Retires.depth {u t : State} {c next : Nat} (h : Retires u t c next) : (t.core c).depth = (u.core c).depth := by
  obtain ⟨n, hc⟩ := h.core
  rw [hc]

theorem Retires.resv {u t : State} {c next : Nat} (h : Retires u t c next) : (t.core c).resv = (u.core c).resv := by
  obtain ⟨n, hc⟩ := h.core
  rw [hc]

theorem Retires.mem {u t : State} {c next : Nat} (h : Retires u t c next) : t.mem = u.mem := by rw [h.rest]

theorem Retires.badPar {u t : State} {c next : Nat} (h : Retires u t c next) : t.badPar = u.badPar := by rw [h.rest]

theorem Retires.byte {u t : State} {c next : Nat} (h : Retires u t c next) (a : Nat) : t.byte a = u.byte a := by rw [State.byte, State.byte, h.mem]

theorem Retires.quiet {u t : State} {c next : Nat} (h : Retires u t c next) : quiet u t c := by
  obtain ⟨n, hc⟩ := h.core
  exact ⟨h.mem, h.badPar, h.others, by rw [hc], h.depth, h.resv⟩

theorem quiet_trans {s u t : State} {c : Nat} (a : quiet s u c) (b : quiet u t c) : quiet s t c := by
  obtain ⟨a1, a2, a3, a4, a5, a6⟩ := a
  obtain ⟨b1, b2, b3, b4, b5, b6⟩ := b
  exact ⟨b1.trans a1, b2.trans a2, fun d h => (b3 d h).trans (a3 d h), b4.trans a4, b5.trans a5, b6.trans a6⟩

theorem quiet_setG {s : State} (hs : s.inv = true) (c r : Nat) (v : Word) : quiet s (s.setG c r v) c :=
  ⟨by rw [coresOnly_setG], by rw [coresOnly_setG], fun _ hd => core_setG_other hs hd r v, by rw [core_setG hs], by rw [core_setG hs], by rw [core_setG hs]⟩

/-- A result stands in rd, whatever the retiring adds (R215). -/
theorem Retires.wrote {s u t : State} {c next rd : Nat} {v : Word} (h : Retires u t c next) (hw : wrote s u c rd v) : wrote s t c rd v := by
  obtain ⟨h1, -, h3⟩ := hw
  exact ⟨fun hr => (h.g rd).trans (h1 hr), rfl, fun r hr => (h.g r).trans (h3 r hr)⟩

theorem wrote_setG {s u : State} (hu : u.inv = true) {c : Nat} (hg : ∀ r, u.g c r = s.g c r) (rd : Nat) (v : Word) : wrote s (u.setG c rd v) c rd v := by
  refine ⟨fun h => ?_, rfl, fun r h => ?_⟩
  · rw [g_setG _ _ _ _ _ _ hu, if_pos ⟨rfl, rfl, h⟩]
  · rw [g_setG _ _ _ _ _ _ hu, if_neg (fun e => h e.2.1), hg]

/-! ## Running an instruction -/

theorem runIns_executes {s : State} {c : Nat} (h : executes s c) (b : Body) : runIns c b s = applyRet c s (b c s) := by
  obtain ⟨hr, hb, hf⟩ := h
  rw [runIns, if_neg (by simp [hr]), if_neg (by simp [hb]), hf]

/-- A row whose fields fit is its body on a core that executes. -/
theorem insn_executes {s : State} {c : Nat} (hc : c < 68) (h : executes s c) {fields : List (Nat × Nat)} {b : Body} {r : Ret}
    (hin : fields.all (fun p => decide (p.1 < p.2)) = true) (hb : b c s = r) : insn c fields b s = .next (applyRet c s r) := by
  rw [insn, ranged, decide_eq_true hc, hin, runIns_executes h, hb]
  rfl

/-! ## Exceptions (R234) -/

theorem bf_enterStat_EX (c : Nat) (e : Word) : bf (enterStat c e) 0 1 = 1 := by
  unfold enterStat
  split <;> exact bf_bfSet_same _ _ _ _ (by decide)

/-- What a supervisor's ESTAT reads at the entry into the handler. -/
theorem bf_enterStat_sup {c : Nat} (hc : 64 ≤ c) (e : Word) :
    bf (enterStat c e) 1 1 = 0 ∧ bf (enterStat c e) 2 1 = 1 ∧ bf (enterStat c e) 3 1 = bf e 2 1 ∧ bf (enterStat c e) 4 1 = bf e 1 1 := by
  have lt : ∀ (x : Word) (k : Nat), bf x k 1 % 2 ^ 1 = bf x k 1 := fun x k => Nat.mod_eq_of_lt (bf_lt x k 1)
  rw [enterStat, if_pos (by simpa [isSup] using hc)]
  refine ⟨?_, ?_, ?_, ?_⟩
  · rw [bf_bfSet_other _ _ _ _ _ _ (by decide) (by decide), bf_bfSet_same _ _ _ _ (by decide), Nat.zero_mod]
  · rw [bf_bfSet_other _ _ _ _ _ _ (by decide) (by decide), bf_bfSet_other _ _ _ _ _ _ (by decide) (by decide),
      bf_bfSet_same _ _ _ _ (by decide), Nat.one_mod_two_pow (by decide)]
  · rw [bf_bfSet_other _ _ _ _ _ _ (by decide) (by decide), bf_bfSet_other _ _ _ _ _ _ (by decide) (by decide),
      bf_bfSet_other _ _ _ _ _ _ (by decide) (by decide), bf_bfSet_other _ _ _ _ _ _ (by decide) (by decide),
      bf_bfSet_same _ _ _ _ (by decide), lt]
  · rw [bf_bfSet_other _ _ _ _ _ _ (by decide) (by decide), bf_bfSet_other _ _ _ _ _ _ (by decide) (by decide),
      bf_bfSet_other _ _ _ _ _ _ (by decide) (by decide), bf_bfSet_same _ _ _ _ (by decide), lt]

/-- The system registers at an exception's entry. -/
def excSys (c cause eval ret : Nat) (u : State) : State :=
  let s1 := ((u.setSys c 0x10 (BitVec.ofNat 32 ret)).setSys c 0x11 (BitVec.ofNat 32 cause)).setSys c 0x12 (BitVec.ofNat 32 eval)
  s1.setSys c 0x14 (enterStat c (s1.sys c 0x14))

theorem inv_excSys {u : State} (hu : u.inv = true) (c cause eval ret : Nat) : (excSys c cause eval ret u).inv = true :=
  inv_setSys (inv_setSys (inv_setSys (inv_setSys hu _ _ _) _ _ _) _ _ _) _ _ _

theorem core_setSys_other {s : State} (hs : s.inv = true) {c d : Nat} (hd : d ≠ c) (n : Nat) (v : Word) : (s.setSys c n v).core d = s.core d :=
  core_setCore_other hs hd _

theorem sys_excSys {u : State} (hu : u.inv = true) (c cause eval ret n : Nat) :
    (excSys c cause eval ret u).sys c n = if n = 0x14 then enterStat c (u.sys c 0x14) else if n = 0x12 then BitVec.ofNat 32 eval
      else if n = 0x11 then BitVec.ofNat 32 cause else if n = 0x10 then BitVec.ofNat 32 ret else u.sys c n := by
  have h1 := inv_setSys hu c 0x10 (BitVec.ofNat 32 ret)
  have h2 := inv_setSys h1 c 0x11 (BitVec.ofNat 32 cause)
  have h3 := inv_setSys h2 c 0x12 (BitVec.ofNat 32 eval)
  unfold excSys
  dsimp only
  rw [sys_setSys h3, sys_setSys h2, sys_setSys h1, sys_setSys hu, sys_setSys h2, sys_setSys h1, sys_setSys hu]
  simp

/-- The entry leaves the record but its system registers, and every other core. -/
theorem core_excSys {u : State} (hu : u.inv = true) (c cause eval ret : Nat) :
    (excSys c cause eval ret u).core c = { u.core c with sys := ((excSys c cause eval ret u).core c).sys } ∧
      ∀ d, d ≠ c → (excSys c cause eval ret u).core d = u.core d := by
  have h1 := inv_setSys hu c 0x10 (BitVec.ofNat 32 ret)
  have h2 := inv_setSys h1 c 0x11 (BitVec.ofNat 32 cause)
  have h3 := inv_setSys h2 c 0x12 (BitVec.ofNat 32 eval)
  unfold excSys
  refine ⟨?_, fun d hd => ?_⟩
  · rw [core_setSys h3, core_setSys h2, core_setSys h1, core_setSys hu]
  · rw [core_setSys_other h3 hd, core_setSys_other h2 hd, core_setSys_other h1 hd, core_setSys_other hu hd]

/-- The record of a core that enters its handler at an address, with its system registers. -/
def FCore.entering (k : FCore) (sys : Sparse Word) (at_ : Nat) : FCore :=
  { k with sys := sys, pc := BitVec.ofNat 32 (at_ / 4 * 4), resv := none, issued := false }

@[simp] theorem entering_sys (k : FCore) (sys : Sparse Word) (a : Nat) : (k.entering sys a).sys = sys := rfl
@[simp] theorem entering_g (k : FCore) (sys : Sparse Word) (a : Nat) : (k.entering sys a).g = k.g := rfl
@[simp] theorem entering_pc (k : FCore) (sys : Sparse Word) (a : Nat) : (k.entering sys a).pc = BitVec.ofNat 32 (a / 4 * 4) := rfl
@[simp] theorem entering_resv (k : FCore) (sys : Sparse Word) (a : Nat) : (k.entering sys a).resv = none := rfl
@[simp] theorem entering_depth (k : FCore) (sys : Sparse Word) (a : Nat) : (k.entering sys a).depth = k.depth := rfl
@[simp] theorem entering_stepping (k : FCore) (sys : Sparse Word) (a : Nat) : (k.entering sys a).stepping = k.stepping := rfl
@[simp] theorem entering_haltReq (k : FCore) (sys : Sparse Word) (a : Nat) : (k.entering sys a).haltReq = k.haltReq := rfl

/-- The state of a core that has entered its handler. -/
def excEntered (c cause eval ret : Nat) (u : State) : State :=
  let x := excSys c cause eval ret u
  (x.setPc c (u.sys c 0x13).toNat).setCore c ((u.core c).entering (x.core c).sys (u.sys c 0x13).toNat)

theorem coresOnly_excEntered (c cause eval ret : Nat) (u : State) : coresOnly u (excEntered c cause eval ret u) :=
  coresOnly_trans (coresOnly_trans (coresOnly_trans (coresOnly_trans (coresOnly_setSys u c _ _) (coresOnly_setSys _ c _ _))
    (coresOnly_setSys _ c _ _)) (coresOnly_setSys _ c _ _)) (coresOnly_trans (coresOnly_setCore _ c _) (coresOnly_setCore _ c _))

theorem core_excEntered {u : State} (hu : u.inv = true) (c cause eval ret : Nat) : (excEntered c cause eval ret u).core c =
    (u.core c).entering ((excSys c cause eval ret u).core c).sys (u.sys c 0x13).toNat :=
  core_setCore_same (inv_setPc (inv_excSys hu c cause eval ret) c (u.sys c 0x13).toNat) c _

theorem takeExc_enters {u : State} (hu : u.inv = true) {c : Nat} (h : excReady u c) (cause eval ret : Nat) :
    takeExc c cause eval ret u = excEntered c cause eval ret u := by
  obtain ⟨hex, hvec, hst, hh⟩ := h
  have hx := inv_excSys hu c cause eval ret
  have h13 : (((u.setSys c 0x10 (BitVec.ofNat 32 ret)).setSys c 0x11 (BitVec.ofNat 32 cause)).setSys c 0x12 (BitVec.ofNat 32 eval)).sys c 0x13 =
      u.sys c 0x13 := by
    rw [sys_setSys (inv_setSys (inv_setSys hu _ _ _) _ _ _), sys_setSys (inv_setSys hu _ _ _), sys_setSys hu]
    rfl
  have hk : { ((excSys c cause eval ret u).setPc c (u.sys c 0x13).toNat).core c with resv := none, issued := false } =
      (u.core c).entering ((excSys c cause eval ret u).core c).sys (u.sys c 0x13).toNat := by
    rw [State.setPc, core_setCore_same hx, (core_excSys hu c cause eval ret).1]
    rfl
  have e : takeExc c cause eval ret u =
      if ((excEntered c cause eval ret u).core c).stepping then haltCore c 4 (excEntered c cause eval ret u)
      else if ((excEntered c cause eval ret u).core c).haltReq then lateHalt c (excEntered c cause eval ret u)
      else excEntered c cause eval ret u := by
    rw [takeExc, if_neg (by omega), if_neg (by omega)]
    dsimp only
    rw [h13, excEntered, ← hk]
    rfl
  rw [e, core_excEntered hu, if_neg (by simp [hst]), if_neg (by simp [hh])]

/-- A core that is ready for an exception enters its handler (R234). -/
theorem takeExc_tookExc {u : State} (hu : u.inv = true) {c : Nat} (h : excReady u c) (cause eval ret : Nat) :
    tookExc u (takeExc c cause eval ret u) c cause eval ret := by
  rw [takeExc_enters hu h]
  have hx := inv_excSys hu c cause eval ret
  have hp := inv_setPc hx c (u.sys c 0x13).toNat
  have hcore := core_excEntered hu c cause eval ret
  have hsame : ∀ n, (excEntered c cause eval ret u).sys c n = (excSys c cause eval ret u).sys c n := sys_of_core (by rw [hcore, entering_sys])
  have hsys := fun n => (hsame n).trans (sys_excSys hu c cause eval ret n)
  refine ⟨hsys _, hsys _, hsys _, ?_, fun h64 => ?_, ?_, ?_, ?_, fun n hn => ?_, ?_, fun d hd => ?_,
    coresOnly_excEntered c cause eval ret u⟩
  · rw [hsys, if_pos rfl]
    exact bf_enterStat_EX _ _
  · rw [hsys, if_pos rfl]
    exact bf_enterStat_sup h64 _
  · rw [State.pcOf, hcore, entering_pc, BitVec.toNat_ofNat]
    have := (u.sys c 0x13).isLt
    omega
  · rw [hcore, entering_resv]
  · rw [hcore, entering_depth]
  · simp only [List.mem_cons, List.not_mem_nil, or_false, not_or] at hn
    rw [hsys, if_neg hn.2.2.2, if_neg hn.2.2.1, if_neg hn.2.1, if_neg hn.1]
  · exact g_of_core (by rw [hcore, entering_g])
  · exact (core_setCore_other hp hd _).trans ((core_setCore_other hx hd _).trans ((core_excSys hu c cause eval ret).2 d hd))

/-- An instruction that answers an exception, not TRAP's, on a state whose core is as it was. -/
theorem exc_tookExc {s u : State} (hu : u.inv = true) {c : Nat} (hc : u.core c = s.core c) (h : excReady s c) {cause : Nat} (hk : cause ≠ 7)
    (eval : Nat) : tookExc u (applyRet c s (.exc u cause eval)) c cause eval (s.pcOf c) := by
  have hr : excReady u c := by
    simpa only [excReady, State.sys, hc] using h
  rw [applyRet, if_neg hk]
  exact takeExc_tookExc hu hr cause eval (s.pcOf c)

end Sys2Proof.Machine

/-! The results of the register and immediate instructions as arithmetic (R218). -/

namespace Sys2Proof.Machine

theorem fSll_eq (a b : Word) : fSll a b = BitVec.ofNat 32 (a.toNat * 2 ^ (b.toNat % 32)) := by
  apply BitVec.eq_of_toNat_eq
  rw [fSll, BitVec.toNat_shiftLeft, Nat.shiftLeft_eq, BitVec.toNat_ofNat]

theorem shiftRight_eq (a : Word) (n : Nat) : a >>> n = BitVec.ofNat 32 (a.toNat / 2 ^ n) := by
  apply BitVec.eq_of_toNat_eq
  rw [BitVec.toNat_ushiftRight, Nat.shiftRight_eq_div_pow, BitVec.toNat_ofNat,
    Nat.mod_eq_of_lt (Nat.lt_of_le_of_lt (Nat.div_le_self _ _) a.isLt)]

theorem sshiftRight_eq (a : Word) (n : Nat) : a.sshiftRight n = BitVec.ofInt 32 (a.toInt / 2 ^ n) := by
  rw [BitVec.sshiftRight, Int.shiftRight_eq_div_pow]
  norm_cast

theorem min_eq (a b : Word) : fMin a b = if a.toInt ≤ b.toInt then a else b := by
  unfold fMin
  simp only [BitVec.slt_eq_decide, decide_eq_true_eq]
  by_cases h : a.toInt = b.toInt
  · rw [BitVec.eq_of_toInt_eq h, ite_self, ite_self]
  · exact if_congr (by omega) rfl rfl

theorem max_eq (a b : Word) : fMax a b = if a.toInt ≤ b.toInt then b else a := by
  unfold fMax
  simp only [BitVec.slt_eq_decide, decide_eq_true_eq]
  by_cases h : a.toInt = b.toInt
  · rw [BitVec.eq_of_toInt_eq h, ite_self, ite_self]
  · exact if_congr (by omega) rfl rfl

theorem fMul_eq (a b : Word) : fMul a b = BitVec.ofNat 32 (a.toNat * b.toNat) := by
  apply BitVec.eq_of_toNat_eq
  rw [fMul, BitVec.toNat_mul, BitVec.toNat_ofNat]

theorem fDivu_eq (a b : Word) : fDivu a b = if b = 0 then 0xFFFFFFFF else BitVec.ofNat 32 (a.toNat / b.toNat) := by
  have h : a / b = BitVec.ofNat 32 (a.toNat / b.toNat) := by
    apply BitVec.eq_of_toNat_eq
    rw [BitVec.toNat_udiv, BitVec.toNat_ofNat, Nat.mod_eq_of_lt (Nat.lt_of_le_of_lt (Nat.div_le_self _ _) a.isLt)]
  rw [fDivu, h]

theorem fRemu_eq (a b : Word) : fRemu a b = if b = 0 then a else BitVec.ofNat 32 (a.toNat % b.toNat) := by
  have h : a % b = BitVec.ofNat 32 (a.toNat % b.toNat) := by
    apply BitVec.eq_of_toNat_eq
    rw [BitVec.toNat_umod, BitVec.toNat_ofNat, Nat.mod_eq_of_lt (Nat.lt_of_le_of_lt (Nat.mod_le _ _) a.isLt)]
  rw [fRemu, h]

/-- The first set bit from the top stands at the binary logarithm. -/
theorem fClz_eq (a : Word) : fClz a = BitVec.ofNat 32 (if a = 0 then 32 else 31 - Nat.log2 a.toNat) := by
  unfold fClz
  congr 1
  split
  case isTrue h =>
    subst h
    rfl
  case isFalse h =>
    have h0 : a.toNat ≠ 0 := fun e => h (BitVec.eq_of_toNat_eq e)
    have hl : Nat.log2 a.toNat < 32 := (Nat.log2_lt h0).mpr a.isLt
    have hf : (List.range 32).find? (fun k => a.getLsbD (31 - k)) = some (31 - Nat.log2 a.toNat) := by
      rw [List.find?_range_eq_some]
      refine ⟨?_, List.mem_range.mpr (by omega), fun j hj => ?_⟩
      · rw [show 31 - (31 - Nat.log2 a.toNat) = Nat.log2 a.toNat by omega]
        exact Nat.testBit_log2 h0
      · have : a.toNat.testBit (31 - j) = false := Nat.testBit_lt_two_pow ((Nat.log2_lt h0).mp (by omega))
        simpa [BitVec.getLsbD] using this
    rw [hf, Option.getD_some]

theorem countP_eq_sum {α : Type} (p : α → Bool) (f : α → Nat) (h : ∀ x, f x = if p x then 1 else 0) (l : List α) : l.countP p = (l.map f).sum := by
  induction l with
  | nil => rfl
  | cons x xs ih => rw [List.countP_cons, ih, List.map_cons, List.sum_cons, h, Nat.add_comm]

theorem fPopc_eq (a : Word) : fPopc a = BitVec.ofNat 32 ((List.range 32).map (fun k => a.toNat / 2 ^ k % 2)).sum := by
  rw [fPopc, countP_eq_sum _ (fun k => a.toNat / 2 ^ k % 2) (fun k => ?_)]
  rw [BitVec.getLsbD, Nat.testBit_eq_decide_div_mod_eq]
  simp only [decide_eq_true_eq]
  split <;> omega

theorem fBswap_eq (a : Word) : fBswap a = BitVec.ofNat 32
    (a.toNat % 256 * 2 ^ 24 + a.toNat / 256 % 256 * 2 ^ 16 + a.toNat / 65536 % 256 * 256 + a.toNat / 2 ^ 24) := by
  have := a.isLt
  unfold fBswap
  congr 1
  simp only [octets, unoctets, List.range_succ, List.range_zero, List.map_cons, List.map_nil, List.nil_append, List.cons_append,
    List.reverse_cons, List.reverse_nil, BitVec.toNat_ofNat, Nat.reducePow]
  omega

theorem simm_eq (imm : Nat) : simm imm = BitVec.ofInt 32 (if imm < 32768 then (imm : Int) else (imm : Int) - 65536) := by
  unfold simm sgn
  congr 1
  split <;> split <;> omega

theorem rotateRight_eq (a : Word) {p : Nat} (hp : p < 32) : a.rotateRight p = BitVec.ofNat 32 (a.toNat / 2 ^ p + a.toNat * 2 ^ (32 - p)) := by
  have ha := a.isLt
  have h32 : 2 ^ 32 = 2 ^ p * 2 ^ (32 - p) := by rw [← pow_add]; congr 1; omega
  have hlt : a.toNat / 2 ^ p < 2 ^ (32 - p) := by
    rw [Nat.div_lt_iff_lt_mul (by positivity), Nat.mul_comm, ← h32]
    exact ha
  have hm : a.toNat * 2 ^ (32 - p) % 2 ^ 32 = a.toNat % 2 ^ p * 2 ^ (32 - p) := by rw [h32, Nat.mul_mod_mul_right]
  have hb : a.toNat % 2 ^ p * 2 ^ (32 - p) + a.toNat / 2 ^ p < 2 ^ 32 := by
    rw [h32]
    exact field_small (Nat.mod_lt _ (by positivity)) hlt
  have hd := Nat.div_add_mod (a.toNat * 2 ^ (32 - p)) (2 ^ 32)
  rw [hm] at hd
  apply BitVec.eq_of_toNat_eq
  rw [BitVec.toNat_rotateRight, Nat.mod_eq_of_lt hp, Nat.shiftRight_eq_div_pow, Nat.shiftLeft_eq, hm, BitVec.toNat_ofNat, Nat.or_comm,
    ← Nat.shiftLeft_eq, ← Nat.shiftLeft_add_eq_or_of_lt hlt, Nat.shiftLeft_eq]
  generalize a.toNat / 2 ^ p = e at *
  omega

theorem fShi_eq {imm : Nat} (h : imm < 128) (a : Word) : fShi imm a =
    if imm / 32 = 0 then BitVec.ofNat 32 (a.toNat * 2 ^ (imm % 32)) else if imm / 32 = 1 then BitVec.ofNat 32 (a.toNat / 2 ^ (imm % 32))
      else if imm / 32 = 2 then BitVec.ofInt 32 (a.toInt / 2 ^ (imm % 32))
      else BitVec.ofNat 32 (a.toNat / 2 ^ (imm % 32) + a.toNat * 2 ^ (32 - imm % 32)) := by
  have hq : imm / 32 % 4 = imm / 32 := by omega
  have hl : imm / 32 < 4 := by omega
  unfold fShi
  rw [hq]
  generalize imm / 32 = q at hl
  interval_cases q
  · apply BitVec.eq_of_toNat_eq
    simp [Nat.shiftLeft_eq]
  · exact shiftRight_eq a _
  · exact sshiftRight_eq a _
  · exact rotateRight_eq a (Nat.mod_lt _ (by decide))

theorem fIns_eq {imm : Nat} (h : imm % 32 + (imm / 32 % 32 + 1) ≤ 32) (d a : Word) : fIns imm d a =
    BitVec.ofNat 32 (d.toNat % 2 ^ (imm % 32) + a.toNat % 2 ^ (imm / 32 % 32 + 1) * 2 ^ (imm % 32) +
      d.toNat / 2 ^ (imm % 32 + (imm / 32 % 32 + 1)) * 2 ^ (imm % 32 + (imm / 32 % 32 + 1))) := by
  unfold fIns
  generalize imm % 32 = p at *
  generalize imm / 32 % 32 + 1 = w at *
  have e := bfSet_toNat d p w a.toNat h
  rw [Nat.div_div_eq_div_mul, ← pow_add, Nat.mul_assoc _ (2 ^ w), ← pow_add, Nat.add_comm w p] at e
  have hlt := (bfSet d p w a.toNat).isLt
  apply BitVec.eq_of_toNat_eq
  rw [BitVec.toNat_ofNat, Nat.mod_eq_of_lt] <;> generalize d.toNat % 2 ^ p = x at * <;> omega

end Sys2Proof.Machine

/-! The register and immediate instructions (R217, R218). -/

namespace Sys2Proof.Machine

section
variable {s : State} {c : Nat} (hs : s.inv = true) (hc : c < 68) (hx : executes s c)
include hs hc hx

/-- An instruction in sequence whose body writes a value to rd and does nothing else. -/
theorem exec_writes {i : Instr} {fields : List (Nat × Nat)} {b : Body} {rd cyc : Nat} {w v : Word} (hq : inSequence s c)
    (hi : exec i s = insn c fields b s) (hin : fields.all (fun p => decide (p.1 < p.2)) = true) (hb : b c s = .done (s.setG c rd w) cyc) (hv : w = v) :
    ∃ t, exec i s = .next t ∧ advanced s t c (s.pcOf c + 4) ∧ quiet s t c ∧ wrote s t c rd v := by
  subst hv
  have hr := goOn_retires (inv_setG hs c rd w) cyc (sameFlow_setG hs c rd w) hq
  exact ⟨_, hi.trans (insn_executes hc hx hin hb), hr.advanced (coreWork_setG hs c rd w), quiet_trans (quiet_setG hs c rd w) hr.quiet,
    hr.wrote (wrote_setG hs (fun _ => rfl) rd w)⟩

/-- An instruction whose body raises an exception on the state as it is. -/
theorem exec_raises {i : Instr} {fields : List (Nat × Nat)} {b : Body} {cause eval : Nat} (he : excReady s c)
    (hi : exec i s = insn c fields b s) (hin : fields.all (fun p => decide (p.1 < p.2)) = true) (hb : b c s = .exc s cause eval) (hk : cause ≠ 7) :
    ∃ t, exec i s = .next t ∧ tookExc s t c cause eval (s.pcOf c) :=
  ⟨_, hi.trans (insn_executes hc hx hin hb), exc_tookExc hs rfl he hk eval⟩

end

theorem forall_mem_ite_singleton {α : Type} {p : Prop} [Decidable p] {a : α} {P : α → Prop} (h : p → P a) : ∀ q ∈ (if p then [a] else []), P q := by
  split <;> simp_all

/-- Settles O45: each body writes its function of the operands to rd, and each function is its rule's arithmetic. -/
theorem registerInstructionsComputeTheirResult : Obligations.RegisterInstructionsComputeTheirResult := by
  intro s c rd ra rb imm hs hc hd ha hb hi hx a b n si ui p w yes all shi extu ins ops bad
  refine ⟨fun hq => ?_, fun he => ?_⟩
  · have W {i fields} {body : Body} {cyc : Nat} {x v : Word} (e : exec i s = insn c fields body s) (hin : fields.all (fun p => decide (p.1 < p.2)) = true)
        (hb : body c s = .done (s.setG c rd x) cyc) (hv : x = v) := exec_writes hs hc hx hq e hin hb hv
    have r3 : [(rd, 32), (ra, 32), (rb, 32)].all (fun p => decide (p.1 < p.2)) = true := by simp [hd, ha, hb]
    have r2 : [(rd, 32), (ra, 32)].all (fun p => decide (p.1 < p.2)) = true := by simp [hd, ha]
    have r2i : [(rd, 32), (ra, 32), (imm, 65536)].all (fun p => decide (p.1 < p.2)) = true := by simp [hd, ha, hi]
    have r1i : [(rd, 32), (imm, 65536)].all (fun p => decide (p.1 < p.2)) = true := by simp [hd, hi]
    have hsi : simm imm = si := simm_eq imm
    simp only [ops, all, List.forall_mem_append, List.forall_mem_cons]
    refine ⟨⟨⟨⟨W rfl r3 rfl rfl, W rfl r3 rfl rfl, W rfl r3 rfl rfl, W rfl r3 rfl rfl, W rfl r3 rfl rfl, W rfl r3 rfl (fSll_eq a b),
      W rfl r3 rfl (shiftRight_eq a n), W rfl r3 rfl (sshiftRight_eq a n), W rfl r3 rfl rfl, W rfl r3 rfl rfl, W rfl r3 rfl (min_eq a b),
      W rfl r3 rfl (max_eq a b), W rfl r3 rfl (fMul_eq a b), W rfl r3 rfl rfl, W rfl r3 rfl rfl, W rfl r3 rfl (fDivu_eq a b), W rfl r3 rfl (fRemu_eq a b),
      W rfl r2 rfl (fClz_eq a), W rfl r2 rfl (fPopc_eq a), W rfl r2 rfl (fBswap_eq a), W rfl r2i rfl (hsi ▸ BitVec.add_comm _ _), W rfl r2i rfl (BitVec.and_comm _ _),
      W rfl r2i rfl (BitVec.or_comm _ _), W rfl r2i rfl (BitVec.xor_comm _ _), W rfl r2i rfl (hsi ▸ rfl), W rfl r2i rfl (hsi ▸ rfl), W rfl r1i rfl rfl, by simp⟩, ?_⟩, ?_⟩, ?_⟩
    · exact forall_mem_ite_singleton fun h => W rfl r2i (if_neg (by omega)) (fShi_eq h a)
    · exact forall_mem_ite_singleton fun h => W rfl r2i (if_neg (by omega)) rfl
    · exact forall_mem_ite_singleton fun h => W rfl r2i (if_neg (by omega)) (fIns_eq h.2 _ a)
  · have r2i : [(rd, 32), (ra, 32), (imm, 65536)].all (fun p => decide (p.1 < p.2)) = true := by simp [hd, ha, hi]
    simp only [bad, List.forall_mem_append]
    refine ⟨⟨?_, ?_⟩, ?_⟩
    · exact forall_mem_ite_singleton fun h => exec_raises hs hc hx he rfl r2i (if_pos h) (by decide)
    · exact forall_mem_ite_singleton fun h => exec_raises hs hc hx he rfl r2i (if_pos h) (by decide)
    · exact forall_mem_ite_singleton fun h => exec_raises hs hc hx he rfl r2i (if_pos h) (by decide)

end Sys2Proof.Machine

/-! Loads, stores and reservations: the octets that a store writes, the reservations it breaks, and where a store may go (R219, R221, R231, R232). -/

namespace Sys2Proof.Machine

/-! ## Reservations -/

/-- A listed pair of a table in canonical form is what its key reads. -/
theorem sget_of_mem {α : Type} [DecidableEq α] (d : Nat → α) {k : Nat} {v : α} : ∀ {m : Sparse α} {lo : Nat}, swfFrom d lo m = true →
    (k, v) ∈ m → sget d m k = v ∧ lo ≤ k
  | (j, u) :: m, lo, h, hm => by
    simp only [swfFrom, Bool.and_eq_true, decide_eq_true_eq] at h
    rcases List.mem_cons.mp hm with e | e
    · obtain ⟨rfl, rfl⟩ := Prod.mk.inj e
      exact ⟨by rw [sget, if_pos rfl], h.1.1⟩
    · obtain ⟨h1, h2⟩ := sget_of_mem d h.2 e
      exact ⟨by rw [sget, if_neg (by omega), if_neg (by omega), h1], by omega⟩

theorem cores_swf {s : State} (hs : s.inv = true) : swf (fun _ => ({} : FCore)) s.eng.cores = true := by
  have h := inv_cores hs
  simp only [coresWf, Bool.and_eq_true] at h
  exact h.1

/-- Records that are freed one after another are freed, and every other one is as it was. -/
theorem sget_freeResvs (l : List Nat) : ∀ m : Sparse FCore, swf (fun _ => ({} : FCore)) m = true → ∀ d,
    sget (fun _ => ({} : FCore)) (l.foldl (fun m c => sset (fun _ => {}) m c (freeResv (sget (fun _ => {}) m c))) m) d =
      if d ∈ l then freeResv (sget (fun _ => {}) m d) else sget (fun _ => {}) m d := by
  induction l with
  | nil => exact fun _ _ _ => rfl
  | cons x xs ih =>
    intro m hm d
    rw [List.foldl_cons, ih _ (sset_swf _ m x _ hm)]
    by_cases hd : d = x
    · subst hd
      rw [sget_sset_same _ _ _ _ hm, if_pos List.mem_cons_self]
      split <;> rfl
    · rw [sget_sset_other _ _ _ _ _ hd hm]
      simp only [List.mem_cons, hd, false_or]

/-- A write to [lo, hi) by core c or another agent breaks the reservations on it of every other core, and no other (R221). -/
theorem core_breakResv {s : State} (hs : s.inv = true) (w : Option Nat) (lo hi d : Nat) :
    (breakResv w lo hi s).core d =
      if some d ≠ w ∧ (s.core d).resv.any (fun r => decide (lo ≤ r + 3) && decide (r < hi)) = true then freeResv (s.core d) else s.core d := by
  have hm := cores_swf hs
  refine (sget_freeResvs _ s.eng.cores hm d).trans (if_congr ?_ rfl rfl)
  simp only [List.mem_map, List.mem_filter, Bool.and_eq_true, decide_eq_true_eq, Prod.exists, exists_and_right, exists_eq_right]
  constructor
  · rintro ⟨k, hk, h⟩
    rw [State.core, (sget_of_mem _ hm hk).1]
    exact h
  · rintro ⟨hw, h⟩
    rcases sget_mem (fun _ => ({} : FCore)) d s.eng.cores with e | e
    · exact ⟨_, e, hw, h⟩
    · rw [State.core, e] at h
      exact absurd h (by simp)

/-- A core keeps its own record over its stores. -/
theorem core_store_self {s : State} (hs : s.inv = true) (c o : Nat) (bs : List Byte) : (s.store (some c) o bs).core c = s.core c := by
  rw [show (s.store (some c) o bs).core c = (breakResv (some c) o (o + bs.length) s).core c from rfl, core_breakResv hs,
    if_neg (fun h => h.1 rfl)]

theorem core_store_other {s : State} (hs : s.inv = true) {c d : Nat} (hd : d ≠ c) (o : Nat) (bs : List Byte) :
    (s.store (some c) o bs).core d =
      if (s.core d).resv.any (fun r => decide (o ≤ r + 3) && decide (r < o + bs.length)) = true then freeResv (s.core d) else s.core d := by
  rw [show (s.store (some c) o bs).core d = (breakResv (some c) o (o + bs.length) s).core d from rfl, core_breakResv hs]
  exact if_congr (and_iff_right fun e => hd (Option.some.inj e)) rfl rfl

theorem inv_store {s : State} (hs : s.inv = true) (w : Option Nat) (o : Nat) (bs : List Byte) : (s.store w o bs).inv = true :=
  kept_inv (kept_store s w o bs (kept_refl hs))

theorem coreWork_store {s : State} (hs : s.inv = true) (c o : Nat) (bs : List Byte) : coreWork s (s.store (some c) o bs) c := by
  refine ⟨rfl, fun d hd => ?_⟩
  rw [core_store_other hs hd]
  split <;> rfl

/-! ## What a store writes -/

/-- Core c has written the low len octets of v at offset o: no other octet changed, and the other cores' reservations on them are gone. -/
def storedAt (s t : State) (c o len : Nat) (v : Word) : Prop :=
  (∀ k, k < len → t.byte (o + k) = BitVec.ofNat 8 (v.toNat / 256 ^ k)) ∧ (∀ x, x < o ∨ o + len ≤ x → t.byte x = s.byte x) ∧
    ∀ d, d ≠ c → (t.core d).resv = (match (s.core d).resv with | some r => if o ≤ r + 3 ∧ r < o + len then none else some r | none => none)

@[simp] theorem octets_length (n v : Nat) : (octets n v).length = n := by simp [octets]

theorem octets_getD {n k : Nat} (v : Nat) (h : k < n) : (octets n v).getD k 0 = BitVec.ofNat 8 (v / 256 ^ k) := by
  simp [octets, h]

/-- Offsets that a store can write: outside the boot ROM (R231, R232). -/
def writable (o len : Nat) : Prop := o + len ≤ 0x3000000 ∨ 0x3020000 ≤ o

theorem store_storedAt {s : State} (hs : s.inv = true) (c : Nat) {o len : Nat} (v : Word) (hw : writable o len) :
    storedAt s (s.store (some c) o (octets len v.toNat)) c o len v := by
  unfold writable at hw
  refine ⟨fun k hk => ?_, fun x hx => byte_store_other s _ o x _ (inv_mem hs) (by simpa using hx), fun d hd => ?_⟩
  · rw [byte_store_at s _ o k _ (inv_mem hs) (by simpa using hk) (by omega), octets_getD _ hk]
  · rw [core_store_other hs hd]
    cases h : (s.core d).resv with
    | none => simp [h]
    | some r =>
      by_cases hr : o ≤ r + 3 ∧ r < o + len
      · simp [freeResv, hr]
      · simp [h, hr]

theorem storedAt_congr {s t u : State} {c o len : Nat} {v : Word} (h : storedAt s u c o len v) (hb : ∀ x, t.byte x = u.byte x)
    (hc : ∀ d, d ≠ c → t.core d = u.core d) : storedAt s t c o len v := by
  obtain ⟨h1, h2, h3⟩ := h
  exact ⟨fun k hk => (hb _).trans (h1 k hk), fun x hx => (hb x).trans (h2 x hx), fun d hd => by rw [hc d hd]; exact h3 d hd⟩

theorem storedAt_of_frame {s s' u : State} {c o len : Nat} {v : Word} (h : storedAt s' u c o len v) (hb : ∀ x, s'.byte x = s.byte x)
    (hc : ∀ d, d ≠ c → s'.core d = s.core d) : storedAt s u c o len v := by
  obtain ⟨h1, h2, h3⟩ := h
  exact ⟨h1, fun x hx => (h2 x hx).trans (hb x), fun d hd => by rw [h3 d hd, hc d hd]⟩

/-! ## Where an access goes -/

theorem place_misaligned {a len : Nat} (h : a % len ≠ 0) (s : State) (c : Nat) (r w x : Bool) : place s c a len r w x = .bad 2 := if_pos h

/-- An engine's data access stays below the boot ROM (R231, R240). -/
theorem engPlace_writable {s : State} {c a o len : Nat} {sh : Bool} (hc : c < 64) (hl : len ≤ 4) (h : engPlace s c a = .mem o sh) :
    writable o len := by
  unfold writable
  unfold engPlace at h
  split at h
  · obtain ⟨rfl, -⟩ := Place.mem.inj h
    unfold dmemBase imemBase
    omega
  · split at h
    · dsimp only at h
      split at h
      · obtain ⟨rfl, -⟩ := Place.mem.inj h
        unfold segBase
        omega
      · cases h
    · cases h

/-- What stands at an address of a supervisor's space, for an access that writes or is LR, SC or TAS (R231, R232). -/
def supMap (a : Nat) (wr atomic : Bool) : Place :=
  if a < 0x20000 then (if wr || atomic then .bad 3 else .mem (0x3000000 + a) false)
  else if 0x100000 ≤ a ∧ a < 0x300000 then .mem (0x3000000 + a) true
  else if atomic then .bad 3
  else if 0x10000000 ≤ a ∧ a < 0x10001000 then .mem (bkupBase + (a - 0x10000000)) false
  else if 0x40000000 ≤ a ∧ a < 0x44000000 then .dev (a - 0x40000000)
  else .bad 3

/-- A supervisor's access goes where the map says, unless the MPU forbids it. -/
theorem supPlace_eq (s : State) (c a len : Nat) (rd wr atomic : Bool) :
    supPlace s c a len rd wr atomic = supMap a wr atomic ∨ supPlace s c a len rd wr atomic = .bad 0xA := by
  unfold supPlace
  generalize (level1 s c || ((!rd || mpuOk s c a len 0) && (!wr || mpuOk s c a len 1))) = ok
  change (match supMap a wr atomic with | .bad k => Place.bad k | q => if ok = true then q else .bad 0xA) = supMap a wr atomic ∨
    (match supMap a wr atomic with | .bad k => Place.bad k | q => if ok = true then q else .bad 0xA) = .bad 0xA
  generalize supMap a wr atomic = p
  cases ok <;> cases p <;> simp

/-- A supervisor's store goes past the boot ROM (R232). -/
theorem supMap_writable {a o len : Nat} {x sh : Bool} (h : supMap a true x = .mem o sh) : writable o len := by
  unfold writable
  unfold supMap at h
  split at h
  · cases h
  · split at h
    · obtain ⟨rfl, -⟩ := Place.mem.inj h
      omega
    · split at h
      · cases h
      · split at h
        · obtain ⟨rfl, -⟩ := Place.mem.inj h
          unfold bkupBase
          omega
        · split at h <;> cases h

theorem supMap_cause {a k : Nat} {w x : Bool} (h : supMap a w x = .bad k) : k = 3 := by
  unfold supMap at h
  repeat' split at h
  all_goals cases h
  all_goals rfl

theorem engPlace_cause {s : State} {c a k : Nat} (h : engPlace s c a = .bad k) : k = 3 := by
  unfold engPlace at h
  dsimp only at h
  repeat' split at h
  all_goals cases h
  all_goals rfl

theorem place_writable {s : State} {c a o len : Nat} {rd x sh : Bool} (hl : len ≤ 4) (h : place s c a len rd true x = .mem o sh) :
    writable o len := by
  unfold place at h
  split at h
  · cases h
  · split at h
    · rcases supPlace_eq s c a len rd true x with e | e
      · exact supMap_writable (e.symm.trans h)
      · exact absurd (e.symm.trans h) (by simp)
    · next hsup => exact engPlace_writable (by simpa [isSup] using hsup) hl h

/-- The cause of an access that does not go through is never TRAP's. -/
theorem place_cause {s : State} {c a len k : Nat} {rd w x : Bool} (h : place s c a len rd w x = .bad k) : k ≠ 7 := by
  unfold place at h
  split at h
  · obtain rfl := Place.bad.inj h
    decide
  · split at h
    · rcases supPlace_eq s c a len rd w x with e | e
      · rw [supMap_cause (e.symm.trans h)]
        decide
      · obtain rfl := Place.bad.inj (e.symm.trans h)
        decide
    · rw [engPlace_cause h]
      decide

/-! ## The instructions' bodies, place by place -/

section
variable {s : State} {c a o : Nat} {sh : Bool}

theorem iLoad_mem {dev : Dev} {len rd ra imm : Nat} {f : Nat → Word} (h : place s c (dataAddr s c ra imm) len true false false = .mem o sh)
    (hp : parityBad s o = false) : iLoad dev len f rd ra imm c s = .done (s.setG c rd (f (unoctets (s.bytes o len)))) (loadCyc c sh) := by
  simp only [iLoad, h, hp, Bool.false_eq_true, if_false]

theorem iLoad_parity {dev : Dev} {len rd ra imm : Nat} {f : Nat → Word} (h : place s c (dataAddr s c ra imm) len true false false = .mem o sh)
    (hp : parityBad s o = true) : iLoad dev len f rd ra imm c s = .exc s 5 (dataAddr s c ra imm / 4 * 4) := by
  simp only [iLoad, h, hp, if_true]

theorem iLoad_bad {dev : Dev} {len rd ra imm k : Nat} {f : Nat → Word} (h : place s c (dataAddr s c ra imm) len true false false = .bad k) :
    iLoad dev len f rd ra imm c s = .exc s k (dataAddr s c ra imm) := by
  simp only [iLoad, h]

theorem iLoad_barked {dev : Dev} {len rd ra imm e : Nat} {f : Nat → Word} (h : place s c (dataAddr s c ra imm) len true false false = .barked e) :
    iLoad dev len f rd ra imm c s = .exc (s.bark (s.engOwner c) 3 5 e) 3 (dataAddr s c ra imm) := by
  simp only [iLoad, h]

theorem iLoad_dev {dev : Dev} {len rd ra imm : Nat} {f : Nat → Word} (h : place s c (dataAddr s c ra imm) len true false false = .dev o) :
    iLoad dev len f rd ra imm c s = .done ((dev.read (c - 64) o len s).1.setG c rd (f (dev.read (c - 64) o len s).2.toNat)) 16 := by
  simp only [iLoad, h]

theorem iStore_mem {dev : Dev} {len rd ra imm : Nat} (h : place s c (dataAddr s c ra imm) len false true false = .mem o sh) :
    iStore dev len rd ra imm c s = .done (s.store (some c) o (octets len (s.g c rd).toNat)) 1 := by
  simp only [iStore, h]

theorem iStore_bad {dev : Dev} {len rd ra imm k : Nat} (h : place s c (dataAddr s c ra imm) len false true false = .bad k) :
    iStore dev len rd ra imm c s = .exc s k (dataAddr s c ra imm) := by
  simp only [iStore, h]

theorem iStore_dev {dev : Dev} {len rd ra imm : Nat} (h : place s c (dataAddr s c ra imm) len false true false = .dev o) :
    iStore dev len rd ra imm c s = .done (dev.write (c - 64) o len (s.g c rd) s) 16 := by
  simp only [iStore, h]

/-- The state in which core c has reserved the word at o. -/
def State.reserving (s : State) (c : Nat) (r : Option Nat) : State := s.setCore c { s.core c with resv := r }

theorem iLr_mem {rd ra imm : Nat} (h : place s c (dataAddr s c ra imm) 4 true false true = .mem o sh) (hp : parityBad s o = false) :
    iLr rd ra imm c s = .done ((s.setG c rd (s.mword o)).reserving c (some o)) (loadCyc c sh) := by
  simp only [iLr, h, hp, Bool.false_eq_true, if_false, State.reserving]

theorem iSc_mem {rd ra rb : Nat} (h : place s c (s.g c ra).toNat 4 false true true = .mem o sh) : ∃ n, iSc rd ra rb c s =
    .done ((if (s.core c).resv = some o then (s.reserving c none).store (some c) o (octets 4 (s.g c rb).toNat) else s.reserving c none).setG c rd
      (if (s.core c).resv = some o then 0 else 1)) n := by
  simp only [iSc, h, decide_eq_true_eq, State.reserving]
  exact ⟨_, rfl⟩

theorem iTas_mem {rd ra imm : Nat} (h : place s c (dataAddr s c ra imm) 4 true true true = .mem o sh) (hp : parityBad s o = false) :
    ∃ n, iTas rd ra imm c s = .done ((s.store (some c) o (octets 4 (1 : Word).toNat)).setG c rd (s.mword o)) n := by
  simp only [iTas, h, hp, Bool.false_eq_true, if_false]
  exact ⟨_, rfl⟩

end

/-! ## Flow and frame of the accesses -/

theorem inv_reserving {s : State} (hs : s.inv = true) (c : Nat) (r : Option Nat) : (s.reserving c r).inv = true := inv_setCore hs c _ (inv_core hs c)

theorem core_reserving {s : State} (hs : s.inv = true) (c : Nat) (r : Option Nat) : (s.reserving c r).core c = { s.core c with resv := r } :=
  core_setCore_same hs c _

theorem g_reserving {s : State} (hs : s.inv = true) (c : Nat) (r : Option Nat) (n : Nat) : (s.reserving c r).g c n = s.g c n :=
  g_of_core (by rw [core_reserving hs]) n

theorem sameFlow_reserving {s : State} (hs : s.inv = true) (c : Nat) (r : Option Nat) : SameFlow s (s.reserving c r) c := by
  constructor <;> rw [core_reserving hs]

theorem sameFlow_store {s : State} (hs : s.inv = true) (c o : Nat) (bs : List Byte) : SameFlow s (s.store (some c) o bs) c :=
  sameFlow_of_core (core_store_self hs c o bs)

theorem g_store {s : State} (hs : s.inv = true) (c o : Nat) (bs : List Byte) (r : Nat) : (s.store (some c) o bs).g c r = s.g c r :=
  g_of_core (by rw [core_store_self hs]) r

theorem mem_setG (s : State) (c r : Nat) (v : Word) : (s.setG c r v).mem = s.mem := by rw [coresOnly_setG]

theorem byte_of_mem {s t : State} (h : t.mem = s.mem) (a : Nat) : t.byte a = s.byte a := by rw [State.byte, State.byte, h]

/-- A value in rd leaves what was stored. -/
theorem storedAt_setG {s u : State} (hu : u.inv = true) {c o len : Nat} {v : Word} (h : storedAt s u c o len v) (rd : Nat) (x : Word) :
    storedAt s (u.setG c rd x) c o len v :=
  storedAt_congr h (byte_of_mem (mem_setG u c rd x)) fun _ hd => core_setG_other hu hd rd x

theorem Retires.storedAt {s u t : State} {c next o len : Nat} {v : Word} (h : Retires u t c next) (hw : storedAt s u c o len v) :
    storedAt s t c o len v := storedAt_congr hw h.byte h.others

/-- A reservation of core c leaves memory and the other cores. -/
theorem store_reserving {s : State} (hs : s.inv = true) (c : Nat) (r : Option Nat) {o len : Nat} (v : Word) (hw : writable o len) :
    storedAt s ((s.reserving c r).store (some c) o (octets len v.toNat)) c o len v :=
  storedAt_of_frame (store_storedAt (inv_reserving hs c r) c v hw) (fun _ => rfl) fun _ hd => core_setCore_other hs hd _

end Sys2Proof.Machine

/-! The data-access instructions together (R219, R221, R231-R233). -/

namespace Sys2Proof.Machine

section
variable {s : State} {c : Nat} (hc : c < 68) (hx : executes s c)
include hc hx

/-- An instruction in sequence that is done, on a state in which core c's flow is as it was and only cores and memory differ. -/
theorem exec_retires {i : Instr} {fields : List (Nat × Nat)} {b : Body} {u : State} {cyc : Nat} (hq : inSequence s c)
    (hi : exec i s = insn c fields b s) (hin : fields.all (fun p => decide (p.1 < p.2)) = true) (hb : b c s = .done u cyc) (hu : u.inv = true)
    (hf : SameFlow s u c) (hw : coreWork s u c) :
    ∃ t, exec i s = .next t ∧ Retires u t c (s.pcOf c + 4) ∧ advanced s t c (s.pcOf c + 4) :=
  have hr := goOn_retires hu cyc hf hq
  ⟨_, hi.trans (insn_executes hc hx hin hb), hr, hr.advanced hw⟩

variable (hs : s.inv = true)
include hs

theorem exec_stores {i : Instr} {fields : List (Nat × Nat)} {b : Body} {rd o len cyc : Nat} (hq : inSequence s c) (hi : exec i s = insn c fields b s)
    (hin : fields.all (fun p => decide (p.1 < p.2)) = true) (hb : b c s = .done (s.store (some c) o (octets len (s.g c rd).toNat)) cyc)
    (ho : writable o len) :
    ∃ t, exec i s = .next t ∧ advanced s t c (s.pcOf c + 4) ∧ storedAt s t c o len (s.g c rd) ∧ ∀ r, t.g c r = s.g c r := by
  obtain ⟨t, he, hr, ha⟩ := exec_retires hc hx hq hi hin hb (inv_store hs _ _ _) (sameFlow_store hs c _ _) (coreWork_store hs c _ _)
  exact ⟨t, he, ha, hr.storedAt (store_storedAt hs c _ ho), fun r => (hr.g r).trans (g_store hs c _ _ r)⟩

theorem lr_spec {rd ra imm o : Nat} {sh : Bool} (hq : inSequence s c) (hin : [(rd, 32), (ra, 32), (imm, 65536)].all (fun p => decide (p.1 < p.2)) = true)
    (h : place s c (dataAddr s c ra imm) 4 true false true = .mem o sh) (hp : parityBad s o = false) :
    ∃ t, exec (.lr c rd ra imm) s = .next t ∧ advanced s t c (s.pcOf c + 4) ∧ t.mem = s.mem ∧ (t.core c).resv = some o ∧ wrote s t c rd (s.mword o) := by
  have h1 := inv_setG hs c rd (s.mword o)
  obtain ⟨t, he, hr, ha⟩ := exec_retires hc hx (i := .lr c rd ra imm) hq rfl hin (iLr_mem h hp) (inv_reserving h1 c _)
    (sameFlow_trans (sameFlow_setG hs c _ _) (sameFlow_reserving h1 c _)) (coreWork_trans (coreWork_setG hs c _ _) (coreWork_setCore h1 c _))
  refine ⟨t, he, ha, hr.mem.trans (mem_setG s c rd _), hr.resv.trans (by rw [core_reserving h1]), hr.wrote ?_⟩
  obtain ⟨w1, -, w3⟩ := wrote_setG (s := s) hs (fun _ => rfl) rd (s.mword o)
  exact ⟨fun h => (g_reserving h1 c _ rd).trans (w1 h), rfl, fun r h => (g_reserving h1 c _ r).trans (w3 r h)⟩

theorem sc_spec {rd ra rb o : Nat} {sh : Bool} (hq : inSequence s c) (hin : [(rd, 32), (ra, 32), (rb, 32)].all (fun p => decide (p.1 < p.2)) = true)
    (h : place s c (s.g c ra).toNat 4 false true true = .mem o sh) :
    ∃ t, exec (.sc c rd ra rb) s = .next t ∧ advanced s t c (s.pcOf c + 4) ∧ (t.core c).resv = none ∧
      ((s.core c).resv = some o → storedAt s t c o 4 (s.g c rb) ∧ wrote s t c rd 0) ∧
      ((s.core c).resv ≠ some o → t.mem = s.mem ∧ wrote s t c rd 1) := by
  have h0 := inv_reserving hs c none
  have f0 := sameFlow_reserving hs c none
  have w0 : coreWork s (s.reserving c none) c := coreWork_setCore hs c _
  obtain ⟨n, hb⟩ := iSc_mem h
  by_cases hv : (s.core c).resv = some o
  · rw [if_pos hv, if_pos hv] at hb
    have hu := inv_store h0 (some c) o (octets 4 (s.g c rb).toNat)
    obtain ⟨t, he, hr, ha⟩ := exec_retires hc hx (i := .sc c rd ra rb) hq rfl hin hb (inv_setG hu c _ _)
      (sameFlow_trans (sameFlow_trans f0 (sameFlow_store h0 c _ _)) (sameFlow_setG hu c _ _))
      (coreWork_trans (coreWork_trans w0 (coreWork_store h0 c _ _)) (coreWork_setG hu c _ _))
    refine ⟨t, he, ha, hr.resv.trans ?_, fun _ => ⟨hr.storedAt (storedAt_setG hu (store_reserving hs c none _ (place_writable (by decide) h)) rd 0), ?_⟩,
      fun hn => absurd hv hn⟩
    · rw [core_setG hu, core_store_self h0, core_reserving hs]
    · exact hr.wrote (wrote_setG hu (fun r => (g_store h0 c _ _ r).trans (g_reserving hs c none r)) rd 0)
  · rw [if_neg hv, if_neg hv] at hb
    obtain ⟨t, he, hr, ha⟩ := exec_retires hc hx (i := .sc c rd ra rb) hq rfl hin hb (inv_setG h0 c _ _) (sameFlow_trans f0 (sameFlow_setG h0 c _ _))
      (coreWork_trans w0 (coreWork_setG h0 c _ _))
    refine ⟨t, he, ha, hr.resv.trans ?_, fun hn => absurd hn hv, fun _ => ⟨hr.mem.trans (mem_setG _ c rd _), hr.wrote (wrote_setG h0 (g_reserving hs c none) rd 1)⟩⟩
    rw [core_setG h0, core_reserving hs]

theorem tas_spec {rd ra imm o : Nat} {sh : Bool} (hq : inSequence s c) (hin : [(rd, 32), (ra, 32), (imm, 65536)].all (fun p => decide (p.1 < p.2)) = true)
    (h : place s c (dataAddr s c ra imm) 4 true true true = .mem o sh) (hp : parityBad s o = false) :
    ∃ t, exec (.tas c rd ra imm) s = .next t ∧ advanced s t c (s.pcOf c + 4) ∧ storedAt s t c o 4 1 ∧ wrote s t c rd (s.mword o) := by
  obtain ⟨n, hb⟩ := iTas_mem (rd := rd) h hp
  have hu := inv_store hs (some c) o (octets 4 (1 : Word).toNat)
  obtain ⟨t, he, hr, ha⟩ := exec_retires hc hx (i := .tas c rd ra imm) hq rfl hin hb (inv_setG hu c _ _) (sameFlow_trans (sameFlow_store hs c _ _) (sameFlow_setG hu c _ _))
    (coreWork_trans (coreWork_store hs c _ _) (coreWork_setG hu c _ _))
  exact ⟨t, he, ha, hr.storedAt (storedAt_setG hu (store_storedAt hs c 1 (place_writable (by decide) h)) rd _),
    hr.wrote (wrote_setG hu (g_store hs c _ _) rd _)⟩

/-- A load from the window of another partition's engine is refused by the bark (R201, R231). -/
theorem lw_barked {rd ra imm e : Nat} (he : excReady s c) (hin : [(rd, 32), (ra, 32), (imm, 65536)].all (fun p => decide (p.1 < p.2)) = true)
    (h : place s c (dataAddr s c ra imm) 4 true false false = .barked e) :
    ∃ t, exec (.lw c rd ra imm) s = .next t ∧ tookExc (s.bark (s.engOwner c) 3 5 e) t c 3 (dataAddr s c ra imm) (s.pcOf c) :=
  ⟨_, (show exec (.lw c rd ra imm) s = insn c _ _ s from rfl).trans (insn_executes hc hx hin (iLoad_barked h)),
    exc_tookExc (inv_bark hs _ _ _ _) (by rw [State.core, State.core, bark_eng]) he (by decide) _⟩

end

/-- Settles O46: each body by the place its address has, with the octets it stores and the reservations it breaks. -/
theorem loadsStoresAndReservations : Obligations.LoadsStoresAndReservations := by
  intro s c rd ra rb imm hs hc hd ha hb hi hx a se loads stores stored
  have r3 : [(rd, 32), (ra, 32), (rb, 32)].all (fun p => decide (p.1 < p.2)) = true := by simp [hd, ha, hb]
  have r2 : [(rd, 32), (ra, 32), (imm, 65536)].all (fun p => decide (p.1 < p.2)) = true := by simp [hd, ha, hi]
  have sext : ∀ w v, BitVec.ofInt 32 (sgn w v) = se w v := fun w v => by
    unfold sgn
    rw [← ite_not]
    simp only [not_le, se]
  refine ⟨fun hq => ⟨?_, ?_, fun o sh h hp => lr_spec hc hx hs hq r2 h hp, fun o sh h => sc_spec hc hx hs hq r3 h, fun o sh h hp => tas_spec hc hx hs hq r2 h hp⟩,
    fun he => ⟨?_, ?_, ?_, fun e h => lw_barked hc hx hs he r2 h⟩, fun len r w at_ h => place_misaligned h s c r w false, fun o h => ?_, fun o h => ?_⟩
  · simp only [loads, List.forall_mem_cons]
    refine ⟨fun o sh h hp => ?_, fun o sh h hp => ?_, fun o sh h hp => ?_, fun o sh h hp => ?_, fun o sh h hp => ?_, by simp⟩
    · exact exec_writes hs hc hx hq rfl r2 (iLoad_mem h hp) rfl
    · exact exec_writes hs hc hx hq rfl r2 (iLoad_mem h hp) (sext 16 _)
    · exact exec_writes hs hc hx hq rfl r2 (iLoad_mem h hp) rfl
    · exact exec_writes hs hc hx hq rfl r2 (iLoad_mem h hp) (sext 8 _)
    · exact exec_writes hs hc hx hq rfl r2 (iLoad_mem h hp) rfl
  · simp only [stores, List.forall_mem_cons]
    refine ⟨fun o sh h => ?_, fun o sh h => ?_, fun o sh h => ?_, by simp⟩
    all_goals exact exec_stores hc hx hs hq rfl r2 (iStore_mem h) (place_writable (by decide) h)
  · simp only [loads, List.forall_mem_cons]
    refine ⟨fun k h => ?_, fun k h => ?_, fun k h => ?_, fun k h => ?_, fun k h => ?_, by simp⟩
    all_goals exact exec_raises hs hc hx he rfl r2 (iLoad_bad h) (place_cause h)
  · simp only [loads, List.forall_mem_cons]
    refine ⟨fun o sh h hp => ?_, fun o sh h hp => ?_, fun o sh h hp => ?_, fun o sh h hp => ?_, fun o sh h hp => ?_, by simp⟩
    all_goals exact exec_raises hs hc hx he rfl r2 (iLoad_parity h hp) (by decide)
  · simp only [stores, List.forall_mem_cons]
    refine ⟨fun k h => ?_, fun k h => ?_, fun k h => ?_, by simp⟩
    all_goals exact exec_raises hs hc hx he rfl r2 (iStore_bad h) (place_cause h)
  · refine (show exec (.lw c rd ra imm) s = insn c _ _ s from rfl).trans ((insn_executes hc hx r2 (iLoad_dev h)).trans ?_)
    rw [zext, BitVec.ofNat_toNat, BitVec.setWidth_eq]
    rfl
  · exact (show exec (.sw c rd ra imm) s = insn c _ _ s from rfl).trans (insn_executes hc hx r2 (iStore_dev h))

end Sys2Proof.Machine

/-! Branches, jumps and hardware loops (R218-R220). -/

namespace Sys2Proof.Machine

/-! ## Targets -/

/-- The program counter takes an address without its two low bits (R215). -/
theorem retire_aligned (c next cyc : Nat) (u : State) : retire c (next / 4 * 4) cyc u = retire c next cyc u := by
  have h : u.setPc c (next / 4 * 4) = u.setPc c next := by
    rw [State.setPc, State.setPc, show next / 4 * 4 / 4 * 4 = next / 4 * 4 by omega]
  rw [retire, retire, h]

theorem retire_retires_at {u : State} (hu : u.inv = true) {c : Nat} (next cyc : Nat) (hst : (u.core c).stepping = false)
    (hh : (u.core c).haltReq = false) : Retires u (retire c next cyc u) c (next / 4 * 4) := by
  rw [← retire_aligned]
  exact retire_retires hu cyc (by omega) hst hh

/-- A relative target: v words of a field of w bits, signed, from the pc (R219). -/
def wordsAway (s : State) (c w v : Nat) : Nat :=
  (((s.pcOf c : Int) + 4 * (if v < 2 ^ (w - 1) then (v : Int) else (v : Int) - 2 ^ w)) % 2 ^ 32).toNat

theorem offPc_eq (s : State) (c w v : Nat) : offPc s c w v = wordsAway s c w v := by
  unfold offPc wordsAway sgn
  rw [BitVec.toNat_ofInt, ← ite_not]
  simp only [not_le]
  rfl

theorem wordsAway_aligned {s : State} (hs : s.inv = true) (c w v : Nat) : wordsAway s c w v / 4 * 4 = wordsAway s c w v := by
  have := pcOf_aligned hs c
  unfold wordsAway
  generalize (if v < 2 ^ (w - 1) then (v : Int) else (v : Int) - 2 ^ w) = k
  omega

/-! ## Jumps with no loop open -/

section
variable {s : State} {c : Nat} (hc : c < 68) (hx : executes s c)
include hc hx

/-- A jump, from a state whose core c has no loop open and flows as before. -/
theorem exec_jumps {i : Instr} {fields : List (Nat × Nat)} {b : Body} {u : State} {target cyc : Nat} (hst : (s.core c).stepping = false)
    (hh : (s.core c).haltReq = false) (hd : (s.core c).depth = 0) (hi : exec i s = insn c fields b s)
    (hin : fields.all (fun p => decide (p.1 < p.2)) = true) (hb : b c s = .jump u target cyc) (hu : u.inv = true) (hf : SameFlow s u c)
    (hw : coreWork s u c) :
    ∃ t, exec i s = .next t ∧ Retires u t c (target / 4 * 4) ∧ advanced s t c (target / 4 * 4) := by
  have hr := retire_retires_at hu (c := c) target cyc (hf.stepping.trans hst) (hf.haltReq.trans hh)
  refine ⟨_, (hi.trans (insn_executes hc hx hin hb)).trans ?_, hr, hr.advanced hw⟩
  rw [applyRet, hf.depth, hd, closeLoops]

variable (hs : s.inv = true)
include hs

/-- A branch goes to its target where its condition holds, and to the next instruction where it does not (R219). -/
theorem branch_spec {i : Instr} {fields : List (Nat × Nat)} {w off : Nat} {cond : State → Nat → Bool} {q : Bool} (hst : (s.core c).stepping = false)
    (hh : (s.core c).haltReq = false) (hd : (s.core c).depth = 0) (hi : exec i s = insn c fields (iBranch w cond off) s)
    (hin : fields.all (fun p => decide (p.1 < p.2)) = true) (hq : cond s c = q) :
    ∃ t, exec i s = .next t ∧ advanced s t c (if q then wordsAway s c 16 off else s.pcOf c + 4) ∧ quiet s t c ∧ ∀ r, t.g c r = s.g c r := by
  have hl : atLoopEnd s c = false := by rw [atLoopEnd, hd]; rfl
  subst hq
  cases hcnd : cond s c
  case true =>
    have hb : iBranch w cond off c s = .jump s (offPc s c 16 off) 2 := by rw [iBranch, if_neg (by simp [hl]), if_pos hcnd]
    obtain ⟨t, he, hr, ha⟩ := exec_jumps hc hx hst hh hd hi hin hb hs (sameFlow_of_core rfl) (coreWork_refl s c)
    rw [offPc_eq, wordsAway_aligned hs] at ha
    exact ⟨t, he, ha, hr.quiet, hr.g⟩
  case false =>
    have hb : iBranch w cond off c s = .done s 1 := by rw [iBranch, if_neg (by simp [hl]), if_neg (by simp [hcnd])]
    obtain ⟨t, he, hr, ha⟩ := exec_retires hc hx ⟨hl, hst, hh⟩ hi hin hb hs (sameFlow_of_core rfl) (coreWork_refl s c)
    exact ⟨t, he, ha, hr.quiet, hr.g⟩

/-- A jump that links nothing. -/
theorem jump_spec {i : Instr} {fields : List (Nat × Nat)} {b : Body} {target : Nat} (hst : (s.core c).stepping = false)
    (hh : (s.core c).haltReq = false) (hd : (s.core c).depth = 0) (hi : exec i s = insn c fields b s)
    (hin : fields.all (fun p => decide (p.1 < p.2)) = true) (hb : atLoopEnd s c = false → b c s = .jump s target 2) :
    ∃ t, exec i s = .next t ∧ advanced s t c (target / 4 * 4) ∧ quiet s t c ∧ ∀ r, t.g c r = s.g c r := by
  have hl : atLoopEnd s c = false := by rw [atLoopEnd, hd]; rfl
  obtain ⟨t, he, hr, ha⟩ := exec_jumps hc hx hst hh hd hi hin (hb hl) hs (sameFlow_of_core rfl) (coreWork_refl s c)
  exact ⟨t, he, ha, hr.quiet, hr.g⟩

/-- A jump that links the next address in rd. -/
theorem link_spec {i : Instr} {fields : List (Nat × Nat)} {b : Body} {rd target : Nat} {v : Word} (hst : (s.core c).stepping = false)
    (hh : (s.core c).haltReq = false) (hd : (s.core c).depth = 0) (hi : exec i s = insn c fields b s)
    (hin : fields.all (fun p => decide (p.1 < p.2)) = true) (hb : atLoopEnd s c = false → b c s = .jump (s.setG c rd v) target 2) :
    ∃ t, exec i s = .next t ∧ advanced s t c (target / 4 * 4) ∧ quiet s t c ∧ wrote s t c rd v := by
  have hl : atLoopEnd s c = false := by rw [atLoopEnd, hd]; rfl
  obtain ⟨t, he, hr, ha⟩ := exec_jumps hc hx hst hh hd hi hin (hb hl) (inv_setG hs c rd v) (sameFlow_setG hs c rd v) (coreWork_setG hs c rd v)
  exact ⟨t, he, ha, quiet_trans (quiet_setG hs c rd v) hr.quiet, hr.wrote (wrote_setG hs (fun _ => rfl) rd v)⟩

end

/-! ## Loops (R220) -/

theorem inv_setDepth {s : State} (hs : s.inv = true) (c d : Nat) : (setDepth c d s).inv = true := inv_setCore hs c _ (inv_core hs c)

/-- The state with loop level d open: its count, and its first and last address. -/
def loopOpened (c d : Nat) (n : Word) (first last : Nat) (s : State) : State :=
  setDepth c (d + 1) (((s.setSys c (lcN d) n).setSys c (lsN d) (BitVec.ofNat 32 first)).setSys c (leN d) (BitVec.ofNat 32 last))

theorem coresOnly_loopOpened (s : State) (c d : Nat) (n : Word) (first last : Nat) : coresOnly s (loopOpened c d n first last s) :=
  coresOnly_trans (coresOnly_trans (coresOnly_setSys s c _ _) (coresOnly_setSys _ c _ _)) (coresOnly_trans (coresOnly_setSys _ c _ _) (coresOnly_setCore _ c _))

section
variable {s : State} (hs : s.inv = true) (c d : Nat) (n : Word) (first last : Nat)
include hs

theorem inv_loopOpened : (loopOpened c d n first last s).inv = true :=
  inv_setDepth (inv_setSys (inv_setSys (inv_setSys hs _ _ _) _ _ _) _ _ _) _ _

theorem core_loopOpened : (loopOpened c d n first last s).core c =
    { s.core c with sys := ((loopOpened c d n first last s).core c).sys, depth := d + 1 } := by
  have h1 := inv_setSys hs c (lcN d) n
  have h2 := inv_setSys h1 c (lsN d) (BitVec.ofNat 32 first)
  have h3 := inv_setSys h2 c (leN d) (BitVec.ofNat 32 last)
  unfold loopOpened setDepth
  rw [core_setCore_same h3, core_setSys h2, core_setSys h1, core_setSys hs]

theorem sys_loopOpened (m : Nat) : (loopOpened c d n first last s).sys c m =
    if m = leN d then BitVec.ofNat 32 last else if m = lsN d then BitVec.ofNat 32 first else if m = lcN d then n else s.sys c m := by
  have h1 := inv_setSys hs c (lcN d) n
  have h2 := inv_setSys h1 c (lsN d) (BitVec.ofNat 32 first)
  have h3 := inv_setSys h2 c (leN d) (BitVec.ofNat 32 last)
  unfold loopOpened setDepth
  rw [sys_of_core (t := State.setCore _ _ _) (s := ((s.setSys c (lcN d) n).setSys c (lsN d) (BitVec.ofNat 32 first)).setSys c (leN d) (BitVec.ofNat 32 last))
    (by rw [core_setCore_same h3]), sys_setSys h2, sys_setSys h1, sys_setSys hs]

theorem coreWork_setSys (m : Nat) (v : Word) : coreWork s (s.setSys c m v) c := coreWork_setCore hs c _

theorem coreWork_loopOpened : coreWork s (loopOpened c d n first last s) c := by
  have h1 := inv_setSys hs c (lcN d) n
  have h2 := inv_setSys h1 c (lsN d) (BitVec.ofNat 32 first)
  exact coreWork_trans (coreWork_trans (coreWork_setSys hs c _ _) (coreWork_setSys h1 c _ _))
    (coreWork_trans (coreWork_setSys h2 c _ _) (coreWork_setCore (inv_setSys h2 c _ _) c _))

end

/-- An instruction that is done where the innermost open level does not end goes on to the next one (R220). -/
theorem goOn_inner {u : State} {c d : Nat} (hd : (u.core c).depth = d + 1) (hl : (u.sys c (leN d)).toNat ≠ u.pcOf c) (cyc : Nat) :
    goOn c cyc u = retire c (u.pcOf c + 4) cyc u := by
  rw [goOn, hd, loopNext, if_neg hl]

/-- What a state with level d open, whose instruction is done, keeps and holds. -/
theorem loop_opens {s : State} (hs : s.inv = true) {c off : Nat} (n : Word) (ho : off ≠ 0) (hlt : off < 65536) (hst : (s.core c).stepping = false)
    (hh : (s.core c).haltReq = false) :
    ∃ u, loopOpened c (s.core c).depth n (s.pcOf c + 4) (s.pcOf c + 4 * off) s = u ∧ Retires u (goOn c 2 u) c (s.pcOf c + 4) ∧ coreWork s u c ∧
      (u.core c).depth = (s.core c).depth + 1 ∧ u.mem = s.mem ∧ (∀ r, u.g c r = s.g c r) ∧
      ∀ m, u.sys c m = if m = leN (s.core c).depth then BitVec.ofNat 32 (s.pcOf c + 4 * off)
        else if m = lsN (s.core c).depth then BitVec.ofNat 32 (s.pcOf c + 4) else if m = lcN (s.core c).depth then n else s.sys c m := by
  have hu := inv_loopOpened hs c (s.core c).depth n (s.pcOf c + 4) (s.pcOf c + 4 * off)
  have hcore := core_loopOpened hs c (s.core c).depth n (s.pcOf c + 4) (s.pcOf c + 4 * off)
  have hsys := sys_loopOpened hs c (s.core c).depth n (s.pcOf c + 4) (s.pcOf c + 4 * off)
  have hw := coreWork_loopOpened hs c (s.core c).depth n (s.pcOf c + 4) (s.pcOf c + 4 * off)
  have hm := congrArg State.mem (coresOnly_loopOpened s c (s.core c).depth n (s.pcOf c + 4) (s.pcOf c + 4 * off))
  generalize loopOpened c (s.core c).depth n (s.pcOf c + 4) (s.pcOf c + 4 * off) s = u at *
  have hpc : u.pcOf c = s.pcOf c := congrArg BitVec.toNat (by rw [hcore])
  have hdep : (u.core c).depth = (s.core c).depth + 1 := by rw [hcore]
  have ha := pcOf_aligned hs c
  refine ⟨u, rfl, ?_, hw, hdep, hm, fun r => g_of_core (by rw [hcore]) r, hsys⟩
  rw [goOn_inner hdep ?_, hpc]
  · exact retire_retires hu 2 (by omega) (by rw [hcore]; exact hst) (by rw [hcore]; exact hh)
  · have := pcOf_lt s c
    rw [hsys, if_pos rfl, hpc, BitVec.toNat_ofNat]
    omega

section
variable {s : State} {c : Nat} (hc : c < 68) (hx : executes s c) (hs : s.inv = true) {i : Instr} {fields : List (Nat × Nat)} {w off k : Nat}
  {n : State → Nat → Word} (hi : exec i s = insn c fields (iLoopN w n off) s) (hin : fields.all (fun p => decide (p.1 < p.2)) = true)
include hc hx hs hi hin

/-- A loop with a count opens a level; with none it is skipped (R220). -/
theorem loop_spec (hk : k < 2 ^ 32) (hnk : n s c = BitVec.ofNat 32 k) (hst : (s.core c).stepping = false) (hh : (s.core c).haltReq = false)
    (hl : atLoopEnd s c = false) (ho : off ≠ 0) (hlt : off < 65536)
    (hd : (s.core c).depth = 0 ∨ (s.core c).depth = 1 ∧ s.pcOf c + 4 * off ≤ (s.sys c 0x22).toNat) :
    (k ≠ 0 → ∃ t, exec i s = .next t ∧ advanced s t c (s.pcOf c + 4) ∧ (t.core c).depth = (s.core c).depth + 1 ∧
      t.sys c (0x20 + 3 * (s.core c).depth) = BitVec.ofNat 32 k ∧ t.sys c (0x21 + 3 * (s.core c).depth) = BitVec.ofNat 32 (s.pcOf c + 4) ∧
      t.sys c (0x22 + 3 * (s.core c).depth) = BitVec.ofNat 32 (s.pcOf c + 4 * off) ∧
      (∀ m, m < 0x20 + 3 * (s.core c).depth ∨ 0x23 + 3 * (s.core c).depth ≤ m → t.sys c m = s.sys c m) ∧ t.mem = s.mem ∧ ∀ r, t.g c r = s.g c r) ∧
    (k = 0 → ∃ t, exec i s = .next t ∧ advanced s t c (s.pcOf c + 4 * off + 4) ∧ quiet s t c ∧ ∀ r, t.g c r = s.g c r) := by
  have h6 : ¬(2 ≤ (s.core c).depth ∨ (s.core c).depth = 1 ∧ (s.sys c (leN 0)).toNat < s.pcOf c + 4 * off) := by
    rw [show leN 0 = 0x22 from rfl]
    omega
  have h1 : ¬(atLoopEnd s c ∨ off = 0) := by simp [hl, ho]
  refine ⟨fun hn => ?_, fun hn => ?_⟩
  · have hn0 : n s c ≠ 0 := fun e => hn (by
      have := congrArg BitVec.toNat (hnk.symm.trans e)
      rwa [BitVec.toNat_ofNat, Nat.mod_eq_of_lt hk] at this)
    have hb : iLoopN w n off c s = .done (loopOpened c (s.core c).depth (n s c) (s.pcOf c + 4) (s.pcOf c + 4 * off) s) 2 :=
      (if_neg h1).trans ((if_neg h6).trans (if_neg hn0))
    obtain ⟨u, he, hr, hw, hdep, hmem, hg, hsys⟩ := loop_opens hs (n s c) ho hlt hst hh
    rw [he] at hb
    have e0 : lcN (s.core c).depth = 0x20 + 3 * (s.core c).depth := rfl
    have e1 : lsN (s.core c).depth = 0x21 + 3 * (s.core c).depth := rfl
    have e2 : leN (s.core c).depth = 0x22 + 3 * (s.core c).depth := rfl
    rw [e0, e1, e2] at hsys
    refine ⟨goOn c 2 u, hi.trans (insn_executes hc hx hin hb), hr.advanced hw, hr.depth.trans hdep, ?_, ?_, ?_, fun m hm => ?_, hr.mem.trans hmem,
      fun r => (hr.g r).trans (hg r)⟩
    · rw [hr.sys, hsys, if_neg (by omega), if_neg (by omega), if_pos rfl, hnk]
    · rw [hr.sys, hsys, if_neg (by omega), if_pos rfl]
    · rw [hr.sys, hsys, if_pos rfl]
    · rw [hr.sys, hsys, if_neg (by omega), if_neg (by omega), if_neg (by omega)]
  · have hb : iLoopN w n off c s = .goto s (s.pcOf c + 4 * off + 4) 2 :=
      (if_neg h1).trans ((if_neg h6).trans (if_pos (by rw [hnk, hn]; rfl)))
    have ha := pcOf_aligned hs c
    have hr := retire_retires hs (c := c) (next := s.pcOf c + 4 * off + 4) 2 (by omega) hst hh
    exact ⟨_, hi.trans (insn_executes hc hx hin hb), hr.advanced (coreWork_refl s c), hr.quiet, hr.g⟩

/-- What LOOP and LOOPI raise (R220, R233). -/
theorem loop_raises (he : excReady s c) (hl : atLoopEnd s c = false) :
    (off = 0 → ∃ t, exec i s = .next t ∧ tookExc s t c 1 w (s.pcOf c)) ∧
      (off ≠ 0 → (2 ≤ (s.core c).depth ∨ (s.core c).depth = 1 ∧ (s.sys c 0x22).toNat < s.pcOf c + 4 * off) →
        ∃ t, exec i s = .next t ∧ tookExc s t c 6 w (s.pcOf c)) := by
  refine ⟨fun ho => ?_, fun ho h6 => ?_⟩
  · exact exec_raises hs hc hx he hi hin (if_pos (.inr ho)) (by decide)
  · exact exec_raises hs hc hx he hi hin ((if_neg (by simp [hl, ho])).trans (if_pos h6)) (by decide)

end

theorem goOn_repeats {s : State} {c : Nat} (hd : (s.core c).depth = 1) (hle : (s.sys c (leN 0)).toNat = s.pcOf c) (hn : s.sys c (lcN 0) - 1 ≠ 0)
    (cyc : Nat) : goOn c cyc s = retire c (s.sys c (lsN 0)).toNat cyc (s.setSys c (lcN 0) (s.sys c (lcN 0) - 1)) := by
  rw [goOn, hd, loopNext, if_pos hle, if_pos hn]

theorem goOn_closes {s : State} {c : Nat} (hd : (s.core c).depth = 1) (hle : (s.sys c (leN 0)).toNat = s.pcOf c) (hn : s.sys c (lcN 0) - 1 = 0)
    (cyc : Nat) : goOn c cyc s = retire c (s.pcOf c + 4) cyc (setDepth c 0 (s.setSys c (lcN 0) (s.sys c (lcN 0) - 1))) := by
  rw [goOn, hd, loopNext, if_pos hle, if_neg (not_not_intro hn), loopNext]

/-- The last instruction of level 0's body counts the level down and repeats it, or closes it (R220). -/
theorem nop_atLoopEnd {s : State} {c : Nat} (hc : c < 68) (hx : executes s c) (hs : s.inv = true) (hst : (s.core c).stepping = false)
    (hh : (s.core c).haltReq = false) (hd : (s.core c).depth = 1) (hle : (s.sys c 0x22).toNat = s.pcOf c) :
    ((s.sys c 0x20).toNat ≠ 1 → ∃ t, exec (.nopInsn c) s = .next t ∧ advanced s t c ((s.sys c 0x21).toNat / 4 * 4) ∧
        t.sys c 0x20 = s.sys c 0x20 - 1 ∧ (t.core c).depth = 1 ∧ ∀ r, t.g c r = s.g c r) ∧
      ((s.sys c 0x20).toNat = 1 → ∃ t, exec (.nopInsn c) s = .next t ∧ advanced s t c (s.pcOf c + 4) ∧ t.sys c 0x20 = 0 ∧ (t.core c).depth = 0 ∧
        ∀ r, t.g c r = s.g c r) := by
  have hex : exec (.nopInsn c) s = .next (goOn c 1 s) :=
    (show exec (.nopInsn c) s = insn c [] iNop s from rfl).trans (insn_executes hc hx rfl rfl)
  have h1 := inv_setSys hs c 0x20 (s.sys c 0x20 - 1)
  have hcore := core_setSys hs c 0x20 (s.sys c 0x20 - 1)
  have hsys : (s.setSys c 0x20 (s.sys c 0x20 - 1)).sys c 0x20 = s.sys c 0x20 - 1 := (sys_setSys hs c _ _ _).trans (if_pos rfl)
  refine ⟨fun hn => ?_, fun hn => ?_⟩
  · have h0 : s.sys c 0x20 - 1 ≠ 0 := fun e => hn (congrArg BitVec.toNat (sub_eq_zero.mp e))
    rw [hex, show goOn c 1 s = _ from goOn_repeats hd hle h0 1]
    have hr := retire_retires_at h1 (c := c) (s.sys c 0x21).toNat 1 (by rw [hcore]; exact hst) (by rw [hcore]; exact hh)
    exact ⟨_, rfl, hr.advanced (coreWork_setSys hs c _ _), (hr.sys _).trans hsys, hr.depth.trans (by rw [hcore]; exact hd),
      fun r => (hr.g r).trans (g_of_core (by rw [hcore]) r)⟩
  · have h0 : s.sys c 0x20 - 1 = 0 := sub_eq_zero.mpr (BitVec.eq_of_toNat_eq hn)
    rw [hex, show goOn c 1 s = retire c (s.pcOf c + 4) 1 (setDepth c 0 (s.setSys c 0x20 (s.sys c 0x20 - 1))) from goOn_closes hd hle h0 1]
    have h2 := inv_setDepth h1 c 0
    have hcore2 : (setDepth c 0 (s.setSys c 0x20 (s.sys c 0x20 - 1))).core c = { (s.setSys c 0x20 (s.sys c 0x20 - 1)).core c with depth := 0 } :=
      core_setCore_same h1 c _
    have ha := pcOf_aligned hs c
    have hr := retire_retires h2 (c := c) (next := s.pcOf c + 4) 1 (by omega) (by rw [hcore2, hcore]; exact hst) (by rw [hcore2, hcore]; exact hh)
    refine ⟨_, rfl, hr.advanced (coreWork_trans (coreWork_setSys hs c _ _) (coreWork_setCore h1 c _)), ?_, hr.depth.trans (by rw [hcore2]),
      fun r => (hr.g r).trans (g_of_core (by rw [hcore2, hcore]) r)⟩
    rw [hr.sys, sys_of_core (s := s.setSys c 0x20 (s.sys c 0x20 - 1)) (by rw [hcore2]), hsys, h0]

/-- Settles O47: a branch, a jump or a loop by what its body answers, and the end of a loop's body by the innermost level. -/
theorem branchesJumpsAndLoopsMoveThePc : Obligations.BranchesJumpsAndLoopsMoveThePc := by
  intro s c rd ra rb off off26 cnt hs hc hd ha hb ho ho26 hcnt hx hst hh a b pc dest branches d le loops
  have rB : [(ra, 32), (rb, 32), (off, 65536)].all (fun p => decide (p.1 < p.2)) = true := by simp [ha, hb, ho]
  have rJ : [(off26, 2 ^ 26)].all (fun p => decide (p.1 < p.2)) = true := by simpa using ho26
  have r1 : [(ra, 32)].all (fun p => decide (p.1 < p.2)) = true := by simp [ha]
  have r2 : [(rd, 32), (ra, 32)].all (fun p => decide (p.1 < p.2)) = true := by simp [hd, ha]
  have rL : [(ra, 32), (off, 65536)].all (fun p => decide (p.1 < p.2)) = true := by simp [ha, ho]
  have rLi : [(cnt, 1024), (off, 65536)].all (fun p => decide (p.1 < p.2)) = true := by simp [hcnt, ho]
  have nge : ∀ x y : Word, (!x.slt y) = decide (y.toInt ≤ x.toInt) := fun x y => by rw [BitVec.slt_eq_decide, ← decide_not]; simp only [not_lt]
  have ngeu : ∀ x y : Word, (!x.ult y) = decide (y.toNat ≤ x.toNat) := fun x y => by rw [BitVec.ult_eq_decide, ← decide_not]; simp only [not_lt]
  refine ⟨fun h0 => ⟨?_, ?_, ?_, ?_, ?_⟩, fun hl he => ?_, fun hl h0 hlev => ?_, fun he hl => ?_, fun hlev hle => ?_⟩
  · have B {i fields w cond q} := @branch_spec s c hc hx hs i fields w off cond q hst hh h0
    simp only [branches, List.forall_mem_cons]
    exact ⟨B rfl rB rfl, B rfl rB (by rw [decide_not]; rfl), B rfl rB rfl, B rfl rB (nge a b), B rfl rB rfl, B rfl rB (ngeu a b), B rfl rB (beq_true _),
      B rfl rB (beq_false _), by simp⟩
  · have := jump_spec hc hx hs (i := .j c off26) hst hh h0 rfl rJ (fun hl => if_neg (by simp [hl]))
    rwa [offPc_eq, wordsAway_aligned hs] at this
  · have := link_spec hc hx hs (i := .jal c off26) hst hh h0 rfl rJ (fun hl => if_neg (by simp [hl]))
    rwa [offPc_eq, wordsAway_aligned hs] at this
  · exact jump_spec hc hx hs (i := .jr c ra) hst hh h0 rfl r1 (fun hl => if_neg (by simp [hl]))
  · exact link_spec hc hx hs (i := .jalr c rd ra) hst hh h0 rfl r2 (fun hl => if_neg (by simp [hl]))
  · have E {i fields b w} (hi : exec i s = insn c fields b s) (hin : fields.all (fun p => decide (p.1 < p.2)) = true) (hw : insWord i = some w)
        (hb : b c s = .exc s 1 w) : ∃ t w, exec i s = .next t ∧ insWord i = some w ∧ tookExc s t c 1 w pc := by
      obtain ⟨t, h, ht⟩ := exec_raises hs hc hx he hi hin hb (by decide)
      exact ⟨t, w, h, hw, ht⟩
    simp only [branches, List.map_cons, List.map_nil, List.forall_mem_append, List.forall_mem_cons]
    have B {i cond w} (hi : exec i s = insn c [(ra, 32), (rb, 32), (off, 65536)] (iBranch w cond off) s) (hw : insWord i = some w) := E hi rB hw (if_pos hl)
    exact ⟨⟨B rfl rfl, B rfl rfl, B rfl rfl, B rfl rfl, B rfl rfl, B rfl rfl, B rfl rfl, B rfl rfl, by simp⟩, E rfl rJ rfl (if_pos hl), E rfl rJ rfl (if_pos hl),
      E rfl r1 rfl (if_pos hl), E rfl r2 rfl (if_pos hl), E rfl rL rfl (if_pos (.inl hl)), E rfl rLi rfl (if_pos (.inl hl)), by simp⟩
  · simp only [loops, List.forall_mem_cons]
    refine ⟨?_, ?_, by simp⟩
    · exact loop_spec hc hx hs (i := .loop c ra off) rfl rL a.isLt (BitVec.eq_of_toNat_eq (by simp [a])) hst hh hl h0 ho hlev
    · exact loop_spec hc hx hs (i := .loopi c cnt off) rfl rLi (by omega) rfl hst hh hl h0 ho hlev
  · simp only [loops, List.forall_mem_cons]
    exact ⟨loop_raises hc hx hs (i := .loop c ra off) rfl rL he hl, loop_raises hc hx hs (i := .loopi c cnt off) rfl rLi he hl, by simp⟩
  · exact nop_atLoopEnd hc hx hs hst hh hlev hle

end Sys2Proof.Machine

/-! System instructions: the number of open loop levels is not bounded by the invariant (R216, R220). -/

namespace Sys2Proof.Machine

/-- Supervisor 64 at level 1, running at 0x1000 with 81 loop levels open, of which the innermost has its LE under number 0x112. -/
def deepLoops : State :=
  (State.reset.wr (stateF 64) 1).setCore 64 { pc := 0x1000, depth := 81, g := [(1, 0x1000)] }

theorem deepLoops_inv : deepLoops.inv = true := by decide

theorem deepLoops_executes : executes deepLoops 64 := by decide

theorem deepLoops_inSequence : inSequence deepLoops 64 := by decide

/-- MTS of LE's number gives the level the pc as its last address, so that the instruction itself ends the level's body and goes to its LS. -/
theorem mts_deepLoops_pc : (applyRet 64 deepLoops (iMts 0x112 1 64 deepLoops)).pcOf 64 = 0 := by decide

/-- Refutes O48: on a state with the invariant whose core has more levels open than the two of R220, MTS of a writable register can write the LE of
an open level, and then does not go on at pc + 4. The clause of MTS excludes LE only under the numbers of the two levels. -/
theorem not_systemInstructionsExceptionsAndInterrupts : ¬ Obligations.SystemInstructionsExceptionsAndInterrupts := by
  intro h
  obtain ⟨hrun, -⟩ := h deepLoops 64 0 1 0x112 0 0 deepLoops_inv (by decide) (by decide) (by decide) (by decide) (by decide)
  obtain ⟨hrw, -⟩ := hrun deepLoops_executes deepLoops_inSequence
  obtain ⟨-, hmts⟩ := hrw 0xFFFFF00F (by decide) (by decide)
  obtain ⟨t, hex, hadv, -⟩ := hmts (by decide) (by decide)
  have hnext : exec (.mts 64 0x112 1) deepLoops = .next (applyRet 64 deepLoops (iMts 0x112 1 64 deepLoops)) :=
    (show exec (.mts 64 0x112 1) deepLoops = insn 64 [(0x112, 65536), (1, 32)] (iMts 0x112 1) deepLoops from rfl).trans
      (insn_executes (by decide) deepLoops_executes rfl rfl)
  have ht : t = applyRet 64 deepLoops (iMts 0x112 1 64 deepLoops) := Host.Outcome.next.inj (hex.symm.trans hnext)
  have hpc : t.pcOf 64 = (0x1000 + 4) % 2 ^ 32 := hadv.1
  rw [ht, mts_deepLoops_pc] at hpc
  exact absurd hpc (by decide)

end Sys2Proof.Machine

/-! Owners start, stop and load cores (R203, R236-R241). -/

namespace Sys2Proof.Machine

/-! ## One core and some registers -/

/-- From s to t only registers at some offsets and the record of core c differ. -/
def coreOnly (s t : State) (c : Nat) (as : List Nat) : Prop :=
  onlyRegs { s with eng := { s.eng with cores := t.eng.cores } } t as ∧ ∀ d, d ≠ c → t.core d = s.core d

theorem coreOnly_setCore {s : State} (hs : s.inv = true) (c : Nat) (k : FCore) : coreOnly s (s.setCore c k) c [] :=
  ⟨⟨rfl, fun _ _ => rfl⟩, fun _ hd => core_setCore_other hs hd _⟩

theorem coreOnly_wr {s : State} (hs : s.inv = true) (c : Nat) (f : RegFld) (v : Nat) : coreOnly s (s.wr f v) c [f.addr] :=
  ⟨⟨rfl, fun _ ha => reg_wr_other s f v _ (List.ne_of_not_mem_cons ha) hs⟩, fun _ _ => rfl⟩

theorem coreOnly_trans {s t u : State} {c : Nat} {as bs : List Nat} (a : coreOnly s t c as) (b : coreOnly t u c bs) : coreOnly s u c (as ++ bs) := by
  obtain ⟨⟨a1, a2⟩, a3⟩ := a
  obtain ⟨⟨b1, b2⟩, b3⟩ := b
  refine ⟨⟨by rw [b1, a1], fun x hx => ?_⟩, fun d hd => (b3 d hd).trans (a3 d hd)⟩
  rw [List.mem_append, not_or] at hx
  exact (b2 x hx.2).trans (a2 x hx.1)

theorem coreOnly_sub {s t : State} {c : Nat} {as bs : List Nat} (a : coreOnly s t c as) (h : as ⊆ bs) : coreOnly s t c bs :=
  ⟨⟨a.1.1, fun x hx => a.1.2 x (fun y => hx (h y))⟩, a.2⟩

theorem coreOnly_rd {s t : State} {c : Nat} {as : List Nat} (a : coreOnly s t c as) {f : RegFld} (hf : f.addr ∉ as) : t.rd f = s.rd f :=
  rd_of_reg (a.1.2 _ hf)

theorem coreOnly_mem {s t : State} {c : Nat} {as : List Nat} (a : coreOnly s t c as) : t.mem = s.mem := by rw [a.1.1]

theorem coreOnly_que {s t : State} {c : Nat} {as : List Nat} (a : coreOnly s t c as) : t.que = s.que := by rw [a.1.1]

theorem rd_setCore (s : State) (c : Nat) (k : FCore) (f : RegFld) : (s.setCore c k).rd f = s.rd f := rfl

/-! ## Halting, starting and resetting one core -/

section
variable {s : State} (hs : s.inv = true) (c : Nat)
include hs

/-- A core that halts with a cause (R236). -/
theorem haltCore_spec {cause : Nat} (hc : cause < 16) : haltedBy (haltCore c cause s) c cause ∧
    (haltCore c cause s).core c =
      { s.core c with resv := none, haltReq := false, stepping := false, held := false, issued := false, waitRun := 0 } ∧
    coreOnly s (haltCore c cause s) c [(stateF c).addr, (causeF c).addr] := by
  have hu := inv_setCore hs c { s.core c with resv := none, haltReq := false, stepping := false, held := false, issued := false, waitRun := 0 }
    (inv_core hs c)
  have hw := inv_wr hu (stateF c) 0
  have hcore : (haltCore c cause s).core c =
      { s.core c with resv := none, haltReq := false, stepping := false, held := false, issued := false, waitRun := 0 } := core_setCore_same hs c _
  refine ⟨⟨?_, rd_wr_fits hw (by simp) (by simpa using hc), by rw [hcore], by rw [hcore], by rw [hcore]⟩, hcore,
    coreOnly_trans (coreOnly_setCore hs c _) (coreOnly_trans (coreOnly_wr hu c _ _) (coreOnly_wr hw c _ _))⟩
  exact (rd_wr_apart hw (by simp) (.inr (by simp))).trans (rd_wr_fits hu (by simp) (by simp))

/-- A core that starts, to run or to step (R236). -/
theorem startCore_spec (step : Bool) : (startCore c step s).rd (stateF c) = 1 ∧
    (startCore c step s).core c = { s.core c with stepping := step, waitRun := 0 } ∧ coreOnly s (startCore c step s) c [(stateF c).addr] := by
  have hu := inv_setCore hs c { s.core c with stepping := step, waitRun := 0 } (inv_core hs c)
  exact ⟨rd_wr_fits hu (by simp) (by simp), core_setCore_same hs c _, coreOnly_trans (coreOnly_setCore hs c _) (coreOnly_wr hu c _ _)⟩

end

/-- A core at its reset values, halted with cause RESET (R236). -/
def resetCore (c : Nat) (s : State) : State :=
  ((s.wr (stateF c) 0).wr (causeF c) 7).setCore c { cycBase := ((s.wr (stateF c) 0).wr (causeF c) 7).clk.eng }

theorem coreReset_eq (c : Nat) (clear : Bool) (s : State) :
    coreReset c clear s = if clear then (resetCore c s).wr (ENG_STS.CLEARING (c / 8) (c % 8)) 1 else resetCore c s := rfl

theorem supReset_eq (n : Nat) (s : State) : supReset n s = resetCore (64 + n) s := rfl

/-- From s to t core c was reset: registers, system registers, loops and pc are at reset, and every other core is as before (R236, R237). -/
def freshCore (s t : State) (c : Nat) : Prop :=
  t.core c = { cycBase := s.clk.eng } ∧ t.rd (stateF c) = 0 ∧ t.rd (causeF c) = 7 ∧ t.pcOf c = 0 ∧
    (∀ r, t.g c r = 0) ∧ (∀ m, t.sys c m = if 64 ≤ c ∧ m = 0x14 then 4 else 0) ∧ ∀ d, d ≠ c → t.core d = s.core d

theorem core_resetCore {s : State} (hs : s.inv = true) (c : Nat) : (resetCore c s).core c = { cycBase := s.clk.eng } := by
  rw [resetCore, core_setCore_same (inv_wr (inv_wr hs _ _) _ _), wr_clk, wr_clk]

theorem resetCore_coreOnly {s : State} (hs : s.inv = true) (c : Nat) : coreOnly s (resetCore c s) c [(stateF c).addr, (causeF c).addr] := by
  have h1 := inv_wr hs (stateF c) 0
  exact coreOnly_trans (coreOnly_wr hs c _ _) (coreOnly_trans (coreOnly_wr h1 c _ _) (coreOnly_setCore (inv_wr h1 (causeF c) 7) c _))

theorem resetCore_fresh {s : State} (hs : s.inv = true) (c : Nat) : freshCore s (resetCore c s) c := by
  have h1 := inv_wr hs (stateF c) 0
  have hcore := core_resetCore hs c
  refine ⟨hcore, ?_, ?_, by rw [State.pcOf, hcore]; rfl, fun r => ?_, fun m => ?_, (resetCore_coreOnly hs c).2⟩
  · rw [resetCore, rd_setCore]
    exact (rd_wr_apart h1 (by simp) (.inr (by simp))).trans (rd_wr_fits hs (by simp) (by simp))
  · rw [resetCore, rd_setCore]
    exact rd_wr_fits h1 (by simp) (by simp)
  · rw [State.g, hcore]
    simp [sget]
  · rw [State.sys, hcore]
    simp [sget, sysReset, isSup]

/-- HALT of a core (R236). -/
theorem coreHalt_spec {s : State} (hs : s.inv = true) (c : Nat) :
    (s.rd (stateF c) ≠ 0 → midway s c = false → haltedBy (coreHalt c s) c 1 ∧ (coreHalt c s).pcOf c = s.pcOf c ∧
      ((coreHalt c s).core c).g = (s.core c).g ∧ ((coreHalt c s).core c).sys = (s.core c).sys ∧
      coreOnly s (coreHalt c s) c [(stateF c).addr, (causeF c).addr]) ∧
    (s.rd (stateF c) ≠ 0 → midway s c = true → coreHalt c s = s.setCore c { s.core c with haltReq := true }) ∧
    (s.rd (stateF c) = 0 → coreHalt c s = s.setCore c { s.core c with waitRun := 0 }) := by
  refine ⟨fun h0 hm => ?_, fun h0 hm => ?_, fun h0 => if_pos h0⟩
  · rw [show coreHalt c s = haltCore c 1 s from (if_neg h0).trans (if_neg (by simp [hm]))]
    obtain ⟨h, hcore, ho⟩ := haltCore_spec hs c (cause := 1) (by decide)
    exact ⟨h, congrArg BitVec.toNat (by rw [hcore]), by rw [hcore], by rw [hcore], ho⟩
  · exact (if_neg h0).trans (if_pos hm)

/-! ## RESET of an engine (R236, R237) -/

/-- From s to t an engine's notices and outstanding items were discarded and counted (R228, R237). -/
def notedBy (s t : State) (e : Nat) : Prop :=
  t.eng.outst = s.eng.outst.filter (fun q => q.1 != e) ∧ t.eng.discard = s.eng.discard ++ s.eng.outst.filter (fun q => q.1 == e) ∧
    t.eng.notices = sdel s.eng.notices e ∧
    t.rd (ENG_NTF_DISC.COUNT (e / 8) (e % 8)) = min 0xFFFFFFFF (s.rd (ENG_NTF_DISC.COUNT (e / 8) (e % 8)) + (noticesOf s e).length)

theorem inv_engDiscard {s : State} (hs : s.inv = true) (e : Nat) : (engDiscard e s).inv = true := kept_inv (kept_engDiscard e s (kept_refl hs))

theorem engDiscard_noted {s : State} (hs : s.inv = true) (e : Nat) : notedBy s (engDiscard e s) e :=
  ⟨rfl, rfl, sset_default (fun _ => []) s.eng.notices e, rd_incBy hs (ENG_NTF_DISC.COUNT (e / 8) (e % 8)) _ (by simp [ENG_NTF_DISC.COUNT])⟩

theorem notedBy_of_coreOnly {s u t : State} {e c : Nat} {as : List Nat} (h : notedBy s u e) (ho : coreOnly u t c as)
    (ha : ENG_NTF_DISC.reg (e / 8) (e % 8) ∉ as) : notedBy s t e := by
  obtain ⟨h1, h2, h3, h4⟩ := h
  have hrd := coreOnly_rd ho (f := ENG_NTF_DISC.COUNT (e / 8) (e % 8)) ha
  obtain ⟨⟨he, -⟩, -⟩ := ho
  have hO : t.eng.outst = u.eng.outst := by rw [he]
  have hD : t.eng.discard = u.eng.discard := by rw [he]
  have hN : t.eng.notices = u.eng.notices := by rw [he]
  exact ⟨hO.trans h1, hD.trans h2, hN.trans h3, hrd.trans h4⟩

end Sys2Proof.Machine

/-! RESET, CLEAR, IMEM writes and the power of a cluster (R203, R236-R241). -/

namespace Sys2Proof.Machine

/-! ## Registers of engines and clusters -/

theorem stateF_eng {e : Nat} (he : e < 64) : stateF e = ENG_STS.STATE (e / 8) (e % 8) := by simp [stateF, isSup, he]

theorem stateF_addr_eng {e : Nat} (he : e < 64) : (stateF e).addr = 0x2180004 + 0x200000 * (e / 8) + 0x100 * (e % 8) := by
  rw [stateF_eng he]
  rfl

/-! ## RESET and CLEAR (R236, R237) -/

theorem rd_engDiscard {s : State} (hs : s.inv = true) (e : Nat) {f : RegFld} (hf : f.addr ≠ ENG_NTF_DISC.reg (e / 8) (e % 8)) :
    (engDiscard e s).rd f = s.rd f :=
  rd_of_reg (reg_wr_other s (ENG_NTF_DISC.COUNT (e / 8) (e % 8)) _ _ hf hs)

theorem freshCore_wr {s t : State} {c : Nat} (h : freshCore s t c) (ht : t.inv = true) {f : RegFld} (hw : f.lo + f.w ≤ 32) (hlo : 8 ≤ f.lo) (v : Nat) :
    freshCore s (t.wr f v) c := by
  obtain ⟨h1, h2, h3, h4⟩ := h
  exact ⟨h1, (rd_wr_apart ht hw (.inr (.inl (by simp; omega)))).trans h2, (rd_wr_apart ht hw (.inr (.inl (by simpa using hlo)))).trans h3, h4⟩

/-- A RESET that need not wait: the engine is at its reset values, its notices are discarded and counted. -/
theorem engReset_now {s : State} (hs : s.inv = true) {e : Nat} (he : e < 64) (clear : Bool) (hm : midway s e = false) :
    freshCore s (engReset e clear s) e ∧ notedBy s (engReset e clear s) e ∧ (engReset e clear s).mem = s.mem ∧ (engReset e clear s).que = s.que ∧
      (clear = true → (engReset e clear s).on (ENG_STS.CLEARING (e / 8) (e % 8)) = true) := by
  have hu := inv_engDiscard hs e
  have hn := engDiscard_noted hs e
  have hmem : (engDiscard e s).mem = s.mem := rfl
  have hque : (engDiscard e s).que = s.que := rfl
  have hm' : midway (engDiscard e s) e = false := hm
  have hf : freshCore s (resetCore e (engDiscard e s)) e := resetCore_fresh hu e
  have ho := resetCore_coreOnly hu e
  have hr : (resetCore e (engDiscard e s)).inv = true := inv_setCore (inv_wr (inv_wr hu _ _) _ _) e _ rfl
  have hd : ENG_NTF_DISC.reg (e / 8) (e % 8) ∉ [(stateF e).addr, (causeF e).addr] := by
    simp only [causeF_addr, stateF_addr_eng he, ENG_NTF_DISC.reg, List.mem_cons, List.not_mem_nil, or_false, or_self]
    omega
  have hc := coreOnly_wr hr e (ENG_STS.CLEARING (e / 8) (e % 8)) 1
  rw [show engReset e clear s = _ from if_neg (by simp [hm']), coreReset_eq]
  cases clear
  case false =>
    exact ⟨hf, notedBy_of_coreOnly hn ho hd, (coreOnly_mem ho).trans hmem, (coreOnly_que ho).trans hque, nofun⟩
  case true =>
    refine ⟨freshCore_wr hf hr (by simp [ENG_STS.CLEARING]) (by simp [ENG_STS.CLEARING]) 1, notedBy_of_coreOnly (notedBy_of_coreOnly hn ho hd) hc ?_,
      (coreOnly_mem ho).trans hmem, (coreOnly_que ho).trans hque, fun _ => on_wr_flag hr (by simp [ENG_STS.CLEARING]) rfl true⟩
    simp [ENG_STS.CLEARING, ENG_STS.reg, ENG_NTF_DISC.reg]

/-- A RESET while a queue instruction runs is noted, and the core is halted when the instruction ends. -/
theorem engReset_waits {s : State} (hs : s.inv = true) {e : Nat} (he : e < 64) (clear : Bool) (hm : midway s e = true) :
    notedBy s (engReset e clear s) e ∧
      (engReset e clear s).core e = { s.core e with haltReq := true, stepping := false, resetReq := if clear then 2 else 1 } ∧
      (engReset e clear s).rd (stateF e) = s.rd (stateF e) ∧ (engReset e clear s).mem = s.mem ∧ (engReset e clear s).que = s.que := by
  have hu := inv_engDiscard hs e
  have hm' : midway (engDiscard e s) e = true := hm
  have hcore : (engDiscard e s).core e = s.core e := rfl
  rw [show engReset e clear s = _ from if_pos hm']
  refine ⟨notedBy_of_coreOnly (engDiscard_noted hs e) (coreOnly_setCore hu e _) (by simp), by rw [core_setCore_same hu, hcore], ?_, rfl, rfl⟩
  rw [rd_setCore, rd_engDiscard hs]
  rw [stateF_addr_eng he, ENG_NTF_DISC.reg]
  omega

/-! ## CLEARING ends (R237) -/

theorem byte_zeroMem {s : State} (hm : Memory.wf s.mem = true) {lo hi : Nat} (h : hi ≤ 0x3000000) (x : Nat) :
    (s.zeroMem lo hi).byte x = if lo ≤ x ∧ x < hi then 0 else s.byte x := by
  have hd := sget_sdrop (fun _ => (0 : Byte)) lo hi x s.mem 0 hm
  unfold State.byte
  split
  · rw [if_neg (by omega)]
  · exact hd

theorem parityBad_zeroMem (s : State) {lo hi : Nat} (hl : lo % 4 = 0) (hh : hi % 4 = 0) (x : Nat) :
    parityBad (s.zeroMem lo hi) x = (parityBad s x && !(decide (lo ≤ x) && decide (x < hi))) := by
  have e : (decide (x / 4 * 4 < lo) || decide (hi ≤ x / 4 * 4)) = !(decide (lo ≤ x) && decide (x < hi)) := by
    rw [Bool.eq_iff_iff]
    simp
    omega
  unfold parityBad State.zeroMem
  rw [← e, Bool.eq_iff_iff]
  simp [List.mem_filter]

/-- The octets of an engine's three memories (R231, R240). -/
def ownMemory (e x : Nat) : Prop :=
  (imemBase e ≤ x ∧ x < imemBase e + 0x8000) ∨ (dmemBase e ≤ x ∧ x < dmemBase e + 0x10000) ∨ (segBase e ≤ x ∧ x < segBase e + 0x10000)

theorem engBases {e : Nat} (he : e < 64) : imemBase e % 4 = 0 ∧ dmemBase e % 4 = 0 ∧ segBase e % 4 = 0 ∧ imemBase e + 0x8000 ≤ 0x3000000 ∧
    dmemBase e + 0x10000 ≤ 0x3000000 ∧ segBase e + 0x10000 ≤ 0x3000000 := by
  unfold dmemBase imemBase segBase
  omega

theorem zeroEngine_spec {s : State} (hs : s.inv = true) {e : Nat} (he : e < 64) (x : Nat) :
    (ownMemory e x → (zeroEngine e s).byte x = 0 ∧ parityBad (zeroEngine e s) x = false) ∧ (¬ownMemory e x → (zeroEngine e s).byte x = s.byte x) := by
  obtain ⟨h1, h2, h3, h4, h5, h6⟩ := engBases he
  have w1 := inv_mem (kept_inv (kept_zeroMem (imemBase e) (imemBase e + 0x8000) s (kept_refl hs)))
  have w2 := inv_mem (kept_inv (kept_zeroMem (dmemBase e) (dmemBase e + 0x10000) _
    (kept_refl (kept_inv (kept_zeroMem (imemBase e) (imemBase e + 0x8000) s (kept_refl hs))))))
  unfold zeroEngine ownMemory
  rw [byte_zeroMem w2 h6, byte_zeroMem w1 h5, byte_zeroMem (inv_mem hs) h4, parityBad_zeroMem _ h3 (by omega),
    parityBad_zeroMem _ h2 (by omega), parityBad_zeroMem _ h1 (by omega)]
  refine ⟨fun h => ⟨?_, ?_⟩, fun h => ?_⟩
  · rcases h with h | h | h
    · rw [if_pos h, ite_self, ite_self]
    · rw [if_pos h, ite_self]
    · rw [if_pos h]
  · rcases h with h | h | h <;> simp [h]
  · rw [not_or, not_or] at h
    rw [if_neg h.2.2, if_neg h.2.1, if_neg h.1]

/-- Only memory and its parity differ. -/
def memOnly (s t : State) : Prop := t = { s with mem := t.mem, badPar := t.badPar }

theorem memOnly_trans {s t u : State} (a : memOnly s t) (b : memOnly t u) : memOnly s u := by
  unfold memOnly at *
  rw [b, a]

theorem memOnly_zeroMem (lo hi : Nat) (s : State) : memOnly s (s.zeroMem lo hi) := rfl

theorem memOnly_zeroEngine (e : Nat) (s : State) : memOnly s (zeroEngine e s) :=
  memOnly_trans (memOnly_trans (memOnly_zeroMem _ _ s) (memOnly_zeroMem _ _ _)) (memOnly_zeroMem _ _ _)

/-! ## IMEM writes (R238) -/

theorem octets_succ (n v : Nat) : octets (n + 1) v = BitVec.ofNat 8 v :: octets n (v / 256) := by
  simp only [octets, List.range_succ_eq_map, List.map_cons, List.map_map, pow_zero, Nat.div_one]
  congr 1
  refine List.map_congr_left fun k _ => ?_
  simp only [Function.comp_apply, pow_succ', Nat.div_div_eq_div_mul]

/-- The octets of a number give back what fits them. -/
theorem octets_value (n : Nat) : ∀ v, unoctets (octets n v) = v % 256 ^ n := by
  induction n with
  | zero => exact fun v => (Nat.mod_one v).symm
  | succ n ih =>
    intro v
    rw [octets_succ, unoctets, ih, BitVec.toNat_ofNat, pow_succ' 256 n, Nat.mod_mul]

theorem mword_store {s : State} (hs : s.inv = true) (w : Option Nat) {a : Nat} (ha : a + 4 ≤ 0x3000000) (v : Word) :
    (s.store w a (octets 4 v.toNat)).mword a = v := by
  have hb : (s.store w a (octets 4 v.toNat)).bytes a 4 = octets 4 v.toNat := by
    unfold State.bytes octets
    refine List.map_congr_left fun k hk => ?_
    have hk4 := List.mem_range.mp hk
    exact (byte_store_at s w a k _ (inv_mem hs) (by simpa using hk4) (.inl (by omega))).trans (octets_getD _ hk4)
  rw [State.mword, hb, octets_value]
  exact BitVec.eq_of_toNat_eq (by simpa using v.isLt)

/-! ## Power of a cluster (R203, R239, R372) -/

theorem askLeave_eng (s : State) (who : Holder) (p mw : Nat) : (s.askLeave who p mw).eng = s.eng := by
  unfold State.askLeave
  dsimp only
  split <;> split <;> rfl

theorem askLeave_waiters (s : State) (who : Holder) (p mw : Nat) :
    ∃ l, (s.askLeave who p mw).pwr.waiters = s.pwr.waiters ++ [l] ∧ l.who = who ∧ l.part = p ∧ l.mw = mw := by
  unfold State.askLeave
  dsimp only
  split <;> split <;> exact ⟨_, rfl, rfl, rfl, rfl⟩

theorem reg_askLeave {s : State} (hs : s.inv = true) (who : Holder) (p mw : Nat) :
    ∀ a, a ≠ PWR_CNT_WAITED.reg → a ≠ PRT_PCNT.reg p 2 → (s.askLeave who p mw).reg a = s.reg a := by
  intro a h1 h2
  unfold State.askLeave
  dsimp only
  generalize (s.pwr.waiters.isEmpty && s.waiterFits ⟨who, p, mw, false⟩) = now
  generalize (s.pwr.waiters.isEmpty && !s.leaveShare p mw) = ref
  have hW : (if now = true then s else s.inc PWR_CNT_WAITED.COUNT).inv = true ∧ (if now = true then s else s.inc PWR_CNT_WAITED.COUNT).reg a = s.reg a := by
    split
    · exact ⟨hs, rfl⟩
    · exact ⟨inv_inc hs _, reg_wr_other s PWR_CNT_WAITED.COUNT _ a h1 hs⟩
  obtain ⟨hi, hr⟩ := hW
  generalize (if now = true then s else s.inc PWR_CNT_WAITED.COUNT) = u at *
  split
  · exact (reg_wr_other u (PRT_PCNT.COUNT p 2) _ a h2 hi).trans hr
  · exact hr

theorem inv_askLeave {s : State} (hs : s.inv = true) (who : Holder) (p mw : Nat) : (s.askLeave who p mw).inv = true :=
  kept_inv (kept_askLeave s who p mw (kept_refl hs))

/-- A request for leave does not touch the registers of engines and clusters. -/
theorem rd_askLeave {s : State} (hs : s.inv = true) (who : Holder) {p : Nat} (hp : p < 64) (mw : Nat) {f : RegFld} (hf : 0x2000000 ≤ f.addr) :
    (s.askLeave who p mw).rd f = s.rd f :=
  rd_of_reg (reg_askLeave hs who p mw _ (by unfold PWR_CNT_WAITED.reg; omega) (by unfold PRT_PCNT.reg; omega))

/-- A cluster that is OFF asks leave for its wake (R239). -/
theorem wakeCluster_spec {s : State} (hs : s.inv = true) (k : Nat) (h0 : s.rd (ENG_C_STS.PSTATE k) = 0) :
    (wakeCluster k s).rd (ENG_C_STS.PSTATE k) = 1 ∧ (wakeCluster k s).eng = s.eng ∧
      ∃ l, (wakeCluster k s).pwr.waiters = s.pwr.waiters ++ [l] ∧ l.who = .cluster k ∧ l.part = 0 ∧ l.mw = s.budget 5 := by
  have h1 := inv_wr hs (ENG_C_STS.PSTATE k) 1
  rw [show wakeCluster k s = _ from if_pos h0]
  refine ⟨?_, askLeave_eng _ _ _ _, askLeave_waiters _ _ _ _⟩
  rw [rd_askLeave h1 _ (by decide) _ (by simp [ENG_C_STS.PSTATE, ENG_C_STS.reg]; omega)]
  exact rd_wr_fits hs (by simp [ENG_C_STS.PSTATE]) (by simp [ENG_C_STS.PSTATE])

/-- An engine of P0 that is to run in a cluster that is OFF asks leave for the wake and waits (R236, R239). -/
theorem engRun_off {s : State} (hs : s.inv = true) {e kind : Nat} (he : e < 64) (h0 : s.rd (stateF e) = 0) (hc : clearing s e = false)
    (ho : s.engOwner e = 0) (hp : s.rd (ENG_C_STS.PSTATE (e / 8)) = 0) :
    (engRun e kind s).rd (ENG_C_STS.PSTATE (e / 8)) = 1 ∧ (engRun e kind s).core e = { s.core e with waitRun := kind } ∧
      (engRun e kind s).rd (stateF e) = 0 ∧
      ∃ l, (engRun e kind s).pwr.waiters = s.pwr.waiters ++ [l] ∧ l.who = .cluster (e / 8) ∧ l.part = 0 ∧ l.mw = s.budget 5 := by
  have hu := inv_setCore hs e { s.core e with waitRun := kind } (inv_core hs e)
  have h1 := inv_wr hu (ENG_C_STS.PSTATE (e / 8)) 1
  have hcore : ((s.setCore e { s.core e with waitRun := kind }).wr (ENG_C_STS.PSTATE (e / 8)) 1).core e = { s.core e with waitRun := kind } :=
    core_setCore_same hs e _
  have hrun : engRun e kind s = ((s.setCore e { s.core e with waitRun := kind }).wr (ENG_C_STS.PSTATE (e / 8)) 1).askLeave (.cluster (e / 8)) 0
      (s.budget 5) := by
    rw [← ho]
    exact (if_neg (by simp [State.on, h0, hc])).trans ((if_neg (by simp [hp])).trans (if_pos hp))
  rw [hrun, rd_askLeave h1 _ (by decide) _ (by simp [ENG_C_STS.PSTATE, ENG_C_STS.reg]; omega),
    rd_askLeave h1 _ (by decide) _ (by rw [stateF_addr_eng he]; omega)]
  refine ⟨rd_wr_fits hu (by simp [ENG_C_STS.PSTATE]) (by simp [ENG_C_STS.PSTATE]), ?_, ?_, askLeave_waiters _ _ _ _⟩
  · rw [State.core, askLeave_eng]
    exact hcore
  · refine (rd_wr_apart hu (by simp [ENG_C_STS.PSTATE]) (.inl ?_)).trans h0
    rw [stateF_addr_eng he]
    simp only [ENG_C_STS.PSTATE, ENG_C_STS.reg]
    omega

/-- A core that no longer waits for its cluster. -/
def dropWait (k : Nat) (u : State) (j : Nat) : State := u.setCore (8 * k + j) { u.core (8 * k + j) with waitRun := 0 }

theorem dropWaits_spec (k : Nat) (l : List Nat) : ∀ {s : State}, s.inv = true → (l.foldl (dropWait k) s).inv = true ∧
    coresOnly s (l.foldl (dropWait k) s) ∧
    ∀ d, (l.foldl (dropWait k) s).core d = if d ∈ l.map (8 * k + ·) then { s.core d with waitRun := 0 } else s.core d := by
  induction l with
  | nil => exact fun hs => ⟨hs, rfl, fun _ => rfl⟩
  | cons j l ih =>
    intro s hs
    have hu : (dropWait k s j).inv = true := inv_setCore hs _ _ (inv_core hs _)
    obtain ⟨hi, ho, hc⟩ := ih hu
    refine ⟨hi, coresOnly_trans (coresOnly_setCore s _ _) ho, fun d => ?_⟩
    rw [List.foldl_cons, hc, dropWait, core_setCore _ _ _ _ hs]
    by_cases hd : d = 8 * k + j
    · subst hd
      simp
    · simp [hd]

/-- A cluster whose cores are halted goes OFF and returns its leave (R239). -/
theorem sleepCluster_spec {s : State} (hs : s.inv = true) (k : Nat) (h : ∀ j, j < 8 → s.rd (stateF (8 * k + j)) = 0) :
    (sleepCluster k s).rd (ENG_C_STS.PSTATE k) = 0 ∧ (sleepCluster k s).mem = s.mem ∧ (∀ l ∈ (sleepCluster k s).pwr.held, l.who ≠ .cluster k) ∧
      (∀ j, j < 8 → (sleepCluster k s).core (8 * k + j) = { s.core (8 * k + j) with waitRun := 0 }) ∧
      onlyRegs { s with eng := (sleepCluster k s).eng, pwr := (sleepCluster k s).pwr } (sleepCluster k s) [ENG_C_STS.reg k] := by
  have h1 := inv_wr hs (ENG_C_STS.PSTATE k) 0
  obtain ⟨-, ho, hc⟩ := dropWaits_spec k (List.range 8) h1
  have e : sleepCluster k s = ((List.range 8).foldl (dropWait k) (s.wr (ENG_C_STS.PSTATE k) 0)).returnLeave (.cluster k) :=
    if_pos (List.all_eq_true.mpr fun j hj => by simp [h j (List.mem_range.mp hj)])
  rw [e]
  generalize (List.range 8).foldl (dropWait k) (s.wr (ENG_C_STS.PSTATE k) 0) = u at ho hc
  unfold coresOnly at ho
  have hreg : ∀ a, (u.returnLeave (.cluster k)).reg a = (s.wr (ENG_C_STS.PSTATE k) 0).reg a := fun a => by
    rw [State.reg, State.reg, returnLeave_regs, ho]
  refine ⟨?_, ?_, fun l hl => ?_, fun j hj => ?_, ?_, fun a ha => ?_⟩
  · rw [rd_of_reg (hreg _)]
    exact rd_wr_fits hs (by simp [ENG_C_STS.PSTATE]) (by simp [ENG_C_STS.PSTATE])
  · rw [returnLeave_mem, ho, wr_mem]
  · simpa using (List.mem_filter.mp hl).2
  · exact (hc _).trans (if_pos (List.mem_map.mpr ⟨j, List.mem_range.mpr hj, rfl⟩))
  · rw [ho]
    rfl
  · rw [hreg]
    exact reg_wr_other s (ENG_C_STS.PSTATE k) 0 a (List.ne_of_not_mem_cons ha) hs

/-- What a core that waited for its cluster does when the cluster comes ON. -/
def wakeCore (k : Nat) (u : State) (j : Nat) : State :=
  match (u.core (8 * k + j)).waitRun with
  | 0 => u
  | w => startCore (8 * k + j) (w == 2) u

theorem wakeCore_waiting {k j : Nat} {u : State} (h : (u.core (8 * k + j)).waitRun ≠ 0) :
    wakeCore k u j = startCore (8 * k + j) ((u.core (8 * k + j)).waitRun == 2) u := by
  unfold wakeCore
  split
  · next h0 => exact absurd h0 h
  · rfl

theorem wakeCore_idle {k j : Nat} {u : State} (h : (u.core (8 * k + j)).waitRun = 0) : wakeCore k u j = u := by
  unfold wakeCore
  rw [h]
  rfl

/-- The record of a core after its cluster came ON. -/
def FCore.woken (k : FCore) : FCore := if k.waitRun = 0 then k else { k with stepping := k.waitRun == 2, waitRun := 0 }

theorem woken_waitRun (k : FCore) : k.woken.waitRun = 0 := by
  unfold FCore.woken
  split
  · assumption
  · rfl

theorem woken_woken (k : FCore) : k.woken.woken = k.woken := if_pos (woken_waitRun k)

theorem wakeCore_spec {k j : Nat} (hk : k < 8) (hj : j < 8) {s : State} (hs : s.inv = true) : (wakeCore k s j).inv = true ∧
    (wakeCore k s j).rd (ENG_C_STS.PSTATE k) = s.rd (ENG_C_STS.PSTATE k) ∧
    ∀ i, i < 8 → (wakeCore k s j).core (8 * k + i) = (if i = j then (s.core (8 * k + i)).woken else s.core (8 * k + i)) ∧
      (wakeCore k s j).rd (stateF (8 * k + i)) = if i = j ∧ (s.core (8 * k + i)).waitRun ≠ 0 then 1 else s.rd (stateF (8 * k + i)) := by
  by_cases h : (s.core (8 * k + j)).waitRun = 0
  · rw [wakeCore_idle h]
    refine ⟨hs, rfl, fun i _ => ⟨?_, ?_⟩⟩
    · split
      · next hij => rw [hij, FCore.woken, if_pos h]
      · rfl
    · rw [if_neg]
      rintro ⟨rfl, hw⟩
      exact hw h
  · rw [wakeCore_waiting h]
    obtain ⟨hrd, hcore, ho⟩ := startCore_spec hs (8 * k + j) ((s.core (8 * k + j)).waitRun == 2)
    have haddr : ∀ i, i < 8 → (stateF (8 * k + i)).addr = 0x2180004 + 0x200000 * k + 0x100 * i := fun i hi => by
      rw [stateF_addr_eng (by omega)]
      omega
    refine ⟨kept_inv (kept_startCore _ _ s (kept_refl hs)), coreOnly_rd ho ?_, fun i hi => ?_⟩
    · rw [haddr j hj, List.mem_singleton]
      simp only [ENG_C_STS.PSTATE, ENG_C_STS.reg]
      omega
    · by_cases hij : i = j
      · subst hij
        rw [if_pos rfl, if_pos ⟨rfl, h⟩]
        exact ⟨hcore.trans (if_neg h).symm, hrd⟩
      · rw [if_neg hij, if_neg (fun e => hij e.1)]
        refine ⟨ho.2 _ (by omega), coreOnly_rd ho ?_⟩
        rw [haddr i hi, haddr j hj, List.mem_singleton]
        omega

theorem wakeCores_spec {k : Nat} (hk : k < 8) (l : List Nat) : ∀ {s : State}, s.inv = true → (∀ j ∈ l, j < 8) →
    (l.foldl (wakeCore k) s).rd (ENG_C_STS.PSTATE k) = s.rd (ENG_C_STS.PSTATE k) ∧
    ∀ i, i < 8 → (l.foldl (wakeCore k) s).core (8 * k + i) = (if i ∈ l then (s.core (8 * k + i)).woken else s.core (8 * k + i)) ∧
      (l.foldl (wakeCore k) s).rd (stateF (8 * k + i)) = if i ∈ l ∧ (s.core (8 * k + i)).waitRun ≠ 0 then 1 else s.rd (stateF (8 * k + i)) := by
  induction l with
  | nil => exact fun _ _ => ⟨rfl, fun _ _ => ⟨rfl, (if_neg (fun h => List.not_mem_nil h.1)).symm⟩⟩
  | cons j l ih =>
    intro s hs hl
    obtain ⟨hi, hp, hc⟩ := wakeCore_spec hk (hl j List.mem_cons_self) hs
    obtain ⟨hp', hc'⟩ := ih hi (fun m hm => hl m (List.mem_cons_of_mem _ hm))
    refine ⟨hp'.trans hp, fun i hi8 => ?_⟩
    obtain ⟨c1, r1⟩ := hc i hi8
    obtain ⟨c2, r2⟩ := hc' i hi8
    rw [List.foldl_cons, c2, r2, c1, r1]
    by_cases hij : i = j
    · subst hij
      simp only [if_true, woken_woken, ite_self, List.mem_cons_self, true_and, woken_waitRun, ne_eq, not_true, and_false, if_false, and_self]
    · simp only [hij, if_false, List.mem_cons, false_or, false_and, and_self]

/-- A cluster that has its leave comes ON and starts the cores that wait (R239). -/
theorem clusterOn_spec {s : State} (hs : s.inv = true) {k : Nat} (hk : k < 8) (h1 : s.rd (ENG_C_STS.PSTATE k) = 1)
    (hl : ∃ l ∈ s.pwr.held, l.who = .cluster k) : (clusterOn k s).rd (ENG_C_STS.PSTATE k) = 2 ∧
    ∀ i, i < 8 → (clusterOn k s).core (8 * k + i) = (s.core (8 * k + i)).woken ∧
      (clusterOn k s).rd (stateF (8 * k + i)) = if (s.core (8 * k + i)).waitRun ≠ 0 then 1 else s.rd (stateF (8 * k + i)) := by
  have hi := inv_wr hs (ENG_C_STS.PSTATE k) 2
  have e : clusterOn k s = (List.range 8).foldl (wakeCore k) (s.wr (ENG_C_STS.PSTATE k) 2) :=
    if_pos ⟨h1, List.any_eq_true.mpr (hl.imp fun l h => ⟨h.1, decide_eq_true h.2⟩)⟩
  obtain ⟨hp, hc⟩ := wakeCores_spec hk (List.range 8) hi (fun _ => List.mem_range.mp)
  rw [e]
  refine ⟨hp.trans (rd_wr_fits hs (by simp [ENG_C_STS.PSTATE]) (by simp [ENG_C_STS.PSTATE])), fun i hi8 => ?_⟩
  obtain ⟨c1, r1⟩ := hc i hi8
  have hm : i ∈ List.range 8 := List.mem_range.mpr hi8
  have hr : (s.wr (ENG_C_STS.PSTATE k) 2).rd (stateF (8 * k + i)) = s.rd (stateF (8 * k + i)) := by
    refine rd_wr_apart hs (by simp [ENG_C_STS.PSTATE]) (.inl ?_)
    rw [stateF_addr_eng (by omega)]
    simp only [ENG_C_STS.PSTATE, ENG_C_STS.reg]
    omega
  rw [c1, r1, if_pos hm, hr]
  simp only [hm, true_and]
  exact ⟨rfl, rfl⟩

end Sys2Proof.Machine

/-! The commands of engines, clusters and supervisors (R203, R236-R241). -/

namespace Sys2Proof.Machine

/-- A core's starting as its owner's command has it (R236). -/
theorem startCore_started {s : State} (hs : s.inv = true) (c : Nat) :
    (startCore c false s).rd (stateF c) = 1 ∧ (startCore c false s).core c = { s.core c with stepping := false, waitRun := 0 } ∧
      coreOnly s (startCore c false s) c [(stateF c).addr] := startCore_spec hs c false

/-- A core that is told to step and has not been held executes its instruction at once (R236). -/
theorem stepNow_started {s : State} (hs : s.inv = true) (dev : Dev) {c : Nat} (hh : (s.core c).held = false) :
    stepNow dev c (startCore c true s) = stepCore dev c (startCore c true s) := by
  obtain ⟨hrd, hcore, -⟩ := startCore_spec hs c true
  exact if_pos (by simp [running, hrd, hcore, hh])

/-- A core that is not RUNNING does not step. -/
theorem stepNow_idle {s : State} (dev : Dev) {c : Nat} (h : s.rd (stateF c) = 0) : stepNow dev c s = s := if_neg (by simp [running, h])

section
variable {s : State} {f : Fn} {off : Nat} (hr : reaches s f off) (e : Nat) (t : State)
include hr

/-- A command on an engine of P0 that reaches its register has its effect (R281). -/
theorem ownEngine_own (ho : s.engOwner e = 0) : ownEngine f off e t s = t := (if_neg (by simp [hr.2.2.1])).trans (if_neg (by simp [ho]))

theorem ownEngine_foreign (ho : s.engOwner e ≠ 0) : ownEngine f off e t s = s.bark 0 (fnKind f) 5 e := (if_neg (by simp [hr.2.2.1])).trans (if_pos ho)

end

/-- RUN and STEP of an engine of P0 that is halted, in a cluster that is ON. -/
theorem engRun_on {s : State} {e : Nat} (kind : Nat) (h0 : s.rd (stateF e) = 0) (hc : clearing s e = false)
    (hp : s.rd (ENG_C_STS.PSTATE (e / 8)) = 2) : engRun e kind s = startCore e (kind == 2) s :=
  (if_neg (by simp [State.on, h0, hc])).trans (if_pos hp)

/-- Settles O51: each command by what it makes of its core, its cluster or its memory. -/
theorem ownersStartStopAndLoadCores : Obligations.OwnersStartStopAndLoadCores := by
  intro f s e n k off v hs he hn hk only started steps halts fresh noted
  have hHalts : ∀ (i : Instr) (c : Nat), exec i s = .next (coreHalt c s) → halts i c := fun i c hi => by
    obtain ⟨h1, h2, h3⟩ := coreHalt_spec hs c
    exact ⟨fun h0 hm => ⟨_, hi, h1 h0 hm⟩, fun h0 hm => by rw [hi, h2 h0 hm], fun h0 => by rw [hi, h3 h0]⟩
  refine ⟨fun hr => ⟨fun ho h0 hc => ⟨fun hp => ?_, fun hp => ?_⟩, fun ho h0 => ?_, fun ho => ?_, ?_, fun hm => ?_, fun hm => ?_⟩, fun hc => ?_,
    fun hc => ?_, fun hoff h4 hr ho => ⟨fun h0 hc => ?_, fun h => ?_⟩, fun hr => ⟨fun h0 => ?_, fun h0 => ?_, fun h => ?_, fun h => ?_⟩,
    fun h1 hl => ?_, fun h => ?_, fun hr => ⟨fun h0 => ?_, fun h0 => ?_, ?_, fun h0 hh => ?_, ?_⟩⟩
  · -- RUN and STEP in a cluster that is ON
    refine ⟨⟨_, ranged_p0Only (decide_eq_true he) hr _, ?_⟩, fun hh => ?_⟩
    · rw [ownEngine_own hr e _ ho, engRun_on 1 h0 hc hp]
      exact startCore_started hs e
    · refine (ranged_p0Only (decide_eq_true he) hr _).trans ?_
      rw [ownEngine_own hr e _ ho, engRun_on 2 h0 hc hp]
      exact congrArg _ (stepNow_started hs noDev hh)
  · -- RUN and STEP in a cluster that is OFF
    have hrun := fun kind => engRun_off hs (kind := kind) he h0 hc ho hp
    simp only [List.forall_mem_cons]
    refine ⟨⟨_, (ranged_p0Only (decide_eq_true he) hr _).trans (by rw [ownEngine_own hr e _ ho]), hrun 1⟩,
      ⟨_, (ranged_p0Only (decide_eq_true he) hr _).trans (by rw [ownEngine_own hr e _ ho, stepNow_idle _ (hrun 2).2.2.1]), hrun 2⟩, by simp⟩
  · refine (ranged_p0Only (decide_eq_true he) hr _).trans ?_
    rw [ownEngine_own hr e _ ho]
    exact congrArg _ (if_pos (by simp [State.on, h0]))
  · exact ⟨(ranged_p0Only (decide_eq_true he) hr _).trans (by rw [ownEngine_foreign hr e _ ho]),
      (ranged_p0Only (decide_eq_true he) hr _).trans (by rw [ownEngine_foreign hr e _ ho])⟩
  · exact hHalts _ e (ranged_p0Only (decide_eq_true he) hr _)
  · -- RESET and CLEAR at once
    obtain ⟨f1, n1, m1, q1, -⟩ := engReset_now hs he false hm
    obtain ⟨f2, n2, m2, q2, c2⟩ := engReset_now hs he true hm
    exact ⟨⟨_, ranged_p0Only (decide_eq_true he) hr _, f1, n1, m1, q1⟩, _, ranged_p0Only (decide_eq_true he) hr _, f2, n2, m2, q2, c2 rfl⟩
  · simp only [List.forall_mem_cons]
    exact ⟨⟨_, ranged_p0Only (decide_eq_true he) hr _, engReset_waits hs he false hm⟩, ⟨_, ranged_p0Only (decide_eq_true he) hr _, engReset_waits hs he true hm⟩,
      by simp⟩
  · -- CLEARING ends
    have hz := kept_inv (kept_zeroEngine e s (kept_refl hs))
    have hbyte : ∀ x, ((zeroEngine e s).wr (ENG_STS.CLEARING (e / 8) (e % 8)) 0).byte x = (zeroEngine e s).byte x := byte_of_mem (wr_mem _ _ _)
    have hpar : ∀ x, parityBad ((zeroEngine e s).wr (ENG_STS.CLEARING (e / 8) (e % 8)) 0) x = parityBad (zeroEngine e s) x := fun x => by
      rw [parityBad, parityBad, wr_badPar]
    refine ⟨_, (if_pos (decide_eq_true he)).trans (congrArg _ (if_pos hc)), on_wr_flag hz (by simp [ENG_STS.CLEARING]) rfl false, fun x hx => ?_,
      fun x h1 h2 h3 => (hbyte x).trans ((zeroEngine_spec hs he x).2 (by unfold ownMemory; omega)), ?_⟩
    · rw [hbyte, hpar]
      exact (zeroEngine_spec hs he x).1 hx
    · rw [wr_mem, wr_badPar, ← memOnly_zeroEngine e s]
      exact wr_onlyRegs (zeroEngine e s) (ENG_STS.CLEARING (e / 8) (e % 8)) 0 hz
  · exact (if_pos (decide_eq_true he)).trans (congrArg _ (if_neg (by simp [hc])))
  · -- an IMEM write that is taken
    have hb := engBases he
    refine ⟨_, ranged_p0Only (by simp [he, hoff, h4]) hr _, ?_⟩
    rw [ownEngine_own hr e _ ho, show imemWrite e off (octets 4 v.toNat) s = _ from if_pos (by simp [imemAccepts, h0, hc])]
    exact ⟨mword_store hs none (by omega) v, fun x hx => byte_store_other s none _ x _ (inv_mem hs) (by simpa using hx), rfl⟩
  · refine ⟨_, ranged_p0Only (by simp [he, hoff, h4]) hr _, ?_⟩
    rw [ownEngine_own hr e _ ho, show imemWrite e off (octets 4 v.toNat) s = _ from if_neg (by
      unfold imemAccepts
      rcases h with h | h <;> simp [h])]
    exact wr_sets s _ 1 hs (by simp [ENG_STS.WR_REFUSED]) (by simp [ENG_STS.WR_REFUSED])
  · -- WAKE
    obtain ⟨hp, heng, l, hl, hwho, hpart, hmw⟩ := wakeCluster_spec hs k h0
    exact ⟨_, l, ranged_p0Only (decide_eq_true hk) hr _, hp, hl, hwho, hpart, hmw, heng⟩
  · exact (ranged_p0Only (decide_eq_true hk) hr _).trans (congrArg _ (if_neg h0))
  · -- SLEEP
    obtain ⟨j, hj, hst⟩ := h
    refine (ranged_p0Only (decide_eq_true hk) hr _).trans (congrArg _ (if_neg fun hall => hst ?_))
    simpa using List.all_eq_true.mp hall j (List.mem_range.mpr hj)
  · exact ⟨_, ranged_p0Only (decide_eq_true hk) hr _, sleepCluster_spec hs k h⟩
  · -- CLUSTER_ON
    obtain ⟨hp, hc⟩ := clusterOn_spec hs hk h1 hl
    refine ⟨_, if_pos (decide_eq_true hk), hp, fun j hj hw => ?_, fun j hj hw => ?_⟩
    · obtain ⟨hcore, hrd⟩ := hc j hj
      rw [if_pos hw] at hrd
      rw [hcore, FCore.woken, if_neg hw]
      exact ⟨hrd, rfl, rfl⟩
    · obtain ⟨hcore, hrd⟩ := hc j hj
      rw [if_neg (not_not_intro hw)] at hrd
      exact ⟨hcore.trans (if_pos hw), hrd⟩
  · refine (if_pos (decide_eq_true hk)).trans (congrArg _ (if_neg ?_))
    rintro ⟨hp, hany⟩
    obtain ⟨l, hl, hwho⟩ := List.any_eq_true.mp hany
    rcases h with h | h
    · exact h hp
    · exact h l hl (of_decide_eq_true hwho)
  · -- RUN of a supervisor
    refine ⟨_, ranged_p0Only (decide_eq_true hn) hr _, ?_⟩
    rw [show supRun n false s = _ from if_neg (by simp [State.on, h0])]
    exact startCore_started hs (64 + n)
  · exact (ranged_p0Only (decide_eq_true hn) hr _).trans (congrArg _ (if_pos (by simp [State.on, h0])))
  · exact hHalts _ (64 + n) (ranged_p0Only (decide_eq_true hn) hr _)
  · refine (ranged_p0Only (decide_eq_true hn) hr _).trans ?_
    rw [show supRun n true s = _ from if_neg (by simp [State.on, h0])]
    exact congrArg _ (stepNow_started hs supDev hh)
  · refine ⟨_, ranged_p0Only (decide_eq_true hn) hr _, ?_⟩
    rw [supReset_eq]
    exact ⟨resetCore_fresh hs (64 + n), resetCore_coreOnly hs (64 + n)⟩

end Sys2Proof.Machine

/-! What the queue fabric, staging and the link controller leave alone beneath the cores (R186, R231). -/

namespace Sys2Proof.Machine

/-- From s to t the cores' records and memory are as they were, and the prunes that run go on. -/
structure FabricWork (s t : State) : Prop where
  cores : t.eng.cores = s.eng.cores
  mem : t.mem = s.mem
  prunes : ∀ x ∈ s.que.prunes, x ∈ t.que.prunes
  inPrune : ∀ h, (s.node h).life = 2 → (t.node h).life = 2

namespace FabricWork

theorem refl (s : State) : FabricWork s s := ⟨rfl, rfl, fun _ e => e, fun _ e => e⟩

theorem trans {s t u : State} (a : FabricWork s t) (b : FabricWork t u) : FabricWork s u :=
  ⟨b.cores.trans a.cores, b.mem.trans a.mem, fun x e => b.prunes x (a.prunes x e), fun h e => b.inPrune h (a.inPrune h e)⟩

theorem core {s t : State} (a : FabricWork s t) (c : Nat) : t.core c = s.core c := by rw [State.core, State.core, a.cores]

section
variable {s t : State} (a : FabricWork s t)
include a

theorem ite {u : State} {p : Prop} [Decidable p] (b : FabricWork s u) : FabricWork s (if p then t else u) := by
  split
  · exact a
  · exact b

theorem foldl {α : Type} {f : State → α → State} (hf : ∀ {u : State} (x : α), FabricWork s u → FabricWork s (f u x)) (l : List α) :
    FabricWork s (l.foldl f t) := by
  induction l generalizing t with
  | nil => exact a
  | cons x l ih => exact ih (hf x a)

/-! ## Registers, events and tables -/

theorem wr (f : RegFld) (v : Nat) : FabricWork s (t.wr f v) := ⟨a.cores, a.mem, a.prunes, a.inPrune⟩

theorem inc (f : RegFld) : FabricWork s (t.inc f) := ⟨a.cores, a.mem, a.prunes, a.inPrune⟩

theorem setReg (b : Nat) (v : Word) : FabricWork s (t.setReg b v) := ⟨a.cores, a.mem, a.prunes, a.inPrune⟩

/-- A change beside the cores, memory and the fabric. -/
theorem beside {u : State} (hc : u.eng.cores = t.eng.cores) (hm : u.mem = t.mem) (hq : u.que = t.que) : FabricWork s u := by
  refine ⟨hc.trans a.cores, hm.trans a.mem, ?_, fun h e => ?_⟩
  · rw [hq]
    exact a.prunes
  · rw [State.node, hq]
    exact a.inPrune h e

theorem raise (c b : Nat) : FabricWork s (t.raise c b) := a.beside (by rw [raise_eng]) (by rw [raise_mem]) (raise_que t c b)

theorem bark (tag src tgt index : Nat) : FabricWork s (t.bark tag src tgt index) :=
  a.beside (by rw [bark_eng]) (by rw [bark_mem]) (bark_que t tag src tgt index)

theorem pulse (ch : Nat) : FabricWork s (t.pulse ch) := ⟨a.cores, a.mem, a.prunes, a.inPrune⟩

/-- A change of the fabric apart from contexts and prunes. -/
theorem que {q : Que} (hn : q.nodes = t.que.nodes) (hp : q.prunes = t.que.prunes) : FabricWork s { t with que := q } := by
  refine ⟨a.cores, a.mem, ?_, fun h e => ?_⟩
  · rw [hp]
    exact a.prunes
  · rw [State.node, hn]
    exact a.inPrune h e

theorem lnk (x : Lnk) : FabricWork s { t with lnk := x } := ⟨a.cores, a.mem, a.prunes, a.inPrune⟩

theorem txc (x : Txc) : FabricWork s { t with txc := x } := ⟨a.cores, a.mem, a.prunes, a.inPrune⟩

theorem freed : FabricWork s t.freed := ⟨a.cores, a.mem, a.prunes, a.inPrune⟩

/-- A context is written; one in PRUNE stays in it. -/
theorem setNode {h : Nat} {n : Node} (hn : (s.node h).life = 2 → n.life = 2) : FabricWork s (t.setNode h n) := by
  refine ⟨a.cores, a.mem, a.prunes, fun j e => ?_⟩
  by_cases hj : j = h
  · subst hj
    rw [node_setNode_same fun e' => absurd (e'.symm ▸ hn e : ({} : Node).life = 2) (by decide)]
    exact hn e
  · have hl := a.inPrune j e
    rw [node_setNode_other hj n (by rw [hl]; decide)]
    exact hl

theorem ncPut (h : Nat) (f : Fld) (v : Nat) : FabricWork s (t.ncPut h f v) := a.setNode (a.inPrune h)

theorem setCell (k : Nat) (x : FCell) : FabricWork s (t.setCell k x) := ⟨a.cores, a.mem, a.prunes, a.inPrune⟩

theorem ihPut (k : Nat) (f : Fld) (v : Nat) : FabricWork s (t.ihPut k f v) := a.setCell k _

theorem setEnt (e : Nat) (x : Ent) : FabricWork s (t.setEnt e x) := ⟨a.cores, a.mem, a.prunes, a.inPrune⟩

/-! ## Cells and contexts -/

theorem setFree (v : Nat) : FabricWork s (setFree v t) := by
  have h := ((a.wr QUE_STS.FREE v).wr QUE_FREE_MIN.MIN v).ite (p := v < t.rd QUE_FREE_MIN.MIN) (a.wr QUE_STS.FREE v)
  exact (h.raise 5 6).ite h

theorem useLess (b n : Nat) : FabricWork s (useLess b n t) := (a.wr _ _).ite ⟨a.cores, a.mem, a.prunes, a.inPrune⟩

theorem useMore (b n : Nat) : FabricWork s (useMore b n t) := (a.wr _ _).ite ⟨a.cores, a.mem, a.prunes, a.inPrune⟩

theorem freeCell (k : Nat) : FabricWork s (freeCell t k) := by
  unfold Machine.freeCell
  split
  · exact a
  · exact ((a.setCell _ _).setFree _).useLess _ _

theorem freeCells (ks : List Nat) : FabricWork s (freeCells ks t) := a.foldl (fun k b => b.freeCell k) ks

theorem takeCells (b n : Nat) : FabricWork s (takeCells b n t).1 :=
  ((a.freed.foldl (fun _ c => c.setCell _ _) (freeFrom t (t.freeVal storeCells) n)).setFree _).useMore _ _

theorem ctxCheck (h : Nat) : FabricWork s (ctxCheck h t) :=
  have poisoned := a.setNode (h := h) (n := { t.node h with poison := true }) (a.inPrune h)
  a.ite ((((poisoned.wr _ _).wr _ _).wr _ _).inc QUE_CNT_CTX_PAR.COUNT |>.raise 5 2)

theorem cellParity (k : Nat) : FabricWork s (cellParity k t) := ((((a.wr _ _).wr _ _).wr _ _).inc QUE_CNT_CELL_PAR.COUNT).raise 5 1

/-! ## Items and queues -/

theorem readyCtx (x : Nat) (c : Ctx) (status detail attempts value result : Nat) :
    FabricWork s (readyCtx x c status detail attempts value result t) := by
  unfold Machine.readyCtx
  split
  · exact ⟨a.cores, a.mem, a.prunes, a.inPrune⟩
  · exact ⟨a.cores, a.mem, a.prunes, a.inPrune⟩

theorem complete (x status detail attempts value result : Nat) : FabricWork s (t.complete x status detail attempts value result) := by
  unfold State.complete
  split
  · exact a
  · exact a.ite ((a.readyCtx _ _ _ _ _ _ _).foldl (fun _ b => b.readyCtx _ _ _ _ _ _ _) _)

theorem giveNotice (e : Nat) (n : Notice) : FabricWork s (giveNotice e n t) := ⟨a.cores, a.mem, a.prunes, a.inPrune⟩

theorem finalNotice (e hc : Nat) (n : Notice) : FabricWork s (finalNotice e hc n t) := by
  unfold Machine.finalNotice
  split
  · exact ⟨a.cores, a.mem, a.prunes, a.inPrune⟩
  · split
    · exact ⟨a.cores, a.mem, a.prunes, a.inPrune⟩
    · exact a

theorem tellOrigin (h hc status : Nat) : FabricWork s (tellOrigin h hc status t) := by
  unfold Machine.tellOrigin
  refine ite ?_ (a.finalNotice _ _ _)
  dsimp only
  split
  · exact (a.complete _ _ _ _ _ _).ite a
  · exact a

theorem endItem (h hc status : Nat) : FabricWork s (endItem h hc status t) := by
  have b := a.tellOrigin h hc status
  have c : FabricWork s (forgotten hc (Machine.tellOrigin h hc status t)) := b.que rfl rfl
  exact (c.ncPut h NC.QLEN _).freeCells _

theorem startSweep {h : Nat} (hl : (t.node h).life = 1) (bad : Nat) : FabricWork s (startSweep h bad t) := by
  have b := (a.setNode (h := h) (n := { t.node h with life := 3 }) fun e => absurd (a.inPrune h e) (by rw [hl]; decide)).ncPut h NC.HEAD bad
  have c : FabricWork s (sweepDue h bad t) := by
    unfold sweepDue
    dsimp only
    generalize State.ncPut _ h NC.HEAD bad = u at b
    exact b.que rfl rfl
  rw [startSweep_eq]
  exact (c.wr QUE_STS.SWEEP 1).foldl (fun _ d => d.endItem _ _ _) _

theorem readHeaders (h : Nat) (ks : List Nat) : FabricWork s (readHeaders h ks t).1 := by
  unfold Machine.readHeaders
  split
  · dsimp only
    split
    · next k _ hl =>
      refine (a.cellParity k).startSweep ?_ k
      rw [State.node, cellParity_que]
      exact hl
    · exact a
  · exact a

theorem linkNext (ks : List Nat) : FabricWork s (linkNext ks t) := by
  induction ks generalizing t with
  | nil => exact a
  | cons k ks ih => exact ih (a.ihPut k _ _)

theorem setQueue (h : Nat) (items : List Nat) : FabricWork s (setQueue h items t) := by
  have b := (a.linkNext items).ncPut h NC.HEAD (items.headD noCell)
  rw [setQueue_eq]
  dsimp only
  generalize (Machine.linkNext items t).ncPut h NC.HEAD (items.headD noCell) = u at *
  exact b.foldl (fun _ d => d.ncPut h _ _) _

theorem backToQueue (x : Ent) : FabricWork s (backToQueue x t) := by
  unfold Machine.backToQueue
  refine ite ?_ a
  split
  · exact (a.readHeaders _ _).setQueue _ _
  · exact a

/-! ## Staging -/

theorem startSeq (prog sfd fend air aend slot sample : Nat) (conds : BitVec 16) (h hc att : Option Nat) :
    FabricWork s (startSeq prog sfd fend air aend slot sample conds h hc att t) := ⟨a.cores, a.mem, a.prunes, a.inPrune⟩

theorem putStream (ks : List Nat) (bs : List Bool) : FabricWork s (putStream ks bs t) := by
  induction ks generalizing t bs with
  | nil => exact a
  | cons k ks ih => exact ih (a.setCell _ _) _

theorem ready (e : Nat) (x : Ent) : FabricWork s (ready e x t) := (a.putStream x.cells (entStream t x)).setEnt e _

theorem streamAlloc {x : Ent} {len : Nat} {r : State × List Nat} (h : streamAlloc x len t = some r) : FabricWork s r.1 := by
  unfold Machine.streamAlloc at h
  dsimp only at h
  split at h
  · obtain rfl := Option.some.inj h
    exact a.takeCells _ _
  · nomatch h

theorem prepPlain (e : Nat) : FabricWork s (prepPlain e t) := by
  unfold Machine.prepPlain
  dsimp only
  generalize hr : Machine.streamAlloc _ _ _ = o
  cases o with
  | some r => exact (a.streamAlloc hr).ready _ _
  | none => exact a

theorem stageSlot {x : Ent} {r : State × Nat} (h : stageSlot x t = some r) : FabricWork s r.1 := by
  unfold Machine.stageSlot at h
  split at h
  · next e _ =>
    obtain rfl := Option.some.inj h
    have b := fun v => (a.freed.setEnt e { x with st := 1, seqNo := t.txc.arrivals }).txc v
    exact ite (b _) ((b _).prepPlain e)
  · nomatch h

theorem pendClear (x : Ent) : FabricWork s (pendClear x t) := by
  unfold Machine.pendClear
  split
  · exact a
  · next h _ =>
    have b := a.ctxCheck h
    dsimp only
    generalize Machine.ctxCheck h t = u at *
    refine b.ite (ite ((b.freed.inc LNK_CNT_PCLR_LATE.COUNT).raise 4 3) ((b.freed.inc _).ite ?_))
    generalize hr : Machine.stageSlot _ _ = o
    cases o with
    | some r => exact ((b.freed.stageSlot hr).wr _ _).inc _
    | none => exact (b.freed.inc LNK_CNT_ACK_NOCRED.COUNT).raise 4 0

theorem followUpGone (x : Ent) : FabricWork s (followUpGone x t) := by
  have b := a.startSeq 3 0 0 x.air x.aEnd 0 0 0 x.node x.item none
  exact ((b.pendClear x).ite b).ite a

theorem burnEnt (x : Ent) : FabricWork s (burnEnt x t) := (a.inc _).ite a

theorem returnAir (x : Ent) : FabricWork s (returnAir x t) := (a.wr _ _).ite a

theorem reqUpdate : FabricWork s (reqUpdate t) :=
  a.foldl (fun _ b => b.ite (((b.wr _ _).inc _).ite (b.wr _ _))) [0, 1, 2, 3]

theorem releaseEnt (e : Nat) : FabricWork s (releaseEnt e t) := by
  have b : FabricWork s (entFreed e t) := (a.freeCells (t.ent e).cells).setEnt e {}
  have c : FabricWork s (coexWithdrawn e (entFreed e t)) := b.txc _
  rw [releaseEnt_eq]
  exact c.reqUpdate.lnk _

theorem vacate (e : Nat) : FabricWork s (vacate e t) := by
  unfold Machine.vacate
  dsimp only
  split
  · exact (a.releaseEnt e).setEnt e _
  · exact a.releaseEnt e

theorem squashTold (cause : Nat) (x : Ent) : FabricWork s (squashTold cause x t) := by
  have b := (a.inc (TXC_SQ_CNT.COUNT (cause - 1))).raise 3 1
  unfold Machine.squashTold
  dsimp only
  split
  · exact b.followUpGone x
  · exact b

theorem squashEnt (cause e : Nat) : FabricWork s (squashEnt cause t e) := by
  have b := (((a.burnEnt (t.ent e)).returnAir (t.ent e)).vacate e).backToQueue (t.ent e)
  rw [squashEnt_eq]
  split
  · exact a
  · exact (b.lnk _).squashTold _ _

theorem squashSched (cause : Nat) (d : Sched) : FabricWork s (squashSched cause t d) := by
  rw [squashSched_eq]
  exact (((a.lnk _).returnAir d.ent).backToQueue d.ent).squashTold cause d.ent

theorem squashAll (cause : Nat) (sel : Nat → Ent → Bool) : FabricWork s (squashAll cause sel t) := by
  refine a.foldl (fun x b => ?_) _
  split
  · exact b.squashEnt cause _
  · exact b.squashSched cause _

theorem squashNode (cause h : Nat) : FabricWork s (squashNode cause h t) := a.squashAll cause _

/-! ## Cancels, comparators and cells of the hopping schedule -/

theorem cancelNow (h hc : Nat) : FabricWork s (cancelNow h hc t) := ((a.squashAll 1 _).setQueue h _).endItem h hc 5

theorem tooLateNotice (e h hc : Nat) : FabricWork s (tooLateNotice e h hc t) := by
  refine a.ite (ite ?_ ?_)
  · exact ⟨a.cores, a.mem, a.prunes, a.inPrune⟩
  · exact ⟨a.cores, a.mem, a.prunes, a.inPrune⟩

theorem fireCmp (k : Nat) (late : Bool) : FabricWork s (fireCmp k late t) := by
  have b := ((a.wr (LNK_CMP_CTRL.FIRED k) 1).wr (LNK_CMP_CTRL.ARMED k) 0).wr (LNK_CMP_CTRL.LATE k) (if late then 1 else 0)
  exact (b.pulse _).ite b

theorem armCmp (k v : Nat) : FabricWork s (armCmp k v t) := by
  have b := (a.fireCmp k false).ite (p := t.on (LNK_CMP_CTRL.ARMED k) ∧ t.rd64 (LNK_CMP_LO.reg k) = t.atb) a
  have c := (b.setReg (LNK_CMP_LO.reg k) (BitVec.ofNat 32 v)).setReg (LNK_CMP_LO.reg k + 4) (BitVec.ofNat 32 (v / 2 ^ 32))
  exact (c.fireCmp k true).ite ((c.wr _ _).wr _ _)

theorem dropHeld (lo : Nat) : FabricWork s (t.dropHeld lo) := ⟨a.cores, a.mem, a.prunes, a.inPrune⟩

theorem cellWrite (tag kind k w : Nat) (v : Word) : FabricWork s (cellWrite tag kind k w v t) :=
  a.ite ((a.setReg _ _).ite ((a.bark _ _ _ _).ite (a.setReg _ _)))

/-! ## Deliveries, writes and node operations -/

theorem settleRx (k : Nat) : FabricWork s (settleRx k t) := by
  unfold Machine.settleRx
  split
  · next r _ =>
    have b := a.que (q := { t.que with rxs := t.que.rxs.eraseIdx k }) rfl rfl
    exact (b.freeCells (r.descCell :: r.cells)).ite a
  · exact a

theorem setIndex (x : Sparse IdxKey) : FabricWork s (setIndex x t) := (a.que (q := { t.que with index := x }) rfl rfl).wr _ _

theorem idxInsert (pan : Nat) (k : Addr) (h : Nat) : FabricWork s (idxInsert pan k h t).1 := by
  unfold Machine.idxInsert
  split
  · exact a
  · split
    · exact a.setIndex _
    · exact a.inc _

theorem idxInserts (h pan : Nat) (ks : List Addr) (n : Nat) :
    FabricWork s (ks.foldl (fun (r : State × Nat) k => if r.2 = 0 then Machine.idxInsert pan k h r.1 else r) (t, n)).1 := by
  induction ks generalizing t n with
  | nil => exact a
  | cons k ks ih =>
    rw [List.foldl_cons]
    split
    · exact ih (a.idxInsert pan k h) _
    · exact ih a n

theorem idxInsertAll (h pan : Nat) (ks : List Addr) : FabricWork s (idxInsertAll h pan ks t).1 := a.idxInserts h pan ks 0

theorem nodeAdd (h : Nat) (imp : Bool) (x : BitVec 512) : FabricWork s (nodeAdd h imp x t).1 := by
  unfold Machine.nodeAdd
  dsimp only
  split
  · exact a
  · next hl =>
    split
    · exact a
    · split
      · exact (a.idxInsertAll h _ _).setNode fun e => absurd (a.inPrune h e) (by simp [not_not.mp hl])
      · exact (a.inc _).ite a

theorem nodeUpdate (h : Nat) (imp dup drift : Bool) (x : BitVec 512) : FabricWork s (nodeUpdate h imp dup drift x t).1 := by
  have b := a.ctxCheck h
  unfold Machine.nodeUpdate
  generalize Machine.ctxCheck h t = u at *
  dsimp only
  split
  · exact b
  · split
    · exact b
    · split
      · exact b
      · split
        · refine squashNode (setNode ((b.setIndex _).idxInsertAll h _ _) ?_) 3 h
          exact b.inPrune h
        · exact (b.inc _).ite b

theorem pruning (h : Nat) (w : PruneFor) : FabricWork s (pruning h w t) :=
  have b := a.setNode (h := h) (n := { t.node h with life := 2 }) fun _ => rfl
  ⟨b.cores, b.mem, fun x e => List.mem_append_left _ (a.prunes x e), b.inPrune⟩

theorem nodePrune (h : Nat) (w : PruneFor) : FabricWork s (nodePrune h w t).1 := by
  have b := a.ctxCheck h
  unfold Machine.nodePrune
  generalize Machine.ctxCheck h t = u at *
  dsimp only
  split
  · exact b
  · exact (b.pruning h w).squashNode 4 h

theorem nodeQset (h : Nat) (hold clr : Bool) : FabricWork s (nodeQset h hold clr t).1 := by
  have b := a.ctxCheck h
  unfold Machine.nodeQset
  generalize Machine.ctxCheck h t = u at *
  dsimp only
  split
  · exact b
  · split
    · exact b
    · exact ((b.ncPut h _ _).ncPut h _ _).ite (b.ncPut h _ _)

theorem nodeOp (op : Nat) (v : Word) (x : BitVec 512) (w : PruneFor) : FabricWork s (nodeOp op v x w t).1 := by
  unfold Machine.nodeOp
  dsimp only
  split
  · exact a.nodeAdd _ _ _
  · exact a.nodeUpdate _ _ _ _ _
  · exact a.nodePrune _ _
  · exact a.ctxCheck _
  · exact a.nodeQset _ _ _

theorem fillChain (ks : List Nat) (bs : List (List Byte)) (own : Option Nat) : FabricWork s (fillChain ks bs own t) := by
  induction ks generalizing t bs with
  | nil => exact a
  | cons k ks ih =>
    cases bs with
    | nil => exact a
    | cons b bs => exact ih (a.setCell _ _) bs

theorem writeFull (p h : Nat) : FabricWork s (writeFull p h t) := (((a.ncPut h NC.QOVR 1).inc QUE_CNT_WR_FULL.COUNT).inc (QUE_PFULL.COUNT p)).raise 5 0

end

end FabricWork

end Sys2Proof.Machine

/-! What queue instructions have in common: their pointers, the words they read and the status they return (R224, R233). -/

namespace Sys2Proof.Machine

/-! ## Pointers and records -/

theorem ptrExc_misaligned {a : Nat} (h : a % 4 ≠ 0) (len : Nat) : ptrExc a len = some 2 := if_pos h

theorem ptrExc_outside {a len : Nat} (h4 : a % 4 = 0) (h : a < 0x10000 ∨ 0x20000 < a + len) : ptrExc a len = some 3 :=
  (if_neg (not_not_intro h4)).trans (if_pos h)

theorem ptrExc_inside {a len : Nat} (h4 : a % 4 = 0) (hlo : 0x10000 ≤ a) (hhi : a + len ≤ 0x20000) : ptrExc a len = none :=
  (if_neg (not_not_intro h4)).trans (if_neg (by omega))

section
variable {s : State} {c ra len w : Nat} {k : Nat → Nat → State → Ret}

theorem withPtr_sup (hc : 64 ≤ c) : withPtr w ra len k c s = .exc s 1 w := if_pos (by simpa [isSup] using hc)

theorem withPtr_bad {x : Nat} (hc : c < 64) (h : ptrExc (s.g c ra).toNat len = some x) : withPtr w ra len k c s = .exc s x (s.g c ra).toNat := by
  unfold withPtr
  dsimp only
  rw [if_neg (by simpa [isSup] using hc), h]

theorem withPtr_good (hc : c < 64) (h : ptrExc (s.g c ra).toNat len = none) : withPtr w ra len k c s = k (s.g c ra).toNat c s := by
  unfold withPtr
  dsimp only
  rw [if_neg (by simpa [isSup] using hc), h]

end

theorem readsDmem_bad {s : State} {c a n x : Nat} {k : Nat → State → Ret} (h : badDmem s c a n = some x) : readsDmem a n k c s = .exc s 5 x := by
  unfold readsDmem
  rw [h]

theorem readsDmem_good {s : State} {c a n : Nat} {k : Nat → State → Ret} (h : badDmem s c a n = none) : readsDmem a n k c s = k c s := by
  unfold readsDmem
  rw [h]

/-! ## Results -/

theorem FabricWork.sameFlow {s u : State} (h : FabricWork s u) (c : Nat) : SameFlow s u c := sameFlow_of_core (h.core c)

theorem FabricWork.g {s u : State} (h : FabricWork s u) (c r : Nat) : u.g c r = s.g c r := g_of_core (by rw [h.core]) r

section
variable {s : State} {c : Nat} (hc : c < 68) (hx : executes s c)
include hc hx

/-- An instruction that gives a result in rd, on a state u with the cores and memory of s in which it wrote memory, if anything. -/
theorem exec_gives {i : Instr} {fields : List (Nat × Nat)} {b : Body} {u x : State} {rd cyc : Nat} {v : Word} (hq : inSequence s c)
    (hi : exec i s = insn c fields b s) (hin : fields.all (fun p => decide (p.1 < p.2)) = true) (hb : b c s = .done (x.setG c rd v) cyc)
    (hu : FabricWork s u) (hxi : x.inv = true) (hux : coreWork u x c) (hcore : x.core c = u.core c) :
    ∃ t, exec i s = .next t ∧ advanced u t c (s.pcOf c + 4) ∧ wrote u t c rd v ∧ Retires (x.setG c rd v) t c (s.pcOf c + 4) := by
  have hf : SameFlow s x c := sameFlow_of_core (hcore.trans (hu.core c))
  have hr := goOn_retires (inv_setG hxi c rd v) cyc (sameFlow_trans hf (sameFlow_setG hxi c rd v)) hq
  exact ⟨_, hi.trans (insn_executes hc hx hin hb), hr.advanced (coreWork_trans hux (coreWork_setG hxi c rd v)),
    hr.wrote (wrote_setG hxi (fun r => g_of_core (by rw [hcore]) r) rd v), hr⟩

/-- An instruction that returns a status and leaves the cores and memory. -/
theorem exec_status {i : Instr} {fields : List (Nat × Nat)} {b : Body} {u : State} {rd k cyc : Nat} (hq : inSequence s c)
    (hi : exec i s = insn c fields b s) (hin : fields.all (fun p => decide (p.1 < p.2)) = true) (hb : b c s = status c rd k cyc u)
    (hu : FabricWork s u) (hui : u.inv = true) : ∃ t, exec i s = .next t ∧ advanced u t c (s.pcOf c + 4) ∧ wrote u t c rd (BitVec.ofNat 32 k) ∧
      t.mem = s.mem ∧ Retires (u.setG c rd (BitVec.ofNat 32 k)) t c (s.pcOf c + 4) := by
  obtain ⟨t, he, ha, hw, hr⟩ := exec_gives hc hx hq hi hin hb hu hui (coreWork_refl u c) rfl
  exact ⟨t, he, ha, hw, (hr.mem.trans (mem_setG u c rd _)).trans hu.mem, hr⟩

variable (hs : s.inv = true)
include hs

/-- A status that changes nothing beside rd. -/
theorem exec_tells {i : Instr} {fields : List (Nat × Nat)} {b : Body} {rd k cyc : Nat} (hq : inSequence s c)
    (hi : exec i s = insn c fields b s) (hin : fields.all (fun p => decide (p.1 < p.2)) = true) (hb : b c s = status c rd k cyc s) :
    ∃ t, exec i s = .next t ∧ (advanced s t c (s.pcOf c + 4) ∧ wrote s t c rd (BitVec.ofNat 32 k)) ∧ quiet s t c := by
  obtain ⟨t, he, ha, hqt, hw⟩ := exec_writes hs hc hx hq hi hin hb rfl
  exact ⟨t, he, ⟨ha, hw⟩, hqt⟩

/-- A request on a resource of another partition is refused by the bark and raises ACCESS with the resource's index (R201, R233). -/
theorem exec_barks {i : Instr} {fields : List (Nat × Nat)} {b : Body} {tgt idx : Nat} (he : excReady s c) (hi : exec i s = insn c fields b s)
    (hin : fields.all (fun p => decide (p.1 < p.2)) = true) (hb : b c s = barkExc c tgt idx s) :
    ∃ t, exec i s = .next t ∧ tookExc (s.bark (s.engOwner c) 3 tgt idx) t c 3 idx (s.pcOf c) :=
  ⟨_, hi.trans (insn_executes hc hx hin hb), exc_tookExc (inv_bark hs _ _ _ _) (by rw [State.core, State.core, bark_eng]) he (by decide) idx⟩

end

end Sys2Proof.Machine

/-! Link commands of engines (R137, R160, R170, R173, R230). -/

namespace Sys2Proof.Machine

/-- A sequence of program 6 or 7 has started (R173). -/
def seqBegun (u : State) : State := startSeq (6 + u.freeVal 2) 0 0 0 0 0 0 0 none none none u.freed

theorem inv_seqBegun {u : State} (hu : u.inv = true) : (seqBegun u).inv = true :=
  kept_inv (kept_startSeq _ _ _ _ _ _ _ _ _ _ _ _ (kept_freed u (kept_refl hu)))

theorem FabricWork.seqBegun {s u : State} (h : FabricWork s u) : FabricWork s (seqBegun u) := h.freed.startSeq _ _ _ _ _ _ _ _ _ _ _

theorem linkOk_eq (c rd : Nat) (u : State) : linkOk c rd u = status c rd 0 16 (seqBegun u) := rfl

/-! ## The record of a link command -/

section
variable {s : State} {c rd ra : Nat} {rsv : List Fld} {k : BitVec 128 → Nat → State → Ret} (hc : c < 64) (h4 : (s.g c ra).toNat % 4 = 0)
  (hlo : 0x10000 ≤ (s.g c ra).toNat) (hhi : (s.g c ra).toNat + 16 ≤ 0x20000)
include hc h4 hlo hhi

theorem lcmd_parity {w : Nat} (h : badDmem s c (s.g c ra).toNat 16 = some w) : lcmd rd ra rsv k c s = .exc s 5 w :=
  (withPtr_good hc (ptrExc_inside h4 hlo hhi)).trans (readsDmem_bad h)

variable (hp : badDmem s c (s.g c ra).toNat 16 = none)
include hp

theorem lcmd_reserved {f : Fld} (hf : f ∈ rsv) (h : f.of (linkCmd s c (s.g c ra).toNat) ≠ 0) : lcmd rd ra rsv k c s = status c rd 7 16 s :=
  (withPtr_good hc (ptrExc_inside h4 hlo hhi)).trans ((readsDmem_good hp).trans (if_pos (List.any_eq_true.mpr ⟨f, hf, by simpa using h⟩)))

theorem lcmd_clear (h : ∀ f ∈ rsv, f.of (linkCmd s c (s.g c ra).toNat) = 0) : lcmd rd ra rsv k c s = k (linkCmd s c (s.g c ra).toNat) c s :=
  (withPtr_good hc (ptrExc_inside h4 hlo hhi)).trans ((readsDmem_good hp).trans (if_neg (by
    rw [List.any_eq_true]
    rintro ⟨f, hf, hne⟩
    exact absurd (h f hf) (by simpa using hne))))

end

/-! ## Cancels (R160, R228) -/

theorem inv_engCancel {s : State} (hs : s.inv = true) (e h hc : Nat) : (engCancel e h hc s).inv = true := kept_inv (kept_engCancel e h hc s (kept_refl hs))

theorem engCancel_now {s : State} {hc : Nat} (h0 : cancelKind s hc = 0) (e h : Nat) : engCancel e h hc s = cancelNow h hc s := by
  unfold engCancel
  rw [h0]
  rfl

theorem engCancel_late {s : State} {hc : Nat} (h1 : cancelKind s hc = 1) (e h : Nat) : engCancel e h hc s = tooLateNotice e h hc s := by
  unfold engCancel
  rw [h1]
  rfl

theorem engCancel_waits {s : State} {hc : Nat} (h2 : cancelKind s hc = 2) (e h : Nat) :
    engCancel e h hc s = { s with lnk := { s.lnk with cancels := s.lnk.cancels ++ ([⟨hc, none, some e⟩] : List Cancel) } } := by
  unfold engCancel
  rw [h2]
  rfl

theorem FabricWork.engCancel {s t : State} (a : FabricWork s t) (e h hc : Nat) : FabricWork s (engCancel e h hc t) := by
  unfold Machine.engCancel
  split
  · exact a.cancelNow h hc
  · exact a.tooLateNotice e h hc
  · exact a.lnk _

/-- The notice of a cancel that came too late. -/
def lateNotice (s : State) (h hc : Nat) : Notice := ⟨2, 6, s.ih hc IH.ATTEMPTS, s.ih hc IH.COOKIE, h, lastAirOf s hc⟩

theorem tooLateNotice_gives {s : State} {e hc : Nat} (hl : (e, hc) ∉ s.eng.late) (hd : (e, hc) ∉ s.eng.discard) (h : Nat) :
    (e, hc) ∈ (tooLateNotice e h hc s).eng.late ∧ noticesOf (tooLateNotice e h hc s) e = noticesOf s e ++ [lateNotice s h hc] ∧
      (tooLateNotice e h hc s).eng.outst = s.eng.outst := by
  rw [show tooLateNotice e h hc s = _ from (if_neg hl).trans (if_neg hd)]
  refine ⟨List.mem_cons_self, ?_, rfl⟩
  unfold noticesOf giveNotice
  dsimp only
  rw [sset_of_ne (by simp)]
  exact sget_sput_same _ _ _ _

/-- An instruction's end leaves the engines' state but their records. -/
theorem advanced_eng {u t : State} {c next : Nat} (h : advanced u t c next) : t.eng = { u.eng with cores := t.eng.cores } := by
  obtain ⟨-, -, hf, -⟩ := h
  exact congrArg State.eng hf

/-! ## Cells of the hopping schedule (R170, R175) -/

theorem handleOwner_setReg {s : State} (hs : s.inv = true) {a : Nat} (ha : a < 0x700000) (v : Word) (h : Nat) :
    (s.setReg a v).handleOwner h = s.handleOwner h := by
  unfold State.handleOwner State.ownerAt
  rw [reg_setReg_other s a _ v (by unfold PRT_HMAP.reg; omega) (inv_regs hs)]

theorem locked_setReg {s : State} (hs : s.inv = true) {a k : Nat} (ha : a ≠ LNK_CTRL.reg) (hk : k < 8192) (v : Word) :
    (s.setReg a v).locked (LNK_CELL0.reg k) = s.locked (LNK_CELL0.reg k) := by
  rw [locked_CELL0 hk, locked_CELL0 hk]
  exact on_of_rd (rd_of_reg (reg_setReg_other s a LNK_CTRL.reg v (Ne.symm ha) (inv_regs hs)))

/-- Both words of a cell that names a node of its own partition. -/
theorem cellWrites_eq {s : State} (hs : s.inv = true) {k : Nat} (hk : k < 8192) {v w : Word} (ho : s.handleOwner (bf w 0 16) = bf w 24 6) (tag kind : Nat) :
    cellWrite tag kind k 1 w (cellWrite tag kind k 0 v s) =
      if s.on LNK_CTRL.LOCK = true then s else (s.setReg (LNK_CELL0.reg k) v).regWrite (LNK_CELL1.reg k) w := by
  have hlow : LNK_CELL0.reg k < 0x700000 ∧ LNK_CELL0.reg k ≠ LNK_CTRL.reg := by unfold LNK_CELL0.reg LNK_CTRL.reg; omega
  have hl := locked_CELL0 hk s
  unfold cellWrite
  split
  · next hon => rw [if_pos (hl.symm.trans hon)]
  · next hoff =>
    rw [if_pos rfl, locked_setReg hs hlow.2 hk, if_neg hoff, if_neg (by decide), handleOwner_setReg hs hlow.1, if_neg (not_not_intro ho), ← hl, if_neg hoff]

/-- A queue item is the outstanding item that a CANCEL names, by its engine, cookie and node (R160, R230). -/
def itemOf (s : State) (c : Nat) (x : BitVec 128) (q : Nat × Nat) : Bool :=
  q.1 == c && s.ih q.2 IH.COOKIE == LC.COOKIE.of x && (s.cell q.2).owner == some (LC.NODE.of x)

theorem itemOf_iff {s : State} {c : Nat} {x : BitVec 128} (q : Nat × Nat) :
    itemOf s c x q = true ↔ q.1 = c ∧ s.ih q.2 IH.COOKIE = LC.COOKIE.of x ∧ (s.cell q.2).owner = some (LC.NODE.of x) := by
  simp [itemOf, and_assoc]

/-- What CANCEL does once its record is read. -/
def cancelBody (rd : Nat) (x : BitVec 128) (c : Nat) (s : State) : Ret :=
  match s.eng.outst.find? (itemOf s c x) with
  | some q => linkOk c rd (engCancel c (LC.NODE.of x) q.2 s)
  | none => status c rd 7 16 s

theorem iLcancel_eq (rd ra : Nat) : iLcancel rd ra = lcmd rd ra [fld 0 8 24, fld 8 0 64] (cancelBody rd) := rfl

theorem cancelBody_none {s : State} {c : Nat} {x : BitVec 128} (h : s.eng.outst.find? (itemOf s c x) = none) (rd : Nat) :
    cancelBody rd x c s = status c rd 7 16 s := by
  unfold cancelBody
  rw [h]

theorem cancelBody_some {s : State} {c : Nat} {x : BitVec 128} {q : Nat × Nat} (h : s.eng.outst.find? (itemOf s c x) = some q) (rd : Nat) :
    cancelBody rd x c s = linkOk c rd (engCancel c (LC.NODE.of x) q.2 s) := by
  unfold cancelBody
  rw [h]

/-- Settles O50: each link command by its record, and its effect as the state on which its instruction ends. -/
theorem linkCommandsOfEngines : Obligations.LinkCommandsOfEngines := by
  intro s c rd ra hs hc hd hra hx hq a x p pc ends traps zero begun h4 hlo hhi
  have hc68 : c < 68 := hc.trans (by decide)
  have hin : [(rd, 32), (ra, 32)].all (fun q => decide (q.1 < q.2)) = true := by simp [hd, hra]
  have parity {i rsv k w} (hi : exec i s = insn c [(rd, 32), (ra, 32)] (lcmd rd ra rsv k) s) (hw : badDmem s c a 16 = some w) (he : excReady s c) :
      ∃ t, exec i s = .next t ∧ tookExc s t c 5 w pc := exec_raises hs hc68 hx he hi hin (lcmd_parity hc h4 hlo hhi hw) (by decide)
  refine ⟨fun w hw he => ?_, fun hp => ?_⟩
  · simp only [List.forall_mem_cons]
    exact ⟨parity rfl hw he, parity rfl hw he, parity rfl hw he, parity rfl hw he, parity rfl hw he, by simp⟩
  have told {i b} (hi : exec i s = insn c [(rd, 32), (ra, 32)] b s) (hb : b c s = status c rd 7 16 s) : ends i s 7 := by
    obtain ⟨t, he, ha, hw, hm, -⟩ := exec_status hc68 hx hq hi hin hb (.refl s) hs
    exact ⟨t, he, ha, hw, hm⟩
  have done {i b u} (hi : exec i s = insn c [(rd, 32), (ra, 32)] b s) (hb : b c s = linkOk c rd u) (hu : FabricWork s u) (hui : u.inv = true) :
      ends i (begun u) 0 := by
    obtain ⟨t, he, ha, hw, hm, -⟩ := exec_status hc68 hx hq hi hin hb hu.seqBegun (inv_seqBegun hui)
    exact ⟨t, he, ha, hw, hm⟩
  have refused {i b tgt idx} (hi : exec i s = insn c [(rd, 32), (ra, 32)] b s) (hb : b c s = barkExc c tgt idx s) : traps i tgt idx :=
    fun he => exec_barks hc68 hx hs he hi hin hb
  have clear {rsv k} (hz : zero rsv) : lcmd rd ra rsv k c s = k x c s := lcmd_clear hc h4 hlo hhi hp hz
  have cellWr {v w} (hv : v = BitVec.ofNat 32 (LC.W2.of x)) (hw : w = BitVec.ofNat 32 (LC.W3.of x)) (hz : zero [fld 0 8 8, fld 0 29 3, fld 4 0 32])
      (hg : s.rd (LNK_CELL1.PART (LC.CELL.of x)) = p ∧ bf w 24 6 = p ∧ s.handleOwner (bf w 0 16) = p) : iCellWr rd ra c s = linkOk c rd
        (if s.on LNK_CTRL.LOCK = true then s else (s.setReg (LNK_CELL0.reg (LC.CELL.of x)) v).regWrite (LNK_CELL1.reg (LC.CELL.of x)) w) := by
    subst hv hw
    exact (clear hz).trans ((if_neg fun h => h.elim (· hg.1) fun h => h.elim (· hg.2.1) (· hg.2.2)).trans
      (congrArg _ (cellWrites_eq hs (of_lt LC.CELL x) (hg.2.2.trans hg.2.1.symm) p 3)))
  refine ⟨?_, fun hz => ⟨fun hnone => ?_, fun hi hone => ?_⟩, fun hz => ⟨fun ho => ?_, fun ho => ?_⟩, fun hz => ⟨fun ho => ?_, fun ho => ?_⟩,
    fun hz => ⟨fun hg hl => ?_, fun hg hl => ?_, fun hg => ?_⟩, fun hz => ⟨fun ho => ?_, fun ho => ?_⟩⟩
  · -- a reserved bit is set
    have reserved {i rsv k f} (hi : exec i s = insn c [(rd, 32), (ra, 32)] (lcmd rd ra rsv k) s) (hf : f ∈ rsv) (hne : f.of x ≠ 0) : ends i s 7 :=
      told hi (lcmd_reserved hc h4 hlo hhi hp hf hne)
    simp only [List.forall_mem_cons]
    exact ⟨reserved rfl (by simp), reserved rfl (by simp), reserved rfl (by simp), reserved rfl (by simp), reserved rfl (by simp), reserved rfl (by simp),
      reserved rfl (by simp), reserved rfl (by simp), reserved rfl (by simp), reserved rfl (by simp), reserved rfl (by simp), by simp⟩
  · -- CANCEL without an outstanding item
    have hf : s.eng.outst.find? (itemOf s c x) = none := List.find?_eq_none.mpr fun q hq' hm => hnone q hq' ((itemOf_iff q).mp hm)
    exact told rfl ((clear hz).trans (cancelBody_none hf rd))
  · -- CANCEL of the engine's item
    have hf : s.eng.outst.find? (itemOf s c x) = some (c, hi) := by
      rw [← List.head?_filter, show itemOf s c x = _ from funext fun q => (Bool.eq_iff_iff.mpr ((itemOf_iff q).trans decide_eq_true_iff.symm)), hone]
      rfl
    have hb : iLcancel rd ra c s = linkOk c rd (engCancel c (LC.NODE.of x) hi s) := (clear hz).trans (cancelBody_some hf rd)
    have hk := (FabricWork.refl s).engCancel c (LC.NODE.of x) hi
    have hv := inv_engCancel hs c (LC.NODE.of x) hi
    refine ⟨fun h0 => ?_, fun h1 hl hdis => ?_, fun h1 hl => ?_, fun h2 => ?_⟩
    · rw [engCancel_now h0] at hb hk hv
      exact done rfl hb hk hv
    · rw [engCancel_late h1] at hb hk hv
      obtain ⟨hlate, hnote, hout⟩ := tooLateNotice_gives hl hdis (LC.NODE.of x)
      obtain ⟨t, he, ha, -⟩ := done (i := .lcmdCancel c rd ra) rfl hb hk hv
      have heng := advanced_eng ha
      refine ⟨t, he, ?_, ?_, ?_⟩
      · rw [heng]
        exact hlate
      · rw [noticesOf, heng]
        exact hnote
      · rw [heng]
        exact hout
    · rw [engCancel_late h1, show tooLateNotice c (LC.NODE.of x) hi s = s from if_pos hl] at hb
      exact done rfl hb (.refl s) hs
    · rw [engCancel_waits h2] at hb hk hv
      exact done rfl hb hk hv
  · exact done rfl ((clear hz).trans (if_neg (not_not_intro ho))) ((FabricWork.refl s).armCmp _ _ |>.dropHeld _) (kept_inv (kept_dropHeld _ _ (kept_armCmp _ _ s (kept_refl hs))))
  · exact refused rfl ((clear hz).trans (if_pos ho))
  · exact done rfl ((clear hz).trans (if_neg (not_not_intro ho))) ((FabricWork.refl s).wr _ _) (inv_wr hs _ _)
  · exact refused rfl ((clear hz).trans (if_pos ho))
  · -- CELL_WR
    have hb := cellWr rfl rfl hz hg
    rw [hl, if_neg Bool.false_ne_true] at hb
    exact done rfl hb (((FabricWork.refl s).setReg _ _).setReg _ _) (inv_setReg (inv_setReg hs _ _) _ _)
  · have hb := cellWr rfl rfl hz hg
    rw [hl, if_pos rfl] at hb
    exact done rfl hb (.refl s) hs
  · exact refused rfl ((clear hz).trans (if_pos ((not_and_or.mp hg).imp id not_and_or.mp)))
  · exact done rfl ((clear hz).trans (if_neg (not_not_intro ho))) ((FabricWork.refl s).pulse _) (kept_inv (kept_pulse s _ (kept_refl hs)))
  · exact refused rfl ((clear hz).trans (if_pos ho))

end Sys2Proof.Machine

/-! Descriptors, cells, deliveries and notices that an engine reads (R226, R228). -/

namespace Sys2Proof.Machine

/-! ## Records copied to DMEM (R224) -/

/-- From s to t octets were stored from an address on, and no other octet of memory differs. -/
def copiedAt (s t : State) (o : Nat) (bs : List Byte) : Prop := t.bytes o bs.length = bs ∧ ∀ k, k < o ∨ o + bs.length ≤ k → t.byte k = s.byte k

theorem store_copiedAt {s : State} (hs : s.inv = true) (w : Option Nat) {o : Nat} {bs : List Byte} (h : o + bs.length ≤ 0x3000000) :
    copiedAt s (s.store w o bs) o bs := by
  refine ⟨List.ext_getElem (by simp [State.bytes]) fun i h1 h2 => ?_, fun k hk => byte_store_other s w o k bs (inv_mem hs) hk⟩
  have hi : i < bs.length := h2
  simp only [State.bytes, List.getElem_map, List.getElem_range]
  rw [byte_store_at s w o i bs (inv_mem hs) hi (.inl (by omega)), List.getD_eq_getElem _ _ hi]

theorem dmemOff_inside {c a len : Nat} (hc : c < 64) (hlo : 0x10000 ≤ a) (hhi : a + len ≤ 0x20000) : dmemOff c a + len ≤ 0x3000000 := by
  have := (engBases hc).2.2.2.2.1
  unfold dmemOff
  omega

theorem recBytes_length (n : Nat) {m : Nat} (x : BitVec m) : (recBytes n x).length = n := octets_length n _

section
variable {s : State} {c : Nat} (hc : c < 64) (hx : executes s c)
include hc hx

/-- An instruction that copies octets to DMEM and gives a result in rd. -/
theorem exec_copies {i : Instr} {fields : List (Nat × Nat)} {b : Body} {u : State} {rd cyc a : Nat} {v : Word} {bs : List Byte} (hq : inSequence s c)
    (hi : exec i s = insn c fields b s) (hin : fields.all (fun p => decide (p.1 < p.2)) = true)
    (hb : b c s = .done ((u.store (some c) (dmemOff c a) bs).setG c rd v) cyc) (hu : FabricWork s u) (hui : u.inv = true) (hlo : 0x10000 ≤ a)
    (hhi : a + bs.length ≤ 0x20000) :
    ∃ t, exec i s = .next t ∧ (advanced u t c (s.pcOf c + 4) ∧ wrote u t c rd v) ∧ copiedAt s t (dmemOff c a) bs := by
  obtain ⟨t, he, ha, hw, hr⟩ := exec_gives (hc.trans (by decide)) hx hq hi hin hb hu (inv_store hui _ _ _) (coreWork_store hui c _ _)
    (core_store_self hui c _ _)
  have hm : ∀ y, t.byte y = (u.store (some c) (dmemOff c a) bs).byte y := byte_of_mem (hr.mem.trans (mem_setG _ c rd _))
  obtain ⟨h1, h2⟩ := store_copiedAt hui (some c) (dmemOff_inside hc hlo hhi)
  refine ⟨t, he, ⟨ha, hw⟩, ?_, fun y hy => ((hm y).trans (h2 y hy)).trans (byte_of_mem hu.mem y)⟩
  rw [show t.bytes (dmemOff c a) bs.length = _ from List.map_congr_left fun k _ => hm _]
  exact h1

end

/-! ## What the bodies answer -/

section
variable {s : State} {c rd ra rb : Nat} (hc : c < 64)
include hc

theorem iQrx_empty (h : ptrExc (s.g c ra).toNat 64 = none) (hf : s.eng.rxq.find? (fun q => q.1 == c / 8 && q.2.1 == s.engOwner c) = none) :
    iQrx rd ra c s = status c rd 1 20 s := by
  refine (withPtr_good hc h).trans ?_
  rw [hf]

theorem iQrx_copies {q : Nat × Nat × Nat} {r : Rx} (h : ptrExc (s.g c ra).toNat 64 = none)
    (hf : s.eng.rxq.find? (fun q => q.1 == c / 8 && q.2.1 == s.engOwner c) = some q) (hr : s.que.rxs.find? (fun r => r.descCell == q.2.2) = some r) :
    iQrx rd ra c s = status c rd (256 * q.2.2) 20
      (({ s with eng := { s.eng with rxq := s.eng.rxq.erase q, held := s.eng.held ++ [q] } } : State).store (some c) (dmemOff c (s.g c ra).toNat)
        (recBytes 64 (RD.PART.put r.dsc q.2.1))) := by
  refine (withPtr_good hc h).trans ?_
  rw [hf]
  dsimp only
  rw [hr]
  rfl

theorem iNtf_empty (h : ptrExc (s.g c ra).toNat 16 = none) (hn : noticesOf s c = []) : iNtf rd ra c s = status c rd 1 8 s := by
  refine (withPtr_good hc h).trans ?_
  rw [hn]

theorem iNtf_copies {n : Notice} {ns : List Notice} (h : ptrExc (s.g c ra).toNat 16 = none) (hn : noticesOf s c = n :: ns) :
    iNtf rd ra c s = status c rd 0 8 (({ s with eng := { s.eng with notices := sset (fun _ => []) s.eng.notices c ns } } : State).store (some c)
      (dmemOff c (s.g c ra).toNat) (noticeBytes n)) := by
  refine (withPtr_good hc h).trans ?_
  rw [hn]

theorem iCrel_held {q : Nat × Nat × Nat} (hf : s.eng.held.find? (fun q => q.2.1 == s.engOwner c && q.2.2 == (s.g c ra).toNat % 2 ^ 20) = some q) :
    iCrel rd ra c s = status c rd 0 8 (settleRx (placeOf s ((s.g c ra).toNat % 2 ^ 20)) { s with eng := { s.eng with held := s.eng.held.erase q } }) := by
  unfold iCrel
  rw [if_neg (by simpa [isSup] using hc)]
  dsimp only
  rw [hf]

theorem iCrel_free (hf : s.eng.held.find? (fun q => q.2.1 == s.engOwner c && q.2.2 == (s.g c ra).toNat % 2 ^ 20) = none) :
    iCrel rd ra c s = if (s.cell ((s.g c ra).toNat % 2 ^ 20)).acct = some (s.engOwner c) then status c rd 7 8 s
      else barkExc c 9 ((s.g c ra).toNat % 2 ^ 20) s := by
  unfold iCrel
  rw [if_neg (by simpa [isSup] using hc)]
  dsimp only
  rw [hf]

end

end Sys2Proof.Machine

/-! Items that an engine writes (R187, R189, R192, R227). -/

namespace Sys2Proof.Machine

/-! ## Free cells (R192) -/

/-- A cell with an account is listed. -/
theorem listed_of_acct {s : State} {k : Nat} (h : (s.cell k).acct ≠ none) : k ∈ s.que.cells.map Prod.fst := by
  rcases sget_mem (fun _ => ({} : FCell)) k s.que.cells with hm | hd
  · exact List.mem_map.mpr ⟨_, hm, rfl⟩
  · exact absurd (congrArg FCell.acct hd) h

/-- Among as many cells as the table lists and one more, one has no account. -/
theorem exists_free {s : State} {l : List Nat} (hn : l.Nodup) (hl : s.que.cells.length < l.length) : ∃ k ∈ l, (s.cell k).acct = none := by
  by_contra hnone
  rw [not_exists] at hnone
  have hsub : l ⊆ s.que.cells.map Prod.fst := fun k hk => listed_of_acct fun e => hnone k ⟨hk, e⟩
  have := (hn.subperm hsub).length_le
  rw [List.length_map] at this
  omega

theorem window_nodup {start m : Nat} (hm : m ≤ storeCells) : ((List.range m).map (fun k => (start + k) % storeCells)).Nodup := by
  refine List.Nodup.map_on (fun i hi j hj h => ?_) List.nodup_range
  have hi := List.mem_range.mp hi
  have hj := List.mem_range.mp hj
  unfold storeCells at *
  omega

/-- The first cell an allocation takes has no account. -/
theorem freeFrom_head {s : State} {n : Nat} (start : Nat) (h0 : 0 < n) (hl : n + s.que.cells.length ≤ storeCells) :
    (s.cell ((freeFrom s start n).headD noCell)).acct = none := by
  obtain ⟨k, hk, hfree⟩ := exists_free (s := s) (window_nodup (start := start) hl) (by simp; omega)
  unfold freeFrom
  generalize (List.range (n + s.que.cells.length)).map (fun k => (start + k) % storeCells) = l at hk
  have hmem : k ∈ l.filter (fun k => (s.cell k).acct.isNone) := List.mem_filter.mpr ⟨hk, by simp [hfree]⟩
  cases hf : l.filter (fun k => (s.cell k).acct.isNone) with
  | nil => exact absurd (hf ▸ hmem) List.not_mem_nil
  | cons j js =>
    obtain ⟨m, rfl⟩ : ∃ m, n = m + 1 := ⟨n - 1, by omega⟩
    have hj : j ∈ l.filter (fun k => (s.cell k).acct.isNone) := hf ▸ List.mem_cons_self
    simpa using (List.mem_filter.mp hj).2

/-! ## An item's header cell while a queue is linked (R189) -/

/-- From s to t the header cell hc keeps its owner, its mark and every field beside NEXT_ITEM. -/
def headerKept (s t : State) (hc : Nat) : Prop :=
  (t.cell hc).owner = (s.cell hc).owner ∧ (t.cell hc).hdrCell = (s.cell hc).hdrCell ∧ ∀ f : Fld, f.apart IH.NEXT_ITEM → t.ih hc f = s.ih hc f

theorem headerKept_trans {s t u : State} {hc : Nat} (a : headerKept s t hc) (b : headerKept t u hc) : headerKept s u hc :=
  ⟨b.1.trans a.1, b.2.1.trans a.2.1, fun f hf => (b.2.2 f hf).trans (a.2.2 f hf)⟩

theorem headerKept_ihPut {s : State} {hc : Nat} (ho : (s.cell hc).owner ≠ none) (k v : Nat) : headerKept s (s.ihPut k IH.NEXT_ITEM v) hc := by
  by_cases hk : hc = k
  · subst hk
    have hne : ({ s.cell hc with data := IH.NEXT_ITEM.put (s.cell hc).data v } : FCell) ≠ {} := fun e => ho (congrArg FCell.owner e)
    have hcell : (s.ihPut hc IH.NEXT_ITEM v).cell hc = _ := cell_setCell_same s hc hne
    refine ⟨by rw [hcell], by rw [hcell], fun f hf => ?_⟩
    unfold State.ih
    rw [hcell]
    exact of_put_apart (by decide) hf _ _
  · have hcell : (s.ihPut k IH.NEXT_ITEM v).cell hc = s.cell hc :=
      sget_sset_listed (fun _ => ({} : FCell)) _ hk (fun e => ho (congrArg FCell.owner e))
    exact ⟨congrArg FCell.owner hcell, congrArg FCell.hdrCell hcell, fun f _ => by rw [State.ih, State.ih, hcell]⟩

theorem headerKept_linkNext {hc : Nat} : ∀ (ks : List Nat) {s : State}, (s.cell hc).owner ≠ none → headerKept s (linkNext ks s) hc
  | [], _, _ => ⟨rfl, rfl, fun _ _ => rfl⟩
  | k :: ks, s, ho => by
    have h1 := headerKept_ihPut ho k (ks.headD noCell)
    exact headerKept_trans h1 (headerKept_linkNext ks (by rwa [h1.1]))

theorem headerKept_of_cells {s t : State} (h : t.que.cells = s.que.cells) (hc : Nat) : headerKept s t hc := by
  have hcell : t.cell hc = s.cell hc := by rw [State.cell, State.cell, h]
  exact ⟨by rw [hcell], by rw [hcell], fun f _ => by rw [State.ih, State.ih, hcell]⟩

theorem tails_cells (h : Nat) (v : Nat → Nat) (ks : List Nat) (s : State) :
    (ks.foldl (fun u k => u.ncPut h (NC.TAIL k) (v k)) s).que.cells = s.que.cells := foldl_same (fun u : State => u.que.cells) _ _ _ fun _ _ => rfl

theorem headerKept_tails (hc h : Nat) (v : Nat → Nat) (ks : List Nat) (s : State) :
    headerKept s (ks.foldl (fun u k => u.ncPut h (NC.TAIL k) (v k)) s) hc := headerKept_of_cells (tails_cells h v ks s) hc

theorem headerKept_ncPut (s : State) (hc h : Nat) (f : Fld) (v : Nat) : headerKept s (s.ncPut h f v) hc := headerKept_of_cells rfl hc

theorem headerKept_setQueue {s : State} {hc : Nat} (ho : (s.cell hc).owner ≠ none) (h : Nat) (items : List Nat) :
    headerKept s (setQueue h items s) hc := by
  have links := headerKept_linkNext items ho
  have head := headerKept_ncPut (linkNext items s) hc h NC.HEAD (items.headD noCell)
  have tails := headerKept_tails hc h (lastOfLevel s items) [0, 1, 2, 3] ((linkNext items s).ncPut h NC.HEAD (items.headD noCell))
  rw [setQueue_eq]
  exact headerKept_trans (headerKept_trans links head) tails

/-! ## The length of a queue -/

theorem nc_ncPut_same {s : State} {h : Nat} (hl : (s.node h).life ≠ 0) {f : Fld} (hf : f.lo + f.w ≤ 512) (v : Nat) :
    (s.ncPut h f v).nc h f = v % 2 ^ f.w := by
  rw [State.nc, node_ncPut hl]
  exact of_put_same hf _ v

theorem nc_ncPut_apart {s : State} {h : Nat} (hl : (s.node h).life ≠ 0) {f g : Fld} (hg : g.lo + g.w ≤ 512) (hfg : f.apart g) (v : Nat) :
    (s.ncPut h g v).nc h f = s.nc h f := by
  rw [State.nc, node_ncPut hl]
  exact of_put_apart hg hfg _ v

theorem linkNext_nodes : ∀ (ks : List Nat) (s : State), (linkNext ks s).que.nodes = s.que.nodes
  | [], _ => rfl
  | _ :: ks, _ => linkNext_nodes ks _

theorem tails_qlen {h : Nat} (v : Nat → Nat) : ∀ (ks : List Nat), (∀ k ∈ ks, k < 4) → ∀ {s : State}, (s.node h).life ≠ 0 →
    (ks.foldl (fun u k => u.ncPut h (NC.TAIL k) (v k)) s).nc h NC.QLEN = s.nc h NC.QLEN ∧
      ((ks.foldl (fun u k => u.ncPut h (NC.TAIL k) (v k)) s).node h).life ≠ 0
  | [], _, _, hl => ⟨rfl, hl⟩
  | k :: ks, hk, s, hl => by
    have hk4 := hk k List.mem_cons_self
    have hlife : ((s.ncPut h (NC.TAIL k) (v k)).node h).life ≠ 0 := by rwa [node_ncPut hl]
    obtain ⟨h1, h2⟩ := tails_qlen v ks (fun j hj => hk j (List.mem_cons_of_mem _ hj)) hlife
    refine ⟨h1.trans (nc_ncPut_apart hl ?_ (.inl ?_) _), h2⟩
    · simp only [NC.TAIL, fld]
      omega
    · simp only [NC.TAIL, NC.QLEN, fld]
      omega

/-- Linking a queue leaves its length. -/
theorem setQueue_qlen {s : State} {h : Nat} (hl : (s.node h).life ≠ 0) (items : List Nat) :
    (setQueue h items s).nc h NC.QLEN = s.nc h NC.QLEN ∧ ((setQueue h items s).node h).life ≠ 0 := by
  rw [setQueue_eq]
  have hn : (linkNext items s).node h = s.node h := node_of_nodes (linkNext_nodes items s) h
  have hl1 : ((linkNext items s).node h).life ≠ 0 := by rwa [hn]
  have hl2 : (((linkNext items s).ncPut h NC.HEAD (items.headD noCell)).node h).life ≠ 0 := by rwa [node_ncPut hl1]
  obtain ⟨h1, h2⟩ := tails_qlen (lastOfLevel s items) [0, 1, 2, 3] (by decide) hl2
  exact ⟨h1.trans ((nc_ncPut_apart hl1 (by decide) (by decide) _).trans (by rw [State.nc, State.nc, hn])), h2⟩

theorem setQueue_reg (h : Nat) (items : List Nat) (s : State) (a : Nat) : (setQueue h items s).reg a = s.reg a := by
  obtain ⟨q, e⟩ := queOnly_setQueue h items s
  rw [e]
  rfl

/-! ## A write that is taken (R189, R190, R192) -/

/-- A cell as the header of node h's item, with the image and the data cells that follow. -/
def asHeader (h : Nat) (hdr : BitVec 512) (dc : List Nat) (c : FCell) : FCell :=
  { c with data := putAll hdr [(IH.ATTEMPTS, 0), (IH.FIRST_DATA, dc.headD noCell)], next := dc.headD noCell, last := dc.isEmpty, owner := some h, hdrCell := true }

/-- A cell becomes the header of node h's item. -/
def headed (h hc : Nat) (hdr : BitVec 512) (dc : List Nat) (s : State) : State := s.setCell hc (asHeader h hdr dc (s.cell hc))

/-- Cells are taken for partition p, and those behind the first are filled with an item's data. -/
def itemFilled (p h : Nat) (data : List Byte) (s : State) : State :=
  fillChain ((takeCells p (1 + ceilDiv data.length 64) s).2.drop 1) (chunks64 64 data) (some h) (takeCells p (1 + ceilDiv data.length 64) s).1

/-- The header cell a write takes. -/
def itemCell (p len : Nat) (s : State) : Nat := (takeCells p (1 + ceilDiv len 64) s).2.headD noCell

/-- The cells a write takes hold the item. -/
def itemStored (p h : Nat) (hdr : BitVec 512) (data : List Byte) (s : State) : State :=
  headed h (itemCell p data.length s) hdr ((takeCells p (1 + ceilDiv data.length 64) s).2.drop 1) (itemFilled p h data s)

/-- An item is linked into a node's queue, which counts it. -/
def itemLinked (h hc : Nat) (s : State) : State := (linkItem h hc s).ncPut h NC.QLEN (s.nc h NC.QLEN + 1)

section
variable {s : State} {p h : Nat} {hdr : BitVec 512} {data : List Byte}

theorem fillChain_frame : ∀ (ks : List Nat) (bs : List (List Byte)) (own : Option Nat) (u : State),
    (fillChain ks bs own u).que.nodes = u.que.nodes ∧ (fillChain ks bs own u).regs = u.regs ∧ (fillChain ks bs own u).eng = u.eng
  | [], _, _, _ => ⟨rfl, rfl, rfl⟩
  | _ :: _, [], _, _ => ⟨rfl, rfl, rfl⟩
  | _ :: ks, _ :: bs, own, _ => fillChain_frame ks bs own _

theorem useMore_nodes (a n : Nat) (u : State) : (useMore a n u).que.nodes = u.que.nodes := by
  unfold useMore
  split <;> rfl

theorem useMore_eng (a n : Nat) (u : State) : (useMore a n u).eng = u.eng := by
  unfold useMore
  split <;> rfl

theorem setFree_eng (v : Nat) (u : State) : (setFree v u).eng = u.eng := by
  unfold setFree
  dsimp only
  split <;> split <;> simp only [raise_eng, wr_eng]

theorem takeCells_nodes (a n : Nat) (u : State) : (takeCells a n u).1.que.nodes = u.que.nodes := by
  rw [takeCells_eq, useMore_nodes, setFree_que]
  exact foldl_same (fun u : State => u.que.nodes) (takeCell a) _ _ fun _ _ => rfl

theorem takeCells_eng (a n : Nat) (u : State) : (takeCells a n u).1.eng = u.eng := by
  rw [takeCells_eq, useMore_eng, setFree_eng]
  exact foldl_same (fun u : State => u.eng) (takeCell a) _ _ fun _ _ => rfl

theorem itemFilled_frame (hs : s.inv = true) : (itemFilled p h data s).que.nodes = s.que.nodes ∧
    (itemFilled p h data s).rd QUE_STS.FREE = s.rd QUE_STS.FREE - (1 + ceilDiv data.length 64) ∧ (itemFilled p h data s).eng = s.eng := by
  have hn := takeCells_nodes p (1 + ceilDiv data.length 64) s
  have he := takeCells_eng p (1 + ceilDiv data.length 64) s
  have hf := takeCells_free hs p (1 + ceilDiv data.length 64)
  unfold itemFilled
  generalize takeCells p (1 + ceilDiv data.length 64) s = r at hn hf he
  obtain ⟨h1, h2, h3⟩ := fillChain_frame (r.2.drop 1) (chunks64 64 data) (some h) r.1
  refine ⟨h1.trans hn, Eq.trans ?_ hf, h3.trans he⟩
  rw [State.rd, State.rd, State.reg, State.reg, h2]

theorem setCell_frame (s : State) (k : Nat) (x : FCell) : (s.setCell k x).que.nodes = s.que.nodes ∧ (s.setCell k x).regs = s.regs ∧
    (s.setCell k x).eng = s.eng := ⟨rfl, rfl, rfl⟩

theorem headed_frame (h hc : Nat) (hdr : BitVec 512) (dc : List Nat) (u : State) :
    (headed h hc hdr dc u).que.nodes = u.que.nodes ∧ (headed h hc hdr dc u).rd QUE_STS.FREE = u.rd QUE_STS.FREE ∧
    (headed h hc hdr dc u).eng = u.eng := by
  obtain ⟨hn, hr, he⟩ := setCell_frame u hc (asHeader h hdr dc (u.cell hc))
  exact ⟨hn, by rw [State.rd, State.rd, State.reg, State.reg, headed, hr], he⟩

/-- A stored item leaves the contexts and takes its cells from the free ones. -/
theorem itemStored_frame (hs : s.inv = true) : (itemStored p h hdr data s).que.nodes = s.que.nodes ∧
    (itemStored p h hdr data s).rd QUE_STS.FREE = s.rd QUE_STS.FREE - (1 + ceilDiv data.length 64) ∧ (itemStored p h hdr data s).eng = s.eng := by
  obtain ⟨hn, hf, he⟩ := itemFilled_frame (p := p) (h := h) (data := data) hs
  obtain ⟨h1, h2, h3⟩ := headed_frame h (itemCell p data.length s) hdr ((takeCells p (1 + ceilDiv data.length 64) s).2.drop 1) (itemFilled p h data s)
  exact ⟨h1.trans hn, h2.trans hf, h3.trans he⟩

/-- A header cell is the node's, marked, and holds the image with ATTEMPTS zero. -/
theorem headed_header (h hc : Nat) (hdr : BitVec 512) (dc : List Nat) (u : State) :
    ((headed h hc hdr dc u).cell hc).owner = some h ∧ ((headed h hc hdr dc u).cell hc).hdrCell = true ∧ (headed h hc hdr dc u).ih hc IH.ATTEMPTS = 0 ∧
      ∀ f : Fld, f.apart IH.ATTEMPTS → f.apart IH.FIRST_DATA → (headed h hc hdr dc u).ih hc f = f.of hdr := by
  have hcell := cell_setCell_same u hc (c := asHeader h hdr dc (u.cell hc)) fun e => Bool.noConfusion (congrArg FCell.hdrCell e)
  have hfit : ∀ q ∈ [(IH.ATTEMPTS, 0), (IH.FIRST_DATA, dc.headD noCell)], q.1.lo + q.1.w ≤ 512 := by simp [IH.ATTEMPTS, IH.FIRST_DATA, fld]
  unfold headed State.ih
  rw [hcell]
  refine ⟨rfl, rfl, ?_, fun f h1 h2 => ?_⟩
  · exact (of_putAll_mem _ hdr hfit (by simp [Fld.apart, IH.ATTEMPTS, IH.FIRST_DATA, fld]) List.mem_cons_self).trans (Nat.zero_mod _)
  · exact of_putAll_apart _ hdr fun q hq => ⟨hfit q hq, by
      rcases List.mem_pair.mp hq with rfl | rfl
      exacts [h1, h2]⟩

theorem itemStored_header :
    ((itemStored p h hdr data s).cell (itemCell p data.length s)).owner = some h ∧
      ((itemStored p h hdr data s).cell (itemCell p data.length s)).hdrCell = true ∧
      (itemStored p h hdr data s).ih (itemCell p data.length s) IH.ATTEMPTS = 0 ∧
      ∀ f : Fld, f.apart IH.ATTEMPTS → f.apart IH.FIRST_DATA → (itemStored p h hdr data s).ih (itemCell p data.length s) f = f.of hdr :=
  headed_header h _ hdr _ (itemFilled p h data s)

/-- A linked item keeps its header, and the queue is one item longer. -/
theorem itemLinked_keeps {hc : Nat} (ho : (s.cell hc).owner ≠ none) (h : Nat) : headerKept s (itemLinked h hc s) hc :=
  headerKept_trans (headerKept_setQueue ho h _) (headerKept_ncPut _ hc h NC.QLEN _)

theorem itemLinked_qlen (hc : Nat) (hl : (s.node h).life ≠ 0) (hq : s.nc h NC.QLEN < 255) : (itemLinked h hc s).nc h NC.QLEN = s.nc h NC.QLEN + 1 := by
  refine (nc_ncPut_same (setQueue_qlen hl _).2 (by decide) _).trans (Nat.mod_eq_of_lt ?_)
  show _ < 256
  omega

theorem ncPut_eng (u : State) (h : Nat) (f : Fld) (v : Nat) : (u.ncPut h f v).eng = u.eng := rfl

theorem itemLinked_eng (hc : Nat) : (itemLinked h hc s).eng = s.eng := by
  obtain ⟨q, e⟩ := queOnly_setQueue h (insertBack s (s.ih hc IH.PRIO) hc (queueItems s h)) s
  rw [itemLinked, ncPut_eng, linkItem, e]

theorem itemLinked_free (hc : Nat) : (itemLinked h hc s).rd QUE_STS.FREE = s.rd QUE_STS.FREE := by
  rw [State.rd, State.rd, itemLinked, ncPut_reg, linkItem, setQueue_reg]

theorem fabricWork_itemLinked (p h hc : Nat) (hdr : BitVec 512) (data : List Byte) (s : State) : FabricWork s (itemLinked h hc (itemStored p h hdr data s)) := by
  have filled : FabricWork s (itemFilled p h data s) := ((FabricWork.refl s).takeCells p _).fillChain _ _ _
  unfold itemStored
  generalize itemFilled p h data s = u at filled
  have stored : FabricWork s (headed h (itemCell p data.length s) hdr ((takeCells p (1 + ceilDiv data.length 64) s).2.drop 1) u) := filled.setCell _ _
  generalize headed h (itemCell p data.length s) hdr ((takeCells p (1 + ceilDiv data.length 64) s).2.drop 1) u = v at stored
  exact (stored.setQueue h _).ncPut h NC.QLEN _

end

end Sys2Proof.Machine

/-! What the bodies of CRD, QWR and NCMD answer in each case (R226, R227, R229). -/

namespace Sys2Proof.Machine

/-! ## A node queue write (R190) -/

section
variable {s : State} {p h : Nat} {hdr : BitVec 512} {data : List Byte} (hp : (s.node h).badPar = 0)
include hp

theorem queueWrite_inactive (hl : (s.node h).life ≠ 1) : queueWrite p h hdr data s = (s, 0x0F, none) := by
  unfold queueWrite
  rw [ctxCheck_good hp]
  exact if_pos hl

variable (hl : (s.node h).life = 1)
include hl

theorem queueWrite_poisoned (hq : (s.node h).poison = true) : queueWrite p h hdr data s = (s, 0x10, none) := by
  unfold queueWrite
  rw [ctxCheck_good hp]
  exact (if_neg (not_not_intro hl)).trans (if_pos hq)

variable (hq : (s.node h).poison = false)
include hq

theorem queueWrite_tooLong (ht : tooLong s h hdr = true) : queueWrite p h hdr data s = (s, 0x11, none) := by
  unfold queueWrite
  rw [ctxCheck_good hp]
  exact (if_neg (not_not_intro hl)).trans ((if_neg (by simp [hq])).trans (if_pos ht))

variable (ht : tooLong s h hdr = false)
include ht

theorem queueWrite_full (hf : s.rd QUE_QMAX.MAX ≤ s.nc h NC.QLEN ∨ cellsOk s p (1 + ceilDiv data.length 64) (s.rd QUE_RX_RESERVE.CELLS) = false ∨
    s.on QUE_CTRL.WR_EN = false) : queueWrite p h hdr data s = (writeFull p h s, 0x0E, none) := by
  unfold queueWrite
  rw [ctxCheck_good hp]
  exact (if_neg (not_not_intro hl)).trans ((if_neg (by simp [hq])).trans ((if_neg (by simp [ht])).trans (if_pos (by simpa using hf))))

theorem queueWrite_links (hm : s.nc h NC.QLEN < s.rd QUE_QMAX.MAX) (hc : cellsOk s p (1 + ceilDiv data.length 64) (s.rd QUE_RX_RESERVE.CELLS) = true)
    (he : s.on QUE_CTRL.WR_EN = true) (hg : ∀ k ∈ linkPoint s h (IH.PRIO.of hdr) true, badCell (s.cell k) = false) :
    queueWrite p h hdr data s = (itemLinked h (itemCell p data.length s) (itemStored p h hdr data s), 0, some (itemCell p data.length s)) := by
  have hfull : ¬(s.rd QUE_QMAX.MAX ≤ s.nc h NC.QLEN ∨ (!cellsOk s p (1 + ceilDiv data.length 64) (s.rd QUE_RX_RESERVE.CELLS)) = true ∨
      (!s.on QUE_CTRL.WR_EN) = true) := by
    rw [hc, he]
    simpa using hm
  have hgood : ¬(linkPoint s h (IH.PRIO.of hdr) true).any (fun k => badCell (s.cell k)) = true := by simpa using hg
  unfold queueWrite
  rw [ctxCheck_good hp]
  dsimp only
  rw [if_neg (not_not_intro hl), hq, if_neg Bool.false_ne_true, ht, if_neg Bool.false_ne_true, if_neg hfull, if_neg hgood]
  rfl

end

/-! ## CRD -/

section
variable {s : State} {c rd ra rb : Nat} (hc : c < 64) (h : ptrExc (s.g c ra).toNat 68 = none)
include hc h

theorem iCrd_barred (hm : mayReadCell s (s.engOwner c) ((s.g c rb).toNat % 2 ^ 20) = false) :
    iCrd rd ra rb c s = barkExc c 9 ((s.g c rb).toNat % 2 ^ 20) s := by
  refine (withPtr_good hc h).trans ?_
  dsimp only
  rw [hm]
  rfl

variable (hm : mayReadCell s (s.engOwner c) ((s.g c rb).toNat % 2 ^ 20) = true)
include hm

theorem iCrd_poisoned (hb : badCell (s.cell ((s.g c rb).toNat % 2 ^ 20)) = true) :
    iCrd rd ra rb c s = status c rd 4 20 (cellParity ((s.g c rb).toNat % 2 ^ 20) s) := by
  refine (withPtr_good hc h).trans ?_
  dsimp only
  rw [hm, hb]
  rfl

theorem iCrd_copies (hb : badCell (s.cell ((s.g c rb).toNat % 2 ^ 20)) = false) :
    iCrd rd ra rb c s = status c rd 0 20 (s.store (some c) (dmemOff c (s.g c ra).toNat)
      (recBytes 64 (recOf 512 (cellBytes (s.cell ((s.g c rb).toNat % 2 ^ 20)))) ++ octets 4 ((s.cell ((s.g c rb).toNat % 2 ^ 20)).next +
        (if (s.cell ((s.g c rb).toNat % 2 ^ 20)).last then 2 ^ 20 else 0) + 2 ^ 21 * (s.cell ((s.g c rb).toNat % 2 ^ 20)).count))) := by
  refine (withPtr_good hc h).trans ?_
  dsimp only
  rw [hm, hb]
  rfl

end

/-! ## QWR -/

/-- The header image that a QWR at address a reads, with ORIGIN. -/
def qwrImage (s : State) (c a : Nat) : BitVec 512 := putAll (recOf 512 (s.bytes (dmemOff c a) 32)) [(IH.ORIGIN, 1)]

theorem qwrImage_eq (s : State) (c a : Nat) : qwrImage s c a = IH.ORIGIN.put (recOf 512 (s.bytes (dmemOff c a) 32)) 1 := rfl

/-- The header that an engine writes: CTX and ENGINE are the engine's number. -/
def qwrHeader (c : Nat) (x : BitVec 512) : BitVec 512 := IH.ENGINE.put ((fld 0x04 6 10).put x 0) c

/-- QWR once its record is read and its item is admitted. -/
def qwrWrites (rd p h a : Nat) (x : BitVec 512) : Nat → State → Ret := fun c s =>
  let r := queueWrite p h (qwrHeader c x) (s.bytes (dmemOff c (a + 32)) (IH.LENGTH.of x)) s
  match r.2.2 with
  | none => status c rd (qwrStatus r.2.1) 24 r.1
  | some hc => status c rd 0 (24 + 2 * ceilDiv (IH.LENGTH.of x) 64) { r.1 with eng := { r.1.eng with outst := r.1.eng.outst ++ [(c, hc)] } }

theorem qwrWrites_refused {s u : State} {c rd p h a k : Nat} {x : BitVec 512}
    (hw : queueWrite p h (qwrHeader c x) (s.bytes (dmemOff c (a + 32)) (IH.LENGTH.of x)) s = (u, k, none)) :
    qwrWrites rd p h a x c s = status c rd (qwrStatus k) 24 u := by
  unfold qwrWrites
  dsimp only
  rw [hw]

theorem qwrWrites_taken {s u : State} {c rd p h a k hc : Nat} {x : BitVec 512}
    (hw : queueWrite p h (qwrHeader c x) (s.bytes (dmemOff c (a + 32)) (IH.LENGTH.of x)) s = (u, k, some hc)) :
    qwrWrites rd p h a x c s = status c rd 0 (24 + 2 * ceilDiv (IH.LENGTH.of x) 64) { u with eng := { u.eng with outst := u.eng.outst ++ [(c, hc)] } } := by
  unfold qwrWrites
  dsimp only
  rw [hw]

section
variable {s : State} {c rd ra rb : Nat} (hc : c < 64) (hp : ptrExc (s.g c ra).toNat 32 = none)
include hc hp

theorem iQwr_parity {w : Nat} (hb : badDmem s c (s.g c ra).toNat 32 = some w) : iQwr rd ra rb c s = .exc s 5 w :=
  (withPtr_good hc hp).trans (readsDmem_bad hb)

/-- What QWR decides on a record that it reads. -/
theorem iQwr_decides (hb : badDmem s c (s.g c ra).toNat 32 = none)
    (hf : (s.g c ra).toNat + 32 + IH.LENGTH.of (qwrImage s c (s.g c ra).toNat) ≤ 0x20000) :
    iQwr rd ra rb c s =
      let x := qwrImage s c (s.g c ra).toNat
      if s.handleOwner ((s.g c rb).toNat % 65536) ≠ s.engOwner c then barkExc c 1 ((s.g c rb).toNat % 65536) s
      else if hdrReserved x = true ∨ (!txEnabled s (IH.RATE.of x) (IH.GRID.of x) (IH.CHAN.of x)) = true then status c rd 7 24 s
      else if 64 ≤ (s.eng.outst.filter (fun q => q.1 == c)).length then status c rd 6 24 s
      else readsDmem ((s.g c ra).toNat + 32) (IH.LENGTH.of x) (qwrWrites rd (s.engOwner c) ((s.g c rb).toNat % 65536) (s.g c ra).toNat x) c s := by
  refine (withPtr_good hc hp).trans ((readsDmem_good hb).trans ?_)
  rw [qwrImage] at hf ⊢
  dsimp only
  rw [if_neg (Nat.not_lt.mpr hf)]
  rfl

variable (hb : badDmem s c (s.g c ra).toNat 32 = none) (hf : (s.g c ra).toNat + 32 + IH.LENGTH.of (qwrImage s c (s.g c ra).toNat) ≤ 0x20000)
include hb hf

theorem iQwr_foreign (ho : s.handleOwner ((s.g c rb).toNat % 65536) ≠ s.engOwner c) :
    iQwr rd ra rb c s = barkExc c 1 ((s.g c rb).toNat % 65536) s := (iQwr_decides hc hp hb hf).trans (if_pos ho)

variable (ho : s.handleOwner ((s.g c rb).toNat % 65536) = s.engOwner c)
include ho

theorem iQwr_refuses (hr : hdrReserved (qwrImage s c (s.g c ra).toNat) = true ∨ txEnabled s (IH.RATE.of (qwrImage s c (s.g c ra).toNat))
    (IH.GRID.of (qwrImage s c (s.g c ra).toNat)) (IH.CHAN.of (qwrImage s c (s.g c ra).toNat)) = false) : iQwr rd ra rb c s = status c rd 7 24 s :=
  (iQwr_decides hc hp hb hf).trans ((if_neg (not_not_intro ho)).trans (if_pos (by simpa using hr)))

variable (hr : hdrReserved (qwrImage s c (s.g c ra).toNat) = false) (ht : txEnabled s (IH.RATE.of (qwrImage s c (s.g c ra).toNat))
  (IH.GRID.of (qwrImage s c (s.g c ra).toNat)) (IH.CHAN.of (qwrImage s c (s.g c ra).toNat)) = true)
include hr ht

theorem iQwr_many (hn : 64 ≤ (s.eng.outst.filter (fun q => q.1 == c)).length) : iQwr rd ra rb c s = status c rd 6 24 s :=
  (iQwr_decides hc hp hb hf).trans ((if_neg (not_not_intro ho)).trans ((if_neg (by simp [hr, ht])).trans (if_pos hn)))

/-- A record that is accepted: the data are read next. -/
theorem iQwr_accepts (hn : (s.eng.outst.filter (fun q => q.1 == c)).length < 64) :
    iQwr rd ra rb c s = readsDmem ((s.g c ra).toNat + 32) (IH.LENGTH.of (qwrImage s c (s.g c ra).toNat))
      (qwrWrites rd (s.engOwner c) ((s.g c rb).toNat % 65536) (s.g c ra).toNat (qwrImage s c (s.g c ra).toNat)) c s :=
  (iQwr_decides hc hp hb hf).trans ((if_neg (not_not_intro ho)).trans ((if_neg (by simp [hr, ht])).trans (if_neg (Nat.not_le.mpr hn))))

end

/-! ## NCMD -/

/-- What an engine's node operation leaves and its status. -/
def ncmdResult (s : State) (c rd a : Nat) (v : Word) : State × Nat :=
  nodeOp (NW.OP.of v) v (recOf 512 (s.bytes (dmemOff c a) 64)) (.engine c rd) s

/-- NCMD once its record is read. -/
def ncmdRuns (rd a : Nat) (v : Word) : Nat → State → Ret := fun c s =>
  let r := ncmdResult s c rd a v
  if NW.OP.of v = 3 ∧ r.2 = 0 then .hold (r.1.setCore c { r.1.core c with held := true })
  else
    let u := if NW.OP.of v = 4 ∧ r.2 = 0 then r.1.store (some c) (dmemOff c a) (recBytes 64 (r.1.node (NW.HANDLE.of v)).ctx) else r.1
    .done (u.setG c rd (nresWord r.1 (NW.HANDLE.of v) (NW.OP.of v) r.2)) 40

/-- What NCMD decides on the word of its operation. -/
theorem iNcmd_decides {s : State} {c rd ra rb : Nat} (hc : c < 64) (hp : ptrExc (s.g c ra).toNat 64 = none) :
    iNcmd rd ra rb c s =
      let v := s.g c rb
      if s.handleOwner (NW.HANDLE.of v) ≠ s.engOwner c then barkExc c 1 (NW.HANDLE.of v) s
      else if NW.OP.of v = 0 ∨ 5 < NW.OP.of v then status c rd (s.freeVal (2 ^ 32)) 40 s.freed
      else if nodeBusy s (NW.HANDLE.of v) then .hold (s.setCore c { s.core c with issued := true })
      else readsDmem (s.g c ra).toNat (if NW.OP.of v = 1 ∨ NW.OP.of v = 2 then 64 else 0) (ncmdRuns rd (s.g c ra).toNat v) c s :=
  withPtr_good hc hp

/-- An operation that reads no record finds no bad word. -/
theorem badDmem_zero (s : State) (c a : Nat) : badDmem s c a 0 = none := rfl

section
variable {s : State} {c rd a : Nat} {v : Word}

theorem ncmdRuns_holds (h : NW.OP.of v = 3 ∧ (ncmdResult s c rd a v).2 = 0) :
    ncmdRuns rd a v c s = .hold ((ncmdResult s c rd a v).1.setCore c { (ncmdResult s c rd a v).1.core c with held := true }) := if_pos h

theorem ncmdRuns_copies (ho : NW.OP.of v = 4) (h : (ncmdResult s c rd a v).2 = 0) :
    ncmdRuns rd a v c s = .done (((ncmdResult s c rd a v).1.store (some c) (dmemOff c a)
      (recBytes 64 ((ncmdResult s c rd a v).1.node (NW.HANDLE.of v)).ctx)).setG c rd
        (nresWord (ncmdResult s c rd a v).1 (NW.HANDLE.of v) (NW.OP.of v) (ncmdResult s c rd a v).2)) 40 := by
  unfold ncmdRuns
  dsimp only
  rw [if_neg (by omega), if_pos ⟨ho, h⟩]

theorem ncmdRuns_answers (h3 : NW.OP.of v ≠ 3 ∨ (ncmdResult s c rd a v).2 ≠ 0) (h4 : NW.OP.of v ≠ 4 ∨ (ncmdResult s c rd a v).2 ≠ 0) :
    ncmdRuns rd a v c s = .done ((ncmdResult s c rd a v).1.setG c rd
      (nresWord (ncmdResult s c rd a v).1 (NW.HANDLE.of v) (NW.OP.of v) (ncmdResult s c rd a v).2)) 40 := by
  unfold ncmdRuns
  dsimp only
  rw [if_neg (by omega), if_neg (by omega)]

end

/-- A prune that begins stays: its context is in PRUNE and it waits in the list (R186). -/
theorem nodePrune_runs {s : State} {h : Nat} {w : PruneFor} (h0 : (nodePrune h w s).2 = 0) :
    ((nodePrune h w s).1.node h).life = 2 ∧ (h, w) ∈ (nodePrune h w s).1.que.prunes := by
  unfold nodePrune at *
  generalize ctxCheck h s = u at *
  dsimp only at *
  split at h0
  · exact absurd h0 (Nat.succ_ne_zero 1)
  · next hl =>
    rw [if_neg hl]
    have squashed := (FabricWork.refl (pruning h w u)).squashNode 4 h
    have begun : ((pruning h w u).node h).life = 2 := congrArg Node.life (node_setNode_same (n := { u.node h with life := 2 })
      (ne_empty_of_life (by simp)) u h)
    exact ⟨squashed.inPrune h begun, squashed.prunes _ (List.mem_append_right _ List.mem_cons_self)⟩

end Sys2Proof.Machine

/-! The item that a QWR leaves, and NCMD's completions (R186, R189, R227, R229). -/

namespace Sys2Proof.Machine

/-! ## The header an engine writes -/

theorem qwrHeader_apart {f : Fld} (c : Nat) (x : BitVec 512) (h1 : f.apart IH.ENGINE) (h2 : f.apart (fld 0x04 6 10)) : f.of (qwrHeader c x) = f.of x :=
  (of_put_apart (by decide) h1 _ c).trans (of_put_apart (by decide) h2 x 0)

theorem qwrHeader_engine {c : Nat} (hc : c < 64) (x : BitVec 512) : IH.ENGINE.of (qwrHeader c x) = c :=
  (of_put_same (by decide) _ c).trans (Nat.mod_eq_of_lt hc)

theorem qwrImage_origin (s : State) (c a : Nat) : IH.ORIGIN.of (qwrImage s c a) = 1 := (of_put_same (by decide) _ 1).trans (by decide)

/-! ## The item written -/

theorem ceilDiv_64_le {len : Nat} (h : len < 2048) : 1 + ceilDiv len 64 ≤ 33 := by
  unfold ceilDiv
  omega

/-- What a write that is taken leaves of its item: a cell that was free is the node's header with the image, and the queue is one longer. -/
structure ItemWritten (s u : State) (h hc len : Nat) (hdr : BitVec 512) : Prop where
  wasFree : (s.cell hc).acct = none
  owner : (u.cell hc).owner = some h
  header : (u.cell hc).hdrCell = true
  qlen : u.nc h NC.QLEN = s.nc h NC.QLEN + 1
  attempts : u.ih hc IH.ATTEMPTS = 0
  image : ∀ f : Fld, f.apart IH.ATTEMPTS → f.apart IH.FIRST_DATA → f.apart IH.NEXT_ITEM → u.ih hc f = f.of hdr
  free : u.rd QUE_STS.FREE = s.rd QUE_STS.FREE - (1 + ceilDiv len 64)

theorem itemLinked_written {s : State} (hs : s.inv = true) {p h : Nat} {hdr : BitVec 512} {data : List Byte} (hl : (s.node h).life = 1)
    (hq : s.nc h NC.QLEN < 255) (hd : data.length < 2048) (hcells : s.que.cells.length < 700000) :
    ItemWritten s (itemLinked h (itemCell p data.length s) (itemStored p h hdr data s)) h (itemCell p data.length s) data.length hdr := by
  obtain ⟨hn, hf, -⟩ := itemStored_frame (p := p) (h := h) (hdr := hdr) (data := data) hs
  obtain ⟨ho, hh, ha, hi⟩ := itemStored_header (s := s) (p := p) (h := h) (hdr := hdr) (data := data)
  have hfree : (s.cell (itemCell p data.length s)).acct = none := freeFrom_head _ (by omega) (by
    have := ceilDiv_64_le hd
    unfold storeCells
    omega)
  generalize itemStored p h hdr data s = u at *
  generalize itemCell p data.length s = hc at *
  obtain ⟨ko, kh, ki⟩ := itemLinked_keeps (hc := hc) (by rw [ho]; exact Option.some_ne_none h) h
  have hnode : u.node h = s.node h := node_of_nodes hn h
  have hqlen : u.nc h NC.QLEN = s.nc h NC.QLEN := by rw [State.nc, State.nc, hnode]
  exact ⟨hfree, ko.trans ho, kh.trans hh, (itemLinked_qlen hc (by rw [hnode, hl]; decide) (hqlen ▸ hq)).trans (by rw [hqlen]),
    (ki _ (by decide)).trans ha, fun f h1 h2 h3 => (ki f h3).trans (hi f h1 h2), (itemLinked_free hc).trans hf⟩

theorem inv_itemLinked {s : State} (hs : s.inv = true) (p h hc : Nat) (hdr : BitVec 512) (data : List Byte) :
    (itemLinked h hc (itemStored p h hdr data s)).inv = true := by
  have filled : Kept s (itemFilled p h data s) := kept_fillChain _ _ _ _ (kept_takeCells _ _ s (kept_refl hs))
  have stored : Kept s (itemStored p h hdr data s) := kept_setCell _ _ _ filled
  exact kept_inv (kept_ncPut _ _ _ _ (kept_linkItem _ _ _ stored))

/-- An item written stays so while other registers, cores and memory change. -/
theorem ItemWritten.congr {s u t : State} {h hc len : Nat} {hdr : BitVec 512} (w : ItemWritten s u h hc len hdr) (hq : t.que = u.que)
    (hf : t.rd QUE_STS.FREE = u.rd QUE_STS.FREE) : ItemWritten s t h hc len hdr := by
  obtain ⟨w1, w2, w3, w4, w5, w6, w7⟩ := w
  unfold State.nc State.node State.ih State.cell at *
  rw [← hq] at w2 w3 w4 w5 w6
  exact ⟨w1, w2, w3, w4, w5, w6, hf.trans w7⟩

theorem advanced_que {u t : State} {c next : Nat} (h : advanced u t c next) : t.que = u.que := by
  obtain ⟨-, -, hf, -⟩ := h
  rw [hf]

/-- The count of instructions apart, registers are as they were. -/
theorem advanced_rd {u t : State} {c next : Nat} (h : advanced u t c next) {f : RegFld} (hf : f.addr ≠ (insnF c).addr) : t.rd f = u.rd f := by
  obtain ⟨-, -, -, hr, -⟩ := h
  rw [State.rd, State.rd, hr _ hf]

theorem outst_itemLinked {s : State} (hs : s.inv = true) (p h hc : Nat) (hdr : BitVec 512) (data : List Byte) :
    (itemLinked h hc (itemStored p h hdr data s)).eng.outst = s.eng.outst := by
  obtain ⟨-, -, he⟩ := itemStored_frame (p := p) (h := h) (hdr := hdr) (data := data) hs
  rw [itemLinked_eng, he]

/-- A write refused as full marks the queue's overflow. -/
theorem writeFull_qovr {s : State} {h : Nat} (hl : (s.node h).life ≠ 0) (p : Nat) : (writeFull p h s).nc h NC.QOVR = 1 := by
  have hq : (writeFull p h s).que = (s.ncPut h NC.QOVR 1).que := raise_que _ 5 0
  rw [State.nc, State.node, hq]
  exact nc_ncPut_same hl (by decide) 1

/-! ## QWR's ends -/

theorem bytes_length (s : State) (o n : Nat) : (s.bytes o n).length = n := by simp [State.bytes]

theorem insnF_addr_engine {c : Nat} (hc : c < 64) : (insnF c).addr ≠ QUE_STS.FREE.addr := by
  unfold insnF
  rw [if_neg (by simpa [isSup] using hc)]
  simp only [ENG_CNT_INSN.COUNT, ENG_CNT_INSN.reg, QUE_STS.FREE, QUE_STS.reg]
  omega

/-- A QWR that leaves an item ends with the item outstanding. -/
theorem exec_qwr_item {s u : State} {c rd ra rb h hi len cyc : Nat} {hdr : BitVec 512} (hc : c < 64) (hx : executes s c) (hq : inSequence s c)
    (hin : [(rd, 32), (ra, 32), (rb, 32)].all (fun q => decide (q.1 < q.2)) = true)
    (hb : iQwr rd ra rb c s = status c rd 0 cyc { u with eng := { u.eng with outst := u.eng.outst ++ [(c, hi)] } }) (work : FabricWork s u)
    (inv : u.inv = true) (outst : u.eng.outst = s.eng.outst) (item : ItemWritten s u h hi len hdr) :
    ∃ t hi, exec (.qwr c rd ra rb) s = .next t ∧ t.pcOf c = (s.pcOf c + 4) % 2 ^ 32 ∧ wrote s t c rd 0 ∧ t.eng.outst = s.eng.outst ++ [(c, hi)] ∧
      ItemWritten s t h hi len hdr ∧ t.mem = s.mem := by
  have told : FabricWork s { u with eng := { u.eng with outst := u.eng.outst ++ [(c, hi)] } } := work.beside rfl rfl rfl
  obtain ⟨t, he, ha, ⟨h1, h2, h3⟩, hmem, -⟩ := exec_status (i := .qwr c rd ra rb) (hc.trans (by decide)) hx hq rfl hin hb told inv
  have que := advanced_que ha
  have free := advanced_rd ha (insnF_addr_engine hc).symm
  refine ⟨t, hi, he, ha.1, ⟨h1, h2, fun r hr => (h3 r hr).trans (told.g c r)⟩, ?_, item.congr que free, hmem⟩
  rw [advanced_eng ha, outst]

section
variable {s : State} {c rd ra rb h a : Nat} {x : BitVec 512} (hs : s.inv = true) (hc : c < 64) (hx : executes s c) (hq : inSequence s c)
  (hin : [(rd, 32), (ra, 32), (rb, 32)].all (fun q => decide (q.1 < q.2)) = true)
  (hw : iQwr rd ra rb c s = qwrWrites rd (s.engOwner c) h a x c s) (hp : (s.node h).badPar = 0) (hl : (s.node h).life = 1)
  (hpo : (s.node h).poison = false) (ht : tooLong s h (qwrHeader c x) = false)
include hs hc hx hq hin hw hp hl hpo ht

theorem exec_qwr_full (hf : s.rd QUE_QMAX.MAX ≤ s.nc h NC.QLEN ∨
    cellsOk s (s.engOwner c) (1 + ceilDiv (IH.LENGTH.of x) 64) (s.rd QUE_RX_RESERVE.CELLS) = false ∨ s.on QUE_CTRL.WR_EN = false) :
    ∃ t, exec (.qwr c rd ra rb) s = .next t ∧
      (advanced (writeFull (s.engOwner c) h s) t c (s.pcOf c + 4) ∧ wrote (writeFull (s.engOwner c) h s) t c rd (BitVec.ofNat 32 2)) ∧
      t.nc h NC.QOVR = 1 := by
  have full := queueWrite_full (data := s.bytes (dmemOff c (a + 32)) (IH.LENGTH.of x)) hp hl hpo ht (by rw [bytes_length]; exact hf)
  obtain ⟨t, he, ha, hv, -⟩ := exec_status (i := .qwr c rd ra rb) (hc.trans (by decide)) hx hq rfl hin (hw.trans (qwrWrites_refused full))
    ((FabricWork.refl s).writeFull (s.engOwner c) h) (kept_inv (kept_writeFull (s.engOwner c) h s (kept_refl hs)))
  refine ⟨t, he, ⟨ha, hv⟩, ?_⟩
  rw [State.nc, State.node, advanced_que ha]
  exact writeFull_qovr (by rw [hl]; decide) (s.engOwner c)

theorem exec_qwr_takes (hm : s.nc h NC.QLEN < s.rd QUE_QMAX.MAX)
    (hk : cellsOk s (s.engOwner c) (1 + ceilDiv (IH.LENGTH.of x) 64) (s.rd QUE_RX_RESERVE.CELLS) = true) (hen : s.on QUE_CTRL.WR_EN = true)
    (h255 : s.nc h NC.QLEN < 255) (hcells : s.que.cells.length < 700000) (hg : ∀ k ∈ linkPoint s h (IH.PRIO.of x) true, badCell (s.cell k) = false) :
    ∃ t hi, exec (.qwr c rd ra rb) s = .next t ∧ t.pcOf c = (s.pcOf c + 4) % 2 ^ 32 ∧ wrote s t c rd 0 ∧ t.eng.outst = s.eng.outst ++ [(c, hi)] ∧
      ItemWritten s t h hi (IH.LENGTH.of x) (qwrHeader c x) ∧ t.mem = s.mem := by
  have prio : IH.PRIO.of (qwrHeader c x) = IH.PRIO.of x := qwrHeader_apart c x (by decide) (by decide)
  have hlen : (s.bytes (dmemOff c (a + 32)) (IH.LENGTH.of x)).length = IH.LENGTH.of x := bytes_length s _ _
  have links := queueWrite_links (p := s.engOwner c) hp hl hpo ht hm (by rw [hlen]; exact hk) hen (by rw [prio]; exact hg)
  have taken := hw.trans (qwrWrites_taken links)
  generalize s.bytes (dmemOff c (a + 32)) (IH.LENGTH.of x) = data at hlen taken
  have item := itemLinked_written hs (p := s.engOwner c) (hdr := qwrHeader c x) hl h255 (hlen.trans_lt (of_lt IH.LENGTH x)) hcells
  generalize itemCell (s.engOwner c) data.length s = hi at item taken
  have work := fabricWork_itemLinked (s.engOwner c) h hi (qwrHeader c x) data s
  have inv := inv_itemLinked hs (s.engOwner c) h hi (qwrHeader c x) data
  have outst := outst_itemLinked hs (s.engOwner c) h hi (qwrHeader c x) data
  generalize itemLinked h hi (itemStored (s.engOwner c) h (qwrHeader c x) data s) = u at item taken work inv outst
  exact exec_qwr_item hc hx hq hin taken work inv outst (hlen ▸ item)

end

/-! ## NCMD's ends -/

theorem inv_ncmdResult {s : State} (hs : s.inv = true) (c rd a : Nat) (v : Word) : (ncmdResult s c rd a v).1.inv = true := kept_inv (kept_nodeOp _ _ _ _ s (kept_refl hs))

section
variable {s : State} {c rd ra rb a : Nat} {v : Word} (hs : s.inv = true) (hc : c < 64) (hx : executes s c)
  (hin : [(rd, 32), (ra, 32), (rb, 32)].all (fun q => decide (q.1 < q.2)) = true) (hb : iNcmd rd ra rb c s = ncmdRuns rd a v c s)
include hs hc hx hin hb

/-- A prune holds the engine until it ends. -/
theorem exec_ncmd_prunes (h3 : NW.OP.of v = 3) (h0 : (ncmdResult s c rd a v).2 = 0) :
    ∃ t, exec (.ncmd c rd ra rb) s = .next t ∧ (t.core c).held = true ∧ t.pcOf c = s.pcOf c ∧ (t.node (NW.HANDLE.of v)).life = 2 ∧
      (NW.HANDLE.of v, .engine c rd) ∈ t.que.prunes ∧ running t c = false := by
  have prune : ncmdResult s c rd a v = nodePrune (NW.HANDLE.of v) (.engine c rd) s := by
    unfold ncmdResult nodeOp
    rw [h3]
    rfl
  have work : FabricWork s (ncmdResult s c rd a v).1 := (FabricWork.refl s).nodeOp _ _ _ _
  have inv : (ncmdResult s c rd a v).1.inv = true := inv_ncmdResult hs c rd a v
  have holds := hb.trans (ncmdRuns_holds ⟨h3, h0⟩)
  rw [prune] at holds work inv h0
  obtain ⟨hlife, hmem⟩ := nodePrune_runs h0
  generalize (nodePrune (NW.HANDLE.of v) (.engine c rd) s).1 = u at holds work inv hlife hmem
  have hcore := core_setCore_same inv c { u.core c with held := true }
  refine ⟨_, insn_executes (hc.trans (by decide)) hx hin holds, ?_, ?_, hlife, hmem, ?_⟩
  · show ((u.setCore c _).core c).held = true
    rw [hcore]
  · show (u.setCore c _).pcOf c = _
    rw [State.pcOf, hcore, State.pcOf, work.core]
  · show running (u.setCore c _) c = false
    rw [running, hcore]
    exact Bool.and_false _

variable (hq : inSequence s c)
include hq

/-- Another operation ends at once with its result; a READ leaves the context in DMEM. -/
theorem exec_ncmd_copies (h4 : NW.OP.of v = 4) (h0 : (ncmdResult s c rd a v).2 = 0) (hlo : 0x10000 ≤ a) (hhi : a + 64 ≤ 0x20000) :
    ∃ t, exec (.ncmd c rd ra rb) s = .next t ∧ advanced (ncmdResult s c rd a v).1 t c (s.pcOf c + 4) ∧
      wrote (ncmdResult s c rd a v).1 t c rd (nresWord (ncmdResult s c rd a v).1 (NW.HANDLE.of v) (NW.OP.of v) (ncmdResult s c rd a v).2) ∧
      copiedAt s t (dmemOff c a) (recBytes 64 ((ncmdResult s c rd a v).1.node (NW.HANDLE.of v)).ctx) := by
  have work : FabricWork s (ncmdResult s c rd a v).1 := (FabricWork.refl s).nodeOp _ _ _ _
  obtain ⟨t, he, ⟨ha, hw⟩, hcopy⟩ := exec_copies (i := .ncmd c rd ra rb) hc hx hq rfl hin (hb.trans (ncmdRuns_copies h4 h0)) work
    (inv_ncmdResult hs c rd a v) hlo (by rw [recBytes_length]; exact hhi)
  exact ⟨t, he, ha, hw, hcopy⟩

theorem exec_ncmd_answers (h3 : NW.OP.of v ≠ 3 ∨ (ncmdResult s c rd a v).2 ≠ 0) (h4 : NW.OP.of v ≠ 4 ∨ (ncmdResult s c rd a v).2 ≠ 0) :
    ∃ t, exec (.ncmd c rd ra rb) s = .next t ∧ advanced (ncmdResult s c rd a v).1 t c (s.pcOf c + 4) ∧
      wrote (ncmdResult s c rd a v).1 t c rd (nresWord (ncmdResult s c rd a v).1 (NW.HANDLE.of v) (NW.OP.of v) (ncmdResult s c rd a v).2) ∧
      t.mem = s.mem := by
  have work : FabricWork s (ncmdResult s c rd a v).1 := (FabricWork.refl s).nodeOp _ _ _ _
  obtain ⟨t, he, ha, hw, hr⟩ := exec_gives (i := .ncmd c rd ra rb) (hc.trans (by decide)) hx hq rfl hin (hb.trans (ncmdRuns_answers h3 h4)) work
    (inv_ncmdResult hs c rd a v) (coreWork_refl _ c) rfl
  exact ⟨t, he, ha, hw, (hr.mem.trans (mem_setG _ c rd _)).trans work.mem⟩

end

end Sys2Proof.Machine

/-! Queue instructions of engines (R224, R226-R229). -/

namespace Sys2Proof.Machine

/-- Settles O49: each queue instruction by what its body answers, and its effect as the state on which it ends. -/
theorem queueInstructionsMoveFramesAndItems : Obligations.QueueInstructionsMoveFramesAndItems := by
  intro s c rd ra rb hs hc hd hra hrb hx a v o p pc fits ends copied ptrs
  have hin2 : [(rd, 32), (ra, 32)].all (fun q => decide (q.1 < q.2)) = true := by simp [hd, hra]
  have hin3 : [(rd, 32), (ra, 32), (rb, 32)].all (fun q => decide (q.1 < q.2)) = true := by simp [hd, hra, hrb]
  refine ⟨fun he => ?_, fun hce hq => ?_⟩
  · -- the pointer's exceptions
    have traps {i fields w len k} (hi : exec i s = insn c fields (withPtr w ra len k) s) (hin : fields.all (fun p => decide (p.1 < p.2)) = true) :
        (64 ≤ c → ∃ t, exec i s = .next t ∧ tookExc s t c 1 w pc) ∧
        (c < 64 → a % 4 ≠ 0 → ∃ t, exec i s = .next t ∧ tookExc s t c 2 a pc) ∧
        (c < 64 → a % 4 = 0 → (a < 0x10000 ∨ 0x20000 < a + len) → ∃ t, exec i s = .next t ∧ tookExc s t c 3 a pc) :=
      ⟨fun h => exec_raises hs hc hx he hi hin (withPtr_sup h) (by decide),
        fun h h4 => exec_raises hs hc hx he hi hin (withPtr_bad h (ptrExc_misaligned h4 len)) (by decide),
        fun h h4 ho => exec_raises hs hc hx he hi hin (withPtr_bad h (ptrExc_outside h4 ho)) (by decide)⟩
    have link {i rsv k} (hi : exec i s = insn c [(rd, 32), (ra, 32)] (lcmd rd ra rsv k) s) := traps (len := 16) hi hin2
    simp only [ptrs, List.forall_mem_cons]
    exact ⟨traps rfl hin2, traps rfl hin3, traps rfl hin3, traps rfl hin3, traps rfl hin2, link rfl, link rfl, link rfl, link rfl, link rfl, by simp⟩
  have inside {len} (h : fits len) : ptrExc (s.g c ra).toNat len = none := ptrExc_inside h.1 h.2.1 h.2.2
  have free {k} (h : ∀ q ∈ s.eng.held, q.2.1 ≠ p ∨ q.2.2 ≠ k) : s.eng.held.find? (fun q => q.2.1 == p && q.2.2 == k) = none :=
    List.find?_eq_none.mpr fun q hq' hm => by
      obtain ⟨h1, h2⟩ := by simpa using hm
      exact (h q hq').elim (· h1) (· h2)
  refine ⟨fun hf hnone => ?_, fun hf r k hfind hr => ?_, ⟨fun hf hm he => ?_, fun hf hm => ⟨fun hb => ?_, fun hb => ?_⟩⟩,
    ⟨fun q hq' => ?_, fun hnone ha => ?_, fun hnone ha he => ?_⟩, fun hf => ⟨fun hn => ?_, fun n ns hn => ?_⟩, ?_, ?_⟩
  · -- QRX without a descriptor
    exact exec_tells hc hx hs hq rfl hin2 (iQrx_empty hce (inside hf) (List.find?_eq_none.mpr fun q hq' hm => by
      obtain ⟨h1, h2⟩ := by simpa using hm
      exact (hnone q hq').elim (· h1) (· h2)))
  · exact exec_copies hce hx hq rfl hin2 (iQrx_copies hce (inside hf) hfind hr) ((FabricWork.refl s).beside rfl rfl rfl) hs hf.2.1
      (by rw [recBytes_length]; exact hf.2.2)
  · exact exec_barks hc hx hs he rfl hin3 (iCrd_barred hce (inside hf) hm)
  · obtain ⟨t, he, ha, hw, hm, -⟩ := exec_status (i := .crd c rd ra rb) hc hx hq rfl hin3 (iCrd_poisoned hce (inside hf) hm hb) ((FabricWork.refl s).cellParity _)
      (kept_inv (kept_cellParity _ s (kept_refl hs)))
    exact ⟨t, he, ⟨ha, hw⟩, hm⟩
  · exact exec_copies hce hx hq rfl hin3 (iCrd_copies hce (inside hf) hm hb) (.refl s) hs hf.2.1 (by
      rw [List.length_append, recBytes_length, octets_length]
      exact hf.2.2)
  · -- CREL of a delivery
    have held : FabricWork s { s with eng := { s.eng with held := s.eng.held.erase q } } := (FabricWork.refl s).beside rfl rfl rfl
    obtain ⟨t, he, ha, hw, hm, -⟩ := exec_status (i := .crel c rd ra) hc hx hq rfl hin2 (iCrel_held hce hq') (held.settleRx _)
      (kept_inv (kept_settleRx _ _ (kept_refl (s := { s with eng := { s.eng with held := s.eng.held.erase q } }) hs)))
    exact ⟨t, he, ⟨ha, hw⟩, hm⟩
  · exact exec_tells hc hx hs hq rfl hin2 ((iCrel_free hce (free hnone)).trans (if_pos ha))
  · exact exec_barks hc hx hs he rfl hin2 ((iCrel_free hce (free hnone)).trans (if_neg ha))
  · exact exec_tells hc hx hs hq rfl hin2 (iNtf_empty hce (inside hf) hn)
  · exact exec_copies hce hx hq rfl hin2 (iNtf_copies hce (inside hf) hn) ((FabricWork.refl s).beside rfl rfl rfl) hs hf.2.1 hf.2.2
  · -- QWR
    intro h x len hdr gives
    refine ⟨fun hf w hw he => exec_raises hs hc hx he rfl hin3 (iQwr_parity hce (inside hf) hw) (by decide), fun hf hw => ?_⟩
    have hp : ptrExc (s.g c ra).toNat 32 = none := ptrExc_inside hf.1 hf.2.1 (by have := hf.2.2; omega)
    have hfit : a + 32 + IH.LENGTH.of (qwrImage s c a) ≤ 0x20000 := (Nat.add_assoc _ _ _).trans_le hf.2.2
    refine ⟨fun ho he => exec_barks hc hx hs he rfl hin3 (iQwr_foreign hce hp hw hfit ho), fun ho hr =>
      exec_tells hc hx hs hq rfl hin3 (iQwr_refuses hce hp hw hfit ho hr), fun ho hr ht =>
      ⟨fun hn => exec_tells hc hx hs hq rfl hin3 (iQwr_many hce hp hw hfit ho hr ht hn), fun w hn hb he =>
        exec_raises hs hc hx he rfl hin3 ((iQwr_accepts hce hp hw hfit ho hr ht hn).trans (readsDmem_bad hb)) (by decide), fun hn hb hbp => ?_⟩⟩
    have writes := (iQwr_accepts (rd := rd) hce hp hw hfit ho hr ht hn).trans (readsDmem_good hb)
    have hlen : (s.bytes (dmemOff c (a + 32)) len).length = len := by simp [State.bytes]
    refine ⟨fun hl => exec_tells hc hx hs hq rfl hin3 (writes.trans (qwrWrites_refused (queueWrite_inactive hbp hl))),
      fun hl hpo => exec_tells hc hx hs hq rfl hin3 (writes.trans (qwrWrites_refused (queueWrite_poisoned hbp hl hpo))),
      fun hl hpo hlong => exec_tells hc hx hs hq rfl hin3 (writes.trans (qwrWrites_refused (queueWrite_tooLong hbp hl hpo hlong))),
      fun hl hpo hlong hfull => ?_, fun hl hpo hlong hmax hen hcells hq255 hlisted hgood => ?_⟩
    · exact exec_qwr_full hs hce hx hq hin3 writes hbp hl hpo hlong hfull
    · obtain ⟨t, hi, he, hpc, ⟨h1, -, h3⟩, hout, item, hm⟩ := exec_qwr_takes hs hce hx hq hin3 writes hbp hl hpo hlong hmax hcells hen hq255 hlisted hgood
      have kept {f : Fld} (h : ((f.apart IH.ATTEMPTS ∧ f.apart IH.FIRST_DATA) ∧ f.apart IH.NEXT_ITEM) ∧ f.apart IH.ENGINE ∧ f.apart (fld 0x04 6 10)) :
          t.ih hi f = f.of x := (item.image f h.1.1.1 h.1.1.2 h.1.2).trans (qwrHeader_apart c x h.2.1 h.2.2)
      exact ⟨t, hi, he, hpc, h1, h3, hout, item.wasFree, item.owner, item.header, item.qlen, (kept (by decide)).trans (qwrImage_origin s c a),
        (item.image _ (by decide) (by decide) (by decide)).trans (qwrHeader_engine hce x), kept (by decide), kept (by decide), kept (by decide),
        kept (by decide), kept (by decide), item.attempts, hm, item.free⟩
  · -- NCMD
    intro h op r hf
    have decides := iNcmd_decides (rd := rd) (rb := rb) hce (inside hf)
    refine ⟨fun ho he => exec_barks hc hx hs he rfl hin3 (decides.trans (if_pos ho)), fun ho hop => ?_, fun ho h0 h5 => ?_⟩
    · obtain ⟨t, he, ha, ⟨h1, h2, h3⟩, hm, -⟩ := exec_status (i := .ncmd c rd ra rb) hc hx hq rfl hin3
        (decides.trans ((if_neg (not_not_intro ho)).trans (if_pos hop))) (FabricWork.refl s).freed hs
      exact ⟨t, _, he, ha, ⟨h1, h2, h3⟩, hm⟩
    have known := decides.trans ((if_neg (not_not_intro ho)).trans (if_neg fun h => h.elim (Nat.ne_of_gt h0) (Nat.not_lt.mpr h5)))
    refine ⟨fun hb => insn_executes hc hx hin3 (known.trans (if_pos hb)), fun hb h2 w hw he => ?_, fun hb hread => ?_⟩
    · have reads : op = 1 ∨ op = 2 := by omega
      exact exec_raises hs hc hx he rfl hin3 (known.trans ((if_neg (ne_true_of_eq_false hb)).trans (readsDmem_bad ((congrArg (badDmem s c a) (if_pos reads)).trans hw)))) (by decide)
    have good : badDmem s c a (if op = 1 ∨ op = 2 then 64 else 0) = none := by
      split
      · next h => exact hread.resolve_left (by omega)
      · exact badDmem_zero s c a
    have runs : iNcmd rd ra rb c s = ncmdRuns rd a v c s := known.trans ((if_neg (ne_true_of_eq_false hb)).trans (readsDmem_good good))
    refine ⟨fun hr => exec_ncmd_prunes hs hce hx hin3 runs hr.1 hr.2, fun hr => ?_⟩
    by_cases h4 : op = 4 ∧ r.2 = 0
    · obtain ⟨t, he, ha, hw, hcopy⟩ := exec_ncmd_copies hs hce hx hin3 runs hq h4.1 h4.2 hf.2.1 hf.2.2
      exact ⟨t, he, ha, hw, fun _ _ => hcopy, fun hne => absurd h4.1 hne⟩
    · obtain ⟨t, he, ha, hw, hm⟩ := exec_ncmd_answers hs hce hx hin3 runs hq hr (not_and_or.mp h4)
      exact ⟨t, he, ha, hw, fun e e0 => absurd ⟨e, e0⟩ h4, fun _ => hm⟩

end Sys2Proof.Machine
